-- ==== Sys2Proof/Word.lean ====
section
/-! DEFINITION. The words of the machine: bytes, 32-bit words, and the sparse tables in which State keeps every
collection that is indexed by a number (objects, feeds, slots, registers, bytes of memory). -/
namespace Sys2Proof

/-- One byte (R9: multi-byte values in the module's memories are little-endian, on the network big-endian). -/
abbrev Byte := BitVec 8

/-- A 32-bit word: a Beam-visible register, a Rod address register, one lane of a vector register (R200). -/
abbrev Word := BitVec 32

/-- A sparse table: pairs of a key and a value, in one canonical form (keys strictly rising, no entry equal to what an
unlisted key reads as). Read and written only through `mget` and `mset`. -/
abbrev SMap (α : Type) := List (Nat × α)

end Sys2Proof
end

