-- ==== Sys2Proof/Types.lean ====
section
/-! DEFINITION. Plain data of the render pipeline that both State and the join commands carry: keyframes, objects,
crosspoints, feeds with their correction sequencers. -/
namespace Sys2Proof

/-- Where a channel stands under the miss rules R43 and R44: passing, or silent after `n` complete blocks of its
recovery. `silent 2` passes its next complete block with the rising ramp. -/
inductive Fade where
  | ok
  | silent (n : Nat)
  deriving DecidableEq, Repr

/-- A channel's fade with its block of the previous tick (R43 uses it under the falling ramp). -/
structure FadeCh where
  fade : Fade
  prev : List Int
  deriving DecidableEq, Repr

/-- A keyframe (R106). -/
structure Keyframe where
  object : Nat
  law    : Nat
  jump   : Bool
  tau    : Int
  x      : Int
  y      : Int
  z      : Int
  gain   : Int
  spread : Int
  zones  : Nat
  deriving DecidableEq, Repr

/-- A keyframe on its way to its arrival block (R109): stream keyframes come before dictionary ones. `slot` is the receive slot that
took it (R108); 0 for one from the dictionary. -/
structure KfArrival where
  block : Nat
  dict  : Bool
  slot  : Nat
  seq   : Nat
  kf    : Keyframe
  deriving DecidableEq, Repr

/-- An object's placement state (R110, R111, R143) with its miss sequence (R127). -/
structure Obj where
  placed  : Bool
  law     : Nat
  zones   : Nat
  anchorT : Int
  x       : Int
  y       : Int
  z       : Int
  gain    : Int
  spread  : Int
  lastTau : Option Int
  queue   : List Keyframe
  pfade   : Fade
  pfadeB  : Fade
  pleave  : Bool
  pleaveB : Bool
  active  : Nat
  deriving DecidableEq, Repr

/-- The kinds of crosspoint (R124). -/
inductive XKind where
  | continuing
  | entering
  | leaving
  deriving DecidableEq, Repr

/-- A crosspoint of one block (R124): object, feed, kind, delay in 2^−14 sample and gain in Q4.28 at both ends. -/
structure Crosspoint where
  o    : Nat
  f    : Nat
  kind : XKind
  d0   : Int
  d1   : Int
  g0   : Int
  g1   : Int
  deriving DecidableEq, Repr

/-- The four states of a biquad section (R152). -/
structure Biquad where
  x1 : Int
  x2 : Int
  y1 : Int
  y2 : Int
  deriving DecidableEq, Repr

/-- A block spectrum with its exponent (R163). -/
structure Spectrum where
  e  : Nat
  re : List Int
  im : List Int
  deriving DecidableEq, Repr

/-- One partition of coefficient spectra in Q8.24 (R161). -/
structure Partition where
  re : List Int
  im : List Int
  deriving DecidableEq, Repr

/-- The coefficient spectra of an effective filter and its length Le (R160, R161). -/
structure FilterSet where
  len   : Nat
  parts : List Partition
  deriving DecidableEq, Repr

/-- Bank states (R174). -/
inductive BankState where
  | empty
  | preparing
  | ready
  | selected
  deriving DecidableEq, Repr

/-- A coefficient bank (R159): state, taps, and the spectra in its DRAM slot. -/
structure Bank where
  state : BankState
  taps  : List Int
  set   : FilterSet
  deriving DecidableEq, Repr

/-- A request of the correction sequencer (R168), and the emptying of both banks by an allocation (R156). -/
inductive SeqReq where
  | load   (bank : Nat) (taps : List Int)
  | switch (bank : Nat)
  | enable (on : Bool)
  | trim   (taps : Option (List Int))
  | clear
  deriving DecidableEq, Repr

/-- What the sequencer is doing with the request in progress (R174): preparing since a block, waiting for crossfade
budget, or crossfading since a block for a number of ticks. -/
inductive SeqPhase where
  | preparing (start : Nat)
  | waiting (counted : Bool)
  | crossfading (start len : Nat)
  deriving DecidableEq, Repr

/-- The correction state of one feed (R156 to R174): both banks, the Ledger copy, the delay line of spectra (newest first), the path
and the selected bank in force, the trim in force and the one being brought in, the bank that 4000+f:03 holds, the first
block that may take a request, the sequencer with the requests that wait, each with its apply block, and whether the trim-excluded
event is due and was raised for the last publication, and the zone whose publication the trims come from (R160). -/
structure Corr where
  bank0    : Bank
  bank1    : Bank
  cur      : FilterSet
  fdl      : List Spectrum
  enabled  : Bool
  selected : Option Nat
  trim     : Option (List Int)
  newTrim  : Option (List Int)
  named    : Nat
  free     : Nat
  running  : Option (SeqReq × SeqPhase)
  waiting  : List (Nat × SeqReq)
  excluded : Bool
  told     : Bool
  zone     : Nat
  deriving DecidableEq, Repr

/-- The output-bus state of one feed (R149 to R176) and its fades in the delay-matrix and output-bus stages. -/
structure FeedSt where
  gPrev  : Option Int
  bq     : SMap Biquad
  align  : List Int
  alignA : Nat
  x3prev : List Int
  corr   : Corr
  limG   : Int
  dm     : FadeCh
  ob     : FadeCh
  deriving DecidableEq, Repr

/-- A pending write (R426 to R429): entry, value, apply tick, apply time of a timed write, key, and whether a verdict of
the partner is still awaited (R433), with the session, SEQ and OP of the request that waits for it. -/
structure Pending where
  index   : Nat
  sub     : Nat
  bytes   : List Byte
  block   : Nat
  time    : Option Int
  keyT    : Nat
  keyId   : Nat
  await   : Bool
  session : Nat
  seq     : Nat
  op      : Nat
  deriving DecidableEq, Repr

/-- The join image that the Active captures at t_I (R465, state 1), with the partner's unique identifier. -/
structure JoinImage where
  block   : Nat
  dict    : SMap Nat
  dom     : SMap (List Byte)
  pend    : List Pending
  feeds   : SMap FeedSt
  objs    : SMap Obj
  xpts    : List Crosspoint
  arrivals : List KfArrival
  uid     : Nat
  deriving DecidableEq, Repr

/-- The cut state that the Active captures at t_(C+2) (R465, state 3). -/
structure JoinCut where
  block   : Nat
  feeds   : SMap FeedSt
  sigma   : Int
  sigmaT  : Int
  zoff    : SMap Int
  zoffT   : SMap Int
  aesQ    : SMap Nat
  deriving DecidableEq, Repr

end Sys2Proof
end

