-- ==== Sys2Proof/Syntax.lean ====
section
/-! DEFINITION. The commands of the block: one constructor of `Instr` per row of spec/opcode_table.json, with the operands
that the row's rule gives it. Numbers of instances (an object, a feed, a Rod, a register) are plain numbers; WellFormed
says which are in range. An operand `at` is an instant in ns measured from the boundary of the current tick (the spec's
own way of naming an instant within a tick, 00_scope). -/
namespace Sys2Proof

/-- A dictionary value: a number (any fixed-size type, as its bit pattern) or the bytes of a STRING or DOMAIN (R404). -/
inductive Val where
  | num   (n : Nat)
  | bytes (b : List Byte)
  deriving DecidableEq, Repr

/-- Why RESET happens: RESET_N asserted, or an internal reset (R318). -/
inductive ResetCause where
  | pin
  | internal
  deriving DecidableEq, Repr

/-- What a test found in one unit: the unit entry of R491, with `oneBit` for a Rod memory word with one failing bit
and `lanes` for failed Beads (R495). -/
structure UnitResult where
  unit     : Nat
  outcome  : Nat
  lanes    : Nat
  patterns : Nat
  sig      : Nat
  oneBit   : Bool
  deriving DecidableEq, Repr, Inhabited

/-- What one run of a partition test observed (R486, R489 to R492). -/
structure TestObs where
  results    : List UnitResult
  expected   : List UnitResult
  durationUs : Nat
  tempMin    : Int
  tempMax    : Int
  vinMin     : Nat
  vcore      : Nat
  stuckAt    : Nat
  transition : Nat
  deriving DecidableEq, Repr, Inhabited

/-- What full training measures on one sub-channel of a rank (R285): the worst read and write eye and the command-bus eye in ps, the
reference-voltage window in mV, and the bit errors of the final pattern check. -/
structure SubObs where
  readEye  : Nat
  writeEye : Nat
  refWindow : Nat
  cmdEye   : Nat
  errors   : Nat
  deriving DecidableEq, Repr, Inhabited

/-- What the DRAM bring-up observed (R283 to R287): identity registers, die temperature, rails, what training measures rank by rank
and sub-channel by sub-channel, the delays and references that it finds, the errors of the pattern check at stored settings, the
scan of each bit at the steps around its stored delay, and the time. -/
structure DramObs where
  ids         : List Nat
  temp        : Int
  railCore    : Nat
  railIo      : Nat
  subs        : List (List SubObs)
  delays      : List Nat
  refs        : List Nat
  checkErrors : Nat
  scan        : List (List Bool)
  ms          : Nat
  deriving DecidableEq, Repr, Inhabited

/-- What the start sequence observes (R477 to R483): the straps, the tests and the DRAM bring-up. -/
structure BootObs where
  bootMode   : Bool
  testEn     : Bool
  twinId     : Nat
  vinMv      : Nat
  temp       : Int
  check      : List UnitResult
  test       : TestObs
  dram       : DramObs
  erasureOk  : Bool
  ms         : Nat
  deriving DecidableEq, Repr

/-- A firmware image as the module judges it (R480, R515 to R517): its directory state (0 Good, 1 Trial, 2 Failed),
sequence number, versions, security version, output class, self-test format, and whether its Vrelneka signature and its
countersignature under the image root verify. -/
structure ImageInfo where
  state       : Nat
  seq         : Nat
  version     : Nat
  renderVer   : Nat
  svn         : Nat
  occ         : Nat
  format      : Nat
  vendorSig   : Bool
  counterSig  : Bool
  deriving DecidableEq, Repr, Inhabited

/-- A section of a user-slot image: instruction memory or data memory, its byte address there, its bytes (R228). -/
structure ImageSection where
  instr : Bool
  base  : Nat
  bytes : List Byte
  deriving DecidableEq, Repr, Inhabited

/-- A user-slot image (R228): its length, manifest and whether a signature is present and verifies under the kernel
root. -/
structure SlotImage where
  length   : Nat
  cd       : Nat
  bd       : Nat
  format   : Nat
  sections : List ImageSection
  signed   : Bool
  sigOk    : Bool
  manifest : List Byte
  deriving DecidableEq, Repr, Inhabited

/-- What is observed at a tick boundary: the GPIO balls, VIN, the hottest die sensor, input power, the level of ACT_IN
whether the Reckoner's own checks passed in the tick that ends, and the codewords that the decoders of the ports with RS-FEC
corrected and could not correct in it: port, corrected, uncorrectable (R317, R454, R442, R547, R346). -/
structure BoundaryObs where
  gpio    : Nat
  vinMv   : Nat
  temp    : Int
  powerMw : Nat
  actIn   : Bool
  service : Bool
  fec     : List (Nat × Nat × Nat)
  deriving DecidableEq, Repr

/-- What the correlation of one window gives for the pair (zone, microphone) (R178 to R180): where its largest value lies, in samples
from the predicted lag, that value and its two neighbours, the mean level of the reference, the ratio of the peak, and the 30 band
levels in 0.01 dB. -/
structure PairEstimate where
  zone    : Nat
  mic     : Nat
  peakAt  : Int
  yL      : Int
  yM      : Int
  yR      : Int
  levelDb : Int
  ratioDb : Int
  bands   : List Int
  deriving DecidableEq, Repr

/-- A drift publication as it crosses the twin link (R184): the tick D, the σ target, zone offset targets, trims with
their band gains. -/
structure DriftPub where
  tickD : Nat
  sigma : Int
  zoffs : List (Nat × Int)
  trims : List (Nat × List Int × List Int)
  deriving DecidableEq, Repr

/-- A Sync as received (R60, R68, R69, R81): port, master, domain, transport as 2000:04 numbers them, origin time in ns,
correctionField in 2^−16 ns, and the PCS capture time in 1/16 ns of local time. -/
structure SyncMsg where
  port    : Nat
  master  : Nat
  domain  : Nat
  transport : Nat
  origin  : Int
  corr    : Int
  capture : Int
  deriving DecidableEq, Repr

/-- An Announce (R60, R63, R65, R85): port, domain, transport as 2000:04 numbers them, the grandmaster fields that the BMCA
compares, timeSource, and the clock identities of its path-trace TLV. -/
structure Announce where
  port     : Nat
  domain   : Nat
  transport : Nat
  prio1    : Nat
  cls      : Nat
  accuracy : Nat
  variance : Nat
  prio2    : Nat
  identity : Nat
  steps    : Nat
  source   : Nat
  path     : List Nat
  deriving DecidableEq, Repr

/-- The event messages that the module originates (R71) and those it corrects in transit (R72). -/
inductive PtpKind where
  | sync
  | delayReq
  | pdelayReq
  | pdelayResp
  deriving DecidableEq, Repr

/-- How a PTP frame is carried: Ethernet, UDP with compensation octets, UDP without them (R73). -/
inductive PtpCarrier where
  | ethernet
  | udpComp
  | udpPlain
  deriving DecidableEq, Repr

/-- What a ring frame carries, as R311 tells frames apart: of IPv4 the TTL, the destination and whether it is an ICMP echo request;
of PTP its source, messageType and sequenceId, and for an event message the capture and departure instants in 1/16 ns and the
correctionField (R72); of ARP whether it asks, and for which address. -/
inductive FrameKind where
  | linkLocal
  | ipv4 (ttl dst : Nat) (echo : Bool)
  | ptp  (source msgType seqId : Nat) (capture depart corr : Int)
  | arp  (request : Bool) (target : Nat)
  | other
  deriving DecidableEq, Repr

/-- A frame arriving on a ring port (R311, R312): addresses, length, kind, and whether its check sequence holds and it
stays within 9,022 bytes while it is forwarded. -/
structure RingFrame where
  srcMac : Nat
  dstMac : Nat
  length : Nat
  kind   : FrameKind
  fcsOk  : Bool
  pause  : Bool
  deriving DecidableEq, Repr

/-- A UDP datagram that may match a receive slot (R331, R332). -/
structure Datagram where
  dstIp   : Nat
  dstPort : Nat
  ipOk    : Bool
  frag    : Bool
  udpOk   : Bool
  payload : List Byte
  deriving DecidableEq, Repr

/-- One AES3 subframe (R350, R351): the 24-bit audio field, validity, user and channel-status bits, and whether parity
and biphase coding hold. -/
structure AesSub where
  audio  : Nat
  v      : Bool
  u      : Bool
  c      : Bool
  codeOk : Bool
  deriving DecidableEq, Repr

/-- One AES3 frame: both subframes and whether it starts with the Z preamble (R350, R352). -/
structure AesFrame where
  a : AesSub
  b : AesSub
  z : Bool
  deriving DecidableEq, Repr

/-- The lock parameters of an AES3 input as decided or received (R360). -/
structure LockVals where
  block  : Nat
  phi    : Int
  anchor : Nat
  q      : Nat
  rho    : Nat
  deriving DecidableEq, Repr

/-- The sense bits of one carrier period of a drive channel: 32 voltage bits and 32 current bits, bit 0 first
(R384). -/
structure SenseBits where
  ch : Nat
  v  : Nat
  i  : Nat
  deriving DecidableEq, Repr

/-- What a carrier period takes from the balls (R384, R395): sense bits of channels, rail bits of groups, and the
levels of DRV_OC over the period. -/
structure CarrierIn where
  sense : List SenseBits
  rails : List (Nat × Nat)
  oc    : Nat
  deriving DecidableEq, Repr

/-- A partner heartbeat frame (R455): the fields after KIND, whether its frame check sequence is right, and the header that makes it a
heartbeat. -/
structure HbFrame where
  tick      : Nat
  role      : Nat
  sync      : Nat
  twin      : Nat
  flags     : Nat
  health    : Nat
  markBlock : Nat
  markCause : Nat
  tstate    : Nat
  marks     : Nat
  digTx     : List Nat
  digAes    : List Nat
  fcsOk     : Bool
  ethertype : Nat
  magic     : Nat
  version   : Nat
  kind      : Nat
  deriving DecidableEq, Repr

/-- Where an FOL frame came in: ring A (0), ring B (1) or management (2), the client's IPv4 address, and the UDP port
to which it came (R442). -/
structure FolSrc where
  port : Nat
  addr : Nat
  udp  : Nat
  deriving DecidableEq, Repr

/-- An FOL frame by the layout of R411. -/
structure FolFrame where
  magic    : Nat
  version  : Nat
  op       : Nat
  session  : Nat
  seq      : Nat
  index    : Nat
  sub      : Nat
  flags    : Nat
  apply    : Nat
  offset   : Nat
  total    : Nat
  length   : Nat
  reserved : Nat
  status   : Nat
  data     : List Byte
  tag      : List Byte
  deriving DecidableEq, Repr

/-- A Shared write as forwarded over the twin link (R432): entry, data, apply tick, and the key of R429. -/
structure Forward where
  index : Nat
  sub   : Nat
  val   : Val
  block : Nat
  keyT  : Nat
  keyId : Nat
  deriving DecidableEq, Repr

/-- A change in the bits of one aligned 64-bit memory word that happened since the last access: its byte address, and
the bit that now reads wrong, or none when the word has become uncorrectable (R270, R272, R280). -/
structure Upset where
  addr : Nat
  bit  : Option Nat
  deriving DecidableEq, Repr

/-- A burst request of a Beam master (R255): bytes, strobes, whether it is locked, and whether it is a deep-line read. -/
structure BeamReq where
  master : Nat
  addr   : Nat
  write  : Bool
  len    : Nat
  data   : List Byte
  strobe : List Bool
  locked : Bool
  deep   : Bool
  deriving DecidableEq, Repr

/-- The load slot of a parallel word (R201, R204). -/
inductive LdKind where
  | ldv
  | ldb
  | lds
  deriving DecidableEq, Repr

/-- The store slot of a parallel word (R201, R204). -/
inductive StKind where
  | stv
  | stl
  | std
  deriving DecidableEq, Repr

/-- The address-update modes (R205). -/
inductive UpdKind where
  | linear
  | circular
  | bitReversed
  deriving DecidableEq, Repr

/-- A load: kind, destination vector register, address register. -/
structure LdSlot where
  kind : LdKind
  v    : Nat
  an   : Nat
  deriving DecidableEq, Repr

/-- A store: kind, source vector register, address register. -/
structure StSlot where
  kind : StKind
  v    : Nat
  an   : Nat
  deriving DecidableEq, Repr

/-- An address update: mode, register, and USTEP (0 MDn, 1 +4, 2 +32, 3 −32). -/
structure UpdSlot where
  kind : UpdKind
  an   : Nat
  step : Nat
  deriving DecidableEq, Repr

/-- The slots of a parallel word beside its vector operation (R201). -/
structure Slots where
  ld : Option LdSlot
  st : Option StSlot
  u1 : Option UpdSlot
  u2 : Option UpdSlot
  deriving DecidableEq, Repr

/-- The vector operations of a parallel word (R221, VOP codes 0x00 to 0x42), with their register fields. -/
inductive VOp where
  | nop
  | vmov (vd va : Nat)
  | vadd (vd va vb : Nat)
  | vsub (vd va vb : Nat)
  | vaddw (vd va vb : Nat)
  | vsubw (vd va vb : Nat)
  | vmul (vd va vb : Nat)
  | vabs (vd va : Nat)
  | vneg (vd va : Nat)
  | vmin (vd va vb : Nat)
  | vmax (vd va vb : Nat)
  | vand (vd va vb : Nat)
  | vor (vd va vb : Nat)
  | vxor (vd va vb : Nat)
  | vnot (vd va : Nat)
  | vcmpgt (vd va vb : Nat)
  | vcmpeq (vd va vb : Nat)
  | vshl (vd va n : Nat)
  | vshr (vd va n : Nat)
  | vshrl (vd va n : Nat)
  | vperm (vd va vb : Nat)
  | vbcst (vd va n : Nat)
  | vmpy (ac va vb : Nat)
  | vmac (ac va vb : Nat)
  | vmsu (ac va vb : Nat)
  | vclr (ac : Nat)
  | vlift (ac va : Nat)
  | vaadd (ac acs : Nat)
  | vasub (ac acs : Nat)
  | vtrw (ac : Nat)
  | vred (ac : Nat)
  | vaex (acs : Nat)
  | vrd (vd acs n : Nat)
  | vrdl (vd acs : Nat)
  | vrdm (vd acs : Nat)
  | vrdh (vd acs : Nat)
  | vwra (ac va vb : Nat)
  | vwrh (ac va : Nat)
  | vrdx (vd acs : Nat)
  | smax (va : Nat)
  | smin (va : Nat)
  | smaxa (va : Nat)
  deriving DecidableEq, Repr

/-- The commands. Each docstring gives the mnemonic of the row, the rule it rests on and its summary. -/
inductive Instr where
  /-- RESET (R3). Any reset makes every output inert, disables every externally reaching function and applies the defaults of entries not kept in non-volatile storage. -/
  | reset (cause : ResetCause)
  /-- START_INSTANT (R478). At the later of power-good and the release of RESET_N, the module runs the start sequence from boot ROM to the Ready state. -/
  | startInstant (obs : BootObs)
  /-- TRIAL_TIMEOUT (R480). A Trial image that fails to reach Ready within 10 s on two consecutive attempts is marked Failed. -/
  | trialTimeout
  /-- LIBRARY_RESTORE_DONE (R484). The copy of the show library into the retained store completes and 8000:0D reads 1. -/
  | libraryRestoreDone
  /-- BROWNOUT (R316). VIN falling below 4.2 V sets BROWNOUT and releases both bypass holds. -/
  | brownout (at_ : Nat) (vinMv : Nat)
  /-- BROWNOUT_END (R316). VIN staying above 4.4 V for 10 ms clears BROWNOUT. -/
  | brownoutEnd (at_ : Nat) (vinMv : Nat)
  /-- POWER_GOOD_FALL (R477). VIN dropping below 3.9 V drops power-good, which resets the module. -/
  | powerGoodFall (vinMv : Nat)
  /-- TICK_BOUNDARY (R34). At each tick boundary the stages publish their results and begin the next blocks. -/
  | tickBoundary (obs : BoundaryObs)
  /-- PLACEMENT_PUBLISH (R142). The Placement stage publishes the crosspoint lists, or at its deadline publishes the completed objects. -/
  | placementPublish (at_ : Nat)
  /-- SPAN_DELIVERED (R140). A prefetched delay-line span arrives and releases a Slide engine stalled on it. -/
  | spanDelivered (at_ engine object feed : Nat)
  /-- FEED_RENDER (R132). A Slide engine renders all crosspoints of one feed into its feed buffer. -/
  | feedRender (at_ feed : Nat)
  /-- INGRESS_COMMIT (R40). At t_(X+1) − 4,000 ns ingress commits block X and judges missing channels. -/
  | ingressCommit (missed : List Nat) (pdm : List (Nat × List Bool))
  /-- PLACEMENT_DEADLINE (R142). At t_X + 120,000 ns incomplete objects enter the placement miss scope. -/
  | placementDeadline (incomplete : List Nat)
  /-- DELAY_MATRIX_DEADLINE (R40). At t_(X+1) − 8,000 ns incomplete feeds enter the delay-matrix miss scope. -/
  | delayMatrixDeadline
  /-- OUTPUT_BUS_DEADLINE (R40). At t_(X+1) − 8,000 ns incomplete feeds enter the output bus and correction miss scope. -/
  | outputBusDeadline (incomplete : List Nat) (userSlots : List Nat)
  /-- EGRESS_DEADLINE (R563). An egress deadline missed leaves streams and local outputs without their block, which fall under the egress miss rules. -/
  | egressDeadline (slots aes drives : List Nat)
  /-- TALLY_PURGE (R252). A write to TALLY_PURGE removes every held item of the stage and block. -/
  | tallyPurge (value : Nat)
  /-- PREPARATION_COMPLETE (R169). At block S + 300 a bank preparation takes effect, or overruns and is cancelled. -/
  | preparationComplete (feed : Nat) (complete : Bool)
  /-- CROSSFADE_END (R171). After F ticks a crossfade ends and only the incoming path runs. -/
  | crossfadeEnd (feed : Nat)
  /-- DRIFT_ESTIMATE_WINDOW (R178). The tracker completes an averaging window and updates each pair's lag estimate and validity. -/
  | driftEstimateWindow (est : List PairEstimate)
  /-- DRIFT_PUBLICATION (R182). At each publication interval in track mode the Active forms new σ, offset and trim targets. -/
  | driftPublication
  /-- DRIFT_PUBLICATION_RECEIVED (R184). The Standby receives a publication from the Active over the twin link. -/
  | driftPublicationReceived (pub : DriftPub)
  /-- DRIFT_APPLY (R184). At block D + 4 both modules apply a publication and trim requests enter the sequencers. -/
  | driftApply
  /-- SYNC_RECEIVED (R81). An accepted Sync gives an offset that disciplines the servo or drives the time states. -/
  | syncReceived (at_ : Nat) (msg : SyncMsg)
  /-- REBASE_VALUES_RECEIVED (R88). The Standby receives E_new and B from the Active. -/
  | rebaseValuesReceived (epoch : Int) (block : Nat)
  /-- REBASE_FALLBACK (R88). A Standby with no values by tick D + 2 decides and applies its own rebase. -/
  | rebaseFallback
  /-- REBASE_APPLY (R89). At t_B the new epoch offset takes effect, channels are re-anchored and pending writes re-evaluated. -/
  | rebaseApply
  /-- ANNOUNCE_RECEIVED (R85). An Announce feeds BMCA and the qualification of a master. -/
  | announceReceived (at_ : Nat) (msg : Announce)
  /-- QUALIFICATION_END (R85). A master qualifies after its window and the first accepted Sync decides Locked or Rebase-confirm. -/
  | qualificationEnd
  /-- ANNOUNCE_TIMEOUT (R84). The announce receipt timeout expires, entering Holdover or allowing the Grandmaster role. -/
  | announceTimeout (port : Nat)
  /-- SYNC_LOSS (R84). Four consecutive expected Syncs fail to arrive and the module enters Holdover. -/
  | syncLoss
  /-- DELAY_MEASUREMENT_COMPLETE (R83). A delay measurement completes and gives the slave port's mean path delay. -/
  | delayMeasurementComplete (port delayNs : Nat)
  /-- PTP_MESSAGE_SEND (R71). At each message interval the module originates a PTP event message with its egress time stamp. -/
  | ptpMessageSend (port : Nat) (kind : PtpKind) (depart : Int)
  /-- PDELAY_REQ_RECEIVED (R71). A Pdelay_Req is answered with a Pdelay_Resp carrying the turnaround time. -/
  | pdelayReqReceived (port : Nat) (capture depart : Int)
  /-- PTP_TRANSIT (R72). A transit PTP event message has its residence time added to correctionField. -/
  | ptpTransit (inPort outPort : Nat) (kind : PtpKind) (carrier : PtpCarrier) (capture depart corr : Int)
  /-- COUNTER_WRAP (R74). The 32-bit counter wraps, setting WRAP_PEND, or CARRY_LOST when it was already set. -/
  | counterWrap
  /-- TU_CARRY_WRITE (R74). A write to TU_CARRY sets Carry and clears WRAP_PEND. -/
  | tuCarryWrite (value : Nat)
  /-- CARRY_LOST_CLEAR (R74). A write of 1 to CARRY_LOST clears it. -/
  | carryLostClear
  /-- COMPARATOR_FIRE (R78). A time-unit comparator fires when local time reaches its target. -/
  | comparatorFire (at_ n : Nat)
  /-- PULSE_WIDTH_END (R96). A pulse output ends its pulse after the programmed width. -/
  | pulseWidthEnd (at_ n : Nat)
  /-- CAPTURE_EDGE (R98). A selected edge on a capture input is time-stamped as network time. -/
  | captureEdge (at_ n : Nat) (rising : Bool)
  /-- RING_FRAME_RECEIVED (R311). A frame arriving on a ring port is dropped, delivered, forwarded or both. -/
  | ringFrameReceived (at_ port : Nat) (frame : RingFrame)
  /-- LINK_LOCK (R308). A port attains block lock and loads the latency terms of its mode. -/
  | linkLock (port mode : Nat)
  /-- LINK_LOSS (R308). A port loses lock for 10 ms and restarts its mode alternation. -/
  | linkLoss (port : Nat)
  /-- LINE_MODE_ALTERNATE (R308). In auto mode a port without lock switches between 25GBASE-R and 10GBASE-R every 500 ms. -/
  | lineModeAlternate (port : Nat)
  /-- BYPASS_DEADMAN_STARVED (R318). Two unfed tick boundaries release the bypass holds and clear EN. -/
  | bypassDeadmanStarved
  /-- AUTOMATIC_REJOIN (R319). After 3,000 fed ticks without brown-out, automatic rejoin sets EN again. -/
  | automaticRejoin
  /-- SETTLE_TIME_END (R320). At the end of the settle time the module passes from Joining to In. -/
  | settleTimeEnd
  /-- BYP_CTRL_EN_WRITE (R319). A write to BYP_CTRL EN enables ring participation. -/
  | bypCtrlEnWrite (value : Bool)
  /-- BYP_CTRL_FEED (R317). A write of FEED feeds the bypass dead-man while rendering is off. -/
  | bypCtrlFeed
  /-- STREAM_PACKET_RECEIVED (R335). A stream packet matching a receive slot is checked, placed by time, taken or discarded as duplicate. -/
  | streamPacketReceived (at_ port : Nat) (dgram : Datagram)
  /-- SHADOW_CUTOFF (R335). At the cut-off with no primary copy, the slot takes the first valid shadow copy. -/
  | shadowCutoff (slot block : Nat)
  /-- AES3_FRAME_RECEIVED (R356). An AES3 frame is decoded and assigned to its grid sample or converter index. -/
  | aes3FrameReceived (at_ input : Nat) (frame : AesFrame)
  /-- AES3_NON_AUDIO_END (R362). After 8,192 frames without a burst preamble and audio channel status, non-audio ends. -/
  | aes3NonAudioEnd (input : Nat)
  /-- AES3_LOCK_VALUES_RECEIVED (R360). The Standby receives the lock parameters from the Active. -/
  | aes3LockValuesReceived (input : Nat) (vals : LockVals)
  /-- AES3_LOCK_APPLY (R360). At block D + 4 the lock parameters apply and the channels enter with the rising ramp. -/
  | aes3LockApply (input : Nat)
  /-- AES3_RHO_DECISION (R360). Every 64 ticks the Active decides a new converter ratio. -/
  | aes3RhoDecision (input rho : Nat)
  /-- AES3_NO_SIGNAL (R351). No valid preamble for 8 frame periods or 50 µs makes the input have no signal. -/
  | aes3NoSignal (input : Nat)
  /-- AES3_RATE_WINDOW (R353). Every 64 ticks the rate estimator publishes the measured and nominal rates. -/
  | aes3RateWindow (input : Nat)
  /-- PDM_STUCK (R375). 4,096 equal bits make a PDM input stuck. -/
  | pdmStuck (input : Nat)
  /-- PDM_STUCK_RECOVER (R375). After two clean ticks a stuck PDM input recovers by R44. -/
  | pdmStuckRecover (input : Nat)
  /-- CARRIER_PERIOD (R388). Each carrier period the drive engine computes the limiter gain and the duty code of every active channel. -/
  | carrierPeriod (inp : CarrierIn)
  /-- RAIL_STATE_CHANGE (R391). A rail group enters or leaves Under, Over or Sense stuck after its period counts. -/
  | railStateChange (group : Nat)
  /-- OVER_CURRENT_CUT (R395). DRV_OC_n asserted drives both outputs low within 50 ns for the period. -/
  | overCurrentCut (at_ channel widthNs : Nat)
  /-- DRIVE_SHUTDOWN (R396). After 64 limited periods or a stuck sense stream, the channel shuts down into Hold-off or Latched. -/
  | driveShutdown (channel : Nat)
  /-- SENSE_STUCK (R385). A sense stream with 4,096 equal bits shuts its channel down or stops its rail group. -/
  | senseStuck (stream index : Nat)
  /-- DRIVE_FAULT_ITEM (R396). The Urgent item of a shutdown is given to a Rod, which starts the fault ramp. -/
  | driveFaultItem (channel : Nat)
  /-- DRV_MUTE_FAULT_RAMP (R397). A write of FAULT_RAMP starts the fault ramp at the next period. -/
  | drvMuteFaultRamp (channel : Nat)
  /-- HOLD_OFF_END (R397). At the end of the hold-off the channel retries through Starting or Rail stop. -/
  | holdOffEnd (channel : Nat)
  /-- RETRY_COUNT_RESET (R397). After 10 s without a shutdown the failed retry count returns to zero. -/
  | retryCountReset (channel : Nat)
  /-- DRIVE_START (R393). At the start of tick A + 4 an enabled channel starts at 50 % duty, or enters Rail stop. -/
  | driveStart (channel : Nat)
  /-- DRIVE_STOP (R394). In tick A + 4 gm falls to zero, and at tick A + 5 the outputs go low and the channel is Idle. -/
  | driveStop (channel : Nat)
  /-- DRIVE_GATE_CHANGE (R380). The role gate with drive enable changes, switching DRV_SEL and the PWM outputs. -/
  | driveGateChange (at_ : Nat) (actIn : Bool)
  /-- HEARTBEAT_FRAME_RECEIVED (R456). A partner heartbeat frame is received and its fields are copied to 6002. -/
  | heartbeatFrameReceived (at_ : Nat) (frame : HbFrame)
  /-- TWIN_EVALUATION (R457). At t_X + 2,000 ns the module judges silence and the takeover causes, and compares digests. -/
  | twinEvaluation (actInLowNs : Nat)
  /-- SPLIT_BRAIN_SUSPECTED (R472). After 3,000 ticks in which both modules report Solo, split brain is suspected. -/
  | splitBrainSuspected
  /-- ACT_IN_COLLISION (R450). ACT_IN and ACT_OUT both high make the junior drop ACT_OUT and the senior record a collision. -/
  | actInCollision (at_ : Nat)
  /-- COLLISION_TIMEOUT (R450). ACT_IN still high 10,000 ns after a collision raises an interlock fault. -/
  | collisionTimeout (actIn : Bool)
  /-- ACT_OUT_DEADMAN_STARVED (R449). The second unfed boundary drops ACT_OUT within 100 ns. -/
  | actOutDeadmanStarved
  /-- ACT_OUT_CLAIM (R449). After ACT_IN has been low for 200 ns a claiming module drives ACT_OUT high. -/
  | actOutClaim (at_ actInLowNs : Nat)
  /-- FAULT_HANDOVER (R464). An Active whose FAULT bit is set hands over at the next boundary when the partner is FIT. -/
  | faultHandover
  /-- ACTIVE_FAULT_HANDOVER (R471). An Active reaching its own-fault mismatch threshold hands over once the partner is FIT. -/
  | activeFaultHandover
  /-- JOIN_IMAGE_COMPLETE (R465). The join image is complete and the Standby starts the Fill state. -/
  | joinImageComplete (image : JoinImage)
  /-- JOIN_FILL_END (R465). The fill period ends with placement caught up, and the Active chooses the cut block. -/
  | joinFillEnd (caughtUp : Bool)
  /-- JOIN_CUT_INSTALL (R465). The Standby installs the cut state and replays block C, or restarts the join. -/
  | joinCutInstall (cut : JoinCut) (inTime : Bool)
  /-- JOIN_VERIFY_END (R465). After 3,000 blocks without mismatch the Standby becomes Synced. -/
  | joinVerifyEnd
  /-- OPEN (R415). An OPEN frame opens a session with a derived session key. -/
  | folOpen (at_ : Nat) (src : FolSrc) (frame : FolFrame)
  /-- CLOSE (R416). A CLOSE frame ends the session and cancels its transfer. -/
  | folClose (at_ : Nat) (src : FolSrc) (frame : FolFrame)
  /-- READ (R424). A READ returns an entry or the first segment of a DOMAIN and fixes its value for the session. -/
  | folRead (at_ : Nat) (src : FolSrc) (frame : FolFrame)
  /-- WRITE (R426). A WRITE is checked, given its apply tick and queued, or starts a segmented write. -/
  | folWrite (at_ : Nat) (src : FolSrc) (frame : FolFrame)
  /-- READ_SEG (R424). A READ_SEG returns the DOMAIN segment at OFFSET. -/
  | folReadSeg (at_ : Nat) (src : FolSrc) (frame : FolFrame)
  /-- WRITE_SEG (R422). A WRITE_SEG carries the next segment, and the last one triggers acceptance. -/
  | folWriteSeg (at_ : Nat) (src : FolSrc) (frame : FolFrame)
  /-- XFER_ABORT (R423). An XFER_ABORT cancels the session's transfer and discards the staged bytes. -/
  | folXferAbort (at_ : Nat) (src : FolSrc) (frame : FolFrame)
  /-- KEEPALIVE (R412). A KEEPALIVE keeps the session open. -/
  | folKeepalive (at_ : Nat) (src : FolSrc) (frame : FolFrame)
  /-- IDENT (R421). An IDENT frame is answered with an untagged identification. -/
  | folIdent (at_ : Nat) (src : FolSrc) (frame : FolFrame)
  /-- SESSION_TIMEOUT (R416). A session without a valid frame for the timeout ends. -/
  | sessionTimeout (session : Nat)
  /-- TRANSFER_TIMEOUT (R423). More than 2 s between two frames of a transfer refuses it whole. -/
  | transferTimeout (session : Nat)
  /-- WRITE_FORWARD_RECEIVED (R432). A partner receives a forwarded Shared write, checks it, queues it and returns its verdict. -/
  | writeForwardReceived (at_ : Nat) (fwd : Forward)
  /-- WRITE_VERDICT_RECEIVED (R433). The accepting module receives the partner's verdict and responds to the client. -/
  | writeVerdictReceived (at_ keyT code : Nat)
  /-- VERDICT_TIMEOUT (R433). No verdict by t_A − 50,000 ns keeps the write and responds with N set. -/
  | verdictTimeout (keyT : Nat)
  /-- WRITE_APPLY (R430). At its apply block a pending write is checked again and applied, or dropped. -/
  | writeApply
  /-- RENDER_START (R564). Render enable written to 1 starts the pipeline at its apply block with rising ramps at ingress. -/
  | renderStart (actIn : Bool)
  /-- RENDER_STOP (R564). Render enable written to 0 finishes through block A with falling ramps and makes outputs inert. -/
  | renderStop
  /-- MEDIA_RATE_CHANGE (R55). An accepted media-rate change resets every rate-dependent state. -/
  | mediaRateChange (rate : Nat)
  /-- CLEAR_MISS_RECORDS (R54). Writing 1 to 1100:0D zeroes the miss records at the next boundary. -/
  | clearMissRecords (value : Nat)
  /-- TIME_CONFIG_WRITE (R67). Writes to the time range take effect at their boundary or next message interval. -/
  | timeConfigWrite (index sub value : Nat)
  /-- PULSE_CONFIG_WRITE (R96). A pulse configuration write arms or disarms a pulse output. -/
  | pulseConfigWrite (n sub value : Nat)
  /-- OBJECT_ENABLE (R126). Enabling or disabling an object makes its crosspoints enter or leave. -/
  | objectEnable (object value : Nat)
  /-- KEYFRAME_WRITE (R108). A write to 3000+o:06 supplies a keyframe record that arrives at its apply block. -/
  | keyframeWrite (object : Nat) (record : List Byte)
  /-- CLEAR_PLACEMENT_STATISTICS (R148). Writing 1 to 3801:0B zeroes the placement statistics at the next boundary. -/
  | clearPlacementStatistics (value : Nat)
  /-- ALLOCATION_WRITE (R156). A write of a feed's tap allocation is checked against the pool and empties both banks. -/
  | allocationWrite (feed taps : Nat)
  /-- BANK_LOAD (R159). A write of bank taps makes a load request for that bank. -/
  | bankLoad (feed bank : Nat) (taps : List Byte)
  /-- BANK_SWITCH (R170). A write of the selected bank requests a switch with crossfade. -/
  | bankSwitch (feed bank : Nat)
  /-- CORRECTION_ENABLE (R170). A write of correction enable requests a crossfade to or from the identity path. -/
  | correctionEnable (feed value : Nat)
  /-- CLEAR_METERS (R176). Writing 1 to 3400+f:34 clears the peak hold and clamp count. -/
  | clearMeters (feed value : Nat)
  /-- BASELINE_CAPTURE (R181). Writing 1 to 4400:02 captures the acoustic baseline of every valid pair. -/
  | baselineCapture (value : Nat)
  /-- DRIFT_MODE_WRITE (R187). A write of the tracker mode takes effect at the next publication interval. -/
  | driftModeWrite (mode : Nat)
  /-- ROTATE_FRAME (R225). A write of 7000:03 starts loading the spare Frame for a rotation. -/
  | rotateFrame (frame : Nat)
  /-- ROTATION_LOAD_COMPLETE (R225). Loading ends and at the next boundary at or after A the Tally switches work to the new Frame. -/
  | rotationLoadComplete
  /-- USER_SLOT_COPY (R225). Once a slot's last item on the old Frame has ended, its data memory is copied and the flow released. -/
  | userSlotCopy (slot : Nat)
  /-- RETIRE_FRAME (R227). A write of 1 to 7010+f:02 retires a Frame, by rotation when in service. -/
  | retireFrame (frame value : Nat)
  /-- RETIRE_ROD (R227). A write of 1 to 7040+r:06 retires a Rod. -/
  | retireRod (rod value : Nat)
  /-- SLOT_IMAGE_WRITE (R228). A write of a user-slot image is checked and stored. -/
  | slotImageWrite (slot : Nat) (image : SlotImage)
  /-- SLOT_ENABLE (R229). A write of slot enable loads the image into a chosen Rod and runs it from the apply block. -/
  | slotEnable (slot value : Nat)
  /-- CLEAR_TALLY_STATISTICS (R268). Writing 1 to 70C0:08 zeroes the Tally statistics at the next boundary. -/
  | clearTallyStatistics (value : Nat)
  /-- RING_PARTICIPATION (R320). A write of 2100:01 enters Joining or stops originating frames and releases the holds. -/
  | ringParticipation (value : Nat)
  /-- SLOT_CHANNEL_CHANGE (R344). Writes of a slot's enable, mask or map change its channels at block A with ramps. -/
  | slotChannelChange (transmit : Bool) (slot sub : Nat) (value : Val)
  /-- CLEAR_SLOT_STATISTICS (R347). Writing 1 to 2200+s:16 resets the receive-slot statistics at the next boundary. -/
  | clearSlotStatistics (slot value : Nat)
  /-- PDM_CLOCK_WRITE (R369). A write of 2400:01 starts or stops the PDM clocks. -/
  | pdmClockWrite (value : Nat)
  /-- PDM_ENABLE (R372). A PDM enable write is checked and the input enters at block A + 2. -/
  | pdmEnable (input value : Nat)
  /-- AES3_OUTPUT_CHANGE (R368). Writes of an AES3 output's enable or map change its channels at block A. -/
  | aes3OutputChange (output sub : Nat) (value : Val)
  /-- DRIVE_ENABLE (R393). A write of 1 to 5000+n:01 is checked against the rail state and drive enable. -/
  | driveEnable (channel : Nat)
  /-- DRIVE_DISABLE (R394). A write of 0 to 5000+n:01 stops the channel at its apply block. -/
  | driveDisable (channel : Nat)
  /-- CLEAR_LATCH (R397). A write of 1 to 5000+n:27 returns a Latched channel to Idle at tick A + 4. -/
  | clearLatch (channel value : Nat)
  /-- DRIVE_ENABLE_GLOBAL (R402). A write of 501F:01 runs the sense clocks and permits the drive gate. -/
  | driveEnableGlobal (value : Nat)
  /-- CLEAR_RAIL (R402). Writing 1 to 5010+g:09 resets the least rail and limited count. -/
  | clearRail (group value : Nat)
  /-- HANDOVER (R462). A write of 6000:05 makes the Active drop ACT_OUT, send RELEASE and become Standby. -/
  | handover (value : Nat)
  /-- ISOLATE (R463). A write of 6000:04 isolates the module or returns it to Standby. -/
  | isolate (value : Nat)
  /-- CLEAR_TWIN_STATISTICS (R474). Writing 1 to 6000:1E zeroes the twin statistics at the next boundary. -/
  | clearTwinStatistics (value : Nat)
  /-- CLEAR_FOL_STATISTICS (R442). Writing 1 to 1020:0E zeroes the FOL statistics at the next boundary. -/
  | clearFolStatistics (value : Nat)
  /-- MANAGEMENT_ADDRESS_WRITE (R442). A change of management address or netmask takes effect at the next boundary and ends management sessions. -/
  | managementAddressWrite (sub value : Nat)
  /-- GPIO_WRITE (R547). A GPIO direction or level write takes effect at the next tick boundary. -/
  | gpioWrite (sub value : Nat)
  /-- SHUTDOWN_SELF_TEST (R485). A write of 8000:02 leaves the ring, runs every partition test, seals the record and halts. -/
  | shutdownSelfTest (value : Nat) (obs : TestObs)
  /-- PARK (R501). A write of 1 to 8000:04 leaves the ring, stops clocks, self-refreshes DRAM and enters Parked. -/
  | park (value : Nat)
  /-- UNPARK (R503). A write of 0 to 8000:04 wakes DRAM, runs the power-on check and returns to Ready. -/
  | unpark (value : Nat) (check : List UnitResult) (obs : DramObs)
  /-- TARGETED_TEST (R499). A write of 8020:02 excludes a unit, tests it and restores it. -/
  | targetedTest (value : Nat) (result : UnitResult) (exclusionNs : Nat)
  /-- THERMAL_LEVEL_CHANGE (R543). The die temperature crosses the warning or critical level, setting or clearing health bits. -/
  | thermalLevelChange (at_ : Nat) (temp : Int)
  /-- THERMAL_TRIP (R543). At 125 °C the module enters reset until the die falls below 100 °C. -/
  | thermalTrip (temp : Int)
  /-- PROVISION (R508). A write of 9000:02 provisions the module and generates its identity and record keys. -/
  | provision (value : Nat)
  /-- DEPLOY (R508). A write of 9000:03 deploys the module and raises the signature policy. -/
  | deploy (value : Nat)
  /-- OPEN_MODULE (R512). A valid token written to 9000:04 erases the secrets and opens the module. -/
  | openModule (token : List Byte) (erasureOk : Bool)
  /-- RETIRE_MODULE (R508). A token written to 9000:05 erases the secrets and permanently retires the module. -/
  | retireModule (token : List Byte) (erasureOk : Bool)
  /-- LEVEL_KEY_WRITE (R510). A level-key write takes effect for later sessions and ends open sessions of that level. -/
  | levelKeyWrite (level : Nat) (key : List Byte)
  /-- SHOW_KEY_WRITE (R510). A show-key write takes effect for the next load of show data. -/
  | showKeyWrite (slot : Nat) (key : List Byte)
  /-- SIGNATURE_POLICY_WRITE (R515). A write of 9030:01 sets the signature policy, subject to the life-cycle state. -/
  | signaturePolicyWrite (policy : Nat)
  /-- MINIMUM_SVN_WRITE (R516). A write of 9030:02 raises the minimum security version. -/
  | minimumSvnWrite (svn : Nat)
  /-- SHOW_DATA_LOAD (R515). A load of show data is authenticated under a show key or refused. -/
  | showDataLoad (key : Option Nat) (nonce data tag : List Byte) (addr : Nat)
  /-- STAGED_IMAGE_WRITE (R517). An image written to A000:02 is staged and checked when its last segment arrives. -/
  | stagedImageWrite (image : ImageInfo) (length : Nat)
  /-- INSTALL (R517). A write of A000:03 copies a verified image into flash as Trial. -/
  | install (value : Nat)
  /-- LIVE_SWITCH (R518). A write of A000:04 requests a live switch at apply block A. -/
  | liveSwitch (value : Nat)
  /-- RECKONER_LOAD_COMPLETE (R519). The idle Reckoner pair finishes loading and the serving pair hands over at the next boundary. -/
  | reckonerLoadComplete
  /-- UPDATE_ROTATION (R520). At each rotation interval the next old Frame is rotated out for the new render firmware. -/
  | updateRotation
  /-- UPDATE_COMMIT (R521). A write of A000:05 commits the update and marks the image Good. -/
  | updateCommit (value : Nat)
  /-- AUTOMATIC_COMMIT (R521). The automatic commit time expires after the render part is complete. -/
  | automaticCommit
  /-- UPDATE_REVERT (R521). A write of A000:06 before the commit reverts the update. -/
  | updateRevert (value : Nat)
  /-- RETIRE_SLIDE (R523). A write of 7020+i:02 retires or restores a Slide engine. -/
  | retireSlide (engine value : Nat)
  /-- MIGRATE_RANK (R294). A write of 7420+p:06 triggers a rank migration. -/
  | migrateRank (rank value : Nat)
  /-- MIGRATION_START (R295). A trigger starts a migration at the next boundary when a spare is Ready. -/
  | migrationStart
  /-- MIGRATION_SWITCH (R298). After the last unit is copied the target serves the slot and the source is Retired. -/
  | migrationSwitch
  /-- CLEAR_LEDGER_COUNTERS (R305). Writing 1 to 7400:07 zeroes the Ledger counters. -/
  | clearLedgerCounters (value : Nat)
  /-- CLEAR_DRAM_STATISTICS (R305). Writing 1 to 7410:0A zeroes the DRAM statistics. -/
  | clearDramStatistics (value : Nat)
  /-- ACKNOWLEDGE_ALL (R561). Writing 1 to B100:06 clears LATCHED of every inactive source at the next boundary. -/
  | acknowledgeAll (value : Nat)
  /-- CLEAR_LOG (R561). Writing 1 to B100:09 empties the event log at the next boundary. -/
  | clearLog (value : Nat)
  /-- READ_START_WRITE (R561). A write of B100:04 sets the first record of the log window. -/
  | readStartWrite (value : Nat)
  /-- EVENT_SOURCE_WRITE (R551). A write of an event source entry sets its mask or clears LATCHED at the next boundary. -/
  | eventSourceWrite (source value : Nat)
  /-- EVENT_LOG_COPY (R559). The newest Warning and Fault records are copied to the settings store, at most once per 10 s. -/
  | eventLogCopy
  /-- REGISTER_WRITE (R15). A write to a Beam-visible register without behaviour of its own updates its writable fields. -/
  | registerWrite (master addr value : Nat)
  /-- ROD_RUN_START (R200). Writing RUN 1 starts the Rod at START_PC with every register zero. -/
  | rodRunStart (rod startPc : Nat)
  /-- ROD_RUN_STOP (R199). Writing RUN 0 stops the Rod after the current word and cancels its transfers. -/
  | rodRunStop (rod : Nat)
  /-- ROD_FAULT_CLEAR (R222). Clearing FAULT returns a faulted Rod to Stopped. -/
  | rodFaultClear (rod : Nat)
  /-- QCFG_WRITE (R234). A QCFG write configures a queue unless it breaks the capacity sum or the queue holds items. -/
  | qcfgWrite (master queue value : Nat)
  /-- PUT_WINDOW_WRITE (R247). A 32-byte Beam write to a PUT window queues a descriptor or is held by back-pressure. -/
  | putWindowWrite (master queue offset : Nat) (data : List Byte)
  /-- FLOW_WRITE (R245). A write to a flow entry pins or holds the flow. -/
  | flowWrite (flow value : Nat)
  /-- TALLY_EXCL_WRITE (R246). A write to TALLY_EXCL excludes Rods from being given items. -/
  | tallyExclWrite (value : Nat)
  /-- PUT_ACCEPTED (R248). A PUT held by a full queue is accepted once the queue has room. -/
  | putAccepted (queue : Nat)
  /-- BACKPRESSURE_LONG (R250). A producer held for 100,000 ns raises the back-pressure event. -/
  | backpressureLong (queue : Nat) (producer : Nat)
  /-- TALLY_GIVE (R240). An item becoming eligible is given to a waiting Rod and its descriptor written. -/
  | tallyGive
  /-- XFER_COMPLETE (R218). A Rod's outstanding transfer completes, releasing waits in WAITX, XFER or loads and stores. -/
  | xferComplete (rod : Nat) (upsets : List Upset)
  /-- BEAM_REQUEST (R257). A burst request is arbitrated at its target and served. -/
  | beamRequest (reqs : List BeamReq) (upsets : List Upset)
  /-- LOCKED_SEQUENCE (R258). A permitted master holds a Ledger or DRAM port for a locked sequence. -/
  | lockedSequence (master : Nat) (reqs : List BeamReq)
  /-- LOCK_TIMEOUT (R259). A locked sequence not closed at the timeout is aborted. -/
  | lockTimeout (target heldNs : Nat)
  /-- MASTER_RESET (R261). A master reset mid-transaction has its bursts completed or cancelled by the Beam. -/
  | masterReset (master : Nat)
  /-- COLLISION_CLEAR (R450). Writing 1 to TWIN_STAT COLLISION clears it. -/
  | collisionClear
  /-- BEAM_ERR_CLEAR (R260). Writing 1 to BEAM_ERR VALID clears the record flag. -/
  | beamErrClear
  /-- LEDGER_SCRUB (R273). Every 1,000 ns the scrubber reads one line in every bank and writes back corrections. -/
  | ledgerScrub (upsets : List Upset)
  /-- REFRESH_DUE (R289). A due refresh is issued or postponed according to the refresh debt. -/
  | refreshDue (deepWaiting : Bool)
  /-- MODE_REGISTER_READ (R288). Every 16 ms the controller reads the refresh rate of every rank. -/
  | modeRegisterRead (ranks : List (Nat × Nat × Bool))
  /-- OSCILLATOR_MEASURE (R287). Every 100 ms the controller measures write-delay drift and adjusts or marks training stale. -/
  | oscillatorMeasure (drifts : List (Nat × Nat))
  /-- PATROL_SCRUB (R292). The patrol scrub reads, corrects or poisons blocks over each scrub period. -/
  | patrolScrub (blocks : Nat) (upsets : List Upset)
  /-- SPARE_RANK_TEST (R293). The spare rank runs March C− once per scrub period and may be marked Failed. -/
  | spareRankTest (pass : Bool)
  /-- SELF_REFRESH_ENTRY (R302). After the idle time the DRAM enters self-refresh unless a request arrives before commit. -/
  | selfRefreshEntry (requested : Bool)
  /-- SELF_REFRESH_EXIT (R303). A request after the commit point waits for the exit from self-refresh. -/
  | selfRefreshExit (addr : Nat)
  /-- NOP (R221). No vector operation. -/
  | nop (rod : Nat) (sl : Slots)
  /-- VMOV (R221). Copies Va to Vd. -/
  | vmov (rod vd va : Nat) (sl : Slots)
  /-- VADD (R221). Saturating lane-wise add. -/
  | vadd (rod vd va vb : Nat) (sl : Slots)
  /-- VSUB (R221). Saturating lane-wise subtract. -/
  | vsub (rod vd va vb : Nat) (sl : Slots)
  /-- VADDW (R221). Wrapping lane-wise add. -/
  | vaddw (rod vd va vb : Nat) (sl : Slots)
  /-- VSUBW (R221). Wrapping lane-wise subtract. -/
  | vsubw (rod vd va vb : Nat) (sl : Slots)
  /-- VMUL (R221). Saturating Q1.31 lane-wise multiply. -/
  | vmul (rod vd va vb : Nat) (sl : Slots)
  /-- VABS (R221). Saturating absolute value. -/
  | vabs (rod vd va : Nat) (sl : Slots)
  /-- VNEG (R221). Saturating negation. -/
  | vneg (rod vd va : Nat) (sl : Slots)
  /-- VMIN (R221). Lane-wise minimum. -/
  | vmin (rod vd va vb : Nat) (sl : Slots)
  /-- VMAX (R221). Lane-wise maximum. -/
  | vmax (rod vd va vb : Nat) (sl : Slots)
  /-- VAND (R221). Bitwise AND. -/
  | vand (rod vd va vb : Nat) (sl : Slots)
  /-- VOR (R221). Bitwise OR. -/
  | vor (rod vd va vb : Nat) (sl : Slots)
  /-- VXOR (R221). Bitwise XOR. -/
  | vxor (rod vd va vb : Nat) (sl : Slots)
  /-- VNOT (R221). Bitwise complement. -/
  | vnot (rod vd va : Nat) (sl : Slots)
  /-- VCMPGT (R221). All ones where Va > Vb. -/
  | vcmpgt (rod vd va vb : Nat) (sl : Slots)
  /-- VCMPEQ (R221). All ones where Va = Vb. -/
  | vcmpeq (rod vd va vb : Nat) (sl : Slots)
  /-- VSHL (R221). Saturating left shift by n. -/
  | vshl (rod vd va n : Nat) (sl : Slots)
  /-- VSHR (R221). Arithmetic right shift by n. -/
  | vshr (rod vd va n : Nat) (sl : Slots)
  /-- VSHRL (R221). Logical right shift by n. -/
  | vshrl (rod vd va n : Nat) (sl : Slots)
  /-- VPERM (R221). Permutes lanes of Va by Vb. -/
  | vperm (rod vd va vb : Nat) (sl : Slots)
  /-- VBCST (R221). Broadcasts lane n of Va. -/
  | vbcst (rod vd va n : Nat) (sl : Slots)
  /-- VMPY (R207). Sets the accumulator to the shifted product. -/
  | vmpy (rod ac va vb : Nat) (sl : Slots)
  /-- VMAC (R207). Adds the shifted product to the accumulator. -/
  | vmac (rod ac va vb : Nat) (sl : Slots)
  /-- VMSU (R207). Subtracts the shifted product from the accumulator. -/
  | vmsu (rod ac va vb : Nat) (sl : Slots)
  /-- VCLR (R221). Clears an accumulator. -/
  | vclr (rod ac : Nat) (sl : Slots)
  /-- VLIFT (R221). Loads Va shifted left by 31 into an accumulator. -/
  | vlift (rod ac va : Nat) (sl : Slots)
  /-- VAADD (R221). Saturating accumulator add. -/
  | vaadd (rod ac acs : Nat) (sl : Slots)
  /-- VASUB (R221). Saturating accumulator subtract. -/
  | vasub (rod ac acs : Nat) (sl : Slots)
  /-- VTRW (R221). Truncates an accumulator to whole Q1.31 units. -/
  | vtrw (rod ac : Nat) (sl : Slots)
  /-- VRED (R221). Sums the eight lanes into lane 0. -/
  | vred (rod ac : Nat) (sl : Slots)
  /-- VAEX (R210). Updates AEX with the accumulator exponent. -/
  | vaex (rod acs : Nat) (sl : Slots)
  /-- VRD (R208). Reads an accumulator as Q1.31 with a shift. -/
  | vrd (rod vd acs n : Nat) (sl : Slots)
  /-- VRDL (R221). Reads accumulator bits [31:0]. -/
  | vrdl (rod vd acs : Nat) (sl : Slots)
  /-- VRDM (R221). Reads accumulator bits [63:32]. -/
  | vrdm (rod vd acs : Nat) (sl : Slots)
  /-- VRDH (R221). Reads accumulator bits [71:64] sign-extended. -/
  | vrdh (rod vd acs : Nat) (sl : Slots)
  /-- VWRA (R221). Writes accumulator bits [63:0] from Vb:Va. -/
  | vwra (rod ac va vb : Nat) (sl : Slots)
  /-- VWRH (R221). Writes accumulator bits [71:64]. -/
  | vwrh (rod ac va : Nat) (sl : Slots)
  /-- VRDX (R209). Reads an accumulator with the block shift; transform Rods only. -/
  | vrdx (rod vd acs : Nat) (sl : Slots)
  /-- SMAX (R211). Updates the running maximum and its index. -/
  | smax (rod va : Nat) (sl : Slots)
  /-- SMIN (R211). Updates the running minimum and its index. -/
  | smin (rod va : Nat) (sl : Slots)
  /-- SMAXA (R211). Updates the running maximum magnitude and its index. -/
  | smaxa (rod va : Nat) (sl : Slots)
  /-- LDV (R204). Loads eight consecutive words into a vector. -/
  | ldv (rod v an : Nat) (vop : VOp) (st : Option StSlot) (u1 u2 : Option UpdSlot)
  /-- LDB (R204). Broadcasts one word to every lane. -/
  | ldb (rod v an : Nat) (vop : VOp) (st : Option StSlot) (u1 u2 : Option UpdSlot)
  /-- LDS (R204). Loads eight strided words. -/
  | lds (rod v an : Nat) (vop : VOp) (st : Option StSlot) (u1 u2 : Option UpdSlot)
  /-- STV (R204). Stores a vector to eight consecutive words. -/
  | stv (rod v an : Nat) (vop : VOp) (ld : Option LdSlot) (u1 u2 : Option UpdSlot)
  /-- STL (R204). Stores lane 0. -/
  | stl (rod v an : Nat) (vop : VOp) (ld : Option LdSlot) (u1 u2 : Option UpdSlot)
  /-- STD (R209). Stores a vector and feeds the block-exponent detector. -/
  | std (rod v an : Nat) (vop : VOp) (ld : Option LdSlot) (u1 u2 : Option UpdSlot)
  /-- UPDATE_LINEAR (R205). Adds a step to an address register. -/
  | updateLinear (rod an step : Nat) (vop : VOp) (ld : Option LdSlot) (st : Option StSlot) (u2 : Option UpdSlot)
  /-- UPDATE_CIRCULAR (R205). Adds a step within a circular buffer. -/
  | updateCircular (rod an step : Nat) (vop : VOp) (ld : Option LdSlot) (st : Option StSlot) (u2 : Option UpdSlot)
  /-- UPDATE_BIT_REVERSED (R205). Advances to the next complex word in bit-reversed order. -/
  | updateBitReversed (rod an step : Nat) (vop : VOp) (ld : Option LdSlot) (st : Option StSlot) (u2 : Option UpdSlot)
  /-- REP (R212). Opens a repeat level with an immediate count. -/
  | rep (rod n16 w13 : Nat)
  /-- REPA (R212). Opens a repeat level with a count from ARn. -/
  | repa (rod an w13 : Nat)
  /-- BRK (R215). Closes the innermost repeat level. -/
  | brk (rod : Nat)
  /-- J (R221). Jumps. -/
  | j (rod w13 : Nat)
  /-- JZ (R221). Jumps when ARn is zero. -/
  | jz (rod an w13 : Nat)
  /-- JNZ (R221). Jumps when ARn is non-zero. -/
  | jnz (rod an w13 : Nat)
  /-- JNEG (R221). Jumps when ARn is negative. -/
  | jneg (rod an w13 : Nat)
  /-- CALL (R221). Saves the return address in LNK and jumps. -/
  | call (rod w13 : Nat)
  /-- RET (R221). Jumps to LNK. -/
  | ret (rod : Nat)
  /-- TAKE (R216). Ends the previous item and waits for a work item from a take list. -/
  | take (rod an k8 : Nat)
  /-- PUT (R216). Offers a descriptor to a queue, waiting while it is full. -/
  | put (rod an k8 : Nat)
  /-- DONE (R217). Ends the item in service. -/
  | done (rod : Nat)
  /-- XFER (R218). Starts a mover transfer between data memory and a Beam address. -/
  | xfer (rod : Nat) (out : Bool) (an fa md : Nat)
  /-- WAITX (R218). Waits until at most K8 transfers are outstanding. -/
  | waitx (rod k8 : Nat)
  /-- SETPS (R221). Sets the product shift. -/
  | setps (rod k8 : Nat)
  /-- MFS (R200). Reads a special register into ARn. -/
  | mfs (rod an k8 : Nat)
  /-- MTS (R200). Writes ARn into a special register. -/
  | mts (rod an k8 : Nat)
  /-- MOV (R221). Copies one AR to another. -/
  | mov (rod ad as_ : Nat)
  /-- LDW (R221). Loads a 32-bit word into ARn. -/
  | ldw (rod an am : Nat)
  /-- STW (R221). Stores ARn as a 32-bit word. -/
  | stw (rod an am : Nat)
  /-- LDF (R221). Loads a 40-bit Beam address into FAn. -/
  | ldf (rod fa am : Nat)
  /-- SRINIT (R211). Initialises a search. -/
  | srinit (rod an : Nat) (min : Bool)
  /-- BXCLR (R209). Clears the block-exponent detector. -/
  | bxclr (rod : Nat)
  /-- BXSTEP (R209). Sets the block shift and adds it to the block exponent. -/
  | bxstep (rod : Nat)
  /-- HALT (R221). Stops the Rod and ends its item as failed. -/
  | halt (rod : Nat)
  /-- TRAP (R221). Faults with code 0x0B and records its operand. -/
  | trap (rod k8 : Nat)
  /-- LI (R221). Loads an immediate into a register. -/
  | li (rod sel imm : Nat)
  /-- ADDI (R221). Adds an immediate to a register. -/
  | addi (rod sel imm : Nat)
  /-- LIH (R221). Loads FA bits [39:32] from an immediate. -/
  | lih (rod sel imm : Nat)
  /-- HEARTBEAT_LINE_EDGE (R454). An edge arrives on HB_IN and is recorded as the heartbeat line's sign of life for the boundary window. -/
  | heartbeatLineEdge (at_ : Nat)
  /-- SFP_MODULE_ABSENT_OR_FAULT (R309). SFP_ABS or SFP_FAULT of a ring port changes, and a module reported absent or in fault is treated as link down. -/
  | sfpModuleAbsentOrFault (port : Nat) (absent fault : Bool)
  /-- TRIP_RESET_RELEASE (R543). After a thermal trip, the die falls below 100 °C and the module leaves reset and starts from Booting. -/
  | tripResetRelease (temp : Int) (obs : BootObs)
  /-- LOCKSTEP_ERROR (R497). A lockstep comparator of the serving Reckoner pair detects a mismatch, making the pair unusable and, with no usable idle pair, setting HO_RECKONER. -/
  | lockstepError
  deriving DecidableEq, Repr

end Sys2Proof
end

