-- ==== Sys2Proof/Config.lean ====
section
/-! DEFINITION. What one module fixes at manufacture and the values that the manual leaves open: constants without a body, so
that no proof can know them. Each is named in notes/assumptions. -/
namespace Sys2Proof.Config

/-- 1000:02, the 64-bit unique identifier (R442: per module). -/
opaque uid : BitVec 64

/-- 1000:03, the four bytes of the date code (R4, R442: per module). -/
opaque dateCode : BitVec 32

/-- 1000:04, the six bytes of the lot code (R4, R442: per module). -/
opaque lotCode : BitVec 48

/-- 1000:06, the hardware revision code (R442: per module). -/
opaque hwRevision : BitVec 16

/-- 2100:0E, the MAC address (R346: per module). -/
opaque mac : BitVec 48

/-- A draw of the hardware random source (R290, R415, R508, R511), by draw number. -/
opaque draw : Nat → BitVec 256

/-- The frequency term that the proportional-integral loop of the servo forms (R81, R82): R81 gives the loop's kind and its
bandwidth and no gains; by bandwidth code, frequency term and offset. -/
opaque servoFreq : Nat → Int → Int → Int

/-- The phase term of the servo by bandwidth code and offset (R81, R82), before its limit of 200 ppm. -/
opaque servoPhase : Nat → Int → Int

/-- The clockIdentity of the module's own PTP clock (R65 compares it and gives no rule for it: per module). -/
opaque clockIdentity : BitVec 64

/-- The 512 minimum-phase trim taps for a zone's 30 band gains (R183: the design method is not stated). -/
opaque trimTaps : List Int → List Int

/-- Where a partition's unit of 264 bytes lies in the coefficient and delay-line regions of the Ledger (R52, R157: fixed by the render
firmware and not stated), by feed and unit. -/
opaque coefUnit : Nat → Nat → BitVec 16

/-- The place of a feed's alignment line in the working buffers, in units of 8,192 bytes (R154: fixed by the render firmware and not
stated). -/
opaque alignUnit : Nat → BitVec 10

/-- The place of a delay-line spectrum's exponent in the working buffers (R157: likewise), by feed and place in the line. -/
opaque exponentAt : Nat → Nat → BitVec 23

/-- a_zm / a0_zm where a0_zm is 0 (R182 states no result), by a_zm. -/
opaque ratioByZero : Int → Int

/-- The a0 of the predicted lag of a pair without a baseline (R178 states none), by pair. -/
opaque firstLag : Nat → Int

/-- The offset of a peak that equals both its neighbours, in 2^−14 sample (R178: the parabola has no vertex), by its value. -/
opaque flatPeak : Int → Int

/-- The Beam addresses of a user slot's input ring (0), output ring (1) and scratch area (2) (R230, R231: by slot). -/
opaque slotArea : Nat → Nat → BitVec 40

/-- One less than the number of blocks in a user slot's rings (R230 names rings and gives no length). -/
opaque ringBlocks : BitVec 8

/-- The flow of a user slot (R245 names it and gives no number). -/
opaque slotFlow : Nat → BitVec 10

/-- The Beam addresses of the group buffers (R349, 2400:02 to 2400:04: by firmware): 0 AES3 input, 1 AES3 output, 2 microphone. -/
opaque groupBase : Nat → BitVec 40

/-- What a Beam read of a Rod memory returns for a byte of an uncorrectable word (R197 states the fault and no data): by tick and
Beam address. -/
opaque lostByte : Nat → Nat → BitVec 8

/-- KIND and ARG of a user slot's item for a block (R230, R237: defined by the producer, the render firmware). -/
opaque slotArg : Nat → Nat → BitVec 40

/-- The starting position that the lock decision gives an asynchronous AES3 input, in 2^−30 frame below 512 frames (R360 names it
and states no rule for it): by input and ratio. -/
opaque aesStart : Nat → Nat → BitVec 39

/-- The format of the training record that a render firmware version reads and writes (R284 names it; per image). -/
opaque trainingFormat : Nat → BitVec 16

/-- The secret number of an ECDSA signature, by the tick of the read and the message signed (R525, 9011:02; R509 names the
algorithm, which takes a random number for every signature). -/
opaque signNonce : Nat → List Byte → BitVec 256

/-- What an image written to A000:02 says of itself, and whether its signatures verify (R515, R517: the layout is not stated). -/
opaque imageInfo : List Byte → ImageInfo

/-- What a slot image written to 7080+u:01 says of itself (R228: the layout is not stated). -/
opaque slotImage : List Byte → SlotImage

/-- What a shutdown self-test that a write of 8000:02 starts will observe, by draw number. -/
opaque testObs : Nat → TestObs

/-- What a targeted test that a write of 8020:02 starts will find, by draw number. -/
opaque unitObs : Nat → UnitResult

/-- The length of the exclusion of such a test in ns, by draw number. -/
opaque exclusionNs : Nat → Nat

/-- What the power-on check after a write of 0 to 8000:04 finds, by draw number. -/
opaque checkObs : Nat → List UnitResult

/-- What the DRAM bring-up after a write of 0 to 8000:04 observes, by draw number. -/
opaque dramObs : Nat → DramObs

/-- Whether the key store reads back as zero after the erasure that a token starts, by draw number (R513). -/
opaque erasureOk : Nat → Bool

/-- The work code of the item that the drive engines put at a shutdown (R237, R396): defined by its producer. -/
opaque driveKind : Byte

end Sys2Proof.Config
end

