-- ==== Sys2Proof/Machine/Arith.lean ====
section
/-! DEFINITION. Sparse tables, integer arithmetic with the manual's truncation and saturation, times and ticks, and the
byte orders of the network and of the module. -/
namespace Sys2Proof.Machine

/-- What key `k` of a sparse table reads as; `d` where it is not listed. -/
def mget {α : Type} (d : α) : SMap α → Nat → α
  | [], _ => d
  | (k, v) :: m, n => if k = n then v else mget d m n

/-- A sparse table with an entry for key `n`, before the first greater key. -/
def minsert {α : Type} : SMap α → Nat → α → SMap α
  | [], n, v => [(n, v)]
  | (k, w) :: m, n, v =>
    if n < k then (n, v) :: (k, w) :: m
    else if n = k then (n, v) :: m
    else (k, w) :: minsert m n v

/-- A sparse table with key `n` holding `v`: keys stay rising, and `v = d` removes the entry. -/
def mset {α : Type} [DecidableEq α] (d : α) (m : SMap α) (n : Nat) (v : α) : SMap α :=
  if v = d then m.filter (fun e => decide (e.1 ≠ n)) else minsert m n v

/-- The canonical form of a sparse table whose keys all exceed `lo` (or any, for `none`). -/
def mwfFrom {α : Type} [DecidableEq α] (d : α) : Option Nat → SMap α → Bool
  | _, [] => true
  | lo, (k, v) :: m =>
    (match lo with
      | none => true
      | some l => decide (l < k)) && decide (v ≠ d) && mwfFrom d (some k) m

/-- The canonical form of a sparse table: keys strictly rising and no entry equal to the default. -/
def mwf {α : Type} [DecidableEq α] (d : α) (m : SMap α) : Bool := mwfFrom d none m

/-- A table with `f` applied to what key `n` reads as. -/
def mmod {α : Type} [DecidableEq α] (d : α) (m : SMap α) (n : Nat) (f : α → α) : SMap α :=
  mset d m n (f (mget d m n))

/-- Saturation between two bounds (R12). -/
def satTo (lo hi x : Int) : Int := if x < lo then lo else if hi < x then hi else x

/-- Saturation to a signed width in bits (R12): Q1.31 and Q4.28 are 32 bits, Q10.62 is 72, Q17.31 is 48. -/
def satS (w : Nat) (x : Int) : Int := satTo (-(2 ^ (w - 1))) (2 ^ (w - 1) - 1) x

/-- sat to a 32-bit format (Q1.31, Q4.28, Q2.30, Q8.24). -/
def sat32 (x : Int) : Int := satS 32 x

/-- sat to Q10.62. -/
def sat72 (x : Int) : Int := satS 72 x

/-- `x >> n`: an arithmetic right shift, rounding toward minus infinity (R11). -/
def shr (x : Int) (n : Nat) : Int := x / (2 ^ n)

/-- `x << n`. -/
def shl (x : Int) (n : Nat) : Int := x * (2 ^ n)

/-- floor(a / b) for a positive divisor; 0 for a divisor of 0, which no rule forms. -/
def fdiv (a b : Int) : Int := if b = 0 then 0 else a / b

/-- |x|. -/
def iabs (x : Int) : Int := if x < 0 then -x else x

/-- Bits [hi:lo] of a number (R7). -/
def bitsOf (x hi lo : Nat) : Nat := (x / 2 ^ lo) % 2 ^ (hi + 1 - lo)

/-- Bit n of a number. -/
def bitOf (x n : Nat) : Bool := (x / 2 ^ n) % 2 = 1

/-- A Bool as the bit 0 or 1. -/
def b2n (b : Bool) : Nat := if b then 1 else 0

/-- The signed value of the low `w` bits of a pattern. -/
def toSigned (w x : Nat) : Int :=
  let y := x % 2 ^ w
  if y < 2 ^ (w - 1) then (y : Int) else (y : Int) - 2 ^ w

/-- The pattern of a signed value in `w` bits. -/
def toPat (w : Nat) (x : Int) : Nat := (x % (2 ^ w)).toNat

/-- Square root by bits from bit `i` down. -/
def isqrtFrom : Nat → Nat → Nat → Nat
  | 0, s, q => if (s + 1) * (s + 1) ≤ q then s + 1 else s
  | i + 1, s, q =>
    let c := s + 2 ^ (i + 1)
    isqrtFrom i (if c * c ≤ q then c else s) q

/-- isqrt(q): the largest s with s² ≤ q (00_scope of placement). -/
def isqrt (q : Nat) : Nat := isqrtFrom (Nat.log2 q / 2 + 1) 0 q

/-- t_k = floor(k × 10^9 / 3000) (R16). -/
def tickStart (k : Nat) : Nat := k * 1000000000 / 3000

/-- The length of tick k in ns (R16). -/
def tickLen (k : Nat) : Nat := tickStart (k + 1) - tickStart k

/-- The tick in which a local time lies (R18); a time before 0 lies in tick 0. -/
def tickOf (t : Int) : Nat := ((3000 * (t + 1) - 1) / 1000000000).toNat

/-- s_n = floor(n × 10^9 / F) (R37). -/
def sampleTime (f n : Nat) : Nat := n * 1000000000 / f

/-- Compatible compare (R25): d = (a − b) mod 2^32 as a signed number. -/
def compatDiff (a b : Nat) : Int := toSigned 32 ((a % 2 ^ 32 + 2 ^ 32 - b % 2 ^ 32) % 2 ^ 32)

/-- A value added to a counter that saturates at `top`. -/
def satAdd (top a b : Nat) : Nat := if a + b > top then top else a + b

/-- Element i of a list of numbers, 0 beyond its end. -/
def nth (l : List Int) (i : Nat) : Int := l.getD i 0

/-- `n` bytes of a number, least significant first (R9: the module's memories). -/
def leBytes : Nat → Nat → List Byte
  | 0, _ => []
  | n + 1, x => BitVec.ofNat 8 x :: leBytes n (x / 256)

/-- The number in bytes, least significant first. -/
def leNat : List Byte → Nat
  | [] => 0
  | b :: r => b.toNat + 256 * leNat r

/-- `n` bytes of a number, most significant first (R9: the network). -/
def beBytes (n x : Nat) : List Byte := (leBytes n x).reverse

/-- The number in bytes, most significant first. -/
def beNat (l : List Byte) : Nat := leNat l.reverse

/-- Bytes [off, off + n) of a list, zeros beyond its end. -/
def slice (l : List Byte) (off n : Nat) : List Byte :=
  (List.range n).map (fun i => l.getD (off + i) 0#8)

/-- The big-endian number at byte `off`, `n` bytes wide. -/
def beAt (l : List Byte) (off n : Nat) : Nat := beNat (slice l off n)

/-- A list cut into pieces of `n` elements, by `fuel` pieces at most. -/
def chunks {α : Type} (n : Nat) : Nat → List α → List (List α)
  | 0, _ => []
  | f + 1, l => if l.isEmpty then [] else l.take n :: chunks n f (l.drop n)

/-- Big-endian 32-bit signed words of a DOMAIN. -/
def beWords (l : List Byte) : List Int :=
  (chunks 4 (l.length / 4) l).map (fun w => toSigned 32 (beNat w))

/-- Big-endian 16-bit words of a DOMAIN. -/
def beHalves (l : List Byte) : List Nat := (chunks 2 (l.length / 2) l).map beNat

/-- Sum of a list of integers. -/
def isum (l : List Int) : Int := l.foldl (· + ·) 0

/-- log2 of a power of two. -/
def lg (n : Nat) : Nat := Nat.log2 n

/-- The number of bits set in the low `w` bits. -/
def popcount : Nat → Nat → Nat
  | 0, _ => 0
  | w + 1, x => x % 2 + popcount w (x / 2)

/-- The positions of the bits set in the low `w` bits, ascending. -/
def bitsSet (w x : Nat) : List Nat := (List.range w).filter (fun i => bitOf x i)

/-- Bit reversal over `w` bits. -/
def bitrev : Nat → Nat → Nat
  | 0, _ => 0
  | w + 1, x => (x % 2) * 2 ^ w + bitrev w (x / 2)

/-- Insertion into a list kept in order by `lt`, after equals. -/
def insertBy {α : Type} (lt : α → α → Bool) (x : α) : List α → List α
  | [] => [x]
  | y :: r => if lt x y then x :: y :: r else y :: insertBy lt x r

/-- Stable insertion sort. -/
def sortBy {α : Type} (lt : α → α → Bool) (l : List α) : List α :=
  l.foldl (fun acc x => insertBy lt x acc) []

/-- The median of a list of integers; over an even count the truncated mean of the two middle values (R182). -/
def median (l : List Int) : Int :=
  let m := sortBy (fun a b => decide (a < b)) l
  let n := m.length
  if n % 2 = 1 then nth m (n / 2) else shr (nth m (n / 2 - 1) + nth m (n / 2)) 1

/-- A list of numbers as a set: `x` added once, in ascending order. -/
def setAdd (x : Nat) (l : List Nat) : List Nat :=
  if l.contains x then l else insertBy (fun a b => decide (a < b)) x l

/-- A list of numbers as a set, without `x`. -/
def setDel (x : Nat) (l : List Nat) : List Nat := l.filter (fun y => y ≠ x)

end Sys2Proof.Machine
end

