-- ==== Sys2Proof/Machine/DictTable.lean ====
section
/-! DEFINITION. The object dictionary as a table (R403 to R410, R439 to R442 and the entry tables of the chapters): one row
for each tabulated entry or family of entries. -/
namespace Sys2Proof.Machine

/-- The types of R404. Q1.31 and Q4.28 have the patterns of I32 (R10). -/
inductive Ty where
  | bool | u8 | u16 | u32 | u64 | i8 | i16 | i32 | i64 | str | dom
  deriving DecidableEq, Repr

/-- The access kinds of R407. -/
inductive Acc where
  | ro | const | wo | rw | rwa
  deriving DecidableEq, Repr

/-- A row of the dictionary: indices and subindices it covers, type, access, default as a bit pattern, the least and the
greatest value, greatest length and exact length (0 for none) of a STRING or DOMAIN (the channel maps, whose tables name no maximum
but refuse every other length as a mismatch, have the greatest length of R422), whether it is Shared and kept in
non-volatile storage, its read and write level, and whether a write acts at acceptance instead of at a block (R426). -/
structure Row where
  iLo    : Nat
  iHi    : Nat
  sLo    : Nat
  sHi    : Nat
  ty     : Ty
  acc    : Acc
  dflt   : Nat
  lo     : Int
  hi     : Int
  most   : Nat
  exact  : Nat
  shared : Bool
  nv     : Bool
  rd     : Nat
  wr     : Nat
  atOnce : Bool
  deriving DecidableEq, Repr

/-- Entries 1000 to 10FF, part 1. -/
def rowsIdent1 : List Row := [
  ⟨0x1000, 0x1000, 0x1, 0x1, .str, .const, 0, 0, 0, 16, 0, false, false, 1, 3, false⟩,
  ⟨0x1000, 0x1000, 0x2, 0x2, .u64, .const, 0, 0, 18446744073709551615, 0, 0, false, false, 1, 3, false⟩,
  ⟨0x1000, 0x1000, 0x3, 0x3, .str, .const, 0, 0, 0, 4, 0, false, false, 1, 3, false⟩,
  ⟨0x1000, 0x1000, 0x4, 0x4, .str, .const, 0, 0, 0, 6, 0, false, false, 1, 3, false⟩,
  ⟨0x1000, 0x1000, 0x5, 0x5, .str, .const, 0, 0, 0, 64, 0, false, false, 1, 3, false⟩,
  ⟨0x1000, 0x1000, 0x6, 0x6, .u16, .const, 0, 0, 65535, 0, 0, false, false, 1, 3, false⟩,
  ⟨0x1000, 0x1000, 0x7, 0x7, .u32, .ro, 0, 0, 4294967295, 0, 0, false, false, 1, 3, false⟩,
  ⟨0x1000, 0x1000, 0x8, 0x8, .u32, .ro, 0, 0, 4294967295, 0, 0, false, false, 1, 3, false⟩,
  ⟨0x1000, 0x1000, 0x9, 0x9, .u8, .ro, 0, 0, 255, 0, 0, false, false, 1, 3, false⟩,
  ⟨0x1000, 0x1000, 0xa, 0xa, .u16, .const, 1, 0, 65535, 0, 0, false, false, 1, 3, false⟩,
  ⟨0x1000, 0x1000, 0xb, 0xb, .str, .rw, 0, 0, 0, 32, 0, false, true, 1, 3, false⟩,
  ⟨0x1010, 0x1010, 0x1, 0x1, .u8, .ro, 0, 0, 255, 0, 0, false, false, 1, 3, false⟩,
  ⟨0x1010, 0x1010, 0x2, 0x2, .u64, .ro, 0, 0, 18446744073709551615, 0, 0, false, false, 1, 3, false⟩,
  ⟨0x1010, 0x1010, 0x3, 0x3, .i16, .ro, 0, (-32768), 32767, 0, 0, false, false, 1, 3, false⟩,
  ⟨0x1010, 0x1010, 0x4, 0x4, .u32, .ro, 0, 0, 4294967295, 0, 0, false, false, 1, 3, false⟩,
  ⟨0x1010, 0x1010, 0x5, 0x5, .u32, .ro, 0, 0, 4294967295, 0, 0, false, false, 1, 3, false⟩,
  ⟨0x1020, 0x1020, 0x1, 0x1, .u16, .rw, 9450, 1024, 65535, 0, 0, false, true, 1, 3, true⟩,
  ⟨0x1020, 0x1020, 0x2, 0x2, .u32, .rw, 0, 0, 4294967295, 0, 0, false, true, 1, 3, true⟩,
  ⟨0x1020, 0x1020, 0x3, 0x3, .u32, .rw, 4294901760, 0, 4294967295, 0, 0, false, true, 1, 3, true⟩,
  ⟨0x1020, 0x1020, 0x4, 0x4, .u16, .rw, 10, 2, 600, 0, 0, false, true, 1, 3, false⟩,
  ⟨0x1020, 0x1020, 0x5, 0x5, .u8, .ro, 0, 0, 255, 0, 0, false, false, 1, 3, false⟩,
  ⟨0x1020, 0x1020, 0x6, 0x6, .u32, .ro, 0, 0, 4294967295, 0, 0, false, false, 1, 3, false⟩,
  ⟨0x1020, 0x1020, 0x7, 0x7, .u32, .ro, 0, 0, 4294967295, 0, 0, false, false, 1, 3, false⟩,
  ⟨0x1020, 0x1020, 0x8, 0x8, .u32, .ro, 0, 0, 4294967295, 0, 0, false, false, 1, 3, false⟩]

/-- Entries 1000 to 10FF, part 2. -/
def rowsIdent2 : List Row := [
  ⟨0x1020, 0x1020, 0x9, 0x9, .u32, .ro, 0, 0, 4294967295, 0, 0, false, false, 1, 3, false⟩,
  ⟨0x1020, 0x1020, 0xa, 0xa, .u32, .ro, 0, 0, 4294967295, 0, 0, false, false, 1, 3, false⟩,
  ⟨0x1020, 0x1020, 0xb, 0xb, .u16, .ro, 0, 0, 65535, 0, 0, false, false, 1, 3, false⟩,
  ⟨0x1020, 0x1020, 0xc, 0xc, .u32, .ro, 0, 0, 4294967295, 0, 0, false, false, 1, 3, false⟩,
  ⟨0x1020, 0x1020, 0xd, 0xd, .u32, .ro, 0, 0, 4294967295, 0, 0, false, false, 1, 3, false⟩,
  ⟨0x1020, 0x1020, 0xe, 0xe, .bool, .wo, 0, 0, 1, 0, 0, false, false, 1, 2, true⟩,
  ⟨0x1030, 0x103f, 0x1, 0x1, .u8, .ro, 0, 0, 255, 0, 0, false, false, 1, 3, false⟩,
  ⟨0x1030, 0x103f, 0x2, 0x2, .u8, .ro, 0, 0, 255, 0, 0, false, false, 1, 3, false⟩,
  ⟨0x1030, 0x103f, 0x3, 0x3, .u32, .ro, 0, 0, 4294967295, 0, 0, false, false, 1, 3, false⟩,
  ⟨0x1030, 0x103f, 0x4, 0x4, .u64, .ro, 0, 0, 18446744073709551615, 0, 0, false, false, 1, 3, false⟩,
  ⟨0x1040, 0x1040, 0x1, 0x1, .u16, .rw, 0, 0, 65535, 0, 0, false, false, 1, 3, true⟩,
  ⟨0x1040, 0x1040, 0x2, 0x2, .u16, .rw, 0, 0, 65535, 0, 0, false, false, 1, 3, true⟩,
  ⟨0x1040, 0x1040, 0x3, 0x3, .u16, .ro, 0, 0, 65535, 0, 0, false, false, 1, 3, false⟩]

/-- Entries 1000 to 10FF (R403, R439). -/
def rowsIdent : List Row := rowsIdent1 ++ rowsIdent2

/-- Entries 1100 to 11FF (R403, R439). -/
def rowsRate : List Row := [
  ⟨0x1100, 0x1100, 0x1, 0x1, .u8, .rw, 2, 1, 2, 0, 0, true, true, 1, 3, true⟩,
  ⟨0x1100, 0x1100, 0x2, 0x2, .u8, .ro, 32, 0, 255, 0, 0, true, false, 1, 3, false⟩,
  ⟨0x1100, 0x1100, 0x3, 0x3, .bool, .rw, 0, 0, 1, 0, 0, true, false, 1, 2, false⟩,
  ⟨0x1100, 0x1100, 0x4, 0x4, .u64, .ro, 0, 0, 18446744073709551615, 0, 0, true, false, 1, 3, false⟩,
  ⟨0x1100, 0x1100, 0x5, 0x5, .u32, .ro, 0, 0, 4294967295, 0, 0, true, false, 1, 3, false⟩,
  ⟨0x1100, 0x1100, 0x6, 0x6, .u32, .ro, 0, 0, 4294967295, 0, 0, true, false, 1, 3, false⟩,
  ⟨0x1100, 0x1100, 0x7, 0x7, .u32, .ro, 0, 0, 4294967295, 0, 0, true, false, 1, 3, false⟩,
  ⟨0x1100, 0x1100, 0x8, 0x8, .u32, .ro, 0, 0, 4294967295, 0, 0, true, false, 1, 3, false⟩,
  ⟨0x1100, 0x1100, 0x9, 0x9, .u32, .ro, 0, 0, 4294967295, 0, 0, true, false, 1, 3, false⟩,
  ⟨0x1100, 0x1100, 0xa, 0xa, .u64, .ro, 0, 0, 18446744073709551615, 0, 0, true, false, 1, 3, false⟩,
  ⟨0x1100, 0x1100, 0xb, 0xb, .u8, .ro, 0, 0, 255, 0, 0, true, false, 1, 3, false⟩,
  ⟨0x1100, 0x1100, 0xc, 0xc, .u16, .ro, 0, 0, 65535, 0, 0, true, false, 1, 3, false⟩,
  ⟨0x1100, 0x1100, 0xd, 0xd, .bool, .wo, 0, 0, 1, 0, 0, false, false, 1, 2, true⟩]

/-- Entries 2000 to 20FF, part 1. -/
def rowsTime1 : List Row := [
  ⟨0x2000, 0x2000, 0x1, 0x1, .u8, .rw, 0, 0, 3, 0, 0, true, false, 1, 3, false⟩,
  ⟨0x2000, 0x2000, 0x2, 0x2, .u8, .rw, 1, 1, 5, 0, 0, true, false, 1, 3, false⟩,
  ⟨0x2000, 0x2000, 0x3, 0x3, .u8, .rw, 0, 0, 127, 0, 0, true, false, 1, 3, false⟩,
  ⟨0x2000, 0x2000, 0x4, 0x4, .u8, .rw, 1, 1, 2, 0, 0, true, false, 1, 3, false⟩,
  ⟨0x2000, 0x2000, 0x5, 0x5, .i8, .rw, 253, (-128), 127, 0, 0, true, false, 1, 3, false⟩,
  ⟨0x2000, 0x2000, 0x6, 0x6, .i8, .rw, 1, (-3), 3, 0, 0, true, false, 1, 3, false⟩,
  ⟨0x2000, 0x2000, 0x7, 0x7, .u8, .rw, 3, 2, 10, 0, 0, true, false, 1, 3, false⟩,
  ⟨0x2000, 0x2000, 0x8, 0x8, .i8, .rw, 253, (-4), 3, 0, 0, true, false, 1, 3, false⟩,
  ⟨0x2000, 0x2000, 0x9, 0x9, .u8, .rw, 1, 1, 2, 0, 0, true, false, 1, 3, false⟩,
  ⟨0x2000, 0x2000, 0xa, 0xa, .bool, .rw, 0, 0, 1, 0, 0, true, false, 1, 3, false⟩,
  ⟨0x2000, 0x2000, 0xb, 0xb, .u8, .rw, 255, 0, 255, 0, 0, true, false, 1, 3, false⟩,
  ⟨0x2000, 0x2000, 0xd, 0xd, .u8, .rw, 4, 2, 16, 0, 0, true, false, 1, 3, false⟩,
  ⟨0x2000, 0x2000, 0xe, 0xe, .u8, .rw, 2, 1, 4, 0, 0, true, false, 1, 3, false⟩,
  ⟨0x2010, 0x2010, 0x1, 0x1, .u8, .ro, 0, 0, 255, 0, 0, true, false, 1, 3, false⟩,
  ⟨0x2010, 0x2010, 0x2, 0x2, .u64, .ro, 0, 0, 18446744073709551615, 0, 0, true, false, 1, 3, false⟩,
  ⟨0x2010, 0x2010, 0x3, 0x3, .u64, .ro, 0, 0, 18446744073709551615, 0, 0, true, false, 1, 3, false⟩,
  ⟨0x2010, 0x2010, 0x4, 0x4, .i64, .ro, 0, (-9223372036854775808), 9223372036854775807, 0, 0, true, false, 1, 3, false⟩,
  ⟨0x2010, 0x2010, 0x5, 0x5, .i32, .ro, 0, (-2147483648), 2147483647, 0, 0, true, false, 1, 3, false⟩,
  ⟨0x2010, 0x2010, 0x6, 0x6, .i32, .ro, 0, (-2147483648), 2147483647, 0, 0, true, false, 1, 3, false⟩,
  ⟨0x2010, 0x2010, 0x7, 0x7, .u32, .ro, 0, 0, 4294967295, 0, 0, true, false, 1, 3, false⟩,
  ⟨0x2010, 0x2010, 0x8, 0x8, .u64, .ro, 0, 0, 18446744073709551615, 0, 0, true, false, 1, 3, false⟩,
  ⟨0x2010, 0x2010, 0x9, 0x9, .u16, .ro, 0, 0, 65535, 0, 0, true, false, 1, 3, false⟩,
  ⟨0x2010, 0x2010, 0xa, 0xa, .u32, .ro, 0, 0, 4294967295, 0, 0, true, false, 1, 3, false⟩,
  ⟨0x2010, 0x2010, 0xb, 0xb, .u32, .ro, 0, 0, 4294967295, 0, 0, true, false, 1, 3, false⟩]

/-- Entries 2000 to 20FF, part 2. -/
def rowsTime2 : List Row := [
  ⟨0x2010, 0x2010, 0xc, 0xc, .u64, .ro, 0, 0, 18446744073709551615, 0, 0, true, false, 1, 3, false⟩,
  ⟨0x2010, 0x2010, 0xd, 0xd, .i64, .ro, 0, (-9223372036854775808), 9223372036854775807, 0, 0, true, false, 1, 3, false⟩,
  ⟨0x2010, 0x2010, 0xe, 0xe, .u32, .ro, 0, 0, 4294967295, 0, 0, true, false, 1, 3, false⟩,
  ⟨0x2010, 0x2010, 0xf, 0xf, .u32, .ro, 0, 0, 4294967295, 0, 0, true, false, 1, 3, false⟩,
  ⟨0x2020, 0x2020, 0x1, 0x1, .u32, .rw, 0, 0, 4294967295, 0, 0, false, true, 1, 3, true⟩,
  ⟨0x2020, 0x2020, 0x2, 0x2, .u32, .rw, 0, 0, 4294967295, 0, 0, false, true, 1, 3, true⟩,
  ⟨0x2020, 0x2020, 0x3, 0x3, .i32, .rw, 0, (-2147483648), 2147483647, 0, 0, false, true, 1, 3, true⟩,
  ⟨0x2021, 0x2021, 0x1, 0x1, .u32, .rw, 0, 0, 4294967295, 0, 0, false, true, 1, 3, true⟩,
  ⟨0x2021, 0x2021, 0x2, 0x2, .u32, .rw, 0, 0, 4294967295, 0, 0, false, true, 1, 3, true⟩,
  ⟨0x2021, 0x2021, 0x3, 0x3, .i32, .rw, 0, (-2147483648), 2147483647, 0, 0, false, true, 1, 3, true⟩,
  ⟨0x2022, 0x2022, 0x1, 0x1, .u32, .rw, 0, 0, 4294967295, 0, 0, false, true, 1, 3, true⟩,
  ⟨0x2022, 0x2022, 0x2, 0x2, .u32, .rw, 0, 0, 4294967295, 0, 0, false, true, 1, 3, true⟩,
  ⟨0x2022, 0x2022, 0x3, 0x3, .i32, .rw, 0, (-2147483648), 2147483647, 0, 0, false, true, 1, 3, true⟩,
  ⟨0x2023, 0x2023, 0x1, 0x1, .u32, .rw, 0, 0, 4294967295, 0, 0, false, true, 1, 3, true⟩,
  ⟨0x2023, 0x2023, 0x2, 0x2, .u32, .rw, 0, 0, 4294967295, 0, 0, false, true, 1, 3, true⟩,
  ⟨0x2023, 0x2023, 0x3, 0x3, .i32, .rw, 0, (-2147483648), 2147483647, 0, 0, false, true, 1, 3, true⟩,
  ⟨0x2030, 0x2033, 0x1, 0x1, .u8, .rw, 0, 0, 2, 0, 0, true, false, 1, 3, false⟩,
  ⟨0x2030, 0x2033, 0x2, 0x2, .u64, .rw, 0, 0, 18446744073709551615, 0, 0, true, false, 1, 3, false⟩,
  ⟨0x2030, 0x2033, 0x3, 0x3, .u32, .rw, 1000000000, 100, 4294967295, 0, 0, true, false, 1, 3, false⟩,
  ⟨0x2030, 0x2033, 0x4, 0x4, .u32, .rw, 1000, 1, 4294967294, 0, 0, true, false, 1, 3, false⟩,
  ⟨0x2030, 0x2033, 0x5, 0x5, .bool, .rw, 0, 0, 1, 0, 0, true, false, 1, 3, false⟩,
  ⟨0x2030, 0x2033, 0x6, 0x6, .u8, .rw, 1, 1, 2, 0, 0, true, false, 1, 3, false⟩,
  ⟨0x2040, 0x2043, 0x1, 0x1, .u8, .rw, 0, 0, 3, 0, 0, true, false, 1, 3, false⟩,
  ⟨0x2040, 0x2043, 0x2, 0x2, .u64, .ro, 0, 0, 18446744073709551615, 0, 0, true, false, 1, 3, false⟩]

/-- Entries 2000 to 20FF, part 3. -/
def rowsTime3 : List Row := [
  ⟨0x2040, 0x2043, 0x3, 0x3, .u32, .ro, 0, 0, 4294967295, 0, 0, true, false, 1, 3, false⟩,
  ⟨0x2040, 0x2043, 0x4, 0x4, .u32, .ro, 0, 0, 4294967295, 0, 0, true, false, 1, 3, false⟩]

/-- Entries 2000 to 20FF (R403, R439). -/
def rowsTime : List Row := rowsTime1 ++ rowsTime2 ++ rowsTime3

/-- Entries 2100 to 21FF (R403, R439). -/
def rowsPorts : List Row := [
  ⟨0x2100, 0x2100, 0x1, 0x1, .bool, .rwa, 0, 0, 1, 0, 0, false, false, 1, 2, false⟩,
  ⟨0x2100, 0x2100, 0x2, 0x2, .u8, .ro, 0, 0, 255, 0, 0, false, false, 1, 3, false⟩,
  ⟨0x2100, 0x2100, 0x3, 0x3, .u16, .rw, 20, 1, 1000, 0, 0, false, true, 1, 3, false⟩,
  ⟨0x2100, 0x2100, 0x4, 0x4, .bool, .rw, 0, 0, 1, 0, 0, false, true, 1, 3, false⟩,
  ⟨0x2100, 0x2100, 0x5, 0x5, .u8, .ro, 0, 0, 255, 0, 0, false, false, 1, 3, false⟩,
  ⟨0x2100, 0x2100, 0x6, 0x6, .u8, .ro, 0, 0, 255, 0, 0, false, false, 1, 3, false⟩,
  ⟨0x2100, 0x2100, 0x7, 0x7, .bool, .ro, 0, 0, 1, 0, 0, false, false, 1, 3, false⟩,
  ⟨0x2100, 0x2100, 0x8, 0x8, .u8, .rw, 64, 2, 255, 0, 0, false, true, 1, 3, false⟩,
  ⟨0x2100, 0x2100, 0x9, 0x9, .u16, .rw, 65535, 0, 65535, 0, 0, false, true, 1, 3, false⟩,
  ⟨0x2100, 0x2100, 0xa, 0xa, .u8, .rw, 34, 0, 63, 0, 0, false, true, 1, 3, false⟩,
  ⟨0x2100, 0x2100, 0xb, 0xb, .u8, .rw, 46, 0, 63, 0, 0, false, true, 1, 3, false⟩,
  ⟨0x2100, 0x2100, 0xc, 0xc, .u32, .rw, 0, 0, 4294967295, 0, 0, false, true, 1, 3, false⟩,
  ⟨0x2100, 0x2100, 0xd, 0xd, .u32, .rw, 0, 0, 4294967295, 0, 0, false, true, 1, 3, false⟩,
  ⟨0x2100, 0x2100, 0xe, 0xe, .u64, .const, 0, 0, 18446744073709551615, 0, 0, false, false, 1, 3, false⟩,
  ⟨0x2110, 0x2113, 0x1, 0x1, .u8, .rw, 0, 0, 3, 0, 0, false, true, 1, 3, false⟩,
  ⟨0x2110, 0x2113, 0x2, 0x2, .bool, .rw, 0, 0, 1, 0, 0, false, true, 1, 3, false⟩,
  ⟨0x2110, 0x2113, 0x3, 0x3, .u8, .ro, 0, 0, 255, 0, 0, false, false, 1, 3, false⟩,
  ⟨0x2110, 0x2113, 0x4, 0x4, .u32, .ro, 0, 0, 4294967295, 0, 0, false, false, 1, 3, false⟩,
  ⟨0x2110, 0x2113, 0x5, 0x5, .u32, .ro, 0, 0, 4294967295, 0, 0, false, false, 1, 3, false⟩,
  ⟨0x2110, 0x2113, 0x6, 0x6, .u32, .ro, 0, 0, 4294967295, 0, 0, false, false, 1, 3, false⟩,
  ⟨0x2110, 0x2113, 0x7, 0x7, .u32, .ro, 0, 0, 4294967295, 0, 0, false, false, 1, 3, false⟩,
  ⟨0x2110, 0x2113, 0x8, 0x8, .u32, .ro, 0, 0, 4294967295, 0, 0, false, false, 1, 3, false⟩,
  ⟨0x2110, 0x2113, 0x9, 0x9, .u32, .ro, 0, 0, 4294967295, 0, 0, false, false, 1, 3, false⟩,
  ⟨0x2110, 0x2113, 0xa, 0xa, .u32, .ro, 0, 0, 4294967295, 0, 0, false, false, 1, 3, false⟩]

/-- Entries 2200 to 22FF (R403, R439). -/
def rowsReceive : List Row := [
  ⟨0x2200, 0x223f, 0x1, 0x1, .bool, .rwa, 0, 0, 1, 0, 0, true, false, 1, 3, false⟩,
  ⟨0x2200, 0x223f, 0x2, 0x2, .u8, .rw, 0, 0, 4, 0, 0, true, false, 1, 3, false⟩,
  ⟨0x2200, 0x223f, 0x3, 0x3, .u32, .rw, 0, 0, 4294967295, 0, 0, true, false, 1, 3, false⟩,
  ⟨0x2200, 0x223f, 0x4, 0x4, .u16, .rw, 5004, 0, 65535, 0, 0, true, false, 1, 3, false⟩,
  ⟨0x2200, 0x223f, 0x5, 0x5, .u32, .rw, 0, 0, 4294967295, 0, 0, true, false, 1, 3, false⟩,
  ⟨0x2200, 0x223f, 0x6, 0x6, .u64, .rwa, 0, 0, 18446744073709551615, 0, 0, true, false, 1, 3, false⟩,
  ⟨0x2200, 0x223f, 0x7, 0x7, .dom, .rwa, 0, 0, 0, 67108864, 64, true, false, 1, 3, false⟩,
  ⟨0x2200, 0x223f, 0x8, 0x8, .u32, .rw, 0, 0, 4294967295, 0, 0, true, false, 1, 3, false⟩,
  ⟨0x2200, 0x223f, 0x9, 0x9, .u16, .rwa, 0, 0, 2047, 0, 0, true, false, 1, 3, false⟩,
  ⟨0x2200, 0x223f, 0xa, 0xa, .u8, .rw, 98, 96, 127, 0, 0, true, false, 1, 3, false⟩,
  ⟨0x2200, 0x223f, 0xb, 0xb, .u8, .ro, 0, 0, 255, 0, 0, true, false, 1, 3, false⟩,
  ⟨0x2200, 0x223f, 0xc, 0xc, .u32, .ro, 0, 0, 4294967295, 0, 0, true, false, 1, 3, false⟩,
  ⟨0x2200, 0x223f, 0xd, 0xd, .u32, .ro, 0, 0, 4294967295, 0, 0, true, false, 1, 3, false⟩,
  ⟨0x2200, 0x223f, 0xe, 0xe, .u32, .ro, 0, 0, 4294967295, 0, 0, true, false, 1, 3, false⟩,
  ⟨0x2200, 0x223f, 0xf, 0xf, .u32, .ro, 0, 0, 4294967295, 0, 0, true, false, 1, 3, false⟩,
  ⟨0x2200, 0x223f, 0x10, 0x10, .u32, .ro, 0, 0, 4294967295, 0, 0, true, false, 1, 3, false⟩,
  ⟨0x2200, 0x223f, 0x11, 0x11, .u32, .ro, 0, 0, 4294967295, 0, 0, true, false, 1, 3, false⟩,
  ⟨0x2200, 0x223f, 0x12, 0x12, .u32, .ro, 0, 0, 4294967295, 0, 0, true, false, 1, 3, false⟩,
  ⟨0x2200, 0x223f, 0x13, 0x13, .i32, .ro, 2147483647, (-2147483648), 2147483647, 0, 0, true, false, 1, 3, false⟩,
  ⟨0x2200, 0x223f, 0x14, 0x14, .u32, .ro, 0, 0, 4294967295, 0, 0, true, false, 1, 3, false⟩,
  ⟨0x2200, 0x223f, 0x15, 0x15, .u32, .ro, 0, 0, 4294967295, 0, 0, true, false, 1, 3, false⟩,
  ⟨0x2200, 0x223f, 0x16, 0x16, .bool, .wo, 0, 0, 1, 0, 0, true, false, 1, 2, true⟩]

/-- Entries 2300 to 23FF (R403, R439). -/
def rowsTransmit : List Row := [
  ⟨0x2300, 0x233f, 0x1, 0x1, .bool, .rwa, 0, 0, 1, 0, 0, true, false, 1, 3, false⟩,
  ⟨0x2300, 0x233f, 0x2, 0x2, .u8, .rw, 0, 0, 3, 0, 0, true, false, 1, 3, false⟩,
  ⟨0x2300, 0x233f, 0x3, 0x3, .u32, .rw, 0, 0, 4294967295, 0, 0, true, false, 1, 3, false⟩,
  ⟨0x2300, 0x233f, 0x4, 0x4, .u16, .rw, 5004, 0, 65535, 0, 0, true, false, 1, 3, false⟩,
  ⟨0x2300, 0x233f, 0x5, 0x5, .u32, .rw, 0, 0, 4294967295, 0, 0, true, false, 1, 3, false⟩,
  ⟨0x2300, 0x233f, 0x6, 0x6, .u64, .rwa, 0, 0, 18446744073709551615, 0, 0, true, false, 1, 3, false⟩,
  ⟨0x2300, 0x233f, 0x7, 0x7, .dom, .rwa, 0, 0, 0, 67108864, 128, true, false, 1, 3, false⟩,
  ⟨0x2300, 0x233f, 0x8, 0x8, .u32, .rw, 0, 0, 4294967295, 0, 0, true, false, 1, 3, false⟩,
  ⟨0x2300, 0x233f, 0x9, 0x9, .u8, .rw, 98, 96, 127, 0, 0, true, false, 1, 3, false⟩,
  ⟨0x2300, 0x233f, 0xa, 0xa, .u32, .ro, 0, 0, 4294967295, 0, 0, true, false, 1, 3, false⟩,
  ⟨0x2300, 0x233f, 0xb, 0xb, .u32, .ro, 0, 0, 4294967295, 0, 0, true, false, 1, 3, false⟩]

/-- Entries 2400 to 24FF, part 1. -/
def rowsAes1 : List Row := [
  ⟨0x2400, 0x2400, 0x1, 0x1, .u8, .rw, 0, 0, 2, 0, 0, true, false, 1, 3, false⟩,
  ⟨0x2400, 0x2400, 0x2, 0x2, .u64, .ro, 0, 0, 18446744073709551615, 0, 0, true, false, 1, 3, false⟩,
  ⟨0x2400, 0x2400, 0x3, 0x3, .u64, .ro, 0, 0, 18446744073709551615, 0, 0, true, false, 1, 3, false⟩,
  ⟨0x2400, 0x2400, 0x4, 0x4, .u64, .ro, 0, 0, 18446744073709551615, 0, 0, true, false, 1, 3, false⟩,
  ⟨0x2410, 0x241f, 0x1, 0x1, .u8, .rwa, 0, 0, 2, 0, 0, true, false, 1, 3, false⟩,
  ⟨0x2410, 0x241f, 0x2, 0x2, .u8, .rw, 24, 20, 24, 0, 0, true, true, 1, 3, false⟩,
  ⟨0x2410, 0x241f, 0x3, 0x3, .bool, .rw, 0, 0, 1, 0, 0, true, true, 1, 3, false⟩,
  ⟨0x2410, 0x241f, 0x4, 0x4, .u8, .ro, 0, 0, 255, 0, 0, true, false, 1, 3, false⟩,
  ⟨0x2410, 0x241f, 0x5, 0x5, .u32, .ro, 0, 0, 4294967295, 0, 0, true, false, 1, 3, false⟩,
  ⟨0x2410, 0x241f, 0x6, 0x6, .u32, .ro, 0, 0, 4294967295, 0, 0, true, false, 1, 3, false⟩,
  ⟨0x2410, 0x241f, 0x7, 0x7, .u32, .ro, 0, 0, 4294967295, 0, 0, true, false, 1, 3, false⟩,
  ⟨0x2410, 0x241f, 0x8, 0x8, .u16, .ro, 0, 0, 65535, 0, 0, true, false, 1, 3, false⟩,
  ⟨0x2410, 0x241f, 0x9, 0x9, .dom, .ro, 0, 0, 0, 67108864, 0, true, false, 1, 3, false⟩,
  ⟨0x2410, 0x241f, 0xa, 0xa, .dom, .ro, 0, 0, 0, 67108864, 0, true, false, 1, 3, false⟩,
  ⟨0x2410, 0x241f, 0xb, 0xb, .dom, .ro, 0, 0, 0, 67108864, 0, true, false, 1, 3, false⟩,
  ⟨0x2410, 0x241f, 0xc, 0xc, .u32, .ro, 0, 0, 4294967295, 0, 0, true, false, 1, 3, false⟩,
  ⟨0x2410, 0x241f, 0xd, 0xd, .u32, .ro, 0, 0, 4294967295, 0, 0, true, false, 1, 3, false⟩,
  ⟨0x2410, 0x241f, 0xe, 0xe, .u32, .ro, 0, 0, 4294967295, 0, 0, true, false, 1, 3, false⟩,
  ⟨0x2410, 0x241f, 0xf, 0xf, .u32, .ro, 0, 0, 4294967295, 0, 0, true, false, 1, 3, false⟩,
  ⟨0x2410, 0x241f, 0x10, 0x10, .i32, .ro, 0, (-2147483648), 2147483647, 0, 0, true, false, 1, 3, false⟩,
  ⟨0x2420, 0x242f, 0x1, 0x1, .bool, .rwa, 0, 0, 1, 0, 0, true, false, 1, 3, false⟩,
  ⟨0x2420, 0x242f, 0x2, 0x2, .dom, .rwa, 0, 0, 0, 67108864, 4, true, false, 1, 3, false⟩,
  ⟨0x2420, 0x242f, 0x3, 0x3, .dom, .rw, 0, 0, 0, 24, 24, true, true, 1, 3, false⟩,
  ⟨0x2420, 0x242f, 0x4, 0x4, .bool, .rw, 0, 0, 1, 0, 0, true, true, 1, 3, false⟩]

/-- Entries 2400 to 24FF, part 2. -/
def rowsAes2 : List Row := [
  ⟨0x2420, 0x242f, 0x5, 0x5, .u32, .ro, 0, 0, 4294967295, 0, 0, true, false, 1, 3, false⟩,
  ⟨0x2440, 0x2447, 0x1, 0x1, .bool, .rwa, 0, 0, 1, 0, 0, true, false, 1, 3, false⟩,
  ⟨0x2440, 0x2447, 0x2, 0x2, .u8, .rw, 1, 1, 2, 0, 0, true, true, 1, 3, false⟩,
  ⟨0x2440, 0x2447, 0x3, 0x3, .u8, .rw, 4, 3, 5, 0, 0, true, true, 1, 3, false⟩,
  ⟨0x2440, 0x2447, 0x4, 0x4, .u16, .rw, 32, 16, 256, 0, 0, true, true, 1, 3, false⟩,
  ⟨0x2440, 0x2447, 0x5, 0x5, .bool, .rw, 0, 0, 1, 0, 0, true, true, 1, 3, false⟩,
  ⟨0x2440, 0x2447, 0x6, 0x6, .dom, .rw, 0, 0, 0, 64, 64, true, true, 1, 3, false⟩,
  ⟨0x2440, 0x2447, 0x7, 0x7, .u8, .ro, 0, 0, 255, 0, 0, true, false, 1, 3, false⟩,
  ⟨0x2440, 0x2447, 0x8, 0x8, .u32, .ro, 0, 0, 4294967295, 0, 0, true, false, 1, 3, false⟩,
  ⟨0x2440, 0x2447, 0x9, 0x9, .u32, .ro, 0, 0, 4294967295, 0, 0, true, false, 1, 3, false⟩]

/-- Entries 2400 to 24FF (R403, R439). -/
def rowsAes : List Row := rowsAes1 ++ rowsAes2

/-- Entries 3000 to 30FF (R403, R439). -/
def rowsObjects : List Row := [
  ⟨0x3000, 0x31ff, 0x1, 0x1, .bool, .rwa, 0, 0, 1, 0, 0, true, false, 1, 2, false⟩,
  ⟨0x3000, 0x31ff, 0x2, 0x2, .u16, .rw, 65535, 0, 65535, 0, 0, true, false, 1, 3, false⟩,
  ⟨0x3000, 0x31ff, 0x3, 0x3, .u8, .rw, 0, 0, 1, 0, 0, true, false, 1, 3, false⟩,
  ⟨0x3000, 0x31ff, 0x4, 0x4, .i32, .rwa, 268435456, (-2147483648), 2147483647, 0, 0, true, false, 1, 2, false⟩,
  ⟨0x3000, 0x31ff, 0x5, 0x5, .u32, .rwa, 0, 0, 4294967295, 0, 0, true, false, 1, 2, false⟩,
  ⟨0x3000, 0x31ff, 0x6, 0x6, .dom, .rwa, 0, 0, 0, 48, 48, true, false, 1, 2, false⟩,
  ⟨0x3000, 0x31ff, 0x7, 0x9, .i32, .ro, 0, (-2147483648), 2147483647, 0, 0, true, false, 1, 3, false⟩,
  ⟨0x3000, 0x31ff, 0xa, 0xa, .u8, .ro, 0, 0, 255, 0, 0, true, false, 1, 3, false⟩,
  ⟨0x3000, 0x31ff, 0xb, 0xb, .u8, .ro, 0, 0, 255, 0, 0, true, false, 1, 3, false⟩,
  ⟨0x3000, 0x31ff, 0xc, 0xc, .u8, .ro, 0, 0, 255, 0, 0, true, false, 1, 3, false⟩,
  ⟨0x3000, 0x31ff, 0xd, 0xd, .u32, .ro, 0, 0, 4294967295, 0, 0, true, false, 1, 3, false⟩]

/-- Entries 3400 to 34FF (R403, R439). -/
def rowsFeeds : List Row := [
  ⟨0x3400, 0x35ff, 0x1, 0x1, .bool, .rwa, 0, 0, 1, 0, 0, true, false, 1, 2, false⟩,
  ⟨0x3400, 0x35ff, 0x2, 0x4, .i32, .rwa, 0, (-2147483648), 2147483647, 0, 0, true, false, 1, 3, false⟩,
  ⟨0x3400, 0x35ff, 0x5, 0x7, .i32, .rwa, 0, (-2147483648), 2147483647, 0, 0, true, false, 1, 3, false⟩,
  ⟨0x3400, 0x35ff, 0x8, 0x8, .u8, .rwa, 0, 0, 7, 0, 0, true, false, 1, 3, false⟩,
  ⟨0x3400, 0x35ff, 0x9, 0x9, .u8, .rwa, 0, 0, 63, 0, 0, true, false, 1, 3, false⟩,
  ⟨0x3400, 0x35ff, 0xa, 0xa, .u16, .ro, 0, 0, 65535, 0, 0, true, false, 1, 3, false⟩,
  ⟨0x3400, 0x35ff, 0x10, 0x10, .i32, .rwa, 268435456, (-2147483648), 2147483647, 0, 0, true, false, 1, 2, false⟩,
  ⟨0x3400, 0x35ff, 0x11, 0x11, .bool, .rwa, 0, 0, 1, 0, 0, true, false, 1, 2, false⟩,
  ⟨0x3400, 0x35ff, 0x12, 0x12, .u16, .rwa, 0, 0, 2047, 0, 0, true, false, 1, 3, false⟩,
  ⟨0x3400, 0x35ff, 0x13, 0x13, .i32, .rwa, 2147483647, 1, 2147483647, 0, 0, true, false, 1, 3, false⟩,
  ⟨0x3400, 0x35ff, 0x14, 0x14, .u32, .rwa, 715827, 1, 2147483647, 0, 0, true, false, 1, 3, false⟩,
  ⟨0x3400, 0x35ff, 0x20, 0x2f, .dom, .rwa, 0, 0, 0, 20, 20, true, false, 1, 3, false⟩,
  ⟨0x3400, 0x35ff, 0x30, 0x30, .u32, .ro, 0, 0, 4294967295, 0, 0, true, false, 1, 3, false⟩,
  ⟨0x3400, 0x35ff, 0x31, 0x31, .u32, .ro, 0, 0, 4294967295, 0, 0, true, false, 1, 3, false⟩,
  ⟨0x3400, 0x35ff, 0x32, 0x32, .u32, .ro, 2147483648, 0, 4294967295, 0, 0, true, false, 1, 3, false⟩,
  ⟨0x3400, 0x35ff, 0x33, 0x33, .u32, .ro, 0, 0, 4294967295, 0, 0, true, false, 1, 3, false⟩,
  ⟨0x3400, 0x35ff, 0x34, 0x34, .bool, .wo, 0, 0, 1, 0, 0, false, false, 1, 2, true⟩]

/-- Entries 3800 to 38FF, part 1. -/
def rowsPlacement1 : List Row := [
  ⟨0x3800, 0x3800, 0x1, 0x1, .u8, .rw, 255, 0, 255, 0, 0, true, false, 1, 3, false⟩,
  ⟨0x3800, 0x3800, 0x2, 0x2, .u32, .rwa, 343000, 300000, 400000, 0, 0, true, false, 1, 3, false⟩,
  ⟨0x3800, 0x3800, 0x3, 0x3, .u32, .rwa, 65536, 1, 65536, 0, 0, true, false, 1, 3, false⟩,
  ⟨0x3800, 0x3800, 0x4, 0x4, .u8, .rwa, 128, 1, 128, 0, 0, true, false, 1, 3, false⟩,
  ⟨0x3800, 0x3800, 0x5, 0x5, .u32, .rwa, 10000, 1, 1000000, 0, 0, true, false, 1, 3, false⟩,
  ⟨0x3800, 0x3800, 0x6, 0x6, .u32, .rwa, 1000, 1, 1000000, 0, 0, true, false, 1, 3, false⟩,
  ⟨0x3800, 0x3800, 0x7, 0x7, .u8, .rwa, 3, 1, 16, 0, 0, true, false, 1, 3, false⟩,
  ⟨0x3800, 0x3800, 0x8, 0x8, .u32, .rwa, 256, 0, 268435456, 0, 0, true, false, 1, 3, false⟩,
  ⟨0x3800, 0x3800, 0x9, 0x9, .u32, .rwa, 0, 0, 4294967295, 0, 0, true, false, 1, 3, false⟩,
  ⟨0x3800, 0x3800, 0xa, 0xa, .u32, .ro, 1073741824, 0, 4294967295, 0, 0, true, false, 1, 3, false⟩,
  ⟨0x3800, 0x3800, 0xb, 0xb, .u32, .ro, 1202089972, 0, 4294967295, 0, 0, true, false, 1, 3, false⟩,
  ⟨0x3801, 0x3801, 0x1, 0x1, .u32, .ro, 0, 0, 4294967295, 0, 0, true, false, 1, 3, false⟩,
  ⟨0x3801, 0x3801, 0x2, 0x2, .u32, .ro, 0, 0, 4294967295, 0, 0, true, false, 1, 3, false⟩,
  ⟨0x3801, 0x3801, 0x3, 0x3, .u32, .ro, 0, 0, 4294967295, 0, 0, true, false, 1, 3, false⟩,
  ⟨0x3801, 0x3801, 0x4, 0x4, .u32, .ro, 0, 0, 4294967295, 0, 0, true, false, 1, 3, false⟩,
  ⟨0x3801, 0x3801, 0x5, 0x5, .u32, .ro, 0, 0, 4294967295, 0, 0, true, false, 1, 3, false⟩,
  ⟨0x3801, 0x3801, 0x6, 0x6, .u32, .ro, 0, 0, 4294967295, 0, 0, true, false, 1, 3, false⟩,
  ⟨0x3801, 0x3801, 0x7, 0x7, .u32, .ro, 0, 0, 4294967295, 0, 0, true, false, 1, 3, false⟩,
  ⟨0x3801, 0x3801, 0x8, 0x8, .u32, .ro, 0, 0, 4294967295, 0, 0, true, false, 1, 3, false⟩,
  ⟨0x3801, 0x3801, 0x9, 0x9, .u32, .ro, 0, 0, 4294967295, 0, 0, true, false, 1, 3, false⟩,
  ⟨0x3801, 0x3801, 0xa, 0xa, .u32, .ro, 0, 0, 4294967295, 0, 0, true, false, 1, 3, false⟩,
  ⟨0x3801, 0x3801, 0xb, 0xb, .bool, .wo, 0, 0, 1, 0, 0, false, false, 1, 2, true⟩,
  ⟨0x3802, 0x3802, 0x1, 0x1, .dom, .const, 0, 0, 0, 67108864, 0, true, false, 1, 3, false⟩,
  ⟨0x3820, 0x3827, 0x1, 0x11, .u32, .rwa, 0, 0, 2147483648, 0, 0, true, false, 1, 3, false⟩]

/-- Entries 3800 to 38FF, part 2. -/
def rowsPlacement2 : List Row := [
  ⟨0x3840, 0x387f, 0x1, 0x1, .i32, .rwa, 268435456, (-2147483648), 2147483647, 0, 0, true, false, 1, 2, false⟩,
  ⟨0x3840, 0x387f, 0x2, 0x2, .i32, .ro, 0, (-2147483648), 2147483647, 0, 0, true, false, 1, 3, false⟩,
  ⟨0x3803, 0x3803, 0x1, 0x1, .u32, .ro, 0, 0, 4294967295, 0, 0, true, false, 1, 3, false⟩,
  ⟨0x3803, 0x3803, 0x2, 0x2, .u16, .ro, 0, 0, 65535, 0, 0, true, false, 1, 3, false⟩,
  ⟨0x3803, 0x3803, 0x3, 0x3, .u32, .ro, 0, 0, 4294967295, 0, 0, true, false, 1, 3, false⟩,
  ⟨0x3803, 0x3803, 0x4, 0x4, .u16, .ro, 65535, 0, 65535, 0, 0, true, false, 1, 3, false⟩,
  ⟨0x3803, 0x3803, 0x5, 0x5, .u32, .ro, 0, 0, 4294967295, 0, 0, true, false, 1, 3, false⟩,
  ⟨0x3803, 0x3803, 0x6, 0x6, .u32, .ro, 0, 0, 4294967295, 0, 0, true, false, 1, 3, false⟩,
  ⟨0x3803, 0x3803, 0x10, 0x10, .dom, .const, 0, 0, 0, 67108864, 0, true, false, 1, 3, false⟩]

/-- Entries 3800 to 38FF (R403, R439). -/
def rowsPlacement : List Row := rowsPlacement1 ++ rowsPlacement2

/-- Entries 4000 to 40FF (R403, R439). -/
def rowsCorrection : List Row := [
  ⟨0x4000, 0x41ff, 0x1, 0x1, .u16, .rw, 0, 0, 65535, 0, 0, true, false, 1, 3, false⟩,
  ⟨0x4000, 0x41ff, 0x2, 0x2, .bool, .rwa, 0, 0, 1, 0, 0, true, false, 1, 2, false⟩,
  ⟨0x4000, 0x41ff, 0x3, 0x3, .u8, .rwa, 0, 0, 1, 0, 0, true, false, 1, 2, false⟩,
  ⟨0x4000, 0x41ff, 0x4, 0x4, .u8, .rw, 16, 1, 64, 0, 0, true, false, 1, 3, false⟩,
  ⟨0x4000, 0x41ff, 0x5, 0x5, .dom, .rwa, 0, 0, 0, 65536, 0, true, false, 1, 3, false⟩,
  ⟨0x4000, 0x41ff, 0x6, 0x6, .dom, .rwa, 0, 0, 0, 65536, 0, true, false, 1, 3, false⟩,
  ⟨0x4000, 0x41ff, 0x7, 0x7, .u8, .ro, 0, 0, 255, 0, 0, true, false, 1, 3, false⟩,
  ⟨0x4000, 0x41ff, 0x8, 0x8, .u8, .ro, 0, 0, 255, 0, 0, true, false, 1, 3, false⟩,
  ⟨0x4000, 0x41ff, 0x9, 0x9, .u8, .ro, 0, 0, 255, 0, 0, true, false, 1, 3, false⟩,
  ⟨0x4000, 0x41ff, 0xa, 0xa, .u16, .ro, 0, 0, 65535, 0, 0, true, false, 1, 3, false⟩,
  ⟨0x4000, 0x41ff, 0xb, 0xb, .bool, .ro, 0, 0, 1, 0, 0, true, false, 1, 3, false⟩]

/-- Entries 4400 to 44FF, part 1. -/
def rowsDrift1 : List Row := [
  ⟨0x4400, 0x4400, 0x1, 0x1, .u8, .rw, 0, 0, 3, 0, 0, true, false, 1, 2, false⟩,
  ⟨0x4400, 0x4400, 0x2, 0x2, .bool, .wo, 0, 0, 1, 0, 0, true, false, 1, 3, false⟩,
  ⟨0x4400, 0x4400, 0x3, 0x3, .u16, .rw, 30, 2, 600, 0, 0, true, true, 1, 3, false⟩,
  ⟨0x4400, 0x4400, 0x4, 0x4, .u16, .rw, 10, 1, 600, 0, 0, true, true, 1, 3, false⟩,
  ⟨0x4400, 0x4400, 0x5, 0x5, .u32, .rw, 1020054732, 966367641, 1073741824, 0, 0, true, true, 1, 3, false⟩,
  ⟨0x4400, 0x4400, 0x6, 0x6, .u32, .rw, 1127428915, 1073741824, 1181116006, 0, 0, true, true, 1, 3, false⟩,
  ⟨0x4400, 0x4400, 0x7, 0x7, .u8, .rw, 8, 1, 32, 0, 0, true, true, 1, 3, false⟩,
  ⟨0x4400, 0x4400, 0x8, 0x8, .u32, .rw, 7864320, 0, 33554432, 0, 0, true, true, 1, 3, false⟩,
  ⟨0x4400, 0x4400, 0x9, 0x9, .u8, .rw, 4, 1, 16, 0, 0, true, true, 1, 3, false⟩,
  ⟨0x4400, 0x4400, 0xa, 0xa, .u8, .rw, 30, 0, 60, 0, 0, true, true, 1, 3, false⟩,
  ⟨0x4400, 0x4400, 0xb, 0xb, .u8, .rw, 5, 1, 20, 0, 0, true, true, 1, 3, false⟩,
  ⟨0x4400, 0x4400, 0xc, 0xc, .u8, .rw, 6, 3, 20, 0, 0, true, true, 1, 3, false⟩,
  ⟨0x4400, 0x4400, 0xd, 0xd, .i8, .rw, 206, (-80), (-20), 0, 0, true, true, 1, 3, false⟩,
  ⟨0x4400, 0x4400, 0x10, 0x10, .u32, .ro, 1073741824, 0, 4294967295, 0, 0, true, false, 1, 3, false⟩,
  ⟨0x4400, 0x4400, 0x11, 0x11, .u32, .ro, 0, 0, 4294967295, 0, 0, true, false, 1, 3, false⟩,
  ⟨0x4400, 0x4400, 0x12, 0x12, .u8, .ro, 0, 0, 255, 0, 0, true, false, 1, 3, false⟩,
  ⟨0x4410, 0x4417, 0x1, 0x1, .bool, .rw, 0, 0, 1, 0, 0, true, true, 1, 3, false⟩,
  ⟨0x4410, 0x4417, 0x2, 0x2, .u64, .rw, 0, 0, 18446744073709551615, 0, 0, true, true, 1, 3, false⟩,
  ⟨0x4410, 0x4417, 0x3, 0x3, .u8, .rw, 0, 0, 7, 0, 0, true, true, 1, 3, false⟩,
  ⟨0x4440, 0x447f, 0x1, 0x1, .u16, .rw, 65535, 0, 65535, 0, 0, true, true, 1, 3, false⟩,
  ⟨0x4440, 0x447f, 0x2, 0x2, .u32, .rw, 0, 0, 4294967295, 0, 0, true, true, 1, 3, false⟩,
  ⟨0x4440, 0x447f, 0x3, 0x3, .bool, .rw, 0, 0, 1, 0, 0, true, true, 1, 3, false⟩,
  ⟨0x4440, 0x447f, 0x4, 0x4, .bool, .rw, 0, 0, 1, 0, 0, true, true, 1, 3, false⟩,
  ⟨0x4440, 0x447f, 0x5, 0x5, .i32, .ro, 0, (-2147483648), 2147483647, 0, 0, true, false, 1, 3, false⟩]

/-- Entries 4400 to 44FF, part 2. -/
def rowsDrift2 : List Row := [
  ⟨0x4440, 0x447f, 0x6, 0x6, .u8, .ro, 0, 0, 255, 0, 0, true, false, 1, 3, false⟩,
  ⟨0x4480, 0x44bf, 0x1, 0x8, .i32, .ro, 0, (-2147483648), 2147483647, 0, 0, true, false, 1, 3, false⟩,
  ⟨0x4480, 0x44bf, 0x9, 0x10, .u8, .ro, 0, 0, 255, 0, 0, true, false, 1, 3, false⟩,
  ⟨0x44c0, 0x44ff, 0x1, 0x1, .dom, .ro, 0, 0, 0, 67108864, 0, true, false, 1, 3, false⟩,
  ⟨0x44c0, 0x44ff, 0x2, 0x2, .dom, .ro, 0, 0, 0, 67108864, 0, true, false, 1, 3, false⟩,
  ⟨0x44c0, 0x44ff, 0x3, 0x3, .bool, .ro, 0, 0, 1, 0, 0, true, false, 1, 3, false⟩]

/-- Entries 4400 to 44FF (R403, R439). -/
def rowsDrift : List Row := rowsDrift1 ++ rowsDrift2

/-- Entries 5000 to 50FF, part 1. -/
def rowsDrive1 : List Row := [
  ⟨0x5000, 0x500f, 0x1, 0x1, .bool, .rwa, 0, 0, 1, 0, 0, true, false, 1, 2, false⟩,
  ⟨0x5000, 0x500f, 0x2, 0x2, .u16, .rwa, 65535, 0, 65535, 0, 0, true, false, 1, 3, false⟩,
  ⟨0x5000, 0x500f, 0x3, 0x3, .i32, .rwa, 268435456, (-2147483648), 2147483647, 0, 0, true, true, 1, 3, false⟩,
  ⟨0x5000, 0x500f, 0x4, 0x4, .u32, .rw, 100000, 1000, 400000, 0, 0, true, true, 1, 3, false⟩,
  ⟨0x5000, 0x500f, 0x5, 0x5, .u8, .rw, 0, 0, 3, 0, 0, true, true, 1, 3, false⟩,
  ⟨0x5000, 0x500f, 0x6, 0x6, .u16, .rw, 164, 41, 1024, 0, 0, true, true, 1, 3, false⟩,
  ⟨0x5000, 0x500f, 0x7, 0x7, .i32, .rwa, 268435456, (-2147483648), 2147483647, 0, 0, true, true, 1, 3, false⟩,
  ⟨0x5000, 0x500f, 0x8, 0x8, .i32, .rwa, 0, (-2147483648), 2147483647, 0, 0, true, true, 1, 3, false⟩,
  ⟨0x5000, 0x500f, 0x9, 0x9, .i32, .rwa, 268435456, (-2147483648), 2147483647, 0, 0, true, true, 1, 3, false⟩,
  ⟨0x5000, 0x500f, 0xa, 0xc, .i32, .rwa, 0, (-2147483648), 2147483647, 0, 0, true, true, 1, 3, false⟩,
  ⟨0x5000, 0x500f, 0xd, 0xd, .i16, .rwa, 0, (-256), 256, 0, 0, true, true, 1, 3, false⟩,
  ⟨0x5000, 0x500f, 0xe, 0xe, .u8, .rwa, 64, 1, 255, 0, 0, true, true, 1, 3, false⟩,
  ⟨0x5000, 0x500f, 0xf, 0xf, .u16, .rw, 500, 50, 5000, 0, 0, true, true, 1, 3, false⟩,
  ⟨0x5000, 0x500f, 0x10, 0x10, .u8, .rw, 3, 1, 255, 0, 0, true, true, 1, 3, false⟩,
  ⟨0x5000, 0x500f, 0x11, 0x11, .u32, .rw, 50000, 0, 4294967295, 0, 0, true, true, 1, 3, false⟩,
  ⟨0x5000, 0x500f, 0x12, 0x12, .u32, .rw, 200000, 0, 4294967295, 0, 0, true, true, 1, 3, false⟩,
  ⟨0x5000, 0x500f, 0x20, 0x20, .u8, .ro, 0, 0, 255, 0, 0, true, false, 1, 3, false⟩,
  ⟨0x5000, 0x500f, 0x21, 0x21, .u32, .ro, 0, 0, 4294967295, 0, 0, true, false, 1, 3, false⟩,
  ⟨0x5000, 0x500f, 0x22, 0x22, .u32, .ro, 0, 0, 4294967295, 0, 0, true, false, 1, 3, false⟩,
  ⟨0x5000, 0x500f, 0x23, 0x23, .u8, .ro, 0, 0, 255, 0, 0, true, false, 1, 3, false⟩,
  ⟨0x5000, 0x500f, 0x24, 0x24, .u32, .ro, 0, 0, 4294967295, 0, 0, true, false, 1, 3, false⟩,
  ⟨0x5000, 0x500f, 0x25, 0x25, .u32, .ro, 0, 0, 4294967295, 0, 0, true, false, 1, 3, false⟩,
  ⟨0x5000, 0x500f, 0x26, 0x26, .u16, .ro, 0, 0, 65535, 0, 0, true, false, 1, 3, false⟩,
  ⟨0x5000, 0x500f, 0x27, 0x27, .bool, .wo, 0, 0, 1, 0, 0, true, false, 1, 2, false⟩]

/-- Entries 5000 to 50FF, part 2. -/
def rowsDrive2 : List Row := [
  ⟨0x5000, 0x500f, 0x28, 0x28, .u32, .ro, 16384, 0, 4294967295, 0, 0, true, false, 1, 3, false⟩,
  ⟨0x5000, 0x500f, 0x29, 0x29, .i32, .ro, 2147483647, (-2147483648), 2147483647, 0, 0, true, false, 1, 3, false⟩,
  ⟨0x5010, 0x5013, 0x1, 0x1, .u32, .rw, 200000, 1000, 400000, 0, 0, true, true, 1, 3, false⟩,
  ⟨0x5010, 0x5013, 0x2, 0x2, .i32, .rw, 1932735283, 1073741824, 2147483647, 0, 0, true, true, 1, 3, false⟩,
  ⟨0x5010, 0x5013, 0x3, 0x3, .u32, .rw, 55924, 1, 2147483647, 0, 0, true, true, 1, 3, false⟩,
  ⟨0x5010, 0x5013, 0x4, 0x4, .u32, .rw, 20000, 0, 4294967295, 0, 0, true, true, 1, 3, false⟩,
  ⟨0x5010, 0x5013, 0x5, 0x5, .u32, .rw, 190000, 0, 4294967295, 0, 0, true, true, 1, 3, false⟩,
  ⟨0x5010, 0x5013, 0x6, 0x6, .u32, .rw, 2000, 0, 4294967295, 0, 0, true, true, 1, 3, false⟩,
  ⟨0x5010, 0x5013, 0x7, 0x7, .u32, .ro, 0, 0, 4294967295, 0, 0, true, false, 1, 3, false⟩,
  ⟨0x5010, 0x5013, 0x8, 0x8, .u32, .ro, 0, 0, 4294967295, 0, 0, true, false, 1, 3, false⟩,
  ⟨0x5010, 0x5013, 0x9, 0x9, .bool, .wo, 0, 0, 1, 0, 0, false, false, 1, 2, true⟩,
  ⟨0x5010, 0x5013, 0xa, 0xa, .u8, .ro, 0, 0, 255, 0, 0, true, false, 1, 3, false⟩,
  ⟨0x5010, 0x5013, 0xb, 0xb, .u32, .ro, 0, 0, 4294967295, 0, 0, true, false, 1, 3, false⟩,
  ⟨0x501f, 0x501f, 0x1, 0x1, .bool, .rw, 0, 0, 1, 0, 0, true, false, 1, 3, false⟩,
  ⟨0x501f, 0x501f, 0x2, 0x2, .bool, .ro, 0, 0, 1, 0, 0, true, false, 1, 3, false⟩]

/-- Entries 5000 to 50FF (R403, R439). -/
def rowsDrive : List Row := rowsDrive1 ++ rowsDrive2

/-- Entries 6000 to 60FF, part 1. -/
def rowsTwin1 : List Row := [
  ⟨0x6000, 0x6000, 0x1, 0x1, .u8, .ro, 0, 0, 255, 0, 0, false, false, 1, 3, false⟩,
  ⟨0x6000, 0x6000, 0x2, 0x2, .bool, .ro, 0, 0, 1, 0, 0, false, false, 1, 3, false⟩,
  ⟨0x6000, 0x6000, 0x3, 0x3, .u8, .ro, 0, 0, 255, 0, 0, false, false, 1, 3, false⟩,
  ⟨0x6000, 0x6000, 0x4, 0x4, .bool, .rw, 0, 0, 1, 0, 0, false, false, 1, 3, false⟩,
  ⟨0x6000, 0x6000, 0x5, 0x5, .bool, .wo, 0, 0, 1, 0, 0, false, false, 1, 3, false⟩,
  ⟨0x6000, 0x6000, 0x6, 0x6, .u8, .rw, 1, 0, 1, 0, 0, false, true, 1, 3, false⟩,
  ⟨0x6000, 0x6000, 0x7, 0x7, .bool, .rw, 1, 0, 1, 0, 0, false, true, 1, 3, false⟩,
  ⟨0x6000, 0x6000, 0x8, 0x8, .u8, .rw, 3, 1, 255, 0, 0, false, true, 1, 3, false⟩,
  ⟨0x6000, 0x6000, 0x9, 0x9, .u8, .ro, 0, 0, 255, 0, 0, false, false, 1, 3, false⟩,
  ⟨0x6000, 0x6000, 0xa, 0xa, .u64, .ro, 0, 0, 18446744073709551615, 0, 0, false, false, 1, 3, false⟩,
  ⟨0x6000, 0x6000, 0x10, 0x10, .u32, .ro, 0, 0, 4294967295, 0, 0, false, false, 1, 3, false⟩,
  ⟨0x6000, 0x6000, 0x11, 0x11, .u64, .ro, 0, 0, 18446744073709551615, 0, 0, false, false, 1, 3, false⟩,
  ⟨0x6000, 0x6000, 0x12, 0x12, .u8, .ro, 0, 0, 255, 0, 0, false, false, 1, 3, false⟩,
  ⟨0x6000, 0x6000, 0x13, 0x13, .u32, .ro, 0, 0, 4294967295, 0, 0, false, false, 1, 3, false⟩,
  ⟨0x6000, 0x6000, 0x14, 0x14, .u32, .ro, 0, 0, 4294967295, 0, 0, false, false, 1, 3, false⟩,
  ⟨0x6000, 0x6000, 0x15, 0x15, .u32, .ro, 0, 0, 4294967295, 0, 0, false, false, 1, 3, false⟩,
  ⟨0x6000, 0x6000, 0x16, 0x16, .u32, .ro, 0, 0, 4294967295, 0, 0, false, false, 1, 3, false⟩,
  ⟨0x6000, 0x6000, 0x17, 0x17, .u32, .ro, 0, 0, 4294967295, 0, 0, false, false, 1, 3, false⟩,
  ⟨0x6000, 0x6000, 0x18, 0x18, .u32, .ro, 0, 0, 4294967295, 0, 0, false, false, 1, 3, false⟩,
  ⟨0x6000, 0x6000, 0x19, 0x19, .u64, .ro, 0, 0, 18446744073709551615, 0, 0, false, false, 1, 3, false⟩,
  ⟨0x6000, 0x6000, 0x1a, 0x1a, .u8, .ro, 255, 0, 255, 0, 0, false, false, 1, 3, false⟩,
  ⟨0x6000, 0x6000, 0x1b, 0x1b, .u32, .ro, 0, 0, 4294967295, 0, 0, false, false, 1, 3, false⟩,
  ⟨0x6000, 0x6000, 0x1c, 0x1c, .u32, .ro, 0, 0, 4294967295, 0, 0, false, false, 1, 3, false⟩,
  ⟨0x6000, 0x6000, 0x1d, 0x1d, .u32, .ro, 0, 0, 4294967295, 0, 0, false, false, 1, 3, false⟩]

/-- Entries 6000 to 60FF, part 2. -/
def rowsTwin2 : List Row := [
  ⟨0x6000, 0x6000, 0x1e, 0x1e, .bool, .wo, 0, 0, 1, 0, 0, false, false, 1, 2, true⟩,
  ⟨0x6001, 0x6001, 0x1, 0x1, .u16, .ro, 0, 0, 65535, 0, 0, false, false, 1, 3, false⟩,
  ⟨0x6001, 0x6001, 0x2, 0x2, .u64, .ro, 18446744073709551615, 0, 18446744073709551615, 0, 0, false, false, 1, 3, false⟩,
  ⟨0x6001, 0x6001, 0x3, 0x3, .u8, .ro, 0, 0, 255, 0, 0, false, false, 1, 3, false⟩,
  ⟨0x6002, 0x6002, 0x1, 0x1, .u32, .ro, 0, 0, 4294967295, 0, 0, false, false, 1, 3, false⟩,
  ⟨0x6002, 0x6002, 0x2, 0x2, .u8, .ro, 0, 0, 255, 0, 0, false, false, 1, 3, false⟩,
  ⟨0x6002, 0x6002, 0x3, 0x3, .u8, .ro, 0, 0, 255, 0, 0, false, false, 1, 3, false⟩,
  ⟨0x6002, 0x6002, 0x4, 0x4, .u8, .ro, 0, 0, 255, 0, 0, false, false, 1, 3, false⟩,
  ⟨0x6002, 0x6002, 0x5, 0x5, .u64, .ro, 0, 0, 18446744073709551615, 0, 0, false, false, 1, 3, false⟩,
  ⟨0x6002, 0x6002, 0x6, 0x6, .u64, .ro, 18446744073709551615, 0, 18446744073709551615, 0, 0, false, false, 1, 3, false⟩,
  ⟨0x6002, 0x6002, 0x7, 0x7, .u8, .ro, 0, 0, 255, 0, 0, false, false, 1, 3, false⟩,
  ⟨0x6010, 0x601f, 0x1, 0x1, .u16, .rw, 64, 0, 65535, 0, 0, false, true, 1, 3, false⟩]

/-- Entries 6000 to 60FF (R403, R439). -/
def rowsTwin : List Row := rowsTwin1 ++ rowsTwin2

/-- Entries 7000 to 70FF, part 1. -/
def rowsRods1 : List Row := [
  ⟨0x7000, 0x7000, 0x1, 0x1, .u8, .ro, 127, 0, 255, 0, 0, false, false, 1, 3, false⟩,
  ⟨0x7000, 0x7000, 0x2, 0x2, .u8, .ro, 7, 0, 255, 0, 0, false, false, 1, 3, false⟩,
  ⟨0x7000, 0x7000, 0x3, 0x3, .u8, .rwa, 255, 0, 255, 0, 0, false, false, 1, 3, false⟩,
  ⟨0x7000, 0x7000, 0x4, 0x4, .u8, .ro, 0, 0, 255, 0, 0, false, false, 1, 3, false⟩,
  ⟨0x7000, 0x7000, 0x5, 0x5, .u32, .ro, 0, 0, 4294967295, 0, 0, false, false, 1, 3, false⟩,
  ⟨0x7000, 0x7000, 0x6, 0x6, .u8, .rw, 2, 0, 2, 0, 0, false, true, 1, 3, false⟩,
  ⟨0x7000, 0x7000, 0x7, 0x7, .u8, .ro, 49, 0, 255, 0, 0, false, false, 1, 3, false⟩,
  ⟨0x7000, 0x7000, 0x8, 0x8, .u8, .ro, 7, 0, 255, 0, 0, false, false, 1, 3, false⟩,
  ⟨0x7010, 0x7017, 0x1, 0x1, .u8, .ro, 0, 0, 255, 0, 0, false, false, 1, 3, false⟩,
  ⟨0x7010, 0x7017, 0x2, 0x2, .bool, .wo, 0, 0, 1, 0, 0, false, false, 1, 3, false⟩,
  ⟨0x7010, 0x7017, 0x3, 0x3, .u8, .ro, 0, 0, 255, 0, 0, false, false, 1, 3, false⟩,
  ⟨0x7040, 0x707f, 0x1, 0x1, .u8, .ro, 0, 0, 255, 0, 0, false, false, 1, 3, false⟩,
  ⟨0x7040, 0x707f, 0x2, 0x2, .u8, .ro, 0, 0, 255, 0, 0, false, false, 1, 3, false⟩,
  ⟨0x7040, 0x707f, 0x3, 0x3, .bool, .ro, 0, 0, 1, 0, 0, false, false, 1, 3, false⟩,
  ⟨0x7040, 0x707f, 0x4, 0x4, .u32, .ro, 0, 0, 4294967295, 0, 0, false, false, 1, 3, false⟩,
  ⟨0x7040, 0x707f, 0x5, 0x5, .u16, .ro, 0, 0, 65535, 0, 0, false, false, 1, 3, false⟩,
  ⟨0x7040, 0x707f, 0x6, 0x6, .bool, .wo, 0, 0, 1, 0, 0, false, false, 1, 3, false⟩,
  ⟨0x7040, 0x707f, 0x7, 0x7, .u32, .ro, 0, 0, 4294967295, 0, 0, false, false, 1, 3, false⟩,
  ⟨0x7080, 0x708f, 0x1, 0x1, .dom, .rw, 0, 0, 0, 67108864, 0, true, false, 1, 3, false⟩,
  ⟨0x7080, 0x708f, 0x2, 0x2, .bool, .rwa, 0, 0, 1, 0, 0, true, false, 1, 3, false⟩,
  ⟨0x7080, 0x708f, 0x3, 0x3, .u8, .ro, 0, 0, 255, 0, 0, false, false, 1, 3, false⟩,
  ⟨0x7080, 0x708f, 0x4, 0x4, .u8, .ro, 255, 0, 255, 0, 0, false, false, 1, 3, false⟩,
  ⟨0x7080, 0x708f, 0x5, 0x5, .u32, .ro, 0, 0, 4294967295, 0, 0, false, false, 1, 3, false⟩,
  ⟨0x7080, 0x708f, 0x6, 0x6, .u32, .ro, 0, 0, 4294967295, 0, 0, false, false, 1, 3, false⟩]

/-- Entries 7000 to 70FF, part 2. -/
def rowsRods2 : List Row := [
  ⟨0x7080, 0x708f, 0x7, 0x7, .u32, .ro, 0, 0, 4294967295, 0, 0, false, false, 1, 3, false⟩,
  ⟨0x7080, 0x708f, 0x8, 0x8, .u32, .ro, 0, 0, 4294967295, 0, 0, false, false, 1, 3, false⟩,
  ⟨0x7080, 0x708f, 0x9, 0x9, .u8, .ro, 0, 0, 255, 0, 0, false, false, 1, 3, false⟩,
  ⟨0x7080, 0x708f, 0x10, 0x17, .u16, .rw, 65535, 0, 65535, 0, 0, true, false, 1, 3, false⟩,
  ⟨0x7080, 0x708f, 0x18, 0x18, .u64, .ro, 0, 0, 18446744073709551615, 0, 0, false, false, 1, 3, false⟩,
  ⟨0x7080, 0x708f, 0x19, 0x19, .u64, .ro, 0, 0, 18446744073709551615, 0, 0, false, false, 1, 3, false⟩,
  ⟨0x7080, 0x708f, 0x1a, 0x1a, .u64, .ro, 0, 0, 18446744073709551615, 0, 0, false, false, 1, 3, false⟩,
  ⟨0x7080, 0x708f, 0x1b, 0x1b, .dom, .ro, 0, 0, 0, 67108864, 0, false, false, 1, 3, false⟩,
  ⟨0x70c0, 0x70c0, 0x1, 0x1, .u16, .ro, 0, 0, 65535, 0, 0, false, false, 1, 3, false⟩,
  ⟨0x70c0, 0x70c0, 0x2, 0x2, .u16, .ro, 0, 0, 65535, 0, 0, false, false, 1, 3, false⟩,
  ⟨0x70c0, 0x70c0, 0x3, 0x3, .u32, .ro, 0, 0, 4294967295, 0, 0, false, false, 1, 3, false⟩,
  ⟨0x70c0, 0x70c0, 0x4, 0x4, .u32, .ro, 0, 0, 4294967295, 0, 0, false, false, 1, 3, false⟩,
  ⟨0x70c0, 0x70c0, 0x5, 0x5, .u32, .ro, 0, 0, 4294967295, 0, 0, false, false, 1, 3, false⟩,
  ⟨0x70c0, 0x70c0, 0x6, 0x6, .u32, .ro, 0, 0, 4294967295, 0, 0, false, false, 1, 3, false⟩,
  ⟨0x70c0, 0x70c0, 0x7, 0x7, .u64, .ro, 0, 0, 18446744073709551615, 0, 0, false, false, 1, 3, false⟩,
  ⟨0x70c0, 0x70c0, 0x8, 0x8, .bool, .wo, 0, 0, 1, 0, 0, false, false, 1, 2, true⟩,
  ⟨0x70c0, 0x70c0, 0x10, 0x4f, .u16, .ro, 0, 0, 65535, 0, 0, false, false, 1, 3, false⟩,
  ⟨0x70c0, 0x70c0, 0x50, 0x8f, .u32, .ro, 2, 0, 4294967295, 0, 0, false, false, 1, 3, false⟩,
  ⟨0x70e0, 0x70e0, 0x1, 0x1, .u32, .ro, 0, 0, 4294967295, 0, 0, false, false, 1, 3, false⟩,
  ⟨0x70e0, 0x70e0, 0x2, 0x2, .u32, .ro, 0, 0, 4294967295, 0, 0, false, false, 1, 3, false⟩,
  ⟨0x70e0, 0x70e0, 0x3, 0x3, .u32, .ro, 0, 0, 4294967295, 0, 0, false, false, 1, 3, false⟩,
  ⟨0x70e0, 0x70e0, 0x4, 0x4, .u8, .ro, 255, 0, 255, 0, 0, false, false, 1, 3, false⟩,
  ⟨0x70e0, 0x70e0, 0x5, 0x5, .u64, .ro, 0, 0, 18446744073709551615, 0, 0, false, false, 1, 3, false⟩,
  ⟨0x70e1, 0x70e1, 0x1, 0x1, .dom, .ro, 0, 0, 0, 67108864, 0, false, false, 1, 3, false⟩]

/-- Entries 7000 to 70FF, part 3. -/
def rowsRods3 : List Row := [
  ⟨0x7020, 0x7031, 0x1, 0x1, .u8, .ro, 0, 0, 255, 0, 0, false, false, 1, 3, false⟩,
  ⟨0x7020, 0x7031, 0x2, 0x2, .bool, .rw, 0, 0, 1, 0, 0, false, true, 1, 3, false⟩]

/-- Entries 7000 to 70FF (R403, R439). -/
def rowsRods : List Row := rowsRods1 ++ rowsRods2 ++ rowsRods3

/-- Entries 7400 to 74FF, part 1. -/
def rowsMemory1 : List Row := [
  ⟨0x7400, 0x7400, 0x1, 0x1, .u32, .ro, 0, 0, 4294967295, 0, 0, false, false, 1, 3, false⟩,
  ⟨0x7400, 0x7400, 0x2, 0x2, .u32, .ro, 0, 0, 4294967295, 0, 0, false, false, 1, 3, false⟩,
  ⟨0x7400, 0x7400, 0x3, 0x3, .u32, .ro, 0, 0, 4294967295, 0, 0, false, false, 1, 3, false⟩,
  ⟨0x7400, 0x7400, 0x4, 0x4, .u16, .ro, 0, 0, 65535, 0, 0, false, false, 1, 3, false⟩,
  ⟨0x7400, 0x7400, 0x5, 0x5, .u8, .ro, 0, 0, 255, 0, 0, false, false, 1, 3, false⟩,
  ⟨0x7400, 0x7400, 0x6, 0x6, .u8, .ro, 16, 0, 255, 0, 0, false, false, 1, 3, false⟩,
  ⟨0x7400, 0x7400, 0x7, 0x7, .bool, .wo, 0, 0, 1, 0, 0, false, false, 1, 2, true⟩,
  ⟨0x7410, 0x7410, 0x1, 0x1, .u8, .ro, 0, 0, 255, 0, 0, false, false, 1, 3, false⟩,
  ⟨0x7410, 0x7410, 0x2, 0x2, .u8, .rw, 1, 1, 2, 0, 0, false, true, 1, 3, false⟩,
  ⟨0x7410, 0x7410, 0x3, 0x3, .u8, .rw, 8, 5, 11, 0, 0, false, true, 1, 3, false⟩,
  ⟨0x7410, 0x7410, 0x4, 0x4, .u8, .rw, 8, 1, 8, 0, 0, false, true, 1, 3, false⟩,
  ⟨0x7410, 0x7410, 0x5, 0x5, .u32, .rw, 0, 0, 4294967295, 0, 0, false, true, 1, 3, false⟩,
  ⟨0x7410, 0x7410, 0x6, 0x6, .u32, .rw, 3600, 600, 86400, 0, 0, false, true, 1, 3, false⟩,
  ⟨0x7410, 0x7410, 0x7, 0x7, .u8, .ro, 1, 0, 255, 0, 0, false, false, 1, 3, false⟩,
  ⟨0x7410, 0x7410, 0x8, 0x8, .u8, .ro, 0, 0, 255, 0, 0, false, false, 1, 3, false⟩,
  ⟨0x7410, 0x7410, 0x9, 0x9, .u32, .ro, 0, 0, 4294967295, 0, 0, false, false, 1, 3, false⟩,
  ⟨0x7410, 0x7410, 0xa, 0xa, .bool, .wo, 0, 0, 1, 0, 0, false, false, 1, 2, true⟩,
  ⟨0x7420, 0x7423, 0x1, 0x1, .u8, .ro, 0, 0, 255, 0, 0, false, false, 1, 3, false⟩,
  ⟨0x7420, 0x7423, 0x2, 0x2, .u8, .ro, 0, 0, 255, 0, 0, false, false, 1, 3, false⟩,
  ⟨0x7420, 0x7423, 0x3, 0x3, .u32, .ro, 0, 0, 4294967295, 0, 0, false, false, 1, 3, false⟩,
  ⟨0x7420, 0x7423, 0x4, 0x4, .u32, .ro, 0, 0, 4294967295, 0, 0, false, false, 1, 3, false⟩,
  ⟨0x7420, 0x7423, 0x5, 0x5, .u64, .ro, 0, 0, 18446744073709551615, 0, 0, false, false, 1, 3, false⟩,
  ⟨0x7420, 0x7423, 0x6, 0x6, .bool, .wo, 0, 0, 1, 0, 0, false, false, 1, 3, false⟩,
  ⟨0x7430, 0x7430, 0x1, 0x1, .u8, .ro, 0, 0, 255, 0, 0, false, false, 1, 3, false⟩]

/-- Entries 7400 to 74FF, part 2. -/
def rowsMemory2 : List Row := [
  ⟨0x7430, 0x7430, 0x2, 0x2, .u64, .ro, 0, 0, 18446744073709551615, 0, 0, false, false, 1, 3, false⟩,
  ⟨0x7430, 0x7430, 0x3, 0x3, .u8, .ro, 255, 0, 255, 0, 0, false, false, 1, 3, false⟩,
  ⟨0x7430, 0x7430, 0x4, 0x4, .u8, .ro, 255, 0, 255, 0, 0, false, false, 1, 3, false⟩,
  ⟨0x7430, 0x7430, 0x5, 0x5, .u64, .ro, 0, 0, 18446744073709551615, 0, 0, false, false, 1, 3, false⟩,
  ⟨0x7430, 0x7430, 0x6, 0x6, .u64, .ro, 0, 0, 18446744073709551615, 0, 0, false, false, 1, 3, false⟩,
  ⟨0x7440, 0x7440, 0x1, 0x1, .bool, .rw, 0, 0, 1, 0, 0, false, true, 1, 3, false⟩,
  ⟨0x7440, 0x7440, 0x2, 0x2, .u8, .ro, 0, 0, 255, 0, 0, false, false, 1, 3, false⟩,
  ⟨0x7440, 0x7440, 0x3, 0x3, .i16, .ro, 0, (-32768), 32767, 0, 0, false, false, 1, 3, false⟩,
  ⟨0x7440, 0x7440, 0x4, 0x4, .u16, .ro, 0, 0, 65535, 0, 0, false, false, 1, 3, false⟩,
  ⟨0x7440, 0x7440, 0x5, 0x5, .u16, .ro, 0, 0, 65535, 0, 0, false, false, 1, 3, false⟩,
  ⟨0x7440, 0x7440, 0x6, 0x6, .u16, .ro, 0, 0, 65535, 0, 0, false, false, 1, 3, false⟩,
  ⟨0x7440, 0x7440, 0x7, 0x7, .u16, .ro, 0, 0, 65535, 0, 0, false, false, 1, 3, false⟩,
  ⟨0x7440, 0x7440, 0x8, 0x8, .u16, .ro, 0, 0, 65535, 0, 0, false, false, 1, 3, false⟩,
  ⟨0x7440, 0x7440, 0x9, 0x9, .bool, .ro, 0, 0, 1, 0, 0, false, false, 1, 3, false⟩,
  ⟨0x7450, 0x7450, 0x1, 0x1, .u32, .rw, 8388608, 0, 4294967295, 0, 0, false, true, 1, 3, false⟩,
  ⟨0x7450, 0x7450, 0x2, 0x2, .bool, .rw, 0, 0, 1, 0, 0, false, true, 1, 3, false⟩,
  ⟨0x7450, 0x7450, 0x3, 0x3, .u16, .rw, 10, 1, 10000, 0, 0, false, true, 1, 3, false⟩]

/-- Entries 7400 to 74FF (R403, R439). -/
def rowsMemory : List Row := rowsMemory1 ++ rowsMemory2

/-- Entries 8000 to 80FF (R403, R439). -/
def rowsTest : List Row := [
  ⟨0x8000, 0x8000, 0x1, 0x1, .u32, .ro, 0, 0, 4294967295, 0, 0, false, false, 1, 3, false⟩,
  ⟨0x8000, 0x8000, 0x2, 0x2, .bool, .wo, 0, 0, 1, 0, 0, false, false, 1, 2, true⟩,
  ⟨0x8000, 0x8000, 0x3, 0x3, .u8, .ro, 0, 0, 255, 0, 0, false, false, 1, 3, false⟩,
  ⟨0x8000, 0x8000, 0x4, 0x4, .bool, .rw, 0, 0, 1, 0, 0, false, false, 1, 3, true⟩,
  ⟨0x8000, 0x8000, 0x5, 0x5, .u8, .ro, 0, 0, 255, 0, 0, false, false, 1, 3, false⟩,
  ⟨0x8000, 0x8000, 0x6, 0x6, .u64, .ro, 0, 0, 18446744073709551615, 0, 0, false, false, 1, 3, false⟩,
  ⟨0x8000, 0x8000, 0x7, 0x7, .u32, .ro, 0, 0, 4294967295, 0, 0, false, false, 1, 3, false⟩,
  ⟨0x8000, 0x8000, 0x8, 0x8, .u8, .ro, 0, 0, 255, 0, 0, false, false, 1, 3, false⟩,
  ⟨0x8000, 0x8000, 0x9, 0x9, .u16, .ro, 0, 0, 65535, 0, 0, false, false, 1, 3, false⟩,
  ⟨0x8000, 0x8000, 0xa, 0xa, .dom, .ro, 0, 0, 0, 67108864, 0, false, false, 1, 3, false⟩,
  ⟨0x8000, 0x8000, 0xb, 0xb, .dom, .ro, 0, 0, 0, 67108864, 0, false, false, 1, 3, false⟩,
  ⟨0x8000, 0x8000, 0xc, 0xc, .u8, .ro, 0, 0, 255, 0, 0, false, false, 1, 3, false⟩,
  ⟨0x8000, 0x8000, 0xd, 0xd, .bool, .ro, 0, 0, 1, 0, 0, false, false, 1, 3, false⟩,
  ⟨0x8020, 0x8020, 0x1, 0x1, .u16, .rw, 65535, 0, 65535, 0, 0, false, false, 1, 3, true⟩,
  ⟨0x8020, 0x8020, 0x2, 0x2, .bool, .wo, 0, 0, 1, 0, 0, false, false, 1, 3, true⟩,
  ⟨0x8020, 0x8020, 0x3, 0x3, .u8, .ro, 0, 0, 255, 0, 0, false, false, 1, 3, false⟩,
  ⟨0x8020, 0x8020, 0x4, 0x4, .u8, .ro, 0, 0, 255, 0, 0, false, false, 1, 3, false⟩,
  ⟨0x8020, 0x8020, 0x5, 0x5, .u32, .ro, 0, 0, 4294967295, 0, 0, false, false, 1, 3, false⟩,
  ⟨0x8020, 0x8020, 0x6, 0x6, .u64, .ro, 0, 0, 18446744073709551615, 0, 0, false, false, 1, 3, false⟩]

/-- Entries 9000 to 90FF (R403, R439). -/
def rowsLife : List Row := [
  ⟨0x9000, 0x9000, 0x1, 0x1, .u8, .ro, 0, 0, 255, 0, 0, false, false, 1, 4, true⟩,
  ⟨0x9000, 0x9000, 0x2, 0x2, .bool, .wo, 0, 0, 1, 0, 0, false, false, 3, 4, true⟩,
  ⟨0x9000, 0x9000, 0x3, 0x3, .bool, .wo, 0, 0, 1, 0, 0, false, false, 3, 4, true⟩,
  ⟨0x9000, 0x9000, 0x4, 0x4, .dom, .wo, 0, 0, 0, 96, 96, false, false, 3, 4, true⟩,
  ⟨0x9000, 0x9000, 0x5, 0x5, .dom, .wo, 0, 0, 0, 96, 96, false, false, 3, 4, true⟩,
  ⟨0x9000, 0x9000, 0x6, 0x6, .dom, .ro, 0, 0, 0, 67108864, 0, false, false, 3, 4, true⟩,
  ⟨0x9000, 0x9000, 0x7, 0x7, .u8, .ro, 0, 0, 255, 0, 0, false, false, 3, 4, true⟩,
  ⟨0x9010, 0x9010, 0x1, 0x4, .dom, .wo, 0, 0, 0, 32, 32, false, false, 3, 4, true⟩,
  ⟨0x9010, 0x9010, 0x10, 0x1f, .dom, .wo, 0, 0, 0, 32, 32, false, false, 3, 4, true⟩,
  ⟨0x9011, 0x9011, 0x1, 0x1, .dom, .ro, 0, 0, 0, 67108864, 0, false, false, 1, 4, true⟩,
  ⟨0x9011, 0x9011, 0x2, 0x2, .dom, .ro, 0, 0, 0, 67108864, 0, false, false, 3, 4, true⟩,
  ⟨0x9020, 0x9020, 0x1, 0x1, .dom, .rw, 0, 0, 0, 64, 64, false, true, 3, 4, true⟩,
  ⟨0x9020, 0x9020, 0x2, 0x2, .dom, .rw, 0, 0, 0, 64, 64, false, true, 3, 4, true⟩,
  ⟨0x9020, 0x9020, 0x3, 0x3, .dom, .rw, 0, 0, 0, 64, 64, false, true, 3, 4, true⟩,
  ⟨0x9030, 0x9030, 0x1, 0x1, .u8, .rw, 0, 0, 2, 0, 0, false, true, 3, 4, true⟩,
  ⟨0x9030, 0x9030, 0x2, 0x2, .u32, .rw, 0, 0, 4294967295, 0, 0, false, true, 3, 4, true⟩,
  ⟨0x9030, 0x9030, 0x3, 0x3, .bool, .rw, 1, 0, 1, 0, 0, false, true, 3, 4, true⟩]

/-- Entries A000 to A0FF (R403, R439). -/
def rowsStaging : List Row := [
  ⟨0xa000, 0xa000, 0x1, 0x1, .u8, .ro, 0, 0, 255, 0, 0, false, false, 1, 3, false⟩,
  ⟨0xa000, 0xa000, 0x2, 0x2, .dom, .wo, 0, 0, 0, 16777216, 0, false, false, 1, 3, true⟩,
  ⟨0xa000, 0xa000, 0x3, 0x3, .bool, .wo, 0, 0, 1, 0, 0, false, false, 1, 3, true⟩,
  ⟨0xa000, 0xa000, 0x4, 0x4, .bool, .rwa, 0, 0, 1, 0, 0, false, false, 1, 3, false⟩,
  ⟨0xa000, 0xa000, 0x5, 0x5, .bool, .wo, 0, 0, 1, 0, 0, false, false, 1, 3, true⟩,
  ⟨0xa000, 0xa000, 0x6, 0x6, .bool, .wo, 0, 0, 1, 0, 0, false, false, 1, 3, true⟩,
  ⟨0xa000, 0xa000, 0x7, 0x7, .u16, .rw, 3000, 600, 30000, 0, 0, false, true, 1, 3, false⟩,
  ⟨0xa000, 0xa000, 0x8, 0x8, .u32, .ro, 0, 0, 4294967295, 0, 0, false, false, 1, 3, false⟩,
  ⟨0xa000, 0xa000, 0x9, 0x9, .u32, .ro, 0, 0, 4294967295, 0, 0, false, false, 1, 3, false⟩,
  ⟨0xa000, 0xa000, 0xa, 0xa, .u16, .ro, 0, 0, 65535, 0, 0, false, false, 1, 3, false⟩,
  ⟨0xa000, 0xa000, 0xb, 0xb, .u16, .ro, 0, 0, 65535, 0, 0, false, false, 1, 3, false⟩,
  ⟨0xa000, 0xa000, 0xc, 0xc, .u8, .ro, 0, 0, 255, 0, 0, false, false, 1, 3, false⟩,
  ⟨0xa000, 0xa000, 0xd, 0xd, .u16, .rw, 600, 0, 3600, 0, 0, false, true, 1, 3, false⟩]

/-- Entries B000 to B0FF (R403, R439). -/
def rowsEvents : List Row := [
  ⟨0xb000, 0xb000, 0x1, 0xff, .u32, .rw, 0, 0, 4294967295, 0, 0, false, false, 1, 3, true⟩]

/-- Entries B100 to B1FF (R403, R439). -/
def rowsLog : List Row := [
  ⟨0xb100, 0xb100, 0x1, 0x1, .u32, .ro, 0, 0, 4294967295, 0, 0, false, false, 1, 2, false⟩,
  ⟨0xb100, 0xb100, 0x2, 0x2, .u32, .ro, 0, 0, 4294967295, 0, 0, false, false, 1, 2, false⟩,
  ⟨0xb100, 0xb100, 0x3, 0x3, .u32, .ro, 0, 0, 4294967295, 0, 0, false, false, 1, 2, false⟩,
  ⟨0xb100, 0xb100, 0x4, 0x4, .u32, .rw, 0, 0, 4294967295, 0, 0, false, false, 1, 2, true⟩,
  ⟨0xb100, 0xb100, 0x5, 0x5, .dom, .ro, 0, 0, 0, 67108864, 0, false, false, 1, 2, false⟩,
  ⟨0xb100, 0xb100, 0x6, 0x6, .bool, .wo, 0, 0, 1, 0, 0, false, false, 1, 2, true⟩,
  ⟨0xb100, 0xb100, 0x7, 0x7, .u32, .ro, 0, 0, 4294967295, 0, 0, false, false, 1, 2, false⟩,
  ⟨0xb100, 0xb100, 0x8, 0x8, .dom, .ro, 0, 0, 0, 67108864, 0, false, false, 1, 2, false⟩,
  ⟨0xb100, 0xb100, 0x9, 0x9, .bool, .wo, 0, 0, 1, 0, 0, false, false, 1, 2, true⟩]

/-- The rows whose indices share the high byte of an index (R439). -/
def rowsOf (index : Nat) : List Row :=
  match index / 256 with
  | 16 => rowsIdent
  | 17 => rowsRate
  | 32 => rowsTime
  | 33 => rowsPorts
  | 34 => rowsReceive
  | 35 => rowsTransmit
  | 36 => rowsAes
  | 48 => rowsObjects
  | 49 => rowsObjects
  | 52 => rowsFeeds
  | 53 => rowsFeeds
  | 56 => rowsPlacement
  | 64 => rowsCorrection
  | 65 => rowsCorrection
  | 68 => rowsDrift
  | 80 => rowsDrive
  | 96 => rowsTwin
  | 112 => rowsRods
  | 116 => rowsMemory
  | 128 => rowsTest
  | 144 => rowsLife
  | 160 => rowsStaging
  | 176 => rowsEvents
  | 177 => rowsLog
  | _ => []

/-- The row of an entry, none where R403 says that it does not exist. -/
def rowOf (index sub : Nat) : Option Row :=
  (rowsOf index).find? (fun r => decide (r.iLo ≤ index ∧ index ≤ r.iHi ∧ r.sLo ≤ sub ∧ sub ≤ r.sHi))

/-- Whether an index holds any entry. -/
def indexExists (index : Nat) : Bool :=
  (rowsOf index).any (fun r => decide (r.iLo ≤ index ∧ index ≤ r.iHi))

/-- Subindex 00: the highest subindex in use at an index (R403). -/
def highestSub (index : Nat) : Nat :=
  (rowsOf index).foldl (fun m r => if r.iLo ≤ index ∧ index ≤ r.iHi then max m r.sHi else m) 0

/-- The bytes a fixed-size type takes on FOL (R404); 0 for STRING and DOMAIN. -/
def Ty.size : Ty → Nat
  | .bool | .u8 | .i8 => 1
  | .u16 | .i16 => 2
  | .u32 | .i32 => 4
  | .u64 | .i64 => 8
  | .str | .dom => 0

/-- Whether a type is signed. -/
def Ty.signed : Ty → Bool
  | .i8 | .i16 | .i32 | .i64 => true
  | _ => false

/-- The number a bit pattern stands for under a type (R404). -/
def Ty.value (t : Ty) (pat : Nat) : Int :=
  if t.signed then toSigned (8 * t.size) pat else (pat : Int)

/-- The key of an entry in the tables of State. -/
def key (index sub : Nat) : Nat := index * 256 + sub

end Sys2Proof.Machine
end

