-- ==== Sys2Proof/Machine/State.lean ====
section
/-! DEFINITION. The state of the module as plain data: every register, buffer, counter, mode and ball that the spec gives
it, and the queue of waiting commands. Collections with many instances are sparse tables whose unlisted keys read as the
value named beside them. -/
namespace Sys2Proof.Machine

/-- Why a step stops. Safe: the machine stops where the spec gives no effect. -/
inductive Fault where
  /-- Raised by TICK_BOUNDARY alone, when the tick number has reached 2^64 − 1: R38 says tick numbers are 64-bit and do not
  wrap in service, and gives no effect for one that would. Safe. -/
  | tickExhausted
  deriving DecidableEq, Repr

/-- Why a command has no meaning. Safe. -/
inductive Refusal where
  /-- Raised by `exec` alone, for a command whose meaning is not written. Safe. -/
  | notModelled (mnemonic : String)
  deriving DecidableEq, Repr

/-- Module states (R475), in the order of their codes. -/
inductive ModState where
  | booting | startTest | ready | rendering | shutdownTest | halted | parked | failed | recovery
  deriving DecidableEq, Repr

/-- Time states (R59), in the order of the codes of 2010:01. -/
inductive TimeState where
  | free | acquiring | locked | holdover | rebaseConfirm | grandmaster
  deriving DecidableEq, Repr

/-- Twin roles (R444), in the order of their codes. -/
inductive Role where
  | off | solo | active | standby | isolated
  deriving DecidableEq, Repr

/-- Life-cycle states (R505), in the order of their codes. -/
inductive LifeState where
  | blank | provisioned | deployed | parked | opened | retired
  deriving DecidableEq, Repr

/-- Ring participation (R320), in the order of the codes of 2100:02. -/
inductive Partic where
  | outRing | joining | inRing
  deriving DecidableEq, Repr

/-- Supply, reset and temperature (R316, R477, R543): VIN in mV, internal power-good, brown-out, whether the module is in
reset, whether a thermal trip holds it there, the hottest die sensor in 0.1 °C, input power, and the three levels. -/
structure Power where
  vinMv    : Nat
  pgood    : Bool
  brownout : Bool
  inReset  : Bool
  tripHeld : Bool
  temp     : Int
  powerMw  : Nat
  warning  : Bool
  critical : Bool
  lowVin   : Bool
  deriving DecidableEq, Repr

/-- The clock (R16, R56, R57, R74, R75): tick number, ns since its boundary, the counter and Carry registers, the
snapshots, and the epoch offset with the one a decided rebase will bring. -/
structure Clock where
  tick       : Nat
  ofs        : Nat
  ns         : Word
  carry      : Word
  wrapPend   : Bool
  carryLost  : Bool
  snapNs     : Word
  snapCarry  : Word
  snapTickLo : Word
  snapTickHi : Word
  epoch      : Int
  epochPrev  : Int
  epochB     : Nat
  rebase     : Option (Int × Nat)
  deriving DecidableEq, Repr

/-- A master under BMCA (R85): its last Announce, when it was selected and how many Announces came since. -/
structure Master where
  ann    : Announce
  since  : Nat
  heard  : Nat
  window : Nat
  deriving DecidableEq, Repr

/-- A comparator of the time unit (R78 to R80). -/
structure Comparator where
  armed  : Bool
  extended : Bool
  target : Int
  late   : Bool
  deriving DecidableEq, Repr

/-- A pulse output (R96, R97): its comparator, start time and index of the next pulse, whether a pulse is in progress and
the local time of its end. -/
structure Pulse where
  cmp    : Comparator
  index  : Nat
  inProg : Bool
  endsAt : Int
  fired  : Bool
  deriving DecidableEq, Repr

/-- The time unit (R59 to R88): state, selected master, its last Announce on another port it may be taken from, the qualifying
master, servo terms in 10^−12, frequency history, the phase
term of the last step, mean path delays by port, the rebase confirmation, holdover bookkeeping, pulses, for each capture not read 1 where
no boundary has shown it yet and else 2 (R98, R408), whether the unit has been Locked since reset (R59), whether the announce receipt timeout has run since a master was last selected, the ticks at which the next
Announce of each port is due, and the Standby's last offset to the Active (R66). -/
structure TimeUnit where
  state     : TimeState
  qualified : Bool
  master    : Option Master
  other     : Option Announce
  cand      : Option Master
  await     : Bool
  setDone   : Bool
  freq      : Int
  phase     : Int
  target    : Int
  rate      : Int
  freqHist  : List Int
  mpd       : SMap (Option Nat)
  cons      : List Int
  decided   : Option (Int × Nat × Nat)
  holdTick  : Nat
  pulses    : SMap Pulse
  unread    : SMap Nat
  quiet     : Bool
  nextAnn   : SMap Nat
  twinOffs  : Option Int
  locked    : Bool
  deriving DecidableEq, Repr

/-- A network port (R306 to R309): block lock, mode tried or in operation (code of 2110+p:03), SFP status. -/
structure Port where
  lock    : Bool
  mode    : Nat
  trying  : Nat
  absent  : Bool
  fault   : Bool
  deriving DecidableEq, Repr

/-- The bypass (R316 to R320): BYP_CTRL, its dead-man over this and the last two ticks, the run of fed ticks,
participation with the time at which Joining ends. -/
structure Bypass where
  en      : Bool
  fedNow  : Bool
  fed1    : Bool
  fed2    : Bool
  fedRun  : Nat
  hold    : Bool
  cause   : Nat
  partic  : Partic
  settle  : Nat
  deriving DecidableEq, Repr

/-- A PTP frame that passed a ring port (R311, duplicate filter). -/
structure PtpSeen where
  port   : Nat
  source : Nat
  mtype  : Nat
  seqId  : Nat
  time   : Int
  deriving DecidableEq, Repr

/-- A copy taken by a receive slot (R335): its presentation tick or sequence number, TWIN bit, role, and whether a role
conflict was counted for it. -/
structure RxCopy where
  key      : Nat
  block    : Nat
  twin     : Nat
  primary  : Bool
  conflict : Bool
  deriving DecidableEq, Repr

/-- A shadow copy held until the cut-off (R335). -/
structure RxShadow where
  key     : Nat
  block   : Nat
  twin    : Nat
  payload : List Byte
  deriving DecidableEq, Repr

/-- A receive slot (R331 to R336): samples by absolute index and stream channel, copies, shadows, fades of its channels,
whether a slot underrun is going on. -/
structure RxSlot where
  buf    : SMap (Option Int)
  taken  : List RxCopy
  shadow : List RxShadow
  fades  : SMap FadeCh
  under  : Bool
  got    : Bool
  deriving DecidableEq, Repr

/-- A transmit slot (R339 to R344, R563): the fade of each channel, and of the slot after an egress miss. -/
structure TxSlot where
  fades : SMap FadeCh
  miss  : Fade
  deriving DecidableEq, Repr

/-- States of an AES3 input (codes of 2410+i:04). -/
inductive AesState where
  | off | noSignal | locking | locked | rateOut | nonAudio | recovering
  deriving DecidableEq, Repr

/-- One frame in the buffer of an AES3 input: index, arrival time, both samples, whether each is usable. -/
structure AesBuf where
  idx  : Nat
  time : Nat
  a    : Int
  b    : Int
  deriving DecidableEq, Repr

/-- An AES3 input (R350 to R363): lock state, phases newest first, lock values in force, frame buffer newest
first, samples of the grid by 2n + subframe with their errors (1 coding, 2 validity), errors of the running tick, values
waiting for their block and whether they are the module's own, the tick of the last decision of the ratio, frames in the rate window, last good samples, the bits of
the channel-status blocks with their validity bits and those of the last block stored (R354), non-audio bookkeeping, the local time
of the last valid preamble (R351), the event of the cause for which samples are missing and the one raised (R363, 0 none), and the
fades of both channels. -/
structure AesIn where
  state    : AesState
  phases   : List Int
  phi      : Int
  q        : Nat
  rho      : Nat
  nextIdx  : Nat
  frames   : List AesBuf
  grid     : SMap (Option Int)
  flags    : SMap Nat
  lastG    : Option Nat
  pending  : Option LockVals
  own      : Bool
  rhoNext  : Option (Nat × Nat)
  rhoAt    : Nat
  count    : Nat
  winTick  : Nat
  rate     : Nat
  goodA    : Int
  goodB    : Int
  errA     : Nat
  errB     : Nat
  valA     : Bool
  valB     : Bool
  csA      : List Bool
  csB      : List Bool
  usA      : List Bool
  usB      : List Bool
  vsA      : List Bool
  vsB      : List Bool
  validA   : List Byte
  validB   : List Byte
  inBlk    : Bool
  naFrames : Nat
  nonAudio : Bool
  lastAt   : Int
  cause    : Nat
  told     : Nat
  fadeA    : FadeCh
  fadeB    : FadeCh
  deriving DecidableEq, Repr

/-- A PDM input (R369 to R375): the newest bits first, decimator outputs newest first and their count since local time 0, the run of
equal bits with its value, whether a run reached 4,096 in the bits of the last tick, clean ticks, whether stuck and whether its event has been raised
(R363), and the fade. -/
structure PdmIn where
  bits   : List Bool
  outs   : List Int
  nOut   : Nat
  run    : Nat
  last   : Bool
  full   : Bool
  clean  : Nat
  stuck  : Bool
  told   : Bool
  fade   : FadeCh
  deriving DecidableEq, Repr

/-- Drive-channel states (R392), in the order of their codes. -/
inductive ChState where
  | idle | starting | running | stopping | holdOff | latched | railStop
  deriving DecidableEq, Repr

/-- A sense stream (R384, R385): its newest bits first, the outputs y[m], y[m−1], y[m−2], the run of equal bits, and
whether it is stuck or has had a clean tick. -/
structure Sense where
  bits  : List Bool
  y0    : Int
  y1    : Int
  y2    : Int
  run   : Nat
  last  : Bool
  dirty : Bool
  clean : Nat
  stuck : Bool
  deriving DecidableEq, Repr

/-- A drive channel (R382 to R398): state, mute and limiter gains, integrators, whether the last duty was clamped, the duty, whether
the outputs were low in the last period, both sense streams, an over-current in the running period, the run of limited
periods up to it, the reference (last sample of the tick before, this tick's block, the block handed over for the next), the source's
fade, the writes of the enable by the tick at whose start they take effect, the tick that ends the ramp of a stop, the ticks at which
clears of the latch take effect, the period that ends the hold-off, the retry being
judged, the last retry, the retry limit in force, the last shutdown, the fault ramp (asked for, running) and what the
meters gather. -/
structure Drive where
  st      : ChState
  gm      : Int
  gl      : Int
  s1      : Int
  s2      : Int
  s3      : Int
  clamped : Bool
  duty    : Nat
  low     : Bool
  v       : Sense
  i       : Sense
  oc      : Bool
  limRun  : Nat
  xPrev   : Int
  blk     : List Int
  next    : List Int
  fade    : FadeCh
  enables : List (Nat × Bool)
  stopEnd : Nat
  clears  : List Nat
  holdEnd : Nat
  retry   : Option Nat
  lastRetry : Option Nat
  retryLim : Nat
  lastShut : Option Nat
  shutReq : Bool
  rampSet : Bool
  ramp    : Bool
  fromHold : Bool
  vPeak   : Nat
  iPeak   : Nat
  leastGl : Int
  deriving DecidableEq, Repr

/-- A rail group (R391): sense stream, state, and the runs of periods below, above and back within the limits. -/
structure Rail where
  sense  : Sense
  state  : Nat
  below  : Nat
  above  : Nat
  back   : Nat
  vr     : Int
  least  : Option Int
  deriving DecidableEq, Repr

/-- A DOMAIN transfer in progress (R422, R423). -/
structure Transfer where
  index : Nat
  sub   : Nat
  total : Nat
  apply : Nat
  late  : Bool
  data  : List Byte
  time  : Int
  dead  : Bool
  deriving DecidableEq, Repr

/-- An FOL session (R415 to R420, R424). -/
structure Session where
  id      : Nat
  slot    : Nat
  level   : Nat
  port    : Nat
  addr    : Nat
  udp     : Nat
  opened  : Int
  segment : Nat
  notify  : Bool
  key     : List Byte
  seq     : Nat
  kept    : Option FolFrame
  nseq    : Nat
  fixed   : Option (Nat × Nat × List Byte)
  xfer    : Option Transfer
  lastAt  : Int
  reqs    : Nat
  window  : Int
  deriving DecidableEq, Repr

/-- The FOL service beside its sessions (R413, R418, R421, R425): the run of ticks with dropped frames, the local time at which the last byte
queued for forwarding leaves, IDENT frames answered in the present second. -/
structure Fol where
  sessions  : List Session
  dropNow   : Bool
  dropPort  : Nat
  dropRun   : Nat
  fwdEnd    : Int
  idents    : SMap Nat
  identSec  : Nat
  reqs      : Nat
  reqSec    : Nat
  deriving DecidableEq, Repr

/-- The digests of one block (R467). -/
structure Digests where
  block : Nat
  tx    : SMap Nat
  aes   : SMap Nat
  deriving DecidableEq, Repr

/-- The twin (R444 to R473): role and sync state, ACT_OUT with the tick and instant of its rise, whether the gate
of R380 has been open since the running carrier period began, ACT_IN, the dead-man over the running and
the last two ticks, the heartbeats heard for the running boundary and the next, what was silent at the boundary last judged, the
partner's last frame, the open marks, digests newest first, the mismatches at its own fault, and the join in progress: the Shared
writes applied while its image is awaited, the partner's sync state at the last boundary, and whether JOIN_FILL_END said in the
running tick that placement has not caught up. `cause1` holds while the pair is cut. -/
structure Twin where
  role      : Role
  sync      : Nat
  actOut    : Bool
  actRise   : Nat × Nat
  gateUp    : Bool
  actIn     : Bool
  fedNow    : Bool
  fed1      : Bool
  fed2      : Bool
  collision : Bool
  hbOut     : Bool
  hbEdge    : Bool
  hbNext    : Bool
  hbSeen    : Bool
  tlSeen    : Bool
  hbSil1    : Bool
  tlSil1    : Bool
  evalTick  : Nat
  frame     : Option HbFrame
  frameTick : Nat
  inService : Bool
  release   : Bool
  broken    : Bool
  marks     : List (Nat × Nat)
  digests   : List Digests
  ownFaults : List Nat
  handTick  : Option Nat
  cause1    : Bool
  soloRun   : Nat
  joinTick  : Nat
  joinLog   : List Pending
  partnerSync : Nat
  joinFails : Nat
  imageB    : Nat
  cutB      : Nat
  verified  : Nat
  behind    : Bool
  deriving DecidableEq, Repr

/-- One pair of the drift tracker (R177 to R181), with the band levels of its last valid window. -/
structure Pair where
  state   : Nat
  invalid : Nat
  acoustic : Int
  base    : Option Int
  bands   : List Int
  deriving DecidableEq, Repr

/-- One zone of the drift tracker (R180 to R183). -/
structure ZoneTrack where
  target  : Option (List Int)
  resp    : List Int
  gains   : List Int
  taps    : Option (List Int)
  valid   : Nat
  deriving DecidableEq, Repr

/-- The drift tracker (R177 to R188): σ and zone offsets in force with targets, and the tick of the last publication interval. -/
structure Drift where
  mode   : Nat
  modeTo : Nat
  sigma  : Int
  sigmaT : Int
  zoff   : SMap Int
  zoffT  : SMap Int
  pairs  : SMap Pair
  zones  : SMap ZoneTrack
  pub    : Option DriftPub
  pubAt  : Nat
  deriving DecidableEq, Repr

/-- The states of a Frame (R193), in the order of the codes of 7010+f:01. -/
inductive FrameState where
  | inService | spare | loading | retired | fenced
  deriving DecidableEq, Repr

/-- Rod execution states (ROD_STAT). -/
inductive RodState where
  | stopped | running | waiting | faulted
  deriving DecidableEq, Repr

/-- What a waiting Rod waits for: an item from a take list, room in a queue, or transfers (R216, R218, R219). `stall` is a
word that has not executed and will be issued again. -/
inductive RodWait where
  | take (list : Nat) (an : Nat)
  | put  (queue : Nat) (desc : List Byte)
  | xfers (most : Nat)
  | stall
  deriving DecidableEq, Repr

/-- A mover transfer of a Rod (R218): the bytes already moved, and whether it waits for the acknowledgement of a held PUT (R248). -/
structure Xfer where
  out  : Bool
  dm   : Nat
  far  : Nat
  len  : Nat
  at_  : Nat
  held : Bool
  waits : Bool
  deriving DecidableEq, Repr

/-- A work item in the Tally (R237 to R251): acceptance number, its 32 descriptor bytes, and whether it is released. -/
structure Item where
  num      : Nat
  queue    : Nat
  desc     : List Byte
  released : Bool
  deriving DecidableEq, Repr

/-- A repeat level: count, first and last word (R212, R213). -/
structure RepLevel where
  count : Nat
  first : Nat
  last  : Nat
  deriving DecidableEq, Repr

/-- A Rod (R200 to R222). `ending` counts the transfers that the end of its item still waits for (R217); `itemCyc` and `itemAt` hold its cycles and the local time
at the give of its item (R232); the `hz` fields hold
what the last two words wrote, for the stalls of R220; `errs` the wrong bits of its memories by window offset (R197). Vector lane l of Vn is key 8n + l of `v`; accumulator lanes likewise in `ac`; unlisted
registers are zero. -/
structure Rod where
  st      : RodState
  wait    : Option RodWait
  v       : SMap Word
  ac      : SMap (BitVec 72)
  ar      : SMap Word
  md      : SMap Word
  cl      : SMap (BitVec 19)
  cb      : SMap (BitVec 18)
  fa      : SMap (BitVec 40)
  reps    : List RepLevel
  ps      : Nat
  bsh     : Nat
  bxm     : Nat
  bxe     : Word
  aex     : Word
  sx      : BitVec 64
  si      : Word
  sc      : Word
  lnk     : BitVec 13
  cyc     : Word
  satf    : Bool
  pc      : Nat
  startPc : Nat
  code    : Nat
  fault   : Bool
  faultPc : Nat
  trapOp  : Nat
  corr    : Nat
  uncorr  : Bool
  errs    : SMap (Option Nat)
  xfers   : List Xfer
  item    : Option Item
  ending  : Option Nat
  itemCyc : Nat
  itemAt  : Int
  bytes   : Nat
  hzA1    : List Nat
  hzA2    : List Nat
  hzAr    : List Nat
  hzSr    : Bool
  health  : Bool
  faults  : List Nat
  fenced  : Bool
  retired : Bool
  slot    : Option Nat
  deriving DecidableEq, Repr

/-- A rotation in progress (R225): Frame rotated out, Frame rotated in, 1 loading, 2 loaded and waiting for the switch, 3
moving user slots, its apply tick, and whether the relieved Frame retires. -/
structure Rotation where
  old    : Nat
  new    : Nat
  phase  : Nat
  block  : Nat
  retire : Bool
  deriving DecidableEq, Repr

/-- A user slot (R228 to R232): whether an item was placed for the block now due, and the ranges of that block's output written so far
(R230). -/
structure UserSlot where
  image  : Option SlotImage
  state  : Nat
  rod    : Option Nat
  ovs    : List Nat
  fades  : SMap FadeCh
  report : List Byte
  due    : Bool
  got    : List (Nat × Nat)
  from_  : Nat
  deriving DecidableEq, Repr

/-- A producer held by back-pressure (R248): a Rod (below 64) or a Beam master (64 + m), with its descriptor. -/
structure Producer where
  who  : Nat
  desc : List Byte
  long : Bool
  deriving DecidableEq, Repr

/-- A Tally queue (R234): its QCFG, items oldest first, held producers in order of arrival. -/
structure Queue where
  cfg   : Word
  items : List Item
  held  : List Producer
  deriving DecidableEq, Repr

/-- A flow (R245): the writable bits of FLOW_n. -/
structure Flow where
  pinRod : Nat
  pinned : Bool
  hold   : Bool
  deriving DecidableEq, Repr

/-- The Tally (R234 to R252). `rr` holds, for Frame port and class, the queue last served; `takeRot` the Frame port last
given an item. -/
structure Tally where
  queues  : SMap Queue
  flows   : SMap Flow
  lists   : SMap (BitVec 64)
  excl    : BitVec 64
  rr      : SMap Nat
  takeRot : Nat
  nextNum : Nat
  deriving DecidableEq, Repr

/-- A Beam request waiting for its grant (R257): with the arbitrations it has lost, and whether the DRAM controller has admitted it as
a deep-line read (R263). -/
structure Waiting where
  req      : BeamReq
  lost     : Nat
  admitted : Bool
  deriving DecidableEq, Repr

/-- The Beam (R253 to R261). Key 24m + t of `pri` holds the priority of master m at target t where it differs from
reset; `rr` the master last granted at a target, `rrDeep` the one last granted a deep-line read there (R263); `grants` the grants at a target since its last aged one. -/
structure Beam where
  pri     : SMap Nat
  lockTo  : Nat
  errAddr : Nat
  errMas  : Nat
  errCau  : Nat
  errVal  : Bool
  waiting : List Waiting
  rr      : SMap Nat
  rrDeep  : SMap Nat
  grants  : SMap Nat
  locks   : SMap (Nat × Nat)
  deriving DecidableEq, Repr

/-- The Ledger's error state (R270 to R275): words with a wrong bit (the bit) or uncorrectable (64), the correction queue,
lines remapped to spares by bank, the line whose repair waits for its second slot, the last pass's corrections, the
scrub position, banks counted without spares, lines whose repair waits for the next pass: a write has abandoned it, or its bank was
busy with another. -/
structure Ledger where
  errs    : SMap (Option Nat)
  queue   : List Nat
  remap   : SMap Nat
  repair  : SMap Nat
  last    : List (Nat × Nat)
  this    : List (Nat × Nat)
  line    : Nat
  retry   : List Nat
  noSpare : List Nat
  failed  : List Nat
  ready   : Bool
  deriving DecidableEq, Repr

/-- Rank states (codes of 7420+p:01). -/
inductive RankState where
  | inService | spareReady | spareTesting | migFrom | migTo | retired | failed
  deriving DecidableEq, Repr

/-- A DRAM rank (R277 to R299): state, slot served, corrected-error ticks within the last 3,600 s. -/
structure Rank where
  state : RankState
  slot  : Option Nat
  corr  : List Nat
  drift : Nat
  deriving DecidableEq, Repr

/-- The training record (R284, R287): identity registers, temperature and rails at training, format, whether it is stale, the margins of
R285, and the trained delays and references. -/
structure Training where
  ids      : List Nat
  temp     : Int
  railCore : Nat
  railIo   : Nat
  format   : Nat
  stale    : Bool
  readEye  : Nat
  writeEye : Nat
  refWin   : Nat
  cmdEye   : Nat
  delays   : List Nat
  refs     : List Nat
  deriving DecidableEq, Repr

/-- A migration (R295 to R299): source, target, slot, units copied, start, and what the source still holds in the units copied where
the target differs by now: wrong bits, poisoned blocks, and bytes that writes to the target alone have replaced. -/
structure Migration where
  source : Nat
  target : Nat
  slot   : Nat
  copied : Nat
  start  : Nat
  saved  : SMap (Option Nat)
  kept   : List Nat
  lost   : List Host.Cell
  deriving DecidableEq, Repr

/-- The DRAM (R277 to R304): state code of 7410:01, ranks, wrong bits, poisoned blocks, refresh debt, migration and the
trigger that waits for its boundary, patrol position, retained eighths while Parked, the local time of the last request (R301),
triggers met out of service (R299), the row open in each bank of each rank (key by rank, sub-channel and bank; R290), the tick at
which the spare's last test began (R293), the copy of the training record in the retained store (R287), the coefficient banks
whose slots are to be rewritten (R282), the neighbour refreshes counted and their number at the last boundary (7410:09), and the bank
that the next per-bank refresh takes (R288). -/
structure Dram where
  state   : Nat
  ranks   : SMap Rank
  errs    : SMap (Option Nat)
  poison  : List Nat
  wback   : List Nat
  debt    : Nat
  mig     : Option Migration
  trigger : Option Nat
  patrol  : Nat
  training : Option Training
  noSpare : List Nat
  retained : Nat
  hoDram  : Bool
  lastReq : Int
  late    : List (Nat × Bool)
  rows    : SMap Nat
  testAt  : Nat
  retTrain : Option Training
  rewrite : List Nat
  neigh   : Nat
  neighB  : Nat
  refBank : Nat
  deriving DecidableEq, Repr

/-- States of a Slide engine (codes of 7020+i:01). -/
inductive SlideState where
  | inService | spare | retired | fenced
  deriving DecidableEq, Repr

/-- A span in an engine's prefetch buffer (R140): its crosspoint, its first sample number and its samples as the line delivered
them. -/
structure Span where
  object : Nat
  feed   : Nat
  lo     : Int
  data   : List Int
  deriving DecidableEq, Repr

/-- A Slide engine (R49, R132, R140): its state, the crosspoints of its feeds in processing order, how many it has
rendered, the spans issued, those delivered and not rendered yet, those that the feed in work has taken, and the feed it is stalled
on. -/
structure Slide where
  st     : SlideState
  order  : List (Nat × Nat)
  done   : Nat
  issued : Nat
  have_  : List Span
  used   : List Span
  stall  : Option Nat
  deriving DecidableEq, Repr

/-- A self-test record (R490): fields before the units, unit entries, seal. -/
structure Record where
  format   : Nat
  kind     : Nat
  state    : Nat
  uid      : Nat
  seq      : Nat
  start    : Nat
  duration : Nat
  tempMin  : Int
  tempMax  : Int
  vinMin   : Nat
  vcore    : Nat
  patterns : Nat
  stuckAt  : Nat
  transition : Nat
  finalSig : Nat
  expected : Nat
  result   : Nat
  units    : List UnitResult
  sealed   : List Byte
  deriving DecidableEq, Repr

/-- An event record (R556). -/
structure EvRec where
  seq    : Nat
  time   : Int
  tick   : Nat
  source : Nat
  clear  : Bool
  boot   : Bool
  count  : Nat
  arg0   : Nat
  arg1   : Nat
  logged : Bool
  sent   : Bool
  deriving DecidableEq, Repr

/-- An event source (R550 to R553, R565): LATCHED, the instances in the condition, COUNT, whether it was raised in this
tick, whether a clear of LATCHED waits for the next boundary. Its mask is in non-volatile storage. -/
structure EvSrc where
  latched : Bool
  active  : List Nat
  count   : Nat
  raised  : Bool
  clearReq : Bool
  deriving DecidableEq, Repr

/-- The event system (R548 to R561). -/
structure Events where
  srcs    : SMap EvSrc
  now     : List EvRec
  log     : List EvRec
  nextSeq : Nat
  dropped : Nat
  readSeq : Nat
  copyAt  : Option Int
  copyDue : Bool
  evtLow  : Bool
  ackReq  : Bool
  clrReq  : Bool
  deriving DecidableEq, Repr

/-- What outlives a reset (R20, R479): NV entries, images, records, training record, Ledger remap, slot-to-rank map, fence
list, stored event records, drift baseline, event masks, latency terms by port and mode, Slide engines retired, boot attempts
of the Trial image, and whether the image booted before was given up (R480). -/
structure NonVol where
  dict    : SMap Nat
  dom     : SMap (List Byte)
  imgA    : Option ImageInfo
  imgB    : Option ImageInfo
  recs    : List Record
  train   : Option Training
  library : List Host.Cell
  remap   : SMap Nat
  ranks   : SMap Rank
  fences  : List Nat
  stored  : List EvRec
  pairs   : SMap (Option Int)
  zones   : SMap (Option (List Int))
  masks   : SMap Nat
  lat     : SMap (List Int)
  slides  : List Nat
  attempts : Nat
  fellBack : Bool
  deriving DecidableEq, Repr

/-- The key store and life cycle (R505 to R514): keys, roots written since the last erasure (R508), the retirement fuse; the
nonce of 9000:06 by the number of its draw. -/
structure KeyStore where
  life     : LifeState
  level    : SMap (List Byte)
  show_    : SMap (List Byte)
  record   : Option (List Byte)
  identity : Option (List Byte)
  roots    : List Nat
  fuse     : Bool
  pendErase : Option LifeState
  erasures : Nat
  nonceNo  : Nat
  deriving DecidableEq, Repr

/-- The update machinery (R517 to R521). -/
structure Update where
  stage    : Nat
  image    : Option ImageInfo
  intoB    : Bool
  switchAt : Option Nat
  loading  : Bool
  loaded   : Bool
  startX   : Nat
  frames   : List Nat
  doneAt   : Option Nat
  reverting : Bool
  deriving DecidableEq, Repr

/-- A targeted test accepted or running (R498 to R500): its unit, what it finds, the length of its exclusion, the tick at whose
boundary the exclusion starts, and whether the unit is out of service. -/
structure Targeted where
  unit   : Nat
  result : UnitResult
  ns     : Nat
  start  : Nat
  begun  : Bool
  deriving DecidableEq, Repr

/-- The supervisor (R475 to R504): module state, image running, start data, Reckoner pairs usable, fences, the shutdown
self-test that runs with its start tick and step, the targeted test. -/
structure Super where
  mod      : ModState
  imgB     : Bool
  image    : Option ImageInfo
  startMs  : Nat
  startKind : Nat
  recState : Nat
  fences   : List Nat
  pairA    : Bool
  pairB    : Bool
  servingB : Bool
  lockErr  : Bool
  test     : Option (TestObs × Nat)
  testStep : Nat
  targ     : Option Targeted
  targState : Nat
  targOut  : Nat
  targNs   : Nat
  targSig  : Nat
  library  : Bool
  sinceMs  : Nat
  sinceT   : Nat
  bootMode : Bool
  testEn   : Bool
  twinId   : Nat
  health   : Nat
  deriving DecidableEq, Repr

/-- Effects that wait for the next tick boundary (R54, R148, R176, R268, R305, R347, R402, R442, R474, R547, R561). -/
structure Todo where
  misses   : Bool
  place    : Bool
  meters   : List Nat
  tally    : Bool
  rxStats  : List Nat
  rails    : List Nat
  twin     : Bool
  fol      : Bool
  ledger   : Bool
  dram     : Bool
  mgmtAddr : Option Nat
  mgmtMask : Option Nat
  gpioDir  : Option Nat
  gpioOut  : Option Nat
  deriving DecidableEq, Repr

/-- The headers of a stream packet that the module sends (R331, R342, R346, R347): source and destination IPv4 address, UDP port, TTL,
DSCP and VLAN, 0xFFFF untagged. -/
structure StreamHdr where
  srcIp   : Nat
  dstIp   : Nat
  dstPort : Nat
  ttl     : Nat
  dscp    : Nat
  vlan    : Nat
  deriving DecidableEq, Repr

/-- Frames that the module puts on its ports, and the data of Beam reads that masters receive. A PTP event message that the module
originates carries its domain and carrier, and over UDP the UDP length, which covers two compensation octets (R60, R71, R73). -/
inductive OutFrame where
  | beamData  (master addr : Nat) (data : List Byte)
  | stream    (port slot block : Nat) (hdr : StreamHdr) (payload : List Byte)
  | rtp       (port slot block : Nat) (hdr : StreamHdr) (payload : List Byte)
  | ptp       (port : Nat) (kind : PtpKind) (domain : Nat) (carrier : PtpCarrier) (udpLen : Nat) (stamp : Int)
  | pdelay    (port domain : Nat) (carrier : PtpCarrier) (udpLen : Nat) (turnaround : Int)
  | delayResp (port domain : Nat) (receipt : Int) (corr : Int)
  | transit   (port : Nat) (corr : Int) (comp zeroSum : Bool)
  | ring      (port : Nat) (frame : RingFrame) (badFcs : Bool)
  | deliver   (frame : RingFrame)
  | heartbeat (frame : HbFrame) (payload : List Byte)
  | fol       (port : Nat) (addr : Nat) (frame : FolFrame)
  | forward   (fwd : Forward)
  | verdict   (keyT code : Nat)
  | drift     (pub : DriftPub)
  | aesLock   (input : Nat) (vals : LockVals)
  | aesRho    (input block rho : Nat)
  | rebase    (epoch : Int) (block : Nat)
  | announce  (msg : Announce)
  | arpReply  (port mac addr : Nat)
  | echoReply (port mac addr : Nat)
  | joinImage (image : JoinImage)
  | joinCut   (cut : JoinCut)
  deriving DecidableEq, Repr

/-- The render pipeline (R33 to R45): object and feed state, crosspoints (`xnext`, those that a join has installed for the block whose
list was already published), the buffers that the stages hand over, misses of
the running tick and the stages judged in it, the block that ingress committed in it, the short history of port inputs and
published feeds (newest first), the feeds rendered for the block before, the keyframes that left `arrivals` while a join awaits
its image, the blocks handed to the AES3 transmitters and presented by them, and the channels that were silent
at the last boundary (1100:0C). -/
structure Pipe where
  objs     : SMap Obj
  arrivals : List KfArrival
  drained  : List KfArrival
  xprev    : List Crosspoint
  xcur     : List Crosspoint
  xnext    : Option (List Crosspoint)
  published : Bool
  prevT    : Option Int
  feeds    : SMap FeedSt
  rendered : SMap (List Int)
  fed      : SMap (List Int)
  fedPrev  : SMap (List Int)
  outNow   : SMap (List Int)
  pubs     : List (SMap (List Int))
  inputs   : List (SMap (List Int))
  missDm   : List Nat
  missOb   : List Nat
  missUser : List Nat
  judgedOb : Bool
  judgedDm : Bool
  judgedPl : Bool
  judgedEg : Bool
  inMiss   : SMap Fade
  silent   : List Nat
  engines  : SMap Slide
  rendering : Bool
  inNow    : Option (SMap (List Int))
  aesNext  : SMap (List Int)
  aesAir   : SMap (List Int)
  userBlk  : List (SMap (List Int))
  deriving DecidableEq, Repr

/-- Counters and status entries as of the last tick boundary (R408): numbers and DOMAINs by entry. -/
structure StatusB where
  nums : SMap Nat
  doms : SMap (List Byte)
  deriving DecidableEq, Repr

/-- The state of the module. -/
structure State where
  power   : Power
  clk     : Clock
  time    : TimeUnit
  sup     : Super
  nv      : NonVol
  keys    : KeyStore
  upd     : Update
  dict    : SMap Nat
  dom     : SMap (List Byte)
  hist    : List (SMap Nat)
  domHist : List (SMap (List Byte))
  stat    : SMap Nat
  statB   : StatusB
  pend    : List Pending
  todo    : Todo
  pipe    : Pipe
  drift   : Drift
  ports   : SMap Port
  seen    : List PtpSeen
  byp     : Bypass
  rx      : SMap RxSlot
  tx      : SMap TxSlot
  aesIn   : SMap AesIn
  aesOut  : SMap FadeCh
  pdm     : SMap PdmIn
  drives  : SMap Drive
  rails   : SMap Rail
  carrier : Nat
  fol     : Fol
  twin    : Twin
  frames  : SMap FrameState
  rods    : SMap Rod
  slots   : SMap UserSlot
  rot     : Option Rotation
  moves   : SMap (Nat × Nat)
  tally   : Tally
  beam    : Beam
  ledger  : Ledger
  dram    : Dram
  mem     : List Host.Cell
  gpio    : Nat
  events  : Events
  draws   : Nat
  out     : List OutFrame
  pending : List Instr
  deriving DecidableEq, Repr

/-! The state of each part right after a reset: R3 (every output inert, every externally reaching function disabled), the
defaults of the entry tables (R20) and the reset columns of the registers. -/

/-- A channel that passes, with no block behind it. -/
def FadeCh.init : FadeCh where
  fade := .ok
  prev := []

/-- A channel whose next complete block takes the rising ramp (R44, R564). -/
def FadeCh.rising : FadeCh := FadeCh.mk (.silent 2) []

/-- An empty coefficient set. -/
def FilterSet.init : FilterSet where
  len   := 0
  parts := []

/-- An Empty bank (R174). -/
def Bank.init : Bank where
  state := .empty
  taps  := []
  set   := FilterSet.init

/-- The correction of a feed after reset: no bank, disabled, Idle. -/
def Corr.init : Corr where
  bank0    := Bank.init
  bank1    := Bank.init
  cur      := FilterSet.init
  fdl      := []
  enabled  := false
  selected := Option.none
  trim     := Option.none
  newTrim  := Option.none
  named    := 0
  free     := 0
  running  := Option.none
  waiting  := []
  excluded := false
  told     := false
  zone     := 0

/-- A feed after reset: no previous signed gain (R55: it is that of the first block), limiter gain 2^31 (R55). -/
def FeedSt.init : FeedSt where
  gPrev  := Option.none
  bq     := []
  align  := []
  alignA := 0
  x3prev := []
  corr   := Corr.init
  limG   := 2 ^ 31
  dm     := FadeCh.init
  ob     := FadeCh.init

/-- A biquad section at rest. -/
def Biquad.init : Biquad where
  x1 := 0
  x2 := 0
  y1 := 0
  y2 := 0

/-- An unplaced object (R110). -/
def Obj.init : Obj where
  placed  := false
  law     := 0
  zones   := 0
  anchorT := 0
  x       := 0
  y       := 0
  z       := 0
  gain    := 0
  spread  := 0
  lastTau := Option.none
  queue   := []
  pfade   := .ok
  pfadeB  := .ok
  pleave  := false
  pleaveB := false
  active  := 0

/-- No supply, module in reset; VIN, temperature and input power at the defaults of 1010:03 to 1010:05. -/
def Power.init : Power where
  vinMv    := 0
  pgood    := false
  brownout := false
  inReset  := true
  tripHeld := false
  temp     := 0
  powerMw  := 0
  warning  := false
  critical := false
  lowVin   := false

/-- The counter from 0 (R59), every time register 0. -/
def Clock.init : Clock where
  tick       := 0
  ofs        := 0
  ns         := 0
  carry      := 0
  wrapPend   := false
  carryLost  := false
  snapNs     := 0
  snapCarry  := 0
  snapTickLo := 0
  snapTickHi := 0
  epoch      := 0
  epochPrev  := 0
  epochB     := 0
  rebase     := Option.none

/-- An unarmed comparator. -/
def Comparator.init : Comparator where
  armed    := false
  extended := true
  target   := 0
  late     := false

/-- A pulse output that is off (R96). -/
def Pulse.init : Pulse where
  cmp    := Comparator.init
  index  := 0
  inProg := false
  endsAt := 0
  fired  := false

/-- The time unit in Free (R59). -/
def TimeUnit.init : TimeUnit where
  state     := .free
  qualified := false
  master    := Option.none
  other     := Option.none
  cand      := Option.none
  await     := false
  setDone   := false
  freq      := 0
  phase     := 0
  target    := 0
  rate      := 0
  freqHist  := []
  mpd       := []
  cons      := []
  decided   := Option.none
  holdTick  := 0
  pulses    := []
  unread    := []
  quiet     := false
  nextAnn   := []
  twinOffs  := Option.none
  locked    := false

/-- A port without lock (R308). -/
def Port.init : Port where
  lock   := false
  mode   := 0
  trying := 0
  absent := false
  fault  := false

/-- The bypass released (R3, R316). -/
def Bypass.init : Bypass where
  en     := false
  fedNow := false
  fed1   := false
  fed2   := false
  fedRun := 0
  hold   := false
  cause  := 0
  partic := .outRing
  settle := 0

/-- A receive slot that is off. -/
def RxSlot.init : RxSlot where
  buf    := []
  taken  := []
  shadow := []
  fades  := []
  under  := false
  got    := false

/-- A transmit slot that is off. -/
def TxSlot.init : TxSlot where
  fades := []
  miss  := .ok

/-- An AES3 input that is off. -/
def AesIn.init : AesIn where
  state    := .off
  phases   := []
  phi      := 0
  q        := 0
  rho      := 0
  nextIdx  := 0
  frames   := []
  grid     := []
  flags    := []
  lastG    := Option.none
  pending  := Option.none
  own      := false
  rhoNext  := Option.none
  rhoAt    := 0
  count    := 0
  winTick  := 0
  rate     := 0
  goodA    := 0
  goodB    := 0
  errA     := 0
  errB     := 0
  valA     := false
  valB     := false
  csA      := []
  csB      := []
  usA      := []
  usB      := []
  vsA      := []
  vsB      := []
  validA   := []
  validB   := []
  inBlk    := false
  naFrames := 0
  nonAudio := false
  lastAt   := 0
  cause    := 0
  told     := 0
  fadeA    := FadeCh.rising
  fadeB    := FadeCh.rising

/-- A PDM input that is off. -/
def PdmIn.init : PdmIn where
  bits  := []
  outs  := []
  nOut  := 0
  run   := 0
  last  := false
  full  := false
  clean := 0
  stuck := false
  told  := false
  fade  := FadeCh.rising

/-- A sense stream without bits. -/
def Sense.init : Sense where
  bits  := []
  y0    := 0
  y1    := 0
  y2    := 0
  run   := 0
  last  := false
  dirty := false
  clean := 0
  stuck := false

/-- An Idle drive channel: gm 0, limiter open, both outputs low (R3, R392). -/
def Drive.init : Drive where
  st        := .idle
  gm        := 0
  gl        := 2 ^ 31 - 1
  s1        := 0
  s2        := 0
  s3        := 0
  clamped   := false
  duty      := 0
  low       := true
  v         := Sense.init
  i         := Sense.init
  oc        := false
  limRun    := 0
  xPrev     := 0
  blk       := []
  next      := []
  fade      := FadeCh.init
  enables   := []
  stopEnd   := 0
  clears    := []
  holdEnd   := 0
  retry     := Option.none
  lastRetry := Option.none
  retryLim  := 0
  lastShut  := Option.none
  shutReq   := false
  rampSet   := false
  ramp      := false
  fromHold  := false
  vPeak     := 0
  iPeak     := 0
  leastGl   := 2 ^ 31 - 1

/-- A rail group in state 0 (R391). -/
def Rail.init : Rail where
  sense := Sense.init
  state := 0
  below := 0
  above := 0
  back  := 0
  vr    := 0
  least := Option.none

/-- No session. -/
def Fol.init : Fol where
  sessions := []
  dropNow  := false
  dropPort := 0
  dropRun  := 0
  fwdEnd   := 0
  idents   := []
  identSec := 0
  reqs     := 0
  reqSec   := 0

/-- The twin after reset: role Off, ACT_OUT low (R449), partner not in service. -/
def Twin.init : Twin where
  role        := .off
  sync        := 0
  actOut      := false
  actRise     := (0, 0)
  gateUp      := false
  actIn       := false
  fedNow      := false
  fed1        := false
  fed2        := false
  collision   := false
  hbOut       := false
  hbEdge      := false
  hbNext      := false
  hbSeen      := false
  tlSeen      := false
  hbSil1      := false
  tlSil1      := false
  evalTick    := 0
  frame       := Option.none
  frameTick   := 0
  inService   := false
  release     := false
  broken      := false
  marks       := []
  digests     := []
  ownFaults   := []
  handTick    := Option.none
  cause1      := false
  soloRun     := 0
  joinTick    := 0
  joinLog     := []
  partnerSync := 0
  joinFails   := 0
  imageB      := 0
  cutB        := 0
  verified    := 0
  behind      := false

/-- A pair without estimate. -/
def Pair.init : Pair where
  state    := 0
  invalid  := 0
  acoustic := 0
  base     := Option.none
  bands    := []

/-- A zone without baseline. -/
def ZoneTrack.init : ZoneTrack where
  target := Option.none
  resp   := []
  gains  := []
  taps   := Option.none
  valid  := 0

/-- Drift tracking off (R3), σ = 2^30, offsets 0. -/
def Drift.init : Drift where
  mode   := 0
  modeTo := 0
  sigma  := 2 ^ 30
  sigmaT := 2 ^ 30
  zoff   := []
  zoffT  := []
  pairs  := []
  zones  := []
  pub    := Option.none
  pubAt  := 0

/-- The drift tracker after a reset that finds a baseline in storage (R3, R181). -/
def Drift.kept (pairs : SMap (Option Int)) (zones : SMap (Option (List Int))) : Drift :=
  { Drift.init with
    pairs := pairs.map (fun e => (e.1, { Pair.init with base := e.2 })),
    zones := zones.map (fun e => (e.1, { ZoneTrack.init with target := e.2 })) }

/-- A Stopped Rod with every register at 0 (R200). -/
def Rod.init : Rod where
  st      := .stopped
  wait    := Option.none
  v       := []
  ac      := []
  ar      := []
  md      := []
  cl      := []
  cb      := []
  fa      := []
  reps    := []
  ps      := 0
  bsh     := 0
  bxm     := 0
  bxe     := 0
  aex     := 0
  sx      := 0
  si      := 0
  sc      := 0
  lnk     := 0
  cyc     := 0
  satf    := false
  pc      := 0
  startPc := 0
  code    := 0
  fault   := false
  faultPc := 0
  trapOp  := 0
  corr    := 0
  uncorr  := false
  errs    := []
  xfers   := []
  item    := Option.none
  ending  := Option.none
  itemCyc := 0
  itemAt  := 0
  bytes   := 0
  hzA1    := []
  hzA2    := []
  hzAr    := []
  hzSr    := false
  health  := false
  faults  := []
  fenced  := false
  retired := false
  slot    := Option.none

/-- An empty user slot. -/
def UserSlot.init : UserSlot where
  image  := Option.none
  state  := 0
  rod    := Option.none
  ovs    := []
  fades  := []
  report := []
  due    := false
  got    := []
  from_  := 0

/-- A Tally queue at reset: QCFG 2 (R234). -/
def Queue.init : Queue where
  cfg   := 2
  items := []
  held  := []

/-- A flow that is neither pinned nor held. -/
def Flow.init : Flow where
  pinRod := 0
  pinned := false
  hold   := false

/-- The Tally at reset. -/
def Tally.init : Tally where
  queues  := []
  flows   := []
  lists   := []
  excl    := 0
  rr      := []
  takeRot := 0
  nextNum := 0

/-- The Beam at reset: BEAM_LOCK_TO by R259. -/
def Beam.init : Beam where
  pri     := []
  lockTo  := 64
  errAddr := 0
  errMas  := 0
  errCau  := 0
  errVal  := false
  waiting := []
  rr      := []
  rrDeep  := []
  grants  := []
  locks   := []

/-- The Ledger before its initialisation (R276). -/
def Ledger.init : Ledger where
  errs    := []
  queue   := []
  remap   := []
  repair  := []
  last    := []
  this    := []
  line    := 0
  retry   := []
  noSpare := []
  failed  := []
  ready   := false

/-- Rank p at first start: ranks 0 to 2 serve slots 0 to 2, rank 3 is the spare (R277). -/
def Rank.atStart (p : Nat) : Rank :=
  if p < 3 then Rank.mk .inService (some p) [] 0 else Rank.mk .spareReady none [] 0

/-- A rank that no table lists. -/
def Rank.init : Rank := Rank.mk .failed none [] 0

/-- The DRAM off (7410:01 reads 0). -/
def Dram.init : Dram where
  state    := 0
  ranks    := []
  errs     := []
  poison   := []
  wback    := []
  debt     := 0
  mig      := Option.none
  trigger  := Option.none
  patrol   := 0
  training := Option.none
  noSpare  := []
  retained := 0
  hoDram   := false
  lastReq  := 0
  late     := []
  rows     := []
  testAt   := 0
  retTrain := Option.none
  rewrite  := []
  neigh    := 0
  neighB   := 0
  refBank  := 0

/-- A Slide engine in service. -/
def Slide.init : Slide where
  st     := .inService
  order  := []
  done   := 0
  issued := 0
  used   := []
  have_  := []
  stall  := Option.none

/-- An event source at reset (R551). -/
def EvSrc.init : EvSrc where
  latched  := false
  active   := []
  count    := 0
  raised   := false
  clearReq := false

/-- The event system at reset: the log empty (R561), SEQ from 1 (R556). -/
def Events.init : Events where
  srcs    := []
  now     := []
  log     := []
  nextSeq := 1
  dropped := 0
  readSeq := 0
  copyAt  := Option.none
  copyDue := false
  evtLow  := false
  ackReq  := false
  clrReq  := false

/-- Non-volatile storage as delivered: nothing written, and no image, record or baseline. -/
def NonVol.init : NonVol where
  dict     := []
  dom      := []
  imgA     := Option.none
  imgB     := Option.none
  recs     := []
  train    := Option.none
  library  := []
  remap    := []
  ranks    := [(0, Rank.atStart 0), (1, Rank.atStart 1), (2, Rank.atStart 2), (3, Rank.atStart 3)]
  fences   := []
  stored   := []
  pairs    := []
  zones    := []
  masks    := []
  lat      := []
  slides   := []
  attempts := 0
  fellBack := false

/-- The key store as delivered: Blank (R505). -/
def KeyStore.init : KeyStore where
  life      := .blank
  level     := []
  show_     := []
  record    := Option.none
  identity  := Option.none
  roots     := []
  fuse      := false
  pendErase := Option.none
  erasures  := 0
  nonceNo   := 0

/-- No update under way (A000:01 reads 0). -/
def Update.init : Update where
  stage     := 0
  image     := Option.none
  intoB     := false
  switchAt  := Option.none
  loading   := false
  loaded    := false
  startX    := 0
  frames    := []
  doneAt    := Option.none
  reverting := false

/-- The supervisor in Booting (R475). -/
def Super.init : Super where
  mod       := .booting
  imgB      := false
  image     := Option.none
  startMs   := 0
  startKind := 0
  recState  := 0
  fences    := []
  pairA     := true
  pairB     := true
  servingB  := false
  lockErr   := false
  test      := Option.none
  testStep  := 0
  targ      := Option.none
  targState := 0
  targOut   := 0
  targNs    := 0
  targSig   := 0
  library   := false
  sinceMs   := 0
  sinceT    := 0
  bootMode  := false
  testEn    := false
  twinId    := 0
  health    := 0

/-- Nothing waits for the next boundary. -/
def Todo.init : Todo where
  misses   := false
  place    := false
  meters   := []
  tally    := false
  rxStats  := []
  rails    := []
  twin     := false
  fol      := false
  ledger   := false
  dram     := false
  mgmtAddr := Option.none
  mgmtMask := Option.none
  gpioDir  := Option.none
  gpioOut  := Option.none

/-- The pipeline with zero history (R564). -/
def Pipe.init : Pipe where
  objs      := []
  arrivals  := []
  drained   := []
  xprev     := []
  xcur      := []
  xnext     := Option.none
  published := false
  prevT     := Option.none
  feeds     := []
  rendered  := []
  fed       := []
  fedPrev   := []
  outNow    := []
  pubs      := []
  inputs    := []
  missDm    := []
  missOb    := []
  missUser  := []
  judgedOb  := false
  judgedDm  := false
  judgedPl  := false
  judgedEg  := false
  inMiss    := []
  silent    := []
  engines   := []
  rendering := false
  inNow     := Option.none
  aesNext   := []
  aesAir    := []
  userBlk   := []

/-- The machine after a reset that finds `nv` and `keys` in storage and `power` on its balls (R3, R20): every entry not kept
in non-volatile storage has its default, also for the blocks before; the first draw is the nonce of 9000:06 (R511). -/
def State.afterReset (nv : NonVol) (keys : KeyStore) (power : Power) (draws : Nat) : State where
  power   := power
  clk     := Clock.init
  time    := TimeUnit.init
  sup     := { Super.init with fences := nv.fences }
  nv      := nv
  keys    := keys
  upd     := Update.init
  dict    := nv.dict
  dom     := nv.dom
  hist    := List.replicate 6 nv.dict
  domHist := List.replicate 6 nv.dom
  stat    := []
  statB   := StatusB.mk [] []
  pend    := []
  todo    := Todo.init
  pipe    := Pipe.init
  drift   := Drift.kept nv.pairs nv.zones
  ports   := []
  seen    := []
  byp     := Bypass.init
  rx      := []
  tx      := []
  aesIn   := []
  aesOut  := []
  pdm     := []
  drives  := []
  rails   := []
  carrier := 0
  fol     := Fol.init
  twin    := Twin.init
  frames  := [(7, .spare)]
  rods    := []
  slots   := []
  rot     := none
  moves   := []
  tally   := Tally.init
  beam    := Beam.init
  ledger  := Ledger.init
  dram    := Dram.init
  mem     := []
  gpio    := 0
  events  := Events.init
  draws   := draws
  out     := []
  pending := []

/-- The machine right after reset, with its storage as delivered. -/
def State.reset : State := State.afterReset NonVol.init KeyStore.init Power.init 1

end Sys2Proof.Machine
end

