-- ==== Sys2Proof/Machine/Ops.lean ====
section
/-! DEFINITION. The named operations that every family of commands shares: dictionary values and counters, memory, local and
network time, the counter's advance with its wrap, and raising events. -/
namespace Sys2Proof.Machine

/-! Dictionary values, counters and random draws -/

/-- The value of a numeric entry in a table of values in force; `d` is its default (R20). -/
def ent (m : SMap Nat) (d index sub : Nat) : Nat := mget d m (key index sub)

/-- The bytes of a STRING or DOMAIN entry, empty where never written. -/
def entBytes (m : SMap (List Byte)) (index sub : Nat) : List Byte := mget [] m (key index sub)

/-- The value in force for the block that ingress processes now (R408). -/
def State.val (s : State) (d index sub : Nat) : Nat := ent s.dict d index sub

/-- A BOOL entry in force. -/
def State.flag (s : State) (index sub : Nat) : Bool := s.val 0 index sub ≠ 0

/-- The dictionary in force for the block `n` ticks behind ingress (R39): 1 for placement, 2 for the output bus, 3 for
egress. -/
def State.dictAt (s : State) : Nat → SMap Nat
  | 0 => s.dict
  | n + 1 => s.hist.getD n s.dict

/-- STRING and DOMAIN values in force for the block `n` ticks behind ingress. -/
def State.domAt (s : State) : Nat → SMap (List Byte)
  | 0 => s.dom
  | n + 1 => s.domHist.getD n s.dom

/-- A status or counter entry as the module holds it now. -/
def State.stget (s : State) (d index sub : Nat) : Nat := mget d s.stat (key index sub)

/-- The module sets a status entry whose default is `d`. -/
def State.stset (s : State) (d index sub v : Nat) : State :=
  { s with stat := mset d s.stat (key index sub) v }

/-- A 32-bit counter entry increased by `n`, saturating at 2^32 − 1; DESIGN CHOICE (log 133) for 2010:0E, 2040+n:03 and 2040+n:04, of
which R99 does not say it. -/
def State.bump (s : State) (index sub n : Nat) : State :=
  { s with stat := mmod 0 s.stat (key index sub) (fun v => satAdd (2 ^ 32 - 1) v n) }

/-- The least and greatest subindex of counters cleared together. -/
def clearSubs (m : SMap Nat) (index lo hi : Nat) : SMap Nat :=
  m.filter (fun e => !(decide (key index lo ≤ e.1 ∧ e.1 ≤ key index hi)))

/-- A draw of the hardware random source, and the state that has used it. -/
def State.drawOf (s : State) : BitVec 256 := Config.draw s.draws

/-- The random source moves on by one draw. -/
def State.drawn (s : State) : State := { s with draws := s.draws + 1 }

/-- A refusal of a dictionary write: its abort code is the last code sent (R437), and nothing else changes. -/
def State.abort (s : State) (code : Nat) : State := s.stset 0 0x1020 0x0C code

/-- A frame put on a port. -/
def State.send (s : State) (f : OutFrame) : State := { s with out := s.out ++ [f] }

/-- Whether a port sends and takes frames: it has link, and a ring port does so only in state In; in Out and Joining the module sends
only idle and discards what it receives (R320). -/
def State.open (s : State) (p : Nat) : Bool :=
  (mget Port.init s.ports p).lock && (decide (2 ≤ p) || decide (s.byp.partic = .inRing))

/-- A frame sent on a port, and counted in its 2110+p:05 (R346); nothing leaves a port that is not open (R320). -/
def State.sendPort (s : State) (p : Nat) (f : OutFrame) : State :=
  if s.open p then (s.send f).bump (0x2110 + p) 0x05 1 else s

/-- A frame that a port received counted in its 2110+p:04 (R346). -/
def State.heard (s : State) (p : Nat) : State := s.bump (0x2110 + p) 0x04 1

/-! Abort codes of R436 -/

/-- No such index. -/
def Abort.noIndex : Nat := 0x00020001
/-- No such subindex. -/
def Abort.noSub : Nat := 0x00020002
/-- Access denied. -/
def Abort.denied : Nat := 0x00020003
/-- Read-only entry. -/
def Abort.readOnly : Nat := 0x00020004
/-- Write-only entry. -/
def Abort.writeOnly : Nat := 0x00020005
/-- Constant entry. -/
def Abort.constant : Nat := 0x00020006
/-- Secret not readable. -/
def Abort.secret : Nat := 0x00020007
/-- Length mismatch. -/
def Abort.length : Nat := 0x00030001
/-- Value out of range. -/
def Abort.range : Nat := 0x00030002
/-- Reserved bit set. -/
def Abort.reserved : Nat := 0x00030003
/-- Content invalid. -/
def Abort.content : Nat := 0x00030004
/-- State conflict. -/
def Abort.conflict : Nat := 0x00040001
/-- Busy. -/
def Abort.busy : Nat := 0x00040002
/-- Bank busy. -/
def Abort.bankBusy : Nat := 0x00040003
/-- Entry busy. -/
def Abort.entryBusy : Nat := 0x00040004
/-- Under test. -/
def Abort.underTest : Nat := 0x00040005
/-- Life-cycle state. -/
def Abort.lifeCycle : Nat := 0x00040006
/-- Capacity. -/
def Abort.capacity : Nat := 0x00040007
/-- Apply time not permitted. -/
def Abort.noApply : Nat := 0x00050001
/-- Too late. -/
def Abort.tooLate : Nat := 0x00050002
/-- Apply time out of range. -/
def Abort.applyRange : Nat := 0x00050003
/-- Length exceeds maximum. -/
def Abort.tooLong : Nat := 0x00060001
/-- Segment order. -/
def Abort.segOrder : Nat := 0x00060002
/-- Segment exceeds total. -/
def Abort.segTotal : Nat := 0x00060003
/-- Transfer incomplete. -/
def Abort.incomplete : Nat := 0x00060004
/-- Transfer timeout. -/
def Abort.timeout : Nat := 0x00060005
/-- Transfer aborted. -/
def Abort.aborted : Nat := 0x00060006
/-- Transfer in progress. -/
def Abort.inProgress : Nat := 0x00060007
/-- No staging. -/
def Abort.noStaging : Nat := 0x00060008
/-- Signature policy. -/
def Abort.signature : Nat := 0x00070001
/-- Credential refused. -/
def Abort.credential : Nat := 0x00070002
/-- Unknown operation. -/
def Abort.unknownOp : Nat := 0x00010001
/-- Malformed frame. -/
def Abort.malformed : Nat := 0x00010002
/-- Sequence error. -/
def Abort.sequence : Nat := 0x00010003
/-- Session unknown. -/
def Abort.noneSuch : Nat := 0x00010004
/-- No session. -/
def Abort.noSession : Nat := 0x00010005
/-- Level not available. -/
def Abort.noLevel : Nat := 0x00010006

/-- The ranges of indices whose writes a step of the shutdown self-test refuses (R486, R487). -/
def testRanges : Nat → List (Nat × Nat)
  | 1 | 2 | 4 => [(0x7000, 0x70FF)]
  | 3 => [(0x3000, 0x31FF), (0x3400, 0x35FF), (0x3800, 0x38FF)]
  | 5 => [(0x4000, 0x41FF), (0x7400, 0x74FF)]
  | 6 => [(0x7400, 0x74FF), (0xA000, 0xA0FF)]
  | 7 => [(0x2100, 0x24FF)]
  | 8 => [(0x2000, 0x20FF), (0x5000, 0x501F)]
  | _ => []

/-- Whether an entry belongs to a unit by its code (R491): a Rod, a Frame with its Rods, a Slide engine. -/
def unitEntry (unit index : Nat) : Bool :=
  if unit < 64 then decide (index = 0x7040 + unit)
  else if unit < 0x200 then decide (index = 0x7010 + (unit - 0x100) ∨ (index - 0x7040) / 8 + 0x100 = unit ∧ 0x7040 ≤ index)
  else decide (index = 0x7020 + (unit - 0x200))

/-- Whether the subsystem that owns an entry is under self-test (R438, R487, R498). -/
def State.underTest (s : State) (index : Nat) : Bool :=
  (testRanges s.sup.testStep).any (fun r => decide (r.1 ≤ index ∧ index ≤ r.2)) ||
    (match s.sup.targ with
     | some t => unitEntry t.unit index
     | none => false)

/-- Whether a unit is on the fence list (R28, R495): it produces no output until the next reset. -/
def State.fenced (s : State) (unit : Nat) : Bool := s.sup.fences.contains unit

/-- Whether a targeted test holds a unit out of service (R498 to R500). -/
def State.testing (s : State) (unit : Nat) : Bool :=
  match s.sup.targ with
  | some t => decide (t.unit = unit) && t.begun
  | none => false

/-- The ranges that a Parked module accepts writes to (R502). -/
def parkedRange (index : Nat) : Bool :=
  [(0x1000, 0x10FF), (0x8000, 0x80FF), (0x9000, 0x90FF), (0xB000, 0xB1FF)].any (fun r => decide (r.1 ≤ index ∧ index ≤ r.2))

/-- The refusal that the module's state gives to every write of an index: under test (R438), or Parked (R502). -/
def State.gate (s : State) (index : Nat) : Nat :=
  if s.underTest index then Abort.underTest
  else if s.sup.mod = .parked && !parkedRange index then Abort.conflict
  else 0

/-- A write to an entry of `index` under its check: with code 0, and where the module's state lets the index be written, it
takes effect; otherwise it is refused whole (R405, R430, R437). -/
def State.attempt (s : State) (index code : Nat) (eff : State → State) : State :=
  if code = 0 then (if s.gate index = 0 then eff s else s.abort (s.gate index)) else s.abort code

/-- The first failed check, in the order given (R437). -/
def firstCode : List Nat → Nat
  | [] => 0
  | c :: r => if c = 0 then firstCode r else c

/-- `code` where a check fails. -/
def need (ok : Bool) (code : Nat) : Nat := if ok then 0 else code

/-- The check of an instance number: R403 refuses an index that does not exist. -/
def indexOk (n count : Nat) : Nat := need (decide (n < count)) Abort.noIndex

/-- The check of a numeric value's range (R405). -/
def rangeOk (v : Int) (lo hi : Int) : Nat := need (decide (lo ≤ v ∧ v ≤ hi)) Abort.range

/-- The check of a BOOL (R404). -/
def boolOk (v : Nat) : Nat := need (decide (v ≤ 1)) Abort.range

/-- A numeric entry whose default is `d` gets the value `v` in force. -/
def State.put (s : State) (d index sub v : Nat) : State :=
  { s with dict := mset d s.dict (key index sub) v }

/-- A numeric entry kept in non-volatile storage gets the value `v` (R20). -/
def State.putNv (s : State) (d index sub v : Nat) : State :=
  { s with dict := mset d s.dict (key index sub) v,
           nv := { s.nv with dict := mset d s.nv.dict (key index sub) v } }

/-- A STRING or DOMAIN entry gets the bytes `b`. -/
def State.putBytes (s : State) (index sub : Nat) (b : List Byte) : State :=
  { s with dom := mset [] s.dom (key index sub) b }

/-- A STRING or DOMAIN entry kept in non-volatile storage gets the bytes `b` (R20). -/
def State.putBytesNv (s : State) (index sub : Nat) (b : List Byte) : State :=
  { s with dom := mset [] s.dom (key index sub) b,
           nv := { s.nv with dom := mset [] s.nv.dom (key index sub) b } }

/-! Memory -/

/-- A byte of memory reads 0 until something is written there. -/
def memByte (m : List Host.Cell) (a : Nat) : Byte := mget 0#8 m a

/-- A byte written. -/
def memSet (m : List Host.Cell) (a : Nat) (b : Byte) : List Host.Cell := mset 0#8 m a b

/-- The canonical form of memory: addresses strictly rising and no listed byte equal to what an unlisted one reads as. -/
def Memory.wf (m : List Host.Cell) : Bool := mwf 0#8 m

/-- `n` bytes from address `a`. -/
def memBytes (m : List Host.Cell) (a n : Nat) : List Byte := (List.range n).map (fun i => memByte m (a + i))

/-- Bytes written from address `a` on. -/
def memWrite (m : List Host.Cell) (a : Nat) : List Byte → List Host.Cell
  | [] => m
  | b :: r => memWrite (memSet m a b) (a + 1) r

/-- Bytes written from address `a` on where their strobe is set (R255). -/
def memStrobe (m : List Host.Cell) (a : Nat) : List Byte → List Bool → List Host.Cell
  | b :: r, true :: t => memStrobe (memSet m a b) (a + 1) r t
  | _ :: r, false :: t => memStrobe m (a + 1) r t
  | _, _ => m

/-- Memory without the bytes of an address range. -/
def memClear (m : List Host.Cell) (lo hi : Nat) : List Host.Cell :=
  m.filter (fun c => !(decide (lo ≤ c.1 ∧ c.1 < hi)))

/-- A little-endian 32-bit word of memory as a signed sample. -/
def memSample (m : List Host.Cell) (a : Nat) : Int := toSigned 32 (leNat (memBytes m a 4))

/-- A sample stored little-endian. -/
def memSample' (m : List Host.Cell) (a : Nat) (x : Int) : List Host.Cell := memWrite m a (leBytes 4 (toPat 32 x))

/-! Time -/

/-- Local time L by the rule of R76 and R77: (CARRY + WRAP_PEND) × 2^32 + counter. -/
def Clock.local (c : Clock) : Int :=
  ((c.carry.toNat + b2n c.wrapPend) % 2 ^ 32 : Nat) * 2 ^ 32 + (c.ns.toNat : Int)

/-- The epoch offset in force for a block (R57, R89). -/
def Clock.epochFor (c : Clock) (block : Nat) : Int :=
  match c.rebase with
  | some (e, b) => if b ≤ block then e else if block < c.epochB then c.epochPrev else c.epoch
  | none => if block < c.epochB then c.epochPrev else c.epoch

/-- The network time now (R57). -/
def State.netTime (s : State) : Int := s.clk.local + s.clk.epochFor s.clk.tick

/-- The media rate F in hertz (R54). -/
def mediaRate (m : SMap Nat) : Nat := if ent m 2 0x1100 0x01 = 1 then 48000 else 96000

/-- Samples per tick N (R17, R54). -/
def perTick (m : SMap Nat) : Nat := if ent m 2 0x1100 0x01 = 1 then 16 else 32

/-- Samples per tick now; the rate changes only while rendering is stopped (R54). -/
def State.n (s : State) : Nat := perTick s.dict

/-- Whether tick service runs: from step 7 of R478 on. -/
def State.ticking (s : State) : Bool :=
  match s.sup.mod with
  | .booting | .startTest | .recovery => false
  | _ => true

/-! Events -/

/-- The latching kinds of R550. -/
inductive EvKind where
  | pulse | latched | condition
  deriving DecidableEq, Repr

/-- Sources of latching kind L (R562). -/
def evLatched : List Nat :=
  [4, 10, 17, 39, 65, 68, 69, 70, 71, 74, 85, 113, 145, 146, 147, 151, 155, 161, 162, 163, 177]

/-- Sources of kind C (R562). -/
def evConditions : List Nat :=
  [5, 6, 18, 41, 42, 72, 80, 96, 98, 99, 102, 114, 115, 116, 117, 148, 149, 150, 156]

/-- Info sources (R562). -/
def evInfo : List Nat := [16, 43]

/-- Notice sources (R562). -/
def evNotice : List Nat :=
  [8, 19, 20, 21, 32, 34, 35, 40, 68, 73, 86, 87, 100, 154, 160, 165, 166, 176, 179, 180, 181]

/-- Fault sources (R562). -/
def evFault : List Nat :=
  [4, 17, 69, 74, 85, 113, 114, 116, 117, 145, 147, 151, 155, 156, 161, 177]

/-- The reserved source numbers (R562). -/
def evReserved (src : Nat) : Bool :=
  [(11, 15), (23, 31), (44, 47), (54, 63), (75, 79), (88, 95), (103, 111), (118, 127), (131, 143), (157, 159), (167, 175),
   (183, 191), (193, 255)].any (fun r => decide (r.1 ≤ src ∧ src ≤ r.2))

/-- The class of a source: 0 Info, 1 Notice, 2 Warning, 3 Fault (R549, R562). -/
def evClass (src : Nat) : Nat :=
  if evFault.contains src then 3 else if evNotice.contains src then 1 else if evInfo.contains src then 0 else 2

/-- The latching kind of a source (R550, R562). -/
def evKind (src : Nat) : EvKind :=
  if evLatched.contains src then .latched else if evConditions.contains src then .condition else .pulse

/-- The default mask of a class (R553). -/
def evDefaultMask (src : Nat) : Nat :=
  match evClass src with
  | 0 => 0
  | 1 => 1
  | 2 => 3
  | _ => 7

/-- The mask of a source: LOG, NOTIFY, PIN, kept in non-volatile storage (R551). -/
def State.evMask (s : State) (src : Nat) : Nat := mget (evDefaultMask src) s.nv.masks src

/-- The state of an event source. -/
def State.evSrc (s : State) (src : Nat) : EvSrc := mget EvSrc.init s.events.srcs src

/-- A record formed at the present instant, for the log and for NOTIFY as the mask says (R554, R556). -/
def State.evRecord (s : State) (src arg0 arg1 : Nat) (clear : Bool) : EvRec where
  seq    := 0
  time   := s.netTime
  tick   := if s.ticking then s.clk.tick else 0
  source := src
  clear  := clear
  boot   := !s.ticking
  count  := 1
  arg0   := arg0
  arg1   := arg1
  logged := bitOf (s.evMask src) 0
  sent   := bitOf (s.evMask src) 1

/-- Whether a record of the running tick already stands for raises of a source. -/
def sameRaise (src : Nat) (r : EvRec) : Bool := r.source = src && !r.clear

/-- One more raise in the record of this tick (R554). -/
def countRaise (src : Nat) : List EvRec → List EvRec
  | [] => []
  | r :: t => if sameRaise src r then { r with count := satAdd 255 r.count 1 } :: t else r :: countRaise src t

/-- The records of the running tick after a raise or a clear (R554, R557). -/
def State.formRecord (s : State) (src arg0 arg1 : Nat) (clear : Bool) : State :=
  if s.evMask src % 4 = 0 then s
  else if !clear && s.events.now.any (sameRaise src) then
    { s with events := { s.events with now := countRaise src s.events.now } }
  else if !s.ticking && s.events.now.length ≥ 64 then
    { s with events := { s.events with dropped := satAdd (2 ^ 32 - 1) s.events.dropped 1 } }
  else { s with events := { s.events with now := s.events.now ++ [s.evRecord src arg0 arg1 clear] } }

/-- The sources whose subject lies in the partition of a step of the shutdown self-test (R558, R562). -/
def testSources : Nat → List Nat
  | 1 | 2 => [5, 7, 8, 9, 10]
  | 3 => [6]
  | 4 => [48, 49, 50, 51, 52, 53]
  | 5 => [64, 65]
  | 6 => [66, 67, 68, 69, 70, 71, 72, 73, 74]
  | 7 => [80, 81, 82, 83, 84, 85, 86, 87, 96, 97, 98, 99, 100, 101, 102]
  | 8 => [16, 17, 18, 19, 20, 21, 22, 112, 113, 114, 115, 116, 117]
  | _ => []

/-- Whether R558 keeps a source from being raised: its subject is under test. -/
def State.quiet (s : State) (src arg0 : Nat) : Bool :=
  (testSources s.sup.testStep).contains src ||
    (match s.sup.targ with
     | some t =>
       decide (src = 7) && (decide (t.unit = arg0) || decide (t.unit = 0x100 + arg0 / 8)) ||
         decide (src = 49) && (decide (t.unit = arg0 / 256) || decide (t.unit = 0x100 + arg0 / 2048))
     | none => false)

/-- A raise: COUNT, LATCHED and the tick's record (R552, R554). -/
def State.raise (s : State) (src arg0 arg1 : Nat) : State :=
  if s.quiet src arg0 then s else
  let s1 : State := { s with events := { s.events with srcs := mmod EvSrc.init s.events.srcs src (fun e =>
    { e with count := satAdd 65535 e.count 1, latched := e.latched || (evKind src ≠ .pulse), raised := true }) } }
  s1.formRecord src arg0 arg1 false

/-- An instance enters the condition of a C source (R565), with the arguments of its record: a raise only where no instance is
in it yet. -/
def State.enterAs (s : State) (src inst arg0 arg1 : Nat) : State :=
  let e := s.evSrc src
  if e.active.contains inst then s
  else
    let s1 := if e.active.isEmpty then s.raise src arg0 arg1 else s
    { s1 with events := { s1.events with srcs := mmod EvSrc.init s1.events.srcs src (fun e =>
      { e with active := setAdd inst e.active }) } }

/-- An instance whose number is ARG0 enters the condition. -/
def State.enter (s : State) (src inst arg1 : Nat) : State := s.enterAs src inst inst arg1

/-- An instance leaves the condition of a C source (R565): the last one writes the CLEAR record. -/
def State.leaveAs (s : State) (src inst arg0 arg1 : Nat) : State :=
  let e := s.evSrc src
  if e.active.contains inst then
    let s1 : State := { s with events := { s.events with srcs := mmod EvSrc.init s.events.srcs src (fun e =>
      { e with active := setDel inst e.active }) } }
    if (setDel inst e.active).isEmpty && !s.quiet src arg0 then s1.formRecord src arg0 arg1 true else s1
  else s

/-- An instance whose number is ARG0 leaves the condition. -/
def State.leave (s : State) (src inst arg1 : Nat) : State := s.leaveAs src inst inst arg1

/-- A condition of one instance set to what holds now. -/
def State.condition (s : State) (src inst arg1 : Nat) (holds : Bool) : State :=
  if holds then s.enter src inst arg1 else s.leave src inst arg1

/-- The pattern of a signed argument in a record (R556). -/
def arg32 (x : Int) : Nat := toPat 32 (satS 32 x)

/-! Holdover and the counter's advance -/

/-- The code of a time state in 2010:01 (R99). -/
def TimeState.code : TimeState → Nat
  | .free => 0
  | .acquiring => 1
  | .locked => 2
  | .holdover => 3
  | .rebaseConfirm => 4
  | .grandmaster => 5

/-- The holdover rate: the mean of the frequency term over the last 64 accepted Syncs, or over all (R84). -/
def TimeUnit.meanFreq (t : TimeUnit) : Int :=
  if t.freqHist.isEmpty then 0 else fdiv (isum t.freqHist) t.freqHist.length

/-- The time unit enters Holdover (R84): the rate moves by at most 0.1 ppm a tick (R100) to the mean frequency term and is held
there; a rebase being confirmed, or decided and not yet applied, is abandoned (R86). DESIGN CHOICE (log 91): 2010:0E does not count
this abandonment, since R86 names the counter only for the return to Locked. -/
def State.enterHoldover (s : State) : State :=
  let old := s.time.state
  let t := s.time
  let s1 : State := { s with
    clk := if old = .rebaseConfirm then { s.clk with rebase := none } else s.clk
    time := { t with
      state := .holdover, target := t.meanFreq, freq := t.meanFreq, phase := 0, cons := [], decided := none, holdTick := s.clk.tick,
      await := false } }
  s1.enter 18 old.code 0

/-- Holdover is left: its condition ends, and source 19 reports the seconds it lasted (R562). -/
def State.leaveHoldover (s : State) : State :=
  match s.time.state with
  | .holdover =>
    let e := s.evSrc 18
    let secs := (s.clk.tick - s.time.holdTick) / 3000
    ((s.leave 18 (e.active.headD 0) 0).stset 0 0x2010 0x0A secs).raise 19 secs 0
  | _ => s

/-- A wrap of the counter (R74): WRAP_PEND and source 16; with WRAP_PEND already set, CARRY_LOST, source 17 and the time
state lost. DESIGN CHOICE (log 92): R74 does not say how such a Holdover ends; the master stays selected with no Sync of it
awaited, so the state lasts until that master is lost and one qualifies anew (R85). -/
def State.wrap (s : State) : State :=
  if s.clk.wrapPend then
    let s1 : State := { s with clk := { s.clk with ns := 0, carryLost := true } }
    let s2 := s1.raise 17 s1.clk.carry.toNat 0
    if s2.time.master.isSome && s2.time.state ≠ .holdover then s2.enterHoldover else s2
  else
    let s1 : State := { s with clk := { s.clk with ns := 0, wrapPend := true } }
    s1.raise 16 s1.clk.carry.toNat 0

/-- The counter runs on by `n` ns, fewer than 2^32, through at most one wrap (R74). -/
def State.advance (s : State) (n : Nat) : State :=
  if s.clk.ns.toNat + n < 2 ^ 32 then
    { s with clk := { s.clk with ns := BitVec.ofNat 32 (s.clk.ns.toNat + n), ofs := s.clk.ofs + n } }
  else
    let r := s.clk.ns.toNat + n - 2 ^ 32
    let s1 := ({ s with clk := { s.clk with ofs := s.clk.ofs + (n - r) } } : State).wrap
    { s1 with clk := { s1.clk with ns := BitVec.ofNat 32 r, ofs := s1.clk.ofs + r } }

/-- Time runs on to the instant `at_` ns after the boundary of the current tick, never backward and never past the tick's
last nanosecond; it stands still where no tick service runs. -/
def State.elapse (s : State) (at_ : Nat) : State :=
  if s.ticking then s.advance (min at_ (tickLen s.clk.tick - 1) - s.clk.ofs) else s

/-! Tables of State -/

/-- A feed. -/
def State.feed (s : State) (f : Nat) : FeedSt := mget FeedSt.init s.pipe.feeds f

/-- A feed replaced. -/
def State.setFeed (s : State) (f : Nat) (v : FeedSt) : State :=
  { s with pipe := { s.pipe with feeds := mset FeedSt.init s.pipe.feeds f v } }

/-- An object. -/
def State.obj (s : State) (o : Nat) : Obj := mget Obj.init s.pipe.objs o

/-- A drive channel. -/
def State.drive (s : State) (n : Nat) : Drive := mget Drive.init s.drives n

/-- A drive channel replaced. -/
def State.setDrive (s : State) (n : Nat) (d : Drive) : State := { s with drives := mset Drive.init s.drives n d }

/-- A rail group. -/
def State.rail (s : State) (g : Nat) : Rail := mget Rail.init s.rails g

/-- A Rod. -/
def State.rod (s : State) (r : Nat) : Rod := mget Rod.init s.rods r

/-- A Rod replaced. -/
def State.setRod (s : State) (r : Nat) (v : Rod) : State := { s with rods := mset Rod.init s.rods r v }

/-- A Tally queue. -/
def State.queue (s : State) (q : Nat) : Queue := mget Queue.init s.tally.queues q

/-- A Tally queue replaced. -/
def State.setQueue (s : State) (q : Nat) (v : Queue) : State :=
  { s with tally := { s.tally with queues := mset Queue.init s.tally.queues q v } }

/-- A port. -/
def State.port (s : State) (p : Nat) : Port := mget Port.init s.ports p

/-- A port replaced. -/
def State.setPort (s : State) (p : Nat) (v : Port) : State := { s with ports := mset Port.init s.ports p v }

/-- The instances whose BOOL entry at `base + k : sub` is 1, ascending. -/
def enabledIn (m : SMap Nat) (base count sub : Nat) : List Nat :=
  (m.filter (fun e => decide (key base 0 ≤ e.1 ∧ e.1 < key (base + count) 0) && decide (e.1 % 256 = sub) &&
    decide (e.2 ≠ 0))).map (fun e => e.1 / 256 - base)

/-- The order in which pending writes apply (R429). -/
def pendBefore (a b : Pending) : Bool :=
  decide (a.block < b.block ∨ (a.block = b.block ∧ (a.keyT < b.keyT ∨ (a.keyT = b.keyT ∧ a.keyId < b.keyId))))

/-- The value of a numeric entry in force for block `k`, with what pending writes will make of it by then (R39, R426). -/
def State.valFor (s : State) (d index sub k : Nat) : Nat :=
  match (sortBy pendBefore (s.pend.filter (fun p => decide (p.index = index) && decide (p.sub = sub) && decide (p.block ≤ k)))).getLast? with
  | some p => beNat p.bytes
  | none => ent (s.dictAt (s.clk.tick - k)) d index sub

/-- Every command in meaning form: it answers the next state. -/
def done (s : State) : Host.Outcome State Fault Refusal := .next s

end Sys2Proof.Machine
end

