-- ==== Sys2Proof/Machine/Operands.lean ====
section
/-! DEFINITION. The operand forms of the block: keyframe records (R106), stream headers and samples (R322 to R329), FOL frames
(R411), descriptors (R237) and the other byte layouts that commands carry. -/
namespace Sys2Proof.Machine

/-! Keyframe records -/

/-- A 48-byte keyframe record (R106) with the checks of R107; none for a malformed one. -/
def keyframeOf (b : List Byte) : Option Keyframe :=
  let object := beAt b 0 2
  let law := beAt b 2 1
  let flags := beAt b 3 1
  let spread := beAt b 28 4
  if object ≤ 511 ∧ 1 ≤ law ∧ law ≤ 3 ∧ flags < 2 ∧ spread ≤ 100000 ∧ beAt b 40 8 = 0 ∧ b.length = 48 then
    some {
      object := object, law := law, jump := flags = 1, tau := (beAt b 4 8 : Nat),
      x := toSigned 32 (beAt b 12 4), y := toSigned 32 (beAt b 16 4), z := toSigned 32 (beAt b 20 4),
      gain := toSigned 32 (beAt b 24 4), spread := (spread : Nat), zones := beAt b 32 8 }
  else none

end Sys2Proof.Machine
end

