-- ==== Sys2Proof/Machine/Fades.lean ====
section
/-! DEFINITION. The miss rules that every stage shares (R42 to R46): the two ramps, the recovery of a channel, and the
record of a missed deadline. -/
namespace Sys2Proof.Machine

/-- A block of silence. -/
def silence (n : Nat) : List Int := List.replicate n 0

/-- A block with its samples numbered from 0. -/
def mapBlock (f : Nat → Int → Int) : Nat → List Int → List Int
  | _, [] => []
  | j, x :: r => f j x :: mapBlock f (j + 1) r

/-- The falling ramp of R43: y_j = floor(x_j × (N − 1 − j) / N). -/
def fallRamp (n : Nat) (x : List Int) : List Int :=
  mapBlock (fun j v => v * ((n : Int) - 1 - j) / n) 0 x

/-- The rising ramp of R44: y_j = floor(x_j × (j + 1) / N). -/
def riseRamp (n : Nat) (x : List Int) : List Int := mapBlock (fun j v => v * ((j : Int) + 1) / n) 0 x

/-- A block of exactly `n` samples; a block not yet there reads as silence. -/
def fullBlock (n : Nat) (x : List Int) : List Int := (List.range n).map (fun j => nth x j)

/-- What a consumer uses for a channel in a tick, and where the channel then stands (R43, R44): `x` is the channel's block
where its stage completed it. -/
def fadeStep (n : Nat) (c : FadeCh) (missed : Bool) (x : List Int) : List Int × FadeCh :=
  if missed then
    match c.fade with
    | .ok => (fallRamp n (fullBlock n c.prev), ⟨.silent 0, []⟩)
    | .silent _ => (silence n, ⟨.silent 0, []⟩)
  else
    match c.fade with
    | .ok => (fullBlock n x, ⟨.ok, fullBlock n x⟩)
    | .silent 0 => (silence n, ⟨.silent 1, []⟩)
    | .silent 1 => (silence n, ⟨.silent 2, []⟩)
    | .silent _ => (riseRamp n (fullBlock n x), ⟨.ok, fullBlock n x⟩)

/-- The fade alone, for outputs whose channel has no block of its own (R563). -/
def fadeNext (f : Fade) (missed : Bool) : Fade :=
  if missed then .silent 0
  else
    match f with
    | .ok => .ok
    | .silent 0 => .silent 1
    | .silent 1 => .silent 2
    | .silent _ => .ok

/-- Whether a channel is silent or ramping (1100:0C). -/
def Fade.silenced : Fade → Bool
  | .ok => false
  | .silent _ => true

/-- A mark of the module's own (R469): the block of the event and its cause. -/
def State.mark (s : State) (block cause : Nat) : State :=
  { s with twin := { s.twin with marks := s.twin.marks ++ [(block, cause)] } }

/-- How many ticks behind ingress a stage works (R34): stages 1 ingress, 2 placement, 3 delay matrix, 4 output bus, 5 egress. -/
def stageLag : Nat → Nat
  | 1 => 0
  | 2 => 1
  | 3 => 1
  | 4 => 2
  | _ => 3

/-- A deadline missed by a stage (R46, R54, R469): its counter, the last missed tick and stage, its mark, and its event with
the size of the miss scope. -/
def stageMiss (s : State) (stage scope : Nat) : State :=
  if scope = 0 then s
  else
    ((((s.mark (s.clk.tick - stageLag stage) 1).bump 0x1100 (4 + stage) 1).stset 0 0x1100 0x0A s.clk.tick).stset 0 0x1100 0x0B stage).raise (stage - 1) scope 0

/-- Whether a dictionary enables rendering of its block (R54). -/
def renders (m : SMap Nat) : Bool := ent m 0 0x1100 0x03 ≠ 0

end Sys2Proof.Machine
end

