-- ==== Sys2Proof/Machine/Memory.lean ====
section
/-! DEFINITION. Ledger and DRAM (R269 to R305): reads and writes through SEC-DED, the correction queue, scrub and line repair, poison,
refresh debt, rank migration and self-refresh. `mem` holds what was written; a word with a wrong bit or an uncorrectable
word is listed apart, so that a read delivers what the code lets it deliver. -/
namespace Sys2Proof.Machine

/-! Address arithmetic (R254, R269, R277, R279) -/

/-- Marks an uncorrectable word in a table of wrong bits; a wrong bit is 0 to 71 (64 data and 8 check bits). -/
def uncorrectable : Nat := 72

/-- The first byte of DRAM. -/
def dramBase : Nat := 0x0100000000

/-- The data bytes of one logical slot: 3.5 GiB (R277). -/
def slotBytes : Nat := 0xE0000000

/-- Whether a byte lies in the Ledger. -/
def inLedger (a : Nat) : Bool := decide (a < 0x04000000)

/-- Whether a byte lies in the DRAM window. -/
def inDram (a : Nat) : Bool := decide (dramBase ≤ a ∧ a < 0x03A0000000)

/-- The aligned 64-bit words that `n` bytes from `a` touch. -/
def wordsOf (a n : Nat) : List Nat :=
  if n = 0 then [] else (List.range ((a + n - 1) / 8 - a / 8 + 1)).map (fun i => (a / 8 + i) * 8)

/-- The 64-byte blocks that `n` bytes from `a` touch. -/
def blocksOf (a n : Nat) : List Nat :=
  if n = 0 then [] else (List.range ((a + n - 1) / 64 - a / 64 + 1)).map (fun i => (a / 64 + i) * 64)

/-- The bank of a Ledger address (R269). -/
def bankOf (a : Nat) : Nat := bitsOf a 13 8

/-- The line of a Ledger address within its bank (R269). -/
def lineOf (a : Nat) : Nat := (bitsOf a 7 0 + 256 * bitsOf a 25 14) / 64

/-- The address of a line of a bank (R269). -/
def lineAddr (bank line : Nat) : Nat := (line / 4) * 0x4000 + bank * 0x100 + (line % 4) * 64

/-- The logical slot of a DRAM address (R277). -/
def slotOf (a : Nat) : Nat := (a - dramBase) / slotBytes

/-- A table of wrong bits after a further bit of a word reads wrong: two of them are uncorrectable (R270, R280). -/
def upsetWord (m : SMap (Option Nat)) (w : Nat) (bit : Option Nat) : SMap (Option Nat) :=
  match bit with
  | none => mset none m w (some uncorrectable)
  | some b => mmod none m w (fun e =>
      match e with
      | none => some b
      | some c => if c = b then some b else some uncorrectable)

/-- The upsets that happened since the last access, each in its memory. -/
def applyUpsets (s : State) (ups : List Upset) : State :=
  ups.foldl (fun s u =>
    let w := u.addr / 8 * 8
    if inLedger w then { s with ledger := { s.ledger with errs := upsetWord s.ledger.errs w u.bit } }
    else if inDram w then { s with dram := { s.dram with errs := upsetWord s.dram.errs w u.bit } }
    else if 0x10000000 ≤ w ∧ w < 0x12000000 then
      let r := (w - 0x10000000) / 0x80000
      s.setRod r { s.rod r with errs := upsetWord (s.rod r).errs ((w - 0x10000000) % 0x80000) u.bit }
    else s) s

/-! Ledger (R270 to R274) -/

/-- A master's read of one Ledger word: a correction counted and queued, an uncorrectable word recorded and raised. -/
def ledgerNote (s : State) (w : Nat) : State :=
  match mget none s.ledger.errs w with
  | none => s
  | some b =>
    if b = uncorrectable then ((s.stset 0 0x7400 0x03 w).bump 0x7400 0x02 1).raise 64 w 0
    else
      let q := s.ledger.queue
      let s1 : State := if q.contains w || decide (16 ≤ q.length) then s
        else { s with ledger := { s.ledger with queue := q ++ [w] } }
      s1.bump 0x7400 0x01 1

/-- Whether a Ledger byte reads as zero, its word being uncorrectable (R272). -/
def ledgerLost (s : State) (a : Nat) : Bool := decide (mget none s.ledger.errs (a / 8 * 8) = some uncorrectable)

/-- A byte of the Ledger as a read delivers it. -/
def ledgerByte (s : State) (a : Nat) : Byte := if ledgerLost s a then 0#8 else memByte s.mem a

/-- Words of a Ledger region found lost by a read for block `block` (R469, cause 3). -/
def ledgerMark (s : State) (block : Nat) (lost : Bool) : State := if lost then s.mark block 3 else s

/-- A read of `n` Ledger bytes. -/
def ledgerRead (s : State) (a n : Nat) : State × List Byte :=
  ((wordsOf a n).foldl ledgerNote s, (List.range n).map (fun i => ledgerByte s (a + i)))

/-- A read of a line or buffer of the Ledger for block `block`, with the mark of a loss (R469). -/
def lineRead (s : State) (block a n : Nat) : State × List Byte :=
  let (s1, b) := ledgerRead s a n
  (ledgerMark s1 block ((wordsOf a n).any (ledgerLost s)), b)

/-- The bytes of one word set to zero. -/
def zeroWord (m : List Host.Cell) (w : Nat) : List Host.Cell := memClear m w (w + 8)

/-- One Ledger word before a write that stores `full` or fewer bytes of it (R271, R272): a partial write merges with the
corrected word, and an uncorrectable word keeps none of its other bytes. -/
def ledgerOpen (s : State) (w : Nat) (full : Bool) : State :=
  match mget none s.ledger.errs w with
  | none => s
  | some b =>
    let s1 : State := { s with ledger := { s.ledger with errs := mset none s.ledger.errs w none } }
    if full then s1
    else if b = uncorrectable then { s1 with mem := zeroWord s1.mem w }
    else s1.bump 0x7400 0x01 1

/-- Whether all eight bytes of word `w` are written by strobes over the burst at `a`. -/
def coversWord (a : Nat) (strobe : List Bool) (w : Nat) : Bool :=
  (List.range 8).all (fun i => decide (a ≤ w + i) && strobe.getD (w + i - a) false)

/-- Whether any byte of [lo, lo + n) is written. -/
def touches (a : Nat) (strobe : List Bool) (lo n : Nat) : Bool :=
  (List.range n).any (fun i => decide (a ≤ lo + i) && strobe.getD (lo + i - a) false)

/-- A write between the two slots of a line repair abandons it; the next pass retries it (R274). -/
def abandonRepair (s : State) (a : Nat) : State :=
  if mget 0 s.ledger.repair (bankOf a) = lineOf a + 1 then
    { s with ledger := { s.ledger with
      repair := mset 0 s.ledger.repair (bankOf a) 0, retry := setAdd (bankOf a * 16384 + lineOf a) s.ledger.retry } }
  else s

/-- A write to the Ledger under byte strobes. -/
def ledgerWrite (s : State) (a : Nat) (data : List Byte) (strobe : List Bool) : State :=
  let ws := (wordsOf a data.length).filter (fun w => touches a strobe w 8)
  let s1 := ws.foldl (fun s w => abandonRepair (ledgerOpen s w (coversWord a strobe w)) w) s
  { s1 with mem := memStrobe s1.mem a data strobe }

/-- A range of the Ledger written with zero and valid check bits. -/
def ledgerZero (s : State) (lo hi : Nat) : State :=
  { s with
    mem := memClear s.mem lo hi,
    ledger := { s.ledger with errs := s.ledger.errs.filter (fun e => !decide (lo ≤ e.1 ∧ e.1 < hi)) } }

/-- Spare lines that a bank uses: its newest spare (R274). -/
def sparesUsed (m : SMap Nat) (bank : Nat) : Nat :=
  m.foldl (fun u e => if e.1 / 16384 = bank then max u e.2 else u) 0

/-- The Ledger's repair counters, from its remap table (7400:04, 7400:06). -/
def repairStatus (s : State) : State :=
  let m := s.ledger.remap
  let used := (List.range 64).map (sparesUsed m)
  (s.stset 0 0x7400 0x04 (used.foldl (· + ·) 0)).stset 16 0x7400 0x06 (16 - used.foldl max 0)

/-- The second slot of a repair (R274): the line's contents go to the bank's next spare line, correctable words corrected and
uncorrectable ones zero; without a spare the line stays in place. -/
def repairLine (s : State) (bank : Nat) : State :=
  match mget 0 s.ledger.repair bank with
  | 0 => s
  | l + 1 =>
    let s0 : State := { s with ledger := { s.ledger with repair := mset 0 s.ledger.repair bank 0 } }
    let used := sparesUsed s0.ledger.remap bank
    if used < 16 then
      let base := lineAddr bank l
      let ws := (List.range 8).map (fun i => base + 8 * i)
      let s1 := ws.foldl (fun s w =>
        if mget none s.ledger.errs w = some uncorrectable then { s with mem := zeroWord s.mem w } else s) s0
      let errs := ws.foldl (fun m w => mset none m w none) s1.ledger.errs
      let remap := mset 0 s1.ledger.remap (bank * 16384 + l) (used + 1)
      repairStatus { s1 with ledger := { s1.ledger with errs := errs, remap := remap }, nv := { s1.nv with remap := remap } }
    else if s0.ledger.noSpare.contains bank then s0
    else
      let s1 : State := { s0 with ledger := { s0.ledger with noSpare := setAdd bank s0.ledger.noSpare } }
      (s1.stset 0 0x7400 0x05 s1.ledger.noSpare.length).raise 65 bank 0

/-- A line repair begins in this slot; while the bank has another under way it waits for the line's next slot. -/
def startRepair (s : State) (bank line : Nat) : State :=
  if mget 0 s.ledger.repair bank = 0 then
    { s with ledger := { s.ledger with repair := mset 0 s.ledger.repair bank (line + 1) } }
  else { s with ledger := { s.ledger with retry := setAdd (bank * 16384 + line) s.ledger.retry } }

/-- A correction that the scrubber writes back (R273); one that recurs at the same bit in consecutive passes starts a repair
(R274). -/
def scrubCorrect (s : State) (w b : Nat) : State :=
  let s1 : State := { s with ledger := { s.ledger with
    errs := mset none s.ledger.errs w none,
    this := if s.ledger.this.contains (w, b) then s.ledger.this else s.ledger.this ++ [(w, b)] } }
  if s.ledger.last.contains (w, b) then startRepair s1 (bankOf w) (lineOf w) else s1

/-- A queued word is written back corrected (R270, R273). -/
def serveQueued (s : State) (w : Nat) : State :=
  match mget none s.ledger.errs w with
  | some b => if b = uncorrectable then s else scrubCorrect s w b
  | none => s

/-- One word with an error under the patrol (R273, R274). -/
def patrolWord (s : State) (e : Nat × Option Nat) : State :=
  match e.2 with
  | none => s
  | some b =>
    if b = uncorrectable then startRepair (s.bump 0x7400 0x02 1) (bankOf e.1) (lineOf e.1)
    else (scrubCorrect s e.1 b).bump 0x7400 0x01 1

/-- One scrub slot of every bank (R273): the repairs that wait, the correction queue, then the next line, where a repair that a write
abandoned is tried again (R274). -/
def scrubSlot (s : State) : State :=
  let s1 := (s.ledger.repair.map (fun e => e.1)).foldl repairLine s
  let s2 := s1.ledger.queue.foldl serveQueued s1
  let s3 : State := { s2 with ledger := { s2.ledger with queue := [] } }
  let l := s3.ledger.line
  let again := s3.ledger.retry.filter (fun k => decide (k % 16384 = l))
  let r : State := { s3 with ledger := { s3.ledger with retry := s3.ledger.retry.filter (fun k => decide (k % 16384 ≠ l)) } }
  let s4 := again.foldl (fun s k => startRepair s (k / 16384) l)
    ((r.ledger.errs.filter (fun e => decide (lineOf e.1 = l))).foldl patrolWord r)
  if l + 1 < 16384 then { s4 with ledger := { s4.ledger with line := l + 1 } }
  else { s4 with ledger := { s4.ledger with line := 0, last := s4.ledger.this, this := [] } }

/-- Every Ledger word written with zero and valid check bits, the remap table applied (R276). -/
def ledgerInit (s : State) : State :=
  let l := s.ledger
  repairStatus { s with
    mem := memClear s.mem 0 0x04000000,
    ledger := { l with errs := [], queue := [], repair := [], last := [], this := [], line := 0, retry := [], remap := s.nv.remap,
                       ready := true } }

/-! DRAM (R277 to R300) -/

/-- A rank. -/
def rankOf (s : State) (p : Nat) : Rank := mget Rank.init s.dram.ranks p

/-- A rank replaced. -/
def setRank (s : State) (p : Nat) (r : Rank) : State :=
  { s with dram := { s.dram with ranks := mset Rank.init s.dram.ranks p r } }

/-- The rank that serves a logical slot; none where no rank does. -/
def servingRank (s : State) (slot : Nat) : Option Nat :=
  (List.range 4).find? (fun p => decide ((rankOf s p).slot = some slot) && decide ((rankOf s p).state ≠ .migTo))

/-- The unit of a slot that an address lies in (R296). -/
def unitOf (a : Nat) : Nat := (a - dramBase) % slotBytes / 2048

/-- The ranks that an access is routed to (R297): while a migration runs, the target in units already copied, both for a write in the
unit being copied, and otherwise the source. -/
def routeOf (s : State) (a : Nat) (write : Bool) : List Nat :=
  let serving := (servingRank s (slotOf a)).getD 0
  match s.dram.mig with
  | some m =>
    if m.slot ≠ slotOf a then [serving]
    else if unitOf a < m.copied then [m.target]
    else if unitOf a = m.copied && write then [m.source, m.target]
    else [m.source]
  | none => [serving]

/-- The rank that a block is read from. -/
def rankAt (s : State) (a : Nat) : Nat := (routeOf s a false).headD 0

/-! The device (R279, R290) -/

/-- Where an address lies in its rank (R279): sub-channel, bank, row and column. -/
def placeOf (a : Nat) : Nat × Nat × Nat × Nat :=
  let x := (a - dramBase) % slotBytes
  let g := x / 256
  let r := g / 8 / 7
  (g % 8, r % 16, r / 16, g / 8 % 7 * 256 + x % 256)

/-- A draw at an activate (R290): with probability 2^−n the neighbours of the row are refreshed, one refresh in 7410:09. -/
def neighbourDraw (s : State) : State :=
  let n := s.val 8 0x7410 0x03
  let hit := b2n (decide (s.drawOf.toNat % 2 ^ n = 0))
  { s.drawn with dram := { s.dram with neigh := min (s.dram.neigh + hit) (2 ^ 32 - 1) } }

/-- An access to an address in rank `p`: it activates its row unless that row is open in its bank. A row stays open until another
row of its bank is activated or the banks are precharged: DESIGN CHOICE (assumption 101). -/
def activate (s : State) (p a : Nat) : State :=
  let d := placeOf a
  let k := (p * 8 + d.1) * 16 + d.2.1
  if mget 0 s.dram.rows k = d.2.2.1 + 1 then s
  else neighbourDraw { s with dram := { s.dram with rows := mset 0 s.dram.rows k (d.2.2.1 + 1) } }

/-- Every row that a run of addresses touches, in address order. -/
def activateRun (s : State) (p lo hi : Nat) : State :=
  (List.range ((hi - lo + 255) / 256)).foldl (fun s i => activate s p (lo + 256 * i)) s

/-- The Ready spare. -/
def readySpare (s : State) : Option Nat :=
  (List.range 4).find? (fun p => decide ((rankOf s p).state = .spareReady))

/-- Whether an address lies in a unit that a migration has copied. -/
def Migration.has (m : Migration) (a : Nat) : Bool := decide (inDram a ∧ slotOf a = m.slot ∧ unitOf a < m.copied)

/-- The units copied as the source holds them (R299): what only the target has seen is undone. -/
def sourceAgain (s : State) (m : Migration) : State :=
  { s with
    mem := m.lost.foldl (fun l c => memSet l c.1 c.2) s.mem,
    dram := { s.dram with
      errs := m.saved.foldl (fun l e => mset none l e.1 e.2) (s.dram.errs.filter (fun e => !m.has e.1)),
      poison := m.kept.foldl (fun l b => setAdd b l) (s.dram.poison.filter (fun b => !m.has b)) } }

/-- A migration aborted by an error on its target (R299). -/
def abortMigration (s : State) : State :=
  match s.dram.mig with
  | none => s
  | some m =>
    let s0 := sourceAgain s m
    let s1 := setRank s0 m.target { rankOf s0 m.target with state := .failed, slot := none }
    let s2 := setRank s1 m.source { rankOf s1 m.source with state := .inService }
    let s3 : State := { s2 with dram := { s2.dram with mig := none }, nv := { s2.nv with ranks := s2.dram.ranks } }
    (s3.stset 0 0x7430 0x01 3).raise 74 (m.source * 256 + m.target) 0

/-- A trigger of R294 on rank `p` met in service; `hard` for an uncorrectable or a command error (R295, R299). -/
def triggerNow (s : State) (p : Nat) (hard : Bool) : State :=
  match s.dram.mig with
  | some m =>
    if p = m.target then (if hard then abortMigration s else s)
    else if p = m.source then s
    else if (rankOf s p).state = .inService then s.enter 72 p 0 else s
  | none =>
    if (rankOf s p).state ≠ .inService then s
    else if (readySpare s).isNone then s.enter 72 p 0
    else
      match s.dram.trigger with
      | none => { s with dram := { s.dram with trigger := some p } }
      | some q => if q = p then s else s.enter 72 p 0

/-- A trigger of R294: out of service it waits until the DRAM returns (R299). -/
def triggerRank (s : State) (p : Nat) (hard : Bool) : State :=
  if s.dram.state = 2 then triggerNow s p hard else { s with dram := { s.dram with late := s.dram.late ++ [(p, hard)] } }

/-- The DRAM in service (7410:01 = 2): the idle count starts (R301), and triggers met out of service are evaluated (R299). -/
def backInService (s : State) : State :=
  let s1 : State := { s with dram := { s.dram with state := 2, late := [], lastReq := s.clk.local } }
  s.dram.late.foldl (fun s e => triggerNow s e.1 e.2) (s1.stset 0 0x7410 0x01 2)

/-- A request reaches the controller: it leaves idle self-refresh for it (R303), in Parked it serves one and stays (R304), and the
idle count restarts (R301, R302). -/
def wakeDram (s : State) : State :=
  if s.dram.state = 3 then backInService s else { s with dram := { s.dram with lastReq := s.clk.local } }

/-- Whether a deep-line read waits at a DRAM port. -/
def deepWaits (s : State) : Bool :=
  s.beam.waiting.any (fun w => w.req.deep && inDram w.req.addr)

/-- The first byte of the DRAM slot of coefficient bank `b` of feed `f`: 256 KiB for each (R278). -/
def bankSlot (f b : Nat) : Nat := 0x0120000000 + (2 * f + b) * 0x40000

/-- The DRAM copy of coefficient bank `k` (2f + b) is lost (R282): a Selected bank's slot waits for the rewrite from the Ledger copy in
the next tick, any other bank becomes Empty. The block that the stage corrects now is marked (R469). -/
def bankLost (s : State) (k : Nat) : State :=
  let f := k / 2
  let fd := s.feed f
  let b := if k % 2 = 0 then fd.corr.bank0 else fd.corr.bank1
  match b.state with
  | .selected => { s.mark (s.clk.tick - 2) 4 with dram := { s.dram with rewrite := setAdd k s.dram.rewrite } }
  | .empty => s
  | _ =>
    let c := if k % 2 = 0 then { fd.corr with bank0 := Bank.init } else { fd.corr with bank1 := Bank.init }
    (((s.mark (s.clk.tick - 2) 4).setFeed f { fd with corr := c }).stset 0 (0x4000 + f) (7 + k % 2) 0).raise 67 k 0

/-- A poisoned block in the DRAM slot of a coefficient bank (R282). -/
def bankPoisoned (s : State) (a : Nat) : State :=
  if 0x0120000000 ≤ a ∧ a < 0x0130000000 then bankLost s ((a - 0x0120000000) / 0x40000) else s

/-- A block found uncorrectable is marked poisoned (R281, R294), unless that ends a migration whose source still holds it. -/
def poisonBlock (s : State) (b : Nat) : State :=
  let p := rankAt s b
  let s1 : State := { s with dram := { s.dram with poison := setAdd b s.dram.poison } }
  let s2 := ((s1.bump (0x7420 + p) 0x04 1).stset 0 (0x7420 + p) 0x05 b).raise 66 p ((b / 64) % 2 ^ 32)
  let s3 : State := { s2 with dram := { s2.dram with
    hoDram := s2.dram.hoDram || (decide ((rankOf s2 p).state = .inService) && (readySpare s2).isNone) } }
  let s4 := triggerRank s3 p true
  if s4.dram.poison.contains b then bankPoisoned s4 b else s4

/-- Whether a block holds an uncorrectable word. -/
def blockBad (s : State) (b : Nat) : Bool :=
  s.dram.errs.any (fun e => decide (b ≤ e.1 ∧ e.1 < b + 64) && decide (e.2 = some uncorrectable))

/-- Whether a block reads as zero (R281). -/
def blockLost (s : State) (b : Nat) : Bool := s.dram.poison.contains b || blockBad s b

/-- A correction in a block: counted for its rank, and a trigger when the rank's corrections in the last 3,600 s reach the
threshold (R294). -/
def countCorrection (s : State) (b : Nat) : State :=
  let p := rankAt s b
  let r := rankOf s p
  let recent := s.clk.tick :: r.corr.filter (fun k => decide (s.clk.tick < k + 10800000))
  let s1 := (setRank s p { r with corr := recent }).bump (0x7420 + p) 0x03 1
  let t := s1.val 0 0x7410 0x05
  if t ≠ 0 ∧ t ≤ recent.length then triggerRank s1 p false else s1

/-- A read of one DRAM block (R280, R281). -/
def dramNote (s0 : State) (b : Nat) : State :=
  let s := activate s0 (rankAt s0 b) b
  if s.dram.poison.contains b then s
  else if blockBad s b then poisonBlock s b
  else if s.dram.errs.any (fun e => decide (b ≤ e.1 ∧ e.1 < b + 64)) then
    let q := s.dram.wback
    let s1 : State := if q.contains b || decide (32 ≤ q.length) then s
      else { s with dram := { s.dram with wback := q ++ [b] } }
    countCorrection s1 b
  else s

/-- A byte of DRAM as a read delivers it. -/
def dramByte (s : State) (a : Nat) : Byte := if blockLost s (a / 64 * 64) then 0#8 else memByte s.mem a

/-- A read of `n` DRAM bytes. -/
def dramRead (s : State) (a n : Nat) : State × List Byte :=
  ((blocksOf a n).foldl dramNote s, (List.range n).map (fun i => dramByte s (a + i)))

/-- The wrong bits of a block cleared, as valid check bits are written. -/
def clearBlock (s : State) (b : Nat) : State :=
  { s with dram := { s.dram with
    errs := s.dram.errs.filter (fun e => !(decide (b ≤ e.1 ∧ e.1 < b + 64))),
    poison := setDel b s.dram.poison } }

/-- One DRAM block before a write that stores all of it or a part (R281). -/
def dramOpen (s : State) (b : Nat) (full : Bool) : State :=
  if full then clearBlock s b
  else if s.dram.poison.contains b then { clearBlock s b with mem := memClear s.mem b (b + 64) }
  else if blockBad s b then
    let s1 := poisonBlock s b
    { clearBlock s1 b with mem := memClear s1.mem b (b + 64) }
  else if s.dram.errs.any (fun e => decide (b ≤ e.1 ∧ e.1 < b + 64)) then clearBlock (countCorrection s b) b
  else s

/-- What a write to the target alone replaces in a block, kept for the source (R297, R299). -/
def keepSource (s : State) (b : Nat) : State :=
  match s.dram.mig with
  | some m =>
    if m.has b then
      let old := ((List.range 64).filter (fun i => !m.lost.any (fun c => decide (c.1 = b + i)))).map (fun i => (b + i, memByte s.mem (b + i)))
      { s with dram := { s.dram with mig := some { m with lost := m.lost ++ old } } }
    else s
  | none => s

/-- A write to DRAM under byte strobes. -/
def dramWrite (s : State) (a : Nat) (data : List Byte) (strobe : List Bool) : State :=
  let bs := (blocksOf a data.length).filter (fun b => touches a strobe b 64)
  let s1 := bs.foldl (fun s b =>
    let s := (routeOf s b true).foldl (fun s p => activate s p b) (keepSource s b)
    dramOpen s b ((List.range 64).all (fun i => decide (a ≤ b + i) && strobe.getD (b + i - a) false))) s
  { s1 with mem := memStrobe s1.mem a data strobe }

/-- A range of DRAM written with zero and valid check bits. -/
def dramZero (s : State) (lo hi : Nat) : State :=
  { s with
    mem := memClear s.mem lo hi,
    dram := { s.dram with
      errs := s.dram.errs.filter (fun e => !decide (lo ≤ e.1 ∧ e.1 < hi)),
      poison := s.dram.poison.filter (fun b => !decide (lo ≤ b ∧ b < hi)) } }

/-- The corrected blocks are written back, which the controller does when no deep-line read waits (R280). -/
def writeBack (s : State) : State :=
  let s1 := s.dram.wback.foldl (fun s b =>
    if blockBad s b then s else
      let s := (routeOf s b true).foldl (fun s p => activate s p b) s
      { s with dram := { s.dram with errs := s.dram.errs.filter (fun e => !(decide (b ≤ e.1 ∧ e.1 < b + 64))) } }) s
  { s1 with dram := { s1.dram with wback := [] } }

/-- The rows still open after `n` refreshes (R288): an all-bank refresh precharges every bank, a per-bank refresh one bank of every
sub-channel. The banks take turns: DESIGN CHOICE (assumption 138). -/
def openAfter (perBank : Bool) (d : Dram) (n : Nat) : SMap Nat :=
  let banks := (List.range n).map (fun i => (d.refBank + i) % 16)
  if n = 0 then d.rows else if perBank then d.rows.filter (fun e => !banks.contains (e.1 % 16)) else []

/-- Refreshes issued (R288, R289): the debt falls by their number, and their banks are precharged. -/
def refreshed (s : State) (n : Nat) : State :=
  let d := s.dram
  let perBank := decide (s.val 0 0x7410 0x02 ≠ 0)
  { s with dram := { d with
    debt := d.debt - n, rows := openAfter perBank d n, refBank := if perBank then (d.refBank + n) % 16 else d.refBank } }

/-- What the DRAM controller does at a burst boundary (R280, R289): refreshes that are owed, and corrected blocks written back. -/
def burstEnd (s : State) : State :=
  if deepWaits s then
    (if 8 ≤ s.dram.debt then refreshed s 1 else s)
  else writeBack (refreshed s s.dram.debt)

/-- The controller between bursts (R280, R289): in service, with no deep-line read waiting, it repays what it owes. -/
def idleDram (s : State) : State := if s.dram.state = 2 && !deepWaits s then burstEnd s else s

/-- A burst that writes DRAM, to its boundary (R289, R301, R303). -/
def dramBurst (s : State) (a : Nat) (data : List Byte) (strobe : List Bool) : State :=
  burstEnd (dramWrite (wakeDram s) a data strobe)

/-- The blocks of a range that hold a byte, a wrong bit or poison written with zero. -/
def dramWipe (s : State) (lo hi : Nat) : State :=
  let at_ := s.mem.map (fun c => c.1) ++ s.dram.errs.map (fun e => e.1) ++ s.dram.poison
  let bs := (at_.filter (fun a => decide (lo ≤ a ∧ a < hi))).foldl (fun l a => setAdd (a / 64 * 64) l) []
  bs.foldl (fun s b => dramBurst s b (List.replicate 64 0#8) ((List.range 64).map (fun i => decide (lo ≤ b + i ∧ b + i < hi)))) s

/-! Migration (R294 to R299) -/

/-- The units that a slot holds: 3.5 GiB in units of 2,048 bytes. -/
def slotUnits : Nat := 1835008

/-- The units copied in a tick (R296). -/
def unitsPerTick (c : Nat) : Nat := c * 1000000000 / 3000 / 2048

/-- A block that the migration reads (R281, R296): a correction counts, and an uncorrectable block is poisoned, counted and raised as
on any read. -/
def copyBlock (s : State) (b : Nat) : State :=
  if s.dram.poison.contains b then s else if blockBad s b then poisonBlock s b else countCorrection s b

/-- What a migration reads and writes of [lo, hi): the rows of both ranks, and every block with a wrong bit. -/
def copyReads (s : State) (m : Migration) (lo hi : Nat) : State :=
  let s1 := activateRun (activateRun s m.source lo hi) m.target lo hi
  let hit := (s1.dram.errs.filter (fun e => decide (lo ≤ e.1 ∧ e.1 < hi))).foldl (fun l e => setAdd (e.1 / 64 * 64) l) []
  hit.foldl copyBlock s1

/-- A migration that runs on after the copy of [lo, hi): its position, and what the source keeps of the range. -/
def copiedTo (s : State) (upTo lo hi : Nat) : State :=
  match s.dram.mig with
  | none => s
  | some k =>
    let here := fun (a : Nat) => decide (lo ≤ a ∧ a < hi)
    let mig := { k with
      copied := upTo,
      saved := (s.dram.errs.filter (fun e => here e.1)).foldl (fun l e => mset none l e.1 e.2) k.saved,
      kept := (s.dram.poison.filter here).foldl (fun l b => setAdd b l) k.kept }
    let d := { s.dram with
      errs := s.dram.errs.filter (fun e => !here e.1 || decide (e.2 = some uncorrectable)), mig := some mig }
    ({ s with dram := d } : State).stset 0 0x7430 0x02 (upTo * 2048)

/-- The copy of the tick that ends (R296): the target gets correctable blocks corrected and poisoned ones poisoned; the source keeps
its own bits until the switch (R299). -/
def migrationCopy (s : State) (ceiling : Nat) : State :=
  match s.dram.mig with
  | none => s
  | some m =>
    let upTo := min slotUnits (m.copied + unitsPerTick ceiling)
    let lo := dramBase + m.slot * slotBytes + m.copied * 2048
    let hi := dramBase + m.slot * slotBytes + upTo * 2048
    copiedTo (copyReads s m lo hi) upTo lo hi

/-- MIGRATION_START: at the boundary after a trigger, with a Ready spare and the DRAM in service (R295). -/
def migrationStart (s : State) : State :=
  match s.dram.trigger, s.dram.mig, s.dram.state with
  | some p, none, 2 =>
    let s0 : State := { s with dram := { s.dram with trigger := none } }
    match readySpare s0, (rankOf s0 p).slot with
    | some q, some slot =>
      if (rankOf s0 p).state = .inService then
        let s1 := setRank s0 p { rankOf s0 p with state := .migFrom }
        let s2 := setRank s1 q { rankOf s1 q with state := .migTo }
        let s3 : State := { s2 with dram := { s2.dram with mig := some (Migration.mk p q slot 0 s2.clk.tick [] [] []) } }
        ((((s3.stset 0 0x7430 0x01 1).stset 0 0x7430 0x02 0).stset 0xFF 0x7430 0x03 p).stset 0xFF 0x7430 0x04
          q).stset 0 0x7430 0x05 s3.clk.tick
      else s0
    | _, _ => s0.enter 72 p 0
  | _, _, _ => s

/-- MIGRATION_SWITCH: the boundary after the tick in which the last unit was copied (R298). -/
def migrationSwitch (s : State) : State :=
  match s.dram.mig with
  | none => s
  | some m =>
    if m.copied < slotUnits then s
    else
      let s1 := setRank s m.target { rankOf s m.target with state := .inService, slot := some m.slot, corr := [] }
      let s2 := setRank s1 m.source { rankOf s1 m.source with state := .retired, slot := none }
      let s3 : State := { s2 with dram := { s2.dram with mig := none }, nv := { s2.nv with ranks := s2.dram.ranks } }
      ((s3.stset 0 0x7430 0x01 2).stset 0 0x7430 0x06 s3.clk.tick).raise 73 (m.source * 256 + m.target) 0

/-! Scrub, spare test, training drift and mode registers (R287, R288, R292, R293) -/

/-- The patrol over `blocks` blocks of the in-service slots from its position on (R292). -/
def patrolScrub (s0 : State) (blocks : Nat) : State :=
  let total := 3 * slotBytes / 64
  let first := s0.dram.patrol
  let s := (List.range ((blocks + 3) / 4)).foldl (fun s i =>
    let a := dramBase + (first + 4 * i) % total * 64
    activate s (rankAt s a) a) s0
  let inRun := fun (w : Nat) => decide (((w - dramBase) / 64 + total - first) % total < blocks)
  let words := s.dram.errs.filter (fun e => inRun e.1)
  let hit := words.foldl (fun l e => setAdd (e.1 / 64 * 64) l) []
  let s1 := hit.foldl (fun s b =>
    if s.dram.poison.contains b then s
    else if blockBad s b then poisonBlock s b
    else
      let s2 := countCorrection s b
      { s2 with dram := { s2.dram with errs := s2.dram.errs.filter (fun e => !(decide (b ≤ e.1 ∧ e.1 < b + 64))) } }) s
  { s1 with dram := { s1.dram with patrol := (first + blocks) % total } }

/-- The spare, Ready or under test. -/
def anySpare (s : State) : Option Nat :=
  (List.range 4).find? (fun p => decide ((rankOf s p).state = .spareReady ∨ (rankOf s p).state = .spareTesting))

/-- The spare's test begins once per scrub period, at a boundary with no deep-line read waiting (R291, R293): the rank reads testing,
and is no Ready spare until the test ends. -/
def spareTestStart (s : State) : State :=
  if s.dram.state = 2 && decide (s.dram.testAt + 3000 * s.val 3600 0x7410 0x06 ≤ s.clk.tick) && !deepWaits s then
    match readySpare s with
    | some p =>
      let s1 : State := { s with dram := { s.dram with testAt := s.clk.tick } }
      setRank s1 p { rankOf s1 p with state := .spareTesting }
    | none => s
  else s

/-- The spare's test ends (R293): a spare without an error is Ready, one with an error Failed. -/
def spareTested (s : State) (pass : Bool) : State :=
  match anySpare s with
  | none => s
  | some p =>
    if pass then setRank s p { rankOf s p with state := .spareReady }
    else
      let s1 := setRank s p { rankOf s p with state := .failed }
      ({ s1 with nv := { s1.nv with ranks := s1.dram.ranks } } : State).raise 71 p 0

/-- The oscillator measurement of one rank (R287): `drift` in 1/64 UI since training; the delays follow by 1/64 UI, and a total
above 1/8 UI makes the training record stale. -/
def oscillator (s : State) (m : Nat × Nat) : State :=
  if 4 ≤ m.1 then s
  else
    let r := rankOf s m.1
    let s1 := if r.drift + 2 < m.2 then setRank s m.1 { r with drift := r.drift + 1 } else s
    if 8 < m.2 ∧ s1.stget 0 0x7440 0x09 = 0 then
      let stale := fun (t : Option Training) => t.map (fun x => { x with stale := true })
      (({ s1 with dram := { s1.dram with training := stale s1.dram.training, retTrain := stale s1.dram.retTrain },
                  nv := { s1.nv with train := stale s1.nv.train } } : State).stset 0 0x7440 0x09 1).raise 68 m.1 0
    else s1

/-- A mode-register read of every rank (R288, R294): refresh rates and whether the values read are those last written. -/
def modeRegisters (s : State) (ranks : List (Nat × Nat × Bool)) : State :=
  let worst := ranks.foldl (fun m e => max m e.2.1) 1
  let s1 := s.stset 1 0x7410 0x07 worst
  ranks.foldl (fun s e => if e.2.2 then s else triggerRank s e.1 true) s1

/-- Whether an address lies in an eighth that Parked retains (R279, R301). -/
def retained (s : State) (a : Nat) : Bool :=
  bitOf s.dram.retained (8 * slotOf a + ((a - dramBase) % slotBytes) / 0x1C000000)

/-! The commands -/

/-- LEDGER_SCRUB. -/
def execLedgerScrub (upsets : List Upset) (s : State) : Host.Outcome State Fault Refusal :=
  done (if s.ledger.ready then scrubSlot (applyUpsets s upsets) else s)

/-- REFRESH_DUE (R289): postponed while a deep-line read waits, at most eight refreshes; otherwise issued with all that are owed. -/
def execRefreshDue (deepWaiting : Bool) (s : State) : Host.Outcome State Fault Refusal :=
  done (
    if s.dram.state ≠ 2 then s
    else if deepWaiting then
      if s.dram.debt < 8 then
        let s1 : State := { s with dram := { s.dram with debt := s.dram.debt + 1 } }
        s1.stset 0 0x7410 0x08 (max (s1.stget 0 0x7410 0x08) s1.dram.debt)
      else s
    else refreshed s (s.dram.debt + 1))

/-- MODE_REGISTER_READ; no deep-line read waits while it issues (R291). -/
def execModeRegisterRead (ranks : List (Nat × Nat × Bool)) (s : State) : Host.Outcome State Fault Refusal :=
  done (if s.dram.state = 2 && !deepWaits s then modeRegisters s ranks else s)

/-- OSCILLATOR_MEASURE; no deep-line read waits while it issues (R291). -/
def execOscillatorMeasure (drifts : List (Nat × Nat)) (s : State) : Host.Outcome State Fault Refusal :=
  done (
    if s.dram.state = 2 && !deepWaits s then
      (drifts.foldl oscillator s).stset 0 0x7440 0x08 (drifts.foldl (fun m e => max m e.2) 0)
    else s)

/-- PATROL_SCRUB; no deep-line read waits while it issues (R291). -/
def execPatrolScrub (blocks : Nat) (upsets : List Upset) (s : State) : Host.Outcome State Fault Refusal :=
  done (if s.dram.state = 2 && !deepWaits s then patrolScrub (applyUpsets s upsets) blocks else s)

/-- SPARE_RANK_TEST; no deep-line read waits while it issues (R291). -/
def execSpareRankTest (pass : Bool) (s : State) : Host.Outcome State Fault Refusal :=
  done (if s.dram.state = 2 && !deepWaits s then spareTested s pass else s)

/-- The instant, in ns of the running tick, at which the idle time of 7450:03 is over. -/
def idleDue (s : State) : Int := s.dram.lastReq + s.val 10 0x7450 0x03 * 1000000 - (s.clk.local - s.clk.ofs)

/-- Whether a request to the DRAM waits for its grant. -/
def dramWanted (s : State) : Bool := s.beam.waiting.any (fun w => inDram w.req.addr)

/-- SELF_REFRESH_ENTRY (R301, R302): idle self-refresh, once the idle time is over or when it ends in the running tick, with an empty
queue; a request before the commit point abandons the entry and restarts the idle count. -/
def execSelfRefreshEntry (requested : Bool) (s : State) : Host.Outcome State Fault Refusal :=
  done (
    if s.dram.state = 2 && s.flag 0x7450 0x02 && !s.flag 0x1100 0x03 && !dramWanted s && decide (idleDue s < tickLen s.clk.tick) then
      let s0 := s.elapse (idleDue s).toNat
      let s1 := refreshed s0 s0.dram.debt
      if requested then { s1 with dram := { s1.dram with lastReq := s1.clk.local } }
      else ({ s1 with dram := { s1.dram with state := 3, rows := [] } } : State).stset 0 0x7410 0x01 3
    else s)

/-- SELF_REFRESH_EXIT (R303, R304): a request ends idle self-refresh; in Parked the exit serves a request to a retained
eighth, and the module stays Parked. -/
def execSelfRefreshExit (addr : Nat) (s : State) : Host.Outcome State Fault Refusal :=
  done (if s.dram.state = 3 && inDram addr then backInService s else s)

/-- MIGRATION_START. -/
def execMigrationStart (s : State) : Host.Outcome State Fault Refusal := done (migrationStart s)

/-- MIGRATION_SWITCH. -/
def execMigrationSwitch (s : State) : Host.Outcome State Fault Refusal := done (migrationSwitch s)

/-! Writes of the memory range (R305) -/

/-- Refusals of a write to 7420+p:06. -/
def migrateCheck (s : State) (p v : Nat) : Nat :=
  firstCode [indexOk p 4, boolOk v, need (v = 0 || decide ((rankOf s p).state = .inService)) Abort.conflict]

/-- MIGRATE_RANK: 1 triggers R294 for the rank. -/
def execMigrateRank (rank value : Nat) (s : State) : Host.Outcome State Fault Refusal :=
  done (s.attempt (0x7420 + rank) (migrateCheck s rank value) (fun t => if value = 1 then triggerRank t rank false else t))

/-- CLEAR_LEDGER_COUNTERS: 1 clears 7400:01 and 7400:02 at the next boundary. -/
def execClearLedgerCounters (value : Nat) (s : State) : Host.Outcome State Fault Refusal :=
  done (s.attempt 0x7400 (boolOk value) (fun t =>
    if value = 1 then { t with todo := { t.todo with ledger := true } } else t))

/-- CLEAR_DRAM_STATISTICS: 1 clears 7410:08, 7410:09 and 7420+p:03 at the next boundary. -/
def execClearDramStatistics (value : Nat) (s : State) : Host.Outcome State Fault Refusal :=
  done (s.attempt 0x7410 (boolOk value) (fun t =>
    if value = 1 then { t with todo := { t.todo with dram := true } } else t))

end Sys2Proof.Machine
end

