-- ==== Sys2Proof/Machine/Bus.lean ====
section
/-! DEFINITION. What every Beam access shares (R253 to R260): the priority of a master at a target, the error response, the windows
of the Rods, and the roles of the Rods (R192 to R196). -/
namespace Sys2Proof.Machine

/-! Priorities and errors -/

/-- Masters are 0 to 31 and targets 0 to 23 (R253). -/
def masters : Nat := 32

/-- The reset priority of a pair: 8 for the Reckoner, 0 for every other master (R257). -/
def priReset (k : Nat) : Nat := if k / 24 = 26 then 8 else 0

/-- The priority of master `m` at target `t` (R257). -/
def beamPri (s : State) (m t : Nat) : Nat := mget (priReset (24 * m + t)) s.beam.pri (24 * m + t)

/-- Whether the debug port is open (R505). -/
def debugOpen (s : State) : Bool := decide (s.keys.life = .blank ∨ s.keys.life = .opened)

/-- The priority of a pair, with the bars that no register lifts (R254, R507). -/
def pairPri (s : State) (m t : Nat) : Nat :=
  if t = 24 then (if m = 26 then 8 else 0)
  else if m = 31 && !debugOpen s then 0
  else beamPri s m t

/-- The source word of BEAM_ERR (R260). -/
def beamErrWord (b : Beam) : Nat :=
  b.errAddr / 2 ^ 32 % 256 + b.errMas % 32 * 2 ^ 8 + b.errCau % 8 * 2 ^ 13 + b2n b.errVal * 2 ^ 16

/-- An error response (R260): the record, its counter and its event. Causes: 1 unmapped, 2 barred, 3 bad lock, 4 lock timeout,
5 bad Tally write, 6 Rod memory busy. -/
def beamError (s : State) (m addr cause : Nat) : State :=
  let b := { s.beam with errAddr := addr % 2 ^ 40, errMas := m, errCau := cause, errVal := true }
  (((({ s with beam := b } : State).bump 0x70E0 0x01 1).stset 0 0x70E0 0x05
    (addr % 2 ^ 40 + m % 32 * 2 ^ 40 + cause % 8 * 2 ^ 45))).raise 53 (beamErrWord b) (addr % 2 ^ 32)

/-- The target of an address (R254); 24 stands for the Reckoner's private space. -/
def targetOf (a : Nat) : Option Nat :=
  if a < 0x04000000 then some (bitsOf a 13 11)
  else if 0x10000000 ≤ a ∧ a < 0x12000000 then some (15 + bitsOf a 24 22)
  else if 0x20000000 ≤ a ∧ a < 0x20044000 then some 14
  else if 0x30000000 ≤ a ∧ a < 0x30010000 then some 23
  else if 0x40000000 ≤ a ∧ a < 0x50000000 then some 12
  else if 0x50000000 ≤ a ∧ a < 0x60000000 then some 13
  else if 0x60000000 ≤ a ∧ a < 0x70000000 then some 24
  else if inDram a then some (8 + bitsOf a 9 8)
  else none

/-- Whether a burst keeps to R255: 1 to 256 bytes within one aligned 256-byte range, with data and strobes to match. -/
def burstOk (q : BeamReq) : Bool :=
  decide (q.master < 32) && decide (0 < q.len) && decide (q.addr % 256 + q.len ≤ 256) &&
    (!q.write || (decide (q.data.length = q.len) && decide (q.strobe.length = q.len)))

/-- Whether a target takes requests now: the Ledger after its initialisation (R276), the DRAM in service or self-refresh, that of
Parked among it (R304). -/
def targetReady (s : State) (t : Nat) : Bool :=
  if t < 8 then s.ledger.ready
  else if t < 12 then decide (s.dram.state = 2 ∨ s.dram.state = 3 ∨ s.dram.state = 4)
  else true

/-- Whether a master's unit is fenced from the Beam (R28): the port of a fenced Frame, or a fenced Slide engine. -/
def masterFenced (s : State) (m : Nat) : Bool :=
  (decide (m < 8) && s.sup.fences.contains (0x100 + m)) ||
    (decide (8 ≤ m ∧ m < 26) && s.sup.fences.contains (0x200 + (m - 8)))

/-- Whether back-pressure holds a PUT of a master: its one outstanding Tally transaction (R250). -/
def tallyHeld (s : State) (m : Nat) : Bool := s.tally.queues.any (fun e => e.2.held.any (fun p => decide (p.who = 64 + m)))

/-- Whether a request of master `m` to target `t` must wait: for the target, for another master's lock (R258), for its own held PUT
(R250), or for its own earlier transactions there (R256). -/
def blocked (s : State) (m t : Nat) : Bool :=
  !targetReady s t || (decide ((mget (32, 0) s.beam.locks t).1 < 32) && decide ((mget (32, 0) s.beam.locks t).1 ≠ m)) ||
    (decide (t = 14) && tallyHeld s m) ||
    s.beam.waiting.any (fun w => decide (w.req.master = m) && decide (targetOf w.req.addr = some t))

/-- A request waits for its grant. -/
def enqueue (s : State) (q : BeamReq) : State :=
  { s with beam := { s.beam with waiting := s.beam.waiting ++ [Waiting.mk q 0 false] } }

/-- Grants since the last aged one at a target; three are enough for the next (R257). -/
def sinceAged (s : State) (t : Nat) : Nat := mget 3 s.beam.grants t

/-- A grant at target `t` to master `m` noted (R257, R263): the round robin goes on after it, deep-line reads in their own. -/
def grantNoted (s : State) (t m : Nat) (deep aged : Bool) : State :=
  let b := { s.beam with
    rr := if deep then s.beam.rr else mset 31 s.beam.rr t m,
    rrDeep := if deep then mset 31 s.beam.rrDeep t m else s.beam.rrDeep,
    grants := mset 3 s.beam.grants t (if aged then 0 else min 3 (sinceAged s t + 1)) }
  { s with beam := b }

/-! Rods: windows and roles -/

/-- The Beam address of byte `a` of Rod `r`'s window (R196). -/
def rodWindow (r a : Nat) : Nat := 0x10000000 + r * 0x80000 + a

/-- The state of a Frame; unlisted Frames are in service (R193). -/
def frameOf (s : State) (f : Nat) : FrameState := mget .inService s.frames f

/-- Whether a Frame has been rotated out and waits for its user slots to move (R225): the Tally gives its Rods no item. -/
def rotatedOut (s : State) (f : Nat) : Bool :=
  match s.rot with
  | some k => decide (k.phase = 3) && decide (k.old = f)
  | none => false

/-- Whether Rod `r` can be given work: its Frame in service, itself neither fenced nor retired. -/
def rodUsable (s : State) (r : Nat) : Bool :=
  decide (frameOf s (r / 8) = .inService) && !(rotatedOut s (r / 8)) && !(s.rod r).fenced && !(s.rod r).retired

/-- Whether a Rod is the transform Rod of its Frame (R192). -/
def isTransform (r : Nat) : Bool := decide (r % 8 = 7)

/-- The role of a Rod as 7040+r:02 reports it (R194): 0 none, 1 render, 2 transform, 0x10 + u user slot. -/
def rodRole (s : State) (r : Nat) : Nat :=
  if !rodUsable s r then 0
  else if isTransform r then 2
  else
    match (s.rod r).slot with
    | some u => 0x10 + u
    | none => 1

/-- The Rods 0 to 63. -/
def allRods : List Nat := List.range 64

/-- Render Rods in service (7000:07). -/
def renderRods (s : State) : Nat := (allRods.filter (fun r => decide (rodRole s r = 1))).length

/-- Transform Rods in service (7000:08). -/
def transformRods (s : State) : Nat := (allRods.filter (fun r => decide (rodRole s r = 2))).length

/-- Frames in service. -/
def framesIn (s : State) : List Nat := (List.range 8).filter (fun f => decide (frameOf s f = .inService))

/-- The conditions of R195 for rendering at full load. -/
def computeOk (s : State) : Bool :=
  decide (6 ≤ (framesIn s).length) && decide (24 ≤ renderRods s) && decide (6 ≤ transformRods s)

/-- The compute-capacity condition (R195). -/
def judgeCompute (s : State) : State :=
  s.condition 5 (if computeOk s then (s.evSrc 5).active.headD 0 else
    (if (s.evSrc 5).active.isEmpty then renderRods s else (s.evSrc 5).active.headD 0)) (transformRods s) (!computeOk s)

/-- The spare Frame, if any; one under targeted test counts as none (R226, R500). -/
def spareFrame (s : State) : Option Nat :=
  (List.range 8).find? (fun f => decide (frameOf s f = .spare) && !s.testing (0x100 + f))

/-- A Frame's state replaced. -/
def setFrame (s : State) (f : Nat) (v : FrameState) : State := { s with frames := mset .inService s.frames f v }

end Sys2Proof.Machine
end

