-- ==== Sys2Proof/Machine/Tally.lean ====
section
/-! DEFINITION. The Tally (R234 to R252): queues, descriptors, flows, eligibility, giving, back-pressure, release and purge. -/
namespace Sys2Proof.Machine

/-! QCFG and the descriptor -/

/-- CLASS: 0 Urgent, 1 Tick, 2 Bulk, 3 Idle. -/
def Queue.cls (q : Queue) : Nat := bitsOf q.cfg.toNat 1 0

/-- TREL. -/
def Queue.trel (q : Queue) : Bool := bitOf q.cfg.toNat 2

/-- REL_OFS in ticks. -/
def Queue.relOfs (q : Queue) : Nat := bitsOf q.cfg.toNat 11 8

/-- CAP. -/
def Queue.cap (q : Queue) : Nat := bitsOf q.cfg.toNat 28 16

/-- R_REN. -/
def Queue.ren (q : Queue) : Bool := bitOf q.cfg.toNat 29

/-- R_TRN. -/
def Queue.trn (q : Queue) : Bool := bitOf q.cfg.toNat 30

/-- The writable fields of QCFG. -/
def qcfgMask (v : Nat) : Word := BitVec.ofNat 32 v &&& 0x7FFF0F07#32

/-- A little-endian field of a descriptor (R237). -/
def descField (d : List Byte) (off n : Nat) : Nat := leNat (slice d off n)

/-- FLOW bits [9:0]. -/
def descFlow (d : List Byte) : Nat := descField d 0 2 % 1024

/-- F: the item belongs to the flow. -/
def descF (d : List Byte) : Bool := bitOf (descField d 0 2) 15

/-- STAGE. -/
def descStage (d : List Byte) : Nat := descField d 2 1

/-- BLOCK. -/
def descBlock (d : List Byte) : Nat := descField d 4 8

/-- Whether the Tally takes a descriptor (R238). -/
def descOk (d : List Byte) : Bool := decide (descStage d ≤ 5) && decide (bitsOf (descField d 0 2) 14 10 = 0)

/-- The capacities of all queues but `q`. -/
def otherCaps (s : State) (q : Nat) : Nat :=
  (s.tally.queues.filter (fun e => decide (e.1 ≠ q))).foldl (fun n e => n + e.2.cap) 0

/-- A queue's configuration by the module or by a master (R234): refused and counted where it breaks the sum of capacities
or changes a queue that holds items. -/
def qcfgSet (s : State) (q v : Nat) : State :=
  let old := s.queue q
  let new := { old with cfg := qcfgMask v }
  if 4096 < otherCaps s q + new.cap || (!old.items.isEmpty && decide (new.cfg ≠ old.cfg)) then s.bump 0x70C0 0x06 1
  else s.setQueue q new

/-! Eligibility (R239, R244) -/

/-- Every item held, with its queue. -/
def heldItems (s : State) : List Item := s.tally.queues.flatMap (fun e => e.2.items)

/-- A flow. -/
def flowOf (s : State) (n : Nat) : Flow := mget (Flow.mk 0 false false) s.tally.flows n

/-- The Rods that serve an item of flow `n`. -/
def flowServers (s : State) (n : Nat) : List Nat :=
  (s.rods.filter (fun e =>
    match e.2.item with
    | some it => descF it.desc && decide (descFlow it.desc = n)
    | none => false)).map (fun e => e.1)

/-- Whether an item is the oldest held item of its flow (R244). -/
def oldestOfFlow (s : State) (it : Item) : Bool :=
  !(heldItems s).any (fun j => descF j.desc && decide (descFlow j.desc = descFlow it.desc) && decide (j.num < it.num))

/-- The queues that a Rod's TAKE of list `k` reads (R239, R242). -/
def listMask (s : State) (r k : Nat) : Nat :=
  match (s.rod r).slot with
  | some u => if k = 0 then 2 ^ (48 + u) else 0
  | none => (mget 0#64 s.tally.lists (16 * (r / 8) + k)).toNat % 2 ^ 48

/-- Whether the role mask of a queue allows a Rod. -/
def roleAllowed (s : State) (r : Nat) (q : Queue) : Bool :=
  match rodRole s r with
  | 0 => false
  | 1 => q.ren
  | 2 => q.trn
  | _ => true

/-- Whether an item of queue number `qn` is eligible for Rod `r` taking from list `k` (R239). -/
def eligible (s : State) (r k qn : Nat) (it : Item) : Bool :=
  it.released && bitOf (listMask s r k) qn && roleAllowed s r (s.queue qn) && !bitOf s.tally.excl.toNat r &&
  (!descF it.desc ||
    (oldestOfFlow s it && (flowServers s (descFlow it.desc)).isEmpty && !(flowOf s (descFlow it.desc)).hold &&
      (!(flowOf s (descFlow it.desc)).pinned || decide ((flowOf s (descFlow it.desc)).pinRod = r))))

/-- The queues of a class after the one last served for a Frame port, in round-robin order (R240). -/
def classOrder (s : State) (port cls : Nat) : List Nat :=
  let last := mget 63 s.tally.rr (4 * port + cls)
  ((List.range 64).map (fun i => (last + 1 + i) % 64)).filter (fun q => decide ((s.queue q).cls = cls))

/-- The queue and item that the Tally gives Rod `r` for list `k` (R240). -/
def pick (s : State) (r k : Nat) : Option (Nat × Item) :=
  ([0, 1, 2, 3].flatMap (classOrder s (r / 8))).findSome? (fun qn =>
    ((s.queue qn).items.find? (eligible s r k qn)).map (fun it => (qn, it)))

/-- The give of an item (R216, R240): it leaves its queue, its descriptor goes to the Rod's data memory at `an`, and the Rod
continues after its TAKE. -/
def give (s : State) (r an : Nat) (e : Nat × Item) : State :=
  let q := s.queue e.1
  let s1 := s.setQueue e.1 { q with items := q.items.filter (fun j => decide (j.num ≠ e.2.num)) }
  let rod := s1.rod r
  let s2 := s1.setRod r { rod with
    st := .running, wait := none, pc := (rod.pc + 1) % 8192, item := some { e.2 with queue := e.1 }, ending := none,
    itemCyc := rod.cyc.toNat, itemAt := s.clk.local, bytes := 0, errs := (wordsOf an 32).foldl (fun m w => mset none m w none) rod.errs }
  { s2 with
    mem := memWrite s2.mem (rodWindow r an) (slice e.2.desc 0 32),
    tally := { s2.tally with rr := mset 63 s2.tally.rr (4 * (r / 8) + q.cls) e.1 } }

/-- What a Rod waiting in TAKE would be given now, with the address for its descriptor; none while its previous item has not
ended. -/
def offer (s : State) (r : Nat) : Option (Nat × (Nat × Item)) :=
  let rod := s.rod r
  match rod.st, rod.wait, rod.item with
  | .waiting, some (.take k an), none => (pick s r k).map (fun e => (an, e))
  | _, _, _ => none

/-- A Rod waiting in TAKE is given its item where one is eligible. -/
def giveIfAny (s : State) (r : Nat) : State :=
  match offer s r with
  | some e => give s r e.1 e.2
  | none => s

/-- The Rods in the order in which the Tally gives (R241): Frame ports rotating, Rods in ascending position. -/
def giveOrder (s : State) : List Nat :=
  (List.range 8).flatMap (fun i => (List.range 8).map (fun m => 8 * ((s.tally.takeRot + i) % 8) + m))

/-- The first waiting Rod for which an item is eligible is given it; the next give starts at the following port. -/
def tallyGive (s : State) : State :=
  match (giveOrder s).find? (fun r => (offer s r).isSome) with
  | some r =>
    let s1 := giveIfAny s r
    { s1 with tally := { s1.tally with takeRot := (r / 8 + 1) % 8 } }
  | none => s

/-! PUT and back-pressure (R247 to R251) -/

/-- What the Tally answers to a PUT. -/
inductive PutAnswer where
  | accepted
  | held
  | refused
  deriving DecidableEq, Repr

/-- Whether an item of a queue is released in tick `k` (R251). -/
def releasedAt (q : Queue) (d : List Byte) (k : Nat) : Bool := !q.trel || decide (descBlock d + q.relOfs ≤ k)

/-- An item accepted into its queue. -/
def accept (s : State) (qn : Nat) (desc : List Byte) : State :=
  let q := s.queue qn
  let it : Item := Item.mk s.tally.nextNum qn desc (releasedAt q desc s.clk.tick)
  let s1 := s.setQueue qn { q with items := q.items ++ [it] }
  let s2 : State := { s1 with tally := { s1.tally with nextNum := s1.tally.nextNum + 1 } }
  let held := (heldItems s2).length
  s2.stset 0 0x70C0 0x02 (max held (s2.stget 0 0x70C0 0x02))

/-- A PUT of a descriptor by a Rod (`who` below 64) or by Beam master m (64 + m). -/
def tallyPut (s : State) (qn who : Nat) (desc : List Byte) : State × PutAnswer :=
  let q := s.queue qn
  if !descOk desc then ((s.bump 0x70C0 0x06 1).raise 48 qn 0, .refused)
  else if q.cap = 0 then
    let s1 := s.bump 0x70C0 0x06 1
    (if who < 64 then s1.raise 48 qn 0 else s1, .refused)
  else if q.items.length < q.cap && q.held.isEmpty then (accept s qn desc, .accepted)
  else (s.setQueue qn { q with held := q.held ++ [Producer.mk who desc false] }, .held)

/-- A Rod goes on after the PUT that waited (R220). -/
def Rod.resumed (r : Rod) : Rod :=
  { r with
    st := .running, wait := none, pc := (r.pc + 1) % 8192, cyc := r.cyc + 1, hzA2 := r.hzA1, hzA1 := [], hzAr := [], hzSr := false }

/-- The oldest producer held at a queue with room is accepted (R248). -/
def putAccepted (s : State) (qn : Nat) : State :=
  let q := s.queue qn
  match q.held with
  | [] => s
  | p :: rest =>
    if q.items.length < q.cap then
      let s1 := accept (s.setQueue qn { q with held := rest }) qn p.desc
      if p.who < 64 then s1.setRod p.who (s1.rod p.who).resumed else s1
    else s

/-- The PUTs that a producer has held withdrawn. -/
def dropHeld (s : State) (who : Nat) : State :=
  let held := fun (q : Queue) => q.held.filter (fun p => decide (p.who ≠ who))
  let queues := s.tally.queues.map (fun e => (e.1, { e.2 with held := held e.2 }))
  { s with tally := { s.tally with queues := queues } }

/-- The Beam master number of a producer: a Rod's is that of its Frame port. -/
def producerMaster (who : Nat) : Nat := if who < 64 then who / 8 else who - 64

/-- A producer held for 100,000 ns (R250). -/
def backpressureLong (s : State) (qn who : Nat) : State :=
  let q := s.queue qn
  if q.held.any (fun p => decide (p.who = who) && !p.long) then
    let s1 := s.setQueue qn { q with held := q.held.map (fun p => if p.who = who then { p with long := true } else p) }
    (s1.bump 0x70C0 0x05 1).raise 50 (producerMaster who) 0
  else s

/-- The release of tick-released items at a boundary (R251). -/
def releaseItems (s : State) : State :=
  let items := fun (q : Queue) => q.items.map (fun it =>
    if releasedAt q it.desc s.clk.tick then { it with released := true } else it)
  let queues := s.tally.queues.map (fun e => (e.1, { e.2 with items := items e.2 }))
  { s with tally := { s.tally with queues := queues } }

/-- A write of TALLY_PURGE (R252): stage in [2:0], block in [63:8]. -/
def purge (s : State) (stage block : Nat) : State :=
  let hit := fun (it : Item) => decide (descStage it.desc = stage) && decide (descBlock it.desc % 2 ^ 56 = block)
  let n := ((heldItems s).filter hit).length
  if stage = 0 || n = 0 then s
  else
    let kept := s.tally.queues.map (fun e => (e.1, { e.2 with items := e.2.items.filter (fun it => !hit it) }))
    ({ s with tally := { s.tally with queues := kept } } : State).bump 0x70C0 0x04 n

/-- The burst that writes the Tally at `addr`. -/
def tallyBurst (m addr : Nat) (data : List Byte) : BeamReq :=
  BeamReq.mk m addr true data.length data (List.replicate data.length true) false false

/-- A write that the module's own hardware makes to the Tally (R252, R396): granted at once unless it must wait or another request waits
there, and barred like any other (R257). -/
def engineWrite (s : State) (q : BeamReq) (effect : State → State) : State :=
  if pairPri s q.master 14 = 0 then beamError s q.master q.addr 2
  else if blocked s q.master 14 || s.beam.waiting.any (fun w => decide (targetOf w.req.addr = some 14)) then enqueue s q
  else effect (grantNoted s 14 q.master false false)

/-- The Reckoner's write of a stage and block to TALLY_PURGE at a stage deadline (R252). -/
def stagePurge (s : State) (stage block : Nat) : State :=
  engineWrite s (tallyBurst 26 0x20043000 (leBytes 8 (stage + block % 2 ^ 56 * 2 ^ 8))) (fun t => purge t stage (block % 2 ^ 56))

/-- The purge of a stage `lag` ticks behind ingress: in a tick with no such block there is none. -/
def deadlinePurge (s : State) (stage lag : Nat) : State := if lag ≤ s.clk.tick then stagePurge s stage (s.clk.tick - lag) else s

/-- The flow entry as it reads (R245). -/
def flowWord (s : State) (n : Nat) : Nat :=
  let f := flowOf s n
  let on := flowServers s n
  f.pinRod + b2n f.pinned * 2 ^ 6 + b2n f.hold * 2 ^ 7 + b2n (!on.isEmpty) * 2 ^ 8 + on.headD 0 * 2 ^ 9

/-- QSTAT as it reads. -/
def qstatWord (q : Queue) : Nat :=
  q.items.length + (q.items.filter (fun it => !it.released)).length * 2 ^ 13 + b2n (!q.held.isEmpty) * 2 ^ 26

/-- A flow entry written. -/
def flowWrite (s : State) (n v : Nat) : State :=
  let flows := mset (Flow.mk 0 false false) s.tally.flows n (Flow.mk (bitsOf v 5 0) (bitOf v 6) (bitOf v 7))
  { s with tally := { s.tally with flows := flows } }

/-- TALLY_EXCL written; 70C0:07 reads it. -/
def exclWrite (s : State) (v : Nat) : State :=
  ({ s with tally := { s.tally with excl := BitVec.ofNat 64 v } } : State).stset 0 0x70C0 0x07 (v % 2 ^ 64)

/-- Rods excluded by TALLY_EXCL (R246). -/
def exclude (s : State) (mask : Nat) : State := exclWrite s (Nat.lor s.tally.excl.toNat mask)

/-- The exclusion of Rods ends. -/
def unexclude (s : State) (mask : Nat) : State := exclWrite s (s.tally.excl.toNat - Nat.land s.tally.excl.toNat mask)

/-- A PUT-window burst from a Beam master (R247 to R249), and what the Tally answers. -/
def putWindow (s : State) (m qn offset : Nat) (data : List Byte) : State × PutAnswer :=
  let addr := 0x20000000 + qn * 0x1000 + offset
  if pairPri s m 14 = 0 then (beamError s m addr 2, .refused)
  else if offset ≠ 0 || data.length ≠ 32 then (beamError s m addr 5, .refused)
  else
    let (s1, a) := tallyPut s qn (64 + m) data
    match a with
    | .refused => (beamError s1 m addr 5, .refused)
    | _ => (s1, a)

/-! The Urgent item of a drive channel (R396) -/

/-- The queue that takes the drive engines' items: the lowest of the render firmware's queues of class Urgent with a capacity. DESIGN
CHOICE (assumption 49). -/
def urgentQueue (s : State) : Option Nat :=
  (List.range 48).find? (fun q => decide ((s.queue q).cls = 0) && decide ((s.queue q).cap ≠ 0))

/-- The descriptor of channel `n`'s item: no flow and no stage, the engines' own work code, and the channel number as its argument. -/
def driveDesc (n block : Nat) : List Byte :=
  [0#8, 0#8, 0#8, Config.driveKind] ++ leBytes 8 block ++ leBytes 4 n ++ List.replicate 16 0#8

/-- The drive engines put the item of channel `n` (R396): none where no queue is Urgent. -/
def drivePut (s : State) (n : Nat) : State :=
  match urgentQueue s with
  | some q =>
    let d := driveDesc n s.clk.tick
    engineWrite s (tallyBurst 29 (0x20000000 + q * 0x1000) d) (fun t => (putWindow t 29 q 0 d).1)
  | none => s

/-- The oldest released item of channel `n` that its queue holds. -/
def driveItem (s : State) (n : Nat) : Option Item :=
  (heldItems s).find? (fun it => it.released && decide (it.desc = driveDesc n (descBlock it.desc)))

/-- An item that leaves its queue. -/
def dropItem (s : State) (it : Item) : State :=
  let q := s.queue it.queue
  s.setQueue it.queue { q with items := q.items.filter (fun j => decide (j.num ≠ it.num)) }

/-! The commands -/

/-- TALLY_GIVE. -/
def execTallyGive (s : State) : Host.Outcome State Fault Refusal := done (tallyGive s)

/-- PUT_ACCEPTED. -/
def execPutAccepted (queue : Nat) (s : State) : Host.Outcome State Fault Refusal := done (putAccepted s queue)

/-- BACKPRESSURE_LONG. -/
def execBackpressureLong (queue : Nat) (producer : Nat) (s : State) : Host.Outcome State Fault Refusal :=
  done (backpressureLong s queue producer)

/-- FLOW_WRITE. -/
def execFlowWrite (flow value : Nat) (s : State) : Host.Outcome State Fault Refusal :=
  done (if flow < 1024 then flowWrite s flow value else s)

/-- TALLY_EXCL_WRITE. -/
def execTallyExclWrite (value : Nat) (s : State) : Host.Outcome State Fault Refusal := done (exclWrite s value)

/-- CLEAR_TALLY_STATISTICS: 1 clears 70C0:02 to 70C0:06 at the next boundary (R268). -/
def execClearTallyStatistics (value : Nat) (s : State) : Host.Outcome State Fault Refusal :=
  done (s.attempt 0x70C0 (boolOk value) (fun t =>
    if value = 1 then { t with todo := { t.todo with tally := true } } else t))

end Sys2Proof.Machine
end

