-- ==== Sys2Proof/Machine/Placement.lean ====
section
/-! DEFINITION. The Placement stage (R101 to R131, R142 to R148): keyframes and trajectories, the three laws, active sets,
crosspoints and their capacity, the miss sequence, and the assignment of feeds to Slide engines. -/
namespace Sys2Proof.Machine

/-! Keyframes (R107 to R110) -/

/-- An object replaced. -/
def setObj (s : State) (o : Nat) (v : Obj) : State :=
  { s with pipe := { s.pipe with objs := mset Obj.init s.pipe.objs o v } }

/-- A keyframe on its way to its arrival block. -/
def arrive (s : State) (block : Nat) (dict : Bool) (slot seq : Nat) (k : Keyframe) : State :=
  { s with pipe := { s.pipe with arrivals := s.pipe.arrivals ++ [⟨block, dict, slot, seq, k⟩] } }

/-- The records of a Placement packet that a slot took: a malformed one is discarded, counted and reported where `counts` (R107). -/
def takeRecords (s : State) (block slot seq : Nat) (counts : Bool) : List (List Byte) → State
  | [] => s
  | b :: r =>
    match keyframeOf b with
    | some k => takeRecords (arrive s block false slot seq k) block slot seq counts r
    | none => takeRecords (if counts then (s.bump 0x3801 0x09 1).raise 32 (beAt b 0 2) 0 else s) block slot seq counts r

/-- The order of arrivals (R109): by block, stream before dictionary, by sequence number, then as received. Sequence numbers are
compared as they stand, also where they wrap at 2^32 within a block: DESIGN CHOICE (assumption 98). -/
def arrivesBefore (a b : KfArrival) : Bool :=
  if a.block ≠ b.block then decide (a.block < b.block)
  else if a.dict ≠ b.dict then b.dict
  else decide (a.seq < b.seq)

/-- A queue with a keyframe of a new time put in its place (R110). -/
def insertKey (k : Keyframe) : List Keyframe → List Keyframe
  | [] => [k]
  | h :: t => if k.tau < h.tau then k :: h :: t else h :: insertKey k t

/-- A keyframe arrives at its object's queue, by the first rule of R110 that matches. -/
def queueKey (s : State) (k : Keyframe) : State :=
  let o := s.obj k.object
  let obsolete := match o.lastTau with
    | some t => decide (k.tau ≤ t)
    | none => false
  if obsolete then (s.bump (0x3000 + k.object) 0x0D 1).bump 0x3801 0x07 1
  else if o.queue.any (fun q => decide (q.tau = k.tau)) then
    setObj s k.object { o with queue := o.queue.map (fun q => if q.tau = k.tau then k else q) }
  else if o.queue.length ≥ 16 then (s.bump 0x3801 0x08 1).raise 33 k.object 0
  else setObj s k.object { o with queue := insertKey k o.queue }

/-- Whether a keyframe comes from the source chosen for its object (R108), with the values `d` in force for its block: the dictionary,
or the Placement stream of the slot that 3800:01 names. -/
def chosenSource (d : SMap Nat) (a : KfArrival) : Bool :=
  if a.dict then decide (ent d 0 (0x3000 + a.kf.object) 0x03 = 1)
  else decide (ent d 0 (0x3000 + a.kf.object) 0x03 ≠ 1) && decide (ent d 255 0x3800 0x01 = a.slot)

/-- The keyframes whose arrival block is `t` or earlier enter their queues; those of the source not chosen are ignored
(R108, R109). -/
def drainArrivals (s : State) (t : Nat) : State :=
  let due := sortBy arrivesBefore (s.pipe.arrivals.filter (fun a => decide (a.block ≤ t)))
  let s1 : State := { s with pipe := { s.pipe with
    arrivals := s.pipe.arrivals.filter (fun a => !(decide (a.block ≤ t))),
    drained := if s.twin.sync = 1 then s.pipe.drained ++ due else s.pipe.drained } }
  due.foldl (fun s a => if chosenSource (s.dictAt 1) a then queueKey s a.kf else s) s1

/-! Trajectories (R111, R112) -/

/-- One interpolated value (R111): exact floor division. DESIGN CHOICE (log 135): after a backward rebase `tau` can lie at or before the
anchor, against R111's `B.tau > t >= anchor.tau`; the division by 0 then gives the anchor's value, and one by a negative number is that
of `fdiv`. -/
def interpolate (v b : Int) (t anchorT tau : Int) : Int := v + fdiv ((b - v) * (t - anchorT)) (tau - anchorT)

/-- An object evaluated at a boundary of network time `t` (R111): the object, whether it jumps, and how many keyframes were
late against the last boundary evaluated. -/
def evalObj (o : Obj) (t : Int) (prevT : Option Int) : Obj × Bool × Nat :=
  let eaten := o.queue.filter (fun k => decide (k.tau ≤ t))
  let queue := o.queue.filter (fun k => !(decide (k.tau ≤ t)))
  let late := match prevT with
    | some p => (eaten.filter (fun k => decide (k.tau ≤ p))).length
    | none => 0
  let jump := match eaten.getLast? with
    | none => false
    | some a => eaten.any (fun k => k.jump) || (o.placed && decide (a.law ≠ o.law))
  let o1 := match eaten.getLast? with
    | none => { o with queue := queue }
    | some a => { o with
        queue := queue, placed := true, law := a.law, zones := a.zones, anchorT := a.tau, x := a.x, y := a.y, z := a.z,
        gain := a.gain, spread := a.spread, lastTau := some a.tau }
  let o2 := match queue with
    | b :: _ =>
      if o1.placed && !jump then
        { o1 with
          x := interpolate o1.x b.x t o1.anchorT b.tau, y := interpolate o1.y b.y t o1.anchorT b.tau,
          z := interpolate o1.z b.z t o1.anchorT b.tau, gain := interpolate o1.gain b.gain t o1.anchorT b.tau,
          spread := interpolate o1.spread b.spread t o1.anchorT b.tau }
      else o1
    | [] => o1
  (if o2.placed then { o2 with anchorT := t } else o2, jump, late)

/-! The laws (R113 to R122) -/

/-- What a law asks of one pair: feed, delay before its upper clamp is judged, and gain. -/
structure Target where
  f    : Nat
  d    : Int
  g    : Int
  cut  : Bool
  deriving DecidableEq, Repr

/-- P_eff (R114). -/
def delayPerMm (d : SMap Nat) (sigma : Int) : Int :=
  shr ((mediaRate d * 2 ^ 32 / max 1 (ent d 343000 0x3800 0x02) : Nat) * sigma) 30

/-- A delay between the interpolator's look-ahead and the format's end (R121). -/
def clampDelay (x : Int) : Int := satTo 49152 (2 ^ 32 - 1) x

/-- The default of a coverage point (R117). -/
def coverageDefault (k i : Nat) : Nat := if k = 1 then i * 2 ^ 27 else 2 ^ 31

/-- W_k[i] (R117). -/
def coveragePoint (d : SMap Nat) (k i : Nat) : Int := (ent d (coverageDefault k i) (0x3820 + k) (i + 1) : Nat)

/-- The coverage weight of class k at cosine c (R117). -/
def coverage (d : SMap Nat) (k : Nat) (c : Int) : Int :=
  let qc := (c + 2 ^ 31).toNat
  let i := qc / 2 ^ 28
  let w := coveragePoint d k i
  w + shr ((coveragePoint d k (i + 1) - w) * ((qc % 2 ^ 28 : Nat) : Int)) 28

/-- A signed 32-bit entry. -/
def entI (d : SMap Nat) (dflt index sub : Nat) : Int := toSigned 32 (ent d dflt index sub)

/-- The zone of a feed (R103). -/
def feedZone (d : SMap Nat) (f : Nat) : Nat := ent d 0 (0x3400 + f) 0x09

/-- Z_g(z) (R115). -/
def zoneGain (d : SMap Nat) (z : Nat) : Int := entI d 0x10000000 (0x3840 + z) 0x01

/-- The vector from a feed to an object, in mm (R113). -/
def offsetFrom (d : SMap Nat) (o : Obj) (f : Nat) : Int × Int × Int :=
  (o.x - entI d 0 (0x3400 + f) 0x02, o.y - entI d 0 (0x3400 + f) 0x03, o.z - entI d 0 (0x3400 + f) 0x04)

/-- q (R113). -/
def squared (u : Int × Int × Int) : Int := u.1 * u.1 + u.2.1 * u.2.1 + u.2.2 * u.2.2

/-- d (R113). -/
def distance (u : Int × Int × Int) : Int := (isqrt (squared u).toNat : Nat)

/-- d_eff (R113). -/
def spreadDistance (u : Int × Int × Int) (r : Int) : Int := (isqrt (squared u + r * r).toNat : Nat)

/-- g1 (R115). -/
def objectGain (d : SMap Nat) (no : Nat) (o : Obj) : Int :=
  sat32 (shr (o.gain * entI d 0x10000000 (0x3000 + no) 0x04) 28)

/-- D_obj (R116). -/
def fixedDelay (d : SMap Nat) (no : Nat) : Int := (ent d 0 (0x3000 + no) 0x05 : Nat)

/-- The Point law (R116). -/
def pointTarget (d : SMap Nat) (pEff : Int) (zoff : SMap Int) (no : Nat) (o : Obj) (f : Nat) : Target :=
  let u := offsetFrom d o f
  let dist := distance u
  let z := feedZone d f
  let raw := shr (dist * pEff) 18 - (ent d 0 0x3800 0x09 : Nat) + mget 0 zoff z + fixedDelay d no
  let a := sat32 (fdiv ((ent d 10000 0x3800 0x05 : Nat) * 2 ^ 28)
    (max (spreadDistance u o.spread) (ent d 1000 0x3800 0x06 : Nat)))
  let c := if 0 < dist then
      sat32 (fdiv (entI d 0 (0x3400 + f) 0x05 * u.1 + entI d 0 (0x3400 + f) 0x06 * u.2.1
        + entI d 0 (0x3400 + f) 0x07 * u.2.2) dist)
    else 2 ^ 31 - 1
  let w := coverage d (ent d 0 (0x3400 + f) 0x08) c
  let g2 := sat32 (shr (objectGain d no o * a) 28)
  let g3 := sat32 (shr (g2 * w) 31)
  ⟨f, clampDelay raw, sat32 (shr (g3 * zoneGain d z) 28), decide (2 ^ 32 - 1 < raw)⟩

/-- The feeds that the Pan law takes: the K nearest, ties to the lower number (R118). -/
def nearest (d : SMap Nat) (o : Obj) (cands : List Nat) : List Nat :=
  ((sortBy (fun a b => decide (a.1 < b.1)) (cands.map (fun f => (distance (offsetFrom d o f), f)))).take
    (ent d 3 0x3800 0x07)).map (fun e => e.2)

/-- The Pan law (R118). -/
def panTargets (d : SMap Nat) (no : Nat) (o : Obj) (cands : List Nat) : List Target :=
  let taken := (nearest d o cands).map (fun f =>
    (f, fdiv (2 ^ 62) (max (spreadDistance (offsetFrom d o f) o.spread) 1)))
  let total : Int := (isqrt (isum (taken.map (fun e => e.2 * e.2))).toNat : Nat)
  let g1 := objectGain d no o
  taken.map (fun e =>
    ⟨e.1, clampDelay (fixedDelay d no),
      sat32 (shr (sat32 (fdiv (g1 * e.2) total) * zoneGain d (feedZone d e.1)) 28), false⟩)

/-- The Zone law (R119). -/
def zoneTargets (d : SMap Nat) (no : Nat) (o : Obj) (cands : List Nat) : List Target :=
  let g1 := objectGain d no o
  cands.map (fun f =>
    ⟨f, clampDelay (fixedDelay d no), sat32 (shr (g1 * zoneGain d (feedZone d f)) 28), false⟩)

/-- The candidates of an object: enabled feeds of its zones (R103, R120). -/
def candidates (d : SMap Nat) (o : Obj) (feeds : List Nat) : List Nat :=
  feeds.filter (fun f => bitOf o.zones (feedZone d f))

/-- The active set of an object, whether it was truncated to M, and the pairs whose delay was clamped above (R121, R123). Pan feeds
stand nearest first where K exceeds M: R123 states no order for them (DESIGN CHOICE, assumption 98). -/
def activeSet (d : SMap Nat) (pEff : Int) (zoff : SMap Int) (no : Nat) (o : Obj) (feeds : List Nat) :
    List Target × Bool × Nat :=
  let cands := candidates d o feeds
  let m := ent d 128 0x3800 0x04
  let thr : Int := (ent d 256 0x3800 0x08 : Nat)
  match o.law with
  | 1 =>
    let all := cands.map (pointTarget d pEff zoff no o)
    let q := sortBy (fun a b => decide (iabs b.g < iabs a.g))
      (all.filter (fun t => decide (t.g ≠ 0) && decide (thr ≤ iabs t.g)))
    (q.take m, decide (m < q.length), (all.filter (fun t => t.cut)).length)
  | 2 =>
    let q := (panTargets d no o cands).filter (fun t => decide (t.g ≠ 0))
    (q.take m, decide (m < q.length), 0)
  | _ =>
    let q := zoneTargets d no o cands
    (q.take m, decide (m < q.length), 0)

/-! Crosspoints (R124 to R130) -/

/-- The crosspoint that a pair had in the last block, unless it was leaving there. -/
def liveOf (prev : List Crosspoint) (o : Nat) : List Crosspoint :=
  prev.filter (fun x => decide (x.o = o) && decide (x.kind ≠ .leaving))

/-- A crosspoint that leaves (R124). -/
def leaveXp (x : Crosspoint) : Crosspoint := ⟨x.o, x.f, .leaving, x.d1, x.d1, x.g1, 0⟩

/-- A crosspoint held in the first missed block (R127). -/
def holdXp (x : Crosspoint) : Crosspoint := ⟨x.o, x.f, .continuing, x.d1, x.d1, x.g1, x.g1⟩

/-- The crosspoint that a target asks for: continuing under the slope limit of R125, or entering (R124). -/
def requestXp (n : Nat) (live : List Crosspoint) (o : Nat) (t : Target) : Crosspoint :=
  match live.find? (fun x => decide (x.f = t.f)) with
  | some x => ⟨o, t.f, .continuing, x.d1, x.d1 + satTo (-(2048 * (n : Int))) (2048 * n) (t.d - x.d1), x.g1, t.g⟩
  | none => ⟨o, t.f, .entering, t.d, t.d, 0, t.g⟩

/-- The rank of a requested pair (R128). -/
def ranksBefore (a b : Crosspoint) : Bool :=
  if iabs a.g1 ≠ iabs b.g1 then decide (iabs b.g1 < iabs a.g1)
  else if a.o ≠ b.o then decide (a.o < b.o)
  else decide (a.f < b.f)

/-- Steps 2 to 5 of R128 over the ranked pairs: `wanted` pairs are still wanted and `free` slots are free; answers the
crosspoints rendered, the displaced and the deferred. -/
def admitPairs : Nat → Nat → List Crosspoint → List Crosspoint × Nat × Nat
  | _, _, [] => ([], 0, 0)
  | wanted, free, x :: r =>
    match x.kind with
    | .continuing =>
      let (l, a, b) := admitPairs (wanted - 1) free r
      if 0 < wanted then (x :: l, a, b) else (⟨x.o, x.f, .leaving, x.d0, x.d0, x.g0, 0⟩ :: l, a + 1, b)
    | _ =>
      if 0 < wanted && 0 < free then
        let (l, a, b) := admitPairs (wanted - 1) (free - 1) r
        (x :: l, a, b)
      else
        let (l, a, b) := admitPairs (wanted - 1) free r
        (l, a, b + 1)

/-- The crosspoints of a block under the limit L (R128): those rendered, the displaced and the deferred. -/
def capacity (limit : Nat) (leaving requested : List Crosspoint) : List Crosspoint × Nat × Nat :=
  if leaving.length + requested.length ≤ limit then (leaving ++ requested, 0, 0)
  else
    let cont := (requested.filter (fun x => decide (x.kind = .continuing))).length
    let (l, a, b) := admitPairs (limit - leaving.length) (limit - leaving.length - cont) (sortBy ranksBefore requested)
    (leaving ++ l, a, b)

/-- The order of rendering: by feed, within a feed by object (R132, R140). -/
def renderBefore (a b : Crosspoint) : Bool :=
  if a.f ≠ b.f then decide (a.f < b.f) else decide (a.o < b.o)

/-! The stage at a tick boundary (R33, R111, R127) -/

/-- What the stage has gathered over the objects: leaving and requested crosspoints, clamped pairs, truncated objects. -/
structure Gather where
  leaving   : List Crosspoint
  requested : List Crosspoint
  clamped   : Nat
  truncated : List Nat
  deriving DecidableEq, Repr

/-- One object in the stage of a block (R111, R124, R127), as if the stage completes it by its deadline. While the object is silent
in its miss sequence and at a jump it has no active set, and 3000+o:0B reads 0: DESIGN CHOICE (assumption 98). -/
def placeObj (t : Int) (prevT : Option Int) (pEff : Int) (n : Nat) (feeds : List Nat) (acc : State × Gather) (no : Nat) :
    State × Gather :=
  let (s, g) := acc
  let d := s.dictAt 1
  let (o, jump, late) := evalObj (s.obj no) t prevT
  let s1 := if late = 0 then s else
    ((List.range late).foldl (fun s _ => s.raise 34 no 0)
      ((s.bump (0x3000 + no) 0x0D late).bump 0x3801 0x07 late))
  let live := liveOf s.pipe.xprev no
  let ready := o.placed && !jump && decide (ent d 0 (0x3000 + no) 0x01 ≠ 0)
  match o.pfade with
  | .silent 0 | .silent 1 =>
    let o' := { o with pfadeB := o.pfade, pleaveB := o.pleave, pfade := fadeNext o.pfade false, pleave := false,
                       active := 0 }
    (setObj s1 no o', if o.pleave then { g with leaving := g.leaving ++ live.map leaveXp } else g)
  | _ =>
    let (targets, trunc, cut) := if ready then activeSet d pEff s.drift.zoff no o feeds else ([], false, 0)
    let o' := { o with pfadeB := o.pfade, pleaveB := false, pfade := .ok, pleave := false, active := targets.length }
    let gone := live.filter (fun x => !(targets.any (fun q => decide (q.f = x.f))))
    (setObj s1 no o', {
      leaving := g.leaving ++ gone.map leaveXp,
      requested := g.requested ++ targets.map (requestXp n live no),
      clamped := g.clamped + cut,
      truncated := if trunc then g.truncated ++ [no] else g.truncated })

/-- The objects that have state or a crosspoint. -/
def objectsOf (s : State) : List Nat :=
  s.pipe.xprev.foldl (fun l x => setAdd x.o l) (s.pipe.objs.map (fun e => e.1))

/-- The crosspoint counters of a block that is rendered (R147, R148): `xs` are its crosspoints in the feeds rendered; a feed in
`missed` keeps the count of the last block that it rendered. -/
def countCrosspoints (s : State) (xs : List Crosspoint) (missed : List Nat) : State :=
  let cleared : State := { s with stat := s.stat.filter (fun e =>
    !(decide (e.1 % 256 = 0x0A ∧ key 0x3400 0 ≤ e.1 ∧ e.1 < key 0x3600 0) && !missed.contains (e.1 / 256 - 0x3400))) }
  let s1 := xs.foldl (fun s x => s.bump (0x3400 + x.f) 0x0A 1) cleared
  let c := xs.length
  (s1.stset 0 0x3801 0x01 c).stset 0 0x3801 0x02 (max c (s1.stget 0 0x3801 0x02))

/-- The Placement stage of block X − 1, at boundary t_X (R33, R111 to R130): every object evaluated, the crosspoints of the
block formed under the limit, events and counters. Event 35 names the first object truncated in object order, and what the deadline
later takes from the block stays in the ranking and its counters: DESIGN CHOICE (assumption 98). -/
def placeBlock (s : State) : State :=
  let block := s.clk.tick - 1
  let d := s.dictAt 1
  let t : Int := (tickStart s.clk.tick : Int) + s.clk.epochFor block
  let pEff := delayPerMm d s.drift.sigma
  let n := perTick d
  let s0 := (s.stset (2 ^ 30) 0x3800 0x0A s.drift.sigma.toNat).stset 1202089972 0x3800 0x0B pEff.toNat
  let (s1, g) := (objectsOf s0).foldl (placeObj t s.pipe.prevT pEff n (enabledIn d 0x3400 512 0x01))
    (s0, ⟨[], [], 0, []⟩)
  let (xs, displaced, deferred) := capacity (ent d 65536 0x3800 0x03) g.leaving g.requested
  let s2 := if displaced + deferred = 0 then s1 else
    (((s1.bump 0x3801 0x03 1).bump 0x3801 0x04 displaced).bump 0x3801 0x05 deferred).raise 37 displaced deferred
  let s3 := if g.truncated.isEmpty then s2 else
    (s2.bump 0x3801 0x06 g.truncated.length).raise 35 (g.truncated.headD 0) 0
  let s4 := if g.clamped = 0 then s3 else (s3.bump 0x3801 0x0A g.clamped).raise 36 g.clamped 0
  { s4 with pipe := { s4.pipe with xcur := sortBy renderBefore xs, published := false, prevT := some t } }

/-- An object in the placement miss scope (R127): in its first block its crosspoints are held, in the next they leave, and
later it is silent. -/
def missObj (s : State) (no : Nat) : State :=
  let o := s.obj no
  let live := liveOf s.pipe.xprev no
  let others := s.pipe.xcur.filter (fun x => decide (x.o ≠ no))
  match o.pfadeB with
  | .ok =>
    let s1 := setObj s no { o with pfade := .silent 0, pleave := true, active := 0 }
    { s1 with pipe := { s1.pipe with xcur := sortBy renderBefore (others ++ live.map holdXp) } }
  | .silent _ =>
    let s1 := setObj s no { o with pfade := .silent 0, pleave := false, active := 0 }
    { s1 with pipe := { s1.pipe with
      xcur := sortBy renderBefore (others ++ (if o.pleaveB then live.map leaveXp else [])) } }

/-! Slide engines (R49, R50, R131, R140) -/

/-- Engine i at first start: 0 to 15 in service, 16 and 17 spares (R50). -/
def slideInit (i : Nat) : Slide := { Slide.init with st := if i < 16 then .inService else .spare }

/-- A Slide engine. -/
def slideOf (s : State) (i : Nat) : Slide := mget (slideInit i) s.pipe.engines i

/-- A Slide engine replaced. -/
def setSlide (s : State) (i : Nat) (e : Slide) : State :=
  { s with pipe := { s.pipe with engines := mset (slideInit i) s.pipe.engines i e } }

/-- The engines that render. -/
def activeSlides (s : State) : List Nat :=
  (List.range 18).filter (fun i => decide ((slideOf s i).st = .inService))

/-- The engine with the fewest crosspoints, the lower number on a tie (R49 asks for balanced counts). -/
def leastLoaded : List (Nat × Nat) → Option Nat
  | [] => none
  | (i, c) :: r =>
    match leastLoaded r with
    | none => some i
    | some j => if r.any (fun e => decide (e.1 = j) && decide (e.2 < c)) then some j else some i

/-- The engine of each feed, whole feeds in ascending number to the least loaded engine (R49). -/
def assign : List (Nat × Nat) → List (Nat × Nat) → List (Nat × Nat)
  | _, [] => []
  | loads, (f, c) :: r =>
    match leastLoaded loads with
    | none => []
    | some i => (f, i) :: assign (loads.map (fun e => if e.1 = i then (e.1, e.2 + c) else e)) r

/-- The feeds with a crosspoint and their counts, ascending. -/
def feedCounts (xs : List Crosspoint) : List (Nat × Nat) :=
  xs.foldl (fun m x => mmod 0 m x.f (· + 1)) []

/-- Publication of the crosspoint lists (R140, R142): every engine has its feeds in order and issues its first 32 line
reads. -/
def publishPlacement (s : State) : State :=
  let xs := s.pipe.xcur
  let engines := activeSlides s
  let who := assign (engines.map (fun i => (i, 0))) (feedCounts xs)
  let s1 := engines.foldl (fun s i =>
    let order := (xs.filter (fun x => who.any (fun e => decide (e.1 = x.f) && decide (e.2 = i)))).map (fun x => (x.o, x.f))
    setSlide s i { slideOf s i with order := order, done := 0, issued := min 32 order.length, have_ := [], used := [], stall := none }) s
  { s1 with pipe := { s1.pipe with published := true, rendered := [] } }

/-- The purge of the placement stage at its deadline (R252), once in a tick. -/
def placementPurge (s : State) : State :=
  if s.pipe.rendering && !s.pipe.judgedPl then deadlinePurge { s with pipe := { s.pipe with judgedPl := true } } 2 1 else s

/-- The placement deadline (R40, R46, R127, R142): completed objects are published, and those of `scope` are in the placement miss
scope; what the stage still has in the Tally is purged. -/
def placementMissed (s : State) (scope : List Nat) : State :=
  placementPurge (if s.pipe.rendering && !s.pipe.published then
    publishPlacement (stageMiss (scope.foldl missObj s) 2 scope.length)
  else s)

/-! The commands -/

/-- PLACEMENT_PUBLISH: the stage has completed every object. Past the deadline of R142, with nothing published, it had completed none
by then; the objects so missed are those with state or a crosspoint: DESIGN CHOICE (assumption 99). -/
def execPlacementPublish (at_ : Nat) (s : State) : Host.Outcome State Fault Refusal :=
  done (
    if 120000 < at_ then placementMissed (s.elapse 120000) (objectsOf s) |>.elapse at_
    else
      let s1 := s.elapse at_
      if s1.pipe.rendering && !s1.pipe.published then publishPlacement s1 else s1)

/-- PLACEMENT_DEADLINE (R40, R46, R127, R142): at t_X + 120,000 ns. -/
def execPlacementDeadline (incomplete : List Nat) (s : State) : Host.Outcome State Fault Refusal :=
  done (placementMissed (s.elapse 120000) (incomplete.filter (fun o => decide (o < 512))))

/-! Writes of the placement range (R101 to R109, R146 to R148) -/

/-- Refusals of a keyframe write (R108, R405, R437). -/
def keyframeCheck (object : Nat) (record : List Byte) : Nat :=
  firstCode [indexOk object 512, need (decide (record.length = 48)) Abort.length,
    match keyframeOf record with
    | some k => need (decide (k.object = object)) Abort.content
    | none => Abort.content]

/-- A keyframe written for its apply block (R109): the entry reads the last record written. -/
def keyframeApply (s : State) (object : Nat) (record : List Byte) : State :=
  let s1 := s.putBytes (0x3000 + object) 0x06 record
  match keyframeOf record with
  | some k => arrive s1 s1.clk.tick true 0 0 k
  | none => s1

/-- KEYFRAME_WRITE: zero length is a no-operation (R406). -/
def execKeyframeWrite (object : Nat) (record : List Byte) (s : State) : Host.Outcome State Fault Refusal :=
  done (
    if object < 512 ∧ record.isEmpty then s
    else s.attempt (0x3000 + object) (keyframeCheck object record) (fun t => keyframeApply t object record))

/-- OBJECT_ENABLE: a write of 3000+o:01. -/
def execObjectEnable (object value : Nat) (s : State) : Host.Outcome State Fault Refusal :=
  done (s.attempt (0x3000 + object) (firstCode [indexOk object 512, boolOk value]) (fun t => t.put 0 (0x3000 + object) 0x01 value))

/-- CLEAR_PLACEMENT_STATISTICS: 1 clears 3801:02 to 3801:0A at the next boundary. -/
def execClearPlacementStatistics (value : Nat) (s : State) : Host.Outcome State Fault Refusal :=
  done (s.attempt 0x3801 (boolOk value) (fun t =>
    if value = 1 then { t with todo := { t.todo with place := true } } else t))

/-- Refusals of a write to 3000+o:02 (R102, R146). -/
def sourceCheck (s : State) (object v : Nat) : Nat :=
  firstCode [need (decide (v < 0x1020 ∨ v = 0xFFFF)) Abort.range, need (!s.flag (0x3000 + object) 0x01) Abort.conflict]

end Sys2Proof.Machine
end

