-- ==== Sys2Proof/Machine/Time.lean ====
section
/-! DEFINITION. The time unit (R56 to R100): counter, Carry, comparators, pulses and captures, PTP time stamps, the time
states, the servo, holdover, qualification and the rebase. -/
namespace Sys2Proof.Machine

/-! Latency terms (R69, R70) -/

/-- The code of the line mode whose latency terms a port uses (R70, R308): 1 25GBASE-R, 2 with RS-FEC, 3 10GBASE-R,
4 SGMII. -/
def lineMode (s : State) (p : Nat) : Nat :=
  if p = 3 then 3 else if p = 2 then 4
  else if (s.port p).lock then (s.port p).mode
  else if s.val 0 (0x2110 + p) 0x01 = 3 then 3
  else if s.val 0 (0x2110 + p) 0x01 = 1 && (s.port p).trying = 3 then 3
  else if s.flag (0x2110 + p) 0x02 then 2 else 1

/-- I and G of the module alone, and A = 0 (R70, R99). -/
def moduleTerms : Nat → List Int
  | 2 => [3808, 1536, 0]
  | 3 => [1888, 1184, 0]
  | 4 => [4736, 2432, 0]
  | _ => [832, 496, 0]

/-- The terms I, G and A of a port in 1/16 ns for its line mode, as stored or as firmware loads them (R70). -/
def latTerms (s : State) (p : Nat) : List Int :=
  let m := lineMode s p
  mget (moduleTerms m) s.nv.lat (p * 8 + m)

/-- Ingress latency I of a port. -/
def latI (s : State) (p : Nat) : Int := nth (latTerms s p) 0

/-- Egress latency G of a port. -/
def latG (s : State) (p : Nat) : Int := nth (latTerms s p) 1

/-- Link asymmetry A of a port. -/
def latA (s : State) (p : Nat) : Int := nth (latTerms s p) 2

/-! Setting the counter (R58, R83) -/

/-- The counter and Carry set to a local time; tick numbers follow the new counter (R38, R56). DESIGN CHOICE (log 134): a comparator
that is armed keeps its local target, and a pulse in progress the local time of its end. -/
def setCounter (s : State) (l : Int) : State :=
  let t := l.toNat
  let k := tickOf l
  { s with clk := { s.clk with
    ns := BitVec.ofNat 32 t, carry := BitVec.ofNat 32 (t / 2 ^ 32), wrapPend := false, tick := k,
    ofs := t - tickStart k } }

/-! Comparators, pulses and captures (R78 to R80, R96 to R98) -/

/-- Whether a target compares as past (R78, R79). -/
def comparePast (c : Clock) (extended : Bool) (target : Int) : Bool :=
  if extended then decide (target ≤ c.local)
  else decide (0 ≤ compatDiff c.ns.toNat (toPat 32 target))

/-- A comparator armed with a local target; a target that already compares as past sets the late flag (R80). -/
def armComparator (c : Clock) (extended : Bool) (target : Int) : Comparator :=
  Comparator.mk true extended target (comparePast c extended target)

/-- A pulse output. -/
def pulseOf (s : State) (n : Nat) : Pulse := mget Pulse.init s.time.pulses n

/-- A pulse output replaced. -/
def setPulse (s : State) (n : Nat) (p : Pulse) : State :=
  { s with time := { s.time with pulses := mset Pulse.init s.time.pulses n p } }

/-- The smallest m with start + m × period − E later than the local time `after`. -/
def nextIndex (start period e after : Int) : Nat := (fdiv (after - (start - e)) period + 1).toNat

/-- The level of TIME_PULSE_n: low whenever the mode is 0 (R96). -/
def pulseLevel (s : State) (n : Nat) : Bool :=
  decide (s.val 0 (0x2030 + n) 0x01 ≠ 0) && ((pulseOf s n).inProg != s.flag (0x2030 + n) 0x05)

/-- The pulse output armed afresh from its entries (R96, R97): one-shot at its start, periodic at its next start later than
`after`. -/
def armPulse (s : State) (n : Nat) (after : Int) : State :=
  let i := 0x2030 + n
  let p := pulseOf s n
  let start : Int := s.val 0 i 0x02
  let period : Int := s.val 1000000000 i 0x03
  let e := s.clk.epochFor s.clk.tick
  let ext := s.val 1 i 0x06 = 1
  match s.val 0 i 0x01 with
  | 0 => setPulse s n Pulse.init
  | 1 =>
    if p.fired then s else setPulse s n { p with cmp := armComparator s.clk ext (start - e) }
  | _ =>
    let m := nextIndex start period e after
    setPulse s n { p with index := m, cmp := armComparator s.clk ext (start + m * period - e) }

/-- Refusals of a write to 2030+n (R96): the width lies below the period. -/
def pulseCheck (s : State) (n sub v : Nat) : Nat :=
  let i := 0x2030 + n
  match sub with
  | 0x01 => rangeOk v 0 2
  | 0x02 => rangeOk v 0 (2 ^ 64 - 1)
  | 0x03 => firstCode [rangeOk v 100 4294967295, need (decide (s.val 1000 i 0x04 < v)) Abort.range]
  | 0x04 => rangeOk v 1 ((s.val 1000000000 i 0x03 : Int) - 1)
  | 0x05 => boolOk v
  | 0x06 => rangeOk v 1 2
  | _ => Abort.noSub

/-- The default of a 2030+n entry (R99). -/
def pulseDefault : Nat → Nat
  | 0x03 => 1000000000
  | 0x04 => 1000
  | 0x06 => 1
  | _ => 0

/-- The effect of a write to 2030+n: the entry, and the output armed from it (R67, R96). A width or a polarity arms nothing.
DESIGN CHOICE (log 93): a one-shot that has fired is armed again by a write of its mode or start time, and by no other. -/
def pulseApply (s : State) (n sub v : Nat) : State :=
  let s1 := s.put (pulseDefault sub) (0x2030 + n) sub v
  if sub = 0x04 || sub = 0x05 then s1
  else
    let p := pulseOf s1 n
    armPulse (setPulse s1 n { p with fired := p.fired && decide (2 < sub) }) n (s1.clk.local - 1)

/-- A pulse output at a rebase (R97): a one-shot that has not fired is armed for its start under the new offset, or for t_B where
that lies before it; a periodic one for its next start, which lies after the end of a pulse in progress. -/
def rebasePulse (s : State) (n : Nat) : State :=
  let i := 0x2030 + n
  let p := pulseOf s n
  if s.val 0 i 0x01 = 1 then
    if p.fired then s
    else
      let start : Int := (s.val 0 i 0x02 : Int) - s.clk.epochFor s.clk.tick
      setPulse s n { p with cmp := armComparator s.clk (s.val 1 i 0x06 = 1) (max start s.clk.local) }
  else armPulse s n (if p.inProg then p.endsAt else s.clk.local - 1)

/-- A pulse output of a module whose entries came with a join image (R96, R465): armed from them as by a write; a one-shot whose start
has passed gives no pulse (log 109). -/
def joinPulse (s : State) (n : Nat) : State :=
  let i := 0x2030 + n
  let p := pulseOf s n
  if s.val 0 i 0x01 = 1 && decide ((s.val 0 i 0x02 : Int) - s.clk.epochFor s.clk.tick < s.clk.local) then
    setPulse s n { p with cmp := { p.cmp with armed := false }, fired := true }
  else armPulse (setPulse s n { p with fired := false }) n (s.clk.local - 1)

/-- A comparator fires: the pulse starts (R78, R96). -/
def pulseStart (s : State) (n : Nat) : State :=
  let p := pulseOf s n
  if p.cmp.armed && comparePast s.clk p.cmp.extended p.cmp.target then
    setPulse s n { p with
      cmp := { p.cmp with armed := false }, inProg := true, fired := true,
      endsAt := s.clk.local + (s.val 1000 (0x2030 + n) 0x04 : Int) }
  else s

/-- The width of a pulse ends; a periodic output is armed for its next start (R96, R97). -/
def pulseEnd (s : State) (n : Nat) : State :=
  let p := pulseOf s n
  if p.inProg && decide (p.endsAt ≤ s.clk.local) then
    let s1 := setPulse s n { p with inProg := false }
    if s.val 0 (0x2030 + n) 0x01 = 2 then armPulse s1 n p.endsAt else s1
  else s

/-- An edge on a capture input (R98). A capture counts as read once a READ shows it (R408: from the boundary after it). -/
def captureEdge (s : State) (n : Nat) (rising : Bool) : State :=
  let i := 0x2040 + n
  let sel := s.val 0 i 0x01
  if sel = 3 || sel = (if rising then 1 else 2) then
    let s1 := s.stset 0 i 0x02 (toPat 64 s.netTime)
    let s2 := s1.bump i 0x03 1
    let s3 := if mget 0 s.time.unread n ≠ 0 then s2.bump i 0x04 1 else s2
    { s3 with time := { s3.time with unread := mset 0 s3.time.unread n 1 } }
  else s

/-- A boundary shows the captures of the tick that ended (R98, R408). -/
def showCaptures (s : State) : State :=
  { s with time := { s.time with unread := (List.range 4).foldl (fun m n => mmod 0 m n (fun k => min 2 (2 * k))) s.time.unread } }

/-! Masters (R61, R62, R85) -/

/-- The clock role 2000:01. -/
def clockRole (s : State) : Nat := s.val 0 0x2000 0x01

/-- The ports a role may take a master from (R61). -/
def slaveCapable (s : State) (p : Nat) : Bool :=
  match clockRole s with
  | 1 => p = 0 || p = 1
  | 2 => p = 2
  | 3 => p = 0 || p = 1
  | _ => false

/-- The port that role 1 prefers (R62): ring A 0, ring B 1. -/
def preferredPort (s : State) : Nat := if s.val 1 0x2000 0x09 = 2 then 1 else 0

/-- Whether the module takes PTP messages of a domain and transport on a port (R60, R61, R320): those of its one domain and its
transport, on a port that it may be a slave on, and on a ring port only in state In. -/
def ptpHeard (s : State) (port domain transport : Nat) : Bool :=
  slaveCapable s port && decide (domain = s.val 0 0x2000 0x03) && decide (transport = s.val 1 0x2000 0x04) &&
    (decide (2 ≤ port) || decide (s.byp.partic = .inRing))

/-- The comparison vector of the BMCA of IEEE 1588-2019 (R65). -/
def announceVector (a : Announce) : List Nat :=
  [a.prio1, a.cls, a.accuracy, a.variance, a.prio2, a.identity, a.steps]

/-- The first differing element decides; the smaller is better. -/
def lexLess : List Nat → List Nat → Bool
  | a :: r, b :: t => if a = b then lexLess r t else decide (a < b)
  | _, _ => false

/-- The module's own data set as grandmaster (R65). -/
def ownVector (s : State) : List Nat :=
  [255, 248, 0xFE, 0xFFFF, s.val 255 0x2000 0x0B, Config.clockIdentity.toNat]

/-- Whether an Announce ends the grandmaster role (R65). -/
def beatsGrandmaster (s : State) (a : Announce) : Bool :=
  decide (a.prio1 < 255) || decide (a.cls < 248) || lexLess (announceVector a) (ownVector s)

/-- Ticks in `n` intervals of 2^log seconds. -/
def intervalTicks (log : Int) (n : Nat) : Nat :=
  if 0 ≤ log then n * 3000 * 2 ^ log.toNat else n * 3000 / 2 ^ (-log).toNat

/-- The announce interval's log2 (2000:06). -/
def announceLog (s : State) : Int := toSigned 8 (s.val 1 0x2000 0x06)

/-- A candidate whose qualification window starts now (R85): the window's length is that in force at its start (R67). -/
def candidate (s : State) (a : Announce) (heard : Nat) : Master :=
  Master.mk a s.clk.tick heard (s.val 4 0x2000 0x0D)

/-- Whether R65 lets the module take the grandmaster role. -/
def mayGrandmaster (s : State) : Bool :=
  s.flag 0x2000 0x0A && decide (clockRole s ≠ 0) && s.time.master.isNone &&
  (match s.twin.role with
    | .off | .solo | .active => true
    | _ => false) &&
  (match s.time.cand with
    | some c => !beatsGrandmaster s c.ann
    | none => true)

/-- The module enters Grandmaster (R59, R65): free-running at the holdover rate, or nominal if it has never been Locked, reached by at
most 0.1 ppm a tick (R100). A clock that does not beat it is no candidate. -/
def enterGrandmaster (s : State) : State :=
  let s1 := s.leaveHoldover
  let rate := if s.time.locked then s.time.meanFreq else 0
  { s1 with time := { s1.time with
    state := .grandmaster, target := rate, freq := rate, phase := 0, cons := [], await := false, cand := none } }

/-- The selected master is lost (R84, R85): Holdover, and the window of a clock that still announces itself runs from now. -/
def loseMaster (s : State) (still : Bool) : State :=
  match s.time.master with
  | none => s
  | some m =>
    let s1 : State := { s with time := { s.time with
      master := none, other := none, await := false,
      cand := if still then some (candidate s m.ann 0) else none } }
    match s1.time.state with
    | .holdover | .grandmaster => s1
    | _ => s1.enterHoldover

/-- Whether a master heard on two ports is taken from the port of `a` and not from that of `old`: the preferred port in role 1
(R62), the fewer steps in role 3 (R61). -/
def betterPort (s : State) (old a : Announce) : Bool :=
  match clockRole s with
  | 1 => decide (a.port = preferredPort s)
  | 3 => decide (a.steps < old.steps)
  | _ => false

/-- The Announce held for a master whose Announce `a` arrives: one port at a time. -/
def heldAnnounce (s : State) (old a : Announce) : Announce := if a.port = old.port || betterPort s old a then a else old

/-- The selected master taken from the port of an Announce (2010:07, 2010:09). -/
def masterPort (s : State) (m : Master) (a : Announce) (other : Option Announce) : State :=
  let s1 : State := { s with time := { s.time with master := some { m with ann := a }, other := other } }
  (s1.stset 0 0x2010 0x09 a.steps).stset 0 0x2010 0x07 ((mget none s.time.mpd a.port).getD 0)

/-- An Announce of the selected master (R61, R62): on its port, or on another that it may be taken from. -/
def masterHeard (s : State) (m : Master) (a : Announce) : State :=
  if a.port = m.ann.port then
    match s.time.other with
    | some o => if betterPort s a o then masterPort s m o (some a) else masterPort s m a (some o)
    | none => masterPort s m a none
  else if betterPort s m.ann a then masterPort s m a (some m.ann)
  else { s with time := { s.time with other := some a } }

/-- An Announce of a clock that is not selected (R85): it counts for the candidate, or is a new candidate where it compares
better. -/
def candidateHeard (s : State) (a : Announce) (better : Announce → Bool) : State :=
  match s.time.cand with
  | some c =>
    if c.ann.identity = a.identity then
      { s with time := { s.time with cand := some { c with ann := heldAnnounce s c.ann a, heard := c.heard + 1 } } }
    else if better c.ann then { s with time := { s.time with cand := some (candidate s a 1) } }
    else s
  | none => { s with time := { s.time with cand := some (candidate s a 1) } }

/-- Whether role 1 prefers the port of `a` to that of `b` (R62). -/
def preferred (s : State) (a b : Announce) : Bool :=
  decide (clockRole s = 1 ∧ a.port = preferredPort s ∧ b.port ≠ preferredPort s)

/-- Whether an Announce is taken (R60, R61, R63): under profile 3 none whose path trace names the module itself. -/
def announceHeard (s : State) (a : Announce) : Bool :=
  ptpHeard s a.port a.domain a.transport &&
    !(decide (s.val 1 0x2000 0x02 = 3) && a.path.contains Config.clockIdentity.toNat)

/-- Whether the BMCA with the preference of role 1 selects `a` over `b` (R62). -/
def selects (s : State) (a b : Announce) : Bool :=
  !preferred s b a && (lexLess (announceVector a) (announceVector b) || preferred s a b)

/-- The candidate is given up where the selected master's data set is not behind it any more (R85: continuously). -/
def keepCandidate (s : State) : State :=
  match s.time.master, s.time.cand with
  | some m, some c => if selects s c.ann m.ann then s else { s with time := { s.time with cand := none } }
  | _, _ => s

/-- An Announce of a clock that is not ahead of the selected master (R85): a candidate heard by it on its port is selected no more. -/
def candidateFallen (s : State) (a : Announce) : State :=
  match s.time.cand with
  | some c =>
    if c.ann.identity = a.identity && c.ann.port = a.port then { s with time := { s.time with cand := none } } else s
  | none => s

/-- An Announce (R62, R65, R85). In Grandmaster one that does not beat the module's own data set changes nothing. DESIGN CHOICE
(log 131): one that does leaves Grandmaster for Holdover at once, and its sender then qualifies from there. -/
def announce (s : State) (a : Announce) : State :=
  if !announceHeard s a then s
  else if s.time.state = .grandmaster && !beatsGrandmaster s a then s
  else
    let s0 := if s.time.state = .grandmaster then s.enterHoldover else s
    match s0.time.master with
    | some m =>
      if m.ann.identity = a.identity then keepCandidate (masterHeard s0 m a)
      else if selects s0 a m.ann then candidateHeard s0 a (selects s0 a)
      else candidateFallen s0 a
    | none => candidateHeard s0 a (selects s0 a)

/-- The candidate's window has ended with at least two Announces (R85): it is the selected master. -/
def qualify (s : State) : State :=
  match s.time.cand with
  | none => s
  | some c =>
    if s.clk.tick - c.since < intervalTicks (announceLog s) c.window then s
    else if s.time.state = .grandmaster && !beatsGrandmaster s c.ann then { s with time := { s.time with cand := none } }
    else if c.heard < 2 then
      { s with time := { s.time with cand := some (candidate s c.ann 0) } }
    else
      let id := c.ann.identity
      let first := !s.time.qualified && !s.flag 0x1100 0x03
      let s0 := if s.time.state = .grandmaster then s.enterHoldover else s
      let s1 : State := { s0 with time := { s0.time with
        master := some c, other := none, cand := none, qualified := true, await := !first, quiet := false,
        setDone := if first then false else s0.time.setDone } }
      let s2 := if first then
          let s3 := s1.leaveHoldover
          { s3 with time := { s3.time with state := .acquiring, freqHist := [], freq := 0, phase := 0, target := 0 } }
        else s1
      (((s2.stset 0 0x2010 0x08 id).stset 0 0x2010 0x09 c.ann.steps).stset 0 0x2010 0x07
        ((mget none s2.time.mpd c.ann.port).getD 0)).raise 20 (id / 2 ^ 32) (id % 2 ^ 32)

/-- The selected master is no longer taken from its port (R61, R84): another port has it, or it is lost. -/
def leavePort (s : State) (m : Master) (other : Option Announce) : State :=
  match other with
  | some o => masterPort s m o none
  | none => loseMaster s false

/-- The announce receipt timeout on a port (R65, R84): the selected master is lost once it has expired on every port that the
master may be taken from. -/
def announceTimeout (s : State) (port : Nat) : State :=
  let other := s.time.other.filter (fun o => decide (o.port ≠ port))
  let s1 := match s.time.master with
    | some m =>
      if m.ann.port ≠ port then { s with time := { s.time with other := other } } else leavePort s m other
    | none =>
      match s.time.cand with
      | some c => if c.ann.port = port then { s with time := { s.time with cand := none } } else s
      | none => s
  let s2 : State := { s1 with time := { s1.time with quiet := s1.time.quiet || s1.time.master.isNone } }
  match s2.time.state with
  | .free | .holdover => if mayGrandmaster s2 then enterGrandmaster s2 else s2
  | _ => s2

/-! The servo and the rebase (R81 to R93) -/

/-- A servo step on an accepted Sync (R81, R82): terms limited to 500 ppm and 200 ppm, in 10^−12. -/
def servo (t : TimeUnit) (bw : Nat) (o : Int) : TimeUnit :=
  let f := satTo (-500000000) 500000000 (Config.servoFreq bw t.freq o)
  let p := satTo (-200000000) 200000000 (Config.servoPhase bw o)
  { t with freq := f, freqHist := (f :: t.freqHist).take 64, phase := p, target := satTo (-500000000) 500000000 (f + p) }

/-- The rate moves toward its target by at most 0.1 ppm per tick (R81). -/
def TimeUnit.slew (t : TimeUnit) : TimeUnit :=
  { t with rate := t.rate + satTo (-100000) 100000 (t.target - t.rate) }

/-- Rebase-confirm with its first measurement (R59, R85, R86): the rate in force is held with the phase term at zero, which leaves
the frequency term. -/
def enterConfirm (s : State) (o : Int) : State :=
  let s1 := s.leaveHoldover
  { s1 with time := { s1.time with state := .rebaseConfirm, cons := [o], await := false, phase := 0, target := s1.time.freq } }

/-- Locked, slewing by R82. -/
def enterLocked (s : State) (o : Int) : State :=
  let s1 := s.leaveHoldover
  { s1 with time := servo { s1.time with state := .locked, await := false, cons := [], locked := true } (s1.val 2 0x2000 0x0E) o }

/-- A rebase decided with new offset `e` for block `b` (R87, R89, R93). -/
def decideRebase (s : State) (e : Int) (b : Nat) : State :=
  let step := e - s.clk.epoch
  let s1 : State := { s with clk := { s.clk with rebase := some (e, b) }, time := { s.time with decided := none } }
  (((s1.bump 0x2010 0x0B 1).stset 0 0x2010 0x0C b).stset 0 0x2010 0x0D (toPat 64 step)).raise 22 (arg32 step)
    (b % 2 ^ 32)

/-- A measurement in Rebase-confirm (R86, R87, R88). -/
def confirmStep (s : State) (o : Int) : State :=
  if s.time.decided.isSome || s.clk.rebase.isSome then s
  else
    let s1 := s.time.cons.headD o
    if iabs o ≤ 1000 then
      let r : State := { s with time := { s.time with state := .locked, cons := [], locked := true } }
      (r.bump 0x2010 0x0E 1).raise 21 (arg32 o) 0
    else if iabs (o - s1) ≤ 1000 then
      let cons := s.time.cons ++ [o]
      let r : State := { s with time := { s.time with cons := cons } }
      if cons.length < 9 then r
      else
        let e := s.clk.epoch + fdiv (isum cons) 9
        let b := s.clk.tick + 4
        match s.twin.role with
        | .standby => { r with time := { r.time with decided := some (e, b, s.clk.tick) } }
        | .active => (decideRebase r e b).sendPort 3 (.rebase e b)
        | _ => decideRebase r e b
    else { s with time := { s.time with cons := [o] } }

/-- The offset of a Sync in whole ns (R69, R81), truncated (R11). -/
def syncOffset (s : State) (m : SyncMsg) (mpd : Nat) : Int :=
  let e := s.clk.epochFor s.clk.tick
  shr (m.origin * 65536 + m.corr + (mpd : Int) * 65536 + latA s m.port * 4096
    - (m.capture - latI s m.port) * 4096 - e * 65536) 16

/-- Whether the Standby takes its time from the Active over the twin link (R66). -/
def followsTwin (s : State) : Bool :=
  s.twin.role = .standby && !s.twin.tlSil1 &&
  (match s.twin.frame with
    | some f => f.tstate = 3 || f.tstate = 5
    | none => false)

/-- Whether the Standby measures its offset to the Active by a Sync of the twin link (R66): in every state other than Free, unless
the link is silent. -/
def twinMeasures (s : State) : Bool := decide (s.twin.role = .standby) && !s.twin.tlSil1 && decide (s.time.state ≠ .free)

/-- Whether a Sync comes from where the module takes its time (R62, R66, R85). -/
def syncAccepted (s : State) (m : SyncMsg) : Bool :=
  if m.port = 3 then followsTwin s && s.time.state ≠ .free
  else if followsTwin s then false
  else ptpHeard s m.port m.domain m.transport &&
    (match s.time.master with
      | some q => q.ann.identity = m.master && q.ann.port = m.port
      | none => false)

/-- The first accepted Sync of a master that has qualified (R85): Locked with slewing, or Rebase-confirm. -/
def firstSync (s : State) (o : Int) : State := if iabs o ≤ 1000 then enterLocked s o else enterConfirm s o

/-- An accepted Sync with its offset (R81 to R86); in Acquiring too the servo takes every one of them. DESIGN CHOICE (log 94): the
first set of the counter in Acquiring counts in 2010:0F as every later one does, since the entry counts sets in Acquiring. -/
def syncStep (s0 : State) (twin : Bool) (o : Int) : State :=
  let s := s0.stset 0 0x2010 0x05 (arg32 o)
  let bw := s.val 2 0x2000 0x0E
  let disciplined : State := { s with time := servo s.time bw o }
  match s.time.state with
  | .free => if s.time.await then firstSync s o else s0
  | .acquiring =>
    if s.time.setDone && iabs o ≤ 1000 then enterLocked s o
    else if s.flag 0x1100 0x03 then disciplined
    else
      let s1 := setCounter disciplined (s.clk.local + o)
      ({ s1 with time := { s1.time with setDone := true } } : State).bump 0x2010 0x0F 1
  | .rebaseConfirm =>
    if s.time.await && s.time.decided.isNone && s.clk.rebase.isNone then firstSync s o else confirmStep s o
  | .locked =>
    if iabs o ≤ 1000 then (if s.time.await then enterLocked s o else disciplined)
    else enterConfirm s o
  | .holdover | .grandmaster =>
    if twin then disciplined else if s.time.await then firstSync s o else s0

/-- A Sync received (R66, R69, R81): in Acquiring it is discarded without a completed delay measurement on its port (R83); in
the other states an unmeasured path delay is 0, as 2010:07 reads. A Sync of the Active gives the Standby its offset to it also where
the Standby does not follow it (R66). -/
def syncReceived (s0 : State) (m : SyncMsg) : State :=
  let mpd := mget none s0.time.mpd m.port
  let o := syncOffset s0 m (mpd.getD 0)
  let s : State := if m.port = 3 && twinMeasures s0 then { s0 with time := { s0.time with twinOffs := some o } } else s0
  if !syncAccepted s m || (s.time.state = .acquiring && mpd.isNone) then s
  else syncStep s (m.port = 3) o

/-- Without values by tick D + 2 the Standby applies its own (R88); the difference opens a mark (R469). -/
def rebaseFallback (s : State) : State :=
  match s.time.decided with
  | some (e, b, d) =>
    if d + 2 ≤ s.clk.tick then
      let s1 := decideRebase s e b
      { s1 with twin := { s1.twin with marks := s1.twin.marks ++ [(b, 6)] } }
    else s
  | none => s

/-- A pending write under a decided rebase (R91). -/
def pendRebase (p : Pending) (ePrev e : Int) (b : Nat) : Pending :=
  match p.time with
  | none => p
  | some a => if tickOf (a - ePrev) < b then p else { p with block := max b (tickOf (a - e)) }

/-- The rebase takes effect at t_B (R89 to R92, R97). -/
def rebaseApply (s : State) : State :=
  match s.clk.rebase with
  | none => s
  | some (e, b) =>
    if s.clk.tick < b then s
    else
      let old := s.clk.epoch
      let s1 : State := { s with
        clk := { s.clk with epochPrev := old, epoch := e, epochB := b, rebase := none },
        time := { s.time with
          state := if s.time.state = .rebaseConfirm then .locked else s.time.state, cons := [], decided := none,
          locked := s.time.locked || decide (s.time.state = .rebaseConfirm) },
        pend := s.pend.map (fun p => pendRebase p old e b) }
      (List.range 4).foldl rebasePulse s1

/-! PTP event messages (R68 to R73) -/

/-- Whether the profile measures delay peer to peer (R60). -/
def peerToPeer (s : State) : Bool :=
  s.val 1 0x2000 0x02 = 2 || s.val 1 0x2000 0x02 = 3

/-- Whether the selected master is taken from a port. -/
def masterAt (s : State) (port : Nat) : Bool :=
  match s.time.master with
  | some m => decide (m.ann.port = port)
  | none => false

/-- Whether a ring port is the master port of the boundary clock (R61): the module takes its master from the other one, and does not
hear that master on this port, which would make it passive. -/
def boundaryMaster (s : State) (port : Nat) : Bool :=
  decide (clockRole s = 3) && decide (port < 2) && s.time.master.isSome && !masterAt s port && s.time.other.isNone

/-- Whether a port of the module is a master port (R61, R65): each port of a grandmaster, and the master port of a boundary clock. -/
def mastersOn (s : State) (port : Nat) : Bool :=
  (slaveCapable s port && decide (s.time.state = .grandmaster)) || boundaryMaster s port

/-- Whether a port measures the delay of its link (R60, R61): under a peer-to-peer profile the port of an ordinary clock, and both ring
ports in every role but 0, since roles 1 and 2 are peer-to-peer transparent clocks between them. -/
def measuresLink (s : State) (port : Nat) : Bool :=
  peerToPeer s && (slaveCapable s port || (decide (port < 2) && decide (clockRole s ≠ 0)))

/-- Whether the module originates a message of a kind on a port (R61, R65, R66, R71): Sync on a master port, and as Active on the twin
link; delay requests on slave-capable ports, by the delay mechanism, end to end in a boundary clock on its slave port alone. -/
def originates (s : State) (port : Nat) : PtpKind → Bool
  | .sync => if port = 3 then s.twin.role = .active && s.time.state ≠ .free else mastersOn s port
  | .delayReq => slaveCapable s port && !peerToPeer s && s.time.state ≠ .grandmaster && (decide (clockRole s ≠ 3) || masterAt s port)
  | .pdelayReq => measuresLink s port
  | .pdelayResp => false

/-- How the messages that the module originates on a port are carried (R60, R67, R73): by 2000:04, over UDP with two compensation
octets; on the twin link over Ethernet. -/
def ptpCarrier (s : State) (port : Nat) : PtpCarrier :=
  if port = 3 || s.val 1 0x2000 0x04 = 2 then .ethernet else .udpComp

/-- messageLength of an event message (IEEE 1588-2019). -/
def ptpLength : PtpKind → Nat
  | .sync | .delayReq => 44
  | .pdelayReq | .pdelayResp => 54

/-- The UDP length of an event message that the module originates (R73): the UDP header, the message and two compensation octets;
0 over Ethernet. -/
def ptpUdpLength (s : State) (port : Nat) (kind : PtpKind) : Nat :=
  if ptpCarrier s port = .ethernet then 0 else 8 + ptpLength kind + 2

/-- An event message originated at departure `depart` (1/16 ns of local time): its originTimestamp is the egress time stamp
as a network time (R57, R69, R71). -/
def ptpSend (s : State) (port : Nat) (kind : PtpKind) (depart : Int) : State :=
  if originates s port kind then
    s.sendPort port (.ptp port kind (s.val 0 0x2000 0x03) (ptpCarrier s port) (ptpUdpLength s port kind)
      (depart + latG s port + s.clk.epochFor s.clk.tick * 16))
  else s

/-- A Pdelay_Req answered (R71): correctionField grows by the turnaround, in 2^−16 ns. -/
def pdelayResponse (s : State) (port : Nat) (capture depart : Int) : State :=
  if measuresLink s port then
    s.sendPort port (.pdelay port (s.val 0 0x2000 0x03) (ptpCarrier s port) (ptpUdpLength s port .pdelayResp)
      (shl (depart + latG s port - (capture - latI s port)) 12))
  else s

/-- What roles 1 and 2 add to the correctionField of a transit event message (R72): its residence, and for Sync under a peer-to-peer
profile the path delay of the link that it came in by. -/
def transitAdds (s : State) (inPort outPort : Nat) (kind : PtpKind) (capture depart : Int) : Int :=
  shl ((depart + latG s outPort) - (capture - latI s inPort)) 12 +
    match kind with
    | .sync => if peerToPeer s then shl ((mget none s.time.mpd inPort).getD 0 : Nat) 16 else 0
    | _ => 0

/-- A Delay_Req on a master port answered (R61, R65): the time at which it came in, as a network time. -/
def delayResponse (s : State) (port : Nat) (capture corr : Int) : State :=
  if mastersOn s port && !peerToPeer s then
    s.sendPort port (.delayResp port (s.val 0 0x2000 0x03) (capture - latI s port + s.clk.epochFor s.clk.tick * 16) corr)
  else s

/-- A transit PTP event message (R61, R72, R73): forwarded unchanged in role 0, corrected in roles 1 and 2, terminated in
role 3. A Delay_Req that comes in on a master port is answered, in roles 1 and 2 beside passing on. -/
def ptpTransit (s : State) (inPort outPort : Nat) (kind : PtpKind) (carrier : PtpCarrier) (capture depart corr : Int) :
    State :=
  if !((inPort = 0 && outPort = 1) || (inPort = 1 && outPort = 0)) then s
  else
    let s1 := if kind = .delayReq && s.open inPort then delayResponse s inPort capture corr else s
    match clockRole s with
    | 0 => s.sendPort outPort (.transit outPort corr false false)
    | 3 => s1
    | _ =>
      s1.sendPort outPort
        (.transit outPort (corr + transitAdds s inPort outPort kind capture depart) (carrier = .udpComp) (carrier = .udpPlain))

/-! Announce messages of the module (R61, R63, R65, R67) -/

/-- The Announce that the module sends on a port: as grandmaster its own data set, as boundary clock that of its grandmaster one step
on; under profile 3 with the module added to the path trace (R63). -/
def announceOf (s : State) (port : Nat) : Announce :=
  let own := Config.clockIdentity.toNat
  let trace := fun (l : List Nat) => if s.val 1 0x2000 0x02 = 3 then l ++ [own] else []
  let frame := fun (a : Announce) => { a with port := port, domain := s.val 0 0x2000 0x03, transport := s.val 1 0x2000 0x04 }
  match s.time.master with
  | some m => frame { m.ann with steps := m.ann.steps + 1, path := trace m.ann.path }
  | none => frame (Announce.mk port 0 0 255 248 0xFE 0xFFFF (s.val 255 0x2000 0x0B) own 0 0xA0 (trace []))

/-- The Announce of a port at a tick boundary: the first where it starts to announce, then one in each announce interval, whose length
is read when it begins (R67). -/
def announcePort (s : State) (port : Nat) : State :=
  if !mastersOn s port then { s with time := { s.time with nextAnn := mset 0 s.time.nextAnn port 0 } }
  else if mget 0 s.time.nextAnn port ≤ s.clk.tick then
    let s1 := s.sendPort port (.announce (announceOf s port))
    { s1 with time := { s1.time with nextAnn := mset 0 s1.time.nextAnn port (s.clk.tick + max 1 (intervalTicks (announceLog s) 1)) } }
  else s

/-- The Announce messages due at a tick boundary. -/
def announceTick (s : State) : State := [0, 1, 2].foldl announcePort s

/-! Configuration (R60, R61, R67, R99) -/

/-- The values that a profile loads into 2000:03 to 2000:08 (R60), as bit patterns. -/
def profileValues : Nat → List (Nat × Nat)
  | 3 => [(3, 0), (4, 2), (5, 0xFD), (6, 0), (7, 3), (8, 0)]
  | 5 => [(3, 127), (4, 1), (5, 0xFD), (6, 0xFE), (7, 3), (8, 0xFD)]
  | _ => [(3, 0), (4, 1), (5, 0xFD), (6, 1), (7, 3), (8, 0xFD)]

/-- The defaults of 2000:01 to 2000:0E (R99). -/
def timeDefault : Nat → Nat
  | 0x02 => 1
  | 0x04 => 1
  | 0x05 => 0xFD
  | 0x06 => 1
  | 0x07 => 3
  | 0x08 => 0xFD
  | 0x09 => 1
  | 0x0B => 255
  | 0x0D => 4
  | 0x0E => 2
  | _ => 0

/-- Refusals of a write to the entries 2000:01 to 2000:0E and 2020 to 2023 (R60, R67, R99), under profile 3 also of the roles that R60
does not give it (DEDUCED, log 95), and under profiles 4 and 5 of Ethernet, which R60 does not list for them (DEDUCED, log 132). -/
def timeCheck (s : State) (index sub v : Nat) : Nat :=
  let profile := s.val 1 0x2000 0x02
  let idle := need (!s.flag 0x1100 0x03) Abort.conflict
  if index = 0x2000 then
    match sub with
    | 0x01 => firstCode [rangeOk v 0 3, need (decide (profile ≠ 3 ∨ v = 0 ∨ v = 3)) Abort.conflict, idle]
    | 0x02 => firstCode [rangeOk v 1 5,
        need (decide (v ≠ 3 ∨ clockRole s = 0 ∨ clockRole s = 3)) Abort.conflict, idle]
    | 0x03 => firstCode [rangeOk v 0 (if profile = 3 then 0 else 127), idle]
    | 0x04 => firstCode [
        if profile = 3 then rangeOk v 2 2 else if profile = 4 || profile = 5 then rangeOk v 1 1 else rangeOk v 1 2, idle]
    | 0x05 => rangeOk (toSigned 8 v) (-4) (if profile = 3 then 0 else 1)
    | 0x06 => rangeOk (toSigned 8 v) (-3) 3
    | 0x07 => rangeOk v 2 10
    | 0x08 => rangeOk (toSigned 8 v) (-4) 3
    | 0x09 => rangeOk v 1 2
    | 0x0A => boolOk v
    | 0x0B => rangeOk v 0 255
    | 0x0D => rangeOk v 2 16
    | 0x0E => rangeOk v 1 4
    | _ => Abort.noSub
  else if 0x2020 ≤ index ∧ index ≤ 0x2023 then
    match sub with
    | 0x01 | 0x02 | 0x03 => rangeOk v 0 (2 ^ 32 - 1)
    | _ => Abort.noSub
  else Abort.noIndex

/-- The effect of a write to the clock role (R59, R61): 0 leaves the time unit Free, its rate returning to nominal by at most 0.1 ppm
a tick (R100). -/
def roleApply (s : State) (v : Nat) : State :=
  let s1 := s.put 0 0x2000 0x01 v
  if v = 0 then
    let s2 := s1.leaveHoldover
    { s2 with
      clk := if s.time.state = .rebaseConfirm then { s2.clk with rebase := none } else s2.clk
      time := { s2.time with
        state := .free, master := none, other := none, cand := none, await := false, cons := [], decided := none, quiet := false,
        freq := 0, phase := 0, target := 0 } }
  else
    match s1.time.master with
    | some m =>
      let other := s1.time.other.filter (fun o => slaveCapable s1 o.port)
      if slaveCapable s1 m.ann.port then { s1 with time := { s1.time with other := other } } else leavePort s1 m other
    | none => { s1 with time := { s1.time with cand := none } }

/-- R62 evaluated afresh (R67): a master heard on two ports is taken from the one that role 1 now prefers. -/
def preferApply (s : State) : State :=
  match s.time.master, s.time.other with
  | some m, some o => if betterPort s m.ann o then masterPort s m o (some m.ann) else s
  | _, _ => s

/-- R65 evaluated afresh (R67): the announce receipt timeout has run already, and nothing else bars the grandmaster role. -/
def permitApply (s : State) : State :=
  match s.time.state with
  | .free | .holdover => if s.time.quiet && mayGrandmaster s then enterGrandmaster s else s
  | _ => s

/-- The effect of a write to the time configuration (R60, R67, R70). DESIGN CHOICE (log 131): 2000:0A cleared in Grandmaster leaves it
for Holdover. -/
def timeApply (s : State) (index sub v : Nat) : State :=
  if index = 0x2000 then
    match sub with
    | 0x01 => roleApply s v
    | 0x02 => (profileValues v).foldl (fun t e => t.put (timeDefault e.1) 0x2000 e.1 e.2) (s.put 1 0x2000 0x02 v)
    | 0x0A =>
      let s1 := s.put 0 0x2000 0x0A v
      if v = 0 && s1.time.state = .grandmaster then s1.enterHoldover else permitApply s1
    | 0x09 => preferApply (s.put 1 0x2000 0x09 v)
    | _ => s.put (timeDefault sub) 0x2000 sub v
  else
    let p := index - 0x2020
    let m := lineMode s p
    let terms := (latTerms s p).set (sub - 1) (if sub = 0x03 then toSigned 32 v else (v : Int))
    { s with nv := { s.nv with lat := mset (moduleTerms m) s.nv.lat (p * 8 + m) terms } }

/-! The commands -/

/-- SYNC_RECEIVED. -/
def execSyncReceived (at_ : Nat) (msg : SyncMsg) (s : State) : Host.Outcome State Fault Refusal :=
  done (
    let s1 := s.elapse at_
    syncReceived (if 2 ≤ msg.port then s1.heard msg.port else s1) msg)

/-- REBASE_VALUES_RECEIVED (R88): the Standby applies the received values. -/
def execRebaseValuesReceived (epoch : Int) (block : Nat) (s : State) : Host.Outcome State Fault Refusal :=
  done (if s.twin.role = .standby then decideRebase (s.heard 3) epoch block else s)

/-- REBASE_FALLBACK (R88). -/
def execRebaseFallback (s : State) : Host.Outcome State Fault Refusal := done (rebaseFallback s)

/-- REBASE_APPLY. -/
def execRebaseApply (s : State) : Host.Outcome State Fault Refusal := done (rebaseApply s)

/-- ANNOUNCE_RECEIVED. -/
def execAnnounceReceived (at_ : Nat) (msg : Announce) (s : State) : Host.Outcome State Fault Refusal :=
  done (
    let s1 := s.elapse at_
    announce (if 2 ≤ msg.port then s1.heard msg.port else s1) msg)

/-- QUALIFICATION_END. -/
def execQualificationEnd (s : State) : Host.Outcome State Fault Refusal := done (qualify s)

/-- ANNOUNCE_TIMEOUT. -/
def execAnnounceTimeout (port : Nat) (s : State) : Host.Outcome State Fault Refusal := done (announceTimeout s port)

/-- SYNC_LOSS (R84): four consecutive expected Syncs of the selected master failed to arrive. -/
def execSyncLoss (s : State) : Host.Outcome State Fault Refusal :=
  done (if followsTwin s then s else loseMaster s true)

/-- DELAY_MEASUREMENT_COMPLETE (R83): the port holds a mean path delay, by a frame received there (R346). -/
def execDelayMeasurementComplete (port delayNs : Nat) (s : State) : Host.Outcome State Fault Refusal :=
  done (
    let s0 := if 2 ≤ port then s.heard port else s
    let s1 : State := { s0 with time := { s0.time with mpd := mset none s0.time.mpd port (some delayNs) } }
    match s.time.master with
    | some m => if m.ann.port = port then s1.stset 0 0x2010 0x07 delayNs else s1
    | none => s1)

/-- PTP_MESSAGE_SEND. -/
def execPtpMessageSend (port : Nat) (kind : PtpKind) (depart : Int) (s : State) : Host.Outcome State Fault Refusal :=
  done (ptpSend s port kind depart)

/-- PDELAY_REQ_RECEIVED. -/
def execPdelayReqReceived (port : Nat) (capture depart : Int) (s : State) : Host.Outcome State Fault Refusal :=
  done (pdelayResponse (if 2 ≤ port then s.heard port else s) port capture depart)

/-- PTP_TRANSIT. -/
def execPtpTransit (inPort outPort : Nat) (kind : PtpKind) (carrier : PtpCarrier) (capture depart corr : Int) (s : State) :
    Host.Outcome State Fault Refusal :=
  done (ptpTransit s inPort outPort kind carrier capture depart corr)

/-- COUNTER_WRAP (R74): the counter runs on to its wrap, where the wrap lies in the current tick. -/
def execCounterWrap (s : State) : Host.Outcome State Fault Refusal :=
  done (
    let n := 2 ^ 32 - s.clk.ns.toNat
    if s.clk.ofs + n < tickLen s.clk.tick then s.elapse (s.clk.ofs + n) else s)

/-- TU_CARRY_WRITE: a write to TU_CARRY also clears WRAP_PEND. -/
def execTuCarryWrite (value : Nat) (s : State) : Host.Outcome State Fault Refusal :=
  done { s with clk := { s.clk with carry := BitVec.ofNat 32 value, wrapPend := false } }

/-- CARRY_LOST_CLEAR: writing 1 to TU_WRAP CARRY_LOST clears it. -/
def execCarryLostClear (s : State) : Host.Outcome State Fault Refusal :=
  done { s with clk := { s.clk with carryLost := false } }

/-- COMPARATOR_FIRE. -/
def execComparatorFire (at_ n : Nat) (s : State) : Host.Outcome State Fault Refusal :=
  done (pulseStart (s.elapse at_) n)

/-- PULSE_WIDTH_END. -/
def execPulseWidthEnd (at_ n : Nat) (s : State) : Host.Outcome State Fault Refusal :=
  done (pulseEnd (s.elapse at_) n)

/-- CAPTURE_EDGE. -/
def execCaptureEdge (at_ n : Nat) (rising : Bool) (s : State) : Host.Outcome State Fault Refusal :=
  done (captureEdge (s.elapse at_) n rising)

/-- TIME_CONFIG_WRITE. -/
def execTimeConfigWrite (index sub value : Nat) (s : State) : Host.Outcome State Fault Refusal :=
  done (s.attempt index (timeCheck s index sub value) (fun t => timeApply t index sub value))

/-- PULSE_CONFIG_WRITE. -/
def execPulseConfigWrite (n sub value : Nat) (s : State) : Host.Outcome State Fault Refusal :=
  done (s.attempt (0x2030 + n) (firstCode [indexOk n 4, pulseCheck s n sub value]) (fun t => pulseApply t n sub value))

end Sys2Proof.Machine
end

