-- ==== Sys2Proof/Machine/Ring.lean ====
section
/-! DEFINITION. Ring ports, switch and bypass (R306 to R321): block lock and line modes, forwarding and delivery of frames, the
bypass holds with their dead-man, ring participation. -/
namespace Sys2Proof.Machine

/-! Link (R306 to R309, R321) -/

/-- The line mode that a port may lock in now (R306, R308), as a code of 2110+p:03; 0 where it may not. -/
def lockMode (s : State) (p : Nat) : Nat :=
  if s.fenced (0x600 + p) then 0 else
  match p with
  | 2 => 4
  | 3 => 3
  | _ =>
    if (s.port p).absent || (s.port p).fault then 0
    else
      let fec := if s.flag (0x2110 + p) 0x02 then 2 else 1
      match s.val 0 (0x2110 + p) 0x01 with
      | 1 => if (s.port p).trying = 3 then 3 else fec
      | 2 => fec
      | 3 => 3
      | _ => 0

/-- The ring-open condition and 2100:07 (R321). -/
def judgeRing (s : State) : State :=
  let inRing := decide (s.byp.partic = .inRing)
  let s1 := [0, 1].foldl (fun s p => s.condition 80 p 0 (inRing && !(s.port p).lock)) s
  s1.stset 0 0x2100 0x07 (b2n (inRing && (!(s.port 0).lock || !(s.port 1).lock)))

/-- A port attains block lock in its mode (R308). -/
def linkLock (s : State) (p mode : Nat) : State :=
  if mode ≠ 0 ∧ lockMode s p = mode then
    let s1 := s.setPort p { s.port p with lock := true, mode := mode }
    judgeRing (s1.stset 0 (0x2110 + p) 0x03 mode)
  else s

/-- A port loses its link; the alternation of mode 1 restarts with 25GBASE-R (R308). -/
def linkLoss (s : State) (p : Nat) : State :=
  if (s.port p).lock then
    let s1 := s.setPort p { s.port p with lock := false, mode := 0, trying := 1 }
    judgeRing (((s1.stset 0 (0x2110 + p) 0x03 0).bump (0x2110 + p) 0x0A 1).raise 82 p 0)
  else s

/-- Whether a locked port may keep mode `m` (R308): auto allows 10GBASE-R whichever mode it would try now. -/
def modeKept (s : State) (p m : Nat) : Bool :=
  decide (m = lockMode s p) ||
    (decide (p < 2 ∧ s.val 0 (0x2110 + p) 0x01 = 1) && (decide (m = 3) || decide (m = if s.flag (0x2110 + p) 0x02 then 2 else 1)))

/-- A ring port in auto mode without lock tries the other mode (R308). -/
def alternate (s : State) (p : Nat) : State :=
  if p < 2 && s.val 0 (0x2110 + p) 0x01 = 1 && !(s.port p).lock then
    s.setPort p { s.port p with trying := if (s.port p).trying = 3 then 1 else 3 }
  else s

/-- Refusals of a write to the line mode or RS-FEC of a port (R306, R309). -/
def portCheck (s : State) (p sub v : Nat) : Nat :=
  firstCode [indexOk p 4,
    match sub with
    | 0x01 => if p < 2 then rangeOk v 0 3 else need (decide (v = s.val 0 (0x2110 + p) 0x01)) Abort.range
    | 0x02 => firstCode [boolOk v, need (decide (p < 2 ∨ v = 0)) Abort.range]
    | _ => Abort.noSub,
    need (decide (2 ≤ p) || s.byp.partic = .outRing) Abort.conflict]

/-! Bypass (R316 to R320) -/

/-- DM_OK (R316): fed in at least one of the last two ticks. -/
def bypOk (s : State) : Bool := s.byp.fed1 || s.byp.fed2

/-- The hold equation of R316. -/
def holdEquation (s : State) : Bool := s.byp.en && bypOk s && !s.power.brownout && !s.power.inReset

/-- The code of a participation state (R320). -/
def Partic.code : Partic → Nat
  | .outRing => 0
  | .joining => 1
  | .inRing => 2

/-- The status entries of bypass and participation (R346). -/
def ringStatus (s : State) : State :=
  ((s.stset 0 0x2100 0x02 (Partic.code s.byp.partic)).stset 0 0x2100 0x05 (if s.byp.hold then 3 else 0)).stset 0 0x2100 0x06
    s.byp.cause

/-- The holds release (R319, R320): EN is cleared, the cause recorded, and the module is Out. Causes: 1 reset, 2 brown-out,
3 dead-man, 4 command. -/
def releaseHolds (s : State) (cause : Nat) : State :=
  let s1 : State := { s with byp := { s.byp with en := false, hold := false, cause := cause, partic := .outRing } }
  (judgeRing (ringStatus s1)).raise 81 cause 0

/-- The holds sink as soon as the equation of R316 holds, and Joining begins with its settle time (R320). -/
def sinkHolds (s : State) : State :=
  if !s.byp.hold && holdEquation s then
    ringStatus { s with byp := { s.byp with
      hold := true, partic := .joining, settle := s.clk.tick + 3 * s.val 20 0x2100 0x03 } }
  else s

/-- EN is set (R319, R320). DESIGN CHOICE (log 97): where another term of R316 is false the module stays Out with EN set, and no hold is
released, until the equation holds. -/
def setEn (s : State) : State := if s.byp.en then s else sinkHolds { s with byp := { s.byp with en := true } }

/-- EN is cleared: holds that sink release with a cause (R319). -/
def clearEn (s : State) (cause : Nat) : State :=
  if s.byp.hold then releaseHolds s cause else { s with byp := { s.byp with en := false } }

/-- The dead-man's history at a tick boundary (R316 to R319): `fed` tells whether the tick that ends fed it; a second unfed
boundary releases holds that sink. -/
def bypassTick (s : State) (fed : Bool) : State :=
  let b := s.byp
  let s1 : State := { s with byp := { b with
    fed2 := b.fed1, fed1 := fed || b.fedNow, fedNow := false, fedRun := if fed || b.fedNow then b.fedRun + 1 else 0 } }
  if s1.byp.hold && !bypOk s1 then releaseHolds s1 3 else sinkHolds s1

/-- Automatic rejoin (R319). -/
def rejoin (s : State) : State :=
  if s.flag 0x2100 0x04 && s.flag 0x2100 0x01 && !s.byp.en && decide (3000 ≤ s.byp.fedRun) && !s.power.brownout then setEn s
  else s

/-- The settle time has run (R320). -/
def settleEnd (s : State) : State :=
  if s.byp.partic = .joining && decide (s.byp.settle ≤ s.clk.tick) then
    judgeRing (ringStatus { s with byp := { s.byp with partic := .inRing } })
  else s

/-- The effect of a write to 2100:01 (R318 to R320). -/
def ringApply (s : State) (v : Nat) : State :=
  let s1 := s.put 0 0x2100 0x01 v
  if v = 1 then setEn s1 else clearEn s1 4

/-- A register write to EN of BYP_CTRL. -/
def bypEnWrite (s : State) (v : Bool) : State :=
  if v then setEn s else clearEn s 4

/-- A register write of FEED to BYP_CTRL: ignored while 1100:03 is 1. -/
def bypFeed (s : State) : State :=
  if s.flag 0x1100 0x03 then s else { s with byp := { s.byp with fedNow := true } }

/-- BYP_CTRL as it reads (R319). -/
def bypWord (s : State) : Nat :=
  b2n s.byp.en + 2 * b2n (bypOk s) + 4 * b2n s.power.brownout + 8 * b2n s.byp.hold + 16 * b2n s.byp.hold + 32 * (s.byp.cause % 8)

/-- VIN below 4.2 V (R316). -/
def brownout (s : State) (vin : Nat) : State :=
  let s1 : State := { s with power := { s.power with vinMv := vin } }
  if 4200 ≤ vin then s1
  else
    let s2 : State := { s1 with power := { s1.power with brownout := true } }
    if s2.byp.hold then releaseHolds s2 2 else s2

/-- VIN above 4.4 V for 10 ms (R316). -/
def brownoutEnd (s : State) (vin : Nat) : State :=
  let s1 : State := { s with power := { s.power with vinMv := vin } }
  if 4400 < vin then sinkHolds { s1 with power := { s1.power with brownout := false } } else s1

/-! The switch (R307, R310 to R312) -/

/-- Whether a destination MAC is link-local (R311). -/
def linkLocal (mac : Nat) : Bool := decide (mac / 16 = 0x0180C200000)

/-- The multicast MAC address of an IPv4 group. -/
def groupMac (ip : Nat) : Nat := 0x01005E000000 + ip % 2 ^ 23

/-- The multicast MAC addresses of PTP: over Ethernet, and those of its UDP groups 224.0.1.129 and 224.0.0.107. -/
def ptpMac (mac : Nat) : Bool := mac = 0x011B19000000 || mac = groupMac 0xE0000181 || mac = groupMac 0xE000006B

/-- The enabled receive slots. -/
def rxEnabled (d : SMap Nat) : List Nat := enabledIn d 0x2200 64 0x01

/-- Whether a frame carries ARP. -/
def isArp : FrameKind → Bool
  | .arp .. => true
  | _ => false

/-- Whether a frame is addressed to the module (R311). -/
def addressed (s : State) (f : RingFrame) : Bool :=
  decide (f.dstMac = Config.mac.toNat) || (decide (f.dstMac = 0xFFFFFFFFFFFF) && isArp f.kind) || ptpMac f.dstMac ||
  (rxEnabled s.dict).any (fun i => decide (f.dstMac = groupMac (s.val 0 (0x2200 + i) 0x03)))

/-- A frame forwarded to the other ring port where that is open (R312): an error ends it with an inverted check sequence. -/
def forwardFrame (s : State) (p : Nat) (f : RingFrame) (bad : Bool) : State := s.sendPort (1 - p) (.ring (1 - p) f bad)

/-- A frame delivered to the internal port, unless its check failed. -/
def deliverFrame (s : State) (f : RingFrame) (bad : Bool) : State := if bad then s else s.send (.deliver f)

/-- The answer to an ARP request or an ICMP echo request for the ring address 2100:0C (R311), on the port that the request came in
by (DESIGN CHOICE, log 96). -/
def answerFrame (s : State) (p : Nat) (f : RingFrame) (bad : Bool) : State :=
  let own := s.val 0 0x2100 0x0C
  if bad || own = 0 then s
  else
    match f.kind with
    | .arp true target => if target = own then s.sendPort p (.arpReply p f.srcMac own) else s
    | .ipv4 _ dst true => if dst = own then s.sendPort p (.echoReply p f.srcMac own) else s
    | _ => s

/-- The errors of a frame that was received whole: check sequence and length, each counted once in the ingress port. -/
def countFrameErrors (s : State) (p : Nat) (f : RingFrame) : State :=
  let s1 := if f.fcsOk then s else s.bump (0x2110 + p) 0x06 1
  if 9022 < f.length then s1.bump (0x2110 + p) 0x09 1 else s1

/-- The event messages by their messageType (IEEE 1588-2019). -/
def eventKind : Nat → Option PtpKind
  | 0 => some .sync
  | 1 => some .delayReq
  | 2 => some .pdelayReq
  | 3 => some .pdelayResp
  | _ => none

/-- A PTP frame as it leaves the other ring port (R61, R72): in roles 1 and 2 an event message carries its corrected
correctionField. -/
def ptpCorrected (s : State) (p : Nat) (f : RingFrame) : RingFrame :=
  match f.kind with
  | .ptp source mtype seqId capture depart corr =>
    match eventKind mtype with
    | some kind =>
      if clockRole s = 0 then f
      else { f with kind := .ptp source mtype seqId capture depart (corr + transitAdds s p (1 - p) kind capture depart) }
    | none => f
  | _ => f

/-- A PTP frame of the ring (R72, R311): a repeat within 10 ms on its port is dropped. -/
def ptpFrame (s : State) (p : Nat) (f : RingFrame) (source mtype seqId : Nat) (bad : Bool) : State :=
  let now := s.clk.local
  let recent := s.seen.filter (fun e => decide (now - e.time ≤ 10000000))
  if recent.any (fun e => decide (e.port = p ∧ e.source = source ∧ e.mtype = mtype ∧ e.seqId = seqId)) then
    { s with seen := recent ++ [⟨p, source, mtype, seqId, now⟩] }
  else
    let s1 : State := { s with seen := recent ++ [⟨p, source, mtype, seqId, now⟩] }
    deliverFrame (if clockRole s1 = 3 then s1 else forwardFrame s1 p (ptpCorrected s1 p f) bad) f bad

/-- A frame on a ring port by the first rule of R311 that matches; in Out and Joining it is discarded (R320). -/
def ringFrame (s0 : State) (p : Nat) (f : RingFrame) : State :=
  let s := s0.heard p
  if s.byp.partic ≠ .inRing || f.pause || decide (f.srcMac = Config.mac.toNat) then s
  else if f.length < 64 then s.bump (0x2110 + p) 0x09 1
  else
    let bad := !f.fcsOk || decide (9022 < f.length)
    let s1 := countFrameErrors s p f
    if linkLocal f.dstMac then deliverFrame s1 f bad
    else
      match f.kind with
      | .ipv4 ttl dst echo =>
        let s2 := if ttl ≤ 1 then s1 else forwardFrame s1 p { f with kind := .ipv4 (ttl - 1) dst echo } bad
        if addressed s f then answerFrame (deliverFrame s2 f bad) p f bad else s2
      | .ptp source mtype seqId _ _ _ => ptpFrame s1 p f source mtype seqId bad
      | _ => if addressed s f then answerFrame (deliverFrame s1 f bad) p f bad else s1

/-! The commands -/

/-- RING_FRAME_RECEIVED: nothing arrives on a port without link. -/
def execRingFrameReceived (at_ port : Nat) (frame : RingFrame) (s : State) : Host.Outcome State Fault Refusal :=
  done (
    let s1 := s.elapse at_
    if port < 2 && (s1.port port).lock then ringFrame s1 port frame else s1)

/-- LINK_LOCK. -/
def execLinkLock (port mode : Nat) (s : State) : Host.Outcome State Fault Refusal :=
  done (if port < 4 then linkLock s port mode else s)

/-- LINK_LOSS. -/
def execLinkLoss (port : Nat) (s : State) : Host.Outcome State Fault Refusal :=
  done (if port < 4 then linkLoss s port else s)

/-- LINE_MODE_ALTERNATE. -/
def execLineModeAlternate (port : Nat) (s : State) : Host.Outcome State Fault Refusal := done (alternate s port)

/-- SFP_MODULE_ABSENT_OR_FAULT: a module absent or in fault is link down (R309). -/
def execSfpModuleAbsentOrFault (port : Nat) (absent fault : Bool) (s : State) : Host.Outcome State Fault Refusal :=
  done (
    if port < 2 then
      let s1 := s.setPort port { s.port port with absent := absent, fault := fault }
      if absent || fault then linkLoss s1 port else s1
    else s)

/-- BYPASS_DEADMAN_STARVED. -/
def execBypassDeadmanStarved (s : State) : Host.Outcome State Fault Refusal :=
  done (if s.byp.hold && !bypOk s then releaseHolds s 3 else s)

/-- AUTOMATIC_REJOIN. -/
def execAutomaticRejoin (s : State) : Host.Outcome State Fault Refusal := done (rejoin s)

/-- SETTLE_TIME_END. -/
def execSettleTimeEnd (s : State) : Host.Outcome State Fault Refusal := done (settleEnd s)

/-- BYP_CTRL_EN_WRITE. -/
def execBypCtrlEnWrite (value : Bool) (s : State) : Host.Outcome State Fault Refusal := done (bypEnWrite s value)

/-- BYP_CTRL_FEED. -/
def execBypCtrlFeed (s : State) : Host.Outcome State Fault Refusal := done (bypFeed s)

/-- RING_PARTICIPATION. -/
def execRingParticipation (value : Nat) (s : State) : Host.Outcome State Fault Refusal :=
  done (s.attempt 0x2100 (boolOk value) (fun t => ringApply t value))

end Sys2Proof.Machine
end

