-- ==== Sys2Proof/Machine/Streams.lean ====
section
/-! DEFINITION. Receive slots (R322 to R338, R343 to R347): matching, checks, copies and roles, placement of samples by presentation time,
and the blocks that ingress commits from them. -/
namespace Sys2Proof.Machine

/-! Slots (R331, R334) -/

/-- A receive slot. -/
def rxOf (s : State) (i : Nat) : RxSlot := mget RxSlot.init s.rx i

/-- A receive slot replaced. -/
def setRx (s : State) (i : Nat) (v : RxSlot) : State := { s with rx := mset RxSlot.init s.rx i v }

/-- The type of a slot. -/
def rxType (d : SMap Nat) (i : Nat) : Nat := ent d 0 (0x2200 + i) 0x02

/-- The slot mask. -/
def rxMask (d : SMap Nat) (i : Nat) : Nat := ent d 0 (0x2200 + i) 0x06

/-- Whether a slot takes packets (R334). -/
def rxActive (d : SMap Nat) (i : Nat) : Bool :=
  decide (ent d 0 (0x2200 + i) 0x01 ≠ 0) &&
  (rxType d i = 4 || (decide (1 ≤ rxType d i ∧ rxType d i ≤ 3) && decide (rxMask d i ≠ 0)))

/-- The default of an entry of a receive slot (R347). -/
def rxDefault (sub : Nat) : Nat := if sub = 0x04 then 5004 else if sub = 0x0A then 98 else 0

/-- The numeric entries of a slot that will be in force for block `k` (R39, R343): those of the running tick with the writes that
wait for a block up to `k`. -/
def slotDict (s : State) (i k : Nat) : SMap Nat :=
  let due := s.pend.filter (fun p => decide (p.index = 0x2200 + i) && decide (p.block ≤ k) && decide (p.sub ≠ 0x07))
  (sortBy pendBefore due).foldl (fun d p => mset (rxDefault p.sub) d (key p.index p.sub) (beNat p.bytes)) (s.dictAt (s.clk.tick - k))

/-- The entries by which a slot takes a packet of block `k`: those in force for it, or in the block in which the slot is disabled
those of the block before (R343, R344). -/
def packetDict (s : State) (i k : Nat) : SMap Nat :=
  let d := slotDict s i k
  if ent d 0 (0x2200 + i) 0x01 ≠ 0 then d else slotDict s i (k - 1)

/-- The STREAM or SSRC field of a payload. -/
def streamField (t : Nat) (p : List Byte) : Nat := if 3 ≤ t then beAt p 4 4 else beAt p 8 4

/-- Whether a datagram matches a slot with entries `d` (R331). -/
def rxMatches (d : SMap Nat) (i : Nat) (g : Datagram) : Bool :=
  let t := rxType d i
  let want := ent d 0 (0x2200 + i) 0x05
  rxActive d i && decide (g.dstIp = ent d 0 (0x2200 + i) 0x03) && decide (g.dstPort = ent d 5004 (0x2200 + i) 0x04) &&
  (streamField t g.payload = want || (decide (t < 3) && decide (want = 0)))

/-! Checks (R332, R333) -/

/-- The outcome of the checks of a packet. -/
inductive RxCheck where
  | valid
  | malformed
  | claim
  deriving DecidableEq, Repr

/-- A Block Stream or Placement packet (R322 to R324, R332, R333). -/
def checkThrumuryon (n t mask : Nat) (g : Datagram) : RxCheck :=
  let p := g.payload
  let kind := beAt p 0 2 = 0x5442 ∧ beAt p 2 1 = 1 ∧ beAt p 3 1 = t - 2 ∧ 32 ≤ p.length
  let channels := beAt p 21 1
  let count := beAt p 22 2
  let chmask := beAt p 24 8
  if kind ∧ t = 3 ∧ bitsSet 64 chmask ≠ (bitsSet 64 chmask).filter (fun c => bitOf mask c) then .claim
  else if g.ipOk && !g.frag && g.udpOk && decide kind && decide (beAt p 20 1 < 4) &&
      (if t = 3 then
        decide (1 ≤ channels ∧ channels = popcount 64 chmask ∧ count = n ∧ p.length = 32 + channels * count * 4)
      else decide (channels = 0 ∧ chmask = 0 ∧ count ≤ 186 ∧ p.length = 32 + count * 48)) then .valid
  else .malformed

/-- The bytes of a sample in an AES67 type (R325, R332). -/
def rtpWidth (t : Nat) : Nat := if t = 1 then 3 else 4

/-- The channels that an RTP packet carries. -/
def rtpChannels (n t : Nat) (p : List Byte) : Nat := (p.length - 12) / (n * rtpWidth t)

/-- An AES67 packet (R325, R332, R333): its channel claim decides before the other checks. -/
def checkRtp (n t mask pt : Nat) (g : Datagram) : RxCheck :=
  let p := g.payload
  let framed := decide (12 ≤ p.length) && decide (beAt p 0 1 = 0x80) && decide ((p.length - 12) % (n * rtpWidth t) = 0)
  if framed && decide (popcount 64 mask < rtpChannels n t p) then .claim
  else if framed && g.ipOk && !g.frag && g.udpOk && decide (beAt p 1 1 % 128 = pt) then .valid
  else .malformed

/-- The checks of a packet for slot `i` with entries `d`. -/
def rxCheck (n : Nat) (d : SMap Nat) (i : Nat) (g : Datagram) : RxCheck :=
  let t := rxType d i
  if 3 ≤ t then checkThrumuryon n t (rxMask d i) g
  else checkRtp n t (rxMask d i) (ent d 98 (0x2200 + i) 0x0A) g

/-! Position (R328 to R330) -/

/-- The epoch offsets on both sides of the rebase decided or last applied, and its block (R89). -/
def Clock.sides (c : Clock) : Int × Int × Nat :=
  match c.rebase with
  | some (e, b) => (c.epoch, e, b)
  | none => (c.epochPrev, c.epoch, c.epochB)

/-- A place on the local time scale that a network time names `old` by the offset before a rebase and `new` by the one after it, where
the rebase lies at `edge` and the module is at `now` (R89): before the edge the old conversion holds, from it on the new one. A time that
names a place on both sides is for the earlier one while it lies ahead, and a time of the span that a forward step skips is for none
and comes late: DESIGN CHOICE (log 110). -/
def rebased (now edge old new : Int) : Int :=
  if now ≤ old ∧ old < edge then old
  else if edge ≤ new then new
  else if old < edge then old
  else now - 1

/-- The local presentation tick of a PRES field (R328), with the epoch offset of the block concerned (R89). -/
def presTick (c : Clock) (tick pres : Nat) : Int :=
  let at_ := fun (e : Int) => (3000 * ((pres : Int) - e + 166667 + 1) - 1) / 1000000000
  rebased tick c.sides.2.2 (at_ c.sides.1) (at_ c.sides.2.1)

/-- The local index of the first sample of an RTP packet (R329) for a slot with entries `d`, under the epoch offset `e`. -/
def rtpIndexAt (s : State) (d : SMap Nat) (i : Nat) (p : List Byte) (e : Int) : Int :=
  let ref : Int := (s.n * s.clk.tick : Nat)
  let base := ref + fdiv (e * (mediaRate s.dict : Nat)) 1000000000 + (ent d 0 (0x2200 + i) 0x08 : Nat)
  ref + compatDiff (beAt p 4 4) (toPat 32 base) + (ent d 0 (0x2200 + i) 0x09 : Nat)

/-- The local index of the first sample of an RTP packet, with the epoch offset of the block that takes it (R89). -/
def rtpIndex (s : State) (d : SMap Nat) (i : Nat) (p : List Byte) : Int :=
  let (old, new, b) := s.clk.sides
  rebased (s.n * s.clk.tick : Nat) (s.n * b : Nat) (rtpIndexAt s d i p old) (rtpIndexAt s d i p new)

/-- The tick of an RTP packet's first sample, with the presentation offset in force for that block (R329, R343). -/
def rtpTick (s : State) (i : Nat) (p : List Byte) : Int :=
  let at_ := fun (k : Nat) => rtpIndex s (slotDict s i k) i p / (s.n : Int)
  match (List.range 8).find? (fun j => decide (at_ (s.clk.tick + j) = (s.clk.tick + j : Nat))) with
  | some j => (s.clk.tick + j : Nat)
  | none => at_ s.clk.tick

/-- The tick that a packet is for and the entries of the slot that take it: the presentation tick of a Thrumuryon packet, or the
tick of the first sample of an RTP packet. -/
def packetTick (s : State) (i : Nat) (p : List Byte) : Int × SMap Nat :=
  let k := presTick s.clk s.clk.tick (beAt p 8 8)
  let d := packetDict s i k.toNat
  if 3 ≤ rxType d i then (k, d)
  else
    let r := rtpTick s i p
    (r, packetDict s i r.toNat)

/-- What tells the copies of one packet apart from other packets (R335): the presentation tick, or SEQ. -/
def copyKey (d : SMap Nat) (i : Nat) (k : Nat) (p : List Byte) : Nat :=
  match rxType d i with
  | 3 => k
  | 4 => beAt p 16 4
  | _ => beAt p 2 2

/-- The margin of a copy that has just been received whole (R315). -/
def marginOf (s : State) (k : Int) : Int :=
  (k + 1) * 1000000000 / 3000 - 20000 - ((tickStart s.clk.tick + s.clk.ofs : Nat) : Int)

/-! Taking a copy (R327, R335) -/

/-- Samples of one packet in the slot's buffer: `chans` in the order of the packet, `w` bytes each. -/
def placeSamples (buf : SMap (Option Int)) (first : Int) (n : Nat) (chans : List Nat) (w : Nat) (data : List Byte) :
    SMap (Option Int) :=
  (List.range n).foldl (fun m j =>
    (List.range chans.length).foldl (fun m c =>
      let at_ := (j * chans.length + c) * w
      let v := toSigned 32 (beAt data at_ w * 2 ^ (32 - 8 * w))
      let idx := first + j
      if 0 ≤ idx then mset none m (idx.toNat * 64 + chans.getD c 0) (some v) else m) m) buf

/-- The records of a Placement payload. -/
def recordsOf (p : List Byte) : List (List Byte) := chunks 48 (beAt p 22 2) (p.drop 32)

/-- The contents of a copy taken by slot `i` for tick `k` (R323, R324, R327). Whether 3800:01 names the slot in that block decides over
its keyframes in that block (R108); the malformed records of a packet count where the writes accepted so far say so. -/
def takeContents (s : State) (i k : Nat) (p : List Byte) : State :=
  let r := rxOf s i
  let d := packetDict s i k
  match rxType d i with
  | 4 => takeRecords s k i (beAt p 16 4) (decide (s.valFor 255 0x3800 0x01 k = i)) (recordsOf p)
  | 3 => setRx s i { r with buf := placeSamples r.buf (s.n * k : Nat) s.n (bitsSet 64 (beAt p 24 8)) 4 (p.drop 32) }
  | t =>
    let chans := (bitsSet 64 (rxMask d i)).take (rtpChannels s.n t p)
    setRx s i { r with buf := placeSamples r.buf (rtpIndex s d i p) s.n chans (rtpWidth t) (p.drop 12) }

/-- A copy taken: counted, and marked where it came within 10,000 ns of the cut-off (R469). -/
def takeCopy (s : State) (i : Nat) (c : RxCopy) (p : List Byte) (margin : Int) : State :=
  let r := rxOf s i
  let dropped := (r.shadow.filter (fun h => decide (h.key = c.key))).length
  let s1 := setRx s i { r with taken := r.taken ++ [c], shadow := r.shadow.filter (fun h => decide (h.key ≠ c.key)), got := true }
  let s2 := (s1.bump (0x2200 + i) 0x0C 1).bump (0x2200 + i) 0x0D dropped
  takeContents (if margin < 10000 then s2.mark c.block 2 else s2) i c.block p

/-- A duplicate (R335), with a role conflict where a primary copy's TWIN bit differs from that of the primary copy taken. -/
def duplicate (s : State) (i : Nat) (c q : RxCopy) : State :=
  let s1 := s.bump (0x2200 + i) 0x0D 1
  if q.primary && c.primary && decide (q.twin ≠ c.twin) && !c.conflict then
    let r := rxOf s1 i
    let s2 := setRx s1 i { r with taken := r.taken.map (fun e => if e.key = c.key then { e with conflict := true } else e) }
    (s2.bump (0x2200 + i) 0x14 1).raise 85 i 0
  else s1

/-- A valid copy in time (R335). -/
def rxCopy (s : State) (d : SMap Nat) (i k : Nat) (p : List Byte) (margin : Int) : State :=
  let flags := if 3 ≤ rxType d i then beAt p 20 1 else 1
  let q := RxCopy.mk (copyKey d i k p) k (flags / 2 % 2) (flags % 2 = 1) false
  let r := rxOf s i
  match r.taken.find? (fun e => decide (e.key = q.key)) with
  | some c => duplicate s i c q
  | none =>
    if q.primary then takeCopy s i q p margin
    else if r.shadow.any (fun h => decide (h.key = q.key)) then s.bump (0x2200 + i) 0x0D 1
    else setRx s i { r with shadow := r.shadow ++ [⟨q.key, k, q.twin, p⟩] }

/-- A packet for slot `i`, where it matches (R330 to R333, R335, R343). -/
def rxPacket (s : State) (g : Datagram) (i : Nat) : State :=
  let e := 0x2200 + i
  let (k, d) := packetTick s i g.payload
  if !rxMatches d i g then s
  else match rxCheck s.n d i g with
  | .malformed => (s.bump e 0x10 1).raise 86 i 0
  | .claim => (s.bump e 0x11 1).raise 84 i 0
  | .valid =>
    if (s.clk.tick : Int) + 7 < k then s.bump e 0x0F 1
    else
      let m := marginOf s k
      let s1 := s.stset 0x7FFFFFFF e 0x13 (toPat 32 (min (toSigned 32 (s.stget 0x7FFFFFFF e 0x13)) (satS 32 m)))
      if k < (s.clk.tick : Int) || decide (m < 0) then ((s1.bump e 0x0E 1).raise 87 i 0).mark k.toNat 2
      else rxCopy s1 d i k.toNat g.payload m

/-- The slots that are enabled, were enabled for the block before, or have a write waiting. -/
def rxSlots (s : State) : List Nat :=
  (s.pend.filter (fun p => decide (0x2200 ≤ p.index ∧ p.index < 0x2240))).foldl (fun l p => setAdd (p.index - 0x2200) l)
    ((rxEnabled (s.dictAt 1)).foldl (fun l i => setAdd i l) (rxEnabled s.dict))

/-- The cut-off of a tick (R335): shadow copies held for it are taken. -/
def shadowCutoff (s : State) (i block : Nat) : State :=
  ((rxOf s i).shadow.filter (fun h => decide (h.block = block))).foldl (fun s h =>
    if (rxOf s i).shadow.contains h then
      let r := rxOf s i
      let s1 := setRx s i { r with shadow := r.shadow.filter (fun e => e ≠ h) }
      takeCopy (s1.bump (0x2200 + i) 0x15 1) i ⟨h.key, h.block, h.twin, false, false⟩ h.payload 10000
    else s) s

/-! Ingress commit of the slots (R336, R343, R344) -/

/-- The stream channel of slot channel `c`, 0xFF for none (R347). -/
def rxMap (dom : SMap (List Byte)) (i c : Nat) : Nat :=
  let b := entBytes dom (0x2200 + i) 0x07
  if b.isEmpty then c else (b.getD c 0xFF#8).toNat

/-- The source of a slot channel: a stream channel of the mask in force, if any (R344). -/
def rxSource (d : SMap Nat) (dom : SMap (List Byte)) (i c : Nat) : Option Nat :=
  let m := rxMap dom i c
  if decide (ent d 0 (0x2200 + i) 0x01 ≠ 0) && decide (1 ≤ rxType d i ∧ rxType d i ≤ 3) && decide (m < 64) && bitOf (rxMask d i) m
  then some m else none

/-- The samples of a stream channel in block `block`; none where one is missing. -/
def rxBlock (n : Nat) (buf : SMap (Option Int)) (block c : Nat) : Option (List Int) :=
  let l := (List.range n).map (fun j => mget none buf ((n * block + j) * 64 + c))
  if l.all (fun x => x.isSome) then some (l.map (fun x => x.getD 0)) else none

/-- What a slot channel presents in a block with its fade after it, and whether it is in underrun in it (R336, R344): a source that is
lost or replaced falls from its own block, or from the block before where the mask in force no longer holds it; where it lacks its
block otherwise, the underrun takes the place of the change. -/
structure RxStep where
  y     : List Int
  fade  : FadeCh
  under : Bool
  deriving DecidableEq, Repr

/-- A channel whose source changes from `old` to `new` at this block (R344): what it presents and where its fade then stands.
`blk` gives the samples of a source, none where they are missing. -/
def changeStep {α : Type} [DecidableEq α] (n : Nat) (old new : Option α) (c : FadeCh) (blk : α → Option (List Int)) :
    List Int × FadeCh :=
  match old, new with
  | none, none => (silence n, FadeCh.rising)
  | none, some a => fadeStep n FadeCh.rising (blk a).isNone ((blk a).getD [])
  | some a, some b =>
    if a = b then fadeStep n c (blk b).isNone ((blk b).getD [])
    else (falling a, FadeCh.rising)
  | some a, none => (falling a, FadeCh.rising)
where
  /-- The old source on the falling ramp: its block, or where that is missing its block before (R43, R336). -/
  falling (a : α) : List Int :=
    match c.fade with
    | .ok => (match blk a with
      | some x => fallRamp n (fullBlock n x)
      | none => fallRamp n (fullBlock n c.prev))
    | .silent _ => silence n

/-- What ingress has of the slots in a block: samples by slot channel, slots in underrun. -/
structure RxGather where
  inputs : SMap (List Int)
  under  : List Nat
  deriving DecidableEq, Repr

/-- The ramps that re-anchor a receive channel at a rebase (R90): falling in block B − 1, rising in block B. -/
def anchorRamp (s : State) (y : List Int) : List Int :=
  let x := s.clk.tick
  let y1 := match s.clk.rebase with
    | some (_, b) => if x + 1 = b then fallRamp s.n y else y
    | none => y
  if s.clk.epochB = x && decide (x ≠ 0) then riseRamp s.n y1 else y1

/-- One channel of a slot at ingress commit (R336, R344). `held` tells whether the packets of this block still carry a stream channel
that the slot loses. -/
def rxStep (n : Nat) (old new : Option Nat) (held : Nat → Bool) (c : FadeCh) (blk : Nat → Option (List Int)) : RxStep :=
  match old, new with
  | some a, some b =>
    if a ≠ b && held a && (blk a).isNone then RxStep.mk (fadeStep n c true []).1 (fadeStep n c true []).2 true
    else RxStep.mk (changeStep n old new c blk).1 (changeStep n old new c blk).2 (decide (a = b) && (blk b).isNone)
  | some a, none =>
    RxStep.mk (changeStep n old new c blk).1 (changeStep n old new c blk).2 (held a && (blk a).isNone)
  | none, some b => RxStep.mk (changeStep n old new c blk).1 (changeStep n old new c blk).2 (blk b).isNone
  | none, none => RxStep.mk (silence n) FadeCh.rising false

/-- One slot at ingress commit of block X (R90, R336, R344); its underrun begins anew in the first block of a render, and
of an enable. -/
def rxCommitSlot (s : State) (first : Bool) (acc : State × SMap (List Int)) (i : Nat) : State × SMap (List Int) :=
  let (t, inputs) := acc
  let n := s.n
  let x := s.clk.tick
  let r := rxOf s i
  let dOld := if first then [] else s.dictAt 1
  let held := fun (m : Nat) => !s.flag (0x2200 + i) 0x01 || bitOf (rxMask s.dict i) m
  let step := fun (a : SMap (List Int) × SMap FadeCh × Bool) (c : Nat) =>
    let old := rxSource dOld (s.domAt 1) i c
    let new := rxSource s.dict s.dom i c
    let z := rxStep n old new held (mget FadeCh.rising a.2.1 c) (rxBlock n r.buf x)
    let ins := if old.isNone && new.isNone then a.1 else mset [] a.1 (i * 64 + c) (anchorRamp s z.y)
    (ins, mset FadeCh.rising a.2.1 c z.fade, a.2.2 || z.under)
  let (ins, fades, under) := (List.range 64).foldl step (inputs, r.fades, false)
  let t1 := setRx t i { r with fades := fades, under := under && s.flag (0x2200 + i) 0x01 }
  let t2 := if under then
      let t3 := t1.bump (0x2200 + i) 0x12 1
      if r.under && !first then t3 else t3.raise 83 i 0
    else t1
  (t2, ins)

/-- The slots that present or have presented channels. -/
def rxCommitSlots (s : State) : List Nat :=
  (rxEnabled (s.dictAt 1)).foldl (fun l i => setAdd i l) (rxEnabled s.dict)

/-- Ingress commit of every slot; `first` in the apply block of a render enable (R564). -/
def rxCommit (s : State) (first : Bool) : State × SMap (List Int) :=
  (rxCommitSlots s).foldl (rxCommitSlot s first) (s, [])

/-- The state of a slot (2200+s:0B); no slot is in underrun while rendering is off (R336). -/
def rxStateCode (s : State) (i : Nat) : Nat :=
  let r := rxOf s i
  if !rxActive s.dict i then 0
  else if r.under && s.flag 0x1100 0x03 then 3
  else if r.fades.any (fun e => Fade.silenced e.2.fade && (rxSource s.dict s.dom i e.1).isSome) && s.flag 0x1100 0x03 then 4
  else if r.got then 2 else 1

/-- What a slot keeps at a tick boundary: samples and copies of ticks to come. -/
def rxSweep (s : State) : State :=
  let x := s.clk.tick
  let s1 := s.rx.foldl (fun t e =>
    let r := e.2
    setRx t e.1 { r with
      buf := r.buf.filter (fun b => decide (s.n * x * 64 ≤ b.1)), taken := r.taken.filter (fun c => decide (x ≤ c.block)),
      shadow := r.shadow.filter (fun c => decide (x ≤ c.block)) }) s
  (List.range 64).foldl (fun t i => t.stset 0 (0x2200 + i) 0x0B (rxStateCode t i)) s1

/-! Writes (R343, R345, R347) -/

/-- The checks of a receive channel map. -/
def rxMapCheck (b : List Byte) : Nat :=
  firstCode [need (decide (b.length = 64)) Abort.length,
    need (b.all (fun x => decide (x.toNat < 64) || decide (x.toNat = 255))) Abort.range]

/-- Whether a code of a transmit channel map is one of R340. -/
def txCodeOk (c : Nat) : Bool :=
  decide (c < 0x200 ∨ (0x400 ≤ c ∧ c < 0x480) ∨ (0x800 ≤ c ∧ c < 0x820) ∨ (0xC00 ≤ c ∧ c < 0xC08) ∨ c = 0xFFFF)

/-- The checks of a transmit channel map. -/
def txMapCheck (b : List Byte) : Nat :=
  firstCode [need (decide (b.length = 128)) Abort.length, need ((beHalves b).all txCodeOk) Abort.range]

/-- Refusals of a write to :01, :06 or :07 of a slot. -/
def slotChangeCheck (transmit : Bool) (i sub : Nat) (v : Val) : Nat :=
  firstCode [indexOk i 64,
    match sub, v with
    | 0x01, .num x => boolOk x
    | 0x06, .num x => rangeOk x 0 (2 ^ 64 - 1)
    | 0x07, .bytes b => if b.isEmpty then 0 else if transmit then txMapCheck b else rxMapCheck b
    | 0x01, .bytes _ => Abort.length
    | 0x06, .bytes _ => Abort.length
    | 0x07, .num _ => Abort.length
    | _, _ => Abort.noSub]

/-- The effect of such a write at its block: the channels change when that block is committed or sent (R344). -/
def slotChangeApply (s : State) (transmit : Bool) (i sub : Nat) (v : Val) : State :=
  let index := if transmit then 0x2300 + i else 0x2200 + i
  match v with
  | .num x => s.put 0 index sub x
  | .bytes b => if b.isEmpty then s else s.putBytes index sub b

/-- Refusals of a write to :02 to :05 or :08 of an enabled slot (R345). -/
def slotIdleCheck (s : State) (index : Nat) : Nat := need (!s.flag index 0x01) Abort.conflict

/-! The commands -/

/-- STREAM_PACKET_RECEIVED: a ring port takes packets in state In only (R320). -/
def execStreamPacketReceived (at_ port : Nat) (dgram : Datagram) (s : State) : Host.Outcome State Fault Refusal :=
  done (
    let s1 := s.elapse at_
    if port < 2 && (s1.port port).lock && s1.byp.partic = .inRing then
      (rxSlots s1).foldl (fun t i => rxPacket t dgram i) s1
    else s1)

/-- SHADOW_CUTOFF: at t_(k+1) − 20,000 ns of the running tick. -/
def execShadowCutoff (slot block : Nat) (s : State) : Host.Outcome State Fault Refusal :=
  done (
    if block = s.clk.tick then
      let s1 := s.elapse (tickLen s.clk.tick - 20000)
      if slot < 64 then shadowCutoff s1 slot block else s1
    else s)

/-- SLOT_CHANNEL_CHANGE. -/
def execSlotChannelChange (transmit : Bool) (slot sub : Nat) (value : Val) (s : State) : Host.Outcome State Fault Refusal :=
  done (s.attempt ((if transmit then 0x2300 else 0x2200) + slot) (slotChangeCheck transmit slot sub value) (fun t => slotChangeApply t transmit slot sub value))

/-- CLEAR_SLOT_STATISTICS: 1 clears the counters of the slot at the next boundary. -/
def execClearSlotStatistics (slot value : Nat) (s : State) : Host.Outcome State Fault Refusal :=
  done (s.attempt (0x2200 + slot) (firstCode [indexOk slot 64, boolOk value]) (fun t =>
    if value = 1 then { t with todo := { t.todo with rxStats := setAdd slot t.todo.rxStats } } else t))

end Sys2Proof.Machine
end

