-- ==== Sys2Proof/Machine/Tables.lean ====
section
/-! DEFINITION. The two constant tables of the module: the interpolation table 3802:01 (R136, R137) and the twiddle table
3803:10 (R162). The words are the rules' own formulas evaluated outside Lean in exact arithmetic (90 digits, no value nearer
than 10^-5 to an integer but those the rule makes exact); phases 128 to 255 follow from the symmetry of the formula. -/
namespace Sys2Proof.Machine

/-- Phases 0 to 15 of the interpolation table (R136). -/
def interpRows0 : List (List Int) :=
  [[21248883, -83853990, 168488041, 1931313383, 175281925, -85612982, 21595464, -977081],
   [20903844, -82102294, 161746793, 1931247357, 182128404, -87379114, 21943545, -1004892],
   [20560124, -80357017, 155056241, 1931090625, 189025018, -89151091, 22292798, -1033052],
   [20217776, -78618377, 148416674, 1930843197, 195971451, -90928685, 22643166, -1061558],
   [19876853, -76886584, 141828375, 1930505096, 202967383, -92711664, 22994591, -1090405],
   [19537406, -75161848, 135291622, 1930076349, 210012483, -94499794, 23347014, -1119589],
   [19199484, -73444375, 128806686, 1929556997, 217106419, -96292838, 23700376, -1149104],
   [18863137, -71734368, 122373828, 1928947085, 224248846, -98090555, 24054616, -1178947],
   [18528414, -70032026, 115993307, 1928246672, 231439418, -99892701, 24409671, -1209111],
   [18195361, -68337546, 109665371, 1927455823, 238677778, -101699029, 24765478, -1239591],
   [17864024, -66651122, 103390263, 1926574612, 245963563, -103509290, 25121975, -1270381],
   [17534450, -64972943, 97168219, 1925603124, 253296406, -105323230, 25479096, -1301477],
   [17206681, -63303197, 90999468, 1924541452, 260675929, -107140593, 25836775, -1332871],
   [16880762, -61642066, 84884232, 1923389697, 268101752, -108961121, 26194945, -1364558],
   [16556735, -59989731, 78822727, 1922147971, 275573483, -110784550, 26553540, -1396530],
   [16234641, -58346370, 72815160, 1920816392, 283090729, -112610617, 26912490, -1428782]]

/-- Phases 16 to 31 of the interpolation table (R136). -/
def interpRows1 : List (List Int) :=
  [[15914520, -56712156, 66861735, 1919395091, 290653087, -114439052, 27271725, -1461305],
   [15596413, -55087260, 60962644, 1917884204, 298260147, -116269585, 27631176, -1494094],
   [15280357, -53471851, 55118076, 1916283879, 305911494, -118101941, 27990770, -1527140],
   [14966390, -51866091, 49328211, 1914594272, 313606706, -119935843, 28350435, -1560436],
   [14654549, -50270143, 43593225, 1912815545, 321345355, -121771011, 28710097, -1593973],
   [14344869, -48684164, 37913283, 1910947873, 329127006, -123607163, 29069683, -1627744],
   [14037386, -47108309, 32288547, 1908991439, 336951218, -125444012, 29429117, -1661741],
   [13732132, -45542730, 26719169, 1906946431, 344817542, -127281269, 29788323, -1695954],
   [13429141, -43987574, 21205296, 1904813052, 352725524, -129118644, 30147223, -1730375],
   [13128445, -42442988, 15747069, 1902591508, 360674705, -130955841, 30505740, -1764994],
   [12830074, -40909112, 10344620, 1900282017, 368664617, -132792564, 30863795, -1799803],
   [12534059, -39386085, 4998075, 1897884805, 376694788, -134628513, 31221307, -1834792],
   [12240428, -37874044, -292447, 1895400106, 384764737, -136463384, 31578196, -1869950],
   [11949211, -36373120, -5526832, 1892828164, 392873980, -138296872, 31934381, -1905268],
   [11660433, -34883442, -10704975, 1890169229, 401022026, -140128670, 32289779, -1940735],
   [11374122, -33405138, -15826778, 1887423562, 409208376, -141958466, 32644306, -1976341]]

/-- Phases 32 to 47 of the interpolation table (R136). -/
def interpRows2 : List (List Int) :=
  [[11090304, -31938328, -20892147, 1884591432, 417432526, -143785946, 32997878, -2012075],
   [10809002, -30483133, -25900997, 1881673115, 425693968, -145610795, 33350411, -2047926],
   [10530240, -29039670, -30853250, 1878668898, 433992186, -147432694, 33701817, -2083882],
   [10254041, -27608052, -35748833, 1875579074, 442326657, -149251321, 34052011, -2119933],
   [9980427, -26188390, -40587680, 1872403946, 450696854, -151066353, 34400904, -2156065],
   [9709420, -24780789, -45369734, 1869143823, 459102245, -152877462, 34748409, -2192267],
   [9441039, -23385355, -50094941, 1865799025, 467542290, -154684321, 35094435, -2228528],
   [9175303, -22002188, -54763255, 1862369879, 476016443, -156486598, 35438893, -2264833],
   [8912232, -20631387, -59374639, 1858856719, 484524156, -158283958, 35781692, -2301171],
   [8651842, -19273045, -63929059, 1855259890, 493064870, -160076067, 36122740, -2337527],
   [8394150, -17927255, -68426490, 1851579743, 501638026, -161862584, 36461945, -2373890],
   [8139174, -16594105, -72866912, 1847816636, 510243054, -163643170, 36799212, -2410245],
   [7886926, -15273681, -77250312, 1843970937, 518879383, -165417480, 37134450, -2446579],
   [7637422, -13966065, -81576683, 1840043022, 527546435, -167185170, 37467562, -2482877],
   [7390676, -12671337, -85846026, 1836033273, 536243625, -168945892, 37798453, -2519126],
   [7146699, -11389574, -90058347, 1831942081, 544970364, -170699296, 38127027, -2555310]]

/-- Phases 48 to 63 of the interpolation table (R136). -/
def interpRows3 : List (List Int) :=
  [[6905504, -10120849, -94213658, 1827769845, 553726059, -172445029, 38453187, -2591415],
   [6667102, -8865233, -98311979, 1823516971, 562510111, -174182737, 38776835, -2627425],
   [6431503, -7622793, -102353335, 1819183874, 571321913, -175912065, 39097873, -2663327],
   [6198716, -6393594, -106337756, 1814770974, 580160858, -177632653, 39416203, -2699103],
   [5968750, -5177698, -110265282, 1810278702, 589026329, -179344142, 39731724, -2734738],
   [5741614, -3975164, -114135956, 1805707492, 597917708, -181046168, 40044335, -2770216],
   [5517313, -2786047, -117949829, 1801057790, 606834369, -182738368, 40353937, -2805522],
   [5295856, -1610401, -121706956, 1796330046, 615775683, -184420375, 40660428, -2840638],
   [5077247, -448276, -125407400, 1791524719, 624741017, -186091821, 40963705, -2875547],
   [4861491, 700280, -129051229, 1786642275, 633729730, -187752335, 41263665, -2910233],
   [4648593, 1835224, -132638518, 1781683187, 642741179, -189401547, 41560206, -2944679],
   [4438556, 2956512, -136169348, 1776647935, 651774715, -191039083, 41853223, -2978867],
   [4231383, 4064107, -139643804, 1771537005, 660829687, -192664567, 42142612, -3012779],
   [4027075, 5157972, -143061979, 1766350892, 669905436, -194277623, 42428268, -3046398],
   [3825635, 6238073, -146423971, 1761090097, 679001301, -195877871, 42710085, -3079705],
   [3627064, 7304379, -149729884, 1755755127, 688116615, -197464932, 42987957, -3112682]]

/-- Phases 64 to 79 of the interpolation table (R136). -/
def interpRows4 : List (List Int) :=
  [[3431360, 8356864, -152979827, 1750346497, 697250709, -199038425, 43261777, -3145310],
   [3238523, 9395500, -156173917, 1744864727, 706402906, -200597965, 43531440, -3177571],
   [3048553, 10420266, -159312274, 1739310347, 715572530, -202143168, 43796836, -3209446],
   [2861447, 11431142, -162395025, 1733683889, 724758897, -203673649, 44057859, -3240915],
   [2677203, 12428109, -165422302, 1727985895, 733961319, -205189020, 44314399, -3271959],
   [2495817, 13411154, -168394243, 1722216911, 743179107, -206688892, 44566348, -3302558],
   [2317285, 14380263, -171310992, 1716377492, 752411565, -208172875, 44813598, -3332692],
   [2141603, 15335428, -174172697, 1710468197, 761657995, -209640578, 45056037, -3362341],
   [1968767, 16276641, -176979513, 1704489591, 770917696, -211091609, 45293557, -3391486],
   [1798770, 17203896, -179731600, 1698442248, 780189960, -212525573, 45526047, -3420104],
   [1631606, 18117193, -182429121, 1692326744, 789474079, -213942077, 45753397, -3448177],
   [1467268, 19016531, -185072248, 1686143664, 798769340, -215340725, 45975496, -3475682],
   [1305748, 19901914, -187661156, 1679893598, 808075026, -216721119, 46192232, -3502599],
   [1147040, 20773345, -190196026, 1673577141, 817390418, -218082863, 46403494, -3528906],
   [991134, 21630833, -192677042, 1667194895, 826714793, -219425558, 46609171, -3554582],
   [838021, 22474388, -195104397, 1660747467, 836047424, -220748804, 46809151, -3579605]]

/-- Phases 80 to 95 of the interpolation table (R136). -/
def interpRows5 : List (List Int) :=
  [[687692, 23304021, -197478285, 1654235469, 845387583, -222052202, 47003320, -3603954],
   [540136, 24119748, -199798908, 1647659519, 854734537, -223335350, 47191569, -3627606],
   [395343, 24921584, -202066470, 1641020240, 864087551, -224597848, 47373782, -3650539],
   [253301, 25709551, -204281183, 1634318262, 873445887, -225839292, 47549849, -3672731],
   [114000, 26483667, -206443262, 1627554218, 882808803, -227059280, 47719657, -3694159],
   [-22574, 27243958, -208552927, 1620728748, 892175557, -228257409, 47883092, -3714801],
   [-156432, 27990449, -210610402, 1613842495, 901545401, -229433274, 48040041, -3734633],
   [-287589, 28723168, -212615917, 1606896109, 910917586, -230586473, 48190392, -3753633],
   [-416057, 29442145, -214569706, 1599890244, 920291363, -231716599, 48334032, -3771778],
   [-541850, 30147412, -216472007, 1592825558, 929665975, -232823248, 48470847, -3789043],
   [-664983, 30839003, -218323063, 1585702716, 939040669, -233906016, 48600725, -3805407],
   [-785471, 31516955, -220123121, 1578522385, 948414684, -234964495, 48723552, -3820844],
   [-903329, 32181306, -221872434, 1571285239, 957787261, -235998282, 48839215, -3835332],
   [-1018573, 32832097, -223571256, 1563991954, 967157637, -237006970, 48947601, -3848846],
   [-1131219, 33469369, -225219849, 1556643213, 976525047, -237990153, 49048599, -3861363],
   [-1241284, 34093168, -226818476, 1549239701, 985888726, -238947426, 49142093, -3872858]]

/-- Phases 96 to 111 of the interpolation table (R136). -/
def interpRows6 : List (List Int) :=
  [[-1348784, 34703539, -228367407, 1541782108, 995247904, -239878382, 49227974, -3883307],
   [-1453736, 35300531, -229866914, 1534271130, 1004601812, -240782618, 49306126, -3892687],
   [-1556159, 35884193, -231317273, 1526707463, 1013949677, -241659726, 49376440, -3900971],
   [-1656071, 36454577, -232718764, 1519091812, 1023290728, -242509302, 49438801, -3908137],
   [-1753489, 37011738, -234071673, 1511424881, 1032624188, -243330941, 49493100, -3914158],
   [-1848433, 37555730, -235376288, 1503707381, 1041949283, -244124239, 49539223, -3919011],
   [-1940921, 38086611, -236632900, 1495940025, 1051265233, -244888791, 49577059, -3922671],
   [-2030973, 38604439, -237841806, 1488123531, 1060571262, -245624194, 49606499, -3925113],
   [-2118609, 39109276, -239003304, 1480258619, 1069866588, -246330045, 49627430, -3926311],
   [-2203848, 39601184, -240117698, 1472346014, 1079150432, -247005941, 49639743, -3926242],
   [-2286712, 40080227, -241185295, 1464386443, 1088422012, -247651480, 49643327, -3924879],
   [-2367219, 40546470, -242206403, 1456380637, 1097680544, -248266260, 49638073, -3922197],
   [-2445392, 40999980, -243181337, 1448329330, 1106925245, -248849883, 49623872, -3918172],
   [-2521251, 41440828, -244110413, 1440233259, 1116155332, -249401947, 49600615, -3912778],
   [-2594818, 41869081, -244993951, 1432093163, 1125370020, -249922054, 49568194, -3905991],
   [-2666115, 42284814, -245832275, 1423909786, 1134568522, -250409806, 49526501, -3897783]]

/-- Phases 112 to 127 of the interpolation table (R136). -/
def interpRows7 : List (List Int) :=
  [[-2735162, 42688098, -246625711, 1415683872, 1143750055, -250864806, 49475429, -3888131],
   [-2801983, 43079009, -247374588, 1407416171, 1152913831, -251286659, 49414871, -3877009],
   [-2866600, 43457623, -248079238, 1399107434, 1162059066, -251674970, 49344722, -3864391],
   [-2929035, 43824018, -248739998, 1390758413, 1171184971, -252029346, 49264875, -3850253],
   [-2989311, 44178272, -249357206, 1382369864, 1180290761, -252349393, 49175226, -3834568],
   [-3047451, 44520466, -249931203, 1373942546, 1189375650, -252634721, 49075670, -3817312],
   [-3103479, 44850681, -250462333, 1365477219, 1198438850, -252884941, 48966105, -3798459],
   [-3157416, 45169001, -250950942, 1356974646, 1207479577, -253099665, 48846426, -3777983],
   [-3209288, 45475509, -251397381, 1348435591, 1216497045, -253278504, 48716533, -3755861],
   [-3259117, 45770291, -251802001, 1339860820, 1225490467, -253421076, 48576324, -3732065],
   [-3306928, 46053434, -252165157, 1331251102, 1234459060, -253526995, 48425698, -3706571],
   [-3352744, 46325025, -252487205, 1322607207, 1243402038, -253595880, 48264556, -3679355],
   [-3396589, 46585154, -252768506, 1313929908, 1252318619, -253627351, 48092799, -3650390],
   [-3438489, 46833910, -253009421, 1305219977, 1261208019, -253621029, 47910328, -3619651],
   [-3478467, 47071385, -253210315, 1296478189, 1270069457, -253576538, 47717047, -3587115],
   [-3516547, 47297670, -253371553, 1287705321, 1278902151, -253493503, 47512859, -3552755]]

/-- Phases 0 to 127 of the interpolation table (R136). -/
def interpHalf : List (List Int) :=
  interpRows0 ++ interpRows1 ++ interpRows2 ++ interpRows3 ++ interpRows4 ++ interpRows5 ++ interpRows6 ++ interpRows7

/-- The eight taps of phase p (R136): C[255 − p][7 − i] = C[p][i], since the formula is even about the centre. -/
def interpRow (p : Nat) : List Int :=
  if p < 128 then interpHalf.getD p [] else (interpHalf.getD (255 - p) []).reverse

/-- C[p][i] of R136. -/
def interpC (p i : Nat) : Int := nth (interpRow p) i

/-- floor(cos(2πm/64) × 2^31) saturated, for m = 0 to 16 (R162). -/
def cosQuarter : List Int :=
  [2147483647, 2137142927, 2106220351, 2055013723, 1984016188, 1893911494, 1785567396, 1660027308, 1518500249, 1362349204, 1193077990, 1012316784, 821806413, 623381597, 418953276, 210490206, 0]

/-- floor of the negative of the same values, for m = 0 to 16: truncation is toward minus infinity, so it is not the
negation (R11, R162). -/
def negCosQuarter : List Int :=
  [-2147483648, -2137142928, -2106220352, -2055013724, -1984016189, -1893911495, -1785567397, -1660027309, -1518500250, -1362349205, -1193077991, -1012316785, -821806414, -623381598, -418953277, -210490207, 0]

/-- Wr[m] of R162. -/
def twiddleRe (m : Nat) : Int :=
  let k := m % 64
  if k ≤ 16 then nth cosQuarter k
  else if k ≤ 32 then nth negCosQuarter (32 - k)
  else if k ≤ 48 then nth negCosQuarter (k - 32)
  else nth cosQuarter (64 - k)

/-- Wi[m] of R162: −sin(2πm/64) = cos(2π(m + 16)/64). -/
def twiddleIm (m : Nat) : Int := twiddleRe (m + 16)

end Sys2Proof.Machine
end

