-- ==== Sys2Proof/Machine/Ports.lean ====
section
/-! DEFINITION. AES3 inputs (R350 to R363) and PDM inputs (R369 to R375): decoding, lock, the rate converter, channel status, non-audio
payload, decimation and compensation, and what ingress commits of them. -/
namespace Sys2Proof.Machine

/-! AES3 inputs: state -/

/-- An AES3 input. -/
def aesOf (s : State) (i : Nat) : AesIn := mget AesIn.init s.aesIn i

/-- An AES3 input replaced. -/
def setAes (s : State) (i : Nat) (v : AesIn) : State := { s with aesIn := mset AesIn.init s.aesIn i v }

/-- The mode of an input: 0 off, 1 synchronous, 2 asynchronous. -/
def aesMode (s : State) (i : Nat) : Nat := if s.fenced 0x620 then 0 else s.val 0 (0x2410 + i) 0x01

/-- The state code of 2410+i:04. -/
def aesCode (r : AesIn) : Nat :=
  if r.nonAudio && r.state ≠ .off then 5
  else
    match r.state with
    | .off => 0
    | .noSignal => 1
    | .locking => 2
    | .locked => if Fade.silenced r.fadeA.fade || Fade.silenced r.fadeB.fade then 6 else 3
    | .rateOut => 4
    | .nonAudio => 5
    | .recovering => 6

/-- An input that has to lock again; its samples are missing until then. -/
def unlocked (r : AesIn) (st : AesState) : AesIn :=
  { r with state := st, phases := [], grid := [], flags := [], lastG := none, pending := none, own := false, rhoNext := none }

/-- Lock lost (R356): the cause of the underrun that begins is event 97. -/
def aesLose (s : State) (i : Nat) : State := setAes s i { unlocked (aesOf s i) .locking with cause := 97 }

/-- What ingress commit reports of an input (R363): the event of the cause once an underrun begins with it, and nothing while samples
are present. -/
def aesReport (s : State) (i : Nat) (missing : Bool) : State :=
  let r := aesOf s i
  if !missing then setAes s i { r with cause := 0, told := 0 }
  else if r.cause = r.told then s
  else
    let s1 := setAes s i { r with told := r.cause }
    if r.cause = 96 ∨ r.cause = 98 then s1.enter r.cause i 0 else s1.raise r.cause i 0

/-! Channel status (R352, R362) -/

/-- One step of the AES3 CRCC over a bit, least significant bit first. -/
def crccStep (c : Nat) (b : Bool) : Nat :=
  let x := Nat.xor c (b2n b)
  if x % 2 = 1 then Nat.xor (x / 2) 0xB8 else x / 2

/-- The CRCC of bytes 0 to 22 of a channel-status block, from its 192 bits. -/
def crccOf (bits : List Bool) : Nat := (bits.take 184).foldl crccStep 0xFF

/-- Bits as bytes, bit 0 first. -/
def bitBytes (bits : List Bool) : List Byte :=
  (chunks 8 (bits.length / 8) bits).map (fun l => BitVec.ofNat 8 (l.foldr (fun b n => 2 * n + b2n b) 0))

/-- A complete block of one subframe: stored, or counted where the professional CRCC fails. -/
def storeStatus (s : State) (i sub : Nat) (bits : List Bool) : State :=
  let bytes := bitBytes bits
  if bits.headD false && decide (crccOf bits ≠ (bytes.getD 23 0#8).toNat) then (s.bump (0x2410 + i) 0x0D 1).raise 100 i 0
  else s.putBytes (0x2410 + i) sub bytes

/-- Whether the stored status of a subframe says non-audio. -/
def statusNonAudio (s : State) (i sub : Nat) : Bool := bitOf ((entBytes s.dom (0x2410 + i) sub).headD 0#8).toNat 1

/-- Non-audio payload detected (R362): counted and raised once. -/
def nonAudioSeen (s : State) (i : Nat) : State :=
  let r := aesOf s i
  if r.nonAudio then s
  else ((setAes s i { r with nonAudio := true }).bump (0x2410 + i) 0x0F 1).enter 99 i 0

/-- The channel-status and user bits of a frame (R352), with its validity bits recorded beside them (R354). -/
def statusBits (s : State) (i : Nat) (f : AesFrame) : State :=
  let r := aesOf s i
  let r0 := if f.z then { r with csA := [], csB := [], usA := [], usB := [], vsA := [], vsB := [], inBlk := true } else r
  if !r0.inBlk then s
  else
    let r1 := { r0 with
      csA := r0.csA ++ [f.a.c], csB := r0.csB ++ [f.b.c], usA := r0.usA ++ [f.a.u], usB := r0.usB ++ [f.b.u],
      vsA := r0.vsA ++ [f.a.v], vsB := r0.vsB ++ [f.b.v] }
    if r1.csA.length < 192 then setAes s i r1
    else
      let s1 := setAes s i { r1 with
        csA := [], csB := [], usA := [], usB := [], vsA := [], vsB := [], inBlk := false,
        validA := bitBytes r1.vsA, validB := bitBytes r1.vsB }
      let s2 := storeStatus (storeStatus s1 i 0x09 r1.csA) i 0x0A r1.csB
      let s3 := s2.putBytes (0x2410 + i) 0x0B (bitBytes r1.usA ++ bitBytes r1.usB)
      if statusNonAudio s3 i 0x09 || statusNonAudio s3 i 0x0A then nonAudioSeen s3 i else s3

/-- The burst preambles Pa and Pb (R362). -/
def burst (f : AesFrame) : Bool := decide (f.a.audio / 256 % 65536 = 0xF872) && decide (f.b.audio / 256 % 65536 = 0x4E1F)

/-- The search for Pa and Pb. -/
def burstBits (s : State) (i : Nat) (f : AesFrame) : State :=
  if burst f then
    let s1 := nonAudioSeen s i
    setAes s1 i { aesOf s1 i with naFrames := 0 }
  else setAes s i { aesOf s i with naFrames := (aesOf s i).naFrames + 1 }

/-- The end of non-audio payload (R362): the channels recover by R44. -/
def nonAudioEnd (s : State) (i : Nat) : State :=
  let r := aesOf s i
  if r.nonAudio && !(entBytes s.dom (0x2410 + i) 0x09).isEmpty && !(entBytes s.dom (0x2410 + i) 0x0A).isEmpty &&
      !(statusNonAudio s i 0x09) && !(statusNonAudio s i 0x0A) && decide (8192 ≤ r.naFrames) then
    (setAes s i { r with nonAudio := false, fadeA := ⟨.silent 0, []⟩, fadeB := ⟨.silent 0, []⟩ }).leave 99 i 0
  else s

/-! Frames (R350, R351, R355 to R357) -/

/-- The Q1.31 sample of a subframe (R350). -/
def aesSample (wordLength : Nat) (u : AesSub) : Int :=
  toSigned 24 (if wordLength = 20 then u.audio / 16 * 16 else u.audio) * 256

/-- The grid sample nearest to a local time; φ lies in [−T_s/2, T_s/2) (R355). -/
def nearestGrid (f : Nat) (t : Int) : Nat :=
  let g := (t * f / 1000000000).toNat
  if t - (sampleTime f g : Int) < (sampleTime f (g + 1) : Int) - t then g else g + 1

/-- 64 consecutive frames have phases within a quarter period of their mean (R355). -/
def phasesAgree (f : Nat) (l : List Int) : Bool :=
  decide (64 ≤ l.length) && l.all (fun p => decide (4 * iabs (64 * p - isum l) * f ≤ 64 * 1000000000))

/-- Whether a measured rate in mHz lies within 100 ppm of F. -/
def rateNear (f rate : Nat) : Bool := decide (iabs ((rate : Int) - f * 1000) * 10000 ≤ f * 1000)

/-- ρ for a measured rate (R357, R358). -/
def ratioOf (f rate : Nat) : Nat := rate * 2 ^ 30 / (f * 1000)

/-- Whether ρ is one that the converter accepts (R358). -/
def ratioOk (rho : Nat) : Bool := decide (268435456 ≤ rho ∧ rho ≤ 1082130432)

/-- Lock values decided in this tick for block D + 4 (R360): the Active sends them; what a Standby decides is its own until it
receives some. -/
def aesDecide (s : State) (i : Nat) (phi : Int) (anchor q rho : Nat) : State :=
  let v := LockVals.mk (s.clk.tick + 4) phi anchor q rho
  let s1 := setAes s i { aesOf s i with pending := some v, own := s.twin.role = .standby }
  if s.twin.role = .active then s1.sendPort 3 (.aesLock i v) else s1

/-- A frame of a synchronous input at local time `t` (R355, R356). -/
def syncFrame (s : State) (i : Nat) (t : Int) (flagA flagB : Nat) : State :=
  let f := mediaRate s.dict
  let r := aesOf s i
  let phi := match r.state, r.pending with
    | .locked, _ => some r.phi
    | _, some v => some v.phi
    | _, none => none
  match phi with
  | some p =>
    let g := nearestGrid f (t - p)
    let d := t - p - (sampleTime f g : Int)
    let far := decide (3000000000 ≤ 8 * iabs d * f)
    let gap := match r.lastG with
      | some l => decide (g ≠ l + 1)
      | none => false
    if r.state = .locked && (far || gap) then aesLose s i
    else
      let n := g + 3
      setAes s i { r with
        lastG := some g,
        grid := mset none (mset none r.grid (2 * n) (some r.goodA)) (2 * n + 1) (some r.goodB),
        flags := mset 0 (mset 0 r.flags (2 * n) flagA) (2 * n + 1) flagB }
  | none =>
    let phases := ((t - (sampleTime f (nearestGrid f t) : Int)) :: r.phases).take 64
    let s1 := setAes s i { r with phases := phases }
    if r.state = .locking && rateNear f r.rate && phasesAgree f phases then
      aesDecide s1 i (fdiv (isum phases) 64) t.toNat 0 0
    else s1

/-- A frame of an asynchronous input (R357, R360). -/
def asyncFrame (s : State) (i : Nat) (t : Int) : State :=
  let r := aesOf s i
  let s1 := setAes s i { r with
    frames := (⟨r.nextIdx, t.toNat, r.goodA, r.goodB⟩ :: r.frames).take 512, nextIdx := r.nextIdx + 1 }
  let rho := ratioOf (mediaRate s.dict) r.rate
  if r.state = .locking && r.pending.isNone && decide (r.rate ≠ 0) && ratioOk rho then
    aesDecide s1 i 0 t.toNat (Config.aesStart i rho).toNat rho
  else s1

/-- One frame decoded (R350, R351, R354): a subframe in error carries the last good sample. -/
def aesFrame (s0 : State) (i : Nat) (f : AesFrame) : State :=
  let s := if (aesOf s0 i).state = .noSignal then
      (setAes s0 i { aesOf s0 i with state := .locking, cause := 0 }).leave 96 i 0 else s0
  let t := s.clk.local
  let w := s.val 24 (0x2410 + i) 0x02
  let r := aesOf s i
  let bad := b2n (!f.a.codeOk) + b2n (!f.b.codeOk)
  let s1 := (setAes s i { r with
    count := r.count + 1, lastAt := t,
    goodA := if f.a.codeOk then aesSample w f.a else r.goodA,
    goodB := if f.b.codeOk then aesSample w f.b else r.goodB,
    errA := r.errA + b2n (!f.a.codeOk), errB := r.errB + b2n (!f.b.codeOk),
    valA := r.valA || f.a.v, valB := r.valB || f.b.v }).bump (0x2410 + i) 0x0C bad
  let s2 := burstBits (statusBits s1 i f) i f
  if aesMode s i = 1 then
    syncFrame s2 i t (b2n (!f.a.codeOk) + 2 * b2n f.a.v) (b2n (!f.b.codeOk) + 2 * b2n f.b.v)
  else asyncFrame s2 i t

/-! Lock values and rate (R353, R358, R360) -/

/-- Whether a frame that arrived at `time` is frame 0 of an anchor (R360): within half a frame period, that of ratio `rho` at the media
rate `f`. -/
def isFrameZero (f rho anchor time : Nat) : Bool := decide (2 * rho * f * iabs ((time : Int) - anchor) ≤ 2 ^ 30 * 1000000000)

/-- Frames numbered from the anchor's frame 0; none where no frame is it. -/
def reindex (f rho anchor : Nat) (frames : List AesBuf) : List AesBuf × Nat :=
  match frames.find? (fun b => isFrameZero f rho anchor b.time) with
  | some z =>
    let l := (frames.filter (fun b => decide (z.idx ≤ b.idx))).map (fun b => { b with idx := b.idx - z.idx })
    (l, l.length)
  | none => ([], 0)

/-- The lock values applied from their block (R360): both channels enter with the rising ramp. -/
def aesApply (s : State) (i : Nat) : State :=
  let r := aesOf s i
  match r.pending with
  | none => s
  | some v =>
    if s.clk.tick < v.block then s
    else
      let (frames, next) := if aesMode s i = 2 then reindex (mediaRate s.dict) v.rho v.anchor r.frames else (r.frames, r.nextIdx)
      let s1 := setAes s i { r with
        state := .locked, phi := v.phi, q := v.q, rho := v.rho, rhoAt := v.block - 4, frames := frames, nextIdx := next, pending := none,
        own := false, cause := 0, fadeA := FadeCh.rising, fadeB := FadeCh.rising }
      let s2 := (s1.stset 0 (0x2410 + i) 0x10 (toPat 32 v.phi)).stset 0 (0x2410 + i) 0x07 v.rho
      if r.own then s2.mark v.block 6 else s2

/-- Values received by the Standby (R360). -/
def aesReceive (s : State) (i : Nat) (v : LockVals) : State :=
  if s.twin.role = .standby && decide (aesMode s i ≠ 0) then (setAes s i { aesOf s i with pending := some v, own := false }).heard 3 else s

/-- The last ratio decided: one that waits for its block, or the one in force. -/
def lastRho (r : AesIn) : Nat :=
  match r.rhoNext with
  | some (_, v) => v
  | none => r.rho

/-- A module's own decision of ρ (R360), at most 1,024 codes from the last one and within the range of R358, in force from block
D + 4. -/
def decideRho (s : State) (i rho : Nat) : State × Nat :=
  let r := aesOf s i
  let v := (satTo ((lastRho r : Int) - 1024) (lastRho r + 1024) (satTo 268435456 1082130432 rho)).toNat
  (setAes s i { r with rhoNext := some (s.clk.tick + 4, v), rhoAt := s.clk.tick }, v)

/-- A decision of ρ (R360): the Active or Solo decides every 64 ticks, the Active sending it. A Standby takes the one it receives as it
stands, and decides for itself where none has come by the block from which it would be in force (assumption 100). R360 names what the
decision aims at and no law for it, so the operand gives it. -/
def rhoDecision (s : State) (i rho : Nat) : State :=
  let r := aesOf s i
  if aesMode s i ≠ 2 || r.state ≠ .locked then s
  else if s.twin.role = .standby then
    if r.rhoAt + 68 ≤ s.clk.tick then (decideRho s i rho).1.mark (s.clk.tick + 4) 6
    else if ratioOk rho then (setAes s i { r with rhoNext := some (s.clk.tick + 4, rho), rhoAt := s.clk.tick }).heard 3
    else s
  else if s.clk.tick < r.rhoAt + 64 then s
  else
    let (s1, v) := decideRho s i rho
    if s.twin.role = .active then s1.sendPort 3 (.aesRho i (s.clk.tick + 4) v) else s1

/-- The nominal rates of R353, in hertz. -/
def nominalRates : List Nat := [32000, 44100, 48000, 88200, 96000, 176400, 192000]

/-- The end of a rate window of 64 ticks (R353, R355, R358). -/
def rateWindow (s : State) (i : Nat) : State :=
  let r := aesOf s i
  let ticks := s.clk.tick - r.winTick
  if ticks < 64 then s
  else
    let rate := r.count * 3000000 / ticks
    let nominal := (nominalRates.find? (fun (h : Nat) => decide (iabs ((rate : Int) - h * 1000) * 200 ≤ h * 1000))).getD 0
    let f := mediaRate s.dict
    let out := match aesMode s i with
      | 1 => !rateNear f rate
      | 2 => !ratioOk (ratioOf f rate)
      | _ => false
    let r1 := { r with rate := rate, count := 0, winTick := s.clk.tick }
    let r2 := if out then (if r.state = .noSignal || r.state = .off then r1 else { unlocked r1 .rateOut with cause := 98 })
      else if r.state = .rateOut then { unlocked r1 .locking with cause := 0 } else r1
    let s1 := ((setAes s i r2).stset 0 (0x2410 + i) 0x05 rate).stset 0 (0x2410 + i) 0x06 nominal
    if r2.state = .rateOut then s1 else s1.leave 98 i 0

/-- The time without a valid preamble after which an input has no signal (R351): 8 frame periods of the last measured rate (in mHz), or
50 µs. -/
def silenceLimit (r : AesIn) : Nat := if r.rate = 0 then 50000 else 8 * 1000000000000 / r.rate

/-- No valid preamble for the time of R351, which ends in the running tick or has ended. -/
def aesNoSignal (s0 : State) (i : Nat) : State :=
  let r := aesOf s0 i
  let due := r.lastAt + silenceLimit r - tickStart s0.clk.tick
  if r.state = .off || r.state = .noSignal || decide ((tickLen s0.clk.tick : Int) ≤ due) then s0
  else
    let s := s0.elapse due.toNat
    setAes s i { unlocked r .noSignal with cause := 96 }

/-- The effect of a write to 2410+i:01: an input that is off, or that has to find a signal and lock. -/
def aesModeApply (s : State) (i v : Nat) : State :=
  let old := aesMode s i
  let s1 := s.put 0 (0x2410 + i) 0x01 v
  if old = v then s1
  else
    let r := aesOf s1 i
    let s2 := setAes s1 i { unlocked AesIn.init (if v = 0 then .off else .locking) with
      winTick := s.clk.tick, lastAt := s.clk.local, fadeA := r.fadeA, fadeB := r.fadeB }
    ((s2.leave 96 i 0).leave 98 i 0).leave 99 i 0

/-! Ingress commit of AES3 inputs (R351, R354, R356, R357, R359, R363) -/

/-- The converter at one position (R357): `x` gives a channel of a frame by index. -/
def convert (x : Nat → Option Int) (q : Nat) : Int :=
  let k := q / 2 ^ 30
  let p := 255 - q / 2 ^ 22 % 256
  sat32 (shr ((List.range 8).foldl (fun (a : Int) (i : Nat) => a + (x (k + 4 - i)).getD 0 * interpC p i) 0) 31)

/-- A channel of the frame with an index. -/
def frameSample (l : List AesBuf) (second : Bool) (idx : Nat) : Option Int :=
  (l.find? (fun b => decide (b.idx = idx))).map (fun b => if second then b.b else b.a)

/-- Whether the converter has the frames of a block (R359). -/
def framesReach (r : AesIn) (n : Nat) : Bool :=
  let first := r.q / 2 ^ 30
  let last := (r.q + (n - 1) * r.rho) / 2 ^ 30
  decide (last + 4 < r.nextIdx) && (frameSample r.frames false (first - 3)).isSome && decide (3 ≤ first)

/-- The blocks of both channels of a synchronous input; none where samples are missing. -/
def syncBlock (s : State) (i sub : Nat) : Option (List Int) :=
  let r := aesOf s i
  let n := s.n
  let ks := (List.range n).map (fun j => 2 * (n * s.clk.tick + j) + sub)
  let l := ks.map (fun k => mget none r.grid k)
  let fl := ks.map (fun k => mget 0 r.flags k)
  let muted := s.flag (0x2410 + i) 0x03 && fl.any (fun v => decide (2 ≤ v))
  if l.all (fun x => x.isSome) && !muted && decide ((fl.filter (fun v => decide (v % 2 = 1))).length ≤ 4) then
    some (l.map (fun x => x.getD 0)) else none

/-- The block of one channel of an asynchronous input, from the frames of the tick (R351, R354). -/
def asyncBlock (s : State) (i : Nat) (second : Bool) : Option (List Int) :=
  let r := aesOf s i
  let muted := s.flag (0x2410 + i) 0x03 && (if second then r.valB else r.valA)
  if muted || decide (4 < (if second then r.errB else r.errA)) then none
  else some ((List.range s.n).map (fun j => convert (frameSample r.frames second) (r.q + j * r.rho)))

/-- The ratio of an input in force at this block, and its entry (R360). -/
def aesRho (s : State) (i : Nat) : State :=
  let r0 := aesOf s i
  let r := match r0.rhoNext with
    | some (b, v) => if b ≤ s.clk.tick then { r0 with rho := v, rhoNext := none } else r0
    | none => r0
  (setAes s i r).stset 0 (0x2410 + i) 0x07 (if aesMode s i = 2 && r.state = .locked then r.rho else 0)

/-- The block of a locked synchronous input: a missing subframe loses the lock (R359). -/
def aesTakeSync (s : State) (i : Nat) : State × Option (List Int) × Option (List Int) :=
  if (List.range (2 * s.n)).all (fun j => (mget none (aesOf s i).grid (2 * s.n * s.clk.tick + j)).isSome) then
    (s, syncBlock s i 0, syncBlock s i 1)
  else (aesLose s i, none, none)

/-- The block of a locked asynchronous input: too few frames lose the lock (R361, R362). -/
def aesTakeAsync (s : State) (i : Nat) : State × Option (List Int) × Option (List Int) :=
  let r := aesOf s i
  if framesReach r s.n then
    let lag := r.nextIdx - 1 - (r.q + (s.n - 1) * r.rho) / 2 ^ 30
    ((setAes s i { r with q := r.q + s.n * r.rho }).stset 0 (0x2410 + i) 0x08 lag,
      asyncBlock s i false, asyncBlock s i true)
  else ((setAes s i { unlocked r .locking with cause := 101 }).bump (0x2410 + i) 0x0E 1, none, none)

/-- The block an input takes at this ingress commit: none of an input that is not locked. -/
def aesTake (s : State) (i : Nat) : State × Option (List Int) × Option (List Int) :=
  if (aesOf s i).state ≠ .locked then (s, none, none)
  else if aesMode s i = 1 then aesTakeSync s i
  else aesTakeAsync s i

/-- Both channels of an input through their fades. -/
def aesFade (s : State) (i : Nat) (a b : Option (List Int)) (ins : SMap (List Int)) : State × SMap (List Int) :=
  let n := s.n
  let r := aesOf s i
  if r.nonAudio then
    (setAes s i { r with
      fadeA := ⟨.silent 0, []⟩, fadeB := ⟨.silent 0, []⟩, errA := 0, errB := 0, valA := false, valB := false },
      mset [] (mset [] ins (0x1000 + 2 * i) (silence n)) (0x1000 + 2 * i + 1) (silence n))
  else
    (setAes s i { r with
      fadeA := (fadeStep n r.fadeA a.isNone (a.getD [])).2, fadeB := (fadeStep n r.fadeB b.isNone (b.getD [])).2,
      errA := 0, errB := 0, valA := false, valB := false },
      mset [] (mset [] ins (0x1000 + 2 * i) (fadeStep n r.fadeA a.isNone (a.getD [])).1) (0x1000 + 2 * i + 1)
        (fadeStep n r.fadeB b.isNone (b.getD [])).1)

/-- One input at ingress commit: both channels through their fades. -/
def aesCommitOne (acc : State × SMap (List Int)) (i : Nat) : State × SMap (List Int) :=
  let q := aesTake (aesRho acc.1 i) i
  aesFade (aesReport q.1 i (q.2.1.isNone || q.2.2.isNone)) i q.2.1 q.2.2 acc.2

/-- Ingress commit of the AES3 inputs: those with state. -/
def aesCommit (acc : State × SMap (List Int)) : State × SMap (List Int) :=
  (acc.1.aesIn.map (fun e => e.1)).foldl aesCommitOne acc

/-- What an input keeps at a tick boundary, and its state entry. -/
def aesSweep (s : State) : State :=
  s.aesIn.foldl (fun t e =>
    let r := e.2
    let k := 2 * s.n * s.clk.tick
    let t1 := setAes t e.1 { r with
      grid := r.grid.filter (fun x => decide (k ≤ x.1)), flags := r.flags.filter (fun x => decide (k ≤ x.1)),
      errA := 0, errB := 0, valA := false, valB := false }
    t1.stset 0 (0x2410 + e.1) 0x04 (aesCode r)) s

/-! PDM inputs (R369 to R375) -/

/-- A PDM input. -/
def pdmOf (s : State) (m : Nat) : PdmIn := mget PdmIn.init s.pdm m

/-- A PDM input replaced. -/
def setPdm (s : State) (m : Nat) (v : PdmIn) : State := { s with pdm := mset PdmIn.init s.pdm m v }

/-- The PDM clock in hertz (R369). -/
def pdmClock (d : SMap Nat) : Nat :=
  match ent d 0 0x2400 0x01 with
  | 1 => 3072000
  | 2 => 6144000
  | _ => 0

/-- The local time at which an input takes bit `j` (R94, R369): at the start of PDM clock cycle `j`, or at its middle. -/
def pdmSampleTime (s : State) (m j : Nat) : Nat :=
  (2 * j + s.val 0 (0x2440 + m) 0x05) * 1000000000 / (2 * pdmClock s.dict)

/-- Whether an input is enabled. -/
def pdmOn (s : State) (m : Nat) : Bool := s.flag (0x2440 + m) 0x01

/-- Whether the decimator of an input works: enabled, and not fenced (R28). -/
def pdmLive (s : State) (m : Nat) : Bool := pdmOn s m && !s.fenced 0x621

/-- The mode, order and ratio of an input. -/
def pdmMode (s : State) (m : Nat) : Nat := s.val 1 (0x2440 + m) 0x02

/-- The order K of the decimator. -/
def pdmOrder (s : State) (m : Nat) : Nat := s.val 4 (0x2440 + m) 0x03

/-- The ratio R or R_d. -/
def pdmRatio (s : State) (m : Nat) : Nat := s.val 32 (0x2440 + m) 0x04

/-- Whether the settings of an input fit the clock and the media rate (R372, R374). -/
def pdmFits (s : State) (m : Nat) : Bool :=
  let f := pdmClock s.dict
  let r := pdmRatio s m
  decide (f ≠ 0) &&
  (if pdmMode s m = 1 then decide (f = r * mediaRate s.dict) else decide (f ≤ r * mediaRate s.dict))

/-- The K-fold convolution of R ones (R370). -/
def boxPower (r : Nat) : Nat → List Int
  | 0 => [1]
  | k + 1 =>
    let h := boxPower r k
    (List.range (h.length + r - 1)).map (fun i =>
      isum ((List.range r).map (fun j => if j ≤ i then nth h (i - j) else 0)))

/-- A bit as +1 or −1. -/
def bitVal (b : Bool) : Int := if b then 1 else -1

/-- The dot product of a filter with the newest bits. -/
def dotBits (h : List Int) (bits : List Bool) : Int := isum ((h.zip bits).map (fun e => e.1 * bitVal e.2))

/-- A decimator output from the bits newest first (R370, R374). -/
def pdmOutput (h : List Int) (k r : Nat) (bits : List Bool) : Int :=
  sat32 (shr (dotBits h bits * 2 ^ 31) (k * lg r))

/-- The decimator over the new bits in order; `left` bits until the next output. -/
def decimate (h : List Int) (k r : Nat) : Nat → List Bool → List Bool → List Int → List Bool × List Int
  | _, past, [], outs => (past, outs)
  | left, past, b :: rest, outs =>
    let past1 := (b :: past).take (h.length + 1)
    if left ≤ 1 then decimate h k r r past1 rest (pdmOutput h k r past1 :: outs)
    else decimate h k r (left - 1) past1 rest outs

/-- The run of equal bits over new bits: last value, length, and whether a run reached 4,096 (R375). -/
def runOf : Bool → Nat → List Bool → Bool × Nat × Bool
  | last, run, [] => (last, run, false)
  | last, run, b :: rest =>
    let n := if run ≠ 0 && b = last then run + 1 else 1
    let (l, r, d) := runOf b n rest
    (l, r, d || decide (4096 ≤ n))

/-- The bits of a tick through an input (R370, R374, R375). -/
def pdmTick (s : State) (m : Nat) (bits : List Bool) : State :=
  let p := pdmOf s m
  let r := pdmRatio s m
  let k := if pdmMode s m = 1 then pdmOrder s m else 1
  let (past, outs) := decimate (boxPower r k) k r r p.bits bits []
  let (last, run, hit) := runOf p.last p.run bits
  let dirty := hit || decide (4096 ≤ p.run && bits.head? = some p.last)
  setPdm s m { p with
    bits := past, outs := (outs ++ p.outs).take 512, nOut := pdmClock s.dict / 3000 / r * (s.clk.tick + 1),
    last := last, run := run, full := hit, clean := if dirty then 0 else p.clean + 1 }

/-- A decimator output by its index since local time 0; 0 for one not kept. -/
def pdmOut (p : PdmIn) (i : Int) : Int :=
  let back := (p.nOut : Int) - 1 - i
  if 0 ≤ back then nth p.outs back.toNat else 0

/-- The taps of the compensation filter (R371). -/
def pdmTaps (s : State) (m : Nat) : List Int :=
  let b := entBytes s.dom (0x2440 + m) 0x06
  if b.isEmpty then [2 ^ 30] else beWords b

/-- Block T of a microphone (R371, R374), from outputs complete by t_T. -/
def micBlock (s : State) (m : Nat) : List Int :=
  let p := pdmOf s m
  let n := s.n
  let at_ := fun (j : Nat) => ((n * s.clk.tick + j : Nat) : Int) - n
  if pdmMode s m = 1 then
    let h := pdmTaps s m
    (List.range n).map (fun j =>
      sat32 (shr (isum ((List.range h.length).map (fun t => nth h t * pdmOut p (at_ j - t)))) 30))
  else
    let hold : Int := (mediaRate s.dict * pdmRatio s m / max 1 (pdmClock s.dict) : Nat)
    (List.range n).map (fun j => pdmOut p (fdiv (at_ j) hold - 1))

/-- An input found stuck (R375); its event comes with the underrun that begins (R363). -/
def pdmStick (s : State) (m : Nat) : State :=
  let p := pdmOf s m
  if pdmLive s m && !p.stuck && (p.full || decide (4096 ≤ p.run)) then
    (setPdm s m { p with stuck := true, full := false, told := false, clean := 0 }).bump (0x2440 + m) 0x08 1
  else s

/-- A stuck input recovers after two clean ticks (R375), with the rising ramp of R44. -/
def pdmUnstick (s : State) (m : Nat) : State :=
  let p := pdmOf s m
  if p.stuck && decide (2 ≤ p.clean) then (setPdm s m { p with stuck := false, told := false, fade := FadeCh.rising }).leave 102 m 0 else s

/-- A tick in which ingress commits no block (R336): the inputs that delivered bits still decimate and stick. -/
def pdmIdle (s : State) (given : List (Nat × List Bool)) : State :=
  (List.range 8).foldl (fun s m =>
    match given.find? (fun e => decide (e.1 = m)) with
    | some e => if pdmLive s m then pdmUnstick (pdmStick (pdmTick s m e.2) m) m else s
    | none => s) s

/-- The event of a stuck input, once its underrun begins (R363, R375). -/
def pdmReport (s : State) (m : Nat) : State :=
  let p := pdmOf s m
  if pdmLive s m && p.stuck && !p.told then (setPdm s m { p with told := true }).enter 102 m 0 else s

/-- One microphone at ingress commit; `bits` are those of the tick, none where the input delivered none. -/
def pdmCommitOne (given : List (Nat × List Bool)) (acc : State × SMap (List Int)) (m : Nat) : State × SMap (List Int) :=
  let (s, ins) := acc
  let bits := (given.find? (fun e => decide (e.1 = m))).map (fun e => e.2)
  let whole := match bits with
    | some b => decide (b.length = pdmClock s.dict / 3000)
    | none => false
  let missing := !(pdmLive s m) || (pdmOf s m).stuck || !whole
  let (y, f) := fadeStep s.n (pdmOf s m).fade missing (micBlock s m)
  let s1 := pdmReport (setPdm s m { pdmOf s m with fade := f }) m
  let s2 := if pdmLive s m then pdmUnstick (pdmStick (pdmTick s1 m (bits.getD [])) m) m else s1
  (s2, mset [] ins (0x2000 + m) y)

/-- Ingress commit of the microphones: those enabled or still fading. -/
def pdmCommit (given : List (Nat × List Bool)) (acc : State × SMap (List Int)) : State × SMap (List Int) :=
  ((List.range 8).filter (fun m => pdmLive acc.1 m || acc.1.pdm.any (fun e => decide (e.1 = m)))).foldl
    (pdmCommitOne given) acc

/-- The state code of 2440+m:07. -/
def pdmCode (s : State) (m : Nat) : Nat :=
  if !pdmLive s m then 0 else if (pdmOf s m).stuck then 3
  else if Fade.silenced (pdmOf s m).fade.fade then 1 else 2

/-- The state entries of the PDM inputs at a tick boundary. -/
def pdmSweep (s : State) : State :=
  (List.range 8).foldl (fun t m => t.stset 0 (0x2440 + m) 0x07 (pdmCode s m)) s

/-- The fixed delay of 2440+m:09 (R373), in 2^−14 sample. -/
def pdmDelay (s : State) (m : Nat) : Nat :=
  let n := s.n
  let r := pdmRatio s m
  if pdmMode s m = 1 then n * 16384 + pdmOrder s m * (r - 1) * 8192 / r
  else (2 * n + 2 * (mediaRate s.dict * r / max 1 (pdmClock s.dict)) - 1) * 8192

/-- Refusals of a write to 2440+m:01 (R372). -/
def pdmEnableCheck (s : State) (m v : Nat) : Nat :=
  firstCode [indexOk m 8, boolOk v, need (v = 0 || pdmFits s m) Abort.conflict]

/-- The effect of a write to 2440+m:01 (R372): silence in two blocks, then the rising ramp. -/
def pdmEnableApply (s : State) (m v : Nat) : State :=
  let was := pdmOn s m
  let s1 := s.put 0 (0x2440 + m) 0x01 v
  if v = 1 && !was then
    (setPdm s1 m { PdmIn.init with fade := ⟨.silent 0, []⟩ }).stset 0 (0x2440 + m) 0x09 (pdmDelay s1 m)
  else if v = 0 && was then (setPdm s1 m { pdmOf s1 m with stuck := false }).leave 102 m 0
  else s1

/-- Refusals of a write to 2400:01 (R369). -/
def pdmClockCheck (s : State) (v : Nat) : Nat :=
  firstCode [rangeOk v 0 2, need ((List.range 8).all (fun m => !pdmOn s m)) Abort.conflict]

/-- Refusals of a write to 2440+m:02 to :06 while the input is enabled (R372). -/
def pdmIdleCheck (s : State) (m : Nat) : Nat := need (!pdmOn s m) Abort.conflict

/-- Every channel that the render takes enters with the rising ramp, from zero history, and underruns begin anew (R336, R363, R564). -/
def portsRise (s : State) : State :=
  let s1 := s.aesIn.foldl (fun t e =>
    setAes t e.1 { e.2 with fadeA := FadeCh.rising, fadeB := FadeCh.rising, told := 0 }) s
  s1.pdm.foldl (fun t e => setPdm t e.1 { e.2 with bits := [], outs := [], told := false, fade := FadeCh.rising }) s1

/-! The commands -/

/-- AES3_FRAME_RECEIVED: an input that is off takes no frame. -/
def execAes3FrameReceived (at_ input : Nat) (frame : AesFrame) (s : State) : Host.Outcome State Fault Refusal :=
  done (
    let s1 := s.elapse at_
    if input < 16 ∧ aesMode s1 input ≠ 0 then aesFrame s1 input frame else s1)

/-- AES3_NON_AUDIO_END. -/
def execAes3NonAudioEnd (input : Nat) (s : State) : Host.Outcome State Fault Refusal := done (nonAudioEnd s input)

/-- AES3_LOCK_VALUES_RECEIVED. -/
def execAes3LockValuesReceived (input : Nat) (vals : LockVals) (s : State) : Host.Outcome State Fault Refusal :=
  done (if input < 16 then aesReceive s input vals else s)

/-- AES3_LOCK_APPLY. -/
def execAes3LockApply (input : Nat) (s : State) : Host.Outcome State Fault Refusal := done (aesApply s input)

/-- AES3_RHO_DECISION. -/
def execAes3RhoDecision (input rho : Nat) (s : State) : Host.Outcome State Fault Refusal := done (rhoDecision s input rho)

/-- AES3_NO_SIGNAL. -/
def execAes3NoSignal (input : Nat) (s : State) : Host.Outcome State Fault Refusal := done (aesNoSignal s input)

/-- AES3_RATE_WINDOW. -/
def execAes3RateWindow (input : Nat) (s : State) : Host.Outcome State Fault Refusal :=
  done (if input < 16 ∧ aesMode s input ≠ 0 then rateWindow s input else s)

/-- PDM_STUCK. -/
def execPdmStuck (input : Nat) (s : State) : Host.Outcome State Fault Refusal := done (pdmStick s input)

/-- PDM_STUCK_RECOVER. -/
def execPdmStuckRecover (input : Nat) (s : State) : Host.Outcome State Fault Refusal := done (pdmUnstick s input)

/-- PDM_CLOCK_WRITE. -/
def execPdmClockWrite (value : Nat) (s : State) : Host.Outcome State Fault Refusal :=
  done (s.attempt 0x2400 (pdmClockCheck s value) (fun t => t.put 0 0x2400 0x01 value))

/-- PDM_ENABLE. -/
def execPdmEnable (input value : Nat) (s : State) : Host.Outcome State Fault Refusal :=
  done (s.attempt (0x2440 + input) (pdmEnableCheck s input value) (fun t => pdmEnableApply t input value))

end Sys2Proof.Machine
end

