-- ==== Sys2Proof/Machine/Drive.lean ====
section
/-! DEFINITION. Drive channels and the rail limiter (R380 to R402): sense streams, the loop and the limiter of a carrier period, channel
and rail states, over-current, shutdown, hold-off and retries. -/
namespace Sys2Proof.Machine

/-! Values in force and the gate (R380, R389) -/

/-- The values in force in the running tick: those of the block presented in it (R389). -/
def driveDict (s : State) : SMap Nat := s.dictAt 4

/-- An entry of channel n in force. -/
def drvEnt (s : State) (d n sub : Nat) : Nat := ent (driveDict s) d (0x5000 + n) sub

/-- 501F:01 in force. -/
def driveOn (s : State) : Bool := decide (ent (driveDict s) 0 0x501F 0x01 ≠ 0) && decide (s.sup.mod ≠ .parked)

/-- Whether ACT_OUT rose fewer than 500 ns ago (R451): counted from its tick and instant, since local time may be moved back. -/
def actSettling (s : State) : Bool :=
  let (x, o) := s.twin.actRise
  decide (s.clk.tick = x ∧ s.clk.ofs < o + 500) || decide (s.clk.tick = x + 1 ∧ tickLen x + s.clk.ofs < o + 500)

/-- The role gate G (R451): ACT_OUT ∧ ¬ACT_IN, the ACT_OUT term 500 ns late on its rise. -/
def roleGate (s : State) : Bool := s.twin.actOut && !s.twin.actIn && !actSettling s

/-- DRV_SEL (R380). -/
def driveSel (s : State) : Bool := roleGate s && driveOn s

/-- The rail group of a channel. -/
def railOf (s : State) (n : Nat) : Nat := drvEnt s 0 n 0x05

/-- The state of the rail of a channel. -/
def railState (s : State) (n : Nat) : Nat := (s.rail (railOf s n)).state

/-- A rail group replaced. -/
def setRail (s : State) (g : Nat) (v : Rail) : State := { s with rails := mset Rail.init s.rails g v }

/-- The code of a channel state (R392). -/
def ChState.code : ChState → Nat
  | .idle => 0
  | .starting => 1
  | .running => 2
  | .stopping => 3
  | .holdOff => 4
  | .latched => 5
  | .railStop => 6

/-- Whether the loop of a state runs (R392). -/
def modulates (c : ChState) : Bool :=
  match c with
  | .starting | .running | .stopping => true
  | _ => false

/-- A channel replaced, with its state entry. -/
def putDrive (s : State) (n : Nat) (d : Drive) : State := (s.setDrive n d).stset 0 (0x5000 + n) 0x20 (ChState.code d.st)

/-- A channel whose outputs are low (R387, R388, R390): integrators zero, limiter open. -/
def driveLow (d : Drive) : Drive :=
  { d with s1 := 0, s2 := 0, s3 := 0, gl := 2 ^ 31 - 1, clamped := false, duty := 0, low := true, limRun := 0, oc := false }

/-- A channel in a state in which gm is 0 (R387); FAULT_RAMP is cleared where it leaves Hold-off or Latched (R397). -/
def driveRest (d : Drive) (st : ChState) : Drive :=
  let leaves := decide (d.st = .holdOff ∨ d.st = .latched)
  { driveLow d with
    st := st, gm := 0, ramp := d.ramp && !leaves, rampSet := d.rampSet && !leaves, fromHold := false }

/-! Sense streams (R384, R385) -/

/-- The convolution weights of the sense decimator: K = 4, R = 32. -/
def senseWeights : List Int := boxPower 32 4

/-- A sense stream after the 32 bits of a carrier period, bit 0 first. -/
def sensePeriod (q : Sense) (word : Nat) : Sense :=
  let bits := (List.range 32).map (fun j => bitOf word j)
  let past := (bits.reverse ++ q.bits).take 160
  let (last, run, hit) := runOf q.last q.run bits
  let dirty := hit || decide (4096 ≤ q.run && bits.head? = some q.last)
  { q with
    bits := past, y2 := q.y1, y1 := q.y0, y0 := sat32 (shl (dotBits senseWeights past) 11), last := last, run := run,
    dirty := q.dirty || dirty, stuck := q.stuck || dirty, clean := if dirty then 0 else q.clean }

/-- A stream without bits in a period keeps its output. -/
def senseIdle (q : Sense) : Sense := { q with y2 := q.y1, y1 := q.y0 }

/-- A stream at a tick boundary (R375, R391): two clean ticks end its being stuck. -/
def senseTick (q : Sense) : Sense :=
  let clean := if q.dirty then 0 else q.clean + 1
  { q with dirty := false, clean := clean, stuck := q.stuck && decide (clean < 2) }

/-- The sense-stuck condition of a channel's stream (source 114): stream 0 voltage, 1 current. -/
def judgeSense (s : State) (n k : Nat) (stuck : Bool) : State :=
  if stuck then s.enterAs 114 (2 * n + k) n k else s.leaveAs 114 (2 * n + k) n k

/-! Channel transitions (R391 to R398) -/

/-- Carrier periods in 10 s. -/
def tenSeconds : Nat := 3840000

/-- A start (R393); `retry` where it is the retry of R397. -/
def startDrive (s : State) (n : Nat) (retry : Bool) : State :=
  let d := driveRest (s.drive n) .starting
  let d1 := if retry then { d with retry := some s.carrier, lastRetry := some s.carrier } else d
  putDrive s n d1

/-- Whether 10 s have passed since the later of the last shutdown and the last retry (R397). -/
def quietDrive (s : State) (d : Drive) : Bool :=
  match d.lastShut with
  | none => false
  | some a => decide (tenSeconds ≤ s.carrier - max a (d.lastRetry.getD 0))

/-- The failed-retry count falls to zero (R397). -/
def retryReset (s : State) (n : Nat) : State := if quietDrive s (s.drive n) then s.stset 0 (0x5000 + n) 0x23 0 else s

/-- A shutdown (R396 to R398), with its Urgent item. -/
def shutDown (s0 : State) (n : Nat) : State :=
  let s := retryReset s0 n
  let d := s.drive n
  let i := 0x5000 + n
  let failed := match d.retry with
    | some p => decide (s.carrier - p < tenSeconds)
    | none => false
  let fails := s.stget 0 i 0x23
  let count := if failed then satAdd 255 fails 1 else fails
  let limit := if fails = 0 then drvEnt s 3 n 0x10 else d.retryLim
  let s1 := ((s.stset 0 i 0x23 count).bump i 0x22 1).raise 112 n count
  let d1 := { driveLow d with
    retry := none, lastShut := some s.carrier, retryLim := limit, shutReq := true, fromHold := false }
  let s2 :=
    if drvEnt s 0 n 0x01 = 0 || d.st = .stopping then putDrive s1 n { driveRest d1 .idle with stopEnd := 0 }
    else if failed && decide (limit ≤ count) then (putDrive s1 n (driveRest d1 .latched)).raise 113 n 0
    else putDrive s1 n { d1 with st := .holdOff, holdEnd := s.carrier + 384 * drvEnt s 500 n 0x0F }
  drivePut s2 n

/-- The channel enters Rail stop (R391, R398). -/
def railStop (s : State) (n : Nat) (fromHold : Bool) : State :=
  putDrive s n { driveRest (s.drive n) .railStop with fromHold := fromHold }

/-- The end of a hold-off (R397, R398). -/
def holdOffEnd (s : State) (n : Nat) : State :=
  let d := s.drive n
  if d.st = .holdOff && decide (d.holdEnd ≤ s.carrier) then
    if railState s n ≠ 0 then railStop s n true else startDrive s n true
  else s

/-- A Rail stop ends when the rail state is 0 and the channel is enabled (R391). -/
def railRelease (s : State) (n : Nat) : State :=
  let d := s.drive n
  if d.st = .railStop && railState s n = 0 && decide (drvEnt s 0 n 0x01 ≠ 0) then startDrive s n d.fromHold else s

/-- Whether a channel has to shut down (R396). -/
def mustShut (d : Drive) : Bool := modulates d.st && (decide (64 ≤ d.limRun) || d.v.stuck || d.i.stuck)

/-- The write of the enable that takes effect now: the last one due. -/
def enableDue (s : State) (n : Nat) : Option Bool :=
  (((s.drive n).enables.filter (fun e => decide (e.1 ≤ s.clk.tick))).getLast?).map (fun e => e.2)

/-- The writes of the enable that are still to come. -/
def enablesLeft (s : State) (n : Nat) : List (Nat × Bool) :=
  (s.drive n).enables.filter (fun e => decide (s.clk.tick < e.1))

/-- A write of the enable at block `a`, from tick `a` + 4 on: the last one at a block counts (R393, R394). -/
def enableAt (d : Drive) (a : Nat) (v : Bool) : Drive :=
  { d with enables := d.enables.filter (fun e => decide (e.1 ≠ a + 4)) ++ [(a + 4, v)] }

/-- The start of tick A + 4 for an enable (R393). -/
def driveStart (s : State) (n : Nat) : State :=
  if s.fenced (0x700 + n) || enableDue s n ≠ some true then s
  else
    let s1 := s.setDrive n { s.drive n with enables := enablesLeft s n }
    if (s.drive n).st ≠ .idle then s1
    else if railState s n ≠ 0 then railStop s1 n false
    else startDrive s1 n false

/-- The start of tick A + 5 of a stop (R394): the ramp has ended. -/
def rampEnd (s : State) (n : Nat) : State :=
  let d := s.drive n
  if d.st = .stopping ∧ d.stopEnd ≤ s.clk.tick then putDrive s n { driveRest d .idle with stopEnd := 0 } else s

/-- The start of tick A + 4 for a disable (R394, R398), and of tick A + 5 after its ramp. -/
def driveStop (s0 : State) (n : Nat) : State :=
  let s := rampEnd s0 n
  if enableDue s n ≠ some false then s
  else
    let d := { s.drive n with enables := enablesLeft s n }
    match d.st with
    | .starting | .running => putDrive s n { d with st := .stopping, stopEnd := s.clk.tick + 1 }
    | .stopping => s.setDrive n d
    | _ => putDrive s n { driveRest d .idle with stopEnd := 0 }

/-- The start of tick A + 4 for a clear of the latch (R397). -/
def driveClear (s : State) (n : Nat) : State :=
  let d := s.drive n
  if d.clears.any (fun c => decide (c ≤ s.clk.tick)) then
    let d1 := { d with clears := d.clears.filter (fun c => decide (s.clk.tick < c)) }
    if d.st = .latched then (putDrive s n (driveRest d1 .idle)).stset 0 (0x5000 + n) 0x23 0 else s.setDrive n d1
  else s

/-! A carrier period (R386 to R391) -/

/-- The mute gain of this period (R387). -/
def muteGain (s : State) (n : Nat) (d : Drive) : Int :=
  if d.ramp then max 0 (d.gm - 33554432)
  else if d.low && modulates d.st then 0
  else
    match d.st with
    | .starting => min (2 ^ 31 - 1) (d.gm + (2 ^ 31 / (128 * max 1 (drvEnt s 64 n 0x0E)) : Nat))
    | .running => 2 ^ 31 - 1
    | .stopping => max 0 (d.gm - 16777216)
    | _ => d.gm

/-- The reference before limiting (R386), in period `k` of the tick. -/
def reference (s : State) (d : Drive) (k : Nat) (gm : Int) : Int :=
  let u := 128 / s.n
  let j := k / u
  let x0 := if j = 0 then d.xPrev else nth d.blk (j - 1)
  let ri := x0 + shr ((nth d.blk j - x0) * (k % u : Nat)) (lg u)
  shr (ri * gm) 31

/-- A Q4.28 trim of a channel. -/
def trim (s : State) (dflt n sub : Nat) : Int := toSigned 32 (drvEnt s dflt n sub)

/-- The limiter gain that the rail leaves (R390). -/
def railGain (s : State) (n : Nat) (vr rpre : Int) : Int :=
  let g := 0x5010 + railOf s n
  let dmin : Int := (drvEnt s 164 n 0x06 : Nat)
  let h := toSigned 32 (ent (driveDict s) 0x73333333 g 0x02)
  let avail := if vr ≤ 0 then 0 else shr (shr (vr * (4096 - 2 * dmin)) 12 * h) 31
  let dem := shr (iabs rpre * (drvEnt s 100000 n 0x04 : Nat)) 31
  if dem ≤ avail then 2 ^ 31 - 1 else fdiv (avail * 2 ^ 31) dem

/-- Vr of a group (R390), from the rail stream two periods back. -/
def railVolts (s : State) (g : Nat) : Int :=
  shr ((s.rail g).sense.y1 * (ent (driveDict s) 200000 (0x5010 + g) 0x01 : Nat)) 31

/-- The duty code and the loop's state (R388), after the gain `gm` and the limiter gain `gl` of this period. -/
def loopStep (s : State) (n : Nat) (d : Drive) (rpre gm gl : Int) : Drive :=
  if d.low then { d with gm := gm, gl := gl, duty := 2048, clamped := false, low := false }
  else
    let r := shr (rpre * gl) 31
    let v := sat32 (shr (trim s 0x10000000 n 0x07 * d.v.y1) 28)
    let q1 := if d.clamped then d.s1 else satS 48 (d.s1 + (r - v))
    let q2 := if d.clamped then d.s2 else satS 48 (d.s2 + q1)
    let q3 := if d.clamped then d.s3 else satS 48 (d.s3 + q2)
    let u := shr (trim s 0x10000000 n 0x09 * r + trim s 0 n 0x0A * q1 + trim s 0 n 0x0B * q2 + trim s 0 n 0x0C * q3
      - trim s 0 n 0x08 * d.i.y1) 28
    let du := 2048 + shr (u * 2048) 31 + shr (toSigned 16 (drvEnt s 0 n 0x0D) * gm) 31
    let dmin : Int := (drvEnt s 164 n 0x06 : Nat)
    let duty := min (max du dmin) (4096 - dmin)
    { d with gm := gm, gl := gl, s1 := q1, s2 := q2, s3 := q3, duty := duty.toNat, clamped := duty ≠ du }

/-- A channel whose loop runs, in period `k` of the tick; `oc` where DRV_OC_n is asserted in it (R387 to R390, R395). -/
def loopPeriod (s : State) (n k : Nat) (oc : Bool) : State :=
  let d := s.drive n
  let g := railOf s n
  let gm := muteGain s n d
  let rpre := reference s d k gm
  let rel : Int := (ent (driveDict s) 55924 (0x5010 + g) 0x03 : Nat)
  let gl := min (min (railGain s n (railVolts s g) rpre) (d.gl + rel)) (2 ^ 31 - 1)
  let d1 := loopStep s n d rpre gm gl
  let run := if d.oc then d.limRun else 0
  let d2 := { d1 with
    st := if d.st = .starting && gm = 2 ^ 31 - 1 then .running else d.st,
    limRun := if oc then run + 1 else run, oc := oc, leastGl := min d.leastGl gl }
  let s1 := putDrive s n d2
  let s2 := if gl < 2 ^ 31 - 1 then s1.bump (0x5010 + g) 0x0B 1 else s1
  if oc then s2.bump (0x5000 + n) 0x21 1 else s2

/-- What the fault ramp does in a period (R387, R396): a ramp asked for begins at this period's start. -/
def rampPeriod (s : State) (n : Nat) : State :=
  let d := s.drive n
  let d1 := if modulates d.st then d else { d with gm := muteGain s n d }
  s.setDrive n { d1 with ramp := d.ramp || d.rampSet, rampSet := false }

/-- The sense bits of a period taken by a channel, with its meters (R384, R401). -/
def sensePush (s : State) (n : Nat) (inp : CarrierIn) : State :=
  if !driveOn s then s
  else
    let d := s.drive n
    let (v, i) := match inp.sense.find? (fun e => decide (e.ch = n)) with
      | some e => (sensePeriod d.v e.v, sensePeriod d.i e.i)
      | none => (senseIdle d.v, senseIdle d.i)
    let s1 := s.setDrive n { d with
      v := v, i := i, vPeak := max d.vPeak (iabs d.v.y1).toNat, iPeak := max d.iPeak (iabs d.i.y1).toNat }
    judgeSense (judgeSense s1 n 0 v.stuck) n 1 i.stuck

/-- One channel in a carrier period: hold-off and Rail stop end, shutdown, Rail stop, or the loop. -/
def channelPeriod (k : Nat) (inp : CarrierIn) (s0 : State) (n : Nat) : State :=
  if s0.fenced (0x700 + n) then s0 else
  let s1 := railRelease (holdOffEnd s0 n) n
  let d := s1.drive n
  let s2 :=
    if mustShut d then shutDown s1 n
    else if modulates d.st then (if railState s1 n ≠ 0 then railStop s1 n false else loopPeriod s1 n k (bitOf inp.oc n))
    else s1
  sensePush (rampPeriod s2 n) n inp

/-- The rail state after a period's counts (R391). -/
def railJudge (s : State) (g : Nat) : State :=
  let r := s.rail g
  let next :=
    if r.sense.stuck then 3
    else
      match r.state with
      | 0 => if 64 ≤ r.below then 1 else if 64 ≤ r.above then 2 else 0
      | 1 => if 19200 ≤ r.back then 0 else 1
      | 2 => if 19200 ≤ r.back then 0 else 2
      | _ => 0
  if next = r.state then s
  else
    let s1 := (setRail s g { r with state := next, below := 0, above := 0, back := 0 }).stset 0 (0x5010 + g) 0x0A next
    ((s1.condition 115 g 0 (next = 1)).condition 116 g 0 (next = 2)).condition 117 g 0 (next = 3)

/-- One rail group in a carrier period (R384, R390, R391). -/
def railPeriod (inp : CarrierIn) (s : State) (g : Nat) : State :=
  let r := s.rail g
  let vr := railVolts s g
  let d := driveDict s
  let uv : Int := (ent d 20000 (0x5010 + g) 0x04 : Nat)
  let ov : Int := (ent d 190000 (0x5010 + g) 0x05 : Nat)
  let hy : Int := (ent d 2000 (0x5010 + g) 0x06 : Nat)
  let back := match r.state with
    | 1 => decide (uv + hy ≤ vr)
    | 2 => decide (vr ≤ ov - hy)
    | _ => false
  let sense := match inp.rails.find? (fun e => decide (e.1 = g)) with
    | some e => sensePeriod r.sense e.2
    | none => senseIdle r.sense
  railJudge (setRail s g { r with
    sense := sense, vr := vr,
    least := some (match r.least with
      | some l => min l vr
      | none => vr),
    below := if vr < uv then r.below + 1 else 0, above := if ov < vr then r.above + 1 else 0,
    back := if back then r.back + 1 else 0 }) g

/-- The next carrier period of the running tick (R382): every channel, then every rail group while the sense clocks run. -/
def carrierPeriod (s0 : State) (inp : CarrierIn) : State :=
  let m := s0.carrier
  let k := m - 128 * s0.clk.tick
  let s := s0.elapse (m * 1000000000 / 384000 - tickStart s0.clk.tick)
  if m < 128 * s.clk.tick ∨ 128 * (s.clk.tick + 1) ≤ m then s
  else
    let s0 : State := { s with twin := { s.twin with gateUp := driveSel s } }
    let s1 := (List.range 16).foldl (channelPeriod k inp) s0
    let s2 := if driveOn s1 then (List.range 4).foldl (railPeriod inp) s1 else s1
    { s2 with carrier := m + 1 }

/-! Over-current, the fault item and the gate (R380, R395, R396, R400) -/

/-- An over-current that passes the glitch filter of 8 ns cuts the outputs until the next period, and the period is limited (R395). -/
def overCurrent (s : State) (n width : Nat) : State :=
  let d := s.drive n
  if width < 8 || !modulates d.st || d.oc then s
  else (s.setDrive n { d with oc := true, limRun := d.limRun + 1 }).bump (0x5000 + n) 0x21 1

/-- FAULT_RAMP written to DRV_MUTE_n (R397). -/
def faultRamp (s : State) (n : Nat) : State := s.setDrive n { s.drive n with rampSet := true, shutReq := false }

/-- DRV_MUTE_n as it reads (R397). -/
def muteWord (s : State) (n : Nat) : Nat :=
  let d := s.drive n
  let moving := ((d.ramp || d.st = .stopping) && decide (0 < d.gm)) || d.st = .starting
  b2n (d.ramp || d.rampSet) + 2 * b2n moving + 4 * b2n d.shutReq + 65536 * (d.gm.toNat / 65536)

/-- Whether the outputs of a channel modulate now (R380, R383, R395, R400): the gate has been open since the start of the period. -/
def driveLevel (s : State) (n : Nat) : Bool :=
  modulates (s.drive n).st && driveSel s && s.twin.gateUp && !(s.drive n).oc

/-- DRV_PWMA_n and DRV_PWMB_n in step `k` of the 4,096 of the running carrier period (R382, R383). -/
def drivePwm (s : State) (n k : Nat) : Bool × Bool :=
  let duty := (s.drive n).duty
  let a := decide (2048 - duty / 2 ≤ k ∧ k < 2048 - duty / 2 + duty)
  if driveLevel s n then (a, !a) else (false, false)

/-- DRV_SEL as 501F:02 shows it, and the gate of the running carrier period (R380): once low it stays low to the next one. -/
def gateShown (s : State) : State :=
  let s1 : State := { s with twin := { s.twin with gateUp := s.twin.gateUp && driveSel s } }
  s1.stset 0 0x501F 0x02 (b2n (driveSel s))

/-- ACT_IN changes, and DRV_SEL with it (R380, R451). -/
def gateChange (s : State) (actIn : Bool) : State := gateShown { s with twin := { s.twin with actIn := actIn } }

/-! A tick boundary (R389, R391, R393, R394, R397, R401, R402) -/

/-- What a channel publishes of the tick that ends. -/
def driveMeters (s : State) (n : Nat) : State :=
  let d := s.drive n
  let i := 0x5000 + n
  let s1 := (((s.stset 0 i 0x24 (d.vPeak * drvEnt s 200000 n 0x12 / 2 ^ 31)).stset 0 i 0x25
    (d.iPeak * drvEnt s 50000 n 0x11 / 2 ^ 31)).stset 0 i 0x26 d.duty).stset 0x7FFFFFFF i 0x29 d.leastGl.toNat
  s1.setDrive n { d with vPeak := 0, iPeak := 0, leastGl := 2 ^ 31 - 1 }

/-- What a group publishes of the tick that ends. -/
def railMeters (s : State) (g : Nat) : State :=
  let r := s.rail g
  let s1 := s.stset 0 (0x5010 + g) 0x07 r.vr.toNat
  match r.least with
  | some l => s1.stset 0 (0x5010 + g) 0x08 l.toNat
  | none => s1

/-- The end of a tick for the drive engines: meters and clean ticks. -/
def driveTickEnd (s : State) : State :=
  let s1 := (s.drives.map (fun e => e.1)).foldl (fun s n =>
    let s1 := driveMeters s n
    let d := s1.drive n
    let v := senseTick d.v
    let i := senseTick d.i
    judgeSense (judgeSense (s1.setDrive n { d with v := v, i := i }) n 0 v.stuck) n 1 i.stuck) s
  (s1.rails.map (fun e => e.1)).foldl (fun s g =>
    let s1 := railMeters s g
    let r := s1.rail g
    railJudge (setRail s1 g { r with sense := senseTick r.sense }) g) s1

/-- The start of a tick for one channel: its block of the reference, and what applies at this tick. -/
def driveTickStart (s : State) (n : Nat) : State :=
  let d := s.drive n
  let s1 := s.setDrive n { d with xPrev := if d.blk.isEmpty then d.xPrev else d.blk.getLastD 0, blk := d.next, next := [] }
  retryReset (driveStart (driveStop (driveClear s1 n) n) n) n

/-- The count of a group restarts where its limits change (R389). -/
def railLimits (s : State) (g : Nat) : State :=
  let old := s.dictAt 5
  let new := s.dictAt 4
  if [(0x04, 20000), (0x05, 190000), (0x06, 2000)].all (fun e =>
      decide (ent old e.2 (0x5010 + g) e.1 = ent new e.2 (0x5010 + g) e.1)) then s
  else setRail s g { s.rail g with below := 0, above := 0, back := 0 }

/-- The start of a tick for the drive engines: the carrier stands at its first period. -/
def driveTick (s : State) : State :=
  let s0 : State := { s with carrier := max s.carrier (128 * s.clk.tick) }
  let s1 := (s0.drives.map (fun e => e.1)).foldl driveTickStart s0
  gateShown ((List.range 4).foldl railLimits s1)

/-! Writes (R389, R393, R394, R397, R401, R402) -/

/-- Refusals of a write to 5000+n:01: the rail is judged at acceptance only (R393). -/
def driveEnableCheck (s : State) (n v : Nat) (accepting : Bool) : Nat :=
  firstCode [indexOk n 16, boolOk v,
    need (v = 0 || s.flag 0x501F 0x01) Abort.conflict,
    need (v = 0 || !accepting || decide ((s.rail (s.val 0 (0x5000 + n) 0x05)).state = 0)) Abort.conflict]

/-- The effect of a write to 5000+n:01 at block A (R393, R394): a channel starts only for a block that is rendered (R564). -/
def driveEnableApply (s : State) (n v : Nat) : State :=
  let s1 := s.put 0 (0x5000 + n) 0x01 v
  if v = 1 && !s1.flag 0x1100 0x03 then s1 else s1.setDrive n (enableAt (s1.drive n) s1.clk.tick (v = 1))

/-- The effect of a write to 5000+n:27. -/
def clearLatchApply (s : State) (n v : Nat) : State :=
  if v = 1 then s.setDrive n { s.drive n with clears := (s.drive n).clears ++ [s.clk.tick + 4] } else s

/-- Refusals of a write to 501F:01 (R402). -/
def driveGlobalCheck (s : State) (v : Nat) : Nat :=
  firstCode [boolOk v, need ((List.range 16).all (fun n => !s.flag (0x5000 + n) 0x01)) Abort.conflict]

/-- Refusals of a write to 5000+n:04 to :06 while the channel is enabled (R389). -/
def driveIdleCheck (s : State) (n : Nat) : Nat := need (!s.flag (0x5000 + n) 0x01) Abort.conflict

/-! The commands -/

/-- CARRIER_PERIOD. -/
def execCarrierPeriod (inp : CarrierIn) (s : State) : Host.Outcome State Fault Refusal := done (carrierPeriod s inp)

/-- RAIL_STATE_CHANGE. -/
def execRailStateChange (group : Nat) (s : State) : Host.Outcome State Fault Refusal :=
  done (if group < 4 then railJudge s group else s)

/-- OVER_CURRENT_CUT. -/
def execOverCurrentCut (at_ channel widthNs : Nat) (s : State) : Host.Outcome State Fault Refusal :=
  done (overCurrent (s.elapse at_) channel widthNs)

/-- DRIVE_SHUTDOWN. -/
def execDriveShutdown (channel : Nat) (s : State) : Host.Outcome State Fault Refusal :=
  done (if mustShut (s.drive channel) then shutDown s channel else s)

/-- SENSE_STUCK: stream 0 voltage, 1 current of channel `index`, 2 rail of group `index`, found with 4,096 equal bits. -/
def execSenseStuck (stream index : Nat) (s : State) : Host.Outcome State Fault Refusal :=
  done (
    match stream with
    | 0 =>
      let d := s.drive index
      if 4096 ≤ d.v.run then judgeSense (s.setDrive index { d with v := { d.v with stuck := true } }) index 0 true else s
    | 1 =>
      let d := s.drive index
      if 4096 ≤ d.i.run then judgeSense (s.setDrive index { d with i := { d.i with stuck := true } }) index 1 true else s
    | 2 =>
      let r := s.rail index
      if 4096 ≤ r.sense.run then railJudge (setRail s index { r with sense := { r.sense with stuck := true } }) index else s
    | _ => s)

/-- DRIVE_FAULT_ITEM: the item leaves its queue for a Rod, which starts the fault ramp. -/
def execDriveFaultItem (channel : Nat) (s : State) : Host.Outcome State Fault Refusal :=
  done (
    match driveItem s channel with
    | some it => faultRamp (dropItem s it) channel
    | none => s)

/-- DRV_MUTE_FAULT_RAMP. -/
def execDrvMuteFaultRamp (channel : Nat) (s : State) : Host.Outcome State Fault Refusal :=
  done (if channel < 16 then faultRamp s channel else s)

/-- HOLD_OFF_END. -/
def execHoldOffEnd (channel : Nat) (s : State) : Host.Outcome State Fault Refusal := done (holdOffEnd s channel)

/-- RETRY_COUNT_RESET. -/
def execRetryCountReset (channel : Nat) (s : State) : Host.Outcome State Fault Refusal := done (retryReset s channel)

/-- DRIVE_START. -/
def execDriveStart (channel : Nat) (s : State) : Host.Outcome State Fault Refusal := done (driveStart s channel)

/-- DRIVE_STOP. -/
def execDriveStop (channel : Nat) (s : State) : Host.Outcome State Fault Refusal := done (driveStop s channel)

/-- DRIVE_ENABLE: a write of 1 to 5000+n:01. -/
def execDriveEnable (channel : Nat) (s : State) : Host.Outcome State Fault Refusal :=
  done (s.attempt (0x5000 + channel) (driveEnableCheck s channel 1 true) (fun t => driveEnableApply t channel 1))

/-- DRIVE_DISABLE: a write of 0 to 5000+n:01. -/
def execDriveDisable (channel : Nat) (s : State) : Host.Outcome State Fault Refusal :=
  done (s.attempt (0x5000 + channel) (driveEnableCheck s channel 0 true) (fun t => driveEnableApply t channel 0))

/-- CLEAR_LATCH. -/
def execClearLatch (channel value : Nat) (s : State) : Host.Outcome State Fault Refusal :=
  done (s.attempt (0x5000 + channel) (firstCode [indexOk channel 16, boolOk value]) (fun t => clearLatchApply t channel value))

/-- DRIVE_ENABLE_GLOBAL. -/
def execDriveEnableGlobal (value : Nat) (s : State) : Host.Outcome State Fault Refusal :=
  done (s.attempt 0x501F (driveGlobalCheck s value) (fun t => t.put 0 0x501F 0x01 value))

/-- CLEAR_RAIL: 1 resets 5010+g:08 and :0B at the next boundary. -/
def execClearRail (group value : Nat) (s : State) : Host.Outcome State Fault Refusal :=
  done (s.attempt (0x5010 + group) (firstCode [indexOk group 4, boolOk value]) (fun t =>
    if value = 1 then { t with todo := { t.todo with rails := setAdd group t.todo.rails } } else t))

end Sys2Proof.Machine
end

