-- ==== Sys2Proof/Machine/Frames.lean ====
section
/-! DEFINITION. Rods, Frames and user slots as the Reckoner runs them (R192 to R199, R222 to R232): items and faults, health,
rotation, retirement and the admission of user kernels. -/
namespace Sys2Proof.Machine

/-! Items and faults -/

/-- A user slot. -/
def slotOfNo (s : State) (u : Nat) : UserSlot := mget UserSlot.init s.slots u

/-- A user slot replaced. -/
def setSlot (s : State) (u : Nat) (v : UserSlot) : State := { s with slots := mset UserSlot.init s.slots u v }

/-- The registers that RUN clears (R200), execution at `pc`. -/
def Rod.started (r : Rod) (pc : Nat) : Rod :=
  { Rod.init with
    st := .running, pc := pc % 8192, startPc := pc % 8192, corr := r.corr, uncorr := r.uncorr, errs := r.errs, health := r.health,
    faults := r.faults, fenced := r.fenced, retired := r.retired, slot := r.slot, code := r.code, fault := r.fault,
    faultPc := r.faultPc, trapOp := r.trapOp }

/-- A Rod stopped with no word, wait or transfer left. -/
def Rod.halted (r : Rod) : Rod := { r with st := .stopped, wait := none, xfers := [], ending := none }

/-- A slot stops with a state (R224, R232): 3 without a Rod, 4 stopped by overrun; its kernel executes no further word. -/
def stopSlot (s : State) (u code : Nat) : State :=
  let sl := slotOfNo s u
  let s1 := setSlot (s.mark (s.clk.tick - stageLag 4) 8) u { sl with state := code }
  match sl.rod with
  | some r => s1.setRod r { (s1.rod r).halted with st := if (s1.rod r).st = .faulted then .faulted else .stopped }
  | none => s1

/-- The cycles of a Rod's item from its give to now (R232), waits among them: the cycles of its words, or the time passed at 1 GHz
where that is more (assumption 105). -/
def itemMeasure (s : State) (r : Nat) : Nat :=
  let rod := s.rod r
  max ((rod.cyc.toNat + 2 ^ 32 - rod.itemCyc) % 2 ^ 32) (s.clk.local - rod.itemAt).toNat

/-- The measure of a slot's item (R232): its peak, the overrun above C_d, and the third overrun within 3,000 blocks. -/
def measureItem (s : State) (u r : Nat) : State :=
  let sl := slotOfNo s u
  let m := itemMeasure s r
  let cd := match sl.image with
    | some i => i.cd
    | none => 0
  let s1 := s.stset 0 (0x7080 + u) 0x06 (max m (s.stget 0 (0x7080 + u) 0x06))
  if m ≤ cd then s1
  else
    let ovs := s.clk.tick :: sl.ovs.filter (fun k => decide (s.clk.tick < k + 3000))
    let s2 := (setSlot s1 u { sl with ovs := ovs }).bump (0x7080 + u) 0x08 1
    let s3 := s2.raise 9 u 0
    if 3 ≤ ovs.length then stopSlot s3 u 4 else s3

/-- The item of a Rod ends (R217, R232, R243); a failed one is counted and raised, and its flow is free. -/
def endItem (s : State) (r : Nat) (failed : Bool) : State :=
  let rod := s.rod r
  match rod.item with
  | none => s
  | some it =>
    let s1 := s.setRod r { rod with item := none, ending := none }
    let s2 := if failed then
        (s1.bump 0x70C0 0x03 1).raise 49 (r * 256 + it.queue) (descBlock it.desc % 2 ^ 32)
      else s1
    match rod.slot with
    | some u => measureItem s2 u r
    | none => s2

/-- A Rod before a restart (R217, R261): its held PUT is withdrawn and its item ends as failed. -/
def clearRod (s : State) (r : Nat) : State := endItem (dropHeld s r) r true

/-- A Rod retired (R224, R227). A user slot on it waits for its move. -/
def retireRodNow (s : State) (r : Nat) : State := s.setRod r { s.rod r with retired := true }

/-- The user slots that Rods of Frame `f` hold. -/
def slotsOn (s : State) (f : Nat) : List Nat :=
  (List.range 8).filterMap (fun m => (s.rod (8 * f + m)).slot)

/-- The user slots that Frame `f` holds or will hold once every move has ended. -/
def slotLoad (s : State) (f : Nat) : Nat :=
  (slotsOn s f).length + (s.moves.filter (fun e => decide (e.2.2 / 8 = f) && decide (e.2.1 / 8 ≠ f))).length

/-- The Rod that takes a further user slot: the lowest ordinary one in service without a slot, in a Frame with fewer than
three (R194, R229). -/
def slotRod (s : State) : Option Nat :=
  allRods.find? (fun r => decide (rodRole s r = 1) && decide (slotLoad s (r / 8) < 3) &&
    !(s.moves.any (fun e => decide (e.2.2 = r))))

/-- A slot's flow held or released (R245). -/
def holdFlow (s : State) (u : Nat) (on : Bool) : State :=
  let n := (Config.slotFlow u).toNat
  let flows := mset (Flow.mk 0 false false) s.tally.flows n { flowOf s n with hold := on }
  { s with tally := { s.tally with flows := flows } }

/-- A slot's flow pinned to its Rod (R245). -/
def pinFlow (s : State) (u r : Nat) : State :=
  let n := (Config.slotFlow u).toNat
  let flows := mset (Flow.mk 0 false false) s.tally.flows n { flowOf s n with pinRod := r, pinned := true }
  { s with tally := { s.tally with flows := flows } }

/-- The move of a slot ends: its flow is released (R245). -/
def endMove (s : State) (u : Nat) : State :=
  if mget (64, 64) s.moves u = (64, 64) then s else { holdFlow s u false with moves := mset (64, 64) s.moves u (64, 64) }

/-- A slot leaves Rod `r` for another ordinary Rod by the procedure of R225, or stops where none can take it (R224), its item failed
(R217). -/
def moveSlot (s : State) (u r : Nat) : State :=
  match slotRod s with
  | some q => { holdFlow s u true with moves := mset (64, 64) s.moves u (r, q) }
  | none => stopSlot (clearRod (endMove s u) r) u 3

/-- Every move whose Rod can no longer take its slot chooses another (R224). -/
def rechoose (s : State) : State :=
  s.moves.foldl (fun s e =>
    if rodUsable s e.2.2 then s else moveSlot s e.1 e.2.1) s

/-- Rod `r` retired with the move of a slot that it holds. -/
def retireRodMoving (s : State) (r : Nat) : State :=
  let s1 := rechoose (retireRodNow s r)
  match (s1.rod r).slot with
  | some u => judgeCompute (moveSlot s1 u r)
  | none => judgeCompute s1

/-- A rotation begun (R225): loading from acceptance. -/
def beginRotation (s : State) (f new block : Nat) (retire : Bool) : State :=
  setFrame { s with rot := some (Rotation.mk f new 1 block retire) } new .loading

/-- The health policy of 7000:06 on a Rod whose health flag is set (R224). -/
def healthPolicy (s : State) (r : Nat) : State :=
  match s.val 2 0x7000 0x06 with
  | 0 => s
  | 1 => retireRodMoving s r
  | _ =>
    match spareFrame s, s.rot with
    | some q, none =>
      if frameOf s (r / 8) = .inService then beginRotation s (r / 8) q (s.clk.tick + 1) false else s
    | _, _ => retireRodMoving s r

/-- The health flag of a Rod set (R30, R223). -/
def setHealth (s : State) (r : Nat) : State :=
  if (s.rod r).health then s else healthPolicy (s.setRod r { s.rod r with health := true }) r

/-- The user slot of a Rod that faults is faulted (R232). -/
def slotFaulted (s : State) (slot : Option Nat) (code : Nat) : State :=
  match slot with
  | some u =>
    ((setSlot (s.mark (s.clk.tick - stageLag 4) 8) u { slotOfNo s u with state := 3 }).stset 0 (0x7080 + u) 0x09 code).raise 10 u code
  | none => s

/-- A faulting word (R222): STATE 3, CODE and FAULT_PC, transfers not yet started cancelled, the item failed. The oldest transfer counts
as started: DESIGN CHOICE (assumption 141). -/
def rodFault (s : State) (r code trapOp : Nat) : State :=
  let rod := s.rod r
  let ticks := s.clk.tick :: rod.faults.filter (fun k => decide (s.clk.tick < k + 3000))
  let s1 := (dropHeld s r).setRod r { rod with
    st := .faulted, wait := none, code := code, fault := true, faultPc := rod.pc, trapOp := trapOp,
    xfers := rod.xfers.take 1, faults := ticks }
  let s2 := ((s1.bump (0x7040 + r) 0x04 1).stset 0 (0x7040 + r) 0x05 (code + 256 * trapOp)).raise 7 r code
  let s3 := endItem s2 r true
  let s4 := slotFaulted s3 rod.slot code
  if 3 ≤ ticks.length then setHealth s4 r else s4

/-- A Rod's wrong bits but those of [lo, hi) of its window, whose words are written anew. -/
def Rod.healed (r : Rod) (lo hi : Nat) : Rod := { r with errs := r.errs.filter (fun e => !decide (lo ≤ e.1 ∧ e.1 < hi)) }

/-- The Reckoner restarts faulted render and transform Rods by the next boundary, their instruction memory reloaded after code 0x09
(R223). -/
def restartRods (s : State) : State :=
  allRods.foldl (fun s r =>
    let rod := s.rod r
    if rod.st = .faulted && rod.slot.isNone && rodUsable s r then
      let rod1 := if rod.code = 0x09 then rod.healed 0x40000 0x50000 else rod
      s.setRod r { rod1.started rod.startPc with xfers := rod.xfers, fault := false }
    else s) s

/-! Rotation (R225, R226) -/

/-- 7000:05 with a completed or a cancelled rotation added, each part saturating. -/
def countRotation (s : State) (cancelled : Bool) : State :=
  let v := s.stget 0 0x7000 0x05
  let c := v % 2 ^ 24
  let x := v / 2 ^ 24
  s.stset 0 0x7000 0x05 (if cancelled then c + 2 ^ 24 * satAdd 255 x 1 else satAdd (2 ^ 24 - 1) c 1 + 2 ^ 24 * x)

/-- The bits of TALLY_EXCL of a Frame's Rods. -/
def frameMask (f : Nat) : Nat := 255 * 2 ^ (8 * f)

/-- The relieved Frame (R225): Retired on request, Fenced where it holds a fenced unit, else the spare. -/
def relieve (s : State) (k : Rotation) : State :=
  let fenced := (List.range 8).any (fun m => (s.rod (8 * k.old + m)).fenced)
  let s1 := setFrame { unexclude s (frameMask k.old) with rot := none } k.old (if k.retire then .retired else if fenced then .fenced else .spare)
  judgeCompute ((countRotation s1 false).raise 8 k.old 0)

/-- Whether a Rod of a Frame has an item in service. -/
def frameBusy (s : State) (f : Nat) : Bool := (List.range 8).any (fun m => (s.rod (8 * f + m)).item.isSome)

/-- The rotation ends once no slot is left to move off the old Frame and the items in service there have run to completion (R225). -/
def settleRotation (s : State) : State :=
  match s.rot with
  | some k =>
    if k.phase = 3 && !(s.moves.any (fun e => decide (e.2.1 / 8 = k.old))) && !frameBusy s k.old then relieve s k else s
  | none => s

/-- The switch at a boundary from the apply tick on, after loading (R225): user slots of the old Frame are held for their
move to the same position of the new one, and the Tally excludes its Rods (R246). -/
def rotationSwitch (s : State) : State :=
  match s.rot with
  | some k =>
    if k.phase = 2 && decide (k.block ≤ s.clk.tick) then
      let s1 := setFrame { exclude s (frameMask k.old) with rot := some { k with phase := 3 } } k.new .inService
      let s2 := (List.range 8).foldl (fun s m =>
        match (s.rod (8 * k.old + m)).slot with
        | some u => { holdFlow s u true with moves := mset (64, 64) s.moves u (8 * k.old + m, 8 * k.new + m) }
        | none =>
          let s := clearRod s (8 * k.new + m)
          s.setRod (8 * k.new + m) ((s.rod (8 * k.new + m)).started (s.rod (8 * k.old + m)).startPc)) s1
      settleRotation (rechoose s2)
    else settleRotation s
  | none => s

/-- Data memory of a Rod copied into another's (R225): the whole 256 KiB. -/
def copyDataMemory (m : List Host.Cell) (a b : Nat) : List Host.Cell :=
  let lo := rodWindow a 0
  let cells := m.filter (fun c => decide (lo ≤ c.1 ∧ c.1 < lo + 0x40000))
  cells.foldl (fun m c => memSet m (rodWindow b (c.1 - lo)) c.2) (memClear m (rodWindow b 0) (rodWindow b 0x40000))

/-- Instruction memory of a Rod copied into another's, as loading does. -/
def copyInstrMemory (m : List Host.Cell) (a b : Nat) : List Host.Cell :=
  let lo := rodWindow a 0x40000
  let cells := m.filter (fun c => decide (lo ≤ c.1 ∧ c.1 < lo + 0x10000))
  cells.foldl (fun m c => memSet m (rodWindow b (0x40000 + (c.1 - lo))) c.2)
    (memClear m (rodWindow b 0x40000) (rodWindow b 0x50000))

/-- The single-bit errors that a copy of a Rod's data memory meets, corrected and counted (R197). -/
def noteData (s : State) (r : Nat) : State :=
  ((s.rod r).errs.filter (fun e => decide (e.1 < 0x40000 ∧ e.2 ≠ some uncorrectable))).foldl (fun s _ =>
    (s.setRod r { s.rod r with corr := satAdd 65535 (s.rod r).corr 1 }).bump (0x7040 + r) 0x07 1) s

/-- Whether a Rod's data memory holds an uncorrectable word. -/
def dataLost (s : State) (r : Nat) : Bool := (s.rod r).errs.any (fun e => decide (e.1 < 0x40000 ∧ e.2 = some uncorrectable))

/-- A slot leaves Rod `a` without reaching another: it stops with its state lost. -/
def loseSlot (s : State) (u a : Nat) : State :=
  let s1 := endMove (rodFault (s.setRod a { s.rod a with uncorr := true }) a 0x08 0) u
  setSlot (s1.setRod a { (s1.rod a).halted with slot := none }) u { slotOfNo s1 u with rod := none }

/-- A slot's state and memories taken from Rod `a` to Rod `b`, which then holds it; one that is faulted or stopped does not run
(R232). The kernel starts at its first word with its registers zero (R199, R200): DESIGN CHOICE (assumption 142). -/
def carrySlot (s : State) (u a b : Nat) : State :=
  let old := s.rod a
  let s0 := clearRod (noteData s a) b
  let s1 : State := { s0 with mem := copyDataMemory (copyInstrMemory s0.mem a b) a b }
  let rod := { (s1.rod b).healed 0 0x50000 with slot := some u }.started old.startPc
  let s2 := s1.setRod b (if (slotOfNo s u).state = 2 then rod else rod.halted)
  let s3 := s2.setRod a { (s2.rod a).halted with slot := none }
  endMove (pinFlow (setSlot s3 u { slotOfNo s3 u with rod := some b }) u b) u

/-- The copy of a slot once its last item on the old Rod has ended (R225): data memory, pin, and the release of its flow. A Rod that
can no longer take the slot is replaced (R224), and a data memory with an uncorrectable word faults (R197). -/
def copySlot (s : State) (u : Nat) : State :=
  match mget (64, 64) s.moves u with
  | (a, b) =>
    if a = 64 || (s.rod a).item.isSome then s
    else if rodRole s b ≠ 1 then moveSlot s u a
    else judgeCompute (settleRotation (if dataLost s a then loseSlot s u a else carrySlot s u a b))

/-- A rotation that has not switched yet ends where its new Frame is withdrawn (R193). -/
def withdrawNew (s : State) (f : Nat) : State :=
  match s.rot with
  | some k => if k.new = f && decide (k.phase < 3) then { s with rot := none } else s
  | none => s

/-- A unit of an in-service Frame fenced (R226): a transform Rod or one with a user slot rotates its Frame out from the next
tick, a rotation still loading being cancelled for it. -/
def fenceRod (s : State) (r : Nat) : State :=
  let rod := s.rod r
  let s1 := rechoose (clearRod (s.setRod r { rod with fenced := true, st := .stopped, wait := none, xfers := [] }) r)
  if frameOf s1 (r / 8) ≠ .inService then setFrame (withdrawNew s1 (r / 8)) (r / 8) .fenced
  else if !(isTransform r || rod.slot.isSome) then judgeCompute s1
  else
    let s2 := match s1.rot with
      | some k =>
        if k.phase = 1 then countRotation (setFrame { s1 with rot := none } k.new .spare) true else s1
      | none => s1
    match spareFrame s2, s2.rot with
    | some q, none => beginRotation s2 (r / 8) q (s2.clk.tick + 1) false
    | _, _ =>
      match rod.slot with
      | some u => judgeCompute (moveSlot s2 u r)
      | none => judgeCompute s2

/-- Refusals of a rotation request (R225, R520). -/
def rotateCheck (s : State) (f : Nat) : Nat :=
  firstCode [need (decide (f < 8)) Abort.range,
    need (decide (frameOf s f = .inService) && (spareFrame s).isSome && s.rot.isNone && s.sup.targ.isNone &&
      !(decide (s.upd.stage = 6) && decide (s.upd.frames.length < 8) && s.upd.doneAt.isNone && s.upd.loaded)) Abort.conflict]

/-- An accepted rotation request for apply tick `a` (R225). -/
def rotateApply (s : State) (f a : Nat) : State :=
  match spareFrame s with
  | some q => (beginRotation s f q a false).put 0xFF 0x7000 0x03 f
  | none => s

/-! Retirement (R227) -/

/-- The render Rods that stay render Rods once every move has ended: those promised to a slot do not. -/
def renderLeft (s : State) : Nat :=
  renderRods s - (s.moves.filter (fun e => decide (rodRole s e.2.2 = 1))).length

/-- Refusals of a write to 7040+r:06. -/
def retireRodCheck (s : State) (r v : Nat) : Nat :=
  firstCode [indexOk r 64, boolOk v,
    need (v = 0 || rodRole s r = 0 ||
      (if isTransform r then decide (7 ≤ transformRods s)
       else if (s.rod r).slot.isSome && (slotRod s).isNone then decide (24 ≤ renderLeft s)
       else decide (25 ≤ renderLeft s))) Abort.capacity]

/-- The effect of a write to 7040+r:06. -/
def retireRodApply (s : State) (r v : Nat) : State := if v = 1 then retireRodMoving s r else s

/-- Whether Frame `f` is the one that the rotation in progress relieves. -/
def beingRelieved (s : State) (f : Nat) : Bool :=
  match s.rot with
  | some k => decide (k.old = f)
  | none => false

/-- Whether the module keeps the minimums of R195 without an in-service Frame: its spare, if any, brings the Rods that are neither
fenced nor retired, and every user slot of the Frame takes a render Rod. -/
def withoutFrame (s : State) (f : Nat) : Bool :=
  let ren := ((List.range 7).filter (fun m => decide (rodRole s (8 * f + m) = 1))).length + (slotsOn s f).length
  let trn := ((List.range 8).filter (fun m => decide (rodRole s (8 * f + m) = 2))).length
  let good := fun (q m : Nat) => !(s.rod (8 * q + m)).fenced && !(s.rod (8 * q + m)).retired
  match spareFrame s with
  | some q =>
    decide (6 ≤ (framesIn s).length) && decide (24 + ren ≤ renderLeft s + ((List.range 7).filter (good q)).length) &&
      decide (6 + trn ≤ transformRods s + b2n (good q 7))
  | none => decide (7 ≤ (framesIn s).length) && decide (24 + ren ≤ renderLeft s) && decide (6 + trn ≤ transformRods s)

/-- Refusals of a write to 7010+f:02; the Frame that a rotation already relieves may be retired at its end (R225). -/
def retireFrameCheck (s : State) (f v : Nat) : Nat :=
  firstCode [indexOk f 8, boolOk v,
    need (v = 0 || frameOf s f ≠ .inService || beingRelieved s f || withoutFrame s f) Abort.capacity,
    need (v = 0 || frameOf s f ≠ .inService || beingRelieved s f || s.rot.isNone) Abort.conflict]

/-- The effect of a write to 7010+f:02. Without a spare an in-service Frame is withdrawn at once and its slots move: DESIGN CHOICE
(assumption 143). -/
def retireFrameApply (s : State) (f v : Nat) : State :=
  if v = 0 then s
  else if beingRelieved s f then { s with rot := s.rot.map (fun k => { k with retire := true }) }
  else if frameOf s f = .inService then
    match spareFrame s with
    | some q => beginRotation s f q (s.clk.tick + 1) true
    | none =>
      judgeCompute ((slotsOn s f).foldl (fun t u =>
        match (slotOfNo t u).rod with
        | some r => moveSlot t u r
        | none => t) (rechoose (setFrame s f .retired)))
  else setFrame (withdrawNew s f) f .retired

/-! User slots (R228 to R233) -/

/-- Whether a user-kernel image satisfies the signature policy in force (R515). -/
def kernelPolicyOk (s : State) (i : SlotImage) : Bool :=
  if s.val 0 0x9030 0x01 = 0 then !i.signed || i.sigOk else i.signed && i.sigOk

/-- Whether a section lies in its memory. -/
def sectionFits (x : ImageSection) : Bool := decide (x.base + x.bytes.length ≤ (if x.instr then 0x10000 else 0x40000))

/-- Whether two sections overlap. -/
def sectionsMeet (x y : ImageSection) : Bool :=
  (x.instr == y.instr) && decide (x.base < y.base + y.bytes.length) && decide (y.base < x.base + x.bytes.length)

/-- Whether a list of sections fits and none overlaps another. -/
def sectionsOk : List ImageSection → Bool
  | [] => true
  | x :: r => sectionFits x && !(r.any (sectionsMeet x)) && sectionsOk r

/-- Refusals of a slot image (R228). -/
def slotImageCheck (s : State) (u : Nat) (i : SlotImage) : Nat :=
  firstCode [indexOk u 16, need (decide (i.length ≤ 393216)) Abort.tooLong,
    need (sectionsOk i.sections && decide (i.cd ≤ 250000) && decide (i.bd ≤ 262144)) Abort.content,
    need (!s.flag (0x7080 + u) 0x02) Abort.conflict, need (kernelPolicyOk s i) Abort.signature]

/-- A slot image stored: a read returns the manifest; the last report stays (R233). -/
def slotImageApply (s : State) (u : Nat) (i : SlotImage) : State :=
  (setSlot (s.putBytes (0x7080 + u) 0x01 i.manifest) u
    { UserSlot.init with image := some i, state := 1, report := (slotOfNo s u).report }).stset 0
    (0x7080 + u) 0x05 i.cd

/-- A refusal under the signature policy also raises its event (R515). -/
def signatureRefused (s : State) (code index sub : Nat) : State :=
  if code = Abort.signature then s.raise 178 (index * 256 + sub) 0 else s

/-- Refusals of a write to 7080+u:02 (R229). -/
def slotEnableCheck (s : State) (u v : Nat) : Nat :=
  firstCode [indexOk u 16, boolOk v,
    need (v = 0 || s.flag (0x7080 + u) 0x02 || (slotOfNo s u).image.isSome) Abort.conflict,
    need (v = 0 || s.flag (0x7080 + u) 0x02 || ((slotRod s).isSome && decide (25 ≤ renderLeft s))) Abort.capacity]

/-- The sections of an image written to a Rod whose data memory is zero (R199). -/
def loadImage (m : List Host.Cell) (r : Nat) (i : SlotImage) : List Host.Cell :=
  i.sections.foldl (fun m x => memWrite m (rodWindow r ((if x.instr then 0x40000 else 0) + x.base)) x.bytes)
    (memClear m (rodWindow r 0) (rodWindow r 0x50000))

/-- A user kernel loaded into a Rod (R199, R229): what the Rod did ends, and both memories are written anew. -/
def loadRod (s : State) (u r : Nat) (i : SlotImage) : State :=
  let s1 := clearRod s r
  let s2 : State := { s1 with mem := loadImage s1.mem r i }
  s2.setRod r ({ (s2.rod r).healed 0 0x50000 with slot := some u }.started (s2.rod r).startPc)

/-- QCFG of a user slot's queue as the module sets it (R236): class Tick, render Rods, two items. -/
def userQcfg : Nat := 0x20020001

/-- The effect of a write to 7080+u:02 (R229, R232). -/
def slotEnableApply (s : State) (u v : Nat) : State :=
  let sl := slotOfNo s u
  if v = 0 then
    let s1 := s.put 0 (0x7080 + u) 0x02 0
    let s2 := match sl.rod with
      | some r =>
        let t := endItem s1 r true
        t.setRod r { (t.rod r).halted with slot := none, fault := false }
      | none => s1
    let t := setSlot s2 u { slotOfNo s2 u with state := if sl.image.isSome then 1 else 0, rod := none, ovs := [] }
    judgeCompute (settleRotation (endMove t u))
  else if s.flag (0x7080 + u) 0x02 then s
  else
    match slotRod s, sl.image with
    | some r, some i =>
      let s1 := (qcfgSet (s.put 0 (0x7080 + u) 0x02 1) (48 + u) userQcfg)
      let s3 := loadRod s1 u r i
      judgeCompute (pinFlow (setSlot s3 u { sl with
        state := 2, rod := some r, ovs := [], fades := [], due := false, got := [], from_ := s3.clk.tick }) u r)
    | _, _ => s

/-- The Beam address of the block of tick `t` in a ring of slot `u` (R230): 0 input, 1 output with its report area. -/
def ringAddr (n u kind t : Nat) : Nat :=
  (Config.slotArea u kind).toNat + t % (Config.ringBlocks.toNat + 1) * (if kind = 1 then 32 * n + 32 else 32 * n)

/-- The bytes of a whole ring of a slot. -/
def ringBytes (n kind : Nat) : Nat :=
  if kind = 2 then 65536 else (Config.ringBlocks.toNat + 1) * (if kind = 1 then 32 * n + 32 else 32 * n)

/-- Whether a far range lies in a window of a slot's mover (R231). -/
def slotWindowOk (n u : Nat) (out : Bool) (far len : Nat) : Bool :=
  [0, 1, 2].any (fun k => !(out && k == 0) && decide ((Config.slotArea u k).toNat ≤ far) &&
    decide (far + len ≤ (Config.slotArea u k).toNat + ringBytes n k))

/-- What a slot's mover has written of the output block due in this tick (R230). -/
def noteOutput (s : State) (r far n : Nat) : State :=
  match (s.rod r).slot with
  | some u =>
    let base := ringAddr s.n u 1 (s.clk.tick - 2)
    let lo := max far base
    let hi := min (far + n) (base + 32 * s.n)
    if lo < hi then setSlot s u { slotOfNo s u with got := (slotOfNo s u).got ++ [(lo - base, hi - lo)] } else s
  | none => s

/-- Whether a slot's output block is written whole. -/
def outputWhole (s : State) (u : Nat) : Bool :=
  (List.range (8 * s.n)).all (fun w => (slotOfNo s u).got.any (fun e => decide (e.1 ≤ 4 * w ∧ 4 * w + 4 ≤ e.1 + e.2)))

/-! The commands -/

/-- ROTATE_FRAME: a write of 7000:03 accepted without an apply time. -/
def execRotateFrame (frame : Nat) (s : State) : Host.Outcome State Fault Refusal :=
  done (s.attempt 0x7000 (rotateCheck s frame) (fun t => rotateApply t frame (t.clk.tick + 2)))

/-- ROTATION_LOAD_COMPLETE: the spare's Rods hold the images of the Rods of the old Frame. -/
def execRotationLoadComplete (s : State) : Host.Outcome State Fault Refusal :=
  done (
    match s.rot with
    | some k =>
      if k.phase = 1 then
        { s with
          rot := some { k with phase := 2 },
          rods := (List.range 8).foldl (fun m p => mset Rod.init m (8 * k.new + p) ((s.rod (8 * k.new + p)).healed 0x40000 0x50000)) s.rods,
          mem := (List.range 8).foldl (fun m p => copyInstrMemory m (8 * k.old + p) (8 * k.new + p)) s.mem }
      else s
    | none => s)

/-- USER_SLOT_COPY. -/
def execUserSlotCopy (slot : Nat) (s : State) : Host.Outcome State Fault Refusal := done (copySlot s slot)

/-- RETIRE_FRAME. -/
def execRetireFrame (frame value : Nat) (s : State) : Host.Outcome State Fault Refusal :=
  done (s.attempt (0x7010 + frame) (retireFrameCheck s frame value) (fun t => retireFrameApply t frame value))

/-- RETIRE_ROD. -/
def execRetireRod (rod value : Nat) (s : State) : Host.Outcome State Fault Refusal :=
  done (s.attempt (0x7040 + rod) (retireRodCheck s rod value) (fun t => retireRodApply t rod value))

/-- SLOT_IMAGE_WRITE: zero length is a no-operation (R406). -/
def execSlotImageWrite (slot : Nat) (image : SlotImage) (s : State) : Host.Outcome State Fault Refusal :=
  done (
    let code := slotImageCheck s slot image
    if slot < 16 ∧ image.length = 0 then s
    else signatureRefused (s.attempt (0x7080 + slot) code (fun t => slotImageApply t slot image)) code (0x7080 + slot) 0x01)

/-- SLOT_ENABLE. -/
def execSlotEnable (slot value : Nat) (s : State) : Host.Outcome State Fault Refusal :=
  done (s.attempt (0x7080 + slot) (slotEnableCheck s slot value) (fun t => slotEnableApply t slot value))

end Sys2Proof.Machine
end

