-- ==== Sys2Proof/Machine/RodCore.lean ====
section
/-! DEFINITION. How a Rod executes a word (R200 to R220): registers, data memory, repeats, stalls, faults, and the shared form of
parallel, control and immediate words. -/
namespace Sys2Proof.Machine

/-! Registers -/

/-- Lane `l` of Vn as a signed number. -/
def Rod.lane (r : Rod) (n l : Nat) : Int := (mget 0#32 r.v (8 * n + l)).toInt

/-- Lane `l` of ACn. -/
def Rod.acc (r : Rod) (n l : Nat) : Int := (mget 0#72 r.ac (8 * n + l)).toInt

/-- ARn. -/
def Rod.arv (r : Rod) (n : Nat) : Nat := (mget 0#32 r.ar n).toNat

/-- MDn, signed. -/
def Rod.mdv (r : Rod) (n : Nat) : Int := (mget 0#32 r.md n).toInt

/-- The lanes of a vector register written. -/
def Rod.setV (r : Rod) (n : Nat) (f : Nat → Int) : Rod :=
  { r with v := (List.range 8).foldl (fun m l => mset 0#32 m (8 * n + l) (BitVec.ofInt 32 (f l))) r.v }

/-- The lanes of an accumulator written. -/
def Rod.setAc (r : Rod) (n : Nat) (f : Nat → Int) : Rod :=
  { r with ac := (List.range 8).foldl (fun m l => mset 0#72 m (8 * n + l) (BitVec.ofInt 72 (f l))) r.ac }

/-- ARn written, modulo 2^32. -/
def Rod.setAr (r : Rod) (n : Nat) (x : Int) : Rod := { r with ar := mset 0#32 r.ar n (BitVec.ofInt 32 x) }

/-- SATF set where a saturation changed a value; it is sticky (R200). -/
def Rod.sat (r : Rod) (changed : Bool) : Rod := { r with satf := r.satf || changed }

/-! Data memory and its ECC (R197, R204) -/

/-- The bytes a load or store at `a` in data memory reads as a 32-bit word. -/
def dmWord (s : State) (r a : Nat) : Word := BitVec.ofNat 32 (leNat (memBytes s.mem (rodWindow r a) 4))

/-- Whether an access address is a multiple of 4 inside data memory (R204). -/
def dmOk (a : Int) : Bool := decide (0 ≤ a ∧ a + 3 ≤ 0x3FFFF ∧ a % 4 = 0)

/-- The error of the 64-bit word at an offset of a Rod's window. -/
def rodErr (s : State) (r off : Nat) : Option Nat := mget none (s.rod r).errs (off / 8 * 8)

/-- Whether any of the words at these offsets is uncorrectable. -/
def rodLost (s : State) (r : Nat) (offs : List Nat) : Bool :=
  offs.any (fun a => decide (rodErr s r a = some uncorrectable))

/-- A correction counted in ROD_ECC and 7040+r:07 (R197). -/
def countRodEcc (s : State) (r : Nat) : State :=
  (s.setRod r { s.rod r with corr := satAdd 65535 (s.rod r).corr 1 }).bump (0x7040 + r) 0x07 1

/-- A read of the words at these offsets: single-bit errors are corrected and counted. -/
def rodNote (s : State) (r : Nat) (offs : List Nat) : State :=
  (offs.foldl (fun l a => setAdd (a / 8 * 8) l) []).foldl (fun s w => if (rodErr s r w).isSome then countRodEcc s r else s) s

/-- A word of the window written whole: its check bits are valid again. -/
def rodHeal (s : State) (r off : Nat) : State :=
  s.setRod r { s.rod r with errs := mset none (s.rod r).errs (off / 8 * 8) none }

/-- A 32-bit store; the word's other half is read, corrected and written back. -/
def dmStore (s : State) (r : Nat) (e : Nat × Word) : State :=
  let s1 := if (rodErr s r e.1).isSome then rodHeal (countRodEcc s r) r e.1 else s
  { s1 with mem := memWrite s1.mem (rodWindow r e.1) (leBytes 4 e.2.toNat) }

/-! Transfers that a word must wait for (R219) -/

/-- Whether a byte range meets a transfer's local range. -/
def meets (a n : Nat) (x : Xfer) : Bool := decide (a < x.dm + x.len) && decide (x.dm < a + n)

/-- Whether a load of these words waits. -/
def loadWaits (rod : Rod) (offs : List Nat) : Bool := rod.xfers.any (fun x => !x.out && offs.any (fun a => meets a 4 x))

/-- Whether a store to these words waits. -/
def storeWaits (rod : Rod) (offs : List Nat) : Bool := rod.xfers.any (fun x => x.out && offs.any (fun a => meets a 4 x))

/-! Repeats and the word address (R212 to R215) -/

/-- The word after the word at `pc`, under the active levels, innermost first (R213). -/
def nextWord : List RepLevel → Nat → Nat × List RepLevel
  | [], pc => ((pc + 1) % 8192, [])
  | l :: rest, pc =>
    if pc = l.last then
      if 1 < l.count then (l.first, { l with count := l.count - 1 } :: rest) else nextWord rest pc
    else ((pc + 1) % 8192, l :: rest)

/-- Whether the word at `pc` is the last of an active body. -/
def atBodyEnd (rod : Rod) : Bool := rod.reps.any (fun l => decide (l.last = rod.pc))

/-! What a word wrote, for the stalls of R220 -/

/-- Accumulators written; ARs and FAs (16 + m) written by LDW, LDF or MFS; whether it was a search, STD or BXSTEP. -/
structure Wrote where
  acs    : List Nat
  ars    : List Nat
  search : Bool
  deriving DecidableEq, Repr

/-- A word that wrote none of these. -/
def Wrote.none : Wrote := Wrote.mk [] [] false

/-- The stall of a word that reads these accumulators through the reads of R220 and uses these ARs and FAs. -/
def stallOf (rod : Rod) (acs ars : List Nat) : Nat :=
  max (if acs.any (fun a => rod.hzA1.contains a) then 2 else if acs.any (fun a => rod.hzA2.contains a) then 1 else 0)
    (if ars.any (fun a => rod.hzAr.contains a) then 1 else 0)

/-- A word completes: `rod` holds its results, `stall` and `extra` are its cycles beyond the first, `w` what it wrote; the
Rod goes on at `pc` with `reps`. -/
def finishAt (s : State) (r : Nat) (rod : Rod) (stall : Nat) (w : Wrote) (pc : Nat) (reps : List RepLevel) : State :=
  s.setRod r { rod with
    pc := pc, reps := reps, wait := none, cyc := rod.cyc + BitVec.ofNat 32 (1 + stall), hzA1 := w.acs, hzA2 := rod.hzA1,
    hzAr := w.ars, hzSr := w.search }

/-- A word completes and the Rod goes on with the next one (R213). -/
def finish (s : State) (r : Nat) (rod : Rod) (stall : Nat) (w : Wrote) : State :=
  let (pc, reps) := nextWord rod.reps rod.pc
  finishAt s r rod stall w pc reps

/-- A word that waits stays to be issued again (R219, R220). -/
def stallWord (s : State) (r : Nat) : State := s.setRod r { s.rod r with wait := some .stall }

/-! Encodings (R201, R221) -/

/-- Whether a vector operation code is assigned; 0x38 exists on transform Rods only. -/
def vopCode (transform : Bool) (k : Nat) : Bool :=
  decide (k ≤ 0x15) || decide (0x20 ≤ k ∧ k ≤ 0x29) || decide (0x30 ≤ k ∧ k ≤ 0x35) || (decide (k = 0x38) && transform) ||
    decide (0x40 ≤ k ∧ k ≤ 0x42)

/-- Whether a vector operation writes an accumulator, named in VD. -/
def vopToAc (k : Nat) : Bool := decide (0x20 ≤ k ∧ k ≤ 0x28) || decide (k = 0x34) || decide (k = 0x35)

/-- Whether a vector operation reads an accumulator named in VA. -/
def vopOfAc (k : Nat) : Bool :=
  decide (k = 0x25) || decide (k = 0x26) || decide (k = 0x29) || decide (0x30 ≤ k ∧ k ≤ 0x33) || decide (k = 0x38)

/-- Whether an update mode is assigned on the Rod. -/
def umodeOk (transform : Bool) (m : Nat) : Bool := decide (m < 3) || (decide (m = 3) && transform)

/-- Whether a parallel word is legal. -/
def parallelLegal (transform : Bool) (w : Nat) : Bool :=
  let k := bitsOf w 61 55
  vopCode transform k && (!vopToAc k || decide (bitsOf w 54 53 = 0)) && (!vopOfAc k || decide (bitsOf w 49 48 = 0)) &&
    (decide (k ≠ 0x15) || decide (bitsOf w 44 40 < 8)) && (transform || decide (bitsOf w 28 27 ≠ 3)) &&
    umodeOk transform (bitsOf w 17 15) && umodeOk transform (bitsOf w 8 6)

/-- Whether a control word is legal. -/
def controlLegal (transform : Bool) (w : Nat) : Bool :=
  let k := bitsOf w 61 56
  (decide (1 ≤ k ∧ k ≤ 0x16) || (decide (k = 0x17 ∨ k = 0x18) && transform) || decide (k = 0x1A ∨ k = 0x1B)) &&
    decide (bitsOf w 42 40 = 0) && decide (bitsOf w 15 13 = 0) && (decide (k ≠ 0x0D) || decide (bitsOf w 51 50 = 0))

/-- Whether an immediate word is legal. -/
def immediateLegal (w : Nat) : Bool :=
  let k := bitsOf w 61 58
  let sel := bitsOf w 57 51
  decide (k < 3) && decide (sel ≤ 67) && decide (bitsOf w 50 32 = 0) &&
    (decide (k ≠ 2) || (decide (64 ≤ sel) && decide (bitsOf w 31 8 = 0)))

/-- Whether a 64-bit word is no illegal instruction on the Rod: its format, codes, reserved fields and register fields (R201, R221). -/
def wordLegal (transform : Bool) (w : Nat) : Bool :=
  match bitsOf w 63 62 with
  | 0 => parallelLegal transform w
  | 1 => controlLegal transform w
  | 2 => immediateLegal w
  | _ => false

/-- The word of instruction memory at a Rod's PC. -/
def instrWord (s : State) (r : Nat) : Nat := leNat (memBytes s.mem (rodWindow r (0x40000 + 8 * (s.rod r).pc)) 8)

/-- A word executed where the word of instruction memory at its address is no illegal instruction (R201). -/
def legalWord (s : State) (r : Nat) (word : State → State) : State :=
  if wordLegal (isTransform r) (instrWord s r) then word s else rodFault s r 0x01 0

/-- A Rod that is Running, and not held in reset by a fence (R28), executes a word of its instruction memory: R197 checks the word read
at its address first, then R201. -/
def runWord (s : State) (r : Nat) (word : State → State) : State :=
  if r < 64 && decide ((s.rod r).st = .running) && !(s.rod r).fenced then
    match rodErr s r (0x40000 + 8 * (s.rod r).pc) with
    | none => legalWord s r word
    | some b =>
      if b = uncorrectable then rodFault (s.setRod r { s.rod r with uncorr := true }) r 0x09 0
      else legalWord (countRodEcc s r) r word
  else s

/-- A control word: legal (R201, R221), permitted in a user slot (R231), and not the last of a body (R215). -/
def controlWord (s : State) (r : Nat) (legal permitted : Bool) (word : State → State) : State :=
  runWord s r (fun t =>
    if !legal then rodFault t r 0x01 0
    else if !permitted then rodFault t r 0x0C 0
    else if atBodyEnd (t.rod r) then rodFault t r 0x03 0
    else word t)

/-- Whether a Rod holds no user slot. -/
def notUser (s : State) (r : Nat) : Bool := (s.rod r).slot.isNone

end Sys2Proof.Machine
end

