-- ==== Sys2Proof/Machine/RodControl.lean ====
section
/-! DEFINITION. Control and immediate words of a Rod (R212 to R221) and its run control (R196, R199, R200, R222). -/
namespace Sys2Proof.Machine

/-! Repeats, jumps -/

/-- REP and REPA with their count (R212, R214). -/
def openRepeat (s : State) (r count w13 stall : Nat) : State :=
  let rod := s.rod r
  let beyond := match rod.reps with
    | l :: _ => decide (l.last < w13)
    | [] => false
  if 65535 < count || decide (3 ≤ rod.reps.length) || decide (w13 ≤ rod.pc) || beyond then rodFault s r 0x03 0
  else if count = 0 then
    let (pc, reps) := nextWord rod.reps w13
    finishAt s r rod stall Wrote.none pc reps
  else finishAt s r rod stall Wrote.none (rod.pc + 1) (RepLevel.mk count (rod.pc + 1) w13 :: rod.reps)

/-- BRK (R215): the innermost level closes and the Rod continues after its last word. -/
def breakLevel (s : State) (r : Nat) : State :=
  let rod := s.rod r
  match rod.reps with
  | [] => rodFault s r 0x03 0
  | l :: rest =>
    let (pc, reps) := nextWord rest l.last
    finishAt s r rod 2 Wrote.none pc reps

/-- J and its conditional forms (R215, R220): a repeat fault while a level is active; a taken jump stalls 2 cycles, which
a stall for its register does not lengthen: DESIGN CHOICE (assumption 140). -/
def jumpIf (s : State) (r : Nat) (taken : Bool) (uses : List Nat) (target : Nat) (rod : Rod) : State :=
  if !(s.rod r).reps.isEmpty then rodFault s r 0x03 0
  else if taken then finishAt s r rod (max 2 (stallOf (s.rod r) [] uses)) Wrote.none target []
  else finish s r rod (stallOf (s.rod r) [] uses) Wrote.none

/-! Special registers (R200) -/

/-- The number of an LC register at its level, 0 where the level is closed. -/
def repCount (rod : Rod) (level : Nat) : Nat :=
  match rod.reps.reverse[level]? with
  | some l => l.count
  | none => 0

/-- A special register as MFS reads it; none where the number does not exist on the Rod. -/
def specialRead (rod : Rod) (r : Nat) (k : Nat) : Option Nat :=
  match k with
  | 0x00 => some rod.ps
  | 0x01 => if isTransform r then some rod.bsh else none
  | 0x02 => if isTransform r then some rod.bxm else none
  | 0x03 => if isTransform r then some rod.bxe.toNat else none
  | 0x04 => some rod.aex.toNat
  | 0x05 => some (rod.sx.toNat % 2 ^ 32)
  | 0x06 => some (rod.sx.toNat / 2 ^ 32)
  | 0x07 => some rod.si.toNat
  | 0x08 => some rod.sc.toNat
  | 0x09 => some rod.lnk.toNat
  | 0x0A => some (if rod.slot.isSome then 0 else rod.cyc.toNat)
  | 0x0B => some (if rod.slot.isSome then 0 else r)
  | 0x0C => some (b2n rod.satf)
  | 0x10 => some (repCount rod 0)
  | 0x11 => some (repCount rod 1)
  | 0x12 => some (repCount rod 2)
  | _ => none

/-- A special register as MTS writes it, truncated to its width; a read-only one keeps its value. -/
def specialWrite (rod : Rod) (k : Nat) (v : Nat) : Rod :=
  match k with
  | 0x00 => { rod with ps := v % 32 }
  | 0x03 => { rod with bxe := BitVec.ofNat 32 v }
  | 0x04 => { rod with aex := BitVec.ofNat 32 v }
  | 0x05 => { rod with sx := BitVec.ofNat 64 (rod.sx.toNat / 2 ^ 32 * 2 ^ 32 + v % 2 ^ 32) }
  | 0x06 => { rod with sx := BitVec.ofNat 64 (rod.sx.toNat % 2 ^ 32 + v % 2 ^ 32 * 2 ^ 32) }
  | 0x07 => { rod with si := BitVec.ofNat 32 v }
  | 0x08 => { rod with sc := BitVec.ofNat 32 v }
  | 0x09 => { rod with lnk := BitVec.ofNat 13 v }
  | 0x0C => { rod with satf := v % 2 = 1 }
  | _ => rod

/-- Whether MFS of a register after a search, STD or BXSTEP stalls a cycle (R220). -/
def searchReg (k : Nat) : Bool := [0x02, 0x03, 0x05, 0x06, 0x07, 0x08].contains k

/-! Work and movers (R216 to R219) -/

/-- The item in service ends now, or once the transfers outstanding have completed (R217). -/
def finishItem (s : State) (r : Nat) : State :=
  let rod := s.rod r
  if rod.item.isNone then s
  else if rod.xfers.isEmpty then endItem s r false
  else s.setRod r { rod with ending := some rod.xfers.length }

/-- TAKE (R216, R217, R242): the previous item ends, and the Rod waits until it is given one. -/
def takeWord (s : State) (r an k8 : Nat) : State :=
  let a := (s.rod r).arv an
  if a % 32 ≠ 0 || decide (0x3FFFF < a + 31) then rodFault s r 0x04 0
  else
    let s1 := finishItem (s.setRod r { s.rod r with cyc := (s.rod r).cyc + BitVec.ofNat 32 (1 + stallOf (s.rod r) [] [an]) }) r
    if (s1.rod r).st ≠ .running then s1
    else giveIfAny (s1.setRod r { s1.rod r with
      st := .waiting, wait := some (.take k8 a), hzA1 := [], hzA2 := (s1.rod r).hzA1, hzAr := [], hzSr := false }) r

/-- PUT (R216, R238, R248, R249): the Rod waits while the queue is full; a refused PUT completes. The descriptor is read through the
memory's ECC (R197). -/
def putWord (s : State) (r an k8 : Nat) : State :=
  let a := (s.rod r).arv an
  let offs := (List.range 8).map (fun i => a + 4 * i)
  if 0x3FFFF < a + 31 then rodFault s r 0x04 0
  else if rodLost s r (offs ++ [a + 31]) then rodFault (s.setRod r { s.rod r with uncorr := true }) r 0x08 0
  else
    let (s1, ans) := tallyPut (rodNote s r (offs ++ [a + 31])) k8 r (memBytes s.mem (rodWindow r a) 32)
    match ans with
    | .held => s1.setRod r { s1.rod r with
        st := .waiting, wait := some (.put k8 []), cyc := (s1.rod r).cyc + BitVec.ofNat 32 (stallOf (s.rod r) [] [an]) }
    | _ => finish s1 r (s1.rod r) (stallOf (s.rod r) [] [an]) Wrote.none

/-- XFER by the table of R218, with the windows of a user slot (R231) and its byte budget (R232). -/
def xferWord (s : State) (r : Nat) (out : Bool) (an fa md : Nat) : State :=
  let rod := s.rod r
  let len := (mget 0#32 rod.md md).toNat
  let dm := rod.arv an
  let far := (mget 0#40 rod.fa fa).toNat
  let stall := stallOf rod [] [an, 16 + fa]
  if len = 0 then finish s r rod stall Wrote.none
  else if len % 4 ≠ 0 || decide (65536 < len) then rodFault s r 0x07 0
  else if 0x40000 < dm + len then rodFault s r 0x04 0
  else
    let foreign := match rod.slot with
      | some u => !slotWindowOk s.n u out far len
      | none => false
    if foreign then rodFault s r 0x06 0
    else
      let budget := match rod.slot with
        | some u =>
          match (slotOfNo s u).image with
          | some i => rod.item.isSome && decide (i.bd < rod.bytes + len)
          | none => false
        | none => false
      if budget then rodFault s r 0x0A 0
      else if 2 ≤ rod.xfers.length then stallWord s r
      else finish s r { rod with
          xfers := rod.xfers ++ [Xfer.mk out dm far len 0 false false],
          bytes := if rod.item.isSome then rod.bytes + len else rod.bytes } stall Wrote.none

/-! Immediate words (R201, R221) -/

/-- The registers that SEL names: the value of one. -/
def selRead (rod : Rod) (sel : Nat) : Nat :=
  if sel < 16 then (mget 0#32 rod.ar sel).toNat
  else if sel < 32 then (mget 0#32 rod.md (sel - 16)).toNat
  else if sel < 48 then (mget 0#19 rod.cl (sel - 32)).toNat
  else if sel < 64 then (mget 0#18 rod.cb (sel - 48)).toNat
  else (mget 0#40 rod.fa (sel - 64)).toNat

/-- The register that SEL names written, modulo its width. -/
def selWrite (rod : Rod) (sel v : Nat) : Rod :=
  if sel < 16 then { rod with ar := mset 0#32 rod.ar sel (BitVec.ofNat 32 v) }
  else if sel < 32 then { rod with md := mset 0#32 rod.md (sel - 16) (BitVec.ofNat 32 v) }
  else if sel < 48 then { rod with cl := mset 0#19 rod.cl (sel - 32) (BitVec.ofNat 19 v) }
  else if sel < 64 then { rod with cb := mset 0#18 rod.cb (sel - 48) (BitVec.ofNat 18 v) }
  else { rod with fa := mset 0#40 rod.fa (sel - 64) (BitVec.ofNat 40 v) }

/-- Whether CL takes a value: 0 or a multiple of 4 up to 262,144 (R221). -/
def clOk (v : Nat) : Bool := decide (v % 4 = 0 ∧ v ≤ 262144)

/-- The AR or FA that SEL names, for the stalls of R220. -/
def selUses (sel : Nat) : List Nat := if sel < 16 then [sel] else if sel < 64 then [] else [16 + (sel - 64)]

/-- LI or ADDI writing value `v` to the register SEL. -/
def immediateWord (s : State) (r sel v : Nat) (uses : List Nat) : State :=
  let rod := s.rod r
  if 67 < sel || (decide (32 ≤ sel ∧ sel < 48) && !clOk v) then rodFault s r 0x01 0
  else finish s r (selWrite rod sel v) (stallOf rod [] uses) Wrote.none

/-! Run control -/

/-- RUN written 1 on a Stopped Rod (R199, R200); on any other only START_PC changes. A fenced Rod stays in reset (R28). -/
def runStart (s : State) (r startPc : Nat) : State :=
  let rod := s.rod r
  if rod.st = .stopped && !rod.fenced then s.setRod r { rod.started startPc with xfers := rod.xfers }
  else s.setRod r { rod with startPc := startPc % 8192 }

/-- RUN written 0 (R199, R217): the Rod stops after the current word, its transfers cancelled, its item failed. -/
def runStop (s : State) (r : Nat) : State :=
  match (s.rod r).st with
  | .running | .waiting =>
    let s1 := clearRod s r
    s1.setRod r (s1.rod r).halted
  | _ => s

/-- FAULT cleared (R222): the Rod returns to Stopped. -/
def faultClear (s : State) (r : Nat) : State :=
  let rod := s.rod r
  if rod.fault then s.setRod r { rod with fault := false, st := if rod.st = .faulted then .stopped else rod.st } else s

/-! The commands -/

/-- REP. -/
def execRep (rod n16 w13 : Nat) (s : State) : Host.Outcome State Fault Refusal :=
  done (controlWord s rod (decide (n16 < 65536) && decide (w13 < 8192)) true (fun t => openRepeat t rod n16 w13 0))

/-- REPA. -/
def execRepa (rod an w13 : Nat) (s : State) : Host.Outcome State Fault Refusal :=
  done (controlWord s rod (decide (an < 16) && decide (w13 < 8192)) true
    (fun t => openRepeat t rod ((t.rod rod).arv an) w13 (stallOf (t.rod rod) [] [an])))

/-- BRK. -/
def execBrk (rod : Nat) (s : State) : Host.Outcome State Fault Refusal :=
  done (controlWord s rod true true (fun t => breakLevel t rod))

/-- J. -/
def execJ (rod w13 : Nat) (s : State) : Host.Outcome State Fault Refusal :=
  done (controlWord s rod (decide (w13 < 8192)) true (fun t => jumpIf t rod true [] w13 (t.rod rod)))

/-- JZ. -/
def execJz (rod an w13 : Nat) (s : State) : Host.Outcome State Fault Refusal :=
  done (controlWord s rod (decide (an < 16) && decide (w13 < 8192)) true
    (fun t => jumpIf t rod (decide ((t.rod rod).arv an = 0)) [an] w13 (t.rod rod)))

/-- JNZ. -/
def execJnz (rod an w13 : Nat) (s : State) : Host.Outcome State Fault Refusal :=
  done (controlWord s rod (decide (an < 16) && decide (w13 < 8192)) true
    (fun t => jumpIf t rod (decide ((t.rod rod).arv an ≠ 0)) [an] w13 (t.rod rod)))

/-- JNEG. -/
def execJneg (rod an w13 : Nat) (s : State) : Host.Outcome State Fault Refusal :=
  done (controlWord s rod (decide (an < 16) && decide (w13 < 8192)) true
    (fun t => jumpIf t rod (decide (2 ^ 31 ≤ (t.rod rod).arv an)) [an] w13 (t.rod rod)))

/-- CALL: LNK takes the next word's address. -/
def execCall (rod w13 : Nat) (s : State) : Host.Outcome State Fault Refusal :=
  done (controlWord s rod (decide (w13 < 8192)) true
    (fun t => jumpIf t rod true [] w13 { t.rod rod with lnk := BitVec.ofNat 13 ((t.rod rod).pc + 1) }))

/-- RET. -/
def execRet (rod : Nat) (s : State) : Host.Outcome State Fault Refusal :=
  done (controlWord s rod true true (fun t => jumpIf t rod true [] (t.rod rod).lnk.toNat (t.rod rod)))

/-- TAKE. -/
def execTake (rod an k8 : Nat) (s : State) : Host.Outcome State Fault Refusal :=
  done (controlWord s rod (decide (an < 16) && decide (k8 < 16)) (notUser s rod || decide (k8 = 0))
    (fun t => takeWord t rod an k8))

/-- PUT. -/
def execPut (rod an k8 : Nat) (s : State) : Host.Outcome State Fault Refusal :=
  done (controlWord s rod (decide (an < 16) && decide (k8 < 64)) (notUser s rod) (fun t => putWord t rod an k8))

/-- DONE. -/
def execDone (rod : Nat) (s : State) : Host.Outcome State Fault Refusal :=
  done (controlWord s rod true true (fun t =>
    let t1 := finishItem (finish t rod (t.rod rod) 0 Wrote.none) rod
    t1))

/-- XFER: `out` is the direction D. -/
def execXfer (rod : Nat) (out : Bool) (an fa md : Nat) (s : State) : Host.Outcome State Fault Refusal :=
  done (controlWord s rod (decide (an < 16) && decide (fa < 4) && decide (md < 16)) true
    (fun t => xferWord t rod out an fa md))

/-- WAITX: at most K8 transfers, 0 or 1, outstanding. -/
def execWaitx (rod k8 : Nat) (s : State) : Host.Outcome State Fault Refusal :=
  done (controlWord s rod (decide (k8 < 2)) true (fun t =>
    if (t.rod rod).xfers.length ≤ k8 then finish t rod (t.rod rod) 0 Wrote.none
    else t.setRod rod { t.rod rod with st := .waiting, wait := some (.xfers k8) }))

/-- SETPS. -/
def execSetps (rod k8 : Nat) (s : State) : Host.Outcome State Fault Refusal :=
  done (controlWord s rod (decide (k8 < 32)) true (fun t => finish t rod { t.rod rod with ps := k8 } 0 Wrote.none))

/-- MFS. -/
def execMfs (rod an k8 : Nat) (s : State) : Host.Outcome State Fault Refusal :=
  done (controlWord s rod (decide (an < 16) && (specialRead (s.rod rod) rod k8).isSome) true (fun t =>
    let q := t.rod rod
    finish t rod (q.setAr an (((specialRead q rod k8).getD 0 : Nat) : Int)) (if q.hzSr && searchReg k8 then 1 else 0)
      (Wrote.mk [] [an] false)))

/-- MTS. -/
def execMts (rod an k8 : Nat) (s : State) : Host.Outcome State Fault Refusal :=
  done (controlWord s rod (decide (an < 16) && (specialRead (s.rod rod) rod k8).isSome) true (fun t =>
    finish t rod (specialWrite (t.rod rod) k8 ((t.rod rod).arv an)) (stallOf (t.rod rod) [] [an]) Wrote.none))

/-- MOV. -/
def execMov (rod ad as_ : Nat) (s : State) : Host.Outcome State Fault Refusal :=
  done (controlWord s rod (decide (ad < 16) && decide (as_ < 16)) true (fun t =>
    finish t rod ((t.rod rod).setAr ad ((t.rod rod).arv as_ : Nat)) (stallOf (t.rod rod) [] [as_]) Wrote.none))

/-- LDW. -/
def execLdw (rod an am : Nat) (s : State) : Host.Outcome State Fault Refusal :=
  done (controlWord s rod (decide (an < 16) && decide (am < 16)) true (fun t =>
    let a := (t.rod rod).arv am
    if !dmOk a then rodFault t rod 0x04 0
    else if loadWaits (t.rod rod) [a] then stallWord t rod
    else if rodLost t rod [a] then rodFault (t.setRod rod { t.rod rod with uncorr := true }) rod 0x08 0
    else
      let t1 := rodNote t rod [a]
      finish t1 rod ((t1.rod rod).setAr an ((dmWord t1 rod a).toNat : Nat)) (stallOf (t.rod rod) [] [am])
        (Wrote.mk [] [an] false)))

/-- STW. -/
def execStw (rod an am : Nat) (s : State) : Host.Outcome State Fault Refusal :=
  done (controlWord s rod (decide (an < 16) && decide (am < 16)) true (fun t =>
    let a := (t.rod rod).arv am
    if !dmOk a then rodFault t rod 0x04 0
    else if storeWaits (t.rod rod) [a] then stallWord t rod
    else if rodLost t rod [a] then rodFault (t.setRod rod { t.rod rod with uncorr := true }) rod 0x08 0
    else
      let t1 := dmStore t rod (a, mget 0#32 (t.rod rod).ar an)
      finish t1 rod (t1.rod rod) (stallOf (t.rod rod) [] [an, am]) Wrote.none))

/-- LDF: bits [39:0] of the 64-bit word at ARm, a multiple of 8. -/
def execLdf (rod fa am : Nat) (s : State) : Host.Outcome State Fault Refusal :=
  done (controlWord s rod (decide (fa < 4) && decide (am < 16)) true (fun t =>
    let a := (t.rod rod).arv am
    if a % 8 ≠ 0 || decide (0x3FFFF < a + 7) then rodFault t rod 0x04 0
    else if loadWaits (t.rod rod) [a, a + 4] then stallWord t rod
    else if rodLost t rod [a] then rodFault (t.setRod rod { t.rod rod with uncorr := true }) rod 0x08 0
    else
      let t1 := rodNote t rod [a]
      let v := leNat (memBytes t1.mem (rodWindow rod a) 8)
      finish t1 rod { t1.rod rod with fa := mset 0#40 (t1.rod rod).fa fa (BitVec.ofNat 40 v) }
        (stallOf (t.rod rod) [] [am]) (Wrote.mk [] [16 + fa] false)))

/-- SRINIT (R211): `min` is mode D = 1. -/
def execSrinit (rod an : Nat) (min : Bool) (s : State) : Host.Outcome State Fault Refusal :=
  done (controlWord s rod (decide (an < 16)) true (fun t =>
    let q := t.rod rod
    finish t rod { q with
      sc := mget 0#32 q.ar an, si := 0xFFFFFFFF#32, sx := if min then 0x7FFFFFFFFFFFFFFF#64 else 0x8000000000000000#64 }
      (stallOf q [] [an]) Wrote.none))

/-- BXCLR. -/
def execBxclr (rod : Nat) (s : State) : Host.Outcome State Fault Refusal :=
  done (controlWord s rod (isTransform rod) true (fun t =>
    finish t rod { t.rod rod with bxm := 0, bsh := 0, bxe := 0 } 0 Wrote.none))

/-- BXSTEP (R209). -/
def execBxstep (rod : Nat) (s : State) : Host.Outcome State Fault Refusal :=
  done (controlWord s rod (isTransform rod) true (fun t =>
    let q := t.rod rod
    let sh := if q.bxm < 2 ^ 29 then 0 else if q.bxm < 2 ^ 30 then 1 else 2
    finish t rod { q with bsh := sh, bxe := q.bxe + BitVec.ofNat 32 sh, bxm := 0 } 0 (Wrote.mk [] [] true)))

/-- HALT: the Rod is Stopped and its item ends as failed. -/
def execHalt (rod : Nat) (s : State) : Host.Outcome State Fault Refusal :=
  done (controlWord s rod true true (fun t =>
    let t1 := endItem t rod true
    t1.setRod rod { t1.rod rod with st := .stopped, wait := none }))

/-- TRAP: fault 0x0B with its operand. -/
def execTrap (rod k8 : Nat) (s : State) : Host.Outcome State Fault Refusal :=
  done (controlWord s rod (decide (k8 < 256)) true (fun t => rodFault t rod 0x0B k8))

/-- LI: for FA, bits [39:32] become 0. -/
def execLi (rod sel imm : Nat) (s : State) : Host.Outcome State Fault Refusal :=
  done (runWord s rod (fun t => if imm < 2 ^ 32 then immediateWord t rod sel imm [] else rodFault t rod 0x01 0))

/-- ADDI: modulo the register's width. -/
def execAddi (rod sel imm : Nat) (s : State) : Host.Outcome State Fault Refusal :=
  done (runWord s rod (fun t =>
    let w := if decide (32 ≤ sel ∧ sel < 48) then 19 else if decide (48 ≤ sel ∧ sel < 64) then 18 else 40
    if imm < 2 ^ 32 then immediateWord t rod sel ((selRead (t.rod rod) sel + imm) % 2 ^ w) (selUses sel)
    else rodFault t rod 0x01 0))

/-- LIH: FA bits [39:32]; FA only, IMM[31:8] zero. -/
def execLih (rod sel imm : Nat) (s : State) : Host.Outcome State Fault Refusal :=
  done (runWord s rod (fun t =>
    if 64 ≤ sel ∧ sel ≤ 67 ∧ imm < 256 then
      immediateWord t rod sel (selRead (t.rod rod) sel % 2 ^ 32 + imm * 2 ^ 32) (selUses sel)
    else rodFault t rod 0x01 0))

/-- ROD_RUN_START. -/
def execRodRunStart (rod startPc : Nat) (s : State) : Host.Outcome State Fault Refusal :=
  done (if rod < 64 then runStart s rod startPc else s)

/-- ROD_RUN_STOP. -/
def execRodRunStop (rod : Nat) (s : State) : Host.Outcome State Fault Refusal :=
  done (if rod < 64 then runStop s rod else s)

/-- ROD_FAULT_CLEAR. -/
def execRodFaultClear (rod : Nat) (s : State) : Host.Outcome State Fault Refusal :=
  done (if rod < 64 then faultClear s rod else s)

end Sys2Proof.Machine
end

