-- ==== Sys2Proof/Machine/Transform.lean ====
section
/-! DEFINITION. The block-floating transforms of the correction stage (R160 to R166): coefficient spectra, forward and inverse
transform, the output spectrum. -/
namespace Sys2Proof.Machine

/-- A complex pair of integers. -/
abbrev Cpx := Int × Int

/-- Element i of a list of pairs, zero beyond its end. -/
def nthC (l : List Cpx) (i : Nat) : Cpx := l.getD i (0, 0)

/-- The effective filter (R160): the taps, or the convolution with the trim in Q2.30. -/
def effective (trim : Option (List Int)) (c : List Int) : List Int :=
  match trim with
  | none => c
  | some t =>
    if c.isEmpty then []
    else (List.range (c.length + t.length - 1)).map (fun n =>
      sat32 (shr (isum ((List.range t.length).map (fun m => if m ≤ n then nth t m * nth c (n - m) else 0))) 30))

/-- One component of a coefficient bin (R161): `w` is the twiddle table. -/
def coefBin (w : Nat → Int) (n : Nat) (h : List Int) (p k : Nat) : Int :=
  sat32 (shr (isum ((List.range n).map (fun i => nth h (n * p + i) * w (i * k * (64 / (2 * n)) % 64)))) 37)

/-- The coefficient spectra of an effective filter (R161). -/
def spectraOf (n : Nat) (h : List Int) : FilterSet where
  len := h.length
  parts := (List.range ((h.length + n - 1) / n)).map (fun p =>
    Partition.mk ((List.range (n + 1)).map (coefBin twiddleRe n h p)) ((List.range (n + 1)).map (coefBin twiddleIm n h p)))

/-- The shift of a stage from its largest component (R163). -/
def stageShift (z : List Cpx) : Nat :=
  let mx := z.foldl (fun m c => max m (max (iabs c.1) (iabs c.2))) 0
  if mx < 2 ^ 29 then 0 else if mx < 2 ^ 30 then 1 else 2

/-- The twiddle product of a butterfly: forward (R163) or conjugate (R166). -/
def twist (inverse : Bool) (m : Nat) (u : Cpx) : Cpx :=
  let wr := twiddleRe m
  let wi := twiddleIm m
  if inverse then (shr (u.1 * wr + u.2 * wi) 31, shr (u.2 * wr - u.1 * wi) 31)
  else (shr (u.1 * wr - u.2 * wi) 31, shr (u.1 * wi + u.2 * wr) 31)

/-- Element i after stage s (R163). -/
def butterfly (inverse : Bool) (s sh : Nat) (z : List Cpx) (i : Nat) : Cpx :=
  let h := 2 ^ (s - 1)
  let q := i % (2 * h)
  if q < h then
    let a := nthC z i
    let t := twist inverse (q * 2 ^ (6 - s)) (nthC z (i + h))
    (sat32 (shr (a.1 + t.1) sh), sat32 (shr (a.2 + t.2) sh))
  else
    let a := nthC z (i - h)
    let t := twist inverse ((q - h) * 2 ^ (6 - s)) (nthC z i)
    (sat32 (shr (a.1 - t.1) sh), sat32 (shr (a.2 - t.2) sh))

/-- The stages `s` on, `left` of them, with the exponent gathered. -/
def stagesFrom (inverse : Bool) : Nat → Nat → Nat → List Cpx → Nat × List Cpx
  | 0, _, e, z => (e, z)
  | left + 1, s, e, z =>
    let sh := stageShift z
    stagesFrom inverse left (s + 1) (e + sh) ((List.range z.length).map (butterfly inverse s sh z))

/-- The transform loop of R163 and R166 over a frame of 2^l elements in natural order. -/
def transform (inverse : Bool) (l : Nat) (frame : List Cpx) : Nat × List Cpx :=
  stagesFrom inverse l 1 0 ((List.range (2 ^ l)).map (fun n => nthC frame (bitrev l n)))

/-- The spectrum of a frame of 2N samples (R163). -/
def forward (n : Nat) (frame : List Int) : Spectrum :=
  let (e, z) := transform false (lg (2 * n)) (frame.map (fun x => (x, 0)))
  Spectrum.mk e ((z.take (n + 1)).map (fun c => c.1)) ((z.take (n + 1)).map (fun c => c.2))

/-- One accumulation of R164. -/
def addBin (k : Nat) (acc : Cpx) (t : Spectrum × Partition) : Cpx :=
  let x := t.1
  let c := t.2
  let sh := 7 + x.e
  let xr := nth x.re k
  let xi := nth x.im k
  let cr := nth c.re k
  let ci := nth c.im k
  (sat72 (sat72 (acc.1 + sat72 (shl (xr * cr) sh)) - sat72 (shl (xi * ci) sh)),
   sat72 (sat72 (acc.2 + sat72 (shl (xr * ci) sh)) + sat72 (shl (xi * cr) sh)))

/-- The output spectrum (R164): the delay line newest first against the partitions in ascending order. -/
def outputSpectrum (n : Nat) (line : List Spectrum) (set : FilterSet) : List Cpx :=
  (List.range (n + 1)).map (fun k => (line.zip set.parts).foldl (addBin k) (0, 0))

/-- Ey of R165. -/
def blockExponent (acc : List Cpx) : Nat :=
  let mx := acc.foldl (fun m c => max m (max (iabs c.1) (iabs c.2))) 0
  ((List.range 11).find? (fun e => decide (mx < 2 ^ (62 + e)))).getD 10

/-- Z[k] of R165. -/
def hermitian (n ey : Nat) (acc : List Cpx) (k : Nat) : Cpx :=
  let y := fun i =>
    let c := nthC acc i
    (sat32 (shr c.1 (31 + ey)), if i = 0 || i = n then 0 else sat32 (shr c.2 (31 + ey)))
  if k ≤ n then y k else
    let c := y (2 * n - k)
    (c.1, sat32 (-c.2))

/-- The corrected block (R165, R166). -/
def corrected (n : Nat) (line : List Spectrum) (set : FilterSet) : List Int :=
  let acc := outputSpectrum n line set
  let ey := blockExponent acc
  let (ei, z) := transform true (lg (2 * n)) ((List.range (2 * n)).map (hermitian n ey acc))
  let sc : Int := (ey + ei : Nat) - (lg (2 * n) : Nat)
  (List.range n).map (fun j =>
    let v := (nthC z (n + j)).1
    if 0 ≤ sc then sat32 (shl v sc.toNat) else shr v (-sc).toNat)

end Sys2Proof.Machine
end

