-- ==== Sys2Proof/Machine/OutBus.lean ====
section
/-! DEFINITION. The chain of a feed on the output bus (R149 to R155, R163 to R167, R171, R175, R176): gain, biquads, alignment,
correction path, limiter and meters, block by block. -/
namespace Sys2Proof.Machine

/-! Steps 1 to 3 -/

/-- The signed gain of a feed (R151). -/
def signedGain (d : SMap Nat) (f : Nat) : Int :=
  let g := toSigned 32 (ent d 0x10000000 (0x3400 + f) 0x10)
  if ent d 0 (0x3400 + f) 0x11 = 0 then g else sat32 (-g)

/-- Step 1 (R151). -/
def gainStep (n : Nat) (g0 g1 : Int) (x : List Int) : List Int :=
  mapBlock (fun j v => sat32 (shr (v * (g0 + shr ((g1 - g0) * j) (lg n))) 28)) 0 x

/-- The five coefficients of a section in Q3.29 (R153). -/
def sectionCoefs (b : List Byte) : List Int := if b.isEmpty then [2 ^ 29, 0, 0, 0, 0] else beWords b

/-- One sample through a section (R152). -/
def biquadSample (k : List Int) (q : Biquad) (x : Int) : Int × Biquad :=
  let a := sat72 (shl (nth k 0 * x) 2)
  let a := sat72 (a + shl (nth k 1 * q.x1) 2)
  let a := sat72 (a + shl (nth k 2 * q.x2) 2)
  let a := sat72 (a - shl (nth k 3 * q.y1) 2)
  let a := sat72 (a - shl (nth k 4 * q.y2) 2)
  let y := sat32 (shr a 31)
  (y, ⟨x, q.x1, y, q.y1⟩)

/-- A block through a section. -/
def biquadBlock (k : List Int) : Biquad → List Int → List Int × Biquad
  | q, [] => ([], q)
  | q, x :: r =>
    let (y, q1) := biquadSample k q x
    let (l, q2) := biquadBlock k q1 r
    (y :: l, q2)

/-- Step 2 (R152): section 0 first. -/
def biquadStep (coefs : Nat → List Byte) (bq : SMap Biquad) (x : List Int) : List Int × SMap Biquad :=
  (List.range 16).foldl (fun a b =>
    let (y, q) := biquadBlock (sectionCoefs (coefs b)) (mget Biquad.init a.2 b) a.1
    (y, mset Biquad.init a.2 b q)) (x, bq)

/-- Step 3 (R154, R155): `line` holds the outputs of step 2 newest first, this block among them. -/
def alignStep (n a0 a1 : Nat) (line : List Int) : List Int :=
  (List.range n).map (fun j =>
    let tap := fun a => nth line (n - 1 - j + a)
    if a0 = a1 then tap a1
    else sat32 (shr (tap a0 * ((n : Int) - 1 - j)) (lg n) + shr (tap a1 * ((j : Int) + 1)) (lg n)))

/-! Step 4: the correction path -/

/-- A bank. -/
def feedBank (c : Corr) (b : Nat) : Bank := if b = 0 then c.bank0 else c.bank1

/-- The set that comes in under a switch or a trim (R171). -/
def incomingSet (c : Corr) : FilterSet :=
  match c.running with
  | some (.switch b, _) => (feedBank c b).set
  | some (.trim _, _) => (match c.selected with
    | some b => (feedBank c b).set
    | none => FilterSet.init)
  | _ => FilterSet.init

/-- The path in force (R167). -/
def pathOf (n u : Nat) (on : Bool) (line : List Spectrum) (set : FilterSet) (x3 : List Int) : List Int :=
  if on && decide (0 < u) then corrected n line set else x3

/-- The crossfade of R171 in block S + i of F. -/
def crossMix (n f i : Nat) (old new : List Int) : List Int :=
  (List.range n).map (fun j =>
    let q : Int := (i * n + j + 1 : Nat)
    let k := lg (f * n)
    sat32 (shr (nth old j * ((f * n : Nat) - q)) k + shr (nth new j * q) k))

/-- Step 4 (R167, R171) for block `t`. -/
def correctStep (n u t : Nat) (c : Corr) (x3 : List Int) : List Int :=
  let now := pathOf n u c.enabled c.fdl c.cur x3
  match c.running with
  | some (req, .crossfading start len) =>
    if start ≤ t && decide (t < start + len) then
      let new := match req with
        | .enable on => pathOf n u on c.fdl c.cur x3
        | _ => pathOf n u c.enabled c.fdl (incomingSet c) x3
      crossMix n len (t - start) now new
    else now
  | _ => now

/-! Step 5: the limiter -/

/-- The largest |x| of a block. -/
def blockPeak (x : List Int) : Int := x.foldl (fun m v => max m (iabs v)) 0

/-- The gain at the end of the block (R175). -/
def limiterGain (thr rel gPrev pk : Int) : Int :=
  let req := if pk ≤ thr then 2 ^ 31 else fdiv (thr * 2 ^ 31) pk
  if req < gPrev then req else min req (gPrev + rel)

/-- Step 5 (R175): the block, the gain and the samples clamped. -/
def limitStep (n : Nat) (thr rel gPrev : Int) (x : List Int) : List Int × Int × Nat :=
  let gEnd := limiterGain thr rel gPrev (blockPeak x)
  let v := mapBlock (fun j y => shr (y * (gPrev + shr ((gEnd - gPrev) * ((j : Int) + 1)) (lg n))) 31) 0 x
  (v.map (fun y => min (max y (-thr)) thr), gEnd,
    (v.filter (fun y => decide (min (max y (-thr)) thr ≠ y))).length)

/-! The whole chain -/

/-- The allocation U_f in force (R156). -/
def allocation (d : SMap Nat) (f : Nat) : Nat := ent d 0 (0x4000 + f) 0x01

/-- The delay line with the frame of this block (R157, R158, R163); none while U_f is 0. -/
def lineStep (n u : Nat) (fdl : List Spectrum) (prev x3 : List Int) : List Spectrum :=
  if u = 0 then [] else (forward n (fullBlock n prev ++ fullBlock n x3) :: fdl).take (u / n)

/-- Feed `f` through steps 1 to 5 in block `t`, with the dictionary values in force for it: its output block, its state, and the
samples clamped. -/
def feedChain (d : SMap Nat) (dom : SMap (List Byte)) (n t f : Nat) (st : FeedSt) (x : List Int) :
    List Int × FeedSt × Nat :=
  let x0 := if ent d 0 (0x3400 + f) 0x01 ≠ 0 then fullBlock n x else silence n
  let g1 := signedGain d f
  let x1 := gainStep n (st.gPrev.getD g1) g1 x0
  let (x2, bq) := biquadStep (fun b => entBytes dom (0x3400 + f) (0x20 + b)) st.bq x1
  let a1 := ent d 0 (0x3400 + f) 0x12
  let line := x2.reverse ++ st.align
  let x3 := alignStep n st.alignA a1 line
  let u := allocation d f
  let corr := { st.corr with fdl := lineStep n u st.corr.fdl st.x3prev x3 }
  let y4 := correctStep n u t corr x3
  let thr : Int := ent d 0x7FFFFFFF (0x3400 + f) 0x13
  let (y, g, k) := limitStep n thr (ent d 715827 (0x3400 + f) 0x14 : Nat) st.limG y4
  (y, { st with
    gPrev := some g1, bq := bq, align := line.take 2048, alignA := a1, x3prev := x3, corr := corr, limG := g }, k)

/-- The feeds whose chain runs: those enabled and those with state (R150). -/
def chainFeeds (s : State) : List Nat :=
  (enabledIn (s.dictAt 2) 0x3400 512 0x01).foldl (fun l f => setAdd f l) (s.pipe.feeds.map (fun e => e.1))

/-- The meters of a feed (R176). -/
def meterFeed (s : State) (f : Nat) (y : List Int) (g : Int) (clamped : Nat) : State :=
  let pk := (blockPeak y).toNat
  let i := 0x3400 + f
  (((s.stset 0 i 0x30 pk).stset 0 i 0x31 (max pk (s.stget 0 i 0x31))).stset 0x80000000 i 0x32 g.toNat).bump i 0x33 clamped

/-- A feed as its chain finds it: where no block has gone through it yet, the signed gain and the alignment of the block before are
those in force for that block, and in the first block of a render its own (R55, R151, R155). -/
def openFeed (s : State) (f : Nat) : FeedSt :=
  let st := s.feed f
  match st.gPrev with
  | some _ => st
  | none =>
    let d := if ent (s.dictAt 3) 0 0x1100 0x03 ≠ 0 then s.dictAt 3 else s.dictAt 2
    { st with gPrev := some (signedGain d f), alignA := ent d 0 (0x3400 + f) 0x12 }

/-! Spectra in the Ledger and in DRAM (R52, R157, R171, R272) -/

/-- The complex word of a partition that holds bin k (R157): at 48 kHz bins 0 and 16 share word 0. -/
def binWord (n k : Nat) : Nat := if n = 32 then k else k % 16

/-- The bytes of a partition: 33 words at 96 kHz, 16 at 48 kHz. -/
def partBytes (n : Nat) : Nat := if n = 32 then 264 else 128

/-- A partition as it lies in memory (R157), each word with its real half first: DESIGN CHOICE (assumption 9). -/
def packBins (n : Nat) (re im : List Int) : List Byte :=
  (List.range (partBytes n / 8)).flatMap (fun w =>
    leBytes 4 (toPat 32 (nth re w)) ++ leBytes 4 (toPat 32 (if n ≠ 32 ∧ w = 0 then nth re 16 else nth im w)))

/-- The unit of 264 bytes that partition p lies in, and its offset there: two partitions to a unit at 48 kHz. -/
def unitAt (n p : Nat) : Nat × Nat := if n = 32 then (p, 0) else (p / 2, p % 2 * 128)

/-- Partition p of feed f's current set in the Ledger; the regions of R52 lie in its order: DESIGN CHOICE (assumption 9). -/
def coefAddr (n f p : Nat) : Nat := 0x01000000 + (Config.coefUnit f (unitAt n p).1).toNat * 264 + (unitAt n p).2

/-- Partition p of feed f's delay line in the Ledger. -/
def fdlAddr (n f p : Nat) : Nat := coefAddr n f p + 0x01080000

/-- The alignment line of feed f in the working buffers (R154): 8,192 bytes. -/
def alignAddr (f : Nat) : Nat := 0x03100000 + (Config.alignUnit f).toNat * 8192

/-- The exponent of the spectrum at place p of feed f's delay line, in the working buffers (R157). -/
def exponentAddr (f p : Nat) : Nat := 0x03100000 + (Config.exponentAt f p).toNat

/-- The place in its alignment line of the sample i before block t, 0 the newest. -/
def alignPlace (n t i : Nat) : Nat := (t * n + 2047 - i % 2048) % 2048

/-- Partition p of a bank in its DRAM slot. -/
def slotAddr (n f b p : Nat) : Nat := bankSlot f b + (unitAt n p).1 * 264 + (unitAt n p).2

/-- Partition p of a set. -/
def partOf (set : FilterSet) (p : Nat) : Partition := set.parts.getD p (Partition.mk [] [])

/-- A partition written to the Ledger. -/
def writePart (s : State) (a n : Nat) (re im : List Int) : State :=
  ledgerWrite s a (packBins n re im) (List.replicate (partBytes n) true)

/-- A set written over the Ledger copy (R171). -/
def storeCopy (s : State) (n f : Nat) (set : FilterSet) : State :=
  (List.range set.parts.length).foldl (fun s p => writePart s (coefAddr n f p) n (partOf set p).re (partOf set p).im) s

/-- The bytes of a set in a DRAM slot. -/
def setBytes (n : Nat) (set : FilterSet) : List Byte :=
  (List.range set.parts.length).flatMap (fun p => packBins n (partOf set p).re (partOf set p).im ++
    (if n = 32 ∨ p % 2 = 0 then [] else List.replicate 8 0#8))

/-- A set in whole blocks of 64 bytes, the rest of its last block zero: DESIGN CHOICE (assumption 9). -/
def setBlocks (n : Nat) (set : FilterSet) : List Byte :=
  setBytes n set ++ List.replicate ((64 - (setBytes n set).length % 64) % 64) 0#8

/-- A bank's set written into its DRAM slot (R169). -/
def storeBank (s : State) (n f b : Nat) (set : FilterSet) : State :=
  if set.parts.isEmpty then s else dramBurst s (bankSlot f b) (setBlocks n set) (List.replicate (setBlocks n set).length true)

/-- Bins read from a partition at `a`: zero where their word is lost (R272, R281). -/
def readBins (n a : Nat) (lost : Nat → Bool) (l : List Int) : List Int :=
  mapBlock (fun k v => if lost (a + binWord n k * 8) then 0 else v) 0 l

/-- A set read from memory, partition p at `place p`. -/
def readSet (n : Nat) (place : Nat → Nat) (lost : Nat → Bool) (set : FilterSet) : FilterSet :=
  { set with parts := (List.range set.parts.length).map (fun p =>
      Partition.mk (readBins n (place p) lost (partOf set p).re) (readBins n (place p) lost (partOf set p).im)) }

/-- The place in the delay line of the i-th newest spectrum before block t, of P places used in turn. -/
def fdlSlot (t i p : Nat) : Nat := (t + p - 1 - i) % p

/-- The delay line read from the Ledger before block t. -/
def readLine (n f t p : Nat) (lost : Nat → Bool) : Nat → List Spectrum → List Spectrum
  | _, [] => []
  | i, x :: r =>
    let a := fdlAddr n f (fdlSlot t i p)
    { e := if lost (exponentAddr f (fdlSlot t i p)) then 0 else x.e,
      re := readBins n a lost x.re, im := readBins n a lost x.im } :: readLine n f t p lost (i + 1) r

/-- The bank that a crossfade in block t reads from DRAM (R171). -/
def fadeBank (c : Corr) (t : Nat) : Option Nat :=
  match c.running with
  | some (.switch b, .crossfading start len) => if start ≤ t ∧ t < start + len then some b else none
  | some (.trim _, .crossfading start len) => if start ≤ t ∧ t < start + len then c.selected else none
  | _ => none

/-- Whether block t of a feed reads its current set and its delay line. -/
def readsSet (c : Corr) : Bool :=
  c.enabled || (match c.running with
    | some (.enable _, .crossfading _ _) => true
    | _ => false)

/-- The correction of a feed as block t reads it from the memories. -/
def asRead (s : State) (n f t u : Nat) (c : Corr) : Corr :=
  let ofDram := fun b => readSet n (slotAddr n f b) (fun a => blockLost s (a / 64 * 64)) (feedBank c b).set
  let c1 := match fadeBank c t with
    | some 0 => { c with bank0 := { c.bank0 with set := ofDram 0 } }
    | some _ => { c with bank1 := { c.bank1 with set := ofDram 1 } }
    | none => c
  if s.ledger.errs.isEmpty then c1
  else { c1 with cur := readSet n (coefAddr n f) (ledgerLost s) c.cur, fdl := readLine n f t (u / n) (ledgerLost s) 0 c.fdl }

/-- The alignment line as block t reads it (R154): zero where a word is lost (R272). -/
def alignRead (s : State) (n f t : Nat) (line : List Int) : List Int :=
  if s.ledger.errs.isEmpty then line
  else mapBlock (fun i v => if ledgerLost s (alignAddr f + 4 * alignPlace n t i) then 0 else v) 0 line

/-- The words of the alignment line that block t reads for a delay. -/
def alignWords (n f t delay : Nat) : List Nat :=
  ((List.range n).filter (fun j => decide (j < delay))).foldl (fun l j =>
    setAdd ((alignAddr f + 4 * alignPlace n t (delay - 1 - j)) / 8 * 8) l) []

/-- The errors that a read of a Ledger range for block t finds (R270, R272, R469). -/
def noteRange (s : State) (t a len : Nat) : State :=
  let hit := s.ledger.errs.filter (fun e => decide (a ≤ e.1 ∧ e.1 < a + len))
  ledgerMark (hit.foldl (fun s e => ledgerNote s e.1) s) t (hit.any (fun e => decide (e.2 = some uncorrectable)))

/-- What reading the alignment line of a feed for block t finds; `st` has the delay of the block before. -/
def noteAlign (s : State) (n f t a1 : Nat) (st : FeedSt) : State :=
  if s.ledger.errs.isEmpty then s
  else
    let both := (alignWords n f t st.alignA).foldl (fun l w => setAdd w l) (alignWords n f t a1)
    both.foldl (fun s w => noteRange s t w 8) s

/-- What the reads of block t find in the memories. -/
def noteReads (s : State) (n f t u : Nat) (c : Corr) : State :=
  let s1 := if readsSet c then
      let s1 := (List.range c.cur.parts.length).foldl (fun s p => noteRange s t (coefAddr n f p) (partBytes n)) s
      (List.range c.fdl.length).foldl (fun s i =>
        let p := fdlSlot t i (u / n)
        noteRange (noteRange s t (fdlAddr n f p) (partBytes n)) t (exponentAddr f p / 8 * 8) 8) s1
    else s
  match fadeBank c t with
  | some b =>
    let bs := blocksOf (bankSlot f b) (setBytes n (feedBank c b).set).length
    let s2 := burstEnd (bs.foldl dramNote (wakeDram s1))
    if bs.any (fun b => s1.dram.poison.contains b) then s2.mark t 4 else s2
  | none => s1

/-- Partition p of the current set read again from the DRAM slot of the selected bank and rewritten (R272). -/
def reloadPart (s : State) (n f p : Nat) : State :=
  let fd := s.feed f
  match fd.corr.selected with
  | none => writePart s (coefAddr n f p) n (partOf fd.corr.cur p).re (partOf fd.corr.cur p).im
  | some b =>
    let a := slotAddr n f b p
    let s1 := burstEnd ((blocksOf a (partBytes n)).foldl dramNote (wakeDram s))
    let lost := fun w => blockLost s1 (w / 64 * 64)
    let q := partOf (feedBank fd.corr b).set p
    let v := Partition.mk (readBins n a lost q.re) (readBins n a lost q.im)
    let g := s1.feed f
    let cur := { g.corr.cur with parts := g.corr.cur.parts.set p v }
    writePart (s1.setFeed f { g with corr := { g.corr with cur := cur } }) (coefAddr n f p) n v.re v.im

/-- A feed's block written over the oldest samples of its alignment line (R154); zeros over zeros leave it as it is. -/
def storeAlign (s : State) (n f t : Nat) (old new : List Int) : State :=
  if s.ledger.errs.isEmpty && (old ++ new).all (fun v => decide (v = 0)) then s
  else ledgerWrite s (alignAddr f + 4 * (t * n % 2048)) ((new.take n).reverse.flatMap (fun v => leBytes 4 (toPat 32 v)))
    (List.replicate (4 * n) true)

/-- What a feed's block leaves in the Ledger: its newest spectrum (R158), and every partition whose read found a lost word, rewritten
from the DRAM slot of the selected bank (R272). -/
def storeLine (s : State) (n f t u : Nat) (c : Corr) (newest : Option Spectrum) : State :=
  let s1 := match newest with
    | some x =>
      let p := t % (u / n)
      ledgerWrite (writePart s (fdlAddr n f p) n x.re x.im) (exponentAddr f p) (leBytes 1 x.e) [true]
    | none => s
  if readsSet c && !s1.ledger.errs.isEmpty then
    (List.range c.cur.parts.length).foldl (fun s p =>
      if (List.range (partBytes n / 8)).any (fun w => ledgerLost s (coefAddr n f p + 8 * w)) then
        reloadPart s n f p
      else s) s1
  else s1

/-- One feed of block X − 2 in the stage: its filters read from the memories, its chain, and what it leaves. -/
def busFeed (s : State) (f : Nat) : State :=
  let n := perTick (s.dictAt 2)
  let t := s.clk.tick - 2
  let u := allocation (s.dictAt 2) f
  let c := (s.feed f).corr
  let s0 := noteAlign (noteReads s n f t u c) n f t (ent (s.dictAt 2) 0 (0x3400 + f) 0x12) (openFeed s f)
  let st0 := openFeed s0 f
  let (y, st, k) := feedChain (s.dictAt 2) (s.domAt 2) n t f
    { st0 with corr := asRead s n f t u c, align := alignRead s n f t st0.align } (mget [] s.pipe.fed f)
  let s1 := storeLine (storeAlign (s0.setFeed f { st with corr := { st0.corr with fdl := st.corr.fdl } }) n f t st0.align st.align)
    n f t u c st.corr.fdl.head?
  let s2 := meterFeed s1 f y st.limG k
  { s2 with pipe := { s2.pipe with outNow := mset [] s2.pipe.outNow f y } }

/-- The enabled feed with the largest block peak, the lower number on a tie (R176). -/
def loudest (s : State) : Option (Nat × Nat) :=
  (enabledIn (s.dictAt 2) 0x3400 512 0x01).foldl (fun best f =>
    let pk := s.stget 0 (0x3400 + f) 0x30
    match best with
    | some (g, p) => if p < pk then some (f, pk) else some (g, p)
    | none => some (f, pk)) none

/-- The output bus and correction stage of block X − 2 (R33, R150). -/
def outputBus (s : State) : State :=
  let s0 : State := { s with pipe := { s.pipe with outNow := [] } }
  let s1 := (chainFeeds s0).foldl busFeed s0
  match loudest s1 with
  | some (f, pk) => (s1.stset 0xFFFF 0x3803 0x04 f).stset 0 0x3803 0x05 pk
  | none => (s1.stset 0xFFFF 0x3803 0x04 0xFFFF).stset 0 0x3803 0x05 0

/-! Writes (R153, R189) -/

/-- Refusals of biquad coefficients (R153, R437). -/
def biquadCheck (b : List Byte) : Nat :=
  if b.length ≠ 20 then Abort.length
  else
    let k := beWords b
    need (decide (iabs (nth k 4) < 2 ^ 29) && decide (iabs (nth k 3) < 2 ^ 29 + nth k 4)) Abort.content

/-- CLEAR_METERS: 1 clears 3400+f:31 and :33 at the next boundary. -/
def execClearMeters (feed value : Nat) (s : State) : Host.Outcome State Fault Refusal :=
  done (s.attempt (0x3400 + feed) (firstCode [indexOk feed 512, boolOk value]) (fun t =>
    if value = 1 then { t with todo := { t.todo with meters := setAdd feed t.todo.meters } } else t))

end Sys2Proof.Machine
end

