-- ==== Sys2Proof/Machine/Egress.lean ====
section
/-! DEFINITION. Egress (R33, R47, R563, R564): the stream packets of transmit slots (R322 to R329, R339 to R344), the blocks handed to the
AES3 transmitters (R365 to R368) and to the drive engines (R386), and the digests of both (R467). -/
namespace Sys2Proof.Machine

/-! Sources (R340) -/

/-- Where a block stands in the render (R564): before or after it, its first block, inside it, its last block. -/
inductive EgPhase where
  | idle
  | first
  | inside
  | last
  deriving DecidableEq, Repr

/-- The phase of the block that egress processes in the running tick. -/
def egPhase (s : State) : EgPhase :=
  match renders (s.dictAt 3), renders (s.dictAt 4) with
  | true, false => .first
  | true, true => .inside
  | false, true => .last
  | false, false => .idle

/-- The block X − 3 of the source that a code names (R340); silence where the code names none. -/
def sourceBlock (s : State) (code : Nat) : List Int :=
  let n := perTick (s.dictAt 3)
  let b :=
    if code < 0x200 then mget [] (s.pipe.pubs.headD []) code
    else if 0x400 ≤ code ∧ code < 0x480 then mget [] (s.pipe.userBlk.headD []) (code - 0x400)
    else if 0x800 ≤ code ∧ code < 0x820 then mget [] (s.pipe.inputs.getD 2 []) (0x1000 + (code - 0x800))
    else if 0xC00 ≤ code ∧ code < 0xC08 then mget [] (s.pipe.inputs.getD 2 []) (0x2000 + (code - 0xC00))
    else []
  fullBlock n b

/-- A code as a source: 0xFFFF is none. -/
def sourceOf (code : Nat) : Option Nat := if code = 0xFFFF then none else some code

/-- A channel of an output in this block: the change of R344 between the sources of the block before and of this one, no ramp
in the first block, the falling ramp in the last (R564). -/
def outChannel (s : State) (old new : Option Nat) (c : FadeCh) (missed : Bool) : List Int × FadeCh :=
  let n := perTick (s.dictAt 3)
  let blk := fun (code : Nat) => if missed then none else some (sourceBlock s code)
  match egPhase s with
  | .idle => (silence n, FadeCh.rising)
  | .first => changeStep n new new ⟨.ok, []⟩ blk
  | .inside => changeStep n old new c blk
  | .last => changeStep n old none c blk

/-! Transmit slots (R339 to R344) -/

/-- A transmit slot. -/
def txOf (s : State) (i : Nat) : TxSlot := mget TxSlot.init s.tx i

/-- The type of a transmit slot: 0 where it is disabled. -/
def txType (d : SMap Nat) (i : Nat) : Nat :=
  let t := ent d 0 (0x2300 + i) 0x02
  if ent d 0 (0x2300 + i) 0x01 ≠ 0 ∧ t ≤ 3 then t else 0

/-- The slot mask. -/
def txMask (d : SMap Nat) (i : Nat) : Nat := ent d 0 (0x2300 + i) 0x06

/-- The source of a stream channel of a slot (R340); the mask alone adds the channel to the packets or removes it (R344). -/
def txSource (d : SMap Nat) (dom : SMap (List Byte)) (i c : Nat) : Option Nat :=
  let m := entBytes dom (0x2300 + i) 0x07
  if txType d i ≠ 0 ∧ ¬ m.isEmpty then sourceOf (beAt m (2 * c) 2) else none

/-- The type and the mask of the packet that carries this block (R339, R344): a slot disabled at it still sends it. -/
def txShape (s : State) (i : Nat) : Nat × Nat :=
  if txType (s.dictAt 3) i ≠ 0 then (txType (s.dictAt 3) i, txMask (s.dictAt 3) i)
  else if egPhase s = .inside ∨ egPhase s = .last then (txType (s.dictAt 4) i, txMask (s.dictAt 4) i)
  else (0, 0)

/-- The sixty-four channels of a slot in this block with their fades (R344); an egress miss acts on the slot, not on them (R563). -/
def txChannels (s : State) (i : Nat) : SMap (List Int) × SMap FadeCh :=
  (List.range 64).foldl (fun (a : SMap (List Int) × SMap FadeCh) c =>
    let old := txSource (s.dictAt 4) (s.domAt 4) i c
    let new := txSource (s.dictAt 3) (s.domAt 3) i c
    if old.isNone && new.isNone then (a.1, mset FadeCh.rising a.2 c FadeCh.rising)
    else
      let (y, f) := outChannel s old new (mget FadeCh.rising a.2 c) false
      (mset [] a.1 c y, mset FadeCh.rising a.2 c f)) ([], (txOf s i).fades)

/-- A block of a slot that recovers from an egress miss (R563): two blocks of silence, then the rising ramp. -/
def recoverBlock (n : Nat) (f : Fade) (x : List Int) : List Int :=
  match f with
  | .ok => x
  | .silent 0 => silence n
  | .silent 1 => silence n
  | .silent _ => riseRamp n x

/-- Samples in sample-major order, `w` bytes each: the upper bits of Q1.31 (R323, R327). -/
def sampleBytes (n w : Nat) (chans : List (List Int)) : List Byte :=
  (List.range n).flatMap (fun j => chans.flatMap (fun x => beBytes w (toPat 32 (nth x j) / 2 ^ (32 - 8 * w))))

/-- The UDP payload of a Block Stream packet (R322, R323, R339, R341); `gate` is the role bit. -/
def blockPacket (s : State) (i mask : Nat) (gate : Bool) (samples : List Byte) : List Byte :=
  let p := s.clk.tick + 1
  let pres := toPat 64 ((tickStart p : Int) + s.clk.epochFor p)
  beBytes 2 0x5442 ++ [1#8, 1#8] ++ beBytes 4 (ent (s.dictAt 3) 0 (0x2300 + i) 0x05) ++ beBytes 8 pres ++ beBytes 4 (p % 2 ^ 32) ++
    [BitVec.ofNat 8 (b2n gate + 2 * s.sup.twinId), BitVec.ofNat 8 (popcount 64 mask)] ++ beBytes 2 (perTick (s.dictAt 3)) ++
    beBytes 8 mask ++ samples

/-- The UDP payload of an AES67 packet (R325, R327, R339). -/
def rtpPacket (s : State) (i : Nat) (samples : List Byte) : List Byte :=
  let p := s.clk.tick + 1
  let d := s.dictAt 3
  let stamp : Int := (perTick d * p : Nat) + fdiv (s.clk.epochFor p * (mediaRate d : Nat)) 1000000000 + (ent d 0 (0x2300 + i) 0x08 : Nat)
  [0x80#8, BitVec.ofNat 8 (ent d 98 (0x2300 + i) 0x09)] ++ beBytes 2 (p % 2 ^ 16) ++ beBytes 4 (toPat 32 stamp) ++
    beBytes 4 (ent d 0 (0x2300 + i) 0x05) ++ samples

/-- Whether the module's role sends stream packets (R444, R446). -/
def roleSends (s : State) : Bool :=
  match s.twin.role with
  | .solo | .active => true
  | .standby => s.twin.sync = 5
  | .off | .isolated => false

/-- The headers of a slot's packets (R342, R346, R347): AES67 packets come from the pair address, Block Streams from the module's own
ring address. -/
def streamHdr (s : State) (i t : Nat) : StreamHdr where
  srcIp   := s.val 0 0x2100 (if t = 3 then 0x0C else 0x0D)
  dstIp   := ent (s.dictAt 3) 0 (0x2300 + i) 0x03
  dstPort := ent (s.dictAt 3) 5004 (0x2300 + i) 0x04
  ttl     := s.val 64 0x2100 0x08
  dscp    := s.val 34 0x2100 0x0A
  vlan    := s.val 0xFFFF 0x2100 0x09

/-- A packet on each ring port that is open (R320, R321, R339), counted in its slot once for both. -/
def sendStream (s : State) (i : Nat) (f : Nat → OutFrame) : State :=
  if s.open 0 || s.open 1 then ((s.sendPort 0 (f 0)).sendPort 1 (f 1)).bump (0x2300 + i) 0x0A 1 else s

/-- The packet of a slot for this block, and the slot's digest (R339, R342, R446, R467). -/
def txPacket (s : State) (i t mask : Nat) (y : SMap (List Int)) : State × Nat :=
  let n := perTick (s.dictAt 3)
  let chans := (bitsSet 64 mask).map (fun c => fullBlock n (mget [] y c))
  let b := s.clk.tick - 3
  let isIn := decide (s.byp.partic = .inRing)
  if t = 3 then
    let x := sampleBytes n 4 chans
    let s1 := if roleSends s && isIn then
        sendStream s i (fun p => .stream p i b (streamHdr s i t) (blockPacket s i mask (roleGate s) x))
      else s
    (s1, crc64 ((blockPacket s i mask false x).set 20 0#8))
  else
    let p := rtpPacket s i (sampleBytes n (if t = 1 then 3 else 4) chans)
    let s1 :=
      if !isIn then s
      else if roleGate s then (if roleSends s then sendStream s i (fun q => .rtp q i b (streamHdr s i t) p) else s)
      else if s.twin.role = .standby then s.bump (0x2300 + i) 0x0B 1 else s
    (s1, crc64 p)

/-- One transmit slot (R339, R563). -/
def txSlot (missed : List Nat) (acc : State × SMap Nat) (i : Nat) : State × SMap Nat :=
  let (s, dig) := acc
  let (t, mask) := txShape s i
  let miss := missed.contains i
  let slot := txOf s i
  let n := perTick (s.dictAt 3)
  let (y, fades) := txChannels s i
  let before := if egPhase s = .first then .ok else slot.miss
  let z := y.map (fun e => (e.1, recoverBlock n before e.2))
  let s1 : State := { s with tx := mset TxSlot.init s.tx i ⟨fades, fadeNext before miss⟩ }
  if t = 0 || mask = 0 || miss || egPhase s = .idle then (s1, dig)
  else
    let (s2, d) := txPacket s1 i t mask z
    (s2, mset 0 dig i d)

/-! AES3 outputs (R365 to R368) -/

/-- The source of an output channel: channels 2k and 2k + 1 belong to output k. -/
def aesOutSource (d : SMap Nat) (dom : SMap (List Byte)) (c : Nat) : Option Nat :=
  let m := entBytes dom (0x2420 + c / 2) 0x02
  if ent d 0 (0x2420 + c / 2) 0x01 ≠ 0 ∧ ¬ m.isEmpty then sourceOf (beAt m (2 * (c % 2)) 2) else none

/-- Whether an output drives frames with this block: a disabled one drives a constant low level. -/
def aesOutOn (s : State) (k : Nat) : Bool :=
  !s.fenced 0x620 &&
  match egPhase s with
  | .idle => false
  | .first => decide (ent (s.dictAt 3) 0 (0x2420 + k) 0x01 ≠ 0)
  | .inside | .last => decide (ent (s.dictAt 3) 0 (0x2420 + k) 0x01 ≠ 0 ∨ ent (s.dictAt 4) 0 (0x2420 + k) 0x01 ≠ 0)

/-- One channel of an AES3 output for this block. -/
def aesOutChannel (missed : List Nat) (s : State) (c : Nat) : State :=
  let (y, f) := outChannel s (aesOutSource (s.dictAt 4) (s.domAt 4) c) (aesOutSource (s.dictAt 3) (s.domAt 3) c)
    (mget FadeCh.rising s.aesOut c) (missed.contains (c / 2))
  { s with aesOut := mset FadeCh.rising s.aesOut c f,
           pipe := { s.pipe with aesNext := if aesOutOn s (c / 2) then mset [] s.pipe.aesNext c y else s.pipe.aesNext } }

/-- The digest of an AES3 output (R467): its audio fields, before the gate of R367. -/
def aesDigest (n : Nat) (a b : List Int) : Nat := crc64 (sampleBytes n 3 [a, b])

/-- Block `t` of lanes of group `g` of a group buffer written (R349), word by word under byte strobes (R271): `lanes` gives the lanes
written and their blocks. -/
def groupWrite (s : State) (buffer n t g : Nat) (lanes : List (Nat × List Int)) : State :=
  let at_ := (Config.groupBase buffer).toNat + g * 8192 + t % 8 * (32 * n)
  let row := fun (j : Nat) => (List.range 8).flatMap (fun c =>
    match lanes.find? (fun e => decide (e.1 = c)) with
    | some e => leBytes 4 (toPat 32 (nth e.2 j))
    | none => List.replicate 4 0#8)
  let mask := (List.range 8).flatMap (fun c => List.replicate 4 (lanes.any (fun e => decide (e.1 = c))))
  ledgerWrite s at_ ((List.range n).flatMap row) ((List.range n).flatMap (fun _ => mask))

/-- One AES3 output for this block, with its digest. -/
def aesOutput (missed : List Nat) (acc : State × SMap Nat) (k : Nat) : State × SMap Nat :=
  let (s, dig) := acc
  let n := perTick (s.dictAt 3)
  let s1 := aesOutChannel missed (aesOutChannel missed s (2 * k)) (2 * k + 1)
  if aesOutOn s k then
    let a := mget [] s1.pipe.aesNext (2 * k)
    let b := mget [] s1.pipe.aesNext (2 * k + 1)
    let t := s.clk.tick - 3
    (groupWrite s1 1 n t (k / 4) [(2 * (k % 4), a), (2 * (k % 4) + 1, b)], mset 0 dig k (aesDigest n a b))
  else (s1, dig)

/-- Sample j of a channel of an AES3 output in the running tick, with the validity bit (R365, R367, R446); none while the output
is constant low. -/
def aesPresented (s : State) (c j : Nat) : Option (Nat × Bool) :=
  let x := mget [] s.pipe.aesAir c
  if x.isEmpty then none
  else if s.twin.role = .isolated || (ent (s.dictAt 4) 0 (0x2420 + c / 2) 0x04 ≠ 0 && !roleGate s) then some (0, true)
  else some (toPat 32 (nth x j) / 256, false)

/-- The channel-status block sent (R366): the stored bytes with the fields of the table; byte 23 is the CRCC. -/
def aesStatusSent (s : State) (k : Nat) : List Byte :=
  let b := slice (entBytes s.dom (0x2420 + k) 0x03) 0 24
  let rate48 := decide (mediaRate (s.dictAt 4) = 48000)
  let b0 := (b.getD 0 0#8).toNat / 4 % 16 * 4 + 1 + (if rate48 then 128 else 0)
  let b4 := (b.getD 4 0#8).toNat % 8 + (if rate48 then 0 else 16) + (b.getD 4 0#8).toNat / 128 * 128
  let b2 := (b.getD 2 0#8).toNat / 64 * 64 + 44
  let c := (((b.set 0 (BitVec.ofNat 8 b0)).set 2 (BitVec.ofNat 8 b2)).set 4 (BitVec.ofNat 8 b4)).take 23
  c ++ [BitVec.ofNat 8 (crccOf (c.flatMap (fun x => (List.range 8).map (fun i => bitOf x.toNat i))))]

/-- One subframe of an AES3 output (R365): no auxiliary or user bits, and its bit of the channel status. -/
def aesSubSent (x : Nat × Bool) (status : List Byte) (m : Nat) : AesSub :=
  AesSub.mk x.1 x.2 false (bitOf (status.getD (m % 192 / 8) 0#8).toNat (m % 8)) true

/-- Frame `j` of AES3 output `k` in the running tick, with the local time of its start (R94, R365): that of sample m, with the Z preamble
where m mod 192 = 0; none while the output is constant low. -/
def aesFrameSent (s : State) (k j : Nat) : Option (Nat × AesFrame) :=
  let m := s.n * s.clk.tick + j
  match aesPresented s (2 * k) j, aesPresented s (2 * k + 1) j with
  | some a, some b =>
    some (sampleTime (mediaRate s.dict) m,
      AesFrame.mk (aesSubSent a (aesStatusSent s k) m) (aesSubSent b (aesStatusSent s k) m) (decide (m % 192 = 0)))
  | _, _ => none

/-! Drive channels (R386) -/

/-- The reference block of a drive channel: its source through the change of R344, times its gain. -/
def driveBlock (missed : List Nat) (s : State) (n : Nat) : State :=
  let old := sourceOf (ent (s.dictAt 4) 0xFFFF (0x5000 + n) 0x02)
  let new := sourceOf (ent (s.dictAt 3) 0xFFFF (0x5000 + n) 0x02)
  let d := s.drive n
  if old.isNone && new.isNone then s.setDrive n { d with fade := FadeCh.rising, next := [] }
  else
    let (y, f) := outChannel s old new d.fade (missed.contains n)
    let g := toSigned 32 (ent (s.dictAt 3) 0x10000000 (0x5000 + n) 0x03)
    s.setDrive n { d with fade := f, next := y.map (fun v => sat32 (shr (v * g) 28)) }

/-! The stage -/

/-- Every transmit slot in ascending order, with the digests of their payloads (R339, R467). -/
def txSlots (s : State) (missed : List Nat) : State × SMap Nat := (List.range 64).foldl (txSlot missed) (s, [])

/-- Every AES3 output in ascending order, with the digests of their blocks (R365, R467). -/
def aesOutputs (s : State) (missed : List Nat) : State × SMap Nat := (List.range 16).foldl (aesOutput missed) (s, [])

/-- Every drive channel's block handed over (R33). -/
def driveBlocks (s : State) (missed : List Nat) : State := (List.range 16).foldl (driveBlock missed) s

/-- Egress of block X − 3 (R33, R47, R563), with the slots, AES3 outputs and drive channels that missed its deadline. -/
def egress (s : State) (slots aes drives : List Nat) : State :=
  if s.pipe.judgedEg then s
  else
    let s0 : State := { s with pipe := { s.pipe with judgedEg := true, aesNext := [] } }
    let a := txSlots s0 slots
    let b := aesOutputs a.1 aes
    let s3 := driveBlocks b.1 drives
    let scope := slots.length + aes.length + drives.length
    let s4 := deadlinePurge (stageMiss s3 5 scope) 5 3
    let ds := (Digests.mk (s.clk.tick - 3) a.2 b.2 :: s4.twin.digests).take 4
    { s4 with twin := { s4.twin with digests := ds, fedNow := s4.twin.fedNow || (decide (scope = 0) && s4.twin.role ≠ .off) } }

/-- Whether an output of the miss scope has a block to miss. -/
def egressScope (s : State) (slots aes drives : List Nat) : List Nat × List Nat × List Nat :=
  if egPhase s = .idle then ([], [], [])
  else
    ((List.range 64).filter (fun i => slots.contains i && decide ((txShape s i).1 ≠ 0) && decide ((txShape s i).2 ≠ 0)),
     (List.range 16).filter (fun k => aes.contains k && aesOutOn s k),
     (List.range 16).filter (fun n => drives.contains n &&
       ([3, 4].any (fun k => decide (ent (s.dictAt k) 0xFFFF (0x5000 + n) 0x02 ≠ 0xFFFF) ||
         decide (ent (s.dictAt k) 0 (0x5000 + n) 0x01 ≠ 0)))))

/-- EGRESS_DEADLINE: egress of the running tick with what missed its deadline; 2,000 ns before the boundary for drive channels and
AES3 outputs, 40,000 ns before it for streams (R40). -/
def execEgressDeadline (slots aes drives : List Nat) (s : State) : Host.Outcome State Fault Refusal :=
  done (
    if s.ticking then
      let (a, b, c) := egressScope s slots aes drives
      let before := if b.isEmpty && c.isEmpty then 40000 else 2000
      egress (s.elapse (tickLen s.clk.tick - before)) a b c
    else s)

/-! Writes (R343, R368) -/

/-- Refusals of a write to 2420+k:01 or :02. -/
def aesOutCheck (k sub : Nat) (v : Val) : Nat :=
  firstCode [indexOk k 16,
    match sub, v with
    | 0x01, .num x => boolOk x
    | 0x02, .bytes b =>
      if b.isEmpty then 0
      else firstCode [need (decide (b.length = 4)) Abort.length, need ((beHalves b).all txCodeOk) Abort.range]
    | 0x01, .bytes _ => Abort.length
    | 0x02, .num _ => Abort.length
    | _, _ => Abort.noSub]

/-- The effect of such a write at its block: kept in non-volatile storage only for entries that R377 keeps. -/
def aesOutApply (s : State) (k sub : Nat) (v : Val) : State :=
  match v with
  | .num x => s.put 0 (0x2420 + k) sub x
  | .bytes b => if b.isEmpty then s else s.putBytes (0x2420 + k) sub b

/-- AES3_OUTPUT_CHANGE: a write of 2420+k:01 or :02 in force from the block that ingress processes now. -/
def execAes3OutputChange (output sub : Nat) (value : Val) (s : State) : Host.Outcome State Fault Refusal :=
  done (s.attempt (0x2420 + output) (aesOutCheck output sub value) (fun t => aesOutApply t output sub value))

end Sys2Proof.Machine
end

