-- ==== Sys2Proof/Machine/DelayMatrix.lean ====
section
/-! DEFINITION. The delay matrix (R132 to R142) and the Slide engines that render it (R49, R50, R523): line reads, rendering of a
feed, the stage's deadline, retiring an engine. -/
namespace Sys2Proof.Machine

/-! Delay lines (R105, R138, R139) -/

/-- The address of sample m of an object in its short window. -/
def shortAddr (o : Nat) (m : Int) : Nat := o * 0x8000 + (m % 8192).toNat * 4

/-- The address of sample m of an object in its deep line. -/
def deepAddr (o : Nat) (m : Int) : Nat := dramBase + o * 0x100000 + (m % 262144).toNat * 4

/-- Whether the short window serves a crosspoint (R138). -/
def fromShort (x : Crosspoint) : Bool :=
  match x.kind with
  | .entering => decide (x.d0 < 132120576)
  | _ => decide (x.d0 < 132055040)

/-- The delay of sample j (R132). -/
def delayAt (x : Crosspoint) (sh j : Nat) : Int := x.d0 + shr ((x.d1 - x.d0) * j) sh

/-- The gain of sample j (R132). -/
def gainAt (x : Crosspoint) (sh j : Nat) : Int := x.g0 + shr ((x.g1 - x.g0) * j) sh

/-- The least of a list, from `x` on. -/
def leastOf (x : Int) (l : List Int) : Int := l.foldl (fun a b => if b < a then b else a) x

/-- The greatest of a list, from `x` on. -/
def greatestOf (x : Int) (l : List Int) : Int := l.foldl (fun a b => if a < b then b else a) x

/-- The span that a crosspoint reads (R139): its first sample and its length. -/
def spanOf (x : Crosspoint) (n block : Nat) : Int × Nat :=
  let at_ := (List.range n).map (fun j => ((n * block + j : Nat) : Int) - shr (delayAt x (lg n) j) 14)
  let lo := leastOf (at_.headD 0) at_ - 4
  (lo, (greatestOf (at_.headD 0) at_ + 3 - lo + 1).toNat)

/-- A sample as the line of a crosspoint delivers it. -/
def lineSample (s : State) (x : Crosspoint) (m : Int) : Int :=
  let b := if fromShort x then (List.range 4).map (fun i => ledgerByte s (shortAddr x.o m + i))
    else (List.range 4).map (fun i => dramByte s (deepAddr x.o m + i))
  toSigned 32 (leNat b)

/-- The words (short window) or blocks (deep line) that the span of a crosspoint touches. -/
def spanUnits (x : Crosspoint) (n block : Nat) : List Nat :=
  let (lo, len) := spanOf x n block
  (List.range len).foldl (fun l (i : Nat) =>
    setAdd (if fromShort x then shortAddr x.o (lo + i) / 8 * 8 else deepAddr x.o (lo + i) / 64 * 64) l) []

/-- The line read of a crosspoint's span: corrections and losses of the memory it is read from, with the mark of a loss
(R469). -/
def readSpan (s : State) (x : Crosspoint) : State :=
  let block := s.clk.tick - 1
  let units := spanUnits x s.n block
  if fromShort x then
    let s1 := units.foldl ledgerNote s
    if units.any (ledgerLost s) then s1.mark block 3 else s1
  else
    let s1 := burstEnd (units.foldl dramNote (wakeDram s))
    if units.any (blockLost s) then s1.mark block 4 else s1

/-- The span of a crosspoint as its line holds it now (R139, R140). -/
def spanNow (s : State) (x : Crosspoint) : Span :=
  let (lo, len) := spanOf x s.n (s.clk.tick - 1)
  ⟨x.o, x.f, lo, (List.range len).map (fun (i : Nat) => lineSample s x (lo + i))⟩

/-- Whether an engine's prefetch buffer holds the span of a crosspoint. -/
def Slide.holds (e : Slide) (q : Nat × Nat) : Bool := e.have_.any (fun p => decide (p.object = q.1 ∧ p.feed = q.2))

/-! Rendering (R132, R133) -/

/-- The interpolated sample of R132, from the span of its crosspoint. -/
def interpSample (p : Span) (sample : Nat) (d : Int) : Int :=
  let k := shr d 14
  let c := (shr d 6 % 256).toNat
  sat32 (shr ((List.range 8).foldl (fun (a : Int) (i : Nat) =>
    a + nth p.data ((sample : Int) - k + 3 - i - p.lo).toNat * interpC c i) 0) 31)

/-- Sample j of a feed's block (R132): the crosspoints, each with its span, in ascending object number. -/
def feedSample (xs : List (Crosspoint × Span)) (n block j : Nat) : Int :=
  sat32 (shr (xs.foldl (fun acc x =>
    sat72 (acc + shl (interpSample x.2 (n * block + j) (delayAt x.1 (lg n) j) * gainAt x.1 (lg n) j) 3)) 0) 31)

/-- The crosspoints of a feed, each with its span among those taken (R140). -/
def withSpans (spans : List Span) (xs : List Crosspoint) : List (Crosspoint × Span) :=
  xs.map (fun x => (x, (spans.find? (fun p => decide (p.object = x.o ∧ p.feed = x.f))).getD (Span.mk x.o x.f 0 [])))

/-- The block of a feed from the spans of its crosspoints (R132, R133). -/
def renderBlock (s : State) (spans : List Span) (xs : List Crosspoint) : List Int :=
  (List.range s.n).map (feedSample (withSpans spans xs) s.n (s.clk.tick - 1))

/-- The crosspoints of a feed in the block being rendered. -/
def feedXs (s : State) (f : Nat) : List Crosspoint := s.pipe.xcur.filter (fun x => decide (x.f = f))

/-- The engine whose next crosspoint belongs to feed f. -/
def engineAt (s : State) (f : Nat) : Option Nat :=
  (List.range 18).find? (fun i =>
    decide ((slideOf s i).st ≠ .fenced) &&
    (match (slideOf s i).order.drop (slideOf s i).done with
      | (_, g) :: _ => decide (g = f)
      | [] => false))

/-- The crosspoints of feed f that its engine has still to render, where f is the feed in work. -/
def toRender (e : Slide) (f : Nat) : List (Nat × Nat) := (e.order.drop e.done).takeWhile (fun q => decide (q.2 = f))

/-- The engine renders crosspoints in order (R140): as it starts one it has issued the read of the one 32 places on, takes its span
from the buffer, and stalls where that has not arrived. -/
def renderOn (e : Slide) : List (Nat × Nat) → Slide
  | [] => { e with stall := none }
  | q :: r =>
    let e1 := { e with issued := max e.issued (min e.order.length (e.done + 33)) }
    match e1.have_.find? (fun p => decide (p.object = q.1 ∧ p.feed = q.2)) with
    | some p => renderOn { e1 with done := e.done + 1, have_ := e.have_.filter (fun p => !decide (p.object = q.1 ∧ p.feed = q.2)),
                                   used := e.used ++ [p] } r
    | none => { e1 with stall := some q.2 }

/-- The deadline of the delay matrix and of the output bus, in ns of the running tick (R40). -/
def stageDeadline (s : State) : Nat := tickLen s.clk.tick - 8000

/-- A feed rendered by its engine, up to its end or to a stall (R140). -/
def renderFeed (s : State) (f : Nat) : State :=
  match engineAt s f with
  | none => s
  | some i =>
    let e := renderOn (slideOf s i) (toRender (slideOf s i) f)
    if e.stall.isSome then setSlide s i e
    else
      let s1 := setSlide s i { e with used := [] }
      { s1 with pipe := { s1.pipe with rendered := mset [] s1.pipe.rendered f (renderBlock s e.used (feedXs s f)) } }

/-- A span arrives: its engine holds it, and a stall on it ends (R140). The render itself goes on with the next FEED_RENDER of that
feed: DESIGN CHOICE (assumption 98). -/
def spanDelivered (s : State) (engine object feed : Nat) : State :=
  let e := slideOf s engine
  match s.pipe.xcur.find? (fun x => decide (x.o = object) && decide (x.f = feed)) with
  | none => s
  | some x =>
    if ((e.order.take e.issued).drop e.done).contains (object, feed) && !e.holds (object, feed) then
      readSpan (setSlide s engine { e with
        have_ := e.have_ ++ [spanNow s x],
        stall := if (e.order.drop e.done).head? = some (object, feed) then none else e.stall }) x
    else s

/-- The delay-matrix deadline (R40, R42, R252): every feed with a crosspoint that is not rendered is in the miss scope; the crosspoints of
the others are those of the last block rendered (R147, R148). -/
def dmDeadline (s : State) : State :=
  if s.pipe.rendering && !s.pipe.judgedDm then
    let scope := ((feedCounts s.pipe.xcur).map (fun e => e.1)).filter (fun f =>
      !(s.pipe.rendered.any (fun e => decide (e.1 = f))) )
    let s0 := placementPurge s
    let s1 : State := { s0 with pipe := { s0.pipe with judgedDm := true, missDm := scope } }
    deadlinePurge (countCrosspoints (stageMiss s1 3 scope.length) (s.pipe.xcur.filter (fun x => !scope.contains x.f)) scope) 3 1
  else s

/-- Whether the delay matrix still takes work in this tick. -/
def dmOpen (s : State) : Bool :=
  s.pipe.rendering && s.pipe.published && !s.pipe.judgedDm && decide (s.clk.ofs ≤ stageDeadline s)

/-! Retiring an engine (R50, R523) -/

/-- Engines in service or spare. -/
def usableSlides (s : State) : List Nat :=
  (List.range 18).filter (fun i => decide ((slideOf s i).st = .inService) || decide ((slideOf s i).st = .spare))

/-- The slide-capacity condition (R50): fewer than 16 engines usable. -/
def judgeSlides (s : State) : State :=
  s.condition 6 (if (s.evSrc 6).active.isEmpty then (usableSlides s).length else (s.evSrc 6).active.headD 0) 0
    (decide ((usableSlides s).length < 16))

/-- An engine leaves service for `st`; the lowest spare takes its place from the next block (R50, R523). -/
def leaveService (s : State) (i : Nat) (st : SlideState) : State :=
  let was := (slideOf s i).st
  let s1 := setSlide s i { slideOf s i with st := st }
  let s2 :=
    if was = .inService then
      match (List.range 18).find? (fun j => decide ((slideOf s1 j).st = .spare)) with
      | some j => setSlide s1 j { slideOf s1 j with st := .inService }
      | none => s1
    else s1
  judgeSlides s2

/-- Refusals of a write to 7020+i:02. -/
def retireSlideCheck (s : State) (i v : Nat) : Nat :=
  firstCode [indexOk i 18, boolOk v,
    need (v = 0 || decide (15 ≤ (setDel i (usableSlides s)).length)) Abort.capacity]

/-- The effect of a write to 7020+i:02 (R523): a retired engine stays so across resets until 0 is written, and returns as a spare
at the next reset. -/
def retireSlideApply (s : State) (i v : Nat) : State :=
  let s1 := s.putNv 0 (0x7020 + i) 0x02 v
  if v = 1 then
    let s2 : State := { s1 with nv := { s1.nv with slides := setAdd i s1.nv.slides } }
    if (slideOf s2 i).st = .fenced || (slideOf s2 i).st = .retired then s2 else leaveService s2 i .retired
  else { s1 with nv := { s1.nv with slides := setDel i s1.nv.slides } }

/-- Whether `k` engines finish L crosspoints of N samples in the delay-matrix window of R40: ceil(L / k) + 512 crosspoints on the
worst engine (R131), each 9 taps of 4 lanes per 8 samples (36 cycles at N = 32). -/
def slidesFinish (k l n : Nat) : Bool :=
  decide (0 < k) && decide (((l + k - 1) / k + 512) * (36 * n / 32) ≤ 205333)

/-! The commands -/

/-- SPAN_DELIVERED. -/
def execSpanDelivered (at_ engine object feed : Nat) (s : State) : Host.Outcome State Fault Refusal :=
  done (
    let s1 := s.elapse at_
    if s1.pipe.rendering && s1.pipe.published && decide (engine < 18) then spanDelivered s1 engine object feed else s1)

/-- FEED_RENDER. -/
def execFeedRender (at_ feed : Nat) (s : State) : Host.Outcome State Fault Refusal :=
  done (
    let s1 := s.elapse at_
    if dmOpen s1 then renderFeed s1 feed else s1)

/-- DELAY_MATRIX_DEADLINE. -/
def execDelayMatrixDeadline (s : State) : Host.Outcome State Fault Refusal :=
  done (dmDeadline (s.elapse (stageDeadline s)))

/-- RETIRE_SLIDE. -/
def execRetireSlide (engine value : Nat) (s : State) : Host.Outcome State Fault Refusal :=
  done (s.attempt (0x7020 + engine) (retireSlideCheck s engine value) (fun t => retireSlideApply t engine value))

end Sys2Proof.Machine
end

