-- ==== Sys2Proof/Machine/Health.lean ====
section
/-! DEFINITION. The health summary (R497) and the FAULT bit of the heartbeat (R455). -/
namespace Sys2Proof.Machine

/-- Whether a time state is one of those that bit [6] reports. -/
def timePoor (t : TimeState) : Bool :=
  match t with
  | .free | .acquiring | .holdover => true
  | .locked | .rebaseConfirm | .grandmaster => false

/-- The bits of 8000:01 (R497), lowest first. -/
def healthBits (s : State) : List Bool :=
  [!s.sup.fences.isEmpty, allRods.any (fun r => (s.rod r).health),
   decide (((List.range 18).filter (fun i => decide ((slideOf s i).st = .spare))).length < 2),
   decide (s.stget 0 0x7400 0x05 ≠ 0), (readySpare s).isNone, s.dram.mig.isSome, timePoor s.time.state,
   decide (s.sup.startKind ≠ 0), decide (1 ≤ s.sup.targState ∧ s.sup.targState ≤ 3), s.sup.pairA != s.sup.pairB, s.power.warning,
   s.power.lowVin, false, false, false, false, !computeOk s, decide ((usableSlides s).length < 15), s.sup.lockErr,
   s.power.critical, s.dram.hoDram]

/-- 8000:01. -/
def healthWord (s : State) : Nat := (healthBits s).foldr (fun b n => 2 * n + b2n b) 0

/-- FAULT (R455, R497): any of bits [20:16]. -/
def faultBit (s : State) : Bool := decide (healthWord s / 2 ^ 16 ≠ 0)

/-- A change of 8000:01 against what it last reported (source 166). -/
def judgeHealth (s : State) : State :=
  let h := healthWord s
  if h = s.sup.health then s
  else ({ s with sup := { s.sup with health := h } } : State).raise 166 h (Nat.xor h s.sup.health)

end Sys2Proof.Machine
end

