-- ==== Sys2Proof/Machine/Twin.lean ====
section
/-! DEFINITION. Twin operation (R444 to R474): roles, the interlock, heartbeats, takeover, handover, isolation, digests and marks. The join
of R465 is in Join. -/
namespace Sys2Proof.Machine

/-! Roles (R444, R447) -/

/-- The code of a role (6000:01). -/
def Role.code : Role → Nat
  | .off => 0
  | .solo => 1
  | .active => 2
  | .standby => 3
  | .isolated => 4

/-- Whether a role holds ACT_OUT (R449). -/
def Role.drives : Role → Bool
  | .solo | .active => true
  | .off | .standby | .isolated => false

/-- ACT_OUT falls: at once, with the gate (R449, R451). -/
def dropActOut (s : State) : State :=
  gateShown { s with twin := { s.twin with actOut := false } }

/-- A role entered: ACT_OUT falls with a role that does not hold it, the sync state is 0 outside Standby, and
a Standby leaves Grandmaster at once (R65). -/
def setRole (s : State) (r : Role) : State :=
  let s0 := if r = .standby && s.time.state = .grandmaster then s.enterHoldover else s
  let s1 : State := { s0 with twin := { s0.twin with role := r, sync := if r = .standby then s0.twin.sync else 0 } }
  if Role.drives r then s1 else dropActOut s1

/-- A join that begins anew: sync state 1. -/
def joinFresh (s : State) : State :=
  { s with
    pipe := { s.pipe with drained := [] },
    twin := { s.twin with
      sync := 1, joinTick := s.clk.tick, joinFails := 0, imageB := 0, cutB := 0, verified := 0, joinLog := [] } }

/-- Whether heartbeats show the module's own TWIN_ID (R447). -/
def idConflict (s : State) : Bool :=
  match s.twin.frame with
  | some f => f.twin = s.sup.twinId && decide (s.clk.tick ≤ s.twin.frameTick + 1)
  | none => false

/-- Standby in sync state 1; a module that hears its own TWIN_ID enters no pair role and is Isolated (R447). -/
def enterStandby (s : State) : State := if idConflict s then setRole s .isolated else joinFresh (setRole s .standby)

/-- A join in progress that starts again (R465): the failure after three restarts ends in Isolated. DEDUCED (assumption 136). -/
def joinRestart (s : State) : State :=
  if s.twin.sync = 5 then joinFresh s
  else if 3 ≤ s.twin.joinFails then
    let s1 := (setRole s .isolated).raise 155 0 0
    { s1 with twin := { s1.twin with joinFails := 0 } }
  else
    { s with
      pipe := { s.pipe with drained := [] },
      twin := { s.twin with
        sync := 1, joinFails := s.twin.joinFails + 1, imageB := 0, cutB := 0, verified := 0, joinLog := [] } }

/-- Automatic rejoin (6000:07). -/
def mayRejoin (s : State) : Bool := s.val 1 0x6000 0x07 ≠ 0

/-! The interlock (R449 to R453) -/

/-- The dead-man of ACT_OUT (R449): fed in at least one of the last two ticks, or in the running one. -/
def actFed (s : State) : Bool := s.twin.fedNow || s.twin.fed1 || s.twin.fed2

/-- ACT_OUT rises where ACT_IN has been low for 200 ns and the line is not broken (R449, R453). -/
def claimActOut (s : State) (actInLowNs : Nat) : State :=
  if Role.drives s.twin.role && !s.twin.actOut && decide (200 ≤ actInLowNs) && !s.twin.broken then
    { s with twin := { s.twin with actOut := true, actIn := false, actRise := (s.clk.tick, s.clk.ofs) } }
  else s

/-- The dead-man at a boundary (R449): starved in both of the last two ticks, ACT_OUT falls. -/
def actDeadman (s : State) : State := if s.twin.fed1 || s.twin.fed2 then s else dropActOut s

/-- ACT_IN high: where the module's own ACT_OUT is high too, a collision (R450), which raises its event once from where ACT_IN rose. -/
def collide (s : State) : State :=
  let s1 := gateChange s true
  if !s1.twin.actOut then s1
  else if s1.sup.twinId = 1 then enterStandby s1
  else if s.twin.actIn then s1
  else ({ s1 with twin := { s1.twin with collision := true } } : State).raise 146 0 0

/-- The level found on ACT_IN (R450, R451). -/
def actInSeen (s : State) (actIn : Bool) : State := if actIn then collide s else gateChange s false

/-- An interlock fault (R448, R450, R453). -/
def interlockFault (s : State) : State := (s.bump 0x6000 0x1B 1).raise 147 0 0

/-! Role choice (R448) -/

/-- Whether the partner's last frame, of the running boundary or the one before, reports Active or Solo. -/
def partnerDrives (s : State) : Bool :=
  match s.twin.frame with
  | some f => decide (s.clk.tick ≤ s.twin.frameTick + 1) && decide (f.role = 1 ∨ f.role = 2)
  | none => false

/-- The role that a module takes at t_A of a render enable. -/
def chooseRole (s : State) (actIn : Bool) : State :=
  let s1 := gateChange s actIn
  if s1.val 1 0x6000 0x06 = 0 then
    if actIn then (setRole s1 .isolated).raise 147 0 0 else setRole s1 .solo
  else if actIn || partnerDrives s1 then
    if mayRejoin s1 then enterStandby s1 else setRole s1 .isolated
  else setRole s1 .solo

/-! Heartbeat frames (R455, R456) -/

/-- The earliest open mark (R455): the least block, the first of its marks. -/
def earliestMark (l : List (Nat × Nat)) : Nat × Nat :=
  l.foldl (fun b m => if m.1 < b.1 then m else b) (2 ^ 64 - 1, 0)

/-- The digests of a block; zeros where none were formed. -/
def digestsOf (s : State) (block : Int) : Digests :=
  (s.twin.digests.find? (fun d => decide ((d.block : Int) = block))).getD (Digests.mk 0 [] [])

/-- FIT (R455): Standby, Synced, FAULT clear. -/
def fitBit (s : State) : Bool := s.twin.role = .standby && s.twin.sync = 5 && !faultBit s

/-- FLAGS (R455). -/
def hbFlags (s : State) : Nat :=
  b2n s.twin.actOut + 2 * b2n s.twin.actIn + 4 * b2n s.twin.fed1 + 8 * b2n (faultBit s) + 16 * b2n s.twin.release + 32 * b2n (fitBit s)

/-- The heartbeat frame of the running boundary (R455). -/
def heartbeatFrame (s : State) : HbFrame :=
  let d := digestsOf s ((s.clk.tick : Int) - 4)
  let m := earliestMark s.twin.marks
  { tick := s.clk.tick, role := Role.code s.twin.role, sync := s.twin.sync, twin := s.sup.twinId, flags := hbFlags s,
    health := healthWord s, markBlock := m.1, markCause := m.2, tstate := TimeState.code s.time.state,
    marks := min s.twin.marks.length 65535, digTx := (List.range 64).map (fun i => mget 0 d.tx i),
    digAes := (List.range 16).map (fun k => mget 0 d.aes k), fcsOk := true,
    ethertype := 0x88B5, magic := 0x5457, version := 1, kind := 1 }

/-- The payload of a heartbeat frame, big-endian (R455). -/
def hbPayload (f : HbFrame) : List Byte :=
  beBytes 2 f.magic ++ beBytes 1 f.version ++ beBytes 1 f.kind ++ beBytes 8 f.tick ++ beBytes 1 f.role ++ beBytes 1 f.sync ++
    beBytes 1 f.twin ++ beBytes 1 f.flags ++ beBytes 4 f.health ++ beBytes 8 f.markBlock ++ beBytes 1 f.markCause ++
    beBytes 1 f.tstate ++ beBytes 2 f.marks ++ f.digTx.flatMap (beBytes 8) ++ f.digAes.flatMap (beBytes 8)

/-- Whether a frame is a heartbeat whose frame check sequence is right (R455). -/
def hbValid (f : HbFrame) : Bool :=
  f.fcsOk && decide (f.ethertype = 0x88B5 ∧ f.magic = 0x5457 ∧ f.version = 1 ∧ f.kind = 1)

/-- Whether a frame is a heartbeat of boundary `x`. -/
def isHeartbeat (x : Nat) : OutFrame → Bool
  | .heartbeat f _ => f.tick = x
  | _ => false

/-- What ranks below a heartbeat on the twin link: write forwards and join data (R455). -/
def ranksBelow : OutFrame → Bool
  | .forward _ | .verdict _ _ | .joinImage _ | .joinCut _ => true
  | _ => false

/-- The one heartbeat frame of the running boundary, sent on the twin link or replaced by what holds now (R455, R462), ahead of the
write forwards and join data; it counts once (R346), and none is sent without link. -/
def sendHeartbeat (s : State) : State :=
  if !s.open 3 then s
  else
    let new := !s.out.any (isHeartbeat s.clk.tick)
    let others := s.out.filter (fun f => !isHeartbeat s.clk.tick f)
    let f := heartbeatFrame s
    ({ s with out := others.filter (fun f => !ranksBelow f) ++ [OutFrame.heartbeat f (hbPayload f)] ++ others.filter ranksBelow }).bump
      0x2113 0x05 (b2n new)

/-- Whether a frame reports a role in service (R445). -/
def frameServes (f : HbFrame) : Bool := decide (f.role = 1 ∨ f.role = 2 ∨ (f.role = 3 ∧ 1 ≤ f.sync ∧ f.sync ≤ 5))

/-- The partner enters service (R445): Solo becomes Active. -/
def partnerEnters (s : State) : State :=
  let s1 : State := { s with twin := { s.twin with inService := true } }
  if s1.twin.role = .solo && !idConflict s1 then setRole s1 .active else s1

/-- The partner leaves service (R445). -/
def partnerLeaves (s : State) : State := { s with twin := { s.twin with inService := false } }

/-- At a boundary an Active whose partner has left service is Solo (R445). -/
def soloAgain (s : State) : State :=
  if s.twin.role = Role.active && !s.twin.inService then setRole s .solo else s

/-- A frame with the module's own TWIN_ID (R447): Active and Solo stay Solo, any other role becomes Isolated. -/
def judgeIds (s : State) (f : HbFrame) : State :=
  if f.twin ≠ s.sup.twinId then s
  else
    let s1 := s.raise 151 s.sup.twinId 0
    match s1.twin.role with
    | .active => setRole s1 .solo
    | .standby | .off => setRole s1 .isolated
    | .solo | .isolated => s1

/-- Whether a frame shows the interlock line broken (R453). -/
def lineBroken (s : State) (f : HbFrame) : Bool := bitOf f.flags 0 && !s.twin.actIn

/-- The interlock line judged by a frame (R453). -/
def judgeLine (s : State) (f : HbFrame) : State :=
  let b := lineBroken s f
  let s1 : State := { s with twin := { s.twin with broken := b } }
  if b && !s.twin.broken then interlockFault s1 else s1

/-- Both modules Solo once heartbeats return (R473): the junior becomes Isolated, and rejoins by 6000:07. -/
def judgeSplitRoles (s : State) (f : HbFrame) : State :=
  if s.sup.twinId = 1 && Role.drives s.twin.role && decide (f.role = 1) && decide (f.twin = 0) then
    if mayRejoin s then enterStandby s else setRole s .isolated
  else s

/-- The marks close when the partner completes a join (R469). -/
def judgePartnerJoin (s : State) (f : HbFrame) : State :=
  match s.twin.frame with
  | some old => if old.role = 3 && old.sync = 4 && f.role = 3 && f.sync = 5 then { s with twin := { s.twin with marks := [] } } else s
  | none => s

/-- A Standby in Holdover that follows the Active no longer holds the mean of the frequency term again (R66, R84). -/
def holdMean (s : State) : State :=
  { s with time := { s.time with target := s.time.meanFreq, freq := s.time.meanFreq, phase := 0 } }

/-- The Active's time state as a frame brings it (R66): a Standby in Holdover that it led until now holds its own mean. -/
def judgeTimeState (s before : State) : State :=
  if followsTwin before && !followsTwin s && decide (s.time.state = .holdover) then holdMean s else s

/-- A heartbeat frame (R445, R447, R453, R455, R456, R473): it counts for the running boundary within its window, or for the next
one; any other frame is discarded. -/
def heartbeatFrameIn (s : State) (f : HbFrame) : State :=
  let x := s.clk.tick
  let s := if f.fcsOk then s.heard 3 else s.bump 0x2113 0x06 1
  if hbValid f && ((f.tick = x && decide (s.clk.ofs ≤ 2000)) || f.tick = x + 1) then
    let s0 := judgePartnerJoin s f
    let s1 : State := { s0 with twin := { s0.twin with frame := some f, frameTick := f.tick } }
    let s2 := judgeIds (judgeTimeState s1 s) f
    let s3 := judgeLine s2 f
    let s4 := if frameServes f then partnerEnters s3 else s3
    if f.role = 1 then judgeSplitRoles s4 f else s4
  else s

/-- 6002 (R456) and 6001 (R469), and the status entries of 6000, as of a boundary. -/
def twinStatus (s : State) : State :=
  let m := earliestMark s.twin.marks
  let s1 := ((s.stset 0 0x6001 0x01 (min s.twin.marks.length 65535)).stset (2 ^ 64 - 1) 0x6001 0x02 m.1).stset 0 0x6001 0x03 m.2
  let s2 := ((s1.stset 0 0x6000 0x01 (Role.code s.twin.role)).stset 0 0x6000 0x02 (b2n s.twin.inService)).stset 0 0x6000 0x03 s.twin.sync
  match s.twin.frame with
  | some f =>
    ((((((s2.stset 0 0x6002 0x01 f.health).stset 0 0x6002 0x02 f.role).stset 0 0x6002 0x03 f.sync).stset 0 0x6002 0x04 f.flags).stset 0
      0x6002 0x05 f.tick).stset (2 ^ 64 - 1) 0x6002 0x06 f.markBlock).stset 0 0x6002 0x07 f.tstate
  | none => s2

/-- An edge on HB_IN (R454): for the boundary in whose window it falls. -/
def heartbeatEdge (s : State) : State :=
  if s.clk.ofs ≤ 2000 then { s with twin := { s.twin with hbEdge := true } }
  else if tickLen s.clk.tick ≤ s.clk.ofs + 1000 then { s with twin := { s.twin with hbNext := true } }
  else s

/-- HB_OUT toggles after a tick in which the tick service ran (R454), and the frame is sent; one that carries RELEASE stands (R462). -/
def heartbeatSend (s : State) (service : Bool) : State :=
  let s1 : State := { s with twin := { s.twin with hbOut := s.twin.hbOut != service } }
  if s1.twin.release then s1 else sendHeartbeat s1

/-! Handover and isolation (R462 to R464, R471) -/

/-- Whether the partner is FIT by its last frame. -/
def partnerFit (s : State) : Bool :=
  match s.twin.frame with
  | some f => bitOf f.flags 5 && decide (s.clk.tick ≤ s.twin.frameTick + 1)
  | none => false

/-- A handover (R462): ACT_OUT drops, the frame of this boundary is sent with RELEASE, and the module takes role `r` in a sync state. -/
def handOver (s : State) (r : Role) (sync : Nat) : State :=
  let s1 := dropActOut s
  let s2 := setRole (sendHeartbeat { s1 with twin := { s1.twin with release := true, handTick := none } }) r
  { s2 with twin := { s2.twin with sync := sync } }

/-- Refusals of a write to 6000:05 (R462). -/
def handoverCheck (s : State) (v : Nat) : Nat :=
  firstCode [boolOk v, need (v = 0 || (s.twin.role = Role.active && partnerFit s)) Abort.conflict]

/-- The effect of a write to 6000:05. -/
def handoverApply (s : State) (v : Nat) : State := if v = 1 then handOver s .standby 5 else s

/-- Refusals of a write to 6000:04 (R463). -/
def isolateCheck (s : State) (v : Nat) : Nat :=
  firstCode [boolOk v,
    need (v = 0 || !(s.twin.role = Role.solo || (s.twin.role = Role.active && !partnerFit s))) Abort.conflict]

/-- The effect of a write to 6000:04 (R463). -/
def isolateApply (s0 : State) (v : Nat) : State :=
  let s := s0.put 0 0x6000 0x04 v
  if v = 1 then
    match s.twin.role with
    | .active => handOver s .isolated 0
    | .standby => sendHeartbeat (setRole s .isolated)
    | .solo | .isolated | .off => s
  else if s.twin.role = .isolated then enterStandby s else s

/-- An Active with FAULT set hands over at a boundary once its partner is FIT (R464): it stays Standby, not Synced. -/
def faultHandover (s : State) : State :=
  if s.twin.role = Role.active && faultBit s && partnerFit s then handOver s .standby 0 else s

/-- A Standby that left by its fault rejoins once FAULT is clear (R464). -/
def faultRejoin (s : State) : State :=
  if s.twin.role = Role.standby && s.twin.sync = 0 && !faultBit s && mayRejoin s then joinFresh s else s

/-- The handover of R471, at the first boundary at which the partner is FIT again. -/
def activeFaultHandover (s : State) : State :=
  match s.twin.handTick with
  | some x =>
    if s.twin.role = Role.active && partnerFit s && decide (x < s.twin.frameTick) then
      (handOver s .standby 5).raise 153 s.twin.ownFaults.length 0
    else s
  | none => s

/-! Digests (R466 to R471) -/

/-- Whether a channel map names a channel of user slot `u`. -/
def mapCarries (m : List Byte) (u : Nat) : Bool := (beHalves m).any (fun c => decide (0x400 + 8 * u ≤ c ∧ c < 0x408 + 8 * u))

/-- Whether an output's digest of block T is left out of comparison, for a user slot that restarted at the cut (R466). -/
def digestExcluded (s : State) (index sub : Nat) (t : Nat) : Bool :=
  decide (s.twin.cutB ≠ 0) && decide (s.twin.cutB ≤ t) && (List.range 16).any (fun u =>
    decide (t ≤ s.twin.cutB + s.val 64 (0x6010 + u) 0x01) && mapCarries (entBytes (s.domAt 4) index sub) u)

/-- The first output with unequal digests: slot s, or 64 + k (R468). -/
def firstUnequal (s : State) (f : HbFrame) (t : Nat) : Option Nat :=
  let d := digestsOf s t
  match (List.range 64).find? (fun i => decide (mget 0 d.tx i ≠ f.digTx.getD i 0) && !digestExcluded s (0x2300 + i) 0x07 t) with
  | some i => some i
  | none =>
    ((List.range 16).find? (fun k => decide (mget 0 d.aes k ≠ f.digAes.getD k 0) && !digestExcluded s (0x2420 + k) 0x02 t)).map (64 + ·)

/-- Whether a role and sync state take part in comparison (R468). -/
def compares (role sync : Nat) : Bool := decide (role = 1 ∨ role = 2 ∨ (role = 3 ∧ (sync = 4 ∨ sync = 5)))

/-- A mismatch of block T attributed (R470, R471). -/
def attributeFault (s : State) (f : HbFrame) (t : Nat) : State :=
  let mine := s.twin.marks.any (fun m => decide (m.1 ≤ t))
  let theirs := decide (0 < f.marks) && decide (f.markBlock ≤ t)
  if mine = theirs then s.bump 0x6000 0x18 1
  else if mine then
    let s1 := s.bump 0x6000 0x16 1
    if Role.drives s1.twin.role then
      let l := s1.clk.tick :: s1.twin.ownFaults.filter (fun k => decide (s1.clk.tick < k + 10800000))
      { s1 with twin := { s1.twin with
          ownFaults := l, handTick := if s1.val 3 0x6000 0x08 ≤ l.length then some s1.clk.tick else s1.twin.handTick } }
    else s1
  else s.bump 0x6000 0x17 1

/-- The digests of block X − 4 against the partner's frame for X (R468, R470); while a join verifies, from block C + 1,024 (R465). -/
def compareDigests (s : State) (f : HbFrame) : State :=
  let t := s.clk.tick - 4
  let verifying := (s.twin.role = .standby && s.twin.sync = 4) || decide (f.role = 3 ∧ f.sync = 4)
  if !(compares (Role.code s.twin.role) s.twin.sync && compares f.role f.sync) || s.clk.tick < 4 ||
      (verifying && decide (t < s.twin.cutB + 1024)) then s
  else
    match firstUnequal s f t with
    | none =>
      if s.twin.role = .standby && s.twin.sync = 4 then { s with twin := { s.twin with verified := s.twin.verified + 1 } } else s
    | some o =>
      let s1 := (((s.bump 0x6000 0x15 1).stset 0 0x6000 0x19 t).stset 0xFF 0x6000 0x1A o).raise 152 o (t % 2 ^ 32)
      let s2 := attributeFault s1 f t
      if s2.twin.role = .standby then joinRestart s2 else s2

/-! Evaluation at t_X + 2,000 ns (R445, R457 to R459, R468, R472) -/

/-- The takeover cause that holds, 0 for none (R457). -/
def takeoverCause (hbLost tlLost : Bool) (f : Option HbFrame) : Nat :=
  if hbLost && tlLost then 1
  else
    match f with
    | some g => if hbLost && bitOf g.flags 3 then 2 else if bitOf g.flags 4 && !bitOf g.flags 0 then 3 else 0
    | none => 0

/-- A takeover (R457, R459). -/
def takeOver (s : State) (cause actInLowNs : Nat) : State :=
  let sync := s.twin.sync
  let s1 := claimActOut (setRole s .solo) actInLowNs
  let s2 := (((s1.stset 0 0x6000 0x11 s1.clk.tick).stset 0 0x6000 0x12 cause).bump 0x6000 0x10 1).raise 144 cause 0
  let s3 : State := { s2 with twin := { s2.twin with soloRun := 0 } }
  if sync = 5 then s3 else s3.raise 145 sync 0

/-- The frame of the running boundary, if it arrived in time (R455). -/
def frameNow (s : State) : Option HbFrame := if s.twin.frameTick = s.clk.tick then s.twin.frame else none

/-- The twin link falls silent while the Standby takes its time over it: a lost master (R66, R84). The first accepted Sync of a
ring master is then judged by R85. -/
def twinMasterLost (s : State) : State :=
  match s.time.state with
  | .acquiring | .locked | .rebaseConfirm =>
    let s1 := s.enterHoldover
    { s1 with time := { s1.time with await := s1.time.master.isSome } }
  | .holdover => holdMean s
  | .free | .grandmaster => s

/-- The silences of the running boundary, counted and reported (R454, R455, R472). -/
def judgeSilence (s : State) (hbSil tlSil hbLost tlLost : Bool) : State :=
  let s1 := if hbSil then s.bump 0x6000 0x13 1 else s
  let s2 := if tlSil then s1.bump 0x6000 0x14 1 else s1
  let s3 := ((if tlSil && followsTwin s then twinMasterLost s2 else s2).condition 149 0 0 hbLost).condition 150 0 0 tlLost
  { s3 with twin := { s3.twin with
      hbSeen := !hbSil, tlSeen := !tlSil, hbSil1 := hbSil, tlSil1 := tlSil, evalTick := s3.clk.tick } }

/-- Whether the partner is in service after boundary X: a frame in service for X or X − 1 (R445). -/
def judgeService (s : State) : State :=
  match s.twin.frame with
  | some f => if frameServes f && decide (s.clk.tick ≤ s.twin.frameTick + 1) then partnerEnters s else partnerLeaves s
  | none => partnerLeaves s

/-- Whether the pair is cut (`cause1`): the twin link went silent while the partner was in service, and has not been heard since. -/
def pairCut (s : State) (tlLost wasIn : Bool) : Bool := tlLost && (s.twin.cause1 || wasIn)

/-- Whether both modules report Solo in this tick as far as this one can tell (R472): both paths are lost while ACT_IN is low, or the
partner's frame says so. -/
def bothSolo (s : State) (lost cut : Bool) (f : Option HbFrame) : Bool :=
  s.twin.role = .solo && ((lost && cut && !s.twin.actIn) || f.any (fun g => decide (g.role = 1)))

/-- Split brain is suspected while both modules may have been Solo for 3,000 ticks (R472). -/
def judgeSplit (s : State) : State := s.condition 156 0 0 (decide (3000 ≤ s.twin.soloRun))

/-- The evaluation, once for each boundary. -/
def twinEvaluation (s : State) (actInLowNs : Nat) : State :=
  if s.twin.evalTick = s.clk.tick && decide (s.clk.tick ≠ 0) then s
  else
    let t := s.twin
    let f := frameNow s
    let before := decide (t.evalTick + 1 = s.clk.tick)
    let hbSil := !t.hbEdge
    let tlSil := f.isNone
    let hbLost := hbSil && before && t.hbSil1
    let tlLost := tlSil && before && t.tlSil1
    let s0 := actInSeen s (decide (actInLowNs = 0))
    let s1 := judgeService (judgeSilence s0 hbSil tlSil hbLost tlLost)
    let s3 := match f with
      | some g => compareDigests (judgeLine s1 g) g
      | none => { s1 with twin := { s1.twin with broken := false } }
    let cause := if s3.twin.role = .standby then takeoverCause hbLost tlLost f else 0
    let s4 := s3.condition 148 0 0 (decide (cause = 1 ∨ cause = 2) && s3.twin.actIn)
    let s5 :=
      if decide (cause ≠ 0) && decide (200 ≤ actInLowNs) && !s4.twin.broken then takeOver s4 cause actInLowNs
      else if tlLost && s4.twin.role = .standby && s4.twin.sync = 5 then joinFresh s4
      else s4
    let cut := pairCut s5 tlLost t.inService
    { s5 with twin := { s5.twin with soloRun := if bothSolo s5 (hbLost && tlLost) cut f then s5.twin.soloRun + 1 else 0, cause1 := cut } }

/-! A tick boundary -/

/-- The twin at a boundary, before the frame is sent: windows and dead-man move on, roles follow (R445, R449, R464, R471). -/
def twinTick (s : State) : State :=
  let t := s.twin
  let s1 : State := { s with twin := { t with
    fed2 := t.fed1, fed1 := t.fedNow, fedNow := false, hbEdge := t.hbNext, hbNext := false } }
  faultRejoin (activeFaultHandover (faultHandover (soloAgain (actDeadman (judgeSplit s1)))))

/-- TWIN_STAT (R450). -/
def twinStat (s : State) : Nat :=
  b2n s.twin.actOut + 2 * b2n s.twin.actIn + 4 * b2n (roleGate s) + 8 * b2n (actFed s) + 16 * b2n (decide (s.sup.twinId = 0)) +
    32 * b2n s.twin.hbSeen + 64 * b2n s.twin.tlSeen + 128 * b2n s.twin.collision

/-- COLLISION cleared. -/
def collisionClear (s : State) : State := { s with twin := { s.twin with collision := false } }

/-! The commands -/

/-- HEARTBEAT_FRAME_RECEIVED. -/
def execHeartbeatFrameReceived (at_ : Nat) (frame : HbFrame) (s : State) : Host.Outcome State Fault Refusal :=
  done (if s.ticking then heartbeatFrameIn (s.elapse at_) frame else s)

/-- HEARTBEAT_LINE_EDGE. -/
def execHeartbeatLineEdge (at_ : Nat) (s : State) : Host.Outcome State Fault Refusal :=
  done (if s.ticking then heartbeatEdge (s.elapse at_) else s)

/-- TWIN_EVALUATION: `actInLowNs` is how long ACT_IN has been low, 0 while it is high. -/
def execTwinEvaluation (actInLowNs : Nat) (s : State) : Host.Outcome State Fault Refusal :=
  done (if s.ticking then twinEvaluation (s.elapse 2000) actInLowNs else s)

/-- DRIVE_GATE_CHANGE: a level of ACT_IN (R380, R450). -/
def execDriveGateChange (at_ : Nat) (actIn : Bool) (s : State) : Host.Outcome State Fault Refusal :=
  done (actInSeen (s.elapse at_) actIn)

/-- SPLIT_BRAIN_SUSPECTED. -/
def execSplitBrainSuspected (s : State) : Host.Outcome State Fault Refusal := done (judgeSplit s)

/-- ACT_IN_COLLISION: ACT_IN rises. -/
def execActInCollision (at_ : Nat) (s : State) : Host.Outcome State Fault Refusal := done (collide (s.elapse at_))

/-- COLLISION_TIMEOUT: the senior, 10,000 ns after the collision began. -/
def execCollisionTimeout (actIn : Bool) (s : State) : Host.Outcome State Fault Refusal :=
  done (
    let s1 := gateChange s actIn
    if actIn && s1.twin.actOut && decide (s1.sup.twinId = 0) then interlockFault s1 else s1)

/-- ACT_OUT_DEADMAN_STARVED. -/
def execActOutDeadmanStarved (s : State) : Host.Outcome State Fault Refusal := done (actDeadman s)

/-- ACT_OUT_CLAIM: a Solo or Active module drives ACT_OUT. -/
def execActOutClaim (at_ actInLowNs : Nat) (s : State) : Host.Outcome State Fault Refusal :=
  done (claimActOut (s.elapse at_) actInLowNs)

/-- FAULT_HANDOVER. -/
def execFaultHandover (s : State) : Host.Outcome State Fault Refusal := done (faultHandover s)

/-- ACTIVE_FAULT_HANDOVER. -/
def execActiveFaultHandover (s : State) : Host.Outcome State Fault Refusal := done (activeFaultHandover s)

/-- HANDOVER: a write of 6000:05 at its apply block. -/
def execHandover (value : Nat) (s : State) : Host.Outcome State Fault Refusal :=
  done (s.attempt 0x6000 (handoverCheck s value) (fun t => handoverApply t value))

/-- ISOLATE: a write of 6000:04 at its apply block. -/
def execIsolate (value : Nat) (s : State) : Host.Outcome State Fault Refusal :=
  done (s.attempt 0x6000 (isolateCheck s value) (fun t => isolateApply t value))

/-- CLEAR_TWIN_STATISTICS: 1 clears 6000:10 and :13 to :1D at the next boundary. -/
def execClearTwinStatistics (value : Nat) (s : State) : Host.Outcome State Fault Refusal :=
  done (s.attempt 0x6000 (boolOk value) (fun t => { t with todo := { t.todo with twin := t.todo.twin || decide (value = 1) } }))

/-- COLLISION_CLEAR: 1 written to COLLISION. -/
def execCollisionClear (s : State) : Host.Outcome State Fault Refusal := done (collisionClear s)

end Sys2Proof.Machine
end

