-- ==== Sys2Proof/Machine/Beam.lean ====
section
/-! DEFINITION. The Beam (R253 to R261): the register map, single accesses, bursts with arbitration, locked sequences, master reset,
and the movers of the Rods (R218). -/
namespace Sys2Proof.Machine

/-! Registers (R15): reads -/

/-- ROD_CTRL to ROD_ECC (R199). -/
def rodCtrlRead (s : State) (r off : Nat) : Nat :=
  let q := s.rod r
  match off with
  | 0x00 => b2n (decide (q.st = .running ∨ q.st = .waiting)) + q.startPc * 2 ^ 16
  | 0x04 =>
    (match q.st with
      | .stopped => 0
      | .running => 1
      | .waiting => 2
      | .faulted => 3) +
    b2n (!q.xfers.isEmpty) * 2 ^ 2 + q.reps.length * 2 ^ 3 + b2n (isTransform r) * 2 ^ 5 + b2n q.slot.isSome * 2 ^ 6
  | 0x08 => q.code + b2n q.fault * 2 ^ 8 + q.faultPc * 2 ^ 9
  | 0x0C => q.pc
  | 0x10 => q.cyc.toNat
  | 0x14 => q.corr + b2n q.uncorr * 2 ^ 16
  | _ => 0

/-- A take list (R239). -/
def takeList (s : State) (k : Nat) : Nat := (mget 0#64 s.tally.lists k).toNat

/-- A register of the Tally range (R234 to R252). -/
def tallyRead (s : State) (a : Nat) : Nat :=
  if a < 0x20040000 then
    let q := s.queue ((a - 0x20000000) / 0x1000)
    if a % 0x1000 = 0x40 then q.cfg.toNat else if a % 0x1000 = 0x44 then qstatWord q else 0
  else if a < 0x20041000 then flowWord s ((a - 0x20040000) / 4)
  else if 0x20042000 ≤ a ∧ a < 0x20042400 then
    let w := takeList s ((a - 0x20042000) / 8)
    if a % 8 = 0 then w % 2 ^ 32 else w / 2 ^ 32
  else if a = 0x20043008 then s.tally.excl.toNat % 2 ^ 32
  else if a = 0x2004300C then s.tally.excl.toNat / 2 ^ 32
  else 0

/-- The word of BEAM_PRI_m_g (R257). -/
def priWord (s : State) (m g : Nat) : Nat :=
  (List.range 8).foldl (fun w i => w + beamPri s m (8 * g + i) * 2 ^ (4 * i)) 0

/-- A register of slow bus A: time unit, Beam, TWIN_STAT (R74, R75, R257 to R260, R450). -/
def busARead (s : State) (a : Nat) : Nat :=
  if a = 0x40000000 then s.clk.ns.toNat
  else if a = 0x40000004 then s.clk.carry.toNat
  else if a = 0x40000008 then b2n s.clk.wrapPend + b2n s.clk.carryLost * 2
  else if a = 0x4000000C then s.clk.snapNs.toNat
  else if a = 0x40000010 then s.clk.snapCarry.toNat
  else if a = 0x40000014 then s.clk.snapTickLo.toNat
  else if a = 0x40000018 then s.clk.snapTickHi.toNat
  else if a = 0x40001200 then s.beam.lockTo
  else if a = 0x40001204 then s.beam.errAddr % 2 ^ 32
  else if a = 0x40001208 then beamErrWord s.beam
  else if a = 0x40004000 then twinStat s
  else if 0x40001000 ≤ a ∧ a < 0x40001200 ∧ a % 16 < 12 then priWord s ((a - 0x40001000) / 16) (a % 16 / 4)
  else 0

/-- A register of slow bus B: BYP_CTRL and DRV_MUTE_n (R319, R397). -/
def busBRead (s : State) (a : Nat) : Nat :=
  if a = 0x50000000 then bypWord s
  else if 0x50002000 ≤ a ∧ a < 0x50002100 ∧ a % 16 = 0 then muteWord s ((a - 0x50002000) / 16)
  else 0

/-- A Beam-visible register; everything else in these regions is reserved and reads as zero (R15). -/
def regRead (s : State) (a : Nat) : Nat :=
  if 0x10000000 ≤ a ∧ a < 0x12000000 then
    if 0x70000 ≤ (a - 0x10000000) % 0x80000 then
      rodCtrlRead s ((a - 0x10000000) / 0x80000) ((a - 0x10000000) % 0x80000 - 0x70000)
    else 0
  else if 0x20000000 ≤ a ∧ a < 0x20044000 then tallyRead s a
  else if 0x40000000 ≤ a ∧ a < 0x50000000 then busARead s a
  else if 0x50000000 ≤ a ∧ a < 0x60000000 then busBRead s a
  else 0

/-! Registers: writes -/

/-- ROD_CTRL to ROD_ECC written (R199, R200, R222). -/
def rodCtrlWrite (s : State) (r off v : Nat) : State :=
  match off with
  | 0x00 =>
    if bitOf v 0 then runStart s r (bitsOf v 28 16)
    else
      let s1 := runStop s r
      s1.setRod r { s1.rod r with startPc := bitsOf v 28 16 }
  | 0x08 => if bitOf v 8 then faultClear s r else s
  | 0x14 => if bitOf v 16 then s.setRod r { s.rod r with uncorr := false } else s
  | _ => s

/-- Half of a 64-bit register replaced. -/
def halfWrite (old v : Nat) (high : Bool) : Nat :=
  if high then old % 2 ^ 32 + v % 2 ^ 32 * 2 ^ 32 else old / 2 ^ 32 * 2 ^ 32 + v % 2 ^ 32

/-- A register of the Tally range written; a user slot's queue is the module's (R236). -/
def tallyRegWrite (s : State) (a v : Nat) : State :=
  if a < 0x20040000 then
    let q := (a - 0x20000000) / 0x1000
    if a % 0x1000 = 0x40 ∧ q < 48 then qcfgSet s q v else s
  else if a < 0x20041000 then flowWrite s ((a - 0x20040000) / 4) v
  else if 0x20042000 ≤ a ∧ a < 0x20042400 then
    let k := (a - 0x20042000) / 8
    let w := BitVec.ofNat 64 (halfWrite (takeList s k) v (decide (a % 8 = 4)))
    { s with tally := { s.tally with lists := mset 0#64 s.tally.lists k w } }
  else if a = 0x20043008 ∨ a = 0x2004300C then
    exclWrite s (halfWrite s.tally.excl.toNat v (decide (a = 0x2004300C)))
  else s

/-- BEAM_PRI_m_g written. -/
def priWrite (s : State) (m g v : Nat) : State :=
  let pri := (List.range 8).foldl (fun p i =>
    let k := 24 * m + 8 * g + i
    mset (priReset k) p k (bitsOf v (4 * i + 3) (4 * i))) s.beam.pri
  { s with beam := { s.beam with pri := pri } }

/-- A register of slow bus A written. -/
def busAWrite (s : State) (a v : Nat) : State :=
  if a = 0x40000004 then { s with clk := { s.clk with carry := BitVec.ofNat 32 v, wrapPend := false } }
  else if a = 0x40000008 then
    (if bitOf v 1 then { s with clk := { s.clk with carryLost := false } } else s)
  else if a = 0x40001200 then { s with beam := { s.beam with lockTo := v % 128 } }
  else if a = 0x40001208 then
    (if bitOf v 16 then { s with beam := { s.beam with errVal := false } } else s)
  else if a = 0x40004000 then (if bitOf v 7 then collisionClear s else s)
  else if 0x40001000 ≤ a ∧ a < 0x40001200 ∧ a % 16 < 12 then priWrite s ((a - 0x40001000) / 16) (a % 16 / 4) v
  else s

/-- A register of slow bus B written. -/
def busBWrite (s : State) (a v : Nat) : State :=
  if a = 0x50000000 then
    let s1 := bypEnWrite s (bitOf v 0)
    if bitOf v 8 then bypFeed s1 else s1
  else if 0x50002000 ≤ a ∧ a < 0x50002100 ∧ a % 16 = 0 ∧ bitOf v 0 then faultRamp s ((a - 0x50002000) / 16)
  else s

/-- A 32-bit write of a Beam-visible register: read-only and reserved fields keep their values (R15). -/
def regWrite (s : State) (a v : Nat) : State :=
  if 0x10000000 ≤ a ∧ a < 0x12000000 then
    if 0x70000 ≤ (a - 0x10000000) % 0x80000 then
      rodCtrlWrite s ((a - 0x10000000) / 0x80000) ((a - 0x10000000) % 0x80000 - 0x70000) v
    else s
  else if 0x20000000 ≤ a ∧ a < 0x20044000 then tallyRegWrite s a v
  else if 0x40000000 ≤ a ∧ a < 0x50000000 then busAWrite s a v
  else if 0x50000000 ≤ a ∧ a < 0x60000000 then busBWrite s a v
  else s

/-! Targets and refusals (R253 to R258) -/

/-- The masters that may lock, and the targets that they may lock (R258). -/
def lockAllowed (m t : Nat) : Bool := [26, 30, 31].contains m && decide (t < 12)

/-- Whether master `m` holds a lock of a target other than `t`. -/
def locksOther (s : State) (m t : Nat) : Bool := s.beam.locks.any (fun e => decide (e.1 ≠ t) && decide (e.2.1 = m))

/-- The cause for which a request gets an error response at once (R254, R257, R258); 0 none. -/
def requestError (s : State) (q : BeamReq) : Nat :=
  match targetOf q.addr with
  | none => 1
  | some t =>
    if pairPri s q.master t = 0 then 2
    else if q.locked && (!lockAllowed q.master t || locksOther s q.master t) then 3
    else 0

/-- A request refused with an error response: a read returns zero (R260). -/
def refuse (s : State) (q : BeamReq) (cause : Nat) : State :=
  let s1 := beamError s q.master q.addr cause
  if q.write then s1 else s1.send (.beamData q.master q.addr (List.replicate q.len 0#8))

/-- How a burst ends at its target: done, an error response, its acknowledgement withheld by the Tally (R248), or not yet taken. -/
inductive BurstEnd where
  | done
  | error
  | held
  | waits
  deriving DecidableEq, Repr

/-! Serving a burst -/

/-- The 64-byte beats of a burst. -/
def beatsOf (q : BeamReq) : Nat := (q.addr % 64 + q.len + 63) / 64

/-- Whether a Rod memory may be reached from outside (R28, R198, R499). -/
def rodOpen (s : State) (r : Nat) : Bool :=
  decide ((s.rod r).st = .stopped ∨ (s.rod r).st = .faulted) && !(s.rod r).fenced && !s.testing r && !s.testing (0x100 + r / 8)

/-- Whether an offset of a Rod's window lies in its data or instruction memory. -/
def rodMemory (off : Nat) : Bool := decide (off < 0x50000)

/-- A read of a Rod's memories (R197): corrections counted, an uncorrectable word faults the Rod. -/
def rodMemRead (s : State) (r off n : Nat) : State × List Byte :=
  let offs := (List.range n).map (fun i => off + i)
  let s1 := rodNote s r (offs.filter (fun a => rodErr s r a ≠ some uncorrectable))
  let data := offs.map (fun a =>
    if rodErr s r a = some uncorrectable then Config.lostByte s.clk.tick (rodWindow r a) else memByte s.mem (rodWindow r a))
  if rodLost s r offs then
    (rodFault (s1.setRod r { s1.rod r with uncorr := true }) r (if off < 0x40000 then 0x08 else 0x09) 0, data)
  else (s1, data)

/-- A write of a Rod's memories: a word written whole or read correctably is valid again, and a part of an uncorrectable one faults the
Rod (R197). -/
def rodMemWrite (s : State) (r off : Nat) (data : List Byte) (strobe : List Bool) : State :=
  let ws := (wordsOf off data.length).filter (fun w => touches off strobe w 8)
  let s1 := ws.foldl (fun s w =>
    match rodErr s r w with
    | none => s
    | some b =>
      if coversWord off strobe w then rodHeal s r w
      else if b = uncorrectable then s
      else rodHeal (countRodEcc s r) r w) s
  let s2 : State := { s1 with mem := memStrobe s1.mem (rodWindow r off) data strobe }
  if ws.any (fun w => decide (rodErr s r w = some uncorrectable) && !coversWord off strobe w) then
    rodFault (s2.setRod r { s2.rod r with uncorr := true }) r (if off < 0x40000 then 0x08 else 0x09) 0
  else s2

/-- The bytes of registers from address `a` on. -/
def regBytes (s : State) (a n : Nat) : List Byte :=
  (List.range n).map (fun i => BitVec.ofNat 8 (regRead s ((a + i) / 4 * 4) / 2 ^ (8 * ((a + i) % 4))))

/-- A burst written to registers: each 32-bit word whose four strobes are set. -/
def regBurst (s : State) (a : Nat) (data : List Byte) (strobe : List Bool) : State :=
  ((List.range ((a + data.length + 3) / 4 - a / 4)).map (fun i => (a / 4 + i) * 4)).foldl (fun s w =>
    if (List.range 4).all (fun i => decide (a ≤ w + i) && strobe.getD (w + i - a) false) then
      regWrite s w (leNat (slice data (w - a) 4))
    else s) s

/-- A burst read at its target; none for an error response. -/
def readBurst (s : State) (m a n : Nat) : State × Option (List Byte) :=
  if inLedger a then ((ledgerRead s a n).1, some (ledgerRead s a n).2)
  else if inDram a then
    if s.sup.mod = .parked && !retained s a then (beamError s m a 1, none)
    else
      let r := dramRead (wakeDram s) a n
      (burstEnd r.1, some r.2)
  else if 0x10000000 ≤ a ∧ a < 0x12000000 ∧ rodMemory ((a - 0x10000000) % 0x80000) then
    let r := (a - 0x10000000) / 0x80000
    if rodOpen s r then
      let x := rodMemRead s r ((a - 0x10000000) % 0x80000) n
      (x.1, some x.2)
    else (beamError s m a 6, none)
  else if 0x60000000 ≤ a ∧ a < 0x70000000 then (s, some (memBytes s.mem a n))
  else (s, some (regBytes s a n))

/-- How the Tally's answer to a PUT ends its burst. -/
def PutAnswer.ends : PutAnswer → BurstEnd
  | .accepted => .done
  | .held => .held
  | .refused => .error

/-- A burst written at its target, and how it ends. -/
def writeBurst (s : State) (m a : Nat) (data : List Byte) (strobe : List Bool) : State × BurstEnd :=
  if inLedger a then (ledgerWrite s a data strobe, .done)
  else if inDram a then
    if s.sup.mod = .parked && !retained s a then (beamError s m a 1, .error)
    else (burstEnd (dramWrite (wakeDram s) a data strobe), .done)
  else if 0x10000000 ≤ a ∧ a < 0x12000000 ∧ rodMemory ((a - 0x10000000) % 0x80000) then
    let r := (a - 0x10000000) / 0x80000
    if rodOpen s r then (rodMemWrite s r ((a - 0x10000000) % 0x80000) data strobe, .done)
    else (beamError s m a 6, .error)
  else if 0x20000000 ≤ a ∧ a < 0x20040000 ∧ a % 0x1000 < 0x20 then
    if strobe.all (fun b => b) then
      let p := putWindow s m ((a - 0x20000000) / 0x1000) (a % 0x1000) data
      (p.1, p.2.ends)
    else (beamError s m a 5, .error)
  else if a = 0x20043000 ∧ data.length = 8 ∧ strobe.all (fun b => b) then
    let v := leNat data
    (purge s (bitsOf v 2 0) (bitsOf v 63 8), .done)
  else if 0x60000000 ≤ a ∧ a < 0x70000000 then ({ s with mem := memStrobe s.mem a data strobe }, .done)
  else (regBurst s a data strobe, .done)

/-- A granted request that keeps to the rules of its lock is served; a read's data goes to its master. -/
def serveBurst (s : State) (q : BeamReq) : State :=
  if q.write then (writeBurst s q.master q.addr q.data q.strobe).1
  else
    let r := readBurst s q.master q.addr q.len
    match r.2 with
    | some d => r.1.send (.beamData q.master q.addr d)
    | none => r.1.send (.beamData q.master q.addr (List.replicate q.len 0#8))

/-- The lock of target `t` after a burst of its holder (R258): kept by a locked burst, closed by the last one. -/
def lockAfter (s : State) (q : BeamReq) (t : Nat) : State :=
  let l := mget (32, 0) s.beam.locks t
  let held := decide (l.1 = q.master)
  if q.locked then
    { s with beam := { s.beam with locks := mset (32, 0) s.beam.locks t (q.master, (if held then l.2 else 0) + beatsOf q) } }
  else if held then { s with beam := { s.beam with locks := mset (32, 0) s.beam.locks t (32, 0) } }
  else s

/-- A granted request (R258): one that would take its sequence beyond 16 beats gets an error response and ends it. -/
def serve (s : State) (q : BeamReq) (t : Nat) : State :=
  let l := mget (32, 0) s.beam.locks t
  if requestError s q ≠ 0 then refuse s q (requestError s q)
  else if l.1 = q.master ∧ 16 < l.2 + beatsOf q then
    refuse { s with beam := { s.beam with locks := mset (32, 0) s.beam.locks t (32, 0) } } q 3
  else serveBurst (lockAfter s q t) q

/-! Arbitration (R256, R257) -/

/-- The most transactions of a master in flight (R256). -/
def tagCap (m : Nat) : Nat := if m < 27 then 16 else if m = 27 then 32 else if m = 28 then 16 else if m < 31 then 8 else 4

/-- The masters of the transactions in flight that do not wait for a grant: PUTs held by the Tally, and movers' bursts that wait. -/
def heldTags (s : State) : List Nat :=
  s.tally.queues.flatMap (fun e => (e.2.held.filter (fun p => decide (64 ≤ p.who))).map (fun p => p.who - 64)) ++
    s.rods.flatMap (fun e => (e.2.xfers.filter (fun x => x.waits)).map (fun _ => e.1 / 8))

/-- The tags of the shared pool that none of them holds. -/
def poolLeft (s : State) : Nat :=
  192 - (List.range 32).foldl (fun n m => n + ((heldTags s).count m - 2)) 0

/-- The requests that hold a tag, in order of issue: two reserved to each master, the rest from the pool of 192 up to its cap. -/
def tagged : List (Waiting × Nat) → SMap Nat → Nat → List (Waiting × Nat)
  | [], _, _ => []
  | e :: rest, used, pool =>
    let m := e.1.req.master
    let k := mget 0 used m
    if k < 2 then e :: tagged rest (mset 0 used m (k + 1)) pool
    else if k < tagCap m ∧ 0 < pool then e :: tagged rest (mset 0 used m (k + 1)) (pool - 1)
    else tagged rest used pool

/-- The oldest request of each master (R256: one master's transactions to one target complete in issue order). -/
def oldestOfMaster : List (Waiting × Nat) → List Nat → List (Waiting × Nat)
  | [], _ => []
  | e :: rest, seen =>
    if seen.contains e.1.req.master then oldestOfMaster rest seen
    else e :: oldestOfMaster rest (e.1.req.master :: seen)

/-- Whether a request is a Slide engine's deep-line read of the DRAM (R263). -/
def isDeepRead (q : BeamReq) : Bool :=
  q.deep && decide (8 ≤ q.master ∧ q.master < 26) && (match targetOf q.addr with
    | some t => decide (8 ≤ t ∧ t < 12)
    | none => false)

/-- The deep-line reads that the DRAM controller admits (R263): the first two waiting of each Slide engine. -/
def admitted : List Waiting → SMap Nat → List Waiting
  | [], _ => []
  | w :: rest, n =>
    if isDeepRead w.req then
      { w with admitted := w.admitted || decide (mget 0 n w.req.master < 2) } ::
        admitted rest (mset 0 n w.req.master (mget 0 n w.req.master + 1))
    else w :: admitted rest n

/-- The requests waiting as the next arbitration finds them. -/
def letIn (s : State) : State := { s with beam := { s.beam with waiting := admitted s.beam.waiting [] } }

/-- The requests that arbitrate at target `t`: the oldest of each master, a deep-line read only once admitted (R263); a locked target
serves its holder alone (R258), and the Tally no master with a held PUT (R250). -/
def contenders (s : State) (t : Nat) : List (Waiting × Nat) :=
  let used := (heldTags s).foldl (fun n m => mset 0 n m (mget 0 n m + 1)) []
  let all := tagged s.beam.waiting.zipIdx used (poolLeft s)
  let here := (oldestOfMaster (all.filter (fun e => decide (targetOf e.1.req.addr = some t))) []).filter (fun e =>
    !(decide (t = 14) && tallyHeld s e.1.req.master) && (!isDeepRead e.1.req || e.1.admitted))
  let l := (mget (32, 0) s.beam.locks t).1
  if !targetReady s t then [] else if l < 32 then here.filter (fun e => decide (e.1.req.master = l)) else here

/-- The place of a master in the round robin of a target: the one after the last granted comes first. -/
def turnOf (rr : SMap Nat) (t m : Nat) : Nat := (m + 63 - mget 31 rr t) % 32

/-- Whether request `a` wins over `b` at target `t` (R257): deep-line reads come first within a priority (R291), in a round robin of
their own (R263). -/
def beats (s : State) (t : Nat) (a b : Waiting × Nat) : Bool :=
  let pa := pairPri s a.1.req.master t
  let pb := pairPri s b.1.req.master t
  let rr := if a.1.req.deep then s.beam.rrDeep else s.beam.rr
  decide (pb < pa) || (decide (pa = pb) && ((a.1.req.deep && !b.1.req.deep) ||
    (decide (a.1.req.deep = b.1.req.deep) && decide (turnOf rr t a.1.req.master < turnOf rr t b.1.req.master))))

/-- The winner among contenders. -/
def winner (s : State) (t : Nat) : List (Waiting × Nat) → Option (Waiting × Nat)
  | [] => none
  | e :: rest => some (rest.foldl (fun w x => if beats s t x w then x else w) e)

/-- The winner's choice: an aged request where one may be granted, else by priority and round robin. -/
def choice (s : State) (t : Nat) : Option ((Waiting × Nat) × Bool) :=
  let cs := contenders s t
  let old := cs.filter (fun e => decide (16 ≤ e.1.lost))
  match (if 3 ≤ sinceAged s t then winner s t old else none) with
  | some w => some (w, true)
  | none => (winner s t cs).map (fun w => (w, false))

/-- The grant of request `w` at target `t` noted: it no longer waits, and every other contender has lost an arbitration. -/
def granted (s : State) (t : Nat) (w : Waiting × Nat) (aged : Bool) : State :=
  let losers := ((contenders s t).map (fun e => e.2)).filter (fun i => i ≠ w.2)
  let bump := fun (e : Waiting × Nat) => if losers.contains e.2 then { e.1 with lost := e.1.lost + 1 } else e.1
  let s1 := grantNoted s t w.1.req.master w.1.req.deep aged
  { s1 with beam := { s1.beam with waiting := ((s.beam.waiting.zipIdx).filter (fun e => e.2 ≠ w.2)).map bump } }

/-- One burst granted at target `t`. -/
def grantAt (s : State) (t : Nat) : State :=
  match choice s t with
  | none => s
  | some (w, aged) => serve (granted s t w aged) w.1.req t

/-- A request issued: answered with an error at once, or waiting for its grant; a fenced master issues none (R28). -/
def issue (s : State) (q : BeamReq) : State :=
  if !burstOk q || masterFenced s q.master then s
  else if requestError s q ≠ 0 then refuse s q (requestError s q)
  else enqueue s q

/-- One arbitration at every target. -/
def arbitrate (s : State) : State := (List.range 25).foldl grantAt (letIn s)

/-- A single access of a master: issued, with one arbitration at its target. -/
def single (s : State) (q : BeamReq) : State :=
  match targetOf q.addr with
  | none => issue s q
  | some t => grantAt (letIn (issue s q)) t

/-! Locked sequences and master reset (R258, R259, R261) -/

/-- The bursts of a locked sequence as issued: every burst but the last keeps the target locked, and the last as it says. -/
def lockedBursts (m : Nat) : List BeamReq → List BeamReq
  | [] => []
  | [q] => [{ q with master := m }]
  | q :: r => { q with master := m, locked := true } :: lockedBursts m r

/-- One burst of a locked sequence: `acc` holds the beats of those before it, and whether one went beyond 16 beats (R258); the rest of
the sequence then gets error responses. -/
def lockedStep (m : Nat) (acc : State × Nat × Bool) (q : BeamReq) : State × Nat × Bool :=
  let (s, n, broken) := acc
  match targetOf q.addr with
  | none => (issue s q, n, broken)
  | some t =>
    if !burstOk q || masterFenced s m then acc
    else if !lockAllowed m t || broken then (refuse s q 3, n, broken)
    else if 16 < n + beatsOf q then
      (refuse { s with beam := { s.beam with locks := s.beam.locks.filter (fun e => decide (e.2.1 ≠ m)) } } q 3, n, true)
    else (grantAt (letIn (issue s q)) t, n + beatsOf q, false)

/-- A locked sequence issued and arbitrated, burst by burst. -/
def lockedSequence (s : State) (m : Nat) (reqs : List BeamReq) : State := ((lockedBursts m reqs).foldl (lockedStep m) (s, 0, false)).1

/-- The lock timeout in force in ns (R259). -/
def lockTimeoutNs (s : State) : Nat := if 16 ≤ s.beam.lockTo ∧ s.beam.lockTo ≤ 64 then s.beam.lockTo else 64

/-- A lock held for its timeout (R259): the rest of the sequence gets error responses and the target is released. -/
def lockTimeout (s : State) (t heldNs : Nat) : State :=
  let l := mget (32, 0) s.beam.locks t
  if 32 ≤ l.1 ∨ heldNs < lockTimeoutNs s then s
  else
    let mine := fun (w : Waiting) => decide (w.req.master = l.1) && decide (targetOf w.req.addr = some t)
    let b := { s.beam with
      locks := mset (32, 0) s.beam.locks t (32, 0), waiting := s.beam.waiting.filter (fun w => !mine w) }
    let s1 := (s.beam.waiting.filter mine).foldl (fun s w => refuse s w.req 4) { s with beam := b }
    (s1.bump 0x70E0 0x02 1).raise 51 l.1 0

/-- The Rods behind a Frame port. -/
def portRods (m : Nat) : List Nat := if m < 8 then (List.range 8).map (fun i => 8 * m + i) else []

/-- Whether a master has transactions on the Beam. -/
def onBeam (s : State) (m : Nat) : Bool :=
  s.beam.waiting.any (fun w => decide (w.req.master = m)) || s.beam.locks.any (fun e => decide (e.2.1 = m)) ||
    s.tally.queues.any (fun e => e.2.held.any (fun p => decide (producerMaster p.who = m))) ||
    (portRods m).any (fun r => !(s.rod r).xfers.isEmpty)

/-- The Rods of a Frame port reset with their master (R261): they end their items as failed, and those waiting in TAKE get none. -/
def resetRods (s : State) (m : Nat) : State :=
  (portRods m).foldl (fun s r =>
    let t := clearRod s r
    t.setRod r (t.rod r).halted) s

/-- A master reset (R261): where it has transactions on the Beam, the Beam acts on its behalf and records it. -/
def masterReset (s : State) (m : Nat) : State :=
  if 32 ≤ m then s
  else if !onBeam s m then resetRods s m
  else
    let locks := (s.beam.locks.filter (fun e => decide (e.2.1 = m))).foldl (fun l e => mset (32, 0) l e.1 (32, 0)) s.beam.locks
    let b := { s.beam with waiting := s.beam.waiting.filter (fun w => decide (w.req.master ≠ m)), locks := locks }
    let s1 := dropHeld { s with beam := b } (64 + m)
    let s2 := resetRods s1 m
    ((s2.stset 0xFF 0x70E0 0x04 m).bump 0x70E0 0x03 1).raise 52 m 0

/-! The mover of a Rod (R218, R219) -/

/-- The bursts of a transfer (R255): the offset of each within the transfer, and its length. -/
def xferBursts (far : Nat) : Nat → Nat → Nat → List (Nat × Nat)
  | 0, _, _ => []
  | fuel + 1, off, len =>
    if len ≤ off then []
    else
      let n := min (256 - (far + off) % 256) (len - off)
      (off, n) :: xferBursts far fuel (off + n) len

/-- What a mover's burst of Rod `r` meets before its target: an error response, a wait, or its grant (none). It waits while its target
cannot serve it (R250, R256, R258) and while another request wins the arbitration (R257). -/
def moverMeets (s : State) (r a n : Nat) (out : Bool) : State × Option BurstEnd :=
  match targetOf a with
  | none => (beamError s (r / 8) a 1, some .error)
  | some t =>
    let s1 := letIn (enqueue s (BeamReq.mk (r / 8) a out n [] [] false false))
    if pairPri s (r / 8) t = 0 then (beamError s (r / 8) a 2, some .error)
    else if masterFenced s (r / 8) then (s, some .waits)
    else
      match choice s1 t with
      | none => (s, some .waits)
      | some (w, aged) => if w.2 = s.beam.waiting.length then (granted s1 t w aged, none) else (s, some .waits)

/-- One burst of an inbound transfer, and how it ends. -/
def moveIn (s : State) (r : Nat) (x : Xfer) (off n : Nat) : State × BurstEnd :=
  let g := moverMeets s r (x.far + off) n false
  match g.2 with
  | some e => (g.1, e)
  | none =>
    let a := readBurst g.1 (r / 8) (x.far + off) n
    match a.2 with
    | none => (a.1, .error)
    | some d => (rodMemWrite a.1 r (x.dm + off) d (List.replicate n true), .done)

/-- One burst of an outbound transfer, and how it ends. -/
def moveOut (s : State) (r : Nat) (x : Xfer) (off n : Nat) : State × BurstEnd :=
  let g := moverMeets s r (x.far + off) n true
  match g.2 with
  | some e => (g.1, e)
  | none =>
    let s1 := rodNote g.1 r ((List.range n).map (fun i => x.dm + off + i))
    let w := writeBurst s1 (r / 8) (x.far + off) (memBytes s1.mem (rodWindow r (x.dm + off)) n) (List.replicate n true)
    (if w.2 = .done then noteOutput w.1 r (x.far + off) n else w.1, w.2)

/-- What ended a transfer for now: nothing, an error response (fault 0x06), an uncorrectable data word (fault 0x08), a wait at an offset,
or a PUT held after it. -/
inductive XferEnd where
  | good
  | beam
  | data
  | waits (off : Nat)
  | held (off : Nat)
  deriving DecidableEq, Repr

/-- The bursts of a transfer in turn, up to the first that fails or waits. -/
def moveAll (r : Nat) (x : Xfer) : List (Nat × Nat) → State → State × XferEnd
  | [], s => (s, .good)
  | b :: rest, s =>
    if x.out && rodLost s r ((List.range b.2).map (fun i => x.dm + b.1 + i)) then (s, .data)
    else
      let a := if x.out then moveOut s r x b.1 b.2 else moveIn s r x b.1 b.2
      match a.2 with
      | .done => moveAll r x rest a.1
      | .error => (a.1, .beam)
      | .waits => (a.1, .waits b.1)
      | .held => (a.1, .held (b.1 + b.2))

/-- A Rod's state once `n` of its transfers remain: an item that waited for them ends, and a word or WAITX that waited goes
on (R217 to R219). -/
def afterXfer (s : State) (r : Nat) : State :=
  let rod := s.rod r
  let s1 := match rod.ending with
    | some (k + 2) => s.setRod r { rod with ending := some (k + 1) }
    | some _ => endItem (s.setRod r { rod with ending := none }) r false
    | none => s
  let rod1 := s1.rod r
  match rod1.wait with
  | some .stall => s1.setRod r { rod1 with wait := none }
  | some (.xfers k) =>
    if rod1.xfers.length ≤ k then finish s1 r { rod1 with st := .running, wait := none } 0 Wrote.none else s1
  | some (.take _ _) => giveIfAny s1 r
  | _ => s1

/-- A failed transfer ends with a fault (R197, R222, R260); an error response that reaches a stopped Rod leaves it stopped. -/
def xferFail (s : State) (r code : Nat) : State :=
  let s1 := s.setRod r { s.rod r with xfers := [], uncorr := (s.rod r).uncorr || decide (code = 0x08) }
  if (s1.rod r).st = .faulted ∨ ((s1.rod r).st = .stopped ∧ code ≠ 0x08) then s1 else rodFault s1 r code 0

/-- The oldest transfer of a Rod goes on and completes (R218), unless a burst of it waits (R248, R250, R258) or fails. -/
def xferComplete (s : State) (r : Nat) : State :=
  match (s.rod r).xfers with
  | [] => s
  | x :: _ =>
    if x.held && tallyHeld s (r / 8) then s
    else
      let m := moveAll r x (xferBursts x.far (x.len / 256 + 2) x.at_ x.len) s
      let later := fun (off : Nat) (held : Bool) => m.1.setRod r { m.1.rod r with
        xfers := { x with at_ := off, held := held, waits := !held } :: (m.1.rod r).xfers.drop 1 }
      match m.2 with
      | .good => afterXfer (m.1.setRod r { m.1.rod r with xfers := (m.1.rod r).xfers.drop 1 }) r
      | .waits off => later off false
      | .held off => later off true
      | .data => xferFail m.1 r 0x08
      | .beam => xferFail m.1 r 0x06

/-! The commands -/

/-- REGISTER_WRITE: one 32-bit write through the Beam. -/
def execRegisterWrite (master addr value : Nat) (s : State) : Host.Outcome State Fault Refusal :=
  done (single s (BeamReq.mk master (addr / 4 * 4) true 4 (leBytes 4 value) [true, true, true, true] false false))

/-- TALLY_PURGE: the Reckoner's 64-bit write (R252). -/
def execTallyPurge (value : Nat) (s : State) : Host.Outcome State Fault Refusal :=
  done (single s (tallyBurst 26 0x20043000 (leBytes 8 value)))

/-- QCFG_WRITE by a Beam master (R234, R236): a write to a user slot's queue changes nothing. -/
def execQcfgWrite (master queue value : Nat) (s : State) : Host.Outcome State Fault Refusal :=
  done (if queue < 64 then single s (tallyBurst master (0x20000000 + queue * 0x1000 + 0x40) (leBytes 4 value)) else s)

/-- PUT_WINDOW_WRITE (R247): a write that is no burst at all (R255), or lies beyond the window, is answered at once with an error. -/
def execPutWindowWrite (master queue offset : Nat) (data : List Byte) (s : State) :
    Host.Outcome State Fault Refusal :=
  done (
    let q := tallyBurst master (0x20000000 + queue * 0x1000 + offset) data
    if 32 ≤ master || 64 ≤ queue || masterFenced s master then s
    else if burstOk q && decide (offset < 0x20) then single s q
    else (putWindow s master queue offset data).1)

/-- XFER_COMPLETE. -/
def execXferComplete (rod : Nat) (upsets : List Upset) (s : State) : Host.Outcome State Fault Refusal :=
  done (if rod < 64 then xferComplete (applyUpsets s upsets) rod else s)

/-- BEAM_REQUEST: the requests are issued, and every target grants one burst. -/
def execBeamRequest (reqs : List BeamReq) (upsets : List Upset) (s : State) : Host.Outcome State Fault Refusal :=
  done (arbitrate (reqs.foldl issue (applyUpsets s upsets)))

/-- LOCKED_SEQUENCE. -/
def execLockedSequence (master : Nat) (reqs : List BeamReq) (s : State) : Host.Outcome State Fault Refusal :=
  done (lockedSequence s master reqs)

/-- LOCK_TIMEOUT. -/
def execLockTimeout (target heldNs : Nat) (s : State) : Host.Outcome State Fault Refusal :=
  done (lockTimeout s target heldNs)

/-- MASTER_RESET. -/
def execMasterReset (master : Nat) (s : State) : Host.Outcome State Fault Refusal := done (masterReset s master)

/-- BEAM_ERR_CLEAR: 1 written to VALID. -/
def execBeamErrClear (s : State) : Host.Outcome State Fault Refusal :=
  done { s with beam := { s.beam with errVal := false } }

end Sys2Proof.Machine
end

