-- ==== Sys2Proof/Machine/Events.lean ====
section
/-! DEFINITION. The event system (R548 to R561): state entries, the records of a tick, the log, its copy, NOTIFY and EVT_N. -/
namespace Sys2Proof.Machine

/-! State entries (R551) -/

/-- The read-only part of a source's state entry: LATCHED, ACTIVE and COUNT. -/
def evStatus (e : EvSrc) : Nat := 8 * b2n e.latched + 16 * b2n (!e.active.isEmpty) + 65536 * e.count

/-- The state entry of a source, with its status as it stands. -/
def evWord (s : State) (src : Nat) : Nat :=
  if evReserved src then 0 else s.evMask src + 256 * evClass src + evStatus (s.evSrc src)

/-- Refusals of a write to B000:(src + 1) (R551). -/
def evSourceCheck (src v : Nat) : Nat :=
  firstCode [need (decide (src < 255)) Abort.noSub, need (decide (v < 2 ^ 32)) Abort.length,
    need (if evReserved src then decide (v = 0) else decide (bitsOf v 7 5 = 0 ∧ bitsOf v 15 10 = 0)) Abort.reserved]

/-- The effect of a write to B000:(src + 1): the mask at once, LATCHED at the next boundary. -/
def evSourceApply (s : State) (src v : Nat) : State :=
  if evReserved src then s
  else
    let s1 : State := { s with nv := { s.nv with masks := mset (evDefaultMask src) s.nv.masks src (v % 8) } }
    if bitOf v 3 then
      { s1 with events := { s1.events with srcs := mmod EvSrc.init s1.events.srcs src (fun e =>
        { e with clearReq := true }) } }
    else s1

/-! Records of a tick (R554 to R559) -/

/-- Records are written in ascending TIME, then source; a start of a condition before its end. -/
def recordBefore (a b : EvRec) : Bool :=
  decide (a.time < b.time) || (decide (a.time = b.time) && (decide (a.source < b.source) ||
    (decide (a.source = b.source) && !a.clear && b.clear)))

/-- The records that R555 lets a tick write: 64, those of source 192 apart; the second part counts the rest. -/
def limitRecords : Nat → List EvRec → List EvRec × Nat
  | _, [] => ([], 0)
  | n, r :: rest =>
    if r.source = 192 || r.boot then
      let t := limitRecords n rest
      (r :: t.1, t.2)
    else
      match n with
      | 0 =>
        let t := limitRecords 0 rest
        (t.1, t.2 + 1)
      | k + 1 =>
        let t := limitRecords k rest
        (r :: t.1, t.2)

/-- Records numbered from `seq` on, modulo 2^32 (R556). -/
def numberRecords : Nat → List EvRec → List EvRec
  | _, [] => []
  | seq, r :: rest => { r with seq := seq } :: numberRecords ((seq + 1) % 2 ^ 32) rest

/-- The newest `n` of a list whose newest comes last. -/
def newest {α : Type} (n : Nat) (l : List α) : List α := l.drop (l.length - n)

/-! FOL frames (R411) and NOTIFY (R420) -/

/-- The bytes of a frame that its tag covers (R411). -/
def folBytes (f : FolFrame) : List Byte :=
  beBytes 2 f.magic ++ beBytes 1 f.version ++ beBytes 1 f.op ++ beBytes 4 f.session ++ beBytes 4 f.seq ++ beBytes 2 f.index ++
    beBytes 1 f.sub ++ beBytes 1 f.flags ++ beBytes 8 f.apply ++ beBytes 4 f.offset ++ beBytes 4 f.total ++ beBytes 2 f.length ++
    beBytes 2 f.reserved ++ beBytes 4 f.status ++ f.data

/-- The tag of a frame under a key. -/
def folTag (key : List Byte) (f : FolFrame) : List Byte := (hmac key (folBytes f)).take 16

/-- A frame tagged with a key. -/
def folTagged (key : List Byte) (f : FolFrame) : FolFrame := { f with tag := folTag key f }

/-- A record as FOL carries it: big-endian fields (R556). -/
def recordBytes (r : EvRec) : List Byte :=
  beBytes 4 r.seq ++ beBytes 8 (toPat 64 r.time) ++ beBytes 8 r.tick ++ beBytes 1 r.source ++ beBytes 1 (evClass r.source) ++
    beBytes 1 (b2n r.clear + 2 * b2n r.boot) ++ beBytes 1 r.count ++ beBytes 4 r.arg0 ++ beBytes 4 r.arg1

/-- A NOTIFY frame of a session (R411, R420): tagged with its key. TOTAL is the length of its data: DESIGN CHOICE (assumption 148). -/
def notifyFrame (x : Session) (seq : Nat) (recs : List EvRec) : FolFrame :=
  let data := recs.flatMap recordBytes
  folTagged x.key {
    magic := 0x464F, version := 1, op := 0x0A, session := x.id, seq := seq, index := 0, sub := 0, flags := 0, apply := 0, offset := 0,
    total := data.length, length := data.length, reserved := 0, status := 0, data := data, tag := [] }

/-- The frames in which a session gets its records (R420): as many records each as its segment size holds. -/
def notifyFrames (x : Session) (recs : List EvRec) : List OutFrame :=
  ((chunks (x.segment / 32) (recs.length / (x.segment / 32) + 1) recs).filter (fun c => !c.isEmpty)).mapIdx (fun i c =>
    .fol x.port x.addr (notifyFrame x ((x.nseq + i) % 2 ^ 32) c))

/-- NOTIFY to every subscribed session (R559). -/
def notifyAll (s : State) (recs : List EvRec) : State :=
  s.fol.sessions.foldl (fun s x =>
    if x.notify && !recs.isEmpty then
      let fr := notifyFrames x recs
      let up := fun (y : Session) => if y.id = x.id then { y with nseq := (y.nseq + fr.length) % 2 ^ 32 } else y
      let s1 := fr.foldl (fun s f => s.sendPort x.port f) s
      { s1 with fol := { s1.fol with sessions := s1.fol.sessions.map up } }
    else s) s

/-- The copy of the newest 64 Warning and Fault records (R559), at most one in any 10 s. -/
def copyLog (s : State) : State :=
  let free := match s.events.copyAt with
    | some t => decide (t + 10000000000 ≤ s.clk.local)
    | none => true
  if s.events.copyDue && free then
    { s with
      nv := { s.nv with stored := newest 64 (s.events.log.filter (fun r => decide (2 ≤ evClass r.source))) },
      events := { s.events with copyAt := some s.clk.local, copyDue := false } }
  else s

/-- B100:01 to :03 and :07 (R561). -/
def logStatus (s : State) : State :=
  let l := s.events.log
  let at_ := fun (o : Option EvRec) =>
    match o with
    | some r => r.seq
    | none => 0
  (((s.stset 0 0xB100 0x01 l.length).stset 0 0xB100 0x02 (at_ l.head?)).stset 0 0xB100 0x03 (at_ l.getLast?)).stset 0
    0xB100 0x07 s.events.dropped

/-- The records of the tick that ended are written (R554 to R559), a pending Clear log having emptied the log (R561). Records
dropped are counted, and source 192 is raised in the tick that begins. -/
def writeRecords (s : State) : State :=
  let held := limitRecords 64 (sortBy recordBefore s.events.now)
  let recs := numberRecords s.events.nextSeq held.1
  let logged := recs.filter (fun r => r.logged)
  let old := if s.events.clrReq then [] else s.events.log
  let e := { s.events with
    now := [], log := newest 65536 (old ++ logged), nextSeq := (s.events.nextSeq + recs.length) % 2 ^ 32,
    dropped := satAdd (2 ^ 32 - 1) s.events.dropped held.2, clrReq := false,
    copyDue := s.events.copyDue || logged.any (fun r => decide (2 ≤ evClass r.source)) }
  let s1 := notifyAll { s with events := e } (recs.filter (fun r => r.sent))
  let s2 := copyLog s1
  logStatus (if held.2 = 0 then s2 else s2.raise 192 held.2 0)

/-- The clears of LATCHED at a boundary (R551, R561): a source raised in the tick that ended, or in its condition, stays. -/
def clearLatches (s : State) : State :=
  let all := s.events.ackReq
  let step := fun (e : EvSrc) =>
    { e with
      latched := e.latched && (e.raised || !e.active.isEmpty || !(all || e.clearReq)), raised := false, clearReq := false }
  { s with events := { s.events with
    srcs := s.events.srcs.foldl (fun m e => mset EvSrc.init m e.1 (step e.2)) s.events.srcs, ackReq := false } }

/-- EVT_N (R560): low while a source with PIN set has LATCHED or ACTIVE set. -/
def driveEvt (s : State) : State :=
  let low := s.events.srcs.any (fun e => bitOf (s.evMask e.1) 2 && (e.2.latched || !e.2.active.isEmpty))
  { s with events := { s.events with evtLow := low } }

/-- The status part of every state entry as of this boundary (R408). -/
def mirrorEvents (s : State) : State :=
  s.events.srcs.foldl (fun s e => s.stset 0 0xB000 (e.1 + 1) (evStatus e.2)) s

/-- The event system at a boundary, for the tick that ended. -/
def eventsBoundary (s : State) : State := mirrorEvents (driveEvt (clearLatches (writeRecords s)))

/-- B100:05 (R561): up to 1,024 records from the one that B100:04 names; empty where the log does not hold it. -/
def logWindow (s : State) : List EvRec :=
  match s.events.log with
  | [] => []
  | r :: rest =>
    let off := (s.events.readSeq + 2 ^ 32 - r.seq) % 2 ^ 32
    if off < (r :: rest).length then ((r :: rest).drop off).take 1024 else []

/-! The commands -/

/-- EVENT_SOURCE_WRITE. -/
def execEventSourceWrite (source value : Nat) (s : State) : Host.Outcome State Fault Refusal :=
  done (s.attempt 0xB000 (evSourceCheck source value) (fun t => evSourceApply t source value))

/-- READ_START_WRITE: at acceptance (R561). -/
def execReadStartWrite (value : Nat) (s : State) : Host.Outcome State Fault Refusal :=
  done (s.attempt 0xB100 (need (decide (value < 2 ^ 32)) Abort.length) (fun t =>
    { t with events := { t.events with readSeq := value } }))

/-- ACKNOWLEDGE_ALL: 1 clears LATCHED of every source out of its condition at the next boundary. -/
def execAcknowledgeAll (value : Nat) (s : State) : Host.Outcome State Fault Refusal :=
  done (s.attempt 0xB100 (boolOk value) (fun t =>
    { t with events := { t.events with ackReq := t.events.ackReq || decide (value = 1) } }))

/-- CLEAR_LOG: 1 empties the log at the next boundary. -/
def execClearLog (value : Nat) (s : State) : Host.Outcome State Fault Refusal :=
  done (s.attempt 0xB100 (boolOk value) (fun t =>
    { t with events := { t.events with clrReq := t.events.clrReq || decide (value = 1) } }))

/-- EVENT_LOG_COPY: the copy that waits for the end of 10 s. -/
def execEventLogCopy (s : State) : Host.Outcome State Fault Refusal := done (copyLog s)

end Sys2Proof.Machine
end

