-- ==== Sys2Proof/Machine/Cipher.lean ====
section
/-! DEFINITION. AES-256-GCM opening, which show data needs (R509, R515): the block cipher of its standard, and the mode with no
additional data. -/
namespace Sys2Proof.Machine

/-! The field of the cipher -/

/-- A byte times x in the field of the cipher. -/
def aesX (b : Byte) : Byte := if b.msb then (b <<< 1) ^^^ 0x1B#8 else b <<< 1

/-- The product of two bytes over the `n` low bits of the second from the highest. -/
def aesMulFrom (a b : Byte) : Nat → Byte → Byte
  | 0, r => r
  | n + 1, r => aesMulFrom a b n (if b.getLsbD n then aesX r ^^^ a else aesX r)

/-- The product of two bytes. -/
def aesMul (a b : Byte) : Byte := aesMulFrom a b 8 0#8

/-- The inverse of a byte, 0 for 0: its power 254. -/
def aesInv (b : Byte) : Byte :=
  let b2 := aesMul b b
  let b4 := aesMul b2 b2
  let b8 := aesMul b4 b4
  let b16 := aesMul b8 b8
  let b32 := aesMul b16 b16
  let b64 := aesMul b32 b32
  aesMul (aesMul (aesMul b2 b4) (aesMul b8 b16)) (aesMul (aesMul b32 b64) (aesMul b64 b64))

/-- The substitution of a byte. -/
def aesSub (b : Byte) : Byte :=
  let i := aesInv b
  i ^^^ i.rotateLeft 1 ^^^ i.rotateLeft 2 ^^^ i.rotateLeft 3 ^^^ i.rotateLeft 4 ^^^ 0x63#8

/-! The key schedule and a block -/

/-- Two lists of bytes added. -/
def xorBytes (a b : List Byte) : List Byte := (a.zip b).map (fun e => e.1 ^^^ e.2)

/-- The words of the schedule for a key of eight words, grown by `n`, the newest first; `rc` is the next round constant. -/
def aesSchedule : Nat → Byte → List (List Byte) → List (List Byte)
  | 0, _, l => l
  | n + 1, rc, l =>
    let last := l.headD []
    let old := l.getD 7 []
    if l.length % 8 = 0 then
      let t := ((last.drop 1) ++ (last.take 1)).map aesSub
      aesSchedule n (aesX rc) (xorBytes old (xorBytes t [rc, 0#8, 0#8, 0#8]) :: l)
    else if l.length % 8 = 4 then aesSchedule n rc (xorBytes old (last.map aesSub) :: l)
    else aesSchedule n rc (xorBytes old last :: l)

/-- The fifteen round keys of a key of 32 bytes. -/
def aesKeys (key : List Byte) : List (List Byte) :=
  (chunks 4 15 (aesSchedule 52 0x01#8 (chunks 4 8 key).reverse).reverse).map (fun w => w.flatMap (fun b => b))

/-- The bytes of a block with its rows shifted. -/
def aesRows (b : List Byte) : List Byte :=
  (List.range 16).map (fun i => b.getD ((i + 4 * (i % 4)) % 16) 0#8)

/-- One column mixed. -/
def aesColumn (c : List Byte) : List Byte :=
  (List.range 4).map (fun i =>
    let at_ := fun j => c.getD ((i + j) % 4) 0#8
    aesX (at_ 0) ^^^ (aesX (at_ 1) ^^^ at_ 1) ^^^ at_ 2 ^^^ at_ 3)

/-- The rounds after the first key; the last mixes no columns. -/
def aesRounds (b : List Byte) : List (List Byte) → List Byte
  | [] => b
  | [k] => xorBytes (aesRows (b.map aesSub)) k
  | k :: r => aesRounds (xorBytes ((chunks 4 4 (aesRows (b.map aesSub))).flatMap aesColumn) k) r

/-- A block enciphered under round keys. -/
def aesBlock (keys : List (List Byte)) (b : List Byte) : List Byte := aesRounds (xorBytes b (keys.headD [])) keys.tail

/-! The mode -/

/-- The product of two blocks in the field of the mode, over the `n` low bits of the first from the highest. -/
def gcmMulFrom (x : BitVec 128) : Nat → BitVec 128 → BitVec 128 → BitVec 128
  | 0, _, z => z
  | n + 1, v, z =>
    gcmMulFrom x n (if v.getLsbD 0 then (v >>> 1) ^^^ (0xE1#128 <<< 120) else v >>> 1) (if x.getLsbD n then z ^^^ v else z)

/-- The product of two blocks. -/
def gcmMul (x y : BitVec 128) : BitVec 128 := gcmMulFrom x 128 y 0#128

/-- A block as a polynomial. -/
def gcmBits (b : List Byte) : BitVec 128 := BitVec.ofNat 128 (beNat b)

/-- Bytes filled with zeros to whole blocks. -/
def gcmPad (b : List Byte) : List Byte := b ++ List.replicate ((16 - b.length % 16) % 16) 0#8

/-- The hash of whole blocks under a key. -/
def gcmHash (h : BitVec 128) (b : List Byte) : BitVec 128 :=
  (chunks 16 (b.length / 16) b).foldl (fun y c => gcmMul (y ^^^ gcmBits c) h) 0#128

/-- The counter block `n` steps after another. -/
def gcmCounter (j : List Byte) (n : Nat) : List Byte := j.take 12 ++ beBytes 4 ((beNat (j.drop 12) + n) % 2 ^ 32)

/-- The first counter block of a nonce. -/
def gcmStart (h : BitVec 128) (nonce : List Byte) : List Byte :=
  if nonce.length = 12 then nonce ++ beBytes 4 1
  else beBytes 16 (gcmHash h (gcmPad nonce ++ beBytes 16 (8 * nonce.length))).toNat

/-- AES-256-GCM opening: the plaintext, or none where the tag fails. -/
def gcmOpen (key nonce data tag : List Byte) : Option (List Byte) :=
  let ks := aesKeys key
  let h := gcmBits (aesBlock ks (List.replicate 16 0#8))
  let j := gcmStart h nonce
  let s := beBytes 16 (gcmHash h (gcmPad data ++ beBytes 16 (8 * data.length))).toNat
  if tag = xorBytes s (aesBlock ks j) then
    some (((chunks 16 (data.length / 16 + 1) data).mapIdx (fun i c => xorBytes c (aesBlock ks (gcmCounter j (i + 1))))).flatMap
      (fun b => b))
  else none

end Sys2Proof.Machine
end

