-- ==== Sys2Proof/Machine/Curve.lean ====
section
/-! DEFINITION. ECDSA on the curve P-256 with SHA-256 (R509, R511, R515, R525): the field, the group of the curve in Jacobian
coordinates, keys and signatures. The curve's constants are those of its standard, which R509 names. -/
namespace Sys2Proof.Machine

/-! The field and the group's order -/

/-- The prime of the field. -/
def curveP : Nat := 2 ^ 256 - 2 ^ 224 + 2 ^ 192 + 2 ^ 96 - 1

/-- The order of the group. -/
def curveN : Nat := 0xFFFFFFFF00000000FFFFFFFFFFFFFFFFBCE6FAADA7179E84F3B9CAC2FC632551

/-- The constant term of the curve y² = x³ − 3x + b. -/
def curveB : Nat := 0x5AC635D8AA3A93E7B3EBBD55769886BC651D06B0CC53B0F63BCE3C3E27D2604B

/-- The base point's coordinates. -/
def curveG : Nat × Nat :=
  (0x6B17D1F2E12C4247F8BCE6E563A440F277037D812DEB33A0F4A13945D898C296,
   0x4FE342E2FE1A7F9B8EE7EB4A7C0F9E162BCE33576B315ECECBB6406837BF51F5)

/-- A power of `a` modulo `m`, over the `n` low bits of the exponent from the highest. -/
def powMod (m a e : Nat) : Nat → Nat → Nat
  | 0, r => r
  | n + 1, r =>
    let q := r * r % m
    powMod m a e n (if bitOf e n then q * a % m else q)

/-- The inverse modulo a prime, by Fermat's theorem. -/
def invMod (m a : Nat) : Nat := powMod m (a % m) (m - 2) 256 1

/-- A difference in the field. -/
def fieldSub (a b : Nat) : Nat := (a + curveP - b % curveP) % curveP

/-! Points (X, Y, Z) for x = X / Z², y = Y / Z³; Z = 0 for the point at infinity -/

/-- A point of the curve. -/
structure CurvePoint where
  x : Nat
  y : Nat
  z : Nat
  deriving DecidableEq, Repr

/-- The point at infinity. -/
def curveZero : CurvePoint := CurvePoint.mk 1 1 0

/-- A point doubled. -/
def curveDouble (a : CurvePoint) : CurvePoint :=
  let d := a.z * a.z % curveP
  let g := a.y * a.y % curveP
  let b := a.x * g % curveP
  let t := 3 * fieldSub a.x d * (a.x + d) % curveP
  let x := fieldSub (t * t) (8 * b)
  let s := a.y + a.z
  CurvePoint.mk x (fieldSub (t * fieldSub (4 * b) x) (8 * g * g)) (fieldSub (fieldSub (s * s) g) d)

/-- The sum of two points. -/
def curveAdd (a b : CurvePoint) : CurvePoint :=
  if a.z = 0 then b
  else if b.z = 0 then a
  else
    let za := a.z * a.z % curveP
    let zb := b.z * b.z % curveP
    let u := a.x * zb % curveP
    let s := a.y * zb * b.z % curveP
    let h := fieldSub (b.x * za) u
    let r := fieldSub (b.y * za * a.z) s
    if h = 0 then (if r = 0 then curveDouble a else curveZero)
    else
      let hh := h * h % curveP
      let hc := h * hh % curveP
      let v := u * hh % curveP
      let x := fieldSub (fieldSub (r * r) hc) (2 * v)
      CurvePoint.mk x (fieldSub (r * fieldSub v x) (s * hc)) (h * a.z * b.z % curveP)

/-- A multiple of a point, over the `n` low bits of the factor from the highest. -/
def curveMul (k : Nat) (a : CurvePoint) : Nat → CurvePoint → CurvePoint
  | 0, r => r
  | n + 1, r =>
    let d := curveDouble r
    curveMul k a n (if bitOf k n then curveAdd d a else d)

/-- k times a point. -/
def curveTimes (k : Nat) (a : CurvePoint) : CurvePoint := curveMul k a 256 curveZero

/-- The base point. -/
def curveBase : CurvePoint := CurvePoint.mk curveG.1 curveG.2 1

/-- The affine coordinates of a point that is not at infinity. -/
def curveAffine (a : CurvePoint) : Nat × Nat :=
  let i := invMod curveP a.z
  let q := i * i % curveP
  (a.x * q % curveP, a.y * q * i % curveP)

/-- Whether affine coordinates are those of a point of the curve. -/
def onCurve (x y : Nat) : Bool :=
  decide (x < curveP) && decide (y < curveP) && decide (y * y % curveP = (x * x * x + fieldSub curveB (3 * x)) % curveP)

/-! Keys and signatures -/

/-- The private key that a draw of the random source gives: 1 to n − 1. -/
def keyOfDraw (d : Nat) : Nat := d % (curveN - 1) + 1

/-- The public key of a private one: x then y. -/
def publicKey (k : List Byte) : List Byte :=
  let a := curveAffine (curveTimes (beNat k) curveBase)
  beBytes 32 a.1 ++ beBytes 32 a.2

/-- Whether `sig`, r then s, is a signature of `msg` by the holder of the key `key`, x then y. -/
def ecdsaOk (key msg sig : List Byte) : Bool :=
  let x := beAt key 0 32
  let y := beAt key 32 32
  let r := beAt sig 0 32
  let s := beAt sig 32 32
  if !onCurve x y || decide (r = 0) || decide (curveN ≤ r) || decide (s = 0) || decide (curveN ≤ s) then false
  else
    let w := invMod curveN s
    let e := beNat (sha256 msg)
    let q := curveAdd (curveTimes (e * w % curveN) curveBase) (curveTimes (r * w % curveN) (CurvePoint.mk x y 1))
    decide (q.z ≠ 0) && decide ((curveAffine q).1 % curveN = r)

/-- The signature of `msg` under a private key with the secret number `k` of this signature. -/
def ecdsaSign (key msg : List Byte) (k : Nat) : List Byte :=
  let r := (curveAffine (curveTimes k curveBase)).1 % curveN
  let s := invMod curveN k * (beNat (sha256 msg) + r * beNat key) % curveN
  beBytes 32 r ++ beBytes 32 s

end Sys2Proof.Machine
end

