-- ==== Sys2Proof/Machine/Lifecycle.lean ====
section
/-! DEFINITION. Life cycle, secrets and the signature policy (R505 to R516): transitions, tokens, erasure, keys and show data. -/
namespace Sys2Proof.Machine

/-- The code of a life-cycle state in 9000:01 (R505). -/
def LifeState.code : LifeState → Nat
  | .blank => 0
  | .provisioned => 1
  | .deployed => 2
  | .parked => 3
  | .opened => 4
  | .retired => 5

/-- The life-cycle state replaced, with source 176. -/
def setLife (s : State) (l : LifeState) : State :=
  if s.keys.life = l then s
  else
    let old := s.keys.life.code
    (({ s with keys := { s.keys with life := l } } : State).stset 0 0x9000 0x01 l.code).raise 176 (old * 256 + l.code) 0

/-- Blank or Opened: the bench key serves, the debug port is open (R505, R506). -/
def benchLife (s : State) : Bool := decide (s.keys.life = .blank ∨ s.keys.life = .opened)

/-! Sessions that end (R416) -/

/-- The staging state falls back where a transfer of A000:02 is cancelled. -/
def unstage (s : State) : State :=
  if s.upd.stage = 1 then ({ s with upd := { s.upd with stage := 0 } } : State).stset 0 0xA000 0x01 0 else s

/-- A session's transfer in progress cancelled: no part of it is written (R416). -/
def dropTransfer (s : State) (x : Session) : State :=
  match x.xfer with
  | some t => if t.index = 0xA000 then unstage s else s
  | none => s

/-- The sessions that `ends` names end; their accepted writes stay pending (R416). -/
def endSessions (s : State) (ends : Session → Bool) : State :=
  let s1 := (s.fol.sessions.filter ends).foldl dropTransfer s
  { s1 with fol := { s1.fol with sessions := s1.fol.sessions.filter (fun x => !ends x) } }

/-! Nonce, tokens and erasure (R511 to R514) -/

/-- The 16 bytes of a nonce drawn as number `n`. -/
def nonceBytes (n : Nat) : List Byte := beBytes 16 ((Config.draw n).toNat % 2 ^ 128)

/-- A new nonce drawn for 9000:06. -/
def newNonce (s : State) : State := ({ s with keys := { s.keys with nonceNo := s.draws } } : State).drawn

/-- A public root of 9020. -/
def rootKey (s : State) (sub : Nat) : List Byte := entBytes s.dom 0x9020 sub

/-- Whether a token is valid for an operation (R511). -/
def tokenOk (s : State) (op : Nat) (t : List Byte) : Bool :=
  decide (beAt t 0 8 = Config.uid.toNat) && decide (slice t 8 16 = nonceBytes s.keys.nonceNo) &&
    decide (beAt t 24 1 = op) && decide (beAt t 25 7 = 0) && ecdsaOk (rootKey s 0x02) (slice t 0 32) (slice t 32 64)

/-- The key store with every slot read back as zero (R513, steps 4 and 5). -/
def zeroised (k : KeyStore) : KeyStore :=
  { k with level := [], show_ := [], record := none, identity := none, roots := [] }

/-- The end of an erasure (R513, steps 4 to 6): `ok` says that the slots read back as zero within three attempts. -/
def finishErasure (s : State) (target : LifeState) (ok : Bool) : State :=
  let s1 : State := { s with keys := { zeroised s.keys with pendErase := none } }
  if ok then
    let n := satAdd 255 s1.keys.erasures 1
    let k := { s1.keys with erasures := n, fuse := s1.keys.fuse || decide (target = .retired) }
    setLife (({ s1 with keys := k } : State).stset 0 0x9000 0x07 n) target
  else (setLife s1 .retired).raise 177 0 0

/-- The erasure (R513): ring participation ends, every session and staged transfer ends, and the key store is zeroised. -/
def erase (s : State) (target : LifeState) (ok : Bool) : State :=
  let s1 := ringApply { s with keys := { s.keys with pendErase := some target } } 0
  finishErasure (endSessions s1 (fun _ => true)) target ok

/-- The checks of a token write after its length. -/
def tokenCheck (s : State) (op : Nat) (t : List Byte) : Nat :=
  if op = 1 then
    firstCode [need (decide (s.keys.life = .deployed)) Abort.lifeCycle,
      need (decide (s.sup.mod = .ready ∨ s.sup.mod = .failed)) Abort.conflict, need (tokenOk s 1 t) Abort.credential]
  else
    firstCode [need (decide (s.keys.life ≠ .retired)) Abort.lifeCycle,
      need (decide (s.keys.life = .blank) || tokenOk s 2 t) Abort.credential]

/-- A token written to 9000:04 (`op` 1) or 9000:05 (`op` 2): zero length is a no-operation (R406), another length than 96 no
token; after every token write the nonce is a new one (R511). -/
def tokenWrite (s : State) (op : Nat) (t : List Byte) (ok : Bool) : State :=
  if t.isEmpty then s
  else if 96 < t.length then s.abort Abort.tooLong
  else if t.length ≠ 96 then s.abort Abort.length
  else
    newNonce (s.attempt 0x9000 (tokenCheck s op t) (fun u => erase u (if op = 1 then .opened else .retired) ok))

/-! Transitions by a write of 1 (R508) -/

/-- Refusals of a write to 9000:02; a write of 0 matches no row of R508. -/
def provisionCheck (s : State) (v : Nat) : Nat :=
  firstCode [boolOk v, need (decide (v = 1) && benchLife s) Abort.lifeCycle,
    need (decide ([1, 2, 3, 4].all (fun l => !(mget [] s.keys.level l).isEmpty)) && s.keys.roots.contains 2) Abort.conflict]

/-- Provision: the identity key and the record key are drawn (R508); the identity key, a private key of P-256, lies in the range of
one (PRESUMED). -/
def provisionApply (s : State) : State :=
  let id := beBytes 32 (keyOfDraw s.drawOf.toNat)
  let s1 := s.drawn
  let rec_ := beBytes 32 s1.drawOf.toNat
  let s2 := s1.drawn
  setLife ({ s2 with keys := { s2.keys with identity := some id, record := some rec_ } } : State) .provisioned

/-- Refusals of a write to 9000:03. -/
def deployCheck (s : State) (v : Nat) : Nat :=
  firstCode [boolOk v, need (decide (v = 1) && decide (s.keys.life = .provisioned)) Abort.lifeCycle,
    need (!(rootKey s 0x01).isEmpty) Abort.conflict]

/-- Deploy: the signature policy rises to 1 when it is 0. -/
def deployApply (s : State) : State :=
  let s1 := if s.val 0 0x9030 0x01 = 0 then s.putNv 0 0x9030 0x01 1 else s
  setLife s1 .deployed

/-! Keys, roots and policy (R509, R510, R515, R516) -/

/-- The length checks of a DOMAIN that must be `n` bytes long, and no longer than `most`. -/
def exactLength (b : List Byte) (n : Nat) : Nat :=
  if n < b.length then Abort.tooLong else need (decide (b.length = n)) Abort.length

/-- Refusals of a key write (R510): in Parked with the state-conflict code; a Retired module holds no keys. -/
def keyCheck (s : State) (key : List Byte) : Nat :=
  firstCode [exactLength key 32, need (decide (s.keys.life ≠ .parked)) Abort.conflict,
    need (decide (s.keys.life ≠ .retired)) Abort.lifeCycle]

/-- A level key written: in Provisioned and Deployed, open sessions at that level end. -/
def levelKeyApply (s : State) (l : Nat) (key : List Byte) : State :=
  let s1 : State := { s with keys := { s.keys with level := mset [] s.keys.level l key } }
  if s1.keys.life = .provisioned ∨ s1.keys.life = .deployed then endSessions s1 (fun x => decide (x.level = l)) else s1

/-- Refusals of a root write (R505). -/
def rootCheck (s : State) (b : List Byte) : Nat :=
  firstCode [exactLength b 64,
    need (decide (s.keys.life = .blank ∨ s.keys.life = .provisioned ∨ s.keys.life = .opened)) Abort.lifeCycle]

/-- A root written, and known as written since the last erasure. -/
def rootApply (s : State) (sub : Nat) (b : List Byte) : State :=
  let s1 := s.putBytesNv 0x9020 sub b
  { s1 with keys := { s1.keys with roots := setAdd sub s1.keys.roots } }

/-- Refusals of a write to 9030:01 (R505, R515). -/
def policyCheck (s : State) (v : Nat) : Nat :=
  firstCode [rangeOk (v : Int) 0 2,
    need (decide (v ≠ 0) || decide (s.keys.life = .blank ∨ s.keys.life = .provisioned ∨ s.keys.life = .opened)) Abort.lifeCycle]

/-- Refusals of a write to 9030:02: it only rises. -/
def svnCheck (s : State) (v : Nat) : Nat :=
  firstCode [need (decide (v < 2 ^ 32)) Abort.length, need (decide (s.val 0 0x9030 0x02 ≤ v)) Abort.range]

/-- Whether an image may be used (R515, R516). -/
def imageOk (s : State) (i : ImageInfo) : Bool :=
  i.vendorSig && (decide (s.val 0 0x9030 0x01 ≠ 2) || i.counterSig) && decide (s.val 0 0x9030 0x02 ≤ i.svn)

/-! Show data (R509, R515) -/

/-- The plaintext of a load of show data; none where the policy refuses it or its tag fails. -/
def showPlain (s : State) (key : Option Nat) (nonce data tag : List Byte) : Option (List Byte) :=
  match key with
  | none => if s.val 0 0x9030 0x01 = 0 then some data else none
  | some k => if (mget [] s.keys.show_ k).isEmpty then none else gcmOpen (mget [] s.keys.show_ k) nonce data tag

/-- Whether bytes lie in the range of show data (R278: the layout is fixed). -/
def inShowRange (a n : Nat) : Bool := decide (0x01E0000000 ≤ a ∧ a + n ≤ 0x02C0000000)

/-- A load of show data to address `a` of slot 1; in idle self-refresh it waits for the exit (R303). -/
def showLoad (s : State) (key : Option Nat) (nonce data tag : List Byte) (a : Nat) : State :=
  match showPlain s key nonce data tag with
  | none => (s.abort Abort.signature).raise 178 0 0
  | some b =>
    if decide (s.dram.state = 2 ∨ s.dram.state = 3) && inShowRange a b.length then
      dramBurst s a b (List.replicate b.length true)
    else s

/-! The identity range (R525) -/

/-- 9011:01. -/
def identityPublic (s : State) : List Byte :=
  match s.keys.identity with
  | some k => publicKey k
  | none => []

/-- 9011:02: the UID, then a signature by the identity key over the UID and the current challenge. -/
def attestation (s : State) : List Byte :=
  let uid := beBytes 8 Config.uid.toNat
  match s.keys.identity with
  | some k =>
    let m := uid ++ nonceBytes s.keys.nonceNo
    uid ++ ecdsaSign k m (keyOfDraw (Config.signNonce s.clk.tick m).toNat)
  | none => []

/-- The record key in force (R494): the bench record key in Blank and Opened. -/
def recordKey (s : State) : List Byte :=
  if benchLife s then List.replicate 32 0#8
  else
    match s.keys.record with
    | some k => k
    | none => List.replicate 32 0#8

/-! The commands -/

/-- PROVISION. -/
def execProvision (value : Nat) (s : State) : Host.Outcome State Fault Refusal :=
  done (s.attempt 0x9000 (provisionCheck s value) provisionApply)

/-- DEPLOY. -/
def execDeploy (value : Nat) (s : State) : Host.Outcome State Fault Refusal :=
  done (s.attempt 0x9000 (deployCheck s value) deployApply)

/-- OPEN_MODULE: a token written to 9000:04. -/
def execOpenModule (token : List Byte) (erasureOk : Bool) (s : State) : Host.Outcome State Fault Refusal :=
  done (tokenWrite s 1 token erasureOk)

/-- RETIRE_MODULE: a token written to 9000:05. -/
def execRetireModule (token : List Byte) (erasureOk : Bool) (s : State) : Host.Outcome State Fault Refusal :=
  done (tokenWrite s 2 token erasureOk)

/-- LEVEL_KEY_WRITE: zero length is a no-operation (R406). -/
def execLevelKeyWrite (level : Nat) (key : List Byte) (s : State) : Host.Outcome State Fault Refusal :=
  done (
    if 1 ≤ level ∧ level ≤ 4 then
      if key.isEmpty then s else s.attempt 0x9010 (keyCheck s key) (fun t => levelKeyApply t level key)
    else s.abort Abort.noSub)

/-- SHOW_KEY_WRITE. -/
def execShowKeyWrite (slot : Nat) (key : List Byte) (s : State) : Host.Outcome State Fault Refusal :=
  done (
    if slot < 16 then
      if key.isEmpty then s
      else s.attempt 0x9010 (keyCheck s key) (fun t => { t with keys := { t.keys with show_ := mset [] t.keys.show_ slot key } })
    else s.abort Abort.noSub)

/-- SIGNATURE_POLICY_WRITE. -/
def execSignaturePolicyWrite (policy : Nat) (s : State) : Host.Outcome State Fault Refusal :=
  done (s.attempt 0x9030 (policyCheck s policy) (fun t => t.putNv 0 0x9030 0x01 policy))

/-- MINIMUM_SVN_WRITE. -/
def execMinimumSvnWrite (svn : Nat) (s : State) : Host.Outcome State Fault Refusal :=
  done (s.attempt 0x9030 (svnCheck s svn) (fun t => t.putNv 0 0x9030 0x02 svn))

/-- SHOW_DATA_LOAD. -/
def execShowDataLoad (key : Option Nat) (nonce data tag : List Byte) (addr : Nat) (s : State) :
    Host.Outcome State Fault Refusal :=
  done (showLoad s key nonce data tag addr)

end Sys2Proof.Machine
end

