-- ==== Sys2Proof/Machine/Update.lean ====
section
/-! DEFINITION. Updates while rendering (R517 to R521): staging, installation, the live switch of the Reckoner pairs, the rotation of
the Frames, commit and revert. -/
namespace Sys2Proof.Machine

/-- A000:01 replaced. -/
def setStage (s : State) (v : Nat) : State :=
  ({ s with upd := { s.upd with stage := v } } : State).stset 0 0xA000 0x01 v

/-- A000:0C: the Frames that hold the new firmware. -/
def framesWord (s : State) : Nat := s.upd.frames.foldl (fun w f => w + 2 ^ f) 0

/-- The Frames that hold the new firmware replaced. -/
def setUpdated (s : State) (fs : List Nat) : State :=
  let s1 : State := { s with upd := { s.upd with frames := fs } }
  s1.stset 0 0xA000 0x0C (framesWord s1)

/-! Staging and installation (R517) -/

/-- Refusals of a staged image by its length, and while another image is on trial. -/
def stagedCheck (s : State) (length : Nat) : Nat :=
  firstCode [need (decide (length ≤ 16777216)) Abort.tooLong, need (decide (s.upd.stage ≠ 6)) Abort.conflict]

/-- An image staged and judged by R515 and R516: verified or refused. -/
def stagedApply (s : State) (i : ImageInfo) : State :=
  let s1 : State := { s with upd := { s.upd with image := some i } }
  let s2 := ((s1.stset 0 0xA000 0x08 i.version).stset 0 0xA000 0x09 i.svn).stset 0 0xA000 0x0A i.occ
  if imageOk s i then (setStage s2 2).raise 179 2 0
  else (((setStage s2 3).raise 179 3 0).abort Abort.signature).raise 178 0xA00002 0

/-- The directory's highest sequence number. -/
def topSeq (s : State) : Nat :=
  max ((s.nv.imgA.map (fun i => i.seq)).getD 0) ((s.nv.imgB.map (fun i => i.seq)).getD 0)

/-- Refusals of a write to A000:03. -/
def installCheck (s : State) (v : Nat) : Nat :=
  firstCode [boolOk v, need (decide (v = 0) || (decide (s.upd.stage = 2) && s.upd.image.isSome)) Abort.conflict]

/-- An image of the directory replaced: `b` names image B. -/
def setImage (s : State) (b : Bool) (i : Option ImageInfo) : State :=
  if b then { s with nv := { s.nv with imgB := i } } else { s with nv := { s.nv with imgA := i } }

/-- An image of the directory. -/
def imageAt (s : State) (b : Bool) : Option ImageInfo := if b then s.nv.imgB else s.nv.imgA

/-- A verified image copied into the region not running, as Trial with the higher sequence number. -/
def installApply (s : State) (v : Nat) : State :=
  match v, s.upd.image with
  | 1, some i =>
    let b := !s.sup.imgB
    let s1 := setImage s b (some { i with state := 1, seq := topSeq s + 1 })
    setStage { s1 with upd := { s1.upd with intoB := b }, nv := { s1.nv with attempts := 0 } } 4
  | _, _ => s

/-! The live switch (R518, R519) -/

/-- Refusals of a write to A000:04. -/
def liveCheck (s : State) (v : Nat) : Nat :=
  let occ := (s.upd.image.map (fun i => i.occ)).getD 0
  firstCode [boolOk v,
    need (decide (v = 0) ||
      (decide (s.upd.stage = 4) && s.sup.pairA && s.sup.pairB && s.rot.isNone && decide (s.sup.mod ≠ .parked) &&
        decide (s.sup.mod ≠ .shutdownTest) && !decide (1 ≤ s.sup.targState ∧ s.sup.targState ≤ 3) &&
        (!s.flag 0x1100 0x03 || decide (occ = s.stget 0 0xA000 0x0B)))) Abort.conflict]

/-- A live switch requested for apply block `a`. -/
def liveApply (s : State) (v a : Nat) : State :=
  if v = 0 then s
  else
    let s1 : State := { s with upd := { s.upd with
      switchAt := some a, loading := true, loaded := false, frames := [], doneAt := none, reverting := false } }
    (s1.stset 0 0xA000 0x0C 0).put 0 0xA000 0x04 1

/-- The entries that name the firmware in force (1000:07 to 1000:09, A000:0B). -/
def imageStatus (s : State) (i : ImageInfo) (b : Bool) : State :=
  (((({ s with sup := { s.sup with image := some i, imgB := b } } : State).stset 0 0x1000 0x07 i.version).stset 0 0x1000
    0x08 i.renderVer).stset 0 0x1000 0x09 (b2n b)).stset 0 0xA000 0x0B i.occ

/-- The switch at a tick boundary (R518, R519): at or after A once the idle pair has loaded; while rendering is off, both pairs
and every Rod at A itself. -/
def liveSwitchTick (s : State) : State :=
  match s.upd.switchAt, s.upd.image with
  | some a, some i =>
    let off := !s.flag 0x1100 0x03
    if s.clk.tick < a || !(off || s.upd.loaded) then s
    else
      let s1 : State := { s with
        sup := { s.sup with servingB := s.sup.servingB != !off },
        upd := { s.upd with switchAt := none, loading := false, startX := s.clk.tick } }
      let s2 := (setStage (imageStatus (s1.put 0 0xA000 0x04 0) i s1.upd.intoB) 6).raise 180 (s1.clk.tick % 2 ^ 32) 0
      if off then
        let s3 := setUpdated s2 (List.range 8)
        { s3 with upd := { s3.upd with doneAt := some s3.clk.tick } }
      else s2
  | _, _ => s

/-! The rotation of the Frames (R520) -/

/-- The in-service Frame of lowest number that still runs the firmware being replaced. -/
def oldFrame (s : State) : Option Nat :=
  (framesIn s).find? (fun f => if s.upd.reverting then s.upd.frames.contains f else !s.upd.frames.contains f)

/-- The relieved spare, loaded with the firmware being brought in. -/
def loadSpare (s : State) : State :=
  match spareFrame s with
  | some q => setUpdated s (if s.upd.reverting then setDel q s.upd.frames else setAdd q s.upd.frames)
  | none => s

/-- Rotations made since the switch. -/
def rotationsMade (s : State) : Nat :=
  if s.upd.reverting then 7 - s.upd.frames.length else s.upd.frames.length - 1

/-- The next old Frame rotated out at this boundary (R520, R225), when its interval has come; the render part is complete once no
Frame holds the old firmware. -/
def updateRotation (s : State) : State :=
  let busy := s.upd.stage = 6 ∧ s.upd.doneAt.isNone ∨ s.upd.reverting
  if ¬ busy then s
  else if s.rot.isSome then s
  else
    let s1 := loadSpare s
    match oldFrame s1, spareFrame s1 with
    | some f, some q =>
      if s1.upd.startX + (rotationsMade s1 + 1) * s1.val 3000 0xA000 0x07 ≤ s1.clk.tick then
        rotationSwitch { s1 with rot := some (Rotation.mk f q 2 s1.clk.tick false) }
      else s1
    | some _, none => s1
    | none, _ =>
      if s1.upd.reverting then { s1 with upd := { s1.upd with reverting := false } }
      else { s1 with upd := { s1.upd with doneAt := some s1.clk.tick } }

/-- While rendering is off, the Frames that kept the old firmware for want of a spare are loaded (R520). -/
def loadIdleFrames (s : State) : State :=
  if s.upd.stage = 6 && s.upd.doneAt.isNone && !s.flag 0x1100 0x03 && s.rot.isNone then
    let s1 := setUpdated s (List.range 8)
    { s1 with upd := { s1.upd with doneAt := some s1.clk.tick } }
  else s

/-! Commit and revert (R521) -/

/-- Refusals of a write to A000:05 or A000:06: only on trial. -/
def trialCheck (s : State) (v : Nat) : Nat :=
  firstCode [boolOk v, need (decide (v = 0) || decide (s.upd.stage = 6)) Abort.conflict]

/-- The commit: the image Good, the minimum SVN raised (R516), the old pair in lockstep with the new firmware. -/
def commitNow (s : State) : State :=
  let b := s.upd.intoB
  let i := imageAt s b
  let s1 := setImage s b (i.map (fun x => { x with state := 0 }))
  let svn := (i.map (fun x => x.svn)).getD 0
  let s2 := if s1.val 1 0x9030 0x03 = 1 ∧ s1.val 0 0x9030 0x02 < svn then s1.putNv 0 0x9030 0x02 svn else s1
  (setStage s2 7).raise 181 (s2.stget 0 0xA000 0x08) 0

/-- The revert: the old pair serves again, the Frames are rotated back, and the new image is Failed. -/
def revertNow (s : State) : State :=
  let b := s.upd.intoB
  let s1 := setImage s b ((imageAt s b).map (fun x => { x with state := 2 }))
  let s2 : State := { s1 with
    sup := { s1.sup with servingB := !s1.sup.servingB },
    upd := { s1.upd with reverting := true, startX := s1.clk.tick, doneAt := none } }
  let s3 := match imageAt s2 (!b) with
    | some i => imageStatus s2 i (!b)
    | none => s2
  (setStage s3 0).raise 182 (s3.stget 0 0xA000 0x08) 0

/-! The commands -/

/-- STAGED_IMAGE_WRITE: zero length is a no-operation (R406). -/
def execStagedImageWrite (image : ImageInfo) (length : Nat) (s : State) : Host.Outcome State Fault Refusal :=
  done (if length = 0 then s else s.attempt 0xA000 (stagedCheck s length) (fun t => stagedApply t image))

/-- INSTALL. -/
def execInstall (value : Nat) (s : State) : Host.Outcome State Fault Refusal :=
  done (s.attempt 0xA000 (installCheck s value) (fun t => installApply t value))

/-- LIVE_SWITCH: a write of A000:04 accepted without an apply time. -/
def execLiveSwitch (value : Nat) (s : State) : Host.Outcome State Fault Refusal :=
  done (s.attempt 0xA000 (liveCheck s value) (fun t => liveApply t value (t.clk.tick + 2)))

/-- RECKONER_LOAD_COMPLETE. -/
def execReckonerLoadComplete (s : State) : Host.Outcome State Fault Refusal :=
  done (if s.upd.loading then { s with upd := { s.upd with loaded := true } } else s)

/-- UPDATE_ROTATION. -/
def execUpdateRotation (s : State) : Host.Outcome State Fault Refusal := done (updateRotation s)

/-- UPDATE_COMMIT. -/
def execUpdateCommit (value : Nat) (s : State) : Host.Outcome State Fault Refusal :=
  done (s.attempt 0xA000 (trialCheck s value) (fun t => if value = 1 then commitNow t else t))

/-- AUTOMATIC_COMMIT: A000:0D seconds after the render part is complete. -/
def execAutomaticCommit (s : State) : Host.Outcome State Fault Refusal :=
  done (
    let n := s.val 600 0xA000 0x0D
    match s.upd.doneAt with
    | some t => if s.upd.stage = 6 ∧ n ≠ 0 ∧ t + 3000 * n ≤ s.clk.tick then commitNow s else s
    | none => s)

/-- UPDATE_REVERT. -/
def execUpdateRevert (value : Nat) (s : State) : Host.Outcome State Fault Refusal :=
  done (s.attempt 0xA000 (trialCheck s value) (fun t => if value = 1 then revertNow t else t))

end Sys2Proof.Machine
end

