-- ==== Sys2Proof/Machine/Status.lean ====
section
/-! DEFINITION. The status entries that follow from the state of the module (R408): brought up to date at every tick boundary and at the
end of a start. -/
namespace Sys2Proof.Machine

/-- Several entries set: default, index, subindex, value. -/
def stAll (s : State) (l : List (Nat × Nat × Nat × Nat)) : State :=
  l.foldl (fun s e => s.stset e.1 e.2.1 e.2.2.1 e.2.2.2) s

/-- The code of a module state (R475). -/
def ModState.code : ModState → Nat
  | .booting => 0
  | .startTest => 1
  | .ready => 2
  | .rendering => 3
  | .shutdownTest => 4
  | .halted => 5
  | .parked => 6
  | .failed => 7
  | .recovery => 8

/-! Channels silenced (1100:0C) -/

/-- The input channels that are silent or ramping (R43, R44). -/
def silentInputs (s : State) : List Nat :=
  (rxCommitSlots s).flatMap (fun i => ((List.range 64).filter (fun c =>
    (rxSource s.dict s.dom i c).isSome && Fade.silenced (mget FadeCh.rising (rxOf s i).fades c).fade)).map (fun c => i * 64 + c)) ++
  (List.range 32).filterMap (fun c =>
    let r := aesOf s (c / 2)
    if aesMode s (c / 2) ≠ 0 && Fade.silenced (if c % 2 = 0 then r.fadeA else r.fadeB).fade then some (0x1000 + c) else none) ++
  (List.range 8).filterMap (fun m => if pdmLive s m && Fade.silenced (pdmOf s m).fade.fade then some (0x2000 + m) else none)

/-- The objects and feeds that are silent or ramping. -/
def silentRender (s : State) : List Nat :=
  (s.pipe.inMiss.filter (fun e => Fade.silenced e.2)).map (fun e => 0x3000 + e.1) ++
  (s.pipe.objs.filter (fun e => Fade.silenced e.2.pfade)).map (fun e => 0x4000 + e.1) ++
  (s.pipe.feeds.filter (fun e => Fade.silenced e.2.dm.fade)).map (fun e => 0x5000 + e.1) ++
  (s.pipe.feeds.filter (fun e => Fade.silenced e.2.ob.fade)).map (fun e => 0x6000 + e.1)

/-- The outputs that are silent or ramping, the channels of user slots among them (R230). -/
def silentOutputs (s : State) : List Nat :=
  ((List.range 64).filter (fun i => decide ((txShape s i).1 ≠ 0) && Fade.silenced (txOf s i).miss)).map (fun i => 0x7000 + i) ++
  ((List.range 32).filter (fun c => aesOutOn s (c / 2) &&
    Fade.silenced (mget FadeCh.rising s.aesOut c).fade)).map (fun c => 0x8000 + c) ++
  ((List.range 16).filter (fun n => decide (ent (s.dictAt 3) 0xFFFF (0x5000 + n) 0x02 ≠ 0xFFFF) &&
    Fade.silenced (s.drive n).fade.fade)).map (fun n => 0x9000 + n) ++
  s.slots.flatMap (fun e => (e.2.fades.filter (fun c => Fade.silenced c.2.fade)).map (fun c => 0xA000 + 8 * e.1 + c.1))

/-- The channels that are silent or ramping, all stages: those that are silent now, and those that were at the last boundary and
take their rising ramp. -/
def silentNow (s : State) : List Nat :=
  if s.pipe.rendering then silentInputs s ++ silentRender s ++ silentOutputs s else []

/-- 1100:02, :04 and :0C. -/
def rateStatus (s : State) : State :=
  let now := silentNow s
  let all := now ++ s.pipe.silent.filter (fun c => !now.contains c)
  stAll { s with pipe := { s.pipe with silent := now } }
    [(32, 0x1100, 0x02, s.n), (0, 0x1100, 0x04, s.clk.tick), (0, 0x1100, 0x0C, min 65535 all.length)]

/-! Identity, sessions and time -/

/-- Whether a write in `pend` has acted already and waits for the partner's verdict alone (R426, R433). -/
def actedPending (p : Pending) : Bool :=
  p.await && (match rowOf p.index p.sub with
    | some r => r.atOnce
    | none => false)

/-- The pending writes (R443). -/
def pendCount (s : State) : Nat := (s.pend.filter (fun p => !actedPending p)).length

/-- 1010:01 to :05, 1020:05 and :0B. -/
def identStatus (s : State) : State :=
  stAll s [(0, 0x1010, 0x01, s.sup.mod.code), (0, 0x1010, 0x02, s.sup.sinceMs + (s.clk.tick - s.sup.sinceT) / 3),
    (0, 0x1010, 0x03, toPat 16 s.power.temp), (0, 0x1010, 0x04, s.power.vinMv), (0, 0x1010, 0x05, s.power.powerMw),
    (0, 0x1020, 0x05, s.fol.sessions.length), (0, 0x1020, 0x0B, pendCount s), (0, 0x1040, 0x03, s.gpio)]

/-- 1030+k: the session in place k, zeros where there is none. -/
def sessionStatus (s : State) : State :=
  (List.range 16).foldl (fun s k =>
    match s.fol.sessions.find? (fun x => decide (x.slot = k)) with
    | some x => stAll s [(0, 0x1030 + k, 0x01, x.level), (0, 0x1030 + k, 0x02, x.port), (0, 0x1030 + k, 0x03, x.addr),
        (0, 0x1030 + k, 0x04, toPat 64 x.opened)]
    | none => stAll s [(0, 0x1030 + k, 0x01, 0), (0, 0x1030 + k, 0x02, 0), (0, 0x1030 + k, 0x03, 0), (0, 0x1030 + k, 0x04, 0)]) s

/-- 2010:01 to :04 and :06; 2010:0A runs on in Holdover. -/
def timeStatus (s : State) : State :=
  let s1 := stAll s [(0, 0x2010, 0x01, s.time.state.code), (0, 0x2010, 0x02, toPat 64 s.netTime), (0, 0x2010, 0x03, toPat 64 s.clk.local),
    (0, 0x2010, 0x04, toPat 64 (s.clk.epochFor s.clk.tick)), (0, 0x2010, 0x06, arg32 s.time.rate)]
  if s.time.state = .holdover then s1.stset 0 0x2010 0x0A ((s.clk.tick - s.time.holdTick) / 3000) else s1

/-! Render -/

/-- 3000+o:07 to :0C. -/
def objectStatus (s : State) : State :=
  let cleared : State := { s with stat := s.stat.filter (fun e =>
    !(decide (key 0x3000 0 ≤ e.1 ∧ e.1 < key 0x3200 0 ∧ 0x07 ≤ e.1 % 256 ∧ e.1 % 256 ≤ 0x0C))) }
  s.pipe.objs.foldl (fun s e =>
    let i := 0x3000 + e.1
    let o := e.2
    stAll s [(0, i, 0x07, arg32 o.x), (0, i, 0x08, arg32 o.y), (0, i, 0x09, arg32 o.z), (0, i, 0x0A, if o.placed then o.law else 0),
      (0, i, 0x0B, o.active), (0, i, 0x0C, o.queue.length)]) cleared

/-! Rods, Frames, Tally and Slide engines -/

/-- The code of a Frame state (R193). -/
def FrameState.code : FrameState → Nat
  | .inService => 0
  | .spare => 1
  | .loading => 2
  | .retired => 3
  | .fenced => 4

/-- 7040+r:01. -/
def rodCode (r : Rod) : Nat :=
  if r.fenced then 4 else if r.retired then 5
  else
    match r.st with
    | .stopped => 0
    | .running => 1
    | .waiting => 2
    | .faulted => 3

/-- 7040+r:02 at reset (R193, R194). -/
def rodRoleAtReset (r : Nat) : Nat := if r / 8 = 7 then 0 else if r % 8 = 7 then 2 else 1

/-- 7000:01, :02, :04, :07 and :08. -/
def computeStatus (s : State) : State :=
  let raw := (List.range 8).find? (fun f => decide (frameOf s f = .spare))
  stAll s [(0x7F, 0x7000, 0x01, (framesIn s).foldl (fun w f => w + 2 ^ f) 0), (7, 0x7000, 0x02, raw.getD 0xFF),
    (0, 0x7000, 0x04, (s.rot.map (fun k => k.phase)).getD 0), (49, 0x7000, 0x07, renderRods s), (7, 0x7000, 0x08, transformRods s)]

/-- 7010+f:01 and :03. -/
def frameStatus (s : State) : State :=
  (List.range 8).foldl (fun s f =>
    let flags := (List.range 8).foldl (fun w m => w + b2n (s.rod (8 * f + m)).health * 2 ^ m) 0
    stAll s [(if f = 7 then 1 else 0, 0x7010 + f, 0x01, (frameOf s f).code), (0, 0x7010 + f, 0x03, flags)]) s

/-- 7040+r:01 to :03. -/
def rodStatus (s : State) : State :=
  allRods.foldl (fun s r =>
    stAll s [(0, 0x7040 + r, 0x01, rodCode (s.rod r)), (rodRoleAtReset r, 0x7040 + r, 0x02, rodRole s r),
      (0, 0x7040 + r, 0x03, b2n (s.rod r).health)]) s

/-- 7080+u:03 and :04. -/
def slotStatus (s : State) : State :=
  (List.range 16).foldl (fun s u =>
    stAll s [(0, 0x7080 + u, 0x03, (slotOfNo s u).state), (0xFF, 0x7080 + u, 0x04, ((slotOfNo s u).rod).getD 0xFF)]) s

/-- 70C0:01, :07, :10+q and :50+q. -/
def tallyStatus (s : State) : State :=
  let s1 := s.stset 0 0x70C0 0x01 (heldItems s).length
  (List.range 64).foldl (fun s q =>
    stAll s [(0, 0x70C0, 0x10 + q, (s.queue q).items.length), (2, 0x70C0, 0x50 + q, (s.queue q).cfg.toNat)]) s1

/-- The code of a Slide engine state. -/
def SlideState.code : SlideState → Nat
  | .inService => 0
  | .spare => 1
  | .retired => 2
  | .fenced => 3

/-- 7020+i:01. -/
def slideStatus (s : State) : State :=
  (List.range 18).foldl (fun s i => s.stset (if i < 16 then 0 else 1) (0x7020 + i) 0x01 (slideOf s i).st.code) s

/-! DRAM, self-test, life cycle -/

/-- The code of a rank state. -/
def RankState.code : RankState → Nat
  | .inService => 0
  | .spareReady => 1
  | .spareTesting => 2
  | .migFrom => 3
  | .migTo => 4
  | .retired => 5
  | .failed => 6

/-- 7410:01, 7420+p:01 and :02. -/
def dramStatus (s : State) : State :=
  (List.range 4).foldl (fun s p =>
    stAll s [(if p = 3 then 1 else 0, 0x7420 + p, 0x01, (rankOf s p).state.code),
      (if p = 3 then 0xFF else p, 0x7420 + p, 0x02, ((rankOf s p).slot).getD 0xFF)]) (s.stset 0 0x7410 0x01 s.dram.state)

/-- The range 8000–80FF (R504). -/
def healthStatus (s : State) : State :=
  stAll s [(0, 0x8000, 0x01, s.sup.health), (0, 0x8000, 0x03, s.sup.recState), (0, 0x8000, 0x05, s.sup.testStep),
    (0, 0x8000, 0x06, s.nv.recs.foldl (fun m r => max m r.seq) 0), (0, 0x8000, 0x07, s.sup.startMs), (0, 0x8000, 0x08, s.sup.startKind),
    (0, 0x8000, 0x09, s.sup.fences.length), (0, 0x8000, 0x0C, s.nv.attempts), (0, 0x8000, 0x0D, b2n s.sup.library),
    (0, 0x8020, 0x03, s.sup.targState), (0, 0x8020, 0x04, s.sup.targOut), (0, 0x8020, 0x05, s.sup.targNs), (0, 0x8020, 0x06, s.sup.targSig)]

/-- 6000:09, 9000:01 and :07. -/
def lifeStatus (s : State) : State :=
  stAll s [(0, 0x6000, 0x09, s.sup.twinId), (0, 0x9000, 0x01, s.keys.life.code), (0, 0x9000, 0x07, s.keys.erasures)]

/-! Status DOMAINs -/

/-- A unit entry (R491). -/
def unitBytes (u : UnitResult) : List Byte :=
  leBytes 2 u.unit ++ leBytes 1 u.outcome ++ leBytes 1 u.lanes ++ leBytes 4 u.patterns ++ leBytes 8 u.sig

/-- Bytes 0 to 31 of a record with a STATE (R490). -/
def recordHead (r : Record) (state : Nat) : List Byte :=
  leBytes 4 0x54524543 ++ leBytes 2 r.format ++ leBytes 1 r.kind ++ leBytes 1 state ++ leBytes 8 r.uid ++ leBytes 8 r.seq ++
    leBytes 8 r.start

/-- Bytes 32 to 79 + 16n of a record. -/
def recordBody (r : Record) : List Byte :=
  leBytes 4 r.duration ++ leBytes 2 (toPat 16 r.tempMin) ++ leBytes 2 (toPat 16 r.tempMax) ++ leBytes 4 r.vinMin ++
    leBytes 4 r.vcore ++ leBytes 4 r.patterns ++ leBytes 2 r.stuckAt ++ leBytes 2 r.transition ++ leBytes 8 r.finalSig ++
    leBytes 8 r.expected ++ leBytes 4 r.result ++ leBytes 4 r.units.length ++ r.units.flatMap unitBytes

/-- SEAL (R493): the first 16 bytes of the HMAC under the record key, with STATE taken as 0x3F. -/
def sealOf (key : List Byte) (r : Record) : List Byte := (hmac key (recordHead r 0x3F ++ recordBody r)).take 16

/-- A record as stored (8000:0B): while it is In progress, only its first 32 bytes are written. -/
def storedRecord (r : Record) : List Byte :=
  if r.state = 0x7F then recordHead r 0x7F else recordHead r r.state ++ recordBody r ++ r.sealed

/-- 70E1:01 from the priority of each pair (R268). -/
def priorityBytes (pri : Nat → Nat → Nat) : List Byte :=
  (List.range 32).flatMap (fun m => (List.range 12).map (fun k => BitVec.ofNat 8 (pri m (2 * k) + 16 * pri m (2 * k + 1))))

/-- The status DOMAINs with what they hold now: channel status, band levels, user-slot reports, Beam priorities, the fenced units, the
last record and the stored copy of the log. -/
def statusDomains (s : State) : List (Nat × List Byte) :=
  (s.dom.filter (fun e => decide ((key 0x2410 0x09 ≤ e.1 ∧ e.1 ≤ key 0x241F 0x0B ∧ 9 ≤ e.1 % 256 ∧ e.1 % 256 ≤ 11) ∨
    (key 0x44C0 0 ≤ e.1 ∧ e.1 < key 0x4500 0)))) ++
  (s.slots.map (fun e => (key (0x7080 + e.1) 0x1B, e.2.report))) ++
  [(key 0x70E1 0x01, priorityBytes (beamPri s)), (key 0x8000 0x0A, s.sup.fences.flatMap (fun u => beBytes 2 u)),
    (key 0x8000 0x0B, (s.nv.recs.head?.map storedRecord).getD []), (key 0xB100 0x08, s.nv.stored.flatMap recordBytes)]

/-- The counters and status entries as of this boundary taken (R408). -/
def takeStatus (s : State) : State := { s with statB := StatusB.mk s.stat (statusDomains s) }

/-- The count of 7410:09 as of this boundary taken (R408). -/
def takeNeighbours (s : State) : State := { s with dram := { s.dram with neighB := s.dram.neigh } }

/-- Every status entry brought up to date, and taken as of this boundary (R408). -/
def statusOf (s : State) : State :=
  let s1 := timeStatus (sessionStatus (identStatus (rateStatus (judgeHealth s))))
  let s2 := slideStatus (tallyStatus (slotStatus (rodStatus (frameStatus (computeStatus (objectStatus s1))))))
  takeNeighbours (takeStatus (lifeStatus (healthStatus (dramStatus (twinStatus s2)))))

end Sys2Proof.Machine
end

