-- ==== Sys2Proof/Machine/SelfTest.lean ====
section
/-! DEFINITION. Self-test records and what a test does to the units it finds failing (R485 to R496), the power-on check of DRAM and
Ledger (R276, R283 to R287), the shutdown self-test and the targeted test as ticks pass. -/
namespace Sys2Proof.Machine

/-- The module state replaced (R475). -/
def setMod (s : State) (m : ModState) : State :=
  ({ s with sup := { s.sup with mod := m } } : State).stset 0 0x1010 0x01 m.code

/-- The READY ball (R475). -/
def readyBall (s : State) : Bool := decide (s.sup.mod = .ready ∨ s.sup.mod = .rendering)

/-! Outcomes of units (R491, R492, R495) -/

/-- The entry of a unit as judged against what the image expects (R492): logic passes when pattern count and signature both equal the
expected ones. A unit not tested keeps bit [3] alone. -/
def judgeUnit (expected : List UnitResult) (u : UnitResult) : UnitResult :=
  let pass := match expected.find? (fun e => decide (e.unit = u.unit)) with
    | some e => decide (e.patterns = u.patterns) && decide (e.sig = u.sig)
    | none => false
  if bitOf u.outcome 3 then { u with outcome := 8 }
  else { u with outcome := u.outcome / 2 % 4 * 2 + b2n (!pass) }

/-- Whether an entry is that of a failing unit: logic failed, or memory failed and not repaired. -/
def unitFails (u : UnitResult) : Bool := bitOf u.outcome 0 || bitOf u.outcome 2

/-- Whether an outcome fences its unit (R495): on a Rod, a failed Bead or a memory word with two or more failing bits. -/
def unitFenced (u : UnitResult) : Bool :=
  if bitOf u.outcome 3 then true
  else if u.unit < 64 then decide (u.lanes ≠ 0) || (bitOf u.outcome 2 && !u.oneBit)
  else unitFails u

/-- Whether an outcome sets the health flag of a Rod (R30, R495). -/
def unitHealth (u : UnitResult) : Bool :=
  decide (u.unit < 64) && !unitFenced u && (u.oneBit || unitFails u)

/-- The step of R486 that tests a unit. -/
def stepOf (unit : Nat) : Nat :=
  if unit < 0x100 then (if unit < 32 then 1 else 2)
  else if unit < 0x200 then (if unit < 0x104 then 1 else 2)
  else if unit < 0x300 then 3
  else if unit < 0x400 then 4
  else if unit < 0x500 then 5
  else if unit < 0x600 then 6
  else if unit < 0x700 then 7
  else if unit < 0x800 then 8
  else 9

/-! The record (R490 to R494) -/

/-- The bytes over which FINAL_SIG and EXPECTED are formed (R492). -/
def sigBytes (l : List UnitResult) : List Byte := l.flatMap (fun u => leBytes 4 u.patterns ++ leBytes 8 u.sig)

/-- RESULT (R490): a bit for each step with a failing unit, [30] by R489, [31] where the signatures agree. -/
def resultWord (units : List UnitResult) (final expected : Nat) (outside : Bool) : Nat :=
  let steps := (List.range 9).foldl (fun w k => w + b2n (units.any (fun u => unitFails u && decide (stepOf u.unit = k + 1))) * 2 ^ k) 0
  steps + b2n outside * 2 ^ 30 + b2n (decide (final = expected)) * 2 ^ 31

/-- Whether a test saw VIN below 4.5 V, or the die outside its operating range (R489): −20 °C up to the warning level. -/
def outsideRange (o : TestObs) : Bool := decide (o.vinMin < 4500) || decide (o.tempMin < -200) || decide (1100 ≤ o.tempMax)

/-- SEQ of the next record: one above the previous record's. -/
def nextRecordSeq (s : State) : Nat := s.nv.recs.foldl (fun m r => max m r.seq) 0 + 1

/-- The header that is written when a test starts (R490), STATE In progress. -/
def startRecord (s : State) (kind : Nat) : Record where
  format   := 1
  kind     := kind
  state    := 0x7F
  uid      := Config.uid.toNat
  seq      := nextRecordSeq s
  start    := if s.time.state = .free then 0 else toPat 64 s.netTime
  duration := 0
  tempMin  := 0
  tempMax  := 0
  vinMin   := 0
  vcore    := 0
  patterns := 0
  stuckAt  := 0
  transition := 0
  finalSig := 0
  expected := 0
  result   := 0
  units    := []
  sealed   := []

/-- A record replaces the older of the two slots (R479, R490); the newer comes first. -/
def storeRecord (s : State) (r : Record) : State := { s with nv := { s.nv with recs := (r :: s.nv.recs).take 2 } }

/-- The record of a test that has ended, sealed (R490 to R493). -/
def sealRecord (s : State) (r : Record) (o : TestObs) : Record :=
  let units := (sortBy (fun a b => decide (a.unit < b.unit)) o.results).map (judgeUnit o.expected)
  let want := sortBy (fun a b => decide (a.unit < b.unit)) o.expected
  let final := crc64 (sigBytes units)
  let r1 := { r with
    state := 0x3F, duration := o.durationUs, tempMin := o.tempMin, tempMax := o.tempMax, vinMin := o.vinMin, vcore := o.vcore,
    patterns := units.foldl (fun (n : Nat) (u : UnitResult) => n + u.patterns) 0, stuckAt := o.stuckAt, transition := o.transition, finalSig := final,
    expected := crc64 (sigBytes want), result := resultWord units final (crc64 (sigBytes want)) (outsideRange o), units := units }
  { r1 with sealed := sealOf (recordKey s) r1 }

/-- Whether a record's seal verifies with the key of the life-cycle state (R493, R494). -/
def sealOk (s : State) (r : Record) : Bool := decide (r.sealed = sealOf (recordKey s) r)

/-- The code of a record in 8000:03: 0 none; 1 passed; 2 units failed; 3 Incomplete; 4 Invalid. A consumed record reads as it was
sealed. -/
def recordState (s : State) : Option Record → Nat
  | none => 0
  | some r =>
    if r.state = 0xFF then 0
    else if r.state = 0x7F then 3
    else if (r.state ≠ 0x3F ∧ r.state ≠ 0x1F) ∨ sealOk s r = false ∨ bitOf r.result 30 then 4
    else if r.result = 2 ^ 31 then 1 else 2

/-- Whether a record is valid for a quick start of an image (R482, R489). -/
def recordValid (s : State) (r : Record) (i : ImageInfo) : Bool :=
  decide (r.state = 0x3F) && sealOk s r && decide (r.uid = Config.uid.toNat) && decide (r.format = i.format) && !bitOf r.result 30

/-- Events for units that a test or check found failing (source 162). -/
def reportFenced (s : State) (units : List UnitResult) : State :=
  (units.filter (fun u => unitFenced u && !bitOf u.outcome 3)).foldl (fun s u => s.raise 162 u.unit 0) s

/-- The fence list replaced, in the settings store too (R495). -/
def setFences (s : State) (l : List Nat) : State :=
  { s with sup := { s.sup with fences := l }, nv := { s.nv with fences := l } }

/-- The fence list after a complete test: the failures of that test, and units that it did not test because they were fenced. -/
def fencesOf (units : List UnitResult) : List Nat :=
  (units.filter unitFenced).foldl (fun l u => setAdd u.unit l) []

/-- The Reckoner pairs that are not fenced are usable. -/
def pairsOf (s : State) : State :=
  let a := !s.fenced 0x800
  let b := !s.fenced 0x801
  { s with sup := { s.sup with pairA := a, pairB := b, servingB := !a && b } }

/-! DRAM bring-up (R283 to R287) -/

/-- The DRAM state replaced. -/
def setDram (s : State) (v : Nat) : State :=
  if v = 2 then backInService s else ({ s with dram := { s.dram with state := v } } : State).stset 0 0x7410 0x01 v

/-- Whether the stored training may be reused (R284). -/
def mayReuse (s : State) (o : DramObs) (t : Training) : Bool :=
  let near := fun (a b : Nat) => decide (a ≤ b + 10 ∧ b ≤ a + 10)
  decide (t.ids = o.ids) && decide (iabs (o.temp - t.temp) ≤ 100) && near o.railCore t.railCore && near o.railIo t.railIo &&
    decide (t.format = (Config.trainingFormat (s.stget 0 0x1000 0x08)).toNat) && !t.stale && !s.flag 0x7440 0x01

/-- The least of a measurement over every sub-channel of the ranks trained. -/
def leastEye (o : DramObs) (m : SubObs → Nat) : Nat :=
  match o.subs.flatMap (fun r => r.map m) with
  | [] => 0
  | x :: l => l.foldl min x

/-- The training record that full training makes (R287). -/
def newTraining (s : State) (o : DramObs) : Training where
  ids      := o.ids
  temp     := o.temp
  railCore := o.railCore
  railIo   := o.railIo
  format   := (Config.trainingFormat (s.stget 0 0x1000 0x08)).toNat
  stale    := false
  readEye  := leastEye o (fun m => m.readEye)
  writeEye := leastEye o (fun m => m.writeEye)
  refWin   := leastEye o (fun m => m.refWindow)
  cmdEye   := leastEye o (fun m => m.cmdEye)
  delays   := o.delays
  refs     := o.refs

/-- Whether a sub-channel meets the limits of R285. -/
def subMeets (m : SubObs) : Bool :=
  decide (45 ≤ m.readEye ∧ 45 ≤ m.writeEye ∧ 40 ≤ m.refWindow ∧ 80 ≤ m.cmdEye ∧ m.errors = 0)

/-- Whether sub-channel `c` of rank `p` meets the limits; one that was not measured does not. -/
def subOk (o : DramObs) (p c : Nat) : Bool :=
  match (o.subs.getD p [])[c]? with
  | some m => subMeets m
  | none => false

/-- Whether the stored settings verify (R286): no error in the pattern check, and every bit passes at every point of the scan, the nine
of ±4 steps around each stored delay. -/
def verifies (t : Training) (o : DramObs) : Bool :=
  decide (o.checkErrors = 0) && !o.scan.isEmpty && decide (o.scan.length = t.delays.length) &&
    o.scan.all (fun b => decide (b.length = 9) && b.all (fun x => x))

/-- The entries of 7440 for a training record in use. -/
def trainingStatus (s : State) (kind ms : Nat) (t : Training) : State :=
  stAll { s with dram := { s.dram with training := some t, retTrain := some t } }
    [(0, 0x7440, 0x02, kind), (0, 0x7440, 0x03, toPat 16 t.temp), (0, 0x7440, 0x04, ms), (0, 0x7440, 0x05, t.readEye),
     (0, 0x7440, 0x06, t.writeEye), (0, 0x7440, 0x07, t.refWin), (0, 0x7440, 0x08, 0), (0, 0x7440, 0x09, b2n t.stale)]

/-- The ranks that are trained: those that are neither Retired nor Failed (R285, R298). -/
def trainedRanks (s : State) : List Nat :=
  (List.range 4).filter (fun p => decide ((rankOf s p).state ≠ .retired) && decide ((rankOf s p).state ≠ .failed))

/-- The ranks of which a sub-channel misses a limit (R285). -/
def failingRanks (s : State) (o : DramObs) : List Nat :=
  (trainedRanks s).filter (fun p => !(List.range 8).all (subOk o p))

/-- Whether one sub-channel misses its limits on every rank (R285). -/
def subchannelFails (s : State) (o : DramObs) : Bool :=
  (List.range 8).any (fun c => (trainedRanks s).all (fun p => !subOk o p c))

/-- One rank that fails training (R285): Retired, its slot served by the spare; none where no spare can serve it. -/
def retireRank (s : State) (p : Nat) : Option State :=
  let r := rankOf s p
  let s1 := setRank s p { r with state := .retired, slot := none }
  match r.slot with
  | none => some (s1.raise 70 p 0)
  | some slot =>
    match readySpare s1 with
    | some q => some ((setRank s1 q { rankOf s1 q with state := .inService, slot := some slot }).raise 70 p 0)
    | none => none

/-- The DRAM cannot be brought up (R285): state Failed. -/
def dramFails (s : State) (bad : List Nat) (ms : Nat) : State :=
  (stAll (setDram s 5) [(0, 0x7440, 0x02, 3), (0, 0x7440, 0x04, ms)]).raise 69 (bad.foldl (fun w p => w + 2 ^ p) 0) 0

/-- The drift of every rank counts from the training (R287). -/
def driftsZero (s : State) : State := (List.range 4).foldl (fun s p => setRank s p { rankOf s p with drift := 0 }) s

/-- A training that succeeded: its record stored, and no drift against it (R283, R287). -/
def trained (s : State) (o : DramObs) (t : Training) : State :=
  driftsZero (setDram (trainingStatus { s with nv := { s.nv with train := some t, ranks := s.dram.ranks } } 1 o.ms t) 2)

/-- Full training (R283 step 2b, R285). -/
def fullTraining (s : State) (o : DramObs) : State :=
  let bad := failingRanks s o
  let t := newTraining s o
  if subchannelFails s o then dramFails s bad o.ms
  else
    match bad with
    | [] => trained s o t
    | [p] => (match retireRank s p with
      | some u => trained u o t
      | none => dramFails s bad o.ms)
    | _ => dramFails s bad o.ms

/-- Steps 1 and 2 of R283: the stored training reused where R284 and R286 allow, full training otherwise. -/
def trainDram (s : State) (o : DramObs) : State :=
  match s.nv.train with
  | some t => if mayReuse s o t && verifies t o then setDram (trainingStatus s 2 o.ms t) 2 else fullTraining s o
  | none => fullTraining s o

/-- Step 3 of R283: every data byte zero with valid check bits and clear state bytes. -/
def zeroDram (s : State) : State :=
  { s with mem := memClear s.mem dramBase 0x03A0000000, dram := { s.dram with errs := [], poison := [], wback := [] } }

/-- The DRAM after a reset: the mapping of ranks from the store, then R283. -/
def bringUpDram (s : State) (o : DramObs) : State :=
  trainDram (zeroDram { s with dram := { s.dram with ranks := s.nv.ranks.map (fun e => (e.1, { e.2 with corr := [], drift := 0 })) } }) o

/-! The fence list applied (R29, R226, R495; step 6 of R478) -/

/-- The spare Frame, if any, takes the place of a Frame that leaves service for `st`. -/
def replaceFrame (s : State) (f : Nat) (st : FrameState) : State :=
  let was := frameOf s f
  let s1 := setFrame s f st
  match was, spareFrame s1 with
  | .inService, some q => setFrame s1 q .inService
  | _, _ => s1

/-- A fenced Rod: a transform Rod takes its Frame out of service where a spare can take its place (R226); a spare Frame with a
fenced Rod is Fenced. -/
def fenceRodAtStart (s : State) (r : Nat) : State :=
  let s1 := s.setRod r { s.rod r with fenced := true }
  match frameOf s1 (r / 8) with
  | .inService => if isTransform r && (spareFrame s1).isSome then replaceFrame s1 (r / 8) .fenced else s1
  | .spare => setFrame s1 (r / 8) .fenced
  | _ => s1

/-- One unit of the fence list taken out of use. -/
def fenceAtStart (s : State) (u : Nat) : State :=
  if u < 64 then fenceRodAtStart s u
  else if 0x100 ≤ u ∧ u < 0x108 then
    let f := u - 0x100
    (List.range 8).foldl (fun s m => s.setRod (8 * f + m) { s.rod (8 * f + m) with fenced := true }) (replaceFrame s f .fenced)
  else if 0x200 ≤ u ∧ u < 0x212 then leaveService s (u - 0x200) .fenced
  else if 0x400 ≤ u ∧ u < 0x440 then { s with ledger := { s.ledger with failed := setAdd (u - 0x400) s.ledger.failed } }
  else s

/-- The engines retired by 7020+i:02 stay so across resets (R523), and the fence list is applied. -/
def applyFences (s : State) : State :=
  let s1 := s.nv.slides.foldl (fun s i => leaveService s i .retired) s
  pairsOf (judgeCompute (s1.sup.fences.foldl fenceAtStart s1))

/-- The units whose failure fails the module (R495, R496). -/
def fatalUnits : List Nat := [0x300, 0x301, 0x302, 0x303, 0x500, 0x604, 0x710]

/-- Whether the module enters Failed in place of Ready (R496). -/
def startFails (s : State) : Bool :=
  fatalUnits.any (fun u => s.fenced u) || !s.ledger.failed.isEmpty || decide (s.dram.state = 5) || (!s.sup.pairA && !s.sup.pairB)

/-- The health flags that a record's units set (R30, R495). -/
def applyHealth (s : State) (units : List UnitResult) : State :=
  (units.filter unitHealth).foldl (fun s u => setHealth s u.unit) s

/-! The shutdown self-test (R485 to R493) -/

/-- The end of each step of R486 in ms from the start of the test. -/
def stepEnds : List Nat := [650, 1300, 1650, 1950, 2400, 2650, 3000, 3250, 3600]

/-- The step that runs `ticks` ticks after the start: 1 to 9, then 10 while the record is sealed. -/
def stepAt (ticks : Nat) : Nat := (stepEnds.filter (fun e => decide (3 * e ≤ ticks))).length + 1

/-- Refusals of a write to 8000:02 (R485, R498). -/
def selfTestCheck (s : State) (v : Nat) : Nat :=
  firstCode [boolOk v, need (decide (v = 0) || decide (s.sup.mod = .shutdownTest) || (decide (s.sup.mod = .ready) && s.sup.targ.isNone))
    Abort.conflict]

/-- The effect of a write to 8000:02: the ring is left, the header written, step 1 runs (R485). -/
def selfTestApply (s : State) (v : Nat) (o : TestObs) : State :=
  if v = 0 || s.sup.mod = .shutdownTest then s
  else
    let s1 := storeRecord (ringApply s 0) (startRecord s 1)
    setMod { s1 with sup := { s1.sup with test := some (o, s1.clk.tick), testStep := 1 } } .shutdownTest

/-- The outputs of a Halted module are inert (R485, R3): ACT_OUT falls and no drive channel modulates. -/
def inertOutputs (s : State) : State :=
  let s1 := (List.range 16).foldl (fun s n => putDrive s n Drive.init) (dropActOut s)
  { s1 with tx := [], aesOut := [], pipe := { s1.pipe with aesNext := [], aesAir := [] } }

/-- The end of the shutdown self-test: the record sealed, the outcomes handled, Halted (R28, R30, R485, R495). -/
def selfTestEnd (s : State) (o : TestObs) : State :=
  let s0 : State := { s with sup := { s.sup with test := none, testStep := 0 } }
  match s0.nv.recs with
  | [] => setMod (inertOutputs s0) .halted
  | r :: older =>
    let done_ := sealRecord s0 r o
    let s1 : State := { s0 with nv := { s0.nv with recs := done_ :: older }, sup := { s0.sup with recState := recordState s0 (some done_) } }
    let s2 := setFences s1 (fencesOf done_.units)
    let s3 := reportFenced (s2.raise 160 done_.result 0) done_.units
    setMod (inertOutputs (applyHealth (applyFences s3) done_.units)) .halted

/-- The test at a tick boundary: its next step, or its end one tick after step 9 (sealing takes at most 50 ms by R486). -/
def selfTestTick (s : State) : State :=
  match s.sup.test with
  | none => s
  | some (o, start) =>
    if s.sup.testStep = 10 then selfTestEnd s o
    else { s with sup := { s.sup with testStep := stepAt (s.clk.tick - start) } }

/-! The targeted test (R498 to R500) -/

/-- Whether a unit may be tested while the module renders: a Rod, a Slide engine, the spare Frame. -/
def targetable (s : State) (u : Nat) : Bool :=
  decide (u < 64) || decide (0x200 ≤ u ∧ u < 0x212) ||
    (decide (0x100 ≤ u ∧ u < 0x108) && decide (frameOf s (u - 0x100) = .spare))

/-- Whether taking a unit out of service leaves the minimums of R195 and R476 intact. -/
def sparable (s : State) (u : Nat) : Bool :=
  if u < 64 then
    match rodRole s u with
    | 0 => true
    | 1 => decide (25 ≤ renderRods s)
    | 2 => decide (7 ≤ transformRods s)
    | _ => true
  else if u < 0x200 then true
  else
    match (slideOf s (u - 0x200)).st with
    | .inService | .spare => decide (16 ≤ (usableSlides s).length)
    | _ => true

/-- Refusals of a write to 8020:02 (R498). -/
def targetedCheck (s : State) (v : Nat) : Nat :=
  let u := s.val 0xFFFF 0x8020 0x01
  firstCode [boolOk v, need (decide (v = 0) || benchLife s) Abort.lifeCycle,
    need (decide (v = 0) || ((decide (s.sup.mod = .ready) || decide (s.sup.mod = .rendering)) && s.sup.targ.isNone && targetable s u))
      Abort.conflict,
    need (decide (v = 0) || sparable s u) Abort.capacity]

/-- The effect of a write to 8020:02: the unit leaves service at the next boundary. -/
def targetedApply (s : State) (v : Nat) (result : UnitResult) (ns : Nat) : State :=
  if v = 0 then s
  else
    let u := s.val 0xFFFF 0x8020 0x01
    { s with sup := { s.sup with
      targ := some (Targeted.mk u { result with unit := u } ns (s.clk.tick + 1) false), targState := 1, targNs := 0, targOut := 0 } }

/-- The exclusion begins (R499 step 1, R500). -/
def targetedBegin (s : State) (t : Targeted) : State :=
  let s1 : State := { s with sup := { s.sup with targ := some { t with begun := true }, targState := 2 } }
  if t.unit < 64 then exclWrite s1 (Nat.lor s1.tally.excl.toNat (2 ^ t.unit))
  else if t.unit < 0x200 then s1
  else
    let i := t.unit - 0x200
    match (slideOf s1 i).st with
    | .inService | .spare => leaveService s1 i .retired
    | .retired | .fenced => s1

/-- A Slide engine returned as a spare (R500), unless a write keeps it retired. -/
def slideReturns (s : State) (i : Nat) : State :=
  if (slideOf s i).st = .retired && !s.nv.slides.contains i then judgeSlides (setSlide s i { slideOf s i with st := .spare }) else s

/-- A Rod returned from its test: instruction memory reloaded, data memory restored, execution from its start; one whose slot is faulted
or stopped does not run (R232). -/
def rodReturns (s : State) (r : Nat) : State :=
  let rod := s.rod r
  let s1 := exclWrite s (s.tally.excl.toNat - b2n (bitOf s.tally.excl.toNat r) * 2 ^ r)
  let resumes := match rod.slot with
    | some u => decide ((slotOfNo s u).state = 2)
    | none => true
  if rod.st = .stopped then s1
  else s1.setRod r (if resumes then (rod.healed 0 0x50000).started rod.startPc else rod.healed 0 0x50000)

/-- The outcome of a targeted test (R495): the fence list and the unit's use; a fenced Frame's Rods are fenced with it. -/
def targetedOutcome (s : State) (u : UnitResult) : State :=
  if unitFenced u then
    let s1 := (setFences s (setAdd u.unit s.sup.fences)).raise 162 u.unit 0
    if u.unit < 64 then fenceRod s1 u.unit
    else if u.unit < 0x200 then
      setFrame ((List.range 8).foldl (fun s m => fenceRod s (8 * (u.unit - 0x100) + m)) s1) (u.unit - 0x100) .fenced
    else leaveService s1 (u.unit - 0x200) .fenced
  else
    let s1 := setFences s (setDel u.unit s.sup.fences)
    if unitHealth u then setHealth s1 u.unit else s1

/-- The end of a targeted test (R499 steps 5 and 6, R500). -/
def targetedEnd (s : State) (t : Targeted) : State :=
  let s1 : State := { s with sup := { s.sup with
    targ := none, targState := 4, targOut := t.result.outcome, targSig := t.result.sig,
    targNs := if t.unit < 64 then t.ns else 0 } }
  let s2 := if t.unit < 64 then rodReturns s1 t.unit else if 0x200 ≤ t.unit then slideReturns s1 (t.unit - 0x200) else s1
  (targetedOutcome s2 t.result).raise 165 t.unit t.result.outcome

/-- The targeted test at a tick boundary: it begins, and it ends at the boundary of the tick in which its exclusion ends, once no item
is in service on the Rod. -/
def targetedTick (s : State) : State :=
  match s.sup.targ with
  | none => s
  | some t =>
    if !t.begun then (if t.start ≤ s.clk.tick then targetedBegin s t else s)
    else if tickStart t.start + t.ns < tickStart (s.clk.tick + 1) && (decide (64 ≤ t.unit) || (s.rod t.unit).item.isNone) then
      targetedEnd s t
    else s

end Sys2Proof.Machine
end

