-- ==== Sys2Proof/Machine/Boot.lean ====
section
/-! DEFINITION. Reset, start, thermal levels, Parked, and the commands of the self-tests (R3, R475 to R504, R543). -/
namespace Sys2Proof.Machine

/-! Reset (R3, R318, R477) -/

/-- A reset with the supply as given: non-volatile storage and the key store stay. Frames already sent and commands that wait are
outside the module. The nonce of 9000:06 is a new draw (R511). -/
def resetWith (s : State) (p : Power) : State :=
  { State.afterReset s.nv { s.keys with nonceNo := s.draws } { p with inReset := true } (s.draws + 1) with
    out := s.out, pending := s.pending }

/-! Boot image and record (R479 to R484) -/

/-- Whether an image of the directory may boot (R480, R515). -/
def bootable (s : State) (i : ImageInfo) : Bool := decide (i.state ≠ 2) && imageOk s i

/-- The image to boot: the bootable one with the higher sequence number (R480); the first part names image B. -/
def bootChoice (s : State) : Option (Bool × ImageInfo) :=
  let a := s.nv.imgA.filter (bootable s)
  let b := s.nv.imgB.filter (bootable s)
  match a, b with
  | some x, some y => if x.seq < y.seq then some (true, y) else some (false, x)
  | some x, none => some (false, x)
  | none, some y => some (true, y)
  | none, none => none

/-- Recovery (R481): the boot ROM serves IDENT and the recovery transfer alone. -/
def enterRecovery (s : State) : State :=
  statusOf (setMod { s with sup := { s.sup with startKind := 2 } } .recovery)

/-- Steps 1 and 2 of R478 for the image chosen: versions shown, and an attempt counted for a Trial image (R480). -/
def loadImageB (s : State) (b : Bool) (i : ImageInfo) : State :=
  let s1 := imageStatus s i b
  if i.state = 1 then { s1 with nv := { s1.nv with attempts := s1.nv.attempts + 1 } } else s1

/-- Steps 3 and 4 of R478: the newer record found; a quick start with the power-on check where it is valid, the start test
otherwise. -/
def checkUnits (s : State) (i : ImageInfo) (o : BootObs) : State :=
  let code := recordState s s.nv.recs.head?
  let s1 : State := { s with sup := { s.sup with recState := code } }
  let s2 := if code = 3 ∨ code = 4 then s1.raise 164 code 0 else s1
  match s2.nv.recs with
  | r :: older =>
    if recordValid s2 r i then
      let s3 : State := { s2 with
        nv := { s2.nv with recs := { r with state := 0x1F } :: older }, sup := { s2.sup with startKind := 0 } }
      let failed := o.check.filter unitFenced
      let s4 := setFences s3 (failed.foldl (fun l u => setAdd u.unit l) s3.sup.fences)
      reportFenced s4 failed
    else startTest s2
  | [] => startTest s2
where
  /-- The start test with its record (R483): KIND 2. -/
  startTest (s : State) : State :=
    let s0 := setMod { s with sup := { s.sup with startKind := 1 } } .startTest
    let s1 := storeRecord s0 (startRecord s0 2)
    match s1.nv.recs with
    | r :: older =>
      let r1 := sealRecord s1 r o.test
      let s2 := setFences { s1 with nv := { s1.nv with recs := r1 :: older } } (fencesOf r1.units)
      reportFenced (s2.raise 160 r1.result 0) r1.units
    | [] => s1

/-- The units whose outcomes count at this start: those of the newer record, and of the power-on check where it ran (R30, R495). -/
def startUnits (s : State) (o : BootObs) : List UnitResult :=
  (match s.nv.recs with
    | r :: _ => r.units
    | [] => []) ++ (if s.sup.startKind = 0 then o.check else [])

/-- The life-cycle state that follows Parked (R502, R508). -/
def leaveParkedLife (s : State) : State := if s.keys.life = .parked then setLife s .deployed else s

/-- Step 7 of R478: tick service begins in Ready or Failed (R496). A Trial image that reaches Ready is Good, and an image given up
before is reported (R480). A reset has ended Parked (R502). -/
def enterReady (s : State) (b : Bool) (ms : Nat) : State :=
  let s0 := leaveParkedLife { s with sup := { s.sup with startMs := ms, sinceMs := ms, sinceT := s.clk.tick } }
  if startFails s0 then statusOf (setMod (s0.raise 161 0 0) .failed)
  else
    let s1 := match imageAt s0 b with
      | some i => if i.state = 1 then
          let t := setImage s0 b (some { i with state := 0 })
          { t with nv := { t.nv with attempts := 0 } }
        else s0
      | none => s0
    let s2 := if s1.nv.fellBack then
        ({ s1 with nv := { s1.nv with fellBack := false } } : State).raise 163 (b2n b) 0
      else s1
    statusOf (setMod s2 .ready)

/-- The start sequence from the start instant (R477 to R484, R496). A Trial image that does not reach Ready within 10 s stays where it is
after step 4, and serves FOL on the management port (R478): DESIGN CHOICE (assumption 69). -/
def startSequence (s : State) (o : BootObs) : State :=
  let p := { s.power with
    inReset := false, pgood := true, brownout := false, vinMv := o.vinMv, temp := o.temp,
    warning := decide (1100 ≤ o.temp), critical := decide (1180 ≤ o.temp), lowVin := decide (o.vinMv < 4500) }
  let s0 := setCounter { s with
    power := p, sup := { s.sup with bootMode := o.bootMode, testEn := o.testEn, twinId := o.twinId } } ((o.ms * 1000000 : Nat) : Int)
  let s1 := match s0.keys.pendErase with
    | some l => finishErasure s0 l o.erasureOk
    | none => s0
  match (if o.bootMode then none else bootChoice s1) with
  | none => enterRecovery s1
  | some (b, i) =>
    let s2 := loadImageB s1 b i
    let s3 := checkUnits s2 i o
    if decide (i.state = 1) && decide (10000 < o.ms) then statusOf s3
    else
      let s4 := ledgerInit (bringUpDram s3 o.dram)
      enterReady (applyHealth (applyFences s4) (startUnits s4 o)) b o.ms

/-- Whether the start instant may come (R477, R543). -/
def mayStart (s : State) (vin : Nat) : Bool := s.power.inReset && !s.power.tripHeld && decide (4400 ≤ vin)

/-- The start of a module that waits in reset. -/
def startInstant (s : State) (o : BootObs) : State := if mayStart s o.vinMv then startSequence s o else s

/-- A Trial image that has not reached Ready within 10 s on two consecutive attempts is Failed (R480). -/
def trialTimeout (s : State) : State :=
  let waiting := decide (s.sup.mod = .booting ∨ s.sup.mod = .startTest ∨ s.sup.mod = .failed) && !s.power.inReset
  match imageAt s s.sup.imgB with
  | some i =>
    if waiting && decide (i.state = 1) && decide (2 ≤ s.nv.attempts) then
      let t := setImage s s.sup.imgB (some { i with state := 2 })
      { t with nv := { t.nv with attempts := 0, fellBack := true } }
    else s
  | none => s

/-! Thermal levels (R543) -/

/-- Warning and critical levels; each is left when the temperature falls 5 °C below it. -/
def thermalLevels (s : State) (temp : Int) : State :=
  judgeHealth { s with power := { s.power with
    temp := temp, warning := decide (1100 ≤ temp) || (s.power.warning && decide (1050 < temp)),
    critical := decide (1180 ≤ temp) || (s.power.critical && decide (1130 < temp)) } }

/-! Lockstep (R497, R518) -/

/-- A lockstep error in the serving pair: the idle pair serves where it is usable. -/
def lockstepError (s : State) : State :=
  let p := s.sup
  let hurt := if p.servingB then { p with pairB := false } else { p with pairA := false }
  let idle := if p.servingB then p.pairA else p.pairB
  judgeHealth { s with sup := if idle then { hurt with servingB := !p.servingB } else { hurt with lockErr := true } }

/-! Parked (R501 to R503) -/

/-- Refusals of a write to 8000:04 (R498, R501, R508). -/
def parkCheck (s : State) (v : Nat) : Nat :=
  firstCode [boolOk v,
    need (decide (v = 0) || decide (s.keys.life = .deployed)) Abort.lifeCycle,
    need (decide (v = 0) || (decide (s.sup.mod = .ready) && s.sup.targ.isNone)) Abort.conflict]

/-- The requests that wait at the DRAM ports served (R302): self-refresh is entered with none waiting. -/
def drainDram (s : State) : State :=
  (List.range s.beam.waiting.length).foldl (fun s _ => [8, 9, 10, 11].foldl grantAt (letIn s)) s

/-- Parking (R501): the ring left, the PDM and sense clocks stopped, DRAM in self-refresh, Ledger, Rods and engines without power: a Rod
loses its item and its held PUT. The Tally keeps its power. -/
def parkModule (s : State) : State :=
  let s1 := allRods.foldl clearRod (ringApply (drainDram s) 0)
  let s2 : State := { s1 with
    rods := s1.rods.foldl (fun m e => mset Rod.init m e.1 { Rod.init with
      health := e.2.health, fenced := e.2.fenced, retired := e.2.retired, slot := e.2.slot, startPc := e.2.startPc }) [],
    ledger := { s1.ledger with ready := false },
    dram := { (refreshed s1 s1.dram.debt).dram with retained := s1.val 0x800000 0x7450 0x01, rows := [] } }
  setLife (setMod ((setDram s2 4).put 0 0x8000 0x04 1) .parked) .parked

/-- The eighths that were not retained, written with zero (R304): those of a slot that another rank serves than `old` said are among
them, since the spare retains nothing and no data moves (R285, R301). -/
def zeroLost (s old : State) : State :=
  let kept := fun (a : Nat) => !inDram a || (retained s a && decide (servingRank s (slotOf a) = servingRank old (slotOf a)))
  { s with
    mem := s.mem.filter (fun c => kept c.1),
    dram := { s.dram with errs := s.dram.errs.filter (fun e => kept e.1), poison := s.dram.poison.filter kept } }

/-- DRAM after Parked (R304): the training verified, or made anew; the lost eighths zero; the retained ones keep their contents. -/
def wakeParked (s : State) (o : DramObs) : State :=
  let s1 := if s.dram.training.any (fun t => verifies t o) then setDram s 2 else fullTraining s o
  zeroLost s1 s

/-- Leaving Parked (R503): DRAM, power-on check, Ledger, Rods; Ready, or Failed by R496. -/
def unparkModule (s : State) (check : List UnitResult) (o : DramObs) : State :=
  let failed := check.filter unitFenced
  let s1 := (wakeParked s o).put 0 0x8000 0x04 0
  let s2 := reportFenced (setFences s1 (failed.foldl (fun l u => setAdd u.unit l) s1.sup.fences)) failed
  let s3 := pairsOf (judgeCompute ((failed.map (fun u => u.unit)).foldl fenceAtStart (ledgerInit s2)))
  let s4 := applyHealth s3 check
  let s5 := if startFails s4 then setMod (s4.raise 161 0 0) .failed else setMod s4 .ready
  leaveParkedLife s5

/-- The effect of a write to 8000:04. -/
def parkApply (s : State) (v : Nat) (check : List UnitResult) (o : DramObs) : State :=
  if v = 1 then parkModule s
  else if s.sup.mod = .parked then unparkModule s check o
  else s

/-- The effect of a write to 8000:04 whose start-up observations are free values. -/
def parkFree (s : State) (v : Nat) : State := (parkApply s v (Config.checkObs s.draws) (Config.dramObs s.draws)).drawn

/-! The commands -/

/-- RESET: RESET_N asserted, or an internal reset. -/
def execReset (cause : ResetCause) (s : State) : Host.Outcome State Fault Refusal :=
  done (match cause with
    | .pin => resetWith s s.power
    | .internal => resetWith s s.power)

/-- START_INSTANT. -/
def execStartInstant (obs : BootObs) (s : State) : Host.Outcome State Fault Refusal := done (startInstant s obs)

/-- TRIAL_TIMEOUT. -/
def execTrialTimeout (s : State) : Host.Outcome State Fault Refusal := done (trialTimeout s)

/-- The retained store (R278). -/
def retainedStore : Nat := 0x0384000000

/-- The show library copied from the flash into the retained store (R304, R484). -/
def restoreLibrary (s : State) : State :=
  s.nv.library.foldl (fun s c => dramBurst s (retainedStore + c.1) [c.2] [true]) (dramWipe (wakeDram s) retainedStore 0x03A0000000)

/-- LIBRARY_RESTORE_DONE: after Ready, with the retained store in service. -/
def execLibraryRestoreDone (s : State) : Host.Outcome State Fault Refusal :=
  done (
    if s.ticking && decide (s.dram.state = 2 ∨ s.dram.state = 3) then
      let s1 := restoreLibrary s
      ({ s1 with sup := { s1.sup with library := true } } : State).stset 0 0x8000 0x0D 1
    else s)

/-- VIN as it is found (R477): below 3.9 V power-good falls, which resets the module; otherwise the module goes on by `f`. -/
def supplySeen (s : State) (vin : Nat) (f : State) : State :=
  if vin < 3900 then resetWith s { s.power with vinMv := vin, pgood := false, brownout := true } else f

/-- POWER_GOOD_FALL: VIN below 3.9 V. -/
def execPowerGoodFall (vinMv : Nat) (s : State) : Host.Outcome State Fault Refusal :=
  done (supplySeen s vinMv { s with power := { s.power with vinMv := vinMv } })

/-- BROWNOUT. -/
def execBrownout (at_ : Nat) (vinMv : Nat) (s : State) : Host.Outcome State Fault Refusal :=
  done (supplySeen s vinMv (brownout (s.elapse at_) vinMv))

/-- BROWNOUT_END. -/
def execBrownoutEnd (at_ : Nat) (vinMv : Nat) (s : State) : Host.Outcome State Fault Refusal :=
  done (supplySeen s vinMv (brownoutEnd (s.elapse at_) vinMv))

/-- SHUTDOWN_SELF_TEST. -/
def execShutdownSelfTest (value : Nat) (obs : TestObs) (s : State) : Host.Outcome State Fault Refusal :=
  done (s.attempt 0x8000 (selfTestCheck s value) (fun t => selfTestApply t value obs))

/-- PARK: a write to 8000:04; where it is 0 and the module Parked, what the power-on check and the DRAM bring-up observe is free. -/
def execPark (value : Nat) (s : State) : Host.Outcome State Fault Refusal :=
  done (s.attempt 0x8000 (parkCheck s value) (fun t => parkFree t value))

/-- UNPARK. -/
def execUnpark (value : Nat) (check : List UnitResult) (obs : DramObs) (s : State) : Host.Outcome State Fault Refusal :=
  done (s.attempt 0x8000 (parkCheck s value) (fun t => parkApply t value check obs))

/-- TARGETED_TEST. -/
def execTargetedTest (value : Nat) (result : UnitResult) (exclusionNs : Nat) (s : State) : Host.Outcome State Fault Refusal :=
  done (s.attempt 0x8020 (targetedCheck s value) (fun t => targetedApply t value result exclusionNs))

/-- THERMAL_LEVEL_CHANGE. -/
def execThermalLevelChange (at_ : Nat) (temp : Int) (s : State) : Host.Outcome State Fault Refusal :=
  done (thermalLevels (s.elapse at_) temp)

/-- THERMAL_TRIP: at 125 °C the module enters reset and is held there. -/
def execThermalTrip (temp : Int) (s : State) : Host.Outcome State Fault Refusal :=
  done (if 1250 ≤ temp then resetWith s { s.power with temp := temp, tripHeld := true } else { s with power := { s.power with temp := temp } })

/-- TRIP_RESET_RELEASE: below 100 °C the module starts from Booting. -/
def execTripResetRelease (temp : Int) (obs : BootObs) (s : State) : Host.Outcome State Fault Refusal :=
  done (
    if s.power.tripHeld && decide (temp < 1000) then
      startInstant { s with power := { s.power with temp := temp, tripHeld := false } } { obs with temp := temp }
    else s)

/-- LOCKSTEP_ERROR. -/
def execLockstepError (s : State) : Host.Outcome State Fault Refusal := done (lockstepError s)

end Sys2Proof.Machine
end

