-- ==== Sys2Proof/Machine/Correction.lean ====
section
/-! DEFINITION. The correction sequencers (R156 to R174): allocations, bank loads, switches, enables and trims, their preparation,
their crossfades and the crossfade budget. -/
namespace Sys2Proof.Machine

/-! One sequencer -/

/-- What a sequencer needs of the dictionary in force for its block: N, U_f and the crossfade length. -/
structure SeqEnv where
  n    : Nat
  u    : Nat
  fade : Nat
  deriving DecidableEq, Repr

/-- The environment of feed f for the values `d`. -/
def seqEnv (d : SMap Nat) (f : Nat) : SeqEnv :=
  SeqEnv.mk (perTick d) (allocation d f) (ent d 16 (0x4000 + f) 0x04)

/-- A bank replaced. -/
def setBank (c : Corr) (b : Nat) (v : Bank) : Corr := if b = 0 then { c with bank0 := v } else { c with bank1 := v }

/-- The state of a bank replaced. -/
def setBankState (c : Corr) (b : Nat) (v : BankState) : Corr := setBank c b { feedBank c b with state := v }

/-- The state a bank has outside a preparation. -/
def restState (c : Corr) (b : Nat) : BankState :=
  if (feedBank c b).set.len = 0 then .empty else if c.selected = some b then .selected else .ready

/-- A bank becomes Selected and its set the Ledger copy (R170 to R172). -/
def selectBank (c : Corr) (b : Nat) : Corr :=
  let c1 := match c.selected with
    | some o => setBankState c o .ready
    | none => c
  let c2 := setBankState c1 b .selected
  { c2 with selected := some b, named := b, cur := (feedBank c2 b).set }

/-- Whether a trim fits both banks (R160). -/
def trimFits (u : Nat) (c : Corr) : Bool :=
  decide (c.bank0.taps.length + 511 ≤ u) && decide (c.bank1.taps.length + 511 ≤ u)

/-- A bank with its set computed for a trim (R160, R161, R169). -/
def prepareBank (n : Nat) (trim : Option (List Int)) (b : Bank) : Bank :=
  { b with set := spectraOf n (effective trim b.taps) }

/-- A trim that stops fitting (R160): the feed keeps the untrimmed filters, and the event is due once per publication. -/
def untrimmed (n : Nat) (c : Corr) : Corr :=
  let prep := fun (x : Bank) => if x.taps.isEmpty then x else prepareBank n none x
  let c1 := { c with bank0 := prep c.bank0, bank1 := prep c.bank1, trim := none, excluded := !c.told, told := true }
  match c1.selected with
  | some b => { c1 with cur := (feedBank c1 b).set }
  | none => c1

/-- The end of a load (R169, R170). A load of the bank that is Selected by now is in force at once: DESIGN CHOICE (assumption 139). -/
def endLoad (e : SeqEnv) (c : Corr) (b : Nat) (taps : List Int) : Corr :=
  let c1 := setBank { c with running := none } b { feedBank c b with taps := taps }
  let c2 := if c1.trim.isNone || trimFits e.u c1 then c1 else untrimmed e.n c1
  let c3 := setBank c2 b (prepareBank e.n c2.trim (feedBank c2 b))
  if decide (c3.selected = some b) || (c3.selected.isNone && decide (c3.named = b)) then selectBank c3 b else setBankState c3 b .ready

/-- The end of a trim's preparation (R168, R172): its crossfade waits for budget, or completes at once where correction is
disabled. -/
def endTrimPrep (e : SeqEnv) (c : Corr) (t : Nat) (trim : Option (List Int)) : Corr :=
  let prep := fun (x : Bank) => if x.taps.isEmpty then x else prepareBank e.n trim x
  let c1 := { c with bank0 := prep c.bank0, bank1 := prep c.bank1 }
  let c2 := setBankState (setBankState c1 0 (restState c1 0)) 1 (restState c1 1)
  if c2.enabled && c2.selected.isSome then
    { c2 with newTrim := trim, running := some (.trim trim, .waiting false) }
  else
    let cur := match c2.selected with
      | some b => (feedBank c2 b).set
      | none => c2.cur
    { c2 with trim := trim, newTrim := none, cur := cur, running := none, free := t + 1 }

/-- A cancelled preparation (R169): banks, set and trim stay as before it. -/
def cancelPrep (c : Corr) : Corr :=
  let c1 := { c with running := none }
  setBankState (setBankState c1 0 (restState c1 0)) 1 (restState c1 1)

/-- The end of a crossfade (R171). -/
def endFade (c : Corr) (req : SeqReq) : Corr :=
  match req with
  | .switch b => selectBank { c with running := none } b
  | .enable on => { c with running := none, enabled := on }
  | .trim t => { c with running := none, trim := t, newTrim := none, cur := incomingSet c }
  | _ => { c with running := none }

/-- A request taken in block `t` (R168, R169, R172). A switch whose bank is still Empty changes the number that 4000+f:03 names and
nothing else: DESIGN CHOICE (assumption 102). A trim that no longer fits is not made (R160). -/
def startReq (e : SeqEnv) (c : Corr) (t : Nat) (req : SeqReq) : Corr :=
  match req with
  | .load b _ => { setBankState c b .preparing with running := some (req, .preparing t) }
  | .switch b =>
    if (feedBank c b).state = .empty then { c with named := b }
    else if c.enabled && c.selected.isSome then { c with running := some (req, .waiting false) }
    else { selectBank c b with free := t + 1 }
  | .enable _ => { c with running := some (req, .crossfading t e.fade) }
  | .trim (some _) =>
    if !trimFits e.u c then { c with excluded := !c.told, told := true }
    else
      let mark := fun c b => if (feedBank c b).state = .empty then c else setBankState c b .preparing
      { mark (mark c 0) 1 with running := some (req, .preparing t) }
  | .trim none =>
    let mark := fun c b => if (feedBank c b).state = .empty then c else setBankState c b .preparing
    { mark (mark c 0) 1 with running := some (req, .preparing t) }
  | .clear => { c with bank0 := Bank.init, bank1 := Bank.init, cur := FilterSet.init, selected := none, trim := none }

/-- A sequencer in block `t` up to where it waits, preparing, for budget, crossfading or idle; `fuel` bounds the requests that
end and start within the block. -/
def seqTurn (e : SeqEnv) (t : Nat) : Nat → Corr → Corr
  | 0, c => c
  | fuel + 1, c =>
    match c.running with
    | some (.load b taps, .preparing s) =>
      if s + 300 ≤ t then seqTurn e t fuel (endLoad e c b taps) else c
    | some (.trim tr, .preparing s) =>
      if s + 300 ≤ t then seqTurn e t fuel (endTrimPrep e c (s + 300) tr) else c
    | some (req, .crossfading s f) =>
      if s + f ≤ t then seqTurn e t fuel (endFade c req) else c
    | some _ => c
    | none =>
      match c.waiting with
      | (a, req) :: r =>
        if a ≤ t ∧ c.free ≤ t then seqTurn e t fuel (startReq e { c with waiting := r } t req) else c
      | [] => c

/-- The partitions that a crossfade in progress reads from DRAM (R173). -/
def fadePartitions (c : Corr) : Nat :=
  match c.running with
  | some (.enable _, _) => 0
  | some (_, .crossfading _ _) => (incomingSet c).parts.length
  | _ => 0

/-- A waiting crossfade admitted in block `t`; trims use F = 64 (R171, R173). -/
def startFade (e : SeqEnv) (c : Corr) (t : Nat) : Corr :=
  match c.running with
  | some (.trim tr, .waiting _) => { c with running := some (.trim tr, .crossfading t 64) }
  | some (req, .waiting _) => { c with running := some (req, .crossfading t e.fade) }
  | _ => c

/-- The sequencer state as 4000+f:09 reports it (R174). -/
def seqState (c : Corr) : Nat :=
  match c.running with
  | none => 0
  | some (_, .preparing _) => 1
  | some (_, .waiting _) => 2
  | some (_, .crossfading _ _) => 3

/-- The code of a bank state (R174). -/
def BankState.code : BankState → Nat
  | .empty => 0
  | .preparing => 1
  | .ready => 2
  | .selected => 3

/-- The status entries of a feed's correction (R190). -/
def corrStatus (s : State) (f : Nat) : State :=
  let c := (s.feed f).corr
  let i := 0x4000 + f
  ((((s.stset 0 i 0x07 (BankState.code c.bank0.state)).stset 0 i 0x08 (BankState.code c.bank1.state)).stset 0 i 0x09
    (seqState c)).stset 0 i 0x0A c.cur.len).stset 0 i 0x0B (b2n c.trim.isSome)

/-! All sequencers (R173) -/

/-- A feed's correction replaced. -/
def setCorr (s : State) (f : Nat) (c : Corr) : State := s.setFeed f { s.feed f with corr := c }

/-- A feed's correction replaced, its sets written where they lie (R157, R169, R171) and a trim-excluded event raised (R160). -/
def keepCorr (s : State) (n f : Nat) (c : Corr) : State :=
  let o := (s.feed f).corr
  let s1 := setCorr s f { c with excluded := false }
  let s2 := if c.bank0.set = o.bank0.set then s1 else storeBank s1 n f 0 c.bank0.set
  let s3 := if c.bank1.set = o.bank1.set then s2 else storeBank s2 n f 1 c.bank1.set
  let s4 := if c.cur = o.cur then s3 else storeCopy s3 n f c.cur
  if c.excluded then s4.raise 38 f 0 else s4

/-- The DRAM slot of Selected bank `k` (2f + b) rewritten from the Ledger copy as it reads (R272, R282). -/
def rewriteBank (s : State) (n k : Nat) : State :=
  let f := k / 2
  let b := k % 2
  let c := (s.feed f).corr
  let set := if s.ledger.errs.isEmpty then c.cur else readSet n (coefAddr n f) (ledgerLost s) c.cur
  let s1 := (List.range c.cur.parts.length).foldl (fun s p => noteRange s (s.clk.tick - 2) (coefAddr n f p) (partBytes n)) s
  let s2 := storeBank (setCorr s1 f (setBank c b { feedBank c b with set := set })) n f b set
  dramWipe s2 (bankSlot f b + (setBlocks n set).length) (bankSlot f b + 0x40000)

/-- Every slot that waits for its rewrite. -/
def rewriteBanks (s : State) (n : Nat) : State :=
  s.dram.rewrite.foldl (fun s k => rewriteBank s n k) { s with dram := { s.dram with rewrite := [] } }

/-- The feeds that have state. -/
def corrFeeds (s : State) : List Nat := s.pipe.feeds.map (fun e => e.1)

/-- A feed whose crossfade waits: admitted within the budget, or counted once (R173). -/
def admitFade (d : SMap Nat) (t : Nat) (acc : State × Nat) (f : Nat) : State × Nat :=
  let (s, used) := acc
  let c := (s.feed f).corr
  match c.running with
  | some (req, .waiting counted) =>
    let p := (incomingSet c).parts.length
    if used + p ≤ 8192 then (setCorr s f (startFade (seqEnv d f) c t), used + p)
    else if counted then (s, used)
    else (((setCorr s f { c with running := some (req, .waiting true) }).bump 0x3803 0x03 1).raise 40 f 0, used)
  | _ => acc

/-- The sum of all allocations but that of feed f. -/
def otherTaps (d : SMap Nat) (f : Nat) : Nat :=
  (d.filter (fun e => decide (key 0x4000 0 ≤ e.1 ∧ e.1 < key 0x4200 0) && decide (e.1 % 256 = 1) &&
    decide (e.1 ≠ key (0x4000 + f) 1))).foldl (fun n e => n + e.2) 0

/-- Every sequencer in block `t` under the values `d` in force for it. -/
def corrTurn (s : State) (d : SMap Nat) (t : Nat) : State :=
  let fs := corrFeeds s
  let s1 := fs.foldl (fun s f => keepCorr s (perTick d) f (seqTurn (seqEnv d f) t 20 (s.feed f).corr)) s
  let used := fs.foldl (fun n f => n + fadePartitions (s1.feed f).corr) 0
  let (s2, used) := fs.foldl (admitFade d t) (s1, used)
  fs.foldl corrStatus ((s2.stset 0 0x3803 0x02 used).stset 0 0x3803 0x01 (otherTaps s2.dict 512))

/-- The sequencers as they will stand at the block that ingress processes now: the two blocks that the stage has still to
correct (R159, R430). -/
def corrAhead (s : State) : State :=
  corrTurn (corrTurn s (s.dictAt 1) (s.clk.tick - 1)) s.dict s.clk.tick

/-! Requests (R156, R159, R168, R170) -/

/-- The requests of a sequencer, the one in progress first. -/
def seqChain (c : Corr) : List SeqReq :=
  (match c.running with
    | some (r, _) => [r]
    | none => []) ++ c.waiting.map (fun e => e.2)

/-- What 4000+f:03 will hold once every request has run. -/
def finalBank (c : Corr) : Nat :=
  (seqChain c).foldl (fun b r => match r with
    | .switch x => x
    | _ => b) c.named

/-- What 4000+f:02 will hold once every request has run. -/
def finalEnable (c : Corr) : Bool :=
  (seqChain c).foldl (fun b r => match r with
    | .enable x => x
    | _ => b) c.enabled

/-- The requests that the accepted writes to feed f still pending will make, in the order of R429; a write of what its entry will hold
by then makes none (R159, R168, R170). -/
def pendingRequests (s : State) (f : Nat) : List SeqReq :=
  let c := ((corrAhead s).feed f).corr
  let mine := sortBy pendBefore (s.pend.filter (fun p => decide (p.index = 0x4000 + f)))
  (mine.foldl (fun (a : List SeqReq × Nat × Bool) p =>
    let v := beNat p.bytes
    match p.sub with
    | 0x02 => if a.2.2 = decide (v = 1) then a else (a.1 ++ [.enable (decide (v = 1))], a.2.1, decide (v = 1))
    | 0x03 => if a.2.1 = v then a else (a.1 ++ [.switch v], v, a.2.2)
    | 0x05 => if p.bytes.isEmpty then a else (a.1 ++ [.load 0 (beWords p.bytes)], a.2)
    | 0x06 => if p.bytes.isEmpty then a else (a.1 ++ [.load 1 (beWords p.bytes)], a.2)
    | _ => a) ([], finalBank c, finalEnable c)).1

/-- Whether a request would be the ninth: `more` accepted writes to the feed are still pending (R168). -/
def busyCheck (c : Corr) (more : Nat) : Nat := need (decide (c.waiting.length + more < 8)) Abort.busy

/-- A request of the block that ingress processes now enters the queue of its sequencer (R168). -/
def enterReq (s : State) (f : Nat) (req : SeqReq) : State :=
  let c := (s.feed f).corr
  setCorr s f { c with waiting := c.waiting ++ [(s.clk.tick, req)] }

/-- Refusals of an allocation (R156); `q` holds the sequencers as they stand at the apply block. -/
def allocationCheck (s q : State) (f taps : Nat) : Nat :=
  let c := (q.feed f).corr
  firstCode [indexOk f 512, rangeOk taps 0 16384, need (decide (taps % 32 = 0)) Abort.range,
    need (!s.flag (0x4000 + f) 0x02 && c.running.isNone && c.waiting.isEmpty) Abort.conflict,
    need (decide (taps + otherTaps s.dict f ≤ 2097152)) Abort.capacity]

/-- The effect of an allocation (R156). -/
def allocationApply (s : State) (f taps : Nat) : State :=
  let s1 := s.put 0 (0x4000 + f) 0x01 taps
  enterReq (s1.stset 0 0x3803 0x01 (taps + otherTaps s1.dict f)) f .clear

/-- Whether bank b is the target of a switch that waits (R159). -/
def switchWaits (c : Corr) (b : Nat) : Bool :=
  (match c.running with
    | some (.switch x, .waiting _) => decide (x = b)
    | _ => false) || c.waiting.any (fun e => decide (e.2 = .switch b))

/-- Refusals of a bank load (R159, R168, R437); `later` says whether a switch to the bank is still pending. -/
def bankLoadCheck (s q : State) (f b : Nat) (bytes : List Byte) (more : Nat) (later : Bool) : Nat :=
  let c := (q.feed f).corr
  if bytes.isEmpty then firstCode [indexOk f 512, need (decide (b < 2)) Abort.noSub]
  else firstCode [indexOk f 512, need (decide (b < 2)) Abort.noSub, need (decide (bytes.length % 4 = 0)) Abort.length,
    need (decide (bytes.length / 4 ≤ allocation s.dict f)) Abort.tooLong,
    need (decide ((feedBank c b).state ≠ .selected) && !switchWaits c b && !later) Abort.bankBusy, busyCheck c more]

/-- The effect of a bank load: none for no bytes (R406). -/
def bankLoadApply (s : State) (f b : Nat) (bytes : List Byte) : State :=
  if bytes.isEmpty then s else enterReq s f (.load b (beWords bytes))

/-- Refusals of a switch (R170). -/
def bankSwitchCheck (q : State) (f b : Nat) (more : Nat) : Nat :=
  let c := (q.feed f).corr
  if finalBank c = b then firstCode [indexOk f 512, rangeOk b 0 1]
  else firstCode [indexOk f 512, rangeOk b 0 1,
    need (decide ((feedBank c b).state ≠ .empty)) Abort.conflict, busyCheck c more]

/-- The effect of a switch: a write of what the entry will hold makes no request. -/
def bankSwitchApply (s q : State) (f b : Nat) : State :=
  let s1 := s.put 0 (0x4000 + f) 0x03 b
  if finalBank (q.feed f).corr = b then s1 else enterReq s1 f (.switch b)

/-- Refusals of an enable (R170). -/
def correctionEnableCheck (q : State) (f v : Nat) (more : Nat) : Nat :=
  let c := (q.feed f).corr
  if finalEnable c = decide (v = 1) then firstCode [indexOk f 512, boolOk v]
  else firstCode [indexOk f 512, boolOk v,
    need (v = 0 || decide (c.bank0.state = .selected) || decide (c.bank1.state = .selected)) Abort.conflict, busyCheck c more]

/-- The effect of an enable: a write of what the entry will hold makes no request. -/
def correctionEnableApply (s q : State) (f v : Nat) : State :=
  let s1 := s.put 0 (0x4000 + f) 0x02 v
  if finalEnable (q.feed f).corr = decide (v = 1) then s1 else enterReq s1 f (.enable (decide (v = 1)))

/-- Refusals of a crossfade length (R171, R190). -/
def fadeLengthCheck (v : Nat) : Nat := need ([1, 2, 4, 8, 16, 32, 64].contains v) Abort.range

/-! Preparations and crossfades as events (R169, R171) -/

/-- A preparation that ends for block S + 300, the next block to be corrected: complete, or overrun. -/
def prepEnd (s : State) (f : Nat) (complete : Bool) : State :=
  let c := (s.feed f).corr
  match c.running with
  | some (req, .preparing start) =>
    if start + 300 + 1 ≤ s.clk.tick then
      let e := seqEnv (s.dictAt 1) f
      if complete then
        match req with
        | .load b taps => corrStatus (keepCorr s e.n f (endLoad e c b taps)) f
        | .trim tr => corrStatus (keepCorr s e.n f (endTrimPrep e c (start + 300) tr)) f
        | _ => s
      else
        corrStatus (((setCorr (s.mark (start + 300) 5) f (cancelPrep c)).bump 0x3803 0x06 1).raise 39 f 0) f
    else s
  | _ => s

/-- A crossfade that ends for block S + F, the next block to be corrected. -/
def fadeEnd (s : State) (f : Nat) : State :=
  let c := (s.feed f).corr
  match c.running with
  | some (req, .crossfading start len) =>
    if start + len + 1 ≤ s.clk.tick then corrStatus (keepCorr s (perTick (s.dictAt 1)) f (endFade c req)) f else s
  | _ => s

/-- The correction of a feed after a change of the media rate (R55). -/
def resetCorr (c : Corr) (named : Nat) : Corr := { Corr.init with named := named, free := c.free }

/-! The commands -/

/-- PREPARATION_COMPLETE. -/
def execPreparationComplete (feed : Nat) (complete : Bool) (s : State) : Host.Outcome State Fault Refusal :=
  done (prepEnd s feed complete)

/-- CROSSFADE_END. -/
def execCrossfadeEnd (feed : Nat) (s : State) : Host.Outcome State Fault Refusal := done (fadeEnd s feed)

/-- ALLOCATION_WRITE. -/
def execAllocationWrite (feed taps : Nat) (s : State) : Host.Outcome State Fault Refusal :=
  done (s.attempt (0x4000 + feed) (allocationCheck s (corrAhead s) feed taps) (fun t => allocationApply t feed taps))

/-- BANK_LOAD. -/
def execBankLoad (feed bank : Nat) (taps : List Byte) (s : State) : Host.Outcome State Fault Refusal :=
  done (s.attempt (0x4000 + feed) (bankLoadCheck s (corrAhead s) feed bank taps (pendingRequests s feed).length
    ((pendingRequests s feed).contains (.switch bank))) (fun t => bankLoadApply t feed bank taps))

/-- BANK_SWITCH. -/
def execBankSwitch (feed bank : Nat) (s : State) : Host.Outcome State Fault Refusal :=
  done (s.attempt (0x4000 + feed) (bankSwitchCheck (corrAhead s) feed bank (pendingRequests s feed).length) (fun t => bankSwitchApply t (corrAhead s) feed bank))

/-- CORRECTION_ENABLE. -/
def execCorrectionEnable (feed value : Nat) (s : State) : Host.Outcome State Fault Refusal :=
  done (s.attempt (0x4000 + feed) (correctionEnableCheck (corrAhead s) feed value (pendingRequests s feed).length)
    (fun t => correctionEnableApply t (corrAhead s) feed value))

end Sys2Proof.Machine
end

