-- ==== Sys2Proof/Machine/Drift.lean ====
section
/-! DEFINITION. The drift tracker (R177 to R187): pairs and their estimates, the baseline, publications, the modes and the movement
of σ and the zone offsets. -/
namespace Sys2Proof.Machine

/-! Pairs (R177, R179) -/

/-- The key of the pair of zone z and microphone m. -/
def pairKey (z m : Nat) : Nat := 8 * z + m

/-- A pair. -/
def pairOf (s : State) (k : Nat) : Pair := mget Pair.init s.drift.pairs k

/-- A zone of the tracker. -/
def zoneOf (s : State) (z : Nat) : ZoneTrack := mget ZoneTrack.init s.drift.zones z

/-- A pair replaced. -/
def setPair (s : State) (k : Nat) (p : Pair) : State :=
  { s with drift := { s.drift with pairs := mset Pair.init s.drift.pairs k p } }

/-- A zone replaced. -/
def setZone (s : State) (z : Nat) (v : ZoneTrack) : State :=
  { s with drift := { s.drift with zones := mset ZoneTrack.init s.drift.zones z v } }

/-- Whether a zone and a microphone form a pair (R177). -/
def isPair (s : State) (z m : Nat) : Bool :=
  s.flag (0x4440 + z) 0x03 && decide (s.val 0xFFFF (0x4440 + z) 0x01 < 512) && s.flag (0x4410 + m) 0x01 &&
  bitOf (s.val 0 (0x4410 + m) 0x02) z

/-- The pairs that the tracker tracks, at most 64 (R177). -/
def trackedPairs (s : State) : List Nat :=
  ((List.range 512).filter (fun k => isPair s (k / 8) (k % 8))).take 64

/-- The tracked pairs of a zone with a valid estimate. -/
def validPairs (s : State) (z : Nat) : List Nat :=
  (trackedPairs s).filter (fun k => decide (k / 8 = z) && decide ((pairOf s k).state = 1))

/-- The zones with a tracked pair. -/
def trackedZones (s : State) : List Nat := (trackedPairs s).foldl (fun l k => setAdd (k / 8) l) []

/-- Whether an estimate passes the gates of R179; its peak must lie in the search range of R178. -/
def estimateValid (s : State) (e : PairEstimate) : Bool :=
  decide (toSigned 8 (s.val 206 0x4400 0x0D) ≤ e.levelDb) && decide ((s.val 6 0x4400 0x0C : Int) ≤ e.ratioDb) &&
  decide (iabs e.peakAt ≤ 2047)

/-- The predicted lag π of a pair in 2^−14 sample (R178), with the values in force. -/
def predictedLag (s : State) (k : Nat) : Int :=
  let a0 := match (pairOf s k).base with
    | some b => b
    | none => Config.firstLag k
  shr (s.drift.sigma * a0) 30 + (s.val 0 (0x4440 + k / 8) 0x02 : Nat) + mget 0 s.drift.zoff (k / 8)

/-- The offset of a peak from its largest value in 2^−14 sample: the vertex of the parabola through three points (R178). -/
def peakOffset (l m r : Int) : Int :=
  let curve := l - 2 * m + r
  if curve = 0 then Config.flatPeak m else fdiv ((l - r) * 8192) curve

/-- The estimated lag τ of a pair (R178). -/
def lagOf (s : State) (k : Nat) (e : PairEstimate) : Int := predictedLag s k + e.peakAt * 16384 + peakOffset e.yL e.yM e.yR

/-- A pair after a window (R179): a Lost pair is one without a valid estimate for 3 windows. -/
def pairWindow (s : State) (est : List PairEstimate) (k : Nat) : State :=
  let z := k / 8
  let p := pairOf s k
  let good := est.find? (fun e => decide (e.zone = z) && decide (e.mic = k % 8) && estimateValid s e)
  let p1 := match good with
    | some e => { p with
        state := 1, invalid := 0, acoustic := lagOf s k e - (s.val 0 (0x4440 + z) 0x02 : Nat), bands := e.bands }
    | none => { p with state := if p.state = 3 || decide (2 ≤ p.invalid) then 3 else 2, invalid := min 3 (p.invalid + 1) }
  let s1 := setPair s k p1
  let s2 := (s1.stset 0 (0x4480 + z) (1 + k % 8) (toPat 32 p1.acoustic)).stset 0 (0x4480 + z) (9 + k % 8) p1.state
  s2.condition 41 k 0 (decide (p1.state = 3))

/-- The mean response of pairs in 0.01 dB by band (R180). -/
def meanBands (s : State) (ks : List Nat) : List Int :=
  (List.range 30).map (fun b => fdiv (isum (ks.map (fun k => nth (pairOf s k).bands b))) ks.length)

/-- The measured response of a zone (R180): the mean over its valid pairs. -/
def zoneWindow (s : State) (z : Nat) : State :=
  let vs := validPairs s z
  let zt := zoneOf s z
  let s1 := setZone s z { zt with valid := vs.length, resp := if vs.isEmpty then zt.resp else meanBands s vs }
  s1.stset 0 (0x4440 + z) 0x06 vs.length

/-- An averaging window (R178 to R180): none in mode 0. -/
def driftWindow (s : State) (est : List PairEstimate) : State :=
  if s.drift.mode = 0 then s
  else
    let s1 := (trackedPairs s).foldl (fun s k => pairWindow s est k) s
    (trackedZones s).foldl zoneWindow s1

/-! Baseline (R181) -/

/-- Whether every condition of a capture holds. -/
def baselineOk (s : State) : Bool :=
  decide (s.val 0 0x4400 0x01 ≤ 1) && decide (s.drift.sigma = 2 ^ 30) && s.drift.zoff.isEmpty &&
  s.pipe.feeds.all (fun e => e.2.corr.trim.isNone) && decide (s.time.state = .locked) &&
  (trackedPairs s).any (fun k => decide ((pairOf s k).state = 1))

/-- The capture: valid pairs and zones record what they measure, in non-volatile storage. -/
def baselineApply (s : State) : State :=
  let ks := (trackedPairs s).filter (fun k => decide ((pairOf s k).state = 1))
  let s1 := ks.foldl (fun s k =>
    let p := pairOf s k
    let s1 := setPair s k { p with base := some p.acoustic }
    { s1 with nv := { s1.nv with pairs := mset none s1.nv.pairs k (some p.acoustic) } }) s
  (ks.foldl (fun l k => setAdd (k / 8) l) []).foldl (fun s z =>
    let zt := zoneOf s z
    let s1 := setZone s z { zt with target := some zt.resp }
    { s1 with nv := { s1.nv with zones := mset none s1.nv.zones z (some zt.resp) } }) s1

/-! Publication (R182, R183) -/

/-- The valid pairs with a baseline: pair, a_zm and a0_zm. -/
def basedPairs (s : State) : List (Nat × Int × Int) :=
  ((trackedPairs s).filter (fun k => decide ((pairOf s k).state = 1))).filterMap (fun k =>
    (pairOf s k).base.map (fun b => (k, (pairOf s k).acoustic, b)))

/-- a_zm / a0_zm in 2^−30, truncated (R182). -/
def pairRatio (a a0 : Int) : Int := if a0 = 0 then Config.ratioByZero a else fdiv (a * 2 ^ 30) a0

/-- The σ target (R182). Each ratio is truncated before the median: DESIGN CHOICE (assumption 103), as for the zone offsets. -/
def sigmaTarget (s : State) : Int :=
  let l := basedPairs s
  if l.length < 3 then s.drift.sigmaT
  else satTo (s.val 1020054732 0x4400 0x05 : Nat) (s.val 1127428915 0x4400 0x06 : Nat)
    (median (l.map (fun e => pairRatio e.2.1 e.2.2)))

/-- The zone offset targets that a publication forms (R182). -/
def offsetTargets (s : State) (sigma : Int) : List (Nat × Int) :=
  let lim : Int := (s.val 7864320 0x4400 0x08 : Nat)
  let l := basedPairs s
  (trackedZones s).filterMap (fun z =>
    let mine := l.filter (fun e => decide (e.1 / 8 = z))
    if mine.isEmpty then none
    else some (z, satTo (-lim) lim (median (mine.map (fun e => shr (e.2.1 * 2 ^ 30 - sigma * e.2.2) 30)))))

/-- The lowest band that a trim acts on (R183): 250 Hz at 96 kHz, 125 Hz at 48 kHz. -/
def actingBand (s : State) : Nat := if s.n = 32 then 10 else 7

/-- The band gains of a zone in 0.01 dB (R182, R183) for the response measured by its pairs with a baseline. -/
def bandGains (s : State) (target resp : List Int) (zt : ZoneTrack) : List Int :=
  let range : Int := 10 * (s.val 30 0x4400 0x0A : Nat)
  let step : Int := 10 * (s.val 5 0x4400 0x0B : Nat)
  let g := fun b => let p := nth zt.gains b
    satTo (p - step) (p + step) (satTo (-range) range (nth target b - nth resp b))
  (List.range 30).map (fun b => g (max b (actingBand s)))

/-- The trim filter of a zone's band gains (R182): 512 taps in Q2.30. -/
def trimFilter (gains : List Int) : List Int := (List.range 512).map (fun i => sat32 (nth (Config.trimTaps gains) i))

/-- The valid pairs of a zone that take part in publication (R181). -/
def basedIn (s : State) (z : Nat) : List Nat := (validPairs s z).filter (fun k => (pairOf s k).base.isSome)

/-- The trims that a publication forms: zone, taps, band gains. -/
def trimTargets (s : State) : List (Nat × List Int × List Int) :=
  (trackedZones s).filterMap (fun z =>
    let zt := zoneOf s z
    match zt.target with
    | some t =>
      if s.flag (0x4440 + z) 0x04 && !(basedIn s z).isEmpty then
        let g := bandGains s t (meanBands s (basedIn s z)) zt
        some (z, trimFilter g, g)
      else none
    | none => none)

/-- Big-endian words of a DOMAIN, `n` bytes each. -/
def wordBytes (n : Nat) (l : List Int) : List Byte := l.flatMap (fun x => beBytes n (toPat (8 * n) x))

/-- The status of a publication (R183, R191): targets, trims, the bound, the counter and event 43. -/
def notePub (s : State) (p : DriftPub) : State :=
  let bound : Int := 10 * (s.val 30 0x4400 0x0A : Nat)
  let s1 := (s.stset (2 ^ 30) 0x4400 0x10 p.sigma.toNat).bump 0x4400 0x11 1
  let s2 := p.zoffs.foldl (fun s e => s.stset 0 (0x4440 + e.1) 0x05 (toPat 32 e.2)) s1
  let s3 := p.trims.foldl (fun s e =>
    let z := e.1
    let hit := e.2.2.any (fun g => decide (iabs g = bound))
    let s1 := setZone s z { zoneOf s z with taps := some e.2.1, gains := e.2.2 }
    let s2 := (s1.putBytes (0x44C0 + z) 0x01 (wordBytes 4 e.2.1)).putBytes (0x44C0 + z) 0x02 (wordBytes 2 e.2.2)
    (s2.stset 0 (0x44C0 + z) 0x03 (b2n hit)).condition 42 z 0 hit) s2
  s3.raise 43 ((p.zoffs.map (fun e => e.1)) ++ (p.trims.map (fun e => e.1))).eraseDups.length 0

/-- The zone of a feed. -/
def feedZoneOf (s : State) (f : Nat) : Nat := s.val 0 (0x3400 + f) 0x09

/-- A trim request of feed f enters where its sequencer, as it stands at the block that ingress processes, has room; otherwise it is
dropped and counted (R168). -/
def askTrim (q s : State) (f : Nat) (trim : Option (List Int)) : State :=
  if (q.feed f).corr.waiting.length < 8 then enterReq s f (.trim trim) else s.bump 0x3803 0x03 1

/-- Whether the trim-excluded event was raised for the publication in force. -/
def setTold (s : State) (f : Nat) (b : Bool) : State := setCorr s f { (s.feed f).corr with told := b }

/-- The zone whose publication a feed's trims come from. -/
def setTrimZone (s : State) (f z : Nat) : State := setCorr s f { (s.feed f).corr with zone := z }

/-- The trim requests of a zone (R160, R168, R186): one for each enabled feed that the trim fits at this block. -/
def trimZone (s : State) (z : Nat) (taps : List Int) : State :=
  let q := corrAhead s
  if !s.flag (0x4440 + z) 0x04 then s
  else
    ((enabledIn s.dict 0x3400 512 0x01).filter (fun f => decide (feedZoneOf s f = z))).foldl (fun s f =>
      if trimFits (allocation s.dict f) (q.feed f).corr then askTrim q (setTrimZone (setTold s f false) f z) f (some taps)
      else (setTold s f true).raise 38 f 0) s

/-- The trims removed from the feeds that `which` names (R187). -/
def untrim (s : State) (which : Nat → Bool) : State :=
  let q := corrAhead s
  (corrFeeds s).foldl (fun s f =>
    let c := (q.feed f).corr
    if which f && c.trim.isSome && !((seqChain c).contains (.trim none)) then askTrim q s f none else s) s

/-- The tracker state of 4400:12. -/
def trackerState (s : State) : Nat :=
  match s.drift.mode with
  | 0 => 0
  | 3 => 4
  | m => if s.drift.pairs.all (fun e => e.2.base.isNone) then 1 else if m = 2 then 3 else 2

/-- The movement stops at the values in force (R187, mode 3); a publication not yet applied is not. -/
def freeze (s : State) : State :=
  { s with drift := { s.drift with sigmaT := s.drift.sigma, zoffT := s.drift.zoff, pub := none } }

/-- Whether the publication interval of 4400:04 has passed since the last (R182), which counts from tick 0 after a reset: DESIGN CHOICE
(assumption 104). -/
def intervalDue (s : State) : Bool := decide (s.drift.pubAt + 3000 * s.val 10 0x4400 0x04 ≤ s.clk.tick)

/-- A publication interval (R182, R184, R187): the mode written takes effect; in mode 2 the Active or Solo module decides a
publication. -/
def driftInterval (s : State) : State :=
  let old := s.drift.mode
  let s1 : State := { s with drift := { s.drift with mode := s.drift.modeTo, pubAt := s.clk.tick } }
  let s2 := match s1.drift.mode with
    | 2 =>
      let off := untrim s1 (fun f => !(s1.flag (0x4440 + feedZoneOf s1 f) 0x04))
      (match s1.twin.role with
        | .solo | .active =>
          let sigma := sigmaTarget off
          let p := DriftPub.mk off.clk.tick sigma (offsetTargets off sigma) (trimTargets off)
          let s3 : State := { notePub off p with drift := { (notePub off p).drift with pub := some p } }
          if s1.twin.role = Role.active then s3.sendPort 3 (.drift p) else s3
        | _ => off)
    | 3 => if old = 3 then s1 else freeze s1
    | _ => untrim { s1 with drift := { s1.drift with sigmaT := 2 ^ 30, zoffT := [], pub := none } } (fun _ => true)
  s2.stset 0 0x4400 0x12 (trackerState s2)

/-- A publication received by the Standby (R184). -/
def driftReceived (s : State) (p : DriftPub) : State :=
  if s.twin.role = .standby then
    let s1 := notePub (s.heard 3) p
    { s1 with drift := { s1.drift with pub := some p } }
  else s

/-- A publication applied at block D + 4 (R184 to R186). -/
def driftApply (s : State) : State :=
  match s.drift.pub with
  | none => s
  | some p =>
    if s.clk.tick < p.tickD + 4 then s
    else
      let s1 : State := { s with drift := { s.drift with
        pub := none, sigmaT := p.sigma,
        zoffT := p.zoffs.foldl (fun m e => mset 0 m e.1 e.2) s.drift.zoffT } }
      p.trims.foldl (fun s e => trimZone s e.1 e.2.1) s1

/-- σ and the zone offsets move toward their targets for one block (R185). -/
def driftSlew (s : State) : State :=
  let d := s.dictAt 1
  let ds : Int := (ent d 8 0x4400 0x07 : Nat)
  let dz : Int := (ent d 4 0x4400 0x09 : Nat)
  let g := s.drift
  let zs := (g.zoff.map (fun e => e.1)) ++ (g.zoffT.map (fun e => e.1))
  let zoff := zs.foldl (fun m z =>
    let v := mget 0 g.zoff z
    mset 0 m z (v + satTo (-dz) dz (mget 0 g.zoffT z - v))) g.zoff
  let s1 : State := { s with drift := { g with
    sigma := g.sigma + satTo (-ds) ds (g.sigmaT - g.sigma), zoff := zoff } }
  zs.foldl (fun s z => s.stset 0 (0x3840 + z) 0x02 (toPat 32 (mget 0 zoff z))) s1

/-- The effect of a write to 4400:01 (R187): from the next publication interval; leaving mode 2 for mode 3 stops the movement at
once. -/
def driftModeApply (s : State) (m : Nat) : State :=
  let s1 := s.put 0 0x4400 0x01 m
  let s2 : State := { s1 with drift := { s1.drift with modeTo := m } }
  if m = 3 && s2.drift.mode = 2 then freeze s2 else s2

/-- Pairs that have ceased to be pairs (R191): nothing measured, no pair state; their baseline stays (R181). -/
def dropPairs (s : State) : State :=
  let tracked := trackedPairs s
  let s1 := (s.drift.pairs.filter (fun e => decide (e.2.state ≠ 0) && !tracked.contains e.1)).foldl (fun s e =>
    let z := 0x4480 + e.1 / 8
    let s1 := setPair s e.1 { Pair.init with base := e.2.base }
    ((s1.stset 0 z (1 + e.1 % 8) 0).stset 0 z (9 + e.1 % 8) 0).condition 41 e.1 0 false) s
  (s1.drift.zones.filter (fun e => decide (e.2.valid ≠ 0) && !tracked.any (fun k => decide (k / 8 = e.1)))).foldl (fun s e =>
    (setZone s e.1 { e.2 with valid := 0 }).stset 0 (0x4440 + e.1) 0x06 0) s1

/-- Whether a feed's trim is not one for its zone, or the zone takes none (R160). -/
def trimStale (s : State) (f : Nat) : Bool :=
  let c := (s.feed f).corr
  c.trim.isSome && (decide (c.zone ≠ feedZoneOf s f) || !s.flag (0x4440 + feedZoneOf s f) 0x04)

/-- A trim that may no longer be in force is asked to be removed (R160). -/
def trimSweep (s : State) : State :=
  if decide (s.drift.mode = 2 ∨ s.drift.mode = 3) && (corrFeeds s).any (trimStale s) then untrim s (trimStale s) else s

/-- The tracker's entries at a boundary (R191). -/
def driftTick (s : State) : State :=
  let s1 := trimSweep (dropPairs s)
  s1.stset 0 0x4400 0x12 (trackerState s1)

/-- Refusals of a baseline capture (R181). -/
def baselineCheck (s : State) (v : Nat) : Nat :=
  firstCode [boolOk v, need (v = 0 || baselineOk s) Abort.conflict]

/-! The commands -/

/-- DRIFT_ESTIMATE_WINDOW. -/
def execDriftEstimateWindow (est : List PairEstimate) (s : State) : Host.Outcome State Fault Refusal :=
  done (driftWindow s est)

/-- DRIFT_PUBLICATION: at the end of a publication interval. -/
def execDriftPublication (s : State) : Host.Outcome State Fault Refusal := done (if intervalDue s then driftInterval s else s)

/-- DRIFT_PUBLICATION_RECEIVED. -/
def execDriftPublicationReceived (pub : DriftPub) (s : State) : Host.Outcome State Fault Refusal :=
  done (driftReceived s pub)

/-- DRIFT_APPLY. -/
def execDriftApply (s : State) : Host.Outcome State Fault Refusal := done (driftApply s)

/-- BASELINE_CAPTURE. -/
def execBaselineCapture (value : Nat) (s : State) : Host.Outcome State Fault Refusal :=
  done (s.attempt 0x4400 (baselineCheck s value) (fun t => if value = 1 then baselineApply t else t))

/-- DRIFT_MODE_WRITE. -/
def execDriftModeWrite (mode : Nat) (s : State) : Host.Outcome State Fault Refusal :=
  done (s.attempt 0x4400 (rangeOk mode 0 3) (fun t => driftModeApply t mode))

end Sys2Proof.Machine
end

