-- ==== Sys2Proof/Machine/Render.lean ====
section
/-! DEFINITION. Render enable, media rate, and the writes of the ranges 1020, 1040 and 1100 with a command of their own (R54, R55, R442,
R476, R547, R564). -/
namespace Sys2Proof.Machine

/-! Render enable (R476, R564) -/

/-- The conditions of R476 for a write of 1 to 1100:03. -/
def renderConditions (s : State) : Bool :=
  decide (s.sup.mod = .ready) && decide (s.dram.state = 2) &&
  (match s.time.state with
    | .free | .acquiring => false
    | .locked | .holdover | .rebaseConfirm | .grandmaster => true) &&
  s.ledger.failed.isEmpty && !s.fenced 0x710 && (s.sup.pairA || s.sup.pairB) &&
  decide (15 ≤ ((List.range 18).filter (fun i => decide ((slideOf s i).st ≠ .fenced))).length) &&
  decide (s.keys.life ≠ .retired)

/-- Refusals of a write to 1100:03. -/
def renderCheck (s : State) (v : Nat) : Nat :=
  firstCode [boolOk v, need (decide (v = 0) || s.flag 0x1100 0x03 || renderConditions s) Abort.conflict]

/-- The drive channels whose 5000+n:01 is 1 start for this block (R393, R564). -/
def drivesStart (s : State) : State :=
  (enabledIn s.dict 0x5000 16 0x01).foldl (fun s n => s.setDrive n (enableAt (s.drive n) s.clk.tick true)) s

/-- Rendering enabled at this block (R448, R564): the histories are cleared by each stage at its first block. -/
def renderStart (s : State) (actIn : Bool) : State :=
  if s.flag 0x1100 0x03 then s
  else drivesStart (setMod (chooseRole (s.put 0 0x1100 0x03 1) actIn) .rendering)

/-- Rendering disabled at this block (R564): the stages end with it, and the module is Ready (R475). -/
def renderStop (s : State) : State :=
  if s.flag 0x1100 0x03 then
    let s1 := s.put 0 0x1100 0x03 0
    if s1.sup.mod = .rendering then setMod s1 .ready else s1
  else s

/-- The effect of a write to 1100:03. -/
def renderApply (s : State) (v : Nat) (actIn : Bool) : State := if v = 1 then renderStart s actIn else renderStop s

/-- Whether the block `k` ticks behind ingress is the first of a render (R564). -/
def firstBlock (s : State) (k : Nat) : Bool := renders (s.dictAt k) && !renders (s.dictAt (k + 1))

/-- Every group buffer at zero (R55, R349, R564). -/
def freshGroups (s : State) : State :=
  [0, 1, 2].foldl (fun s b => ledgerZero s (Config.groupBase b).toNat ((Config.groupBase b).toNat + 0x8000)) s

/-- Every delay line of the objects and every group buffer at zero, in the first block that ingress commits (R564). -/
def freshLines (s : State) : State :=
  let s1 := dramZero (ledgerZero (freshGroups s) 0 0x1000000) dramBase (dramBase + 0x20000000)
  { s1 with pipe := { s1.pipe with inMiss := [] } }

/-- A feed with zero history; its banks and its sequencer stay (R55, R564). -/
def freshFeed (st : FeedSt) : FeedSt :=
  { FeedSt.init with corr := { st.corr with fdl := [] } }

/-- Every feed with zero history, in the first block of the output bus (R564). -/
def freshFeeds (s : State) : State :=
  let s1 := ledgerZero s 0x02080000 0x03100000
  (s1.pipe.feeds.map (fun e => e.1)).foldl (fun s f => s.setFeed f (freshFeed (s.feed f))) s1

/-- No crosspoint of a render before, and no miss sequence, in the first block of placement (R55, R564). Anchors and the time of the
last boundary evaluated stay: keyframes queued since are late against it (R111). -/
def freshObjects (s : State) : State :=
  let s1 := (s.pipe.objs.map (fun e => e.1)).foldl (fun s o =>
    setObj s o { s.obj o with pfade := .ok, pfadeB := .ok, pleave := false, pleaveB := false }) s
  { s1 with pipe := { s1.pipe with xprev := [], xcur := [] } }

/-- Every drive channel is Idle at the start of tick A + 5 after the last block A (R564). -/
def drivesRest (s : State) : State :=
  (s.drives.map (fun e => e.1)).foldl (fun s n =>
    let d := s.drive n
    putDrive s n { driveRest d .idle with stopEnd := 0 }) s

/-! Media rate (R54, R55) -/

/-- Refusals of a write to 1100:01 (R54). -/
def mediaRateCheck (s : State) (v : Nat) : Nat :=
  firstCode [rangeOk v 1 2, need (!s.flag 0x1100 0x03) Abort.conflict]

/-- A dictionary without the entries of subindex `sub` in an index range. -/
def dropEntries {α : Type} (m : SMap α) (lo hi sub : Nat) : SMap α :=
  m.filter (fun e => !(decide (key lo 0 ≤ e.1 ∧ e.1 < key hi 0) && decide (e.1 % 256 = sub)))

/-- Lines, windows and buffers at zero, the crosspoints discarded (R55). -/
def rateBuffers (s : State) : State :=
  let s1 := freshFeeds (freshObjects (freshLines s))
  { s1 with
    pipe := { s1.pipe with
      rendered := [], fed := [], fedPrev := [], outNow := [], xnext := none, pubs := [], inputs := [], userBlk := [], inNow := none },
    stat := dropEntries (dropEntries s1.stat 0x3400 0x3600 0x30) 0x3400 0x3600 0x32 }

/-- Banks Empty, correction disabled, sequencers Idle (R55). -/
def rateCorrection (s : State) : State :=
  let s1 : State := { s with
    dict := dropEntries s.dict 0x4000 0x4200 0x02 }
  (corrFeeds s1).foldl (fun s f => corrStatus (setCorr s f (resetCorr (s.feed f).corr (s.feed f).corr.named)) f) s1

/-- The baseline discarded (R55). -/
def rateBaseline (s : State) : State :=
  let d := s.drift
  { s with
    drift := { d with
      pairs := d.pairs.foldl (fun m e => mset Pair.init m e.1 { e.2 with base := none }) d.pairs,
      zones := d.zones.foldl (fun m e => mset ZoneTrack.init m e.1 { e.2 with target := none }) d.zones },
    nv := { s.nv with pairs := [], zones := [] } }

/-- Microphones off, AES3 inputs back to locking, user slots stopped (R55). -/
def ratePorts (s : State) : State :=
  let s1 := (List.range 8).foldl (fun s m => pdmEnableApply s m 0) s
  let s2 := (List.range 16).foldl (fun s i =>
    if aesMode s i = 0 then s
    else ((setAes s i (unlocked (aesOf s i) .locking)).leave 96 i 0).leave 98 i 0) s1
  (List.range 16).foldl (fun s u =>
    let sl := slotOfNo s u
    if s.flag (0x7080 + u) 0x02 then
      let t := setSlot s u { sl with state := 1 }
      match sl.rod with
      | some r =>
        let v := endItem t r true
        v.setRod r (v.rod r).halted
      | none => t
    else s) s2

/-- An accepted change of the media rate, at once (R55). -/
def mediaRateApply (s : State) (v : Nat) : State :=
  if s.val 2 0x1100 0x01 = v then s
  else
    let s1 := s.putNv 2 0x1100 0x01 v
    ratePorts (rateBaseline (rateCorrection (rateBuffers (s1.stset 32 0x1100 0x02 s1.n))))

/-! Management address and GPIO (R442, R547) -/

/-- Whether a netmask is contiguous. -/
def contiguous (v : Nat) : Bool := (List.range 33).any (fun k => decide (v = 2 ^ 32 - 2 ^ k))

/-- The IPv4 address of the management port (R442): 1020:02, or 169.254.x.y by the unique identifier. -/
def managementIp (s : State) : Nat :=
  let u := Config.uid.toNat
  if s.val 0 0x1020 0x02 ≠ 0 then s.val 0 0x1020 0x02
  else 169 * 2 ^ 24 + 254 * 2 ^ 16 + (u / 256 % 256 % 254 + 1) * 256 + u % 256

/-- Refusals of a write to 1020:02 or 1020:03. -/
def managementCheck (sub v : Nat) : Nat :=
  firstCode [need (decide (sub = 0x02 ∨ sub = 0x03)) Abort.noSub, need (decide (v < 2 ^ 32)) Abort.length,
    need (decide (sub = 0x02) || contiguous v) Abort.range]

/-- The address or the mask waits for the next boundary. -/
def managementApply (s : State) (sub v : Nat) : State :=
  if sub = 0x02 then { s with todo := { s.todo with mgmtAddr := some v } } else { s with todo := { s.todo with mgmtMask := some v } }

/-- A changed address or mask at a boundary ends every session of the management port. -/
def managementTick (s : State) : State :=
  let set := fun (s : State) (d sub : Nat) (v : Option Nat) =>
    match v with
    | some x => if s.val d 0x1020 sub = x then s else endSessions (s.putNv d 0x1020 sub x) (fun k => decide (k.port = 2))
    | none => s
  let s1 := set (set s 0 0x02 s.todo.mgmtAddr) 0xFFFF0000 0x03 s.todo.mgmtMask
  { s1 with todo := { s1.todo with mgmtAddr := none, mgmtMask := none } }

/-- Refusals of a write to 1040:01 or 1040:02. -/
def gpioCheck (sub v : Nat) : Nat :=
  firstCode [need (decide (sub = 0x01 ∨ sub = 0x02)) Abort.noSub, need (decide (v < 2 ^ 16)) Abort.length]

/-- Direction or level waits for the next boundary. -/
def gpioApply (s : State) (sub v : Nat) : State :=
  if sub = 0x01 then { s with todo := { s.todo with gpioDir := some v } } else { s with todo := { s.todo with gpioOut := some v } }

/-- Direction and level at a boundary, and 1040:03 from the balls: an output reads back its driven level. -/
def gpioTick (s : State) (balls : Nat) : State :=
  let set := fun (s : State) (sub : Nat) (v : Option Nat) =>
    match v with
    | some x => s.put 0 0x1040 sub x
    | none => s
  let s1 := set (set s 0x01 s.todo.gpioDir) 0x02 s.todo.gpioOut
  let dir := s1.val 0 0x1040 0x01
  let g := Nat.lor (Nat.land (s1.val 0 0x1040 0x02) dir) (Nat.land (balls % 65536) (65535 - dir % 65536))
  { s1 with gpio := g, todo := { s1.todo with gpioDir := none, gpioOut := none } }

/-! The commands -/

/-- RENDER_START: a write of 1 to 1100:03 at its apply block. -/
def execRenderStart (actIn : Bool) (s : State) : Host.Outcome State Fault Refusal :=
  done (s.attempt 0x1100 (renderCheck s 1) (fun t => renderStart t actIn))

/-- RENDER_STOP: a write of 0 to 1100:03 at its apply block. -/
def execRenderStop (s : State) : Host.Outcome State Fault Refusal :=
  done (s.attempt 0x1100 (renderCheck s 0) renderStop)

/-- MEDIA_RATE_CHANGE. -/
def execMediaRateChange (rate : Nat) (s : State) : Host.Outcome State Fault Refusal :=
  done (s.attempt 0x1100 (mediaRateCheck s rate) (fun t => mediaRateApply t rate))

/-- CLEAR_MISS_RECORDS: 1 clears 1100:05 to 1100:0B at the next boundary. -/
def execClearMissRecords (value : Nat) (s : State) : Host.Outcome State Fault Refusal :=
  done (s.attempt 0x1100 (boolOk value) (fun t => { t with todo := { t.todo with misses := t.todo.misses || decide (value = 1) } }))

/-- CLEAR_FOL_STATISTICS: 1 clears 1020:06 to :0A and :0D at the next boundary. -/
def execClearFolStatistics (value : Nat) (s : State) : Host.Outcome State Fault Refusal :=
  done (s.attempt 0x1020 (boolOk value) (fun t => { t with todo := { t.todo with fol := t.todo.fol || decide (value = 1) } }))

/-- MANAGEMENT_ADDRESS_WRITE. -/
def execManagementAddressWrite (sub value : Nat) (s : State) : Host.Outcome State Fault Refusal :=
  done (s.attempt 0x1020 (managementCheck sub value) (fun t => managementApply t sub value))

/-- GPIO_WRITE. -/
def execGpioWrite (sub value : Nat) (s : State) : Host.Outcome State Fault Refusal :=
  done (s.attempt 0x1040 (gpioCheck sub value) (fun t => gpioApply t sub value))

end Sys2Proof.Machine
end

