-- ==== Sys2Proof/Machine/Dictionary.lean ====
section
/-! DEFINITION. Access to the object dictionary as a whole (R403 to R410, R426, R430, R437): the check and the effect of a write to any
entry, and the value that a read returns. Each entry's own rules are those of its chapter. -/
namespace Sys2Proof.Machine

/-! Writes: checks (R405, R406, R437) -/

/-- The default of an entry (R20): its row's, or by instance. -/
def entryDefault (r : Row) (index sub : Nat) : Nat :=
  if 0x4410 ≤ index ∧ index ≤ 0x4417 ∧ sub = 0x03 then index - 0x4410
  else if 0x3820 ≤ index ∧ index ≤ 0x3827 then coverageDefault (index - 0x3820) (sub - 1)
  else r.dflt

/-- Whether an entry carries bytes. -/
def Row.isBytes (r : Row) : Bool := decide (r.ty = .str ∨ r.ty = .dom)

/-- Whether bytes are UTF-8 without a NUL byte (R404), by what the next bytes must be: `n` continuation bytes, the first of them in
`lo` to `hi`. -/
def utf8From : Nat → Nat → Nat → List Byte → Bool
  | n, _, _, [] => decide (n = 0)
  | 0, _, _, b :: r =>
    let x := b.toNat
    if x = 0 then false
    else if x < 0x80 then utf8From 0 0x80 0xBF r
    else if 0xC2 ≤ x ∧ x ≤ 0xDF then utf8From 1 0x80 0xBF r
    else if x = 0xE0 then utf8From 2 0xA0 0xBF r
    else if x = 0xED then utf8From 2 0x80 0x9F r
    else if 0xE1 ≤ x ∧ x ≤ 0xEF then utf8From 2 0x80 0xBF r
    else if x = 0xF0 then utf8From 3 0x90 0xBF r
    else if 0xF1 ≤ x ∧ x ≤ 0xF3 then utf8From 3 0x80 0xBF r
    else if x = 0xF4 then utf8From 3 0x80 0x8F r
    else false
  | n + 1, lo, hi, b :: r => decide (lo ≤ b.toNat ∧ b.toNat ≤ hi) && utf8From n 0x80 0xBF r

/-- The length of a write against its entry's type (R405, R406). -/
def lengthCheck (r : Row) (b : List Byte) : Nat :=
  if r.isBytes then
    firstCode [need (decide (b.length ≤ r.most)) Abort.tooLong, need (decide (r.exact = 0 ∨ b.length = r.exact)) Abort.length]
  else need (decide (b.length = r.ty.size)) Abort.length

/-- The value of a write against its entry's table (R404, R405). -/
def valueCheck (r : Row) (b : List Byte) : Nat :=
  if r.ty = .str then need (utf8From 0 0x80 0xBF b) Abort.range
  else if r.ty = .dom then 0
  else rangeOk (r.ty.value (beNat b)) r.lo r.hi

/-- The sources of a user-slot input (R233). -/
def slotInputOk (v : Nat) : Bool :=
  decide (v < 0x200 ∨ (0x1000 ≤ v ∧ v < 0x1200) ∨ (0x2000 ≤ v ∧ v < 0x2008) ∨ v = 0xFFFF)

/-- The check of R168 at acceptance: a ninth request is one too many. -/
def requestBusy (s : State) (index : Nat) : Nat :=
  busyCheck ((corrAhead s).feed (index - 0x4000)).corr (pendingRequests s (index - 0x4000)).length

/-- Refusals of a write to 4000+f: `q` holds the sequencers at the apply block, `now` the state at acceptance. -/
def correctionCheck (now s : State) (index sub v : Nat) (b : List Byte) (accepting : Bool) : Nat :=
  let f := index - 0x4000
  let q := corrAhead s
  let asks := fun (makes : Bool) => if accepting && makes then requestBusy now index else 0
  let later := fun (x : Nat) => accepting && (pendingRequests now f).contains (.switch x)
  match sub with
  | 0x01 => allocationCheck s q f v
  | 0x02 => firstCode [correctionEnableCheck q f v 0, asks (decide (finalEnable (q.feed f).corr ≠ decide (v = 1)))]
  | 0x03 => firstCode [bankSwitchCheck q f v 0, asks (decide (finalBank (q.feed f).corr ≠ v))]
  | 0x04 => fadeLengthCheck v
  | 0x05 => firstCode [bankLoadCheck s q f 0 b 0 (later 0), asks true]
  | 0x06 => firstCode [bankLoadCheck s q f 1 b 0 (later 1), asks true]
  | _ => 0

/-- Refusals of a write to 5000+n (R340, R389, R393). -/
def driveEntryCheck (s : State) (n sub v : Nat) (accepting : Bool) : Nat :=
  match sub with
  | 0x01 => driveEnableCheck s n v accepting
  | 0x02 => need (txCodeOk v) Abort.range
  | 0x04 | 0x05 | 0x06 => driveIdleCheck s n
  | _ => 0

/-- Refusals of a write to 7080+u. -/
def slotEntryCheck (s : State) (u sub v : Nat) (b : List Byte) : Nat :=
  match sub with
  | 0x01 => slotImageCheck s u { Config.slotImage b with length := b.length }
  | 0x02 => slotEnableCheck s u v
  | _ => firstCode [need (slotInputOk v) Abort.range, need (!s.flag (0x7080 + u) 0x02) Abort.conflict]

/-- Refusals of a write to the range 9000–90FF. -/
def lifeEntryCheck (s : State) (index sub v : Nat) (b : List Byte) : Nat :=
  if index = 0x9000 then
    match sub with
    | 0x02 => provisionCheck s v
    | 0x03 => deployCheck s v
    | 0x04 => tokenCheck s 1 b
    | _ => tokenCheck s 2 b
  else if index = 0x9010 then keyCheck s b
  else if index = 0x9020 then rootCheck s b
  else
    match sub with
    | 0x01 => policyCheck s v
    | 0x02 => svnCheck s v
    | _ => 0

/-- Refusals of a write to the range A000–A0FF. -/
def stagingCheck (s : State) (sub v : Nat) (b : List Byte) : Nat :=
  match sub with
  | 0x02 => stagedCheck s b.length
  | 0x03 => installCheck s v
  | 0x04 => liveCheck s v
  | 0x05 | 0x06 => trialCheck s v
  | _ => 0

/-- Refusals of a write to the ranges 1000–24FF. -/
def portRangeCheck (s : State) (index sub v : Nat) (b : List Byte) : Nat :=
  match index / 16, sub with
  | 0x102, 0x02 | 0x102, 0x03 => managementCheck sub v
  | 0x110, 0x01 => mediaRateCheck s v
  | 0x110, 0x03 => renderCheck s v
  | 0x200, _ | 0x202, _ => timeCheck s index sub v
  | 0x203, _ => pulseCheck s (index - 0x2030) sub v
  | 0x210, 0x09 => need (decide (v ≤ 4094 ∨ v = 0xFFFF)) Abort.range
  | 0x211, _ => portCheck s (index - 0x2110) sub v
  | 0x240, _ => pdmClockCheck s v
  | 0x241, 0x02 => need (decide (v = 20 ∨ v = 24)) Abort.range
  | 0x242, 0x02 => need ((beHalves b).all txCodeOk) Abort.range
  | 0x244, 0x01 => pdmEnableCheck s (index - 0x2440) v
  | 0x244, 0x04 => firstCode [need ([16, 32, 64, 128, 256].contains v) Abort.range, pdmIdleCheck s (index - 0x2440)]
  | 0x244, _ => pdmIdleCheck s (index - 0x2440)
  | _, _ =>
    if 0x2200 ≤ index ∧ index < 0x2240 then
      if sub = 0x07 then rxMapCheck b else if (2 ≤ sub ∧ sub ≤ 5) ∨ sub = 8 then slotIdleCheck s index else 0
    else if 0x2300 ≤ index ∧ index < 0x2340 then
      if sub = 0x07 then txMapCheck b else if (2 ≤ sub ∧ sub ≤ 5) ∨ sub = 8 then slotIdleCheck s index else 0
    else 0

/-- Refusals of a write to the ranges 3000–44FF. -/
def renderRangeCheck (now s : State) (index sub v : Nat) (b : List Byte) (accepting : Bool) : Nat :=
  if index < 0x3200 then
    match sub with
    | 0x02 => sourceCheck s (index - 0x3000) v
    | 0x06 => keyframeCheck (index - 0x3000) b
    | _ => 0
  else if index < 0x3600 then (if 0x20 ≤ sub ∧ sub ≤ 0x2F then biquadCheck b else 0)
  else if index = 0x3800 then
    match sub with
    | 0x01 => need (decide (v < 64 ∨ v = 255)) Abort.range
    | 0x03 => need (decide (16 ≤ (usableSlides s).length) || slidesFinish 15 v s.n) Abort.capacity
    | _ => 0
  else if 0x4000 ≤ index ∧ index < 0x4200 then correctionCheck now s index sub v b accepting
  else if index = 0x4400 then (if sub = 0x02 then baselineCheck s v else 0)
  else if 0x4410 ≤ index ∧ index ≤ 0x4417 then need (decide (sub ≠ 0x02) || decide (popcount 64 v ≤ 8)) Abort.range
  else if 0x4440 ≤ index ∧ index < 0x4480 then
    need (decide (sub ≠ 0x01 ∨ v = 0xFFFF) || (decide (v < 512) && decide (s.val 0 (0x3400 + v) 0x09 = index - 0x4440))) Abort.range
  else 0

/-- Refusals of a write to the ranges 5000–B1FF. -/
def systemRangeCheck (s : State) (index sub v : Nat) (b : List Byte) (accepting : Bool) : Nat :=
  if 0x5000 ≤ index ∧ index ≤ 0x500F then driveEntryCheck s (index - 0x5000) sub v accepting
  else if index = 0x501F then driveGlobalCheck s v
  else if index = 0x6000 then (if sub = 0x04 then isolateCheck s v else if sub = 0x05 then handoverCheck s v else 0)
  else if index = 0x7000 then (if sub = 0x03 then rotateCheck s v else 0)
  else if 0x7010 ≤ index ∧ index ≤ 0x7017 then retireFrameCheck s (index - 0x7010) v
  else if 0x7020 ≤ index ∧ index ≤ 0x7031 then retireSlideCheck s (index - 0x7020) v
  else if 0x7040 ≤ index ∧ index ≤ 0x707F then retireRodCheck s (index - 0x7040) v
  else if 0x7080 ≤ index ∧ index ≤ 0x708F then slotEntryCheck s (index - 0x7080) sub v b
  else if 0x7420 ≤ index ∧ index ≤ 0x7423 then migrateCheck s (index - 0x7420) v
  else if index = 0x7450 then
    (if sub = 0x01 then firstCode [need (decide (v < 2 ^ 24)) Abort.reserved, need (bitOf v 23) Abort.range] else 0)
  else if index = 0x8000 then (if sub = 0x02 then selfTestCheck s v else parkCheck s v)
  else if index = 0x8020 then (if sub = 0x02 then targetedCheck s v else 0)
  else if 0x9000 ≤ index ∧ index < 0x9100 then lifeEntryCheck s index sub v b
  else if index = 0xA000 then stagingCheck s sub v b
  else if index = 0xB000 then evSourceCheck (sub - 1) v
  else 0

/-- The checks of a write in the order of R437 from the length on: `s` is the state that will hold at the apply block, `now` the
state at acceptance. A STRING or DOMAIN of zero length is a no-operation (R406). -/
def writeCheck (now s : State) (r : Row) (index sub : Nat) (b : List Byte) (accepting : Bool) : Nat :=
  if r.isBytes && b.isEmpty then 0
  else
    let v := beNat b
    firstCode [lengthCheck r b, valueCheck r b,
      if index < 0x3000 then portRangeCheck s index sub v b
      else if index < 0x5000 then renderRangeCheck now s index sub v b accepting
      else systemRangeCheck s index sub v b accepting,
      s.gate index]

/-! Writes: effects -/

/-- An entry that holds its value and nothing else (R20). -/
def storeEntry (s : State) (r : Row) (index sub : Nat) (b : List Byte) : State :=
  if r.acc = .wo then s
  else if r.isBytes then (if r.nv then s.putBytesNv index sub b else s.putBytes index sub b)
  else if r.nv then s.putNv (entryDefault r index sub) index sub (beNat b)
  else s.put (entryDefault r index sub) index sub (beNat b)

/-- A command to clear counters, taken at the next tick boundary. -/
def askClear (s : State) (v : Nat) (f : Todo → Todo) : State := if v = 1 then { s with todo := f s.todo } else s

/-- The effect of a write to the line mode or RS-FEC of a ring port: a port in a mode that the entries no longer allow loses lock; one
without lock starts the alternation of mode 1 with 25GBASE-R (R308). -/
def portApply (s : State) (r : Row) (index sub : Nat) (b : List Byte) : State :=
  let p := index - 0x2110
  let s0 := storeEntry s r index sub b
  let s1 := if sub = 0x01 && !(s0.port p).lock then s0.setPort p { s0.port p with trying := 1 } else s0
  if (s1.port p).lock && !modeKept s1 p (s1.port p).mode then linkLoss s1 p else s1

/-- The effect of a write to the ranges 1000–24FF. -/
def portRangeApply (s : State) (r : Row) (index sub v : Nat) (b : List Byte) : State :=
  match index / 16, sub with
  | 0x102, 0x02 | 0x102, 0x03 => managementApply s sub v
  | 0x102, 0x0E => askClear s v (fun t => { t with fol := true })
  | 0x104, _ => gpioApply s sub v
  | 0x110, 0x01 => mediaRateApply s v
  | 0x110, 0x03 => renderApply s v s.twin.actIn
  | 0x110, 0x0D => askClear s v (fun t => { t with misses := true })
  | 0x200, _ | 0x202, _ => timeApply s index sub v
  | 0x203, _ => pulseApply s (index - 0x2030) sub v
  | 0x210, 0x01 => ringApply s v
  | 0x211, _ => portApply s r index sub b
  | 0x241, 0x01 => aesModeApply s (index - 0x2410) v
  | 0x244, 0x01 => pdmEnableApply s (index - 0x2440) v
  | _, _ =>
    if 0x2200 ≤ index ∧ index < 0x2240 ∧ sub = 0x16 then askClear s v (fun t => { t with rxStats := setAdd (index - 0x2200) t.rxStats })
    else storeEntry s r index sub b

/-- The effect of a write to 4000+f. -/
def correctionApply (s : State) (r : Row) (index sub v : Nat) (b : List Byte) : State :=
  let f := index - 0x4000
  match sub with
  | 0x01 => allocationApply s f v
  | 0x02 => correctionEnableApply s (corrAhead s) f v
  | 0x03 => bankSwitchApply s (corrAhead s) f v
  | 0x05 => bankLoadApply s f 0 b
  | 0x06 => bankLoadApply s f 1 b
  | _ => storeEntry s r index sub b

/-- The effect of a write to the ranges 3000–44FF. -/
def renderRangeApply (s : State) (r : Row) (index sub v : Nat) (b : List Byte) : State :=
  if index < 0x3200 ∧ sub = 0x06 then keyframeApply s (index - 0x3000) b
  else if 0x3400 ≤ index ∧ index < 0x3600 ∧ sub = 0x34 then askClear s v (fun t => { t with meters := setAdd (index - 0x3400) t.meters })
  else if index = 0x3801 then askClear s v (fun t => { t with place := true })
  else if 0x4000 ≤ index ∧ index < 0x4200 then correctionApply s r index sub v b
  else if index = 0x4400 ∧ sub = 0x01 then driftModeApply s v
  else if index = 0x4400 ∧ sub = 0x02 then (if v = 1 then baselineApply s else s)
  else storeEntry s r index sub b

/-- The effect of a write to the range 9000–90FF; what is observed of an erasure is free. -/
def lifeRangeApply (s : State) (r : Row) (index sub v : Nat) (b : List Byte) : State :=
  if index = 0x9000 then
    match sub with
    | 0x02 => provisionApply s
    | 0x03 => deployApply s
    | 0x04 => (erase s .opened (Config.erasureOk s.draws)).drawn
    | _ => (erase s .retired (Config.erasureOk s.draws)).drawn
  else if index = 0x9010 then
    if sub < 0x10 then levelKeyApply s sub b
    else { s with keys := { s.keys with show_ := mset [] s.keys.show_ (sub - 0x10) b } }
  else if index = 0x9020 then rootApply s sub b
  else if sub = 0x03 then storeEntry s r index sub b
  else s.putNv 0 0x9030 sub v

/-- The effect of a write to the ranges 7000–74FF, for apply tick `a` of a rotation. -/
def rodRangeApply (s : State) (r : Row) (index sub v a : Nat) (b : List Byte) : State :=
  if index = 0x7000 ∧ sub = 0x03 then rotateApply s v a
  else if 0x7010 ≤ index ∧ index ≤ 0x7017 then retireFrameApply s (index - 0x7010) v
  else if 0x7020 ≤ index ∧ index ≤ 0x7031 then retireSlideApply s (index - 0x7020) v
  else if 0x7040 ≤ index ∧ index ≤ 0x707F then retireRodApply s (index - 0x7040) v
  else if 0x7080 ≤ index ∧ index ≤ 0x708F ∧ sub = 0x01 then
    slotImageApply s (index - 0x7080) { Config.slotImage b with length := b.length }
  else if 0x7080 ≤ index ∧ index ≤ 0x708F ∧ sub = 0x02 then slotEnableApply s (index - 0x7080) v
  else if index = 0x70C0 then askClear s v (fun t => { t with tally := true })
  else if index = 0x7400 then askClear s v (fun t => { t with ledger := true })
  else if index = 0x7410 ∧ sub = 0x0A then askClear s v (fun t => { t with dram := true })
  else if 0x7420 ≤ index ∧ index ≤ 0x7423 then (if v = 1 then triggerRank s (index - 0x7420) false else s)
  else storeEntry s r index sub b

/-- The effect of a write to the range A000–A0FF, for apply tick `a` of a live switch. -/
def stagingApply (s : State) (r : Row) (sub v a : Nat) (b : List Byte) : State :=
  match sub with
  | 0x02 => stagedApply s (Config.imageInfo b)
  | 0x03 => installApply s v
  | 0x04 => liveApply s v a
  | 0x05 => if v = 1 then commitNow s else s
  | 0x06 => if v = 1 then revertNow s else s
  | _ => storeEntry s r 0xA000 sub b

/-- The effect of a write to the range B000–B1FF. -/
def eventRangeApply (s : State) (index sub v : Nat) : State :=
  if index = 0xB000 then evSourceApply s (sub - 1) v
  else
    match sub with
    | 0x04 => { s with events := { s.events with readSeq := v } }
    | 0x06 => { s with events := { s.events with ackReq := s.events.ackReq || decide (v = 1) } }
    | _ => { s with events := { s.events with clrReq := s.events.clrReq || decide (v = 1) } }

/-- The effect of a write to the ranges 5000–8020; what a self-test or a bring-up observes is free. -/
def systemRangeApply (s : State) (r : Row) (index sub v a : Nat) (b : List Byte) : State :=
  if 0x5000 ≤ index ∧ index ≤ 0x500F ∧ sub = 0x01 then driveEnableApply s (index - 0x5000) v
  else if 0x5000 ≤ index ∧ index ≤ 0x500F ∧ sub = 0x27 then clearLatchApply s (index - 0x5000) v
  else if 0x5010 ≤ index ∧ index ≤ 0x5013 ∧ sub = 0x09 then askClear s v (fun t => { t with rails := setAdd (index - 0x5010) t.rails })
  else if index = 0x6000 ∧ sub = 0x04 then isolateApply s v
  else if index = 0x6000 ∧ sub = 0x05 then handoverApply s v
  else if index = 0x6000 ∧ sub = 0x1E then askClear s v (fun t => { t with twin := true })
  else if 0x7000 ≤ index ∧ index < 0x7500 then rodRangeApply s r index sub v a b
  else if index = 0x8000 ∧ sub = 0x02 then (if v = 1 then (selfTestApply s 1 (Config.testObs s.draws)).drawn else s)
  else if index = 0x8000 ∧ sub = 0x04 then parkFree s v
  else if index = 0x8020 ∧ sub = 0x02 then
    (if v = 1 then (targetedApply s 1 (Config.unitObs s.draws) (Config.exclusionNs s.draws)).drawn else s)
  else storeEntry s r index sub b

/-- The effect of a write that satisfies its checks, on the block that ingress processes now; `a` is the apply tick of a request that
acts before its block. -/
def writeApply (s : State) (r : Row) (index sub a : Nat) (b : List Byte) : State :=
  if r.isBytes && b.isEmpty then s
  else
    let v := beNat b
    if index < 0x3000 then portRangeApply s r index sub v b
    else if index < 0x5000 then renderRangeApply s r index sub v b
    else if index < 0x9000 then systemRangeApply s r index sub v a b
    else if index < 0xA000 then lifeRangeApply s r index sub v b
    else if index < 0xB000 then stagingApply s r sub v a b
    else eventRangeApply s index sub v

/-- What a refusal of a write leaves behind: the signature-refused event (R515), and after every token a new nonce (R511). -/
def writeRefused (s : State) (index sub code : Nat) : State :=
  let s1 := signatureRefused s code index sub
  if index = 0x9000 ∧ (sub = 0x04 ∨ sub = 0x05) ∧ code ≠ Abort.length ∧ code ≠ Abort.tooLong then newNonce s1 else s1

/-- A write in force at once (R426): its effect, and after a token a new nonce (R511). -/
def writeNow (s : State) (r : Row) (index sub : Nat) (b : List Byte) : State :=
  let s1 := writeApply s r index sub (s.clk.tick + 2) b
  if index = 0x9000 ∧ (sub = 0x04 ∨ sub = 0x05) ∧ !b.isEmpty then newNonce s1 else s1

/-! Pending writes (R429 to R431) -/

/-- A pending write at its block (R430): checked again, applied or dropped. A write that acts at acceptance waits only for its
verdict. -/
def applyPending (s : State) (p : Pending) : State :=
  match rowOf p.index p.sub with
  | none => s
  | some r =>
    if r.atOnce then s
    else if writeCheck s s r p.index p.sub p.bytes false = 0 then writeApply s r p.index p.sub p.block p.bytes
    else (s.bump 0x1020 0x0D 1).raise 129 (p.index * 256 + p.sub) 0

/-- Every pending write due at the running tick, in the order of R429. -/
def applyDue (s : State) : State :=
  let due := sortBy pendBefore (s.pend.filter (fun p => decide (p.block ≤ s.clk.tick)))
  let s1 : State := { s with
    pend := s.pend.filter (fun p => decide (s.clk.tick < p.block)),
    twin := { s.twin with joinLog := if s.twin.sync = 1 then s.twin.joinLog ++ due else s.twin.joinLog } }
  due.foldl applyPending s1

/-- The tick number `n` blocks on; what the partner last reported stays as fresh as it is. -/
def ticksAhead (s : State) (n : Nat) : State :=
  { s with clk := { s.clk with tick := s.clk.tick + n }, twin := { s.twin with frameTick := s.twin.frameTick + n } }

/-- The correction sequencers one block further, with the values in force carried over. -/
def blockAhead (s : State) : State :=
  { ticksAhead (corrTurn s (s.dictAt 1) (s.clk.tick - 1)) 1 with hist := (s.dict :: s.hist).take 8 }

/-- Whether no sequencer has anything to do. -/
def corrQuiet (s : State) : Bool :=
  s.pipe.feeds.all (fun e => e.2.corr.running.isNone && e.2.corr.waiting.isEmpty)

/-- The state carried on by `n` blocks: what R430 needs of the future without further writes. -/
def blocksAhead : Nat → State → State
  | 0, s => s
  | n + 1, s =>
    if corrQuiet s then
      { ticksAhead s (n + 1) with hist := s.dict :: s.dict :: s.hist.take 6 }
    else blocksAhead n (blockAhead s)

/-- The state that will hold for a write (R430): the values in force with every pending write that applies before it. -/
def stateAhead (s : State) (p : Pending) : State :=
  let due := sortBy pendBefore (s.pend.filter (fun x => pendBefore x p))
  let s1 := due.foldl (fun t x => applyPending (blocksAhead (x.block - t.clk.tick) t) x) s
  blocksAhead (p.block - s1.clk.tick) s1

/-! Reads (R403, R408) -/

/-- A table of Q1.31 words as bytes, least significant first. -/
def tableBytes (l : List Int) : List Byte := l.flatMap (fun x => leBytes 4 (toPat 32 x))

/-- 3802:01 (R137). -/
def interpBytes : List Byte := (List.range 256).flatMap (fun p => tableBytes ((List.range 8).map (interpC p)))

/-- 3803:10 (R162). -/
def twiddleBytes : List Byte := (List.range 64).flatMap (fun m => tableBytes [twiddleRe m, twiddleIm m])

/-- The default of a DOMAIN that its table does not leave empty. -/
def domainDefault (index sub : Nat) : List Byte :=
  if 0x2200 ≤ index ∧ index < 0x2240 then beBytes 0 0 ++ (List.range 64).map (fun c => BitVec.ofNat 8 c)
  else if 0x2300 ≤ index ∧ index < 0x2340 then List.replicate 128 0xFF#8
  else if 0x2420 ≤ index ∧ index < 0x2430 then (if sub = 0x02 then List.replicate 4 0xFF#8 else List.replicate 24 0#8)
  else if 0x2440 ≤ index ∧ index < 0x2448 then beBytes 4 (2 ^ 30) ++ List.replicate 60 0#8
  else if 0x3400 ≤ index ∧ index < 0x3600 then beBytes 4 (2 ^ 29) ++ List.replicate 16 0#8
  else if index = 0x70E1 then priorityBytes (fun m t => priReset (24 * m + t))
  else []

/-- The value at reset of a status entry that depends on its instance. -/
def statusDefault (r : Row) (index sub : Nat) : Nat :=
  if 0x7040 ≤ index ∧ index ≤ 0x707F ∧ sub = 0x02 then rodRoleAtReset (index - 0x7040)
  else if index = 0x7017 ∧ sub = 0x01 then 1
  else if (index = 0x7030 ∨ index = 0x7031) ∧ sub = 0x01 then 1
  else if 0x7420 ≤ index ∧ index ≤ 0x7422 ∧ sub = 0x02 then index - 0x7420
  else if index = 0x7423 ∧ sub = 0x01 then 1
  else if index = 0x7423 ∧ sub = 0x02 then 0xFF
  else r.dflt

/-- Bytes that an entry computes at the read, none where it holds its value. -/
def computedBytes (s : State) (index sub : Nat) : Option (List Byte) :=
  match index, sub with
  | 0x1000, 0x01 => some ([84, 77, 89, 53, 49, 50, 48, 45, 69, 65].map (fun n => BitVec.ofNat 8 n))
  | 0x1000, 0x02 => some (beBytes 8 Config.uid.toNat)
  | 0x1000, 0x03 => some (beBytes 4 Config.dateCode.toNat)
  | 0x1000, 0x04 => some (beBytes 6 Config.lotCode.toNat)
  | 0x1000, 0x05 => some ([86, 82, 69, 76, 78, 69, 75, 65].map (fun n => BitVec.ofNat 8 n))
  | 0x1000, 0x06 => some (beBytes 2 Config.hwRevision.toNat)
  | 0x1000, 0x0A => some (beBytes 2 1)
  | 0x2010, 0x02 => some (beBytes 8 (toPat 64 s.netTime))
  | 0x2010, 0x03 => some (beBytes 8 (toPat 64 s.clk.local))
  | 0x2100, 0x0E => some (beBytes 8 Config.mac.toNat)
  | 0x2400, 0x02 => some (beBytes 8 (Config.groupBase 0).toNat)
  | 0x2400, 0x03 => some (beBytes 8 (Config.groupBase 1).toNat)
  | 0x2400, 0x04 => some (beBytes 8 (Config.groupBase 2).toNat)
  | 0x3802, 0x01 => some interpBytes
  | 0x3803, 0x10 => some twiddleBytes
  | 0x7410, 0x09 => some (beBytes 4 s.dram.neighB)
  | 0x9000, 0x06 => some (nonceBytes s.keys.nonceNo)
  | 0x9011, 0x01 => some (identityPublic s)
  | 0x9011, 0x02 => some (attestation s)
  | 0xB100, 0x04 => some (beBytes 4 s.events.readSeq)
  | 0xB100, 0x05 => some ((logWindow s).flatMap recordBytes)
  | _, _ =>
    if 0x2020 ≤ index ∧ index ≤ 0x2023 then
      some (beBytes 4 (toPat 32 ((latTerms s (index - 0x2020)).getD (sub - 1) 0)))
    else if index = 0xB000 then
      some (beBytes 4 (if evReserved (sub - 1) then 0
        else s.evMask (sub - 1) + 256 * evClass (sub - 1) + mget 0 s.statB.nums (key 0xB000 sub)))
    else if 0x4000 ≤ index ∧ index < 0x4200 ∧ (sub = 0x05 ∨ sub = 0x06) then
      some ((feedBank (s.feed (index - 0x4000)).corr (sub - 0x05)).taps.flatMap (fun x => beBytes 4 (toPat 32 x)))
    else if 0x7080 ≤ index ∧ index ≤ 0x708F then
      if 0x18 ≤ sub ∧ sub ≤ 0x1A then some (beBytes 8 (Config.slotArea (index - 0x7080) (sub - 0x18)).toNat) else none
    else none

/-- The value of an existing readable entry as FOL carries it (R404, R408). -/
def readEntry (s : State) (r : Row) (index sub : Nat) : List Byte :=
  match computedBytes s index sub with
  | some b => b
  | none =>
    if r.isBytes then
      let b := entBytes (if r.acc = .ro then s.statB.doms else s.dom) index sub
      if b.isEmpty then domainDefault index sub else b
    else if r.acc = .ro || r.acc = .const then
      beBytes r.ty.size (mget (statusDefault r index sub) s.statB.nums (key index sub))
    else beBytes r.ty.size (s.val (entryDefault r index sub) index sub)

/-- What a read changes: the last capture of an input is read (R98), unless it came in the running tick, whose value a read does not
show yet (R408). -/
def readSeen (s : State) (index sub : Nat) : State :=
  if 0x2040 ≤ index ∧ index ≤ 0x2043 ∧ sub = 0x02 then
    if mget 0 s.time.unread (index - 0x2040) = 2 then
      { s with time := { s.time with unread := mset 0 s.time.unread (index - 0x2040) 0 } }
    else s
  else s

/-- Whether an entry holds key material (R410, R509). -/
def isSecret (index : Nat) : Bool := decide (index = 0x9010)

/-- The refusal of an index or subindex that does not exist (R403). -/
def missing (index : Nat) : Nat := if indexExists index then Abort.noSub else Abort.noIndex

/-- The access checks of a read by a session of level `level` (R437). -/
def readAccess (index sub level : Nat) : Nat :=
  if sub = 0 then
    if indexExists index then need (decide (index / 256 ≠ 0x90 ∨ 3 ≤ level)) Abort.denied else Abort.noIndex
  else
    match rowOf index sub with
    | none => missing index
    | some r =>
      if isSecret index then Abort.secret
      else if r.acc = .wo then Abort.writeOnly
      else need (decide (r.rd ≤ level)) Abort.denied

/-- The access checks of a write (R437). -/
def writeAccess (index sub level : Nat) : Nat :=
  if sub = 0 then (if indexExists index then Abort.constant else Abort.noIndex)
  else
    match rowOf index sub with
    | none => missing index
    | some r =>
      match r.acc with
      | .ro => Abort.readOnly
      | .const => Abort.constant
      | .wo | .rw | .rwa => need (decide (r.wr ≤ level)) Abort.denied

/-- The value that a read returns, once its access is allowed. -/
def readValue (s : State) (index sub : Nat) : List Byte :=
  if sub = 0 then beBytes 1 (highestSub index)
  else
    match rowOf index sub with
    | some r => readEntry s r index sub
    | none => []

end Sys2Proof.Machine
end

