-- ==== Sys2Proof/Machine/Fol.lean ====
section
/-! DEFINITION. The FOL service (R411 to R435): frames, sessions, DOMAIN transfers, acceptance of writes, forwarding to the partner
and its verdicts. -/
namespace Sys2Proof.Machine

/-! Frames (R411 to R414) -/

/-- Flag R (R411). -/
def flagR : Nat := 0x01
/-- Flag M. -/
def flagM : Nat := 0x02
/-- Flag L. -/
def flagL : Nat := 0x04
/-- Flag N. -/
def flagN : Nat := 0x08
/-- Flag X. -/
def flagX : Nat := 0x10

/-- The response to a request without its tag (R412). -/
def folResponse (f : FolFrame) (flags offset total status : Nat) (data : List Byte) : FolFrame where
  magic    := 0x464F
  version  := 1
  op       := f.op
  session  := f.session
  seq      := f.seq
  index    := f.index
  sub      := f.sub
  flags    := flagR + flags
  apply    := 0
  offset   := offset
  total    := total
  length   := data.length
  reserved := 0
  status   := status
  data     := data
  tag      := List.replicate 16 0#8

/-- A response leaves; its code, where it is not success, is the last code sent (R437). -/
def folSend (s : State) (src : FolSrc) (f : FolFrame) : State :=
  let s1 := s.sendPort src.port (.fol src.port src.addr f)
  if f.status = 0 then s1 else s1.stset 0 0x1020 0x0C f.status

/-- An untagged response with a code and no data (R414, R415). -/
def folUntagged (s : State) (src : FolSrc) (f : FolFrame) (code : Nat) : State := folSend s src (folResponse f 0 0 0 code [])

/-- A session by its identifier. -/
def sessionOf (s : State) (id : Nat) : Option Session := s.fol.sessions.find? (fun x => decide (x.id = id))

/-- A session replaced, where it is still open. -/
def setSession (s : State) (x : Session) : State :=
  { s with fol := { s.fol with sessions := s.fol.sessions.map (fun y => if y.id = x.id then x else y) } }

/-- The response to an executed request: kept for a resend (R417), tagged and sent; the session may have ended with it. -/
def folAnswer (s : State) (x : Session) (src : FolSrc) (r : FolFrame) : State :=
  let t := folTagged x.key r
  let s1 := match sessionOf s x.id with
    | some y => setSession s { y with kept := some t }
    | none => s
  folSend s1 src t

/-- A response with a code alone. -/
def folCode (s : State) (x : Session) (src : FolSrc) (f : FolFrame) (code : Nat) : State :=
  folAnswer s x src (folResponse f 0 0 0 code [])

/-- Whether the module listens to FOL on a port (R320, R478, R481, R485, R496, R502): in reset on none; in the ring states on ring ports
in participation In; otherwise on the management port alone. Out of reset the start has passed step 3 (assumption 69). -/
def folHears (s : State) (src : FolSrc) : Bool :=
  let ring := decide (src.port < 2) && (s.port src.port).lock && decide (s.byp.partic = .inRing)
  let management := decide (src.port = 2) && (s.port 2).lock
  !s.power.inReset &&
    match s.sup.mod with
    | .booting | .startTest | .halted | .parked | .failed | .recovery => management
    | .ready | .rendering | .shutdownTest => ring || management

/-- The UDP port of 1020:01 (R442). -/
def folUdp (s : State) : Nat := s.val 9450 0x1020 0x01

/-- Whether a datagram comes to the FOL port of its session, or to that in force for the next one (R442). -/
def folPortOk (s : State) (src : FolSrc) (f : FolFrame) : Bool :=
  match sessionOf s f.session with
  | some x => decide (src.udp = x.udp)
  | none => decide (src.udp = folUdp s)

/-- A frame that R413 drops whatever its session. -/
def folBroken (f : FolFrame) : Bool :=
  decide (f.magic ≠ 0x464F) || decide (f.version ≠ 1) || decide (f.data.length ≠ f.length) || decide (f.tag.length ≠ 16)

/-- A dropped frame (R413). -/
def folDrop (s : State) (src : FolSrc) : State :=
  let s1 := s.bump 0x1020 0x06 1
  { s1 with fol := { s1.fol with dropNow := true, dropPort := src.port } }

/-- The header faults of R413 besides the OP's. -/
def folFault (f : FolFrame) (segment : Nat) : Bool :=
  bitOf f.flags 0 || decide (bitsOf f.flags 7 5 ≠ 0) || decide (f.reserved ≠ 0) || decide (segment < f.length) ||
    decide (f.status ≠ 0) || decide (f.op = 1)

/-! Rates (R418, R421) -/

/-- The second of local time that a frame falls into. -/
def folSecond (s : State) : Nat := (s.clk.local / 1000000000).toNat

/-- Whether one more request stays within 2,000 a second of a session and 20,000 of all (R443). -/
def folRate (s : State) (x : Session) : Bool :=
  let sec := folSecond s
  decide ((if x.window = sec then x.reqs else 0) < 2000) && decide ((if s.fol.reqSec = sec then s.fol.reqs else 0) < 20000)

/-- One more request counted. -/
def folCount (s : State) (x : Session) : State × Session :=
  let sec := folSecond s
  let n := if s.fol.reqSec = sec then s.fol.reqs else 0
  ({ s with fol := { s.fol with reqs := n + 1, reqSec := sec } },
    { x with window := sec, reqs := (if x.window = sec then x.reqs else 0) + 1 })

/-! Transfers (R422, R423) -/

/-- Whether a transfer still runs: no more than 2 s since its last frame. -/
def transferLives (s : State) (t : Transfer) : Bool := !t.dead && decide (s.clk.local - t.time ≤ 2000000000)

/-- The transfers in progress in the module. -/
def transfersOn (s : State) : List Transfer :=
  (s.fol.sessions.filterMap (fun x => x.xfer)).filter (transferLives s)

/-- A session's transfer discarded with every byte staged for it. -/
def discard (s : State) (x : Session) : State × Session := (dropTransfer s x, { x with xfer := none })

/-! Requests of a session (R417) -/

/-- A frame that the module hears, counted in 2110+p:04 (R346), before it is judged; on a ring port the ring counts it (R311). -/
def folFrameIn (s : State) (src : FolSrc) : State := if 2 ≤ src.port && folHears s src then s.heard src.port else s

/-- A frame of a session: the judgements of R413, R414 and R417 in their order, then the transfer that has timed out (R423), then
the operation. -/
def folRequest (s : State) (src : FolSrc) (f : FolFrame) (op : Nat) (run : State → Session → State) : State :=
  if !folHears s src || !folPortOk s src f || s.sup.mod = .recovery then s
  else if folBroken f then folDrop s src
  else
    match (if f.session = 0 then none else sessionOf s f.session) with
    | none => folUntagged s src f Abort.noneSuch
    | some x =>
      if f.tag ≠ folTag x.key f then folDrop s src
      else
        let y := { x with lastAt := s.clk.local }
        let s1 := setSession s y
        if f.op ≠ op then folSend s1 src (folTagged x.key (folResponse f 0 0 0 Abort.unknownOp []))
        else if folFault f x.segment then folSend s1 src (folTagged x.key (folResponse f 0 0 0 Abort.malformed []))
        else if f.seq = x.seq then
          match x.kept with
          | some k => folSend s1 src k
          | none => s1
        else if f.seq ≠ (x.seq + 1) % 2 ^ 32 then
          folSend (s1.bump 0x1020 0x07 1) src (folTagged x.key (folResponse f 0 0 0 Abort.sequence []))
        else if !folRate s1 y then folSend s1 src (folTagged x.key (folResponse f 0 0 0 Abort.busy []))
        else
          let (s2, z) := folCount s1 y
          let w := { z with seq := f.seq, kept := none }
          match w.xfer with
          | some t =>
            if transferLives s2 t then run (setSession s2 w) w
            else
              let (s3, v) := discard s2 w
              folCode (setSession s3 v) v src f Abort.timeout
          | none => run (setSession s2 w) w

/-! OPEN (R415, R506) -/

/-- K_L of a level as a port sees it; empty where none is provisioned. -/
def levelKey (s : State) (src : FolSrc) (level : Nat) : List Byte :=
  if level < 1 ∨ 4 < level then []
  else if benchLife s then (if src.port = 2 then List.replicate 32 0#8 else [])
  else mget [] s.keys.level level

/-- Whether an OPEN is malformed. -/
def openMalformed (f : FolFrame) : Bool :=
  let seg := beAt f.data 2 2
  decide (f.length ≠ 20) || decide (beAt f.data 1 1 / 2 ≠ 0) || decide (seg < 256 ∨ 8192 < seg ∨ seg % 64 ≠ 0) ||
    decide (f.seq ≠ 0) || bitOf f.flags 0 || decide (bitsOf f.flags 7 5 ≠ 0) || decide (f.reserved ≠ 0) || decide (f.status ≠ 0)

/-- A session identifier from the random source: non-zero and of no open session. -/
def freshId (s : State) : Nat → Nat → Nat
  | 0, c => c
  | n + 1, c => if c = 0 ∨ (sessionOf s c).isSome then freshId s n ((c + 1) % 2 ^ 32) else c

/-- The place in 1030+k of a new session. -/
def freePlace (s : State) : Nat :=
  ((List.range 16).find? (fun k => !(s.fol.sessions.any (fun x => decide (x.slot = k))))).getD 0

/-- The session opened: identifier, nonce and key drawn, and the response under the new key. -/
def folOpened (s : State) (src : FolSrc) (f : FolFrame) (kl : List Byte) : State :=
  let level := beAt f.data 0 1
  let seg := beAt f.data 2 2
  let id := freshId s 18 (s.drawOf.toNat % 2 ^ 32)
  let nm := beBytes 16 (s.drawn.drawOf.toNat % 2 ^ 128)
  let key := hmac kl ([70, 79, 76, 45, 83].map (fun n => BitVec.ofNat 8 n) ++ slice f.data 4 16 ++ nm ++ beBytes 4 id)
  let s1 := s.drawn.drawn
  let r := folTagged key (folResponse f 0 0 26 0
    (beBytes 1 level ++ [0#8] ++ beBytes 2 seg ++ beBytes 4 id ++ nm ++ beBytes 2 (s.val 10 0x1020 0x04)))
  let x : Session := {
    id := id, slot := freePlace s, level := level, port := src.port, addr := src.addr, udp := src.udp, opened := s.netTime, segment := seg,
    notify := bitOf (beAt f.data 1 1) 0, key := key, seq := 0, kept := some r, nseq := 1, fixed := none, xfer := none,
    lastAt := s.clk.local, reqs := 0, window := 0 }
  folSend { s1 with fol := { s1.fol with sessions := s1.fol.sessions ++ [x] } } src r

/-- An OPEN with SESSION 0, by the first rule of R415 that matches. -/
def folOpen (s : State) (src : FolSrc) (f : FolFrame) : State :=
  if !folHears s src || !folPortOk s src f || s.sup.mod = .recovery then s
  else if folBroken f then folDrop s src
  else
    let level := beAt f.data 0 1
    let kl := levelKey s src level
    if !kl.isEmpty && decide (f.tag ≠ folTag kl f) then folDrop s src
    else if openMalformed f then folUntagged s src f Abort.malformed
    else if kl.isEmpty || (decide (level = 4) && decide (src.port ≠ 2)) then folUntagged s src f Abort.noLevel
    else if 16 ≤ s.fol.sessions.length then folUntagged s src f Abort.noSession
    else folOpened s src f kl

/-! IDENT (R421) -/

/-- The 28 bytes of identification. -/
def identData (s : State) : List Byte :=
  ((computedBytes s 0x1000 0x01).getD [] ++ List.replicate 6 0#8) ++ beBytes 8 Config.uid.toNat ++ beBytes 1 s.sup.mod.code ++
    beBytes 1 s.sup.twinId ++ beBytes 1 s.time.state.code ++ [0#8]

/-- An IDENT frame: ten a second on a port are answered, in Recovery too. -/
def folIdent (s : State) (src : FolSrc) (f : FolFrame) : State :=
  if !folHears s src || !folPortOk s src f then s
  else if folBroken f then folDrop s src
  else
    let sec := folSecond s
    let seen := if s.fol.identSec = sec then s.fol.idents else []
    if 10 ≤ mget 0 seen src.port then s
    else
      let s1 : State := { s with fol := { s.fol with identSec := sec, idents := mset 0 seen src.port (mget 0 seen src.port + 1) } }
      folSend s1 src (folResponse f 0 0 28 0 (identData s))

/-! READ and READ_SEG (R424) -/

/-- A segment of a value from an offset. -/
def segmentAnswer (s : State) (x : Session) (src : FolSrc) (f : FolFrame) (offset : Nat) (v : List Byte) : State :=
  let part := (v.drop offset).take x.segment
  folAnswer s x src (folResponse f (if offset + part.length < v.length then flagM else 0) offset v.length 0 part)

/-- READ: the value that later READ_SEG frames return is fixed. -/
def folReadRun (src : FolSrc) (f : FolFrame) (s : State) (x : Session) : State :=
  let code := readAccess f.index f.sub x.level
  if code ≠ 0 then folCode (setSession s { x with fixed := none }) x src f code
  else
    let v := readValue s f.index f.sub
    let s1 := readSeen (setSession s { x with fixed := some (f.index, f.sub, v) }) f.index f.sub
    segmentAnswer s1 x src f 0 v

/-- READ_SEG. -/
def folSegRun (src : FolSrc) (f : FolFrame) (s : State) (x : Session) : State :=
  match x.fixed with
  | some (i, b, v) =>
    if i ≠ f.index ∨ b ≠ f.sub then folCode s x src f Abort.segOrder
    else if v.length < f.offset then folCode s x src f Abort.segTotal
    else segmentAnswer s x src f f.offset v
  | none => folCode s x src f Abort.segOrder

/-! Acceptance of a write (R425 to R433) -/

/-- The tick that contains an apply time (R18, R57, R89). -/
def applyTick (s : State) (a : Nat) : Nat :=
  match s.clk.rebase with
  | some (e, b) =>
    let old := tickOf ((a : Int) - s.clk.epoch)
    if old < b then old else max b (tickOf ((a : Int) - e))
  | none => tickOf ((a : Int) - s.clk.epoch)

/-- The apply tick of a write with `ahead` ticks of forwarding (R426, R427), or the refusal. -/
def applyBlock (s : State) (r : Row) (apply ahead : Nat) (late : Bool) : Nat × Nat :=
  let first := s.clk.tick + 2 + ahead
  if apply = 0 then (first, 0)
  else if r.acc ≠ .rwa then (first, Abort.noApply)
  else
    let a := applyTick s apply
    if first ≤ a then (a, need (decide (a ≤ s.clk.tick + 1800000)) Abort.applyRange)
    else (first, need late Abort.tooLate)

/-- Whether a write acts at acceptance: by its row, or a request that runs ahead of its apply tick (R225, R518). -/
def actsAtOnce (r : Row) (index sub : Nat) : Bool :=
  r.atOnce || decide (index = 0x7000 ∧ sub = 0x03) || decide (index = 0xA000 ∧ sub = 0x04)

/-- The code of the response to a write that acted: an image that fails its checks is refused (R515). -/
def actedCode (s : State) (index sub : Nat) : Nat :=
  if index = 0xA000 ∧ sub = 0x02 ∧ s.upd.stage = 3 then Abort.signature else 0

/-- A Shared write on its way to the partner (R432): the link carries a byte in a nanosecond. -/
def forwardWrite (s : State) (r : Row) (p : Pending) : State :=
  let v := if r.isBytes then Val.bytes p.bytes else .num (beNat p.bytes)
  let s1 := (s.bump 0x1020 0x08 1).sendPort 3 (.forward (Forward.mk p.index p.sub v p.block p.keyT p.keyId))
  { s1 with
    fol := { s1.fol with fwdEnd := max s1.clk.local s1.fol.fwdEnd + p.bytes.length },
    pend := s1.pend ++ [{ p with await := true }] }

/-- Whether a write is one of a token: the Reckoner sends no tagged response once it is accepted (R512 for 9000:04; DEDUCED for
9000:05, whose erasure ends every session in the same way). -/
def tokenEntry (index sub : Nat) : Bool := decide (index = 0x9000 ∧ (sub = 0x04 ∨ sub = 0x05))

/-- A write that satisfies its checks: in force at once or pending, forwarded where it is Shared and the partner is in service. -/
def acceptWrite (s : State) (x : Session) (src : FolSrc) (f : FolFrame) (r : Row) (p : Pending) : State :=
  let s1 :=
    if r.atOnce then writeNow s r p.index p.sub p.bytes
    else if actsAtOnce r p.index p.sub then writeApply s r p.index p.sub p.block p.bytes
    else s
  if tokenEntry p.index p.sub then s1
  else if r.shared && s.twin.inService then forwardWrite s1 r p
  else
    let s2 := if actsAtOnce r p.index p.sub then s1 else { s1 with pend := s1.pend ++ [p] }
    folAnswer s2 x src (folResponse f (if r.shared then flagN else 0) 0 0 (actedCode s1 p.index p.sub) [])

/-- A write received whole: the checks of R437 in their order, then its acceptance. -/
def judgeWrite (s : State) (x : Session) (src : FolSrc) (f : FolFrame) (apply : Nat) (late : Bool) (b : List Byte) : State :=
  let code := writeAccess f.index f.sub x.level
  if code ≠ 0 then folCode s x src f code
  else
    match rowOf f.index f.sub with
    | none => folCode s x src f (missing f.index)
    | some r =>
      let queued := (s.fol.fwdEnd - s.clk.local).toNat
      let (a, c) := applyBlock s r apply (if r.shared then (b.length + queued) / 65536 else 0) late
      let p : Pending := {
        index := f.index, sub := f.sub, bytes := b, block := a, time := if apply = 0 then none else some (apply : Int),
        keyT := s.clk.local.toNat, keyId := s.sup.twinId, await := false, session := x.id, seq := f.seq, op := f.op }
      if c ≠ 0 then folCode s x src f c
      else if r.isBytes && b.isEmpty then folCode s x src f 0
      else
        let once := actsAtOnce r f.index f.sub
        let d := firstCode [writeCheck s (if once then s else stateAhead s p) r f.index f.sub b true,
          need (once || decide (pendCount s < 4096)) Abort.busy]
        if d ≠ 0 then folCode (writeRefused s f.index f.sub d) x src f d else acceptWrite s x src f r p

/-! WRITE and WRITE_SEG (R422, R423) -/

/-- The greatest length that a segmented write may announce. -/
def greatestTotal (index sub : Nat) : Nat :=
  match rowOf index sub with
  | some r => if r.isBytes then min r.most 67108864 else 67108864
  | none => 67108864

/-- The refusals of a segmented write at its first frame (R423); the write itself is checked at its last segment (R422). -/
def startCheck (s : State) (f : FolFrame) : Nat :=
  firstCode [need (decide (f.total ≤ greatestTotal f.index f.sub)) Abort.tooLong,
    need (!(transfersOn s).any (fun t => decide (t.index = f.index ∧ t.sub = f.sub))) Abort.entryBusy,
    need (decide ((transfersOn s).length < 4)) Abort.noStaging]

/-- The staging state while an image arrives (R517). -/
def receiving (s : State) (index sub : Nat) : State :=
  if index = 0xA000 ∧ sub = 0x02 ∧ s.upd.stage ≠ 6 then setStage s 1 else s

/-- The next segment of a transfer: refused whole, staged, or the last. -/
def takeSegment (s : State) (x : Session) (src : FolSrc) (f : FolFrame) (t : Transfer) : State :=
  let off := t.data.length
  let code := firstCode [
    need (decide (f.offset = off ∧ f.index = t.index ∧ f.sub = t.sub ∧ f.total = t.total)) Abort.segOrder,
    need (decide (f.offset + f.length ≤ f.total)) Abort.segTotal,
    need (bitOf f.flags 1 || decide (f.total ≤ f.offset + f.length)) Abort.incomplete]
  let y := { x with xfer := some { t with data := t.data ++ f.data, time := s.clk.local } }
  if code ≠ 0 then
    let (s1, z) := discard s y
    folCode (setSession s1 z) z src f code
  else if bitOf f.flags 1 then folCode (setSession s y) y src f 0
  else
    let z := { x with xfer := none }
    let s1 := judgeWrite (setSession s z) z src f t.apply t.late (t.data ++ f.data)
    if t.index = 0xA000 then unstage s1 else s1

/-- WRITE. -/
def folWriteRun (src : FolSrc) (f : FolFrame) (s : State) (x : Session) : State :=
  if x.xfer.isSome then folCode s x src f Abort.inProgress
  else if f.total = 0 || (!bitOf f.flags 1 && decide (f.offset = 0) && decide (f.length = f.total)) then
    judgeWrite s x src f f.apply (bitOf f.flags 2) (if f.total = 0 then [] else f.data)
  else
    let code := startCheck s f
    if code ≠ 0 then folCode s x src f code
    else
      takeSegment (receiving s f.index f.sub) x src f
        { index := f.index, sub := f.sub, total := f.total, apply := f.apply, late := bitOf f.flags 2, data := [],
          time := s.clk.local, dead := false }

/-- WRITE_SEG. -/
def folWriteSegRun (src : FolSrc) (f : FolFrame) (s : State) (x : Session) : State :=
  match x.xfer with
  | some t => takeSegment s x src f t
  | none => folCode s x src f Abort.segOrder

/-! The other operations -/

/-- XFER_ABORT. -/
def folAbortRun (src : FolSrc) (f : FolFrame) (s : State) (x : Session) : State :=
  match x.xfer with
  | some _ =>
    let (s1, y) := discard s x
    folCode (setSession s1 y) y src f Abort.aborted
  | none => folCode s x src f 0

/-- CLOSE. -/
def folCloseRun (src : FolSrc) (f : FolFrame) (s : State) (x : Session) : State :=
  endSessions (folCode s x src f 0) (fun y => decide (y.id = x.id))

/-! Sessions and transfers in time (R416, R423) -/

/-- A session without a valid frame for the time in 1020:04 ends. -/
def sessionTimeout (s : State) (id : Nat) : State :=
  endSessions s (fun x => decide (x.id = id) && decide (x.lastAt + (s.val 10 0x1020 0x04 : Nat) * 1000000000 ≤ s.clk.local))

/-- A transfer whose frames are more than 2 s apart is refused: its bytes go now, its code on the session's next frame. -/
def transferTimeout (s : State) (id : Nat) : State :=
  match sessionOf s id with
  | some x =>
    match x.xfer with
    | some t =>
      if transferLives s t then s
      else setSession (dropTransfer s x) { x with xfer := some { t with dead := true, data := [] } }
    | none => s
  | none => s

/-! The partner (R432, R433) -/

/-- The bytes of a forwarded value. -/
def valBytes (r : Row) : Val → List Byte
  | .num n => beBytes r.ty.size n
  | .bytes b => b

/-- Whether the partner judges a forwarded write in full: the rail state of a channel's enable it does not (R393). -/
def partnerAccepts (index sub : Nat) : Bool := !decide (0x5000 ≤ index ∧ index ≤ 0x500F ∧ sub = 0x01)

/-- A forwarded write: checked against the module's own state, queued with the received key, and judged (R432). It is never
forwarded again. -/
def forwardReceived (s : State) (w : Forward) : State :=
  match rowOf w.index w.sub with
  | none => s.sendPort 3 (.verdict w.keyT (missing w.index))
  | some r =>
    let b := valBytes r w.val
    let p : Pending := {
      index := w.index, sub := w.sub, bytes := b, block := w.block, time := none, keyT := w.keyT, keyId := w.keyId,
      await := false, session := 0, seq := 0, op := 0 }
    let code := firstCode [writeCheck s (if r.atOnce then s else stateAhead s p) r w.index w.sub b (partnerAccepts w.index w.sub),
      need (r.atOnce || decide (pendCount s < 4096)) Abort.busy]
    if code ≠ 0 then (writeRefused s w.index w.sub code).sendPort 3 (.verdict w.keyT code)
    else
      let s1 := if r.atOnce then writeNow s r w.index w.sub b else { s with pend := s.pend ++ [p] }
      s1.sendPort 3 (.verdict w.keyT 0)

/-- Whether a pending write is the one that a key names and that awaits its verdict. -/
def awaits (s : State) (keyT : Nat) (p : Pending) : Bool := p.await && decide (p.keyT = keyT ∧ p.keyId = s.sup.twinId)

/-- The response that a forwarded write held back, where its session is still open. -/
def lateAnswer (s : State) (p : Pending) (flags code : Nat) : State :=
  match sessionOf s p.session with
  | some x =>
    let f : FolFrame := {
      magic := 0x464F, version := 1, op := p.op, session := p.session, seq := p.seq, index := p.index, sub := p.sub,
      flags := 0, apply := 0, offset := 0, total := 0, length := 0, reserved := 0, status := 0, data := [], tag := [] }
    folAnswer s x (FolSrc.mk x.port x.addr x.udp) (folResponse f flags 0 0 code [])
  | none => s

/-- A pending write that no longer waits; one that acted at acceptance goes. -/
def settled (s : State) (p : Pending) : State :=
  let drop := match rowOf p.index p.sub with
    | some r => r.atOnce
    | none => true
  let rest := s.pend.filter (fun q => !decide (q = p))
  { s with pend := if drop then rest else s.pend.map (fun q => if q = p then { q with await := false } else q) }

/-- A mark of a write that the pair does not share (R469, cause 7). -/
def unmirroredMark (s : State) (p : Pending) : State :=
  { s with twin := { s.twin with marks := s.twin.marks ++ [(p.block, 7)] } }

/-- The partner's verdict (R433). -/
def verdictReceived (s : State) (keyT code : Nat) : State :=
  match s.pend.find? (awaits s keyT) with
  | some p =>
    if code = 0 then lateAnswer (settled s p) p 0 0
    else
      let s1 : State := { s with pend := s.pend.filter (fun q => !decide (q = p)) }
      lateAnswer (unmirroredMark (s1.bump 0x1020 0x0A 1) p) p flagX code
  | none => s

/-- No verdict in time (R433): the write is kept. -/
def unmirrored (s : State) (p : Pending) : State :=
  let s1 := ((settled s p).bump 0x1020 0x09 1).raise 130 (p.index * 256 + p.sub) 0
  lateAnswer (unmirroredMark s1 p) p flagN 0

/-- The instant t_A − 50,000 ns of a pending write, where it lies in the running tick or before it. -/
def verdictTimeout (s : State) (keyT : Nat) : State :=
  match s.pend.find? (awaits s keyT) with
  | some p =>
    if s.clk.tick + 1 = p.block then unmirrored (s.elapse (tickLen s.clk.tick - 50000)) p
    else if p.block ≤ s.clk.tick then unmirrored s p
    else s
  | none => s

/-- Every verdict that is overdue at the end of the running tick. -/
def verdictsOverdue (s : State) : State :=
  (s.pend.filter (fun p => p.await && decide (p.block ≤ s.clk.tick + 1))).foldl unmirrored s

/-- 1020:06 rose in the tick that ended, or the run is over; the sixteenth such tick in a row raises its event once (R413). -/
def dropRunTick (s : State) : State :=
  let n := if s.fol.dropNow then s.fol.dropRun + 1 else 0
  let s1 : State := { s with fol := { s.fol with dropNow := false, dropRun := n } }
  if n = 16 then s1.raise 128 s.fol.dropPort 0 else s1

/-! The commands -/

/-- OPEN. -/
def execFolOpen (at_ : Nat) (src : FolSrc) (frame : FolFrame) (s : State) : Host.Outcome State Fault Refusal :=
  done (
    let t := folFrameIn (s.elapse at_) src
    if frame.op = 0x01 ∧ frame.session = 0 then folOpen t src frame else folRequest t src frame 0x01 (fun u _ => u))

/-- CLOSE. -/
def execFolClose (at_ : Nat) (src : FolSrc) (frame : FolFrame) (s : State) : Host.Outcome State Fault Refusal :=
  done (folRequest (folFrameIn (s.elapse at_) src) src frame 0x02 (folCloseRun src frame))

/-- READ. -/
def execFolRead (at_ : Nat) (src : FolSrc) (frame : FolFrame) (s : State) : Host.Outcome State Fault Refusal :=
  done (folRequest (folFrameIn (s.elapse at_) src) src frame 0x03 (folReadRun src frame))

/-- WRITE. -/
def execFolWrite (at_ : Nat) (src : FolSrc) (frame : FolFrame) (s : State) : Host.Outcome State Fault Refusal :=
  done (folRequest (folFrameIn (s.elapse at_) src) src frame 0x04 (folWriteRun src frame))

/-- READ_SEG. -/
def execFolReadSeg (at_ : Nat) (src : FolSrc) (frame : FolFrame) (s : State) : Host.Outcome State Fault Refusal :=
  done (folRequest (folFrameIn (s.elapse at_) src) src frame 0x05 (folSegRun src frame))

/-- WRITE_SEG. -/
def execFolWriteSeg (at_ : Nat) (src : FolSrc) (frame : FolFrame) (s : State) : Host.Outcome State Fault Refusal :=
  done (folRequest (folFrameIn (s.elapse at_) src) src frame 0x06 (folWriteSegRun src frame))

/-- XFER_ABORT. -/
def execFolXferAbort (at_ : Nat) (src : FolSrc) (frame : FolFrame) (s : State) : Host.Outcome State Fault Refusal :=
  done (folRequest (folFrameIn (s.elapse at_) src) src frame 0x07 (folAbortRun src frame))

/-- KEEPALIVE. -/
def execFolKeepalive (at_ : Nat) (src : FolSrc) (frame : FolFrame) (s : State) : Host.Outcome State Fault Refusal :=
  done (folRequest (folFrameIn (s.elapse at_) src) src frame 0x08 (fun t x => folCode t x src frame 0))

/-- IDENT within an open session. -/
def folIdentIn (s : State) (x : Session) (src : FolSrc) (frame : FolFrame) : State :=
  folAnswer s x src (folResponse frame 0 0 28 0 (identData s))

/-- An IDENT frame; one that names a session is judged as a frame of it (R413, R414). -/
def folIdentFrame (s : State) (src : FolSrc) (frame : FolFrame) : State :=
  if frame.op = 0x09 ∧ frame.session = 0 then folIdent s src frame
  else folRequest s src frame 0x09 (fun t x => folIdentIn t x src frame)

/-- IDENT. -/
def execFolIdent (at_ : Nat) (src : FolSrc) (frame : FolFrame) (s : State) : Host.Outcome State Fault Refusal :=
  done (folIdentFrame (folFrameIn (s.elapse at_) src) src frame)

/-- SESSION_TIMEOUT. -/
def execSessionTimeout (session : Nat) (s : State) : Host.Outcome State Fault Refusal := done (sessionTimeout s session)

/-- TRANSFER_TIMEOUT. -/
def execTransferTimeout (session : Nat) (s : State) : Host.Outcome State Fault Refusal := done (transferTimeout s session)

/-- WRITE_FORWARD_RECEIVED. -/
def execWriteForwardReceived (at_ : Nat) (fwd : Forward) (s : State) : Host.Outcome State Fault Refusal :=
  done (forwardReceived ((s.elapse at_).heard 3) fwd)

/-- WRITE_VERDICT_RECEIVED. -/
def execWriteVerdictReceived (at_ keyT code : Nat) (s : State) : Host.Outcome State Fault Refusal :=
  done (verdictReceived ((s.elapse at_).heard 3) keyT code)

/-- VERDICT_TIMEOUT. -/
def execVerdictTimeout (keyT : Nat) (s : State) : Host.Outcome State Fault Refusal := done (verdictTimeout s keyT)

/-- WRITE_APPLY: every pending write due at the running tick. -/
def execWriteApply (s : State) : Host.Outcome State Fault Refusal := done (applyDue s)

end Sys2Proof.Machine
end

