-- ==== Sys2Proof/Machine/Join.lean ====
section
/-! DEFINITION. The join of a Standby (R465, R466): the image that the Active captures, its replay, the cut state and its
installation, verification. -/
namespace Sys2Proof.Machine

/-! The image (state 1) -/

/-- Whether the entry of a dictionary key is Shared. -/
def sharedKey (k : Nat) : Bool :=
  match rowOf (k / 256) (k % 256) with
  | some r => r.shared
  | none => false

/-- Whether non-volatile storage keeps the entry of a dictionary key. -/
def keptKey (k : Nat) : Bool :=
  match rowOf (k / 256) (k % 256) with
  | some r => r.nv
  | none => false

/-- The join image of boundary t_I: every Shared entry in force for block I, pending writes, sequencers and banks, and the
placement state of R143 without line contents. -/
def joinImageOf (s : State) : JoinImage where
  block    := s.clk.tick
  dict     := s.dict.filter (fun e => sharedKey e.1)
  dom      := s.dom.filter (fun e => sharedKey e.1)
  pend     := s.pend
  feeds    := s.pipe.feeds
  objs     := s.pipe.objs
  xpts     := s.pipe.xcur
  arrivals := s.pipe.arrivals.filter (fun a => a.dict)
  uid      := Config.uid.toNat

/-- The partner's frame of the running boundary or the one before. -/
def freshFrame (s : State) : Option HbFrame :=
  match s.twin.frame with
  | some f => if s.clk.tick ≤ s.twin.frameTick + 1 then some f else none
  | none => none

/-- The sync state that the partner reports as Standby, 0 otherwise. -/
def partnerSync (s : State) : Nat :=
  match freshFrame s with
  | some f => if f.role = 3 then f.sync else 0
  | none => 0

/-- What an Active does for a joining partner at a boundary: a partner that enters state 1 gets an image of this boundary. -/
def joinCapture (s : State) : State :=
  let p := partnerSync s
  let s1 : State := { s with twin := { s.twin with partnerSync := p } }
  if s.twin.role ≠ .active then s1
  else if p = 1 && s.twin.partnerSync ≠ 1 then
    let s2 : State := { s1 with twin := { s1.twin with imageB := s1.clk.tick, cutB := 0 } }
    s2.sendPort 3 (.joinImage (joinImageOf s2))
  else s1

/-- Own values with the Shared ones replaced by those of the image. -/
def mergeShared {α : Type} [DecidableEq α] (own image : SMap α) (other : α → α) : SMap α :=
  image.foldl (fun m e => mset (other e.2) m e.1 e.2) (own.filter (fun e => !sharedKey e.1))

/-- A pending write as the Standby queues it: it waits for no verdict. -/
def joinPending (p : Pending) : Pending := { p with await := false, session := 0, seq := 0 }

/-- The Standby as of block I (R465): its Local entries, everything else from the image, in non-volatile storage too where an entry is
kept there; the tracker's mode is the one that 4400:01 names. DESIGN CHOICE (assumption 137). -/
def atImage (s : State) (m : JoinImage) : State :=
  let dict := mergeShared s.dict m.dict (fun v => v + 1)
  let dom := mergeShared s.dom m.dom (fun _ => [])
  let later := (s.twin.joinLog ++ s.pend).filter (fun p =>
    decide (m.block < p.block) && !m.pend.any (fun q => decide (q.keyT = p.keyT ∧ q.keyId = p.keyId)))
  let arr := (s.pipe.drained ++ s.pipe.arrivals).filter (fun a => decide (m.block ≤ a.block) && (!a.dict || decide (m.block < a.block)))
  let mode := mget 0 m.dict (key 0x4400 0x01)
  let feeds := m.feeds.foldl (fun fs e =>
    mset FeedSt.init fs e.1 { mget FeedSt.init fs e.1 with corr := { e.2.corr with fdl := (mget FeedSt.init fs e.1).corr.fdl } })
    s.pipe.feeds
  { s with
    dict := dict, dom := dom, hist := List.replicate 6 dict, domHist := List.replicate 6 dom,
    nv := { s.nv with
      dict := mergeShared s.nv.dict (m.dict.filter (fun e => keptKey e.1)) (fun v => v + 1)
      dom := mergeShared s.nv.dom (m.dom.filter (fun e => keptKey e.1)) (fun _ => []) },
    drift := { s.drift with mode := mode, modeTo := mode },
    pend := m.pend.map joinPending ++ later,
    clk := { s.clk with tick := m.block },
    pipe := { s.pipe with objs := m.objs, xcur := m.xpts, xnext := none, feeds := feeds, arrivals := m.arrivals ++ arr, drained := [] },
    twin := { s.twin with sync := 2, joinLog := [] } }

/-- One boundary of the replay: the writes of its block, the sequencers and the Placement stage. -/
def replayTick (s : State) : State :=
  let s1 : State := { s with
    hist := (s.dict :: s.hist).take 6, domHist := (s.dom :: s.domHist).take 6, clk := { s.clk with tick := s.clk.tick + 1 } }
  let s2 := applyDue s1
  let s3 := drainArrivals { s2 with pipe := { s2.pipe with xprev := s2.pipe.xcur } } (s2.clk.tick - 1)
  corrTurn (placeBlock s3) (s3.dictAt 2) (s3.clk.tick - 2)

/-- The replay from block I to the running tick. -/
def replay : Nat → State → State
  | 0, s => s
  | n + 1, s => replay n (replayTick s)

/-- Every set of the installed feeds written where it lies (R157, R169). -/
def storeSets (s : State) : State :=
  s.pipe.feeds.foldl (fun s e =>
    let c := e.2.corr
    storeCopy (storeBank (storeBank s s.n e.1 0 c.bank0.set) s.n e.1 1 c.bank1.set) s.n e.1 c.cur) s

/-- The feeds that have state in either of two states. -/
def feedsBoth (s t : State) : List Nat := (corrFeeds t).foldl (fun l f => setAdd f l) (corrFeeds s)

/-- The image installed (R465): what the replay leaves of values in force, pending writes, placement, sequencers and the tracker's
mode; nothing else of the module moves. A crosspoint list already published in this tick stays the one that is rendered. -/
def installImage (s : State) (m : JoinImage) : State :=
  let r := replay (s.clk.tick - m.block) (atImage s m)
  let q := { s.pipe with
    objs := r.pipe.objs, arrivals := r.pipe.arrivals, prevT := r.pipe.prevT, feeds := r.pipe.feeds, drained := [] }
  let p := if q.published then { q with xnext := some r.pipe.xcur } else { q with xprev := r.pipe.xprev, xcur := r.pipe.xcur }
  let s1 : State := { s with
    dict := r.dict, dom := r.dom, hist := r.hist, domHist := r.domHist, pend := r.pend, pipe := p,
    nv := { s.nv with dict := r.nv.dict, dom := r.nv.dom },
    drift := { s.drift with mode := r.drift.mode, modeTo := r.drift.modeTo },
    twin := { s.twin with sync := 2, imageB := m.block, joinLog := [] } }
  let s2 := storeSets (s1.stset 0 0x6000 0x0A m.uid)
  (List.range 4).foldl joinPulse ((feedsBoth s s2).foldl corrStatus s2)

/-- JOIN_IMAGE_COMPLETE: taken by a Standby in state 1. -/
def execJoinImageComplete (image : JoinImage) (s : State) : Host.Outcome State Fault Refusal :=
  done (if s.twin.role = .standby && s.twin.sync = 1 && decide (image.block ≤ s.clk.tick) then (installImage s image).heard 3 else s)

/-! Fill and cut (states 2 and 3) -/

/-- The ticks of the Fill state (R465). -/
def fillTicks (s : State) : Nat := if s.n = 32 then 8200 else 16400

/-- The Fill state ends in this tick (R465): the cut block is the running one. -/
def fillEnd (s : State) (caughtUp : Bool) : State :=
  let over_ := caughtUp && decide (s.twin.imageB ≠ 0) && decide (s.twin.cutB = 0) && decide (s.twin.imageB + fillTicks s ≤ s.clk.tick)
  let fills := if s.twin.role = .standby then decide (s.twin.sync = 2)
    else decide (s.twin.role = .active) && decide (s.twin.partnerSync = 2)
  if over_ && fills then
    { s with twin := { s.twin with cutB := s.clk.tick, sync := if s.twin.role = .standby then 3 else s.twin.sync } }
  else s

/-- JOIN_FILL_END: where the placement replay has not caught up, the Fill state does not end in this tick. -/
def execJoinFillEnd (caughtUp : Bool) (s : State) : Host.Outcome State Fault Refusal :=
  done (fillEnd { s with twin := { s.twin with behind := !caughtUp } } caughtUp)

/-- The Fill state at the end of a tick: it ends in the first tick that state 2 allows (R465), which is the cut block, unless
JOIN_FILL_END said that the placement replay has not caught up. -/
def fillTick (s : State) : State := fillEnd s (!s.twin.behind)

/-- The state after block C − 1 that the Active sends at t_(C+2) (R465). -/
def joinCutOf (s : State) : JoinCut where
  block  := s.twin.cutB
  feeds  := s.pipe.feeds
  sigma  := s.drift.sigma
  sigmaT := s.drift.sigmaT
  zoff   := s.drift.zoff
  zoffT  := s.drift.zoffT
  aesQ   := s.aesIn.foldl (fun m e => mset 0 m e.1 e.2.q) []

/-- The Active at boundary t_(C+2), before the output bus takes block C. -/
def joinCutSend (s : State) : State :=
  if s.twin.role = .active && decide (s.twin.cutB ≠ 0) && decide (s.clk.tick = s.twin.cutB + 2) then s.sendPort 3 (.joinCut (joinCutOf s))
  else s

/-- A feed with the cut state: what the blocks C and C + 1 have added to its lines since is dropped. -/
def cutFeed (n : Nat) (own cut : FeedSt) : FeedSt :=
  { own with
    gPrev := cut.gPrev, bq := cut.bq, align := own.align.drop (2 * n), alignA := cut.alignA, limG := cut.limG,
    corr := { own.corr with fdl := own.corr.fdl.drop 2, running := cut.corr.running } }

/-- Every feed with the cut state. -/
def cutFeeds (s : State) (c : JoinCut) : State :=
  let fs := c.feeds.foldl (fun l e => setAdd e.1 l) (s.pipe.feeds.map (fun e => e.1))
  fs.foldl (fun s f => s.setFeed f (cutFeed s.n (s.feed f) (mget FeedSt.init c.feeds f))) s

/-- AES3 converter positions (R465): those of t_(C+2), moved on by the block committed since. -/
def cutAes (s : State) (c : JoinCut) : State :=
  s.aesIn.foldl (fun t e =>
    if aesMode s e.1 = 2 && e.2.state = .locked then setAes t e.1 { e.2 with q := mget 0 c.aesQ e.1 + s.n * e.2.rho } else t) s

/-- The state as block C saw it: the values in force one tick earlier, and the feed buffers that the ring retained. -/
def cutBack (s : State) : State :=
  { s with
    dict := s.hist.headD s.dict, hist := s.hist.tail, dom := s.domHist.headD s.dom, domHist := s.domHist.tail,
    clk := { s.clk with tick := s.clk.tick - 1 }, pipe := { s.pipe with fed := s.pipe.fedPrev } }

/-- The sequencers and the output bus of the block that is two ticks old. -/
def cutBlock (s : State) : State := outputBus (corrTurn s (s.dictAt 2) (s.clk.tick - 2))

/-- The output bus of block C from the retained feed buffers (R465), then of block C + 1. -/
def cutReplay (s : State) : State :=
  let r := cutBlock (cutBack s)
  cutBlock { s with pipe := { s.pipe with feeds := r.pipe.feeds }, mem := r.mem, ledger := r.ledger, dram := r.dram }

/-- The descriptor of a slot's item for a block (R230, R237). -/
def slotDesc (s : State) (u block : Nat) : List Byte :=
  let arg := (Config.slotArg u block).toNat
  leBytes 2 ((Config.slotFlow u).toNat + 0x8000) ++ leBytes 1 4 ++ leBytes 1 (arg % 256) ++ leBytes 8 block ++
    leBytes 4 (arg / 256) ++ leBytes 8 (ringAddr s.n u 0 block) ++ leBytes 8 (ringAddr s.n u 1 block)

/-- The item of a block placed again: its input block still lies in the slot's ring. -/
def slotItemAgain (s : State) (u block : Nat) : State :=
  if (s.queue (48 + u)).items.length < (s.queue (48 + u)).cap then accept s (48 + u) (slotDesc s u block) else s

/-- The items that wait in a queue dropped. -/
def emptyQueue (s : State) (q : Nat) : State := s.setQueue q { s.queue q with items := [] }

/-- Every running user slot restarts from its image at block C (R466), and takes the items of blocks C and C + 1 again; one that is faulted or stopped does not (R232). -/
def restartSlots (s : State) : State :=
  (List.range 16).foldl (fun s u =>
    let sl := slotOfNo s u
    match sl.image, sl.rod with
    | some i, some r =>
      if s.flag (0x7080 + u) 0x02 && decide (sl.state = 2) then
        let s1 := loadRod s u r i
        let s2 := setSlot s1 u { slotOfNo s1 u with ovs := [], got := [], from_ := s.twin.cutB }
        slotItemAgain (slotItemAgain (emptyQueue s2 (48 + u)) u s.twin.cutB) u (s.twin.cutB + 1)
      else s
    | _, _ => s) s

/-- The cut state installed (R465, R466): σ and the zone offsets are those of t_(C+2), one step older than the running tick, and state 4
begins. -/
def installCut (s : State) (c : JoinCut) : State :=
  let s1 := cutAes (cutFeeds s c) c
  let s2 : State := { s1 with
    drift := { s1.drift with sigma := c.sigma, sigmaT := c.sigmaT, zoff := c.zoff, zoffT := c.zoffT },
    twin := { s1.twin with sync := 4, verified := 0, cutB := c.block } }
  let s3 := driftSlew ((List.range 64).foldl (fun s z => s.stset 0 (0x3840 + z) 0x02 (toPat 32 (mget 0 c.zoff z))) s2)
  restartSlots (if s3.pipe.judgedOb then s3 else cutReplay s3)

/-- JOIN_CUT_INSTALL in tick C + 3: a state that is not installed in time restarts the join. -/
def execJoinCutInstall (cut : JoinCut) (inTime : Bool) (s : State) : Host.Outcome State Fault Refusal :=
  done (
    if s.twin.role = .standby && s.twin.sync = 3 then
      if inTime && decide (s.clk.tick = cut.block + 3) then (installCut s cut).heard 3 else joinRestart s
    else s)

/-- A Standby whose cut state has not come by tick C + 4 restarts. -/
def cutOverdue (s : State) : State :=
  if s.twin.role = .standby && s.twin.sync = 3 && decide (s.twin.cutB + 4 ≤ s.clk.tick) then joinRestart s else s

/-! Verification (state 4) -/

/-- After 3,000 consecutive blocks without mismatch the Standby is Synced (R465); its marks close (R469). -/
def verifyEnd (s : State) : State :=
  if s.twin.role = .standby && s.twin.sync = 4 && decide (3000 ≤ s.twin.verified) then
    let ms := (s.clk.tick - s.twin.joinTick) / 3
    let s1 : State := { s with twin := { s.twin with sync := 5, joinFails := 0, marks := [] } }
    ((s1.bump 0x6000 0x1C 1).stset 0 0x6000 0x1D ms).raise 154 ms 0
  else s

/-- JOIN_VERIFY_END. -/
def execJoinVerifyEnd (s : State) : Host.Outcome State Fault Refusal := done (verifyEnd s)

/-- What a join does at a boundary before the output bus takes its block. -/
def joinTick (s : State) : State := joinCutSend (joinCapture (verifyEnd (cutOverdue s)))

end Sys2Proof.Machine
end

