-- ==== Sys2Proof/Machine/Pipeline.lean ====
section
/-! DEFINITION. What the stages hand over in a tick (R33 to R45): ingress commit into the delay lines and group buffers (R40, R105,
R349), the deadline of the output bus, publication at the boundary, the deep lines, and the items and output of user slots (R230). -/
namespace Sys2Proof.Machine

/-! Delay lines (R105) -/

/-- The slot of block `x` in a line of `depth` samples, counted in blocks. -/
def lineSlot (depth n x : Nat) : Nat := x % (depth / n)

/-- Whether an address lies in the short window slot of block `x`. -/
def inShortSlot (n x a : Nat) : Bool := decide (a < 0x1000000) && decide (a / 4 % 8192 / n = lineSlot 8192 n x)

/-- Whether an address lies in the deep line slot of block `x`. -/
def inDeepSlot (n x a : Nat) : Bool :=
  decide (dramBase ≤ a ∧ a < dramBase + 0x20000000) && decide ((a - dramBase) / 4 % 262144 / n = lineSlot 262144 n x)

/-- The objects whose short window slot of block `x` holds anything: a byte, a wrong bit, or a line under repair. -/
def shortObjects (s : State) (x : Nat) : List Nat :=
  let at_ := s.mem.map (fun c => c.1) ++ s.ledger.errs.map (fun e => e.1) ++
    s.ledger.repair.map (fun e => lineAddr e.1 (e.2 - 1))
  (at_.filter (inShortSlot s.n x)).foldl (fun l a => setAdd (a / 0x8000) l) []

/-- The objects whose deep line slot of block `x` holds anything: a byte, a wrong bit, or a poisoned block. -/
def deepObjects (s : State) (x : Nat) : List Nat :=
  let at_ := s.mem.map (fun c => c.1) ++ s.dram.errs.map (fun e => e.1) ++ s.dram.poison
  (at_.filter (inDeepSlot s.n x)).foldl (fun l a => setAdd ((a - dramBase) / 0x100000) l) []

/-- A block of samples as the lines hold it. -/
def lineBytes (x : List Int) : List Byte := x.flatMap (fun v => leBytes 4 (toPat 32 v))

/-- Samples of 32 bits, little-endian. -/
def lineSamples (n : Nat) (b : List Byte) : List Int := (List.range n).map (fun j => toSigned 32 (leNat (slice b (4 * j) 4)))

/-- The block of tick `x` in the short window of an object as a read for the block of the running tick delivers it (R270, R272). -/
def windowBlock (s : State) (o x : Nat) : State × List Int :=
  let (s1, b) := lineRead s s.clk.tick (shortAddr o (s.n * x : Nat)) (4 * s.n)
  (s1, lineSamples s.n b)

/-- The delay-line writer in the running tick X: block X − 3 of every object goes from the short window to the deep line; an object
with zero in both changes no byte, and activates its row all the same. -/
def deepCopy (s : State) : State :=
  let n := s.n
  let x := s.clk.tick - 3
  let held := (deepObjects s x).foldl (fun l o => setAdd o l) (shortObjects s x)
  (List.range 512).foldl (fun s o =>
    let a := deepAddr o (n * x : Nat)
    if held.contains o then
      let (s1, b) := lineRead s x (shortAddr o (n * x : Nat)) (4 * n)
      dramBurst s1 a b (List.replicate (4 * n) true)
    else burstEnd ((blocksOf a (4 * n)).foldl (fun s b => (routeOf s b true).foldl (fun s p => activate s p b) s) (wakeDram s))) s

/-! Ingress commit (R40, R42 to R46, R101, R105, R336, R349, R363, R564) -/

/-- Whether ingress commits the block of the running tick: one that is rendered, or the last of a render (R564). -/
def commits (s : State) : Bool := renders s.dict || renders (s.dictAt 1)

/-- Whether an object is enabled for the running block. -/
def objectOn (s : State) (o : Nat) : Bool := s.flag (0x3000 + o) 0x01

/-- The samples of an object's source in the running block. -/
def objectSource (s : State) (ins : SMap (List Int)) (o : Nat) : List Int :=
  let code := s.val 0xFFFF (0x3000 + o) 0x02
  if code = 0xFFFF then silence s.n else fullBlock s.n (mget [] ins code)

/-- One object's block written to its short window (R105): zero samples while it is disabled. The falling ramp of R43 reads the block
before from the window. -/
def objectLine (ins : SMap (List Int)) (missed : List Nat) (s : State) (o : Nat) : State :=
  let n := s.n
  let x := s.clk.tick
  let f0 := mget .ok s.pipe.inMiss o
  let (s0, old) := if objectOn s o && missed.contains o && decide (f0 = .ok) then windowBlock s o (x - 1) else (s, [])
  let (y, f) := if objectOn s o then fadeStep n ⟨f0, old⟩ (missed.contains o) (objectSource s ins o) else (silence n, FadeCh.init)
  let s1 := ledgerWrite s0 (shortAddr o (n * x : Nat)) (lineBytes y) (List.replicate (4 * n) true)
  { s1 with pipe := { s1.pipe with inMiss := mset .ok s1.pipe.inMiss o f.fade } }

/-- The enabled objects. -/
def objectsOn (s : State) : List Nat := enabledIn s.dict 0x3000 512 0x01

/-- The lanes of a group that a block brings, among inputs numbered from `base`. -/
def groupLanes (ins : SMap (List Int)) (base g : Nat) : List (Nat × List Int) :=
  (ins.filter (fun e => decide (base + 8 * g ≤ e.1 ∧ e.1 < base + 8 * g + 8))).map (fun e => (e.1 - base - 8 * g, e.2))

/-- The group buffers of the AES3 inputs and microphones (R349). -/
def groupInputs (s : State) (ins : SMap (List Int)) : State :=
  let put := fun (s : State) (buffer base g : Nat) =>
    let l := groupLanes ins base g
    if l.isEmpty then s else groupWrite s buffer s.n s.clk.tick g l
  put ((List.range 4).foldl (fun s g => put s 0 0x1000 g) s) 2 0x2000 0

/-- Ingress commit of block X: shadow copies are taken, slots, ports and microphones deliver their block, the objects' lines are
written, and objects whose ingress work is late are in the miss scope. `pdm` holds the bits of the tick by microphone, which are taken though no block
is committed. -/
def ingressCommit (s : State) (missed : List Nat) (pdm : List (Nat × List Bool)) : State :=
  if s.pipe.inNow.isSome then s
  else if !commits s then
    let s1 := pdmIdle s pdm
    if pdm.isEmpty then s1 else { s1 with pipe := { s1.pipe with inNow := some [] } }
  else
    let s0 := (rxSlots s).foldl (fun s i => shadowCutoff s i s.clk.tick) s
    let first := firstBlock s0 0
    let s1 := if first then portsRise (freshLines s0) else s0
    let (s2, ins) := pdmCommit pdm (aesCommit (rxCommit s1 first))
    let scope := (objectsOn s2).filter (fun o => missed.contains o)
    let all := (objectsOn s2).foldl (fun l o => setAdd o l)
      ((s2.pipe.inMiss.map (fun e => e.1)).foldl (fun l o => setAdd o l) (shortObjects s2 s2.clk.tick))
    let s3 := groupInputs (all.foldl (objectLine ins scope) s2) ins
    deadlinePurge (stageMiss { s3 with pipe := { s3.pipe with inNow := some ins } } 1 scope.length) 1 0

/-- INGRESS_COMMIT at t_(X+1) − 4,000 ns. -/
def execIngressCommit (missed : List Nat) (pdm : List (Nat × List Bool)) (s : State) : Host.Outcome State Fault Refusal :=
  done (if s.ticking then ingressCommit (s.elapse (tickLen s.clk.tick - 4000)) missed pdm else s)

/-! User slots (R230) -/

/-- Whether a user slot is enabled for the block `k` ticks behind ingress, and not stopped by a change of the media rate. -/
def slotIn (s : State) (k u : Nat) : Bool :=
  ent (s.dictAt k) 0 (0x7080 + u) 0x02 ≠ 0 && decide ((slotOfNo s u).from_ + k ≤ s.clk.tick) && decide ((slotOfNo s u).state ≠ 1)

/-- Whether the output bus processes the block of the running tick (R564). -/
def busRuns (s : State) : Bool := renders (s.dictAt 2) || renders (s.dictAt 3)

/-- The block that an input of a user slot receives for block T = X − 2: an object or a microphone of block T, a feed's output of
block T − 1. -/
def slotInput (s : State) (code : Nat) : State × List Int :=
  let n := s.n
  if code < 0x1000 then
    let (s1, b) := lineRead s (s.clk.tick - 2) (shortAddr code (n * (s.clk.tick - 2) : Nat)) (4 * n)
    (s1, lineSamples n b)
  else if code < 0x2000 then (s, fullBlock n (mget [] (s.pipe.pubs.headD []) (code - 0x1000)))
  else if code < 0x3000 then (s, fullBlock n (mget [] (s.pipe.inputs.getD 1 []) code))
  else (s, silence n)

/-- The input block of a slot in its ring's layout: sample by sample, channel c in lane c. -/
def slotInputBytes (s : State) (u : Nat) : State × List Byte :=
  let (s1, chans) := (List.range 8).foldl (fun (acc : State × List (List Int)) c =>
    let (t, x) := slotInput acc.1 (ent (s.dictAt 2) 0xFFFF (0x7080 + u) (0x10 + c))
    (t, acc.2 ++ [x])) (s, [])
  (s1, (List.range s.n).flatMap (fun j => chans.flatMap (fun x => leBytes 4 (toPat 32 (nth x j)))))

/-- The item of a running slot for block T, placed at t_(T+2) with its input block. -/
def placeSlotItem (s : State) (u : Nat) : State :=
  let sl := slotOfNo s u
  let block := s.clk.tick - 2
  if slotIn s 2 u && busRuns s && decide (sl.state = 2) then
    let s1 := setSlot s u { sl with due := true, got := [] }
    let (s0, b) := slotInputBytes s1 u
    let s2 := ledgerWrite s0 (ringAddr s.n u 0 block) b (List.replicate (32 * s.n) true)
    let q := s2.queue (48 + u)
    if q.items.length < q.cap then accept s2 (48 + u) (slotDesc s2 u block) else s2
  else setSlot s u { sl with due := false }

/-- The items of every slot at a boundary. -/
def placeSlotItems (s : State) : State := (s.slots.map (fun e => e.1)).foldl placeSlotItem s

/-- The output channels of a slot at the boundary after its block's stage, with the report of a block published. -/
def publishSlot (missed : List Nat) (acc : State × SMap (List Int)) (u : Nat) : State × SMap (List Int) :=
  let (s, out) := acc
  let n := s.n
  let sl := slotOfNo s u
  let block := s.clk.tick - 3
  if slotIn s 3 u && (renders (s.dictAt 3) || renders (s.dictAt 4)) then
    let miss := missed.contains u || decide (sl.state = 3 ∨ sl.state = 4)
    let (s1, b) := ledgerRead s (ringAddr n u 1 block) (32 * n + 32)
    let chan := fun (c : Nat) => (List.range n).map (fun j => toSigned 32 (leNat (slice b (32 * j + 4 * c) 4)))
    let (fades, out1) := (List.range 8).foldl (fun (a : SMap FadeCh × SMap (List Int)) c =>
      let (y, f) := fadeStep n (mget FadeCh.init a.1 c) miss (chan c)
      (mset FadeCh.init a.1 c f, mset [] a.2 (8 * u + c) y)) (sl.fades, out)
    (setSlot (if miss then s else s1) u { sl with
      fades := fades, report := if miss then sl.report else slice b (32 * n) 32 }, out1)
  else (setSlot s u { sl with fades := [] }, out)

/-! The deadline of the output bus and correction stage (R40, R42, R230) -/

/-- The slots whose output is late: the block of an item placed for the running block that is not written whole (R230). -/
def lateSlots (s : State) (observed : List Nat) : List Nat :=
  (s.slots.map (fun e => e.1)).filter (fun u =>
    slotIn s 2 u && (((slotOfNo s u).due && !outputWhole s u) || (observed.contains u && decide ((slotOfNo s u).state = 2))))

/-- The stage is judged: feeds that are not complete, and user slots without their output, are in its miss scope. -/
def busDeadline (s : State) (incomplete users : List Nat) : State :=
  if s.pipe.judgedOb || !busRuns s then s
  else
    let feeds := (chainFeeds s).filter (fun f => incomplete.contains f)
    let slots := lateSlots s users
    let s1 : State := { s with pipe := { s.pipe with judgedOb := true, missOb := feeds, missUser := slots } }
    deadlinePurge (stageMiss (slots.foldl (fun s u => s.bump (0x7080 + u) 0x07 1) s1) 4 (feeds.length + 8 * slots.length)) 4 2

/-- OUTPUT_BUS_DEADLINE at t_(X+1) − 8,000 ns. -/
def execOutputBusDeadline (incomplete userSlots : List Nat) (s : State) : Host.Outcome State Fault Refusal :=
  done (if s.ticking then busDeadline (s.elapse (stageDeadline s)) incomplete userSlots else s)

/-! Publication at a boundary (R41, R43, R44) -/

/-- Every feed in a table or with state. -/
def feedsOf (s : State) (m : SMap (List Int)) : List Nat := m.foldl (fun l e => setAdd e.1 l) (s.pipe.feeds.map (fun e => e.1))

/-- A feed's output of block X − 3 as egress uses it. -/
def publishFeed (acc : State × SMap (List Int)) (f : Nat) : State × SMap (List Int) :=
  let (s, m) := acc
  let st := s.feed f
  let (y, c) := fadeStep s.n st.ob (s.pipe.missOb.contains f) (mget [] s.pipe.outNow f)
  (s.setFeed f { st with ob := c }, mset [] m f y)

/-- The feeds of the block that the output bus finishes, where it renders (R41, R151). -/
def publishFeeds (s : State) : State × SMap (List Int) :=
  if renders (s.dictAt 3) || renders (s.dictAt 4) then (feedsOf s s.pipe.outNow).foldl publishFeed (s, []) else (s, [])

/-- The output channels of every user slot (R230). -/
def publishSlots (s : State) : State × SMap (List Int) :=
  (s.slots.map (fun e => e.1)).foldl (publishSlot s.pipe.missUser) (s, [])

/-- The output bus and the user slots publish block X − 3. -/
def publishOutputs (s : State) : State :=
  let a := publishFeeds s
  let b := publishSlots a.1
  { b.1 with pipe := { b.1.pipe with pubs := [a.2], userBlk := [b.2] } }

/-- A feed buffer of block X − 2 as the output bus uses it. -/
def publishBuffer (acc : State × SMap (List Int)) (f : Nat) : State × SMap (List Int) :=
  let (s, m) := acc
  let st := s.feed f
  let (y, c) := fadeStep s.n st.dm (s.pipe.missDm.contains f) (mget [] s.pipe.rendered f)
  (s.setFeed f { st with dm := c }, mset [] m f y)

/-- The feed buffers of the block that the delay matrix finishes, where the output bus takes them. -/
def publishFed (s : State) : State × SMap (List Int) :=
  if busRuns s then
    (s.pipe.missDm.foldl (fun l f => setAdd f l) (feedsOf s s.pipe.rendered)).foldl publishBuffer (s, [])
  else (s, [])

/-- The delay matrix publishes block X − 2; a feed without crosspoints is silent (R133). -/
def publishBuffers (s : State) : State :=
  let a := publishFed s
  { a.1 with pipe := { a.1.pipe with fedPrev := a.1.pipe.fed, fed := a.2 } }

/-- Ingress publishes block X − 1, and the AES3 transmitters take the block that egress handed over. -/
def publishInputs (s : State) : State :=
  let p := s.pipe
  let s1 : State := { s with pipe := { p with
    inputs := ((p.inNow.getD []) :: p.inputs).take 3, inNow := none, aesAir := p.aesNext, aesNext := [] } }
  (List.range 16).foldl (fun s k =>
    if (mget [] s.pipe.aesAir (2 * k)).isEmpty then s else s.bump (0x2420 + k) 0x05 s.n) s1

/-- The stages stand at the start of the tick: nothing judged, nothing rendered. -/
def openTick (s : State) : State :=
  { s with pipe := { s.pipe with
    rendered := [], outNow := [], missDm := [], missOb := [], missUser := [], judgedOb := false, judgedDm := false, judgedPl := false,
    judgedEg := false, published := false, rendering := renders (s.dictAt 1) || renders (s.dictAt 2) } }

/-- Publication at boundary t_X: outputs of block X − 3, feed buffers of block X − 2, inputs of block X − 1. -/
def publish (s : State) : State :=
  let s1 := publishOutputs s
  let s2 := if firstBlock s1 2 then freshFeeds s1 else s1
  openTick (publishInputs (publishBuffers s2))

end Sys2Proof.Machine
end

