-- ==== Sys2Proof/Machine/Boundary.lean ====
section
/-! DEFINITION. The tick boundary (R34): what was left of the tick that ends, the counter and its snapshots, publication, the effects
that wait for a boundary, the Reckoner's tick service, and the stages' work on their next blocks. -/
namespace Sys2Proof.Machine

/-! The end of the running tick -/

/-- What the running tick has not yet been asked for: shadow copies are taken at their cut-off, stages are complete where
nothing says otherwise, a feed not rendered misses (R40 to R42, R335). -/
def endTick (s : State) : State :=
  let s0 := (rxSlots s).foldl (fun s i => shadowCutoff s i s.clk.tick) s
  let s1 := verdictsOverdue s0
  let s2 := if s1.pipe.rendering && !s1.pipe.published then publishPlacement s1 else s1
  let s3 := fillTick (ingressCommit (busDeadline (dmDeadline s2) [] []) [] [])
  migrationCopy (idleDram (driveTickEnd (egress s3 [] [] []))) (s3.val 8 0x7410 0x04)

/-- The counter reaches the boundary, the tick number rises, all four snapshots are latched (R16, R38, R75), the blocks move one
stage on, and RELEASE was for the frame of the tick that ended (R462). -/
def advanceTick (s : State) : State :=
  let s1 := s.advance (tickLen s.clk.tick - s.clk.ofs)
  let x := s.clk.tick + 1
  let l := s1.clk.local
  { s1 with
    clk := { s1.clk with
      tick := x, ofs := 0, snapNs := BitVec.ofInt 32 l, snapCarry := BitVec.ofInt 32 (fdiv l (2 ^ 32)),
      snapTickLo := BitVec.ofNat 32 x, snapTickHi := BitVec.ofNat 32 (x / 2 ^ 32) }
    hist := (s1.dict :: s1.hist).take 6
    domHist := (s1.dom :: s1.domHist).take 6
    twin := { s1.twin with release := false, behind := false } }

/-! Effects that wait for a boundary -/

/-- Counters of an index cleared. -/
def clearStat (s : State) (on : Bool) (index lo hi : Nat) : State :=
  if on then { s with stat := clearSubs s.stat index lo hi } else s

/-- 6000:10 and :13 to :1D at zero (R474); the default of :1A is 0xFF. -/
def clearTwinStat (s : State) (on : Bool) : State :=
  let s1 := clearStat (clearStat s on 0x6000 0x10 0x10) on 0x6000 0x13 0x1D
  if on then s1.stset 0xFF 0x6000 0x1A 0 else s1

/-- The count of 7410:09 set to 0 (R305). -/
def clearNeighbours (s : State) (on : Bool) : State := if on then { s with dram := { s.dram with neigh := 0 } } else s

/-- No clear asked for any more; the addresses and the GPIO values in force stay. -/
def todoTaken (s : State) : State :=
  { s with todo := { Todo.init with
    mgmtAddr := s.todo.mgmtAddr, mgmtMask := s.todo.mgmtMask, gpioDir := s.todo.gpioDir, gpioOut := s.todo.gpioOut } }

/-- The clears asked for in the tick that ended (R54, R148, R176, R268, R305, R347, R402, R442, R474). -/
def takeTodo (s : State) : State :=
  let t := s.todo
  let s1 := clearStat (clearStat s t.misses 0x1100 0x05 0x0B) t.place 0x3801 0x02 0x0A
  let s2 := t.meters.foldl (fun s f => clearStat (clearStat s true (0x3400 + f) 0x31 0x31) true (0x3400 + f) 0x33 0x33) s1
  let s3 := t.rxStats.foldl (fun s i => clearStat s true (0x2200 + i) 0x0C 0x15) (clearStat s2 t.tally 0x70C0 0x02 0x06)
  let s4 := t.rails.foldl (fun s g =>
    setRail (clearStat (clearStat s true (0x5010 + g) 0x08 0x08) true (0x5010 + g) 0x0B 0x0B) g { s.rail g with least := none }) s3
  let s5 := clearTwinStat s4 t.twin
  let s6 := clearStat (clearStat s5 t.fol 0x1020 0x06 0x0A) t.fol 0x1020 0x0D 0x0D
  let s7 := clearStat (clearStat s6 t.ledger 0x7400 0x01 0x02) t.dram 0x7410 0x08 0x09
  let s8 := (List.range 4).foldl (fun s p => clearStat s t.dram (0x7420 + p) 0x03 0x03) s7
  todoTaken (clearNeighbours s8 t.dram)

/-! Tick service -/

/-- Codewords that a ring port's decoder corrected and could not correct, where it runs with RS-FEC (R346). -/
def fecSeen (s : State) (p corrected uncorrectable : Nat) : State :=
  if p < 2 ∧ (s.port p).mode = 2 then (s.bump (0x2110 + p) 0x07 corrected).bump (0x2110 + p) 0x08 uncorrectable else s

/-- The supply, temperature, input power, ACT_IN and the RS-FEC decoders' codewords found at the boundary (R442, R451, R497). -/
def observe (s : State) (o : BoundaryObs) : State :=
  let s1 : State := { s with power := { s.power with
    vinMv := o.vinMv, temp := o.temp, powerMw := o.powerMw, lowVin := decide (o.vinMv < 4500) } }
  let s2 := o.fec.foldl (fun s e => fecSeen s e.1 e.2.1 e.2.2) s1
  actInSeen s2 o.actIn

/-- Whether the dead-man of the bypass was fed in the tick that ended (R317): by egress while rendering is enabled, otherwise by the
Reckoner whose checks passed. -/
def bypassFed (s : State) (service : Bool) : Bool := if renders (s.dictAt 1) then s.twin.fedNow else service

/-- The module leaves its role once no stage has a block of the render left (R444, R564); one that hears its own TWIN_ID stays Isolated
(R447). -/
def roleTick (s : State) : State :=
  if s.twin.role ≠ .off && !idConflict s && !((List.range 6).any (fun k => renders (s.dictAt k))) then setRole s .off else s

/-- Drive channels at the boundary: Idle at A + 5 (R564), then their tick. -/
def driveBoundary (s : State) : State :=
  driveTick (if renders (s.dictAt 6) && !renders (s.dictAt 5) then drivesRest s else s)

/-- The Reckoner's work at a boundary on the tracker's entries, Frames, images, memories and tests (R191, R223, R225, R251, R295, R298, R485, R498, R518, R520). -/
def serviceTick (s : State) : State :=
  let s1 := spareTestStart (migrationStart (migrationSwitch (releaseItems (judgeCompute (driftTick s)))))
  let s2 := restartRods (loadIdleFrames (updateRotation (liveSwitchTick (rotationSwitch s1))))
  targetedTick (selfTestTick s2)

/-- Bypass, role, interlock and heartbeat (R317, R444, R449, R454, R455). -/
def twinBoundary (s : State) (service : Bool) : State :=
  heartbeatSend (roleTick (twinTick (bypassTick s (bypassFed s service)))) service

/-! The stages' work in the tick that begins -/

/-- Placement of block X − 1 (R33, R105, R109, R111, R185). -/
def placementTick (s : State) : State :=
  let s0 := if renders (s.dictAt 3) || renders (s.dictAt 4) then deepCopy s else s
  let s1 := drainArrivals s0 (s0.clk.tick - 1)
  if s1.pipe.rendering then
    let s2 := driftSlew s1
    let s3 : State := { s2 with pipe := { s2.pipe with xprev := s2.pipe.xnext.getD s2.pipe.xcur, xnext := none } }
    placeBlock (if firstBlock s3 1 then freshObjects s3 else s3)
  else s1

/-- The output bus and correction of block X − 2 (R33, R168, R173), after what a join does. -/
def busTick (s : State) : State :=
  let s1 := joinTick s
  let s2 := corrTurn (rewriteBanks s1 (perTick (s1.dictAt 2))) (s1.dictAt 2) (s1.clk.tick - 2)
  placeSlotItems (if busRuns s2 then outputBus s2 else s2)

/-- What the inputs hold and report at a boundary (R335, R360, R375). -/
def inputTick (s : State) : State :=
  let s1 := (s.aesIn.map (fun e => e.1)).foldl aesApply s
  pdmSweep (aesSweep (rxSweep s1))

/-! The boundary -/

/-- The boundary t_X that ends the running tick. `out` starts anew with what the boundary itself sends. -/
def tickBoundary (s : State) (o : BoundaryObs) : State :=
  let s0 := rebaseApply (rebaseFallback (showCaptures (advanceTick (endTick { s with out := [] }))))
  let s1 := takeTodo (eventsBoundary s0)
  let s2 := applyDue (observe (publish s1) o)
  let s3 := managementTick s2
  let s4 := twinBoundary (driveBoundary { s3 with time := s3.time.slew }) o.service
  let s5 := inputTick (busTick (placementTick (serviceTick (announceTick s4))))
  statusOf (dropRunTick (gpioTick s5 o.gpio))

/-- TICK_BOUNDARY: `obs` is what is found at the balls. No tick service runs in Booting, Start test and Recovery. -/
def execTickBoundary (obs : BoundaryObs) (s : State) : Host.Outcome State Fault Refusal :=
  if !s.ticking then done s
  else if 2 ^ 64 - 1 ≤ s.clk.tick then .fault .tickExhausted
  else done (supplySeen s obs.vinMv (tickBoundary s obs))

end Sys2Proof.Machine
end

