-- ==== Sys2Proof/Machine/RodVector.lean ====
section
/-! DEFINITION. The vector operations of a Rod (R206 to R211, R221) and the parallel word that carries them with loads, stores and
address updates (R201 to R205). -/
namespace Sys2Proof.Machine

/-! Vector operations: each reads the registers of `old` and writes those of `r` -/

/-- A result saturated to Q1.31 in each lane, with SATF. -/
def setSat (r : Rod) (vd : Nat) (f : Nat → Int) : Rod :=
  (r.setV vd (fun l => sat32 (f l))).sat ((List.range 8).any (fun l => decide (sat32 (f l) ≠ f l)))

/-- An accumulator result saturated to Q10.62 in each lane, with SATF (R207). -/
def setSatAc (r : Rod) (ac : Nat) (f : Nat → Int) : Rod :=
  (r.setAc ac (fun l => sat72 (f l))).sat ((List.range 8).any (fun l => decide (sat72 (f l) ≠ f l)))

/-- The product of R207 before its saturation. -/
def rawProduct (old : Rod) (va vb l : Nat) : Int := shl (old.lane va l * old.lane vb l) old.ps

/-- p of R207. -/
def product (old : Rod) (va vb l : Nat) : Int := sat72 (rawProduct old va vb l)

/-- Whether a product saturated in some lane. -/
def productCut (old : Rod) (va vb : Nat) : Bool :=
  (List.range 8).any (fun l => decide (product old va vb l ≠ rawProduct old va vb l))

/-- A lane-wise operation on the 32-bit patterns. -/
def bitwise (old : Rod) (va vb : Nat) (f : Word → Word → Word) (l : Nat) : Int :=
  (f (mget 0#32 old.v (8 * va + l)) (mget 0#32 old.v (8 * vb + l))).toInt

/-- The saturating sum of lanes 0 to 7 in ascending order (VRED), with whether an addition saturated. -/
def redSum (old : Rod) (ac : Nat) : Int × Bool :=
  (List.range 7).foldl (fun a i =>
    let x := a.1 + old.acc ac (i + 1)
    (sat72 x, a.2 || decide (sat72 x ≠ x))) (old.acc ac 0, false)

/-- The smallest e with every lane of an accumulator below 2^(62+e) (R210). -/
def accExponent (old : Rod) (ac : Nat) : Nat :=
  let top := (List.range 8).foldl (fun m l => max m (iabs (old.acc ac l)).toNat) 0
  ((List.range 11).find? (fun e => decide (top < 2 ^ (62 + e)))).getD 10

/-- One lane of a search (R211): the running extreme and its index. -/
def searchLane (min : Bool) (sc : Nat) (a : Int × Nat) (e : Int × Nat) : Int × Nat :=
  let i := (sc + e.2) % 2 ^ 32
  if (if min then decide (e.1 < a.1) else decide (a.1 < e.1)) || (decide (e.1 = a.1) && decide (i < a.2)) then (e.1, i) else a

/-- A search over the lanes of Va in ascending order (R211). -/
def search (r old : Rod) (va : Nat) (min mag : Bool) : Rod :=
  let xs := (List.range 8).map (fun l => (if mag then iabs (old.lane va l) else old.lane va l, l))
  let b := xs.foldl (searchLane min old.sc.toNat) (old.sx.toInt, old.si.toNat)
  { r with sx := BitVec.ofInt 64 b.1, si := BitVec.ofNat 32 b.2, sc := old.sc + 8 }

/-- All ones or zero. -/
def truth (b : Bool) : Int := if b then -1 else 0

/-- The effect of a vector operation (R221). -/
def vopRun (old r : Rod) : VOp → Rod
  | .nop => r
  | .vmov vd va => r.setV vd (old.lane va)
  | .vadd vd va vb => setSat r vd (fun l => old.lane va l + old.lane vb l)
  | .vsub vd va vb => setSat r vd (fun l => old.lane va l - old.lane vb l)
  | .vaddw vd va vb => r.setV vd (fun l => old.lane va l + old.lane vb l)
  | .vsubw vd va vb => r.setV vd (fun l => old.lane va l - old.lane vb l)
  | .vmul vd va vb => setSat r vd (fun l => shr (old.lane va l * old.lane vb l) 31)
  | .vabs vd va => setSat r vd (fun l => iabs (old.lane va l))
  | .vneg vd va => setSat r vd (fun l => -(old.lane va l))
  | .vmin vd va vb => r.setV vd (fun l => min (old.lane va l) (old.lane vb l))
  | .vmax vd va vb => r.setV vd (fun l => max (old.lane va l) (old.lane vb l))
  | .vand vd va vb => r.setV vd (bitwise old va vb (· &&& ·))
  | .vor vd va vb => r.setV vd (bitwise old va vb (· ||| ·))
  | .vxor vd va vb => r.setV vd (bitwise old va vb (· ^^^ ·))
  | .vnot vd va => r.setV vd (bitwise old va va (fun a _ => ~~~a))
  | .vcmpgt vd va vb => r.setV vd (fun l => truth (decide (old.lane vb l < old.lane va l)))
  | .vcmpeq vd va vb => r.setV vd (fun l => truth (decide (old.lane va l = old.lane vb l)))
  | .vshl vd va n => setSat r vd (fun l => shl (old.lane va l) n)
  | .vshr vd va n => r.setV vd (fun l => shr (old.lane va l) n)
  | .vshrl vd va n => r.setV vd (bitwise old va va (fun a _ => a >>> n))
  | .vperm vd va vb => r.setV vd (fun l => old.lane va ((mget 0#32 old.v (8 * vb + l)).toNat % 8))
  | .vbcst vd va n => r.setV vd (fun _ => old.lane va n)
  | .vmpy ac va vb => (r.setAc ac (product old va vb)).sat (productCut old va vb)
  | .vmac ac va vb => (setSatAc r ac (fun l => old.acc ac l + product old va vb l)).sat (productCut old va vb)
  | .vmsu ac va vb => (setSatAc r ac (fun l => old.acc ac l - product old va vb l)).sat (productCut old va vb)
  | .vclr ac => r.setAc ac (fun _ => 0)
  | .vlift ac va => r.setAc ac (fun l => shl (old.lane va l) 31)
  | .vaadd ac acs => setSatAc r ac (fun l => old.acc ac l + old.acc acs l)
  | .vasub ac acs => setSatAc r ac (fun l => old.acc ac l - old.acc acs l)
  | .vtrw ac => r.setAc ac (fun l => shl (shr (old.acc ac l) 31) 31)
  | .vred ac => (r.setAc ac (fun l => if l = 0 then (redSum old ac).1 else 0)).sat (redSum old ac).2
  | .vaex acs => { r with aex := BitVec.ofNat 32 (max old.aex.toNat (accExponent old acs)) }
  | .vrd vd acs n => setSat r vd (fun l => shr (old.acc acs l) (31 + n))
  | .vrdl vd acs => r.setV vd (fun l => old.acc acs l)
  | .vrdm vd acs => r.setV vd (fun l => shr (old.acc acs l) 32)
  | .vrdh vd acs => r.setV vd (fun l => shr (old.acc acs l) 64)
  | .vwra ac va vb => r.setAc ac (fun l =>
      toSigned 64 (toPat 32 (old.lane va l) + toPat 32 (old.lane vb l) * 2 ^ 32))
  | .vwrh ac va => r.setAc ac (fun l =>
      toSigned 72 (toPat 64 (old.acc ac l) + toPat 8 (old.lane va l) * 2 ^ 64))
  | .vrdx vd acs => setSat r vd (fun l => shr (old.acc acs l) (31 + old.bsh))
  | .smax va => search r old va false false
  | .smin va => search r old va true false
  | .smaxa va => search r old va false true

/-- Whether the register fields and immediates of a vector operation are in range, and the operation exists on the Rod
(R201, R221). -/
def vopOk (transform : Bool) : VOp → Bool
  | .nop => true
  | .vmov a b | .vabs a b | .vneg a b | .vnot a b => decide (a < 32) && decide (b < 32)
  | .vadd a b c | .vsub a b c | .vaddw a b c | .vsubw a b c | .vmul a b c | .vmin a b c | .vmax a b c | .vand a b c
  | .vor a b c | .vxor a b c | .vcmpgt a b c | .vcmpeq a b c | .vperm a b c | .vshl a b c | .vshr a b c
  | .vshrl a b c => decide (a < 32) && decide (b < 32) && decide (c < 32)
  | .vbcst a b n => decide (a < 32) && decide (b < 32) && decide (n < 8)
  | .vmpy ac a b | .vmac ac a b | .vmsu ac a b | .vwra ac a b => decide (ac < 8) && decide (a < 32) && decide (b < 32)
  | .vclr ac | .vtrw ac | .vred ac | .vaex ac => decide (ac < 8)
  | .vlift ac a | .vwrh ac a => decide (ac < 8) && decide (a < 32)
  | .vaadd a b | .vasub a b => decide (a < 8) && decide (b < 8)
  | .vrd v ac n => decide (v < 32) && decide (ac < 8) && decide (n < 32)
  | .vrdl v ac | .vrdm v ac | .vrdh v ac => decide (v < 32) && decide (ac < 8)
  | .vrdx v ac => decide (v < 32) && decide (ac < 8) && transform
  | .smax v | .smin v | .smaxa v => decide (v < 32)

/-- The vector register that an operation writes. -/
def vopDest : VOp → Option Nat
  | .vmov d _ | .vabs d _ | .vneg d _ | .vnot d _ | .vadd d _ _ | .vsub d _ _ | .vaddw d _ _ | .vsubw d _ _
  | .vmul d _ _ | .vmin d _ _ | .vmax d _ _ | .vand d _ _ | .vor d _ _ | .vxor d _ _ | .vcmpgt d _ _ | .vcmpeq d _ _
  | .vperm d _ _ | .vshl d _ _ | .vshr d _ _ | .vshrl d _ _ | .vbcst d _ _ | .vrd d _ _ | .vrdl d _ | .vrdm d _
  | .vrdh d _ | .vrdx d _ => some d
  | _ => none

/-- The accumulators that an operation writes. -/
def vopAcs : VOp → List Nat
  | .vmpy a _ _ | .vmac a _ _ | .vmsu a _ _ | .vclr a | .vlift a _ | .vaadd a _ | .vasub a _ | .vtrw a | .vred a
  | .vwra a _ _ | .vwrh a _ => [a]
  | _ => []

/-- The accumulators whose read stalls by R220. -/
def vopReads : VOp → List Nat
  | .vrd _ a _ | .vrdx _ a | .vrdl _ a | .vrdm _ a | .vrdh _ a | .vaex a | .vred a | .vaadd _ a | .vasub _ a => [a]
  | _ => []

/-- Whether an operation is a search. -/
def vopSearch : VOp → Bool
  | .smax _ | .smin _ | .smaxa _ => true
  | _ => false

/-! Loads, stores and updates (R204, R205) -/

/-- The byte addresses of the eight lanes of a load, or of its one word. -/
def loadAddrs (rod : Rod) (l : LdSlot) : List Int :=
  let a : Int := rod.arv l.an
  match l.kind with
  | .ldv => (List.range 8).map (fun (i : Nat) => a + 4 * (i : Int))
  | .ldb => [a]
  | .lds => (List.range 8).map (fun (i : Nat) => a + (i : Int) * rod.mdv l.an)

/-- The byte addresses of a store. -/
def storeAddrs (rod : Rod) (t : StSlot) : List Int :=
  let a : Int := rod.arv t.an
  match t.kind with
  | .stl => [a]
  | _ => (List.range 8).map (fun (i : Nat) => a + 4 * (i : Int))

/-- The step of an update (R201): MDn, +4, +32 or −32. -/
def updStep (rod : Rod) (u : UpdSlot) : Int :=
  match u.step with
  | 0 => rod.mdv u.an
  | 1 => 4
  | 2 => 32
  | _ => -32

/-- The new ARn of an update (R205), before it is taken modulo 2^32. -/
def updValue (rod : Rod) (u : UpdSlot) : Int :=
  let a : Int := rod.arv u.an
  let cl := (mget 0#19 rod.cl u.an).toNat
  let cb : Int := ((mget 0#18 rod.cb u.an).toNat : Nat)
  match u.kind with
  | .linear => a + updStep rod u
  | .circular => if cl = 0 then a + updStep rod u else cb + (a - cb + updStep rod u) % (cl : Int)
  | .bitReversed =>
    let w := Nat.log2 (cl / 8)
    let i := ((a - cb) / 8).toNat
    cb + 8 * ((bitrev w ((bitrev w i + 1) % 2 ^ w) : Nat) : Int)

/-- Whether an update is legal on the Rod (R201, R205). -/
def updOk (rod : Rod) (transform : Bool) (u : UpdSlot) : Bool :=
  decide (u.an < 16) && decide (u.step < 4) &&
  (match u.kind with
    | .bitReversed =>
      let a : Int := rod.arv u.an
      let cl := (mget 0#19 rod.cl u.an).toNat
      let d := a - ((mget 0#18 rod.cb u.an).toNat : Nat)
      transform && decide (u.step = 0) && decide (16 ≤ cl ∧ cl ≤ 262144 ∧ 2 ^ Nat.log2 cl = cl) &&
        decide (0 ≤ d ∧ d < cl ∧ d % 8 = 0)
    | _ => true)

/-- A parallel word (R201). -/
structure ParWord where
  vop : VOp
  ld  : Option LdSlot
  st  : Option StSlot
  us  : List UpdSlot
  deriving DecidableEq, Repr

/-- The word of a vector operation with its other slots. -/
def wordOf (op : VOp) (sl : Slots) : ParWord := ParWord.mk op sl.ld sl.st (sl.u1.toList ++ sl.u2.toList)

/-- Whether every slot of a word is legal on the Rod. -/
def parOk (rod : Rod) (transform : Bool) (w : ParWord) : Bool :=
  vopOk transform w.vop && w.us.all (updOk rod transform) &&
  (match w.ld with
    | some l => decide (l.v < 32) && decide (l.an < 16)
    | none => true) &&
  (match w.st with
    | some t => decide (t.v < 32) && decide (t.an < 16) && (transform || decide (t.kind ≠ .std))
    | none => true)

/-- The slot conflicts of R203. -/
def parConflict (w : ParWord) : Bool :=
  (match w.ld with
    | some l => decide (vopDest w.vop = some l.v)
    | none => false) ||
  (match w.us with
    | [a, b] => decide (a.an = b.an)
    | _ => false) ||
  w.us.any (fun u => decide (u.kind = .bitReversed) &&
    ((match w.ld with
      | some l => decide (l.an = u.an)
      | none => false) ||
     (match w.st with
      | some t => decide (t.an = u.an)
      | none => false)))

/-- The ARs that a word uses. -/
def parUses (w : ParWord) : List Nat :=
  (w.ld.toList.map (fun l => l.an)) ++ (w.st.toList.map (fun t => t.an)) ++ w.us.map (fun u => u.an)

/-- The load's result: lane l from its address (R204). -/
def loadInto (s : State) (r : Nat) (l : LdSlot) (addrs : List Int) (rod : Rod) : Rod :=
  rod.setV l.v (fun i =>
    (dmWord s r ((match l.kind with
      | .ldb => addrs.headD 0
      | _ => addrs.getD i 0)).toNat).toInt)

/-- The words of a store with their values: the values stood before the word (R202). -/
def storeWords (old : Rod) (t : StSlot) (addrs : List Int) : List (Nat × Word) :=
  (List.range addrs.length).map (fun i => ((addrs.getD i 0).toNat, mget 0#32 old.v (8 * t.v + i)))

/-- The block-exponent detector fed by STD (R209). -/
def detect (old r : Rod) (v : Nat) : Rod :=
  { r with bxm := (List.range 8).foldl (fun m l => max m (iabs (old.lane v l)).toNat) old.bxm }

/-- The results of a parallel word in registers (R202). -/
def parRegs (s : State) (r : Nat) (old : Rod) (w : ParWord) : Rod :=
  let r1 := vopRun old old w.vop
  let r2 := match w.ld with
    | some l => loadInto s r l (loadAddrs old l) r1
    | none => r1
  let r3 := match w.st with
    | some t => if t.kind = .std then detect old r2 t.v else r2
    | none => r2
  w.us.foldl (fun q u => q.setAr u.an (updValue old u)) r3

/-- The execution of a legal parallel word whose addresses hold. -/
def parRun (s : State) (r : Nat) (w : ParWord) (lds : List Nat) : State :=
  let s1 := rodNote s r lds
  let old := s1.rod r
  let regs := parRegs s1 r old w
  let s2 := match w.st with
    | some t => (storeWords old t (storeAddrs old t)).foldl (fun s e => dmStore s r e) s1
    | none => s1
  let ecc := s2.rod r
  let isStd := match w.st with
    | some t => decide (t.kind = .std)
    | none => false
  finish s2 r { regs with errs := ecc.errs, corr := ecc.corr } (stallOf old (vopReads w.vop) (parUses w))
    (Wrote.mk (vopAcs w.vop) [] (vopSearch w.vop || isStd))

/-- A parallel word (R201 to R205, R219, R222): illegal, conflicting or out of bounds it faults and no slot completes; on
bytes that a transfer still needs it waits. -/
def parallel (s : State) (r : Nat) (w : ParWord) : State :=
  runWord s r (fun t =>
    let rod := t.rod r
    if !parOk rod (isTransform r) w then rodFault t r 0x01 0
    else if parConflict w then rodFault t r 0x02 0
    else
      let la := w.ld.toList.flatMap (loadAddrs rod)
      let sa := w.st.toList.flatMap (storeAddrs rod)
      if !(la.all dmOk && sa.all dmOk) then rodFault t r 0x04 0
      else
        let lds := la.map Int.toNat
        let sts := sa.map Int.toNat
        if loadWaits rod lds || storeWaits rod sts then stallWord t r
        else if rodLost t r (lds ++ sts) then rodFault (t.setRod r { rod with uncorr := true }) r 0x08 0
        else parRun t r w lds)

/-- The word whose load slot a row names. -/
def loadWord (k : LdKind) (v an : Nat) (vop : VOp) (st : Option StSlot) (u1 u2 : Option UpdSlot) : ParWord :=
  ParWord.mk vop (some (LdSlot.mk k v an)) st (u1.toList ++ u2.toList)

/-- The word whose store slot a row names. -/
def storeWord (k : StKind) (v an : Nat) (vop : VOp) (ld : Option LdSlot) (u1 u2 : Option UpdSlot) : ParWord :=
  ParWord.mk vop ld (some (StSlot.mk k v an)) (u1.toList ++ u2.toList)

/-- The word whose first update a row names. -/
def updateWord (k : UpdKind) (an step : Nat) (vop : VOp) (ld : Option LdSlot) (st : Option StSlot) (u2 : Option UpdSlot) :
    ParWord :=
  ParWord.mk vop ld st (UpdSlot.mk k an step :: u2.toList)

/-! The commands: a Rod executes the word -/

/-- NOP with the other slots of its word. -/
def execNop (rod : Nat) (sl : Slots) (s : State) : Host.Outcome State Fault Refusal :=
  done (parallel s rod (wordOf .nop sl))

/-- VMOV with the other slots of its word. -/
def execVmov (rod vd va : Nat) (sl : Slots) (s : State) : Host.Outcome State Fault Refusal :=
  done (parallel s rod (wordOf (.vmov vd va) sl))

/-- VADD with the other slots of its word. -/
def execVadd (rod vd va vb : Nat) (sl : Slots) (s : State) : Host.Outcome State Fault Refusal :=
  done (parallel s rod (wordOf (.vadd vd va vb) sl))

/-- VSUB with the other slots of its word. -/
def execVsub (rod vd va vb : Nat) (sl : Slots) (s : State) : Host.Outcome State Fault Refusal :=
  done (parallel s rod (wordOf (.vsub vd va vb) sl))

/-- VADDW with the other slots of its word. -/
def execVaddw (rod vd va vb : Nat) (sl : Slots) (s : State) : Host.Outcome State Fault Refusal :=
  done (parallel s rod (wordOf (.vaddw vd va vb) sl))

/-- VSUBW with the other slots of its word. -/
def execVsubw (rod vd va vb : Nat) (sl : Slots) (s : State) : Host.Outcome State Fault Refusal :=
  done (parallel s rod (wordOf (.vsubw vd va vb) sl))

/-- VMUL with the other slots of its word. -/
def execVmul (rod vd va vb : Nat) (sl : Slots) (s : State) : Host.Outcome State Fault Refusal :=
  done (parallel s rod (wordOf (.vmul vd va vb) sl))

/-- VABS with the other slots of its word. -/
def execVabs (rod vd va : Nat) (sl : Slots) (s : State) : Host.Outcome State Fault Refusal :=
  done (parallel s rod (wordOf (.vabs vd va) sl))

/-- VNEG with the other slots of its word. -/
def execVneg (rod vd va : Nat) (sl : Slots) (s : State) : Host.Outcome State Fault Refusal :=
  done (parallel s rod (wordOf (.vneg vd va) sl))

/-- VMIN with the other slots of its word. -/
def execVmin (rod vd va vb : Nat) (sl : Slots) (s : State) : Host.Outcome State Fault Refusal :=
  done (parallel s rod (wordOf (.vmin vd va vb) sl))

/-- VMAX with the other slots of its word. -/
def execVmax (rod vd va vb : Nat) (sl : Slots) (s : State) : Host.Outcome State Fault Refusal :=
  done (parallel s rod (wordOf (.vmax vd va vb) sl))

/-- VAND with the other slots of its word. -/
def execVand (rod vd va vb : Nat) (sl : Slots) (s : State) : Host.Outcome State Fault Refusal :=
  done (parallel s rod (wordOf (.vand vd va vb) sl))

/-- VOR with the other slots of its word. -/
def execVor (rod vd va vb : Nat) (sl : Slots) (s : State) : Host.Outcome State Fault Refusal :=
  done (parallel s rod (wordOf (.vor vd va vb) sl))

/-- VXOR with the other slots of its word. -/
def execVxor (rod vd va vb : Nat) (sl : Slots) (s : State) : Host.Outcome State Fault Refusal :=
  done (parallel s rod (wordOf (.vxor vd va vb) sl))

/-- VNOT with the other slots of its word. -/
def execVnot (rod vd va : Nat) (sl : Slots) (s : State) : Host.Outcome State Fault Refusal :=
  done (parallel s rod (wordOf (.vnot vd va) sl))

/-- VCMPGT with the other slots of its word. -/
def execVcmpgt (rod vd va vb : Nat) (sl : Slots) (s : State) : Host.Outcome State Fault Refusal :=
  done (parallel s rod (wordOf (.vcmpgt vd va vb) sl))

/-- VCMPEQ with the other slots of its word. -/
def execVcmpeq (rod vd va vb : Nat) (sl : Slots) (s : State) : Host.Outcome State Fault Refusal :=
  done (parallel s rod (wordOf (.vcmpeq vd va vb) sl))

/-- VSHL with the other slots of its word. -/
def execVshl (rod vd va n : Nat) (sl : Slots) (s : State) : Host.Outcome State Fault Refusal :=
  done (parallel s rod (wordOf (.vshl vd va n) sl))

/-- VSHR with the other slots of its word. -/
def execVshr (rod vd va n : Nat) (sl : Slots) (s : State) : Host.Outcome State Fault Refusal :=
  done (parallel s rod (wordOf (.vshr vd va n) sl))

/-- VSHRL with the other slots of its word. -/
def execVshrl (rod vd va n : Nat) (sl : Slots) (s : State) : Host.Outcome State Fault Refusal :=
  done (parallel s rod (wordOf (.vshrl vd va n) sl))

/-- VPERM with the other slots of its word. -/
def execVperm (rod vd va vb : Nat) (sl : Slots) (s : State) : Host.Outcome State Fault Refusal :=
  done (parallel s rod (wordOf (.vperm vd va vb) sl))

/-- VBCST with the other slots of its word. -/
def execVbcst (rod vd va n : Nat) (sl : Slots) (s : State) : Host.Outcome State Fault Refusal :=
  done (parallel s rod (wordOf (.vbcst vd va n) sl))

/-- VMPY with the other slots of its word. -/
def execVmpy (rod ac va vb : Nat) (sl : Slots) (s : State) : Host.Outcome State Fault Refusal :=
  done (parallel s rod (wordOf (.vmpy ac va vb) sl))

/-- VMAC with the other slots of its word. -/
def execVmac (rod ac va vb : Nat) (sl : Slots) (s : State) : Host.Outcome State Fault Refusal :=
  done (parallel s rod (wordOf (.vmac ac va vb) sl))

/-- VMSU with the other slots of its word. -/
def execVmsu (rod ac va vb : Nat) (sl : Slots) (s : State) : Host.Outcome State Fault Refusal :=
  done (parallel s rod (wordOf (.vmsu ac va vb) sl))

/-- VCLR with the other slots of its word. -/
def execVclr (rod ac : Nat) (sl : Slots) (s : State) : Host.Outcome State Fault Refusal :=
  done (parallel s rod (wordOf (.vclr ac) sl))

/-- VLIFT with the other slots of its word. -/
def execVlift (rod ac va : Nat) (sl : Slots) (s : State) : Host.Outcome State Fault Refusal :=
  done (parallel s rod (wordOf (.vlift ac va) sl))

/-- VAADD with the other slots of its word. -/
def execVaadd (rod ac acs : Nat) (sl : Slots) (s : State) : Host.Outcome State Fault Refusal :=
  done (parallel s rod (wordOf (.vaadd ac acs) sl))

/-- VASUB with the other slots of its word. -/
def execVasub (rod ac acs : Nat) (sl : Slots) (s : State) : Host.Outcome State Fault Refusal :=
  done (parallel s rod (wordOf (.vasub ac acs) sl))

/-- VTRW with the other slots of its word. -/
def execVtrw (rod ac : Nat) (sl : Slots) (s : State) : Host.Outcome State Fault Refusal :=
  done (parallel s rod (wordOf (.vtrw ac) sl))

/-- VRED with the other slots of its word. -/
def execVred (rod ac : Nat) (sl : Slots) (s : State) : Host.Outcome State Fault Refusal :=
  done (parallel s rod (wordOf (.vred ac) sl))

/-- VAEX with the other slots of its word. -/
def execVaex (rod acs : Nat) (sl : Slots) (s : State) : Host.Outcome State Fault Refusal :=
  done (parallel s rod (wordOf (.vaex acs) sl))

/-- VRD with the other slots of its word. -/
def execVrd (rod vd acs n : Nat) (sl : Slots) (s : State) : Host.Outcome State Fault Refusal :=
  done (parallel s rod (wordOf (.vrd vd acs n) sl))

/-- VRDL with the other slots of its word. -/
def execVrdl (rod vd acs : Nat) (sl : Slots) (s : State) : Host.Outcome State Fault Refusal :=
  done (parallel s rod (wordOf (.vrdl vd acs) sl))

/-- VRDM with the other slots of its word. -/
def execVrdm (rod vd acs : Nat) (sl : Slots) (s : State) : Host.Outcome State Fault Refusal :=
  done (parallel s rod (wordOf (.vrdm vd acs) sl))

/-- VRDH with the other slots of its word. -/
def execVrdh (rod vd acs : Nat) (sl : Slots) (s : State) : Host.Outcome State Fault Refusal :=
  done (parallel s rod (wordOf (.vrdh vd acs) sl))

/-- VWRA with the other slots of its word. -/
def execVwra (rod ac va vb : Nat) (sl : Slots) (s : State) : Host.Outcome State Fault Refusal :=
  done (parallel s rod (wordOf (.vwra ac va vb) sl))

/-- VWRH with the other slots of its word. -/
def execVwrh (rod ac va : Nat) (sl : Slots) (s : State) : Host.Outcome State Fault Refusal :=
  done (parallel s rod (wordOf (.vwrh ac va) sl))

/-- VRDX with the other slots of its word. -/
def execVrdx (rod vd acs : Nat) (sl : Slots) (s : State) : Host.Outcome State Fault Refusal :=
  done (parallel s rod (wordOf (.vrdx vd acs) sl))

/-- SMAX with the other slots of its word. -/
def execSmax (rod va : Nat) (sl : Slots) (s : State) : Host.Outcome State Fault Refusal :=
  done (parallel s rod (wordOf (.smax va) sl))

/-- SMIN with the other slots of its word. -/
def execSmin (rod va : Nat) (sl : Slots) (s : State) : Host.Outcome State Fault Refusal :=
  done (parallel s rod (wordOf (.smin va) sl))

/-- SMAXA with the other slots of its word. -/
def execSmaxa (rod va : Nat) (sl : Slots) (s : State) : Host.Outcome State Fault Refusal :=
  done (parallel s rod (wordOf (.smaxa va) sl))

/-- LDV: a word whose load slot is LDV. -/
def execLdv (rod v an : Nat) (vop : VOp) (st : Option StSlot) (u1 u2 : Option UpdSlot) (s : State) :
    Host.Outcome State Fault Refusal :=
  done (parallel s rod (loadWord .ldv v an vop st u1 u2))

/-- LDB: a word whose load slot is LDB. -/
def execLdb (rod v an : Nat) (vop : VOp) (st : Option StSlot) (u1 u2 : Option UpdSlot) (s : State) :
    Host.Outcome State Fault Refusal :=
  done (parallel s rod (loadWord .ldb v an vop st u1 u2))

/-- LDS: a word whose load slot is LDS. -/
def execLds (rod v an : Nat) (vop : VOp) (st : Option StSlot) (u1 u2 : Option UpdSlot) (s : State) :
    Host.Outcome State Fault Refusal :=
  done (parallel s rod (loadWord .lds v an vop st u1 u2))

/-- STV: a word whose store slot is STV. -/
def execStv (rod v an : Nat) (vop : VOp) (ld : Option LdSlot) (u1 u2 : Option UpdSlot) (s : State) :
    Host.Outcome State Fault Refusal :=
  done (parallel s rod (storeWord .stv v an vop ld u1 u2))

/-- STL: a word whose store slot is STL. -/
def execStl (rod v an : Nat) (vop : VOp) (ld : Option LdSlot) (u1 u2 : Option UpdSlot) (s : State) :
    Host.Outcome State Fault Refusal :=
  done (parallel s rod (storeWord .stl v an vop ld u1 u2))

/-- STD: a word whose store slot is STD. -/
def execStd (rod v an : Nat) (vop : VOp) (ld : Option LdSlot) (u1 u2 : Option UpdSlot) (s : State) :
    Host.Outcome State Fault Refusal :=
  done (parallel s rod (storeWord .std v an vop ld u1 u2))

/-- UPDATE_LINEAR: a word whose first update is linear. -/
def execUpdateLinear (rod an step : Nat) (vop : VOp) (ld : Option LdSlot) (st : Option StSlot) (u2 : Option UpdSlot)
    (s : State) : Host.Outcome State Fault Refusal :=
  done (parallel s rod (updateWord .linear an step vop ld st u2))

/-- UPDATE_CIRCULAR: a word whose first update is circular. -/
def execUpdateCircular (rod an step : Nat) (vop : VOp) (ld : Option LdSlot) (st : Option StSlot) (u2 : Option UpdSlot)
    (s : State) : Host.Outcome State Fault Refusal :=
  done (parallel s rod (updateWord .circular an step vop ld st u2))

/-- UPDATE_BIT_REVERSED: a word whose first update is bit-reversed. -/
def execUpdateBitReversed (rod an step : Nat) (vop : VOp) (ld : Option LdSlot) (st : Option StSlot) (u2 : Option UpdSlot)
    (s : State) : Host.Outcome State Fault Refusal :=
  done (parallel s rod (updateWord .bitReversed an step vop ld st u2))

end Sys2Proof.Machine
end

