-- ==== Sys2Proof/Machine/Dispatch.lean ====
section
/-! DEFINITION. Which meaning each command has: one arm per constructor of `Instr`. -/
namespace Sys2Proof.Machine

/-- The effect of a command on everything but the queue. -/
def exec (i : Instr) (s : State) : Host.Outcome State Fault Refusal :=
  match i with
  | .reset cause => Sys2Proof.Machine.execReset cause s
  | .startInstant obs => Sys2Proof.Machine.execStartInstant obs s
  | .trialTimeout => Sys2Proof.Machine.execTrialTimeout s
  | .libraryRestoreDone => Sys2Proof.Machine.execLibraryRestoreDone s
  | .brownout at_ vinMv => Sys2Proof.Machine.execBrownout at_ vinMv s
  | .brownoutEnd at_ vinMv => Sys2Proof.Machine.execBrownoutEnd at_ vinMv s
  | .powerGoodFall vinMv => Sys2Proof.Machine.execPowerGoodFall vinMv s
  | .tickBoundary obs => Sys2Proof.Machine.execTickBoundary obs s
  | .placementPublish at_ => Sys2Proof.Machine.execPlacementPublish at_ s
  | .spanDelivered at_ engine object feed => Sys2Proof.Machine.execSpanDelivered at_ engine object feed s
  | .feedRender at_ feed => Sys2Proof.Machine.execFeedRender at_ feed s
  | .ingressCommit missed pdm => Sys2Proof.Machine.execIngressCommit missed pdm s
  | .placementDeadline incomplete => Sys2Proof.Machine.execPlacementDeadline incomplete s
  | .delayMatrixDeadline => Sys2Proof.Machine.execDelayMatrixDeadline s
  | .outputBusDeadline incomplete userSlots => Sys2Proof.Machine.execOutputBusDeadline incomplete userSlots s
  | .egressDeadline slots aes drives => Sys2Proof.Machine.execEgressDeadline slots aes drives s
  | .tallyPurge value => Sys2Proof.Machine.execTallyPurge value s
  | .preparationComplete feed complete => Sys2Proof.Machine.execPreparationComplete feed complete s
  | .crossfadeEnd feed => Sys2Proof.Machine.execCrossfadeEnd feed s
  | .driftEstimateWindow est => Sys2Proof.Machine.execDriftEstimateWindow est s
  | .driftPublication => Sys2Proof.Machine.execDriftPublication s
  | .driftPublicationReceived pub => Sys2Proof.Machine.execDriftPublicationReceived pub s
  | .driftApply => Sys2Proof.Machine.execDriftApply s
  | .syncReceived at_ msg => Sys2Proof.Machine.execSyncReceived at_ msg s
  | .rebaseValuesReceived epoch block => Sys2Proof.Machine.execRebaseValuesReceived epoch block s
  | .rebaseFallback => Sys2Proof.Machine.execRebaseFallback s
  | .rebaseApply => Sys2Proof.Machine.execRebaseApply s
  | .announceReceived at_ msg => Sys2Proof.Machine.execAnnounceReceived at_ msg s
  | .qualificationEnd => Sys2Proof.Machine.execQualificationEnd s
  | .announceTimeout port => Sys2Proof.Machine.execAnnounceTimeout port s
  | .syncLoss => Sys2Proof.Machine.execSyncLoss s
  | .delayMeasurementComplete port delayNs => Sys2Proof.Machine.execDelayMeasurementComplete port delayNs s
  | .ptpMessageSend port kind depart => Sys2Proof.Machine.execPtpMessageSend port kind depart s
  | .pdelayReqReceived port capture depart => Sys2Proof.Machine.execPdelayReqReceived port capture depart s
  | .ptpTransit inPort outPort kind carrier capture depart corr => Sys2Proof.Machine.execPtpTransit inPort outPort kind carrier capture depart corr s
  | .counterWrap => Sys2Proof.Machine.execCounterWrap s
  | .tuCarryWrite value => Sys2Proof.Machine.execTuCarryWrite value s
  | .carryLostClear => Sys2Proof.Machine.execCarryLostClear s
  | .comparatorFire at_ n => Sys2Proof.Machine.execComparatorFire at_ n s
  | .pulseWidthEnd at_ n => Sys2Proof.Machine.execPulseWidthEnd at_ n s
  | .captureEdge at_ n rising => Sys2Proof.Machine.execCaptureEdge at_ n rising s
  | .ringFrameReceived at_ port frame => Sys2Proof.Machine.execRingFrameReceived at_ port frame s
  | .linkLock port mode => Sys2Proof.Machine.execLinkLock port mode s
  | .linkLoss port => Sys2Proof.Machine.execLinkLoss port s
  | .lineModeAlternate port => Sys2Proof.Machine.execLineModeAlternate port s
  | .bypassDeadmanStarved => Sys2Proof.Machine.execBypassDeadmanStarved s
  | .automaticRejoin => Sys2Proof.Machine.execAutomaticRejoin s
  | .settleTimeEnd => Sys2Proof.Machine.execSettleTimeEnd s
  | .bypCtrlEnWrite value => Sys2Proof.Machine.execBypCtrlEnWrite value s
  | .bypCtrlFeed => Sys2Proof.Machine.execBypCtrlFeed s
  | .streamPacketReceived at_ port dgram => Sys2Proof.Machine.execStreamPacketReceived at_ port dgram s
  | .shadowCutoff slot block => Sys2Proof.Machine.execShadowCutoff slot block s
  | .aes3FrameReceived at_ input frame => Sys2Proof.Machine.execAes3FrameReceived at_ input frame s
  | .aes3NonAudioEnd input => Sys2Proof.Machine.execAes3NonAudioEnd input s
  | .aes3LockValuesReceived input vals => Sys2Proof.Machine.execAes3LockValuesReceived input vals s
  | .aes3LockApply input => Sys2Proof.Machine.execAes3LockApply input s
  | .aes3RhoDecision input rho => Sys2Proof.Machine.execAes3RhoDecision input rho s
  | .aes3NoSignal input => Sys2Proof.Machine.execAes3NoSignal input s
  | .aes3RateWindow input => Sys2Proof.Machine.execAes3RateWindow input s
  | .pdmStuck input => Sys2Proof.Machine.execPdmStuck input s
  | .pdmStuckRecover input => Sys2Proof.Machine.execPdmStuckRecover input s
  | .carrierPeriod inp => Sys2Proof.Machine.execCarrierPeriod inp s
  | .railStateChange group => Sys2Proof.Machine.execRailStateChange group s
  | .overCurrentCut at_ channel widthNs => Sys2Proof.Machine.execOverCurrentCut at_ channel widthNs s
  | .driveShutdown channel => Sys2Proof.Machine.execDriveShutdown channel s
  | .senseStuck stream index => Sys2Proof.Machine.execSenseStuck stream index s
  | .driveFaultItem channel => Sys2Proof.Machine.execDriveFaultItem channel s
  | .drvMuteFaultRamp channel => Sys2Proof.Machine.execDrvMuteFaultRamp channel s
  | .holdOffEnd channel => Sys2Proof.Machine.execHoldOffEnd channel s
  | .retryCountReset channel => Sys2Proof.Machine.execRetryCountReset channel s
  | .driveStart channel => Sys2Proof.Machine.execDriveStart channel s
  | .driveStop channel => Sys2Proof.Machine.execDriveStop channel s
  | .driveGateChange at_ actIn => Sys2Proof.Machine.execDriveGateChange at_ actIn s
  | .heartbeatFrameReceived at_ frame => Sys2Proof.Machine.execHeartbeatFrameReceived at_ frame s
  | .twinEvaluation actInLowNs => Sys2Proof.Machine.execTwinEvaluation actInLowNs s
  | .splitBrainSuspected => Sys2Proof.Machine.execSplitBrainSuspected s
  | .actInCollision at_ => Sys2Proof.Machine.execActInCollision at_ s
  | .collisionTimeout actIn => Sys2Proof.Machine.execCollisionTimeout actIn s
  | .actOutDeadmanStarved => Sys2Proof.Machine.execActOutDeadmanStarved s
  | .actOutClaim at_ actInLowNs => Sys2Proof.Machine.execActOutClaim at_ actInLowNs s
  | .faultHandover => Sys2Proof.Machine.execFaultHandover s
  | .activeFaultHandover => Sys2Proof.Machine.execActiveFaultHandover s
  | .joinImageComplete image => Sys2Proof.Machine.execJoinImageComplete image s
  | .joinFillEnd caughtUp => Sys2Proof.Machine.execJoinFillEnd caughtUp s
  | .joinCutInstall cut inTime => Sys2Proof.Machine.execJoinCutInstall cut inTime s
  | .joinVerifyEnd => Sys2Proof.Machine.execJoinVerifyEnd s
  | .folOpen at_ src frame => Sys2Proof.Machine.execFolOpen at_ src frame s
  | .folClose at_ src frame => Sys2Proof.Machine.execFolClose at_ src frame s
  | .folRead at_ src frame => Sys2Proof.Machine.execFolRead at_ src frame s
  | .folWrite at_ src frame => Sys2Proof.Machine.execFolWrite at_ src frame s
  | .folReadSeg at_ src frame => Sys2Proof.Machine.execFolReadSeg at_ src frame s
  | .folWriteSeg at_ src frame => Sys2Proof.Machine.execFolWriteSeg at_ src frame s
  | .folXferAbort at_ src frame => Sys2Proof.Machine.execFolXferAbort at_ src frame s
  | .folKeepalive at_ src frame => Sys2Proof.Machine.execFolKeepalive at_ src frame s
  | .folIdent at_ src frame => Sys2Proof.Machine.execFolIdent at_ src frame s
  | .sessionTimeout session => Sys2Proof.Machine.execSessionTimeout session s
  | .transferTimeout session => Sys2Proof.Machine.execTransferTimeout session s
  | .writeForwardReceived at_ fwd => Sys2Proof.Machine.execWriteForwardReceived at_ fwd s
  | .writeVerdictReceived at_ keyT code => Sys2Proof.Machine.execWriteVerdictReceived at_ keyT code s
  | .verdictTimeout keyT => Sys2Proof.Machine.execVerdictTimeout keyT s
  | .writeApply => Sys2Proof.Machine.execWriteApply s
  | .renderStart actIn => Sys2Proof.Machine.execRenderStart actIn s
  | .renderStop => Sys2Proof.Machine.execRenderStop s
  | .mediaRateChange rate => Sys2Proof.Machine.execMediaRateChange rate s
  | .clearMissRecords value => Sys2Proof.Machine.execClearMissRecords value s
  | .timeConfigWrite index sub value => Sys2Proof.Machine.execTimeConfigWrite index sub value s
  | .pulseConfigWrite n sub value => Sys2Proof.Machine.execPulseConfigWrite n sub value s
  | .objectEnable object value => Sys2Proof.Machine.execObjectEnable object value s
  | .keyframeWrite object record => Sys2Proof.Machine.execKeyframeWrite object record s
  | .clearPlacementStatistics value => Sys2Proof.Machine.execClearPlacementStatistics value s
  | .allocationWrite feed taps => Sys2Proof.Machine.execAllocationWrite feed taps s
  | .bankLoad feed bank taps => Sys2Proof.Machine.execBankLoad feed bank taps s
  | .bankSwitch feed bank => Sys2Proof.Machine.execBankSwitch feed bank s
  | .correctionEnable feed value => Sys2Proof.Machine.execCorrectionEnable feed value s
  | .clearMeters feed value => Sys2Proof.Machine.execClearMeters feed value s
  | .baselineCapture value => Sys2Proof.Machine.execBaselineCapture value s
  | .driftModeWrite mode => Sys2Proof.Machine.execDriftModeWrite mode s
  | .rotateFrame frame => Sys2Proof.Machine.execRotateFrame frame s
  | .rotationLoadComplete => Sys2Proof.Machine.execRotationLoadComplete s
  | .userSlotCopy slot => Sys2Proof.Machine.execUserSlotCopy slot s
  | .retireFrame frame value => Sys2Proof.Machine.execRetireFrame frame value s
  | .retireRod rod value => Sys2Proof.Machine.execRetireRod rod value s
  | .slotImageWrite slot image => Sys2Proof.Machine.execSlotImageWrite slot image s
  | .slotEnable slot value => Sys2Proof.Machine.execSlotEnable slot value s
  | .clearTallyStatistics value => Sys2Proof.Machine.execClearTallyStatistics value s
  | .ringParticipation value => Sys2Proof.Machine.execRingParticipation value s
  | .slotChannelChange transmit slot sub value => Sys2Proof.Machine.execSlotChannelChange transmit slot sub value s
  | .clearSlotStatistics slot value => Sys2Proof.Machine.execClearSlotStatistics slot value s
  | .pdmClockWrite value => Sys2Proof.Machine.execPdmClockWrite value s
  | .pdmEnable input value => Sys2Proof.Machine.execPdmEnable input value s
  | .aes3OutputChange output sub value => Sys2Proof.Machine.execAes3OutputChange output sub value s
  | .driveEnable channel => Sys2Proof.Machine.execDriveEnable channel s
  | .driveDisable channel => Sys2Proof.Machine.execDriveDisable channel s
  | .clearLatch channel value => Sys2Proof.Machine.execClearLatch channel value s
  | .driveEnableGlobal value => Sys2Proof.Machine.execDriveEnableGlobal value s
  | .clearRail group value => Sys2Proof.Machine.execClearRail group value s
  | .handover value => Sys2Proof.Machine.execHandover value s
  | .isolate value => Sys2Proof.Machine.execIsolate value s
  | .clearTwinStatistics value => Sys2Proof.Machine.execClearTwinStatistics value s
  | .clearFolStatistics value => Sys2Proof.Machine.execClearFolStatistics value s
  | .managementAddressWrite sub value => Sys2Proof.Machine.execManagementAddressWrite sub value s
  | .gpioWrite sub value => Sys2Proof.Machine.execGpioWrite sub value s
  | .shutdownSelfTest value obs => Sys2Proof.Machine.execShutdownSelfTest value obs s
  | .park value => Sys2Proof.Machine.execPark value s
  | .unpark value check obs => Sys2Proof.Machine.execUnpark value check obs s
  | .targetedTest value result exclusionNs => Sys2Proof.Machine.execTargetedTest value result exclusionNs s
  | .thermalLevelChange at_ temp => Sys2Proof.Machine.execThermalLevelChange at_ temp s
  | .thermalTrip temp => Sys2Proof.Machine.execThermalTrip temp s
  | .provision value => Sys2Proof.Machine.execProvision value s
  | .deploy value => Sys2Proof.Machine.execDeploy value s
  | .openModule token erasureOk => Sys2Proof.Machine.execOpenModule token erasureOk s
  | .retireModule token erasureOk => Sys2Proof.Machine.execRetireModule token erasureOk s
  | .levelKeyWrite level key => Sys2Proof.Machine.execLevelKeyWrite level key s
  | .showKeyWrite slot key => Sys2Proof.Machine.execShowKeyWrite slot key s
  | .signaturePolicyWrite policy => Sys2Proof.Machine.execSignaturePolicyWrite policy s
  | .minimumSvnWrite svn => Sys2Proof.Machine.execMinimumSvnWrite svn s
  | .showDataLoad key nonce data tag addr => Sys2Proof.Machine.execShowDataLoad key nonce data tag addr s
  | .stagedImageWrite image length => Sys2Proof.Machine.execStagedImageWrite image length s
  | .install value => Sys2Proof.Machine.execInstall value s
  | .liveSwitch value => Sys2Proof.Machine.execLiveSwitch value s
  | .reckonerLoadComplete => Sys2Proof.Machine.execReckonerLoadComplete s
  | .updateRotation => Sys2Proof.Machine.execUpdateRotation s
  | .updateCommit value => Sys2Proof.Machine.execUpdateCommit value s
  | .automaticCommit => Sys2Proof.Machine.execAutomaticCommit s
  | .updateRevert value => Sys2Proof.Machine.execUpdateRevert value s
  | .retireSlide engine value => Sys2Proof.Machine.execRetireSlide engine value s
  | .migrateRank rank value => Sys2Proof.Machine.execMigrateRank rank value s
  | .migrationStart => Sys2Proof.Machine.execMigrationStart s
  | .migrationSwitch => Sys2Proof.Machine.execMigrationSwitch s
  | .clearLedgerCounters value => Sys2Proof.Machine.execClearLedgerCounters value s
  | .clearDramStatistics value => Sys2Proof.Machine.execClearDramStatistics value s
  | .acknowledgeAll value => Sys2Proof.Machine.execAcknowledgeAll value s
  | .clearLog value => Sys2Proof.Machine.execClearLog value s
  | .readStartWrite value => Sys2Proof.Machine.execReadStartWrite value s
  | .eventSourceWrite source value => Sys2Proof.Machine.execEventSourceWrite source value s
  | .eventLogCopy => Sys2Proof.Machine.execEventLogCopy s
  | .registerWrite master addr value => Sys2Proof.Machine.execRegisterWrite master addr value s
  | .rodRunStart rod startPc => Sys2Proof.Machine.execRodRunStart rod startPc s
  | .rodRunStop rod => Sys2Proof.Machine.execRodRunStop rod s
  | .rodFaultClear rod => Sys2Proof.Machine.execRodFaultClear rod s
  | .qcfgWrite master queue value => Sys2Proof.Machine.execQcfgWrite master queue value s
  | .putWindowWrite master queue offset data => Sys2Proof.Machine.execPutWindowWrite master queue offset data s
  | .flowWrite flow value => Sys2Proof.Machine.execFlowWrite flow value s
  | .tallyExclWrite value => Sys2Proof.Machine.execTallyExclWrite value s
  | .putAccepted queue => Sys2Proof.Machine.execPutAccepted queue s
  | .backpressureLong queue producer => Sys2Proof.Machine.execBackpressureLong queue producer s
  | .tallyGive => Sys2Proof.Machine.execTallyGive s
  | .xferComplete rod upsets => Sys2Proof.Machine.execXferComplete rod upsets s
  | .beamRequest reqs upsets => Sys2Proof.Machine.execBeamRequest reqs upsets s
  | .lockedSequence master reqs => Sys2Proof.Machine.execLockedSequence master reqs s
  | .lockTimeout target heldNs => Sys2Proof.Machine.execLockTimeout target heldNs s
  | .masterReset master => Sys2Proof.Machine.execMasterReset master s
  | .collisionClear => Sys2Proof.Machine.execCollisionClear s
  | .beamErrClear => Sys2Proof.Machine.execBeamErrClear s
  | .ledgerScrub upsets => Sys2Proof.Machine.execLedgerScrub upsets s
  | .refreshDue deepWaiting => Sys2Proof.Machine.execRefreshDue deepWaiting s
  | .modeRegisterRead ranks => Sys2Proof.Machine.execModeRegisterRead ranks s
  | .oscillatorMeasure drifts => Sys2Proof.Machine.execOscillatorMeasure drifts s
  | .patrolScrub blocks upsets => Sys2Proof.Machine.execPatrolScrub blocks upsets s
  | .spareRankTest pass => Sys2Proof.Machine.execSpareRankTest pass s
  | .selfRefreshEntry requested => Sys2Proof.Machine.execSelfRefreshEntry requested s
  | .selfRefreshExit addr => Sys2Proof.Machine.execSelfRefreshExit addr s
  | .nop rod sl => Sys2Proof.Machine.execNop rod sl s
  | .vmov rod vd va sl => Sys2Proof.Machine.execVmov rod vd va sl s
  | .vadd rod vd va vb sl => Sys2Proof.Machine.execVadd rod vd va vb sl s
  | .vsub rod vd va vb sl => Sys2Proof.Machine.execVsub rod vd va vb sl s
  | .vaddw rod vd va vb sl => Sys2Proof.Machine.execVaddw rod vd va vb sl s
  | .vsubw rod vd va vb sl => Sys2Proof.Machine.execVsubw rod vd va vb sl s
  | .vmul rod vd va vb sl => Sys2Proof.Machine.execVmul rod vd va vb sl s
  | .vabs rod vd va sl => Sys2Proof.Machine.execVabs rod vd va sl s
  | .vneg rod vd va sl => Sys2Proof.Machine.execVneg rod vd va sl s
  | .vmin rod vd va vb sl => Sys2Proof.Machine.execVmin rod vd va vb sl s
  | .vmax rod vd va vb sl => Sys2Proof.Machine.execVmax rod vd va vb sl s
  | .vand rod vd va vb sl => Sys2Proof.Machine.execVand rod vd va vb sl s
  | .vor rod vd va vb sl => Sys2Proof.Machine.execVor rod vd va vb sl s
  | .vxor rod vd va vb sl => Sys2Proof.Machine.execVxor rod vd va vb sl s
  | .vnot rod vd va sl => Sys2Proof.Machine.execVnot rod vd va sl s
  | .vcmpgt rod vd va vb sl => Sys2Proof.Machine.execVcmpgt rod vd va vb sl s
  | .vcmpeq rod vd va vb sl => Sys2Proof.Machine.execVcmpeq rod vd va vb sl s
  | .vshl rod vd va n sl => Sys2Proof.Machine.execVshl rod vd va n sl s
  | .vshr rod vd va n sl => Sys2Proof.Machine.execVshr rod vd va n sl s
  | .vshrl rod vd va n sl => Sys2Proof.Machine.execVshrl rod vd va n sl s
  | .vperm rod vd va vb sl => Sys2Proof.Machine.execVperm rod vd va vb sl s
  | .vbcst rod vd va n sl => Sys2Proof.Machine.execVbcst rod vd va n sl s
  | .vmpy rod ac va vb sl => Sys2Proof.Machine.execVmpy rod ac va vb sl s
  | .vmac rod ac va vb sl => Sys2Proof.Machine.execVmac rod ac va vb sl s
  | .vmsu rod ac va vb sl => Sys2Proof.Machine.execVmsu rod ac va vb sl s
  | .vclr rod ac sl => Sys2Proof.Machine.execVclr rod ac sl s
  | .vlift rod ac va sl => Sys2Proof.Machine.execVlift rod ac va sl s
  | .vaadd rod ac acs sl => Sys2Proof.Machine.execVaadd rod ac acs sl s
  | .vasub rod ac acs sl => Sys2Proof.Machine.execVasub rod ac acs sl s
  | .vtrw rod ac sl => Sys2Proof.Machine.execVtrw rod ac sl s
  | .vred rod ac sl => Sys2Proof.Machine.execVred rod ac sl s
  | .vaex rod acs sl => Sys2Proof.Machine.execVaex rod acs sl s
  | .vrd rod vd acs n sl => Sys2Proof.Machine.execVrd rod vd acs n sl s
  | .vrdl rod vd acs sl => Sys2Proof.Machine.execVrdl rod vd acs sl s
  | .vrdm rod vd acs sl => Sys2Proof.Machine.execVrdm rod vd acs sl s
  | .vrdh rod vd acs sl => Sys2Proof.Machine.execVrdh rod vd acs sl s
  | .vwra rod ac va vb sl => Sys2Proof.Machine.execVwra rod ac va vb sl s
  | .vwrh rod ac va sl => Sys2Proof.Machine.execVwrh rod ac va sl s
  | .vrdx rod vd acs sl => Sys2Proof.Machine.execVrdx rod vd acs sl s
  | .smax rod va sl => Sys2Proof.Machine.execSmax rod va sl s
  | .smin rod va sl => Sys2Proof.Machine.execSmin rod va sl s
  | .smaxa rod va sl => Sys2Proof.Machine.execSmaxa rod va sl s
  | .ldv rod v an vop st u1 u2 => Sys2Proof.Machine.execLdv rod v an vop st u1 u2 s
  | .ldb rod v an vop st u1 u2 => Sys2Proof.Machine.execLdb rod v an vop st u1 u2 s
  | .lds rod v an vop st u1 u2 => Sys2Proof.Machine.execLds rod v an vop st u1 u2 s
  | .stv rod v an vop ld u1 u2 => Sys2Proof.Machine.execStv rod v an vop ld u1 u2 s
  | .stl rod v an vop ld u1 u2 => Sys2Proof.Machine.execStl rod v an vop ld u1 u2 s
  | .std rod v an vop ld u1 u2 => Sys2Proof.Machine.execStd rod v an vop ld u1 u2 s
  | .updateLinear rod an step vop ld st u2 => Sys2Proof.Machine.execUpdateLinear rod an step vop ld st u2 s
  | .updateCircular rod an step vop ld st u2 => Sys2Proof.Machine.execUpdateCircular rod an step vop ld st u2 s
  | .updateBitReversed rod an step vop ld st u2 => Sys2Proof.Machine.execUpdateBitReversed rod an step vop ld st u2 s
  | .rep rod n16 w13 => Sys2Proof.Machine.execRep rod n16 w13 s
  | .repa rod an w13 => Sys2Proof.Machine.execRepa rod an w13 s
  | .brk rod => Sys2Proof.Machine.execBrk rod s
  | .j rod w13 => Sys2Proof.Machine.execJ rod w13 s
  | .jz rod an w13 => Sys2Proof.Machine.execJz rod an w13 s
  | .jnz rod an w13 => Sys2Proof.Machine.execJnz rod an w13 s
  | .jneg rod an w13 => Sys2Proof.Machine.execJneg rod an w13 s
  | .call rod w13 => Sys2Proof.Machine.execCall rod w13 s
  | .ret rod => Sys2Proof.Machine.execRet rod s
  | .take rod an k8 => Sys2Proof.Machine.execTake rod an k8 s
  | .put rod an k8 => Sys2Proof.Machine.execPut rod an k8 s
  | .done rod => Sys2Proof.Machine.execDone rod s
  | .xfer rod out an fa md => Sys2Proof.Machine.execXfer rod out an fa md s
  | .waitx rod k8 => Sys2Proof.Machine.execWaitx rod k8 s
  | .setps rod k8 => Sys2Proof.Machine.execSetps rod k8 s
  | .mfs rod an k8 => Sys2Proof.Machine.execMfs rod an k8 s
  | .mts rod an k8 => Sys2Proof.Machine.execMts rod an k8 s
  | .mov rod ad as_ => Sys2Proof.Machine.execMov rod ad as_ s
  | .ldw rod an am => Sys2Proof.Machine.execLdw rod an am s
  | .stw rod an am => Sys2Proof.Machine.execStw rod an am s
  | .ldf rod fa am => Sys2Proof.Machine.execLdf rod fa am s
  | .srinit rod an min => Sys2Proof.Machine.execSrinit rod an min s
  | .bxclr rod => Sys2Proof.Machine.execBxclr rod s
  | .bxstep rod => Sys2Proof.Machine.execBxstep rod s
  | .halt rod => Sys2Proof.Machine.execHalt rod s
  | .trap rod k8 => Sys2Proof.Machine.execTrap rod k8 s
  | .li rod sel imm => Sys2Proof.Machine.execLi rod sel imm s
  | .addi rod sel imm => Sys2Proof.Machine.execAddi rod sel imm s
  | .lih rod sel imm => Sys2Proof.Machine.execLih rod sel imm s
  | .heartbeatLineEdge at_ => Sys2Proof.Machine.execHeartbeatLineEdge at_ s
  | .sfpModuleAbsentOrFault port absent fault => Sys2Proof.Machine.execSfpModuleAbsentOrFault port absent fault s
  | .tripResetRelease temp obs => Sys2Proof.Machine.execTripResetRelease temp obs s
  | .lockstepError => Sys2Proof.Machine.execLockstepError s

end Sys2Proof.Machine
end

