-- ==== Sys2Proof/Safety.lean ====
section
/-! DEFINITION. What counts as a safe state and a safe run: the canonical form of memory, the interlock rule for ACT_OUT, the legal
sync states, a run that never stops, and the parts of the state that each command may change. -/
namespace Sys2Proof.Machine

/-- The parts of a safe state: memory in its one canonical form; ACT_OUT high only in a role that drives it (R444, R449); the sync
state 0 outside Standby and never above 5 (R465). -/
structure SafeParts (mem : List Host.Cell) (role : Role) (sync : Nat) (actOut : Bool) : Prop where
  memory    : Memory.wf mem = true
  interlock : actOut = true → Role.drives role = true
  joining   : role ≠ .standby → sync = 0
  legal     : sync ≤ 5

/-- A safe state. -/
def State.Safe (s : State) : Prop := SafeParts s.mem s.twin.role s.twin.sync s.twin.actOut

/-- A state whose next tick has a number (R38): the one bound past which the model stops. -/
def State.Live (s : State) : Prop := s.clk.tick < 2 ^ 64 - 1

/-- The parts of the state. -/
inductive Part where
  | power | clk | time | sup | nv | keys | upd | dict | dom | hist | domHist | stat | statB | pend | todo |
    pipe | drift | ports | seen | byp | rx | tx | aesIn | aesOut | pdm | drives | rails | carrier | fol |
    twin | frames | rods | slots | rot | moves | tally | beam | ledger | dram | mem | gpio | events | draws
    | out | pending
  deriving DecidableEq, Repr

/-- Every part. -/
def Part.all : List Part :=
  [.power, .clk, .time, .sup, .nv, .keys, .upd, .dict, .dom, .hist, .domHist, .stat, .statB, .pend, .todo,
   .pipe, .drift, .ports, .seen, .byp, .rx, .tx, .aesIn, .aesOut, .pdm, .drives, .rails, .carrier, .fol,
   .twin, .frames, .rods, .slots, .rot, .moves, .tally, .beam, .ledger, .dram, .mem, .gpio, .events, .draws,
   .out, .pending]

/-- Every part but some. -/
def Part.allBut (l : List Part) : List Part := Part.all.filter (fun p => decide (p ∉ l))

/-- Whether two states agree in one part. -/
def Part.Same (s t : State) : Part → Prop
  | .power => t.power = s.power
  | .clk => t.clk = s.clk
  | .time => t.time = s.time
  | .sup => t.sup = s.sup
  | .nv => t.nv = s.nv
  | .keys => t.keys = s.keys
  | .upd => t.upd = s.upd
  | .dict => t.dict = s.dict
  | .dom => t.dom = s.dom
  | .hist => t.hist = s.hist
  | .domHist => t.domHist = s.domHist
  | .stat => t.stat = s.stat
  | .statB => t.statB = s.statB
  | .pend => t.pend = s.pend
  | .todo => t.todo = s.todo
  | .pipe => t.pipe = s.pipe
  | .drift => t.drift = s.drift
  | .ports => t.ports = s.ports
  | .seen => t.seen = s.seen
  | .byp => t.byp = s.byp
  | .rx => t.rx = s.rx
  | .tx => t.tx = s.tx
  | .aesIn => t.aesIn = s.aesIn
  | .aesOut => t.aesOut = s.aesOut
  | .pdm => t.pdm = s.pdm
  | .drives => t.drives = s.drives
  | .rails => t.rails = s.rails
  | .carrier => t.carrier = s.carrier
  | .fol => t.fol = s.fol
  | .twin => t.twin = s.twin
  | .frames => t.frames = s.frames
  | .rods => t.rods = s.rods
  | .slots => t.slots = s.slots
  | .rot => t.rot = s.rot
  | .moves => t.moves = s.moves
  | .tally => t.tally = s.tally
  | .beam => t.beam = s.beam
  | .ledger => t.ledger = s.ledger
  | .dram => t.dram = s.dram
  | .mem => t.mem = s.mem
  | .gpio => t.gpio = s.gpio
  | .events => t.events = s.events
  | .draws => t.draws = s.draws
  | .out => t.out = s.out
  | .pending => t.pending = s.pending

/-- The states `s` and `t` agree in every part that `f` does not list. -/
structure Keeps (f : List Part) (s t : State) : Prop where
  same : ∀ p, p ∉ f → Part.Same s t p

/-- The parts of the state that a command may change; it leaves every other part as it was. -/
def mayChange : Instr → List Part
  | .reset .. | .brownout .. | .brownoutEnd .. | .powerGoodFall .. | .tickBoundary .. | .thermalTrip .. =>
    Part.allBut [.pending]
  | .startInstant .. | .tripResetRelease .. =>
    [.power, .clk, .sup, .nv, .keys, .stat, .statB, .pipe, .twin, .frames, .rods, .slots, .rot, .moves,
      .tally, .ledger, .dram, .mem, .events]
  | .trialTimeout =>
    [.nv]
  | .libraryRestoreDone =>
    [.sup, .nv, .stat, .pipe, .twin, .dram, .mem, .events, .draws]
  | .placementPublish .. | .placementDeadline .. | .delayMatrixDeadline | .outputBusDeadline .. =>
    [.clk, .time, .stat, .pipe, .twin, .tally, .beam, .events]
  | .spanDelivered .. =>
    [.clk, .time, .nv, .stat, .pipe, .twin, .ledger, .dram, .mem, .events, .draws]
  | .feedRender .. =>
    [.clk, .time, .pipe, .events]
  | .ingressCommit .. =>
    [.clk, .time, .stat, .pipe, .rx, .aesIn, .pdm, .twin, .tally, .beam, .ledger, .dram, .mem, .events]
  | .egressDeadline .. =>
    [.clk, .time, .stat, .pipe, .tx, .aesOut, .drives, .twin, .tally, .beam, .ledger, .mem, .events,
      .out]
  | .tallyPurge .. | .registerWrite .. | .qcfgWrite .. | .putWindowWrite .. | .beamRequest .. | .lockedSequence .. =>
    [.clk, .nv, .stat, .pipe, .byp, .drives, .twin, .frames, .rods, .slots, .rot, .moves, .tally, .beam,
      .ledger, .dram, .mem, .events, .draws, .out]
  | .preparationComplete .. | .crossfadeEnd .. =>
    [.nv, .stat, .pipe, .twin, .ledger, .dram, .mem, .events, .draws]
  | .driftEstimateWindow .. =>
    [.stat, .drift, .events]
  | .driftPublication =>
    [.dom, .stat, .pipe, .drift, .events, .out]
  | .driftPublicationReceived .. =>
    [.dom, .stat, .drift, .events]
  | .driftApply =>
    [.stat, .pipe, .drift, .events]
  | .syncReceived .. =>
    [.clk, .time, .stat, .events, .out]
  | .rebaseValuesReceived .. | .announceReceived .. | .qualificationEnd | .announceTimeout .. | .captureEdge .. =>
    [.clk, .time, .stat, .events]
  | .rebaseFallback =>
    [.clk, .time, .stat, .twin, .events]
  | .rebaseApply =>
    [.clk, .time, .pend]
  | .syncLoss | .counterWrap | .comparatorFire .. | .pulseWidthEnd .. =>
    [.clk, .time, .events]
  | .delayMeasurementComplete .. =>
    [.time, .stat]
  | .ptpMessageSend .. | .pdelayReqReceived .. | .ptpTransit .. =>
    [.stat, .out]
  | .tuCarryWrite .. | .carryLostClear =>
    [.clk]
  | .ringFrameReceived .. =>
    [.clk, .time, .stat, .seen, .events, .out]
  | .linkLock .. | .linkLoss .. | .sfpModuleAbsentOrFault .. =>
    [.stat, .ports, .events]
  | .lineModeAlternate .. =>
    [.ports]
  | .bypassDeadmanStarved | .settleTimeEnd | .bypCtrlEnWrite .. =>
    [.stat, .byp, .events]
  | .automaticRejoin =>
    [.stat, .byp]
  | .bypCtrlFeed =>
    [.byp]
  | .streamPacketReceived .. | .shadowCutoff .. =>
    [.clk, .time, .stat, .pipe, .rx, .twin, .events]
  | .aes3FrameReceived .. =>
    [.clk, .time, .dom, .stat, .aesIn, .events, .out]
  | .aes3NonAudioEnd .. =>
    [.aesIn, .events]
  | .aes3LockValuesReceived .. =>
    [.stat, .aesIn]
  | .aes3LockApply .. =>
    [.stat, .aesIn, .twin]
  | .aes3RhoDecision .. =>
    [.stat, .aesIn, .twin, .out]
  | .aes3NoSignal .. =>
    [.clk, .time, .aesIn, .events]
  | .aes3RateWindow .. =>
    [.stat, .aesIn, .events]
  | .pdmStuck .. =>
    [.stat, .pdm]
  | .pdmStuckRecover .. =>
    [.pdm, .events]
  | .carrierPeriod .. =>
    [.clk, .time, .stat, .drives, .rails, .carrier, .twin, .tally, .beam, .events]
  | .railStateChange .. =>
    [.stat, .rails, .events]
  | .overCurrentCut .. =>
    [.clk, .time, .stat, .drives, .events]
  | .driveShutdown .. =>
    [.stat, .drives, .tally, .beam, .events]
  | .senseStuck .. =>
    [.stat, .drives, .rails, .events]
  | .driveFaultItem .. =>
    [.drives, .tally]
  | .drvMuteFaultRamp .. =>
    [.drives]
  | .holdOffEnd .. | .driveStart .. | .driveStop .. | .clearLatch .. =>
    [.stat, .drives]
  | .retryCountReset .. =>
    [.stat]
  | .driveGateChange .. | .heartbeatFrameReceived .. | .twinEvaluation .. | .actInCollision .. =>
    [.clk, .time, .stat, .pipe, .twin, .events]
  | .splitBrainSuspected =>
    [.events]
  | .collisionTimeout .. | .joinVerifyEnd =>
    [.stat, .twin, .events]
  | .actOutDeadmanStarved =>
    [.stat, .twin]
  | .actOutClaim .. | .heartbeatLineEdge .. =>
    [.clk, .time, .twin, .events]
  | .faultHandover | .activeFaultHandover | .handover .. =>
    [.clk, .time, .stat, .twin, .events, .out]
  | .joinImageComplete .. =>
    [.time, .nv, .dict, .dom, .hist, .domHist, .stat, .pend, .pipe, .drift, .twin, .ledger, .dram, .mem,
      .events, .draws]
  | .joinFillEnd .. | .collisionClear =>
    [.twin]
  | .joinCutInstall .. =>
    [.clk, .time, .nv, .stat, .pipe, .drift, .aesIn, .twin, .rods, .slots, .tally, .ledger, .dram, .mem,
      .events, .draws]
  | .folOpen .. =>
    [.clk, .time, .upd, .stat, .fol, .events, .draws, .out]
  | .folClose .. | .folRead .. | .folReadSeg .. | .folXferAbort .. | .folKeepalive .. | .folIdent .. =>
    [.clk, .time, .upd, .stat, .fol, .events, .out]
  | .folWrite .. | .folWriteSeg .. | .writeForwardReceived .. | .writeApply =>
    [.clk, .time, .sup, .nv, .keys, .upd, .dict, .dom, .stat, .pend, .todo, .pipe, .drift, .ports, .byp,
      .aesIn, .pdm, .drives, .fol, .twin, .frames, .rods, .slots, .rot, .moves, .tally, .beam, .ledger,
      .dram, .mem, .events, .draws, .out]
  | .sessionTimeout .. | .transferTimeout .. =>
    [.upd, .stat, .fol]
  | .writeVerdictReceived .. | .verdictTimeout .. =>
    [.clk, .time, .stat, .pend, .fol, .twin, .events, .out]
  | .renderStart .. =>
    [.clk, .time, .sup, .dict, .stat, .pipe, .drives, .twin, .events]
  | .renderStop =>
    [.sup, .dict, .stat]
  | .mediaRateChange .. =>
    [.nv, .dict, .stat, .pipe, .drift, .aesIn, .pdm, .twin, .rods, .slots, .ledger, .dram, .mem,
      .events]
  | .clearMissRecords .. | .clearPlacementStatistics .. | .clearMeters .. | .clearTallyStatistics .. |
      .clearSlotStatistics .. | .clearRail .. | .clearTwinStatistics .. | .clearFolStatistics .. |
      .managementAddressWrite .. | .gpioWrite .. | .clearLedgerCounters .. | .clearDramStatistics .. =>
    [.stat, .todo]
  | .timeConfigWrite .. =>
    [.clk, .time, .nv, .dict, .stat, .events]
  | .pulseConfigWrite .. =>
    [.time, .dict, .stat]
  | .objectEnable .. | .pdmClockWrite .. | .driveEnableGlobal .. =>
    [.dict, .stat]
  | .keyframeWrite .. =>
    [.dom, .stat, .pipe]
  | .allocationWrite .. | .bankSwitch .. | .correctionEnable .. =>
    [.dict, .stat, .pipe]
  | .bankLoad .. =>
    [.stat, .pipe]
  | .baselineCapture .. =>
    [.nv, .stat, .drift]
  | .driftModeWrite .. =>
    [.dict, .stat, .drift]
  | .rotateFrame .. =>
    [.dict, .stat, .frames, .rot]
  | .rotationLoadComplete =>
    [.rods, .rot, .mem]
  | .userSlotCopy .. | .nop .. | .vmov .. | .vadd .. | .vsub .. | .vaddw .. | .vsubw .. | .vmul .. | .vabs .. |
      .vneg .. | .vmin .. | .vmax .. | .vand .. | .vor .. | .vxor .. | .vnot .. | .vcmpgt .. | .vcmpeq .. | .vshl .. |
      .vshr .. | .vshrl .. | .vperm .. | .vbcst .. | .vmpy .. | .vmac .. | .vmsu .. | .vclr .. | .vlift .. | .vaadd .. |
      .vasub .. | .vtrw .. | .vred .. | .vaex .. | .vrd .. | .vrdl .. | .vrdm .. | .vrdh .. | .vwra .. | .vwrh .. |
      .vrdx .. | .smax .. | .smin .. | .smaxa .. | .ldv .. | .ldb .. | .lds .. | .stv .. | .stl .. | .std .. |
      .updateLinear .. | .updateCircular .. | .updateBitReversed .. | .take .. | .stw .. =>
    [.stat, .twin, .frames, .rods, .slots, .rot, .moves, .tally, .mem, .events]
  | .retireFrame .. | .rep .. | .repa .. | .brk .. | .j .. | .jz .. | .jnz .. | .jneg .. | .call .. | .ret .. |
      .put .. | .done .. | .xfer .. | .waitx .. | .setps .. | .mfs .. | .mts .. | .mov .. | .ldw .. | .ldf .. |
      .srinit .. | .bxclr .. | .bxstep .. | .halt .. | .trap .. | .li .. | .addi .. | .lih .. =>
    [.stat, .twin, .frames, .rods, .slots, .rot, .moves, .tally, .events]
  | .retireRod .. =>
    [.stat, .twin, .rods, .slots, .moves, .tally, .events]
  | .slotImageWrite .. =>
    [.dom, .stat, .slots, .events]
  | .slotEnable .. =>
    [.dict, .stat, .twin, .frames, .rods, .slots, .rot, .moves, .tally, .mem, .events]
  | .ringParticipation .. =>
    [.dict, .stat, .byp, .events]
  | .slotChannelChange .. | .aes3OutputChange .. =>
    [.dict, .dom, .stat]
  | .pdmEnable .. =>
    [.dict, .stat, .pdm, .events]
  | .driveEnable .. | .driveDisable .. =>
    [.dict, .stat, .drives]
  | .isolate .. =>
    [.clk, .time, .dict, .stat, .pipe, .twin, .events, .out]
  | .shutdownSelfTest .. =>
    [.sup, .nv, .dict, .stat, .byp, .events]
  | .park .. | .unpark .. =>
    [.clk, .sup, .nv, .keys, .dict, .stat, .pipe, .byp, .drives, .twin, .frames, .rods, .slots, .rot,
      .moves, .tally, .beam, .ledger, .dram, .mem, .events, .draws, .out]
  | .targetedTest .. =>
    [.sup, .stat]
  | .thermalLevelChange .. =>
    [.power, .clk, .time, .sup, .events]
  | .provision .. =>
    [.keys, .stat, .events, .draws]
  | .deploy .. =>
    [.nv, .keys, .dict, .stat, .events]
  | .openModule .. | .retireModule .. =>
    [.keys, .upd, .dict, .stat, .byp, .fol, .events, .draws]
  | .levelKeyWrite .. =>
    [.keys, .upd, .stat, .fol]
  | .showKeyWrite .. =>
    [.keys, .stat]
  | .signaturePolicyWrite .. | .minimumSvnWrite .. =>
    [.nv, .dict, .stat]
  | .showDataLoad .. =>
    [.nv, .stat, .pipe, .twin, .dram, .mem, .events, .draws]
  | .stagedImageWrite .. =>
    [.upd, .stat, .events]
  | .install .. =>
    [.nv, .upd, .stat]
  | .liveSwitch .. =>
    [.upd, .dict, .stat]
  | .reckonerLoadComplete =>
    [.upd]
  | .updateRotation =>
    [.upd, .stat, .twin, .frames, .rods, .slots, .rot, .moves, .tally, .events]
  | .updateCommit .. | .automaticCommit =>
    [.nv, .upd, .dict, .stat, .events]
  | .updateRevert .. =>
    [.sup, .nv, .upd, .stat, .events]
  | .retireSlide .. =>
    [.nv, .dict, .stat, .pipe, .events]
  | .migrateRank .. | .modeRegisterRead .. | .selfRefreshExit .. =>
    [.nv, .stat, .dram, .mem, .events]
  | .migrationStart =>
    [.stat, .dram, .events]
  | .migrationSwitch | .oscillatorMeasure .. =>
    [.nv, .stat, .dram, .events]
  | .acknowledgeAll .. | .clearLog .. | .readStartWrite .. =>
    [.stat, .events]
  | .eventSourceWrite .. =>
    [.nv, .stat, .events]
  | .eventLogCopy =>
    [.nv, .events]
  | .rodRunStart .. | .rodFaultClear .. =>
    [.rods]
  | .rodRunStop .. =>
    [.stat, .twin, .rods, .slots, .tally, .events]
  | .flowWrite .. =>
    [.tally]
  | .tallyExclWrite .. =>
    [.stat, .tally]
  | .putAccepted .. =>
    [.stat, .rods, .tally]
  | .backpressureLong .. =>
    [.stat, .tally, .events]
  | .tallyGive =>
    [.rods, .tally, .mem]
  | .xferComplete .. =>
    [.clk, .nv, .stat, .pipe, .byp, .drives, .twin, .frames, .rods, .slots, .rot, .moves, .tally, .beam,
      .ledger, .dram, .mem, .events, .draws]
  | .lockTimeout .. =>
    [.stat, .beam, .events, .out]
  | .masterReset .. =>
    [.stat, .twin, .rods, .slots, .tally, .beam, .events]
  | .beamErrClear =>
    [.beam]
  | .ledgerScrub .. =>
    [.nv, .stat, .rods, .ledger, .dram, .mem, .events]
  | .refreshDue .. =>
    [.stat, .dram]
  | .patrolScrub .. =>
    [.nv, .stat, .pipe, .twin, .rods, .ledger, .dram, .mem, .events, .draws]
  | .spareRankTest .. =>
    [.nv, .dram, .events]
  | .selfRefreshEntry .. =>
    [.clk, .time, .stat, .dram, .events]
  | .lockstepError =>
    [.sup, .events]

/-! Words of a Rod -/

/-- Rod `r` issues the word it stands at: it is Running (R212, R222) and not fenced (R28), the word's check bits hold (R197), and the
word is no illegal instruction (R201). -/
structure Issues (s : State) (r : Nat) : Prop where
  rod     : r < 64
  running : (s.rod r).st = .running
  free    : (s.rod r).fenced = false
  checked : rodErr s r (0x40000 + 8 * (s.rod r).pc) = none
  coded   : wordLegal (isTransform r) (instrWord s r) = true

/-- The byte addresses that a parallel word loads from. -/
def parLoads (rod : Rod) (w : ParWord) : List Int := w.ld.toList.flatMap (loadAddrs rod)

/-- The byte addresses that a parallel word stores to, each of one 32-bit word. -/
def parStores (rod : Rod) (w : ParWord) : List Int := w.st.toList.flatMap (storeAddrs rod)

/-- A parallel word runs on a Rod: every slot is legal (R201), none conflicts (R203), every address holds (R204), no transfer has to
be waited for (R219) and no word of memory is lost (R197). -/
structure WordRuns (s : State) (r : Nat) (w : ParWord) : Prop where
  issues : Issues s r
  legal  : parOk (s.rod r) (isTransform r) w = true
  apart  : parConflict w = false
  bounds : (parLoads (s.rod r) w).all dmOk = true ∧ (parStores (s.rod r) w).all dmOk = true
  loads  : loadWaits (s.rod r) ((parLoads (s.rod r) w).map Int.toNat) = false
  stores : storeWaits (s.rod r) ((parStores (s.rod r) w).map Int.toNat) = false
  held   : rodLost s r ((parLoads (s.rod r) w).map Int.toNat ++ (parStores (s.rod r) w).map Int.toNat) = false

/-- The Rod and the word of a command that is a parallel word. -/
def parWord : Instr → Option (Nat × ParWord)
  | .nop r sl => some (r, wordOf .nop sl)
  | .vmov r d a sl => some (r, wordOf (.vmov d a) sl)
  | .vadd r vd va vb sl => some (r, wordOf (.vadd vd va vb) sl)
  | .vsub r vd va vb sl => some (r, wordOf (.vsub vd va vb) sl)
  | .vaddw r vd va vb sl => some (r, wordOf (.vaddw vd va vb) sl)
  | .vsubw r vd va vb sl => some (r, wordOf (.vsubw vd va vb) sl)
  | .vmul r vd va vb sl => some (r, wordOf (.vmul vd va vb) sl)
  | .vabs r vd va sl => some (r, wordOf (.vabs vd va) sl)
  | .vneg r vd va sl => some (r, wordOf (.vneg vd va) sl)
  | .vmin r vd va vb sl => some (r, wordOf (.vmin vd va vb) sl)
  | .vmax r vd va vb sl => some (r, wordOf (.vmax vd va vb) sl)
  | .vand r vd va vb sl => some (r, wordOf (.vand vd va vb) sl)
  | .vor r vd va vb sl => some (r, wordOf (.vor vd va vb) sl)
  | .vxor r vd va vb sl => some (r, wordOf (.vxor vd va vb) sl)
  | .vnot r vd va sl => some (r, wordOf (.vnot vd va) sl)
  | .vcmpgt r vd va vb sl => some (r, wordOf (.vcmpgt vd va vb) sl)
  | .vcmpeq r vd va vb sl => some (r, wordOf (.vcmpeq vd va vb) sl)
  | .vshl r vd va n sl => some (r, wordOf (.vshl vd va n) sl)
  | .vshr r vd va n sl => some (r, wordOf (.vshr vd va n) sl)
  | .vshrl r vd va n sl => some (r, wordOf (.vshrl vd va n) sl)
  | .vperm r vd va vb sl => some (r, wordOf (.vperm vd va vb) sl)
  | .vbcst r vd va n sl => some (r, wordOf (.vbcst vd va n) sl)
  | .vmpy r ac va vb sl => some (r, wordOf (.vmpy ac va vb) sl)
  | .vmac r ac va vb sl => some (r, wordOf (.vmac ac va vb) sl)
  | .vmsu r ac va vb sl => some (r, wordOf (.vmsu ac va vb) sl)
  | .vclr r ac sl => some (r, wordOf (.vclr ac) sl)
  | .vlift r ac va sl => some (r, wordOf (.vlift ac va) sl)
  | .vaadd r ac acs sl => some (r, wordOf (.vaadd ac acs) sl)
  | .vasub r ac acs sl => some (r, wordOf (.vasub ac acs) sl)
  | .vtrw r ac sl => some (r, wordOf (.vtrw ac) sl)
  | .vred r ac sl => some (r, wordOf (.vred ac) sl)
  | .vaex r acs sl => some (r, wordOf (.vaex acs) sl)
  | .vrd r vd acs n sl => some (r, wordOf (.vrd vd acs n) sl)
  | .vrdl r vd acs sl => some (r, wordOf (.vrdl vd acs) sl)
  | .vrdm r vd acs sl => some (r, wordOf (.vrdm vd acs) sl)
  | .vrdh r vd acs sl => some (r, wordOf (.vrdh vd acs) sl)
  | .vwra r ac va vb sl => some (r, wordOf (.vwra ac va vb) sl)
  | .vwrh r ac va sl => some (r, wordOf (.vwrh ac va) sl)
  | .vrdx r vd acs sl => some (r, wordOf (.vrdx vd acs) sl)
  | .smax r va sl => some (r, wordOf (.smax va) sl)
  | .smin r va sl => some (r, wordOf (.smin va) sl)
  | .smaxa r va sl => some (r, wordOf (.smaxa va) sl)
  | .ldv r v an vop st u1 u2 => some (r, loadWord .ldv v an vop st u1 u2)
  | .ldb r v an vop st u1 u2 => some (r, loadWord .ldb v an vop st u1 u2)
  | .lds r v an vop st u1 u2 => some (r, loadWord .lds v an vop st u1 u2)
  | .stv r v an vop ld u1 u2 => some (r, storeWord .stv v an vop ld u1 u2)
  | .stl r v an vop ld u1 u2 => some (r, storeWord .stl v an vop ld u1 u2)
  | .std r v an vop ld u1 u2 => some (r, storeWord .std v an vop ld u1 u2)
  | .updateLinear r an step vop ld st u2 => some (r, updateWord .linear an step vop ld st u2)
  | .updateCircular r an step vop ld st u2 => some (r, updateWord .circular an step vop ld st u2)
  | .updateBitReversed r an step vop ld st u2 => some (r, updateWord .bitReversed an step vop ld st u2)
  | _ => none

/-- The eight lanes of Vd hold what `x` gives, saturated to Q1.31, and SATF records whether that changed a value (R200, R208). -/
structure Saturates (s t : State) (r vd : Nat) (x : Nat → Int) : Prop where
  lanes : ∀ l, l < 8 → (t.rod r).lane vd l = sat32 (x l)
  satf  : (t.rod r).satf = true ↔ (s.rod r).satf = true ∨ ∃ l, l < 8 ∧ sat32 (x l) ≠ x l

/-- The eight lanes of Vd hold the 32-bit patterns that `x` gives, and SATF is as it was. -/
structure Patterns (s t : State) (r vd : Nat) (x : Nat → Word) : Prop where
  lanes : ∀ l, l < 8 → mget 0#32 (t.rod r).v (8 * vd + l) = x l
  satf  : (t.rod r).satf = (s.rod r).satf

/-- The eight lanes of ACd hold what `x` gives. -/
def AccLanes (t : State) (r ac : Nat) (x : Nat → Int) : Prop := ∀ l, l < 8 → (t.rod r).acc ac l = x l

/-- Lane `l` of Vn as a 32-bit pattern. -/
def Rod.word (r : Rod) (n l : Nat) : Word := mget 0#32 r.v (8 * n + l)

/-- A control or immediate word has executed: the Rod holds the registers `q`, stands at `pc` with the repeat levels `reps`, waits for
nothing, and has counted the word's cycles; every other Rod and all of memory are as they were. -/
structure Executed (s t : State) (r : Nat) (q : Rod) (pc : Nat) (reps : List RepLevel) : Prop where
  rod    : ∃ cyc h1 h2 h3 h4, t.rod r =
    { q with pc := pc, reps := reps, wait := none, cyc := cyc, hzA1 := h1, hzA2 := h2, hzAr := h3, hzSr := h4 }
  others : ∀ p, p ≠ r → t.rod p = s.rod p
  mem    : t.mem = s.mem

/-- A word that writes the registers `q` and goes on with the next word (R213). -/
def Continues (s t : State) (r : Nat) (q : Rod) : Prop :=
  Executed s t r q (nextWord (s.rod r).reps (s.rod r).pc).1 (nextWord (s.rod r).reps (s.rod r).pc).2

/-- A control word that Rod `r` may execute: it issues it, and the word is not the last of an active body (R215). -/
structure Controls (s : State) (r : Nat) : Prop where
  issues : Issues s r
  inside : ∀ l ∈ (s.rod r).reps, l.last ≠ (s.rod r).pc

/-! Commands -/

/-- Command `c` answers a next state, and `P` holds of it. -/
def Gives (c : Instr) (s : State) (P : State → Prop) : Prop := ∃ t, exec c s = .next t ∧ P t

/-- Command `c` is refused whole: it answers the same state but for the last abort code sent, 1020:0C (R430, R437). -/
def Declines (c : Instr) (s : State) (code : Nat) : Prop := Gives c s (fun t => t = s.abort code)

/-- A counter entry of the dictionary increased by `n`, saturating at 2^32 − 1, every other status entry as it was. -/
def Counts (s t : State) (index sub n : Nat) : Prop :=
  t.stget 0 index sub = min (s.stget 0 index sub + n) (2 ^ 32 - 1) ∧
    ∀ i b, key i b ≠ key index sub → t.stget 0 i b = s.stget 0 i b

/-- An event source is raised: its count rises by one, saturating, or the raise is quiet under self-test (R552, R558). -/
def Raises (s t : State) (src arg0 : Nat) : Prop :=
  if s.quiet src arg0 then t.evSrc src = s.evSrc src else (t.evSrc src).count = min ((s.evSrc src).count + 1) 65535

/-! Beam transactions -/

/-- A transaction of master `m` to target `t` that is served as soon as it is issued: nothing waits, the target takes requests and is not
locked, no bar, no fence, no held PUT, and a tag is left (R28, R250, R254 to R258). -/
structure Served (s : State) (m t : Nat) : Prop where
  issues   : m < 32 ∧ masterFenced s m = false
  allowed  : pairPri s m t ≠ 0
  ready    : targetReady s t = true
  alone    : s.beam.waiting = []
  unlocked : 32 ≤ (mget (32, 0) s.beam.locks t).1
  tag      : (heldTags s).count m < 2
  free     : t = 14 → tallyHeld s m = false

/-- A transaction of master `m` to target `t` that waits alone: for the target, for another master's lock, or for its own held PUT. -/
structure Waits (s : State) (m t : Nat) : Prop where
  issues  : m < 32 ∧ masterFenced s m = false
  allowed : pairPri s m t ≠ 0
  alone   : s.beam.waiting = []
  reason  : targetReady s t = false ∨ ((mget (32, 0) s.beam.locks t).1 < 32 ∧ (mget (32, 0) s.beam.locks t).1 ≠ m) ∨
    (t = 14 ∧ tallyHeld s m = true)

/-- The Beam after a grant of target `t` to master `m`: its round robin and its count of grants (R257). -/
def beamAfter (s : State) (m t : Nat) : Beam := (grantNoted s t m false false).beam

/-! FOL frames -/

/-- A frame that the module hears, whole, of an open session `x` and under its tag (R413, R414). -/
def Heard (u : State) (src : FolSrc) (x : Session) (f : FolFrame) : Prop :=
  folHears u src = true ∧ folPortOk u src f = true ∧ u.sup.mod ≠ .recovery ∧ folBroken f = false ∧ f.session ≠ 0 ∧
    sessionOf u f.session = some x ∧ f.tag = folTag x.key f

/-- A heard frame of operation `op` that is the session's next request, within its rates and its transfer's time (R417, R418, R423). -/
def NextRequest (u : State) (src : FolSrc) (x : Session) (f : FolFrame) (op : Nat) : Prop :=
  Heard u src x f ∧ f.op = op ∧ folFault f x.segment = false ∧ f.seq = (x.seq + 1) % 2 ^ 32 ∧ folRate u x = true ∧
    ∀ r, x.xfer = some r → transferLives u r = true

/-- The state and the session in which the operation of a next request runs (R417). -/
def requestTurn (u : State) (x : Session) (f : FolFrame) : State × Session :=
  let y : Session := { x with lastAt := u.clk.local }
  let c := folCount (setSession u y) y
  let w : Session := { c.2 with seq := f.seq, kept := none }
  (setSession c.1 w, w)

/-- The one frame sent is the response of session `x` to `f`, tagged with its key. -/
def Answers (u t : State) (src : FolSrc) (x : Session) (f : FolFrame) (flags offset total status : Nat) (data : List Byte) : Prop :=
  t.out = u.out ++ [.fol src.port src.addr (folTagged x.key (folResponse f flags offset total status data))]

end Sys2Proof.Machine
end

