-- ==== Sys2Proof/Certificates/Slice0/Obligations.lean ====
section
/-! DEFINITION. The statements about the model that are to be proved. -/
open Sys2Proof Sys2Proof.Machine

/-- A step runs the command at the front. -/
def Obligations.FrontCommandRuns : Prop := ∀ (s : State) (c : Instr) (rest : List Instr),
  step { s with pending := c :: rest } = exec c { s with pending := rest }

/-- Idling on an empty queue: the model's choice (assumption 2). -/
def Obligations.EmptyQueueIdles : Prop := ∀ s : State, s.pending = [] → step s = .next s

/-- Reset meets the invariant. -/
def Obligations.ResetIsSafe : Prop := State.reset.Safe ∧ State.reset.pending = []

/-- The invariant that every step keeps. -/
def Obligations.StepKeepsSafe : Prop := ∀ s t : State, s.Safe → step s = .next t → t.Safe

/-- The frame of every command. -/
def Obligations.CommandsKeepTheirFrame : Prop :=
  (∀ (s t : State) (c : Instr), exec c s = .next t → Keeps (mayChange c) s t ∧ t.pending = s.pending) ∧
  ∀ (s t : State) (c : Instr) (rest : List Instr), s.pending = c :: rest → step s = .next t → t.pending = rest

/-- No command stops a live block. -/
def Obligations.EveryCommandAnswers : Prop :=
  (∀ (s : State) (c : Instr), s.Live → ∃ t, exec c s = .next t) ∧
  ∀ (s : State) (obs : BoundaryObs), s.ticking = true → ¬ s.Live → exec (.tickBoundary obs) s = .fault .tickExhausted

/-- VADD, VSUB, VMUL, VABS, VNEG and VSHL by R221 and R208. -/
def Obligations.SaturatingVectorOps : Prop := ∀ (s : State) (r vd va vb n : Nat) (sl : Slots),
  (WordRuns s r (wordOf (.vadd vd va vb) sl) → ∃ t, exec (.vadd r vd va vb sl) s = .next t ∧
    Saturates s t r vd (fun l => (s.rod r).lane va l + (s.rod r).lane vb l)) ∧
  (WordRuns s r (wordOf (.vsub vd va vb) sl) → ∃ t, exec (.vsub r vd va vb sl) s = .next t ∧
    Saturates s t r vd (fun l => (s.rod r).lane va l - (s.rod r).lane vb l)) ∧
  (WordRuns s r (wordOf (.vmul vd va vb) sl) → ∃ t, exec (.vmul r vd va vb sl) s = .next t ∧
    Saturates s t r vd (fun l => (s.rod r).lane va l * (s.rod r).lane vb l / 2 ^ 31)) ∧
  (WordRuns s r (wordOf (.vabs vd va) sl) → ∃ t, exec (.vabs r vd va sl) s = .next t ∧
    Saturates s t r vd (fun l => ((s.rod r).lane va l).natAbs)) ∧
  (WordRuns s r (wordOf (.vneg vd va) sl) → ∃ t, exec (.vneg r vd va sl) s = .next t ∧
    Saturates s t r vd (fun l => -(s.rod r).lane va l)) ∧
  (WordRuns s r (wordOf (.vshl vd va n) sl) → ∃ t, exec (.vshl r vd va n sl) s = .next t ∧
    Saturates s t r vd (fun l => (s.rod r).lane va l * 2 ^ n))

/-- The vector operations that never saturate (R221), on 32-bit patterns. -/
def Obligations.PatternVectorOps : Prop := ∀ (s : State) (r vd va vb n : Nat) (sl : Slots),
  (WordRuns s r (wordOf .nop sl) → ∃ t, exec (.nop r sl) s = .next t ∧ (t.rod r).satf = (s.rod r).satf ∧
    ∀ m l, l < 8 → (∀ ld, sl.ld = some ld → ld.v ≠ m) → (t.rod r).word m l = (s.rod r).word m l) ∧
  (WordRuns s r (wordOf (.vmov vd va) sl) → ∃ t, exec (.vmov r vd va sl) s = .next t ∧
    Patterns s t r vd (fun l => (s.rod r).word va l)) ∧
  (WordRuns s r (wordOf (.vaddw vd va vb) sl) → ∃ t, exec (.vaddw r vd va vb sl) s = .next t ∧
    Patterns s t r vd (fun l => (s.rod r).word va l + (s.rod r).word vb l)) ∧
  (WordRuns s r (wordOf (.vsubw vd va vb) sl) → ∃ t, exec (.vsubw r vd va vb sl) s = .next t ∧
    Patterns s t r vd (fun l => (s.rod r).word va l - (s.rod r).word vb l)) ∧
  (WordRuns s r (wordOf (.vmin vd va vb) sl) → ∃ t, exec (.vmin r vd va vb sl) s = .next t ∧
    Patterns s t r vd (fun l => if (s.rod r).lane va l ≤ (s.rod r).lane vb l then (s.rod r).word va l else (s.rod r).word vb l)) ∧
  (WordRuns s r (wordOf (.vmax vd va vb) sl) → ∃ t, exec (.vmax r vd va vb sl) s = .next t ∧
    Patterns s t r vd (fun l => if (s.rod r).lane va l ≤ (s.rod r).lane vb l then (s.rod r).word vb l else (s.rod r).word va l)) ∧
  (WordRuns s r (wordOf (.vand vd va vb) sl) → ∃ t, exec (.vand r vd va vb sl) s = .next t ∧
    Patterns s t r vd (fun l => (s.rod r).word va l &&& (s.rod r).word vb l)) ∧
  (WordRuns s r (wordOf (.vor vd va vb) sl) → ∃ t, exec (.vor r vd va vb sl) s = .next t ∧
    Patterns s t r vd (fun l => (s.rod r).word va l ||| (s.rod r).word vb l)) ∧
  (WordRuns s r (wordOf (.vxor vd va vb) sl) → ∃ t, exec (.vxor r vd va vb sl) s = .next t ∧
    Patterns s t r vd (fun l => (s.rod r).word va l ^^^ (s.rod r).word vb l)) ∧
  (WordRuns s r (wordOf (.vnot vd va) sl) → ∃ t, exec (.vnot r vd va sl) s = .next t ∧
    Patterns s t r vd (fun l => ~~~ (s.rod r).word va l)) ∧
  (WordRuns s r (wordOf (.vcmpgt vd va vb) sl) → ∃ t, exec (.vcmpgt r vd va vb sl) s = .next t ∧
    Patterns s t r vd (fun l => if (s.rod r).lane vb l < (s.rod r).lane va l then 0xFFFFFFFF#32 else 0#32)) ∧
  (WordRuns s r (wordOf (.vcmpeq vd va vb) sl) → ∃ t, exec (.vcmpeq r vd va vb sl) s = .next t ∧
    Patterns s t r vd (fun l => if (s.rod r).word va l = (s.rod r).word vb l then 0xFFFFFFFF#32 else 0#32)) ∧
  (WordRuns s r (wordOf (.vshr vd va n) sl) → ∃ t, exec (.vshr r vd va n sl) s = .next t ∧
    Patterns s t r vd (fun l => ((s.rod r).word va l).sshiftRight n)) ∧
  (WordRuns s r (wordOf (.vshrl vd va n) sl) → ∃ t, exec (.vshrl r vd va n sl) s = .next t ∧
    Patterns s t r vd (fun l => (s.rod r).word va l >>> n)) ∧
  (WordRuns s r (wordOf (.vperm vd va vb) sl) → ∃ t, exec (.vperm r vd va vb sl) s = .next t ∧
    Patterns s t r vd (fun l => (s.rod r).word va (((s.rod r).word vb l).toNat % 8))) ∧
  (WordRuns s r (wordOf (.vbcst vd va n) sl) → ∃ t, exec (.vbcst r vd va n sl) s = .next t ∧
    Patterns s t r vd (fun _ => (s.rod r).word va n))

/-- VMPY, VMAC and VMSU (R207). -/
def Obligations.MultiplyAccumulate : Prop := ∀ (s : State) (r ac va vb : Nat) (sl : Slots),
  let raw : Nat → Int := fun l => (s.rod r).lane va l * (s.rod r).lane vb l * 2 ^ (s.rod r).ps
  let p : Nat → Int := fun l => sat72 (raw l)
  let cut : Prop := ∃ l, l < 8 ∧ p l ≠ raw l
  (WordRuns s r (wordOf (.vmpy ac va vb) sl) → ∃ t, exec (.vmpy r ac va vb sl) s = .next t ∧ AccLanes t r ac p ∧
    ((t.rod r).satf = true ↔ (s.rod r).satf = true ∨ cut)) ∧
  (WordRuns s r (wordOf (.vmac ac va vb) sl) → ∃ t, exec (.vmac r ac va vb sl) s = .next t ∧
    AccLanes t r ac (fun l => sat72 ((s.rod r).acc ac l + p l)) ∧
    ((t.rod r).satf = true ↔ (s.rod r).satf = true ∨ cut ∨
      ∃ l, l < 8 ∧ sat72 ((s.rod r).acc ac l + p l) ≠ (s.rod r).acc ac l + p l)) ∧
  (WordRuns s r (wordOf (.vmsu ac va vb) sl) → ∃ t, exec (.vmsu r ac va vb sl) s = .next t ∧
    AccLanes t r ac (fun l => sat72 ((s.rod r).acc ac l - p l)) ∧
    ((t.rod r).satf = true ↔ (s.rod r).satf = true ∨ cut ∨
      ∃ l, l < 8 ∧ sat72 ((s.rod r).acc ac l - p l) ≠ (s.rod r).acc ac l - p l))

/-- The other writes of an accumulator (R221). -/
def Obligations.AccumulatorWrites : Prop := ∀ (s : State) (r ac acs va vb : Nat) (sl : Slots),
  let a : Nat → Int := (s.rod r).acc ac
  (WordRuns s r (wordOf (.vclr ac) sl) → ∃ t, exec (.vclr r ac sl) s = .next t ∧ AccLanes t r ac (fun _ => 0)) ∧
  (WordRuns s r (wordOf (.vlift ac va) sl) → ∃ t, exec (.vlift r ac va sl) s = .next t ∧
    AccLanes t r ac (fun l => (s.rod r).lane va l * 2 ^ 31)) ∧
  (WordRuns s r (wordOf (.vaadd ac acs) sl) → ∃ t, exec (.vaadd r ac acs sl) s = .next t ∧
    AccLanes t r ac (fun l => sat72 (a l + (s.rod r).acc acs l))) ∧
  (WordRuns s r (wordOf (.vasub ac acs) sl) → ∃ t, exec (.vasub r ac acs sl) s = .next t ∧
    AccLanes t r ac (fun l => sat72 (a l - (s.rod r).acc acs l))) ∧
  (WordRuns s r (wordOf (.vtrw ac) sl) → ∃ t, exec (.vtrw r ac sl) s = .next t ∧
    AccLanes t r ac (fun l => a l - a l % 2 ^ 31)) ∧
  (WordRuns s r (wordOf (.vred ac) sl) → ∃ t, exec (.vred r ac sl) s = .next t ∧
    AccLanes t r ac (fun l => if l = 0 then
      sat72 (sat72 (sat72 (sat72 (sat72 (sat72 (sat72 (a 0 + a 1) + a 2) + a 3) + a 4) + a 5) + a 6) + a 7) else 0)) ∧
  (WordRuns s r (wordOf (.vwra ac va vb) sl) → ∃ t, exec (.vwra r ac va vb sl) s = .next t ∧
    AccLanes t r ac (fun l => ((s.rod r).word vb l ++ (s.rod r).word va l).toInt)) ∧
  (WordRuns s r (wordOf (.vwrh ac va) sl) → ∃ t, exec (.vwrh r ac va sl) s = .next t ∧
    AccLanes t r ac (fun l => (((s.rod r).word va l).extractLsb' 0 8 ++ (BitVec.ofInt 64 (a l))).toInt))

/-- The reads of an accumulator (R208 to R210, R221). -/
def Obligations.AccumulatorReads : Prop := ∀ (s : State) (r vd acs n : Nat) (sl : Slots),
  let a : Nat → Int := (s.rod r).acc acs
  (WordRuns s r (wordOf (.vrd vd acs n) sl) → ∃ t, exec (.vrd r vd acs n sl) s = .next t ∧
    Saturates s t r vd (fun l => a l / 2 ^ (31 + n))) ∧
  (WordRuns s r (wordOf (.vrdx vd acs) sl) → ∃ t, exec (.vrdx r vd acs sl) s = .next t ∧
    Saturates s t r vd (fun l => a l / 2 ^ (31 + (s.rod r).bsh))) ∧
  (WordRuns s r (wordOf (.vrdl vd acs) sl) → ∃ t, exec (.vrdl r vd acs sl) s = .next t ∧
    Patterns s t r vd (fun l => BitVec.ofInt 32 (a l))) ∧
  (WordRuns s r (wordOf (.vrdm vd acs) sl) → ∃ t, exec (.vrdm r vd acs sl) s = .next t ∧
    Patterns s t r vd (fun l => (BitVec.ofInt 72 (a l)).extractLsb' 32 32)) ∧
  (WordRuns s r (wordOf (.vrdh vd acs) sl) → ∃ t, exec (.vrdh r vd acs sl) s = .next t ∧
    Patterns s t r vd (fun l => ((BitVec.ofInt 72 (a l)).extractLsb' 64 8).signExtend 32)) ∧
  (WordRuns s r (wordOf (.vaex acs) sl) → ∃ t e, exec (.vaex r acs sl) s = .next t ∧
    (t.rod r).aex.toNat = max (s.rod r).aex.toNat e ∧ (∀ l, l < 8 → (a l).natAbs < 2 ^ (62 + e)) ∧
    ∀ e', (∀ l, l < 8 → (a l).natAbs < 2 ^ (62 + e')) → e ≤ e')

/-- The searches (R211). -/
def Obligations.SearchWords : Prop := ∀ (s : State) (r va an : Nat) (min : Bool) (sl : Slots),
  let run : (Nat → Int) → (Int → Int → Bool) → Int × Nat := fun x better => (List.range 8).foldl (fun b l =>
    let i := ((s.rod r).sc.toNat + l) % 2 ^ 32
    if better (x l) b.1 = true ∨ (x l = b.1 ∧ i < b.2) then (x l, i) else b) ((s.rod r).sx.toInt, (s.rod r).si.toNat)
  let found : State → Int × Nat → Prop := fun t b =>
    (t.rod r).sx.toInt = b.1 ∧ (t.rod r).si.toNat = b.2 ∧ (t.rod r).sc = (s.rod r).sc + 8
  (WordRuns s r (wordOf (.smax va) sl) → ∃ t, exec (.smax r va sl) s = .next t ∧
    found t (run (fun l => (s.rod r).lane va l) (fun x y => decide (y < x)))) ∧
  (WordRuns s r (wordOf (.smin va) sl) → ∃ t, exec (.smin r va sl) s = .next t ∧
    found t (run (fun l => (s.rod r).lane va l) (fun x y => decide (x < y)))) ∧
  (WordRuns s r (wordOf (.smaxa va) sl) → ∃ t, exec (.smaxa r va sl) s = .next t ∧
    found t (run (fun l => ((s.rod r).lane va l).natAbs) (fun x y => decide (y < x)))) ∧
  (Issues s r → an < 16 → atBodyEnd (s.rod r) = false → ∃ t, exec (.srinit r an min) s = .next t ∧
    (t.rod r).sc.toNat = (s.rod r).arv an ∧ (t.rod r).si = 0xFFFFFFFF#32 ∧
    (t.rod r).sx.toInt = if min then 2 ^ 63 - 1 else -(2 ^ 63))

/-- The loads of R204. -/
def Obligations.RodLoads : Prop := ∀ (s : State) (r v an : Nat) (vop : VOp) (st : Option StSlot) (u1 u2 : Option UpdSlot),
  let at_ : Int → Int := fun a => ((dmWord s r a.toNat).toInt)
  (WordRuns s r (loadWord .ldv v an vop st u1 u2) → ∃ t, exec (.ldv r v an vop st u1 u2) s = .next t ∧
    ∀ l, l < 8 → (t.rod r).lane v l = at_ ((s.rod r).arv an + 4 * l)) ∧
  (WordRuns s r (loadWord .ldb v an vop st u1 u2) → ∃ t, exec (.ldb r v an vop st u1 u2) s = .next t ∧
    ∀ l, l < 8 → (t.rod r).lane v l = at_ ((s.rod r).arv an)) ∧
  (WordRuns s r (loadWord .lds v an vop st u1 u2) → ∃ t, exec (.lds r v an vop st u1 u2) s = .next t ∧
    ∀ l, l < 8 → (t.rod r).lane v l = at_ ((s.rod r).arv an + l * (s.rod r).mdv an))

/-- The stores of R204, and the detector of R209. -/
def Obligations.RodStores : Prop := ∀ (s : State) (r v an : Nat) (vop : VOp) (ld : Option LdSlot) (u1 u2 : Option UpdSlot),
  let bytes : State → Nat → Word → Prop := fun t a x =>
    ∀ i, i < 4 → memByte t.mem (rodWindow r a + i) = x.extractLsb' (8 * i) 8
  (WordRuns s r (storeWord .stv v an vop ld u1 u2) → ∃ t, exec (.stv r v an vop ld u1 u2) s = .next t ∧
    ∀ l, l < 8 → bytes t ((s.rod r).arv an + 4 * l) ((s.rod r).word v l)) ∧
  (WordRuns s r (storeWord .stl v an vop ld u1 u2) → ∃ t, exec (.stl r v an vop ld u1 u2) s = .next t ∧
    bytes t ((s.rod r).arv an) ((s.rod r).word v 0)) ∧
  (WordRuns s r (storeWord .std v an vop ld u1 u2) → ∃ t, exec (.std r v an vop ld u1 u2) s = .next t ∧
    (∀ l, l < 8 → bytes t ((s.rod r).arv an + 4 * l) ((s.rod r).word v l)) ∧ (s.rod r).bxm ≤ (t.rod r).bxm ∧
    (∀ l, l < 8 → ((s.rod r).lane v l).natAbs ≤ (t.rod r).bxm) ∧
    ((t.rod r).bxm = (s.rod r).bxm ∨ ∃ l, l < 8 ∧ (t.rod r).bxm = ((s.rod r).lane v l).natAbs))

/-- The address updates of R205. -/
def Obligations.AddressUpdates : Prop := ∀ (s : State) (r an step : Nat) (vop : VOp) (ld : Option LdSlot) (st : Option StSlot)
    (u2 : Option UpdSlot),
  let a : Int := (s.rod r).arv an
  let cl := (mget 0#19 (s.rod r).cl an).toNat
  let cb := (mget 0#18 (s.rod r).cb an).toNat
  let by_ : Int := if step = 0 then (s.rod r).mdv an else if step = 1 then 4 else if step = 2 then 32 else -32
  (WordRuns s r (updateWord .linear an step vop ld st u2) →
    ∃ t, exec (.updateLinear r an step vop ld st u2) s = .next t ∧ ((t.rod r).arv an : Int) = (a + by_) % 2 ^ 32) ∧
  (WordRuns s r (updateWord .circular an step vop ld st u2) →
    ∃ t, exec (.updateCircular r an step vop ld st u2) s = .next t ∧
      ((t.rod r).arv an : Int) = if cl = 0 then (a + by_) % 2 ^ 32 else cb + (a - cb + by_) % cl) ∧
  (WordRuns s r (updateWord .bitReversed an step vop ld st u2) →
    ∃ t, exec (.updateBitReversed r an step vop ld st u2) s = .next t ∧ ∀ w, cl = 8 * 2 ^ w → ∀ i, a = cb + 8 * (i : Nat) →
      (t.rod r).arv an = cb + 8 * bitrev w ((bitrev w i + 1) % 2 ^ w))

/-- The frame of a parallel word (R200 to R211). -/
def Obligations.ParallelWordFrame : Prop := ∀ (s : State) (c : Instr) (r : Nat) (w : ParWord), parWord c = some (r, w) →
  WordRuns s r w → ∃ t, exec c s = .next t ∧ (∀ q, q ≠ r → t.rod q = s.rod q) ∧ (t.rod r).st = .running ∧
    (∀ n l, l < 8 → vopDest w.vop ≠ some n → (∀ ld, w.ld = some ld → ld.v ≠ n) → (t.rod r).word n l = (s.rod r).word n l) ∧
    (∀ n l, l < 8 → n ∉ vopAcs w.vop → (t.rod r).acc n l = (s.rod r).acc n l) ∧
    (∀ n, (∀ u ∈ w.us, u.an ≠ n) → (t.rod r).arv n = (s.rod r).arv n) ∧
    (t.rod r).md = (s.rod r).md ∧ (t.rod r).cl = (s.rod r).cl ∧ (t.rod r).cb = (s.rod r).cb ∧ (t.rod r).fa = (s.rod r).fa ∧
    (t.rod r).ps = (s.rod r).ps ∧ (t.rod r).lnk = (s.rod r).lnk ∧ (t.rod r).bsh = (s.rod r).bsh ∧
    (t.rod r).bxe = (s.rod r).bxe ∧ ((∀ st, w.st = some st → st.kind ≠ .std) → (t.rod r).bxm = (s.rod r).bxm) ∧
    ((∀ a, w.vop ≠ .vaex a) → (t.rod r).aex = (s.rod r).aex) ∧
    (vopSearch w.vop = false → (t.rod r).sx = (s.rod r).sx ∧ (t.rod r).si = (s.rod r).si ∧ (t.rod r).sc = (s.rod r).sc) ∧
    (∀ a, (∀ x ∈ parStores (s.rod r) w, a < rodWindow r x.toNat ∨ rodWindow r x.toNat + 4 ≤ a) →
      memByte t.mem a = memByte s.mem a)

/-- The step of R213 after a parallel word. -/
def Obligations.WordsAdvance : Prop := ∀ (s : State) (c : Instr) (r : Nat) (w : ParWord), parWord c = some (r, w) →
  WordRuns s r w → ∃ t, exec c s = .next t ∧
    (t.rod r).cyc = (s.rod r).cyc + BitVec.ofNat 32 (1 + stallOf (s.rod r) (vopReads w.vop) (parUses w)) ∧ ∃ closed rest, (s.rod r).reps = closed ++ rest ∧
    (∀ x ∈ closed, x.last = (s.rod r).pc ∧ x.count ≤ 1) ∧
    (match rest with
      | [] => (t.rod r).pc = ((s.rod r).pc + 1) % 8192 ∧ (t.rod r).reps = []
      | x :: out =>
        if x.last = (s.rod r).pc then
          1 < x.count ∧ (t.rod r).pc = x.first ∧ (t.rod r).reps = { x with count := x.count - 1 } :: out
        else (t.rod r).pc = ((s.rod r).pc + 1) % 8192 ∧ (t.rod r).reps = x :: out)

/-- Jumps, CALL and RET (R215, R221). -/
def Obligations.JumpWords : Prop := ∀ (s : State) (r an w13 : Nat), Controls s r → an < 16 → w13 < 8192 →
  let q := s.rod r
  let next := (q.pc + 1) % 8192
  let gives : Instr → Rod → Nat → Prop := fun c q' pc => ∃ t, exec c s = .next t ∧ Executed s t r q' pc []
  (q.reps = [] →
    gives (.j r w13) q w13 ∧
    gives (.jz r an w13) q (if q.arv an = 0 then w13 else next) ∧
    gives (.jnz r an w13) q (if q.arv an = 0 then next else w13) ∧
    gives (.jneg r an w13) q (if (mget 0#32 q.ar an).toInt < 0 then w13 else next) ∧
    gives (.call r w13) { q with lnk := BitVec.ofNat 13 (q.pc + 1) } w13 ∧
    gives (.ret r) q q.lnk.toNat) ∧
  (q.reps ≠ [] → ∀ c ∈ [Instr.j r w13, .jz r an w13, .jnz r an w13, .jneg r an w13, .call r w13, .ret r],
    ∃ t, exec c s = .next t ∧ t = rodFault s r 0x03 0)

/-- REP, REPA and BRK (R212 to R215). -/
def Obligations.RepeatWords : Prop := ∀ (s : State) (r n16 an w13 : Nat), Controls s r → n16 < 65536 → an < 16 → w13 < 8192 →
  let q := s.rod r
  let opens : Nat → Prop := fun n => n ≤ 65535 ∧ q.reps.length < 3 ∧ q.pc < w13 ∧ ∀ l rest, q.reps = l :: rest → w13 ≤ l.last
  let after : Nat → Instr → Prop := fun n c =>
    (opens n → 0 < n → ∃ t, exec c s = .next t ∧ Executed s t r q (q.pc + 1) (RepLevel.mk n (q.pc + 1) w13 :: q.reps)) ∧
    (opens n → n = 0 → ∃ t, exec c s = .next t ∧ Executed s t r q (nextWord q.reps w13).1 (nextWord q.reps w13).2) ∧
    (¬ opens n → ∃ t, exec c s = .next t ∧ t = rodFault s r 0x03 0)
  after n16 (.rep r n16 w13) ∧ after (q.arv an) (.repa r an w13) ∧
  (∀ l rest, q.reps = l :: rest → ∃ t, exec (.brk r) s = .next t ∧
    Executed s t r q (nextWord rest l.last).1 (nextWord rest l.last).2) ∧
  (q.reps = [] → ∃ t, exec (.brk r) s = .next t ∧ t = rodFault s r 0x03 0)

/-- Words between registers (R200, R209, R218, R221). -/
def Obligations.RegisterWords : Prop := ∀ (s : State) (r an as_ k8 sel imm : Nat), Controls s r → an < 16 → as_ < 16 →
  let q := s.rod r
  let gives : Instr → Rod → Prop := fun c q' => ∃ t, exec c s = .next t ∧ Continues s t r q'
  gives (.mov r an as_) { q with ar := mset 0#32 q.ar an (mget 0#32 q.ar as_) } ∧
  (k8 < 32 → gives (.setps r k8) { q with ps := k8 }) ∧
  (k8 < 2 → q.xfers.length ≤ k8 → gives (.waitx r k8) q) ∧
  (k8 < 2 → k8 < q.xfers.length → ∃ t, exec (.waitx r k8) s = .next t ∧
    t = s.setRod r { q with st := .waiting, wait := some (.xfers k8) }) ∧
  (imm < 2 ^ 32 → sel < 16 → gives (.li r sel imm) { q with ar := mset 0#32 q.ar sel (BitVec.ofNat 32 imm) }) ∧
  (imm < 2 ^ 32 → sel < 16 →
    gives (.addi r sel imm) { q with ar := mset 0#32 q.ar sel (mget 0#32 q.ar sel + BitVec.ofNat 32 imm) }) ∧
  (imm < 2 ^ 32 → sel < 16 → gives (.li r (16 + sel) imm) { q with md := mset 0#32 q.md sel (BitVec.ofNat 32 imm) }) ∧
  (imm < 2 ^ 32 → sel < 16 →
    gives (.addi r (16 + sel) imm) { q with md := mset 0#32 q.md sel (mget 0#32 q.md sel + BitVec.ofNat 32 imm) }) ∧
  (imm % 4 = 0 → imm ≤ 262144 → sel < 16 →
    gives (.li r (32 + sel) imm) { q with cl := mset 0#19 q.cl sel (BitVec.ofNat 19 imm) }) ∧
  (imm < 2 ^ 32 → sel < 16 → gives (.li r (48 + sel) imm) { q with cb := mset 0#18 q.cb sel (BitVec.ofNat 18 imm) }) ∧
  (imm < 2 ^ 32 → sel < 16 →
    gives (.addi r (48 + sel) imm) { q with cb := mset 0#18 q.cb sel (mget 0#18 q.cb sel + BitVec.ofNat 18 imm) }) ∧
  (imm < 2 ^ 32 → sel < 4 → gives (.li r (64 + sel) imm) { q with fa := mset 0#40 q.fa sel (BitVec.ofNat 40 imm) }) ∧
  (imm < 2 ^ 32 → sel < 4 →
    gives (.addi r (64 + sel) imm) { q with fa := mset 0#40 q.fa sel (mget 0#40 q.fa sel + BitVec.ofNat 40 imm) }) ∧
  (imm < 256 → sel < 4 → gives (.lih r (64 + sel) imm)
    { q with fa := mset 0#40 q.fa sel (BitVec.ofNat 8 imm ++ (mget 0#40 q.fa sel).extractLsb' 0 32) }) ∧
  (∀ v, specialRead q r k8 = some v →
    gives (.mfs r an k8) { q with ar := mset 0#32 q.ar an (BitVec.ofNat 32 v) } ∧
    gives (.mts r an k8) (specialWrite q k8 (q.arv an))) ∧
  (r % 8 = 7 → gives (.bxclr r) { q with bxm := 0, bsh := 0, bxe := 0 }) ∧
  (r % 8 = 7 → ∀ sh, sh = (if q.bxm < 2 ^ 29 then 0 else if q.bxm < 2 ^ 30 then 1 else 2) →
    gives (.bxstep r) { q with bsh := sh, bxe := q.bxe + BitVec.ofNat 32 sh, bxm := 0 })

/-- LDW, LDF and STW (R204, R221). -/
def Obligations.SingleWordMemory : Prop := ∀ (s : State) (r an am fa : Nat), Controls s r → an < 16 → am < 16 → fa < 4 →
  let q := s.rod r
  let a := q.arv am
  rodLost s r [a] = false →
  (dmOk a = true → loadWaits q [a] = false → ∃ t, exec (.ldw r an am) s = .next t ∧ t.mem = s.mem ∧
    (t.rod r).ar = mset 0#32 q.ar an (dmWord s r a) ∧ (t.rod r).v = q.v ∧ (t.rod r).ac = q.ac ∧ (t.rod r).fa = q.fa ∧
    (t.rod r).md = q.md ∧ (t.rod r).cl = q.cl ∧ (t.rod r).cb = q.cb ∧ ∀ p, p ≠ r → t.rod p = s.rod p) ∧
  (a % 8 = 0 → a + 7 ≤ 0x3FFFF → loadWaits q [a, a + 4] = false → ∃ t, exec (.ldf r fa am) s = .next t ∧ t.mem = s.mem ∧
    (t.rod r).fa = mset 0#40 q.fa fa (BitVec.ofNat 40 (leNat (memBytes s.mem (rodWindow r a) 8))) ∧ (t.rod r).v = q.v ∧
    (t.rod r).ac = q.ac ∧ (t.rod r).ar = q.ar ∧ (t.rod r).md = q.md ∧ (t.rod r).cl = q.cl ∧ (t.rod r).cb = q.cb ∧
    ∀ p, p ≠ r → t.rod p = s.rod p) ∧
  (dmOk a = true → storeWaits q [a] = false → ∃ t, exec (.stw r an am) s = .next t ∧
    (∀ i, i < 4 → memByte t.mem (rodWindow r a + i) = (mget 0#32 q.ar an).extractLsb' (8 * i) 8) ∧
    (∀ b, b < rodWindow r a ∨ rodWindow r a + 4 ≤ b → memByte t.mem b = memByte s.mem b) ∧
    (t.rod r).v = q.v ∧ (t.rod r).ac = q.ac ∧ (t.rod r).ar = q.ar ∧ (t.rod r).fa = q.fa ∧ (t.rod r).md = q.md ∧
    (t.rod r).cl = q.cl ∧ (t.rod r).cb = q.cb ∧ ∀ p, p ≠ r → t.rod p = s.rod p)

/-- What a fault leaves (R222). -/
def Obligations.RodFaultStops : Prop := ∀ (s : State) (c : Instr) (r code op : Nat),
  (Controls s r ∧ op < 256 ∧ c = .trap r op ∧ code = 0x0B) ∨
    (op = 0 ∧ ∃ w, parWord c = some (r, w) ∧ Issues s r ∧
      ((parOk (s.rod r) (isTransform r) w = false ∧ code = 0x01) ∨
       (parOk (s.rod r) (isTransform r) w = true ∧ parConflict w = true ∧ code = 0x02))) →
  (s.rod r).slot = none → (s.rod r).health = true ∨ (s.rod r).faults = [] →
  ∃ t, exec c s = .next t ∧ (t.rod r).st = .faulted ∧ (t.rod r).fault = true ∧ (t.rod r).code = code ∧
    (t.rod r).faultPc = (s.rod r).pc ∧ (t.rod r).trapOp = op ∧ (t.rod r).item = none ∧
    (t.rod r).xfers = (s.rod r).xfers.take 1 ∧ (t.rod r).v = (s.rod r).v ∧ (t.rod r).ac = (s.rod r).ac ∧
    (t.rod r).ar = (s.rod r).ar ∧ (t.rod r).pc = (s.rod r).pc ∧ t.mem = s.mem ∧ ∀ p, p ≠ r → t.rod p = s.rod p

/-- Run control (R28, R199, R200, R217, R222). -/
def Obligations.RodRunControl : Prop := ∀ (s : State) (r startPc : Nat), r < 64 →
  let q := s.rod r
  (q.st = .stopped → q.fenced = false → ∃ t, exec (.rodRunStart r startPc) s = .next t ∧ (∀ p, p ≠ r → t.rod p = s.rod p) ∧
    (t.rod r).st = .running ∧ (t.rod r).pc = startPc % 8192 ∧ (t.rod r).v = [] ∧ (t.rod r).ac = [] ∧ (t.rod r).ar = [] ∧
    (t.rod r).md = [] ∧ (t.rod r).cl = [] ∧ (t.rod r).cb = [] ∧ (t.rod r).fa = [] ∧ (t.rod r).reps = [] ∧ (t.rod r).ps = 0 ∧
    (t.rod r).bsh = 0 ∧ (t.rod r).bxm = 0 ∧ (t.rod r).bxe = 0 ∧ (t.rod r).aex = 0 ∧ (t.rod r).sx = 0 ∧ (t.rod r).si = 0 ∧
    (t.rod r).sc = 0 ∧ (t.rod r).lnk = 0 ∧ (t.rod r).cyc = 0 ∧ (t.rod r).satf = false ∧ (t.rod r).item = none) ∧
  (q.st ≠ .stopped ∨ q.fenced = true → ∃ t, exec (.rodRunStart r startPc) s = .next t ∧
    t = s.setRod r { q with startPc := startPc % 8192 }) ∧
  (q.st = .running ∨ q.st = .waiting → ∃ t, exec (.rodRunStop r) s = .next t ∧ (t.rod r).st = .stopped ∧
    (t.rod r).wait = none ∧ (t.rod r).xfers = [] ∧ (t.rod r).item = none ∧ (q.slot = none → ∀ p, p ≠ r → t.rod p = s.rod p)) ∧
  (q.st = .stopped ∨ q.st = .faulted → exec (.rodRunStop r) s = .next s) ∧
  (Controls s r → ∃ t, exec (.halt r) s = .next t ∧ (t.rod r).st = .stopped ∧ (t.rod r).wait = none ∧
    (t.rod r).item = none ∧ (t.rod r).v = q.v ∧
    (q.slot = none → (t.rod r).xfers = q.xfers ∧ ∀ p, p ≠ r → t.rod p = s.rod p)) ∧
  (q.fault = true → ∃ t, exec (.rodFaultClear r) s = .next t ∧
    t = s.setRod r { q with fault := false, st := if q.st = .faulted then .stopped else q.st }) ∧
  (q.fault = false → exec (.rodFaultClear r) s = .next s) ∧
  (q.st ≠ .running ∨ q.fenced = true → ∀ c w, parWord c = some (r, w) → exec c s = .next s)

/-- DONE, XFER, TAKE and PUT (R216 to R218). -/
def Obligations.WorkWords : Prop := ∀ (s : State) (r an k8 fa md : Nat) (out : Bool), Controls s r → (s.rod r).slot = none → an < 16 →
  let q := s.rod r
  let a := q.arv an
  let len := (mget 0#32 q.md md).toNat
  let desc := memBytes s.mem (rodWindow r a) 32
  let held : Prop := ∀ i, i < 32 → rodErr s r (a + i) = none
  (q.xfers = [] → ∃ t, exec (.done r) s = .next t ∧ Continues s t r { q with item := none, ending := if q.item.isNone then q.ending else none }) ∧
  (q.xfers ≠ [] → ∃ t, exec (.done r) s = .next t ∧ Continues s t r
    { q with ending := if q.item.isNone then q.ending else some q.xfers.length }) ∧
  (fa < 4 → md < 16 → len = 0 → ∃ t, exec (.xfer r out an fa md) s = .next t ∧ Continues s t r q) ∧
  (fa < 4 → md < 16 → 0 < len → len % 4 = 0 → len ≤ 65536 → a + len ≤ 0x40000 → q.xfers.length < 2 →
    ∃ t, exec (.xfer r out an fa md) s = .next t ∧ Continues s t r
      { q with xfers := q.xfers ++ [Xfer.mk out a (mget 0#40 q.fa fa).toNat len 0 false false],
               bytes := if q.item.isSome then q.bytes + len else q.bytes }) ∧
  (fa < 4 → md < 16 → 0 < len → len % 4 = 0 → len ≤ 65536 → a + len ≤ 0x40000 → 2 ≤ q.xfers.length →
    ∃ t, exec (.xfer r out an fa md) s = .next t ∧ t = s.setRod r { q with wait := some .stall }) ∧
  (k8 < 16 → a % 32 = 0 → a + 31 ≤ 0x3FFFF → q.item = none → pick s r k8 = none →
    ∃ t, exec (.take r an k8) s = .next t ∧ (t.rod r).st = .waiting ∧ (t.rod r).wait = some (.take k8 a) ∧
      (t.rod r).pc = q.pc ∧ (t.rod r).ar = q.ar ∧ (t.rod r).v = q.v ∧ t.mem = s.mem ∧ t.tally = s.tally) ∧
  (k8 < 16 → a % 32 = 0 → a + 31 ≤ 0x3FFFF → q.item = none → ∀ qn it, pick s r k8 = some (qn, it) → it.desc.length = 32 →
    ∃ t, exec (.take r an k8) s = .next t ∧ (t.rod r).st = .running ∧ (t.rod r).wait = none ∧ (t.rod r).pc = (q.pc + 1) % 8192 ∧
      (t.rod r).item = some { it with queue := qn } ∧ (t.rod r).ar = q.ar ∧ (t.rod r).v = q.v ∧
      (t.queue qn).items = (s.queue qn).items.filter (fun j => j.num ≠ it.num) ∧ (∀ n, n ≠ qn → t.queue n = s.queue n) ∧
      ∀ i, i < 32 → memByte t.mem (rodWindow r a + i) = it.desc.getD i 0) ∧
  (k8 < 64 → a + 31 ≤ 0x3FFFF → held → descOk desc = true → (s.queue k8).items.length < (s.queue k8).cap → (s.queue k8).held = [] →
    ∃ t num rel, exec (.put r an k8) s = .next t ∧ Continues s t r q ∧
      (t.queue k8).items = (s.queue k8).items ++ [Item.mk num k8 desc rel] ∧
      ∀ n, n ≠ k8 → t.queue n = s.queue n) ∧
  (k8 < 64 → a + 31 ≤ 0x3FFFF → held → descOk desc = true → 0 < (s.queue k8).cap → (s.queue k8).cap ≤ (s.queue k8).items.length →
    ∃ t, exec (.put r an k8) s = .next t ∧ (t.rod r).st = .waiting ∧ (t.rod r).pc = q.pc ∧
      (t.queue k8).held = (s.queue k8).held ++ [Producer.mk r desc false] ∧ (t.queue k8).items = (s.queue k8).items)

/-- QCFG_WRITE (R28, R234, R236, R250, R254, R256 to R258, R260). -/
def Obligations.QueueConfiguration : Prop := ∀ (s : State) (m q v : Nat), q < 64 → v < 2 ^ 32 →
  let new : Queue := { s.queue q with cfg := qcfgMask v }
  let fits := otherCaps s q + new.cap ≤ 4096 ∧ ((s.queue q).items = [] ∨ new.cfg = (s.queue q).cfg)
  (Served s m 14 →
    (q < 48 → fits → Gives (.qcfgWrite m q v) s (fun t =>
      t.queue q = new ∧ (∀ p, p ≠ q → t.queue p = s.queue p) ∧ t.stat = s.stat ∧ t.beam = beamAfter s m 14)) ∧
    (q < 48 → ¬ fits → Gives (.qcfgWrite m q v) s (fun t =>
      t.tally = s.tally ∧ Counts s t 0x70C0 0x06 1 ∧ t.beam = beamAfter s m 14)) ∧
    (48 ≤ q → Gives (.qcfgWrite m q v) s (fun t => t = { s with beam := beamAfter s m 14 }))) ∧
  (Waits s m 14 → Gives (.qcfgWrite m q v) s (fun t => t = { s with beam := { s.beam with
    waiting := [Waiting.mk (tallyBurst m (0x20000000 + q * 0x1000 + 0x40) (leBytes 4 v)) 0 false] } })) ∧
  (m < 32 → masterFenced s m = false → s.beam.waiting = [] → pairPri s m 14 = 0 → Gives (.qcfgWrite m q v) s (fun t =>
    t.tally = s.tally ∧ t.beam.errCau = 2 ∧ t.beam.errMas = m ∧ t.beam.errVal = true))

/-- PUT_WINDOW_WRITE, PUT_ACCEPTED and BACKPRESSURE_LONG (R28, R247 to R251, R254, R256 to R258). -/
def Obligations.ItemsEnterQueues : Prop := ∀ (s : State) (m qn ofs : Nat) (d : List Byte), qn < 64 →
  let q := s.queue qn
  let item : List Byte → Item := fun d =>
    Item.mk s.tally.nextNum qn d (decide (q.trel = false ∨ descBlock d + q.relOfs ≤ s.clk.tick))
  let holds : State → Prop := fun t =>
    t.queue qn = { q with held := q.held ++ [Producer.mk (64 + m) d false] } ∧ ∀ p, p ≠ qn → t.queue p = s.queue p
  (Served s m 14 →
    (d.length = 32 → descOk d = true → q.items.length < q.cap → q.held = [] → Gives (.putWindowWrite m qn 0 d) s (fun t =>
      t.queue qn = { q with items := q.items ++ [item d] } ∧ (∀ p, p ≠ qn → t.queue p = s.queue p) ∧
      t.tally.nextNum = s.tally.nextNum + 1)) ∧
    (d.length = 32 → descOk d = true → 0 < q.cap → q.cap ≤ q.items.length → Gives (.putWindowWrite m qn 0 d) s holds) ∧
    (d.length = 32 → descOk d = true → q.items.length < q.cap → q.held ≠ [] → Gives (.putWindowWrite m qn 0 d) s holds) ∧
    (d.length = 32 → descOk d = false ∨ q.cap = 0 → Gives (.putWindowWrite m qn 0 d) s (fun t => t.tally = s.tally ∧
      t.beam.errCau = 5 ∧ t.beam.errVal = true ∧ t.stget 0 0x70C0 0x06 = min (s.stget 0 0x70C0 0x06 + 1) (2 ^ 32 - 1))) ∧
    (ofs ≠ 0 ∨ d.length ≠ 32 → Gives (.putWindowWrite m qn ofs d) s (fun t => t.tally = s.tally ∧ t.beam.errCau = 5 ∧
      t.beam.errVal = true))) ∧
  (Waits s m 14 → d.length = 32 → Gives (.putWindowWrite m qn 0 d) s (fun t => t = { s with beam := { s.beam with
    waiting := [Waiting.mk (tallyBurst m (0x20000000 + qn * 0x1000) d) 0 false] } })) ∧
  (∀ p rest, q.held = p :: rest → q.items.length < q.cap → Gives (.putAccepted qn) s (fun t =>
    t.queue qn = { q with items := q.items ++ [item p.desc], held := rest } ∧ (∀ k, k ≠ qn → t.queue k = s.queue k) ∧
    (p.who < 64 → (t.rod p.who).st = .running ∧ (t.rod p.who).wait = none ∧
      (t.rod p.who).pc = ((s.rod p.who).pc + 1) % 8192) ∧
    ∀ r, r ≠ p.who → t.rod r = s.rod r)) ∧
  (q.held = [] ∨ q.cap ≤ q.items.length → exec (.putAccepted qn) s = .next s) ∧
  (∀ p ∈ q.held, p.long = false → Gives (.backpressureLong qn p.who) s (fun t =>
    Counts s t 0x70C0 0x05 1 ∧ (t.queue qn).items = q.items ∧ (∀ k, k ≠ qn → t.queue k = s.queue k) ∧
    ∀ x ∈ (t.queue qn).held, x.who = p.who → x.long = true)) ∧
  (∀ who, (∀ p ∈ q.held, p.who = who → p.long = true) → exec (.backpressureLong qn who) s = .next s)

/-- TALLY_GIVE and TALLY_PURGE (R240, R241, R252, R256). -/
def Obligations.ItemsLeaveQueues : Prop := ∀ s : State,
  (∀ pre r post k a qn it, giveOrder s = pre ++ r :: post → (∀ p ∈ pre, offer s p = none) → (s.rod r).st = .waiting →
    (s.rod r).wait = some (.take k a) → (s.rod r).item = none → pick s r k = some (qn, it) → it.desc.length = 32 →
    Gives .tallyGive s (fun t => (t.rod r).st = .running ∧ (t.rod r).wait = none ∧ (t.rod r).pc = ((s.rod r).pc + 1) % 8192 ∧
      (t.rod r).item = some { it with queue := qn } ∧ (∀ p, p ≠ r → t.rod p = s.rod p) ∧
      (t.queue qn).items = (s.queue qn).items.filter (fun j => j.num ≠ it.num) ∧ (∀ p, p ≠ qn → t.queue p = s.queue p) ∧
      t.tally.takeRot = (r / 8 + 1) % 8 ∧
      (∀ i, i < 32 → memByte t.mem (rodWindow r a + i) = it.desc.getD i 0) ∧
      ∀ b, b < rodWindow r a ∨ rodWindow r a + 32 ≤ b → memByte t.mem b = memByte s.mem b)) ∧
  ((∀ r ∈ giveOrder s, offer s r = none) → exec .tallyGive s = .next s) ∧
  (∀ stage block, stage < 8 → block < 2 ^ 56 →
    (Served s 26 14 → Gives (.tallyPurge (stage + block * 256)) s (fun t => ∀ qn, t.queue qn =
      { s.queue qn with items := (s.queue qn).items.filter (fun it =>
        decide (stage = 0 ∨ descStage it.desc ≠ stage ∨ descBlock it.desc % 2 ^ 56 ≠ block)) })) ∧
    (Waits s 26 14 → Gives (.tallyPurge (stage + block * 256)) s (fun t => t.tally = s.tally ∧ t.beam.waiting =
      [Waiting.mk (tallyBurst 26 0x20043000 (leBytes 8 (stage + block * 256))) 0 false])))

/-- FLOW_WRITE and TALLY_EXCL_WRITE (R239, R245). -/
def Obligations.FlowsAndExclusion : Prop := ∀ (s : State) (n v : Nat), v < 2 ^ 64 →
  (n < 1024 → Gives (.flowWrite n v) s (fun t => flowOf t n = Machine.Flow.mk (v % 64) (bitOf v 6) (bitOf v 7) ∧
    (∀ k, k ≠ n → flowOf t k = flowOf s k) ∧ (∀ q, t.queue q = s.queue q) ∧
    (bitOf v 7 = true → ∀ r k qn it, descF it.desc = true → descFlow it.desc = n → eligible t r k qn it = false))) ∧
  Gives (.tallyExclWrite v) s (fun t => t.tally.excl = BitVec.ofNat 64 v ∧ t.stget 0 0x70C0 0x07 = v ∧
    (∀ q, t.queue q = s.queue q) ∧ (∀ k, flowOf t k = flowOf s k) ∧
    ∀ r k qn it, bitOf v r = true → eligible t r k qn it = false)

/-- REGISTER_WRITE and BEAM_ERR_CLEAR (R15, R28, R254, R256 to R258, R260). -/
def Obligations.BeamRegisterWrites : Prop := ∀ (s : State) (m v : Nat), v < 2 ^ 32 →
  (Served s m 12 →
    Gives (.registerWrite m 0x40000004 v) s (fun t =>
      t.clk = { s.clk with carry := BitVec.ofNat 32 v, wrapPend := false } ∧ t.mem = s.mem ∧ t.beam = beamAfter s m 12) ∧
    Gives (.registerWrite m 0x40001200 v) s (fun t =>
      t.beam = { beamAfter s m 12 with lockTo := v % 128 } ∧ t.mem = s.mem ∧ t.clk = s.clk)) ∧
  (∀ a x, a % 4 = 0 → (0x40000000 ≤ a ∧ a < 0x60000000) ∨ (0x20040000 ≤ a ∧ a < 0x20044000) ∨
      (0x10000000 ≤ a ∧ a < 0x12000000 ∧ 0x70000 ≤ a % 0x80000) → targetOf a = some x → Served s m x →
    Gives (.registerWrite m a v) s (fun t => t = regWrite { s with beam := beamAfter s m x } a v)) ∧
  (Served s m 14 → ∀ k, k < 128 →
    Gives (.registerWrite m (0x20042000 + 8 * k) v) s (fun t =>
      takeList t k = takeList s k / 2 ^ 32 * 2 ^ 32 + v ∧ ∀ j, j ≠ k → takeList t j = takeList s j) ∧
    Gives (.registerWrite m (0x20042004 + 8 * k) v) s (fun t =>
      takeList t k = takeList s k % 2 ^ 32 + v * 2 ^ 32 ∧ ∀ j, j ≠ k → takeList t j = takeList s j)) ∧
  (Served s m 24 → ∀ a, 0x60000000 ≤ a → a < 0x70000000 → a % 4 = 0 → Gives (.registerWrite m a v) s (fun t =>
    (∀ i, i < 4 → memByte t.mem (a + i) = BitVec.ofNat 8 (v / 2 ^ (8 * i))) ∧
    ∀ b, b < a ∨ a + 4 ≤ b → memByte t.mem b = memByte s.mem b)) ∧
  (∀ a x, a % 4 = 0 → targetOf a = some x → Waits s m x → Gives (.registerWrite m a v) s (fun t => t = { s with beam := { s.beam with
    waiting := [Waiting.mk (BeamReq.mk m a true 4 (leBytes 4 v) [true, true, true, true] false false) 0 false] } })) ∧
  (∀ a cause, m < 32 → masterFenced s m = false → s.beam.waiting = [] → a % 4 = 0 →
    (targetOf a = none ∧ cause = 1) ∨ (∃ x, targetOf a = some x ∧ pairPri s m x = 0 ∧ cause = 2) →
    Gives (.registerWrite m a v) s (fun t =>
      t.beam = { s.beam with errAddr := a % 2 ^ 40, errMas := m, errCau := cause, errVal := true } ∧ t.mem = s.mem ∧
      t.clk = s.clk ∧ t.rods = s.rods ∧ t.tally = s.tally ∧ t.stget 0 0x70E0 0x01 = min (s.stget 0 0x70E0 0x01 + 1) (2 ^ 32 - 1))) ∧
  Gives .beamErrClear s (fun t => t = { s with beam := { s.beam with errVal := false } })

/-- BEAM_REQUEST (R28, R254, R256, R257, R260). -/
def Obligations.BeamArbitration : Prop := ∀ (s : State) (a b : BeamReq) (x : Nat), targetOf a.addr = some x → burstOk a = true →
  (Served s a.master x → requestError s a = 0 → a.locked = false →
    Gives (.beamRequest [a] []) s (fun t => ∃ rr rd g, t = serveBurst { s with beam := { s.beam with
      rr := rr, rrDeep := rd, grants := g } } a)) ∧
  (Waits s a.master x → requestError s a = 0 → Gives (.beamRequest [a] []) s (fun t => t.mem = s.mem ∧ t.tally = s.tally ∧
    t.out = s.out ∧ ∃ admitted, t.beam.waiting = [Waiting.mk a 0 admitted])) ∧
  (s.beam.waiting = [] → masterFenced s a.master = false → requestError s a ≠ 0 →
    Gives (.beamRequest [a] []) s (fun t => t = refuse s a (requestError s a))) ∧
  (s.beam.waiting = [] → masterFenced s a.master = true → exec (.beamRequest [a] []) s = .next s) ∧
  (12 ≤ x → x ≤ 14 → burstOk b = true → a.write = false → b.write = false → a.locked = false → b.locked = false →
    masterFenced s a.master = false → masterFenced s b.master = false → a.master ≠ b.master → targetOf b.addr = some x →
    0 < pairPri s b.master x → pairPri s b.master x < pairPri s a.master x → 32 ≤ (mget (32, 0) s.beam.locks x).1 →
    (heldTags s).count a.master < 2 → (heldTags s).count b.master < 2 →
    (x = 14 → tallyHeld s a.master = false ∧ tallyHeld s b.master = false) →
    (s.beam.waiting = [] → Gives (.beamRequest [a, b] []) s (fun t =>
      t.out = s.out ++ [.beamData a.master a.addr (regBytes s a.addr a.len)] ∧ t.beam.waiting = [Waiting.mk b 1 false] ∧
      t.mem = s.mem)) ∧
    (∀ lost ad, 16 ≤ lost → s.beam.waiting = [Waiting.mk b lost ad] → 3 ≤ sinceAged s x → Gives (.beamRequest [a] []) s (fun t =>
      t.out = s.out ++ [.beamData b.master b.addr (regBytes s b.addr b.len)] ∧ t.beam.waiting = [Waiting.mk a 1 false] ∧
      sinceAged t x = 0 ∧ t.mem = s.mem)))

/-- LOCKED_SEQUENCE, LOCK_TIMEOUT and MASTER_RESET (R258, R259, R261). -/
def Obligations.BeamLocks : Prop := ∀ (s : State) (m : Nat), m < 32 →
  (∀ q x, targetOf q.addr = some x → lockAllowed m x = false → burstOk { q with master := m } = true → masterFenced s m = false →
    Gives (.lockedSequence m [q]) s (fun t =>
      t.beam = { s.beam with errAddr := q.addr % 2 ^ 40, errMas := m, errCau := 3, errVal := true } ∧ t.mem = s.mem ∧
      t.out = (if q.write then s.out else s.out ++ [.beamData m q.addr (List.replicate q.len 0#8)]))) ∧
  (∀ q1 q2 x, lockAllowed m x = true → s.beam.locks = [] → Served s m x → q1.write = false → q2.locked = false → beatsOf q1 + beatsOf q2 ≤ 16 →
    burstOk { q1 with master := m } = true → burstOk { q2 with master := m } = true → targetOf q1.addr = some x →
    targetOf q2.addr = some x → Gives (.lockedSequence m [q1, q2]) s (fun t => t.beam.waiting = [] ∧
      mget (32, 0) t.beam.locks x = (32, 0) ∧
      (q2.write = false → ∃ d1 d2, t.out = s.out ++ [.beamData m q1.addr d1, .beamData m q2.addr d2]) ∧
      (q2.write = true → x < 8 → (∃ d1, t.out = s.out ++ [.beamData m q1.addr d1]) ∧
        ∀ i, i < q2.len → q2.strobe.getD i false = true → memByte t.mem (q2.addr + i) = q2.data.getD i 0))) ∧
  (∀ x ns, (mget (32, 0) s.beam.locks x).1 < 32 → lockTimeoutNs s ≤ ns → Gives (.lockTimeout x ns) s (fun t =>
    mget (32, 0) t.beam.locks x = (32, 0) ∧ (∀ y, y ≠ x → mget (32, 0) t.beam.locks y = mget (32, 0) s.beam.locks y) ∧
    t.beam.waiting = s.beam.waiting.filter (fun w =>
      !(decide (w.req.master = (mget (32, 0) s.beam.locks x).1) && decide (targetOf w.req.addr = some x))) ∧
    t.stget 0 0x70E0 0x02 = min (s.stget 0 0x70E0 0x02 + 1) (2 ^ 32 - 1) ∧ t.mem = s.mem)) ∧
  (∀ x ns, ns < lockTimeoutNs s → exec (.lockTimeout x ns) s = .next s) ∧
  Gives (.masterReset m) s (fun t => ∀ r ∈ portRods m, (t.rod r).st = .stopped ∧ (t.rod r).item = none ∧ (t.rod r).xfers = []) ∧
  (onBeam s m = true → Gives (.masterReset m) s (fun t =>
    t.beam.waiting = s.beam.waiting.filter (fun w => w.req.master ≠ m) ∧
    t.stget 0 0x70E0 0x03 = min (s.stget 0 0x70E0 0x03 + 1) (2 ^ 32 - 1) ∧ t.stget 0xFF 0x70E0 0x04 = m)) ∧
  (onBeam s m = false → Gives (.masterReset m) s (fun t => t.beam = s.beam ∧ t.stget 0 0x70E0 0x03 = s.stget 0 0x70E0 0x03 ∧
    (8 ≤ m → t = s)))

/-- XFER_COMPLETE (R28, R218, R219, R254 to R258). -/
def Obligations.MoverTransfers : Prop := ∀ (s : State) (r : Nat) (x : Xfer) (rest : List Xfer), r < 64 →
  (s.rod r).xfers = x :: rest → x.at_ = 0 → x.held = false → x.dm + x.len ≤ 0x40000 → 0 < x.len → (s.rod r).errs = [] →
  (s.rod r).ending = none → (s.rod r).wait = none ∨ (s.rod r).wait = some .stall →
  (∀ q off, q < 64 → q ≠ r → x.out = false → x.far = rodWindow q off → off + x.len ≤ 0x40000 →
    (s.rod q).st = .stopped ∨ (s.rod q).st = .faulted → (s.rod q).fenced = false → s.testing q = false →
    s.testing (0x100 + q / 8) = false → (s.rod q).errs = [] → Served s (r / 8) (15 + q / 8) →
    Gives (.xferComplete r []) s (fun t => t.rod r = { s.rod r with xfers := rest, wait := none } ∧
      (∀ p, p ≠ r → t.rod p = s.rod p) ∧
      (∀ i, i < x.len → memByte t.mem (rodWindow r (x.dm + i)) = memByte s.mem (x.far + i)) ∧
      ∀ b, b < rodWindow r x.dm ∨ rodWindow r x.dm + x.len ≤ b → memByte t.mem b = memByte s.mem b)) ∧
  (∀ k, x.out = true → x.far + x.len ≤ 0x04000000 → x.far % 256 + x.len ≤ 256 → s.ledger.errs = [] → targetOf x.far = some k →
    Served s (r / 8) k →
    Gives (.xferComplete r []) s (fun t => t.rod r = { s.rod r with xfers := rest, wait := none } ∧
      (∀ p, p ≠ r → t.rod p = s.rod p) ∧
      (∀ i, i < x.len → memByte t.mem (x.far + i) = memByte s.mem (rodWindow r (x.dm + i))) ∧
      ∀ b, b < x.far ∨ x.far + x.len ≤ b → memByte t.mem b = memByte s.mem b)) ∧
  (∀ k, targetOf x.far = some k → Waits s (r / 8) k → Gives (.xferComplete r []) s (fun t =>
    t = s.setRod r { s.rod r with xfers := { x with waits := true } :: rest }))

/-- LEDGER_SCRUB, and a Ledger write (R270 to R274). -/
def Obligations.LedgerScrubbing : Prop := ∀ s : State, s.ledger.ready = true →
  (∀ ups, Gives (.ledgerScrub ups) s (fun t => t.ledger.queue = [] ∧
    t.ledger.line = (if s.ledger.line + 1 < 16384 then s.ledger.line + 1 else 0))) ∧
  (∀ w b, s.ledger.queue = [] → s.ledger.repair = [] → s.ledger.retry = [] → s.ledger.errs = [(w, some b)] → b < 72 →
    lineOf w = s.ledger.line → Gives (.ledgerScrub []) s (fun t => t.ledger.errs = [] ∧ t.mem = s.mem ∧ Counts s t 0x7400 0x01 1 ∧
      (w, b) ∈ (if s.ledger.line + 1 < 16384 then t.ledger.this else t.ledger.last) ∧
      t.ledger.line = (if s.ledger.line + 1 < 16384 then s.ledger.line + 1 else 0) ∧
      t.ledger.repair = (if s.ledger.last.contains (w, b) then [(bankOf w, lineOf w + 1)] else []))) ∧
  (∀ bank l, s.ledger.queue = [] → s.ledger.errs = [] → s.ledger.retry = [] → s.ledger.repair = [(bank, l + 1)] →
    sparesUsed s.ledger.remap bank < 16 →
    Gives (.ledgerScrub []) s (fun t => t.mem = s.mem ∧ t.ledger.repair = [] ∧ t.nv.remap = t.ledger.remap ∧
      mget 0 t.ledger.remap (bank * 16384 + l) = sparesUsed s.ledger.remap bank + 1 ∧
      ∀ k, k ≠ bank * 16384 + l → mget 0 t.ledger.remap k = mget 0 s.ledger.remap k)) ∧
  (∀ m a v x, v < 2 ^ 32 → a < 0x04000000 → a % 4 = 0 → targetOf a = some x → Served s m x →
    Gives (.registerWrite m a v) s (fun t => mget none t.ledger.errs (a / 8 * 8) = none ∧
      (∀ i, i < 4 → memByte t.mem (a + i) = BitVec.ofNat 8 (v / 2 ^ (8 * i))) ∧
      (∀ b, b / 8 = a / 8 → b < a ∨ a + 4 ≤ b → memByte t.mem b = ledgerByte s b) ∧
      ∀ b, b / 8 ≠ a / 8 → memByte t.mem b = memByte s.mem b))

/-- REFRESH_DUE, SELF_REFRESH_ENTRY and EXIT, MODE_REGISTER_READ, OSCILLATOR_MEASURE, PATROL_SCRUB, SPARE_RANK_TEST. -/
def Obligations.DramUpkeep : Prop := ∀ s : State,
  (s.dram.state = 2 →
    (s.dram.debt < 8 → Gives (.refreshDue true) s (fun t => t.dram = { s.dram with debt := s.dram.debt + 1 } ∧
      t.stget 0 0x7410 0x08 = max (s.stget 0 0x7410 0x08) (s.dram.debt + 1) ∧ t.mem = s.mem)) ∧
    (8 ≤ s.dram.debt → exec (.refreshDue true) s = .next s) ∧
    Gives (.refreshDue false) s (fun t => t.dram.debt = 0 ∧ (∀ e ∈ t.dram.rows, e ∈ s.dram.rows) ∧ t.mem = s.mem ∧ t.stat = s.stat) ∧
    (s.val 0 0x7410 0x02 = 0 → Gives (.refreshDue false) s (fun t => t = { s with dram := { s.dram with debt := 0, rows := [] } })) ∧
    (s.flag 0x7450 0x02 = true → s.flag 0x1100 0x03 = false → dramWanted s = false → idleDue s < tickLen s.clk.tick →
      Gives (.selfRefreshEntry false) s (fun t => t.dram.debt = 0 ∧ t.dram.rows = [] ∧ t.dram.state = 3 ∧
        t.stget 0 0x7410 0x01 = 3 ∧ t.mem = s.mem) ∧
      Gives (.selfRefreshEntry true) s (fun t => t.dram.debt = 0 ∧ t.dram.state = 2 ∧ t.dram.lastReq = t.clk.local ∧
        t.stat = s.stat ∧ t.mem = s.mem)) ∧
    (∀ asked, s.flag 0x7450 0x02 = false ∨ s.flag 0x1100 0x03 = true ∨ dramWanted s = true ∨ (tickLen s.clk.tick : Int) ≤ idleDue s →
      exec (.selfRefreshEntry asked) s = .next s) ∧
    (deepWaits s = false →
      (∀ ranks : List (Nat × Nat × Bool), (∀ e ∈ ranks, e.2.2 = true) → Gives (.modeRegisterRead ranks) s (fun t =>
        t.dram = s.dram ∧ t.mem = s.mem ∧ (∀ e ∈ ranks, e.2.1 ≤ t.stget 1 0x7410 0x07) ∧ 1 ≤ t.stget 1 0x7410 0x07 ∧
        (t.stget 1 0x7410 0x07 = 1 ∨ ∃ e ∈ ranks, t.stget 1 0x7410 0x07 = e.2.1))) ∧
      (∀ p rate, s.dram.mig = none → s.dram.trigger = none → (rankOf s p).state = .inService → (readySpare s).isSome = true →
        Gives (.modeRegisterRead [(p, rate, false)]) s (fun t => t.dram = { s.dram with trigger := some p } ∧
          t.stget 1 0x7410 0x07 = max 1 rate)) ∧
      (∀ drifts, Gives (.oscillatorMeasure drifts) s (fun t => t.mem = s.mem ∧ (∀ e ∈ drifts, e.2 ≤ t.stget 0 0x7440 0x08) ∧
        (t.stget 0 0x7440 0x08 = 0 ∨ ∃ e ∈ drifts, t.stget 0 0x7440 0x08 = e.2))) ∧
      (∀ p d, p < 4 → Gives (.oscillatorMeasure [(p, d)]) s (fun t => t.stget 0 0x7440 0x08 = d ∧ t.mem = s.mem ∧
        (rankOf t p).drift = (if (rankOf s p).drift + 2 < d then (rankOf s p).drift + 1 else (rankOf s p).drift) ∧
        t.stget 0 0x7440 0x09 = (if 8 < d ∧ s.stget 0 0x7440 0x09 = 0 then 1 else s.stget 0 0x7440 0x09) ∧
        (8 < d → s.stget 0 0x7440 0x09 = 0 → ∀ x, t.dram.training = some x → x.stale = true))) ∧
      (∀ n ups, Gives (.patrolScrub n ups) s (fun t => t.dram.patrol = (s.dram.patrol + n) % (3 * slotBytes / 64))) ∧
      (∀ n w b, s.dram.errs = [(w, b)] → dramBase ≤ w → ((w - dramBase) / 64 + 3 * slotBytes / 64 - s.dram.patrol) % (3 * slotBytes / 64) < n →
        s.dram.poison = [] → s.dram.mig = none → s.val 0 0x7410 0x05 = 0 → Gives (.patrolScrub n []) s (fun t =>
          t.mem = s.mem ∧
          (∀ k, b = some k → k < 72 → t.dram.errs = [] ∧ t.dram.poison = [] ∧
            let i := 0x7420 + rankAt s (w / 64 * 64)
            t.stget 0 i 0x03 = min (s.stget 0 i 0x03 + 1) (2 ^ 32 - 1)) ∧
          (b = some uncorrectable → w / 64 * 64 ∈ t.dram.poison))) ∧
      (∀ p, anySpare s = some p →
        Gives (.spareRankTest false) s (fun t => (rankOf t p).state = .failed ∧
          (∀ q, q ≠ p → rankOf t q = rankOf s q) ∧ t.nv.ranks = t.dram.ranks ∧ t.mem = s.mem) ∧
        Gives (.spareRankTest true) s (fun t => t = setRank s p { rankOf s p with state := .spareReady })) ∧
      (∀ pass, anySpare s = none → exec (.spareRankTest pass) s = .next s)) ∧
    (deepWaits s = true → ∀ c ∈ [Instr.modeRegisterRead [], .oscillatorMeasure [], .patrolScrub 1 [], .spareRankTest false],
      exec c s = .next s)) ∧
  (∀ a, s.dram.state = 3 → inDram a = true → Gives (.selfRefreshExit a) s (fun t => t.stget 0 0x7410 0x01 = 2 ∧
    t.dram.state = 2 ∧ (s.dram.late = [] → t.mem = s.mem ∧ t.dram = { s.dram with state := 2, late := [], lastReq := s.clk.local })))

/-- MIGRATE_RANK, MIGRATION_START and MIGRATION_SWITCH (R294 to R298). -/
def Obligations.RankMigration : Prop := ∀ (s : State) (p q slot : Nat), p < 4 →
  (s.gate (0x7420 + p) = 0 → (rankOf s p).state = .inService → (readySpare s).isSome = true → s.dram.mig = none → s.dram.trigger = none →
    (s.dram.state = 2 → Gives (.migrateRank p 1) s (fun t => t = { s with dram := { s.dram with trigger := some p } })) ∧
    (s.dram.state ≠ 2 → Gives (.migrateRank p 1) s (fun t => t = { s with dram := { s.dram with
      late := s.dram.late ++ [(p, false)] } }))) ∧
  (s.gate (0x7420 + p) = 0 → (rankOf s p).state = .inService → exec (.migrateRank p 0) s = .next s) ∧
  ((rankOf s p).state ≠ .inService → Declines (.migrateRank p 1) s Abort.conflict) ∧
  (s.dram.trigger = some p → s.dram.mig = none → s.dram.state = 2 → readySpare s = some q → (rankOf s p).slot = some slot →
    (rankOf s p).state = .inService → Gives .migrationStart s (fun t => (rankOf t p).state = .migFrom ∧ (rankOf t q).state = .migTo ∧
      (rankOf t p).slot = some slot ∧ t.dram.mig = some (Migration.mk p q slot 0 s.clk.tick [] [] []) ∧ t.dram.trigger = none ∧
      t.stget 0 0x7430 0x01 = 1 ∧ t.mem = s.mem ∧ ∀ k, k ≠ p → k ≠ q → rankOf t k = rankOf s k)) ∧
  (∀ c b sv kp lo, p ≠ q → s.dram.mig = some (Migration.mk p q slot c b sv kp lo) →
    (c < slotUnits → exec .migrationSwitch s = .next s) ∧
    (slotUnits ≤ c → Gives .migrationSwitch s (fun t => (rankOf t q).state = .inService ∧ (rankOf t q).slot = some slot ∧
      (rankOf t p).state = .retired ∧ (rankOf t p).slot = none ∧ t.dram.mig = none ∧ t.nv.ranks = t.dram.ranks ∧
      t.stget 0 0x7430 0x01 = 2 ∧ t.stget 0 0x7430 0x06 = s.clk.tick ∧ t.mem = s.mem ∧
      ∀ k, k ≠ p → k ≠ q → rankOf t k = rankOf s k)))

/-- The deadlines of the stages (R40 to R46, R140, R142): PLACEMENT_PUBLISH, PLACEMENT_DEADLINE, DELAY_MATRIX_DEADLINE, OUTPUT_BUS_DEADLINE
and EGRESS_DEADLINE. -/
def Obligations.StageDeadlines : Prop := ∀ (s : State) (at_ o : Nat) (inc slots aes drives : List Nat), s.ticking = true →
  let counted : State → Nat → Prop → Prop := fun t sub missed =>
    (missed → t.stget 0 0x1100 sub = min (s.stget 0 0x1100 sub + 1) (2 ^ 32 - 1)) ∧
    (¬ missed → t.stget 0 0x1100 sub = s.stget 0 0x1100 sub)
  (at_ ≤ 120000 → ∀ u, u = s.elapse at_ →
    (s.pipe.rendering = true → s.pipe.published = false → Gives (.placementPublish at_) s (fun t =>
      t.pipe.published = true ∧ t.pipe.xcur = s.pipe.xcur ∧ t.clk = u.clk ∧ t.stat = s.stat ∧
      (∀ i ∈ activeSlides s, (slideOf t i).done = 0 ∧ (slideOf t i).issued = min 32 (slideOf t i).order.length) ∧
      ∀ i ∈ activeSlides s, ∀ j ∈ activeSlides s, ∀ f a b,
        (a, f) ∈ (slideOf t i).order → (b, f) ∈ (slideOf t j).order → i = j)) ∧
    (s.pipe.rendering = false ∨ s.pipe.published = true → exec (.placementPublish at_) s = .next u)) ∧
  (s.pipe.rendering = true → s.pipe.published = false → Gives (.placementDeadline inc) s (fun t => t.pipe.published = true ∧
    (∀ p ∈ inc, p < 512 → (t.obj p).pfade = .silent 0) ∧ (∀ x, x.o ∉ inc → (x ∈ t.pipe.xcur ↔ x ∈ s.pipe.xcur)) ∧
    counted t 0x06 (∃ p ∈ inc, p < 512))) ∧
  (s.pipe.rendering = true → s.pipe.published = false → o < 512 → (s.obj o).pfadeB = .ok → Gives (.placementDeadline [o]) s (fun t =>
    (∀ x ∈ t.pipe.xcur, x.o = o → x.kind = .continuing ∧ x.d0 = x.d1 ∧ x.g0 = x.g1) ∧ counted t 0x06 True)) ∧
  (s.pipe.rendering = false ∨ (s.pipe.published = true ∧ s.pipe.judgedPl = true) →
    exec (.placementDeadline inc) s = .next (s.elapse 120000)) ∧
  (s.pipe.rendering = true → s.pipe.judgedDm = false → Gives .delayMatrixDeadline s (fun t => t.pipe.judgedDm = true ∧
    (∀ f, f ∈ t.pipe.missDm ↔ (∃ x ∈ s.pipe.xcur, x.f = f) ∧ ∀ e ∈ s.pipe.rendered, e.1 ≠ f) ∧
    counted t 0x07 (t.pipe.missDm ≠ []))) ∧
  (s.pipe.rendering = false ∨ s.pipe.judgedDm = true → exec .delayMatrixDeadline s = .next (s.elapse (stageDeadline s))) ∧
  (busRuns s = true → s.pipe.judgedOb = false → Gives (.outputBusDeadline inc slots) s (fun t => t.pipe.judgedOb = true ∧
    (∀ f, f ∈ t.pipe.missOb ↔ f ∈ chainFeeds s ∧ f ∈ inc) ∧ t.pipe.missUser = lateSlots s slots ∧
    counted t 0x08 (t.pipe.missOb ≠ [] ∨ t.pipe.missUser ≠ []))) ∧
  (busRuns s = false ∨ s.pipe.judgedOb = true → exec (.outputBusDeadline inc slots) s = .next (s.elapse (stageDeadline s))) ∧
  (s.pipe.judgedEg = false → Gives (.egressDeadline slots aes drives) s (fun t => t.pipe.judgedEg = true ∧
    (∃ d, t.twin.digests = (d :: s.twin.digests).take 4 ∧ d.block = s.clk.tick - 3) ∧
    counted t 0x09 (egressScope s slots aes drives ≠ ([], [], [])) ∧ (s.byp.partic ≠ .inRing → t.out = s.out)))

/-- SPAN_DELIVERED, FEED_RENDER, INGRESS_COMMIT and RETIRE_SLIDE (R40, R42, R50, R132, R133, R140, R523, R564). -/
def Obligations.RenderWork : Prop := ∀ (s : State) (at_ i o f : Nat),
  (∀ u, u = s.elapse at_ → let e := slideOf u i; let work := toRender e f
    (∀ x, u.pipe.rendering = true → u.pipe.published = true → i < 18 →
      u.pipe.xcur.find? (fun x => decide (x.o = o) && decide (x.f = f)) = some x →
      (o, f) ∈ (e.order.take e.issued).drop e.done → e.holds (o, f) = false →
      Gives (.spanDelivered at_ i o f) s (fun t => (slideOf t i).have_ = e.have_ ++ [spanNow u x] ∧
        (slideOf t i).order = e.order ∧ (slideOf t i).done = e.done ∧
        (slideOf t i).issued = e.issued ∧ (∀ j, j ≠ i → slideOf t j = slideOf u j) ∧
        t.pipe.rendered = u.pipe.rendered ∧ t.clk = u.clk ∧ (u.dram.mig = none → t.mem = s.mem))) ∧
    (u.pipe.rendering = false ∨ u.pipe.published = false ∨ 18 ≤ i ∨
        (o, f) ∉ (e.order.take e.issued).drop e.done ∨ e.holds (o, f) = true →
      exec (.spanDelivered at_ i o f) s = .next u) ∧
    (dmOpen u = true → engineAt u f = some i → work.Nodup →
      ((∀ q ∈ work, e.holds q = true) → Gives (.feedRender at_ f) s (fun t =>
        (∃ taken, taken.map (fun p => (p.object, p.feed)) = work ∧ (∀ p ∈ taken, p ∈ e.have_) ∧
          mget [] t.pipe.rendered f = renderBlock u (e.used ++ taken) (feedXs u f)) ∧
        (∀ g, g ≠ f → mget [] t.pipe.rendered g = mget [] u.pipe.rendered g) ∧
        (slideOf t i).done = e.done + work.length ∧ (slideOf t i).stall = none ∧ t.mem = s.mem)) ∧
      (∀ k q, work[k]? = some q → (∀ p ∈ work.take k, e.holds p = true) → e.holds q = false → Gives (.feedRender at_ f) s (fun t =>
        t.pipe.rendered = u.pipe.rendered ∧ (slideOf t i).stall = some f ∧ (slideOf t i).done = e.done + k ∧
        (slideOf t i).issued = max e.issued (min e.order.length (e.done + k + 33)) ∧ t.mem = s.mem))) ∧
    (dmOpen u = false ∨ engineAt u f = none → exec (.feedRender at_ f) s = .next u)) ∧
  (∀ missed pdm, s.ticking = true → s.pipe.inNow = none → commits s = true → Gives (.ingressCommit missed pdm) s (fun t =>
    let u := s.elapse (tickLen s.clk.tick - 4000)
    let taken := (rxSlots u).foldl (fun s i => shadowCutoff s i s.clk.tick) u
    let first := firstBlock taken 0
    t.pipe.inNow = some (pdmCommit pdm (aesCommit (rxCommit (if first then portsRise (freshLines taken) else taken) first))).2 ∧
    ((∀ x ∈ objectsOn s, x ∉ missed) → t.stget 0 0x1100 0x05 = s.stget 0 0x1100 0x05) ∧
    ((∃ x ∈ objectsOn s, x ∈ missed) → t.stget 0 0x1100 0x05 = min (s.stget 0 0x1100 0x05 + 1) (2 ^ 32 - 1)) ∧
    Gives (.ingressCommit missed pdm) t (fun v => v.mem = t.mem ∧ v.pipe = t.pipe ∧ v.rx = t.rx))) ∧
  (∀ missed pdm, s.ticking = false → exec (.ingressCommit missed pdm) s = .next s) ∧
  (i < 18 → s.gate (0x7020 + i) = 0 → (slideOf s i).st = .inService → 15 ≤ (setDel i (usableSlides s)).length →
    Gives (.retireSlide i 1) s (fun t => (slideOf t i).st = .retired ∧ i ∈ t.nv.slides ∧ t.val 0 (0x7020 + i) 0x02 = 1 ∧
      ∀ j, (List.range 18).find? (fun j => decide ((slideOf s j).st = .spare)) = some j → (slideOf t j).st = .inService))

/-- TICK_BOUNDARY (R34, R38, R39, R75, R477). -/
def Obligations.TickBoundaryAdvances : Prop := ∀ (s : State) (obs : BoundaryObs),
  (s.ticking = true → s.Live → 3900 ≤ obs.vinMv → Gives (.tickBoundary obs) s (fun t => t.clk.tick = s.clk.tick + 1 ∧ t.clk.ofs = 0 ∧
    t.clk.snapTickLo = BitVec.ofNat 32 (s.clk.tick + 1) ∧ t.clk.snapTickHi = BitVec.ofNat 32 ((s.clk.tick + 1) / 2 ^ 32) ∧
    t.clk.snapNs = BitVec.ofInt 32 t.clk.local ∧ t.clk.snapCarry = BitVec.ofInt 32 (t.clk.local / 2 ^ 32) ∧
    t.hist = (s.dict :: s.hist).take 6 ∧ t.domHist = (s.dom :: s.domHist).take 6 ∧ t.power.vinMv = obs.vinMv ∧
    t.power.temp = obs.temp ∧ t.power.powerMw = obs.powerMw ∧ (t.power.lowVin = true ↔ obs.vinMv < 4500))) ∧
  (s.ticking = true → s.Live → obs.vinMv < 3900 → Gives (.tickBoundary obs) s (fun t =>
    t.power.inReset = true ∧ t.power.pgood = false ∧ t.nv = s.nv ∧ t.mem = [])) ∧
  (s.ticking = false → exec (.tickBoundary obs) s = .next s)

/-- ANNOUNCE_RECEIVED, QUALIFICATION_END, ANNOUNCE_TIMEOUT, SYNC_LOSS, DELAY_MEASUREMENT_COMPLETE (R61, R83 to R85, R100). -/
def Obligations.MasterSelection : Prop := ∀ (s : State) (at_ port d : Nat) (a : Announce) (c m : Master),
  let window := s.val 4 0x2000 0x0D
  (∀ u, u = s.elapse at_ →
    (announceHeard u a = true → u.time.master = none → u.time.state ≠ .grandmaster →
      (u.time.cand = none → Gives (.announceReceived at_ a) s (fun t =>
        t.clk = u.clk ∧ t.time = { u.time with cand := some (Master.mk a u.clk.tick 1 window) })) ∧
      (u.time.cand = some c → c.ann.identity = a.identity → c.ann.port = a.port → Gives (.announceReceived at_ a) s (fun t =>
        t.time = { u.time with cand := some { c with ann := a, heard := c.heard + 1 } }))) ∧
    (announceHeard u a = true → u.time.master = some m → u.time.state ≠ .grandmaster → u.time.other = none →
      m.ann.identity = a.identity → m.ann.port = a.port → Gives (.announceReceived at_ a) s (fun t =>
        t.time.master = some { m with ann := a } ∧ t.time.other = none ∧ t.time.state = u.time.state ∧ t.stget 0 0x2010 0x09 = a.steps ∧
        t.time.cand = u.time.cand.filter (fun c => selects u c.ann a))) ∧
    (announceHeard u a = true → u.time.state = .grandmaster → beatsGrandmaster u a = false →
      exec (.announceReceived at_ a) s = .next (if 2 ≤ a.port then u.heard a.port else u)) ∧
    (announceHeard u a = false → exec (.announceReceived at_ a) s = .next (if 2 ≤ a.port then u.heard a.port else u))) ∧
  (s.time.cand = some c → intervalTicks (announceLog s) c.window ≤ s.clk.tick - c.since →
    (s.time.state = .grandmaster → beatsGrandmaster s c.ann = false → Gives .qualificationEnd s (fun t =>
      t = { s with time := { s.time with cand := none } })) ∧
    (s.time.state ≠ .grandmaster → c.heard < 2 → Gives .qualificationEnd s (fun t =>
      t = { s with time := { s.time with cand := some (Master.mk c.ann s.clk.tick 0 window) } })) ∧
    (s.time.state ≠ .grandmaster → 2 ≤ c.heard → Gives .qualificationEnd s (fun t => t.time.master = some c ∧ t.time.cand = none ∧ t.time.qualified = true ∧
      t.stget 0 0x2010 0x08 = c.ann.identity ∧ t.clk = s.clk ∧
      (s.time.qualified = false → s.flag 0x1100 0x03 = false → t.time.state = .acquiring) ∧
      (s.time.qualified = true ∨ s.flag 0x1100 0x03 = true → t.time.await = true)))) ∧
  (s.time.cand = none → exec .qualificationEnd s = .next s) ∧
  (s.time.cand = some c → s.clk.tick - c.since < intervalTicks (announceLog s) c.window → exec .qualificationEnd s = .next s) ∧
  (s.time.master = some m → s.time.state ∈ [TimeState.free, .acquiring, .locked] → s.time.other = none → s.flag 0x2000 0x0A = false →
    Gives (.announceTimeout m.ann.port) s (fun t => t.time.master = none ∧ t.time.cand = none ∧ t.time.state = .holdover ∧
      t.time.target = s.time.meanFreq ∧ t.time.rate = s.time.rate ∧ t.time.holdTick = s.clk.tick ∧ t.clk = s.clk)) ∧
  (s.time.master = some m → s.time.state ∈ [TimeState.free, .acquiring, .locked] → followsTwin s = false → Gives .syncLoss s (fun t => t.time.master = none ∧
    t.time.cand = some (Master.mk m.ann s.clk.tick 0 window) ∧ t.time.state = .holdover ∧ t.time.target = s.time.meanFreq ∧
    t.time.rate = s.time.rate ∧ t.clk = s.clk)) ∧
  (s.time.master = none ∨ followsTwin s = true → exec .syncLoss s = .next s) ∧
  Gives (.delayMeasurementComplete port d) s (fun t => mget none t.time.mpd port = some d ∧
    (∀ p, p ≠ port → mget none t.time.mpd p = mget none s.time.mpd p) ∧ t.time.state = s.time.state ∧
    (s.time.master = some m → m.ann.port = port → t.stget 0 0x2010 0x07 = d))

/-- SYNC_RECEIVED and the rebase (R81 to R92). -/
def Obligations.ServoAndRebase : Prop := ∀ (s : State) (at_ b d : Nat) (e : Int) (m : SyncMsg),
  (∀ u delay, u = s.elapse at_ → syncAccepted u m = true → mget none u.time.mpd m.port = some delay →
    let o := syncOffset u m delay
    let w := if m.port = 3 ∧ twinMeasures u = true then { u.time with twinOffs := some o } else u.time
    (u.time.state = .locked → u.time.await = false → iabs o ≤ 1000 → Gives (.syncReceived at_ m) s (fun t =>
      t.time = servo w (u.val 2 0x2000 0x0E) o ∧ t.stget 0 0x2010 0x05 = arg32 o ∧ t.clk = u.clk)) ∧
    (u.time.state = .locked → 1000 < iabs o → Gives (.syncReceived at_ m) s (fun t =>
      t.time.state = .rebaseConfirm ∧ t.time.cons = [o] ∧ t.time.target = u.time.freq ∧ t.clk = u.clk)) ∧
    (u.time.state = .acquiring → u.time.setDone = false → u.flag 0x1100 0x03 = false → 0 ≤ u.clk.local + o →
      u.clk.local + o < 2 ^ 64 → Gives (.syncReceived at_ m) s (fun t =>
        t.clk.local = u.clk.local + o ∧ t.clk.wrapPend = false ∧ t.time.setDone = true ∧ t.time.state = .acquiring)) ∧
    (u.time.state = .acquiring → u.time.setDone = true → iabs o ≤ 1000 → Gives (.syncReceived at_ m) s (fun t =>
      t.time.state = .locked ∧ t.time.await = false ∧ t.clk = u.clk)) ∧
    (u.time.state = .rebaseConfirm → u.time.await = false → u.time.decided = none → u.clk.rebase = none → iabs o ≤ 1000 →
      Gives (.syncReceived at_ m) s (fun t => t.time.state = .locked ∧ t.time.cons = [] ∧ t.clk = u.clk ∧
        t.stget 0 0x2010 0x0E = min (s.stget 0 0x2010 0x0E + 1) (2 ^ 32 - 1)))) ∧
  (∀ u, u = s.elapse at_ → m.port < 2 → syncAccepted u m = false → exec (.syncReceived at_ m) s = .next u) ∧
  (s.twin.role = .standby → Gives (.rebaseValuesReceived e b) s (fun t => t.clk = { s.clk with rebase := some (e, b) } ∧
    t.time.decided = none ∧ t.stget 0 0x2010 0x0C = b ∧ t.stget 0 0x2010 0x0B = min (s.stget 0 0x2010 0x0B + 1) (2 ^ 32 - 1))) ∧
  (s.twin.role ≠ .standby → exec (.rebaseValuesReceived e b) s = .next s) ∧
  (s.time.decided = some (e, b, d) →
    (d + 2 ≤ s.clk.tick → Gives .rebaseFallback s (fun t => t.clk = { s.clk with rebase := some (e, b) } ∧
      t.time.decided = none ∧ t.twin.marks = s.twin.marks ++ [(b, 6)])) ∧
    (s.clk.tick < d + 2 → exec .rebaseFallback s = .next s)) ∧
  (s.clk.rebase = some (e, b) →
    (b ≤ s.clk.tick → Gives .rebaseApply s (fun t =>
      t.clk = { s.clk with epochPrev := s.clk.epoch, epoch := e, epochB := b, rebase := none } ∧
      (∀ x, b ≤ x → t.clk.epochFor x = e) ∧ (∀ x, x < b → t.clk.epochFor x = s.clk.epoch) ∧
      t.clk.tick = s.clk.tick ∧ t.clk.local = s.clk.local ∧
      t.time.state = (if s.time.state = .rebaseConfirm then .locked else s.time.state))) ∧
    (s.clk.tick < b → exec .rebaseApply s = .next s))

/-- COUNTER_WRAP, TU_CARRY_WRITE, CARRY_LOST_CLEAR and TIME_CONFIG_WRITE (R59, R60, R67, R70, R74, R99). -/
def Obligations.CounterAndConfiguration : Prop := ∀ (s : State) (v p sub : Nat),
  let left := 2 ^ 32 - s.clk.ns.toNat
  let ends := s.time.state = .rebaseConfirm
  (s.ticking = true → s.clk.ofs + left < tickLen s.clk.tick → s.clk.wrapPend = false → Gives .counterWrap s (fun t =>
    t.clk = { s.clk with ns := 0, wrapPend := true, ofs := s.clk.ofs + left })) ∧
  (s.ticking = true → s.clk.ofs + left < tickLen s.clk.tick → s.clk.wrapPend = true → Gives .counterWrap s (fun t =>
    t.clk = { s.clk with ns := 0, carryLost := true, ofs := s.clk.ofs + left,
                         rebase := if ends ∧ s.time.master.isSome = true then none else s.clk.rebase } ∧
    (s.time.master.isSome = true → t.time.state = .holdover))) ∧
  (tickLen s.clk.tick ≤ s.clk.ofs + left → exec .counterWrap s = .next s) ∧
  Gives (.tuCarryWrite v) s (fun t => t = { s with clk := { s.clk with carry := BitVec.ofNat 32 v, wrapPend := false } }) ∧
  Gives .carryLostClear s (fun t => t = { s with clk := { s.clk with carryLost := false } }) ∧
  (s.gate 0x2000 = 0 → timeCheck s 0x2000 sub v = 0 →
    (sub ∈ [3, 4, 5, 6, 7, 8, 0x0B, 0x0D, 0x0E] → Gives (.timeConfigWrite 0x2000 sub v) s (fun t =>
      t = s.put (timeDefault sub) 0x2000 sub v)) ∧
    (sub = 1 → 0 < v → Gives (.timeConfigWrite 0x2000 sub v) s (fun t => clockRole t = v)) ∧
    (sub = 2 → Gives (.timeConfigWrite 0x2000 sub v) s (fun t => t.val 1 0x2000 2 = v ∧ t.time = s.time ∧
      ∀ e ∈ profileValues v, t.val (timeDefault e.1) 0x2000 e.1 = e.2)) ∧
    (sub = 9 → Gives (.timeConfigWrite 0x2000 sub v) s (fun t => t.val 1 0x2000 9 = v ∧ t.time.state = s.time.state)) ∧
    (sub = 0x0A → Gives (.timeConfigWrite 0x2000 sub v) s (fun t => t.val 0 0x2000 0x0A = v ∧
      (v = 0 → s.time.state = .grandmaster → t.time.state ≠ .grandmaster)))) ∧
  (v < 2 ∨ 10 < v → Declines (.timeConfigWrite 0x2000 0x07 v) s Abort.range) ∧
  (s.gate 0x2000 = 0 → s.flag 0x1100 0x03 = false → Gives (.timeConfigWrite 0x2000 0x01 0) s (fun t =>
    t.time.state = .free ∧ t.time.master = none ∧ t.time.cand = none ∧ t.time.target = 0 ∧ t.time.rate = s.time.rate ∧
    clockRole t = 0 ∧ t.clk = { s.clk with rebase := if ends then none else s.clk.rebase })) ∧
  (v ≤ 3 → s.flag 0x1100 0x03 = true → Declines (.timeConfigWrite 0x2000 0x01 v) s Abort.conflict) ∧
  (p < 4 → s.gate (0x2020 + p) = 0 → v < 2 ^ 32 →
    (1 ≤ sub → sub ≤ 2 → Gives (.timeConfigWrite (0x2020 + p) sub v) s (fun t =>
      mget (moduleTerms (lineMode s p)) t.nv.lat (p * 8 + lineMode s p) = (latTerms s p).set (sub - 1) v ∧ t.dict = s.dict ∧
      ∀ k, k ≠ p * 8 + lineMode s p → mget [] t.nv.lat k = mget [] s.nv.lat k)) ∧
    (sub = 3 → Gives (.timeConfigWrite (0x2020 + p) sub v) s (fun t =>
      mget (moduleTerms (lineMode s p)) t.nv.lat (p * 8 + lineMode s p) = (latTerms s p).set 2 (toSigned 32 v) ∧ t.dict = s.dict)))

/-- Comparators, pulses, captures and PTP event messages (R61, R71 to R73, R78, R96 to R98, R320, R346). -/
def Obligations.PulsesAndPtpFrames : Prop := ∀ (s : State) (at_ n v sub : Nat) (kind : PtpKind) (carrier : PtpCarrier) (dep cap corr : Int),
  n < 4 →
  let i := 0x2030 + n
  let sends : State → Nat → OutFrame → Prop := fun t p f => t.out = s.out ++ [f] ∧ t.time = s.time ∧ t.clk = s.clk ∧
    Counts s t (0x2110 + p) 0x05 1
  let domain := s.val 0 0x2000 0x03
  let epoch := s.clk.epochFor s.clk.tick
  (∀ u, u = s.elapse at_ → let p := pulseOf u n
    (p.cmp.armed = true → comparePast u.clk p.cmp.extended p.cmp.target = true → Gives (.comparatorFire at_ n) s (fun t =>
      (pulseOf t n).inProg = true ∧ (pulseOf t n).cmp.armed = false ∧ (∀ k, k ≠ n → pulseOf t k = pulseOf u k) ∧
      (pulseOf t n).endsAt = u.clk.local + (s.val 1000 i 0x04 : Int))) ∧
    (p.cmp.armed = false ∨ comparePast u.clk p.cmp.extended p.cmp.target = false → exec (.comparatorFire at_ n) s = .next u) ∧
    (p.inProg = true → p.endsAt ≤ u.clk.local → s.val 0 i 0x01 = 2 → 0 < s.val 1000000000 i 0x03 → Gives (.pulseWidthEnd at_ n) s (fun t =>
      let first : Int := (s.val 0 i 0x02 : Int) - u.clk.epochFor u.clk.tick
      let target := (pulseOf t n).cmp.target
      (pulseOf t n).inProg = false ∧ (pulseOf t n).cmp.armed = true ∧ p.endsAt < target ∧ first ≤ target ∧
      (target = first ∨ target - (s.val 1000000000 i 0x03 : Int) ≤ p.endsAt))) ∧
    (p.inProg = true → p.endsAt ≤ u.clk.local → s.val 0 i 0x01 ≠ 2 → Gives (.pulseWidthEnd at_ n) s (fun t =>
      pulseOf t n = { p with inProg := false })) ∧
    (p.inProg = false ∨ u.clk.local < p.endsAt → exec (.pulseWidthEnd at_ n) s = .next u) ∧
    (∀ rising, s.val 0 (0x2040 + n) 0x01 = 3 ∨ s.val 0 (0x2040 + n) 0x01 = (if rising = true then 1 else 2) →
      Gives (.captureEdge at_ n rising) s (fun t =>
        t.stget 0 (0x2040 + n) 0x02 = toPat 64 u.netTime ∧ mget 0 t.time.unread n = 1 ∧
        t.stget 0 (0x2040 + n) 0x03 = min (s.stget 0 (0x2040 + n) 0x03 + 1) (2 ^ 32 - 1) ∧
        (mget 0 u.time.unread n = 0 → t.stget 0 (0x2040 + n) 0x04 = s.stget 0 (0x2040 + n) 0x04) ∧
        (mget 0 u.time.unread n ≠ 0 →
          t.stget 0 (0x2040 + n) 0x04 = min (s.stget 0 (0x2040 + n) 0x04 + 1) (2 ^ 32 - 1)))) ∧
    (∀ rising, s.val 0 (0x2040 + n) 0x01 ≠ 3 → s.val 0 (0x2040 + n) 0x01 ≠ (if rising = true then 1 else 2) →
      exec (.captureEdge at_ n rising) s = .next u)) ∧
  (s.gate i = 0 → pulseCheck s n sub v = 0 →
    (sub = 4 ∨ sub = 5 → Gives (.pulseConfigWrite n sub v) s (fun t => t = s.put (pulseDefault sub) i sub v)) ∧
    (sub = 1 → v = 0 → Gives (.pulseConfigWrite n sub v) s (fun t => pulseOf t n = Pulse.init ∧ pulseLevel t n = false)) ∧
    (sub = 1 → v = 1 → Gives (.pulseConfigWrite n sub v) s (fun t => (pulseOf t n).cmp.armed = true ∧ (pulseOf t n).fired = false ∧
      (pulseOf t n).cmp.target = (s.val 0 i 0x02 : Int) - epoch)) ∧
    Gives (.pulseConfigWrite n sub v) s (fun t => t.val (pulseDefault sub) i sub = v ∧ ∀ k, k ≠ n → pulseOf t k = pulseOf s k)) ∧
  (∀ v, s.val 1000000000 i 0x03 ≤ v → Declines (.pulseConfigWrite n 0x04 v) s Abort.range) ∧
  (s.open n = true →
    (originates s n kind = true → Gives (.ptpMessageSend n kind dep) s (fun t =>
      sends t n (.ptp n kind domain (ptpCarrier s n) (ptpUdpLength s n kind) (dep + latG s n + epoch * 16)))) ∧
    (measuresLink s n = true → Gives (.pdelayReqReceived n cap dep) s (fun t => t.time = s.time ∧ t.clk = s.clk ∧
      t.out = s.out ++ [.pdelay n domain (ptpCarrier s n) (ptpUdpLength s n .pdelayResp) (4096 * (dep + latG s n - (cap - latI s n)))] ∧
      t.stget 0 (0x2110 + n) 0x05 = min (s.stget 0 (0x2110 + n) 0x05 + 1) (2 ^ 32 - 1) ∧
      t.stget 0 (0x2110 + n) 0x04 =
        (if 2 ≤ n then min (s.stget 0 (0x2110 + n) 0x04 + 1) (2 ^ 32 - 1) else s.stget 0 (0x2110 + n) 0x04)))) ∧
  (originates s n kind = false ∨ s.open n = false → exec (.ptpMessageSend n kind dep) s = .next s) ∧
  (measuresLink s n = false ∨ s.open n = false →
    exec (.pdelayReqReceived n cap dep) s = .next (if 2 ≤ n then s.heard n else s)) ∧
  (s.open 1 = true →
    (clockRole s = 0 → Gives (.ptpTransit 0 1 kind carrier cap dep corr) s (fun t => sends t 1 (.transit 1 corr false false))) ∧
    (clockRole s = 1 ∨ clockRole s = 2 →
      let path : Int := if kind = .sync ∧ peerToPeer s = true then 65536 * ((mget none s.time.mpd 0).getD 0 : Nat) else 0
      let passed := OutFrame.transit 1 (corr + (4096 * (dep + latG s 1 - (cap - latI s 0)) + path)) (carrier = .udpComp) (carrier = .udpPlain)
      (kind ≠ .delayReq ∨ mastersOn s 0 = false ∨ peerToPeer s = true ∨ s.open 0 = false →
        Gives (.ptpTransit 0 1 kind carrier cap dep corr) s (fun t => sends t 1 passed)) ∧
      (kind = .delayReq → mastersOn s 0 = true → peerToPeer s = false → s.open 0 = true →
        Gives (.ptpTransit 0 1 kind carrier cap dep corr) s (fun t =>
          t.out = s.out ++ [.delayResp 0 domain (cap - latI s 0 + epoch * 16) corr, passed])))) ∧
  (clockRole s = 0 ∨ (clockRole s ≤ 2 ∧ kind ≠ .delayReq) → s.open 1 = false → exec (.ptpTransit 0 1 kind carrier cap dep corr) s = .next s) ∧
  (clockRole s = 3 → kind ≠ .delayReq → exec (.ptpTransit 0 1 kind carrier cap dep corr) s = .next s) ∧
  (clockRole s = 3 → mastersOn s 0 = true → peerToPeer s = false → s.open 0 = true →
    Gives (.ptpTransit 0 1 .delayReq carrier cap dep corr) s (fun t =>
      sends t 0 (.delayResp 0 domain (cap - latI s 0 + epoch * 16) corr)))

/-- LINK_LOCK, LINK_LOSS, LINE_MODE_ALTERNATE, SFP_MODULE_ABSENT_OR_FAULT, BYP_CTRL_EN_WRITE, BYP_CTRL_FEED, RING_PARTICIPATION,
AUTOMATIC_REJOIN, SETTLE_TIME_END, BYPASS_DEADMAN_STARVED, BROWNOUT, BROWNOUT_END (R306, R308, R309, R316 to R320). What a write of EN
does while the dead-man is unfed or in brown-out is the model's choice (assumption 97). -/
def Obligations.LinksAndBypass : Prop := ∀ (s : State) (p mode at_ vin : Nat),
  let out : Nat → Bypass := fun cause => { s.byp with en := false, hold := false, cause := cause, partic := .outRing }
  let joins : State → Prop := fun t => t.byp = { s.byp with
    en := true, hold := true, partic := .joining, settle := s.clk.tick + 3 * s.val 20 0x2100 0x03 } ∧ t.stget 0 0x2100 0x02 = 1
  let free : State → Nat → Prop := fun t cause => t.byp = out cause ∧ t.stget 0 0x2100 0x02 = 0 ∧ t.stget 0 0x2100 0x05 = 0
  let dark := bypOk s = false ∨ s.power.brownout = true
  let sinks := s.byp.en = false ∧ s.byp.hold = false ∧ bypOk s = true ∧ s.power.brownout = false ∧ s.power.inReset = false
  (p < 4 → mode ≠ 0 → lockMode s p = mode → Gives (.linkLock p mode) s (fun t => (t.port p).lock = true ∧ (t.port p).mode = mode ∧
    t.stget 0 (0x2110 + p) 0x03 = mode ∧ ∀ q, q ≠ p → t.port q = s.port q)) ∧
  (lockMode s p ≠ mode → exec (.linkLock p mode) s = .next s) ∧
  (p < 4 → (s.port p).lock = true → Gives (.linkLoss p) s (fun t => t.port p = { s.port p with lock := false, mode := 0, trying := 1 } ∧
    t.stget 0 (0x2110 + p) 0x0A = min (s.stget 0 (0x2110 + p) 0x0A + 1) (2 ^ 32 - 1) ∧ ∀ q, q ≠ p → t.port q = s.port q)) ∧
  ((s.port p).lock = false → exec (.linkLoss p) s = .next s) ∧
  ((s.port p).lock = true ∨ s.val 0 (0x2110 + p) 0x01 ≠ 1 → exec (.lineModeAlternate p) s = .next s) ∧
  (p < 2 → s.val 0 (0x2110 + p) 0x01 = 1 → (s.port p).lock = false → Gives (.lineModeAlternate p) s (fun t =>
    t = s.setPort p { s.port p with trying := if (s.port p).trying = 3 then 1 else 3 })) ∧
  (∀ absent fault : Bool, p < 2 → absent = true ∨ fault = true → Gives (.sfpModuleAbsentOrFault p absent fault) s (fun t =>
    (t.port p).absent = absent ∧ (t.port p).fault = fault ∧ (t.port p).lock = false ∧ ∀ q, q ≠ p → t.port q = s.port q)) ∧
  (p < 2 → Gives (.sfpModuleAbsentOrFault p false false) s (fun t => t.port p = { s.port p with absent := false, fault := false })) ∧
  (sinks → Gives (.bypCtrlEnWrite true) s joins) ∧
  (sinks → s.gate 0x2100 = 0 → Gives (.ringParticipation 1) s (fun t => joins t ∧ t.flag 0x2100 0x01 = true)) ∧
  (s.byp.en = true → exec (.bypCtrlEnWrite true) s = .next s ∧
    (s.gate 0x2100 = 0 → Gives (.ringParticipation 1) s (fun t => t = s.put 0 0x2100 0x01 1))) ∧
  (s.byp.en = false → s.byp.hold = false → dark → Gives (.bypCtrlEnWrite true) s (fun t =>
    t = { s with byp := { s.byp with en := true } })) ∧
  (1 < mode → Declines (.ringParticipation mode) s Abort.range) ∧
  (sinks → s.flag 0x2100 0x04 = true → s.flag 0x2100 0x01 = true → 3000 ≤ s.byp.fedRun → Gives .automaticRejoin s joins) ∧
  (s.flag 0x2100 0x04 = false ∨ s.flag 0x2100 0x01 = false ∨ s.byp.en = true ∨ s.byp.fedRun < 3000 ∨ s.power.brownout = true → exec .automaticRejoin s = .next s) ∧
  (s.byp.partic = .joining → s.byp.settle ≤ s.clk.tick → Gives .settleTimeEnd s (fun t =>
    t.byp = { s.byp with partic := .inRing } ∧ t.stget 0 0x2100 0x02 = 2)) ∧
  (s.byp.partic ≠ .joining ∨ s.clk.tick < s.byp.settle → exec .settleTimeEnd s = .next s) ∧
  (s.byp.hold = true →
    (bypOk s = false → Gives .bypassDeadmanStarved s (fun t => free t 3)) ∧
    (bypOk s = true → exec .bypassDeadmanStarved s = .next s) ∧
    Gives (.bypCtrlEnWrite false) s (fun t => free t 4) ∧
    (s.gate 0x2100 = 0 → Gives (.ringParticipation 0) s (fun t => free t 4 ∧ t.flag 0x2100 0x01 = false)) ∧
    (3900 ≤ vin → vin < 4200 → Gives (.brownout at_ vin) s (fun t => free t 2 ∧ t.power.brownout = true ∧ t.power.vinMv = vin))) ∧
  (s.byp.hold = false →
    exec .bypassDeadmanStarved s = .next s ∧
    Gives (.bypCtrlEnWrite false) s (fun t => t = { s with byp := { s.byp with en := false } }) ∧
    (s.gate 0x2100 = 0 → Gives (.ringParticipation 0) s (fun t => t.byp = { s.byp with en := false } ∧
      t.flag 0x2100 0x01 = false)) ∧
    (3900 ≤ vin → vin < 4200 → Gives (.brownout at_ vin) s (fun t => t.power = { s.power with vinMv := vin, brownout := true } ∧
      t.byp = s.byp))) ∧
  (4200 ≤ vin → Gives (.brownout at_ vin) s (fun t => t.power = { s.power with vinMv := vin } ∧ t.byp = s.byp)) ∧
  (4400 < vin → Gives (.brownoutEnd at_ vin) s (fun t => t.power = { s.power with vinMv := vin, brownout := false } ∧
    (s.byp.hold = true ∨ s.byp.en = false ∨ bypOk s = false → t.byp = s.byp))) ∧
  (4400 < vin → s.byp.hold = false → s.byp.en = true → bypOk s = true → s.power.inReset = false →
    Gives (.brownoutEnd at_ vin) s joins) ∧
  (3900 ≤ vin → vin ≤ 4400 → Gives (.brownoutEnd at_ vin) s (fun t => t.power = { s.power with vinMv := vin } ∧ t.byp = s.byp)) ∧
  (s.flag 0x1100 0x03 = false → Gives .bypCtrlFeed s (fun t => t = { s with byp := { s.byp with fedNow := true } })) ∧
  (s.flag 0x1100 0x03 = true → exec .bypCtrlFeed s = .next s)

/-- RING_FRAME_RECEIVED, STREAM_PACKET_RECEIVED, SHADOW_CUTOFF, SLOT_CHANNEL_CHANGE (R311, R312, R320, R330 to R335, R343). -/
def Obligations.FramesAndPackets : Prop := ∀ (s : State) (at_ p i : Nat) (f : RingFrame) (g : Datagram),
  (∀ u ttl dst echo, u = s.elapse at_ → p < 2 →
    ((u.port p).lock = true → u.byp.partic ≠ .inRing → Gives (.ringFrameReceived at_ p f) s (fun t => t.out = s.out ∧
      Counts s t (0x2110 + p) 0x04 1)) ∧
    ((u.port p).lock = true → u.byp.partic = .inRing → f.pause = false → f.fcsOk = true → f.srcMac ≠ Config.mac.toNat →
      64 ≤ f.length → f.length ≤ 9022 → linkLocal f.dstMac = false → addressed u f = false → f.kind = .ipv4 ttl dst echo →
      (1 < ttl → (u.port (1 - p)).lock = true → Gives (.ringFrameReceived at_ p f) s (fun t =>
        t.out = s.out ++ [.ring (1 - p) { f with kind := .ipv4 (ttl - 1) dst echo } false])) ∧
      (ttl ≤ 1 → Gives (.ringFrameReceived at_ p f) s (fun t => t.out = s.out))) ∧
    ((u.port p).lock = true → u.byp.partic = .inRing → f.pause = false → f.fcsOk = true → f.srcMac ≠ Config.mac.toNat →
      64 ≤ f.length → f.length ≤ 9022 → linkLocal f.dstMac = false → addressed u f = true →
      (f.kind = .other → Gives (.ringFrameReceived at_ p f) s (fun t => t.out = s.out ++ [.deliver f])) ∧
      (s.val 0 0x2100 0x0C ≠ 0 → dst = s.val 0 0x2100 0x0C →
        (f.kind = .arp true dst → Gives (.ringFrameReceived at_ p f) s (fun t =>
          t.out = s.out ++ [.deliver f, .arpReply p f.srcMac dst])) ∧
        (ttl ≤ 1 → f.kind = .ipv4 ttl dst true → Gives (.ringFrameReceived at_ p f) s (fun t =>
          t.out = s.out ++ [.deliver f, .echoReply p f.srcMac dst])))) ∧
    ((u.port p).lock = true → u.byp.partic = .inRing → f.pause = false → f.srcMac ≠ Config.mac.toNat → f.length < 64 →
      Gives (.ringFrameReceived at_ p f) s (fun t => t.out = s.out ∧
        t.stget 0 (0x2110 + p) 0x09 = min (s.stget 0 (0x2110 + p) 0x09 + 1) (2 ^ 32 - 1))) ∧
    ((u.port p).lock = false → exec (.ringFrameReceived at_ p f) s = .next u) ∧
    ((u.port p).lock = false → exec (.streamPacketReceived at_ p g) s = .next u) ∧
    (u.byp.partic ≠ .inRing → exec (.streamPacketReceived at_ p g) s = .next u) ∧
    (∀ k d, (u.port p).lock = true → u.byp.partic = .inRing → rxSlots u = [i] → i < 64 → packetTick u i g.payload = (k, d) →
      rxMatches d i g = true →
      (rxCheck u.n d i g = .malformed → Gives (.streamPacketReceived at_ p g) s (fun t => Counts s t (0x2200 + i) 0x10 1 ∧ t.rx = s.rx)) ∧
      (rxCheck u.n d i g = .claim → Gives (.streamPacketReceived at_ p g) s (fun t => Counts s t (0x2200 + i) 0x11 1 ∧ t.rx = s.rx)) ∧
      (rxCheck u.n d i g = .valid → (u.clk.tick : Int) ≤ k → k ≤ (u.clk.tick : Int) + 7 → 0 ≤ marginOf u k → 3 ≤ rxType d i →
        beAt g.payload 20 1 % 2 = 0 → (∀ c ∈ (rxOf s i).taken, c.key ≠ copyKey d i k.toNat g.payload) →
        (∀ h ∈ (rxOf s i).shadow, h.key ≠ copyKey d i k.toNat g.payload) →
        Gives (.streamPacketReceived at_ p g) s (fun t => (rxOf t i).taken = (rxOf s i).taken ∧
          (rxOf t i).shadow = (rxOf s i).shadow ++ [⟨copyKey d i k.toNat g.payload, k.toNat, beAt g.payload 20 1 / 2 % 2, g.payload⟩] ∧
          ∀ j, j ≠ i → rxOf t j = rxOf s j)) ∧
      (rxCheck u.n d i g = .valid → (u.clk.tick : Int) + 7 < k → Gives (.streamPacketReceived at_ p g) s (fun t =>
        Counts s t (0x2200 + i) 0x0F 1 ∧ t.rx = s.rx)) ∧
      (rxCheck u.n d i g = .valid → k < (u.clk.tick : Int) → Gives (.streamPacketReceived at_ p g) s (fun t =>
        t.stget 0 (0x2200 + i) 0x0E = min (s.stget 0 (0x2200 + i) 0x0E + 1) (2 ^ 32 - 1) ∧ t.rx = s.rx)) ∧
      (rxCheck u.n d i g = .valid → (u.clk.tick : Int) ≤ k → k ≤ (u.clk.tick : Int) + 7 → 0 ≤ marginOf u k →
        beAt g.payload 20 1 % 2 = 1 ∨ rxType d i < 3 → (∀ c ∈ (rxOf s i).taken, c.key ≠ copyKey d i k.toNat g.payload) →
        Gives (.streamPacketReceived at_ p g) s (fun t =>
          (∃ c ∈ (rxOf t i).taken, c.key = copyKey d i k.toNat g.payload ∧ c.primary = true) ∧ (rxOf t i).got = true ∧
          (∀ j, j ≠ i → rxOf t j = rxOf s j) ∧
          t.stget 0 (0x2200 + i) 0x0C = min (s.stget 0 (0x2200 + i) 0x0C + 1) (2 ^ 32 - 1))))) ∧
  (i < 64 → Gives (.shadowCutoff i s.clk.tick) s (fun t => (∀ h ∈ (rxOf t i).shadow, h.block ≠ s.clk.tick) ∧
    ∀ j, j ≠ i → rxOf t j = rxOf s j)) ∧
  (∀ b, b ≠ s.clk.tick → exec (.shadowCutoff i b) s = .next s) ∧
  (∀ (tx : Bool) (v : Nat) (m : List Byte), i < 64 → let index := (if tx then 0x2300 else 0x2200) + i
    (s.gate index = 0 → v ≤ 1 → Gives (.slotChannelChange tx i 0x01 (.num v)) s (fun t => t = s.put 0 index 0x01 v)) ∧
    (s.gate index = 0 → v < 2 ^ 64 → Gives (.slotChannelChange tx i 0x06 (.num v)) s (fun t => t = s.put 0 index 0x06 v)) ∧
    (s.gate index = 0 → m ≠ [] → (if tx then txMapCheck m else rxMapCheck m) = 0 →
      Gives (.slotChannelChange tx i 0x07 (.bytes m)) s (fun t => t = s.putBytes index 0x07 m)) ∧
    (s.gate index = 0 → exec (.slotChannelChange tx i 0x07 (.bytes [])) s = .next s) ∧
    (1 < v → Declines (.slotChannelChange tx i 0x01 (.num v)) s Abort.range) ∧
    (m ≠ [] → m.length ≠ (if tx then 128 else 64) → Declines (.slotChannelChange tx i 0x07 (.bytes m)) s Abort.length))

/-- AES3_FRAME_RECEIVED, AES3_LOCK_VALUES_RECEIVED, AES3_LOCK_APPLY, AES3_RHO_DECISION, AES3_NO_SIGNAL, AES3_RATE_WINDOW,
AES3_NON_AUDIO_END, AES3_OUTPUT_CHANGE, PDM_STUCK, PDM_STUCK_RECOVER, PDM_CLOCK_WRITE, PDM_ENABLE (R350 to R375). That a Standby takes a
decision of ρ it receives as the operand of AES3_RHO_DECISION is the model's choice (assumption 100). -/
def Obligations.InputPorts : Prop := ∀ (s : State) (at_ i rho v : Nat) (f : AesFrame) (vals : LockVals) (m : List Byte) (x : Val), i < 16 →
  let r := aesOf s i
  (∀ u, u = s.elapse at_ → aesMode u i ≠ 0 → Gives (.aes3FrameReceived at_ i f) s (fun t =>
    let now := u.clk.local
    let good : AesSub → Int → Int := fun c l => if c.codeOk then aesSample (s.val 24 (0x2410 + i) 0x02) c else l
    let rate := mediaRate s.dict
    let g := nearestGrid rate (now - r.phi)
    let near := 8 * iabs (now - r.phi - (sampleTime rate g : Int)) * rate < 3000000000 ∧ (r.lastG = none ∨ ∃ l, r.lastG = some l ∧ g = l + 1)
    (aesOf t i).count = r.count + 1 ∧ (aesOf t i).lastAt = now ∧
    (aesOf t i).goodA = good f.a r.goodA ∧ (aesOf t i).goodB = good f.b r.goodB ∧
    (aesOf t i).naFrames = (if burst f then 0 else r.naFrames + 1) ∧
    t.stget 0 (0x2410 + i) 0x0C =
      min (s.stget 0 (0x2410 + i) 0x0C + (b2n (!f.a.codeOk) + b2n (!f.b.codeOk))) (2 ^ 32 - 1) ∧
    (r.state = .noSignal → (aesOf t i).state = .locking) ∧
    (aesMode u i = 2 → (aesOf t i).nextIdx = r.nextIdx + 1 ∧
      (aesOf t i).frames = (⟨r.nextIdx, now.toNat, good f.a r.goodA, good f.b r.goodB⟩ :: r.frames).take 512) ∧
    (aesMode u i = 1 → r.state = .locked → near → (aesOf t i).state = .locked ∧ (aesOf t i).lastG = some g ∧
      mget none (aesOf t i).grid (2 * (g + 3)) = some (good f.a r.goodA) ∧
      mget none (aesOf t i).grid (2 * (g + 3) + 1) = some (good f.b r.goodB)) ∧
    (aesMode u i = 1 → r.state = .locked → ¬ near → (aesOf t i).state = .locking ∧ (aesOf t i).lastG = none) ∧
    ∀ j, j ≠ i → aesOf t j = aesOf s j)) ∧
  (∀ u, u = s.elapse at_ → aesMode u i = 0 → exec (.aes3FrameReceived at_ i f) s = .next u) ∧
  (s.twin.role = .standby → aesMode s i ≠ 0 → Gives (.aes3LockValuesReceived i vals) s (fun t =>
    aesOf t i = { r with pending := some vals, own := false } ∧ ∀ j, j ≠ i → aesOf t j = aesOf s j)) ∧
  (s.twin.role ≠ .standby ∨ aesMode s i = 0 → exec (.aes3LockValuesReceived i vals) s = .next s) ∧
  (r.pending = none → exec (.aes3LockApply i) s = .next s) ∧
  (r.pending = some vals →
    (vals.block ≤ s.clk.tick → Gives (.aes3LockApply i) s (fun t => (aesOf t i).state = .locked ∧ (aesOf t i).phi = vals.phi ∧
      (aesOf t i).q = vals.q ∧ (aesOf t i).rho = vals.rho ∧ (aesOf t i).pending = none ∧ (aesOf t i).fadeA = FadeCh.rising ∧
      (aesOf t i).fadeB = FadeCh.rising ∧ t.stget 0 (0x2410 + i) 0x07 = vals.rho)) ∧
    (s.clk.tick < vals.block → exec (.aes3LockApply i) s = .next s)) ∧
  (aesMode s i = 2 → r.state = .locked → ratioOk (lastRho r) = true →
    (s.twin.role ≠ .standby ∧ r.rhoAt + 64 ≤ s.clk.tick) ∨ (s.twin.role = .standby ∧ r.rhoAt + 68 ≤ s.clk.tick) →
    Gives (.aes3RhoDecision i rho) s (fun t => ∃ v, (aesOf t i).rhoNext = some (s.clk.tick + 4, v) ∧ (aesOf t i).rho = r.rho ∧
      (aesOf t i).rhoAt = s.clk.tick ∧ v ≤ lastRho r + 1024 ∧ lastRho r ≤ v + 1024 ∧ ratioOk v = true ∧
      (ratioOk rho = true → rho ≤ lastRho r + 1024 → lastRho r ≤ rho + 1024 → v = rho) ∧
      (s.twin.role = .active → s.open 3 = true → t.out = s.out ++ [.aesRho i (s.clk.tick + 4) v]) ∧
      (s.twin.role = .standby → t.out = s.out ∧ t.twin.marks = s.twin.marks ++ [(s.clk.tick + 4, 6)]))) ∧
  (aesMode s i = 2 → r.state = .locked → s.twin.role = .standby → s.clk.tick < r.rhoAt + 68 → ratioOk rho = true →
    Gives (.aes3RhoDecision i rho) s (fun t =>
      aesOf t i = { r with rhoNext := some (s.clk.tick + 4, rho), rhoAt := s.clk.tick } ∧ ∀ j, j ≠ i → aesOf t j = aesOf s j)) ∧
  (aesMode s i ≠ 2 ∨ r.state ≠ .locked ∨ (s.twin.role = .standby ∧ s.clk.tick < r.rhoAt + 68 ∧ ratioOk rho = false) ∨
      (s.twin.role ≠ .standby ∧ s.clk.tick < r.rhoAt + 64) → exec (.aes3RhoDecision i rho) s = .next s) ∧
  (r.state ≠ .off → r.state ≠ .noSignal → r.lastAt + silenceLimit r < tickStart s.clk.tick + tickLen s.clk.tick →
    Gives (.aes3NoSignal i) s (fun t => aesOf t i = { r with
      state := .noSignal, phases := [], grid := [], flags := [], lastG := none, pending := none, own := false, rhoNext := none,
      cause := 96 } ∧ ∀ j, j ≠ i → aesOf t j = aesOf s j)) ∧
  (r.state = .off ∨ r.state = .noSignal ∨ (tickStart s.clk.tick + tickLen s.clk.tick : Int) ≤ r.lastAt + silenceLimit r →
    exec (.aes3NoSignal i) s = .next s) ∧
  (aesMode s i ≠ 0 → 64 ≤ s.clk.tick - r.winTick → Gives (.aes3RateWindow i) s (fun t => (aesOf t i).count = 0 ∧
    (aesOf t i).rate = r.count * 3000000 / (s.clk.tick - r.winTick) ∧ (aesOf t i).winTick = s.clk.tick ∧
    t.stget 0 (0x2410 + i) 0x05 = r.count * 3000000 / (s.clk.tick - r.winTick))) ∧
  (s.clk.tick - r.winTick < 64 → exec (.aes3RateWindow i) s = .next s) ∧
  (r.nonAudio = true → entBytes s.dom (0x2410 + i) 0x09 ≠ [] → entBytes s.dom (0x2410 + i) 0x0A ≠ [] →
    statusNonAudio s i 0x09 = false → statusNonAudio s i 0x0A = false → 8192 ≤ r.naFrames → Gives (.aes3NonAudioEnd i) s (fun t =>
      aesOf t i = { r with nonAudio := false, fadeA := ⟨.silent 0, []⟩, fadeB := ⟨.silent 0, []⟩ } ∧
      ∀ j, j ≠ i → aesOf t j = aesOf s j)) ∧
  (r.nonAudio = false ∨ entBytes s.dom (0x2410 + i) 0x09 = [] ∨ entBytes s.dom (0x2410 + i) 0x0A = [] ∨
      statusNonAudio s i 0x09 = true ∨ statusNonAudio s i 0x0A = true ∨ r.naFrames < 8192 → exec (.aes3NonAudioEnd i) s = .next s) ∧
  (s.gate (0x2420 + i) = 0 → v ≤ 1 → Gives (.aes3OutputChange i 0x01 (.num v)) s (fun t => t = s.put 0 (0x2420 + i) 0x01 v)) ∧
  (s.gate (0x2420 + i) = 0 → m ≠ [] → aesOutCheck i 0x02 (.bytes m) = 0 → Gives (.aes3OutputChange i 0x02 (.bytes m)) s (fun t =>
    t = s.putBytes (0x2420 + i) 0x02 m)) ∧
  (s.gate (0x2420 + i) = 0 → exec (.aes3OutputChange i 0x02 (.bytes [])) s = .next s) ∧
  (aesOutCheck i v x ≠ 0 → Declines (.aes3OutputChange i v x) s (aesOutCheck i v x)) ∧
  (pdmLive s i = true → (pdmOf s i).stuck = false → (pdmOf s i).full = true ∨ 4096 ≤ (pdmOf s i).run → Gives (.pdmStuck i) s (fun t =>
    pdmOf t i = { pdmOf s i with stuck := true, full := false, told := false, clean := 0 } ∧ Counts s t (0x2440 + i) 0x08 1)) ∧
  (pdmLive s i = false ∨ (pdmOf s i).stuck = true ∨ ((pdmOf s i).full = false ∧ (pdmOf s i).run < 4096) → exec (.pdmStuck i) s = .next s) ∧
  ((pdmOf s i).stuck = true → 2 ≤ (pdmOf s i).clean → Gives (.pdmStuckRecover i) s (fun t =>
    pdmOf t i = { pdmOf s i with stuck := false, told := false, fade := FadeCh.rising })) ∧
  ((pdmOf s i).stuck = false ∨ (pdmOf s i).clean < 2 → exec (.pdmStuckRecover i) s = .next s) ∧
  (v ≤ 2 → (∀ m, m < 8 → pdmOn s m = false) → s.gate 0x2400 = 0 → Gives (.pdmClockWrite v) s (fun t => t = s.put 0 0x2400 0x01 v)) ∧
  (v ≤ 2 → ∀ m, m < 8 → pdmOn s m = true → Declines (.pdmClockWrite v) s Abort.conflict) ∧
  (i < 8 → pdmFits s i = true → pdmOn s i = false → s.gate (0x2440 + i) = 0 → Gives (.pdmEnable i 1) s (fun t =>
    pdmOn t i = true ∧ (pdmOf t i).fade = ⟨.silent 0, []⟩ ∧ t.stget 0 (0x2440 + i) 0x09 = pdmDelay s i)) ∧
  (i < 8 → pdmFits s i = true → pdmOn s i = true → s.gate (0x2440 + i) = 0 → Gives (.pdmEnable i 1) s (fun t =>
    t = s.put 0 (0x2440 + i) 0x01 1)) ∧
  (i < 8 → pdmOn s i = true → s.gate (0x2440 + i) = 0 → Gives (.pdmEnable i 0) s (fun t =>
    pdmOn t i = false ∧ pdmOf t i = { pdmOf s i with stuck := false } ∧ ∀ j, j ≠ i → pdmOf t j = pdmOf s j)) ∧
  (i < 8 → pdmOn s i = false → s.gate (0x2440 + i) = 0 → Gives (.pdmEnable i 0) s (fun t =>
    t = s.put 0 (0x2440 + i) 0x01 0)) ∧
  (i < 8 → pdmFits s i = false → Declines (.pdmEnable i 1) s Abort.conflict)

/-- CARRIER_PERIOD, RAIL_STATE_CHANGE, SENSE_STUCK, OVER_CURRENT_CUT (R382 to R391, R395). -/
def Obligations.CarrierAndRails : Prop := ∀ (s : State) (at_ n g w : Nat) (inp : CarrierIn),
  let m := s.carrier
  let d := s.drive n
  let r := s.rail g
  let rails : State → Nat → Prop := fun t st => t.rail g = { r with state := st, below := 0, above := 0, back := 0 } ∧
    t.stget 0 (0x5010 + g) 0x0A = st ∧ t.drives = s.drives ∧ ∀ h, h ≠ g → t.rail h = s.rail h
  (128 * s.clk.tick ≤ m → m < 128 * (s.clk.tick + 1) → Gives (.carrierPeriod inp) s (fun t => t.carrier = m + 1 ∧
    t.clk.tick = s.clk.tick ∧
    (n < 16 → s.fenced (0x700 + n) = false →
      (d.st = .running → mustShut d = false → railState s n = 0 → (t.drive n).st = .running ∧ (t.drive n).low = false ∧
        (t.drive n).gm = (if d.ramp then max 0 (d.gm - 2 ^ 25) else if d.low then 0 else 2 ^ 31 - 1) ∧
        (t.drive n).limRun = (if d.oc then d.limRun else 0) + (if bitOf inp.oc n then 1 else 0) ∧ (t.drive n).oc = bitOf inp.oc n ∧
        (d.low = true → (t.drive n).duty = 2048) ∧
        (drvEnt s 164 n 0x06 ≤ 2048 → drvEnt s 164 n 0x06 ≤ (t.drive n).duty ∧ (t.drive n).duty ≤ 4096 - drvEnt s 164 n 0x06)) ∧
      (d.st = .idle → d.ramp = false → (t.drive n).st = .idle ∧ (t.drive n).gm = d.gm ∧ (t.drive n).duty = d.duty)))) ∧
  (∀ u, u = s.elapse (m * 1000000000 / 384000 - tickStart s.clk.tick) → m < 128 * s.clk.tick ∨ 128 * (s.clk.tick + 1) ≤ m →
    exec (.carrierPeriod inp) s = .next u) ∧
  (g < 4 →
    (r.sense.stuck = false → r.state = 0 → 64 ≤ r.below → Gives (.railStateChange g) s (fun t => rails t 1 ∧ g ∈ (t.evSrc 115).active)) ∧
    (r.sense.stuck = false → r.state = 0 → r.below < 64 → 64 ≤ r.above → Gives (.railStateChange g) s (fun t => rails t 2 ∧
      g ∈ (t.evSrc 116).active)) ∧
    (r.sense.stuck = false → r.state = 1 ∨ r.state = 2 → 19200 ≤ r.back → Gives (.railStateChange g) s (fun t => rails t 0)) ∧
    (r.sense.stuck = false → r.state = 1 ∨ r.state = 2 → r.back < 19200 → exec (.railStateChange g) s = .next s) ∧
    (r.sense.stuck = true → r.state ≠ 3 → Gives (.railStateChange g) s (fun t => rails t 3 ∧ g ∈ (t.evSrc 117).active)) ∧
    (4096 ≤ r.sense.run → Gives (.senseStuck 2 g) s (fun t => (t.rail g).sense.stuck = true ∧ (t.rail g).state = 3))) ∧
  (4096 ≤ d.v.run → Gives (.senseStuck 0 n) s (fun t => t.drive n = { d with v := { d.v with stuck := true } } ∧
    2 * n ∈ (t.evSrc 114).active)) ∧
  (4096 ≤ d.i.run → Gives (.senseStuck 1 n) s (fun t => t.drive n = { d with i := { d.i with stuck := true } } ∧
    2 * n + 1 ∈ (t.evSrc 114).active)) ∧
  (d.v.run < 4096 → exec (.senseStuck 0 n) s = .next s) ∧
  (∀ u, u = s.elapse at_ →
    (8 ≤ w → modulates d.st = true → d.oc = false → Gives (.overCurrentCut at_ n w) s (fun t =>
      t.drive n = { d with oc := true, limRun := d.limRun + 1 } ∧ driveLevel t n = false ∧
      t.stget 0 (0x5000 + n) 0x21 = min (s.stget 0 (0x5000 + n) 0x21 + 1) (2 ^ 32 - 1) ∧ ∀ k, k ≠ n → t.drive k = s.drive k)) ∧
    (w < 8 ∨ modulates d.st = false ∨ d.oc = true → exec (.overCurrentCut at_ n w) s = .next u))

/-- DRIVE_SHUTDOWN, DRIVE_FAULT_ITEM, DRV_MUTE_FAULT_RAMP, HOLD_OFF_END, RETRY_COUNT_RESET (R396 to R398). Which queue takes the item of
a shutdown, and its fields but the channel number, are the model's choice (assumption 49). -/
def Obligations.DriveFaults : Prop := ∀ (s : State) (n : Nat), n < 16 →
  let d := s.drive n
  let i := 0x5000 + n
  let fails := if quietDrive s d then 0 else s.stget 0 i 0x23
  let limit := if fails = 0 then drvEnt s 3 n 0x10 else d.retryLim
  let shuts := modulates d.st = true ∧ (64 ≤ d.limRun ∨ d.v.stuck = true ∨ d.i.stuck = true)
  let shut : State → Prop := fun t => (t.drive n).s1 = 0 ∧ (t.drive n).s2 = 0 ∧ (t.drive n).s3 = 0 ∧
    (t.drive n).gl = 2 ^ 31 - 1 ∧ (t.drive n).low = true ∧ (t.drive n).shutReq = true ∧
    (t.drive n).lastShut = some s.carrier ∧ (t.drive n).retry = none ∧ driveLevel t n = false ∧
    t.stget 0 i 0x22 = min (s.stget 0 i 0x22 + 1) (2 ^ 32 - 1) ∧ ∀ k, k ≠ n → t.drive k = s.drive k
  let holds : State → Prop := fun t => (t.drive n).st = .holdOff ∧ (t.drive n).holdEnd = s.carrier + 384 * drvEnt s 500 n 0x0F ∧
    (t.drive n).gm = d.gm ∧ t.stget 0 i 0x20 = 4
  let ramps : State → Prop := fun t => t.drive n = { d with rampSet := true, shutReq := false } ∧ t.stat = s.stat ∧
    ∀ k, k ≠ n → t.drive k = s.drive k
  (shuts →
    (drvEnt s 0 n 0x01 ≠ 0 → d.st ≠ .stopping →
      ((∀ p, d.retry = some p → tenSeconds ≤ s.carrier - p) → Gives (.driveShutdown n) s (fun t => shut t ∧ holds t ∧ t.stget 0 i 0x23 = fails)) ∧
      (∀ p, d.retry = some p → s.carrier - p < tenSeconds →
        (min (fails + 1) 255 < limit → Gives (.driveShutdown n) s (fun t => shut t ∧ holds t ∧
          t.stget 0 i 0x23 = min (fails + 1) 255)) ∧
        (limit ≤ min (fails + 1) 255 → Gives (.driveShutdown n) s (fun t => shut t ∧ (t.drive n).st = .latched ∧
          (t.drive n).gm = 0 ∧ t.stget 0 i 0x20 = 5 ∧ t.stget 0 i 0x23 = min (fails + 1) 255)))) ∧
    (drvEnt s 0 n 0x01 = 0 ∨ d.st = .stopping → Gives (.driveShutdown n) s (fun t => shut t ∧ (t.drive n).st = .idle ∧
      (t.drive n).gm = 0 ∧ t.stget 0 i 0x20 = 0)) ∧
    (∀ q, urgentQueue s = some q → Served s 29 14 → (s.queue q).items.length < (s.queue q).cap → (s.queue q).held = [] →
      Gives (.driveShutdown n) s (fun t => ∃ it, (t.queue q).items = (s.queue q).items ++ [it] ∧ it.desc = driveDesc n s.clk.tick))) ∧
  (¬ shuts → exec (.driveShutdown n) s = .next s) ∧
  (∀ it, driveItem s n = some it → Gives (.driveFaultItem n) s (fun t => ramps t ∧
    (t.queue it.queue).items = (s.queue it.queue).items.filter (fun j => j.num ≠ it.num) ∧ ∀ q, q ≠ it.queue → t.queue q = s.queue q)) ∧
  (driveItem s n = none → exec (.driveFaultItem n) s = .next s) ∧
  Gives (.drvMuteFaultRamp n) s ramps ∧
  (d.st = .holdOff → d.holdEnd ≤ s.carrier →
    (railState s n = 0 → Gives (.holdOffEnd n) s (fun t => (t.drive n).st = .starting ∧ (t.drive n).gm = 0 ∧
      (t.drive n).retry = some s.carrier ∧ (t.drive n).lastRetry = some s.carrier ∧ (t.drive n).ramp = false ∧ t.stget 0 i 0x20 = 1)) ∧
    (railState s n ≠ 0 → Gives (.holdOffEnd n) s (fun t => (t.drive n).st = .railStop ∧ (t.drive n).gm = 0 ∧
      (t.drive n).fromHold = true ∧ t.stget 0 i 0x20 = 6))) ∧
  (d.st = .holdOff → s.carrier < d.holdEnd → exec (.holdOffEnd n) s = .next s) ∧
  (quietDrive s d = true → Gives (.retryCountReset n) s (fun t => t = s.stset 0 i 0x23 0)) ∧
  (quietDrive s d = false → exec (.retryCountReset n) s = .next s)

/-- DRIVE_ENABLE, DRIVE_DISABLE, DRIVE_START, DRIVE_STOP, CLEAR_LATCH, DRIVE_ENABLE_GLOBAL, DRIVE_GATE_CHANGE (R380, R393 to R402). -/
def Obligations.DriveWrites : Prop := ∀ (s : State) (at_ n v : Nat) (level : Bool), n < 16 →
  let d := s.drive n
  let i := 0x5000 + n
  let good := s.flag 0x501F 0x01 = true ∧ (s.rail (s.val 0 i 0x05)).state = 0
  (good → s.gate i = 0 → Gives (.driveEnable n) s (fun t => t.val 0 i 0x01 = 1 ∧
    t.drive n = (if s.flag 0x1100 0x03 then enableAt d s.clk.tick true else d) ∧ ∀ k, k ≠ n → t.drive k = s.drive k)) ∧
  (¬ good → Declines (.driveEnable n) s Abort.conflict) ∧
  (s.fenced (0x700 + n) = false → enableDue s n = some true →
    (d.st = .idle → railState s n = 0 → Gives (.driveStart n) s (fun t => (t.drive n).st = .starting ∧ (t.drive n).gm = 0 ∧
      (t.drive n).gl = 2 ^ 31 - 1 ∧ (t.drive n).enables = enablesLeft s n ∧ (t.drive n).low = true ∧ t.stget 0 i 0x20 = 1)) ∧
    (d.st = .idle → railState s n ≠ 0 → Gives (.driveStart n) s (fun t => (t.drive n).st = .railStop ∧
      (t.drive n).fromHold = false ∧ t.stget 0 i 0x20 = 6)) ∧
    (d.st ≠ .idle → Gives (.driveStart n) s (fun t => t = s.setDrive n { d with enables := enablesLeft s n }))) ∧
  (s.fenced (0x700 + n) = true ∨ enableDue s n ≠ some true → exec (.driveStart n) s = .next s) ∧
  (s.gate i = 0 → Gives (.driveDisable n) s (fun t => t.val 0 i 0x01 = 0 ∧ t.drive n = enableAt d s.clk.tick false)) ∧
  (enableDue s n = some false →
    (d.st = .starting ∨ d.st = .running → Gives (.driveStop n) s (fun t =>
      t.drive n = { d with st := .stopping, enables := enablesLeft s n, stopEnd := s.clk.tick + 1 } ∧ t.stget 0 i 0x20 = 3)) ∧
    (d.st = .stopping → s.clk.tick < d.stopEnd → Gives (.driveStop n) s (fun t =>
      t = s.setDrive n { d with enables := enablesLeft s n })) ∧
    (d.st ∈ [ChState.idle, .holdOff, .latched, .railStop] → Gives (.driveStop n) s (fun t => (t.drive n).st = .idle ∧
      (t.drive n).gm = 0 ∧ (t.drive n).enables = enablesLeft s n ∧ t.stget 0 i 0x20 = 0))) ∧
  (d.st = .stopping → d.stopEnd ≤ s.clk.tick → Gives (.driveStop n) s (fun t => (t.drive n).st = .idle ∧ (t.drive n).gm = 0 ∧
    t.stget 0 i 0x20 = 0)) ∧
  (enableDue s n ≠ some false → d.st ≠ .stopping ∨ s.clk.tick < d.stopEnd → exec (.driveStop n) s = .next s) ∧
  (s.gate i = 0 → Gives (.clearLatch n 1) s (fun t => t.drive n = { d with clears := d.clears ++ [s.clk.tick + 4] })) ∧
  (s.gate i = 0 → exec (.clearLatch n 0) s = .next s) ∧
  (1 < v → Declines (.clearLatch n v) s Abort.range) ∧
  (v ≤ 1 → s.gate 0x501F = 0 → (∀ k, k < 16 → s.flag (0x5000 + k) 0x01 = false) → Gives (.driveEnableGlobal v) s (fun t =>
    t = s.put 0 0x501F 0x01 v)) ∧
  (v ≤ 1 → s.flag i 0x01 = true → Declines (.driveEnableGlobal v) s Abort.conflict) ∧
  (∀ u, u = s.elapse at_ → Gives (.driveGateChange at_ level) s (fun t => t.twin.actIn = level ∧
    t.stget 0 0x501F 0x02 = b2n (driveSel t) ∧ (level = true → driveSel t = false ∧ ∀ k, driveLevel t k = false) ∧
    (level = false → t.twin.role = s.twin.role ∧ t.twin.actOut = s.twin.actOut ∧
      (s.twin.gateUp = false → ∀ k, driveLevel t k = false))))

/-- HEARTBEAT_FRAME_RECEIVED, HEARTBEAT_LINE_EDGE, TWIN_EVALUATION, SPLIT_BRAIN_SUSPECTED, ACT_IN_COLLISION, ACT_OUT_CLAIM,
COLLISION_TIMEOUT, COLLISION_CLEAR, ACT_OUT_DEADMAN_STARVED (R346, R445 to R459, R472, R473). -/
def Obligations.TwinLink : Prop := ∀ (s : State) (at_ low : Nat) (f g : HbFrame),
  let x := s.clk.tick
  (∀ u, u = s.elapse at_ → s.ticking = true →
    (hbValid f = true → (f.tick = x ∧ u.clk.ofs ≤ 2000) ∨ f.tick = x + 1 →
      Gives (.heartbeatFrameReceived at_ f) s (fun t => t.twin.frame = some f ∧ t.twin.frameTick = f.tick ∧
        (t.twin.broken = true ↔ bitOf f.flags 0 = true ∧ s.twin.actIn = false) ∧
        (f.twin = s.sup.twinId → s.twin.role = .active → t.twin.role = .solo) ∧
        (f.twin = s.sup.twinId → s.twin.role = .standby ∨ s.twin.role = .off → t.twin.role = .isolated ∧ t.twin.sync = 0 ∧ t.twin.actOut = false) ∧
        (f.twin ≠ s.sup.twinId → s.twin.role = .solo → frameServes f = true → f.role ≠ 1 → t.twin.role = .active ∧
          t.twin.inService = true) ∧
        (s.sup.twinId = 1 → f.twin = 0 → f.role = 1 → Role.drives s.twin.role = true → t.twin.actOut = false ∧
          (mayRejoin s = true → t.twin.role = .standby ∧ t.twin.sync = 1) ∧
          (mayRejoin s = false → t.twin.role = .isolated)))) ∧
    (hbValid f = false ∨ (f.tick = x ∧ 2000 < u.clk.ofs) ∨ (f.tick ≠ x ∧ f.tick ≠ x + 1) →
      exec (.heartbeatFrameReceived at_ f) s = .next (if f.fcsOk then u.heard 3 else u.bump 0x2113 0x06 1)) ∧
    (u.clk.ofs ≤ 2000 → Gives (.heartbeatLineEdge at_) s (fun t => t = { u with twin := { u.twin with hbEdge := true } })) ∧
    (2000 < u.clk.ofs → tickLen x ≤ u.clk.ofs + 1000 → Gives (.heartbeatLineEdge at_) s (fun t =>
      t = { u with twin := { u.twin with hbNext := true } })) ∧
    (2000 < u.clk.ofs → u.clk.ofs + 1000 < tickLen x → exec (.heartbeatLineEdge at_) s = .next u)) ∧
  (s.ticking = true →
    (s.twin.evalTick ≠ x ∨ x = 0 → Gives (.twinEvaluation low) s (fun t => t.twin.evalTick = x ∧ t.twin.hbSeen = s.twin.hbEdge ∧
      t.twin.tlSeen = (frameNow s).isSome ∧
      t.stget 0 0x6000 0x13 = (if s.twin.hbEdge then s.stget 0 0x6000 0x13 else min (s.stget 0 0x6000 0x13 + 1) (2 ^ 32 - 1)) ∧
      t.stget 0 0x6000 0x14 = (if (frameNow s).isSome then s.stget 0 0x6000 0x14
        else min (s.stget 0 0x6000 0x14 + 1) (2 ^ 32 - 1)))) ∧
    (s.twin.evalTick = x → x ≠ 0 → exec (.twinEvaluation low) s = .next (s.elapse 2000)) ∧
    (s.twin.role = .standby → s.twin.evalTick + 1 = x → 200 ≤ low →
      let takes : Nat → State → Prop := fun cause t => t.twin.role = .solo ∧ t.twin.actOut = true ∧ t.twin.actIn = false ∧
        t.twin.sync = 0 ∧ t.stget 0 0x6000 0x11 = x ∧ t.stget 0 0x6000 0x12 = cause ∧
        t.stget 0 0x6000 0x10 = min (s.stget 0 0x6000 0x10 + 1) (2 ^ 32 - 1)
      (s.twin.hbEdge = false → s.twin.hbSil1 = true → frameNow s = none → s.twin.tlSil1 = true →
        Gives (.twinEvaluation low) s (takes 1)) ∧
      (frameNow s = some g → firstUnequal s g (x - 4) = none → bitOf g.flags 0 = false →
        (s.twin.hbEdge = false → s.twin.hbSil1 = true → bitOf g.flags 3 = true → Gives (.twinEvaluation low) s (takes 2)) ∧
        (bitOf g.flags 4 = true → bitOf g.flags 3 = false → Gives (.twinEvaluation low) s (takes 3))))) ∧
  Gives .splitBrainSuspected s (fun t => (0 ∈ (t.evSrc 156).active ↔ 3000 ≤ s.twin.soloRun) ∧ t.twin = s.twin) ∧
  (∀ u, u = s.elapse at_ →
    (s.twin.actOut = true → s.sup.twinId ≠ 1 → Gives (.actInCollision at_) s (fun t =>
      t.twin.collision = (if s.twin.actIn then s.twin.collision else true) ∧
      t.twin.role = s.twin.role ∧ t.twin.actIn = true ∧ t.twin.actOut = true ∧ (s.twin.actIn = false → Raises u t 146 0))) ∧
    (s.twin.actOut = true → s.sup.twinId = 1 → Gives (.actInCollision at_) s (fun t => t.twin.actOut = false ∧ t.twin.actIn = true ∧
      (idConflict s = false → t.twin.role = .standby ∧ t.twin.sync = 1) ∧ (idConflict s = true → t.twin.role = .isolated))) ∧
    (s.twin.actOut = false → Gives (.actInCollision at_) s (fun t => t.twin = { u.twin with actIn := true, gateUp := false })) ∧
    (Role.drives s.twin.role = true → s.twin.actOut = false → 200 ≤ low → s.twin.broken = false →
      Gives (.actOutClaim at_ low) s (fun t => t = { u with twin := { u.twin with
        actOut := true, actIn := false, actRise := (u.clk.tick, u.clk.ofs) } })) ∧
    (Role.drives s.twin.role = false ∨ low < 200 ∨ s.twin.broken = true → exec (.actOutClaim at_ low) s = .next u)) ∧
  (s.twin.actOut = true → s.sup.twinId = 0 → Gives (.collisionTimeout true) s (fun t => Raises s t 147 0 ∧
    t.stget 0 0x6000 0x1B = min (s.stget 0 0x6000 0x1B + 1) (2 ^ 32 - 1))) ∧
  Gives (.collisionTimeout false) s (fun t => t.twin = { s.twin with actIn := false, gateUp := s.twin.gateUp && driveSel t } ∧ t.stget 0 0x6000 0x1B = s.stget 0 0x6000 0x1B) ∧
  Gives .collisionClear s (fun t => t = { s with twin := { s.twin with collision := false } }) ∧
  (s.twin.fed1 = false → s.twin.fed2 = false → Gives .actOutDeadmanStarved s (fun t => t.twin = { s.twin with actOut := false, gateUp := false } ∧
    ∀ k, driveLevel t k = false)) ∧
  (s.twin.fed1 = true ∨ s.twin.fed2 = true → exec .actOutDeadmanStarved s = .next s)

/-- FAULT_HANDOVER, ACTIVE_FAULT_HANDOVER, HANDOVER, ISOLATE (R462 to R464, R471). -/
def Obligations.TwinRoles : Prop := ∀ (s : State) (v b : Nat),
  let tells : State → Prop := fun t => s.open 3 = true → ∃ h, OutFrame.heartbeat h (hbPayload h) ∈ t.out ∧ h.tick = s.clk.tick ∧
    h.role = 2 ∧ bitOf h.flags 4 = true ∧ bitOf h.flags 0 = false ∧ ∀ k p, OutFrame.heartbeat k p ∈ t.out → k.tick = s.clk.tick → k = h
  let leaves : Role → Nat → State → Prop := fun r sync t => t.twin.role = r ∧ t.twin.sync = sync ∧ t.twin.actOut = false ∧
    t.twin.release = true ∧ tells t
  (s.twin.role = .active → faultBit s = true → partnerFit s = true → Gives .faultHandover s (fun t => leaves .standby 0 t ∧
    (s.time.state = .grandmaster → t.time.state = .holdover))) ∧
  (s.twin.role ≠ .active ∨ faultBit s = false ∨ partnerFit s = false → exec .faultHandover s = .next s) ∧
  (s.twin.handTick = some b → s.twin.role = .active → partnerFit s = true → b < s.twin.frameTick →
    Gives .activeFaultHandover s (fun t => leaves .standby 5 t ∧ t.twin.handTick = none ∧ Raises s t 153 s.twin.ownFaults.length)) ∧
  (s.twin.handTick = none ∨ s.twin.role ≠ .active ∨ partnerFit s = false ∨ (s.twin.handTick = some b ∧ s.twin.frameTick ≤ b) → exec .activeFaultHandover s = .next s) ∧
  (s.gate 0x6000 = 0 → s.twin.role = .active → partnerFit s = true → Gives (.handover 1) s (fun t => leaves .standby 5 t ∧
    t.twin.handTick = none ∧ (s.time.state = .grandmaster → t.time.state = .holdover))) ∧
  (s.gate 0x6000 = 0 → exec (.handover 0) s = .next s) ∧
  (s.twin.role ≠ .active ∨ partnerFit s = false → Declines (.handover 1) s Abort.conflict) ∧
  (s.gate 0x6000 = 0 →
    (s.twin.role = .active → partnerFit s = true → Gives (.isolate 1) s (fun t => leaves .isolated 0 t ∧
      t.val 0 0x6000 0x04 = 1)) ∧
    (s.twin.role = .standby → Gives (.isolate 1) s (fun t => t.twin.role = .isolated ∧ t.twin.sync = 0 ∧ t.twin.actOut = false ∧
      t.twin.release = s.twin.release ∧ t.val 0 0x6000 0x04 = 1)) ∧
    (s.twin.role = .isolated → idConflict s = false → Gives (.isolate 0) s (fun t => t.twin.role = .standby ∧ t.twin.sync = 1 ∧
      t.twin.joinTick = s.clk.tick ∧ t.val 0 0x6000 0x04 = 0)) ∧
    (s.twin.role = .isolated → idConflict s = true → Gives (.isolate 0) s (fun t => t.twin.role = .isolated ∧ t.val 0 0x6000 0x04 = 0)) ∧
    (s.twin.role = .off → Gives (.isolate 1) s (fun t => t = s.put 0 0x6000 0x04 1))) ∧
  (s.twin.role = .solo ∨ (s.twin.role = .active ∧ partnerFit s = false) → Declines (.isolate 1) s Abort.conflict) ∧
  (1 < v → Declines (.handover v) s Abort.range ∧ Declines (.isolate v) s Abort.range)

/-- JOIN_IMAGE_COMPLETE, JOIN_FILL_END, JOIN_CUT_INSTALL, JOIN_VERIFY_END (R465 to R469). That the failure after three restarts isolates is
assumption 136. -/
def Obligations.JoinSteps : Prop := ∀ (s : State) (m : JoinImage) (c : JoinCut) (inTime up : Bool),
  let ms := (s.clk.tick - s.twin.joinTick) / 3
  let ds : Int := (ent (s.dictAt 1) 8 0x4400 0x07 : Nat)
  let dz : Int := (ent (s.dictAt 1) 4 0x4400 0x09 : Nat)
  let fill := if s.n = 32 then 8200 else 16400
  (s.twin.role = .standby → s.twin.sync = 1 → m.block ≤ s.clk.tick → Gives (.joinImageComplete m) s (fun t => t.twin.sync = 2 ∧
    t.twin.role = .standby ∧ t.twin.imageB = m.block ∧ t.twin.joinLog = [] ∧ t.stget 0 0x6000 0x0A = m.uid ∧ t.clk = s.clk ∧
    (m.block = s.clk.tick → ∀ k d,
      (sharedKey k = true → ∀ v, (k, v) ∈ m.dict → (∀ w, (k, w) ∈ m.dict → w = v) → mget d t.dict k = v) ∧
      (sharedKey k = true → (∀ w, (k, w) ∉ m.dict) → mget d t.dict k = d) ∧
      (sharedKey k = false → (∀ w, (k, w) ∉ m.dict) → mget d t.dict k = mget d s.dict k)))) ∧
  (s.twin.role ≠ .standby ∨ s.twin.sync ≠ 1 ∨ s.clk.tick < m.block → exec (.joinImageComplete m) s = .next s) ∧
  (s.twin.imageB ≠ 0 → s.twin.cutB = 0 → s.twin.imageB + fill ≤ s.clk.tick →
    (s.twin.role = .standby → s.twin.sync = 2 → exec (.joinFillEnd true) s =
      .next { s with twin := { s.twin with behind := false, cutB := s.clk.tick, sync := 3 } }) ∧
    (s.twin.role = .active → s.twin.partnerSync = 2 → exec (.joinFillEnd true) s =
      .next { s with twin := { s.twin with behind := false, cutB := s.clk.tick } })) ∧
  (up = false ∨ s.twin.imageB = 0 ∨ s.twin.cutB ≠ 0 ∨ s.clk.tick < s.twin.imageB + fill →
    exec (.joinFillEnd up) s = .next { s with twin := { s.twin with behind := !up } }) ∧
  (s.twin.role = .standby → s.twin.sync = 3 →
    (s.clk.tick = c.block + 3 → Gives (.joinCutInstall c true) s (fun t => t.twin.sync = 4 ∧ t.twin.role = .standby ∧
      t.twin.verified = 0 ∧ t.twin.cutB = c.block ∧ t.drift.sigma = c.sigma + satTo (-ds) ds (c.sigmaT - c.sigma) ∧
      t.drift.sigmaT = c.sigmaT ∧ t.drift.zoffT = c.zoffT ∧ t.clk = s.clk ∧
      ∀ z, mget 0 t.drift.zoff z = mget 0 c.zoff z + satTo (-dz) dz (mget 0 c.zoffT z - mget 0 c.zoff z))) ∧
    (inTime = false ∨ s.clk.tick ≠ c.block + 3 → s.twin.joinFails < 3 → Gives (.joinCutInstall c inTime) s (fun t =>
      t.twin.sync = 1 ∧ t.twin.role = .standby ∧ t.twin.joinFails = s.twin.joinFails + 1 ∧ t.twin.imageB = 0 ∧ t.twin.cutB = 0 ∧
      t.twin.joinLog = [] ∧ t.dict = s.dict)) ∧
    (inTime = false ∨ s.clk.tick ≠ c.block + 3 → 3 ≤ s.twin.joinFails → Gives (.joinCutInstall c inTime) s (fun t =>
      t.twin.role = .isolated ∧ t.twin.sync = 0 ∧ t.twin.joinFails = 0 ∧ Raises s t 155 0))) ∧
  (s.twin.role ≠ .standby ∨ s.twin.sync ≠ 3 → exec (.joinCutInstall c inTime) s = .next s) ∧
  (s.twin.role = .standby → s.twin.sync = 4 → 3000 ≤ s.twin.verified → Gives .joinVerifyEnd s (fun t => t.twin.sync = 5 ∧
    t.twin.marks = [] ∧ t.twin.joinFails = 0 ∧ t.stget 0 0x6000 0x1C = min (s.stget 0 0x6000 0x1C + 1) (2 ^ 32 - 1) ∧
    t.stget 0 0x6000 0x1D = ms ∧ Raises s t 154 ms)) ∧
  (s.twin.role ≠ .standby ∨ s.twin.sync ≠ 4 ∨ s.twin.verified < 3000 → exec .joinVerifyEnd s = .next s)

/-- FOL_OPEN, FOL_CLOSE, FOL_READ, FOL_WRITE, FOL_READ_SEG, FOL_WRITE_SEG, FOL_XFER_ABORT, FOL_KEEPALIVE, FOL_IDENT (R346, R411 to R432). -/
def Obligations.FolRequests : Prop := ∀ (s u : State) (at_ : Nat) (src : FolSrc) (f : FolFrame) (x : Session),
  u = folFrameIn (s.elapse at_) src →
  let untagged : State → Nat → Prop := fun t code => t.out = u.out ++ [.fol src.port src.addr (folResponse f 0 0 0 code [])]
  let w := requestTurn u x f
  let keeps : State → Prop := fun t => ∃ y, sessionOf t x.id = some y ∧ y.seq = f.seq ∧ y.lastAt = u.clk.local ∧
    y.kept.isSome = true ∧ y.key = x.key
  (∀ p ∈ [(1, Instr.folOpen at_ src f), (2, .folClose at_ src f), (3, .folRead at_ src f), (4, .folWrite at_ src f),
      (5, .folReadSeg at_ src f), (6, .folWriteSeg at_ src f), (7, .folXferAbort at_ src f), (8, .folKeepalive at_ src f),
      (9, .folIdent at_ src f)], p.1 ≠ 1 ∧ p.1 ≠ 9 ∨ f.session ≠ 0 →
    (folHears u src = false ∨ folPortOk u src f = false ∨ u.sup.mod = .recovery → exec p.2 s = .next u) ∧
    (folHears u src = true → folPortOk u src f = true → u.sup.mod ≠ .recovery →
      (folBroken f = true → Gives p.2 s (fun t => t.out = u.out ∧ Counts u t 0x1020 0x06 1 ∧ t.fol.sessions = u.fol.sessions)) ∧
      (folBroken f = false → f.session ≠ 0 → sessionOf u f.session = some x → f.tag ≠ folTag x.key f →
        Gives p.2 s (fun t => t.out = u.out ∧ Counts u t 0x1020 0x06 1 ∧ t.fol.sessions = u.fol.sessions)) ∧
      (folBroken f = false → f.session = 0 ∨ sessionOf u f.session = none → Gives p.2 s (fun t => untagged t Abort.noneSuch))) ∧
    (Heard u src x f →
      (f.op ≠ p.1 → Gives p.2 s (fun t => Answers u t src x f 0 0 0 Abort.unknownOp [] ∧ t.pend = s.pend)) ∧
      (f.op = p.1 → folFault f x.segment = true → Gives p.2 s (fun t => Answers u t src x f 0 0 0 Abort.malformed [])) ∧
      (f.op = p.1 → folFault f x.segment = false →
        (∀ k, f.seq = x.seq → x.kept = some k → Gives p.2 s (fun t => t.out = u.out ++ [.fol src.port src.addr k] ∧
          t.pend = s.pend)) ∧
        (f.seq ≠ x.seq → f.seq ≠ (x.seq + 1) % 2 ^ 32 → Gives p.2 s (fun t => Answers u t src x f 0 0 0 Abort.sequence [] ∧
          t.stget 0 0x1020 0x07 = min (s.stget 0 0x1020 0x07 + 1) (2 ^ 32 - 1))) ∧
        (f.seq = (x.seq + 1) % 2 ^ 32 → folRate u x = false → Gives p.2 s (fun t => Answers u t src x f 0 0 0 Abort.busy []))))) ∧
  (NextRequest u src x f 9 → Gives (.folIdent at_ src f) s (fun t => Answers u t src x f 0 0 28 0 (identData w.1) ∧ keeps t)) ∧
  (NextRequest u src x f 8 → Gives (.folKeepalive at_ src f) s (fun t => Answers u t src x f 0 0 0 0 [] ∧ keeps t)) ∧
  (NextRequest u src x f 2 → Gives (.folClose at_ src f) s (fun t => Answers u t src x f 0 0 0 0 [] ∧ sessionOf t x.id = none)) ∧
  (NextRequest u src x f 7 →
    (x.xfer = none → Gives (.folXferAbort at_ src f) s (fun t => Answers u t src x f 0 0 0 0 [] ∧ keeps t)) ∧
    (x.xfer.isSome = true → Gives (.folXferAbort at_ src f) s (fun t => Answers u t src x f 0 0 0 Abort.aborted [] ∧ keeps t ∧
      ∃ y, sessionOf t x.id = some y ∧ y.xfer = none))) ∧
  (NextRequest u src x f 3 →
    (readAccess f.index f.sub x.level = 0 → let v := readValue w.1 f.index f.sub
      Gives (.folRead at_ src f) s (fun t => keeps t ∧
        Answers u t src x f (if x.segment < v.length then flagM else 0) 0 v.length 0 (v.take x.segment) ∧
        ∃ y, sessionOf t x.id = some y ∧ y.fixed = some (f.index, f.sub, v))) ∧
    (readAccess f.index f.sub x.level ≠ 0 → Gives (.folRead at_ src f) s (fun t => keeps t ∧
      Answers u t src x f 0 0 0 (readAccess f.index f.sub x.level) [] ∧ ∃ y, sessionOf t x.id = some y ∧ y.fixed = none))) ∧
  (∀ v, NextRequest u src x f 5 → x.fixed = some (f.index, f.sub, v) →
    (f.offset ≤ v.length → Gives (.folReadSeg at_ src f) s (fun t => keeps t ∧
      Answers u t src x f (if f.offset + x.segment < v.length then flagM else 0) f.offset v.length 0
        ((v.drop f.offset).take x.segment))) ∧
    (v.length < f.offset → Gives (.folReadSeg at_ src f) s (fun t => Answers u t src x f 0 0 0 Abort.segTotal []))) ∧
  (NextRequest u src x f 5 → (∀ v, x.fixed ≠ some (f.index, f.sub, v)) → Gives (.folReadSeg at_ src f) s (fun t =>
    Answers u t src x f 0 0 0 Abort.segOrder [])) ∧
  (∀ r, NextRequest u src x f 4 → x.xfer = none → bitOf f.flags 1 = false → f.offset = 0 → f.length = f.total → f.total ≠ 0 →
    f.apply = 0 → writeAccess f.index f.sub x.level = 0 → rowOf f.index f.sub = some r → actsAtOnce r f.index f.sub = false →
    let ahead := if r.shared then (f.data.length + (s.fol.fwdEnd - u.clk.local).toNat) / 65536 else 0
    let p : Pending := {
      index := f.index, sub := f.sub, bytes := f.data, block := s.clk.tick + 2 + ahead, time := none, keyT := u.clk.local.toNat,
      keyId := s.sup.twinId, await := false, session := x.id, seq := f.seq, op := f.op }
    let code := writeCheck w.1 (stateAhead w.1 p) r f.index f.sub f.data true
    (code = 0 → pendCount s < 4096 →
      (r.shared = false ∨ s.twin.inService = false → Gives (.folWrite at_ src f) s (fun t => t.pend = s.pend ++ [p] ∧ keeps t ∧
        Answers u t src x f (if r.shared then flagN else 0) 0 0 0 [])) ∧
      (r.shared = true → s.twin.inService = true → Gives (.folWrite at_ src f) s (fun t =>
        t.pend = s.pend ++ [{ p with await := true }] ∧ (u.open 3 = true → ∃ fwd, t.out = u.out ++ [.forward fwd] ∧ fwd.keyT = p.keyT ∧
          fwd.index = f.index ∧ fwd.sub = f.sub ∧ fwd.block = p.block)))) ∧
    (code = 0 → 4096 ≤ pendCount s → Gives (.folWrite at_ src f) s (fun t => t.pend = s.pend ∧
      Answers u t src x f 0 0 0 Abort.busy [])) ∧
    (code ≠ 0 → Gives (.folWrite at_ src f) s (fun t => t.pend = s.pend ∧ Answers u t src x f 0 0 0 code []))) ∧
  (NextRequest u src x f 4 → x.xfer = none → bitOf f.flags 1 = true → f.offset = 0 → 0 < f.total → f.length ≤ f.total →
    startCheck w.1 f = 0 → Gives (.folWrite at_ src f) s (fun t => Answers u t src x f 0 0 0 0 [] ∧ t.pend = s.pend ∧
      ∃ y r, sessionOf t x.id = some y ∧ y.xfer = some r ∧ r.data = f.data ∧ r.index = f.index ∧ r.sub = f.sub ∧ r.total = f.total)) ∧
  (∀ r, NextRequest u src x f 6 → x.xfer = some r → f.index = r.index → f.sub = r.sub → f.total = r.total →
    (f.offset = r.data.length → f.offset + f.length ≤ f.total → bitOf f.flags 1 = true → Gives (.folWriteSeg at_ src f) s (fun t =>
      Answers u t src x f 0 0 0 0 [] ∧ ∃ y, sessionOf t x.id = some y ∧
        y.xfer = some { r with data := r.data ++ f.data, time := u.clk.local })) ∧
    (f.offset ≠ r.data.length → Gives (.folWriteSeg at_ src f) s (fun t => Answers u t src x f 0 0 0 Abort.segOrder [] ∧
      t.pend = s.pend ∧ ∃ y, sessionOf t x.id = some y ∧ y.xfer = none))) ∧
  (f.op = 1 → f.session = 0 → folHears u src = true → folPortOk u src f = true → u.sup.mod ≠ .recovery → folBroken f = false →
    openMalformed f = false →
    let level := beAt f.data 0 1
    let kl := levelKey u src level
    (kl ≠ [] → f.tag = folTag kl f → level < 4 ∨ src.port = 2 →
      (u.fol.sessions.length < 16 → Gives (.folOpen at_ src f) s (fun t => t.draws = s.draws + 2 ∧
        ∃ y k, t.fol.sessions = u.fol.sessions ++ [y] ∧ y.level = level ∧ y.segment = beAt f.data 2 2 ∧ y.port = src.port ∧
          y.addr = src.addr ∧ y.udp = src.udp ∧ y.seq = 0 ∧ y.notify = bitOf (beAt f.data 1 1) 0 ∧ y.kept = some k ∧ k.status = 0 ∧
          k.tag = folTag y.key k ∧ t.out = u.out ++ [.fol src.port src.addr k])) ∧
      (16 ≤ u.fol.sessions.length → Gives (.folOpen at_ src f) s (fun t => untagged t Abort.noSession ∧
        t.fol.sessions = u.fol.sessions))) ∧
    (kl = [] → Gives (.folOpen at_ src f) s (fun t => untagged t Abort.noLevel ∧ t.fol.sessions = u.fol.sessions)) ∧
    (kl ≠ [] → f.tag ≠ folTag kl f → Gives (.folOpen at_ src f) s (fun t => t.out = u.out ∧ Counts u t 0x1020 0x06 1))) ∧
  (f.op = 1 → f.session = 0 → folHears u src = false ∨ folPortOk u src f = false ∨ u.sup.mod = .recovery →
    exec (.folOpen at_ src f) s = .next u) ∧
  (f.op = 9 → f.session = 0 → folHears u src = false ∨ folPortOk u src f = false → exec (.folIdent at_ src f) s = .next u) ∧
  (f.op = 9 → f.session = 0 → folHears u src = true → folPortOk u src f = true → folBroken f = false →
    let seen := if u.fol.identSec = folSecond u then mget 0 u.fol.idents src.port else 0
    (seen < 10 → Gives (.folIdent at_ src f) s (fun t => mget 0 t.fol.idents src.port = seen + 1 ∧
      t.out = u.out ++ [.fol src.port src.addr (folResponse f 0 0 28 0 (identData u))])) ∧
    (10 ≤ seen → exec (.folIdent at_ src f) s = .next u))

/-- SESSION_TIMEOUT, TRANSFER_TIMEOUT, WRITE_FORWARD_RECEIVED, WRITE_VERDICT_RECEIVED, VERDICT_TIMEOUT, WRITE_APPLY (R416 to R433). -/
def Obligations.FolTimeouts : Prop := ∀ (s u : State) (at_ id keyT code : Nat) (x : Session) (p : Pending) (r : Row) (fwd : Forward),
  u = (s.elapse at_).heard 3 →
  let span : Int := (s.val 10 0x1020 0x04 : Nat) * 1000000000
  ((∀ y ∈ s.fol.sessions, y.id = id → y.lastAt + span ≤ s.clk.local) → Gives (.sessionTimeout id) s (fun t =>
    sessionOf t id = none ∧ t.fol.sessions = s.fol.sessions.filter (fun y => decide (y.id ≠ id)) ∧ t.pend = s.pend)) ∧
  ((∀ y ∈ s.fol.sessions, y.id = id → s.clk.local < y.lastAt + span) → exec (.sessionTimeout id) s = .next s) ∧
  (∀ q, sessionOf s id = some x → x.xfer = some q →
    (transferLives s q = false → Gives (.transferTimeout id) s (fun t => (∃ y q', sessionOf t id = some y ∧ y.xfer = some q' ∧
      q'.data = [] ∧ q'.dead = true) ∧ t.pend = s.pend ∧ (q.index = 0xA000 → t.upd.stage ≠ 1))) ∧
    (transferLives s q = true → exec (.transferTimeout id) s = .next s)) ∧
  (rowOf fwd.index fwd.sub = none → Gives (.writeForwardReceived at_ fwd) s (fun t => t.pend = s.pend ∧
    (u.open 3 = true → t.out = u.out ++ [.verdict fwd.keyT (missing fwd.index)]))) ∧
  (rowOf fwd.index fwd.sub = some r → r.atOnce = false →
    let b := valBytes r fwd.val
    let w : Pending := {
      index := fwd.index, sub := fwd.sub, bytes := b, block := fwd.block, time := none, keyT := fwd.keyT, keyId := fwd.keyId,
      await := false, session := 0, seq := 0, op := 0 }
    let c := writeCheck u (stateAhead u w) r fwd.index fwd.sub b (partnerAccepts fwd.index fwd.sub)
    (c = 0 → pendCount s < 4096 → Gives (.writeForwardReceived at_ fwd) s (fun t => t.pend = s.pend ++ [w] ∧
      (u.open 3 = true → t.out = u.out ++ [.verdict fwd.keyT 0]))) ∧
    (c = 0 → 4096 ≤ pendCount s → Gives (.writeForwardReceived at_ fwd) s (fun t => t.pend = s.pend ∧
      (u.open 3 = true → t.out = u.out ++ [.verdict fwd.keyT Abort.busy]))) ∧
    (c ≠ 0 → Gives (.writeForwardReceived at_ fwd) s (fun t => t.pend = s.pend ∧
      (u.open 3 = true → t.out = u.out ++ [.verdict fwd.keyT c])))) ∧
  (s.pend.find? (awaits s keyT) = some p →
    (rowOf p.index p.sub = some r → r.atOnce = false → Gives (.writeVerdictReceived at_ keyT 0) s (fun t =>
      t.pend = s.pend.map (fun q => if q = p then { q with await := false } else q) ∧ t.twin.marks = s.twin.marks)) ∧
    (rowOf p.index p.sub = some r → r.atOnce = true → Gives (.writeVerdictReceived at_ keyT 0) s (fun t => p ∉ t.pend ∧
      (∀ q, q ≠ p → (q ∈ t.pend ↔ q ∈ s.pend)) ∧ t.twin.marks = s.twin.marks)) ∧
    (code ≠ 0 → Gives (.writeVerdictReceived at_ keyT code) s (fun t => p ∉ t.pend ∧ (∀ q, q ≠ p → (q ∈ t.pend ↔ q ∈ s.pend)) ∧
      t.stget 0 0x1020 0x0A = min (s.stget 0 0x1020 0x0A + 1) (2 ^ 32 - 1) ∧ t.twin.marks = s.twin.marks ++ [(p.block, 7)])) ∧
    (rowOf p.index p.sub = some r → r.atOnce = false → p.block ≤ s.clk.tick + 1 → Gives (.verdictTimeout keyT) s (fun t =>
      t.pend = s.pend.map (fun q => if q = p then { q with await := false } else q) ∧ t.twin.marks = s.twin.marks ++ [(p.block, 7)] ∧
      t.stget 0 0x1020 0x09 = min (s.stget 0 0x1020 0x09 + 1) (2 ^ 32 - 1) ∧ Raises s t 130 (p.index * 256 + p.sub))) ∧
    (s.clk.tick + 1 < p.block → exec (.verdictTimeout keyT) s = .next s)) ∧
  (s.pend.find? (awaits s keyT) = none → exec (.writeVerdictReceived at_ keyT code) s = .next u ∧
    exec (.verdictTimeout keyT) s = .next s) ∧
  Gives .writeApply s (fun t => t.pend = s.pend.filter (fun q => decide (s.clk.tick < q.block)) ∧ t.clk = s.clk ∧
    ∀ q, s.pend = [q] → q.block ≤ s.clk.tick → s.twin.sync ≠ 1 → rowOf q.index q.sub = some r → r.atOnce = false →
      let v : State := { s with pend := [] }
      (writeCheck v v r q.index q.sub q.bytes false = 0 → t = writeApply v r q.index q.sub q.block q.bytes) ∧
      (writeCheck v v r q.index q.sub q.bytes false ≠ 0 → Counts s t 0x1020 0x0D 1 ∧ t.dict = s.dict ∧
        Raises s t 129 (q.index * 256 + q.sub)))

/-- ALLOCATION_WRITE, BANK_LOAD, BANK_SWITCH, CORRECTION_ENABLE, PREPARATION_COMPLETE, CROSSFADE_END, DRIFT_ESTIMATE_WINDOW,
DRIFT_PUBLICATION, DRIFT_PUBLICATION_RECEIVED, DRIFT_APPLY, BASELINE_CAPTURE, DRIFT_MODE_WRITE (R156 to R187). That a publication interval
counts from tick 0 after a reset is the model's choice (assumption 104). -/
def Obligations.CorrectionAndDrift : Prop := ∀ (s : State) (f b v start len : Nat) (data : List Byte) (taps : List Int)
    (req : SeqReq) (est : List PairEstimate) (pub : DriftPub), f < 512 →
  let i := 0x4000 + f
  let q := ((corrAhead s).feed f).corr
  let c := (s.feed f).corr
  let ahead := q.waiting.length + (pendingRequests s f).length
  let enters : State → SeqReq → Prop := fun t r => (t.feed f).corr = { c with waiting := c.waiting ++ [(s.clk.tick, r)] } ∧
    ∀ g, g ≠ f → t.feed g = s.feed g
  (v ≤ 16384 → v % 32 = 0 → s.gate i = 0 → s.flag i 0x02 = false → q.running = none → q.waiting = [] →
    v + otherTaps s.dict f ≤ 2097152 → Gives (.allocationWrite f v) s (fun t => enters t .clear ∧ t.val 0 i 0x01 = v ∧
      t.stget 0 0x3803 0x01 = v + otherTaps s.dict f)) ∧
  (v ≤ 16384 → v % 32 = 0 → s.flag i 0x02 = true → Declines (.allocationWrite f v) s Abort.conflict) ∧
  (v % 32 ≠ 0 ∨ 16384 < v → Declines (.allocationWrite f v) s Abort.range) ∧
  (b < 2 → data ≠ [] → data.length % 4 = 0 → data.length / 4 ≤ allocation s.dict f →
    (s.gate i = 0 → (feedBank q b).state ≠ .selected → switchWaits q b = false → .switch b ∉ pendingRequests s f →
      (ahead < 8 → Gives (.bankLoad f b data) s (fun t => enters t (.load b (beWords data)))) ∧
      (8 ≤ ahead → Declines (.bankLoad f b data) s Abort.busy)) ∧
    ((feedBank q b).state = .selected ∨ switchWaits q b = true ∨ .switch b ∈ pendingRequests s f → Declines (.bankLoad f b data) s Abort.bankBusy)) ∧
  (b < 2 → s.gate i = 0 → exec (.bankLoad f b []) s = .next s) ∧
  (b ≤ 1 → s.gate i = 0 →
    (finalBank q = b → Gives (.bankSwitch f b) s (fun t => t = s.put 0 i 0x03 b)) ∧
    (finalBank q ≠ b → (feedBank q b).state ≠ .empty → ahead < 8 → Gives (.bankSwitch f b) s (fun t =>
      enters t (.switch b) ∧ t.val 0 i 0x03 = b)) ∧
    (finalBank q ≠ b → (feedBank q b).state ≠ .empty → 8 ≤ ahead → Declines (.bankSwitch f b) s Abort.busy)) ∧
  (b ≤ 1 → finalBank q ≠ b → (feedBank q b).state = .empty →
    Declines (.bankSwitch f b) s Abort.conflict) ∧
  (s.gate i = 0 → finalEnable q = false → q.bank0.state = .selected ∨ q.bank1.state = .selected → ahead < 8 → Gives (.correctionEnable f 1) s (fun t =>
    enters t (.enable true) ∧ t.val 0 i 0x02 = 1)) ∧
  (s.gate i = 0 → finalEnable q = true → Gives (.correctionEnable f 1) s (fun t => t = s.put 0 i 0x02 1)) ∧
  (s.gate i = 0 → finalEnable q = true → ahead < 8 → Gives (.correctionEnable f 0) s (fun t =>
    enters t (.enable false) ∧ t.val 0 i 0x02 = 0)) ∧
  (finalEnable q = true → 8 ≤ ahead → Declines (.correctionEnable f 0) s Abort.busy) ∧
  (s.gate i = 0 → finalEnable q = false → Gives (.correctionEnable f 0) s (fun t => t = s.put 0 i 0x02 0)) ∧
  (finalEnable q = false → q.bank0.state ≠ .selected → q.bank1.state ≠ .selected →
    Declines (.correctionEnable f 1) s Abort.conflict) ∧
  (c.running = some (.load b taps, .preparing start) →
    (start + 301 ≤ s.clk.tick → Gives (.preparationComplete f true) s (fun t => (t.feed f).corr.running = none ∧
      (feedBank (t.feed f).corr b).taps = taps ∧
      (c.selected = none → c.named = b → (t.feed f).corr.selected = some b ∧ (feedBank (t.feed f).corr b).state = .selected) ∧
      (c.selected = some b → (t.feed f).corr.selected = some b ∧ (feedBank (t.feed f).corr b).state = .selected) ∧
      (c.selected ≠ some b → c.selected.isSome = true ∨ c.named ≠ b → (t.feed f).corr.selected = c.selected ∧
        (feedBank (t.feed f).corr b).state = .ready))) ∧
    (start + 301 ≤ s.clk.tick → Gives (.preparationComplete f false) s (fun t => (t.feed f).corr.running = none ∧
      (∀ k, (feedBank (t.feed f).corr k).taps = (feedBank c k).taps) ∧ (t.feed f).corr.trim = c.trim ∧
      t.stget 0 0x3803 0x06 = min (s.stget 0 0x3803 0x06 + 1) (2 ^ 32 - 1) ∧
      t.twin.marks = s.twin.marks ++ [(start + 300, 5)] ∧ Raises s t 39 f)) ∧
    (∀ ok, s.clk.tick < start + 301 → exec (.preparationComplete f ok) s = .next s)) ∧
  (∀ tr, c.running = some (.trim tr, .preparing start) → start + 301 ≤ s.clk.tick →
    (c.enabled = true → c.selected.isSome = true → Gives (.preparationComplete f true) s (fun t =>
      (t.feed f).corr.running = some (.trim tr, .waiting false) ∧ (t.feed f).corr.newTrim = tr ∧ (t.feed f).corr.trim = c.trim)) ∧
    (c.enabled = false → Gives (.preparationComplete f true) s (fun t => (t.feed f).corr.running = none ∧ (t.feed f).corr.trim = tr ∧
      (t.feed f).corr.newTrim = none))) ∧
  (c.running = none → exec (.preparationComplete f true) s = .next s ∧ exec (.crossfadeEnd f) s = .next s) ∧
  (c.running = some (req, .crossfading start len) →
    (start + len + 1 ≤ s.clk.tick → Gives (.crossfadeEnd f) s (fun t => (t.feed f).corr.running = none ∧
      (req = .switch b → (t.feed f).corr.selected = some b ∧ (feedBank (t.feed f).corr b).state = .selected ∧
        (t.feed f).corr.cur = (feedBank c b).set) ∧
      (∀ tr, req = .trim tr → (t.feed f).corr.trim = tr ∧ (t.feed f).corr.newTrim = none) ∧
      (req = .enable true → (t.feed f).corr.enabled = true) ∧ (req = .enable false → (t.feed f).corr.enabled = false))) ∧
    (s.clk.tick < start + len + 1 → exec (.crossfadeEnd f) s = .next s)) ∧
  (s.drift.mode = 0 → exec (.driftEstimateWindow est) s = .next s) ∧
  (s.drift.mode ≠ 0 → Gives (.driftEstimateWindow est) s (fun t => ∀ k,
    let found := est.find? (fun e => decide (e.zone = k / 8) && decide (e.mic = k % 8) && estimateValid s e)
    (k ∉ trackedPairs s → pairOf t k = pairOf s k) ∧
    (k ∈ trackedPairs s → (∀ e, found = some e → (pairOf t k).state = 1 ∧ (pairOf t k).invalid = 0 ∧
      (pairOf t k).acoustic = lagOf s k e - (s.val 0 (0x4440 + k / 8) 0x02 : Int) ∧ (pairOf t k).bands = e.bands) ∧
      (found = none → (pairOf t k).acoustic = (pairOf s k).acoustic ∧
        (pairOf t k).state = (if (pairOf s k).state = 3 ∨ 2 ≤ (pairOf s k).invalid then 3 else 2))))) ∧
  (s.drift.pubAt + 3000 * s.val 10 0x4400 0x04 ≤ s.clk.tick →
    (s.drift.modeTo = 2 → s.twin.role = .solo ∨ s.twin.role = .active → Gives .driftPublication s (fun t => ∃ p,
      t.drift.pub = some p ∧ p.tickD = s.clk.tick ∧ t.drift.mode = 2 ∧ t.drift.pubAt = s.clk.tick ∧
      t.stget (2 ^ 30) 0x4400 0x10 = p.sigma.toNat ∧ t.stget 0 0x4400 0x11 = min (s.stget 0 0x4400 0x11 + 1) (2 ^ 32 - 1) ∧
      t.stget 0 0x4400 0x12 = trackerState t ∧
      t.out = (if s.twin.role = .active ∧ s.open 3 = true then s.out ++ [.drift p] else s.out) ∧
      ((basedPairs s).length < 3 → p.sigma = s.drift.sigmaT) ∧
      (3 ≤ (basedPairs s).length → s.val 1020054732 0x4400 0x05 ≤ s.val 1127428915 0x4400 0x06 →
        (s.val 1020054732 0x4400 0x05 : Int) ≤ p.sigma ∧ p.sigma ≤ (s.val 1127428915 0x4400 0x06 : Int)))) ∧
    (s.drift.modeTo = 2 → s.twin.role ≠ .solo → s.twin.role ≠ .active → Gives .driftPublication s (fun t => t.drift = { s.drift with
      mode := 2, pubAt := s.clk.tick } ∧ t.out = s.out)) ∧
    (s.drift.modeTo = 3 → s.drift.mode ≠ 3 → Gives .driftPublication s (fun t => t.drift = { s.drift with
      mode := 3, pubAt := s.clk.tick, sigmaT := s.drift.sigma, zoffT := s.drift.zoff, pub := none })) ∧
    (s.drift.modeTo = 3 → s.drift.mode = 3 → Gives .driftPublication s (fun t => t.drift = { s.drift with pubAt := s.clk.tick })) ∧
    (s.drift.modeTo ≤ 1 → Gives .driftPublication s (fun t => t.drift = { s.drift with
      mode := s.drift.modeTo, pubAt := s.clk.tick, sigmaT := 2 ^ 30, zoffT := [], pub := none }))) ∧
  (s.clk.tick < s.drift.pubAt + 3000 * s.val 10 0x4400 0x04 → exec .driftPublication s = .next s) ∧
  (s.twin.role = .standby → Gives (.driftPublicationReceived pub) s (fun t => t.drift.pub = some pub ∧
    t.stget (2 ^ 30) 0x4400 0x10 = pub.sigma.toNat ∧ t.stget 0 0x4400 0x11 = min (s.stget 0 0x4400 0x11 + 1) (2 ^ 32 - 1))) ∧
  (s.twin.role ≠ .standby → exec (.driftPublicationReceived pub) s = .next s) ∧
  (s.drift.pub = some pub →
    (pub.tickD + 4 ≤ s.clk.tick → Gives .driftApply s (fun t => t.drift.pub = none ∧ t.drift.sigmaT = pub.sigma ∧
      t.drift.sigma = s.drift.sigma ∧ (∀ z, (∀ x, (z, x) ∉ pub.zoffs) → mget 0 t.drift.zoffT z = mget 0 s.drift.zoffT z) ∧
      (∀ z x, (z, x) ∈ pub.zoffs → (∀ y, (z, y) ∈ pub.zoffs → y = x) → mget 0 t.drift.zoffT z = x))) ∧
    (s.clk.tick < pub.tickD + 4 → exec .driftApply s = .next s)) ∧
  (s.drift.pub = none → exec .driftApply s = .next s) ∧
  (s.gate 0x4400 = 0 → baselineOk s = true → Gives (.baselineCapture 1) s (fun t => t.stat = s.stat ∧
    ∀ k, k ∈ trackedPairs s → (pairOf s k).state = 1 → (pairOf t k).base = some (pairOf s k).acoustic ∧
      mget none t.nv.pairs k = some (pairOf s k).acoustic ∧
      (zoneOf t (k / 8)).target = some (zoneOf s (k / 8)).resp)) ∧
  (s.gate 0x4400 = 0 → exec (.baselineCapture 0) s = .next s) ∧
  (1 < v → Declines (.baselineCapture v) s Abort.range) ∧
  (baselineOk s = false → Declines (.baselineCapture 1) s Abort.conflict) ∧
  (v ≤ 3 → s.gate 0x4400 = 0 → Gives (.driftModeWrite v) s (fun t => t.val 0 0x4400 0x01 = v ∧ t.drift.modeTo = v ∧
    t.drift.mode = s.drift.mode ∧ (v = 3 → s.drift.mode = 2 → t.drift.sigmaT = s.drift.sigma ∧ t.drift.zoffT = s.drift.zoff ∧ t.drift.pub = none))) ∧
  (3 < v → Declines (.driftModeWrite v) s Abort.range)

/-- RENDER_START, RENDER_STOP, MEDIA_RATE_CHANGE, OBJECT_ENABLE, KEYFRAME_WRITE, MANAGEMENT_ADDRESS_WRITE, GPIO_WRITE (R54, R55, R109,
R146, R448, R564). -/
def Obligations.RenderAndObjects : Prop := ∀ (s : State) (o v sub : Nat) (actIn : Bool) (record : List Byte) (k : Keyframe),
  let meets := actIn = true ∨ partnerDrives s = true
  (s.gate 0x1100 = 0 → s.flag 0x1100 0x03 = false → renderConditions s = true → Gives (.renderStart actIn) s (fun t =>
    t.flag 0x1100 0x03 = true ∧ t.sup.mod = .rendering ∧ t.stget 0 0x1010 0x01 = ModState.code .rendering ∧ t.twin.actIn = actIn ∧
    (s.val 1 0x6000 0x06 = 0 → t.twin.role = (if actIn then .isolated else .solo)) ∧
    (s.val 1 0x6000 0x06 ≠ 0 → ¬ meets → t.twin.role = .solo) ∧
    (s.val 1 0x6000 0x06 ≠ 0 → meets → mayRejoin s = true → idConflict s = false → t.twin.role = .standby ∧ t.twin.sync = 1 ∧
      t.twin.actOut = false) ∧
    (s.val 1 0x6000 0x06 ≠ 0 → meets → mayRejoin s = false ∨ idConflict s = true → t.twin.role = .isolated ∧ t.twin.actOut = false) ∧
    ∀ n, n < 16 → s.flag (0x5000 + n) 0x01 = true → t.drive n = enableAt (s.drive n) s.clk.tick true)) ∧
  (s.gate 0x1100 = 0 → s.flag 0x1100 0x03 = true → exec (.renderStart actIn) s = .next s) ∧
  (s.flag 0x1100 0x03 = false → renderConditions s = false → Declines (.renderStart actIn) s Abort.conflict) ∧
  (s.gate 0x1100 = 0 → s.flag 0x1100 0x03 = true → Gives .renderStop s (fun t => t.flag 0x1100 0x03 = false ∧
    t.sup.mod = (if s.sup.mod = .rendering then .ready else s.sup.mod) ∧ t.twin = s.twin ∧ t.drives = s.drives)) ∧
  (s.gate 0x1100 = 0 → s.flag 0x1100 0x03 = false → exec .renderStop s = .next s) ∧
  (s.gate 0x1100 = 0 → s.flag 0x1100 0x03 = false → 1 ≤ v → v ≤ 2 →
    (s.val 2 0x1100 0x01 ≠ v → Gives (.mediaRateChange v) s (fun t => t.val 2 0x1100 0x01 = v ∧ mget 2 t.nv.dict (key 0x1100 0x01) = v ∧
      t.stget 32 0x1100 0x02 = (if v = 1 then 16 else 32) ∧ t.pipe.xcur = [] ∧ (∀ p, (pairOf t p).base = none) ∧
      (∀ z, (zoneOf t z).target = none) ∧ (∀ m, m < 8 → pdmOn t m = false) ∧ ∀ f, f < 512 → t.flag (0x4000 + f) 0x02 = false ∧
        (t.feed f).corr.selected = none ∧ (t.feed f).corr.running = none ∧ (t.feed f).corr.waiting = [])) ∧
    (s.val 2 0x1100 0x01 = v → exec (.mediaRateChange v) s = .next s)) ∧
  (1 ≤ v → v ≤ 2 → s.flag 0x1100 0x03 = true → Declines (.mediaRateChange v) s Abort.conflict) ∧
  (v = 0 ∨ 2 < v → Declines (.mediaRateChange v) s Abort.range) ∧
  (o < 512 → v ≤ 1 → s.gate (0x3000 + o) = 0 → Gives (.objectEnable o v) s (fun t => t = s.put 0 (0x3000 + o) 0x01 v)) ∧
  (o < 512 → 1 < v → Declines (.objectEnable o v) s Abort.range) ∧
  (512 ≤ o → Declines (.objectEnable o v) s Abort.noIndex) ∧
  (o < 512 →
    (keyframeOf record = some k → k.object = o → s.gate (0x3000 + o) = 0 → Gives (.keyframeWrite o record) s (fun t =>
      t.pipe = { s.pipe with arrivals := s.pipe.arrivals ++ [⟨s.clk.tick, true, 0, 0, k⟩] } ∧ entBytes t.dom (0x3000 + o) 0x06 = record)) ∧
    (record ≠ [] → record.length ≠ 48 → Declines (.keyframeWrite o record) s Abort.length) ∧
    (record.length = 48 → keyframeOf record = none → Declines (.keyframeWrite o record) s Abort.content) ∧
    (keyframeOf record = some k → k.object ≠ o → Declines (.keyframeWrite o record) s Abort.content)) ∧
  (o < 512 → exec (.keyframeWrite o []) s = .next s) ∧
  (s.gate 0x1020 = 0 → v < 2 ^ 32 → Gives (.managementAddressWrite 0x02 v) s (fun t =>
    t = { s with todo := { s.todo with mgmtAddr := some v } })) ∧
  (s.gate 0x1020 = 0 → v < 2 ^ 32 → contiguous v = true → Gives (.managementAddressWrite 0x03 v) s (fun t =>
    t = { s with todo := { s.todo with mgmtMask := some v } })) ∧
  (v < 2 ^ 32 → contiguous v = false → Declines (.managementAddressWrite 0x03 v) s Abort.range) ∧
  (s.gate 0x1040 = 0 → v < 2 ^ 16 → Gives (.gpioWrite 0x01 v) s (fun t => t = { s with todo := { s.todo with gpioDir := some v } }) ∧
    Gives (.gpioWrite 0x02 v) s (fun t => t = { s with todo := { s.todo with gpioOut := some v } })) ∧
  (1 ≤ sub → sub ≤ 2 → 2 ^ 16 ≤ v → Declines (.gpioWrite sub v) s Abort.length)

/-- ROTATE_FRAME, ROTATION_LOAD_COMPLETE, USER_SLOT_COPY, RETIRE_FRAME, RETIRE_ROD, SLOT_IMAGE_WRITE, SLOT_ENABLE (R197, R224 to R232). -/
def Obligations.FramesAndSlots : Prop := ∀ (s : State) (f q r a b u : Nat) (k : Rotation) (i : SlotImage) (x : ImageSection),
  let slot := slotOfNo s u
  let code := fun (x : ImageSection) => (if x.instr then 0x40000 else 0) + x.base
  (s.gate 0x7000 = 0 → f < 8 → frameOf s f = .inService → spareFrame s = some q → s.rot = none → s.sup.targ = none → s.upd.stage ≠ 6 →
    Gives (.rotateFrame f) s (fun t => t.rot = some ⟨f, q, 1, s.clk.tick + 2, false⟩ ∧ frameOf t q = .loading ∧
      t.val 0xFF 0x7000 0x03 = f ∧ (∀ g, g ≠ q → frameOf t g = frameOf s g) ∧ t.rods = s.rods)) ∧
  (8 ≤ f → Declines (.rotateFrame f) s Abort.range) ∧
  (f < 8 → frameOf s f ≠ .inService ∨ spareFrame s = none ∨ s.rot.isSome = true → Declines (.rotateFrame f) s Abort.conflict) ∧
  (s.rot = some k → k.phase = 1 → k.old < 8 → k.new < 8 → k.old ≠ k.new → Memory.wf s.mem = true →
    Gives .rotationLoadComplete s (fun t => t.rot = some { k with phase := 2 } ∧
      (∀ r, t.rod r = if r / 8 = k.new then (s.rod r).healed 0x40000 0x50000 else s.rod r) ∧
      (∀ p j, p < 8 → j < 0x10000 → memByte t.mem (rodWindow (8 * k.new + p) (0x40000 + j)) =
        memByte s.mem (rodWindow (8 * k.old + p) (0x40000 + j))) ∧
      ∀ c, (∀ p j, p < 8 → j < 0x10000 → c ≠ rodWindow (8 * k.new + p) (0x40000 + j)) → memByte t.mem c = memByte s.mem c)) ∧
  (s.rot = none ∨ (s.rot = some k ∧ k.phase ≠ 1) → exec .rotationLoadComplete s = .next s) ∧
  (mget (64, 64) s.moves u = (a, b) → a < 64 → b < 64 → a ≠ b →
    ((s.rod a).item = none → rodRole s b = 1 → dataLost s a = false → slot.state = 2 → Memory.wf s.mem = true → Gives (.userSlotCopy u) s (fun t => (t.rod b).slot = some u ∧
      (t.rod b).st = .running ∧ (t.rod a).slot = none ∧ (t.rod a).st = .stopped ∧ (slotOfNo t u).rod = some b ∧
      mget (64, 64) t.moves u = (64, 64) ∧ (flowOf t (Config.slotFlow u).toNat).hold = false ∧
      (flowOf t (Config.slotFlow u).toNat).pinRod = b ∧ ∀ j, j < 0x40000 → memByte t.mem (rodWindow b j) = memByte s.mem (rodWindow a j))) ∧
    ((s.rod a).item = none → rodRole s b ≠ 1 →
      (slotRod s = some q → Gives (.userSlotCopy u) s (fun t => mget (64, 64) t.moves u = (a, q) ∧ t.rods = s.rods ∧ t.mem = s.mem)) ∧
      (slotRod s = none → Gives (.userSlotCopy u) s (fun t => mget (64, 64) t.moves u = (64, 64) ∧ (slotOfNo t u).state = 3 ∧
        (flowOf t (Config.slotFlow u).toNat).hold = false))) ∧
    ((s.rod a).item ≠ none → exec (.userSlotCopy u) s = .next s)) ∧
  (mget (64, 64) s.moves u = (64, 64) → exec (.userSlotCopy u) s = .next s) ∧
  (f < 8 → frameOf s f = .inService → s.rot = none →
    (s.gate (0x7010 + f) = 0 → withoutFrame s f = true → spareFrame s = some q → Gives (.retireFrame f 1) s (fun t =>
      t.rot = some ⟨f, q, 1, s.clk.tick + 1, true⟩ ∧ frameOf t q = .loading)) ∧
    (spareFrame s = none → withoutFrame s f = true → s.gate (0x7010 + f) = 0 → Gives (.retireFrame f 1) s (fun t =>
      frameOf t f = .retired ∧ ∀ g, g ≠ f → frameOf t g = frameOf s g)) ∧
    (withoutFrame s f = false → Declines (.retireFrame f 1) s Abort.capacity)) ∧
  (f < 8 → s.rot = some k →
    (k.old = f → s.gate (0x7010 + f) = 0 → Gives (.retireFrame f 1) s (fun t => t = { s with rot := some { k with retire := true } })) ∧
    (k.old ≠ f → frameOf s f = .inService → withoutFrame s f = true → Declines (.retireFrame f 1) s Abort.conflict)) ∧
  (f < 8 → frameOf s f ≠ .inService → beingRelieved s f = false → s.gate (0x7010 + f) = 0 → Gives (.retireFrame f 1) s (fun t =>
    frameOf t f = .retired ∧ (s.rot = some k → k.new = f → k.phase < 3 → t.rot = none))) ∧
  (f < 8 → s.gate (0x7010 + f) = 0 → exec (.retireFrame f 0) s = .next s) ∧
  (r < 64 → s.gate (0x7040 + r) = 0 → rodRole s r = 0 → Gives (.retireRod r 1) s (fun t => (t.rod r).retired = true)) ∧
  (r < 64 → rodRole s r ≠ 0 → let least := if (s.rod r).slot.isSome && (slotRod s).isNone then 24 else 25
    (s.gate (0x7040 + r) = 0 → (isTransform r = true → 7 ≤ transformRods s) →
      (isTransform r = false → least ≤ renderLeft s) →
      Gives (.retireRod r 1) s (fun t => (t.rod r).retired = true)) ∧
    (isTransform r = true → transformRods s < 7 → Declines (.retireRod r 1) s Abort.capacity) ∧
    (isTransform r = false → renderLeft s < least → Declines (.retireRod r 1) s Abort.capacity) ∧
    (s.gate (0x7040 + r) = 0 → exec (.retireRod r 0) s = .next s)) ∧
  (u < 16 → i.length ≤ 393216 → i.length ≠ 0 → sectionsOk i.sections = true → i.cd ≤ 250000 → i.bd ≤ 262144 → s.flag (0x7080 + u) 0x02 = false →
    (kernelPolicyOk s i = true → s.gate (0x7080 + u) = 0 → Gives (.slotImageWrite u i) s (fun t =>
      slotOfNo t u = { UserSlot.init with image := some i, state := 1, report := slot.report } ∧ entBytes t.dom (0x7080 + u) 0x01 = i.manifest ∧
      t.stget 0 (0x7080 + u) 0x05 = i.cd)) ∧
    (kernelPolicyOk s i = false → Gives (.slotImageWrite u i) s (fun t => t.slots = s.slots ∧ t.dom = s.dom ∧
      t.stget 0 0x1020 0x0C = Abort.signature ∧ Raises s t 178 ((0x7080 + u) * 256 + 1)))) ∧
  (u < 16 → s.flag (0x7080 + u) 0x02 = false →
    (slot.image = some i → slotRod s = some r → 25 ≤ renderLeft s → s.gate (0x7080 + u) = 0 → Gives (.slotEnable u 1) s (fun t =>
      t.flag (0x7080 + u) 0x02 = true ∧ (slotOfNo t u).rod = some r ∧ (slotOfNo t u).state = 2 ∧ (t.rod r).slot = some u ∧
      (t.rod r).st = .running ∧ (flowOf t (Config.slotFlow u).toNat).pinRod = r ∧
      (i.sections = [] → ∀ j, j < 0x50000 → memByte t.mem (rodWindow r j) = 0) ∧
      (i.sections = [x] → sectionFits x = true →
        (∀ j, j < x.bytes.length → memByte t.mem (rodWindow r (code x + j)) = x.bytes.getD j 0) ∧
        ∀ j, j < 0x50000 → j < code x ∨ code x + x.bytes.length ≤ j → memByte t.mem (rodWindow r j) = 0))) ∧
    (slot.image = none → Declines (.slotEnable u 1) s Abort.conflict) ∧
    (slot.image.isSome = true → slotRod s = none ∨ renderLeft s < 25 → Declines (.slotEnable u 1) s Abort.capacity)) ∧
  (u < 16 → s.flag (0x7080 + u) 0x02 = true → s.gate (0x7080 + u) = 0 → exec (.slotEnable u 1) s = .next s) ∧
  (u < 16 → s.gate (0x7080 + u) = 0 → slot.rod = none → Gives (.slotEnable u 0) s (fun t => t.flag (0x7080 + u) 0x02 = false ∧
    (slotOfNo t u).rod = none ∧ (slotOfNo t u).state = (if slot.image.isSome then 1 else 0))) ∧
  (u < 16 → s.gate (0x7080 + u) = 0 → slot.rod = some r → slot.image = some i → Gives (.slotEnable u 0) s (fun t =>
    t.flag (0x7080 + u) 0x02 = false ∧ (slotOfNo t u).rod = none ∧ (slotOfNo t u).state = 1 ∧ (t.rod r).slot = none ∧
    (t.rod r).st = .stopped))

/-- PROVISION, DEPLOY, OPEN_MODULE, RETIRE_MODULE, LEVEL_KEY_WRITE, SHOW_KEY_WRITE, SIGNATURE_POLICY_WRITE, MINIMUM_SVN_WRITE,
SHOW_DATA_LOAD (R278, R303, R505 to R516). -/
def Obligations.KeysAndLifecycle : Prop := ∀ (s : State) (v a l : Nat) (ok : Bool) (token key : List Byte) (nonce tag data : List Byte),
  let keysIn := (∀ l, l ∈ [1, 2, 3, 4] → mget [] s.keys.level l ≠ []) ∧ 2 ∈ s.keys.roots
  let bare : State → Prop := fun t => t.keys.level = [] ∧ t.keys.show_ = [] ∧ t.keys.identity = none ∧ t.keys.record = none ∧
    t.keys.roots = [] ∧ t.keys.pendErase = none ∧ t.keys.nonceNo = s.draws ∧ t.draws = s.draws + 1 ∧ t.fol.sessions = [] ∧
    t.byp.en = false ∧ t.byp.hold = false ∧ t.flag 0x2100 0x01 = false
  let ends : State → LifeState → Prop := fun t x =>
    (ok = true → t.keys.life = x ∧ t.keys.erasures = min (s.keys.erasures + 1) 255 ∧ t.stget 0 0x9000 0x01 = LifeState.code x) ∧
    (ok = false → t.keys.life = .retired ∧ Raises s t 177 0)
  (benchLife s = true →
    (keysIn → s.gate 0x9000 = 0 → Gives (.provision 1) s (fun t => t.keys = { s.keys with
      life := .provisioned, identity := some (beBytes 32 (keyOfDraw s.drawOf.toNat)), record := some (beBytes 32 s.drawn.drawOf.toNat) } ∧
      t.stget 0 0x9000 0x01 = 1 ∧ t.draws = s.draws + 2 ∧ Raises s t 176 (LifeState.code s.keys.life * 256 + 1))) ∧
    (¬ keysIn → Declines (.provision 1) s Abort.conflict)) ∧
  (benchLife s = false → Declines (.provision 1) s Abort.lifeCycle) ∧
  (Declines (.provision 0) s Abort.lifeCycle ∧ Declines (.deploy 0) s Abort.lifeCycle) ∧
  (s.keys.life = .provisioned →
    (rootKey s 0x01 ≠ [] → s.gate 0x9000 = 0 → Gives (.deploy 1) s (fun t => t.keys = { s.keys with life := .deployed } ∧
      t.stget 0 0x9000 0x01 = 2 ∧ t.val 0 0x9030 0x01 = max 1 (s.val 0 0x9030 0x01) ∧ Raises s t 176 (1 * 256 + 2))) ∧
    (rootKey s 0x01 = [] → Declines (.deploy 1) s Abort.conflict)) ∧
  (s.keys.life ≠ .provisioned → Declines (.deploy 1) s Abort.lifeCycle) ∧
  (token.length = 96 →
    (s.keys.life = .deployed → s.sup.mod = .ready ∨ s.sup.mod = .failed → tokenOk s 1 token = true → s.gate 0x9000 = 0 →
      Gives (.openModule token ok) s (fun t => bare t ∧ ends t .opened)) ∧
    (s.keys.life = .deployed → s.sup.mod = .ready ∨ s.sup.mod = .failed → tokenOk s 1 token = false →
      Gives (.openModule token ok) s (fun t => t.keys = { s.keys with nonceNo := s.draws } ∧ t.draws = s.draws + 1 ∧
        t.stget 0 0x1020 0x0C = Abort.credential ∧ t.fol = s.fol)) ∧
    (s.keys.life ≠ .retired → s.keys.life = .blank ∨ tokenOk s 2 token = true → s.gate 0x9000 = 0 →
      Gives (.retireModule token ok) s (fun t => bare t ∧ ends t .retired ∧ (ok = true → t.keys.fuse = true)))) ∧
  (0 < token.length → token.length < 96 → Declines (.openModule token ok) s Abort.length ∧
    Declines (.retireModule token ok) s Abort.length) ∧
  (1 ≤ l → l ≤ 4 → key.length = 32 →
    (s.keys.life ≠ .parked → s.keys.life ≠ .retired → s.gate 0x9010 = 0 → Gives (.levelKeyWrite l key) s (fun t =>
      mget [] t.keys.level l = key ∧ (∀ k, k ≠ l → mget [] t.keys.level k = mget [] s.keys.level k) ∧ t.keys.life = s.keys.life ∧
      t.fol.sessions = (if s.keys.life = .provisioned ∨ s.keys.life = .deployed
        then s.fol.sessions.filter (fun x => decide (x.level ≠ l)) else s.fol.sessions))) ∧
    (s.keys.life = .parked → Declines (.levelKeyWrite l key) s Abort.conflict)) ∧
  (1 ≤ l → l ≤ 4 → exec (.levelKeyWrite l []) s = .next s) ∧
  (l < 16 → key.length = 32 →
    (s.keys.life ≠ .parked → s.keys.life ≠ .retired → s.gate 0x9010 = 0 → Gives (.showKeyWrite l key) s (fun t =>
      t = { s with keys := { s.keys with show_ := mset [] s.keys.show_ l key } })) ∧
    (s.keys.life = .parked → Declines (.showKeyWrite l key) s Abort.conflict)) ∧
  (v ≤ 2 → v ≠ 0 ∨ s.keys.life = .blank ∨ s.keys.life = .provisioned ∨ s.keys.life = .opened → s.gate 0x9030 = 0 →
    Gives (.signaturePolicyWrite v) s (fun t => t = s.putNv 0 0x9030 0x01 v)) ∧
  (s.keys.life = .deployed → Declines (.signaturePolicyWrite 0) s Abort.lifeCycle) ∧
  (2 < v → Declines (.signaturePolicyWrite v) s Abort.range) ∧
  (s.val 0 0x9030 0x02 ≤ v → v < 2 ^ 32 → s.gate 0x9030 = 0 → Gives (.minimumSvnWrite v) s (fun t => t = s.putNv 0 0x9030 0x02 v)) ∧
  (v < s.val 0 0x9030 0x02 → v < 2 ^ 32 → Declines (.minimumSvnWrite v) s Abort.range) ∧
  (∀ id plain, showPlain s id nonce data tag = some plain →
    (s.dram.state = 2 ∨ s.dram.state = 3 → inShowRange a plain.length = true →
      Gives (.showDataLoad id nonce data tag a) s (fun t => ∀ j, j < plain.length → memByte t.mem (a + j) = plain.getD j 0)) ∧
    ((s.dram.state ≠ 2 ∧ s.dram.state ≠ 3) ∨ inShowRange a plain.length = false →
      exec (.showDataLoad id nonce data tag a) s = .next s)) ∧
  (s.val 0 0x9030 0x01 = 0 → showPlain s none nonce data tag = some data) ∧
  (∀ id, showPlain s id nonce data tag = none → Gives (.showDataLoad id nonce data tag a) s (fun t => t.mem = s.mem ∧
    t.stget 0 0x1020 0x0C = Abort.signature ∧ Raises s t 178 0)) ∧
  (s.val 0 0x9030 0x01 ≠ 0 → Gives (.showDataLoad none nonce data tag a) s (fun t => t.mem = s.mem ∧
    t.stget 0 0x1020 0x0C = Abort.signature ∧ Raises s t 178 0))

/-- STAGED_IMAGE_WRITE to UPDATE_REVERT (R517 to R521). -/
def Obligations.Updates : Prop := ∀ (s : State) (len f q d : Nat) (i : ImageInfo),
  let new := s.upd.intoB
  let commits : State → Prop := fun t => t.upd.stage = 7 ∧ t.stget 0 0xA000 0x01 = 7 ∧
    imageAt t new = (imageAt s new).map (fun x => { x with state := 0 }) ∧ imageAt t (!new) = imageAt s (!new) ∧
    t.val 0 0x9030 0x02 = (if s.val 1 0x9030 0x03 = 1 then max (s.val 0 0x9030 0x02) (((imageAt s new).map (fun x => x.svn)).getD 0)
      else s.val 0 0x9030 0x02)
  (0 < len → len ≤ 16777216 → s.upd.stage ≠ 6 → s.gate 0xA000 = 0 →
    (imageOk s i = true → Gives (.stagedImageWrite i len) s (fun t => t.upd = { s.upd with image := some i, stage := 2 } ∧
      t.stget 0 0xA000 0x01 = 2 ∧ t.stget 0 0xA000 0x08 = i.version ∧ t.stget 0 0xA000 0x09 = i.svn ∧
      t.stget 0 0xA000 0x0A = i.occ ∧ Raises s t 179 2)) ∧
    (imageOk s i = false → Gives (.stagedImageWrite i len) s (fun t => t.upd = { s.upd with image := some i, stage := 3 } ∧
      t.stget 0 0xA000 0x01 = 3 ∧ t.stget 0 0x1020 0x0C = Abort.signature ∧ Raises s t 178 0xA00002))) ∧
  (exec (.stagedImageWrite i 0) s = .next s) ∧
  (16777216 < len → Declines (.stagedImageWrite i len) s Abort.tooLong) ∧
  (0 < len → len ≤ 16777216 → s.upd.stage = 6 → Declines (.stagedImageWrite i len) s Abort.conflict) ∧
  (s.upd.stage = 2 → s.upd.image = some i → s.gate 0xA000 = 0 → Gives (.install 1) s (fun t =>
    imageAt t (!s.sup.imgB) = some { i with state := 1, seq := topSeq s + 1 } ∧ imageAt t s.sup.imgB = imageAt s s.sup.imgB ∧
    t.upd = { s.upd with stage := 4, intoB := !s.sup.imgB } ∧ t.stget 0 0xA000 0x01 = 4 ∧ t.nv.attempts = 0 ∧
    ∀ b x, imageAt s b = some x → x.seq < topSeq s + 1)) ∧
  (s.upd.stage ≠ 2 ∨ s.upd.image = none → Declines (.install 1) s Abort.conflict) ∧
  (liveCheck s 1 = 0 → s.gate 0xA000 = 0 → Gives (.liveSwitch 1) s (fun t => t.upd = { s.upd with
    switchAt := some (s.clk.tick + 2), loading := true, loaded := false, frames := [], doneAt := none, reverting := false } ∧
    t.val 0 0xA000 0x04 = 1 ∧ t.sup = s.sup)) ∧
  (s.upd.stage ≠ 4 ∨ s.sup.pairA = false ∨ s.sup.pairB = false ∨ s.rot.isSome = true ∨ s.sup.mod = .parked ∨
    s.sup.mod = .shutdownTest → Declines (.liveSwitch 1) s Abort.conflict) ∧
  (s.upd.loading = true → Gives .reckonerLoadComplete s (fun t => t = { s with upd := { s.upd with loaded := true } })) ∧
  (s.upd.loading = false → exec .reckonerLoadComplete s = .next s) ∧
  (s.upd.stage = 6 → s.upd.doneAt = none → s.upd.reverting = false → s.rot = none →
    let w := loadSpare s
    let due := s.upd.startX + (rotationsMade w + 1) * s.val 3000 0xA000 0x07
    (oldFrame w = some f → spareFrame s = some q → due ≤ s.clk.tick → s.moves = [] →
      (∀ m, m < 8 → (s.rod (8 * f + m)).slot = none ∧ (s.rod (8 * f + m)).fenced = false) →
      (frameBusy s f = false → Gives .updateRotation s (fun t => t.rot = none ∧ frameOf t q = .inService ∧ frameOf t f = .spare ∧
        t.upd.frames = setAdd q s.upd.frames ∧ Raises s t 8 f)) ∧
      (frameBusy s f = true → Gives .updateRotation s (fun t => t.rot = some ⟨f, q, 3, s.clk.tick, false⟩ ∧
        frameOf t q = .inService ∧ frameOf t f = .inService ∧ t.upd.frames = setAdd q s.upd.frames))) ∧
    (oldFrame w = some f → spareFrame s = some q → s.clk.tick < due → Gives .updateRotation s (fun t => t = w)) ∧
    (oldFrame w = none → Gives .updateRotation s (fun t => t.upd.doneAt = some s.clk.tick ∧ t.frames = s.frames ∧ t.rods = s.rods))) ∧
  (s.rot.isSome = true ∨ (s.upd.stage ≠ 6 ∧ s.upd.reverting = false) → exec .updateRotation s = .next s) ∧
  (s.upd.stage = 6 →
    (s.gate 0xA000 = 0 → Gives (.updateCommit 1) s (fun t => commits t ∧ Raises s t 181 (s.stget 0 0xA000 0x08))) ∧
    (s.upd.doneAt = some d → s.val 600 0xA000 0x0D ≠ 0 → d + 3000 * s.val 600 0xA000 0x0D ≤ s.clk.tick →
      Gives .automaticCommit s commits) ∧
    (s.gate 0xA000 = 0 → Gives (.updateRevert 1) s (fun t => t.upd = { s.upd with
      stage := 0, reverting := true, startX := s.clk.tick, doneAt := none } ∧ t.sup.servingB = !s.sup.servingB ∧
      imageAt t new = (imageAt s new).map (fun x => { x with state := 2 }) ∧ imageAt t (!new) = imageAt s (!new) ∧
      (∀ x, imageAt s (!new) = some x → t.sup.image = some x ∧ t.sup.imgB = !new ∧ t.stget 0 0x1000 0x07 = x.version) ∧
      ∃ version, Raises s t 182 version))) ∧
  (s.upd.doneAt = none ∨ s.val 600 0xA000 0x0D = 0 → exec .automaticCommit s = .next s) ∧
  (s.upd.doneAt = some d → s.clk.tick < d + 3000 * s.val 600 0xA000 0x0D → exec .automaticCommit s = .next s) ∧
  (s.upd.stage ≠ 6 → Declines (.updateCommit 1) s Abort.conflict ∧ Declines (.updateRevert 1) s Abort.conflict) ∧
  (s.gate 0xA000 = 0 → exec (.updateCommit 0) s = .next s ∧ exec (.updateRevert 0) s = .next s ∧ exec (.install 0) s = .next s ∧
    exec (.liveSwitch 0) s = .next s)

/-- RESET, POWER_GOOD_FALL, THERMAL_TRIP, TRIP_RESET_RELEASE, START_INSTANT, TRIAL_TIMEOUT, LIBRARY_RESTORE_DONE, LOCKSTEP_ERROR,
SHUTDOWN_SELF_TEST, PARK, UNPARK, TARGETED_TEST, THERMAL_LEVEL_CHANGE (R3, R475 to R503, R543). -/
def Obligations.PowerAndStart : Prop := ∀ (s : State) (at_ vin ns : Nat) (temp : Int) (cause : ResetCause) (o : BootObs) (test : TestObs)
    (i : ImageInfo) (b : Bool) (check : List UnitResult) (dram : DramObs) (result : UnitResult),
  let resets : State → Power → Prop := fun t p => t.power = { p with inReset := true } ∧ t.ticking = false ∧ t.sup.mod = .booting ∧
    t.nv = s.nv ∧ t.keys = { s.keys with nonceNo := s.draws } ∧ t.dict = s.nv.dict ∧ t.sup.fences = s.nv.fences ∧ t.mem = [] ∧
    t.fol.sessions = [] ∧ t.twin.role = .off ∧ t.twin.actOut = false ∧ t.byp.hold = false ∧ t.events.log = [] ∧ t.pend = [] ∧
    t.clk.tick = 0 ∧ t.time.state = .free ∧ (∀ n, driveLevel t n = false ∧ pulseLevel t n = false) ∧ t.pending = s.pending
  let up : State → Prop := fun t => t.power.inReset = false ∧ t.sup.twinId = o.twinId ∧
    (o.bootMode = true ∨ bootChoice s = none → t.sup.mod = .recovery) ∧
    (o.bootMode = false → bootChoice s = some (b, i) → t.sup.image = some i ∧ t.sup.imgB = b ∧
      (¬ (i.state = 1 ∧ 10000 < o.ms) → (t.sup.mod = .ready ∨ t.sup.mod = .failed) ∧ t.ledger.ready = true) ∧
      (i.state = 1 → 10000 < o.ms → t.sup.mod = (if t.sup.startKind = 0 then s.sup.mod else .startTest) ∧
        t.nv.attempts = s.nv.attempts + 1))
  Gives (.reset cause) s (fun t => resets t s.power) ∧
  (vin < 3900 → Gives (.powerGoodFall vin) s (fun t => resets t { s.power with vinMv := vin, pgood := false, brownout := true })) ∧
  (3900 ≤ vin → Gives (.powerGoodFall vin) s (fun t => t = { s with power := { s.power with vinMv := vin } })) ∧
  (1250 ≤ temp → Gives (.thermalTrip temp) s (fun t => resets t { s.power with temp := temp, tripHeld := true } ∧ ∀ v, mayStart t v = false)) ∧
  (temp < 1250 → Gives (.thermalTrip temp) s (fun t => t = { s with power := { s.power with temp := temp } })) ∧
  (mayStart s o.vinMv = true → s.keys.pendErase = none → Gives (.startInstant o) s up) ∧
  (mayStart s o.vinMv = false → exec (.startInstant o) s = .next s) ∧
  (s.power.tripHeld = true → temp < 1000 →
    (s.power.inReset = true → 4400 ≤ o.vinMv → s.keys.pendErase = none → Gives (.tripResetRelease temp o) s (fun t => up t ∧
      t.power.tripHeld = false ∧ t.power.temp = temp)) ∧
    (o.vinMv < 4400 → Gives (.tripResetRelease temp o) s (fun t => t = { s with power := { s.power with temp := temp, tripHeld := false } }))) ∧
  (s.power.tripHeld = false ∨ 1000 ≤ temp → exec (.tripResetRelease temp o) s = .next s) ∧
  (imageAt s s.sup.imgB = some i → i.state = 1 → s.power.inReset = false →
    s.sup.mod = .booting ∨ s.sup.mod = .startTest ∨ s.sup.mod = .failed →
    (2 ≤ s.nv.attempts → Gives .trialTimeout s (fun t => imageAt t s.sup.imgB = some { i with state := 2 } ∧ t.nv.attempts = 0 ∧
      t.nv.fellBack = true ∧ imageAt t (!s.sup.imgB) = imageAt s (!s.sup.imgB))) ∧
    (s.nv.attempts < 2 → exec .trialTimeout s = .next s)) ∧
  (s.ticking = true → s.dram.state = 2 ∨ s.dram.state = 3 → Gives .libraryRestoreDone s (fun t => t.sup = { s.sup with library := true } ∧
    t.stget 0 0x8000 0x0D = 1)) ∧
  (s.ticking = false ∨ (s.dram.state ≠ 2 ∧ s.dram.state ≠ 3) → exec .libraryRestoreDone s = .next s) ∧
  (s.sup.servingB = false → Gives .lockstepError s (fun t => t.sup.pairA = false ∧ t.sup.pairB = s.sup.pairB ∧
    t.sup.servingB = s.sup.pairB ∧ (s.sup.pairB = true → t.sup.lockErr = s.sup.lockErr) ∧
    (s.sup.pairB = false → t.sup.lockErr = true ∧ faultBit t = true))) ∧
  (s.sup.servingB = true → Gives .lockstepError s (fun t => t.sup.pairB = false ∧ t.sup.pairA = s.sup.pairA ∧
    t.sup.servingB = !s.sup.pairA ∧ (s.sup.pairA = true → t.sup.lockErr = s.sup.lockErr) ∧
    (s.sup.pairA = false → t.sup.lockErr = true ∧ faultBit t = true))) ∧
  (s.gate 0x8000 = 0 → s.sup.mod = .ready → s.sup.targ = none → Gives (.shutdownSelfTest 1 test) s (fun t =>
    t.sup.mod = .shutdownTest ∧ t.sup.testStep = 1 ∧ t.sup.test = some (test, s.clk.tick) ∧ t.byp.en = false ∧
    t.flag 0x2100 0x01 = false ∧ ∃ r older, t.nv.recs = r :: older ∧ r.state = 0x7F ∧ r.kind = 1 ∧ older = s.nv.recs.take 1 ∧
      ∀ x ∈ s.nv.recs, x.seq < r.seq)) ∧
  (s.sup.mod ≠ .ready → s.sup.mod ≠ .shutdownTest → Declines (.shutdownSelfTest 1 test) s Abort.conflict) ∧
  (s.gate 0x8000 = 0 → exec (.shutdownSelfTest 0 test) s = .next s) ∧
  (s.keys.life = .deployed →
    (s.gate 0x8000 = 0 → s.sup.mod = .ready → s.sup.targ = none → Gives (.park 1) s (fun t => t.sup.mod = .parked ∧
      t.keys.life = .parked ∧ t.dram.state = 4 ∧ t.stget 0 0x7410 0x01 = 4 ∧ t.ledger.ready = false ∧
      (∀ r, (t.rod r).item = none ∧ (t.rod r).st = .stopped) ∧ t.dram.debt = 0 ∧ t.dram.rows = [] ∧
      t.val 0 0x8000 0x04 = 1 ∧ t.byp.en = false ∧
      (s.beam.waiting = [] → t.mem = s.mem ∧ t.tally.queues.map (fun e => (e.1, { e.2 with held := [] })) =
        s.tally.queues.map (fun e => (e.1, { e.2 with held := [] }))))) ∧
    (s.sup.mod ≠ .ready → Declines (.park 1) s Abort.conflict)) ∧
  (s.keys.life ≠ .deployed → Declines (.park 1) s Abort.lifeCycle) ∧
  (s.gate 0x8000 = 0 →
    (s.sup.mod = .parked → Gives (.unpark 0 check dram) s (fun t => (t.sup.mod = .ready ∨ t.sup.mod = .failed) ∧
      t.val 0 0x8000 0x04 = 0 ∧ t.ledger.ready = true ∧ (s.keys.life = .parked → t.keys.life = .deployed))) ∧
    (s.sup.mod ≠ .parked → exec (.unpark 0 check dram) s = .next s)) ∧
  (let u := s.val 0xFFFF 0x8020 0x01
   (benchLife s = false → Declines (.targetedTest 1 result ns) s Abort.lifeCycle) ∧
   (benchLife s = true → s.sup.mod = .ready ∨ s.sup.mod = .rendering → s.sup.targ = none → targetable s u = true →
     (sparable s u = true → s.gate 0x8020 = 0 → Gives (.targetedTest 1 result ns) s (fun t => t = { s with sup := { s.sup with
       targ := some ⟨u, { result with unit := u }, ns, s.clk.tick + 1, false⟩, targState := 1, targNs := 0, targOut := 0 } })) ∧
     (sparable s u = false → Declines (.targetedTest 1 result ns) s Abort.capacity)) ∧
   (benchLife s = true → targetable s u = false ∨ s.sup.targ.isSome = true → Declines (.targetedTest 1 result ns) s Abort.conflict) ∧
   (s.gate 0x8020 = 0 → exec (.targetedTest 0 result ns) s = .next s)) ∧
  Gives (.thermalLevelChange at_ temp) s (fun t => t.power.temp = temp ∧ t.sup.health = healthWord t ∧
    (1100 ≤ temp → t.power.warning = true) ∧ (temp ≤ 1050 → t.power.warning = false) ∧
    (1050 < temp → temp < 1100 → t.power.warning = s.power.warning) ∧ (1180 ≤ temp → t.power.critical = true) ∧
    (temp ≤ 1130 → t.power.critical = false) ∧ (1130 < temp → temp < 1180 → t.power.critical = s.power.critical))

/-- CLEAR_MISS_RECORDS, CLEAR_PLACEMENT_STATISTICS, CLEAR_TALLY_STATISTICS, CLEAR_TWIN_STATISTICS, CLEAR_FOL_STATISTICS,
CLEAR_LEDGER_COUNTERS, CLEAR_DRAM_STATISTICS, CLEAR_METERS, CLEAR_SLOT_STATISTICS, CLEAR_RAIL, ACKNOWLEDGE_ALL, CLEAR_LOG,
READ_START_WRITE, EVENT_SOURCE_WRITE, EVENT_LOG_COPY, TICK_BOUNDARY (R551, R559, R561). -/
def Obligations.StatisticsAndEvents : Prop := ∀ (s : State) (v n src : Nat) (obs : BoundaryObs),
  let d := s.todo
  let marks : Instr → Instr → Instr → Nat → Todo → Prop := fun one zero other index t =>
    (s.gate index = 0 → Gives one s (fun u => u = { s with todo := t }) ∧ exec zero s = .next s) ∧
    (1 < v → Declines other s Abort.range)
  marks (.clearMissRecords 1) (.clearMissRecords 0) (.clearMissRecords v) 0x1100 { d with misses := true } ∧
  marks (.clearPlacementStatistics 1) (.clearPlacementStatistics 0) (.clearPlacementStatistics v) 0x3801 { d with place := true } ∧
  marks (.clearTallyStatistics 1) (.clearTallyStatistics 0) (.clearTallyStatistics v) 0x70C0 { d with tally := true } ∧
  marks (.clearTwinStatistics 1) (.clearTwinStatistics 0) (.clearTwinStatistics v) 0x6000 { d with twin := true } ∧
  marks (.clearFolStatistics 1) (.clearFolStatistics 0) (.clearFolStatistics v) 0x1020 { d with fol := true } ∧
  marks (.clearLedgerCounters 1) (.clearLedgerCounters 0) (.clearLedgerCounters v) 0x7400 { d with ledger := true } ∧
  marks (.clearDramStatistics 1) (.clearDramStatistics 0) (.clearDramStatistics v) 0x7410 { d with dram := true } ∧
  (n < 512 → marks (.clearMeters n 1) (.clearMeters n 0) (.clearMeters n v) (0x3400 + n) { d with meters := setAdd n d.meters }) ∧
  (n < 64 → marks (.clearSlotStatistics n 1) (.clearSlotStatistics n 0) (.clearSlotStatistics n v) (0x2200 + n)
    { d with rxStats := setAdd n d.rxStats }) ∧
  (n < 4 → marks (.clearRail n 1) (.clearRail n 0) (.clearRail n v) (0x5010 + n) { d with rails := setAdd n d.rails }) ∧
  (512 ≤ n → Declines (.clearMeters n 1) s Abort.noIndex) ∧
  (s.gate 0xB100 = 0 →
    Gives (.acknowledgeAll 1) s (fun t => t = { s with events := { s.events with ackReq := true } }) ∧
    Gives (.clearLog 1) s (fun t => t = { s with events := { s.events with clrReq := true } }) ∧
    exec (.acknowledgeAll 0) s = .next s ∧ exec (.clearLog 0) s = .next s ∧
    (v < 2 ^ 32 → Gives (.readStartWrite v) s (fun t => t = { s with events := { s.events with readSeq := v } }))) ∧
  (1 < v → Declines (.acknowledgeAll v) s Abort.range ∧ Declines (.clearLog v) s Abort.range) ∧
  (s.gate 0xB000 = 0 → src < 255 → evReserved src = false → v < 2 ^ 32 → bitsOf v 7 5 = 0 → bitsOf v 15 10 = 0 →
    Gives (.eventSourceWrite src v) s (fun t => t.evMask src = v % 8 ∧ (∀ k, k ≠ src → t.evMask k = s.evMask k) ∧
      t.evSrc src = (if bitOf v 3 then { s.evSrc src with clearReq := true } else s.evSrc src) ∧ t.dict = s.dict ∧ t.stat = s.stat)) ∧
  (s.gate 0xB000 = 0 → src < 255 → evReserved src = true → exec (.eventSourceWrite src 0) s = .next s) ∧
  (src < 255 → evReserved src = true → v ≠ 0 → v < 2 ^ 32 → Declines (.eventSourceWrite src v) s Abort.reserved) ∧
  (255 ≤ src → Declines (.eventSourceWrite src v) s Abort.noSub) ∧
  (s.events.copyDue = true → (∀ x, s.events.copyAt = some x → x + 10000000000 ≤ s.clk.local) → Gives .eventLogCopy s (fun t =>
    t.nv = { s.nv with stored := newest 64 (s.events.log.filter (fun r => decide (2 ≤ evClass r.source))) } ∧
    t.events = { s.events with copyAt := some s.clk.local, copyDue := false } ∧ t.nv.stored.length ≤ 64)) ∧
  (s.events.copyDue = false → exec .eventLogCopy s = .next s) ∧
  (∀ x, s.events.copyAt = some x → s.clk.local < x + 10000000000 → exec .eventLogCopy s = .next s) ∧
  (s.ticking = true → s.Live → s.pend = [] → 3900 ≤ obs.vinMv → Gives (.tickBoundary obs) s (fun t => t.todo.misses = false ∧ t.todo.place = false ∧
    t.todo.meters = [] ∧ t.todo.rails = [] ∧ t.todo.rxStats = [] ∧ t.todo.tally = false ∧ t.todo.twin = false ∧ t.todo.fol = false ∧
    t.todo.ledger = false ∧ t.todo.dram = false))
end

