-- ==== Sys2Proof/Laws/Frame.lean ====
section
/-! SUPPORT. How a frame passes through calls, record updates, choices and folds. -/
namespace Sys2Proof.Machine

/-- Whether a list has a part, by computation. -/
def Part.isIn (p : Part) (f : List Part) : Bool := f.any (fun q => decide (q = p))

/-- Whether a list's parts all stand in another, by computation. -/
def Part.within (g f : List Part) : Bool := g.all (fun p => Part.isIn p f)

theorem Part.isIn_of {p : Part} {f : List Part} (h : Part.isIn p f = true) : p ∈ f := by
  simpa [Part.isIn] using h

theorem Part.within_of {g f : List Part} (h : Part.within g f = true) : ∀ p ∈ g, p ∈ f := by
  intro p hp
  exact Part.isIn_of (List.all_eq_true.mp h p hp)

theorem Keeps.refl (f : List Part) (s : State) : Keeps f s s := by
  refine ⟨fun p _ => ?_⟩; cases p <;> rfl

/-- A frame through a call that changes no more parts. -/
theorem Keeps.step {f g : List Part} {s u v : State} (h2 : Keeps g u v) (hg : Part.within g f = true) (h1 : Keeps f s u) :
    Keeps f s v := by
  refine ⟨fun p hp => ?_⟩
  have a := h1.same p hp
  have b := h2.same p (fun hq => hp (Part.within_of hg p hq))
  cases p <;> exact Eq.trans b a

theorem Keeps.mono {f g : List Part} {s t : State} (h : Keeps g s t) (hg : Part.within g f = true) : Keeps f s t :=
  Keeps.step h hg (Keeps.refl f s)

theorem keeps_ite {f : List Part} {s a b : State} {c : Prop} [Decidable c] (h1 : c → Keeps f s a) (h2 : ¬ c → Keeps f s b) :
    Keeps f s (if c then a else b) := by
  split
  · exact h1 ‹_›
  · exact h2 ‹_›

theorem keeps_foldl {α : Type} {f : List Part} {g : State → α → State} {s : State} (hg : ∀ t x, Keeps f s t → Keeps f s (g t x)) :
    ∀ {l : List α} {u : State}, Keeps f s u → Keeps f s (l.foldl g u) := by
  intro l
  induction l with
  | nil => intro u h; exact h
  | cons x r ih => intro u h; exact ih (hg u x h)

theorem keeps_foldl_fst {α β : Type} {f : List Part} {g : State × β → α → State × β} {s : State}
    (hg : ∀ t x, Keeps f s t.1 → Keeps f s (g t x).1) :
    ∀ {l : List α} {u : State × β}, Keeps f s u.1 → Keeps f s (l.foldl g u).1 := by
  intro l
  induction l with
  | nil => intro u h; exact h
  | cons x r ih => intro u h; exact ih (hg u x h)

theorem keeps_fst {α : Type} {f : List Part} {s a : State} {b : α} {x : State × α} (e : x = (a, b)) (h : Keeps f s x.1) :
    Keeps f s a := by subst e; exact h

theorem keeps_some {f : List Part} {s a : State} {x : Option State} (e : x = some a) (h : ∀ t, x = some t → Keeps f s t) :
    Keeps f s a := h a e

/-- A command that answers a next state. -/
theorem keeps_done {f : List Part} {s e t : State} (h : done e = .next t) (k : Keeps f s e) : Keeps f s t := by
  cases h; exact k

/-! A record update changes only the parts that it names. -/

theorem keeps_stat {f : List Part} {s u : State} (h0 : Part.isIn .stat f = true) (h : Keeps f s u) {x0} :
    Keeps f s { u with stat := x0 } := by
  refine ⟨fun p hp => ?_⟩
  have e := h.same p hp
  cases p <;> first | exact e | exact absurd (Part.isIn_of h0) hp

theorem keeps_events {f : List Part} {s u : State} (h0 : Part.isIn .events f = true) (h : Keeps f s u) {x0} :
    Keeps f s { u with events := x0 } := by
  refine ⟨fun p hp => ?_⟩
  have e := h.same p hp
  cases p <;> first | exact e | exact absurd (Part.isIn_of h0) hp

theorem keeps_beam {f : List Part} {s u : State} (h0 : Part.isIn .beam f = true) (h : Keeps f s u) {x0} :
    Keeps f s { u with beam := x0 } := by
  refine ⟨fun p hp => ?_⟩
  have e := h.same p hp
  cases p <;> first | exact e | exact absurd (Part.isIn_of h0) hp

theorem keeps_ledger {f : List Part} {s u : State} (h0 : Part.isIn .ledger f = true) (h : Keeps f s u) {x0} :
    Keeps f s { u with ledger := x0 } := by
  refine ⟨fun p hp => ?_⟩
  have e := h.same p hp
  cases p <;> first | exact e | exact absurd (Part.isIn_of h0) hp

theorem keeps_tally {f : List Part} {s u : State} (h0 : Part.isIn .tally f = true) (h : Keeps f s u) {x0} :
    Keeps f s { u with tally := x0 } := by
  refine ⟨fun p hp => ?_⟩
  have e := h.same p hp
  cases p <;> first | exact e | exact absurd (Part.isIn_of h0) hp

theorem keeps_mem {f : List Part} {s u : State} (h0 : Part.isIn .mem f = true) (h : Keeps f s u) {x0} :
    Keeps f s { u with mem := x0 } := by
  refine ⟨fun p hp => ?_⟩
  have e := h.same p hp
  cases p <;> first | exact e | exact absurd (Part.isIn_of h0) hp

theorem keeps_todo {f : List Part} {s u : State} (h0 : Part.isIn .todo f = true) (h : Keeps f s u) {x0} :
    Keeps f s { u with todo := x0 } := by
  refine ⟨fun p hp => ?_⟩
  have e := h.same p hp
  cases p <;> first | exact e | exact absurd (Part.isIn_of h0) hp

theorem keeps_pipe_twin {f : List Part} {s u : State} (h0 : Part.isIn .pipe f = true) (h1 : Part.isIn .twin f = true) (h : Keeps f s u) {x0 x1} :
    Keeps f s { u with pipe := x0, twin := x1 } := by
  refine ⟨fun p hp => ?_⟩
  have e := h.same p hp
  cases p <;> first | exact e | exact absurd (Part.isIn_of h0) hp | exact absurd (Part.isIn_of h1) hp

theorem keeps_pipe {f : List Part} {s u : State} (h0 : Part.isIn .pipe f = true) (h : Keeps f s u) {x0} :
    Keeps f s { u with pipe := x0 } := by
  refine ⟨fun p hp => ?_⟩
  have e := h.same p hp
  cases p <;> first | exact e | exact absurd (Part.isIn_of h0) hp

theorem keeps_nv {f : List Part} {s u : State} (h0 : Part.isIn .nv f = true) (h : Keeps f s u) {x0} :
    Keeps f s { u with nv := x0 } := by
  refine ⟨fun p hp => ?_⟩
  have e := h.same p hp
  cases p <;> first | exact e | exact absurd (Part.isIn_of h0) hp

theorem keeps_frames {f : List Part} {s u : State} (h0 : Part.isIn .frames f = true) (h : Keeps f s u) {x0} :
    Keeps f s { u with frames := x0 } := by
  refine ⟨fun p hp => ?_⟩
  have e := h.same p hp
  cases p <;> first | exact e | exact absurd (Part.isIn_of h0) hp

theorem keeps_pend_twin {f : List Part} {s u : State} (h0 : Part.isIn .pend f = true) (h1 : Part.isIn .twin f = true) (h : Keeps f s u) {x0 x1} :
    Keeps f s { u with pend := x0, twin := x1 } := by
  refine ⟨fun p hp => ?_⟩
  have e := h.same p hp
  cases p <;> first | exact e | exact absurd (Part.isIn_of h0) hp | exact absurd (Part.isIn_of h1) hp

theorem keeps_nv_dict {f : List Part} {s u : State} (h0 : Part.isIn .nv f = true) (h1 : Part.isIn .dict f = true) (h : Keeps f s u) {x0 x1} :
    Keeps f s { u with nv := x0, dict := x1 } := by
  refine ⟨fun p hp => ?_⟩
  have e := h.same p hp
  cases p <;> first | exact e | exact absurd (Part.isIn_of h0) hp | exact absurd (Part.isIn_of h1) hp

theorem keeps_carrier {f : List Part} {s u : State} (h0 : Part.isIn .carrier f = true) (h : Keeps f s u) {x0} :
    Keeps f s { u with carrier := x0 } := by
  refine ⟨fun p hp => ?_⟩
  have e := h.same p hp
  cases p <;> first | exact e | exact absurd (Part.isIn_of h0) hp

theorem keeps_twin {f : List Part} {s u : State} (h0 : Part.isIn .twin f = true) (h : Keeps f s u) {x0} :
    Keeps f s { u with twin := x0 } := by
  refine ⟨fun p hp => ?_⟩
  have e := h.same p hp
  cases p <;> first | exact e | exact absurd (Part.isIn_of h0) hp

theorem keeps_sup_nv {f : List Part} {s u : State} (h0 : Part.isIn .sup f = true) (h1 : Part.isIn .nv f = true) (h : Keeps f s u) {x0 x1} :
    Keeps f s { u with sup := x0, nv := x1 } := by
  refine ⟨fun p hp => ?_⟩
  have e := h.same p hp
  cases p <;> first | exact e | exact absurd (Part.isIn_of h0) hp | exact absurd (Part.isIn_of h1) hp

theorem keeps_time {f : List Part} {s u : State} (h0 : Part.isIn .time f = true) (h : Keeps f s u) {x0} :
    Keeps f s { u with time := x0 } := by
  refine ⟨fun p hp => ?_⟩
  have e := h.same p hp
  cases p <;> first | exact e | exact absurd (Part.isIn_of h0) hp

theorem keeps_fol {f : List Part} {s u : State} (h0 : Part.isIn .fol f = true) (h : Keeps f s u) {x0} :
    Keeps f s { u with fol := x0 } := by
  refine ⟨fun p hp => ?_⟩
  have e := h.same p hp
  cases p <;> first | exact e | exact absurd (Part.isIn_of h0) hp

theorem keeps_clk_time {f : List Part} {s u : State} (h0 : Part.isIn .clk f = true) (h1 : Part.isIn .time f = true) (h : Keeps f s u) {x0 x1} :
    Keeps f s { u with clk := x0, time := x1 } := by
  refine ⟨fun p hp => ?_⟩
  have e := h.same p hp
  cases p <;> first | exact e | exact absurd (Part.isIn_of h0) hp | exact absurd (Part.isIn_of h1) hp

theorem keeps_sup_upd {f : List Part} {s u : State} (h0 : Part.isIn .sup f = true) (h1 : Part.isIn .upd f = true) (h : Keeps f s u) {x0 x1} :
    Keeps f s { u with sup := x0, upd := x1 } := by
  refine ⟨fun p hp => ?_⟩
  have e := h.same p hp
  cases p <;> first | exact e | exact absurd (Part.isIn_of h0) hp | exact absurd (Part.isIn_of h1) hp

theorem keeps_upd {f : List Part} {s u : State} (h0 : Part.isIn .upd f = true) (h : Keeps f s u) {x0} :
    Keeps f s { u with upd := x0 } := by
  refine ⟨fun p hp => ?_⟩
  have e := h.same p hp
  cases p <;> first | exact e | exact absurd (Part.isIn_of h0) hp

theorem keeps_nv_dram {f : List Part} {s u : State} (h0 : Part.isIn .nv f = true) (h1 : Part.isIn .dram f = true) (h : Keeps f s u) {x0 x1} :
    Keeps f s { u with nv := x0, dram := x1 } := by
  refine ⟨fun p hp => ?_⟩
  have e := h.same p hp
  cases p <;> first | exact e | exact absurd (Part.isIn_of h0) hp | exact absurd (Part.isIn_of h1) hp

theorem keeps_out {f : List Part} {s u : State} (h0 : Part.isIn .out f = true) (h : Keeps f s u) {x0} :
    Keeps f s { u with out := x0 } := by
  refine ⟨fun p hp => ?_⟩
  have e := h.same p hp
  cases p <;> first | exact e | exact absurd (Part.isIn_of h0) hp

theorem keeps_hist {f : List Part} {s u : State} (h0 : Part.isIn .hist f = true) (h : Keeps f s u) {x0} :
    Keeps f s { u with hist := x0 } := by
  refine ⟨fun p hp => ?_⟩
  have e := h.same p hp
  cases p <;> first | exact e | exact absurd (Part.isIn_of h0) hp

theorem keeps_sup {f : List Part} {s u : State} (h0 : Part.isIn .sup f = true) (h : Keeps f s u) {x0} :
    Keeps f s { u with sup := x0 } := by
  refine ⟨fun p hp => ?_⟩
  have e := h.same p hp
  cases p <;> first | exact e | exact absurd (Part.isIn_of h0) hp

theorem keeps_clk_hist_domHist {f : List Part} {s u : State} (h0 : Part.isIn .clk f = true) (h1 : Part.isIn .hist f = true) (h2 : Part.isIn .domHist f = true) (h : Keeps f s u) {x0 x1 x2} :
    Keeps f s { u with clk := x0, hist := x1, domHist := x2 } := by
  refine ⟨fun p hp => ?_⟩
  have e := h.same p hp
  cases p <;> first | exact e | exact absurd (Part.isIn_of h0) hp | exact absurd (Part.isIn_of h1) hp | exact absurd (Part.isIn_of h2) hp

theorem keeps_drift {f : List Part} {s u : State} (h0 : Part.isIn .drift f = true) (h : Keeps f s u) {x0} :
    Keeps f s { u with drift := x0 } := by
  refine ⟨fun p hp => ?_⟩
  have e := h.same p hp
  cases p <;> first | exact e | exact absurd (Part.isIn_of h0) hp

theorem keeps_dram {f : List Part} {s u : State} (h0 : Part.isIn .dram f = true) (h : Keeps f s u) {x0} :
    Keeps f s { u with dram := x0 } := by
  refine ⟨fun p hp => ?_⟩
  have e := h.same p hp
  cases p <;> first | exact e | exact absurd (Part.isIn_of h0) hp

theorem keeps_clk {f : List Part} {s u : State} (h0 : Part.isIn .clk f = true) (h : Keeps f s u) {x0} :
    Keeps f s { u with clk := x0 } := by
  refine ⟨fun p hp => ?_⟩
  have e := h.same p hp
  cases p <;> first | exact e | exact absurd (Part.isIn_of h0) hp

theorem keeps_dom {f : List Part} {s u : State} (h0 : Part.isIn .dom f = true) (h : Keeps f s u) {x0} :
    Keeps f s { u with dom := x0 } := by
  refine ⟨fun p hp => ?_⟩
  have e := h.same p hp
  cases p <;> first | exact e | exact absurd (Part.isIn_of h0) hp

theorem keeps_byp {f : List Part} {s u : State} (h0 : Part.isIn .byp f = true) (h : Keeps f s u) {x0} :
    Keeps f s { u with byp := x0 } := by
  refine ⟨fun p hp => ?_⟩
  have e := h.same p hp
  cases p <;> first | exact e | exact absurd (Part.isIn_of h0) hp

theorem keeps_clk_dict_dom_hist_domHist_pipe {f : List Part} {s u : State} (h0 : Part.isIn .clk f = true) (h1 : Part.isIn .dict f = true) (h2 : Part.isIn .dom f = true) (h3 : Part.isIn .hist f = true) (h4 : Part.isIn .domHist f = true) (h5 : Part.isIn .pipe f = true) (h : Keeps f s u) {x0 x1 x2 x3 x4 x5} :
    Keeps f s { u with clk := x0, dict := x1, dom := x2, hist := x3, domHist := x4, pipe := x5 } := by
  refine ⟨fun p hp => ?_⟩
  have e := h.same p hp
  cases p <;> first | exact e | exact absurd (Part.isIn_of h0) hp | exact absurd (Part.isIn_of h1) hp | exact absurd (Part.isIn_of h2) hp | exact absurd (Part.isIn_of h3) hp | exact absurd (Part.isIn_of h4) hp | exact absurd (Part.isIn_of h5) hp

theorem keeps_fol_out {f : List Part} {s u : State} (h0 : Part.isIn .fol f = true) (h1 : Part.isIn .out f = true) (h : Keeps f s u) {x0 x1} :
    Keeps f s { u with fol := x0, out := x1 } := by
  refine ⟨fun p hp => ?_⟩
  have e := h.same p hp
  cases p <;> first | exact e | exact absurd (Part.isIn_of h0) hp | exact absurd (Part.isIn_of h1) hp

theorem keeps_pend {f : List Part} {s u : State} (h0 : Part.isIn .pend f = true) (h : Keeps f s u) {x0} :
    Keeps f s { u with pend := x0 } := by
  refine ⟨fun p hp => ?_⟩
  have e := h.same p hp
  cases p <;> first | exact e | exact absurd (Part.isIn_of h0) hp

theorem keeps_keys {f : List Part} {s u : State} (h0 : Part.isIn .keys f = true) (h : Keeps f s u) {x0} :
    Keeps f s { u with keys := x0 } := by
  refine ⟨fun p hp => ?_⟩
  have e := h.same p hp
  cases p <;> first | exact e | exact absurd (Part.isIn_of h0) hp

theorem keeps_nv_ledger {f : List Part} {s u : State} (h0 : Part.isIn .nv f = true) (h1 : Part.isIn .ledger f = true) (h : Keeps f s u) {x0 x1} :
    Keeps f s { u with nv := x0, ledger := x1 } := by
  refine ⟨fun p hp => ?_⟩
  have e := h.same p hp
  cases p <;> first | exact e | exact absurd (Part.isIn_of h0) hp | exact absurd (Part.isIn_of h1) hp

theorem keeps_rods {f : List Part} {s u : State} (h0 : Part.isIn .rods f = true) (h : Keeps f s u) {x0} :
    Keeps f s { u with rods := x0 } := by
  refine ⟨fun p hp => ?_⟩
  have e := h.same p hp
  cases p <;> first | exact e | exact absurd (Part.isIn_of h0) hp

theorem keeps_drives {f : List Part} {s u : State} (h0 : Part.isIn .drives f = true) (h : Keeps f s u) {x0} :
    Keeps f s { u with drives := x0 } := by
  refine ⟨fun p hp => ?_⟩
  have e := h.same p hp
  cases p <;> first | exact e | exact absurd (Part.isIn_of h0) hp

theorem keeps_power {f : List Part} {s u : State} (h0 : Part.isIn .power f = true) (h : Keeps f s u) {x0} :
    Keeps f s { u with power := x0 } := by
  refine ⟨fun p hp => ?_⟩
  have e := h.same p hp
  cases p <;> first | exact e | exact absurd (Part.isIn_of h0) hp

theorem keeps_rot {f : List Part} {s u : State} (h0 : Part.isIn .rot f = true) (h : Keeps f s u) {x0} :
    Keeps f s { u with rot := x0 } := by
  refine ⟨fun p hp => ?_⟩
  have e := h.same p hp
  cases p <;> first | exact e | exact absurd (Part.isIn_of h0) hp

theorem keeps_moves {f : List Part} {s u : State} (h0 : Part.isIn .moves f = true) (h : Keeps f s u) {x0} :
    Keeps f s { u with moves := x0 } := by
  refine ⟨fun p hp => ?_⟩
  have e := h.same p hp
  cases p <;> first | exact e | exact absurd (Part.isIn_of h0) hp

theorem keeps_nv_dom {f : List Part} {s u : State} (h0 : Part.isIn .nv f = true) (h1 : Part.isIn .dom f = true) (h : Keeps f s u) {x0 x1} :
    Keeps f s { u with nv := x0, dom := x1 } := by
  refine ⟨fun p hp => ?_⟩
  have e := h.same p hp
  cases p <;> first | exact e | exact absurd (Part.isIn_of h0) hp | exact absurd (Part.isIn_of h1) hp

theorem keeps_rods_tally_ledger_dram {f : List Part} {s u : State} (h0 : Part.isIn .rods f = true) (h1 : Part.isIn .tally f = true) (h2 : Part.isIn .ledger f = true) (h3 : Part.isIn .dram f = true) (h : Keeps f s u) {x0 x1 x2 x3} :
    Keeps f s { u with rods := x0, tally := x1, ledger := x2, dram := x3 } := by
  refine ⟨fun p hp => ?_⟩
  have e := h.same p hp
  cases p <;> first | exact e | exact absurd (Part.isIn_of h0) hp | exact absurd (Part.isIn_of h1) hp | exact absurd (Part.isIn_of h2) hp | exact absurd (Part.isIn_of h3) hp

theorem keeps_dram_mem {f : List Part} {s u : State} (h0 : Part.isIn .dram f = true) (h1 : Part.isIn .mem f = true) (h : Keeps f s u) {x0 x1} :
    Keeps f s { u with dram := x0, mem := x1 } := by
  refine ⟨fun p hp => ?_⟩
  have e := h.same p hp
  cases p <;> first | exact e | exact absurd (Part.isIn_of h0) hp | exact absurd (Part.isIn_of h1) hp

theorem keeps_moves_mem {f : List Part} {s u : State} (h0 : Part.isIn .moves f = true) (h1 : Part.isIn .mem f = true) (h : Keeps f s u) {x0 x1} :
    Keeps f s { u with moves := x0, mem := x1 } := by
  refine ⟨fun p hp => ?_⟩
  have e := h.same p hp
  cases p <;> first | exact e | exact absurd (Part.isIn_of h0) hp | exact absurd (Part.isIn_of h1) hp

theorem keeps_aesIn {f : List Part} {s u : State} (h0 : Part.isIn .aesIn f = true) (h : Keeps f s u) {x0} :
    Keeps f s { u with aesIn := x0 } := by
  refine ⟨fun p hp => ?_⟩
  have e := h.same p hp
  cases p <;> first | exact e | exact absurd (Part.isIn_of h0) hp

theorem keeps_nv_drift {f : List Part} {s u : State} (h0 : Part.isIn .nv f = true) (h1 : Part.isIn .drift f = true) (h : Keeps f s u) {x0 x1} :
    Keeps f s { u with nv := x0, drift := x1 } := by
  refine ⟨fun p hp => ?_⟩
  have e := h.same p hp
  cases p <;> first | exact e | exact absurd (Part.isIn_of h0) hp | exact absurd (Part.isIn_of h1) hp

theorem keeps_dict_dom_hist_domHist_pend_pipe_twin {f : List Part} {s u : State} (h0 : Part.isIn .dict f = true) (h1 : Part.isIn .dom f = true) (h2 : Part.isIn .hist f = true) (h3 : Part.isIn .domHist f = true) (h4 : Part.isIn .pend f = true) (h5 : Part.isIn .pipe f = true) (h6 : Part.isIn .twin f = true) (h : Keeps f s u) {x0 x1 x2 x3 x4 x5 x6} :
    Keeps f s { u with dict := x0, dom := x1, hist := x2, domHist := x3, pend := x4, pipe := x5, twin := x6 } := by
  refine ⟨fun p hp => ?_⟩
  have e := h.same p hp
  cases p <;> first | exact e | exact absurd (Part.isIn_of h0) hp | exact absurd (Part.isIn_of h1) hp | exact absurd (Part.isIn_of h2) hp | exact absurd (Part.isIn_of h3) hp | exact absurd (Part.isIn_of h4) hp | exact absurd (Part.isIn_of h5) hp | exact absurd (Part.isIn_of h6) hp

theorem keeps_drift_twin {f : List Part} {s u : State} (h0 : Part.isIn .drift f = true) (h1 : Part.isIn .twin f = true) (h : Keeps f s u) {x0 x1} :
    Keeps f s { u with drift := x0, twin := x1 } := by
  refine ⟨fun p hp => ?_⟩
  have e := h.same p hp
  cases p <;> first | exact e | exact absurd (Part.isIn_of h0) hp | exact absurd (Part.isIn_of h1) hp

theorem keeps_seen {f : List Part} {s u : State} (h0 : Part.isIn .seen f = true) (h : Keeps f s u) {x0} :
    Keeps f s { u with seen := x0 } := by
  refine ⟨fun p hp => ?_⟩
  have e := h.same p hp
  cases p <;> first | exact e | exact absurd (Part.isIn_of h0) hp

theorem keeps_pdm {f : List Part} {s u : State} (h0 : Part.isIn .pdm f = true) (h : Keeps f s u) {x0} :
    Keeps f s { u with pdm := x0 } := by
  refine ⟨fun p hp => ?_⟩
  have e := h.same p hp
  cases p <;> first | exact e | exact absurd (Part.isIn_of h0) hp

theorem keeps_stat_pipe_mem {f : List Part} {s u : State} (h0 : Part.isIn .stat f = true) (h1 : Part.isIn .pipe f = true) (h2 : Part.isIn .mem f = true) (h : Keeps f s u) {x0 x1 x2} :
    Keeps f s { u with stat := x0, pipe := x1, mem := x2 } := by
  refine ⟨fun p hp => ?_⟩
  have e := h.same p hp
  cases p <;> first | exact e | exact absurd (Part.isIn_of h0) hp | exact absurd (Part.isIn_of h1) hp | exact absurd (Part.isIn_of h2) hp

theorem keeps_draws {f : List Part} {s u : State} (h0 : Part.isIn .draws f = true) (h : Keeps f s u) {x0} :
    Keeps f s { u with draws := x0 } := by
  refine ⟨fun p hp => ?_⟩
  have e := h.same p hp
  cases p <;> first | exact e | exact absurd (Part.isIn_of h0) hp

theorem keeps_tx {f : List Part} {s u : State} (h0 : Part.isIn .tx f = true) (h : Keeps f s u) {x0} :
    Keeps f s { u with tx := x0 } := by
  refine ⟨fun p hp => ?_⟩
  have e := h.same p hp
  cases p <;> first | exact e | exact absurd (Part.isIn_of h0) hp

theorem keeps_rx {f : List Part} {s u : State} (h0 : Part.isIn .rx f = true) (h : Keeps f s u) {x0} :
    Keeps f s { u with rx := x0 } := by
  refine ⟨fun p hp => ?_⟩
  have e := h.same p hp
  cases p <;> first | exact e | exact absurd (Part.isIn_of h0) hp

theorem keeps_ports {f : List Part} {s u : State} (h0 : Part.isIn .ports f = true) (h : Keeps f s u) {x0} :
    Keeps f s { u with ports := x0 } := by
  refine ⟨fun p hp => ?_⟩
  have e := h.same p hp
  cases p <;> first | exact e | exact absurd (Part.isIn_of h0) hp

theorem keeps_pend_fol {f : List Part} {s u : State} (h0 : Part.isIn .pend f = true) (h1 : Part.isIn .fol f = true) (h : Keeps f s u) {x0 x1} :
    Keeps f s { u with pend := x0, fol := x1 } := by
  refine ⟨fun p hp => ?_⟩
  have e := h.same p hp
  cases p <;> first | exact e | exact absurd (Part.isIn_of h0) hp | exact absurd (Part.isIn_of h1) hp

theorem keeps_pipe_tx_aesOut {f : List Part} {s u : State} (h0 : Part.isIn .pipe f = true) (h1 : Part.isIn .tx f = true) (h2 : Part.isIn .aesOut f = true) (h : Keeps f s u) {x0 x1 x2} :
    Keeps f s { u with pipe := x0, tx := x1, aesOut := x2 } := by
  refine ⟨fun p hp => ?_⟩
  have e := h.same p hp
  cases p <;> first | exact e | exact absurd (Part.isIn_of h0) hp | exact absurd (Part.isIn_of h1) hp | exact absurd (Part.isIn_of h2) hp

theorem keeps_rot_mem {f : List Part} {s u : State} (h0 : Part.isIn .rot f = true) (h1 : Part.isIn .mem f = true) (h : Keeps f s u) {x0 x1} :
    Keeps f s { u with rot := x0, mem := x1 } := by
  refine ⟨fun p hp => ?_⟩
  have e := h.same p hp
  cases p <;> first | exact e | exact absurd (Part.isIn_of h0) hp | exact absurd (Part.isIn_of h1) hp

theorem keeps_pipe_mem {f : List Part} {s u : State} (h0 : Part.isIn .pipe f = true) (h1 : Part.isIn .mem f = true) (h : Keeps f s u) {x0 x1} :
    Keeps f s { u with pipe := x0, mem := x1 } := by
  refine ⟨fun p hp => ?_⟩
  have e := h.same p hp
  cases p <;> first | exact e | exact absurd (Part.isIn_of h0) hp | exact absurd (Part.isIn_of h1) hp

theorem keeps_clk_time_pend {f : List Part} {s u : State} (h0 : Part.isIn .clk f = true) (h1 : Part.isIn .time f = true) (h2 : Part.isIn .pend f = true) (h : Keeps f s u) {x0 x1 x2} :
    Keeps f s { u with clk := x0, time := x1, pend := x2 } := by
  refine ⟨fun p hp => ?_⟩
  have e := h.same p hp
  cases p <;> first | exact e | exact absurd (Part.isIn_of h0) hp | exact absurd (Part.isIn_of h1) hp | exact absurd (Part.isIn_of h2) hp

theorem keeps_nv_upd {f : List Part} {s u : State} (h0 : Part.isIn .nv f = true) (h1 : Part.isIn .upd f = true) (h : Keeps f s u) {x0 x1} :
    Keeps f s { u with nv := x0, upd := x1 } := by
  refine ⟨fun p hp => ?_⟩
  have e := h.same p hp
  cases p <;> first | exact e | exact absurd (Part.isIn_of h0) hp | exact absurd (Part.isIn_of h1) hp

theorem keeps_rails {f : List Part} {s u : State} (h0 : Part.isIn .rails f = true) (h : Keeps f s u) {x0} :
    Keeps f s { u with rails := x0 } := by
  refine ⟨fun p hp => ?_⟩
  have e := h.same p hp
  cases p <;> first | exact e | exact absurd (Part.isIn_of h0) hp

theorem keeps_tally_mem {f : List Part} {s u : State} (h0 : Part.isIn .tally f = true) (h1 : Part.isIn .mem f = true) (h : Keeps f s u) {x0 x1} :
    Keeps f s { u with tally := x0, mem := x1 } := by
  refine ⟨fun p hp => ?_⟩
  have e := h.same p hp
  cases p <;> first | exact e | exact absurd (Part.isIn_of h0) hp | exact absurd (Part.isIn_of h1) hp

theorem keeps_clk_dict_dom_hist_domHist_pend_pipe_twin {f : List Part} {s u : State} (h0 : Part.isIn .clk f = true) (h1 : Part.isIn .dict f = true) (h2 : Part.isIn .dom f = true) (h3 : Part.isIn .hist f = true) (h4 : Part.isIn .domHist f = true) (h5 : Part.isIn .pend f = true) (h6 : Part.isIn .pipe f = true) (h7 : Part.isIn .twin f = true) (h : Keeps f s u) {x0 x1 x2 x3 x4 x5 x6 x7} :
    Keeps f s { u with clk := x0, dict := x1, dom := x2, hist := x3, domHist := x4, pend := x5, pipe := x6, twin := x7 } := by
  refine ⟨fun p hp => ?_⟩
  have e := h.same p hp
  cases p <;> first | exact e | exact absurd (Part.isIn_of h0) hp | exact absurd (Part.isIn_of h1) hp | exact absurd (Part.isIn_of h2) hp | exact absurd (Part.isIn_of h3) hp | exact absurd (Part.isIn_of h4) hp | exact absurd (Part.isIn_of h5) hp | exact absurd (Part.isIn_of h6) hp | exact absurd (Part.isIn_of h7) hp

theorem keeps_dict {f : List Part} {s u : State} (h0 : Part.isIn .dict f = true) (h : Keeps f s u) {x0} :
    Keeps f s { u with dict := x0 } := by
  refine ⟨fun p hp => ?_⟩
  have e := h.same p hp
  cases p <;> first | exact e | exact absurd (Part.isIn_of h0) hp

theorem keeps_slots {f : List Part} {s u : State} (h0 : Part.isIn .slots f = true) (h : Keeps f s u) {x0} :
    Keeps f s { u with slots := x0 } := by
  refine ⟨fun p hp => ?_⟩
  have e := h.same p hp
  cases p <;> first | exact e | exact absurd (Part.isIn_of h0) hp

theorem keeps_power_sup {f : List Part} {s u : State} (h0 : Part.isIn .power f = true) (h1 : Part.isIn .sup f = true) (h : Keeps f s u) {x0 x1} :
    Keeps f s { u with power := x0, sup := x1 } := by
  refine ⟨fun p hp => ?_⟩
  have e := h.same p hp
  cases p <;> first | exact e | exact absurd (Part.isIn_of h0) hp | exact absurd (Part.isIn_of h1) hp

theorem keeps_statB {f : List Part} {s u : State} (h0 : Part.isIn .statB f = true) (h : Keeps f s u) {x0} :
    Keeps f s { u with statB := x0 } := by
  refine ⟨fun p hp => ?_⟩
  have e := h.same p hp
  cases p <;> first | exact e | exact absurd (Part.isIn_of h0) hp

theorem keeps_pipe_aesOut {f : List Part} {s u : State} (h0 : Part.isIn .pipe f = true) (h1 : Part.isIn .aesOut f = true) (h : Keeps f s u) {x0 x1} :
    Keeps f s { u with pipe := x0, aesOut := x1 } := by
  refine ⟨fun p hp => ?_⟩
  have e := h.same p hp
  cases p <;> first | exact e | exact absurd (Part.isIn_of h0) hp | exact absurd (Part.isIn_of h1) hp

theorem keeps_clk_twin {f : List Part} {s u : State} (h0 : Part.isIn .clk f = true) (h1 : Part.isIn .twin f = true) (h : Keeps f s u) {x0 x1} :
    Keeps f s { u with clk := x0, twin := x1 } := by
  refine ⟨fun p hp => ?_⟩
  have e := h.same p hp
  cases p <;> first | exact e | exact absurd (Part.isIn_of h0) hp | exact absurd (Part.isIn_of h1) hp

theorem keeps_todo_gpio {f : List Part} {s u : State} (h0 : Part.isIn .todo f = true) (h1 : Part.isIn .gpio f = true) (h : Keeps f s u) {x0 x1} :
    Keeps f s { u with todo := x0, gpio := x1 } := by
  refine ⟨fun p hp => ?_⟩
  have e := h.same p hp
  cases p <;> first | exact e | exact absurd (Part.isIn_of h0) hp | exact absurd (Part.isIn_of h1) hp

theorem keeps_dict_dom {f : List Part} {s u : State} (h0 : Part.isIn .dict f = true) (h1 : Part.isIn .dom f = true) (h : Keeps f s u) {x0 x1} :
    Keeps f s { u with dict := x0, dom := x1 } := by
  refine ⟨fun p hp => ?_⟩
  have e := h.same p hp
  cases p <;> first | exact e | exact absurd (Part.isIn_of h0) hp | exact absurd (Part.isIn_of h1) hp

theorem keeps_nv_events {f : List Part} {s u : State} (h0 : Part.isIn .nv f = true) (h1 : Part.isIn .events f = true) (h : Keeps f s u) {x0 x1} :
    Keeps f s { u with nv := x0, events := x1 } := by
  refine ⟨fun p hp => ?_⟩
  have e := h.same p hp
  cases p <;> first | exact e | exact absurd (Part.isIn_of h0) hp | exact absurd (Part.isIn_of h1) hp

theorem keeps_clk_hist_domHist_twin {f : List Part} {s u : State} (h0 : Part.isIn .clk f = true) (h1 : Part.isIn .hist f = true) (h2 : Part.isIn .domHist f = true) (h3 : Part.isIn .twin f = true) (h : Keeps f s u) {x0 x1 x2 x3} :
    Keeps f s { u with clk := x0, hist := x1, domHist := x2, twin := x3 } := by
  refine ⟨fun p hp => ?_⟩
  have e := h.same p hp
  cases p <;> first | exact e | exact absurd (Part.isIn_of h0) hp | exact absurd (Part.isIn_of h1) hp | exact absurd (Part.isIn_of h2) hp | exact absurd (Part.isIn_of h3) hp

theorem keeps_ledger_mem {f : List Part} {s u : State} (h0 : Part.isIn .ledger f = true) (h1 : Part.isIn .mem f = true) (h : Keeps f s u) {x0 x1} :
    Keeps f s { u with ledger := x0, mem := x1 } := by
  refine ⟨fun p hp => ?_⟩
  have e := h.same p hp
  cases p <;> first | exact e | exact absurd (Part.isIn_of h0) hp | exact absurd (Part.isIn_of h1) hp

theorem keeps_rods_rot_mem {f : List Part} {s u : State} (h0 : Part.isIn .rods f = true) (h1 : Part.isIn .rot f = true) (h2 : Part.isIn .mem f = true) (h : Keeps f s u) {x0 x1 x2} :
    Keeps f s { u with rods := x0, rot := x1, mem := x2 } := by
  refine ⟨fun p hp => ?_⟩
  have e := h.same p hp
  cases p <;> first | exact e | exact absurd (Part.isIn_of h0) hp | exact absurd (Part.isIn_of h1) hp | exact absurd (Part.isIn_of h2) hp

theorem keeps_rods_ledger_dram {f : List Part} {s u : State} (h0 : Part.isIn .rods f = true) (h1 : Part.isIn .ledger f = true) (h2 : Part.isIn .dram f = true) (h : Keeps f s u) {x0 x1 x2} :
    Keeps f s { u with rods := x0, ledger := x1, dram := x2 } := by
  refine ⟨fun p hp => ?_⟩
  have e := h.same p hp
  cases p <;> first | exact e | exact absurd (Part.isIn_of h0) hp | exact absurd (Part.isIn_of h1) hp | exact absurd (Part.isIn_of h2) hp

theorem keeps_pipe_ledger_dram_mem {f : List Part} {s u : State} (h0 : Part.isIn .pipe f = true) (h1 : Part.isIn .ledger f = true) (h2 : Part.isIn .dram f = true) (h3 : Part.isIn .mem f = true) (h : Keeps f s u) {x0 x1 x2 x3} :
    Keeps f s { u with pipe := x0, ledger := x1, dram := x2, mem := x3 } := by
  refine ⟨fun p hp => ?_⟩
  have e := h.same p hp
  cases p <;> first | exact e | exact absurd (Part.isIn_of h0) hp | exact absurd (Part.isIn_of h1) hp | exact absurd (Part.isIn_of h2) hp | exact absurd (Part.isIn_of h3) hp

end Sys2Proof.Machine
end

