-- ==== Sys2Proof/Laws/KeepsOps.lean ====
section
/-! SUPPORT. The parts of the state that each function of Machine/Ops.lean may change. -/
set_option linter.unreachableTactic false
set_option linter.unusedTactic false

namespace Sys2Proof.Machine

theorem State.stset_keeps (s : State) (d index sub v : Nat) : Keeps [.stat] s (State.stset s d index sub v) := by
  unfold State.stset
  refine keeps_stat rfl ?_
  exact Keeps.refl _ _

theorem State.bump_keeps (s : State) (index sub n : Nat) : Keeps [.stat] s (State.bump s index sub n) := by
  unfold State.bump
  refine keeps_stat rfl ?_
  exact Keeps.refl _ _

theorem State.drawn_keeps (s : State) : Keeps [.draws] s (State.drawn s) := by
  unfold State.drawn
  refine keeps_draws rfl ?_
  exact Keeps.refl _ _

theorem State.abort_keeps (s : State) (code : Nat) : Keeps [.stat] s (State.abort s code) := by
  unfold State.abort
  refine Keeps.step (State.stset_keeps ..) rfl ?_
  exact Keeps.refl _ _

theorem State.send_keeps (s : State) (f : OutFrame) : Keeps [.out] s (State.send s f) := by
  unfold State.send
  refine keeps_out rfl ?_
  exact Keeps.refl _ _

theorem State.sendPort_keeps (s : State) (p : Nat) (f : OutFrame) : Keeps [.stat, .out] s (State.sendPort s p f) := by
  unfold State.sendPort
  refine keeps_ite (fun _ => ?_) (fun _ => ?_)
  · refine Keeps.step (State.bump_keeps ..) rfl ?_
    refine Keeps.step (State.send_keeps ..) rfl ?_
    exact Keeps.refl _ _
  · exact Keeps.refl _ _

theorem State.heard_keeps (s : State) (p : Nat) : Keeps [.stat] s (State.heard s p) := by
  unfold State.heard
  refine Keeps.step (State.bump_keeps ..) rfl ?_
  exact Keeps.refl _ _

/-- A write under its check keeps what its effect and a refusal keep. -/
theorem State.attempt_keeps {f : List Part} (s : State) (index code : Nat) (eff : State → State)
    (h : Part.isIn .stat f = true) (he : Keeps f s (eff s)) : Keeps f s (s.attempt index code eff) := by
  unfold State.attempt
  have ha : ∀ c, Keeps f s (s.abort c) := fun c => keeps_stat h (Keeps.refl f s)
  repeat' first | exact he | exact ha _ | split

theorem State.put_keeps (s : State) (d index sub v : Nat) : Keeps [.dict] s (State.put s d index sub v) := by
  unfold State.put
  refine keeps_dict rfl ?_
  exact Keeps.refl _ _

theorem State.putNv_keeps (s : State) (d index sub v : Nat) : Keeps [.nv, .dict] s (State.putNv s d index sub v) := by
  unfold State.putNv
  refine keeps_nv_dict rfl rfl ?_
  exact Keeps.refl _ _

theorem State.putBytes_keeps (s : State) (index sub : Nat) (b : List Byte) : Keeps [.dom] s (State.putBytes s index sub
    b) := by
  unfold State.putBytes
  refine keeps_dom rfl ?_
  exact Keeps.refl _ _

theorem State.putBytesNv_keeps (s : State) (index sub : Nat) (b : List Byte) : Keeps [.nv, .dom] s (State.putBytesNv s
    index sub b) := by
  unfold State.putBytesNv
  refine keeps_nv_dom rfl rfl ?_
  exact Keeps.refl _ _

theorem State.formRecord_keeps (s : State) (src arg0 arg1 : Nat) (clear : Bool) : Keeps [.events] s (State.formRecord s
    src arg0 arg1 clear) := by
  unfold State.formRecord
  refine keeps_ite (fun _ => ?_) (fun _ => ?_)
  · exact Keeps.refl _ _
  · refine keeps_ite (fun _ => ?_) (fun _ => ?_)
    · refine keeps_events rfl ?_
      exact Keeps.refl _ _
    · refine keeps_ite (fun _ => ?_) (fun _ => ?_)
      · refine keeps_events rfl ?_
        exact Keeps.refl _ _
      · refine keeps_events rfl ?_
        exact Keeps.refl _ _

theorem State.raise_keeps (s : State) (src arg0 arg1 : Nat) : Keeps [.events] s (State.raise s src arg0 arg1) := by
  unfold State.raise
  refine keeps_ite (fun _ => ?_) (fun _ => ?_)
  · exact Keeps.refl _ _
  · refine Keeps.step (State.formRecord_keeps ..) rfl ?_
    refine keeps_events rfl ?_
    exact Keeps.refl _ _

theorem State.enterAs_keeps (s : State) (src inst arg0 arg1 : Nat) : Keeps [.events] s (State.enterAs s src inst arg0
    arg1) := by
  unfold State.enterAs
  refine keeps_ite (fun _ => ?_) (fun _ => ?_)
  · exact Keeps.refl _ _
  · refine keeps_events rfl ?_
    refine keeps_ite (fun _ => ?_) (fun _ => ?_)
    · refine Keeps.step (State.raise_keeps ..) rfl ?_
      exact Keeps.refl _ _
    · exact Keeps.refl _ _

theorem State.enter_keeps (s : State) (src inst arg1 : Nat) : Keeps [.events] s (State.enter s src inst arg1) := by
  unfold State.enter
  refine Keeps.step (State.enterAs_keeps ..) rfl ?_
  exact Keeps.refl _ _

theorem State.leaveAs_keeps (s : State) (src inst arg0 arg1 : Nat) : Keeps [.events] s (State.leaveAs s src inst arg0
    arg1) := by
  unfold State.leaveAs
  refine keeps_ite (fun _ => ?_) (fun _ => ?_)
  · refine keeps_ite (fun _ => ?_) (fun _ => ?_)
    · refine Keeps.step (State.formRecord_keeps ..) rfl ?_
      refine keeps_events rfl ?_
      exact Keeps.refl _ _
    · refine keeps_events rfl ?_
      exact Keeps.refl _ _
  · exact Keeps.refl _ _

theorem State.leave_keeps (s : State) (src inst arg1 : Nat) : Keeps [.events] s (State.leave s src inst arg1) := by
  unfold State.leave
  refine Keeps.step (State.leaveAs_keeps ..) rfl ?_
  exact Keeps.refl _ _

theorem State.condition_keeps (s : State) (src inst arg1 : Nat) (holds : Bool) : Keeps [.events] s (State.condition s
    src inst arg1 holds) := by
  unfold State.condition
  refine keeps_ite (fun _ => ?_) (fun _ => ?_)
  · refine Keeps.step (State.enter_keeps ..) rfl ?_
    exact Keeps.refl _ _
  · refine Keeps.step (State.leave_keeps ..) rfl ?_
    exact Keeps.refl _ _

theorem State.enterHoldover_keeps (s : State) : Keeps [.clk, .time, .events] s (State.enterHoldover s) := by
  unfold State.enterHoldover
  dsimp only
  refine Keeps.step (State.enter_keeps ..) rfl ?_
  refine keeps_clk_time rfl rfl ?_
  exact Keeps.refl _ _

theorem State.leaveHoldover_keeps (s : State) : Keeps [.stat, .events] s (State.leaveHoldover s) := by
  unfold State.leaveHoldover
  split
  · refine Keeps.step (State.raise_keeps ..) rfl ?_
    refine Keeps.step (State.stset_keeps ..) rfl ?_
    refine Keeps.step (State.leave_keeps ..) rfl ?_
    exact Keeps.refl _ _
  · exact Keeps.refl _ _

theorem State.wrap_keeps (s : State) : Keeps [.clk, .time, .events] s (State.wrap s) := by
  unfold State.wrap
  refine keeps_ite (fun _ => ?_) (fun _ => ?_)
  · refine keeps_ite (fun _ => ?_) (fun _ => ?_)
    · refine Keeps.step (State.enterHoldover_keeps ..) rfl ?_
      refine Keeps.step (State.raise_keeps ..) rfl ?_
      refine keeps_clk rfl ?_
      exact Keeps.refl _ _
    · refine Keeps.step (State.raise_keeps ..) rfl ?_
      refine keeps_clk rfl ?_
      exact Keeps.refl _ _
  · refine Keeps.step (State.raise_keeps ..) rfl ?_
    refine keeps_clk rfl ?_
    exact Keeps.refl _ _

theorem State.advance_keeps (s : State) (n : Nat) : Keeps [.clk, .time, .events] s (State.advance s n) := by
  unfold State.advance
  with_reducible refine keeps_ite (fun _ => ?_) (fun _ => ?_)
  · with_reducible refine keeps_clk rfl ?_
    with_reducible exact Keeps.refl _ _
  · with_reducible refine keeps_clk rfl ?_
    with_reducible refine Keeps.step (State.wrap_keeps ..) rfl ?_
    with_reducible refine keeps_clk rfl ?_
    with_reducible exact Keeps.refl _ _

theorem State.elapse_keeps (s : State) (at_ : Nat) : Keeps [.clk, .time, .events] s (State.elapse s at_) := by
  unfold State.elapse
  refine keeps_ite (fun _ => ?_) (fun _ => ?_)
  · refine Keeps.step (State.advance_keeps ..) rfl ?_
    exact Keeps.refl _ _
  · exact Keeps.refl _ _

theorem State.setFeed_keeps (s : State) (f : Nat) (v : FeedSt) : Keeps [.pipe] s (State.setFeed s f v) := by
  unfold State.setFeed
  refine keeps_pipe rfl ?_
  exact Keeps.refl _ _

theorem State.setDrive_keeps (s : State) (n : Nat) (d : Drive) : Keeps [.drives] s (State.setDrive s n d) := by
  unfold State.setDrive
  refine keeps_drives rfl ?_
  exact Keeps.refl _ _

theorem State.setRod_keeps (s : State) (r : Nat) (v : Rod) : Keeps [.rods] s (State.setRod s r v) := by
  unfold State.setRod
  refine keeps_rods rfl ?_
  exact Keeps.refl _ _

theorem State.setQueue_keeps (s : State) (q : Nat) (v : Queue) : Keeps [.tally] s (State.setQueue s q v) := by
  unfold State.setQueue
  refine keeps_tally rfl ?_
  exact Keeps.refl _ _

theorem State.setPort_keeps (s : State) (p : Nat) (v : Port) : Keeps [.ports] s (State.setPort s p v) := by
  unfold State.setPort
  refine keeps_ports rfl ?_
  exact Keeps.refl _ _

end Sys2Proof.Machine
end

