-- ==== Sys2Proof/Laws/Table.lean ====
section
/-! SUPPORT. What sparse tables and memory do: a read after a write, and the canonical form that every operation on them keeps. -/
namespace Sys2Proof.Machine

variable {α : Type}

@[simp] theorem mget_nil (d : α) (k : Nat) : mget d ([] : SMap α) k = d := rfl

theorem mget_minsert (d : α) (m : SMap α) (n : Nat) (v : α) (k : Nat) :
    mget d (minsert m n v) k = if k = n then v else mget d m k := by
  induction m with
  | nil =>
    by_cases h : k = n
    · simp [minsert, mget, h]
    · simp [minsert, mget, h, Ne.symm h]
  | cons e m ih =>
    obtain ⟨a, w⟩ := e
    simp only [minsert]
    split
    · by_cases h : k = n
      · simp [mget, h]
      · simp [mget, h, Ne.symm h]
    · split
      · rename_i h1 h2
        subst h2
        by_cases h : k = n
        · simp [mget, h]
        · simp [mget, h, Ne.symm h]
      · by_cases h : a = k
        · have hk : ¬ k = n := by omega
          simp [mget, h, hk]
        · simp [mget, h, ih]

theorem mget_drop (d : α) (m : SMap α) (n k : Nat) :
    mget d (m.filter (fun e => decide (e.1 ≠ n))) k = if k = n then d else mget d m k := by
  induction m with
  | nil => by_cases h : k = n <;> simp [mget]
  | cons e m ih =>
    obtain ⟨a, w⟩ := e
    by_cases ha : a = n
    · rw [List.filter_cons_of_neg (by simp [ha]), ih]
      by_cases h : k = n
      · simp [h]
      · have : ¬ a = k := by omega
        simp [h, mget, this]
    · rw [List.filter_cons_of_pos (by simp [ha])]
      simp only [mget, ih]
      by_cases h : k = n
      · have : ¬ a = k := by omega
        simp [h]
        omega
      · simp [h]

variable [DecidableEq α]

/-- A read after a write: the value written at its key, the old value at every other. -/
theorem mget_mset (d : α) (m : SMap α) (n : Nat) (v : α) (k : Nat) :
    mget d (mset d m n v) k = if k = n then v else mget d m k := by
  unfold mset
  split
  · rename_i h
    rw [mget_drop, h]
  · exact mget_minsert d m n v k

@[simp] theorem mget_mset_self (d : α) (m : SMap α) (n : Nat) (v : α) : mget d (mset d m n v) n = v := by
  simp [mget_mset]

theorem mget_mset_ne (d : α) (m : SMap α) (n : Nat) (v : α) (k : Nat) (h : k ≠ n) :
    mget d (mset d m n v) k = mget d m k := by simp [mget_mset, h]

theorem mwfFrom_weaken (d : α) (m : SMap α) (lo lo' : Option Nat)
    (h : ∀ l', lo' = some l' → ∃ l, lo = some l ∧ l' ≤ l) (hm : mwfFrom d lo m = true) : mwfFrom d lo' m = true := by
  cases m with
  | nil => cases lo' <;> rfl
  | cons e m =>
    obtain ⟨a, w⟩ := e
    cases lo' with
    | none =>
      cases lo <;> simp_all [mwfFrom]
    | some l' =>
      obtain ⟨l, hl, hle⟩ := h l' rfl
      subst hl
      simp only [mwfFrom, Bool.and_eq_true, decide_eq_true_eq] at hm ⊢
      exact ⟨⟨by omega, hm.1.2⟩, hm.2⟩

theorem mwfFrom_filter (d : α) (p : Nat × α → Bool) (m : SMap α) :
    ∀ lo : Option Nat, mwfFrom d lo m = true → mwfFrom d lo (m.filter p) = true := by
  induction m with
  | nil => intro lo h; simpa using h
  | cons e m ih =>
    intro lo h
    obtain ⟨a, w⟩ := e
    have h2 : mwfFrom d (some a) m = true := by
      cases lo <;> simp_all [mwfFrom]
    by_cases hp : p (a, w) = true
    · rw [List.filter_cons_of_pos hp]
      cases lo <;> simp_all [mwfFrom]
    · rw [List.filter_cons_of_neg hp]
      apply ih
      refine mwfFrom_weaken d m (some a) lo ?_ h2
      intro l' hl
      subst hl
      simp only [mwfFrom, Bool.and_eq_true, decide_eq_true_eq] at h
      exact ⟨a, rfl, Nat.le_of_lt h.1.1⟩

theorem mwfFrom_minsert (d : α) (n : Nat) (v : α) (hv : v ≠ d) (m : SMap α) :
    ∀ lo : Option Nat, mwfFrom d lo m = true → (∀ l, lo = some l → l < n) → mwfFrom d lo (minsert m n v) = true := by
  induction m with
  | nil =>
    intro lo _ hl
    cases lo with
    | none => simp [minsert, mwfFrom, hv]
    | some l => simp [minsert, mwfFrom, hv, hl l rfl]
  | cons e m ih =>
    intro lo h hl
    obtain ⟨a, w⟩ := e
    have h2 : mwfFrom d (some a) m = true ∧ w ≠ d := by
      cases lo <;> simp_all [mwfFrom]
    simp only [minsert]
    split
    · rename_i hna
      have h3 : mwfFrom d (some n) ((a, w) :: m) = true := by
        simp [mwfFrom, hna, h2.1, h2.2]
      cases lo with
      | none => simpa [mwfFrom, hv] using h3
      | some l => simpa [mwfFrom, hv, hl l rfl] using h3
    · split
      · rename_i h1 hna
        subst hna
        cases lo with
        | none => simpa [mwfFrom, hv] using h2.1
        | some l => simpa [mwfFrom, hv, hl l rfl] using h2.1
      · have h3 := ih (some a) h2.1 (by intro l hla; cases hla; omega)
        cases lo with
        | none => simpa [mwfFrom, h2.2] using h3
        | some l =>
          have hla : l < a := by
            simp only [mwfFrom, Bool.and_eq_true, decide_eq_true_eq] at h
            exact h.1.1
          simpa [mwfFrom, h2.2, hla] using h3

/-- A write keeps the canonical form. -/
theorem mwf_mset (d : α) (m : SMap α) (n : Nat) (v : α) (h : mwf d m = true) : mwf d (mset d m n v) = true := by
  unfold mset mwf
  split
  · exact mwfFrom_filter d _ m none h
  · rename_i hv
    exact mwfFrom_minsert d n v hv m none h (by intro l hl; cases hl)

/-- Leaving entries out keeps the canonical form. -/
theorem mwf_filter (d : α) (p : Nat × α → Bool) (m : SMap α) (h : mwf d m = true) : mwf d (m.filter p) = true :=
  mwfFrom_filter d p m none h

/-! Memory -/

theorem memByte_memSet (m : List Host.Cell) (a : Nat) (b : Byte) (k : Nat) :
    memByte (memSet m a b) k = if k = a then b else memByte m k := mget_mset 0#8 m a b k

theorem memSet_wf (m : List Host.Cell) (a : Nat) (b : Byte) (h : Memory.wf m = true) : Memory.wf (memSet m a b) = true :=
  mwf_mset 0#8 m a b h

theorem memWrite_wf (l : List Byte) : ∀ (m : List Host.Cell) (a : Nat), Memory.wf m = true → Memory.wf (memWrite m a l) = true := by
  induction l with
  | nil => intro m a h; exact h
  | cons b r ih => intro m a h; exact ih _ _ (memSet_wf m a b h)

theorem memStrobe_wf (l : List Byte) : ∀ (t : List Bool) (m : List Host.Cell) (a : Nat), Memory.wf m = true →
    Memory.wf (memStrobe m a l t) = true := by
  induction l with
  | nil => intro t m a h; cases t <;> exact h
  | cons b r ih =>
    intro t m a h
    cases t with
    | nil => exact h
    | cons c t => cases c <;> simp only [memStrobe] <;> exact ih _ _ _ (by first | exact h | exact memSet_wf m a b h)

theorem memFilter_wf (p : Host.Cell → Bool) (m : List Host.Cell) (h : Memory.wf m = true) : Memory.wf (m.filter p) = true :=
  mwf_filter 0#8 p m h

theorem memClear_wf (m : List Host.Cell) (lo hi : Nat) (h : Memory.wf m = true) : Memory.wf (memClear m lo hi) = true :=
  memFilter_wf _ m h

theorem memSample'_wf (m : List Host.Cell) (a : Nat) (x : Int) (h : Memory.wf m = true) : Memory.wf (memSample' m a x) = true :=
  memWrite_wf _ m a h

/-- A byte outside the bytes written reads as before. -/
theorem memByte_memWrite_ne (l : List Byte) : ∀ (m : List Host.Cell) (a k : Nat), (k < a ∨ a + l.length ≤ k) →
    memByte (memWrite m a l) k = memByte m k := by
  induction l with
  | nil => intro m a k _; rfl
  | cons b r ih =>
    intro m a k h
    have h1 : k ≠ a := by simp only [List.length_cons] at h; omega
    have h2 : k < a + 1 ∨ a + 1 + r.length ≤ k := by simp only [List.length_cons] at h; omega
    show memByte (memWrite (memSet m a b) (a + 1) r) k = memByte m k
    rw [ih _ _ _ h2, memByte_memSet, if_neg h1]

/-- Byte `i` of those written reads as written. -/
theorem memByte_memWrite (l : List Byte) : ∀ (m : List Host.Cell) (a i : Nat) (_ : i < l.length),
    memByte (memWrite m a l) (a + i) = l.getD i 0#8 := by
  induction l with
  | nil => intro m a i h; simp at h
  | cons b r ih =>
    intro m a i h
    cases i with
    | zero =>
      show memByte (memWrite (memSet m a b) (a + 1) r) (a + 0) = b
      rw [memByte_memWrite_ne r _ _ _ (Or.inl (by omega)), memByte_memSet, if_pos (by omega)]
    | succ i =>
      have h' : i < r.length := by simpa using h
      have := ih (memSet m a b) (a + 1) i h'
      show memByte (memWrite (memSet m a b) (a + 1) r) (a + (i + 1)) = r.getD i 0#8
      rw [show a + (i + 1) = a + 1 + i by omega]
      exact this

end Sys2Proof.Machine
end

