-- ==== Sys2Proof/Laws/Beam.lean ====
section
/-! SUPPORT. What a single transaction of a master does: it is served at once, waits, or is refused. -/
namespace Sys2Proof.Machine

/-- A request that is no deep-line read is left as it is. -/
theorem admitted_one (q : BeamReq) (h : q.deep = false) : admitted [Waiting.mk q 0 false] [] = [Waiting.mk q 0 false] := by
  simp [admitted, isDeepRead, h]

theorem count_fold (m : Nat) : ∀ (l : List Nat) (n : SMap Nat),
    mget 0 (l.foldl (fun n m => mset 0 n m (mget 0 n m + 1)) n) m = mget 0 n m + l.count m := by
  intro l
  induction l with
  | nil => intro n; simp
  | cons x r ih =>
    intro n
    rw [List.foldl_cons, ih, mget_mset, List.count_cons]
    by_cases h : x = m
    · subst h; simp; omega
    · have h' : ¬ m = x := fun e => h e.symm
      simp [h, h']

/-- One request holds a tag or does not. -/
theorem tagged_one (e : Waiting × Nat) (used : SMap Nat) (pool : Nat) : tagged [e] used pool = [e] ∨ tagged [e] used pool = [] := by
  simp only [tagged]
  split
  · exact .inl rfl
  · split
    · exact .inl rfl
    · exact .inr rfl

/-- The one request that waits arbitrates alone, once it holds a tag. -/
theorem contenders_of (s : State) (q : BeamReq) (t : Nat) (hw : s.beam.waiting = [Waiting.mk q 0 false]) (hd : q.deep = false)
    (ht : targetOf q.addr = some t) :
    contenders s t = (if !targetReady s t then [] else
      if (mget (32, 0) s.beam.locks t).1 < 32 ∧ (mget (32, 0) s.beam.locks t).1 ≠ q.master then []
      else if t = 14 ∧ tallyHeld s q.master = true then []
      else tagged [(Waiting.mk q 0 false, 0)] ((heldTags s).foldl (fun n m => mset 0 n m (mget 0 n m + 1)) []) (poolLeft s)) := by
  simp only [contenders, hw, List.zipIdx_cons, List.zipIdx_nil, Nat.zero_add]
  generalize (mget (32, 0) s.beam.locks t).1 = l
  rcases tagged_one (Waiting.mk q 0 false, 0) ((heldTags s).foldl (fun n m => mset 0 n m (mget 0 n m + 1)) []) (poolLeft s)
    with e | e <;> rw [e] <;>
    simp only [ht, decide_true, List.filter_cons, List.filter_nil, oldestOfMaster, if_true,
      List.contains_nil, Bool.false_eq_true, if_false, isDeepRead, hd, Bool.false_and, Bool.not_false, Bool.true_or, Bool.and_true]
  · generalize tallyHeld s q.master = held
    by_cases hm : l = q.master
    · subst hm
      by_cases h14 : t = 14 <;> cases held <;> by_cases hl : q.master < 32 <;> simp [h14, hl]
    · have hm' : ¬ q.master = l := fun e => hm e.symm
      by_cases h14 : t = 14 <;> cases held <;> by_cases hl : l < 32 <;> simp [h14, hl, hm, hm']
  · simp

/-- A master with fewer than two transactions in flight holds a tag for the next. -/
theorem tagged_first (s : State) (e : Waiting × Nat) (pool : Nat) (hc : (heldTags s).count e.1.req.master < 2) :
    tagged [e] ((heldTags s).foldl (fun n m => mset 0 n m (mget 0 n m + 1)) []) pool = [e] := by
  have hu := count_fold e.1.req.master (heldTags s) []
  simp only [tagged]
  rw [hu]
  simp [hc]

/-- A request issued that stands alone at its target. -/
theorem issue_alone (s : State) (q : BeamReq) (t : Nat) (hb : burstOk q = true) (hf : masterFenced s q.master = false)
    (ht : targetOf q.addr = some t) (hp : pairPri s q.master t ≠ 0) (hl : q.locked = false) (hd : q.deep = false)
    (hw : s.beam.waiting = []) :
    letIn (issue s q) = { s with beam := { s.beam with waiting := [Waiting.mk q 0 false] } } := by
  have he : requestError s q = 0 := by simp [requestError, ht, hp, hl]
  simp [issue, hb, hf, he, letIn, enqueue, hw, admitted_one q hd]

/-- The Beam in which request `q` alone waits. -/
theorem waiting_nil (s : State) (h : s.beam.waiting = []) : { s.beam with waiting := [] } = s.beam := by rw [← h]

/-- A transaction that nothing holds is served at once (R256, R257). -/
theorem single_served (s : State) (q : BeamReq) (t : Nat) (h : Served s q.master t) (hb : burstOk q = true)
    (ht : targetOf q.addr = some t) (hl : q.locked = false) (hd : q.deep = false) :
    single s q = serveBurst { s with beam := beamAfter s q.master t } q := by
  obtain ⟨⟨hm, hf⟩, hp, hr, hw, hu, hc, hh⟩ := h
  have hi := issue_alone s q t hb hf ht hp hl hd hw
  have hn : ¬ ((mget (32, 0) s.beam.locks t).1 < 32 ∧ (mget (32, 0) s.beam.locks t).1 ≠ q.master) := fun e => absurd e.1 (by omega)
  have hn' : ¬ (t = 14 ∧ tallyHeld s q.master = true) := fun e => by simp [hh e.1] at e
  have hq : ¬ (mget (32, 0) s.beam.locks t).1 = q.master := by omega
  have hcs : contenders { s with beam := { s.beam with waiting := [Waiting.mk q 0 false] } } t = [(Waiting.mk q 0 false, 0)] := by
    rw [contenders_of { s with beam := { s.beam with waiting := [Waiting.mk q 0 false] } } q t rfl hd ht]
    rw [show targetReady { s with beam := { s.beam with waiting := [Waiting.mk q 0 false] } } t = true from hr]
    exact (if_neg Bool.false_ne_true).trans ((if_neg hn).trans ((if_neg hn').trans (tagged_first s _ _ hc)))
  have hch : choice { s with beam := { s.beam with waiting := [Waiting.mk q 0 false] } } t = some ((Waiting.mk q 0 false, 0), false) := by
    simp [choice, hcs, winner]
  have hg : granted { s with beam := { s.beam with waiting := [Waiting.mk q 0 false] } } t (Waiting.mk q 0 false, 0) false =
      { s with beam := beamAfter s q.master t } := by
    simp [granted, hd, beamAfter, grantNoted, sinceAged, hw]
  have he : requestError { s with beam := beamAfter s q.master t } q = 0 := by
    have hp' : pairPri { s with beam := beamAfter s q.master t } q.master t ≠ 0 := hp
    simp [requestError, ht, hp', hl]
  have hs : serve { s with beam := beamAfter s q.master t } q t = serveBurst { s with beam := beamAfter s q.master t } q := by
    have hq' : ¬ (mget (32, 0) (beamAfter s q.master t).locks t).1 = q.master := hq
    simp [serve, he, hq', lockAfter, hl]
  simp only [single, ht, hi, grantAt, hch, hg, hs]

/-- A transaction that its target, a lock or a held PUT holds waits (R250, R256, R258). -/
theorem single_waits (s : State) (q : BeamReq) (t : Nat) (h : Waits s q.master t) (hb : burstOk q = true)
    (ht : targetOf q.addr = some t) (hl : q.locked = false) (hd : q.deep = false) :
    single s q = { s with beam := { s.beam with waiting := [Waiting.mk q 0 false] } } := by
  obtain ⟨⟨hm, hf⟩, hp, hw, hwhy⟩ := h
  have hi := issue_alone s q t hb hf ht hp hl hd hw
  have hcs : contenders { s with beam := { s.beam with waiting := [Waiting.mk q 0 false] } } t = [] := by
    rw [contenders_of { s with beam := { s.beam with waiting := [Waiting.mk q 0 false] } } q t rfl hd ht]
    show (if !targetReady s t then [] else
      if (mget (32, 0) s.beam.locks t).1 < 32 ∧ (mget (32, 0) s.beam.locks t).1 ≠ q.master then []
      else if t = 14 ∧ tallyHeld s q.master = true then [] else _) = []
    rcases hwhy with h | h | h <;> simp [h]
  simp [single, ht, hi, grantAt, choice, hcs, winner]

/-- An error response changes only the record of the Beam (R260). -/
theorem beamError_beam (s : State) (m addr cause : Nat) : (beamError s m addr cause).beam =
    { s.beam with errAddr := addr % 2 ^ 40, errMas := m, errCau := cause, errVal := true } :=
  ((State.raise_keeps _ 53 _ _).same .beam (by decide)).trans rfl

theorem refuse_beam (s : State) (q : BeamReq) (cause : Nat) : (refuse s q cause).beam =
    { s.beam with errAddr := q.addr % 2 ^ 40, errMas := q.master, errCau := cause, errVal := true } := by
  unfold refuse
  split <;> exact beamError_beam ..

/-- A transaction refused for its address or its pair (R254, R257). -/
theorem single_refused (s : State) (q : BeamReq) (hb : burstOk q = true) (hf : masterFenced s q.master = false)
    (hw : s.beam.waiting = []) (he : requestError s q ≠ 0) : single s q = refuse s q (requestError s q) := by
  have hi : issue s q = refuse s q (requestError s q) := by simp [issue, hb, hf, he]
  have hwait : (refuse s q (requestError s q)).beam.waiting = [] := by rw [refuse_beam]; exact hw
  have ha : letIn (refuse s q (requestError s q)) = refuse s q (requestError s q) := by
    simp only [letIn, hwait, admitted, waiting_nil _ hwait]
  have hcs : ∀ t, contenders (refuse s q (requestError s q)) t = [] := fun t => by
    simp [contenders, hwait, tagged, oldestOfMaster]
  simp only [single, hi, ha]
  split
  · rfl
  · simp [grantAt, choice, hcs, winner]

end Sys2Proof.Machine
end

