-- ==== Sys2Proof/Laws/Crypto.lean ====
section
/-! SUPPORT. The lengths of hashes and tags. -/
namespace Sys2Proof.Machine

theorem leBytes_length (n x : Nat) : (leBytes n x).length = n := by
  induction n generalizing x with
  | zero => rfl
  | succ n ih => simp [leBytes, ih]

theorem beBytes_length (n x : Nat) : (beBytes n x).length = n := by simp [beBytes, leBytes_length]

theorem shaRounds_length (l : List (Word × Word)) (v : List Word) (h : v.length = 8) : (l.foldl shaRound v).length = 8 := by
  induction l generalizing v with
  | nil => exact h
  | cons a l ih => exact ih _ rfl

theorem shaBlock_length (h : List Word) (b : List Byte) (hh : h.length = 8) : (shaBlock h b).length = 8 := by
  unfold shaBlock
  simp only [List.length_map, List.length_zip, shaRounds_length _ _ hh, hh, Nat.min_self]

theorem shaBlocks_length (l : List (List Byte)) (h : List Word) (hh : h.length = 8) : (l.foldl shaBlock h).length = 8 := by
  induction l generalizing h with
  | nil => exact hh
  | cons a l ih => exact ih _ (shaBlock_length h a hh)

theorem sha256_length (m : List Byte) : (sha256 m).length = 32 := by
  unfold sha256
  have h := shaBlocks_length (chunks 64 ((shaPad m).length / 64) (shaPad m)) shaInit rfl
  simp only [List.length_flatMap, beBytes_length, List.map_const', List.sum_replicate, h]
  rfl

theorem hmac_length (key m : List Byte) : (hmac key m).length = 32 := sha256_length _

theorem folTag_length (key : List Byte) (f : FolFrame) : (folTag key f).length = 16 := by
  unfold folTag
  rw [List.length_take, hmac_length]
  rfl

end Sys2Proof.Machine
end

