-- ==== Sys2Proof/Laws/KeepsFades.lean ====
section
/-! SUPPORT. The parts of the state that each function of Machine/Fades.lean may change. -/
set_option linter.unreachableTactic false
set_option linter.unusedTactic false

namespace Sys2Proof.Machine

theorem State.mark_keeps (s : State) (block cause : Nat) : Keeps [.twin] s (State.mark s block cause) := by
  unfold State.mark
  refine keeps_twin rfl ?_
  exact Keeps.refl _ _

theorem stageMiss_keeps (s : State) (stage scope : Nat) : Keeps [.stat, .twin, .events] s (stageMiss s stage scope) :=
    by
  unfold stageMiss
  refine keeps_ite (fun _ => ?_) (fun _ => ?_)
  · exact Keeps.refl _ _
  · refine Keeps.step (State.raise_keeps ..) rfl ?_
    refine Keeps.step (State.stset_keeps ..) rfl ?_
    refine Keeps.step (State.stset_keeps ..) rfl ?_
    refine Keeps.step (State.bump_keeps ..) rfl ?_
    refine Keeps.step (State.mark_keeps ..) rfl ?_
    exact Keeps.refl _ _

end Sys2Proof.Machine
end

