-- ==== Sys2Proof/Laws/KeepsMemory.lean ====
section
/-! SUPPORT. The parts of the state that each function of Machine/Memory.lean may change. -/
set_option linter.unreachableTactic false
set_option linter.unusedTactic false

namespace Sys2Proof.Machine

theorem applyUpsets_keeps (s : State) (ups : List Upset) : Keeps [.rods, .ledger, .dram] s (applyUpsets s ups) := by
  unfold applyUpsets
  refine keeps_foldl (fun _ _ _ => ?_) ?_
  · refine keeps_ite (fun _ => ?_) (fun _ => ?_)
    · refine keeps_ledger rfl ?_
      assumption
    · refine keeps_ite (fun _ => ?_) (fun _ => ?_)
      · refine keeps_dram rfl ?_
        assumption
      · refine keeps_ite (fun _ => ?_) (fun _ => ?_)
        · refine Keeps.step (State.setRod_keeps ..) rfl ?_
          assumption
        · assumption
  · exact Keeps.refl _ _

theorem ledgerNote_keeps (s : State) (w : Nat) : Keeps [.stat, .ledger, .events] s (ledgerNote s w) := by
  unfold ledgerNote
  split
  · exact Keeps.refl _ _
  · refine keeps_ite (fun _ => ?_) (fun _ => ?_)
    · refine Keeps.step (State.raise_keeps ..) rfl ?_
      refine Keeps.step (State.bump_keeps ..) rfl ?_
      refine Keeps.step (State.stset_keeps ..) rfl ?_
      exact Keeps.refl _ _
    · refine Keeps.step (State.bump_keeps ..) rfl ?_
      refine keeps_ite (fun _ => ?_) (fun _ => ?_)
      · exact Keeps.refl _ _
      · refine keeps_ledger rfl ?_
        exact Keeps.refl _ _

theorem ledgerMark_keeps (s : State) (block : Nat) (lost : Bool) : Keeps [.twin] s (ledgerMark s block lost) := by
  unfold ledgerMark
  refine keeps_ite (fun _ => ?_) (fun _ => ?_)
  · refine Keeps.step (State.mark_keeps ..) rfl ?_
    exact Keeps.refl _ _
  · exact Keeps.refl _ _

theorem ledgerRead_keeps (s : State) (a n : Nat) : Keeps [.stat, .ledger, .events] s (ledgerRead s a n).1 := by
  unfold ledgerRead
  refine keeps_foldl (fun _ _ _ => ?_) ?_
  · refine Keeps.step (ledgerNote_keeps ..) rfl ?_
    assumption
  · exact Keeps.refl _ _

theorem lineRead_keeps (s : State) (block a n : Nat) : Keeps [.stat, .twin, .ledger, .events] s (lineRead s block a n).1
    := by
  unfold lineRead
  split
  dsimp only
  refine Keeps.step (ledgerMark_keeps ..) rfl ?_
  refine keeps_fst (by assumption) ?_
  refine Keeps.step (ledgerRead_keeps ..) rfl ?_
  exact Keeps.refl _ _

theorem ledgerOpen_keeps (s : State) (w : Nat) (full : Bool) : Keeps [.stat, .ledger, .mem] s (ledgerOpen s w full) :=
    by
  unfold ledgerOpen
  split
  · exact Keeps.refl _ _
  · refine keeps_ite (fun _ => ?_) (fun _ => ?_)
    · refine keeps_ledger rfl ?_
      exact Keeps.refl _ _
    · refine keeps_ite (fun _ => ?_) (fun _ => ?_)
      · refine keeps_mem rfl ?_
        refine keeps_ledger rfl ?_
        exact Keeps.refl _ _
      · refine Keeps.step (State.bump_keeps ..) rfl ?_
        refine keeps_ledger rfl ?_
        exact Keeps.refl _ _

theorem abandonRepair_keeps (s : State) (a : Nat) : Keeps [.ledger] s (abandonRepair s a) := by
  unfold abandonRepair
  refine keeps_ite (fun _ => ?_) (fun _ => ?_)
  · refine keeps_ledger rfl ?_
    exact Keeps.refl _ _
  · exact Keeps.refl _ _

theorem ledgerWrite_keeps (s : State) (a : Nat) (data : List Byte) (strobe : List Bool) : Keeps [.stat, .ledger, .mem] s
    (ledgerWrite s a data strobe) := by
  unfold ledgerWrite
  refine keeps_mem rfl ?_
  refine keeps_foldl (fun _ _ _ => ?_) ?_
  · refine Keeps.step (abandonRepair_keeps ..) rfl ?_
    refine Keeps.step (ledgerOpen_keeps ..) rfl ?_
    assumption
  · exact Keeps.refl _ _

theorem ledgerZero_keeps (s : State) (lo hi : Nat) : Keeps [.ledger, .mem] s (ledgerZero s lo hi) := by
  unfold ledgerZero
  refine keeps_ledger_mem rfl rfl ?_
  exact Keeps.refl _ _

theorem repairStatus_keeps (s : State) : Keeps [.stat] s (repairStatus s) := by
  unfold repairStatus
  refine Keeps.step (State.stset_keeps ..) rfl ?_
  refine Keeps.step (State.stset_keeps ..) rfl ?_
  exact Keeps.refl _ _

theorem repairLine_keeps (s : State) (bank : Nat) : Keeps [.nv, .stat, .ledger, .mem, .events] s (repairLine s bank) :=
    by
  unfold repairLine
  split
  · exact Keeps.refl _ _
  · refine keeps_ite (fun _ => ?_) (fun _ => ?_)
    · refine Keeps.step (repairStatus_keeps ..) rfl ?_
      refine keeps_nv_ledger rfl rfl ?_
      refine keeps_foldl (fun _ _ _ => ?_) ?_
      · refine keeps_ite (fun _ => ?_) (fun _ => ?_)
        · refine keeps_mem rfl ?_
          assumption
        · assumption
      · refine keeps_ledger rfl ?_
        exact Keeps.refl _ _
    · refine keeps_ite (fun _ => ?_) (fun _ => ?_)
      · refine keeps_ledger rfl ?_
        exact Keeps.refl _ _
      · refine Keeps.step (State.raise_keeps ..) rfl ?_
        refine Keeps.step (State.stset_keeps ..) rfl ?_
        refine keeps_ledger rfl ?_
        refine keeps_ledger rfl ?_
        exact Keeps.refl _ _

theorem startRepair_keeps (s : State) (bank line : Nat) : Keeps [.ledger] s (startRepair s bank line) := by
  unfold startRepair
  refine keeps_ite (fun _ => ?_) (fun _ => ?_)
  · refine keeps_ledger rfl ?_
    exact Keeps.refl _ _
  · refine keeps_ledger rfl ?_
    exact Keeps.refl _ _

theorem scrubCorrect_keeps (s : State) (w b : Nat) : Keeps [.ledger] s (scrubCorrect s w b) := by
  unfold scrubCorrect
  refine keeps_ite (fun _ => ?_) (fun _ => ?_)
  · refine Keeps.step (startRepair_keeps ..) rfl ?_
    refine keeps_ledger rfl ?_
    exact Keeps.refl _ _
  · refine keeps_ledger rfl ?_
    exact Keeps.refl _ _

theorem serveQueued_keeps (s : State) (w : Nat) : Keeps [.ledger] s (serveQueued s w) := by
  unfold serveQueued
  split
  · refine keeps_ite (fun _ => ?_) (fun _ => ?_)
    · exact Keeps.refl _ _
    · refine Keeps.step (scrubCorrect_keeps ..) rfl ?_
      exact Keeps.refl _ _
  · exact Keeps.refl _ _

theorem patrolWord_keeps (s : State) (e : Nat × Option Nat) : Keeps [.stat, .ledger] s (patrolWord s e) := by
  unfold patrolWord
  split
  · exact Keeps.refl _ _
  · refine keeps_ite (fun _ => ?_) (fun _ => ?_)
    · refine Keeps.step (startRepair_keeps ..) rfl ?_
      refine Keeps.step (State.bump_keeps ..) rfl ?_
      exact Keeps.refl _ _
    · refine Keeps.step (State.bump_keeps ..) rfl ?_
      refine Keeps.step (scrubCorrect_keeps ..) rfl ?_
      exact Keeps.refl _ _

theorem scrubSlot_keeps (s : State) : Keeps [.nv, .stat, .ledger, .mem, .events] s (scrubSlot s) := by
  unfold scrubSlot
  dsimp only
  refine keeps_ite (fun _ => ?_) (fun _ => ?_)
  · refine keeps_ledger rfl ?_
    refine keeps_foldl (fun _ _ _ => ?_) ?_
    · refine Keeps.step (startRepair_keeps ..) rfl ?_
      assumption
    · refine keeps_foldl (fun _ _ _ => ?_) ?_
      · refine Keeps.step (patrolWord_keeps ..) rfl ?_
        assumption
      · refine keeps_ledger rfl ?_
        refine keeps_foldl (fun _ _ _ => ?_) ?_
        · refine Keeps.step (serveQueued_keeps ..) rfl ?_
          assumption
        · refine keeps_foldl (fun _ _ _ => ?_) ?_
          · refine Keeps.step (repairLine_keeps ..) rfl ?_
            assumption
          · exact Keeps.refl _ _
  · refine keeps_ledger rfl ?_
    refine keeps_foldl (fun _ _ _ => ?_) ?_
    · refine Keeps.step (startRepair_keeps ..) rfl ?_
      assumption
    · refine keeps_foldl (fun _ _ _ => ?_) ?_
      · refine Keeps.step (patrolWord_keeps ..) rfl ?_
        assumption
      · refine keeps_ledger rfl ?_
        refine keeps_foldl (fun _ _ _ => ?_) ?_
        · refine Keeps.step (serveQueued_keeps ..) rfl ?_
          assumption
        · refine keeps_foldl (fun _ _ _ => ?_) ?_
          · refine Keeps.step (repairLine_keeps ..) rfl ?_
            assumption
          · exact Keeps.refl _ _

theorem ledgerInit_keeps (s : State) : Keeps [.stat, .ledger, .mem] s (ledgerInit s) := by
  unfold ledgerInit
  refine Keeps.step (repairStatus_keeps ..) rfl ?_
  refine keeps_ledger_mem rfl rfl ?_
  exact Keeps.refl _ _

theorem setRank_keeps (s : State) (p : Nat) (r : Rank) : Keeps [.dram] s (setRank s p r) := by
  unfold setRank
  refine keeps_dram rfl ?_
  exact Keeps.refl _ _

theorem neighbourDraw_keeps (s : State) : Keeps [.stat, .dram, .draws] s (neighbourDraw s) := by
  unfold neighbourDraw
  dsimp only
  refine keeps_dram rfl ?_
  refine Keeps.step (State.drawn_keeps ..) rfl ?_
  exact Keeps.refl _ _

theorem activate_keeps (s : State) (p a : Nat) : Keeps [.stat, .dram, .draws] s (activate s p a) := by
  unfold activate
  dsimp only
  refine keeps_ite (fun _ => ?_) (fun _ => ?_)
  · exact Keeps.refl _ _
  · refine Keeps.step (neighbourDraw_keeps ..) rfl ?_
    refine keeps_dram rfl ?_
    exact Keeps.refl _ _

theorem activateRun_keeps (s : State) (p lo hi : Nat) : Keeps [.stat, .dram, .draws] s (activateRun s p lo hi) := by
  unfold activateRun
  refine keeps_foldl (fun _ _ _ => ?_) ?_
  · refine Keeps.step (activate_keeps ..) rfl ?_
    assumption
  · exact Keeps.refl _ _

theorem sourceAgain_keeps (s : State) (m : Migration) : Keeps [.dram, .mem] s (sourceAgain s m) := by
  unfold sourceAgain
  refine keeps_dram_mem rfl rfl ?_
  exact Keeps.refl _ _

theorem abortMigration_keeps (s : State) : Keeps [.nv, .stat, .dram, .mem, .events] s (abortMigration s) := by
  unfold abortMigration
  split
  · exact Keeps.refl _ _
  · dsimp only
    refine Keeps.step (State.raise_keeps ..) rfl ?_
    refine Keeps.step (State.stset_keeps ..) rfl ?_
    refine keeps_nv_dram rfl rfl ?_
    refine Keeps.step (setRank_keeps ..) rfl ?_
    refine Keeps.step (setRank_keeps ..) rfl ?_
    refine Keeps.step (sourceAgain_keeps ..) rfl ?_
    exact Keeps.refl _ _

theorem triggerNow_keeps (s : State) (p : Nat) (hard : Bool) : Keeps [.nv, .stat, .dram, .mem, .events] s (triggerNow s
    p hard) := by
  unfold triggerNow
  split
  · refine keeps_ite (fun _ => ?_) (fun _ => ?_)
    · refine keeps_ite (fun _ => ?_) (fun _ => ?_)
      · refine Keeps.step (abortMigration_keeps ..) rfl ?_
        exact Keeps.refl _ _
      · exact Keeps.refl _ _
    · refine keeps_ite (fun _ => ?_) (fun _ => ?_)
      · exact Keeps.refl _ _
      · refine keeps_ite (fun _ => ?_) (fun _ => ?_)
        · refine Keeps.step (State.enter_keeps ..) rfl ?_
          exact Keeps.refl _ _
        · exact Keeps.refl _ _
  · refine keeps_ite (fun _ => ?_) (fun _ => ?_)
    · exact Keeps.refl _ _
    · refine keeps_ite (fun _ => ?_) (fun _ => ?_)
      · refine Keeps.step (State.enter_keeps ..) rfl ?_
        exact Keeps.refl _ _
      · split
        · refine keeps_dram rfl ?_
          exact Keeps.refl _ _
        · refine keeps_ite (fun _ => ?_) (fun _ => ?_)
          · exact Keeps.refl _ _
          · refine Keeps.step (State.enter_keeps ..) rfl ?_
            exact Keeps.refl _ _

theorem triggerRank_keeps (s : State) (p : Nat) (hard : Bool) : Keeps [.nv, .stat, .dram, .mem, .events] s (triggerRank
    s p hard) := by
  unfold triggerRank
  refine keeps_ite (fun _ => ?_) (fun _ => ?_)
  · refine Keeps.step (triggerNow_keeps ..) rfl ?_
    exact Keeps.refl _ _
  · refine keeps_dram rfl ?_
    exact Keeps.refl _ _

theorem backInService_keeps (s : State) : Keeps [.nv, .stat, .dram, .mem, .events] s (backInService s) := by
  unfold backInService
  dsimp only
  refine keeps_foldl (fun _ _ _ => ?_) ?_
  · refine Keeps.step (triggerNow_keeps ..) rfl ?_
    assumption
  · refine Keeps.step (State.stset_keeps ..) rfl ?_
    refine keeps_dram rfl ?_
    exact Keeps.refl _ _

theorem wakeDram_keeps (s : State) : Keeps [.nv, .stat, .dram, .mem, .events] s (wakeDram s) := by
  unfold wakeDram
  refine keeps_ite (fun _ => ?_) (fun _ => ?_)
  · refine Keeps.step (backInService_keeps ..) rfl ?_
    exact Keeps.refl _ _
  · refine keeps_dram rfl ?_
    exact Keeps.refl _ _

theorem bankLost_keeps (s : State) (k : Nat) : Keeps [.stat, .pipe, .twin, .dram, .events] s (bankLost s k) := by
  unfold bankLost
  dsimp only
  split
  · refine keeps_dram rfl ?_
    refine Keeps.step (State.mark_keeps ..) rfl ?_
    exact Keeps.refl _ _
  · exact Keeps.refl _ _
  · refine Keeps.step (State.raise_keeps ..) rfl ?_
    refine Keeps.step (State.stset_keeps ..) rfl ?_
    refine Keeps.step (State.setFeed_keeps ..) rfl ?_
    refine Keeps.step (State.mark_keeps ..) rfl ?_
    exact Keeps.refl _ _

theorem bankPoisoned_keeps (s : State) (a : Nat) : Keeps [.stat, .pipe, .twin, .dram, .events] s (bankPoisoned s a) :=
    by
  unfold bankPoisoned
  refine keeps_ite (fun _ => ?_) (fun _ => ?_)
  · refine Keeps.step (bankLost_keeps ..) rfl ?_
    exact Keeps.refl _ _
  · exact Keeps.refl _ _

theorem poisonBlock_keeps (s : State) (b : Nat) : Keeps [.nv, .stat, .pipe, .twin, .dram, .mem, .events] s (poisonBlock
    s b) := by
  unfold poisonBlock
  dsimp only
  refine keeps_ite (fun _ => ?_) (fun _ => ?_)
  · refine Keeps.step (bankPoisoned_keeps ..) rfl ?_
    refine Keeps.step (triggerRank_keeps ..) rfl ?_
    refine keeps_dram rfl ?_
    refine Keeps.step (State.raise_keeps ..) rfl ?_
    refine Keeps.step (State.stset_keeps ..) rfl ?_
    refine Keeps.step (State.bump_keeps ..) rfl ?_
    refine keeps_dram rfl ?_
    exact Keeps.refl _ _
  · refine Keeps.step (triggerRank_keeps ..) rfl ?_
    refine keeps_dram rfl ?_
    refine Keeps.step (State.raise_keeps ..) rfl ?_
    refine Keeps.step (State.stset_keeps ..) rfl ?_
    refine Keeps.step (State.bump_keeps ..) rfl ?_
    refine keeps_dram rfl ?_
    exact Keeps.refl _ _

theorem countCorrection_keeps (s : State) (b : Nat) : Keeps [.nv, .stat, .dram, .mem, .events] s (countCorrection s b)
    := by
  unfold countCorrection
  refine keeps_ite (fun _ => ?_) (fun _ => ?_)
  · refine Keeps.step (triggerRank_keeps ..) rfl ?_
    refine Keeps.step (State.bump_keeps ..) rfl ?_
    refine Keeps.step (setRank_keeps ..) rfl ?_
    exact Keeps.refl _ _
  · refine Keeps.step (State.bump_keeps ..) rfl ?_
    refine Keeps.step (setRank_keeps ..) rfl ?_
    exact Keeps.refl _ _

theorem dramNote_keeps (s0 : State) (b : Nat) : Keeps [.nv, .stat, .pipe, .twin, .dram, .mem, .events, .draws] s0
    (dramNote s0 b) := by
  unfold dramNote
  dsimp only
  refine keeps_ite (fun _ => ?_) (fun _ => ?_)
  · refine Keeps.step (activate_keeps ..) rfl ?_
    exact Keeps.refl _ _
  · refine keeps_ite (fun _ => ?_) (fun _ => ?_)
    · refine Keeps.step (poisonBlock_keeps ..) rfl ?_
      refine Keeps.step (activate_keeps ..) rfl ?_
      exact Keeps.refl _ _
    · refine keeps_ite (fun _ => ?_) (fun _ => ?_)
      · refine Keeps.step (countCorrection_keeps ..) rfl ?_
        refine keeps_ite (fun _ => ?_) (fun _ => ?_)
        · refine Keeps.step (activate_keeps ..) rfl ?_
          exact Keeps.refl _ _
        · refine keeps_dram rfl ?_
          refine Keeps.step (activate_keeps ..) rfl ?_
          exact Keeps.refl _ _
      · refine Keeps.step (activate_keeps ..) rfl ?_
        exact Keeps.refl _ _

theorem dramRead_keeps (s : State) (a n : Nat) : Keeps [.nv, .stat, .pipe, .twin, .dram, .mem, .events, .draws] s
    (dramRead s a n).1 := by
  unfold dramRead
  refine keeps_foldl (fun _ _ _ => ?_) ?_
  · refine Keeps.step (dramNote_keeps ..) rfl ?_
    assumption
  · exact Keeps.refl _ _

theorem clearBlock_keeps (s : State) (b : Nat) : Keeps [.dram] s (clearBlock s b) := by
  unfold clearBlock
  refine keeps_dram rfl ?_
  exact Keeps.refl _ _

theorem dramOpen_keeps (s : State) (b : Nat) (full : Bool) : Keeps [.nv, .stat, .pipe, .twin, .dram, .mem, .events] s
    (dramOpen s b full) := by
  unfold dramOpen
  refine keeps_ite (fun _ => ?_) (fun _ => ?_)
  · refine Keeps.step (clearBlock_keeps ..) rfl ?_
    exact Keeps.refl _ _
  · refine keeps_ite (fun _ => ?_) (fun _ => ?_)
    · refine keeps_mem rfl ?_
      refine Keeps.step (clearBlock_keeps ..) rfl ?_
      exact Keeps.refl _ _
    · refine keeps_ite (fun _ => ?_) (fun _ => ?_)
      · refine keeps_mem rfl ?_
        refine Keeps.step (clearBlock_keeps ..) rfl ?_
        refine Keeps.step (poisonBlock_keeps ..) rfl ?_
        exact Keeps.refl _ _
      · refine keeps_ite (fun _ => ?_) (fun _ => ?_)
        · refine Keeps.step (clearBlock_keeps ..) rfl ?_
          refine Keeps.step (countCorrection_keeps ..) rfl ?_
          exact Keeps.refl _ _
        · exact Keeps.refl _ _

theorem keepSource_keeps (s : State) (b : Nat) : Keeps [.dram] s (keepSource s b) := by
  unfold keepSource
  split
  · refine keeps_ite (fun _ => ?_) (fun _ => ?_)
    · dsimp only
      refine keeps_dram rfl ?_
      exact Keeps.refl _ _
    · exact Keeps.refl _ _
  · exact Keeps.refl _ _

theorem dramWrite_keeps (s : State) (a : Nat) (data : List Byte) (strobe : List Bool) : Keeps [.nv, .stat, .pipe, .twin,
    .dram, .mem, .events, .draws] s (dramWrite s a data strobe) := by
  unfold dramWrite
  dsimp only
  refine keeps_mem rfl ?_
  refine keeps_foldl (fun _ _ _ => ?_) ?_
  · refine Keeps.step (dramOpen_keeps ..) rfl ?_
    refine keeps_foldl (fun _ _ _ => ?_) ?_
    · refine Keeps.step (activate_keeps ..) rfl ?_
      assumption
    · refine Keeps.step (keepSource_keeps ..) rfl ?_
      assumption
  · exact Keeps.refl _ _

theorem dramZero_keeps (s : State) (lo hi : Nat) : Keeps [.dram, .mem] s (dramZero s lo hi) := by
  unfold dramZero
  refine keeps_dram_mem rfl rfl ?_
  exact Keeps.refl _ _

theorem writeBack_keeps (s : State) : Keeps [.stat, .dram, .draws] s (writeBack s) := by
  unfold writeBack
  dsimp only
  refine keeps_dram rfl ?_
  refine keeps_foldl (fun _ _ _ => ?_) ?_
  · refine keeps_ite (fun _ => ?_) (fun _ => ?_)
    · assumption
    · refine keeps_dram rfl ?_
      refine keeps_foldl (fun _ _ _ => ?_) ?_
      · refine Keeps.step (activate_keeps ..) rfl ?_
        assumption
      · assumption
  · exact Keeps.refl _ _

theorem refreshed_keeps (s : State) (n : Nat) : Keeps [.dram] s (refreshed s n) := by
  unfold refreshed
  dsimp only
  refine keeps_dram rfl ?_
  exact Keeps.refl _ _

theorem burstEnd_keeps (s : State) : Keeps [.stat, .dram, .draws] s (burstEnd s) := by
  unfold burstEnd
  refine keeps_ite (fun _ => ?_) (fun _ => ?_)
  · refine keeps_ite (fun _ => ?_) (fun _ => ?_)
    · refine keeps_dram rfl ?_
      exact Keeps.refl _ _
    · exact Keeps.refl _ _
  · refine Keeps.step (writeBack_keeps ..) rfl ?_
    refine keeps_dram rfl ?_
    exact Keeps.refl _ _

theorem idleDram_keeps (s : State) : Keeps [.stat, .dram, .draws] s (idleDram s) := by
  unfold idleDram
  exact keeps_ite (fun _ => Keeps.step (burstEnd_keeps ..) rfl (Keeps.refl _ _)) (fun _ => Keeps.refl _ _)

theorem dramBurst_keeps (s : State) (a : Nat) (data : List Byte) (strobe : List Bool) : Keeps [.nv, .stat, .pipe, .twin,
    .dram, .mem, .events, .draws] s (dramBurst s a data strobe) := by
  unfold dramBurst
  refine Keeps.step (burstEnd_keeps ..) rfl ?_
  refine Keeps.step (dramWrite_keeps ..) rfl ?_
  refine Keeps.step (wakeDram_keeps ..) rfl ?_
  exact Keeps.refl _ _

theorem dramWipe_keeps (s : State) (lo hi : Nat) : Keeps [.nv, .stat, .pipe, .twin, .dram, .mem, .events, .draws] s
    (dramWipe s lo hi) := by
  unfold dramWipe
  dsimp only
  refine keeps_foldl (fun _ _ _ => ?_) ?_
  · refine Keeps.step (dramBurst_keeps ..) rfl ?_
    assumption
  · exact Keeps.refl _ _

theorem copyBlock_keeps (s : State) (b : Nat) : Keeps [.nv, .stat, .pipe, .twin, .dram, .mem, .events] s (copyBlock s b)
    := by
  unfold copyBlock
  refine keeps_ite (fun _ => ?_) (fun _ => ?_)
  · exact Keeps.refl _ _
  · refine keeps_ite (fun _ => ?_) (fun _ => ?_)
    · refine Keeps.step (poisonBlock_keeps ..) rfl ?_
      exact Keeps.refl _ _
    · refine Keeps.step (countCorrection_keeps ..) rfl ?_
      exact Keeps.refl _ _

theorem copyReads_keeps (s : State) (m : Migration) (lo hi : Nat) : Keeps [.nv, .stat, .pipe, .twin, .dram, .mem,
    .events, .draws] s (copyReads s m lo hi) := by
  unfold copyReads
  dsimp only
  refine keeps_foldl (fun _ _ _ => ?_) ?_
  · refine Keeps.step (copyBlock_keeps ..) rfl ?_
    assumption
  · refine Keeps.step (activateRun_keeps ..) rfl ?_
    refine Keeps.step (activateRun_keeps ..) rfl ?_
    exact Keeps.refl _ _

theorem copiedTo_keeps (s : State) (upTo lo hi : Nat) : Keeps [.stat, .dram] s (copiedTo s upTo lo hi) := by
  unfold copiedTo
  split
  · exact Keeps.refl _ _
  · dsimp only
    refine Keeps.step (State.stset_keeps ..) rfl ?_
    refine keeps_dram rfl ?_
    exact Keeps.refl _ _

theorem migrationCopy_keeps (s : State) (ceiling : Nat) : Keeps [.nv, .stat, .pipe, .twin, .dram, .mem, .events, .draws]
    s (migrationCopy s ceiling) := by
  unfold migrationCopy
  split
  · exact Keeps.refl _ _
  · dsimp only
    refine Keeps.step (copiedTo_keeps ..) rfl ?_
    refine Keeps.step (copyReads_keeps ..) rfl ?_
    exact Keeps.refl _ _

theorem migrationStart_keeps (s : State) : Keeps [.stat, .dram, .events] s (migrationStart s) := by
  unfold migrationStart
  split
  · dsimp only
    split
    · refine keeps_ite (fun _ => ?_) (fun _ => ?_)
      · refine Keeps.step (State.stset_keeps ..) rfl ?_
        refine Keeps.step (State.stset_keeps ..) rfl ?_
        refine Keeps.step (State.stset_keeps ..) rfl ?_
        refine Keeps.step (State.stset_keeps ..) rfl ?_
        refine Keeps.step (State.stset_keeps ..) rfl ?_
        refine keeps_dram rfl ?_
        refine Keeps.step (setRank_keeps ..) rfl ?_
        refine Keeps.step (setRank_keeps ..) rfl ?_
        refine keeps_dram rfl ?_
        exact Keeps.refl _ _
      · refine keeps_dram rfl ?_
        exact Keeps.refl _ _
    · refine Keeps.step (State.enter_keeps ..) rfl ?_
      refine keeps_dram rfl ?_
      exact Keeps.refl _ _
  · exact Keeps.refl _ _

theorem migrationSwitch_keeps (s : State) : Keeps [.nv, .stat, .dram, .events] s (migrationSwitch s) := by
  unfold migrationSwitch
  split
  · exact Keeps.refl _ _
  · refine keeps_ite (fun _ => ?_) (fun _ => ?_)
    · exact Keeps.refl _ _
    · refine Keeps.step (State.raise_keeps ..) rfl ?_
      refine Keeps.step (State.stset_keeps ..) rfl ?_
      refine Keeps.step (State.stset_keeps ..) rfl ?_
      refine keeps_nv_dram rfl rfl ?_
      refine Keeps.step (setRank_keeps ..) rfl ?_
      refine Keeps.step (setRank_keeps ..) rfl ?_
      exact Keeps.refl _ _

theorem patrolScrub_keeps (s0 : State) (blocks : Nat) : Keeps [.nv, .stat, .pipe, .twin, .dram, .mem, .events, .draws]
    s0 (patrolScrub s0 blocks) := by
  unfold patrolScrub
  dsimp only
  refine keeps_dram rfl ?_
  refine keeps_foldl (fun _ _ _ => ?_) ?_
  · refine keeps_ite (fun _ => ?_) (fun _ => ?_)
    · assumption
    · refine keeps_ite (fun _ => ?_) (fun _ => ?_)
      · refine Keeps.step (poisonBlock_keeps ..) rfl ?_
        assumption
      · refine keeps_dram rfl ?_
        refine Keeps.step (countCorrection_keeps ..) rfl ?_
        assumption
  · refine keeps_foldl (fun _ _ _ => ?_) ?_
    · refine Keeps.step (activate_keeps ..) rfl ?_
      assumption
    · exact Keeps.refl _ _

theorem spareTestStart_keeps (s : State) : Keeps [.dram] s (spareTestStart s) := by
  unfold spareTestStart
  refine keeps_ite (fun _ => ?_) (fun _ => ?_)
  · split
    · dsimp only
      refine Keeps.step (setRank_keeps ..) rfl ?_
      refine keeps_dram rfl ?_
      exact Keeps.refl _ _
    · exact Keeps.refl _ _
  · exact Keeps.refl _ _

theorem spareTested_keeps (s : State) (pass : Bool) : Keeps [.nv, .dram, .events] s (spareTested s pass) := by
  unfold spareTested
  split
  · exact Keeps.refl _ _
  · refine keeps_ite (fun _ => ?_) (fun _ => ?_)
    · refine Keeps.step (setRank_keeps ..) rfl ?_
      exact Keeps.refl _ _
    · dsimp only
      refine Keeps.step (State.raise_keeps ..) rfl ?_
      refine keeps_nv rfl ?_
      refine Keeps.step (setRank_keeps ..) rfl ?_
      exact Keeps.refl _ _

theorem oscillator_keeps (s : State) (m : Nat × Nat) : Keeps [.nv, .stat, .dram, .events] s (oscillator s m) := by
  unfold oscillator
  refine keeps_ite (fun _ => ?_) (fun _ => ?_)
  · exact Keeps.refl _ _
  · refine keeps_ite (fun _ => ?_) (fun _ => ?_)
    · refine Keeps.step (State.raise_keeps ..) rfl ?_
      refine Keeps.step (State.stset_keeps ..) rfl ?_
      refine keeps_nv_dram rfl rfl ?_
      refine keeps_ite (fun _ => ?_) (fun _ => ?_)
      · refine Keeps.step (setRank_keeps ..) rfl ?_
        exact Keeps.refl _ _
      · exact Keeps.refl _ _
    · refine keeps_ite (fun _ => ?_) (fun _ => ?_)
      · refine Keeps.step (setRank_keeps ..) rfl ?_
        exact Keeps.refl _ _
      · exact Keeps.refl _ _

theorem modeRegisters_keeps (s : State) (ranks : List (Nat × Nat × Bool)) : Keeps [.nv, .stat, .dram, .mem, .events] s
    (modeRegisters s ranks) := by
  unfold modeRegisters
  refine keeps_foldl (fun _ _ _ => ?_) ?_
  · refine keeps_ite (fun _ => ?_) (fun _ => ?_)
    · assumption
    · refine Keeps.step (triggerRank_keeps ..) rfl ?_
      assumption
  · refine Keeps.step (State.stset_keeps ..) rfl ?_
    exact Keeps.refl _ _

theorem execLedgerScrub_keeps (upsets : List Upset) (s : State) (t : State) (h : execLedgerScrub upsets s = .next t) :
    Keeps [.nv, .stat, .rods, .ledger, .dram, .mem, .events] s t := by
  unfold execLedgerScrub at h
  refine keeps_done h ?_
  refine keeps_ite (fun _ => ?_) (fun _ => ?_)
  · refine Keeps.step (scrubSlot_keeps ..) rfl ?_
    refine Keeps.step (applyUpsets_keeps ..) rfl ?_
    exact Keeps.refl _ _
  · exact Keeps.refl _ _

theorem execRefreshDue_keeps (deepWaiting : Bool) (s : State) (t : State) (h : execRefreshDue deepWaiting s = .next t) :
    Keeps [.stat, .dram] s t := by
  unfold execRefreshDue at h
  refine keeps_done h ?_
  refine keeps_ite (fun _ => ?_) (fun _ => ?_)
  · exact Keeps.refl _ _
  · refine keeps_ite (fun _ => ?_) (fun _ => ?_)
    · refine keeps_ite (fun _ => ?_) (fun _ => ?_)
      · refine Keeps.step (State.stset_keeps ..) rfl ?_
        refine keeps_dram rfl ?_
        exact Keeps.refl _ _
      · exact Keeps.refl _ _
    · refine keeps_dram rfl ?_
      exact Keeps.refl _ _

theorem execModeRegisterRead_keeps (ranks : List (Nat × Nat × Bool)) (s : State) (t : State) (h : execModeRegisterRead
    ranks s = .next t) : Keeps [.nv, .stat, .dram, .mem, .events] s t := by
  unfold execModeRegisterRead at h
  refine keeps_done h ?_
  refine keeps_ite (fun _ => ?_) (fun _ => ?_)
  · refine Keeps.step (modeRegisters_keeps ..) rfl ?_
    exact Keeps.refl _ _
  · exact Keeps.refl _ _

theorem execOscillatorMeasure_keeps (drifts : List (Nat × Nat)) (s : State) (t : State) (h : execOscillatorMeasure
    drifts s = .next t) : Keeps [.nv, .stat, .dram, .events] s t := by
  unfold execOscillatorMeasure at h
  refine keeps_done h ?_
  refine keeps_ite (fun _ => ?_) (fun _ => ?_)
  · refine Keeps.step (State.stset_keeps ..) rfl ?_
    refine keeps_foldl (fun _ _ _ => ?_) ?_
    · refine Keeps.step (oscillator_keeps ..) rfl ?_
      assumption
    · exact Keeps.refl _ _
  · exact Keeps.refl _ _

theorem execPatrolScrub_keeps (blocks : Nat) (upsets : List Upset) (s : State) (t : State) (h : execPatrolScrub blocks
    upsets s = .next t) : Keeps [.nv, .stat, .pipe, .twin, .rods, .ledger, .dram, .mem, .events, .draws] s t := by
  unfold execPatrolScrub at h
  refine keeps_done h ?_
  refine keeps_ite (fun _ => ?_) (fun _ => ?_)
  · refine Keeps.step (patrolScrub_keeps ..) rfl ?_
    refine Keeps.step (applyUpsets_keeps ..) rfl ?_
    exact Keeps.refl _ _
  · exact Keeps.refl _ _

theorem execSpareRankTest_keeps (pass : Bool) (s : State) (t : State) (h : execSpareRankTest pass s = .next t) : Keeps
    [.nv, .dram, .events] s t := by
  unfold execSpareRankTest at h
  refine keeps_done h ?_
  refine keeps_ite (fun _ => ?_) (fun _ => ?_)
  · refine Keeps.step (spareTested_keeps ..) rfl ?_
    exact Keeps.refl _ _
  · exact Keeps.refl _ _

theorem execSelfRefreshEntry_keeps (requested : Bool) (s : State) (t : State) (h : execSelfRefreshEntry requested s =
    .next t) : Keeps [.clk, .time, .stat, .dram, .events] s t := by
  unfold execSelfRefreshEntry at h
  refine keeps_done h ?_
  refine keeps_ite (fun _ => ?_) (fun _ => ?_)
  · dsimp only
    refine keeps_ite (fun _ => ?_) (fun _ => ?_)
    · refine keeps_dram rfl ?_
      refine Keeps.step (refreshed_keeps ..) rfl ?_
      refine Keeps.step (State.elapse_keeps ..) rfl ?_
      exact Keeps.refl _ _
    · refine Keeps.step (State.stset_keeps ..) rfl ?_
      refine keeps_dram rfl ?_
      refine Keeps.step (refreshed_keeps ..) rfl ?_
      refine Keeps.step (State.elapse_keeps ..) rfl ?_
      exact Keeps.refl _ _
  · exact Keeps.refl _ _

theorem execSelfRefreshExit_keeps (addr : Nat) (s : State) (t : State) (h : execSelfRefreshExit addr s = .next t) :
    Keeps [.nv, .stat, .dram, .mem, .events] s t := by
  unfold execSelfRefreshExit at h
  refine keeps_done h ?_
  refine keeps_ite (fun _ => ?_) (fun _ => ?_)
  · refine Keeps.step (backInService_keeps ..) rfl ?_
    exact Keeps.refl _ _
  · exact Keeps.refl _ _

theorem execMigrationStart_keeps (s : State) (t : State) (h : execMigrationStart s = .next t) : Keeps [.stat, .dram,
    .events] s t := by
  unfold execMigrationStart at h
  refine keeps_done h ?_
  refine Keeps.step (migrationStart_keeps ..) rfl ?_
  exact Keeps.refl _ _

theorem execMigrationSwitch_keeps (s : State) (t : State) (h : execMigrationSwitch s = .next t) : Keeps [.nv, .stat,
    .dram, .events] s t := by
  unfold execMigrationSwitch at h
  refine keeps_done h ?_
  refine Keeps.step (migrationSwitch_keeps ..) rfl ?_
  exact Keeps.refl _ _

theorem execMigrateRank_keeps (rank value : Nat) (s : State) (t : State) (h : execMigrateRank rank value s = .next t) :
    Keeps [.nv, .stat, .dram, .mem, .events] s t := by
  unfold execMigrateRank at h
  refine keeps_done h ?_
  refine State.attempt_keeps _ _ _ _ rfl ?_
  refine keeps_ite (fun _ => ?_) (fun _ => ?_)
  · refine Keeps.step (triggerRank_keeps ..) rfl ?_
    exact Keeps.refl _ _
  · exact Keeps.refl _ _

theorem execClearLedgerCounters_keeps (value : Nat) (s : State) (t : State) (h : execClearLedgerCounters value s = .next
    t) : Keeps [.stat, .todo] s t := by
  unfold execClearLedgerCounters at h
  refine keeps_done h ?_
  refine State.attempt_keeps _ _ _ _ rfl ?_
  refine keeps_ite (fun _ => ?_) (fun _ => ?_)
  · refine keeps_todo rfl ?_
    exact Keeps.refl _ _
  · exact Keeps.refl _ _

theorem execClearDramStatistics_keeps (value : Nat) (s : State) (t : State) (h : execClearDramStatistics value s = .next
    t) : Keeps [.stat, .todo] s t := by
  unfold execClearDramStatistics at h
  refine keeps_done h ?_
  refine State.attempt_keeps _ _ _ _ rfl ?_
  refine keeps_ite (fun _ => ?_) (fun _ => ?_)
  · refine keeps_todo rfl ?_
    exact Keeps.refl _ _
  · exact Keeps.refl _ _

end Sys2Proof.Machine
end

