-- ==== Sys2Proof/Laws/KeepsBus.lean ====
section
/-! SUPPORT. The parts of the state that each function of Machine/Bus.lean may change. -/
set_option linter.unreachableTactic false
set_option linter.unusedTactic false

namespace Sys2Proof.Machine

theorem beamError_keeps (s : State) (m addr cause : Nat) : Keeps [.stat, .beam, .events] s (beamError s m addr cause) :=
    by
  unfold beamError
  refine Keeps.step (State.raise_keeps ..) rfl ?_
  refine Keeps.step (State.stset_keeps ..) rfl ?_
  refine Keeps.step (State.bump_keeps ..) rfl ?_
  refine keeps_beam rfl ?_
  exact Keeps.refl _ _

theorem enqueue_keeps (s : State) (q : BeamReq) : Keeps [.beam] s (enqueue s q) := by
  unfold enqueue
  refine keeps_beam rfl ?_
  exact Keeps.refl _ _

theorem grantNoted_keeps (s : State) (t m : Nat) (deep aged : Bool) : Keeps [.beam] s (grantNoted s t m deep aged) := by
  unfold grantNoted
  dsimp only
  refine keeps_beam rfl ?_
  exact Keeps.refl _ _

theorem judgeCompute_keeps (s : State) : Keeps [.events] s (judgeCompute s) := by
  unfold judgeCompute
  refine Keeps.step (State.condition_keeps ..) rfl ?_
  exact Keeps.refl _ _

theorem setFrame_keeps (s : State) (f : Nat) (v : FrameState) : Keeps [.frames] s (setFrame s f v) := by
  unfold setFrame
  refine keeps_frames rfl ?_
  exact Keeps.refl _ _

end Sys2Proof.Machine
end

