-- ==== Sys2Proof/Laws/KeepsTally.lean ====
section
/-! SUPPORT. The parts of the state that each function of Machine/Tally.lean may change. -/
set_option linter.unreachableTactic false
set_option linter.unusedTactic false

namespace Sys2Proof.Machine

theorem qcfgSet_keeps (s : State) (q v : Nat) : Keeps [.stat, .tally] s (qcfgSet s q v) := by
  unfold qcfgSet
  refine keeps_ite (fun _ => ?_) (fun _ => ?_)
  · refine Keeps.step (State.bump_keeps ..) rfl ?_
    exact Keeps.refl _ _
  · refine Keeps.step (State.setQueue_keeps ..) rfl ?_
    exact Keeps.refl _ _

theorem give_keeps (s : State) (r an : Nat) (e : Nat × Item) : Keeps [.rods, .tally, .mem] s (give s r an e) := by
  unfold give
  refine keeps_tally_mem rfl rfl ?_
  refine Keeps.step (State.setRod_keeps ..) rfl ?_
  refine Keeps.step (State.setQueue_keeps ..) rfl ?_
  exact Keeps.refl _ _

theorem giveIfAny_keeps (s : State) (r : Nat) : Keeps [.rods, .tally, .mem] s (giveIfAny s r) := by
  unfold giveIfAny
  split
  · refine Keeps.step (give_keeps ..) rfl ?_
    exact Keeps.refl _ _
  · exact Keeps.refl _ _

theorem tallyGive_keeps (s : State) : Keeps [.rods, .tally, .mem] s (tallyGive s) := by
  unfold tallyGive
  split
  · refine keeps_tally rfl ?_
    refine Keeps.step (giveIfAny_keeps ..) rfl ?_
    exact Keeps.refl _ _
  · exact Keeps.refl _ _

theorem accept_keeps (s : State) (qn : Nat) (desc : List Byte) : Keeps [.stat, .tally] s (accept s qn desc) := by
  unfold accept
  refine Keeps.step (State.stset_keeps ..) rfl ?_
  refine keeps_tally rfl ?_
  refine Keeps.step (State.setQueue_keeps ..) rfl ?_
  exact Keeps.refl _ _

theorem tallyPut_keeps (s : State) (qn who : Nat) (desc : List Byte) : Keeps [.stat, .tally, .events] s (tallyPut s qn
    who desc).1 := by
  unfold tallyPut
  dsimp only
  split
  · refine Keeps.step (State.raise_keeps ..) rfl ?_
    refine Keeps.step (State.bump_keeps ..) rfl ?_
    exact Keeps.refl _ _
  · split
    · refine keeps_ite (fun _ => ?_) (fun _ => ?_)
      · refine Keeps.step (State.raise_keeps ..) rfl ?_
        refine Keeps.step (State.bump_keeps ..) rfl ?_
        exact Keeps.refl _ _
      · refine Keeps.step (State.bump_keeps ..) rfl ?_
        exact Keeps.refl _ _
    · split
      · refine Keeps.step (accept_keeps ..) rfl ?_
        exact Keeps.refl _ _
      · refine Keeps.step (State.setQueue_keeps ..) rfl ?_
        exact Keeps.refl _ _

theorem putAccepted_keeps (s : State) (qn : Nat) : Keeps [.stat, .rods, .tally] s (putAccepted s qn) := by
  unfold putAccepted
  dsimp only
  split
  · exact Keeps.refl _ _
  · refine keeps_ite (fun _ => ?_) (fun _ => ?_)
    · refine keeps_ite (fun _ => ?_) (fun _ => ?_)
      · refine Keeps.step (State.setRod_keeps ..) rfl ?_
        refine Keeps.step (accept_keeps ..) rfl ?_
        refine Keeps.step (State.setQueue_keeps ..) rfl ?_
        exact Keeps.refl _ _
      · refine Keeps.step (accept_keeps ..) rfl ?_
        refine Keeps.step (State.setQueue_keeps ..) rfl ?_
        exact Keeps.refl _ _
    · exact Keeps.refl _ _

theorem dropHeld_keeps (s : State) (who : Nat) : Keeps [.tally] s (dropHeld s who) := by
  unfold dropHeld
  dsimp only
  refine keeps_tally rfl ?_
  exact Keeps.refl _ _

theorem backpressureLong_keeps (s : State) (qn who : Nat) : Keeps [.stat, .tally, .events] s (backpressureLong s qn who)
    := by
  unfold backpressureLong
  refine keeps_ite (fun _ => ?_) (fun _ => ?_)
  · refine Keeps.step (State.raise_keeps ..) rfl ?_
    refine Keeps.step (State.bump_keeps ..) rfl ?_
    refine Keeps.step (State.setQueue_keeps ..) rfl ?_
    exact Keeps.refl _ _
  · exact Keeps.refl _ _

theorem releaseItems_keeps (s : State) : Keeps [.tally] s (releaseItems s) := by
  unfold releaseItems
  refine keeps_tally rfl ?_
  exact Keeps.refl _ _

theorem purge_keeps (s : State) (stage block : Nat) : Keeps [.stat, .tally] s (purge s stage block) := by
  unfold purge
  refine keeps_ite (fun _ => ?_) (fun _ => ?_)
  · exact Keeps.refl _ _
  · refine Keeps.step (State.bump_keeps ..) rfl ?_
    refine keeps_tally rfl ?_
    exact Keeps.refl _ _

theorem engineWrite_keeps {f : List Part} (s : State) (q : BeamReq) (effect : State → State)
    (hf : Part.within [.stat, .beam, .events] f = true) (hb : Part.within [.beam] f = true) (h : Keeps f s (effect (grantNoted s 14 q.master false false))) :
    Keeps f s (engineWrite s q effect) := by
  unfold engineWrite
  refine keeps_ite (fun _ => ?_) (fun _ => keeps_ite (fun _ => ?_) (fun _ => h))
  · exact Keeps.mono (beamError_keeps ..) hf
  · exact Keeps.mono (enqueue_keeps ..) hb

theorem stagePurge_keeps (s : State) (stage block : Nat) : Keeps [.stat, .tally, .beam, .events] s (stagePurge s stage
    block) := by
  unfold stagePurge
  refine engineWrite_keeps _ _ _ rfl rfl ?_
  refine Keeps.step (purge_keeps ..) rfl ?_
  refine Keeps.step (grantNoted_keeps ..) rfl ?_
  exact Keeps.refl _ _

theorem deadlinePurge_keeps (s : State) (stage lag : Nat) : Keeps [.stat, .tally, .beam, .events] s (deadlinePurge s
    stage lag) := by
  unfold deadlinePurge
  refine keeps_ite (fun _ => ?_) (fun _ => ?_)
  · refine Keeps.step (stagePurge_keeps ..) rfl ?_
    exact Keeps.refl _ _
  · exact Keeps.refl _ _

theorem flowWrite_keeps (s : State) (n v : Nat) : Keeps [.tally] s (flowWrite s n v) := by
  unfold flowWrite
  refine keeps_tally rfl ?_
  exact Keeps.refl _ _

theorem exclWrite_keeps (s : State) (v : Nat) : Keeps [.stat, .tally] s (exclWrite s v) := by
  unfold exclWrite
  refine Keeps.step (State.stset_keeps ..) rfl ?_
  refine keeps_tally rfl ?_
  exact Keeps.refl _ _

theorem exclude_keeps (s : State) (mask : Nat) : Keeps [.stat, .tally] s (exclude s mask) := by
  unfold exclude
  refine Keeps.step (exclWrite_keeps ..) rfl ?_
  exact Keeps.refl _ _

theorem unexclude_keeps (s : State) (mask : Nat) : Keeps [.stat, .tally] s (unexclude s mask) := by
  unfold unexclude
  refine Keeps.step (exclWrite_keeps ..) rfl ?_
  exact Keeps.refl _ _

theorem putWindow_keeps (s : State) (m qn offset : Nat) (data : List Byte) : Keeps [.stat, .tally, .beam, .events] s
    (putWindow s m qn offset data).1 := by
  unfold putWindow
  dsimp only
  split
  · dsimp only
    refine Keeps.step (beamError_keeps ..) rfl ?_
    exact Keeps.refl _ _
  · split
    · dsimp only
      refine Keeps.step (beamError_keeps ..) rfl ?_
      exact Keeps.refl _ _
    · split
      · dsimp only
        refine Keeps.step (beamError_keeps ..) rfl ?_
        refine Keeps.step (tallyPut_keeps ..) rfl ?_
        exact Keeps.refl _ _
      · dsimp only
        refine Keeps.step (tallyPut_keeps ..) rfl ?_
        exact Keeps.refl _ _

theorem drivePut_keeps (s : State) (n : Nat) : Keeps [.stat, .tally, .beam, .events] s (drivePut s n) := by
  unfold drivePut
  split
  · dsimp only
    refine engineWrite_keeps _ _ _ rfl rfl ?_
    refine Keeps.step (putWindow_keeps ..) rfl ?_
    refine Keeps.step (grantNoted_keeps ..) rfl ?_
    exact Keeps.refl _ _
  · exact Keeps.refl _ _

theorem dropItem_keeps (s : State) (it : Item) : Keeps [.tally] s (dropItem s it) := by
  unfold dropItem
  dsimp only
  refine Keeps.step (State.setQueue_keeps ..) rfl ?_
  exact Keeps.refl _ _

theorem execTallyGive_keeps (s : State) (t : State) (h : execTallyGive s = .next t) : Keeps [.rods, .tally, .mem] s t :=
    by
  unfold execTallyGive at h
  refine keeps_done h ?_
  refine Keeps.step (tallyGive_keeps ..) rfl ?_
  exact Keeps.refl _ _

theorem execPutAccepted_keeps (queue : Nat) (s : State) (t : State) (h : execPutAccepted queue s = .next t) : Keeps
    [.stat, .rods, .tally] s t := by
  unfold execPutAccepted at h
  refine keeps_done h ?_
  refine Keeps.step (putAccepted_keeps ..) rfl ?_
  exact Keeps.refl _ _

theorem execBackpressureLong_keeps (queue : Nat) (producer : Nat) (s : State) (t : State) (h : execBackpressureLong
    queue producer s = .next t) : Keeps [.stat, .tally, .events] s t := by
  unfold execBackpressureLong at h
  refine keeps_done h ?_
  refine Keeps.step (backpressureLong_keeps ..) rfl ?_
  exact Keeps.refl _ _

theorem execFlowWrite_keeps (flow value : Nat) (s : State) (t : State) (h : execFlowWrite flow value s = .next t) :
    Keeps [.tally] s t := by
  unfold execFlowWrite at h
  refine keeps_done h ?_
  refine keeps_ite (fun _ => ?_) (fun _ => ?_)
  · refine Keeps.step (flowWrite_keeps ..) rfl ?_
    exact Keeps.refl _ _
  · exact Keeps.refl _ _

theorem execTallyExclWrite_keeps (value : Nat) (s : State) (t : State) (h : execTallyExclWrite value s = .next t) :
    Keeps [.stat, .tally] s t := by
  unfold execTallyExclWrite at h
  refine keeps_done h ?_
  refine Keeps.step (exclWrite_keeps ..) rfl ?_
  exact Keeps.refl _ _

theorem execClearTallyStatistics_keeps (value : Nat) (s : State) (t : State) (h : execClearTallyStatistics value s =
    .next t) : Keeps [.stat, .todo] s t := by
  unfold execClearTallyStatistics at h
  refine keeps_done h ?_
  refine State.attempt_keeps _ _ _ _ rfl ?_
  refine keeps_ite (fun _ => ?_) (fun _ => ?_)
  · refine keeps_todo rfl ?_
    exact Keeps.refl _ _
  · exact Keeps.refl _ _

end Sys2Proof.Machine
end

