-- ==== Sys2Proof/Laws/KeepsPlacement.lean ====
section
/-! SUPPORT. The parts of the state that each function of Machine/Placement.lean may change. -/
set_option linter.unreachableTactic false
set_option linter.unusedTactic false

namespace Sys2Proof.Machine

theorem setObj_keeps (s : State) (o : Nat) (v : Obj) : Keeps [.pipe] s (setObj s o v) := by
  unfold setObj
  refine keeps_pipe rfl ?_
  exact Keeps.refl _ _

theorem arrive_keeps (s : State) (block : Nat) (dict : Bool) (slot seq : Nat) (k : Keyframe) : Keeps [.pipe] s (arrive s
    block dict slot seq k) := by
  unfold arrive
  refine keeps_pipe rfl ?_
  exact Keeps.refl _ _

theorem takeRecords_keeps (block slot seq : Nat) (counts : Bool) (l : List (List Byte)) (s : State) :
    Keeps [.stat, .pipe, .events] s (takeRecords s block slot seq counts l) := by
  induction l generalizing s with
  | nil => exact Keeps.refl _ _
  | cons b r ih =>
    unfold takeRecords
    split
    · exact Keeps.step (ih _) rfl (Keeps.step (arrive_keeps ..) rfl (Keeps.refl _ _))
    · exact Keeps.step (ih _) rfl (keeps_ite (fun _ =>
        Keeps.step (State.raise_keeps ..) rfl (Keeps.step (State.bump_keeps ..) rfl (Keeps.refl _ _))) (fun _ => Keeps.refl _ _))

theorem queueKey_keeps (s : State) (k : Keyframe) : Keeps [.stat, .pipe, .events] s (queueKey s k) := by
  unfold queueKey
  refine keeps_ite (fun _ => ?_) (fun _ => ?_)
  · refine Keeps.step (State.bump_keeps ..) rfl ?_
    refine Keeps.step (State.bump_keeps ..) rfl ?_
    exact Keeps.refl _ _
  · refine keeps_ite (fun _ => ?_) (fun _ => ?_)
    · refine Keeps.step (setObj_keeps ..) rfl ?_
      exact Keeps.refl _ _
    · refine keeps_ite (fun _ => ?_) (fun _ => ?_)
      · refine Keeps.step (State.raise_keeps ..) rfl ?_
        refine Keeps.step (State.bump_keeps ..) rfl ?_
        exact Keeps.refl _ _
      · refine Keeps.step (setObj_keeps ..) rfl ?_
        exact Keeps.refl _ _

theorem drainArrivals_keeps (s : State) (t : Nat) : Keeps [.stat, .pipe, .events] s (drainArrivals s t) := by
  unfold drainArrivals
  refine keeps_foldl (fun _ _ _ => ?_) ?_
  · refine keeps_ite (fun _ => ?_) (fun _ => ?_)
    · refine Keeps.step (queueKey_keeps ..) rfl ?_
      assumption
    · assumption
  · refine keeps_pipe rfl ?_
    exact Keeps.refl _ _

theorem placeObj_keeps (t : Int) (prevT : Option Int) (pEff : Int) (n : Nat) (feeds : List Nat) (acc : State × Gather)
    (no : Nat) : Keeps [.stat, .pipe, .events] acc.1 (placeObj t prevT pEff n feeds acc no).1 := by
  unfold placeObj
  split
  dsimp only
  split
  · refine Keeps.step (setObj_keeps ..) rfl ?_
    refine keeps_ite (fun _ => ?_) (fun _ => ?_)
    · exact Keeps.refl _ _
    · refine keeps_foldl (fun _ _ _ => ?_) ?_
      · refine Keeps.step (State.raise_keeps ..) rfl ?_
        assumption
      · refine Keeps.step (State.bump_keeps ..) rfl ?_
        refine Keeps.step (State.bump_keeps ..) rfl ?_
        exact Keeps.refl _ _
  · refine Keeps.step (setObj_keeps ..) rfl ?_
    refine keeps_ite (fun _ => ?_) (fun _ => ?_)
    · exact Keeps.refl _ _
    · refine keeps_foldl (fun _ _ _ => ?_) ?_
      · refine Keeps.step (State.raise_keeps ..) rfl ?_
        assumption
      · refine Keeps.step (State.bump_keeps ..) rfl ?_
        refine Keeps.step (State.bump_keeps ..) rfl ?_
        exact Keeps.refl _ _
  · refine Keeps.step (setObj_keeps ..) rfl ?_
    refine keeps_ite (fun _ => ?_) (fun _ => ?_)
    · exact Keeps.refl _ _
    · refine keeps_foldl (fun _ _ _ => ?_) ?_
      · refine Keeps.step (State.raise_keeps ..) rfl ?_
        assumption
      · refine Keeps.step (State.bump_keeps ..) rfl ?_
        refine Keeps.step (State.bump_keeps ..) rfl ?_
        exact Keeps.refl _ _

theorem countCrosspoints_keeps (s : State) (xs : List Crosspoint) (missed : List Nat) : Keeps [.stat] s
    (countCrosspoints s xs missed) := by
  unfold countCrosspoints
  dsimp only
  refine Keeps.step (State.stset_keeps ..) rfl ?_
  refine Keeps.step (State.stset_keeps ..) rfl ?_
  refine keeps_foldl (fun _ _ _ => ?_) ?_
  · refine Keeps.step (State.bump_keeps ..) rfl ?_
    assumption
  · refine keeps_stat rfl ?_
    exact Keeps.refl _ _

theorem placeBlock_keeps (s : State) : Keeps [.stat, .pipe, .events] s (placeBlock s) := by
  unfold placeBlock
  dsimp only
  refine keeps_pipe rfl ?_
  refine keeps_ite (fun _ => ?_) (fun _ => ?_)
  · refine keeps_ite (fun _ => ?_) (fun _ => ?_)
    · refine keeps_ite (fun _ => ?_) (fun _ => ?_)
      · refine keeps_foldl_fst (fun _ _ _ => ?_) ?_
        · refine Keeps.step (placeObj_keeps ..) rfl ?_
          assumption
        · dsimp only
          refine Keeps.step (State.stset_keeps ..) rfl ?_
          refine Keeps.step (State.stset_keeps ..) rfl ?_
          exact Keeps.refl _ _
      · refine Keeps.step (State.raise_keeps ..) rfl ?_
        refine Keeps.step (State.bump_keeps ..) rfl ?_
        refine Keeps.step (State.bump_keeps ..) rfl ?_
        refine Keeps.step (State.bump_keeps ..) rfl ?_
        refine keeps_foldl_fst (fun _ _ _ => ?_) ?_
        · refine Keeps.step (placeObj_keeps ..) rfl ?_
          assumption
        · dsimp only
          refine Keeps.step (State.stset_keeps ..) rfl ?_
          refine Keeps.step (State.stset_keeps ..) rfl ?_
          exact Keeps.refl _ _
    · refine Keeps.step (State.raise_keeps ..) rfl ?_
      refine Keeps.step (State.bump_keeps ..) rfl ?_
      refine keeps_ite (fun _ => ?_) (fun _ => ?_)
      · refine keeps_foldl_fst (fun _ _ _ => ?_) ?_
        · refine Keeps.step (placeObj_keeps ..) rfl ?_
          assumption
        · dsimp only
          refine Keeps.step (State.stset_keeps ..) rfl ?_
          refine Keeps.step (State.stset_keeps ..) rfl ?_
          exact Keeps.refl _ _
      · refine Keeps.step (State.raise_keeps ..) rfl ?_
        refine Keeps.step (State.bump_keeps ..) rfl ?_
        refine Keeps.step (State.bump_keeps ..) rfl ?_
        refine Keeps.step (State.bump_keeps ..) rfl ?_
        refine keeps_foldl_fst (fun _ _ _ => ?_) ?_
        · refine Keeps.step (placeObj_keeps ..) rfl ?_
          assumption
        · dsimp only
          refine Keeps.step (State.stset_keeps ..) rfl ?_
          refine Keeps.step (State.stset_keeps ..) rfl ?_
          exact Keeps.refl _ _
  · refine Keeps.step (State.raise_keeps ..) rfl ?_
    refine Keeps.step (State.bump_keeps ..) rfl ?_
    refine keeps_ite (fun _ => ?_) (fun _ => ?_)
    · refine keeps_ite (fun _ => ?_) (fun _ => ?_)
      · refine keeps_foldl_fst (fun _ _ _ => ?_) ?_
        · refine Keeps.step (placeObj_keeps ..) rfl ?_
          assumption
        · dsimp only
          refine Keeps.step (State.stset_keeps ..) rfl ?_
          refine Keeps.step (State.stset_keeps ..) rfl ?_
          exact Keeps.refl _ _
      · refine Keeps.step (State.raise_keeps ..) rfl ?_
        refine Keeps.step (State.bump_keeps ..) rfl ?_
        refine Keeps.step (State.bump_keeps ..) rfl ?_
        refine Keeps.step (State.bump_keeps ..) rfl ?_
        refine keeps_foldl_fst (fun _ _ _ => ?_) ?_
        · refine Keeps.step (placeObj_keeps ..) rfl ?_
          assumption
        · dsimp only
          refine Keeps.step (State.stset_keeps ..) rfl ?_
          refine Keeps.step (State.stset_keeps ..) rfl ?_
          exact Keeps.refl _ _
    · refine Keeps.step (State.raise_keeps ..) rfl ?_
      refine Keeps.step (State.bump_keeps ..) rfl ?_
      refine keeps_ite (fun _ => ?_) (fun _ => ?_)
      · refine keeps_foldl_fst (fun _ _ _ => ?_) ?_
        · refine Keeps.step (placeObj_keeps ..) rfl ?_
          assumption
        · dsimp only
          refine Keeps.step (State.stset_keeps ..) rfl ?_
          refine Keeps.step (State.stset_keeps ..) rfl ?_
          exact Keeps.refl _ _
      · refine Keeps.step (State.raise_keeps ..) rfl ?_
        refine Keeps.step (State.bump_keeps ..) rfl ?_
        refine Keeps.step (State.bump_keeps ..) rfl ?_
        refine Keeps.step (State.bump_keeps ..) rfl ?_
        refine keeps_foldl_fst (fun _ _ _ => ?_) ?_
        · refine Keeps.step (placeObj_keeps ..) rfl ?_
          assumption
        · dsimp only
          refine Keeps.step (State.stset_keeps ..) rfl ?_
          refine Keeps.step (State.stset_keeps ..) rfl ?_
          exact Keeps.refl _ _

theorem missObj_keeps (s : State) (no : Nat) : Keeps [.pipe] s (missObj s no) := by
  unfold missObj
  dsimp only
  split
  · refine keeps_pipe rfl ?_
    refine Keeps.step (setObj_keeps ..) rfl ?_
    exact Keeps.refl _ _
  · refine keeps_pipe rfl ?_
    refine Keeps.step (setObj_keeps ..) rfl ?_
    exact Keeps.refl _ _

theorem setSlide_keeps (s : State) (i : Nat) (e : Slide) : Keeps [.pipe] s (setSlide s i e) := by
  unfold setSlide
  refine keeps_pipe rfl ?_
  exact Keeps.refl _ _

theorem publishPlacement_keeps (s : State) : Keeps [.pipe] s (publishPlacement s) := by
  unfold publishPlacement
  refine keeps_pipe rfl ?_
  refine keeps_foldl (fun _ _ _ => ?_) ?_
  · refine Keeps.step (setSlide_keeps ..) rfl ?_
    assumption
  · exact Keeps.refl _ _

theorem placementPurge_keeps (s : State) : Keeps [.stat, .pipe, .tally, .beam, .events] s (placementPurge s) := by
  unfold placementPurge
  refine keeps_ite (fun _ => ?_) (fun _ => ?_)
  · refine Keeps.step (deadlinePurge_keeps ..) rfl ?_
    refine keeps_pipe rfl ?_
    exact Keeps.refl _ _
  · exact Keeps.refl _ _

theorem placementMissed_keeps (s : State) (scope : List Nat) : Keeps [.stat, .pipe, .twin, .tally, .beam, .events] s
    (placementMissed s scope) := by
  unfold placementMissed
  refine Keeps.step (placementPurge_keeps ..) rfl ?_
  refine keeps_ite (fun _ => ?_) (fun _ => ?_)
  · refine Keeps.step (publishPlacement_keeps ..) rfl ?_
    refine Keeps.step (stageMiss_keeps ..) rfl ?_
    refine keeps_foldl (fun _ _ _ => ?_) ?_
    · refine Keeps.step (missObj_keeps ..) rfl ?_
      assumption
    · exact Keeps.refl _ _
  · exact Keeps.refl _ _

theorem execPlacementPublish_keeps (at_ : Nat) (s : State) (t : State) (h : execPlacementPublish at_ s = .next t) :
    Keeps [.clk, .time, .stat, .pipe, .twin, .tally, .beam, .events] s t := by
  unfold execPlacementPublish at h
  refine keeps_done h ?_
  refine keeps_ite (fun _ => ?_) (fun _ => ?_)
  · refine Keeps.step (State.elapse_keeps ..) rfl ?_
    refine Keeps.step (placementMissed_keeps ..) rfl ?_
    refine Keeps.step (State.elapse_keeps ..) rfl ?_
    exact Keeps.refl _ _
  · dsimp only
    refine keeps_ite (fun _ => ?_) (fun _ => ?_)
    · refine Keeps.step (publishPlacement_keeps ..) rfl ?_
      refine Keeps.step (State.elapse_keeps ..) rfl ?_
      exact Keeps.refl _ _
    · refine Keeps.step (State.elapse_keeps ..) rfl ?_
      exact Keeps.refl _ _

theorem execPlacementDeadline_keeps (incomplete : List Nat) (s : State) (t : State) (h : execPlacementDeadline
    incomplete s = .next t) : Keeps [.clk, .time, .stat, .pipe, .twin, .tally, .beam, .events] s t := by
  unfold execPlacementDeadline at h
  refine keeps_done h ?_
  refine Keeps.step (placementMissed_keeps ..) rfl ?_
  refine Keeps.step (State.elapse_keeps ..) rfl ?_
  exact Keeps.refl _ _

theorem keyframeApply_keeps (s : State) (object : Nat) (record : List Byte) : Keeps [.dom, .pipe] s (keyframeApply s
    object record) := by
  unfold keyframeApply
  dsimp only
  split
  · refine Keeps.step (arrive_keeps ..) rfl ?_
    refine Keeps.step (State.putBytes_keeps ..) rfl ?_
    exact Keeps.refl _ _
  · refine Keeps.step (State.putBytes_keeps ..) rfl ?_
    exact Keeps.refl _ _

theorem execKeyframeWrite_keeps (object : Nat) (record : List Byte) (s : State) (t : State) (h : execKeyframeWrite
    object record s = .next t) : Keeps [.dom, .stat, .pipe] s t := by
  unfold execKeyframeWrite at h
  refine keeps_done h ?_
  refine keeps_ite (fun _ => ?_) (fun _ => ?_)
  · exact Keeps.refl _ _
  · refine State.attempt_keeps _ _ _ _ rfl ?_
    refine Keeps.step (keyframeApply_keeps ..) rfl ?_
    exact Keeps.refl _ _

theorem execObjectEnable_keeps (object value : Nat) (s : State) (t : State) (h : execObjectEnable object value s = .next
    t) : Keeps [.dict, .stat] s t := by
  unfold execObjectEnable at h
  refine keeps_done h ?_
  refine State.attempt_keeps _ _ _ _ rfl ?_
  refine Keeps.step (State.put_keeps ..) rfl ?_
  exact Keeps.refl _ _

theorem execClearPlacementStatistics_keeps (value : Nat) (s : State) (t : State) (h : execClearPlacementStatistics value
    s = .next t) : Keeps [.stat, .todo] s t := by
  unfold execClearPlacementStatistics at h
  refine keeps_done h ?_
  refine State.attempt_keeps _ _ _ _ rfl ?_
  refine keeps_ite (fun _ => ?_) (fun _ => ?_)
  · refine keeps_todo rfl ?_
    exact Keeps.refl _ _
  · exact Keeps.refl _ _

end Sys2Proof.Machine
end

