-- ==== Sys2Proof/Laws/KeepsTime.lean ====
section
/-! SUPPORT. The parts of the state that each function of Machine/Time.lean may change. -/
set_option linter.unreachableTactic false
set_option linter.unusedTactic false

namespace Sys2Proof.Machine

theorem setCounter_keeps (s : State) (l : Int) : Keeps [.clk] s (setCounter s l) := by
  unfold setCounter
  refine keeps_clk rfl ?_
  exact Keeps.refl _ _

theorem setPulse_keeps (s : State) (n : Nat) (p : Pulse) : Keeps [.time] s (setPulse s n p) := by
  unfold setPulse
  refine keeps_time rfl ?_
  exact Keeps.refl _ _

theorem armPulse_keeps (s : State) (n : Nat) (after : Int) : Keeps [.time] s (armPulse s n after) := by
  unfold armPulse
  dsimp only
  split
  · refine Keeps.step (setPulse_keeps ..) rfl ?_
    exact Keeps.refl _ _
  · refine keeps_ite (fun _ => ?_) (fun _ => ?_)
    · exact Keeps.refl _ _
    · refine Keeps.step (setPulse_keeps ..) rfl ?_
      exact Keeps.refl _ _
  · refine Keeps.step (setPulse_keeps ..) rfl ?_
    exact Keeps.refl _ _

theorem pulseApply_keeps (s : State) (n sub v : Nat) : Keeps [.time, .dict] s (pulseApply s n sub v) := by
  unfold pulseApply
  dsimp only
  refine keeps_ite (fun _ => ?_) (fun _ => ?_)
  · refine Keeps.step (State.put_keeps ..) rfl ?_
    exact Keeps.refl _ _
  · refine Keeps.step (armPulse_keeps ..) rfl ?_
    refine Keeps.step (setPulse_keeps ..) rfl ?_
    refine Keeps.step (State.put_keeps ..) rfl ?_
    exact Keeps.refl _ _

theorem rebasePulse_keeps (s : State) (n : Nat) : Keeps [.time] s (rebasePulse s n) := by
  unfold rebasePulse
  dsimp only
  refine keeps_ite (fun _ => ?_) (fun _ => ?_)
  · refine keeps_ite (fun _ => ?_) (fun _ => ?_)
    · exact Keeps.refl _ _
    · refine Keeps.step (setPulse_keeps ..) rfl ?_
      exact Keeps.refl _ _
  · refine Keeps.step (armPulse_keeps ..) rfl ?_
    exact Keeps.refl _ _

theorem joinPulse_keeps (s : State) (n : Nat) : Keeps [.time] s (joinPulse s n) := by
  unfold joinPulse
  dsimp only
  refine keeps_ite (fun _ => ?_) (fun _ => ?_)
  · refine Keeps.step (setPulse_keeps ..) rfl ?_
    exact Keeps.refl _ _
  · refine Keeps.step (armPulse_keeps ..) rfl ?_
    refine Keeps.step (setPulse_keeps ..) rfl ?_
    exact Keeps.refl _ _

theorem pulseStart_keeps (s : State) (n : Nat) : Keeps [.time] s (pulseStart s n) := by
  unfold pulseStart
  refine keeps_ite (fun _ => ?_) (fun _ => ?_)
  · refine Keeps.step (setPulse_keeps ..) rfl ?_
    exact Keeps.refl _ _
  · exact Keeps.refl _ _

theorem pulseEnd_keeps (s : State) (n : Nat) : Keeps [.time] s (pulseEnd s n) := by
  unfold pulseEnd
  dsimp only
  refine keeps_ite (fun _ => ?_) (fun _ => ?_)
  · refine keeps_ite (fun _ => ?_) (fun _ => ?_)
    · refine Keeps.step (armPulse_keeps ..) rfl ?_
      refine Keeps.step (setPulse_keeps ..) rfl ?_
      exact Keeps.refl _ _
    · refine Keeps.step (setPulse_keeps ..) rfl ?_
      exact Keeps.refl _ _
  · exact Keeps.refl _ _

theorem captureEdge_keeps (s : State) (n : Nat) (rising : Bool) : Keeps [.time, .stat] s (captureEdge s n rising) := by
  unfold captureEdge
  refine keeps_ite (fun _ => ?_) (fun _ => ?_)
  · refine keeps_time rfl ?_
    refine keeps_ite (fun _ => ?_) (fun _ => ?_)
    · refine Keeps.step (State.bump_keeps ..) rfl ?_
      refine Keeps.step (State.bump_keeps ..) rfl ?_
      refine Keeps.step (State.stset_keeps ..) rfl ?_
      exact Keeps.refl _ _
    · refine Keeps.step (State.bump_keeps ..) rfl ?_
      refine Keeps.step (State.stset_keeps ..) rfl ?_
      exact Keeps.refl _ _
  · exact Keeps.refl _ _

theorem showCaptures_keeps (s : State) : Keeps [.time] s (showCaptures s) := by
  unfold showCaptures
  refine keeps_time rfl ?_
  exact Keeps.refl _ _

theorem enterGrandmaster_keeps (s : State) : Keeps [.time, .stat, .events] s (enterGrandmaster s) := by
  unfold enterGrandmaster
  refine keeps_time rfl ?_
  refine Keeps.step (State.leaveHoldover_keeps ..) rfl ?_
  exact Keeps.refl _ _

theorem loseMaster_keeps (s : State) (still : Bool) : Keeps [.clk, .time, .events] s (loseMaster s still) := by
  unfold loseMaster
  split
  · exact Keeps.refl _ _
  · dsimp only
    split
    · refine keeps_time rfl ?_
      exact Keeps.refl _ _
    · refine keeps_time rfl ?_
      exact Keeps.refl _ _
    · refine Keeps.step (State.enterHoldover_keeps ..) rfl ?_
      refine keeps_time rfl ?_
      exact Keeps.refl _ _

theorem masterPort_keeps (s : State) (m : Master) (a : Announce) (other : Option Announce) : Keeps [.time, .stat] s
    (masterPort s m a other) := by
  unfold masterPort
  refine Keeps.step (State.stset_keeps ..) rfl ?_
  refine Keeps.step (State.stset_keeps ..) rfl ?_
  refine keeps_time rfl ?_
  exact Keeps.refl _ _

theorem masterHeard_keeps (s : State) (m : Master) (a : Announce) : Keeps [.time, .stat] s (masterHeard s m a) := by
  unfold masterHeard
  refine keeps_ite (fun _ => ?_) (fun _ => ?_)
  · split
    · refine keeps_ite (fun _ => ?_) (fun _ => ?_)
      · refine Keeps.step (masterPort_keeps ..) rfl ?_
        exact Keeps.refl _ _
      · refine Keeps.step (masterPort_keeps ..) rfl ?_
        exact Keeps.refl _ _
    · refine Keeps.step (masterPort_keeps ..) rfl ?_
      exact Keeps.refl _ _
  · refine keeps_ite (fun _ => ?_) (fun _ => ?_)
    · refine Keeps.step (masterPort_keeps ..) rfl ?_
      exact Keeps.refl _ _
    · refine keeps_time rfl ?_
      exact Keeps.refl _ _

theorem candidateHeard_keeps (s : State) (a : Announce) (better : Announce → Bool) : Keeps [.time] s (candidateHeard s a
    better) := by
  unfold candidateHeard
  split
  · refine keeps_ite (fun _ => ?_) (fun _ => ?_)
    · refine keeps_time rfl ?_
      exact Keeps.refl _ _
    · refine keeps_ite (fun _ => ?_) (fun _ => ?_)
      · refine keeps_time rfl ?_
        exact Keeps.refl _ _
      · exact Keeps.refl _ _
  · refine keeps_time rfl ?_
    exact Keeps.refl _ _

theorem keepCandidate_keeps (s : State) : Keeps [.time] s (keepCandidate s) := by
  unfold keepCandidate
  split
  · refine keeps_ite (fun _ => ?_) (fun _ => ?_)
    · exact Keeps.refl _ _
    · refine keeps_time rfl ?_
      exact Keeps.refl _ _
  · exact Keeps.refl _ _

theorem candidateFallen_keeps (s : State) (a : Announce) : Keeps [.time] s (candidateFallen s a) := by
  unfold candidateFallen
  split
  · refine keeps_ite (fun _ => ?_) (fun _ => ?_)
    · refine keeps_time rfl ?_
      exact Keeps.refl _ _
    · exact Keeps.refl _ _
  · exact Keeps.refl _ _

theorem announce_keeps (s : State) (a : Announce) : Keeps [.clk, .time, .stat, .events] s (announce s a) := by
  unfold announce
  refine keeps_ite (fun _ => ?_) (fun _ => ?_)
  · exact Keeps.refl _ _
  · refine keeps_ite (fun _ => ?_) (fun _ => ?_)
    · exact Keeps.refl _ _
    · dsimp only
      split
      · refine keeps_ite (fun _ => ?_) (fun _ => ?_)
        · refine Keeps.step (keepCandidate_keeps ..) rfl ?_
          refine Keeps.step (masterHeard_keeps ..) rfl ?_
          refine keeps_ite (fun _ => ?_) (fun _ => ?_)
          · refine Keeps.step (State.enterHoldover_keeps ..) rfl ?_
            exact Keeps.refl _ _
          · exact Keeps.refl _ _
        · refine keeps_ite (fun _ => ?_) (fun _ => ?_)
          · refine Keeps.step (candidateHeard_keeps ..) rfl ?_
            refine keeps_ite (fun _ => ?_) (fun _ => ?_)
            · refine Keeps.step (State.enterHoldover_keeps ..) rfl ?_
              exact Keeps.refl _ _
            · exact Keeps.refl _ _
          · refine Keeps.step (candidateFallen_keeps ..) rfl ?_
            refine keeps_ite (fun _ => ?_) (fun _ => ?_)
            · refine Keeps.step (State.enterHoldover_keeps ..) rfl ?_
              exact Keeps.refl _ _
            · exact Keeps.refl _ _
      · refine Keeps.step (candidateHeard_keeps ..) rfl ?_
        refine keeps_ite (fun _ => ?_) (fun _ => ?_)
        · refine Keeps.step (State.enterHoldover_keeps ..) rfl ?_
          exact Keeps.refl _ _
        · exact Keeps.refl _ _

theorem qualify_keeps (s : State) : Keeps [.clk, .time, .stat, .events] s (qualify s) := by
  unfold qualify
  split
  · exact Keeps.refl _ _
  · refine keeps_ite (fun _ => ?_) (fun _ => ?_)
    · exact Keeps.refl _ _
    · refine keeps_ite (fun _ => ?_) (fun _ => ?_)
      · refine keeps_time rfl ?_
        exact Keeps.refl _ _
      · refine keeps_ite (fun _ => ?_) (fun _ => ?_)
        · refine keeps_time rfl ?_
          exact Keeps.refl _ _
        · dsimp only
          refine Keeps.step (State.raise_keeps ..) rfl ?_
          refine Keeps.step (State.stset_keeps ..) rfl ?_
          refine Keeps.step (State.stset_keeps ..) rfl ?_
          refine Keeps.step (State.stset_keeps ..) rfl ?_
          refine keeps_ite (fun _ => ?_) (fun _ => ?_)
          · refine keeps_time rfl ?_
            refine Keeps.step (State.leaveHoldover_keeps ..) rfl ?_
            refine keeps_time rfl ?_
            refine keeps_ite (fun _ => ?_) (fun _ => ?_)
            · refine Keeps.step (State.enterHoldover_keeps ..) rfl ?_
              exact Keeps.refl _ _
            · exact Keeps.refl _ _
          · refine keeps_time rfl ?_
            refine keeps_ite (fun _ => ?_) (fun _ => ?_)
            · refine Keeps.step (State.enterHoldover_keeps ..) rfl ?_
              exact Keeps.refl _ _
            · exact Keeps.refl _ _

theorem leavePort_keeps (s : State) (m : Master) (other : Option Announce) : Keeps [.clk, .time, .stat, .events] s
    (leavePort s m other) := by
  unfold leavePort
  split
  · refine Keeps.step (masterPort_keeps ..) rfl ?_
    exact Keeps.refl _ _
  · refine Keeps.step (loseMaster_keeps ..) rfl ?_
    exact Keeps.refl _ _

theorem announceTimeout_keeps (s : State) (port : Nat) : Keeps [.clk, .time, .stat, .events] s (announceTimeout s port)
    := by
  unfold announceTimeout
  dsimp only
  split
  · refine keeps_ite (fun _ => ?_) (fun _ => ?_)
    · refine Keeps.step (enterGrandmaster_keeps ..) rfl ?_
      refine keeps_time rfl ?_
      split
      · refine keeps_ite (fun _ => ?_) (fun _ => ?_)
        · refine keeps_time rfl ?_
          exact Keeps.refl _ _
        · refine Keeps.step (leavePort_keeps ..) rfl ?_
          exact Keeps.refl _ _
      · split
        · refine keeps_ite (fun _ => ?_) (fun _ => ?_)
          · refine keeps_time rfl ?_
            exact Keeps.refl _ _
          · exact Keeps.refl _ _
        · exact Keeps.refl _ _
    · refine keeps_time rfl ?_
      split
      · refine keeps_ite (fun _ => ?_) (fun _ => ?_)
        · refine keeps_time rfl ?_
          exact Keeps.refl _ _
        · refine Keeps.step (leavePort_keeps ..) rfl ?_
          exact Keeps.refl _ _
      · split
        · refine keeps_ite (fun _ => ?_) (fun _ => ?_)
          · refine keeps_time rfl ?_
            exact Keeps.refl _ _
          · exact Keeps.refl _ _
        · exact Keeps.refl _ _
  · refine keeps_ite (fun _ => ?_) (fun _ => ?_)
    · refine Keeps.step (enterGrandmaster_keeps ..) rfl ?_
      refine keeps_time rfl ?_
      split
      · refine keeps_ite (fun _ => ?_) (fun _ => ?_)
        · refine keeps_time rfl ?_
          exact Keeps.refl _ _
        · refine Keeps.step (leavePort_keeps ..) rfl ?_
          exact Keeps.refl _ _
      · split
        · refine keeps_ite (fun _ => ?_) (fun _ => ?_)
          · refine keeps_time rfl ?_
            exact Keeps.refl _ _
          · exact Keeps.refl _ _
        · exact Keeps.refl _ _
    · refine keeps_time rfl ?_
      split
      · refine keeps_ite (fun _ => ?_) (fun _ => ?_)
        · refine keeps_time rfl ?_
          exact Keeps.refl _ _
        · refine Keeps.step (leavePort_keeps ..) rfl ?_
          exact Keeps.refl _ _
      · split
        · refine keeps_ite (fun _ => ?_) (fun _ => ?_)
          · refine keeps_time rfl ?_
            exact Keeps.refl _ _
          · exact Keeps.refl _ _
        · exact Keeps.refl _ _
  · refine keeps_time rfl ?_
    split
    · refine keeps_ite (fun _ => ?_) (fun _ => ?_)
      · refine keeps_time rfl ?_
        exact Keeps.refl _ _
      · refine Keeps.step (leavePort_keeps ..) rfl ?_
        exact Keeps.refl _ _
    · split
      · refine keeps_ite (fun _ => ?_) (fun _ => ?_)
        · refine keeps_time rfl ?_
          exact Keeps.refl _ _
        · exact Keeps.refl _ _
      · exact Keeps.refl _ _

theorem enterConfirm_keeps (s : State) (o : Int) : Keeps [.time, .stat, .events] s (enterConfirm s o) := by
  unfold enterConfirm
  refine keeps_time rfl ?_
  refine Keeps.step (State.leaveHoldover_keeps ..) rfl ?_
  exact Keeps.refl _ _

theorem enterLocked_keeps (s : State) (o : Int) : Keeps [.time, .stat, .events] s (enterLocked s o) := by
  unfold enterLocked
  refine keeps_time rfl ?_
  refine Keeps.step (State.leaveHoldover_keeps ..) rfl ?_
  exact Keeps.refl _ _

theorem decideRebase_keeps (s : State) (e : Int) (b : Nat) : Keeps [.clk, .time, .stat, .events] s (decideRebase s e b)
    := by
  unfold decideRebase
  refine Keeps.step (State.raise_keeps ..) rfl ?_
  refine Keeps.step (State.stset_keeps ..) rfl ?_
  refine Keeps.step (State.stset_keeps ..) rfl ?_
  refine Keeps.step (State.bump_keeps ..) rfl ?_
  refine keeps_clk_time rfl rfl ?_
  exact Keeps.refl _ _

theorem confirmStep_keeps (s : State) (o : Int) : Keeps [.clk, .time, .stat, .events, .out] s (confirmStep s o) := by
  unfold confirmStep
  refine keeps_ite (fun _ => ?_) (fun _ => ?_)
  · exact Keeps.refl _ _
  · dsimp only
    refine keeps_ite (fun _ => ?_) (fun _ => ?_)
    · refine Keeps.step (State.raise_keeps ..) rfl ?_
      refine Keeps.step (State.bump_keeps ..) rfl ?_
      refine keeps_time rfl ?_
      exact Keeps.refl _ _
    · refine keeps_ite (fun _ => ?_) (fun _ => ?_)
      · refine keeps_ite (fun _ => ?_) (fun _ => ?_)
        · refine keeps_time rfl ?_
          exact Keeps.refl _ _
        · split
          · refine keeps_time rfl ?_
            exact Keeps.refl _ _
          · refine Keeps.step (State.sendPort_keeps ..) rfl ?_
            refine Keeps.step (decideRebase_keeps ..) rfl ?_
            refine keeps_time rfl ?_
            exact Keeps.refl _ _
          · refine Keeps.step (decideRebase_keeps ..) rfl ?_
            refine keeps_time rfl ?_
            exact Keeps.refl _ _
      · refine keeps_time rfl ?_
        exact Keeps.refl _ _

theorem firstSync_keeps (s : State) (o : Int) : Keeps [.time, .stat, .events] s (firstSync s o) := by
  unfold firstSync
  refine keeps_ite (fun _ => ?_) (fun _ => ?_)
  · refine Keeps.step (enterLocked_keeps ..) rfl ?_
    exact Keeps.refl _ _
  · refine Keeps.step (enterConfirm_keeps ..) rfl ?_
    exact Keeps.refl _ _

theorem syncStep_keeps (s0 : State) (twin : Bool) (o : Int) : Keeps [.clk, .time, .stat, .events, .out] s0 (syncStep s0
    twin o) := by
  unfold syncStep
  dsimp only
  split
  · refine keeps_ite (fun _ => ?_) (fun _ => ?_)
    · refine Keeps.step (firstSync_keeps ..) rfl ?_
      refine Keeps.step (State.stset_keeps ..) rfl ?_
      exact Keeps.refl _ _
    · exact Keeps.refl _ _
  · refine keeps_ite (fun _ => ?_) (fun _ => ?_)
    · refine Keeps.step (enterLocked_keeps ..) rfl ?_
      refine Keeps.step (State.stset_keeps ..) rfl ?_
      exact Keeps.refl _ _
    · refine keeps_ite (fun _ => ?_) (fun _ => ?_)
      · refine keeps_time rfl ?_
        refine Keeps.step (State.stset_keeps ..) rfl ?_
        exact Keeps.refl _ _
      · refine Keeps.step (State.bump_keeps ..) rfl ?_
        refine keeps_time rfl ?_
        refine Keeps.step (setCounter_keeps ..) rfl ?_
        refine keeps_time rfl ?_
        refine Keeps.step (State.stset_keeps ..) rfl ?_
        exact Keeps.refl _ _
  · refine keeps_ite (fun _ => ?_) (fun _ => ?_)
    · refine Keeps.step (firstSync_keeps ..) rfl ?_
      refine Keeps.step (State.stset_keeps ..) rfl ?_
      exact Keeps.refl _ _
    · refine Keeps.step (confirmStep_keeps ..) rfl ?_
      refine Keeps.step (State.stset_keeps ..) rfl ?_
      exact Keeps.refl _ _
  · refine keeps_ite (fun _ => ?_) (fun _ => ?_)
    · refine keeps_ite (fun _ => ?_) (fun _ => ?_)
      · refine Keeps.step (enterLocked_keeps ..) rfl ?_
        refine Keeps.step (State.stset_keeps ..) rfl ?_
        exact Keeps.refl _ _
      · refine keeps_time rfl ?_
        refine Keeps.step (State.stset_keeps ..) rfl ?_
        exact Keeps.refl _ _
    · refine Keeps.step (enterConfirm_keeps ..) rfl ?_
      refine Keeps.step (State.stset_keeps ..) rfl ?_
      exact Keeps.refl _ _
  · refine keeps_ite (fun _ => ?_) (fun _ => ?_)
    · refine keeps_time rfl ?_
      refine Keeps.step (State.stset_keeps ..) rfl ?_
      exact Keeps.refl _ _
    · refine keeps_ite (fun _ => ?_) (fun _ => ?_)
      · refine Keeps.step (firstSync_keeps ..) rfl ?_
        refine Keeps.step (State.stset_keeps ..) rfl ?_
        exact Keeps.refl _ _
      · exact Keeps.refl _ _
  · refine keeps_ite (fun _ => ?_) (fun _ => ?_)
    · refine keeps_time rfl ?_
      refine Keeps.step (State.stset_keeps ..) rfl ?_
      exact Keeps.refl _ _
    · refine keeps_ite (fun _ => ?_) (fun _ => ?_)
      · refine Keeps.step (firstSync_keeps ..) rfl ?_
        refine Keeps.step (State.stset_keeps ..) rfl ?_
        exact Keeps.refl _ _
      · exact Keeps.refl _ _

theorem syncReceived_keeps (s0 : State) (m : SyncMsg) : Keeps [.clk, .time, .stat, .events, .out] s0 (syncReceived s0 m)
    := by
  unfold syncReceived
  dsimp only
  refine keeps_ite (fun _ => ?_) (fun _ => ?_)
  · refine keeps_ite (fun _ => ?_) (fun _ => ?_)
    · refine keeps_time rfl ?_
      exact Keeps.refl _ _
    · exact Keeps.refl _ _
  · refine Keeps.step (syncStep_keeps ..) rfl ?_
    refine keeps_ite (fun _ => ?_) (fun _ => ?_)
    · refine keeps_time rfl ?_
      exact Keeps.refl _ _
    · exact Keeps.refl _ _

theorem rebaseFallback_keeps (s : State) : Keeps [.clk, .time, .stat, .twin, .events] s (rebaseFallback s) := by
  unfold rebaseFallback
  split
  · refine keeps_ite (fun _ => ?_) (fun _ => ?_)
    · refine keeps_twin rfl ?_
      refine Keeps.step (decideRebase_keeps ..) rfl ?_
      exact Keeps.refl _ _
    · exact Keeps.refl _ _
  · exact Keeps.refl _ _

theorem rebaseApply_keeps (s : State) : Keeps [.clk, .time, .pend] s (rebaseApply s) := by
  unfold rebaseApply
  split
  · exact Keeps.refl _ _
  · refine keeps_ite (fun _ => ?_) (fun _ => ?_)
    · exact Keeps.refl _ _
    · dsimp only
      refine keeps_foldl (fun _ _ _ => ?_) ?_
      · refine Keeps.step (rebasePulse_keeps ..) rfl ?_
        assumption
      · refine keeps_clk_time_pend rfl rfl rfl ?_
        exact Keeps.refl _ _

theorem ptpSend_keeps (s : State) (port : Nat) (kind : PtpKind) (depart : Int) : Keeps [.stat, .out] s (ptpSend s port
    kind depart) := by
  unfold ptpSend
  refine keeps_ite (fun _ => ?_) (fun _ => ?_)
  · refine Keeps.step (State.sendPort_keeps ..) rfl ?_
    exact Keeps.refl _ _
  · exact Keeps.refl _ _

theorem pdelayResponse_keeps (s : State) (port : Nat) (capture depart : Int) : Keeps [.stat, .out] s (pdelayResponse s
    port capture depart) := by
  unfold pdelayResponse
  refine keeps_ite (fun _ => ?_) (fun _ => ?_)
  · refine Keeps.step (State.sendPort_keeps ..) rfl ?_
    exact Keeps.refl _ _
  · exact Keeps.refl _ _

theorem delayResponse_keeps (s : State) (port : Nat) (capture corr : Int) : Keeps [.stat, .out] s (delayResponse s port
    capture corr) := by
  unfold delayResponse
  refine keeps_ite (fun _ => ?_) (fun _ => ?_)
  · refine Keeps.step (State.sendPort_keeps ..) rfl ?_
    exact Keeps.refl _ _
  · exact Keeps.refl _ _

theorem ptpTransit_keeps (s : State) (inPort outPort : Nat) (kind : PtpKind) (carrier : PtpCarrier) (capture depart corr
    : Int) : Keeps [.stat, .out] s (ptpTransit s inPort outPort kind carrier capture depart corr) := by
  unfold ptpTransit
  refine keeps_ite (fun _ => ?_) (fun _ => ?_)
  · exact Keeps.refl _ _
  · dsimp only
    split
    · refine Keeps.step (State.sendPort_keeps ..) rfl ?_
      exact Keeps.refl _ _
    · refine keeps_ite (fun _ => ?_) (fun _ => ?_)
      · refine Keeps.step (delayResponse_keeps ..) rfl ?_
        exact Keeps.refl _ _
      · exact Keeps.refl _ _
    · refine Keeps.step (State.sendPort_keeps ..) rfl ?_
      refine keeps_ite (fun _ => ?_) (fun _ => ?_)
      · refine Keeps.step (delayResponse_keeps ..) rfl ?_
        exact Keeps.refl _ _
      · exact Keeps.refl _ _

theorem announcePort_keeps (s : State) (port : Nat) : Keeps [.time, .stat, .out] s (announcePort s port) := by
  unfold announcePort
  refine keeps_ite (fun _ => ?_) (fun _ => ?_)
  · refine keeps_time rfl ?_
    exact Keeps.refl _ _
  · refine keeps_ite (fun _ => ?_) (fun _ => ?_)
    · dsimp only
      refine keeps_time rfl ?_
      refine Keeps.step (State.sendPort_keeps ..) rfl ?_
      exact Keeps.refl _ _
    · exact Keeps.refl _ _

theorem announceTick_keeps (s : State) : Keeps [.time, .stat, .out] s (announceTick s) := by
  unfold announceTick
  refine keeps_foldl (fun _ _ _ => ?_) ?_
  · refine Keeps.step (announcePort_keeps ..) rfl ?_
    assumption
  · exact Keeps.refl _ _

theorem roleApply_keeps (s : State) (v : Nat) : Keeps [.clk, .time, .dict, .stat, .events] s (roleApply s v) := by
  unfold roleApply
  dsimp only
  refine keeps_ite (fun _ => ?_) (fun _ => ?_)
  · refine keeps_clk_time rfl rfl ?_
    refine Keeps.step (State.leaveHoldover_keeps ..) rfl ?_
    refine Keeps.step (State.put_keeps ..) rfl ?_
    exact Keeps.refl _ _
  · split
    · refine keeps_ite (fun _ => ?_) (fun _ => ?_)
      · refine keeps_time rfl ?_
        refine Keeps.step (State.put_keeps ..) rfl ?_
        exact Keeps.refl _ _
      · refine Keeps.step (leavePort_keeps ..) rfl ?_
        refine Keeps.step (State.put_keeps ..) rfl ?_
        exact Keeps.refl _ _
    · refine keeps_time rfl ?_
      refine Keeps.step (State.put_keeps ..) rfl ?_
      exact Keeps.refl _ _

theorem preferApply_keeps (s : State) : Keeps [.time, .stat] s (preferApply s) := by
  unfold preferApply
  split
  · refine keeps_ite (fun _ => ?_) (fun _ => ?_)
    · refine Keeps.step (masterPort_keeps ..) rfl ?_
      exact Keeps.refl _ _
    · exact Keeps.refl _ _
  · exact Keeps.refl _ _

theorem permitApply_keeps (s : State) : Keeps [.time, .stat, .events] s (permitApply s) := by
  unfold permitApply
  split
  · refine keeps_ite (fun _ => ?_) (fun _ => ?_)
    · refine Keeps.step (enterGrandmaster_keeps ..) rfl ?_
      exact Keeps.refl _ _
    · exact Keeps.refl _ _
  · refine keeps_ite (fun _ => ?_) (fun _ => ?_)
    · refine Keeps.step (enterGrandmaster_keeps ..) rfl ?_
      exact Keeps.refl _ _
    · exact Keeps.refl _ _
  · exact Keeps.refl _ _

theorem timeApply_keeps (s : State) (index sub v : Nat) : Keeps [.clk, .time, .nv, .dict, .stat, .events] s (timeApply s
    index sub v) := by
  unfold timeApply
  refine keeps_ite (fun _ => ?_) (fun _ => ?_)
  · split
    · refine Keeps.step (roleApply_keeps ..) rfl ?_
      exact Keeps.refl _ _
    · refine keeps_foldl (fun _ _ _ => ?_) ?_
      · refine Keeps.step (State.put_keeps ..) rfl ?_
        assumption
      · refine Keeps.step (State.put_keeps ..) rfl ?_
        exact Keeps.refl _ _
    · dsimp only
      refine keeps_ite (fun _ => ?_) (fun _ => ?_)
      · refine Keeps.step (State.enterHoldover_keeps ..) rfl ?_
        refine Keeps.step (State.put_keeps ..) rfl ?_
        exact Keeps.refl _ _
      · refine Keeps.step (permitApply_keeps ..) rfl ?_
        refine Keeps.step (State.put_keeps ..) rfl ?_
        exact Keeps.refl _ _
    · refine Keeps.step (preferApply_keeps ..) rfl ?_
      refine Keeps.step (State.put_keeps ..) rfl ?_
      exact Keeps.refl _ _
    · refine Keeps.step (State.put_keeps ..) rfl ?_
      exact Keeps.refl _ _
  · dsimp only
    refine keeps_nv rfl ?_
    exact Keeps.refl _ _

theorem execSyncReceived_keeps (at_ : Nat) (msg : SyncMsg) (s : State) (t : State) (h : execSyncReceived at_ msg s =
    .next t) : Keeps [.clk, .time, .stat, .events, .out] s t := by
  unfold execSyncReceived at h
  refine keeps_done h ?_
  dsimp only
  refine Keeps.step (syncReceived_keeps ..) rfl ?_
  refine keeps_ite (fun _ => ?_) (fun _ => ?_)
  · refine Keeps.step (State.heard_keeps ..) rfl ?_
    refine Keeps.step (State.elapse_keeps ..) rfl ?_
    exact Keeps.refl _ _
  · refine Keeps.step (State.elapse_keeps ..) rfl ?_
    exact Keeps.refl _ _

theorem execRebaseValuesReceived_keeps (epoch : Int) (block : Nat) (s : State) (t : State) (h : execRebaseValuesReceived
    epoch block s = .next t) : Keeps [.clk, .time, .stat, .events] s t := by
  unfold execRebaseValuesReceived at h
  refine keeps_done h ?_
  refine keeps_ite (fun _ => ?_) (fun _ => ?_)
  · refine Keeps.step (decideRebase_keeps ..) rfl ?_
    refine Keeps.step (State.heard_keeps ..) rfl ?_
    exact Keeps.refl _ _
  · exact Keeps.refl _ _

theorem execRebaseFallback_keeps (s : State) (t : State) (h : execRebaseFallback s = .next t) : Keeps [.clk, .time,
    .stat, .twin, .events] s t := by
  unfold execRebaseFallback at h
  refine keeps_done h ?_
  refine Keeps.step (rebaseFallback_keeps ..) rfl ?_
  exact Keeps.refl _ _

theorem execRebaseApply_keeps (s : State) (t : State) (h : execRebaseApply s = .next t) : Keeps [.clk, .time, .pend] s t
    := by
  unfold execRebaseApply at h
  refine keeps_done h ?_
  refine Keeps.step (rebaseApply_keeps ..) rfl ?_
  exact Keeps.refl _ _

theorem execAnnounceReceived_keeps (at_ : Nat) (msg : Announce) (s : State) (t : State) (h : execAnnounceReceived at_
    msg s = .next t) : Keeps [.clk, .time, .stat, .events] s t := by
  unfold execAnnounceReceived at h
  refine keeps_done h ?_
  dsimp only
  refine Keeps.step (announce_keeps ..) rfl ?_
  refine keeps_ite (fun _ => ?_) (fun _ => ?_)
  · refine Keeps.step (State.heard_keeps ..) rfl ?_
    refine Keeps.step (State.elapse_keeps ..) rfl ?_
    exact Keeps.refl _ _
  · refine Keeps.step (State.elapse_keeps ..) rfl ?_
    exact Keeps.refl _ _

theorem execQualificationEnd_keeps (s : State) (t : State) (h : execQualificationEnd s = .next t) : Keeps [.clk, .time,
    .stat, .events] s t := by
  unfold execQualificationEnd at h
  refine keeps_done h ?_
  refine Keeps.step (qualify_keeps ..) rfl ?_
  exact Keeps.refl _ _

theorem execAnnounceTimeout_keeps (port : Nat) (s : State) (t : State) (h : execAnnounceTimeout port s = .next t) :
    Keeps [.clk, .time, .stat, .events] s t := by
  unfold execAnnounceTimeout at h
  refine keeps_done h ?_
  refine Keeps.step (announceTimeout_keeps ..) rfl ?_
  exact Keeps.refl _ _

theorem execSyncLoss_keeps (s : State) (t : State) (h : execSyncLoss s = .next t) : Keeps [.clk, .time, .events] s t :=
    by
  unfold execSyncLoss at h
  refine keeps_done h ?_
  refine keeps_ite (fun _ => ?_) (fun _ => ?_)
  · exact Keeps.refl _ _
  · refine Keeps.step (loseMaster_keeps ..) rfl ?_
    exact Keeps.refl _ _

theorem execDelayMeasurementComplete_keeps (port delayNs : Nat) (s : State) (t : State) (h :
    execDelayMeasurementComplete port delayNs s = .next t) : Keeps [.time, .stat] s t := by
  unfold execDelayMeasurementComplete at h
  refine keeps_done h ?_
  dsimp only
  split
  · refine keeps_ite (fun _ => ?_) (fun _ => ?_)
    · refine Keeps.step (State.stset_keeps ..) rfl ?_
      refine keeps_time rfl ?_
      refine keeps_ite (fun _ => ?_) (fun _ => ?_)
      · refine Keeps.step (State.heard_keeps ..) rfl ?_
        exact Keeps.refl _ _
      · exact Keeps.refl _ _
    · refine keeps_time rfl ?_
      refine keeps_ite (fun _ => ?_) (fun _ => ?_)
      · refine Keeps.step (State.heard_keeps ..) rfl ?_
        exact Keeps.refl _ _
      · exact Keeps.refl _ _
  · refine keeps_time rfl ?_
    refine keeps_ite (fun _ => ?_) (fun _ => ?_)
    · refine Keeps.step (State.heard_keeps ..) rfl ?_
      exact Keeps.refl _ _
    · exact Keeps.refl _ _

theorem execPtpMessageSend_keeps (port : Nat) (kind : PtpKind) (depart : Int) (s : State) (t : State) (h :
    execPtpMessageSend port kind depart s = .next t) : Keeps [.stat, .out] s t := by
  unfold execPtpMessageSend at h
  refine keeps_done h ?_
  refine Keeps.step (ptpSend_keeps ..) rfl ?_
  exact Keeps.refl _ _

theorem execPdelayReqReceived_keeps (port : Nat) (capture depart : Int) (s : State) (t : State) (h :
    execPdelayReqReceived port capture depart s = .next t) : Keeps [.stat, .out] s t := by
  unfold execPdelayReqReceived at h
  refine keeps_done h ?_
  refine Keeps.step (pdelayResponse_keeps ..) rfl ?_
  refine keeps_ite (fun _ => ?_) (fun _ => ?_)
  · refine Keeps.step (State.heard_keeps ..) rfl ?_
    exact Keeps.refl _ _
  · exact Keeps.refl _ _

theorem execPtpTransit_keeps (inPort outPort : Nat) (kind : PtpKind) (carrier : PtpCarrier) (capture depart corr : Int)
    (s : State) (t : State) (h : execPtpTransit inPort outPort kind carrier capture depart corr s = .next t) : Keeps
    [.stat, .out] s t := by
  unfold execPtpTransit at h
  refine keeps_done h ?_
  refine Keeps.step (ptpTransit_keeps ..) rfl ?_
  exact Keeps.refl _ _

theorem execCounterWrap_keeps (s : State) (t : State) (h : execCounterWrap s = .next t) : Keeps [.clk, .time, .events] s
    t := by
  unfold execCounterWrap at h
  refine keeps_done h ?_
  refine keeps_ite (fun _ => ?_) (fun _ => ?_)
  · refine Keeps.step (State.elapse_keeps ..) rfl ?_
    exact Keeps.refl _ _
  · exact Keeps.refl _ _

theorem execTuCarryWrite_keeps (value : Nat) (s : State) (t : State) (h : execTuCarryWrite value s = .next t) : Keeps
    [.clk] s t := by
  unfold execTuCarryWrite at h
  refine keeps_done h ?_
  refine keeps_clk rfl ?_
  exact Keeps.refl _ _

theorem execCarryLostClear_keeps (s : State) (t : State) (h : execCarryLostClear s = .next t) : Keeps [.clk] s t := by
  unfold execCarryLostClear at h
  refine keeps_done h ?_
  refine keeps_clk rfl ?_
  exact Keeps.refl _ _

theorem execComparatorFire_keeps (at_ n : Nat) (s : State) (t : State) (h : execComparatorFire at_ n s = .next t) :
    Keeps [.clk, .time, .events] s t := by
  unfold execComparatorFire at h
  refine keeps_done h ?_
  refine Keeps.step (pulseStart_keeps ..) rfl ?_
  refine Keeps.step (State.elapse_keeps ..) rfl ?_
  exact Keeps.refl _ _

theorem execPulseWidthEnd_keeps (at_ n : Nat) (s : State) (t : State) (h : execPulseWidthEnd at_ n s = .next t) : Keeps
    [.clk, .time, .events] s t := by
  unfold execPulseWidthEnd at h
  refine keeps_done h ?_
  refine Keeps.step (pulseEnd_keeps ..) rfl ?_
  refine Keeps.step (State.elapse_keeps ..) rfl ?_
  exact Keeps.refl _ _

theorem execCaptureEdge_keeps (at_ n : Nat) (rising : Bool) (s : State) (t : State) (h : execCaptureEdge at_ n rising s
    = .next t) : Keeps [.clk, .time, .stat, .events] s t := by
  unfold execCaptureEdge at h
  refine keeps_done h ?_
  refine Keeps.step (captureEdge_keeps ..) rfl ?_
  refine Keeps.step (State.elapse_keeps ..) rfl ?_
  exact Keeps.refl _ _

theorem execTimeConfigWrite_keeps (index sub value : Nat) (s : State) (t : State) (h : execTimeConfigWrite index sub
    value s = .next t) : Keeps [.clk, .time, .nv, .dict, .stat, .events] s t := by
  unfold execTimeConfigWrite at h
  refine keeps_done h ?_
  refine State.attempt_keeps _ _ _ _ rfl ?_
  refine Keeps.step (timeApply_keeps ..) rfl ?_
  exact Keeps.refl _ _

theorem execPulseConfigWrite_keeps (n sub value : Nat) (s : State) (t : State) (h : execPulseConfigWrite n sub value s =
    .next t) : Keeps [.time, .dict, .stat] s t := by
  unfold execPulseConfigWrite at h
  refine keeps_done h ?_
  refine State.attempt_keeps _ _ _ _ rfl ?_
  refine Keeps.step (pulseApply_keeps ..) rfl ?_
  exact Keeps.refl _ _

end Sys2Proof.Machine
end

