-- ==== Sys2Proof/Laws/KeepsRing.lean ====
section
/-! SUPPORT. The parts of the state that each function of Machine/Ring.lean may change. -/
set_option linter.unreachableTactic false
set_option linter.unusedTactic false

namespace Sys2Proof.Machine

theorem judgeRing_keeps (s : State) : Keeps [.stat, .events] s (judgeRing s) := by
  unfold judgeRing
  refine Keeps.step (State.stset_keeps ..) rfl ?_
  refine keeps_foldl (fun _ _ _ => ?_) ?_
  · refine Keeps.step (State.condition_keeps ..) rfl ?_
    assumption
  · exact Keeps.refl _ _

theorem linkLock_keeps (s : State) (p mode : Nat) : Keeps [.stat, .ports, .events] s (linkLock s p mode) := by
  unfold linkLock
  refine keeps_ite (fun _ => ?_) (fun _ => ?_)
  · refine Keeps.step (judgeRing_keeps ..) rfl ?_
    refine Keeps.step (State.stset_keeps ..) rfl ?_
    refine Keeps.step (State.setPort_keeps ..) rfl ?_
    exact Keeps.refl _ _
  · exact Keeps.refl _ _

theorem linkLoss_keeps (s : State) (p : Nat) : Keeps [.stat, .ports, .events] s (linkLoss s p) := by
  unfold linkLoss
  refine keeps_ite (fun _ => ?_) (fun _ => ?_)
  · refine Keeps.step (judgeRing_keeps ..) rfl ?_
    refine Keeps.step (State.raise_keeps ..) rfl ?_
    refine Keeps.step (State.bump_keeps ..) rfl ?_
    refine Keeps.step (State.stset_keeps ..) rfl ?_
    refine Keeps.step (State.setPort_keeps ..) rfl ?_
    exact Keeps.refl _ _
  · exact Keeps.refl _ _

theorem alternate_keeps (s : State) (p : Nat) : Keeps [.ports] s (alternate s p) := by
  unfold alternate
  refine keeps_ite (fun _ => ?_) (fun _ => ?_)
  · refine Keeps.step (State.setPort_keeps ..) rfl ?_
    exact Keeps.refl _ _
  · exact Keeps.refl _ _

theorem ringStatus_keeps (s : State) : Keeps [.stat] s (ringStatus s) := by
  unfold ringStatus
  refine Keeps.step (State.stset_keeps ..) rfl ?_
  refine Keeps.step (State.stset_keeps ..) rfl ?_
  refine Keeps.step (State.stset_keeps ..) rfl ?_
  exact Keeps.refl _ _

theorem releaseHolds_keeps (s : State) (cause : Nat) : Keeps [.stat, .byp, .events] s (releaseHolds s cause) := by
  unfold releaseHolds
  refine Keeps.step (State.raise_keeps ..) rfl ?_
  refine Keeps.step (judgeRing_keeps ..) rfl ?_
  refine Keeps.step (ringStatus_keeps ..) rfl ?_
  refine keeps_byp rfl ?_
  exact Keeps.refl _ _

theorem sinkHolds_keeps (s : State) : Keeps [.stat, .byp] s (sinkHolds s) := by
  unfold sinkHolds
  refine keeps_ite (fun _ => ?_) (fun _ => ?_)
  · refine Keeps.step (ringStatus_keeps ..) rfl ?_
    refine keeps_byp rfl ?_
    exact Keeps.refl _ _
  · exact Keeps.refl _ _

theorem setEn_keeps (s : State) : Keeps [.stat, .byp] s (setEn s) := by
  unfold setEn
  refine keeps_ite (fun _ => ?_) (fun _ => ?_)
  · exact Keeps.refl _ _
  · refine Keeps.step (sinkHolds_keeps ..) rfl ?_
    refine keeps_byp rfl ?_
    exact Keeps.refl _ _

theorem clearEn_keeps (s : State) (cause : Nat) : Keeps [.stat, .byp, .events] s (clearEn s cause) := by
  unfold clearEn
  refine keeps_ite (fun _ => ?_) (fun _ => ?_)
  · refine Keeps.step (releaseHolds_keeps ..) rfl ?_
    exact Keeps.refl _ _
  · refine keeps_byp rfl ?_
    exact Keeps.refl _ _

theorem bypassTick_keeps (s : State) (fed : Bool) : Keeps [.stat, .byp, .events] s (bypassTick s fed) := by
  unfold bypassTick
  dsimp only
  refine keeps_ite (fun _ => ?_) (fun _ => ?_)
  · refine Keeps.step (releaseHolds_keeps ..) rfl ?_
    refine keeps_byp rfl ?_
    exact Keeps.refl _ _
  · refine Keeps.step (sinkHolds_keeps ..) rfl ?_
    refine keeps_byp rfl ?_
    exact Keeps.refl _ _

theorem rejoin_keeps (s : State) : Keeps [.stat, .byp] s (rejoin s) := by
  unfold rejoin
  refine keeps_ite (fun _ => ?_) (fun _ => ?_)
  · refine Keeps.step (setEn_keeps ..) rfl ?_
    exact Keeps.refl _ _
  · exact Keeps.refl _ _

theorem settleEnd_keeps (s : State) : Keeps [.stat, .byp, .events] s (settleEnd s) := by
  unfold settleEnd
  refine keeps_ite (fun _ => ?_) (fun _ => ?_)
  · refine Keeps.step (judgeRing_keeps ..) rfl ?_
    refine Keeps.step (ringStatus_keeps ..) rfl ?_
    refine keeps_byp rfl ?_
    exact Keeps.refl _ _
  · exact Keeps.refl _ _

theorem ringApply_keeps (s : State) (v : Nat) : Keeps [.dict, .stat, .byp, .events] s (ringApply s v) := by
  unfold ringApply
  dsimp only
  refine keeps_ite (fun _ => ?_) (fun _ => ?_)
  · refine Keeps.step (setEn_keeps ..) rfl ?_
    refine Keeps.step (State.put_keeps ..) rfl ?_
    exact Keeps.refl _ _
  · refine Keeps.step (clearEn_keeps ..) rfl ?_
    refine Keeps.step (State.put_keeps ..) rfl ?_
    exact Keeps.refl _ _

theorem bypEnWrite_keeps (s : State) (v : Bool) : Keeps [.stat, .byp, .events] s (bypEnWrite s v) := by
  unfold bypEnWrite
  refine keeps_ite (fun _ => ?_) (fun _ => ?_)
  · refine Keeps.step (setEn_keeps ..) rfl ?_
    exact Keeps.refl _ _
  · refine Keeps.step (clearEn_keeps ..) rfl ?_
    exact Keeps.refl _ _

theorem bypFeed_keeps (s : State) : Keeps [.byp] s (bypFeed s) := by
  unfold bypFeed
  refine keeps_ite (fun _ => ?_) (fun _ => ?_)
  · exact Keeps.refl _ _
  · refine keeps_byp rfl ?_
    exact Keeps.refl _ _

theorem brownout_keeps (s : State) (vin : Nat) : Keeps [.power, .stat, .byp, .events] s (brownout s vin) := by
  unfold brownout
  refine keeps_ite (fun _ => ?_) (fun _ => ?_)
  · refine keeps_power rfl ?_
    exact Keeps.refl _ _
  · refine keeps_ite (fun _ => ?_) (fun _ => ?_)
    · refine Keeps.step (releaseHolds_keeps ..) rfl ?_
      refine keeps_power rfl ?_
      refine keeps_power rfl ?_
      exact Keeps.refl _ _
    · refine keeps_power rfl ?_
      refine keeps_power rfl ?_
      exact Keeps.refl _ _

theorem brownoutEnd_keeps (s : State) (vin : Nat) : Keeps [.power, .stat, .byp] s (brownoutEnd s vin) := by
  unfold brownoutEnd
  dsimp only
  refine keeps_ite (fun _ => ?_) (fun _ => ?_)
  · refine Keeps.step (sinkHolds_keeps ..) rfl ?_
    refine keeps_power rfl ?_
    exact Keeps.refl _ _
  · refine keeps_power rfl ?_
    exact Keeps.refl _ _

theorem forwardFrame_keeps (s : State) (p : Nat) (f : RingFrame) (bad : Bool) : Keeps [.stat, .out] s (forwardFrame s p
    f bad) := by
  unfold forwardFrame
  refine keeps_ite (fun _ => ?_) (fun _ => ?_)
  · refine Keeps.step (State.bump_keeps ..) rfl ?_
    refine Keeps.step (State.send_keeps ..) rfl ?_
    exact Keeps.refl _ _
  · exact Keeps.refl _ _

theorem deliverFrame_keeps (s : State) (f : RingFrame) (bad : Bool) : Keeps [.out] s (deliverFrame s f bad) := by
  unfold deliverFrame
  refine keeps_ite (fun _ => ?_) (fun _ => ?_)
  · exact Keeps.refl _ _
  · refine Keeps.step (State.send_keeps ..) rfl ?_
    exact Keeps.refl _ _

theorem answerFrame_keeps (s : State) (p : Nat) (f : RingFrame) (bad : Bool) : Keeps [.stat, .out] s (answerFrame s p f
    bad) := by
  unfold answerFrame
  dsimp only
  refine keeps_ite (fun _ => ?_) (fun _ => ?_)
  · exact Keeps.refl _ _
  · split
    · refine keeps_ite (fun _ => ?_) (fun _ => ?_)
      · refine Keeps.step (State.sendPort_keeps ..) rfl ?_
        exact Keeps.refl _ _
      · exact Keeps.refl _ _
    · refine keeps_ite (fun _ => ?_) (fun _ => ?_)
      · refine Keeps.step (State.sendPort_keeps ..) rfl ?_
        exact Keeps.refl _ _
      · exact Keeps.refl _ _
    · exact Keeps.refl _ _

theorem countFrameErrors_keeps (s : State) (p : Nat) (f : RingFrame) : Keeps [.stat] s (countFrameErrors s p f) := by
  unfold countFrameErrors
  refine keeps_ite (fun _ => ?_) (fun _ => ?_)
  · refine Keeps.step (State.bump_keeps ..) rfl ?_
    refine keeps_ite (fun _ => ?_) (fun _ => ?_)
    · exact Keeps.refl _ _
    · refine Keeps.step (State.bump_keeps ..) rfl ?_
      exact Keeps.refl _ _
  · refine keeps_ite (fun _ => ?_) (fun _ => ?_)
    · exact Keeps.refl _ _
    · refine Keeps.step (State.bump_keeps ..) rfl ?_
      exact Keeps.refl _ _

theorem ptpFrame_keeps (s : State) (p : Nat) (f : RingFrame) (source mtype seqId : Nat) (bad : Bool) : Keeps [.stat,
    .seen, .out] s (ptpFrame s p f source mtype seqId bad) := by
  unfold ptpFrame
  refine keeps_ite (fun _ => ?_) (fun _ => ?_)
  · refine keeps_seen rfl ?_
    exact Keeps.refl _ _
  · refine Keeps.step (deliverFrame_keeps ..) rfl ?_
    refine keeps_ite (fun _ => ?_) (fun _ => ?_)
    · refine keeps_seen rfl ?_
      exact Keeps.refl _ _
    · refine Keeps.step (forwardFrame_keeps ..) rfl ?_
      refine keeps_seen rfl ?_
      exact Keeps.refl _ _

theorem ringFrame_keeps (s0 : State) (p : Nat) (f : RingFrame) : Keeps [.stat, .seen, .out] s0 (ringFrame s0 p f) := by
  unfold ringFrame
  dsimp only
  refine keeps_ite (fun _ => ?_) (fun _ => ?_)
  · refine Keeps.step (State.heard_keeps ..) rfl ?_
    exact Keeps.refl _ _
  · refine keeps_ite (fun _ => ?_) (fun _ => ?_)
    · refine Keeps.step (State.bump_keeps ..) rfl ?_
      refine Keeps.step (State.heard_keeps ..) rfl ?_
      exact Keeps.refl _ _
    · refine keeps_ite (fun _ => ?_) (fun _ => ?_)
      · refine Keeps.step (deliverFrame_keeps ..) rfl ?_
        refine Keeps.step (countFrameErrors_keeps ..) rfl ?_
        refine Keeps.step (State.heard_keeps ..) rfl ?_
        exact Keeps.refl _ _
      · split
        · refine keeps_ite (fun _ => ?_) (fun _ => ?_)
          · refine Keeps.step (answerFrame_keeps ..) rfl ?_
            refine Keeps.step (deliverFrame_keeps ..) rfl ?_
            refine keeps_ite (fun _ => ?_) (fun _ => ?_)
            · refine Keeps.step (countFrameErrors_keeps ..) rfl ?_
              refine Keeps.step (State.heard_keeps ..) rfl ?_
              exact Keeps.refl _ _
            · refine Keeps.step (forwardFrame_keeps ..) rfl ?_
              refine Keeps.step (countFrameErrors_keeps ..) rfl ?_
              refine Keeps.step (State.heard_keeps ..) rfl ?_
              exact Keeps.refl _ _
          · refine keeps_ite (fun _ => ?_) (fun _ => ?_)
            · refine Keeps.step (countFrameErrors_keeps ..) rfl ?_
              refine Keeps.step (State.heard_keeps ..) rfl ?_
              exact Keeps.refl _ _
            · refine Keeps.step (forwardFrame_keeps ..) rfl ?_
              refine Keeps.step (countFrameErrors_keeps ..) rfl ?_
              refine Keeps.step (State.heard_keeps ..) rfl ?_
              exact Keeps.refl _ _
        · refine Keeps.step (ptpFrame_keeps ..) rfl ?_
          refine Keeps.step (countFrameErrors_keeps ..) rfl ?_
          refine Keeps.step (State.heard_keeps ..) rfl ?_
          exact Keeps.refl _ _
        · refine keeps_ite (fun _ => ?_) (fun _ => ?_)
          · refine Keeps.step (answerFrame_keeps ..) rfl ?_
            refine Keeps.step (deliverFrame_keeps ..) rfl ?_
            refine Keeps.step (countFrameErrors_keeps ..) rfl ?_
            refine Keeps.step (State.heard_keeps ..) rfl ?_
            exact Keeps.refl _ _
          · refine Keeps.step (countFrameErrors_keeps ..) rfl ?_
            refine Keeps.step (State.heard_keeps ..) rfl ?_
            exact Keeps.refl _ _

theorem execRingFrameReceived_keeps (at_ port : Nat) (frame : RingFrame) (s : State) (t : State) (h :
    execRingFrameReceived at_ port frame s = .next t) : Keeps [.clk, .time, .stat, .seen, .events, .out] s t := by
  unfold execRingFrameReceived at h
  refine keeps_done h ?_
  refine keeps_ite (fun _ => ?_) (fun _ => ?_)
  · refine Keeps.step (ringFrame_keeps ..) rfl ?_
    refine Keeps.step (State.elapse_keeps ..) rfl ?_
    exact Keeps.refl _ _
  · refine Keeps.step (State.elapse_keeps ..) rfl ?_
    exact Keeps.refl _ _

theorem execLinkLock_keeps (port mode : Nat) (s : State) (t : State) (h : execLinkLock port mode s = .next t) : Keeps
    [.stat, .ports, .events] s t := by
  unfold execLinkLock at h
  refine keeps_done h ?_
  refine keeps_ite (fun _ => ?_) (fun _ => ?_)
  · refine Keeps.step (linkLock_keeps ..) rfl ?_
    exact Keeps.refl _ _
  · exact Keeps.refl _ _

theorem execLinkLoss_keeps (port : Nat) (s : State) (t : State) (h : execLinkLoss port s = .next t) : Keeps [.stat,
    .ports, .events] s t := by
  unfold execLinkLoss at h
  refine keeps_done h ?_
  refine keeps_ite (fun _ => ?_) (fun _ => ?_)
  · refine Keeps.step (linkLoss_keeps ..) rfl ?_
    exact Keeps.refl _ _
  · exact Keeps.refl _ _

theorem execLineModeAlternate_keeps (port : Nat) (s : State) (t : State) (h : execLineModeAlternate port s = .next t) :
    Keeps [.ports] s t := by
  unfold execLineModeAlternate at h
  refine keeps_done h ?_
  refine Keeps.step (alternate_keeps ..) rfl ?_
  exact Keeps.refl _ _

theorem execSfpModuleAbsentOrFault_keeps (port : Nat) (absent fault : Bool) (s : State) (t : State) (h :
    execSfpModuleAbsentOrFault port absent fault s = .next t) : Keeps [.stat, .ports, .events] s t := by
  unfold execSfpModuleAbsentOrFault at h
  refine keeps_done h ?_
  refine keeps_ite (fun _ => ?_) (fun _ => ?_)
  · refine keeps_ite (fun _ => ?_) (fun _ => ?_)
    · refine Keeps.step (linkLoss_keeps ..) rfl ?_
      refine Keeps.step (State.setPort_keeps ..) rfl ?_
      exact Keeps.refl _ _
    · refine Keeps.step (State.setPort_keeps ..) rfl ?_
      exact Keeps.refl _ _
  · exact Keeps.refl _ _

theorem execBypassDeadmanStarved_keeps (s : State) (t : State) (h : execBypassDeadmanStarved s = .next t) : Keeps
    [.stat, .byp, .events] s t := by
  unfold execBypassDeadmanStarved at h
  refine keeps_done h ?_
  refine keeps_ite (fun _ => ?_) (fun _ => ?_)
  · refine Keeps.step (releaseHolds_keeps ..) rfl ?_
    exact Keeps.refl _ _
  · exact Keeps.refl _ _

theorem execAutomaticRejoin_keeps (s : State) (t : State) (h : execAutomaticRejoin s = .next t) : Keeps [.stat, .byp] s
    t := by
  unfold execAutomaticRejoin at h
  refine keeps_done h ?_
  refine Keeps.step (rejoin_keeps ..) rfl ?_
  exact Keeps.refl _ _

theorem execSettleTimeEnd_keeps (s : State) (t : State) (h : execSettleTimeEnd s = .next t) : Keeps [.stat, .byp,
    .events] s t := by
  unfold execSettleTimeEnd at h
  refine keeps_done h ?_
  refine Keeps.step (settleEnd_keeps ..) rfl ?_
  exact Keeps.refl _ _

theorem execBypCtrlEnWrite_keeps (value : Bool) (s : State) (t : State) (h : execBypCtrlEnWrite value s = .next t) :
    Keeps [.stat, .byp, .events] s t := by
  unfold execBypCtrlEnWrite at h
  refine keeps_done h ?_
  refine Keeps.step (bypEnWrite_keeps ..) rfl ?_
  exact Keeps.refl _ _

theorem execBypCtrlFeed_keeps (s : State) (t : State) (h : execBypCtrlFeed s = .next t) : Keeps [.byp] s t := by
  unfold execBypCtrlFeed at h
  refine keeps_done h ?_
  refine Keeps.step (bypFeed_keeps ..) rfl ?_
  exact Keeps.refl _ _

theorem execRingParticipation_keeps (value : Nat) (s : State) (t : State) (h : execRingParticipation value s = .next t)
    : Keeps [.dict, .stat, .byp, .events] s t := by
  unfold execRingParticipation at h
  refine keeps_done h ?_
  refine State.attempt_keeps _ _ _ _ rfl ?_
  refine Keeps.step (ringApply_keeps ..) rfl ?_
  exact Keeps.refl _ _

end Sys2Proof.Machine
end

