-- ==== Sys2Proof/Laws/KeepsStreams.lean ====
section
/-! SUPPORT. The parts of the state that each function of Machine/Streams.lean may change. -/
set_option linter.unreachableTactic false
set_option linter.unusedTactic false

namespace Sys2Proof.Machine

theorem setRx_keeps (s : State) (i : Nat) (v : RxSlot) : Keeps [.rx] s (setRx s i v) := by
  unfold setRx
  refine keeps_rx rfl ?_
  exact Keeps.refl _ _

theorem takeContents_keeps (s : State) (i k : Nat) (p : List Byte) : Keeps [.stat, .pipe, .rx, .events] s (takeContents
    s i k p) := by
  unfold takeContents
  dsimp only
  split
  · refine Keeps.step (takeRecords_keeps ..) rfl ?_
    exact Keeps.refl _ _
  · refine Keeps.step (setRx_keeps ..) rfl ?_
    exact Keeps.refl _ _
  · refine Keeps.step (setRx_keeps ..) rfl ?_
    exact Keeps.refl _ _

theorem takeCopy_keeps (s : State) (i : Nat) (c : RxCopy) (p : List Byte) (margin : Int) : Keeps [.stat, .pipe, .rx,
    .twin, .events] s (takeCopy s i c p margin) := by
  unfold takeCopy
  refine Keeps.step (takeContents_keeps ..) rfl ?_
  refine keeps_ite (fun _ => ?_) (fun _ => ?_)
  · refine Keeps.step (State.mark_keeps ..) rfl ?_
    refine Keeps.step (State.bump_keeps ..) rfl ?_
    refine Keeps.step (State.bump_keeps ..) rfl ?_
    refine Keeps.step (setRx_keeps ..) rfl ?_
    exact Keeps.refl _ _
  · refine Keeps.step (State.bump_keeps ..) rfl ?_
    refine Keeps.step (State.bump_keeps ..) rfl ?_
    refine Keeps.step (setRx_keeps ..) rfl ?_
    exact Keeps.refl _ _

theorem duplicate_keeps (s : State) (i : Nat) (c q : RxCopy) : Keeps [.stat, .rx, .events] s (duplicate s i c q) := by
  unfold duplicate
  refine keeps_ite (fun _ => ?_) (fun _ => ?_)
  · refine Keeps.step (State.raise_keeps ..) rfl ?_
    refine Keeps.step (State.bump_keeps ..) rfl ?_
    refine Keeps.step (setRx_keeps ..) rfl ?_
    refine Keeps.step (State.bump_keeps ..) rfl ?_
    exact Keeps.refl _ _
  · refine Keeps.step (State.bump_keeps ..) rfl ?_
    exact Keeps.refl _ _

theorem rxCopy_keeps (s : State) (d : SMap Nat) (i k : Nat) (p : List Byte) (margin : Int) : Keeps [.stat, .pipe, .rx,
    .twin, .events] s (rxCopy s d i k p margin) := by
  unfold rxCopy
  dsimp only
  split
  · refine Keeps.step (duplicate_keeps ..) rfl ?_
    exact Keeps.refl _ _
  · refine keeps_ite (fun _ => ?_) (fun _ => ?_)
    · refine Keeps.step (takeCopy_keeps ..) rfl ?_
      exact Keeps.refl _ _
    · refine keeps_ite (fun _ => ?_) (fun _ => ?_)
      · refine Keeps.step (State.bump_keeps ..) rfl ?_
        exact Keeps.refl _ _
      · refine Keeps.step (setRx_keeps ..) rfl ?_
        exact Keeps.refl _ _

theorem rxPacket_keeps (s : State) (g : Datagram) (i : Nat) : Keeps [.stat, .pipe, .rx, .twin, .events] s (rxPacket s g
    i) := by
  unfold rxPacket
  refine keeps_ite (fun _ => ?_) (fun _ => ?_)
  · exact Keeps.refl _ _
  · split
    · refine Keeps.step (State.raise_keeps ..) rfl ?_
      refine Keeps.step (State.bump_keeps ..) rfl ?_
      exact Keeps.refl _ _
    · refine Keeps.step (State.raise_keeps ..) rfl ?_
      refine Keeps.step (State.bump_keeps ..) rfl ?_
      exact Keeps.refl _ _
    · refine keeps_ite (fun _ => ?_) (fun _ => ?_)
      · refine Keeps.step (State.bump_keeps ..) rfl ?_
        exact Keeps.refl _ _
      · refine keeps_ite (fun _ => ?_) (fun _ => ?_)
        · refine Keeps.step (State.mark_keeps ..) rfl ?_
          refine Keeps.step (State.raise_keeps ..) rfl ?_
          refine Keeps.step (State.bump_keeps ..) rfl ?_
          refine Keeps.step (State.stset_keeps ..) rfl ?_
          exact Keeps.refl _ _
        · refine Keeps.step (rxCopy_keeps ..) rfl ?_
          refine Keeps.step (State.stset_keeps ..) rfl ?_
          exact Keeps.refl _ _

theorem shadowCutoff_keeps (s : State) (i block : Nat) : Keeps [.stat, .pipe, .rx, .twin, .events] s (shadowCutoff s i
    block) := by
  unfold shadowCutoff
  refine keeps_foldl (fun _ _ _ => ?_) ?_
  · refine keeps_ite (fun _ => ?_) (fun _ => ?_)
    · refine Keeps.step (takeCopy_keeps ..) rfl ?_
      refine Keeps.step (State.bump_keeps ..) rfl ?_
      refine Keeps.step (setRx_keeps ..) rfl ?_
      assumption
    · assumption
  · exact Keeps.refl _ _

theorem rxCommitSlot_keeps (s : State) (first : Bool) (acc : State × SMap (List Int)) (i : Nat) : Keeps [.stat, .rx,
    .events] acc.1 (rxCommitSlot s first acc i).1 := by
  unfold rxCommitSlot
  refine keeps_ite (fun _ => ?_) (fun _ => ?_)
  · refine keeps_ite (fun _ => ?_) (fun _ => ?_)
    · refine Keeps.step (State.bump_keeps ..) rfl ?_
      refine Keeps.step (setRx_keeps ..) rfl ?_
      exact Keeps.refl _ _
    · refine Keeps.step (State.raise_keeps ..) rfl ?_
      refine Keeps.step (State.bump_keeps ..) rfl ?_
      refine Keeps.step (setRx_keeps ..) rfl ?_
      exact Keeps.refl _ _
  · refine Keeps.step (setRx_keeps ..) rfl ?_
    exact Keeps.refl _ _

theorem rxCommit_keeps (s : State) (first : Bool) : Keeps [.stat, .rx, .events] s (rxCommit s first).1 := by
  unfold rxCommit
  refine keeps_foldl_fst (fun _ _ _ => ?_) ?_
  · refine Keeps.step (rxCommitSlot_keeps ..) rfl ?_
    assumption
  · exact Keeps.refl _ _

theorem rxSweep_keeps (s : State) : Keeps [.stat, .rx] s (rxSweep s) := by
  unfold rxSweep
  dsimp only
  refine keeps_foldl (fun _ _ _ => ?_) ?_
  · refine Keeps.step (State.stset_keeps ..) rfl ?_
    assumption
  · refine keeps_foldl (fun _ _ _ => ?_) ?_
    · refine Keeps.step (setRx_keeps ..) rfl ?_
      assumption
    · exact Keeps.refl _ _

theorem slotChangeApply_keeps (s : State) (transmit : Bool) (i sub : Nat) (v : Val) : Keeps [.dict, .dom] s
    (slotChangeApply s transmit i sub v) := by
  unfold slotChangeApply
  dsimp only
  split
  · refine Keeps.step (State.put_keeps ..) rfl ?_
    exact Keeps.refl _ _
  · refine keeps_ite (fun _ => ?_) (fun _ => ?_)
    · exact Keeps.refl _ _
    · refine Keeps.step (State.putBytes_keeps ..) rfl ?_
      exact Keeps.refl _ _

theorem execStreamPacketReceived_keeps (at_ port : Nat) (dgram : Datagram) (s : State) (t : State) (h :
    execStreamPacketReceived at_ port dgram s = .next t) : Keeps [.clk, .time, .stat, .pipe, .rx, .twin, .events] s t :=
    by
  unfold execStreamPacketReceived at h
  refine keeps_done h ?_
  refine keeps_ite (fun _ => ?_) (fun _ => ?_)
  · refine keeps_foldl (fun _ _ _ => ?_) ?_
    · refine Keeps.step (rxPacket_keeps ..) rfl ?_
      assumption
    · refine Keeps.step (State.elapse_keeps ..) rfl ?_
      exact Keeps.refl _ _
  · refine Keeps.step (State.elapse_keeps ..) rfl ?_
    exact Keeps.refl _ _

theorem execShadowCutoff_keeps (slot block : Nat) (s : State) (t : State) (h : execShadowCutoff slot block s = .next t)
    : Keeps [.clk, .time, .stat, .pipe, .rx, .twin, .events] s t := by
  unfold execShadowCutoff at h
  refine keeps_done h ?_
  refine keeps_ite (fun _ => ?_) (fun _ => ?_)
  · refine keeps_ite (fun _ => ?_) (fun _ => ?_)
    · refine Keeps.step (shadowCutoff_keeps ..) rfl ?_
      refine Keeps.step (State.elapse_keeps ..) rfl ?_
      exact Keeps.refl _ _
    · refine Keeps.step (State.elapse_keeps ..) rfl ?_
      exact Keeps.refl _ _
  · exact Keeps.refl _ _

theorem execSlotChannelChange_keeps (transmit : Bool) (slot sub : Nat) (value : Val) (s : State) (t : State) (h :
    execSlotChannelChange transmit slot sub value s = .next t) : Keeps [.dict, .dom, .stat] s t := by
  unfold execSlotChannelChange at h
  refine keeps_done h ?_
  refine State.attempt_keeps _ _ _ _ rfl ?_
  refine Keeps.step (slotChangeApply_keeps ..) rfl ?_
  exact Keeps.refl _ _

theorem execClearSlotStatistics_keeps (slot value : Nat) (s : State) (t : State) (h : execClearSlotStatistics slot value
    s = .next t) : Keeps [.stat, .todo] s t := by
  unfold execClearSlotStatistics at h
  refine keeps_done h ?_
  refine State.attempt_keeps _ _ _ _ rfl ?_
  refine keeps_ite (fun _ => ?_) (fun _ => ?_)
  · refine keeps_todo rfl ?_
    exact Keeps.refl _ _
  · exact Keeps.refl _ _

end Sys2Proof.Machine
end

