-- ==== Sys2Proof/Laws/KeepsPorts.lean ====
section
/-! SUPPORT. The parts of the state that each function of Machine/Ports.lean may change. -/
set_option linter.unreachableTactic false
set_option linter.unusedTactic false

namespace Sys2Proof.Machine

theorem setAes_keeps (s : State) (i : Nat) (v : AesIn) : Keeps [.aesIn] s (setAes s i v) := by
  unfold setAes
  refine keeps_aesIn rfl ?_
  exact Keeps.refl _ _

theorem aesLose_keeps (s : State) (i : Nat) : Keeps [.aesIn] s (aesLose s i) := by
  unfold aesLose
  refine Keeps.step (setAes_keeps ..) rfl ?_
  exact Keeps.refl _ _

theorem aesReport_keeps (s : State) (i : Nat) (missing : Bool) : Keeps [.aesIn, .events] s (aesReport s i missing) := by
  unfold aesReport
  dsimp only
  refine keeps_ite (fun _ => ?_) (fun _ => ?_)
  · refine Keeps.step (setAes_keeps ..) rfl ?_
    exact Keeps.refl _ _
  · refine keeps_ite (fun _ => ?_) (fun _ => ?_)
    · exact Keeps.refl _ _
    · refine keeps_ite (fun _ => ?_) (fun _ => ?_)
      · refine Keeps.step (State.enter_keeps ..) rfl ?_
        refine Keeps.step (setAes_keeps ..) rfl ?_
        exact Keeps.refl _ _
      · refine Keeps.step (State.raise_keeps ..) rfl ?_
        refine Keeps.step (setAes_keeps ..) rfl ?_
        exact Keeps.refl _ _

theorem storeStatus_keeps (s : State) (i sub : Nat) (bits : List Bool) : Keeps [.dom, .stat, .events] s (storeStatus s i
    sub bits) := by
  unfold storeStatus
  refine keeps_ite (fun _ => ?_) (fun _ => ?_)
  · refine Keeps.step (State.raise_keeps ..) rfl ?_
    refine Keeps.step (State.bump_keeps ..) rfl ?_
    exact Keeps.refl _ _
  · refine Keeps.step (State.putBytes_keeps ..) rfl ?_
    exact Keeps.refl _ _

theorem nonAudioSeen_keeps (s : State) (i : Nat) : Keeps [.stat, .aesIn, .events] s (nonAudioSeen s i) := by
  unfold nonAudioSeen
  refine keeps_ite (fun _ => ?_) (fun _ => ?_)
  · exact Keeps.refl _ _
  · refine Keeps.step (State.enter_keeps ..) rfl ?_
    refine Keeps.step (State.bump_keeps ..) rfl ?_
    refine Keeps.step (setAes_keeps ..) rfl ?_
    exact Keeps.refl _ _

theorem statusBits_keeps (s : State) (i : Nat) (f : AesFrame) : Keeps [.dom, .stat, .aesIn, .events] s (statusBits s i
    f) := by
  unfold statusBits
  refine keeps_ite (fun _ => ?_) (fun _ => ?_)
  · exact Keeps.refl _ _
  · refine keeps_ite (fun _ => ?_) (fun _ => ?_)
    · refine Keeps.step (setAes_keeps ..) rfl ?_
      exact Keeps.refl _ _
    · refine keeps_ite (fun _ => ?_) (fun _ => ?_)
      · refine Keeps.step (nonAudioSeen_keeps ..) rfl ?_
        refine Keeps.step (State.putBytes_keeps ..) rfl ?_
        refine Keeps.step (storeStatus_keeps ..) rfl ?_
        refine Keeps.step (storeStatus_keeps ..) rfl ?_
        refine Keeps.step (setAes_keeps ..) rfl ?_
        exact Keeps.refl _ _
      · refine Keeps.step (State.putBytes_keeps ..) rfl ?_
        refine Keeps.step (storeStatus_keeps ..) rfl ?_
        refine Keeps.step (storeStatus_keeps ..) rfl ?_
        refine Keeps.step (setAes_keeps ..) rfl ?_
        exact Keeps.refl _ _

theorem burstBits_keeps (s : State) (i : Nat) (f : AesFrame) : Keeps [.stat, .aesIn, .events] s (burstBits s i f) := by
  unfold burstBits
  refine keeps_ite (fun _ => ?_) (fun _ => ?_)
  · refine Keeps.step (setAes_keeps ..) rfl ?_
    refine Keeps.step (nonAudioSeen_keeps ..) rfl ?_
    exact Keeps.refl _ _
  · refine Keeps.step (setAes_keeps ..) rfl ?_
    exact Keeps.refl _ _

theorem nonAudioEnd_keeps (s : State) (i : Nat) : Keeps [.aesIn, .events] s (nonAudioEnd s i) := by
  unfold nonAudioEnd
  refine keeps_ite (fun _ => ?_) (fun _ => ?_)
  · refine Keeps.step (State.leave_keeps ..) rfl ?_
    refine Keeps.step (setAes_keeps ..) rfl ?_
    exact Keeps.refl _ _
  · exact Keeps.refl _ _

theorem aesDecide_keeps (s : State) (i : Nat) (phi : Int) (anchor q rho : Nat) : Keeps [.stat, .aesIn, .out] s
    (aesDecide s i phi anchor q rho) := by
  unfold aesDecide
  dsimp only
  refine keeps_ite (fun _ => ?_) (fun _ => ?_)
  · refine Keeps.step (State.sendPort_keeps ..) rfl ?_
    refine Keeps.step (setAes_keeps ..) rfl ?_
    exact Keeps.refl _ _
  · refine Keeps.step (setAes_keeps ..) rfl ?_
    exact Keeps.refl _ _

theorem syncFrame_keeps (s : State) (i : Nat) (t : Int) (flagA flagB : Nat) : Keeps [.stat, .aesIn, .out] s (syncFrame s
    i t flagA flagB) := by
  unfold syncFrame
  dsimp only
  split
  · refine keeps_ite (fun _ => ?_) (fun _ => ?_)
    · refine Keeps.step (aesLose_keeps ..) rfl ?_
      exact Keeps.refl _ _
    · refine Keeps.step (setAes_keeps ..) rfl ?_
      exact Keeps.refl _ _
  · refine keeps_ite (fun _ => ?_) (fun _ => ?_)
    · refine Keeps.step (aesDecide_keeps ..) rfl ?_
      refine Keeps.step (setAes_keeps ..) rfl ?_
      exact Keeps.refl _ _
    · refine Keeps.step (setAes_keeps ..) rfl ?_
      exact Keeps.refl _ _

theorem asyncFrame_keeps (s : State) (i : Nat) (t : Int) : Keeps [.stat, .aesIn, .out] s (asyncFrame s i t) := by
  unfold asyncFrame
  refine keeps_ite (fun _ => ?_) (fun _ => ?_)
  · refine Keeps.step (aesDecide_keeps ..) rfl ?_
    refine Keeps.step (setAes_keeps ..) rfl ?_
    exact Keeps.refl _ _
  · refine Keeps.step (setAes_keeps ..) rfl ?_
    exact Keeps.refl _ _

theorem aesFrame_keeps (s0 : State) (i : Nat) (f : AesFrame) : Keeps [.dom, .stat, .aesIn, .events, .out] s0 (aesFrame
    s0 i f) := by
  unfold aesFrame
  refine keeps_ite (fun _ => ?_) (fun _ => ?_)
  · refine Keeps.step (syncFrame_keeps ..) rfl ?_
    refine Keeps.step (burstBits_keeps ..) rfl ?_
    refine Keeps.step (statusBits_keeps ..) rfl ?_
    refine Keeps.step (State.bump_keeps ..) rfl ?_
    refine Keeps.step (setAes_keeps ..) rfl ?_
    refine keeps_ite (fun _ => ?_) (fun _ => ?_)
    · refine Keeps.step (State.leave_keeps ..) rfl ?_
      refine Keeps.step (setAes_keeps ..) rfl ?_
      exact Keeps.refl _ _
    · exact Keeps.refl _ _
  · refine Keeps.step (asyncFrame_keeps ..) rfl ?_
    refine Keeps.step (burstBits_keeps ..) rfl ?_
    refine Keeps.step (statusBits_keeps ..) rfl ?_
    refine Keeps.step (State.bump_keeps ..) rfl ?_
    refine Keeps.step (setAes_keeps ..) rfl ?_
    refine keeps_ite (fun _ => ?_) (fun _ => ?_)
    · refine Keeps.step (State.leave_keeps ..) rfl ?_
      refine Keeps.step (setAes_keeps ..) rfl ?_
      exact Keeps.refl _ _
    · exact Keeps.refl _ _

theorem aesApply_keeps (s : State) (i : Nat) : Keeps [.stat, .aesIn, .twin] s (aesApply s i) := by
  unfold aesApply
  dsimp only
  split
  · exact Keeps.refl _ _
  · refine keeps_ite (fun _ => ?_) (fun _ => ?_)
    · exact Keeps.refl _ _
    · refine keeps_ite (fun _ => ?_) (fun _ => ?_)
      · refine Keeps.step (State.mark_keeps ..) rfl ?_
        refine Keeps.step (State.stset_keeps ..) rfl ?_
        refine Keeps.step (State.stset_keeps ..) rfl ?_
        refine Keeps.step (setAes_keeps ..) rfl ?_
        exact Keeps.refl _ _
      · refine Keeps.step (State.stset_keeps ..) rfl ?_
        refine Keeps.step (State.stset_keeps ..) rfl ?_
        refine Keeps.step (setAes_keeps ..) rfl ?_
        exact Keeps.refl _ _

theorem aesReceive_keeps (s : State) (i : Nat) (v : LockVals) : Keeps [.stat, .aesIn] s (aesReceive s i v) := by
  unfold aesReceive
  refine keeps_ite (fun _ => ?_) (fun _ => ?_)
  · refine Keeps.step (State.heard_keeps ..) rfl ?_
    refine Keeps.step (setAes_keeps ..) rfl ?_
    exact Keeps.refl _ _
  · exact Keeps.refl _ _

theorem decideRho_keeps (s : State) (i rho : Nat) : Keeps [.aesIn] s (decideRho s i rho).1 := by
  unfold decideRho
  dsimp only
  refine Keeps.step (setAes_keeps ..) rfl ?_
  exact Keeps.refl _ _

theorem rhoDecision_keeps (s : State) (i rho : Nat) : Keeps [.stat, .aesIn, .twin, .out] s (rhoDecision s i rho) := by
  unfold rhoDecision
  dsimp only
  refine keeps_ite (fun _ => ?_) (fun _ => ?_)
  · exact Keeps.refl _ _
  · refine keeps_ite (fun _ => ?_) (fun _ => ?_)
    · refine keeps_ite (fun _ => ?_) (fun _ => ?_)
      · refine Keeps.step (State.mark_keeps ..) rfl ?_
        refine Keeps.step (decideRho_keeps ..) rfl ?_
        exact Keeps.refl _ _
      · refine keeps_ite (fun _ => ?_) (fun _ => ?_)
        · refine Keeps.step (State.heard_keeps ..) rfl ?_
          refine Keeps.step (setAes_keeps ..) rfl ?_
          exact Keeps.refl _ _
        · exact Keeps.refl _ _
    · refine keeps_ite (fun _ => ?_) (fun _ => ?_)
      · exact Keeps.refl _ _
      · refine keeps_ite (fun _ => ?_) (fun _ => ?_)
        · refine Keeps.step (State.sendPort_keeps ..) rfl ?_
          refine Keeps.step (decideRho_keeps ..) rfl ?_
          exact Keeps.refl _ _
        · refine Keeps.step (decideRho_keeps ..) rfl ?_
          exact Keeps.refl _ _

theorem rateWindow_keeps (s : State) (i : Nat) : Keeps [.stat, .aesIn, .events] s (rateWindow s i) := by
  unfold rateWindow
  dsimp only
  refine keeps_ite (fun _ => ?_) (fun _ => ?_)
  · exact Keeps.refl _ _
  · refine keeps_ite (fun _ => ?_) (fun _ => ?_)
    · refine Keeps.step (State.stset_keeps ..) rfl ?_
      refine Keeps.step (State.stset_keeps ..) rfl ?_
      refine Keeps.step (setAes_keeps ..) rfl ?_
      exact Keeps.refl _ _
    · refine Keeps.step (State.leave_keeps ..) rfl ?_
      refine Keeps.step (State.stset_keeps ..) rfl ?_
      refine Keeps.step (State.stset_keeps ..) rfl ?_
      refine Keeps.step (setAes_keeps ..) rfl ?_
      exact Keeps.refl _ _

theorem aesNoSignal_keeps (s0 : State) (i : Nat) : Keeps [.clk, .time, .aesIn, .events] s0 (aesNoSignal s0 i) := by
  unfold aesNoSignal
  dsimp only
  refine keeps_ite (fun _ => ?_) (fun _ => ?_)
  · exact Keeps.refl _ _
  · refine Keeps.step (setAes_keeps ..) rfl ?_
    refine Keeps.step (State.elapse_keeps ..) rfl ?_
    exact Keeps.refl _ _

theorem aesModeApply_keeps (s : State) (i v : Nat) : Keeps [.dict, .aesIn, .events] s (aesModeApply s i v) := by
  unfold aesModeApply
  refine keeps_ite (fun _ => ?_) (fun _ => ?_)
  · refine Keeps.step (State.put_keeps ..) rfl ?_
    exact Keeps.refl _ _
  · refine Keeps.step (State.leave_keeps ..) rfl ?_
    refine Keeps.step (State.leave_keeps ..) rfl ?_
    refine Keeps.step (State.leave_keeps ..) rfl ?_
    refine Keeps.step (setAes_keeps ..) rfl ?_
    refine Keeps.step (State.put_keeps ..) rfl ?_
    exact Keeps.refl _ _

theorem aesRho_keeps (s : State) (i : Nat) : Keeps [.stat, .aesIn] s (aesRho s i) := by
  unfold aesRho
  dsimp only
  refine Keeps.step (State.stset_keeps ..) rfl ?_
  refine Keeps.step (setAes_keeps ..) rfl ?_
  exact Keeps.refl _ _

theorem aesTakeSync_keeps (s : State) (i : Nat) : Keeps [.aesIn] s (aesTakeSync s i).1 := by
  unfold aesTakeSync
  split
  · dsimp only
    exact Keeps.refl _ _
  · dsimp only
    refine Keeps.step (aesLose_keeps ..) rfl ?_
    exact Keeps.refl _ _

theorem aesTakeAsync_keeps (s : State) (i : Nat) : Keeps [.stat, .aesIn] s (aesTakeAsync s i).1 := by
  unfold aesTakeAsync
  dsimp only
  split
  · dsimp only
    refine Keeps.step (State.stset_keeps ..) rfl ?_
    refine Keeps.step (setAes_keeps ..) rfl ?_
    exact Keeps.refl _ _
  · dsimp only
    refine Keeps.step (State.bump_keeps ..) rfl ?_
    refine Keeps.step (setAes_keeps ..) rfl ?_
    exact Keeps.refl _ _

theorem aesTake_keeps (s : State) (i : Nat) : Keeps [.stat, .aesIn] s (aesTake s i).1 := by
  unfold aesTake
  split
  · dsimp only
    exact Keeps.refl _ _
  · split
    · refine Keeps.step (aesTakeSync_keeps ..) rfl ?_
      exact Keeps.refl _ _
    · refine Keeps.step (aesTakeAsync_keeps ..) rfl ?_
      exact Keeps.refl _ _

theorem aesFade_keeps (s : State) (i : Nat) (a b : Option (List Int)) (ins : SMap (List Int)) : Keeps [.aesIn] s
    (aesFade s i a b ins).1 := by
  unfold aesFade
  dsimp only
  split
  · dsimp only
    refine Keeps.step (setAes_keeps ..) rfl ?_
    exact Keeps.refl _ _
  · dsimp only
    refine Keeps.step (setAes_keeps ..) rfl ?_
    exact Keeps.refl _ _

theorem aesCommitOne_keeps (acc : State × SMap (List Int)) (i : Nat) : Keeps [.stat, .aesIn, .events] acc.1
    (aesCommitOne acc i).1 := by
  unfold aesCommitOne
  dsimp only
  refine Keeps.step (aesFade_keeps ..) rfl ?_
  refine Keeps.step (aesReport_keeps ..) rfl ?_
  refine Keeps.step (aesTake_keeps ..) rfl ?_
  refine Keeps.step (aesRho_keeps ..) rfl ?_
  exact Keeps.refl _ _

theorem aesCommit_keeps (acc : State × SMap (List Int)) : Keeps [.stat, .aesIn, .events] acc.1 (aesCommit acc).1 := by
  unfold aesCommit
  refine keeps_foldl_fst (fun _ _ _ => ?_) ?_
  · refine Keeps.step (aesCommitOne_keeps ..) rfl ?_
    assumption
  · exact Keeps.refl _ _

theorem aesSweep_keeps (s : State) : Keeps [.stat, .aesIn] s (aesSweep s) := by
  unfold aesSweep
  refine keeps_foldl (fun _ _ _ => ?_) ?_
  · refine Keeps.step (State.stset_keeps ..) rfl ?_
    refine Keeps.step (setAes_keeps ..) rfl ?_
    assumption
  · exact Keeps.refl _ _

theorem setPdm_keeps (s : State) (m : Nat) (v : PdmIn) : Keeps [.pdm] s (setPdm s m v) := by
  unfold setPdm
  refine keeps_pdm rfl ?_
  exact Keeps.refl _ _

theorem pdmTick_keeps (s : State) (m : Nat) (bits : List Bool) : Keeps [.pdm] s (pdmTick s m bits) := by
  unfold pdmTick
  refine Keeps.step (setPdm_keeps ..) rfl ?_
  exact Keeps.refl _ _

theorem pdmStick_keeps (s : State) (m : Nat) : Keeps [.stat, .pdm] s (pdmStick s m) := by
  unfold pdmStick
  dsimp only
  refine keeps_ite (fun _ => ?_) (fun _ => ?_)
  · refine Keeps.step (State.bump_keeps ..) rfl ?_
    refine Keeps.step (setPdm_keeps ..) rfl ?_
    exact Keeps.refl _ _
  · exact Keeps.refl _ _

theorem pdmUnstick_keeps (s : State) (m : Nat) : Keeps [.pdm, .events] s (pdmUnstick s m) := by
  unfold pdmUnstick
  refine keeps_ite (fun _ => ?_) (fun _ => ?_)
  · refine Keeps.step (State.leave_keeps ..) rfl ?_
    refine Keeps.step (setPdm_keeps ..) rfl ?_
    exact Keeps.refl _ _
  · exact Keeps.refl _ _

theorem pdmIdle_keeps (s : State) (given : List (Nat × List Bool)) : Keeps [.stat, .pdm, .events] s (pdmIdle s given) :=
    by
  unfold pdmIdle
  refine keeps_foldl (fun _ _ _ => ?_) ?_
  · split
    · refine keeps_ite (fun _ => ?_) (fun _ => ?_)
      · refine Keeps.step (pdmUnstick_keeps ..) rfl ?_
        refine Keeps.step (pdmStick_keeps ..) rfl ?_
        refine Keeps.step (pdmTick_keeps ..) rfl ?_
        assumption
      · assumption
    · assumption
  · exact Keeps.refl _ _

theorem pdmReport_keeps (s : State) (m : Nat) : Keeps [.pdm, .events] s (pdmReport s m) := by
  unfold pdmReport
  dsimp only
  refine keeps_ite (fun _ => ?_) (fun _ => ?_)
  · refine Keeps.step (State.enter_keeps ..) rfl ?_
    refine Keeps.step (setPdm_keeps ..) rfl ?_
    exact Keeps.refl _ _
  · exact Keeps.refl _ _

theorem pdmCommitOne_keeps (given : List (Nat × List Bool)) (acc : State × SMap (List Int)) (m : Nat) : Keeps [.stat,
    .pdm, .events] acc.1 (pdmCommitOne given acc m).1 := by
  unfold pdmCommitOne
  split
  dsimp only
  refine keeps_ite (fun _ => ?_) (fun _ => ?_)
  · refine Keeps.step (pdmUnstick_keeps ..) rfl ?_
    refine Keeps.step (pdmStick_keeps ..) rfl ?_
    refine Keeps.step (pdmTick_keeps ..) rfl ?_
    refine Keeps.step (pdmReport_keeps ..) rfl ?_
    refine Keeps.step (setPdm_keeps ..) rfl ?_
    exact Keeps.refl _ _
  · refine Keeps.step (pdmReport_keeps ..) rfl ?_
    refine Keeps.step (setPdm_keeps ..) rfl ?_
    exact Keeps.refl _ _

theorem pdmCommit_keeps (given : List (Nat × List Bool)) (acc : State × SMap (List Int)) : Keeps [.stat, .pdm, .events]
    acc.1 (pdmCommit given acc).1 := by
  unfold pdmCommit
  refine keeps_foldl_fst (fun _ _ _ => ?_) ?_
  · refine Keeps.step (pdmCommitOne_keeps ..) rfl ?_
    assumption
  · exact Keeps.refl _ _

theorem pdmSweep_keeps (s : State) : Keeps [.stat] s (pdmSweep s) := by
  unfold pdmSweep
  refine keeps_foldl (fun _ _ _ => ?_) ?_
  · refine Keeps.step (State.stset_keeps ..) rfl ?_
    assumption
  · exact Keeps.refl _ _

theorem pdmEnableApply_keeps (s : State) (m v : Nat) : Keeps [.dict, .stat, .pdm, .events] s (pdmEnableApply s m v) :=
    by
  unfold pdmEnableApply
  refine keeps_ite (fun _ => ?_) (fun _ => ?_)
  · refine Keeps.step (State.stset_keeps ..) rfl ?_
    refine Keeps.step (setPdm_keeps ..) rfl ?_
    refine Keeps.step (State.put_keeps ..) rfl ?_
    exact Keeps.refl _ _
  · refine keeps_ite (fun _ => ?_) (fun _ => ?_)
    · refine Keeps.step (State.leave_keeps ..) rfl ?_
      refine Keeps.step (setPdm_keeps ..) rfl ?_
      refine Keeps.step (State.put_keeps ..) rfl ?_
      exact Keeps.refl _ _
    · refine Keeps.step (State.put_keeps ..) rfl ?_
      exact Keeps.refl _ _

theorem portsRise_keeps (s : State) : Keeps [.aesIn, .pdm] s (portsRise s) := by
  unfold portsRise
  dsimp only
  refine keeps_foldl (fun _ _ _ => ?_) ?_
  · refine Keeps.step (setPdm_keeps ..) rfl ?_
    assumption
  · refine keeps_foldl (fun _ _ _ => ?_) ?_
    · refine Keeps.step (setAes_keeps ..) rfl ?_
      assumption
    · exact Keeps.refl _ _

theorem execAes3FrameReceived_keeps (at_ input : Nat) (frame : AesFrame) (s : State) (t : State) (h :
    execAes3FrameReceived at_ input frame s = .next t) : Keeps [.clk, .time, .dom, .stat, .aesIn, .events, .out] s t :=
    by
  unfold execAes3FrameReceived at h
  refine keeps_done h ?_
  refine keeps_ite (fun _ => ?_) (fun _ => ?_)
  · refine Keeps.step (aesFrame_keeps ..) rfl ?_
    refine Keeps.step (State.elapse_keeps ..) rfl ?_
    exact Keeps.refl _ _
  · refine Keeps.step (State.elapse_keeps ..) rfl ?_
    exact Keeps.refl _ _

theorem execAes3NonAudioEnd_keeps (input : Nat) (s : State) (t : State) (h : execAes3NonAudioEnd input s = .next t) :
    Keeps [.aesIn, .events] s t := by
  unfold execAes3NonAudioEnd at h
  refine keeps_done h ?_
  refine Keeps.step (nonAudioEnd_keeps ..) rfl ?_
  exact Keeps.refl _ _

theorem execAes3LockValuesReceived_keeps (input : Nat) (vals : LockVals) (s : State) (t : State) (h :
    execAes3LockValuesReceived input vals s = .next t) : Keeps [.stat, .aesIn] s t := by
  unfold execAes3LockValuesReceived at h
  refine keeps_done h ?_
  refine keeps_ite (fun _ => ?_) (fun _ => ?_)
  · refine Keeps.step (aesReceive_keeps ..) rfl ?_
    exact Keeps.refl _ _
  · exact Keeps.refl _ _

theorem execAes3LockApply_keeps (input : Nat) (s : State) (t : State) (h : execAes3LockApply input s = .next t) : Keeps
    [.stat, .aesIn, .twin] s t := by
  unfold execAes3LockApply at h
  refine keeps_done h ?_
  refine Keeps.step (aesApply_keeps ..) rfl ?_
  exact Keeps.refl _ _

theorem execAes3RhoDecision_keeps (input rho : Nat) (s : State) (t : State) (h : execAes3RhoDecision input rho s = .next
    t) : Keeps [.stat, .aesIn, .twin, .out] s t := by
  unfold execAes3RhoDecision at h
  refine keeps_done h ?_
  refine Keeps.step (rhoDecision_keeps ..) rfl ?_
  exact Keeps.refl _ _

theorem execAes3NoSignal_keeps (input : Nat) (s : State) (t : State) (h : execAes3NoSignal input s = .next t) : Keeps
    [.clk, .time, .aesIn, .events] s t := by
  unfold execAes3NoSignal at h
  refine keeps_done h ?_
  refine Keeps.step (aesNoSignal_keeps ..) rfl ?_
  exact Keeps.refl _ _

theorem execAes3RateWindow_keeps (input : Nat) (s : State) (t : State) (h : execAes3RateWindow input s = .next t) :
    Keeps [.stat, .aesIn, .events] s t := by
  unfold execAes3RateWindow at h
  refine keeps_done h ?_
  refine keeps_ite (fun _ => ?_) (fun _ => ?_)
  · refine Keeps.step (rateWindow_keeps ..) rfl ?_
    exact Keeps.refl _ _
  · exact Keeps.refl _ _

theorem execPdmStuck_keeps (input : Nat) (s : State) (t : State) (h : execPdmStuck input s = .next t) : Keeps [.stat,
    .pdm] s t := by
  unfold execPdmStuck at h
  refine keeps_done h ?_
  refine Keeps.step (pdmStick_keeps ..) rfl ?_
  exact Keeps.refl _ _

theorem execPdmStuckRecover_keeps (input : Nat) (s : State) (t : State) (h : execPdmStuckRecover input s = .next t) :
    Keeps [.pdm, .events] s t := by
  unfold execPdmStuckRecover at h
  refine keeps_done h ?_
  refine Keeps.step (pdmUnstick_keeps ..) rfl ?_
  exact Keeps.refl _ _

theorem execPdmClockWrite_keeps (value : Nat) (s : State) (t : State) (h : execPdmClockWrite value s = .next t) : Keeps
    [.dict, .stat] s t := by
  unfold execPdmClockWrite at h
  refine keeps_done h ?_
  refine State.attempt_keeps _ _ _ _ rfl ?_
  refine Keeps.step (State.put_keeps ..) rfl ?_
  exact Keeps.refl _ _

theorem execPdmEnable_keeps (input value : Nat) (s : State) (t : State) (h : execPdmEnable input value s = .next t) :
    Keeps [.dict, .stat, .pdm, .events] s t := by
  unfold execPdmEnable at h
  refine keeps_done h ?_
  refine State.attempt_keeps _ _ _ _ rfl ?_
  refine Keeps.step (pdmEnableApply_keeps ..) rfl ?_
  exact Keeps.refl _ _

end Sys2Proof.Machine
end

