-- ==== Sys2Proof/Laws/KeepsDrive.lean ====
section
/-! SUPPORT. The parts of the state that each function of Machine/Drive.lean may change. -/
set_option linter.unreachableTactic false
set_option linter.unusedTactic false

namespace Sys2Proof.Machine

theorem setRail_keeps (s : State) (g : Nat) (v : Rail) : Keeps [.rails] s (setRail s g v) := by
  unfold setRail
  refine keeps_rails rfl ?_
  exact Keeps.refl _ _

theorem putDrive_keeps (s : State) (n : Nat) (d : Drive) : Keeps [.stat, .drives] s (putDrive s n d) := by
  unfold putDrive
  refine Keeps.step (State.stset_keeps ..) rfl ?_
  refine Keeps.step (State.setDrive_keeps ..) rfl ?_
  exact Keeps.refl _ _

theorem judgeSense_keeps (s : State) (n k : Nat) (stuck : Bool) : Keeps [.events] s (judgeSense s n k stuck) := by
  unfold judgeSense
  refine keeps_ite (fun _ => ?_) (fun _ => ?_)
  · refine Keeps.step (State.enterAs_keeps ..) rfl ?_
    exact Keeps.refl _ _
  · refine Keeps.step (State.leaveAs_keeps ..) rfl ?_
    exact Keeps.refl _ _

theorem startDrive_keeps (s : State) (n : Nat) (retry : Bool) : Keeps [.stat, .drives] s (startDrive s n retry) := by
  unfold startDrive
  refine Keeps.step (putDrive_keeps ..) rfl ?_
  exact Keeps.refl _ _

theorem retryReset_keeps (s : State) (n : Nat) : Keeps [.stat] s (retryReset s n) := by
  unfold retryReset
  refine keeps_ite (fun _ => ?_) (fun _ => ?_)
  · refine Keeps.step (State.stset_keeps ..) rfl ?_
    exact Keeps.refl _ _
  · exact Keeps.refl _ _

theorem shutDown_keeps (s0 : State) (n : Nat) : Keeps [.stat, .drives, .tally, .beam, .events] s0 (shutDown s0 n) := by
  unfold shutDown
  dsimp only
  refine Keeps.step (drivePut_keeps ..) rfl ?_
  refine keeps_ite (fun _ => ?_) (fun _ => ?_)
  · refine Keeps.step (putDrive_keeps ..) rfl ?_
    refine Keeps.step (State.raise_keeps ..) rfl ?_
    refine Keeps.step (State.bump_keeps ..) rfl ?_
    refine Keeps.step (State.stset_keeps ..) rfl ?_
    refine Keeps.step (retryReset_keeps ..) rfl ?_
    exact Keeps.refl _ _
  · refine keeps_ite (fun _ => ?_) (fun _ => ?_)
    · refine Keeps.step (State.raise_keeps ..) rfl ?_
      refine Keeps.step (putDrive_keeps ..) rfl ?_
      refine Keeps.step (State.raise_keeps ..) rfl ?_
      refine Keeps.step (State.bump_keeps ..) rfl ?_
      refine Keeps.step (State.stset_keeps ..) rfl ?_
      refine Keeps.step (retryReset_keeps ..) rfl ?_
      exact Keeps.refl _ _
    · refine Keeps.step (putDrive_keeps ..) rfl ?_
      refine Keeps.step (State.raise_keeps ..) rfl ?_
      refine Keeps.step (State.bump_keeps ..) rfl ?_
      refine Keeps.step (State.stset_keeps ..) rfl ?_
      refine Keeps.step (retryReset_keeps ..) rfl ?_
      exact Keeps.refl _ _

theorem railStop_keeps (s : State) (n : Nat) (fromHold : Bool) : Keeps [.stat, .drives] s (railStop s n fromHold) := by
  unfold railStop
  refine Keeps.step (putDrive_keeps ..) rfl ?_
  exact Keeps.refl _ _

theorem holdOffEnd_keeps (s : State) (n : Nat) : Keeps [.stat, .drives] s (holdOffEnd s n) := by
  unfold holdOffEnd
  refine keeps_ite (fun _ => ?_) (fun _ => ?_)
  · refine keeps_ite (fun _ => ?_) (fun _ => ?_)
    · refine Keeps.step (railStop_keeps ..) rfl ?_
      exact Keeps.refl _ _
    · refine Keeps.step (startDrive_keeps ..) rfl ?_
      exact Keeps.refl _ _
  · exact Keeps.refl _ _

theorem railRelease_keeps (s : State) (n : Nat) : Keeps [.stat, .drives] s (railRelease s n) := by
  unfold railRelease
  refine keeps_ite (fun _ => ?_) (fun _ => ?_)
  · refine Keeps.step (startDrive_keeps ..) rfl ?_
    exact Keeps.refl _ _
  · exact Keeps.refl _ _

theorem driveStart_keeps (s : State) (n : Nat) : Keeps [.stat, .drives] s (driveStart s n) := by
  unfold driveStart
  refine keeps_ite (fun _ => ?_) (fun _ => ?_)
  · exact Keeps.refl _ _
  · dsimp only
    refine keeps_ite (fun _ => ?_) (fun _ => ?_)
    · refine Keeps.step (State.setDrive_keeps ..) rfl ?_
      exact Keeps.refl _ _
    · refine keeps_ite (fun _ => ?_) (fun _ => ?_)
      · refine Keeps.step (railStop_keeps ..) rfl ?_
        refine Keeps.step (State.setDrive_keeps ..) rfl ?_
        exact Keeps.refl _ _
      · refine Keeps.step (startDrive_keeps ..) rfl ?_
        refine Keeps.step (State.setDrive_keeps ..) rfl ?_
        exact Keeps.refl _ _

theorem rampEnd_keeps (s : State) (n : Nat) : Keeps [.stat, .drives] s (rampEnd s n) := by
  unfold rampEnd
  dsimp only
  refine keeps_ite (fun _ => ?_) (fun _ => ?_)
  · refine Keeps.step (putDrive_keeps ..) rfl ?_
    exact Keeps.refl _ _
  · exact Keeps.refl _ _

theorem driveStop_keeps (s0 : State) (n : Nat) : Keeps [.stat, .drives] s0 (driveStop s0 n) := by
  unfold driveStop
  dsimp only
  refine keeps_ite (fun _ => ?_) (fun _ => ?_)
  · refine Keeps.step (rampEnd_keeps ..) rfl ?_
    exact Keeps.refl _ _
  · split
    · refine Keeps.step (putDrive_keeps ..) rfl ?_
      refine Keeps.step (rampEnd_keeps ..) rfl ?_
      exact Keeps.refl _ _
    · refine Keeps.step (putDrive_keeps ..) rfl ?_
      refine Keeps.step (rampEnd_keeps ..) rfl ?_
      exact Keeps.refl _ _
    · refine Keeps.step (State.setDrive_keeps ..) rfl ?_
      refine Keeps.step (rampEnd_keeps ..) rfl ?_
      exact Keeps.refl _ _
    · refine Keeps.step (putDrive_keeps ..) rfl ?_
      refine Keeps.step (rampEnd_keeps ..) rfl ?_
      exact Keeps.refl _ _

theorem driveClear_keeps (s : State) (n : Nat) : Keeps [.stat, .drives] s (driveClear s n) := by
  unfold driveClear
  refine keeps_ite (fun _ => ?_) (fun _ => ?_)
  · refine keeps_ite (fun _ => ?_) (fun _ => ?_)
    · refine Keeps.step (State.stset_keeps ..) rfl ?_
      refine Keeps.step (putDrive_keeps ..) rfl ?_
      exact Keeps.refl _ _
    · refine Keeps.step (State.setDrive_keeps ..) rfl ?_
      exact Keeps.refl _ _
  · exact Keeps.refl _ _

theorem loopPeriod_keeps (s : State) (n k : Nat) (oc : Bool) : Keeps [.stat, .drives] s (loopPeriod s n k oc) := by
  unfold loopPeriod
  refine keeps_ite (fun _ => ?_) (fun _ => ?_)
  · refine Keeps.step (State.bump_keeps ..) rfl ?_
    refine keeps_ite (fun _ => ?_) (fun _ => ?_)
    · refine Keeps.step (State.bump_keeps ..) rfl ?_
      refine Keeps.step (putDrive_keeps ..) rfl ?_
      exact Keeps.refl _ _
    · refine Keeps.step (putDrive_keeps ..) rfl ?_
      exact Keeps.refl _ _
  · refine keeps_ite (fun _ => ?_) (fun _ => ?_)
    · refine Keeps.step (State.bump_keeps ..) rfl ?_
      refine Keeps.step (putDrive_keeps ..) rfl ?_
      exact Keeps.refl _ _
    · refine Keeps.step (putDrive_keeps ..) rfl ?_
      exact Keeps.refl _ _

theorem rampPeriod_keeps (s : State) (n : Nat) : Keeps [.drives] s (rampPeriod s n) := by
  unfold rampPeriod
  refine Keeps.step (State.setDrive_keeps ..) rfl ?_
  exact Keeps.refl _ _

theorem sensePush_keeps (s : State) (n : Nat) (inp : CarrierIn) : Keeps [.drives, .events] s (sensePush s n inp) := by
  unfold sensePush
  refine keeps_ite (fun _ => ?_) (fun _ => ?_)
  · exact Keeps.refl _ _
  · refine Keeps.step (judgeSense_keeps ..) rfl ?_
    refine Keeps.step (judgeSense_keeps ..) rfl ?_
    refine Keeps.step (State.setDrive_keeps ..) rfl ?_
    exact Keeps.refl _ _

theorem channelPeriod_keeps (k : Nat) (inp : CarrierIn) (s0 : State) (n : Nat) : Keeps [.stat, .drives, .tally, .beam,
    .events] s0 (channelPeriod k inp s0 n) := by
  unfold channelPeriod
  refine keeps_ite (fun _ => ?_) (fun _ => ?_)
  · exact Keeps.refl _ _
  · refine Keeps.step (sensePush_keeps ..) rfl ?_
    refine Keeps.step (rampPeriod_keeps ..) rfl ?_
    refine keeps_ite (fun _ => ?_) (fun _ => ?_)
    · refine Keeps.step (shutDown_keeps ..) rfl ?_
      refine Keeps.step (railRelease_keeps ..) rfl ?_
      refine Keeps.step (holdOffEnd_keeps ..) rfl ?_
      exact Keeps.refl _ _
    · refine keeps_ite (fun _ => ?_) (fun _ => ?_)
      · refine keeps_ite (fun _ => ?_) (fun _ => ?_)
        · refine Keeps.step (railStop_keeps ..) rfl ?_
          refine Keeps.step (railRelease_keeps ..) rfl ?_
          refine Keeps.step (holdOffEnd_keeps ..) rfl ?_
          exact Keeps.refl _ _
        · refine Keeps.step (loopPeriod_keeps ..) rfl ?_
          refine Keeps.step (railRelease_keeps ..) rfl ?_
          refine Keeps.step (holdOffEnd_keeps ..) rfl ?_
          exact Keeps.refl _ _
      · refine Keeps.step (railRelease_keeps ..) rfl ?_
        refine Keeps.step (holdOffEnd_keeps ..) rfl ?_
        exact Keeps.refl _ _

theorem railJudge_keeps (s : State) (g : Nat) : Keeps [.stat, .rails, .events] s (railJudge s g) := by
  unfold railJudge
  refine keeps_ite (fun _ => ?_) (fun _ => ?_)
  · exact Keeps.refl _ _
  · refine Keeps.step (State.condition_keeps ..) rfl ?_
    refine Keeps.step (State.condition_keeps ..) rfl ?_
    refine Keeps.step (State.condition_keeps ..) rfl ?_
    refine Keeps.step (State.stset_keeps ..) rfl ?_
    refine Keeps.step (setRail_keeps ..) rfl ?_
    exact Keeps.refl _ _

theorem railPeriod_keeps (inp : CarrierIn) (s : State) (g : Nat) : Keeps [.stat, .rails, .events] s (railPeriod inp s g)
    := by
  unfold railPeriod
  refine Keeps.step (railJudge_keeps ..) rfl ?_
  refine Keeps.step (setRail_keeps ..) rfl ?_
  exact Keeps.refl _ _

theorem carrierPeriod_keeps (s0 : State) (inp : CarrierIn) : Keeps [.clk, .time, .stat, .drives, .rails, .carrier,
    .twin, .tally, .beam, .events] s0 (carrierPeriod s0 inp) := by
  unfold carrierPeriod
  dsimp only
  refine keeps_ite (fun _ => ?_) (fun _ => ?_)
  · refine Keeps.step (State.elapse_keeps ..) rfl ?_
    exact Keeps.refl _ _
  · refine keeps_carrier rfl ?_
    refine keeps_ite (fun _ => ?_) (fun _ => ?_)
    · refine keeps_foldl (fun _ _ _ => ?_) ?_
      · refine Keeps.step (railPeriod_keeps ..) rfl ?_
        assumption
      · refine keeps_foldl (fun _ _ _ => ?_) ?_
        · refine Keeps.step (channelPeriod_keeps ..) rfl ?_
          assumption
        · refine keeps_twin rfl ?_
          refine Keeps.step (State.elapse_keeps ..) rfl ?_
          exact Keeps.refl _ _
    · refine keeps_foldl (fun _ _ _ => ?_) ?_
      · refine Keeps.step (channelPeriod_keeps ..) rfl ?_
        assumption
      · refine keeps_twin rfl ?_
        refine Keeps.step (State.elapse_keeps ..) rfl ?_
        exact Keeps.refl _ _

theorem overCurrent_keeps (s : State) (n width : Nat) : Keeps [.stat, .drives] s (overCurrent s n width) := by
  unfold overCurrent
  dsimp only
  refine keeps_ite (fun _ => ?_) (fun _ => ?_)
  · exact Keeps.refl _ _
  · refine Keeps.step (State.bump_keeps ..) rfl ?_
    refine Keeps.step (State.setDrive_keeps ..) rfl ?_
    exact Keeps.refl _ _

theorem faultRamp_keeps (s : State) (n : Nat) : Keeps [.drives] s (faultRamp s n) := by
  unfold faultRamp
  refine Keeps.step (State.setDrive_keeps ..) rfl ?_
  exact Keeps.refl _ _

theorem gateShown_keeps (s : State) : Keeps [.stat, .twin] s (gateShown s) := by
  unfold gateShown
  dsimp only
  refine Keeps.step (State.stset_keeps ..) rfl ?_
  refine keeps_twin rfl ?_
  exact Keeps.refl _ _

theorem gateChange_keeps (s : State) (actIn : Bool) : Keeps [.stat, .twin] s (gateChange s actIn) := by
  unfold gateChange
  refine Keeps.step (gateShown_keeps ..) rfl ?_
  refine keeps_twin rfl ?_
  exact Keeps.refl _ _

theorem driveMeters_keeps (s : State) (n : Nat) : Keeps [.stat, .drives] s (driveMeters s n) := by
  unfold driveMeters
  refine Keeps.step (State.setDrive_keeps ..) rfl ?_
  refine Keeps.step (State.stset_keeps ..) rfl ?_
  refine Keeps.step (State.stset_keeps ..) rfl ?_
  refine Keeps.step (State.stset_keeps ..) rfl ?_
  refine Keeps.step (State.stset_keeps ..) rfl ?_
  exact Keeps.refl _ _

theorem railMeters_keeps (s : State) (g : Nat) : Keeps [.stat] s (railMeters s g) := by
  unfold railMeters
  dsimp only
  split
  · refine Keeps.step (State.stset_keeps ..) rfl ?_
    refine Keeps.step (State.stset_keeps ..) rfl ?_
    exact Keeps.refl _ _
  · refine Keeps.step (State.stset_keeps ..) rfl ?_
    exact Keeps.refl _ _

theorem driveTickEnd_keeps (s : State) : Keeps [.stat, .drives, .rails, .events] s (driveTickEnd s) := by
  unfold driveTickEnd
  refine keeps_foldl (fun _ _ _ => ?_) ?_
  · refine Keeps.step (railJudge_keeps ..) rfl ?_
    refine Keeps.step (setRail_keeps ..) rfl ?_
    refine Keeps.step (railMeters_keeps ..) rfl ?_
    assumption
  · refine keeps_foldl (fun _ _ _ => ?_) ?_
    · refine Keeps.step (judgeSense_keeps ..) rfl ?_
      refine Keeps.step (judgeSense_keeps ..) rfl ?_
      refine Keeps.step (State.setDrive_keeps ..) rfl ?_
      refine Keeps.step (driveMeters_keeps ..) rfl ?_
      assumption
    · exact Keeps.refl _ _

theorem driveTickStart_keeps (s : State) (n : Nat) : Keeps [.stat, .drives] s (driveTickStart s n) := by
  unfold driveTickStart
  refine Keeps.step (retryReset_keeps ..) rfl ?_
  refine Keeps.step (driveStart_keeps ..) rfl ?_
  refine Keeps.step (driveStop_keeps ..) rfl ?_
  refine Keeps.step (driveClear_keeps ..) rfl ?_
  refine Keeps.step (State.setDrive_keeps ..) rfl ?_
  exact Keeps.refl _ _

theorem railLimits_keeps (s : State) (g : Nat) : Keeps [.rails] s (railLimits s g) := by
  unfold railLimits
  refine keeps_ite (fun _ => ?_) (fun _ => ?_)
  · exact Keeps.refl _ _
  · refine Keeps.step (setRail_keeps ..) rfl ?_
    exact Keeps.refl _ _

theorem driveTick_keeps (s : State) : Keeps [.stat, .drives, .rails, .carrier, .twin] s (driveTick s) := by
  unfold driveTick
  dsimp only
  refine Keeps.step (gateShown_keeps ..) rfl ?_
  refine keeps_foldl (fun _ _ _ => ?_) ?_
  · refine Keeps.step (railLimits_keeps ..) rfl ?_
    assumption
  · refine keeps_foldl (fun _ _ _ => ?_) ?_
    · refine Keeps.step (driveTickStart_keeps ..) rfl ?_
      assumption
    · refine keeps_carrier rfl ?_
      exact Keeps.refl _ _

theorem driveEnableApply_keeps (s : State) (n v : Nat) : Keeps [.dict, .drives] s (driveEnableApply s n v) := by
  unfold driveEnableApply
  dsimp only
  refine keeps_ite (fun _ => ?_) (fun _ => ?_)
  · refine Keeps.step (State.put_keeps ..) rfl ?_
    exact Keeps.refl _ _
  · refine Keeps.step (State.setDrive_keeps ..) rfl ?_
    refine Keeps.step (State.put_keeps ..) rfl ?_
    exact Keeps.refl _ _

theorem clearLatchApply_keeps (s : State) (n v : Nat) : Keeps [.drives] s (clearLatchApply s n v) := by
  unfold clearLatchApply
  refine keeps_ite (fun _ => ?_) (fun _ => ?_)
  · refine Keeps.step (State.setDrive_keeps ..) rfl ?_
    exact Keeps.refl _ _
  · exact Keeps.refl _ _

theorem execCarrierPeriod_keeps (inp : CarrierIn) (s : State) (t : State) (h : execCarrierPeriod inp s = .next t) :
    Keeps [.clk, .time, .stat, .drives, .rails, .carrier, .twin, .tally, .beam, .events] s t := by
  unfold execCarrierPeriod at h
  refine keeps_done h ?_
  refine Keeps.step (carrierPeriod_keeps ..) rfl ?_
  exact Keeps.refl _ _

theorem execRailStateChange_keeps (group : Nat) (s : State) (t : State) (h : execRailStateChange group s = .next t) :
    Keeps [.stat, .rails, .events] s t := by
  unfold execRailStateChange at h
  refine keeps_done h ?_
  refine keeps_ite (fun _ => ?_) (fun _ => ?_)
  · refine Keeps.step (railJudge_keeps ..) rfl ?_
    exact Keeps.refl _ _
  · exact Keeps.refl _ _

theorem execOverCurrentCut_keeps (at_ channel widthNs : Nat) (s : State) (t : State) (h : execOverCurrentCut at_ channel
    widthNs s = .next t) : Keeps [.clk, .time, .stat, .drives, .events] s t := by
  unfold execOverCurrentCut at h
  refine keeps_done h ?_
  refine Keeps.step (overCurrent_keeps ..) rfl ?_
  refine Keeps.step (State.elapse_keeps ..) rfl ?_
  exact Keeps.refl _ _

theorem execDriveShutdown_keeps (channel : Nat) (s : State) (t : State) (h : execDriveShutdown channel s = .next t) :
    Keeps [.stat, .drives, .tally, .beam, .events] s t := by
  unfold execDriveShutdown at h
  refine keeps_done h ?_
  refine keeps_ite (fun _ => ?_) (fun _ => ?_)
  · refine Keeps.step (shutDown_keeps ..) rfl ?_
    exact Keeps.refl _ _
  · exact Keeps.refl _ _

theorem execSenseStuck_keeps (stream index : Nat) (s : State) (t : State) (h : execSenseStuck stream index s = .next t)
    : Keeps [.stat, .drives, .rails, .events] s t := by
  unfold execSenseStuck at h
  refine keeps_done h ?_
  split
  · refine keeps_ite (fun _ => ?_) (fun _ => ?_)
    · refine Keeps.step (judgeSense_keeps ..) rfl ?_
      refine Keeps.step (State.setDrive_keeps ..) rfl ?_
      exact Keeps.refl _ _
    · exact Keeps.refl _ _
  · refine keeps_ite (fun _ => ?_) (fun _ => ?_)
    · refine Keeps.step (judgeSense_keeps ..) rfl ?_
      refine Keeps.step (State.setDrive_keeps ..) rfl ?_
      exact Keeps.refl _ _
    · exact Keeps.refl _ _
  · refine keeps_ite (fun _ => ?_) (fun _ => ?_)
    · refine Keeps.step (railJudge_keeps ..) rfl ?_
      refine Keeps.step (setRail_keeps ..) rfl ?_
      exact Keeps.refl _ _
    · exact Keeps.refl _ _
  · exact Keeps.refl _ _

theorem execDriveFaultItem_keeps (channel : Nat) (s : State) (t : State) (h : execDriveFaultItem channel s = .next t) :
    Keeps [.drives, .tally] s t := by
  unfold execDriveFaultItem at h
  refine keeps_done h ?_
  split
  · refine Keeps.step (faultRamp_keeps ..) rfl ?_
    refine Keeps.step (dropItem_keeps ..) rfl ?_
    exact Keeps.refl _ _
  · exact Keeps.refl _ _

theorem execDrvMuteFaultRamp_keeps (channel : Nat) (s : State) (t : State) (h : execDrvMuteFaultRamp channel s = .next
    t) : Keeps [.drives] s t := by
  unfold execDrvMuteFaultRamp at h
  refine keeps_done h ?_
  refine keeps_ite (fun _ => ?_) (fun _ => ?_)
  · refine Keeps.step (faultRamp_keeps ..) rfl ?_
    exact Keeps.refl _ _
  · exact Keeps.refl _ _

theorem execHoldOffEnd_keeps (channel : Nat) (s : State) (t : State) (h : execHoldOffEnd channel s = .next t) : Keeps
    [.stat, .drives] s t := by
  unfold execHoldOffEnd at h
  refine keeps_done h ?_
  refine Keeps.step (holdOffEnd_keeps ..) rfl ?_
  exact Keeps.refl _ _

theorem execRetryCountReset_keeps (channel : Nat) (s : State) (t : State) (h : execRetryCountReset channel s = .next t)
    : Keeps [.stat] s t := by
  unfold execRetryCountReset at h
  refine keeps_done h ?_
  refine Keeps.step (retryReset_keeps ..) rfl ?_
  exact Keeps.refl _ _

theorem execDriveStart_keeps (channel : Nat) (s : State) (t : State) (h : execDriveStart channel s = .next t) : Keeps
    [.stat, .drives] s t := by
  unfold execDriveStart at h
  refine keeps_done h ?_
  refine Keeps.step (driveStart_keeps ..) rfl ?_
  exact Keeps.refl _ _

theorem execDriveStop_keeps (channel : Nat) (s : State) (t : State) (h : execDriveStop channel s = .next t) : Keeps
    [.stat, .drives] s t := by
  unfold execDriveStop at h
  refine keeps_done h ?_
  refine Keeps.step (driveStop_keeps ..) rfl ?_
  exact Keeps.refl _ _

theorem execDriveEnable_keeps (channel : Nat) (s : State) (t : State) (h : execDriveEnable channel s = .next t) : Keeps
    [.dict, .stat, .drives] s t := by
  unfold execDriveEnable at h
  refine keeps_done h ?_
  refine State.attempt_keeps _ _ _ _ rfl ?_
  refine Keeps.step (driveEnableApply_keeps ..) rfl ?_
  exact Keeps.refl _ _

theorem execDriveDisable_keeps (channel : Nat) (s : State) (t : State) (h : execDriveDisable channel s = .next t) :
    Keeps [.dict, .stat, .drives] s t := by
  unfold execDriveDisable at h
  refine keeps_done h ?_
  refine State.attempt_keeps _ _ _ _ rfl ?_
  refine Keeps.step (driveEnableApply_keeps ..) rfl ?_
  exact Keeps.refl _ _

theorem execClearLatch_keeps (channel value : Nat) (s : State) (t : State) (h : execClearLatch channel value s = .next
    t) : Keeps [.stat, .drives] s t := by
  unfold execClearLatch at h
  refine keeps_done h ?_
  refine State.attempt_keeps _ _ _ _ rfl ?_
  refine Keeps.step (clearLatchApply_keeps ..) rfl ?_
  exact Keeps.refl _ _

theorem execDriveEnableGlobal_keeps (value : Nat) (s : State) (t : State) (h : execDriveEnableGlobal value s = .next t)
    : Keeps [.dict, .stat] s t := by
  unfold execDriveEnableGlobal at h
  refine keeps_done h ?_
  refine State.attempt_keeps _ _ _ _ rfl ?_
  refine Keeps.step (State.put_keeps ..) rfl ?_
  exact Keeps.refl _ _

theorem execClearRail_keeps (group value : Nat) (s : State) (t : State) (h : execClearRail group value s = .next t) :
    Keeps [.stat, .todo] s t := by
  unfold execClearRail at h
  refine keeps_done h ?_
  refine State.attempt_keeps _ _ _ _ rfl ?_
  refine keeps_ite (fun _ => ?_) (fun _ => ?_)
  · refine keeps_todo rfl ?_
    exact Keeps.refl _ _
  · exact Keeps.refl _ _

end Sys2Proof.Machine
end

