-- ==== Sys2Proof/Laws/KeepsFrames.lean ====
section
/-! SUPPORT. The parts of the state that each function of Machine/Frames.lean may change. -/
set_option linter.unreachableTactic false
set_option linter.unusedTactic false

namespace Sys2Proof.Machine

theorem setSlot_keeps (s : State) (u : Nat) (v : UserSlot) : Keeps [.slots] s (setSlot s u v) := by
  unfold setSlot
  refine keeps_slots rfl ?_
  exact Keeps.refl _ _

theorem stopSlot_keeps (s : State) (u code : Nat) : Keeps [.twin, .rods, .slots] s (stopSlot s u code) := by
  unfold stopSlot
  dsimp only
  split
  · refine Keeps.step (State.setRod_keeps ..) rfl ?_
    refine Keeps.step (setSlot_keeps ..) rfl ?_
    refine Keeps.step (State.mark_keeps ..) rfl ?_
    exact Keeps.refl _ _
  · refine Keeps.step (setSlot_keeps ..) rfl ?_
    refine Keeps.step (State.mark_keeps ..) rfl ?_
    exact Keeps.refl _ _

theorem measureItem_keeps (s : State) (u r : Nat) : Keeps [.stat, .twin, .rods, .slots, .events] s (measureItem s u r)
    := by
  unfold measureItem
  refine keeps_ite (fun _ => ?_) (fun _ => ?_)
  · refine Keeps.step (State.stset_keeps ..) rfl ?_
    exact Keeps.refl _ _
  · refine keeps_ite (fun _ => ?_) (fun _ => ?_)
    · refine Keeps.step (stopSlot_keeps ..) rfl ?_
      refine Keeps.step (State.raise_keeps ..) rfl ?_
      refine Keeps.step (State.bump_keeps ..) rfl ?_
      refine Keeps.step (setSlot_keeps ..) rfl ?_
      refine Keeps.step (State.stset_keeps ..) rfl ?_
      exact Keeps.refl _ _
    · refine Keeps.step (State.raise_keeps ..) rfl ?_
      refine Keeps.step (State.bump_keeps ..) rfl ?_
      refine Keeps.step (setSlot_keeps ..) rfl ?_
      refine Keeps.step (State.stset_keeps ..) rfl ?_
      exact Keeps.refl _ _

theorem endItem_keeps (s : State) (r : Nat) (failed : Bool) : Keeps [.stat, .twin, .rods, .slots, .events] s (endItem s
    r failed) := by
  unfold endItem
  dsimp only
  split
  · exact Keeps.refl _ _
  · split
    · refine Keeps.step (measureItem_keeps ..) rfl ?_
      refine keeps_ite (fun _ => ?_) (fun _ => ?_)
      · refine Keeps.step (State.raise_keeps ..) rfl ?_
        refine Keeps.step (State.bump_keeps ..) rfl ?_
        refine Keeps.step (State.setRod_keeps ..) rfl ?_
        exact Keeps.refl _ _
      · refine Keeps.step (State.setRod_keeps ..) rfl ?_
        exact Keeps.refl _ _
    · refine keeps_ite (fun _ => ?_) (fun _ => ?_)
      · refine Keeps.step (State.raise_keeps ..) rfl ?_
        refine Keeps.step (State.bump_keeps ..) rfl ?_
        refine Keeps.step (State.setRod_keeps ..) rfl ?_
        exact Keeps.refl _ _
      · refine Keeps.step (State.setRod_keeps ..) rfl ?_
        exact Keeps.refl _ _

theorem clearRod_keeps (s : State) (r : Nat) : Keeps [.stat, .twin, .rods, .slots, .tally, .events] s (clearRod s r) :=
    by
  unfold clearRod
  refine Keeps.step (endItem_keeps ..) rfl ?_
  refine Keeps.step (dropHeld_keeps ..) rfl ?_
  exact Keeps.refl _ _

theorem retireRodNow_keeps (s : State) (r : Nat) : Keeps [.rods] s (retireRodNow s r) := by
  unfold retireRodNow
  refine Keeps.step (State.setRod_keeps ..) rfl ?_
  exact Keeps.refl _ _

theorem holdFlow_keeps (s : State) (u : Nat) (on : Bool) : Keeps [.tally] s (holdFlow s u on) := by
  unfold holdFlow
  refine keeps_tally rfl ?_
  exact Keeps.refl _ _

theorem pinFlow_keeps (s : State) (u r : Nat) : Keeps [.tally] s (pinFlow s u r) := by
  unfold pinFlow
  refine keeps_tally rfl ?_
  exact Keeps.refl _ _

theorem endMove_keeps (s : State) (u : Nat) : Keeps [.moves, .tally] s (endMove s u) := by
  unfold endMove
  refine keeps_ite (fun _ => ?_) (fun _ => ?_)
  · exact Keeps.refl _ _
  · dsimp only
    refine keeps_moves rfl ?_
    refine Keeps.step (holdFlow_keeps ..) rfl ?_
    exact Keeps.refl _ _

theorem moveSlot_keeps (s : State) (u r : Nat) : Keeps [.stat, .twin, .rods, .slots, .moves, .tally, .events] s
    (moveSlot s u r) := by
  unfold moveSlot
  split
  · dsimp only
    refine keeps_moves rfl ?_
    refine Keeps.step (holdFlow_keeps ..) rfl ?_
    exact Keeps.refl _ _
  · refine Keeps.step (stopSlot_keeps ..) rfl ?_
    refine Keeps.step (clearRod_keeps ..) rfl ?_
    refine Keeps.step (endMove_keeps ..) rfl ?_
    exact Keeps.refl _ _

theorem rechoose_keeps (s : State) : Keeps [.stat, .twin, .rods, .slots, .moves, .tally, .events] s (rechoose s) := by
  unfold rechoose
  refine keeps_foldl (fun _ _ _ => ?_) ?_
  · refine keeps_ite (fun _ => ?_) (fun _ => ?_)
    · assumption
    · refine Keeps.step (moveSlot_keeps ..) rfl ?_
      refine keeps_moves rfl ?_
      assumption
  · exact Keeps.refl _ _

theorem retireRodMoving_keeps (s : State) (r : Nat) : Keeps [.stat, .twin, .rods, .slots, .moves, .tally, .events] s
    (retireRodMoving s r) := by
  unfold retireRodMoving
  dsimp only
  split
  · refine Keeps.step (judgeCompute_keeps ..) rfl ?_
    refine Keeps.step (moveSlot_keeps ..) rfl ?_
    refine Keeps.step (rechoose_keeps ..) rfl ?_
    refine Keeps.step (retireRodNow_keeps ..) rfl ?_
    exact Keeps.refl _ _
  · refine Keeps.step (judgeCompute_keeps ..) rfl ?_
    refine Keeps.step (rechoose_keeps ..) rfl ?_
    refine Keeps.step (retireRodNow_keeps ..) rfl ?_
    exact Keeps.refl _ _

theorem beginRotation_keeps (s : State) (f new block : Nat) (retire : Bool) : Keeps [.frames, .rot] s (beginRotation s f
    new block retire) := by
  unfold beginRotation
  refine Keeps.step (setFrame_keeps ..) rfl ?_
  refine keeps_rot rfl ?_
  exact Keeps.refl _ _

theorem healthPolicy_keeps (s : State) (r : Nat) : Keeps [.stat, .twin, .frames, .rods, .slots, .rot, .moves, .tally,
    .events] s (healthPolicy s r) := by
  unfold healthPolicy
  split
  · exact Keeps.refl _ _
  · refine Keeps.step (retireRodMoving_keeps ..) rfl ?_
    exact Keeps.refl _ _
  · split
    · refine keeps_ite (fun _ => ?_) (fun _ => ?_)
      · refine Keeps.step (beginRotation_keeps ..) rfl ?_
        exact Keeps.refl _ _
      · exact Keeps.refl _ _
    · refine Keeps.step (retireRodMoving_keeps ..) rfl ?_
      exact Keeps.refl _ _

theorem setHealth_keeps (s : State) (r : Nat) : Keeps [.stat, .twin, .frames, .rods, .slots, .rot, .moves, .tally,
    .events] s (setHealth s r) := by
  unfold setHealth
  refine keeps_ite (fun _ => ?_) (fun _ => ?_)
  · exact Keeps.refl _ _
  · refine Keeps.step (healthPolicy_keeps ..) rfl ?_
    refine Keeps.step (State.setRod_keeps ..) rfl ?_
    exact Keeps.refl _ _

theorem slotFaulted_keeps (s : State) (slot : Option Nat) (code : Nat) : Keeps [.stat, .twin, .slots, .events] s
    (slotFaulted s slot code) := by
  unfold slotFaulted
  split
  · refine Keeps.step (State.raise_keeps ..) rfl ?_
    refine Keeps.step (State.stset_keeps ..) rfl ?_
    refine Keeps.step (setSlot_keeps ..) rfl ?_
    refine Keeps.step (State.mark_keeps ..) rfl ?_
    exact Keeps.refl _ _
  · exact Keeps.refl _ _

theorem rodFault_keeps (s : State) (r code trapOp : Nat) : Keeps [.stat, .twin, .frames, .rods, .slots, .rot, .moves,
    .tally, .events] s (rodFault s r code trapOp) := by
  unfold rodFault
  dsimp only
  refine keeps_ite (fun _ => ?_) (fun _ => ?_)
  · refine Keeps.step (setHealth_keeps ..) rfl ?_
    refine Keeps.step (slotFaulted_keeps ..) rfl ?_
    refine Keeps.step (endItem_keeps ..) rfl ?_
    refine Keeps.step (State.raise_keeps ..) rfl ?_
    refine Keeps.step (State.stset_keeps ..) rfl ?_
    refine Keeps.step (State.bump_keeps ..) rfl ?_
    refine Keeps.step (State.setRod_keeps ..) rfl ?_
    refine Keeps.step (dropHeld_keeps ..) rfl ?_
    exact Keeps.refl _ _
  · refine Keeps.step (slotFaulted_keeps ..) rfl ?_
    refine Keeps.step (endItem_keeps ..) rfl ?_
    refine Keeps.step (State.raise_keeps ..) rfl ?_
    refine Keeps.step (State.stset_keeps ..) rfl ?_
    refine Keeps.step (State.bump_keeps ..) rfl ?_
    refine Keeps.step (State.setRod_keeps ..) rfl ?_
    refine Keeps.step (dropHeld_keeps ..) rfl ?_
    exact Keeps.refl _ _

theorem restartRods_keeps (s : State) : Keeps [.rods] s (restartRods s) := by
  unfold restartRods
  refine keeps_foldl (fun _ _ _ => ?_) ?_
  · refine keeps_ite (fun _ => ?_) (fun _ => ?_)
    · refine Keeps.step (State.setRod_keeps ..) rfl ?_
      assumption
    · assumption
  · exact Keeps.refl _ _

theorem countRotation_keeps (s : State) (cancelled : Bool) : Keeps [.stat] s (countRotation s cancelled) := by
  unfold countRotation
  refine Keeps.step (State.stset_keeps ..) rfl ?_
  exact Keeps.refl _ _

theorem relieve_keeps (s : State) (k : Rotation) : Keeps [.stat, .frames, .rot, .tally, .events] s (relieve s k) := by
  unfold relieve
  dsimp only
  refine Keeps.step (judgeCompute_keeps ..) rfl ?_
  refine Keeps.step (State.raise_keeps ..) rfl ?_
  refine Keeps.step (countRotation_keeps ..) rfl ?_
  refine Keeps.step (setFrame_keeps ..) rfl ?_
  refine keeps_rot rfl ?_
  refine Keeps.step (unexclude_keeps ..) rfl ?_
  exact Keeps.refl _ _

theorem settleRotation_keeps (s : State) : Keeps [.stat, .frames, .rot, .tally, .events] s (settleRotation s) := by
  unfold settleRotation
  split
  · refine keeps_ite (fun _ => ?_) (fun _ => ?_)
    · refine Keeps.step (relieve_keeps ..) rfl ?_
      exact Keeps.refl _ _
    · exact Keeps.refl _ _
  · exact Keeps.refl _ _

theorem rotationSwitch_keeps (s : State) : Keeps [.stat, .twin, .frames, .rods, .slots, .rot, .moves, .tally, .events] s
    (rotationSwitch s) := by
  unfold rotationSwitch
  split
  · refine keeps_ite (fun _ => ?_) (fun _ => ?_)
    · dsimp only
      refine Keeps.step (settleRotation_keeps ..) rfl ?_
      refine Keeps.step (rechoose_keeps ..) rfl ?_
      refine keeps_foldl (fun _ _ _ => ?_) ?_
      · split
        · refine keeps_moves rfl ?_
          refine Keeps.step (holdFlow_keeps ..) rfl ?_
          assumption
        · refine Keeps.step (State.setRod_keeps ..) rfl ?_
          refine Keeps.step (clearRod_keeps ..) rfl ?_
          assumption
      · refine Keeps.step (setFrame_keeps ..) rfl ?_
        refine keeps_rot rfl ?_
        refine Keeps.step (exclude_keeps ..) rfl ?_
        exact Keeps.refl _ _
    · refine Keeps.step (settleRotation_keeps ..) rfl ?_
      exact Keeps.refl _ _
  · exact Keeps.refl _ _

theorem noteData_keeps (s : State) (r : Nat) : Keeps [.stat, .rods] s (noteData s r) := by
  unfold noteData
  refine keeps_foldl (fun _ _ _ => ?_) ?_
  · refine Keeps.step (State.bump_keeps ..) rfl ?_
    refine Keeps.step (State.setRod_keeps ..) rfl ?_
    assumption
  · exact Keeps.refl _ _

theorem loseSlot_keeps (s : State) (u a : Nat) : Keeps [.stat, .twin, .frames, .rods, .slots, .rot, .moves, .tally,
    .events] s (loseSlot s u a) := by
  unfold loseSlot
  dsimp only
  refine Keeps.step (setSlot_keeps ..) rfl ?_
  refine Keeps.step (State.setRod_keeps ..) rfl ?_
  refine Keeps.step (endMove_keeps ..) rfl ?_
  refine Keeps.step (rodFault_keeps ..) rfl ?_
  refine Keeps.step (State.setRod_keeps ..) rfl ?_
  exact Keeps.refl _ _

theorem carrySlot_keeps (s : State) (u a b : Nat) : Keeps [.stat, .twin, .rods, .slots, .moves, .tally, .mem, .events] s
    (carrySlot s u a b) := by
  unfold carrySlot
  dsimp only
  refine Keeps.step (endMove_keeps ..) rfl ?_
  refine Keeps.step (pinFlow_keeps ..) rfl ?_
  refine Keeps.step (setSlot_keeps ..) rfl ?_
  refine Keeps.step (State.setRod_keeps ..) rfl ?_
  refine Keeps.step (State.setRod_keeps ..) rfl ?_
  refine keeps_mem rfl ?_
  refine Keeps.step (clearRod_keeps ..) rfl ?_
  refine Keeps.step (noteData_keeps ..) rfl ?_
  exact Keeps.refl _ _

theorem copySlot_keeps (s : State) (u : Nat) : Keeps [.stat, .twin, .frames, .rods, .slots, .rot, .moves, .tally, .mem,
    .events] s (copySlot s u) := by
  unfold copySlot
  split
  refine keeps_ite (fun _ => ?_) (fun _ => ?_)
  · exact Keeps.refl _ _
  · refine keeps_ite (fun _ => ?_) (fun _ => ?_)
    · refine Keeps.step (moveSlot_keeps ..) rfl ?_
      refine keeps_moves rfl ?_
      exact Keeps.refl _ _
    · refine Keeps.step (judgeCompute_keeps ..) rfl ?_
      refine Keeps.step (settleRotation_keeps ..) rfl ?_
      refine keeps_ite (fun _ => ?_) (fun _ => ?_)
      · refine Keeps.step (loseSlot_keeps ..) rfl ?_
        exact Keeps.refl _ _
      · refine Keeps.step (carrySlot_keeps ..) rfl ?_
        exact Keeps.refl _ _

theorem withdrawNew_keeps (s : State) (f : Nat) : Keeps [.rot] s (withdrawNew s f) := by
  unfold withdrawNew
  split
  · refine keeps_ite (fun _ => ?_) (fun _ => ?_)
    · refine keeps_rot rfl ?_
      exact Keeps.refl _ _
    · exact Keeps.refl _ _
  · exact Keeps.refl _ _

theorem fenceRod_keeps (s : State) (r : Nat) : Keeps [.stat, .twin, .frames, .rods, .slots, .rot, .moves, .tally,
    .events] s (fenceRod s r) := by
  unfold fenceRod
  dsimp only
  refine keeps_ite (fun _ => ?_) (fun _ => ?_)
  · refine Keeps.step (setFrame_keeps ..) rfl ?_
    refine Keeps.step (withdrawNew_keeps ..) rfl ?_
    refine Keeps.step (rechoose_keeps ..) rfl ?_
    refine Keeps.step (clearRod_keeps ..) rfl ?_
    refine Keeps.step (State.setRod_keeps ..) rfl ?_
    exact Keeps.refl _ _
  · refine keeps_ite (fun _ => ?_) (fun _ => ?_)
    · refine Keeps.step (judgeCompute_keeps ..) rfl ?_
      refine Keeps.step (rechoose_keeps ..) rfl ?_
      refine Keeps.step (clearRod_keeps ..) rfl ?_
      refine Keeps.step (State.setRod_keeps ..) rfl ?_
      exact Keeps.refl _ _
    · split
      · refine Keeps.step (beginRotation_keeps ..) rfl ?_
        split
        · refine keeps_ite (fun _ => ?_) (fun _ => ?_)
          · refine Keeps.step (countRotation_keeps ..) rfl ?_
            refine Keeps.step (setFrame_keeps ..) rfl ?_
            refine keeps_rot rfl ?_
            refine Keeps.step (rechoose_keeps ..) rfl ?_
            refine Keeps.step (clearRod_keeps ..) rfl ?_
            refine Keeps.step (State.setRod_keeps ..) rfl ?_
            exact Keeps.refl _ _
          · refine Keeps.step (rechoose_keeps ..) rfl ?_
            refine Keeps.step (clearRod_keeps ..) rfl ?_
            refine Keeps.step (State.setRod_keeps ..) rfl ?_
            exact Keeps.refl _ _
        · refine Keeps.step (rechoose_keeps ..) rfl ?_
          refine Keeps.step (clearRod_keeps ..) rfl ?_
          refine Keeps.step (State.setRod_keeps ..) rfl ?_
          exact Keeps.refl _ _
      · split
        · refine Keeps.step (judgeCompute_keeps ..) rfl ?_
          refine Keeps.step (moveSlot_keeps ..) rfl ?_
          split
          · refine keeps_ite (fun _ => ?_) (fun _ => ?_)
            · refine Keeps.step (countRotation_keeps ..) rfl ?_
              refine Keeps.step (setFrame_keeps ..) rfl ?_
              refine keeps_rot rfl ?_
              refine Keeps.step (rechoose_keeps ..) rfl ?_
              refine Keeps.step (clearRod_keeps ..) rfl ?_
              refine Keeps.step (State.setRod_keeps ..) rfl ?_
              exact Keeps.refl _ _
            · refine Keeps.step (rechoose_keeps ..) rfl ?_
              refine Keeps.step (clearRod_keeps ..) rfl ?_
              refine Keeps.step (State.setRod_keeps ..) rfl ?_
              exact Keeps.refl _ _
          · refine Keeps.step (rechoose_keeps ..) rfl ?_
            refine Keeps.step (clearRod_keeps ..) rfl ?_
            refine Keeps.step (State.setRod_keeps ..) rfl ?_
            exact Keeps.refl _ _
        · refine Keeps.step (judgeCompute_keeps ..) rfl ?_
          split
          · refine keeps_ite (fun _ => ?_) (fun _ => ?_)
            · refine Keeps.step (countRotation_keeps ..) rfl ?_
              refine Keeps.step (setFrame_keeps ..) rfl ?_
              refine keeps_rot rfl ?_
              refine Keeps.step (rechoose_keeps ..) rfl ?_
              refine Keeps.step (clearRod_keeps ..) rfl ?_
              refine Keeps.step (State.setRod_keeps ..) rfl ?_
              exact Keeps.refl _ _
            · refine Keeps.step (rechoose_keeps ..) rfl ?_
              refine Keeps.step (clearRod_keeps ..) rfl ?_
              refine Keeps.step (State.setRod_keeps ..) rfl ?_
              exact Keeps.refl _ _
          · refine Keeps.step (rechoose_keeps ..) rfl ?_
            refine Keeps.step (clearRod_keeps ..) rfl ?_
            refine Keeps.step (State.setRod_keeps ..) rfl ?_
            exact Keeps.refl _ _

theorem rotateApply_keeps (s : State) (f a : Nat) : Keeps [.dict, .frames, .rot] s (rotateApply s f a) := by
  unfold rotateApply
  split
  · refine Keeps.step (State.put_keeps ..) rfl ?_
    refine Keeps.step (beginRotation_keeps ..) rfl ?_
    exact Keeps.refl _ _
  · exact Keeps.refl _ _

theorem retireRodApply_keeps (s : State) (r v : Nat) : Keeps [.stat, .twin, .rods, .slots, .moves, .tally, .events] s
    (retireRodApply s r v) := by
  unfold retireRodApply
  refine keeps_ite (fun _ => ?_) (fun _ => ?_)
  · refine Keeps.step (retireRodMoving_keeps ..) rfl ?_
    exact Keeps.refl _ _
  · exact Keeps.refl _ _

theorem retireFrameApply_keeps (s : State) (f v : Nat) : Keeps [.stat, .twin, .frames, .rods, .slots, .rot, .moves,
    .tally, .events] s (retireFrameApply s f v) := by
  unfold retireFrameApply
  refine keeps_ite (fun _ => ?_) (fun _ => ?_)
  · exact Keeps.refl _ _
  · refine keeps_ite (fun _ => ?_) (fun _ => ?_)
    · refine keeps_rot rfl ?_
      exact Keeps.refl _ _
    · refine keeps_ite (fun _ => ?_) (fun _ => ?_)
      · split
        · refine Keeps.step (beginRotation_keeps ..) rfl ?_
          exact Keeps.refl _ _
        · refine Keeps.step (judgeCompute_keeps ..) rfl ?_
          refine keeps_foldl (fun _ _ _ => ?_) ?_
          · split
            · refine Keeps.step (moveSlot_keeps ..) rfl ?_
              assumption
            · assumption
          · refine Keeps.step (rechoose_keeps ..) rfl ?_
            refine Keeps.step (setFrame_keeps ..) rfl ?_
            exact Keeps.refl _ _
      · refine Keeps.step (setFrame_keeps ..) rfl ?_
        refine Keeps.step (withdrawNew_keeps ..) rfl ?_
        exact Keeps.refl _ _

theorem slotImageApply_keeps (s : State) (u : Nat) (i : SlotImage) : Keeps [.dom, .stat, .slots] s (slotImageApply s u
    i) := by
  unfold slotImageApply
  refine Keeps.step (State.stset_keeps ..) rfl ?_
  refine Keeps.step (setSlot_keeps ..) rfl ?_
  refine Keeps.step (State.putBytes_keeps ..) rfl ?_
  exact Keeps.refl _ _

theorem signatureRefused_keeps (s : State) (code index sub : Nat) : Keeps [.events] s (signatureRefused s code index
    sub) := by
  unfold signatureRefused
  refine keeps_ite (fun _ => ?_) (fun _ => ?_)
  · refine Keeps.step (State.raise_keeps ..) rfl ?_
    exact Keeps.refl _ _
  · exact Keeps.refl _ _

theorem loadRod_keeps (s : State) (u r : Nat) (i : SlotImage) : Keeps [.stat, .twin, .rods, .slots, .tally, .mem,
    .events] s (loadRod s u r i) := by
  unfold loadRod
  dsimp only
  refine Keeps.step (State.setRod_keeps ..) rfl ?_
  refine keeps_mem rfl ?_
  refine Keeps.step (clearRod_keeps ..) rfl ?_
  exact Keeps.refl _ _

theorem slotEnableApply_keeps (s : State) (u v : Nat) : Keeps [.dict, .stat, .twin, .frames, .rods, .slots, .rot,
    .moves, .tally, .mem, .events] s (slotEnableApply s u v) := by
  unfold slotEnableApply
  dsimp only
  refine keeps_ite (fun _ => ?_) (fun _ => ?_)
  · refine Keeps.step (judgeCompute_keeps ..) rfl ?_
    refine Keeps.step (settleRotation_keeps ..) rfl ?_
    refine Keeps.step (endMove_keeps ..) rfl ?_
    refine Keeps.step (setSlot_keeps ..) rfl ?_
    split
    · refine Keeps.step (State.setRod_keeps ..) rfl ?_
      refine Keeps.step (endItem_keeps ..) rfl ?_
      refine Keeps.step (State.put_keeps ..) rfl ?_
      exact Keeps.refl _ _
    · refine Keeps.step (State.put_keeps ..) rfl ?_
      exact Keeps.refl _ _
  · refine keeps_ite (fun _ => ?_) (fun _ => ?_)
    · exact Keeps.refl _ _
    · split
      · refine Keeps.step (judgeCompute_keeps ..) rfl ?_
        refine Keeps.step (pinFlow_keeps ..) rfl ?_
        refine Keeps.step (setSlot_keeps ..) rfl ?_
        refine Keeps.step (loadRod_keeps ..) rfl ?_
        refine Keeps.step (qcfgSet_keeps ..) rfl ?_
        refine Keeps.step (State.put_keeps ..) rfl ?_
        exact Keeps.refl _ _
      · exact Keeps.refl _ _

theorem noteOutput_keeps (s : State) (r far n : Nat) : Keeps [.slots] s (noteOutput s r far n) := by
  unfold noteOutput
  split
  · dsimp only
    refine keeps_ite (fun _ => ?_) (fun _ => ?_)
    · refine Keeps.step (setSlot_keeps ..) rfl ?_
      exact Keeps.refl _ _
    · exact Keeps.refl _ _
  · exact Keeps.refl _ _

theorem execRotateFrame_keeps (frame : Nat) (s : State) (t : State) (h : execRotateFrame frame s = .next t) : Keeps
    [.dict, .stat, .frames, .rot] s t := by
  unfold execRotateFrame at h
  refine keeps_done h ?_
  refine State.attempt_keeps _ _ _ _ rfl ?_
  refine Keeps.step (rotateApply_keeps ..) rfl ?_
  exact Keeps.refl _ _

theorem execRotationLoadComplete_keeps (s : State) (t : State) (h : execRotationLoadComplete s = .next t) : Keeps
    [.rods, .rot, .mem] s t := by
  unfold execRotationLoadComplete at h
  refine keeps_done h ?_
  split
  · refine keeps_ite (fun _ => ?_) (fun _ => ?_)
    · refine keeps_rods_rot_mem rfl rfl rfl ?_
      exact Keeps.refl _ _
    · exact Keeps.refl _ _
  · exact Keeps.refl _ _

theorem execUserSlotCopy_keeps (slot : Nat) (s : State) (t : State) (h : execUserSlotCopy slot s = .next t) : Keeps
    [.stat, .twin, .frames, .rods, .slots, .rot, .moves, .tally, .mem, .events] s t := by
  unfold execUserSlotCopy at h
  refine keeps_done h ?_
  refine Keeps.step (copySlot_keeps ..) rfl ?_
  exact Keeps.refl _ _

theorem execRetireFrame_keeps (frame value : Nat) (s : State) (t : State) (h : execRetireFrame frame value s = .next t)
    : Keeps [.stat, .twin, .frames, .rods, .slots, .rot, .moves, .tally, .events] s t := by
  unfold execRetireFrame at h
  refine keeps_done h ?_
  refine State.attempt_keeps _ _ _ _ rfl ?_
  refine Keeps.step (retireFrameApply_keeps ..) rfl ?_
  exact Keeps.refl _ _

theorem execRetireRod_keeps (rod value : Nat) (s : State) (t : State) (h : execRetireRod rod value s = .next t) : Keeps
    [.stat, .twin, .rods, .slots, .moves, .tally, .events] s t := by
  unfold execRetireRod at h
  refine keeps_done h ?_
  refine State.attempt_keeps _ _ _ _ rfl ?_
  refine Keeps.step (retireRodApply_keeps ..) rfl ?_
  exact Keeps.refl _ _

theorem execSlotImageWrite_keeps (slot : Nat) (image : SlotImage) (s : State) (t : State) (h : execSlotImageWrite slot
    image s = .next t) : Keeps [.dom, .stat, .slots, .events] s t := by
  unfold execSlotImageWrite at h
  refine keeps_done h ?_
  refine keeps_ite (fun _ => ?_) (fun _ => ?_)
  · exact Keeps.refl _ _
  · refine Keeps.step (signatureRefused_keeps ..) rfl ?_
    refine State.attempt_keeps _ _ _ _ rfl ?_
    refine Keeps.step (slotImageApply_keeps ..) rfl ?_
    exact Keeps.refl _ _

theorem execSlotEnable_keeps (slot value : Nat) (s : State) (t : State) (h : execSlotEnable slot value s = .next t) :
    Keeps [.dict, .stat, .twin, .frames, .rods, .slots, .rot, .moves, .tally, .mem, .events] s t := by
  unfold execSlotEnable at h
  refine keeps_done h ?_
  refine State.attempt_keeps _ _ _ _ rfl ?_
  refine Keeps.step (slotEnableApply_keeps ..) rfl ?_
  exact Keeps.refl _ _

end Sys2Proof.Machine
end

