-- ==== Sys2Proof/Laws/KeepsRodCore.lean ====
section
/-! SUPPORT. The parts of the state that each function of Machine/RodCore.lean may change. -/
set_option linter.unreachableTactic false
set_option linter.unusedTactic false

namespace Sys2Proof.Machine

theorem countRodEcc_keeps (s : State) (r : Nat) : Keeps [.stat, .rods] s (countRodEcc s r) := by
  unfold countRodEcc
  refine Keeps.step (State.bump_keeps ..) rfl ?_
  refine Keeps.step (State.setRod_keeps ..) rfl ?_
  exact Keeps.refl _ _

theorem rodNote_keeps (s : State) (r : Nat) (offs : List Nat) : Keeps [.stat, .rods] s (rodNote s r offs) := by
  unfold rodNote
  refine keeps_foldl (fun _ _ _ => ?_) ?_
  · refine keeps_ite (fun _ => ?_) (fun _ => ?_)
    · refine Keeps.step (countRodEcc_keeps ..) rfl ?_
      assumption
    · assumption
  · exact Keeps.refl _ _

theorem rodHeal_keeps (s : State) (r off : Nat) : Keeps [.rods] s (rodHeal s r off) := by
  unfold rodHeal
  refine Keeps.step (State.setRod_keeps ..) rfl ?_
  exact Keeps.refl _ _

theorem dmStore_keeps (s : State) (r : Nat) (e : Nat × Word) : Keeps [.stat, .rods, .mem] s (dmStore s r e) := by
  unfold dmStore
  refine keeps_mem rfl ?_
  refine keeps_ite (fun _ => ?_) (fun _ => ?_)
  · refine Keeps.step (rodHeal_keeps ..) rfl ?_
    refine Keeps.step (countRodEcc_keeps ..) rfl ?_
    exact Keeps.refl _ _
  · exact Keeps.refl _ _

theorem finishAt_keeps (s : State) (r : Nat) (rod : Rod) (stall : Nat) (w : Wrote) (pc : Nat) (reps : List RepLevel) :
    Keeps [.rods] s (finishAt s r rod stall w pc reps) := by
  unfold finishAt
  refine Keeps.step (State.setRod_keeps ..) rfl ?_
  exact Keeps.refl _ _

theorem finish_keeps (s : State) (r : Nat) (rod : Rod) (stall : Nat) (w : Wrote) : Keeps [.rods] s (finish s r rod stall
    w) := by
  unfold finish
  refine Keeps.step (finishAt_keeps ..) rfl ?_
  exact Keeps.refl _ _

theorem stallWord_keeps (s : State) (r : Nat) : Keeps [.rods] s (stallWord s r) := by
  unfold stallWord
  refine Keeps.step (State.setRod_keeps ..) rfl ?_
  exact Keeps.refl _ _

/-- A Rod's word keeps what the word itself, a fault and a correction keep. -/
theorem runWord_keeps {f : List Part} (s : State) (r : Nat) (word : State → State)
    (hf : Part.within [.stat, .twin, .frames, .rods, .slots, .rot, .moves, .tally, .events] f = true)
    (hw : ∀ u, Keeps f u (word u)) : Keeps f s (runWord s r word) := by
  have h1 : ∀ u c k, Keeps f u (rodFault u r c k) := fun u c k => Keeps.mono (rodFault_keeps u r c k) hf
  have h2 : Keeps f s (countRodEcc s r) := Keeps.step (countRodEcc_keeps ..) (by
    simp only [Part.within, List.all_cons, List.all_nil, Bool.and_true, Bool.and_eq_true] at hf ⊢
    exact ⟨hf.1, hf.2.2.2.1⟩) (Keeps.refl _ _)
  have h3 : ∀ v, Keeps f s (s.setRod r v) := fun v => Keeps.step (State.setRod_keeps ..) (by
    simp only [Part.within, List.all_cons, List.all_nil, Bool.and_true, Bool.and_eq_true] at hf ⊢
    exact hf.2.2.2.1) (Keeps.refl _ _)
  have hs : Part.within f f = true := List.all_eq_true.mpr (fun p hp => by simpa [Part.isIn] using hp)
  have h4 : ∀ u, Keeps f u (legalWord u r word) := fun u => by
    unfold legalWord
    split
    · exact hw u
    · exact h1 _ _ _
  unfold runWord
  split
  · split
    · exact h4 s
    · split
      · exact Keeps.step (h1 _ _ _) hs (h3 _)
      · exact Keeps.step (h4 _) hs h2
  · exact Keeps.refl _ _

theorem controlWord_keeps {f : List Part} (s : State) (r : Nat) (legal permitted : Bool) (word : State → State)
    (hf : Part.within [.stat, .twin, .frames, .rods, .slots, .rot, .moves, .tally, .events] f = true)
    (hw : ∀ u, Keeps f u (word u)) : Keeps f s (controlWord s r legal permitted word) := by
  have h1 : ∀ u c k, Keeps f u (rodFault u r c k) := fun u c k => Keeps.mono (rodFault_keeps u r c k) hf
  unfold controlWord
  refine runWord_keeps s r _ hf (fun u => ?_)
  repeat' first | exact h1 _ _ _ | exact hw _ | split

end Sys2Proof.Machine
end

