-- ==== Sys2Proof/Laws/KeepsRodControl.lean ====
section
/-! SUPPORT. The parts of the state that each function of Machine/RodControl.lean may change. -/
set_option linter.unreachableTactic false
set_option linter.unusedTactic false

namespace Sys2Proof.Machine

theorem openRepeat_keeps (s : State) (r count w13 stall : Nat) : Keeps [.stat, .twin, .frames, .rods, .slots, .rot,
    .moves, .tally, .events] s (openRepeat s r count w13 stall) := by
  unfold openRepeat
  dsimp only
  refine keeps_ite (fun _ => ?_) (fun _ => ?_)
  · refine Keeps.step (rodFault_keeps ..) rfl ?_
    exact Keeps.refl _ _
  · refine keeps_ite (fun _ => ?_) (fun _ => ?_)
    · refine Keeps.step (finishAt_keeps ..) rfl ?_
      exact Keeps.refl _ _
    · refine Keeps.step (finishAt_keeps ..) rfl ?_
      exact Keeps.refl _ _

theorem breakLevel_keeps (s : State) (r : Nat) : Keeps [.stat, .twin, .frames, .rods, .slots, .rot, .moves, .tally,
    .events] s (breakLevel s r) := by
  unfold breakLevel
  dsimp only
  split
  · refine Keeps.step (rodFault_keeps ..) rfl ?_
    exact Keeps.refl _ _
  · refine Keeps.step (finishAt_keeps ..) rfl ?_
    exact Keeps.refl _ _

theorem jumpIf_keeps (s : State) (r : Nat) (taken : Bool) (uses : List Nat) (target : Nat) (rod : Rod) : Keeps [.stat,
    .twin, .frames, .rods, .slots, .rot, .moves, .tally, .events] s (jumpIf s r taken uses target rod) := by
  unfold jumpIf
  refine keeps_ite (fun _ => ?_) (fun _ => ?_)
  · refine Keeps.step (rodFault_keeps ..) rfl ?_
    exact Keeps.refl _ _
  · refine keeps_ite (fun _ => ?_) (fun _ => ?_)
    · refine Keeps.step (finishAt_keeps ..) rfl ?_
      exact Keeps.refl _ _
    · refine Keeps.step (finish_keeps ..) rfl ?_
      exact Keeps.refl _ _

theorem finishItem_keeps (s : State) (r : Nat) : Keeps [.stat, .twin, .rods, .slots, .events] s (finishItem s r) := by
  unfold finishItem
  refine keeps_ite (fun _ => ?_) (fun _ => ?_)
  · exact Keeps.refl _ _
  · refine keeps_ite (fun _ => ?_) (fun _ => ?_)
    · refine Keeps.step (endItem_keeps ..) rfl ?_
      exact Keeps.refl _ _
    · refine Keeps.step (State.setRod_keeps ..) rfl ?_
      exact Keeps.refl _ _

theorem takeWord_keeps (s : State) (r an k8 : Nat) : Keeps [.stat, .twin, .frames, .rods, .slots, .rot, .moves, .tally,
    .mem, .events] s (takeWord s r an k8) := by
  unfold takeWord
  refine keeps_ite (fun _ => ?_) (fun _ => ?_)
  · refine Keeps.step (rodFault_keeps ..) rfl ?_
    exact Keeps.refl _ _
  · refine keeps_ite (fun _ => ?_) (fun _ => ?_)
    · refine Keeps.step (finishItem_keeps ..) rfl ?_
      refine Keeps.step (State.setRod_keeps ..) rfl ?_
      exact Keeps.refl _ _
    · refine Keeps.step (giveIfAny_keeps ..) rfl ?_
      refine Keeps.step (State.setRod_keeps ..) rfl ?_
      refine Keeps.step (finishItem_keeps ..) rfl ?_
      refine Keeps.step (State.setRod_keeps ..) rfl ?_
      exact Keeps.refl _ _

theorem putWord_keeps (s : State) (r an k8 : Nat) : Keeps [.stat, .twin, .frames, .rods, .slots, .rot, .moves, .tally,
    .events] s (putWord s r an k8) := by
  unfold putWord
  dsimp only
  refine keeps_ite (fun _ => ?_) (fun _ => ?_)
  · refine Keeps.step (rodFault_keeps ..) rfl ?_
    exact Keeps.refl _ _
  · refine keeps_ite (fun _ => ?_) (fun _ => ?_)
    · refine Keeps.step (rodFault_keeps ..) rfl ?_
      refine Keeps.step (State.setRod_keeps ..) rfl ?_
      exact Keeps.refl _ _
    · split
      · refine Keeps.step (State.setRod_keeps ..) rfl ?_
        refine Keeps.step (tallyPut_keeps ..) rfl ?_
        refine Keeps.step (rodNote_keeps ..) rfl ?_
        exact Keeps.refl _ _
      · refine Keeps.step (finish_keeps ..) rfl ?_
        refine Keeps.step (tallyPut_keeps ..) rfl ?_
        refine Keeps.step (rodNote_keeps ..) rfl ?_
        exact Keeps.refl _ _

theorem xferWord_keeps (s : State) (r : Nat) (out : Bool) (an fa md : Nat) : Keeps [.stat, .twin, .frames, .rods,
    .slots, .rot, .moves, .tally, .events] s (xferWord s r out an fa md) := by
  unfold xferWord
  refine keeps_ite (fun _ => ?_) (fun _ => ?_)
  · refine Keeps.step (finish_keeps ..) rfl ?_
    exact Keeps.refl _ _
  · refine keeps_ite (fun _ => ?_) (fun _ => ?_)
    · refine Keeps.step (rodFault_keeps ..) rfl ?_
      exact Keeps.refl _ _
    · refine keeps_ite (fun _ => ?_) (fun _ => ?_)
      · refine Keeps.step (rodFault_keeps ..) rfl ?_
        exact Keeps.refl _ _
      · refine keeps_ite (fun _ => ?_) (fun _ => ?_)
        · refine Keeps.step (rodFault_keeps ..) rfl ?_
          exact Keeps.refl _ _
        · refine keeps_ite (fun _ => ?_) (fun _ => ?_)
          · refine Keeps.step (rodFault_keeps ..) rfl ?_
            exact Keeps.refl _ _
          · refine keeps_ite (fun _ => ?_) (fun _ => ?_)
            · refine Keeps.step (stallWord_keeps ..) rfl ?_
              exact Keeps.refl _ _
            · refine Keeps.step (finish_keeps ..) rfl ?_
              exact Keeps.refl _ _

theorem immediateWord_keeps (s : State) (r sel v : Nat) (uses : List Nat) : Keeps [.stat, .twin, .frames, .rods, .slots,
    .rot, .moves, .tally, .events] s (immediateWord s r sel v uses) := by
  unfold immediateWord
  refine keeps_ite (fun _ => ?_) (fun _ => ?_)
  · refine Keeps.step (rodFault_keeps ..) rfl ?_
    exact Keeps.refl _ _
  · refine Keeps.step (finish_keeps ..) rfl ?_
    exact Keeps.refl _ _

theorem runStart_keeps (s : State) (r startPc : Nat) : Keeps [.rods] s (runStart s r startPc) := by
  unfold runStart
  refine keeps_ite (fun _ => ?_) (fun _ => ?_)
  · refine Keeps.step (State.setRod_keeps ..) rfl ?_
    exact Keeps.refl _ _
  · refine Keeps.step (State.setRod_keeps ..) rfl ?_
    exact Keeps.refl _ _

theorem runStop_keeps (s : State) (r : Nat) : Keeps [.stat, .twin, .rods, .slots, .tally, .events] s (runStop s r) := by
  unfold runStop
  split
  · refine Keeps.step (State.setRod_keeps ..) rfl ?_
    refine Keeps.step (endItem_keeps ..) rfl ?_
    refine Keeps.step (dropHeld_keeps ..) rfl ?_
    exact Keeps.refl _ _
  · refine Keeps.step (State.setRod_keeps ..) rfl ?_
    refine Keeps.step (endItem_keeps ..) rfl ?_
    refine Keeps.step (dropHeld_keeps ..) rfl ?_
    exact Keeps.refl _ _
  · exact Keeps.refl _ _

theorem faultClear_keeps (s : State) (r : Nat) : Keeps [.rods] s (faultClear s r) := by
  unfold faultClear
  refine keeps_ite (fun _ => ?_) (fun _ => ?_)
  · refine Keeps.step (State.setRod_keeps ..) rfl ?_
    exact Keeps.refl _ _
  · exact Keeps.refl _ _

theorem execRep_keeps (rod n16 w13 : Nat) (s : State) (t : State) (h : execRep rod n16 w13 s = .next t) : Keeps [.stat,
    .twin, .frames, .rods, .slots, .rot, .moves, .tally, .events] s t := by
  unfold execRep at h
  refine keeps_done h ?_
  refine controlWord_keeps _ _ _ _ _ rfl ?_
  intro hm
  refine Keeps.step (openRepeat_keeps ..) rfl ?_
  exact Keeps.refl _ _

theorem execRepa_keeps (rod an w13 : Nat) (s : State) (t : State) (h : execRepa rod an w13 s = .next t) : Keeps [.stat,
    .twin, .frames, .rods, .slots, .rot, .moves, .tally, .events] s t := by
  unfold execRepa at h
  refine keeps_done h ?_
  refine controlWord_keeps _ _ _ _ _ rfl ?_
  intro hm
  refine Keeps.step (openRepeat_keeps ..) rfl ?_
  exact Keeps.refl _ _

theorem execBrk_keeps (rod : Nat) (s : State) (t : State) (h : execBrk rod s = .next t) : Keeps [.stat, .twin, .frames,
    .rods, .slots, .rot, .moves, .tally, .events] s t := by
  unfold execBrk at h
  refine keeps_done h ?_
  refine controlWord_keeps _ _ _ _ _ rfl (fun _ => ?_)
  refine Keeps.step (breakLevel_keeps ..) rfl ?_
  exact Keeps.refl _ _

theorem execJ_keeps (rod w13 : Nat) (s : State) (t : State) (h : execJ rod w13 s = .next t) : Keeps [.stat, .twin,
    .frames, .rods, .slots, .rot, .moves, .tally, .events] s t := by
  unfold execJ at h
  refine keeps_done h ?_
  refine controlWord_keeps _ _ _ _ _ rfl (fun _ => ?_)
  refine Keeps.step (jumpIf_keeps ..) rfl ?_
  exact Keeps.refl _ _

theorem execJz_keeps (rod an w13 : Nat) (s : State) (t : State) (h : execJz rod an w13 s = .next t) : Keeps [.stat,
    .twin, .frames, .rods, .slots, .rot, .moves, .tally, .events] s t := by
  unfold execJz at h
  refine keeps_done h ?_
  refine controlWord_keeps _ _ _ _ _ rfl (fun _ => ?_)
  refine Keeps.step (jumpIf_keeps ..) rfl ?_
  exact Keeps.refl _ _

theorem execJnz_keeps (rod an w13 : Nat) (s : State) (t : State) (h : execJnz rod an w13 s = .next t) : Keeps [.stat,
    .twin, .frames, .rods, .slots, .rot, .moves, .tally, .events] s t := by
  unfold execJnz at h
  refine keeps_done h ?_
  refine controlWord_keeps _ _ _ _ _ rfl (fun _ => ?_)
  refine Keeps.step (jumpIf_keeps ..) rfl ?_
  exact Keeps.refl _ _

theorem execJneg_keeps (rod an w13 : Nat) (s : State) (t : State) (h : execJneg rod an w13 s = .next t) : Keeps [.stat,
    .twin, .frames, .rods, .slots, .rot, .moves, .tally, .events] s t := by
  unfold execJneg at h
  refine keeps_done h ?_
  refine controlWord_keeps _ _ _ _ _ rfl (fun _ => ?_)
  refine Keeps.step (jumpIf_keeps ..) rfl ?_
  exact Keeps.refl _ _

theorem execCall_keeps (rod w13 : Nat) (s : State) (t : State) (h : execCall rod w13 s = .next t) : Keeps [.stat, .twin,
    .frames, .rods, .slots, .rot, .moves, .tally, .events] s t := by
  unfold execCall at h
  refine keeps_done h ?_
  refine controlWord_keeps _ _ _ _ _ rfl (fun _ => ?_)
  refine Keeps.step (jumpIf_keeps ..) rfl ?_
  exact Keeps.refl _ _

theorem execRet_keeps (rod : Nat) (s : State) (t : State) (h : execRet rod s = .next t) : Keeps [.stat, .twin, .frames,
    .rods, .slots, .rot, .moves, .tally, .events] s t := by
  unfold execRet at h
  refine keeps_done h ?_
  refine controlWord_keeps _ _ _ _ _ rfl (fun _ => ?_)
  refine Keeps.step (jumpIf_keeps ..) rfl ?_
  exact Keeps.refl _ _

theorem execTake_keeps (rod an k8 : Nat) (s : State) (t : State) (h : execTake rod an k8 s = .next t) : Keeps [.stat,
    .twin, .frames, .rods, .slots, .rot, .moves, .tally, .mem, .events] s t := by
  unfold execTake at h
  refine keeps_done h ?_
  refine controlWord_keeps _ _ _ _ _ rfl (fun _ => ?_)
  refine Keeps.step (takeWord_keeps ..) rfl ?_
  exact Keeps.refl _ _

theorem execPut_keeps (rod an k8 : Nat) (s : State) (t : State) (h : execPut rod an k8 s = .next t) : Keeps [.stat,
    .twin, .frames, .rods, .slots, .rot, .moves, .tally, .events] s t := by
  unfold execPut at h
  refine keeps_done h ?_
  refine controlWord_keeps _ _ _ _ _ rfl (fun _ => ?_)
  refine Keeps.step (putWord_keeps ..) rfl ?_
  exact Keeps.refl _ _

theorem execDone_keeps (rod : Nat) (s : State) (t : State) (h : execDone rod s = .next t) : Keeps [.stat, .twin,
    .frames, .rods, .slots, .rot, .moves, .tally, .events] s t := by
  unfold execDone at h
  refine keeps_done h ?_
  refine controlWord_keeps _ _ _ _ _ rfl (fun _ => ?_)
  refine Keeps.step (finishItem_keeps ..) rfl ?_
  refine Keeps.step (finish_keeps ..) rfl ?_
  exact Keeps.refl _ _

theorem execXfer_keeps (rod : Nat) (out : Bool) (an fa md : Nat) (s : State) (t : State) (h : execXfer rod out an fa md
    s = .next t) : Keeps [.stat, .twin, .frames, .rods, .slots, .rot, .moves, .tally, .events] s t := by
  unfold execXfer at h
  refine keeps_done h ?_
  refine controlWord_keeps _ _ _ _ _ rfl (fun _ => ?_)
  refine Keeps.step (xferWord_keeps ..) rfl ?_
  exact Keeps.refl _ _

theorem execWaitx_keeps (rod k8 : Nat) (s : State) (t : State) (h : execWaitx rod k8 s = .next t) : Keeps [.stat, .twin,
    .frames, .rods, .slots, .rot, .moves, .tally, .events] s t := by
  unfold execWaitx at h
  refine keeps_done h ?_
  refine controlWord_keeps _ _ _ _ _ rfl (fun _ => ?_)
  refine keeps_ite (fun _ => ?_) (fun _ => ?_)
  · refine Keeps.step (finish_keeps ..) rfl ?_
    exact Keeps.refl _ _
  · refine Keeps.step (State.setRod_keeps ..) rfl ?_
    exact Keeps.refl _ _

theorem execSetps_keeps (rod k8 : Nat) (s : State) (t : State) (h : execSetps rod k8 s = .next t) : Keeps [.stat, .twin,
    .frames, .rods, .slots, .rot, .moves, .tally, .events] s t := by
  unfold execSetps at h
  refine keeps_done h ?_
  refine controlWord_keeps _ _ _ _ _ rfl (fun _ => ?_)
  refine Keeps.step (finish_keeps ..) rfl ?_
  exact Keeps.refl _ _

theorem execMfs_keeps (rod an k8 : Nat) (s : State) (t : State) (h : execMfs rod an k8 s = .next t) : Keeps [.stat,
    .twin, .frames, .rods, .slots, .rot, .moves, .tally, .events] s t := by
  unfold execMfs at h
  refine keeps_done h ?_
  refine controlWord_keeps _ _ _ _ _ rfl (fun _ => ?_)
  refine Keeps.step (finish_keeps ..) rfl ?_
  exact Keeps.refl _ _

theorem execMts_keeps (rod an k8 : Nat) (s : State) (t : State) (h : execMts rod an k8 s = .next t) : Keeps [.stat,
    .twin, .frames, .rods, .slots, .rot, .moves, .tally, .events] s t := by
  unfold execMts at h
  refine keeps_done h ?_
  refine controlWord_keeps _ _ _ _ _ rfl (fun _ => ?_)
  refine Keeps.step (finish_keeps ..) rfl ?_
  exact Keeps.refl _ _

theorem execMov_keeps (rod ad as_ : Nat) (s : State) (t : State) (h : execMov rod ad as_ s = .next t) : Keeps [.stat,
    .twin, .frames, .rods, .slots, .rot, .moves, .tally, .events] s t := by
  unfold execMov at h
  refine keeps_done h ?_
  refine controlWord_keeps _ _ _ _ _ rfl (fun _ => ?_)
  refine Keeps.step (finish_keeps ..) rfl ?_
  exact Keeps.refl _ _

theorem execLdw_keeps (rod an am : Nat) (s : State) (t : State) (h : execLdw rod an am s = .next t) : Keeps [.stat,
    .twin, .frames, .rods, .slots, .rot, .moves, .tally, .events] s t := by
  unfold execLdw at h
  refine keeps_done h ?_
  refine controlWord_keeps _ _ _ _ _ rfl (fun _ => ?_)
  refine keeps_ite (fun _ => ?_) (fun _ => ?_)
  · refine Keeps.step (rodFault_keeps ..) rfl ?_
    exact Keeps.refl _ _
  · refine keeps_ite (fun _ => ?_) (fun _ => ?_)
    · refine Keeps.step (stallWord_keeps ..) rfl ?_
      exact Keeps.refl _ _
    · refine keeps_ite (fun _ => ?_) (fun _ => ?_)
      · refine Keeps.step (rodFault_keeps ..) rfl ?_
        refine Keeps.step (State.setRod_keeps ..) rfl ?_
        exact Keeps.refl _ _
      · refine Keeps.step (finish_keeps ..) rfl ?_
        refine Keeps.step (rodNote_keeps ..) rfl ?_
        exact Keeps.refl _ _

theorem execStw_keeps (rod an am : Nat) (s : State) (t : State) (h : execStw rod an am s = .next t) : Keeps [.stat,
    .twin, .frames, .rods, .slots, .rot, .moves, .tally, .mem, .events] s t := by
  unfold execStw at h
  refine keeps_done h ?_
  refine controlWord_keeps _ _ _ _ _ rfl (fun _ => ?_)
  refine keeps_ite (fun _ => ?_) (fun _ => ?_)
  · refine Keeps.step (rodFault_keeps ..) rfl ?_
    exact Keeps.refl _ _
  · refine keeps_ite (fun _ => ?_) (fun _ => ?_)
    · refine Keeps.step (stallWord_keeps ..) rfl ?_
      exact Keeps.refl _ _
    · refine keeps_ite (fun _ => ?_) (fun _ => ?_)
      · refine Keeps.step (rodFault_keeps ..) rfl ?_
        refine Keeps.step (State.setRod_keeps ..) rfl ?_
        exact Keeps.refl _ _
      · refine Keeps.step (finish_keeps ..) rfl ?_
        refine Keeps.step (dmStore_keeps ..) rfl ?_
        exact Keeps.refl _ _

theorem execLdf_keeps (rod fa am : Nat) (s : State) (t : State) (h : execLdf rod fa am s = .next t) : Keeps [.stat,
    .twin, .frames, .rods, .slots, .rot, .moves, .tally, .events] s t := by
  unfold execLdf at h
  refine keeps_done h ?_
  refine controlWord_keeps _ _ _ _ _ rfl (fun _ => ?_)
  refine keeps_ite (fun _ => ?_) (fun _ => ?_)
  · refine Keeps.step (rodFault_keeps ..) rfl ?_
    exact Keeps.refl _ _
  · refine keeps_ite (fun _ => ?_) (fun _ => ?_)
    · refine Keeps.step (stallWord_keeps ..) rfl ?_
      exact Keeps.refl _ _
    · refine keeps_ite (fun _ => ?_) (fun _ => ?_)
      · refine Keeps.step (rodFault_keeps ..) rfl ?_
        refine Keeps.step (State.setRod_keeps ..) rfl ?_
        exact Keeps.refl _ _
      · refine Keeps.step (finish_keeps ..) rfl ?_
        refine Keeps.step (rodNote_keeps ..) rfl ?_
        exact Keeps.refl _ _

theorem execSrinit_keeps (rod an : Nat) (min : Bool) (s : State) (t : State) (h : execSrinit rod an min s = .next t) :
    Keeps [.stat, .twin, .frames, .rods, .slots, .rot, .moves, .tally, .events] s t := by
  unfold execSrinit at h
  refine keeps_done h ?_
  refine controlWord_keeps _ _ _ _ _ rfl (fun _ => ?_)
  refine Keeps.step (finish_keeps ..) rfl ?_
  exact Keeps.refl _ _

theorem execBxclr_keeps (rod : Nat) (s : State) (t : State) (h : execBxclr rod s = .next t) : Keeps [.stat, .twin,
    .frames, .rods, .slots, .rot, .moves, .tally, .events] s t := by
  unfold execBxclr at h
  refine keeps_done h ?_
  refine controlWord_keeps _ _ _ _ _ rfl (fun _ => ?_)
  refine Keeps.step (finish_keeps ..) rfl ?_
  exact Keeps.refl _ _

theorem execBxstep_keeps (rod : Nat) (s : State) (t : State) (h : execBxstep rod s = .next t) : Keeps [.stat, .twin,
    .frames, .rods, .slots, .rot, .moves, .tally, .events] s t := by
  unfold execBxstep at h
  refine keeps_done h ?_
  refine controlWord_keeps _ _ _ _ _ rfl (fun _ => ?_)
  refine Keeps.step (finish_keeps ..) rfl ?_
  exact Keeps.refl _ _

theorem execHalt_keeps (rod : Nat) (s : State) (t : State) (h : execHalt rod s = .next t) : Keeps [.stat, .twin,
    .frames, .rods, .slots, .rot, .moves, .tally, .events] s t := by
  unfold execHalt at h
  refine keeps_done h ?_
  refine controlWord_keeps _ _ _ _ _ rfl (fun _ => ?_)
  refine Keeps.step (State.setRod_keeps ..) rfl ?_
  refine Keeps.step (endItem_keeps ..) rfl ?_
  exact Keeps.refl _ _

theorem execTrap_keeps (rod k8 : Nat) (s : State) (t : State) (h : execTrap rod k8 s = .next t) : Keeps [.stat, .twin,
    .frames, .rods, .slots, .rot, .moves, .tally, .events] s t := by
  unfold execTrap at h
  refine keeps_done h ?_
  refine controlWord_keeps _ _ _ _ _ rfl (fun _ => ?_)
  refine Keeps.step (rodFault_keeps ..) rfl ?_
  exact Keeps.refl _ _

theorem execLi_keeps (rod sel imm : Nat) (s : State) (t : State) (h : execLi rod sel imm s = .next t) : Keeps [.stat,
    .twin, .frames, .rods, .slots, .rot, .moves, .tally, .events] s t := by
  unfold execLi at h
  refine keeps_done h ?_
  refine runWord_keeps _ _ _ rfl (fun _ => ?_)
  refine keeps_ite (fun _ => ?_) (fun _ => ?_)
  · refine Keeps.step (immediateWord_keeps ..) rfl ?_
    exact Keeps.refl _ _
  · refine Keeps.step (rodFault_keeps ..) rfl ?_
    exact Keeps.refl _ _

theorem execAddi_keeps (rod sel imm : Nat) (s : State) (t : State) (h : execAddi rod sel imm s = .next t) : Keeps
    [.stat, .twin, .frames, .rods, .slots, .rot, .moves, .tally, .events] s t := by
  unfold execAddi at h
  refine keeps_done h ?_
  refine runWord_keeps _ _ _ rfl (fun _ => ?_)
  refine keeps_ite (fun _ => ?_) (fun _ => ?_)
  · refine Keeps.step (immediateWord_keeps ..) rfl ?_
    exact Keeps.refl _ _
  · refine Keeps.step (rodFault_keeps ..) rfl ?_
    exact Keeps.refl _ _

theorem execLih_keeps (rod sel imm : Nat) (s : State) (t : State) (h : execLih rod sel imm s = .next t) : Keeps [.stat,
    .twin, .frames, .rods, .slots, .rot, .moves, .tally, .events] s t := by
  unfold execLih at h
  refine keeps_done h ?_
  refine runWord_keeps _ _ _ rfl (fun _ => ?_)
  refine keeps_ite (fun _ => ?_) (fun _ => ?_)
  · refine Keeps.step (immediateWord_keeps ..) rfl ?_
    exact Keeps.refl _ _
  · refine Keeps.step (rodFault_keeps ..) rfl ?_
    exact Keeps.refl _ _

theorem execRodRunStart_keeps (rod startPc : Nat) (s : State) (t : State) (h : execRodRunStart rod startPc s = .next t)
    : Keeps [.rods] s t := by
  unfold execRodRunStart at h
  refine keeps_done h ?_
  refine keeps_ite (fun _ => ?_) (fun _ => ?_)
  · refine Keeps.step (runStart_keeps ..) rfl ?_
    exact Keeps.refl _ _
  · exact Keeps.refl _ _

theorem execRodRunStop_keeps (rod : Nat) (s : State) (t : State) (h : execRodRunStop rod s = .next t) : Keeps [.stat,
    .twin, .rods, .slots, .tally, .events] s t := by
  unfold execRodRunStop at h
  refine keeps_done h ?_
  refine keeps_ite (fun _ => ?_) (fun _ => ?_)
  · refine Keeps.step (runStop_keeps ..) rfl ?_
    exact Keeps.refl _ _
  · exact Keeps.refl _ _

theorem execRodFaultClear_keeps (rod : Nat) (s : State) (t : State) (h : execRodFaultClear rod s = .next t) : Keeps
    [.rods] s t := by
  unfold execRodFaultClear at h
  refine keeps_done h ?_
  refine keeps_ite (fun _ => ?_) (fun _ => ?_)
  · refine Keeps.step (faultClear_keeps ..) rfl ?_
    exact Keeps.refl _ _
  · exact Keeps.refl _ _

end Sys2Proof.Machine
end

