-- ==== Sys2Proof/Laws/KeepsOutBus.lean ====
section
/-! SUPPORT. The parts of the state that each function of Machine/OutBus.lean may change. -/
set_option linter.unreachableTactic false
set_option linter.unusedTactic false

namespace Sys2Proof.Machine

theorem meterFeed_keeps (s : State) (f : Nat) (y : List Int) (g : Int) (clamped : Nat) : Keeps [.stat] s (meterFeed s f
    y g clamped) := by
  unfold meterFeed
  refine Keeps.step (State.bump_keeps ..) rfl ?_
  refine Keeps.step (State.stset_keeps ..) rfl ?_
  refine Keeps.step (State.stset_keeps ..) rfl ?_
  refine Keeps.step (State.stset_keeps ..) rfl ?_
  exact Keeps.refl _ _

theorem writePart_keeps (s : State) (a n : Nat) (re im : List Int) : Keeps [.stat, .ledger, .mem] s (writePart s a n re
    im) := by
  unfold writePart
  refine Keeps.step (ledgerWrite_keeps ..) rfl ?_
  exact Keeps.refl _ _

theorem storeCopy_keeps (s : State) (n f : Nat) (set : FilterSet) : Keeps [.stat, .ledger, .mem] s (storeCopy s n f set)
    := by
  unfold storeCopy
  refine keeps_foldl (fun _ _ _ => ?_) ?_
  · refine Keeps.step (writePart_keeps ..) rfl ?_
    assumption
  · exact Keeps.refl _ _

theorem storeBank_keeps (s : State) (n f b : Nat) (set : FilterSet) : Keeps [.nv, .stat, .pipe, .twin, .dram, .mem,
    .events, .draws] s (storeBank s n f b set) := by
  unfold storeBank
  refine keeps_ite (fun _ => ?_) (fun _ => ?_)
  · exact Keeps.refl _ _
  · refine Keeps.step (dramBurst_keeps ..) rfl ?_
    exact Keeps.refl _ _

theorem noteRange_keeps (s : State) (t a len : Nat) : Keeps [.stat, .twin, .ledger, .events] s (noteRange s t a len) :=
    by
  unfold noteRange
  dsimp only
  refine Keeps.step (ledgerMark_keeps ..) rfl ?_
  refine keeps_foldl (fun _ _ _ => ?_) ?_
  · refine Keeps.step (ledgerNote_keeps ..) rfl ?_
    assumption
  · exact Keeps.refl _ _

theorem noteAlign_keeps (s : State) (n f t a1 : Nat) (st : FeedSt) : Keeps [.stat, .twin, .ledger, .events] s (noteAlign
    s n f t a1 st) := by
  unfold noteAlign
  refine keeps_ite (fun _ => ?_) (fun _ => ?_)
  · exact Keeps.refl _ _
  · dsimp only
    refine keeps_foldl (fun _ _ _ => ?_) ?_
    · refine Keeps.step (noteRange_keeps ..) rfl ?_
      assumption
    · exact Keeps.refl _ _

theorem noteReads_keeps (s : State) (n f t u : Nat) (c : Corr) : Keeps [.nv, .stat, .pipe, .twin, .ledger, .dram, .mem,
    .events, .draws] s (noteReads s n f t u c) := by
  unfold noteReads
  dsimp only
  split
  · refine keeps_ite (fun _ => ?_) (fun _ => ?_)
    · refine Keeps.step (State.mark_keeps ..) rfl ?_
      refine Keeps.step (burstEnd_keeps ..) rfl ?_
      refine keeps_foldl (fun _ _ _ => ?_) ?_
      · refine Keeps.step (dramNote_keeps ..) rfl ?_
        assumption
      · refine Keeps.step (wakeDram_keeps ..) rfl ?_
        refine keeps_ite (fun _ => ?_) (fun _ => ?_)
        · refine keeps_foldl (fun _ _ _ => ?_) ?_
          · refine Keeps.step (noteRange_keeps ..) rfl ?_
            refine Keeps.step (noteRange_keeps ..) rfl ?_
            assumption
          · refine keeps_foldl (fun _ _ _ => ?_) ?_
            · refine Keeps.step (noteRange_keeps ..) rfl ?_
              assumption
            · exact Keeps.refl _ _
        · exact Keeps.refl _ _
    · refine Keeps.step (burstEnd_keeps ..) rfl ?_
      refine keeps_foldl (fun _ _ _ => ?_) ?_
      · refine Keeps.step (dramNote_keeps ..) rfl ?_
        assumption
      · refine Keeps.step (wakeDram_keeps ..) rfl ?_
        refine keeps_ite (fun _ => ?_) (fun _ => ?_)
        · refine keeps_foldl (fun _ _ _ => ?_) ?_
          · refine Keeps.step (noteRange_keeps ..) rfl ?_
            refine Keeps.step (noteRange_keeps ..) rfl ?_
            assumption
          · refine keeps_foldl (fun _ _ _ => ?_) ?_
            · refine Keeps.step (noteRange_keeps ..) rfl ?_
              assumption
            · exact Keeps.refl _ _
        · exact Keeps.refl _ _
  · refine keeps_ite (fun _ => ?_) (fun _ => ?_)
    · refine keeps_foldl (fun _ _ _ => ?_) ?_
      · refine Keeps.step (noteRange_keeps ..) rfl ?_
        refine Keeps.step (noteRange_keeps ..) rfl ?_
        assumption
      · refine keeps_foldl (fun _ _ _ => ?_) ?_
        · refine Keeps.step (noteRange_keeps ..) rfl ?_
          assumption
        · exact Keeps.refl _ _
    · exact Keeps.refl _ _

theorem reloadPart_keeps (s : State) (n f p : Nat) : Keeps [.nv, .stat, .pipe, .twin, .ledger, .dram, .mem, .events,
    .draws] s (reloadPart s n f p) := by
  unfold reloadPart
  dsimp only
  split
  · refine Keeps.step (writePart_keeps ..) rfl ?_
    exact Keeps.refl _ _
  · refine Keeps.step (writePart_keeps ..) rfl ?_
    refine Keeps.step (State.setFeed_keeps ..) rfl ?_
    refine Keeps.step (burstEnd_keeps ..) rfl ?_
    refine keeps_foldl (fun _ _ _ => ?_) ?_
    · refine Keeps.step (dramNote_keeps ..) rfl ?_
      assumption
    · refine Keeps.step (wakeDram_keeps ..) rfl ?_
      exact Keeps.refl _ _

theorem storeAlign_keeps (s : State) (n f t : Nat) (old new : List Int) : Keeps [.stat, .ledger, .mem] s (storeAlign s n
    f t old new) := by
  unfold storeAlign
  refine keeps_ite (fun _ => ?_) (fun _ => ?_)
  · exact Keeps.refl _ _
  · refine Keeps.step (ledgerWrite_keeps ..) rfl ?_
    exact Keeps.refl _ _

theorem storeLine_keeps (s : State) (n f t u : Nat) (c : Corr) (newest : Option Spectrum) : Keeps [.nv, .stat, .pipe,
    .twin, .ledger, .dram, .mem, .events, .draws] s (storeLine s n f t u c newest) := by
  unfold storeLine
  dsimp only
  refine keeps_ite (fun _ => ?_) (fun _ => ?_)
  · refine keeps_foldl (fun _ _ _ => ?_) ?_
    · refine keeps_ite (fun _ => ?_) (fun _ => ?_)
      · refine Keeps.step (reloadPart_keeps ..) rfl ?_
        assumption
      · assumption
    · split
      · refine Keeps.step (ledgerWrite_keeps ..) rfl ?_
        refine Keeps.step (writePart_keeps ..) rfl ?_
        exact Keeps.refl _ _
      · exact Keeps.refl _ _
  · split
    · refine Keeps.step (ledgerWrite_keeps ..) rfl ?_
      refine Keeps.step (writePart_keeps ..) rfl ?_
      exact Keeps.refl _ _
    · exact Keeps.refl _ _

theorem busFeed_keeps (s : State) (f : Nat) : Keeps [.nv, .stat, .pipe, .twin, .ledger, .dram, .mem, .events, .draws] s
    (busFeed s f) := by
  unfold busFeed
  dsimp only
  refine keeps_pipe rfl ?_
  refine Keeps.step (meterFeed_keeps ..) rfl ?_
  refine Keeps.step (storeLine_keeps ..) rfl ?_
  refine Keeps.step (storeAlign_keeps ..) rfl ?_
  refine Keeps.step (State.setFeed_keeps ..) rfl ?_
  refine Keeps.step (noteAlign_keeps ..) rfl ?_
  refine Keeps.step (noteReads_keeps ..) rfl ?_
  exact Keeps.refl _ _

theorem outputBus_keeps (s : State) : Keeps [.nv, .stat, .pipe, .twin, .ledger, .dram, .mem, .events, .draws] s
    (outputBus s) := by
  unfold outputBus
  dsimp only
  split
  · refine Keeps.step (State.stset_keeps ..) rfl ?_
    refine Keeps.step (State.stset_keeps ..) rfl ?_
    refine keeps_foldl (fun _ _ _ => ?_) ?_
    · refine Keeps.step (busFeed_keeps ..) rfl ?_
      assumption
    · refine keeps_pipe rfl ?_
      exact Keeps.refl _ _
  · refine Keeps.step (State.stset_keeps ..) rfl ?_
    refine Keeps.step (State.stset_keeps ..) rfl ?_
    refine keeps_foldl (fun _ _ _ => ?_) ?_
    · refine Keeps.step (busFeed_keeps ..) rfl ?_
      assumption
    · refine keeps_pipe rfl ?_
      exact Keeps.refl _ _

theorem execClearMeters_keeps (feed value : Nat) (s : State) (t : State) (h : execClearMeters feed value s = .next t) :
    Keeps [.stat, .todo] s t := by
  unfold execClearMeters at h
  refine keeps_done h ?_
  refine State.attempt_keeps _ _ _ _ rfl ?_
  refine keeps_ite (fun _ => ?_) (fun _ => ?_)
  · refine keeps_todo rfl ?_
    exact Keeps.refl _ _
  · exact Keeps.refl _ _

end Sys2Proof.Machine
end

