-- ==== Sys2Proof/Laws/KeepsEgress.lean ====
section
/-! SUPPORT. The parts of the state that each function of Machine/Egress.lean may change. -/
set_option linter.unreachableTactic false
set_option linter.unusedTactic false

namespace Sys2Proof.Machine

theorem sendStream_keeps (s : State) (i : Nat) (f : Nat → OutFrame) : Keeps [.stat, .out] s (sendStream s i f) := by
  unfold sendStream
  refine keeps_ite (fun _ => ?_) (fun _ => ?_)
  · refine Keeps.step (State.bump_keeps ..) rfl ?_
    refine Keeps.step (State.sendPort_keeps ..) rfl ?_
    refine Keeps.step (State.sendPort_keeps ..) rfl ?_
    exact Keeps.refl _ _
  · exact Keeps.refl _ _

theorem txPacket_keeps (s : State) (i t mask : Nat) (y : SMap (List Int)) : Keeps [.stat, .out] s (txPacket s i t mask
    y).1 := by
  unfold txPacket
  dsimp only
  split
  · dsimp only
    refine keeps_ite (fun _ => ?_) (fun _ => ?_)
    · refine Keeps.step (sendStream_keeps ..) rfl ?_
      exact Keeps.refl _ _
    · exact Keeps.refl _ _
  · dsimp only
    refine keeps_ite (fun _ => ?_) (fun _ => ?_)
    · exact Keeps.refl _ _
    · refine keeps_ite (fun _ => ?_) (fun _ => ?_)
      · refine keeps_ite (fun _ => ?_) (fun _ => ?_)
        · refine Keeps.step (sendStream_keeps ..) rfl ?_
          exact Keeps.refl _ _
        · exact Keeps.refl _ _
      · refine keeps_ite (fun _ => ?_) (fun _ => ?_)
        · refine Keeps.step (State.bump_keeps ..) rfl ?_
          exact Keeps.refl _ _
        · exact Keeps.refl _ _

theorem txSlot_keeps (missed : List Nat) (acc : State × SMap Nat) (i : Nat) : Keeps [.stat, .tx, .out] acc.1 (txSlot
    missed acc i).1 := by
  unfold txSlot
  split
  split
  dsimp only
  split
  · refine keeps_tx rfl ?_
    exact Keeps.refl _ _
  · refine Keeps.step (txPacket_keeps ..) rfl ?_
    refine keeps_tx rfl ?_
    exact Keeps.refl _ _

theorem aesOutChannel_keeps (missed : List Nat) (s : State) (c : Nat) : Keeps [.pipe, .aesOut] s (aesOutChannel missed s
    c) := by
  unfold aesOutChannel
  refine keeps_pipe_aesOut rfl rfl ?_
  exact Keeps.refl _ _

theorem groupWrite_keeps (s : State) (buffer n t g : Nat) (lanes : List (Nat × List Int)) : Keeps [.stat, .ledger, .mem]
    s (groupWrite s buffer n t g lanes) := by
  unfold groupWrite
  dsimp only
  refine Keeps.step (ledgerWrite_keeps ..) rfl ?_
  exact Keeps.refl _ _

theorem aesOutput_keeps (missed : List Nat) (acc : State × SMap Nat) (k : Nat) : Keeps [.stat, .pipe, .aesOut, .ledger,
    .mem] acc.1 (aesOutput missed acc k).1 := by
  unfold aesOutput
  split
  dsimp only
  split
  · dsimp only
    refine Keeps.step (groupWrite_keeps ..) rfl ?_
    refine Keeps.step (aesOutChannel_keeps ..) rfl ?_
    refine Keeps.step (aesOutChannel_keeps ..) rfl ?_
    exact Keeps.refl _ _
  · dsimp only
    refine Keeps.step (aesOutChannel_keeps ..) rfl ?_
    refine Keeps.step (aesOutChannel_keeps ..) rfl ?_
    exact Keeps.refl _ _

theorem driveBlock_keeps (missed : List Nat) (s : State) (n : Nat) : Keeps [.drives] s (driveBlock missed s n) := by
  unfold driveBlock
  refine keeps_ite (fun _ => ?_) (fun _ => ?_)
  · refine Keeps.step (State.setDrive_keeps ..) rfl ?_
    exact Keeps.refl _ _
  · refine Keeps.step (State.setDrive_keeps ..) rfl ?_
    exact Keeps.refl _ _

theorem txSlots_keeps (s : State) (missed : List Nat) : Keeps [.stat, .tx, .out] s (txSlots s missed).1 := by
  unfold txSlots
  refine keeps_foldl_fst (fun _ _ _ => ?_) ?_
  · refine Keeps.step (txSlot_keeps ..) rfl ?_
    assumption
  · exact Keeps.refl _ _

theorem aesOutputs_keeps (s : State) (missed : List Nat) : Keeps [.stat, .pipe, .aesOut, .ledger, .mem] s (aesOutputs s
    missed).1 := by
  unfold aesOutputs
  refine keeps_foldl_fst (fun _ _ _ => ?_) ?_
  · refine Keeps.step (aesOutput_keeps ..) rfl ?_
    assumption
  · dsimp only
    exact Keeps.refl _ _

theorem driveBlocks_keeps (s : State) (missed : List Nat) : Keeps [.drives] s (driveBlocks s missed) := by
  unfold driveBlocks
  refine keeps_foldl (fun _ _ _ => ?_) ?_
  · refine Keeps.step (driveBlock_keeps ..) rfl ?_
    assumption
  · exact Keeps.refl _ _

theorem egress_keeps (s : State) (slots aes drives : List Nat) : Keeps [.stat, .pipe, .tx, .aesOut, .drives, .twin,
    .tally, .beam, .ledger, .mem, .events, .out] s (egress s slots aes drives) := by
  unfold egress
  refine keeps_ite (fun _ => ?_) (fun _ => ?_)
  · exact Keeps.refl _ _
  · dsimp only
    refine keeps_twin rfl ?_
    refine Keeps.step (deadlinePurge_keeps ..) rfl ?_
    refine Keeps.step (stageMiss_keeps ..) rfl ?_
    refine Keeps.step (driveBlocks_keeps ..) rfl ?_
    refine Keeps.step (aesOutputs_keeps ..) rfl ?_
    refine Keeps.step (txSlots_keeps ..) rfl ?_
    refine keeps_pipe rfl ?_
    exact Keeps.refl _ _

theorem execEgressDeadline_keeps (slots aes drives : List Nat) (s : State) (t : State) (h : execEgressDeadline slots aes
    drives s = .next t) : Keeps [.clk, .time, .stat, .pipe, .tx, .aesOut, .drives, .twin, .tally, .beam, .ledger, .mem,
    .events, .out] s t := by
  unfold execEgressDeadline at h
  refine keeps_done h ?_
  refine keeps_ite (fun _ => ?_) (fun _ => ?_)
  · refine Keeps.step (egress_keeps ..) rfl ?_
    refine Keeps.step (State.elapse_keeps ..) rfl ?_
    exact Keeps.refl _ _
  · exact Keeps.refl _ _

theorem aesOutApply_keeps (s : State) (k sub : Nat) (v : Val) : Keeps [.dict, .dom] s (aesOutApply s k sub v) := by
  unfold aesOutApply
  split
  · refine Keeps.step (State.put_keeps ..) rfl ?_
    exact Keeps.refl _ _
  · refine keeps_ite (fun _ => ?_) (fun _ => ?_)
    · exact Keeps.refl _ _
    · refine Keeps.step (State.putBytes_keeps ..) rfl ?_
      exact Keeps.refl _ _

theorem execAes3OutputChange_keeps (output sub : Nat) (value : Val) (s : State) (t : State) (h : execAes3OutputChange
    output sub value s = .next t) : Keeps [.dict, .dom, .stat] s t := by
  unfold execAes3OutputChange at h
  refine keeps_done h ?_
  refine State.attempt_keeps _ _ _ _ rfl ?_
  refine Keeps.step (aesOutApply_keeps ..) rfl ?_
  exact Keeps.refl _ _

end Sys2Proof.Machine
end

