-- ==== Sys2Proof/Laws/KeepsDelayMatrix.lean ====
section
/-! SUPPORT. The parts of the state that each function of Machine/DelayMatrix.lean may change. -/
set_option linter.unreachableTactic false
set_option linter.unusedTactic false

namespace Sys2Proof.Machine

theorem readSpan_keeps (s : State) (x : Crosspoint) : Keeps [.nv, .stat, .pipe, .twin, .ledger, .dram, .mem, .events,
    .draws] s (readSpan s x) := by
  unfold readSpan
  dsimp only
  refine keeps_ite (fun _ => ?_) (fun _ => ?_)
  · refine keeps_ite (fun _ => ?_) (fun _ => ?_)
    · refine Keeps.step (State.mark_keeps ..) rfl ?_
      refine keeps_foldl (fun _ _ _ => ?_) ?_
      · refine Keeps.step (ledgerNote_keeps ..) rfl ?_
        assumption
      · exact Keeps.refl _ _
    · refine keeps_foldl (fun _ _ _ => ?_) ?_
      · refine Keeps.step (ledgerNote_keeps ..) rfl ?_
        assumption
      · exact Keeps.refl _ _
  · refine keeps_ite (fun _ => ?_) (fun _ => ?_)
    · refine Keeps.step (State.mark_keeps ..) rfl ?_
      refine Keeps.step (burstEnd_keeps ..) rfl ?_
      refine keeps_foldl (fun _ _ _ => ?_) ?_
      · refine Keeps.step (dramNote_keeps ..) rfl ?_
        assumption
      · refine Keeps.step (wakeDram_keeps ..) rfl ?_
        exact Keeps.refl _ _
    · refine Keeps.step (burstEnd_keeps ..) rfl ?_
      refine keeps_foldl (fun _ _ _ => ?_) ?_
      · refine Keeps.step (dramNote_keeps ..) rfl ?_
        assumption
      · refine Keeps.step (wakeDram_keeps ..) rfl ?_
        exact Keeps.refl _ _

theorem renderFeed_keeps (s : State) (f : Nat) : Keeps [.nv, .stat, .pipe, .twin, .ledger, .dram, .mem, .events, .draws]
    s (renderFeed s f) := by
  unfold renderFeed
  split
  · exact Keeps.refl _ _
  · dsimp only
    refine keeps_ite (fun _ => ?_) (fun _ => ?_)
    · refine Keeps.step (setSlide_keeps ..) rfl ?_
      exact Keeps.refl _ _
    · refine keeps_pipe rfl ?_
      refine Keeps.step (setSlide_keeps ..) rfl ?_
      exact Keeps.refl _ _

theorem spanDelivered_keeps (s : State) (engine object feed : Nat) : Keeps [.nv, .stat, .pipe, .twin, .ledger, .dram,
    .mem, .events, .draws] s (spanDelivered s engine object feed) := by
  unfold spanDelivered
  dsimp only
  split
  · exact Keeps.refl _ _
  · refine keeps_ite (fun _ => ?_) (fun _ => ?_)
    · refine Keeps.step (readSpan_keeps ..) rfl ?_
      refine Keeps.step (setSlide_keeps ..) rfl ?_
      exact Keeps.refl _ _
    · exact Keeps.refl _ _

theorem dmDeadline_keeps (s : State) : Keeps [.stat, .pipe, .twin, .tally, .beam, .events] s (dmDeadline s) := by
  unfold dmDeadline
  refine keeps_ite (fun _ => ?_) (fun _ => ?_)
  · dsimp only
    refine Keeps.step (deadlinePurge_keeps ..) rfl ?_
    refine Keeps.step (countCrosspoints_keeps ..) rfl ?_
    refine Keeps.step (stageMiss_keeps ..) rfl ?_
    refine keeps_pipe rfl ?_
    refine Keeps.step (placementPurge_keeps ..) rfl ?_
    exact Keeps.refl _ _
  · exact Keeps.refl _ _

theorem judgeSlides_keeps (s : State) : Keeps [.events] s (judgeSlides s) := by
  unfold judgeSlides
  refine Keeps.step (State.condition_keeps ..) rfl ?_
  exact Keeps.refl _ _

theorem leaveService_keeps (s : State) (i : Nat) (st : SlideState) : Keeps [.pipe, .events] s (leaveService s i st) :=
    by
  unfold leaveService
  refine Keeps.step (judgeSlides_keeps ..) rfl ?_
  refine keeps_ite (fun _ => ?_) (fun _ => ?_)
  · split
    · refine Keeps.step (setSlide_keeps ..) rfl ?_
      refine Keeps.step (setSlide_keeps ..) rfl ?_
      exact Keeps.refl _ _
    · refine Keeps.step (setSlide_keeps ..) rfl ?_
      exact Keeps.refl _ _
  · refine Keeps.step (setSlide_keeps ..) rfl ?_
    exact Keeps.refl _ _

theorem retireSlideApply_keeps (s : State) (i v : Nat) : Keeps [.nv, .dict, .pipe, .events] s (retireSlideApply s i v)
    := by
  unfold retireSlideApply
  refine keeps_ite (fun _ => ?_) (fun _ => ?_)
  · refine keeps_ite (fun _ => ?_) (fun _ => ?_)
    · refine keeps_nv rfl ?_
      refine Keeps.step (State.putNv_keeps ..) rfl ?_
      exact Keeps.refl _ _
    · refine Keeps.step (leaveService_keeps ..) rfl ?_
      refine keeps_nv rfl ?_
      refine Keeps.step (State.putNv_keeps ..) rfl ?_
      exact Keeps.refl _ _
  · refine keeps_nv rfl ?_
    refine Keeps.step (State.putNv_keeps ..) rfl ?_
    exact Keeps.refl _ _

theorem execSpanDelivered_keeps (at_ engine object feed : Nat) (s : State) (t : State) (h : execSpanDelivered at_ engine
    object feed s = .next t) : Keeps [.clk, .time, .nv, .stat, .pipe, .twin, .ledger, .dram, .mem, .events, .draws] s t
    := by
  unfold execSpanDelivered at h
  refine keeps_done h ?_
  refine keeps_ite (fun _ => ?_) (fun _ => ?_)
  · refine Keeps.step (spanDelivered_keeps ..) rfl ?_
    refine Keeps.step (State.elapse_keeps ..) rfl ?_
    exact Keeps.refl _ _
  · refine Keeps.step (State.elapse_keeps ..) rfl ?_
    exact Keeps.refl _ _

theorem execFeedRender_keeps (at_ feed : Nat) (s : State) (t : State) (h : execFeedRender at_ feed s = .next t) : Keeps
    [.clk, .time, .nv, .stat, .pipe, .twin, .ledger, .dram, .mem, .events, .draws] s t := by
  unfold execFeedRender at h
  refine keeps_done h ?_
  refine keeps_ite (fun _ => ?_) (fun _ => ?_)
  · refine Keeps.step (renderFeed_keeps ..) rfl ?_
    refine Keeps.step (State.elapse_keeps ..) rfl ?_
    exact Keeps.refl _ _
  · refine Keeps.step (State.elapse_keeps ..) rfl ?_
    exact Keeps.refl _ _

theorem execDelayMatrixDeadline_keeps (s : State) (t : State) (h : execDelayMatrixDeadline s = .next t) : Keeps [.clk,
    .time, .stat, .pipe, .twin, .tally, .beam, .events] s t := by
  unfold execDelayMatrixDeadline at h
  refine keeps_done h ?_
  refine Keeps.step (dmDeadline_keeps ..) rfl ?_
  refine Keeps.step (State.elapse_keeps ..) rfl ?_
  exact Keeps.refl _ _

theorem execRetireSlide_keeps (engine value : Nat) (s : State) (t : State) (h : execRetireSlide engine value s = .next
    t) : Keeps [.nv, .dict, .stat, .pipe, .events] s t := by
  unfold execRetireSlide at h
  refine keeps_done h ?_
  refine State.attempt_keeps _ _ _ _ rfl ?_
  refine Keeps.step (retireSlideApply_keeps ..) rfl ?_
  exact Keeps.refl _ _

end Sys2Proof.Machine
end

