-- ==== Sys2Proof/Laws/KeepsHealth.lean ====
section
/-! SUPPORT. The parts of the state that each function of Machine/Health.lean may change. -/
set_option linter.unreachableTactic false
set_option linter.unusedTactic false

namespace Sys2Proof.Machine

theorem judgeHealth_keeps (s : State) : Keeps [.sup, .events] s (judgeHealth s) := by
  unfold judgeHealth
  refine keeps_ite (fun _ => ?_) (fun _ => ?_)
  · exact Keeps.refl _ _
  · refine Keeps.step (State.raise_keeps ..) rfl ?_
    refine keeps_sup rfl ?_
    exact Keeps.refl _ _

end Sys2Proof.Machine
end

