-- ==== Sys2Proof/Laws/KeepsTwin.lean ====
section
/-! SUPPORT. The parts of the state that each function of Machine/Twin.lean may change. -/
set_option linter.unreachableTactic false
set_option linter.unusedTactic false

namespace Sys2Proof.Machine

theorem dropActOut_keeps (s : State) : Keeps [.stat, .twin] s (dropActOut s) := by
  unfold dropActOut
  refine Keeps.step (gateShown_keeps ..) rfl ?_
  refine keeps_twin rfl ?_
  exact Keeps.refl _ _

theorem setRole_keeps (s : State) (r : Role) : Keeps [.clk, .time, .stat, .twin, .events] s (setRole s r) := by
  unfold setRole
  refine keeps_ite (fun _ => ?_) (fun _ => ?_)
  · refine keeps_twin rfl ?_
    refine keeps_ite (fun _ => ?_) (fun _ => ?_)
    · refine Keeps.step (State.enterHoldover_keeps ..) rfl ?_
      exact Keeps.refl _ _
    · exact Keeps.refl _ _
  · refine Keeps.step (dropActOut_keeps ..) rfl ?_
    refine keeps_twin rfl ?_
    refine keeps_ite (fun _ => ?_) (fun _ => ?_)
    · refine Keeps.step (State.enterHoldover_keeps ..) rfl ?_
      exact Keeps.refl _ _
    · exact Keeps.refl _ _

theorem joinFresh_keeps (s : State) : Keeps [.pipe, .twin] s (joinFresh s) := by
  unfold joinFresh
  refine keeps_pipe_twin rfl rfl ?_
  exact Keeps.refl _ _

theorem enterStandby_keeps (s : State) : Keeps [.clk, .time, .stat, .pipe, .twin, .events] s (enterStandby s) := by
  unfold enterStandby
  refine keeps_ite (fun _ => ?_) (fun _ => ?_)
  · refine Keeps.step (setRole_keeps ..) rfl ?_
    exact Keeps.refl _ _
  · refine Keeps.step (joinFresh_keeps ..) rfl ?_
    refine Keeps.step (setRole_keeps ..) rfl ?_
    exact Keeps.refl _ _

theorem joinRestart_keeps (s : State) : Keeps [.clk, .time, .stat, .pipe, .twin, .events] s (joinRestart s) := by
  unfold joinRestart
  refine keeps_ite (fun _ => ?_) (fun _ => ?_)
  · refine Keeps.step (joinFresh_keeps ..) rfl ?_
    exact Keeps.refl _ _
  · refine keeps_ite (fun _ => ?_) (fun _ => ?_)
    · refine keeps_twin rfl ?_
      refine Keeps.step (State.raise_keeps ..) rfl ?_
      refine Keeps.step (setRole_keeps ..) rfl ?_
      exact Keeps.refl _ _
    · refine keeps_pipe_twin rfl rfl ?_
      exact Keeps.refl _ _

theorem claimActOut_keeps (s : State) (actInLowNs : Nat) : Keeps [.twin] s (claimActOut s actInLowNs) := by
  unfold claimActOut
  refine keeps_ite (fun _ => ?_) (fun _ => ?_)
  · refine keeps_twin rfl ?_
    exact Keeps.refl _ _
  · exact Keeps.refl _ _

theorem actDeadman_keeps (s : State) : Keeps [.stat, .twin] s (actDeadman s) := by
  unfold actDeadman
  refine keeps_ite (fun _ => ?_) (fun _ => ?_)
  · exact Keeps.refl _ _
  · refine Keeps.step (dropActOut_keeps ..) rfl ?_
    exact Keeps.refl _ _

theorem collide_keeps (s : State) : Keeps [.clk, .time, .stat, .pipe, .twin, .events] s (collide s) := by
  unfold collide
  refine keeps_ite (fun _ => ?_) (fun _ => ?_)
  · refine Keeps.step (gateChange_keeps ..) rfl ?_
    exact Keeps.refl _ _
  · refine keeps_ite (fun _ => ?_) (fun _ => ?_)
    · refine Keeps.step (enterStandby_keeps ..) rfl ?_
      refine Keeps.step (gateChange_keeps ..) rfl ?_
      exact Keeps.refl _ _
    · refine keeps_ite (fun _ => ?_) (fun _ => ?_)
      · refine Keeps.step (gateChange_keeps ..) rfl ?_
        exact Keeps.refl _ _
      · refine Keeps.step (State.raise_keeps ..) rfl ?_
        refine keeps_twin rfl ?_
        refine Keeps.step (gateChange_keeps ..) rfl ?_
        exact Keeps.refl _ _

theorem actInSeen_keeps (s : State) (actIn : Bool) : Keeps [.clk, .time, .stat, .pipe, .twin, .events] s (actInSeen s
    actIn) := by
  unfold actInSeen
  refine keeps_ite (fun _ => ?_) (fun _ => ?_)
  · refine Keeps.step (collide_keeps ..) rfl ?_
    exact Keeps.refl _ _
  · refine Keeps.step (gateChange_keeps ..) rfl ?_
    exact Keeps.refl _ _

theorem interlockFault_keeps (s : State) : Keeps [.stat, .events] s (interlockFault s) := by
  unfold interlockFault
  refine Keeps.step (State.raise_keeps ..) rfl ?_
  refine Keeps.step (State.bump_keeps ..) rfl ?_
  exact Keeps.refl _ _

theorem chooseRole_keeps (s : State) (actIn : Bool) : Keeps [.clk, .time, .stat, .pipe, .twin, .events] s (chooseRole s
    actIn) := by
  unfold chooseRole
  refine keeps_ite (fun _ => ?_) (fun _ => ?_)
  · refine keeps_ite (fun _ => ?_) (fun _ => ?_)
    · refine Keeps.step (State.raise_keeps ..) rfl ?_
      refine Keeps.step (setRole_keeps ..) rfl ?_
      refine Keeps.step (gateChange_keeps ..) rfl ?_
      exact Keeps.refl _ _
    · refine Keeps.step (setRole_keeps ..) rfl ?_
      refine Keeps.step (gateChange_keeps ..) rfl ?_
      exact Keeps.refl _ _
  · refine keeps_ite (fun _ => ?_) (fun _ => ?_)
    · refine keeps_ite (fun _ => ?_) (fun _ => ?_)
      · refine Keeps.step (enterStandby_keeps ..) rfl ?_
        refine Keeps.step (gateChange_keeps ..) rfl ?_
        exact Keeps.refl _ _
      · refine Keeps.step (setRole_keeps ..) rfl ?_
        refine Keeps.step (gateChange_keeps ..) rfl ?_
        exact Keeps.refl _ _
    · refine Keeps.step (setRole_keeps ..) rfl ?_
      refine Keeps.step (gateChange_keeps ..) rfl ?_
      exact Keeps.refl _ _

theorem sendHeartbeat_keeps (s : State) : Keeps [.stat, .out] s (sendHeartbeat s) := by
  unfold sendHeartbeat
  refine keeps_ite (fun _ => ?_) (fun _ => ?_)
  · exact Keeps.refl _ _
  · dsimp only
    refine Keeps.step (State.bump_keeps ..) rfl ?_
    refine keeps_out rfl ?_
    exact Keeps.refl _ _

theorem partnerEnters_keeps (s : State) : Keeps [.clk, .time, .stat, .twin, .events] s (partnerEnters s) := by
  unfold partnerEnters
  refine keeps_ite (fun _ => ?_) (fun _ => ?_)
  · refine Keeps.step (setRole_keeps ..) rfl ?_
    refine keeps_twin rfl ?_
    exact Keeps.refl _ _
  · refine keeps_twin rfl ?_
    exact Keeps.refl _ _

theorem partnerLeaves_keeps (s : State) : Keeps [.twin] s (partnerLeaves s) := by
  unfold partnerLeaves
  refine keeps_twin rfl ?_
  exact Keeps.refl _ _

theorem soloAgain_keeps (s : State) : Keeps [.clk, .time, .stat, .twin, .events] s (soloAgain s) := by
  unfold soloAgain
  refine keeps_ite (fun _ => ?_) (fun _ => ?_)
  · refine Keeps.step (setRole_keeps ..) rfl ?_
    exact Keeps.refl _ _
  · exact Keeps.refl _ _

theorem judgeIds_keeps (s : State) (f : HbFrame) : Keeps [.clk, .time, .stat, .twin, .events] s (judgeIds s f) := by
  unfold judgeIds
  refine keeps_ite (fun _ => ?_) (fun _ => ?_)
  · exact Keeps.refl _ _
  · dsimp only
    split
    · refine Keeps.step (setRole_keeps ..) rfl ?_
      refine Keeps.step (State.raise_keeps ..) rfl ?_
      exact Keeps.refl _ _
    · refine Keeps.step (setRole_keeps ..) rfl ?_
      refine Keeps.step (State.raise_keeps ..) rfl ?_
      exact Keeps.refl _ _
    · refine Keeps.step (setRole_keeps ..) rfl ?_
      refine Keeps.step (State.raise_keeps ..) rfl ?_
      exact Keeps.refl _ _
    · refine Keeps.step (State.raise_keeps ..) rfl ?_
      exact Keeps.refl _ _
    · refine Keeps.step (State.raise_keeps ..) rfl ?_
      exact Keeps.refl _ _

theorem judgeLine_keeps (s : State) (f : HbFrame) : Keeps [.stat, .twin, .events] s (judgeLine s f) := by
  unfold judgeLine
  refine keeps_ite (fun _ => ?_) (fun _ => ?_)
  · refine Keeps.step (interlockFault_keeps ..) rfl ?_
    refine keeps_twin rfl ?_
    exact Keeps.refl _ _
  · refine keeps_twin rfl ?_
    exact Keeps.refl _ _

theorem judgeSplitRoles_keeps (s : State) (f : HbFrame) : Keeps [.clk, .time, .stat, .pipe, .twin, .events] s
    (judgeSplitRoles s f) := by
  unfold judgeSplitRoles
  refine keeps_ite (fun _ => ?_) (fun _ => ?_)
  · refine keeps_ite (fun _ => ?_) (fun _ => ?_)
    · refine Keeps.step (enterStandby_keeps ..) rfl ?_
      exact Keeps.refl _ _
    · refine Keeps.step (setRole_keeps ..) rfl ?_
      exact Keeps.refl _ _
  · exact Keeps.refl _ _

theorem judgePartnerJoin_keeps (s : State) (f : HbFrame) : Keeps [.twin] s (judgePartnerJoin s f) := by
  unfold judgePartnerJoin
  split
  · refine keeps_ite (fun _ => ?_) (fun _ => ?_)
    · refine keeps_twin rfl ?_
      exact Keeps.refl _ _
    · exact Keeps.refl _ _
  · exact Keeps.refl _ _

theorem holdMean_keeps (s : State) : Keeps [.time] s (holdMean s) := by
  unfold holdMean
  refine keeps_time rfl ?_
  exact Keeps.refl _ _

theorem judgeTimeState_keeps (s before : State) : Keeps [.time] s (judgeTimeState s before) := by
  unfold judgeTimeState
  refine keeps_ite (fun _ => ?_) (fun _ => ?_)
  · refine Keeps.step (holdMean_keeps ..) rfl ?_
    exact Keeps.refl _ _
  · exact Keeps.refl _ _

theorem heartbeatFrameIn_keeps (s : State) (f : HbFrame) : Keeps [.clk, .time, .stat, .pipe, .twin, .events] s
    (heartbeatFrameIn s f) := by
  unfold heartbeatFrameIn
  dsimp only
  refine keeps_ite (fun _ => ?_) (fun _ => ?_)
  · refine keeps_ite (fun _ => ?_) (fun _ => ?_)
    · refine Keeps.step (judgeSplitRoles_keeps ..) rfl ?_
      refine keeps_ite (fun _ => ?_) (fun _ => ?_)
      · refine Keeps.step (partnerEnters_keeps ..) rfl ?_
        refine Keeps.step (judgeLine_keeps ..) rfl ?_
        refine Keeps.step (judgeIds_keeps ..) rfl ?_
        refine Keeps.step (judgeTimeState_keeps ..) rfl ?_
        refine keeps_twin rfl ?_
        refine Keeps.step (judgePartnerJoin_keeps ..) rfl ?_
        refine keeps_ite (fun _ => ?_) (fun _ => ?_)
        · refine Keeps.step (State.heard_keeps ..) rfl ?_
          exact Keeps.refl _ _
        · refine Keeps.step (State.bump_keeps ..) rfl ?_
          exact Keeps.refl _ _
      · refine Keeps.step (judgeLine_keeps ..) rfl ?_
        refine Keeps.step (judgeIds_keeps ..) rfl ?_
        refine Keeps.step (judgeTimeState_keeps ..) rfl ?_
        refine keeps_twin rfl ?_
        refine Keeps.step (judgePartnerJoin_keeps ..) rfl ?_
        refine keeps_ite (fun _ => ?_) (fun _ => ?_)
        · refine Keeps.step (State.heard_keeps ..) rfl ?_
          exact Keeps.refl _ _
        · refine Keeps.step (State.bump_keeps ..) rfl ?_
          exact Keeps.refl _ _
    · refine keeps_ite (fun _ => ?_) (fun _ => ?_)
      · refine Keeps.step (partnerEnters_keeps ..) rfl ?_
        refine Keeps.step (judgeLine_keeps ..) rfl ?_
        refine Keeps.step (judgeIds_keeps ..) rfl ?_
        refine Keeps.step (judgeTimeState_keeps ..) rfl ?_
        refine keeps_twin rfl ?_
        refine Keeps.step (judgePartnerJoin_keeps ..) rfl ?_
        refine keeps_ite (fun _ => ?_) (fun _ => ?_)
        · refine Keeps.step (State.heard_keeps ..) rfl ?_
          exact Keeps.refl _ _
        · refine Keeps.step (State.bump_keeps ..) rfl ?_
          exact Keeps.refl _ _
      · refine Keeps.step (judgeLine_keeps ..) rfl ?_
        refine Keeps.step (judgeIds_keeps ..) rfl ?_
        refine Keeps.step (judgeTimeState_keeps ..) rfl ?_
        refine keeps_twin rfl ?_
        refine Keeps.step (judgePartnerJoin_keeps ..) rfl ?_
        refine keeps_ite (fun _ => ?_) (fun _ => ?_)
        · refine Keeps.step (State.heard_keeps ..) rfl ?_
          exact Keeps.refl _ _
        · refine Keeps.step (State.bump_keeps ..) rfl ?_
          exact Keeps.refl _ _
  · refine keeps_ite (fun _ => ?_) (fun _ => ?_)
    · refine Keeps.step (State.heard_keeps ..) rfl ?_
      exact Keeps.refl _ _
    · refine Keeps.step (State.bump_keeps ..) rfl ?_
      exact Keeps.refl _ _

theorem twinStatus_keeps (s : State) : Keeps [.stat] s (twinStatus s) := by
  unfold twinStatus
  dsimp only
  split
  · refine Keeps.step (State.stset_keeps ..) rfl ?_
    refine Keeps.step (State.stset_keeps ..) rfl ?_
    refine Keeps.step (State.stset_keeps ..) rfl ?_
    refine Keeps.step (State.stset_keeps ..) rfl ?_
    refine Keeps.step (State.stset_keeps ..) rfl ?_
    refine Keeps.step (State.stset_keeps ..) rfl ?_
    refine Keeps.step (State.stset_keeps ..) rfl ?_
    refine Keeps.step (State.stset_keeps ..) rfl ?_
    refine Keeps.step (State.stset_keeps ..) rfl ?_
    refine Keeps.step (State.stset_keeps ..) rfl ?_
    refine Keeps.step (State.stset_keeps ..) rfl ?_
    refine Keeps.step (State.stset_keeps ..) rfl ?_
    refine Keeps.step (State.stset_keeps ..) rfl ?_
    exact Keeps.refl _ _
  · refine Keeps.step (State.stset_keeps ..) rfl ?_
    refine Keeps.step (State.stset_keeps ..) rfl ?_
    refine Keeps.step (State.stset_keeps ..) rfl ?_
    refine Keeps.step (State.stset_keeps ..) rfl ?_
    refine Keeps.step (State.stset_keeps ..) rfl ?_
    refine Keeps.step (State.stset_keeps ..) rfl ?_
    exact Keeps.refl _ _

theorem heartbeatEdge_keeps (s : State) : Keeps [.twin] s (heartbeatEdge s) := by
  unfold heartbeatEdge
  refine keeps_ite (fun _ => ?_) (fun _ => ?_)
  · refine keeps_twin rfl ?_
    exact Keeps.refl _ _
  · refine keeps_ite (fun _ => ?_) (fun _ => ?_)
    · refine keeps_twin rfl ?_
      exact Keeps.refl _ _
    · exact Keeps.refl _ _

theorem heartbeatSend_keeps (s : State) (service : Bool) : Keeps [.stat, .twin, .out] s (heartbeatSend s service) := by
  unfold heartbeatSend
  dsimp only
  refine keeps_ite (fun _ => ?_) (fun _ => ?_)
  · refine keeps_twin rfl ?_
    exact Keeps.refl _ _
  · refine Keeps.step (sendHeartbeat_keeps ..) rfl ?_
    refine keeps_twin rfl ?_
    exact Keeps.refl _ _

theorem handOver_keeps (s : State) (r : Role) (sync : Nat) : Keeps [.clk, .time, .stat, .twin, .events, .out] s
    (handOver s r sync) := by
  unfold handOver
  dsimp only
  refine keeps_twin rfl ?_
  refine Keeps.step (setRole_keeps ..) rfl ?_
  refine Keeps.step (sendHeartbeat_keeps ..) rfl ?_
  refine keeps_twin rfl ?_
  refine Keeps.step (dropActOut_keeps ..) rfl ?_
  exact Keeps.refl _ _

theorem handoverApply_keeps (s : State) (v : Nat) : Keeps [.clk, .time, .stat, .twin, .events, .out] s (handoverApply s
    v) := by
  unfold handoverApply
  refine keeps_ite (fun _ => ?_) (fun _ => ?_)
  · refine Keeps.step (handOver_keeps ..) rfl ?_
    exact Keeps.refl _ _
  · exact Keeps.refl _ _

theorem isolateApply_keeps (s0 : State) (v : Nat) : Keeps [.clk, .time, .dict, .stat, .pipe, .twin, .events, .out] s0
    (isolateApply s0 v) := by
  unfold isolateApply
  dsimp only
  refine keeps_ite (fun _ => ?_) (fun _ => ?_)
  · split
    · refine Keeps.step (handOver_keeps ..) rfl ?_
      refine Keeps.step (State.put_keeps ..) rfl ?_
      exact Keeps.refl _ _
    · refine Keeps.step (sendHeartbeat_keeps ..) rfl ?_
      refine Keeps.step (setRole_keeps ..) rfl ?_
      refine Keeps.step (State.put_keeps ..) rfl ?_
      exact Keeps.refl _ _
    · refine Keeps.step (State.put_keeps ..) rfl ?_
      exact Keeps.refl _ _
    · refine Keeps.step (State.put_keeps ..) rfl ?_
      exact Keeps.refl _ _
    · refine Keeps.step (State.put_keeps ..) rfl ?_
      exact Keeps.refl _ _
  · refine keeps_ite (fun _ => ?_) (fun _ => ?_)
    · refine Keeps.step (enterStandby_keeps ..) rfl ?_
      refine Keeps.step (State.put_keeps ..) rfl ?_
      exact Keeps.refl _ _
    · refine Keeps.step (State.put_keeps ..) rfl ?_
      exact Keeps.refl _ _

theorem faultHandover_keeps (s : State) : Keeps [.clk, .time, .stat, .twin, .events, .out] s (faultHandover s) := by
  unfold faultHandover
  refine keeps_ite (fun _ => ?_) (fun _ => ?_)
  · refine Keeps.step (handOver_keeps ..) rfl ?_
    exact Keeps.refl _ _
  · exact Keeps.refl _ _

theorem faultRejoin_keeps (s : State) : Keeps [.pipe, .twin] s (faultRejoin s) := by
  unfold faultRejoin
  refine keeps_ite (fun _ => ?_) (fun _ => ?_)
  · refine Keeps.step (joinFresh_keeps ..) rfl ?_
    exact Keeps.refl _ _
  · exact Keeps.refl _ _

theorem activeFaultHandover_keeps (s : State) : Keeps [.clk, .time, .stat, .twin, .events, .out] s (activeFaultHandover
    s) := by
  unfold activeFaultHandover
  split
  · refine keeps_ite (fun _ => ?_) (fun _ => ?_)
    · refine Keeps.step (State.raise_keeps ..) rfl ?_
      refine Keeps.step (handOver_keeps ..) rfl ?_
      exact Keeps.refl _ _
    · exact Keeps.refl _ _
  · exact Keeps.refl _ _

theorem attributeFault_keeps (s : State) (f : HbFrame) (t : Nat) : Keeps [.stat, .twin] s (attributeFault s f t) := by
  unfold attributeFault
  refine keeps_ite (fun _ => ?_) (fun _ => ?_)
  · refine Keeps.step (State.bump_keeps ..) rfl ?_
    exact Keeps.refl _ _
  · refine keeps_ite (fun _ => ?_) (fun _ => ?_)
    · refine keeps_ite (fun _ => ?_) (fun _ => ?_)
      · refine keeps_twin rfl ?_
        refine Keeps.step (State.bump_keeps ..) rfl ?_
        exact Keeps.refl _ _
      · refine Keeps.step (State.bump_keeps ..) rfl ?_
        exact Keeps.refl _ _
    · refine Keeps.step (State.bump_keeps ..) rfl ?_
      exact Keeps.refl _ _

theorem compareDigests_keeps (s : State) (f : HbFrame) : Keeps [.clk, .time, .stat, .pipe, .twin, .events] s
    (compareDigests s f) := by
  unfold compareDigests
  refine keeps_ite (fun _ => ?_) (fun _ => ?_)
  · exact Keeps.refl _ _
  · split
    · refine keeps_ite (fun _ => ?_) (fun _ => ?_)
      · refine keeps_twin rfl ?_
        exact Keeps.refl _ _
      · exact Keeps.refl _ _
    · refine keeps_ite (fun _ => ?_) (fun _ => ?_)
      · refine Keeps.step (joinRestart_keeps ..) rfl ?_
        refine Keeps.step (attributeFault_keeps ..) rfl ?_
        refine Keeps.step (State.raise_keeps ..) rfl ?_
        refine Keeps.step (State.stset_keeps ..) rfl ?_
        refine Keeps.step (State.stset_keeps ..) rfl ?_
        refine Keeps.step (State.bump_keeps ..) rfl ?_
        exact Keeps.refl _ _
      · refine Keeps.step (attributeFault_keeps ..) rfl ?_
        refine Keeps.step (State.raise_keeps ..) rfl ?_
        refine Keeps.step (State.stset_keeps ..) rfl ?_
        refine Keeps.step (State.stset_keeps ..) rfl ?_
        refine Keeps.step (State.bump_keeps ..) rfl ?_
        exact Keeps.refl _ _

theorem takeOver_keeps (s : State) (cause actInLowNs : Nat) : Keeps [.clk, .time, .stat, .twin, .events] s (takeOver s
    cause actInLowNs) := by
  unfold takeOver
  dsimp only
  refine keeps_ite (fun _ => ?_) (fun _ => ?_)
  · refine keeps_twin rfl ?_
    refine Keeps.step (State.raise_keeps ..) rfl ?_
    refine Keeps.step (State.bump_keeps ..) rfl ?_
    refine Keeps.step (State.stset_keeps ..) rfl ?_
    refine Keeps.step (State.stset_keeps ..) rfl ?_
    refine Keeps.step (claimActOut_keeps ..) rfl ?_
    refine Keeps.step (setRole_keeps ..) rfl ?_
    exact Keeps.refl _ _
  · refine Keeps.step (State.raise_keeps ..) rfl ?_
    refine keeps_twin rfl ?_
    refine Keeps.step (State.raise_keeps ..) rfl ?_
    refine Keeps.step (State.bump_keeps ..) rfl ?_
    refine Keeps.step (State.stset_keeps ..) rfl ?_
    refine Keeps.step (State.stset_keeps ..) rfl ?_
    refine Keeps.step (claimActOut_keeps ..) rfl ?_
    refine Keeps.step (setRole_keeps ..) rfl ?_
    exact Keeps.refl _ _

theorem twinMasterLost_keeps (s : State) : Keeps [.clk, .time, .events] s (twinMasterLost s) := by
  unfold twinMasterLost
  split
  · dsimp only
    refine keeps_time rfl ?_
    refine Keeps.step (State.enterHoldover_keeps ..) rfl ?_
    exact Keeps.refl _ _
  · dsimp only
    refine keeps_time rfl ?_
    refine Keeps.step (State.enterHoldover_keeps ..) rfl ?_
    exact Keeps.refl _ _
  · dsimp only
    refine keeps_time rfl ?_
    refine Keeps.step (State.enterHoldover_keeps ..) rfl ?_
    exact Keeps.refl _ _
  · refine Keeps.step (holdMean_keeps ..) rfl ?_
    exact Keeps.refl _ _
  · exact Keeps.refl _ _
  · exact Keeps.refl _ _

theorem judgeSilence_keeps (s : State) (hbSil tlSil hbLost tlLost : Bool) : Keeps [.clk, .time, .stat, .twin, .events] s
    (judgeSilence s hbSil tlSil hbLost tlLost) := by
  unfold judgeSilence
  refine keeps_twin rfl ?_
  refine Keeps.step (State.condition_keeps ..) rfl ?_
  refine Keeps.step (State.condition_keeps ..) rfl ?_
  refine keeps_ite (fun _ => ?_) (fun _ => ?_)
  · refine Keeps.step (twinMasterLost_keeps ..) rfl ?_
    refine keeps_ite (fun _ => ?_) (fun _ => ?_)
    · refine Keeps.step (State.bump_keeps ..) rfl ?_
      refine keeps_ite (fun _ => ?_) (fun _ => ?_)
      · refine Keeps.step (State.bump_keeps ..) rfl ?_
        exact Keeps.refl _ _
      · exact Keeps.refl _ _
    · refine keeps_ite (fun _ => ?_) (fun _ => ?_)
      · refine Keeps.step (State.bump_keeps ..) rfl ?_
        exact Keeps.refl _ _
      · exact Keeps.refl _ _
  · refine keeps_ite (fun _ => ?_) (fun _ => ?_)
    · refine Keeps.step (State.bump_keeps ..) rfl ?_
      refine keeps_ite (fun _ => ?_) (fun _ => ?_)
      · refine Keeps.step (State.bump_keeps ..) rfl ?_
        exact Keeps.refl _ _
      · exact Keeps.refl _ _
    · refine keeps_ite (fun _ => ?_) (fun _ => ?_)
      · refine Keeps.step (State.bump_keeps ..) rfl ?_
        exact Keeps.refl _ _
      · exact Keeps.refl _ _

theorem judgeService_keeps (s : State) : Keeps [.clk, .time, .stat, .twin, .events] s (judgeService s) := by
  unfold judgeService
  split
  · refine keeps_ite (fun _ => ?_) (fun _ => ?_)
    · refine Keeps.step (partnerEnters_keeps ..) rfl ?_
      exact Keeps.refl _ _
    · refine Keeps.step (partnerLeaves_keeps ..) rfl ?_
      exact Keeps.refl _ _
  · refine Keeps.step (partnerLeaves_keeps ..) rfl ?_
    exact Keeps.refl _ _

theorem judgeSplit_keeps (s : State) : Keeps [.events] s (judgeSplit s) := by
  unfold judgeSplit
  refine Keeps.step (State.condition_keeps ..) rfl ?_
  exact Keeps.refl _ _

theorem twinEvaluation_keeps (s : State) (actInLowNs : Nat) : Keeps [.clk, .time, .stat, .pipe, .twin, .events] s
    (twinEvaluation s actInLowNs) := by
  unfold twinEvaluation
  refine keeps_ite (fun _ => ?_) (fun _ => ?_)
  · exact Keeps.refl _ _
  · dsimp only
    refine keeps_twin rfl ?_
    refine keeps_ite (fun _ => ?_) (fun _ => ?_)
    · refine Keeps.step (takeOver_keeps ..) rfl ?_
      refine Keeps.step (State.condition_keeps ..) rfl ?_
      split
      · refine Keeps.step (compareDigests_keeps ..) rfl ?_
        refine Keeps.step (judgeLine_keeps ..) rfl ?_
        refine Keeps.step (judgeService_keeps ..) rfl ?_
        refine Keeps.step (judgeSilence_keeps ..) rfl ?_
        refine Keeps.step (actInSeen_keeps ..) rfl ?_
        exact Keeps.refl _ _
      · refine keeps_twin rfl ?_
        refine Keeps.step (judgeService_keeps ..) rfl ?_
        refine Keeps.step (judgeSilence_keeps ..) rfl ?_
        refine Keeps.step (actInSeen_keeps ..) rfl ?_
        exact Keeps.refl _ _
    · refine keeps_ite (fun _ => ?_) (fun _ => ?_)
      · refine Keeps.step (joinFresh_keeps ..) rfl ?_
        refine Keeps.step (State.condition_keeps ..) rfl ?_
        split
        · refine Keeps.step (compareDigests_keeps ..) rfl ?_
          refine Keeps.step (judgeLine_keeps ..) rfl ?_
          refine Keeps.step (judgeService_keeps ..) rfl ?_
          refine Keeps.step (judgeSilence_keeps ..) rfl ?_
          refine Keeps.step (actInSeen_keeps ..) rfl ?_
          exact Keeps.refl _ _
        · refine keeps_twin rfl ?_
          refine Keeps.step (judgeService_keeps ..) rfl ?_
          refine Keeps.step (judgeSilence_keeps ..) rfl ?_
          refine Keeps.step (actInSeen_keeps ..) rfl ?_
          exact Keeps.refl _ _
      · refine Keeps.step (State.condition_keeps ..) rfl ?_
        split
        · refine Keeps.step (compareDigests_keeps ..) rfl ?_
          refine Keeps.step (judgeLine_keeps ..) rfl ?_
          refine Keeps.step (judgeService_keeps ..) rfl ?_
          refine Keeps.step (judgeSilence_keeps ..) rfl ?_
          refine Keeps.step (actInSeen_keeps ..) rfl ?_
          exact Keeps.refl _ _
        · refine keeps_twin rfl ?_
          refine Keeps.step (judgeService_keeps ..) rfl ?_
          refine Keeps.step (judgeSilence_keeps ..) rfl ?_
          refine Keeps.step (actInSeen_keeps ..) rfl ?_
          exact Keeps.refl _ _

theorem twinTick_keeps (s : State) : Keeps [.clk, .time, .stat, .pipe, .twin, .events, .out] s (twinTick s) := by
  unfold twinTick
  refine Keeps.step (faultRejoin_keeps ..) rfl ?_
  refine Keeps.step (activeFaultHandover_keeps ..) rfl ?_
  refine Keeps.step (faultHandover_keeps ..) rfl ?_
  refine Keeps.step (soloAgain_keeps ..) rfl ?_
  refine Keeps.step (actDeadman_keeps ..) rfl ?_
  refine Keeps.step (judgeSplit_keeps ..) rfl ?_
  refine keeps_twin rfl ?_
  exact Keeps.refl _ _

theorem collisionClear_keeps (s : State) : Keeps [.twin] s (collisionClear s) := by
  unfold collisionClear
  refine keeps_twin rfl ?_
  exact Keeps.refl _ _

theorem execHeartbeatFrameReceived_keeps (at_ : Nat) (frame : HbFrame) (s : State) (t : State) (h :
    execHeartbeatFrameReceived at_ frame s = .next t) : Keeps [.clk, .time, .stat, .pipe, .twin, .events] s t := by
  unfold execHeartbeatFrameReceived at h
  refine keeps_done h ?_
  refine keeps_ite (fun _ => ?_) (fun _ => ?_)
  · refine Keeps.step (heartbeatFrameIn_keeps ..) rfl ?_
    refine Keeps.step (State.elapse_keeps ..) rfl ?_
    exact Keeps.refl _ _
  · exact Keeps.refl _ _

theorem execHeartbeatLineEdge_keeps (at_ : Nat) (s : State) (t : State) (h : execHeartbeatLineEdge at_ s = .next t) :
    Keeps [.clk, .time, .twin, .events] s t := by
  unfold execHeartbeatLineEdge at h
  refine keeps_done h ?_
  refine keeps_ite (fun _ => ?_) (fun _ => ?_)
  · refine Keeps.step (heartbeatEdge_keeps ..) rfl ?_
    refine Keeps.step (State.elapse_keeps ..) rfl ?_
    exact Keeps.refl _ _
  · exact Keeps.refl _ _

theorem execTwinEvaluation_keeps (actInLowNs : Nat) (s : State) (t : State) (h : execTwinEvaluation actInLowNs s = .next
    t) : Keeps [.clk, .time, .stat, .pipe, .twin, .events] s t := by
  unfold execTwinEvaluation at h
  refine keeps_done h ?_
  refine keeps_ite (fun _ => ?_) (fun _ => ?_)
  · refine Keeps.step (twinEvaluation_keeps ..) rfl ?_
    refine Keeps.step (State.elapse_keeps ..) rfl ?_
    exact Keeps.refl _ _
  · exact Keeps.refl _ _

theorem execDriveGateChange_keeps (at_ : Nat) (actIn : Bool) (s : State) (t : State) (h : execDriveGateChange at_ actIn
    s = .next t) : Keeps [.clk, .time, .stat, .pipe, .twin, .events] s t := by
  unfold execDriveGateChange at h
  refine keeps_done h ?_
  refine Keeps.step (actInSeen_keeps ..) rfl ?_
  refine Keeps.step (State.elapse_keeps ..) rfl ?_
  exact Keeps.refl _ _

theorem execSplitBrainSuspected_keeps (s : State) (t : State) (h : execSplitBrainSuspected s = .next t) : Keeps
    [.events] s t := by
  unfold execSplitBrainSuspected at h
  refine keeps_done h ?_
  refine Keeps.step (judgeSplit_keeps ..) rfl ?_
  exact Keeps.refl _ _

theorem execActInCollision_keeps (at_ : Nat) (s : State) (t : State) (h : execActInCollision at_ s = .next t) : Keeps
    [.clk, .time, .stat, .pipe, .twin, .events] s t := by
  unfold execActInCollision at h
  refine keeps_done h ?_
  refine Keeps.step (collide_keeps ..) rfl ?_
  refine Keeps.step (State.elapse_keeps ..) rfl ?_
  exact Keeps.refl _ _

theorem execCollisionTimeout_keeps (actIn : Bool) (s : State) (t : State) (h : execCollisionTimeout actIn s = .next t) :
    Keeps [.stat, .twin, .events] s t := by
  unfold execCollisionTimeout at h
  refine keeps_done h ?_
  refine keeps_ite (fun _ => ?_) (fun _ => ?_)
  · refine Keeps.step (interlockFault_keeps ..) rfl ?_
    refine Keeps.step (gateChange_keeps ..) rfl ?_
    exact Keeps.refl _ _
  · refine Keeps.step (gateChange_keeps ..) rfl ?_
    exact Keeps.refl _ _

theorem execActOutDeadmanStarved_keeps (s : State) (t : State) (h : execActOutDeadmanStarved s = .next t) : Keeps
    [.stat, .twin] s t := by
  unfold execActOutDeadmanStarved at h
  refine keeps_done h ?_
  refine Keeps.step (actDeadman_keeps ..) rfl ?_
  exact Keeps.refl _ _

theorem execActOutClaim_keeps (at_ actInLowNs : Nat) (s : State) (t : State) (h : execActOutClaim at_ actInLowNs s =
    .next t) : Keeps [.clk, .time, .twin, .events] s t := by
  unfold execActOutClaim at h
  refine keeps_done h ?_
  refine Keeps.step (claimActOut_keeps ..) rfl ?_
  refine Keeps.step (State.elapse_keeps ..) rfl ?_
  exact Keeps.refl _ _

theorem execFaultHandover_keeps (s : State) (t : State) (h : execFaultHandover s = .next t) : Keeps [.clk, .time, .stat,
    .twin, .events, .out] s t := by
  unfold execFaultHandover at h
  refine keeps_done h ?_
  refine Keeps.step (faultHandover_keeps ..) rfl ?_
  exact Keeps.refl _ _

theorem execActiveFaultHandover_keeps (s : State) (t : State) (h : execActiveFaultHandover s = .next t) : Keeps [.clk,
    .time, .stat, .twin, .events, .out] s t := by
  unfold execActiveFaultHandover at h
  refine keeps_done h ?_
  refine Keeps.step (activeFaultHandover_keeps ..) rfl ?_
  exact Keeps.refl _ _

theorem execHandover_keeps (value : Nat) (s : State) (t : State) (h : execHandover value s = .next t) : Keeps [.clk,
    .time, .stat, .twin, .events, .out] s t := by
  unfold execHandover at h
  refine keeps_done h ?_
  refine State.attempt_keeps _ _ _ _ rfl ?_
  refine Keeps.step (handoverApply_keeps ..) rfl ?_
  exact Keeps.refl _ _

theorem execIsolate_keeps (value : Nat) (s : State) (t : State) (h : execIsolate value s = .next t) : Keeps [.clk,
    .time, .dict, .stat, .pipe, .twin, .events, .out] s t := by
  unfold execIsolate at h
  refine keeps_done h ?_
  refine State.attempt_keeps _ _ _ _ rfl ?_
  refine Keeps.step (isolateApply_keeps ..) rfl ?_
  exact Keeps.refl _ _

theorem execClearTwinStatistics_keeps (value : Nat) (s : State) (t : State) (h : execClearTwinStatistics value s = .next
    t) : Keeps [.stat, .todo] s t := by
  unfold execClearTwinStatistics at h
  refine keeps_done h ?_
  refine State.attempt_keeps _ _ _ _ rfl ?_
  refine keeps_todo rfl ?_
  exact Keeps.refl _ _

theorem execCollisionClear_keeps (s : State) (t : State) (h : execCollisionClear s = .next t) : Keeps [.twin] s t := by
  unfold execCollisionClear at h
  refine keeps_done h ?_
  refine Keeps.step (collisionClear_keeps ..) rfl ?_
  exact Keeps.refl _ _

end Sys2Proof.Machine
end

