-- ==== Sys2Proof/Laws/KeepsBeam.lean ====
section
/-! SUPPORT. The parts of the state that each function of Machine/Beam.lean may change. -/
set_option linter.unreachableTactic false
set_option linter.unusedTactic false

namespace Sys2Proof.Machine

theorem rodCtrlWrite_keeps (s : State) (r off v : Nat) : Keeps [.stat, .twin, .rods, .slots, .tally, .events] s
    (rodCtrlWrite s r off v) := by
  unfold rodCtrlWrite
  split
  · refine keeps_ite (fun _ => ?_) (fun _ => ?_)
    · refine Keeps.step (runStart_keeps ..) rfl ?_
      exact Keeps.refl _ _
    · refine Keeps.step (State.setRod_keeps ..) rfl ?_
      refine Keeps.step (runStop_keeps ..) rfl ?_
      exact Keeps.refl _ _
  · refine keeps_ite (fun _ => ?_) (fun _ => ?_)
    · refine Keeps.step (faultClear_keeps ..) rfl ?_
      exact Keeps.refl _ _
    · exact Keeps.refl _ _
  · refine keeps_ite (fun _ => ?_) (fun _ => ?_)
    · refine Keeps.step (State.setRod_keeps ..) rfl ?_
      exact Keeps.refl _ _
    · exact Keeps.refl _ _
  · exact Keeps.refl _ _

theorem tallyRegWrite_keeps (s : State) (a v : Nat) : Keeps [.stat, .tally] s (tallyRegWrite s a v) := by
  unfold tallyRegWrite
  refine keeps_ite (fun _ => ?_) (fun _ => ?_)
  · refine keeps_ite (fun _ => ?_) (fun _ => ?_)
    · refine Keeps.step (qcfgSet_keeps ..) rfl ?_
      exact Keeps.refl _ _
    · exact Keeps.refl _ _
  · refine keeps_ite (fun _ => ?_) (fun _ => ?_)
    · refine Keeps.step (flowWrite_keeps ..) rfl ?_
      exact Keeps.refl _ _
    · refine keeps_ite (fun _ => ?_) (fun _ => ?_)
      · refine keeps_tally rfl ?_
        exact Keeps.refl _ _
      · refine keeps_ite (fun _ => ?_) (fun _ => ?_)
        · refine Keeps.step (exclWrite_keeps ..) rfl ?_
          exact Keeps.refl _ _
        · exact Keeps.refl _ _

theorem priWrite_keeps (s : State) (m g v : Nat) : Keeps [.beam] s (priWrite s m g v) := by
  unfold priWrite
  refine keeps_beam rfl ?_
  exact Keeps.refl _ _

theorem busAWrite_keeps (s : State) (a v : Nat) : Keeps [.clk, .twin, .beam] s (busAWrite s a v) := by
  unfold busAWrite
  refine keeps_ite (fun _ => ?_) (fun _ => ?_)
  · refine keeps_clk rfl ?_
    exact Keeps.refl _ _
  · refine keeps_ite (fun _ => ?_) (fun _ => ?_)
    · refine keeps_ite (fun _ => ?_) (fun _ => ?_)
      · refine keeps_clk rfl ?_
        exact Keeps.refl _ _
      · exact Keeps.refl _ _
    · refine keeps_ite (fun _ => ?_) (fun _ => ?_)
      · refine keeps_beam rfl ?_
        exact Keeps.refl _ _
      · refine keeps_ite (fun _ => ?_) (fun _ => ?_)
        · refine keeps_ite (fun _ => ?_) (fun _ => ?_)
          · refine keeps_beam rfl ?_
            exact Keeps.refl _ _
          · exact Keeps.refl _ _
        · refine keeps_ite (fun _ => ?_) (fun _ => ?_)
          · refine keeps_ite (fun _ => ?_) (fun _ => ?_)
            · refine Keeps.step (collisionClear_keeps ..) rfl ?_
              exact Keeps.refl _ _
            · exact Keeps.refl _ _
          · refine keeps_ite (fun _ => ?_) (fun _ => ?_)
            · refine Keeps.step (priWrite_keeps ..) rfl ?_
              exact Keeps.refl _ _
            · exact Keeps.refl _ _

theorem busBWrite_keeps (s : State) (a v : Nat) : Keeps [.stat, .byp, .drives, .events] s (busBWrite s a v) := by
  unfold busBWrite
  refine keeps_ite (fun _ => ?_) (fun _ => ?_)
  · refine keeps_ite (fun _ => ?_) (fun _ => ?_)
    · refine Keeps.step (bypFeed_keeps ..) rfl ?_
      refine Keeps.step (bypEnWrite_keeps ..) rfl ?_
      exact Keeps.refl _ _
    · refine Keeps.step (bypEnWrite_keeps ..) rfl ?_
      exact Keeps.refl _ _
  · refine keeps_ite (fun _ => ?_) (fun _ => ?_)
    · refine Keeps.step (faultRamp_keeps ..) rfl ?_
      exact Keeps.refl _ _
    · exact Keeps.refl _ _

theorem regWrite_keeps (s : State) (a v : Nat) : Keeps [.clk, .stat, .byp, .drives, .twin, .rods, .slots, .tally, .beam,
    .events] s (regWrite s a v) := by
  unfold regWrite
  refine keeps_ite (fun _ => ?_) (fun _ => ?_)
  · refine keeps_ite (fun _ => ?_) (fun _ => ?_)
    · refine Keeps.step (rodCtrlWrite_keeps ..) rfl ?_
      exact Keeps.refl _ _
    · exact Keeps.refl _ _
  · refine keeps_ite (fun _ => ?_) (fun _ => ?_)
    · refine Keeps.step (tallyRegWrite_keeps ..) rfl ?_
      exact Keeps.refl _ _
    · refine keeps_ite (fun _ => ?_) (fun _ => ?_)
      · refine Keeps.step (busAWrite_keeps ..) rfl ?_
        exact Keeps.refl _ _
      · refine keeps_ite (fun _ => ?_) (fun _ => ?_)
        · refine Keeps.step (busBWrite_keeps ..) rfl ?_
          exact Keeps.refl _ _
        · exact Keeps.refl _ _

theorem refuse_keeps (s : State) (q : BeamReq) (cause : Nat) : Keeps [.stat, .beam, .events, .out] s (refuse s q cause)
    := by
  unfold refuse
  dsimp only
  refine keeps_ite (fun _ => ?_) (fun _ => ?_)
  · refine Keeps.step (beamError_keeps ..) rfl ?_
    exact Keeps.refl _ _
  · refine Keeps.step (State.send_keeps ..) rfl ?_
    refine Keeps.step (beamError_keeps ..) rfl ?_
    exact Keeps.refl _ _

theorem rodMemRead_keeps (s : State) (r off n : Nat) : Keeps [.stat, .twin, .frames, .rods, .slots, .rot, .moves,
    .tally, .events] s (rodMemRead s r off n).1 := by
  unfold rodMemRead
  dsimp only
  split
  · refine Keeps.step (rodFault_keeps ..) rfl ?_
    refine Keeps.step (State.setRod_keeps ..) rfl ?_
    refine Keeps.step (rodNote_keeps ..) rfl ?_
    exact Keeps.refl _ _
  · refine Keeps.step (rodNote_keeps ..) rfl ?_
    exact Keeps.refl _ _

theorem rodMemWrite_keeps (s : State) (r off : Nat) (data : List Byte) (strobe : List Bool) : Keeps [.stat, .twin,
    .frames, .rods, .slots, .rot, .moves, .tally, .mem, .events] s (rodMemWrite s r off data strobe) := by
  unfold rodMemWrite
  dsimp only
  refine keeps_ite (fun _ => ?_) (fun _ => ?_)
  · refine Keeps.step (rodFault_keeps ..) rfl ?_
    refine Keeps.step (State.setRod_keeps ..) rfl ?_
    refine keeps_mem rfl ?_
    refine keeps_foldl (fun _ _ _ => ?_) ?_
    · split
      · assumption
      · refine keeps_ite (fun _ => ?_) (fun _ => ?_)
        · refine Keeps.step (rodHeal_keeps ..) rfl ?_
          assumption
        · refine keeps_ite (fun _ => ?_) (fun _ => ?_)
          · assumption
          · refine Keeps.step (rodHeal_keeps ..) rfl ?_
            refine Keeps.step (countRodEcc_keeps ..) rfl ?_
            assumption
    · exact Keeps.refl _ _
  · refine keeps_mem rfl ?_
    refine keeps_foldl (fun _ _ _ => ?_) ?_
    · split
      · assumption
      · refine keeps_ite (fun _ => ?_) (fun _ => ?_)
        · refine Keeps.step (rodHeal_keeps ..) rfl ?_
          assumption
        · refine keeps_ite (fun _ => ?_) (fun _ => ?_)
          · assumption
          · refine Keeps.step (rodHeal_keeps ..) rfl ?_
            refine Keeps.step (countRodEcc_keeps ..) rfl ?_
            assumption
    · exact Keeps.refl _ _

theorem regBurst_keeps (s : State) (a : Nat) (data : List Byte) (strobe : List Bool) : Keeps [.clk, .stat, .byp,
    .drives, .twin, .rods, .slots, .tally, .beam, .events] s (regBurst s a data strobe) := by
  unfold regBurst
  refine keeps_foldl (fun _ _ _ => ?_) ?_
  · refine keeps_ite (fun _ => ?_) (fun _ => ?_)
    · refine Keeps.step (regWrite_keeps ..) rfl ?_
      assumption
    · assumption
  · exact Keeps.refl _ _

theorem readBurst_keeps (s : State) (m a n : Nat) : Keeps [.nv, .stat, .pipe, .twin, .frames, .rods, .slots, .rot,
    .moves, .tally, .beam, .ledger, .dram, .mem, .events, .draws] s (readBurst s m a n).1 := by
  unfold readBurst
  split
  · refine Keeps.step (ledgerRead_keeps ..) rfl ?_
    exact Keeps.refl _ _
  · split
    · split
      · refine Keeps.step (beamError_keeps ..) rfl ?_
        exact Keeps.refl _ _
      · refine Keeps.step (burstEnd_keeps ..) rfl ?_
        refine Keeps.step (dramRead_keeps ..) rfl ?_
        refine Keeps.step (wakeDram_keeps ..) rfl ?_
        exact Keeps.refl _ _
    · split
      · dsimp only
        split
        · refine Keeps.step (rodMemRead_keeps ..) rfl ?_
          exact Keeps.refl _ _
        · refine Keeps.step (beamError_keeps ..) rfl ?_
          exact Keeps.refl _ _
      · split
        · exact Keeps.refl _ _
        · exact Keeps.refl _ _

theorem writeBurst_keeps (s : State) (m a : Nat) (data : List Byte) (strobe : List Bool) : Keeps [.clk, .nv, .stat,
    .pipe, .byp, .drives, .twin, .frames, .rods, .slots, .rot, .moves, .tally, .beam, .ledger, .dram, .mem, .events,
    .draws] s (writeBurst s m a data strobe).1 := by
  unfold writeBurst
  split
  · refine Keeps.step (ledgerWrite_keeps ..) rfl ?_
    exact Keeps.refl _ _
  · split
    · split
      · refine Keeps.step (beamError_keeps ..) rfl ?_
        exact Keeps.refl _ _
      · refine Keeps.step (burstEnd_keeps ..) rfl ?_
        refine Keeps.step (dramWrite_keeps ..) rfl ?_
        refine Keeps.step (wakeDram_keeps ..) rfl ?_
        exact Keeps.refl _ _
    · split
      · dsimp only
        split
        · refine Keeps.step (rodMemWrite_keeps ..) rfl ?_
          exact Keeps.refl _ _
        · refine Keeps.step (beamError_keeps ..) rfl ?_
          exact Keeps.refl _ _
      · split
        · dsimp only
          split
          · refine Keeps.step (putWindow_keeps ..) rfl ?_
            exact Keeps.refl _ _
          · refine Keeps.step (beamError_keeps ..) rfl ?_
            exact Keeps.refl _ _
        · split
          · refine Keeps.step (purge_keeps ..) rfl ?_
            exact Keeps.refl _ _
          · split
            · refine keeps_mem rfl ?_
              exact Keeps.refl _ _
            · refine Keeps.step (regBurst_keeps ..) rfl ?_
              exact Keeps.refl _ _

theorem serveBurst_keeps (s : State) (q : BeamReq) : Keeps [.clk, .nv, .stat, .pipe, .byp, .drives, .twin, .frames,
    .rods, .slots, .rot, .moves, .tally, .beam, .ledger, .dram, .mem, .events, .draws, .out] s (serveBurst s q) := by
  unfold serveBurst
  refine keeps_ite (fun _ => ?_) (fun _ => ?_)
  · refine Keeps.step (writeBurst_keeps ..) rfl ?_
    exact Keeps.refl _ _
  · dsimp only
    split
    · refine Keeps.step (State.send_keeps ..) rfl ?_
      refine Keeps.step (readBurst_keeps ..) rfl ?_
      exact Keeps.refl _ _
    · refine Keeps.step (State.send_keeps ..) rfl ?_
      refine Keeps.step (readBurst_keeps ..) rfl ?_
      exact Keeps.refl _ _

theorem lockAfter_keeps (s : State) (q : BeamReq) (t : Nat) : Keeps [.beam] s (lockAfter s q t) := by
  unfold lockAfter
  refine keeps_ite (fun _ => ?_) (fun _ => ?_)
  · refine keeps_beam rfl ?_
    exact Keeps.refl _ _
  · refine keeps_ite (fun _ => ?_) (fun _ => ?_)
    · refine keeps_beam rfl ?_
      exact Keeps.refl _ _
    · exact Keeps.refl _ _

theorem serve_keeps (s : State) (q : BeamReq) (t : Nat) : Keeps [.clk, .nv, .stat, .pipe, .byp, .drives, .twin, .frames,
    .rods, .slots, .rot, .moves, .tally, .beam, .ledger, .dram, .mem, .events, .draws, .out] s (serve s q t) := by
  unfold serve
  dsimp only
  refine keeps_ite (fun _ => ?_) (fun _ => ?_)
  · refine Keeps.step (refuse_keeps ..) rfl ?_
    exact Keeps.refl _ _
  · refine keeps_ite (fun _ => ?_) (fun _ => ?_)
    · refine Keeps.step (refuse_keeps ..) rfl ?_
      refine keeps_beam rfl ?_
      exact Keeps.refl _ _
    · refine Keeps.step (serveBurst_keeps ..) rfl ?_
      refine Keeps.step (lockAfter_keeps ..) rfl ?_
      exact Keeps.refl _ _

theorem letIn_keeps (s : State) : Keeps [.beam] s (letIn s) := by
  unfold letIn
  refine keeps_beam rfl ?_
  exact Keeps.refl _ _

theorem granted_keeps (s : State) (t : Nat) (w : Waiting × Nat) (aged : Bool) : Keeps [.beam] s (granted s t w aged) :=
    by
  unfold granted
  dsimp only
  refine keeps_beam rfl ?_
  refine Keeps.step (grantNoted_keeps ..) rfl ?_
  exact Keeps.refl _ _

theorem grantAt_keeps (s : State) (t : Nat) : Keeps [.clk, .nv, .stat, .pipe, .byp, .drives, .twin, .frames, .rods,
    .slots, .rot, .moves, .tally, .beam, .ledger, .dram, .mem, .events, .draws, .out] s (grantAt s t) := by
  unfold grantAt
  split
  · exact Keeps.refl _ _
  · refine Keeps.step (serve_keeps ..) rfl ?_
    refine Keeps.step (granted_keeps ..) rfl ?_
    exact Keeps.refl _ _

theorem issue_keeps (s : State) (q : BeamReq) : Keeps [.stat, .beam, .events, .out] s (issue s q) := by
  unfold issue
  refine keeps_ite (fun _ => ?_) (fun _ => ?_)
  · exact Keeps.refl _ _
  · refine keeps_ite (fun _ => ?_) (fun _ => ?_)
    · refine Keeps.step (refuse_keeps ..) rfl ?_
      exact Keeps.refl _ _
    · refine Keeps.step (enqueue_keeps ..) rfl ?_
      exact Keeps.refl _ _

theorem arbitrate_keeps (s : State) : Keeps [.clk, .nv, .stat, .pipe, .byp, .drives, .twin, .frames, .rods, .slots,
    .rot, .moves, .tally, .beam, .ledger, .dram, .mem, .events, .draws, .out] s (arbitrate s) := by
  unfold arbitrate
  refine keeps_foldl (fun _ _ _ => ?_) ?_
  · refine Keeps.step (grantAt_keeps ..) rfl ?_
    assumption
  · refine Keeps.step (letIn_keeps ..) rfl ?_
    exact Keeps.refl _ _

theorem single_keeps (s : State) (q : BeamReq) : Keeps [.clk, .nv, .stat, .pipe, .byp, .drives, .twin, .frames, .rods,
    .slots, .rot, .moves, .tally, .beam, .ledger, .dram, .mem, .events, .draws, .out] s (single s q) := by
  unfold single
  split
  · refine Keeps.step (issue_keeps ..) rfl ?_
    exact Keeps.refl _ _
  · refine Keeps.step (grantAt_keeps ..) rfl ?_
    refine Keeps.step (letIn_keeps ..) rfl ?_
    refine Keeps.step (issue_keeps ..) rfl ?_
    exact Keeps.refl _ _

theorem lockedStep_keeps (m : Nat) (acc : State × Nat × Bool) (q : BeamReq) : Keeps [.clk, .nv, .stat, .pipe, .byp,
    .drives, .twin, .frames, .rods, .slots, .rot, .moves, .tally, .beam, .ledger, .dram, .mem, .events, .draws, .out]
    acc.1 (lockedStep m acc q).1 := by
  unfold lockedStep
  split
  split
  · dsimp only
    refine Keeps.step (issue_keeps ..) rfl ?_
    exact Keeps.refl _ _
  · split
    · dsimp only
      exact Keeps.refl _ _
    · split
      · dsimp only
        refine Keeps.step (refuse_keeps ..) rfl ?_
        exact Keeps.refl _ _
      · split
        · dsimp only
          refine Keeps.step (refuse_keeps ..) rfl ?_
          refine keeps_beam rfl ?_
          exact Keeps.refl _ _
        · dsimp only
          refine Keeps.step (grantAt_keeps ..) rfl ?_
          refine Keeps.step (letIn_keeps ..) rfl ?_
          refine Keeps.step (issue_keeps ..) rfl ?_
          exact Keeps.refl _ _

theorem lockedSequence_keeps (s : State) (m : Nat) (reqs : List BeamReq) : Keeps [.clk, .nv, .stat, .pipe, .byp,
    .drives, .twin, .frames, .rods, .slots, .rot, .moves, .tally, .beam, .ledger, .dram, .mem, .events, .draws, .out] s
    (lockedSequence s m reqs) := by
  unfold lockedSequence
  refine keeps_foldl_fst (fun _ _ _ => ?_) ?_
  · refine Keeps.step (lockedStep_keeps ..) rfl ?_
    assumption
  · dsimp only
    exact Keeps.refl _ _

theorem lockTimeout_keeps (s : State) (t heldNs : Nat) : Keeps [.stat, .beam, .events, .out] s (lockTimeout s t heldNs)
    := by
  unfold lockTimeout
  dsimp only
  refine keeps_ite (fun _ => ?_) (fun _ => ?_)
  · exact Keeps.refl _ _
  · refine Keeps.step (State.raise_keeps ..) rfl ?_
    refine Keeps.step (State.bump_keeps ..) rfl ?_
    refine keeps_foldl (fun _ _ _ => ?_) ?_
    · refine Keeps.step (refuse_keeps ..) rfl ?_
      assumption
    · refine keeps_beam rfl ?_
      exact Keeps.refl _ _

theorem resetRods_keeps (s : State) (m : Nat) : Keeps [.stat, .twin, .rods, .slots, .tally, .events] s (resetRods s m)
    := by
  unfold resetRods
  refine keeps_foldl (fun _ _ _ => ?_) ?_
  · dsimp only
    refine Keeps.step (State.setRod_keeps ..) rfl ?_
    refine Keeps.step (clearRod_keeps ..) rfl ?_
    assumption
  · exact Keeps.refl _ _

theorem masterReset_keeps (s : State) (m : Nat) : Keeps [.stat, .twin, .rods, .slots, .tally, .beam, .events] s
    (masterReset s m) := by
  unfold masterReset
  refine keeps_ite (fun _ => ?_) (fun _ => ?_)
  · exact Keeps.refl _ _
  · refine keeps_ite (fun _ => ?_) (fun _ => ?_)
    · refine Keeps.step (resetRods_keeps ..) rfl ?_
      exact Keeps.refl _ _
    · dsimp only
      refine Keeps.step (State.raise_keeps ..) rfl ?_
      refine Keeps.step (State.bump_keeps ..) rfl ?_
      refine Keeps.step (State.stset_keeps ..) rfl ?_
      refine Keeps.step (resetRods_keeps ..) rfl ?_
      refine Keeps.step (dropHeld_keeps ..) rfl ?_
      refine keeps_beam rfl ?_
      exact Keeps.refl _ _

theorem moverMeets_keeps (s : State) (r a n : Nat) (out : Bool) : Keeps [.stat, .beam, .events] s
    (moverMeets s r a n out).1 := by
  unfold moverMeets
  split
  · exact Keeps.step (beamError_keeps ..) rfl (Keeps.refl _ _)
  · dsimp only
    split
    · exact Keeps.step (beamError_keeps ..) rfl (Keeps.refl _ _)
    · split
      · exact Keeps.refl _ _
      · split
        · exact Keeps.refl _ _
        · split
          · refine Keeps.step (granted_keeps ..) rfl ?_
            refine Keeps.step (letIn_keeps ..) rfl ?_
            exact Keeps.step (enqueue_keeps ..) rfl (Keeps.refl _ _)
          · exact Keeps.refl _ _

theorem moveIn_keeps (s : State) (r : Nat) (x : Xfer) (off n : Nat) : Keeps [.nv, .stat, .pipe, .twin, .frames, .rods,
    .slots, .rot, .moves, .tally, .beam, .ledger, .dram, .mem, .events, .draws] s (moveIn s r x off n).1 := by
  unfold moveIn
  dsimp only
  split
  · exact Keeps.step (moverMeets_keeps ..) rfl (Keeps.refl _ _)
  · split
    · exact Keeps.step (readBurst_keeps ..) rfl (Keeps.step (moverMeets_keeps ..) rfl (Keeps.refl _ _))
    · refine Keeps.step (rodMemWrite_keeps ..) rfl ?_
      exact Keeps.step (readBurst_keeps ..) rfl (Keeps.step (moverMeets_keeps ..) rfl (Keeps.refl _ _))

theorem moveOut_keeps (s : State) (r : Nat) (x : Xfer) (off n : Nat) : Keeps [.clk, .nv, .stat, .pipe, .byp, .drives,
    .twin, .frames, .rods, .slots, .rot, .moves, .tally, .beam, .ledger, .dram, .mem, .events, .draws] s (moveOut s r x
    off n).1 := by
  unfold moveOut
  dsimp only
  split
  · exact Keeps.step (moverMeets_keeps ..) rfl (Keeps.refl _ _)
  · split
    · refine Keeps.step (noteOutput_keeps ..) rfl ?_
      refine Keeps.step (writeBurst_keeps ..) rfl (Keeps.step (rodNote_keeps ..) rfl ?_)
      exact Keeps.step (moverMeets_keeps ..) rfl (Keeps.refl _ _)
    · refine Keeps.step (writeBurst_keeps ..) rfl (Keeps.step (rodNote_keeps ..) rfl ?_)
      exact Keeps.step (moverMeets_keeps ..) rfl (Keeps.refl _ _)

theorem moveAll_keeps (r : Nat) (x : Xfer) (l : List (Nat × Nat)) (s : State) : Keeps [.clk, .nv, .stat, .pipe, .byp, .drives, .twin, .frames, .rods, .slots, .rot, .moves, .tally, .beam, .ledger, .dram, .mem, .events, .draws] s (moveAll r x l s).1 := by
  induction l generalizing s with
  | nil => exact Keeps.refl _ _
  | cons b rest ih =>
    unfold moveAll
    split
    · exact Keeps.refl _ _
    · have hm : Keeps [.clk, .nv, .stat, .pipe, .byp, .drives, .twin, .frames, .rods, .slots, .rot, .moves, .tally, .beam, .ledger, .dram, .mem, .events, .draws] s (if x.out then moveOut s r x b.1 b.2 else moveIn s r x b.1 b.2).1 := by
        split
        · exact Keeps.step (moveOut_keeps ..) rfl (Keeps.refl _ _)
        · exact Keeps.step (moveIn_keeps ..) rfl (Keeps.refl _ _)
      dsimp only
      generalize (if x.out then moveOut s r x b.1 b.2 else moveIn s r x b.1 b.2) = a at hm ⊢
      split
      · exact Keeps.step (ih _) rfl hm
      · exact hm
      · exact hm
      · exact hm

theorem afterXfer_keeps (s : State) (r : Nat) : Keeps [.stat, .twin, .rods, .slots, .tally, .mem, .events] s (afterXfer
    s r) := by
  unfold afterXfer
  dsimp only
  split
  · refine Keeps.step (State.setRod_keeps ..) rfl ?_
    split
    · refine Keeps.step (State.setRod_keeps ..) rfl ?_
      exact Keeps.refl _ _
    · refine Keeps.step (endItem_keeps ..) rfl ?_
      refine Keeps.step (State.setRod_keeps ..) rfl ?_
      exact Keeps.refl _ _
    · exact Keeps.refl _ _
  · refine keeps_ite (fun _ => ?_) (fun _ => ?_)
    · refine Keeps.step (finish_keeps ..) rfl ?_
      split
      · refine Keeps.step (State.setRod_keeps ..) rfl ?_
        exact Keeps.refl _ _
      · refine Keeps.step (endItem_keeps ..) rfl ?_
        refine Keeps.step (State.setRod_keeps ..) rfl ?_
        exact Keeps.refl _ _
      · exact Keeps.refl _ _
    · split
      · refine Keeps.step (State.setRod_keeps ..) rfl ?_
        exact Keeps.refl _ _
      · refine Keeps.step (endItem_keeps ..) rfl ?_
        refine Keeps.step (State.setRod_keeps ..) rfl ?_
        exact Keeps.refl _ _
      · exact Keeps.refl _ _
  · refine Keeps.step (giveIfAny_keeps ..) rfl ?_
    split
    · refine Keeps.step (State.setRod_keeps ..) rfl ?_
      exact Keeps.refl _ _
    · refine Keeps.step (endItem_keeps ..) rfl ?_
      refine Keeps.step (State.setRod_keeps ..) rfl ?_
      exact Keeps.refl _ _
    · exact Keeps.refl _ _
  · split
    · refine Keeps.step (State.setRod_keeps ..) rfl ?_
      exact Keeps.refl _ _
    · refine Keeps.step (endItem_keeps ..) rfl ?_
      refine Keeps.step (State.setRod_keeps ..) rfl ?_
      exact Keeps.refl _ _
    · exact Keeps.refl _ _

theorem xferFail_keeps (s : State) (r code : Nat) : Keeps [.stat, .twin, .frames, .rods, .slots, .rot, .moves, .tally,
    .events] s (xferFail s r code) := by
  unfold xferFail
  dsimp only
  refine keeps_ite (fun _ => ?_) (fun _ => ?_)
  · refine Keeps.step (State.setRod_keeps ..) rfl ?_
    exact Keeps.refl _ _
  · refine Keeps.step (rodFault_keeps ..) rfl ?_
    refine Keeps.step (State.setRod_keeps ..) rfl ?_
    exact Keeps.refl _ _

theorem xferComplete_keeps (s : State) (r : Nat) : Keeps [.clk, .nv, .stat, .pipe, .byp, .drives, .twin, .frames, .rods,
    .slots, .rot, .moves, .tally, .beam, .ledger, .dram, .mem, .events, .draws] s (xferComplete s r) := by
  unfold xferComplete
  split
  · exact Keeps.refl _ _
  · refine keeps_ite (fun _ => Keeps.refl _ _) (fun _ => ?_)
    dsimp only
    split
    · refine Keeps.step (afterXfer_keeps ..) rfl ?_
      refine Keeps.step (State.setRod_keeps ..) rfl ?_
      exact Keeps.step (moveAll_keeps ..) rfl (Keeps.refl _ _)
    · refine Keeps.step (State.setRod_keeps ..) rfl ?_
      exact Keeps.step (moveAll_keeps ..) rfl (Keeps.refl _ _)
    · refine Keeps.step (State.setRod_keeps ..) rfl ?_
      exact Keeps.step (moveAll_keeps ..) rfl (Keeps.refl _ _)
    · refine Keeps.step (xferFail_keeps ..) rfl ?_
      exact Keeps.step (moveAll_keeps ..) rfl (Keeps.refl _ _)
    · refine Keeps.step (xferFail_keeps ..) rfl ?_
      exact Keeps.step (moveAll_keeps ..) rfl (Keeps.refl _ _)

theorem execRegisterWrite_keeps (master addr value : Nat) (s : State) (t : State) (h : execRegisterWrite master addr
    value s = .next t) : Keeps [.clk, .nv, .stat, .pipe, .byp, .drives, .twin, .frames, .rods, .slots, .rot, .moves,
    .tally, .beam, .ledger, .dram, .mem, .events, .draws, .out] s t := by
  unfold execRegisterWrite at h
  refine keeps_done h ?_
  refine Keeps.step (single_keeps ..) rfl ?_
  exact Keeps.refl _ _

theorem execTallyPurge_keeps (value : Nat) (s : State) (t : State) (h : execTallyPurge value s = .next t) : Keeps [.clk,
    .nv, .stat, .pipe, .byp, .drives, .twin, .frames, .rods, .slots, .rot, .moves, .tally, .beam, .ledger, .dram, .mem,
    .events, .draws, .out] s t := by
  unfold execTallyPurge at h
  refine keeps_done h ?_
  refine Keeps.step (single_keeps ..) rfl ?_
  exact Keeps.refl _ _

theorem execQcfgWrite_keeps (master queue value : Nat) (s : State) (t : State) (h : execQcfgWrite master queue value s =
    .next t) : Keeps [.clk, .nv, .stat, .pipe, .byp, .drives, .twin, .frames, .rods, .slots, .rot, .moves, .tally,
    .beam, .ledger, .dram, .mem, .events, .draws, .out] s t := by
  unfold execQcfgWrite at h
  refine keeps_done h ?_
  refine keeps_ite (fun _ => ?_) (fun _ => ?_)
  · refine Keeps.step (single_keeps ..) rfl ?_
    exact Keeps.refl _ _
  · exact Keeps.refl _ _

theorem execPutWindowWrite_keeps (master queue offset : Nat) (data : List Byte) (s : State) (t : State) (h :
    execPutWindowWrite master queue offset data s = .next t) : Keeps [.clk, .nv, .stat, .pipe, .byp, .drives, .twin,
    .frames, .rods, .slots, .rot, .moves, .tally, .beam, .ledger, .dram, .mem, .events, .draws, .out] s t := by
  unfold execPutWindowWrite at h
  refine keeps_done h ?_
  dsimp only
  refine keeps_ite (fun _ => ?_) (fun _ => ?_)
  · exact Keeps.refl _ _
  · refine keeps_ite (fun _ => ?_) (fun _ => ?_)
    · refine Keeps.step (single_keeps ..) rfl ?_
      exact Keeps.refl _ _
    · refine Keeps.step (putWindow_keeps ..) rfl ?_
      exact Keeps.refl _ _

theorem execXferComplete_keeps (rod : Nat) (upsets : List Upset) (s : State) (t : State) (h : execXferComplete rod
    upsets s = .next t) : Keeps [.clk, .nv, .stat, .pipe, .byp, .drives, .twin, .frames, .rods, .slots, .rot, .moves,
    .tally, .beam, .ledger, .dram, .mem, .events, .draws] s t := by
  unfold execXferComplete at h
  refine keeps_done h ?_
  refine keeps_ite (fun _ => ?_) (fun _ => ?_)
  · refine Keeps.step (xferComplete_keeps ..) rfl ?_
    refine Keeps.step (applyUpsets_keeps ..) rfl ?_
    exact Keeps.refl _ _
  · exact Keeps.refl _ _

theorem execBeamRequest_keeps (reqs : List BeamReq) (upsets : List Upset) (s : State) (t : State) (h : execBeamRequest
    reqs upsets s = .next t) : Keeps [.clk, .nv, .stat, .pipe, .byp, .drives, .twin, .frames, .rods, .slots, .rot,
    .moves, .tally, .beam, .ledger, .dram, .mem, .events, .draws, .out] s t := by
  unfold execBeamRequest at h
  refine keeps_done h ?_
  refine Keeps.step (arbitrate_keeps ..) rfl ?_
  refine keeps_foldl (fun _ _ _ => ?_) ?_
  · refine Keeps.step (issue_keeps ..) rfl ?_
    assumption
  · refine Keeps.step (applyUpsets_keeps ..) rfl ?_
    exact Keeps.refl _ _

theorem execLockedSequence_keeps (master : Nat) (reqs : List BeamReq) (s : State) (t : State) (h : execLockedSequence
    master reqs s = .next t) : Keeps [.clk, .nv, .stat, .pipe, .byp, .drives, .twin, .frames, .rods, .slots, .rot,
    .moves, .tally, .beam, .ledger, .dram, .mem, .events, .draws, .out] s t := by
  unfold execLockedSequence at h
  refine keeps_done h ?_
  refine Keeps.step (lockedSequence_keeps ..) rfl ?_
  exact Keeps.refl _ _

theorem execLockTimeout_keeps (target heldNs : Nat) (s : State) (t : State) (h : execLockTimeout target heldNs s = .next
    t) : Keeps [.stat, .beam, .events, .out] s t := by
  unfold execLockTimeout at h
  refine keeps_done h ?_
  refine Keeps.step (lockTimeout_keeps ..) rfl ?_
  exact Keeps.refl _ _

theorem execMasterReset_keeps (master : Nat) (s : State) (t : State) (h : execMasterReset master s = .next t) : Keeps
    [.stat, .twin, .rods, .slots, .tally, .beam, .events] s t := by
  unfold execMasterReset at h
  refine keeps_done h ?_
  refine Keeps.step (masterReset_keeps ..) rfl ?_
  exact Keeps.refl _ _

theorem execBeamErrClear_keeps (s : State) (t : State) (h : execBeamErrClear s = .next t) : Keeps [.beam] s t := by
  unfold execBeamErrClear at h
  refine keeps_done h ?_
  refine keeps_beam rfl ?_
  exact Keeps.refl _ _

end Sys2Proof.Machine
end

