-- ==== Sys2Proof/Laws/KeepsEvents.lean ====
section
/-! SUPPORT. The parts of the state that each function of Machine/Events.lean may change. -/
set_option linter.unreachableTactic false
set_option linter.unusedTactic false

namespace Sys2Proof.Machine

theorem evSourceApply_keeps (s : State) (src v : Nat) : Keeps [.nv, .events] s (evSourceApply s src v) := by
  unfold evSourceApply
  refine keeps_ite (fun _ => ?_) (fun _ => ?_)
  · exact Keeps.refl _ _
  · refine keeps_ite (fun _ => ?_) (fun _ => ?_)
    · refine keeps_events rfl ?_
      refine keeps_nv rfl ?_
      exact Keeps.refl _ _
    · refine keeps_nv rfl ?_
      exact Keeps.refl _ _

theorem notifyAll_keeps (s : State) (recs : List EvRec) : Keeps [.stat, .fol, .out] s (notifyAll s recs) := by
  unfold notifyAll
  refine keeps_foldl (fun _ _ _ => ?_) ?_
  · refine keeps_ite (fun _ => ?_) (fun _ => ?_)
    · dsimp only
      refine keeps_fol rfl ?_
      refine keeps_foldl (fun _ _ _ => ?_) ?_
      · refine Keeps.step (State.sendPort_keeps ..) rfl ?_
        assumption
      · assumption
    · assumption
  · exact Keeps.refl _ _

theorem copyLog_keeps (s : State) : Keeps [.nv, .events] s (copyLog s) := by
  unfold copyLog
  refine keeps_ite (fun _ => ?_) (fun _ => ?_)
  · refine keeps_nv_events rfl rfl ?_
    exact Keeps.refl _ _
  · exact Keeps.refl _ _

theorem logStatus_keeps (s : State) : Keeps [.stat] s (logStatus s) := by
  unfold logStatus
  refine Keeps.step (State.stset_keeps ..) rfl ?_
  refine Keeps.step (State.stset_keeps ..) rfl ?_
  refine Keeps.step (State.stset_keeps ..) rfl ?_
  refine Keeps.step (State.stset_keeps ..) rfl ?_
  exact Keeps.refl _ _

theorem writeRecords_keeps (s : State) : Keeps [.nv, .stat, .fol, .events, .out] s (writeRecords s) := by
  unfold writeRecords
  refine Keeps.step (logStatus_keeps ..) rfl ?_
  refine keeps_ite (fun _ => ?_) (fun _ => ?_)
  · refine Keeps.step (copyLog_keeps ..) rfl ?_
    refine Keeps.step (notifyAll_keeps ..) rfl ?_
    refine keeps_events rfl ?_
    exact Keeps.refl _ _
  · refine Keeps.step (State.raise_keeps ..) rfl ?_
    refine Keeps.step (copyLog_keeps ..) rfl ?_
    refine Keeps.step (notifyAll_keeps ..) rfl ?_
    refine keeps_events rfl ?_
    exact Keeps.refl _ _

theorem clearLatches_keeps (s : State) : Keeps [.events] s (clearLatches s) := by
  unfold clearLatches
  refine keeps_events rfl ?_
  exact Keeps.refl _ _

theorem driveEvt_keeps (s : State) : Keeps [.events] s (driveEvt s) := by
  unfold driveEvt
  refine keeps_events rfl ?_
  exact Keeps.refl _ _

theorem mirrorEvents_keeps (s : State) : Keeps [.stat] s (mirrorEvents s) := by
  unfold mirrorEvents
  refine keeps_foldl (fun _ _ _ => ?_) ?_
  · refine Keeps.step (State.stset_keeps ..) rfl ?_
    assumption
  · exact Keeps.refl _ _

theorem eventsBoundary_keeps (s : State) : Keeps [.nv, .stat, .fol, .events, .out] s (eventsBoundary s) := by
  unfold eventsBoundary
  refine Keeps.step (mirrorEvents_keeps ..) rfl ?_
  refine Keeps.step (driveEvt_keeps ..) rfl ?_
  refine Keeps.step (clearLatches_keeps ..) rfl ?_
  refine Keeps.step (writeRecords_keeps ..) rfl ?_
  exact Keeps.refl _ _

theorem execEventSourceWrite_keeps (source value : Nat) (s : State) (t : State) (h : execEventSourceWrite source value s
    = .next t) : Keeps [.nv, .stat, .events] s t := by
  unfold execEventSourceWrite at h
  refine keeps_done h ?_
  refine State.attempt_keeps _ _ _ _ rfl ?_
  refine Keeps.step (evSourceApply_keeps ..) rfl ?_
  exact Keeps.refl _ _

theorem execReadStartWrite_keeps (value : Nat) (s : State) (t : State) (h : execReadStartWrite value s = .next t) :
    Keeps [.stat, .events] s t := by
  unfold execReadStartWrite at h
  refine keeps_done h ?_
  refine State.attempt_keeps _ _ _ _ rfl ?_
  refine keeps_events rfl ?_
  exact Keeps.refl _ _

theorem execAcknowledgeAll_keeps (value : Nat) (s : State) (t : State) (h : execAcknowledgeAll value s = .next t) :
    Keeps [.stat, .events] s t := by
  unfold execAcknowledgeAll at h
  refine keeps_done h ?_
  refine State.attempt_keeps _ _ _ _ rfl ?_
  refine keeps_events rfl ?_
  exact Keeps.refl _ _

theorem execClearLog_keeps (value : Nat) (s : State) (t : State) (h : execClearLog value s = .next t) : Keeps [.stat,
    .events] s t := by
  unfold execClearLog at h
  refine keeps_done h ?_
  refine State.attempt_keeps _ _ _ _ rfl ?_
  refine keeps_events rfl ?_
  exact Keeps.refl _ _

theorem execEventLogCopy_keeps (s : State) (t : State) (h : execEventLogCopy s = .next t) : Keeps [.nv, .events] s t :=
    by
  unfold execEventLogCopy at h
  refine keeps_done h ?_
  refine Keeps.step (copyLog_keeps ..) rfl ?_
  exact Keeps.refl _ _

end Sys2Proof.Machine
end

