-- ==== Sys2Proof/Laws/KeepsLifecycle.lean ====
section
/-! SUPPORT. The parts of the state that each function of Machine/Lifecycle.lean may change. -/
set_option linter.unreachableTactic false
set_option linter.unusedTactic false

namespace Sys2Proof.Machine

theorem setLife_keeps (s : State) (l : LifeState) : Keeps [.keys, .stat, .events] s (setLife s l) := by
  unfold setLife
  refine keeps_ite (fun _ => ?_) (fun _ => ?_)
  · exact Keeps.refl _ _
  · refine Keeps.step (State.raise_keeps ..) rfl ?_
    refine Keeps.step (State.stset_keeps ..) rfl ?_
    refine keeps_keys rfl ?_
    exact Keeps.refl _ _

theorem unstage_keeps (s : State) : Keeps [.upd, .stat] s (unstage s) := by
  unfold unstage
  refine keeps_ite (fun _ => ?_) (fun _ => ?_)
  · refine Keeps.step (State.stset_keeps ..) rfl ?_
    refine keeps_upd rfl ?_
    exact Keeps.refl _ _
  · exact Keeps.refl _ _

theorem dropTransfer_keeps (s : State) (x : Session) : Keeps [.upd, .stat] s (dropTransfer s x) := by
  unfold dropTransfer
  split
  · refine keeps_ite (fun _ => ?_) (fun _ => ?_)
    · refine Keeps.step (unstage_keeps ..) rfl ?_
      exact Keeps.refl _ _
    · exact Keeps.refl _ _
  · exact Keeps.refl _ _

theorem endSessions_keeps (s : State) (ends : Session → Bool) : Keeps [.upd, .stat, .fol] s (endSessions s ends) := by
  unfold endSessions
  refine keeps_fol rfl ?_
  refine keeps_foldl (fun _ _ _ => ?_) ?_
  · refine Keeps.step (dropTransfer_keeps ..) rfl ?_
    assumption
  · exact Keeps.refl _ _

theorem newNonce_keeps (s : State) : Keeps [.keys, .draws] s (newNonce s) := by
  unfold newNonce
  refine Keeps.step (State.drawn_keeps ..) rfl ?_
  refine keeps_keys rfl ?_
  exact Keeps.refl _ _

theorem finishErasure_keeps (s : State) (target : LifeState) (ok : Bool) : Keeps [.keys, .stat, .events] s
    (finishErasure s target ok) := by
  unfold finishErasure
  refine keeps_ite (fun _ => ?_) (fun _ => ?_)
  · refine Keeps.step (setLife_keeps ..) rfl ?_
    refine Keeps.step (State.stset_keeps ..) rfl ?_
    refine keeps_keys rfl ?_
    refine keeps_keys rfl ?_
    exact Keeps.refl _ _
  · refine Keeps.step (State.raise_keeps ..) rfl ?_
    refine Keeps.step (setLife_keeps ..) rfl ?_
    refine keeps_keys rfl ?_
    exact Keeps.refl _ _

theorem erase_keeps (s : State) (target : LifeState) (ok : Bool) : Keeps [.keys, .upd, .dict, .stat, .byp, .fol,
    .events] s (erase s target ok) := by
  unfold erase
  refine Keeps.step (finishErasure_keeps ..) rfl ?_
  refine Keeps.step (endSessions_keeps ..) rfl ?_
  refine Keeps.step (ringApply_keeps ..) rfl ?_
  refine keeps_keys rfl ?_
  exact Keeps.refl _ _

theorem tokenWrite_keeps (s : State) (op : Nat) (t : List Byte) (ok : Bool) : Keeps [.keys, .upd, .dict, .stat, .byp,
    .fol, .events, .draws] s (tokenWrite s op t ok) := by
  unfold tokenWrite
  refine keeps_ite (fun _ => ?_) (fun _ => ?_)
  · exact Keeps.refl _ _
  · refine keeps_ite (fun _ => ?_) (fun _ => ?_)
    · refine Keeps.step (State.abort_keeps ..) rfl ?_
      exact Keeps.refl _ _
    · refine keeps_ite (fun _ => ?_) (fun _ => ?_)
      · refine Keeps.step (State.abort_keeps ..) rfl ?_
        exact Keeps.refl _ _
      · refine Keeps.step (newNonce_keeps ..) rfl ?_
        refine State.attempt_keeps _ _ _ _ rfl ?_
        refine Keeps.step (erase_keeps ..) rfl ?_
        exact Keeps.refl _ _

theorem provisionApply_keeps (s : State) : Keeps [.keys, .stat, .events, .draws] s (provisionApply s) := by
  unfold provisionApply
  refine Keeps.step (setLife_keeps ..) rfl ?_
  refine keeps_keys rfl ?_
  refine Keeps.step (State.drawn_keeps ..) rfl ?_
  refine Keeps.step (State.drawn_keeps ..) rfl ?_
  exact Keeps.refl _ _

theorem deployApply_keeps (s : State) : Keeps [.nv, .keys, .dict, .stat, .events] s (deployApply s) := by
  unfold deployApply
  refine Keeps.step (setLife_keeps ..) rfl ?_
  refine keeps_ite (fun _ => ?_) (fun _ => ?_)
  · refine Keeps.step (State.putNv_keeps ..) rfl ?_
    exact Keeps.refl _ _
  · exact Keeps.refl _ _

theorem levelKeyApply_keeps (s : State) (l : Nat) (key : List Byte) : Keeps [.keys, .upd, .stat, .fol] s (levelKeyApply
    s l key) := by
  unfold levelKeyApply
  refine keeps_ite (fun _ => ?_) (fun _ => ?_)
  · refine Keeps.step (endSessions_keeps ..) rfl ?_
    refine keeps_keys rfl ?_
    exact Keeps.refl _ _
  · refine keeps_keys rfl ?_
    exact Keeps.refl _ _

theorem rootApply_keeps (s : State) (sub : Nat) (b : List Byte) : Keeps [.nv, .keys, .dom] s (rootApply s sub b) := by
  unfold rootApply
  refine keeps_keys rfl ?_
  refine Keeps.step (State.putBytesNv_keeps ..) rfl ?_
  exact Keeps.refl _ _

theorem showLoad_keeps (s : State) (key : Option Nat) (nonce data tag : List Byte) (a : Nat) : Keeps [.nv, .stat, .pipe,
    .twin, .dram, .mem, .events, .draws] s (showLoad s key nonce data tag a) := by
  unfold showLoad
  split
  · refine Keeps.step (State.raise_keeps ..) rfl ?_
    refine Keeps.step (State.abort_keeps ..) rfl ?_
    exact Keeps.refl _ _
  · refine keeps_ite (fun _ => ?_) (fun _ => ?_)
    · refine Keeps.step (dramBurst_keeps ..) rfl ?_
      exact Keeps.refl _ _
    · exact Keeps.refl _ _

theorem execProvision_keeps (value : Nat) (s : State) (t : State) (h : execProvision value s = .next t) : Keeps [.keys,
    .stat, .events, .draws] s t := by
  unfold execProvision at h
  refine keeps_done h ?_
  refine State.attempt_keeps _ _ _ _ rfl ?_
  refine Keeps.step (provisionApply_keeps ..) rfl ?_
  exact Keeps.refl _ _

theorem execDeploy_keeps (value : Nat) (s : State) (t : State) (h : execDeploy value s = .next t) : Keeps [.nv, .keys,
    .dict, .stat, .events] s t := by
  unfold execDeploy at h
  refine keeps_done h ?_
  refine State.attempt_keeps _ _ _ _ rfl ?_
  refine Keeps.step (deployApply_keeps ..) rfl ?_
  exact Keeps.refl _ _

theorem execOpenModule_keeps (token : List Byte) (erasureOk : Bool) (s : State) (t : State) (h : execOpenModule token
    erasureOk s = .next t) : Keeps [.keys, .upd, .dict, .stat, .byp, .fol, .events, .draws] s t := by
  unfold execOpenModule at h
  refine keeps_done h ?_
  refine Keeps.step (tokenWrite_keeps ..) rfl ?_
  exact Keeps.refl _ _

theorem execRetireModule_keeps (token : List Byte) (erasureOk : Bool) (s : State) (t : State) (h : execRetireModule
    token erasureOk s = .next t) : Keeps [.keys, .upd, .dict, .stat, .byp, .fol, .events, .draws] s t := by
  unfold execRetireModule at h
  refine keeps_done h ?_
  refine Keeps.step (tokenWrite_keeps ..) rfl ?_
  exact Keeps.refl _ _

theorem execLevelKeyWrite_keeps (level : Nat) (key : List Byte) (s : State) (t : State) (h : execLevelKeyWrite level key
    s = .next t) : Keeps [.keys, .upd, .stat, .fol] s t := by
  unfold execLevelKeyWrite at h
  refine keeps_done h ?_
  refine keeps_ite (fun _ => ?_) (fun _ => ?_)
  · refine keeps_ite (fun _ => ?_) (fun _ => ?_)
    · exact Keeps.refl _ _
    · refine State.attempt_keeps _ _ _ _ rfl ?_
      refine Keeps.step (levelKeyApply_keeps ..) rfl ?_
      exact Keeps.refl _ _
  · refine Keeps.step (State.abort_keeps ..) rfl ?_
    exact Keeps.refl _ _

theorem execShowKeyWrite_keeps (slot : Nat) (key : List Byte) (s : State) (t : State) (h : execShowKeyWrite slot key s =
    .next t) : Keeps [.keys, .stat] s t := by
  unfold execShowKeyWrite at h
  refine keeps_done h ?_
  refine keeps_ite (fun _ => ?_) (fun _ => ?_)
  · refine keeps_ite (fun _ => ?_) (fun _ => ?_)
    · exact Keeps.refl _ _
    · refine State.attempt_keeps _ _ _ _ rfl ?_
      refine keeps_keys rfl ?_
      exact Keeps.refl _ _
  · refine Keeps.step (State.abort_keeps ..) rfl ?_
    exact Keeps.refl _ _

theorem execSignaturePolicyWrite_keeps (policy : Nat) (s : State) (t : State) (h : execSignaturePolicyWrite policy s =
    .next t) : Keeps [.nv, .dict, .stat] s t := by
  unfold execSignaturePolicyWrite at h
  refine keeps_done h ?_
  refine State.attempt_keeps _ _ _ _ rfl ?_
  refine Keeps.step (State.putNv_keeps ..) rfl ?_
  exact Keeps.refl _ _

theorem execMinimumSvnWrite_keeps (svn : Nat) (s : State) (t : State) (h : execMinimumSvnWrite svn s = .next t) : Keeps
    [.nv, .dict, .stat] s t := by
  unfold execMinimumSvnWrite at h
  refine keeps_done h ?_
  refine State.attempt_keeps _ _ _ _ rfl ?_
  refine Keeps.step (State.putNv_keeps ..) rfl ?_
  exact Keeps.refl _ _

theorem execShowDataLoad_keeps (key : Option Nat) (nonce data tag : List Byte) (addr : Nat) (s : State) (t : State) (h :
    execShowDataLoad key nonce data tag addr s = .next t) : Keeps [.nv, .stat, .pipe, .twin, .dram, .mem, .events,
    .draws] s t := by
  unfold execShowDataLoad at h
  refine keeps_done h ?_
  refine Keeps.step (showLoad_keeps ..) rfl ?_
  exact Keeps.refl _ _

end Sys2Proof.Machine
end

