-- ==== Sys2Proof/Laws/KeepsUpdate.lean ====
section
/-! SUPPORT. The parts of the state that each function of Machine/Update.lean may change. -/
set_option linter.unreachableTactic false
set_option linter.unusedTactic false

namespace Sys2Proof.Machine

theorem setStage_keeps (s : State) (v : Nat) : Keeps [.upd, .stat] s (setStage s v) := by
  unfold setStage
  refine Keeps.step (State.stset_keeps ..) rfl ?_
  refine keeps_upd rfl ?_
  exact Keeps.refl _ _

theorem setUpdated_keeps (s : State) (fs : List Nat) : Keeps [.upd, .stat] s (setUpdated s fs) := by
  unfold setUpdated
  refine Keeps.step (State.stset_keeps ..) rfl ?_
  refine keeps_upd rfl ?_
  exact Keeps.refl _ _

theorem stagedApply_keeps (s : State) (i : ImageInfo) : Keeps [.upd, .stat, .events] s (stagedApply s i) := by
  unfold stagedApply
  refine keeps_ite (fun _ => ?_) (fun _ => ?_)
  · refine Keeps.step (State.raise_keeps ..) rfl ?_
    refine Keeps.step (setStage_keeps ..) rfl ?_
    refine Keeps.step (State.stset_keeps ..) rfl ?_
    refine Keeps.step (State.stset_keeps ..) rfl ?_
    refine Keeps.step (State.stset_keeps ..) rfl ?_
    refine keeps_upd rfl ?_
    exact Keeps.refl _ _
  · refine Keeps.step (State.raise_keeps ..) rfl ?_
    refine Keeps.step (State.abort_keeps ..) rfl ?_
    refine Keeps.step (State.raise_keeps ..) rfl ?_
    refine Keeps.step (setStage_keeps ..) rfl ?_
    refine Keeps.step (State.stset_keeps ..) rfl ?_
    refine Keeps.step (State.stset_keeps ..) rfl ?_
    refine Keeps.step (State.stset_keeps ..) rfl ?_
    refine keeps_upd rfl ?_
    exact Keeps.refl _ _

theorem setImage_keeps (s : State) (b : Bool) (i : Option ImageInfo) : Keeps [.nv] s (setImage s b i) := by
  unfold setImage
  refine keeps_ite (fun _ => ?_) (fun _ => ?_)
  · refine keeps_nv rfl ?_
    exact Keeps.refl _ _
  · refine keeps_nv rfl ?_
    exact Keeps.refl _ _

theorem installApply_keeps (s : State) (v : Nat) : Keeps [.nv, .upd, .stat] s (installApply s v) := by
  unfold installApply
  split
  · refine Keeps.step (setStage_keeps ..) rfl ?_
    refine keeps_nv_upd rfl rfl ?_
    refine Keeps.step (setImage_keeps ..) rfl ?_
    exact Keeps.refl _ _
  · exact Keeps.refl _ _

theorem liveApply_keeps (s : State) (v a : Nat) : Keeps [.upd, .dict, .stat] s (liveApply s v a) := by
  unfold liveApply
  refine keeps_ite (fun _ => ?_) (fun _ => ?_)
  · exact Keeps.refl _ _
  · refine Keeps.step (State.put_keeps ..) rfl ?_
    refine Keeps.step (State.stset_keeps ..) rfl ?_
    refine keeps_upd rfl ?_
    exact Keeps.refl _ _

theorem imageStatus_keeps (s : State) (i : ImageInfo) (b : Bool) : Keeps [.sup, .stat] s (imageStatus s i b) := by
  unfold imageStatus
  refine Keeps.step (State.stset_keeps ..) rfl ?_
  refine Keeps.step (State.stset_keeps ..) rfl ?_
  refine Keeps.step (State.stset_keeps ..) rfl ?_
  refine Keeps.step (State.stset_keeps ..) rfl ?_
  refine keeps_sup rfl ?_
  exact Keeps.refl _ _

theorem liveSwitchTick_keeps (s : State) : Keeps [.sup, .upd, .dict, .stat, .events] s (liveSwitchTick s) := by
  unfold liveSwitchTick
  split
  · refine keeps_ite (fun _ => ?_) (fun _ => ?_)
    · exact Keeps.refl _ _
    · refine keeps_ite (fun _ => ?_) (fun _ => ?_)
      · refine keeps_upd rfl ?_
        refine Keeps.step (setUpdated_keeps ..) rfl ?_
        refine Keeps.step (State.raise_keeps ..) rfl ?_
        refine Keeps.step (setStage_keeps ..) rfl ?_
        refine Keeps.step (imageStatus_keeps ..) rfl ?_
        refine Keeps.step (State.put_keeps ..) rfl ?_
        refine keeps_sup_upd rfl rfl ?_
        exact Keeps.refl _ _
      · refine Keeps.step (State.raise_keeps ..) rfl ?_
        refine Keeps.step (setStage_keeps ..) rfl ?_
        refine Keeps.step (imageStatus_keeps ..) rfl ?_
        refine Keeps.step (State.put_keeps ..) rfl ?_
        refine keeps_sup_upd rfl rfl ?_
        exact Keeps.refl _ _
  · exact Keeps.refl _ _

theorem loadSpare_keeps (s : State) : Keeps [.upd, .stat] s (loadSpare s) := by
  unfold loadSpare
  split
  · refine Keeps.step (setUpdated_keeps ..) rfl ?_
    exact Keeps.refl _ _
  · exact Keeps.refl _ _

theorem updateRotation_keeps (s : State) : Keeps [.upd, .stat, .twin, .frames, .rods, .slots, .rot, .moves, .tally,
    .events] s (updateRotation s) := by
  unfold updateRotation
  refine keeps_ite (fun _ => ?_) (fun _ => ?_)
  · exact Keeps.refl _ _
  · refine keeps_ite (fun _ => ?_) (fun _ => ?_)
    · exact Keeps.refl _ _
    · dsimp only
      split
      · refine keeps_ite (fun _ => ?_) (fun _ => ?_)
        · refine Keeps.step (rotationSwitch_keeps ..) rfl ?_
          refine keeps_rot rfl ?_
          refine Keeps.step (loadSpare_keeps ..) rfl ?_
          exact Keeps.refl _ _
        · refine Keeps.step (loadSpare_keeps ..) rfl ?_
          exact Keeps.refl _ _
      · refine Keeps.step (loadSpare_keeps ..) rfl ?_
        exact Keeps.refl _ _
      · refine keeps_ite (fun _ => ?_) (fun _ => ?_)
        · refine keeps_upd rfl ?_
          refine Keeps.step (loadSpare_keeps ..) rfl ?_
          exact Keeps.refl _ _
        · refine keeps_upd rfl ?_
          refine Keeps.step (loadSpare_keeps ..) rfl ?_
          exact Keeps.refl _ _

theorem loadIdleFrames_keeps (s : State) : Keeps [.upd, .stat] s (loadIdleFrames s) := by
  unfold loadIdleFrames
  refine keeps_ite (fun _ => ?_) (fun _ => ?_)
  · refine keeps_upd rfl ?_
    refine Keeps.step (setUpdated_keeps ..) rfl ?_
    exact Keeps.refl _ _
  · exact Keeps.refl _ _

theorem commitNow_keeps (s : State) : Keeps [.nv, .upd, .dict, .stat, .events] s (commitNow s) := by
  unfold commitNow
  refine Keeps.step (State.raise_keeps ..) rfl ?_
  refine Keeps.step (setStage_keeps ..) rfl ?_
  refine keeps_ite (fun _ => ?_) (fun _ => ?_)
  · refine Keeps.step (State.putNv_keeps ..) rfl ?_
    refine Keeps.step (setImage_keeps ..) rfl ?_
    exact Keeps.refl _ _
  · refine Keeps.step (setImage_keeps ..) rfl ?_
    exact Keeps.refl _ _

theorem revertNow_keeps (s : State) : Keeps [.sup, .nv, .upd, .stat, .events] s (revertNow s) := by
  unfold revertNow
  refine Keeps.step (State.raise_keeps ..) rfl ?_
  refine Keeps.step (setStage_keeps ..) rfl ?_
  split
  · refine Keeps.step (imageStatus_keeps ..) rfl ?_
    refine keeps_sup_upd rfl rfl ?_
    refine Keeps.step (setImage_keeps ..) rfl ?_
    exact Keeps.refl _ _
  · refine keeps_sup_upd rfl rfl ?_
    refine Keeps.step (setImage_keeps ..) rfl ?_
    exact Keeps.refl _ _

theorem execStagedImageWrite_keeps (image : ImageInfo) (length : Nat) (s : State) (t : State) (h : execStagedImageWrite
    image length s = .next t) : Keeps [.upd, .stat, .events] s t := by
  unfold execStagedImageWrite at h
  refine keeps_done h ?_
  refine keeps_ite (fun _ => ?_) (fun _ => ?_)
  · exact Keeps.refl _ _
  · refine State.attempt_keeps _ _ _ _ rfl ?_
    refine Keeps.step (stagedApply_keeps ..) rfl ?_
    exact Keeps.refl _ _

theorem execInstall_keeps (value : Nat) (s : State) (t : State) (h : execInstall value s = .next t) : Keeps [.nv, .upd,
    .stat] s t := by
  unfold execInstall at h
  refine keeps_done h ?_
  refine State.attempt_keeps _ _ _ _ rfl ?_
  refine Keeps.step (installApply_keeps ..) rfl ?_
  exact Keeps.refl _ _

theorem execLiveSwitch_keeps (value : Nat) (s : State) (t : State) (h : execLiveSwitch value s = .next t) : Keeps [.upd,
    .dict, .stat] s t := by
  unfold execLiveSwitch at h
  refine keeps_done h ?_
  refine State.attempt_keeps _ _ _ _ rfl ?_
  refine Keeps.step (liveApply_keeps ..) rfl ?_
  exact Keeps.refl _ _

theorem execReckonerLoadComplete_keeps (s : State) (t : State) (h : execReckonerLoadComplete s = .next t) : Keeps [.upd]
    s t := by
  unfold execReckonerLoadComplete at h
  refine keeps_done h ?_
  refine keeps_ite (fun _ => ?_) (fun _ => ?_)
  · refine keeps_upd rfl ?_
    exact Keeps.refl _ _
  · exact Keeps.refl _ _

theorem execUpdateRotation_keeps (s : State) (t : State) (h : execUpdateRotation s = .next t) : Keeps [.upd, .stat,
    .twin, .frames, .rods, .slots, .rot, .moves, .tally, .events] s t := by
  unfold execUpdateRotation at h
  refine keeps_done h ?_
  refine Keeps.step (updateRotation_keeps ..) rfl ?_
  exact Keeps.refl _ _

theorem execUpdateCommit_keeps (value : Nat) (s : State) (t : State) (h : execUpdateCommit value s = .next t) : Keeps
    [.nv, .upd, .dict, .stat, .events] s t := by
  unfold execUpdateCommit at h
  refine keeps_done h ?_
  refine State.attempt_keeps _ _ _ _ rfl ?_
  refine keeps_ite (fun _ => ?_) (fun _ => ?_)
  · refine Keeps.step (commitNow_keeps ..) rfl ?_
    exact Keeps.refl _ _
  · exact Keeps.refl _ _

theorem execAutomaticCommit_keeps (s : State) (t : State) (h : execAutomaticCommit s = .next t) : Keeps [.nv, .upd,
    .dict, .stat, .events] s t := by
  unfold execAutomaticCommit at h
  refine keeps_done h ?_
  dsimp only
  split
  · refine keeps_ite (fun _ => ?_) (fun _ => ?_)
    · refine Keeps.step (commitNow_keeps ..) rfl ?_
      exact Keeps.refl _ _
    · exact Keeps.refl _ _
  · exact Keeps.refl _ _

theorem execUpdateRevert_keeps (value : Nat) (s : State) (t : State) (h : execUpdateRevert value s = .next t) : Keeps
    [.sup, .nv, .upd, .stat, .events] s t := by
  unfold execUpdateRevert at h
  refine keeps_done h ?_
  refine State.attempt_keeps _ _ _ _ rfl ?_
  refine keeps_ite (fun _ => ?_) (fun _ => ?_)
  · refine Keeps.step (revertNow_keeps ..) rfl ?_
    exact Keeps.refl _ _
  · exact Keeps.refl _ _

end Sys2Proof.Machine
end

