-- ==== Sys2Proof/Laws/KeepsStatus.lean ====
section
/-! SUPPORT. The parts of the state that each function of Machine/Status.lean may change. -/
set_option linter.unreachableTactic false
set_option linter.unusedTactic false

namespace Sys2Proof.Machine

theorem stAll_keeps (s : State) (l : List (Nat × Nat × Nat × Nat)) : Keeps [.stat] s (stAll s l) := by
  unfold stAll
  refine keeps_foldl (fun _ _ _ => ?_) ?_
  · refine Keeps.step (State.stset_keeps ..) rfl ?_
    assumption
  · exact Keeps.refl _ _

theorem rateStatus_keeps (s : State) : Keeps [.stat, .pipe] s (rateStatus s) := by
  unfold rateStatus
  refine Keeps.step (stAll_keeps ..) rfl ?_
  refine keeps_pipe rfl ?_
  exact Keeps.refl _ _

theorem identStatus_keeps (s : State) : Keeps [.stat] s (identStatus s) := by
  unfold identStatus
  refine Keeps.step (stAll_keeps ..) rfl ?_
  exact Keeps.refl _ _

theorem sessionStatus_keeps (s : State) : Keeps [.stat] s (sessionStatus s) := by
  unfold sessionStatus
  refine keeps_foldl (fun _ _ _ => ?_) ?_
  · split
    · refine Keeps.step (stAll_keeps ..) rfl ?_
      assumption
    · refine Keeps.step (stAll_keeps ..) rfl ?_
      assumption
  · exact Keeps.refl _ _

theorem timeStatus_keeps (s : State) : Keeps [.stat] s (timeStatus s) := by
  unfold timeStatus
  refine keeps_ite (fun _ => ?_) (fun _ => ?_)
  · refine Keeps.step (State.stset_keeps ..) rfl ?_
    refine Keeps.step (stAll_keeps ..) rfl ?_
    exact Keeps.refl _ _
  · refine Keeps.step (stAll_keeps ..) rfl ?_
    exact Keeps.refl _ _

theorem objectStatus_keeps (s : State) : Keeps [.stat] s (objectStatus s) := by
  unfold objectStatus
  refine keeps_foldl (fun _ _ _ => ?_) ?_
  · refine Keeps.step (stAll_keeps ..) rfl ?_
    assumption
  · refine keeps_stat rfl ?_
    exact Keeps.refl _ _

theorem computeStatus_keeps (s : State) : Keeps [.stat] s (computeStatus s) := by
  unfold computeStatus
  refine Keeps.step (stAll_keeps ..) rfl ?_
  exact Keeps.refl _ _

theorem frameStatus_keeps (s : State) : Keeps [.stat] s (frameStatus s) := by
  unfold frameStatus
  refine keeps_foldl (fun _ _ _ => ?_) ?_
  · refine Keeps.step (stAll_keeps ..) rfl ?_
    assumption
  · exact Keeps.refl _ _

theorem rodStatus_keeps (s : State) : Keeps [.stat] s (rodStatus s) := by
  unfold rodStatus
  refine keeps_foldl (fun _ _ _ => ?_) ?_
  · refine Keeps.step (stAll_keeps ..) rfl ?_
    assumption
  · exact Keeps.refl _ _

theorem slotStatus_keeps (s : State) : Keeps [.stat] s (slotStatus s) := by
  unfold slotStatus
  refine keeps_foldl (fun _ _ _ => ?_) ?_
  · refine Keeps.step (stAll_keeps ..) rfl ?_
    assumption
  · exact Keeps.refl _ _

theorem tallyStatus_keeps (s : State) : Keeps [.stat] s (tallyStatus s) := by
  unfold tallyStatus
  refine keeps_foldl (fun _ _ _ => ?_) ?_
  · refine Keeps.step (stAll_keeps ..) rfl ?_
    assumption
  · refine Keeps.step (State.stset_keeps ..) rfl ?_
    exact Keeps.refl _ _

theorem slideStatus_keeps (s : State) : Keeps [.stat] s (slideStatus s) := by
  unfold slideStatus
  refine keeps_foldl (fun _ _ _ => ?_) ?_
  · refine Keeps.step (State.stset_keeps ..) rfl ?_
    assumption
  · exact Keeps.refl _ _

theorem dramStatus_keeps (s : State) : Keeps [.stat] s (dramStatus s) := by
  unfold dramStatus
  refine keeps_foldl (fun _ _ _ => ?_) ?_
  · refine Keeps.step (stAll_keeps ..) rfl ?_
    assumption
  · refine Keeps.step (State.stset_keeps ..) rfl ?_
    exact Keeps.refl _ _

theorem healthStatus_keeps (s : State) : Keeps [.stat] s (healthStatus s) := by
  unfold healthStatus
  refine Keeps.step (stAll_keeps ..) rfl ?_
  exact Keeps.refl _ _

theorem lifeStatus_keeps (s : State) : Keeps [.stat] s (lifeStatus s) := by
  unfold lifeStatus
  refine Keeps.step (stAll_keeps ..) rfl ?_
  exact Keeps.refl _ _

theorem takeStatus_keeps (s : State) : Keeps [.statB] s (takeStatus s) := by
  unfold takeStatus
  refine keeps_statB rfl ?_
  exact Keeps.refl _ _

theorem takeNeighbours_keeps (s : State) : Keeps [.dram] s (takeNeighbours s) := by
  unfold takeNeighbours
  refine keeps_dram rfl ?_
  exact Keeps.refl _ _

theorem statusOf_keeps (s : State) : Keeps [.sup, .stat, .statB, .pipe, .dram, .events] s (statusOf s) := by
  unfold statusOf
  dsimp only
  refine Keeps.step (takeNeighbours_keeps ..) rfl ?_
  refine Keeps.step (takeStatus_keeps ..) rfl ?_
  refine Keeps.step (lifeStatus_keeps ..) rfl ?_
  refine Keeps.step (healthStatus_keeps ..) rfl ?_
  refine Keeps.step (dramStatus_keeps ..) rfl ?_
  refine Keeps.step (twinStatus_keeps ..) rfl ?_
  refine Keeps.step (slideStatus_keeps ..) rfl ?_
  refine Keeps.step (tallyStatus_keeps ..) rfl ?_
  refine Keeps.step (slotStatus_keeps ..) rfl ?_
  refine Keeps.step (rodStatus_keeps ..) rfl ?_
  refine Keeps.step (frameStatus_keeps ..) rfl ?_
  refine Keeps.step (computeStatus_keeps ..) rfl ?_
  refine Keeps.step (objectStatus_keeps ..) rfl ?_
  refine Keeps.step (timeStatus_keeps ..) rfl ?_
  refine Keeps.step (sessionStatus_keeps ..) rfl ?_
  refine Keeps.step (identStatus_keeps ..) rfl ?_
  refine Keeps.step (rateStatus_keeps ..) rfl ?_
  refine Keeps.step (judgeHealth_keeps ..) rfl ?_
  exact Keeps.refl _ _

end Sys2Proof.Machine
end

