-- ==== Sys2Proof/Laws/KeepsSelfTest.lean ====
section
/-! SUPPORT. The parts of the state that each function of Machine/SelfTest.lean may change. -/
set_option linter.unreachableTactic false
set_option linter.unusedTactic false

namespace Sys2Proof.Machine

theorem setMod_keeps (s : State) (m : ModState) : Keeps [.sup, .stat] s (setMod s m) := by
  unfold setMod
  refine Keeps.step (State.stset_keeps ..) rfl ?_
  refine keeps_sup rfl ?_
  exact Keeps.refl _ _

theorem storeRecord_keeps (s : State) (r : Record) : Keeps [.nv] s (storeRecord s r) := by
  unfold storeRecord
  refine keeps_nv rfl ?_
  exact Keeps.refl _ _

theorem reportFenced_keeps (s : State) (units : List UnitResult) : Keeps [.events] s (reportFenced s units) := by
  unfold reportFenced
  refine keeps_foldl (fun _ _ _ => ?_) ?_
  · refine Keeps.step (State.raise_keeps ..) rfl ?_
    assumption
  · exact Keeps.refl _ _

theorem setFences_keeps (s : State) (l : List Nat) : Keeps [.sup, .nv] s (setFences s l) := by
  unfold setFences
  refine keeps_sup_nv rfl rfl ?_
  exact Keeps.refl _ _

theorem pairsOf_keeps (s : State) : Keeps [.sup] s (pairsOf s) := by
  unfold pairsOf
  refine keeps_sup rfl ?_
  exact Keeps.refl _ _

theorem setDram_keeps (s : State) (v : Nat) : Keeps [.nv, .stat, .dram, .mem, .events] s (setDram s v) := by
  unfold setDram
  refine keeps_ite (fun _ => ?_) (fun _ => ?_)
  · refine Keeps.step (backInService_keeps ..) rfl ?_
    exact Keeps.refl _ _
  · refine Keeps.step (State.stset_keeps ..) rfl ?_
    refine keeps_dram rfl ?_
    exact Keeps.refl _ _

theorem trainingStatus_keeps (s : State) (kind ms : Nat) (t : Training) : Keeps [.stat, .dram] s (trainingStatus s kind
    ms t) := by
  unfold trainingStatus
  refine Keeps.step (stAll_keeps ..) rfl ?_
  refine keeps_dram rfl ?_
  exact Keeps.refl _ _

theorem retireRank_keeps (s : State) (p : Nat) : ∀ t, retireRank s p = some t → Keeps [.dram, .events] s t := by
  intro t h
  unfold retireRank at h
  dsimp only at h
  split at h
  · cases h
    exact Keeps.step (State.raise_keeps ..) rfl (Keeps.step (setRank_keeps ..) rfl (Keeps.refl _ _))
  · split at h
    · cases h
      exact Keeps.step (State.raise_keeps ..) rfl
        (Keeps.step (setRank_keeps ..) rfl (Keeps.step (setRank_keeps ..) rfl (Keeps.refl _ _)))
    · cases h

theorem dramFails_keeps (s : State) (bad : List Nat) (ms : Nat) : Keeps [.nv, .stat, .dram, .mem, .events] s (dramFails
    s bad ms) := by
  unfold dramFails
  refine Keeps.step (State.raise_keeps ..) rfl ?_
  refine Keeps.step (stAll_keeps ..) rfl ?_
  refine Keeps.step (setDram_keeps ..) rfl ?_
  exact Keeps.refl _ _

theorem driftsZero_keeps (s : State) : Keeps [.dram] s (driftsZero s) := by
  unfold driftsZero
  refine keeps_foldl (fun _ _ _ => ?_) ?_
  · refine Keeps.step (setRank_keeps ..) rfl ?_
    assumption
  · exact Keeps.refl _ _

theorem trained_keeps (s : State) (o : DramObs) (t : Training) : Keeps [.nv, .stat, .dram, .mem, .events] s (trained s o
    t) := by
  unfold trained
  refine Keeps.step (driftsZero_keeps ..) rfl ?_
  refine Keeps.step (setDram_keeps ..) rfl ?_
  refine Keeps.step (trainingStatus_keeps ..) rfl ?_
  refine keeps_nv rfl ?_
  exact Keeps.refl _ _

theorem fullTraining_keeps (s : State) (o : DramObs) : Keeps [.nv, .stat, .dram, .mem, .events] s (fullTraining s o) := by
  unfold fullTraining
  dsimp only
  split
  · exact Keeps.step (dramFails_keeps ..) rfl (Keeps.refl _ _)
  · split
    · exact Keeps.step (trained_keeps ..) rfl (Keeps.refl _ _)
    · split
      · exact Keeps.step (trained_keeps ..) rfl (Keeps.step (retireRank_keeps _ _ _ (by assumption)) rfl (Keeps.refl _ _))
      · exact Keeps.step (dramFails_keeps ..) rfl (Keeps.refl _ _)
    · exact Keeps.step (dramFails_keeps ..) rfl (Keeps.refl _ _)

theorem trainDram_keeps (s : State) (o : DramObs) : Keeps [.nv, .stat, .dram, .mem, .events] s (trainDram s o) := by
  unfold trainDram
  split
  · refine keeps_ite (fun _ => ?_) (fun _ => ?_)
    · refine Keeps.step (setDram_keeps ..) rfl ?_
      refine Keeps.step (trainingStatus_keeps ..) rfl ?_
      exact Keeps.refl _ _
    · refine Keeps.step (fullTraining_keeps ..) rfl ?_
      exact Keeps.refl _ _
  · refine Keeps.step (fullTraining_keeps ..) rfl ?_
    exact Keeps.refl _ _

theorem zeroDram_keeps (s : State) : Keeps [.dram, .mem] s (zeroDram s) := by
  unfold zeroDram
  refine keeps_dram_mem rfl rfl ?_
  exact Keeps.refl _ _

theorem bringUpDram_keeps (s : State) (o : DramObs) : Keeps [.nv, .stat, .dram, .mem, .events] s (bringUpDram s o) := by
  unfold bringUpDram
  refine Keeps.step (trainDram_keeps ..) rfl ?_
  refine Keeps.step (zeroDram_keeps ..) rfl ?_
  refine keeps_dram rfl ?_
  exact Keeps.refl _ _

theorem replaceFrame_keeps (s : State) (f : Nat) (st : FrameState) : Keeps [.frames] s (replaceFrame s f st) := by
  unfold replaceFrame
  dsimp only
  split
  · refine Keeps.step (setFrame_keeps ..) rfl ?_
    refine Keeps.step (setFrame_keeps ..) rfl ?_
    exact Keeps.refl _ _
  · refine Keeps.step (setFrame_keeps ..) rfl ?_
    exact Keeps.refl _ _

theorem fenceRodAtStart_keeps (s : State) (r : Nat) : Keeps [.frames, .rods] s (fenceRodAtStart s r) := by
  unfold fenceRodAtStart
  dsimp only
  split
  · refine keeps_ite (fun _ => ?_) (fun _ => ?_)
    · refine Keeps.step (replaceFrame_keeps ..) rfl ?_
      refine Keeps.step (State.setRod_keeps ..) rfl ?_
      exact Keeps.refl _ _
    · refine Keeps.step (State.setRod_keeps ..) rfl ?_
      exact Keeps.refl _ _
  · refine Keeps.step (setFrame_keeps ..) rfl ?_
    refine Keeps.step (State.setRod_keeps ..) rfl ?_
    exact Keeps.refl _ _
  · refine Keeps.step (State.setRod_keeps ..) rfl ?_
    exact Keeps.refl _ _

theorem fenceAtStart_keeps (s : State) (u : Nat) : Keeps [.pipe, .frames, .rods, .ledger, .events] s (fenceAtStart s u)
    := by
  unfold fenceAtStart
  refine keeps_ite (fun _ => ?_) (fun _ => ?_)
  · refine Keeps.step (fenceRodAtStart_keeps ..) rfl ?_
    exact Keeps.refl _ _
  · refine keeps_ite (fun _ => ?_) (fun _ => ?_)
    · refine keeps_foldl (fun _ _ _ => ?_) ?_
      · refine Keeps.step (State.setRod_keeps ..) rfl ?_
        assumption
      · refine Keeps.step (replaceFrame_keeps ..) rfl ?_
        exact Keeps.refl _ _
    · refine keeps_ite (fun _ => ?_) (fun _ => ?_)
      · refine Keeps.step (leaveService_keeps ..) rfl ?_
        exact Keeps.refl _ _
      · refine keeps_ite (fun _ => ?_) (fun _ => ?_)
        · refine keeps_ledger rfl ?_
          exact Keeps.refl _ _
        · exact Keeps.refl _ _

theorem applyFences_keeps (s : State) : Keeps [.sup, .pipe, .frames, .rods, .ledger, .events] s (applyFences s) := by
  unfold applyFences
  refine Keeps.step (pairsOf_keeps ..) rfl ?_
  refine Keeps.step (judgeCompute_keeps ..) rfl ?_
  refine keeps_foldl (fun _ _ _ => ?_) ?_
  · refine Keeps.step (fenceAtStart_keeps ..) rfl ?_
    assumption
  · refine keeps_foldl (fun _ _ _ => ?_) ?_
    · refine Keeps.step (leaveService_keeps ..) rfl ?_
      assumption
    · exact Keeps.refl _ _

theorem applyHealth_keeps (s : State) (units : List UnitResult) : Keeps [.stat, .twin, .frames, .rods, .slots, .rot,
    .moves, .tally, .events] s (applyHealth s units) := by
  unfold applyHealth
  refine keeps_foldl (fun _ _ _ => ?_) ?_
  · refine Keeps.step (setHealth_keeps ..) rfl ?_
    assumption
  · exact Keeps.refl _ _

theorem selfTestApply_keeps (s : State) (v : Nat) (o : TestObs) : Keeps [.sup, .nv, .dict, .stat, .byp, .events] s
    (selfTestApply s v o) := by
  unfold selfTestApply
  refine keeps_ite (fun _ => ?_) (fun _ => ?_)
  · exact Keeps.refl _ _
  · refine Keeps.step (setMod_keeps ..) rfl ?_
    refine keeps_sup rfl ?_
    refine Keeps.step (storeRecord_keeps ..) rfl ?_
    refine Keeps.step (ringApply_keeps ..) rfl ?_
    exact Keeps.refl _ _

theorem inertOutputs_keeps (s : State) : Keeps [.stat, .pipe, .tx, .aesOut, .drives, .twin] s (inertOutputs s) := by
  unfold inertOutputs
  refine keeps_pipe_tx_aesOut rfl rfl rfl ?_
  refine keeps_foldl (fun _ _ _ => ?_) ?_
  · refine Keeps.step (putDrive_keeps ..) rfl ?_
    assumption
  · refine Keeps.step (dropActOut_keeps ..) rfl ?_
    exact Keeps.refl _ _

theorem selfTestEnd_keeps (s : State) (o : TestObs) : Keeps [.sup, .nv, .stat, .pipe, .tx, .aesOut, .drives, .twin,
    .frames, .rods, .slots, .rot, .moves, .tally, .ledger, .events] s (selfTestEnd s o) := by
  unfold selfTestEnd
  dsimp only
  split
  · refine Keeps.step (setMod_keeps ..) rfl ?_
    refine Keeps.step (inertOutputs_keeps ..) rfl ?_
    refine keeps_sup rfl ?_
    exact Keeps.refl _ _
  · refine Keeps.step (setMod_keeps ..) rfl ?_
    refine Keeps.step (inertOutputs_keeps ..) rfl ?_
    refine Keeps.step (applyHealth_keeps ..) rfl ?_
    refine Keeps.step (applyFences_keeps ..) rfl ?_
    refine Keeps.step (reportFenced_keeps ..) rfl ?_
    refine Keeps.step (State.raise_keeps ..) rfl ?_
    refine Keeps.step (setFences_keeps ..) rfl ?_
    refine keeps_sup_nv rfl rfl ?_
    exact Keeps.refl _ _

theorem selfTestTick_keeps (s : State) : Keeps [.sup, .nv, .stat, .pipe, .tx, .aesOut, .drives, .twin, .frames, .rods,
    .slots, .rot, .moves, .tally, .ledger, .events] s (selfTestTick s) := by
  unfold selfTestTick
  split
  · exact Keeps.refl _ _
  · refine keeps_ite (fun _ => ?_) (fun _ => ?_)
    · refine Keeps.step (selfTestEnd_keeps ..) rfl ?_
      exact Keeps.refl _ _
    · refine keeps_sup rfl ?_
      exact Keeps.refl _ _

theorem targetedApply_keeps (s : State) (v : Nat) (result : UnitResult) (ns : Nat) : Keeps [.sup] s (targetedApply s v
    result ns) := by
  unfold targetedApply
  refine keeps_ite (fun _ => ?_) (fun _ => ?_)
  · exact Keeps.refl _ _
  · refine keeps_sup rfl ?_
    exact Keeps.refl _ _

theorem targetedBegin_keeps (s : State) (t : Targeted) : Keeps [.sup, .stat, .pipe, .tally, .events] s (targetedBegin s
    t) := by
  unfold targetedBegin
  refine keeps_ite (fun _ => ?_) (fun _ => ?_)
  · refine Keeps.step (exclWrite_keeps ..) rfl ?_
    refine keeps_sup rfl ?_
    exact Keeps.refl _ _
  · refine keeps_ite (fun _ => ?_) (fun _ => ?_)
    · refine keeps_sup rfl ?_
      exact Keeps.refl _ _
    · dsimp only
      split
      · refine Keeps.step (leaveService_keeps ..) rfl ?_
        refine keeps_sup rfl ?_
        exact Keeps.refl _ _
      · refine Keeps.step (leaveService_keeps ..) rfl ?_
        refine keeps_sup rfl ?_
        exact Keeps.refl _ _
      · refine keeps_sup rfl ?_
        exact Keeps.refl _ _
      · refine keeps_sup rfl ?_
        exact Keeps.refl _ _

theorem slideReturns_keeps (s : State) (i : Nat) : Keeps [.pipe, .events] s (slideReturns s i) := by
  unfold slideReturns
  refine keeps_ite (fun _ => ?_) (fun _ => ?_)
  · refine Keeps.step (judgeSlides_keeps ..) rfl ?_
    refine Keeps.step (setSlide_keeps ..) rfl ?_
    exact Keeps.refl _ _
  · exact Keeps.refl _ _

theorem rodReturns_keeps (s : State) (r : Nat) : Keeps [.stat, .rods, .tally] s (rodReturns s r) := by
  unfold rodReturns
  refine keeps_ite (fun _ => ?_) (fun _ => ?_)
  · refine Keeps.step (exclWrite_keeps ..) rfl ?_
    exact Keeps.refl _ _
  · refine Keeps.step (State.setRod_keeps ..) rfl ?_
    refine Keeps.step (exclWrite_keeps ..) rfl ?_
    exact Keeps.refl _ _

theorem targetedOutcome_keeps (s : State) (u : UnitResult) : Keeps [.sup, .nv, .stat, .pipe, .twin, .frames, .rods,
    .slots, .rot, .moves, .tally, .events] s (targetedOutcome s u) := by
  unfold targetedOutcome
  refine keeps_ite (fun _ => ?_) (fun _ => ?_)
  · dsimp only
    refine keeps_ite (fun _ => ?_) (fun _ => ?_)
    · refine Keeps.step (fenceRod_keeps ..) rfl ?_
      refine Keeps.step (State.raise_keeps ..) rfl ?_
      refine Keeps.step (setFences_keeps ..) rfl ?_
      exact Keeps.refl _ _
    · refine keeps_ite (fun _ => ?_) (fun _ => ?_)
      · refine Keeps.step (setFrame_keeps ..) rfl ?_
        refine keeps_foldl (fun _ _ _ => ?_) ?_
        · refine Keeps.step (fenceRod_keeps ..) rfl ?_
          assumption
        · refine Keeps.step (State.raise_keeps ..) rfl ?_
          refine Keeps.step (setFences_keeps ..) rfl ?_
          exact Keeps.refl _ _
      · refine Keeps.step (leaveService_keeps ..) rfl ?_
        refine Keeps.step (State.raise_keeps ..) rfl ?_
        refine Keeps.step (setFences_keeps ..) rfl ?_
        exact Keeps.refl _ _
  · dsimp only
    refine keeps_ite (fun _ => ?_) (fun _ => ?_)
    · refine Keeps.step (setHealth_keeps ..) rfl ?_
      refine Keeps.step (setFences_keeps ..) rfl ?_
      exact Keeps.refl _ _
    · refine Keeps.step (setFences_keeps ..) rfl ?_
      exact Keeps.refl _ _

theorem targetedEnd_keeps (s : State) (t : Targeted) : Keeps [.sup, .nv, .stat, .pipe, .twin, .frames, .rods, .slots,
    .rot, .moves, .tally, .events] s (targetedEnd s t) := by
  unfold targetedEnd
  refine Keeps.step (State.raise_keeps ..) rfl ?_
  refine Keeps.step (targetedOutcome_keeps ..) rfl ?_
  refine keeps_ite (fun _ => ?_) (fun _ => ?_)
  · refine Keeps.step (rodReturns_keeps ..) rfl ?_
    refine keeps_sup rfl ?_
    exact Keeps.refl _ _
  · refine keeps_ite (fun _ => ?_) (fun _ => ?_)
    · refine Keeps.step (slideReturns_keeps ..) rfl ?_
      refine keeps_sup rfl ?_
      exact Keeps.refl _ _
    · refine keeps_sup rfl ?_
      exact Keeps.refl _ _

theorem targetedTick_keeps (s : State) : Keeps [.sup, .nv, .stat, .pipe, .twin, .frames, .rods, .slots, .rot, .moves,
    .tally, .events] s (targetedTick s) := by
  unfold targetedTick
  split
  · exact Keeps.refl _ _
  · refine keeps_ite (fun _ => ?_) (fun _ => ?_)
    · refine keeps_ite (fun _ => ?_) (fun _ => ?_)
      · refine Keeps.step (targetedBegin_keeps ..) rfl ?_
        exact Keeps.refl _ _
      · exact Keeps.refl _ _
    · refine keeps_ite (fun _ => ?_) (fun _ => ?_)
      · refine Keeps.step (targetedEnd_keeps ..) rfl ?_
        exact Keeps.refl _ _
      · exact Keeps.refl _ _

end Sys2Proof.Machine
end

