-- ==== Sys2Proof/Laws/KeepsBoot.lean ====
section
/-! SUPPORT. The parts of the state that each function of Machine/Boot.lean may change. -/
set_option linter.unreachableTactic false
set_option linter.unusedTactic false

namespace Sys2Proof.Machine

theorem resetWith_keeps (s : State) (p : Power) : Keeps (Part.allBut [.out, .pending]) s (resetWith s p) := by
  refine ⟨fun q hq => ?_⟩
  cases q <;> first | rfl | exact absurd (Part.isIn_of rfl) hq

theorem enterRecovery_keeps (s : State) : Keeps [.sup, .stat, .statB, .pipe, .dram, .events] s (enterRecovery s) := by
  unfold enterRecovery
  refine Keeps.step (statusOf_keeps ..) rfl ?_
  refine Keeps.step (setMod_keeps ..) rfl ?_
  refine keeps_sup rfl ?_
  exact Keeps.refl _ _

theorem loadImageB_keeps (s : State) (b : Bool) (i : ImageInfo) : Keeps [.sup, .nv, .stat] s (loadImageB s b i) := by
  unfold loadImageB
  refine keeps_ite (fun _ => ?_) (fun _ => ?_)
  · refine keeps_nv rfl ?_
    refine Keeps.step (imageStatus_keeps ..) rfl ?_
    exact Keeps.refl _ _
  · refine Keeps.step (imageStatus_keeps ..) rfl ?_
    exact Keeps.refl _ _

theorem checkUnits_startTest_keeps (o : BootObs) (s : State) : Keeps [.sup, .nv, .stat, .events] s
    (checkUnits.startTest o s) := by
  have h1 : ∀ r, Keeps [.sup, .nv, .stat, .events] s
      (storeRecord (setMod { s with sup := { s.sup with startKind := 1 } } .startTest) r) := fun r =>
    Keeps.step (storeRecord_keeps ..) rfl (Keeps.step (setMod_keeps ..) rfl (keeps_sup rfl (Keeps.refl _ _)))
  unfold checkUnits.startTest
  dsimp only
  split
  · exact Keeps.step (reportFenced_keeps ..) rfl (Keeps.step (State.raise_keeps ..) rfl
      (Keeps.step (setFences_keeps ..) rfl (keeps_nv rfl (h1 _))))
  · exact h1 _

theorem checkUnits_keeps (s : State) (i : ImageInfo) (o : BootObs) : Keeps [.sup, .nv, .stat, .events] s
    (checkUnits s i o) := by
  have h1 : ∀ x, Keeps [.sup, .nv, .stat, .events] s { s with sup := x } := fun x => keeps_sup rfl (Keeps.refl _ _)
  have h2 : ∀ (u : State) (c : Prop) [Decidable c] (k : Nat), Keeps [.sup, .nv, .stat, .events] s u →
      Keeps [.sup, .nv, .stat, .events] s (if c then u.raise 164 k 0 else u) := by
    intro u c _ k h
    exact keeps_ite (fun _ => Keeps.step (State.raise_keeps ..) rfl h) (fun _ => h)
  have h3 : ∀ s2 : State, Keeps [.sup, .nv, .stat, .events] s s2 → Keeps [.sup, .nv, .stat, .events] s (match s2.nv.recs with
      | r :: older =>
        if recordValid s2 r i then
          reportFenced (setFences { s2 with
            nv := { s2.nv with recs := { r with state := 0x1F } :: older }, sup := { s2.sup with startKind := 0 } }
            ((o.check.filter unitFenced).foldl (fun l u => setAdd u.unit l) s2.sup.fences)) (o.check.filter unitFenced)
        else checkUnits.startTest o s2
      | [] => checkUnits.startTest o s2) := by
    intro s2 h
    split
    · split
      · exact Keeps.step (reportFenced_keeps ..) rfl (Keeps.step (setFences_keeps ..) rfl (keeps_sup_nv rfl rfl h))
      · exact Keeps.step (checkUnits_startTest_keeps ..) rfl h
    · exact Keeps.step (checkUnits_startTest_keeps ..) rfl h
  exact h3 _ (h2 _ _ _ (h1 _))

theorem leaveParkedLife_keeps (s : State) : Keeps [.keys, .stat, .events] s (leaveParkedLife s) := by
  unfold leaveParkedLife
  refine keeps_ite (fun _ => ?_) (fun _ => ?_)
  · refine Keeps.step (setLife_keeps ..) rfl ?_
    exact Keeps.refl _ _
  · exact Keeps.refl _ _

theorem enterReady_keeps (s : State) (b : Bool) (ms : Nat) : Keeps [.sup, .nv, .keys, .stat, .statB, .pipe, .dram,
    .events] s (enterReady s b ms) := by
  unfold enterReady
  refine keeps_ite (fun _ => ?_) (fun _ => ?_)
  · refine Keeps.step (statusOf_keeps ..) rfl ?_
    refine Keeps.step (setMod_keeps ..) rfl ?_
    refine Keeps.step (State.raise_keeps ..) rfl ?_
    refine Keeps.step (leaveParkedLife_keeps ..) rfl ?_
    refine keeps_sup rfl ?_
    exact Keeps.refl _ _
  · refine Keeps.step (statusOf_keeps ..) rfl ?_
    refine Keeps.step (setMod_keeps ..) rfl ?_
    refine keeps_ite (fun _ => ?_) (fun _ => ?_)
    · refine Keeps.step (State.raise_keeps ..) rfl ?_
      refine keeps_nv rfl ?_
      split
      · refine keeps_ite (fun _ => ?_) (fun _ => ?_)
        · refine keeps_nv rfl ?_
          refine Keeps.step (setImage_keeps ..) rfl ?_
          refine Keeps.step (leaveParkedLife_keeps ..) rfl ?_
          refine keeps_sup rfl ?_
          exact Keeps.refl _ _
        · refine Keeps.step (leaveParkedLife_keeps ..) rfl ?_
          refine keeps_sup rfl ?_
          exact Keeps.refl _ _
      · refine Keeps.step (leaveParkedLife_keeps ..) rfl ?_
        refine keeps_sup rfl ?_
        exact Keeps.refl _ _
    · split
      · refine keeps_ite (fun _ => ?_) (fun _ => ?_)
        · refine keeps_nv rfl ?_
          refine Keeps.step (setImage_keeps ..) rfl ?_
          refine Keeps.step (leaveParkedLife_keeps ..) rfl ?_
          refine keeps_sup rfl ?_
          exact Keeps.refl _ _
        · refine Keeps.step (leaveParkedLife_keeps ..) rfl ?_
          refine keeps_sup rfl ?_
          exact Keeps.refl _ _
      · refine Keeps.step (leaveParkedLife_keeps ..) rfl ?_
        refine keeps_sup rfl ?_
        exact Keeps.refl _ _

theorem startSequence_keeps (s : State) (o : BootObs) : Keeps [.power, .clk, .sup, .nv, .keys, .stat, .statB, .pipe,
    .twin, .frames, .rods, .slots, .rot, .moves, .tally, .ledger, .dram, .mem, .events] s (startSequence s o) := by
  unfold startSequence
  dsimp only
  split
  · refine Keeps.step (enterRecovery_keeps ..) rfl ?_
    split
    · refine Keeps.step (finishErasure_keeps ..) rfl ?_
      refine Keeps.step (setCounter_keeps ..) rfl ?_
      refine keeps_power_sup rfl rfl ?_
      exact Keeps.refl _ _
    · refine Keeps.step (setCounter_keeps ..) rfl ?_
      refine keeps_power_sup rfl rfl ?_
      exact Keeps.refl _ _
  · refine keeps_ite (fun _ => ?_) (fun _ => ?_)
    · refine Keeps.step (statusOf_keeps ..) rfl ?_
      refine Keeps.step (checkUnits_keeps ..) rfl ?_
      refine Keeps.step (loadImageB_keeps ..) rfl ?_
      split
      · refine Keeps.step (finishErasure_keeps ..) rfl ?_
        refine Keeps.step (setCounter_keeps ..) rfl ?_
        refine keeps_power_sup rfl rfl ?_
        exact Keeps.refl _ _
      · refine Keeps.step (setCounter_keeps ..) rfl ?_
        refine keeps_power_sup rfl rfl ?_
        exact Keeps.refl _ _
    · refine Keeps.step (enterReady_keeps ..) rfl ?_
      refine Keeps.step (applyHealth_keeps ..) rfl ?_
      refine Keeps.step (applyFences_keeps ..) rfl ?_
      refine Keeps.step (ledgerInit_keeps ..) rfl ?_
      refine Keeps.step (bringUpDram_keeps ..) rfl ?_
      refine Keeps.step (checkUnits_keeps ..) rfl ?_
      refine Keeps.step (loadImageB_keeps ..) rfl ?_
      split
      · refine Keeps.step (finishErasure_keeps ..) rfl ?_
        refine Keeps.step (setCounter_keeps ..) rfl ?_
        refine keeps_power_sup rfl rfl ?_
        exact Keeps.refl _ _
      · refine Keeps.step (setCounter_keeps ..) rfl ?_
        refine keeps_power_sup rfl rfl ?_
        exact Keeps.refl _ _

theorem startInstant_keeps (s : State) (o : BootObs) : Keeps [.power, .clk, .sup, .nv, .keys, .stat, .statB, .pipe,
    .twin, .frames, .rods, .slots, .rot, .moves, .tally, .ledger, .dram, .mem, .events] s (startInstant s o) := by
  unfold startInstant
  refine keeps_ite (fun _ => ?_) (fun _ => ?_)
  · refine Keeps.step (startSequence_keeps ..) rfl ?_
    exact Keeps.refl _ _
  · exact Keeps.refl _ _

theorem trialTimeout_keeps (s : State) : Keeps [.nv] s (trialTimeout s) := by
  unfold trialTimeout
  dsimp only
  split
  · refine keeps_ite (fun _ => ?_) (fun _ => ?_)
    · refine keeps_nv rfl ?_
      refine Keeps.step (setImage_keeps ..) rfl ?_
      exact Keeps.refl _ _
    · exact Keeps.refl _ _
  · exact Keeps.refl _ _

theorem thermalLevels_keeps (s : State) (temp : Int) : Keeps [.power, .sup, .events] s (thermalLevels s temp) := by
  unfold thermalLevels
  refine Keeps.step (judgeHealth_keeps ..) rfl ?_
  refine keeps_power rfl ?_
  exact Keeps.refl _ _

theorem lockstepError_keeps (s : State) : Keeps [.sup, .events] s (lockstepError s) := by
  unfold lockstepError
  refine Keeps.step (judgeHealth_keeps ..) rfl ?_
  refine keeps_sup rfl ?_
  exact Keeps.refl _ _

theorem drainDram_keeps (s : State) : Keeps [.clk, .nv, .stat, .pipe, .byp, .drives, .twin, .frames, .rods, .slots,
    .rot, .moves, .tally, .beam, .ledger, .dram, .mem, .events, .draws, .out] s (drainDram s) := by
  unfold drainDram
  refine keeps_foldl (fun _ _ _ => ?_) ?_
  · refine keeps_foldl (fun _ _ _ => ?_) ?_
    · refine Keeps.step (grantAt_keeps ..) rfl ?_
      assumption
    · refine Keeps.step (letIn_keeps ..) rfl ?_
      assumption
  · exact Keeps.refl _ _

theorem parkModule_keeps (s : State) : Keeps [.clk, .sup, .nv, .keys, .dict, .stat, .pipe, .byp, .drives, .twin,
    .frames, .rods, .slots, .rot, .moves, .tally, .beam, .ledger, .dram, .mem, .events, .draws, .out] s (parkModule s)
    := by
  unfold parkModule
  dsimp only
  refine Keeps.step (setLife_keeps ..) rfl ?_
  refine Keeps.step (setMod_keeps ..) rfl ?_
  refine Keeps.step (State.put_keeps ..) rfl ?_
  refine Keeps.step (setDram_keeps ..) rfl ?_
  refine keeps_rods_ledger_dram rfl rfl rfl ?_
  refine keeps_foldl (fun _ _ _ => ?_) ?_
  · refine Keeps.step (clearRod_keeps ..) rfl ?_
    assumption
  · refine Keeps.step (ringApply_keeps ..) rfl ?_
    refine Keeps.step (drainDram_keeps ..) rfl ?_
    exact Keeps.refl _ _

theorem zeroLost_keeps (s old : State) : Keeps [.dram, .mem] s (zeroLost s old) := by
  unfold zeroLost
  dsimp only
  refine keeps_dram_mem rfl rfl ?_
  exact Keeps.refl _ _

theorem wakeParked_keeps (s : State) (o : DramObs) : Keeps [.nv, .stat, .dram, .mem, .events] s (wakeParked s o) := by
  unfold wakeParked
  refine Keeps.step (zeroLost_keeps ..) rfl ?_
  split
  · refine Keeps.step (setDram_keeps ..) rfl ?_
    exact Keeps.refl _ _
  · refine Keeps.step (fullTraining_keeps ..) rfl ?_
    exact Keeps.refl _ _

theorem unparkModule_keeps (s : State) (check : List UnitResult) (o : DramObs) : Keeps [.sup, .nv, .keys, .dict, .stat,
    .pipe, .twin, .frames, .rods, .slots, .rot, .moves, .tally, .ledger, .dram, .mem, .events] s (unparkModule s check
    o) := by
  unfold unparkModule
  refine Keeps.step (leaveParkedLife_keeps ..) rfl ?_
  refine keeps_ite (fun _ => ?_) (fun _ => ?_)
  · refine Keeps.step (setMod_keeps ..) rfl ?_
    refine Keeps.step (State.raise_keeps ..) rfl ?_
    refine Keeps.step (applyHealth_keeps ..) rfl ?_
    refine Keeps.step (pairsOf_keeps ..) rfl ?_
    refine Keeps.step (judgeCompute_keeps ..) rfl ?_
    refine keeps_foldl (fun _ _ _ => ?_) ?_
    · refine Keeps.step (fenceAtStart_keeps ..) rfl ?_
      assumption
    · refine Keeps.step (ledgerInit_keeps ..) rfl ?_
      refine Keeps.step (reportFenced_keeps ..) rfl ?_
      refine Keeps.step (setFences_keeps ..) rfl ?_
      refine Keeps.step (State.put_keeps ..) rfl ?_
      refine Keeps.step (wakeParked_keeps ..) rfl ?_
      exact Keeps.refl _ _
  · refine Keeps.step (setMod_keeps ..) rfl ?_
    refine Keeps.step (applyHealth_keeps ..) rfl ?_
    refine Keeps.step (pairsOf_keeps ..) rfl ?_
    refine Keeps.step (judgeCompute_keeps ..) rfl ?_
    refine keeps_foldl (fun _ _ _ => ?_) ?_
    · refine Keeps.step (fenceAtStart_keeps ..) rfl ?_
      assumption
    · refine Keeps.step (ledgerInit_keeps ..) rfl ?_
      refine Keeps.step (reportFenced_keeps ..) rfl ?_
      refine Keeps.step (setFences_keeps ..) rfl ?_
      refine Keeps.step (State.put_keeps ..) rfl ?_
      refine Keeps.step (wakeParked_keeps ..) rfl ?_
      exact Keeps.refl _ _

theorem parkApply_keeps (s : State) (v : Nat) (check : List UnitResult) (o : DramObs) : Keeps [.clk, .sup, .nv, .keys,
    .dict, .stat, .pipe, .byp, .drives, .twin, .frames, .rods, .slots, .rot, .moves, .tally, .beam, .ledger, .dram,
    .mem, .events, .draws, .out] s (parkApply s v check o) := by
  unfold parkApply
  refine keeps_ite (fun _ => ?_) (fun _ => ?_)
  · refine Keeps.step (parkModule_keeps ..) rfl ?_
    exact Keeps.refl _ _
  · refine keeps_ite (fun _ => ?_) (fun _ => ?_)
    · refine Keeps.step (unparkModule_keeps ..) rfl ?_
      exact Keeps.refl _ _
    · exact Keeps.refl _ _

theorem parkFree_keeps (s : State) (v : Nat) : Keeps [.clk, .sup, .nv, .keys, .dict, .stat, .pipe, .byp, .drives, .twin,
    .frames, .rods, .slots, .rot, .moves, .tally, .beam, .ledger, .dram, .mem, .events, .draws, .out] s (parkFree s v)
    := by
  unfold parkFree
  refine Keeps.step (State.drawn_keeps ..) rfl ?_
  refine Keeps.step (parkApply_keeps ..) rfl ?_
  exact Keeps.refl _ _

theorem execReset_keeps (cause : ResetCause) (s t : State) (h : execReset cause s = .next t) : Keeps (Part.allBut [.out, .pending]) s t := by
  unfold execReset at h
  refine keeps_done h ?_
  split <;> exact resetWith_keeps _ _

theorem execStartInstant_keeps (obs : BootObs) (s : State) (t : State) (h : execStartInstant obs s = .next t) : Keeps
    [.power, .clk, .sup, .nv, .keys, .stat, .statB, .pipe, .twin, .frames, .rods, .slots, .rot, .moves, .tally, .ledger,
    .dram, .mem, .events] s t := by
  unfold execStartInstant at h
  refine keeps_done h ?_
  refine Keeps.step (startInstant_keeps ..) rfl ?_
  exact Keeps.refl _ _

theorem execTrialTimeout_keeps (s : State) (t : State) (h : execTrialTimeout s = .next t) : Keeps [.nv] s t := by
  unfold execTrialTimeout at h
  refine keeps_done h ?_
  refine Keeps.step (trialTimeout_keeps ..) rfl ?_
  exact Keeps.refl _ _

theorem restoreLibrary_keeps (s : State) : Keeps [.nv, .stat, .pipe, .twin, .dram, .mem, .events, .draws] s
    (restoreLibrary s) := by
  unfold restoreLibrary
  refine keeps_foldl (fun _ _ _ => ?_) ?_
  · refine Keeps.step (dramBurst_keeps ..) rfl ?_
    assumption
  · refine Keeps.step (dramWipe_keeps ..) rfl ?_
    refine Keeps.step (wakeDram_keeps ..) rfl ?_
    exact Keeps.refl _ _

theorem execLibraryRestoreDone_keeps (s : State) (t : State) (h : execLibraryRestoreDone s = .next t) : Keeps [.sup,
    .nv, .stat, .pipe, .twin, .dram, .mem, .events, .draws] s t := by
  unfold execLibraryRestoreDone at h
  refine keeps_done h ?_
  refine keeps_ite (fun _ => ?_) (fun _ => ?_)
  · dsimp only
    refine Keeps.step (State.stset_keeps ..) rfl ?_
    refine keeps_sup rfl ?_
    refine Keeps.step (restoreLibrary_keeps ..) rfl ?_
    exact Keeps.refl _ _
  · exact Keeps.refl _ _

theorem supplySeen_keeps {g : List Part} {s f : State} (vin : Nat)
    (hg : Part.within (Part.allBut [.out, .pending]) g = true) (h : Keeps g s f) : Keeps g s (supplySeen s vin f) := by
  unfold supplySeen
  exact keeps_ite (fun _ => Keeps.step (resetWith_keeps _ _) hg (Keeps.refl _ _)) (fun _ => h)

theorem execPowerGoodFall_keeps (vinMv : Nat) (s t : State) (h : execPowerGoodFall vinMv s = .next t) :
    Keeps (Part.allBut [.out, .pending]) s t := by
  unfold execPowerGoodFall at h
  exact keeps_done h (supplySeen_keeps _ rfl (keeps_power rfl (Keeps.refl _ _)))

theorem execBrownout_keeps (at_ vinMv : Nat) (s t : State) (h : execBrownout at_ vinMv s = .next t) :
    Keeps (Part.allBut [.out, .pending]) s t := by
  unfold execBrownout at h
  refine keeps_done h (supplySeen_keeps _ rfl ?_)
  refine Keeps.step (brownout_keeps ..) rfl ?_
  exact Keeps.step (State.elapse_keeps ..) rfl (Keeps.refl _ _)

theorem execBrownoutEnd_keeps (at_ vinMv : Nat) (s t : State) (h : execBrownoutEnd at_ vinMv s = .next t) :
    Keeps (Part.allBut [.out, .pending]) s t := by
  unfold execBrownoutEnd at h
  refine keeps_done h (supplySeen_keeps _ rfl ?_)
  refine Keeps.step (brownoutEnd_keeps ..) rfl ?_
  exact Keeps.step (State.elapse_keeps ..) rfl (Keeps.refl _ _)

theorem execShutdownSelfTest_keeps (value : Nat) (obs : TestObs) (s : State) (t : State) (h : execShutdownSelfTest value
    obs s = .next t) : Keeps [.sup, .nv, .dict, .stat, .byp, .events] s t := by
  unfold execShutdownSelfTest at h
  refine keeps_done h ?_
  refine State.attempt_keeps _ _ _ _ rfl ?_
  refine Keeps.step (selfTestApply_keeps ..) rfl ?_
  exact Keeps.refl _ _

theorem execPark_keeps (value : Nat) (s : State) (t : State) (h : execPark value s = .next t) : Keeps [.clk, .sup, .nv,
    .keys, .dict, .stat, .pipe, .byp, .drives, .twin, .frames, .rods, .slots, .rot, .moves, .tally, .beam, .ledger,
    .dram, .mem, .events, .draws, .out] s t := by
  unfold execPark at h
  refine keeps_done h ?_
  refine State.attempt_keeps _ _ _ _ rfl ?_
  refine Keeps.step (parkFree_keeps ..) rfl ?_
  exact Keeps.refl _ _

theorem execUnpark_keeps (value : Nat) (check : List UnitResult) (obs : DramObs) (s : State) (t : State) (h : execUnpark
    value check obs s = .next t) : Keeps [.clk, .sup, .nv, .keys, .dict, .stat, .pipe, .byp, .drives, .twin, .frames,
    .rods, .slots, .rot, .moves, .tally, .beam, .ledger, .dram, .mem, .events, .draws, .out] s t := by
  unfold execUnpark at h
  refine keeps_done h ?_
  refine State.attempt_keeps _ _ _ _ rfl ?_
  refine Keeps.step (parkApply_keeps ..) rfl ?_
  exact Keeps.refl _ _

theorem execTargetedTest_keeps (value : Nat) (result : UnitResult) (exclusionNs : Nat) (s : State) (t : State) (h :
    execTargetedTest value result exclusionNs s = .next t) : Keeps [.sup, .stat] s t := by
  unfold execTargetedTest at h
  refine keeps_done h ?_
  refine State.attempt_keeps _ _ _ _ rfl ?_
  refine Keeps.step (targetedApply_keeps ..) rfl ?_
  exact Keeps.refl _ _

theorem execThermalLevelChange_keeps (at_ : Nat) (temp : Int) (s : State) (t : State) (h : execThermalLevelChange at_
    temp s = .next t) : Keeps [.power, .clk, .time, .sup, .events] s t := by
  unfold execThermalLevelChange at h
  refine keeps_done h ?_
  refine Keeps.step (thermalLevels_keeps ..) rfl ?_
  refine Keeps.step (State.elapse_keeps ..) rfl ?_
  exact Keeps.refl _ _

theorem execThermalTrip_keeps (temp : Int) (s t : State) (h : execThermalTrip temp s = .next t) :
    Keeps (Part.allBut [.out, .pending]) s t := by
  unfold execThermalTrip at h
  refine keeps_done h (keeps_ite (fun _ => resetWith_keeps _ _) (fun _ => keeps_power rfl (Keeps.refl _ _)))

theorem execTripResetRelease_keeps (temp : Int) (obs : BootObs) (s : State) (t : State) (h : execTripResetRelease temp
    obs s = .next t) : Keeps [.power, .clk, .sup, .nv, .keys, .stat, .statB, .pipe, .twin, .frames, .rods, .slots, .rot,
    .moves, .tally, .ledger, .dram, .mem, .events] s t := by
  unfold execTripResetRelease at h
  refine keeps_done h ?_
  refine keeps_ite (fun _ => ?_) (fun _ => ?_)
  · refine Keeps.step (startInstant_keeps ..) rfl ?_
    refine keeps_power rfl ?_
    exact Keeps.refl _ _
  · exact Keeps.refl _ _

theorem execLockstepError_keeps (s : State) (t : State) (h : execLockstepError s = .next t) : Keeps [.sup, .events] s t
    := by
  unfold execLockstepError at h
  refine keeps_done h ?_
  refine Keeps.step (lockstepError_keeps ..) rfl ?_
  exact Keeps.refl _ _

end Sys2Proof.Machine
end

