-- ==== Sys2Proof/Laws/KeepsCorrection.lean ====
section
/-! SUPPORT. The parts of the state that each function of Machine/Correction.lean may change. -/
set_option linter.unreachableTactic false
set_option linter.unusedTactic false

namespace Sys2Proof.Machine

theorem corrStatus_keeps (s : State) (f : Nat) : Keeps [.stat] s (corrStatus s f) := by
  unfold corrStatus
  refine Keeps.step (State.stset_keeps ..) rfl ?_
  refine Keeps.step (State.stset_keeps ..) rfl ?_
  refine Keeps.step (State.stset_keeps ..) rfl ?_
  refine Keeps.step (State.stset_keeps ..) rfl ?_
  refine Keeps.step (State.stset_keeps ..) rfl ?_
  exact Keeps.refl _ _

theorem setCorr_keeps (s : State) (f : Nat) (c : Corr) : Keeps [.pipe] s (setCorr s f c) := by
  unfold setCorr
  refine Keeps.step (State.setFeed_keeps ..) rfl ?_
  exact Keeps.refl _ _

theorem keepCorr_keeps (s : State) (n f : Nat) (c : Corr) : Keeps [.nv, .stat, .pipe, .twin, .ledger, .dram, .mem,
    .events, .draws] s (keepCorr s n f c) := by
  unfold keepCorr
  dsimp only
  refine keeps_ite (fun _ => ?_) (fun _ => ?_)
  · refine Keeps.step (State.raise_keeps ..) rfl ?_
    refine keeps_ite (fun _ => ?_) (fun _ => ?_)
    · refine keeps_ite (fun _ => ?_) (fun _ => ?_)
      · refine keeps_ite (fun _ => ?_) (fun _ => ?_)
        · refine Keeps.step (setCorr_keeps ..) rfl ?_
          exact Keeps.refl _ _
        · refine Keeps.step (storeBank_keeps ..) rfl ?_
          refine Keeps.step (setCorr_keeps ..) rfl ?_
          exact Keeps.refl _ _
      · refine Keeps.step (storeBank_keeps ..) rfl ?_
        refine keeps_ite (fun _ => ?_) (fun _ => ?_)
        · refine Keeps.step (setCorr_keeps ..) rfl ?_
          exact Keeps.refl _ _
        · refine Keeps.step (storeBank_keeps ..) rfl ?_
          refine Keeps.step (setCorr_keeps ..) rfl ?_
          exact Keeps.refl _ _
    · refine Keeps.step (storeCopy_keeps ..) rfl ?_
      refine keeps_ite (fun _ => ?_) (fun _ => ?_)
      · refine keeps_ite (fun _ => ?_) (fun _ => ?_)
        · refine Keeps.step (setCorr_keeps ..) rfl ?_
          exact Keeps.refl _ _
        · refine Keeps.step (storeBank_keeps ..) rfl ?_
          refine Keeps.step (setCorr_keeps ..) rfl ?_
          exact Keeps.refl _ _
      · refine Keeps.step (storeBank_keeps ..) rfl ?_
        refine keeps_ite (fun _ => ?_) (fun _ => ?_)
        · refine Keeps.step (setCorr_keeps ..) rfl ?_
          exact Keeps.refl _ _
        · refine Keeps.step (storeBank_keeps ..) rfl ?_
          refine Keeps.step (setCorr_keeps ..) rfl ?_
          exact Keeps.refl _ _
  · refine keeps_ite (fun _ => ?_) (fun _ => ?_)
    · refine keeps_ite (fun _ => ?_) (fun _ => ?_)
      · refine keeps_ite (fun _ => ?_) (fun _ => ?_)
        · refine Keeps.step (setCorr_keeps ..) rfl ?_
          exact Keeps.refl _ _
        · refine Keeps.step (storeBank_keeps ..) rfl ?_
          refine Keeps.step (setCorr_keeps ..) rfl ?_
          exact Keeps.refl _ _
      · refine Keeps.step (storeBank_keeps ..) rfl ?_
        refine keeps_ite (fun _ => ?_) (fun _ => ?_)
        · refine Keeps.step (setCorr_keeps ..) rfl ?_
          exact Keeps.refl _ _
        · refine Keeps.step (storeBank_keeps ..) rfl ?_
          refine Keeps.step (setCorr_keeps ..) rfl ?_
          exact Keeps.refl _ _
    · refine Keeps.step (storeCopy_keeps ..) rfl ?_
      refine keeps_ite (fun _ => ?_) (fun _ => ?_)
      · refine keeps_ite (fun _ => ?_) (fun _ => ?_)
        · refine Keeps.step (setCorr_keeps ..) rfl ?_
          exact Keeps.refl _ _
        · refine Keeps.step (storeBank_keeps ..) rfl ?_
          refine Keeps.step (setCorr_keeps ..) rfl ?_
          exact Keeps.refl _ _
      · refine Keeps.step (storeBank_keeps ..) rfl ?_
        refine keeps_ite (fun _ => ?_) (fun _ => ?_)
        · refine Keeps.step (setCorr_keeps ..) rfl ?_
          exact Keeps.refl _ _
        · refine Keeps.step (storeBank_keeps ..) rfl ?_
          refine Keeps.step (setCorr_keeps ..) rfl ?_
          exact Keeps.refl _ _

theorem rewriteBank_keeps (s : State) (n k : Nat) : Keeps [.nv, .stat, .pipe, .twin, .ledger, .dram, .mem, .events,
    .draws] s (rewriteBank s n k) := by
  unfold rewriteBank
  dsimp only
  refine Keeps.step (dramWipe_keeps ..) rfl ?_
  refine Keeps.step (storeBank_keeps ..) rfl ?_
  refine Keeps.step (setCorr_keeps ..) rfl ?_
  refine keeps_foldl (fun _ _ _ => ?_) ?_
  · refine Keeps.step (noteRange_keeps ..) rfl ?_
    assumption
  · exact Keeps.refl _ _

theorem rewriteBanks_keeps (s : State) (n : Nat) : Keeps [.nv, .stat, .pipe, .twin, .ledger, .dram, .mem, .events,
    .draws] s (rewriteBanks s n) := by
  unfold rewriteBanks
  refine keeps_foldl (fun _ _ _ => ?_) ?_
  · refine Keeps.step (rewriteBank_keeps ..) rfl ?_
    assumption
  · refine keeps_dram rfl ?_
    exact Keeps.refl _ _

theorem admitFade_keeps (d : SMap Nat) (t : Nat) (acc : State × Nat) (f : Nat) : Keeps [.stat, .pipe, .events] acc.1
    (admitFade d t acc f).1 := by
  unfold admitFade
  split
  dsimp only
  split
  · split
    · refine Keeps.step (setCorr_keeps ..) rfl ?_
      exact Keeps.refl _ _
    · split
      · exact Keeps.refl _ _
      · refine Keeps.step (State.raise_keeps ..) rfl ?_
        refine Keeps.step (State.bump_keeps ..) rfl ?_
        refine Keeps.step (setCorr_keeps ..) rfl ?_
        exact Keeps.refl _ _
  · exact Keeps.refl _ _

theorem corrTurn_keeps (s : State) (d : SMap Nat) (t : Nat) : Keeps [.nv, .stat, .pipe, .twin, .ledger, .dram, .mem,
    .events, .draws] s (corrTurn s d t) := by
  unfold corrTurn
  dsimp only
  refine keeps_foldl (fun _ _ _ => ?_) ?_
  · refine Keeps.step (corrStatus_keeps ..) rfl ?_
    assumption
  · refine Keeps.step (State.stset_keeps ..) rfl ?_
    refine Keeps.step (State.stset_keeps ..) rfl ?_
    refine keeps_foldl_fst (fun _ _ _ => ?_) ?_
    · refine Keeps.step (admitFade_keeps ..) rfl ?_
      assumption
    · dsimp only
      refine keeps_foldl (fun _ _ _ => ?_) ?_
      · refine Keeps.step (keepCorr_keeps ..) rfl ?_
        assumption
      · exact Keeps.refl _ _

theorem enterReq_keeps (s : State) (f : Nat) (req : SeqReq) : Keeps [.pipe] s (enterReq s f req) := by
  unfold enterReq
  refine Keeps.step (setCorr_keeps ..) rfl ?_
  exact Keeps.refl _ _

theorem allocationApply_keeps (s : State) (f taps : Nat) : Keeps [.dict, .stat, .pipe] s (allocationApply s f taps) := by
  unfold allocationApply
  dsimp only
  refine Keeps.step (enterReq_keeps ..) rfl ?_
  refine Keeps.step (State.stset_keeps ..) rfl ?_
  refine Keeps.step (State.put_keeps ..) rfl ?_
  exact Keeps.refl _ _

theorem bankLoadApply_keeps (s : State) (f b : Nat) (bytes : List Byte) : Keeps [.pipe] s (bankLoadApply s f b bytes) := by
  unfold bankLoadApply
  refine keeps_ite (fun _ => ?_) (fun _ => ?_)
  · exact Keeps.refl _ _
  · refine Keeps.step (enterReq_keeps ..) rfl ?_
    exact Keeps.refl _ _

theorem bankSwitchApply_keeps (s q : State) (f b : Nat) : Keeps [.dict, .pipe] s (bankSwitchApply s q f b) := by
  unfold bankSwitchApply
  refine keeps_ite (fun _ => ?_) (fun _ => ?_)
  · refine Keeps.step (State.put_keeps ..) rfl ?_
    exact Keeps.refl _ _
  · refine Keeps.step (enterReq_keeps ..) rfl ?_
    refine Keeps.step (State.put_keeps ..) rfl ?_
    exact Keeps.refl _ _

theorem correctionEnableApply_keeps (s q : State) (f v : Nat) : Keeps [.dict, .pipe] s (correctionEnableApply s q f v)
    := by
  unfold correctionEnableApply
  refine keeps_ite (fun _ => ?_) (fun _ => ?_)
  · refine Keeps.step (State.put_keeps ..) rfl ?_
    exact Keeps.refl _ _
  · refine Keeps.step (enterReq_keeps ..) rfl ?_
    refine Keeps.step (State.put_keeps ..) rfl ?_
    exact Keeps.refl _ _

theorem prepEnd_keeps (s : State) (f : Nat) (complete : Bool) : Keeps [.nv, .stat, .pipe, .twin, .ledger, .dram, .mem,
    .events, .draws] s (prepEnd s f complete) := by
  unfold prepEnd
  dsimp only
  split
  · refine keeps_ite (fun _ => ?_) (fun _ => ?_)
    · refine keeps_ite (fun _ => ?_) (fun _ => ?_)
      · split
        · refine Keeps.step (corrStatus_keeps ..) rfl ?_
          refine Keeps.step (keepCorr_keeps ..) rfl ?_
          exact Keeps.refl _ _
        · refine Keeps.step (corrStatus_keeps ..) rfl ?_
          refine Keeps.step (keepCorr_keeps ..) rfl ?_
          exact Keeps.refl _ _
        · exact Keeps.refl _ _
      · refine Keeps.step (corrStatus_keeps ..) rfl ?_
        refine Keeps.step (State.raise_keeps ..) rfl ?_
        refine Keeps.step (State.bump_keeps ..) rfl ?_
        refine Keeps.step (setCorr_keeps ..) rfl ?_
        refine Keeps.step (State.mark_keeps ..) rfl ?_
        exact Keeps.refl _ _
    · exact Keeps.refl _ _
  · exact Keeps.refl _ _

theorem fadeEnd_keeps (s : State) (f : Nat) : Keeps [.nv, .stat, .pipe, .twin, .ledger, .dram, .mem, .events, .draws] s
    (fadeEnd s f) := by
  unfold fadeEnd
  dsimp only
  split
  · refine keeps_ite (fun _ => ?_) (fun _ => ?_)
    · refine Keeps.step (corrStatus_keeps ..) rfl ?_
      refine Keeps.step (keepCorr_keeps ..) rfl ?_
      exact Keeps.refl _ _
    · exact Keeps.refl _ _
  · exact Keeps.refl _ _

theorem execPreparationComplete_keeps (feed : Nat) (complete : Bool) (s : State) (t : State) (h :
    execPreparationComplete feed complete s = .next t) : Keeps [.nv, .stat, .pipe, .twin, .ledger, .dram, .mem, .events,
    .draws] s t := by
  unfold execPreparationComplete at h
  refine keeps_done h ?_
  refine Keeps.step (prepEnd_keeps ..) rfl ?_
  exact Keeps.refl _ _

theorem execCrossfadeEnd_keeps (feed : Nat) (s : State) (t : State) (h : execCrossfadeEnd feed s = .next t) : Keeps
    [.nv, .stat, .pipe, .twin, .ledger, .dram, .mem, .events, .draws] s t := by
  unfold execCrossfadeEnd at h
  refine keeps_done h ?_
  refine Keeps.step (fadeEnd_keeps ..) rfl ?_
  exact Keeps.refl _ _

theorem execAllocationWrite_keeps (feed taps : Nat) (s : State) (t : State) (h : execAllocationWrite feed taps s = .next
    t) : Keeps [.dict, .stat, .pipe] s t := by
  unfold execAllocationWrite at h
  refine keeps_done h ?_
  refine State.attempt_keeps _ _ _ _ rfl ?_
  refine Keeps.step (allocationApply_keeps ..) rfl ?_
  exact Keeps.refl _ _

theorem execBankLoad_keeps (feed bank : Nat) (taps : List Byte) (s : State) (t : State) (h : execBankLoad feed bank taps
    s = .next t) : Keeps [.stat, .pipe] s t := by
  unfold execBankLoad at h
  refine keeps_done h ?_
  refine State.attempt_keeps _ _ _ _ rfl ?_
  refine Keeps.step (bankLoadApply_keeps ..) rfl ?_
  exact Keeps.refl _ _

theorem execBankSwitch_keeps (feed bank : Nat) (s : State) (t : State) (h : execBankSwitch feed bank s = .next t) :
    Keeps [.dict, .stat, .pipe] s t := by
  unfold execBankSwitch at h
  refine keeps_done h ?_
  refine State.attempt_keeps _ _ _ _ rfl ?_
  refine Keeps.step (bankSwitchApply_keeps ..) rfl ?_
  exact Keeps.refl _ _

theorem execCorrectionEnable_keeps (feed value : Nat) (s : State) (t : State) (h : execCorrectionEnable feed value s =
    .next t) : Keeps [.dict, .stat, .pipe] s t := by
  unfold execCorrectionEnable at h
  refine keeps_done h ?_
  refine State.attempt_keeps _ _ _ _ rfl ?_
  refine Keeps.step (correctionEnableApply_keeps ..) rfl ?_
  exact Keeps.refl _ _

end Sys2Proof.Machine
end

