-- ==== Sys2Proof/Laws/KeepsDrift.lean ====
section
/-! SUPPORT. The parts of the state that each function of Machine/Drift.lean may change. -/
set_option linter.unreachableTactic false
set_option linter.unusedTactic false

namespace Sys2Proof.Machine

theorem setPair_keeps (s : State) (k : Nat) (p : Pair) : Keeps [.drift] s (setPair s k p) := by
  unfold setPair
  refine keeps_drift rfl ?_
  exact Keeps.refl _ _

theorem setZone_keeps (s : State) (z : Nat) (v : ZoneTrack) : Keeps [.drift] s (setZone s z v) := by
  unfold setZone
  refine keeps_drift rfl ?_
  exact Keeps.refl _ _

theorem pairWindow_keeps (s : State) (est : List PairEstimate) (k : Nat) : Keeps [.stat, .drift, .events] s (pairWindow
    s est k) := by
  unfold pairWindow
  refine Keeps.step (State.condition_keeps ..) rfl ?_
  refine Keeps.step (State.stset_keeps ..) rfl ?_
  refine Keeps.step (State.stset_keeps ..) rfl ?_
  refine Keeps.step (setPair_keeps ..) rfl ?_
  exact Keeps.refl _ _

theorem zoneWindow_keeps (s : State) (z : Nat) : Keeps [.stat, .drift] s (zoneWindow s z) := by
  unfold zoneWindow
  dsimp only
  refine Keeps.step (State.stset_keeps ..) rfl ?_
  refine Keeps.step (setZone_keeps ..) rfl ?_
  exact Keeps.refl _ _

theorem driftWindow_keeps (s : State) (est : List PairEstimate) : Keeps [.stat, .drift, .events] s (driftWindow s est)
    := by
  unfold driftWindow
  refine keeps_ite (fun _ => ?_) (fun _ => ?_)
  · exact Keeps.refl _ _
  · dsimp only
    refine keeps_foldl (fun _ _ _ => ?_) ?_
    · refine Keeps.step (zoneWindow_keeps ..) rfl ?_
      assumption
    · refine keeps_foldl (fun _ _ _ => ?_) ?_
      · refine Keeps.step (pairWindow_keeps ..) rfl ?_
        assumption
      · exact Keeps.refl _ _

theorem baselineApply_keeps (s : State) : Keeps [.nv, .drift] s (baselineApply s) := by
  unfold baselineApply
  refine keeps_foldl (fun _ _ _ => ?_) ?_
  · refine keeps_nv rfl ?_
    refine Keeps.step (setZone_keeps ..) rfl ?_
    assumption
  · refine keeps_foldl (fun _ _ _ => ?_) ?_
    · refine keeps_nv rfl ?_
      refine Keeps.step (setPair_keeps ..) rfl ?_
      assumption
    · exact Keeps.refl _ _

theorem notePub_keeps (s : State) (p : DriftPub) : Keeps [.dom, .stat, .drift, .events] s (notePub s p) := by
  unfold notePub
  refine Keeps.step (State.raise_keeps ..) rfl ?_
  refine keeps_foldl (fun _ _ _ => ?_) ?_
  · refine Keeps.step (State.condition_keeps ..) rfl ?_
    refine Keeps.step (State.stset_keeps ..) rfl ?_
    refine Keeps.step (State.putBytes_keeps ..) rfl ?_
    refine Keeps.step (State.putBytes_keeps ..) rfl ?_
    refine Keeps.step (setZone_keeps ..) rfl ?_
    assumption
  · refine keeps_foldl (fun _ _ _ => ?_) ?_
    · refine Keeps.step (State.stset_keeps ..) rfl ?_
      assumption
    · refine Keeps.step (State.bump_keeps ..) rfl ?_
      refine Keeps.step (State.stset_keeps ..) rfl ?_
      exact Keeps.refl _ _

theorem askTrim_keeps (q s : State) (f : Nat) (trim : Option (List Int)) : Keeps [.stat, .pipe] s (askTrim q s f trim)
    := by
  unfold askTrim
  split
  · exact Keeps.step (enterReq_keeps ..) rfl (Keeps.refl _ _)
  · exact Keeps.step (State.bump_keeps ..) rfl (Keeps.refl _ _)

theorem setTold_keeps (s : State) (f : Nat) (b : Bool) : Keeps [.pipe] s (setTold s f b) := by
  unfold setTold
  refine Keeps.step (setCorr_keeps ..) rfl ?_
  exact Keeps.refl _ _

theorem setTrimZone_keeps (s : State) (f z : Nat) : Keeps [.pipe] s (setTrimZone s f z) := by
  unfold setTrimZone
  refine Keeps.step (setCorr_keeps ..) rfl ?_
  exact Keeps.refl _ _

theorem trimZone_keeps (s : State) (z : Nat) (taps : List Int) : Keeps [.stat, .pipe, .events] s (trimZone s z taps) :=
    by
  unfold trimZone
  dsimp only
  refine keeps_ite (fun _ => ?_) (fun _ => ?_)
  · exact Keeps.refl _ _
  · refine keeps_foldl (fun _ _ _ => ?_) ?_
    · refine keeps_ite (fun _ => ?_) (fun _ => ?_)
      · refine Keeps.step (askTrim_keeps ..) rfl ?_
        refine Keeps.step (setTrimZone_keeps ..) rfl ?_
        refine Keeps.step (setTold_keeps ..) rfl ?_
        assumption
      · refine Keeps.step (State.raise_keeps ..) rfl ?_
        refine Keeps.step (setTold_keeps ..) rfl ?_
        assumption
    · exact Keeps.refl _ _

theorem untrim_keeps (s : State) (which : Nat → Bool) : Keeps [.stat, .pipe] s (untrim s which) := by
  unfold untrim
  refine keeps_foldl (fun _ _ _ => ?_) ?_
  · refine keeps_ite (fun _ => ?_) (fun _ => ?_)
    · refine keeps_ite (fun _ => ?_) (fun _ => ?_)
      · refine Keeps.step (enterReq_keeps ..) rfl ?_
        assumption
      · refine Keeps.step (State.bump_keeps ..) rfl ?_
        assumption
    · assumption
  · exact Keeps.refl _ _

theorem freeze_keeps (s : State) : Keeps [.drift] s (freeze s) := by
  unfold freeze
  refine keeps_drift rfl ?_
  exact Keeps.refl _ _

theorem driftInterval_keeps (s : State) : Keeps [.dom, .stat, .pipe, .drift, .events, .out] s (driftInterval s) := by
  unfold driftInterval
  dsimp only
  refine Keeps.step (State.stset_keeps ..) rfl ?_
  split
  · split
    · refine keeps_ite (fun _ => ?_) (fun _ => ?_)
      · refine Keeps.step (State.sendPort_keeps ..) rfl ?_
        refine keeps_drift rfl ?_
        refine Keeps.step (notePub_keeps ..) rfl ?_
        refine Keeps.step (untrim_keeps ..) rfl ?_
        refine keeps_drift rfl ?_
        exact Keeps.refl _ _
      · refine keeps_drift rfl ?_
        refine Keeps.step (notePub_keeps ..) rfl ?_
        refine Keeps.step (untrim_keeps ..) rfl ?_
        refine keeps_drift rfl ?_
        exact Keeps.refl _ _
    · refine keeps_ite (fun _ => ?_) (fun _ => ?_)
      · refine Keeps.step (State.sendPort_keeps ..) rfl ?_
        refine keeps_drift rfl ?_
        refine Keeps.step (notePub_keeps ..) rfl ?_
        refine Keeps.step (untrim_keeps ..) rfl ?_
        refine keeps_drift rfl ?_
        exact Keeps.refl _ _
      · refine keeps_drift rfl ?_
        refine Keeps.step (notePub_keeps ..) rfl ?_
        refine Keeps.step (untrim_keeps ..) rfl ?_
        refine keeps_drift rfl ?_
        exact Keeps.refl _ _
    · refine Keeps.step (untrim_keeps ..) rfl ?_
      refine keeps_drift rfl ?_
      exact Keeps.refl _ _
  · refine keeps_ite (fun _ => ?_) (fun _ => ?_)
    · refine keeps_drift rfl ?_
      exact Keeps.refl _ _
    · refine Keeps.step (freeze_keeps ..) rfl ?_
      refine keeps_drift rfl ?_
      exact Keeps.refl _ _
  · refine Keeps.step (untrim_keeps ..) rfl ?_
    refine keeps_drift rfl ?_
    exact Keeps.refl _ _

theorem driftReceived_keeps (s : State) (p : DriftPub) : Keeps [.dom, .stat, .drift, .events] s (driftReceived s p) :=
    by
  unfold driftReceived
  refine keeps_ite (fun _ => ?_) (fun _ => ?_)
  · dsimp only
    refine keeps_drift rfl ?_
    refine Keeps.step (notePub_keeps ..) rfl ?_
    refine Keeps.step (State.heard_keeps ..) rfl ?_
    exact Keeps.refl _ _
  · exact Keeps.refl _ _

theorem driftApply_keeps (s : State) : Keeps [.stat, .pipe, .drift, .events] s (driftApply s) := by
  unfold driftApply
  split
  · exact Keeps.refl _ _
  · refine keeps_ite (fun _ => ?_) (fun _ => ?_)
    · exact Keeps.refl _ _
    · refine keeps_foldl (fun _ _ _ => ?_) ?_
      · refine Keeps.step (trimZone_keeps ..) rfl ?_
        assumption
      · refine keeps_drift rfl ?_
        exact Keeps.refl _ _

theorem driftSlew_keeps (s : State) : Keeps [.stat, .drift] s (driftSlew s) := by
  unfold driftSlew
  refine keeps_foldl (fun _ _ _ => ?_) ?_
  · refine Keeps.step (State.stset_keeps ..) rfl ?_
    assumption
  · refine keeps_drift rfl ?_
    exact Keeps.refl _ _

theorem driftModeApply_keeps (s : State) (m : Nat) : Keeps [.dict, .drift] s (driftModeApply s m) := by
  unfold driftModeApply
  refine keeps_ite (fun _ => ?_) (fun _ => ?_)
  · refine Keeps.step (freeze_keeps ..) rfl ?_
    refine keeps_drift rfl ?_
    refine Keeps.step (State.put_keeps ..) rfl ?_
    exact Keeps.refl _ _
  · refine keeps_drift rfl ?_
    refine Keeps.step (State.put_keeps ..) rfl ?_
    exact Keeps.refl _ _

theorem dropPairs_keeps (s : State) : Keeps [.stat, .drift, .events] s (dropPairs s) := by
  unfold dropPairs
  dsimp only
  refine keeps_foldl (fun _ _ _ => ?_) ?_
  · refine Keeps.step (State.stset_keeps ..) rfl ?_
    refine Keeps.step (setZone_keeps ..) rfl ?_
    assumption
  · refine keeps_foldl (fun _ _ _ => ?_) ?_
    · refine Keeps.step (State.condition_keeps ..) rfl ?_
      refine Keeps.step (State.stset_keeps ..) rfl ?_
      refine Keeps.step (State.stset_keeps ..) rfl ?_
      refine Keeps.step (setPair_keeps ..) rfl ?_
      assumption
    · exact Keeps.refl _ _

theorem trimSweep_keeps (s : State) : Keeps [.stat, .pipe] s (trimSweep s) := by
  unfold trimSweep
  refine keeps_ite (fun _ => ?_) (fun _ => ?_)
  · refine Keeps.step (untrim_keeps ..) rfl ?_
    exact Keeps.refl _ _
  · exact Keeps.refl _ _

theorem driftTick_keeps (s : State) : Keeps [.stat, .pipe, .drift, .events] s (driftTick s) := by
  unfold driftTick
  dsimp only
  refine Keeps.step (State.stset_keeps ..) rfl ?_
  refine Keeps.step (trimSweep_keeps ..) rfl ?_
  refine Keeps.step (dropPairs_keeps ..) rfl ?_
  exact Keeps.refl _ _

theorem execDriftEstimateWindow_keeps (est : List PairEstimate) (s : State) (t : State) (h : execDriftEstimateWindow est
    s = .next t) : Keeps [.stat, .drift, .events] s t := by
  unfold execDriftEstimateWindow at h
  refine keeps_done h ?_
  refine Keeps.step (driftWindow_keeps ..) rfl ?_
  exact Keeps.refl _ _

theorem execDriftPublication_keeps (s : State) (t : State) (h : execDriftPublication s = .next t) : Keeps [.dom, .stat,
    .pipe, .drift, .events, .out] s t := by
  unfold execDriftPublication at h
  refine keeps_done h ?_
  refine keeps_ite (fun _ => ?_) (fun _ => ?_)
  · refine Keeps.step (driftInterval_keeps ..) rfl ?_
    exact Keeps.refl _ _
  · exact Keeps.refl _ _

theorem execDriftPublicationReceived_keeps (pub : DriftPub) (s : State) (t : State) (h : execDriftPublicationReceived
    pub s = .next t) : Keeps [.dom, .stat, .drift, .events] s t := by
  unfold execDriftPublicationReceived at h
  refine keeps_done h ?_
  refine Keeps.step (driftReceived_keeps ..) rfl ?_
  exact Keeps.refl _ _

theorem execDriftApply_keeps (s : State) (t : State) (h : execDriftApply s = .next t) : Keeps [.stat, .pipe, .drift,
    .events] s t := by
  unfold execDriftApply at h
  refine keeps_done h ?_
  refine Keeps.step (driftApply_keeps ..) rfl ?_
  exact Keeps.refl _ _

theorem execBaselineCapture_keeps (value : Nat) (s : State) (t : State) (h : execBaselineCapture value s = .next t) :
    Keeps [.nv, .stat, .drift] s t := by
  unfold execBaselineCapture at h
  refine keeps_done h ?_
  refine State.attempt_keeps _ _ _ _ rfl ?_
  refine keeps_ite (fun _ => ?_) (fun _ => ?_)
  · refine Keeps.step (baselineApply_keeps ..) rfl ?_
    exact Keeps.refl _ _
  · exact Keeps.refl _ _

theorem execDriftModeWrite_keeps (mode : Nat) (s : State) (t : State) (h : execDriftModeWrite mode s = .next t) : Keeps
    [.dict, .stat, .drift] s t := by
  unfold execDriftModeWrite at h
  refine keeps_done h ?_
  refine State.attempt_keeps _ _ _ _ rfl ?_
  refine Keeps.step (driftModeApply_keeps ..) rfl ?_
  exact Keeps.refl _ _

end Sys2Proof.Machine
end

