-- ==== Sys2Proof/Laws/KeepsRender.lean ====
section
/-! SUPPORT. The parts of the state that each function of Machine/Render.lean may change. -/
set_option linter.unreachableTactic false
set_option linter.unusedTactic false

namespace Sys2Proof.Machine

theorem drivesStart_keeps (s : State) : Keeps [.drives] s (drivesStart s) := by
  unfold drivesStart
  refine keeps_foldl (fun _ _ _ => ?_) ?_
  · refine Keeps.step (State.setDrive_keeps ..) rfl ?_
    assumption
  · exact Keeps.refl _ _

theorem renderStart_keeps (s : State) (actIn : Bool) : Keeps [.clk, .time, .sup, .dict, .stat, .pipe, .drives, .twin,
    .events] s (renderStart s actIn) := by
  unfold renderStart
  refine keeps_ite (fun _ => ?_) (fun _ => ?_)
  · exact Keeps.refl _ _
  · refine Keeps.step (drivesStart_keeps ..) rfl ?_
    refine Keeps.step (setMod_keeps ..) rfl ?_
    refine Keeps.step (chooseRole_keeps ..) rfl ?_
    refine Keeps.step (State.put_keeps ..) rfl ?_
    exact Keeps.refl _ _

theorem renderStop_keeps (s : State) : Keeps [.sup, .dict, .stat] s (renderStop s) := by
  unfold renderStop
  refine keeps_ite (fun _ => ?_) (fun _ => ?_)
  · refine keeps_ite (fun _ => ?_) (fun _ => ?_)
    · refine Keeps.step (setMod_keeps ..) rfl ?_
      refine Keeps.step (State.put_keeps ..) rfl ?_
      exact Keeps.refl _ _
    · refine Keeps.step (State.put_keeps ..) rfl ?_
      exact Keeps.refl _ _
  · exact Keeps.refl _ _

theorem renderApply_keeps (s : State) (v : Nat) (actIn : Bool) : Keeps [.clk, .time, .sup, .dict, .stat, .pipe, .drives,
    .twin, .events] s (renderApply s v actIn) := by
  unfold renderApply
  refine keeps_ite (fun _ => ?_) (fun _ => ?_)
  · refine Keeps.step (renderStart_keeps ..) rfl ?_
    exact Keeps.refl _ _
  · refine Keeps.step (renderStop_keeps ..) rfl ?_
    exact Keeps.refl _ _

theorem freshGroups_keeps (s : State) : Keeps [.ledger, .mem] s (freshGroups s) := by
  unfold freshGroups
  refine keeps_foldl (fun _ _ _ => ?_) ?_
  · refine Keeps.step (ledgerZero_keeps ..) rfl ?_
    assumption
  · exact Keeps.refl _ _

theorem freshLines_keeps (s : State) : Keeps [.pipe, .ledger, .dram, .mem] s (freshLines s) := by
  unfold freshLines
  dsimp only
  refine keeps_pipe rfl ?_
  refine Keeps.step (dramZero_keeps ..) rfl ?_
  refine Keeps.step (ledgerZero_keeps ..) rfl ?_
  refine Keeps.step (freshGroups_keeps ..) rfl ?_
  exact Keeps.refl _ _

theorem freshFeeds_keeps (s : State) : Keeps [.pipe, .ledger, .mem] s (freshFeeds s) := by
  unfold freshFeeds
  dsimp only
  refine keeps_foldl (fun _ _ _ => ?_) ?_
  · refine Keeps.step (State.setFeed_keeps ..) rfl ?_
    assumption
  · refine Keeps.step (ledgerZero_keeps ..) rfl ?_
    exact Keeps.refl _ _

theorem freshObjects_keeps (s : State) : Keeps [.pipe] s (freshObjects s) := by
  unfold freshObjects
  refine keeps_pipe rfl ?_
  refine keeps_foldl (fun _ _ _ => ?_) ?_
  · refine Keeps.step (setObj_keeps ..) rfl ?_
    assumption
  · exact Keeps.refl _ _

theorem drivesRest_keeps (s : State) : Keeps [.stat, .drives] s (drivesRest s) := by
  unfold drivesRest
  refine keeps_foldl (fun _ _ _ => ?_) ?_
  · refine Keeps.step (putDrive_keeps ..) rfl ?_
    assumption
  · exact Keeps.refl _ _

theorem rateBuffers_keeps (s : State) : Keeps [.stat, .pipe, .ledger, .dram, .mem] s (rateBuffers s) := by
  unfold rateBuffers
  refine keeps_stat_pipe_mem rfl rfl rfl ?_
  refine Keeps.step (freshFeeds_keeps ..) rfl ?_
  refine Keeps.step (freshObjects_keeps ..) rfl ?_
  refine Keeps.step (freshLines_keeps ..) rfl ?_
  exact Keeps.refl _ _

theorem rateCorrection_keeps (s : State) : Keeps [.dict, .stat, .pipe] s (rateCorrection s) := by
  unfold rateCorrection
  refine keeps_foldl (fun _ _ _ => ?_) ?_
  · refine Keeps.step (corrStatus_keeps ..) rfl ?_
    refine Keeps.step (setCorr_keeps ..) rfl ?_
    assumption
  · refine keeps_dict rfl ?_
    exact Keeps.refl _ _

theorem rateBaseline_keeps (s : State) : Keeps [.nv, .drift] s (rateBaseline s) := by
  unfold rateBaseline
  refine keeps_nv_drift rfl rfl ?_
  exact Keeps.refl _ _

theorem ratePorts_keeps (s : State) : Keeps [.dict, .stat, .aesIn, .pdm, .twin, .rods, .slots, .events] s (ratePorts s)
    := by
  unfold ratePorts
  refine keeps_foldl (fun _ _ _ => ?_) ?_
  · refine keeps_ite (fun _ => ?_) (fun _ => ?_)
    · dsimp only
      split
      · refine Keeps.step (State.setRod_keeps ..) rfl ?_
        refine Keeps.step (endItem_keeps ..) rfl ?_
        refine Keeps.step (setSlot_keeps ..) rfl ?_
        assumption
      · refine Keeps.step (setSlot_keeps ..) rfl ?_
        assumption
    · assumption
  · refine keeps_foldl (fun _ _ _ => ?_) ?_
    · refine keeps_ite (fun _ => ?_) (fun _ => ?_)
      · assumption
      · refine Keeps.step (State.leave_keeps ..) rfl ?_
        refine Keeps.step (State.leave_keeps ..) rfl ?_
        refine Keeps.step (setAes_keeps ..) rfl ?_
        assumption
    · refine keeps_foldl (fun _ _ _ => ?_) ?_
      · refine Keeps.step (pdmEnableApply_keeps ..) rfl ?_
        assumption
      · exact Keeps.refl _ _

theorem mediaRateApply_keeps (s : State) (v : Nat) : Keeps [.nv, .dict, .stat, .pipe, .drift, .aesIn, .pdm, .twin,
    .rods, .slots, .ledger, .dram, .mem, .events] s (mediaRateApply s v) := by
  unfold mediaRateApply
  refine keeps_ite (fun _ => ?_) (fun _ => ?_)
  · exact Keeps.refl _ _
  · refine Keeps.step (ratePorts_keeps ..) rfl ?_
    refine Keeps.step (rateBaseline_keeps ..) rfl ?_
    refine Keeps.step (rateCorrection_keeps ..) rfl ?_
    refine Keeps.step (rateBuffers_keeps ..) rfl ?_
    refine Keeps.step (State.stset_keeps ..) rfl ?_
    refine Keeps.step (State.putNv_keeps ..) rfl ?_
    exact Keeps.refl _ _

theorem managementApply_keeps (s : State) (sub v : Nat) : Keeps [.todo] s (managementApply s sub v) := by
  unfold managementApply
  refine keeps_ite (fun _ => ?_) (fun _ => ?_)
  · refine keeps_todo rfl ?_
    exact Keeps.refl _ _
  · refine keeps_todo rfl ?_
    exact Keeps.refl _ _

theorem managementTick_keeps (s : State) : Keeps [.nv, .upd, .dict, .stat, .todo, .fol] s (managementTick s) := by
  have h : ∀ (u : State) (d sub : Nat) (v : Option Nat), Keeps [.nv, .upd, .dict, .stat, .todo, .fol] s u →
      Keeps [.nv, .upd, .dict, .stat, .todo, .fol] s (match v with
        | some x => if u.val d 0x1020 sub = x then u else endSessions (u.putNv d 0x1020 sub x) (fun k => decide (k.port = 2))
        | none => u) := by
    intro u d sub v hu
    split
    · exact keeps_ite (fun _ => hu) (fun _ => Keeps.step (endSessions_keeps ..) rfl (Keeps.step (State.putNv_keeps ..) rfl hu))
    · exact hu
  exact keeps_todo rfl (h _ _ _ _ (h _ _ _ _ (Keeps.refl _ _)))

theorem gpioApply_keeps (s : State) (sub v : Nat) : Keeps [.todo] s (gpioApply s sub v) := by
  unfold gpioApply
  refine keeps_ite (fun _ => ?_) (fun _ => ?_)
  · refine keeps_todo rfl ?_
    exact Keeps.refl _ _
  · refine keeps_todo rfl ?_
    exact Keeps.refl _ _

theorem gpioTick_keeps (s : State) (balls : Nat) : Keeps [.dict, .todo, .gpio] s (gpioTick s balls) := by
  have h : ∀ (u : State) (sub : Nat) (v : Option Nat), Keeps [.dict, .todo, .gpio] s u →
      Keeps [.dict, .todo, .gpio] s (match v with
        | some x => u.put 0 0x1040 sub x
        | none => u) := by
    intro u sub v hu
    split
    · exact Keeps.step (State.put_keeps ..) rfl hu
    · exact hu
  exact keeps_todo_gpio rfl rfl (h _ _ _ (h _ _ _ (Keeps.refl _ _)))

theorem execRenderStart_keeps (actIn : Bool) (s : State) (t : State) (h : execRenderStart actIn s = .next t) : Keeps
    [.clk, .time, .sup, .dict, .stat, .pipe, .drives, .twin, .events] s t := by
  unfold execRenderStart at h
  refine keeps_done h ?_
  refine State.attempt_keeps _ _ _ _ rfl ?_
  refine Keeps.step (renderStart_keeps ..) rfl ?_
  exact Keeps.refl _ _

theorem execRenderStop_keeps (s : State) (t : State) (h : execRenderStop s = .next t) : Keeps [.sup, .dict, .stat] s t
    := by
  unfold execRenderStop at h
  refine keeps_done h ?_
  refine State.attempt_keeps _ _ _ _ rfl ?_
  refine Keeps.step (renderStop_keeps ..) rfl ?_
  exact Keeps.refl _ _

theorem execMediaRateChange_keeps (rate : Nat) (s : State) (t : State) (h : execMediaRateChange rate s = .next t) :
    Keeps [.nv, .dict, .stat, .pipe, .drift, .aesIn, .pdm, .twin, .rods, .slots, .ledger, .dram, .mem, .events] s t := by
  unfold execMediaRateChange at h
  refine keeps_done h ?_
  refine State.attempt_keeps _ _ _ _ rfl ?_
  refine Keeps.step (mediaRateApply_keeps ..) rfl ?_
  exact Keeps.refl _ _

theorem execClearMissRecords_keeps (value : Nat) (s : State) (t : State) (h : execClearMissRecords value s = .next t) :
    Keeps [.stat, .todo] s t := by
  unfold execClearMissRecords at h
  refine keeps_done h ?_
  refine State.attempt_keeps _ _ _ _ rfl ?_
  refine keeps_todo rfl ?_
  exact Keeps.refl _ _

theorem execClearFolStatistics_keeps (value : Nat) (s : State) (t : State) (h : execClearFolStatistics value s = .next
    t) : Keeps [.stat, .todo] s t := by
  unfold execClearFolStatistics at h
  refine keeps_done h ?_
  refine State.attempt_keeps _ _ _ _ rfl ?_
  refine keeps_todo rfl ?_
  exact Keeps.refl _ _

theorem execManagementAddressWrite_keeps (sub value : Nat) (s : State) (t : State) (h : execManagementAddressWrite sub
    value s = .next t) : Keeps [.stat, .todo] s t := by
  unfold execManagementAddressWrite at h
  refine keeps_done h ?_
  refine State.attempt_keeps _ _ _ _ rfl ?_
  refine Keeps.step (managementApply_keeps ..) rfl ?_
  exact Keeps.refl _ _

theorem execGpioWrite_keeps (sub value : Nat) (s : State) (t : State) (h : execGpioWrite sub value s = .next t) : Keeps
    [.stat, .todo] s t := by
  unfold execGpioWrite at h
  refine keeps_done h ?_
  refine State.attempt_keeps _ _ _ _ rfl ?_
  refine Keeps.step (gpioApply_keeps ..) rfl ?_
  exact Keeps.refl _ _

end Sys2Proof.Machine
end

