-- ==== Sys2Proof/Laws/KeepsDictionary.lean ====
section
/-! SUPPORT. The parts of the state that each function of Machine/Dictionary.lean may change. -/
set_option linter.unreachableTactic false
set_option linter.unusedTactic false

namespace Sys2Proof.Machine

theorem storeEntry_keeps (s : State) (r : Row) (index sub : Nat) (b : List Byte) : Keeps [.nv, .dict, .dom] s
    (storeEntry s r index sub b) := by
  unfold storeEntry
  refine keeps_ite (fun _ => ?_) (fun _ => ?_)
  · exact Keeps.refl _ _
  · refine keeps_ite (fun _ => ?_) (fun _ => ?_)
    · refine keeps_ite (fun _ => ?_) (fun _ => ?_)
      · refine Keeps.step (State.putBytesNv_keeps ..) rfl ?_
        exact Keeps.refl _ _
      · refine Keeps.step (State.putBytes_keeps ..) rfl ?_
        exact Keeps.refl _ _
    · refine keeps_ite (fun _ => ?_) (fun _ => ?_)
      · refine Keeps.step (State.putNv_keeps ..) rfl ?_
        exact Keeps.refl _ _
      · refine Keeps.step (State.put_keeps ..) rfl ?_
        exact Keeps.refl _ _

theorem askClear_keeps (s : State) (v : Nat) (f : Todo → Todo) : Keeps [.todo] s (askClear s v f) := by
  unfold askClear
  refine keeps_ite (fun _ => ?_) (fun _ => ?_)
  · refine keeps_todo rfl ?_
    exact Keeps.refl _ _
  · exact Keeps.refl _ _

theorem portApply_keeps (s : State) (r : Row) (index sub : Nat) (b : List Byte) : Keeps [.nv, .dict, .dom, .stat,
    .ports, .events] s (portApply s r index sub b) := by
  unfold portApply
  dsimp only
  refine keeps_ite (fun _ => ?_) (fun _ => ?_)
  · refine Keeps.step (linkLoss_keeps ..) rfl ?_
    refine keeps_ite (fun _ => ?_) (fun _ => ?_)
    · refine Keeps.step (State.setPort_keeps ..) rfl ?_
      refine Keeps.step (storeEntry_keeps ..) rfl ?_
      exact Keeps.refl _ _
    · refine Keeps.step (storeEntry_keeps ..) rfl ?_
      exact Keeps.refl _ _
  · refine keeps_ite (fun _ => ?_) (fun _ => ?_)
    · refine Keeps.step (State.setPort_keeps ..) rfl ?_
      refine Keeps.step (storeEntry_keeps ..) rfl ?_
      exact Keeps.refl _ _
    · refine Keeps.step (storeEntry_keeps ..) rfl ?_
      exact Keeps.refl _ _

theorem portRangeApply_keeps (s : State) (r : Row) (index sub v : Nat) (b : List Byte) : Keeps [.clk, .time, .sup, .nv,
    .dict, .dom, .stat, .todo, .pipe, .drift, .ports, .byp, .aesIn, .pdm, .drives, .twin, .rods, .slots, .ledger, .dram,
    .mem, .events] s (portRangeApply s r index sub v b) := by
  unfold portRangeApply
  split
  · refine Keeps.step (managementApply_keeps ..) rfl ?_
    exact Keeps.refl _ _
  · refine Keeps.step (managementApply_keeps ..) rfl ?_
    exact Keeps.refl _ _
  · refine Keeps.step (askClear_keeps ..) rfl ?_
    exact Keeps.refl _ _
  · refine Keeps.step (gpioApply_keeps ..) rfl ?_
    exact Keeps.refl _ _
  · refine Keeps.step (mediaRateApply_keeps ..) rfl ?_
    exact Keeps.refl _ _
  · refine Keeps.step (renderApply_keeps ..) rfl ?_
    exact Keeps.refl _ _
  · refine Keeps.step (askClear_keeps ..) rfl ?_
    exact Keeps.refl _ _
  · refine Keeps.step (timeApply_keeps ..) rfl ?_
    exact Keeps.refl _ _
  · refine Keeps.step (timeApply_keeps ..) rfl ?_
    exact Keeps.refl _ _
  · refine Keeps.step (pulseApply_keeps ..) rfl ?_
    exact Keeps.refl _ _
  · refine Keeps.step (ringApply_keeps ..) rfl ?_
    exact Keeps.refl _ _
  · refine Keeps.step (portApply_keeps ..) rfl ?_
    exact Keeps.refl _ _
  · refine Keeps.step (aesModeApply_keeps ..) rfl ?_
    exact Keeps.refl _ _
  · refine Keeps.step (pdmEnableApply_keeps ..) rfl ?_
    exact Keeps.refl _ _
  · refine keeps_ite (fun _ => ?_) (fun _ => ?_)
    · refine Keeps.step (askClear_keeps ..) rfl ?_
      exact Keeps.refl _ _
    · refine Keeps.step (storeEntry_keeps ..) rfl ?_
      exact Keeps.refl _ _

theorem correctionApply_keeps (s : State) (r : Row) (index sub v : Nat) (b : List Byte) : Keeps [.nv, .dict, .dom,
    .stat, .pipe] s (correctionApply s r index sub v b) := by
  unfold correctionApply
  dsimp only
  split
  · refine Keeps.step (allocationApply_keeps ..) rfl ?_
    exact Keeps.refl _ _
  · refine Keeps.step (correctionEnableApply_keeps ..) rfl ?_
    exact Keeps.refl _ _
  · refine Keeps.step (bankSwitchApply_keeps ..) rfl ?_
    exact Keeps.refl _ _
  · refine Keeps.step (bankLoadApply_keeps ..) rfl ?_
    exact Keeps.refl _ _
  · refine Keeps.step (bankLoadApply_keeps ..) rfl ?_
    exact Keeps.refl _ _
  · refine Keeps.step (storeEntry_keeps ..) rfl ?_
    exact Keeps.refl _ _

theorem renderRangeApply_keeps (s : State) (r : Row) (index sub v : Nat) (b : List Byte) : Keeps [.nv, .dict, .dom,
    .stat, .todo, .pipe, .drift] s (renderRangeApply s r index sub v b) := by
  unfold renderRangeApply
  refine keeps_ite (fun _ => ?_) (fun _ => ?_)
  · refine Keeps.step (keyframeApply_keeps ..) rfl ?_
    exact Keeps.refl _ _
  · refine keeps_ite (fun _ => ?_) (fun _ => ?_)
    · refine Keeps.step (askClear_keeps ..) rfl ?_
      exact Keeps.refl _ _
    · refine keeps_ite (fun _ => ?_) (fun _ => ?_)
      · refine Keeps.step (askClear_keeps ..) rfl ?_
        exact Keeps.refl _ _
      · refine keeps_ite (fun _ => ?_) (fun _ => ?_)
        · refine Keeps.step (correctionApply_keeps ..) rfl ?_
          exact Keeps.refl _ _
        · refine keeps_ite (fun _ => ?_) (fun _ => ?_)
          · refine Keeps.step (driftModeApply_keeps ..) rfl ?_
            exact Keeps.refl _ _
          · refine keeps_ite (fun _ => ?_) (fun _ => ?_)
            · refine keeps_ite (fun _ => ?_) (fun _ => ?_)
              · refine Keeps.step (baselineApply_keeps ..) rfl ?_
                exact Keeps.refl _ _
              · exact Keeps.refl _ _
            · refine Keeps.step (storeEntry_keeps ..) rfl ?_
              exact Keeps.refl _ _

theorem lifeRangeApply_keeps (s : State) (r : Row) (index sub v : Nat) (b : List Byte) : Keeps [.nv, .keys, .upd, .dict,
    .dom, .stat, .byp, .fol, .events, .draws] s (lifeRangeApply s r index sub v b) := by
  unfold lifeRangeApply
  refine keeps_ite (fun _ => ?_) (fun _ => ?_)
  · split
    · refine Keeps.step (provisionApply_keeps ..) rfl ?_
      exact Keeps.refl _ _
    · refine Keeps.step (deployApply_keeps ..) rfl ?_
      exact Keeps.refl _ _
    · refine Keeps.step (State.drawn_keeps ..) rfl ?_
      refine Keeps.step (erase_keeps ..) rfl ?_
      exact Keeps.refl _ _
    · refine Keeps.step (State.drawn_keeps ..) rfl ?_
      refine Keeps.step (erase_keeps ..) rfl ?_
      exact Keeps.refl _ _
  · refine keeps_ite (fun _ => ?_) (fun _ => ?_)
    · refine keeps_ite (fun _ => ?_) (fun _ => ?_)
      · refine Keeps.step (levelKeyApply_keeps ..) rfl ?_
        exact Keeps.refl _ _
      · refine keeps_keys rfl ?_
        exact Keeps.refl _ _
    · refine keeps_ite (fun _ => ?_) (fun _ => ?_)
      · refine Keeps.step (rootApply_keeps ..) rfl ?_
        exact Keeps.refl _ _
      · refine keeps_ite (fun _ => ?_) (fun _ => ?_)
        · refine Keeps.step (storeEntry_keeps ..) rfl ?_
          exact Keeps.refl _ _
        · refine Keeps.step (State.putNv_keeps ..) rfl ?_
          exact Keeps.refl _ _

theorem rodRangeApply_keeps (s : State) (r : Row) (index sub v a : Nat) (b : List Byte) : Keeps [.nv, .dict, .dom,
    .stat, .todo, .pipe, .twin, .frames, .rods, .slots, .rot, .moves, .tally, .dram, .mem, .events] s (rodRangeApply s r
    index sub v a b) := by
  unfold rodRangeApply
  refine keeps_ite (fun _ => ?_) (fun _ => ?_)
  · refine Keeps.step (rotateApply_keeps ..) rfl ?_
    exact Keeps.refl _ _
  · refine keeps_ite (fun _ => ?_) (fun _ => ?_)
    · refine Keeps.step (retireFrameApply_keeps ..) rfl ?_
      exact Keeps.refl _ _
    · refine keeps_ite (fun _ => ?_) (fun _ => ?_)
      · refine Keeps.step (retireSlideApply_keeps ..) rfl ?_
        exact Keeps.refl _ _
      · refine keeps_ite (fun _ => ?_) (fun _ => ?_)
        · refine Keeps.step (retireRodApply_keeps ..) rfl ?_
          exact Keeps.refl _ _
        · refine keeps_ite (fun _ => ?_) (fun _ => ?_)
          · refine Keeps.step (slotImageApply_keeps ..) rfl ?_
            exact Keeps.refl _ _
          · refine keeps_ite (fun _ => ?_) (fun _ => ?_)
            · refine Keeps.step (slotEnableApply_keeps ..) rfl ?_
              exact Keeps.refl _ _
            · refine keeps_ite (fun _ => ?_) (fun _ => ?_)
              · refine Keeps.step (askClear_keeps ..) rfl ?_
                exact Keeps.refl _ _
              · refine keeps_ite (fun _ => ?_) (fun _ => ?_)
                · refine Keeps.step (askClear_keeps ..) rfl ?_
                  exact Keeps.refl _ _
                · refine keeps_ite (fun _ => ?_) (fun _ => ?_)
                  · refine Keeps.step (askClear_keeps ..) rfl ?_
                    exact Keeps.refl _ _
                  · refine keeps_ite (fun _ => ?_) (fun _ => ?_)
                    · refine keeps_ite (fun _ => ?_) (fun _ => ?_)
                      · refine Keeps.step (triggerRank_keeps ..) rfl ?_
                        exact Keeps.refl _ _
                      · exact Keeps.refl _ _
                    · refine Keeps.step (storeEntry_keeps ..) rfl ?_
                      exact Keeps.refl _ _

theorem stagingApply_keeps (s : State) (r : Row) (sub v a : Nat) (b : List Byte) : Keeps [.sup, .nv, .upd, .dict, .dom,
    .stat, .events] s (stagingApply s r sub v a b) := by
  unfold stagingApply
  split
  · refine Keeps.step (stagedApply_keeps ..) rfl ?_
    exact Keeps.refl _ _
  · refine Keeps.step (installApply_keeps ..) rfl ?_
    exact Keeps.refl _ _
  · refine Keeps.step (liveApply_keeps ..) rfl ?_
    exact Keeps.refl _ _
  · refine keeps_ite (fun _ => ?_) (fun _ => ?_)
    · refine Keeps.step (commitNow_keeps ..) rfl ?_
      exact Keeps.refl _ _
    · exact Keeps.refl _ _
  · refine keeps_ite (fun _ => ?_) (fun _ => ?_)
    · refine Keeps.step (revertNow_keeps ..) rfl ?_
      exact Keeps.refl _ _
    · exact Keeps.refl _ _
  · refine Keeps.step (storeEntry_keeps ..) rfl ?_
    exact Keeps.refl _ _

theorem eventRangeApply_keeps (s : State) (index sub v : Nat) : Keeps [.nv, .events] s (eventRangeApply s index sub v)
    := by
  unfold eventRangeApply
  refine keeps_ite (fun _ => ?_) (fun _ => ?_)
  · refine Keeps.step (evSourceApply_keeps ..) rfl ?_
    exact Keeps.refl _ _
  · split
    · refine keeps_events rfl ?_
      exact Keeps.refl _ _
    · refine keeps_events rfl ?_
      exact Keeps.refl _ _
    · refine keeps_events rfl ?_
      exact Keeps.refl _ _

theorem systemRangeApply_keeps (s : State) (r : Row) (index sub v a : Nat) (b : List Byte) : Keeps [.clk, .time, .sup,
    .nv, .keys, .dict, .dom, .stat, .todo, .pipe, .byp, .drives, .twin, .frames, .rods, .slots, .rot, .moves, .tally,
    .beam, .ledger, .dram, .mem, .events, .draws, .out] s (systemRangeApply s r index sub v a b) := by
  unfold systemRangeApply
  refine keeps_ite (fun _ => ?_) (fun _ => ?_)
  · refine Keeps.step (driveEnableApply_keeps ..) rfl ?_
    exact Keeps.refl _ _
  · refine keeps_ite (fun _ => ?_) (fun _ => ?_)
    · refine Keeps.step (clearLatchApply_keeps ..) rfl ?_
      exact Keeps.refl _ _
    · refine keeps_ite (fun _ => ?_) (fun _ => ?_)
      · refine Keeps.step (askClear_keeps ..) rfl ?_
        exact Keeps.refl _ _
      · refine keeps_ite (fun _ => ?_) (fun _ => ?_)
        · refine Keeps.step (isolateApply_keeps ..) rfl ?_
          exact Keeps.refl _ _
        · refine keeps_ite (fun _ => ?_) (fun _ => ?_)
          · refine Keeps.step (handoverApply_keeps ..) rfl ?_
            exact Keeps.refl _ _
          · refine keeps_ite (fun _ => ?_) (fun _ => ?_)
            · refine Keeps.step (askClear_keeps ..) rfl ?_
              exact Keeps.refl _ _
            · refine keeps_ite (fun _ => ?_) (fun _ => ?_)
              · refine Keeps.step (rodRangeApply_keeps ..) rfl ?_
                exact Keeps.refl _ _
              · refine keeps_ite (fun _ => ?_) (fun _ => ?_)
                · refine keeps_ite (fun _ => ?_) (fun _ => ?_)
                  · refine Keeps.step (State.drawn_keeps ..) rfl ?_
                    refine Keeps.step (selfTestApply_keeps ..) rfl ?_
                    exact Keeps.refl _ _
                  · exact Keeps.refl _ _
                · refine keeps_ite (fun _ => ?_) (fun _ => ?_)
                  · refine Keeps.step (parkFree_keeps ..) rfl ?_
                    exact Keeps.refl _ _
                  · refine keeps_ite (fun _ => ?_) (fun _ => ?_)
                    · refine keeps_ite (fun _ => ?_) (fun _ => ?_)
                      · refine Keeps.step (State.drawn_keeps ..) rfl ?_
                        refine Keeps.step (targetedApply_keeps ..) rfl ?_
                        exact Keeps.refl _ _
                      · exact Keeps.refl _ _
                    · refine Keeps.step (storeEntry_keeps ..) rfl ?_
                      exact Keeps.refl _ _

theorem writeApply_keeps (s : State) (r : Row) (index sub a : Nat) (b : List Byte) : Keeps [.clk, .time, .sup, .nv,
    .keys, .upd, .dict, .dom, .stat, .todo, .pipe, .drift, .ports, .byp, .aesIn, .pdm, .drives, .fol, .twin, .frames,
    .rods, .slots, .rot, .moves, .tally, .beam, .ledger, .dram, .mem, .events, .draws, .out] s (writeApply s r index sub
    a b) := by
  unfold writeApply
  refine keeps_ite (fun _ => ?_) (fun _ => ?_)
  · exact Keeps.refl _ _
  · refine keeps_ite (fun _ => ?_) (fun _ => ?_)
    · refine Keeps.step (portRangeApply_keeps ..) rfl ?_
      exact Keeps.refl _ _
    · refine keeps_ite (fun _ => ?_) (fun _ => ?_)
      · refine Keeps.step (renderRangeApply_keeps ..) rfl ?_
        exact Keeps.refl _ _
      · refine keeps_ite (fun _ => ?_) (fun _ => ?_)
        · refine Keeps.step (systemRangeApply_keeps ..) rfl ?_
          exact Keeps.refl _ _
        · refine keeps_ite (fun _ => ?_) (fun _ => ?_)
          · refine Keeps.step (lifeRangeApply_keeps ..) rfl ?_
            exact Keeps.refl _ _
          · refine keeps_ite (fun _ => ?_) (fun _ => ?_)
            · refine Keeps.step (stagingApply_keeps ..) rfl ?_
              exact Keeps.refl _ _
            · refine Keeps.step (eventRangeApply_keeps ..) rfl ?_
              exact Keeps.refl _ _

theorem writeRefused_keeps (s : State) (index sub code : Nat) : Keeps [.keys, .events, .draws] s (writeRefused s index
    sub code) := by
  unfold writeRefused
  refine keeps_ite (fun _ => ?_) (fun _ => ?_)
  · refine Keeps.step (newNonce_keeps ..) rfl ?_
    refine Keeps.step (signatureRefused_keeps ..) rfl ?_
    exact Keeps.refl _ _
  · refine Keeps.step (signatureRefused_keeps ..) rfl ?_
    exact Keeps.refl _ _

theorem writeNow_keeps (s : State) (r : Row) (index sub : Nat) (b : List Byte) : Keeps [.clk, .time, .sup, .nv, .keys,
    .upd, .dict, .dom, .stat, .todo, .pipe, .drift, .ports, .byp, .aesIn, .pdm, .drives, .fol, .twin, .frames, .rods,
    .slots, .rot, .moves, .tally, .beam, .ledger, .dram, .mem, .events, .draws, .out] s (writeNow s r index sub b) := by
  unfold writeNow
  refine keeps_ite (fun _ => ?_) (fun _ => ?_)
  · refine Keeps.step (newNonce_keeps ..) rfl ?_
    refine Keeps.step (writeApply_keeps ..) rfl ?_
    exact Keeps.refl _ _
  · refine Keeps.step (writeApply_keeps ..) rfl ?_
    exact Keeps.refl _ _

theorem applyPending_keeps (s : State) (p : Pending) : Keeps [.clk, .time, .sup, .nv, .keys, .upd, .dict, .dom, .stat,
    .todo, .pipe, .drift, .ports, .byp, .aesIn, .pdm, .drives, .fol, .twin, .frames, .rods, .slots, .rot, .moves,
    .tally, .beam, .ledger, .dram, .mem, .events, .draws, .out] s (applyPending s p) := by
  unfold applyPending
  split
  · exact Keeps.refl _ _
  · refine keeps_ite (fun _ => ?_) (fun _ => ?_)
    · exact Keeps.refl _ _
    · refine keeps_ite (fun _ => ?_) (fun _ => ?_)
      · refine Keeps.step (writeApply_keeps ..) rfl ?_
        exact Keeps.refl _ _
      · refine Keeps.step (State.raise_keeps ..) rfl ?_
        refine Keeps.step (State.bump_keeps ..) rfl ?_
        exact Keeps.refl _ _

theorem applyDue_keeps (s : State) : Keeps [.clk, .time, .sup, .nv, .keys, .upd, .dict, .dom, .stat, .pend, .todo,
    .pipe, .drift, .ports, .byp, .aesIn, .pdm, .drives, .fol, .twin, .frames, .rods, .slots, .rot, .moves, .tally,
    .beam, .ledger, .dram, .mem, .events, .draws, .out] s (applyDue s) := by
  unfold applyDue
  refine keeps_foldl (fun _ _ _ => ?_) ?_
  · refine Keeps.step (applyPending_keeps ..) rfl ?_
    assumption
  · refine keeps_pend_twin rfl rfl ?_
    exact Keeps.refl _ _

theorem ticksAhead_keeps (s : State) (n : Nat) : Keeps [.clk, .twin] s (ticksAhead s n) := by
  unfold ticksAhead
  refine keeps_clk_twin rfl rfl ?_
  exact Keeps.refl _ _

theorem readSeen_keeps (s : State) (index sub : Nat) : Keeps [.time] s (readSeen s index sub) := by
  unfold readSeen
  refine keeps_ite (fun _ => ?_) (fun _ => ?_)
  · refine keeps_ite (fun _ => ?_) (fun _ => ?_)
    · refine keeps_time rfl ?_
      exact Keeps.refl _ _
    · exact Keeps.refl _ _
  · exact Keeps.refl _ _

end Sys2Proof.Machine
end

