-- ==== Sys2Proof/Laws/KeepsFol.lean ====
section
/-! SUPPORT. The parts of the state that each function of Machine/Fol.lean may change. -/
set_option linter.unreachableTactic false
set_option linter.unusedTactic false

namespace Sys2Proof.Machine

theorem folSend_keeps (s : State) (src : FolSrc) (f : FolFrame) : Keeps [.stat, .out] s (folSend s src f) := by
  unfold folSend
  dsimp only
  refine keeps_ite (fun _ => ?_) (fun _ => ?_)
  · refine Keeps.step (State.sendPort_keeps ..) rfl ?_
    exact Keeps.refl _ _
  · refine Keeps.step (State.stset_keeps ..) rfl ?_
    refine Keeps.step (State.sendPort_keeps ..) rfl ?_
    exact Keeps.refl _ _

theorem folUntagged_keeps (s : State) (src : FolSrc) (f : FolFrame) (code : Nat) : Keeps [.stat, .out] s (folUntagged s
    src f code) := by
  unfold folUntagged
  refine Keeps.step (folSend_keeps ..) rfl ?_
  exact Keeps.refl _ _

theorem setSession_keeps (s : State) (x : Session) : Keeps [.fol] s (setSession s x) := by
  unfold setSession
  refine keeps_fol rfl ?_
  exact Keeps.refl _ _

theorem folAnswer_keeps (s : State) (x : Session) (src : FolSrc) (r : FolFrame) : Keeps [.stat, .fol, .out] s (folAnswer
    s x src r) := by
  unfold folAnswer
  refine Keeps.step (folSend_keeps ..) rfl ?_
  split
  · refine Keeps.step (setSession_keeps ..) rfl ?_
    exact Keeps.refl _ _
  · exact Keeps.refl _ _

theorem folCode_keeps (s : State) (x : Session) (src : FolSrc) (f : FolFrame) (code : Nat) : Keeps [.stat, .fol, .out] s
    (folCode s x src f code) := by
  unfold folCode
  refine Keeps.step (folAnswer_keeps ..) rfl ?_
  exact Keeps.refl _ _

theorem folDrop_keeps (s : State) (src : FolSrc) : Keeps [.stat, .fol] s (folDrop s src) := by
  unfold folDrop
  refine keeps_fol rfl ?_
  refine Keeps.step (State.bump_keeps ..) rfl ?_
  exact Keeps.refl _ _

theorem folCount_keeps (s : State) (x : Session) : Keeps [.fol] s (folCount s x).1 := by
  unfold folCount
  refine keeps_fol rfl ?_
  exact Keeps.refl _ _

theorem discard_keeps (s : State) (x : Session) : Keeps [.upd, .stat] s (Machine.discard s x).1 :=
  Keeps.step (dropTransfer_keeps ..) rfl (Keeps.refl _ _)

theorem folFrameIn_keeps (s : State) (src : FolSrc) : Keeps [.stat] s (folFrameIn s src) := by
  unfold folFrameIn
  refine keeps_ite (fun _ => ?_) (fun _ => ?_)
  · refine Keeps.step (State.heard_keeps ..) rfl ?_
    exact Keeps.refl _ _
  · exact Keeps.refl _ _

/-- A request of a session keeps what its own work and the session's bookkeeping keep. -/
theorem folRequest_keeps {f : List Part} (s : State) (src : FolSrc) (fr : FolFrame) (op : Nat) (run : State → Session → State)
    (hf : Part.within [.upd, .stat, .fol, .out] f = true) (hw : ∀ u x, Keeps f u (run u x)) :
    Keeps f s (folRequest s src fr op run) := by
  have hs : Part.within f f = true := List.all_eq_true.mpr (fun p hp => by simpa [Part.isIn] using hp)
  have hh : ∀ g : List Part, Part.within g [.upd, .stat, .fol, .out] = true → Part.within g f = true := by
    intro g hg
    refine List.all_eq_true.mpr (fun p hp => ?_)
    have hq := Part.within_of hf p (Part.within_of hg p hp)
    simpa [Part.isIn] using hq
  have a1 : ∀ {u x}, Keeps f s u → Keeps f s (folDrop u x) := fun h => Keeps.step (folDrop_keeps ..) (hh _ rfl) h
  have a2 : ∀ {u x y z}, Keeps f s u → Keeps f s (folUntagged u x y z) := fun h => Keeps.step (folUntagged_keeps ..) (hh _ rfl) h
  have a3 : ∀ {u x y}, Keeps f s u → Keeps f s (folSend u x y) := fun h => Keeps.step (folSend_keeps ..) (hh _ rfl) h
  have a4 : ∀ {u x}, Keeps f s u → Keeps f s (setSession u x) := fun h => Keeps.step (setSession_keeps ..) (hh _ rfl) h
  have a5 : ∀ {u x y z}, Keeps f s u → Keeps f s (State.bump u x y z) := fun h => Keeps.step (State.bump_keeps ..) (hh _ rfl) h
  have a6 : ∀ {u x}, Keeps f s u → Keeps f s (folCount u x).1 := fun h => Keeps.step (folCount_keeps ..) (hh _ rfl) h
  have a7 : ∀ {u x}, Keeps f s u → Keeps f s (discard u x).1 := fun h => Keeps.step (discard_keeps ..) (hh _ rfl) h
  have a8 : ∀ {u x y z w}, Keeps f s u → Keeps f s (folCode u x y z w) := fun h => Keeps.step (folCode_keeps ..) (hh _ rfl) h
  have a9 : ∀ {u x}, Keeps f s u → Keeps f s (run u x) := fun h => Keeps.step (hw _ _) hs h
  unfold folRequest
  repeat' first
    | exact Keeps.refl _ _
    | with_reducible apply a1 | with_reducible apply a2 | with_reducible apply a3 | with_reducible apply a5
    | with_reducible apply a8 | with_reducible apply a9 | with_reducible apply a4 | with_reducible apply a6
    | with_reducible apply a7 | split | refine keeps_fst (by assumption) ?_ | dsimp only

/-- A request of a session after what keeps as much. -/
theorem folRequest_step {f : List Part} {s u : State} (src : FolSrc) (fr : FolFrame) (op : Nat) (run : State → Session → State)
    (hf : Part.within [.upd, .stat, .fol, .out] f = true) (hw : ∀ u x, Keeps f u (run u x)) (h : Keeps f s u) :
    Keeps f s (folRequest u src fr op run) :=
  Keeps.step (folRequest_keeps u src fr op run hf hw) (List.all_eq_true.mpr (fun p hp => by simpa [Part.isIn] using hp)) h

theorem folOpened_keeps (s : State) (src : FolSrc) (f : FolFrame) (kl : List Byte) : Keeps [.stat, .fol, .draws, .out] s
    (folOpened s src f kl) := by
  unfold folOpened
  refine Keeps.step (folSend_keeps ..) rfl ?_
  refine keeps_fol rfl ?_
  refine Keeps.step (State.drawn_keeps ..) rfl ?_
  refine Keeps.step (State.drawn_keeps ..) rfl ?_
  exact Keeps.refl _ _

theorem folOpen_keeps (s : State) (src : FolSrc) (f : FolFrame) : Keeps [.stat, .fol, .draws, .out] s (folOpen s src f)
    := by
  unfold folOpen
  refine keeps_ite (fun _ => ?_) (fun _ => ?_)
  · exact Keeps.refl _ _
  · refine keeps_ite (fun _ => ?_) (fun _ => ?_)
    · refine Keeps.step (folDrop_keeps ..) rfl ?_
      exact Keeps.refl _ _
    · refine keeps_ite (fun _ => ?_) (fun _ => ?_)
      · refine Keeps.step (folDrop_keeps ..) rfl ?_
        exact Keeps.refl _ _
      · refine keeps_ite (fun _ => ?_) (fun _ => ?_)
        · refine Keeps.step (folUntagged_keeps ..) rfl ?_
          exact Keeps.refl _ _
        · refine keeps_ite (fun _ => ?_) (fun _ => ?_)
          · refine Keeps.step (folUntagged_keeps ..) rfl ?_
            exact Keeps.refl _ _
          · refine keeps_ite (fun _ => ?_) (fun _ => ?_)
            · refine Keeps.step (folUntagged_keeps ..) rfl ?_
              exact Keeps.refl _ _
            · refine Keeps.step (folOpened_keeps ..) rfl ?_
              exact Keeps.refl _ _

theorem folIdent_keeps (s : State) (src : FolSrc) (f : FolFrame) : Keeps [.stat, .fol, .out] s (folIdent s src f) := by
  unfold folIdent
  refine keeps_ite (fun _ => ?_) (fun _ => ?_)
  · exact Keeps.refl _ _
  · refine keeps_ite (fun _ => ?_) (fun _ => ?_)
    · refine Keeps.step (folDrop_keeps ..) rfl ?_
      exact Keeps.refl _ _
    · refine keeps_ite (fun _ => ?_) (fun _ => ?_)
      · exact Keeps.refl _ _
      · refine Keeps.step (folSend_keeps ..) rfl ?_
        refine keeps_fol rfl ?_
        exact Keeps.refl _ _

theorem segmentAnswer_keeps (s : State) (x : Session) (src : FolSrc) (f : FolFrame) (offset : Nat) (v : List Byte) :
    Keeps [.stat, .fol, .out] s (segmentAnswer s x src f offset v) := by
  unfold segmentAnswer
  refine Keeps.step (folAnswer_keeps ..) rfl ?_
  exact Keeps.refl _ _

theorem folReadRun_keeps (src : FolSrc) (f : FolFrame) (s : State) (x : Session) : Keeps [.time, .stat, .fol, .out] s
    (folReadRun src f s x) := by
  unfold folReadRun
  refine keeps_ite (fun _ => ?_) (fun _ => ?_)
  · refine Keeps.step (folCode_keeps ..) rfl ?_
    refine Keeps.step (setSession_keeps ..) rfl ?_
    exact Keeps.refl _ _
  · refine Keeps.step (segmentAnswer_keeps ..) rfl ?_
    refine Keeps.step (readSeen_keeps ..) rfl ?_
    refine Keeps.step (setSession_keeps ..) rfl ?_
    exact Keeps.refl _ _

theorem folSegRun_keeps (src : FolSrc) (f : FolFrame) (s : State) (x : Session) : Keeps [.stat, .fol, .out] s (folSegRun
    src f s x) := by
  unfold folSegRun
  split
  · refine keeps_ite (fun _ => ?_) (fun _ => ?_)
    · refine Keeps.step (folCode_keeps ..) rfl ?_
      exact Keeps.refl _ _
    · refine keeps_ite (fun _ => ?_) (fun _ => ?_)
      · refine Keeps.step (folCode_keeps ..) rfl ?_
        exact Keeps.refl _ _
      · refine Keeps.step (segmentAnswer_keeps ..) rfl ?_
        exact Keeps.refl _ _
  · refine Keeps.step (folCode_keeps ..) rfl ?_
    exact Keeps.refl _ _

theorem forwardWrite_keeps (s : State) (r : Row) (p : Pending) : Keeps [.stat, .pend, .fol, .out] s (forwardWrite s r p)
    := by
  unfold forwardWrite
  dsimp only
  refine keeps_pend_fol rfl rfl ?_
  refine Keeps.step (State.sendPort_keeps ..) rfl ?_
  refine Keeps.step (State.bump_keeps ..) rfl ?_
  exact Keeps.refl _ _

theorem acceptWrite_keeps (s : State) (x : Session) (src : FolSrc) (f : FolFrame) (r : Row) (p : Pending) : Keeps [.clk,
    .time, .sup, .nv, .keys, .upd, .dict, .dom, .stat, .pend, .todo, .pipe, .drift, .ports, .byp, .aesIn, .pdm, .drives,
    .fol, .twin, .frames, .rods, .slots, .rot, .moves, .tally, .beam, .ledger, .dram, .mem, .events, .draws, .out] s
    (acceptWrite s x src f r p) := by
  unfold acceptWrite
  refine keeps_ite (fun _ => ?_) (fun _ => ?_)
  · refine keeps_ite (fun _ => ?_) (fun _ => ?_)
    · refine Keeps.step (writeNow_keeps ..) rfl ?_
      exact Keeps.refl _ _
    · refine keeps_ite (fun _ => ?_) (fun _ => ?_)
      · refine Keeps.step (writeApply_keeps ..) rfl ?_
        exact Keeps.refl _ _
      · exact Keeps.refl _ _
  · refine keeps_ite (fun _ => ?_) (fun _ => ?_)
    · refine Keeps.step (forwardWrite_keeps ..) rfl ?_
      refine keeps_ite (fun _ => ?_) (fun _ => ?_)
      · refine Keeps.step (writeNow_keeps ..) rfl ?_
        exact Keeps.refl _ _
      · refine keeps_ite (fun _ => ?_) (fun _ => ?_)
        · refine Keeps.step (writeApply_keeps ..) rfl ?_
          exact Keeps.refl _ _
        · exact Keeps.refl _ _
    · refine Keeps.step (folAnswer_keeps ..) rfl ?_
      refine keeps_ite (fun _ => ?_) (fun _ => ?_)
      · refine keeps_ite (fun _ => ?_) (fun _ => ?_)
        · refine Keeps.step (writeNow_keeps ..) rfl ?_
          exact Keeps.refl _ _
        · refine keeps_ite (fun _ => ?_) (fun _ => ?_)
          · refine Keeps.step (writeApply_keeps ..) rfl ?_
            exact Keeps.refl _ _
          · exact Keeps.refl _ _
      · refine keeps_pend rfl ?_
        refine keeps_ite (fun _ => ?_) (fun _ => ?_)
        · refine Keeps.step (writeNow_keeps ..) rfl ?_
          exact Keeps.refl _ _
        · refine keeps_ite (fun _ => ?_) (fun _ => ?_)
          · refine Keeps.step (writeApply_keeps ..) rfl ?_
            exact Keeps.refl _ _
          · exact Keeps.refl _ _

theorem judgeWrite_keeps (s : State) (x : Session) (src : FolSrc) (f : FolFrame) (apply : Nat) (late : Bool) (b : List
    Byte) : Keeps [.clk, .time, .sup, .nv, .keys, .upd, .dict, .dom, .stat, .pend, .todo, .pipe, .drift, .ports, .byp,
    .aesIn, .pdm, .drives, .fol, .twin, .frames, .rods, .slots, .rot, .moves, .tally, .beam, .ledger, .dram, .mem,
    .events, .draws, .out] s (judgeWrite s x src f apply late b) := by
  unfold judgeWrite
  refine keeps_ite (fun _ => ?_) (fun _ => ?_)
  · refine Keeps.step (folCode_keeps ..) rfl ?_
    exact Keeps.refl _ _
  · split
    · refine Keeps.step (folCode_keeps ..) rfl ?_
      exact Keeps.refl _ _
    · refine keeps_ite (fun _ => ?_) (fun _ => ?_)
      · refine Keeps.step (folCode_keeps ..) rfl ?_
        exact Keeps.refl _ _
      · refine keeps_ite (fun _ => ?_) (fun _ => ?_)
        · refine Keeps.step (folCode_keeps ..) rfl ?_
          exact Keeps.refl _ _
        · refine keeps_ite (fun _ => ?_) (fun _ => ?_)
          · refine Keeps.step (folCode_keeps ..) rfl ?_
            refine Keeps.step (writeRefused_keeps ..) rfl ?_
            exact Keeps.refl _ _
          · refine Keeps.step (acceptWrite_keeps ..) rfl ?_
            exact Keeps.refl _ _

theorem receiving_keeps (s : State) (index sub : Nat) : Keeps [.upd, .stat] s (receiving s index sub) := by
  unfold receiving
  refine keeps_ite (fun _ => ?_) (fun _ => ?_)
  · refine Keeps.step (setStage_keeps ..) rfl ?_
    exact Keeps.refl _ _
  · exact Keeps.refl _ _

theorem takeSegment_keeps (s : State) (x : Session) (src : FolSrc) (f : FolFrame) (t : Transfer) : Keeps [.clk, .time,
    .sup, .nv, .keys, .upd, .dict, .dom, .stat, .pend, .todo, .pipe, .drift, .ports, .byp, .aesIn, .pdm, .drives, .fol,
    .twin, .frames, .rods, .slots, .rot, .moves, .tally, .beam, .ledger, .dram, .mem, .events, .draws, .out] s
    (takeSegment s x src f t) := by
  unfold takeSegment
  refine keeps_ite (fun _ => ?_) (fun _ => ?_)
  · refine Keeps.step (folCode_keeps ..) rfl ?_
    refine Keeps.step (setSession_keeps ..) rfl ?_
    refine Keeps.step (dropTransfer_keeps ..) rfl ?_
    exact Keeps.refl _ _
  · refine keeps_ite (fun _ => ?_) (fun _ => ?_)
    · refine Keeps.step (folCode_keeps ..) rfl ?_
      refine Keeps.step (setSession_keeps ..) rfl ?_
      exact Keeps.refl _ _
    · refine keeps_ite (fun _ => ?_) (fun _ => ?_)
      · refine Keeps.step (unstage_keeps ..) rfl ?_
        refine Keeps.step (judgeWrite_keeps ..) rfl ?_
        refine Keeps.step (setSession_keeps ..) rfl ?_
        exact Keeps.refl _ _
      · refine Keeps.step (judgeWrite_keeps ..) rfl ?_
        refine Keeps.step (setSession_keeps ..) rfl ?_
        exact Keeps.refl _ _

theorem folWriteRun_keeps (src : FolSrc) (f : FolFrame) (s : State) (x : Session) : Keeps [.clk, .time, .sup, .nv,
    .keys, .upd, .dict, .dom, .stat, .pend, .todo, .pipe, .drift, .ports, .byp, .aesIn, .pdm, .drives, .fol, .twin,
    .frames, .rods, .slots, .rot, .moves, .tally, .beam, .ledger, .dram, .mem, .events, .draws, .out] s (folWriteRun src
    f s x) := by
  unfold folWriteRun
  refine keeps_ite (fun _ => ?_) (fun _ => ?_)
  · refine Keeps.step (folCode_keeps ..) rfl ?_
    exact Keeps.refl _ _
  · refine keeps_ite (fun _ => ?_) (fun _ => ?_)
    · refine Keeps.step (judgeWrite_keeps ..) rfl ?_
      exact Keeps.refl _ _
    · refine keeps_ite (fun _ => ?_) (fun _ => ?_)
      · refine Keeps.step (folCode_keeps ..) rfl ?_
        exact Keeps.refl _ _
      · refine Keeps.step (takeSegment_keeps ..) rfl ?_
        refine Keeps.step (receiving_keeps ..) rfl ?_
        exact Keeps.refl _ _

theorem folWriteSegRun_keeps (src : FolSrc) (f : FolFrame) (s : State) (x : Session) : Keeps [.clk, .time, .sup, .nv,
    .keys, .upd, .dict, .dom, .stat, .pend, .todo, .pipe, .drift, .ports, .byp, .aesIn, .pdm, .drives, .fol, .twin,
    .frames, .rods, .slots, .rot, .moves, .tally, .beam, .ledger, .dram, .mem, .events, .draws, .out] s (folWriteSegRun
    src f s x) := by
  unfold folWriteSegRun
  split
  · refine Keeps.step (takeSegment_keeps ..) rfl ?_
    exact Keeps.refl _ _
  · refine Keeps.step (folCode_keeps ..) rfl ?_
    exact Keeps.refl _ _

theorem folAbortRun_keeps (src : FolSrc) (f : FolFrame) (s : State) (x : Session) : Keeps [.upd, .stat, .fol, .out] s
    (folAbortRun src f s x) := by
  unfold folAbortRun
  split
  · refine Keeps.step (folCode_keeps ..) rfl ?_
    refine Keeps.step (setSession_keeps ..) rfl ?_
    refine Keeps.step (dropTransfer_keeps ..) rfl ?_
    exact Keeps.refl _ _
  · refine Keeps.step (folCode_keeps ..) rfl ?_
    exact Keeps.refl _ _

theorem folCloseRun_keeps (src : FolSrc) (f : FolFrame) (s : State) (x : Session) : Keeps [.upd, .stat, .fol, .out] s
    (folCloseRun src f s x) := by
  unfold folCloseRun
  refine Keeps.step (endSessions_keeps ..) rfl ?_
  refine Keeps.step (folCode_keeps ..) rfl ?_
  exact Keeps.refl _ _

theorem sessionTimeout_keeps (s : State) (id : Nat) : Keeps [.upd, .stat, .fol] s (sessionTimeout s id) := by
  unfold sessionTimeout
  refine Keeps.step (endSessions_keeps ..) rfl ?_
  exact Keeps.refl _ _

theorem transferTimeout_keeps (s : State) (id : Nat) : Keeps [.upd, .stat, .fol] s (transferTimeout s id) := by
  unfold transferTimeout
  split
  · split
    · refine keeps_ite (fun _ => ?_) (fun _ => ?_)
      · exact Keeps.refl _ _
      · refine Keeps.step (setSession_keeps ..) rfl ?_
        refine Keeps.step (dropTransfer_keeps ..) rfl ?_
        exact Keeps.refl _ _
    · exact Keeps.refl _ _
  · exact Keeps.refl _ _

theorem forwardReceived_keeps (s : State) (w : Forward) : Keeps [.clk, .time, .sup, .nv, .keys, .upd, .dict, .dom,
    .stat, .pend, .todo, .pipe, .drift, .ports, .byp, .aesIn, .pdm, .drives, .fol, .twin, .frames, .rods, .slots, .rot,
    .moves, .tally, .beam, .ledger, .dram, .mem, .events, .draws, .out] s (forwardReceived s w) := by
  unfold forwardReceived
  split
  · refine Keeps.step (State.sendPort_keeps ..) rfl ?_
    exact Keeps.refl _ _
  · dsimp only
    refine keeps_ite (fun _ => ?_) (fun _ => ?_)
    · refine Keeps.step (State.sendPort_keeps ..) rfl ?_
      refine Keeps.step (writeRefused_keeps ..) rfl ?_
      exact Keeps.refl _ _
    · refine Keeps.step (State.sendPort_keeps ..) rfl ?_
      refine keeps_ite (fun _ => ?_) (fun _ => ?_)
      · refine Keeps.step (writeNow_keeps ..) rfl ?_
        exact Keeps.refl _ _
      · refine keeps_pend rfl ?_
        exact Keeps.refl _ _

theorem lateAnswer_keeps (s : State) (p : Pending) (flags code : Nat) : Keeps [.stat, .fol, .out] s (lateAnswer s p
    flags code) := by
  unfold lateAnswer
  split
  · refine Keeps.step (folAnswer_keeps ..) rfl ?_
    exact Keeps.refl _ _
  · exact Keeps.refl _ _

theorem settled_keeps (s : State) (p : Pending) : Keeps [.pend] s (settled s p) := by
  unfold settled
  refine keeps_pend rfl ?_
  exact Keeps.refl _ _

theorem unmirroredMark_keeps (s : State) (p : Pending) : Keeps [.twin] s (unmirroredMark s p) := by
  unfold unmirroredMark
  refine keeps_twin rfl ?_
  exact Keeps.refl _ _

theorem verdictReceived_keeps (s : State) (keyT code : Nat) : Keeps [.stat, .pend, .fol, .twin, .out] s (verdictReceived
    s keyT code) := by
  unfold verdictReceived
  split
  · refine keeps_ite (fun _ => ?_) (fun _ => ?_)
    · refine Keeps.step (lateAnswer_keeps ..) rfl ?_
      refine Keeps.step (settled_keeps ..) rfl ?_
      exact Keeps.refl _ _
    · refine Keeps.step (lateAnswer_keeps ..) rfl ?_
      refine Keeps.step (unmirroredMark_keeps ..) rfl ?_
      refine Keeps.step (State.bump_keeps ..) rfl ?_
      refine keeps_pend rfl ?_
      exact Keeps.refl _ _
  · exact Keeps.refl _ _

theorem unmirrored_keeps (s : State) (p : Pending) : Keeps [.stat, .pend, .fol, .twin, .events, .out] s (unmirrored s p)
    := by
  unfold unmirrored
  refine Keeps.step (lateAnswer_keeps ..) rfl ?_
  refine Keeps.step (unmirroredMark_keeps ..) rfl ?_
  refine Keeps.step (State.raise_keeps ..) rfl ?_
  refine Keeps.step (State.bump_keeps ..) rfl ?_
  refine Keeps.step (settled_keeps ..) rfl ?_
  exact Keeps.refl _ _

theorem verdictTimeout_keeps (s : State) (keyT : Nat) : Keeps [.clk, .time, .stat, .pend, .fol, .twin, .events, .out] s
    (verdictTimeout s keyT) := by
  unfold verdictTimeout
  split
  · refine keeps_ite (fun _ => ?_) (fun _ => ?_)
    · refine Keeps.step (unmirrored_keeps ..) rfl ?_
      refine Keeps.step (State.elapse_keeps ..) rfl ?_
      exact Keeps.refl _ _
    · refine keeps_ite (fun _ => ?_) (fun _ => ?_)
      · refine Keeps.step (unmirrored_keeps ..) rfl ?_
        exact Keeps.refl _ _
      · exact Keeps.refl _ _
  · exact Keeps.refl _ _

theorem verdictsOverdue_keeps (s : State) : Keeps [.stat, .pend, .fol, .twin, .events, .out] s (verdictsOverdue s) := by
  unfold verdictsOverdue
  refine keeps_foldl (fun _ _ _ => ?_) ?_
  · refine Keeps.step (unmirrored_keeps ..) rfl ?_
    assumption
  · exact Keeps.refl _ _

theorem dropRunTick_keeps (s : State) : Keeps [.fol, .events] s (dropRunTick s) := by
  unfold dropRunTick
  refine keeps_ite (fun _ => ?_) (fun _ => ?_)
  · refine Keeps.step (State.raise_keeps ..) rfl ?_
    refine keeps_fol rfl ?_
    exact Keeps.refl _ _
  · refine keeps_fol rfl ?_
    exact Keeps.refl _ _

theorem execFolOpen_keeps (at_ : Nat) (src : FolSrc) (frame : FolFrame) (s : State) (t : State) (h : execFolOpen at_ src
    frame s = .next t) : Keeps [.clk, .time, .upd, .stat, .fol, .events, .draws, .out] s t := by
  unfold execFolOpen at h
  refine keeps_done h ?_
  dsimp only
  refine keeps_ite (fun _ => ?_) (fun _ => ?_)
  · refine Keeps.step (folOpen_keeps ..) rfl ?_
    refine Keeps.step (folFrameIn_keeps ..) rfl ?_
    refine Keeps.step (State.elapse_keeps ..) rfl ?_
    exact Keeps.refl _ _
  · refine folRequest_step _ _ _ _ rfl (fun _ _ => ?_) ?_
    · exact Keeps.refl _ _
    · refine Keeps.step (folFrameIn_keeps ..) rfl ?_
      refine Keeps.step (State.elapse_keeps ..) rfl ?_
      exact Keeps.refl _ _

theorem execFolClose_keeps (at_ : Nat) (src : FolSrc) (frame : FolFrame) (s : State) (t : State) (h : execFolClose at_
    src frame s = .next t) : Keeps [.clk, .time, .upd, .stat, .fol, .events, .out] s t := by
  unfold execFolClose at h
  refine keeps_done h ?_
  refine folRequest_step _ _ _ _ rfl (fun _ _ => ?_) ?_
  · refine Keeps.step (folCloseRun_keeps ..) rfl ?_
    exact Keeps.refl _ _
  · refine Keeps.step (folFrameIn_keeps ..) rfl ?_
    refine Keeps.step (State.elapse_keeps ..) rfl ?_
    exact Keeps.refl _ _

theorem execFolRead_keeps (at_ : Nat) (src : FolSrc) (frame : FolFrame) (s : State) (t : State) (h : execFolRead at_ src
    frame s = .next t) : Keeps [.clk, .time, .upd, .stat, .fol, .events, .out] s t := by
  unfold execFolRead at h
  refine keeps_done h ?_
  refine folRequest_step _ _ _ _ rfl (fun _ _ => ?_) ?_
  · refine Keeps.step (folReadRun_keeps ..) rfl ?_
    exact Keeps.refl _ _
  · refine Keeps.step (folFrameIn_keeps ..) rfl ?_
    refine Keeps.step (State.elapse_keeps ..) rfl ?_
    exact Keeps.refl _ _

theorem execFolWrite_keeps (at_ : Nat) (src : FolSrc) (frame : FolFrame) (s : State) (t : State) (h : execFolWrite at_
    src frame s = .next t) : Keeps [.clk, .time, .sup, .nv, .keys, .upd, .dict, .dom, .stat, .pend, .todo, .pipe,
    .drift, .ports, .byp, .aesIn, .pdm, .drives, .fol, .twin, .frames, .rods, .slots, .rot, .moves, .tally, .beam,
    .ledger, .dram, .mem, .events, .draws, .out] s t := by
  unfold execFolWrite at h
  refine keeps_done h ?_
  refine folRequest_step _ _ _ _ rfl (fun _ _ => ?_) ?_
  · refine Keeps.step (folWriteRun_keeps ..) rfl ?_
    exact Keeps.refl _ _
  · refine Keeps.step (folFrameIn_keeps ..) rfl ?_
    refine Keeps.step (State.elapse_keeps ..) rfl ?_
    exact Keeps.refl _ _

theorem execFolReadSeg_keeps (at_ : Nat) (src : FolSrc) (frame : FolFrame) (s : State) (t : State) (h : execFolReadSeg
    at_ src frame s = .next t) : Keeps [.clk, .time, .upd, .stat, .fol, .events, .out] s t := by
  unfold execFolReadSeg at h
  refine keeps_done h ?_
  refine folRequest_step _ _ _ _ rfl (fun _ _ => ?_) ?_
  · refine Keeps.step (folSegRun_keeps ..) rfl ?_
    exact Keeps.refl _ _
  · refine Keeps.step (folFrameIn_keeps ..) rfl ?_
    refine Keeps.step (State.elapse_keeps ..) rfl ?_
    exact Keeps.refl _ _

theorem execFolWriteSeg_keeps (at_ : Nat) (src : FolSrc) (frame : FolFrame) (s : State) (t : State) (h : execFolWriteSeg
    at_ src frame s = .next t) : Keeps [.clk, .time, .sup, .nv, .keys, .upd, .dict, .dom, .stat, .pend, .todo, .pipe,
    .drift, .ports, .byp, .aesIn, .pdm, .drives, .fol, .twin, .frames, .rods, .slots, .rot, .moves, .tally, .beam,
    .ledger, .dram, .mem, .events, .draws, .out] s t := by
  unfold execFolWriteSeg at h
  refine keeps_done h ?_
  refine folRequest_step _ _ _ _ rfl (fun _ _ => ?_) ?_
  · refine Keeps.step (folWriteSegRun_keeps ..) rfl ?_
    exact Keeps.refl _ _
  · refine Keeps.step (folFrameIn_keeps ..) rfl ?_
    refine Keeps.step (State.elapse_keeps ..) rfl ?_
    exact Keeps.refl _ _

theorem execFolXferAbort_keeps (at_ : Nat) (src : FolSrc) (frame : FolFrame) (s : State) (t : State) (h :
    execFolXferAbort at_ src frame s = .next t) : Keeps [.clk, .time, .upd, .stat, .fol, .events, .out] s t := by
  unfold execFolXferAbort at h
  refine keeps_done h ?_
  refine folRequest_step _ _ _ _ rfl (fun _ _ => ?_) ?_
  · refine Keeps.step (folAbortRun_keeps ..) rfl ?_
    exact Keeps.refl _ _
  · refine Keeps.step (folFrameIn_keeps ..) rfl ?_
    refine Keeps.step (State.elapse_keeps ..) rfl ?_
    exact Keeps.refl _ _

theorem execFolKeepalive_keeps (at_ : Nat) (src : FolSrc) (frame : FolFrame) (s : State) (t : State) (h :
    execFolKeepalive at_ src frame s = .next t) : Keeps [.clk, .time, .upd, .stat, .fol, .events, .out] s t := by
  unfold execFolKeepalive at h
  refine keeps_done h ?_
  refine folRequest_step _ _ _ _ rfl (fun _ _ => ?_) ?_
  · refine Keeps.step (folCode_keeps ..) rfl ?_
    exact Keeps.refl _ _
  · refine Keeps.step (folFrameIn_keeps ..) rfl ?_
    refine Keeps.step (State.elapse_keeps ..) rfl ?_
    exact Keeps.refl _ _

theorem folIdentIn_keeps (s : State) (x : Session) (src : FolSrc) (frame : FolFrame) : Keeps [.stat, .fol, .out] s
    (folIdentIn s x src frame) := by
  unfold folIdentIn
  refine Keeps.step (folAnswer_keeps ..) rfl ?_
  exact Keeps.refl _ _

theorem folIdentFrame_keeps (s : State) (src : FolSrc) (frame : FolFrame) : Keeps [.upd, .stat, .fol, .out] s
    (folIdentFrame s src frame) := by
  unfold folIdentFrame
  refine keeps_ite (fun _ => ?_) (fun _ => ?_)
  · refine Keeps.step (folIdent_keeps ..) rfl ?_
    exact Keeps.refl _ _
  · refine folRequest_keeps _ _ _ _ _ rfl ?_
    intro hm
    intro hm
    refine Keeps.step (folIdentIn_keeps ..) rfl ?_
    exact Keeps.refl _ _

theorem execFolIdent_keeps (at_ : Nat) (src : FolSrc) (frame : FolFrame) (s : State) (t : State) (h : execFolIdent at_
    src frame s = .next t) : Keeps [.clk, .time, .upd, .stat, .fol, .events, .out] s t := by
  unfold execFolIdent at h
  refine keeps_done h ?_
  refine Keeps.step (folIdentFrame_keeps ..) rfl ?_
  refine Keeps.step (folFrameIn_keeps ..) rfl ?_
  refine Keeps.step (State.elapse_keeps ..) rfl ?_
  exact Keeps.refl _ _

theorem execSessionTimeout_keeps (session : Nat) (s : State) (t : State) (h : execSessionTimeout session s = .next t) :
    Keeps [.upd, .stat, .fol] s t := by
  unfold execSessionTimeout at h
  refine keeps_done h ?_
  refine Keeps.step (sessionTimeout_keeps ..) rfl ?_
  exact Keeps.refl _ _

theorem execTransferTimeout_keeps (session : Nat) (s : State) (t : State) (h : execTransferTimeout session s = .next t)
    : Keeps [.upd, .stat, .fol] s t := by
  unfold execTransferTimeout at h
  refine keeps_done h ?_
  refine Keeps.step (transferTimeout_keeps ..) rfl ?_
  exact Keeps.refl _ _

theorem execWriteForwardReceived_keeps (at_ : Nat) (fwd : Forward) (s : State) (t : State) (h : execWriteForwardReceived
    at_ fwd s = .next t) : Keeps [.clk, .time, .sup, .nv, .keys, .upd, .dict, .dom, .stat, .pend, .todo, .pipe, .drift,
    .ports, .byp, .aesIn, .pdm, .drives, .fol, .twin, .frames, .rods, .slots, .rot, .moves, .tally, .beam, .ledger,
    .dram, .mem, .events, .draws, .out] s t := by
  unfold execWriteForwardReceived at h
  refine keeps_done h ?_
  refine Keeps.step (forwardReceived_keeps ..) rfl ?_
  refine Keeps.step (State.heard_keeps ..) rfl ?_
  refine Keeps.step (State.elapse_keeps ..) rfl ?_
  exact Keeps.refl _ _

theorem execWriteVerdictReceived_keeps (at_ keyT code : Nat) (s : State) (t : State) (h : execWriteVerdictReceived at_
    keyT code s = .next t) : Keeps [.clk, .time, .stat, .pend, .fol, .twin, .events, .out] s t := by
  unfold execWriteVerdictReceived at h
  refine keeps_done h ?_
  refine Keeps.step (verdictReceived_keeps ..) rfl ?_
  refine Keeps.step (State.heard_keeps ..) rfl ?_
  refine Keeps.step (State.elapse_keeps ..) rfl ?_
  exact Keeps.refl _ _

theorem execVerdictTimeout_keeps (keyT : Nat) (s : State) (t : State) (h : execVerdictTimeout keyT s = .next t) : Keeps
    [.clk, .time, .stat, .pend, .fol, .twin, .events, .out] s t := by
  unfold execVerdictTimeout at h
  refine keeps_done h ?_
  refine Keeps.step (verdictTimeout_keeps ..) rfl ?_
  exact Keeps.refl _ _

theorem execWriteApply_keeps (s : State) (t : State) (h : execWriteApply s = .next t) : Keeps [.clk, .time, .sup, .nv,
    .keys, .upd, .dict, .dom, .stat, .pend, .todo, .pipe, .drift, .ports, .byp, .aesIn, .pdm, .drives, .fol, .twin,
    .frames, .rods, .slots, .rot, .moves, .tally, .beam, .ledger, .dram, .mem, .events, .draws, .out] s t := by
  unfold execWriteApply at h
  refine keeps_done h ?_
  refine Keeps.step (applyDue_keeps ..) rfl ?_
  exact Keeps.refl _ _

end Sys2Proof.Machine
end

