-- ==== Sys2Proof/Laws/KeepsJoin.lean ====
section
/-! SUPPORT. The parts of the state that each function of Machine/Join.lean may change. -/
set_option linter.unreachableTactic false
set_option linter.unusedTactic false

namespace Sys2Proof.Machine

theorem joinCapture_keeps (s : State) : Keeps [.stat, .twin, .out] s (joinCapture s) := by
  unfold joinCapture
  dsimp only
  refine keeps_ite (fun _ => ?_) (fun _ => ?_)
  · refine keeps_twin rfl ?_
    exact Keeps.refl _ _
  · refine keeps_ite (fun _ => ?_) (fun _ => ?_)
    · refine Keeps.step (State.sendPort_keeps ..) rfl ?_
      refine keeps_twin rfl ?_
      exact Keeps.refl _ _
    · refine keeps_twin rfl ?_
      exact Keeps.refl _ _

theorem atImage_keeps (s : State) (m : JoinImage) : Keeps [.clk, .nv, .dict, .dom, .hist, .domHist, .pend, .pipe,
    .drift, .twin] s (atImage s m) := by
  refine ⟨fun q hq => ?_⟩
  cases q <;> first | rfl | exact absurd (Part.isIn_of rfl) hq

theorem replayTick_keeps (s : State) : Keeps (Part.allBut [.power, .statB, .seen, .rx, .tx, .aesOut, .rails, .carrier,
    .gpio, .pending]) s (replayTick s) := by
  unfold replayTick
  refine Keeps.step (corrTurn_keeps ..) rfl ?_
  refine Keeps.step (placeBlock_keeps ..) rfl ?_
  refine Keeps.step (drainArrivals_keeps ..) rfl ?_
  refine keeps_pipe rfl ?_
  refine Keeps.step (applyDue_keeps ..) rfl ?_
  refine keeps_clk_hist_domHist rfl rfl rfl ?_
  exact Keeps.refl _ _

theorem replay_keeps (n : Nat) (s : State) : Keeps (Part.allBut [.power, .statB, .seen, .rx, .tx, .aesOut, .rails,
    .carrier, .gpio, .pending]) s (replay n s) := by
  induction n generalizing s with
  | zero => exact Keeps.refl _ _
  | succ n ih => exact Keeps.step (ih _) rfl (replayTick_keeps s)

theorem storeSets_keeps (s : State) : Keeps [.nv, .stat, .pipe, .twin, .ledger, .dram, .mem, .events, .draws] s
    (storeSets s) := by
  unfold storeSets
  refine keeps_foldl (fun _ _ _ => ?_) ?_
  · dsimp only
    refine Keeps.step (storeCopy_keeps ..) rfl ?_
    refine Keeps.step (storeBank_keeps ..) rfl ?_
    refine Keeps.step (storeBank_keeps ..) rfl ?_
    assumption
  · exact Keeps.refl _ _

theorem installImage_keeps (s : State) (m : JoinImage) : Keeps [.time, .nv, .dict, .dom, .hist, .domHist, .stat, .pend,
    .pipe, .drift, .twin, .ledger, .dram, .mem, .events, .draws] s (installImage s m) := by
  unfold installImage
  refine keeps_foldl (fun _ _ h => Keeps.step (joinPulse_keeps ..) rfl h) ?_
  refine keeps_foldl (fun _ _ h => Keeps.step (corrStatus_keeps ..) rfl h) ?_
  refine Keeps.step (storeSets_keeps ..) rfl ?_
  refine Keeps.step (State.stset_keeps ..) rfl ?_
  refine ⟨fun q hq => ?_⟩
  cases q <;> first | rfl | exact absurd (Part.isIn_of rfl) hq

theorem execJoinImageComplete_keeps (image : JoinImage) (s : State) (t : State) (h : execJoinImageComplete image s =
    .next t) : Keeps [.time, .nv, .dict, .dom, .hist, .domHist, .stat, .pend, .pipe, .drift, .twin, .ledger, .dram, .mem,
    .events, .draws] s t := by
  unfold execJoinImageComplete at h
  refine keeps_done h ?_
  refine keeps_ite (fun _ => ?_) (fun _ => ?_)
  · refine Keeps.step (State.heard_keeps ..) rfl ?_
    refine Keeps.step (installImage_keeps ..) rfl ?_
    exact Keeps.refl _ _
  · exact Keeps.refl _ _

theorem fillEnd_keeps (s : State) (caughtUp : Bool) : Keeps [.twin] s (fillEnd s caughtUp) := by
  unfold fillEnd
  refine keeps_ite (fun _ => ?_) (fun _ => ?_)
  · refine keeps_twin rfl ?_
    exact Keeps.refl _ _
  · exact Keeps.refl _ _

theorem execJoinFillEnd_keeps (caughtUp : Bool) (s : State) (t : State) (h : execJoinFillEnd caughtUp s = .next t) :
    Keeps [.twin] s t := by
  unfold execJoinFillEnd at h
  refine keeps_done h ?_
  refine Keeps.step (fillEnd_keeps ..) rfl ?_
  refine keeps_twin rfl ?_
  exact Keeps.refl _ _

theorem fillTick_keeps (s : State) : Keeps [.twin] s (fillTick s) := by
  unfold fillTick
  refine Keeps.step (fillEnd_keeps ..) rfl ?_
  exact Keeps.refl _ _

theorem joinCutSend_keeps (s : State) : Keeps [.stat, .out] s (joinCutSend s) := by
  unfold joinCutSend
  refine keeps_ite (fun _ => ?_) (fun _ => ?_)
  · refine Keeps.step (State.sendPort_keeps ..) rfl ?_
    exact Keeps.refl _ _
  · exact Keeps.refl _ _

theorem cutFeeds_keeps (s : State) (c : JoinCut) : Keeps [.pipe] s (cutFeeds s c) := by
  unfold cutFeeds
  refine keeps_foldl (fun _ _ _ => ?_) ?_
  · refine Keeps.step (State.setFeed_keeps ..) rfl ?_
    assumption
  · exact Keeps.refl _ _

theorem cutAes_keeps (s : State) (c : JoinCut) : Keeps [.aesIn] s (cutAes s c) := by
  unfold cutAes
  refine keeps_foldl (fun _ _ _ => ?_) ?_
  · refine keeps_ite (fun _ => ?_) (fun _ => ?_)
    · refine Keeps.step (setAes_keeps ..) rfl ?_
      assumption
    · assumption
  · exact Keeps.refl _ _

theorem cutBlock_keeps (s : State) : Keeps [.nv, .stat, .pipe, .twin, .ledger, .dram, .mem, .events, .draws] s
    (cutBlock s) :=
  Keeps.step (outputBus_keeps ..) rfl (Keeps.step (corrTurn_keeps ..) rfl (Keeps.refl _ _))

theorem cutReplay_keeps (s : State) : Keeps [.nv, .stat, .pipe, .twin, .ledger, .dram, .mem, .events, .draws] s
    (cutReplay s) := by
  unfold cutReplay
  exact Keeps.step (cutBlock_keeps ..) rfl (keeps_pipe_ledger_dram_mem rfl rfl rfl rfl (Keeps.refl _ _))

theorem slotItemAgain_keeps (s : State) (u block : Nat) : Keeps [.stat, .tally] s (slotItemAgain s u block) := by
  unfold slotItemAgain
  refine keeps_ite (fun _ => ?_) (fun _ => ?_)
  · refine Keeps.step (accept_keeps ..) rfl ?_
    exact Keeps.refl _ _
  · exact Keeps.refl _ _

theorem emptyQueue_keeps (s : State) (q : Nat) : Keeps [.tally] s (emptyQueue s q) := by
  unfold emptyQueue
  refine Keeps.step (State.setQueue_keeps ..) rfl ?_
  exact Keeps.refl _ _

theorem restartSlots_keeps (s : State) : Keeps [.stat, .twin, .rods, .slots, .tally, .mem, .events] s (restartSlots s)
    := by
  unfold restartSlots
  refine keeps_foldl (fun _ _ _ => ?_) ?_
  · dsimp only
    split
    · refine keeps_ite (fun _ => ?_) (fun _ => ?_)
      · refine Keeps.step (slotItemAgain_keeps ..) rfl ?_
        refine Keeps.step (slotItemAgain_keeps ..) rfl ?_
        refine Keeps.step (emptyQueue_keeps ..) rfl ?_
        refine Keeps.step (setSlot_keeps ..) rfl ?_
        refine Keeps.step (loadRod_keeps ..) rfl ?_
        assumption
      · assumption
    · assumption
  · exact Keeps.refl _ _

theorem installCut_keeps (s : State) (c : JoinCut) : Keeps [.nv, .stat, .pipe, .drift, .aesIn, .twin, .rods, .slots,
    .tally, .ledger, .dram, .mem, .events, .draws] s (installCut s c) := by
  unfold installCut
  dsimp only
  refine Keeps.step (restartSlots_keeps ..) rfl ?_
  refine keeps_ite (fun _ => ?_) (fun _ => ?_)
  · refine Keeps.step (driftSlew_keeps ..) rfl ?_
    refine keeps_foldl (fun _ _ _ => ?_) ?_
    · refine Keeps.step (State.stset_keeps ..) rfl ?_
      assumption
    · refine keeps_drift_twin rfl rfl ?_
      refine Keeps.step (cutAes_keeps ..) rfl ?_
      refine Keeps.step (cutFeeds_keeps ..) rfl ?_
      exact Keeps.refl _ _
  · refine Keeps.step (cutReplay_keeps ..) rfl ?_
    refine Keeps.step (driftSlew_keeps ..) rfl ?_
    refine keeps_foldl (fun _ _ _ => ?_) ?_
    · refine Keeps.step (State.stset_keeps ..) rfl ?_
      assumption
    · refine keeps_drift_twin rfl rfl ?_
      refine Keeps.step (cutAes_keeps ..) rfl ?_
      refine Keeps.step (cutFeeds_keeps ..) rfl ?_
      exact Keeps.refl _ _

theorem execJoinCutInstall_keeps (cut : JoinCut) (inTime : Bool) (s : State) (t : State) (h : execJoinCutInstall cut
    inTime s = .next t) : Keeps [.clk, .time, .nv, .stat, .pipe, .drift, .aesIn, .twin, .rods, .slots, .tally, .ledger,
    .dram, .mem, .events, .draws] s t := by
  unfold execJoinCutInstall at h
  refine keeps_done h ?_
  refine keeps_ite (fun _ => ?_) (fun _ => ?_)
  · refine keeps_ite (fun _ => ?_) (fun _ => ?_)
    · refine Keeps.step (State.heard_keeps ..) rfl ?_
      refine Keeps.step (installCut_keeps ..) rfl ?_
      exact Keeps.refl _ _
    · refine Keeps.step (joinRestart_keeps ..) rfl ?_
      exact Keeps.refl _ _
  · exact Keeps.refl _ _

theorem cutOverdue_keeps (s : State) : Keeps [.clk, .time, .stat, .pipe, .twin, .events] s (cutOverdue s) := by
  unfold cutOverdue
  refine keeps_ite (fun _ => ?_) (fun _ => ?_)
  · refine Keeps.step (joinRestart_keeps ..) rfl ?_
    exact Keeps.refl _ _
  · exact Keeps.refl _ _

theorem verifyEnd_keeps (s : State) : Keeps [.stat, .twin, .events] s (verifyEnd s) := by
  unfold verifyEnd
  refine keeps_ite (fun _ => ?_) (fun _ => ?_)
  · refine Keeps.step (State.raise_keeps ..) rfl ?_
    refine Keeps.step (State.stset_keeps ..) rfl ?_
    refine Keeps.step (State.bump_keeps ..) rfl ?_
    refine keeps_twin rfl ?_
    exact Keeps.refl _ _
  · exact Keeps.refl _ _

theorem execJoinVerifyEnd_keeps (s : State) (t : State) (h : execJoinVerifyEnd s = .next t) : Keeps [.stat, .twin,
    .events] s t := by
  unfold execJoinVerifyEnd at h
  refine keeps_done h ?_
  refine Keeps.step (verifyEnd_keeps ..) rfl ?_
  exact Keeps.refl _ _

theorem joinTick_keeps (s : State) : Keeps [.clk, .time, .stat, .pipe, .twin, .events, .out] s (joinTick s) := by
  unfold joinTick
  refine Keeps.step (joinCutSend_keeps ..) rfl ?_
  refine Keeps.step (joinCapture_keeps ..) rfl ?_
  refine Keeps.step (verifyEnd_keeps ..) rfl ?_
  refine Keeps.step (cutOverdue_keeps ..) rfl ?_
  exact Keeps.refl _ _

end Sys2Proof.Machine
end

