-- ==== Sys2Proof/Laws/KeepsPipeline.lean ====
section
/-! SUPPORT. The parts of the state that each function of Machine/Pipeline.lean may change. -/
set_option linter.unreachableTactic false
set_option linter.unusedTactic false

namespace Sys2Proof.Machine

theorem windowBlock_keeps (s : State) (o x : Nat) : Keeps [.stat, .twin, .ledger, .events] s (windowBlock s o x).1 := by
  unfold windowBlock
  split
  dsimp only
  refine keeps_fst (by assumption) ?_
  refine Keeps.step (lineRead_keeps ..) rfl ?_
  exact Keeps.refl _ _

theorem deepCopy_keeps (s : State) : Keeps [.nv, .stat, .pipe, .twin, .ledger, .dram, .mem, .events, .draws] s (deepCopy
    s) := by
  unfold deepCopy
  dsimp only
  refine keeps_foldl (fun _ _ _ => ?_) ?_
  · refine keeps_ite (fun _ => ?_) (fun _ => ?_)
    · refine Keeps.step (dramBurst_keeps ..) rfl ?_
      refine Keeps.step (lineRead_keeps ..) rfl ?_
      assumption
    · refine Keeps.step (burstEnd_keeps ..) rfl ?_
      refine keeps_foldl (fun _ _ _ => ?_) ?_
      · refine keeps_foldl (fun _ _ _ => ?_) ?_
        · refine Keeps.step (activate_keeps ..) rfl ?_
          assumption
        · assumption
      · refine Keeps.step (wakeDram_keeps ..) rfl ?_
        assumption
  · exact Keeps.refl _ _

theorem objectLine_keeps (ins : SMap (List Int)) (missed : List Nat) (s : State) (o : Nat) : Keeps [.stat, .pipe, .twin,
    .ledger, .mem, .events] s (objectLine ins missed s o) := by
  unfold objectLine
  dsimp only
  refine keeps_pipe rfl ?_
  refine Keeps.step (ledgerWrite_keeps ..) rfl ?_
  split
  · refine Keeps.step (windowBlock_keeps ..) rfl ?_
    exact Keeps.refl _ _
  · dsimp only
    exact Keeps.refl _ _

theorem groupInputs_keeps (s : State) (ins : SMap (List Int)) : Keeps [.stat, .ledger, .mem] s (groupInputs s ins) := by
  unfold groupInputs
  dsimp only
  refine keeps_ite (fun _ => ?_) (fun _ => ?_)
  · refine keeps_foldl (fun _ _ _ => ?_) ?_
    · refine keeps_ite (fun _ => ?_) (fun _ => ?_)
      · assumption
      · refine Keeps.step (groupWrite_keeps ..) rfl ?_
        assumption
    · exact Keeps.refl _ _
  · refine Keeps.step (groupWrite_keeps ..) rfl ?_
    refine keeps_foldl (fun _ _ _ => ?_) ?_
    · refine keeps_ite (fun _ => ?_) (fun _ => ?_)
      · assumption
      · refine Keeps.step (groupWrite_keeps ..) rfl ?_
        assumption
    · exact Keeps.refl _ _

theorem ingressCommit_keeps (s : State) (missed : List Nat) (pdm : List (Nat × List Bool)) : Keeps [.stat, .pipe, .rx,
    .aesIn, .pdm, .twin, .tally, .beam, .ledger, .dram, .mem, .events] s (ingressCommit s missed pdm) := by
  unfold ingressCommit
  refine keeps_ite (fun _ => ?_) (fun _ => ?_)
  · exact Keeps.refl _ _
  · refine keeps_ite (fun _ => ?_) (fun _ => ?_)
    · dsimp only
      refine keeps_ite (fun _ => ?_) (fun _ => ?_)
      · refine Keeps.step (pdmIdle_keeps ..) rfl ?_
        exact Keeps.refl _ _
      · refine keeps_pipe rfl ?_
        refine Keeps.step (pdmIdle_keeps ..) rfl ?_
        exact Keeps.refl _ _
    · dsimp only
      refine Keeps.step (deadlinePurge_keeps ..) rfl ?_
      refine Keeps.step (stageMiss_keeps ..) rfl ?_
      refine keeps_pipe rfl ?_
      refine Keeps.step (groupInputs_keeps ..) rfl ?_
      refine keeps_foldl (fun _ _ _ => ?_) ?_
      · refine Keeps.step (objectLine_keeps ..) rfl ?_
        assumption
      · refine Keeps.step (pdmCommit_keeps ..) rfl ?_
        refine Keeps.step (aesCommit_keeps ..) rfl ?_
        refine Keeps.step (rxCommit_keeps ..) rfl ?_
        refine keeps_ite (fun _ => ?_) (fun _ => ?_)
        · refine Keeps.step (portsRise_keeps ..) rfl ?_
          refine Keeps.step (freshLines_keeps ..) rfl ?_
          refine keeps_foldl (fun _ _ _ => ?_) ?_
          · refine Keeps.step (shadowCutoff_keeps ..) rfl ?_
            assumption
          · exact Keeps.refl _ _
        · refine keeps_foldl (fun _ _ _ => ?_) ?_
          · refine Keeps.step (shadowCutoff_keeps ..) rfl ?_
            assumption
          · exact Keeps.refl _ _

theorem execIngressCommit_keeps (missed : List Nat) (pdm : List (Nat × List Bool)) (s : State) (t : State) (h :
    execIngressCommit missed pdm s = .next t) : Keeps [.clk, .time, .stat, .pipe, .rx, .aesIn, .pdm, .twin, .tally,
    .beam, .ledger, .dram, .mem, .events] s t := by
  unfold execIngressCommit at h
  refine keeps_done h ?_
  refine keeps_ite (fun _ => ?_) (fun _ => ?_)
  · refine Keeps.step (ingressCommit_keeps ..) rfl ?_
    refine Keeps.step (State.elapse_keeps ..) rfl ?_
    exact Keeps.refl _ _
  · exact Keeps.refl _ _

theorem slotInput_keeps (s : State) (code : Nat) : Keeps [.stat, .twin, .ledger, .events] s (slotInput s code).1 := by
  unfold slotInput
  dsimp only
  split
  · dsimp only
    refine Keeps.step (lineRead_keeps ..) rfl ?_
    exact Keeps.refl _ _
  · split
    · dsimp only
      exact Keeps.refl _ _
    · split
      · dsimp only
        exact Keeps.refl _ _
      · dsimp only
        exact Keeps.refl _ _

theorem slotInputBytes_keeps (s : State) (u : Nat) : Keeps [.stat, .twin, .ledger, .events] s (slotInputBytes s u).1 :=
    by
  unfold slotInputBytes
  split
  dsimp only
  refine keeps_fst (by assumption) ?_
  refine keeps_foldl_fst (fun _ _ _ => ?_) ?_
  · split
    dsimp only
    refine keeps_fst (by assumption) ?_
    refine Keeps.step (slotInput_keeps ..) rfl ?_
    assumption
  · dsimp only
    exact Keeps.refl _ _

theorem placeSlotItem_keeps (s : State) (u : Nat) : Keeps [.stat, .twin, .slots, .tally, .ledger, .mem, .events] s
    (placeSlotItem s u) := by
  unfold placeSlotItem
  dsimp only
  refine keeps_ite (fun _ => ?_) (fun _ => ?_)
  · refine keeps_ite (fun _ => ?_) (fun _ => ?_)
    · refine Keeps.step (accept_keeps ..) rfl ?_
      refine Keeps.step (ledgerWrite_keeps ..) rfl ?_
      refine Keeps.step (slotInputBytes_keeps ..) rfl ?_
      refine Keeps.step (setSlot_keeps ..) rfl ?_
      exact Keeps.refl _ _
    · refine Keeps.step (ledgerWrite_keeps ..) rfl ?_
      refine Keeps.step (slotInputBytes_keeps ..) rfl ?_
      refine Keeps.step (setSlot_keeps ..) rfl ?_
      exact Keeps.refl _ _
  · refine Keeps.step (setSlot_keeps ..) rfl ?_
    exact Keeps.refl _ _

theorem placeSlotItems_keeps (s : State) : Keeps [.stat, .twin, .slots, .tally, .ledger, .mem, .events] s
    (placeSlotItems s) := by
  unfold placeSlotItems
  refine keeps_foldl (fun _ _ _ => ?_) ?_
  · refine Keeps.step (placeSlotItem_keeps ..) rfl ?_
    assumption
  · exact Keeps.refl _ _

theorem publishSlot_keeps (missed : List Nat) (acc : State × SMap (List Int)) (u : Nat) : Keeps [.stat, .slots, .ledger,
    .events] acc.1 (publishSlot missed acc u).1 := by
  unfold publishSlot
  split
  dsimp only
  split
  · refine Keeps.step (setSlot_keeps ..) rfl ?_
    refine keeps_ite (fun _ => ?_) (fun _ => ?_)
    · exact Keeps.refl _ _
    · refine Keeps.step (ledgerRead_keeps ..) rfl ?_
      exact Keeps.refl _ _
  · refine Keeps.step (setSlot_keeps ..) rfl ?_
    exact Keeps.refl _ _

theorem busDeadline_keeps (s : State) (incomplete users : List Nat) : Keeps [.stat, .pipe, .twin, .tally, .beam,
    .events] s (busDeadline s incomplete users) := by
  unfold busDeadline
  refine keeps_ite (fun _ => ?_) (fun _ => ?_)
  · exact Keeps.refl _ _
  · dsimp only
    refine Keeps.step (deadlinePurge_keeps ..) rfl ?_
    refine Keeps.step (stageMiss_keeps ..) rfl ?_
    refine keeps_foldl (fun _ _ _ => ?_) ?_
    · refine Keeps.step (State.bump_keeps ..) rfl ?_
      assumption
    · refine keeps_pipe rfl ?_
      exact Keeps.refl _ _

theorem execOutputBusDeadline_keeps (incomplete userSlots : List Nat) (s : State) (t : State) (h : execOutputBusDeadline
    incomplete userSlots s = .next t) : Keeps [.clk, .time, .stat, .pipe, .twin, .tally, .beam, .events] s t := by
  unfold execOutputBusDeadline at h
  refine keeps_done h ?_
  refine keeps_ite (fun _ => ?_) (fun _ => ?_)
  · refine Keeps.step (busDeadline_keeps ..) rfl ?_
    refine Keeps.step (State.elapse_keeps ..) rfl ?_
    exact Keeps.refl _ _
  · exact Keeps.refl _ _

theorem publishFeed_keeps (acc : State × SMap (List Int)) (f : Nat) : Keeps [.pipe] acc.1 (publishFeed acc f).1 := by
  unfold publishFeed
  refine Keeps.step (State.setFeed_keeps ..) rfl ?_
  exact Keeps.refl _ _

theorem publishFeeds_keeps (s : State) : Keeps [.pipe] s (publishFeeds s).1 := by
  unfold publishFeeds
  split
  · refine keeps_foldl_fst (fun _ _ _ => ?_) ?_
    · refine Keeps.step (publishFeed_keeps ..) rfl ?_
      assumption
    · exact Keeps.refl _ _
  · exact Keeps.refl _ _

theorem publishSlots_keeps (s : State) : Keeps [.stat, .slots, .ledger, .events] s (publishSlots s).1 := by
  unfold publishSlots
  refine keeps_foldl_fst (fun _ _ _ => ?_) ?_
  · refine Keeps.step (publishSlot_keeps ..) rfl ?_
    assumption
  · exact Keeps.refl _ _

theorem publishOutputs_keeps (s : State) : Keeps [.stat, .pipe, .slots, .ledger, .events] s (publishOutputs s) := by
  unfold publishOutputs
  refine keeps_pipe rfl ?_
  refine Keeps.step (publishSlots_keeps ..) rfl ?_
  refine Keeps.step (publishFeeds_keeps ..) rfl ?_
  exact Keeps.refl _ _

theorem publishBuffer_keeps (acc : State × SMap (List Int)) (f : Nat) : Keeps [.pipe] acc.1 (publishBuffer acc f).1 :=
    by
  unfold publishBuffer
  refine Keeps.step (State.setFeed_keeps ..) rfl ?_
  exact Keeps.refl _ _

theorem publishFed_keeps (s : State) : Keeps [.pipe] s (publishFed s).1 := by
  unfold publishFed
  split
  · refine keeps_foldl_fst (fun _ _ _ => ?_) ?_
    · refine Keeps.step (publishBuffer_keeps ..) rfl ?_
      assumption
    · exact Keeps.refl _ _
  · exact Keeps.refl _ _

theorem publishBuffers_keeps (s : State) : Keeps [.pipe] s (publishBuffers s) := by
  unfold publishBuffers
  refine keeps_pipe rfl ?_
  refine Keeps.step (publishFed_keeps ..) rfl ?_
  exact Keeps.refl _ _

theorem publishInputs_keeps (s : State) : Keeps [.stat, .pipe] s (publishInputs s) := by
  unfold publishInputs
  refine keeps_foldl (fun _ _ _ => ?_) ?_
  · refine keeps_ite (fun _ => ?_) (fun _ => ?_)
    · assumption
    · refine Keeps.step (State.bump_keeps ..) rfl ?_
      assumption
  · refine keeps_pipe rfl ?_
    exact Keeps.refl _ _

theorem openTick_keeps (s : State) : Keeps [.pipe] s (openTick s) := by
  unfold openTick
  refine keeps_pipe rfl ?_
  exact Keeps.refl _ _

theorem publish_keeps (s : State) : Keeps [.stat, .pipe, .slots, .ledger, .mem, .events] s (publish s) := by
  unfold publish
  refine Keeps.step (openTick_keeps ..) rfl ?_
  refine Keeps.step (publishInputs_keeps ..) rfl ?_
  refine Keeps.step (publishBuffers_keeps ..) rfl ?_
  refine keeps_ite (fun _ => ?_) (fun _ => ?_)
  · refine Keeps.step (freshFeeds_keeps ..) rfl ?_
    refine Keeps.step (publishOutputs_keeps ..) rfl ?_
    exact Keeps.refl _ _
  · refine Keeps.step (publishOutputs_keeps ..) rfl ?_
    exact Keeps.refl _ _

end Sys2Proof.Machine
end

