-- ==== Sys2Proof/Laws/KeepsBoundary.lean ====
section
/-! SUPPORT. The parts of the state that each function of Machine/Boundary.lean may change. -/
set_option linter.unreachableTactic false
set_option linter.unusedTactic false

namespace Sys2Proof.Machine

theorem endTick_keeps (s : State) : Keeps [.nv, .stat, .pend, .pipe, .rx, .tx, .aesIn, .aesOut, .pdm, .drives, .rails,
    .fol, .twin, .tally, .beam, .ledger, .dram, .mem, .events, .draws, .out] s (endTick s) := by
  unfold endTick
  dsimp only
  refine Keeps.step (migrationCopy_keeps ..) rfl ?_
  refine Keeps.step (idleDram_keeps ..) rfl ?_
  refine Keeps.step (driveTickEnd_keeps ..) rfl ?_
  refine Keeps.step (egress_keeps ..) rfl ?_
  refine Keeps.step (fillTick_keeps ..) rfl ?_
  refine Keeps.step (ingressCommit_keeps ..) rfl ?_
  refine Keeps.step (busDeadline_keeps ..) rfl ?_
  refine Keeps.step (dmDeadline_keeps ..) rfl ?_
  refine keeps_ite (fun _ => ?_) (fun _ => ?_)
  · refine Keeps.step (publishPlacement_keeps ..) rfl ?_
    refine Keeps.step (verdictsOverdue_keeps ..) rfl ?_
    refine keeps_foldl (fun _ _ _ => ?_) ?_
    · refine Keeps.step (shadowCutoff_keeps ..) rfl ?_
      assumption
    · exact Keeps.refl _ _
  · refine Keeps.step (verdictsOverdue_keeps ..) rfl ?_
    refine keeps_foldl (fun _ _ _ => ?_) ?_
    · refine Keeps.step (shadowCutoff_keeps ..) rfl ?_
      assumption
    · exact Keeps.refl _ _

theorem advanceTick_keeps (s : State) : Keeps [.clk, .time, .hist, .domHist, .twin, .events] s (advanceTick s) := by
  unfold advanceTick
  refine keeps_clk_hist_domHist_twin rfl rfl rfl rfl ?_
  refine Keeps.step (State.advance_keeps ..) rfl ?_
  exact Keeps.refl _ _

theorem clearStat_keeps (s : State) (on : Bool) (index lo hi : Nat) : Keeps [.stat] s (clearStat s on index lo hi) := by
  unfold clearStat
  refine keeps_ite (fun _ => ?_) (fun _ => ?_)
  · refine keeps_stat rfl ?_
    exact Keeps.refl _ _
  · exact Keeps.refl _ _

theorem clearTwinStat_keeps (s : State) (on : Bool) : Keeps [.stat] s (clearTwinStat s on) := by
  unfold clearTwinStat
  dsimp only
  refine keeps_ite (fun _ => ?_) (fun _ => ?_)
  · refine Keeps.step (State.stset_keeps ..) rfl ?_
    refine Keeps.step (clearStat_keeps ..) rfl ?_
    refine Keeps.step (clearStat_keeps ..) rfl ?_
    exact Keeps.refl _ _
  · refine Keeps.step (clearStat_keeps ..) rfl ?_
    refine Keeps.step (clearStat_keeps ..) rfl ?_
    exact Keeps.refl _ _

theorem clearNeighbours_keeps (s : State) (on : Bool) : Keeps [.dram] s (clearNeighbours s on) := by
  unfold clearNeighbours
  refine keeps_ite (fun _ => ?_) (fun _ => ?_)
  · refine keeps_dram rfl ?_
    exact Keeps.refl _ _
  · exact Keeps.refl _ _

theorem todoTaken_keeps (s : State) : Keeps [.todo] s (todoTaken s) := by
  unfold todoTaken
  refine keeps_todo rfl ?_
  exact Keeps.refl _ _

theorem takeTodo_keeps (s : State) : Keeps [.stat, .todo, .rails, .dram] s (takeTodo s) := by
  unfold takeTodo
  dsimp only
  refine Keeps.step (todoTaken_keeps ..) rfl ?_
  refine Keeps.step (clearNeighbours_keeps ..) rfl ?_
  refine keeps_foldl (fun _ _ _ => ?_) ?_
  · refine Keeps.step (clearStat_keeps ..) rfl ?_
    assumption
  · refine Keeps.step (clearStat_keeps ..) rfl ?_
    refine Keeps.step (clearStat_keeps ..) rfl ?_
    refine Keeps.step (clearStat_keeps ..) rfl ?_
    refine Keeps.step (clearStat_keeps ..) rfl ?_
    refine Keeps.step (clearTwinStat_keeps ..) rfl ?_
    refine keeps_foldl (fun _ _ _ => ?_) ?_
    · refine Keeps.step (setRail_keeps ..) rfl ?_
      refine Keeps.step (clearStat_keeps ..) rfl ?_
      refine Keeps.step (clearStat_keeps ..) rfl ?_
      assumption
    · refine keeps_foldl (fun _ _ _ => ?_) ?_
      · refine Keeps.step (clearStat_keeps ..) rfl ?_
        assumption
      · refine Keeps.step (clearStat_keeps ..) rfl ?_
        refine keeps_foldl (fun _ _ _ => ?_) ?_
        · refine Keeps.step (clearStat_keeps ..) rfl ?_
          refine Keeps.step (clearStat_keeps ..) rfl ?_
          assumption
        · refine Keeps.step (clearStat_keeps ..) rfl ?_
          refine Keeps.step (clearStat_keeps ..) rfl ?_
          exact Keeps.refl _ _

theorem fecSeen_keeps (s : State) (p corrected uncorrectable : Nat) : Keeps [.stat] s (fecSeen s p corrected
    uncorrectable) := by
  unfold fecSeen
  refine keeps_ite (fun _ => ?_) (fun _ => ?_)
  · refine Keeps.step (State.bump_keeps ..) rfl ?_
    refine Keeps.step (State.bump_keeps ..) rfl ?_
    exact Keeps.refl _ _
  · exact Keeps.refl _ _

theorem observe_keeps (s : State) (o : BoundaryObs) : Keeps [.power, .clk, .time, .stat, .pipe, .twin, .events] s
    (observe s o) := by
  unfold observe
  dsimp only
  refine Keeps.step (actInSeen_keeps ..) rfl ?_
  refine keeps_foldl (fun _ _ _ => ?_) ?_
  · refine Keeps.step (fecSeen_keeps ..) rfl ?_
    assumption
  · refine keeps_power rfl ?_
    exact Keeps.refl _ _

theorem roleTick_keeps (s : State) : Keeps [.clk, .time, .stat, .twin, .events] s (roleTick s) := by
  unfold roleTick
  refine keeps_ite (fun _ => ?_) (fun _ => ?_)
  · refine Keeps.step (setRole_keeps ..) rfl ?_
    exact Keeps.refl _ _
  · exact Keeps.refl _ _

theorem driveBoundary_keeps (s : State) : Keeps [.stat, .drives, .rails, .carrier, .twin] s (driveBoundary s) := by
  unfold driveBoundary
  refine Keeps.step (driveTick_keeps ..) rfl ?_
  refine keeps_ite (fun _ => ?_) (fun _ => ?_)
  · refine Keeps.step (drivesRest_keeps ..) rfl ?_
    exact Keeps.refl _ _
  · exact Keeps.refl _ _

theorem serviceTick_keeps (s : State) : Keeps [.sup, .nv, .upd, .dict, .stat, .pipe, .drift, .tx, .aesOut, .drives,
    .twin, .frames, .rods, .slots, .rot, .moves, .tally, .ledger, .dram, .events] s (serviceTick s) := by
  unfold serviceTick
  dsimp only
  refine Keeps.step (targetedTick_keeps ..) rfl ?_
  refine Keeps.step (selfTestTick_keeps ..) rfl ?_
  refine Keeps.step (restartRods_keeps ..) rfl ?_
  refine Keeps.step (loadIdleFrames_keeps ..) rfl ?_
  refine Keeps.step (updateRotation_keeps ..) rfl ?_
  refine Keeps.step (liveSwitchTick_keeps ..) rfl ?_
  refine Keeps.step (rotationSwitch_keeps ..) rfl ?_
  refine Keeps.step (spareTestStart_keeps ..) rfl ?_
  refine Keeps.step (migrationStart_keeps ..) rfl ?_
  refine Keeps.step (migrationSwitch_keeps ..) rfl ?_
  refine Keeps.step (releaseItems_keeps ..) rfl ?_
  refine Keeps.step (judgeCompute_keeps ..) rfl ?_
  refine Keeps.step (driftTick_keeps ..) rfl ?_
  exact Keeps.refl _ _

theorem twinBoundary_keeps (s : State) (service : Bool) : Keeps [.clk, .time, .stat, .pipe, .byp, .twin, .events, .out]
    s (twinBoundary s service) := by
  unfold twinBoundary
  refine Keeps.step (heartbeatSend_keeps ..) rfl ?_
  refine Keeps.step (roleTick_keeps ..) rfl ?_
  refine Keeps.step (twinTick_keeps ..) rfl ?_
  refine Keeps.step (bypassTick_keeps ..) rfl ?_
  exact Keeps.refl _ _

theorem placementTick_keeps (s : State) : Keeps [.nv, .stat, .pipe, .drift, .twin, .ledger, .dram, .mem, .events,
    .draws] s (placementTick s) := by
  unfold placementTick
  refine keeps_ite (fun _ => ?_) (fun _ => ?_)
  · refine Keeps.step (placeBlock_keeps ..) rfl ?_
    refine keeps_ite (fun _ => ?_) (fun _ => ?_)
    · refine Keeps.step (freshObjects_keeps ..) rfl ?_
      refine keeps_pipe rfl ?_
      refine Keeps.step (driftSlew_keeps ..) rfl ?_
      refine Keeps.step (drainArrivals_keeps ..) rfl ?_
      refine keeps_ite (fun _ => ?_) (fun _ => ?_)
      · refine Keeps.step (deepCopy_keeps ..) rfl ?_
        exact Keeps.refl _ _
      · exact Keeps.refl _ _
    · refine keeps_pipe rfl ?_
      refine Keeps.step (driftSlew_keeps ..) rfl ?_
      refine Keeps.step (drainArrivals_keeps ..) rfl ?_
      refine keeps_ite (fun _ => ?_) (fun _ => ?_)
      · refine Keeps.step (deepCopy_keeps ..) rfl ?_
        exact Keeps.refl _ _
      · exact Keeps.refl _ _
  · refine Keeps.step (drainArrivals_keeps ..) rfl ?_
    refine keeps_ite (fun _ => ?_) (fun _ => ?_)
    · refine Keeps.step (deepCopy_keeps ..) rfl ?_
      exact Keeps.refl _ _
    · exact Keeps.refl _ _

theorem busTick_keeps (s : State) : Keeps [.clk, .time, .nv, .stat, .pipe, .twin, .slots, .tally, .ledger, .dram, .mem,
    .events, .draws, .out] s (busTick s) := by
  unfold busTick
  dsimp only
  refine Keeps.step (placeSlotItems_keeps ..) rfl ?_
  refine keeps_ite (fun _ => ?_) (fun _ => ?_)
  · refine Keeps.step (outputBus_keeps ..) rfl ?_
    refine Keeps.step (corrTurn_keeps ..) rfl ?_
    refine Keeps.step (rewriteBanks_keeps ..) rfl ?_
    refine Keeps.step (joinTick_keeps ..) rfl ?_
    exact Keeps.refl _ _
  · refine Keeps.step (corrTurn_keeps ..) rfl ?_
    refine Keeps.step (rewriteBanks_keeps ..) rfl ?_
    refine Keeps.step (joinTick_keeps ..) rfl ?_
    exact Keeps.refl _ _

theorem inputTick_keeps (s : State) : Keeps [.stat, .rx, .aesIn, .twin] s (inputTick s) := by
  unfold inputTick
  refine Keeps.step (pdmSweep_keeps ..) rfl ?_
  refine Keeps.step (aesSweep_keeps ..) rfl ?_
  refine Keeps.step (rxSweep_keeps ..) rfl ?_
  refine keeps_foldl (fun _ _ _ => ?_) ?_
  · refine Keeps.step (aesApply_keeps ..) rfl ?_
    assumption
  · exact Keeps.refl _ _

theorem tickBoundary_keeps (s : State) (o : BoundaryObs) : Keeps (Part.allBut [.seen, .pending]) s (tickBoundary s o) :=
    by
  unfold tickBoundary
  dsimp only
  refine Keeps.step (statusOf_keeps ..) rfl ?_
  refine Keeps.step (dropRunTick_keeps ..) rfl ?_
  refine Keeps.step (gpioTick_keeps ..) rfl ?_
  refine Keeps.step (inputTick_keeps ..) rfl ?_
  refine Keeps.step (busTick_keeps ..) rfl ?_
  refine Keeps.step (placementTick_keeps ..) rfl ?_
  refine Keeps.step (serviceTick_keeps ..) rfl ?_
  refine Keeps.step (announceTick_keeps ..) rfl ?_
  refine Keeps.step (twinBoundary_keeps ..) rfl ?_
  refine Keeps.step (driveBoundary_keeps ..) rfl ?_
  refine keeps_time rfl ?_
  refine Keeps.step (managementTick_keeps ..) rfl ?_
  refine Keeps.step (applyDue_keeps ..) rfl ?_
  refine Keeps.step (observe_keeps ..) rfl ?_
  refine Keeps.step (publish_keeps ..) rfl ?_
  refine Keeps.step (takeTodo_keeps ..) rfl ?_
  refine Keeps.step (eventsBoundary_keeps ..) rfl ?_
  refine Keeps.step (rebaseApply_keeps ..) rfl ?_
  refine Keeps.step (rebaseFallback_keeps ..) rfl ?_
  refine Keeps.step (showCaptures_keeps ..) rfl ?_
  refine Keeps.step (advanceTick_keeps ..) rfl ?_
  refine Keeps.step (endTick_keeps ..) rfl ?_
  refine keeps_out rfl ?_
  exact Keeps.refl _ _

theorem execTickBoundary_keeps (obs : BoundaryObs) (s t : State) (h : execTickBoundary obs s = .next t) :
    Keeps (Part.allBut [.pending]) s t := by
  unfold execTickBoundary at h
  split at h
  · exact keeps_done h (Keeps.refl _ _)
  · split at h
    · cases h
    · exact keeps_done h (supplySeen_keeps _ rfl (Keeps.step (tickBoundary_keeps ..) rfl (Keeps.refl _ _)))

end Sys2Proof.Machine
end

