-- ==== Sys2Proof/Laws/KeepsRodVector.lean ====
section
/-! SUPPORT. The parts of the state that each function of Machine/RodVector.lean may change. -/
set_option linter.unreachableTactic false
set_option linter.unusedTactic false

namespace Sys2Proof.Machine

theorem parRun_keeps (s : State) (r : Nat) (w : ParWord) (lds : List Nat) : Keeps [.stat, .rods, .mem] s (parRun s r w
    lds) := by
  unfold parRun
  refine Keeps.step (finish_keeps ..) rfl ?_
  split
  · refine keeps_foldl (fun _ _ _ => ?_) ?_
    · refine Keeps.step (dmStore_keeps ..) rfl ?_
      assumption
    · refine Keeps.step (rodNote_keeps ..) rfl ?_
      exact Keeps.refl _ _
  · refine Keeps.step (rodNote_keeps ..) rfl ?_
    exact Keeps.refl _ _

theorem parallel_keeps (s : State) (r : Nat) (w : ParWord) : Keeps [.stat, .twin, .frames, .rods, .slots, .rot, .moves,
    .tally, .mem, .events] s (parallel s r w) := by
  unfold parallel
  refine runWord_keeps _ _ _ rfl (fun _ => ?_)
  refine keeps_ite (fun _ => ?_) (fun _ => ?_)
  · refine Keeps.step (rodFault_keeps ..) rfl ?_
    exact Keeps.refl _ _
  · refine keeps_ite (fun _ => ?_) (fun _ => ?_)
    · refine Keeps.step (rodFault_keeps ..) rfl ?_
      exact Keeps.refl _ _
    · refine keeps_ite (fun _ => ?_) (fun _ => ?_)
      · refine Keeps.step (rodFault_keeps ..) rfl ?_
        exact Keeps.refl _ _
      · refine keeps_ite (fun _ => ?_) (fun _ => ?_)
        · refine Keeps.step (stallWord_keeps ..) rfl ?_
          exact Keeps.refl _ _
        · refine keeps_ite (fun _ => ?_) (fun _ => ?_)
          · refine Keeps.step (rodFault_keeps ..) rfl ?_
            refine Keeps.step (State.setRod_keeps ..) rfl ?_
            exact Keeps.refl _ _
          · refine Keeps.step (parRun_keeps ..) rfl ?_
            exact Keeps.refl _ _

theorem execNop_keeps (rod : Nat) (sl : Slots) (s : State) (t : State) (h : execNop rod sl s = .next t) : Keeps [.stat,
    .twin, .frames, .rods, .slots, .rot, .moves, .tally, .mem, .events] s t := by
  unfold execNop at h
  refine keeps_done h ?_
  refine Keeps.step (parallel_keeps ..) rfl ?_
  exact Keeps.refl _ _

theorem execVmov_keeps (rod vd va : Nat) (sl : Slots) (s : State) (t : State) (h : execVmov rod vd va sl s = .next t) :
    Keeps [.stat, .twin, .frames, .rods, .slots, .rot, .moves, .tally, .mem, .events] s t := by
  unfold execVmov at h
  refine keeps_done h ?_
  refine Keeps.step (parallel_keeps ..) rfl ?_
  exact Keeps.refl _ _

theorem execVadd_keeps (rod vd va vb : Nat) (sl : Slots) (s : State) (t : State) (h : execVadd rod vd va vb sl s = .next
    t) : Keeps [.stat, .twin, .frames, .rods, .slots, .rot, .moves, .tally, .mem, .events] s t := by
  unfold execVadd at h
  refine keeps_done h ?_
  refine Keeps.step (parallel_keeps ..) rfl ?_
  exact Keeps.refl _ _

theorem execVsub_keeps (rod vd va vb : Nat) (sl : Slots) (s : State) (t : State) (h : execVsub rod vd va vb sl s = .next
    t) : Keeps [.stat, .twin, .frames, .rods, .slots, .rot, .moves, .tally, .mem, .events] s t := by
  unfold execVsub at h
  refine keeps_done h ?_
  refine Keeps.step (parallel_keeps ..) rfl ?_
  exact Keeps.refl _ _

theorem execVaddw_keeps (rod vd va vb : Nat) (sl : Slots) (s : State) (t : State) (h : execVaddw rod vd va vb sl s =
    .next t) : Keeps [.stat, .twin, .frames, .rods, .slots, .rot, .moves, .tally, .mem, .events] s t := by
  unfold execVaddw at h
  refine keeps_done h ?_
  refine Keeps.step (parallel_keeps ..) rfl ?_
  exact Keeps.refl _ _

theorem execVsubw_keeps (rod vd va vb : Nat) (sl : Slots) (s : State) (t : State) (h : execVsubw rod vd va vb sl s =
    .next t) : Keeps [.stat, .twin, .frames, .rods, .slots, .rot, .moves, .tally, .mem, .events] s t := by
  unfold execVsubw at h
  refine keeps_done h ?_
  refine Keeps.step (parallel_keeps ..) rfl ?_
  exact Keeps.refl _ _

theorem execVmul_keeps (rod vd va vb : Nat) (sl : Slots) (s : State) (t : State) (h : execVmul rod vd va vb sl s = .next
    t) : Keeps [.stat, .twin, .frames, .rods, .slots, .rot, .moves, .tally, .mem, .events] s t := by
  unfold execVmul at h
  refine keeps_done h ?_
  refine Keeps.step (parallel_keeps ..) rfl ?_
  exact Keeps.refl _ _

theorem execVabs_keeps (rod vd va : Nat) (sl : Slots) (s : State) (t : State) (h : execVabs rod vd va sl s = .next t) :
    Keeps [.stat, .twin, .frames, .rods, .slots, .rot, .moves, .tally, .mem, .events] s t := by
  unfold execVabs at h
  refine keeps_done h ?_
  refine Keeps.step (parallel_keeps ..) rfl ?_
  exact Keeps.refl _ _

theorem execVneg_keeps (rod vd va : Nat) (sl : Slots) (s : State) (t : State) (h : execVneg rod vd va sl s = .next t) :
    Keeps [.stat, .twin, .frames, .rods, .slots, .rot, .moves, .tally, .mem, .events] s t := by
  unfold execVneg at h
  refine keeps_done h ?_
  refine Keeps.step (parallel_keeps ..) rfl ?_
  exact Keeps.refl _ _

theorem execVmin_keeps (rod vd va vb : Nat) (sl : Slots) (s : State) (t : State) (h : execVmin rod vd va vb sl s = .next
    t) : Keeps [.stat, .twin, .frames, .rods, .slots, .rot, .moves, .tally, .mem, .events] s t := by
  unfold execVmin at h
  refine keeps_done h ?_
  refine Keeps.step (parallel_keeps ..) rfl ?_
  exact Keeps.refl _ _

theorem execVmax_keeps (rod vd va vb : Nat) (sl : Slots) (s : State) (t : State) (h : execVmax rod vd va vb sl s = .next
    t) : Keeps [.stat, .twin, .frames, .rods, .slots, .rot, .moves, .tally, .mem, .events] s t := by
  unfold execVmax at h
  refine keeps_done h ?_
  refine Keeps.step (parallel_keeps ..) rfl ?_
  exact Keeps.refl _ _

theorem execVand_keeps (rod vd va vb : Nat) (sl : Slots) (s : State) (t : State) (h : execVand rod vd va vb sl s = .next
    t) : Keeps [.stat, .twin, .frames, .rods, .slots, .rot, .moves, .tally, .mem, .events] s t := by
  unfold execVand at h
  refine keeps_done h ?_
  refine Keeps.step (parallel_keeps ..) rfl ?_
  exact Keeps.refl _ _

theorem execVor_keeps (rod vd va vb : Nat) (sl : Slots) (s : State) (t : State) (h : execVor rod vd va vb sl s = .next
    t) : Keeps [.stat, .twin, .frames, .rods, .slots, .rot, .moves, .tally, .mem, .events] s t := by
  unfold execVor at h
  refine keeps_done h ?_
  refine Keeps.step (parallel_keeps ..) rfl ?_
  exact Keeps.refl _ _

theorem execVxor_keeps (rod vd va vb : Nat) (sl : Slots) (s : State) (t : State) (h : execVxor rod vd va vb sl s = .next
    t) : Keeps [.stat, .twin, .frames, .rods, .slots, .rot, .moves, .tally, .mem, .events] s t := by
  unfold execVxor at h
  refine keeps_done h ?_
  refine Keeps.step (parallel_keeps ..) rfl ?_
  exact Keeps.refl _ _

theorem execVnot_keeps (rod vd va : Nat) (sl : Slots) (s : State) (t : State) (h : execVnot rod vd va sl s = .next t) :
    Keeps [.stat, .twin, .frames, .rods, .slots, .rot, .moves, .tally, .mem, .events] s t := by
  unfold execVnot at h
  refine keeps_done h ?_
  refine Keeps.step (parallel_keeps ..) rfl ?_
  exact Keeps.refl _ _

theorem execVcmpgt_keeps (rod vd va vb : Nat) (sl : Slots) (s : State) (t : State) (h : execVcmpgt rod vd va vb sl s =
    .next t) : Keeps [.stat, .twin, .frames, .rods, .slots, .rot, .moves, .tally, .mem, .events] s t := by
  unfold execVcmpgt at h
  refine keeps_done h ?_
  refine Keeps.step (parallel_keeps ..) rfl ?_
  exact Keeps.refl _ _

theorem execVcmpeq_keeps (rod vd va vb : Nat) (sl : Slots) (s : State) (t : State) (h : execVcmpeq rod vd va vb sl s =
    .next t) : Keeps [.stat, .twin, .frames, .rods, .slots, .rot, .moves, .tally, .mem, .events] s t := by
  unfold execVcmpeq at h
  refine keeps_done h ?_
  refine Keeps.step (parallel_keeps ..) rfl ?_
  exact Keeps.refl _ _

theorem execVshl_keeps (rod vd va n : Nat) (sl : Slots) (s : State) (t : State) (h : execVshl rod vd va n sl s = .next
    t) : Keeps [.stat, .twin, .frames, .rods, .slots, .rot, .moves, .tally, .mem, .events] s t := by
  unfold execVshl at h
  refine keeps_done h ?_
  refine Keeps.step (parallel_keeps ..) rfl ?_
  exact Keeps.refl _ _

theorem execVshr_keeps (rod vd va n : Nat) (sl : Slots) (s : State) (t : State) (h : execVshr rod vd va n sl s = .next
    t) : Keeps [.stat, .twin, .frames, .rods, .slots, .rot, .moves, .tally, .mem, .events] s t := by
  unfold execVshr at h
  refine keeps_done h ?_
  refine Keeps.step (parallel_keeps ..) rfl ?_
  exact Keeps.refl _ _

theorem execVshrl_keeps (rod vd va n : Nat) (sl : Slots) (s : State) (t : State) (h : execVshrl rod vd va n sl s = .next
    t) : Keeps [.stat, .twin, .frames, .rods, .slots, .rot, .moves, .tally, .mem, .events] s t := by
  unfold execVshrl at h
  refine keeps_done h ?_
  refine Keeps.step (parallel_keeps ..) rfl ?_
  exact Keeps.refl _ _

theorem execVperm_keeps (rod vd va vb : Nat) (sl : Slots) (s : State) (t : State) (h : execVperm rod vd va vb sl s =
    .next t) : Keeps [.stat, .twin, .frames, .rods, .slots, .rot, .moves, .tally, .mem, .events] s t := by
  unfold execVperm at h
  refine keeps_done h ?_
  refine Keeps.step (parallel_keeps ..) rfl ?_
  exact Keeps.refl _ _

theorem execVbcst_keeps (rod vd va n : Nat) (sl : Slots) (s : State) (t : State) (h : execVbcst rod vd va n sl s = .next
    t) : Keeps [.stat, .twin, .frames, .rods, .slots, .rot, .moves, .tally, .mem, .events] s t := by
  unfold execVbcst at h
  refine keeps_done h ?_
  refine Keeps.step (parallel_keeps ..) rfl ?_
  exact Keeps.refl _ _

theorem execVmpy_keeps (rod ac va vb : Nat) (sl : Slots) (s : State) (t : State) (h : execVmpy rod ac va vb sl s = .next
    t) : Keeps [.stat, .twin, .frames, .rods, .slots, .rot, .moves, .tally, .mem, .events] s t := by
  unfold execVmpy at h
  refine keeps_done h ?_
  refine Keeps.step (parallel_keeps ..) rfl ?_
  exact Keeps.refl _ _

theorem execVmac_keeps (rod ac va vb : Nat) (sl : Slots) (s : State) (t : State) (h : execVmac rod ac va vb sl s = .next
    t) : Keeps [.stat, .twin, .frames, .rods, .slots, .rot, .moves, .tally, .mem, .events] s t := by
  unfold execVmac at h
  refine keeps_done h ?_
  refine Keeps.step (parallel_keeps ..) rfl ?_
  exact Keeps.refl _ _

theorem execVmsu_keeps (rod ac va vb : Nat) (sl : Slots) (s : State) (t : State) (h : execVmsu rod ac va vb sl s = .next
    t) : Keeps [.stat, .twin, .frames, .rods, .slots, .rot, .moves, .tally, .mem, .events] s t := by
  unfold execVmsu at h
  refine keeps_done h ?_
  refine Keeps.step (parallel_keeps ..) rfl ?_
  exact Keeps.refl _ _

theorem execVclr_keeps (rod ac : Nat) (sl : Slots) (s : State) (t : State) (h : execVclr rod ac sl s = .next t) : Keeps
    [.stat, .twin, .frames, .rods, .slots, .rot, .moves, .tally, .mem, .events] s t := by
  unfold execVclr at h
  refine keeps_done h ?_
  refine Keeps.step (parallel_keeps ..) rfl ?_
  exact Keeps.refl _ _

theorem execVlift_keeps (rod ac va : Nat) (sl : Slots) (s : State) (t : State) (h : execVlift rod ac va sl s = .next t)
    : Keeps [.stat, .twin, .frames, .rods, .slots, .rot, .moves, .tally, .mem, .events] s t := by
  unfold execVlift at h
  refine keeps_done h ?_
  refine Keeps.step (parallel_keeps ..) rfl ?_
  exact Keeps.refl _ _

theorem execVaadd_keeps (rod ac acs : Nat) (sl : Slots) (s : State) (t : State) (h : execVaadd rod ac acs sl s = .next
    t) : Keeps [.stat, .twin, .frames, .rods, .slots, .rot, .moves, .tally, .mem, .events] s t := by
  unfold execVaadd at h
  refine keeps_done h ?_
  refine Keeps.step (parallel_keeps ..) rfl ?_
  exact Keeps.refl _ _

theorem execVasub_keeps (rod ac acs : Nat) (sl : Slots) (s : State) (t : State) (h : execVasub rod ac acs sl s = .next
    t) : Keeps [.stat, .twin, .frames, .rods, .slots, .rot, .moves, .tally, .mem, .events] s t := by
  unfold execVasub at h
  refine keeps_done h ?_
  refine Keeps.step (parallel_keeps ..) rfl ?_
  exact Keeps.refl _ _

theorem execVtrw_keeps (rod ac : Nat) (sl : Slots) (s : State) (t : State) (h : execVtrw rod ac sl s = .next t) : Keeps
    [.stat, .twin, .frames, .rods, .slots, .rot, .moves, .tally, .mem, .events] s t := by
  unfold execVtrw at h
  refine keeps_done h ?_
  refine Keeps.step (parallel_keeps ..) rfl ?_
  exact Keeps.refl _ _

theorem execVred_keeps (rod ac : Nat) (sl : Slots) (s : State) (t : State) (h : execVred rod ac sl s = .next t) : Keeps
    [.stat, .twin, .frames, .rods, .slots, .rot, .moves, .tally, .mem, .events] s t := by
  unfold execVred at h
  refine keeps_done h ?_
  refine Keeps.step (parallel_keeps ..) rfl ?_
  exact Keeps.refl _ _

theorem execVaex_keeps (rod acs : Nat) (sl : Slots) (s : State) (t : State) (h : execVaex rod acs sl s = .next t) :
    Keeps [.stat, .twin, .frames, .rods, .slots, .rot, .moves, .tally, .mem, .events] s t := by
  unfold execVaex at h
  refine keeps_done h ?_
  refine Keeps.step (parallel_keeps ..) rfl ?_
  exact Keeps.refl _ _

theorem execVrd_keeps (rod vd acs n : Nat) (sl : Slots) (s : State) (t : State) (h : execVrd rod vd acs n sl s = .next
    t) : Keeps [.stat, .twin, .frames, .rods, .slots, .rot, .moves, .tally, .mem, .events] s t := by
  unfold execVrd at h
  refine keeps_done h ?_
  refine Keeps.step (parallel_keeps ..) rfl ?_
  exact Keeps.refl _ _

theorem execVrdl_keeps (rod vd acs : Nat) (sl : Slots) (s : State) (t : State) (h : execVrdl rod vd acs sl s = .next t)
    : Keeps [.stat, .twin, .frames, .rods, .slots, .rot, .moves, .tally, .mem, .events] s t := by
  unfold execVrdl at h
  refine keeps_done h ?_
  refine Keeps.step (parallel_keeps ..) rfl ?_
  exact Keeps.refl _ _

theorem execVrdm_keeps (rod vd acs : Nat) (sl : Slots) (s : State) (t : State) (h : execVrdm rod vd acs sl s = .next t)
    : Keeps [.stat, .twin, .frames, .rods, .slots, .rot, .moves, .tally, .mem, .events] s t := by
  unfold execVrdm at h
  refine keeps_done h ?_
  refine Keeps.step (parallel_keeps ..) rfl ?_
  exact Keeps.refl _ _

theorem execVrdh_keeps (rod vd acs : Nat) (sl : Slots) (s : State) (t : State) (h : execVrdh rod vd acs sl s = .next t)
    : Keeps [.stat, .twin, .frames, .rods, .slots, .rot, .moves, .tally, .mem, .events] s t := by
  unfold execVrdh at h
  refine keeps_done h ?_
  refine Keeps.step (parallel_keeps ..) rfl ?_
  exact Keeps.refl _ _

theorem execVwra_keeps (rod ac va vb : Nat) (sl : Slots) (s : State) (t : State) (h : execVwra rod ac va vb sl s = .next
    t) : Keeps [.stat, .twin, .frames, .rods, .slots, .rot, .moves, .tally, .mem, .events] s t := by
  unfold execVwra at h
  refine keeps_done h ?_
  refine Keeps.step (parallel_keeps ..) rfl ?_
  exact Keeps.refl _ _

theorem execVwrh_keeps (rod ac va : Nat) (sl : Slots) (s : State) (t : State) (h : execVwrh rod ac va sl s = .next t) :
    Keeps [.stat, .twin, .frames, .rods, .slots, .rot, .moves, .tally, .mem, .events] s t := by
  unfold execVwrh at h
  refine keeps_done h ?_
  refine Keeps.step (parallel_keeps ..) rfl ?_
  exact Keeps.refl _ _

theorem execVrdx_keeps (rod vd acs : Nat) (sl : Slots) (s : State) (t : State) (h : execVrdx rod vd acs sl s = .next t)
    : Keeps [.stat, .twin, .frames, .rods, .slots, .rot, .moves, .tally, .mem, .events] s t := by
  unfold execVrdx at h
  refine keeps_done h ?_
  refine Keeps.step (parallel_keeps ..) rfl ?_
  exact Keeps.refl _ _

theorem execSmax_keeps (rod va : Nat) (sl : Slots) (s : State) (t : State) (h : execSmax rod va sl s = .next t) : Keeps
    [.stat, .twin, .frames, .rods, .slots, .rot, .moves, .tally, .mem, .events] s t := by
  unfold execSmax at h
  refine keeps_done h ?_
  refine Keeps.step (parallel_keeps ..) rfl ?_
  exact Keeps.refl _ _

theorem execSmin_keeps (rod va : Nat) (sl : Slots) (s : State) (t : State) (h : execSmin rod va sl s = .next t) : Keeps
    [.stat, .twin, .frames, .rods, .slots, .rot, .moves, .tally, .mem, .events] s t := by
  unfold execSmin at h
  refine keeps_done h ?_
  refine Keeps.step (parallel_keeps ..) rfl ?_
  exact Keeps.refl _ _

theorem execSmaxa_keeps (rod va : Nat) (sl : Slots) (s : State) (t : State) (h : execSmaxa rod va sl s = .next t) :
    Keeps [.stat, .twin, .frames, .rods, .slots, .rot, .moves, .tally, .mem, .events] s t := by
  unfold execSmaxa at h
  refine keeps_done h ?_
  refine Keeps.step (parallel_keeps ..) rfl ?_
  exact Keeps.refl _ _

theorem execLdv_keeps (rod v an : Nat) (vop : VOp) (st : Option StSlot) (u1 u2 : Option UpdSlot) (s : State) (t : State)
    (h : execLdv rod v an vop st u1 u2 s = .next t) : Keeps [.stat, .twin, .frames, .rods, .slots, .rot, .moves, .tally,
    .mem, .events] s t := by
  unfold execLdv at h
  refine keeps_done h ?_
  refine Keeps.step (parallel_keeps ..) rfl ?_
  exact Keeps.refl _ _

theorem execLdb_keeps (rod v an : Nat) (vop : VOp) (st : Option StSlot) (u1 u2 : Option UpdSlot) (s : State) (t : State)
    (h : execLdb rod v an vop st u1 u2 s = .next t) : Keeps [.stat, .twin, .frames, .rods, .slots, .rot, .moves, .tally,
    .mem, .events] s t := by
  unfold execLdb at h
  refine keeps_done h ?_
  refine Keeps.step (parallel_keeps ..) rfl ?_
  exact Keeps.refl _ _

theorem execLds_keeps (rod v an : Nat) (vop : VOp) (st : Option StSlot) (u1 u2 : Option UpdSlot) (s : State) (t : State)
    (h : execLds rod v an vop st u1 u2 s = .next t) : Keeps [.stat, .twin, .frames, .rods, .slots, .rot, .moves, .tally,
    .mem, .events] s t := by
  unfold execLds at h
  refine keeps_done h ?_
  refine Keeps.step (parallel_keeps ..) rfl ?_
  exact Keeps.refl _ _

theorem execStv_keeps (rod v an : Nat) (vop : VOp) (ld : Option LdSlot) (u1 u2 : Option UpdSlot) (s : State) (t : State)
    (h : execStv rod v an vop ld u1 u2 s = .next t) : Keeps [.stat, .twin, .frames, .rods, .slots, .rot, .moves, .tally,
    .mem, .events] s t := by
  unfold execStv at h
  refine keeps_done h ?_
  refine Keeps.step (parallel_keeps ..) rfl ?_
  exact Keeps.refl _ _

theorem execStl_keeps (rod v an : Nat) (vop : VOp) (ld : Option LdSlot) (u1 u2 : Option UpdSlot) (s : State) (t : State)
    (h : execStl rod v an vop ld u1 u2 s = .next t) : Keeps [.stat, .twin, .frames, .rods, .slots, .rot, .moves, .tally,
    .mem, .events] s t := by
  unfold execStl at h
  refine keeps_done h ?_
  refine Keeps.step (parallel_keeps ..) rfl ?_
  exact Keeps.refl _ _

theorem execStd_keeps (rod v an : Nat) (vop : VOp) (ld : Option LdSlot) (u1 u2 : Option UpdSlot) (s : State) (t : State)
    (h : execStd rod v an vop ld u1 u2 s = .next t) : Keeps [.stat, .twin, .frames, .rods, .slots, .rot, .moves, .tally,
    .mem, .events] s t := by
  unfold execStd at h
  refine keeps_done h ?_
  refine Keeps.step (parallel_keeps ..) rfl ?_
  exact Keeps.refl _ _

theorem execUpdateLinear_keeps (rod an step : Nat) (vop : VOp) (ld : Option LdSlot) (st : Option StSlot) (u2 : Option
    UpdSlot) (s : State) (t : State) (h : execUpdateLinear rod an step vop ld st u2 s = .next t) : Keeps [.stat, .twin,
    .frames, .rods, .slots, .rot, .moves, .tally, .mem, .events] s t := by
  unfold execUpdateLinear at h
  refine keeps_done h ?_
  refine Keeps.step (parallel_keeps ..) rfl ?_
  exact Keeps.refl _ _

theorem execUpdateCircular_keeps (rod an step : Nat) (vop : VOp) (ld : Option LdSlot) (st : Option StSlot) (u2 : Option
    UpdSlot) (s : State) (t : State) (h : execUpdateCircular rod an step vop ld st u2 s = .next t) : Keeps [.stat,
    .twin, .frames, .rods, .slots, .rot, .moves, .tally, .mem, .events] s t := by
  unfold execUpdateCircular at h
  refine keeps_done h ?_
  refine Keeps.step (parallel_keeps ..) rfl ?_
  exact Keeps.refl _ _

theorem execUpdateBitReversed_keeps (rod an step : Nat) (vop : VOp) (ld : Option LdSlot) (st : Option StSlot) (u2 :
    Option UpdSlot) (s : State) (t : State) (h : execUpdateBitReversed rod an step vop ld st u2 s = .next t) : Keeps
    [.stat, .twin, .frames, .rods, .slots, .rot, .moves, .tally, .mem, .events] s t := by
  unfold execUpdateBitReversed at h
  refine keeps_done h ?_
  refine Keeps.step (parallel_keeps ..) rfl ?_
  exact Keeps.refl _ _

end Sys2Proof.Machine
end

