-- ==== Sys2Proof/Laws/Rod.lean ====
section
/-! SUPPORT. What the shared operations of a Rod's words do: registers, the parallel word, the control word, the word after. -/
namespace Sys2Proof.Machine

/-! Registers -/

@[simp] theorem rod_setRod (s : State) (r : Nat) (v : Rod) (q : Nat) : (s.setRod r v).rod q = if q = r then v else s.rod q := by
  unfold State.setRod State.rod
  exact mget_mset _ _ _ _ _

@[simp] theorem setRod_mem (s : State) (r : Nat) (v : Rod) : (s.setRod r v).mem = s.mem := rfl

theorem mget_foldl_mset {α : Type} [DecidableEq α] (d : α) (g : Nat → α) (b k : Nat) : ∀ (n : Nat) (m : SMap α),
    mget d ((List.range n).foldl (fun m l => mset d m (b + l) (g l)) m) k = if b ≤ k ∧ k < b + n then g (k - b) else mget d m k := by
  intro n
  induction n with
  | zero => intro m; rw [if_neg (by omega)]; rfl
  | succ n ih =>
    intro m
    rw [List.range_succ, List.foldl_append]
    show mget d (mset d _ (b + n) (g n)) k = _
    rw [mget_mset, ih]
    by_cases h : k = b + n
    · subst h; simp
    · rw [if_neg h]
      have e : (b ≤ k ∧ k < b + (n + 1)) ↔ (b ≤ k ∧ k < b + n) := by omega
      simp only [e]

theorem word_setV (r : Rod) (n m l : Nat) (f : Nat → Int) (hl : l < 8) :
    (r.setV n f).word m l = if m = n then BitVec.ofInt 32 (f l) else r.word m l := by
  show mget 0#32 _ _ = _
  unfold Rod.setV
  rw [mget_foldl_mset (g := fun l => BitVec.ofInt 32 (f l))]
  by_cases h : m = n
  · subst h
    rw [if_pos (by omega), if_pos rfl]
    congr 2
    omega
  · rw [if_neg (by omega), if_neg h]
    rfl

theorem acc_setAc (r : Rod) (n m l : Nat) (f : Nat → Int) (hl : l < 8) :
    (r.setAc n f).acc m l = if m = n then (BitVec.ofInt 72 (f l)).toInt else r.acc m l := by
  show (mget 0#72 _ _).toInt = _
  unfold Rod.setAc
  rw [mget_foldl_mset (g := fun l => BitVec.ofInt 72 (f l))]
  by_cases h : m = n
  · subst h
    rw [if_pos (by omega), if_pos rfl]
    congr 3
    omega
  · rw [if_neg (by omega), if_neg h]
    rfl

theorem lane_eq (r : Rod) (n l : Nat) : r.lane n l = (r.word n l).toInt := rfl

theorem arv_setAr (r : Rod) (n m : Nat) (x : Int) : (r.setAr n x).arv m = if m = n then (BitVec.ofInt 32 x).toNat else r.arv m := by
  show (mget 0#32 (mset 0#32 r.ar n _) m).toNat = _
  rw [mget_mset]
  split <;> rfl

/-! The parallel word -/

/-- A state of a Rod that differs from another in lanes, accumulators, SATF, AEX and the search registers only. -/
def VopShape (R X : Rod) : Prop :=
  X = { R with v := X.v, ac := X.ac, satf := X.satf, aex := X.aex, sx := X.sx, si := X.si, sc := X.sc }

theorem VopShape.self (R : Rod) : VopShape R R := rfl
theorem VopShape.lanes (R : Rod) (n : Nat) (f : Nat → Int) : VopShape R (R.setV n f) := rfl
theorem VopShape.accs (R : Rod) (n : Nat) (f : Nat → Int) : VopShape R (R.setAc n f) := rfl
theorem VopShape.exps (R : Rod) (x : Word) : VopShape R { R with aex := x } := rfl
theorem VopShape.found (R : Rod) (x : BitVec 64) (y z : Word) : VopShape R { R with sx := x, si := y, sc := z } := rfl
theorem VopShape.flag {R X : Rod} (h : VopShape R X) (b : Bool) : VopShape R (X.sat b) := by
  unfold VopShape at *
  rw [h]
  rfl
theorem VopShape.sats (R : Rod) (n : Nat) (f : Nat → Int) : VopShape R (setSat R n f) := (VopShape.lanes R n _).flag _
theorem VopShape.satAccs (R : Rod) (n : Nat) (f : Nat → Int) : VopShape R (setSatAc R n f) := (VopShape.accs R n _).flag _

/-- A vector operation writes lanes, accumulators, SATF, AEX and the search registers only. -/
theorem vopRun_shape (R : Rod) (op : VOp) : VopShape R (vopRun R R op) := by
  cases op <;> unfold vopRun <;> dsimp only <;> with_reducible first
    | exact VopShape.self _
    | exact VopShape.lanes _ _ _
    | exact VopShape.accs _ _ _
    | exact VopShape.sats _ _ _
    | exact VopShape.satAccs _ _ _
    | exact (VopShape.accs _ _ _).flag _
    | exact (VopShape.satAccs _ _ _).flag _
    | exact VopShape.exps _ _
    | (unfold search; exact VopShape.found _ _ _ _)

theorem setAc_word (R : Rod) (a : Nat) (f : Nat → Int) (n l : Nat) : (R.setAc a f).word n l = R.word n l := rfl
theorem setV_acc (R : Rod) (a : Nat) (f : Nat → Int) (n l : Nat) : (R.setV a f).acc n l = R.acc n l := rfl
theorem sat_word (R : Rod) (b : Bool) (n l : Nat) : (R.sat b).word n l = R.word n l := rfl
theorem sat_acc (R : Rod) (b : Bool) (n l : Nat) : (R.sat b).acc n l = R.acc n l := rfl
theorem setSatAc_word (R : Rod) (a : Nat) (f : Nat → Int) (n l : Nat) : (setSatAc R a f).word n l = R.word n l :=
  (sat_word _ _ _ _).trans (setAc_word _ _ _ _ _)
theorem setSat_acc (R : Rod) (a : Nat) (f : Nat → Int) (n l : Nat) : (setSat R a f).acc n l = R.acc n l :=
  (sat_acc _ _ _ _).trans (setV_acc _ _ _ _ _)
theorem search_word (R : Rod) (va : Nat) (a b : Bool) (n l : Nat) : (search R R va a b).word n l = R.word n l := by unfold search; rfl
theorem search_acc (R : Rod) (va : Nat) (a b : Bool) (n l : Nat) : (search R R va a b).acc n l = R.acc n l := by unfold search; rfl
theorem exps_word (R : Rod) (x : Word) (n l : Nat) : ({ R with aex := x } : Rod).word n l = R.word n l := rfl
theorem exps_acc (R : Rod) (x : Word) (n l : Nat) : ({ R with aex := x } : Rod).acc n l = R.acc n l := rfl

theorem vopRun_word (R : Rod) (op : VOp) (n l : Nat) (hl : l < 8) (h : vopDest op ≠ some n) :
    (vopRun R R op).word n l = R.word n l := by
  have key : ∀ (vd : Nat) (f : Nat → Int), some vd ≠ some n → (R.setV vd f).word n l = R.word n l := fun vd f hn =>
    (word_setV _ _ _ _ _ hl).trans (if_neg (fun e => hn (congrArg some e.symm)))
  have key2 : ∀ (vd : Nat) (f : Nat → Int), some vd ≠ some n → (setSat R vd f).word n l = R.word n l := fun vd f hn =>
    (sat_word _ _ _ _).trans (key vd (fun l => sat32 (f l)) hn)
  cases op <;> unfold vopRun <;> unfold vopDest at h <;> dsimp only at h ⊢ <;> with_reducible first
    | rfl
    | exact key _ _ h
    | exact key2 _ _ h
    | exact setAc_word _ _ _ _ _
    | exact setSatAc_word _ _ _ _ _
    | exact (sat_word _ _ _ _).trans (setAc_word _ _ _ _ _)
    | exact (sat_word _ _ _ _).trans (setSatAc_word _ _ _ _ _)
    | exact search_word _ _ _ _ _ _
    | exact exps_word _ _ _ _

theorem vopRun_acc (R : Rod) (op : VOp) (n l : Nat) (hl : l < 8) (h : n ∉ vopAcs op) : (vopRun R R op).acc n l = R.acc n l := by
  have key : ∀ (ac : Nat) (f : Nat → Int), n ∉ [ac] → (R.setAc ac f).acc n l = R.acc n l := fun ac f hn =>
    (acc_setAc _ _ _ _ _ hl).trans (if_neg (fun e => hn (List.mem_singleton.mpr e)))
  have key2 : ∀ (ac : Nat) (f : Nat → Int), n ∉ [ac] → (setSatAc R ac f).acc n l = R.acc n l := fun ac f hn =>
    (sat_acc _ _ _ _).trans (key ac (fun l => sat72 (f l)) hn)
  cases op <;> unfold vopRun <;> unfold vopAcs at h <;> dsimp only at h ⊢ <;> with_reducible first
    | rfl
    | exact key _ _ h
    | exact key2 _ _ h
    | exact (sat_acc _ _ _ _).trans (key _ _ h)
    | exact (sat_acc _ _ _ _).trans (key2 _ _ h)
    | exact setV_acc _ _ _ _ _
    | exact setSat_acc _ _ _ _ _
    | exact search_acc _ _ _ _ _ _
    | exact exps_acc _ _ _ _

/-- A correction or a note changes nothing of a Rod but its counter. -/
theorem countRodEcc_rod (s : State) (r q : Nat) : (countRodEcc s r).rod q =
    if q = r then { s.rod r with corr := satAdd 65535 (s.rod r).corr 1 } else s.rod q := by
  unfold countRodEcc
  show (State.bump _ _ _ _).rod q = _
  exact rod_setRod s r _ q

theorem countRodEcc_mem (s : State) (r : Nat) : (countRodEcc s r).mem = s.mem := rfl

theorem rodNote_aux (r : Nat) (l : List Nat) : ∀ s : State,
    (l.foldl (fun s w => if (rodErr s r w).isSome then countRodEcc s r else s) s).mem = s.mem ∧
    (∀ q, q ≠ r → (l.foldl (fun s w => if (rodErr s r w).isSome then countRodEcc s r else s) s).rod q = s.rod q) ∧
    ∃ c, (l.foldl (fun s w => if (rodErr s r w).isSome then countRodEcc s r else s) s).rod r = { s.rod r with corr := c } := by
  induction l with
  | nil => intro s; exact ⟨rfl, fun _ _ => rfl, (s.rod r).corr, rfl⟩
  | cons w l ih =>
    intro s
    rw [List.foldl_cons]
    by_cases h : (rodErr s r w).isSome
    · rw [if_pos h]
      obtain ⟨h1, h2, c, h3⟩ := ih (countRodEcc s r)
      refine ⟨h1, fun q hq => (h2 q hq).trans ?_, c, h3.trans ?_⟩
      · rw [countRodEcc_rod, if_neg hq]
      · rw [countRodEcc_rod, if_pos rfl]
    · rw [if_neg h]
      exact ih s

/-- Noting a read changes memory not at all, and of the Rods only the counter of the one that reads. -/
theorem rodNote_spec (s : State) (r : Nat) (offs : List Nat) : (rodNote s r offs).mem = s.mem ∧
    (∀ q, q ≠ r → (rodNote s r offs).rod q = s.rod q) ∧ ∃ c, (rodNote s r offs).rod r = { s.rod r with corr := c } :=
  rodNote_aux r _ s

theorem rodHeal_rod (s : State) (r off q : Nat) : (rodHeal s r off).rod q =
    if q = r then { s.rod r with errs := mset none (s.rod r).errs (off / 8 * 8) none } else s.rod q := rod_setRod s r _ q

/-- A store changes, of its Rod, check bits and counter only; of memory, the word's four bytes only. -/
theorem dmStore_spec (s : State) (r : Nat) (e : Nat × Word) :
    (dmStore s r e).mem = memWrite s.mem (rodWindow r e.1) (leBytes 4 e.2.toNat) ∧ (∀ q, q ≠ r → (dmStore s r e).rod q = s.rod q) ∧
    ∃ c x, (dmStore s r e).rod r = { s.rod r with corr := c, errs := x } := by
  unfold dmStore
  by_cases h : (rodErr s r e.1).isSome
  · rw [if_pos h]
    refine ⟨rfl, fun q hq => ?_, satAdd 65535 (s.rod r).corr 1, mset none (s.rod r).errs (e.1 / 8 * 8) none, ?_⟩
    · show (rodHeal (countRodEcc s r) r e.1).rod q = _
      rw [rodHeal_rod, if_neg hq, countRodEcc_rod, if_neg hq]
    · show (rodHeal (countRodEcc s r) r e.1).rod r = _
      rw [rodHeal_rod, if_pos rfl, countRodEcc_rod, if_pos rfl]
  · rw [if_neg h]
    exact ⟨rfl, fun _ _ => rfl, (s.rod r).corr, (s.rod r).errs, rfl⟩

/-- Stores in a row. -/
theorem dmStores_spec (r : Nat) (l : List (Nat × Word)) : ∀ s : State,
    (l.foldl (fun s e => dmStore s r e) s).mem = l.foldl (fun m e => memWrite m (rodWindow r e.1) (leBytes 4 e.2.toNat)) s.mem ∧
    (∀ q, q ≠ r → (l.foldl (fun s e => dmStore s r e) s).rod q = s.rod q) ∧
    ∃ c x, (l.foldl (fun s e => dmStore s r e) s).rod r = { s.rod r with corr := c, errs := x } := by
  induction l with
  | nil => intro s; exact ⟨rfl, fun _ _ => rfl, (s.rod r).corr, (s.rod r).errs, rfl⟩
  | cons e l ih =>
    intro s
    obtain ⟨h1, h2, c, x, h3⟩ := ih (dmStore s r e)
    obtain ⟨g1, g2, c', x', g3⟩ := dmStore_spec s r e
    refine ⟨?_, fun q hq => (h2 q hq).trans (g2 q hq), c, x, ?_⟩
    · rw [List.foldl_cons, h1, g1, List.foldl_cons]
    · rw [List.foldl_cons, h3, g3]

theorem vopRun_corr (R Q : Rod) (c : Nat) (op : VOp) :
    vopRun { R with corr := c } { Q with corr := c } op = { vopRun R Q op with corr := c } := by
  cases op <;> rfl

theorem updates_corr (R : Rod) (c : Nat) (us : List UpdSlot) : ∀ q : Rod,
    us.foldl (fun q u => q.setAr u.an (updValue { R with corr := c } u)) { q with corr := c } =
      { us.foldl (fun q u => q.setAr u.an (updValue R u)) q with corr := c } := by
  induction us with
  | nil => intro q; rfl
  | cons u us ih => intro q; exact ih (q.setAr u.an (updValue R u))

/-- The registers of a word do not depend on the counter of corrections. -/
theorem parRegs_corr (s u : State) (r : Nat) (R : Rod) (c : Nat) (w : ParWord) (hm : u.mem = s.mem) :
    parRegs u r { R with corr := c } w = { parRegs s r R w with corr := c } := by
  have hd : ∀ a, dmWord u r a = dmWord s r a := fun a => by unfold dmWord; rw [hm]
  unfold parRegs
  rw [vopRun_corr]
  cases w.ld with
  | none =>
    cases w.st with
    | none => exact updates_corr R c w.us (vopRun R R w.vop)
    | some t =>
      dsimp only
      by_cases h : t.kind = .std
      · rw [if_pos h, if_pos h]; exact updates_corr R c w.us (detect R (vopRun R R w.vop) t.v)
      · rw [if_neg h, if_neg h]; exact updates_corr R c w.us (vopRun R R w.vop)
  | some l =>
    have e : loadInto u r l (loadAddrs { R with corr := c } l) { vopRun R R w.vop with corr := c } =
        { loadInto s r l (loadAddrs R l) (vopRun R R w.vop) with corr := c } := by
      unfold loadInto
      simp only [hd]
      rfl
    dsimp only
    rw [e]
    cases w.st with
    | none => exact updates_corr R c w.us (loadInto s r l (loadAddrs R l) (vopRun R R w.vop))
    | some t =>
      dsimp only
      by_cases h : t.kind = .std
      · rw [if_pos h, if_pos h]; exact updates_corr R c w.us (detect R (loadInto s r l (loadAddrs R l) (vopRun R R w.vop)) t.v)
      · rw [if_neg h, if_neg h]; exact updates_corr R c w.us (loadInto s r l (loadAddrs R l) (vopRun R R w.vop))

/-- Updates write address registers only. -/
theorem updates_ar (R : Rod) (us : List UpdSlot) : ∀ q : Rod, ∃ a, us.foldl (fun q u => q.setAr u.an (updValue R u)) q = { q with ar := a } := by
  induction us with
  | nil => intro q; exact ⟨q.ar, rfl⟩
  | cons u us ih =>
    intro q
    obtain ⟨a, h⟩ := ih (q.setAr u.an (updValue R u))
    exact ⟨a, h⟩

/-- The results of a word before its updates. -/
def parBefore (s : State) (r : Nat) (old : Rod) (w : ParWord) : Rod :=
  let r1 := vopRun old old w.vop
  let r2 := match w.ld with
    | some l => loadInto s r l (loadAddrs old l) r1
    | none => r1
  match w.st with
  | some t => if t.kind = .std then detect old r2 t.v else r2
  | none => r2

theorem parRegs_before (s : State) (r : Nat) (R : Rod) (w : ParWord) : ∃ a, parRegs s r R w = { parBefore s r R w with ar := a } :=
  updates_ar R w.us (parBefore s r R w)

/-- The results of a word: those of the vector operation with the load's lanes, and the detector. -/
theorem parBefore_shape (s : State) (r : Nat) (R : Rod) (w : ParWord) : parBefore s r R w =
    { vopRun R R w.vop with
      v := (match w.ld with
        | some l => (loadInto s r l (loadAddrs R l) (vopRun R R w.vop)).v
        | none => (vopRun R R w.vop).v)
      bxm := (match w.st with
        | some x => if x.kind = .std then (detect R R x.v).bxm else (vopRun R R w.vop).bxm
        | none => (vopRun R R w.vop).bxm) } := by
  unfold parBefore
  generalize vopRun R R w.vop = V
  cases w.ld with
  | none =>
    cases w.st with
    | none => rfl
    | some x => dsimp only; split <;> rfl
  | some l =>
    cases w.st with
    | none => rfl
    | some x => dsimp only; split <;> rfl

/-- The lanes after a word: those of its load, else those of its vector operation. -/
theorem parRegs_word (s : State) (r : Nat) (R : Rod) (w : ParWord) (n l : Nat) (hl : l < 8) :
    (parRegs s r R w).word n l = (match w.ld with
      | some x => if n = x.v then dmWord s r ((match x.kind with
          | .ldb => (loadAddrs R x).headD 0
          | _ => (loadAddrs R x).getD l 0)).toNat else (vopRun R R w.vop).word n l
      | none => (vopRun R R w.vop).word n l) := by
  obtain ⟨a, h⟩ := parRegs_before s r R w
  rw [h]
  show (parBefore s r R w).word n l = _
  rw [parBefore_shape]
  cases w.ld with
  | none => rfl
  | some x =>
    show (loadInto s r x (loadAddrs R x) (vopRun R R w.vop)).word n l = _
    unfold loadInto
    rw [word_setV _ _ _ _ _ hl, BitVec.ofInt_toInt]
    all_goals rfl

/-- What a word leaves in its Rod beside its registers: counters, the next word, the stalls of what follows. -/
structure Completed (q q' : Rod) : Prop where
  pc   : (q'.pc, q'.reps) = nextWord q.reps q.pc
  wait : q'.wait = none
  rest : ∃ c x y h1 h2 h3 h4, q' = { q with pc := q'.pc, reps := q'.reps, wait := none, corr := c, errs := x, cyc := y, hzA1 := h1, hzA2 := h2, hzAr := h3, hzSr := h4 }

theorem Completed.word {q q' : Rod} (h : Completed q q') (n l : Nat) : q'.word n l = q.word n l := by
  obtain ⟨_, _, _, _, _, _, _, e⟩ := h.rest
  rw [e]
  rfl

theorem Completed.acc {q q' : Rod} (h : Completed q q') (n l : Nat) : q'.acc n l = q.acc n l := by
  obtain ⟨_, _, _, _, _, _, _, e⟩ := h.rest
  rw [e]
  rfl

theorem Completed.arv {q q' : Rod} (h : Completed q q') (n : Nat) : q'.arv n = q.arv n := by
  obtain ⟨_, _, _, _, _, _, _, e⟩ := h.rest
  rw [e]
  rfl

theorem Completed.satf {q q' : Rod} (h : Completed q q') : q'.satf = q.satf := by
  obtain ⟨_, _, _, _, _, _, _, e⟩ := h.rest
  rw [e]

theorem parRegs_satf (s : State) (r : Nat) (R : Rod) (w : ParWord) : (parRegs s r R w).satf = (vopRun R R w.vop).satf := by
  obtain ⟨a, h⟩ := parRegs_before s r R w
  rw [h]
  show (parBefore s r R w).satf = _
  rw [parBefore_shape]

theorem parRegs_acc (s : State) (r : Nat) (R : Rod) (w : ParWord) (n l : Nat) :
    (parRegs s r R w).acc n l = (vopRun R R w.vop).acc n l := by
  obtain ⟨a, h⟩ := parRegs_before s r R w
  rw [h]
  show (parBefore s r R w).acc n l = _
  rw [parBefore_shape]
  rfl

theorem finish_rod (s : State) (r : Nat) (q : Rod) (stall : Nat) (w : Wrote) : Completed q ((finish s r q stall w).rod r) ∧
    (∀ p, p ≠ r → (finish s r q stall w).rod p = s.rod p) ∧ (finish s r q stall w).mem = s.mem := by
  unfold finish finishAt
  refine ⟨⟨?_, ?_, ?_⟩, fun p hp => ?_, rfl⟩
  · rw [rod_setRod, if_pos rfl]
  · rw [rod_setRod, if_pos rfl]
  · rw [rod_setRod, if_pos rfl]
    exact ⟨_, _, _, _, _, _, _, rfl⟩
  · rw [rod_setRod, if_neg hp]

/-- What a parallel word that runs leaves. -/
structure ParDone (s t : State) (r : Nat) (w : ParWord) : Prop where
  rod    : Completed (parRegs s r (s.rod r) w) (t.rod r)
  others : ∀ q, q ≠ r → t.rod q = s.rod q
  mem    : t.mem = (match w.st with
    | some x => (storeWords (s.rod r) x (storeAddrs (s.rod r) x)).foldl
        (fun m e => memWrite m (rodWindow r e.1) (leBytes 4 e.2.toNat)) s.mem
    | none => s.mem)

theorem parRun_done (s : State) (r : Nat) (w : ParWord) (lds : List Nat) : ParDone s (parRun s r w lds) r w := by
  obtain ⟨m1, o1, c, e1⟩ := rodNote_spec s r lds
  have key : ∀ (s2 : State), s2.mem = (match w.st with
      | some x => (storeWords (s.rod r) x (storeAddrs (s.rod r) x)).foldl
        (fun m e => memWrite m (rodWindow r e.1) (leBytes 4 e.2.toNat)) s.mem
      | none => s.mem) → (∀ q, q ≠ r → s2.rod q = s.rod q) → ∀ a b st wr,
      ParDone s (finish s2 r { parRegs (rodNote s r lds) r ((rodNote s r lds).rod r) w with errs := a, corr := b } st wr) r w := by
    intro s2 hm ho a b st wr
    obtain ⟨f1, f2, f3⟩ := finish_rod s2 r { parRegs (rodNote s r lds) r ((rodNote s r lds).rod r) w with errs := a, corr := b } st wr
    refine ⟨⟨?_, f1.wait, ?_⟩, fun q hq => (f2 q hq).trans (ho q hq), f3.trans hm⟩
    · rw [f1.pc, e1, parRegs_corr s _ r _ c w m1]
    · obtain ⟨x1, x2, x3, x4, x5, x6, x7, hx⟩ := f1.rest
      refine ⟨x1, x2, x3, x4, x5, x6, x7, hx.trans ?_⟩
      rw [e1, parRegs_corr s _ r _ c w m1]
  unfold parRun
  cases hst : w.st with
  | none =>
    rw [hst] at key
    exact key _ m1 o1 _ _ _ _
  | some x =>
    rw [hst] at key
    have eS : storeWords ((rodNote s r lds).rod r) x (storeAddrs ((rodNote s r lds).rod r) x) =
        storeWords (s.rod r) x (storeAddrs (s.rod r) x) := by rw [e1]; rfl
    dsimp only
    obtain ⟨g1, g2, c2, x2, g3⟩ := dmStores_spec r (storeWords ((rodNote s r lds).rod r) x (storeAddrs ((rodNote s r lds).rod r) x))
      (rodNote s r lds)
    refine key _ ?_ (fun q hq => (g2 q hq).trans (o1 q hq)) _ _ _ _
    rw [g1, m1, eS]

/-- A Rod that issues a word executes it. -/
theorem runWord_issues {s : State} {r : Nat} (h : Issues s r) (word : State → State) : runWord s r word = word s := by
  unfold runWord
  rw [if_pos (by simp [h.rod, h.running, h.free]), h.checked]
  exact if_pos h.coded

/-- A word that runs does what `parRun` does. -/
theorem parallel_runs {s : State} {r : Nat} {w : ParWord} (h : WordRuns s r w) :
    parallel s r w = parRun s r w ((parLoads (s.rod r) w).map Int.toNat) := by
  have hb := h.bounds
  have h1 := h.loads
  have h2 := h.stores
  have h3 := h.held
  unfold parLoads at hb h1 h3
  unfold parStores at hb h2 h3
  unfold parallel
  rw [runWord_issues h.issues]
  dsimp only
  rw [h.legal, h.apart, hb.1, hb.2, h1, h2, h3]
  rfl

/-- A parallel word that runs, as a command. -/
theorem parWord_exec {c : Instr} {r : Nat} {w : ParWord} (hc : parWord c = some (r, w)) (s : State) :
    exec c s = .next (parallel s r w) := by
  cases c <;> cases hc <;> rfl

/-- A parallel word that runs answers a next state, with what `ParDone` says. -/
theorem parWord_runs {c : Instr} {r : Nat} {w : ParWord} (hc : parWord c = some (r, w)) {s : State} (h : WordRuns s r w) :
    ∃ t, exec c s = .next t ∧ ParDone s t r w :=
  ⟨_, parWord_exec hc s, (parallel_runs h).symm ▸ parRun_done ..⟩

/-- The register that a vector operation writes holds the operation's result: no load of the word writes it. -/
theorem ParDone.dest {s t : State} {r : Nat} {w : ParWord} (d : ParDone s t r w) (h : WordRuns s r w) {vd : Nat}
    (hd : vopDest w.vop = some vd) (l : Nat) (hl : l < 8) :
    (t.rod r).word vd l = (vopRun (s.rod r) (s.rod r) w.vop).word vd l := by
  rw [d.rod.word, parRegs_word _ _ _ _ _ _ hl]
  have hc := h.apart
  unfold parConflict at hc
  cases hld : w.ld with
  | none => rfl
  | some x =>
    rw [hld] at hc
    dsimp only
    rw [if_neg]
    intro e
    subst e
    rw [hd] at hc
    simp at hc

/-- The accumulators after a word are those after its vector operation. -/
theorem ParDone.acc {s t : State} {r : Nat} {w : ParWord} (d : ParDone s t r w) (n l : Nat) :
    (t.rod r).acc n l = (vopRun (s.rod r) (s.rod r) w.vop).acc n l := by
  rw [d.rod.acc, parRegs_acc]

theorem ParDone.satf {s t : State} {r : Nat} {w : ParWord} (d : ParDone s t r w) :
    (t.rod r).satf = (vopRun (s.rod r) (s.rod r) w.vop).satf := by
  rw [d.rod.satf, parRegs_satf]

/-- A control word that is legal, permitted and not the last of a body executes. -/
theorem controlWord_issues {s : State} {r : Nat} (h : Issues s r) {legal permitted : Bool} (hl : legal = true)
    (hp : permitted = true) (hb : atBodyEnd (s.rod r) = false) (word : State → State) :
    controlWord s r legal permitted word = word s := by
  unfold controlWord
  rw [runWord_issues h]
  subst hl hp
  rw [hb]
  rfl

/-! Saturation -/

theorem sat32_bounds (x : Int) : -(2 ^ 31) ≤ sat32 x ∧ sat32 x ≤ 2 ^ 31 - 1 := by
  unfold sat32 satS satTo
  norm_num
  split
  · omega
  · split <;> omega

theorem sat72_bounds (x : Int) : -(2 ^ 71) ≤ sat72 x ∧ sat72 x ≤ 2 ^ 71 - 1 := by
  unfold sat72 satS satTo
  norm_num
  split
  · omega
  · split <;> omega

theorem toInt_sat32 (x : Int) : (BitVec.ofInt 32 (sat32 x)).toInt = sat32 x := by
  have h := sat32_bounds x
  rw [BitVec.toInt_ofInt]
  exact Int.bmod_eq_of_le (by omega) (by omega)

theorem toInt_sat72 (x : Int) : (BitVec.ofInt 72 (sat72 x)).toInt = sat72 x := by
  have h := sat72_bounds x
  rw [BitVec.toInt_ofInt]
  exact Int.bmod_eq_of_le (by omega) (by omega)

theorem any_range {n : Nat} {p : Nat → Bool} : (List.range n).any p = true ↔ ∃ l, l < n ∧ p l = true := by
  simp [List.any_eq_true]

theorem setSat_word (q : Rod) (vd l : Nat) (f : Nat → Int) (hl : l < 8) :
    (setSat q vd f).word vd l = BitVec.ofInt 32 (sat32 (f l)) := by
  show (q.setV vd (fun l => sat32 (f l))).word vd l = _
  rw [word_setV _ _ _ _ _ hl, if_pos rfl]

theorem setSat_satf (q : Rod) (vd : Nat) (f : Nat → Int) :
    (setSat q vd f).satf = true ↔ q.satf = true ∨ ∃ l, l < 8 ∧ sat32 (f l) ≠ f l := by
  show (q.satf || (List.range 8).any (fun l => decide (sat32 (f l) ≠ f l))) = true ↔ _
  rw [Bool.or_eq_true, any_range]
  simp

theorem setSatAc_acc (q : Rod) (ac l : Nat) (f : Nat → Int) (hl : l < 8) : (setSatAc q ac f).acc ac l = sat72 (f l) := by
  show (q.setAc ac (fun l => sat72 (f l))).acc ac l = _
  rw [acc_setAc _ _ _ _ _ hl, if_pos rfl, toInt_sat72]

theorem setSatAc_satf (q : Rod) (ac : Nat) (f : Nat → Int) :
    (setSatAc q ac f).satf = true ↔ q.satf = true ∨ ∃ l, l < 8 ∧ sat72 (f l) ≠ f l := by
  show (q.satf || (List.range 8).any (fun l => decide (sat72 (f l) ≠ f l))) = true ↔ _
  rw [Bool.or_eq_true, any_range]
  simp

end Sys2Proof.Machine
end

