-- ==== Sys2Proof/Laws/RodControl.lean ====
section
/-! SUPPORT. What control words, the end of an item and a fault leave (R212 to R222). -/
namespace Sys2Proof.Machine

theorem Controls.notEnd {s : State} {r : Nat} (h : Controls s r) : atBodyEnd (s.rod r) = false := by
  unfold atBodyEnd
  rw [List.any_eq_false]
  intro l hl
  simp [h.inside l hl]

theorem finishAt_executed (s : State) (r : Nat) (q : Rod) (st : Nat) (w : Wrote) (pc : Nat) (reps : List RepLevel) :
    Executed s (finishAt s r q st w pc reps) r q pc reps := by
  unfold finishAt
  refine ⟨⟨_, _, _, _, _, by rw [rod_setRod, if_pos rfl]⟩, fun p hp => by rw [rod_setRod, if_neg hp], rfl⟩

theorem finish_continues (s : State) (r : Nat) (q : Rod) (st : Nat) (w : Wrote) (h1 : q.reps = (s.rod r).reps) (h2 : q.pc = (s.rod r).pc) :
    Continues s (finish s r q st w) r q := by
  unfold finish Continues
  rw [h1, h2]
  exact finishAt_executed ..

theorem ctl {s : State} {r : Nat} (h : Controls s r) {legal permitted : Bool} (word : State → State) (hl : legal = true)
    (hp : permitted = true) : controlWord s r legal permitted word = word s :=
  controlWord_issues h.issues hl hp h.notEnd word

theorem ctx {c : Instr} {s : State} {r : Nat} {legal permitted : Bool} {word : State → State}
    (he : exec c s = .next (controlWord s r legal permitted word)) (h : Controls s r) (hl : legal = true)
    (hp : permitted = true) : exec c s = .next (word s) := he.trans (congrArg _ (ctl h word hl hp))

theorem rod_of_rods {s t : State} (h : t.rods = s.rods) (r : Nat) : t.rod r = s.rod r := by unfold State.rod; rw [h]

theorem formRecord_rods (s : State) (a b c : Nat) (d : Bool) : (s.formRecord a b c d).rods = s.rods := by
  unfold State.formRecord
  repeat' (first | rfl | split)

theorem raise_rods (s : State) (a b c : Nat) : (s.raise a b c).rods = s.rods := by
  unfold State.raise
  split
  · rfl
  · exact formRecord_rods ..

theorem formRecord_mem (s : State) (a b c : Nat) (d : Bool) : (s.formRecord a b c d).mem = s.mem := by
  unfold State.formRecord
  repeat' (first | rfl | split)

theorem raise_mem (s : State) (a b c : Nat) : (s.raise a b c).mem = s.mem := by
  unfold State.raise
  split
  · rfl
  · exact formRecord_mem ..

/-- An item that ends on a Rod without a user slot. -/
theorem endItem_rods (s : State) (r : Nat) (f : Bool) (h : (s.rod r).slot = none) :
    (∀ p, (endItem s r f).rod p = if p = r ∧ (s.rod r).item ≠ none then { s.rod r with item := none, ending := none } else s.rod p) ∧
    (endItem s r f).mem = s.mem := by
  unfold endItem
  dsimp only
  cases hi : (s.rod r).item with
  | none => simp
  | some it =>
    dsimp only
    split
    · rename_i u hu; rw [h] at hu; cases hu
    constructor
    · intro p
      have : ∀ t : State, t.rods = (s.setRod r { s.rod r with item := none, ending := none }).rods → t.rod p = if p = r ∧ some it ≠ none then { s.rod r with item := none, ending := none } else s.rod p := by
        intro t ht
        rw [rod_of_rods ht, rod_setRod]
        by_cases e : p = r <;> simp [e]
      split
      · exact this _ (raise_rods _ _ _ _)
      · exact this _ rfl
    · split
      · exact raise_mem _ _ _ _
      · rfl

theorem rodFault_spec (s : State) (r code op : Nat) (h : (s.rod r).slot = none) (hf : (s.rod r).health = true ∨ (s.rod r).faults = []) :
    ∃ f, (∀ p, p ≠ r → (rodFault s r code op).rod p = s.rod p) ∧ (rodFault s r code op).mem = s.mem ∧
    (rodFault s r code op).rod r = { s.rod r with
      st := .faulted, wait := none, code := code, fault := true, faultPc := (s.rod r).pc, trapOp := op,
      xfers := (s.rod r).xfers.take 1, faults := f, item := none, ending := if (s.rod r).item = none then (s.rod r).ending else none } := by
  unfold rodFault
  dsimp only
  generalize hticks : s.clk.tick :: List.filter _ _ = ticks
  have hsf : ∀ t, slotFaulted t (s.rod r).slot code = t := fun t => by rw [h]; rfl
  rw [hsf]
  generalize hs2 : State.raise _ 7 r code = s2
  have hr : ∀ p, s2.rod p = if p = r then { s.rod r with
      st := .faulted, wait := none, code := code, fault := true, faultPc := (s.rod r).pc, trapOp := op,
      xfers := (s.rod r).xfers.take 1, faults := ticks } else s.rod p := by
    intro p
    rw [← hs2, rod_of_rods (raise_rods _ _ _ _), rod_of_rods (t := ((State.setRod (dropHeld s r) r _).bump _ _ _).stset _ _ _ _) (s := State.setRod (dropHeld s r) r _) rfl, rod_setRod]
    rfl
  have hm : s2.mem = s.mem := by rw [← hs2, raise_mem]; rfl
  have hrr := hr r
  rw [if_pos rfl] at hrr
  have hs : (s2.rod r).slot = none := by rw [hrr]; exact h
  obtain ⟨e1, e2⟩ := endItem_rods s2 r true hs
  have heal : setHealth (endItem s2 r true) r = endItem s2 r true ∨ ¬ 3 ≤ ticks.length := by
    rcases hf with hf | hf
    · left
      unfold setHealth
      rw [if_pos]
      rw [e1 r, hrr]
      split <;> exact hf
    · right
      rw [← hticks, hf]
      simp
  have : (if 3 ≤ ticks.length then setHealth (endItem s2 r true) r else endItem s2 r true) = endItem s2 r true := by
    split
    · rcases heal with h | h
      · exact h
      · contradiction
    · rfl
  rw [this]
  refine ⟨ticks, fun p hp => ?_, e2.trans hm, ?_⟩
  · rw [e1, if_neg (fun h => hp h.1), hr, if_neg hp]
  · rw [e1, hrr]
    dsimp only
    by_cases hi : (s.rod r).item = none
    · simp [hi]
    · simp [hi]


end Sys2Proof.Machine
end

