-- ==== Sys2Proof/Laws/SafeBase.lean ====
section
/-! SUPPORT. How safety passes through calls, record updates, choices and folds. -/
namespace Sys2Proof.Machine

/-- A state written out is safe where its memory and twin are. -/
theorem safe_mk {a0 a1 a2 a3 a4 a5 a6 a7 a8 a9 a10 a11 a12 a13 a14 a15 a16 a17 a18 a19 a20 a21 a22 a23 a24 a25 a26 a27 a28 twin
    a30 a31 a32 a33 a34 a35 a36 a37 a38 mem a40 a41 a42 a43 a44} (h : SafeParts mem twin.role twin.sync twin.actOut) :
    State.Safe (State.mk a0 a1 a2 a3 a4 a5 a6 a7 a8 a9 a10 a11 a12 a13 a14 a15 a16 a17 a18 a19 a20 a21 a22 a23 a24 a25 a26 a27
      a28 twin a30 a31 a32 a33 a34 a35 a36 a37 a38 mem a40 a41 a42 a43 a44) := h

/-- The parts of a safe state. -/
theorem safe_parts {s : State} (h : s.Safe) : SafeParts s.mem s.twin.role s.twin.sync s.twin.actOut := h

/-- Another memory in its canonical form. -/
theorem safe_mem {s : State} {m : List Host.Cell} (h : s.Safe) (hm : Memory.wf s.mem = true → Memory.wf m = true) :
    SafeParts m s.twin.role s.twin.sync s.twin.actOut := ⟨hm h.memory, h.interlock, h.joining, h.legal⟩

/-- A state that differs in neither memory nor twin. -/
theorem keeps_safe {f : List Part} {s t : State} (h : Keeps f s t) (hm : (Part.isIn .mem f || Part.isIn .twin f) = false)
    (hs : s.Safe) : t.Safe := by
  have hn : ∀ p, Part.isIn p f = false → p ∉ f := by
    intro p hp hq
    have : Part.isIn p f = true := by simpa [Part.isIn] using hq
    rw [hp] at this
    cases this
  have h1 := Bool.or_eq_false_iff.mp hm
  have e1 : t.mem = s.mem := h.same .mem (hn _ h1.1)
  have e2 : t.twin = s.twin := h.same .twin (hn _ h1.2)
  unfold State.Safe
  rw [e1, e2]
  exact hs

theorem safe_ite {c : Prop} [Decidable c] {a b : State} (h1 : c → a.Safe) (h2 : ¬ c → b.Safe) : State.Safe (if c then a else b) := by
  split
  · exact h1 ‹_›
  · exact h2 ‹_›

theorem safe_foldl {α : Type} {g : State → α → State} (hg : ∀ t x, t.Safe → (g t x).Safe) :
    ∀ {l : List α} {s : State}, s.Safe → (l.foldl g s).Safe := by
  intro l
  induction l with
  | nil => intro s h; exact h
  | cons x r ih => intro s h; exact ih (hg s x h)

theorem safe_foldl_fst {α β : Type} {g : State × β → α → State × β} (hg : ∀ t x, t.1.Safe → (g t x).1.Safe) :
    ∀ {l : List α} {s : State × β}, s.1.Safe → (l.foldl g s).1.Safe := by
  intro l
  induction l with
  | nil => intro s h; exact h
  | cons x r ih => intro s h; exact ih (hg s x h)

theorem safe_fst {α : Type} {a : State} {b : α} {x : State × α} (e : x = (a, b)) (h : x.1.Safe) : a.Safe := by subst e; exact h

/-- Memory operations in a row keep the canonical form. -/
theorem memFold_wf {α : Type} (g : List Host.Cell → α → List Host.Cell)
    (hg : ∀ m x, Memory.wf m = true → Memory.wf (g m x) = true) :
    ∀ (l : List α) (m : List Host.Cell), Memory.wf m = true → Memory.wf (l.foldl g m) = true := by
  intro l
  induction l with
  | nil => intro m h; exact h
  | cons x r ih => intro m h; exact ih _ (hg m x h)

/-- A command that answers a next state. -/
theorem safe_done {e t : State} (h : done e = .next t) (k : e.Safe) : t.Safe := by
  cases h; exact k

/-- A write of a command entry whose effect is safe. -/
theorem attempt_safe {s : State} {index code : Nat} {eff : State → State} (h : (eff s).Safe) (hs : s.Safe) :
    (s.attempt index code eff).Safe := by
  unfold State.attempt
  have ha : ∀ c, (s.abort c).Safe := fun c => keeps_safe (State.abort_keeps s c) rfl hs
  exact safe_ite (fun _ => safe_ite (fun _ => h) (fun _ => ha _)) (fun _ => ha _)

end Sys2Proof.Machine
end

