-- ==== Sys2Proof/Laws/SafeFades.lean ====
section
/-! SUPPORT. Safety is kept by the functions of Machine/Fades.lean that change memory or the twin. -/
namespace Sys2Proof.Machine

theorem State.mark_safe (s : State) (block cause : Nat) (hs : State.Safe s) : State.Safe (State.mark s block cause) :=
    by
  unfold State.mark
  refine safe_mk (safe_parts ?_)
  assumption

theorem stageMiss_safe (s : State) (stage scope : Nat) (hs : State.Safe s) : State.Safe (stageMiss s stage scope) := by
  unfold stageMiss
  refine safe_ite (fun _ => ?_) (fun _ => ?_)
  · assumption
  · refine keeps_safe (State.raise_keeps ..) rfl ?_
    refine keeps_safe (State.stset_keeps ..) rfl ?_
    refine keeps_safe (State.stset_keeps ..) rfl ?_
    refine keeps_safe (State.bump_keeps ..) rfl ?_
    refine State.mark_safe (hs := ?_) ..
    assumption

end Sys2Proof.Machine
end

