-- ==== Sys2Proof/Laws/SafeMemory.lean ====
section
/-! SUPPORT. Safety is kept by the functions of Machine/Memory.lean that change memory or the twin. -/
namespace Sys2Proof.Machine

theorem ledgerMark_safe (s : State) (block : Nat) (lost : Bool) (hs : State.Safe s) : State.Safe (ledgerMark s block
    lost) := by
  unfold ledgerMark
  refine safe_ite (fun _ => ?_) (fun _ => ?_)
  · refine State.mark_safe (hs := ?_) ..
    assumption
  · assumption

theorem lineRead_safe (s : State) (block a n : Nat) (hs : State.Safe s) : State.Safe (lineRead s block a n).1 := by
  unfold lineRead
  split
  dsimp only
  refine ledgerMark_safe (hs := ?_) ..
  refine safe_fst (by assumption) ?_
  refine keeps_safe (ledgerRead_keeps ..) rfl ?_
  assumption

theorem ledgerOpen_safe (s : State) (w : Nat) (full : Bool) (hs : State.Safe s) : State.Safe (ledgerOpen s w full) := by
  unfold ledgerOpen
  split
  · assumption
  · refine safe_ite (fun _ => ?_) (fun _ => ?_)
    · refine safe_mk (safe_parts ?_)
      assumption
    · refine safe_ite (fun _ => ?_) (fun _ => ?_)
      · refine safe_mk (safe_mem ?_ (fun hm => ?_))
        · refine safe_mk (safe_parts ?_)
          assumption
        · exact memFilter_wf _ _ hm
      · refine keeps_safe (State.bump_keeps ..) rfl ?_
        refine safe_mk (safe_parts ?_)
        assumption

theorem ledgerWrite_safe (s : State) (a : Nat) (data : List Byte) (strobe : List Bool) (hs : State.Safe s) : State.Safe
    (ledgerWrite s a data strobe) := by
  unfold ledgerWrite
  refine safe_mk (safe_mem ?_ (fun hm => ?_))
  · refine safe_foldl (fun _ _ _ => ?_) ?_
    · refine keeps_safe (abandonRepair_keeps ..) rfl ?_
      refine ledgerOpen_safe (hs := ?_) ..
      assumption
    · assumption
  · exact memStrobe_wf _ _ _ _ hm

theorem ledgerZero_safe (s : State) (lo hi : Nat) (hs : State.Safe s) : State.Safe (ledgerZero s lo hi) := by
  unfold ledgerZero
  refine safe_mk (safe_mem ?_ (fun hm => ?_))
  · assumption
  · exact memFilter_wf _ _ hm

theorem repairLine_safe (s : State) (bank : Nat) (hs : State.Safe s) : State.Safe (repairLine s bank) := by
  unfold repairLine
  split
  · assumption
  · refine safe_ite (fun _ => ?_) (fun _ => ?_)
    · refine keeps_safe (repairStatus_keeps ..) rfl ?_
      refine safe_mk (safe_parts ?_)
      refine safe_foldl (fun _ _ _ => ?_) ?_
      · refine safe_ite (fun _ => ?_) (fun _ => ?_)
        · refine safe_mk (safe_mem ?_ (fun hm => ?_))
          · assumption
          · exact memFilter_wf _ _ hm
        · assumption
      · refine safe_mk (safe_parts ?_)
        assumption
    · refine safe_ite (fun _ => ?_) (fun _ => ?_)
      · refine safe_mk (safe_parts ?_)
        assumption
      · refine keeps_safe (State.raise_keeps ..) rfl ?_
        refine keeps_safe (State.stset_keeps ..) rfl ?_
        refine safe_mk (safe_parts ?_)
        refine safe_mk (safe_parts ?_)
        assumption

theorem scrubSlot_safe (s : State) (hs : State.Safe s) : State.Safe (scrubSlot s) := by
  unfold scrubSlot
  dsimp only
  refine safe_ite (fun _ => ?_) (fun _ => ?_)
  · refine safe_mk (safe_parts ?_)
    refine safe_foldl (fun _ _ _ => ?_) ?_
    · refine keeps_safe (startRepair_keeps ..) rfl ?_
      assumption
    · refine safe_foldl (fun _ _ _ => ?_) ?_
      · refine keeps_safe (patrolWord_keeps ..) rfl ?_
        assumption
      · refine safe_mk (safe_parts ?_)
        refine safe_foldl (fun _ _ _ => ?_) ?_
        · refine keeps_safe (serveQueued_keeps ..) rfl ?_
          assumption
        · refine safe_foldl (fun _ _ _ => ?_) ?_
          · refine repairLine_safe (hs := ?_) ..
            assumption
          · assumption
  · refine safe_mk (safe_parts ?_)
    refine safe_foldl (fun _ _ _ => ?_) ?_
    · refine keeps_safe (startRepair_keeps ..) rfl ?_
      assumption
    · refine safe_foldl (fun _ _ _ => ?_) ?_
      · refine keeps_safe (patrolWord_keeps ..) rfl ?_
        assumption
      · refine safe_mk (safe_parts ?_)
        refine safe_foldl (fun _ _ _ => ?_) ?_
        · refine keeps_safe (serveQueued_keeps ..) rfl ?_
          assumption
        · refine safe_foldl (fun _ _ _ => ?_) ?_
          · refine repairLine_safe (hs := ?_) ..
            assumption
          · assumption

theorem ledgerInit_safe (s : State) (hs : State.Safe s) : State.Safe (ledgerInit s) := by
  unfold ledgerInit
  refine keeps_safe (repairStatus_keeps ..) rfl ?_
  refine safe_mk (safe_mem ?_ (fun hm => ?_))
  · assumption
  · exact memFilter_wf _ _ hm

theorem sourceAgain_safe (s : State) (m : Migration) (hs : State.Safe s) : State.Safe (sourceAgain s m) := by
  unfold sourceAgain
  refine safe_mk (safe_mem ?_ (fun hm => ?_))
  · assumption
  · exact memFold_wf _ (fun _ _ h => memSet_wf _ _ _ h) _ _ hm

theorem abortMigration_safe (s : State) (hs : State.Safe s) : State.Safe (abortMigration s) := by
  unfold abortMigration
  split
  · assumption
  · dsimp only
    refine keeps_safe (State.raise_keeps ..) rfl ?_
    refine keeps_safe (State.stset_keeps ..) rfl ?_
    refine safe_mk (safe_parts ?_)
    refine keeps_safe (setRank_keeps ..) rfl ?_
    refine keeps_safe (setRank_keeps ..) rfl ?_
    refine sourceAgain_safe (hs := ?_) ..
    assumption

theorem triggerNow_safe (s : State) (p : Nat) (hard : Bool) (hs : State.Safe s) : State.Safe (triggerNow s p hard) := by
  unfold triggerNow
  split
  · refine safe_ite (fun _ => ?_) (fun _ => ?_)
    · refine safe_ite (fun _ => ?_) (fun _ => ?_)
      · refine abortMigration_safe (hs := ?_) ..
        assumption
      · assumption
    · refine safe_ite (fun _ => ?_) (fun _ => ?_)
      · assumption
      · refine safe_ite (fun _ => ?_) (fun _ => ?_)
        · refine keeps_safe (State.enter_keeps ..) rfl ?_
          assumption
        · assumption
  · refine safe_ite (fun _ => ?_) (fun _ => ?_)
    · assumption
    · refine safe_ite (fun _ => ?_) (fun _ => ?_)
      · refine keeps_safe (State.enter_keeps ..) rfl ?_
        assumption
      · split
        · refine safe_mk (safe_parts ?_)
          assumption
        · refine safe_ite (fun _ => ?_) (fun _ => ?_)
          · assumption
          · refine keeps_safe (State.enter_keeps ..) rfl ?_
            assumption

theorem triggerRank_safe (s : State) (p : Nat) (hard : Bool) (hs : State.Safe s) : State.Safe (triggerRank s p hard) :=
    by
  unfold triggerRank
  refine safe_ite (fun _ => ?_) (fun _ => ?_)
  · refine triggerNow_safe (hs := ?_) ..
    assumption
  · refine safe_mk (safe_parts ?_)
    assumption

theorem backInService_safe (s : State) (hs : State.Safe s) : State.Safe (backInService s) := by
  unfold backInService
  dsimp only
  refine safe_foldl (fun _ _ _ => ?_) ?_
  · refine triggerNow_safe (hs := ?_) ..
    assumption
  · refine keeps_safe (State.stset_keeps ..) rfl ?_
    refine safe_mk (safe_parts ?_)
    assumption

theorem wakeDram_safe (s : State) (hs : State.Safe s) : State.Safe (wakeDram s) := by
  unfold wakeDram
  refine safe_ite (fun _ => ?_) (fun _ => ?_)
  · refine backInService_safe (hs := ?_) ..
    assumption
  · refine safe_mk (safe_parts ?_)
    assumption

theorem bankLost_safe (s : State) (k : Nat) (hs : State.Safe s) : State.Safe (bankLost s k) := by
  unfold bankLost
  dsimp only
  split
  · refine safe_mk (safe_parts ?_)
    refine State.mark_safe (hs := ?_) ..
    assumption
  · assumption
  · refine keeps_safe (State.raise_keeps ..) rfl ?_
    refine keeps_safe (State.stset_keeps ..) rfl ?_
    refine keeps_safe (State.setFeed_keeps ..) rfl ?_
    refine State.mark_safe (hs := ?_) ..
    assumption

theorem bankPoisoned_safe (s : State) (a : Nat) (hs : State.Safe s) : State.Safe (bankPoisoned s a) := by
  unfold bankPoisoned
  refine safe_ite (fun _ => ?_) (fun _ => ?_)
  · refine bankLost_safe (hs := ?_) ..
    assumption
  · assumption

theorem poisonBlock_safe (s : State) (b : Nat) (hs : State.Safe s) : State.Safe (poisonBlock s b) := by
  unfold poisonBlock
  dsimp only
  refine safe_ite (fun _ => ?_) (fun _ => ?_)
  · refine bankPoisoned_safe (hs := ?_) ..
    refine triggerRank_safe (hs := ?_) ..
    refine safe_mk (safe_parts ?_)
    refine keeps_safe (State.raise_keeps ..) rfl ?_
    refine keeps_safe (State.stset_keeps ..) rfl ?_
    refine keeps_safe (State.bump_keeps ..) rfl ?_
    refine safe_mk (safe_parts ?_)
    assumption
  · refine triggerRank_safe (hs := ?_) ..
    refine safe_mk (safe_parts ?_)
    refine keeps_safe (State.raise_keeps ..) rfl ?_
    refine keeps_safe (State.stset_keeps ..) rfl ?_
    refine keeps_safe (State.bump_keeps ..) rfl ?_
    refine safe_mk (safe_parts ?_)
    assumption

theorem countCorrection_safe (s : State) (b : Nat) (hs : State.Safe s) : State.Safe (countCorrection s b) := by
  unfold countCorrection
  dsimp only
  refine safe_ite (fun _ => ?_) (fun _ => ?_)
  · refine triggerRank_safe (hs := ?_) ..
    refine keeps_safe (State.bump_keeps ..) rfl ?_
    refine keeps_safe (setRank_keeps ..) rfl ?_
    assumption
  · refine keeps_safe (State.bump_keeps ..) rfl ?_
    refine keeps_safe (setRank_keeps ..) rfl ?_
    assumption

theorem dramNote_safe (s0 : State) (b : Nat) (hs : State.Safe s0) : State.Safe (dramNote s0 b) := by
  unfold dramNote
  dsimp only
  refine safe_ite (fun _ => ?_) (fun _ => ?_)
  · refine keeps_safe (activate_keeps ..) rfl ?_
    assumption
  · refine safe_ite (fun _ => ?_) (fun _ => ?_)
    · refine poisonBlock_safe (hs := ?_) ..
      refine keeps_safe (activate_keeps ..) rfl ?_
      assumption
    · refine safe_ite (fun _ => ?_) (fun _ => ?_)
      · refine countCorrection_safe (hs := ?_) ..
        refine safe_ite (fun _ => ?_) (fun _ => ?_)
        · refine keeps_safe (activate_keeps ..) rfl ?_
          assumption
        · refine safe_mk (safe_parts ?_)
          refine keeps_safe (activate_keeps ..) rfl ?_
          assumption
      · refine keeps_safe (activate_keeps ..) rfl ?_
        assumption

theorem dramRead_safe (s : State) (a n : Nat) (hs : State.Safe s) : State.Safe (dramRead s a n).1 := by
  unfold dramRead
  refine safe_foldl (fun _ _ _ => ?_) ?_
  · refine dramNote_safe (hs := ?_) ..
    assumption
  · assumption

theorem dramOpen_safe (s : State) (b : Nat) (full : Bool) (hs : State.Safe s) : State.Safe (dramOpen s b full) := by
  unfold dramOpen
  refine safe_ite (fun _ => ?_) (fun _ => ?_)
  · refine keeps_safe (clearBlock_keeps ..) rfl ?_
    assumption
  · refine safe_ite (fun _ => ?_) (fun _ => ?_)
    · dsimp only
      refine safe_mk (safe_mem ?_ (fun hm => ?_))
      · refine keeps_safe (clearBlock_keeps ..) rfl ?_
        assumption
      · exact memFilter_wf _ _ hm
    · refine safe_ite (fun _ => ?_) (fun _ => ?_)
      · dsimp only
        refine safe_mk (safe_mem ?_ (fun hm => ?_))
        · refine keeps_safe (clearBlock_keeps ..) rfl ?_
          refine poisonBlock_safe (hs := ?_) ..
          assumption
        · exact memFilter_wf _ _ hm
      · refine safe_ite (fun _ => ?_) (fun _ => ?_)
        · refine keeps_safe (clearBlock_keeps ..) rfl ?_
          refine countCorrection_safe (hs := ?_) ..
          assumption
        · assumption

theorem dramWrite_safe (s : State) (a : Nat) (data : List Byte) (strobe : List Bool) (hs : State.Safe s) : State.Safe
    (dramWrite s a data strobe) := by
  unfold dramWrite
  dsimp only
  refine safe_mk (safe_mem ?_ (fun hm => ?_))
  · refine safe_foldl (fun _ _ _ => ?_) ?_
    · refine dramOpen_safe (hs := ?_) ..
      refine safe_foldl (fun _ _ _ => ?_) ?_
      · refine keeps_safe (activate_keeps ..) rfl ?_
        assumption
      · refine keeps_safe (keepSource_keeps ..) rfl ?_
        assumption
    · assumption
  · exact memStrobe_wf _ _ _ _ hm

theorem dramZero_safe (s : State) (lo hi : Nat) (hs : State.Safe s) : State.Safe (dramZero s lo hi) := by
  unfold dramZero
  refine safe_mk (safe_mem ?_ (fun hm => ?_))
  · assumption
  · exact memFilter_wf _ _ hm

theorem dramBurst_safe (s : State) (a : Nat) (data : List Byte) (strobe : List Bool) (hs : State.Safe s) : State.Safe
    (dramBurst s a data strobe) := by
  unfold dramBurst
  refine keeps_safe (burstEnd_keeps ..) rfl ?_
  refine dramWrite_safe (hs := ?_) ..
  refine wakeDram_safe (hs := ?_) ..
  assumption

theorem dramWipe_safe (s : State) (lo hi : Nat) (hs : State.Safe s) : State.Safe (dramWipe s lo hi) := by
  unfold dramWipe
  dsimp only
  refine safe_foldl (fun _ _ _ => ?_) ?_
  · refine dramBurst_safe (hs := ?_) ..
    assumption
  · assumption

theorem copyBlock_safe (s : State) (b : Nat) (hs : State.Safe s) : State.Safe (copyBlock s b) := by
  unfold copyBlock
  refine safe_ite (fun _ => ?_) (fun _ => ?_)
  · assumption
  · refine safe_ite (fun _ => ?_) (fun _ => ?_)
    · refine poisonBlock_safe (hs := ?_) ..
      assumption
    · refine countCorrection_safe (hs := ?_) ..
      assumption

theorem copyReads_safe (s : State) (m : Migration) (lo hi : Nat) (hs : State.Safe s) : State.Safe (copyReads s m lo hi)
    := by
  unfold copyReads
  dsimp only
  refine safe_foldl (fun _ _ _ => ?_) ?_
  · refine copyBlock_safe (hs := ?_) ..
    assumption
  · refine keeps_safe (activateRun_keeps ..) rfl ?_
    refine keeps_safe (activateRun_keeps ..) rfl ?_
    assumption

theorem migrationCopy_safe (s : State) (ceiling : Nat) (hs : State.Safe s) : State.Safe (migrationCopy s ceiling) := by
  unfold migrationCopy
  split
  · assumption
  · dsimp only
    refine keeps_safe (copiedTo_keeps ..) rfl ?_
    refine copyReads_safe (hs := ?_) ..
    assumption

theorem patrolScrub_safe (s0 : State) (blocks : Nat) (hs : State.Safe s0) : State.Safe (patrolScrub s0 blocks) := by
  unfold patrolScrub
  dsimp only
  refine safe_mk (safe_parts ?_)
  refine safe_foldl (fun _ _ _ => ?_) ?_
  · refine safe_ite (fun _ => ?_) (fun _ => ?_)
    · assumption
    · refine safe_ite (fun _ => ?_) (fun _ => ?_)
      · refine poisonBlock_safe (hs := ?_) ..
        assumption
      · refine safe_mk (safe_parts ?_)
        refine countCorrection_safe (hs := ?_) ..
        assumption
  · refine safe_foldl (fun _ _ _ => ?_) ?_
    · refine keeps_safe (activate_keeps ..) rfl ?_
      assumption
    · assumption

theorem modeRegisters_safe (s : State) (ranks : List (Nat × Nat × Bool)) (hs : State.Safe s) : State.Safe (modeRegisters
    s ranks) := by
  unfold modeRegisters
  dsimp only
  refine safe_foldl (fun _ _ _ => ?_) ?_
  · refine safe_ite (fun _ => ?_) (fun _ => ?_)
    · assumption
    · refine triggerRank_safe (hs := ?_) ..
      assumption
  · refine keeps_safe (State.stset_keeps ..) rfl ?_
    assumption

theorem execLedgerScrub_safe (upsets : List Upset) (s : State) (t : State) (h : execLedgerScrub upsets s = .next t) (hs
    : State.Safe s) : State.Safe t := by
  unfold execLedgerScrub at h
  refine safe_done h ?_
  refine safe_ite (fun _ => ?_) (fun _ => ?_)
  · refine scrubSlot_safe (hs := ?_) ..
    refine keeps_safe (applyUpsets_keeps ..) rfl ?_
    assumption
  · assumption

theorem execModeRegisterRead_safe (ranks : List (Nat × Nat × Bool)) (s : State) (t : State) (h : execModeRegisterRead
    ranks s = .next t) (hs : State.Safe s) : State.Safe t := by
  unfold execModeRegisterRead at h
  refine safe_done h ?_
  refine safe_ite (fun _ => ?_) (fun _ => ?_)
  · refine modeRegisters_safe (hs := ?_) ..
    assumption
  · assumption

theorem execPatrolScrub_safe (blocks : Nat) (upsets : List Upset) (s : State) (t : State) (h : execPatrolScrub blocks
    upsets s = .next t) (hs : State.Safe s) : State.Safe t := by
  unfold execPatrolScrub at h
  refine safe_done h ?_
  refine safe_ite (fun _ => ?_) (fun _ => ?_)
  · refine patrolScrub_safe (hs := ?_) ..
    refine keeps_safe (applyUpsets_keeps ..) rfl ?_
    assumption
  · assumption

theorem execSelfRefreshExit_safe (addr : Nat) (s : State) (t : State) (h : execSelfRefreshExit addr s = .next t) (hs :
    State.Safe s) : State.Safe t := by
  unfold execSelfRefreshExit at h
  refine safe_done h ?_
  refine safe_ite (fun _ => ?_) (fun _ => ?_)
  · refine backInService_safe (hs := ?_) ..
    assumption
  · assumption

theorem execMigrateRank_safe (rank value : Nat) (s : State) (t : State) (h : execMigrateRank rank value s = .next t) (hs
    : State.Safe s) : State.Safe t := by
  unfold execMigrateRank at h
  refine safe_done h ?_
  refine attempt_safe ?_ ?_
  · refine safe_ite (fun _ => ?_) (fun _ => ?_)
    · refine triggerRank_safe (hs := ?_) ..
      assumption
    · assumption
  · assumption

end Sys2Proof.Machine
end

