-- ==== Sys2Proof/Laws/SafeTally.lean ====
section
/-! SUPPORT. Safety is kept by the functions of Machine/Tally.lean that change memory or the twin. -/
namespace Sys2Proof.Machine

theorem give_safe (s : State) (r an : Nat) (e : Nat × Item) (hs : State.Safe s) : State.Safe (give s r an e) := by
  unfold give
  refine safe_mk (safe_mem ?_ (fun hm => ?_))
  · refine keeps_safe (State.setRod_keeps ..) rfl ?_
    refine keeps_safe (State.setQueue_keeps ..) rfl ?_
    assumption
  · exact memWrite_wf _ _ _ hm

theorem giveIfAny_safe (s : State) (r : Nat) (hs : State.Safe s) : State.Safe (giveIfAny s r) := by
  unfold giveIfAny
  split
  · refine give_safe (hs := ?_) ..
    assumption
  · assumption

theorem tallyGive_safe (s : State) (hs : State.Safe s) : State.Safe (tallyGive s) := by
  unfold tallyGive
  split
  · refine safe_mk (safe_parts ?_)
    refine giveIfAny_safe (hs := ?_) ..
    assumption
  · assumption

theorem execTallyGive_safe (s : State) (t : State) (h : execTallyGive s = .next t) (hs : State.Safe s) : State.Safe t :=
    by
  unfold execTallyGive at h
  refine safe_done h ?_
  refine tallyGive_safe (hs := ?_) ..
  assumption

end Sys2Proof.Machine
end

