-- ==== Sys2Proof/Laws/SafePlacement.lean ====
section
/-! SUPPORT. Safety is kept by the functions of Machine/Placement.lean that change memory or the twin. -/
namespace Sys2Proof.Machine

theorem placementMissed_safe (s : State) (scope : List Nat) (hs : State.Safe s) : State.Safe (placementMissed s scope)
    := by
  unfold placementMissed
  refine keeps_safe (placementPurge_keeps ..) rfl ?_
  refine safe_ite (fun _ => ?_) (fun _ => ?_)
  · refine keeps_safe (publishPlacement_keeps ..) rfl ?_
    refine stageMiss_safe (hs := ?_) ..
    refine safe_foldl (fun _ _ _ => ?_) ?_
    · refine keeps_safe (missObj_keeps ..) rfl ?_
      assumption
    · assumption
  · assumption

theorem execPlacementPublish_safe (at_ : Nat) (s : State) (t : State) (h : execPlacementPublish at_ s = .next t) (hs :
    State.Safe s) : State.Safe t := by
  unfold execPlacementPublish at h
  refine safe_done h ?_
  refine safe_ite (fun _ => ?_) (fun _ => ?_)
  · refine keeps_safe (State.elapse_keeps ..) rfl ?_
    refine placementMissed_safe (hs := ?_) ..
    refine keeps_safe (State.elapse_keeps ..) rfl ?_
    assumption
  · dsimp only
    refine safe_ite (fun _ => ?_) (fun _ => ?_)
    · refine keeps_safe (publishPlacement_keeps ..) rfl ?_
      refine keeps_safe (State.elapse_keeps ..) rfl ?_
      assumption
    · refine keeps_safe (State.elapse_keeps ..) rfl ?_
      assumption

theorem execPlacementDeadline_safe (incomplete : List Nat) (s : State) (t : State) (h : execPlacementDeadline incomplete
    s = .next t) (hs : State.Safe s) : State.Safe t := by
  unfold execPlacementDeadline at h
  refine safe_done h ?_
  refine placementMissed_safe (hs := ?_) ..
  refine keeps_safe (State.elapse_keeps ..) rfl ?_
  assumption

end Sys2Proof.Machine
end

