-- ==== Sys2Proof/Laws/SafeTime.lean ====
section
/-! SUPPORT. Safety is kept by the functions of Machine/Time.lean that change memory or the twin. -/
namespace Sys2Proof.Machine

theorem rebaseFallback_safe (s : State) (hs : State.Safe s) : State.Safe (rebaseFallback s) := by
  unfold rebaseFallback
  split
  · refine safe_ite (fun _ => ?_) (fun _ => ?_)
    · refine safe_mk (safe_parts ?_)
      refine keeps_safe (decideRebase_keeps ..) rfl ?_
      assumption
    · assumption
  · assumption

theorem execRebaseFallback_safe (s : State) (t : State) (h : execRebaseFallback s = .next t) (hs : State.Safe s) :
    State.Safe t := by
  unfold execRebaseFallback at h
  refine safe_done h ?_
  refine rebaseFallback_safe (hs := ?_) ..
  assumption

end Sys2Proof.Machine
end

