-- ==== Sys2Proof/Laws/SafeStreams.lean ====
section
/-! SUPPORT. Safety is kept by the functions of Machine/Streams.lean that change memory or the twin. -/
namespace Sys2Proof.Machine

theorem takeCopy_safe (s : State) (i : Nat) (c : RxCopy) (p : List Byte) (margin : Int) (hs : State.Safe s) : State.Safe
    (takeCopy s i c p margin) := by
  unfold takeCopy
  refine keeps_safe (takeContents_keeps ..) rfl ?_
  refine safe_ite (fun _ => ?_) (fun _ => ?_)
  · refine State.mark_safe (hs := ?_) ..
    refine keeps_safe (State.bump_keeps ..) rfl ?_
    refine keeps_safe (State.bump_keeps ..) rfl ?_
    refine keeps_safe (setRx_keeps ..) rfl ?_
    assumption
  · refine keeps_safe (State.bump_keeps ..) rfl ?_
    refine keeps_safe (State.bump_keeps ..) rfl ?_
    refine keeps_safe (setRx_keeps ..) rfl ?_
    assumption

theorem rxCopy_safe (s : State) (d : SMap Nat) (i k : Nat) (p : List Byte) (margin : Int) (hs : State.Safe s) :
    State.Safe (rxCopy s d i k p margin) := by
  unfold rxCopy
  dsimp only
  split
  · refine keeps_safe (duplicate_keeps ..) rfl ?_
    assumption
  · refine safe_ite (fun _ => ?_) (fun _ => ?_)
    · refine takeCopy_safe (hs := ?_) ..
      assumption
    · refine safe_ite (fun _ => ?_) (fun _ => ?_)
      · refine keeps_safe (State.bump_keeps ..) rfl ?_
        assumption
      · refine keeps_safe (setRx_keeps ..) rfl ?_
        assumption

theorem rxPacket_safe (s : State) (g : Datagram) (i : Nat) (hs : State.Safe s) : State.Safe (rxPacket s g i) := by
  unfold rxPacket
  refine safe_ite (fun _ => ?_) (fun _ => ?_)
  · assumption
  · split
    · refine keeps_safe (State.raise_keeps ..) rfl ?_
      refine keeps_safe (State.bump_keeps ..) rfl ?_
      assumption
    · refine keeps_safe (State.raise_keeps ..) rfl ?_
      refine keeps_safe (State.bump_keeps ..) rfl ?_
      assumption
    · refine safe_ite (fun _ => ?_) (fun _ => ?_)
      · refine keeps_safe (State.bump_keeps ..) rfl ?_
        assumption
      · refine safe_ite (fun _ => ?_) (fun _ => ?_)
        · refine State.mark_safe (hs := ?_) ..
          refine keeps_safe (State.raise_keeps ..) rfl ?_
          refine keeps_safe (State.bump_keeps ..) rfl ?_
          refine keeps_safe (State.stset_keeps ..) rfl ?_
          assumption
        · refine rxCopy_safe (hs := ?_) ..
          refine keeps_safe (State.stset_keeps ..) rfl ?_
          assumption

theorem shadowCutoff_safe (s : State) (i block : Nat) (hs : State.Safe s) : State.Safe (shadowCutoff s i block) := by
  unfold shadowCutoff
  refine safe_foldl (fun _ _ _ => ?_) ?_
  · refine safe_ite (fun _ => ?_) (fun _ => ?_)
    · refine takeCopy_safe (hs := ?_) ..
      refine keeps_safe (State.bump_keeps ..) rfl ?_
      refine keeps_safe (setRx_keeps ..) rfl ?_
      assumption
    · assumption
  · assumption

theorem execStreamPacketReceived_safe (at_ port : Nat) (dgram : Datagram) (s : State) (t : State) (h :
    execStreamPacketReceived at_ port dgram s = .next t) (hs : State.Safe s) : State.Safe t := by
  unfold execStreamPacketReceived at h
  refine safe_done h ?_
  refine safe_ite (fun _ => ?_) (fun _ => ?_)
  · refine safe_foldl (fun _ _ _ => ?_) ?_
    · refine rxPacket_safe (hs := ?_) ..
      assumption
    · refine keeps_safe (State.elapse_keeps ..) rfl ?_
      assumption
  · refine keeps_safe (State.elapse_keeps ..) rfl ?_
    assumption

theorem execShadowCutoff_safe (slot block : Nat) (s : State) (t : State) (h : execShadowCutoff slot block s = .next t)
    (hs : State.Safe s) : State.Safe t := by
  unfold execShadowCutoff at h
  refine safe_done h ?_
  refine safe_ite (fun _ => ?_) (fun _ => ?_)
  · refine safe_ite (fun _ => ?_) (fun _ => ?_)
    · refine shadowCutoff_safe (hs := ?_) ..
      refine keeps_safe (State.elapse_keeps ..) rfl ?_
      assumption
    · refine keeps_safe (State.elapse_keeps ..) rfl ?_
      assumption
  · assumption

end Sys2Proof.Machine
end

