-- ==== Sys2Proof/Laws/SafePorts.lean ====
section
/-! SUPPORT. Safety is kept by the functions of Machine/Ports.lean that change memory or the twin. -/
namespace Sys2Proof.Machine

theorem aesApply_safe (s : State) (i : Nat) (hs : State.Safe s) : State.Safe (aesApply s i) := by
  unfold aesApply
  dsimp only
  split
  · assumption
  · refine safe_ite (fun _ => ?_) (fun _ => ?_)
    · assumption
    · refine safe_ite (fun _ => ?_) (fun _ => ?_)
      · refine State.mark_safe (hs := ?_) ..
        refine keeps_safe (State.stset_keeps ..) rfl ?_
        refine keeps_safe (State.stset_keeps ..) rfl ?_
        refine keeps_safe (setAes_keeps ..) rfl ?_
        assumption
      · refine keeps_safe (State.stset_keeps ..) rfl ?_
        refine keeps_safe (State.stset_keeps ..) rfl ?_
        refine keeps_safe (setAes_keeps ..) rfl ?_
        assumption

theorem rhoDecision_safe (s : State) (i rho : Nat) (hs : State.Safe s) : State.Safe (rhoDecision s i rho) := by
  unfold rhoDecision
  dsimp only
  refine safe_ite (fun _ => ?_) (fun _ => ?_)
  · assumption
  · refine safe_ite (fun _ => ?_) (fun _ => ?_)
    · refine safe_ite (fun _ => ?_) (fun _ => ?_)
      · refine State.mark_safe (hs := ?_) ..
        refine keeps_safe (decideRho_keeps ..) rfl ?_
        assumption
      · refine safe_ite (fun _ => ?_) (fun _ => ?_)
        · refine keeps_safe (State.heard_keeps ..) rfl ?_
          refine keeps_safe (setAes_keeps ..) rfl ?_
          assumption
        · assumption
    · refine safe_ite (fun _ => ?_) (fun _ => ?_)
      · assumption
      · refine safe_ite (fun _ => ?_) (fun _ => ?_)
        · refine keeps_safe (State.sendPort_keeps ..) rfl ?_
          refine keeps_safe (decideRho_keeps ..) rfl ?_
          assumption
        · refine keeps_safe (decideRho_keeps ..) rfl ?_
          assumption

theorem execAes3LockApply_safe (input : Nat) (s : State) (t : State) (h : execAes3LockApply input s = .next t) (hs :
    State.Safe s) : State.Safe t := by
  unfold execAes3LockApply at h
  refine safe_done h ?_
  refine aesApply_safe (hs := ?_) ..
  assumption

theorem execAes3RhoDecision_safe (input rho : Nat) (s : State) (t : State) (h : execAes3RhoDecision input rho s = .next
    t) (hs : State.Safe s) : State.Safe t := by
  unfold execAes3RhoDecision at h
  refine safe_done h ?_
  refine rhoDecision_safe (hs := ?_) ..
  assumption

end Sys2Proof.Machine
end

