-- ==== Sys2Proof/Laws/SafeDrive.lean ====
section
/-! SUPPORT. Safety is kept by the functions of Machine/Drive.lean that change memory or the twin. -/
namespace Sys2Proof.Machine

theorem carrierPeriod_safe (s0 : State) (inp : CarrierIn) (hs : State.Safe s0) : State.Safe (carrierPeriod s0 inp) := by
  unfold carrierPeriod
  dsimp only
  refine safe_ite (fun _ => ?_) (fun _ => ?_)
  · refine keeps_safe (State.elapse_keeps ..) rfl ?_
    assumption
  · refine safe_mk (safe_parts ?_)
    refine safe_ite (fun _ => ?_) (fun _ => ?_)
    · refine safe_foldl (fun _ _ _ => ?_) ?_
      · refine keeps_safe (railPeriod_keeps ..) rfl ?_
        assumption
      · refine safe_foldl (fun _ _ _ => ?_) ?_
        · refine keeps_safe (channelPeriod_keeps ..) rfl ?_
          assumption
        · refine safe_mk (safe_parts ?_)
          refine keeps_safe (State.elapse_keeps ..) rfl ?_
          assumption
    · refine safe_foldl (fun _ _ _ => ?_) ?_
      · refine keeps_safe (channelPeriod_keeps ..) rfl ?_
        assumption
      · refine safe_mk (safe_parts ?_)
        refine keeps_safe (State.elapse_keeps ..) rfl ?_
        assumption

theorem gateShown_safe (s : State) (hs : State.Safe s) : State.Safe (gateShown s) := by
  unfold gateShown
  dsimp only
  refine keeps_safe (State.stset_keeps ..) rfl ?_
  refine safe_mk (safe_parts ?_)
  assumption

theorem gateChange_safe (s : State) (actIn : Bool) (hs : State.Safe s) : State.Safe (gateChange s actIn) := by
  unfold gateChange
  refine keeps_safe (State.stset_keeps ..) rfl ?_
  refine safe_mk (safe_parts ?_)
  assumption

theorem driveTick_safe (s : State) (hs : State.Safe s) : State.Safe (driveTick s) := by
  unfold driveTick
  dsimp only
  refine gateShown_safe (hs := ?_) ..
  refine safe_foldl (fun _ _ _ => ?_) ?_
  · refine keeps_safe (railLimits_keeps ..) rfl ?_
    assumption
  · refine safe_foldl (fun _ _ _ => ?_) ?_
    · refine keeps_safe (driveTickStart_keeps ..) rfl ?_
      assumption
    · refine safe_mk (safe_parts ?_)
      assumption

theorem execCarrierPeriod_safe (inp : CarrierIn) (s : State) (t : State) (h : execCarrierPeriod inp s = .next t) (hs :
    State.Safe s) : State.Safe t := by
  unfold execCarrierPeriod at h
  refine safe_done h ?_
  refine carrierPeriod_safe (hs := ?_) ..
  assumption

end Sys2Proof.Machine
end

