-- ==== Sys2Proof/Laws/SafeFrames.lean ====
section
/-! SUPPORT. Safety is kept by the functions of Machine/Frames.lean that change memory or the twin. -/
namespace Sys2Proof.Machine

theorem copyInstrMemory_wf (m : List Host.Cell) (a b : Nat) (h : Memory.wf m = true) :
    Memory.wf (copyInstrMemory m a b) = true :=
  memFold_wf _ (fun _ _ h => memSet_wf _ _ _ h) _ _ (memClear_wf _ _ _ h)

theorem copyDataMemory_wf (m : List Host.Cell) (a b : Nat) (h : Memory.wf m = true) :
    Memory.wf (copyDataMemory m a b) = true :=
  memFold_wf _ (fun _ _ h => memSet_wf _ _ _ h) _ _ (memClear_wf _ _ _ h)

theorem loadImage_wf (m : List Host.Cell) (r : Nat) (i : SlotImage) (h : Memory.wf m = true) :
    Memory.wf (loadImage m r i) = true :=
  memFold_wf _ (fun _ _ h => memWrite_wf _ _ _ h) _ _ (memClear_wf _ _ _ h)

theorem stopSlot_safe (s : State) (u code : Nat) (hs : State.Safe s) : State.Safe (stopSlot s u code) := by
  unfold stopSlot
  dsimp only
  split
  · refine keeps_safe (State.setRod_keeps ..) rfl ?_
    refine keeps_safe (setSlot_keeps ..) rfl ?_
    refine State.mark_safe (hs := ?_) ..
    assumption
  · refine keeps_safe (setSlot_keeps ..) rfl ?_
    refine State.mark_safe (hs := ?_) ..
    assumption

theorem measureItem_safe (s : State) (u r : Nat) (hs : State.Safe s) : State.Safe (measureItem s u r) := by
  unfold measureItem
  refine safe_ite (fun _ => ?_) (fun _ => ?_)
  · refine keeps_safe (State.stset_keeps ..) rfl ?_
    assumption
  · refine safe_ite (fun _ => ?_) (fun _ => ?_)
    · refine stopSlot_safe (hs := ?_) ..
      refine keeps_safe (State.raise_keeps ..) rfl ?_
      refine keeps_safe (State.bump_keeps ..) rfl ?_
      refine keeps_safe (setSlot_keeps ..) rfl ?_
      refine keeps_safe (State.stset_keeps ..) rfl ?_
      assumption
    · refine keeps_safe (State.raise_keeps ..) rfl ?_
      refine keeps_safe (State.bump_keeps ..) rfl ?_
      refine keeps_safe (setSlot_keeps ..) rfl ?_
      refine keeps_safe (State.stset_keeps ..) rfl ?_
      assumption

theorem endItem_safe (s : State) (r : Nat) (failed : Bool) (hs : State.Safe s) : State.Safe (endItem s r failed) := by
  unfold endItem
  dsimp only
  split
  · assumption
  · split
    · refine measureItem_safe (hs := ?_) ..
      refine safe_ite (fun _ => ?_) (fun _ => ?_)
      · refine keeps_safe (State.raise_keeps ..) rfl ?_
        refine keeps_safe (State.bump_keeps ..) rfl ?_
        refine keeps_safe (State.setRod_keeps ..) rfl ?_
        assumption
      · refine keeps_safe (State.setRod_keeps ..) rfl ?_
        assumption
    · refine safe_ite (fun _ => ?_) (fun _ => ?_)
      · refine keeps_safe (State.raise_keeps ..) rfl ?_
        refine keeps_safe (State.bump_keeps ..) rfl ?_
        refine keeps_safe (State.setRod_keeps ..) rfl ?_
        assumption
      · refine keeps_safe (State.setRod_keeps ..) rfl ?_
        assumption

theorem clearRod_safe (s : State) (r : Nat) (hs : State.Safe s) : State.Safe (clearRod s r) := by
  unfold clearRod
  refine endItem_safe (hs := ?_) ..
  refine keeps_safe (dropHeld_keeps ..) rfl ?_
  assumption

theorem moveSlot_safe (s : State) (u r : Nat) (hs : State.Safe s) : State.Safe (moveSlot s u r) := by
  unfold moveSlot
  split
  · dsimp only
    refine safe_mk (safe_parts ?_)
    refine keeps_safe (holdFlow_keeps ..) rfl ?_
    assumption
  · refine stopSlot_safe (hs := ?_) ..
    refine clearRod_safe (hs := ?_) ..
    refine keeps_safe (endMove_keeps ..) rfl ?_
    assumption

theorem rechoose_safe (s : State) (hs : State.Safe s) : State.Safe (rechoose s) := by
  unfold rechoose
  refine safe_foldl (fun _ _ _ => ?_) ?_
  · refine safe_ite (fun _ => ?_) (fun _ => ?_)
    · assumption
    · refine moveSlot_safe (hs := ?_) ..
      refine safe_mk (safe_parts ?_)
      assumption
  · assumption

theorem retireRodMoving_safe (s : State) (r : Nat) (hs : State.Safe s) : State.Safe (retireRodMoving s r) := by
  unfold retireRodMoving
  dsimp only
  split
  · refine keeps_safe (judgeCompute_keeps ..) rfl ?_
    refine moveSlot_safe (hs := ?_) ..
    refine rechoose_safe (hs := ?_) ..
    refine keeps_safe (retireRodNow_keeps ..) rfl ?_
    assumption
  · refine keeps_safe (judgeCompute_keeps ..) rfl ?_
    refine rechoose_safe (hs := ?_) ..
    refine keeps_safe (retireRodNow_keeps ..) rfl ?_
    assumption

theorem healthPolicy_safe (s : State) (r : Nat) (hs : State.Safe s) : State.Safe (healthPolicy s r) := by
  unfold healthPolicy
  split
  · assumption
  · refine retireRodMoving_safe (hs := ?_) ..
    assumption
  · split
    · refine safe_ite (fun _ => ?_) (fun _ => ?_)
      · refine keeps_safe (beginRotation_keeps ..) rfl ?_
        assumption
      · assumption
    · refine retireRodMoving_safe (hs := ?_) ..
      assumption

theorem setHealth_safe (s : State) (r : Nat) (hs : State.Safe s) : State.Safe (setHealth s r) := by
  unfold setHealth
  refine safe_ite (fun _ => ?_) (fun _ => ?_)
  · assumption
  · refine healthPolicy_safe (hs := ?_) ..
    refine keeps_safe (State.setRod_keeps ..) rfl ?_
    assumption

theorem slotFaulted_safe (s : State) (slot : Option Nat) (code : Nat) (hs : State.Safe s) : State.Safe (slotFaulted s
    slot code) := by
  unfold slotFaulted
  split
  · refine keeps_safe (State.raise_keeps ..) rfl ?_
    refine keeps_safe (State.stset_keeps ..) rfl ?_
    refine keeps_safe (setSlot_keeps ..) rfl ?_
    refine State.mark_safe (hs := ?_) ..
    assumption
  · assumption

theorem rodFault_safe (s : State) (r code trapOp : Nat) (hs : State.Safe s) : State.Safe (rodFault s r code trapOp) :=
    by
  unfold rodFault
  dsimp only
  refine safe_ite (fun _ => ?_) (fun _ => ?_)
  · refine setHealth_safe (hs := ?_) ..
    refine slotFaulted_safe (hs := ?_) ..
    refine endItem_safe (hs := ?_) ..
    refine keeps_safe (State.raise_keeps ..) rfl ?_
    refine keeps_safe (State.stset_keeps ..) rfl ?_
    refine keeps_safe (State.bump_keeps ..) rfl ?_
    refine keeps_safe (State.setRod_keeps ..) rfl ?_
    refine keeps_safe (dropHeld_keeps ..) rfl ?_
    assumption
  · refine slotFaulted_safe (hs := ?_) ..
    refine endItem_safe (hs := ?_) ..
    refine keeps_safe (State.raise_keeps ..) rfl ?_
    refine keeps_safe (State.stset_keeps ..) rfl ?_
    refine keeps_safe (State.bump_keeps ..) rfl ?_
    refine keeps_safe (State.setRod_keeps ..) rfl ?_
    refine keeps_safe (dropHeld_keeps ..) rfl ?_
    assumption

theorem rotationSwitch_safe (s : State) (hs : State.Safe s) : State.Safe (rotationSwitch s) := by
  unfold rotationSwitch
  split
  · refine safe_ite (fun _ => ?_) (fun _ => ?_)
    · dsimp only
      refine keeps_safe (settleRotation_keeps ..) rfl ?_
      refine rechoose_safe (hs := ?_) ..
      refine safe_foldl (fun _ _ _ => ?_) ?_
      · split
        · refine safe_mk (safe_parts ?_)
          refine keeps_safe (holdFlow_keeps ..) rfl ?_
          assumption
        · refine keeps_safe (State.setRod_keeps ..) rfl ?_
          refine clearRod_safe (hs := ?_) ..
          assumption
      · refine keeps_safe (setFrame_keeps ..) rfl ?_
        refine safe_mk (safe_parts ?_)
        refine keeps_safe (exclude_keeps ..) rfl ?_
        assumption
    · refine keeps_safe (settleRotation_keeps ..) rfl ?_
      assumption
  · assumption

theorem loseSlot_safe (s : State) (u a : Nat) (hs : State.Safe s) : State.Safe (loseSlot s u a) := by
  unfold loseSlot
  dsimp only
  refine keeps_safe (setSlot_keeps ..) rfl ?_
  refine keeps_safe (State.setRod_keeps ..) rfl ?_
  refine keeps_safe (endMove_keeps ..) rfl ?_
  refine rodFault_safe (hs := ?_) ..
  refine keeps_safe (State.setRod_keeps ..) rfl ?_
  assumption

theorem carrySlot_safe (s : State) (u a b : Nat) (hs : State.Safe s) : State.Safe (carrySlot s u a b) := by
  unfold carrySlot
  dsimp only
  refine keeps_safe (endMove_keeps ..) rfl ?_
  refine keeps_safe (pinFlow_keeps ..) rfl ?_
  refine keeps_safe (setSlot_keeps ..) rfl ?_
  refine keeps_safe (State.setRod_keeps ..) rfl ?_
  refine keeps_safe (State.setRod_keeps ..) rfl ?_
  refine safe_mk (safe_mem ?_ (fun hm => ?_))
  · refine clearRod_safe (hs := ?_) ..
    refine keeps_safe (noteData_keeps ..) rfl ?_
    assumption
  · exact copyDataMemory_wf _ _ _ (copyInstrMemory_wf _ _ _ hm)

theorem copySlot_safe (s : State) (u : Nat) (hs : State.Safe s) : State.Safe (copySlot s u) := by
  unfold copySlot
  split
  refine safe_ite (fun _ => ?_) (fun _ => ?_)
  · assumption
  · refine safe_ite (fun _ => ?_) (fun _ => ?_)
    · refine moveSlot_safe (hs := ?_) ..
      refine safe_mk (safe_parts ?_)
      assumption
    · refine keeps_safe (judgeCompute_keeps ..) rfl ?_
      refine keeps_safe (settleRotation_keeps ..) rfl ?_
      refine safe_ite (fun _ => ?_) (fun _ => ?_)
      · refine loseSlot_safe (hs := ?_) ..
        assumption
      · refine carrySlot_safe (hs := ?_) ..
        assumption

theorem fenceRod_safe (s : State) (r : Nat) (hs : State.Safe s) : State.Safe (fenceRod s r) := by
  unfold fenceRod
  dsimp only
  refine safe_ite (fun _ => ?_) (fun _ => ?_)
  · refine keeps_safe (setFrame_keeps ..) rfl ?_
    refine keeps_safe (withdrawNew_keeps ..) rfl ?_
    refine rechoose_safe (hs := ?_) ..
    refine clearRod_safe (hs := ?_) ..
    refine keeps_safe (State.setRod_keeps ..) rfl ?_
    assumption
  · refine safe_ite (fun _ => ?_) (fun _ => ?_)
    · refine keeps_safe (judgeCompute_keeps ..) rfl ?_
      refine rechoose_safe (hs := ?_) ..
      refine clearRod_safe (hs := ?_) ..
      refine keeps_safe (State.setRod_keeps ..) rfl ?_
      assumption
    · split
      · refine keeps_safe (beginRotation_keeps ..) rfl ?_
        split
        · refine safe_ite (fun _ => ?_) (fun _ => ?_)
          · refine keeps_safe (countRotation_keeps ..) rfl ?_
            refine keeps_safe (setFrame_keeps ..) rfl ?_
            refine safe_mk (safe_parts ?_)
            refine rechoose_safe (hs := ?_) ..
            refine clearRod_safe (hs := ?_) ..
            refine keeps_safe (State.setRod_keeps ..) rfl ?_
            assumption
          · refine rechoose_safe (hs := ?_) ..
            refine clearRod_safe (hs := ?_) ..
            refine keeps_safe (State.setRod_keeps ..) rfl ?_
            assumption
        · refine rechoose_safe (hs := ?_) ..
          refine clearRod_safe (hs := ?_) ..
          refine keeps_safe (State.setRod_keeps ..) rfl ?_
          assumption
      · split
        · refine keeps_safe (judgeCompute_keeps ..) rfl ?_
          refine moveSlot_safe (hs := ?_) ..
          split
          · refine safe_ite (fun _ => ?_) (fun _ => ?_)
            · refine keeps_safe (countRotation_keeps ..) rfl ?_
              refine keeps_safe (setFrame_keeps ..) rfl ?_
              refine safe_mk (safe_parts ?_)
              refine rechoose_safe (hs := ?_) ..
              refine clearRod_safe (hs := ?_) ..
              refine keeps_safe (State.setRod_keeps ..) rfl ?_
              assumption
            · refine rechoose_safe (hs := ?_) ..
              refine clearRod_safe (hs := ?_) ..
              refine keeps_safe (State.setRod_keeps ..) rfl ?_
              assumption
          · refine rechoose_safe (hs := ?_) ..
            refine clearRod_safe (hs := ?_) ..
            refine keeps_safe (State.setRod_keeps ..) rfl ?_
            assumption
        · refine keeps_safe (judgeCompute_keeps ..) rfl ?_
          split
          · refine safe_ite (fun _ => ?_) (fun _ => ?_)
            · refine keeps_safe (countRotation_keeps ..) rfl ?_
              refine keeps_safe (setFrame_keeps ..) rfl ?_
              refine safe_mk (safe_parts ?_)
              refine rechoose_safe (hs := ?_) ..
              refine clearRod_safe (hs := ?_) ..
              refine keeps_safe (State.setRod_keeps ..) rfl ?_
              assumption
            · refine rechoose_safe (hs := ?_) ..
              refine clearRod_safe (hs := ?_) ..
              refine keeps_safe (State.setRod_keeps ..) rfl ?_
              assumption
          · refine rechoose_safe (hs := ?_) ..
            refine clearRod_safe (hs := ?_) ..
            refine keeps_safe (State.setRod_keeps ..) rfl ?_
            assumption

theorem retireRodApply_safe (s : State) (r v : Nat) (hs : State.Safe s) : State.Safe (retireRodApply s r v) := by
  unfold retireRodApply
  refine safe_ite (fun _ => ?_) (fun _ => ?_)
  · refine retireRodMoving_safe (hs := ?_) ..
    assumption
  · assumption

theorem retireFrameApply_safe (s : State) (f v : Nat) (hs : State.Safe s) : State.Safe (retireFrameApply s f v) := by
  unfold retireFrameApply
  refine safe_ite (fun _ => ?_) (fun _ => ?_)
  · assumption
  · refine safe_ite (fun _ => ?_) (fun _ => ?_)
    · refine safe_mk (safe_parts ?_)
      assumption
    · refine safe_ite (fun _ => ?_) (fun _ => ?_)
      · split
        · refine keeps_safe (beginRotation_keeps ..) rfl ?_
          assumption
        · refine keeps_safe (judgeCompute_keeps ..) rfl ?_
          refine safe_foldl (fun _ _ _ => ?_) ?_
          · split
            · refine moveSlot_safe (hs := ?_) ..
              assumption
            · assumption
          · refine rechoose_safe (hs := ?_) ..
            refine keeps_safe (setFrame_keeps ..) rfl ?_
            assumption
      · refine keeps_safe (setFrame_keeps ..) rfl ?_
        refine keeps_safe (withdrawNew_keeps ..) rfl ?_
        assumption

theorem loadRod_safe (s : State) (u r : Nat) (i : SlotImage) (hs : State.Safe s) : State.Safe (loadRod s u r i) := by
  unfold loadRod
  dsimp only
  refine keeps_safe (State.setRod_keeps ..) rfl ?_
  refine safe_mk (safe_mem ?_ (fun hm => ?_))
  · refine clearRod_safe (hs := ?_) ..
    assumption
  · exact loadImage_wf _ _ _ hm

theorem slotEnableApply_safe (s : State) (u v : Nat) (hs : State.Safe s) : State.Safe (slotEnableApply s u v) := by
  unfold slotEnableApply
  dsimp only
  refine safe_ite (fun _ => ?_) (fun _ => ?_)
  · refine keeps_safe (judgeCompute_keeps ..) rfl ?_
    refine keeps_safe (settleRotation_keeps ..) rfl ?_
    refine keeps_safe (endMove_keeps ..) rfl ?_
    refine keeps_safe (setSlot_keeps ..) rfl ?_
    split
    · refine keeps_safe (State.setRod_keeps ..) rfl ?_
      refine endItem_safe (hs := ?_) ..
      refine keeps_safe (State.put_keeps ..) rfl ?_
      assumption
    · refine keeps_safe (State.put_keeps ..) rfl ?_
      assumption
  · refine safe_ite (fun _ => ?_) (fun _ => ?_)
    · assumption
    · split
      · refine keeps_safe (judgeCompute_keeps ..) rfl ?_
        refine keeps_safe (pinFlow_keeps ..) rfl ?_
        refine keeps_safe (setSlot_keeps ..) rfl ?_
        refine loadRod_safe (hs := ?_) ..
        refine keeps_safe (qcfgSet_keeps ..) rfl ?_
        refine keeps_safe (State.put_keeps ..) rfl ?_
        assumption
      · assumption

theorem execRotationLoadComplete_safe (s : State) (t : State) (h : execRotationLoadComplete s = .next t) (hs : s.Safe) : t.Safe := by
  have hf : ∀ (k : Rotation) (l : List Nat) (m : List Host.Cell), Memory.wf m = true →
      Memory.wf (l.foldl (fun m p => copyInstrMemory m (8 * k.old + p) (8 * k.new + p)) m) = true :=
    fun k l m hm => memFold_wf _ (fun m x h => copyInstrMemory_wf _ _ _ h) l m hm
  unfold execRotationLoadComplete at h
  refine safe_done h ?_
  generalize List.range 8 = l
  split
  · exact safe_ite (fun _ => safe_mk (safe_mem hs (fun hm => hf _ _ _ hm))) (fun _ => hs)
  · exact hs

theorem execUserSlotCopy_safe (slot : Nat) (s : State) (t : State) (h : execUserSlotCopy slot s = .next t) (hs :
    State.Safe s) : State.Safe t := by
  unfold execUserSlotCopy at h
  refine safe_done h ?_
  refine copySlot_safe (hs := ?_) ..
  assumption

theorem execRetireFrame_safe (frame value : Nat) (s : State) (t : State) (h : execRetireFrame frame value s = .next t) (hs : s.Safe) : t.Safe := by
  unfold execRetireFrame at h
  exact safe_done h (attempt_safe (retireFrameApply_safe _ _ _ hs) hs)

theorem execRetireRod_safe (rod value : Nat) (s : State) (t : State) (h : execRetireRod rod value s = .next t) (hs : s.Safe) : t.Safe := by
  unfold execRetireRod at h
  exact safe_done h (attempt_safe (retireRodApply_safe _ _ _ hs) hs)

theorem execSlotEnable_safe (slot value : Nat) (s : State) (t : State) (h : execSlotEnable slot value s = .next t) (hs : s.Safe) : t.Safe := by
  unfold execSlotEnable at h
  exact safe_done h (attempt_safe (slotEnableApply_safe _ _ _ hs) hs)

end Sys2Proof.Machine
end

