-- ==== Sys2Proof/Laws/SafeRodCore.lean ====
section
/-! SUPPORT. Safety is kept by the functions of Machine/RodCore.lean that change memory or the twin. -/
namespace Sys2Proof.Machine

theorem dmStore_safe (s : State) (r : Nat) (e : Nat × Word) (hs : State.Safe s) : State.Safe (dmStore s r e) := by
  unfold dmStore
  refine safe_mk (safe_mem ?_ (fun hm => ?_))
  · refine safe_ite (fun _ => ?_) (fun _ => ?_)
    · refine keeps_safe (rodHeal_keeps ..) rfl ?_
      refine keeps_safe (countRodEcc_keeps ..) rfl ?_
      assumption
    · assumption
  · exact memWrite_wf _ _ _ hm

theorem runWord_safe (s : State) (r : Nat) (word : State → State) (hw : ∀ u : State, u.Safe → (word u).Safe)
    (hs : s.Safe) : (runWord s r word).Safe := by
  have hl : ∀ u : State, u.Safe → (legalWord u r word).Safe := fun u hu => by
    unfold legalWord
    split
    · exact hw u hu
    · exact rodFault_safe _ _ _ _ hu
  unfold runWord
  split
  · split
    · exact hl s hs
    · split
      · exact rodFault_safe _ _ _ _ (keeps_safe (State.setRod_keeps ..) rfl hs)
      · exact hl _ (keeps_safe (countRodEcc_keeps ..) rfl hs)
  · exact hs

theorem controlWord_safe (s : State) (r : Nat) (legal permitted : Bool) (word : State → State)
    (hw : ∀ u : State, u.Safe → (word u).Safe) (hs : s.Safe) : (controlWord s r legal permitted word).Safe := by
  unfold controlWord
  refine runWord_safe s r _ (fun u hu => ?_) hs
  repeat' first | exact rodFault_safe _ _ _ _ hu | exact hw _ hu | split

end Sys2Proof.Machine
end

