-- ==== Sys2Proof/Laws/SafeRodControl.lean ====
section
/-! SUPPORT. Safety is kept by the functions of Machine/RodControl.lean that change memory or the twin. -/
namespace Sys2Proof.Machine

theorem openRepeat_safe (s : State) (r count w13 stall : Nat) (hs : State.Safe s) : State.Safe (openRepeat s r count w13
    stall) := by
  unfold openRepeat
  dsimp only
  refine safe_ite (fun _ => ?_) (fun _ => ?_)
  · refine rodFault_safe (hs := ?_) ..
    assumption
  · refine safe_ite (fun _ => ?_) (fun _ => ?_)
    · refine keeps_safe (finishAt_keeps ..) rfl ?_
      assumption
    · refine keeps_safe (finishAt_keeps ..) rfl ?_
      assumption

theorem breakLevel_safe (s : State) (r : Nat) (hs : State.Safe s) : State.Safe (breakLevel s r) := by
  unfold breakLevel
  dsimp only
  split
  · refine rodFault_safe (hs := ?_) ..
    assumption
  · refine keeps_safe (finishAt_keeps ..) rfl ?_
    assumption

theorem jumpIf_safe (s : State) (r : Nat) (taken : Bool) (uses : List Nat) (target : Nat) (rod : Rod) (hs : State.Safe
    s) : State.Safe (jumpIf s r taken uses target rod) := by
  unfold jumpIf
  refine safe_ite (fun _ => ?_) (fun _ => ?_)
  · refine rodFault_safe (hs := ?_) ..
    assumption
  · refine safe_ite (fun _ => ?_) (fun _ => ?_)
    · refine keeps_safe (finishAt_keeps ..) rfl ?_
      assumption
    · refine keeps_safe (finish_keeps ..) rfl ?_
      assumption

theorem finishItem_safe (s : State) (r : Nat) (hs : State.Safe s) : State.Safe (finishItem s r) := by
  unfold finishItem
  refine safe_ite (fun _ => ?_) (fun _ => ?_)
  · assumption
  · refine safe_ite (fun _ => ?_) (fun _ => ?_)
    · refine endItem_safe (hs := ?_) ..
      assumption
    · refine keeps_safe (State.setRod_keeps ..) rfl ?_
      assumption

theorem takeWord_safe (s : State) (r an k8 : Nat) (hs : State.Safe s) : State.Safe (takeWord s r an k8) := by
  unfold takeWord
  refine safe_ite (fun _ => ?_) (fun _ => ?_)
  · refine rodFault_safe (hs := ?_) ..
    assumption
  · refine safe_ite (fun _ => ?_) (fun _ => ?_)
    · refine finishItem_safe (hs := ?_) ..
      refine keeps_safe (State.setRod_keeps ..) rfl ?_
      assumption
    · refine giveIfAny_safe (hs := ?_) ..
      refine keeps_safe (State.setRod_keeps ..) rfl ?_
      refine finishItem_safe (hs := ?_) ..
      refine keeps_safe (State.setRod_keeps ..) rfl ?_
      assumption

theorem putWord_safe (s : State) (r an k8 : Nat) (hs : State.Safe s) : State.Safe (putWord s r an k8) := by
  unfold putWord
  dsimp only
  refine safe_ite (fun _ => ?_) (fun _ => ?_)
  · refine rodFault_safe (hs := ?_) ..
    assumption
  · refine safe_ite (fun _ => ?_) (fun _ => ?_)
    · refine rodFault_safe (hs := ?_) ..
      refine keeps_safe (State.setRod_keeps ..) rfl ?_
      assumption
    · split
      · refine keeps_safe (State.setRod_keeps ..) rfl ?_
        refine keeps_safe (tallyPut_keeps ..) rfl ?_
        refine keeps_safe (rodNote_keeps ..) rfl ?_
        assumption
      · refine keeps_safe (finish_keeps ..) rfl ?_
        refine keeps_safe (tallyPut_keeps ..) rfl ?_
        refine keeps_safe (rodNote_keeps ..) rfl ?_
        assumption

theorem xferWord_safe (s : State) (r : Nat) (out : Bool) (an fa md : Nat) (hs : State.Safe s) : State.Safe (xferWord s r
    out an fa md) := by
  unfold xferWord
  refine safe_ite (fun _ => ?_) (fun _ => ?_)
  · refine keeps_safe (finish_keeps ..) rfl ?_
    assumption
  · refine safe_ite (fun _ => ?_) (fun _ => ?_)
    · refine rodFault_safe (hs := ?_) ..
      assumption
    · refine safe_ite (fun _ => ?_) (fun _ => ?_)
      · refine rodFault_safe (hs := ?_) ..
        assumption
      · refine safe_ite (fun _ => ?_) (fun _ => ?_)
        · refine rodFault_safe (hs := ?_) ..
          assumption
        · refine safe_ite (fun _ => ?_) (fun _ => ?_)
          · refine rodFault_safe (hs := ?_) ..
            assumption
          · refine safe_ite (fun _ => ?_) (fun _ => ?_)
            · refine keeps_safe (stallWord_keeps ..) rfl ?_
              assumption
            · refine keeps_safe (finish_keeps ..) rfl ?_
              assumption

theorem immediateWord_safe (s : State) (r sel v : Nat) (uses : List Nat) (hs : State.Safe s) : State.Safe (immediateWord
    s r sel v uses) := by
  unfold immediateWord
  refine safe_ite (fun _ => ?_) (fun _ => ?_)
  · refine rodFault_safe (hs := ?_) ..
    assumption
  · refine keeps_safe (finish_keeps ..) rfl ?_
    assumption

theorem runStop_safe (s : State) (r : Nat) (hs : State.Safe s) : State.Safe (runStop s r) := by
  unfold runStop
  split
  · refine keeps_safe (State.setRod_keeps ..) rfl ?_
    refine endItem_safe (hs := ?_) ..
    refine keeps_safe (dropHeld_keeps ..) rfl ?_
    assumption
  · refine keeps_safe (State.setRod_keeps ..) rfl ?_
    refine endItem_safe (hs := ?_) ..
    refine keeps_safe (dropHeld_keeps ..) rfl ?_
    assumption
  · assumption

theorem execRep_safe (rod n16 w13 : Nat) (s : State) (t : State) (h : execRep rod n16 w13 s = .next t) (hs : State.Safe
    s) : State.Safe t := by
  unfold execRep at h
  refine safe_done h ?_
  refine controlWord_safe _ _ _ _ _ (fun _ _ => ?_) ?_
  · refine openRepeat_safe (hs := ?_) ..
    assumption
  · assumption

theorem execRepa_safe (rod an w13 : Nat) (s : State) (t : State) (h : execRepa rod an w13 s = .next t) (hs : State.Safe
    s) : State.Safe t := by
  unfold execRepa at h
  refine safe_done h ?_
  refine controlWord_safe _ _ _ _ _ (fun _ _ => ?_) ?_
  · refine openRepeat_safe (hs := ?_) ..
    assumption
  · assumption

theorem execBrk_safe (rod : Nat) (s : State) (t : State) (h : execBrk rod s = .next t) (hs : State.Safe s) : State.Safe
    t := by
  unfold execBrk at h
  refine safe_done h ?_
  refine controlWord_safe _ _ _ _ _ (fun _ _ => ?_) ?_
  · refine breakLevel_safe (hs := ?_) ..
    assumption
  · assumption

theorem execJ_safe (rod w13 : Nat) (s : State) (t : State) (h : execJ rod w13 s = .next t) (hs : State.Safe s) :
    State.Safe t := by
  unfold execJ at h
  refine safe_done h ?_
  refine controlWord_safe _ _ _ _ _ (fun _ _ => ?_) ?_
  · refine jumpIf_safe (hs := ?_) ..
    assumption
  · assumption

theorem execJz_safe (rod an w13 : Nat) (s : State) (t : State) (h : execJz rod an w13 s = .next t) (hs : State.Safe s) :
    State.Safe t := by
  unfold execJz at h
  refine safe_done h ?_
  refine controlWord_safe _ _ _ _ _ (fun _ _ => ?_) ?_
  · refine jumpIf_safe (hs := ?_) ..
    assumption
  · assumption

theorem execJnz_safe (rod an w13 : Nat) (s : State) (t : State) (h : execJnz rod an w13 s = .next t) (hs : State.Safe s)
    : State.Safe t := by
  unfold execJnz at h
  refine safe_done h ?_
  refine controlWord_safe _ _ _ _ _ (fun _ _ => ?_) ?_
  · refine jumpIf_safe (hs := ?_) ..
    assumption
  · assumption

theorem execJneg_safe (rod an w13 : Nat) (s : State) (t : State) (h : execJneg rod an w13 s = .next t) (hs : State.Safe
    s) : State.Safe t := by
  unfold execJneg at h
  refine safe_done h ?_
  refine controlWord_safe _ _ _ _ _ (fun _ _ => ?_) ?_
  · refine jumpIf_safe (hs := ?_) ..
    assumption
  · assumption

theorem execCall_safe (rod w13 : Nat) (s : State) (t : State) (h : execCall rod w13 s = .next t) (hs : State.Safe s) :
    State.Safe t := by
  unfold execCall at h
  refine safe_done h ?_
  refine controlWord_safe _ _ _ _ _ (fun _ _ => ?_) ?_
  · refine jumpIf_safe (hs := ?_) ..
    assumption
  · assumption

theorem execRet_safe (rod : Nat) (s : State) (t : State) (h : execRet rod s = .next t) (hs : State.Safe s) : State.Safe
    t := by
  unfold execRet at h
  refine safe_done h ?_
  refine controlWord_safe _ _ _ _ _ (fun _ _ => ?_) ?_
  · refine jumpIf_safe (hs := ?_) ..
    assumption
  · assumption

theorem execTake_safe (rod an k8 : Nat) (s : State) (t : State) (h : execTake rod an k8 s = .next t) (hs : State.Safe s)
    : State.Safe t := by
  unfold execTake at h
  refine safe_done h ?_
  refine controlWord_safe _ _ _ _ _ (fun _ _ => ?_) ?_
  · refine takeWord_safe (hs := ?_) ..
    assumption
  · assumption

theorem execPut_safe (rod an k8 : Nat) (s : State) (t : State) (h : execPut rod an k8 s = .next t) (hs : State.Safe s) :
    State.Safe t := by
  unfold execPut at h
  refine safe_done h ?_
  refine controlWord_safe _ _ _ _ _ (fun _ _ => ?_) ?_
  · refine putWord_safe (hs := ?_) ..
    assumption
  · assumption

theorem execDone_safe (rod : Nat) (s : State) (t : State) (h : execDone rod s = .next t) (hs : State.Safe s) :
    State.Safe t := by
  unfold execDone at h
  refine safe_done h ?_
  refine controlWord_safe _ _ _ _ _ (fun _ _ => ?_) ?_
  · refine finishItem_safe (hs := ?_) ..
    refine keeps_safe (finish_keeps ..) rfl ?_
    assumption
  · assumption

theorem execXfer_safe (rod : Nat) (out : Bool) (an fa md : Nat) (s : State) (t : State) (h : execXfer rod out an fa md s
    = .next t) (hs : State.Safe s) : State.Safe t := by
  unfold execXfer at h
  refine safe_done h ?_
  refine controlWord_safe _ _ _ _ _ (fun _ _ => ?_) ?_
  · refine xferWord_safe (hs := ?_) ..
    assumption
  · assumption

theorem execWaitx_safe (rod k8 : Nat) (s : State) (t : State) (h : execWaitx rod k8 s = .next t) (hs : State.Safe s) :
    State.Safe t := by
  unfold execWaitx at h
  refine safe_done h ?_
  refine controlWord_safe _ _ _ _ _ (fun _ _ => ?_) ?_
  · refine safe_ite (fun _ => ?_) (fun _ => ?_)
    · refine keeps_safe (finish_keeps ..) rfl ?_
      assumption
    · refine keeps_safe (State.setRod_keeps ..) rfl ?_
      assumption
  · assumption

theorem execSetps_safe (rod k8 : Nat) (s : State) (t : State) (h : execSetps rod k8 s = .next t) (hs : State.Safe s) :
    State.Safe t := by
  unfold execSetps at h
  refine safe_done h ?_
  refine controlWord_safe _ _ _ _ _ (fun _ _ => ?_) ?_
  · refine keeps_safe (finish_keeps ..) rfl ?_
    assumption
  · assumption

theorem execMfs_safe (rod an k8 : Nat) (s : State) (t : State) (h : execMfs rod an k8 s = .next t) (hs : State.Safe s) :
    State.Safe t := by
  unfold execMfs at h
  refine safe_done h ?_
  refine controlWord_safe _ _ _ _ _ (fun _ _ => ?_) ?_
  · refine keeps_safe (finish_keeps ..) rfl ?_
    assumption
  · assumption

theorem execMts_safe (rod an k8 : Nat) (s : State) (t : State) (h : execMts rod an k8 s = .next t) (hs : State.Safe s) :
    State.Safe t := by
  unfold execMts at h
  refine safe_done h ?_
  refine controlWord_safe _ _ _ _ _ (fun _ _ => ?_) ?_
  · refine keeps_safe (finish_keeps ..) rfl ?_
    assumption
  · assumption

theorem execMov_safe (rod ad as_ : Nat) (s : State) (t : State) (h : execMov rod ad as_ s = .next t) (hs : State.Safe s)
    : State.Safe t := by
  unfold execMov at h
  refine safe_done h ?_
  refine controlWord_safe _ _ _ _ _ (fun _ _ => ?_) ?_
  · refine keeps_safe (finish_keeps ..) rfl ?_
    assumption
  · assumption

theorem execLdw_safe (rod an am : Nat) (s : State) (t : State) (h : execLdw rod an am s = .next t) (hs : State.Safe s) :
    State.Safe t := by
  unfold execLdw at h
  refine safe_done h ?_
  refine controlWord_safe _ _ _ _ _ (fun _ _ => ?_) ?_
  · refine safe_ite (fun _ => ?_) (fun _ => ?_)
    · refine rodFault_safe (hs := ?_) ..
      assumption
    · refine safe_ite (fun _ => ?_) (fun _ => ?_)
      · refine keeps_safe (stallWord_keeps ..) rfl ?_
        assumption
      · refine safe_ite (fun _ => ?_) (fun _ => ?_)
        · refine rodFault_safe (hs := ?_) ..
          refine keeps_safe (State.setRod_keeps ..) rfl ?_
          assumption
        · refine keeps_safe (finish_keeps ..) rfl ?_
          refine keeps_safe (rodNote_keeps ..) rfl ?_
          assumption
  · assumption

theorem execStw_safe (rod an am : Nat) (s : State) (t : State) (h : execStw rod an am s = .next t) (hs : State.Safe s) :
    State.Safe t := by
  unfold execStw at h
  refine safe_done h ?_
  refine controlWord_safe _ _ _ _ _ (fun _ _ => ?_) ?_
  · refine safe_ite (fun _ => ?_) (fun _ => ?_)
    · refine rodFault_safe (hs := ?_) ..
      assumption
    · refine safe_ite (fun _ => ?_) (fun _ => ?_)
      · refine keeps_safe (stallWord_keeps ..) rfl ?_
        assumption
      · refine safe_ite (fun _ => ?_) (fun _ => ?_)
        · refine rodFault_safe (hs := ?_) ..
          refine keeps_safe (State.setRod_keeps ..) rfl ?_
          assumption
        · refine keeps_safe (finish_keeps ..) rfl ?_
          refine dmStore_safe (hs := ?_) ..
          assumption
  · assumption

theorem execLdf_safe (rod fa am : Nat) (s : State) (t : State) (h : execLdf rod fa am s = .next t) (hs : State.Safe s) :
    State.Safe t := by
  unfold execLdf at h
  refine safe_done h ?_
  refine controlWord_safe _ _ _ _ _ (fun _ _ => ?_) ?_
  · refine safe_ite (fun _ => ?_) (fun _ => ?_)
    · refine rodFault_safe (hs := ?_) ..
      assumption
    · refine safe_ite (fun _ => ?_) (fun _ => ?_)
      · refine keeps_safe (stallWord_keeps ..) rfl ?_
        assumption
      · refine safe_ite (fun _ => ?_) (fun _ => ?_)
        · refine rodFault_safe (hs := ?_) ..
          refine keeps_safe (State.setRod_keeps ..) rfl ?_
          assumption
        · refine keeps_safe (finish_keeps ..) rfl ?_
          refine keeps_safe (rodNote_keeps ..) rfl ?_
          assumption
  · assumption

theorem execSrinit_safe (rod an : Nat) (min : Bool) (s : State) (t : State) (h : execSrinit rod an min s = .next t) (hs
    : State.Safe s) : State.Safe t := by
  unfold execSrinit at h
  refine safe_done h ?_
  refine controlWord_safe _ _ _ _ _ (fun _ _ => ?_) ?_
  · refine keeps_safe (finish_keeps ..) rfl ?_
    assumption
  · assumption

theorem execBxclr_safe (rod : Nat) (s : State) (t : State) (h : execBxclr rod s = .next t) (hs : State.Safe s) :
    State.Safe t := by
  unfold execBxclr at h
  refine safe_done h ?_
  refine controlWord_safe _ _ _ _ _ (fun _ _ => ?_) ?_
  · refine keeps_safe (finish_keeps ..) rfl ?_
    assumption
  · assumption

theorem execBxstep_safe (rod : Nat) (s : State) (t : State) (h : execBxstep rod s = .next t) (hs : State.Safe s) :
    State.Safe t := by
  unfold execBxstep at h
  refine safe_done h ?_
  refine controlWord_safe _ _ _ _ _ (fun _ _ => ?_) ?_
  · refine keeps_safe (finish_keeps ..) rfl ?_
    assumption
  · assumption

theorem execHalt_safe (rod : Nat) (s : State) (t : State) (h : execHalt rod s = .next t) (hs : State.Safe s) :
    State.Safe t := by
  unfold execHalt at h
  refine safe_done h ?_
  refine controlWord_safe _ _ _ _ _ (fun _ _ => ?_) ?_
  · refine keeps_safe (State.setRod_keeps ..) rfl ?_
    refine endItem_safe (hs := ?_) ..
    assumption
  · assumption

theorem execTrap_safe (rod k8 : Nat) (s : State) (t : State) (h : execTrap rod k8 s = .next t) (hs : State.Safe s) :
    State.Safe t := by
  unfold execTrap at h
  refine safe_done h ?_
  refine controlWord_safe _ _ _ _ _ (fun _ _ => ?_) ?_
  · refine rodFault_safe (hs := ?_) ..
    assumption
  · assumption

theorem execLi_safe (rod sel imm : Nat) (s : State) (t : State) (h : execLi rod sel imm s = .next t) (hs : State.Safe s)
    : State.Safe t := by
  unfold execLi at h
  refine safe_done h ?_
  refine runWord_safe _ _ _ (fun _ _ => ?_) ?_
  · refine safe_ite (fun _ => ?_) (fun _ => ?_)
    · refine immediateWord_safe (hs := ?_) ..
      assumption
    · refine rodFault_safe (hs := ?_) ..
      assumption
  · assumption

theorem execAddi_safe (rod sel imm : Nat) (s : State) (t : State) (h : execAddi rod sel imm s = .next t) (hs :
    State.Safe s) : State.Safe t := by
  unfold execAddi at h
  refine safe_done h ?_
  refine runWord_safe _ _ _ (fun _ _ => ?_) ?_
  · refine safe_ite (fun _ => ?_) (fun _ => ?_)
    · refine immediateWord_safe (hs := ?_) ..
      assumption
    · refine rodFault_safe (hs := ?_) ..
      assumption
  · assumption

theorem execLih_safe (rod sel imm : Nat) (s : State) (t : State) (h : execLih rod sel imm s = .next t) (hs : State.Safe
    s) : State.Safe t := by
  unfold execLih at h
  refine safe_done h ?_
  refine runWord_safe _ _ _ (fun _ _ => ?_) ?_
  · refine safe_ite (fun _ => ?_) (fun _ => ?_)
    · refine immediateWord_safe (hs := ?_) ..
      assumption
    · refine rodFault_safe (hs := ?_) ..
      assumption
  · assumption

theorem execRodRunStop_safe (rod : Nat) (s : State) (t : State) (h : execRodRunStop rod s = .next t) (hs : State.Safe s)
    : State.Safe t := by
  unfold execRodRunStop at h
  refine safe_done h ?_
  refine safe_ite (fun _ => ?_) (fun _ => ?_)
  · refine runStop_safe (hs := ?_) ..
    assumption
  · assumption

end Sys2Proof.Machine
end

