-- ==== Sys2Proof/Laws/SafeDelayMatrix.lean ====
section
/-! SUPPORT. Safety is kept by the functions of Machine/DelayMatrix.lean that change memory or the twin. -/
namespace Sys2Proof.Machine

theorem readSpan_safe (s : State) (x : Crosspoint) (hs : State.Safe s) : State.Safe (readSpan s x) := by
  unfold readSpan
  dsimp only
  refine safe_ite (fun _ => ?_) (fun _ => ?_)
  · refine safe_ite (fun _ => ?_) (fun _ => ?_)
    · refine State.mark_safe (hs := ?_) ..
      refine safe_foldl (fun _ _ _ => ?_) ?_
      · refine keeps_safe (ledgerNote_keeps ..) rfl ?_
        assumption
      · assumption
    · refine safe_foldl (fun _ _ _ => ?_) ?_
      · refine keeps_safe (ledgerNote_keeps ..) rfl ?_
        assumption
      · assumption
  · refine safe_ite (fun _ => ?_) (fun _ => ?_)
    · refine State.mark_safe (hs := ?_) ..
      refine keeps_safe (burstEnd_keeps ..) rfl ?_
      refine safe_foldl (fun _ _ _ => ?_) ?_
      · refine dramNote_safe (hs := ?_) ..
        assumption
      · refine wakeDram_safe (hs := ?_) ..
        assumption
    · refine keeps_safe (burstEnd_keeps ..) rfl ?_
      refine safe_foldl (fun _ _ _ => ?_) ?_
      · refine dramNote_safe (hs := ?_) ..
        assumption
      · refine wakeDram_safe (hs := ?_) ..
        assumption

theorem renderFeed_safe (s : State) (f : Nat) (hs : State.Safe s) : State.Safe (renderFeed s f) := by
  unfold renderFeed
  split
  · assumption
  · dsimp only
    refine safe_ite (fun _ => ?_) (fun _ => ?_)
    · refine keeps_safe (setSlide_keeps ..) rfl ?_
      assumption
    · refine safe_mk (safe_parts ?_)
      refine keeps_safe (setSlide_keeps ..) rfl ?_
      assumption

theorem spanDelivered_safe (s : State) (engine object feed : Nat) (hs : State.Safe s) : State.Safe (spanDelivered s
    engine object feed) := by
  unfold spanDelivered
  dsimp only
  split
  · assumption
  · refine safe_ite (fun _ => ?_) (fun _ => ?_)
    · refine readSpan_safe (hs := ?_) ..
      refine keeps_safe (setSlide_keeps ..) rfl ?_
      assumption
    · assumption

theorem dmDeadline_safe (s : State) (hs : State.Safe s) : State.Safe (dmDeadline s) := by
  unfold dmDeadline
  refine safe_ite (fun _ => ?_) (fun _ => ?_)
  · dsimp only
    refine keeps_safe (deadlinePurge_keeps ..) rfl ?_
    refine keeps_safe (countCrosspoints_keeps ..) rfl ?_
    refine stageMiss_safe (hs := ?_) ..
    refine safe_mk (safe_parts ?_)
    refine keeps_safe (placementPurge_keeps ..) rfl ?_
    assumption
  · assumption

theorem execSpanDelivered_safe (at_ engine object feed : Nat) (s : State) (t : State) (h : execSpanDelivered at_ engine
    object feed s = .next t) (hs : State.Safe s) : State.Safe t := by
  unfold execSpanDelivered at h
  refine safe_done h ?_
  refine safe_ite (fun _ => ?_) (fun _ => ?_)
  · refine spanDelivered_safe (hs := ?_) ..
    refine keeps_safe (State.elapse_keeps ..) rfl ?_
    assumption
  · refine keeps_safe (State.elapse_keeps ..) rfl ?_
    assumption

theorem execFeedRender_safe (at_ feed : Nat) (s : State) (t : State) (h : execFeedRender at_ feed s = .next t) (hs :
    State.Safe s) : State.Safe t := by
  unfold execFeedRender at h
  refine safe_done h ?_
  refine safe_ite (fun _ => ?_) (fun _ => ?_)
  · refine renderFeed_safe (hs := ?_) ..
    refine keeps_safe (State.elapse_keeps ..) rfl ?_
    assumption
  · refine keeps_safe (State.elapse_keeps ..) rfl ?_
    assumption

theorem execDelayMatrixDeadline_safe (s : State) (t : State) (h : execDelayMatrixDeadline s = .next t) (hs : State.Safe
    s) : State.Safe t := by
  unfold execDelayMatrixDeadline at h
  refine safe_done h ?_
  refine dmDeadline_safe (hs := ?_) ..
  refine keeps_safe (State.elapse_keeps ..) rfl ?_
  assumption

end Sys2Proof.Machine
end

