-- ==== Sys2Proof/Laws/SafeOutBus.lean ====
section
/-! SUPPORT. Safety is kept by the functions of Machine/OutBus.lean that change the meters, the Ledger or its memory. -/
namespace Sys2Proof.Machine

theorem writePart_safe (s : State) (a n : Nat) (re im : List Int) (hs : State.Safe s) : State.Safe (writePart s a n re
    im) := by
  unfold writePart
  refine ledgerWrite_safe (hs := ?_) ..
  assumption

theorem storeCopy_safe (s : State) (n f : Nat) (set : FilterSet) (hs : State.Safe s) : State.Safe (storeCopy s n f set)
    := by
  unfold storeCopy
  refine safe_foldl (fun _ _ _ => ?_) ?_
  · refine writePart_safe (hs := ?_) ..
    assumption
  · assumption

theorem storeBank_safe (s : State) (n f b : Nat) (set : FilterSet) (hs : State.Safe s) : State.Safe (storeBank s n f b
    set) := by
  unfold storeBank
  refine safe_ite (fun _ => ?_) (fun _ => ?_)
  · assumption
  · refine dramBurst_safe (hs := ?_) ..
    assumption

theorem noteRange_safe (s : State) (t a len : Nat) (hs : State.Safe s) : State.Safe (noteRange s t a len) := by
  unfold noteRange
  dsimp only
  refine ledgerMark_safe (hs := ?_) ..
  refine safe_foldl (fun _ _ _ => ?_) ?_
  · refine keeps_safe (ledgerNote_keeps ..) rfl ?_
    assumption
  · assumption

theorem noteAlign_safe (s : State) (n f t a1 : Nat) (st : FeedSt) (hs : State.Safe s) : State.Safe (noteAlign s n f t a1
    st) := by
  unfold noteAlign
  refine safe_ite (fun _ => ?_) (fun _ => ?_)
  · assumption
  · dsimp only
    refine safe_foldl (fun _ _ _ => ?_) ?_
    · refine noteRange_safe (hs := ?_) ..
      assumption
    · assumption

theorem noteReads_safe (s : State) (n f t u : Nat) (c : Corr) (hs : State.Safe s) : State.Safe (noteReads s n f t u c)
    := by
  unfold noteReads
  dsimp only
  split
  · refine safe_ite (fun _ => ?_) (fun _ => ?_)
    · refine State.mark_safe (hs := ?_) ..
      refine keeps_safe (burstEnd_keeps ..) rfl ?_
      refine safe_foldl (fun _ _ _ => ?_) ?_
      · refine dramNote_safe (hs := ?_) ..
        assumption
      · refine wakeDram_safe (hs := ?_) ..
        refine safe_ite (fun _ => ?_) (fun _ => ?_)
        · refine safe_foldl (fun _ _ _ => ?_) ?_
          · refine noteRange_safe (hs := ?_) ..
            refine noteRange_safe (hs := ?_) ..
            assumption
          · refine safe_foldl (fun _ _ _ => ?_) ?_
            · refine noteRange_safe (hs := ?_) ..
              assumption
            · assumption
        · assumption
    · refine keeps_safe (burstEnd_keeps ..) rfl ?_
      refine safe_foldl (fun _ _ _ => ?_) ?_
      · refine dramNote_safe (hs := ?_) ..
        assumption
      · refine wakeDram_safe (hs := ?_) ..
        refine safe_ite (fun _ => ?_) (fun _ => ?_)
        · refine safe_foldl (fun _ _ _ => ?_) ?_
          · refine noteRange_safe (hs := ?_) ..
            refine noteRange_safe (hs := ?_) ..
            assumption
          · refine safe_foldl (fun _ _ _ => ?_) ?_
            · refine noteRange_safe (hs := ?_) ..
              assumption
            · assumption
        · assumption
  · refine safe_ite (fun _ => ?_) (fun _ => ?_)
    · refine safe_foldl (fun _ _ _ => ?_) ?_
      · refine noteRange_safe (hs := ?_) ..
        refine noteRange_safe (hs := ?_) ..
        assumption
      · refine safe_foldl (fun _ _ _ => ?_) ?_
        · refine noteRange_safe (hs := ?_) ..
          assumption
        · assumption
    · assumption

theorem reloadPart_safe (s : State) (n f p : Nat) (hs : State.Safe s) : State.Safe (reloadPart s n f p) := by
  unfold reloadPart
  dsimp only
  split
  · refine writePart_safe (hs := ?_) ..
    assumption
  · refine writePart_safe (hs := ?_) ..
    refine keeps_safe (State.setFeed_keeps ..) rfl ?_
    refine keeps_safe (burstEnd_keeps ..) rfl ?_
    refine safe_foldl (fun _ _ _ => ?_) ?_
    · refine dramNote_safe (hs := ?_) ..
      assumption
    · refine wakeDram_safe (hs := ?_) ..
      assumption

theorem storeAlign_safe (s : State) (n f t : Nat) (old new : List Int) (hs : State.Safe s) : State.Safe (storeAlign s n
    f t old new) := by
  unfold storeAlign
  refine safe_ite (fun _ => ?_) (fun _ => ?_)
  · assumption
  · refine ledgerWrite_safe (hs := ?_) ..
    assumption

theorem storeLine_safe (s : State) (n f t u : Nat) (c : Corr) (newest : Option Spectrum) (hs : State.Safe s) :
    State.Safe (storeLine s n f t u c newest) := by
  unfold storeLine
  dsimp only
  refine safe_ite (fun _ => ?_) (fun _ => ?_)
  · refine safe_foldl (fun _ _ _ => ?_) ?_
    · refine safe_ite (fun _ => ?_) (fun _ => ?_)
      · refine reloadPart_safe (hs := ?_) ..
        assumption
      · assumption
    · split
      · refine ledgerWrite_safe (hs := ?_) ..
        refine writePart_safe (hs := ?_) ..
        assumption
      · assumption
  · split
    · refine ledgerWrite_safe (hs := ?_) ..
      refine writePart_safe (hs := ?_) ..
      assumption
    · assumption

theorem busFeed_safe (s : State) (f : Nat) (hs : State.Safe s) : State.Safe (busFeed s f) := by
  unfold busFeed
  dsimp only
  refine safe_mk (safe_parts ?_)
  refine keeps_safe (meterFeed_keeps ..) rfl ?_
  refine storeLine_safe (hs := ?_) ..
  refine storeAlign_safe (hs := ?_) ..
  refine keeps_safe (State.setFeed_keeps ..) rfl ?_
  refine noteAlign_safe (hs := ?_) ..
  refine noteReads_safe (hs := ?_) ..
  assumption

theorem outputBus_safe (s : State) (hs : State.Safe s) : State.Safe (outputBus s) := by
  unfold outputBus
  dsimp only
  split
  · refine keeps_safe (State.stset_keeps ..) rfl ?_
    refine keeps_safe (State.stset_keeps ..) rfl ?_
    refine safe_foldl (fun _ _ _ => ?_) ?_
    · refine busFeed_safe (hs := ?_) ..
      assumption
    · refine safe_mk (safe_parts ?_)
      assumption
  · refine keeps_safe (State.stset_keeps ..) rfl ?_
    refine keeps_safe (State.stset_keeps ..) rfl ?_
    refine safe_foldl (fun _ _ _ => ?_) ?_
    · refine busFeed_safe (hs := ?_) ..
      assumption
    · refine safe_mk (safe_parts ?_)
      assumption

end Sys2Proof.Machine
end

