-- ==== Sys2Proof/Laws/SafeEgress.lean ====
section
/-! SUPPORT. Safety is kept by the functions of Machine/Egress.lean that change memory or the twin. -/
namespace Sys2Proof.Machine

theorem groupWrite_safe (s : State) (buffer n t g : Nat) (lanes : List (Nat × List Int)) (hs : State.Safe s) :
    State.Safe (groupWrite s buffer n t g lanes) := by
  unfold groupWrite
  dsimp only
  refine ledgerWrite_safe (hs := ?_) ..
  assumption

theorem aesOutput_safe (missed : List Nat) (acc : State × SMap Nat) (k : Nat) (hs : State.Safe acc.1) : State.Safe
    (aesOutput missed acc k).1 := by
  unfold aesOutput
  split
  dsimp only
  split
  · dsimp only
    refine groupWrite_safe (hs := ?_) ..
    refine keeps_safe (aesOutChannel_keeps ..) rfl ?_
    refine keeps_safe (aesOutChannel_keeps ..) rfl ?_
    assumption
  · dsimp only
    refine keeps_safe (aesOutChannel_keeps ..) rfl ?_
    refine keeps_safe (aesOutChannel_keeps ..) rfl ?_
    assumption

theorem aesOutputs_safe (s : State) (missed : List Nat) (hs : State.Safe s) : State.Safe (aesOutputs s missed).1 := by
  unfold aesOutputs
  refine safe_foldl_fst (fun _ _ _ => ?_) ?_
  · refine aesOutput_safe (hs := ?_) ..
    assumption
  · assumption

theorem egress_safe (s : State) (slots aes drives : List Nat) (hs : State.Safe s) : State.Safe (egress s slots aes
    drives) := by
  unfold egress
  refine safe_ite (fun _ => ?_) (fun _ => ?_)
  · assumption
  · dsimp only
    refine safe_mk (safe_parts ?_)
    refine keeps_safe (deadlinePurge_keeps ..) rfl ?_
    refine stageMiss_safe (hs := ?_) ..
    refine keeps_safe (driveBlocks_keeps ..) rfl ?_
    refine aesOutputs_safe (hs := ?_) ..
    refine keeps_safe (txSlots_keeps ..) rfl ?_
    refine safe_mk (safe_parts ?_)
    assumption

theorem execEgressDeadline_safe (slots aes drives : List Nat) (s : State) (t : State) (h : execEgressDeadline slots aes
    drives s = .next t) (hs : State.Safe s) : State.Safe t := by
  unfold execEgressDeadline at h
  refine safe_done h ?_
  refine safe_ite (fun _ => ?_) (fun _ => ?_)
  · refine egress_safe (hs := ?_) ..
    refine keeps_safe (State.elapse_keeps ..) rfl ?_
    assumption
  · assumption

end Sys2Proof.Machine
end

