-- ==== Sys2Proof/Laws/SafeTwin.lean ====
section
/-! SUPPORT. Safety is kept by the functions of Machine/Twin.lean that change memory or the twin. -/
namespace Sys2Proof.Machine

theorem dropActOut_safe (s : State) (hs : s.Safe) : (dropActOut s).Safe := by
  unfold dropActOut
  refine keeps_safe (State.stset_keeps ..) rfl ?_
  exact safe_mk ⟨hs.memory, fun h => (by cases h), hs.joining, hs.legal⟩

/-- A role entered leaves the sync state 0 outside Standby and ACT_OUT low in a role that does not hold it. -/
theorem setRole_safe (s : State) (r : Role) (hs : s.Safe) : (setRole s r).Safe := by
  unfold setRole
  have h0 : State.Safe (if r = .standby && s.time.state = .grandmaster then s.enterHoldover else s) := by
    split
    · exact keeps_safe (State.enterHoldover_keeps ..) rfl hs
    · exact hs
  dsimp only
  generalize (if (decide (r = Role.standby) && decide (s.time.state = TimeState.grandmaster)) = true then s.enterHoldover
    else s) = s0 at h0 ⊢
  split
  · rename_i hr
    refine safe_mk ⟨h0.memory, fun _ => hr, fun hn => ?_, ?_⟩
    · dsimp only at hn ⊢
      rw [if_neg hn]
    · dsimp only
      split
      · exact h0.legal
      · exact Nat.zero_le 5
  · unfold dropActOut
    refine keeps_safe (State.stset_keeps ..) rfl ?_
    refine safe_mk ⟨h0.memory, fun h => (by cases h), fun hn => ?_, ?_⟩
    · dsimp only at hn ⊢
      rw [if_neg hn]
    · dsimp only
      split
      · exact h0.legal
      · exact Nat.zero_le 5

theorem joinFresh_safe (s : State) (hr : s.twin.role = .standby) (hs : s.Safe) : (joinFresh s).Safe := by
  unfold joinFresh
  exact safe_mk ⟨hs.memory, hs.interlock, fun h => absurd hr h, Nat.le_of_ble_eq_true rfl⟩

theorem dropActOut_role (s : State) : (dropActOut s).twin.role = s.twin.role := rfl

theorem setRole_role (s : State) (r : Role) : (setRole s r).twin.role = r := by
  unfold setRole
  dsimp only
  split
  · rfl
  · exact dropActOut_role _

theorem enterStandby_safe (s : State) (hs : s.Safe) : (enterStandby s).Safe := by
  unfold enterStandby
  exact safe_ite (fun _ => setRole_safe _ _ hs)
    (fun _ => joinFresh_safe _ (setRole_role s .standby) (setRole_safe s .standby hs))

theorem joinRestart_safe (s : State) (hr : s.twin.role = .standby) (hs : s.Safe) : (joinRestart s).Safe := by
  unfold joinRestart
  split
  · exact joinFresh_safe s hr hs
  · split
    · refine safe_mk (safe_parts ?_)
      exact keeps_safe (State.raise_keeps ..) rfl (setRole_safe _ _ hs)
    · exact safe_mk ⟨hs.memory, hs.interlock, fun h => absurd hr h, Nat.le_of_ble_eq_true rfl⟩

theorem claimActOut_safe (s : State) (actInLowNs : Nat) (hs : s.Safe) : (claimActOut s actInLowNs).Safe := by
  unfold claimActOut
  split
  · rename_i h
    simp only [Bool.and_eq_true] at h
    exact safe_mk ⟨hs.memory, fun _ => h.1.1.1, hs.joining, hs.legal⟩
  · exact hs

theorem actDeadman_safe (s : State) (hs : State.Safe s) : State.Safe (actDeadman s) := by
  unfold actDeadman
  refine safe_ite (fun _ => ?_) (fun _ => ?_)
  · assumption
  · refine dropActOut_safe (hs := ?_) ..
    assumption

theorem collide_safe (s : State) (hs : State.Safe s) : State.Safe (collide s) := by
  unfold collide
  refine safe_ite (fun _ => ?_) (fun _ => ?_)
  · refine gateChange_safe (hs := ?_) ..
    assumption
  · refine safe_ite (fun _ => ?_) (fun _ => ?_)
    · refine enterStandby_safe (hs := ?_) ..
      refine gateChange_safe (hs := ?_) ..
      assumption
    · refine safe_ite (fun _ => ?_) (fun _ => ?_)
      · refine gateChange_safe (hs := ?_) ..
        assumption
      · refine keeps_safe (State.raise_keeps ..) rfl ?_
        refine safe_mk (safe_parts ?_)
        refine gateChange_safe (hs := ?_) ..
        assumption

theorem actInSeen_safe (s : State) (actIn : Bool) (hs : State.Safe s) : State.Safe (actInSeen s actIn) := by
  unfold actInSeen
  refine safe_ite (fun _ => ?_) (fun _ => ?_)
  · refine collide_safe (hs := ?_) ..
    assumption
  · refine gateChange_safe (hs := ?_) ..
    assumption

theorem chooseRole_safe (s : State) (actIn : Bool) (hs : State.Safe s) : State.Safe (chooseRole s actIn) := by
  unfold chooseRole
  refine safe_ite (fun _ => ?_) (fun _ => ?_)
  · refine safe_ite (fun _ => ?_) (fun _ => ?_)
    · refine keeps_safe (State.raise_keeps ..) rfl ?_
      refine setRole_safe (hs := ?_) ..
      refine gateChange_safe (hs := ?_) ..
      assumption
    · refine setRole_safe (hs := ?_) ..
      refine gateChange_safe (hs := ?_) ..
      assumption
  · refine safe_ite (fun _ => ?_) (fun _ => ?_)
    · refine safe_ite (fun _ => ?_) (fun _ => ?_)
      · refine enterStandby_safe (hs := ?_) ..
        refine gateChange_safe (hs := ?_) ..
        assumption
      · refine setRole_safe (hs := ?_) ..
        refine gateChange_safe (hs := ?_) ..
        assumption
    · refine setRole_safe (hs := ?_) ..
      refine gateChange_safe (hs := ?_) ..
      assumption

theorem partnerEnters_safe (s : State) (hs : State.Safe s) : State.Safe (partnerEnters s) := by
  unfold partnerEnters
  refine safe_ite (fun _ => ?_) (fun _ => ?_)
  · refine setRole_safe (hs := ?_) ..
    refine safe_mk (safe_parts ?_)
    assumption
  · refine safe_mk (safe_parts ?_)
    assumption

theorem partnerLeaves_safe (s : State) (hs : State.Safe s) : State.Safe (partnerLeaves s) := by
  unfold partnerLeaves
  refine safe_mk (safe_parts ?_)
  assumption

theorem soloAgain_safe (s : State) (hs : State.Safe s) : State.Safe (soloAgain s) := by
  unfold soloAgain
  refine safe_ite (fun _ => ?_) (fun _ => ?_)
  · refine setRole_safe (hs := ?_) ..
    assumption
  · assumption

theorem judgeIds_safe (s : State) (f : HbFrame) (hs : State.Safe s) : State.Safe (judgeIds s f) := by
  unfold judgeIds
  refine safe_ite (fun _ => ?_) (fun _ => ?_)
  · assumption
  · dsimp only
    split
    · refine setRole_safe (hs := ?_) ..
      refine keeps_safe (State.raise_keeps ..) rfl ?_
      assumption
    · refine setRole_safe (hs := ?_) ..
      refine keeps_safe (State.raise_keeps ..) rfl ?_
      assumption
    · refine setRole_safe (hs := ?_) ..
      refine keeps_safe (State.raise_keeps ..) rfl ?_
      assumption
    · refine keeps_safe (State.raise_keeps ..) rfl ?_
      assumption
    · refine keeps_safe (State.raise_keeps ..) rfl ?_
      assumption

theorem judgeLine_safe (s : State) (f : HbFrame) (hs : State.Safe s) : State.Safe (judgeLine s f) := by
  unfold judgeLine
  refine safe_ite (fun _ => ?_) (fun _ => ?_)
  · refine keeps_safe (interlockFault_keeps ..) rfl ?_
    refine safe_mk (safe_parts ?_)
    assumption
  · refine safe_mk (safe_parts ?_)
    assumption

theorem judgeSplitRoles_safe (s : State) (f : HbFrame) (hs : State.Safe s) : State.Safe (judgeSplitRoles s f) := by
  unfold judgeSplitRoles
  refine safe_ite (fun _ => ?_) (fun _ => ?_)
  · refine safe_ite (fun _ => ?_) (fun _ => ?_)
    · refine enterStandby_safe (hs := ?_) ..
      assumption
    · refine setRole_safe (hs := ?_) ..
      assumption
  · assumption

theorem judgePartnerJoin_safe (s : State) (f : HbFrame) (hs : State.Safe s) : State.Safe (judgePartnerJoin s f) := by
  unfold judgePartnerJoin
  split
  · refine safe_ite (fun _ => ?_) (fun _ => ?_)
    · refine safe_mk (safe_parts ?_)
      assumption
    · assumption
  · assumption

theorem heartbeatFrameIn_safe (s : State) (f : HbFrame) (hs : State.Safe s) : State.Safe (heartbeatFrameIn s f) := by
  unfold heartbeatFrameIn
  dsimp only
  refine safe_ite (fun _ => ?_) (fun _ => ?_)
  · refine safe_ite (fun _ => ?_) (fun _ => ?_)
    · refine judgeSplitRoles_safe (hs := ?_) ..
      refine safe_ite (fun _ => ?_) (fun _ => ?_)
      · refine partnerEnters_safe (hs := ?_) ..
        refine judgeLine_safe (hs := ?_) ..
        refine judgeIds_safe (hs := ?_) ..
        refine keeps_safe (judgeTimeState_keeps ..) rfl ?_
        refine safe_mk (safe_parts ?_)
        refine judgePartnerJoin_safe (hs := ?_) ..
        refine safe_ite (fun _ => ?_) (fun _ => ?_)
        · refine keeps_safe (State.heard_keeps ..) rfl ?_
          assumption
        · refine keeps_safe (State.bump_keeps ..) rfl ?_
          assumption
      · refine judgeLine_safe (hs := ?_) ..
        refine judgeIds_safe (hs := ?_) ..
        refine keeps_safe (judgeTimeState_keeps ..) rfl ?_
        refine safe_mk (safe_parts ?_)
        refine judgePartnerJoin_safe (hs := ?_) ..
        refine safe_ite (fun _ => ?_) (fun _ => ?_)
        · refine keeps_safe (State.heard_keeps ..) rfl ?_
          assumption
        · refine keeps_safe (State.bump_keeps ..) rfl ?_
          assumption
    · refine safe_ite (fun _ => ?_) (fun _ => ?_)
      · refine partnerEnters_safe (hs := ?_) ..
        refine judgeLine_safe (hs := ?_) ..
        refine judgeIds_safe (hs := ?_) ..
        refine keeps_safe (judgeTimeState_keeps ..) rfl ?_
        refine safe_mk (safe_parts ?_)
        refine judgePartnerJoin_safe (hs := ?_) ..
        refine safe_ite (fun _ => ?_) (fun _ => ?_)
        · refine keeps_safe (State.heard_keeps ..) rfl ?_
          assumption
        · refine keeps_safe (State.bump_keeps ..) rfl ?_
          assumption
      · refine judgeLine_safe (hs := ?_) ..
        refine judgeIds_safe (hs := ?_) ..
        refine keeps_safe (judgeTimeState_keeps ..) rfl ?_
        refine safe_mk (safe_parts ?_)
        refine judgePartnerJoin_safe (hs := ?_) ..
        refine safe_ite (fun _ => ?_) (fun _ => ?_)
        · refine keeps_safe (State.heard_keeps ..) rfl ?_
          assumption
        · refine keeps_safe (State.bump_keeps ..) rfl ?_
          assumption
  · refine safe_ite (fun _ => ?_) (fun _ => ?_)
    · refine keeps_safe (State.heard_keeps ..) rfl ?_
      assumption
    · refine keeps_safe (State.bump_keeps ..) rfl ?_
      assumption

theorem heartbeatEdge_safe (s : State) (hs : State.Safe s) : State.Safe (heartbeatEdge s) := by
  unfold heartbeatEdge
  refine safe_ite (fun _ => ?_) (fun _ => ?_)
  · refine safe_mk (safe_parts ?_)
    assumption
  · refine safe_ite (fun _ => ?_) (fun _ => ?_)
    · refine safe_mk (safe_parts ?_)
      assumption
    · assumption

theorem heartbeatSend_safe (s : State) (service : Bool) (hs : State.Safe s) : State.Safe (heartbeatSend s service) := by
  unfold heartbeatSend
  dsimp only
  refine safe_ite (fun _ => ?_) (fun _ => ?_)
  · refine safe_mk (safe_parts ?_)
    assumption
  · refine keeps_safe (sendHeartbeat_keeps ..) rfl ?_
    refine safe_mk (safe_parts ?_)
    assumption

theorem handOver_safe (s : State) (r : Role) (sync : Nat) (hr : r = .standby ∨ sync = 0) (hl : sync ≤ 5) (hs : s.Safe) :
    (handOver s r sync).Safe := by
  unfold handOver
  dsimp only
  have h0 := dropActOut_safe s hs
  generalize hx : sendHeartbeat _ = x
  have hx' : x.Safe := by
    subst hx
    refine keeps_safe (sendHeartbeat_keeps ..) rfl ?_
    exact safe_mk (safe_parts h0)
  have h := setRole_safe x r hx'
  refine safe_mk ⟨h.memory, h.interlock, fun hn => ?_, hl⟩
  have e := setRole_role x r
  rcases hr with hr | hr
  · exact absurd (e.trans hr) hn
  · exact hr

theorem handoverApply_safe (s : State) (v : Nat) (hs : s.Safe) : (handoverApply s v).Safe := by
  unfold handoverApply
  split
  · exact handOver_safe _ _ _ (Or.inl rfl) (by decide) hs
  · exact hs

theorem isolateApply_safe (s0 : State) (v : Nat) (hs : s0.Safe) : (isolateApply s0 v).Safe := by
  unfold isolateApply
  have h := keeps_safe (State.put_keeps s0 0 0x6000 0x04 v) rfl hs
  dsimp only
  split
  · split
    · exact handOver_safe _ _ _ (Or.inr rfl) (by decide) h
    · exact keeps_safe (sendHeartbeat_keeps ..) rfl (setRole_safe _ _ h)
    · exact h
    · exact h
    · exact h
  · split
    · exact enterStandby_safe _ h
    · exact h

theorem faultHandover_safe (s : State) (hs : s.Safe) : (faultHandover s).Safe := by
  unfold faultHandover
  split
  · exact handOver_safe _ _ _ (Or.inl rfl) (by decide) hs
  · exact hs

theorem faultRejoin_safe (s : State) (hs : s.Safe) : (faultRejoin s).Safe := by
  unfold faultRejoin
  split
  · rename_i h
    simp only [Bool.and_eq_true, decide_eq_true_eq] at h
    exact joinFresh_safe s h.1.1.1 hs
  · exact hs

theorem activeFaultHandover_safe (s : State) (hs : s.Safe) : (activeFaultHandover s).Safe := by
  unfold activeFaultHandover
  split
  · split
    · exact keeps_safe (State.raise_keeps ..) rfl (handOver_safe _ _ _ (Or.inl rfl) (by decide) hs)
    · exact hs
  · exact hs

theorem attributeFault_safe (s : State) (f : HbFrame) (t : Nat) (hs : State.Safe s) : State.Safe (attributeFault s f t)
    := by
  unfold attributeFault
  refine safe_ite (fun _ => ?_) (fun _ => ?_)
  · refine keeps_safe (State.bump_keeps ..) rfl ?_
    assumption
  · refine safe_ite (fun _ => ?_) (fun _ => ?_)
    · refine safe_ite (fun _ => ?_) (fun _ => ?_)
      · refine safe_mk (safe_parts ?_)
        refine keeps_safe (State.bump_keeps ..) rfl ?_
        assumption
      · refine keeps_safe (State.bump_keeps ..) rfl ?_
        assumption
    · refine keeps_safe (State.bump_keeps ..) rfl ?_
      assumption

theorem compareDigests_safe (s : State) (f : HbFrame) (hs : s.Safe) : (compareDigests s f).Safe := by
  unfold compareDigests
  dsimp only
  split
  · exact hs
  · split
    · split
      · exact safe_mk (safe_parts hs)
      · exact hs
    · have h : ∀ u : State, u.Safe → State.Safe (if u.twin.role = .standby then joinRestart u else u) := by
        intro u hu
        split
        · exact joinRestart_safe u ‹_› hu
        · exact hu
      apply h
      refine attributeFault_safe _ _ _ ?_
      refine keeps_safe (State.raise_keeps ..) rfl ?_
      refine keeps_safe (State.stset_keeps ..) rfl ?_
      refine keeps_safe (State.stset_keeps ..) rfl ?_
      exact keeps_safe (State.bump_keeps ..) rfl hs

theorem takeOver_safe (s : State) (cause actInLowNs : Nat) (hs : State.Safe s) : State.Safe (takeOver s cause
    actInLowNs) := by
  unfold takeOver
  dsimp only
  refine safe_ite (fun _ => ?_) (fun _ => ?_)
  · refine safe_mk (safe_parts ?_)
    refine keeps_safe (State.raise_keeps ..) rfl ?_
    refine keeps_safe (State.bump_keeps ..) rfl ?_
    refine keeps_safe (State.stset_keeps ..) rfl ?_
    refine keeps_safe (State.stset_keeps ..) rfl ?_
    refine claimActOut_safe (hs := ?_) ..
    refine setRole_safe (hs := ?_) ..
    assumption
  · refine keeps_safe (State.raise_keeps ..) rfl ?_
    refine safe_mk (safe_parts ?_)
    refine keeps_safe (State.raise_keeps ..) rfl ?_
    refine keeps_safe (State.bump_keeps ..) rfl ?_
    refine keeps_safe (State.stset_keeps ..) rfl ?_
    refine keeps_safe (State.stset_keeps ..) rfl ?_
    refine claimActOut_safe (hs := ?_) ..
    refine setRole_safe (hs := ?_) ..
    assumption

theorem judgeSilence_safe (s : State) (hbSil tlSil hbLost tlLost : Bool) (hs : State.Safe s) : State.Safe (judgeSilence
    s hbSil tlSil hbLost tlLost) := by
  unfold judgeSilence
  refine safe_mk (safe_parts ?_)
  refine keeps_safe (State.condition_keeps ..) rfl ?_
  refine keeps_safe (State.condition_keeps ..) rfl ?_
  refine safe_ite (fun _ => ?_) (fun _ => ?_)
  · refine keeps_safe (twinMasterLost_keeps ..) rfl ?_
    refine safe_ite (fun _ => ?_) (fun _ => ?_)
    · refine keeps_safe (State.bump_keeps ..) rfl ?_
      refine safe_ite (fun _ => ?_) (fun _ => ?_)
      · refine keeps_safe (State.bump_keeps ..) rfl ?_
        assumption
      · assumption
    · refine safe_ite (fun _ => ?_) (fun _ => ?_)
      · refine keeps_safe (State.bump_keeps ..) rfl ?_
        assumption
      · assumption
  · refine safe_ite (fun _ => ?_) (fun _ => ?_)
    · refine keeps_safe (State.bump_keeps ..) rfl ?_
      refine safe_ite (fun _ => ?_) (fun _ => ?_)
      · refine keeps_safe (State.bump_keeps ..) rfl ?_
        assumption
      · assumption
    · refine safe_ite (fun _ => ?_) (fun _ => ?_)
      · refine keeps_safe (State.bump_keeps ..) rfl ?_
        assumption
      · assumption

theorem judgeService_safe (s : State) (hs : State.Safe s) : State.Safe (judgeService s) := by
  unfold judgeService
  split
  · refine safe_ite (fun _ => ?_) (fun _ => ?_)
    · refine partnerEnters_safe (hs := ?_) ..
      assumption
    · refine partnerLeaves_safe (hs := ?_) ..
      assumption
  · refine partnerLeaves_safe (hs := ?_) ..
    assumption

theorem twinEvaluation_safe (s : State) (actInLowNs : Nat) (hs : s.Safe) : (twinEvaluation s actInLowNs).Safe := by
  unfold twinEvaluation
  split
  · exact hs
  · dsimp only
    refine safe_mk (safe_parts ?_)
    generalize hg : State.condition _ 148 0 0 _ = s4
    have h4 : s4.Safe := by
      subst hg
      refine keeps_safe (State.condition_keeps ..) rfl ?_
      have h1 : ∀ a b c d : Bool, (judgeService (judgeSilence (actInSeen s (decide (actInLowNs = 0))) a b c d)).Safe :=
        fun a b c d => judgeService_safe _ (judgeSilence_safe _ _ _ _ _ (actInSeen_safe _ _ hs))
      split
      · exact compareDigests_safe _ _ (judgeLine_safe _ _ (h1 _ _ _ _))
      · exact safe_mk (safe_parts (h1 _ _ _ _))
    refine safe_ite (fun _ => takeOver_safe _ _ _ h4) (fun _ => safe_ite (fun h => ?_) (fun _ => h4))
    simp only [Bool.and_eq_true, decide_eq_true_eq] at h
    exact joinFresh_safe _ h.1.2 h4

theorem twinTick_safe (s : State) (hs : State.Safe s) : State.Safe (twinTick s) := by
  unfold twinTick
  refine faultRejoin_safe (hs := ?_) ..
  refine activeFaultHandover_safe (hs := ?_) ..
  refine faultHandover_safe (hs := ?_) ..
  refine soloAgain_safe (hs := ?_) ..
  refine actDeadman_safe (hs := ?_) ..
  refine keeps_safe (judgeSplit_keeps ..) rfl ?_
  refine safe_mk (safe_parts ?_)
  assumption

theorem collisionClear_safe (s : State) (hs : State.Safe s) : State.Safe (collisionClear s) := by
  unfold collisionClear
  refine safe_mk (safe_parts ?_)
  assumption

theorem execHeartbeatFrameReceived_safe (at_ : Nat) (frame : HbFrame) (s : State) (t : State) (h :
    execHeartbeatFrameReceived at_ frame s = .next t) (hs : State.Safe s) : State.Safe t := by
  unfold execHeartbeatFrameReceived at h
  refine safe_done h ?_
  refine safe_ite (fun _ => ?_) (fun _ => ?_)
  · refine heartbeatFrameIn_safe (hs := ?_) ..
    refine keeps_safe (State.elapse_keeps ..) rfl ?_
    assumption
  · assumption

theorem execHeartbeatLineEdge_safe (at_ : Nat) (s : State) (t : State) (h : execHeartbeatLineEdge at_ s = .next t) (hs :
    State.Safe s) : State.Safe t := by
  unfold execHeartbeatLineEdge at h
  refine safe_done h ?_
  refine safe_ite (fun _ => ?_) (fun _ => ?_)
  · refine heartbeatEdge_safe (hs := ?_) ..
    refine keeps_safe (State.elapse_keeps ..) rfl ?_
    assumption
  · assumption

theorem execTwinEvaluation_safe (actInLowNs : Nat) (s : State) (t : State) (h : execTwinEvaluation actInLowNs s = .next
    t) (hs : State.Safe s) : State.Safe t := by
  unfold execTwinEvaluation at h
  refine safe_done h ?_
  refine safe_ite (fun _ => ?_) (fun _ => ?_)
  · refine twinEvaluation_safe (hs := ?_) ..
    refine keeps_safe (State.elapse_keeps ..) rfl ?_
    assumption
  · assumption

theorem execDriveGateChange_safe (at_ : Nat) (actIn : Bool) (s : State) (t : State) (h : execDriveGateChange at_ actIn s
    = .next t) (hs : State.Safe s) : State.Safe t := by
  unfold execDriveGateChange at h
  refine safe_done h ?_
  refine actInSeen_safe (hs := ?_) ..
  refine keeps_safe (State.elapse_keeps ..) rfl ?_
  assumption

theorem execActInCollision_safe (at_ : Nat) (s : State) (t : State) (h : execActInCollision at_ s = .next t) (hs :
    State.Safe s) : State.Safe t := by
  unfold execActInCollision at h
  refine safe_done h ?_
  refine collide_safe (hs := ?_) ..
  refine keeps_safe (State.elapse_keeps ..) rfl ?_
  assumption

theorem execCollisionTimeout_safe (actIn : Bool) (s : State) (t : State) (h : execCollisionTimeout actIn s = .next t)
    (hs : State.Safe s) : State.Safe t := by
  unfold execCollisionTimeout at h
  refine safe_done h ?_
  refine safe_ite (fun _ => ?_) (fun _ => ?_)
  · refine keeps_safe (interlockFault_keeps ..) rfl ?_
    refine gateChange_safe (hs := ?_) ..
    assumption
  · refine gateChange_safe (hs := ?_) ..
    assumption

theorem execActOutDeadmanStarved_safe (s : State) (t : State) (h : execActOutDeadmanStarved s = .next t) (hs :
    State.Safe s) : State.Safe t := by
  unfold execActOutDeadmanStarved at h
  refine safe_done h ?_
  refine actDeadman_safe (hs := ?_) ..
  assumption

theorem execActOutClaim_safe (at_ actInLowNs : Nat) (s : State) (t : State) (h : execActOutClaim at_ actInLowNs s =
    .next t) (hs : State.Safe s) : State.Safe t := by
  unfold execActOutClaim at h
  refine safe_done h ?_
  refine claimActOut_safe (hs := ?_) ..
  refine keeps_safe (State.elapse_keeps ..) rfl ?_
  assumption

theorem execFaultHandover_safe (s : State) (t : State) (h : execFaultHandover s = .next t) (hs : State.Safe s) :
    State.Safe t := by
  unfold execFaultHandover at h
  refine safe_done h ?_
  refine faultHandover_safe (hs := ?_) ..
  assumption

theorem execActiveFaultHandover_safe (s : State) (t : State) (h : execActiveFaultHandover s = .next t) (hs : State.Safe
    s) : State.Safe t := by
  unfold execActiveFaultHandover at h
  refine safe_done h ?_
  refine activeFaultHandover_safe (hs := ?_) ..
  assumption

theorem execHandover_safe (value : Nat) (s : State) (t : State) (h : execHandover value s = .next t) (hs : s.Safe) : t.Safe := by
  unfold execHandover at h
  exact safe_done h (attempt_safe (handoverApply_safe _ _ hs) hs)

theorem execIsolate_safe (value : Nat) (s : State) (t : State) (h : execIsolate value s = .next t) (hs : s.Safe) : t.Safe := by
  unfold execIsolate at h
  exact safe_done h (attempt_safe (isolateApply_safe _ _ hs) hs)

theorem execCollisionClear_safe (s : State) (t : State) (h : execCollisionClear s = .next t) (hs : State.Safe s) :
    State.Safe t := by
  unfold execCollisionClear at h
  refine safe_done h ?_
  refine collisionClear_safe (hs := ?_) ..
  assumption

end Sys2Proof.Machine
end

