-- ==== Sys2Proof/Laws/SafeBeam.lean ====
section
/-! SUPPORT. Safety is kept by the functions of Machine/Beam.lean that change memory or the twin. -/
namespace Sys2Proof.Machine

theorem rodCtrlWrite_safe (s : State) (r off v : Nat) (hs : State.Safe s) : State.Safe (rodCtrlWrite s r off v) := by
  unfold rodCtrlWrite
  split
  · refine safe_ite (fun _ => ?_) (fun _ => ?_)
    · refine keeps_safe (runStart_keeps ..) rfl ?_
      assumption
    · refine keeps_safe (State.setRod_keeps ..) rfl ?_
      refine runStop_safe (hs := ?_) ..
      assumption
  · refine safe_ite (fun _ => ?_) (fun _ => ?_)
    · refine keeps_safe (faultClear_keeps ..) rfl ?_
      assumption
    · assumption
  · refine safe_ite (fun _ => ?_) (fun _ => ?_)
    · refine keeps_safe (State.setRod_keeps ..) rfl ?_
      assumption
    · assumption
  · assumption

theorem busAWrite_safe (s : State) (a v : Nat) (hs : State.Safe s) : State.Safe (busAWrite s a v) := by
  unfold busAWrite
  refine safe_ite (fun _ => ?_) (fun _ => ?_)
  · refine safe_mk (safe_parts ?_)
    assumption
  · refine safe_ite (fun _ => ?_) (fun _ => ?_)
    · refine safe_ite (fun _ => ?_) (fun _ => ?_)
      · refine safe_mk (safe_parts ?_)
        assumption
      · assumption
    · refine safe_ite (fun _ => ?_) (fun _ => ?_)
      · refine safe_mk (safe_parts ?_)
        assumption
      · refine safe_ite (fun _ => ?_) (fun _ => ?_)
        · refine safe_ite (fun _ => ?_) (fun _ => ?_)
          · refine safe_mk (safe_parts ?_)
            assumption
          · assumption
        · refine safe_ite (fun _ => ?_) (fun _ => ?_)
          · refine safe_ite (fun _ => ?_) (fun _ => ?_)
            · refine collisionClear_safe (hs := ?_) ..
              assumption
            · assumption
          · refine safe_ite (fun _ => ?_) (fun _ => ?_)
            · refine keeps_safe (priWrite_keeps ..) rfl ?_
              assumption
            · assumption

theorem regWrite_safe (s : State) (a v : Nat) (hs : State.Safe s) : State.Safe (regWrite s a v) := by
  unfold regWrite
  refine safe_ite (fun _ => ?_) (fun _ => ?_)
  · refine safe_ite (fun _ => ?_) (fun _ => ?_)
    · refine rodCtrlWrite_safe (hs := ?_) ..
      assumption
    · assumption
  · refine safe_ite (fun _ => ?_) (fun _ => ?_)
    · refine keeps_safe (tallyRegWrite_keeps ..) rfl ?_
      assumption
    · refine safe_ite (fun _ => ?_) (fun _ => ?_)
      · refine busAWrite_safe (hs := ?_) ..
        assumption
      · refine safe_ite (fun _ => ?_) (fun _ => ?_)
        · refine keeps_safe (busBWrite_keeps ..) rfl ?_
          assumption
        · assumption

theorem rodMemRead_safe (s : State) (r off n : Nat) (hs : State.Safe s) : State.Safe (rodMemRead s r off n).1 := by
  unfold rodMemRead
  dsimp only
  split
  · refine rodFault_safe (hs := ?_) ..
    refine keeps_safe (State.setRod_keeps ..) rfl ?_
    refine keeps_safe (rodNote_keeps ..) rfl ?_
    assumption
  · refine keeps_safe (rodNote_keeps ..) rfl ?_
    assumption

theorem rodMemWrite_safe (s : State) (r off : Nat) (data : List Byte) (strobe : List Bool) (hs : State.Safe s) :
    State.Safe (rodMemWrite s r off data strobe) := by
  unfold rodMemWrite
  dsimp only
  refine safe_ite (fun _ => ?_) (fun _ => ?_)
  · refine rodFault_safe (hs := ?_) ..
    refine keeps_safe (State.setRod_keeps ..) rfl ?_
    refine safe_mk (safe_mem ?_ (fun hm => ?_))
    · refine safe_foldl (fun _ _ _ => ?_) ?_
      · split
        · assumption
        · refine safe_ite (fun _ => ?_) (fun _ => ?_)
          · refine keeps_safe (rodHeal_keeps ..) rfl ?_
            assumption
          · refine safe_ite (fun _ => ?_) (fun _ => ?_)
            · assumption
            · refine keeps_safe (rodHeal_keeps ..) rfl ?_
              refine keeps_safe (countRodEcc_keeps ..) rfl ?_
              assumption
      · assumption
    · exact memStrobe_wf _ _ _ _ hm
  · refine safe_mk (safe_mem ?_ (fun hm => ?_))
    · refine safe_foldl (fun _ _ _ => ?_) ?_
      · split
        · assumption
        · refine safe_ite (fun _ => ?_) (fun _ => ?_)
          · refine keeps_safe (rodHeal_keeps ..) rfl ?_
            assumption
          · refine safe_ite (fun _ => ?_) (fun _ => ?_)
            · assumption
            · refine keeps_safe (rodHeal_keeps ..) rfl ?_
              refine keeps_safe (countRodEcc_keeps ..) rfl ?_
              assumption
      · assumption
    · exact memStrobe_wf _ _ _ _ hm

theorem regBurst_safe (s : State) (a : Nat) (data : List Byte) (strobe : List Bool) (hs : State.Safe s) : State.Safe
    (regBurst s a data strobe) := by
  unfold regBurst
  refine safe_foldl (fun _ _ _ => ?_) ?_
  · refine safe_ite (fun _ => ?_) (fun _ => ?_)
    · refine regWrite_safe (hs := ?_) ..
      assumption
    · assumption
  · assumption

theorem readBurst_safe (s : State) (m a n : Nat) (hs : State.Safe s) : State.Safe (readBurst s m a n).1 := by
  unfold readBurst
  split
  · dsimp only
    refine keeps_safe (ledgerRead_keeps ..) rfl ?_
    assumption
  · split
    · split
      · dsimp only
        refine keeps_safe (beamError_keeps ..) rfl ?_
        assumption
      · dsimp only
        refine keeps_safe (burstEnd_keeps ..) rfl ?_
        refine dramRead_safe (hs := ?_) ..
        refine wakeDram_safe (hs := ?_) ..
        assumption
    · split
      · dsimp only
        split
        · dsimp only
          refine rodMemRead_safe (hs := ?_) ..
          assumption
        · dsimp only
          refine keeps_safe (beamError_keeps ..) rfl ?_
          assumption
      · split
        · dsimp only
          assumption
        · dsimp only
          assumption

theorem writeBurst_safe (s : State) (m a : Nat) (data : List Byte) (strobe : List Bool) (hs : State.Safe s) : State.Safe
    (writeBurst s m a data strobe).1 := by
  unfold writeBurst
  split
  · dsimp only
    refine ledgerWrite_safe (hs := ?_) ..
    assumption
  · split
    · split
      · dsimp only
        refine keeps_safe (beamError_keeps ..) rfl ?_
        assumption
      · dsimp only
        refine keeps_safe (burstEnd_keeps ..) rfl ?_
        refine dramWrite_safe (hs := ?_) ..
        refine wakeDram_safe (hs := ?_) ..
        assumption
    · split
      · dsimp only
        split
        · dsimp only
          refine rodMemWrite_safe (hs := ?_) ..
          assumption
        · dsimp only
          refine keeps_safe (beamError_keeps ..) rfl ?_
          assumption
      · split
        · split
          · dsimp only
            refine keeps_safe (putWindow_keeps ..) rfl ?_
            assumption
          · dsimp only
            refine keeps_safe (beamError_keeps ..) rfl ?_
            assumption
        · split
          · dsimp only
            refine keeps_safe (purge_keeps ..) rfl ?_
            assumption
          · split
            · dsimp only
              refine safe_mk (safe_mem ?_ (fun hm => ?_))
              · assumption
              · exact memStrobe_wf _ _ _ _ hm
            · dsimp only
              refine regBurst_safe (hs := ?_) ..
              assumption

theorem serveBurst_safe (s : State) (q : BeamReq) (hs : State.Safe s) : State.Safe (serveBurst s q) := by
  unfold serveBurst
  refine safe_ite (fun _ => ?_) (fun _ => ?_)
  · refine writeBurst_safe (hs := ?_) ..
    assumption
  · dsimp only
    split
    · refine keeps_safe (State.send_keeps ..) rfl ?_
      refine readBurst_safe (hs := ?_) ..
      assumption
    · refine keeps_safe (State.send_keeps ..) rfl ?_
      refine readBurst_safe (hs := ?_) ..
      assumption

theorem serve_safe (s : State) (q : BeamReq) (t : Nat) (hs : State.Safe s) : State.Safe (serve s q t) := by
  unfold serve
  dsimp only
  refine safe_ite (fun _ => ?_) (fun _ => ?_)
  · refine keeps_safe (refuse_keeps ..) rfl ?_
    assumption
  · refine safe_ite (fun _ => ?_) (fun _ => ?_)
    · refine keeps_safe (refuse_keeps ..) rfl ?_
      refine safe_mk (safe_parts ?_)
      assumption
    · refine serveBurst_safe (hs := ?_) ..
      refine keeps_safe (lockAfter_keeps ..) rfl ?_
      assumption

theorem grantAt_safe (s : State) (t : Nat) (hs : State.Safe s) : State.Safe (grantAt s t) := by
  unfold grantAt
  split
  · assumption
  · refine serve_safe (hs := ?_) ..
    refine safe_mk (safe_parts ?_)
    assumption

theorem arbitrate_safe (s : State) (hs : State.Safe s) : State.Safe (arbitrate s) := by
  unfold arbitrate
  refine safe_foldl (fun _ _ _ => ?_) ?_
  · refine grantAt_safe (hs := ?_) ..
    assumption
  · assumption

theorem single_safe (s : State) (q : BeamReq) (hs : State.Safe s) : State.Safe (single s q) := by
  unfold single
  split
  · refine keeps_safe (issue_keeps ..) rfl ?_
    assumption
  · refine grantAt_safe (hs := ?_) ..
    refine keeps_safe (letIn_keeps ..) rfl ?_
    refine keeps_safe (issue_keeps ..) rfl ?_
    assumption

theorem lockedStep_safe (m : Nat) (acc : State × Nat × Bool) (q : BeamReq) (hs : State.Safe acc.1) : State.Safe
    (lockedStep m acc q).1 := by
  unfold lockedStep
  split
  split
  · dsimp only
    refine keeps_safe (issue_keeps ..) rfl ?_
    assumption
  · split
    · dsimp only
      assumption
    · split
      · dsimp only
        refine keeps_safe (refuse_keeps ..) rfl ?_
        assumption
      · split
        · dsimp only
          refine keeps_safe (refuse_keeps ..) rfl ?_
          refine safe_mk (safe_parts ?_)
          assumption
        · dsimp only
          refine grantAt_safe (hs := ?_) ..
          refine keeps_safe (letIn_keeps ..) rfl ?_
          refine keeps_safe (issue_keeps ..) rfl ?_
          assumption

theorem lockedSequence_safe (s : State) (m : Nat) (reqs : List BeamReq) (hs : State.Safe s) : State.Safe (lockedSequence
    s m reqs) := by
  unfold lockedSequence
  refine safe_foldl_fst (fun _ _ _ => ?_) ?_
  · refine lockedStep_safe (hs := ?_) ..
    assumption
  · dsimp only
    assumption

theorem resetRods_safe (s : State) (m : Nat) (hs : State.Safe s) : State.Safe (resetRods s m) := by
  unfold resetRods
  refine safe_foldl (fun _ _ _ => ?_) ?_
  · dsimp only
    refine keeps_safe (State.setRod_keeps ..) rfl ?_
    refine clearRod_safe (hs := ?_) ..
    assumption
  · assumption

theorem masterReset_safe (s : State) (m : Nat) (hs : State.Safe s) : State.Safe (masterReset s m) := by
  unfold masterReset
  refine safe_ite (fun _ => ?_) (fun _ => ?_)
  · assumption
  · refine safe_ite (fun _ => ?_) (fun _ => ?_)
    · refine resetRods_safe (hs := ?_) ..
      assumption
    · dsimp only
      refine keeps_safe (State.raise_keeps ..) rfl ?_
      refine keeps_safe (State.bump_keeps ..) rfl ?_
      refine keeps_safe (State.stset_keeps ..) rfl ?_
      refine resetRods_safe (hs := ?_) ..
      refine keeps_safe (dropHeld_keeps ..) rfl ?_
      refine safe_mk (safe_parts ?_)
      assumption

theorem moveIn_safe (s : State) (r : Nat) (x : Xfer) (off n : Nat) (hs : s.Safe) : (moveIn s r x off n).1.Safe := by
  have hg := fun a k b => keeps_safe (moverMeets_keeps s r a k b) rfl hs
  unfold moveIn
  dsimp only
  split
  · exact hg _ _ _
  · split
    · exact readBurst_safe _ _ _ _ (hg _ _ _)
    · exact rodMemWrite_safe _ _ _ _ _ (readBurst_safe _ _ _ _ (hg _ _ _))

theorem moveOut_safe (s : State) (r : Nat) (x : Xfer) (off n : Nat) (hs : s.Safe) : (moveOut s r x off n).1.Safe := by
  have hg := fun a k b => keeps_safe (moverMeets_keeps s r a k b) rfl hs
  unfold moveOut
  dsimp only
  split
  · exact hg _ _ _
  · have hw := fun a => writeBurst_safe _ (r / 8) (x.far + off) a (List.replicate n true)
      (keeps_safe (rodNote_keeps _ r ((List.range n).map (fun i => x.dm + off + i))) rfl (hg (x.far + off) n true))
    split
    · exact keeps_safe (noteOutput_keeps ..) rfl (hw _)
    · exact hw _

theorem moveAll_safe (r : Nat) (x : Xfer) (l : List (Nat × Nat)) (s : State) (hs : s.Safe) : (moveAll r x l s).1.Safe := by
  induction l generalizing s with
  | nil => exact hs
  | cons b rest ih =>
    unfold moveAll
    split
    · exact hs
    · have hm : (if x.out then moveOut s r x b.1 b.2 else moveIn s r x b.1 b.2).1.Safe := by
        split
        · exact moveOut_safe _ _ _ _ _ hs
        · exact moveIn_safe _ _ _ _ _ hs
      dsimp only
      generalize (if x.out then moveOut s r x b.1 b.2 else moveIn s r x b.1 b.2) = a at hm ⊢
      split
      · exact ih _ hm
      · exact hm
      · exact hm
      · exact hm

theorem afterXfer_safe (s : State) (r : Nat) (hs : State.Safe s) : State.Safe (afterXfer s r) := by
  unfold afterXfer
  dsimp only
  split
  · refine keeps_safe (State.setRod_keeps ..) rfl ?_
    split
    · refine keeps_safe (State.setRod_keeps ..) rfl ?_
      assumption
    · refine endItem_safe (hs := ?_) ..
      refine keeps_safe (State.setRod_keeps ..) rfl ?_
      assumption
    · assumption
  · refine safe_ite (fun _ => ?_) (fun _ => ?_)
    · refine keeps_safe (finish_keeps ..) rfl ?_
      split
      · refine keeps_safe (State.setRod_keeps ..) rfl ?_
        assumption
      · refine endItem_safe (hs := ?_) ..
        refine keeps_safe (State.setRod_keeps ..) rfl ?_
        assumption
      · assumption
    · split
      · refine keeps_safe (State.setRod_keeps ..) rfl ?_
        assumption
      · refine endItem_safe (hs := ?_) ..
        refine keeps_safe (State.setRod_keeps ..) rfl ?_
        assumption
      · assumption
  · refine giveIfAny_safe (hs := ?_) ..
    split
    · refine keeps_safe (State.setRod_keeps ..) rfl ?_
      assumption
    · refine endItem_safe (hs := ?_) ..
      refine keeps_safe (State.setRod_keeps ..) rfl ?_
      assumption
    · assumption
  · split
    · refine keeps_safe (State.setRod_keeps ..) rfl ?_
      assumption
    · refine endItem_safe (hs := ?_) ..
      refine keeps_safe (State.setRod_keeps ..) rfl ?_
      assumption
    · assumption

theorem xferFail_safe (s : State) (r code : Nat) (hs : State.Safe s) : State.Safe (xferFail s r code) := by
  unfold xferFail
  dsimp only
  refine safe_ite (fun _ => ?_) (fun _ => ?_)
  · refine keeps_safe (State.setRod_keeps ..) rfl ?_
    assumption
  · refine rodFault_safe (hs := ?_) ..
    refine keeps_safe (State.setRod_keeps ..) rfl ?_
    assumption

theorem xferComplete_safe (s : State) (r : Nat) (hs : State.Safe s) : State.Safe (xferComplete s r) := by
  unfold xferComplete
  split
  · assumption
  · refine safe_ite (fun _ => hs) (fun _ => ?_)
    dsimp only
    split
    · exact afterXfer_safe _ _ (keeps_safe (State.setRod_keeps ..) rfl (moveAll_safe _ _ _ _ hs))
    · exact keeps_safe (State.setRod_keeps ..) rfl (moveAll_safe _ _ _ _ hs)
    · exact keeps_safe (State.setRod_keeps ..) rfl (moveAll_safe _ _ _ _ hs)
    · exact xferFail_safe _ _ _ (moveAll_safe _ _ _ _ hs)
    · exact xferFail_safe _ _ _ (moveAll_safe _ _ _ _ hs)

theorem execRegisterWrite_safe (master addr value : Nat) (s : State) (t : State) (h : execRegisterWrite master addr
    value s = .next t) (hs : State.Safe s) : State.Safe t := by
  unfold execRegisterWrite at h
  refine safe_done h ?_
  refine single_safe (hs := ?_) ..
  assumption

theorem execTallyPurge_safe (value : Nat) (s : State) (t : State) (h : execTallyPurge value s = .next t) (hs :
    State.Safe s) : State.Safe t := by
  unfold execTallyPurge at h
  refine safe_done h ?_
  refine single_safe (hs := ?_) ..
  assumption

theorem execQcfgWrite_safe (master queue value : Nat) (s : State) (t : State) (h : execQcfgWrite master queue value s =
    .next t) (hs : State.Safe s) : State.Safe t := by
  unfold execQcfgWrite at h
  refine safe_done h ?_
  refine safe_ite (fun _ => ?_) (fun _ => ?_)
  · refine single_safe (hs := ?_) ..
    assumption
  · assumption

theorem execPutWindowWrite_safe (master queue offset : Nat) (data : List Byte) (s : State) (t : State) (h :
    execPutWindowWrite master queue offset data s = .next t) (hs : State.Safe s) : State.Safe t := by
  unfold execPutWindowWrite at h
  refine safe_done h ?_
  dsimp only
  refine safe_ite (fun _ => ?_) (fun _ => ?_)
  · assumption
  · refine safe_ite (fun _ => ?_) (fun _ => ?_)
    · refine single_safe (hs := ?_) ..
      assumption
    · refine keeps_safe (putWindow_keeps ..) rfl ?_
      assumption

theorem execXferComplete_safe (rod : Nat) (upsets : List Upset) (s : State) (t : State) (h : execXferComplete rod upsets
    s = .next t) (hs : State.Safe s) : State.Safe t := by
  unfold execXferComplete at h
  refine safe_done h ?_
  refine safe_ite (fun _ => ?_) (fun _ => ?_)
  · refine xferComplete_safe (hs := ?_) ..
    refine keeps_safe (applyUpsets_keeps ..) rfl ?_
    assumption
  · assumption

theorem execBeamRequest_safe (reqs : List BeamReq) (upsets : List Upset) (s : State) (t : State) (h : execBeamRequest
    reqs upsets s = .next t) (hs : State.Safe s) : State.Safe t := by
  unfold execBeamRequest at h
  refine safe_done h ?_
  refine arbitrate_safe (hs := ?_) ..
  refine safe_foldl (fun _ _ _ => ?_) ?_
  · refine keeps_safe (issue_keeps ..) rfl ?_
    assumption
  · refine keeps_safe (applyUpsets_keeps ..) rfl ?_
    assumption

theorem execLockedSequence_safe (master : Nat) (reqs : List BeamReq) (s : State) (t : State) (h : execLockedSequence
    master reqs s = .next t) (hs : State.Safe s) : State.Safe t := by
  unfold execLockedSequence at h
  refine safe_done h ?_
  refine lockedSequence_safe (hs := ?_) ..
  assumption

theorem execMasterReset_safe (master : Nat) (s : State) (t : State) (h : execMasterReset master s = .next t) (hs :
    State.Safe s) : State.Safe t := by
  unfold execMasterReset at h
  refine safe_done h ?_
  refine masterReset_safe (hs := ?_) ..
  assumption

end Sys2Proof.Machine
end

