-- ==== Sys2Proof/Laws/SafeLifecycle.lean ====
section
/-! SUPPORT. Safety is kept by the functions of Machine/Lifecycle.lean that change memory or the twin. -/
namespace Sys2Proof.Machine

theorem showLoad_safe (s : State) (key : Option Nat) (nonce data tag : List Byte) (a : Nat) (hs : State.Safe s) :
    State.Safe (showLoad s key nonce data tag a) := by
  unfold showLoad
  split
  · refine keeps_safe (State.raise_keeps ..) rfl ?_
    refine keeps_safe (State.abort_keeps ..) rfl ?_
    assumption
  · refine safe_ite (fun _ => ?_) (fun _ => ?_)
    · refine dramBurst_safe (hs := ?_) ..
      assumption
    · assumption

theorem execShowDataLoad_safe (key : Option Nat) (nonce data tag : List Byte) (addr : Nat) (s : State) (t : State) (h :
    execShowDataLoad key nonce data tag addr s = .next t) (hs : State.Safe s) : State.Safe t := by
  unfold execShowDataLoad at h
  refine safe_done h ?_
  refine showLoad_safe (hs := ?_) ..
  assumption

end Sys2Proof.Machine
end

