-- ==== Sys2Proof/Laws/SafeSelfTest.lean ====
section
/-! SUPPORT. Safety is kept by the functions of Machine/SelfTest.lean that change memory or the twin. -/
namespace Sys2Proof.Machine

theorem setDram_safe (s : State) (v : Nat) (hs : State.Safe s) : State.Safe (setDram s v) := by
  unfold setDram
  refine safe_ite (fun _ => ?_) (fun _ => ?_)
  · refine backInService_safe (hs := ?_) ..
    assumption
  · refine keeps_safe (State.stset_keeps ..) rfl ?_
    refine safe_mk (safe_parts ?_)
    assumption

theorem dramFails_safe (s : State) (bad : List Nat) (ms : Nat) (hs : State.Safe s) : State.Safe (dramFails s bad ms) :=
    by
  unfold dramFails
  refine keeps_safe (State.raise_keeps ..) rfl ?_
  refine keeps_safe (stAll_keeps ..) rfl ?_
  refine setDram_safe (hs := ?_) ..
  assumption

theorem trained_safe (s : State) (o : DramObs) (t : Training) (hs : s.Safe) : (trained s o t).Safe := by
  unfold trained
  refine keeps_safe (driftsZero_keeps ..) rfl ?_
  refine setDram_safe (hs := ?_) ..
  refine keeps_safe (trainingStatus_keeps ..) rfl ?_
  refine safe_mk (safe_parts ?_)
  assumption

theorem fullTraining_safe (s : State) (o : DramObs) (hs : s.Safe) : (fullTraining s o).Safe := by
  unfold fullTraining
  dsimp only
  split
  · exact dramFails_safe _ _ _ hs
  · split
    · exact trained_safe _ _ _ hs
    · split
      · exact trained_safe _ _ _ (keeps_safe (retireRank_keeps _ _ _ (by assumption)) rfl hs)
      · exact dramFails_safe _ _ _ hs
    · exact dramFails_safe _ _ _ hs

theorem trainDram_safe (s : State) (o : DramObs) (hs : State.Safe s) : State.Safe (trainDram s o) := by
  unfold trainDram
  split
  · refine safe_ite (fun _ => ?_) (fun _ => ?_)
    · refine setDram_safe (hs := ?_) ..
      refine keeps_safe (trainingStatus_keeps ..) rfl ?_
      assumption
    · refine fullTraining_safe (hs := ?_) ..
      assumption
  · refine fullTraining_safe (hs := ?_) ..
    assumption

theorem zeroDram_safe (s : State) (hs : State.Safe s) : State.Safe (zeroDram s) := by
  unfold zeroDram
  refine safe_mk (safe_mem ?_ (fun hm => ?_))
  · assumption
  · exact memFilter_wf _ _ hm

theorem bringUpDram_safe (s : State) (o : DramObs) (hs : State.Safe s) : State.Safe (bringUpDram s o) := by
  unfold bringUpDram
  refine trainDram_safe (hs := ?_) ..
  refine zeroDram_safe (hs := ?_) ..
  refine safe_mk (safe_parts ?_)
  assumption

theorem applyHealth_safe (s : State) (units : List UnitResult) (hs : State.Safe s) : State.Safe (applyHealth s units) :=
    by
  unfold applyHealth
  refine safe_foldl (fun _ _ _ => ?_) ?_
  · refine setHealth_safe (hs := ?_) ..
    assumption
  · assumption

theorem inertOutputs_safe (s : State) (hs : State.Safe s) : State.Safe (inertOutputs s) := by
  unfold inertOutputs
  refine safe_mk (safe_parts ?_)
  refine safe_foldl (fun _ _ _ => ?_) ?_
  · refine keeps_safe (putDrive_keeps ..) rfl ?_
    assumption
  · refine dropActOut_safe (hs := ?_) ..
    assumption

theorem selfTestEnd_safe (s : State) (o : TestObs) (hs : State.Safe s) : State.Safe (selfTestEnd s o) := by
  unfold selfTestEnd
  dsimp only
  split
  · refine keeps_safe (setMod_keeps ..) rfl ?_
    refine inertOutputs_safe (hs := ?_) ..
    refine safe_mk (safe_parts ?_)
    assumption
  · refine keeps_safe (setMod_keeps ..) rfl ?_
    refine inertOutputs_safe (hs := ?_) ..
    refine applyHealth_safe (hs := ?_) ..
    refine keeps_safe (applyFences_keeps ..) rfl ?_
    refine keeps_safe (reportFenced_keeps ..) rfl ?_
    refine keeps_safe (State.raise_keeps ..) rfl ?_
    refine keeps_safe (setFences_keeps ..) rfl ?_
    refine safe_mk (safe_parts ?_)
    assumption

theorem selfTestTick_safe (s : State) (hs : State.Safe s) : State.Safe (selfTestTick s) := by
  unfold selfTestTick
  split
  · assumption
  · refine safe_ite (fun _ => ?_) (fun _ => ?_)
    · refine selfTestEnd_safe (hs := ?_) ..
      assumption
    · refine safe_mk (safe_parts ?_)
      assumption

theorem targetedOutcome_safe (s : State) (u : UnitResult) (hs : State.Safe s) : State.Safe (targetedOutcome s u) := by
  unfold targetedOutcome
  refine safe_ite (fun _ => ?_) (fun _ => ?_)
  · dsimp only
    refine safe_ite (fun _ => ?_) (fun _ => ?_)
    · refine fenceRod_safe (hs := ?_) ..
      refine keeps_safe (State.raise_keeps ..) rfl ?_
      refine keeps_safe (setFences_keeps ..) rfl ?_
      assumption
    · refine safe_ite (fun _ => ?_) (fun _ => ?_)
      · refine keeps_safe (setFrame_keeps ..) rfl ?_
        refine safe_foldl (fun _ _ _ => ?_) ?_
        · refine fenceRod_safe (hs := ?_) ..
          assumption
        · refine keeps_safe (State.raise_keeps ..) rfl ?_
          refine keeps_safe (setFences_keeps ..) rfl ?_
          assumption
      · refine keeps_safe (leaveService_keeps ..) rfl ?_
        refine keeps_safe (State.raise_keeps ..) rfl ?_
        refine keeps_safe (setFences_keeps ..) rfl ?_
        assumption
  · dsimp only
    refine safe_ite (fun _ => ?_) (fun _ => ?_)
    · refine setHealth_safe (hs := ?_) ..
      refine keeps_safe (setFences_keeps ..) rfl ?_
      assumption
    · refine keeps_safe (setFences_keeps ..) rfl ?_
      assumption

theorem targetedEnd_safe (s : State) (t : Targeted) (hs : State.Safe s) : State.Safe (targetedEnd s t) := by
  unfold targetedEnd
  refine keeps_safe (State.raise_keeps ..) rfl ?_
  refine targetedOutcome_safe (hs := ?_) ..
  refine safe_ite (fun _ => ?_) (fun _ => ?_)
  · refine keeps_safe (rodReturns_keeps ..) rfl ?_
    refine safe_mk (safe_parts ?_)
    assumption
  · refine safe_ite (fun _ => ?_) (fun _ => ?_)
    · refine keeps_safe (slideReturns_keeps ..) rfl ?_
      refine safe_mk (safe_parts ?_)
      assumption
    · refine safe_mk (safe_parts ?_)
      assumption

theorem targetedTick_safe (s : State) (hs : State.Safe s) : State.Safe (targetedTick s) := by
  unfold targetedTick
  split
  · assumption
  · refine safe_ite (fun _ => ?_) (fun _ => ?_)
    · refine safe_ite (fun _ => ?_) (fun _ => ?_)
      · refine keeps_safe (targetedBegin_keeps ..) rfl ?_
        assumption
      · assumption
    · refine safe_ite (fun _ => ?_) (fun _ => ?_)
      · refine targetedEnd_safe (hs := ?_) ..
        assumption
      · assumption

end Sys2Proof.Machine
end

