-- ==== Sys2Proof/Laws/SafeBoot.lean ====
section
/-! SUPPORT. Safety is kept by the functions of Machine/Boot.lean that change memory or the twin. -/
namespace Sys2Proof.Machine

theorem resetWith_safe (s : State) (p : Power) : (resetWith s p).Safe :=
  SafeParts.mk rfl (fun h => Bool.noConfusion (show false = true from h)) (fun _ => rfl) (Nat.zero_le 5)

theorem startSequence_safe (s : State) (o : BootObs) (hs : State.Safe s) : State.Safe (startSequence s o) := by
  unfold startSequence
  dsimp only
  split
  · refine keeps_safe (enterRecovery_keeps ..) rfl ?_
    split
    · refine keeps_safe (finishErasure_keeps ..) rfl ?_
      refine keeps_safe (setCounter_keeps ..) rfl ?_
      refine safe_mk (safe_parts ?_)
      assumption
    · refine keeps_safe (setCounter_keeps ..) rfl ?_
      refine safe_mk (safe_parts ?_)
      assumption
  · refine safe_ite (fun _ => ?_) (fun _ => ?_)
    · refine keeps_safe (statusOf_keeps ..) rfl ?_
      refine keeps_safe (checkUnits_keeps ..) rfl ?_
      refine keeps_safe (loadImageB_keeps ..) rfl ?_
      split
      · refine keeps_safe (finishErasure_keeps ..) rfl ?_
        refine keeps_safe (setCounter_keeps ..) rfl ?_
        refine safe_mk (safe_parts ?_)
        assumption
      · refine keeps_safe (setCounter_keeps ..) rfl ?_
        refine safe_mk (safe_parts ?_)
        assumption
    · refine keeps_safe (enterReady_keeps ..) rfl ?_
      refine applyHealth_safe (hs := ?_) ..
      refine keeps_safe (applyFences_keeps ..) rfl ?_
      refine ledgerInit_safe (hs := ?_) ..
      refine bringUpDram_safe (hs := ?_) ..
      refine keeps_safe (checkUnits_keeps ..) rfl ?_
      refine keeps_safe (loadImageB_keeps ..) rfl ?_
      split
      · refine keeps_safe (finishErasure_keeps ..) rfl ?_
        refine keeps_safe (setCounter_keeps ..) rfl ?_
        refine safe_mk (safe_parts ?_)
        assumption
      · refine keeps_safe (setCounter_keeps ..) rfl ?_
        refine safe_mk (safe_parts ?_)
        assumption

theorem startInstant_safe (s : State) (o : BootObs) (hs : State.Safe s) : State.Safe (startInstant s o) := by
  unfold startInstant
  refine safe_ite (fun _ => ?_) (fun _ => ?_)
  · refine startSequence_safe (hs := ?_) ..
    assumption
  · assumption

theorem drainDram_safe (s : State) (hs : State.Safe s) : State.Safe (drainDram s) := by
  unfold drainDram
  refine safe_foldl (fun _ _ _ => ?_) ?_
  · refine safe_foldl (fun _ _ _ => ?_) ?_
    · refine grantAt_safe (hs := ?_) ..
      assumption
    · refine keeps_safe (letIn_keeps ..) rfl ?_
      assumption
  · assumption

theorem parkModule_safe (s : State) (hs : State.Safe s) : State.Safe (parkModule s) := by
  unfold parkModule
  dsimp only
  refine keeps_safe (setLife_keeps ..) rfl ?_
  refine keeps_safe (setMod_keeps ..) rfl ?_
  refine keeps_safe (State.put_keeps ..) rfl ?_
  refine setDram_safe (hs := ?_) ..
  refine safe_mk (safe_parts ?_)
  refine safe_foldl (fun _ _ _ => ?_) ?_
  · refine clearRod_safe (hs := ?_) ..
    assumption
  · refine keeps_safe (ringApply_keeps ..) rfl ?_
    refine drainDram_safe (hs := ?_) ..
    assumption

theorem zeroLost_safe (s old : State) (hs : State.Safe s) : State.Safe (zeroLost s old) := by
  unfold zeroLost
  dsimp only
  refine safe_mk (safe_mem ?_ (fun hm => ?_))
  · assumption
  · exact memFilter_wf _ _ hm

theorem wakeParked_safe (s : State) (o : DramObs) (hs : s.Safe) : (wakeParked s o).Safe := by
  unfold wakeParked
  exact zeroLost_safe _ _ (safe_ite (fun _ => setDram_safe _ _ hs) (fun _ => fullTraining_safe _ _ hs))

theorem unparkModule_safe (s : State) (check : List UnitResult) (o : DramObs) (hs : State.Safe s) : State.Safe
    (unparkModule s check o) := by
  unfold unparkModule
  refine keeps_safe (leaveParkedLife_keeps ..) rfl ?_
  refine safe_ite (fun _ => ?_) (fun _ => ?_)
  · refine keeps_safe (setMod_keeps ..) rfl ?_
    refine keeps_safe (State.raise_keeps ..) rfl ?_
    refine applyHealth_safe (hs := ?_) ..
    refine keeps_safe (pairsOf_keeps ..) rfl ?_
    refine keeps_safe (judgeCompute_keeps ..) rfl ?_
    refine safe_foldl (fun _ _ _ => ?_) ?_
    · refine keeps_safe (fenceAtStart_keeps ..) rfl ?_
      assumption
    · refine ledgerInit_safe (hs := ?_) ..
      refine keeps_safe (reportFenced_keeps ..) rfl ?_
      refine keeps_safe (setFences_keeps ..) rfl ?_
      refine keeps_safe (State.put_keeps ..) rfl ?_
      refine wakeParked_safe (hs := ?_) ..
      assumption
  · refine keeps_safe (setMod_keeps ..) rfl ?_
    refine applyHealth_safe (hs := ?_) ..
    refine keeps_safe (pairsOf_keeps ..) rfl ?_
    refine keeps_safe (judgeCompute_keeps ..) rfl ?_
    refine safe_foldl (fun _ _ _ => ?_) ?_
    · refine keeps_safe (fenceAtStart_keeps ..) rfl ?_
      assumption
    · refine ledgerInit_safe (hs := ?_) ..
      refine keeps_safe (reportFenced_keeps ..) rfl ?_
      refine keeps_safe (setFences_keeps ..) rfl ?_
      refine keeps_safe (State.put_keeps ..) rfl ?_
      refine wakeParked_safe (hs := ?_) ..
      assumption

theorem parkApply_safe (s : State) (v : Nat) (check : List UnitResult) (o : DramObs) (hs : State.Safe s) : State.Safe
    (parkApply s v check o) := by
  unfold parkApply
  refine safe_ite (fun _ => ?_) (fun _ => ?_)
  · refine parkModule_safe (hs := ?_) ..
    assumption
  · refine safe_ite (fun _ => ?_) (fun _ => ?_)
    · refine unparkModule_safe (hs := ?_) ..
      assumption
    · assumption

theorem parkFree_safe (s : State) (v : Nat) (hs : State.Safe s) : State.Safe (parkFree s v) := by
  unfold parkFree
  refine keeps_safe (State.drawn_keeps ..) rfl ?_
  refine parkApply_safe (hs := ?_) ..
  assumption

theorem execReset_safe (cause : ResetCause) (s : State) (t : State) (h : execReset cause s = .next t) (_ : s.Safe) : t.Safe := by
  unfold execReset at h
  refine safe_done h ?_
  split <;> exact resetWith_safe _ _

theorem execStartInstant_safe (obs : BootObs) (s : State) (t : State) (h : execStartInstant obs s = .next t) (hs :
    State.Safe s) : State.Safe t := by
  unfold execStartInstant at h
  refine safe_done h ?_
  refine startInstant_safe (hs := ?_) ..
  assumption

theorem restoreLibrary_safe (s : State) (hs : State.Safe s) : State.Safe (restoreLibrary s) := by
  unfold restoreLibrary
  refine safe_foldl (fun _ _ _ => ?_) ?_
  · refine dramBurst_safe (hs := ?_) ..
    assumption
  · refine dramWipe_safe (hs := ?_) ..
    refine wakeDram_safe (hs := ?_) ..
    assumption

theorem execLibraryRestoreDone_safe (s : State) (t : State) (h : execLibraryRestoreDone s = .next t) (hs : State.Safe s)
    : State.Safe t := by
  unfold execLibraryRestoreDone at h
  refine safe_done h ?_
  refine safe_ite (fun _ => ?_) (fun _ => ?_)
  · dsimp only
    refine keeps_safe (State.stset_keeps ..) rfl ?_
    refine safe_mk (safe_parts ?_)
    refine restoreLibrary_safe (hs := ?_) ..
    assumption
  · assumption

theorem supplySeen_safe {s f : State} (vin : Nat) (h : f.Safe) : (supplySeen s vin f).Safe :=
  safe_ite (fun _ => resetWith_safe _ _) (fun _ => h)

theorem execPowerGoodFall_safe (vinMv : Nat) (s t : State) (h : execPowerGoodFall vinMv s = .next t) (hs : s.Safe) : t.Safe := by
  unfold execPowerGoodFall at h
  exact safe_done h (supplySeen_safe _ (safe_mk (safe_parts hs)))

theorem execBrownout_safe (at_ vinMv : Nat) (s t : State) (h : execBrownout at_ vinMv s = .next t) (hs : s.Safe) : t.Safe := by
  unfold execBrownout at h
  exact safe_done h (supplySeen_safe _ (keeps_safe (brownout_keeps ..) rfl (keeps_safe (State.elapse_keeps ..) rfl hs)))

theorem execBrownoutEnd_safe (at_ vinMv : Nat) (s t : State) (h : execBrownoutEnd at_ vinMv s = .next t) (hs : s.Safe) :
    t.Safe := by
  unfold execBrownoutEnd at h
  exact safe_done h (supplySeen_safe _ (keeps_safe (brownoutEnd_keeps ..) rfl (keeps_safe (State.elapse_keeps ..) rfl hs)))

theorem execPark_safe (value : Nat) (s : State) (t : State) (h : execPark value s = .next t) (hs : s.Safe) : t.Safe := by
  unfold execPark at h
  exact safe_done h (attempt_safe (parkFree_safe _ _ hs) hs)

theorem execUnpark_safe (value : Nat) (check : List UnitResult) (obs : DramObs) (s : State) (t : State) (h : execUnpark value check obs s = .next t) (hs : s.Safe) : t.Safe := by
  unfold execUnpark at h
  exact safe_done h (attempt_safe (parkApply_safe _ _ _ _ hs) hs)

theorem execThermalTrip_safe (temp : Int) (s : State) (t : State) (h : execThermalTrip temp s = .next t) (hs : s.Safe) : t.Safe := by
  unfold execThermalTrip at h
  exact safe_done h (safe_ite (fun _ => resetWith_safe _ _) (fun _ => safe_mk (safe_parts hs)))

theorem execTripResetRelease_safe (temp : Int) (obs : BootObs) (s : State) (t : State) (h : execTripResetRelease temp
    obs s = .next t) (hs : State.Safe s) : State.Safe t := by
  unfold execTripResetRelease at h
  refine safe_done h ?_
  refine safe_ite (fun _ => ?_) (fun _ => ?_)
  · refine startInstant_safe (hs := ?_) ..
    refine safe_mk (safe_parts ?_)
    assumption
  · assumption

end Sys2Proof.Machine
end

