-- ==== Sys2Proof/Laws/SafeCorrection.lean ====
section
/-! SUPPORT. Safety is kept by the functions of Machine/Correction.lean that change memory or the twin. -/
namespace Sys2Proof.Machine

theorem keepCorr_safe (s : State) (n f : Nat) (c : Corr) (hs : State.Safe s) : State.Safe (keepCorr s n f c) := by
  unfold keepCorr
  dsimp only
  refine safe_ite (fun _ => ?_) (fun _ => ?_)
  · refine keeps_safe (State.raise_keeps ..) rfl ?_
    refine safe_ite (fun _ => ?_) (fun _ => ?_)
    · refine safe_ite (fun _ => ?_) (fun _ => ?_)
      · refine safe_ite (fun _ => ?_) (fun _ => ?_)
        · refine keeps_safe (setCorr_keeps ..) rfl ?_
          assumption
        · refine storeBank_safe (hs := ?_) ..
          refine keeps_safe (setCorr_keeps ..) rfl ?_
          assumption
      · refine storeBank_safe (hs := ?_) ..
        refine safe_ite (fun _ => ?_) (fun _ => ?_)
        · refine keeps_safe (setCorr_keeps ..) rfl ?_
          assumption
        · refine storeBank_safe (hs := ?_) ..
          refine keeps_safe (setCorr_keeps ..) rfl ?_
          assumption
    · refine storeCopy_safe (hs := ?_) ..
      refine safe_ite (fun _ => ?_) (fun _ => ?_)
      · refine safe_ite (fun _ => ?_) (fun _ => ?_)
        · refine keeps_safe (setCorr_keeps ..) rfl ?_
          assumption
        · refine storeBank_safe (hs := ?_) ..
          refine keeps_safe (setCorr_keeps ..) rfl ?_
          assumption
      · refine storeBank_safe (hs := ?_) ..
        refine safe_ite (fun _ => ?_) (fun _ => ?_)
        · refine keeps_safe (setCorr_keeps ..) rfl ?_
          assumption
        · refine storeBank_safe (hs := ?_) ..
          refine keeps_safe (setCorr_keeps ..) rfl ?_
          assumption
  · refine safe_ite (fun _ => ?_) (fun _ => ?_)
    · refine safe_ite (fun _ => ?_) (fun _ => ?_)
      · refine safe_ite (fun _ => ?_) (fun _ => ?_)
        · refine keeps_safe (setCorr_keeps ..) rfl ?_
          assumption
        · refine storeBank_safe (hs := ?_) ..
          refine keeps_safe (setCorr_keeps ..) rfl ?_
          assumption
      · refine storeBank_safe (hs := ?_) ..
        refine safe_ite (fun _ => ?_) (fun _ => ?_)
        · refine keeps_safe (setCorr_keeps ..) rfl ?_
          assumption
        · refine storeBank_safe (hs := ?_) ..
          refine keeps_safe (setCorr_keeps ..) rfl ?_
          assumption
    · refine storeCopy_safe (hs := ?_) ..
      refine safe_ite (fun _ => ?_) (fun _ => ?_)
      · refine safe_ite (fun _ => ?_) (fun _ => ?_)
        · refine keeps_safe (setCorr_keeps ..) rfl ?_
          assumption
        · refine storeBank_safe (hs := ?_) ..
          refine keeps_safe (setCorr_keeps ..) rfl ?_
          assumption
      · refine storeBank_safe (hs := ?_) ..
        refine safe_ite (fun _ => ?_) (fun _ => ?_)
        · refine keeps_safe (setCorr_keeps ..) rfl ?_
          assumption
        · refine storeBank_safe (hs := ?_) ..
          refine keeps_safe (setCorr_keeps ..) rfl ?_
          assumption

theorem rewriteBank_safe (s : State) (n k : Nat) (hs : State.Safe s) : State.Safe (rewriteBank s n k) := by
  unfold rewriteBank
  dsimp only
  refine dramWipe_safe (hs := ?_) ..
  refine storeBank_safe (hs := ?_) ..
  refine keeps_safe (setCorr_keeps ..) rfl ?_
  refine safe_foldl (fun _ _ _ => ?_) ?_
  · refine noteRange_safe (hs := ?_) ..
    assumption
  · assumption

theorem rewriteBanks_safe (s : State) (n : Nat) (hs : State.Safe s) : State.Safe (rewriteBanks s n) := by
  unfold rewriteBanks
  refine safe_foldl (fun _ _ _ => ?_) ?_
  · refine rewriteBank_safe (hs := ?_) ..
    assumption
  · refine safe_mk (safe_parts ?_)
    assumption

theorem corrTurn_safe (s : State) (d : SMap Nat) (t : Nat) (hs : State.Safe s) : State.Safe (corrTurn s d t) := by
  unfold corrTurn
  dsimp only
  refine safe_foldl (fun _ _ _ => ?_) ?_
  · refine keeps_safe (corrStatus_keeps ..) rfl ?_
    assumption
  · refine keeps_safe (State.stset_keeps ..) rfl ?_
    refine keeps_safe (State.stset_keeps ..) rfl ?_
    refine safe_foldl_fst (fun _ _ _ => ?_) ?_
    · refine keeps_safe (admitFade_keeps ..) rfl ?_
      assumption
    · dsimp only
      refine safe_foldl (fun _ _ _ => ?_) ?_
      · refine keepCorr_safe (hs := ?_) ..
        assumption
      · assumption

theorem prepEnd_safe (s : State) (f : Nat) (complete : Bool) (hs : State.Safe s) : State.Safe (prepEnd s f complete) :=
    by
  unfold prepEnd
  dsimp only
  split
  · refine safe_ite (fun _ => ?_) (fun _ => ?_)
    · refine safe_ite (fun _ => ?_) (fun _ => ?_)
      · split
        · refine keeps_safe (corrStatus_keeps ..) rfl ?_
          refine keepCorr_safe (hs := ?_) ..
          assumption
        · refine keeps_safe (corrStatus_keeps ..) rfl ?_
          refine keepCorr_safe (hs := ?_) ..
          assumption
        · assumption
      · refine keeps_safe (corrStatus_keeps ..) rfl ?_
        refine keeps_safe (State.raise_keeps ..) rfl ?_
        refine keeps_safe (State.bump_keeps ..) rfl ?_
        refine keeps_safe (setCorr_keeps ..) rfl ?_
        refine State.mark_safe (hs := ?_) ..
        assumption
    · assumption
  · assumption

theorem fadeEnd_safe (s : State) (f : Nat) (hs : State.Safe s) : State.Safe (fadeEnd s f) := by
  unfold fadeEnd
  dsimp only
  split
  · refine safe_ite (fun _ => ?_) (fun _ => ?_)
    · refine keeps_safe (corrStatus_keeps ..) rfl ?_
      refine keepCorr_safe (hs := ?_) ..
      assumption
    · assumption
  · assumption

theorem execPreparationComplete_safe (feed : Nat) (complete : Bool) (s : State) (t : State) (h : execPreparationComplete
    feed complete s = .next t) (hs : State.Safe s) : State.Safe t := by
  unfold execPreparationComplete at h
  refine safe_done h ?_
  refine prepEnd_safe (hs := ?_) ..
  assumption

theorem execCrossfadeEnd_safe (feed : Nat) (s : State) (t : State) (h : execCrossfadeEnd feed s = .next t) (hs :
    State.Safe s) : State.Safe t := by
  unfold execCrossfadeEnd at h
  refine safe_done h ?_
  refine fadeEnd_safe (hs := ?_) ..
  assumption

end Sys2Proof.Machine
end

