-- ==== Sys2Proof/Laws/SafeRender.lean ====
section
/-! SUPPORT. Safety is kept by the functions of Machine/Render.lean that change memory or the twin. -/
namespace Sys2Proof.Machine

theorem renderStart_safe (s : State) (actIn : Bool) (hs : State.Safe s) : State.Safe (renderStart s actIn) := by
  unfold renderStart
  refine safe_ite (fun _ => ?_) (fun _ => ?_)
  · assumption
  · refine keeps_safe (drivesStart_keeps ..) rfl ?_
    refine keeps_safe (setMod_keeps ..) rfl ?_
    refine chooseRole_safe (hs := ?_) ..
    refine keeps_safe (State.put_keeps ..) rfl ?_
    assumption

theorem renderApply_safe (s : State) (v : Nat) (actIn : Bool) (hs : State.Safe s) : State.Safe (renderApply s v actIn)
    := by
  unfold renderApply
  refine safe_ite (fun _ => ?_) (fun _ => ?_)
  · refine renderStart_safe (hs := ?_) ..
    assumption
  · refine keeps_safe (renderStop_keeps ..) rfl ?_
    assumption

theorem freshGroups_safe (s : State) (hs : State.Safe s) : State.Safe (freshGroups s) := by
  unfold freshGroups
  refine safe_foldl (fun _ _ _ => ?_) ?_
  · refine ledgerZero_safe (hs := ?_) ..
    assumption
  · assumption

theorem freshLines_safe (s : State) (hs : State.Safe s) : State.Safe (freshLines s) := by
  unfold freshLines
  dsimp only
  refine safe_mk (safe_parts ?_)
  refine dramZero_safe (hs := ?_) ..
  refine ledgerZero_safe (hs := ?_) ..
  refine freshGroups_safe (hs := ?_) ..
  assumption

theorem freshFeeds_safe (s : State) (hs : State.Safe s) : State.Safe (freshFeeds s) := by
  unfold freshFeeds
  dsimp only
  refine safe_foldl (fun _ _ _ => ?_) ?_
  · refine keeps_safe (State.setFeed_keeps ..) rfl ?_
    assumption
  · refine ledgerZero_safe (hs := ?_) ..
    assumption

theorem rateBuffers_safe (s : State) (hs : State.Safe s) : State.Safe (rateBuffers s) := by
  unfold rateBuffers
  dsimp only
  refine safe_mk (safe_parts ?_)
  refine freshFeeds_safe (hs := ?_) ..
  refine keeps_safe (freshObjects_keeps ..) rfl ?_
  refine freshLines_safe (hs := ?_) ..
  assumption

theorem ratePorts_safe (s : State) (hs : State.Safe s) : State.Safe (ratePorts s) := by
  unfold ratePorts
  refine safe_foldl (fun _ _ _ => ?_) ?_
  · refine safe_ite (fun _ => ?_) (fun _ => ?_)
    · dsimp only
      split
      · refine keeps_safe (State.setRod_keeps ..) rfl ?_
        refine endItem_safe (hs := ?_) ..
        refine keeps_safe (setSlot_keeps ..) rfl ?_
        assumption
      · refine keeps_safe (setSlot_keeps ..) rfl ?_
        assumption
    · assumption
  · refine safe_foldl (fun _ _ _ => ?_) ?_
    · refine safe_ite (fun _ => ?_) (fun _ => ?_)
      · assumption
      · refine keeps_safe (State.leave_keeps ..) rfl ?_
        refine keeps_safe (State.leave_keeps ..) rfl ?_
        refine keeps_safe (setAes_keeps ..) rfl ?_
        assumption
    · refine safe_foldl (fun _ _ _ => ?_) ?_
      · refine keeps_safe (pdmEnableApply_keeps ..) rfl ?_
        assumption
      · assumption

theorem mediaRateApply_safe (s : State) (v : Nat) (hs : State.Safe s) : State.Safe (mediaRateApply s v) := by
  unfold mediaRateApply
  refine safe_ite (fun _ => ?_) (fun _ => ?_)
  · assumption
  · refine ratePorts_safe (hs := ?_) ..
    refine keeps_safe (rateBaseline_keeps ..) rfl ?_
    refine keeps_safe (rateCorrection_keeps ..) rfl ?_
    refine rateBuffers_safe (hs := ?_) ..
    refine keeps_safe (State.stset_keeps ..) rfl ?_
    refine keeps_safe (State.putNv_keeps ..) rfl ?_
    assumption

theorem execRenderStart_safe (actIn : Bool) (s : State) (t : State) (h : execRenderStart actIn s = .next t) (hs : s.Safe) : t.Safe := by
  unfold execRenderStart at h
  exact safe_done h (attempt_safe (renderStart_safe _ _ hs) hs)

theorem execMediaRateChange_safe (rate : Nat) (s : State) (t : State) (h : execMediaRateChange rate s = .next t) (hs : s.Safe) : t.Safe := by
  unfold execMediaRateChange at h
  exact safe_done h (attempt_safe (mediaRateApply_safe _ _ hs) hs)

end Sys2Proof.Machine
end

