-- ==== Sys2Proof/Laws/SafeDictionary.lean ====
section
/-! SUPPORT. Safety is kept by the functions of Machine/Dictionary.lean that change memory or the twin. -/
namespace Sys2Proof.Machine

theorem portRangeApply_safe (s : State) (r : Row) (index sub v : Nat) (b : List Byte) (hs : State.Safe s) : State.Safe
    (portRangeApply s r index sub v b) := by
  unfold portRangeApply
  split
  · refine keeps_safe (managementApply_keeps ..) rfl ?_
    assumption
  · refine keeps_safe (managementApply_keeps ..) rfl ?_
    assumption
  · refine keeps_safe (askClear_keeps ..) rfl ?_
    assumption
  · refine keeps_safe (gpioApply_keeps ..) rfl ?_
    assumption
  · refine mediaRateApply_safe (hs := ?_) ..
    assumption
  · refine renderApply_safe (hs := ?_) ..
    assumption
  · refine keeps_safe (askClear_keeps ..) rfl ?_
    assumption
  · refine keeps_safe (timeApply_keeps ..) rfl ?_
    assumption
  · refine keeps_safe (timeApply_keeps ..) rfl ?_
    assumption
  · refine keeps_safe (pulseApply_keeps ..) rfl ?_
    assumption
  · refine keeps_safe (ringApply_keeps ..) rfl ?_
    assumption
  · refine keeps_safe (portApply_keeps ..) rfl ?_
    assumption
  · refine keeps_safe (aesModeApply_keeps ..) rfl ?_
    assumption
  · refine keeps_safe (pdmEnableApply_keeps ..) rfl ?_
    assumption
  · refine safe_ite (fun _ => ?_) (fun _ => ?_)
    · refine keeps_safe (askClear_keeps ..) rfl ?_
      assumption
    · refine keeps_safe (storeEntry_keeps ..) rfl ?_
      assumption

theorem rodRangeApply_safe (s : State) (r : Row) (index sub v a : Nat) (b : List Byte) (hs : State.Safe s) : State.Safe
    (rodRangeApply s r index sub v a b) := by
  unfold rodRangeApply
  refine safe_ite (fun _ => ?_) (fun _ => ?_)
  · refine keeps_safe (rotateApply_keeps ..) rfl ?_
    assumption
  · refine safe_ite (fun _ => ?_) (fun _ => ?_)
    · refine retireFrameApply_safe (hs := ?_) ..
      assumption
    · refine safe_ite (fun _ => ?_) (fun _ => ?_)
      · refine keeps_safe (retireSlideApply_keeps ..) rfl ?_
        assumption
      · refine safe_ite (fun _ => ?_) (fun _ => ?_)
        · refine retireRodApply_safe (hs := ?_) ..
          assumption
        · refine safe_ite (fun _ => ?_) (fun _ => ?_)
          · refine keeps_safe (slotImageApply_keeps ..) rfl ?_
            assumption
          · refine safe_ite (fun _ => ?_) (fun _ => ?_)
            · refine slotEnableApply_safe (hs := ?_) ..
              assumption
            · refine safe_ite (fun _ => ?_) (fun _ => ?_)
              · refine keeps_safe (askClear_keeps ..) rfl ?_
                assumption
              · refine safe_ite (fun _ => ?_) (fun _ => ?_)
                · refine keeps_safe (askClear_keeps ..) rfl ?_
                  assumption
                · refine safe_ite (fun _ => ?_) (fun _ => ?_)
                  · refine keeps_safe (askClear_keeps ..) rfl ?_
                    assumption
                  · refine safe_ite (fun _ => ?_) (fun _ => ?_)
                    · refine safe_ite (fun _ => ?_) (fun _ => ?_)
                      · refine triggerRank_safe (hs := ?_) ..
                        assumption
                      · assumption
                    · refine keeps_safe (storeEntry_keeps ..) rfl ?_
                      assumption

theorem systemRangeApply_safe (s : State) (r : Row) (index sub v a : Nat) (b : List Byte) (hs : State.Safe s) :
    State.Safe (systemRangeApply s r index sub v a b) := by
  unfold systemRangeApply
  refine safe_ite (fun _ => ?_) (fun _ => ?_)
  · refine keeps_safe (driveEnableApply_keeps ..) rfl ?_
    assumption
  · refine safe_ite (fun _ => ?_) (fun _ => ?_)
    · refine keeps_safe (clearLatchApply_keeps ..) rfl ?_
      assumption
    · refine safe_ite (fun _ => ?_) (fun _ => ?_)
      · refine keeps_safe (askClear_keeps ..) rfl ?_
        assumption
      · refine safe_ite (fun _ => ?_) (fun _ => ?_)
        · refine isolateApply_safe (hs := ?_) ..
          assumption
        · refine safe_ite (fun _ => ?_) (fun _ => ?_)
          · refine handoverApply_safe (hs := ?_) ..
            assumption
          · refine safe_ite (fun _ => ?_) (fun _ => ?_)
            · refine keeps_safe (askClear_keeps ..) rfl ?_
              assumption
            · refine safe_ite (fun _ => ?_) (fun _ => ?_)
              · refine rodRangeApply_safe (hs := ?_) ..
                assumption
              · refine safe_ite (fun _ => ?_) (fun _ => ?_)
                · refine safe_ite (fun _ => ?_) (fun _ => ?_)
                  · refine keeps_safe (State.drawn_keeps ..) rfl ?_
                    refine keeps_safe (selfTestApply_keeps ..) rfl ?_
                    assumption
                  · assumption
                · refine safe_ite (fun _ => ?_) (fun _ => ?_)
                  · refine parkFree_safe (hs := ?_) ..
                    assumption
                  · refine safe_ite (fun _ => ?_) (fun _ => ?_)
                    · refine safe_ite (fun _ => ?_) (fun _ => ?_)
                      · refine keeps_safe (State.drawn_keeps ..) rfl ?_
                        refine keeps_safe (targetedApply_keeps ..) rfl ?_
                        assumption
                      · assumption
                    · refine keeps_safe (storeEntry_keeps ..) rfl ?_
                      assumption

theorem writeApply_safe (s : State) (r : Row) (index sub a : Nat) (b : List Byte) (hs : State.Safe s) : State.Safe
    (writeApply s r index sub a b) := by
  unfold writeApply
  refine safe_ite (fun _ => ?_) (fun _ => ?_)
  · assumption
  · refine safe_ite (fun _ => ?_) (fun _ => ?_)
    · refine portRangeApply_safe (hs := ?_) ..
      assumption
    · refine safe_ite (fun _ => ?_) (fun _ => ?_)
      · refine keeps_safe (renderRangeApply_keeps ..) rfl ?_
        assumption
      · refine safe_ite (fun _ => ?_) (fun _ => ?_)
        · refine systemRangeApply_safe (hs := ?_) ..
          assumption
        · refine safe_ite (fun _ => ?_) (fun _ => ?_)
          · refine keeps_safe (lifeRangeApply_keeps ..) rfl ?_
            assumption
          · refine safe_ite (fun _ => ?_) (fun _ => ?_)
            · refine keeps_safe (stagingApply_keeps ..) rfl ?_
              assumption
            · refine keeps_safe (eventRangeApply_keeps ..) rfl ?_
              assumption

theorem writeNow_safe (s : State) (r : Row) (index sub : Nat) (b : List Byte) (hs : State.Safe s) : State.Safe (writeNow
    s r index sub b) := by
  unfold writeNow
  refine safe_ite (fun _ => ?_) (fun _ => ?_)
  · refine keeps_safe (newNonce_keeps ..) rfl ?_
    refine writeApply_safe (hs := ?_) ..
    assumption
  · refine writeApply_safe (hs := ?_) ..
    assumption

theorem applyPending_safe (s : State) (p : Pending) (hs : State.Safe s) : State.Safe (applyPending s p) := by
  unfold applyPending
  split
  · assumption
  · refine safe_ite (fun _ => ?_) (fun _ => ?_)
    · assumption
    · refine safe_ite (fun _ => ?_) (fun _ => ?_)
      · refine writeApply_safe (hs := ?_) ..
        assumption
      · refine keeps_safe (State.raise_keeps ..) rfl ?_
        refine keeps_safe (State.bump_keeps ..) rfl ?_
        assumption

theorem applyDue_safe (s : State) (hs : State.Safe s) : State.Safe (applyDue s) := by
  unfold applyDue
  refine safe_foldl (fun _ _ _ => ?_) ?_
  · refine applyPending_safe (hs := ?_) ..
    assumption
  · refine safe_mk (safe_parts ?_)
    assumption

theorem ticksAhead_safe (s : State) (n : Nat) (hs : State.Safe s) : State.Safe (ticksAhead s n) := by
  unfold ticksAhead
  refine safe_mk (safe_parts ?_)
  assumption

end Sys2Proof.Machine
end

