-- ==== Sys2Proof/Laws/SafeFol.lean ====
section
/-! SUPPORT. Safety is kept by the functions of Machine/Fol.lean that change memory or the twin. -/
namespace Sys2Proof.Machine

/-- A request of a session is safe where its own work is. -/
theorem folRequest_safe (s : State) (src : FolSrc) (fr : FolFrame) (op : Nat) (run : State → Session → State)
    (hw : ∀ u x, State.Safe u → (run u x).Safe) (hs : s.Safe) : (folRequest s src fr op run).Safe := by
  have a1 : ∀ {u x}, u.Safe → State.Safe (folDrop u x) := fun h => keeps_safe (folDrop_keeps ..) rfl h
  have a2 : ∀ {u x y z}, u.Safe → State.Safe (folUntagged u x y z) := fun h => keeps_safe (folUntagged_keeps ..) rfl h
  have a3 : ∀ {u x y}, u.Safe → State.Safe (folSend u x y) := fun h => keeps_safe (folSend_keeps ..) rfl h
  have a4 : ∀ {u x}, u.Safe → State.Safe (setSession u x) := fun h => keeps_safe (setSession_keeps ..) rfl h
  have a5 : ∀ {u x y z}, u.Safe → (State.bump u x y z).Safe := fun h => keeps_safe (State.bump_keeps ..) rfl h
  have a6 : ∀ {u x}, u.Safe → State.Safe (folCount u x).1 := fun h => keeps_safe (folCount_keeps ..) rfl h
  have a7 : ∀ {u x}, u.Safe → State.Safe (discard u x).1 := fun h => keeps_safe (discard_keeps ..) rfl h
  have a8 : ∀ {u x y z w}, u.Safe → State.Safe (folCode u x y z w) := fun h => keeps_safe (folCode_keeps ..) rfl h
  have a9 : ∀ {u x}, u.Safe → (run u x).Safe := fun h => hw _ _ h
  unfold folRequest
  repeat' first
    | with_reducible exact hs
    | with_reducible apply a1 | with_reducible apply a2 | with_reducible apply a3 | with_reducible apply a5
    | with_reducible apply a8 | with_reducible apply a9 | with_reducible apply a4 | with_reducible apply a6
    | with_reducible apply a7 | split | refine safe_fst (by assumption) ?_ | dsimp only

theorem acceptWrite_safe (s : State) (x : Session) (src : FolSrc) (f : FolFrame) (r : Row) (p : Pending) (hs :
    State.Safe s) : State.Safe (acceptWrite s x src f r p) := by
  unfold acceptWrite
  refine safe_ite (fun _ => ?_) (fun _ => ?_)
  · refine safe_ite (fun _ => ?_) (fun _ => ?_)
    · refine writeNow_safe (hs := ?_) ..
      assumption
    · refine safe_ite (fun _ => ?_) (fun _ => ?_)
      · refine writeApply_safe (hs := ?_) ..
        assumption
      · assumption
  · refine safe_ite (fun _ => ?_) (fun _ => ?_)
    · refine keeps_safe (forwardWrite_keeps ..) rfl ?_
      refine safe_ite (fun _ => ?_) (fun _ => ?_)
      · refine writeNow_safe (hs := ?_) ..
        assumption
      · refine safe_ite (fun _ => ?_) (fun _ => ?_)
        · refine writeApply_safe (hs := ?_) ..
          assumption
        · assumption
    · refine keeps_safe (folAnswer_keeps ..) rfl ?_
      refine safe_ite (fun _ => ?_) (fun _ => ?_)
      · refine safe_ite (fun _ => ?_) (fun _ => ?_)
        · refine writeNow_safe (hs := ?_) ..
          assumption
        · refine safe_ite (fun _ => ?_) (fun _ => ?_)
          · refine writeApply_safe (hs := ?_) ..
            assumption
          · assumption
      · refine safe_mk (safe_parts ?_)
        refine safe_ite (fun _ => ?_) (fun _ => ?_)
        · refine writeNow_safe (hs := ?_) ..
          assumption
        · refine safe_ite (fun _ => ?_) (fun _ => ?_)
          · refine writeApply_safe (hs := ?_) ..
            assumption
          · assumption

theorem judgeWrite_safe (s : State) (x : Session) (src : FolSrc) (f : FolFrame) (apply : Nat) (late : Bool) (b : List
    Byte) (hs : State.Safe s) : State.Safe (judgeWrite s x src f apply late b) := by
  unfold judgeWrite
  refine safe_ite (fun _ => ?_) (fun _ => ?_)
  · refine keeps_safe (folCode_keeps ..) rfl ?_
    assumption
  · split
    · refine keeps_safe (folCode_keeps ..) rfl ?_
      assumption
    · refine safe_ite (fun _ => ?_) (fun _ => ?_)
      · refine keeps_safe (folCode_keeps ..) rfl ?_
        assumption
      · refine safe_ite (fun _ => ?_) (fun _ => ?_)
        · refine keeps_safe (folCode_keeps ..) rfl ?_
          assumption
        · refine safe_ite (fun _ => ?_) (fun _ => ?_)
          · refine keeps_safe (folCode_keeps ..) rfl ?_
            refine keeps_safe (writeRefused_keeps ..) rfl ?_
            assumption
          · refine acceptWrite_safe (hs := ?_) ..
            assumption

theorem takeSegment_safe (s : State) (x : Session) (src : FolSrc) (f : FolFrame) (t : Transfer) (hs : State.Safe s) :
    State.Safe (takeSegment s x src f t) := by
  unfold takeSegment
  refine safe_ite (fun _ => ?_) (fun _ => ?_)
  · refine keeps_safe (folCode_keeps ..) rfl ?_
    refine keeps_safe (setSession_keeps ..) rfl ?_
    refine keeps_safe (dropTransfer_keeps ..) rfl ?_
    assumption
  · refine safe_ite (fun _ => ?_) (fun _ => ?_)
    · refine keeps_safe (folCode_keeps ..) rfl ?_
      refine keeps_safe (setSession_keeps ..) rfl ?_
      assumption
    · refine safe_ite (fun _ => ?_) (fun _ => ?_)
      · refine keeps_safe (unstage_keeps ..) rfl ?_
        refine judgeWrite_safe (hs := ?_) ..
        refine keeps_safe (setSession_keeps ..) rfl ?_
        assumption
      · refine judgeWrite_safe (hs := ?_) ..
        refine keeps_safe (setSession_keeps ..) rfl ?_
        assumption

theorem folWriteRun_safe (src : FolSrc) (f : FolFrame) (s : State) (x : Session) (hs : State.Safe s) : State.Safe
    (folWriteRun src f s x) := by
  unfold folWriteRun
  refine safe_ite (fun _ => ?_) (fun _ => ?_)
  · refine keeps_safe (folCode_keeps ..) rfl ?_
    assumption
  · refine safe_ite (fun _ => ?_) (fun _ => ?_)
    · refine judgeWrite_safe (hs := ?_) ..
      assumption
    · refine safe_ite (fun _ => ?_) (fun _ => ?_)
      · refine keeps_safe (folCode_keeps ..) rfl ?_
        assumption
      · refine takeSegment_safe (hs := ?_) ..
        refine keeps_safe (receiving_keeps ..) rfl ?_
        assumption

theorem folWriteSegRun_safe (src : FolSrc) (f : FolFrame) (s : State) (x : Session) (hs : State.Safe s) : State.Safe
    (folWriteSegRun src f s x) := by
  unfold folWriteSegRun
  split
  · refine takeSegment_safe (hs := ?_) ..
    assumption
  · refine keeps_safe (folCode_keeps ..) rfl ?_
    assumption

theorem forwardReceived_safe (s : State) (w : Forward) (hs : State.Safe s) : State.Safe (forwardReceived s w) := by
  unfold forwardReceived
  split
  · refine keeps_safe (State.sendPort_keeps ..) rfl ?_
    assumption
  · dsimp only
    refine safe_ite (fun _ => ?_) (fun _ => ?_)
    · refine keeps_safe (State.sendPort_keeps ..) rfl ?_
      refine keeps_safe (writeRefused_keeps ..) rfl ?_
      assumption
    · refine keeps_safe (State.sendPort_keeps ..) rfl ?_
      refine safe_ite (fun _ => ?_) (fun _ => ?_)
      · refine writeNow_safe (hs := ?_) ..
        assumption
      · refine safe_mk (safe_parts ?_)
        assumption

theorem unmirroredMark_safe (s : State) (p : Pending) (hs : State.Safe s) : State.Safe (unmirroredMark s p) := by
  unfold unmirroredMark
  refine safe_mk (safe_parts ?_)
  assumption

theorem verdictReceived_safe (s : State) (keyT code : Nat) (hs : State.Safe s) : State.Safe (verdictReceived s keyT
    code) := by
  unfold verdictReceived
  split
  · refine safe_ite (fun _ => ?_) (fun _ => ?_)
    · refine keeps_safe (lateAnswer_keeps ..) rfl ?_
      refine keeps_safe (settled_keeps ..) rfl ?_
      assumption
    · refine keeps_safe (lateAnswer_keeps ..) rfl ?_
      refine unmirroredMark_safe (hs := ?_) ..
      refine keeps_safe (State.bump_keeps ..) rfl ?_
      refine safe_mk (safe_parts ?_)
      assumption
  · assumption

theorem unmirrored_safe (s : State) (p : Pending) (hs : State.Safe s) : State.Safe (unmirrored s p) := by
  unfold unmirrored
  refine keeps_safe (lateAnswer_keeps ..) rfl ?_
  refine unmirroredMark_safe (hs := ?_) ..
  refine keeps_safe (State.raise_keeps ..) rfl ?_
  refine keeps_safe (State.bump_keeps ..) rfl ?_
  refine keeps_safe (settled_keeps ..) rfl ?_
  assumption

theorem verdictTimeout_safe (s : State) (keyT : Nat) (hs : State.Safe s) : State.Safe (verdictTimeout s keyT) := by
  unfold verdictTimeout
  split
  · refine safe_ite (fun _ => ?_) (fun _ => ?_)
    · refine unmirrored_safe (hs := ?_) ..
      refine keeps_safe (State.elapse_keeps ..) rfl ?_
      assumption
    · refine safe_ite (fun _ => ?_) (fun _ => ?_)
      · refine unmirrored_safe (hs := ?_) ..
        assumption
      · assumption
  · assumption

theorem verdictsOverdue_safe (s : State) (hs : State.Safe s) : State.Safe (verdictsOverdue s) := by
  unfold verdictsOverdue
  refine safe_foldl (fun _ _ _ => ?_) ?_
  · refine unmirrored_safe (hs := ?_) ..
    assumption
  · assumption

theorem execFolWrite_safe (at_ : Nat) (src : FolSrc) (frame : FolFrame) (s : State) (t : State) (h : execFolWrite at_
    src frame s = .next t) (hs : State.Safe s) : State.Safe t := by
  unfold execFolWrite at h
  refine safe_done h ?_
  refine folRequest_safe _ _ _ _ _ (fun _ _ => ?_) ?_
  · intro hm
    refine folWriteRun_safe (hs := ?_) ..
    assumption
  · refine keeps_safe (folFrameIn_keeps ..) rfl ?_
    refine keeps_safe (State.elapse_keeps ..) rfl ?_
    assumption

theorem execFolWriteSeg_safe (at_ : Nat) (src : FolSrc) (frame : FolFrame) (s : State) (t : State) (h : execFolWriteSeg
    at_ src frame s = .next t) (hs : State.Safe s) : State.Safe t := by
  unfold execFolWriteSeg at h
  refine safe_done h ?_
  refine folRequest_safe _ _ _ _ _ (fun _ _ => ?_) ?_
  · intro hm
    refine folWriteSegRun_safe (hs := ?_) ..
    assumption
  · refine keeps_safe (folFrameIn_keeps ..) rfl ?_
    refine keeps_safe (State.elapse_keeps ..) rfl ?_
    assumption

theorem execWriteForwardReceived_safe (at_ : Nat) (fwd : Forward) (s : State) (t : State) (h : execWriteForwardReceived
    at_ fwd s = .next t) (hs : State.Safe s) : State.Safe t := by
  unfold execWriteForwardReceived at h
  refine safe_done h ?_
  refine forwardReceived_safe (hs := ?_) ..
  refine keeps_safe (State.heard_keeps ..) rfl ?_
  refine keeps_safe (State.elapse_keeps ..) rfl ?_
  assumption

theorem execWriteVerdictReceived_safe (at_ keyT code : Nat) (s : State) (t : State) (h : execWriteVerdictReceived at_
    keyT code s = .next t) (hs : State.Safe s) : State.Safe t := by
  unfold execWriteVerdictReceived at h
  refine safe_done h ?_
  refine verdictReceived_safe (hs := ?_) ..
  refine keeps_safe (State.heard_keeps ..) rfl ?_
  refine keeps_safe (State.elapse_keeps ..) rfl ?_
  assumption

theorem execVerdictTimeout_safe (keyT : Nat) (s : State) (t : State) (h : execVerdictTimeout keyT s = .next t) (hs :
    State.Safe s) : State.Safe t := by
  unfold execVerdictTimeout at h
  refine safe_done h ?_
  refine verdictTimeout_safe (hs := ?_) ..
  assumption

theorem execWriteApply_safe (s : State) (t : State) (h : execWriteApply s = .next t) (hs : State.Safe s) : State.Safe t
    := by
  unfold execWriteApply at h
  refine safe_done h ?_
  refine applyDue_safe (hs := ?_) ..
  assumption

end Sys2Proof.Machine
end

