-- ==== Sys2Proof/Laws/SafeJoin.lean ====
section
/-! SUPPORT. Safety is kept by the functions of Machine/Join.lean that change memory or the twin. -/
namespace Sys2Proof.Machine

theorem joinCapture_safe (s : State) (hs : State.Safe s) : State.Safe (joinCapture s) := by
  have h1 : ∀ p b c, State.Safe { s with twin := { s.twin with partnerSync := p, imageB := b, cutB := c } } :=
    fun _ _ _ => ⟨hs.memory, hs.interlock, hs.joining, hs.legal⟩
  unfold joinCapture
  refine safe_ite (fun _ => h1 _ _ _) (fun _ => safe_ite (fun _ => ?_) (fun _ => h1 _ _ _))
  exact keeps_safe (State.sendPort_keeps ..) rfl (h1 _ _ _)

theorem storeSets_safe (s : State) (hs : State.Safe s) : State.Safe (storeSets s) := by
  unfold storeSets
  refine safe_foldl (fun t e h => ?_) hs
  exact storeCopy_safe _ _ _ _ (storeBank_safe _ _ _ _ _ (storeBank_safe _ _ _ _ _ h))

theorem installImage_safe (s : State) (m : JoinImage) (hr : s.twin.role = .standby) (hs : s.Safe) :
    (installImage s m).Safe := by
  unfold installImage
  refine safe_foldl (fun _ _ h => keeps_safe (joinPulse_keeps ..) rfl h) ?_
  refine safe_foldl (fun _ _ h => keeps_safe (corrStatus_keeps ..) rfl h) ?_
  refine storeSets_safe _ (keeps_safe (State.stset_keeps ..) rfl ?_)
  exact safe_mk ⟨hs.memory, hs.interlock, fun h => absurd hr h, Nat.le_of_ble_eq_true rfl⟩

theorem execJoinImageComplete_safe (image : JoinImage) (s : State) (t : State) (h : execJoinImageComplete image s = .next t)
    (hs : s.Safe) : t.Safe := by
  unfold execJoinImageComplete at h
  refine safe_done h (safe_ite (fun hc => ?_) (fun _ => hs))
  simp only [Bool.and_eq_true, decide_eq_true_eq] at hc
  exact keeps_safe (State.heard_keeps ..) rfl (installImage_safe _ _ hc.1.1 hs)

theorem fillEnd_safe (s : State) (caughtUp : Bool) (hs : s.Safe) : (fillEnd s caughtUp).Safe := by
  unfold fillEnd
  refine safe_ite (fun _ => safe_mk ⟨hs.memory, hs.interlock, fun hn => ?_, ?_⟩) (fun _ => hs)
  · exact (if_neg hn).trans (hs.joining hn)
  · dsimp only
    split
    · exact Nat.le_of_ble_eq_true rfl
    · exact hs.legal

theorem execJoinFillEnd_safe (caughtUp : Bool) (s : State) (t : State) (h : execJoinFillEnd caughtUp s = .next t) (hs :
    State.Safe s) : State.Safe t := by
  unfold execJoinFillEnd at h
  refine safe_done h ?_
  refine fillEnd_safe (hs := ?_) ..
  assumption

theorem fillTick_safe (s : State) (hs : State.Safe s) : State.Safe (fillTick s) := by
  unfold fillTick
  refine fillEnd_safe (hs := ?_) ..
  assumption

theorem cutBlock_safe (s : State) (hs : s.Safe) : (cutBlock s).Safe :=
  outputBus_safe _ (corrTurn_safe _ _ _ hs)

theorem cutReplay_safe (s : State) (hs : s.Safe) : (cutReplay s).Safe := by
  have hb : (cutBlock (cutBack s)).Safe := cutBlock_safe _ (safe_mk (safe_parts hs))
  unfold cutReplay
  dsimp only
  exact cutBlock_safe _ (safe_mk (safe_mem hs (fun _ => hb.memory)))

theorem restartSlots_safe (s : State) (hs : State.Safe s) : State.Safe (restartSlots s) := by
  unfold restartSlots
  refine safe_foldl (fun _ _ _ => ?_) ?_
  · dsimp only
    split
    · refine safe_ite (fun _ => ?_) (fun _ => ?_)
      · refine keeps_safe (slotItemAgain_keeps ..) rfl ?_
        refine keeps_safe (slotItemAgain_keeps ..) rfl ?_
        refine keeps_safe (emptyQueue_keeps ..) rfl ?_
        refine keeps_safe (setSlot_keeps ..) rfl ?_
        refine loadRod_safe (hs := ?_) ..
        assumption
      · assumption
    · assumption
  · assumption

theorem installCut_safe (s : State) (c : JoinCut) (hr : s.twin.role = .standby) (hs : s.Safe) : (installCut s c).Safe := by
  have h1 : (cutAes (cutFeeds s c) c).Safe := keeps_safe (cutAes_keeps ..) rfl (keeps_safe (cutFeeds_keeps ..) rfl hs)
  have hw : (cutAes (cutFeeds s c) c).twin = s.twin :=
    ((cutAes_keeps (cutFeeds s c) c).same .twin (by decide)).trans ((cutFeeds_keeps s c).same .twin (by decide))
  unfold installCut
  generalize cutAes (cutFeeds s c) c = v at h1 hw
  dsimp only
  refine restartSlots_safe _ ?_
  generalize hu : driftSlew _ = u
  have h2 : u.Safe := by
    subst hu
    exact keeps_safe (driftSlew_keeps ..) rfl (safe_foldl (fun _ _ h => keeps_safe (State.stset_keeps ..) rfl h)
      (safe_mk ⟨h1.memory, h1.interlock, fun h => absurd (hw ▸ hr) h, Nat.le_of_ble_eq_true rfl⟩))
  split
  · exact h2
  · exact cutReplay_safe _ h2

theorem execJoinCutInstall_safe (cut : JoinCut) (inTime : Bool) (s : State) (t : State) (h : execJoinCutInstall cut
    inTime s = .next t) (hs : State.Safe s) : State.Safe t := by
  unfold execJoinCutInstall at h
  refine safe_done h (safe_ite (fun hc => ?_) (fun _ => hs))
  simp only [Bool.and_eq_true, decide_eq_true_eq] at hc
  exact safe_ite (fun _ => keeps_safe (State.heard_keeps ..) rfl (installCut_safe _ _ hc.1 hs)) (fun _ => joinRestart_safe _ hc.1 hs)

theorem cutOverdue_safe (s : State) (hs : s.Safe) : (cutOverdue s).Safe := by
  unfold cutOverdue
  split
  · rename_i h
    simp only [Bool.and_eq_true, decide_eq_true_eq] at h
    exact joinRestart_safe s h.1.1 hs
  · exact hs

theorem verifyEnd_safe (s : State) (hs : s.Safe) : (verifyEnd s).Safe := by
  unfold verifyEnd
  split
  · rename_i h
    simp only [Bool.and_eq_true, decide_eq_true_eq] at h
    refine keeps_safe (State.raise_keeps ..) rfl ?_
    refine keeps_safe (State.stset_keeps ..) rfl ?_
    refine keeps_safe (State.bump_keeps ..) rfl ?_
    exact safe_mk ⟨hs.memory, hs.interlock, fun hn => absurd h.1.1 hn, Nat.le_of_ble_eq_true rfl⟩
  · exact hs

theorem execJoinVerifyEnd_safe (s : State) (t : State) (h : execJoinVerifyEnd s = .next t) (hs : State.Safe s) :
    State.Safe t := by
  unfold execJoinVerifyEnd at h
  refine safe_done h ?_
  refine verifyEnd_safe (hs := ?_) ..
  assumption

theorem joinTick_safe (s : State) (hs : State.Safe s) : State.Safe (joinTick s) := by
  unfold joinTick
  refine keeps_safe (joinCutSend_keeps ..) rfl ?_
  refine joinCapture_safe (hs := ?_) ..
  refine verifyEnd_safe (hs := ?_) ..
  refine cutOverdue_safe (hs := ?_) ..
  assumption

end Sys2Proof.Machine
end

