-- ==== Sys2Proof/Laws/SafePipeline.lean ====
section
/-! SUPPORT. Safety is kept by the functions of Machine/Pipeline.lean that change memory or the twin. -/
namespace Sys2Proof.Machine

theorem windowBlock_safe (s : State) (o x : Nat) (hs : State.Safe s) : State.Safe (windowBlock s o x).1 := by
  unfold windowBlock
  split
  dsimp only
  refine safe_fst (by assumption) ?_
  refine lineRead_safe (hs := ?_) ..
  assumption

theorem deepCopy_safe (s : State) (hs : State.Safe s) : State.Safe (deepCopy s) := by
  unfold deepCopy
  dsimp only
  refine safe_foldl (fun _ _ _ => ?_) ?_
  · refine safe_ite (fun _ => ?_) (fun _ => ?_)
    · refine dramBurst_safe (hs := ?_) ..
      refine lineRead_safe (hs := ?_) ..
      assumption
    · refine keeps_safe (burstEnd_keeps ..) rfl ?_
      refine safe_foldl (fun _ _ _ => ?_) ?_
      · refine safe_foldl (fun _ _ _ => ?_) ?_
        · refine keeps_safe (activate_keeps ..) rfl ?_
          assumption
        · assumption
      · refine wakeDram_safe (hs := ?_) ..
        assumption
  · assumption

theorem objectLine_safe (ins : SMap (List Int)) (missed : List Nat) (s : State) (o : Nat) (hs : State.Safe s) :
    State.Safe (objectLine ins missed s o) := by
  unfold objectLine
  dsimp only
  refine safe_mk (safe_parts ?_)
  refine ledgerWrite_safe (hs := ?_) ..
  split
  · refine windowBlock_safe (hs := ?_) ..
    assumption
  · dsimp only
    assumption

theorem groupInputs_safe (s : State) (ins : SMap (List Int)) (hs : State.Safe s) : State.Safe (groupInputs s ins) := by
  unfold groupInputs
  dsimp only
  refine safe_ite (fun _ => ?_) (fun _ => ?_)
  · refine safe_foldl (fun _ _ _ => ?_) ?_
    · refine safe_ite (fun _ => ?_) (fun _ => ?_)
      · assumption
      · refine groupWrite_safe (hs := ?_) ..
        assumption
    · assumption
  · refine groupWrite_safe (hs := ?_) ..
    refine safe_foldl (fun _ _ _ => ?_) ?_
    · refine safe_ite (fun _ => ?_) (fun _ => ?_)
      · assumption
      · refine groupWrite_safe (hs := ?_) ..
        assumption
    · assumption

theorem ingressCommit_safe (s : State) (missed : List Nat) (pdm : List (Nat × List Bool)) (hs : State.Safe s) :
    State.Safe (ingressCommit s missed pdm) := by
  unfold ingressCommit
  refine safe_ite (fun _ => ?_) (fun _ => ?_)
  · assumption
  · refine safe_ite (fun _ => ?_) (fun _ => ?_)
    · dsimp only
      refine safe_ite (fun _ => ?_) (fun _ => ?_)
      · refine keeps_safe (pdmIdle_keeps ..) rfl ?_
        assumption
      · refine safe_mk (safe_parts ?_)
        refine keeps_safe (pdmIdle_keeps ..) rfl ?_
        assumption
    · dsimp only
      refine keeps_safe (deadlinePurge_keeps ..) rfl ?_
      refine stageMiss_safe (hs := ?_) ..
      refine safe_mk (safe_parts ?_)
      refine groupInputs_safe (hs := ?_) ..
      refine safe_foldl (fun _ _ _ => ?_) ?_
      · refine objectLine_safe (hs := ?_) ..
        assumption
      · refine keeps_safe (pdmCommit_keeps ..) rfl ?_
        refine keeps_safe (aesCommit_keeps ..) rfl ?_
        refine keeps_safe (rxCommit_keeps ..) rfl ?_
        refine safe_ite (fun _ => ?_) (fun _ => ?_)
        · refine keeps_safe (portsRise_keeps ..) rfl ?_
          refine freshLines_safe (hs := ?_) ..
          refine safe_foldl (fun _ _ _ => ?_) ?_
          · refine shadowCutoff_safe (hs := ?_) ..
            assumption
          · assumption
        · refine safe_foldl (fun _ _ _ => ?_) ?_
          · refine shadowCutoff_safe (hs := ?_) ..
            assumption
          · assumption

theorem execIngressCommit_safe (missed : List Nat) (pdm : List (Nat × List Bool)) (s : State) (t : State) (h :
    execIngressCommit missed pdm s = .next t) (hs : State.Safe s) : State.Safe t := by
  unfold execIngressCommit at h
  refine safe_done h ?_
  refine safe_ite (fun _ => ?_) (fun _ => ?_)
  · refine ingressCommit_safe (hs := ?_) ..
    refine keeps_safe (State.elapse_keeps ..) rfl ?_
    assumption
  · assumption

theorem slotInput_safe (s : State) (code : Nat) (hs : State.Safe s) : State.Safe (slotInput s code).1 := by
  unfold slotInput
  dsimp only
  split
  · dsimp only
    refine lineRead_safe (hs := ?_) ..
    assumption
  · split
    · dsimp only
      assumption
    · split
      · dsimp only
        assumption
      · dsimp only
        assumption

theorem slotInputBytes_safe (s : State) (u : Nat) (hs : State.Safe s) : State.Safe (slotInputBytes s u).1 := by
  unfold slotInputBytes
  split
  dsimp only
  refine safe_fst (by assumption) ?_
  refine safe_foldl_fst (fun _ _ _ => ?_) ?_
  · split
    dsimp only
    refine safe_fst (by assumption) ?_
    refine slotInput_safe (hs := ?_) ..
    assumption
  · dsimp only
    assumption

theorem placeSlotItem_safe (s : State) (u : Nat) (hs : State.Safe s) : State.Safe (placeSlotItem s u) := by
  unfold placeSlotItem
  dsimp only
  refine safe_ite (fun _ => ?_) (fun _ => ?_)
  · refine safe_ite (fun _ => ?_) (fun _ => ?_)
    · refine keeps_safe (accept_keeps ..) rfl ?_
      refine ledgerWrite_safe (hs := ?_) ..
      refine slotInputBytes_safe (hs := ?_) ..
      refine keeps_safe (setSlot_keeps ..) rfl ?_
      assumption
    · refine ledgerWrite_safe (hs := ?_) ..
      refine slotInputBytes_safe (hs := ?_) ..
      refine keeps_safe (setSlot_keeps ..) rfl ?_
      assumption
  · refine keeps_safe (setSlot_keeps ..) rfl ?_
    assumption

theorem placeSlotItems_safe (s : State) (hs : State.Safe s) : State.Safe (placeSlotItems s) := by
  unfold placeSlotItems
  refine safe_foldl (fun _ _ _ => ?_) ?_
  · refine placeSlotItem_safe (hs := ?_) ..
    assumption
  · assumption

theorem busDeadline_safe (s : State) (incomplete users : List Nat) (hs : State.Safe s) : State.Safe (busDeadline s
    incomplete users) := by
  unfold busDeadline
  refine safe_ite (fun _ => ?_) (fun _ => ?_)
  · assumption
  · dsimp only
    refine keeps_safe (deadlinePurge_keeps ..) rfl ?_
    refine stageMiss_safe (hs := ?_) ..
    refine safe_foldl (fun _ _ _ => ?_) ?_
    · refine keeps_safe (State.bump_keeps ..) rfl ?_
      assumption
    · refine safe_mk (safe_parts ?_)
      assumption

theorem execOutputBusDeadline_safe (incomplete userSlots : List Nat) (s : State) (t : State) (h : execOutputBusDeadline
    incomplete userSlots s = .next t) (hs : State.Safe s) : State.Safe t := by
  unfold execOutputBusDeadline at h
  refine safe_done h ?_
  refine safe_ite (fun _ => ?_) (fun _ => ?_)
  · refine busDeadline_safe (hs := ?_) ..
    refine keeps_safe (State.elapse_keeps ..) rfl ?_
    assumption
  · assumption

theorem publish_safe (s : State) (hs : State.Safe s) : State.Safe (publish s) := by
  unfold publish
  dsimp only
  refine keeps_safe (openTick_keeps ..) rfl ?_
  refine keeps_safe (publishInputs_keeps ..) rfl ?_
  refine keeps_safe (publishBuffers_keeps ..) rfl ?_
  refine safe_ite (fun _ => ?_) (fun _ => ?_)
  · refine freshFeeds_safe (hs := ?_) ..
    refine keeps_safe (publishOutputs_keeps ..) rfl ?_
    assumption
  · refine keeps_safe (publishOutputs_keeps ..) rfl ?_
    assumption

end Sys2Proof.Machine
end

