-- ==== Sys2Proof/Laws/SafeBoundary.lean ====
section
/-! SUPPORT. Safety is kept by the functions of Machine/Boundary.lean that change memory or the twin. -/
namespace Sys2Proof.Machine

theorem endTick_safe (s : State) (hs : State.Safe s) : State.Safe (endTick s) := by
  unfold endTick
  dsimp only
  refine migrationCopy_safe (hs := ?_) ..
  refine keeps_safe (idleDram_keeps ..) rfl ?_
  refine keeps_safe (driveTickEnd_keeps ..) rfl ?_
  refine egress_safe (hs := ?_) ..
  refine fillTick_safe (hs := ?_) ..
  refine ingressCommit_safe (hs := ?_) ..
  refine busDeadline_safe (hs := ?_) ..
  refine dmDeadline_safe (hs := ?_) ..
  refine safe_ite (fun _ => ?_) (fun _ => ?_)
  · refine keeps_safe (publishPlacement_keeps ..) rfl ?_
    refine verdictsOverdue_safe (hs := ?_) ..
    refine safe_foldl (fun _ _ _ => ?_) ?_
    · refine shadowCutoff_safe (hs := ?_) ..
      assumption
    · assumption
  · refine verdictsOverdue_safe (hs := ?_) ..
    refine safe_foldl (fun _ _ _ => ?_) ?_
    · refine shadowCutoff_safe (hs := ?_) ..
      assumption
    · assumption

theorem advanceTick_safe (s : State) (hs : State.Safe s) : State.Safe (advanceTick s) := by
  have key : ∀ (u : State) (c : Clock) (h : List (SMap Nat)) (d : List (SMap (List Byte))), u.Safe →
      ({ u with clk := c, hist := h, domHist := d, twin := { u.twin with release := false, behind := false } } : State).Safe :=
    fun u c h d hu => ⟨hu.memory, hu.interlock, hu.joining, hu.legal⟩
  have h := keeps_safe (State.advance_keeps s (tickLen s.clk.tick - s.clk.ofs)) rfl hs
  unfold advanceTick
  generalize s.advance (tickLen s.clk.tick - s.clk.ofs) = s1 at h ⊢
  exact key _ _ _ _ h

theorem observe_safe (s : State) (o : BoundaryObs) (hs : State.Safe s) : State.Safe (observe s o) := by
  unfold observe
  dsimp only
  refine actInSeen_safe (hs := ?_) ..
  refine safe_foldl (fun _ _ _ => ?_) ?_
  · refine keeps_safe (fecSeen_keeps ..) rfl ?_
    assumption
  · refine safe_mk (safe_parts ?_)
    assumption

theorem updateRotation_safe (s : State) (hs : State.Safe s) : State.Safe (updateRotation s) := by
  have h1 : (loadSpare s).Safe := keeps_safe (loadSpare_keeps ..) rfl hs
  unfold updateRotation
  refine safe_ite (fun _ => hs) (fun _ => safe_ite (fun _ => hs) (fun _ => ?_))
  dsimp only
  split
  · exact safe_ite (fun _ => rotationSwitch_safe _ (safe_mk (safe_parts h1))) (fun _ => h1)
  · exact h1
  · split <;> exact safe_mk (safe_parts h1)

theorem roleTick_safe (s : State) (hs : State.Safe s) : State.Safe (roleTick s) := by
  unfold roleTick
  refine safe_ite (fun _ => ?_) (fun _ => ?_)
  · refine setRole_safe (hs := ?_) ..
    assumption
  · assumption

theorem driveBoundary_safe (s : State) (hs : State.Safe s) : State.Safe (driveBoundary s) := by
  unfold driveBoundary
  refine driveTick_safe (hs := ?_) ..
  refine safe_ite (fun _ => ?_) (fun _ => ?_)
  · refine keeps_safe (drivesRest_keeps ..) rfl ?_
    assumption
  · assumption

theorem serviceTick_safe (s : State) (hs : State.Safe s) : State.Safe (serviceTick s) := by
  unfold serviceTick
  dsimp only
  refine targetedTick_safe (hs := ?_) ..
  refine selfTestTick_safe (hs := ?_) ..
  refine keeps_safe (restartRods_keeps ..) rfl ?_
  refine keeps_safe (loadIdleFrames_keeps ..) rfl ?_
  refine updateRotation_safe (hs := ?_) ..
  refine keeps_safe (liveSwitchTick_keeps ..) rfl ?_
  refine rotationSwitch_safe (hs := ?_) ..
  refine keeps_safe (spareTestStart_keeps ..) rfl ?_
  refine keeps_safe (migrationStart_keeps ..) rfl ?_
  refine keeps_safe (migrationSwitch_keeps ..) rfl ?_
  refine keeps_safe (releaseItems_keeps ..) rfl ?_
  refine keeps_safe (judgeCompute_keeps ..) rfl ?_
  refine keeps_safe (driftTick_keeps ..) rfl ?_
  assumption

theorem twinBoundary_safe (s : State) (service : Bool) (hs : State.Safe s) : State.Safe (twinBoundary s service) := by
  unfold twinBoundary
  refine heartbeatSend_safe (hs := ?_) ..
  refine roleTick_safe (hs := ?_) ..
  refine twinTick_safe (hs := ?_) ..
  refine keeps_safe (bypassTick_keeps ..) rfl ?_
  assumption

theorem placementTick_safe (s : State) (hs : State.Safe s) : State.Safe (placementTick s) := by
  unfold placementTick
  refine safe_ite (fun _ => ?_) (fun _ => ?_)
  · refine keeps_safe (placeBlock_keeps ..) rfl ?_
    refine safe_ite (fun _ => ?_) (fun _ => ?_)
    · refine keeps_safe (freshObjects_keeps ..) rfl ?_
      refine safe_mk (safe_parts ?_)
      refine keeps_safe (driftSlew_keeps ..) rfl ?_
      refine keeps_safe (drainArrivals_keeps ..) rfl ?_
      refine safe_ite (fun _ => ?_) (fun _ => ?_)
      · refine deepCopy_safe (hs := ?_) ..
        assumption
      · assumption
    · refine safe_mk (safe_parts ?_)
      refine keeps_safe (driftSlew_keeps ..) rfl ?_
      refine keeps_safe (drainArrivals_keeps ..) rfl ?_
      refine safe_ite (fun _ => ?_) (fun _ => ?_)
      · refine deepCopy_safe (hs := ?_) ..
        assumption
      · assumption
  · refine keeps_safe (drainArrivals_keeps ..) rfl ?_
    refine safe_ite (fun _ => ?_) (fun _ => ?_)
    · refine deepCopy_safe (hs := ?_) ..
      assumption
    · assumption

theorem busTick_safe (s : State) (hs : State.Safe s) : State.Safe (busTick s) := by
  unfold busTick
  dsimp only
  refine placeSlotItems_safe (hs := ?_) ..
  refine safe_ite (fun _ => ?_) (fun _ => ?_)
  · refine outputBus_safe (hs := ?_) ..
    refine corrTurn_safe (hs := ?_) ..
    refine rewriteBanks_safe (hs := ?_) ..
    refine joinTick_safe (hs := ?_) ..
    assumption
  · refine corrTurn_safe (hs := ?_) ..
    refine rewriteBanks_safe (hs := ?_) ..
    refine joinTick_safe (hs := ?_) ..
    assumption

theorem inputTick_safe (s : State) (hs : State.Safe s) : State.Safe (inputTick s) := by
  unfold inputTick
  refine keeps_safe (pdmSweep_keeps ..) rfl ?_
  refine keeps_safe (aesSweep_keeps ..) rfl ?_
  refine keeps_safe (rxSweep_keeps ..) rfl ?_
  refine safe_foldl (fun _ _ _ => ?_) ?_
  · refine aesApply_safe (hs := ?_) ..
    assumption
  · assumption

theorem tickBoundary_safe (s : State) (o : BoundaryObs) (hs : State.Safe s) : State.Safe (tickBoundary s o) := by
  unfold tickBoundary
  dsimp only
  refine keeps_safe (statusOf_keeps ..) rfl ?_
  refine keeps_safe (dropRunTick_keeps ..) rfl ?_
  refine keeps_safe (gpioTick_keeps ..) rfl ?_
  refine inputTick_safe (hs := ?_) ..
  refine busTick_safe (hs := ?_) ..
  refine placementTick_safe (hs := ?_) ..
  refine serviceTick_safe (hs := ?_) ..
  refine keeps_safe (announceTick_keeps ..) rfl ?_
  refine twinBoundary_safe (hs := ?_) ..
  refine driveBoundary_safe (hs := ?_) ..
  refine safe_mk (safe_parts ?_)
  refine keeps_safe (managementTick_keeps ..) rfl ?_
  refine applyDue_safe (hs := ?_) ..
  refine observe_safe (hs := ?_) ..
  refine publish_safe (hs := ?_) ..
  refine keeps_safe (takeTodo_keeps ..) rfl ?_
  refine keeps_safe (eventsBoundary_keeps ..) rfl ?_
  refine keeps_safe (rebaseApply_keeps ..) rfl ?_
  refine rebaseFallback_safe (hs := ?_) ..
  refine keeps_safe (showCaptures_keeps ..) rfl ?_
  refine advanceTick_safe (hs := ?_) ..
  refine endTick_safe (hs := ?_) ..
  refine safe_mk (safe_parts ?_)
  assumption

theorem execTickBoundary_safe (obs : BoundaryObs) (s : State) (t : State) (h : execTickBoundary obs s = .next t) (hs : s.Safe) :
    t.Safe := by
  unfold execTickBoundary at h
  split at h
  · exact safe_done h hs
  · split at h
    · cases h
    · exact safe_done h (supplySeen_safe _ (tickBoundary_safe _ _ hs))

end Sys2Proof.Machine
end

