-- ==== Sys2Proof/Laws/SafeRodVector.lean ====
section
/-! SUPPORT. Safety is kept by the functions of Machine/RodVector.lean that change memory or the twin. -/
namespace Sys2Proof.Machine

theorem parRun_safe (s : State) (r : Nat) (w : ParWord) (lds : List Nat) (hs : State.Safe s) : State.Safe (parRun s r w
    lds) := by
  unfold parRun
  refine keeps_safe (finish_keeps ..) rfl ?_
  split
  · refine safe_foldl (fun _ _ _ => ?_) ?_
    · refine dmStore_safe (hs := ?_) ..
      assumption
    · refine keeps_safe (rodNote_keeps ..) rfl ?_
      assumption
  · refine keeps_safe (rodNote_keeps ..) rfl ?_
    assumption

theorem parallel_safe (s : State) (r : Nat) (w : ParWord) (hs : State.Safe s) : State.Safe (parallel s r w) := by
  unfold parallel
  refine runWord_safe _ _ _ (fun _ _ => ?_) ?_
  · refine safe_ite (fun _ => ?_) (fun _ => ?_)
    · refine rodFault_safe (hs := ?_) ..
      assumption
    · refine safe_ite (fun _ => ?_) (fun _ => ?_)
      · refine rodFault_safe (hs := ?_) ..
        assumption
      · refine safe_ite (fun _ => ?_) (fun _ => ?_)
        · refine rodFault_safe (hs := ?_) ..
          assumption
        · refine safe_ite (fun _ => ?_) (fun _ => ?_)
          · refine keeps_safe (stallWord_keeps ..) rfl ?_
            assumption
          · refine safe_ite (fun _ => ?_) (fun _ => ?_)
            · refine rodFault_safe (hs := ?_) ..
              refine keeps_safe (State.setRod_keeps ..) rfl ?_
              assumption
            · refine parRun_safe (hs := ?_) ..
              assumption
  · assumption

theorem execNop_safe (rod : Nat) (sl : Slots) (s : State) (t : State) (h : execNop rod sl s = .next t) (hs : State.Safe
    s) : State.Safe t := by
  unfold execNop at h
  refine safe_done h ?_
  refine parallel_safe (hs := ?_) ..
  assumption

theorem execVmov_safe (rod vd va : Nat) (sl : Slots) (s : State) (t : State) (h : execVmov rod vd va sl s = .next t) (hs
    : State.Safe s) : State.Safe t := by
  unfold execVmov at h
  refine safe_done h ?_
  refine parallel_safe (hs := ?_) ..
  assumption

theorem execVadd_safe (rod vd va vb : Nat) (sl : Slots) (s : State) (t : State) (h : execVadd rod vd va vb sl s = .next
    t) (hs : State.Safe s) : State.Safe t := by
  unfold execVadd at h
  refine safe_done h ?_
  refine parallel_safe (hs := ?_) ..
  assumption

theorem execVsub_safe (rod vd va vb : Nat) (sl : Slots) (s : State) (t : State) (h : execVsub rod vd va vb sl s = .next
    t) (hs : State.Safe s) : State.Safe t := by
  unfold execVsub at h
  refine safe_done h ?_
  refine parallel_safe (hs := ?_) ..
  assumption

theorem execVaddw_safe (rod vd va vb : Nat) (sl : Slots) (s : State) (t : State) (h : execVaddw rod vd va vb sl s =
    .next t) (hs : State.Safe s) : State.Safe t := by
  unfold execVaddw at h
  refine safe_done h ?_
  refine parallel_safe (hs := ?_) ..
  assumption

theorem execVsubw_safe (rod vd va vb : Nat) (sl : Slots) (s : State) (t : State) (h : execVsubw rod vd va vb sl s =
    .next t) (hs : State.Safe s) : State.Safe t := by
  unfold execVsubw at h
  refine safe_done h ?_
  refine parallel_safe (hs := ?_) ..
  assumption

theorem execVmul_safe (rod vd va vb : Nat) (sl : Slots) (s : State) (t : State) (h : execVmul rod vd va vb sl s = .next
    t) (hs : State.Safe s) : State.Safe t := by
  unfold execVmul at h
  refine safe_done h ?_
  refine parallel_safe (hs := ?_) ..
  assumption

theorem execVabs_safe (rod vd va : Nat) (sl : Slots) (s : State) (t : State) (h : execVabs rod vd va sl s = .next t) (hs
    : State.Safe s) : State.Safe t := by
  unfold execVabs at h
  refine safe_done h ?_
  refine parallel_safe (hs := ?_) ..
  assumption

theorem execVneg_safe (rod vd va : Nat) (sl : Slots) (s : State) (t : State) (h : execVneg rod vd va sl s = .next t) (hs
    : State.Safe s) : State.Safe t := by
  unfold execVneg at h
  refine safe_done h ?_
  refine parallel_safe (hs := ?_) ..
  assumption

theorem execVmin_safe (rod vd va vb : Nat) (sl : Slots) (s : State) (t : State) (h : execVmin rod vd va vb sl s = .next
    t) (hs : State.Safe s) : State.Safe t := by
  unfold execVmin at h
  refine safe_done h ?_
  refine parallel_safe (hs := ?_) ..
  assumption

theorem execVmax_safe (rod vd va vb : Nat) (sl : Slots) (s : State) (t : State) (h : execVmax rod vd va vb sl s = .next
    t) (hs : State.Safe s) : State.Safe t := by
  unfold execVmax at h
  refine safe_done h ?_
  refine parallel_safe (hs := ?_) ..
  assumption

theorem execVand_safe (rod vd va vb : Nat) (sl : Slots) (s : State) (t : State) (h : execVand rod vd va vb sl s = .next
    t) (hs : State.Safe s) : State.Safe t := by
  unfold execVand at h
  refine safe_done h ?_
  refine parallel_safe (hs := ?_) ..
  assumption

theorem execVor_safe (rod vd va vb : Nat) (sl : Slots) (s : State) (t : State) (h : execVor rod vd va vb sl s = .next t)
    (hs : State.Safe s) : State.Safe t := by
  unfold execVor at h
  refine safe_done h ?_
  refine parallel_safe (hs := ?_) ..
  assumption

theorem execVxor_safe (rod vd va vb : Nat) (sl : Slots) (s : State) (t : State) (h : execVxor rod vd va vb sl s = .next
    t) (hs : State.Safe s) : State.Safe t := by
  unfold execVxor at h
  refine safe_done h ?_
  refine parallel_safe (hs := ?_) ..
  assumption

theorem execVnot_safe (rod vd va : Nat) (sl : Slots) (s : State) (t : State) (h : execVnot rod vd va sl s = .next t) (hs
    : State.Safe s) : State.Safe t := by
  unfold execVnot at h
  refine safe_done h ?_
  refine parallel_safe (hs := ?_) ..
  assumption

theorem execVcmpgt_safe (rod vd va vb : Nat) (sl : Slots) (s : State) (t : State) (h : execVcmpgt rod vd va vb sl s =
    .next t) (hs : State.Safe s) : State.Safe t := by
  unfold execVcmpgt at h
  refine safe_done h ?_
  refine parallel_safe (hs := ?_) ..
  assumption

theorem execVcmpeq_safe (rod vd va vb : Nat) (sl : Slots) (s : State) (t : State) (h : execVcmpeq rod vd va vb sl s =
    .next t) (hs : State.Safe s) : State.Safe t := by
  unfold execVcmpeq at h
  refine safe_done h ?_
  refine parallel_safe (hs := ?_) ..
  assumption

theorem execVshl_safe (rod vd va n : Nat) (sl : Slots) (s : State) (t : State) (h : execVshl rod vd va n sl s = .next t)
    (hs : State.Safe s) : State.Safe t := by
  unfold execVshl at h
  refine safe_done h ?_
  refine parallel_safe (hs := ?_) ..
  assumption

theorem execVshr_safe (rod vd va n : Nat) (sl : Slots) (s : State) (t : State) (h : execVshr rod vd va n sl s = .next t)
    (hs : State.Safe s) : State.Safe t := by
  unfold execVshr at h
  refine safe_done h ?_
  refine parallel_safe (hs := ?_) ..
  assumption

theorem execVshrl_safe (rod vd va n : Nat) (sl : Slots) (s : State) (t : State) (h : execVshrl rod vd va n sl s = .next
    t) (hs : State.Safe s) : State.Safe t := by
  unfold execVshrl at h
  refine safe_done h ?_
  refine parallel_safe (hs := ?_) ..
  assumption

theorem execVperm_safe (rod vd va vb : Nat) (sl : Slots) (s : State) (t : State) (h : execVperm rod vd va vb sl s =
    .next t) (hs : State.Safe s) : State.Safe t := by
  unfold execVperm at h
  refine safe_done h ?_
  refine parallel_safe (hs := ?_) ..
  assumption

theorem execVbcst_safe (rod vd va n : Nat) (sl : Slots) (s : State) (t : State) (h : execVbcst rod vd va n sl s = .next
    t) (hs : State.Safe s) : State.Safe t := by
  unfold execVbcst at h
  refine safe_done h ?_
  refine parallel_safe (hs := ?_) ..
  assumption

theorem execVmpy_safe (rod ac va vb : Nat) (sl : Slots) (s : State) (t : State) (h : execVmpy rod ac va vb sl s = .next
    t) (hs : State.Safe s) : State.Safe t := by
  unfold execVmpy at h
  refine safe_done h ?_
  refine parallel_safe (hs := ?_) ..
  assumption

theorem execVmac_safe (rod ac va vb : Nat) (sl : Slots) (s : State) (t : State) (h : execVmac rod ac va vb sl s = .next
    t) (hs : State.Safe s) : State.Safe t := by
  unfold execVmac at h
  refine safe_done h ?_
  refine parallel_safe (hs := ?_) ..
  assumption

theorem execVmsu_safe (rod ac va vb : Nat) (sl : Slots) (s : State) (t : State) (h : execVmsu rod ac va vb sl s = .next
    t) (hs : State.Safe s) : State.Safe t := by
  unfold execVmsu at h
  refine safe_done h ?_
  refine parallel_safe (hs := ?_) ..
  assumption

theorem execVclr_safe (rod ac : Nat) (sl : Slots) (s : State) (t : State) (h : execVclr rod ac sl s = .next t) (hs :
    State.Safe s) : State.Safe t := by
  unfold execVclr at h
  refine safe_done h ?_
  refine parallel_safe (hs := ?_) ..
  assumption

theorem execVlift_safe (rod ac va : Nat) (sl : Slots) (s : State) (t : State) (h : execVlift rod ac va sl s = .next t)
    (hs : State.Safe s) : State.Safe t := by
  unfold execVlift at h
  refine safe_done h ?_
  refine parallel_safe (hs := ?_) ..
  assumption

theorem execVaadd_safe (rod ac acs : Nat) (sl : Slots) (s : State) (t : State) (h : execVaadd rod ac acs sl s = .next t)
    (hs : State.Safe s) : State.Safe t := by
  unfold execVaadd at h
  refine safe_done h ?_
  refine parallel_safe (hs := ?_) ..
  assumption

theorem execVasub_safe (rod ac acs : Nat) (sl : Slots) (s : State) (t : State) (h : execVasub rod ac acs sl s = .next t)
    (hs : State.Safe s) : State.Safe t := by
  unfold execVasub at h
  refine safe_done h ?_
  refine parallel_safe (hs := ?_) ..
  assumption

theorem execVtrw_safe (rod ac : Nat) (sl : Slots) (s : State) (t : State) (h : execVtrw rod ac sl s = .next t) (hs :
    State.Safe s) : State.Safe t := by
  unfold execVtrw at h
  refine safe_done h ?_
  refine parallel_safe (hs := ?_) ..
  assumption

theorem execVred_safe (rod ac : Nat) (sl : Slots) (s : State) (t : State) (h : execVred rod ac sl s = .next t) (hs :
    State.Safe s) : State.Safe t := by
  unfold execVred at h
  refine safe_done h ?_
  refine parallel_safe (hs := ?_) ..
  assumption

theorem execVaex_safe (rod acs : Nat) (sl : Slots) (s : State) (t : State) (h : execVaex rod acs sl s = .next t) (hs :
    State.Safe s) : State.Safe t := by
  unfold execVaex at h
  refine safe_done h ?_
  refine parallel_safe (hs := ?_) ..
  assumption

theorem execVrd_safe (rod vd acs n : Nat) (sl : Slots) (s : State) (t : State) (h : execVrd rod vd acs n sl s = .next t)
    (hs : State.Safe s) : State.Safe t := by
  unfold execVrd at h
  refine safe_done h ?_
  refine parallel_safe (hs := ?_) ..
  assumption

theorem execVrdl_safe (rod vd acs : Nat) (sl : Slots) (s : State) (t : State) (h : execVrdl rod vd acs sl s = .next t)
    (hs : State.Safe s) : State.Safe t := by
  unfold execVrdl at h
  refine safe_done h ?_
  refine parallel_safe (hs := ?_) ..
  assumption

theorem execVrdm_safe (rod vd acs : Nat) (sl : Slots) (s : State) (t : State) (h : execVrdm rod vd acs sl s = .next t)
    (hs : State.Safe s) : State.Safe t := by
  unfold execVrdm at h
  refine safe_done h ?_
  refine parallel_safe (hs := ?_) ..
  assumption

theorem execVrdh_safe (rod vd acs : Nat) (sl : Slots) (s : State) (t : State) (h : execVrdh rod vd acs sl s = .next t)
    (hs : State.Safe s) : State.Safe t := by
  unfold execVrdh at h
  refine safe_done h ?_
  refine parallel_safe (hs := ?_) ..
  assumption

theorem execVwra_safe (rod ac va vb : Nat) (sl : Slots) (s : State) (t : State) (h : execVwra rod ac va vb sl s = .next
    t) (hs : State.Safe s) : State.Safe t := by
  unfold execVwra at h
  refine safe_done h ?_
  refine parallel_safe (hs := ?_) ..
  assumption

theorem execVwrh_safe (rod ac va : Nat) (sl : Slots) (s : State) (t : State) (h : execVwrh rod ac va sl s = .next t) (hs
    : State.Safe s) : State.Safe t := by
  unfold execVwrh at h
  refine safe_done h ?_
  refine parallel_safe (hs := ?_) ..
  assumption

theorem execVrdx_safe (rod vd acs : Nat) (sl : Slots) (s : State) (t : State) (h : execVrdx rod vd acs sl s = .next t)
    (hs : State.Safe s) : State.Safe t := by
  unfold execVrdx at h
  refine safe_done h ?_
  refine parallel_safe (hs := ?_) ..
  assumption

theorem execSmax_safe (rod va : Nat) (sl : Slots) (s : State) (t : State) (h : execSmax rod va sl s = .next t) (hs :
    State.Safe s) : State.Safe t := by
  unfold execSmax at h
  refine safe_done h ?_
  refine parallel_safe (hs := ?_) ..
  assumption

theorem execSmin_safe (rod va : Nat) (sl : Slots) (s : State) (t : State) (h : execSmin rod va sl s = .next t) (hs :
    State.Safe s) : State.Safe t := by
  unfold execSmin at h
  refine safe_done h ?_
  refine parallel_safe (hs := ?_) ..
  assumption

theorem execSmaxa_safe (rod va : Nat) (sl : Slots) (s : State) (t : State) (h : execSmaxa rod va sl s = .next t) (hs :
    State.Safe s) : State.Safe t := by
  unfold execSmaxa at h
  refine safe_done h ?_
  refine parallel_safe (hs := ?_) ..
  assumption

theorem execLdv_safe (rod v an : Nat) (vop : VOp) (st : Option StSlot) (u1 u2 : Option UpdSlot) (s : State) (t : State)
    (h : execLdv rod v an vop st u1 u2 s = .next t) (hs : State.Safe s) : State.Safe t := by
  unfold execLdv at h
  refine safe_done h ?_
  refine parallel_safe (hs := ?_) ..
  assumption

theorem execLdb_safe (rod v an : Nat) (vop : VOp) (st : Option StSlot) (u1 u2 : Option UpdSlot) (s : State) (t : State)
    (h : execLdb rod v an vop st u1 u2 s = .next t) (hs : State.Safe s) : State.Safe t := by
  unfold execLdb at h
  refine safe_done h ?_
  refine parallel_safe (hs := ?_) ..
  assumption

theorem execLds_safe (rod v an : Nat) (vop : VOp) (st : Option StSlot) (u1 u2 : Option UpdSlot) (s : State) (t : State)
    (h : execLds rod v an vop st u1 u2 s = .next t) (hs : State.Safe s) : State.Safe t := by
  unfold execLds at h
  refine safe_done h ?_
  refine parallel_safe (hs := ?_) ..
  assumption

theorem execStv_safe (rod v an : Nat) (vop : VOp) (ld : Option LdSlot) (u1 u2 : Option UpdSlot) (s : State) (t : State)
    (h : execStv rod v an vop ld u1 u2 s = .next t) (hs : State.Safe s) : State.Safe t := by
  unfold execStv at h
  refine safe_done h ?_
  refine parallel_safe (hs := ?_) ..
  assumption

theorem execStl_safe (rod v an : Nat) (vop : VOp) (ld : Option LdSlot) (u1 u2 : Option UpdSlot) (s : State) (t : State)
    (h : execStl rod v an vop ld u1 u2 s = .next t) (hs : State.Safe s) : State.Safe t := by
  unfold execStl at h
  refine safe_done h ?_
  refine parallel_safe (hs := ?_) ..
  assumption

theorem execStd_safe (rod v an : Nat) (vop : VOp) (ld : Option LdSlot) (u1 u2 : Option UpdSlot) (s : State) (t : State)
    (h : execStd rod v an vop ld u1 u2 s = .next t) (hs : State.Safe s) : State.Safe t := by
  unfold execStd at h
  refine safe_done h ?_
  refine parallel_safe (hs := ?_) ..
  assumption

theorem execUpdateLinear_safe (rod an step : Nat) (vop : VOp) (ld : Option LdSlot) (st : Option StSlot) (u2 : Option
    UpdSlot) (s : State) (t : State) (h : execUpdateLinear rod an step vop ld st u2 s = .next t) (hs : State.Safe s) :
    State.Safe t := by
  unfold execUpdateLinear at h
  refine safe_done h ?_
  refine parallel_safe (hs := ?_) ..
  assumption

theorem execUpdateCircular_safe (rod an step : Nat) (vop : VOp) (ld : Option LdSlot) (st : Option StSlot) (u2 : Option
    UpdSlot) (s : State) (t : State) (h : execUpdateCircular rod an step vop ld st u2 s = .next t) (hs : State.Safe s) :
    State.Safe t := by
  unfold execUpdateCircular at h
  refine safe_done h ?_
  refine parallel_safe (hs := ?_) ..
  assumption

theorem execUpdateBitReversed_safe (rod an step : Nat) (vop : VOp) (ld : Option LdSlot) (st : Option StSlot) (u2 :
    Option UpdSlot) (s : State) (t : State) (h : execUpdateBitReversed rod an step vop ld st u2 s = .next t) (hs :
    State.Safe s) : State.Safe t := by
  unfold execUpdateBitReversed at h
  refine safe_done h ?_
  refine parallel_safe (hs := ?_) ..
  assumption

end Sys2Proof.Machine
end

