-- ==== Sys2Proof/Laws/State.lean ====
section
/-! SUPPORT. What each update of one piece of State leaves: one lemma for each field. -/
namespace Sys2Proof.Machine

variable (s : State)

/-! The update of a numeric entry -/

@[simp] theorem State.put_power (d i sub v : Nat) : (s.put d i sub v).power = s.power := rfl
@[simp] theorem State.put_clk (d i sub v : Nat) : (s.put d i sub v).clk = s.clk := rfl
@[simp] theorem State.put_time (d i sub v : Nat) : (s.put d i sub v).time = s.time := rfl
@[simp] theorem State.put_sup (d i sub v : Nat) : (s.put d i sub v).sup = s.sup := rfl
@[simp] theorem State.put_nv (d i sub v : Nat) : (s.put d i sub v).nv = s.nv := rfl
@[simp] theorem State.put_keys (d i sub v : Nat) : (s.put d i sub v).keys = s.keys := rfl
@[simp] theorem State.put_upd (d i sub v : Nat) : (s.put d i sub v).upd = s.upd := rfl
@[simp] theorem State.put_dom (d i sub v : Nat) : (s.put d i sub v).dom = s.dom := rfl
@[simp] theorem State.put_hist (d i sub v : Nat) : (s.put d i sub v).hist = s.hist := rfl
@[simp] theorem State.put_domHist (d i sub v : Nat) : (s.put d i sub v).domHist = s.domHist := rfl
@[simp] theorem State.put_stat (d i sub v : Nat) : (s.put d i sub v).stat = s.stat := rfl
@[simp] theorem State.put_statB (d i sub v : Nat) : (s.put d i sub v).statB = s.statB := rfl
@[simp] theorem State.put_pend (d i sub v : Nat) : (s.put d i sub v).pend = s.pend := rfl
@[simp] theorem State.put_todo (d i sub v : Nat) : (s.put d i sub v).todo = s.todo := rfl
@[simp] theorem State.put_pipe (d i sub v : Nat) : (s.put d i sub v).pipe = s.pipe := rfl
@[simp] theorem State.put_drift (d i sub v : Nat) : (s.put d i sub v).drift = s.drift := rfl
@[simp] theorem State.put_ports (d i sub v : Nat) : (s.put d i sub v).ports = s.ports := rfl
@[simp] theorem State.put_seen (d i sub v : Nat) : (s.put d i sub v).seen = s.seen := rfl
@[simp] theorem State.put_byp (d i sub v : Nat) : (s.put d i sub v).byp = s.byp := rfl
@[simp] theorem State.put_rx (d i sub v : Nat) : (s.put d i sub v).rx = s.rx := rfl
@[simp] theorem State.put_tx (d i sub v : Nat) : (s.put d i sub v).tx = s.tx := rfl
@[simp] theorem State.put_aesIn (d i sub v : Nat) : (s.put d i sub v).aesIn = s.aesIn := rfl
@[simp] theorem State.put_aesOut (d i sub v : Nat) : (s.put d i sub v).aesOut = s.aesOut := rfl
@[simp] theorem State.put_pdm (d i sub v : Nat) : (s.put d i sub v).pdm = s.pdm := rfl
@[simp] theorem State.put_drives (d i sub v : Nat) : (s.put d i sub v).drives = s.drives := rfl
@[simp] theorem State.put_rails (d i sub v : Nat) : (s.put d i sub v).rails = s.rails := rfl
@[simp] theorem State.put_carrier (d i sub v : Nat) : (s.put d i sub v).carrier = s.carrier := rfl
@[simp] theorem State.put_fol (d i sub v : Nat) : (s.put d i sub v).fol = s.fol := rfl
@[simp] theorem State.put_twin (d i sub v : Nat) : (s.put d i sub v).twin = s.twin := rfl
@[simp] theorem State.put_frames (d i sub v : Nat) : (s.put d i sub v).frames = s.frames := rfl
@[simp] theorem State.put_rods (d i sub v : Nat) : (s.put d i sub v).rods = s.rods := rfl
@[simp] theorem State.put_slots (d i sub v : Nat) : (s.put d i sub v).slots = s.slots := rfl
@[simp] theorem State.put_rot (d i sub v : Nat) : (s.put d i sub v).rot = s.rot := rfl
@[simp] theorem State.put_moves (d i sub v : Nat) : (s.put d i sub v).moves = s.moves := rfl
@[simp] theorem State.put_tally (d i sub v : Nat) : (s.put d i sub v).tally = s.tally := rfl
@[simp] theorem State.put_beam (d i sub v : Nat) : (s.put d i sub v).beam = s.beam := rfl
@[simp] theorem State.put_ledger (d i sub v : Nat) : (s.put d i sub v).ledger = s.ledger := rfl
@[simp] theorem State.put_dram (d i sub v : Nat) : (s.put d i sub v).dram = s.dram := rfl
@[simp] theorem State.put_mem (d i sub v : Nat) : (s.put d i sub v).mem = s.mem := rfl
@[simp] theorem State.put_gpio (d i sub v : Nat) : (s.put d i sub v).gpio = s.gpio := rfl
@[simp] theorem State.put_events (d i sub v : Nat) : (s.put d i sub v).events = s.events := rfl
@[simp] theorem State.put_draws (d i sub v : Nat) : (s.put d i sub v).draws = s.draws := rfl
@[simp] theorem State.put_out (d i sub v : Nat) : (s.put d i sub v).out = s.out := rfl
@[simp] theorem State.put_pending (d i sub v : Nat) : (s.put d i sub v).pending = s.pending := rfl

/-! The update of a numeric entry kept in storage -/

@[simp] theorem State.putNv_power (d i sub v : Nat) : (s.putNv d i sub v).power = s.power := rfl
@[simp] theorem State.putNv_clk (d i sub v : Nat) : (s.putNv d i sub v).clk = s.clk := rfl
@[simp] theorem State.putNv_time (d i sub v : Nat) : (s.putNv d i sub v).time = s.time := rfl
@[simp] theorem State.putNv_sup (d i sub v : Nat) : (s.putNv d i sub v).sup = s.sup := rfl
@[simp] theorem State.putNv_keys (d i sub v : Nat) : (s.putNv d i sub v).keys = s.keys := rfl
@[simp] theorem State.putNv_upd (d i sub v : Nat) : (s.putNv d i sub v).upd = s.upd := rfl
@[simp] theorem State.putNv_dom (d i sub v : Nat) : (s.putNv d i sub v).dom = s.dom := rfl
@[simp] theorem State.putNv_hist (d i sub v : Nat) : (s.putNv d i sub v).hist = s.hist := rfl
@[simp] theorem State.putNv_domHist (d i sub v : Nat) : (s.putNv d i sub v).domHist = s.domHist := rfl
@[simp] theorem State.putNv_stat (d i sub v : Nat) : (s.putNv d i sub v).stat = s.stat := rfl
@[simp] theorem State.putNv_statB (d i sub v : Nat) : (s.putNv d i sub v).statB = s.statB := rfl
@[simp] theorem State.putNv_pend (d i sub v : Nat) : (s.putNv d i sub v).pend = s.pend := rfl
@[simp] theorem State.putNv_todo (d i sub v : Nat) : (s.putNv d i sub v).todo = s.todo := rfl
@[simp] theorem State.putNv_pipe (d i sub v : Nat) : (s.putNv d i sub v).pipe = s.pipe := rfl
@[simp] theorem State.putNv_drift (d i sub v : Nat) : (s.putNv d i sub v).drift = s.drift := rfl
@[simp] theorem State.putNv_ports (d i sub v : Nat) : (s.putNv d i sub v).ports = s.ports := rfl
@[simp] theorem State.putNv_seen (d i sub v : Nat) : (s.putNv d i sub v).seen = s.seen := rfl
@[simp] theorem State.putNv_byp (d i sub v : Nat) : (s.putNv d i sub v).byp = s.byp := rfl
@[simp] theorem State.putNv_rx (d i sub v : Nat) : (s.putNv d i sub v).rx = s.rx := rfl
@[simp] theorem State.putNv_tx (d i sub v : Nat) : (s.putNv d i sub v).tx = s.tx := rfl
@[simp] theorem State.putNv_aesIn (d i sub v : Nat) : (s.putNv d i sub v).aesIn = s.aesIn := rfl
@[simp] theorem State.putNv_aesOut (d i sub v : Nat) : (s.putNv d i sub v).aesOut = s.aesOut := rfl
@[simp] theorem State.putNv_pdm (d i sub v : Nat) : (s.putNv d i sub v).pdm = s.pdm := rfl
@[simp] theorem State.putNv_drives (d i sub v : Nat) : (s.putNv d i sub v).drives = s.drives := rfl
@[simp] theorem State.putNv_rails (d i sub v : Nat) : (s.putNv d i sub v).rails = s.rails := rfl
@[simp] theorem State.putNv_carrier (d i sub v : Nat) : (s.putNv d i sub v).carrier = s.carrier := rfl
@[simp] theorem State.putNv_fol (d i sub v : Nat) : (s.putNv d i sub v).fol = s.fol := rfl
@[simp] theorem State.putNv_twin (d i sub v : Nat) : (s.putNv d i sub v).twin = s.twin := rfl
@[simp] theorem State.putNv_frames (d i sub v : Nat) : (s.putNv d i sub v).frames = s.frames := rfl
@[simp] theorem State.putNv_rods (d i sub v : Nat) : (s.putNv d i sub v).rods = s.rods := rfl
@[simp] theorem State.putNv_slots (d i sub v : Nat) : (s.putNv d i sub v).slots = s.slots := rfl
@[simp] theorem State.putNv_rot (d i sub v : Nat) : (s.putNv d i sub v).rot = s.rot := rfl
@[simp] theorem State.putNv_moves (d i sub v : Nat) : (s.putNv d i sub v).moves = s.moves := rfl
@[simp] theorem State.putNv_tally (d i sub v : Nat) : (s.putNv d i sub v).tally = s.tally := rfl
@[simp] theorem State.putNv_beam (d i sub v : Nat) : (s.putNv d i sub v).beam = s.beam := rfl
@[simp] theorem State.putNv_ledger (d i sub v : Nat) : (s.putNv d i sub v).ledger = s.ledger := rfl
@[simp] theorem State.putNv_dram (d i sub v : Nat) : (s.putNv d i sub v).dram = s.dram := rfl
@[simp] theorem State.putNv_mem (d i sub v : Nat) : (s.putNv d i sub v).mem = s.mem := rfl
@[simp] theorem State.putNv_gpio (d i sub v : Nat) : (s.putNv d i sub v).gpio = s.gpio := rfl
@[simp] theorem State.putNv_events (d i sub v : Nat) : (s.putNv d i sub v).events = s.events := rfl
@[simp] theorem State.putNv_draws (d i sub v : Nat) : (s.putNv d i sub v).draws = s.draws := rfl
@[simp] theorem State.putNv_out (d i sub v : Nat) : (s.putNv d i sub v).out = s.out := rfl
@[simp] theorem State.putNv_pending (d i sub v : Nat) : (s.putNv d i sub v).pending = s.pending := rfl

/-! The update of a STRING or DOMAIN entry -/

@[simp] theorem State.putBytes_power (i sub : Nat) (b : List Byte) : (s.putBytes i sub b).power = s.power := rfl
@[simp] theorem State.putBytes_clk (i sub : Nat) (b : List Byte) : (s.putBytes i sub b).clk = s.clk := rfl
@[simp] theorem State.putBytes_time (i sub : Nat) (b : List Byte) : (s.putBytes i sub b).time = s.time := rfl
@[simp] theorem State.putBytes_sup (i sub : Nat) (b : List Byte) : (s.putBytes i sub b).sup = s.sup := rfl
@[simp] theorem State.putBytes_nv (i sub : Nat) (b : List Byte) : (s.putBytes i sub b).nv = s.nv := rfl
@[simp] theorem State.putBytes_keys (i sub : Nat) (b : List Byte) : (s.putBytes i sub b).keys = s.keys := rfl
@[simp] theorem State.putBytes_upd (i sub : Nat) (b : List Byte) : (s.putBytes i sub b).upd = s.upd := rfl
@[simp] theorem State.putBytes_dict (i sub : Nat) (b : List Byte) : (s.putBytes i sub b).dict = s.dict := rfl
@[simp] theorem State.putBytes_hist (i sub : Nat) (b : List Byte) : (s.putBytes i sub b).hist = s.hist := rfl
@[simp] theorem State.putBytes_domHist (i sub : Nat) (b : List Byte) : (s.putBytes i sub b).domHist = s.domHist := rfl
@[simp] theorem State.putBytes_stat (i sub : Nat) (b : List Byte) : (s.putBytes i sub b).stat = s.stat := rfl
@[simp] theorem State.putBytes_statB (i sub : Nat) (b : List Byte) : (s.putBytes i sub b).statB = s.statB := rfl
@[simp] theorem State.putBytes_pend (i sub : Nat) (b : List Byte) : (s.putBytes i sub b).pend = s.pend := rfl
@[simp] theorem State.putBytes_todo (i sub : Nat) (b : List Byte) : (s.putBytes i sub b).todo = s.todo := rfl
@[simp] theorem State.putBytes_pipe (i sub : Nat) (b : List Byte) : (s.putBytes i sub b).pipe = s.pipe := rfl
@[simp] theorem State.putBytes_drift (i sub : Nat) (b : List Byte) : (s.putBytes i sub b).drift = s.drift := rfl
@[simp] theorem State.putBytes_ports (i sub : Nat) (b : List Byte) : (s.putBytes i sub b).ports = s.ports := rfl
@[simp] theorem State.putBytes_seen (i sub : Nat) (b : List Byte) : (s.putBytes i sub b).seen = s.seen := rfl
@[simp] theorem State.putBytes_byp (i sub : Nat) (b : List Byte) : (s.putBytes i sub b).byp = s.byp := rfl
@[simp] theorem State.putBytes_rx (i sub : Nat) (b : List Byte) : (s.putBytes i sub b).rx = s.rx := rfl
@[simp] theorem State.putBytes_tx (i sub : Nat) (b : List Byte) : (s.putBytes i sub b).tx = s.tx := rfl
@[simp] theorem State.putBytes_aesIn (i sub : Nat) (b : List Byte) : (s.putBytes i sub b).aesIn = s.aesIn := rfl
@[simp] theorem State.putBytes_aesOut (i sub : Nat) (b : List Byte) : (s.putBytes i sub b).aesOut = s.aesOut := rfl
@[simp] theorem State.putBytes_pdm (i sub : Nat) (b : List Byte) : (s.putBytes i sub b).pdm = s.pdm := rfl
@[simp] theorem State.putBytes_drives (i sub : Nat) (b : List Byte) : (s.putBytes i sub b).drives = s.drives := rfl
@[simp] theorem State.putBytes_rails (i sub : Nat) (b : List Byte) : (s.putBytes i sub b).rails = s.rails := rfl
@[simp] theorem State.putBytes_carrier (i sub : Nat) (b : List Byte) : (s.putBytes i sub b).carrier = s.carrier := rfl
@[simp] theorem State.putBytes_fol (i sub : Nat) (b : List Byte) : (s.putBytes i sub b).fol = s.fol := rfl
@[simp] theorem State.putBytes_twin (i sub : Nat) (b : List Byte) : (s.putBytes i sub b).twin = s.twin := rfl
@[simp] theorem State.putBytes_frames (i sub : Nat) (b : List Byte) : (s.putBytes i sub b).frames = s.frames := rfl
@[simp] theorem State.putBytes_rods (i sub : Nat) (b : List Byte) : (s.putBytes i sub b).rods = s.rods := rfl
@[simp] theorem State.putBytes_slots (i sub : Nat) (b : List Byte) : (s.putBytes i sub b).slots = s.slots := rfl
@[simp] theorem State.putBytes_rot (i sub : Nat) (b : List Byte) : (s.putBytes i sub b).rot = s.rot := rfl
@[simp] theorem State.putBytes_moves (i sub : Nat) (b : List Byte) : (s.putBytes i sub b).moves = s.moves := rfl
@[simp] theorem State.putBytes_tally (i sub : Nat) (b : List Byte) : (s.putBytes i sub b).tally = s.tally := rfl
@[simp] theorem State.putBytes_beam (i sub : Nat) (b : List Byte) : (s.putBytes i sub b).beam = s.beam := rfl
@[simp] theorem State.putBytes_ledger (i sub : Nat) (b : List Byte) : (s.putBytes i sub b).ledger = s.ledger := rfl
@[simp] theorem State.putBytes_dram (i sub : Nat) (b : List Byte) : (s.putBytes i sub b).dram = s.dram := rfl
@[simp] theorem State.putBytes_mem (i sub : Nat) (b : List Byte) : (s.putBytes i sub b).mem = s.mem := rfl
@[simp] theorem State.putBytes_gpio (i sub : Nat) (b : List Byte) : (s.putBytes i sub b).gpio = s.gpio := rfl
@[simp] theorem State.putBytes_events (i sub : Nat) (b : List Byte) : (s.putBytes i sub b).events = s.events := rfl
@[simp] theorem State.putBytes_draws (i sub : Nat) (b : List Byte) : (s.putBytes i sub b).draws = s.draws := rfl
@[simp] theorem State.putBytes_out (i sub : Nat) (b : List Byte) : (s.putBytes i sub b).out = s.out := rfl
@[simp] theorem State.putBytes_pending (i sub : Nat) (b : List Byte) : (s.putBytes i sub b).pending = s.pending := rfl

/-! The update of a read-only entry -/

@[simp] theorem State.stset_power (d i sub v : Nat) : (s.stset d i sub v).power = s.power := rfl
@[simp] theorem State.stset_clk (d i sub v : Nat) : (s.stset d i sub v).clk = s.clk := rfl
@[simp] theorem State.stset_time (d i sub v : Nat) : (s.stset d i sub v).time = s.time := rfl
@[simp] theorem State.stset_sup (d i sub v : Nat) : (s.stset d i sub v).sup = s.sup := rfl
@[simp] theorem State.stset_nv (d i sub v : Nat) : (s.stset d i sub v).nv = s.nv := rfl
@[simp] theorem State.stset_keys (d i sub v : Nat) : (s.stset d i sub v).keys = s.keys := rfl
@[simp] theorem State.stset_upd (d i sub v : Nat) : (s.stset d i sub v).upd = s.upd := rfl
@[simp] theorem State.stset_dict (d i sub v : Nat) : (s.stset d i sub v).dict = s.dict := rfl
@[simp] theorem State.stset_dom (d i sub v : Nat) : (s.stset d i sub v).dom = s.dom := rfl
@[simp] theorem State.stset_hist (d i sub v : Nat) : (s.stset d i sub v).hist = s.hist := rfl
@[simp] theorem State.stset_domHist (d i sub v : Nat) : (s.stset d i sub v).domHist = s.domHist := rfl
@[simp] theorem State.stset_statB (d i sub v : Nat) : (s.stset d i sub v).statB = s.statB := rfl
@[simp] theorem State.stset_pend (d i sub v : Nat) : (s.stset d i sub v).pend = s.pend := rfl
@[simp] theorem State.stset_todo (d i sub v : Nat) : (s.stset d i sub v).todo = s.todo := rfl
@[simp] theorem State.stset_pipe (d i sub v : Nat) : (s.stset d i sub v).pipe = s.pipe := rfl
@[simp] theorem State.stset_drift (d i sub v : Nat) : (s.stset d i sub v).drift = s.drift := rfl
@[simp] theorem State.stset_ports (d i sub v : Nat) : (s.stset d i sub v).ports = s.ports := rfl
@[simp] theorem State.stset_seen (d i sub v : Nat) : (s.stset d i sub v).seen = s.seen := rfl
@[simp] theorem State.stset_byp (d i sub v : Nat) : (s.stset d i sub v).byp = s.byp := rfl
@[simp] theorem State.stset_rx (d i sub v : Nat) : (s.stset d i sub v).rx = s.rx := rfl
@[simp] theorem State.stset_tx (d i sub v : Nat) : (s.stset d i sub v).tx = s.tx := rfl
@[simp] theorem State.stset_aesIn (d i sub v : Nat) : (s.stset d i sub v).aesIn = s.aesIn := rfl
@[simp] theorem State.stset_aesOut (d i sub v : Nat) : (s.stset d i sub v).aesOut = s.aesOut := rfl
@[simp] theorem State.stset_pdm (d i sub v : Nat) : (s.stset d i sub v).pdm = s.pdm := rfl
@[simp] theorem State.stset_drives (d i sub v : Nat) : (s.stset d i sub v).drives = s.drives := rfl
@[simp] theorem State.stset_rails (d i sub v : Nat) : (s.stset d i sub v).rails = s.rails := rfl
@[simp] theorem State.stset_carrier (d i sub v : Nat) : (s.stset d i sub v).carrier = s.carrier := rfl
@[simp] theorem State.stset_fol (d i sub v : Nat) : (s.stset d i sub v).fol = s.fol := rfl
@[simp] theorem State.stset_twin (d i sub v : Nat) : (s.stset d i sub v).twin = s.twin := rfl
@[simp] theorem State.stset_frames (d i sub v : Nat) : (s.stset d i sub v).frames = s.frames := rfl
@[simp] theorem State.stset_rods (d i sub v : Nat) : (s.stset d i sub v).rods = s.rods := rfl
@[simp] theorem State.stset_slots (d i sub v : Nat) : (s.stset d i sub v).slots = s.slots := rfl
@[simp] theorem State.stset_rot (d i sub v : Nat) : (s.stset d i sub v).rot = s.rot := rfl
@[simp] theorem State.stset_moves (d i sub v : Nat) : (s.stset d i sub v).moves = s.moves := rfl
@[simp] theorem State.stset_tally (d i sub v : Nat) : (s.stset d i sub v).tally = s.tally := rfl
@[simp] theorem State.stset_beam (d i sub v : Nat) : (s.stset d i sub v).beam = s.beam := rfl
@[simp] theorem State.stset_ledger (d i sub v : Nat) : (s.stset d i sub v).ledger = s.ledger := rfl
@[simp] theorem State.stset_dram (d i sub v : Nat) : (s.stset d i sub v).dram = s.dram := rfl
@[simp] theorem State.stset_mem (d i sub v : Nat) : (s.stset d i sub v).mem = s.mem := rfl
@[simp] theorem State.stset_gpio (d i sub v : Nat) : (s.stset d i sub v).gpio = s.gpio := rfl
@[simp] theorem State.stset_events (d i sub v : Nat) : (s.stset d i sub v).events = s.events := rfl
@[simp] theorem State.stset_draws (d i sub v : Nat) : (s.stset d i sub v).draws = s.draws := rfl
@[simp] theorem State.stset_out (d i sub v : Nat) : (s.stset d i sub v).out = s.out := rfl
@[simp] theorem State.stset_pending (d i sub v : Nat) : (s.stset d i sub v).pending = s.pending := rfl

/-! The update of a feed -/

@[simp] theorem State.setFeed_power (f : Nat) (v : FeedSt) : (s.setFeed f v).power = s.power := rfl
@[simp] theorem State.setFeed_clk (f : Nat) (v : FeedSt) : (s.setFeed f v).clk = s.clk := rfl
@[simp] theorem State.setFeed_time (f : Nat) (v : FeedSt) : (s.setFeed f v).time = s.time := rfl
@[simp] theorem State.setFeed_sup (f : Nat) (v : FeedSt) : (s.setFeed f v).sup = s.sup := rfl
@[simp] theorem State.setFeed_nv (f : Nat) (v : FeedSt) : (s.setFeed f v).nv = s.nv := rfl
@[simp] theorem State.setFeed_keys (f : Nat) (v : FeedSt) : (s.setFeed f v).keys = s.keys := rfl
@[simp] theorem State.setFeed_upd (f : Nat) (v : FeedSt) : (s.setFeed f v).upd = s.upd := rfl
@[simp] theorem State.setFeed_dict (f : Nat) (v : FeedSt) : (s.setFeed f v).dict = s.dict := rfl
@[simp] theorem State.setFeed_dom (f : Nat) (v : FeedSt) : (s.setFeed f v).dom = s.dom := rfl
@[simp] theorem State.setFeed_hist (f : Nat) (v : FeedSt) : (s.setFeed f v).hist = s.hist := rfl
@[simp] theorem State.setFeed_domHist (f : Nat) (v : FeedSt) : (s.setFeed f v).domHist = s.domHist := rfl
@[simp] theorem State.setFeed_stat (f : Nat) (v : FeedSt) : (s.setFeed f v).stat = s.stat := rfl
@[simp] theorem State.setFeed_statB (f : Nat) (v : FeedSt) : (s.setFeed f v).statB = s.statB := rfl
@[simp] theorem State.setFeed_pend (f : Nat) (v : FeedSt) : (s.setFeed f v).pend = s.pend := rfl
@[simp] theorem State.setFeed_todo (f : Nat) (v : FeedSt) : (s.setFeed f v).todo = s.todo := rfl
@[simp] theorem State.setFeed_drift (f : Nat) (v : FeedSt) : (s.setFeed f v).drift = s.drift := rfl
@[simp] theorem State.setFeed_ports (f : Nat) (v : FeedSt) : (s.setFeed f v).ports = s.ports := rfl
@[simp] theorem State.setFeed_seen (f : Nat) (v : FeedSt) : (s.setFeed f v).seen = s.seen := rfl
@[simp] theorem State.setFeed_byp (f : Nat) (v : FeedSt) : (s.setFeed f v).byp = s.byp := rfl
@[simp] theorem State.setFeed_rx (f : Nat) (v : FeedSt) : (s.setFeed f v).rx = s.rx := rfl
@[simp] theorem State.setFeed_tx (f : Nat) (v : FeedSt) : (s.setFeed f v).tx = s.tx := rfl
@[simp] theorem State.setFeed_aesIn (f : Nat) (v : FeedSt) : (s.setFeed f v).aesIn = s.aesIn := rfl
@[simp] theorem State.setFeed_aesOut (f : Nat) (v : FeedSt) : (s.setFeed f v).aesOut = s.aesOut := rfl
@[simp] theorem State.setFeed_pdm (f : Nat) (v : FeedSt) : (s.setFeed f v).pdm = s.pdm := rfl
@[simp] theorem State.setFeed_drives (f : Nat) (v : FeedSt) : (s.setFeed f v).drives = s.drives := rfl
@[simp] theorem State.setFeed_rails (f : Nat) (v : FeedSt) : (s.setFeed f v).rails = s.rails := rfl
@[simp] theorem State.setFeed_carrier (f : Nat) (v : FeedSt) : (s.setFeed f v).carrier = s.carrier := rfl
@[simp] theorem State.setFeed_fol (f : Nat) (v : FeedSt) : (s.setFeed f v).fol = s.fol := rfl
@[simp] theorem State.setFeed_twin (f : Nat) (v : FeedSt) : (s.setFeed f v).twin = s.twin := rfl
@[simp] theorem State.setFeed_frames (f : Nat) (v : FeedSt) : (s.setFeed f v).frames = s.frames := rfl
@[simp] theorem State.setFeed_rods (f : Nat) (v : FeedSt) : (s.setFeed f v).rods = s.rods := rfl
@[simp] theorem State.setFeed_slots (f : Nat) (v : FeedSt) : (s.setFeed f v).slots = s.slots := rfl
@[simp] theorem State.setFeed_rot (f : Nat) (v : FeedSt) : (s.setFeed f v).rot = s.rot := rfl
@[simp] theorem State.setFeed_moves (f : Nat) (v : FeedSt) : (s.setFeed f v).moves = s.moves := rfl
@[simp] theorem State.setFeed_tally (f : Nat) (v : FeedSt) : (s.setFeed f v).tally = s.tally := rfl
@[simp] theorem State.setFeed_beam (f : Nat) (v : FeedSt) : (s.setFeed f v).beam = s.beam := rfl
@[simp] theorem State.setFeed_ledger (f : Nat) (v : FeedSt) : (s.setFeed f v).ledger = s.ledger := rfl
@[simp] theorem State.setFeed_dram (f : Nat) (v : FeedSt) : (s.setFeed f v).dram = s.dram := rfl
@[simp] theorem State.setFeed_mem (f : Nat) (v : FeedSt) : (s.setFeed f v).mem = s.mem := rfl
@[simp] theorem State.setFeed_gpio (f : Nat) (v : FeedSt) : (s.setFeed f v).gpio = s.gpio := rfl
@[simp] theorem State.setFeed_events (f : Nat) (v : FeedSt) : (s.setFeed f v).events = s.events := rfl
@[simp] theorem State.setFeed_draws (f : Nat) (v : FeedSt) : (s.setFeed f v).draws = s.draws := rfl
@[simp] theorem State.setFeed_out (f : Nat) (v : FeedSt) : (s.setFeed f v).out = s.out := rfl
@[simp] theorem State.setFeed_pending (f : Nat) (v : FeedSt) : (s.setFeed f v).pending = s.pending := rfl

/-! The update of a drive channel -/

@[simp] theorem State.setDrive_power (n : Nat) (v : Drive) : (s.setDrive n v).power = s.power := rfl
@[simp] theorem State.setDrive_clk (n : Nat) (v : Drive) : (s.setDrive n v).clk = s.clk := rfl
@[simp] theorem State.setDrive_time (n : Nat) (v : Drive) : (s.setDrive n v).time = s.time := rfl
@[simp] theorem State.setDrive_sup (n : Nat) (v : Drive) : (s.setDrive n v).sup = s.sup := rfl
@[simp] theorem State.setDrive_nv (n : Nat) (v : Drive) : (s.setDrive n v).nv = s.nv := rfl
@[simp] theorem State.setDrive_keys (n : Nat) (v : Drive) : (s.setDrive n v).keys = s.keys := rfl
@[simp] theorem State.setDrive_upd (n : Nat) (v : Drive) : (s.setDrive n v).upd = s.upd := rfl
@[simp] theorem State.setDrive_dict (n : Nat) (v : Drive) : (s.setDrive n v).dict = s.dict := rfl
@[simp] theorem State.setDrive_dom (n : Nat) (v : Drive) : (s.setDrive n v).dom = s.dom := rfl
@[simp] theorem State.setDrive_hist (n : Nat) (v : Drive) : (s.setDrive n v).hist = s.hist := rfl
@[simp] theorem State.setDrive_domHist (n : Nat) (v : Drive) : (s.setDrive n v).domHist = s.domHist := rfl
@[simp] theorem State.setDrive_stat (n : Nat) (v : Drive) : (s.setDrive n v).stat = s.stat := rfl
@[simp] theorem State.setDrive_statB (n : Nat) (v : Drive) : (s.setDrive n v).statB = s.statB := rfl
@[simp] theorem State.setDrive_pend (n : Nat) (v : Drive) : (s.setDrive n v).pend = s.pend := rfl
@[simp] theorem State.setDrive_todo (n : Nat) (v : Drive) : (s.setDrive n v).todo = s.todo := rfl
@[simp] theorem State.setDrive_pipe (n : Nat) (v : Drive) : (s.setDrive n v).pipe = s.pipe := rfl
@[simp] theorem State.setDrive_drift (n : Nat) (v : Drive) : (s.setDrive n v).drift = s.drift := rfl
@[simp] theorem State.setDrive_ports (n : Nat) (v : Drive) : (s.setDrive n v).ports = s.ports := rfl
@[simp] theorem State.setDrive_seen (n : Nat) (v : Drive) : (s.setDrive n v).seen = s.seen := rfl
@[simp] theorem State.setDrive_byp (n : Nat) (v : Drive) : (s.setDrive n v).byp = s.byp := rfl
@[simp] theorem State.setDrive_rx (n : Nat) (v : Drive) : (s.setDrive n v).rx = s.rx := rfl
@[simp] theorem State.setDrive_tx (n : Nat) (v : Drive) : (s.setDrive n v).tx = s.tx := rfl
@[simp] theorem State.setDrive_aesIn (n : Nat) (v : Drive) : (s.setDrive n v).aesIn = s.aesIn := rfl
@[simp] theorem State.setDrive_aesOut (n : Nat) (v : Drive) : (s.setDrive n v).aesOut = s.aesOut := rfl
@[simp] theorem State.setDrive_pdm (n : Nat) (v : Drive) : (s.setDrive n v).pdm = s.pdm := rfl
@[simp] theorem State.setDrive_rails (n : Nat) (v : Drive) : (s.setDrive n v).rails = s.rails := rfl
@[simp] theorem State.setDrive_carrier (n : Nat) (v : Drive) : (s.setDrive n v).carrier = s.carrier := rfl
@[simp] theorem State.setDrive_fol (n : Nat) (v : Drive) : (s.setDrive n v).fol = s.fol := rfl
@[simp] theorem State.setDrive_twin (n : Nat) (v : Drive) : (s.setDrive n v).twin = s.twin := rfl
@[simp] theorem State.setDrive_frames (n : Nat) (v : Drive) : (s.setDrive n v).frames = s.frames := rfl
@[simp] theorem State.setDrive_rods (n : Nat) (v : Drive) : (s.setDrive n v).rods = s.rods := rfl
@[simp] theorem State.setDrive_slots (n : Nat) (v : Drive) : (s.setDrive n v).slots = s.slots := rfl
@[simp] theorem State.setDrive_rot (n : Nat) (v : Drive) : (s.setDrive n v).rot = s.rot := rfl
@[simp] theorem State.setDrive_moves (n : Nat) (v : Drive) : (s.setDrive n v).moves = s.moves := rfl
@[simp] theorem State.setDrive_tally (n : Nat) (v : Drive) : (s.setDrive n v).tally = s.tally := rfl
@[simp] theorem State.setDrive_beam (n : Nat) (v : Drive) : (s.setDrive n v).beam = s.beam := rfl
@[simp] theorem State.setDrive_ledger (n : Nat) (v : Drive) : (s.setDrive n v).ledger = s.ledger := rfl
@[simp] theorem State.setDrive_dram (n : Nat) (v : Drive) : (s.setDrive n v).dram = s.dram := rfl
@[simp] theorem State.setDrive_mem (n : Nat) (v : Drive) : (s.setDrive n v).mem = s.mem := rfl
@[simp] theorem State.setDrive_gpio (n : Nat) (v : Drive) : (s.setDrive n v).gpio = s.gpio := rfl
@[simp] theorem State.setDrive_events (n : Nat) (v : Drive) : (s.setDrive n v).events = s.events := rfl
@[simp] theorem State.setDrive_draws (n : Nat) (v : Drive) : (s.setDrive n v).draws = s.draws := rfl
@[simp] theorem State.setDrive_out (n : Nat) (v : Drive) : (s.setDrive n v).out = s.out := rfl
@[simp] theorem State.setDrive_pending (n : Nat) (v : Drive) : (s.setDrive n v).pending = s.pending := rfl

/-! The update of a Rod -/

@[simp] theorem State.setRod_power (r : Nat) (v : Rod) : (s.setRod r v).power = s.power := rfl
@[simp] theorem State.setRod_clk (r : Nat) (v : Rod) : (s.setRod r v).clk = s.clk := rfl
@[simp] theorem State.setRod_time (r : Nat) (v : Rod) : (s.setRod r v).time = s.time := rfl
@[simp] theorem State.setRod_sup (r : Nat) (v : Rod) : (s.setRod r v).sup = s.sup := rfl
@[simp] theorem State.setRod_nv (r : Nat) (v : Rod) : (s.setRod r v).nv = s.nv := rfl
@[simp] theorem State.setRod_keys (r : Nat) (v : Rod) : (s.setRod r v).keys = s.keys := rfl
@[simp] theorem State.setRod_upd (r : Nat) (v : Rod) : (s.setRod r v).upd = s.upd := rfl
@[simp] theorem State.setRod_dict (r : Nat) (v : Rod) : (s.setRod r v).dict = s.dict := rfl
@[simp] theorem State.setRod_dom (r : Nat) (v : Rod) : (s.setRod r v).dom = s.dom := rfl
@[simp] theorem State.setRod_hist (r : Nat) (v : Rod) : (s.setRod r v).hist = s.hist := rfl
@[simp] theorem State.setRod_domHist (r : Nat) (v : Rod) : (s.setRod r v).domHist = s.domHist := rfl
@[simp] theorem State.setRod_stat (r : Nat) (v : Rod) : (s.setRod r v).stat = s.stat := rfl
@[simp] theorem State.setRod_statB (r : Nat) (v : Rod) : (s.setRod r v).statB = s.statB := rfl
@[simp] theorem State.setRod_pend (r : Nat) (v : Rod) : (s.setRod r v).pend = s.pend := rfl
@[simp] theorem State.setRod_todo (r : Nat) (v : Rod) : (s.setRod r v).todo = s.todo := rfl
@[simp] theorem State.setRod_pipe (r : Nat) (v : Rod) : (s.setRod r v).pipe = s.pipe := rfl
@[simp] theorem State.setRod_drift (r : Nat) (v : Rod) : (s.setRod r v).drift = s.drift := rfl
@[simp] theorem State.setRod_ports (r : Nat) (v : Rod) : (s.setRod r v).ports = s.ports := rfl
@[simp] theorem State.setRod_seen (r : Nat) (v : Rod) : (s.setRod r v).seen = s.seen := rfl
@[simp] theorem State.setRod_byp (r : Nat) (v : Rod) : (s.setRod r v).byp = s.byp := rfl
@[simp] theorem State.setRod_rx (r : Nat) (v : Rod) : (s.setRod r v).rx = s.rx := rfl
@[simp] theorem State.setRod_tx (r : Nat) (v : Rod) : (s.setRod r v).tx = s.tx := rfl
@[simp] theorem State.setRod_aesIn (r : Nat) (v : Rod) : (s.setRod r v).aesIn = s.aesIn := rfl
@[simp] theorem State.setRod_aesOut (r : Nat) (v : Rod) : (s.setRod r v).aesOut = s.aesOut := rfl
@[simp] theorem State.setRod_pdm (r : Nat) (v : Rod) : (s.setRod r v).pdm = s.pdm := rfl
@[simp] theorem State.setRod_drives (r : Nat) (v : Rod) : (s.setRod r v).drives = s.drives := rfl
@[simp] theorem State.setRod_rails (r : Nat) (v : Rod) : (s.setRod r v).rails = s.rails := rfl
@[simp] theorem State.setRod_carrier (r : Nat) (v : Rod) : (s.setRod r v).carrier = s.carrier := rfl
@[simp] theorem State.setRod_fol (r : Nat) (v : Rod) : (s.setRod r v).fol = s.fol := rfl
@[simp] theorem State.setRod_twin (r : Nat) (v : Rod) : (s.setRod r v).twin = s.twin := rfl
@[simp] theorem State.setRod_frames (r : Nat) (v : Rod) : (s.setRod r v).frames = s.frames := rfl
@[simp] theorem State.setRod_slots (r : Nat) (v : Rod) : (s.setRod r v).slots = s.slots := rfl
@[simp] theorem State.setRod_rot (r : Nat) (v : Rod) : (s.setRod r v).rot = s.rot := rfl
@[simp] theorem State.setRod_moves (r : Nat) (v : Rod) : (s.setRod r v).moves = s.moves := rfl
@[simp] theorem State.setRod_tally (r : Nat) (v : Rod) : (s.setRod r v).tally = s.tally := rfl
@[simp] theorem State.setRod_beam (r : Nat) (v : Rod) : (s.setRod r v).beam = s.beam := rfl
@[simp] theorem State.setRod_ledger (r : Nat) (v : Rod) : (s.setRod r v).ledger = s.ledger := rfl
@[simp] theorem State.setRod_dram (r : Nat) (v : Rod) : (s.setRod r v).dram = s.dram := rfl
@[simp] theorem State.setRod_mem (r : Nat) (v : Rod) : (s.setRod r v).mem = s.mem := rfl
@[simp] theorem State.setRod_gpio (r : Nat) (v : Rod) : (s.setRod r v).gpio = s.gpio := rfl
@[simp] theorem State.setRod_events (r : Nat) (v : Rod) : (s.setRod r v).events = s.events := rfl
@[simp] theorem State.setRod_draws (r : Nat) (v : Rod) : (s.setRod r v).draws = s.draws := rfl
@[simp] theorem State.setRod_out (r : Nat) (v : Rod) : (s.setRod r v).out = s.out := rfl
@[simp] theorem State.setRod_pending (r : Nat) (v : Rod) : (s.setRod r v).pending = s.pending := rfl

/-! The update of a Tally queue -/

@[simp] theorem State.setQueue_power (q : Nat) (v : Queue) : (s.setQueue q v).power = s.power := rfl
@[simp] theorem State.setQueue_clk (q : Nat) (v : Queue) : (s.setQueue q v).clk = s.clk := rfl
@[simp] theorem State.setQueue_time (q : Nat) (v : Queue) : (s.setQueue q v).time = s.time := rfl
@[simp] theorem State.setQueue_sup (q : Nat) (v : Queue) : (s.setQueue q v).sup = s.sup := rfl
@[simp] theorem State.setQueue_nv (q : Nat) (v : Queue) : (s.setQueue q v).nv = s.nv := rfl
@[simp] theorem State.setQueue_keys (q : Nat) (v : Queue) : (s.setQueue q v).keys = s.keys := rfl
@[simp] theorem State.setQueue_upd (q : Nat) (v : Queue) : (s.setQueue q v).upd = s.upd := rfl
@[simp] theorem State.setQueue_dict (q : Nat) (v : Queue) : (s.setQueue q v).dict = s.dict := rfl
@[simp] theorem State.setQueue_dom (q : Nat) (v : Queue) : (s.setQueue q v).dom = s.dom := rfl
@[simp] theorem State.setQueue_hist (q : Nat) (v : Queue) : (s.setQueue q v).hist = s.hist := rfl
@[simp] theorem State.setQueue_domHist (q : Nat) (v : Queue) : (s.setQueue q v).domHist = s.domHist := rfl
@[simp] theorem State.setQueue_stat (q : Nat) (v : Queue) : (s.setQueue q v).stat = s.stat := rfl
@[simp] theorem State.setQueue_statB (q : Nat) (v : Queue) : (s.setQueue q v).statB = s.statB := rfl
@[simp] theorem State.setQueue_pend (q : Nat) (v : Queue) : (s.setQueue q v).pend = s.pend := rfl
@[simp] theorem State.setQueue_todo (q : Nat) (v : Queue) : (s.setQueue q v).todo = s.todo := rfl
@[simp] theorem State.setQueue_pipe (q : Nat) (v : Queue) : (s.setQueue q v).pipe = s.pipe := rfl
@[simp] theorem State.setQueue_drift (q : Nat) (v : Queue) : (s.setQueue q v).drift = s.drift := rfl
@[simp] theorem State.setQueue_ports (q : Nat) (v : Queue) : (s.setQueue q v).ports = s.ports := rfl
@[simp] theorem State.setQueue_seen (q : Nat) (v : Queue) : (s.setQueue q v).seen = s.seen := rfl
@[simp] theorem State.setQueue_byp (q : Nat) (v : Queue) : (s.setQueue q v).byp = s.byp := rfl
@[simp] theorem State.setQueue_rx (q : Nat) (v : Queue) : (s.setQueue q v).rx = s.rx := rfl
@[simp] theorem State.setQueue_tx (q : Nat) (v : Queue) : (s.setQueue q v).tx = s.tx := rfl
@[simp] theorem State.setQueue_aesIn (q : Nat) (v : Queue) : (s.setQueue q v).aesIn = s.aesIn := rfl
@[simp] theorem State.setQueue_aesOut (q : Nat) (v : Queue) : (s.setQueue q v).aesOut = s.aesOut := rfl
@[simp] theorem State.setQueue_pdm (q : Nat) (v : Queue) : (s.setQueue q v).pdm = s.pdm := rfl
@[simp] theorem State.setQueue_drives (q : Nat) (v : Queue) : (s.setQueue q v).drives = s.drives := rfl
@[simp] theorem State.setQueue_rails (q : Nat) (v : Queue) : (s.setQueue q v).rails = s.rails := rfl
@[simp] theorem State.setQueue_carrier (q : Nat) (v : Queue) : (s.setQueue q v).carrier = s.carrier := rfl
@[simp] theorem State.setQueue_fol (q : Nat) (v : Queue) : (s.setQueue q v).fol = s.fol := rfl
@[simp] theorem State.setQueue_twin (q : Nat) (v : Queue) : (s.setQueue q v).twin = s.twin := rfl
@[simp] theorem State.setQueue_frames (q : Nat) (v : Queue) : (s.setQueue q v).frames = s.frames := rfl
@[simp] theorem State.setQueue_rods (q : Nat) (v : Queue) : (s.setQueue q v).rods = s.rods := rfl
@[simp] theorem State.setQueue_slots (q : Nat) (v : Queue) : (s.setQueue q v).slots = s.slots := rfl
@[simp] theorem State.setQueue_rot (q : Nat) (v : Queue) : (s.setQueue q v).rot = s.rot := rfl
@[simp] theorem State.setQueue_moves (q : Nat) (v : Queue) : (s.setQueue q v).moves = s.moves := rfl
@[simp] theorem State.setQueue_beam (q : Nat) (v : Queue) : (s.setQueue q v).beam = s.beam := rfl
@[simp] theorem State.setQueue_ledger (q : Nat) (v : Queue) : (s.setQueue q v).ledger = s.ledger := rfl
@[simp] theorem State.setQueue_dram (q : Nat) (v : Queue) : (s.setQueue q v).dram = s.dram := rfl
@[simp] theorem State.setQueue_mem (q : Nat) (v : Queue) : (s.setQueue q v).mem = s.mem := rfl
@[simp] theorem State.setQueue_gpio (q : Nat) (v : Queue) : (s.setQueue q v).gpio = s.gpio := rfl
@[simp] theorem State.setQueue_events (q : Nat) (v : Queue) : (s.setQueue q v).events = s.events := rfl
@[simp] theorem State.setQueue_draws (q : Nat) (v : Queue) : (s.setQueue q v).draws = s.draws := rfl
@[simp] theorem State.setQueue_out (q : Nat) (v : Queue) : (s.setQueue q v).out = s.out := rfl
@[simp] theorem State.setQueue_pending (q : Nat) (v : Queue) : (s.setQueue q v).pending = s.pending := rfl

/-! The update of a port -/

@[simp] theorem State.setPort_power (p : Nat) (v : Port) : (s.setPort p v).power = s.power := rfl
@[simp] theorem State.setPort_clk (p : Nat) (v : Port) : (s.setPort p v).clk = s.clk := rfl
@[simp] theorem State.setPort_time (p : Nat) (v : Port) : (s.setPort p v).time = s.time := rfl
@[simp] theorem State.setPort_sup (p : Nat) (v : Port) : (s.setPort p v).sup = s.sup := rfl
@[simp] theorem State.setPort_nv (p : Nat) (v : Port) : (s.setPort p v).nv = s.nv := rfl
@[simp] theorem State.setPort_keys (p : Nat) (v : Port) : (s.setPort p v).keys = s.keys := rfl
@[simp] theorem State.setPort_upd (p : Nat) (v : Port) : (s.setPort p v).upd = s.upd := rfl
@[simp] theorem State.setPort_dict (p : Nat) (v : Port) : (s.setPort p v).dict = s.dict := rfl
@[simp] theorem State.setPort_dom (p : Nat) (v : Port) : (s.setPort p v).dom = s.dom := rfl
@[simp] theorem State.setPort_hist (p : Nat) (v : Port) : (s.setPort p v).hist = s.hist := rfl
@[simp] theorem State.setPort_domHist (p : Nat) (v : Port) : (s.setPort p v).domHist = s.domHist := rfl
@[simp] theorem State.setPort_stat (p : Nat) (v : Port) : (s.setPort p v).stat = s.stat := rfl
@[simp] theorem State.setPort_statB (p : Nat) (v : Port) : (s.setPort p v).statB = s.statB := rfl
@[simp] theorem State.setPort_pend (p : Nat) (v : Port) : (s.setPort p v).pend = s.pend := rfl
@[simp] theorem State.setPort_todo (p : Nat) (v : Port) : (s.setPort p v).todo = s.todo := rfl
@[simp] theorem State.setPort_pipe (p : Nat) (v : Port) : (s.setPort p v).pipe = s.pipe := rfl
@[simp] theorem State.setPort_drift (p : Nat) (v : Port) : (s.setPort p v).drift = s.drift := rfl
@[simp] theorem State.setPort_seen (p : Nat) (v : Port) : (s.setPort p v).seen = s.seen := rfl
@[simp] theorem State.setPort_byp (p : Nat) (v : Port) : (s.setPort p v).byp = s.byp := rfl
@[simp] theorem State.setPort_rx (p : Nat) (v : Port) : (s.setPort p v).rx = s.rx := rfl
@[simp] theorem State.setPort_tx (p : Nat) (v : Port) : (s.setPort p v).tx = s.tx := rfl
@[simp] theorem State.setPort_aesIn (p : Nat) (v : Port) : (s.setPort p v).aesIn = s.aesIn := rfl
@[simp] theorem State.setPort_aesOut (p : Nat) (v : Port) : (s.setPort p v).aesOut = s.aesOut := rfl
@[simp] theorem State.setPort_pdm (p : Nat) (v : Port) : (s.setPort p v).pdm = s.pdm := rfl
@[simp] theorem State.setPort_drives (p : Nat) (v : Port) : (s.setPort p v).drives = s.drives := rfl
@[simp] theorem State.setPort_rails (p : Nat) (v : Port) : (s.setPort p v).rails = s.rails := rfl
@[simp] theorem State.setPort_carrier (p : Nat) (v : Port) : (s.setPort p v).carrier = s.carrier := rfl
@[simp] theorem State.setPort_fol (p : Nat) (v : Port) : (s.setPort p v).fol = s.fol := rfl
@[simp] theorem State.setPort_twin (p : Nat) (v : Port) : (s.setPort p v).twin = s.twin := rfl
@[simp] theorem State.setPort_frames (p : Nat) (v : Port) : (s.setPort p v).frames = s.frames := rfl
@[simp] theorem State.setPort_rods (p : Nat) (v : Port) : (s.setPort p v).rods = s.rods := rfl
@[simp] theorem State.setPort_slots (p : Nat) (v : Port) : (s.setPort p v).slots = s.slots := rfl
@[simp] theorem State.setPort_rot (p : Nat) (v : Port) : (s.setPort p v).rot = s.rot := rfl
@[simp] theorem State.setPort_moves (p : Nat) (v : Port) : (s.setPort p v).moves = s.moves := rfl
@[simp] theorem State.setPort_tally (p : Nat) (v : Port) : (s.setPort p v).tally = s.tally := rfl
@[simp] theorem State.setPort_beam (p : Nat) (v : Port) : (s.setPort p v).beam = s.beam := rfl
@[simp] theorem State.setPort_ledger (p : Nat) (v : Port) : (s.setPort p v).ledger = s.ledger := rfl
@[simp] theorem State.setPort_dram (p : Nat) (v : Port) : (s.setPort p v).dram = s.dram := rfl
@[simp] theorem State.setPort_mem (p : Nat) (v : Port) : (s.setPort p v).mem = s.mem := rfl
@[simp] theorem State.setPort_gpio (p : Nat) (v : Port) : (s.setPort p v).gpio = s.gpio := rfl
@[simp] theorem State.setPort_events (p : Nat) (v : Port) : (s.setPort p v).events = s.events := rfl
@[simp] theorem State.setPort_draws (p : Nat) (v : Port) : (s.setPort p v).draws = s.draws := rfl
@[simp] theorem State.setPort_out (p : Nat) (v : Port) : (s.setPort p v).out = s.out := rfl
@[simp] theorem State.setPort_pending (p : Nat) (v : Port) : (s.setPort p v).pending = s.pending := rfl

/-! The update of an object -/

@[simp] theorem setObj_power (o : Nat) (v : Obj) : (setObj s o v).power = s.power := rfl
@[simp] theorem setObj_clk (o : Nat) (v : Obj) : (setObj s o v).clk = s.clk := rfl
@[simp] theorem setObj_time (o : Nat) (v : Obj) : (setObj s o v).time = s.time := rfl
@[simp] theorem setObj_sup (o : Nat) (v : Obj) : (setObj s o v).sup = s.sup := rfl
@[simp] theorem setObj_nv (o : Nat) (v : Obj) : (setObj s o v).nv = s.nv := rfl
@[simp] theorem setObj_keys (o : Nat) (v : Obj) : (setObj s o v).keys = s.keys := rfl
@[simp] theorem setObj_upd (o : Nat) (v : Obj) : (setObj s o v).upd = s.upd := rfl
@[simp] theorem setObj_dict (o : Nat) (v : Obj) : (setObj s o v).dict = s.dict := rfl
@[simp] theorem setObj_dom (o : Nat) (v : Obj) : (setObj s o v).dom = s.dom := rfl
@[simp] theorem setObj_hist (o : Nat) (v : Obj) : (setObj s o v).hist = s.hist := rfl
@[simp] theorem setObj_domHist (o : Nat) (v : Obj) : (setObj s o v).domHist = s.domHist := rfl
@[simp] theorem setObj_stat (o : Nat) (v : Obj) : (setObj s o v).stat = s.stat := rfl
@[simp] theorem setObj_statB (o : Nat) (v : Obj) : (setObj s o v).statB = s.statB := rfl
@[simp] theorem setObj_pend (o : Nat) (v : Obj) : (setObj s o v).pend = s.pend := rfl
@[simp] theorem setObj_todo (o : Nat) (v : Obj) : (setObj s o v).todo = s.todo := rfl
@[simp] theorem setObj_drift (o : Nat) (v : Obj) : (setObj s o v).drift = s.drift := rfl
@[simp] theorem setObj_ports (o : Nat) (v : Obj) : (setObj s o v).ports = s.ports := rfl
@[simp] theorem setObj_seen (o : Nat) (v : Obj) : (setObj s o v).seen = s.seen := rfl
@[simp] theorem setObj_byp (o : Nat) (v : Obj) : (setObj s o v).byp = s.byp := rfl
@[simp] theorem setObj_rx (o : Nat) (v : Obj) : (setObj s o v).rx = s.rx := rfl
@[simp] theorem setObj_tx (o : Nat) (v : Obj) : (setObj s o v).tx = s.tx := rfl
@[simp] theorem setObj_aesIn (o : Nat) (v : Obj) : (setObj s o v).aesIn = s.aesIn := rfl
@[simp] theorem setObj_aesOut (o : Nat) (v : Obj) : (setObj s o v).aesOut = s.aesOut := rfl
@[simp] theorem setObj_pdm (o : Nat) (v : Obj) : (setObj s o v).pdm = s.pdm := rfl
@[simp] theorem setObj_drives (o : Nat) (v : Obj) : (setObj s o v).drives = s.drives := rfl
@[simp] theorem setObj_rails (o : Nat) (v : Obj) : (setObj s o v).rails = s.rails := rfl
@[simp] theorem setObj_carrier (o : Nat) (v : Obj) : (setObj s o v).carrier = s.carrier := rfl
@[simp] theorem setObj_fol (o : Nat) (v : Obj) : (setObj s o v).fol = s.fol := rfl
@[simp] theorem setObj_twin (o : Nat) (v : Obj) : (setObj s o v).twin = s.twin := rfl
@[simp] theorem setObj_frames (o : Nat) (v : Obj) : (setObj s o v).frames = s.frames := rfl
@[simp] theorem setObj_rods (o : Nat) (v : Obj) : (setObj s o v).rods = s.rods := rfl
@[simp] theorem setObj_slots (o : Nat) (v : Obj) : (setObj s o v).slots = s.slots := rfl
@[simp] theorem setObj_rot (o : Nat) (v : Obj) : (setObj s o v).rot = s.rot := rfl
@[simp] theorem setObj_moves (o : Nat) (v : Obj) : (setObj s o v).moves = s.moves := rfl
@[simp] theorem setObj_tally (o : Nat) (v : Obj) : (setObj s o v).tally = s.tally := rfl
@[simp] theorem setObj_beam (o : Nat) (v : Obj) : (setObj s o v).beam = s.beam := rfl
@[simp] theorem setObj_ledger (o : Nat) (v : Obj) : (setObj s o v).ledger = s.ledger := rfl
@[simp] theorem setObj_dram (o : Nat) (v : Obj) : (setObj s o v).dram = s.dram := rfl
@[simp] theorem setObj_mem (o : Nat) (v : Obj) : (setObj s o v).mem = s.mem := rfl
@[simp] theorem setObj_gpio (o : Nat) (v : Obj) : (setObj s o v).gpio = s.gpio := rfl
@[simp] theorem setObj_events (o : Nat) (v : Obj) : (setObj s o v).events = s.events := rfl
@[simp] theorem setObj_draws (o : Nat) (v : Obj) : (setObj s o v).draws = s.draws := rfl
@[simp] theorem setObj_out (o : Nat) (v : Obj) : (setObj s o v).out = s.out := rfl
@[simp] theorem setObj_pending (o : Nat) (v : Obj) : (setObj s o v).pending = s.pending := rfl

/-! The update of a Frame -/

@[simp] theorem setFrame_power (f : Nat) (v : FrameState) : (setFrame s f v).power = s.power := rfl
@[simp] theorem setFrame_clk (f : Nat) (v : FrameState) : (setFrame s f v).clk = s.clk := rfl
@[simp] theorem setFrame_time (f : Nat) (v : FrameState) : (setFrame s f v).time = s.time := rfl
@[simp] theorem setFrame_sup (f : Nat) (v : FrameState) : (setFrame s f v).sup = s.sup := rfl
@[simp] theorem setFrame_nv (f : Nat) (v : FrameState) : (setFrame s f v).nv = s.nv := rfl
@[simp] theorem setFrame_keys (f : Nat) (v : FrameState) : (setFrame s f v).keys = s.keys := rfl
@[simp] theorem setFrame_upd (f : Nat) (v : FrameState) : (setFrame s f v).upd = s.upd := rfl
@[simp] theorem setFrame_dict (f : Nat) (v : FrameState) : (setFrame s f v).dict = s.dict := rfl
@[simp] theorem setFrame_dom (f : Nat) (v : FrameState) : (setFrame s f v).dom = s.dom := rfl
@[simp] theorem setFrame_hist (f : Nat) (v : FrameState) : (setFrame s f v).hist = s.hist := rfl
@[simp] theorem setFrame_domHist (f : Nat) (v : FrameState) : (setFrame s f v).domHist = s.domHist := rfl
@[simp] theorem setFrame_stat (f : Nat) (v : FrameState) : (setFrame s f v).stat = s.stat := rfl
@[simp] theorem setFrame_statB (f : Nat) (v : FrameState) : (setFrame s f v).statB = s.statB := rfl
@[simp] theorem setFrame_pend (f : Nat) (v : FrameState) : (setFrame s f v).pend = s.pend := rfl
@[simp] theorem setFrame_todo (f : Nat) (v : FrameState) : (setFrame s f v).todo = s.todo := rfl
@[simp] theorem setFrame_pipe (f : Nat) (v : FrameState) : (setFrame s f v).pipe = s.pipe := rfl
@[simp] theorem setFrame_drift (f : Nat) (v : FrameState) : (setFrame s f v).drift = s.drift := rfl
@[simp] theorem setFrame_ports (f : Nat) (v : FrameState) : (setFrame s f v).ports = s.ports := rfl
@[simp] theorem setFrame_seen (f : Nat) (v : FrameState) : (setFrame s f v).seen = s.seen := rfl
@[simp] theorem setFrame_byp (f : Nat) (v : FrameState) : (setFrame s f v).byp = s.byp := rfl
@[simp] theorem setFrame_rx (f : Nat) (v : FrameState) : (setFrame s f v).rx = s.rx := rfl
@[simp] theorem setFrame_tx (f : Nat) (v : FrameState) : (setFrame s f v).tx = s.tx := rfl
@[simp] theorem setFrame_aesIn (f : Nat) (v : FrameState) : (setFrame s f v).aesIn = s.aesIn := rfl
@[simp] theorem setFrame_aesOut (f : Nat) (v : FrameState) : (setFrame s f v).aesOut = s.aesOut := rfl
@[simp] theorem setFrame_pdm (f : Nat) (v : FrameState) : (setFrame s f v).pdm = s.pdm := rfl
@[simp] theorem setFrame_drives (f : Nat) (v : FrameState) : (setFrame s f v).drives = s.drives := rfl
@[simp] theorem setFrame_rails (f : Nat) (v : FrameState) : (setFrame s f v).rails = s.rails := rfl
@[simp] theorem setFrame_carrier (f : Nat) (v : FrameState) : (setFrame s f v).carrier = s.carrier := rfl
@[simp] theorem setFrame_fol (f : Nat) (v : FrameState) : (setFrame s f v).fol = s.fol := rfl
@[simp] theorem setFrame_twin (f : Nat) (v : FrameState) : (setFrame s f v).twin = s.twin := rfl
@[simp] theorem setFrame_rods (f : Nat) (v : FrameState) : (setFrame s f v).rods = s.rods := rfl
@[simp] theorem setFrame_slots (f : Nat) (v : FrameState) : (setFrame s f v).slots = s.slots := rfl
@[simp] theorem setFrame_rot (f : Nat) (v : FrameState) : (setFrame s f v).rot = s.rot := rfl
@[simp] theorem setFrame_moves (f : Nat) (v : FrameState) : (setFrame s f v).moves = s.moves := rfl
@[simp] theorem setFrame_tally (f : Nat) (v : FrameState) : (setFrame s f v).tally = s.tally := rfl
@[simp] theorem setFrame_beam (f : Nat) (v : FrameState) : (setFrame s f v).beam = s.beam := rfl
@[simp] theorem setFrame_ledger (f : Nat) (v : FrameState) : (setFrame s f v).ledger = s.ledger := rfl
@[simp] theorem setFrame_dram (f : Nat) (v : FrameState) : (setFrame s f v).dram = s.dram := rfl
@[simp] theorem setFrame_mem (f : Nat) (v : FrameState) : (setFrame s f v).mem = s.mem := rfl
@[simp] theorem setFrame_gpio (f : Nat) (v : FrameState) : (setFrame s f v).gpio = s.gpio := rfl
@[simp] theorem setFrame_events (f : Nat) (v : FrameState) : (setFrame s f v).events = s.events := rfl
@[simp] theorem setFrame_draws (f : Nat) (v : FrameState) : (setFrame s f v).draws = s.draws := rfl
@[simp] theorem setFrame_out (f : Nat) (v : FrameState) : (setFrame s f v).out = s.out := rfl
@[simp] theorem setFrame_pending (f : Nat) (v : FrameState) : (setFrame s f v).pending = s.pending := rfl

/-! The update of a user slot -/

@[simp] theorem setSlot_power (u : Nat) (v : UserSlot) : (setSlot s u v).power = s.power := rfl
@[simp] theorem setSlot_clk (u : Nat) (v : UserSlot) : (setSlot s u v).clk = s.clk := rfl
@[simp] theorem setSlot_time (u : Nat) (v : UserSlot) : (setSlot s u v).time = s.time := rfl
@[simp] theorem setSlot_sup (u : Nat) (v : UserSlot) : (setSlot s u v).sup = s.sup := rfl
@[simp] theorem setSlot_nv (u : Nat) (v : UserSlot) : (setSlot s u v).nv = s.nv := rfl
@[simp] theorem setSlot_keys (u : Nat) (v : UserSlot) : (setSlot s u v).keys = s.keys := rfl
@[simp] theorem setSlot_upd (u : Nat) (v : UserSlot) : (setSlot s u v).upd = s.upd := rfl
@[simp] theorem setSlot_dict (u : Nat) (v : UserSlot) : (setSlot s u v).dict = s.dict := rfl
@[simp] theorem setSlot_dom (u : Nat) (v : UserSlot) : (setSlot s u v).dom = s.dom := rfl
@[simp] theorem setSlot_hist (u : Nat) (v : UserSlot) : (setSlot s u v).hist = s.hist := rfl
@[simp] theorem setSlot_domHist (u : Nat) (v : UserSlot) : (setSlot s u v).domHist = s.domHist := rfl
@[simp] theorem setSlot_stat (u : Nat) (v : UserSlot) : (setSlot s u v).stat = s.stat := rfl
@[simp] theorem setSlot_statB (u : Nat) (v : UserSlot) : (setSlot s u v).statB = s.statB := rfl
@[simp] theorem setSlot_pend (u : Nat) (v : UserSlot) : (setSlot s u v).pend = s.pend := rfl
@[simp] theorem setSlot_todo (u : Nat) (v : UserSlot) : (setSlot s u v).todo = s.todo := rfl
@[simp] theorem setSlot_pipe (u : Nat) (v : UserSlot) : (setSlot s u v).pipe = s.pipe := rfl
@[simp] theorem setSlot_drift (u : Nat) (v : UserSlot) : (setSlot s u v).drift = s.drift := rfl
@[simp] theorem setSlot_ports (u : Nat) (v : UserSlot) : (setSlot s u v).ports = s.ports := rfl
@[simp] theorem setSlot_seen (u : Nat) (v : UserSlot) : (setSlot s u v).seen = s.seen := rfl
@[simp] theorem setSlot_byp (u : Nat) (v : UserSlot) : (setSlot s u v).byp = s.byp := rfl
@[simp] theorem setSlot_rx (u : Nat) (v : UserSlot) : (setSlot s u v).rx = s.rx := rfl
@[simp] theorem setSlot_tx (u : Nat) (v : UserSlot) : (setSlot s u v).tx = s.tx := rfl
@[simp] theorem setSlot_aesIn (u : Nat) (v : UserSlot) : (setSlot s u v).aesIn = s.aesIn := rfl
@[simp] theorem setSlot_aesOut (u : Nat) (v : UserSlot) : (setSlot s u v).aesOut = s.aesOut := rfl
@[simp] theorem setSlot_pdm (u : Nat) (v : UserSlot) : (setSlot s u v).pdm = s.pdm := rfl
@[simp] theorem setSlot_drives (u : Nat) (v : UserSlot) : (setSlot s u v).drives = s.drives := rfl
@[simp] theorem setSlot_rails (u : Nat) (v : UserSlot) : (setSlot s u v).rails = s.rails := rfl
@[simp] theorem setSlot_carrier (u : Nat) (v : UserSlot) : (setSlot s u v).carrier = s.carrier := rfl
@[simp] theorem setSlot_fol (u : Nat) (v : UserSlot) : (setSlot s u v).fol = s.fol := rfl
@[simp] theorem setSlot_twin (u : Nat) (v : UserSlot) : (setSlot s u v).twin = s.twin := rfl
@[simp] theorem setSlot_frames (u : Nat) (v : UserSlot) : (setSlot s u v).frames = s.frames := rfl
@[simp] theorem setSlot_rods (u : Nat) (v : UserSlot) : (setSlot s u v).rods = s.rods := rfl
@[simp] theorem setSlot_rot (u : Nat) (v : UserSlot) : (setSlot s u v).rot = s.rot := rfl
@[simp] theorem setSlot_moves (u : Nat) (v : UserSlot) : (setSlot s u v).moves = s.moves := rfl
@[simp] theorem setSlot_tally (u : Nat) (v : UserSlot) : (setSlot s u v).tally = s.tally := rfl
@[simp] theorem setSlot_beam (u : Nat) (v : UserSlot) : (setSlot s u v).beam = s.beam := rfl
@[simp] theorem setSlot_ledger (u : Nat) (v : UserSlot) : (setSlot s u v).ledger = s.ledger := rfl
@[simp] theorem setSlot_dram (u : Nat) (v : UserSlot) : (setSlot s u v).dram = s.dram := rfl
@[simp] theorem setSlot_mem (u : Nat) (v : UserSlot) : (setSlot s u v).mem = s.mem := rfl
@[simp] theorem setSlot_gpio (u : Nat) (v : UserSlot) : (setSlot s u v).gpio = s.gpio := rfl
@[simp] theorem setSlot_events (u : Nat) (v : UserSlot) : (setSlot s u v).events = s.events := rfl
@[simp] theorem setSlot_draws (u : Nat) (v : UserSlot) : (setSlot s u v).draws = s.draws := rfl
@[simp] theorem setSlot_out (u : Nat) (v : UserSlot) : (setSlot s u v).out = s.out := rfl
@[simp] theorem setSlot_pending (u : Nat) (v : UserSlot) : (setSlot s u v).pending = s.pending := rfl

/-! The update of a receive slot -/

@[simp] theorem setRx_power (i : Nat) (v : RxSlot) : (setRx s i v).power = s.power := rfl
@[simp] theorem setRx_clk (i : Nat) (v : RxSlot) : (setRx s i v).clk = s.clk := rfl
@[simp] theorem setRx_time (i : Nat) (v : RxSlot) : (setRx s i v).time = s.time := rfl
@[simp] theorem setRx_sup (i : Nat) (v : RxSlot) : (setRx s i v).sup = s.sup := rfl
@[simp] theorem setRx_nv (i : Nat) (v : RxSlot) : (setRx s i v).nv = s.nv := rfl
@[simp] theorem setRx_keys (i : Nat) (v : RxSlot) : (setRx s i v).keys = s.keys := rfl
@[simp] theorem setRx_upd (i : Nat) (v : RxSlot) : (setRx s i v).upd = s.upd := rfl
@[simp] theorem setRx_dict (i : Nat) (v : RxSlot) : (setRx s i v).dict = s.dict := rfl
@[simp] theorem setRx_dom (i : Nat) (v : RxSlot) : (setRx s i v).dom = s.dom := rfl
@[simp] theorem setRx_hist (i : Nat) (v : RxSlot) : (setRx s i v).hist = s.hist := rfl
@[simp] theorem setRx_domHist (i : Nat) (v : RxSlot) : (setRx s i v).domHist = s.domHist := rfl
@[simp] theorem setRx_stat (i : Nat) (v : RxSlot) : (setRx s i v).stat = s.stat := rfl
@[simp] theorem setRx_statB (i : Nat) (v : RxSlot) : (setRx s i v).statB = s.statB := rfl
@[simp] theorem setRx_pend (i : Nat) (v : RxSlot) : (setRx s i v).pend = s.pend := rfl
@[simp] theorem setRx_todo (i : Nat) (v : RxSlot) : (setRx s i v).todo = s.todo := rfl
@[simp] theorem setRx_pipe (i : Nat) (v : RxSlot) : (setRx s i v).pipe = s.pipe := rfl
@[simp] theorem setRx_drift (i : Nat) (v : RxSlot) : (setRx s i v).drift = s.drift := rfl
@[simp] theorem setRx_ports (i : Nat) (v : RxSlot) : (setRx s i v).ports = s.ports := rfl
@[simp] theorem setRx_seen (i : Nat) (v : RxSlot) : (setRx s i v).seen = s.seen := rfl
@[simp] theorem setRx_byp (i : Nat) (v : RxSlot) : (setRx s i v).byp = s.byp := rfl
@[simp] theorem setRx_tx (i : Nat) (v : RxSlot) : (setRx s i v).tx = s.tx := rfl
@[simp] theorem setRx_aesIn (i : Nat) (v : RxSlot) : (setRx s i v).aesIn = s.aesIn := rfl
@[simp] theorem setRx_aesOut (i : Nat) (v : RxSlot) : (setRx s i v).aesOut = s.aesOut := rfl
@[simp] theorem setRx_pdm (i : Nat) (v : RxSlot) : (setRx s i v).pdm = s.pdm := rfl
@[simp] theorem setRx_drives (i : Nat) (v : RxSlot) : (setRx s i v).drives = s.drives := rfl
@[simp] theorem setRx_rails (i : Nat) (v : RxSlot) : (setRx s i v).rails = s.rails := rfl
@[simp] theorem setRx_carrier (i : Nat) (v : RxSlot) : (setRx s i v).carrier = s.carrier := rfl
@[simp] theorem setRx_fol (i : Nat) (v : RxSlot) : (setRx s i v).fol = s.fol := rfl
@[simp] theorem setRx_twin (i : Nat) (v : RxSlot) : (setRx s i v).twin = s.twin := rfl
@[simp] theorem setRx_frames (i : Nat) (v : RxSlot) : (setRx s i v).frames = s.frames := rfl
@[simp] theorem setRx_rods (i : Nat) (v : RxSlot) : (setRx s i v).rods = s.rods := rfl
@[simp] theorem setRx_slots (i : Nat) (v : RxSlot) : (setRx s i v).slots = s.slots := rfl
@[simp] theorem setRx_rot (i : Nat) (v : RxSlot) : (setRx s i v).rot = s.rot := rfl
@[simp] theorem setRx_moves (i : Nat) (v : RxSlot) : (setRx s i v).moves = s.moves := rfl
@[simp] theorem setRx_tally (i : Nat) (v : RxSlot) : (setRx s i v).tally = s.tally := rfl
@[simp] theorem setRx_beam (i : Nat) (v : RxSlot) : (setRx s i v).beam = s.beam := rfl
@[simp] theorem setRx_ledger (i : Nat) (v : RxSlot) : (setRx s i v).ledger = s.ledger := rfl
@[simp] theorem setRx_dram (i : Nat) (v : RxSlot) : (setRx s i v).dram = s.dram := rfl
@[simp] theorem setRx_mem (i : Nat) (v : RxSlot) : (setRx s i v).mem = s.mem := rfl
@[simp] theorem setRx_gpio (i : Nat) (v : RxSlot) : (setRx s i v).gpio = s.gpio := rfl
@[simp] theorem setRx_events (i : Nat) (v : RxSlot) : (setRx s i v).events = s.events := rfl
@[simp] theorem setRx_draws (i : Nat) (v : RxSlot) : (setRx s i v).draws = s.draws := rfl
@[simp] theorem setRx_out (i : Nat) (v : RxSlot) : (setRx s i v).out = s.out := rfl
@[simp] theorem setRx_pending (i : Nat) (v : RxSlot) : (setRx s i v).pending = s.pending := rfl

/-! The update of an AES3 input -/

@[simp] theorem setAes_power (i : Nat) (v : AesIn) : (setAes s i v).power = s.power := rfl
@[simp] theorem setAes_clk (i : Nat) (v : AesIn) : (setAes s i v).clk = s.clk := rfl
@[simp] theorem setAes_time (i : Nat) (v : AesIn) : (setAes s i v).time = s.time := rfl
@[simp] theorem setAes_sup (i : Nat) (v : AesIn) : (setAes s i v).sup = s.sup := rfl
@[simp] theorem setAes_nv (i : Nat) (v : AesIn) : (setAes s i v).nv = s.nv := rfl
@[simp] theorem setAes_keys (i : Nat) (v : AesIn) : (setAes s i v).keys = s.keys := rfl
@[simp] theorem setAes_upd (i : Nat) (v : AesIn) : (setAes s i v).upd = s.upd := rfl
@[simp] theorem setAes_dict (i : Nat) (v : AesIn) : (setAes s i v).dict = s.dict := rfl
@[simp] theorem setAes_dom (i : Nat) (v : AesIn) : (setAes s i v).dom = s.dom := rfl
@[simp] theorem setAes_hist (i : Nat) (v : AesIn) : (setAes s i v).hist = s.hist := rfl
@[simp] theorem setAes_domHist (i : Nat) (v : AesIn) : (setAes s i v).domHist = s.domHist := rfl
@[simp] theorem setAes_stat (i : Nat) (v : AesIn) : (setAes s i v).stat = s.stat := rfl
@[simp] theorem setAes_statB (i : Nat) (v : AesIn) : (setAes s i v).statB = s.statB := rfl
@[simp] theorem setAes_pend (i : Nat) (v : AesIn) : (setAes s i v).pend = s.pend := rfl
@[simp] theorem setAes_todo (i : Nat) (v : AesIn) : (setAes s i v).todo = s.todo := rfl
@[simp] theorem setAes_pipe (i : Nat) (v : AesIn) : (setAes s i v).pipe = s.pipe := rfl
@[simp] theorem setAes_drift (i : Nat) (v : AesIn) : (setAes s i v).drift = s.drift := rfl
@[simp] theorem setAes_ports (i : Nat) (v : AesIn) : (setAes s i v).ports = s.ports := rfl
@[simp] theorem setAes_seen (i : Nat) (v : AesIn) : (setAes s i v).seen = s.seen := rfl
@[simp] theorem setAes_byp (i : Nat) (v : AesIn) : (setAes s i v).byp = s.byp := rfl
@[simp] theorem setAes_rx (i : Nat) (v : AesIn) : (setAes s i v).rx = s.rx := rfl
@[simp] theorem setAes_tx (i : Nat) (v : AesIn) : (setAes s i v).tx = s.tx := rfl
@[simp] theorem setAes_aesOut (i : Nat) (v : AesIn) : (setAes s i v).aesOut = s.aesOut := rfl
@[simp] theorem setAes_pdm (i : Nat) (v : AesIn) : (setAes s i v).pdm = s.pdm := rfl
@[simp] theorem setAes_drives (i : Nat) (v : AesIn) : (setAes s i v).drives = s.drives := rfl
@[simp] theorem setAes_rails (i : Nat) (v : AesIn) : (setAes s i v).rails = s.rails := rfl
@[simp] theorem setAes_carrier (i : Nat) (v : AesIn) : (setAes s i v).carrier = s.carrier := rfl
@[simp] theorem setAes_fol (i : Nat) (v : AesIn) : (setAes s i v).fol = s.fol := rfl
@[simp] theorem setAes_twin (i : Nat) (v : AesIn) : (setAes s i v).twin = s.twin := rfl
@[simp] theorem setAes_frames (i : Nat) (v : AesIn) : (setAes s i v).frames = s.frames := rfl
@[simp] theorem setAes_rods (i : Nat) (v : AesIn) : (setAes s i v).rods = s.rods := rfl
@[simp] theorem setAes_slots (i : Nat) (v : AesIn) : (setAes s i v).slots = s.slots := rfl
@[simp] theorem setAes_rot (i : Nat) (v : AesIn) : (setAes s i v).rot = s.rot := rfl
@[simp] theorem setAes_moves (i : Nat) (v : AesIn) : (setAes s i v).moves = s.moves := rfl
@[simp] theorem setAes_tally (i : Nat) (v : AesIn) : (setAes s i v).tally = s.tally := rfl
@[simp] theorem setAes_beam (i : Nat) (v : AesIn) : (setAes s i v).beam = s.beam := rfl
@[simp] theorem setAes_ledger (i : Nat) (v : AesIn) : (setAes s i v).ledger = s.ledger := rfl
@[simp] theorem setAes_dram (i : Nat) (v : AesIn) : (setAes s i v).dram = s.dram := rfl
@[simp] theorem setAes_mem (i : Nat) (v : AesIn) : (setAes s i v).mem = s.mem := rfl
@[simp] theorem setAes_gpio (i : Nat) (v : AesIn) : (setAes s i v).gpio = s.gpio := rfl
@[simp] theorem setAes_events (i : Nat) (v : AesIn) : (setAes s i v).events = s.events := rfl
@[simp] theorem setAes_draws (i : Nat) (v : AesIn) : (setAes s i v).draws = s.draws := rfl
@[simp] theorem setAes_out (i : Nat) (v : AesIn) : (setAes s i v).out = s.out := rfl
@[simp] theorem setAes_pending (i : Nat) (v : AesIn) : (setAes s i v).pending = s.pending := rfl

/-! The update of a rail group -/

@[simp] theorem setRail_power (g : Nat) (v : Rail) : (setRail s g v).power = s.power := rfl
@[simp] theorem setRail_clk (g : Nat) (v : Rail) : (setRail s g v).clk = s.clk := rfl
@[simp] theorem setRail_time (g : Nat) (v : Rail) : (setRail s g v).time = s.time := rfl
@[simp] theorem setRail_sup (g : Nat) (v : Rail) : (setRail s g v).sup = s.sup := rfl
@[simp] theorem setRail_nv (g : Nat) (v : Rail) : (setRail s g v).nv = s.nv := rfl
@[simp] theorem setRail_keys (g : Nat) (v : Rail) : (setRail s g v).keys = s.keys := rfl
@[simp] theorem setRail_upd (g : Nat) (v : Rail) : (setRail s g v).upd = s.upd := rfl
@[simp] theorem setRail_dict (g : Nat) (v : Rail) : (setRail s g v).dict = s.dict := rfl
@[simp] theorem setRail_dom (g : Nat) (v : Rail) : (setRail s g v).dom = s.dom := rfl
@[simp] theorem setRail_hist (g : Nat) (v : Rail) : (setRail s g v).hist = s.hist := rfl
@[simp] theorem setRail_domHist (g : Nat) (v : Rail) : (setRail s g v).domHist = s.domHist := rfl
@[simp] theorem setRail_stat (g : Nat) (v : Rail) : (setRail s g v).stat = s.stat := rfl
@[simp] theorem setRail_statB (g : Nat) (v : Rail) : (setRail s g v).statB = s.statB := rfl
@[simp] theorem setRail_pend (g : Nat) (v : Rail) : (setRail s g v).pend = s.pend := rfl
@[simp] theorem setRail_todo (g : Nat) (v : Rail) : (setRail s g v).todo = s.todo := rfl
@[simp] theorem setRail_pipe (g : Nat) (v : Rail) : (setRail s g v).pipe = s.pipe := rfl
@[simp] theorem setRail_drift (g : Nat) (v : Rail) : (setRail s g v).drift = s.drift := rfl
@[simp] theorem setRail_ports (g : Nat) (v : Rail) : (setRail s g v).ports = s.ports := rfl
@[simp] theorem setRail_seen (g : Nat) (v : Rail) : (setRail s g v).seen = s.seen := rfl
@[simp] theorem setRail_byp (g : Nat) (v : Rail) : (setRail s g v).byp = s.byp := rfl
@[simp] theorem setRail_rx (g : Nat) (v : Rail) : (setRail s g v).rx = s.rx := rfl
@[simp] theorem setRail_tx (g : Nat) (v : Rail) : (setRail s g v).tx = s.tx := rfl
@[simp] theorem setRail_aesIn (g : Nat) (v : Rail) : (setRail s g v).aesIn = s.aesIn := rfl
@[simp] theorem setRail_aesOut (g : Nat) (v : Rail) : (setRail s g v).aesOut = s.aesOut := rfl
@[simp] theorem setRail_pdm (g : Nat) (v : Rail) : (setRail s g v).pdm = s.pdm := rfl
@[simp] theorem setRail_drives (g : Nat) (v : Rail) : (setRail s g v).drives = s.drives := rfl
@[simp] theorem setRail_carrier (g : Nat) (v : Rail) : (setRail s g v).carrier = s.carrier := rfl
@[simp] theorem setRail_fol (g : Nat) (v : Rail) : (setRail s g v).fol = s.fol := rfl
@[simp] theorem setRail_twin (g : Nat) (v : Rail) : (setRail s g v).twin = s.twin := rfl
@[simp] theorem setRail_frames (g : Nat) (v : Rail) : (setRail s g v).frames = s.frames := rfl
@[simp] theorem setRail_rods (g : Nat) (v : Rail) : (setRail s g v).rods = s.rods := rfl
@[simp] theorem setRail_slots (g : Nat) (v : Rail) : (setRail s g v).slots = s.slots := rfl
@[simp] theorem setRail_rot (g : Nat) (v : Rail) : (setRail s g v).rot = s.rot := rfl
@[simp] theorem setRail_moves (g : Nat) (v : Rail) : (setRail s g v).moves = s.moves := rfl
@[simp] theorem setRail_tally (g : Nat) (v : Rail) : (setRail s g v).tally = s.tally := rfl
@[simp] theorem setRail_beam (g : Nat) (v : Rail) : (setRail s g v).beam = s.beam := rfl
@[simp] theorem setRail_ledger (g : Nat) (v : Rail) : (setRail s g v).ledger = s.ledger := rfl
@[simp] theorem setRail_dram (g : Nat) (v : Rail) : (setRail s g v).dram = s.dram := rfl
@[simp] theorem setRail_mem (g : Nat) (v : Rail) : (setRail s g v).mem = s.mem := rfl
@[simp] theorem setRail_gpio (g : Nat) (v : Rail) : (setRail s g v).gpio = s.gpio := rfl
@[simp] theorem setRail_events (g : Nat) (v : Rail) : (setRail s g v).events = s.events := rfl
@[simp] theorem setRail_draws (g : Nat) (v : Rail) : (setRail s g v).draws = s.draws := rfl
@[simp] theorem setRail_out (g : Nat) (v : Rail) : (setRail s g v).out = s.out := rfl
@[simp] theorem setRail_pending (g : Nat) (v : Rail) : (setRail s g v).pending = s.pending := rfl

/-! What was written is read back, and nothing beside it -/

@[simp] theorem drive_setDrive (n : Nat) (v : Drive) (k : Nat) : (s.setDrive n v).drive k = if k = n then v else s.drive k :=
  mget_mset ..

@[simp] theorem feed_setFeed (f : Nat) (v : FeedSt) (k : Nat) : (s.setFeed f v).feed k = if k = f then v else s.feed k :=
  mget_mset ..

@[simp] theorem queue_setQueue (q : Nat) (v : Queue) (k : Nat) : (s.setQueue q v).queue k = if k = q then v else s.queue k :=
  mget_mset ..

@[simp] theorem port_setPort (p : Nat) (v : Port) (k : Nat) : (s.setPort p v).port k = if k = p then v else s.port k :=
  mget_mset ..

@[simp] theorem val_put (d i sub v : Nat) : (s.put d i sub v).val d i sub = v :=
  mget_mset_self ..

@[simp] theorem stget_stset (d i sub v : Nat) : (s.stset d i sub v).stget d i sub = v :=
  mget_mset_self ..

end Sys2Proof.Machine
end

