-- ==== Sys2Proof/WellFormed.lean ====
section
/-! DEFINITION. Which commands are well formed: every operand within the range that the spec gives it (R6 numbers the
instances; R16 bounds an instant in a tick; R201 gives the fields of a Rod word; R411, R255, R322 the layouts). `exec` is
total and meets an ill-formed command as the Ops say; the statements about commands name the range they need. -/
namespace Sys2Proof

/-- An instant within a tick: at most 333,333 ns after its boundary (R16). -/
def instantOk (at_ : Nat) : Bool := decide (at_ ≤ 333333)

/-- The vector operation's register fields fit their five bits (R201). -/
def VOp.wf : VOp → Bool
  | .nop => true
  | .vmov vd va => decide (vd < 32) && decide (va < 32)
  | .vadd vd va vb => decide (vd < 32) && decide (va < 32) && decide (vb < 32)
  | .vsub vd va vb => decide (vd < 32) && decide (va < 32) && decide (vb < 32)
  | .vaddw vd va vb => decide (vd < 32) && decide (va < 32) && decide (vb < 32)
  | .vsubw vd va vb => decide (vd < 32) && decide (va < 32) && decide (vb < 32)
  | .vmul vd va vb => decide (vd < 32) && decide (va < 32) && decide (vb < 32)
  | .vabs vd va => decide (vd < 32) && decide (va < 32)
  | .vneg vd va => decide (vd < 32) && decide (va < 32)
  | .vmin vd va vb => decide (vd < 32) && decide (va < 32) && decide (vb < 32)
  | .vmax vd va vb => decide (vd < 32) && decide (va < 32) && decide (vb < 32)
  | .vand vd va vb => decide (vd < 32) && decide (va < 32) && decide (vb < 32)
  | .vor vd va vb => decide (vd < 32) && decide (va < 32) && decide (vb < 32)
  | .vxor vd va vb => decide (vd < 32) && decide (va < 32) && decide (vb < 32)
  | .vnot vd va => decide (vd < 32) && decide (va < 32)
  | .vcmpgt vd va vb => decide (vd < 32) && decide (va < 32) && decide (vb < 32)
  | .vcmpeq vd va vb => decide (vd < 32) && decide (va < 32) && decide (vb < 32)
  | .vshl vd va n => decide (vd < 32) && decide (va < 32) && decide (n < 32)
  | .vshr vd va n => decide (vd < 32) && decide (va < 32) && decide (n < 32)
  | .vshrl vd va n => decide (vd < 32) && decide (va < 32) && decide (n < 32)
  | .vperm vd va vb => decide (vd < 32) && decide (va < 32) && decide (vb < 32)
  | .vbcst vd va n => decide (vd < 32) && decide (va < 32) && decide (n < 32)
  | .vmpy ac va vb => decide (ac < 32) && decide (va < 32) && decide (vb < 32)
  | .vmac ac va vb => decide (ac < 32) && decide (va < 32) && decide (vb < 32)
  | .vmsu ac va vb => decide (ac < 32) && decide (va < 32) && decide (vb < 32)
  | .vclr ac => decide (ac < 32)
  | .vlift ac va => decide (ac < 32) && decide (va < 32)
  | .vaadd ac acs => decide (ac < 32) && decide (acs < 32)
  | .vasub ac acs => decide (ac < 32) && decide (acs < 32)
  | .vtrw ac => decide (ac < 32)
  | .vred ac => decide (ac < 32)
  | .vaex acs => decide (acs < 32)
  | .vrd vd acs n => decide (vd < 32) && decide (acs < 32) && decide (n < 32)
  | .vrdl vd acs => decide (vd < 32) && decide (acs < 32)
  | .vrdm vd acs => decide (vd < 32) && decide (acs < 32)
  | .vrdh vd acs => decide (vd < 32) && decide (acs < 32)
  | .vwra ac va vb => decide (ac < 32) && decide (va < 32) && decide (vb < 32)
  | .vwrh ac va => decide (ac < 32) && decide (va < 32)
  | .vrdx vd acs => decide (vd < 32) && decide (acs < 32)
  | .smax va => decide (va < 32)
  | .smin va => decide (va < 32)
  | .smaxa va => decide (va < 32)

/-- The load slot's fields fit theirs (R201). -/
def LdSlot.wf (l : LdSlot) : Bool := decide (l.v < 32) && decide (l.an < 16)

/-- The store slot's fields fit theirs (R201). -/
def StSlot.wf (t : StSlot) : Bool := decide (t.v < 32) && decide (t.an < 16)

/-- The update slot's fields fit theirs (R201). -/
def UpdSlot.wf (u : UpdSlot) : Bool := decide (u.an < 16) && decide (u.step < 4)

/-- All slots beside the vector operation (R201). -/
def Slots.wf (w : Slots) : Bool := w.ld.all LdSlot.wf && w.st.all StSlot.wf && w.u1.all UpdSlot.wf && w.u2.all UpdSlot.wf

/-- A datagram's destination address and port fit their fields. -/
def Datagram.wf (d : Datagram) : Bool := decide (d.dstIp < 2 ^ 32) && decide (d.dstPort < 65536)

/-- A ring frame's addresses fit 48 bits (R311). -/
def RingFrame.wf (f : RingFrame) : Bool := decide (f.srcMac < 2 ^ 48) && decide (f.dstMac < 2 ^ 48)

/-- An AES3 frame's audio fields fit 24 bits (R350). -/
def AesFrame.wf (f : AesFrame) : Bool := decide (f.a.audio < 2 ^ 24) && decide (f.b.audio < 2 ^ 24)

/-- The balls of a carrier period: channel and group numbers, 32 bits each, and 16 over-current balls (R384, R395). -/
def CarrierIn.wf (c : CarrierIn) : Bool :=
  c.sense.all (fun x => decide (x.ch < 16) && decide (x.v < 2 ^ 32) && decide (x.i < 2 ^ 32)) &&
    c.rails.all (fun r => decide (r.1 < 4) && decide (r.2 < 2 ^ 32)) && decide (c.oc < 65536)

/-- A heartbeat frame's fields fit the layout of R455. -/
def HbFrame.wf (f : HbFrame) : Bool :=
  decide (f.tick < 2 ^ 64) && decide (f.role < 256) && decide (f.sync < 256) && decide (f.twin < 256) && decide (f.flags < 256) &&
    decide (f.health < 2 ^ 32) && decide (f.markBlock < 2 ^ 64) && decide (f.markCause < 256) && decide (f.tstate < 256) &&
    decide (f.marks < 65536) && decide (f.ethertype < 65536) && decide (f.magic < 65536) && decide (f.version < 256) &&
    decide (f.kind < 256)

/-- Where an FOL frame comes from (R412): one of three ports, an IPv4 address. -/
def FolSrc.wf (p : FolSrc) : Bool := decide (p.port < 3) && decide (p.addr < 2 ^ 32) && decide (p.udp < 65536)

/-- An FOL frame's fields fit the layout of R411. -/
def FolFrame.wf (f : FolFrame) : Bool :=
  decide (f.op < 256) && decide (f.session < 2 ^ 32) && decide (f.seq < 2 ^ 32) && decide (f.index < 65536) &&
    decide (f.sub < 256) && decide (f.apply < 2 ^ 64)

/-- A forwarded write names an entry (R432). -/
def Forward.wf (f : Forward) : Bool := decide (f.index < 65536) && decide (f.sub < 256)

/-- A Beam burst's master and address (R254, R255). -/
def BeamReq.wf (r : BeamReq) : Bool := decide (r.master < 32) && decide (r.addr < 2 ^ 40)

/-- An upset names an aligned 64-bit word of the map and one of its bits (R270, R280). -/
def Upset.wf (u : Upset) : Bool := decide (u.addr % 8 = 0) && decide (u.addr < 2 ^ 40) && u.bit.all (fun b => decide (b < 72))

/-- Every operand within its range. -/
def Instr.wellFormed : Instr → Bool
  | .reset _ => true
  | .startInstant _ => true
  | .trialTimeout => true
  | .libraryRestoreDone => true
  | .brownout at_ _ => instantOk at_
  | .brownoutEnd at_ _ => instantOk at_
  | .powerGoodFall _ => true
  | .tickBoundary _ => true
  | .placementPublish at_ => instantOk at_
  | .spanDelivered at_ engine object feed => instantOk at_ && decide (engine < 18) && decide (object < 512) && decide (feed < 512)
  | .feedRender at_ feed => instantOk at_ && decide (feed < 512)
  | .ingressCommit _ pdm => pdm.all (fun p => decide (p.1 < 8))
  | .placementDeadline incomplete => incomplete.all (· < 512)
  | .delayMatrixDeadline => true
  | .outputBusDeadline incomplete userSlots => incomplete.all (· < 512) && userSlots.all (· < 16)
  | .egressDeadline slots aes drives => slots.all (· < 64) && aes.all (· < 16) && drives.all (· < 16)
  | .tallyPurge value => decide (value < 2 ^ 64)
  | .preparationComplete feed _ => decide (feed < 512)
  | .crossfadeEnd feed => decide (feed < 512)
  | .driftEstimateWindow est => est.all (fun e => decide (e.zone < 64) && decide (e.mic < 8))
  | .driftPublication => true
  | .driftPublicationReceived _ => true
  | .driftApply => true
  | .syncReceived at_ msg => instantOk at_ && decide (msg.port < 4)
  | .rebaseValuesReceived _ _ => true
  | .rebaseFallback => true
  | .rebaseApply => true
  | .announceReceived at_ msg => instantOk at_ && decide (msg.port < 4)
  | .qualificationEnd => true
  | .announceTimeout port => decide (port < 4)
  | .syncLoss => true
  | .delayMeasurementComplete port _ => decide (port < 4)
  | .ptpMessageSend port _ _ => decide (port < 4)
  | .pdelayReqReceived port _ _ => decide (port < 4)
  | .ptpTransit inPort outPort _ _ _ _ _ => decide (inPort < 2) && decide (outPort < 2)
  | .counterWrap => true
  | .tuCarryWrite value => decide (value < 2 ^ 32)
  | .carryLostClear => true
  | .comparatorFire at_ n => instantOk at_ && decide (n < 4)
  | .pulseWidthEnd at_ n => instantOk at_ && decide (n < 4)
  | .captureEdge at_ n _ => instantOk at_ && decide (n < 4)
  | .ringFrameReceived at_ port frame => instantOk at_ && decide (port < 2) && frame.wf
  | .linkLock port mode => decide (port < 4) && decide (mode < 4)
  | .linkLoss port => decide (port < 4)
  | .lineModeAlternate port => decide (port < 4)
  | .bypassDeadmanStarved => true
  | .automaticRejoin => true
  | .settleTimeEnd => true
  | .bypCtrlEnWrite _ => true
  | .bypCtrlFeed => true
  | .streamPacketReceived at_ port dgram => instantOk at_ && decide (port < 2) && dgram.wf
  | .shadowCutoff slot _ => decide (slot < 64)
  | .aes3FrameReceived at_ input frame => instantOk at_ && decide (input < 16) && frame.wf
  | .aes3NonAudioEnd input => decide (input < 16)
  | .aes3LockValuesReceived input _ => decide (input < 16)
  | .aes3LockApply input => decide (input < 16)
  | .aes3RhoDecision input _ => decide (input < 16)
  | .aes3NoSignal input => decide (input < 16)
  | .aes3RateWindow input => decide (input < 16)
  | .pdmStuck input => decide (input < 8)
  | .pdmStuckRecover input => decide (input < 8)
  | .carrierPeriod inp => inp.wf
  | .railStateChange group => decide (group < 4)
  | .overCurrentCut at_ channel _ => instantOk at_ && decide (channel < 16)
  | .driveShutdown channel => decide (channel < 16)
  | .senseStuck stream index => decide (stream < 3) && decide (index < 16)
  | .driveFaultItem channel => decide (channel < 16)
  | .drvMuteFaultRamp channel => decide (channel < 16)
  | .holdOffEnd channel => decide (channel < 16)
  | .retryCountReset channel => decide (channel < 16)
  | .driveStart channel => decide (channel < 16)
  | .driveStop channel => decide (channel < 16)
  | .driveGateChange at_ _ => instantOk at_
  | .heartbeatFrameReceived at_ frame => instantOk at_ && frame.wf
  | .twinEvaluation _ => true
  | .splitBrainSuspected => true
  | .actInCollision at_ => instantOk at_
  | .collisionTimeout _ => true
  | .actOutDeadmanStarved => true
  | .actOutClaim at_ _ => instantOk at_
  | .faultHandover => true
  | .activeFaultHandover => true
  | .joinImageComplete _ => true
  | .joinFillEnd _ => true
  | .joinCutInstall _ _ => true
  | .joinVerifyEnd => true
  | .folOpen at_ src frame => instantOk at_ && src.wf && frame.wf
  | .folClose at_ src frame => instantOk at_ && src.wf && frame.wf
  | .folRead at_ src frame => instantOk at_ && src.wf && frame.wf
  | .folWrite at_ src frame => instantOk at_ && src.wf && frame.wf
  | .folReadSeg at_ src frame => instantOk at_ && src.wf && frame.wf
  | .folWriteSeg at_ src frame => instantOk at_ && src.wf && frame.wf
  | .folXferAbort at_ src frame => instantOk at_ && src.wf && frame.wf
  | .folKeepalive at_ src frame => instantOk at_ && src.wf && frame.wf
  | .folIdent at_ src frame => instantOk at_ && src.wf && frame.wf
  | .sessionTimeout session => decide (session < 2 ^ 32)
  | .transferTimeout session => decide (session < 2 ^ 32)
  | .writeForwardReceived at_ fwd => instantOk at_ && fwd.wf
  | .writeVerdictReceived at_ _ code => instantOk at_ && decide (code < 2 ^ 32)
  | .verdictTimeout _ => true
  | .writeApply => true
  | .renderStart _ => true
  | .renderStop => true
  | .mediaRateChange _ => true
  | .clearMissRecords value => decide (value < 2 ^ 32)
  | .timeConfigWrite index sub value => decide (index < 65536) && decide (sub < 256) && decide (value < 2 ^ 64)
  | .pulseConfigWrite n sub value => decide (n < 4) && decide (sub < 256) && decide (value < 2 ^ 64)
  | .objectEnable object value => decide (object < 512) && decide (value < 2 ^ 32)
  | .keyframeWrite object _ => decide (object < 512)
  | .clearPlacementStatistics value => decide (value < 2 ^ 32)
  | .allocationWrite feed _ => decide (feed < 512)
  | .bankLoad feed bank _ => decide (feed < 512) && decide (bank < 2)
  | .bankSwitch feed bank => decide (feed < 512) && decide (bank < 2)
  | .correctionEnable feed value => decide (feed < 512) && decide (value < 2 ^ 32)
  | .clearMeters feed value => decide (feed < 512) && decide (value < 2 ^ 32)
  | .baselineCapture value => decide (value < 2 ^ 32)
  | .driftModeWrite _ => true
  | .rotateFrame frame => decide (frame < 8)
  | .rotationLoadComplete => true
  | .userSlotCopy slot => decide (slot < 16)
  | .retireFrame frame value => decide (frame < 8) && decide (value < 2 ^ 32)
  | .retireRod rod value => decide (rod < 64) && decide (value < 2 ^ 32)
  | .slotImageWrite slot _ => decide (slot < 16)
  | .slotEnable slot value => decide (slot < 16) && decide (value < 2 ^ 32)
  | .clearTallyStatistics value => decide (value < 2 ^ 32)
  | .ringParticipation value => decide (value < 2 ^ 32)
  | .slotChannelChange _ slot sub _ => decide (slot < 64) && decide (sub < 256)
  | .clearSlotStatistics slot value => decide (slot < 64) && decide (value < 2 ^ 32)
  | .pdmClockWrite value => decide (value < 2 ^ 32)
  | .pdmEnable input value => decide (input < 8) && decide (value < 2 ^ 32)
  | .aes3OutputChange output sub _ => decide (output < 16) && decide (sub < 256)
  | .driveEnable channel => decide (channel < 16)
  | .driveDisable channel => decide (channel < 16)
  | .clearLatch channel value => decide (channel < 16) && decide (value < 2 ^ 32)
  | .driveEnableGlobal value => decide (value < 2 ^ 32)
  | .clearRail group value => decide (group < 4) && decide (value < 2 ^ 32)
  | .handover value => decide (value < 2 ^ 32)
  | .isolate value => decide (value < 2 ^ 32)
  | .clearTwinStatistics value => decide (value < 2 ^ 32)
  | .clearFolStatistics value => decide (value < 2 ^ 32)
  | .managementAddressWrite sub value => decide (sub < 256) && decide (value < 2 ^ 32)
  | .gpioWrite sub value => decide (sub < 256) && decide (value < 2 ^ 32)
  | .shutdownSelfTest value _ => decide (value < 2 ^ 32)
  | .park value => decide (value < 2 ^ 32)
  | .unpark value _ _ => decide (value < 2 ^ 32)
  | .targetedTest value _ _ => decide (value < 2 ^ 32)
  | .thermalLevelChange at_ _ => instantOk at_
  | .thermalTrip _ => true
  | .provision value => decide (value < 2 ^ 32)
  | .deploy value => decide (value < 2 ^ 32)
  | .openModule _ _ => true
  | .retireModule _ _ => true
  | .levelKeyWrite level _ => decide (level < 6)
  | .showKeyWrite slot _ => decide (slot < 16)
  | .signaturePolicyWrite _ => true
  | .minimumSvnWrite _ => true
  | .showDataLoad _ _ _ _ addr => decide (addr < 2 ^ 40)
  | .stagedImageWrite _ _ => true
  | .install value => decide (value < 2 ^ 32)
  | .liveSwitch value => decide (value < 2 ^ 32)
  | .reckonerLoadComplete => true
  | .updateRotation => true
  | .updateCommit value => decide (value < 2 ^ 32)
  | .automaticCommit => true
  | .updateRevert value => decide (value < 2 ^ 32)
  | .retireSlide engine value => decide (engine < 18) && decide (value < 2 ^ 32)
  | .migrateRank rank value => decide (rank < 4) && decide (value < 2 ^ 32)
  | .migrationStart => true
  | .migrationSwitch => true
  | .clearLedgerCounters value => decide (value < 2 ^ 32)
  | .clearDramStatistics value => decide (value < 2 ^ 32)
  | .acknowledgeAll value => decide (value < 2 ^ 32)
  | .clearLog value => decide (value < 2 ^ 32)
  | .readStartWrite value => decide (value < 2 ^ 32)
  | .eventSourceWrite source value => decide (source < 256) && decide (value < 2 ^ 32)
  | .eventLogCopy => true
  | .registerWrite master addr value => decide (master < 32) && decide (addr < 2 ^ 40) && decide (value < 2 ^ 32)
  | .rodRunStart rod startPc => decide (rod < 64) && decide (startPc < 8192)
  | .rodRunStop rod => decide (rod < 64)
  | .rodFaultClear rod => decide (rod < 64)
  | .qcfgWrite master queue value => decide (master < 32) && decide (queue < 64) && decide (value < 2 ^ 32)
  | .putWindowWrite master queue offset _ => decide (master < 32) && decide (queue < 64) && decide (offset < 4096)
  | .flowWrite flow value => decide (flow < 1024) && decide (value < 2 ^ 32)
  | .tallyExclWrite value => decide (value < 2 ^ 32)
  | .putAccepted queue => decide (queue < 64)
  | .backpressureLong queue _ => decide (queue < 64)
  | .tallyGive => true
  | .xferComplete rod upsets => decide (rod < 64) && upsets.all Upset.wf
  | .beamRequest reqs upsets => reqs.all BeamReq.wf && upsets.all Upset.wf
  | .lockedSequence master reqs => decide (master < 32) && reqs.all BeamReq.wf
  | .lockTimeout target _ => decide (target < 24)
  | .masterReset master => decide (master < 32)
  | .collisionClear => true
  | .beamErrClear => true
  | .ledgerScrub upsets => upsets.all Upset.wf
  | .refreshDue _ => true
  | .modeRegisterRead _ => true
  | .oscillatorMeasure _ => true
  | .patrolScrub _ upsets => upsets.all Upset.wf
  | .spareRankTest _ => true
  | .selfRefreshEntry _ => true
  | .selfRefreshExit addr => decide (addr < 2 ^ 40)
  | .nop rod sl => decide (rod < 64) && sl.wf
  | .vmov rod vd va sl => decide (rod < 64) && decide (vd < 32) && decide (va < 32) && sl.wf
  | .vadd rod vd va vb sl => decide (rod < 64) && decide (vd < 32) && decide (va < 32) && decide (vb < 32) && sl.wf
  | .vsub rod vd va vb sl => decide (rod < 64) && decide (vd < 32) && decide (va < 32) && decide (vb < 32) && sl.wf
  | .vaddw rod vd va vb sl => decide (rod < 64) && decide (vd < 32) && decide (va < 32) && decide (vb < 32) && sl.wf
  | .vsubw rod vd va vb sl => decide (rod < 64) && decide (vd < 32) && decide (va < 32) && decide (vb < 32) && sl.wf
  | .vmul rod vd va vb sl => decide (rod < 64) && decide (vd < 32) && decide (va < 32) && decide (vb < 32) && sl.wf
  | .vabs rod vd va sl => decide (rod < 64) && decide (vd < 32) && decide (va < 32) && sl.wf
  | .vneg rod vd va sl => decide (rod < 64) && decide (vd < 32) && decide (va < 32) && sl.wf
  | .vmin rod vd va vb sl => decide (rod < 64) && decide (vd < 32) && decide (va < 32) && decide (vb < 32) && sl.wf
  | .vmax rod vd va vb sl => decide (rod < 64) && decide (vd < 32) && decide (va < 32) && decide (vb < 32) && sl.wf
  | .vand rod vd va vb sl => decide (rod < 64) && decide (vd < 32) && decide (va < 32) && decide (vb < 32) && sl.wf
  | .vor rod vd va vb sl => decide (rod < 64) && decide (vd < 32) && decide (va < 32) && decide (vb < 32) && sl.wf
  | .vxor rod vd va vb sl => decide (rod < 64) && decide (vd < 32) && decide (va < 32) && decide (vb < 32) && sl.wf
  | .vnot rod vd va sl => decide (rod < 64) && decide (vd < 32) && decide (va < 32) && sl.wf
  | .vcmpgt rod vd va vb sl => decide (rod < 64) && decide (vd < 32) && decide (va < 32) && decide (vb < 32) && sl.wf
  | .vcmpeq rod vd va vb sl => decide (rod < 64) && decide (vd < 32) && decide (va < 32) && decide (vb < 32) && sl.wf
  | .vshl rod vd va n sl => decide (rod < 64) && decide (vd < 32) && decide (va < 32) && decide (n < 32) && sl.wf
  | .vshr rod vd va n sl => decide (rod < 64) && decide (vd < 32) && decide (va < 32) && decide (n < 32) && sl.wf
  | .vshrl rod vd va n sl => decide (rod < 64) && decide (vd < 32) && decide (va < 32) && decide (n < 32) && sl.wf
  | .vperm rod vd va vb sl => decide (rod < 64) && decide (vd < 32) && decide (va < 32) && decide (vb < 32) && sl.wf
  | .vbcst rod vd va n sl => decide (rod < 64) && decide (vd < 32) && decide (va < 32) && decide (n < 32) && sl.wf
  | .vmpy rod ac va vb sl => decide (rod < 64) && decide (ac < 32) && decide (va < 32) && decide (vb < 32) && sl.wf
  | .vmac rod ac va vb sl => decide (rod < 64) && decide (ac < 32) && decide (va < 32) && decide (vb < 32) && sl.wf
  | .vmsu rod ac va vb sl => decide (rod < 64) && decide (ac < 32) && decide (va < 32) && decide (vb < 32) && sl.wf
  | .vclr rod ac sl => decide (rod < 64) && decide (ac < 32) && sl.wf
  | .vlift rod ac va sl => decide (rod < 64) && decide (ac < 32) && decide (va < 32) && sl.wf
  | .vaadd rod ac acs sl => decide (rod < 64) && decide (ac < 32) && decide (acs < 32) && sl.wf
  | .vasub rod ac acs sl => decide (rod < 64) && decide (ac < 32) && decide (acs < 32) && sl.wf
  | .vtrw rod ac sl => decide (rod < 64) && decide (ac < 32) && sl.wf
  | .vred rod ac sl => decide (rod < 64) && decide (ac < 32) && sl.wf
  | .vaex rod acs sl => decide (rod < 64) && decide (acs < 32) && sl.wf
  | .vrd rod vd acs n sl => decide (rod < 64) && decide (vd < 32) && decide (acs < 32) && decide (n < 32) && sl.wf
  | .vrdl rod vd acs sl => decide (rod < 64) && decide (vd < 32) && decide (acs < 32) && sl.wf
  | .vrdm rod vd acs sl => decide (rod < 64) && decide (vd < 32) && decide (acs < 32) && sl.wf
  | .vrdh rod vd acs sl => decide (rod < 64) && decide (vd < 32) && decide (acs < 32) && sl.wf
  | .vwra rod ac va vb sl => decide (rod < 64) && decide (ac < 32) && decide (va < 32) && decide (vb < 32) && sl.wf
  | .vwrh rod ac va sl => decide (rod < 64) && decide (ac < 32) && decide (va < 32) && sl.wf
  | .vrdx rod vd acs sl => decide (rod < 64) && decide (vd < 32) && decide (acs < 32) && sl.wf
  | .smax rod va sl => decide (rod < 64) && decide (va < 32) && sl.wf
  | .smin rod va sl => decide (rod < 64) && decide (va < 32) && sl.wf
  | .smaxa rod va sl => decide (rod < 64) && decide (va < 32) && sl.wf
  | .ldv rod v an vop st u1 u2 => decide (rod < 64) && decide (v < 32) && decide (an < 16) && vop.wf && st.all StSlot.wf && u1.all UpdSlot.wf && u2.all UpdSlot.wf
  | .ldb rod v an vop st u1 u2 => decide (rod < 64) && decide (v < 32) && decide (an < 16) && vop.wf && st.all StSlot.wf && u1.all UpdSlot.wf && u2.all UpdSlot.wf
  | .lds rod v an vop st u1 u2 => decide (rod < 64) && decide (v < 32) && decide (an < 16) && vop.wf && st.all StSlot.wf && u1.all UpdSlot.wf && u2.all UpdSlot.wf
  | .stv rod v an vop ld u1 u2 => decide (rod < 64) && decide (v < 32) && decide (an < 16) && vop.wf && ld.all LdSlot.wf && u1.all UpdSlot.wf && u2.all UpdSlot.wf
  | .stl rod v an vop ld u1 u2 => decide (rod < 64) && decide (v < 32) && decide (an < 16) && vop.wf && ld.all LdSlot.wf && u1.all UpdSlot.wf && u2.all UpdSlot.wf
  | .std rod v an vop ld u1 u2 => decide (rod < 64) && decide (v < 32) && decide (an < 16) && vop.wf && ld.all LdSlot.wf && u1.all UpdSlot.wf && u2.all UpdSlot.wf
  | .updateLinear rod an step vop ld st u2 => decide (rod < 64) && decide (an < 16) && decide (step < 4) && vop.wf && ld.all LdSlot.wf && st.all StSlot.wf && u2.all UpdSlot.wf
  | .updateCircular rod an step vop ld st u2 => decide (rod < 64) && decide (an < 16) && decide (step < 4) && vop.wf && ld.all LdSlot.wf && st.all StSlot.wf && u2.all UpdSlot.wf
  | .updateBitReversed rod an step vop ld st u2 => decide (rod < 64) && decide (an < 16) && decide (step < 4) && vop.wf && ld.all LdSlot.wf && st.all StSlot.wf && u2.all UpdSlot.wf
  | .rep rod n16 w13 => decide (rod < 64) && decide (n16 < 65536) && decide (w13 < 8192)
  | .repa rod an w13 => decide (rod < 64) && decide (an < 16) && decide (w13 < 8192)
  | .brk rod => decide (rod < 64)
  | .j rod w13 => decide (rod < 64) && decide (w13 < 8192)
  | .jz rod an w13 => decide (rod < 64) && decide (an < 16) && decide (w13 < 8192)
  | .jnz rod an w13 => decide (rod < 64) && decide (an < 16) && decide (w13 < 8192)
  | .jneg rod an w13 => decide (rod < 64) && decide (an < 16) && decide (w13 < 8192)
  | .call rod w13 => decide (rod < 64) && decide (w13 < 8192)
  | .ret rod => decide (rod < 64)
  | .take rod an k8 => decide (rod < 64) && decide (an < 16) && decide (k8 < 256)
  | .put rod an k8 => decide (rod < 64) && decide (an < 16) && decide (k8 < 256)
  | .done rod => decide (rod < 64)
  | .xfer rod _ an fa md => decide (rod < 64) && decide (an < 16) && decide (fa < 16) && decide (md < 16)
  | .waitx rod k8 => decide (rod < 64) && decide (k8 < 256)
  | .setps rod k8 => decide (rod < 64) && decide (k8 < 256)
  | .mfs rod an k8 => decide (rod < 64) && decide (an < 16) && decide (k8 < 256)
  | .mts rod an k8 => decide (rod < 64) && decide (an < 16) && decide (k8 < 256)
  | .mov rod ad as_ => decide (rod < 64) && decide (ad < 16) && decide (as_ < 16)
  | .ldw rod an am => decide (rod < 64) && decide (an < 16) && decide (am < 16)
  | .stw rod an am => decide (rod < 64) && decide (an < 16) && decide (am < 16)
  | .ldf rod fa am => decide (rod < 64) && decide (fa < 16) && decide (am < 16)
  | .srinit rod an _ => decide (rod < 64) && decide (an < 16)
  | .bxclr rod => decide (rod < 64)
  | .bxstep rod => decide (rod < 64)
  | .halt rod => decide (rod < 64)
  | .trap rod k8 => decide (rod < 64) && decide (k8 < 256)
  | .li rod sel imm => decide (rod < 64) && decide (sel < 128) && decide (imm < 2 ^ 32)
  | .addi rod sel imm => decide (rod < 64) && decide (sel < 128) && decide (imm < 2 ^ 32)
  | .lih rod sel imm => decide (rod < 64) && decide (sel < 128) && decide (imm < 2 ^ 32)
  | .heartbeatLineEdge at_ => instantOk at_
  | .sfpModuleAbsentOrFault port _ _ => decide (port < 4)
  | .tripResetRelease _ _ => true
  | .lockstepError => true

end Sys2Proof
end

