-- ==== Sys2Proof/Tests/IllFormed.lean ====
section
/-! SUPPORT. The smoke test of well-formedness: for each check of each command a term that fails it alone, which the check refuses, and the
terms with every operand at the greatest value of its range, which it takes. -/
set_option Elab.async false

namespace Sys2Proof.Tests

/-- The slots of a parallel word with every field at its greatest value. -/
abbrev ldTop : LdSlot := LdSlot.mk .lds 31 15
abbrev stTop : StSlot := StSlot.mk .std 31 15
abbrev updTop : UpdSlot := UpdSlot.mk .bitReversed 15 3
abbrev slotsTop : Slots := Slots.mk (some ldTop) (some stTop) (some updTop) (some updTop)
abbrev vopTop : VOp := .vmac 31 31 31

/-- Frames and messages with every bounded field at its greatest value. -/
abbrev srcTop : FolSrc := FolSrc.mk 2 (2 ^ 32 - 1) 65535
abbrev folTop : FolFrame := FolFrame.mk 0 0 255 (2 ^ 32 - 1) (2 ^ 32 - 1) 65535 255 0 (2 ^ 64 - 1) 0 0 0 0 0 [] []
abbrev hbTop : HbFrame := HbFrame.mk (2 ^ 64 - 1) 255 255 255 255 (2 ^ 32 - 1) (2 ^ 64 - 1) 255 255 65535 [] [] true 65535 65535 255 255
abbrev fwdTop : Forward := Forward.mk 65535 255 (.num 0) 0 0 0
abbrev ringTop : RingFrame := RingFrame.mk (2 ^ 48 - 1) (2 ^ 48 - 1) 64 .linkLocal true false
abbrev dgramTop : Datagram := Datagram.mk (2 ^ 32 - 1) 65535 true false true []
abbrev subTop (audio : Nat) : AesSub := AesSub.mk audio false false false true
abbrev aesTop : AesFrame := AesFrame.mk (subTop (2 ^ 24 - 1)) (subTop (2 ^ 24 - 1)) true
abbrev carrierTop : CarrierIn := CarrierIn.mk [SenseBits.mk 15 (2 ^ 32 - 1) (2 ^ 32 - 1)] [(3, 2 ^ 32 - 1)] 65535
abbrev syncMsg (port : Nat) : SyncMsg := SyncMsg.mk port 0 0 0 0 0 0
abbrev announce (port : Nat) : Announce := Announce.mk port 0 0 0 0 0 0 0 0 0 0 []
abbrev pairTop (zone mic : Nat) : PairEstimate := PairEstimate.mk zone mic 0 0 0 0 0 0 []
abbrev upTop : Upset := Upset.mk (2 ^ 40 - 8) (some 71)
abbrev beamTop : BeamReq := BeamReq.mk 31 (2 ^ 40 - 1) false 1 [] [] false false

/-- The records' own checks, one term for each. -/
theorem test_wf_refuses_records :
    ([{ ringTop with srcMac := 2 ^ 48 }, { ringTop with dstMac := 2 ^ 48 }].all (fun f => !f.wf) &&
      [{ dgramTop with dstIp := 2 ^ 32 }, { dgramTop with dstPort := 65536 }].all (fun d => !d.wf) &&
      [AesFrame.mk (subTop (2 ^ 24)) aesTop.b true, AesFrame.mk aesTop.a (subTop (2 ^ 24)) true].all (fun f => !f.wf) &&
      [{ carrierTop with sense := [SenseBits.mk 16 0 0] }, { carrierTop with sense := [SenseBits.mk 0 (2 ^ 32) 0] },
        { carrierTop with sense := [SenseBits.mk 0 0 (2 ^ 32)] }, { carrierTop with rails := [(4, 0)] },
        { carrierTop with rails := [(0, 2 ^ 32)] }, { carrierTop with oc := 65536 }].all (fun c => !c.wf) &&
      [{ hbTop with tick := 2 ^ 64 }, { hbTop with role := 256 }, { hbTop with sync := 256 }, { hbTop with twin := 256 },
        { hbTop with flags := 256 },
        { hbTop with health := 2 ^ 32 }, { hbTop with markBlock := 2 ^ 64 }, { hbTop with markCause := 256 }, { hbTop with tstate := 256 },
        { hbTop with marks := 65536 }, { hbTop with ethertype := 65536 }, { hbTop with magic := 65536 }, { hbTop with version := 256 },
        { hbTop with kind := 256 }].all (fun f => !f.wf) &&
      [{ srcTop with port := 3 }, { srcTop with addr := 2 ^ 32 }, { srcTop with udp := 65536 }].all (fun p => !p.wf) &&
      [{ folTop with op := 256 }, { folTop with session := 2 ^ 32 }, { folTop with seq := 2 ^ 32 }, { folTop with index := 65536 },
        { folTop with sub := 256 }, { folTop with apply := 2 ^ 64 }].all (fun f => !f.wf) &&
      [{ fwdTop with index := 65536 }, { fwdTop with sub := 256 }].all (fun f => !f.wf) &&
      [{ beamTop with master := 32 }, { beamTop with addr := 2 ^ 40 }].all (fun r => !r.wf) &&
      [{ upTop with addr := 4 }, { upTop with addr := 2 ^ 40 }, { upTop with bit := some 72 }].all (fun u => !u.wf)) = true := by
  decide +kernel

/-- The slots' own checks, one term for each. -/
theorem test_wf_refuses_slots :
    ([{ ldTop with v := 32 }, { ldTop with an := 16 }].all (fun x => !x.wf) && [{ stTop with v := 32 }, { stTop with an := 16 }].all (fun x => !x.wf) &&
      [{ updTop with an := 16 }, { updTop with step := 4 }].all (fun x => !x.wf)) = true := by decide

/-! The vector operation of a parallel word -/

theorem test_wf_refuses_vector_1 :
    List.all (α := VOp)
    [.vmov 32 31, .vmov 31 32, .vadd 32 31 31, .vadd 31 32 31, .vadd 31 31 32, .vsub 32 31 31, .vsub 31 32 31, .vsub 31 31 32,
     .vaddw 32 31 31, .vaddw 31 32 31, .vaddw 31 31 32, .vsubw 32 31 31, .vsubw 31 32 31, .vsubw 31 31 32, .vmul 32 31 31,
     .vmul 31 32 31, .vmul 31 31 32, .vabs 32 31, .vabs 31 32, .vneg 32 31, .vneg 31 32, .vmin 32 31 31, .vmin 31 32 31,
     .vmin 31 31 32, .vmax 32 31 31, .vmax 31 32 31, .vmax 31 31 32, .vand 32 31 31, .vand 31 32 31, .vand 31 31 32,
     .vor 32 31 31, .vor 31 32 31, .vor 31 31 32, .vxor 32 31 31, .vxor 31 32 31, .vxor 31 31 32, .vnot 32 31, .vnot 31 32,
     .vcmpgt 32 31 31, .vcmpgt 31 32 31]
    (fun v => !v.wf) = true := by decide +kernel

theorem test_wf_refuses_vector_2 :
    List.all (α := VOp)
    [.vcmpgt 31 31 32, .vcmpeq 32 31 31, .vcmpeq 31 32 31, .vcmpeq 31 31 32, .vshl 32 31 31, .vshl 31 32 31, .vshl 31 31 32,
     .vshr 32 31 31, .vshr 31 32 31, .vshr 31 31 32, .vshrl 32 31 31, .vshrl 31 32 31, .vshrl 31 31 32, .vperm 32 31 31,
     .vperm 31 32 31, .vperm 31 31 32, .vbcst 32 31 31, .vbcst 31 32 31, .vbcst 31 31 32, .vmpy 32 31 31, .vmpy 31 32 31,
     .vmpy 31 31 32, .vmac 32 31 31, .vmac 31 32 31, .vmac 31 31 32, .vmsu 32 31 31, .vmsu 31 32 31, .vmsu 31 31 32, .vclr 32,
     .vlift 32 31, .vlift 31 32, .vaadd 32 31, .vaadd 31 32, .vasub 32 31, .vasub 31 32, .vtrw 32, .vred 32, .vaex 32,
     .vrd 32 31 31, .vrd 31 32 31]
    (fun v => !v.wf) = true := by decide +kernel

theorem test_wf_refuses_vector_3 :
    List.all (α := VOp)
    [.vrd 31 31 32, .vrdl 32 31, .vrdl 31 32, .vrdm 32 31, .vrdm 31 32, .vrdh 32 31, .vrdh 31 32, .vwra 32 31 31, .vwra 31 32 31,
     .vwra 31 31 32, .vwrh 32 31, .vwrh 31 32, .vrdx 32 31, .vrdx 31 32, .smax 32, .smin 32, .smaxa 32]
    (fun v => !v.wf) = true := by decide +kernel

/-! Commands of the block -/

theorem test_wf_refuses_block_1 :
    List.all (α := Instr)
    [.brownout 333334 0, .brownoutEnd 333334 0, .placementPublish 333334, .spanDelivered 333334 17 511 511,
     .spanDelivered 333333 18 511 511, .spanDelivered 333333 17 512 511, .spanDelivered 333333 17 511 512,
     .feedRender 333334 511, .feedRender 333333 512, .ingressCommit [] [(8, [])], .placementDeadline [0, 512],
     .outputBusDeadline [0, 512] [15], .outputBusDeadline [511] [0, 16], .egressDeadline [0, 64] [15] [15],
     .egressDeadline [63] [0, 16] [15], .egressDeadline [63] [15] [0, 16], .tallyPurge (2 ^ 64), .preparationComplete 512 true,
     .crossfadeEnd 512, .driftEstimateWindow [pairTop 64 7], .driftEstimateWindow [pairTop 63 8],
     .syncReceived 333334 (syncMsg 3), .syncReceived 333333 (syncMsg 4), .announceReceived 333334 (announce 3)]
    (fun i => !i.wellFormed) = true := by decide +kernel

theorem test_wf_refuses_block_2 :
    List.all (α := Instr)
    [.announceReceived 333333 (announce 4), .announceTimeout 4, .delayMeasurementComplete 4 0, .ptpMessageSend 4 .sync 0,
     .pdelayReqReceived 4 0 0, .ptpTransit 2 1 .sync .ethernet 0 0 0, .ptpTransit 1 2 .sync .ethernet 0 0 0,
     .tuCarryWrite (2 ^ 32), .comparatorFire 333334 3, .comparatorFire 333333 4, .pulseWidthEnd 333334 3,
     .pulseWidthEnd 333333 4, .captureEdge 333334 3 true, .captureEdge 333333 4 true, .ringFrameReceived 333334 1 ringTop,
     .ringFrameReceived 333333 2 ringTop, .ringFrameReceived 333333 1 { ringTop with srcMac := 2 ^ 48 }, .linkLock 4 3,
     .linkLock 3 4, .linkLoss 4, .lineModeAlternate 4, .streamPacketReceived 333334 1 dgramTop,
     .streamPacketReceived 333333 2 dgramTop, .streamPacketReceived 333333 1 { dgramTop with dstPort := 65536 }]
    (fun i => !i.wellFormed) = true := by decide +kernel

theorem test_wf_refuses_block_3 :
    List.all (α := Instr)
    [.shadowCutoff 64 0, .aes3FrameReceived 333334 15 aesTop, .aes3FrameReceived 333333 16 aesTop,
     .aes3FrameReceived 333333 15 (AesFrame.mk aesTop.a (subTop (2 ^ 24)) true), .aes3NonAudioEnd 16,
     .aes3LockValuesReceived 16 (LockVals.mk 0 0 0 0 0), .aes3LockApply 16, .aes3RhoDecision 16 0, .aes3NoSignal 16,
     .aes3RateWindow 16, .pdmStuck 8, .pdmStuckRecover 8, .carrierPeriod { carrierTop with oc := 65536 }, .railStateChange 4,
     .overCurrentCut 333334 15 0, .overCurrentCut 333333 16 0, .driveShutdown 16, .senseStuck 3 15, .senseStuck 2 16,
     .driveFaultItem 16, .drvMuteFaultRamp 16, .holdOffEnd 16, .retryCountReset 16, .driveStart 16]
    (fun i => !i.wellFormed) = true := by decide +kernel

theorem test_wf_refuses_block_4 :
    List.all (α := Instr)
    [.driveStop 16, .driveGateChange 333334 true, .heartbeatFrameReceived 333334 hbTop,
     .heartbeatFrameReceived 333333 { hbTop with role := 256 }, .actInCollision 333334, .actOutClaim 333334 0,
     .folOpen 333334 srcTop folTop, .folOpen 333333 { srcTop with port := 3 } folTop,
     .folOpen 333333 srcTop { folTop with op := 256 }, .folClose 333334 srcTop folTop,
     .folClose 333333 { srcTop with port := 3 } folTop, .folClose 333333 srcTop { folTop with op := 256 },
     .folRead 333334 srcTop folTop, .folRead 333333 { srcTop with port := 3 } folTop,
     .folRead 333333 srcTop { folTop with op := 256 }, .folWrite 333334 srcTop folTop,
     .folWrite 333333 { srcTop with port := 3 } folTop, .folWrite 333333 srcTop { folTop with op := 256 },
     .folReadSeg 333334 srcTop folTop, .folReadSeg 333333 { srcTop with port := 3 } folTop,
     .folReadSeg 333333 srcTop { folTop with op := 256 }, .folWriteSeg 333334 srcTop folTop,
     .folWriteSeg 333333 { srcTop with port := 3 } folTop, .folWriteSeg 333333 srcTop { folTop with op := 256 }]
    (fun i => !i.wellFormed) = true := by decide +kernel

theorem test_wf_refuses_block_5 :
    List.all (α := Instr)
    [.folXferAbort 333334 srcTop folTop, .folXferAbort 333333 { srcTop with port := 3 } folTop,
     .folXferAbort 333333 srcTop { folTop with op := 256 }, .folKeepalive 333334 srcTop folTop,
     .folKeepalive 333333 { srcTop with port := 3 } folTop, .folKeepalive 333333 srcTop { folTop with op := 256 },
     .folIdent 333334 srcTop folTop, .folIdent 333333 { srcTop with port := 3 } folTop,
     .folIdent 333333 srcTop { folTop with op := 256 }, .sessionTimeout (2 ^ 32), .transferTimeout (2 ^ 32),
     .writeForwardReceived 333334 fwdTop, .writeForwardReceived 333333 { fwdTop with sub := 256 },
     .writeVerdictReceived 333334 0 255, .writeVerdictReceived 333333 0 (2 ^ 32), .clearMissRecords (2 ^ 32),
     .timeConfigWrite 65536 255 (2 ^ 64 - 1), .timeConfigWrite 65535 256 (2 ^ 64 - 1), .timeConfigWrite 65535 255 (2 ^ 64),
     .pulseConfigWrite 4 255 (2 ^ 64 - 1), .pulseConfigWrite 3 256 (2 ^ 64 - 1), .pulseConfigWrite 3 255 (2 ^ 64),
     .objectEnable 512 (2 ^ 32 - 1), .objectEnable 511 (2 ^ 32)]
    (fun i => !i.wellFormed) = true := by decide +kernel

theorem test_wf_refuses_block_6 :
    List.all (α := Instr)
    [.keyframeWrite 512 [], .clearPlacementStatistics (2 ^ 32), .allocationWrite 512 0, .bankLoad 512 1 [], .bankLoad 511 2 [],
     .bankSwitch 512 1, .bankSwitch 511 2, .correctionEnable 512 (2 ^ 32 - 1), .correctionEnable 511 (2 ^ 32),
     .clearMeters 512 (2 ^ 32 - 1), .clearMeters 511 (2 ^ 32), .baselineCapture (2 ^ 32), .rotateFrame 8, .userSlotCopy 16,
     .retireFrame 8 (2 ^ 32 - 1), .retireFrame 7 (2 ^ 32), .retireRod 64 (2 ^ 32 - 1), .retireRod 63 (2 ^ 32),
     .slotImageWrite 16 (SlotImage.mk 0 0 0 0 [] false false []), .slotEnable 16 (2 ^ 32 - 1), .slotEnable 15 (2 ^ 32),
     .clearTallyStatistics (2 ^ 32), .ringParticipation (2 ^ 32), .slotChannelChange true 64 255 (.num 0)]
    (fun i => !i.wellFormed) = true := by decide +kernel

theorem test_wf_refuses_block_7 :
    List.all (α := Instr)
    [.slotChannelChange true 63 256 (.num 0), .clearSlotStatistics 64 (2 ^ 32 - 1), .clearSlotStatistics 63 (2 ^ 32),
     .pdmClockWrite (2 ^ 32), .pdmEnable 8 (2 ^ 32 - 1), .pdmEnable 7 (2 ^ 32), .aes3OutputChange 16 255 (.num 0),
     .aes3OutputChange 15 256 (.num 0), .driveEnable 16, .driveDisable 16, .clearLatch 16 (2 ^ 32 - 1), .clearLatch 15 (2 ^ 32),
     .driveEnableGlobal (2 ^ 32), .clearRail 4 (2 ^ 32 - 1), .clearRail 3 (2 ^ 32), .handover (2 ^ 32), .isolate (2 ^ 32),
     .clearTwinStatistics (2 ^ 32), .clearFolStatistics (2 ^ 32), .managementAddressWrite 256 (2 ^ 32 - 1),
     .managementAddressWrite 255 (2 ^ 32), .gpioWrite 256 (2 ^ 32 - 1), .gpioWrite 255 (2 ^ 32),
     .shutdownSelfTest (2 ^ 32) default]
    (fun i => !i.wellFormed) = true := by decide +kernel

theorem test_wf_refuses_block_8 :
    List.all (α := Instr)
    [.park (2 ^ 32), .unpark (2 ^ 32) [] default, .targetedTest (2 ^ 32) default 0, .thermalLevelChange 333334 0,
     .provision (2 ^ 32), .deploy (2 ^ 32), .levelKeyWrite 6 [], .showKeyWrite 16 [], .showDataLoad none [] [] [] (2 ^ 40),
     .install (2 ^ 32), .liveSwitch (2 ^ 32), .updateCommit (2 ^ 32), .updateRevert (2 ^ 32), .retireSlide 18 (2 ^ 32 - 1),
     .retireSlide 17 (2 ^ 32), .migrateRank 4 (2 ^ 32 - 1), .migrateRank 3 (2 ^ 32), .clearLedgerCounters (2 ^ 32),
     .clearDramStatistics (2 ^ 32), .acknowledgeAll (2 ^ 32), .clearLog (2 ^ 32), .readStartWrite (2 ^ 32),
     .eventSourceWrite 256 (2 ^ 32 - 1), .eventSourceWrite 255 (2 ^ 32)]
    (fun i => !i.wellFormed) = true := by decide +kernel

theorem test_wf_refuses_block_9 :
    List.all (α := Instr)
    [.registerWrite 32 (2 ^ 40 - 1) (2 ^ 32 - 1), .registerWrite 31 (2 ^ 40) (2 ^ 32 - 1),
     .registerWrite 31 (2 ^ 40 - 1) (2 ^ 32), .rodRunStart 64 8191, .rodRunStart 63 8192, .rodRunStop 64, .rodFaultClear 64,
     .qcfgWrite 32 63 (2 ^ 32 - 1), .qcfgWrite 31 64 (2 ^ 32 - 1), .qcfgWrite 31 63 (2 ^ 32), .putWindowWrite 32 63 4095 [],
     .putWindowWrite 31 64 4095 [], .putWindowWrite 31 63 4096 [], .flowWrite 1024 (2 ^ 32 - 1), .flowWrite 1023 (2 ^ 32),
     .tallyExclWrite (2 ^ 32), .putAccepted 64, .backpressureLong 64 0, .xferComplete 64 [upTop],
     .xferComplete 63 [{ upTop with bit := some 72 }], .beamRequest [{ beamTop with master := 32 }] [upTop],
     .beamRequest [beamTop] [{ upTop with bit := some 72 }], .lockedSequence 32 [beamTop],
     .lockedSequence 31 [{ beamTop with master := 32 }]]
    (fun i => !i.wellFormed) = true := by decide +kernel

theorem test_wf_refuses_block_10 :
    List.all (α := Instr)
    [.lockTimeout 24 0, .masterReset 32, .ledgerScrub [{ upTop with bit := some 72 }],
     .patrolScrub 0 [{ upTop with bit := some 72 }], .selfRefreshExit (2 ^ 40), .heartbeatLineEdge 333334,
     .sfpModuleAbsentOrFault 4 true true]
    (fun i => !i.wellFormed) = true := by decide +kernel

/-! Words of a Rod -/

theorem test_wf_refuses_word_1 :
    List.all (α := Instr)
    [.nop 64 slotsTop, .nop 63 { slotsTop with ld := some (LdSlot.mk .ldv 32 0) },
     .nop 63 { slotsTop with st := some (StSlot.mk .stv 0 16) }, .nop 63 { slotsTop with u1 := some (UpdSlot.mk .linear 16 0) },
     .nop 63 { slotsTop with u2 := some (UpdSlot.mk .linear 0 4) }, .vmov 64 31 31 slotsTop, .vmov 63 32 31 slotsTop,
     .vmov 63 31 32 slotsTop, .vmov 63 31 31 { slotsTop with ld := some (LdSlot.mk .ldv 32 0) },
     .vmov 63 31 31 { slotsTop with st := some (StSlot.mk .stv 0 16) },
     .vmov 63 31 31 { slotsTop with u1 := some (UpdSlot.mk .linear 16 0) },
     .vmov 63 31 31 { slotsTop with u2 := some (UpdSlot.mk .linear 0 4) }, .vadd 64 31 31 31 slotsTop,
     .vadd 63 32 31 31 slotsTop, .vadd 63 31 32 31 slotsTop, .vadd 63 31 31 32 slotsTop,
     .vadd 63 31 31 31 { slotsTop with ld := some (LdSlot.mk .ldv 32 0) },
     .vadd 63 31 31 31 { slotsTop with st := some (StSlot.mk .stv 0 16) },
     .vadd 63 31 31 31 { slotsTop with u1 := some (UpdSlot.mk .linear 16 0) },
     .vadd 63 31 31 31 { slotsTop with u2 := some (UpdSlot.mk .linear 0 4) }, .vsub 64 31 31 31 slotsTop,
     .vsub 63 32 31 31 slotsTop, .vsub 63 31 32 31 slotsTop, .vsub 63 31 31 32 slotsTop]
    (fun i => !i.wellFormed) = true := by decide +kernel

theorem test_wf_refuses_word_2 :
    List.all (α := Instr)
    [.vsub 63 31 31 31 { slotsTop with ld := some (LdSlot.mk .ldv 32 0) },
     .vsub 63 31 31 31 { slotsTop with st := some (StSlot.mk .stv 0 16) },
     .vsub 63 31 31 31 { slotsTop with u1 := some (UpdSlot.mk .linear 16 0) },
     .vsub 63 31 31 31 { slotsTop with u2 := some (UpdSlot.mk .linear 0 4) }, .vaddw 64 31 31 31 slotsTop,
     .vaddw 63 32 31 31 slotsTop, .vaddw 63 31 32 31 slotsTop, .vaddw 63 31 31 32 slotsTop,
     .vaddw 63 31 31 31 { slotsTop with ld := some (LdSlot.mk .ldv 32 0) },
     .vaddw 63 31 31 31 { slotsTop with st := some (StSlot.mk .stv 0 16) },
     .vaddw 63 31 31 31 { slotsTop with u1 := some (UpdSlot.mk .linear 16 0) },
     .vaddw 63 31 31 31 { slotsTop with u2 := some (UpdSlot.mk .linear 0 4) }, .vsubw 64 31 31 31 slotsTop,
     .vsubw 63 32 31 31 slotsTop, .vsubw 63 31 32 31 slotsTop, .vsubw 63 31 31 32 slotsTop,
     .vsubw 63 31 31 31 { slotsTop with ld := some (LdSlot.mk .ldv 32 0) },
     .vsubw 63 31 31 31 { slotsTop with st := some (StSlot.mk .stv 0 16) },
     .vsubw 63 31 31 31 { slotsTop with u1 := some (UpdSlot.mk .linear 16 0) },
     .vsubw 63 31 31 31 { slotsTop with u2 := some (UpdSlot.mk .linear 0 4) }, .vmul 64 31 31 31 slotsTop,
     .vmul 63 32 31 31 slotsTop, .vmul 63 31 32 31 slotsTop, .vmul 63 31 31 32 slotsTop]
    (fun i => !i.wellFormed) = true := by decide +kernel

theorem test_wf_refuses_word_3 :
    List.all (α := Instr)
    [.vmul 63 31 31 31 { slotsTop with ld := some (LdSlot.mk .ldv 32 0) },
     .vmul 63 31 31 31 { slotsTop with st := some (StSlot.mk .stv 0 16) },
     .vmul 63 31 31 31 { slotsTop with u1 := some (UpdSlot.mk .linear 16 0) },
     .vmul 63 31 31 31 { slotsTop with u2 := some (UpdSlot.mk .linear 0 4) }, .vabs 64 31 31 slotsTop, .vabs 63 32 31 slotsTop,
     .vabs 63 31 32 slotsTop, .vabs 63 31 31 { slotsTop with ld := some (LdSlot.mk .ldv 32 0) },
     .vabs 63 31 31 { slotsTop with st := some (StSlot.mk .stv 0 16) },
     .vabs 63 31 31 { slotsTop with u1 := some (UpdSlot.mk .linear 16 0) },
     .vabs 63 31 31 { slotsTop with u2 := some (UpdSlot.mk .linear 0 4) }, .vneg 64 31 31 slotsTop, .vneg 63 32 31 slotsTop,
     .vneg 63 31 32 slotsTop, .vneg 63 31 31 { slotsTop with ld := some (LdSlot.mk .ldv 32 0) },
     .vneg 63 31 31 { slotsTop with st := some (StSlot.mk .stv 0 16) },
     .vneg 63 31 31 { slotsTop with u1 := some (UpdSlot.mk .linear 16 0) },
     .vneg 63 31 31 { slotsTop with u2 := some (UpdSlot.mk .linear 0 4) }, .vmin 64 31 31 31 slotsTop,
     .vmin 63 32 31 31 slotsTop, .vmin 63 31 32 31 slotsTop, .vmin 63 31 31 32 slotsTop,
     .vmin 63 31 31 31 { slotsTop with ld := some (LdSlot.mk .ldv 32 0) },
     .vmin 63 31 31 31 { slotsTop with st := some (StSlot.mk .stv 0 16) }]
    (fun i => !i.wellFormed) = true := by decide +kernel

theorem test_wf_refuses_word_4 :
    List.all (α := Instr)
    [.vmin 63 31 31 31 { slotsTop with u1 := some (UpdSlot.mk .linear 16 0) },
     .vmin 63 31 31 31 { slotsTop with u2 := some (UpdSlot.mk .linear 0 4) }, .vmax 64 31 31 31 slotsTop,
     .vmax 63 32 31 31 slotsTop, .vmax 63 31 32 31 slotsTop, .vmax 63 31 31 32 slotsTop,
     .vmax 63 31 31 31 { slotsTop with ld := some (LdSlot.mk .ldv 32 0) },
     .vmax 63 31 31 31 { slotsTop with st := some (StSlot.mk .stv 0 16) },
     .vmax 63 31 31 31 { slotsTop with u1 := some (UpdSlot.mk .linear 16 0) },
     .vmax 63 31 31 31 { slotsTop with u2 := some (UpdSlot.mk .linear 0 4) }, .vand 64 31 31 31 slotsTop,
     .vand 63 32 31 31 slotsTop, .vand 63 31 32 31 slotsTop, .vand 63 31 31 32 slotsTop,
     .vand 63 31 31 31 { slotsTop with ld := some (LdSlot.mk .ldv 32 0) },
     .vand 63 31 31 31 { slotsTop with st := some (StSlot.mk .stv 0 16) },
     .vand 63 31 31 31 { slotsTop with u1 := some (UpdSlot.mk .linear 16 0) },
     .vand 63 31 31 31 { slotsTop with u2 := some (UpdSlot.mk .linear 0 4) }, .vor 64 31 31 31 slotsTop,
     .vor 63 32 31 31 slotsTop, .vor 63 31 32 31 slotsTop, .vor 63 31 31 32 slotsTop,
     .vor 63 31 31 31 { slotsTop with ld := some (LdSlot.mk .ldv 32 0) },
     .vor 63 31 31 31 { slotsTop with st := some (StSlot.mk .stv 0 16) }]
    (fun i => !i.wellFormed) = true := by decide +kernel

theorem test_wf_refuses_word_5 :
    List.all (α := Instr)
    [.vor 63 31 31 31 { slotsTop with u1 := some (UpdSlot.mk .linear 16 0) },
     .vor 63 31 31 31 { slotsTop with u2 := some (UpdSlot.mk .linear 0 4) }, .vxor 64 31 31 31 slotsTop,
     .vxor 63 32 31 31 slotsTop, .vxor 63 31 32 31 slotsTop, .vxor 63 31 31 32 slotsTop,
     .vxor 63 31 31 31 { slotsTop with ld := some (LdSlot.mk .ldv 32 0) },
     .vxor 63 31 31 31 { slotsTop with st := some (StSlot.mk .stv 0 16) },
     .vxor 63 31 31 31 { slotsTop with u1 := some (UpdSlot.mk .linear 16 0) },
     .vxor 63 31 31 31 { slotsTop with u2 := some (UpdSlot.mk .linear 0 4) }, .vnot 64 31 31 slotsTop, .vnot 63 32 31 slotsTop,
     .vnot 63 31 32 slotsTop, .vnot 63 31 31 { slotsTop with ld := some (LdSlot.mk .ldv 32 0) },
     .vnot 63 31 31 { slotsTop with st := some (StSlot.mk .stv 0 16) },
     .vnot 63 31 31 { slotsTop with u1 := some (UpdSlot.mk .linear 16 0) },
     .vnot 63 31 31 { slotsTop with u2 := some (UpdSlot.mk .linear 0 4) }, .vcmpgt 64 31 31 31 slotsTop,
     .vcmpgt 63 32 31 31 slotsTop, .vcmpgt 63 31 32 31 slotsTop, .vcmpgt 63 31 31 32 slotsTop,
     .vcmpgt 63 31 31 31 { slotsTop with ld := some (LdSlot.mk .ldv 32 0) },
     .vcmpgt 63 31 31 31 { slotsTop with st := some (StSlot.mk .stv 0 16) },
     .vcmpgt 63 31 31 31 { slotsTop with u1 := some (UpdSlot.mk .linear 16 0) }]
    (fun i => !i.wellFormed) = true := by decide +kernel

theorem test_wf_refuses_word_6 :
    List.all (α := Instr)
    [.vcmpgt 63 31 31 31 { slotsTop with u2 := some (UpdSlot.mk .linear 0 4) }, .vcmpeq 64 31 31 31 slotsTop,
     .vcmpeq 63 32 31 31 slotsTop, .vcmpeq 63 31 32 31 slotsTop, .vcmpeq 63 31 31 32 slotsTop,
     .vcmpeq 63 31 31 31 { slotsTop with ld := some (LdSlot.mk .ldv 32 0) },
     .vcmpeq 63 31 31 31 { slotsTop with st := some (StSlot.mk .stv 0 16) },
     .vcmpeq 63 31 31 31 { slotsTop with u1 := some (UpdSlot.mk .linear 16 0) },
     .vcmpeq 63 31 31 31 { slotsTop with u2 := some (UpdSlot.mk .linear 0 4) }, .vshl 64 31 31 31 slotsTop,
     .vshl 63 32 31 31 slotsTop, .vshl 63 31 32 31 slotsTop, .vshl 63 31 31 32 slotsTop,
     .vshl 63 31 31 31 { slotsTop with ld := some (LdSlot.mk .ldv 32 0) },
     .vshl 63 31 31 31 { slotsTop with st := some (StSlot.mk .stv 0 16) },
     .vshl 63 31 31 31 { slotsTop with u1 := some (UpdSlot.mk .linear 16 0) },
     .vshl 63 31 31 31 { slotsTop with u2 := some (UpdSlot.mk .linear 0 4) }, .vshr 64 31 31 31 slotsTop,
     .vshr 63 32 31 31 slotsTop, .vshr 63 31 32 31 slotsTop, .vshr 63 31 31 32 slotsTop,
     .vshr 63 31 31 31 { slotsTop with ld := some (LdSlot.mk .ldv 32 0) },
     .vshr 63 31 31 31 { slotsTop with st := some (StSlot.mk .stv 0 16) },
     .vshr 63 31 31 31 { slotsTop with u1 := some (UpdSlot.mk .linear 16 0) }]
    (fun i => !i.wellFormed) = true := by decide +kernel

theorem test_wf_refuses_word_7 :
    List.all (α := Instr)
    [.vshr 63 31 31 31 { slotsTop with u2 := some (UpdSlot.mk .linear 0 4) }, .vshrl 64 31 31 31 slotsTop,
     .vshrl 63 32 31 31 slotsTop, .vshrl 63 31 32 31 slotsTop, .vshrl 63 31 31 32 slotsTop,
     .vshrl 63 31 31 31 { slotsTop with ld := some (LdSlot.mk .ldv 32 0) },
     .vshrl 63 31 31 31 { slotsTop with st := some (StSlot.mk .stv 0 16) },
     .vshrl 63 31 31 31 { slotsTop with u1 := some (UpdSlot.mk .linear 16 0) },
     .vshrl 63 31 31 31 { slotsTop with u2 := some (UpdSlot.mk .linear 0 4) }, .vperm 64 31 31 31 slotsTop,
     .vperm 63 32 31 31 slotsTop, .vperm 63 31 32 31 slotsTop, .vperm 63 31 31 32 slotsTop,
     .vperm 63 31 31 31 { slotsTop with ld := some (LdSlot.mk .ldv 32 0) },
     .vperm 63 31 31 31 { slotsTop with st := some (StSlot.mk .stv 0 16) },
     .vperm 63 31 31 31 { slotsTop with u1 := some (UpdSlot.mk .linear 16 0) },
     .vperm 63 31 31 31 { slotsTop with u2 := some (UpdSlot.mk .linear 0 4) }, .vbcst 64 31 31 31 slotsTop,
     .vbcst 63 32 31 31 slotsTop, .vbcst 63 31 32 31 slotsTop, .vbcst 63 31 31 32 slotsTop,
     .vbcst 63 31 31 31 { slotsTop with ld := some (LdSlot.mk .ldv 32 0) },
     .vbcst 63 31 31 31 { slotsTop with st := some (StSlot.mk .stv 0 16) },
     .vbcst 63 31 31 31 { slotsTop with u1 := some (UpdSlot.mk .linear 16 0) }]
    (fun i => !i.wellFormed) = true := by decide +kernel

theorem test_wf_refuses_word_8 :
    List.all (α := Instr)
    [.vbcst 63 31 31 31 { slotsTop with u2 := some (UpdSlot.mk .linear 0 4) }, .vmpy 64 31 31 31 slotsTop,
     .vmpy 63 32 31 31 slotsTop, .vmpy 63 31 32 31 slotsTop, .vmpy 63 31 31 32 slotsTop,
     .vmpy 63 31 31 31 { slotsTop with ld := some (LdSlot.mk .ldv 32 0) },
     .vmpy 63 31 31 31 { slotsTop with st := some (StSlot.mk .stv 0 16) },
     .vmpy 63 31 31 31 { slotsTop with u1 := some (UpdSlot.mk .linear 16 0) },
     .vmpy 63 31 31 31 { slotsTop with u2 := some (UpdSlot.mk .linear 0 4) }, .vmac 64 31 31 31 slotsTop,
     .vmac 63 32 31 31 slotsTop, .vmac 63 31 32 31 slotsTop, .vmac 63 31 31 32 slotsTop,
     .vmac 63 31 31 31 { slotsTop with ld := some (LdSlot.mk .ldv 32 0) },
     .vmac 63 31 31 31 { slotsTop with st := some (StSlot.mk .stv 0 16) },
     .vmac 63 31 31 31 { slotsTop with u1 := some (UpdSlot.mk .linear 16 0) },
     .vmac 63 31 31 31 { slotsTop with u2 := some (UpdSlot.mk .linear 0 4) }, .vmsu 64 31 31 31 slotsTop,
     .vmsu 63 32 31 31 slotsTop, .vmsu 63 31 32 31 slotsTop, .vmsu 63 31 31 32 slotsTop,
     .vmsu 63 31 31 31 { slotsTop with ld := some (LdSlot.mk .ldv 32 0) },
     .vmsu 63 31 31 31 { slotsTop with st := some (StSlot.mk .stv 0 16) },
     .vmsu 63 31 31 31 { slotsTop with u1 := some (UpdSlot.mk .linear 16 0) }]
    (fun i => !i.wellFormed) = true := by decide +kernel

theorem test_wf_refuses_word_9 :
    List.all (α := Instr)
    [.vmsu 63 31 31 31 { slotsTop with u2 := some (UpdSlot.mk .linear 0 4) }, .vclr 64 31 slotsTop, .vclr 63 32 slotsTop,
     .vclr 63 31 { slotsTop with ld := some (LdSlot.mk .ldv 32 0) },
     .vclr 63 31 { slotsTop with st := some (StSlot.mk .stv 0 16) },
     .vclr 63 31 { slotsTop with u1 := some (UpdSlot.mk .linear 16 0) },
     .vclr 63 31 { slotsTop with u2 := some (UpdSlot.mk .linear 0 4) }, .vlift 64 31 31 slotsTop, .vlift 63 32 31 slotsTop,
     .vlift 63 31 32 slotsTop, .vlift 63 31 31 { slotsTop with ld := some (LdSlot.mk .ldv 32 0) },
     .vlift 63 31 31 { slotsTop with st := some (StSlot.mk .stv 0 16) },
     .vlift 63 31 31 { slotsTop with u1 := some (UpdSlot.mk .linear 16 0) },
     .vlift 63 31 31 { slotsTop with u2 := some (UpdSlot.mk .linear 0 4) }, .vaadd 64 31 31 slotsTop, .vaadd 63 32 31 slotsTop,
     .vaadd 63 31 32 slotsTop, .vaadd 63 31 31 { slotsTop with ld := some (LdSlot.mk .ldv 32 0) },
     .vaadd 63 31 31 { slotsTop with st := some (StSlot.mk .stv 0 16) },
     .vaadd 63 31 31 { slotsTop with u1 := some (UpdSlot.mk .linear 16 0) },
     .vaadd 63 31 31 { slotsTop with u2 := some (UpdSlot.mk .linear 0 4) }, .vasub 64 31 31 slotsTop, .vasub 63 32 31 slotsTop,
     .vasub 63 31 32 slotsTop]
    (fun i => !i.wellFormed) = true := by decide +kernel

theorem test_wf_refuses_word_10 :
    List.all (α := Instr)
    [.vasub 63 31 31 { slotsTop with ld := some (LdSlot.mk .ldv 32 0) },
     .vasub 63 31 31 { slotsTop with st := some (StSlot.mk .stv 0 16) },
     .vasub 63 31 31 { slotsTop with u1 := some (UpdSlot.mk .linear 16 0) },
     .vasub 63 31 31 { slotsTop with u2 := some (UpdSlot.mk .linear 0 4) }, .vtrw 64 31 slotsTop, .vtrw 63 32 slotsTop,
     .vtrw 63 31 { slotsTop with ld := some (LdSlot.mk .ldv 32 0) },
     .vtrw 63 31 { slotsTop with st := some (StSlot.mk .stv 0 16) },
     .vtrw 63 31 { slotsTop with u1 := some (UpdSlot.mk .linear 16 0) },
     .vtrw 63 31 { slotsTop with u2 := some (UpdSlot.mk .linear 0 4) }, .vred 64 31 slotsTop, .vred 63 32 slotsTop,
     .vred 63 31 { slotsTop with ld := some (LdSlot.mk .ldv 32 0) },
     .vred 63 31 { slotsTop with st := some (StSlot.mk .stv 0 16) },
     .vred 63 31 { slotsTop with u1 := some (UpdSlot.mk .linear 16 0) },
     .vred 63 31 { slotsTop with u2 := some (UpdSlot.mk .linear 0 4) }, .vaex 64 31 slotsTop, .vaex 63 32 slotsTop,
     .vaex 63 31 { slotsTop with ld := some (LdSlot.mk .ldv 32 0) },
     .vaex 63 31 { slotsTop with st := some (StSlot.mk .stv 0 16) },
     .vaex 63 31 { slotsTop with u1 := some (UpdSlot.mk .linear 16 0) },
     .vaex 63 31 { slotsTop with u2 := some (UpdSlot.mk .linear 0 4) }, .vrd 64 31 31 31 slotsTop, .vrd 63 32 31 31 slotsTop]
    (fun i => !i.wellFormed) = true := by decide +kernel

theorem test_wf_refuses_word_11 :
    List.all (α := Instr)
    [.vrd 63 31 32 31 slotsTop, .vrd 63 31 31 32 slotsTop, .vrd 63 31 31 31 { slotsTop with ld := some (LdSlot.mk .ldv 32 0) },
     .vrd 63 31 31 31 { slotsTop with st := some (StSlot.mk .stv 0 16) },
     .vrd 63 31 31 31 { slotsTop with u1 := some (UpdSlot.mk .linear 16 0) },
     .vrd 63 31 31 31 { slotsTop with u2 := some (UpdSlot.mk .linear 0 4) }, .vrdl 64 31 31 slotsTop, .vrdl 63 32 31 slotsTop,
     .vrdl 63 31 32 slotsTop, .vrdl 63 31 31 { slotsTop with ld := some (LdSlot.mk .ldv 32 0) },
     .vrdl 63 31 31 { slotsTop with st := some (StSlot.mk .stv 0 16) },
     .vrdl 63 31 31 { slotsTop with u1 := some (UpdSlot.mk .linear 16 0) },
     .vrdl 63 31 31 { slotsTop with u2 := some (UpdSlot.mk .linear 0 4) }, .vrdm 64 31 31 slotsTop, .vrdm 63 32 31 slotsTop,
     .vrdm 63 31 32 slotsTop, .vrdm 63 31 31 { slotsTop with ld := some (LdSlot.mk .ldv 32 0) },
     .vrdm 63 31 31 { slotsTop with st := some (StSlot.mk .stv 0 16) },
     .vrdm 63 31 31 { slotsTop with u1 := some (UpdSlot.mk .linear 16 0) },
     .vrdm 63 31 31 { slotsTop with u2 := some (UpdSlot.mk .linear 0 4) }, .vrdh 64 31 31 slotsTop, .vrdh 63 32 31 slotsTop,
     .vrdh 63 31 32 slotsTop, .vrdh 63 31 31 { slotsTop with ld := some (LdSlot.mk .ldv 32 0) }]
    (fun i => !i.wellFormed) = true := by decide +kernel

theorem test_wf_refuses_word_12 :
    List.all (α := Instr)
    [.vrdh 63 31 31 { slotsTop with st := some (StSlot.mk .stv 0 16) },
     .vrdh 63 31 31 { slotsTop with u1 := some (UpdSlot.mk .linear 16 0) },
     .vrdh 63 31 31 { slotsTop with u2 := some (UpdSlot.mk .linear 0 4) }, .vwra 64 31 31 31 slotsTop,
     .vwra 63 32 31 31 slotsTop, .vwra 63 31 32 31 slotsTop, .vwra 63 31 31 32 slotsTop,
     .vwra 63 31 31 31 { slotsTop with ld := some (LdSlot.mk .ldv 32 0) },
     .vwra 63 31 31 31 { slotsTop with st := some (StSlot.mk .stv 0 16) },
     .vwra 63 31 31 31 { slotsTop with u1 := some (UpdSlot.mk .linear 16 0) },
     .vwra 63 31 31 31 { slotsTop with u2 := some (UpdSlot.mk .linear 0 4) }, .vwrh 64 31 31 slotsTop, .vwrh 63 32 31 slotsTop,
     .vwrh 63 31 32 slotsTop, .vwrh 63 31 31 { slotsTop with ld := some (LdSlot.mk .ldv 32 0) },
     .vwrh 63 31 31 { slotsTop with st := some (StSlot.mk .stv 0 16) },
     .vwrh 63 31 31 { slotsTop with u1 := some (UpdSlot.mk .linear 16 0) },
     .vwrh 63 31 31 { slotsTop with u2 := some (UpdSlot.mk .linear 0 4) }, .vrdx 64 31 31 slotsTop, .vrdx 63 32 31 slotsTop,
     .vrdx 63 31 32 slotsTop, .vrdx 63 31 31 { slotsTop with ld := some (LdSlot.mk .ldv 32 0) },
     .vrdx 63 31 31 { slotsTop with st := some (StSlot.mk .stv 0 16) },
     .vrdx 63 31 31 { slotsTop with u1 := some (UpdSlot.mk .linear 16 0) }]
    (fun i => !i.wellFormed) = true := by decide +kernel

theorem test_wf_refuses_word_13 :
    List.all (α := Instr)
    [.vrdx 63 31 31 { slotsTop with u2 := some (UpdSlot.mk .linear 0 4) }, .smax 64 31 slotsTop, .smax 63 32 slotsTop,
     .smax 63 31 { slotsTop with ld := some (LdSlot.mk .ldv 32 0) },
     .smax 63 31 { slotsTop with st := some (StSlot.mk .stv 0 16) },
     .smax 63 31 { slotsTop with u1 := some (UpdSlot.mk .linear 16 0) },
     .smax 63 31 { slotsTop with u2 := some (UpdSlot.mk .linear 0 4) }, .smin 64 31 slotsTop, .smin 63 32 slotsTop,
     .smin 63 31 { slotsTop with ld := some (LdSlot.mk .ldv 32 0) },
     .smin 63 31 { slotsTop with st := some (StSlot.mk .stv 0 16) },
     .smin 63 31 { slotsTop with u1 := some (UpdSlot.mk .linear 16 0) },
     .smin 63 31 { slotsTop with u2 := some (UpdSlot.mk .linear 0 4) }, .smaxa 64 31 slotsTop, .smaxa 63 32 slotsTop,
     .smaxa 63 31 { slotsTop with ld := some (LdSlot.mk .ldv 32 0) },
     .smaxa 63 31 { slotsTop with st := some (StSlot.mk .stv 0 16) },
     .smaxa 63 31 { slotsTop with u1 := some (UpdSlot.mk .linear 16 0) },
     .smaxa 63 31 { slotsTop with u2 := some (UpdSlot.mk .linear 0 4) },
     .ldv 64 31 15 vopTop (some stTop) (some updTop) (some updTop),
     .ldv 63 32 15 vopTop (some stTop) (some updTop) (some updTop),
     .ldv 63 31 16 vopTop (some stTop) (some updTop) (some updTop),
     .ldv 63 31 15 (.vadd 0 0 32) (some stTop) (some updTop) (some updTop),
     .ldv 63 31 15 vopTop (some (StSlot.mk .stv 32 0)) (some updTop) (some updTop)]
    (fun i => !i.wellFormed) = true := by decide +kernel

theorem test_wf_refuses_word_14 :
    List.all (α := Instr)
    [.ldv 63 31 15 vopTop (some stTop) (some (UpdSlot.mk .circular 0 4)) (some updTop),
     .ldv 63 31 15 vopTop (some stTop) (some updTop) (some (UpdSlot.mk .circular 0 4)),
     .ldb 64 31 15 vopTop (some stTop) (some updTop) (some updTop),
     .ldb 63 32 15 vopTop (some stTop) (some updTop) (some updTop),
     .ldb 63 31 16 vopTop (some stTop) (some updTop) (some updTop),
     .ldb 63 31 15 (.vadd 0 0 32) (some stTop) (some updTop) (some updTop),
     .ldb 63 31 15 vopTop (some (StSlot.mk .stv 32 0)) (some updTop) (some updTop),
     .ldb 63 31 15 vopTop (some stTop) (some (UpdSlot.mk .circular 0 4)) (some updTop),
     .ldb 63 31 15 vopTop (some stTop) (some updTop) (some (UpdSlot.mk .circular 0 4)),
     .lds 64 31 15 vopTop (some stTop) (some updTop) (some updTop),
     .lds 63 32 15 vopTop (some stTop) (some updTop) (some updTop),
     .lds 63 31 16 vopTop (some stTop) (some updTop) (some updTop),
     .lds 63 31 15 (.vadd 0 0 32) (some stTop) (some updTop) (some updTop),
     .lds 63 31 15 vopTop (some (StSlot.mk .stv 32 0)) (some updTop) (some updTop),
     .lds 63 31 15 vopTop (some stTop) (some (UpdSlot.mk .circular 0 4)) (some updTop),
     .lds 63 31 15 vopTop (some stTop) (some updTop) (some (UpdSlot.mk .circular 0 4)),
     .stv 64 31 15 vopTop (some ldTop) (some updTop) (some updTop),
     .stv 63 32 15 vopTop (some ldTop) (some updTop) (some updTop),
     .stv 63 31 16 vopTop (some ldTop) (some updTop) (some updTop),
     .stv 63 31 15 (.vadd 0 0 32) (some ldTop) (some updTop) (some updTop),
     .stv 63 31 15 vopTop (some (LdSlot.mk .ldv 0 16)) (some updTop) (some updTop),
     .stv 63 31 15 vopTop (some ldTop) (some (UpdSlot.mk .circular 0 4)) (some updTop),
     .stv 63 31 15 vopTop (some ldTop) (some updTop) (some (UpdSlot.mk .circular 0 4)),
     .stl 64 31 15 vopTop (some ldTop) (some updTop) (some updTop)]
    (fun i => !i.wellFormed) = true := by decide +kernel

theorem test_wf_refuses_word_15 :
    List.all (α := Instr)
    [.stl 63 32 15 vopTop (some ldTop) (some updTop) (some updTop),
     .stl 63 31 16 vopTop (some ldTop) (some updTop) (some updTop),
     .stl 63 31 15 (.vadd 0 0 32) (some ldTop) (some updTop) (some updTop),
     .stl 63 31 15 vopTop (some (LdSlot.mk .ldv 0 16)) (some updTop) (some updTop),
     .stl 63 31 15 vopTop (some ldTop) (some (UpdSlot.mk .circular 0 4)) (some updTop),
     .stl 63 31 15 vopTop (some ldTop) (some updTop) (some (UpdSlot.mk .circular 0 4)),
     .std 64 31 15 vopTop (some ldTop) (some updTop) (some updTop),
     .std 63 32 15 vopTop (some ldTop) (some updTop) (some updTop),
     .std 63 31 16 vopTop (some ldTop) (some updTop) (some updTop),
     .std 63 31 15 (.vadd 0 0 32) (some ldTop) (some updTop) (some updTop),
     .std 63 31 15 vopTop (some (LdSlot.mk .ldv 0 16)) (some updTop) (some updTop),
     .std 63 31 15 vopTop (some ldTop) (some (UpdSlot.mk .circular 0 4)) (some updTop),
     .std 63 31 15 vopTop (some ldTop) (some updTop) (some (UpdSlot.mk .circular 0 4)),
     .updateLinear 64 15 3 vopTop (some ldTop) (some stTop) (some updTop),
     .updateLinear 63 16 3 vopTop (some ldTop) (some stTop) (some updTop),
     .updateLinear 63 15 4 vopTop (some ldTop) (some stTop) (some updTop),
     .updateLinear 63 15 3 (.vadd 0 0 32) (some ldTop) (some stTop) (some updTop),
     .updateLinear 63 15 3 vopTop (some (LdSlot.mk .ldv 0 16)) (some stTop) (some updTop),
     .updateLinear 63 15 3 vopTop (some ldTop) (some (StSlot.mk .stv 32 0)) (some updTop),
     .updateLinear 63 15 3 vopTop (some ldTop) (some stTop) (some (UpdSlot.mk .circular 0 4)),
     .updateCircular 64 15 3 vopTop (some ldTop) (some stTop) (some updTop),
     .updateCircular 63 16 3 vopTop (some ldTop) (some stTop) (some updTop),
     .updateCircular 63 15 4 vopTop (some ldTop) (some stTop) (some updTop),
     .updateCircular 63 15 3 (.vadd 0 0 32) (some ldTop) (some stTop) (some updTop)]
    (fun i => !i.wellFormed) = true := by decide +kernel

theorem test_wf_refuses_word_16 :
    List.all (α := Instr)
    [.updateCircular 63 15 3 vopTop (some (LdSlot.mk .ldv 0 16)) (some stTop) (some updTop),
     .updateCircular 63 15 3 vopTop (some ldTop) (some (StSlot.mk .stv 32 0)) (some updTop),
     .updateCircular 63 15 3 vopTop (some ldTop) (some stTop) (some (UpdSlot.mk .circular 0 4)),
     .updateBitReversed 64 15 3 vopTop (some ldTop) (some stTop) (some updTop),
     .updateBitReversed 63 16 3 vopTop (some ldTop) (some stTop) (some updTop),
     .updateBitReversed 63 15 4 vopTop (some ldTop) (some stTop) (some updTop),
     .updateBitReversed 63 15 3 (.vadd 0 0 32) (some ldTop) (some stTop) (some updTop),
     .updateBitReversed 63 15 3 vopTop (some (LdSlot.mk .ldv 0 16)) (some stTop) (some updTop),
     .updateBitReversed 63 15 3 vopTop (some ldTop) (some (StSlot.mk .stv 32 0)) (some updTop),
     .updateBitReversed 63 15 3 vopTop (some ldTop) (some stTop) (some (UpdSlot.mk .circular 0 4)), .rep 64 65535 8191,
     .rep 63 65536 8191, .rep 63 65535 8192, .repa 64 15 8191, .repa 63 16 8191, .repa 63 15 8192, .brk 64, .j 64 8191,
     .j 63 8192, .jz 64 15 8191, .jz 63 16 8191, .jz 63 15 8192, .jnz 64 15 8191, .jnz 63 16 8191]
    (fun i => !i.wellFormed) = true := by decide +kernel

theorem test_wf_refuses_word_17 :
    List.all (α := Instr)
    [.jnz 63 15 8192, .jneg 64 15 8191, .jneg 63 16 8191, .jneg 63 15 8192, .call 64 8191, .call 63 8192, .ret 64,
     .take 64 15 255, .take 63 16 255, .take 63 15 256, .put 64 15 255, .put 63 16 255, .put 63 15 256, .done 64,
     .xfer 64 true 15 15 15, .xfer 63 true 16 15 15, .xfer 63 true 15 16 15, .xfer 63 true 15 15 16, .waitx 64 255,
     .waitx 63 256, .setps 64 255, .setps 63 256, .mfs 64 15 255, .mfs 63 16 255]
    (fun i => !i.wellFormed) = true := by decide +kernel

theorem test_wf_refuses_word_18 :
    List.all (α := Instr)
    [.mfs 63 15 256, .mts 64 15 255, .mts 63 16 255, .mts 63 15 256, .mov 64 15 15, .mov 63 16 15, .mov 63 15 16, .ldw 64 15 15,
     .ldw 63 16 15, .ldw 63 15 16, .stw 64 15 15, .stw 63 16 15, .stw 63 15 16, .ldf 64 15 15, .ldf 63 16 15, .ldf 63 15 16,
     .srinit 64 15 true, .srinit 63 16 true, .bxclr 64, .bxstep 64, .halt 64, .trap 64 255, .trap 63 256, .li 64 127 (2 ^ 32 - 1)]
    (fun i => !i.wellFormed) = true := by decide +kernel

theorem test_wf_refuses_word_19 :
    List.all (α := Instr)
    [.li 63 128 (2 ^ 32 - 1), .li 63 127 (2 ^ 32), .addi 64 127 (2 ^ 32 - 1), .addi 63 128 (2 ^ 32 - 1), .addi 63 127 (2 ^ 32),
     .lih 64 127 (2 ^ 32 - 1), .lih 63 128 (2 ^ 32 - 1), .lih 63 127 (2 ^ 32)]
    (fun i => !i.wellFormed) = true := by decide +kernel

/-! Every operand at its greatest value -/

theorem test_wf_takes_block_1 :
    List.all (α := Instr)
    [.brownout 333333 0, .brownoutEnd 333333 0, .placementPublish 333333, .spanDelivered 333333 17 511 511,
     .feedRender 333333 511, .ingressCommit [] [(7, [])], .placementDeadline [511], .outputBusDeadline [511] [15],
     .egressDeadline [63] [15] [15], .tallyPurge (2 ^ 64 - 1), .preparationComplete 511 true, .crossfadeEnd 511,
     .driftEstimateWindow [pairTop 63 7], .syncReceived 333333 (syncMsg 3), .announceReceived 333333 (announce 3),
     .announceTimeout 3, .delayMeasurementComplete 3 0, .ptpMessageSend 3 .sync 0, .pdelayReqReceived 3 0 0,
     .ptpTransit 1 1 .sync .ethernet 0 0 0, .tuCarryWrite (2 ^ 32 - 1), .comparatorFire 333333 3, .pulseWidthEnd 333333 3,
     .captureEdge 333333 3 true]
    (Instr.wellFormed) = true := by decide +kernel

theorem test_wf_takes_block_2 :
    List.all (α := Instr)
    [.ringFrameReceived 333333 1 ringTop, .linkLock 3 3, .linkLoss 3, .lineModeAlternate 3,
     .streamPacketReceived 333333 1 dgramTop, .shadowCutoff 63 0, .aes3FrameReceived 333333 15 aesTop, .aes3NonAudioEnd 15,
     .aes3LockValuesReceived 15 (LockVals.mk 0 0 0 0 0), .aes3LockApply 15, .aes3RhoDecision 15 0, .aes3NoSignal 15,
     .aes3RateWindow 15, .pdmStuck 7, .pdmStuckRecover 7, .carrierPeriod carrierTop, .railStateChange 3,
     .overCurrentCut 333333 15 0, .driveShutdown 15, .senseStuck 2 15, .driveFaultItem 15, .drvMuteFaultRamp 15, .holdOffEnd 15,
     .retryCountReset 15]
    (Instr.wellFormed) = true := by decide +kernel

theorem test_wf_takes_block_3 :
    List.all (α := Instr)
    [.driveStart 15, .driveStop 15, .driveGateChange 333333 true, .heartbeatFrameReceived 333333 hbTop, .actInCollision 333333,
     .actOutClaim 333333 0, .folOpen 333333 srcTop folTop, .folClose 333333 srcTop folTop, .folRead 333333 srcTop folTop,
     .folWrite 333333 srcTop folTop, .folReadSeg 333333 srcTop folTop, .folWriteSeg 333333 srcTop folTop,
     .folXferAbort 333333 srcTop folTop, .folKeepalive 333333 srcTop folTop, .folIdent 333333 srcTop folTop,
     .sessionTimeout (2 ^ 32 - 1), .transferTimeout (2 ^ 32 - 1), .writeForwardReceived 333333 fwdTop, .writeVerdictReceived 333333 0 (2 ^ 32 - 1),
     .clearMissRecords (2 ^ 32 - 1), .timeConfigWrite 65535 255 (2 ^ 64 - 1), .pulseConfigWrite 3 255 (2 ^ 64 - 1),
     .objectEnable 511 (2 ^ 32 - 1), .keyframeWrite 511 []]
    (Instr.wellFormed) = true := by decide +kernel

theorem test_wf_takes_block_4 :
    List.all (α := Instr)
    [.clearPlacementStatistics (2 ^ 32 - 1), .allocationWrite 511 0, .bankLoad 511 1 [], .bankSwitch 511 1,
     .correctionEnable 511 (2 ^ 32 - 1), .clearMeters 511 (2 ^ 32 - 1), .baselineCapture (2 ^ 32 - 1), .rotateFrame 7,
     .userSlotCopy 15, .retireFrame 7 (2 ^ 32 - 1), .retireRod 63 (2 ^ 32 - 1),
     .slotImageWrite 15 (SlotImage.mk 0 0 0 0 [] false false []), .slotEnable 15 (2 ^ 32 - 1),
     .clearTallyStatistics (2 ^ 32 - 1), .ringParticipation (2 ^ 32 - 1), .slotChannelChange true 63 255 (.num 0),
     .clearSlotStatistics 63 (2 ^ 32 - 1), .pdmClockWrite (2 ^ 32 - 1), .pdmEnable 7 (2 ^ 32 - 1),
     .aes3OutputChange 15 255 (.num 0), .driveEnable 15, .driveDisable 15, .clearLatch 15 (2 ^ 32 - 1),
     .driveEnableGlobal (2 ^ 32 - 1)]
    (Instr.wellFormed) = true := by decide +kernel

theorem test_wf_takes_block_5 :
    List.all (α := Instr)
    [.clearRail 3 (2 ^ 32 - 1), .handover (2 ^ 32 - 1), .isolate (2 ^ 32 - 1), .clearTwinStatistics (2 ^ 32 - 1),
     .clearFolStatistics (2 ^ 32 - 1), .managementAddressWrite 255 (2 ^ 32 - 1), .gpioWrite 255 (2 ^ 32 - 1),
     .shutdownSelfTest (2 ^ 32 - 1) default, .park (2 ^ 32 - 1), .unpark (2 ^ 32 - 1) [] default,
     .targetedTest (2 ^ 32 - 1) default 0, .thermalLevelChange 333333 0, .provision (2 ^ 32 - 1), .deploy (2 ^ 32 - 1),
     .levelKeyWrite 5 [], .showKeyWrite 15 [], .showDataLoad none [] [] [] (2 ^ 40 - 1), .install (2 ^ 32 - 1),
     .liveSwitch (2 ^ 32 - 1), .updateCommit (2 ^ 32 - 1), .updateRevert (2 ^ 32 - 1), .retireSlide 17 (2 ^ 32 - 1),
     .migrateRank 3 (2 ^ 32 - 1), .clearLedgerCounters (2 ^ 32 - 1)]
    (Instr.wellFormed) = true := by decide +kernel

theorem test_wf_takes_block_6 :
    List.all (α := Instr)
    [.clearDramStatistics (2 ^ 32 - 1), .acknowledgeAll (2 ^ 32 - 1), .clearLog (2 ^ 32 - 1), .readStartWrite (2 ^ 32 - 1),
     .eventSourceWrite 255 (2 ^ 32 - 1), .registerWrite 31 (2 ^ 40 - 1) (2 ^ 32 - 1), .rodRunStart 63 8191, .rodRunStop 63,
     .rodFaultClear 63, .qcfgWrite 31 63 (2 ^ 32 - 1), .putWindowWrite 31 63 4095 [], .flowWrite 1023 (2 ^ 32 - 1),
     .tallyExclWrite (2 ^ 32 - 1), .putAccepted 63, .backpressureLong 63 0, .xferComplete 63 [upTop],
     .beamRequest [beamTop] [upTop], .lockedSequence 31 [beamTop], .lockTimeout 23 0, .masterReset 31, .ledgerScrub [upTop],
     .patrolScrub 0 [upTop], .selfRefreshExit (2 ^ 40 - 1), .heartbeatLineEdge 333333]
    (Instr.wellFormed) = true := by decide +kernel

theorem test_wf_takes_block_7 :
    List.all (α := Instr)
    [.sfpModuleAbsentOrFault 3 true true]
    (Instr.wellFormed) = true := by decide +kernel

/-! Words of a Rod with every operand at its greatest value -/

theorem test_wf_takes_word_1 :
    List.all (α := Instr)
    [.nop 63 slotsTop, .vmov 63 31 31 slotsTop, .vadd 63 31 31 31 slotsTop, .vsub 63 31 31 31 slotsTop,
     .vaddw 63 31 31 31 slotsTop, .vsubw 63 31 31 31 slotsTop, .vmul 63 31 31 31 slotsTop, .vabs 63 31 31 slotsTop,
     .vneg 63 31 31 slotsTop, .vmin 63 31 31 31 slotsTop, .vmax 63 31 31 31 slotsTop, .vand 63 31 31 31 slotsTop,
     .vor 63 31 31 31 slotsTop, .vxor 63 31 31 31 slotsTop, .vnot 63 31 31 slotsTop, .vcmpgt 63 31 31 31 slotsTop,
     .vcmpeq 63 31 31 31 slotsTop, .vshl 63 31 31 31 slotsTop, .vshr 63 31 31 31 slotsTop, .vshrl 63 31 31 31 slotsTop,
     .vperm 63 31 31 31 slotsTop, .vbcst 63 31 31 31 slotsTop, .vmpy 63 31 31 31 slotsTop, .vmac 63 31 31 31 slotsTop]
    (Instr.wellFormed) = true := by decide +kernel

theorem test_wf_takes_word_2 :
    List.all (α := Instr)
    [.vmsu 63 31 31 31 slotsTop, .vclr 63 31 slotsTop, .vlift 63 31 31 slotsTop, .vaadd 63 31 31 slotsTop,
     .vasub 63 31 31 slotsTop, .vtrw 63 31 slotsTop, .vred 63 31 slotsTop, .vaex 63 31 slotsTop, .vrd 63 31 31 31 slotsTop,
     .vrdl 63 31 31 slotsTop, .vrdm 63 31 31 slotsTop, .vrdh 63 31 31 slotsTop, .vwra 63 31 31 31 slotsTop,
     .vwrh 63 31 31 slotsTop, .vrdx 63 31 31 slotsTop, .smax 63 31 slotsTop, .smin 63 31 slotsTop, .smaxa 63 31 slotsTop,
     .ldv 63 31 15 vopTop (some stTop) (some updTop) (some updTop),
     .ldb 63 31 15 vopTop (some stTop) (some updTop) (some updTop),
     .lds 63 31 15 vopTop (some stTop) (some updTop) (some updTop),
     .stv 63 31 15 vopTop (some ldTop) (some updTop) (some updTop),
     .stl 63 31 15 vopTop (some ldTop) (some updTop) (some updTop), .std 63 31 15 vopTop (some ldTop) (some updTop) (some updTop)]
    (Instr.wellFormed) = true := by decide +kernel

theorem test_wf_takes_word_3 :
    List.all (α := Instr)
    [.updateLinear 63 15 3 vopTop (some ldTop) (some stTop) (some updTop),
     .updateCircular 63 15 3 vopTop (some ldTop) (some stTop) (some updTop),
     .updateBitReversed 63 15 3 vopTop (some ldTop) (some stTop) (some updTop), .rep 63 65535 8191, .repa 63 15 8191, .brk 63,
     .j 63 8191, .jz 63 15 8191, .jnz 63 15 8191, .jneg 63 15 8191, .call 63 8191, .ret 63, .take 63 15 255, .put 63 15 255,
     .done 63, .xfer 63 true 15 15 15, .waitx 63 255, .setps 63 255, .mfs 63 15 255, .mts 63 15 255, .mov 63 15 15,
     .ldw 63 15 15, .stw 63 15 15, .ldf 63 15 15]
    (Instr.wellFormed) = true := by decide +kernel

theorem test_wf_takes_word_4 :
    List.all (α := Instr)
    [.srinit 63 15 true, .bxclr 63, .bxstep 63, .halt 63, .trap 63 255, .li 63 127 (2 ^ 32 - 1), .addi 63 127 (2 ^ 32 - 1),
     .lih 63 127 (2 ^ 32 - 1)]
    (Instr.wellFormed) = true := by decide +kernel

end Sys2Proof.Tests
end

