-- ==== Sys2Proof/Tests/Setup.lean ====
section
/-! SUPPORT. Small states and operands that the tests and the witnesses share. -/
namespace Sys2Proof.Tests
open Sys2Proof.Machine

/-- Rod `r` Running with the registers `q`, the rest of the block as after reset. -/
def runs (r : Nat) (q : Rod) : State := State.reset.setRod r { q with st := .running }

/-- The module rendering, with ticks, all else as after reset. -/
def live : State := { State.reset with sup := { Super.init with mod := .rendering } }

/-- Dictionary entries of value in force: index, subindex, value. -/
def withVals (s : State) (l : List (Nat × Nat × Nat)) : State :=
  { s with dict := l.foldl (fun m e => mset 0 m (key e.1 e.2.1) e.2.2) s.dict }

/-- No load, store or update beside the vector operation. -/
def noSlots : Slots := Slots.mk none none none none

/-- Whether Rod `r` may issue the word it stands at. -/
def issuesB (s : State) (r : Nat) : Bool :=
  decide (r < 64 ∧ (s.rod r).st = .running ∧ (s.rod r).fenced = false ∧ rodErr s r (0x40000 + 8 * (s.rod r).pc) = none ∧
    wordLegal (isTransform r) (instrWord s r) = true)

/-- Whether a parallel word runs, as a value. -/
def runsB (s : State) (r : Nat) (w : ParWord) : Bool :=
  let loads := parLoads (s.rod r) w
  let stores := parStores (s.rod r) w
  issuesB s r && parOk (s.rod r) (isTransform r) w && !parConflict w && loads.all dmOk && stores.all dmOk &&
    !loadWaits (s.rod r) (loads.map Int.toNat) && !storeWaits (s.rod r) (stores.map Int.toNat) &&
    !rodLost s r (loads.map Int.toNat ++ stores.map Int.toNat)

theorem issues_of {s : State} {r : Nat} (h : issuesB s r = true) : Issues s r := by
  have h := of_decide_eq_true h
  exact ⟨h.1, h.2.1, h.2.2.1, h.2.2.2.1, h.2.2.2.2⟩

theorem wordRuns_of {s : State} {r : Nat} {w : ParWord} (h : runsB s r w = true) : WordRuns s r w := by
  simp only [runsB, Bool.and_eq_true, Bool.not_eq_true'] at h
  obtain ⟨⟨⟨⟨⟨⟨⟨h1, h2⟩, h3⟩, h4⟩, h5⟩, h6⟩, h7⟩, h8⟩ := h
  exact ⟨issues_of h1, h2, h3, ⟨h4, h5⟩, h6, h7, h8⟩

/-- Whether Rod `r` may execute a control word, as a value. -/
def controlsB (s : State) (r : Nat) : Bool := issuesB s r && !atBodyEnd (s.rod r)

theorem controls_of {s : State} {r : Nat} (h : controlsB s r = true) : Controls s r := by
  simp only [controlsB, Bool.and_eq_true, Bool.not_eq_true', atBodyEnd, List.any_eq_false, decide_eq_true_eq] at h
  exact ⟨issues_of h.1, h.2⟩

/-- Whether a transaction is served as soon as it is issued, as a value. -/
def servedB (s : State) (m x : Nat) : Bool :=
  decide (m < 32) && !masterFenced s m && decide (pairPri s m x ≠ 0) && targetReady s x && s.beam.waiting.isEmpty &&
    decide (32 ≤ (mget (32, 0) s.beam.locks x).1) && decide ((heldTags s).count m < 2) && (decide (x ≠ 14) || !tallyHeld s m)

/-- Whether a transaction waits alone, as a value. -/
def waitsB (s : State) (m x : Nat) : Bool :=
  decide (m < 32) && !masterFenced s m && decide (pairPri s m x ≠ 0) && s.beam.waiting.isEmpty &&
    (!targetReady s x || decide ((mget (32, 0) s.beam.locks x).1 < 32 ∧ (mget (32, 0) s.beam.locks x).1 ≠ m) ||
      (decide (x = 14) && tallyHeld s m))

theorem served_of {s : State} {m x : Nat} (h : servedB s m x = true) : Served s m x := by
  simp only [servedB, Bool.and_eq_true, Bool.or_eq_true, Bool.not_eq_true', decide_eq_true_eq, List.isEmpty_iff] at h
  obtain ⟨⟨⟨⟨⟨⟨⟨h1, h2⟩, h3⟩, h4⟩, h5⟩, h6⟩, h7⟩, h8⟩ := h
  exact ⟨⟨h1, h2⟩, h3, h4, h5, h6, h7, fun e => h8.resolve_left (fun n => n e)⟩

theorem waits_of {s : State} {m x : Nat} (h : waitsB s m x = true) : Waits s m x := by
  simp only [waitsB, Bool.and_eq_true, Bool.or_eq_true, Bool.not_eq_true', decide_eq_true_eq, List.isEmpty_iff] at h
  obtain ⟨⟨⟨⟨h1, h2⟩, h3⟩, h4⟩, h5⟩ := h
  exact ⟨⟨h1, h2⟩, h3, h4, or_assoc.mp h5⟩

end Sys2Proof.Tests
end

