-- ==== Sys2Proof/Tests/WitnessFol.lean ====
section
/-! SUPPORT. States and operands that meet the hypotheses of the statements about FOL, at boundary values of their ranges. -/
namespace Sys2Proof.Tests
open Sys2Proof.Machine

/-- The key of the session. -/
def key1 : List Byte := List.replicate 32 1#8

/-- A frame of session 7 with its tag. -/
def frame (op seq index sub flags offset total : Nat) (data : List Byte) : FolFrame :=
  let f := FolFrame.mk 0x464F 1 op 7 seq index sub flags 0 offset total data.length 0 0 data []
  { f with tag := folTag key1 f }

/-- Session 7 of level 3 from the management port, its last sequence number the greatest, one request below its rate. -/
def sess (fixed : Option (Nat × Nat × List Byte)) (xfer : Option Transfer) : Session where
  id      := 7
  slot    := 0
  level   := 3
  port    := 2
  addr    := 9
  udp     := 9450
  opened  := 0
  segment := 64
  notify  := false
  key     := key1
  seq     := 2 ^ 32 - 1
  kept    := some (FolFrame.mk 0x464F 1 8 7 (2 ^ 32 - 1) 0 0 1 0 0 0 0 0 0 [] [])
  nseq    := 0
  fixed   := fixed
  xfer    := xfer
  lastAt  := 0
  reqs    := 1999
  window  := 0

/-- The module with that session, one request below the rate of all. -/
def served (x : Session) : State :=
  { live with
    ports := [(2, Port.mk true 4 4 false false)]
    power := { Power.init with inReset := false }
    fol := { Fol.init with sessions := [x], reqs := 19999 } }

/-- The client. -/
def client : FolSrc := FolSrc.mk 2 9 9450

/-- The instant at which its frames come: the last of the tick. -/
def at_ : Nat := 333332

/-- The module as its frame has arrived. -/
def arrived (x : Session) : State := folFrameIn ((served x).elapse at_) client

/-- The module serves a session, as a value. -/
def serves (x : Session) : Bool :=
  folHears (arrived x) client && decide (x.udp = 9450) && decide ((arrived x).sup.mod ≠ .recovery) &&
    decide (sessionOf (arrived x) 7 = some x) && decide (x.key = key1)

/-- Every frame of the session is heard. -/
theorem heard_of {x : Session} (h : serves x = true) (op seq index sub flags offset total : Nat) (data : List Byte) :
    Heard (arrived x) client x (frame op seq index sub flags offset total data) := by
  simp only [serves, Bool.and_eq_true, decide_eq_true_eq] at h
  have hs : sessionOf (arrived x) (frame op seq index sub flags offset total data).session = some x := h.1.2
  refine ⟨h.1.1.1.1, ?_, h.1.1.2, ?_, by simp [frame], hs, by rw [h.2]; rfl⟩
  · simp only [folPortOk, hs]
    exact decide_eq_true h.1.1.1.2.symm
  · simp [folBroken, frame, folTag_length]

/-- A heard frame that is a next request, from facts that evaluate. -/
theorem next_of {x : Session} {op seq index sub flags offset total : Nat} {data : List Byte} (h : serves x = true)
    (hf : folFault (frame op seq index sub flags offset total data) x.segment = false ∧ seq = (x.seq + 1) % 2 ^ 32 ∧
      folRate (arrived x) x = true ∧ (x.xfer.all (transferLives (arrived x))) = true) :
    NextRequest (arrived x) client x (frame op seq index sub flags offset total data) op :=
  ⟨heard_of h .., rfl, hf.1, hf.2.1, hf.2.2.1, fun r hr => by simpa [hr] using hf.2.2.2⟩

/-- A transfer of four bytes, half of them received. -/
def half : Transfer := Transfer.mk 0x3000 0x06 4 0 false [1#8, 2#8] 0 false

/-- A session without and with what its requests need. -/
def plain : Session := sess none none
def fixing : Session := sess (some (0x3000, 0x03, List.replicate 65 7#8)) none
def moving2 : Session := sess none (some half)

theorem plain_serves : serves plain = true := by decide
theorem fixing_serves : serves fixing = true := by decide
theorem moving_serves : serves moving2 = true := by decide

/-- The client's session under another key. -/
def otherTag (f : FolFrame) : FolFrame := { f with tag := if f.tag.head? = some 0#8 then List.replicate 16 1#8 else List.replicate 16 0#8 }

theorem otherTag_ne (f : FolFrame) : (otherTag f).tag ≠ f.tag := by
  unfold otherTag
  split
  · next h => intro e; rw [← e] at h; simp [List.replicate] at h
  · next h => intro e; rw [← e] at h; simp [List.replicate] at h

theorem frame_tag (op seq index sub flags offset total : Nat) (data : List Byte) :
    (frame op seq index sub flags offset total data).tag = folTag key1 (frame op seq index sub flags offset total data) := rfl

theorem otherTag_bad (x : Session) (f : FolFrame) (hx : x.key = key1) (h : f.tag = folTag key1 f) :
    (otherTag f).tag ≠ folTag x.key (otherTag f) := by
  have e : folTag key1 (otherTag f) = folTag key1 f := rfl
  rw [hx, e, ← h]
  exact otherTag_ne f

theorem witness_FolRequests :
    let u := arrived plain
    (folHears (live.elapse at_) client = false) ∧
    (folHears u client = true ∧ folPortOk u { client with udp := 9451 } (frame 8 0 0 0 0 0 0 []) = false ∧
      folPortOk u { client with udp := 65535 } { frame 8 0 0 0 0 0 0 [] with session := 0 } = false) ∧
    (folHears u client = true ∧ folPortOk u client (frame 8 0 0 0 0 0 0 []) = true ∧
      folPortOk u client { frame 8 0 0 0 0 0 0 [] with session := 8 } = true ∧ u.sup.mod ≠ .recovery ∧ folBroken { frame 8 0 0 0 0 0 0 [] with version := 2 } = true ∧
      (let f := otherTag (frame 8 0 0 0 0 0 0 []); f.session ≠ 0 ∧ f.tag ≠ folTag plain.key f) ∧
      sessionOf u 0 = none ∧ sessionOf u 8 = none) ∧
    (Heard u client plain (frame 9 0 0 0 0 0 0 []) ∧ (frame 9 0 0 0 0 0 0 []).op ≠ 8) ∧
    (Heard u client plain (frame 8 0 0 0 1 0 0 []) ∧ folFault (frame 8 0 0 0 1 0 0 []) plain.segment = true) ∧
    (Heard u client plain (frame 8 (2 ^ 32 - 1) 0 0 0 0 0 []) ∧ plain.kept.isSome = true) ∧
    (Heard u client plain (frame 8 1 0 0 0 0 0 []) ∧ 1 ≠ plain.seq ∧ 1 ≠ (plain.seq + 1) % 2 ^ 32) ∧
    folRate u { plain with reqs := 2000 } = false ∧
    NextRequest u client plain (frame 9 0 0 0 0 0 0 []) 9 ∧
    NextRequest u client plain (frame 8 0 0 0 0 0 0 []) 8 ∧ NextRequest u client plain (frame 2 0 0 0 0 0 0 []) 2 ∧
    (NextRequest u client plain (frame 7 0 0 0 0 0 0 []) 7 ∧ plain.xfer = none) ∧
    (NextRequest (arrived moving2) client moving2 (frame 7 0 0 0 0 0 0 []) 7 ∧ moving2.xfer.isSome = true) ∧
    (NextRequest u client plain (frame 3 0 0x1000 0x01 0 0 0 []) 3 ∧ readAccess 0x1000 0x01 3 = 0 ∧ readAccess 0x9010 0x01 3 ≠ 0) ∧
    (NextRequest (arrived fixing) client fixing (frame 5 0 0x3000 0x03 0 65 0 []) 5 ∧
      fixing.fixed = some (0x3000, 0x03, List.replicate 65 7#8) ∧ 65 ≤ (List.replicate 65 7#8).length ∧
      (List.replicate 65 7#8).length < 66) ∧
    (NextRequest u client plain (frame 5 0 0x3000 0x03 0 0 0 []) 5 ∧ plain.fixed = none) ∧
    (NextRequest u client plain (frame 4 0 0x3000 0x01 0 0 1 [1#8]) 4 ∧ bitOf (frame 4 0 0x3000 0x01 0 0 1 [1#8]).flags 1 = false ∧
      writeAccess 0x3000 0x01 3 = 0 ∧ (∃ r, rowOf 0x3000 0x01 = some r ∧ actsAtOnce r 0x3000 0x01 = false) ∧
      pendCount (served plain) < 4096 ∧ (served plain).twin.inService = false) ∧
    (NextRequest u client plain (frame 4 0 0x3000 0x06 2 0 4 [1#8, 2#8]) 4 ∧
      bitOf (frame 4 0 0x3000 0x06 2 0 4 [1#8, 2#8]).flags 1 = true ∧
      startCheck (requestTurn u plain (frame 4 0 0x3000 0x06 2 0 4 [1#8, 2#8])).1
        (frame 4 0 0x3000 0x06 2 0 4 [1#8, 2#8]) = 0) ∧
    (NextRequest (arrived moving2) client moving2 (frame 6 0 0x3000 0x06 2 2 4 [3#8]) 6 ∧
      moving2.xfer = some half ∧ 2 = half.data.length ∧ 2 + 1 ≤ half.total ∧ 3 ≠ half.data.length) ∧
    (levelKey u client 1 = List.replicate 32 0#8 ∧ u.fol.sessions.length < 16 ∧ levelKey u client 5 = [] ∧
      16 ≤ (List.replicate 16 plain).length ∧ (1 < 4 ∨ client.port = 2) ∧
      openMalformed { frame 1 0 0 0 0 0 0 ([1#8, 0#8, 32#8, 0#8] ++ List.replicate 16 0#8) with session := 0 } = false) ∧
    u.fol.identSec = folSecond u := by
  refine ⟨by decide, ⟨by decide, by decide, by decide⟩, ⟨by decide, by decide, by decide, by decide, rfl, ⟨by simp [otherTag, frame], otherTag_bad plain _ rfl (frame_tag ..)⟩, by decide, by decide⟩, ⟨heard_of plain_serves .., by decide⟩,
    ⟨heard_of plain_serves .., by decide⟩, ⟨heard_of plain_serves .., by decide⟩, ⟨heard_of plain_serves .., by decide, by decide⟩,
    by decide, next_of plain_serves (by decide), next_of plain_serves (by decide), next_of plain_serves (by decide), ⟨next_of plain_serves (by decide), by decide⟩,
    ⟨next_of moving_serves (by decide), by decide⟩, ⟨next_of plain_serves (by decide), by decide, by decide⟩,
    ⟨next_of fixing_serves (by decide), by decide, by decide, by decide⟩, ⟨next_of plain_serves (by decide), by decide⟩,
    ⟨next_of plain_serves (by decide), by decide, by decide, ⟨_, rfl, by decide⟩, by decide, by decide⟩,
    ⟨next_of plain_serves (by decide), by decide, by decide⟩,
    ⟨next_of moving_serves (by decide), by decide, by decide, by decide, by decide⟩, by decide, by decide⟩

/-- The pending write of a frame that writes one byte. -/
def pendOf (s : State) (f : FolFrame) : Pending where
  index   := f.index
  sub     := f.sub
  bytes   := f.data
  block   := s.clk.tick + 2
  time    := none
  keyT    := s.clk.local.toNat
  keyId   := s.sup.twinId
  await   := false
  session := 7
  seq     := f.seq
  op      := f.op

/-- The code of the checks of a write that changes nothing else. -/
def codeOf (s : State) (r : Row) (f : FolFrame) : Nat := writeCheck s (stateAhead s (pendOf s f)) r f.index f.sub f.data true

/-- As many pending writes as the module holds. -/
def crowd : List Pending := List.replicate 4096 (Pending.mk 0x3000 0x01 [1#8] 9 none 77 0 false 7 0 4)

theorem crowd_full (u : State) : pendCount { u with pend := crowd } = 4096 := by
  have h : actedPending (Pending.mk 0x3000 0x01 [1#8] 9 none 77 0 false 7 0 4) = false := by decide
  have e : ∀ n, ((List.replicate n (Pending.mk 0x3000 0x01 [1#8] 9 none 77 0 false 7 0 4)).filter
      (fun p => !actedPending p)).length = n := by
    intro n; rw [List.filter_replicate_of_pos (by rw [h]; rfl), List.length_replicate]
  exact e 4096

theorem witness_FolRequests_writes :
    let u := arrived plain
    (∃ r, rowOf 0x3000 0x01 = some r ∧ r.shared = true ∧
      codeOf (requestTurn u plain (frame 4 0 0x3000 0x01 0 0 1 [1#8])).1 r (frame 4 0 0x3000 0x01 0 0 1 [1#8]) = 0 ∧
      codeOf (requestTurn u plain (frame 4 0 0x3000 0x01 0 0 1 [2#8])).1 r (frame 4 0 0x3000 0x01 0 0 1 [2#8]) ≠ 0) ∧
    ({ u with twin := { u.twin with inService := true } } : State).twin.inService = true ∧
    pendCount { u with pend := crowd } = 4096 ∧
    (folHears u client = true ∧ folPortOk u client { frame 9 0 0 0 0 0 0 [] with session := 0 } = true ∧
      mget 0 u.fol.idents 2 < 10 ∧ mget 0 ({ u.fol with idents := [(2, 10)] } : Fol).idents 2 = 10) := by
  refine ⟨⟨_, rfl, by decide, by decide, by decide⟩, by decide, crowd_full _, by decide, by decide, by decide, by decide⟩

/-- Local time of 10 s, the session last heard at `last`, a transfer since `since`. -/
def waited (last since : Int) : State :=
  let s := served { sess none (some { half with time := since }) with lastAt := last }
  { s with clk := { Clock.init with ns := 1410065408#32, carry := 2#32 } }

/-- A write of object 511's enable that awaits its verdict, for block `b`. -/
def awaiting (b : Nat) : Pending :=
  Pending.mk 0x31FF 0x01 [1#8] b none 77 0 true 7 0 4

/-- The module in tick 10 with that write. -/
def judged (b : Nat) (await : Bool) : State :=
  { live with pend := [{ awaiting b with await := await }], clk := { Clock.init with tick := 10 } }

/-- A write that acts at once and awaits its verdict: TWIN_ID's own entry. -/
def instant : Pending := { awaiting 9 with index := 0x1100, sub := 0x01 }

theorem witness_FolTimeouts :
    (let s := waited 0 0;
      s.clk.local = 10000000000 ∧ (∀ y ∈ s.fol.sessions, y.id = 7 → y.lastAt + (s.val 10 0x1020 0x04 : Nat) * 1000000000 ≤ s.clk.local) ∧
      transferLives s { half with time := 0 } = false) ∧
    (let s := waited 1 8000000000;
      (∀ y ∈ s.fol.sessions, y.id = 7 → s.clk.local < y.lastAt + (s.val 10 0x1020 0x04 : Nat) * 1000000000) ∧
      transferLives s { half with time := 8000000000 } = true ∧ ∃ x, sessionOf s 7 = some x ∧ x.xfer.isSome = true) ∧
    (let w := awaiting 12;
      ∃ r, rowOf 0x31FF 0x01 = some r ∧ r.atOnce = false ∧ valBytes r (.num 1) = [1#8] ∧
        (let u := (live.elapse 0).heard 3;
          writeCheck u (stateAhead u { w with await := false, session := 0, op := 0 }) r 0x31FF 0x01 [1#8] (partnerAccepts 0x31FF 0x01) = 0 ∧
          writeCheck u (stateAhead u { w with await := false, session := 0, op := 0, bytes := [2#8] }) r 0x31FF 0x01 [2#8]
            (partnerAccepts 0x31FF 0x01) ≠ 0) ∧
        pendCount live < 4096 ∧ pendCount { live with pend := crowd } = 4096 ∧ rowOf 0x0FFF 0xFF = none) ∧
    ((judged 11 true).pend.find? (awaits (judged 11 true) 77) = some (awaiting 11) ∧ 11 ≤ (judged 11 true).clk.tick + 1 ∧
      (judged 12 true).pend.find? (awaits (judged 12 true) 77) = some (awaiting 12) ∧ (judged 12 true).clk.tick + 1 < 12 ∧
      live.pend.find? (awaits live 77) = none ∧
      (∃ r, rowOf (awaiting 11).index (awaiting 11).sub = some r ∧ r.atOnce = false)) ∧
    (({ judged 9 true with pend := [instant] } : State).pend.find? (awaits (judged 9 true) 77) = some instant ∧
      ∃ r, rowOf instant.index instant.sub = some r ∧ r.atOnce = true) ∧
    (let s := judged 10 false; let q := { awaiting 10 with await := false };
      s.pend = [q] ∧ q.block ≤ s.clk.tick ∧ s.twin.sync ≠ 1 ∧ ∃ r, rowOf q.index q.sub = some r ∧ r.atOnce = false ∧
        writeCheck { s with pend := [] } { s with pend := [] } r q.index q.sub q.bytes false = 0 ∧
        writeCheck { s with pend := [] } { s with pend := [] } r q.index q.sub [2#8] false ≠ 0) := by
  refine ⟨by decide, ⟨by decide, by decide, _, rfl, by decide⟩, ⟨_, rfl, by decide, by decide, by decide, by decide, crowd_full _, by decide⟩,
    ⟨by decide, by decide, by decide, by decide, by decide, _, rfl, by decide⟩, ⟨by decide, _, rfl, by decide⟩,
    by decide, by decide, by decide, _, rfl, by decide, by decide, by decide⟩

end Sys2Proof.Tests
end

