-- ==== Sys2Proof/Tests/WitnessPorts.lean ====
section
/-! SUPPORT. States and operands that meet the hypotheses of the statements about the ring, the audio ports and the drive channels, at
boundary values of their ranges. -/
namespace Sys2Proof.Tests
open Sys2Proof.Machine

/-! The ring -/

/-- The bypass with EN, the dead-man fed and a run of fed ticks, and participation. -/
def byp (en fed : Bool) (run : Nat) (p : Partic) (settle : Nat) : State :=
  { withVals live [(0x2100, 0x04, 1), (0x2100, 0x01, 1), (0x2111, 0x01, 1)] with
    power := { Power.init with inReset := false, brownout := false }
    byp := { Bypass.init with en := en, fed1 := fed, fedRun := run, partic := p, settle := settle } }

/-- The same with the holds sunk. -/
def sunk (fed : Bool) : State := let s := byp true fed 0 .inRing 0; { s with byp := { s.byp with hold := true } }

theorem witness_LinksAndBypass :
    (let s := byp false true 3000 .outRing 0;
      (3 < 4 ∧ lockMode s 3 = 3 ∧ 3 ≠ 0 ∧ lockMode s 3 ≠ 4 ∧ lockMode s 1 = 1) ∧
      (1 < 2 ∧ s.val 0 (0x2110 + 1) 0x01 = 1 ∧ s.val 0 (0x2110 + 0) 0x01 ≠ 1 ∧ (s.port 1).lock = false) ∧
      (s.byp.en = false ∧ s.byp.hold = false ∧ bypOk s = true ∧ s.power.brownout = false ∧ s.power.inReset = false) ∧
      s.gate 0x2100 = 0 ∧ s.flag 0x2100 0x04 = true ∧ s.flag 0x2100 0x01 = true ∧ 3000 ≤ s.byp.fedRun ∧
      s.flag 0x1100 0x03 = false) ∧
    (let s := { live with ports := [(3, Port.mk true 3 3 false false)] }; (s.port 3).lock = true) ∧
    (byp false true 2999 .outRing 0).byp.fedRun < 3000 ∧ (byp true true 0 .outRing 0).byp.en = true ∧
    (let s := byp false false 0 .outRing 0; s.byp.en = false ∧ s.byp.hold = false ∧ bypOk s = false) ∧
    ((byp true true 0 .joining 0).byp.partic = .joining ∧ (byp true true 0 .joining 0).byp.settle ≤ live.clk.tick ∧
      live.clk.tick < (byp true true 0 .joining 1).byp.settle ∧ (byp true true 0 .inRing 0).byp.partic ≠ .joining) ∧
    ((sunk false).byp.hold = true ∧ bypOk (sunk false) = false ∧ bypOk (sunk true) = true ∧ (sunk true).gate 0x2100 = 0) ∧
    (let s := byp true true 0 .outRing 0; s.byp.hold = false ∧ s.byp.en = true ∧ bypOk s = true ∧ s.power.inReset = false) ∧
    (3900 ≤ 3900 ∧ 3900 < 4200 ∧ 4199 < 4200 ∧ 4200 ≤ 4200 ∧ 4400 < 4401 ∧ 4400 ≤ 4400 ∧ 1 < 2) ∧
    (withVals live [(0x1100, 0x03, 1)]).flag 0x1100 0x03 = true := by
  refine ⟨?_, ?_, ?_, ?_, ?_, ?_, ?_, ?_, ?_, ?_⟩ <;> decide

/-- A Placement packet of the last slot for the time `pres`. -/
def placementPacket (pres : Nat) (length : Nat) (flags : Byte := 1) : Datagram :=
  Datagram.mk 0 5004 true false true
    (([0x54#8, 0x42#8, 1#8, 2#8, 0#8, 0#8, 0#8, 0#8] ++ beBytes 8 pres ++ beBytes 4 9 ++ [flags] ++ List.replicate 11 0#8).take length)

/-- In the ring, both ports locked, receive slot 63 enabled for Placement, at a tick and an instant of it. -/
def inRing (tick ofs : Nat) : State :=
  let s := withVals (byp true true 3000 .inRing 0) [(0x223F, 0x01, 1), (0x223F, 0x02, 4), (0x223F, 0x04, 5004)]
  { s with
    hist := List.replicate 6 s.dict
    ports := [(0, Port.mk true 3 3 false false), (1, Port.mk true 3 3 false false)]
    clk := { Clock.init with tick := tick, ofs := ofs } }

/-- Receive slot 63 enabled for channel 1 of a Block Stream, and a packet of channel 0. -/
def claimed : State :=
  let s := withVals (inRing 0 0) [(0x223F, 0x02, 3), (0x223F, 0x06, 2)]
  { s with hist := List.replicate 6 s.dict }

def overPacket : Datagram :=
  Datagram.mk 0 5004 true false true
    ([0x54#8, 0x42#8, 1#8, 1#8, 0#8, 0#8, 0#8, 0#8] ++ beBytes 8 0 ++ beBytes 4 9 ++ [1#8, 1#8] ++ beBytes 2 32 ++ beBytes 8 1 ++
      List.replicate 128 0#8)

theorem witness_FramesAndPackets :
    (let u := (byp false true 0 .outRing 0).elapse 0; 1 < 2 ∧ (u.port 1).lock = false ∧ u.byp.partic ≠ .inRing) ∧
    (let u := ({ inRing 0 0 with byp := Bypass.init } : State).elapse 0; (u.port 1).lock = true ∧ u.byp.partic ≠ .inRing) ∧
    (∃ f : RingFrame, let u := (inRing 0 0).elapse 0
      (u.port 1).lock = true ∧ (u.port (1 - 1)).lock = true ∧ u.byp.partic = .inRing ∧ f.pause = false ∧ f.fcsOk = true ∧
      f.srcMac ≠ Config.mac.toNat ∧ 64 ≤ f.length ∧ f.length ≤ 9022 ∧ linkLocal f.dstMac = false ∧ addressed u f = false ∧
      f.kind = .ipv4 2 0 false) ∧ (1 < 2 ∧ 1 ≤ 1) ∧
    (let u := (inRing 0 0).elapse 313333; let g := placementPacket 0 32; let d := (packetTick u 63 g.payload).2;
      (u.port 1).lock = true ∧ u.byp.partic = .inRing ∧ rxSlots u = [63] ∧ 63 < 64 ∧ packetTick u 63 g.payload = (0, d) ∧
      rxMatches d 63 g = true ∧ rxCheck u.n d 63 g = .valid ∧ (u.clk.tick : Int) ≤ 0 ∧ 0 ≤ (u.clk.tick : Int) + 7 ∧
      0 ≤ marginOf u 0 ∧ beAt g.payload 20 1 % 2 = 1 ∧ (rxOf u 63).taken = []) ∧
    (∃ f : RingFrame, let u := (inRing 0 0).elapse 0
      f.pause = false ∧ f.fcsOk = true ∧ f.srcMac ≠ Config.mac.toNat ∧ 64 ≤ f.length ∧ f.length ≤ 9022 ∧
      linkLocal f.dstMac = false ∧ (∀ k, addressed u { f with kind := k } = true) ∧ 63 < 64 ∧ (u.port 1).lock = true) ∧
    ((withVals live [(0x2100, 0x0C, 7)]).val 0 0x2100 0x0C = 7 ∧ 7 ≠ 0) ∧
    (let u := (inRing 0 0).elapse 313333; let g := placementPacket 0 32 2; let d := (packetTick u 63 g.payload).2;
      packetTick u 63 g.payload = (0, d) ∧ rxMatches d 63 g = true ∧ rxCheck u.n d 63 g = .valid ∧ 0 ≤ marginOf u 0 ∧
      3 ≤ rxType d 63 ∧ beAt g.payload 20 1 % 2 = 0 ∧ (rxOf u 63).taken = [] ∧ (rxOf u 63).shadow = []) ∧
    (let u := claimed.elapse 0; let g := overPacket; let d := (packetTick u 63 g.payload).2;
      (u.port 1).lock = true ∧ u.byp.partic = .inRing ∧ rxSlots u = [63] ∧ packetTick u 63 g.payload = (0, d) ∧
      rxMatches d 63 g = true ∧ rxCheck u.n d 63 g = .claim) ∧
    (let u := (inRing 0 0).elapse 0; let g := placementPacket 0 31; let d := (packetTick u 63 g.payload).2;
      rxMatches d 63 g = true ∧ rxCheck u.n d 63 g = .malformed) ∧
    (let u := (inRing 0 0).elapse 0; let g := placementPacket 2666666 32; let d := (packetTick u 63 g.payload).2;
      packetTick u 63 g.payload = (8, d) ∧ rxMatches d 63 g = true ∧ rxCheck u.n d 63 g = .valid ∧ (u.clk.tick : Int) + 7 < 8) ∧
    (let u := (inRing 1 0).elapse 0; let g := placementPacket 0 32; let d := (packetTick u 63 g.payload).2;
      packetTick u 63 g.payload = (0, d) ∧ rxMatches d 63 g = true ∧ rxCheck u.n d 63 g = .valid ∧ 0 < (u.clk.tick : Int)) ∧
    (live.gate (0x2300 + 63) = 0 ∧ live.gate (0x2200 + 63) = 0 ∧ 1 ≤ 1 ∧ 2 ^ 64 - 1 < 2 ^ 64 ∧ 1 < 2 ∧
      txMapCheck (List.replicate 128 255#8) = 0 ∧ rxMapCheck (List.replicate 64 63#8) = 0 ∧
      (List.replicate 127 255#8).length ≠ 128 ∧ (List.replicate 65 0#8).length ≠ 64) := by
  refine ⟨by decide, by decide, ?_, by decide, ?_, ?_, by decide, ?_, ?_, ?_, ?_, ?_, by decide +kernel⟩
  · refine ⟨RingFrame.mk (Config.mac.toNat + 1) (if Config.mac.toNat = 2 then 1 else 2) 9022 (.ipv4 2 0 false) true false, by decide,
      by decide, by decide, rfl, rfl, (by simp), by decide, by decide, ?_, ?_, rfl⟩
    · by_cases h : Config.mac.toNat = 2 <;> simp [h, linkLocal]
    · have hr : rxEnabled ((inRing 0 0).elapse 0).dict = [63] := by decide
      have hv : ((inRing 0 0).elapse 0).val 0 (0x2200 + 63) 0x03 = 0 := by decide
      by_cases h : Config.mac.toNat = 2
      · simp [addressed, h, ptpMac, groupMac, hr, hv]
      · simp [addressed, h, ptpMac, groupMac, hr, hv, Ne.symm h]
  · decide
  · refine ⟨RingFrame.mk (Config.mac.toNat + 1) 0x011B19000000 64 .other true false, rfl, rfl, by simp, by decide, by decide, by decide,
      fun k => by simp [addressed, ptpMac], by decide, by decide⟩
  all_goals decide +kernel

/-! Audio ports -/

/-- AES3 input 15 in a mode, with what it holds. -/
def aesAt (mode : Nat) (r : AesIn) (role : Role) (tick : Nat) : State :=
  { withVals live [(0x241F, 0x01, mode)] with
    aesIn := [(15, r)], twin := { Twin.init with role := role }, clk := { Clock.init with tick := tick } }

/-- PDM input 7, on or off, with what it holds; its settings fit where the clock runs. -/
def pdmAt (on clock : Nat) (r : PdmIn) : State := { withVals live [(0x2447, 0x01, on), (0x2400, 0x01, clock)] with pdm := [(7, r)] }

theorem witness_InputPorts :
    (15 < 16 ∧ aesMode ((aesAt 2 AesIn.init .solo 0).elapse 333332) 15 ≠ 0 ∧ aesMode ((aesAt 0 AesIn.init .solo 0).elapse 0) 15 = 0 ∧
      (aesAt 1 AesIn.init .standby 0).twin.role = .standby ∧ aesMode (aesAt 1 AesIn.init .standby 0) 15 ≠ 0 ∧
      (aesAt 1 AesIn.init .active 0).twin.role ≠ .standby ∧ aesMode (aesAt 2 AesIn.init .solo 0) 15 = 2) ∧
    (let s := aesAt 1 { AesIn.init with state := .locked } .solo 0
      let u := s.elapse 10416
      let g := nearestGrid (mediaRate s.dict) (u.clk.local - (aesOf s 15).phi)
      aesMode u 15 = 1 ∧ (aesOf s 15).state = .locked ∧ (aesOf s 15).lastG = none ∧
        8 * iabs (u.clk.local - (aesOf s 15).phi - (sampleTime (mediaRate s.dict) g : Int)) * mediaRate s.dict < 3000000000) ∧
    (let s := aesAt 1 { AesIn.init with state := .locked } .solo 0
      let u := s.elapse 5208
      let g := nearestGrid (mediaRate s.dict) (u.clk.local - (aesOf s 15).phi)
      3000000000 ≤ 8 * iabs (u.clk.local - (aesOf s 15).phi - (sampleTime (mediaRate s.dict) g : Int)) * mediaRate s.dict) ∧
    (let s := aesAt 2 { AesIn.init with pending := some ⟨5, 0, 0, 0, 0⟩ } .solo 5;
      (aesOf s 15).pending = some ⟨5, 0, 0, 0, 0⟩ ∧ 5 ≤ s.clk.tick ∧ (aesAt 2 AesIn.init .solo 4).clk.tick < 5 ∧
      (aesOf (aesAt 2 AesIn.init .solo 4) 15).pending = none) ∧
    (∀ rho ∈ [268435456, 1082130432], (let s := aesAt 2 { AesIn.init with state := .locked, rho := rho } .solo 64;
      let t := aesAt 2 { AesIn.init with state := .locked, rho := rho } .standby 68;
      aesMode s 15 = 2 ∧ (aesOf s 15).state = .locked ∧ s.twin.role ≠ .standby ∧ ratioOk (lastRho (aesOf s 15)) = true ∧
      (aesOf s 15).rhoAt + 64 ≤ s.clk.tick ∧ t.twin.role = .standby ∧ (aesOf t 15).rhoAt + 68 ≤ t.clk.tick ∧
      ratioOk (lastRho (aesOf t 15)) = true ∧ ratioOk rho = true ∧ ratioOk 0 = false)) ∧
    (let s := aesAt 2 { AesIn.init with state := .locked } .standby 67;
      aesMode s 15 = 2 ∧ (aesOf s 15).state = .locked ∧ s.twin.role = .standby ∧ s.clk.tick < (aesOf s 15).rhoAt + 68 ∧
      (aesAt 2 { AesIn.init with state := .locked } .solo 63).clk.tick < (aesOf s 15).rhoAt + 64) ∧
    (let s := aesAt 2 { AesIn.init with state := .locked } .solo 64;
      (aesOf s 15).state ≠ .off ∧ (aesOf s 15).state ≠ .noSignal ∧ aesMode s 15 ≠ 0 ∧ 64 ≤ s.clk.tick - (aesOf s 15).winTick ∧
      (aesOf s 15).lastAt + silenceLimit (aesOf s 15) < tickStart s.clk.tick + tickLen s.clk.tick) ∧
    (let s := aesAt 2 { AesIn.init with state := .locked, lastAt := 283333 } .solo 0;
      (tickStart s.clk.tick + tickLen s.clk.tick : Int) ≤ (aesOf s 15).lastAt + silenceLimit (aesOf s 15)) ∧
    (aesAt 2 AesIn.init .solo 63).clk.tick - (aesOf (aesAt 2 AesIn.init .solo 63) 15).winTick < 64 ∧
    (let s := { aesAt 2 { AesIn.init with nonAudio := true, naFrames := 8192 } .solo 0 with
        dom := [(key 0x241F 0x09, List.replicate 24 0xFD#8), (key 0x241F 0x0A, List.replicate 24 0xFD#8)] };
      (aesOf s 15).nonAudio = true ∧ entBytes s.dom (0x2410 + 15) 0x09 ≠ [] ∧ entBytes s.dom (0x2410 + 15) 0x0A ≠ [] ∧
      statusNonAudio s 15 0x09 = false ∧ statusNonAudio s 15 0x0A = false ∧ 8192 ≤ (aesOf s 15).naFrames) ∧
    ((aesOf (aesAt 2 { AesIn.init with naFrames := 8191 } .solo 0) 15).naFrames < 8192 ∧ live.gate (0x2420 + 15) = 0 ∧
      aesOutCheck 15 0x02 (.bytes [0#8, 1#8, 255#8, 255#8]) = 0 ∧ aesOutCheck 15 0x01 (.num 2) ≠ 0) ∧
    (let s := pdmAt 1 1 { PdmIn.init with run := 4096 };
      pdmLive s 7 = true ∧ (pdmOf s 7).stuck = false ∧ 4096 ≤ (pdmOf s 7).run ∧ pdmOn s 7 = true ∧ pdmFits s 7 = true ∧ 2 ≤ 2 ∧
      s.gate (0x2440 + 7) = 0) ∧
    ((pdmOf (pdmAt 1 1 { PdmIn.init with run := 4095 }) 7).run < 4096 ∧ (pdmOf (pdmAt 1 1 { PdmIn.init with run := 4095 }) 7).full = false ∧
      (pdmOf (pdmAt 1 1 { PdmIn.init with full := true }) 7).full = true) ∧
    (let s := pdmAt 1 1 { PdmIn.init with stuck := true, clean := 2 }; (pdmOf s 7).stuck = true ∧ 2 ≤ (pdmOf s 7).clean) ∧
    (pdmOf (pdmAt 1 1 { PdmIn.init with stuck := true, clean := 1 }) 7).clean < 2 ∧
    (let s := pdmAt 0 1 PdmIn.init;
      (∀ m, m < 8 → pdmOn s m = false) ∧ s.gate 0x2400 = 0 ∧ pdmFits s 7 = true ∧ pdmOn s 7 = false ∧ s.gate (0x2440 + 7) = 0) ∧
    pdmFits (pdmAt 0 0 PdmIn.init) 7 = false := by
  refine ⟨?_, ?_, ?_, ?_, ?_, ?_, ?_, ?_, ?_, ?_, ?_, ?_, ?_, ?_, ?_, ?_, ?_⟩ <;> decide

/-! Drive channels -/

/-- Drive channel 15 in a state, rail group 3 in another, in a carrier period of the running tick. -/
def driving (d : Drive) (r : Rail) (m : Nat) : State :=
  { live with drives := [(15, d)], rails := [(3, r)], carrier := m }

theorem witness_CarrierAndRails :
    (∀ m ∈ [0, 127], (let s := driving { Drive.init with st := .running, limRun := 63 } Rail.init m;
      128 * s.clk.tick ≤ s.carrier ∧ s.carrier < 128 * (s.clk.tick + 1) ∧ 15 < 16 ∧ s.fenced (0x700 + 15) = false ∧
      (s.drive 15).st = .running ∧ mustShut (s.drive 15) = false ∧ railState s 15 = 0 ∧ drvEnt s 164 15 0x06 ≤ 2048)) ∧
    (let s := driving { Drive.init with st := .idle, ramp := false } Rail.init 0; (s.drive 15).st = .idle ∧ (s.drive 15).ramp = false) ∧
    (let s := driving Drive.init Rail.init 128; 128 * (s.clk.tick + 1) ≤ s.carrier) ∧
    (3 < 4 ∧ (let r := { Rail.init with below := 64 }; r.sense.stuck = false ∧ r.state = 0 ∧ 64 ≤ r.below) ∧
      (let r := { Rail.init with below := 63, above := 64 }; r.sense.stuck = false ∧ r.state = 0 ∧ r.below < 64 ∧ 64 ≤ r.above) ∧
      (let r := { Rail.init with state := 2, back := 19200 }; r.sense.stuck = false ∧ (r.state = 1 ∨ r.state = 2) ∧ 19200 ≤ r.back) ∧
      (let r := { Rail.init with state := 1, back := 19199 }; r.sense.stuck = false ∧ (r.state = 1 ∨ r.state = 2) ∧ r.back < 19200) ∧
      (let r := { Rail.init with sense := { Sense.init with stuck := true, run := 4096 } };
        r.sense.stuck = true ∧ r.state ≠ 3 ∧ 4096 ≤ r.sense.run)) ∧
    (let d := { Drive.init with v := { Sense.init with run := 4096 }, i := { Sense.init with run := 4096 } };
      4096 ≤ d.v.run ∧ 4096 ≤ d.i.run) ∧ { Sense.init with run := 4095 }.run < 4096 ∧
    (8 ≤ 8 ∧ 7 < 8 ∧ modulates .stopping = true) := by
  refine ⟨?_, ?_, ?_, ?_, ?_, ?_, ?_⟩ <;> decide

/-- A channel that must shut down: its enable, its state, the retry being judged and the failed-retry count. -/
def failing (on : Nat) (st : ChState) (retry : Option Nat) (fails : Nat) : State :=
  { driving { Drive.init with st := st, limRun := 64, retry := retry, retryLim := 3 } Rail.init 3839999 with
    hist := List.replicate 6 [(key 0x500F 0x01, on)], stat := [(key 0x500F 0x23, fails)] }

/-- Queue 47 is the queue of class Urgent, with room for a second item; the drive engines' pair with the Tally has R257's priority. -/
def urgent (items : List Item) : State :=
  { live with
    beam := { live.beam with pri := [(24 * 29 + 14, 15)] }
    tally := { Tally.init with queues := [(47, Queue.mk 0x00020000#32 items [])] } }

theorem urgent_item : (driveItem (urgent [Item.mk 0 47 (driveDesc 15 0) true]) 15).isSome = true := by
  have h : descBlock (driveDesc 15 0) = 0 := by
    simp [descBlock, descField, driveDesc, leBytes, slice, leNat, List.range, List.range.loop]
  simp [driveItem, heldItems, urgent, h]

theorem witness_DriveFaults :
    15 < 16 ∧
    (∀ e ∈ [(none, 0), (some 0, 1), (some 0, 2)], (let s := failing 1 .running e.1 e.2;
      modulates (s.drive 15).st = true ∧ 64 ≤ (s.drive 15).limRun ∧ drvEnt s 0 15 0x01 ≠ 0 ∧ (s.drive 15).st ≠ .stopping ∧
      (s.drive 15).retry = e.1 ∧ quietDrive s (s.drive 15) = false ∧ s.stget 0 0x500F 0x23 = e.2 ∧ s.carrier - 0 < tenSeconds ∧
      (s.drive 15).retryLim = 3)) ∧
    (min (1 + 1) 255 < 3 ∧ 3 ≤ min (2 + 1) 255) ∧
    (drvEnt (failing 0 .running none 0) 0 15 0x01 = 0 ∧ ((failing 1 .stopping none 0).drive 15).st = .stopping) ∧
    (mustShut { Drive.init with st := .running, limRun := 63 } = false) ∧
    (let d := (driving { Drive.init with st := .starting, v := { Sense.init with stuck := true } } Rail.init 0).drive 15;
      modulates d.st = true ∧ d.v.stuck = true ∧ modulates Drive.init.st = false) ∧
    (let s := urgent []; urgentQueue s = some 47 ∧ servedB s 29 14 = true ∧ (s.queue 47).items.length < (s.queue 47).cap ∧
      (s.queue 47).held = [] ∧ urgentQueue live = none ∧ driveItem live 15 = none) ∧
    (driveItem (urgent [Item.mk 0 47 (driveDesc 15 0) true]) 15).isSome = true ∧
    (let s := driving { Drive.init with st := .holdOff, holdEnd := 192000 } Rail.init 192000;
      (s.drive 15).st = .holdOff ∧ (s.drive 15).holdEnd ≤ s.carrier ∧ railState s 15 = 0) ∧
    (let s := { driving { Drive.init with st := .holdOff, holdEnd := 192000 } { Rail.init with state := 1 } 192000 with
        hist := List.replicate 6 [(key 0x500F 0x05, 3)] };
      (s.drive 15).st = .holdOff ∧ (s.drive 15).holdEnd ≤ s.carrier ∧ railState s 15 ≠ 0) ∧
    (let s := driving { Drive.init with st := .holdOff, holdEnd := 192000 } Rail.init 191999; s.carrier < (s.drive 15).holdEnd) ∧
    (let s := driving { Drive.init with lastShut := some 0 } Rail.init 3840000; quietDrive s (s.drive 15) = true) ∧
    (let s := driving { Drive.init with lastShut := some 0 } Rail.init 3839999; quietDrive s (s.drive 15) = false) := by
  refine ⟨?_, ?_, ?_, ?_, ?_, ?_, ?_, urgent_item, ?_, ?_, ?_, ?_, ?_⟩ <;> decide

/-- Channel 15 in a state whose stop ends at tick 5, with its writes of the enable to come, at a tick. -/
def enabling (st : ChState) (l : List (Nat × Bool)) (r : Rail) (tick : Nat) : State :=
  { driving { Drive.init with st := st, enables := l, stopEnd := 5 } r (128 * tick) with clk := { Clock.init with tick := tick } }

theorem witness_DriveWrites :
    (let s := withVals live [(0x501F, 0x01, 1)];
      s.flag 0x501F 0x01 = true ∧ (s.rail (s.val 0 0x500F 0x05)).state = 0 ∧ s.gate 0x500F = 0) ∧
    ¬ (live.flag 0x501F 0x01 = true ∧ (live.rail (live.val 0 0x500F 0x05)).state = 0) ∧
    (let s := enabling .idle [(4, false), (4, true), (5, false)] Rail.init 4;
      s.fenced (0x700 + 15) = false ∧ enableDue s 15 = some true ∧ (s.drive 15).st = .idle ∧ railState s 15 = 0) ∧
    (let s := { enabling .idle [(4, true)] { Rail.init with state := 3 } 4 with hist := List.replicate 6 [(key 0x500F 0x05, 3)] };
      enableDue s 15 = some true ∧ (s.drive 15).st = .idle ∧ railState s 15 ≠ 0) ∧
    (let s := enabling .running [(4, true)] Rail.init 4; enableDue s 15 = some true ∧ (s.drive 15).st ≠ .idle) ∧
    (let s := enabling .idle [(4, true), (4, false)] Rail.init 3; enableDue s 15 = none ∧ (s.drive 15).st ≠ .stopping) ∧
    (∀ st ∈ [ChState.starting, .running, .idle, .holdOff, .latched, .railStop],
      (let s := enabling st [(4, false)] Rail.init 4; (s.drive 15).st = st ∧ enableDue s 15 = some false)) ∧
    (let s := enabling .stopping [(4, false)] Rail.init 4;
      (s.drive 15).st = .stopping ∧ enableDue s 15 = some false ∧ s.clk.tick < (s.drive 15).stopEnd) ∧
    (let s := enabling .stopping [(6, false)] Rail.init 5;
      (s.drive 15).st = .stopping ∧ enableDue s 15 = none ∧ (s.drive 15).stopEnd ≤ s.clk.tick) ∧
    (1 < 2 ∧ 1 ≤ 1 ∧ live.gate 0x501F = 0 ∧ (∀ k, k < 16 → live.flag (0x5000 + k) 0x01 = false) ∧
      (withVals live [(0x500F, 0x01, 1)]).flag 0x500F 0x01 = true) ∧
    live.twin.gateUp = false := by
  refine ⟨?_, ?_, ?_, ?_, ?_, ?_, ?_, ?_, ?_, ?_, ?_⟩ <;> decide

end Sys2Proof.Tests
end

