-- ==== Sys2Proof/Tests/WitnessRender.lean ====
section
/-! SUPPORT. States and operands that meet the hypotheses of the statements about correction, drift, render control, Frames and user
slots, at boundary values of their ranges. -/
namespace Sys2Proof.Tests
open Sys2Proof.Machine

/-! Correction and drift -/

/-- Feed 511 with 16,384 taps and a correction state, the module in tick `x`. -/
def corrected (x : Nat) (c : Corr) : State :=
  { withVals live [(0x41FF, 0x01, 16384)] with
    clk := { Clock.init with tick := x }
    pipe := { Pipe.init with feeds := [(511, { FeedSt.init with corr := c })] } }

/-- A bank that holds a tap, Ready or Selected. -/
def filled : Bank := Bank.mk .ready [1] FilterSet.init
def chosen : Bank := Bank.mk .selected [1] FilterSet.init

/-- The drift tracker in a mode, one pair tracked, with estimate and baseline where asked. -/
def tracked (mode to_ st inv : Nat) (role : Role) : State :=
  { withVals live [(0x447F, 0x03, 1), (0x447F, 0x01, 511), (0x4417, 0x01, 1), (0x4417, 0x02, 2 ^ 63), (0x4400, 0x01, 1)] with
    clk := { Clock.init with tick := 30000 }
    time := { TimeUnit.init with state := .locked }
    twin := { Twin.init with role := role }
    drift := { Drift.init with mode := mode, modeTo := to_, pairs := [(511, Pair.mk st inv 100 none [])] } }

/-- An estimate of the pair, its peak at the end of the search range or outside it. -/
def estimate (ok : Bool) : PairEstimate := PairEstimate.mk 63 7 (if ok then 2047 else 2048) 0 1 0 10000 10000 []

/-- Three pairs of zone 63 with estimates and baselines. -/
def based : State :=
  let s := withVals live [(0x447F, 0x03, 1), (0x447F, 0x01, 511), (0x4415, 0x01, 1), (0x4415, 0x02, 2 ^ 63), (0x4416, 0x01, 1),
    (0x4416, 0x02, 2 ^ 63), (0x4417, 0x01, 1), (0x4417, 0x02, 2 ^ 63)]
  { s with
    clk := { Clock.init with tick := 30000 }
    twin := { Twin.init with role := .active }
    drift := { Drift.init with modeTo := 2, pairs := [509, 510, 511].map (fun k => (k, Pair.mk 1 0 100 (some 1) [])) } }

/-- Feed 511 with seven waiting requests and one that a pending write will make. -/
def fullQueue : State :=
  { corrected 5 { Corr.init with
      bank0 := chosen, bank1 := filled, selected := some 0, enabled := true
      running := some (.trim none, .preparing 4), waiting := List.replicate 7 (5, .trim none) } with
    pend := [Pending.mk 0x41FF 0x02 [0#8] 9 none 0 0 false 0 0 0] }

theorem witness_CorrectionRequests :
    (let s := corrected 5 Corr.init; let q := ((corrAhead s).feed 511).corr;
      511 < 512 ∧ 16384 ≤ 16384 ∧ 16384 % 32 = 0 ∧ s.gate 0x41FF = 0 ∧ s.flag 0x41FF 0x02 = false ∧ q.running = none ∧ q.waiting = [] ∧
      16384 + otherTaps s.dict 511 ≤ 2097152 ∧ (withVals s [(0x41FF, 0x02, 1)]).flag 0x41FF 0x02 = true ∧ 16383 % 32 ≠ 0 ∧
      16384 < 16416 ∧ 1 < 2 ∧ [0#8, 0#8, 0#8, 1#8].length % 4 = 0 ∧ [0#8, 0#8, 0#8, 1#8].length / 4 ≤ allocation s.dict 511 ∧
      (feedBank q 1).state ≠ .selected ∧ switchWaits q 1 = false ∧ SeqReq.switch 1 ∉ pendingRequests s 511 ∧
      q.waiting.length + (pendingRequests s 511).length < 8 ∧
      finalBank q = 0 ∧ finalBank q ≠ 1 ∧ (feedBank q 1).state = .empty ∧ finalEnable q = false ∧ q.bank0.state ≠ .selected ∧
      q.bank1.state ≠ .selected) ∧
    (let s := corrected 5 { Corr.init with bank0 := chosen, bank1 := filled, selected := some 0 };
      let q := ((corrAhead s).feed 511).corr;
      (feedBank q 0).state = .selected ∧ finalBank q ≠ 1 ∧ (feedBank q 1).state ≠ .empty ∧
      q.waiting.length + (pendingRequests s 511).length < 8 ∧
      finalEnable q = false ∧ q.bank0.state = .selected) ∧
    (let s := { corrected 5 { Corr.init with bank0 := chosen, bank1 := filled, selected := some 0 } with
        pend := [Pending.mk 0x41FF 0x03 [1#8] 9 none 0 0 false 0 0 0] };
      SeqReq.switch 1 ∈ pendingRequests s 511) ∧
    (switchWaits { Corr.init with waiting := [(6, .switch 1)] } 1 = true ∧
      switchWaits { Corr.init with running := some (.switch 1, .waiting false) } 1 = true) ∧
    (let q := ((corrAhead (corrected 5 { Corr.init with enabled := true, selected := some 0 })).feed 511).corr;
      finalEnable q = true ∧ q.waiting.length < 8) ∧
    (let s := fullQueue; let q := ((corrAhead s).feed 511).corr;
      8 ≤ q.waiting.length + (pendingRequests s 511).length ∧ s.gate 0x41FF = 0 ∧ finalEnable q = true ∧ finalBank q ≠ 1 ∧
      (feedBank q 1).state ≠ .empty ∧ (feedBank q 1).state ≠ .selected ∧ switchWaits q 1 = false ∧
      SeqReq.switch 1 ∉ pendingRequests s 511) := by
  refine ⟨?_, ?_, ?_, ?_, ?_, ?_⟩ <;> decide +kernel

theorem witness_CorrectionSequencer :
    (let c := { Corr.init with running := some (.load 1 [1], .preparing 4), named := 1 };
      ((corrected 305 c).feed 511).corr.running = some (.load 1 [1], .preparing 4) ∧ 4 + 301 ≤ (corrected 305 c).clk.tick ∧
      (corrected 304 c).clk.tick < 4 + 301 ∧ c.selected = none ∧ c.named = 1 ∧ c.named ≠ 0 ∧
      ({ c with selected := some 1 } : Corr).selected = some 1 ∧ ({ c with selected := some 0 } : Corr).selected ≠ some 1 ∧
      ({ c with selected := some 0 } : Corr).selected.isSome = true ∧ Corr.init.named ≠ 1) ∧
    (let c := { Corr.init with running := some (.trim none, .preparing 4), enabled := true, selected := some 1 };
      ((corrected 305 c).feed 511).corr.running = some (.trim none, .preparing 4) ∧ c.enabled = true ∧ c.selected.isSome = true ∧
      ({ c with enabled := false } : Corr).enabled = false ∧ (live.feed 511).corr.running = none) ∧
    (let c := { Corr.init with running := some (.switch 1, .crossfading 4 100) };
      ((corrected 105 c).feed 511).corr.running = some (.switch 1, .crossfading 4 100) ∧ 4 + 100 + 1 ≤ (corrected 105 c).clk.tick ∧
      (corrected 104 c).clk.tick < 4 + 100 + 1) ∧
    (((corrected 105 { Corr.init with running := some (.trim (some [1]), .crossfading 4 100) }).feed 511).corr.running =
        some (.trim (some [1]), .crossfading 4 100) ∧
      ((corrected 5 { Corr.init with running := some (.enable true, .crossfading 4 0) }).feed 511).corr.running =
        some (.enable true, .crossfading 4 0) ∧
      ((corrected 5 { Corr.init with running := some (.enable false, .crossfading 4 0) }).feed 511).corr.running =
        some (.enable false, .crossfading 4 0)) := by
  refine ⟨?_, ?_, ?_, ?_⟩ <;> decide +kernel

theorem witness_CorrectionAndDrift :
    (tracked 0 0 0 0 .solo).drift.mode = 0 ∧
    (let s := tracked 1 1 2 2 .solo;
      s.drift.mode ≠ 0 ∧ 511 ∈ trackedPairs s ∧ 510 ∉ trackedPairs s ∧
      [estimate true].find? (fun e => decide (e.zone = 511 / 8) && decide (e.mic = 511 % 8) && estimateValid s e) = some (estimate true) ∧
      [estimate false].find? (fun e => decide (e.zone = 511 / 8) && decide (e.mic = 511 % 8) && estimateValid s e) = none ∧
      2 ≤ (pairOf s 511).invalid ∧ (pairOf (tracked 1 1 3 0 .solo) 511).state = 3) ∧
    (let s := tracked 1 2 1 0 .active;
      s.drift.pubAt + 3000 * s.val 10 0x4400 0x04 ≤ s.clk.tick ∧
      ({ s with clk := { s.clk with tick := 29999 } } : State).clk.tick < s.drift.pubAt + 3000 * s.val 10 0x4400 0x04 ∧
      s.drift.modeTo = 2 ∧ s.twin.role = .active ∧ s.open 3 = false ∧ (basedPairs s).length < 3 ∧
      based.drift.pubAt + 3000 * based.val 10 0x4400 0x04 ≤ based.clk.tick ∧ 3 ≤ (basedPairs based).length ∧ based.drift.modeTo = 2 ∧ based.twin.role = .active ∧
      based.val 1020054732 0x4400 0x05 ≤ based.val 1127428915 0x4400 0x06) ∧
    ((tracked 2 3 0 0 .solo).drift.modeTo = 3 ∧ (tracked 2 3 0 0 .solo).drift.mode ≠ 3 ∧ (tracked 3 3 0 0 .solo).drift.mode = 3 ∧
      (tracked 2 1 0 0 .solo).drift.modeTo ≤ 1 ∧ (tracked 2 1 0 0 .solo).drift.pubAt + 3000 * (tracked 2 1 0 0 .solo).val 10 0x4400 0x04 ≤
      (tracked 2 1 0 0 .solo).clk.tick ∧ (tracked 2 2 0 0 .standby).drift.modeTo = 2 ∧ (tracked 2 2 0 0 .standby).twin.role ≠ .solo ∧
      (tracked 2 2 0 0 .standby).twin.role ≠ .active) ∧
    ((tracked 2 2 0 0 .standby).twin.role = .standby ∧ (tracked 2 2 0 0 .active).twin.role ≠ .standby) ∧
    (let p := DriftPub.mk 4 7 [(63, 9)] [];
      let s := fun x => { corrected x Corr.init with drift := { Drift.init with pub := some p } };
      (s 8).drift.pub = some p ∧ p.tickD + 4 ≤ (s 8).clk.tick ∧ (s 7).clk.tick < p.tickD + 4 ∧ (63, 9) ∈ p.zoffs ∧
      (∀ y ∈ p.zoffs, y.1 = 63 → y.2 = 9) ∧ (∀ y ∈ p.zoffs, y.1 ≠ 62) ∧ live.drift.pub = none) ∧
    (let s := tracked 1 1 1 0 .solo;
      s.gate 0x4400 = 0 ∧ baselineOk s = true ∧ 511 ∈ trackedPairs s ∧ (pairOf s 511).state = 1 ∧ baselineOk live = false ∧ 1 < 2) ∧
    ((tracked 2 2 0 0 .solo).drift.mode = 2 ∧ (tracked 2 2 0 0 .solo).gate 0x4400 = 0 ∧ 3 ≤ 3 ∧ 3 < 4) := by
  refine ⟨?_, ?_, ?_, ?_, ?_, ?_, ?_, ?_⟩ <;> decide +kernel

/-! Render control and objects -/

/-- The module Ready for rendering, in a pair or alone, with drive channel 15 enabled. -/
def readyTo (alone : Bool) : State :=
  let s : State := { withVals live [(0x500F, 0x01, 1)] with
    sup := { Super.init with mod := .ready, pairA := true }
    dram := { Dram.init with state := 2 }
    time := { TimeUnit.init with state := .holdover } }
  if alone then s.put 1 0x6000 0x06 0 else s

/-- A record of object 511: law 1, all else zero. -/
def record (law : Byte) : List Byte := [1#8, 255#8, law] ++ List.replicate 45 0#8

/-- The keyframe of that record. -/
def kf511 : Keyframe := Keyframe.mk 511 1 false 0 0 0 0 0 0 0

theorem witness_RenderAndObjects :
    (let s := readyTo true;
      s.gate 0x1100 = 0 ∧ s.flag 0x1100 0x03 = false ∧ renderConditions s = true ∧ s.val 1 0x6000 0x06 = 0 ∧
      s.flag (0x5000 + 15) 0x01 = true) ∧
    (let s := readyTo false; let g := { s with twin := { Twin.init with frame := some (HbFrame.mk 0 1 0 0 0 0 0 0 0 0 [] [] true 0x88B5 0x5457 1 1) } };
      s.val 1 0x6000 0x06 ≠ 0 ∧ partnerDrives s = false ∧ renderConditions s = true ∧ mayRejoin s = true ∧ partnerDrives g = true ∧
      renderConditions g = true ∧ idConflict g = true ∧ idConflict { g with sup := { g.sup with twinId := 7 } } = false ∧
      partnerDrives { g with sup := { g.sup with twinId := 7 } } = true ∧ mayRejoin (s.put 1 0x6000 0x07 0) = false) ∧
    ((withVals live [(0x1100, 0x03, 1)]).flag 0x1100 0x03 = true ∧ renderConditions live = false ∧ live.flag 0x1100 0x03 = false) ∧
    (live.val 2 0x1100 0x01 ≠ 1 ∧ live.val 2 0x1100 0x01 = 2 ∧ 7 < 8 ∧ 2 < 3) ∧
    (511 < 512 ∧ 1 ≤ 1 ∧ live.gate (0x3000 + 511) = 0 ∧ 1 < 2 ∧ 512 ≤ 512) ∧
    (keyframeOf (record 1#8) = some kf511 ∧ kf511.object = 511 ∧ kf511.object ≠ 510 ∧ (record 1#8).take 47 ≠ [] ∧
      ((record 1#8).take 47).length ≠ 48 ∧ (record 0#8).length = 48 ∧ keyframeOf (record 0#8) = none) ∧
    (live.gate 0x1020 = 0 ∧ 2 ^ 32 - 1 < 2 ^ 32 ∧ contiguous 0xFFFFFFFE = true ∧ contiguous 0xFFFFFFFD = false) ∧
    (live.gate 0x1040 = 0 ∧ 2 ^ 16 - 1 < 2 ^ 16 ∧ 2 ^ 16 ≤ 2 ^ 16) := by
  refine ⟨?_, ?_, ?_, ?_, ?_, ?_, ?_, ?_⟩ <;> decide +kernel

/-! Frames and user slots -/

/-- The module with Frame 7 as the spare, or with all in service. -/
def frames (l : List (Nat × FrameState)) : State := { live with frames := l }

/-- A slot image with one section at the end of its memory. -/
def kernel (signed : Bool) : SlotImage :=
  SlotImage.mk 393216 250000 262144 0 [ImageSection.mk true 0xFFFF [7#8]] signed (!signed) [1#8]

/-- Rod 0 of a user slot 15 in service, to move to Rod `b`. -/
def slotMove (b : Nat) (l : List (Nat × FrameState)) : State :=
  { frames l with
    moves := [(15, (0, b))]
    slots := [(15, { UserSlot.init with image := some (kernel false), state := 2, rod := some 0 })]
    rods := [(0, { Rod.init with slot := some 15, st := .running })] }

/-- Four Frames left with the lowest Rods of the first retired: 24 render Rods in service. -/
def fewRods : State :=
  let s := frames [(4, .retired), (5, .retired), (6, .retired), (7, .retired)]
  { s with rods := [0, 1, 2, 3].map (fun r => (r, { Rod.init with retired := true })) }

/-- Frame 0 alone in service, with three slots, as many as a Frame holds. -/
def fullSlots : State :=
  { frames (List.map (fun f => (f, .retired)) [1, 2, 3, 4, 5, 6, 7]) with
    rods := (List.range 3).map (fun r => (r, { Rod.init with slot := some (13 + r) })) }

theorem witness_FramesAndSlots :
    (let s := frames [(7, .spare)];
      s.gate 0x7000 = 0 ∧ 6 < 8 ∧ frameOf s 6 = .inService ∧ spareFrame s = some 7 ∧ s.rot = none ∧ s.sup.targ = none ∧ s.upd.stage ≠ 6 ∧
      frameOf s 7 ≠ .inService ∧ 8 ≤ 8 ∧ s.gate (0x7010 + 6) = 0 ∧ withoutFrame s 6 = true ∧ beingRelieved s 7 = false ∧
      s.gate (0x7010 + 7) = 0) ∧
    (let s := frames []; spareFrame s = none ∧ withoutFrame s 7 = true ∧ frameOf s 7 = .inService ∧ s.gate (0x7010 + 7) = 0 ∧ s.rot = none) ∧
    (let s := frames [(6, .retired), (7, .retired)]; spareFrame s = none ∧ frameOf s 5 = .inService ∧ withoutFrame s 5 = false ∧
      s.rot = none ∧ frameOf s 7 ≠ .inService) ∧
    (let s := { frames [(7, .loading)] with rot := some (Rotation.mk 0 7 1 0 false) };
      s.rot = some (Rotation.mk 0 7 1 0 false) ∧ frameOf s 7 ≠ .inService ∧ beingRelieved s 7 = false ∧ s.gate 0x7017 = 0 ∧
      s.gate 0x7010 = 0 ∧ s.rot.isSome = true ∧ 0 ≠ 6 ∧ frameOf s 6 = .inService ∧
      withoutFrame s 6 = true) ∧
    (let k := Rotation.mk 0 7 1 0 false; k.phase = 1 ∧ k.old < 8 ∧ k.new < 8 ∧ k.old ≠ k.new ∧ Memory.wf live.mem = true ∧
      ({ k with phase := 2 } : Rotation).phase ≠ 1) ∧
    (let s := slotMove 62 [(0, .inService)];
      mget (64, 64) s.moves 15 = (0, 62) ∧ 0 < 64 ∧ 62 < 64 ∧ (s.rod 0).item = none ∧ rodRole s 62 = 1 ∧ dataLost s 0 = false ∧
      (slotOfNo s 15).state = 2 ∧ Memory.wf s.mem = true ∧ mget (64, 64) live.moves 15 = (64, 64)) ∧
    (let s := slotMove 62 [(7, .retired)]; let w := { s with moves := mset (64, 64) s.moves 15 (64, 64) };
      mget (64, 64) s.moves 15 = (0, 62) ∧ (s.rod 0).item = none ∧ rodRole s 62 ≠ 1 ∧ slotRod s = some 1 ∧ slotRod w = some 1) ∧
    (let s := { fullSlots with moves := [(15, (2, 62))] };
      mget (64, 64) s.moves 15 = (2, 62) ∧ (s.rod 2).item = none ∧ rodRole s 62 ≠ 1 ∧ slotRod s = none) ∧
    (∃ i : Item, (({ live with moves := [(15, (0, 63))], rods := [(0, { Rod.init with item := some i })] } : State).rod 0).item ≠ none) ∧
    (let s := frames [(7, .spare)];
      rodRole s 55 ≠ 0 ∧ s.gate (0x7040 + 55) = 0 ∧ isTransform 55 = true ∧ 7 ≤ transformRods s ∧ isTransform 54 = false ∧
      25 ≤ renderLeft s ∧ transformRods (frames [(6, .retired), (7, .retired)]) < 7 ∧ rodRole s 63 = 0 ∧ s.gate (0x7040 + 63) = 0 ∧
      rodRole (frames [(6, .retired), (7, .retired)]) 47 ≠ 0) ∧
    (rodRole fewRods 30 ≠ 0 ∧ isTransform 30 = false ∧ (fewRods.rod 30).slot = none ∧ renderLeft fewRods < 25 ∧
      renderLeft { frames [(7, .spare)] with moves := [(15, (0, 62))] } = renderRods (frames [(7, .spare)])) ∧
    (let s := { fewRods with rods := fewRods.rods ++ [(30, { Rod.init with slot := some 15 })] };
      rodRole s 30 ≠ 0 ∧ isTransform 30 = false ∧ (s.rod 30).slot.isSome = true ∧ (slotRod s).isSome = true ∧ renderLeft s < 25) ∧
    (let s := fullSlots;
      rodRole s 2 ≠ 0 ∧ isTransform 2 = false ∧ (s.rod 2).slot.isSome = true ∧ slotRod s = none ∧ s.gate 0x7042 = 0 ∧
      renderLeft s < 24) ∧
    (let s := { frames [] with rods := (allRods.filter (fun r => decide (r % 8 < 3))).map (fun r => (r, { Rod.init with slot := some (r % 16) })) };
      rodRole s 2 ≠ 0 ∧ isTransform 2 = false ∧ (s.rod 2).slot.isSome = true ∧ slotRod s = none ∧ s.gate 0x7042 = 0 ∧
      24 ≤ renderLeft s) ∧
    (let i := kernel false;
      15 < 16 ∧ i.length ≤ 393216 ∧ i.length ≠ 0 ∧ sectionsOk i.sections = true ∧ i.cd ≤ 250000 ∧ i.bd ≤ 262144 ∧
      live.flag (0x7080 + 15) 0x02 = false ∧ kernelPolicyOk live i = true ∧ live.gate (0x7080 + 15) = 0 ∧
      kernelPolicyOk live (kernel true) = false ∧ i.sections = [ImageSection.mk true 0xFFFF [7#8]] ∧
      sectionFits (ImageSection.mk true 0xFFFF [7#8]) = true) ∧
    (let s := { live with slots := [(15, { UserSlot.init with image := some (kernel false), rod := some 3 })] };
      (slotOfNo s 15).image = some (kernel false) ∧ slotRod s = some 0 ∧ 25 ≤ renderLeft s ∧ s.gate (0x7080 + 15) = 0 ∧
      s.flag (0x7080 + 15) 0x02 = false ∧ (slotOfNo s 15).rod = some 3 ∧ (slotOfNo live 15).image = none ∧ (slotOfNo live 15).rod = none ∧
      (slotOfNo s 15).image.isSome = true ∧ (withVals s [(0x708F, 0x02, 1)]).flag 0x708F 0x02 = true ∧ renderLeft fewRods < 25 ∧
      ({ kernel false with sections := [] } : SlotImage).sections = []) := by
  refine ⟨?_, ?_, ?_, ?_, ?_, ?_, ?_, ?_, ⟨Item.mk 0 48 [] false, ?_⟩, ?_, ?_, ?_, ?_, ?_, ?_, ?_⟩ <;> decide +kernel

end Sys2Proof.Tests
end

