-- ==== Sys2Proof/Tests/WitnessRods.lean ====
section
/-! SUPPORT. States and operands that meet the hypotheses of the statements about Rod words, at boundary values of their ranges:
one theorem for each statement, named after it. -/
namespace Sys2Proof.Tests
open Sys2Proof.Machine

/-- A transform Rod, the last, with nothing in its registers. -/
def last : State := runs 63 Rod.init

/-- Words without other slots run. -/
theorem plain_runs (l : List VOp) (h : (l.all fun op => runsB last 63 (wordOf op noSlots)) = true) :
    ∀ op ∈ l, WordRuns last 63 (wordOf op noSlots) :=
  fun op ho => wordRuns_of (List.all_eq_true.mp h op ho)

theorem witness_SaturatingVectorOps : ∀ op ∈ [VOp.vadd 31 31 31, .vsub 0 31 31, .vmul 31 0 0, .vabs 31 31, .vneg 0 0, .vshl 31 0 31],
    WordRuns last 63 (wordOf op noSlots) := plain_runs _ (by decide)

theorem witness_PatternVectorOps : ∀ op ∈ [VOp.nop, .vmov 31 31, .vaddw 31 0 31, .vsubw 0 31 31, .vmin 31 31 31, .vmax 0 0 0,
    .vand 31 31 31, .vor 31 0 0, .vxor 31 31 31, .vnot 31 31, .vcmpgt 31 31 0, .vcmpeq 31 31 31, .vshr 31 31 31, .vshrl 31 31 31,
    .vperm 31 31 31, .vbcst 31 31 7], WordRuns last 63 (wordOf op noSlots) := plain_runs _ (by decide)

theorem witness_MultiplyAccumulate : ∀ op ∈ [VOp.vmpy 7 31 31, .vmac 7 31 31, .vmsu 0 31 31],
    WordRuns last 63 (wordOf op noSlots) := plain_runs _ (by decide)

theorem witness_AccumulatorWrites : ∀ op ∈ [VOp.vclr 7, .vlift 7 31, .vaadd 7 7, .vasub 0 7, .vtrw 7, .vred 7, .vwra 7 31 31,
    .vwrh 7 31], WordRuns last 63 (wordOf op noSlots) := plain_runs _ (by decide)

theorem witness_AccumulatorReads : ∀ op ∈ [VOp.vrd 31 7 31, .vrdx 31 7, .vrdl 31 7, .vrdm 31 7, .vrdh 31 7, .vaex 7],
    WordRuns last 63 (wordOf op noSlots) := plain_runs _ (by decide)

theorem witness_SearchWords : (∀ op ∈ [VOp.smax 31, .smin 31, .smaxa 31], WordRuns last 63 (wordOf op noSlots)) ∧
    Issues last 63 ∧ 15 < 16 ∧ atBodyEnd (last.rod 63) = false :=
  ⟨plain_runs _ (by decide), issues_of (by decide), by decide, by decide⟩

/-- A transform Rod with AR15 at the last eight words of data memory, AR14 at the last word, CL14 = 64 and CB14 = 0x3FFC0. -/
def edge : State := runs 63 { Rod.init with
  ar := [(14, 0x3FFF8#32), (15, 0x3FFE0#32)], md := [(15, 0xFFFFFFFC#32)], cl := [(14, 64#19)], cb := [(14, 0x3FFC0#18)] }

theorem witness_RodLoads : WordRuns edge 63 (loadWord .ldv 31 15 .nop none none none) ∧
    WordRuns edge 63 (loadWord .ldb 31 15 (.vmov 0 31) (some (StSlot.mk .stl 31 14)) (some (UpdSlot.mk .linear 15 3)) none) ∧
    WordRuns edge 63 (loadWord .lds 31 15 .nop none none none) :=
  ⟨wordRuns_of (by decide), wordRuns_of (by decide), wordRuns_of (by decide)⟩

theorem witness_RodStores : WordRuns edge 63 (storeWord .stv 31 15 .nop none none none) ∧
    WordRuns edge 63 (storeWord .stl 31 15 (.vmov 0 31) (some (LdSlot.mk .ldb 1 14)) none none) ∧
    WordRuns edge 63 (storeWord .std 31 15 .nop none none none) :=
  ⟨wordRuns_of (by decide), wordRuns_of (by decide), wordRuns_of (by decide)⟩

theorem witness_AddressUpdates : WordRuns edge 63 (updateWord .linear 15 0 .nop none none (some (UpdSlot.mk .linear 14 3))) ∧
    WordRuns edge 63 (updateWord .circular 14 3 .nop none none none) ∧
    WordRuns edge 63 (updateWord .circular 15 2 .nop none none none) ∧
    WordRuns edge 63 (updateWord .bitReversed 14 0 .nop none none none) ∧
    (mget 0#19 (edge.rod 63).cl 14).toNat = 8 * 2 ^ 3 ∧ (edge.rod 63).arv 14 = (mget 0#18 (edge.rod 63).cb 14).toNat + 8 * 7 :=
  ⟨wordRuns_of (by decide), wordRuns_of (by decide), wordRuns_of (by decide), wordRuns_of (by decide), by decide, by decide⟩

theorem witness_ParallelWordFrame : ∃ w, parWord (.stv 63 31 15 (.vmac 7 31 31) (some (LdSlot.mk .ldv 31 15))
    (some (UpdSlot.mk .linear 15 2)) (some (UpdSlot.mk .circular 14 1))) = some (63, w) ∧ WordRuns edge 63 w :=
  ⟨_, rfl, wordRuns_of (by decide)⟩

/-- The same Rod at the last word of three levels: the two inner ones in their last pass. -/
def nested : State := runs 63 { Rod.init with
  pc := 8191, reps := [RepLevel.mk 1 8191 8191, RepLevel.mk 1 8190 8191, RepLevel.mk 2 0 8191] }

theorem witness_WordsAdvance : (∃ w, parWord (.vadd 63 31 31 31 noSlots) = some (63, w) ∧ WordRuns nested 63 w) ∧
    ∃ w, parWord (.nop 63 noSlots) = some (63, w) ∧ WordRuns last 63 w :=
  ⟨⟨_, rfl, wordRuns_of (by decide)⟩, _, rfl, wordRuns_of (by decide)⟩

/-- The last Rod at word 8190, the last level's body ending at 8191. -/
def inBody : State := runs 63 { Rod.init with pc := 8190, reps := [RepLevel.mk 65535 8190 8191] }

theorem witness_JumpWords : (Controls last 63 ∧ (last.rod 63).reps = []) ∧ (Controls inBody 63 ∧ (inBody.rod 63).reps ≠ []) ∧
    15 < 16 ∧ 8191 < 8192 :=
  ⟨⟨controls_of (by decide), by decide⟩, ⟨controls_of (by decide), by decide⟩, by decide, by decide⟩

/-- The last Rod with three levels, the greatest number. -/
def full : State := runs 63 { Rod.init with
  reps := [RepLevel.mk 2 0 5, RepLevel.mk 2 0 6, RepLevel.mk 2 0 7], ar := [(15, 65536#32)] }

/-- The hypotheses of a repeat that opens: the count, the levels, the address and the enclosing body. -/
def opensB (q : Rod) (n w13 : Nat) : Prop :=
  n ≤ 65535 ∧ q.reps.length < 3 ∧ q.pc < w13 ∧ ∀ l rest, q.reps = l :: rest → w13 ≤ l.last

theorem witness_RepeatWords : Controls inBody 63 ∧ opensB (inBody.rod 63) 65535 8191 ∧ opensB (inBody.rod 63) 0 8191 ∧
    ¬ opensB (inBody.rod 63) 1 8190 ∧ Controls full 63 ∧ ¬ opensB (full.rod 63) 1 3 ∧ ¬ opensB (full.rod 63) 65536 3 ∧
    (∃ l rest, (inBody.rod 63).reps = l :: rest) ∧ (last.rod 63).reps = [] ∧ Controls last 63 := by
  refine ⟨controls_of (by decide), ⟨by decide, by decide, by decide, ?_⟩, ⟨by decide, by decide, by decide, ?_⟩, ?_,
    controls_of (by decide), ?_, ?_, ⟨_, _, rfl⟩, by decide, controls_of (by decide)⟩
  · rintro l rest h; cases h; decide
  · rintro l rest h; cases h; decide
  · exact fun h => absurd h.2.2.1 (by decide)
  · exact fun h => absurd h.2.1 (by decide)
  · exact fun h => absurd h.1 (by decide)

/-- The last Rod with two transfers, the greatest number, and BXM at the ends of the ranges of BSH. -/
def moving (bxm : Nat) : State := runs 63 { Rod.init with xfers := [Xfer.mk false 0 0 65536 0 false false, Xfer.mk true 0x3FFFC 0 4 0 false false], bxm := bxm }

theorem witness_RegisterWords : Controls last 63 ∧ 31 < 32 ∧ (last.rod 63).xfers.length ≤ 0 ∧ Controls (moving 0) 63 ∧
    1 < ((moving 0).rod 63).xfers.length ∧ (2 ^ 32 - 1 < 2 ^ 32) ∧ 15 < 16 ∧ 262144 % 4 = 0 ∧ 3 < 4 ∧ 255 < 256 ∧
    (∀ k ∈ [0x00, 0x12], ∃ v, specialRead (last.rod 63) 63 k = some v) ∧ 63 % 8 = 7 ∧
    [2 ^ 29 - 1, 2 ^ 29, 2 ^ 30].map (fun b => ((moving b).rod 63).bxm) = [2 ^ 29 - 1, 2 ^ 29, 2 ^ 30] := by
  refine ⟨controls_of (by decide), by decide, by decide, controls_of (by decide), by decide, by decide, by decide, by decide,
    by decide, by decide, ?_, by decide, by decide⟩
  intro k hk
  rcases List.mem_cons.mp hk with rfl | hk
  · exact ⟨_, rfl⟩
  · rcases List.mem_singleton.mp hk with rfl
    exact ⟨_, rfl⟩

/-- The last Rod with AR15 at the last word and AR14 at the last doubleword of data memory. -/
def atEnd : State := runs 63 { Rod.init with ar := [(14, 0x3FFF8#32), (15, 0x3FFFC#32)] }

theorem witness_SingleWordMemory : Controls atEnd 63 ∧ rodLost atEnd 63 [(atEnd.rod 63).arv 15] = false ∧
    dmOk ((atEnd.rod 63).arv 15) = true ∧ loadWaits (atEnd.rod 63) [(atEnd.rod 63).arv 15] = false ∧
    storeWaits (atEnd.rod 63) [(atEnd.rod 63).arv 15] = false ∧ rodLost atEnd 63 [(atEnd.rod 63).arv 14] = false ∧
    (atEnd.rod 63).arv 14 % 8 = 0 ∧ (atEnd.rod 63).arv 14 + 7 ≤ 0x3FFFF ∧
    loadWaits (atEnd.rod 63) [(atEnd.rod 63).arv 14, (atEnd.rod 63).arv 14 + 4] = false ∧ 3 < 4 :=
  ⟨controls_of (by decide), by decide, by decide, by decide, by decide, by decide, by decide, by decide, by decide, by decide⟩

theorem witness_RodFaultStops :
    (Controls last 63 ∧ 255 < 256) ∧
    (∃ w, parWord (.vadd 63 32 0 0 noSlots) = some (63, w) ∧ Issues last 63 ∧ parOk (last.rod 63) (isTransform 63) w = false) ∧
    (∃ w, parWord (.vadd 63 31 0 0 (Slots.mk (some (LdSlot.mk .ldv 31 0)) none none none)) = some (63, w) ∧ Issues last 63 ∧
      parOk (last.rod 63) (isTransform 63) w = true ∧ parConflict w = true) ∧
    (last.rod 63).slot = none ∧ ((last.rod 63).health = true ∨ (last.rod 63).faults = []) :=
  ⟨⟨controls_of (by decide), by decide⟩, ⟨_, rfl, issues_of (by decide), by decide⟩,
    ⟨_, rfl, issues_of (by decide), by decide, by decide⟩, by decide, Or.inr (by decide)⟩

theorem witness_RodRunControl : 63 < 64 ∧ (State.reset.rod 63).slot = none ∧ (State.reset.rod 63).st = .stopped ∧
    (last.rod 63).slot = none ∧ (last.rod 63).st ≠ .stopped ∧ (last.rod 63).st = .running ∧ Controls last 63 ∧
    (let f := State.reset.setRod 63 { Rod.init with st := .faulted, fault := true }; (f.rod 63).slot = none ∧ (f.rod 63).st = .faulted ∧ (f.rod 63).fault = true) ∧
    (State.reset.rod 63).st ≠ .running ∧ (State.reset.rod 63).fenced = false ∧ (State.reset.rod 63).fault = false ∧
    (let f := State.reset.setRod 63 { Rod.init with fenced := true }; (f.rod 63).fenced = true ∧ (f.rod 63).st = .stopped) ∧
    ∃ w, parWord (.nop 63 noSlots) = some (63, w) :=
  ⟨by decide, by decide, by decide, by decide, by decide, by decide, controls_of (by decide), by decide, by decide, by decide, by decide,
    by decide, _, rfl⟩

/-- The last Rod with AR15 at the last descriptor of data memory, MD15 = 65,536 and MD14 = 4, no item and no transfer; queue 63 has
room for one item. -/
def giving (items : List Item) : State :=
  let s := runs 63 { Rod.init with ar := [(15, 0x3FFE0#32)], md := [(14, 4#32), (15, 0x10000#32)] }
  { s with tally := { s.tally with queues := [(63, { Queue.init with cfg := 0x10000#32, items := items })] } }

/-- The same waiting to take, queue 47 on its list 15 with one item in it. -/
def offered : State :=
  let s := runs 63 { Rod.init with ar := [(15, 0x3FFE0#32)] }
  { s with tally := { s.tally with
    queues := [(47, { Queue.init with cfg := 0x40010000#32, items := [Item.mk 0 47 (List.replicate 32 0#8) true] })]
    lists := [(127, 1#64 <<< 47)] }, frames := [] }

/-- The same with queue 63 empty, and full. -/
def give0 : State := giving []
def give1 : State := giving [Item.mk 0 63 (List.replicate 32 0#8) true]

theorem witness_WorkWords : Controls give0 63 ∧ (give0.rod 63).slot = none ∧ (give0.rod 63).xfers = [] ∧
    (mget 0#32 (give0.rod 63).md 0).toNat = 0 ∧ (0 < 65536 ∧ 65536 % 4 = 0 ∧ (mget 0#32 (give0.rod 63).md 15).toNat ≤ 65536) ∧
    (give0.rod 63).arv 14 + (mget 0#32 (give0.rod 63).md 15).toNat ≤ 0x40000 ∧
    (give0.rod 63).arv 15 + (mget 0#32 (give0.rod 63).md 14).toNat ≤ 0x40000 ∧ (give0.rod 63).xfers.length < 2 ∧
    ((give0.rod 63).arv 15 % 32 = 0 ∧ (give0.rod 63).arv 15 + 31 ≤ 0x3FFFF ∧ (give0.rod 63).item = none ∧ pick give0 63 15 = none) ∧
    (descOk (memBytes give0.mem (rodWindow 63 ((give0.rod 63).arv 15)) 32) = true ∧
      (give0.queue 63).items.length < (give0.queue 63).cap ∧ (give0.queue 63).held = []) ∧
    (Controls give1 63 ∧ descOk (memBytes give1.mem (rodWindow 63 ((give1.rod 63).arv 15)) 32) = true ∧
      0 < (give1.queue 63).cap ∧ (give1.queue 63).cap ≤ (give1.queue 63).items.length) ∧
    (∀ i, i < 32 → rodErr give0 63 ((give0.rod 63).arv 15 + i) = none) ∧
    (Controls (moving 0) 63 ∧ ((moving 0).rod 63).xfers ≠ [] ∧ 2 ≤ ((moving 0).rod 63).xfers.length ∧ ((moving 0).rod 63).slot = none) :=
  ⟨controls_of (by decide), by decide, by decide, by decide, by decide, by decide, by decide, by decide, by decide,
    by decide, ⟨controls_of (by decide), by decide⟩, by decide, controls_of (by decide), by decide⟩

theorem witness_WorkWordsTake : Controls offered 63 ∧ (offered.rod 63).slot = none ∧ (offered.rod 63).arv 15 % 32 = 0 ∧
    (offered.rod 63).arv 15 + 31 ≤ 0x3FFFF ∧ (offered.rod 63).item = none ∧
    ∃ it : Item, pick offered 63 15 = some (47, it) ∧ it.desc.length = 32 :=
  ⟨controls_of (by decide), by decide, by decide, by decide, by decide, Item.mk 0 47 (List.replicate 32 0#8) true, by decide +kernel, by decide⟩

end Sys2Proof.Tests
end

