-- ==== Sys2Proof/Tests/WitnessStore.lean ====
section
/-! SUPPORT. States and operands that meet the hypotheses of the statements about the Tally, the Beam, the Ledger and the DRAM, at
boundary values of their ranges. -/
namespace Sys2Proof.Tests
open Sys2Proof.Machine

/-! The Tally -/

/-- The state after reset with queue `n` configured and filled. -/
def withQueue (n : Nat) (cfg : Word) (items : List Item) (held : List Producer) : State :=
  { State.reset with tally := { Tally.init with queues := [(n, Queue.mk cfg items held)] } }

/-- A descriptor of stage `st`, all else 0. -/
def desc (st : Nat) : List Byte := [0#8, 0#8, BitVec.ofNat 8 st] ++ List.replicate 29 0#8

/-- Master 30 holds the lock of target `x`. -/
def lockedAt (x : Nat) : State := { State.reset with beam := { Beam.init with locks := [(x, (30, 1))] } }

/-- Frame port 0 may not reach the Tally. -/
def barred : State := { State.reset with beam := { Beam.init with pri := [(14, 0)] } }

theorem witness_QueueConfiguration :
    (2 ^ 32 - 1 < 2 ^ 32 ∧ servedB (withQueue 0 0x00010000#32 [] []) 26 14 = true ∧ 47 < 48) ∧
    (let s := withQueue 0 0x00010000#32 [] []
      let new : Queue := { s.queue 47 with cfg := qcfgMask 0x0FFF0000 };
      otherCaps s 47 + new.cap = 4096 ∧ ((s.queue 47).items = [] ∨ new.cfg = (s.queue 47).cfg)) ∧
    (let s := withQueue 0 0x00010000#32 [] []
      let new : Queue := { s.queue 47 with cfg := qcfgMask 0x10000000 };
      ¬ (otherCaps s 47 + new.cap ≤ 4096 ∧ ((s.queue 47).items = [] ∨ new.cfg = (s.queue 47).cfg))) ∧
    (let s := withQueue 0 0x00010000#32 [Item.mk 0 0 (desc 1) true] []
      let new : Queue := { s.queue 0 with cfg := qcfgMask 0x00020000 };
      ¬ (otherCaps s 0 + new.cap ≤ 4096 ∧ ((s.queue 0).items = [] ∨ new.cfg = (s.queue 0).cfg))) ∧
    (48 ≤ 48 ∧ 63 < 64) ∧ waitsB (lockedAt 14) 26 14 = true ∧
    (pairPri barred 0 14 = 0 ∧ masterFenced barred 0 = false ∧ barred.beam.waiting = []) := by decide

/-- The transactions that are served and those that wait, at each reason to wait. -/
theorem witness_ServedWaits : Served State.reset 26 14 ∧ Waits (lockedAt 14) 26 14 ∧ Waits State.reset 26 0 ∧
    Waits (withQueue 63 0x00010000#32 [] [Producer.mk 90 (desc 0) true]) 26 14 :=
  ⟨served_of (by decide), waits_of (by decide), waits_of (by decide), waits_of (by decide)⟩

theorem witness_ItemsEnterQueues :
    (63 < 64 ∧ waitsB (lockedAt 14) 26 14 = true ∧ (desc 5).length = 32 ∧ descOk (desc 5) = true) ∧
    (let s := withQueue 63 0x00010000#32 [] [];
      servedB s 26 14 = true ∧ (s.queue 63).items.length < (s.queue 63).cap ∧ (s.queue 63).held = []) ∧
    (let s := withQueue 63 0x00010000#32 [Item.mk 0 63 (desc 5) true] [];
      servedB s 26 14 = true ∧ 0 < (s.queue 63).cap ∧ (s.queue 63).cap ≤ (s.queue 63).items.length) ∧
    (let s := withQueue 63 0x00010000#32 [] [Producer.mk 63 (desc 0) false];
      servedB s 26 14 = true ∧ (s.queue 63).items.length < (s.queue 63).cap ∧ (s.queue 63).held ≠ []) ∧
    (servedB State.reset 26 14 = true ∧ (State.reset.queue 63).cap = 0) ∧
    ((4095 ≠ 0 ∨ (desc 5).length ≠ 32) ∧ (0 ≠ 0 ∨ (desc 5).tail.length ≠ 32)) ∧
    (let q := (withQueue 63 0x00010000#32 [] [Producer.mk 63 (desc 0) false]).queue 63;
      q.held = [Producer.mk 63 (desc 0) false] ∧ q.items.length < q.cap ∧ ∀ p ∈ q.held, p.long = false) ∧
    (let q := (withQueue 63 0x00010000#32 [] [Producer.mk 90 (desc 0) true]).queue 63;
      (∀ p ∈ q.held, p.who = 90 → p.long = true) ∧ (State.reset.queue 63).held = []) := by decide

/-- Rod 9 waits in a TAKE of take list 31; queue 0 holds one released item of stage 5. -/
def waitingRod : State :=
  let s := withQueue 0 0x20010000#32 [Item.mk 0 0 (desc 5) true] []
  let t : State := { s with tally := { s.tally with lists := [(31, BitVec.ofNat 64 1)] } }
  t.setRod 9 { Rod.init with st := .waiting, wait := some (.take 15 0x3FFE0) }

theorem witness_ItemsLeaveQueues :
    (∃ pre post it, giveOrder waitingRod = pre ++ 9 :: post ∧ (∀ p ∈ pre, offer waitingRod p = none) ∧
      (waitingRod.rod 9).st = .waiting ∧ (waitingRod.rod 9).wait = some (.take 15 0x3FFE0) ∧ (waitingRod.rod 9).item = none ∧
      pick waitingRod 9 15 = some (0, it) ∧ it.desc.length = 32) ∧
    (∀ r ∈ giveOrder State.reset, offer State.reset r = none) ∧
    (7 < 8 ∧ 2 ^ 56 - 1 < 2 ^ 56 ∧ servedB waitingRod 26 14 = true ∧ waitsB (lockedAt 14) 26 14 = true) :=
  ⟨⟨(giveOrder waitingRod).take 9, (giveOrder waitingRod).drop 10, Item.mk 0 0 (desc 5) true, by decide, by decide, by decide,
    by decide, by decide, by decide, by decide⟩, by decide, by decide⟩

theorem witness_FlowsAndExclusion : 2 ^ 64 - 1 < 2 ^ 64 ∧ 1023 < 1024 ∧ bitOf (2 ^ 64 - 1) 7 = true ∧
    descF ([0#8, 0x80#8] ++ List.replicate 30 0#8) = true ∧ bitOf (2 ^ 64 - 1) 63 = true := by decide

/-! The Beam -/

/-- A read of four bytes. -/
def readOf (m a : Nat) : BeamReq := BeamReq.mk m a false 4 [] [] false false

theorem witness_BeamRegisterWrites :
    (2 ^ 32 - 1 < 2 ^ 32 ∧ servedB State.reset 26 12 = true ∧ servedB State.reset 26 14 = true ∧ servedB State.reset 26 24 = true ∧
      127 < 128) ∧
    (targetOf 0x40000004 = some 12 ∧ 0x40000004 % 4 = 0 ∧ waitsB (lockedAt 12) 26 12 = true) ∧
    (targetOf 0x20043FFC = some 14 ∧ 0x20043FFC % 4 = 0 ∧ targetOf 0x1007FFFC = some 15 ∧ 0x1007FFFC % 0x80000 ≥ 0x70000 ∧
      servedB State.reset 26 15 = true) ∧
    (0x60000000 ≤ 0x6FFFFFFC ∧ 0x6FFFFFFC < 0x70000000 ∧ 0x6FFFFFFC % 4 = 0) ∧
    (31 < 32 ∧ masterFenced State.reset 31 = false ∧ State.reset.beam.waiting = [] ∧ targetOf 0x04000000 = none ∧ 0x04000000 % 4 = 0 ∧
      targetOf 0x60000000 = some 24 ∧ pairPri State.reset 31 24 = 0) := by decide

/-- Master 0 has priority 1 at target 12, and these requests wait. -/
def atTwelve (l : List Waiting) : State := { State.reset with beam := { Beam.init with waiting := l, pri := [(24 * 0 + 12, 1)] } }

theorem witness_BeamArbitration :
    (let s := atTwelve [];
      burstOk (readOf 26 0x4FFFFFFC) = true ∧ burstOk (readOf 0 0x40001000) = true ∧ 26 ≠ 0 ∧
      targetOf 0x4FFFFFFC = some 12 ∧ targetOf 0x40001000 = some 12 ∧ 0 < pairPri s 0 12 ∧ pairPri s 0 12 < pairPri s 26 12 ∧
      s.beam.waiting = [] ∧ servedB s 26 12 = true ∧ requestError s (readOf 26 0x4FFFFFFC) = 0 ∧ masterFenced s 0 = false ∧
      (heldTags s).count 0 < 2) ∧
    (waitsB (lockedAt 12) 26 12 = true ∧ requestError (lockedAt 12) (readOf 26 0x4FFFFFFC) = 0) ∧
    (requestError barred (readOf 0 0x20000040) = 2 ∧ targetOf 0x20000040 = some 14 ∧ burstOk (readOf 0 0x20000040) = true ∧
      barred.beam.waiting = [] ∧ masterFenced barred 0 = false ∧ tallyHeld State.reset 26 = false ∧ tallyHeld State.reset 0 = false) ∧
    (let s : State := { State.reset with sup := { Super.init with fences := [0x211] } };
      masterFenced s 25 = true ∧ s.beam.waiting = []) ∧
    (let s := atTwelve [Waiting.mk (readOf 0 0x40001000) 16 false];
      s.beam.waiting = [Waiting.mk (readOf 0 0x40001000) 16 false] ∧ 16 ≤ 16 ∧ 3 ≤ sinceAged s 12) := by decide

/-- Master 30 holds target 11 and has a request waiting there. -/
def holding : State :=
  { State.reset with beam := { Beam.init with locks := [(11, (30, 1))], waiting := [Waiting.mk (readOf 30 0x0100000300) 0 false] } }

theorem witness_BeamLocks :
    (targetOf 0x40001000 = some 12 ∧ lockAllowed 26 12 = false ∧ targetOf 0 = some 0 ∧ lockAllowed 25 0 = false ∧
      burstOk { readOf 0 0x40001000 with master := 26 } = true ∧ masterFenced State.reset 26 = false) ∧
    (let s : State := { State.reset with ledger := { Ledger.init with ready := true } };
      7 < 8 ∧ lockAllowed 26 7 = true ∧ s.beam.locks = [] ∧ servedB s 26 7 = true ∧
      burstOk (readOf 26 0x3800) = true ∧ targetOf 0x3800 = some 7 ∧ (readOf 26 0x3800).locked = false ∧
      beatsOf { readOf 26 0x3800 with len := 256 } + beatsOf { readOf 26 0x3800 with len := 256 } ≤ 16) ∧
    ((mget (32, 0) holding.beam.locks 11).1 < 32 ∧ lockTimeoutNs holding ≤ 64 ∧ 63 < lockTimeoutNs holding) ∧
    (onBeam holding 30 = true ∧ onBeam State.reset 31 = false ∧ 8 ≤ 31) := by decide

/-- Rod 63 has one transfer, the last 256 bytes of Rod 0's data memory into the last of its own. -/
def mover : State :=
  { State.reset.setRod 63 { Rod.init with xfers := [Xfer.mk false 0x3FF00 (rodWindow 0 0x3FF00) 256 0 false false] } with
    beam := { Beam.init with pri := [(24 * 7 + 15, 15)] } }

theorem witness_MoverTransfers : (mover.rod 63).xfers = [Xfer.mk false 0x3FF00 (rodWindow 0 0x3FF00) 256 0 false false] ∧
    0x3FF00 + 256 ≤ 0x40000 ∧ (mover.rod 0).st = .stopped ∧ mover.testing 0 = false ∧
    mover.testing (0x100 + 0 / 8) = false ∧ (mover.rod 0).errs = [] ∧ (mover.rod 63).errs = [] ∧ (mover.rod 63).ending = none ∧
    (mover.rod 63).wait = none ∧ (mover.rod 0).fenced = false ∧ servedB mover (63 / 8) (15 + 0 / 8) = true ∧
    (let s := { State.reset.setRod 63 { Rod.init with xfers := [Xfer.mk true 0x3FF00 0x03FFFF00 256 0 false false], wait := some .stall } with
        beam := { Beam.init with pri := [(24 * 7 + 7, 1)] }
        ledger := { Ledger.init with ready := true } };
      (s.rod 63).xfers = [Xfer.mk true 0x3FF00 0x03FFFF00 256 0 false false] ∧ 0x03FFFF00 + 256 ≤ 0x04000000 ∧
      0x03FFFF00 % 256 + 256 ≤ 256 ∧ s.ledger.errs = [] ∧ targetOf 0x03FFFF00 = some 7 ∧ servedB s (63 / 8) 7 = true ∧
      (s.rod 63).wait = some .stall) ∧
    (let s := { State.reset.setRod 63 { Rod.init with xfers := [Xfer.mk false 0 0 4 0 false false] } with
        beam := { Beam.init with pri := [(24 * 7 + 0, 15)] } };
      (s.rod 63).xfers = [Xfer.mk false 0 0 4 0 false false] ∧ targetOf 0 = some 0 ∧ waitsB s (63 / 8) 0 = true) := by decide

/-! Storage -/

/-- A ready Ledger at line `line` with these wrong bits, those of the last pass and the repair under way. -/
def ledgerAt (line : Nat) (errs : SMap (Option Nat)) (last : List (Nat × Nat)) (repair : SMap Nat) : State :=
  { State.reset with ledger := { Ledger.init with ready := true, line := line, errs := errs, last := last, repair := repair } }

theorem witness_LedgerScrubbing :
    (let s := ledgerAt 0 [(0, some 71)] [(0, 71)] [];
      s.ledger.ready = true ∧ s.ledger.queue = [] ∧ s.ledger.repair = [] ∧ s.ledger.retry = [] ∧ s.ledger.errs = [(0, some 71)] ∧ 71 < 72 ∧
      lineOf 0 = s.ledger.line) ∧
    (let w := 0x03FFFFF8
      let s := ledgerAt 16383 [(w, some 0)] [] [];
      s.ledger.errs = [(w, some 0)] ∧ lineOf w = s.ledger.line) ∧
    (let s := ledgerAt 0 [] [] [(63, 16384)];
      s.ledger.repair = [(63, 16383 + 1)] ∧ s.ledger.retry = [] ∧ sparesUsed s.ledger.remap 63 < 16) ∧
    (let s := ledgerAt 0 [] [] [];
      0x03FFFFFC < 0x04000000 ∧ 0x03FFFFFC % 4 = 0 ∧ targetOf 0x03FFFFFC = some 7 ∧ servedB s 26 7 = true ∧ 2 ^ 32 - 1 < 2 ^ 32) := by
  decide

/-- The DRAM in service with the ranks of the first start, this refresh debt and these wrong words. -/
def dramWith (debt : Nat) (errs : SMap (Option Nat)) : State :=
  { State.reset with
    dram := { Dram.init with state := 2, debt := debt, errs := errs, ranks := NonVol.init.ranks },
    dict := mset 0 State.reset.dict (key 0x7450 0x02) 1 }

theorem witness_DramUpkeep :
    ((dramWith 7 []).dram.state = 2 ∧ (dramWith 7 []).dram.debt < 8 ∧ 8 ≤ (dramWith 8 []).dram.debt ∧
      (dramWith 7 []).val 0 0x7410 0x02 = 0) ∧
    (let s : State := { dramWith 0 [] with dram := { (dramWith 0 []).dram with lastReq := -10 ^ 7 } };
      s.flag 0x7450 0x02 = true ∧ s.flag 0x1100 0x03 = false ∧ dramWanted s = false ∧ idleDue s < tickLen s.clk.tick ∧ s.dram.state = 2) ∧
    (State.reset.flag 0x7450 0x02 = false ∧ (tickLen (dramWith 0 []).clk.tick : Int) ≤ idleDue (dramWith 0 []) ∧
      deepWaits (dramWith 0 []) = false) ∧
    (let s : State := { dramWith 0 [] with beam := { Beam.init with
        waiting := [Waiting.mk (BeamReq.mk 8 dramBase false 4 [] [] false true) 0 false] } };
      deepWaits s = true ∧ dramWanted s = true ∧ s.dram.state = 2) ∧
    (let s := dramWith 0 []; (rankOf s 0).state = .inService ∧ (readySpare s).isSome = true ∧ s.dram.mig = none ∧ s.dram.trigger = none ∧
      anySpare s = some 3 ∧ anySpare { s with dram := { s.dram with ranks := [] } } = none) ∧
    (let s := dramWith 0 [(dramBase, some uncorrectable)];
      s.dram.errs = [(dramBase, some uncorrectable)] ∧ dramBase ≤ dramBase ∧ s.dram.mig = none ∧ s.dram.poison = []) ∧
    ((∀ e ∈ [(0, 1, true), (3, 4, true)], e.2.2 = true) ∧ 3 < 4 ∧ 8 < 9 ∧ (dramWith 0 []).stget 0 0x7440 0x09 = 0) ∧
    (let s := dramWith 0 [(dramBase, some 71)];
      s.dram.errs = [(dramBase, some 71)] ∧
      ((dramBase - dramBase) / 64 + 3 * slotBytes / 64 - s.dram.patrol) % (3 * slotBytes / 64) < 1 ∧ s.dram.poison = [] ∧
      s.val 0 0x7410 0x05 = 0) ∧
    readySpare (dramWith 0 []) = some 3 ∧ State.reset.dram.late = [] ∧
    (let s : State := { State.reset with dram := { Dram.init with state := 3 } };
      s.dram.state = 3 ∧ inDram 0x039FFFFFFF = true) := by decide

/-- The DRAM migrating rank 0 to rank 3 with `c` units copied. -/
def migrating (c : Nat) : State :=
  { dramWith 0 [] with dram := { (dramWith 0 []).dram with mig := some (Migration.mk 0 3 0 c 0 [] [] []) } }

theorem witness_RankMigration :
    (let s := dramWith 0 [];
      0 < 4 ∧ s.gate (0x7420 + 0) = 0 ∧ (rankOf s 0).state = .inService ∧ (readySpare s).isSome = true ∧ s.dram.mig = none ∧
      s.dram.trigger = none ∧ (rankOf s 3).state ≠ .inService ∧ s.dram.state = 2 ∧
      ({ s with dram := { s.dram with state := 3 } } : State).dram.state ≠ 2) ∧
    (let s : State := { dramWith 0 [] with dram := { (dramWith 0 []).dram with trigger := some 2 } };
      s.dram.trigger = some 2 ∧ s.dram.mig = none ∧ s.dram.state = 2 ∧ readySpare s = some 3 ∧ (rankOf s 2).slot = some 2 ∧
      (rankOf s 2).state = .inService) ∧
    ((migrating (slotUnits - 1)).dram.mig = some (Migration.mk 0 3 0 (slotUnits - 1) 0 [] [] []) ∧ slotUnits - 1 < slotUnits ∧
      (migrating slotUnits).dram.mig = some (Migration.mk 0 3 0 slotUnits 0 [] [] []) ∧ slotUnits ≤ slotUnits) := by decide

end Sys2Proof.Tests
end

