-- ==== Sys2Proof/Tests/WitnessSystem.lean ====
section
/-! SUPPORT. States and operands that meet the hypotheses of the statements about keys, updates, power, start and events, at boundary
values of their ranges. -/
namespace Sys2Proof.Tests
open Sys2Proof.Machine

/-! Keys and the life cycle -/

/-- The module in a life-cycle and a module state, with the four level keys and the token root. -/
def keyed (l : LifeState) (m : ModState) : State :=
  { live with
    sup := { Super.init with mod := m }
    keys := { KeyStore.init with
      life := l, level := [1, 2, 3, 4].map (fun i => (i, List.replicate 32 1#8)), roots := [1, 2] }
    dom := [(key 0x9020 0x01, List.replicate 64 1#8), (key 0x9020 0x02, List.replicate 64 1#8)] }

/-- A token of 96 bytes for no operation. -/
def badToken : List Byte := List.replicate 96 9#8

theorem badToken_refused (s : State) (op : Nat) (h : op < 9) : tokenOk s op badToken = false := by
  have e : beAt badToken 24 1 = 9 := by decide
  have n : (9 : Nat) ≠ op := by omega
  simp [tokenOk, e, n]

/-- A valid token is one that the signature of the token root covers: whether there is one rests on the identity and the nonce of the
module, which no file fixes, so the hypothesis on it stands. -/
theorem witness_KeysAndLifecycle :
    (∀ l ∈ [LifeState.blank, .opened],
      benchLife (keyed l .ready) = true ∧ (keyed l .ready).gate 0x9000 = 0 ∧ 2 ∈ (keyed l .ready).keys.roots ∧
      ∀ k ∈ [1, 2, 3, 4], mget [] (keyed l .ready).keys.level k ≠ []) ∧
    (benchLife live = true ∧ ¬ 2 ∈ live.keys.roots ∧ benchLife (keyed .provisioned .ready) = false) ∧
    (let s := keyed .provisioned .ready;
      s.keys.life = .provisioned ∧ rootKey s 0x01 ≠ [] ∧ s.gate 0x9000 = 0 ∧ rootKey { s with dom := [] } 0x01 = []) ∧
    (∀ token, token.length = 96 → tokenOk (keyed .deployed .failed) 1 token = true →
      token.length = 96 ∧ (keyed .deployed .failed).keys.life = .deployed ∧
      ((keyed .deployed .failed).sup.mod = .ready ∨ (keyed .deployed .failed).sup.mod = .failed) ∧
      tokenOk (keyed .deployed .failed) 1 token = true ∧ (keyed .deployed .failed).gate 0x9000 = 0) ∧
    (badToken.length = 96 ∧ (keyed .deployed .ready).keys.life = .deployed ∧ (keyed .deployed .ready).sup.mod = .ready ∧
      tokenOk (keyed .deployed .ready) 1 badToken = false) ∧
    (badToken.length = 96 ∧ (keyed .blank .ready).keys.life ≠ .retired ∧ (keyed .blank .ready).keys.life = .blank ∧
      (keyed .blank .ready).gate 0x9000 = 0) ∧
    (0 < (badToken.take 95).length ∧ (badToken.take 95).length < 96 ∧ 0 < (badToken.take 1).length) ∧
    (1 ≤ 4 ∧ 4 ≤ 4 ∧ 15 < 16 ∧ (List.replicate 32 9#8).length = 32 ∧ (keyed .deployed .ready).keys.life ≠ .parked ∧
      (keyed .deployed .ready).gate 0x9010 = 0 ∧ (keyed .parked .parked).keys.life = .parked) ∧
    ((keyed .provisioned .ready).gate 0x9030 = 0 ∧ (keyed .deployed .ready).keys.life = .deployed ∧ 2 < 3) ∧
    (let s := withVals live [(0x9030, 0x02, 2 ^ 32 - 1)];
      s.val 0 0x9030 0x02 ≤ 2 ^ 32 - 1 ∧ 2 ^ 32 - 1 < 2 ^ 32 ∧ s.gate 0x9030 = 0 ∧ 2 ^ 32 - 2 < s.val 0 0x9030 0x02) ∧
    (let s := { live with dram := { Dram.init with state := 2 } };
      s.val 0 0x9030 0x01 = 0 ∧ s.dram.state = 2 ∧ showPlain s none [] [1#8, 2#8] [] = some [1#8, 2#8] ∧
      inShowRange (0x02C0000000 - 2) [1#8, 2#8].length = true ∧ inShowRange (0x02C0000000 - 1) [1#8, 2#8].length = false ∧ live.dram.state ≠ 2 ∧ live.dram.state ≠ 3) ∧
    (withVals live [(0x9030, 0x01, 2)]).val 0 0x9030 0x01 ≠ 0 := by
  refine ⟨by decide, by decide, by decide, fun t h1 h2 => ⟨h1, rfl, .inr rfl, h2, by decide⟩,
    ⟨by decide, rfl, rfl, badToken_refused _ _ (by decide)⟩, by decide, by decide, by decide, by decide, by decide, by decide, by decide⟩

/-! Updates -/

/-- An image with a vendor signature. -/
def image (st seq svn : Nat) (ok : Bool) : ImageInfo := ImageInfo.mk st seq 5 5 svn 0 1 ok false

/-- The module in a stage of an update to region B, with images in both regions. -/
def staged (stage : Nat) (u : Update) : State :=
  { live with
    clk := { Clock.init with tick := 6000 }
    sup := { Super.init with mod := .rendering, pairA := true, pairB := true }
    nv := { NonVol.init with imgA := some (image 0 7 1 true), imgB := some (image 1 8 1 true) }
    upd := { u with stage := stage, image := some (image 0 0 1 true), intoB := true } }

/-- With Frame 7 as the spare. -/
def framed (s : State) : State := { s with frames := [(7, .spare)] }

theorem witness_Updates :
    (let s := staged 0 Update.init;
      0 < 16777216 ∧ 16777216 ≤ 16777216 ∧ s.upd.stage ≠ 6 ∧ s.gate 0xA000 = 0 ∧ imageOk s (image 0 0 0 true) = true ∧
      imageOk s (image 0 0 0 false) = false ∧ 16777216 < 16777217 ∧ (staged 6 Update.init).upd.stage = 6) ∧
    (let s := staged 2 Update.init; s.upd.stage = 2 ∧ s.upd.image = some (image 0 0 1 true) ∧ s.gate 0xA000 = 0) ∧
    ((staged 3 Update.init).upd.stage ≠ 2 ∧ liveCheck (staged 4 Update.init) 1 = 0 ∧ (staged 5 Update.init).upd.stage ≠ 4) ∧
    ((staged 5 { Update.init with loading := true }).upd.loading = true ∧ (staged 5 Update.init).upd.loading = false) ∧
    (let s := framed (staged 6 Update.init); let w := loadSpare s;
      s.upd.stage = 6 ∧ s.upd.doneAt = none ∧ s.upd.reverting = false ∧ s.rot = none ∧ oldFrame w = some 0 ∧ spareFrame s = some 7 ∧
      s.upd.startX + (rotationsMade w + 1) * s.val 3000 0xA000 0x07 ≤ s.clk.tick ∧ s.moves = [] ∧
      frameBusy s 0 = false ∧ frameBusy { s with rods := [(7, { Rod.init with st := .running, item := some (Item.mk 0 48 [] false) })] } 0 = true ∧
      ∀ m, m < 8 → (s.rod (8 * 0 + m)).slot = none ∧ (s.rod (8 * 0 + m)).fenced = false) ∧
    (let s := framed (staged 6 { Update.init with startX := 3001 });
      s.clk.tick < s.upd.startX + (rotationsMade (loadSpare s) + 1) * s.val 3000 0xA000 0x07) ∧
    (let s := framed (staged 6 { Update.init with frames := [0, 1, 2, 3, 4, 5, 6] }); oldFrame (loadSpare s) = none) ∧
    (∃ k, ({ staged 6 Update.init with rot := some (Rotation.mk 0 7 1 0 false) } : State).rot = some k) ∧
    (let s := withVals (staged 6 { Update.init with doneAt := some 3000 }) [(0xA000, 0x0D, 1)];
      s.upd.stage = 6 ∧ s.gate 0xA000 = 0 ∧ s.upd.doneAt = some 3000 ∧ s.val 600 0xA000 0x0D ≠ 0 ∧
      3000 + 3000 * s.val 600 0xA000 0x0D ≤ s.clk.tick ∧ ({ s with clk := { Clock.init with tick := 5999 } } : State).clk.tick <
        3000 + 3000 * s.val 600 0xA000 0x0D) := by
  refine ⟨by decide, by decide, by decide, by decide, by decide, by decide, by decide, ⟨_, rfl⟩, by decide⟩

/-! Power and start -/

/-- What a start observes. -/
def boot (mode : Bool) (ms : Nat) : BootObs :=
  BootObs.mk mode false 1 4400 300 [] default default true ms

/-- The module held in reset with an image in region B. -/
def held (st : Nat) (trip : Bool) : State :=
  { State.reset with
    power := { Power.init with inReset := true, tripHeld := trip }
    nv := { NonVol.init with imgB := some (image st 7 1 true), attempts := 2 } }

theorem witness_PowerAndStart :
    (3899 < 3900 ∧ 3900 ≤ 3900 ∧ (1250 : Int) ≤ 1250 ∧ (1249 : Int) < 1250) ∧
    (let s := held 0 false;
      mayStart s (boot true 0).vinMv = true ∧ s.keys.pendErase = none ∧ (boot true 0).bootMode = true ∧ (boot false 0).bootMode = false ∧
      bootChoice s = some (true, image 0 7 1 true) ∧ bootChoice { s with nv := NonVol.init } = none ∧ mayStart s 4399 = false) ∧
    (let s := held 1 false; bootChoice s = some (true, image 1 7 1 true) ∧ (image 1 7 1 true).state = 1 ∧ 10000 < (boot false 10001).ms) ∧
    (let s := held 0 true; s.power.tripHeld = true ∧ (999 : Int) < 1000 ∧ s.power.inReset = true ∧ 4400 ≤ (boot false 0).vinMv ∧
      s.keys.pendErase = none ∧ { boot false 0 with vinMv := 4399 }.vinMv < 4400 ∧ (held 0 false).power.tripHeld = false ∧
      (1000 : Int) ≤ 1000) ∧
    (let s := { held 1 false with
        sup := { Super.init with mod := .booting, imgB := true }, power := { Power.init with inReset := false } };
      imageAt s s.sup.imgB = some (image 1 7 1 true) ∧ s.power.inReset = false ∧ s.sup.mod = .booting ∧ 2 ≤ s.nv.attempts ∧
      ({ s.sup with mod := .startTest } : Super).mod = .startTest ∧ ({ s.sup with mod := .failed } : Super).mod = .failed ∧
      ({ s.nv with attempts := 1 } : NonVol).attempts < 2) ∧
    (let s := { live with dram := { Dram.init with state := 2 } }; s.ticking = true ∧ s.dram.state = 2) ∧
    (let s := { live with sup := { Super.init with pairA := true, pairB := true } };
      s.sup.servingB = false ∧ s.sup.pairB = true ∧ ({ Super.init with pairB := false } : Super).pairB = false ∧
      ({ s.sup with servingB := true } : Super).servingB = true) ∧
    (let s := keyed .deployed .ready;
      s.gate 0x8000 = 0 ∧ s.sup.mod = .ready ∧ s.sup.targ = none ∧ s.keys.life = .deployed ∧ s.beam.waiting = [] ∧ live.sup.mod ≠ .ready ∧
      live.sup.mod ≠ .shutdownTest ∧ live.keys.life ≠ .deployed ∧ (keyed .parked .parked).gate 0x8000 = 0 ∧
      (keyed .parked .parked).sup.mod = .parked) ∧
    (let s := withVals (keyed .blank .ready) [(0x8020, 0x01, 63)];
      benchLife s = true ∧ s.sup.mod = .ready ∧ s.sup.targ = none ∧ targetable s (s.val 0xFFFF 0x8020 0x01) = true ∧
      sparable s (s.val 0xFFFF 0x8020 0x01) = true ∧ s.gate 0x8020 = 0) ∧
    (let s := { (keyed .blank .ready).put 0xFFFF 0x8020 0x01 0 with frames := [(4, .spare), (5, .retired), (6, .retired), (7, .retired)] };
      targetable s (s.val 0xFFFF 0x8020 0x01) = true ∧ sparable s (s.val 0xFFFF 0x8020 0x01) = true ∧
      sparable { s with frames := [(3, .spare), (4, .spare), (5, .retired), (6, .retired), (7, .retired)] } 0 = false) ∧
    targetable live (live.val 0xFFFF 0x8020 0x01) = false ∧
    ((1100 : Int) ≤ 1100 ∧ (1050 : Int) ≤ 1050 ∧ (1050 : Int) < 1051 ∧ (1099 : Int) < 1100 ∧ (1180 : Int) ≤ 1180 ∧
      (1130 : Int) ≤ 1130 ∧ (1130 : Int) < 1131 ∧ (1179 : Int) < 1180) := by
  refine ⟨by decide, by decide, by decide, by decide, by decide, by decide, by decide, by decide, by decide, by decide, by decide, by decide⟩

/-! Statistics and events -/

theorem witness_StatisticsAndEvents :
    (∀ i ∈ [0x1100, 0x3801, 0x70C0, 0x6000, 0x1020, 0x7400, 0x7410, 0x3400 + 511, 0x2200 + 63, 0x5010 + 3, 0xB000, 0xB100],
      live.gate i = 0) ∧
    (1 < 2 ∧ 511 < 512 ∧ 63 < 64 ∧ 3 < 4 ∧ 512 ≤ 512 ∧ 2 ^ 32 - 1 < 2 ^ 32) ∧
    (evReserved 192 = false ∧ bitsOf 0x30F 7 5 = 0 ∧ bitsOf 0x30F 15 10 = 0 ∧ evReserved 254 = true ∧ 254 < 255 ∧ 255 ≤ 255) ∧
    (let s := { live with events := { Events.init with copyDue := true, copyAt := some (-10000000000) } };
      s.events.copyDue = true ∧ (∀ x, s.events.copyAt = some x → x + 10000000000 ≤ s.clk.local)) ∧
    (let s := { live with events := { Events.init with copyDue := true, copyAt := some (-9999999999) } };
      s.events.copyAt = some (-9999999999) ∧ s.clk.local < -9999999999 + 10000000000) ∧
    live.events.copyDue = false ∧ (live.ticking = true ∧ live.Live ∧ live.pend = []) := by
  refine ⟨by decide, by decide, by decide, ⟨rfl, ?_⟩, by decide, by decide, by decide, by unfold State.Live; decide, rfl⟩
  intro x h
  cases h
  decide

end Sys2Proof.Tests
end

