-- ==== Sys2Proof/Tests/WitnessTime.lean ====
section
/-! SUPPORT. States and operands that meet the hypotheses of the statements about the pipeline's deadlines and about time, at boundary
values of their ranges. -/
namespace Sys2Proof.Tests
open Sys2Proof.Machine

/-! The pipeline -/

/-- A block being rendered, with the flags of its stages. -/
def block (published dm ob eg : Bool) : State :=
  { live with
    pipe := { Pipe.init with rendering := true, published := published, judgedDm := dm, judgedOb := ob, judgedEg := eg }
    hist := List.replicate 6 [(key 0x1100 0x03, 1)] }

theorem witness_StageDeadlines :
    (let s := block false false false false;
      s.ticking = true ∧ s.pipe.rendering = true ∧ s.pipe.published = false ∧ 511 < 512 ∧ (s.obj 511).pfadeB = .ok ∧
      s.pipe.judgedDm = false ∧ busRuns s = true ∧ s.pipe.judgedOb = false ∧ s.pipe.judgedEg = false ∧ s.byp.partic ≠ .inRing) ∧
    (let s := block true true true true;
      let t : State := { s with pipe := { s.pipe with judgedPl := true } };
      t.ticking = true ∧ t.pipe.rendering = true ∧ t.pipe.published = true ∧ t.pipe.judgedPl = true ∧ t.pipe.judgedDm = true ∧
      t.pipe.judgedOb = true) ∧
    (live.ticking = true ∧ live.pipe.rendering = false ∧ busRuns live = false ∧ egressScope live [] [] [] = ([], [], [])) := by decide

/-- A block after its publication: engine 0 has the span of object 511 and feed 511 to render, issued, delivered or not. -/
def rendering (have_ : List Span) : State :=
  { block true false false false with
    pipe := { (block true false false false).pipe with
      xcur := [Crosspoint.mk 511 511 .continuing 0 0 0 0],
      engines := [(0, { Slide.init with order := [(511, 511)], issued := 1, have_ := have_ })] } }

theorem witness_RenderWork :
    (let u := (rendering []).elapse 0;
      dmOpen u = true ∧ 0 < 18 ∧
      u.pipe.xcur.find? (fun x => decide (x.o = 511) && decide (x.f = 511)) = some (Crosspoint.mk 511 511 .continuing 0 0 0 0) ∧
      (511, 511) ∈ ((slideOf u 0).order.take (slideOf u 0).issued).drop (slideOf u 0).done ∧ (slideOf u 0).holds (511, 511) = false ∧ u.pipe.rendering = true ∧
      u.pipe.published = true ∧ u.dram.mig = none ∧
      engineAt u 511 = some 0 ∧ (toRender (slideOf u 0) 511).Nodup ∧ (toRender (slideOf u 0) 511)[0]? = some (511, 511) ∧
      (∀ p ∈ (toRender (slideOf u 0) 511).take 0, (slideOf u 0).holds p = true)) ∧
    (let u := (rendering [Span.mk 511 511 0 []]).elapse 325333;
      dmOpen u = true ∧ engineAt u 511 = some 0 ∧ (toRender (slideOf u 0) 511).Nodup ∧
      ∀ q ∈ toRender (slideOf u 0) 511, (slideOf u 0).holds q = true) ∧
    (let s := block true false false false;
      s.ticking = true ∧ s.pipe.inNow = none ∧ commits s = true ∧ 17 < 18 ∧ s.gate (0x7020 + 17) = 0) ∧
    ((slideOf live 0).st = .inService ∧ 15 ≤ (setDel 0 (usableSlides live)).length ∧ live.gate (0x7020 + 0) = 0 ∧
      (List.range 18).find? (fun j => decide ((slideOf live j).st = .spare)) = some 16) := by
  refine ⟨?_, ?_, ?_, ?_⟩ <;> decide

theorem witness_TickBoundaryAdvances :
    (live.ticking = true ∧ live.Live) ∧
    (let s := { live with clk := { Clock.init with tick := 2 ^ 64 - 2 } }; s.ticking = true ∧ s.clk.tick < 2 ^ 64 - 1) ∧
    State.reset.ticking = false ∧ 3900 ≤ 3900 ∧ 3899 < 3900 :=
  ⟨⟨by decide, by unfold State.Live; decide⟩, by decide, by decide, by decide, by decide⟩

theorem witness_EveryCommandAnswers : live.Live ∧
    (let s := { live with clk := { Clock.init with tick := 2 ^ 64 - 1 } }; s.ticking = true ∧ ¬ s.clk.tick < 2 ^ 64 - 1) :=
  ⟨by unfold State.Live; decide, by decide⟩

theorem witness_EmptyQueueIdles : State.reset.pending = [] := by decide

theorem witness_StepKeepsSafe : ∃ t, step { live with pending := [.writeApply] } = .next t := ⟨_, rfl⟩

theorem witness_CommandsKeepTheirFrame : ∃ t, exec .carryLostClear live = .next t ∧
    ({ live with pending := [Instr.carryLostClear] } : State).pending = [.carryLostClear] := ⟨_, rfl, rfl⟩

/-! Time -/

/-- An Announce on port 3 of domain 127, and on the management port's neighbour of another. -/
def ann (port domain : Nat) : Announce := Announce.mk port domain 1 128 6 0x21 0x4E5D 128 7 1 0xA0 []

/-- An Announce that no Grandmaster is beaten by. -/
def worse (port : Nat) : Announce := { ann port 127 with prio1 := 255, cls := 255 }

/-- A master or candidate with that Announce since tick 0, heard so often, in a window of 4 intervals. -/
def mast (heard : Nat) : Master := Master.mk (ann 1 127) 0 heard 4

/-- The time unit in a state, with what it has selected. -/
def timed (st : TimeState) (m c : Option Master) (tick : Nat) : State :=
  { withVals live [(0x2000, 0x03, 127), (0x2000, 0x01, 1), (0x2000, 0x02, 2)] with
    byp := { Bypass.init with partic := .inRing }
    time := { TimeUnit.init with state := st, master := m, cand := c }
    clk := { Clock.init with tick := tick } }

theorem witness_MasterSelection :
    (let u := (timed .free none none 0).elapse 333332;
      u.time.master = none ∧ u.time.state ≠ .grandmaster ∧ announceHeard u (ann 1 127) = true ∧
      u.time.cand = none ∧ announceHeard u (ann 1 126) = false ∧ announceHeard u (ann 3 127) = false ∧ 2 ≤ (ann 3 127).port) ∧
    (let u := (timed .free none (some (mast 1)) 0).elapse 0;
      u.time.cand = some (mast 1) ∧ (mast 1).ann.identity = (ann 1 127).identity ∧ (mast 1).ann.port = (ann 1 127).port) ∧
    (let s := timed .free none (some (mast 2)) 100000;
      s.time.cand = some (mast 2) ∧ intervalTicks (announceLog s) (mast 2).window ≤ s.clk.tick - (mast 2).since ∧
      (mast 1).heard < 2 ∧ 2 ≤ (mast 2).heard ∧ s.time.qualified = false ∧ s.flag 0x1100 0x03 = false) ∧
    (let s := timed .locked (some (mast 2)) none 0;
      s.time.master = some (mast 2) ∧ s.time.state = .locked ∧ s.time.other = none ∧ s.flag 0x2000 0x0A = false ∧
      followsTwin s = false ∧ (mast 2).ann.port = 1 ∧ s.time.cand = none ∧ announceHeard (s.elapse 0) (ann 1 127) = true ∧
      s.time.state ∈ [TimeState.free, .acquiring, .locked]) ∧
    (let s := timed .grandmaster none (some (mast 2)) 100000;
      announceHeard (s.elapse 0) (worse 1) = true ∧ (s.elapse 0).time.state = .grandmaster ∧
      beatsGrandmaster (s.elapse 0) (worse 1) = false) ∧
    (let s := timed .grandmaster none (some { mast 2 with ann := worse 1 }) 100000;
      s.time.cand = some { mast 2 with ann := worse 1 } ∧ s.time.state = .grandmaster ∧ beatsGrandmaster s (worse 1) = false ∧
      intervalTicks (announceLog s) 4 ≤ s.clk.tick - 0) := by decide

/-- A Sync on port 1 from the selected master whose offset is `o` ns. -/
def sync (o : Int) : SyncMsg := SyncMsg.mk 1 7 127 1 o 0 0

/-- The time unit with a master and a measured path delay of 0 on port 1. -/
def synced (st : TimeState) (latI : Int) : State :=
  { timed st (some (mast 2)) none 0 with
    time := { (timed st (some (mast 2)) none 0).time with mpd := [(1, some 0)], rate := latI } }

theorem witness_ServoAndRebase :
    (let u := (synced .locked 0).elapse 0;
      (∀ o ∈ [-1000, 1000], syncAccepted u (sync (o - syncOffset u (sync 0) 0)) = true ∧
        iabs (syncOffset u (sync (o - syncOffset u (sync 0) 0)) 0) ≤ 1000) ∧
      (∀ o ∈ [-1001, 1001], 1000 < iabs (syncOffset u (sync (o - syncOffset u (sync 0) 0)) 0)) ∧
      mget none u.time.mpd 1 = some 0 ∧ u.time.state = .locked ∧ u.time.await = false) ∧
    (let u := (synced .acquiring 0).elapse 0;
      u.time.state = .acquiring ∧ u.time.setDone = false ∧ u.flag 0x1100 0x03 = false ∧
      0 ≤ u.clk.local + syncOffset u (sync (- syncOffset u (sync 0) 0)) 0 ∧
      u.clk.local + syncOffset u (sync (- syncOffset u (sync 0) 0)) 0 < 2 ^ 64 ∧
      syncAccepted u { sync 0 with domain := 126 } = false ∧ (sync 0).port < 2 ∧
      ({ u.time with setDone := true } : TimeUnit).setDone = true) ∧
    (let u := (synced .rebaseConfirm 0).elapse 0;
      u.time.state = .rebaseConfirm ∧ u.time.await = false ∧ u.time.decided = none ∧ u.clk.rebase = none ∧
      syncAccepted u (sync 0) = true ∧ mget none u.time.mpd 1 = some 0) ∧
    (({ live with twin := { Twin.init with role := .standby } } : State).twin.role = .standby ∧ live.twin.role ≠ .standby) ∧
    (let s := { timed .locked none none 12 with time := { TimeUnit.init with decided := some (1000001, 20, 10) } };
      s.time.decided = some (1000001, 20, 10) ∧ 10 + 2 ≤ s.clk.tick) ∧
    (let s := { timed .locked none none 11 with time := { TimeUnit.init with decided := some (1000001, 20, 10) } };
      s.clk.tick < 10 + 2) ∧
    (let c := { Clock.init with tick := 20, rebase := some (1000001, 20) };
      c.rebase = some (1000001, 20) ∧ 20 ≤ c.tick ∧ ({ c with tick := 19 } : Clock).tick < 20) := by decide

theorem witness_CounterAndConfiguration :
    (let s := { live with clk := { Clock.init with ns := 0xFFFFFFFF#32 } };
      s.ticking = true ∧ s.clk.ofs + (2 ^ 32 - s.clk.ns.toNat) < tickLen s.clk.tick ∧ s.clk.wrapPend = false) ∧
    (let s := { live with clk := { Clock.init with ns := 0xFFFFFFFF#32, ofs := 333331, wrapPend := true } };
      s.clk.ofs + (2 ^ 32 - s.clk.ns.toNat) < tickLen s.clk.tick ∧ s.clk.wrapPend = true) ∧
    (live.gate 0x2000 = 0 ∧ 2 ≤ 2 ∧ 10 ≤ 10 ∧ (1 < 2 ∨ 10 < 11) ∧ live.flag 0x1100 0x03 = false) ∧
    (let s := { timed .rebaseConfirm (some (mast 2)) none 0 with clk := { Clock.init with ns := 0xFFFFFFFF#32, wrapPend := true } };
      s.time.state = .rebaseConfirm ∧ s.time.master.isSome = true ∧ s.clk.wrapPend = true ∧ s.ticking = true ∧
      s.clk.ofs + (2 ^ 32 - s.clk.ns.toNat) < tickLen s.clk.tick ∧ tickLen 0 ≤ 333332 + (2 ^ 32 - s.clk.ns.toNat)) ∧
    (timeCheck live 0x2000 3 127 = 0 ∧ timeCheck live 0x2000 7 2 = 0 ∧ timeCheck live 0x2000 7 10 = 0 ∧ timeCheck live 0x2000 1 3 = 0 ∧
      timeCheck live 0x2000 2 2 = 0 ∧ timeCheck live 0x2000 9 2 = 0 ∧ timeCheck live 0x2000 0x0A 1 = 0 ∧
      (timed .grandmaster none none 0).time.state = .grandmaster ∧ timeCheck (timed .grandmaster none none 0) 0x2000 0x0A 0 = 0) ∧
    (3 ≤ 3 ∧ (withVals live [(0x1100, 0x03, 1)]).flag 0x1100 0x03 = true) ∧
    (3 < 4 ∧ live.gate (0x2020 + 3) = 0 ∧ 2 ^ 32 - 1 < 2 ^ 32 ∧ 1 ≤ 1 ∧ 2 ≤ 2) := by decide

/-- Pulse output 3 with its comparator and pulse. -/
def pulse (armed prog : Bool) (mode : Nat) : State :=
  { withVals live [(0x2033, 0x01, mode), (0x2043, 0x01, 1), (0x2000, 0x01, 1), (0x2000, 0x02, 2)] with
    time := { TimeUnit.init with pulses := [(3, { Pulse.init with
      cmp := { Pulse.init.cmp with armed := armed, extended := true, target := 0 }, inProg := prog, endsAt := 0 })] } }

/-- The module in the ring, its ports locked, in a clock role and profile, its master on port 1. -/
def inRole (role profile : Nat) : State :=
  { withVals (timed .locked (some (mast 2)) none 0) [(0x2000, 0x01, role), (0x2000, 0x02, profile)] with
    ports := [0, 1, 2, 3].map (fun p => (p, { Port.init with lock := true })) }

theorem witness_PulsesAndPtpFrames :
    (let u := (pulse true false 2).elapse 0;
      3 < 4 ∧ (pulseOf u 3).cmp.armed = true ∧ comparePast u.clk (pulseOf u 3).cmp.extended (pulseOf u 3).cmp.target = true) ∧
    (let u := (pulse false true 2).elapse 0;
      (pulseOf u 3).cmp.armed = false ∧ (pulseOf u 3).inProg = true ∧ (pulseOf u 3).endsAt ≤ u.clk.local ∧
      u.val 0 0x2033 0x01 = 2 ∧ 0 < u.val 1000000000 0x2033 0x03 ∧ u.val 0 (0x2040 + 3) 0x01 = 1 ∧ u.val 0 0x2043 0x01 ≠ 3 ∧
      mget 0 u.time.unread 3 = 0 ∧ mget 0 (mset 0 u.time.unread 3 2) 3 ≠ 0) ∧
    (pulse false true 1).val 0 0x2033 0x01 ≠ 2 ∧
    (live.gate 0x2033 = 0 ∧ live.val 1000000000 0x2033 0x03 ≤ 1000000000 ∧ pulseCheck live 3 4 1000 = 0 ∧ pulseCheck live 3 5 1 = 0 ∧
      pulseCheck live 3 1 0 = 0 ∧ pulseCheck live 3 1 1 = 0 ∧ pulseCheck live 3 1 2 = 0) ∧
    (let s := inRole 1 2;
      s.open 1 = true ∧ originates s 1 .pdelayReq = true ∧ measuresLink s 1 = true ∧ peerToPeer s = true ∧ clockRole s = 1 ∧
      originates s 1 .sync = false ∧ measuresLink s 3 = false) ∧
    (clockRole (inRole 0 1) = 0 ∧ (inRole 0 1).open 1 = true ∧ (inRole 2 1).open 1 = true ∧ clockRole (inRole 2 1) = 2 ∧
      peerToPeer (inRole 2 1) = false ∧ live.open 1 = false ∧ clockRole live ≤ 2) ∧
    (clockRole (inRole 3 1) = 3 ∧ mastersOn (inRole 3 1) 0 = true ∧ peerToPeer (inRole 3 1) = false ∧ (inRole 3 1).open 0 = true) := by
  refine ⟨by decide, by decide, by decide, by decide, by decide, by decide, by decide⟩

end Sys2Proof.Tests
end

