-- ==== Sys2Proof/Tests/WitnessTwin.lean ====
section
/-! SUPPORT. States and operands that meet the hypotheses of the statements about twin operation, at boundary values of their
ranges. -/
namespace Sys2Proof.Tests
open Sys2Proof.Machine

/-- A heartbeat frame of tick `x` from the module `twin`. -/
def hb (x role sync twin flags : Nat) (fcs : Bool) : HbFrame :=
  HbFrame.mk x role sync twin flags 0 0 0 0 0 (List.replicate 64 0) (List.replicate 16 0) fcs 0x88B5 0x5457 1 1

/-- The module in tick 5 of a pair, with a role, its TWIN_ID and what it holds of the twin. -/
def paired (role : Role) (id : Nat) (w : Twin) : State :=
  { live with
    sup := { Super.init with mod := .rendering, twinId := id }
    clk := { Clock.init with tick := 5 }
    twin := { w with role := role } }

/-- The partner's frame of tick 5, FIT. -/
def fitFrame : Twin := { Twin.init with frame := some (hb 5 2 5 1 0b100000 true), frameTick := 5 }

theorem witness_TwinLink :
    (let s := paired .solo 0 Twin.init; let u := s.elapse 2000;
      s.ticking = true ∧ u.clk.ofs ≤ 2000 ∧ hbValid (hb 5 3 5 1 0 true) = true ∧ (hb 5 3 5 1 0 true).tick = s.clk.tick ∧
      (hb 6 3 5 1 0 true).tick = s.clk.tick + 1 ∧ (hb 5 3 5 1 0 true).twin ≠ s.sup.twinId ∧
      frameServes (hb 5 3 5 1 0 true) = true ∧ (hb 5 3 5 1 0 true).role ≠ 1 ∧ hbValid (hb 5 3 5 1 0 false) = false ∧
      hbValid { hb 5 3 5 1 0 true with ethertype := 0x88B4 } = false ∧ hbValid { hb 5 3 5 1 0 true with magic := 0x5458 } = false ∧
      hbValid { hb 5 3 5 1 0 true with version := 2 } = false ∧ hbValid { hb 5 3 5 1 0 true with kind := 0 } = false ∧
      (hb 4 3 5 1 0 true).tick ≠ s.clk.tick ∧ (hb 4 3 5 1 0 true).tick ≠ s.clk.tick + 1) ∧
    ((hb 5 1 0 0 0 true).twin = (paired .active 0 Twin.init).sup.twinId ∧ (hb 5 1 0 0 0 true).twin = (paired .standby 0 Twin.init).sup.twinId ∧
      (paired .off 0 Twin.init).twin.role = .off) ∧
    (let s := paired .active 1 Twin.init;
      s.sup.twinId = 1 ∧ (hb 5 1 0 0 0 true).twin = 0 ∧ (hb 5 1 0 0 0 true).role = 1 ∧ Role.drives s.twin.role = true ∧
      mayRejoin s = true ∧ mayRejoin (s.put 1 0x6000 0x07 0) = false) ∧
    (let s := paired .solo 0 Twin.init;
      2000 < (s.elapse 2001).clk.ofs ∧ (s.elapse 2001).clk.ofs + 1000 < tickLen s.clk.tick ∧
      2000 < (s.elapse 333332).clk.ofs ∧ tickLen s.clk.tick ≤ (s.elapse 333332).clk.ofs + 1000) ∧
    (let s := paired .standby 1 { Twin.init with evalTick := 4, hbSil1 := true, tlSil1 := true };
      s.ticking = true ∧ s.twin.evalTick ≠ s.clk.tick ∧ s.twin.role = .standby ∧ s.twin.evalTick + 1 = s.clk.tick ∧ 200 ≤ 200 ∧
      s.twin.hbEdge = false ∧ s.twin.hbSil1 = true ∧ frameNow s = none ∧ s.twin.tlSil1 = true) ∧
    (let s := paired .standby 1 { Twin.init with evalTick := 5 }; s.twin.evalTick = s.clk.tick ∧ s.clk.tick ≠ 0) ∧
    (let g := hb 5 3 0 0 0b10000 true;
      let s := paired .standby 1 { Twin.init with evalTick := 4, frame := some g, frameTick := 5 };
      frameNow s = some g ∧ firstUnequal s g (s.clk.tick - 4) = none ∧ s.twin.broken = false ∧ bitOf g.flags 4 = true ∧
      bitOf g.flags 0 = false ∧ bitOf g.flags 3 = false) ∧
    (let s := paired .active 0 { Twin.init with actOut := true };
      s.twin.actOut = true ∧ s.sup.twinId = 0 ∧ (paired .active 1 { Twin.init with actOut := true }).sup.twinId = 1 ∧ s.twin.actIn = false ∧
      idConflict s = false ∧ idConflict (paired .active 1 { Twin.init with frame := some (hb 5 1 0 1 0 true), frameTick := 5 }) = true) ∧
    (2999 < 3000 ∧ 3000 ≤ ({ Twin.init with soloRun := 3000 } : Twin).soloRun) ∧
    (let s := paired .solo 0 Twin.init; s.twin.actOut = false ∧ Role.drives s.twin.role = true ∧ s.twin.broken = false) ∧
    (Role.drives (paired .standby 0 Twin.init).twin.role = false ∧ (paired .solo 0 { Twin.init with broken := true }).twin.broken = true) ∧
    (Twin.init.fed1 = false ∧ Twin.init.fed2 = false ∧ ({ Twin.init with fed1 := true } : Twin).fed1 = true) := by decide +kernel

theorem witness_TwinRoles :
    (let s := { paired .active 0 { fitFrame with handTick := some 4 } with
        sup := { Super.init with mod := .rendering, lockErr := true, pairA := false, pairB := false }
        time := { TimeUnit.init with state := .grandmaster } };
      s.twin.role = .active ∧ faultBit s = true ∧ partnerFit s = true ∧ s.time.state = .grandmaster ∧ s.twin.handTick = some 4 ∧
      4 < s.twin.frameTick ∧ s.gate 0x6000 = 0) ∧
    (let s := paired .active 0 Twin.init;
      faultBit s = false ∧ partnerFit s = false ∧ s.twin.handTick = none ∧ s.twin.role = .active) ∧
    ((paired .standby 0 fitFrame).twin.role = .standby ∧ (paired .standby 0 fitFrame).twin.role ≠ .active ∧
      (paired .isolated 0 fitFrame).twin.role = .isolated ∧ idConflict (paired .isolated 0 fitFrame) = false ∧
      idConflict (paired .isolated 1 fitFrame) = true ∧ (paired .solo 0 fitFrame).twin.role = .solo ∧
      (paired .off 0 fitFrame).twin.role = .off) ∧ 1 < 2 ∧
    ({ paired .active 0 fitFrame with ports := [(3, { Port.init with lock := true })] } : State).open 3 = true := by decide +kernel

/-- The joining Standby in a sync state. -/
def joining (sync : Nat) (w : Twin) : State := paired .standby 1 { w with sync := sync }

theorem witness_JoinSteps :
    (let s := joining 1 Twin.init;
      let m := JoinImage.mk 5 [(key 0x3000 0x02, 7)] [] [] [] [] [] [] 9;
      s.twin.role = .standby ∧ s.twin.sync = 1 ∧ m.block ≤ s.clk.tick ∧ m.block = s.clk.tick ∧
      sharedKey (key 0x3000 0x02) = true ∧ (key 0x3000 0x02, 7) ∈ m.dict ∧ (∀ w, (key 0x3000 0x02, w) ∈ m.dict → w = 7) ∧
      sharedKey (key 0x3001 0x02) = true ∧ (∀ w, (key 0x3001 0x02, w) ∉ m.dict) ∧
      sharedKey (key 0x1020 0x02) = false ∧ (∀ w, (key 0x1020 0x02, w) ∉ m.dict) ∧ s.clk.tick < (JoinImage.mk 6 [] [] [] [] [] [] [] 9).block) ∧
    (let s := { joining 2 { Twin.init with imageB := 1 } with clk := { Clock.init with tick := 8201 } };
      s.twin.imageB ≠ 0 ∧ s.twin.cutB = 0 ∧ s.twin.imageB + (if s.n = 32 then 8200 else 16400) ≤ s.clk.tick ∧
      s.twin.role = .standby ∧ s.twin.sync = 2) ∧
    (let s := { paired .active 0 { Twin.init with imageB := 1, partnerSync := 2 } with clk := { Clock.init with tick := 8201 } };
      s.twin.imageB + (if s.n = 32 then 8200 else 16400) ≤ s.clk.tick ∧ s.twin.role = .active ∧ s.twin.partnerSync = 2) ∧
    (let s := { joining 2 { Twin.init with imageB := 1 } with clk := { Clock.init with tick := 8200 } };
      s.clk.tick < s.twin.imageB + (if s.n = 32 then 8200 else 16400)) ∧
    (let s := joining 3 { Twin.init with joinFails := 2 };
      s.twin.role = .standby ∧ s.twin.sync = 3 ∧ s.clk.tick = 2 + 3 ∧ s.clk.tick ≠ 1 + 3 ∧ s.twin.joinFails < 3) ∧
    (3 ≤ (joining 3 { Twin.init with joinFails := 3 }).twin.joinFails ∧ (joining 1 Twin.init).twin.sync ≠ 3) ∧
    (let s := joining 4 { Twin.init with verified := 3000 };
      s.twin.role = .standby ∧ s.twin.sync = 4 ∧ 3000 ≤ s.twin.verified) ∧
    (joining 4 { Twin.init with verified := 2999 }).twin.verified < 3000 := by
  refine ⟨⟨by decide, by decide, by decide, by decide, by decide, by decide, ?_, by decide, ?_, by decide, ?_, by decide⟩,
    by decide +kernel, by decide +kernel, by decide +kernel, by decide, by decide, by decide, by decide⟩
  · intro w h
    simpa [joining] using h
  · intro w h
    simp [key] at h
  · intro w h
    simp [key] at h

end Sys2Proof.Tests
end

