-- ==== Sys2Proof/Tests/Words.lean ====
section
/-! SUPPORT. One step of a Rod word at a time: what the instruction summary (R221) and the rules it names give by hand for the values at
which a swapped operand, a lost sign or a lost saturation shows. -/
set_option Elab.async false

namespace Sys2Proof.Tests
open Sys2Proof.Machine

/-- What holds after one command, where it answers a next state. -/
def after (i : Instr) (s : State) (p : State → Bool) : Bool :=
  match exec i s with
  | .next t => p t
  | .fault _ => false
  | .refused _ => false

/-- Rod 63, a transform Rod, with V1 and V2 and the lanes of AC1. -/
def beads (acc : List Int) : Rod :=
  ((Rod.init.setV 1 ([2 ^ 31 - 1, -2 ^ 31, -1, 1, 5, -7, 0, 9].getD · 0)).setV 2
    ([1, 1, 1, -1, 5, 3, -2 ^ 31, 9].getD · 0)).setAc 1 (acc.getD · 0)

/-- The lanes of V3, and of AC0, after a vector operation, with SATF. -/
def v3 (i : Instr) (acc : List Int) (l : List Int) (sat : Bool) : Bool :=
  after i (runs 63 (beads acc)) (fun t => decide ((List.range 8).map ((t.rod 63).lane 3) = l) && ((t.rod 63).satf == sat))

def ac (n : Nat) (i : Instr) (q : Rod) (l : List Int) (sat : Bool) : Bool :=
  after i (runs 63 q) (fun t => decide ((List.range 8).map ((t.rod 63).acc n) = l) && ((t.rod 63).satf == sat))

/-! Vector operations (R206, R208, R221) -/

theorem test_vmov : v3 (.vmov 63 3 1 noSlots) [] [2 ^ 31 - 1, -2 ^ 31, -1, 1, 5, -7, 0, 9] false = true := by decide +kernel
theorem test_vadd : v3 (.vadd 63 3 1 2 noSlots) [] [2 ^ 31 - 1, -2 ^ 31 + 1, 0, 0, 10, -4, -2 ^ 31, 18] true = true := by decide +kernel
theorem test_vsub : v3 (.vsub 63 3 1 2 noSlots) [] [2 ^ 31 - 2, -2 ^ 31, -2, 2, 0, -10, 2 ^ 31 - 1, 0] true = true := by decide +kernel
theorem test_vaddw : v3 (.vaddw 63 3 1 2 noSlots) [] [-2 ^ 31, -2 ^ 31 + 1, 0, 0, 10, -4, -2 ^ 31, 18] false = true := by decide +kernel
theorem test_vsubw : v3 (.vsubw 63 3 1 2 noSlots) [] [2 ^ 31 - 2, 2 ^ 31 - 1, -2, 2, 0, -10, -2 ^ 31, 0] false = true := by decide +kernel
theorem test_vmul : v3 (.vmul 63 3 1 2 noSlots) [] [0, -1, -1, -1, 0, -1, 0, 0] false = true := by decide +kernel
theorem test_vmul_saturates : v3 (.vmul 63 3 1 1 noSlots) [] [2 ^ 31 - 2, 2 ^ 31 - 1, 0, 0, 0, 0, 0, 0] true = true := by decide +kernel
theorem test_vabs : v3 (.vabs 63 3 1 noSlots) [] [2 ^ 31 - 1, 2 ^ 31 - 1, 1, 1, 5, 7, 0, 9] true = true := by decide +kernel
theorem test_vneg : v3 (.vneg 63 3 1 noSlots) [] [-2 ^ 31 + 1, 2 ^ 31 - 1, 1, -1, -5, 7, 0, -9] true = true := by decide +kernel
theorem test_vmin : v3 (.vmin 63 3 1 2 noSlots) [] [1, -2 ^ 31, -1, -1, 5, -7, -2 ^ 31, 9] false = true := by decide +kernel
theorem test_vmax : v3 (.vmax 63 3 1 2 noSlots) [] [2 ^ 31 - 1, 1, 1, 1, 5, 3, 0, 9] false = true := by decide +kernel
theorem test_vand : v3 (.vand 63 3 1 2 noSlots) [] [1, 0, 1, 1, 5, 1, 0, 9] false = true := by decide +kernel
theorem test_vor : v3 (.vor 63 3 1 2 noSlots) [] [2 ^ 31 - 1, -2 ^ 31 + 1, -1, -1, 5, -5, -2 ^ 31, 9] false = true := by decide +kernel
theorem test_vxor : v3 (.vxor 63 3 1 2 noSlots) [] [2 ^ 31 - 2, -2 ^ 31 + 1, -2, -2, 0, -6, -2 ^ 31, 0] false = true := by decide +kernel
theorem test_vnot : v3 (.vnot 63 3 1 noSlots) [] [-2 ^ 31, 2 ^ 31 - 1, 0, -2, -6, 6, -1, -10] false = true := by decide +kernel
theorem test_vcmpgt : v3 (.vcmpgt 63 3 1 2 noSlots) [] [-1, 0, 0, -1, 0, 0, -1, 0] false = true := by decide +kernel
theorem test_vcmpeq : v3 (.vcmpeq 63 3 1 2 noSlots) [] [0, 0, 0, 0, -1, 0, 0, -1] false = true := by decide +kernel
theorem test_vshl : v3 (.vshl 63 3 1 1 noSlots) [] [2 ^ 31 - 1, -2 ^ 31, -2, 2, 10, -14, 0, 18] true = true := by decide +kernel
theorem test_vshr : v3 (.vshr 63 3 1 1 noSlots) [] [2 ^ 30 - 1, -2 ^ 30, -1, 0, 2, -4, 0, 4] false = true := by decide +kernel
theorem test_vshrl : v3 (.vshrl 63 3 1 1 noSlots) [] [2 ^ 30 - 1, 2 ^ 30, 2 ^ 31 - 1, 0, 2, 2 ^ 31 - 4, 0, 4] false = true := by decide +kernel
theorem test_vperm : v3 (.vperm 63 3 1 2 noSlots) [] [-2 ^ 31, -2 ^ 31, -2 ^ 31, 9, -7, 1, 2 ^ 31 - 1, -2 ^ 31] false = true := by
  decide +kernel
theorem test_vbcst : v3 (.vbcst 63 3 1 5 noSlots) [] (List.replicate 8 (-7)) false = true := by decide +kernel

/-! Accumulators (R207 to R210) -/

theorem test_vmpy : ac 0 (.vmpy 63 0 1 2 noSlots) (beads []) [2 ^ 31 - 1, -2 ^ 31, -1, -1, 25, -21, 0, 81] false = true := by decide +kernel
theorem test_vmpy_shift : ac 0 (.vmpy 63 0 1 2 noSlots) { beads [] with ps := 2 } [2 ^ 33 - 4, -2 ^ 33, -4, -4, 100, -84, 0, 324] false = true := by
  decide +kernel
theorem test_vmac : ac 1 (.vmac 63 1 1 2 noSlots) (beads [2 ^ 71 - 1, 2 ^ 31, 0, 1, 0, 21, 0, 0])
    [2 ^ 71 - 1, 0, -1, 0, 25, 0, 0, 81] true = true := by decide +kernel
theorem test_vmsu : ac 1 (.vmsu 63 1 1 2 noSlots) (beads [-2 ^ 71, -2 ^ 31, 0, -1, 0, -21, 0, 0])
    [-2 ^ 71, 0, 1, 0, -25, 0, 0, -81] true = true := by decide +kernel
theorem test_vclr : ac 1 (.vclr 63 1 noSlots) (beads [1, 2, 3]) (List.replicate 8 0) false = true := by decide +kernel
theorem test_vlift : ac 0 (.vlift 63 0 2 noSlots) (beads []) [2 ^ 31, 2 ^ 31, 2 ^ 31, -2 ^ 31, 5 * 2 ^ 31, 3 * 2 ^ 31, -2 ^ 62, 9 * 2 ^ 31] false = true := by
  decide +kernel
theorem test_vaadd : ac 0 (.vaadd 63 0 1 noSlots) ((beads [2 ^ 71 - 1, -3]).setAc 0 (fun _ => 1)) [2 ^ 71 - 1, -2, 1, 1, 1, 1, 1, 1] true = true := by
  decide +kernel
theorem test_vasub : ac 0 (.vasub 63 0 1 noSlots) ((beads [-2 ^ 71, 3]).setAc 0 (fun _ => 1)) [2 ^ 71 - 1, -2, 1, 1, 1, 1, 1, 1] true = true := by
  decide +kernel
theorem test_vtrw : ac 1 (.vtrw 63 1 noSlots) (beads [-1, 2 ^ 31 - 1, 2 ^ 31, -2 ^ 31 - 1]) [-2 ^ 31, 0, 2 ^ 31, -2 ^ 32, 0, 0, 0, 0] false = true := by
  decide +kernel
theorem test_vred : ac 1 (.vred 63 1 noSlots) (beads [2 ^ 71 - 1, 1, -1, -2, 0, 0, 0, 2]) [2 ^ 71 - 2, 0, 0, 0, 0, 0, 0, 0] true = true := by
  decide +kernel
theorem test_vaex : after (.vaex 63 1 noSlots) (runs 63 (beads [2 ^ 62, -2 ^ 62, 2 ^ 70])) (fun t => decide ((t.rod 63).aex = 9#32)) = true := by
  decide +kernel
theorem test_vrd : v3 (.vrd 63 3 1 1 noSlots) [-1, 2 ^ 32, 2 ^ 63, -2 ^ 71, 2 ^ 32 - 1] [-1, 1, 2 ^ 31 - 1, -2 ^ 31, 0, 0, 0, 0] true = true := by
  decide +kernel
theorem test_vrdl : v3 (.vrdl 63 3 1 noSlots) [-2, 2 ^ 32 + 7] [-2, 7, 0, 0, 0, 0, 0, 0] false = true := by decide +kernel
theorem test_vrdm : v3 (.vrdm 63 3 1 noSlots) [-2, 2 ^ 32 + 7] [-1, 1, 0, 0, 0, 0, 0, 0] false = true := by decide +kernel
theorem test_vrdh : v3 (.vrdh 63 3 1 noSlots) [-2, 2 ^ 64, 2 ^ 71 - 1] [-1, 1, 127, 0, 0, 0, 0, 0] false = true := by decide +kernel
theorem test_vwra : ac 0 (.vwra 63 0 1 2 noSlots) (beads []) [2 ^ 32 + 2 ^ 31 - 1, 2 ^ 32 + 2 ^ 31, 2 ^ 33 - 1, -2 ^ 32 + 1, 5 * 2 ^ 32 + 5,
    3 * 2 ^ 32 + 2 ^ 32 - 7, -2 ^ 63, 9 * 2 ^ 32 + 9] false = true := by decide +kernel
theorem test_vwrh : ac 1 (.vwrh 63 1 1 noSlots) (beads [0, 1, 2]) [-2 ^ 64, 1, -2 ^ 64 + 2, 2 ^ 64, 5 * 2 ^ 64, -7 * 2 ^ 64, 0, 9 * 2 ^ 64] false = true := by
  decide +kernel
theorem test_vrdx : after (.vrdx 63 3 1 noSlots) (runs 63 { beads [2 ^ 40, -1, 2 ^ 70] with bsh := 2 })
    (fun t => decide ((List.range 8).map ((t.rod 63).lane 3) = [2 ^ 7, -1, 2 ^ 31 - 1, 0, 0, 0, 0, 0])) = true := by decide +kernel

/-! Searches (R211) -/

theorem test_smax : after (.smax 63 1 noSlots) (runs 63 { beads [] with sx := BitVec.ofInt 64 (-2 ^ 63), si := 0xFFFFFFFF#32, sc := 8#32 })
    (fun t => decide ((t.rod 63).sx.toInt = 2 ^ 31 - 1 ∧ (t.rod 63).si = 8#32 ∧ (t.rod 63).sc = 16#32)) = true := by decide +kernel
theorem test_smax_tie : after (.smax 63 1 noSlots) (runs 63 { beads [] with sx := BitVec.ofInt 64 (2 ^ 31 - 1), si := 3#32, sc := 8#32 })
    (fun t => decide ((t.rod 63).si = 3#32)) = true := by decide +kernel
theorem test_smin : after (.smin 63 2 noSlots) (runs 63 { beads [] with sx := BitVec.ofInt 64 (2 ^ 63 - 1), si := 0xFFFFFFFF#32 })
    (fun t => decide ((t.rod 63).sx.toInt = -2 ^ 31 ∧ (t.rod 63).si = 6#32)) = true := by decide +kernel
theorem test_smaxa : after (.smaxa 63 1 noSlots) (runs 63 { beads [] with sx := BitVec.ofInt 64 (-2 ^ 63), si := 0xFFFFFFFF#32 })
    (fun t => decide ((t.rod 63).sx.toInt = 2 ^ 31 ∧ (t.rod 63).si = 1#32)) = true := by decide +kernel

/-! Loads, stores and address updates (R202, R204, R205) -/

/-- The Rod with the word 0x0201 at byte address 64 and -1 at 68, AR5 = 64, MD5 = 4, CL5 = 64, CB5 = 56. -/
def atWord : State :=
  let s := runs 63 { beads [] with ar := [(5, 64#32)], md := [(5, 4#32)], cl := [(5, 64#19)], cb := [(5, 56#18)] }
  { s with mem := [(rodWindow 63 64, 1#8), (rodWindow 63 65, 2#8), (rodWindow 63 68, 255#8), (rodWindow 63 69, 255#8),
    (rodWindow 63 70, 255#8), (rodWindow 63 71, 255#8)] }

/-- The lanes of V3, and a word of data memory, after a word. -/
def loaded (i : Instr) (l : List Int) : Bool :=
  after i atWord (fun t => decide ((List.range 8).map ((t.rod 63).lane 3) = l))

def word (i : Instr) (s : State) (a : Nat) (x : Word) : Bool := after i s (fun t => decide (dmWord t 63 a = x))

theorem test_ldv : loaded (.ldv 63 3 5 .nop none none none) [0x201, -1, 0, 0, 0, 0, 0, 0] = true := by decide +kernel
theorem test_ldb : loaded (.ldb 63 3 5 .nop none none none) (List.replicate 8 0x201) = true := by decide +kernel
theorem test_lds : after (.lds 63 3 5 .nop none none none) (atWord.setRod 63 { atWord.rod 63 with ar := [(5, 60#32)], md := [(5, 8#32)] })
    (fun t => decide ((List.range 8).map ((t.rod 63).lane 3) = [0, -1, 0, 0, 0, 0, 0, 0])) = true := by decide +kernel
theorem test_load_takes_old_bytes : loaded (.ldv 63 3 5 .nop (some (StSlot.mk .stv 2 5)) none none) [0x201, -1, 0, 0, 0, 0, 0, 0] = true := by
  decide +kernel
theorem test_stv : (word (.stv 63 1 5 .nop none none none) atWord 68 (BitVec.ofInt 32 (-2 ^ 31)) &&
    word (.stv 63 1 5 .nop none none none) atWord 92 9#32 && word (.stv 63 1 5 .nop none none none) atWord 96 0#32) = true := by decide +kernel
theorem test_stl : (word (.stl 63 1 5 .nop none none none) atWord 64 (BitVec.ofInt 32 (2 ^ 31 - 1)) &&
    word (.stl 63 1 5 .nop none none none) atWord 68 (BitVec.ofInt 32 (-1))) = true := by decide +kernel
theorem test_std_detects : after (.std 63 1 5 .nop none none none) atWord (fun t => decide ((t.rod 63).bxm = 2 ^ 31)) = true := by decide +kernel
theorem test_store_takes_old_value : word (.stv 63 1 5 (.vmov 1 2) none none none) atWord 80 5#32 = true := by decide +kernel
theorem test_update_linear : after (.updateLinear 63 5 3 .nop none none none) atWord (fun t => decide ((t.rod 63).arv 5 = 32)) = true := by
  decide +kernel
theorem test_update_circular : after (.updateCircular 63 5 3 .nop none none none) atWord (fun t => decide ((t.rod 63).arv 5 = 56 + 40)) = true := by
  decide +kernel
theorem test_update_bit_reversed : after (.updateBitReversed 63 5 0 .nop none none none) atWord (fun t =>
    decide ((t.rod 63).arv 5 = 56 + 8 * 5)) = true := by decide +kernel

/-! Control and immediate words (R209 to R221) -/

/-- Rod 63 at word 10. -/
def at10 (q : Rod) : State := runs 63 { q with pc := 10 }

theorem test_rep : after (.rep 63 3 12) (at10 Rod.init) (fun t =>
    decide ((t.rod 63).reps = [RepLevel.mk 3 11 12] ∧ (t.rod 63).pc = 11)) = true := by decide +kernel
theorem test_rep_zero : after (.rep 63 0 12) (at10 Rod.init) (fun t => decide ((t.rod 63).reps = [] ∧ (t.rod 63).pc = 13)) = true := by decide +kernel
theorem test_repa_too_many : after (.repa 63 5 12) (at10 { Rod.init with ar := [(5, 65536#32)] }) (fun t =>
    decide ((t.rod 63).code = 3 ∧ (t.rod 63).st = .faulted ∧ (t.rod 63).faultPc = 10 ∧ (t.rod 63).reps = [])) = true := by decide +kernel
theorem test_repeat_returns : after (.nop 63 noSlots) (at10 { Rod.init with reps := [RepLevel.mk 2 4 10] }) (fun t =>
    decide ((t.rod 63).pc = 4 ∧ (t.rod 63).reps = [RepLevel.mk 1 4 10])) = true := by decide +kernel
theorem test_brk : after (.brk 63) (at10 { Rod.init with reps := [RepLevel.mk 9 4 20] }) (fun t =>
    decide ((t.rod 63).reps = [] ∧ (t.rod 63).pc = 21)) = true := by decide +kernel
theorem test_j_in_a_repeat : after (.j 63 5) (at10 { Rod.init with reps := [RepLevel.mk 9 4 20] }) (fun t => decide ((t.rod 63).code = 3)) = true := by
  decide +kernel
theorem test_jz : after (.jz 63 5 8000) (at10 Rod.init) (fun t => decide ((t.rod 63).pc = 8000)) = true := by decide +kernel
theorem test_jnz : after (.jnz 63 5 8000) (at10 Rod.init) (fun t => decide ((t.rod 63).pc = 11)) = true := by decide +kernel
theorem test_jneg : after (.jneg 63 5 8000) (at10 { Rod.init with ar := [(5, 0x80000000#32)] }) (fun t => decide ((t.rod 63).pc = 8000)) = true := by
  decide +kernel
theorem test_call : after (.call 63 0) (at10 Rod.init) (fun t => decide ((t.rod 63).lnk = 11#13 ∧ (t.rod 63).pc = 0)) = true := by decide +kernel
theorem test_ret : after (.ret 63) (at10 { Rod.init with lnk := 0x1FFF#13 }) (fun t => decide ((t.rod 63).pc = 8191)) = true := by decide +kernel
theorem test_put_past_the_end : after (.put 63 5 63) (at10 { Rod.init with ar := [(5, 0x3FFF0#32)] }) (fun t => decide ((t.rod 63).code = 4)) = true := by
  decide +kernel
theorem test_take_misaligned : after (.take 63 5 0) (at10 { Rod.init with ar := [(5, 16#32)] }) (fun t => decide ((t.rod 63).code = 4)) = true := by
  decide +kernel
theorem test_xfer_length : after (.xfer 63 false 5 0 1) (at10 { Rod.init with md := [(1, 65540#32)] }) (fun t => decide ((t.rod 63).code = 7)) = true := by
  decide +kernel
theorem test_xfer_nothing : after (.xfer 63 true 5 0 1) (at10 Rod.init) (fun t => decide ((t.rod 63).xfers = [] ∧ (t.rod 63).pc = 11)) = true := by
  decide +kernel
theorem test_setps : after (.setps 63 31) (at10 Rod.init) (fun t => decide ((t.rod 63).ps = 31)) = true := by decide +kernel
theorem test_mfs_rodid : after (.mfs 63 5 0x0B) (at10 Rod.init) (fun t => decide ((t.rod 63).arv 5 = 63)) = true := by decide +kernel
theorem test_mts_truncates : after (.mts 63 5 0x09) (at10 { Rod.init with ar := [(5, 0xFFFFE123#32)] }) (fun t => decide ((t.rod 63).lnk = 0x123#13)) = true := by
  decide +kernel
theorem test_mov : after (.mov 63 4 5) (at10 { Rod.init with ar := [(5, 7#32)] }) (fun t => decide ((t.rod 63).arv 4 = 7)) = true := by decide +kernel
theorem test_ldw : after (.ldw 63 4 5) atWord (fun t => decide ((t.rod 63).arv 4 = 0x201)) = true := by decide +kernel
theorem test_stw : word (.stw 63 5 5) atWord 64 64#32 = true := by decide +kernel
theorem test_ldf : after (.ldf 63 3 5) atWord (fun t => decide (mget 0#40 (t.rod 63).fa 3 = 0xFF00000201#40)) = true := by decide +kernel
theorem test_srinit : after (.srinit 63 5 true) atWord (fun t =>
    decide ((t.rod 63).sx.toInt = 2 ^ 63 - 1 ∧ (t.rod 63).si = 0xFFFFFFFF#32 ∧ (t.rod 63).sc = 64#32)) = true := by decide +kernel
theorem test_bxstep : after (.bxstep 63) (at10 { Rod.init with bxm := 2 ^ 29, bxe := 4#32 }) (fun t =>
    decide ((t.rod 63).bsh = 1 ∧ (t.rod 63).bxe = 5#32 ∧ (t.rod 63).bxm = 0)) = true := by decide +kernel
theorem test_bxclr_elsewhere : after (.bxclr 62) (runs 62 Rod.init) (fun t => decide ((t.rod 62).code = 1)) = true := by decide +kernel
theorem test_halt : after (.halt 63) (at10 Rod.init) (fun t => decide ((t.rod 63).st = .stopped)) = true := by decide +kernel
theorem test_trap : after (.trap 63 200) (at10 Rod.init) (fun t => decide ((t.rod 63).code = 0x0B ∧ (t.rod 63).trapOp = 200)) = true := by decide +kernel
theorem test_li_fa : after (.li 63 67 0xFFFFFFFF) (at10 { Rod.init with fa := [(3, 0xFF00000000#40)] }) (fun t =>
    decide (mget 0#40 (t.rod 63).fa 3 = 0xFFFFFFFF#40)) = true := by decide +kernel
theorem test_li_cl_reserved : after (.li 63 32 2) (at10 Rod.init) (fun t => decide ((t.rod 63).code = 1)) = true := by decide +kernel
theorem test_addi_wraps : after (.addi 63 5 0xFFFFFFFF) (at10 Rod.init) (fun t => decide ((t.rod 63).arv 5 = 0xFFFFFFFF)) = true := by decide +kernel
theorem test_lih : after (.lih 63 64 0xAB) (at10 { Rod.init with fa := [(0, 5#40)] }) (fun t => decide (mget 0#40 (t.rod 63).fa 0 = 0xAB00000005#40)) = true := by
  decide +kernel

end Sys2Proof.Tests
end

