-- ==== Sys2Proof/Tests/Slice0.lean ====
section
/-! SUPPORT. The tests of this model: it brings in the smoke test of well-formedness, the tests of Rod words and the witnesses of the
statements, and adds single steps of block commands whose results the rules give by hand. -/
set_option Elab.async false

namespace Sys2Proof.Tests
open Sys2Proof.Machine

/-- What the last refused write left in 1020:0C (R437). -/
def refuses (i : Instr) (s : State) (code : Nat) : Bool := after i s (fun t => decide (t.stget 0 0x1020 0x0C = code))

/-! Time (R16, R18) -/

theorem test_tick_lengths : (tickLen 0, tickLen 1, tickLen 2) = (333333, 333333, 333334) := by decide
theorem test_boundary : after (.tickBoundary (BoundaryObs.mk 0 5000 300 0 false false [])) { live with clk := { Clock.init with tick := 2, ofs := 333000 } }
    (fun t => decide (t.clk.tick = 3 ∧ t.clk.ofs = 0)) = true := by decide +kernel
theorem test_compare_in_the_past : comparePast { Clock.init with tick := 3 } true 0 = true := by decide

/-! Keyframes (R106): big-endian fields, signed coordinates -/

theorem test_keyframe_fields : keyframeOf ([0#8, 9#8, 3#8, 1#8] ++ beBytes 8 258 ++ beBytes 4 (2 ^ 32 - 1) ++ beBytes 4 1 ++ beBytes 4 (2 ^ 31) ++
    beBytes 4 7 ++ beBytes 4 100000 ++ beBytes 8 (2 ^ 63) ++ beBytes 8 0) =
    some (Keyframe.mk 9 3 true 258 (-1) 1 (-2 ^ 31) 7 100000 (2 ^ 63)) := by decide
theorem test_keyframe_spread : keyframeOf ([0#8, 9#8, 3#8, 1#8] ++ List.replicate 24 0#8 ++ beBytes 4 100001 ++ List.replicate 16 0#8) = none := by decide

/-! Dictionary writes and their refusals (R437) -/

theorem test_object_enable : after (.objectEnable 511 1) live (fun t => t.flag 0x31FF 0x01) = true := by decide
theorem test_object_enable_range : refuses (.objectEnable 511 2) live 0x00030002 = true := by decide
theorem test_object_missing : refuses (.objectEnable 512 1) live 0x00020001 = true := by decide
theorem test_keyframe_length : refuses (.keyframeWrite 0 [0#8]) live 0x00030001 = true := by decide
theorem test_allocation_step : refuses (.allocationWrite 0 31) live 0x00030002 = true := by decide +kernel
theorem test_allocation_sum : refuses (.allocationWrite 0 32) (withVals live ((List.range 128).map (fun k => (0x4001 + k, 1, 16384)))) 0x00040007 =
    true := by decide +kernel
theorem test_bank_load_too_long : refuses (.bankLoad 0 1 (List.replicate 4 0#8)) live 0x00060001 = true := by decide +kernel
theorem test_handover_alone : refuses (.handover 1) (paired .active 0 Twin.init) 0x00040001 = true := by decide +kernel
theorem test_policy_range : refuses (.signaturePolicyWrite 3) live 0x00030002 = true := by decide
theorem test_policy_after_deployment : refuses (.signaturePolicyWrite 0) (keyed .deployed .ready) 0x00040006 = true := by decide
theorem test_svn_rises : refuses (.minimumSvnWrite 4) (withVals live [(0x9030, 0x02, 5)]) 0x00030002 = true := by decide
theorem test_park_needs_deployment : refuses (.park 1) (keyed .provisioned .ready) 0x00040006 = true := by decide +kernel
theorem test_gpio_length : refuses (.gpioWrite 1 65536) live 0x00030001 = true := by decide
theorem test_mask_contiguous : refuses (.managementAddressWrite 3 0xFF00FF00) live 0x00030002 = true := by decide
theorem test_clear_log_range : refuses (.clearLog 2) live 0x00030002 = true := by decide
theorem test_rate_change : after (.mediaRateChange 1) live (fun t => decide (t.n = 16 ∧ t.stget 32 0x1100 0x02 = 16)) = true := by decide +kernel
theorem test_level_key : after (.levelKeyWrite 4 (List.replicate 32 9#8)) (keyed .blank .ready) (fun t =>
    decide (mget [] t.keys.level 4 = List.replicate 32 9#8 ∧ mget [] t.keys.level 3 = List.replicate 32 1#8)) = true := by decide +kernel

/-! Rods and the Tally (R198, R234, R245) -/

theorem test_rod_start : after (.rodRunStart 62 8191) State.reset (fun t => decide ((t.rod 62).st = .running ∧ (t.rod 62).pc = 8191)) = true := by
  decide +kernel
theorem test_rod_stop : after (.rodRunStop 63) last (fun t => decide ((t.rod 63).st = .stopped)) = true := by decide +kernel
theorem test_put_window : after (.putWindowWrite 26 63 0 (desc 5)) (withQueue 63 0x00010000#32 [] []) (fun t =>
    decide ((t.queue 63).items.map (fun i => i.desc) = [desc 5])) = true := by decide +kernel

theorem test_fenced_rod_stays_stopped : after (.rodRunStart 62 8191) (State.reset.setRod 62 { Rod.init with fenced := true })
    (fun t => decide ((t.rod 62).st = .stopped ∧ (t.rod 62).startPc = 8191)) = true := by decide +kernel

/-! Heat and power (R318, R543) -/

theorem test_warning_at_110 : after (.thermalLevelChange 0 1100) live (fun t => t.power.warning && !t.power.critical) = true := by decide +kernel
theorem test_power_good_falls : after (.powerGoodFall 3899) live (fun t => t.power.inReset && !t.ticking) = true := by decide +kernel
theorem test_power_good_holds : after (.powerGoodFall 3900) live (fun t => t.ticking) = true := by decide +kernel

/-! Decoding: the table gives no command any bits -/

theorem test_no_word_spells_a_command : decodeTableWord 64 0 = none ∧ (live.withFetchWord 64 0) = live := ⟨rfl, rfl⟩

end Sys2Proof.Tests
end

namespace Sys2Proof.Machine

/-! TICK_BOUNDARY as a command -/

/-- Where no tick service runs a boundary does nothing. -/
theorem execTickBoundary_idle (s : State) (obs : BoundaryObs) (h : s.ticking = false) :
    exec (.tickBoundary obs) s = .next s := by
  simp [exec, execTickBoundary, done, h]

/-- A boundary to a tick with a number, under the supply found at it. -/
theorem execTickBoundary_live (s : State) (obs : BoundaryObs) (ht : s.ticking = true) (hl : s.Live) :
    exec (.tickBoundary obs) s = .next (supplySeen s obs.vinMv (tickBoundary s obs)) := by
  unfold State.Live at hl
  simp only [exec, execTickBoundary, done, ht, Bool.not_true, Bool.false_eq_true, if_false, if_neg (Nat.not_le.mpr hl)]

/-- The model's one stop (log 85): the tick after the last one numbered. -/
theorem execTickBoundary_exhausted (s : State) (obs : BoundaryObs) (ht : s.ticking = true) (hl : ¬ s.Live) :
    exec (.tickBoundary obs) s = .fault .tickExhausted := by
  unfold State.Live at hl
  simp only [exec, execTickBoundary, ht, Bool.not_true, Bool.false_eq_true, if_false, if_pos (Nat.not_lt.mp hl)]

/-- Every command but TICK_BOUNDARY is in meaning form: it answers `done` of a state, whatever its operands. -/
theorem exec_answers (s : State) (hl : s.Live) (c : Instr) : ∃ t, exec c s = .next t := by
  cases c
  case tickBoundary obs =>
    cases ht : s.ticking with
    | false => exact ⟨s, execTickBoundary_idle s obs ht⟩
    | true => exact ⟨_, execTickBoundary_live s obs ht hl⟩
  all_goals exact ⟨_, rfl⟩

/-- Settles O6. -/
theorem everyCommandAnswers : Obligations.EveryCommandAnswers :=
  ⟨fun s c hl => exec_answers s hl c, fun s obs ht hl => execTickBoundary_exhausted s obs ht hl⟩

end Sys2Proof.Machine

namespace Sys2Proof.Machine

/-! What a frame says of one part -/

theorem Keeps.part {f : List Part} {s t : State} (h : Keeps f s t) (p : Part) (hp : Part.isIn p f = false) : Part.Same s t p :=
  h.same p (fun hq => Bool.eq_false_iff.mp hp (List.any_eq_true.mpr ⟨p, hq, decide_eq_true rfl⟩))

/-! The clock without its epoch offsets -/

/-- The clock with no epoch offset and no rebase: what the passing of time and the setting of the counter alone change. -/
def Clock.counter (c : Clock) : Clock := { c with epoch := 0, epochPrev := 0, epochB := 0, rebase := none }

theorem Clock.local_congr {c d : Clock} (hns : c.ns = d.ns) (hcarry : c.carry = d.carry) (hpend : c.wrapPend = d.wrapPend) :
    c.local = d.local := by
  simp only [Clock.local, hns, hcarry, hpend]

theorem Keeps.clk {f : List Part} {s t : State} (h : Keeps f s t) (hf : Part.isIn .clk f = false) : t.clk = s.clk :=
  h.part .clk hf

theorem Keeps.counter {f : List Part} {s t : State} (h : Keeps f s t) (hf : Part.isIn .clk f = false) :
    t.clk.counter = s.clk.counter := congrArg Clock.counter (h.clk hf)

/-! Folds that leave something as it was -/

theorem foldl_same {α β γ : Type} {φ : β → γ} {g : β → α → β} (hg : ∀ t x, φ (g t x) = φ t) :
    ∀ (l : List α) (s : β), φ (l.foldl g s) = φ s
  | [], _ => rfl
  | x :: l, s => (foldl_same hg l (g s x)).trans (hg s x)

theorem counter_foldl {α : Type} {g : State → α → State} (hg : ∀ t x, (g t x).clk.counter = t.clk.counter) (l : List α)
    (s : State) : (l.foldl g s).clk.counter = s.clk.counter := foldl_same (φ := fun t : State => t.clk.counter) hg l s

section
variable (s : State)

@[simp] theorem State.raise_clk (src a b : Nat) : (s.raise src a b).clk = s.clk := (State.raise_keeps ..).clk rfl
@[simp] theorem State.enter_clk (src i a : Nat) : (s.enter src i a).clk = s.clk := (State.enter_keeps ..).clk rfl
@[simp] theorem State.leaveHoldover_clk : s.leaveHoldover.clk = s.clk := (State.leaveHoldover_keeps ..).clk rfl
@[simp] theorem State.drawn_clk : s.drawn.clk = s.clk := rfl
@[simp] theorem State.send_clk (f : OutFrame) : (s.send f).clk = s.clk := rfl
@[simp] theorem State.bump_clk (i sub n : Nat) : (s.bump i sub n).clk = s.clk := rfl
@[simp] theorem joinFresh_clk : (joinFresh s).clk = s.clk := rfl
@[simp] theorem masterPort_clk (m : Master) (a : Announce) (o : Option Announce) : (masterPort s m a o).clk = s.clk := rfl
@[simp] theorem gateChange_clk (b : Bool) : (gateChange s b).clk = s.clk := (gateChange_keeps ..).clk rfl
@[simp] theorem dropActOut_clk : (dropActOut s).clk = s.clk := (dropActOut_keeps ..).clk rfl
@[simp] theorem sendHeartbeat_clk : (sendHeartbeat s).clk = s.clk := (sendHeartbeat_keeps ..).clk rfl
@[simp] theorem setMod_clk (m : ModState) : (setMod s m).clk = s.clk := (setMod_keeps ..).clk rfl

/-! Time -/

@[simp] theorem State.enterHoldover_counter : s.enterHoldover.clk.counter = s.clk.counter := by
  unfold State.enterHoldover
  simp only [State.enter_clk]
  split <;> rfl

@[simp] theorem rebaseFallback_counter : (rebaseFallback s).clk.counter = s.clk.counter := by
  unfold rebaseFallback
  split
  · split
    · simp [decideRebase, Clock.counter]
    · rfl
  · rfl

@[simp] theorem rebaseApply_counter : (rebaseApply s).clk.counter = s.clk.counter := by
  unfold rebaseApply
  split
  · rfl
  · split
    · rfl
    · exact counter_foldl (fun t n => (rebasePulse_keeps t n).counter rfl) _ _

theorem loseMaster_counter (still : Bool) : (loseMaster s still).clk.counter = s.clk.counter := by
  unfold loseMaster
  split
  · rfl
  · dsimp only
    split <;> simp

theorem leavePort_counter (m : Master) (o : Option Announce) : (leavePort s m o).clk.counter = s.clk.counter := by
  unfold leavePort
  split
  · simp
  · exact loseMaster_counter s false

theorem roleApply_counter (v : Nat) : (roleApply s v).clk.counter = s.clk.counter := by
  unfold roleApply
  dsimp only
  split
  · split <;> simp [Clock.counter]
  · split
    · split
      · rfl
      · rw [leavePort_counter]; rfl
    · rfl

theorem timeApply_counter (index sub v : Nat) : (timeApply s index sub v).clk.counter = s.clk.counter := by
  unfold timeApply
  split
  · split
    · exact roleApply_counter s v
    · exact counter_foldl (g := fun t (e : Nat × Nat) => t.put (timeDefault e.1) 0x2000 e.1 e.2) (fun _ _ => rfl) _ _
    · dsimp only
      split
      · simp
      · rw [(permitApply_keeps _).counter rfl]; rfl
    · rw [(preferApply_keeps _).counter rfl]; rfl
    · rfl
  · rfl

/-! Twin operation -/

@[simp] theorem setRole_counter (r : Role) : (setRole s r).clk.counter = s.clk.counter := by
  unfold setRole
  dsimp only
  split <;> split <;> simp

@[simp] theorem enterStandby_counter : (enterStandby s).clk.counter = s.clk.counter := by
  unfold enterStandby
  split <;> simp

@[simp] theorem joinRestart_counter : (joinRestart s).clk.counter = s.clk.counter := by
  unfold joinRestart
  split
  · simp
  · split <;> simp

@[simp] theorem collide_counter : (collide s).clk.counter = s.clk.counter := by
  unfold collide
  dsimp only
  split
  · simp
  · split
    · simp
    · split <;> simp

@[simp] theorem actInSeen_counter (b : Bool) : (actInSeen s b).clk.counter = s.clk.counter := by
  unfold actInSeen
  split <;> simp

@[simp] theorem chooseRole_counter (b : Bool) : (chooseRole s b).clk.counter = s.clk.counter := by
  unfold chooseRole
  dsimp only
  split
  · split <;> simp
  · split
    · split <;> simp
    · simp

@[simp] theorem handOver_counter (r : Role) (sync : Nat) : (handOver s r sync).clk.counter = s.clk.counter := by
  simp [handOver]

@[simp] theorem handoverApply_counter (v : Nat) : (handoverApply s v).clk.counter = s.clk.counter := by
  unfold handoverApply
  split <;> simp

@[simp] theorem isolateApply_counter (v : Nat) : (isolateApply s v).clk.counter = s.clk.counter := by
  unfold isolateApply
  dsimp only
  split
  · split <;> simp
  · split <;> simp

@[simp] theorem faultHandover_counter : (faultHandover s).clk.counter = s.clk.counter := by
  unfold faultHandover
  split <;> simp

@[simp] theorem activeFaultHandover_counter : (activeFaultHandover s).clk.counter = s.clk.counter := by
  unfold activeFaultHandover
  split
  · split <;> simp
  · rfl

@[simp] theorem soloAgain_counter : (soloAgain s).clk.counter = s.clk.counter := by
  unfold soloAgain
  split <;> simp

theorem twinTick_counter : (twinTick s).clk.counter = s.clk.counter := by
  unfold twinTick
  dsimp only
  rw [(faultRejoin_keeps _).counter rfl, activeFaultHandover_counter, faultHandover_counter, soloAgain_counter,
    (actDeadman_keeps _).counter rfl, (judgeSplit_keeps _).counter rfl]

theorem roleTick_counter : (roleTick s).clk.counter = s.clk.counter := by
  unfold roleTick
  split <;> simp

theorem twinBoundary_counter (service : Bool) : (twinBoundary s service).clk.counter = s.clk.counter := by
  unfold twinBoundary
  rw [(heartbeatSend_keeps ..).counter rfl, roleTick_counter, twinTick_counter, (bypassTick_keeps ..).counter rfl]

theorem cutOverdue_counter : (cutOverdue s).clk.counter = s.clk.counter := by
  unfold cutOverdue
  split <;> simp

theorem joinTick_counter : (joinTick s).clk.counter = s.clk.counter := by
  unfold joinTick
  rw [(joinCutSend_keeps _).counter rfl, (joinCapture_keeps _).counter rfl, (verifyEnd_keeps _).counter rfl, cutOverdue_counter]

theorem busTick_counter : (busTick s).clk.counter = s.clk.counter := by
  have hturn : (corrTurn (rewriteBanks (joinTick s) (perTick ((joinTick s).dictAt 2))) ((joinTick s).dictAt 2)
      ((joinTick s).clk.tick - 2)).clk.counter = s.clk.counter := by
    rw [(corrTurn_keeps ..).counter rfl, (rewriteBanks_keeps ..).counter rfl, joinTick_counter]
  unfold busTick
  dsimp only
  rw [(placeSlotItems_keeps _).counter rfl]
  split
  · rw [(outputBus_keeps _).counter rfl, hturn]
  · exact hturn

/-! Render enable and parking -/

theorem renderApply_counter (v : Nat) (b : Bool) : (renderApply s v b).clk.counter = s.clk.counter := by
  unfold renderApply
  split
  · unfold renderStart
    split
    · rfl
    · rw [(drivesStart_keeps _).counter rfl, setMod_clk, chooseRole_counter]; rfl
  · exact (renderStop_keeps s).counter rfl

theorem mem_of_mem_oldestOfMaster {e : Waiting × Nat} :
    ∀ {l : List (Waiting × Nat)} {seen : List Nat}, e ∈ oldestOfMaster l seen → e ∈ l
  | [], _, h => h
  | _ :: _, _, h => by
    unfold oldestOfMaster at h
    split at h
    · exact List.mem_cons_of_mem _ (mem_of_mem_oldestOfMaster h)
    · rcases List.mem_cons.mp h with h | h
      · exact h ▸ List.mem_cons_self
      · exact List.mem_cons_of_mem _ (mem_of_mem_oldestOfMaster h)

/-- A request that arbitrates at a target is addressed to it. -/
theorem targetOf_of_mem_contenders {t : Nat} {e : Waiting × Nat} (h : e ∈ contenders s t) : targetOf e.1.req.addr = some t := by
  have hhere : ∀ {l : List (Waiting × Nat)} {p q : Waiting × Nat → Bool}, (∀ x, p x = true → targetOf x.1.req.addr = some t) →
      e ∈ (oldestOfMaster (l.filter p) []).filter q → targetOf e.1.req.addr = some t := fun hp he =>
    hp e (List.mem_filter.mp (mem_of_mem_oldestOfMaster (List.mem_filter.mp he).1)).2
  unfold contenders at h
  dsimp only at h
  split at h
  · cases h
  · split at h
    · exact hhere (fun x hx => of_decide_eq_true hx) (List.mem_filter.mp h).1
    · exact hhere (fun x hx => of_decide_eq_true hx) h

theorem mem_of_winner {t : Nat} {l : List (Waiting × Nat)} {w : Waiting × Nat} (h : winner s t l = some w) : w ∈ l := by
  cases l with
  | nil => cases h
  | cons e l =>
    have hfold : ∀ (r : List (Waiting × Nat)) (a : Waiting × Nat),
        r.foldl (fun w x => if beats s t x w then x else w) a ∈ a :: r := by
      intro r
      induction r with
      | nil => intro a; exact List.mem_cons_self
      | cons x r ih =>
        intro a
        rcases List.mem_cons.mp (ih (if beats s t x a then x else a)) with h | h
        · rw [List.foldl_cons, h]
          split <;> simp
        · exact List.mem_cons_of_mem _ (List.mem_cons_of_mem _ h)
    cases h
    exact hfold l e

theorem mem_contenders_of_choice {t : Nat} {w : Waiting × Nat} {aged : Bool} (h : choice s t = some (w, aged)) :
    w ∈ contenders s t := by
  unfold choice at h
  dsimp only at h
  split at h
  · cases h
    rename_i hw
    split at hw
    · exact (List.mem_filter.mp (mem_of_winner s hw)).1
    · cases hw
  · obtain ⟨v, hv, he⟩ := Option.map_eq_some_iff.mp h
    cases he
    exact mem_of_winner s hv

theorem inDram_of_targetOf {a t : Nat} (h : targetOf a = some t) (h8 : 8 ≤ t) (h12 : t < 12) : inDram a = true := by
  by_contra hd
  unfold targetOf bitsOf at h
  split_ifs at h <;> simp only [Option.some.injEq] at h <;> omega

/-- A burst to the DRAM reaches no register. -/
theorem serve_counter_of_inDram {q : BeamReq} (h : inDram q.addr = true) (t : Nat) :
    (serve s q t).clk.counter = s.clk.counter := by
  unfold serve
  dsimp only
  split
  · exact (refuse_keeps ..).counter rfl
  · split
    · exact (refuse_keeps ..).counter rfl
    · rw [← (lockAfter_keeps s q t).counter rfl]
      unfold serveBurst
      split
      · unfold writeBurst
        split
        · exact (ledgerWrite_keeps ..).counter rfl
        · split
          · exact (beamError_keeps ..).counter rfl
          · rw [(burstEnd_keeps _).counter rfl, (dramWrite_keeps ..).counter rfl, (wakeDram_keeps _).counter rfl]
      · dsimp only
        split <;> rw [State.send_clk, (readBurst_keeps ..).counter rfl]

theorem grantAt_counter_of_dram {t : Nat} (h8 : 8 ≤ t) (h12 : t < 12) : (grantAt s t).clk.counter = s.clk.counter := by
  unfold grantAt
  split
  · rfl
  · next w aged hc =>
    have haddr := inDram_of_targetOf (targetOf_of_mem_contenders s (mem_contenders_of_choice s hc)) h8 h12
    rw [serve_counter_of_inDram _ haddr]; rfl

theorem drainDram_counter : (drainDram s).clk.counter = s.clk.counter := by
  refine counter_foldl (fun t _ => ?_) _ s
  simp only [List.foldl_cons, List.foldl_nil]
  rw [grantAt_counter_of_dram _ (by decide) (by decide), grantAt_counter_of_dram _ (by decide) (by decide),
    grantAt_counter_of_dram _ (by decide) (by decide), grantAt_counter_of_dram _ (by decide) (by decide)]
  rfl

theorem parkModule_counter : (parkModule s).clk.counter = s.clk.counter := by
  unfold parkModule
  dsimp only
  rw [(setLife_keeps ..).counter rfl, setMod_clk, State.put_clk, (setDram_keeps ..).counter rfl]
  dsimp only
  rw [counter_foldl (fun t r => (clearRod_keeps t r).counter rfl), (ringApply_keeps ..).counter rfl, drainDram_counter]

theorem parkFree_counter (v : Nat) : (parkFree s v).clk.counter = s.clk.counter := by
  unfold parkFree parkApply
  rw [State.drawn_clk]
  split
  · exact parkModule_counter s
  · split
    · exact (unparkModule_keeps ..).counter rfl
    · rfl

/-! Writes that are due -/

theorem portRangeApply_counter (r : Row) (index sub v : Nat) (b : List Byte) :
    (portRangeApply s r index sub v b).clk.counter = s.clk.counter := by
  unfold portRangeApply
  split
  case _ => exact (managementApply_keeps ..).counter rfl
  case _ => exact (managementApply_keeps ..).counter rfl
  case _ => exact (askClear_keeps ..).counter rfl
  case _ => exact (gpioApply_keeps ..).counter rfl
  case _ => exact (mediaRateApply_keeps ..).counter rfl
  case _ => exact renderApply_counter ..
  case _ => exact (askClear_keeps ..).counter rfl
  case _ => exact timeApply_counter ..
  case _ => exact timeApply_counter ..
  case _ => exact (pulseApply_keeps ..).counter rfl
  case _ => exact (ringApply_keeps ..).counter rfl
  case _ => exact (portApply_keeps ..).counter rfl
  case _ => exact (aesModeApply_keeps ..).counter rfl
  case _ => exact (pdmEnableApply_keeps ..).counter rfl
  case _ =>
    split
    · exact (askClear_keeps ..).counter rfl
    · exact (storeEntry_keeps ..).counter rfl

theorem systemRangeApply_counter (r : Row) (index sub v a : Nat) (b : List Byte) :
    (systemRangeApply s r index sub v a b).clk.counter = s.clk.counter := by
  unfold systemRangeApply
  split
  · exact (driveEnableApply_keeps ..).counter rfl
  split
  · exact (clearLatchApply_keeps ..).counter rfl
  split
  · exact (askClear_keeps ..).counter rfl
  split
  · exact isolateApply_counter s v
  split
  · exact handoverApply_counter s v
  split
  · exact (askClear_keeps ..).counter rfl
  split
  · exact (rodRangeApply_keeps ..).counter rfl
  split
  · split
    · exact (selfTestApply_keeps ..).counter rfl
    · rfl
  split
  · exact parkFree_counter s v
  split
  · split
    · exact (targetedApply_keeps ..).counter rfl
    · rfl
  · exact (storeEntry_keeps ..).counter rfl

theorem writeApply_counter (r : Row) (index sub a : Nat) (b : List Byte) :
    (writeApply s r index sub a b).clk.counter = s.clk.counter := by
  unfold writeApply
  split
  · rfl
  dsimp only
  split
  · exact portRangeApply_counter ..
  split
  · exact (renderRangeApply_keeps ..).counter rfl
  split
  · exact systemRangeApply_counter ..
  split
  · exact (lifeRangeApply_keeps ..).counter rfl
  split
  · exact (stagingApply_keeps ..).counter rfl
  · exact (eventRangeApply_keeps ..).counter rfl

theorem applyDue_counter : (applyDue s).clk.counter = s.clk.counter := by
  have hone : ∀ (t : State) (p : Pending), (applyPending t p).clk.counter = t.clk.counter := by
    intro t p
    unfold applyPending
    split
    · rfl
    · split
      · rfl
      · split
        · exact writeApply_counter ..
        · simp
  exact counter_foldl hone _ _

end
end Sys2Proof.Machine

namespace Sys2Proof.Machine

/-! The clock at a boundary (R38, R75) -/

/-- At the first nanosecond of tick `x`, the four snapshots hold its number and the local time. -/
structure Clock.AtBoundary (c : Clock) (x : Nat) : Prop where
  tick   : c.tick = x
  ofs    : c.ofs = 0
  tickLo : c.snapTickLo = BitVec.ofNat 32 x
  tickHi : c.snapTickHi = BitVec.ofNat 32 (x / 2 ^ 32)
  ns     : c.snapNs = BitVec.ofInt 32 c.local
  carry  : c.snapCarry = BitVec.ofInt 32 (c.local / 2 ^ 32)

/-- A rebase moves neither the counter nor its snapshots. -/
theorem Clock.AtBoundary.of_counter {c d : Clock} {x : Nat} (h : c.counter = d.counter) (hd : d.AtBoundary x) : c.AtBoundary x := by
  have hlocal : c.local = d.local :=
    Clock.local_congr (congrArg Clock.ns h :) (congrArg Clock.carry h :) (congrArg Clock.wrapPend h :)
  exact {
    tick := (congrArg Clock.tick h :).trans hd.tick
    ofs := (congrArg Clock.ofs h :).trans hd.ofs
    tickLo := (congrArg Clock.snapTickLo h :).trans hd.tickLo
    tickHi := (congrArg Clock.snapTickHi h :).trans hd.tickHi
    ns := by rw [hlocal]; exact (congrArg Clock.snapNs h :).trans hd.ns
    carry := by rw [hlocal]; exact (congrArg Clock.snapCarry h :).trans hd.carry }

/-! The boundary (R34): what it does before it looks at the supply, and after -/

/-- From the latched snapshots to the blocks published. -/
def boundaryOpens (s : State) : State :=
  publish (takeTodo (eventsBoundary (rebaseApply (rebaseFallback (showCaptures s)))))

/-- The writes that are due and the work of the tick that begins. -/
def boundaryWorks (s : State) (o : BoundaryObs) : State :=
  let s3 := managementTick (applyDue s)
  let s4 := twinBoundary (driveBoundary { s3 with time := s3.time.slew }) o.service
  statusOf (dropRunTick (gpioTick (inputTick (busTick (placementTick (serviceTick (announceTick s4))))) o.gpio))

theorem tickBoundary_eq (s : State) (o : BoundaryObs) : tickBoundary s o =
    boundaryWorks (observe (boundaryOpens (advanceTick (endTick { s with out := [] }))) o) o := rfl

theorem boundaryOpens_keeps (s : State) : Keeps [.nv, .clk, .time, .stat, .pend, .todo, .pipe, .rails, .fol, .twin, .slots,
    .ledger, .dram, .mem, .events, .out] s (boundaryOpens s) := by
  unfold boundaryOpens
  refine Keeps.step (publish_keeps ..) rfl ?_
  refine Keeps.step (takeTodo_keeps ..) rfl ?_
  refine Keeps.step (eventsBoundary_keeps ..) rfl ?_
  refine Keeps.step (rebaseApply_keeps ..) rfl ?_
  refine Keeps.step (rebaseFallback_keeps ..) rfl ?_
  exact (showCaptures_keeps s).mono rfl

theorem boundaryWorks_keeps (s : State) (o : BoundaryObs) :
    Keeps (Part.allBut [.power, .hist, .domHist, .seen, .pending]) s (boundaryWorks s o) := by
  unfold boundaryWorks
  dsimp only
  refine Keeps.step (statusOf_keeps ..) rfl ?_
  refine Keeps.step (dropRunTick_keeps ..) rfl ?_
  refine Keeps.step (gpioTick_keeps ..) rfl ?_
  refine Keeps.step (inputTick_keeps ..) rfl ?_
  refine Keeps.step (busTick_keeps ..) rfl ?_
  refine Keeps.step (placementTick_keeps ..) rfl ?_
  refine Keeps.step (serviceTick_keeps ..) rfl ?_
  refine Keeps.step (announceTick_keeps ..) rfl ?_
  refine Keeps.step (twinBoundary_keeps ..) rfl ?_
  refine Keeps.step (driveBoundary_keeps ..) rfl ?_
  refine keeps_time rfl ?_
  refine Keeps.step (managementTick_keeps ..) rfl ?_
  exact (applyDue_keeps s).mono rfl

theorem boundaryOpens_counter (s : State) : (boundaryOpens s).clk.counter = s.clk.counter := by
  unfold boundaryOpens
  rw [(publish_keeps _).counter rfl, (takeTodo_keeps _).counter rfl, (eventsBoundary_keeps _).counter rfl,
    rebaseApply_counter, rebaseFallback_counter, (showCaptures_keeps _).counter rfl]

theorem observe_counter (s : State) (o : BoundaryObs) : (observe s o).clk.counter = s.clk.counter := by
  unfold observe
  dsimp only
  rw [actInSeen_counter, counter_foldl (fun t e => (fecSeen_keeps t ..).counter rfl)]

theorem boundaryWorks_counter (s : State) (o : BoundaryObs) : (boundaryWorks s o).clk.counter = s.clk.counter := by
  unfold boundaryWorks
  dsimp only
  rw [(statusOf_keeps _).counter rfl, (dropRunTick_keeps _).counter rfl, (gpioTick_keeps ..).counter rfl,
    (inputTick_keeps _).counter rfl, busTick_counter, (placementTick_keeps _).counter rfl, (serviceTick_keeps _).counter rfl,
    (announceTick_keeps _).counter rfl, twinBoundary_counter, (driveBoundary_keeps _).counter rfl]
  dsimp only
  rw [(managementTick_keeps _).counter rfl, applyDue_counter]

/-- What the boundary does to the counter is `advanceTick`'s alone. -/
theorem tickBoundary_counter (s : State) (o : BoundaryObs) :
    (tickBoundary s o).clk.counter = (advanceTick (endTick { s with out := [] })).clk.counter := by
  rw [tickBoundary_eq, boundaryWorks_counter, observe_counter, boundaryOpens_counter]

/-- The end of a tick changes neither the clock nor the values in force. -/
theorem endTick_parts (s : State) : (endTick s).clk = s.clk ∧ (endTick s).dict = s.dict ∧ (endTick s).hist = s.hist ∧
    (endTick s).dom = s.dom ∧ (endTick s).domHist = s.domHist :=
  have h := endTick_keeps s
  ⟨h.part .clk rfl, h.part .dict rfl, h.part .hist rfl, h.part .dom rfl, h.part .domHist rfl⟩

/-- State `u` at the first nanosecond of tick `x`: all four snapshots latched (R38, R75), the blocks one stage on (R34). -/
def State.latched (u : State) (x : Nat) : State :=
  { u with
    clk := { u.clk with
      tick := x, ofs := 0, snapNs := BitVec.ofInt 32 u.clk.local, snapCarry := BitVec.ofInt 32 (fdiv u.clk.local (2 ^ 32)),
      snapTickLo := BitVec.ofNat 32 x, snapTickHi := BitVec.ofNat 32 (x / 2 ^ 32) }
    hist := (u.dict :: u.hist).take 6
    domHist := (u.dom :: u.domHist).take 6
    twin := { u.twin with release := false, behind := false } }

theorem advanceTick_eq (s : State) :
    advanceTick s = (s.advance (tickLen s.clk.tick - s.clk.ofs)).latched (s.clk.tick + 1) := rfl

theorem State.latched_atBoundary (u : State) (x : Nat) : (u.latched x).clk.AtBoundary x := by
  have hlocal : (u.latched x).clk.local = u.clk.local := Clock.local_congr rfl rfl rfl
  refine ⟨rfl, rfl, rfl, rfl, ?_, ?_⟩ <;> rw [hlocal]
  · rfl
  · simp [State.latched, fdiv]

theorem advanceTick_atBoundary (s : State) : (advanceTick s).clk.AtBoundary (s.clk.tick + 1) := by
  rw [advanceTick_eq]
  exact State.latched_atBoundary ..

theorem advanceTick_history (s : State) :
    (advanceTick s).hist = (s.dict :: s.hist).take 6 ∧ (advanceTick s).domHist = (s.dom :: s.domHist).take 6 := by
  have h := State.advance_keeps s (tickLen s.clk.tick - s.clk.ofs)
  have hdict := h.part .dict rfl
  have hhist := h.part .hist rfl
  have hdom := h.part .dom rfl
  have hdomHist := h.part .domHist rfl
  simp only [Part.Same] at hdict hhist hdom hdomHist
  simp only [advanceTick_eq, State.latched, hdict, hhist, hdom, hdomHist, and_self]

/-- The supply, temperature and input power are those observed (R477). -/
theorem observe_power (s : State) (o : BoundaryObs) : (observe s o).power =
    { s.power with vinMv := o.vinMv, temp := o.temp, powerMw := o.powerMw, lowVin := decide (o.vinMv < 4500) } := by
  unfold observe
  dsimp only
  refine ((actInSeen_keeps ..).part .power rfl).trans ?_
  exact (keeps_foldl (f := [.stat]) (fun t e h => Keeps.step (fecSeen_keeps t ..) rfl h) (Keeps.refl _ _)).part .power rfl

theorem tickBoundary_history (s : State) (o : BoundaryObs) :
    (tickBoundary s o).hist = (s.dict :: s.hist).take 6 ∧ (tickBoundary s o).domHist = (s.dom :: s.domHist).take 6 := by
  have hafter : Keeps (Part.allBut [.hist, .domHist]) (advanceTick (endTick { s with out := [] })) (tickBoundary s o) := by
    rw [tickBoundary_eq]
    refine Keeps.step (boundaryWorks_keeps ..) rfl ?_
    refine Keeps.step (observe_keeps ..) rfl ?_
    exact (boundaryOpens_keeps _).mono rfl
  obtain ⟨hhist, hdomHist⟩ := advanceTick_history (endTick { s with out := [] })
  obtain ⟨-, edict, ehist, edom, edomHist⟩ := endTick_parts { s with out := [] }
  rw [edict, ehist] at hhist
  rw [edom, edomHist] at hdomHist
  exact ⟨(hafter.part .hist rfl).trans hhist, (hafter.part .domHist rfl).trans hdomHist⟩

theorem tickBoundary_power (s : State) (o : BoundaryObs) : let t := tickBoundary s o
    t.power.vinMv = o.vinMv ∧ t.power.temp = o.temp ∧ t.power.powerMw = o.powerMw ∧ (t.power.lowVin = true ↔ o.vinMv < 4500) := by
  have h : (tickBoundary s o).power = _ := ((boundaryWorks_keeps _ o).part .power rfl).trans (observe_power _ o)
  simp [h]

/-- Whatever else a boundary does, it ends with the clock that `advanceTick` set, but for a rebase. -/
theorem tickBoundary_atBoundary (s : State) (o : BoundaryObs) : (tickBoundary s o).clk.AtBoundary (s.clk.tick + 1) := by
  have h := advanceTick_atBoundary (endTick { s with out := [] })
  rw [(endTick_parts { s with out := [] }).1] at h
  exact h.of_counter (tickBoundary_counter s o)

/-- Settles O38: the clock after `advanceTick` is only rebased, and the parts that the statement names have one writer each. -/
theorem tickBoundaryAdvances : Obligations.TickBoundaryAdvances := by
  refine fun s obs => ⟨fun ht hl hv => ?_, fun ht hl hv => ?_, execTickBoundary_idle s obs⟩
  · obtain ⟨htick, hofs, hlo, hhi, hns, hcarry⟩ := tickBoundary_atBoundary s obs
    obtain ⟨hhist, hdom⟩ := tickBoundary_history s obs
    refine ⟨tickBoundary s obs, ?_, htick, hofs, hlo, hhi, hns, hcarry, hhist, hdom, tickBoundary_power s obs⟩
    rw [execTickBoundary_live s obs ht hl, supplySeen, if_neg (Nat.not_lt.mpr hv)]
  · refine ⟨resetWith s { s.power with vinMv := obs.vinMv, pgood := false, brownout := true }, ?_, rfl, rfl, rfl, rfl⟩
    rw [execTickBoundary_live s obs ht hl, supplySeen, if_pos hv]

end Sys2Proof.Machine

namespace Sys2Proof.Machine

/-! Time runs on: what `State.elapse` leaves as it was -/

section
variable (s : State) (at_ : Nat)

@[simp] theorem State.elapse_pipe : (s.elapse at_).pipe = s.pipe := (State.elapse_keeps ..).part .pipe rfl
@[simp] theorem State.elapse_stat : (s.elapse at_).stat = s.stat := (State.elapse_keeps ..).part .stat rfl
@[simp] theorem State.elapse_sup : (s.elapse at_).sup = s.sup := (State.elapse_keeps ..).part .sup rfl
@[simp] theorem State.elapse_dict : (s.elapse at_).dict = s.dict := (State.elapse_keeps ..).part .dict rfl
@[simp] theorem State.elapse_hist : (s.elapse at_).hist = s.hist := (State.elapse_keeps ..).part .hist rfl
@[simp] theorem State.elapse_slots : (s.elapse at_).slots = s.slots := (State.elapse_keeps ..).part .slots rfl
@[simp] theorem State.elapse_byp : (s.elapse at_).byp = s.byp := (State.elapse_keeps ..).part .byp rfl
@[simp] theorem State.elapse_twin : (s.elapse at_).twin = s.twin := (State.elapse_keeps ..).part .twin rfl
@[simp] theorem State.elapse_mem : (s.elapse at_).mem = s.mem := (State.elapse_keeps ..).part .mem rfl
@[simp] theorem State.elapse_rx : (s.elapse at_).rx = s.rx := (State.elapse_keeps ..).part .rx rfl
@[simp] theorem State.elapse_out : (s.elapse at_).out = s.out := (State.elapse_keeps ..).part .out rfl

theorem State.wrap_tick : s.wrap.clk.tick = s.clk.tick := by
  unfold State.wrap
  split
  · dsimp only
    split
    · exact (congrArg Clock.tick (State.enterHoldover_counter _) :).trans (congrArg Clock.tick (State.raise_clk ..) :)
    · rw [State.raise_clk]
  · dsimp only
    rw [State.raise_clk]

theorem Clock.tick_with (c : Clock) (ns : Word) (ofs : Nat) : ({ c with ns := ns, ofs := ofs } : Clock).tick = c.tick := rfl

theorem State.wrap_ofs_tick (k : Nat) : ({ s with clk := { s.clk with ofs := k } } : State).wrap.clk.tick = s.clk.tick :=
  State.wrap_tick _

theorem State.advance_tick (n : Nat) : (s.advance n).clk.tick = s.clk.tick := by
  unfold State.advance
  split
  · exact Clock.tick_with ..
  · exact (Clock.tick_with ..).trans (State.wrap_ofs_tick ..)

@[simp] theorem State.elapse_tick : (s.elapse at_).clk.tick = s.clk.tick := by
  unfold State.elapse
  split
  · exact State.advance_tick ..
  · rfl

@[simp] theorem State.elapse_ticking : (s.elapse at_).ticking = s.ticking := by
  simp only [State.ticking, State.elapse_sup]

@[simp] theorem State.elapse_stget (d index sub : Nat) : (s.elapse at_).stget d index sub = s.stget d index sub := by
  simp only [State.stget, State.elapse_stat]

@[simp] theorem State.elapse_dictAt (k : Nat) : (s.elapse at_).dictAt k = s.dictAt k := by
  cases k <;> simp only [State.dictAt, State.elapse_dict, State.elapse_hist]

@[simp] theorem State.elapse_obj (o : Nat) : (s.elapse at_).obj o = s.obj o := by simp only [State.obj, State.elapse_pipe]

@[simp] theorem slideOf_elapse (i : Nat) : slideOf (s.elapse at_) i = slideOf s i := by simp only [slideOf, State.elapse_pipe]

@[simp] theorem activeSlides_elapse : activeSlides (s.elapse at_) = activeSlides s := by
  simp only [activeSlides, slideOf_elapse]

end

/-! The miss counters 1100:05 to 1100:09 among the status entries -/

/-- The status entries of the indices up to 1100, where the miss counters stand. -/
def State.misses (s : State) : SMap Nat := s.stat.filter (fun e => decide (e.1 < key 0x1101 0))

theorem filter_minsert_of_not {α : Type} (p : Nat → Bool) (v : α) {n : Nat} (hp : p n = false) :
    ∀ m : SMap α, (minsert m n v).filter (fun e => p e.1) = m.filter (fun e => p e.1)
  | [] => by simp [minsert, hp]
  | (k, w) :: m => by
    have ih := filter_minsert_of_not p v hp m
    unfold minsert
    split
    · simp [hp]
    · split
      · next h => simp [hp, ← h]
      · simp [List.filter_cons, ih]

theorem filter_mset_of_not {α : Type} [DecidableEq α] (p : Nat → Bool) (d v : α) (m : SMap α) {n : Nat} (hp : p n = false) :
    (mset d m n v).filter (fun e => p e.1) = m.filter (fun e => p e.1) := by
  unfold mset
  split
  · rw [List.filter_filter]
    refine List.filter_congr fun e _ => ?_
    by_cases he : e.1 = n <;> simp [he, hp]
  · exact filter_minsert_of_not p v hp m

theorem mget_filter {α : Type} (d : α) (p : Nat → Bool) {k : Nat} (hp : p k = true) :
    ∀ m : SMap α, mget d (m.filter (fun e => p e.1)) k = mget d m k
  | [] => rfl
  | (a, w) :: m => by
    have ih := mget_filter d p hp m
    by_cases ha : a = k
    · subst ha
      simp [hp, mget]
    · cases hpa : p a <;> simp [hpa, mget, ha, ih]

/-- The miss counters are read from `State.misses` alone. -/
theorem State.stget_eq_of_misses {s t : State} (h : t.misses = s.misses) {sub : Nat} (hsub : sub < 256) :
    t.stget 0 0x1100 sub = s.stget 0 0x1100 sub := by
  have hlow : decide (key 0x1100 sub < key 0x1101 0) = true := decide_eq_true (by simp only [key]; omega)
  have hread := mget_filter 0 (fun k => decide (k < key 0x1101 0)) hlow
  unfold State.stget
  rw [← hread t.stat, ← hread s.stat]
  exact congrArg (fun m => mget 0 m _) h

theorem Keeps.misses {f : List Part} {s t : State} (h : Keeps f s t) (hf : Part.isIn .stat f = false) :
    t.misses = s.misses := congrArg (List.filter _) (h.part .stat hf)

section
variable (s : State)

@[simp] theorem State.elapse_misses (at_ : Nat) : (s.elapse at_).misses = s.misses := (State.elapse_keeps ..).misses rfl
@[simp] theorem State.raise_misses (src a b : Nat) : (s.raise src a b).misses = s.misses := (State.raise_keeps ..).misses rfl
@[simp] theorem State.mark_misses (b c : Nat) : (s.mark b c).misses = s.misses := rfl
@[simp] theorem State.send_misses (f : OutFrame) : (s.send f).misses = s.misses := rfl

@[simp] theorem State.stset_misses (d v sub : Nat) {index : Nat} (h : 0x1101 ≤ index) :
    (s.stset d index sub v).misses = s.misses :=
  filter_mset_of_not (fun k => decide (k < key 0x1101 0)) d v s.stat (decide_eq_false (by simp only [key]; omega))

@[simp] theorem State.bump_misses (sub n : Nat) {index : Nat} (h : 0x1101 ≤ index) :
    (s.bump index sub n).misses = s.misses := State.stset_misses s 0 _ sub h

theorem beamError_misses (m addr cause : Nat) : (beamError s m addr cause).misses = s.misses := by
  simp [beamError]
  rfl

theorem purge_misses (stage block : Nat) : (purge s stage block).misses = s.misses := by
  unfold purge
  dsimp only
  split
  · rfl
  · rw [State.bump_misses _ _ _ (by decide)]; rfl

theorem engineWrite_misses (q : BeamReq) {effect : State → State} (he : ∀ t, (effect t).misses = t.misses) :
    (engineWrite s q effect).misses = s.misses := by
  unfold engineWrite
  split
  · exact beamError_misses ..
  · split
    · rfl
    · rw [he]; rfl

@[simp] theorem deadlinePurge_misses (stage lag : Nat) : (deadlinePurge s stage lag).misses = s.misses := by
  unfold deadlinePurge
  split
  · exact engineWrite_misses s _ fun t => purge_misses t _ _
  · rfl

@[simp] theorem placementPurge_misses : (placementPurge s).misses = s.misses := by
  unfold placementPurge
  split
  · exact deadlinePurge_misses ..
  · rfl

/-! Ledger -/

theorem ledgerNote_misses (w : Nat) : (ledgerNote s w).misses = s.misses := by
  unfold ledgerNote
  split
  · rfl
  · split
    · simp
    · dsimp only
      split
      · simp
      · simp
        rfl

theorem ledgerOpen_misses (w : Nat) (full : Bool) : (ledgerOpen s w full).misses = s.misses := by
  unfold ledgerOpen
  split
  · rfl
  · dsimp only
    split
    · rfl
    · split
      · rfl
      · simp; rfl

theorem ledgerWrite_misses (a : Nat) (data : List Byte) (strobe : List Bool) :
    (ledgerWrite s a data strobe).misses = s.misses :=
  foldl_same (φ := State.misses)
    (fun t w => ((abandonRepair_keeps ..).misses rfl).trans (ledgerOpen_misses t w _)) _ s

@[simp] theorem groupWrite_misses (buffer n t g : Nat) (lanes : List (Nat × List Int)) :
    (groupWrite s buffer n t g lanes).misses = s.misses := ledgerWrite_misses ..

end

/-! A stage that judges its deadline -/

/-- What a stage's judgement does to its counter of misses, 1100:`sub`. -/
def CountsMiss (s t : State) (sub : Nat) (missed : Prop) : Prop :=
  (missed → t.stget 0 0x1100 sub = min (s.stget 0 0x1100 sub + 1) (2 ^ 32 - 1)) ∧
  (¬ missed → t.stget 0 0x1100 sub = s.stget 0 0x1100 sub)

theorem stageMiss_stget (s : State) {stage scope : Nat} (hstage : stage ≤ 5) (hscope : scope ≠ 0) :
    (stageMiss s stage scope).stget 0 0x1100 (4 + stage) = min (s.stget 0 0x1100 (4 + stage) + 1) (2 ^ 32 - 1) := by
  have hstat := fun t : State => (State.raise_keeps t (stage - 1) scope 0).part .stat rfl
  simp only [Part.Same] at hstat
  have hsat : ∀ n, satAdd (2 ^ 32 - 1) n 1 = min (n + 1) (2 ^ 32 - 1) := fun n => by
    unfold satAdd
    split <;> omega
  have hb : key 0x1100 (4 + stage) ≠ key 0x1100 0x0B := by simp only [key]; omega
  have ha : key 0x1100 (4 + stage) ≠ key 0x1100 0x0A := by simp only [key]; omega
  simp only [stageMiss, if_neg hscope, State.stget, hstat, State.stset, mget_mset_ne _ _ _ _ _ hb, mget_mset_ne _ _ _ _ _ ha,
    State.bump, mmod, mget_mset_self, hsat]
  rfl

/-- `stageMiss` counts a miss where its scope is not empty. -/
theorem stageMiss_counts {s t : State} {stage scope : Nat} (hstage : stage ≤ 5) (h : t.misses = (stageMiss s stage scope).misses) :
    CountsMiss s t (4 + stage) (scope ≠ 0) := by
  have hread := State.stget_eq_of_misses h (show 4 + stage < 256 by omega)
  refine ⟨fun hscope => hread.trans (stageMiss_stget s hstage hscope), fun hscope => hread.trans ?_⟩
  rw [stageMiss, if_pos (not_not.mp hscope)]

end Sys2Proof.Machine

namespace Sys2Proof.Machine

/-! Sorting, and the keys of a sparse table -/

theorem mem_insertBy {α : Type} {lt : α → α → Bool} {x a : α} : ∀ {l : List α}, a ∈ insertBy lt x l ↔ a = x ∨ a ∈ l
  | [] => by simp [insertBy]
  | y :: r => by
    have ih := mem_insertBy (lt := lt) (x := x) (a := a) (l := r)
    unfold insertBy
    split
    · simp
    · simp only [List.mem_cons, ih]
      tauto

theorem mem_sortBy {α : Type} {lt : α → α → Bool} {a : α} {l : List α} : a ∈ sortBy lt l ↔ a ∈ l := by
  have hfold : ∀ (l acc : List α), a ∈ l.foldl (fun acc x => insertBy lt x acc) acc ↔ a ∈ l ∨ a ∈ acc := by
    intro l
    induction l with
    | nil => simp
    | cons x l ih =>
      intro acc
      rw [List.foldl_cons, ih, mem_insertBy, List.mem_cons]
      tauto
  simp [sortBy, hfold]

theorem mem_keys_minsert {α : Type} {k n : Nat} {v : α} :
    ∀ {m : SMap α}, k ∈ (minsert m n v).map Prod.fst ↔ k = n ∨ k ∈ m.map Prod.fst
  | [] => by simp [minsert]
  | (a, w) :: m => by
    have ih := mem_keys_minsert (k := k) (n := n) (v := v) (m := m)
    unfold minsert
    split
    · simp
    · split
      · next h => simp [h]
      · simp only [List.map_cons, List.mem_cons, ih]
        tauto

theorem keys_pairwise_of_mwfFrom {α : Type} [DecidableEq α] {d : α} :
    ∀ {m : SMap α} {lo : Option Nat}, mwfFrom d lo m = true →
      (m.map Prod.fst).Pairwise (· < ·) ∧ ∀ l, lo = some l → ∀ k ∈ m.map Prod.fst, l < k
  | [], _, _ => by simp
  | (a, w) :: m, lo, h => by
    have hm : mwfFrom d (some a) m = true := by cases lo <;> simp_all [mwfFrom]
    obtain ⟨hpair, hlt⟩ := keys_pairwise_of_mwfFrom hm
    refine ⟨List.pairwise_cons.mpr ⟨hlt a rfl, hpair⟩, ?_⟩
    rintro l rfl k hk
    have hla : l < a := by
      simp only [mwfFrom, Bool.and_eq_true, decide_eq_true_eq] at h
      exact h.1.1
    rcases List.mem_cons.mp hk with rfl | hk
    · exact hla
    · exact hla.trans (hlt a rfl k hk)

/-- A read at another key, whatever the two defaults are. -/
theorem mget_mset_other {α : Type} [DecidableEq α] (d d' : α) (m : SMap α) (v : α) {n k : Nat} (h : k ≠ n) :
    mget d' (mset d m n v) k = mget d' m k := by
  unfold mset
  split
  · rw [mget_drop, if_neg h]
  · rw [mget_minsert, if_neg h]

/-! The feeds of a block and their engines (R49, R131) -/

theorem mem_feedCounts {f : Nat} (xs : List Crosspoint) : f ∈ (feedCounts xs).map Prod.fst ↔ ∃ x ∈ xs, x.f = f := by
  have hfold : ∀ (l : List Crosspoint) (m : SMap Nat),
      f ∈ (l.foldl (fun m x => mmod 0 m x.f (· + 1)) m).map Prod.fst ↔ (∃ x ∈ l, x.f = f) ∨ f ∈ m.map Prod.fst := by
    intro l
    induction l with
    | nil => simp
    | cons x l ih =>
      intro m
      rw [List.foldl_cons, ih, mmod, mset, if_neg (Nat.succ_ne_zero _), mem_keys_minsert]
      simp only [List.exists_mem_cons_iff, eq_comm (a := f), or_assoc, or_left_comm]
  exact (hfold xs []).trans (by simp)

theorem feedCounts_keys_nodup (xs : List Crosspoint) : ((feedCounts xs).map Prod.fst).Nodup := by
  have hwf : mwf 0 (feedCounts xs) = true :=
    List.foldlRecOn xs _ (motive := fun m => mwf 0 m = true) rfl (fun m hm x _ => mwf_mset 0 m x.f _ hm)
  exact (keys_pairwise_of_mwfFrom hwf).1.imp Nat.ne_of_lt

theorem assign_feeds_sublist : ∀ (l loads : List (Nat × Nat)), ((assign loads l).map Prod.fst).Sublist (l.map Prod.fst)
  | [], _ => by simp [assign]
  | (f, c) :: r, loads => by
    unfold assign
    split
    · exact List.nil_sublist _
    · exact (assign_feeds_sublist r _).cons_cons f

/-- No feed is shared between two engines (R49). -/
theorem assign_unique {loads : List (Nat × Nat)} {xs : List Crosspoint} {f i j : Nat}
    (hi : (f, i) ∈ assign loads (feedCounts xs)) (hj : (f, j) ∈ assign loads (feedCounts xs)) : i = j := by
  have hnodup : ((assign loads (feedCounts xs)).map Prod.fst).Nodup :=
    (assign_feeds_sublist _ loads).nodup (feedCounts_keys_nodup xs)
  exact (Prod.ext_iff.mp (List.inj_on_of_nodup_map hnodup hi hj rfl)).2

/-! Slide engines -/

section
variable (s : State)

theorem slideOf_setSlide_self (i : Nat) (e : Slide) : slideOf (setSlide s i e) i = e := mget_mset_self ..

theorem slideOf_setSlide_ne (e : Slide) {i j : Nat} (h : j ≠ i) : slideOf (setSlide s i e) j = slideOf s j :=
  mget_mset_other _ _ _ _ h

/-- Engines set one after another by an update that a second one of its kind repeats. -/
theorem slideOf_foldl_setSlide {g : Nat → Slide → Slide} (hg : ∀ i e, g i (g i e) = g i e) (i : Nat) :
    ∀ (l : List Nat) (s : State), slideOf (l.foldl (fun s i => setSlide s i (g i (slideOf s i))) s) i =
      if i ∈ l then g i (slideOf s i) else slideOf s i
  | [], _ => by simp
  | j :: l, s => by
    rw [List.foldl_cons, slideOf_foldl_setSlide hg i l]
    by_cases hij : i = j
    · subst hij
      simp [slideOf_setSlide_self, hg]
    · simp [slideOf_setSlide_ne _ _ hij, hij]

/-- The engine of each feed of the block that is published (R49). -/
def shares : List (Nat × Nat) := assign ((activeSlides s).map (fun i => (i, 0))) (feedCounts s.pipe.xcur)

/-- The crosspoints of engine `i` in the order of rendering (R140). -/
def workOf (i : Nat) : List (Nat × Nat) :=
  (s.pipe.xcur.filter (fun x => (shares s).any (fun e => decide (e.1 = x.f) && decide (e.2 = i)))).map (fun x => (x.o, x.f))

/-- An engine at the start of its work: its first 32 line reads issued (R140). -/
def Slide.given (e : Slide) (order : List (Nat × Nat)) : Slide :=
  { e with order := order, done := 0, issued := min 32 order.length, have_ := [], used := [], stall := none }

theorem slideOf_publishPlacement {i : Nat} (hi : i ∈ activeSlides s) :
    slideOf (publishPlacement s) i = (slideOf s i).given (workOf s i) :=
  (slideOf_foldl_setSlide (g := fun i e => e.given (workOf s i)) (fun _ _ => rfl) i (activeSlides s) s).trans (if_pos hi)

theorem publishPlacement_published : (publishPlacement s).pipe.published = true := rfl

@[simp] theorem publishPlacement_xcur : (publishPlacement s).pipe.xcur = s.pipe.xcur :=
  foldl_same (φ := fun t : State => t.pipe.xcur) (g := fun t i => setSlide t i ((slideOf t i).given (workOf s i)))
    (fun _ _ => rfl) (activeSlides s) s

@[simp] theorem publishPlacement_obj (o : Nat) : (publishPlacement s).obj o = s.obj o :=
  foldl_same (φ := fun t : State => t.obj o) (g := fun t i => setSlide t i ((slideOf t i).given (workOf s i)))
    (fun _ _ => rfl) (activeSlides s) s

theorem mem_shares_of_mem_workOf {i a f : Nat} (h : (a, f) ∈ workOf s i) : (f, i) ∈ shares s := by
  obtain ⟨x, hx, he⟩ := List.mem_map.mp h
  obtain ⟨e, he', hfi⟩ := List.any_eq_true.mp (List.mem_filter.mp hx).2
  simp only [Bool.and_eq_true, decide_eq_true_eq] at hfi
  obtain ⟨hf, hi⟩ := hfi
  cases he
  rwa [← hf, ← hi]

/-- Every feed is one engine's alone (R49). -/
theorem workOf_disjoint {i j f a b : Nat} (hi : (a, f) ∈ workOf s i) (hj : (b, f) ∈ workOf s j) : i = j :=
  assign_unique (mem_shares_of_mem_workOf s hi) (mem_shares_of_mem_workOf s hj)

end
end Sys2Proof.Machine

namespace Sys2Proof.Machine

/-! What a judged stage answers -/

theorem CountsMiss.of_stageMiss {r s t : State} {stage scope : Nat} {missed : Prop} (hstage : stage ≤ 5)
    (ht : t.misses = (stageMiss r stage scope).misses) (hr : r.misses = s.misses) (hm : scope ≠ 0 ↔ missed) :
    CountsMiss s t (4 + stage) missed := by
  have hread : r.stget 0 0x1100 (4 + stage) = s.stget 0 0x1100 (4 + stage) := State.stget_eq_of_misses hr (by omega)
  obtain ⟨hmiss, hnone⟩ := stageMiss_counts hstage ht
  exact ⟨fun h => (hmiss (hm.mpr h)).trans (by rw [hread]), fun h => (hnone (fun hs => h (hm.mp hs))).trans hread⟩

theorem CountsMiss.elapse (s t : State) (at_ sub : Nat) (missed : Prop) :
    CountsMiss (s.elapse at_) t sub missed = CountsMiss s t sub missed := by
  simp only [CountsMiss, State.elapse_stget]

section
variable (s : State)

theorem deadlinePurge_pipe (stage lag : Nat) : (deadlinePurge s stage lag).pipe = s.pipe := (deadlinePurge_keeps ..).part .pipe rfl

theorem stageMiss_pipe (stage scope : Nat) : (stageMiss s stage scope).pipe = s.pipe := (stageMiss_keeps ..).part .pipe rfl

theorem placementPurge_pipe :
    (placementPurge s).pipe = { s.pipe with judgedPl := s.pipe.judgedPl || s.pipe.rendering } := by
  unfold placementPurge
  split
  · next h =>
    rw [deadlinePurge_pipe, (Bool.and_eq_true_iff.mp h).1, Bool.or_true]
  · next h =>
    have hj : (s.pipe.judgedPl || s.pipe.rendering) = s.pipe.judgedPl := by
      revert h
      cases s.pipe.rendering <;> cases s.pipe.judgedPl <;> simp
    rw [hj]

/-! Objects in the placement miss scope (R127) -/

theorem obj_setObj_self (o : Nat) (v : Obj) : (setObj s o v).obj o = v := mget_mset_self ..

theorem obj_setObj_ne (v : Obj) {o p : Nat} (h : p ≠ o) : (setObj s o v).obj p = s.obj p := mget_mset_ne _ _ _ _ _ h

theorem mem_liveOf {prev : List Crosspoint} {o : Nat} {x : Crosspoint} (h : x ∈ liveOf prev o) : x.o = o :=
  of_decide_eq_true (Bool.and_eq_true_iff.mp (List.mem_filter.mp h).2).1

/-- What a missed object leaves: its fade starts anew, and its crosspoints are replaced by others of its own, the held ones in
its first missed block. -/
theorem missObj_eq (o : Nat) : ∃ v own, (missObj s o).obj = (setObj s o v).obj ∧ v.pfade = .silent 0 ∧
    (∀ x, x ∈ (missObj s o).pipe.xcur ↔ (x ∈ s.pipe.xcur ∧ x.o ≠ o) ∨ x ∈ own) ∧ (∀ x ∈ own, x.o = o) ∧
    ((s.obj o).pfadeB = .ok → own = (liveOf s.pipe.xprev o).map holdXp) := by
  unfold missObj
  dsimp only
  split
  · refine ⟨_, (liveOf s.pipe.xprev o).map holdXp, rfl, rfl, fun x => ?_, fun x hx => ?_, fun _ => rfl⟩
    · simp [mem_sortBy]
    · obtain ⟨y, hy, rfl⟩ := List.mem_map.mp hx
      exact (mem_liveOf hy :)
  · next _ hs =>
    refine ⟨_, if (s.obj o).pleaveB then (liveOf s.pipe.xprev o).map leaveXp else [], rfl, rfl, fun x => ?_, fun x hx => ?_,
      fun hok => nomatch hs.symm.trans hok⟩
    · simp [mem_sortBy]
    · split at hx
      · obtain ⟨y, hy, rfl⟩ := List.mem_map.mp hx
        exact (mem_liveOf hy :)
      · cases hx

theorem missObj_pfade_self (o : Nat) : ((missObj s o).obj o).pfade = .silent 0 := by
  obtain ⟨v, -, hobj, hv, -⟩ := missObj_eq s o
  rw [hobj, obj_setObj_self, hv]

theorem missObj_pfade_ne {o p : Nat} (h : p ≠ o) : (missObj s o).obj p = s.obj p := by
  obtain ⟨v, -, hobj, -⟩ := missObj_eq s o
  rw [hobj, obj_setObj_ne _ _ h]

/-- A missed object changes no other object's crosspoints. -/
theorem mem_missObj_xcur {o : Nat} {x : Crosspoint} (h : x.o ≠ o) : x ∈ (missObj s o).pipe.xcur ↔ x ∈ s.pipe.xcur := by
  obtain ⟨-, own, -, -, hx, hown, -⟩ := missObj_eq s o
  rw [hx]
  exact ⟨fun h' => h'.elim And.left (fun hm => absurd (hown x hm) h), fun hm => .inl ⟨hm, h⟩⟩

/-- In the first missed block an object's crosspoints are held, delay and gain constant (R127). -/
theorem missObj_held {o : Nat} (hok : (s.obj o).pfadeB = .ok) {x : Crosspoint} (hx : x ∈ (missObj s o).pipe.xcur) (ho : x.o = o) :
    x.kind = .continuing ∧ x.d0 = x.d1 ∧ x.g0 = x.g1 := by
  obtain ⟨-, own, -, -, hmem, -, hheld⟩ := missObj_eq s o
  rcases (hmem x).mp hx with ⟨-, hne⟩ | hown
  · exact absurd ho hne
  · rw [hheld hok] at hown
    obtain ⟨y, -, rfl⟩ := List.mem_map.mp hown
    exact ⟨rfl, rfl, rfl⟩

end

theorem missObj_foldl_pfade {p : Nat} : ∀ (l : List Nat) (s : State), p ∈ l ∨ (s.obj p).pfade = .silent 0 →
    ((l.foldl missObj s).obj p).pfade = .silent 0
  | [], _, h => h.resolve_left (fun hp => nomatch hp)
  | o :: l, s, h => by
    refine missObj_foldl_pfade l (missObj s o) ?_
    by_cases hp : p = o
    · exact .inr (hp ▸ missObj_pfade_self s p)
    · rw [missObj_pfade_ne s hp]
      exact h.imp_left (List.mem_of_ne_of_mem hp)

theorem mem_missObj_foldl_xcur {x : Crosspoint} : ∀ (l : List Nat) (s : State), x.o ∉ l →
    (x ∈ (l.foldl missObj s).pipe.xcur ↔ x ∈ s.pipe.xcur)
  | [], _, _ => Iff.rfl
  | o :: l, s, h => (mem_missObj_foldl_xcur l (missObj s o) (fun hl => h (List.mem_cons_of_mem _ hl))).trans
    (mem_missObj_xcur s (fun ho => h (ho ▸ List.mem_cons_self)))

theorem missObj_foldl_misses (l : List Nat) (s : State) : (l.foldl missObj s).misses = s.misses :=
  foldl_same (φ := State.misses) (fun t o => (missObj_keeps t o).misses rfl) l s

/-! PLACEMENT_PUBLISH and PLACEMENT_DEADLINE -/

/-- The placement stage with the objects `scope` missed, where its block is not yet published. -/
theorem placementMissed_eq {s : State} (scope : List Nat) (hr : s.pipe.rendering = true) (hp : s.pipe.published = false) :
    placementMissed s scope = placementPurge (publishPlacement (stageMiss (scope.foldl missObj s) 2 scope.length)) := by
  simp only [placementMissed, hr, hp, Bool.not_false, Bool.and_self, if_true]

theorem placementMissed_pipe {s : State} (scope : List Nat) (hr : s.pipe.rendering = true) (hp : s.pipe.published = false) :
    (placementMissed s scope).pipe.published = true ∧ (placementMissed s scope).pipe.xcur = (scope.foldl missObj s).pipe.xcur ∧
    ∀ o, (placementMissed s scope).obj o = (scope.foldl missObj s).obj o := by
  rw [placementMissed_eq scope hr hp]
  have hobj : ∀ (t : State) (o : Nat), (placementPurge t).obj o = t.obj o := fun t o => by
    simp only [State.obj, placementPurge_pipe]
  have hmiss : ∀ (t : State) (o : Nat), (stageMiss t 2 scope.length).obj o = t.obj o := fun t o => by
    simp only [State.obj, stageMiss_pipe]
  simp only [placementPurge_pipe, publishPlacement_xcur, stageMiss_pipe, hobj, publishPlacement_obj, hmiss,
    publishPlacement_published, implies_true, and_self]

theorem placementMissed_misses {s : State} (scope : List Nat) (hr : s.pipe.rendering = true) (hp : s.pipe.published = false) :
    (placementMissed s scope).misses = (stageMiss (scope.foldl missObj s) 2 scope.length).misses := by
  rw [placementMissed_eq scope hr hp, placementPurge_misses, (publishPlacement_keeps _).misses rfl]

/-- A stage already judged is not judged again. -/
theorem placementMissed_judged {s : State} (scope : List Nat)
    (h : s.pipe.rendering = false ∨ (s.pipe.published = true ∧ s.pipe.judgedPl = true)) : placementMissed s scope = s := by
  unfold placementMissed placementPurge
  rcases h with h | ⟨hp, hj⟩
  · simp [h]
  · simp [hp, hj]

end Sys2Proof.Machine

namespace Sys2Proof.Machine

section
variable (s : State)

theorem execPlacementPublish_gives {at_ : Nat} (hat : at_ ≤ 120000) (hr : s.pipe.rendering = true) (hp : s.pipe.published = false) :
    exec (.placementPublish at_) s = .next (publishPlacement (s.elapse at_)) := by
  simp [exec, execPlacementPublish, done, Nat.not_lt.mpr hat, hr, hp]

theorem execPlacementPublish_late {at_ : Nat} (hat : at_ ≤ 120000) (h : s.pipe.rendering = false ∨ s.pipe.published = true) :
    exec (.placementPublish at_) s = .next (s.elapse at_) := by
  simp only [exec, execPlacementPublish, done, if_neg (Nat.not_lt.mpr hat), State.elapse_pipe]
  rcases h with h | h <;> simp [h]

/-- What is published: every engine in service at the first of its crosspoints, its first 32 spans issued, no feed shared. -/
theorem publishPlacement_gives : let t := publishPlacement s
    t.pipe.published = true ∧ t.pipe.xcur = s.pipe.xcur ∧ t.clk = s.clk ∧ t.stat = s.stat ∧
    (∀ i ∈ activeSlides s, (slideOf t i).done = 0 ∧ (slideOf t i).issued = min 32 (slideOf t i).order.length) ∧
    ∀ i ∈ activeSlides s, ∀ j ∈ activeSlides s, ∀ f a b,
      (a, f) ∈ (slideOf t i).order → (b, f) ∈ (slideOf t j).order → i = j := by
  refine ⟨publishPlacement_published s, publishPlacement_xcur s, (publishPlacement_keeps s).clk rfl,
    (publishPlacement_keeps s).part .stat rfl, fun i hi => ?_, fun i hi j hj f a b => ?_⟩
  · rw [slideOf_publishPlacement s hi]
    exact ⟨rfl, rfl⟩
  · rw [slideOf_publishPlacement s hi, slideOf_publishPlacement s hj]
    exact workOf_disjoint s

/-- The objects that PLACEMENT_DEADLINE names. -/
def namedObjects (inc : List Nat) : List Nat := inc.filter (fun o => decide (o < 512))

theorem placementDeadline_counts (inc : List Nat) (hr : s.pipe.rendering = true) (hp : s.pipe.published = false) {missed : Prop}
    (hm : (∃ p ∈ inc, p < 512) ↔ missed) :
    CountsMiss s (placementMissed (s.elapse 120000) (namedObjects inc)) 6 missed := by
  refine CountsMiss.of_stageMiss (stage := 2) (by decide) (placementMissed_misses _ (by simpa) (by simpa)) ?_ ?_
  · rw [missObj_foldl_misses, State.elapse_misses]
  · rw [← hm, Nat.ne_zero_iff_zero_lt, List.length_pos_iff_exists_mem]
    simp [namedObjects]

theorem placementDeadline_gives (inc : List Nat) (hr : s.pipe.rendering = true) (hp : s.pipe.published = false) :
    let t := placementMissed (s.elapse 120000) (namedObjects inc)
    t.pipe.published = true ∧ (∀ p ∈ inc, p < 512 → (t.obj p).pfade = .silent 0) ∧
    (∀ x, x.o ∉ inc → (x ∈ t.pipe.xcur ↔ x ∈ s.pipe.xcur)) ∧ CountsMiss s t 6 (∃ p ∈ inc, p < 512) := by
  obtain ⟨hpub, hx, hobj⟩ := placementMissed_pipe (s := s.elapse 120000) (namedObjects inc) (by simpa) (by simpa)
  refine ⟨hpub, fun p hmem hlt => ?_, fun x hmem => ?_, placementDeadline_counts s inc hr hp Iff.rfl⟩
  · rw [hobj]
    exact missObj_foldl_pfade _ _ (.inl (List.mem_filter.mpr ⟨hmem, decide_eq_true hlt⟩))
  · rw [hx, mem_missObj_foldl_xcur (namedObjects inc) _ (fun hl => hmem (List.mem_filter.mp hl).1), State.elapse_pipe]

theorem placementDeadline_holds {o : Nat} (hr : s.pipe.rendering = true) (hp : s.pipe.published = false) (ho : o < 512)
    (hok : (s.obj o).pfadeB = .ok) : let t := placementMissed (s.elapse 120000) (namedObjects [o])
    (∀ x ∈ t.pipe.xcur, x.o = o → x.kind = .continuing ∧ x.d0 = x.d1 ∧ x.g0 = x.g1) ∧ CountsMiss s t 6 True := by
  obtain ⟨-, hx, -⟩ := placementMissed_pipe (s := s.elapse 120000) (namedObjects [o]) (by simpa) (by simpa)
  have hone : namedObjects [o] = [o] := by simp [namedObjects, ho]
  refine ⟨fun x hmem hxo => ?_, placementDeadline_counts s [o] hr hp (by simp [ho])⟩
  rw [hx, hone] at hmem
  exact missObj_held (s.elapse 120000) (by rwa [State.elapse_obj]) hmem hxo

end

/-! DELAY_MATRIX_DEADLINE -/

section
variable (s : State)

/-- The feeds with a crosspoint that are not rendered (R42). -/
def unrendered : List Nat :=
  ((feedCounts s.pipe.xcur).map (fun e => e.1)).filter (fun f => !(s.pipe.rendered.any (fun e => decide (e.1 = f))))

theorem mem_unrendered {f : Nat} : f ∈ unrendered s ↔ (∃ x ∈ s.pipe.xcur, x.f = f) ∧ ∀ e ∈ s.pipe.rendered, e.1 ≠ f := by
  rw [unrendered, List.mem_filter]
  refine and_congr (mem_feedCounts _) ?_
  simp

theorem countCrosspoints_misses (xs : List Crosspoint) (missed : List Nat) : (countCrosspoints s xs missed).misses = s.misses := by
  unfold countCrosspoints
  simp only [State.stset_misses _ _ _ _ (show 0x1101 ≤ 0x3801 by decide)]
  rw [foldl_same (φ := State.misses) (fun t (x : Crosspoint) => State.bump_misses t 0x0A 1 (index := 0x3400 + x.f) (by omega))]
  unfold State.misses
  rw [List.filter_filter]
  refine List.filter_congr fun e _ => ?_
  by_cases he : e.1 < key 0x1101 0
  · have hlow : ¬ key 0x3400 0 ≤ e.1 := by simp only [key] at he ⊢; omega
    simp [he, hlow]
  · simp [he]

/-- The stage with its miss scope, before the miss is counted. -/
def dmJudged : State :=
  let s0 := placementPurge s
  { s0 with pipe := { s0.pipe with judgedDm := true, missDm := unrendered s } }

theorem dmDeadline_eq (hr : s.pipe.rendering = true) (hj : s.pipe.judgedDm = false) :
    dmDeadline s = deadlinePurge (countCrosspoints (stageMiss (dmJudged s) 3 (unrendered s).length)
      (s.pipe.xcur.filter (fun x => !(unrendered s).contains x.f)) (unrendered s)) 3 1 := by
  unfold dmDeadline
  rw [if_pos (by simp [hr, hj])]
  rfl

theorem dmDeadline_judged (h : s.pipe.rendering = false ∨ s.pipe.judgedDm = true) : dmDeadline s = s := by
  unfold dmDeadline
  rcases h with h | h <;> simp [h]

theorem dmDeadline_gives (hr : s.pipe.rendering = true) (hj : s.pipe.judgedDm = false) : let t := dmDeadline s
    t.pipe.judgedDm = true ∧ t.pipe.missDm = unrendered s ∧ CountsMiss s t 7 (unrendered s ≠ []) := by
  have hpipe : (dmDeadline s).pipe = (dmJudged s).pipe := by
    rw [dmDeadline_eq s hr hj, deadlinePurge_pipe]
    exact ((countCrosspoints_keeps ..).part .pipe rfl).trans (stageMiss_pipe ..)
  refine ⟨by rw [hpipe]; rfl, by rw [hpipe]; rfl, CountsMiss.of_stageMiss (stage := 3) (r := dmJudged s)
    (scope := (unrendered s).length) (by decide) ?_ ?_ ?_⟩
  · rw [dmDeadline_eq s hr hj, deadlinePurge_misses, countCrosspoints_misses]
  · exact placementPurge_misses s
  · rw [Ne, List.length_eq_zero_iff]

end

/-! OUTPUT_BUS_DEADLINE -/

section
variable (s : State) (at_ : Nat)

theorem busRuns_elapse : busRuns (s.elapse at_) = busRuns s := by simp only [busRuns, State.elapse_dictAt]

theorem chainFeeds_elapse : chainFeeds (s.elapse at_) = chainFeeds s := by
  simp only [chainFeeds, State.elapse_dictAt, State.elapse_pipe]

theorem lateSlots_elapse (users : List Nat) : lateSlots (s.elapse at_) users = lateSlots s users := by
  have hslot : ∀ u, slotOfNo (s.elapse at_) u = slotOfNo s u := fun u => by simp only [slotOfNo, State.elapse_slots]
  have hn : (s.elapse at_).n = s.n := by simp only [State.n, State.elapse_dict]
  simp only [lateSlots, slotIn, outputWhole, hslot, hn, State.elapse_slots, State.elapse_dictAt, State.elapse_tick]

/-- The feeds that OUTPUT_BUS_DEADLINE names, of those in the chain. -/
def lateFeeds (inc : List Nat) : List Nat := (chainFeeds s).filter (fun f => inc.contains f)

/-- The stage with its miss scope and the user slots' counters, before the miss is counted. -/
def obJudged (inc users : List Nat) : State :=
  (lateSlots s users).foldl (fun s u => s.bump (0x7080 + u) 0x07 1)
    { s with pipe := { s.pipe with judgedOb := true, missOb := lateFeeds s inc, missUser := lateSlots s users } }

theorem busDeadline_eq (inc users : List Nat) (hr : busRuns s = true) (hj : s.pipe.judgedOb = false) :
    busDeadline s inc users =
      deadlinePurge (stageMiss (obJudged s inc users) 4 ((lateFeeds s inc).length + 8 * (lateSlots s users).length)) 4 2 := by
  unfold busDeadline
  rw [if_neg (by simp [hr, hj])]
  rfl

theorem busDeadline_judged (inc users : List Nat) (h : busRuns s = false ∨ s.pipe.judgedOb = true) : busDeadline s inc users = s := by
  unfold busDeadline
  rcases h with h | h <;> simp [h]

theorem busDeadline_gives (inc users : List Nat) (hr : busRuns s = true) (hj : s.pipe.judgedOb = false) :
    let t := busDeadline s inc users
    t.pipe.judgedOb = true ∧ t.pipe.missOb = lateFeeds s inc ∧ t.pipe.missUser = lateSlots s users ∧
    CountsMiss s t 8 (lateFeeds s inc ≠ [] ∨ lateSlots s users ≠ []) := by
  have hpipe : (busDeadline s inc users).pipe =
      { s.pipe with judgedOb := true, missOb := lateFeeds s inc, missUser := lateSlots s users } := by
    rw [busDeadline_eq s inc users hr hj, deadlinePurge_pipe, stageMiss_pipe]
    exact foldl_same (φ := State.pipe) (g := fun t u => t.bump (0x7080 + u) 0x07 1) (fun _ _ => rfl) _ _
  refine ⟨by rw [hpipe], by rw [hpipe], by rw [hpipe],
    CountsMiss.of_stageMiss (stage := 4) (r := obJudged s inc users)
      (scope := (lateFeeds s inc).length + 8 * (lateSlots s users).length) (by decide) ?_ ?_ ?_⟩
  · rw [busDeadline_eq s inc users hr hj, deadlinePurge_misses]
  · exact foldl_same (φ := State.misses) (fun t u => State.bump_misses t 7 1 (index := 0x7080 + u) (by omega)) _ _
  · simp only [ne_eq, ← List.length_eq_zero_iff]
    omega

end
end Sys2Proof.Machine

namespace Sys2Proof.Machine

/-! Transmit slots (R320, R339) -/

section
variable (s : State)

theorem sendPort_misses (p : Nat) (f : OutFrame) : (s.sendPort p f).misses = s.misses := by
  unfold State.sendPort
  split
  · simp [show 0x1101 ≤ 0x2110 + p by omega]
  · rfl

theorem sendStream_misses (i : Nat) (f : Nat → OutFrame) : (sendStream s i f).misses = s.misses := by
  unfold sendStream
  split
  · rw [State.bump_misses _ _ _ (by omega), sendPort_misses, sendPort_misses]
  · rfl

theorem txPacket_misses (i t mask : Nat) (y : SMap (List Int)) : (txPacket s i t mask y).1.misses = s.misses := by
  unfold txPacket
  dsimp only
  split
  · dsimp only
    split
    · exact sendStream_misses ..
    · rfl
  · dsimp only
    split
    · rfl
    · split
      · split
        · exact sendStream_misses ..
        · rfl
      · split
        · exact State.bump_misses _ _ _ (by omega)
        · rfl

theorem txPacket_notIn {i t mask : Nat} {y : SMap (List Int)} (h : s.byp.partic ≠ .inRing) : (txPacket s i t mask y).1 = s := by
  unfold txPacket
  split <;> simp [h]

theorem txSlot_misses (missed : List Nat) (acc : State × SMap Nat) (i : Nat) :
    (txSlot missed acc i).1.misses = acc.1.misses := by
  unfold txSlot
  dsimp only
  split
  · rfl
  · exact txPacket_misses ..

theorem txSlots_misses (missed : List Nat) : (txSlots s missed).1.misses = s.misses := by
  unfold txSlots
  exact foldl_same (φ := fun a : State × SMap Nat => a.1.misses) (txSlot_misses missed) _ _

/-- In any state but In no stream packet is sent (R320, R339). -/
theorem txSlots_notIn (missed : List Nat) (h : s.byp.partic ≠ .inRing) : (txSlots s missed).1.out = s.out := by
  have hstep : ∀ (acc : State × SMap Nat) (i : Nat), Keeps [.stat, .tx] s acc.1 → Keeps [.stat, .tx] s (txSlot missed acc i).1 := by
    intro acc i hacc
    have hbyp : acc.1.byp = s.byp := hacc.part .byp rfl
    unfold txSlot
    dsimp only
    split
    · exact keeps_tx rfl hacc
    · rw [txPacket_notIn _ (by simpa [hbyp] using h)]
      exact keeps_tx rfl hacc
  have hkeeps : Keeps [.stat, .tx] s (txSlots s missed).1 := by
    unfold txSlots
    exact keeps_foldl_fst hstep (Keeps.refl _ _)
  exact hkeeps.part .out rfl

/-! AES3 outputs -/

theorem aesOutChannel_judgedEg (missed : List Nat) (c : Nat) : (aesOutChannel missed s c).pipe.judgedEg = s.pipe.judgedEg := rfl

theorem aesOutput_misses (missed : List Nat) (acc : State × SMap Nat) (k : Nat) :
    (aesOutput missed acc k).1.misses = acc.1.misses := by
  unfold aesOutput
  dsimp only
  split
  · exact groupWrite_misses ..
  · rfl

theorem aesOutput_judgedEg (missed : List Nat) (acc : State × SMap Nat) (k : Nat) :
    (aesOutput missed acc k).1.pipe.judgedEg = acc.1.pipe.judgedEg := by
  unfold aesOutput
  dsimp only
  split
  · rw [(groupWrite_keeps ..).part .pipe rfl, aesOutChannel_judgedEg, aesOutChannel_judgedEg]
  · rfl

theorem aesOutputs_misses (missed : List Nat) : (aesOutputs s missed).1.misses = s.misses := by
  unfold aesOutputs
  exact foldl_same (φ := fun a : State × SMap Nat => a.1.misses) (aesOutput_misses missed) _ _

theorem aesOutputs_judgedEg (missed : List Nat) : (aesOutputs s missed).1.pipe.judgedEg = s.pipe.judgedEg := by
  unfold aesOutputs
  exact foldl_same (φ := fun a : State × SMap Nat => a.1.pipe.judgedEg) (aesOutput_judgedEg missed) _ _

/-! EGRESS_DEADLINE -/

theorem stageMiss_digests (stage scope : Nat) : (stageMiss s stage scope).twin.digests = s.twin.digests := by
  unfold stageMiss
  split
  · rfl
  · rw [(State.raise_keeps ..).part .twin rfl]
    rfl

/-- The stage with the blocks handed over, before the miss is counted. -/
def egressWorked (slots aes drives : List Nat) : State :=
  let a := txSlots { s with pipe := { s.pipe with judgedEg := true, aesNext := [] } } slots
  driveBlocks (aesOutputs a.1 aes).1 drives

theorem egressWorked_misses (slots aes drives : List Nat) : (egressWorked s slots aes drives).misses = s.misses := by
  unfold egressWorked
  rw [(driveBlocks_keeps ..).misses rfl, aesOutputs_misses, txSlots_misses]
  rfl

theorem egressWorked_judgedEg (slots aes drives : List Nat) : (egressWorked s slots aes drives).pipe.judgedEg = true := by
  unfold egressWorked
  rw [(driveBlocks_keeps ..).part .pipe rfl, aesOutputs_judgedEg, (txSlots_keeps ..).part .pipe rfl]

theorem egressWorked_twin (slots aes drives : List Nat) : (egressWorked s slots aes drives).twin = s.twin := by
  unfold egressWorked
  rw [(driveBlocks_keeps ..).part .twin rfl, (aesOutputs_keeps ..).part .twin rfl, (txSlots_keeps ..).part .twin rfl]

theorem egressWorked_out (slots aes drives : List Nat) (h : s.byp.partic ≠ .inRing) :
    (egressWorked s slots aes drives).out = s.out := by
  unfold egressWorked
  rw [(driveBlocks_keeps ..).part .out rfl, (aesOutputs_keeps ..).part .out rfl, txSlots_notIn]
  exact h

/-- The stage closed: its miss counted, what it still has in the Tally purged. -/
def egressClosed (slots aes drives : List Nat) : State :=
  deadlinePurge (stageMiss (egressWorked s slots aes drives) 5 (slots.length + aes.length + drives.length)) 5 3

/-- Egress is its closed stage with the digests of the block (R467) at the head. -/
theorem egress_eq (slots aes drives : List Nat) (hj : s.pipe.judgedEg = false) : ∃ tx ae fed,
    egress s slots aes drives = { egressClosed s slots aes drives with twin := { (egressClosed s slots aes drives).twin with
      digests := (Digests.mk (s.clk.tick - 3) tx ae :: (egressClosed s slots aes drives).twin.digests).take 4, fedNow := fed } } := by
  unfold egress
  rw [if_neg (by simp [hj])]
  exact ⟨_, _, _, rfl⟩

theorem egress_gives (slots aes drives : List Nat) (hj : s.pipe.judgedEg = false) {missed : Prop}
    (hm : slots.length + aes.length + drives.length ≠ 0 ↔ missed) : let t := egress s slots aes drives
    t.pipe.judgedEg = true ∧ (∃ d, t.twin.digests = (d :: s.twin.digests).take 4 ∧ d.block = s.clk.tick - 3) ∧
    CountsMiss s t 9 missed ∧ (s.byp.partic ≠ .inRing → t.out = s.out) := by
  obtain ⟨tx, ae, fed, heq⟩ := egress_eq s slots aes drives hj
  have hdigests : (egressClosed s slots aes drives).twin.digests = s.twin.digests := by
    rw [egressClosed, (deadlinePurge_keeps ..).part .twin rfl, stageMiss_digests, egressWorked_twin]
  have hpipe : (egressClosed s slots aes drives).pipe = (egressWorked s slots aes drives).pipe :=
    (deadlinePurge_pipe ..).trans (stageMiss_pipe ..)
  have hout : (egressClosed s slots aes drives).out = (egressWorked s slots aes drives).out :=
    ((deadlinePurge_keeps ..).part .out rfl).trans ((stageMiss_keeps ..).part .out rfl)
  have hmisses : (egress s slots aes drives).misses = (egressClosed s slots aes drives).misses := by
    simp only [heq, State.misses]
  refine ⟨?_, ⟨Digests.mk (s.clk.tick - 3) tx ae, ?_, rfl⟩, ?_, fun hin => ?_⟩
  · simp only [heq, hpipe, egressWorked_judgedEg]
  · simp only [heq, hdigests]
  · exact CountsMiss.of_stageMiss (stage := 5) (by decide) (hmisses.trans (deadlinePurge_misses ..))
      (egressWorked_misses s slots aes drives) hm
  · simp only [heq, hout, egressWorked_out s slots aes drives hin]

theorem execEgressDeadline_gives (slots aes drives : List Nat) (ht : s.ticking = true) (hj : s.pipe.judgedEg = false) :
    Gives (.egressDeadline slots aes drives) s (fun t => t.pipe.judgedEg = true ∧
      (∃ d, t.twin.digests = (d :: s.twin.digests).take 4 ∧ d.block = s.clk.tick - 3) ∧
      CountsMiss s t 9 (egressScope s slots aes drives ≠ ([], [], [])) ∧ (s.byp.partic ≠ .inRing → t.out = s.out)) := by
  obtain ⟨⟨a, b, c⟩, hscope⟩ : ∃ e, egressScope s slots aes drives = e := ⟨_, rfl⟩
  have hm : a.length + b.length + c.length ≠ 0 ↔ (a, b, c) ≠ ([], [], []) := by
    simp [and_assoc]
  have hexec : exec (.egressDeadline slots aes drives) s =
      .next (egress (s.elapse (tickLen s.clk.tick - if b.isEmpty && c.isEmpty then 40000 else 2000)) a b c) := by
    simp only [exec, execEgressDeadline, done, ht, if_true, hscope]
  have h := egress_gives (s.elapse (tickLen s.clk.tick - if b.isEmpty && c.isEmpty then 40000 else 2000)) a b c (by simpa) hm
  simp only [CountsMiss.elapse, State.elapse_twin, State.elapse_byp, State.elapse_out, State.elapse_tick] at h
  rw [hscope]
  exact ⟨_, hexec, h⟩

end
end Sys2Proof.Machine

namespace Sys2Proof.Machine

section
variable (s : State)

theorem execDelayMatrixDeadline_gives (hr : s.pipe.rendering = true) (hj : s.pipe.judgedDm = false) :
    Gives .delayMatrixDeadline s (fun t => t.pipe.judgedDm = true ∧
      (∀ f, f ∈ t.pipe.missDm ↔ (∃ x ∈ s.pipe.xcur, x.f = f) ∧ ∀ e ∈ s.pipe.rendered, e.1 ≠ f) ∧
      CountsMiss s t 7 (t.pipe.missDm ≠ [])) := by
  obtain ⟨hjudged, hmiss, hcount⟩ := dmDeadline_gives (s.elapse (stageDeadline s)) (by simpa) (by simpa)
  rw [CountsMiss.elapse] at hcount
  refine ⟨dmDeadline (s.elapse (stageDeadline s)), rfl, hjudged, fun f => ?_, by rwa [hmiss]⟩
  rw [hmiss, mem_unrendered, State.elapse_pipe]

theorem execOutputBusDeadline_eq (inc slots : List Nat) (ht : s.ticking = true) :
    exec (.outputBusDeadline inc slots) s = .next (busDeadline (s.elapse (stageDeadline s)) inc slots) := by
  simp only [exec, execOutputBusDeadline, done, ht, if_true]

theorem execOutputBusDeadline_gives (inc slots : List Nat) (ht : s.ticking = true) (hr : busRuns s = true)
    (hj : s.pipe.judgedOb = false) : Gives (.outputBusDeadline inc slots) s (fun t => t.pipe.judgedOb = true ∧
      (∀ f, f ∈ t.pipe.missOb ↔ f ∈ chainFeeds s ∧ f ∈ inc) ∧ t.pipe.missUser = lateSlots s slots ∧
      CountsMiss s t 8 (t.pipe.missOb ≠ [] ∨ t.pipe.missUser ≠ [])) := by
  obtain ⟨hjudged, hfeeds, hslots, hcount⟩ :=
    busDeadline_gives (s.elapse (stageDeadline s)) inc slots (by rwa [busRuns_elapse]) (by simpa)
  rw [CountsMiss.elapse] at hcount
  refine ⟨_, execOutputBusDeadline_eq s inc slots ht, hjudged, fun f => ?_, by rw [hslots, lateSlots_elapse],
    by rwa [hfeeds, hslots]⟩
  rw [hfeeds, lateFeeds, chainFeeds_elapse, List.mem_filter, List.contains_iff_mem]

end

/-- Settles O36: each deadline's stage is judged by the laws above, at the instant to which time has run on. -/
theorem stageDeadlines : Obligations.StageDeadlines := by
  intro s at_ o inc slots aes drives ht counted
  refine ⟨?_, ?_, ?_, ?_, execDelayMatrixDeadline_gives s, ?_, execOutputBusDeadline_gives s inc slots ht, ?_,
    execEgressDeadline_gives s slots aes drives ht⟩
  · rintro hat u rfl
    refine ⟨fun hr hp => ⟨_, execPlacementPublish_gives s hat hr hp, ?_⟩, execPlacementPublish_late s hat⟩
    have h := publishPlacement_gives (s.elapse at_)
    simpa only [State.elapse_pipe, State.elapse_stat, activeSlides_elapse] using h
  · exact fun hr hp => ⟨_, rfl, placementDeadline_gives s inc hr hp⟩
  · exact fun hr hp ho hok => ⟨_, rfl, placementDeadline_holds s hr hp ho hok⟩
  · intro h
    exact congrArg Host.Outcome.next (placementMissed_judged (s := s.elapse 120000) _ (by simpa using h))
  · intro h
    exact congrArg Host.Outcome.next (dmDeadline_judged (s.elapse (stageDeadline s)) (by simpa using h))
  · intro h
    rw [execOutputBusDeadline_eq s inc slots ht, busDeadline_judged _ _ _ (by simpa [busRuns_elapse] using h)]

end Sys2Proof.Machine

namespace Sys2Proof.Machine

/-! The miss counters at ingress: none of its steps counts in 1100 -/

/-! Receive slots (R323, R335, R336) -/

theorem takeRecords_misses (block slot seq : Nat) (counts : Bool) :
    ∀ (l : List (List Byte)) (s : State), (takeRecords s block slot seq counts l).misses = s.misses
  | [], _ => rfl
  | b :: r, s => by
    unfold takeRecords
    split
    · rw [takeRecords_misses, (arrive_keeps ..).misses rfl]
    · rw [takeRecords_misses]
      split
      · rw [State.raise_misses, State.bump_misses _ _ _ (by decide)]
      · rfl

section
variable (s : State)

theorem takeContents_misses (i k : Nat) (p : List Byte) : (takeContents s i k p).misses = s.misses := by
  unfold takeContents
  dsimp only
  split
  · exact takeRecords_misses ..
  · rfl
  · rfl

theorem takeCopy_misses (i : Nat) (c : RxCopy) (p : List Byte) (margin : Int) : (takeCopy s i c p margin).misses = s.misses := by
  unfold takeCopy
  dsimp only
  rw [takeContents_misses]
  split
  · rw [State.mark_misses, State.bump_misses _ _ _ (by omega), State.bump_misses _ _ _ (by omega)]; rfl
  · rw [State.bump_misses _ _ _ (by omega), State.bump_misses _ _ _ (by omega)]; rfl

theorem shadowCutoff_misses (i block : Nat) : (shadowCutoff s i block).misses = s.misses := by
  refine foldl_same (φ := State.misses) (fun t h => ?_) _ s
  split
  · rw [takeCopy_misses, State.bump_misses _ _ _ (by omega)]; rfl
  · rfl

theorem rxCommitSlot_misses (first : Bool) (acc : State × SMap (List Int)) (i : Nat) :
    (rxCommitSlot s first acc i).1.misses = acc.1.misses := by
  obtain ⟨v, under, again, heq⟩ : ∃ v under again, (rxCommitSlot s first acc i).1 =
      if under = true then
        if again = true then (setRx acc.1 i v).bump (0x2200 + i) 0x12 1 else ((setRx acc.1 i v).bump (0x2200 + i) 0x12 1).raise 83 i 0
      else setRx acc.1 i v := ⟨_, _, _, rfl⟩
  have hbump : ((setRx acc.1 i v).bump (0x2200 + i) 0x12 1).misses = acc.1.misses := State.bump_misses _ _ _ (by omega)
  rw [heq]
  split
  · split
    · exact hbump
    · rw [State.raise_misses, hbump]
  · rfl

theorem rxCommit_misses (first : Bool) : (rxCommit s first).1.misses = s.misses :=
  foldl_same (φ := fun a : State × SMap (List Int) => a.1.misses) (rxCommitSlot_misses s first) _ _

/-! AES3 inputs and microphones -/

theorem aesRho_misses (i : Nat) : (aesRho s i).misses = s.misses := by
  unfold aesRho
  dsimp only
  rw [State.stset_misses _ _ _ _ (by omega)]; rfl

theorem aesTake_misses (i : Nat) : (aesTake s i).1.misses = s.misses := by
  unfold aesTake
  split
  · rfl
  · split
    · exact (aesTakeSync_keeps ..).misses rfl
    · unfold aesTakeAsync
      dsimp only
      split
      · rw [State.stset_misses _ _ _ _ (by omega)]; rfl
      · rw [State.bump_misses _ _ _ (by omega)]; rfl

theorem aesCommitOne_misses (acc : State × SMap (List Int)) (i : Nat) : (aesCommitOne acc i).1.misses = acc.1.misses := by
  unfold aesCommitOne
  dsimp only
  rw [(aesFade_keeps ..).misses rfl, (aesReport_keeps ..).misses rfl, aesTake_misses, aesRho_misses]

theorem aesCommit_misses (acc : State × SMap (List Int)) : (aesCommit acc).1.misses = acc.1.misses :=
  foldl_same (φ := fun a : State × SMap (List Int) => a.1.misses) aesCommitOne_misses _ _

theorem pdmStick_misses (m : Nat) : (pdmStick s m).misses = s.misses := by
  unfold pdmStick
  dsimp only
  split
  · rw [State.bump_misses _ _ _ (by omega)]; rfl
  · rfl

theorem pdmCommitOne_misses (given : List (Nat × List Bool)) (acc : State × SMap (List Int)) (m : Nat) :
    (pdmCommitOne given acc m).1.misses = acc.1.misses := by
  unfold pdmCommitOne
  dsimp only
  split
  · rw [(pdmUnstick_keeps ..).misses rfl, pdmStick_misses, (pdmTick_keeps ..).misses rfl, (pdmReport_keeps ..).misses rfl]; rfl
  · rw [(pdmReport_keeps ..).misses rfl]; rfl

theorem pdmCommit_misses (given : List (Nat × List Bool)) (acc : State × SMap (List Int)) :
    (pdmCommit given acc).1.misses = acc.1.misses :=
  foldl_same (φ := fun a : State × SMap (List Int) => a.1.misses) (pdmCommitOne_misses given) _ _

/-! Delay lines and group buffers -/

theorem windowBlock_misses (o x : Nat) : (windowBlock s o x).1.misses = s.misses := by
  unfold windowBlock lineRead ledgerRead
  dsimp only
  rw [(ledgerMark_keeps ..).misses rfl]
  exact foldl_same (φ := State.misses) ledgerNote_misses _ s

theorem objectLine_misses (ins : SMap (List Int)) (missed : List Nat) (o : Nat) : (objectLine ins missed s o).misses = s.misses := by
  unfold objectLine
  dsimp only
  refine (ledgerWrite_misses ..).trans ?_
  split
  · exact windowBlock_misses ..
  · rfl

theorem groupInputs_misses (ins : SMap (List Int)) : (groupInputs s ins).misses = s.misses := by
  have hput : ∀ (t : State) (buffer g : Nat) (l : List (Nat × List Int)),
      (if l.isEmpty then t else groupWrite t buffer t.n t.clk.tick g l).misses = t.misses := by
    intro t buffer g l
    split
    · rfl
    · exact groupWrite_misses ..
  unfold groupInputs
  dsimp only
  rw [hput]
  exact foldl_same (φ := State.misses) (fun t g => hput t 0 g _) _ s

end
end Sys2Proof.Machine

namespace Sys2Proof.Machine

section
variable (s : State)

/-- The receive slots with their shadow copies taken at the cut-off (R335). -/
def ingressTaken : State := (rxSlots s).foldl (fun s i => shadowCutoff s i s.clk.tick) s

/-- The block's inputs with the state that has taken them: slots, AES3 inputs, microphones. -/
def ingressInputs (pdm : List (Nat × List Bool)) : State × SMap (List Int) :=
  let taken := ingressTaken s
  let first := firstBlock taken 0
  pdmCommit pdm (aesCommit (rxCommit (if first then portsRise (freshLines taken) else taken) first))

theorem ingressInputs_keeps (pdm : List (Nat × List Bool)) :
    Keeps [.stat, .pipe, .rx, .twin, .events, .ledger, .dram, .mem, .aesIn, .pdm] s (ingressInputs s pdm).1 := by
  unfold ingressInputs
  dsimp only
  refine Keeps.step (pdmCommit_keeps ..) rfl ?_
  refine Keeps.step (aesCommit_keeps ..) rfl ?_
  refine Keeps.step (rxCommit_keeps ..) rfl ?_
  have htaken : Keeps [.stat, .pipe, .rx, .twin, .events] s (ingressTaken s) :=
    keeps_foldl (fun t i h => Keeps.step (shadowCutoff_keeps t i _) rfl h) (Keeps.refl _ _)
  split
  · refine Keeps.step (portsRise_keeps ..) rfl ?_
    refine Keeps.step (freshLines_keeps ..) rfl ?_
    exact htaken.mono rfl
  · exact htaken.mono rfl

theorem ingressInputs_misses (pdm : List (Nat × List Bool)) : (ingressInputs s pdm).1.misses = s.misses := by
  have htaken : (ingressTaken s).misses = s.misses := foldl_same (φ := State.misses) (fun t i => shadowCutoff_misses t i _) _ s
  unfold ingressInputs
  dsimp only
  rw [pdmCommit_misses, aesCommit_misses, rxCommit_misses]
  split
  · rw [(portsRise_keeps ..).misses rfl, (freshLines_keeps ..).misses rfl, htaken]
  · exact htaken

/-- The enabled objects that are late. -/
def lateObjects (missed : List Nat) : List Nat := (objectsOn s).filter (fun o => missed.contains o)

/-- The objects' lines and the group buffers written with the block. -/
def ingressLines (missed : List Nat) (pdm : List (Nat × List Bool)) : State :=
  let s2 := (ingressInputs s pdm).1
  let ins := (ingressInputs s pdm).2
  let all := (objectsOn s2).foldl (fun l o => setAdd o l)
    ((s2.pipe.inMiss.map (fun e => e.1)).foldl (fun l o => setAdd o l) (shortObjects s2 s2.clk.tick))
  groupInputs (all.foldl (objectLine ins (lateObjects s2 missed)) s2) ins

theorem ingressLines_misses (missed : List Nat) (pdm : List (Nat × List Bool)) : (ingressLines s missed pdm).misses = s.misses := by
  unfold ingressLines
  dsimp only
  rw [groupInputs_misses, foldl_same (φ := State.misses) (fun t o => objectLine_misses t _ _ o), ingressInputs_misses]

theorem State.misses_with_pipe (p : Pipe) : ({ s with pipe := p } : State).misses = s.misses := rfl

/-- The block committed, before the miss is counted. -/
def ingressWritten (missed : List Nat) (pdm : List (Nat × List Bool)) : State :=
  { ingressLines s missed pdm with
    pipe := { (ingressLines s missed pdm).pipe with inNow := some (ingressInputs s pdm).2 } }

theorem ingressWritten_misses (missed : List Nat) (pdm : List (Nat × List Bool)) :
    (ingressWritten s missed pdm).misses = s.misses :=
  (State.misses_with_pipe ..).trans (ingressLines_misses s missed pdm)

theorem ingressCommit_eq (missed : List Nat) (pdm : List (Nat × List Bool)) (hn : s.pipe.inNow = none) (hc : commits s = true) :
    ingressCommit s missed pdm =
      deadlinePurge (stageMiss (ingressWritten s missed pdm) 1 (lateObjects s missed).length) 1 0 := by
  have hon : lateObjects (ingressInputs s pdm).1 missed = lateObjects s missed := by
    simp only [lateObjects, objectsOn]
    rw [(ingressInputs_keeps s pdm).part .dict rfl]
  rw [← hon]
  unfold ingressCommit
  rw [if_neg (by simp [hn]), if_neg (by simp [hc])]
  unfold ingressWritten ingressLines ingressInputs ingressTaken lateObjects
  dsimp only

theorem ingressCommit_committed (missed : List Nat) (pdm : List (Nat × List Bool)) (h : s.pipe.inNow.isSome = true) :
    ingressCommit s missed pdm = s := if_pos h

theorem execIngressCommit_eq (missed : List Nat) (pdm : List (Nat × List Bool)) (ht : s.ticking = true) :
    exec (.ingressCommit missed pdm) s = .next (ingressCommit (s.elapse (tickLen s.clk.tick - 4000)) missed pdm) := by
  simp only [exec, execIngressCommit, done, ht, if_true]

/-- A second commit of the block changes no memory, no stage and no slot. -/
theorem execIngressCommit_again (missed : List Nat) (pdm : List (Nat × List Bool)) (ht : s.ticking = true)
    (h : s.pipe.inNow.isSome = true) :
    Gives (.ingressCommit missed pdm) s (fun v => v.mem = s.mem ∧ v.pipe = s.pipe ∧ v.rx = s.rx) := by
  refine ⟨s.elapse (tickLen s.clk.tick - 4000), ?_, State.elapse_mem .., State.elapse_pipe .., State.elapse_rx ..⟩
  rw [execIngressCommit_eq s missed pdm ht, ingressCommit_committed _ _ _ (by rwa [State.elapse_pipe])]

/-- INGRESS_COMMIT of a block not yet committed (R40, R336, R564). -/
theorem execIngressCommit_gives (missed : List Nat) (pdm : List (Nat × List Bool)) (ht : s.ticking = true)
    (hn : s.pipe.inNow = none) (hc : commits s = true) : Gives (.ingressCommit missed pdm) s (fun t =>
      t.pipe.inNow = some (ingressInputs (s.elapse (tickLen s.clk.tick - 4000)) pdm).2 ∧
      CountsMiss s t 5 (∃ x ∈ objectsOn s, x ∈ missed) ∧
      Gives (.ingressCommit missed pdm) t (fun v => v.mem = t.mem ∧ v.pipe = t.pipe ∧ v.rx = t.rx)) := by
  generalize hu : s.elapse (tickLen s.clk.tick - 4000) = u
  have heq := ingressCommit_eq u missed pdm (by rwa [← hu, State.elapse_pipe])
    (by rwa [← hu, commits, State.elapse_dict, State.elapse_dictAt])
  have hlate : (lateObjects u missed).length ≠ 0 ↔ ∃ x ∈ objectsOn s, x ∈ missed := by
    simp only [Nat.ne_zero_iff_zero_lt, List.length_pos_iff_exists_mem, lateObjects, objectsOn, ← hu, State.elapse_dict,
      List.mem_filter, List.contains_iff_mem]
  have hin : (ingressCommit u missed pdm).pipe.inNow = some (ingressInputs u pdm).2 := by
    rw [heq, deadlinePurge_pipe, stageMiss_pipe]
    rfl
  have hticking : (ingressCommit u missed pdm).ticking = true := by
    rw [State.ticking, (ingressCommit_keeps ..).part .sup rfl, ← State.ticking, ← hu, State.elapse_ticking, ht]
  refine ⟨ingressCommit u missed pdm, by rw [execIngressCommit_eq s missed pdm ht, hu], hin, ?_,
    execIngressCommit_again _ missed pdm hticking (by rw [hin]; rfl)⟩
  exact CountsMiss.of_stageMiss (stage := 1) (by decide) (by rw [heq, deadlinePurge_misses])
    (by rw [ingressWritten_misses, ← hu, State.elapse_misses]) hlate

end
end Sys2Proof.Machine

namespace Sys2Proof.Machine

/-! FEED_RENDER: an engine works through a feed (R140) -/

theorem Slide.holds_iff {e : Slide} {q : Nat × Nat} : e.holds q = true ↔ ∃ p ∈ e.have_, (p.object, p.feed) = q := by
  simp [Slide.holds, Prod.ext_iff]

/-- The engine after it has taken span `p` of crosspoint `q`, the read 32 places on issued. -/
def Slide.took (e : Slide) (q : Nat × Nat) (p : Span) : Slide :=
  { e with
    issued := max e.issued (min e.order.length (e.done + 33)), done := e.done + 1,
    have_ := e.have_.filter (fun p => !decide (p.object = q.1 ∧ p.feed = q.2)), used := e.used ++ [p] }

theorem Slide.holds_took {e : Slide} {q r : Nat × Nat} {p : Span} (h : r ≠ q) : (e.took q p).holds r = e.holds r := by
  rw [Bool.eq_iff_iff, Slide.holds_iff, Slide.holds_iff]
  simp only [Slide.took, List.mem_filter, Bool.not_eq_true', decide_eq_false_iff_not]
  constructor
  · rintro ⟨x, ⟨hx, -⟩, hxr⟩
    exact ⟨x, hx, hxr⟩
  · rintro ⟨x, hx, hxr⟩
    exact ⟨x, ⟨hx, fun hq => h (hxr.symm.trans (Prod.ext hq.1 hq.2))⟩, hxr⟩

/-- A crosspoint whose span is there is rendered, and the engine goes on. -/
theorem renderOn_held {e : Slide} {q : Nat × Nat} (r : List (Nat × Nat)) (h : e.holds q = true) :
    ∃ p ∈ e.have_, (p.object, p.feed) = q ∧ renderOn e (q :: r) = renderOn (e.took q p) r := by
  obtain ⟨x, hx, hxq⟩ := Slide.holds_iff.mp h
  cases hf : e.have_.find? (fun p => decide (p.object = q.1 ∧ p.feed = q.2)) with
  | none => exact absurd (List.find?_eq_none.mp hf x hx) (by simp [← hxq])
  | some p =>
    have hp := List.find?_some hf
    refine ⟨p, List.mem_of_find?_eq_some hf, Prod.ext_iff.mpr (of_decide_eq_true hp), ?_⟩
    rw [renderOn]
    simp only [hf]
    rfl

/-- A crosspoint whose span is not there stalls the engine. -/
theorem renderOn_missing {e : Slide} {q : Nat × Nat} (r : List (Nat × Nat)) (h : e.holds q = false) :
    renderOn e (q :: r) = { e with issued := max e.issued (min e.order.length (e.done + 33)), stall := some q.2 } := by
  have hf : e.have_.find? (fun p => decide (p.object = q.1 ∧ p.feed = q.2)) = none :=
    List.find?_eq_none.mpr fun p hp => List.any_eq_false.mp h p hp
  rw [renderOn]
  simp only [hf]

/-- With every span there the engine takes them all, in order. -/
theorem renderOn_whole : ∀ {work : List (Nat × Nat)} {e : Slide}, work.Nodup → (∀ q ∈ work, e.holds q = true) →
    ∃ taken, taken.map (fun p => (p.object, p.feed)) = work ∧ (∀ p ∈ taken, p ∈ e.have_) ∧
      (renderOn e work).used = e.used ++ taken ∧ (renderOn e work).done = e.done + work.length ∧ (renderOn e work).stall = none
  | [], e, _, _ => ⟨[], by simp [renderOn]⟩
  | q :: r, e, hnodup, hheld => by
    obtain ⟨hq, hr⟩ := List.nodup_cons.mp hnodup
    obtain ⟨p, hp, hpq, heq⟩ := renderOn_held r (hheld q List.mem_cons_self)
    have hnext : ∀ x ∈ r, (e.took q p).holds x = true := fun x hx =>
      (Slide.holds_took (ne_of_mem_of_not_mem hx hq)).trans (hheld x (List.mem_cons_of_mem _ hx))
    obtain ⟨taken, hmap, hsub, hused, hdone, hstall⟩ := renderOn_whole hr hnext
    rw [heq]
    refine ⟨p :: taken, by rw [List.map_cons, hmap, hpq], fun x hx => ?_, ?_, ?_, hstall⟩
    · rcases List.mem_cons.mp hx with rfl | hx
      · exact hp
      · exact List.mem_of_mem_filter (hsub x hx)
    · rw [hused]
      simp [Slide.took]
    · rw [hdone, List.length_cons]
      simp only [Slide.took]
      omega

/-- The engine takes the spans before the first missing one, issues the next reads, and stalls. -/
theorem renderOn_stalls : ∀ {work : List (Nat × Nat)} {e : Slide} {k : Nat} {q : Nat × Nat}, work.Nodup → work[k]? = some q →
    (∀ p ∈ work.take k, e.holds p = true) → e.holds q = false → (renderOn e work).stall = some q.2 ∧
      (renderOn e work).done = e.done + k ∧ (renderOn e work).issued = max e.issued (min e.order.length (e.done + k + 33))
  | x :: r, e, 0, q, _, hq, _, hmiss => by
    obtain rfl : x = q := Option.some.inj hq
    rw [renderOn_missing r hmiss]
    exact ⟨rfl, rfl, rfl⟩
  | x :: r, e, k + 1, q, hnodup, hq, hheld, hmiss => by
    obtain ⟨hx, hr⟩ := List.nodup_cons.mp hnodup
    have hqr : r[k]? = some q := hq
    obtain ⟨p, hp, hpq, heq⟩ := renderOn_held r (hheld x List.mem_cons_self)
    have hother : ∀ y ∈ r, (e.took x p).holds y = e.holds y := fun y hy =>
      Slide.holds_took (ne_of_mem_of_not_mem hy hx)
    obtain ⟨hstall, hdone, hissued⟩ := renderOn_stalls (e := e.took x p) hr hqr
      (fun y hy => (hother y (List.mem_of_mem_take hy)).trans (hheld y (List.mem_cons_of_mem _ hy)))
      ((hother q (List.mem_of_getElem? hqr)).trans hmiss)
    rw [heq]
    refine ⟨hstall, ?_, ?_⟩
    · rw [hdone]
      simp only [Slide.took]
      omega
    · rw [hissued]
      simp only [Slide.took]
      omega

section
variable (s : State)

/-- A feed's block stored by engine `i`, which `e` leaves. -/
def feedStored (f i : Nat) (e : Slide) : State :=
  let s1 := setSlide s i { e with used := [] }
  { s1 with pipe := { s1.pipe with rendered := mset [] s1.pipe.rendered f (renderBlock s e.used (feedXs s f)) } }

theorem slideOf_feedStored (f i : Nat) (e : Slide) : slideOf (feedStored s f i e) i = { e with used := [] } :=
  slideOf_setSlide_self ..

theorem renderFeed_whole {f i : Nat} (hi : engineAt s f = some i) (hnodup : (toRender (slideOf s i) f).Nodup)
    (hheld : ∀ q ∈ toRender (slideOf s i) f, (slideOf s i).holds q = true) : let t := renderFeed s f
    (∃ taken, taken.map (fun p => (p.object, p.feed)) = toRender (slideOf s i) f ∧ (∀ p ∈ taken, p ∈ (slideOf s i).have_) ∧
      mget [] t.pipe.rendered f = renderBlock s ((slideOf s i).used ++ taken) (feedXs s f)) ∧
    (∀ g, g ≠ f → mget [] t.pipe.rendered g = mget [] s.pipe.rendered g) ∧
    (slideOf t i).done = (slideOf s i).done + (toRender (slideOf s i) f).length ∧ (slideOf t i).stall = none ∧ t.mem = s.mem := by
  obtain ⟨taken, hmap, hsub, hused, hdone, hstall⟩ := renderOn_whole hnodup hheld
  have heq : renderFeed s f = feedStored s f i (renderOn (slideOf s i) (toRender (slideOf s i) f)) := by
    simp only [renderFeed, hi, hstall, Option.isSome_none, Bool.false_eq_true, if_false, feedStored]
  dsimp only
  rw [heq, slideOf_feedStored]
  refine ⟨⟨taken, hmap, hsub, ?_⟩, fun g hg => mget_mset_ne _ _ _ _ _ hg, hdone, hstall, rfl⟩
  rw [← hused]
  exact mget_mset_self ..

theorem renderFeed_stalls {f i k : Nat} {q : Nat × Nat} (hi : engineAt s f = some i) (hnodup : (toRender (slideOf s i) f).Nodup)
    (hq : (toRender (slideOf s i) f)[k]? = some q) (hheld : ∀ p ∈ (toRender (slideOf s i) f).take k, (slideOf s i).holds p = true)
    (hmiss : (slideOf s i).holds q = false) : let t := renderFeed s f
    t.pipe.rendered = s.pipe.rendered ∧ (slideOf t i).stall = some f ∧ (slideOf t i).done = (slideOf s i).done + k ∧
    (slideOf t i).issued = max (slideOf s i).issued (min (slideOf s i).order.length ((slideOf s i).done + k + 33)) ∧
    t.mem = s.mem := by
  obtain ⟨hstall, hdone, hissued⟩ := renderOn_stalls hnodup hq hheld hmiss
  have hf : q.2 = f := of_decide_eq_true (List.mem_takeWhile_imp (List.mem_of_getElem? hq) :)
  have heq : renderFeed s f = setSlide s i (renderOn (slideOf s i) (toRender (slideOf s i) f)) := by
    simp only [renderFeed, hi, hstall, Option.isSome_some, if_true]
  dsimp only
  rw [heq, slideOf_setSlide_self]
  exact ⟨rfl, hf ▸ hstall, hdone, hissued, rfl⟩

end
end Sys2Proof.Machine

namespace Sys2Proof.Machine

/-! SPAN_DELIVERED: what a line read leaves alone (R139, R281) -/

/-- What a line read never changes: the Slide engines and the feeds rendered. -/
def State.delayWork (s : State) : SMap Slide × SMap (List Int) := (s.pipe.engines, s.pipe.rendered)

theorem Keeps.delayWork {f : List Part} {s t : State} (h : Keeps f s t) (hf : Part.isIn .pipe f = false) :
    t.delayWork = s.delayWork := congrArg (fun p : Pipe => (p.engines, p.rendered)) (h.part .pipe hf)

section
variable (s : State)

theorem bankLost_delayWork (k : Nat) : (bankLost s k).delayWork = s.delayWork := by
  unfold bankLost
  dsimp only
  split
  · rfl
  · rfl
  · rw [(State.raise_keeps ..).delayWork rfl]
    rfl

theorem poisonBlock_delayWork (b : Nat) : (poisonBlock s b).delayWork = s.delayWork := by
  have hbank : ∀ t : State, (bankPoisoned t b).delayWork = t.delayWork := by
    intro t
    unfold bankPoisoned
    split
    · exact bankLost_delayWork ..
    · rfl
  unfold poisonBlock
  dsimp only
  split
  · rw [hbank, (triggerRank_keeps ..).delayWork rfl]
    exact (State.raise_keeps ..).delayWork rfl
  · rw [(triggerRank_keeps ..).delayWork rfl]
    exact (State.raise_keeps ..).delayWork rfl

theorem dramNote_delayWork (b : Nat) : (dramNote s b).delayWork = s.delayWork := by
  have hact : (activate s (rankAt s b) b).delayWork = s.delayWork := (activate_keeps ..).delayWork rfl
  unfold dramNote
  dsimp only
  split
  · exact hact
  · split
    · rw [poisonBlock_delayWork, hact]
    · split
      · rw [(countCorrection_keeps ..).delayWork rfl]
        split
        · exact hact
        · exact hact
      · exact hact

theorem readSpan_delayWork (x : Crosspoint) : (readSpan s x).delayWork = s.delayWork := by
  have hshort : ∀ l : List Nat, (l.foldl ledgerNote s).delayWork = s.delayWork := fun l =>
    foldl_same (φ := State.delayWork) (fun t w => (ledgerNote_keeps t w).delayWork rfl) l s
  have hdeep : ∀ l : List Nat, (burstEnd (l.foldl dramNote (wakeDram s))).delayWork = s.delayWork := fun l => by
    rw [(burstEnd_keeps ..).delayWork rfl, foldl_same (φ := State.delayWork) dramNote_delayWork, (wakeDram_keeps ..).delayWork rfl]
  have hmark : ∀ (t : State) (block cause : Nat), (t.mark block cause).delayWork = t.delayWork := fun _ _ _ => rfl
  unfold readSpan
  dsimp only
  split
  · split
    · rw [hmark, hshort]
    · exact hshort _
  · split
    · rw [hmark, hdeep]
    · exact hdeep _

end

/-- No rank migrates, and memory is `m`. -/
def State.Unmigrated (m : List Host.Cell) (s : State) : Prop := s.dram.mig = none ∧ s.mem = m

section
variable {m : List Host.Cell} {s : State}

theorem Keeps.unmigrated {f : List Part} {s t : State} (h : Keeps f s t) (hd : Part.isIn .dram f = false)
    (hm : Part.isIn .mem f = false) (hs : s.Unmigrated m) : t.Unmigrated m :=
  ⟨(congrArg Dram.mig (h.part .dram hd)).trans hs.1, (h.part .mem hm).trans hs.2⟩

theorem triggerNow_unmigrated (p : Nat) (hard : Bool) (hs : s.Unmigrated m) : (triggerNow s p hard).Unmigrated m := by
  have henter : (s.enter 72 p 0).Unmigrated m := (State.enter_keeps ..).unmigrated rfl rfl hs
  unfold triggerNow
  rw [hs.1]
  dsimp only
  split
  · exact hs
  · split
    · exact henter
    · split
      · exact hs
      · split
        · exact hs
        · exact henter

theorem triggerRank_unmigrated (p : Nat) (hard : Bool) (hs : s.Unmigrated m) : (triggerRank s p hard).Unmigrated m := by
  unfold triggerRank
  split
  · exact triggerNow_unmigrated p hard hs
  · exact hs

theorem wakeDram_unmigrated (hs : s.Unmigrated m) : (wakeDram s).Unmigrated m := by
  unfold wakeDram
  split
  · exact List.foldlRecOn _ _ (motive := State.Unmigrated m) hs (fun _ h e _ => triggerNow_unmigrated e.1 e.2 h)
  · exact hs

theorem bankLost_unmigrated (k : Nat) (hs : s.Unmigrated m) : (bankLost s k).Unmigrated m := by
  unfold bankLost
  dsimp only
  split
  · exact hs
  · exact hs
  · exact (State.raise_keeps ..).unmigrated rfl rfl hs

theorem bankPoisoned_unmigrated (b : Nat) (hs : s.Unmigrated m) : (bankPoisoned s b).Unmigrated m := by
  unfold bankPoisoned
  split
  · exact bankLost_unmigrated _ hs
  · exact hs

theorem poisonBlock_unmigrated (b : Nat) (hs : s.Unmigrated m) : (poisonBlock s b).Unmigrated m := by
  unfold poisonBlock
  dsimp only
  have hrank : ∀ (t : State) (p : Nat) (src a c : Nat) (q : Bool), t.Unmigrated m → (triggerRank { t.raise src a c with
      dram := { (t.raise src a c).dram with hoDram := q } } p true).Unmigrated m := fun t p src a c q ht =>
    triggerRank_unmigrated p true ((State.raise_keeps t src a c).unmigrated rfl rfl ht :)
  split
  · exact bankPoisoned_unmigrated _ (hrank _ _ _ _ _ _ hs)
  · exact hrank _ _ _ _ _ _ hs

theorem Dram.mig_with_neigh (d : Dram) (k : Nat) : ({ d with neigh := k } : Dram).mig = d.mig := rfl

theorem neighbourDraw_mig (s : State) : (neighbourDraw s).dram.mig = s.dram.mig := Dram.mig_with_neigh ..

theorem activate_cases (s : State) (p a : Nat) :
    activate s p a = s ∨ ∃ rows, activate s p a = neighbourDraw { s with dram := { s.dram with rows := rows } } := by
  unfold activate
  dsimp only
  split
  · exact .inl rfl
  · exact .inr ⟨_, rfl⟩

theorem activate_unmigrated (p a : Nat) (hs : s.Unmigrated m) : (activate s p a).Unmigrated m := by
  refine ⟨?_, ((activate_keeps ..).part .mem rfl).trans hs.2⟩
  rcases activate_cases s p a with h | ⟨rows, h⟩
  · rw [h, hs.1]
  · rw [h, neighbourDraw_mig]
    exact hs.1

theorem countCorrection_unmigrated (b : Nat) (hs : s.Unmigrated m) : (countCorrection s b).Unmigrated m := by
  unfold countCorrection
  dsimp only
  split
  · exact triggerRank_unmigrated _ _ hs
  · exact hs

theorem dramNote_unmigrated (b : Nat) (hs : s.Unmigrated m) : (dramNote s b).Unmigrated m := by
  have hact := activate_unmigrated (rankAt s b) b hs
  unfold dramNote
  dsimp only
  split
  · exact hact
  · split
    · exact poisonBlock_unmigrated b hact
    · split
      · split
        · exact countCorrection_unmigrated b hact
        · exact countCorrection_unmigrated b hact
      · exact hact

/-- A line read stores nothing while no rank migrates. -/
theorem readSpan_mem (x : Crosspoint) (h : s.dram.mig = none) : (readSpan s x).mem = s.mem := by
  have hshort : ∀ l : List Nat, (l.foldl ledgerNote s).mem = s.mem := fun l =>
    foldl_same (φ := State.mem) (fun t w => (ledgerNote_keeps t w).part .mem rfl) l s
  have hdeep : ∀ l : List Nat, (burstEnd (l.foldl dramNote (wakeDram s))).mem = s.mem := fun l =>
    ((burstEnd_keeps ..).part .mem rfl).trans (List.foldlRecOn l dramNote (motive := State.Unmigrated s.mem)
      (wakeDram_unmigrated ⟨h, rfl⟩) (fun _ ht b _ => dramNote_unmigrated b ht)).2
  have hmark : ∀ (t : State) (block cause : Nat), (t.mark block cause).mem = t.mem := fun _ _ _ => rfl
  unfold readSpan
  dsimp only
  split
  · split
    · rw [hmark, hshort]
    · exact hshort _
  · split
    · rw [hmark, hdeep]
    · exact hdeep _

end
end Sys2Proof.Machine

namespace Sys2Proof.Machine

section
variable (s : State)

/-- The engine that has taken the span of crosspoint `x` into its buffer; a stall on it ends (R140). -/
def Slide.filled (e : Slide) (p : Span) (q : Nat × Nat) : Slide :=
  { e with have_ := e.have_ ++ [p], stall := if (e.order.drop e.done).head? = some q then none else e.stall }

theorem spanDelivered_eq {i o f : Nat} {x : Crosspoint}
    (hx : s.pipe.xcur.find? (fun x => decide (x.o = o) && decide (x.f = f)) = some x)
    (hmem : (o, f) ∈ ((slideOf s i).order.take (slideOf s i).issued).drop (slideOf s i).done) (hh : (slideOf s i).holds (o, f) = false) :
    spanDelivered s i o f = readSpan (setSlide s i ((slideOf s i).filled (spanNow s x) (o, f))) x := by
  unfold spanDelivered
  rw [hx]
  dsimp only
  rw [if_pos (by rw [hh, List.contains_iff_mem.mpr hmem]; rfl)]
  rfl

theorem spanDelivered_idle {i o f : Nat}
    (h : (o, f) ∉ ((slideOf s i).order.take (slideOf s i).issued).drop (slideOf s i).done ∨ (slideOf s i).holds (o, f) = true) :
    spanDelivered s i o f = s := by
  unfold spanDelivered
  dsimp only
  split
  · rfl
  · refine if_neg ?_
    rcases h with h | h
    · simp [h]
    · simp [h]

theorem slideOf_of_delayWork {s t : State} (h : t.delayWork = s.delayWork) (i : Nat) : slideOf t i = slideOf s i :=
  congrArg (fun w : SMap Slide × SMap (List Int) => mget (slideInit i) w.1 i) h

theorem spanDelivered_gives {i o f : Nat} {x : Crosspoint}
    (hx : s.pipe.xcur.find? (fun x => decide (x.o = o) && decide (x.f = f)) = some x)
    (hmem : (o, f) ∈ ((slideOf s i).order.take (slideOf s i).issued).drop (slideOf s i).done) (hh : (slideOf s i).holds (o, f) = false) :
    let t := spanDelivered s i o f
    (slideOf t i).have_ = (slideOf s i).have_ ++ [spanNow s x] ∧ (slideOf t i).order = (slideOf s i).order ∧
    (slideOf t i).done = (slideOf s i).done ∧ (slideOf t i).issued = (slideOf s i).issued ∧
    (∀ j, j ≠ i → slideOf t j = slideOf s j) ∧ t.pipe.rendered = s.pipe.rendered ∧ t.clk = s.clk ∧
    (s.dram.mig = none → t.mem = s.mem) := by
  dsimp only
  rw [spanDelivered_eq s hx hmem hh]
  generalize he : (slideOf s i).filled (spanNow s x) (o, f) = e
  have hwork := readSpan_delayWork (setSlide s i e) x
  have hslide : slideOf (readSpan (setSlide s i e) x) i = e := by
    rw [slideOf_of_delayWork hwork, slideOf_setSlide_self]
  rw [hslide]
  refine ⟨by rw [← he]; rfl, by rw [← he]; rfl, by rw [← he]; rfl, by rw [← he]; rfl, fun j hj => ?_, (congrArg Prod.snd hwork :),
    ((readSpan_keeps (setSlide s i e) x).clk rfl :), fun hmig => readSpan_mem (s := setSlide s i e) x hmig⟩
  rw [slideOf_of_delayWork hwork, slideOf_setSlide_ne _ _ hj]

/-! RETIRE_SLIDE (R50, R523) -/

theorem mem_setAdd_self (x : Nat) (l : List Nat) : x ∈ setAdd x l := by
  unfold setAdd
  split
  · next h => exact List.contains_iff_mem.mp h
  · exact mem_insertBy.mpr (.inl rfl)

theorem slideOf_judgeSlides (i : Nat) : slideOf (judgeSlides s) i = slideOf s i := by
  unfold slideOf
  rw [(judgeSlides_keeps s).part .pipe rfl]

/-- The lowest spare. -/
def lowestSpare : Option Nat := (List.range 18).find? (fun j => decide ((slideOf s j).st = .spare))

/-- An engine that leaves service is none of the spares. -/
theorem lowestSpare_setSlide {i : Nat} {e : Slide} (hs : (slideOf s i).st = .inService) (he : e.st ≠ .spare) :
    lowestSpare (setSlide s i e) = lowestSpare s := by
  have hsame : ∀ j, decide ((slideOf (setSlide s i e) j).st = .spare) = decide ((slideOf s j).st = .spare) := fun j => by
    by_cases hj : j = i
    · subst hj
      simp [slideOf_setSlide_self, hs, he]
    · rw [slideOf_setSlide_ne _ _ hj]
  simp only [lowestSpare, hsame]

/-- The engine that leaves service for `st` holds it, and the lowest spare serves in its place. -/
theorem leaveService_gives {i : Nat} {st : SlideState} (hs : (slideOf s i).st = .inService) (hst : st ≠ .spare) :
    let t := leaveService s i st
    (slideOf t i).st = st ∧ ∀ j, lowestSpare s = some j → (slideOf t j).st = .inService := by
  unfold leaveService
  dsimp only
  rw [if_pos hs, ← lowestSpare, lowestSpare_setSlide s hs hst]
  cases hspare : lowestSpare s with
  | none => exact ⟨by rw [slideOf_judgeSlides, slideOf_setSlide_self], fun j h => nomatch h⟩
  | some k =>
    have hk : (slideOf s k).st = .spare := of_decide_eq_true (List.find?_some hspare :)
    have hki : i ≠ k := by
      rintro rfl
      exact nomatch hs.symm.trans hk
    refine ⟨?_, ?_⟩
    · rw [slideOf_judgeSlides, slideOf_setSlide_ne _ _ hki, slideOf_setSlide_self]
    · rintro j ⟨⟩
      rw [slideOf_judgeSlides, slideOf_setSlide_self]

theorem retireSlideCheck_ok {i : Nat} (hi : i < 18) (h : 15 ≤ (setDel i (usableSlides s)).length) : retireSlideCheck s i 1 = 0 := by
  simp [retireSlideCheck, firstCode, indexOk, boolOk, need, hi, h]

/-- The state with 7020+i:02 at 1 and engine `i` on the list of retired engines, which resets keep. -/
def retireStored (i : Nat) : State :=
  let s1 := s.putNv 0 (0x7020 + i) 0x02 1
  { s1 with nv := { s1.nv with slides := setAdd i s1.nv.slides } }

theorem retireSlideApply_serving {i : Nat} (hs : (slideOf s i).st = .inService) :
    retireSlideApply s i 1 = leaveService (retireStored s i) i .retired := by
  have hst : (slideOf (retireStored s i) i).st = .inService := hs
  have hstays : ¬ (decide ((slideOf (retireStored s i) i).st = .fenced) ||
      decide ((slideOf (retireStored s i) i).st = .retired)) = true := by
    rw [hst]
    decide
  exact if_neg hstays

theorem execRetireSlide_gives {i : Nat} (hi : i < 18) (hg : s.gate (0x7020 + i) = 0) (hs : (slideOf s i).st = .inService)
    (h : 15 ≤ (setDel i (usableSlides s)).length) : Gives (.retireSlide i 1) s (fun t => (slideOf t i).st = .retired ∧
      i ∈ t.nv.slides ∧ t.val 0 (0x7020 + i) 0x02 = 1 ∧ ∀ j, lowestSpare s = some j → (slideOf t j).st = .inService) := by
  obtain ⟨hst, hspare⟩ := leaveService_gives (retireStored s i) (st := .retired) hs (by decide)
  refine ⟨leaveService (retireStored s i) i .retired, ?_, hst, ?_, ?_, hspare⟩
  · simp only [exec, execRetireSlide, done, State.attempt, retireSlideCheck_ok s hi h, hg, if_true, retireSlideApply_serving s hs]
  · rw [(leaveService_keeps ..).part .nv rfl]
    exact mem_setAdd_self ..
  · rw [State.val, (leaveService_keeps ..).part .dict rfl]
    exact mget_mset_self 0 s.dict _ 1

end
end Sys2Proof.Machine

namespace Sys2Proof.Machine

section
variable (s : State) (at_ : Nat)

theorem execSpanDelivered_open {i o f : Nat} (hr : (s.elapse at_).pipe.rendering = true) (hp : (s.elapse at_).pipe.published = true)
    (hi : i < 18) : exec (.spanDelivered at_ i o f) s = .next (spanDelivered (s.elapse at_) i o f) := by
  simp only [exec, execSpanDelivered, done, hr, hp, hi, decide_true, Bool.and_self, if_true]

theorem execSpanDelivered_idle {i o f : Nat} (h : (s.elapse at_).pipe.rendering = false ∨ (s.elapse at_).pipe.published = false ∨ 18 ≤ i ∨
    (o, f) ∉ ((slideOf (s.elapse at_) i).order.take (slideOf (s.elapse at_) i).issued).drop (slideOf (s.elapse at_) i).done ∨
      (slideOf (s.elapse at_) i).holds (o, f) = true) :
    exec (.spanDelivered at_ i o f) s = .next (s.elapse at_) := by
  by_cases hopen : ((s.elapse at_).pipe.rendering && (s.elapse at_).pipe.published && decide (i < 18)) = true
  · obtain ⟨hrp, hi⟩ := Bool.and_eq_true_iff.mp hopen
    obtain ⟨hr, hp⟩ := Bool.and_eq_true_iff.mp hrp
    have hi := of_decide_eq_true hi
    rw [execSpanDelivered_open s at_ hr hp hi, spanDelivered_idle]
    rcases h with h | h | h | h
    · exact nomatch hr.symm.trans h
    · exact nomatch hp.symm.trans h
    · omega
    · exact h
  · exact congrArg Host.Outcome.next (if_neg hopen)

theorem execFeedRender_open {f : Nat} (h : dmOpen (s.elapse at_) = true) :
    exec (.feedRender at_ f) s = .next (renderFeed (s.elapse at_) f) := by
  simp only [exec, execFeedRender, done, h, if_true]

theorem execFeedRender_idle {f : Nat} (h : dmOpen (s.elapse at_) = false ∨ engineAt (s.elapse at_) f = none) :
    exec (.feedRender at_ f) s = .next (s.elapse at_) := by
  cases hopen : dmOpen (s.elapse at_) with
  | false => simp only [exec, execFeedRender, done, hopen, Bool.false_eq_true, if_false]
  | true =>
    have hnone := h.resolve_left (fun h => nomatch hopen.symm.trans h)
    rw [execFeedRender_open s at_ hopen, renderFeed, hnone]

end

/-- Settles O37: each command answers what the laws above say of its work, after time has run on to its instant. -/
theorem renderWork : Obligations.RenderWork := by
  intro s at_ i o f
  refine ⟨?_, fun missed pdm ht hn hc => ?_, fun missed pdm ht => ?_, execRetireSlide_gives s⟩
  · rintro u rfl e work
    refine ⟨fun x hr hp hi hx hmem hh => ?_, execSpanDelivered_idle s at_,
      fun hopen hi hnodup => ⟨fun hheld => ?_, fun k q hq hheld hmiss => ?_⟩, execFeedRender_idle s at_⟩
    · obtain ⟨hhave, horder, hdone, hissued, hother, hrendered, hclk, hmem'⟩ := spanDelivered_gives (s.elapse at_) hx hmem hh
      exact ⟨_, execSpanDelivered_open s at_ hr hp hi, hhave, horder, hdone, hissued, hother, hrendered, hclk,
        fun hmig => (hmem' hmig).trans (State.elapse_mem ..)⟩
    · obtain ⟨hblock, hothers, hdone, hstall, hmem⟩ := renderFeed_whole (s.elapse at_) hi hnodup hheld
      exact ⟨_, execFeedRender_open s at_ hopen, hblock, hothers, hdone, hstall, hmem.trans (State.elapse_mem ..)⟩
    · obtain ⟨hrendered, hstall, hdone, hissued, hmem⟩ := renderFeed_stalls (s.elapse at_) hi hnodup hq hheld hmiss
      exact ⟨_, execFeedRender_open s at_ hopen, hrendered, hstall, hdone, hissued, hmem.trans (State.elapse_mem ..)⟩
  · obtain ⟨t, hexec, hin, ⟨hmiss, hnone⟩, hagain⟩ := execIngressCommit_gives s missed pdm ht hn hc
    unfold ingressInputs ingressTaken at hin
    refine ⟨t, hexec, hin, fun h => hnone ?_, hmiss, hagain⟩
    rintro ⟨x, hx, hmissed⟩
    exact h x hx hmissed
  · simp only [exec, execIngressCommit, done, ht, Bool.false_eq_true, if_false]

end Sys2Proof.Machine

namespace Sys2Proof.Machine

/-! What entries and tables read as beside what was written -/

theorem satAdd_eq_min (top a b : Nat) : satAdd top a b = min (a + b) top := by
  unfold satAdd
  split <;> omega

section
variable (s : State)

theorem State.stget_stset_ne (d e v : Nat) {i sub j k : Nat} (h : key j k ≠ key i sub) :
    (s.stset d i sub v).stget e j k = s.stget e j k := mget_mset_other _ _ _ _ h

theorem State.val_put_ne (d e v : Nat) {i sub j k : Nat} (h : key j k ≠ key i sub) :
    (s.put d i sub v).val e j k = s.val e j k := mget_mset_other _ _ _ _ h

@[simp] theorem State.stget_bump_self (i sub n : Nat) :
    (s.bump i sub n).stget 0 i sub = min (s.stget 0 i sub + n) (2 ^ 32 - 1) := by
  simp only [State.stget, State.bump, mmod, mget_mset_self, satAdd_eq_min]

theorem State.stget_bump_ne (n e : Nat) {i sub j k : Nat} (h : key j k ≠ key i sub) :
    (s.bump i sub n).stget e j k = s.stget e j k := mget_mset_other _ _ _ _ h

theorem State.bump_counts (i sub n : Nat) : Counts s (s.bump i sub n) i sub n :=
  ⟨s.stget_bump_self i sub n, fun _ _ h => s.stget_bump_ne n 0 h⟩

/-! Events and Holdover beside the parts that they change -/

@[simp] theorem State.raise_time (src a b : Nat) : (s.raise src a b).time = s.time := (State.raise_keeps ..).part .time rfl
@[simp] theorem State.raise_stat (src a b : Nat) : (s.raise src a b).stat = s.stat := (State.raise_keeps ..).part .stat rfl
@[simp] theorem State.raise_twin (src a b : Nat) : (s.raise src a b).twin = s.twin := (State.raise_keeps ..).part .twin rfl
@[simp] theorem State.enter_time (src i a : Nat) : (s.enter src i a).time = s.time := (State.enter_keeps ..).part .time rfl
@[simp] theorem State.leaveHoldover_time : s.leaveHoldover.time = s.time := (State.leaveHoldover_keeps ..).part .time rfl
@[simp] theorem State.leaveHoldover_dict : s.leaveHoldover.dict = s.dict := (State.leaveHoldover_keeps ..).part .dict rfl
@[simp] theorem State.enterHoldover_dict : s.enterHoldover.dict = s.dict := (State.enterHoldover_keeps ..).part .dict rfl

@[simp] theorem State.raise_stget (src a b d i sub : Nat) : (s.raise src a b).stget d i sub = s.stget d i sub := by
  simp only [State.stget, State.raise_stat]

/-- The time unit in Holdover (R84): its rate is led to the mean frequency, and no measurement, decision or confirmation is left. -/
theorem State.enterHoldover_time : s.enterHoldover.time = { s.time with
    state := .holdover, target := s.time.meanFreq, freq := s.time.meanFreq, phase := 0, cons := [], decided := none,
    holdTick := s.clk.tick, await := false } := State.enter_time ..

theorem State.enterHoldover_clk :
    s.enterHoldover.clk = if s.time.state = .rebaseConfirm then { s.clk with rebase := none } else s.clk := State.enter_clk ..

/-! Time runs on: the entries in force -/

@[simp] theorem State.elapse_val (at_ d i sub : Nat) : (s.elapse at_).val d i sub = s.val d i sub := by
  simp only [State.val, State.elapse_dict]

/-! A frame that arrived on a port, counted there where that port is no ring port (R346) -/

/-- The state after a frame has come in on port `p`. -/
def State.arrived (p : Nat) : State := if 2 ≤ p then s.heard p else s

theorem State.arrived_eq (p : Nat) : s.arrived p = { s with stat := (s.arrived p).stat } := by
  unfold State.arrived
  split <;> rfl

theorem State.arrived_keeps (p : Nat) : Keeps [.stat] s (s.arrived p) := by
  rw [State.arrived_eq]
  exact keeps_stat rfl (Keeps.refl _ _)

@[simp] theorem State.arrived_clk (p : Nat) : (s.arrived p).clk = s.clk := (s.arrived_keeps p).clk rfl
@[simp] theorem State.arrived_time (p : Nat) : (s.arrived p).time = s.time := (s.arrived_keeps p).part .time rfl
@[simp] theorem State.arrived_dict (p : Nat) : (s.arrived p).dict = s.dict := (s.arrived_keeps p).part .dict rfl
@[simp] theorem State.arrived_out (p : Nat) : (s.arrived p).out = s.out := (s.arrived_keeps p).part .out rfl

theorem State.arrived_stget_ne {p i sub : Nat} (h : key i sub ≠ key (0x2110 + p) 0x04) (d : Nat) :
    (s.arrived p).stget d i sub = s.stget d i sub := by
  unfold State.arrived
  split
  · exact s.stget_bump_ne _ _ h
  · rfl

/-- The time unit's own entries lie below those of the ports. -/
theorem State.arrived_stget_time (p d sub : Nat) (h : sub < 256) : (s.arrived p).stget d 0x2010 sub = s.stget d 0x2010 sub :=
  s.arrived_stget_ne (by simp only [key]; omega) d

/-! Writes under their checks (R430, R437) -/

theorem State.attempt_takes {i code : Nat} (eff : State → State) (hcode : code = 0) (hgate : s.gate i = 0) :
    s.attempt i code eff = eff s := by
  rw [State.attempt, if_pos hcode, if_pos hgate]

theorem State.attempt_refuses (i : Nat) {code : Nat} (eff : State → State) (hcode : code ≠ 0) :
    s.attempt i code eff = s.abort code := if_neg hcode

end

theorem rangeOk_in {v lo hi : Int} (hlo : lo ≤ v) (hhi : v ≤ hi) : rangeOk v lo hi = 0 := by
  simp [rangeOk, need, hlo, hhi]

theorem rangeOk_out {v lo hi : Int} (h : v < lo ∨ hi < v) : rangeOk v lo hi = Abort.range := by
  have hout : ¬ (lo ≤ v ∧ v ≤ hi) := by omega
  simp [rangeOk, need, hout]

end Sys2Proof.Machine

namespace Sys2Proof.Machine

/-! ANNOUNCE_RECEIVED (R61, R62, R65, R85) -/

section
variable (s : State) (a : Announce)

theorem announce_unheard (h : announceHeard s a = false) : announce s a = s := by
  simp only [announce, h, Bool.not_false, if_true]

theorem announce_not_better (hstate : s.time.state = .grandmaster) (h : beatsGrandmaster s a = false) : announce s a = s := by
  simp only [announce, hstate, h, decide_true, Bool.not_false, Bool.and_self, if_true, ite_self]

theorem announce_no_master (hheard : announceHeard s a = true) (hm : s.time.master = none) (hstate : s.time.state ≠ .grandmaster) :
    announce s a = candidateHeard s a (selects s a) := by
  simp only [announce, hheard, hstate, hm, decide_false, Bool.not_true, Bool.false_and, Bool.false_eq_true, if_false]

theorem announce_of_master {m : Master} (hheard : announceHeard s a = true) (hm : s.time.master = some m)
    (hstate : s.time.state ≠ .grandmaster) (hid : m.ann.identity = a.identity) :
    announce s a = keepCandidate (masterHeard s m a) := by
  simp only [announce, hheard, hstate, hm, hid, decide_false, Bool.not_true, Bool.false_and, Bool.false_eq_true, if_false, if_true]

theorem candidateHeard_first (better : Announce → Bool) (hc : s.time.cand = none) :
    candidateHeard s a better = { s with time := { s.time with cand := some (candidate s a 1) } } := by
  simp only [candidateHeard, hc]

theorem candidateHeard_again {c : Master} (better : Announce → Bool) (hc : s.time.cand = some c)
    (hid : c.ann.identity = a.identity) (hport : c.ann.port = a.port) :
    candidateHeard s a better = { s with time := { s.time with cand := some { c with ann := a, heard := c.heard + 1 } } } := by
  simp only [candidateHeard, hc, hid, heldAnnounce, hport, decide_true, Bool.true_or, if_true]

theorem masterHeard_on_port {m : Master} (ho : s.time.other = none) (hport : m.ann.port = a.port) :
    masterHeard s m a = masterPort s m a none := by
  simp only [masterHeard, ho, hport, if_true]

theorem keepCandidate_eq {m : Master} (hm : s.time.master = some m) :
    keepCandidate s = { s with time := { s.time with cand := s.time.cand.filter (fun c => selects s c.ann m.ann) } } := by
  have hsame : ∀ x, s.time.cand = x → s = { s with time := { s.time with cand := x } } := by
    rintro _ rfl
    rfl
  unfold keepCandidate
  cases hc : s.time.cand with
  | none =>
    rw [hm]
    exact hsame none hc
  | some c =>
    rw [hm, Option.filter_some]
    dsimp only
    split
    · exact hsame (some c) hc
    · rfl

@[simp] theorem announceHeard_arrived (p : Nat) : announceHeard (s.arrived p) a = announceHeard s a := by
  rw [State.arrived_eq]; rfl

@[simp] theorem beatsGrandmaster_arrived (p : Nat) : beatsGrandmaster (s.arrived p) a = beatsGrandmaster s a := by
  rw [State.arrived_eq]; rfl

@[simp] theorem selects_arrived (p : Nat) (b : Announce) : selects (s.arrived p) a b = selects s a b := by
  rw [State.arrived_eq]; rfl

theorem execAnnounceReceived_eq (at_ : Nat) :
    exec (.announceReceived at_ a) s = .next (announce ((s.elapse at_).arrived a.port) a) := rfl

/-- An Announce of the selected master on its port, with no other port to take it from (R62). -/
theorem announce_refreshes {m : Master} (hheard : announceHeard s a = true) (hm : s.time.master = some m)
    (hstate : s.time.state ≠ .grandmaster) (ho : s.time.other = none) (hid : m.ann.identity = a.identity)
    (hport : m.ann.port = a.port) : let t := announce s a
    t.time = { s.time with master := some { m with ann := a }, other := none,
                           cand := s.time.cand.filter (fun c => selects s c.ann a) } ∧
    t.stget 0 0x2010 0x09 = a.steps := by
  rw [announce_of_master s a hheard hm hstate hid, masterHeard_on_port s a ho hport, keepCandidate_eq _ rfl]
  exact ⟨rfl, (State.stget_stset_ne _ _ _ _ (by decide)).trans (stget_stset ..)⟩

theorem execAnnounceReceived_unchanged (at_ : Nat) (h : announceHeard (s.elapse at_) a = false ∨
    (s.elapse at_).time.state = .grandmaster ∧ beatsGrandmaster (s.elapse at_) a = false) :
    exec (.announceReceived at_ a) s = .next ((s.elapse at_).arrived a.port) := by
  rw [execAnnounceReceived_eq]
  rcases h with h | ⟨hstate, h⟩
  · rw [announce_unheard _ _ (by rwa [announceHeard_arrived])]
  · rw [announce_not_better _ _ (by rwa [State.arrived_time]) (by rwa [beatsGrandmaster_arrived])]

end

/-! QUALIFICATION_END (R85) -/

section
variable (s : State)

/-- Whether the qualification window of candidate `c` has ended. -/
def windowEnded (c : Master) : Prop := intervalTicks (announceLog s) c.window ≤ s.clk.tick - c.since

theorem qualify_no_candidate (hc : s.time.cand = none) : qualify s = s := by simp only [qualify, hc]

variable {c : Master} (hc : s.time.cand = some c)
include hc

theorem qualify_early (h : ¬ windowEnded s c) : qualify s = s := by
  simp only [qualify, hc, if_pos (Nat.not_le.mp h)]

theorem qualify_not_better (h : windowEnded s c) (hstate : s.time.state = .grandmaster) (hb : beatsGrandmaster s c.ann = false) :
    qualify s = { s with time := { s.time with cand := none } } := by
  simp only [qualify, hc, if_neg (Nat.not_lt.mpr h), hstate, hb, decide_true, Bool.not_false, Bool.and_self, if_true]

theorem qualify_restarts (h : windowEnded s c) (hstate : s.time.state ≠ .grandmaster) (hheard : c.heard < 2) :
    qualify s = { s with time := { s.time with cand := some (candidate s c.ann 0) } } := by
  simp only [qualify, hc, if_neg (Nat.not_lt.mpr h), hstate, hheard, decide_false, Bool.false_and, Bool.false_eq_true, if_false, if_true]

/-- The first qualification leads to Acquiring where render is disabled; any other one awaits the confirmation of its first Sync. -/
theorem qualify_selects (h : windowEnded s c) (hstate : s.time.state ≠ .grandmaster) (hheard : 2 ≤ c.heard) : let t := qualify s
    let first := !s.time.qualified && !s.flag 0x1100 0x03
    t.time.master = some c ∧ t.time.cand = none ∧ t.time.qualified = true ∧ t.stget 0 0x2010 0x08 = c.ann.identity ∧
    t.clk = s.clk ∧ t.time.await = !first ∧ (first = true → t.time.state = .acquiring) := by
  have hread : ∀ (u : State) (id x y : Nat),
      (((u.stset 0 0x2010 0x08 id).stset 0 0x2010 0x09 x).stset 0 0x2010 0x07 y).stget 0 0x2010 0x08 = id := fun u id x y => by
    rw [State.stget_stset_ne _ _ _ _ (by decide), State.stget_stset_ne _ _ _ _ (by decide), stget_stset]
  simp only [qualify, hc, if_neg (Nat.not_lt.mpr h), if_neg (Nat.not_lt.mpr hheard), hstate, decide_false, Bool.false_and,
    Bool.false_eq_true, if_false, State.raise_time, State.raise_clk, State.raise_stget, State.stset_time, State.stset_clk, hread]
  cases (!s.time.qualified && !s.flag 0x1100 0x03) <;> simp

end

/-! The selected master lost (R84, R85) -/

section
variable (s : State) {m : Master}

/-- Out of Holdover and Grandmaster a lost master leads to Holdover. -/
theorem loseMaster_eq (still : Bool) (hm : s.time.master = some m) (hstate : s.time.state ∈ [TimeState.free, .acquiring, .locked]) :
    loseMaster s still = ({ s with time := { s.time with
      master := none, other := none, await := false, cand := if still then some (candidate s m.ann 0) else none } } : State).enterHoldover := by
  simp only [List.mem_cons, List.not_mem_nil, or_false] at hstate
  rcases hstate with h | h | h <;> simp only [loseMaster, hm, h]

/-- What the loss leaves: the rate is led to the mean frequency of the last Syncs, and the clock runs on. -/
theorem loseMaster_gives (still : Bool) (hm : s.time.master = some m)
    (hstate : s.time.state ∈ [TimeState.free, .acquiring, .locked]) : let t := loseMaster s still
    t.time.master = none ∧ t.time.cand = (if still then some (candidate s m.ann 0) else none) ∧ t.time.state = .holdover ∧
    t.time.target = s.time.meanFreq ∧ t.time.rate = s.time.rate ∧ t.time.holdTick = s.clk.tick ∧ t.clk = s.clk := by
  have hconfirm : s.time.state ≠ .rebaseConfirm := fun h => absurd (h ▸ hstate) (by decide)
  rw [loseMaster_eq s still hm hstate]
  simp only [State.enterHoldover_time, State.enterHoldover_clk, hconfirm, if_false, TimeUnit.meanFreq, and_self]

theorem mayGrandmaster_forbidden (h : s.flag 0x2000 0x0A = false) : mayGrandmaster s = false := by
  simp only [mayGrandmaster, h, Bool.false_and]

/-- The timeout on the only port that has the master, where the module may not become Grandmaster (R65). -/
theorem announceTimeout_loses (hm : s.time.master = some m) (ho : s.time.other = none) (hpermit : s.flag 0x2000 0x0A = false)
    (hstate : s.time.state ∈ [TimeState.free, .acquiring, .locked]) : let u := loseMaster s false
    announceTimeout s m.ann.port = { u with time := { u.time with quiet := true } } := by
  obtain ⟨hmaster, -, hhold, -⟩ := loseMaster_gives s false hm hstate
  have hdict : (loseMaster s false).dict = s.dict := (loseMaster_keeps s false).part .dict rfl
  have hmay : ∀ t : TimeUnit, mayGrandmaster { loseMaster s false with time := t } = false := fun t =>
    mayGrandmaster_forbidden _ (by rwa [State.flag, State.val, hdict])
  simp only [announceTimeout, hm, ho, Option.filter_none, leavePort, ne_eq, not_true_eq_false, if_false, hmaster,
    Option.isNone_none, Bool.or_true, hhold, hmay, Bool.false_eq_true]

theorem execSyncLoss_idle (h : s.time.master = none ∨ followsTwin s = true) : exec .syncLoss s = .next s := by
  by_cases hf : followsTwin s = true
  · simp only [exec, execSyncLoss, done, hf, if_true]
  · have hm := h.resolve_right hf
    simp only [exec, execSyncLoss, done, hf, Bool.false_eq_true, if_false, loseMaster, hm]

theorem execSyncLoss_loses (hf : followsTwin s = false) : exec .syncLoss s = .next (loseMaster s true) := by
  simp only [exec, execSyncLoss, done, hf, Bool.false_eq_true, if_false]

end

/-! DELAY_MEASUREMENT_COMPLETE (R83) -/

section
variable (s : State) (port d : Nat)

/-- The state with the mean path delay of a port recorded. -/
def withDelay : State :=
  let t := s.arrived port
  { t with time := { t.time with mpd := mset none t.time.mpd port (some d) } }

theorem withDelay_mpd : (withDelay s port d).time.mpd = mset none s.time.mpd port (some d) := by
  simp only [withDelay, State.arrived_time]

theorem withDelay_state : (withDelay s port d).time.state = s.time.state := by
  simp only [withDelay, State.arrived_time]

theorem execDelayMeasurementComplete_eq : exec (.delayMeasurementComplete port d) s = .next (
    if masterAt s port then (withDelay s port d).stset 0 0x2010 0x07 d else withDelay s port d) := by
  have hexec : exec (.delayMeasurementComplete port d) s = .next (
      match s.time.master with
      | some m => if m.ann.port = port then (withDelay s port d).stset 0 0x2010 0x07 d else withDelay s port d
      | none => withDelay s port d) := rfl
  rw [hexec, masterAt]
  cases s.time.master <;> simp

theorem execDelayMeasurementComplete_gives (m : Master) : Gives (.delayMeasurementComplete port d) s (fun t =>
    mget none t.time.mpd port = some d ∧ (∀ p, p ≠ port → mget none t.time.mpd p = mget none s.time.mpd p) ∧
    t.time.state = s.time.state ∧ (s.time.master = some m → m.ann.port = port → t.stget 0 0x2010 0x07 = d)) := by
  have hgives : ∀ t : State, t.time = (withDelay s port d).time →
      mget none t.time.mpd port = some d ∧ (∀ p, p ≠ port → mget none t.time.mpd p = mget none s.time.mpd p) ∧
      t.time.state = s.time.state := by
    intro t ht
    rw [ht, withDelay_mpd, withDelay_state]
    exact ⟨mget_mset_self .., fun p hp => mget_mset_ne _ _ _ _ _ hp, rfl⟩
  refine ⟨_, execDelayMeasurementComplete_eq s port d, ?_⟩
  split
  · obtain ⟨hport, hother, hstate⟩ := hgives _ (State.stset_time ..)
    exact ⟨hport, hother, hstate, fun _ _ => stget_stset ..⟩
  · next hat =>
    obtain ⟨hport, hother, hstate⟩ := hgives _ rfl
    exact ⟨hport, hother, hstate, fun hm hp => absurd (by simp only [masterAt, hm, hp, decide_true]) hat⟩

end

/-- Settles O39: each command answers what the laws above say, after time has run on to its instant. -/
theorem masterSelection : Obligations.MasterSelection := by
  intro s at_ port d a c m window
  refine ⟨?_, fun hc hend => ⟨fun hstate hb => ?_, fun hstate hheard => ?_, fun hstate hheard => ?_⟩, fun hc => ?_,
    fun hc hlt => ?_, fun hm hstate ho hpermit => ?_, fun hm hstate hf => ?_, execSyncLoss_idle s,
    execDelayMeasurementComplete_gives s port d m⟩
  · rintro u rfl
    refine ⟨fun hheard hm hstate => ⟨fun hc => ?_, fun hc hid hport => ?_⟩, fun hheard hm hstate ho hid hport => ?_,
      fun _ hstate hb => execAnnounceReceived_unchanged s a at_ (.inr ⟨hstate, hb⟩),
      fun hheard => execAnnounceReceived_unchanged s a at_ (.inl hheard)⟩
    all_goals
      rw [← announceHeard_arrived _ a a.port] at hheard
      rw [← State.arrived_time _ a.port] at hm hstate
      refine ⟨_, execAnnounceReceived_eq s a at_, ?_⟩
    · rw [announce_no_master _ a hheard hm hstate, candidateHeard_first _ a _ (by rwa [State.arrived_time])]
      simp [candidate, State.val, window]
    · rw [announce_no_master _ a hheard hm hstate, candidateHeard_again _ a _ (by rwa [State.arrived_time]) hid hport]
      simp
    · obtain ⟨htime, hsteps⟩ := announce_refreshes _ a hheard hm hstate (by rwa [State.arrived_time]) hid hport
      simp [htime, hsteps]
  · exact ⟨_, rfl, qualify_not_better s hc hend hstate hb⟩
  · exact ⟨_, rfl, qualify_restarts s hc hend hstate hheard⟩
  · obtain ⟨hmaster, hcand, hqual, hid, hclk, hawait, hfirst⟩ := qualify_selects s hc hend hstate hheard
    refine ⟨_, rfl, hmaster, hcand, hqual, hid, hclk, fun hq hr => hfirst (by simp [hq, hr]), fun h => hawait.trans ?_⟩
    rcases h with h | h <;> simp [h]
  · exact congrArg Host.Outcome.next (qualify_no_candidate s hc)
  · exact congrArg Host.Outcome.next (qualify_early s hc (Nat.not_le.mpr hlt))
  · refine ⟨_, rfl, ?_⟩
    obtain ⟨hmaster, hcand, hhold, htarget, hrate, htick, hclk⟩ := loseMaster_gives s false hm hstate
    rw [announceTimeout_loses s hm ho hpermit hstate]
    exact ⟨hmaster, hcand, hhold, htarget, hrate, htick, hclk⟩
  · obtain ⟨hmaster, hcand, hhold, htarget, hrate, -, hclk⟩ := loseMaster_gives s true hm hstate
    exact ⟨_, execSyncLoss_loses s hf, hmaster, hcand, hhold, htarget, hrate, hclk⟩

end Sys2Proof.Machine

namespace Sys2Proof.Machine

/-! SYNC_RECEIVED (R66, R69, R81 to R86) -/

section
variable (s : State) (m : SyncMsg) (o : Int)

/-- The Standby's offset to the Active recorded, where it measures one by a Sync of the twin link (R66). -/
def twinNoted : State :=
  if m.port = 3 && twinMeasures s then { s with time := { s.time with twinOffs := some o } } else s

/-- The state in which the servo takes a Sync with offset `o`: the frame counted on its port, and the offset to the Active recorded. -/
def syncTaken : State := twinNoted (s.arrived m.port) m o

theorem twinNoted_keeps : Keeps [.time] s (twinNoted s m o) := by
  unfold twinNoted
  split
  · exact keeps_time rfl (Keeps.refl _ _)
  · exact Keeps.refl _ _

theorem twinNoted_time : (twinNoted s m o).time =
    if m.port = 3 ∧ twinMeasures s = true then { s.time with twinOffs := some o } else s.time := by
  simp only [twinNoted, Bool.and_eq_true, decide_eq_true_eq]
  split <;> rfl

theorem syncAccepted_twinNoted : syncAccepted (twinNoted s m o) m = syncAccepted s m := by
  unfold twinNoted
  split <;> rfl

theorem syncTaken_keeps : Keeps [.time, .stat] s (syncTaken s m o) :=
  Keeps.step (twinNoted_keeps ..) rfl ((s.arrived_keeps m.port).mono rfl)

@[simp] theorem syncTaken_clk : (syncTaken s m o).clk = s.clk := (syncTaken_keeps ..).clk rfl
@[simp] theorem syncTaken_dict : (syncTaken s m o).dict = s.dict := (syncTaken_keeps ..).part .dict rfl

theorem twinMeasures_arrived (p : Nat) : twinMeasures (s.arrived p) = twinMeasures s := by
  rw [State.arrived_eq]; rfl

theorem syncTaken_time : (syncTaken s m o).time =
    if m.port = 3 ∧ twinMeasures s = true then { s.time with twinOffs := some o } else s.time := by
  rw [syncTaken, twinNoted_time, twinMeasures_arrived, State.arrived_time]

theorem syncTaken_stget (d sub : Nat) (h : sub < 256) : (syncTaken s m o).stget d 0x2010 sub = s.stget d 0x2010 sub := by
  rw [State.stget, syncTaken, (twinNoted_keeps ..).part .stat rfl]
  exact s.arrived_stget_time m.port d sub h

@[simp] theorem syncAccepted_arrived (p : Nat) : syncAccepted (s.arrived p) m = syncAccepted s m := by
  rw [State.arrived_eq]; rfl

/-- A Sync on a ring port that is not accepted changes nothing beside the time that runs on. -/
theorem execSyncReceived_rejected (at_ : Nat) (hport : m.port < 2) (h : syncAccepted (s.elapse at_) m = false) :
    exec (.syncReceived at_ m) s = .next (s.elapse at_) := by
  have hring : ¬ 2 ≤ m.port := Nat.not_le.mpr hport
  have htwin : m.port ≠ 3 := by omega
  simp only [exec, execSyncReceived, done, hring, if_false, syncReceived, htwin, decide_false, Bool.false_and, Bool.false_eq_true, h,
    Bool.not_false, Bool.true_or, if_true]

theorem syncReceived_accepted {delay : Nat} (hacc : syncAccepted s m = true) (hd : mget none s.time.mpd m.port = some delay) :
    syncReceived s m = syncStep (twinNoted s m (syncOffset s m delay)) (m.port = 3) (syncOffset s m delay) := by
  have heq : syncReceived s m =
      (let delay := mget none s.time.mpd m.port
       let o := syncOffset s m (delay.getD 0)
       let t := twinNoted s m o
       if !syncAccepted t m || (t.time.state = .acquiring && delay.isNone) then t else syncStep t (m.port = 3) o) := rfl
  rw [heq]
  simp only [hd, Option.getD_some, syncAccepted_twinNoted, hacc, Option.isNone_some, Bool.and_false, Bool.not_true, Bool.or_false,
    Bool.false_eq_true, if_false]

theorem syncOffset_arrived (p delay : Nat) : syncOffset (s.arrived p) m delay = syncOffset s m delay := by
  rw [State.arrived_eq]; rfl

/-- An accepted Sync of a port whose path delay is measured goes to the servo. -/
theorem execSyncReceived_accepted (at_ : Nat) {delay : Nat} (hacc : syncAccepted (s.elapse at_) m = true)
    (hd : mget none (s.elapse at_).time.mpd m.port = some delay) : let u := s.elapse at_
    exec (.syncReceived at_ m) s =
      .next (syncStep (syncTaken u m (syncOffset u m delay)) (m.port = 3) (syncOffset u m delay)) := by
  have hexec : exec (.syncReceived at_ m) s = .next (syncReceived ((s.elapse at_).arrived m.port) m) := rfl
  rw [hexec, syncReceived_accepted _ m ((syncAccepted_arrived _ m _).trans hacc) (by rwa [State.arrived_time]), syncOffset_arrived]
  rfl

@[simp] theorem syncTaken_state : (syncTaken s m o).time.state = s.time.state := by rw [syncTaken_time]; split <;> rfl
@[simp] theorem syncTaken_await : (syncTaken s m o).time.await = s.time.await := by rw [syncTaken_time]; split <;> rfl
@[simp] theorem syncTaken_setDone : (syncTaken s m o).time.setDone = s.time.setDone := by rw [syncTaken_time]; split <;> rfl
@[simp] theorem syncTaken_decided : (syncTaken s m o).time.decided = s.time.decided := by rw [syncTaken_time]; split <;> rfl
@[simp] theorem syncTaken_freq : (syncTaken s m o).time.freq = s.time.freq := by rw [syncTaken_time]; split <;> rfl

end

/-! An accepted Sync in each time state -/

section
variable (s : State) (o : Int)

/-- 2010:05 shows the offset (R81). -/
def offsetShown : State := s.stset 0 0x2010 0x05 (arg32 o)

/-- The offset shown and taken by the servo (R81). -/
def disciplined : State := { offsetShown s o with time := servo s.time (s.val 2 0x2000 0x0E) o }

/-- The counter set by the offset in Acquiring (R83). -/
def counterSet : State :=
  let t := setCounter (disciplined s o) (s.clk.local + o)
  ({ t with time := { t.time with setDone := true } } : State).bump 0x2010 0x0F 1

variable (twin : Bool)

theorem syncStep_disciplines (hstate : s.time.state = .locked) (hawait : s.time.await = false) (ho : iabs o ≤ 1000) :
    syncStep s twin o = disciplined s o := by
  simp only [syncStep, State.stset_time, hstate, hawait, ho, if_true, Bool.false_eq_true, if_false]
  rfl

theorem syncStep_challenges (hstate : s.time.state = .locked) (ho : 1000 < iabs o) :
    syncStep s twin o = enterConfirm (offsetShown s o) o := by
  simp only [syncStep, State.stset_time, hstate, not_le.mpr ho, if_false]
  rfl

theorem syncStep_sets (hstate : s.time.state = .acquiring) (hset : s.time.setDone = false) (hrender : s.flag 0x1100 0x03 = false) :
    syncStep s twin o = counterSet s o := by
  have hflag : (s.stset 0 0x2010 0x05 (arg32 o)).flag 0x1100 0x03 = false := hrender
  simp only [syncStep, State.stset_time, hstate, hset, Bool.false_and, Bool.false_eq_true, if_false, hflag]
  rfl

theorem syncStep_locks (hstate : s.time.state = .acquiring) (hset : s.time.setDone = true) (ho : iabs o ≤ 1000) :
    syncStep s twin o = enterLocked (offsetShown s o) o := by
  simp only [syncStep, State.stset_time, hstate, hset, ho, decide_true, Bool.and_self, if_true]
  rfl

theorem syncStep_confirms (hstate : s.time.state = .rebaseConfirm) (hawait : s.time.await = false) :
    syncStep s twin o = confirmStep (offsetShown s o) o := by
  simp only [syncStep, State.stset_time, hstate, hawait, Bool.false_and, Bool.false_eq_true, if_false]
  rfl

theorem enterConfirm_gives : let t := enterConfirm s o
    t.time.state = .rebaseConfirm ∧ t.time.cons = [o] ∧ t.time.target = s.time.freq ∧ t.clk = s.clk :=
  ⟨rfl, rfl, congrArg TimeUnit.freq (State.leaveHoldover_time s), State.leaveHoldover_clk s⟩

theorem enterLocked_gives : (enterLocked s o).time.state = .locked ∧ (enterLocked s o).time.await = false ∧
    (enterLocked s o).clk = s.clk := ⟨rfl, rfl, State.leaveHoldover_clk s⟩

/-- An offset within 1,000 ns ends Rebase-confirm, where no rebase is decided (R86). -/
theorem confirmStep_returns (hd : s.time.decided = none) (hr : s.clk.rebase = none) (ho : iabs o ≤ 1000) : let t := confirmStep s o
    t.time.state = .locked ∧ t.time.cons = [] ∧ t.clk = s.clk ∧
    t.stget 0 0x2010 0x0E = min (s.stget 0 0x2010 0x0E + 1) (2 ^ 32 - 1) := by
  simp only [confirmStep, hd, hr, ho, Option.isSome_none, Bool.or_self, Bool.false_eq_true, if_false, if_true, State.raise_time,
    State.raise_clk, State.raise_stget, State.stget_bump_self]
  exact ⟨rfl, rfl, rfl, rfl⟩

/-- The counter takes a local time of its 64 bits whole (R58). -/
theorem setCounter_local {l : Int} (h0 : 0 ≤ l) (h64 : l < 2 ^ 64) : (setCounter s l).clk.local = l := by
  lift l to Nat using h0
  have hhigh : l / 2 ^ 32 < 2 ^ 32 := Nat.div_lt_of_lt_mul (by exact_mod_cast h64)
  simp only [setCounter, Clock.local, b2n, Int.toNat_natCast, BitVec.toNat_ofNat, Bool.false_eq_true, if_false, Nat.add_zero,
    Nat.mod_eq_of_lt hhigh]
  exact_mod_cast Nat.div_add_mod' l (2 ^ 32)

theorem counterSet_gives (h0 : 0 ≤ s.clk.local + o) (h64 : s.clk.local + o < 2 ^ 64) : let t := counterSet s o
    t.clk.local = s.clk.local + o ∧ t.clk.wrapPend = false ∧ t.time.setDone = true ∧ t.time.state = s.time.state :=
  ⟨setCounter_local _ h0 h64, rfl, rfl, rfl⟩

end

/-! The rebase (R87 to R92, R97) -/

section
variable (s : State)

theorem decideRebase_gives (e : Int) (b : Nat) : let t := decideRebase s e b
    t.clk = { s.clk with rebase := some (e, b) } ∧ t.time.decided = none ∧ t.twin = s.twin ∧ t.stget 0 0x2010 0x0C = b ∧
    t.stget 0 0x2010 0x0B = min (s.stget 0 0x2010 0x0B + 1) (2 ^ 32 - 1) := by
  have hblock : ∀ (u : State) (x : Nat), ((u.stset 0 0x2010 0x0C b).stset 0 0x2010 0x0D x).stget 0 0x2010 0x0C = b := fun u x => by
    rw [State.stget_stset_ne _ _ _ _ (by decide), stget_stset]
  have hcount : ∀ (u : State) (x y : Nat), ((u.stset 0 0x2010 0x0C x).stset 0 0x2010 0x0D y).stget 0 0x2010 0x0B =
      u.stget 0 0x2010 0x0B := fun u x y => by
    rw [State.stget_stset_ne _ _ _ _ (by decide), State.stget_stset_ne _ _ _ _ (by decide)]
  simp only [decideRebase, State.raise_clk, State.raise_time, State.raise_twin, State.raise_stget, hblock, hcount, State.stget_bump_self,
    true_and]
  exact ⟨rfl, rfl, rfl, rfl⟩

theorem armPulse_state (n : Nat) (after : Int) : (armPulse s n after).time.state = s.time.state := by
  unfold armPulse
  dsimp only
  split
  · rfl
  · split <;> rfl
  · rfl

theorem rebasePulse_state (n : Nat) : (rebasePulse s n).time.state = s.time.state := by
  unfold rebasePulse
  dsimp only
  split
  · split <;> rfl
  · exact armPulse_state ..

theorem rebaseApply_early {e : Int} {b : Nat} (hr : s.clk.rebase = some (e, b)) (h : s.clk.tick < b) : rebaseApply s = s := by
  simp only [rebaseApply, hr, h, if_true]

/-- At block `b` the new offset is in force, and Rebase-confirm is Locked again; the outputs armed anew change neither. -/
theorem rebaseApply_gives {e : Int} {b : Nat} (hr : s.clk.rebase = some (e, b)) (h : b ≤ s.clk.tick) : let t := rebaseApply s
    t.clk = { s.clk with epochPrev := s.clk.epoch, epoch := e, epochB := b, rebase := none } ∧
    t.time.state = (if s.time.state = .rebaseConfirm then .locked else s.time.state) := by
  have hclk : ∀ (l : List Nat) (u : State), (l.foldl rebasePulse u).clk = u.clk :=
    foldl_same (φ := State.clk) (fun t n => (rebasePulse_keeps t n).clk rfl)
  have hstate : ∀ (l : List Nat) (u : State), (l.foldl rebasePulse u).time.state = u.time.state :=
    foldl_same (φ := fun t : State => t.time.state) rebasePulse_state
  simp only [rebaseApply, hr, not_lt.mpr h, if_false, hclk, hstate, and_self]

/-- From block `epochB` on the offset in force is the new one, before it the one before. -/
theorem Clock.epochFor_rebased {c : Clock} (hr : c.rebase = none) (x : Nat) :
    c.epochFor x = if x < c.epochB then c.epochPrev else c.epoch := by simp only [Clock.epochFor, hr]

theorem rebaseFallback_early {e : Int} {b d : Nat} (hd : s.time.decided = some (e, b, d)) (h : s.clk.tick < d + 2) :
    rebaseFallback s = s := by
  simp only [rebaseFallback, hd, not_le.mpr h, if_false]

theorem rebaseFallback_decides {e : Int} {b d : Nat} (hd : s.time.decided = some (e, b, d)) (h : d + 2 ≤ s.clk.tick) :
    rebaseFallback s = { decideRebase s e b with twin := { (decideRebase s e b).twin with
      marks := (decideRebase s e b).twin.marks ++ [(b, 6)] } } := by
  simp only [rebaseFallback, hd, h, if_true]

theorem execRebaseValuesReceived_standby (e : Int) (b : Nat) (h : s.twin.role = .standby) :
    exec (.rebaseValuesReceived e b) s = .next (decideRebase (s.heard 3) e b) := by
  simp only [exec, execRebaseValuesReceived, done, h, if_true]

theorem execRebaseValuesReceived_other (e : Int) (b : Nat) (h : s.twin.role ≠ .standby) :
    exec (.rebaseValuesReceived e b) s = .next s := by
  simp only [exec, execRebaseValuesReceived, done, h, if_false]

end

/-- Settles O40: the servo's laws at the instant of the Sync, and those of the rebase. -/
theorem servoAndRebase : Obligations.ServoAndRebase := by
  intro s at_ b d e m
  refine ⟨?_, ?_, fun hrole => ?_, execRebaseValuesReceived_other s e b, fun hd => ⟨fun h => ?_, fun h => ?_⟩,
    fun hr => ⟨fun h => ?_, fun h => ?_⟩⟩
  · rintro u delay rfl hacc hdelay o w
    have hexec := execSyncReceived_accepted s m at_ hacc hdelay
    refine ⟨fun hstate hawait ho => ⟨_, hexec, ?_⟩, fun hstate ho => ⟨_, hexec, ?_⟩,
      fun hstate hset hrender h0 h64 => ⟨_, hexec, ?_⟩, fun hstate hset ho => ⟨_, hexec, ?_⟩,
      fun hstate hawait hd hr ho => ⟨_, hexec, ?_⟩⟩
    · rw [syncStep_disciplines _ _ _ (by simpa using hstate) (by simpa using hawait) ho]
      refine ⟨?_, stget_stset .., syncTaken_clk ..⟩
      simp only [disciplined, syncTaken_time, State.val, syncTaken_dict, w, o]
    · rw [syncStep_challenges _ _ _ (by simpa using hstate) ho]
      obtain ⟨hconfirm, hcons, htarget, hclk⟩ := enterConfirm_gives (offsetShown (syncTaken (s.elapse at_) m o) o) o
      exact ⟨hconfirm, hcons, htarget.trans (syncTaken_freq ..), hclk.trans (syncTaken_clk ..)⟩
    · rw [syncStep_sets _ _ _ (by simpa using hstate) (by simpa using hset)
        (by rwa [State.flag, State.val, syncTaken_dict])]
      obtain ⟨hlocal, hpend, hdone, hkept⟩ := counterSet_gives (syncTaken (s.elapse at_) m o) o (by simpa using h0) (by simpa using h64)
      exact ⟨by simpa using hlocal, hpend, hdone, by simpa [hstate] using hkept⟩
    · rw [syncStep_locks _ _ _ (by simpa using hstate) (by simpa using hset) ho]
      obtain ⟨hlocked, hawait, hclk⟩ := enterLocked_gives (offsetShown (syncTaken (s.elapse at_) m o) o) o
      exact ⟨hlocked, hawait, hclk.trans (syncTaken_clk ..)⟩
    · rw [syncStep_confirms _ _ _ (by simpa using hstate) (by simpa using hawait)]
      obtain ⟨hlocked, hcons, hclk, hcount⟩ := confirmStep_returns (offsetShown (syncTaken (s.elapse at_) m o) o) o
        ((syncTaken_decided ..).trans hd) ((congrArg Clock.rebase (syncTaken_clk ..)).trans hr) ho
      refine ⟨hlocked, hcons, hclk.trans (syncTaken_clk ..), hcount.trans ?_⟩
      rw [offsetShown, State.stget_stset_ne _ _ _ _ (by decide), syncTaken_stget _ _ _ _ _ (by decide), State.elapse_stget]
  · rintro u rfl hport hrej
    exact execSyncReceived_rejected s m at_ hport hrej
  · obtain ⟨hclk, hdecided, -, hblock, hcount⟩ := decideRebase_gives (s.heard 3) e b
    refine ⟨_, execRebaseValuesReceived_standby s e b hrole, hclk, hdecided, hblock, hcount.trans ?_⟩
    rw [State.heard, State.stget_bump_ne _ _ _ (by decide)]
  · obtain ⟨hclk, hdecided, htwin, -⟩ := decideRebase_gives s e b
    refine ⟨_, congrArg Host.Outcome.next (rebaseFallback_decides s hd h), hclk, hdecided, ?_⟩
    simp only [htwin]
  · exact congrArg Host.Outcome.next (rebaseFallback_early s hd h)
  · obtain ⟨hclk, hstate⟩ := rebaseApply_gives s hr h
    refine ⟨rebaseApply s, rfl, hclk, fun x hx => ?_, fun x hx => ?_, ?_, ?_, hstate⟩
    · rw [hclk, Clock.epochFor_rebased rfl]
      exact if_neg (Nat.not_lt.mpr hx)
    · rw [hclk, Clock.epochFor_rebased rfl]
      exact if_pos hx
    · rw [hclk]
    · rw [hclk]
      rfl
  · exact congrArg Host.Outcome.next (rebaseApply_early s hr h)

end Sys2Proof.Machine

namespace Sys2Proof.Machine

/-! COUNTER_WRAP (R74) -/

section
variable (s : State)

/-- The first wrap of the counter. -/
theorem State.wrap_pends (h : s.clk.wrapPend = false) : s.wrap.clk = { s.clk with ns := 0, wrapPend := true } := by
  simp only [State.wrap, h, Bool.false_eq_true, if_false, State.raise_clk]

/-- A second wrap before Carry is written: the carry is lost, and with a master the time state. -/
theorem State.wrap_loses (h : s.clk.wrapPend = true) :
    s.wrap.clk = { s.clk with
      ns := 0, carryLost := true,
      rebase := if s.time.state = .rebaseConfirm ∧ s.time.master.isSome = true then none else s.clk.rebase } ∧
    (s.time.master.isSome = true → s.wrap.time.state = .holdover) := by
  simp only [State.wrap, h, if_true, State.raise_time, Bool.and_eq_true, decide_eq_true_eq]
  split
  · next hlost =>
    obtain ⟨hm, -⟩ := hlost
    simp only [State.enterHoldover_clk, State.enterHoldover_time, State.raise_time, State.raise_clk, hm, and_true, implies_true]
    split <;> rfl
  · next hkept =>
    have hend : ¬ (s.time.state = .rebaseConfirm ∧ s.time.master.isSome = true) := fun ⟨hs, hm⟩ => hkept ⟨hm, by simp [hs]⟩
    refine ⟨?_, fun hm => ?_⟩
    · simp only [State.raise_clk, if_neg hend]
    · rw [State.raise_time]
      exact not_not.mp fun hs => hkept ⟨hm, hs⟩

/-- The state whose counter has run on to its wrap. -/
def wrapped : State := ({ s with clk := { s.clk with ofs := s.clk.ofs + (2 ^ 32 - s.clk.ns.toNat) } } : State).wrap

theorem wrapped_pends (h : s.clk.wrapPend = false) : (wrapped s).clk =
    { s.clk with ns := 0, wrapPend := true, ofs := s.clk.ofs + (2 ^ 32 - s.clk.ns.toNat) } := State.wrap_pends _ h

theorem wrapped_loses (h : s.clk.wrapPend = true) :
    (wrapped s).clk = { s.clk with
      ns := 0, carryLost := true, ofs := s.clk.ofs + (2 ^ 32 - s.clk.ns.toNat),
      rebase := if s.time.state = .rebaseConfirm ∧ s.time.master.isSome = true then none else s.clk.rebase } ∧
    (s.time.master.isSome = true → (wrapped s).time.state = .holdover) := State.wrap_loses _ h

/-- A wrap within the running tick. -/
theorem execCounterWrap_wraps (ht : s.ticking = true) (h : s.clk.ofs + (2 ^ 32 - s.clk.ns.toNat) < tickLen s.clk.tick) :
    exec .counterWrap s = .next { wrapped s with clk := { (wrapped s).clk with ns := 0 } } := by
  have hns : s.clk.ns.toNat < 2 ^ 32 := s.clk.ns.isLt
  have hrun : min (s.clk.ofs + (2 ^ 32 - s.clk.ns.toNat)) (tickLen s.clk.tick - 1) - s.clk.ofs = 2 ^ 32 - s.clk.ns.toNat := by omega
  have hwrap : ¬ s.clk.ns.toNat + (2 ^ 32 - s.clk.ns.toNat) < 2 ^ 32 := by omega
  have hrest : s.clk.ns.toNat + (2 ^ 32 - s.clk.ns.toNat) - 2 ^ 32 = 0 := by omega
  simp only [exec, execCounterWrap, done, h, if_true, State.elapse, ht, hrun, State.advance, hwrap, if_false, hrest, Nat.sub_zero,
    Nat.add_zero]
  rfl

theorem execCounterWrap_later (h : tickLen s.clk.tick ≤ s.clk.ofs + (2 ^ 32 - s.clk.ns.toNat)) :
    exec .counterWrap s = .next s := by
  simp only [exec, execCounterWrap, done, not_lt.mpr h, if_false]

end

/-! TIME_CONFIG_WRITE (R60, R67, R70, R99) -/

section
variable (s : State) {index sub v : Nat}

theorem execTimeConfigWrite_takes (hgate : s.gate index = 0) (hcheck : timeCheck s index sub v = 0) :
    exec (.timeConfigWrite index sub v) s = .next (timeApply s index sub v) :=
  congrArg Host.Outcome.next (s.attempt_takes (fun t => timeApply t index sub v) hcheck hgate)

theorem execTimeConfigWrite_declines {code : Nat} (hcheck : timeCheck s index sub v = code) (hcode : code ≠ 0) :
    Declines (.timeConfigWrite index sub v) s code :=
  ⟨_, congrArg Host.Outcome.next (s.attempt_refuses index (fun t => timeApply t index sub v) (hcheck ▸ hcode)), by rw [hcheck]⟩

theorem timeApply_entry (h : sub ∈ [3, 4, 5, 6, 7, 8, 0x0B, 0x0D, 0x0E]) :
    timeApply s 0x2000 sub v = s.put (timeDefault sub) 0x2000 sub v := by
  simp only [List.mem_cons, List.not_mem_nil, or_false] at h
  rcases h with rfl | rfl | rfl | rfl | rfl | rfl | rfl | rfl | rfl <;> rfl

/-- Of the entries in force a write of the role changes its own alone. -/
theorem roleApply_dict (v : Nat) : (roleApply s v).dict = (s.put 0 0x2000 0x01 v).dict := by
  unfold roleApply
  dsimp only
  split
  · exact State.leaveHoldover_dict _
  · split
    · split
      · rfl
      · exact (leavePort_keeps ..).part .dict rfl
    · rfl

theorem clockRole_roleApply (v : Nat) : clockRole (roleApply s v) = v := by
  rw [clockRole, State.val, roleApply_dict]
  exact val_put ..

/-- Role 0 (R59, R61, R100). -/
theorem roleApply_free : let t := roleApply s 0
    t.time.state = .free ∧ t.time.master = none ∧ t.time.cand = none ∧ t.time.target = 0 ∧ t.time.rate = s.time.rate ∧
    t.clk = { s.clk with rebase := if s.time.state = .rebaseConfirm then none else s.clk.rebase } := by
  simp only [roleApply, if_true, State.leaveHoldover_time, State.leaveHoldover_clk, State.put_time, State.put_clk, true_and]
  split <;> rfl

theorem preferApply_state : (preferApply s).time.state = s.time.state := by
  unfold preferApply
  split
  · split <;> rfl
  · rfl

/-- A profile loads 2000:03 to 2000:08, each once. -/
theorem profileValues_subs (v : Nat) : (profileValues v).map Prod.fst = [3, 4, 5, 6, 7, 8] := by
  unfold profileValues
  split <;> rfl

/-- Entries of 2000 loaded one after another. -/
def loadEntries (l : List (Nat × Nat)) (s : State) : State := l.foldl (fun t e => t.put (timeDefault e.1) 0x2000 e.1 e.2) s

theorem loadEntries_time (l : List (Nat × Nat)) (s : State) : (loadEntries l s).time = s.time :=
  foldl_same (φ := State.time) (g := fun t (e : Nat × Nat) => t.put (timeDefault e.1) 0x2000 e.1 e.2) (fun _ _ => rfl) l s

theorem key_sub_ne {i a b : Nat} (h : a ≠ b) : key i a ≠ key i b := by
  simp only [key]
  omega

theorem loadEntries_val_ne {d k : Nat} : ∀ (l : List (Nat × Nat)) (s : State), k ∉ l.map Prod.fst →
    (loadEntries l s).val d 0x2000 k = s.val d 0x2000 k
  | [], _, _ => rfl
  | e :: l, s, h => by
    obtain ⟨hk, hl⟩ := not_or.mp (mt List.mem_cons.mpr h)
    exact (loadEntries_val_ne l _ hl).trans (s.val_put_ne _ _ _ (key_sub_ne hk))

theorem loadEntries_val : ∀ (l : List (Nat × Nat)) (s : State), (l.map Prod.fst).Nodup → ∀ e ∈ l,
    (loadEntries l s).val (timeDefault e.1) 0x2000 e.1 = e.2
  | [], _, _, _, he => nomatch he
  | x :: l, s, hl, e, he => by
    obtain ⟨hx, hl⟩ := List.nodup_cons.mp hl
    rcases List.mem_cons.mp he with rfl | he
    · exact (loadEntries_val_ne l _ hx).trans (val_put ..)
    · exact loadEntries_val l _ hl e he

/-- A profile loads its values beside its own entry (R60). -/
theorem timeApply_profile (v : Nat) : let t := timeApply s 0x2000 2 v
    t.val 1 0x2000 2 = v ∧ t.time = s.time ∧ ∀ e ∈ profileValues v, t.val (timeDefault e.1) 0x2000 e.1 = e.2 := by
  have hload : timeApply s 0x2000 2 v = loadEntries (profileValues v) (s.put 1 0x2000 0x02 v) := rfl
  rw [hload]
  refine ⟨(loadEntries_val_ne _ _ ?_).trans (val_put ..), loadEntries_time .., loadEntries_val _ _ ?_⟩ <;>
    rw [profileValues_subs] <;> decide

/-- The permission to become Grandmaster (R65): where it is taken away the module is none. -/
theorem timeApply_permit (v : Nat) : let t := timeApply s 0x2000 0x0A v
    t.val 0 0x2000 0x0A = v ∧ (v = 0 → s.time.state = .grandmaster → t.time.state ≠ .grandmaster) := by
  have happly : timeApply s 0x2000 0x0A v = if (decide (v = 0) && decide (s.time.state = .grandmaster)) = true then
      (s.put 0 0x2000 0x0A v).enterHoldover else permitApply (s.put 0 0x2000 0x0A v) := rfl
  rw [happly]
  split
  · refine ⟨?_, fun _ _ => ?_⟩
    · rw [State.val, State.enterHoldover_dict]
      exact val_put ..
    · rw [State.enterHoldover_time]
      exact nofun
  · next h =>
    refine ⟨?_, fun hv hstate => absurd (by simp [hv, hstate]) h⟩
    rw [State.val, (permitApply_keeps _).part .dict rfl]
    exact val_put ..

end

/-! Latency terms (R70) -/

section
variable (s : State) {p sub v : Nat}

/-- What the terms of port `p` become: the one written, in the line mode that the port has. -/
def latWritten (p sub v : Nat) : List Int := (latTerms s p).set (sub - 1) (if sub = 3 then toSigned 32 v else (v : Int))

theorem timeApply_latency (hp : p < 4) : timeApply s (0x2020 + p) sub v = { s with nv := { s.nv with
    lat := mset (moduleTerms (lineMode s p)) s.nv.lat (p * 8 + lineMode s p) (latWritten s p sub v) } } := by
  have hindex : 0x2020 + p ≠ 0x2000 := by omega
  simp only [timeApply, hindex, if_false, Nat.add_sub_cancel_left]
  rfl

theorem timeCheck_latency (hp : p < 4) (hv : v < 2 ^ 32) (hsub : 1 ≤ sub) (hsub' : sub ≤ 3) :
    timeCheck s (0x2020 + p) sub v = 0 := by
  have hindex : 0x2020 + p ≠ 0x2000 := by omega
  have hrange : 0x2020 ≤ 0x2020 + p ∧ 0x2020 + p ≤ 0x2023 := by omega
  have hok : rangeOk v 0 (2 ^ 32 - 1) = 0 := rangeOk_in (by omega) (by omega)
  unfold timeCheck
  rw [if_neg hindex, if_pos hrange]
  obtain rfl | rfl | rfl : sub = 1 ∨ sub = 2 ∨ sub = 3 := by omega
  all_goals exact hok

theorem execTimeConfigWrite_latency (hp : p < 4) (hgate : s.gate (0x2020 + p) = 0) (hv : v < 2 ^ 32) (hsub : 1 ≤ sub)
    (hsub' : sub ≤ 3) : Gives (.timeConfigWrite (0x2020 + p) sub v) s (fun t =>
      mget (moduleTerms (lineMode s p)) t.nv.lat (p * 8 + lineMode s p) = latWritten s p sub v ∧ t.dict = s.dict ∧
      ∀ k, k ≠ p * 8 + lineMode s p → mget [] t.nv.lat k = mget [] s.nv.lat k) := by
  refine ⟨_, execTimeConfigWrite_takes s hgate (timeCheck_latency s hp hv hsub hsub'), ?_⟩
  rw [timeApply_latency s hp]
  exact ⟨mget_mset_self .., rfl, fun k hk => mget_mset_other _ _ _ _ hk⟩

end

/-! Checks of the time configuration (R60, R67) -/

section
variable (s : State)

theorem timeCheck_timeout {v : Nat} (h : v < 2 ∨ 10 < v) : timeCheck s 0x2000 7 v = Abort.range :=
  rangeOk_out (by omega)

theorem timeCheck_role (v : Nat) : timeCheck s 0x2000 1 v = firstCode [rangeOk v 0 3,
    need (decide (s.val 1 0x2000 0x02 ≠ 3 ∨ v = 0 ∨ v = 3)) Abort.conflict, need (!s.flag 0x1100 0x03) Abort.conflict] := rfl

theorem timeCheck_free (hrender : s.flag 0x1100 0x03 = false) : timeCheck s 0x2000 1 0 = 0 := by
  simp [timeCheck_role, firstCode, rangeOk, need, hrender]

theorem timeCheck_role_rendering {v : Nat} (hv : v ≤ 3) (hrender : s.flag 0x1100 0x03 = true) :
    timeCheck s 0x2000 1 v = Abort.conflict := by
  have hok : rangeOk v 0 3 = 0 := rangeOk_in (by omega) (by omega)
  rw [timeCheck_role, hok, hrender]
  by_cases hprofile : s.val 1 0x2000 0x02 ≠ 3 ∨ v = 0 ∨ v = 3 <;> simp [firstCode, need, hprofile, Abort.conflict]

end

/-- Settles O41: the counter's wrap, and each entry's effect under its check. -/
theorem counterAndConfiguration : Obligations.CounterAndConfiguration := by
  intro s v p sub left ends
  refine ⟨fun ht h hpend => ⟨_, execCounterWrap_wraps s ht h, ?_⟩, fun ht h hpend => ⟨_, execCounterWrap_wraps s ht h, ?_⟩,
    execCounterWrap_later s, ⟨_, rfl, rfl⟩, ⟨_, rfl, rfl⟩, fun hgate hcheck => ⟨fun hsub => ?_, ?_, ?_, ?_, ?_⟩,
    fun h => execTimeConfigWrite_declines s (timeCheck_timeout s h) (by decide), fun hgate hrender => ?_,
    fun hv hrender => execTimeConfigWrite_declines s (timeCheck_role_rendering s hv hrender) (by decide),
    fun hp hgate hv => ⟨fun hlo hhi => ?_, ?_⟩⟩
  · exact congrArg (fun c : Clock => { c with ns := 0 }) (wrapped_pends s hpend)
  · obtain ⟨hclk, hstate⟩ := wrapped_loses s hpend
    exact ⟨congrArg (fun c : Clock => { c with ns := 0 }) hclk, hstate⟩
  · exact ⟨_, execTimeConfigWrite_takes s hgate hcheck, timeApply_entry s hsub⟩
  · rintro rfl -
    exact ⟨_, execTimeConfigWrite_takes s hgate hcheck, clockRole_roleApply s v⟩
  · rintro rfl
    exact ⟨_, execTimeConfigWrite_takes s hgate hcheck, timeApply_profile s v⟩
  · rintro rfl
    refine ⟨_, execTimeConfigWrite_takes s hgate hcheck, ?_, preferApply_state _⟩
    exact (congrArg (fun m => ent m 1 0x2000 9) ((preferApply_keeps _).part .dict rfl)).trans (val_put ..)
  · rintro rfl
    exact ⟨_, execTimeConfigWrite_takes s hgate hcheck, timeApply_permit s v⟩
  · obtain ⟨hstate, hmaster, hcand, htarget, hrate, hclk⟩ := roleApply_free s
    exact ⟨_, execTimeConfigWrite_takes s hgate (timeCheck_free s hrender), hstate, hmaster, hcand, htarget, hrate,
      clockRole_roleApply s 0, hclk⟩
  · obtain ⟨t, hexec, hterms, hdict, hother⟩ := execTimeConfigWrite_latency s hp hgate hv hlo (hhi.trans (by decide))
    refine ⟨t, hexec, hterms.trans ?_, hdict, hother⟩
    rw [latWritten, if_neg (by omega)]
  · rintro rfl
    obtain ⟨t, hexec, hterms, hdict, -⟩ := execTimeConfigWrite_latency s (sub := 3) hp hgate hv (by decide) (by decide)
    exact ⟨t, hexec, hterms, hdict⟩

end Sys2Proof.Machine

namespace Sys2Proof.Machine

/-! Comparators and pulses (R78 to R80, R96, R97) -/

section
variable (s : State)

@[simp] theorem pulseOf_setPulse_self (n : Nat) (p : Pulse) : pulseOf (setPulse s n p) n = p := mget_mset_self ..

theorem pulseOf_setPulse_ne (p : Pulse) {n k : Nat} (h : k ≠ n) : pulseOf (setPulse s n p) k = pulseOf s k := mget_mset_ne _ _ _ _ _ h

variable {n : Nat}

theorem pulseStart_fires (ha : (pulseOf s n).cmp.armed = true)
    (hp : comparePast s.clk (pulseOf s n).cmp.extended (pulseOf s n).cmp.target = true) :
    pulseStart s n = setPulse s n { pulseOf s n with
      cmp := { (pulseOf s n).cmp with armed := false }, inProg := true, fired := true,
      endsAt := s.clk.local + (s.val 1000 (0x2030 + n) 0x04 : Int) } := by
  simp only [pulseStart, ha, hp, Bool.and_self, if_true]

theorem pulseStart_idle (h : (pulseOf s n).cmp.armed = false ∨
    comparePast s.clk (pulseOf s n).cmp.extended (pulseOf s n).cmp.target = false) : pulseStart s n = s := by
  rcases h with h | h <;> simp only [pulseStart, h, Bool.false_and, Bool.and_false, Bool.false_eq_true, if_false]

/-- The next start of a periodic output lies after `after`, and is its first start or at most a period later (R97). -/
theorem nextIndex_gives (start e after : Int) {period : Int} (hp : 0 < period) :
    let target := start + nextIndex start period e after * period - e
    after < target ∧ start - e ≤ target ∧ (target = start - e ∨ target - period ≤ after) := by
  have hlow := Int.ediv_mul_le (after - (start - e)) hp.ne'
  have hhigh := Int.lt_ediv_add_one_mul_self (after - (start - e)) hp
  simp only [nextIndex, fdiv, hp.ne', if_false]
  generalize (after - (start - e)) / period = q at hlow hhigh
  rcases lt_or_ge q 0 with hq | hq
  · have hzero : (q + 1).toNat = 0 := by omega
    have hneg : (q + 1) * period ≤ 0 := Int.mul_nonpos_of_nonpos_of_nonneg (by omega) hp.le
    simp only [hzero]
    omega
  · have hindex : ((q + 1).toNat : Int) = q + 1 := by omega
    have hpos : 0 ≤ q * period := Int.mul_nonneg hq hp.le
    rw [hindex]
    rw [add_mul, one_mul] at hhigh ⊢
    omega

/-- A periodic output is armed for its next start later than `after` (R97). -/
theorem armPulse_periodic (after : Int) (hmode : s.val 0 (0x2030 + n) 0x01 = 2) :
    let m := nextIndex (s.val 0 (0x2030 + n) 0x02) (s.val 1000000000 (0x2030 + n) 0x03) (s.clk.epochFor s.clk.tick) after
    armPulse s n after = setPulse s n { pulseOf s n with
      index := m
      cmp := armComparator s.clk (s.val 1 (0x2030 + n) 0x06 = 1)
        (s.val 0 (0x2030 + n) 0x02 + m * s.val 1000000000 (0x2030 + n) 0x03 - s.clk.epochFor s.clk.tick) } := by
  simp only [armPulse, hmode]

theorem armPulse_off (after : Int) (hmode : s.val 0 (0x2030 + n) 0x01 = 0) : armPulse s n after = setPulse s n Pulse.init := by
  simp only [armPulse, hmode]

theorem armPulse_once (after : Int) (hmode : s.val 0 (0x2030 + n) 0x01 = 1) (hfired : (pulseOf s n).fired = false) :
    armPulse s n after = setPulse s n { pulseOf s n with
      cmp := armComparator s.clk (s.val 1 (0x2030 + n) 0x06 = 1) (s.val 0 (0x2030 + n) 0x02 - s.clk.epochFor s.clk.tick) } := by
  simp only [armPulse, hmode, hfired, Bool.false_eq_true, if_false]

theorem pulseOf_armPulse_ne (after : Int) {k : Nat} (h : k ≠ n) : pulseOf (armPulse s n after) k = pulseOf s k := by
  unfold armPulse
  dsimp only
  split
  · exact pulseOf_setPulse_ne s _ h
  · split
    · rfl
    · exact pulseOf_setPulse_ne s _ h
  · exact pulseOf_setPulse_ne s _ h

theorem pulseEnd_idle (h : (pulseOf s n).inProg = false ∨ s.clk.local < (pulseOf s n).endsAt) : pulseEnd s n = s := by
  rcases h with h | h
  · simp only [pulseEnd, h, Bool.false_and, Bool.false_eq_true, if_false]
  · simp only [pulseEnd, not_le.mpr h, decide_false, Bool.and_false, Bool.false_eq_true, if_false]

variable (hprog : (pulseOf s n).inProg = true) (hend : (pulseOf s n).endsAt ≤ s.clk.local)
include hprog hend

theorem pulseEnd_once (hmode : s.val 0 (0x2030 + n) 0x01 ≠ 2) : pulseEnd s n = setPulse s n { pulseOf s n with inProg := false } := by
  simp only [pulseEnd, hprog, hend, decide_true, Bool.and_self, if_true, hmode, if_false]

theorem pulseEnd_periodic (hmode : s.val 0 (0x2030 + n) 0x01 = 2) :
    pulseEnd s n = armPulse (setPulse s n { pulseOf s n with inProg := false }) n (pulseOf s n).endsAt := by
  simp only [pulseEnd, hprog, hend, decide_true, Bool.and_self, if_true, hmode]

/-- The end of a periodic pulse: the output is low, and armed for the first of its starts later than the end. -/
theorem pulseEnd_rearms (hmode : s.val 0 (0x2030 + n) 0x01 = 2) (hperiod : 0 < s.val 1000000000 (0x2030 + n) 0x03) :
    let t := pulseEnd s n
    let first : Int := (s.val 0 (0x2030 + n) 0x02 : Int) - s.clk.epochFor s.clk.tick
    let target := (pulseOf t n).cmp.target
    (pulseOf t n).inProg = false ∧ (pulseOf t n).cmp.armed = true ∧ (pulseOf s n).endsAt < target ∧ first ≤ target ∧
    (target = first ∨ target - (s.val 1000000000 (0x2030 + n) 0x03 : Int) ≤ (pulseOf s n).endsAt) := by
  have hlow : (setPulse s n { pulseOf s n with inProg := false }).val 0 (0x2030 + n) 0x01 = 2 := hmode
  rw [pulseEnd_periodic s hprog hend hmode, armPulse_periodic _ _ hlow]
  simp only [pulseOf_setPulse_self, armComparator, true_and]
  exact nextIndex_gives _ _ _ (by exact_mod_cast hperiod)

end

/-! CAPTURE_EDGE (R98) -/

section
variable (s : State) {n : Nat}

/-- Whether an edge is one that capture input `n` selects. -/
def edgeSelected (n : Nat) (rising : Bool) : Prop :=
  s.val 0 (0x2040 + n) 0x01 = 3 ∨ s.val 0 (0x2040 + n) 0x01 = (if rising = true then 1 else 2)

theorem captureEdge_ignored {rising : Bool} (h : ¬ edgeSelected s n rising) : captureEdge s n rising = s := by
  simp only [edgeSelected, not_or] at h
  obtain ⟨hboth, hone⟩ := h
  simp only [captureEdge, hboth, hone, decide_false, Bool.or_self, Bool.false_eq_true, if_false]

/-- The captured time and its count. -/
def captured (n : Nat) : State := (s.stset 0 (0x2040 + n) 0x02 (toPat 64 s.netTime)).bump (0x2040 + n) 0x03 1

theorem captured_stget : (captured s n).stget 0 (0x2040 + n) 0x02 = toPat 64 s.netTime ∧
    (captured s n).stget 0 (0x2040 + n) 0x03 = min (s.stget 0 (0x2040 + n) 0x03 + 1) (2 ^ 32 - 1) ∧
    (captured s n).stget 0 (0x2040 + n) 0x04 = s.stget 0 (0x2040 + n) 0x04 := by
  refine ⟨(State.stget_bump_ne _ _ _ (key_sub_ne (by decide))).trans (stget_stset ..), ?_,
    (State.stget_bump_ne _ _ _ (key_sub_ne (by decide))).trans (State.stget_stset_ne _ _ _ _ (key_sub_ne (by decide)))⟩
  rw [captured, State.stget_bump_self, State.stget_stset_ne _ _ _ _ (key_sub_ne (by decide))]

/-- The captured time and its counts: an overrun where the last was not read. -/
def captureCounted (n : Nat) : State :=
  if mget 0 s.time.unread n ≠ 0 then (captured s n).bump (0x2040 + n) 0x04 1 else captured s n

theorem captureCounted_read (h : mget 0 s.time.unread n = 0) : captureCounted s n = captured s n := if_neg (not_not.mpr h)

theorem captureCounted_unread (h : mget 0 s.time.unread n ≠ 0) :
    captureCounted s n = (captured s n).bump (0x2040 + n) 0x04 1 := if_pos h

theorem captureCounted_stget_ne {sub : Nat} (h : sub ≠ 4) :
    (captureCounted s n).stget 0 (0x2040 + n) sub = (captured s n).stget 0 (0x2040 + n) sub := by
  unfold captureCounted
  split
  · exact State.stget_bump_ne _ _ _ (key_sub_ne h)
  · rfl

theorem captured_keeps : Keeps [.stat] s (captured s n) :=
  Keeps.step (State.bump_keeps ..) rfl ((State.stset_keeps ..).mono rfl)

theorem captureCounted_time : (captureCounted s n).time = s.time := by
  unfold captureCounted
  split
  · exact ((State.bump_keeps ..).part .time rfl).trans ((captured_keeps s).part .time rfl)
  · exact (captured_keeps s).part .time rfl

theorem captureEdge_taken {rising : Bool} (h : edgeSelected s n rising) : captureEdge s n rising =
    { captureCounted s n with time := { (captureCounted s n).time with unread := mset 0 (captureCounted s n).time.unread n 1 } } := by
  have hsel : (decide (s.val 0 (0x2040 + n) 0x01 = 3) || decide (s.val 0 (0x2040 + n) 0x01 = (if rising = true then 1 else 2))) = true := by
    rw [Bool.or_eq_true, decide_eq_true_eq, decide_eq_true_eq]
    exact h
  exact if_pos hsel

theorem captureEdge_gives {rising : Bool} (h : edgeSelected s n rising) : let t := captureEdge s n rising
    t.stget 0 (0x2040 + n) 0x02 = toPat 64 s.netTime ∧ mget 0 t.time.unread n = 1 ∧
    t.stget 0 (0x2040 + n) 0x03 = min (s.stget 0 (0x2040 + n) 0x03 + 1) (2 ^ 32 - 1) ∧
    (mget 0 s.time.unread n = 0 → t.stget 0 (0x2040 + n) 0x04 = s.stget 0 (0x2040 + n) 0x04) ∧
    (mget 0 s.time.unread n ≠ 0 → t.stget 0 (0x2040 + n) 0x04 = min (s.stget 0 (0x2040 + n) 0x04 + 1) (2 ^ 32 - 1)) := by
  have hstat : (captureEdge s n rising).stat = (captureCounted s n).stat := by rw [captureEdge_taken s h]
  have hunread : (captureEdge s n rising).time.unread = mset 0 s.time.unread n 1 := by
    rw [captureEdge_taken s h, captureCounted_time]
  have hread : ∀ sub, (captureEdge s n rising).stget 0 (0x2040 + n) sub = (captureCounted s n).stget 0 (0x2040 + n) sub :=
    fun sub => by rw [State.stget, hstat, State.stget]
  obtain ⟨htime, hcount, hover⟩ := captured_stget s (n := n)
  simp only [hread, hunread, mget_mset_self, true_and]
  refine ⟨(captureCounted_stget_ne s (by decide)).trans htime, (captureCounted_stget_ne s (by decide)).trans hcount,
    fun hseen => ?_, fun hnew => ?_⟩
  · rw [captureCounted_read s hseen, hover]
  · rw [captureCounted_unread s hnew, State.stget_bump_self, hover]

end

/-! PULSE_CONFIG_WRITE (R96) -/

section
variable (s : State) {n sub v : Nat}

theorem firstCode_index {count : Nat} (hn : n < count) (code : Nat) : firstCode [indexOk n count, code] = code := by
  simp only [firstCode, indexOk, need, hn, decide_true, if_true]
  split
  · next h => exact h.symm
  · rfl

theorem execPulseConfigWrite_takes (hn : n < 4) (hgate : s.gate (0x2030 + n) = 0) (hcheck : pulseCheck s n sub v = 0) :
    exec (.pulseConfigWrite n sub v) s = .next (pulseApply s n sub v) :=
  congrArg Host.Outcome.next (s.attempt_takes (fun t => pulseApply t n sub v) ((firstCode_index hn _).trans hcheck) hgate)

/-- A width not below the period (R96). -/
theorem execPulseConfigWrite_wide (hn : n < 4) (h : s.val 1000000000 (0x2030 + n) 0x03 ≤ v) :
    Declines (.pulseConfigWrite n 0x04 v) s Abort.range := by
  have hcheck : pulseCheck s n 0x04 v = Abort.range := rangeOk_out (.inr (by omega))
  have hcode : firstCode [indexOk n 4, pulseCheck s n 0x04 v] = Abort.range := (firstCode_index hn _).trans hcheck
  refine ⟨_, congrArg Host.Outcome.next (s.attempt_refuses _ (fun t => pulseApply t n 0x04 v) (hcode ▸ by decide)), ?_⟩
  rw [hcode]

theorem pulseApply_entry (h : sub = 4 ∨ sub = 5) : pulseApply s n sub v = s.put (pulseDefault sub) (0x2030 + n) sub v := by
  rcases h with rfl | rfl <;> rfl

/-- The state whose output `n` is armed from the entry written. -/
def pulsePut (n sub v : Nat) : State :=
  let t := s.put (pulseDefault sub) (0x2030 + n) sub v
  setPulse t n { pulseOf t n with fired := (pulseOf t n).fired && decide (2 < sub) }

theorem pulseApply_arms (h4 : sub ≠ 4) (h5 : sub ≠ 5) :
    pulseApply s n sub v = armPulse (pulsePut s n sub v) n (s.clk.local - 1) := by
  simp only [pulseApply, h4, h5, decide_false, Bool.or_self, Bool.false_eq_true, if_false]
  rfl

theorem pulseApply_val : (pulseApply s n sub v).val (pulseDefault sub) (0x2030 + n) sub = v := by
  have hdict : (pulseApply s n sub v).dict = (s.put (pulseDefault sub) (0x2030 + n) sub v).dict := by
    by_cases h : sub = 4 ∨ sub = 5
    · rw [pulseApply_entry s h]
    · obtain ⟨h4, h5⟩ := not_or.mp h
      rw [pulseApply_arms s h4 h5, (armPulse_keeps ..).part .dict rfl]
      rfl
  rw [State.val, hdict]
  exact val_put ..

theorem pulseOf_pulseApply_ne {k : Nat} (hk : k ≠ n) : pulseOf (pulseApply s n sub v) k = pulseOf s k := by
  by_cases h : sub = 4 ∨ sub = 5
  · rw [pulseApply_entry s h]
    rfl
  · obtain ⟨h4, h5⟩ := not_or.mp h
    rw [pulseApply_arms s h4 h5, pulseOf_armPulse_ne _ _ hk]
    exact pulseOf_setPulse_ne _ _ hk

/-- Mode 0: unarmed and low. -/
theorem pulseApply_off : let t := pulseApply s n 1 0
    pulseOf t n = Pulse.init ∧ pulseLevel t n = false := by
  have hmode : (pulsePut s n 1 0).val 0 (0x2030 + n) 0x01 = 0 := val_put s 0 (0x2030 + n) 0x01 0
  rw [pulseApply_arms s (by decide) (by decide), armPulse_off _ _ hmode]
  have hmode' : (setPulse (pulsePut s n 1 0) n Pulse.init).val 0 (0x2030 + n) 0x01 = 0 := hmode
  exact ⟨pulseOf_setPulse_self .., by simp only [pulseLevel, hmode', ne_eq, not_true_eq_false, decide_false, Bool.false_and]⟩

/-- Mode 1: armed for its start. -/
theorem pulseApply_once : let p := pulseOf (pulseApply s n 1 1) n
    p.cmp.armed = true ∧ p.fired = false ∧ p.cmp.target = (s.val 0 (0x2030 + n) 0x02 : Int) - s.clk.epochFor s.clk.tick := by
  have hmode : (pulsePut s n 1 1).val 0 (0x2030 + n) 0x01 = 1 := val_put s 0 (0x2030 + n) 0x01 1
  have hstart : (pulsePut s n 1 1).val 0 (0x2030 + n) 0x02 = s.val 0 (0x2030 + n) 0x02 :=
    s.val_put_ne 0 0 1 (key_sub_ne (by decide))
  have hput : pulseOf (pulsePut s n 1 1) n = { pulseOf s n with fired := (pulseOf s n).fired && decide (2 < 1) } :=
    pulseOf_setPulse_self ..
  have hfired : (pulseOf (pulsePut s n 1 1) n).fired = false := by rw [hput]; simp
  rw [pulseApply_arms s (by decide) (by decide), armPulse_once _ _ hmode hfired]
  simp only [pulseOf_setPulse_self, hfired, armComparator, hstart, true_and]
  rfl

end

/-! PTP frames on a port (R320, R346) -/

section
variable (s : State) {p : Nat} (f : OutFrame)

/-- Frame `f` is put on port `p`, and counted there. -/
def SendsOn (s t : State) (p : Nat) (f : OutFrame) : Prop :=
  t.out = s.out ++ [f] ∧ t.time = s.time ∧ t.clk = s.clk ∧ Counts s t (0x2110 + p) 0x05 1

theorem sendPort_closed (h : s.open p = false) : s.sendPort p f = s := by
  simp only [State.sendPort, h, Bool.false_eq_true, if_false]

theorem sendPort_open (h : s.open p = true) : s.sendPort p f = (s.send f).bump (0x2110 + p) 0x05 1 := by
  simp only [State.sendPort, h, if_true]

theorem sendPort_sends (h : s.open p = true) : SendsOn s (s.sendPort p f) p f := by
  rw [sendPort_open s f h]
  exact ⟨rfl, rfl, rfl, State.bump_counts (s.send f) ..⟩

end

section
variable (s : State) (p : Nat)

theorem shl_12 (x : Int) : shl x 12 = 4096 * x := by
  unfold shl
  omega

theorem shl_16 (x : Int) : shl x 16 = 65536 * x := by
  unfold shl
  omega

theorem execPtpMessageSend_idle (kind : PtpKind) (dep : Int) (h : originates s p kind = false ∨ s.open p = false) :
    exec (.ptpMessageSend p kind dep) s = .next s := by
  cases ho : originates s p kind with
  | false => simp only [exec, execPtpMessageSend, done, ptpSend, ho, Bool.false_eq_true, if_false]
  | true =>
    have hclosed := h.resolve_left (by simp [ho])
    simp only [exec, execPtpMessageSend, done, ptpSend, ho, if_true, sendPort_closed s _ hclosed]

theorem execPtpMessageSend_sends {kind : PtpKind} (dep : Int) (ho : originates s p kind = true) (hopen : s.open p = true) :
    Gives (.ptpMessageSend p kind dep) s (fun t => SendsOn s t p (.ptp p kind (s.val 0 0x2000 0x03) (ptpCarrier s p)
      (ptpUdpLength s p kind) (dep + latG s p + s.clk.epochFor s.clk.tick * 16))) := by
  refine ⟨_, rfl, ?_⟩
  rw [ptpSend, if_pos ho]
  exact sendPort_sends s _ hopen

/-! PDELAY_REQ_RECEIVED (R71) -/

/-- The answer to a Pdelay_Req: its correctionField is the turnaround. -/
def pdelayFrame (cap dep : Int) : OutFrame := .pdelay p (s.val 0 0x2000 0x03) (ptpCarrier s p) (ptpUdpLength s p .pdelayResp)
  (4096 * (dep + latG s p - (cap - latI s p)))

theorem pdelayResponse_arrived (cap dep : Int) : pdelayResponse (s.arrived p) p cap dep =
    if measuresLink s p then (s.arrived p).sendPort p (pdelayFrame s p cap dep) else s.arrived p := by
  rw [pdelayFrame, ← shl_12, State.arrived_eq]
  rfl

theorem arrived_open (q : Nat) : (s.arrived q).open p = s.open p := by
  rw [State.arrived_eq]; rfl

theorem execPdelayReqReceived_eq (cap dep : Int) : exec (.pdelayReqReceived p cap dep) s = .next (
    if measuresLink s p then (s.arrived p).sendPort p (pdelayFrame s p cap dep) else s.arrived p) := by
  rw [← pdelayResponse_arrived]
  rfl

theorem execPdelayReqReceived_idle (cap dep : Int) (h : measuresLink s p = false ∨ s.open p = false) :
    exec (.pdelayReqReceived p cap dep) s = .next (s.arrived p) := by
  rw [execPdelayReqReceived_eq]
  cases hm : measuresLink s p with
  | false => rfl
  | true => rw [if_pos rfl, sendPort_closed _ _ ((arrived_open s p p).trans (h.resolve_left (by simp [hm])))]

theorem execPdelayReqReceived_answers (cap dep : Int) (hm : measuresLink s p = true) (hopen : s.open p = true) :
    Gives (.pdelayReqReceived p cap dep) s (fun t => t.time = s.time ∧ t.clk = s.clk ∧ t.out = s.out ++ [pdelayFrame s p cap dep] ∧
      t.stget 0 (0x2110 + p) 0x05 = min (s.stget 0 (0x2110 + p) 0x05 + 1) (2 ^ 32 - 1) ∧
      t.stget 0 (0x2110 + p) 0x04 =
        (if 2 ≤ p then min (s.stget 0 (0x2110 + p) 0x04 + 1) (2 ^ 32 - 1) else s.stget 0 (0x2110 + p) 0x04)) := by
  refine ⟨_, execPdelayReqReceived_eq s p cap dep, ?_⟩
  rw [if_pos hm]
  obtain ⟨hout, htime, hclk, hcount, hothers⟩ := sendPort_sends _ (pdelayFrame s p cap dep) ((arrived_open s p p).trans hopen)
  refine ⟨htime.trans (State.arrived_time ..), hclk.trans (State.arrived_clk ..), hout.trans (by rw [State.arrived_out]),
    hcount.trans (by rw [State.arrived_stget_ne _ (key_sub_ne (by decide))]), (hothers _ _ (key_sub_ne (by decide))).trans ?_⟩
  unfold State.arrived
  split
  · exact State.stget_bump_self ..
  · rfl

end

/-! PTP_TRANSIT from port 0 to port 1 (R61, R72, R73) -/

section
variable (s : State) (kind : PtpKind) (carrier : PtpCarrier) (cap dep corr : Int)

/-- The Delay_Resp to a Delay_Req on port 0: the time at which that came in. -/
def delayRespFrame : OutFrame := .delayResp 0 (s.val 0 0x2000 0x03) (cap - latI s 0 + s.clk.epochFor s.clk.tick * 16) corr

/-- Whether a message that comes in on port 0 is answered there: a Delay_Req on a master port, end to end. -/
def answers : Prop := kind = .delayReq ∧ mastersOn s 0 = true ∧ peerToPeer s = false ∧ s.open 0 = true

/-- The state after the answer, where there is one. -/
def transitAnswered : State := if kind = .delayReq && s.open 0 then delayResponse s 0 cap corr else s

theorem transitAnswered_sends (h : answers s kind) : transitAnswered s kind cap corr = s.sendPort 0 (delayRespFrame s cap corr) := by
  obtain ⟨hk, hmaster, hpeer, hopen⟩ := h
  simp only [transitAnswered, hk, hopen, decide_true, Bool.and_self, if_true, delayResponse, hmaster, hpeer, Bool.not_false]
  rfl

theorem transitAnswered_silent (h : ¬ answers s kind) : transitAnswered s kind cap corr = s := by
  unfold transitAnswered
  split
  · next hreq =>
    obtain ⟨hk, hopen⟩ := Bool.and_eq_true_iff.mp hreq
    have hno : (mastersOn s 0 && !peerToPeer s) = false := Bool.eq_false_iff.mpr fun hyes => by
      obtain ⟨hmaster, hpeer⟩ := Bool.and_eq_true_iff.mp hyes
      exact h ⟨of_decide_eq_true hk, hmaster, by simpa using hpeer, hopen⟩
    rw [delayResponse, hno, if_neg Bool.false_ne_true]
  · rfl

/-- The path delay that a Sync takes with it under a peer-to-peer profile (R72). -/
def syncPath : Int := if kind = .sync ∧ peerToPeer s = true then 65536 * ((mget none s.time.mpd 0).getD 0 : Nat) else 0

/-- What roles 1 and 2 pass on: the residence and the path delay added. -/
def passedFrame : OutFrame := .transit 1 (corr + (4096 * (dep + latG s 1 - (cap - latI s 0)) + syncPath s kind))
  (carrier = .udpComp) (carrier = .udpPlain)

theorem transitAdds_eq : transitAdds s 0 1 kind cap dep = 4096 * (dep + latG s 1 - (cap - latI s 0)) + syncPath s kind := by
  unfold transitAdds syncPath
  rw [shl_12, shl_16]
  cases kind <;> simp

theorem ptpTransit_unchanged (h : clockRole s = 0) :
    ptpTransit s 0 1 kind carrier cap dep corr = s.sendPort 1 (.transit 1 corr false false) := by
  simp only [ptpTransit, h]
  rfl

theorem ptpTransit_corrected (h : clockRole s = 1 ∨ clockRole s = 2) :
    ptpTransit s 0 1 kind carrier cap dep corr =
      (transitAnswered s kind cap corr).sendPort 1 (passedFrame s kind carrier cap dep corr) := by
  rw [passedFrame, ← transitAdds_eq]
  rcases h with h | h <;>
  · simp only [ptpTransit, h]
    rfl

theorem ptpTransit_terminated (h : clockRole s = 3) :
    ptpTransit s 0 1 kind carrier cap dep corr = transitAnswered s kind cap corr := by
  simp only [ptpTransit, h]
  rfl

end

/-- Settles O42: each command's law, at its instant for the comparators, pulses and captures. -/
theorem pulsesAndPtpFrames : Obligations.PulsesAndPtpFrames := by
  intro s at_ n v sub kind carrier dep cap corr hn i sends domain epoch
  refine ⟨?_, fun hgate hcheck => ⟨fun hsub => ?_, ?_, ?_, ?_⟩, fun w h => execPulseConfigWrite_wide s hn h,
    fun hopen => ⟨fun ho => execPtpMessageSend_sends s n dep ho hopen,
      fun hm => execPdelayReqReceived_answers s n cap dep hm hopen⟩,
    execPtpMessageSend_idle s n kind dep, execPdelayReqReceived_idle s n cap dep,
    fun hopen => ⟨fun hrole => ⟨_, rfl, ?_⟩, fun hrole => ?_⟩,
    fun h hclosed => congrArg Host.Outcome.next ?_, fun hrole hk => congrArg Host.Outcome.next ?_,
    fun hrole hmaster hpeer hopen0 => ⟨_, rfl, ?_⟩⟩
  · rintro u rfl p
    refine ⟨fun ha hpast => ⟨_, congrArg Host.Outcome.next (pulseStart_fires _ ha hpast), ?_⟩,
      fun h => congrArg Host.Outcome.next (pulseStart_idle _ h), fun hprog hend hmode hperiod => ⟨_, rfl, ?_⟩,
      fun hprog hend hmode => ⟨_, rfl, ?_⟩, fun h => congrArg Host.Outcome.next (pulseEnd_idle _ h),
      fun rising hsel => ⟨_, rfl, ?_⟩, fun rising hboth hone => congrArg Host.Outcome.next (captureEdge_ignored _ ?_)⟩
    · simp only [pulseOf_setPulse_self, State.elapse_val, true_and]
      exact ⟨fun k hk => pulseOf_setPulse_ne _ _ hk, rfl⟩
    · rw [← State.elapse_val s at_] at hmode hperiod
      rw [← State.elapse_val s at_, ← State.elapse_val s at_]
      exact pulseEnd_rearms _ hprog hend hmode hperiod
    · rw [pulseEnd_once _ hprog hend (by rwa [State.elapse_val])]
      exact pulseOf_setPulse_self ..
    · have hgives := captureEdge_gives (s.elapse at_) (n := n) (rising := rising) (by rwa [edgeSelected, State.elapse_val])
      simpa only [State.elapse_stget] using hgives
    · rw [edgeSelected, State.elapse_val]
      exact not_or.mpr ⟨hboth, hone⟩
  · exact ⟨_, execPulseConfigWrite_takes s hn hgate hcheck, pulseApply_entry s hsub⟩
  · rintro rfl rfl
    exact ⟨_, execPulseConfigWrite_takes s hn hgate hcheck, pulseApply_off s⟩
  · rintro rfl rfl
    exact ⟨_, execPulseConfigWrite_takes s hn hgate hcheck, pulseApply_once s⟩
  · exact ⟨_, execPulseConfigWrite_takes s hn hgate hcheck, pulseApply_val s, fun k hk => pulseOf_pulseApply_ne s hk⟩
  · rw [ptpTransit_unchanged s kind carrier cap dep corr hrole]
    exact sendPort_sends s _ hopen
  · refine ⟨fun h => ⟨_, rfl, ?_⟩, fun hk hmaster hpeer hopen0 => ⟨_, rfl, ?_⟩⟩
    · have hsilent : ¬ answers s kind := by
        rintro ⟨hk, hmaster, hpeer, hopen0⟩
        simp [hk, hmaster, hpeer, hopen0] at h
      rw [ptpTransit_corrected s kind carrier cap dep corr hrole, transitAnswered_silent s kind cap corr hsilent]
      exact sendPort_sends s _ hopen
    · rw [ptpTransit_corrected s kind carrier cap dep corr hrole,
        transitAnswered_sends s kind cap corr ⟨hk, hmaster, hpeer, hopen0⟩, sendPort_open s _ hopen0]
      obtain ⟨hout, -⟩ := sendPort_sends ((s.send (delayRespFrame s cap corr)).bump (0x2110 + 0) 0x05 1) (p := 1)
        (passedFrame s kind carrier cap dep corr) hopen
      exact hout.trans (List.append_assoc ..)
  · rcases h with hrole | ⟨hrole, hk⟩
    · rw [ptpTransit_unchanged s kind carrier cap dep corr hrole, sendPort_closed s _ hclosed]
    · obtain h0 | h12 : clockRole s = 0 ∨ clockRole s = 1 ∨ clockRole s = 2 := by omega
      · rw [ptpTransit_unchanged s kind carrier cap dep corr h0, sendPort_closed s _ hclosed]
      · rw [ptpTransit_corrected s kind carrier cap dep corr h12, transitAnswered_silent s kind cap corr (fun ⟨hreq, _⟩ => hk hreq),
          sendPort_closed s _ hclosed]
  · rw [ptpTransit_terminated s kind carrier cap dep corr hrole, transitAnswered_silent s kind cap corr (fun ⟨hreq, _⟩ => hk hreq)]
  · rw [ptpTransit_terminated s .delayReq carrier cap dep corr hrole,
      transitAnswered_sends s .delayReq cap corr ⟨rfl, hmaster, hpeer, hopen0⟩]
    exact sendPort_sends s _ hopen0

end Sys2Proof.Machine

namespace Sys2Proof.Machine

/-! Banks of a sequencer (R159, R170, R171) -/

section
variable (c : Corr) (b k : Nat) (v : Bank) (st : BankState)

theorem setBank_eq : setBank c b v =
    { c with bank0 := if b = 0 then v else c.bank0, bank1 := if b = 0 then c.bank1 else v } := by
  unfold setBank
  split <;> rfl

@[simp] theorem setBank_running : (setBank c b v).running = c.running := by rw [setBank_eq]
@[simp] theorem setBank_selected : (setBank c b v).selected = c.selected := by rw [setBank_eq]
@[simp] theorem setBank_named : (setBank c b v).named = c.named := by rw [setBank_eq]
@[simp] theorem setBank_enabled : (setBank c b v).enabled = c.enabled := by rw [setBank_eq]
@[simp] theorem setBank_trim : (setBank c b v).trim = c.trim := by rw [setBank_eq]

@[simp] theorem setBankState_running : (setBankState c b st).running = c.running := setBank_running ..
@[simp] theorem setBankState_selected : (setBankState c b st).selected = c.selected := setBank_selected ..
@[simp] theorem setBankState_enabled : (setBankState c b st).enabled = c.enabled := setBank_enabled ..
@[simp] theorem setBankState_trim : (setBankState c b st).trim = c.trim := setBank_trim ..

@[simp] theorem feedBank_setBank_self : feedBank (setBank c b v) b = v := by
  rw [setBank_eq]
  by_cases h : b = 0 <;> simp [feedBank, h]

@[simp] theorem setBankState_state : (feedBank (setBankState c b st) b).state = st := by
  rw [setBankState, feedBank_setBank_self]

/-- A state written changes of no bank its taps or its set. -/
theorem feedBank_setBankState : (feedBank (setBankState c b st) k).taps = (feedBank c k).taps ∧
    (feedBank (setBankState c b st) k).set = (feedBank c k).set := by
  rw [setBankState, setBank_eq]
  by_cases hb : b = 0 <;> by_cases hk : k = 0 <;> simp [feedBank, hb, hk]

@[simp] theorem setBankState_taps : (feedBank (setBankState c b st) k).taps = (feedBank c k).taps :=
  (feedBank_setBankState c b k st).1

@[simp] theorem setBankState_set : (feedBank (setBankState c b st) k).set = (feedBank c k).set :=
  (feedBank_setBankState c b k st).2

/-- The banks as they stand when bank `b` takes the place of the selected one. -/
def releaseBank : Corr :=
  match c.selected with
  | some o => setBankState c o .ready
  | none => c

theorem selectBank_eq : selectBank c b = { setBankState (releaseBank c) b .selected with
    selected := some b, named := b, cur := (feedBank (setBankState (releaseBank c) b .selected) b).set } := rfl

theorem releaseBank_gives : (releaseBank c).running = c.running ∧ (feedBank (releaseBank c) k).taps = (feedBank c k).taps ∧
    (feedBank (releaseBank c) k).set = (feedBank c k).set := by
  unfold releaseBank
  split
  · exact ⟨setBankState_running .., feedBank_setBankState ..⟩
  · exact ⟨rfl, rfl, rfl⟩

theorem selectBank_gives : let d := selectBank c b
    d.running = c.running ∧ d.selected = some b ∧ (feedBank d b).state = .selected ∧
    (feedBank d k).taps = (feedBank c k).taps ∧ d.cur = (feedBank c b).set := by
  obtain ⟨hrun, htaps, -⟩ := releaseBank_gives c k
  rw [selectBank_eq]
  refine ⟨(setBankState_running ..).trans hrun, rfl, setBankState_state (releaseBank c) b .selected,
    (setBankState_taps (releaseBank c) b k .selected).trans htaps, ?_⟩
  exact (setBankState_set (releaseBank c) b b .selected).trans (releaseBank_gives c b).2.2

/-! A load that ends (R160, R169, R170) -/

theorem untrimmed_gives (n : Nat) : let d := untrimmed n c
    d.running = c.running ∧ d.selected = c.selected ∧ d.named = c.named := by
  unfold untrimmed
  dsimp only
  split <;> exact ⟨rfl, rfl, rfl⟩

variable (e : SeqEnv) (taps : List Int)

/-- The banks with the taps of a load in bank `b` and its set computed, before the bank gets its state. -/
def loadedCorr : Corr :=
  let c1 := setBank { c with running := none } b { feedBank c b with taps := taps }
  let c2 := if c1.trim.isNone || trimFits e.u c1 then c1 else untrimmed e.n c1
  setBank c2 b (prepareBank e.n c2.trim (feedBank c2 b))

theorem endLoad_eq : endLoad e c b taps =
    if decide ((loadedCorr c b e taps).selected = some b) ||
      ((loadedCorr c b e taps).selected.isNone && decide ((loadedCorr c b e taps).named = b))
    then selectBank (loadedCorr c b e taps) b else setBankState (loadedCorr c b e taps) b .ready := rfl

theorem untrimmed_taps (n : Nat) : (feedBank (untrimmed n c) k).taps = (feedBank c k).taps := by
  have hprep : ∀ x : Bank, (if x.taps.isEmpty then x else prepareBank n none x).taps = x.taps := fun x => by split <;> rfl
  unfold untrimmed
  dsimp only
  split <;> (unfold feedBank; split <;> exact hprep _)

theorem loadedCorr_gives : let d := loadedCorr c b e taps
    d.running = none ∧ d.selected = c.selected ∧ d.named = c.named ∧ (feedBank d b).taps = taps := by
  unfold loadedCorr
  dsimp only
  split
  · refine ⟨by simp, by simp, by simp, ?_⟩
    rw [feedBank_setBank_self, feedBank_setBank_self]
    rfl
  · obtain ⟨hrun, hsel, hnamed⟩ := untrimmed_gives (setBank { c with running := none } b { feedBank c b with taps := taps }) e.n
    refine ⟨by simp [hrun], by simp [hsel], by simp [hnamed], ?_⟩
    rw [feedBank_setBank_self]
    refine (untrimmed_taps ..).trans ?_
    rw [feedBank_setBank_self]

theorem endLoad_gives : let d := endLoad e c b taps
    d.running = none ∧ (feedBank d b).taps = taps ∧
    (c.selected = none → c.named = b → d.selected = some b ∧ (feedBank d b).state = .selected) ∧
    (c.selected = some b → d.selected = some b ∧ (feedBank d b).state = .selected) ∧
    (c.selected ≠ some b → c.selected.isSome = true ∨ c.named ≠ b → d.selected = c.selected ∧ (feedBank d b).state = .ready) := by
  obtain ⟨hrun, hsel, hnamed, htaps⟩ := loadedCorr_gives c b e taps
  rw [endLoad_eq, hsel, hnamed]
  by_cases hb : (decide (c.selected = some b) || (c.selected.isNone && decide (c.named = b))) = true
  · obtain ⟨srun, ssel, sstate, staps, -⟩ := selectBank_gives (loadedCorr c b e taps) b b
    rw [if_pos hb]
    refine ⟨srun.trans hrun, staps.trans htaps, fun _ _ => ⟨ssel, sstate⟩, fun _ => ⟨ssel, sstate⟩, fun hne hor => ?_⟩
    rcases hor with h | h <;> simp_all
  · rw [if_neg hb]
    refine ⟨by simp [hrun], by simp [htaps], fun hnone hn => ?_, fun h => ?_, fun _ _ => ⟨by simp [hsel], by simp⟩⟩
    · simp [hnone, hn] at hb
    · simp [h] at hb

/-! A trim's preparation that ends, a preparation cut short, a crossfade that ends (R168, R169, R171, R172) -/

/-- The banks with their sets computed for a trim, each back in the state that it rests in. -/
def trimmedCorr (trim : Option (List Int)) : Corr :=
  let prep := fun (x : Bank) => if x.taps.isEmpty then x else prepareBank e.n trim x
  let c1 := { c with bank0 := prep c.bank0, bank1 := prep c.bank1 }
  setBankState (setBankState c1 0 (restState c1 0)) 1 (restState c1 1)

theorem endTrimPrep_waits (t : Nat) (trim : Option (List Int)) (henabled : c.enabled = true) (hsel : c.selected.isSome = true) :
    endTrimPrep e c t trim = { trimmedCorr c e trim with newTrim := trim, running := some (.trim trim, .waiting false) } := by
  have hcond : ((trimmedCorr c e trim).enabled && (trimmedCorr c e trim).selected.isSome) = true := by
    simp [trimmedCorr, henabled, hsel]
  exact if_pos hcond

theorem trimmedCorr_trim (trim : Option (List Int)) : (trimmedCorr c e trim).trim = c.trim := by simp [trimmedCorr]

theorem endTrimPrep_disabled (t : Nat) (trim : Option (List Int)) (henabled : c.enabled = false) :
    let d := endTrimPrep e c t trim
    d.running = none ∧ d.trim = trim ∧ d.newTrim = none := by
  have hcond : ¬ ((trimmedCorr c e trim).enabled && (trimmedCorr c e trim).selected.isSome) = true := by
    simp [trimmedCorr, henabled]
  have hd : ∃ cur, endTrimPrep e c t trim = { trimmedCorr c e trim with
      trim := trim, newTrim := none, cur := cur, running := none, free := t + 1 } := ⟨_, if_neg hcond⟩
  obtain ⟨cur, hd⟩ := hd
  rw [hd]
  exact ⟨rfl, rfl, rfl⟩

theorem cancelPrep_gives : let d := cancelPrep c
    d.running = none ∧ (feedBank d k).taps = (feedBank c k).taps ∧ d.trim = c.trim := by
  simp only [cancelPrep, setBankState_running, setBankState_taps, setBankState_trim, true_and]
  exact ⟨rfl, trivial⟩

theorem endFade_gives (req : SeqReq) : let d := endFade c req
    d.running = none ∧
    (req = .switch b → d.selected = some b ∧ (feedBank d b).state = .selected ∧ d.cur = (feedBank c b).set) ∧
    (∀ tr, req = .trim tr → d.trim = tr ∧ d.newTrim = none) ∧
    (req = .enable true → d.enabled = true) ∧ (req = .enable false → d.enabled = false) := by
  cases req with
  | switch x =>
    obtain ⟨srun, ssel, sstate, -, scur⟩ := selectBank_gives { c with running := none } x x
    refine ⟨srun, ?_, nofun, nofun, nofun⟩
    rintro ⟨⟩
    exact ⟨ssel, sstate, scur⟩
  | enable on =>
    refine ⟨rfl, nofun, nofun, ?_, ?_⟩ <;> · rintro ⟨⟩; rfl
  | trim tr =>
    refine ⟨rfl, nofun, ?_, nofun, nofun⟩
    rintro _ ⟨⟩
    exact ⟨rfl, rfl⟩
  | load => exact ⟨rfl, nofun, nofun, nofun, nofun⟩
  | clear => exact ⟨rfl, nofun, nofun, nofun, nofun⟩

end
end Sys2Proof.Machine

namespace Sys2Proof.Machine

/-! A raise (R552, R558), and a write under its check, as a command -/

theorem State.formRecord_srcs (s : State) (src a b : Nat) (clear : Bool) :
    (s.formRecord src a b clear).events.srcs = s.events.srcs := by
  unfold State.formRecord
  split
  · rfl
  · split
    · rfl
    · split <;> rfl

theorem State.raise_raises (s : State) (src a b : Nat) : Raises s (s.raise src a b) src a := by
  unfold Raises State.raise
  split
  · rfl
  · rw [State.evSrc, State.formRecord_srcs]
    simp only [mmod, mget_mset_self, satAdd_eq_min]
    rfl

/-- A raise between states beside it that have the same events and the same part under self-test. -/
theorem Raises.of_parts {s u v t : State} {src a : Nat} (h : Raises u v src a) (hsup : u.sup = s.sup) (hu : u.events = s.events)
    (ht : t.events = v.events) : Raises s t src a := by
  simpa only [Raises, State.quiet, State.evSrc, hsup, hu, ht] using h

theorem Gives.mono {cmd : Instr} {s : State} {P Q : State → Prop} (h : Gives cmd s P) (himp : ∀ t, P t → Q t) : Gives cmd s Q :=
  h.imp fun t ht => ⟨ht.1, himp t ht.2⟩

section
variable {s : State} {cmd : Instr} {index code : Nat} {eff : State → State}

theorem exec_takes (h : exec cmd s = .next (s.attempt index code eff)) (hcode : code = 0) (hgate : s.gate index = 0) :
    exec cmd s = .next (eff s) := h.trans (congrArg Host.Outcome.next (s.attempt_takes eff hcode hgate))

theorem declines_of_check {refusal : Nat} (h : exec cmd s = .next (s.attempt index code eff)) (hcode : code = refusal)
    (hne : refusal ≠ 0) : Declines cmd s refusal :=
  ⟨_, h, hcode ▸ s.attempt_refuses index eff (hcode ▸ hne)⟩

end

@[simp] theorem firstCode_nil : firstCode [] = 0 := rfl
@[simp] theorem firstCode_passed (l : List Nat) : firstCode (0 :: l) = firstCode l := rfl
theorem firstCode_failed {code : Nat} (l : List Nat) (h : code ≠ 0) : firstCode (code :: l) = code := if_neg h
@[simp] theorem need_true (code : Nat) : need true code = 0 := rfl
@[simp] theorem need_false (code : Nat) : need false code = code := rfl

theorem indexOk_in {n count : Nat} (h : n < count) : indexOk n count = 0 := by simp [indexOk, h]

/-! A bank's set written to DRAM (R169): whole blocks, so that no block is read, and no bank is found lost -/

section
variable (s : State)

theorem setBlocks_length (n : Nat) (set : FilterSet) : ∃ k, (setBlocks n set).length = 64 * k := by
  refine ⟨(setBlocks n set).length / 64, ?_⟩
  have hlen : (setBlocks n set).length = (setBytes n set).length + (64 - (setBytes n set).length % 64) % 64 := by
    rw [setBlocks, List.length_append, List.length_replicate]
  omega

theorem mem_blocksOf {m k b : Nat} (h : b ∈ blocksOf (64 * m) (64 * k)) : ∃ i, i < k ∧ b = 64 * (m + i) := by
  unfold blocksOf at h
  split at h
  · exact nomatch h
  · obtain ⟨i, hi, rfl⟩ := List.mem_map.mp h
    rw [List.mem_range] at hi
    exact ⟨i, by omega, by omega⟩

/-- A write of whole blocks leaves the feeds as they were. -/
theorem dramWrite_pipe_of_whole (data : List Byte) {m k : Nat} (hlen : data.length = 64 * k) :
    (dramWrite s (64 * m) data (List.replicate data.length true)).pipe = s.pipe := by
  have hfull : ∀ i, i < k → (List.range 64).all (fun j => decide (64 * m ≤ 64 * (m + i) + j) &&
      (List.replicate data.length true).getD (64 * (m + i) + j - 64 * m) false) = true := by
    intro i hi
    refine List.all_eq_true.mpr (fun j hj => ?_)
    rw [List.mem_range] at hj
    have hlt : 64 * (m + i) + j - 64 * m < data.length := by omega
    rw [List.getD_replicate true hlt, Bool.and_true, decide_eq_true_eq]
    omega
  unfold dramWrite
  refine List.foldlRecOn _ _ (motive := fun t : State => t.pipe = s.pipe) rfl (fun t ht b hb => ?_)
  have hb' := (List.mem_filter.mp hb).1
  rw [hlen] at hb'
  obtain ⟨i, hi, rfl⟩ := mem_blocksOf hb'
  simp only [hfull i hi, dramOpen, if_true]
  refine ((clearBlock_keeps ..).part .pipe rfl).trans ?_
  refine (foldl_same (φ := State.pipe) (fun u p => (activate_keeps u p _).part .pipe rfl) _ _).trans ?_
  exact ((keepSource_keeps ..).part .pipe rfl).trans ht

theorem storeBank_pipe (n f b : Nat) (set : FilterSet) : (storeBank s n f b set).pipe = s.pipe := by
  obtain ⟨k, hlen⟩ := setBlocks_length n set
  have hslot : bankSlot f b = 64 * (0x0120000000 / 64 + (2 * f + b) * 0x1000) := by unfold bankSlot; omega
  unfold storeBank
  split
  · rfl
  · refine ((burstEnd_keeps ..).part .pipe rfl).trans ?_
    rw [hslot, dramWrite_pipe_of_whole _ _ hlen]
    exact (wakeDram_keeps ..).part .pipe rfl

/-! A sequencer's state kept (R157, R169, R171), and its status entries (R190) -/

theorem feed_setCorr_self (f : Nat) (c : Corr) : ((setCorr s f c).feed f).corr = c := by
  rw [setCorr, feed_setFeed, if_pos rfl]

theorem feed_setCorr_ne (c : Corr) {f g : Nat} (h : g ≠ f) : (setCorr s f c).feed g = s.feed g := by
  rw [setCorr, feed_setFeed, if_neg h]

theorem State.feed_congr {s t : State} (h : t.pipe = s.pipe) (f : Nat) : t.feed f = s.feed f := by
  unfold State.feed
  rw [h]

theorem keepCorr_pipe (n f : Nat) (c : Corr) :
    (keepCorr s n f c).pipe = (setCorr s f { c with excluded := false }).pipe := by
  have hbank : ∀ (p : Prop) [Decidable p] (t : State) (b : Nat) (set : FilterSet),
      (if p then t else storeBank t n f b set).pipe = t.pipe := by
    intro p _ t b set
    split
    · rfl
    · exact storeBank_pipe ..
  have hcopy : ∀ (p : Prop) [Decidable p] (t : State) (set : FilterSet),
      (if p then t else storeCopy t n f set).pipe = t.pipe := by
    intro p _ t set
    split
    · rfl
    · exact (storeCopy_keeps ..).part .pipe rfl
  have hraise : ∀ (p : Prop) [Decidable p] (t : State), (if p then t.raise 38 f 0 else t).pipe = t.pipe := by
    intro p _ t
    split
    · exact (State.raise_keeps ..).part .pipe rfl
    · rfl
  unfold keepCorr
  rw [hraise, hcopy, hbank, hbank]

/-- What a feed's sequencer keeps once a preparation or a crossfade has ended. -/
theorem corrStatus_keepCorr_corr (n f : Nat) (c : Corr) :
    ((corrStatus (keepCorr s n f c) f).feed f).corr = { c with excluded := false } := by
  rw [State.feed_congr ((corrStatus_keeps ..).part .pipe rfl), State.feed_congr (keepCorr_pipe ..), feed_setCorr_self]

theorem corrStatus_stget (d f : Nat) {i sub : Nat} (h : ∀ k, 7 ≤ k → k ≤ 0x0B → key i sub ≠ key (0x4000 + f) k) :
    (corrStatus s f).stget d i sub = s.stget d i sub := by
  unfold corrStatus
  dsimp only
  rw [State.stget_stset_ne _ _ _ _ (h 0x0B (by decide) (by decide)), State.stget_stset_ne _ _ _ _ (h 0x0A (by decide) (by decide)),
    State.stget_stset_ne _ _ _ _ (h 9 (by decide) (by decide)), State.stget_stset_ne _ _ _ _ (h 8 (by decide) (by decide)),
    State.stget_stset_ne _ _ _ _ (h 7 (by decide) (by decide))]

end

/-! PREPARATION_COMPLETE (R168, R169) -/

section
variable {s : State} {f start : Nat}

theorem execPreparationComplete_idle (complete : Bool) (h : (s.feed f).corr.running = none) :
    exec (.preparationComplete f complete) s = .next s := by
  refine congrArg Host.Outcome.next ?_
  simp only [prepEnd, h]

/-- A load that ends in its time (R169, R170). -/
theorem execPreparationComplete_loads {b : Nat} {taps : List Int}
    (hrun : (s.feed f).corr.running = some (.load b taps, .preparing start)) (h : start + 301 ≤ s.clk.tick) :
    Gives (.preparationComplete f true) s (fun t =>
      (t.feed f).corr = { endLoad (seqEnv (s.dictAt 1) f) (s.feed f).corr b taps with excluded := false }) := by
  refine ⟨_, congrArg Host.Outcome.next ?_, corrStatus_keepCorr_corr s (seqEnv (s.dictAt 1) f).n f _⟩
  simp only [prepEnd, hrun]
  exact if_pos h

/-- A trim's preparation that ends in its time (R168, R172). -/
theorem execPreparationComplete_trims {tr : Option (List Int)}
    (hrun : (s.feed f).corr.running = some (.trim tr, .preparing start)) (h : start + 301 ≤ s.clk.tick) :
    Gives (.preparationComplete f true) s (fun t =>
      (t.feed f).corr = { endTrimPrep (seqEnv (s.dictAt 1) f) (s.feed f).corr (start + 300) tr with excluded := false }) := by
  refine ⟨_, congrArg Host.Outcome.next ?_, corrStatus_keepCorr_corr s (seqEnv (s.dictAt 1) f).n f _⟩
  simp only [prepEnd, hrun]
  exact if_pos h

/-- A preparation that was cut short, before its event (R169). -/
def prepCut (s : State) (f start : Nat) : State :=
  (setCorr (s.mark (start + 300) 5) f (cancelPrep (s.feed f).corr)).bump 0x3803 0x06 1

theorem prepCut_gives : let t := corrStatus ((prepCut s f start).raise 39 f 0) f
    (t.feed f).corr.running = none ∧ (∀ k, (feedBank (t.feed f).corr k).taps = (feedBank (s.feed f).corr k).taps) ∧
    (t.feed f).corr.trim = (s.feed f).corr.trim ∧ t.stget 0 0x3803 0x06 = min (s.stget 0 0x3803 0x06 + 1) (2 ^ 32 - 1) ∧
    t.twin.marks = s.twin.marks ++ [(start + 300, 5)] ∧ Raises s t 39 f := by
  have hpipe : (corrStatus ((prepCut s f start).raise 39 f 0) f).pipe = (prepCut s f start).pipe :=
    ((corrStatus_keeps ..).part .pipe rfl).trans ((State.raise_keeps ..).part .pipe rfl)
  have hcorr : ((corrStatus ((prepCut s f start).raise 39 f 0) f).feed f).corr = cancelPrep (s.feed f).corr :=
    (congrArg FeedSt.corr (State.feed_congr hpipe f)).trans (feed_setCorr_self (s.mark (start + 300) 5) f _)
  have htwin : (corrStatus ((prepCut s f start).raise 39 f 0) f).twin = (prepCut s f start).twin :=
    ((corrStatus_keeps ..).part .twin rfl).trans (State.raise_twin ..)
  have hkey : ∀ k, 7 ≤ k → k ≤ 0x0B → key 0x3803 0x06 ≠ key (0x4000 + f) k := fun k _ _ => by simp only [key]; omega
  intro t
  rw [hcorr, htwin]
  refine ⟨(cancelPrep_gives _ 0).1, fun k => (cancelPrep_gives _ k).2.1, (cancelPrep_gives _ 0).2.2, ?_, rfl, ?_⟩
  · rw [corrStatus_stget _ 0 f hkey, State.raise_stget]
    exact State.stget_bump_self (setCorr (s.mark (start + 300) 5) f (cancelPrep (s.feed f).corr)) 0x3803 0x06 1
  · exact (State.raise_raises (prepCut s f start) 39 f 0).of_parts rfl rfl ((corrStatus_keeps ..).part .events rfl)

variable {req : SeqReq} (hrun : (s.feed f).corr.running = some (req, .preparing start))
include hrun

theorem execPreparationComplete_early (complete : Bool) (h : s.clk.tick < start + 301) :
    exec (.preparationComplete f complete) s = .next s := by
  refine congrArg Host.Outcome.next ?_
  simp only [prepEnd, hrun]
  exact if_neg (by omega)

theorem execPreparationComplete_cut (h : start + 301 ≤ s.clk.tick) :
    exec (.preparationComplete f false) s = .next (corrStatus ((prepCut s f start).raise 39 f 0) f) := by
  refine congrArg Host.Outcome.next ?_
  simp only [prepEnd, hrun]
  exact if_pos h

end

/-! CROSSFADE_END (R171) -/

section
variable {s : State} {f start len : Nat} {req : SeqReq}

theorem execCrossfadeEnd_idle (h : (s.feed f).corr.running = none) : exec (.crossfadeEnd f) s = .next s := by
  refine congrArg Host.Outcome.next ?_
  simp only [fadeEnd, h]

variable (hrun : (s.feed f).corr.running = some (req, .crossfading start len))
include hrun

theorem execCrossfadeEnd_early (h : s.clk.tick < start + len + 1) : exec (.crossfadeEnd f) s = .next s := by
  refine congrArg Host.Outcome.next ?_
  simp only [fadeEnd, hrun]
  exact if_neg (by omega)

theorem execCrossfadeEnd_ends (h : start + len + 1 ≤ s.clk.tick) : Gives (.crossfadeEnd f) s (fun t =>
    (t.feed f).corr = { endFade (s.feed f).corr req with excluded := false }) := by
  refine ⟨_, congrArg Host.Outcome.next ?_, corrStatus_keepCorr_corr s (perTick (s.dictAt 1)) f _⟩
  simp only [fadeEnd, hrun]
  exact if_pos h

end
end Sys2Proof.Machine

namespace Sys2Proof.Machine

/-! A request that enters the queue of a sequencer (R168) -/

/-- Request `req` of feed `f` enters once, for the block that ingress processes, and no other feed changes. -/
def Enters (s t : State) (f : Nat) (req : SeqReq) : Prop :=
  (t.feed f).corr = { (s.feed f).corr with waiting := (s.feed f).corr.waiting ++ [(s.clk.tick, req)] } ∧
    ∀ g, g ≠ f → t.feed g = s.feed g

theorem enterReq_enters {s u : State} (f : Nat) (req : SeqReq) (hpipe : u.pipe = s.pipe) (hclk : u.clk = s.clk) :
    Enters s (enterReq u f req) f req := by
  have hfeed := State.feed_congr hpipe
  refine ⟨?_, fun g hg => (feed_setCorr_ne u _ hg).trans (hfeed g)⟩
  rw [enterReq, feed_setCorr_self, hfeed, hclk]

theorem enterReq_stget (s : State) (f : Nat) (req : SeqReq) (d index sub : Nat) :
    (enterReq s f req).stget d index sub = s.stget d index sub := rfl

section
variable {s : State} {f v : Nat}

/-- The correction of feed `f` as it stands once both blocks ahead are corrected (R159). -/
def corrAheadOf (s : State) (f : Nat) : Corr := ((corrAhead s).feed f).corr

/-- The requests of feed `f` that a further one stands behind: those that wait, and those that pending writes will make (R168). -/
def requestsAhead (s : State) (f : Nat) : Nat := (corrAheadOf s f).waiting.length + (pendingRequests s f).length

theorem busyCheck_room (h : requestsAhead s f < 8) : busyCheck (corrAheadOf s f) (pendingRequests s f).length = 0 := by
  unfold requestsAhead at h
  rw [busyCheck, decide_eq_true h, need_true]

theorem busyCheck_full (h : 8 ≤ requestsAhead s f) : busyCheck (corrAheadOf s f) (pendingRequests s f).length = Abort.busy := by
  unfold requestsAhead at h
  rw [busyCheck, decide_eq_false (Nat.not_lt.mpr h), need_false]

/-! The four writes, each under its check -/

theorem execAllocationWrite_eq (f v : Nat) : exec (.allocationWrite f v) s = .next (s.attempt (0x4000 + f)
    (allocationCheck s (corrAhead s) f v) (fun t => allocationApply t f v)) := rfl

theorem execBankLoad_eq (f b : Nat) (data : List Byte) : exec (.bankLoad f b data) s = .next (s.attempt (0x4000 + f)
    (bankLoadCheck s (corrAhead s) f b data (pendingRequests s f).length ((pendingRequests s f).contains (.switch b)))
    (fun t => bankLoadApply t f b data)) := rfl

theorem execBankSwitch_eq (f b : Nat) : exec (.bankSwitch f b) s = .next (s.attempt (0x4000 + f)
    (bankSwitchCheck (corrAhead s) f b (pendingRequests s f).length) (fun t => bankSwitchApply t (corrAhead s) f b)) := rfl

theorem execCorrectionEnable_eq (f v : Nat) : exec (.correctionEnable f v) s = .next (s.attempt (0x4000 + f)
    (correctionEnableCheck (corrAhead s) f v (pendingRequests s f).length)
    (fun t => correctionEnableApply t (corrAhead s) f v)) := rfl

/-! ALLOCATION_WRITE (R156) -/

/-- The sum of the other allocations does not read the feed's own. -/
theorem otherTaps_put (f v : Nat) : otherTaps (s.put 0 (0x4000 + f) 0x01 v).dict f = otherTaps s.dict f := by
  unfold otherTaps
  have hown : (decide (key 0x4000 0 ≤ key (0x4000 + f) 1 ∧ key (0x4000 + f) 1 < key 0x4200 0) &&
      decide (key (0x4000 + f) 1 % 256 = 1) && decide (key (0x4000 + f) 1 ≠ key (0x4000 + f) 1)) = false := by simp
  exact congrArg (List.foldl _ 0) (filter_mset_of_not (fun k => decide (key 0x4000 0 ≤ k ∧ k < key 0x4200 0) &&
    decide (k % 256 = 1) && decide (k ≠ key (0x4000 + f) 1)) 0 v s.dict hown)

theorem allocationApply_gives (f v : Nat) : let t := allocationApply s f v
    Enters s t f .clear ∧ t.val 0 (0x4000 + f) 0x01 = v ∧ t.stget 0 0x3803 0x01 = v + otherTaps s.dict f := by
  refine ⟨enterReq_enters f .clear rfl rfl, val_put s .., ?_⟩
  rw [allocationApply, enterReq_stget, stget_stset, otherTaps_put]

variable (hf : f < 512)
include hf

theorem allocationCheck_in {q : State} (hv : v ≤ 16384) (hstep : v % 32 = 0) : allocationCheck s q f v = firstCode [
    need (!s.flag (0x4000 + f) 0x02 && (q.feed f).corr.running.isNone && (q.feed f).corr.waiting.isEmpty) Abort.conflict,
    need (decide (v + otherTaps s.dict f ≤ 2097152)) Abort.capacity] := by
  have hrange : rangeOk v 0 16384 = 0 := rangeOk_in (by omega) (by omega)
  simp only [allocationCheck, indexOk_in hf, hrange, hstep, decide_true, need_true, firstCode_passed]

theorem execAllocationWrite_clears (hv : v ≤ 16384) (hstep : v % 32 = 0) (hgate : s.gate (0x4000 + f) = 0)
    (hflag : s.flag (0x4000 + f) 0x02 = false) (hrun : (corrAheadOf s f).running = none) (hwait : (corrAheadOf s f).waiting = [])
    (hsum : v + otherTaps s.dict f ≤ 2097152) : Gives (.allocationWrite f v) s (fun t => Enters s t f .clear ∧
      t.val 0 (0x4000 + f) 0x01 = v ∧ t.stget 0 0x3803 0x01 = v + otherTaps s.dict f) := by
  refine ⟨_, exec_takes (execAllocationWrite_eq f v) ?_ hgate, allocationApply_gives f v⟩
  unfold corrAheadOf at hrun hwait
  simp [allocationCheck_in hf hv hstep, hflag, hrun, hwait, hsum]

theorem execAllocationWrite_enabled (hv : v ≤ 16384) (hstep : v % 32 = 0) (hflag : s.flag (0x4000 + f) 0x02 = true) :
    Declines (.allocationWrite f v) s Abort.conflict := by
  refine declines_of_check (execAllocationWrite_eq f v) ?_ (by decide)
  rw [allocationCheck_in hf hv hstep, hflag]
  rfl

theorem execAllocationWrite_range (h : v % 32 ≠ 0 ∨ 16384 < v) : Declines (.allocationWrite f v) s Abort.range := by
  refine declines_of_check (execAllocationWrite_eq f v) ?_ (by decide)
  rw [allocationCheck, indexOk_in hf, firstCode_passed]
  by_cases hv : v ≤ 16384
  · rw [rangeOk_in (by omega) (by omega), firstCode_passed,
      decide_eq_false (h.resolve_right (Nat.not_lt.mpr hv)), need_false, firstCode_failed _ (by decide)]
  · rw [rangeOk_out (by omega), firstCode_failed _ (by decide)]

/-! BANK_LOAD (R159, R168) -/

variable {b : Nat} {data : List Byte}

/-- Whether a bank may be loaded: it is neither Selected nor the target of a switch that waits or is pending. -/
def bankFree (s : State) (f b : Nat) : Bool :=
  decide ((feedBank (corrAheadOf s f) b).state ≠ .selected) && !switchWaits (corrAheadOf s f) b &&
    !(pendingRequests s f).contains (.switch b)

theorem execBankLoad_empty (hb : b < 2) (hgate : s.gate (0x4000 + f) = 0) : exec (.bankLoad f b []) s = .next s := by
  refine exec_takes (execBankLoad_eq f b []) ?_ hgate
  simp [bankLoadCheck, indexOk_in hf, hb]

section
variable (hb : b < 2) (hne : data ≠ []) (hwords : data.length % 4 = 0) (hfit : data.length / 4 ≤ allocation s.dict f)
include hb hne hwords hfit

theorem bankLoadCheck_whole : bankLoadCheck s (corrAhead s) f b data (pendingRequests s f).length
    ((pendingRequests s f).contains (.switch b)) =
      firstCode [need (bankFree s f b) Abort.bankBusy, busyCheck (corrAheadOf s f) (pendingRequests s f).length] := by
  rw [bankLoadCheck, if_neg (mt List.isEmpty_iff.mp hne)]
  simp only [indexOk_in hf, hb, hwords, hfit, decide_true, need_true, firstCode_passed]
  rfl

theorem execBankLoad_enters (hgate : s.gate (0x4000 + f) = 0) (hfree : bankFree s f b = true) (hroom : requestsAhead s f < 8) :
    Gives (.bankLoad f b data) s (fun t => Enters s t f (.load b (beWords data))) := by
  refine ⟨_, exec_takes (execBankLoad_eq f b data) ?_ hgate, ?_⟩
  · rw [bankLoadCheck_whole hf hb hne hwords hfit, hfree, busyCheck_room hroom]
    rfl
  · rw [bankLoadApply, if_neg (mt List.isEmpty_iff.mp hne)]
    exact enterReq_enters f _ rfl rfl

theorem execBankLoad_busy (hfree : bankFree s f b = true) (hfull : 8 ≤ requestsAhead s f) :
    Declines (.bankLoad f b data) s Abort.busy := by
  refine declines_of_check (execBankLoad_eq f b data) ?_ (by decide)
  rw [bankLoadCheck_whole hf hb hne hwords hfit, hfree, busyCheck_full hfull]
  rfl

theorem execBankLoad_bankBusy (hheld : bankFree s f b = false) : Declines (.bankLoad f b data) s Abort.bankBusy := by
  refine declines_of_check (execBankLoad_eq f b data) ?_ (by decide)
  rw [bankLoadCheck_whole hf hb hne hwords hfit, hheld]
  rfl

end

/-! BANK_SWITCH (R170) -/

section
variable (hb : b ≤ 1)
include hb

theorem execBankSwitch_same (hgate : s.gate (0x4000 + f) = 0) (hsame : finalBank (corrAheadOf s f) = b) :
    exec (.bankSwitch f b) s = .next (s.put 0 (0x4000 + f) 0x03 b) := by
  refine (exec_takes (execBankSwitch_eq f b) ?_ hgate).trans (congrArg Host.Outcome.next (if_pos hsame))
  have hrange : rangeOk b 0 1 = 0 := rangeOk_in (by omega) (by omega)
  refine (if_pos hsame).trans ?_
  simp [indexOk_in hf, hrange]

variable (hother : finalBank (corrAheadOf s f) ≠ b)
include hother

theorem bankSwitchCheck_other : bankSwitchCheck (corrAhead s) f b (pendingRequests s f).length = firstCode [
    need (decide ((feedBank (corrAheadOf s f) b).state ≠ .empty)) Abort.conflict,
    busyCheck (corrAheadOf s f) (pendingRequests s f).length] := by
  refine (if_neg hother).trans ?_
  rw [indexOk_in hf, firstCode_passed, rangeOk_in (by omega) (by omega), firstCode_passed]
  rfl

theorem execBankSwitch_enters (hgate : s.gate (0x4000 + f) = 0) (hloaded : (feedBank (corrAheadOf s f) b).state ≠ .empty)
    (hroom : requestsAhead s f < 8) : Gives (.bankSwitch f b) s (fun t => Enters s t f (.switch b) ∧
      t.val 0 (0x4000 + f) 0x03 = b) := by
  refine ⟨enterReq (s.put 0 (0x4000 + f) 0x03 b) f (.switch b), ?_, enterReq_enters f _ rfl rfl, val_put s ..⟩
  refine (exec_takes (execBankSwitch_eq f b) ?_ hgate).trans (congrArg Host.Outcome.next (if_neg hother))
  rw [bankSwitchCheck_other hf hb hother, decide_eq_true hloaded, busyCheck_room hroom]
  rfl

theorem execBankSwitch_busy (hloaded : (feedBank (corrAheadOf s f) b).state ≠ .empty) (hfull : 8 ≤ requestsAhead s f) :
    Declines (.bankSwitch f b) s Abort.busy := by
  refine declines_of_check (execBankSwitch_eq f b) ?_ (by decide)
  rw [bankSwitchCheck_other hf hb hother, decide_eq_true hloaded, busyCheck_full hfull]
  rfl

theorem execBankSwitch_empty (hempty : (feedBank (corrAheadOf s f) b).state = .empty) :
    Declines (.bankSwitch f b) s Abort.conflict := by
  refine declines_of_check (execBankSwitch_eq f b) ?_ (by decide)
  rw [bankSwitchCheck_other hf hb hother, hempty]
  rfl

end

/-! CORRECTION_ENABLE (R170) -/

section
variable (hv : v ≤ 1)
include hv

theorem execCorrectionEnable_same (hgate : s.gate (0x4000 + f) = 0) (hsame : finalEnable (corrAheadOf s f) = decide (v = 1)) :
    exec (.correctionEnable f v) s = .next (s.put 0 (0x4000 + f) 0x02 v) := by
  refine (exec_takes (execCorrectionEnable_eq f v) ?_ hgate).trans (congrArg Host.Outcome.next (if_pos hsame))
  refine (if_pos hsame).trans ?_
  simp [indexOk_in hf, boolOk, hv]

variable (hother : finalEnable (corrAheadOf s f) ≠ decide (v = 1))
include hother

theorem correctionEnableCheck_other : correctionEnableCheck (corrAhead s) f v (pendingRequests s f).length = firstCode [
    need (v = 0 || decide ((corrAheadOf s f).bank0.state = .selected) || decide ((corrAheadOf s f).bank1.state = .selected))
      Abort.conflict,
    busyCheck (corrAheadOf s f) (pendingRequests s f).length] := by
  refine (if_neg hother).trans ?_
  rw [indexOk_in hf, firstCode_passed, boolOk, decide_eq_true hv, need_true, firstCode_passed]
  rfl

theorem execCorrectionEnable_enters (hgate : s.gate (0x4000 + f) = 0) (hroom : requestsAhead s f < 8)
    (hsel : v = 0 ∨ (corrAheadOf s f).bank0.state = .selected ∨ (corrAheadOf s f).bank1.state = .selected) :
    Gives (.correctionEnable f v) s (fun t => Enters s t f (.enable (decide (v = 1))) ∧ t.val 0 (0x4000 + f) 0x02 = v) := by
  refine ⟨enterReq (s.put 0 (0x4000 + f) 0x02 v) f (.enable (decide (v = 1))), ?_, enterReq_enters f _ rfl rfl, val_put s ..⟩
  refine (exec_takes (execCorrectionEnable_eq f v) ?_ hgate).trans (congrArg Host.Outcome.next (if_neg hother))
  have hok : (v = 0 || decide ((corrAheadOf s f).bank0.state = .selected) ||
      decide ((corrAheadOf s f).bank1.state = .selected)) = true := by simpa [or_assoc] using hsel
  rw [correctionEnableCheck_other hf hv hother, hok, busyCheck_room hroom]
  rfl

end

theorem execCorrectionEnable_busy (hon : finalEnable (corrAheadOf s f) = true) (hfull : 8 ≤ requestsAhead s f) :
    Declines (.correctionEnable f 0) s Abort.busy := by
  refine declines_of_check (execCorrectionEnable_eq f 0) ?_ (by decide)
  rw [correctionEnableCheck_other hf (Nat.zero_le 1) (by simp [hon]), busyCheck_full hfull]
  rfl

theorem execCorrectionEnable_unselected (hoff : finalEnable (corrAheadOf s f) = false)
    (h0 : (corrAheadOf s f).bank0.state ≠ .selected) (h1 : (corrAheadOf s f).bank1.state ≠ .selected) :
    Declines (.correctionEnable f 1) s Abort.conflict := by
  refine declines_of_check (execCorrectionEnable_eq f 1) ?_ (by decide)
  rw [correctionEnableCheck_other hf (Nat.le_refl 1) (by simp [hoff]), decide_eq_false h0, decide_eq_false h1]
  rfl

end
end Sys2Proof.Machine

namespace Sys2Proof.Machine

/-! Pairs of the drift tracker (R177, R178) -/

section
variable {s t : State}

theorem State.val_congr (hdict : t.dict = s.dict) (d i sub : Nat) : t.val d i sub = s.val d i sub := by
  rw [State.val, State.val, hdict]

theorem trackedPairs_congr (hdict : t.dict = s.dict) : trackedPairs t = trackedPairs s := by
  unfold trackedPairs isPair State.flag State.val
  rw [hdict]

theorem pairOf_congr (hpairs : t.drift.pairs = s.drift.pairs) (k : Nat) : pairOf t k = pairOf s k := by
  rw [pairOf, pairOf, hpairs]

theorem trackedPairs_nodup (s : State) : (trackedPairs s).Nodup :=
  (List.nodup_range.filter _).sublist (List.take_sublist ..)

/-! DRIFT_ESTIMATE_WINDOW (R178, R179) -/

/-- The valid estimate of pair `k` in a window. -/
def estimateOf (s : State) (est : List PairEstimate) (k : Nat) : Option PairEstimate :=
  est.find? (fun e => decide (e.zone = k / 8) && decide (e.mic = k % 8) && estimateValid s e)

theorem estimateOf_congr (hdict : t.dict = s.dict) (est : List PairEstimate) (k : Nat) :
    estimateOf t est k = estimateOf s est k := by
  unfold estimateOf estimateValid State.val
  rw [hdict]

theorem lagOf_congr (hdict : t.dict = s.dict) (hsigma : t.drift.sigma = s.drift.sigma) (hzoff : t.drift.zoff = s.drift.zoff)
    {k : Nat} (hpair : pairOf t k = pairOf s k) (e : PairEstimate) : lagOf t k e = lagOf s k e := by
  unfold lagOf predictedLag
  rw [hsigma, hzoff, hpair, State.val_congr hdict]

/-- Pair `k` after a window. -/
def pairAfter (s : State) (est : List PairEstimate) (k : Nat) : Pair :=
  match estimateOf s est k with
  | some e => { pairOf s k with
      state := 1, invalid := 0, acoustic := lagOf s k e - (s.val 0 (0x4440 + k / 8) 0x02 : Nat), bands := e.bands }
  | none => { pairOf s k with
      state := if (pairOf s k).state = 3 || decide (2 ≤ (pairOf s k).invalid) then 3 else 2,
      invalid := min 3 ((pairOf s k).invalid + 1) }

theorem pairWindow_drift (s : State) (est : List PairEstimate) (k : Nat) : (pairWindow s est k).drift =
    { s.drift with pairs := mset Pair.init s.drift.pairs k (pairAfter s est k) } :=
  (State.condition_keeps ..).part .drift rfl

theorem pairOf_pairWindow_self (s : State) (est : List PairEstimate) (k : Nat) :
    pairOf (pairWindow s est k) k = pairAfter s est k := by
  rw [pairOf, pairWindow_drift]
  exact mget_mset_self ..

theorem pairOf_pairWindow_ne (s : State) (est : List PairEstimate) {i k : Nat} (h : k ≠ i) :
    pairOf (pairWindow s est i) k = pairOf s k := by
  rw [pairOf, pairWindow_drift]
  exact mget_mset_ne _ _ _ _ _ h

/-- A pair's window reads of the other pairs nothing. -/
theorem pairAfter_pairWindow_ne (s : State) (est : List PairEstimate) {i k : Nat} (h : k ≠ i) :
    pairAfter (pairWindow s est i) est k = pairAfter s est k := by
  have hdict : (pairWindow s est i).dict = s.dict := (pairWindow_keeps ..).part .dict rfl
  have hsigma : (pairWindow s est i).drift.sigma = s.drift.sigma := by rw [pairWindow_drift]
  have hzoff : (pairWindow s est i).drift.zoff = s.drift.zoff := by rw [pairWindow_drift]
  have hpair := pairOf_pairWindow_ne s est h
  simp only [pairAfter, estimateOf_congr hdict, lagOf_congr hdict hsigma hzoff hpair, State.val_congr hdict, hpair]

theorem pairOf_foldl_pairWindow (est : List PairEstimate) (k : Nat) : ∀ (l : List Nat) (s : State), l.Nodup →
    pairOf (l.foldl (fun s k => pairWindow s est k) s) k = if k ∈ l then pairAfter s est k else pairOf s k
  | [], _, _ => rfl
  | i :: l, s, hl => by
    obtain ⟨hi, hl⟩ := List.nodup_cons.mp hl
    rw [List.foldl_cons, pairOf_foldl_pairWindow est k l _ hl]
    by_cases hk : k = i
    · subst hk
      rw [if_neg hi, if_pos List.mem_cons_self, pairOf_pairWindow_self]
    · simp only [List.mem_cons, hk, false_or, pairAfter_pairWindow_ne s est hk, pairOf_pairWindow_ne s est hk]

theorem zoneWindow_pairs (s : State) (z : Nat) : (zoneWindow s z).drift.pairs = s.drift.pairs := by
  unfold zoneWindow
  dsimp only
  rw [State.stset_drift]
  rfl

/-- Every tracked pair after a window, before the zones. -/
def pairsWindowed (s : State) (est : List PairEstimate) : State := (trackedPairs s).foldl (fun s k => pairWindow s est k) s

theorem driftWindow_eq (s : State) (est : List PairEstimate) (hmode : s.drift.mode ≠ 0) :
    driftWindow s est = (trackedZones s).foldl zoneWindow (pairsWindowed s est) := if_neg hmode

theorem pairOf_driftWindow (s : State) (est : List PairEstimate) (hmode : s.drift.mode ≠ 0) (k : Nat) :
    pairOf (driftWindow s est) k = if k ∈ trackedPairs s then pairAfter s est k else pairOf s k := by
  have hzones : ∀ (l : List Nat) (u : State), (l.foldl zoneWindow u).drift.pairs = u.drift.pairs :=
    foldl_same (φ := fun t : State => t.drift.pairs) zoneWindow_pairs
  rw [driftWindow_eq s est hmode, pairOf_congr (hzones ..)]
  exact pairOf_foldl_pairWindow est k _ s (trackedPairs_nodup s)

theorem pairAfter_gives (s : State) (est : List PairEstimate) (k : Nat) :
    (∀ e, estimateOf s est k = some e → (pairAfter s est k).state = 1 ∧ (pairAfter s est k).invalid = 0 ∧
      (pairAfter s est k).acoustic = lagOf s k e - (s.val 0 (0x4440 + k / 8) 0x02 : Int) ∧ (pairAfter s est k).bands = e.bands) ∧
    (estimateOf s est k = none → (pairAfter s est k).acoustic = (pairOf s k).acoustic ∧
      (pairAfter s est k).state = (if (pairOf s k).state = 3 ∨ 2 ≤ (pairOf s k).invalid then 3 else 2)) := by
  refine ⟨fun e h => ?_, fun h => ?_⟩
  · simp only [pairAfter, h, and_self]
  · simp only [pairAfter, h, Bool.or_eq_true, decide_eq_true_eq, and_self]

theorem execDriftEstimateWindow_gives (s : State) (est : List PairEstimate) (hmode : s.drift.mode ≠ 0) :
    Gives (.driftEstimateWindow est) s (fun t => ∀ k,
      (k ∉ trackedPairs s → pairOf t k = pairOf s k) ∧ (k ∈ trackedPairs s → pairOf t k = pairAfter s est k)) :=
  ⟨_, rfl, fun k => ⟨fun h => (pairOf_driftWindow s est hmode k).trans (if_neg h),
    fun h => (pairOf_driftWindow s est hmode k).trans (if_pos h)⟩⟩

theorem execDriftEstimateWindow_off (s : State) (est : List PairEstimate) (hmode : s.drift.mode = 0) :
    exec (.driftEstimateWindow est) s = .next s := congrArg Host.Outcome.next (if_pos hmode)

/-! What a publication is formed from (R182) -/

theorem basedPairs_congr (hdict : t.dict = s.dict) (hpairs : t.drift.pairs = s.drift.pairs) : basedPairs t = basedPairs s := by
  simp only [basedPairs, trackedPairs_congr hdict, pairOf_congr hpairs]

theorem sigmaTarget_congr (hdict : t.dict = s.dict) (hpairs : t.drift.pairs = s.drift.pairs)
    (hsigma : t.drift.sigmaT = s.drift.sigmaT) : sigmaTarget t = sigmaTarget s := by
  simp only [sigmaTarget, basedPairs_congr hdict hpairs, State.val, hdict, hsigma]

theorem satTo_bounds {lo hi : Int} (h : lo ≤ hi) (x : Int) : lo ≤ satTo lo hi x ∧ satTo lo hi x ≤ hi := by
  unfold satTo
  split
  · omega
  · split <;> omega

theorem sigmaTarget_few (h : (basedPairs s).length < 3) : sigmaTarget s = s.drift.sigmaT := by
  unfold sigmaTarget
  dsimp only
  rw [if_pos h]

theorem sigmaTarget_bounds (h : 3 ≤ (basedPairs s).length) (hlim : s.val 1020054732 0x4400 0x05 ≤ s.val 1127428915 0x4400 0x06) :
    (s.val 1020054732 0x4400 0x05 : Int) ≤ sigmaTarget s ∧ sigmaTarget s ≤ (s.val 1127428915 0x4400 0x06 : Int) := by
  unfold sigmaTarget
  dsimp only
  rw [if_neg (Nat.not_lt.mpr h)]
  exact satTo_bounds (Int.ofNat_le.mpr hlim) _

/-! A publication noted (R183, R191) -/

theorem notePub_drift (s : State) (p : DriftPub) : ∃ zones, (notePub s p).drift = { s.drift with zones := zones } := by
  have hraise : ∀ (u : State) (src a c : Nat), (u.raise src a c).drift = u.drift := fun _ _ _ _ =>
    (State.raise_keeps ..).part .drift rfl
  have hstat : ∀ (l : List (Nat × Int)) (u : State),
      (l.foldl (fun s e => s.stset 0 (0x4440 + e.1) 0x05 (toPat 32 e.2)) u).drift = u.drift :=
    foldl_same (φ := State.drift) (fun _ _ => State.stset_drift ..)
  unfold notePub
  rw [hraise]
  refine List.foldlRecOn _ _ (motive := fun u : State => ∃ zones, u.drift = { s.drift with zones := zones }) ?_ ?_
  · exact ⟨s.drift.zones, hstat ..⟩
  · rintro u ⟨zones, hu⟩ e -
    refine ⟨mset ZoneTrack.init u.drift.zones e.1 { zoneOf u e.1 with taps := some e.2.1, gains := e.2.2 },
      ((State.condition_keeps ..).part .drift rfl).trans ?_⟩
    exact congrArg (fun g : Drift => { g with
      zones := mset ZoneTrack.init u.drift.zones e.1 { zoneOf u e.1 with taps := some e.2.1, gains := e.2.2 } }) hu

/-- The status entries of the zones stand beside the tracker's own, which `notePub` writes first. -/
theorem notePub_stget (s : State) (p : DriftPub) (d : Nat) {sub : Nat} (h : sub < 256) : (notePub s p).stget d 0x4400 sub =
    ((s.stset (2 ^ 30) 0x4400 0x10 p.sigma.toNat).bump 0x4400 0x11 1).stget d 0x4400 sub := by
  unfold notePub
  rw [State.raise_stget]
  refine (foldl_same (φ := fun u : State => u.stget d 0x4400 sub) (fun u e => ?_) _ _).trans
    (foldl_same (φ := fun u : State => u.stget d 0x4400 sub) (fun u e => ?_) _ _)
  · refine (congrArg (fun m => mget d m (key 0x4400 sub)) ((State.condition_keeps ..).part .stat rfl)).trans ?_
    exact State.stget_stset_ne _ 0 d _ (by simp only [key]; omega)
  · exact State.stget_stset_ne _ 0 d _ (by simp only [key]; omega)

theorem notePub_target (s : State) (p : DriftPub) : (notePub s p).stget (2 ^ 30) 0x4400 0x10 = p.sigma.toNat := by
  rw [notePub_stget s p _ (by decide), State.stget_bump_ne _ _ _ (by decide), stget_stset]

theorem notePub_count (s : State) (p : DriftPub) :
    (notePub s p).stget 0 0x4400 0x11 = min (s.stget 0 0x4400 0x11 + 1) (2 ^ 32 - 1) := by
  rw [notePub_stget s p _ (by decide), State.stget_bump_self, State.stget_stset_ne _ _ _ _ (by decide)]

/-! Trims removed (R187) -/

theorem untrim_stget (s : State) (which : Nat → Bool) (d : Nat) {i sub : Nat} (h : key i sub ≠ key 0x3803 0x03) :
    (untrim s which).stget d i sub = s.stget d i sub := by
  unfold untrim
  refine foldl_same (φ := fun u : State => u.stget d i sub) (fun u f => ?_) _ _
  dsimp only
  split
  · unfold askTrim
    split
    · rfl
    · exact State.stget_bump_ne _ _ _ h
  · rfl

end

/-! DRIFT_PUBLICATION (R182, R184, R187) -/

section
variable (s : State)

/-- The tracker at the end of an interval, in the mode that was written. -/
def intervalEnded : State := { s with drift := { s.drift with mode := s.drift.modeTo, pubAt := s.clk.tick } }

/-- The trims of the zones that take none removed. -/
def trimsDropped : State :=
  untrim (intervalEnded s) (fun f => !((intervalEnded s).flag (0x4440 + feedZoneOf (intervalEnded s) f) 0x04))

/-- The publication that the module decides. -/
def decidedPub : DriftPub :=
  DriftPub.mk (trimsDropped s).clk.tick (sigmaTarget (trimsDropped s))
    (offsetTargets (trimsDropped s) (sigmaTarget (trimsDropped s))) (trimTargets (trimsDropped s))

/-- The publication decided and noted. -/
def pubDecided : State :=
  { notePub (trimsDropped s) (decidedPub s) with
    drift := { (notePub (trimsDropped s) (decidedPub s)).drift with pub := some (decidedPub s) } }

/-- The publication sent by the Active module. -/
def pubSent : State := if s.twin.role = .active then (pubDecided s).sendPort 3 (.drift (decidedPub s)) else pubDecided s

/-- The tracker's state shown in 4400:12. -/
def State.trackerShown (t : State) : State := t.stset 0 0x4400 0x12 (trackerState t)

theorem State.trackerShown_stget (t : State) (d : Nat) {sub : Nat} (h : key 0x4400 sub ≠ key 0x4400 0x12) :
    t.trackerShown.stget d 0x4400 sub = t.stget d 0x4400 sub := State.stget_stset_ne _ _ _ _ h

theorem State.trackerShown_state (t : State) : t.trackerShown.stget 0 0x4400 0x12 = trackerState t.trackerShown := stget_stset ..

theorem trimsDropped_keeps : Keeps [.stat, .pipe] (intervalEnded s) (trimsDropped s) := untrim_keeps ..

theorem trimsDropped_drift : (trimsDropped s).drift = { s.drift with mode := s.drift.modeTo, pubAt := s.clk.tick } :=
  (trimsDropped_keeps s).part .drift rfl

theorem trimsDropped_dict : (trimsDropped s).dict = s.dict := (trimsDropped_keeps s).part .dict rfl

theorem trimsDropped_clk : (trimsDropped s).clk = s.clk := (trimsDropped_keeps s).part .clk rfl

theorem decidedPub_sigma : (decidedPub s).sigma = sigmaTarget s := by
  unfold decidedPub
  dsimp only
  exact sigmaTarget_congr (trimsDropped_dict s) (by rw [trimsDropped_drift]) (by rw [trimsDropped_drift])

theorem decidedPub_tick : (decidedPub s).tickD = s.clk.tick := congrArg Clock.tick (trimsDropped_clk s)

theorem pubDecided_keeps : Keeps [.dom, .stat, .pipe, .drift, .events] s (pubDecided s) := by
  unfold pubDecided
  refine keeps_drift rfl ?_
  refine Keeps.step (notePub_keeps ..) rfl ?_
  refine Keeps.step (trimsDropped_keeps s) rfl ?_
  exact keeps_drift rfl (Keeps.refl _ _)

theorem pubDecided_stat : (pubDecided s).stat = (notePub (trimsDropped s) (decidedPub s)).stat := by rw [pubDecided]

theorem pubSent_drift : (pubSent s).drift = (pubDecided s).drift := by
  unfold pubSent
  split
  · exact (State.sendPort_keeps ..).part .drift rfl
  · rfl

theorem pubSent_gives : (pubSent s).drift.pub = some (decidedPub s) ∧ (pubSent s).drift.mode = s.drift.modeTo ∧
    (pubSent s).drift.pubAt = s.clk.tick := by
  obtain ⟨zones, hzones⟩ := notePub_drift (trimsDropped s) (decidedPub s)
  rw [trimsDropped_drift] at hzones
  rw [pubSent_drift, pubDecided, hzones]
  exact ⟨rfl, rfl, rfl⟩

theorem sendPort_stget (u : State) (p : Nat) (f : OutFrame) (d : Nat) {i sub : Nat} (h : key i sub ≠ key (0x2110 + p) 0x05) :
    (u.sendPort p f).stget d i sub = u.stget d i sub := by
  unfold State.sendPort
  split
  · exact State.stget_bump_ne _ _ _ h
  · rfl

theorem pubSent_stget (d : Nat) {sub : Nat} (h : sub < 256) : (pubSent s).stget d 0x4400 sub =
    (notePub (trimsDropped s) (decidedPub s)).stget d 0x4400 sub := by
  unfold pubSent
  split
  · rw [sendPort_stget _ _ _ _ (by simp only [key]; omega), State.stget, pubDecided_stat, State.stget]
  · rw [State.stget, pubDecided_stat, State.stget]

theorem pubDecided_out : (pubDecided s).out = s.out := (pubDecided_keeps s).part .out rfl

theorem pubDecided_open : (pubDecided s).open 3 = s.open 3 := by
  have hports : (pubDecided s).ports = s.ports := (pubDecided_keeps s).part .ports rfl
  have hbyp : (pubDecided s).byp = s.byp := (pubDecided_keeps s).part .byp rfl
  rw [State.open, State.open, hports, hbyp]

theorem pubSent_out : (pubSent s).out =
    if s.twin.role = .active ∧ s.open 3 = true then s.out ++ [.drift (decidedPub s)] else s.out := by
  unfold pubSent
  by_cases hrole : s.twin.role = .active
  · by_cases hopen : s.open 3 = true
    · obtain ⟨hout, -⟩ := sendPort_sends (pubDecided s) (.drift (decidedPub s)) ((pubDecided_open s).trans hopen)
      rw [if_pos hrole, if_pos ⟨hrole, hopen⟩, hout, pubDecided_out]
    · rw [if_pos hrole, if_neg (fun h => hopen h.2),
        sendPort_closed _ _ ((pubDecided_open s).trans (Bool.eq_false_iff.mpr hopen)), pubDecided_out]
  · rw [if_neg hrole, if_neg (fun h => hrole h.1), pubDecided_out]

/-! Each mode at the end of an interval -/

section
variable {s}

theorem driftInterval_publishes (hmode : s.drift.modeTo = 2) (hrole : s.twin.role = .solo ∨ s.twin.role = .active) :
    driftInterval s = (pubSent s).trackerShown := by
  unfold driftInterval
  dsimp only
  split
  · split
    · simp only [State.trackerShown, pubSent, pubDecided, decidedPub, trimsDropped, intervalEnded]
    · simp only [State.trackerShown, pubSent, pubDecided, decidedPub, trimsDropped, intervalEnded]
    · next h1 h2 => exact absurd hrole (not_or.mpr ⟨h1, h2⟩)
  · next h => exact absurd (h.symm.trans hmode) (by decide)
  · next h _ => exact absurd hmode h

theorem driftInterval_follows (hmode : s.drift.modeTo = 2) (hsolo : s.twin.role ≠ .solo) (hactive : s.twin.role ≠ .active) :
    driftInterval s = (trimsDropped s).trackerShown := by
  unfold driftInterval
  dsimp only
  split
  · split
    · next h => exact absurd h hsolo
    · next h => exact absurd h hactive
    · rfl
  · next h => exact absurd (h.symm.trans hmode) (by decide)
  · next h _ => exact absurd hmode h

theorem driftInterval_stops (hmode : s.drift.modeTo = 3) : driftInterval s =
    (if s.drift.mode = 3 then intervalEnded s else freeze (intervalEnded s)).trackerShown := by
  unfold driftInterval
  dsimp only
  split
  · next h => exact absurd (h.symm.trans hmode) (by decide)
  · rfl
  · next _ h => exact absurd hmode h

/-- The movement led back to no correction (R187). -/
def ledBack (s : State) : State :=
  { intervalEnded s with drift := { (intervalEnded s).drift with sigmaT := 2 ^ 30, zoffT := [], pub := none } }

theorem driftInterval_leadsBack (hmode : s.drift.modeTo ≤ 1) :
    driftInterval s = (untrim (ledBack s) (fun _ => true)).trackerShown := by
  unfold driftInterval
  dsimp only
  split
  · next h => exact absurd (h ▸ hmode : 2 ≤ 1) (by decide)
  · next h => exact absurd (h ▸ hmode : 3 ≤ 1) (by decide)
  · rfl

theorem execDriftPublication_early (h : s.clk.tick < s.drift.pubAt + 3000 * s.val 10 0x4400 0x04) :
    exec .driftPublication s = .next s := by
  have hearly : ¬ intervalDue s = true := by simpa [intervalDue] using h
  exact congrArg Host.Outcome.next (if_neg hearly)

variable (hdue : s.drift.pubAt + 3000 * s.val 10 0x4400 0x04 ≤ s.clk.tick)
include hdue

theorem execDriftPublication_due : exec .driftPublication s = .next (driftInterval s) :=
  congrArg Host.Outcome.next (if_pos (decide_eq_true hdue))

theorem execDriftPublication_publishes (hmode : s.drift.modeTo = 2) (hrole : s.twin.role = .solo ∨ s.twin.role = .active) :
    Gives .driftPublication s (fun t => ∃ p, t.drift.pub = some p ∧ p.tickD = s.clk.tick ∧ t.drift.mode = 2 ∧
      t.drift.pubAt = s.clk.tick ∧ t.stget (2 ^ 30) 0x4400 0x10 = p.sigma.toNat ∧
      t.stget 0 0x4400 0x11 = min (s.stget 0 0x4400 0x11 + 1) (2 ^ 32 - 1) ∧ t.stget 0 0x4400 0x12 = trackerState t ∧
      t.out = (if s.twin.role = .active ∧ s.open 3 = true then s.out ++ [.drift p] else s.out) ∧
      ((basedPairs s).length < 3 → p.sigma = s.drift.sigmaT) ∧
      (3 ≤ (basedPairs s).length → s.val 1020054732 0x4400 0x05 ≤ s.val 1127428915 0x4400 0x06 →
        (s.val 1020054732 0x4400 0x05 : Int) ≤ p.sigma ∧ p.sigma ≤ (s.val 1127428915 0x4400 0x06 : Int))) := by
  obtain ⟨hpub, hmode', hat⟩ := pubSent_gives s
  refine ⟨_, execDriftPublication_due hdue, decidedPub s, ?_⟩
  rw [driftInterval_publishes hmode hrole]
  refine ⟨hpub, decidedPub_tick s, hmode'.trans hmode, hat, ?_, ?_, State.trackerShown_state _, pubSent_out s, fun h => ?_,
    fun h hlim => ?_⟩
  · rw [State.trackerShown_stget _ _ (by decide), pubSent_stget _ _ (by decide), notePub_target]
  · rw [State.trackerShown_stget _ _ (by decide), pubSent_stget _ _ (by decide), notePub_count, trimsDropped,
      untrim_stget _ _ _ (by decide)]
    rfl
  · rw [decidedPub_sigma, sigmaTarget_few h]
  · rw [decidedPub_sigma]
    exact sigmaTarget_bounds h hlim

theorem execDriftPublication_follows (hmode : s.drift.modeTo = 2) (hsolo : s.twin.role ≠ .solo) (hactive : s.twin.role ≠ .active) :
    Gives .driftPublication s (fun t => t.drift = { s.drift with mode := 2, pubAt := s.clk.tick } ∧ t.out = s.out) := by
  refine ⟨_, execDriftPublication_due hdue, ?_⟩
  rw [driftInterval_follows hmode hsolo hactive, ← hmode]
  exact ⟨trimsDropped_drift s, (trimsDropped_keeps s).part .out rfl⟩

theorem execDriftPublication_stops (hmode : s.drift.modeTo = 3) (hmove : s.drift.mode ≠ 3) : Gives .driftPublication s (fun t =>
    t.drift = { s.drift with
      mode := 3, pubAt := s.clk.tick, sigmaT := s.drift.sigma, zoffT := s.drift.zoff, pub := none }) := by
  refine ⟨_, execDriftPublication_due hdue, ?_⟩
  rw [driftInterval_stops hmode, if_neg hmove, ← hmode]
  rfl

theorem execDriftPublication_stopped (hmode : s.drift.modeTo = 3) (hstill : s.drift.mode = 3) : Gives .driftPublication s (fun t =>
    t.drift = { s.drift with pubAt := s.clk.tick }) := by
  refine ⟨_, execDriftPublication_due hdue, ?_⟩
  rw [driftInterval_stops hmode, if_pos hstill]
  exact congrArg (fun m => { s.drift with mode := m, pubAt := s.clk.tick }) (hmode.trans hstill.symm)

theorem execDriftPublication_leadsBack (hmode : s.drift.modeTo ≤ 1) : Gives .driftPublication s (fun t =>
    t.drift = { s.drift with mode := s.drift.modeTo, pubAt := s.clk.tick, sigmaT := 2 ^ 30, zoffT := [], pub := none }) := by
  refine ⟨_, execDriftPublication_due hdue, ?_⟩
  rw [driftInterval_leadsBack hmode]
  exact (untrim_keeps ..).part .drift rfl

end

/-! DRIFT_PUBLICATION_RECEIVED and DRIFT_APPLY (R184 to R186) -/

section
variable {s} {pub : DriftPub}

theorem execDriftPublicationReceived_standby (hrole : s.twin.role = .standby) :
    Gives (.driftPublicationReceived pub) s (fun t => t.drift.pub = some pub ∧
      t.stget (2 ^ 30) 0x4400 0x10 = pub.sigma.toNat ∧ t.stget 0 0x4400 0x11 = min (s.stget 0 0x4400 0x11 + 1) (2 ^ 32 - 1)) := by
  refine ⟨_, congrArg Host.Outcome.next (if_pos hrole), rfl, notePub_target (s.heard 3) pub, ?_⟩
  refine (notePub_count (s.heard 3) pub).trans ?_
  rw [State.heard, State.stget_bump_ne _ _ _ (by decide)]

theorem execDriftPublicationReceived_other (hrole : s.twin.role ≠ .standby) :
    exec (.driftPublicationReceived pub) s = .next s := congrArg Host.Outcome.next (if_neg hrole)

theorem mget_foldl_mset_absent {z : Nat} : ∀ (l : List (Nat × Int)) (m : SMap Int), (∀ x, (z, x) ∉ l) →
    mget 0 (l.foldl (fun m e => mset 0 m e.1 e.2) m) z = mget 0 m z
  | [], _, _ => rfl
  | e :: l, m, h => by
    have hz : z ≠ e.1 := fun hz => h e.2 (hz ▸ List.mem_cons_self)
    rw [List.foldl_cons, mget_foldl_mset_absent l _ (fun x hx => h x (List.mem_cons_of_mem _ hx)), mget_mset_ne _ _ _ _ _ hz]

theorem mget_foldl_mset_unique {z : Nat} {x : Int} : ∀ (l : List (Nat × Int)) (m : SMap Int), (z, x) ∈ l →
    (∀ y, (z, y) ∈ l → y = x) → mget 0 (l.foldl (fun m e => mset 0 m e.1 e.2) m) z = x
  | e :: l, m, hx, huniq => by
    have hrest : ∀ y, (z, y) ∈ l → y = x := fun y hy => huniq y (List.mem_cons_of_mem _ hy)
    rw [List.foldl_cons]
    by_cases hl : (z, x) ∈ l
    · exact mget_foldl_mset_unique l _ hl hrest
    · obtain rfl : (z, x) = e := (List.mem_cons.mp hx).resolve_right hl
      rw [mget_foldl_mset_absent l _ (fun y hy => hl (hrest y hy ▸ hy)), mget_mset_self]

theorem execDriftApply_none (hpub : s.drift.pub = none) : exec .driftApply s = .next s := by
  refine congrArg Host.Outcome.next ?_
  simp only [driftApply, hpub]

variable (hpub : s.drift.pub = some pub)
include hpub

theorem execDriftApply_applies (h : pub.tickD + 4 ≤ s.clk.tick) : Gives .driftApply s (fun t =>
    t.drift = { s.drift with
      pub := none, sigmaT := pub.sigma, zoffT := pub.zoffs.foldl (fun m e => mset 0 m e.1 e.2) s.drift.zoffT }) := by
  refine ⟨_, rfl, ?_⟩
  simp only [driftApply, hpub, if_neg (Nat.not_lt.mpr h)]
  exact foldl_same (φ := State.drift) (fun u e => (trimZone_keeps ..).part .drift rfl) _ _

theorem execDriftApply_early (h : s.clk.tick < pub.tickD + 4) : exec .driftApply s = .next s := by
  refine congrArg Host.Outcome.next ?_
  simp only [driftApply, hpub, if_pos h]

end
end
end Sys2Proof.Machine

namespace Sys2Proof.Machine

/-! A table worked through key by key -/

/-- Each key of a list worked on changes once, where working on it again would change nothing, and no other one changes. -/
theorem read_foldl {σ α : Type} {read : σ → Nat → α} {step : σ → Nat → σ} {g : α → α} (k : Nat)
    (hstep : ∀ u i, read (step u i) k = if k = i then g (read u k) else read u k) (hg : ∀ a, g (g a) = g a) :
    ∀ (l : List Nat) (u : σ), read (l.foldl step u) k = if k ∈ l then g (read u k) else read u k
  | [], _ => by simp
  | i :: l, u => by
    rw [List.foldl_cons, read_foldl k hstep hg l, hstep]
    by_cases hi : k = i
    · simp [hi, hg]
    · simp [hi]

theorem mem_setAdd {x y : Nat} {l : List Nat} : x ∈ setAdd y l ↔ x = y ∨ x ∈ l := by
  unfold setAdd
  split
  · next h =>
    have hy : y ∈ l := List.contains_iff_mem.mp h
    exact ⟨Or.inr, fun hx => hx.elim (· ▸ hy) id⟩
  · exact mem_insertBy

theorem mem_foldl_setAdd {g : Nat → Nat} {x : Nat} : ∀ {ks l : List Nat},
    x ∈ ks.foldl (fun l k => setAdd (g k) l) l ↔ (∃ k ∈ ks, g k = x) ∨ x ∈ l
  | [], l => by simp
  | k :: ks, l => by
    rw [List.foldl_cons, mem_foldl_setAdd, mem_setAdd, List.exists_mem_cons_iff, eq_comm (a := x), ← or_assoc,
      or_comm (a := ∃ _, _)]

/-! BASELINE_CAPTURE (R181) -/

section
variable (s : State)

/-- Pair `k` records what it measures. -/
def recordPair (u : State) (k : Nat) : State :=
  { setPair u k { pairOf u k with base := some (pairOf u k).acoustic } with
    nv := { u.nv with pairs := mset none u.nv.pairs k (some (pairOf u k).acoustic) } }

/-- Zone `z` records what it measures. -/
def recordZone (u : State) (z : Nat) : State :=
  { setZone u z { zoneOf u z with target := some (zoneOf u z).resp } with
    nv := { u.nv with zones := mset none u.nv.zones z (some (zoneOf u z).resp) } }

/-- The tracked pairs with a valid estimate. -/
def measuredPairs : List Nat := (trackedPairs s).filter (fun k => decide ((pairOf s k).state = 1))

theorem baselineApply_eq : baselineApply s = ((measuredPairs s).foldl (fun l k => setAdd (k / 8) l) []).foldl recordZone
    ((measuredPairs s).foldl recordPair s) := rfl

/-- A pair, with its baseline in non-volatile storage. -/
def pairRecord (u : State) (k : Nat) : Pair × Option Int := (pairOf u k, mget none u.nv.pairs k)

/-- A pair that has recorded what it measures. -/
def recorded (p : Pair × Option Int) : Pair × Option Int := ({ p.1 with base := some p.1.acoustic }, some p.1.acoustic)

theorem pairRecord_recordPair (u : State) (i k : Nat) :
    pairRecord (recordPair u i) k = if k = i then recorded (pairRecord u k) else pairRecord u k := by
  have hlive : pairOf (recordPair u i) k = if k = i then { pairOf u i with base := some (pairOf u i).acoustic } else pairOf u k :=
    mget_mset Pair.init u.drift.pairs i _ k
  have hstored : mget none (recordPair u i).nv.pairs k = if k = i then some (pairOf u i).acoustic else mget none u.nv.pairs k :=
    mget_mset none u.nv.pairs i (some (pairOf u i).acoustic) k
  rw [pairRecord, hlive, hstored]
  split
  · next h => rw [h, recorded, pairRecord]
  · rfl

theorem pairRecord_foldl (k : Nat) (l : List Nat) (u : State) :
    pairRecord (l.foldl recordPair u) k = if k ∈ l then recorded (pairRecord u k) else pairRecord u k :=
  read_foldl k (fun u i => pairRecord_recordPair u i k) (fun _ => rfl) l u

theorem zoneOf_recordZone (u : State) (i z : Nat) :
    zoneOf (recordZone u i) z = if z = i then { zoneOf u z with target := some (zoneOf u z).resp } else zoneOf u z := by
  refine (mget_mset ZoneTrack.init u.drift.zones i { zoneOf u i with target := some (zoneOf u i).resp } z).trans ?_
  split
  · next h => rw [h]
  · rfl

theorem zoneOf_foldl (z : Nat) (l : List Nat) (u : State) : zoneOf (l.foldl recordZone u) z =
    if z ∈ l then { zoneOf u z with target := some (zoneOf u z).resp } else zoneOf u z :=
  read_foldl (g := fun a : ZoneTrack => { a with target := some a.resp }) z (fun u i => zoneOf_recordZone u i z) (fun _ => rfl) l u

theorem pairRecord_zones (k : Nat) (l : List Nat) (u : State) : pairRecord (l.foldl recordZone u) k = pairRecord u k :=
  have hone : ∀ u z, pairRecord (recordZone u z) k = pairRecord u k := fun _ _ => rfl
  foldl_same (φ := fun u => pairRecord u k) hone l u

theorem zoneOf_pairs (z : Nat) (l : List Nat) (u : State) : zoneOf (l.foldl recordPair u) z = zoneOf u z :=
  have hone : ∀ u k, zoneOf (recordPair u k) z = zoneOf u z := fun _ _ => rfl
  foldl_same (φ := fun u => zoneOf u z) hone l u

theorem baselineApply_gives {k : Nat} (hk : k ∈ trackedPairs s) (hstate : (pairOf s k).state = 1) : let t := baselineApply s
    (pairOf t k).base = some (pairOf s k).acoustic ∧ mget none t.nv.pairs k = some (pairOf s k).acoustic ∧
      (zoneOf t (k / 8)).target = some (zoneOf s (k / 8)).resp := by
  have hmem : k ∈ measuredPairs s := List.mem_filter.mpr ⟨hk, decide_eq_true hstate⟩
  have hpair : pairRecord (baselineApply s) k = recorded (pairRecord s k) := by
    rw [baselineApply_eq, pairRecord_zones, pairRecord_foldl, if_pos hmem]
  have hzone : zoneOf (baselineApply s) (k / 8) = { zoneOf s (k / 8) with target := some (zoneOf s (k / 8)).resp } := by
    rw [baselineApply_eq, zoneOf_foldl, if_pos (mem_foldl_setAdd.mpr (Or.inl ⟨k, hmem, rfl⟩)), zoneOf_pairs]
  simp only [pairRecord, recorded, Prod.mk.injEq] at hpair
  obtain ⟨hlive, hstored⟩ := hpair
  intro t
  rw [hlive, hstored, hzone]
  exact ⟨rfl, rfl, rfl⟩

theorem execBaselineCapture_eq (v : Nat) : exec (.baselineCapture v) s = .next (s.attempt 0x4400 (baselineCheck s v)
    (fun t => if v = 1 then baselineApply t else t)) := rfl

variable {s}

theorem execBaselineCapture_records (hgate : s.gate 0x4400 = 0) (hok : baselineOk s = true) :
    exec (.baselineCapture 1) s = .next (baselineApply s) := by
  refine exec_takes (execBaselineCapture_eq s 1) ?_ hgate
  rw [baselineCheck, hok]
  rfl

theorem execBaselineCapture_zero (hgate : s.gate 0x4400 = 0) : exec (.baselineCapture 0) s = .next s :=
  exec_takes (execBaselineCapture_eq s 0) rfl hgate

theorem execBaselineCapture_range {v : Nat} (hv : 1 < v) : Declines (.baselineCapture v) s Abort.range := by
  refine declines_of_check (execBaselineCapture_eq s v) ?_ (by decide)
  rw [baselineCheck, boolOk, decide_eq_false (Nat.not_le.mpr hv), need_false, firstCode_failed _ (by decide)]

theorem execBaselineCapture_conflict (hok : baselineOk s = false) : Declines (.baselineCapture 1) s Abort.conflict := by
  refine declines_of_check (execBaselineCapture_eq s 1) ?_ (by decide)
  rw [baselineCheck, hok]
  rfl

/-! DRIFT_MODE_WRITE (R187) -/

theorem execDriftModeWrite_eq (v : Nat) : exec (.driftModeWrite v) s = .next (s.attempt 0x4400 (rangeOk v 0 3)
    (fun t => driftModeApply t v)) := rfl

/-- The mode written, to take effect at the end of the interval. -/
def modeWritten (s : State) (v : Nat) : State := { s.put 0 0x4400 0x01 v with drift := { s.drift with modeTo := v } }

theorem driftModeApply_eq (v : Nat) : driftModeApply s v =
    if v = 3 ∧ s.drift.mode = 2 then freeze (modeWritten s v) else modeWritten s v := by
  by_cases hv : v = 3 <;> by_cases hmode : s.drift.mode = 2 <;> simp [driftModeApply, modeWritten, hv, hmode]

theorem driftModeApply_gives (v : Nat) : let t := driftModeApply s v
    t.val 0 0x4400 0x01 = v ∧ t.drift.modeTo = v ∧ t.drift.mode = s.drift.mode ∧
    (v = 3 → s.drift.mode = 2 → t.drift.sigmaT = s.drift.sigma ∧ t.drift.zoffT = s.drift.zoff ∧ t.drift.pub = none) := by
  rw [driftModeApply_eq]
  split
  · exact ⟨val_put s .., rfl, rfl, fun _ _ => ⟨rfl, rfl, rfl⟩⟩
  · next h => exact ⟨val_put s .., rfl, rfl, fun hv hmode => absurd ⟨hv, hmode⟩ h⟩

theorem execDriftModeWrite_takes {v : Nat} (hv : v ≤ 3) (hgate : s.gate 0x4400 = 0) :
    exec (.driftModeWrite v) s = .next (driftModeApply s v) :=
  exec_takes (execDriftModeWrite_eq v) (rangeOk_in (by omega) (by omega)) hgate

theorem execDriftModeWrite_range {v : Nat} (hv : 3 < v) : Declines (.driftModeWrite v) s Abort.range :=
  declines_of_check (execDriftModeWrite_eq v) (rangeOk_out (by omega)) (by decide)

end
end Sys2Proof.Machine

namespace Sys2Proof.Machine

theorem baselineApply_stat (s : State) : (baselineApply s).stat = s.stat := (baselineApply_keeps s).part .stat rfl

theorem bankFree_iff {s : State} {f b : Nat} : bankFree s f b = true ↔ (feedBank (corrAheadOf s f) b).state ≠ .selected ∧
    switchWaits (corrAheadOf s f) b = false ∧ .switch b ∉ pendingRequests s f := by
  simp [bankFree, and_assoc]

/-- Settles O54: each command's law, under the conditions said of it. -/
theorem correctionAndDrift : Obligations.CorrectionAndDrift := by
  intro s f b v start len data taps req est pub hf i q c ahead enters
  refine ⟨execAllocationWrite_clears hf, execAllocationWrite_enabled hf, execAllocationWrite_range hf,
    fun hb hne hwords hfit => ⟨fun hgate hsel hwaits hpend => ?loadFree, fun h => ?loadHeld⟩, execBankLoad_empty hf,
    fun hb hgate => ⟨fun h => ⟨_, execBankSwitch_same hf hb hgate h, rfl⟩,
      fun hother hloaded hroom => execBankSwitch_enters hf hb hother hgate hloaded hroom, execBankSwitch_busy hf hb⟩,
    execBankSwitch_empty hf,
    fun hgate hoff hsel hroom => ?enableOn, fun hgate hon => ⟨_, execCorrectionEnable_same hf (Nat.le_refl 1) hgate hon, rfl⟩,
    fun hgate hon hroom => ?enableOff, execCorrectionEnable_busy hf,
    fun hgate hoff => ⟨_, execCorrectionEnable_same hf (Nat.zero_le 1) hgate hoff, rfl⟩, execCorrectionEnable_unselected hf,
    fun hrun => ⟨fun h => ?loadEnds, fun h => ⟨_, execPreparationComplete_cut hrun h, prepCut_gives⟩,
      execPreparationComplete_early hrun⟩,
    fun tr hrun h => ⟨fun henabled hsel => ?trimWaits, fun henabled => ?trimDisabled⟩,
    fun hrun => ⟨execPreparationComplete_idle true hrun, execCrossfadeEnd_idle hrun⟩,
    fun hrun => ⟨fun h => ?fadeEnds, execCrossfadeEnd_early hrun⟩,
    execDriftEstimateWindow_off s est, fun hmode => ?window,
    fun hdue => ⟨execDriftPublication_publishes hdue, execDriftPublication_follows hdue, execDriftPublication_stops hdue,
      execDriftPublication_stopped hdue, execDriftPublication_leadsBack hdue⟩,
    execDriftPublication_early, execDriftPublicationReceived_standby, execDriftPublicationReceived_other,
    fun hpub => ⟨fun h => ?applies, execDriftApply_early hpub⟩, execDriftApply_none,
    fun hgate hok => ⟨_, execBaselineCapture_records hgate hok, baselineApply_stat s, fun k hk => baselineApply_gives s hk⟩,
    execBaselineCapture_zero, execBaselineCapture_range, execBaselineCapture_conflict,
    fun hv hgate => ⟨_, execDriftModeWrite_takes hv hgate, driftModeApply_gives v⟩, execDriftModeWrite_range⟩
  case loadFree =>
    have hfree := bankFree_iff.mpr ⟨hsel, hwaits, hpend⟩
    exact ⟨execBankLoad_enters hf hb hne hwords hfit hgate hfree, execBankLoad_busy hf hb hne hwords hfit hfree⟩
  case loadHeld =>
    refine execBankLoad_bankBusy hf hb hne hwords hfit (Bool.eq_false_iff.mpr fun hfree => ?_)
    obtain ⟨hsel, hwaits, hpend⟩ := bankFree_iff.mp hfree
    rcases h with h | h | h
    · exact hsel h
    · exact Bool.false_ne_true (hwaits.symm.trans h)
    · exact hpend h
  case enableOn =>
    exact execCorrectionEnable_enters hf (Nat.le_refl 1) (fun h => Bool.false_ne_true (hoff.symm.trans h)) hgate hroom (Or.inr hsel)
  case enableOff =>
    exact execCorrectionEnable_enters hf (Nat.zero_le 1) (fun h => Bool.false_ne_true (h.symm.trans hon)) hgate hroom (Or.inl rfl)
  case loadEnds =>
    refine (execPreparationComplete_loads hrun h).mono fun t hcorr => ?_
    rw [hcorr]
    exact endLoad_gives c b (seqEnv (s.dictAt 1) f) taps
  case trimWaits =>
    refine (execPreparationComplete_trims hrun h).mono fun t hcorr => ?_
    rw [hcorr, endTrimPrep_waits _ _ _ _ henabled hsel]
    exact ⟨rfl, rfl, trimmedCorr_trim c (seqEnv (s.dictAt 1) f) tr⟩
  case trimDisabled =>
    refine (execPreparationComplete_trims hrun h).mono fun t hcorr => ?_
    rw [hcorr]
    exact endTrimPrep_disabled c (seqEnv (s.dictAt 1) f) (start + 300) tr henabled
  case fadeEnds =>
    refine (execCrossfadeEnd_ends hrun h).mono fun t hcorr => ?_
    rw [hcorr]
    exact endFade_gives c b req
  case window =>
    refine (execDriftEstimateWindow_gives s est hmode).mono fun t hpairs k => ⟨(hpairs k).1, fun hk => ?_⟩
    rw [(hpairs k).2 hk]
    exact pairAfter_gives s est k
  case applies =>
    refine (execDriftApply_applies hpub h).mono fun t hdrift => ?_
    rw [hdrift]
    exact ⟨rfl, rfl, rfl, fun z => mget_foldl_mset_absent _ _, fun z x => mget_foldl_mset_unique _ _⟩

end Sys2Proof.Machine

namespace Sys2Proof.Machine

/-! What a parallel word answers -/

/-- A parallel word that runs gives whatever follows from what it leaves. -/
theorem parWord_gives {c : Instr} {s : State} {r : Nat} {w : ParWord} {P : State → Prop} (hc : parWord c = some (r, w))
    (hP : WordRuns s r w → ∀ t, ParDone s t r w → P t) (h : WordRuns s r w) : Gives c s P := by
  obtain ⟨t, ht, d⟩ := parWord_runs hc h
  exact ⟨t, ht, hP h t d⟩

theorem Saturates.congr {s t : State} {r vd : Nat} {x y : Nat → Int} (h : Saturates s t r vd x) (e : ∀ l, x l = y l) :
    Saturates s t r vd y := funext e ▸ h

section
variable {s t : State} {r vd ac : Nat} {w : ParWord} {f : Nat → Int}

/-- An operation that saturates its lanes to Q1.31 leaves them so, with SATF (R208). -/
theorem ParDone.saturates (d : ParDone s t r w) (h : WordRuns s r w) (hd : vopDest w.vop = some vd)
    (hv : vopRun (s.rod r) (s.rod r) w.vop = setSat (s.rod r) vd f) : Saturates s t r vd f where
  lanes l hl := by rw [lane_eq, d.dest h hd l hl, hv, setSat_word _ _ _ _ hl, toInt_sat32]
  satf := by rw [d.satf, hv, setSat_satf]

/-- An operation that writes lanes without saturation leaves their patterns, and SATF. -/
theorem ParDone.patterns (d : ParDone s t r w) (h : WordRuns s r w) (hd : vopDest w.vop = some vd)
    (hv : vopRun (s.rod r) (s.rod r) w.vop = (s.rod r).setV vd f) {x : Nat → Word} (hx : ∀ l, BitVec.ofInt 32 (f l) = x l) :
    Patterns s t r vd x where
  lanes l hl := by
    show (t.rod r).word vd l = _
    rw [d.dest h hd l hl, hv, word_setV _ _ _ _ _ hl, if_pos rfl, hx]
  satf := by rw [d.satf, hv]; rfl

/-- A command whose operation saturates its lanes. -/
theorem gives_saturates {c : Instr} (hc : parWord c = some (r, w)) (hd : vopDest w.vop = some vd)
    (hv : vopRun (s.rod r) (s.rod r) w.vop = setSat (s.rod r) vd f) :
    WordRuns s r w → Gives c s (fun t => Saturates s t r vd f) :=
  parWord_gives hc fun h _ d => d.saturates h hd hv

/-- A command whose operation writes the patterns of its lanes. -/
theorem gives_patterns {c : Instr} {x : Nat → Word} (hc : parWord c = some (r, w)) (hd : vopDest w.vop = some vd)
    (hv : vopRun (s.rod r) (s.rod r) w.vop = (s.rod r).setV vd f) (hx : ∀ l, BitVec.ofInt 32 (f l) = x l) :
    WordRuns s r w → Gives c s (fun t => Patterns s t r vd x) :=
  parWord_gives hc fun h _ d => d.patterns h hd hv hx

end

theorem iabs_eq (x : Int) : iabs x = x.natAbs := by
  unfold iabs
  split <;> omega

/-- Settles O7: each of the six operations writes its exact lane results through `setSat`. -/
theorem saturatingVectorOps : Obligations.SaturatingVectorOps := by
  intro s r vd va vb n sl
  exact ⟨gives_saturates rfl rfl rfl, gives_saturates rfl rfl rfl, gives_saturates rfl rfl rfl,
    gives_saturates rfl rfl (by simp only [wordOf, vopRun, iabs_eq]), gives_saturates rfl rfl rfl, gives_saturates rfl rfl rfl⟩

end Sys2Proof.Machine

namespace Sys2Proof.Machine

/-! Lanes as 32-bit patterns -/

@[simp] theorem ofInt_lane (q : Rod) (n l : Nat) : BitVec.ofInt 32 (q.lane n l) = q.word n l := BitVec.ofInt_toInt

theorem ofInt_bitwise (q : Rod) (va vb l : Nat) (f : Word → Word → Word) :
    BitVec.ofInt 32 (bitwise q va vb f l) = f (q.word va l) (q.word vb l) := BitVec.ofInt_toInt

theorem ofInt_truth (b : Bool) : BitVec.ofInt 32 (truth b) = if b then 0xFFFFFFFF#32 else 0#32 := by cases b <;> rfl

theorem lane_eq_iff (q : Rod) (a b l : Nat) : q.lane a l = q.lane b l ↔ q.word a l = q.word b l := BitVec.toInt_inj

theorem ofInt_shr_lane (q : Rod) (va n l : Nat) : BitVec.ofInt 32 (shr (q.lane va l) n) = (q.word va l).sshiftRight n := by
  rw [shr, BitVec.sshiftRight, Int.shiftRight_eq_div_pow]
  rfl

theorem ofInt_min_lane (q : Rod) (a b l : Nat) : BitVec.ofInt 32 (min (q.lane a l) (q.lane b l)) =
    if q.lane a l ≤ q.lane b l then q.word a l else q.word b l := by
  rw [Int.min_def, apply_ite (BitVec.ofInt 32), ofInt_lane, ofInt_lane]

theorem ofInt_max_lane (q : Rod) (a b l : Nat) : BitVec.ofInt 32 (max (q.lane a l) (q.lane b l)) =
    if q.lane a l ≤ q.lane b l then q.word b l else q.word a l := by
  rw [Int.max_def, apply_ite (BitVec.ofInt 32), ofInt_lane, ofInt_lane]

theorem ofInt_add_lane (q : Rod) (a b l : Nat) : BitVec.ofInt 32 (q.lane a l + q.lane b l) = q.word a l + q.word b l := by
  rw [BitVec.ofInt_add, ofInt_lane, ofInt_lane]

theorem ofInt_sub_lane (q : Rod) (a b l : Nat) : BitVec.ofInt 32 (q.lane a l - q.lane b l) = q.word a l - q.word b l := by
  rw [Int.sub_eq_add_neg, BitVec.ofInt_add, BitVec.ofInt_neg, ofInt_lane, ofInt_lane, BitVec.sub_eq_add_neg]

/-- A word whose vector operation is NOP leaves SATF, and every lane but those of its load. -/
theorem ParDone.nop {s t : State} {r : Nat} {sl : Slots} (d : ParDone s t r (wordOf .nop sl)) :
    (t.rod r).satf = (s.rod r).satf ∧
      ∀ m l, l < 8 → (∀ ld, sl.ld = some ld → ld.v ≠ m) → (t.rod r).word m l = (s.rod r).word m l := by
  refine ⟨d.satf, fun m l hl hld => ?_⟩
  rw [d.rod.word, parRegs_word _ _ _ _ _ _ hl]
  show (match sl.ld with | some x => _ | none => _) = _
  cases h : sl.ld with
  | none => rfl
  | some x => exact if_neg (Ne.symm (hld x h))

/-- Settles O8: each operation writes its lanes through `setV`, and the pattern of a lane is the table's. -/
theorem patternVectorOps : Obligations.PatternVectorOps := by
  intro s r vd va vb n sl
  refine ⟨parWord_gives rfl fun _ _ d => d.nop, gives_patterns rfl rfl rfl fun l => ofInt_lane _ _ _,
    gives_patterns rfl rfl rfl fun l => ofInt_add_lane .., gives_patterns rfl rfl rfl fun l => ofInt_sub_lane ..,
    gives_patterns rfl rfl rfl fun l => ofInt_min_lane .., gives_patterns rfl rfl rfl fun l => ofInt_max_lane ..,
    gives_patterns rfl rfl rfl fun l => ofInt_bitwise .., gives_patterns rfl rfl rfl fun l => ofInt_bitwise ..,
    gives_patterns rfl rfl rfl fun l => ofInt_bitwise .., gives_patterns rfl rfl rfl fun l => ofInt_bitwise ..,
    gives_patterns rfl rfl rfl fun l => ?gt, gives_patterns rfl rfl rfl fun l => ?eq,
    gives_patterns rfl rfl rfl fun l => ofInt_shr_lane .., gives_patterns rfl rfl rfl fun l => ofInt_bitwise ..,
    gives_patterns rfl rfl rfl fun l => ofInt_lane _ _ _, gives_patterns rfl rfl rfl fun l => ofInt_lane _ _ _⟩
  case gt => rw [ofInt_truth]; simp only [decide_eq_true_eq]
  case eq => rw [ofInt_truth]; simp only [decide_eq_true_eq, lane_eq_iff]

end Sys2Proof.Machine

namespace Sys2Proof.Machine

/-! Lanes of accumulators as signed 72-bit numbers -/

theorem toInt_ofInt72 {x : Int} (hlo : -(2 ^ 71) ≤ x) (hhi : x < 2 ^ 71) : (BitVec.ofInt 72 x).toInt = x := by
  rw [BitVec.toInt_ofInt]
  exact Int.bmod_eq_of_le (by omega) (by omega)

theorem toInt_ofInt72_of_toInt {k : Nat} (hk : k ≤ 72) (x : BitVec k) : (BitVec.ofInt 72 x.toInt).toInt = x.toInt := by
  rw [← BitVec.signExtend, BitVec.toInt_signExtend_of_le hk]

theorem acc_bounds (q : Rod) (n l : Nat) : -(2 ^ 71) ≤ q.acc n l ∧ q.acc n l < 2 ^ 71 :=
  ⟨BitVec.le_toInt _, BitVec.toInt_lt⟩

theorem lane_bounds (q : Rod) (n l : Nat) : -(2 ^ 31) ≤ q.lane n l ∧ q.lane n l < 2 ^ 31 :=
  ⟨BitVec.le_toInt _, BitVec.toInt_lt⟩

theorem setAc_acc_self (q : Rod) (ac l : Nat) (f : Nat → Int) (hl : l < 8) :
    (q.setAc ac f).acc ac l = (BitVec.ofInt 72 (f l)).toInt := (acc_setAc q ac ac l f hl).trans (if_pos rfl)

section
variable {c : Instr} {s : State} {r ac : Nat} {w : ParWord} {x : Nat → Int}

/-- A command whose operation leaves the lanes of ACd at `x`. -/
theorem gives_accLanes (hc : parWord c = some (r, w)) (hx : ∀ l, l < 8 → (vopRun (s.rod r) (s.rod r) w.vop).acc ac l = x l) :
    WordRuns s r w → Gives c s (fun t => AccLanes t r ac x) :=
  parWord_gives hc fun _ _ d l hl => (d.acc ac l).trans (hx l hl)

/-- The same, with SATF set exactly where it was set or `cut` holds. -/
theorem gives_accLanes_satf {cut : Prop} (hc : parWord c = some (r, w))
    (hx : ∀ l, l < 8 → (vopRun (s.rod r) (s.rod r) w.vop).acc ac l = x l)
    (hsat : (vopRun (s.rod r) (s.rod r) w.vop).satf = true ↔ (s.rod r).satf = true ∨ cut) :
    WordRuns s r w → Gives c s (fun t => AccLanes t r ac x ∧ ((t.rod r).satf = true ↔ (s.rod r).satf = true ∨ cut)) :=
  parWord_gives hc fun _ _ d => ⟨fun l hl => (d.acc ac l).trans (hx l hl), by rw [d.satf]; exact hsat⟩

end

/-! Products (R207) -/

theorem productCut_iff (q : Rod) (va vb : Nat) :
    productCut q va vb = true ↔ ∃ l, l < 8 ∧ product q va vb l ≠ rawProduct q va vb l := by
  unfold productCut
  rw [any_range]
  simp only [decide_eq_true_eq]

theorem sat_satf (q : Rod) (b : Bool) : (q.sat b).satf = true ↔ q.satf = true ∨ b = true := Bool.or_eq_true_iff

/-- VMAC and VMSU record a saturated product and a saturated sum. -/
theorem setSatAc_cut_satf (q : Rod) (ac va vb : Nat) (f : Nat → Int) :
    ((setSatAc q ac f).sat (productCut q va vb)).satf = true ↔ q.satf = true ∨
      (∃ l, l < 8 ∧ product q va vb l ≠ rawProduct q va vb l) ∨ ∃ l, l < 8 ∧ sat72 (f l) ≠ f l := by
  rw [sat_satf, setSatAc_satf, productCut_iff, or_assoc, or_comm (a := ∃ _, _ ∧ sat72 _ ≠ _)]

section
variable (q : Rod) (ac va vb : Nat)

theorem vmpy_acc (l : Nat) (hl : l < 8) : (vopRun q q (.vmpy ac va vb)).acc ac l = product q va vb l := by
  rw [vopRun, sat_acc, setAc_acc_self _ _ _ _ hl, product, toInt_sat72]

theorem vmpy_satf : (vopRun q q (.vmpy ac va vb)).satf = true ↔ q.satf = true ∨
    ∃ l, l < 8 ∧ product q va vb l ≠ rawProduct q va vb l := by
  rw [vopRun, sat_satf, productCut_iff]
  rfl

theorem vmac_acc (l : Nat) (hl : l < 8) :
    (vopRun q q (.vmac ac va vb)).acc ac l = sat72 (q.acc ac l + product q va vb l) := by
  rw [vopRun, sat_acc, setSatAc_acc _ _ _ _ hl]

theorem vmac_satf : (vopRun q q (.vmac ac va vb)).satf = true ↔ q.satf = true ∨
    (∃ l, l < 8 ∧ product q va vb l ≠ rawProduct q va vb l) ∨
      ∃ l, l < 8 ∧ sat72 (q.acc ac l + product q va vb l) ≠ q.acc ac l + product q va vb l := by
  rw [vopRun, setSatAc_cut_satf]

theorem vmsu_acc (l : Nat) (hl : l < 8) :
    (vopRun q q (.vmsu ac va vb)).acc ac l = sat72 (q.acc ac l - product q va vb l) := by
  rw [vopRun, sat_acc, setSatAc_acc _ _ _ _ hl]

theorem vmsu_satf : (vopRun q q (.vmsu ac va vb)).satf = true ↔ q.satf = true ∨
    (∃ l, l < 8 ∧ product q va vb l ≠ rawProduct q va vb l) ∨
      ∃ l, l < 8 ∧ sat72 (q.acc ac l - product q va vb l) ≠ q.acc ac l - product q va vb l := by
  rw [vopRun, setSatAc_cut_satf]

end

/-- Settles O9: the products, and the sums with them, go through saturation to Q10.62. -/
theorem multiplyAccumulate : Obligations.MultiplyAccumulate := by
  intro s r ac va vb sl raw p cut
  exact ⟨gives_accLanes_satf rfl (vmpy_acc _ ac va vb) (vmpy_satf _ ac va vb),
    gives_accLanes_satf rfl (vmac_acc _ ac va vb) (vmac_satf _ ac va vb),
    gives_accLanes_satf rfl (vmsu_acc _ ac va vb) (vmsu_satf _ ac va vb)⟩

end Sys2Proof.Machine

namespace Sys2Proof.Machine

/-! Signed values of bit patterns -/

theorem toSigned_eq (w x : Nat) (hw : 0 < w) : toSigned w x = (BitVec.ofNat w x).toInt := by
  obtain ⟨k, rfl⟩ : ∃ k, w = k + 1 := ⟨w - 1, by omega⟩
  have hpow : 2 ^ (k + 1) = 2 * 2 ^ k := pow_succ' 2 k
  rw [toSigned, BitVec.toInt_eq_toNat_cond, BitVec.toNat_ofNat, Nat.add_sub_cancel]
  by_cases h : x % 2 ^ (k + 1) < 2 ^ k
  · rw [if_pos h, if_pos (by omega)]
  · rw [if_neg h, if_neg (by omega)]
    push_cast
    rfl

theorem toPat_eq (w : Nat) (x : Int) : toPat w x = (BitVec.ofInt w x).toNat := by
  rw [toPat, BitVec.toNat_ofInt]
  push_cast
  rfl

theorem append_eq_ofNat {n m : Nat} (x : BitVec n) (y : BitVec m) :
    x ++ y = BitVec.ofNat (n + m) (y.toNat + x.toNat * 2 ^ m) := by
  apply BitVec.eq_of_toNat_eq
  have hx : x.toNat * 2 ^ m ≤ (2 ^ n - 1) * 2 ^ m := Nat.mul_le_mul_right _ (Nat.le_sub_one_of_lt x.isLt)
  have hy := y.isLt
  have hm : (2 ^ n - 1) * 2 ^ m + 2 ^ m = 2 ^ (n + m) := by
    rw [← Nat.succ_mul, Nat.succ_eq_add_one, Nat.sub_add_cancel Nat.one_le_two_pow, pow_add]
  rw [BitVec.toNat_append, BitVec.toNat_ofNat, ← Nat.shiftLeft_add_eq_or_of_lt hy, Nat.shiftLeft_eq,
    Nat.mod_eq_of_lt (by omega), Nat.add_comm]

theorem ofInt_extractLsb' (x : Word) : BitVec.ofInt 8 x.toInt = x.extractLsb' 0 8 := by
  apply BitVec.eq_of_toNat_eq
  rw [BitVec.toNat_ofInt, BitVec.extractLsb'_toNat, BitVec.toInt_eq_toNat_cond, Nat.shiftRight_zero]
  split <;> omega

/-- The sum of VRED, addition by addition (R221). -/
theorem redSum_fst (q : Rod) (ac : Nat) : (redSum q ac).1 =
    sat72 (sat72 (sat72 (sat72 (sat72 (sat72 (sat72 (q.acc ac 0 + q.acc ac 1) + q.acc ac 2) + q.acc ac 3) + q.acc ac 4) +
      q.acc ac 5) + q.acc ac 6) + q.acc ac 7) := by
  simp only [redSum, List.range, List.range.loop, List.foldl_cons, List.foldl_nil, Nat.reduceAdd]

section
variable (q : Rod) (ac acs va vb l : Nat) (hl : l < 8)
include hl

theorem vclr_acc : (vopRun q q (.vclr ac)).acc ac l = 0 := setAc_acc_self _ _ _ _ hl

theorem vlift_acc : (vopRun q q (.vlift ac va)).acc ac l = q.lane va l * 2 ^ 31 := by
  have h := lane_bounds q va l
  rw [vopRun, setAc_acc_self _ _ _ _ hl, shl]
  exact toInt_ofInt72 (by omega) (by omega)

theorem vaadd_acc : (vopRun q q (.vaadd ac acs)).acc ac l = sat72 (q.acc ac l + q.acc acs l) := setSatAc_acc _ _ _ _ hl

theorem vasub_acc : (vopRun q q (.vasub ac acs)).acc ac l = sat72 (q.acc ac l - q.acc acs l) := setSatAc_acc _ _ _ _ hl

theorem vtrw_acc : (vopRun q q (.vtrw ac)).acc ac l = q.acc ac l - q.acc ac l % 2 ^ 31 := by
  have h := acc_bounds q ac l
  have hcut : shl (shr (q.acc ac l) 31) 31 = q.acc ac l - q.acc ac l % 2 ^ 31 := by
    unfold shl shr
    omega
  rw [vopRun, setAc_acc_self _ _ _ _ hl, hcut]
  exact toInt_ofInt72 (by omega) (by omega)

theorem vred_acc : (vopRun q q (.vred ac)).acc ac l = if l = 0 then
    sat72 (sat72 (sat72 (sat72 (sat72 (sat72 (sat72 (q.acc ac 0 + q.acc ac 1) + q.acc ac 2) + q.acc ac 3) + q.acc ac 4) +
      q.acc ac 5) + q.acc ac 6) + q.acc ac 7) else 0 := by
  rw [vopRun, sat_acc, setAc_acc_self _ _ _ _ hl, redSum_fst]
  split
  · exact toInt_sat72 _
  · rfl

theorem vwra_acc : (vopRun q q (.vwra ac va vb)).acc ac l = (q.word vb l ++ q.word va l).toInt := by
  rw [vopRun, setAc_acc_self _ _ _ _ hl, toSigned_eq _ _ (by decide), toInt_ofInt72_of_toInt (by decide), toPat_eq, toPat_eq,
    ofInt_lane, ofInt_lane, append_eq_ofNat]

theorem vwrh_acc : (vopRun q q (.vwrh ac va)).acc ac l =
    ((q.word va l).extractLsb' 0 8 ++ BitVec.ofInt 64 (q.acc ac l)).toInt := by
  rw [vopRun, setAc_acc_self _ _ _ _ hl, toSigned_eq _ _ (by decide), toInt_ofInt72_of_toInt (by decide), toPat_eq, toPat_eq,
    lane_eq, ofInt_extractLsb', append_eq_ofNat]

end

/-- Settles O10: the lanes that each operation leaves in ACd. -/
theorem accumulatorWrites : Obligations.AccumulatorWrites := by
  intro s r ac acs va vb sl a
  exact ⟨gives_accLanes rfl (vclr_acc _ ac), gives_accLanes rfl (vlift_acc _ ac va), gives_accLanes rfl (vaadd_acc _ ac acs),
    gives_accLanes rfl (vasub_acc _ ac acs), gives_accLanes rfl (vtrw_acc _ ac), gives_accLanes rfl (vred_acc _ ac),
    gives_accLanes rfl (vwra_acc _ ac va vb), gives_accLanes rfl (vwrh_acc _ ac va)⟩

end Sys2Proof.Machine

namespace Sys2Proof.Machine

/-! Parts of an accumulator lane (R221) -/

theorem ofInt_shr32 (x : BitVec 72) : BitVec.ofInt 32 (shr x.toInt 32) = x.extractLsb' 32 32 := by
  apply BitVec.eq_of_toNat_eq
  have hx := x.isLt
  rw [BitVec.toNat_ofInt, BitVec.extractLsb'_toNat, shr, BitVec.toInt_eq_toNat_cond, Nat.shiftRight_eq_div_pow]
  split <;> omega

theorem shr64_eq (x : BitVec 72) : shr x.toInt 64 = (x.extractLsb' 64 8).toInt := by
  have hx := x.isLt
  rw [shr, BitVec.toInt_eq_toNat_cond, BitVec.toInt_eq_toNat_cond, BitVec.extractLsb'_toNat, Nat.shiftRight_eq_div_pow]
  split <;> split <;> omega

theorem ofInt_acc (q : Rod) (n l : Nat) : BitVec.ofInt 72 (q.acc n l) = mget 0#72 q.ac (8 * n + l) := BitVec.ofInt_toInt

theorem ofInt_shr32_acc (q : Rod) (n l : Nat) :
    BitVec.ofInt 32 (shr (q.acc n l) 32) = (BitVec.ofInt 72 (q.acc n l)).extractLsb' 32 32 := by
  rw [ofInt_acc]
  exact ofInt_shr32 _

theorem ofInt_shr64_acc (q : Rod) (n l : Nat) :
    BitVec.ofInt 32 (shr (q.acc n l) 64) = ((BitVec.ofInt 72 (q.acc n l)).extractLsb' 64 8).signExtend 32 := by
  rw [ofInt_acc, BitVec.signExtend, ← shr64_eq]
  rfl

/-! The greatest of some numbers, and the exponent of R210 -/

theorem foldl_max_lt {g : Nat → Nat} {b : Nat} : ∀ {n a : Nat},
    (List.range n).foldl (fun m l => max m (g l)) a < b ↔ a < b ∧ ∀ l, l < n → g l < b := by
  intro n
  induction n with
  | zero => intro a; simp
  | succ n ih =>
    intro a
    rw [List.range_succ, List.foldl_append, List.foldl_cons, List.foldl_nil, max_lt_iff, ih, and_assoc]
    refine and_congr Iff.rfl ⟨fun ⟨h, hn⟩ l hl => ?_, fun h => ⟨fun l hl => h l (by omega), h n (by omega)⟩⟩
    rcases Nat.lt_succ_iff_lt_or_eq.mp hl with hl | rfl
    · exact h l hl
    · exact hn

theorem foldl_max_attained {g : Nat → Nat} : ∀ {n a : Nat}, (List.range n).foldl (fun m l => max m (g l)) a = a ∨
    ∃ l, l < n ∧ (List.range n).foldl (fun m l => max m (g l)) a = g l := by
  intro n
  induction n with
  | zero => intro a; exact Or.inl rfl
  | succ n ih =>
    intro a
    rw [List.range_succ, List.foldl_append, List.foldl_cons, List.foldl_nil]
    rcases max_choice ((List.range n).foldl (fun m l => max m (g l)) a) (g n) with h | h <;> rw [h]
    · exact ih.imp id fun ⟨l, hl, e⟩ => ⟨l, by omega, e⟩
    · exact Or.inr ⟨n, by omega, rfl⟩

/-- The lanes of an accumulator below 2^(62+e) in magnitude. -/
def FitsExponent (q : Rod) (ac e : Nat) : Prop := ∀ l, l < 8 → (q.acc ac l).natAbs < 2 ^ (62 + e)

theorem fitsExponent_iff (q : Rod) (ac e : Nat) :
    (List.range 8).foldl (fun m l => max m (iabs (q.acc ac l)).toNat) 0 < 2 ^ (62 + e) ↔ FitsExponent q ac e := by
  rw [foldl_max_lt]
  simp only [iabs_eq, Int.toNat_natCast, FitsExponent]
  exact and_iff_right (Nat.two_pow_pos _)

theorem fitsExponent_ten (q : Rod) (ac : Nat) : FitsExponent q ac 10 := by
  intro l _
  have h := acc_bounds q ac l
  omega

/-- VAEX takes the smallest exponent that fits (R210). -/
theorem accExponent_least (q : Rod) (ac : Nat) :
    FitsExponent q ac (accExponent q ac) ∧ ∀ e, FitsExponent q ac e → accExponent q ac ≤ e := by
  unfold accExponent
  dsimp only
  cases hfind : (List.range 11).find? (fun e => decide
      ((List.range 8).foldl (fun m l => max m (iabs (q.acc ac l)).toNat) 0 < 2 ^ (62 + e))) with
  | none =>
    have hten := List.find?_eq_none.mp hfind 10 (by decide)
    exact absurd (decide_eq_true ((fitsExponent_iff q ac 10).mpr (fitsExponent_ten q ac))) hten
  | some e =>
    obtain ⟨hfits, -, hless⟩ := List.find?_range_eq_some.mp hfind
    refine ⟨(fitsExponent_iff q ac e).mp (of_decide_eq_true hfits), fun e' he' => Nat.le_of_not_lt fun hlt => ?_⟩
    have hnot := hless e' hlt
    rw [decide_eq_true ((fitsExponent_iff q ac e').mpr he')] at hnot
    exact Bool.false_ne_true hnot

theorem Completed.aex {q q' : Rod} (h : Completed q q') : q'.aex = q.aex := by
  obtain ⟨_, _, _, _, _, _, _, e⟩ := h.rest
  rw [e]

theorem parRegs_aex (s : State) (r : Nat) (R : Rod) (w : ParWord) : (parRegs s r R w).aex = (vopRun R R w.vop).aex := by
  obtain ⟨a, h⟩ := parRegs_before s r R w
  rw [h]
  show (parBefore s r R w).aex = _
  rw [parBefore_shape]

/-- AEX after a word is the vector operation's. -/
theorem ParDone.aex {s t : State} {r : Nat} {w : ParWord} (d : ParDone s t r w) :
    (t.rod r).aex = (vopRun (s.rod r) (s.rod r) w.vop).aex := by
  rw [d.rod.aex, parRegs_aex]

/-- AEX after VAEX. -/
theorem vaex_toNat (q : Rod) (ac : Nat) :
    (BitVec.ofNat 32 (max q.aex.toNat (accExponent q ac))).toNat = max q.aex.toNat (accExponent q ac) := by
  have hle := (accExponent_least q ac).2 10 (fitsExponent_ten q ac)
  have hlt := q.aex.isLt
  exact Nat.mod_eq_of_lt (max_lt hlt (by omega))

/-- Settles O11: the reads write the parts of the lanes, and VAEX the least exponent that fits. -/
theorem accumulatorReads : Obligations.AccumulatorReads := by
  intro s r vd acs n sl a
  refine ⟨gives_saturates rfl rfl rfl, gives_saturates rfl rfl rfl, gives_patterns rfl rfl rfl fun l => rfl,
    gives_patterns rfl rfl rfl fun l => ofInt_shr32_acc .., gives_patterns rfl rfl rfl fun l => ofInt_shr64_acc .., fun h => ?_⟩
  obtain ⟨t, ht, d⟩ := parWord_runs (c := .vaex r acs sl) rfl h
  obtain ⟨hfits, hleast⟩ := accExponent_least (s.rod r) acs
  exact ⟨t, accExponent (s.rod r) acs, ht, by rw [d.aex]; exact vaex_toNat _ acs, hfits, hleast⟩

end Sys2Proof.Machine

namespace Sys2Proof.Machine

/-! Searches (R211) -/

/-- The extreme of eight lanes `x` with its index, taken in ascending order after the extreme `b` so far. -/
def extreme (better : Int → Int → Bool) (x : Nat → Int) (sc : Nat) (b : Int × Nat) : Int × Nat :=
  (List.range 8).foldl (fun b l =>
    if better (x l) b.1 = true ∨ (x l = b.1 ∧ (sc + l) % 2 ^ 32 < b.2) then (x l, (sc + l) % 2 ^ 32) else b) b

theorem searchLane_foldl (min : Bool) (x : Nat → Int) (sc : Nat) (b : Int × Nat) :
    ((List.range 8).map (fun l => (x l, l))).foldl (searchLane min sc) b =
      extreme (fun y z => if min then decide (y < z) else decide (z < y)) x sc b := by
  rw [List.foldl_map, extreme]
  congr 1
  funext b l
  simp only [searchLane, Bool.or_eq_true, Bool.and_eq_true, decide_eq_true_eq]

/-- The extreme is the one before or that of a lane. -/
theorem extreme_from {better : Int → Int → Bool} {x : Nat → Int} {sc : Nat} {P : Int × Nat → Prop}
    (hx : ∀ l, P (x l, (sc + l) % 2 ^ 32)) {b : Int × Nat} (hb : P b) : P (extreme better x sc b) := by
  unfold extreme
  induction List.range 8 generalizing b with
  | nil => exact hb
  | cons l ls ih =>
    rw [List.foldl_cons]
    split
    · exact ih (hx l)
    · exact ih hb

/-- An extreme that SX and SI hold: a signed 64-bit value and a 32-bit index. -/
def Holdable (b : Int × Nat) : Prop := -(2 ^ 63) ≤ b.1 ∧ b.1 < 2 ^ 63 ∧ b.2 < 2 ^ 32

theorem Holdable.toInt {b : Int × Nat} (h : Holdable b) : (BitVec.ofInt 64 b.1).toInt = b.1 := by
  obtain ⟨hlo, hhi, -⟩ := h
  rw [BitVec.toInt_ofInt]
  exact Int.bmod_eq_of_le (by omega) (by omega)

theorem Holdable.toNat {b : Int × Nat} (h : Holdable b) : (BitVec.ofNat 32 b.2).toNat = b.2 := Nat.mod_eq_of_lt h.2.2

/-- SX, SI and SC after a search over lanes `x`. -/
structure Found (q q' : Rod) (better : Int → Int → Bool) (x : Nat → Int) : Prop where
  sx : q'.sx.toInt = (extreme better x q.sc.toNat (q.sx.toInt, q.si.toNat)).1
  si : q'.si.toNat = (extreme better x q.sc.toNat (q.sx.toInt, q.si.toNat)).2
  sc : q'.sc = q.sc + 8

theorem search_found (q : Rod) (va : Nat) (min mag : Bool) : Found q (search q q va min mag)
    (fun y z => if min then decide (y < z) else decide (z < y)) (fun l => if mag then iabs (q.lane va l) else q.lane va l) := by
  have hold : Holdable (extreme (fun y z => if min then decide (y < z) else decide (z < y))
      (fun l => if mag then iabs (q.lane va l) else q.lane va l) q.sc.toNat (q.sx.toInt, q.si.toNat)) := by
    refine extreme_from (fun l => ?_) ⟨BitVec.le_toInt _, BitVec.toInt_lt, BitVec.isLt _⟩
    have hlane := lane_bounds q va l
    refine ⟨?_, ?_, Nat.mod_lt _ (by decide)⟩
    all_goals
      dsimp only
      rw [iabs_eq]
      split <;> omega
  unfold search
  dsimp only
  rw [searchLane_foldl]
  exact ⟨hold.toInt, hold.toNat, rfl⟩

/-- What a word leaves in the search registers is its vector operation's. -/
theorem ParDone.search {s t : State} {r : Nat} {w : ParWord} (d : ParDone s t r w) :
    (t.rod r).sx = (vopRun (s.rod r) (s.rod r) w.vop).sx ∧ (t.rod r).si = (vopRun (s.rod r) (s.rod r) w.vop).si ∧
      (t.rod r).sc = (vopRun (s.rod r) (s.rod r) w.vop).sc := by
  obtain ⟨_, _, _, _, _, _, _, e⟩ := d.rod.rest
  obtain ⟨a, h⟩ := parRegs_before s r (s.rod r) w
  rw [e, h, parBefore_shape]
  exact ⟨rfl, rfl, rfl⟩

theorem gives_found {c : Instr} {s : State} {r : Nat} {w : ParWord} (better : Int → Int → Bool) (x : Nat → Int)
    (hc : parWord c = some (r, w)) (hv : Found (s.rod r) (vopRun (s.rod r) (s.rod r) w.vop) better x) :
    WordRuns s r w → Gives c s (fun t =>
      (t.rod r).sx.toInt = (extreme better x (s.rod r).sc.toNat ((s.rod r).sx.toInt, (s.rod r).si.toNat)).1 ∧
      (t.rod r).si.toNat = (extreme better x (s.rod r).sc.toNat ((s.rod r).sx.toInt, (s.rod r).si.toNat)).2 ∧
      (t.rod r).sc = (s.rod r).sc + 8) :=
  parWord_gives hc fun _ _ d => by
    obtain ⟨hsx, hsi, hsc⟩ := d.search
    rw [hsx, hsi, hsc]
    exact ⟨hv.sx, hv.si, hv.sc⟩

theorem execSrinit_gives {s : State} {r an : Nat} {min : Bool} (h : Issues s r) (han : an < 16) (hb : atBodyEnd (s.rod r) = false) :
    Gives (.srinit r an min) s (fun t => (t.rod r).sc.toNat = (s.rod r).arv an ∧ (t.rod r).si = 0xFFFFFFFF#32 ∧
      (t.rod r).sx.toInt = if min then 2 ^ 63 - 1 else -(2 ^ 63)) := by
  refine ⟨_, congrArg Host.Outcome.next (controlWord_issues h (decide_eq_true han) rfl hb _), ?_⟩
  obtain ⟨⟨-, -, _, _, _, _, _, _, _, e⟩, -, -⟩ := finish_rod s r { s.rod r with
      sc := mget 0#32 (s.rod r).ar an, si := 0xFFFFFFFF#32, sx := if min then 0x7FFFFFFFFFFFFFFF#64 else 0x8000000000000000#64 }
      (stallOf (s.rod r) [] [an]) Wrote.none
  dsimp only
  rw [e]
  exact ⟨rfl, rfl, by cases min <;> rfl⟩

theorem smax_found (q : Rod) (va : Nat) :
    Found q (vopRun q q (.smax va)) (fun y z => decide (z < y)) (fun l => q.lane va l) := search_found q va false false

theorem smin_found (q : Rod) (va : Nat) :
    Found q (vopRun q q (.smin va)) (fun y z => decide (y < z)) (fun l => q.lane va l) := search_found q va true false

theorem smaxa_found (q : Rod) (va : Nat) :
    Found q (vopRun q q (.smaxa va)) (fun y z => decide (z < y)) (fun l => (q.lane va l).natAbs) := by
  have h := search_found q va false true
  simp only [iabs_eq] at h
  exact h

/-- Settles O12: the searches keep the extreme of the lanes, and SRINIT starts one. -/
theorem searchWords : Obligations.SearchWords := by
  intro s r va an min sl run found
  exact ⟨gives_found (fun y z => decide (z < y)) (fun l => (s.rod r).lane va l) rfl (smax_found _ va),
    gives_found (fun y z => decide (y < z)) (fun l => (s.rod r).lane va l) rfl (smin_found _ va),
    gives_found (fun y z => decide (z < y)) (fun l => ((s.rod r).lane va l).natAbs) rfl (smaxa_found _ va), execSrinit_gives⟩

end Sys2Proof.Machine

namespace Sys2Proof.Machine

/-! Loads (R204) -/

/-- The address that lane `l` of a load is read at. -/
def loadAddr (q : Rod) (x : LdSlot) (l : Nat) : Int :=
  match x.kind with
  | .ldv => q.arv x.an + 4 * l
  | .ldb => q.arv x.an
  | .lds => q.arv x.an + l * q.mdv x.an

theorem getD_map_range {α : Type} (g : Nat → α) (d : α) {n l : Nat} (hl : l < n) : ((List.range n).map g).getD l d = g l := by
  simp [List.getD, hl]

theorem vopDest_apart {w : ParWord} {x : LdSlot} (hc : parConflict w = false) (hld : w.ld = some x) : vopDest w.vop ≠ some x.v := by
  intro h
  simp [parConflict, hld, h] at hc

/-- Lane `l` of the register that a word loads, as memory stood before the word (R202). -/
theorem ParDone.loaded {s t : State} {r : Nat} {w : ParWord} {x : LdSlot} (d : ParDone s t r w) (hld : w.ld = some x) (l : Nat)
    (hl : l < 8) : (t.rod r).word x.v l = dmWord s r (loadAddr (s.rod r) x l).toNat := by
  rw [d.rod.word, parRegs_word _ _ _ _ _ _ hl, hld]
  dsimp only
  rw [if_pos rfl]
  unfold loadAddr loadAddrs
  cases x.kind with
  | ldv => exact congrArg (fun a : Int => dmWord s r a.toNat) (getD_map_range _ 0 hl)
  | ldb => rfl
  | lds => exact congrArg (fun a : Int => dmWord s r a.toNat) (getD_map_range _ 0 hl)

theorem gives_loaded {c : Instr} {s : State} {r : Nat} {w : ParWord} {x : LdSlot} (hc : parWord c = some (r, w)) (hld : w.ld = some x) :
    WordRuns s r w → Gives c s (fun t => ∀ l, l < 8 → (t.rod r).lane x.v l = (dmWord s r (loadAddr (s.rod r) x l).toNat).toInt) :=
  parWord_gives hc fun _ _ d l hl => congrArg BitVec.toInt (d.loaded hld l hl)

/-- Settles O13: each load puts the word at its lane's address into the lane. -/
theorem rodLoads : Obligations.RodLoads := by
  intro s r v an vop st u1 u2 at_
  exact ⟨gives_loaded (x := LdSlot.mk .ldv v an) rfl rfl, gives_loaded (x := LdSlot.mk .ldb v an) rfl rfl,
    gives_loaded (x := LdSlot.mk .lds v an) rfl rfl⟩

end Sys2Proof.Machine

namespace Sys2Proof.Machine

/-! Stores (R204, R209) -/

theorem rodWindow_add (r a i : Nat) : rodWindow r (a + i) = rodWindow r a + i := (Nat.add_assoc _ a i).symm

theorem leBytes_getD (n i x : Nat) (hi : i < n) : (leBytes n x).getD i 0#8 = BitVec.ofNat 8 (x / 256 ^ i) := by
  induction n generalizing i x with
  | zero => omega
  | succ n ih =>
    cases i with
    | zero => simp [leBytes]
    | succ i =>
      rw [leBytes, List.getD_cons_succ, ih i _ (by omega), Nat.div_div_eq_div_mul, pow_succ, Nat.mul_comm 256]

/-- Byte `i` of a word as memory holds it. -/
theorem leBytes_word (x : Word) (i : Nat) (hi : i < 4) : (leBytes 4 x.toNat).getD i 0#8 = x.extractLsb' (8 * i) 8 := by
  rw [leBytes_getD _ _ _ hi]
  apply BitVec.eq_of_toNat_eq
  rw [BitVec.toNat_ofNat, BitVec.extractLsb'_toNat, Nat.shiftRight_eq_div_pow, pow_mul]
  norm_num

/-- One word of a store in memory. -/
def memStore (r : Nat) (m : List Host.Cell) (e : Nat × Word) : List Host.Cell := memWrite m (rodWindow r e.1) (leBytes 4 e.2.toNat)

theorem memByte_memStore_ne (r : Nat) (m : List Host.Cell) (e : Nat × Word) (b : Nat)
    (hb : b < rodWindow r e.1 ∨ rodWindow r e.1 + 4 ≤ b) : memByte (memStore r m e) b = memByte m b :=
  memByte_memWrite_ne _ _ _ _ (by rw [leBytes_length]; exact hb)

theorem memByte_memStore (r : Nat) (m : List Host.Cell) (e : Nat × Word) (i : Nat) (hi : i < 4) :
    memByte (memStore r m e) (rodWindow r e.1 + i) = e.2.extractLsb' (8 * i) 8 := by
  rw [memStore, memByte_memWrite _ _ _ _ (by rw [leBytes_length]; exact hi), leBytes_word _ _ hi]

/-- A byte outside every word stored reads as before. -/
theorem memByte_stores_ne (r b : Nat) : ∀ (l : List (Nat × Word)) (m : List Host.Cell),
    (∀ e ∈ l, b < rodWindow r e.1 ∨ rodWindow r e.1 + 4 ≤ b) → memByte (l.foldl (memStore r) m) b = memByte m b := by
  intro l
  induction l with
  | nil => intro m _; rfl
  | cons e l ih =>
    intro m h
    rw [List.forall_mem_cons] at h
    rw [List.foldl_cons, ih _ h.2, memByte_memStore_ne _ _ _ _ h.1]

/-- Consecutive words stored from address `a` on. -/
theorem memByte_stores (r a : Nat) (x : Nat → Word) (m : List Host.Cell) {n l i : Nat} (hl : l < n) (hi : i < 4) :
    memByte (((List.range n).map (fun k => (a + 4 * k, x k))).foldl (memStore r) m) (rodWindow r (a + 4 * l) + i) =
      (x l).extractLsb' (8 * i) 8 := by
  induction n with
  | zero => omega
  | succ n ih =>
    rw [List.range_succ, List.map_append, List.foldl_append]
    show memByte (memStore r _ (a + 4 * n, x n)) _ = _
    rcases Nat.lt_succ_iff_lt_or_eq.mp hl with h | rfl
    · rw [memByte_memStore_ne, ih h]
      simp only [rodWindow_add]
      omega
    · exact memByte_memStore r _ _ i hi

/-- The words that a store of eight lanes writes. -/
theorem storeWords_vector (q : Rod) (x : StSlot) (hk : x.kind ≠ .stl) :
    storeWords q x (storeAddrs q x) = (List.range 8).map (fun k => (q.arv x.an + 4 * k, q.word x.v k)) := by
  have haddr : storeAddrs q x = (List.range 8).map (fun k : Nat => (q.arv x.an : Int) + 4 * (k : Int)) := by
    unfold storeAddrs
    cases hkind : x.kind with
    | stl => exact absurd hkind hk
    | stv => rfl
    | std => rfl
  rw [haddr, storeWords, List.length_map, List.length_range]
  refine List.map_congr_left fun k hmem => ?_
  rw [getD_map_range _ _ (List.mem_range.mp hmem)]
  exact Prod.ext (by dsimp only; omega) rfl

theorem storeWords_scalar (q : Rod) (x : StSlot) (hk : x.kind = .stl) :
    storeWords q x (storeAddrs q x) = [(q.arv x.an, q.word x.v 0)] := by
  unfold storeAddrs
  rw [hk]
  rfl

theorem ParDone.stored_mem {s t : State} {r : Nat} {w : ParWord} {x : StSlot} (d : ParDone s t r w) (hst : w.st = some x) :
    t.mem = (storeWords (s.rod r) x (storeAddrs (s.rod r) x)).foldl (memStore r) s.mem := by
  rw [d.mem, hst]
  rfl

/-- The bytes of the eight lanes that STV or STD stores. -/
theorem ParDone.stored {s t : State} {r : Nat} {w : ParWord} {x : StSlot} (d : ParDone s t r w) (hst : w.st = some x) (hk : x.kind ≠ .stl)
    (l : Nat) (hl : l < 8) (i : Nat) (hi : i < 4) :
    memByte t.mem (rodWindow r ((s.rod r).arv x.an + 4 * l) + i) = ((s.rod r).word x.v l).extractLsb' (8 * i) 8 := by
  rw [d.stored_mem hst, storeWords_vector _ _ hk]
  exact memByte_stores r _ _ _ hl hi

/-- The bytes of the lane that STL stores. -/
theorem ParDone.stored_scalar {s t : State} {r : Nat} {w : ParWord} {x : StSlot} (d : ParDone s t r w) (hst : w.st = some x)
    (hk : x.kind = .stl) (i : Nat) (hi : i < 4) :
    memByte t.mem (rodWindow r ((s.rod r).arv x.an) + i) = ((s.rod r).word x.v 0).extractLsb' (8 * i) 8 := by
  rw [d.stored_mem hst, storeWords_scalar _ _ hk]
  exact memByte_memStore r _ _ i hi

/-- What BXM becomes under STD (R209). -/
theorem ParDone.bxm {s t : State} {r : Nat} {w : ParWord} {x : StSlot} (d : ParDone s t r w) (hst : w.st = some x) (hk : x.kind = .std) :
    (t.rod r).bxm = (List.range 8).foldl (fun m l => max m ((s.rod r).lane x.v l).natAbs) (s.rod r).bxm := by
  obtain ⟨_, _, _, _, _, _, _, e⟩ := d.rod.rest
  obtain ⟨a, h⟩ := parRegs_before s r (s.rod r) w
  rw [e, h, parBefore_shape]
  simp only [hst, hk, if_true, detect, iabs_eq, Int.toNat_natCast]

/-- Settles O14: the words stored, and the detector that STD feeds. -/
theorem rodStores : Obligations.RodStores := by
  intro s r v an vop ld u1 u2 bytes
  refine ⟨parWord_gives rfl fun _ _ d l hl => d.stored (x := StSlot.mk .stv v an) rfl nofun l hl,
    parWord_gives rfl fun _ _ d => d.stored_scalar (x := StSlot.mk .stl v an) rfl rfl, parWord_gives rfl fun _ t d => ?_⟩
  have hbxm := d.bxm (x := StSlot.mk .std v an) rfl rfl
  obtain ⟨hbefore, hlanes⟩ := foldl_max_lt.mp (Nat.lt_succ_iff.mpr hbxm.ge)
  refine ⟨d.stored (x := StSlot.mk .std v an) rfl nofun, Nat.lt_succ_iff.mp hbefore,
    fun l hl => Nat.lt_succ_iff.mp (hlanes l hl), ?_⟩
  rw [hbxm]
  exact foldl_max_attained

end Sys2Proof.Machine

namespace Sys2Proof.Machine

/-! Address updates (R205) -/

section
variable (R : Rod)

theorem updates_arv_ne (n : Nat) : ∀ (us : List UpdSlot) (q : Rod), (∀ u ∈ us, u.an ≠ n) →
    (us.foldl (fun q u => q.setAr u.an (updValue R u)) q).arv n = q.arv n := by
  intro us
  induction us with
  | nil => intro q _; rfl
  | cons u us ih =>
    intro q h
    rw [List.forall_mem_cons] at h
    rw [List.foldl_cons, ih _ h.2, arv_setAr, if_neg (Ne.symm h.1)]

theorem updates_arv_head (u : UpdSlot) (us : List UpdSlot) (q : Rod) (h : ∀ v ∈ us, v.an ≠ u.an) :
    ((u :: us).foldl (fun q u => q.setAr u.an (updValue R u)) q).arv u.an = (BitVec.ofInt 32 (updValue R u)).toNat := by
  rw [List.foldl_cons, updates_arv_ne R u.an us _ h, arv_setAr, if_pos rfl]

end

/-- ARn after a word, of an AR that no update writes. -/
theorem ParDone.arv_ne {s t : State} {r : Nat} {w : ParWord} (d : ParDone s t r w) (n : Nat) (h : ∀ u ∈ w.us, u.an ≠ n) :
    (t.rod r).arv n = (s.rod r).arv n := by
  rw [d.rod.arv]
  refine (updates_arv_ne (s.rod r) n w.us (parBefore s r (s.rod r) w) h).trans ?_
  rw [parBefore_shape, vopRun_shape (s.rod r) w.vop]
  rfl

theorem parConflict_updates {w : ParWord} {a : UpdSlot} {b : Option UpdSlot} (hc : parConflict w = false)
    (hus : w.us = a :: b.toList) : ∀ v ∈ b.toList, v.an ≠ a.an := by
  intro v hv h
  cases b with
  | none => simp at hv
  | some u =>
    have hvu : v = u := by simpa using hv
    simp [parConflict, hus, ← hvu, h] at hc

/-- ARn after a word, of its first update. -/
theorem ParDone.arv_first {s t : State} {r : Nat} {w : ParWord} {a : UpdSlot} {b : Option UpdSlot} (d : ParDone s t r w)
    (hc : parConflict w = false) (hus : w.us = a :: b.toList) : ((t.rod r).arv a.an : Int) = updValue (s.rod r) a % 2 ^ 32 := by
  have h : (t.rod r).arv a.an = (BitVec.ofInt 32 (updValue (s.rod r) a)).toNat := by
    rw [d.rod.arv, parRegs, hus]
    exact updates_arv_head (s.rod r) a b.toList _ (parConflict_updates hc hus)
  rw [h, BitVec.toNat_ofInt]
  omega

/-- A ring address is below 2^32. -/
theorem circular_lt (cb : BitVec 18) (cl : BitVec 19) (h : cl.toNat ≠ 0) (x : Int) :
    ((cb.toNat : Int) + x % cl.toNat) % 2 ^ 32 = cb.toNat + x % cl.toNat := by
  have hcb := cb.isLt
  have hcl := cl.isLt
  have hpos := Int.emod_nonneg x (b := cl.toNat) (by omega)
  have hlt := Int.emod_lt_of_pos x (b := cl.toNat) (by omega)
  exact Int.emod_eq_of_lt (by omega) (by omega)

theorem bitrev_lt : ∀ (w x : Nat), bitrev w x < 2 ^ w := by
  intro w
  induction w with
  | zero => intro x; exact Nat.one_pos
  | succ w ih =>
    intro x
    have h := ih (x / 2)
    have hbit : x % 2 * 2 ^ w ≤ 1 * 2 ^ w := Nat.mul_le_mul_right _ (by omega)
    rw [bitrev, pow_succ]
    omega

/-- The step of an update as USTEP says (R201). -/
def ustepOf (q : Rod) (an step : Nat) : Int :=
  if step = 0 then q.mdv an else if step = 1 then 4 else if step = 2 then 32 else -32

theorem updStep_eq (q : Rod) (k : UpdKind) (an step : Nat) : updStep q (UpdSlot.mk k an step) = ustepOf q an step := by
  unfold updStep ustepOf
  split <;> simp_all

theorem updValue_linear (q : Rod) (an step : Nat) :
    updValue q (UpdSlot.mk .linear an step) = q.arv an + ustepOf q an step := by
  rw [updValue, updStep_eq]

theorem updValue_circular (q : Rod) (an step : Nat) : updValue q (UpdSlot.mk .circular an step) =
    if (mget 0#19 q.cl an).toNat = 0 then q.arv an + ustepOf q an step
    else (mget 0#18 q.cb an).toNat + (q.arv an - (mget 0#18 q.cb an).toNat + ustepOf q an step) % (mget 0#19 q.cl an).toNat := by
  rw [updValue, updStep_eq]

/-- The bit-reversed successor of index `i` in a ring of 2^w indices (R205). -/
theorem updValue_bitReversed (q : Rod) (an step w i : Nat) (hcl : (mget 0#19 q.cl an).toNat = 8 * 2 ^ w)
    (ha : (q.arv an : Int) = (mget 0#18 q.cb an).toNat + 8 * (i : Nat)) :
    updValue q (UpdSlot.mk .bitReversed an step) =
      ((mget 0#18 q.cb an).toNat + 8 * bitrev w ((bitrev w i + 1) % 2 ^ w) : Nat) := by
  have hlog : Nat.log2 ((mget 0#19 q.cl an).toNat / 8) = w := by
    rw [hcl, Nat.mul_div_cancel_left _ (by decide), Nat.log2_two_pow]
  have hidx : (((q.arv an : Int) - ((mget 0#18 q.cb an).toNat : Int)) / 8).toNat = i := by
    rw [ha]
    omega
  unfold updValue
  simp only [hlog, hidx]
  push_cast
  rfl

/-- Settles O15: the three modes, through what the word's first update leaves in its AR. -/
theorem addressUpdates : Obligations.AddressUpdates := by
  intro s r an step vop ld st u2 a cl cb by_
  refine ⟨parWord_gives rfl fun h _ d => ?_, parWord_gives rfl fun h _ d => ?_, parWord_gives rfl fun h _ d w hcl i ha => ?_⟩
  · refine (d.arv_first (a := UpdSlot.mk .linear an step) (b := u2) h.apart rfl).trans ?_
    rw [updValue_linear]
    rfl
  · refine (d.arv_first (a := UpdSlot.mk .circular an step) (b := u2) h.apart rfl).trans ?_
    rw [updValue_circular]
    by_cases hz : cl = 0
    · rw [if_pos hz, if_pos hz]
      rfl
    · rw [if_neg hz, if_neg hz]
      exact circular_lt _ _ hz _
  · have hnew := d.arv_first (a := UpdSlot.mk .bitReversed an step) (b := u2) h.apart rfl
    rw [updValue_bitReversed _ an step w i hcl ha] at hnew
    have hidx := bitrev_lt w ((bitrev w i + 1) % 2 ^ w)
    have hring := (mget 0#19 (s.rod r).cl an).isLt
    have hbase := (mget 0#18 (s.rod r).cb an).isLt
    have hsize : 8 * 2 ^ w < 2 ^ 19 := hcl ▸ hring
    have hsmall : cb + 8 * bitrev w ((bitrev w i + 1) % 2 ^ w) < 2 ^ 32 := by omega
    exact_mod_cast hnew.trans (congrArg Nat.cast (Nat.mod_eq_of_lt hsmall))

end Sys2Proof.Machine

namespace Sys2Proof.Machine

/-! What a parallel word leaves of its Rod -/

/-- The registers that no parallel word writes, with the repeat levels it stands in. -/
structure WordKeeps (q q' : Rod) : Prop where
  st  : q'.st = q.st
  md  : q'.md = q.md
  cl  : q'.cl = q.cl
  cb  : q'.cb = q.cb
  fa  : q'.fa = q.fa
  ps  : q'.ps = q.ps
  lnk : q'.lnk = q.lnk
  bsh : q'.bsh = q.bsh
  bxe : q'.bxe = q.bxe

theorem parRegs_keeps (s : State) (r : Nat) (R : Rod) (w : ParWord) : WordKeeps R (parRegs s r R w) ∧
    (parRegs s r R w).pc = R.pc ∧ (parRegs s r R w).reps = R.reps ∧ (parRegs s r R w).cyc = R.cyc := by
  obtain ⟨a, h⟩ := parRegs_before s r R w
  rw [h, parBefore_shape, vopRun_shape R w.vop]
  exact ⟨⟨rfl, rfl, rfl, rfl, rfl, rfl, rfl, rfl, rfl⟩, rfl, rfl, rfl⟩

theorem ParDone.keeps {s t : State} {r : Nat} {w : ParWord} (d : ParDone s t r w) : WordKeeps (s.rod r) (t.rod r) := by
  obtain ⟨_, _, _, _, _, _, _, e⟩ := d.rod.rest
  rw [e]
  exact { (parRegs_keeps s r (s.rod r) w).1 with }

theorem vopRun_bxm (R : Rod) (op : VOp) : (vopRun R R op).bxm = R.bxm := by rw [vopRun_shape R op]

/-- BXM after a word without STD. -/
theorem ParDone.bxm_other {s t : State} {r : Nat} {w : ParWord} (d : ParDone s t r w) (h : ∀ x, w.st = some x → x.kind ≠ .std) :
    (t.rod r).bxm = (s.rod r).bxm := by
  obtain ⟨_, _, _, _, _, _, _, e⟩ := d.rod.rest
  obtain ⟨a, hb⟩ := parRegs_before s r (s.rod r) w
  rw [e, hb, parBefore_shape]
  dsimp only
  cases hst : w.st with
  | none => exact vopRun_bxm _ _
  | some x => exact (if_neg (h x hst)).trans (vopRun_bxm _ _)

/-- AEX and the search registers. -/
def Rod.noted (q : Rod) : Word × BitVec 64 × Word × Word := (q.aex, q.sx, q.si, q.sc)

section
variable (R : Rod) (n : Nat) (f : Nat → Int) (b : Bool)

theorem sat_noted : (R.sat b).noted = R.noted := rfl
theorem setV_noted : (R.setV n f).noted = R.noted := rfl
theorem setAc_noted : (R.setAc n f).noted = R.noted := rfl
theorem setSat_noted : (setSat R n f).noted = R.noted := rfl
theorem setSatAc_noted : (setSatAc R n f).noted = R.noted := rfl

end

/-- Only VAEX and the searches write AEX and the search registers. -/
theorem vopRun_noted (R : Rod) (op : VOp) (ha : ∀ a, op ≠ .vaex a) (hs : vopSearch op = false) : (vopRun R R op).noted = R.noted := by
  cases op
  case vaex a => exact absurd rfl (ha a)
  case smax | smin | smaxa => cases hs
  case nop => rfl
  case vmpy | vred => rw [vopRun, sat_noted, setAc_noted]
  case vmac | vmsu => rw [vopRun, sat_noted, setSatAc_noted]
  case vaadd | vasub => rw [vopRun, setSatAc_noted]
  case vclr | vlift | vtrw | vwra | vwrh => rw [vopRun, setAc_noted]
  case vadd | vsub | vmul | vabs | vneg | vshl | vrd | vrdx => rw [vopRun, setSat_noted]
  all_goals rw [vopRun, setV_noted]

theorem search_aex (R : Rod) (va : Nat) (min mag : Bool) : (search R R va min mag).aex = R.aex := by
  unfold search
  rfl

theorem vopRun_aex (R : Rod) (op : VOp) (ha : ∀ a, op ≠ .vaex a) : (vopRun R R op).aex = R.aex := by
  cases hs : vopSearch op with
  | false => exact congrArg Prod.fst (vopRun_noted R op ha hs)
  | true =>
    cases op
    case smax | smin | smaxa => rw [vopRun, search_aex]
    all_goals cases hs

theorem vopRun_search (R : Rod) (op : VOp) (hs : vopSearch op = false) :
    (vopRun R R op).sx = R.sx ∧ (vopRun R R op).si = R.si ∧ (vopRun R R op).sc = R.sc := by
  by_cases ha : ∃ a, op = .vaex a
  · obtain ⟨a, rfl⟩ := ha
    exact ⟨rfl, rfl, rfl⟩
  · have h := vopRun_noted R op (fun a h => ha ⟨a, h⟩) hs
    simp only [Rod.noted, Prod.mk.injEq] at h
    exact h.2

/-- The lanes that neither the vector operation nor the load of a word writes. -/
theorem ParDone.word_ne {s t : State} {r : Nat} {w : ParWord} (d : ParDone s t r w) (n l : Nat) (hl : l < 8)
    (hv : vopDest w.vop ≠ some n) (hld : ∀ x, w.ld = some x → x.v ≠ n) : (t.rod r).word n l = (s.rod r).word n l := by
  rw [d.rod.word, parRegs_word _ _ _ _ _ _ hl]
  cases h : w.ld with
  | none => exact vopRun_word _ _ _ _ hl hv
  | some x => exact (if_neg (Ne.symm (hld x h))).trans (vopRun_word _ _ _ _ hl hv)

/-- The offset of each word that a store writes is one of its addresses. -/
theorem storeWords_addr {q : Rod} {x : StSlot} {e : Nat × Word} (he : e ∈ storeWords q x (storeAddrs q x)) :
    ∃ a ∈ storeAddrs q x, e.1 = a.toNat := by
  unfold storeWords at he
  obtain ⟨i, hi, rfl⟩ := List.mem_map.mp he
  have hlen := List.mem_range.mp hi
  refine ⟨(storeAddrs q x)[i], List.getElem_mem hlen, ?_⟩
  rw [List.getD_eq_getElem _ _ hlen]

/-- A byte outside the words that a parallel word stores. -/
theorem ParDone.mem_ne {s t : State} {r : Nat} {w : ParWord} (d : ParDone s t r w) (b : Nat)
    (h : ∀ a ∈ parStores (s.rod r) w, b < rodWindow r a.toNat ∨ rodWindow r a.toNat + 4 ≤ b) :
    memByte t.mem b = memByte s.mem b := by
  cases hst : w.st with
  | none => rw [d.mem, hst]
  | some x =>
    rw [d.stored_mem hst]
    refine memByte_stores_ne r b _ _ fun e he => ?_
    obtain ⟨a, ha, hea⟩ := storeWords_addr he
    rw [hea]
    exact h a (by simpa [parStores, hst] using ha)

/-- Settles O16: a part that a word leaves is one that neither its vector operation, nor its load, nor its updates write. -/
theorem parallelWordFrame : Obligations.ParallelWordFrame := by
  intro s c r w hc h
  refine parWord_gives hc (fun h t d => ?_) h
  have k := d.keeps
  refine ⟨d.others, k.st.trans h.issues.running, d.word_ne, fun n l hl hn => (d.acc n l).trans (vopRun_acc _ _ n l hl hn), d.arv_ne,
    k.md, k.cl, k.cb, k.fa, k.ps, k.lnk, k.bsh, k.bxe, d.bxm_other, fun ha => d.aex.trans (vopRun_aex _ _ ha), fun hs => ?_, d.mem_ne⟩
  obtain ⟨hsx, hsi, hsc⟩ := d.search
  obtain ⟨gsx, gsi, gsc⟩ := vopRun_search (s.rod r) w.vop hs
  exact ⟨hsx.trans gsx, hsi.trans gsi, hsc.trans gsc⟩

end Sys2Proof.Machine

namespace Sys2Proof.Machine

/-! The step after a word (R213) -/

/-- The levels that close at `pc`, and what the first one that does not close there does. -/
theorem nextWord_closes (pc : Nat) : ∀ reps : List RepLevel, ∃ closed rest, reps = closed ++ rest ∧
    (∀ x ∈ closed, x.last = pc ∧ x.count ≤ 1) ∧
    (match rest with
      | [] => (nextWord reps pc).1 = (pc + 1) % 8192 ∧ (nextWord reps pc).2 = []
      | x :: out =>
        if x.last = pc then
          1 < x.count ∧ (nextWord reps pc).1 = x.first ∧ (nextWord reps pc).2 = { x with count := x.count - 1 } :: out
        else (nextWord reps pc).1 = (pc + 1) % 8192 ∧ (nextWord reps pc).2 = x :: out) := by
  intro reps
  induction reps with
  | nil => exact ⟨[], [], rfl, by simp, rfl, rfl⟩
  | cons l out ih =>
    by_cases hend : pc = l.last
    · by_cases hcount : 1 < l.count
      · refine ⟨[], l :: out, rfl, by simp, ?_⟩
        simp [nextWord, hend, hcount]
      · obtain ⟨closed, rest, hsplit, hclosed, hrest⟩ := ih
        have hnext : nextWord (l :: out) pc = nextWord out pc := by simp [nextWord, hend, hcount]
        refine ⟨l :: closed, rest, by rw [hsplit]; rfl, ?_, by rw [hnext]; exact hrest⟩
        rw [List.forall_mem_cons]
        exact ⟨⟨hend.symm, Nat.le_of_not_lt hcount⟩, hclosed⟩
    · refine ⟨[], l :: out, rfl, by simp, ?_⟩
      simp [nextWord, hend, Ne.symm hend]

/-- A parallel word counts one cycle and the stalls of its operands (R220). -/
theorem parRun_cyc (s : State) (r : Nat) (w : ParWord) (lds : List Nat) :
    ((parRun s r w lds).rod r).cyc = (s.rod r).cyc + BitVec.ofNat 32 (1 + stallOf (s.rod r) (vopReads w.vop) (parUses w)) := by
  obtain ⟨-, -, c, hnote⟩ := rodNote_spec s r lds
  have hcyc := (parRegs_keeps (rodNote s r lds) r ((rodNote s r lds).rod r) w).2.2.2
  unfold parRun finish finishAt
  dsimp only
  rw [rod_setRod, if_pos rfl]
  dsimp only
  rw [hcyc, hnote]
  rfl

theorem parWord_cyc {c : Instr} {s : State} {r : Nat} {w : ParWord} (hc : parWord c = some (r, w)) (h : WordRuns s r w) :
    Gives c s (fun t => (t.rod r).cyc = (s.rod r).cyc + BitVec.ofNat 32 (1 + stallOf (s.rod r) (vopReads w.vop) (parUses w)) ∧
      ParDone s t r w) :=
  ⟨_, parWord_exec hc s, by rw [parallel_runs h]; exact ⟨parRun_cyc .., parRun_done ..⟩⟩

/-- Settles O17: the step after the word is `nextWord`, whose closed levels `nextWord_closes` names. -/
theorem wordsAdvance : Obligations.WordsAdvance := by
  intro s c r w hc h
  obtain ⟨t, ht, hcyc, d⟩ := parWord_cyc hc h
  obtain ⟨-, hpc, hreps, -⟩ := parRegs_keeps s r (s.rod r) w
  have hnext : ((t.rod r).pc, (t.rod r).reps) = nextWord (s.rod r).reps (s.rod r).pc := by rw [d.rod.pc, hpc, hreps]
  obtain ⟨hpc', hreps'⟩ := Prod.ext_iff.mp hnext
  refine ⟨t, ht, hcyc, ?_⟩
  rw [show (t.rod r).pc = _ from hpc', show (t.rod r).reps = _ from hreps']
  exact nextWord_closes (s.rod r).pc (s.rod r).reps

end Sys2Proof.Machine

namespace Sys2Proof.Machine

/-! Jumps, CALL and RET (R215, R220) -/

section
variable {s : State} {r : Nat} {taken : Bool} {uses : List Nat} {target : Nat} {q : Rod}

theorem jumpIf_active (hr : (s.rod r).reps ≠ []) : jumpIf s r taken uses target q = rodFault s r 0x03 0 := by
  rw [jumpIf, List.isEmpty_eq_false_iff.mpr hr]
  rfl

/-- With no level active a jump goes to its target when taken, else on. -/
theorem jumpIf_executed (hr : (s.rod r).reps = []) (hqr : q.reps = (s.rod r).reps) (hqp : q.pc = (s.rod r).pc) :
    Executed s (jumpIf s r taken uses target q) r q (if taken then target else ((s.rod r).pc + 1) % 8192) [] := by
  rw [jumpIf, List.isEmpty_iff.mpr hr]
  cases taken with
  | true => exact finishAt_executed ..
  | false =>
    have hnext : nextWord (s.rod r).reps (s.rod r).pc = (((s.rod r).pc + 1) % 8192, []) := by rw [hr, nextWord]
    have hcont := finish_continues s r q (stallOf (s.rod r) [] uses) Wrote.none hqr hqp
    rw [Continues, hnext] at hcont
    exact hcont

variable {c : Instr} {legal : Bool} {word : State → State}

theorem jump_faults (h : Controls s r) (he : exec c s = .next (controlWord s r legal true word)) (hl : legal = true)
    (hw : word s = jumpIf s r taken uses target q) (hr : (s.rod r).reps ≠ []) :
    Gives c s (fun t => t = rodFault s r 0x03 0) :=
  ⟨_, ctx he h hl rfl, hw.trans (jumpIf_active hr)⟩

theorem jump_gives (h : Controls s r) (he : exec c s = .next (controlWord s r legal true word)) (hl : legal = true)
    (hw : word s = jumpIf s r taken uses target q) (hqr : q.reps = (s.rod r).reps) (hqp : q.pc = (s.rod r).pc)
    (hr : (s.rod r).reps = []) {pc : Nat} (hpc : (if taken then target else ((s.rod r).pc + 1) % 8192) = pc) :
    Gives c s (fun t => Executed s t r q pc []) :=
  ⟨_, ctx he h hl rfl, by rw [hw, ← hpc]; exact jumpIf_executed hr hqr hqp⟩

end

/-- The sign of an AR as JNEG tests it. -/
theorem arv_neg_iff (q : Rod) (an : Nat) : 2 ^ 31 ≤ q.arv an ↔ (mget 0#32 q.ar an).toInt < 0 := by
  have hlt := (mget 0#32 q.ar an).isLt
  rw [Rod.arv, BitVec.toInt_eq_toNat_cond]
  split <;> omega

/-- Settles O18: each of the six is `jumpIf` under its condition. -/
theorem jumpWords : Obligations.JumpWords := by
  intro s r an w13 h han hw q next gives
  have hw13 : decide (w13 < 8192) = true := decide_eq_true hw
  have hboth : (decide (an < 16) && decide (w13 < 8192)) = true := by rw [decide_eq_true han, hw13]; rfl
  refine ⟨fun hr => ⟨jump_gives h rfl hw13 rfl rfl rfl hr rfl, jump_gives h rfl hboth rfl rfl rfl hr ?zero,
    jump_gives h rfl hboth rfl rfl rfl hr ?nonzero, jump_gives h rfl hboth rfl rfl rfl hr ?neg,
    jump_gives (q := { q with lnk := BitVec.ofNat 13 (q.pc + 1) }) h rfl hw13 rfl rfl rfl hr rfl,
    jump_gives h rfl rfl rfl rfl rfl hr rfl⟩, fun hr => ?active⟩
  case zero => simp only [decide_eq_true_eq]; rfl
  case nonzero => simp only [decide_eq_true_eq, ne_eq, ite_not]; rfl
  case neg => simp only [decide_eq_true_eq, arv_neg_iff]; rfl
  case active =>
    simp only [List.forall_mem_cons, List.not_mem_nil, false_imp_iff, implies_true, and_true]
    exact ⟨jump_faults h rfl hw13 rfl hr, jump_faults h rfl hboth rfl hr, jump_faults h rfl hboth rfl hr,
      jump_faults h rfl hboth rfl hr, jump_faults h rfl hw13 rfl hr, jump_faults h rfl rfl rfl hr⟩

end Sys2Proof.Machine

namespace Sys2Proof.Machine

/-! REP, REPA and BRK (R212 to R215) -/

/-- A level may be opened over the words up to `w13` with a count of `n` (R212, R215). -/
def Opens (q : Rod) (n w13 : Nat) : Prop :=
  n ≤ 65535 ∧ q.reps.length < 3 ∧ q.pc < w13 ∧ ∀ l rest, q.reps = l :: rest → w13 ≤ l.last

section
variable {s : State} {r n w13 stall : Nat}

theorem beyond_iff (q : Rod) : (match q.reps with | l :: _ => decide (l.last < w13) | [] => false) = true ↔
    ¬ ∀ l rest, q.reps = l :: rest → w13 ≤ l.last := by
  cases q.reps with
  | nil => simp
  | cons l rest => simp

theorem openRepeat_faults (h : ¬ Opens (s.rod r) n w13) : openRepeat s r n w13 stall = rodFault s r 0x03 0 := by
  unfold openRepeat
  refine if_pos ?_
  simp only [Bool.or_eq_true, decide_eq_true_eq]
  by_contra hnot
  simp only [not_or, Nat.not_lt, Nat.not_le] at hnot
  obtain ⟨⟨⟨hcount, hlevels⟩, hpc⟩, hbeyond⟩ := hnot
  exact h ⟨hcount, hlevels, hpc, not_not.mp (mt (beyond_iff _).mpr hbeyond)⟩

theorem openRepeat_opens (h : Opens (s.rod r) n w13) : openRepeat s r n w13 stall =
    if n = 0 then finishAt s r (s.rod r) stall Wrote.none (nextWord (s.rod r).reps w13).1 (nextWord (s.rod r).reps w13).2
    else finishAt s r (s.rod r) stall Wrote.none ((s.rod r).pc + 1) (RepLevel.mk n ((s.rod r).pc + 1) w13 :: (s.rod r).reps) := by
  obtain ⟨hcount, hlevels, hpc, hlast⟩ := h
  unfold openRepeat
  refine if_neg ?_
  simp only [Bool.or_eq_true, decide_eq_true_eq, not_or, Nat.not_lt, Nat.not_le]
  exact ⟨⟨⟨hcount, hlevels⟩, hpc⟩, fun hbeyond => (beyond_iff _).mp hbeyond hlast⟩

variable {c : Instr} {legal : Bool} {word : State → State}

/-- What a repeat word with a count of `n` does. -/
theorem repeat_gives (h : Controls s r) (he : exec c s = .next (controlWord s r legal true word)) (hl : legal = true)
    (hw : word s = openRepeat s r n w13 stall) :
    (Opens (s.rod r) n w13 → 0 < n → Gives c s (fun t => Executed s t r (s.rod r) ((s.rod r).pc + 1)
      (RepLevel.mk n ((s.rod r).pc + 1) w13 :: (s.rod r).reps))) ∧
    (Opens (s.rod r) n w13 → n = 0 → Gives c s (fun t => Executed s t r (s.rod r) (nextWord (s.rod r).reps w13).1
      (nextWord (s.rod r).reps w13).2)) ∧
    (¬ Opens (s.rod r) n w13 → Gives c s (fun t => t = rodFault s r 0x03 0)) := by
  refine ⟨fun ho hn => ⟨_, ctx he h hl rfl, ?_⟩, fun ho hn => ⟨_, ctx he h hl rfl, ?_⟩,
    fun ho => ⟨_, ctx he h hl rfl, hw.trans (openRepeat_faults ho)⟩⟩
  · rw [hw, openRepeat_opens ho, if_neg (by omega)]
    exact finishAt_executed ..
  · rw [hw, openRepeat_opens ho, if_pos hn]
    exact finishAt_executed ..

theorem breakLevel_open {l : RepLevel} {rest : List RepLevel} (hr : (s.rod r).reps = l :: rest) :
    Executed s (breakLevel s r) r (s.rod r) (nextWord rest l.last).1 (nextWord rest l.last).2 := by
  rw [breakLevel, hr]
  exact finishAt_executed ..

theorem breakLevel_none (hr : (s.rod r).reps = []) : breakLevel s r = rodFault s r 0x03 0 := by rw [breakLevel, hr]

end

/-- Settles O19: the guard of a repeat word is `Opens`. -/
theorem repeatWords : Obligations.RepeatWords := by
  intro s r n16 an w13 h hn han hw q opens after
  have hw13 : decide (w13 < 8192) = true := decide_eq_true hw
  have hrep : (decide (n16 < 65536) && decide (w13 < 8192)) = true := by rw [decide_eq_true hn, hw13]; rfl
  have hrepa : (decide (an < 16) && decide (w13 < 8192)) = true := by rw [decide_eq_true han, hw13]; rfl
  exact ⟨repeat_gives h rfl hrep rfl, repeat_gives h rfl hrepa rfl,
    fun l rest hr => ⟨_, ctx (c := .brk r) rfl h rfl rfl, breakLevel_open hr⟩,
    fun hr => ⟨_, ctx (c := .brk r) rfl h rfl rfl, breakLevel_none hr⟩⟩

end Sys2Proof.Machine

namespace Sys2Proof.Machine

/-! Words between registers (R200, R209, R218, R221) -/

section
variable {s : State} {r : Nat} {c : Instr} {q : Rod}

/-- A control word that leaves the registers `q` and goes on. -/
theorem control_continues {legal : Bool} {word : State → State} {stall : Nat} {w : Wrote} (h : Controls s r)
    (he : exec c s = .next (controlWord s r legal true word)) (hl : legal = true) (hw : word s = finish s r q stall w)
    (hqr : q.reps = (s.rod r).reps) (hqp : q.pc = (s.rod r).pc) : Gives c s (fun t => Continues s t r q) :=
  ⟨_, ctx he h hl rfl, by rw [hw]; exact finish_continues s r q stall w hqr hqp⟩

/-- An immediate word that leaves the registers `q` and goes on. -/
theorem immediate_continues {word : State → State} {stall : Nat} {w : Wrote} (h : Controls s r)
    (he : exec c s = .next (runWord s r word)) (hw : word s = finish s r q stall w) (hqr : q.reps = (s.rod r).reps)
    (hqp : q.pc = (s.rod r).pc) : Gives c s (fun t => Continues s t r q) :=
  ⟨_, he.trans (congrArg Host.Outcome.next (runWord_issues h.issues word)), by rw [hw]; exact finish_continues s r q stall w hqr hqp⟩

end

theorem setAr_natCast (q : Rod) (n v : Nat) : q.setAr n (v : Int) = { q with ar := mset 0#32 q.ar n (BitVec.ofNat 32 v) } := by
  rw [Rod.setAr, BitVec.ofInt_natCast]

theorem setAr_toNat (q : Rod) (n : Nat) (x : Word) : q.setAr n (x.toNat : Int) = { q with ar := mset 0#32 q.ar n x } := by
  rw [setAr_natCast, BitVec.ofNat_toNat, BitVec.setWidth_eq]

theorem specialWrite_keeps (q : Rod) (k v : Nat) : (specialWrite q k v).reps = q.reps ∧ (specialWrite q k v).pc = q.pc := by
  unfold specialWrite
  split <;> exact ⟨rfl, rfl⟩

theorem selWrite_keeps (q : Rod) (sel v : Nat) : (selWrite q sel v).reps = q.reps ∧ (selWrite q sel v).pc = q.pc := by
  unfold selWrite
  split_ifs <;> exact ⟨rfl, rfl⟩

/-! The registers that SEL names -/

section
variable (q : Rod) (sel v : Nat)

theorem selRead_ar (h : sel < 16) : selRead q sel = (mget 0#32 q.ar sel).toNat := by rw [selRead, if_pos h]

theorem selRead_md (h : sel < 16) : selRead q (16 + sel) = (mget 0#32 q.md sel).toNat := by
  rw [selRead, if_neg (by omega), if_pos (by omega), Nat.add_sub_cancel_left]

theorem selRead_cb (h : sel < 16) : selRead q (48 + sel) = (mget 0#18 q.cb sel).toNat := by
  rw [selRead, if_neg (by omega), if_neg (by omega), if_neg (by omega), if_pos (by omega), Nat.add_sub_cancel_left]

theorem selRead_fa : selRead q (64 + sel) = (mget 0#40 q.fa sel).toNat := by
  rw [selRead, if_neg (by omega), if_neg (by omega), if_neg (by omega), if_neg (by omega), Nat.add_sub_cancel_left]

theorem selWrite_ar (h : sel < 16) : selWrite q sel v = { q with ar := mset 0#32 q.ar sel (BitVec.ofNat 32 v) } := by
  rw [selWrite, if_pos h]

theorem selWrite_md (h : sel < 16) : selWrite q (16 + sel) v = { q with md := mset 0#32 q.md sel (BitVec.ofNat 32 v) } := by
  rw [selWrite, if_neg (by omega), if_pos (by omega), Nat.add_sub_cancel_left]

theorem selWrite_cl (h : sel < 16) : selWrite q (32 + sel) v = { q with cl := mset 0#19 q.cl sel (BitVec.ofNat 19 v) } := by
  rw [selWrite, if_neg (by omega), if_neg (by omega), if_pos (by omega), Nat.add_sub_cancel_left]

theorem selWrite_cb (h : sel < 16) : selWrite q (48 + sel) v = { q with cb := mset 0#18 q.cb sel (BitVec.ofNat 18 v) } := by
  rw [selWrite, if_neg (by omega), if_neg (by omega), if_neg (by omega), if_pos (by omega), Nat.add_sub_cancel_left]

theorem selWrite_fa : selWrite q (64 + sel) v = { q with fa := mset 0#40 q.fa sel (BitVec.ofNat 40 v) } := by
  rw [selWrite, if_neg (by omega), if_neg (by omega), if_neg (by omega), if_neg (by omega), Nat.add_sub_cancel_left]

end

/-- A sum reduced modulo a power of two at least as wide as its register. -/
theorem ofNat_add_mod {k w : Nat} (hk : k ≤ w) (x : BitVec k) (v : Nat) :
    BitVec.ofNat k ((x.toNat + v) % 2 ^ w) = x + BitVec.ofNat k v := by
  apply BitVec.eq_of_toNat_eq
  rw [BitVec.toNat_ofNat, BitVec.toNat_add, BitVec.toNat_ofNat, Nat.mod_mod_of_dvd _ (pow_dvd_pow 2 hk), Nat.add_mod_mod]

/-- Bits [39:32] of an FA replaced (LIH). -/
theorem ofNat_high_byte (x : BitVec 40) {v : Nat} (hv : v < 256) :
    BitVec.ofNat 40 (x.toNat % 2 ^ 32 + v * 2 ^ 32) = BitVec.ofNat 8 v ++ x.extractLsb' 0 32 := by
  rw [append_eq_ofNat, BitVec.extractLsb'_toNat, BitVec.toNat_ofNat, Nat.mod_eq_of_lt (show v < 2 ^ 8 from hv), Nat.shiftRight_zero]

theorem immediateWord_finish {s : State} {r sel v : Nat} {uses : List Nat} (hsel : sel ≤ 67)
    (hcl : 32 ≤ sel → sel < 48 → clOk v = true) :
    immediateWord s r sel v uses = finish s r (selWrite (s.rod r) sel v) (stallOf (s.rod r) [] uses) Wrote.none := by
  unfold immediateWord
  refine if_neg ?_
  simp only [Bool.or_eq_true, decide_eq_true_eq, Bool.and_eq_true, Bool.not_eq_true', not_or, not_and, Bool.not_eq_false]
  exact ⟨by omega, fun ⟨hlo, hhi⟩ => hcl hlo hhi⟩

section
variable {s : State} {r : Nat} (h : Controls s r) {sel imm : Nat}
include h

/-- LI of a register. -/
theorem execLi_continues (himm : imm < 2 ^ 32) (hsel : sel ≤ 67) (hcl : 32 ≤ sel → sel < 48 → clOk imm = true) :
    Gives (.li r sel imm) s (fun t => Continues s t r (selWrite (s.rod r) sel imm)) :=
  immediate_continues h rfl ((if_pos himm).trans (immediateWord_finish hsel hcl)) (selWrite_keeps ..).1 (selWrite_keeps ..).2

/-- The width that ADDI reduces its sum to. -/
def addiWidth (sel : Nat) : Nat := if 48 ≤ sel ∧ sel < 64 then 18 else 40

/-- ADDI of a register other than a CL. -/
theorem execAddi_continues (himm : imm < 2 ^ 32) (hsel : sel ≤ 67) (hcl : sel < 32 ∨ 48 ≤ sel) : Gives (.addi r sel imm) s
    (fun t => Continues s t r (selWrite (s.rod r) sel ((selRead (s.rod r) sel + imm) % 2 ^ addiWidth sel))) := by
  refine immediate_continues h rfl (?_ : _ = finish s r _ (stallOf (s.rod r) [] (selUses sel)) Wrote.none) (selWrite_keeps ..).1
    (selWrite_keeps ..).2
  rw [if_pos himm, decide_eq_false (show ¬ (32 ≤ sel ∧ sel < 48) by omega), immediateWord_finish hsel (by omega)]
  simp only [addiWidth, decide_eq_true_eq, Bool.false_eq_true, if_false]

theorem execLih_continues (himm : imm < 256) (hsel : sel < 4) : Gives (.lih r (64 + sel) imm) s (fun t => Continues s t r
    (selWrite (s.rod r) (64 + sel) (selRead (s.rod r) (64 + sel) % 2 ^ 32 + imm * 2 ^ 32))) :=
  immediate_continues h rfl ((if_pos ⟨by omega, by omega, himm⟩).trans (immediateWord_finish (by omega) (by omega)))
    (selWrite_keeps ..).1 (selWrite_keeps ..).2

theorem execMfs_continues {an k v : Nat} (han : an < 16) (hv : specialRead (s.rod r) r k = some v) :
    Gives (.mfs r an k) s (fun t => Continues s t r { s.rod r with ar := mset 0#32 (s.rod r).ar an (BitVec.ofNat 32 v) }) := by
  have hg : Gives (.mfs r an k) s (fun t => Continues s t r
      ((s.rod r).setAr an (((specialRead (s.rod r) r k).getD 0 : Nat) : Int))) :=
    control_continues h rfl (by rw [decide_eq_true han, hv]; rfl) rfl rfl rfl
  rwa [hv, Option.getD_some, setAr_natCast] at hg

theorem execMts_continues {an k v : Nat} (han : an < 16) (hv : specialRead (s.rod r) r k = some v) :
    Gives (.mts r an k) s (fun t => Continues s t r (specialWrite (s.rod r) k ((s.rod r).arv an))) :=
  control_continues h rfl (by rw [decide_eq_true han, hv]; rfl) rfl (specialWrite_keeps ..).1 (specialWrite_keeps ..).2

theorem execMov_continues {ad as_ : Nat} (had : ad < 16) (has : as_ < 16) : Gives (.mov r ad as_) s
    (fun t => Continues s t r { s.rod r with ar := mset 0#32 (s.rod r).ar ad (mget 0#32 (s.rod r).ar as_) }) := by
  have hg : Gives (.mov r ad as_) s (fun t => Continues s t r ((s.rod r).setAr ad ((s.rod r).arv as_ : Nat))) :=
    control_continues h rfl (by rw [decide_eq_true had, decide_eq_true has]; rfl) rfl rfl rfl
  rwa [Rod.arv, setAr_toNat] at hg

theorem execBxclr_continues (h7 : r % 8 = 7) :
    Gives (.bxclr r) s (fun t => Continues s t r { s.rod r with bxm := 0, bsh := 0, bxe := 0 }) :=
  control_continues h rfl (decide_eq_true h7) rfl rfl rfl

theorem execBxstep_continues (h7 : r % 8 = 7) {sh : Nat}
    (hsh : sh = if (s.rod r).bxm < 2 ^ 29 then 0 else if (s.rod r).bxm < 2 ^ 30 then 1 else 2) : Gives (.bxstep r) s
    (fun t => Continues s t r { s.rod r with bsh := sh, bxe := (s.rod r).bxe + BitVec.ofNat 32 sh, bxm := 0 }) := by
  subst hsh
  exact control_continues h rfl (decide_eq_true h7) rfl rfl rfl

theorem execWaitx_continues {k : Nat} (hk : k < 2) (hx : (s.rod r).xfers.length ≤ k) :
    Gives (.waitx r k) s (fun t => Continues s t r (s.rod r)) :=
  control_continues h rfl (decide_eq_true hk) (if_pos hx) rfl rfl

theorem execWaitx_waits {k : Nat} (hk : k < 2) (hx : k < (s.rod r).xfers.length) :
    Gives (.waitx r k) s (fun t => t = s.setRod r { s.rod r with st := .waiting, wait := some (.xfers k) }) :=
  ⟨_, ctx (c := .waitx r k) rfl h (decide_eq_true hk) rfl, if_neg (Nat.not_le.mpr hx)⟩

end

/-- Settles O20: each word is one `finish` with the registers that the table names. -/
theorem registerWords : Obligations.RegisterWords := by
  intro s r an as_ k8 sel imm h han has q gives
  refine ⟨execMov_continues h han has,
    fun hk => control_continues h rfl (decide_eq_true hk) rfl rfl rfl, execWaitx_continues h, execWaitx_waits h,
    fun himm hs => ?liAr, fun himm hs => ?addAr, fun himm hs => ?liMd, fun himm hs => ?addMd, fun h4 hmax hs => ?liCl,
    fun himm hs => ?liCb, fun himm hs => ?addCb, fun himm hs => ?liFa, fun himm hs => ?addFa, fun himm hs => ?lihFa,
    fun v hv => ⟨execMfs_continues h han hv, execMts_continues h han hv⟩,
    execBxclr_continues h, fun h7 sh hsh => execBxstep_continues h h7 hsh⟩
  case liAr =>
    have hg := execLi_continues h himm (sel := sel) (by omega) (by omega)
    rwa [selWrite_ar _ _ _ hs] at hg
  case addAr =>
    have hg := execAddi_continues h himm (sel := sel) (by omega) (by omega)
    rwa [selWrite_ar _ _ _ hs, selRead_ar _ _ hs, addiWidth, if_neg (by omega), ofNat_add_mod (by decide)] at hg
  case liMd =>
    have hg := execLi_continues h himm (sel := 16 + sel) (by omega) (by omega)
    rwa [selWrite_md _ _ _ hs] at hg
  case addMd =>
    have hg := execAddi_continues h himm (sel := 16 + sel) (by omega) (by omega)
    rwa [selWrite_md _ _ _ hs, selRead_md _ _ hs, addiWidth, if_neg (by omega), ofNat_add_mod (by decide)] at hg
  case liCl =>
    have hg := execLi_continues h (imm := imm) (sel := 32 + sel) (by omega) (by omega) fun _ _ => decide_eq_true ⟨h4, hmax⟩
    rwa [selWrite_cl _ _ _ hs] at hg
  case liCb =>
    have hg := execLi_continues h himm (sel := 48 + sel) (by omega) (by omega)
    rwa [selWrite_cb _ _ _ hs] at hg
  case addCb =>
    have hg := execAddi_continues h himm (sel := 48 + sel) (by omega) (by omega)
    rwa [selWrite_cb _ _ _ hs, selRead_cb _ _ hs, addiWidth, if_pos (by omega), ofNat_add_mod (by decide)] at hg
  case liFa =>
    have hg := execLi_continues h himm (sel := 64 + sel) (by omega) (by omega)
    rwa [selWrite_fa] at hg
  case addFa =>
    have hg := execAddi_continues h himm (sel := 64 + sel) (by omega) (by omega)
    rwa [selWrite_fa, selRead_fa, addiWidth, if_neg (by omega), ofNat_add_mod (by decide)] at hg
  case lihFa =>
    have hg := execLih_continues h himm hs
    rwa [selWrite_fa, selRead_fa, ofNat_high_byte _ himm] at hg

end Sys2Proof.Machine

namespace Sys2Proof.Machine

/-! LDW, LDF and STW (R204, R221) -/

/-- Of Rod `r` the registers `q`, and every other Rod as it was. -/
structure Registers (s t : State) (r : Nat) (q : Rod) : Prop where
  v      : (t.rod r).v = q.v
  ac     : (t.rod r).ac = q.ac
  ar     : (t.rod r).ar = q.ar
  fa     : (t.rod r).fa = q.fa
  md     : (t.rod r).md = q.md
  cl     : (t.rod r).cl = q.cl
  cb     : (t.rod r).cb = q.cb
  others : ∀ p, p ≠ r → t.rod p = s.rod p

/-- A word that completes with the registers of `q`, where `s` has the other Rods of `u`. -/
theorem finish_registers (u s : State) (r : Nat) (q : Rod) (stall : Nat) (w : Wrote) (hothers : ∀ p, p ≠ r → s.rod p = u.rod p) :
    Registers u (finish s r q stall w) r q ∧ (finish s r q stall w).mem = s.mem := by
  obtain ⟨⟨-, -, _, _, _, _, _, _, _, e⟩, hfinish, hmem⟩ := finish_rod s r q stall w
  refine ⟨⟨?_, ?_, ?_, ?_, ?_, ?_, ?_, fun p hp => (hfinish p hp).trans (hothers p hp)⟩, hmem⟩ <;> rw [e]

/-- The check bits and the counter of corrections are none of the registers. -/
theorem Registers.of_ecc {s t : State} {r : Nat} {q : Rod} {c : Nat} {x : SMap (Option Nat)}
    (h : Registers s t r { q with corr := c, errs := x }) : Registers s t r q := { h with }

section
variable {s : State} {r : Nat} (h : Controls s r) {an am fa : Nat} (ham : am < 16)
  (hlost : rodLost s r [(s.rod r).arv am] = false)
include h ham hlost

theorem execLdw_gives (han : an < 16) (hok : dmOk ((s.rod r).arv am) = true) (hwait : loadWaits (s.rod r) [(s.rod r).arv am] = false) :
    Gives (.ldw r an am) s (fun t => t.mem = s.mem ∧
      Registers s t r { s.rod r with ar := mset 0#32 (s.rod r).ar an (dmWord s r ((s.rod r).arv am)) }) := by
  refine ⟨_, ctx (c := .ldw r an am) rfl h (by rw [decide_eq_true han, decide_eq_true ham]; rfl) rfl, ?_⟩
  obtain ⟨hmem, hothers, corr, hrod⟩ := rodNote_spec s r [(s.rod r).arv am]
  simp only [hok, hwait, hlost, Bool.not_true, Bool.false_eq_true, if_false, setAr_toNat]
  obtain ⟨hregs, hmem'⟩ := finish_registers s (rodNote s r [(s.rod r).arv am]) r _ _ _ hothers
  refine ⟨hmem'.trans hmem, ?_⟩
  simp only [dmWord, hmem, hrod] at hregs ⊢
  exact hregs.of_ecc

theorem execLdf_gives (hfa : fa < 4) (h8 : (s.rod r).arv am % 8 = 0) (hin : (s.rod r).arv am + 7 ≤ 0x3FFFF)
    (hwait : loadWaits (s.rod r) [(s.rod r).arv am, (s.rod r).arv am + 4] = false) :
    Gives (.ldf r fa am) s (fun t => t.mem = s.mem ∧ Registers s t r { s.rod r with
      fa := mset 0#40 (s.rod r).fa fa (BitVec.ofNat 40 (leNat (memBytes s.mem (rodWindow r ((s.rod r).arv am)) 8))) }) := by
  refine ⟨_, ctx (c := .ldf r fa am) rfl h (by rw [decide_eq_true hfa, decide_eq_true ham]; rfl) rfl, ?_⟩
  obtain ⟨hmem, hothers, corr, hrod⟩ := rodNote_spec s r [(s.rod r).arv am]
  simp only [h8, Nat.not_lt.mpr hin, hwait, hlost, ne_eq, not_true_eq_false, decide_false, Bool.or_self, Bool.false_eq_true, if_false]
  obtain ⟨hregs, hmem'⟩ := finish_registers s (rodNote s r [(s.rod r).arv am]) r _ _ _ hothers
  refine ⟨hmem'.trans hmem, ?_⟩
  simp only [hmem, hrod] at hregs ⊢
  generalize BitVec.ofNat 40 (leNat (memBytes s.mem (rodWindow r ((s.rod r).arv am)) 8)) = y at hregs ⊢
  exact hregs.of_ecc

theorem execStw_gives (han : an < 16) (hok : dmOk ((s.rod r).arv am) = true) (hwait : storeWaits (s.rod r) [(s.rod r).arv am] = false) :
    Gives (.stw r an am) s (fun t => t.mem = memStore r s.mem ((s.rod r).arv am, mget 0#32 (s.rod r).ar an) ∧
      Registers s t r (s.rod r)) := by
  refine ⟨_, ctx (c := .stw r an am) rfl h (by rw [decide_eq_true han, decide_eq_true ham]; rfl) rfl, ?_⟩
  obtain ⟨hmem, hothers, corr, errs, hrod⟩ := dmStore_spec s r ((s.rod r).arv am, mget 0#32 (s.rod r).ar an)
  simp only [hok, hwait, hlost, Bool.not_true, Bool.false_eq_true, if_false]
  obtain ⟨hregs, hmem'⟩ := finish_registers s (dmStore s r ((s.rod r).arv am, mget 0#32 (s.rod r).ar an)) r
    ((dmStore s r ((s.rod r).arv am, mget 0#32 (s.rod r).ar an)).rod r) (stallOf (s.rod r) [] [an, am]) Wrote.none hothers
  refine ⟨hmem'.trans hmem, ?_⟩
  rw [hrod] at hregs ⊢
  exact hregs.of_ecc

end

/-- Settles O21: each reads or stores one word of data memory, and leaves every other register. -/
theorem singleWordMemory : Obligations.SingleWordMemory := by
  intro s r an am fa h han ham hfa
  dsimp only
  intro hlost
  refine ⟨fun hok hwait => ?_, fun h8 hin hwait => ?_, fun hok hwait => ?_⟩
  · obtain ⟨t, ht, hmem, g⟩ := execLdw_gives h ham hlost han hok hwait
    exact ⟨t, ht, hmem, g.ar, g.v, g.ac, g.fa, g.md, g.cl, g.cb, g.others⟩
  · obtain ⟨t, ht, hmem, g⟩ := execLdf_gives h ham hlost hfa h8 hin hwait
    have hnew := g.fa
    dsimp only at hnew
    exact ⟨t, ht, hmem, hnew, g.v, g.ac, g.ar, g.md, g.cl, g.cb, g.others⟩
  · obtain ⟨t, ht, hmem, g⟩ := execStw_gives h ham hlost han hok hwait
    refine ⟨t, ht, fun i hi => ?_, fun b hb => ?_, g.v, g.ac, g.ar, g.fa, g.md, g.cl, g.cb, g.others⟩
    · rw [hmem]
      exact memByte_memStore r s.mem ((s.rod r).arv am, mget 0#32 (s.rod r).ar an) i hi
    · rw [hmem]
      exact memByte_memStore_ne r s.mem ((s.rod r).arv am, mget 0#32 (s.rod r).ar an) b hb

end Sys2Proof.Machine

namespace Sys2Proof.Machine

/-! Faults (R201, R203, R222) -/

section
variable {s : State} {r : Nat}

/-- What a fault leaves of a Rod without a user slot whose health does not change, and of the others. -/
structure Faulted (s t : State) (r code op : Nat) : Prop where
  st      : (t.rod r).st = .faulted
  fault   : (t.rod r).fault = true
  code    : (t.rod r).code = code
  faultPc : (t.rod r).faultPc = (s.rod r).pc
  trapOp  : (t.rod r).trapOp = op
  item    : (t.rod r).item = none
  xfers   : (t.rod r).xfers = (s.rod r).xfers.take 1
  v       : (t.rod r).v = (s.rod r).v
  ac      : (t.rod r).ac = (s.rod r).ac
  ar      : (t.rod r).ar = (s.rod r).ar
  pc      : (t.rod r).pc = (s.rod r).pc
  mem     : t.mem = s.mem
  others  : ∀ p, p ≠ r → t.rod p = s.rod p

theorem rodFault_faulted (code op : Nat) (hslot : (s.rod r).slot = none)
    (hhealth : (s.rod r).health = true ∨ (s.rod r).faults = []) : Faulted s (rodFault s r code op) r code op := by
  obtain ⟨f, hothers, hmem, hrod⟩ := rodFault_spec s r code op hslot hhealth
  constructor
  case mem => exact hmem
  case others => exact hothers
  all_goals rw [hrod]

/-- A parallel word with an illegal slot. -/
theorem parallel_illegal {w : ParWord} (h : Issues s r) (hok : parOk (s.rod r) (isTransform r) w = false) :
    parallel s r w = rodFault s r 0x01 0 := by
  rw [parallel, runWord_issues h]
  dsimp only
  rw [hok]
  rfl

/-- A legal parallel word with a slot conflict. -/
theorem parallel_conflict {w : ParWord} (h : Issues s r) (hok : parOk (s.rod r) (isTransform r) w = true)
    (hc : parConflict w = true) : parallel s r w = rodFault s r 0x02 0 := by
  rw [parallel, runWord_issues h]
  dsimp only
  rw [hok, hc]
  rfl

end

/-- Settles O22: all three are one fault, and `rodFault_faulted` says what it leaves. -/
theorem rodFaultStops : Obligations.RodFaultStops := by
  intro s c r code op hc hslot hhealth
  have hexec : exec c s = .next (rodFault s r code op) := by
    rcases hc with ⟨h, hop, rfl, rfl⟩ | ⟨rfl, w, hw, h, ⟨hok, rfl⟩ | ⟨hok, hconf, rfl⟩⟩
    · exact ctx (c := .trap r op) rfl h (decide_eq_true hop) rfl
    · rw [parWord_exec hw, parallel_illegal h hok]
    · rw [parWord_exec hw, parallel_conflict h hok hconf]
  have f := rodFault_faulted code op hslot hhealth
  exact ⟨_, hexec, f.st, f.fault, f.code, f.faultPc, f.trapOp, f.item, f.xfers, f.v, f.ac, f.ar, f.pc, f.mem, f.others⟩

end Sys2Proof.Machine

namespace Sys2Proof.Machine

/-! The end of an item, of a Rod with or without a user slot (R217, R232) -/

section
variable (s : State) (r p : Nat)

/-- A slot that stops halts its Rod at most. -/
theorem stopSlot_rod (u code : Nat) : (stopSlot s u code).rod p = s.rod p ∨
    ∃ st, (stopSlot s u code).rod p = { (s.rod p).halted with st := st } := by
  unfold stopSlot
  dsimp only
  split
  · next q _ =>
    rw [rod_setRod]
    split
    · next h => subst h; exact Or.inr ⟨_, rfl⟩
    · exact Or.inl rfl
  · exact Or.inl rfl

theorem measureItem_rod (u : Nat) : (measureItem s u r).rod p = s.rod p ∨
    ∃ st, (measureItem s u r).rod p = { (s.rod p).halted with st := st } := by
  have hkept : ∀ t : State, t.rods = s.rods → ((t.bump (0x7080 + u) 0x08 1).raise 9 u 0).rod p = s.rod p := fun t ht =>
    rod_of_rods ((raise_rods ..).trans (((State.bump_keeps ..).part .rods rfl).trans ht)) p
  unfold measureItem
  dsimp only
  split_ifs
  · exact Or.inl (rod_of_rods (State.stset_rods ..) p)
  · rcases stopSlot_rod _ p u 4 with h | ⟨st, h⟩
    · exact Or.inl (h.trans (hkept _ ((setSlot_rods ..).trans (State.stset_rods ..))))
    · exact Or.inr ⟨st, h.trans (congrArg (fun q : Rod => { q.halted with st := st })
        (hkept _ ((setSlot_rods ..).trans (State.stset_rods ..))))⟩
  · exact Or.inl (hkept _ ((setSlot_rods ..).trans (State.stset_rods ..)))

/-- The Rod whose item has ended: it may have been halted with its slot. -/
theorem endItem_rod (failed : Bool) : ((endItem s r failed).rod r).item = none ∧ ((endItem s r failed).rod r).v = (s.rod r).v := by
  unfold endItem
  dsimp only
  split
  · next hitem => exact ⟨hitem, rfl⟩
  · next it hitem =>
    have hrod : ∀ t : State, t.rods = (s.setRod r { s.rod r with item := none, ending := none }).rods →
        t.rod r = { s.rod r with item := none, ending := none } := fun t ht => by rw [rod_of_rods ht, rod_setRod, if_pos rfl]
    have hcounted : (if failed = true then
        ((s.setRod r { s.rod r with item := none, ending := none }).bump 0x70C0 0x03 1).raise 49 (r * 256 + it.queue)
          (descBlock it.desc % 2 ^ 32)
        else s.setRod r { s.rod r with item := none, ending := none }).rod r = { s.rod r with item := none, ending := none } := by
      refine hrod _ ?_
      split
      · exact raise_rods ..
      · rfl
    split
    · next u _ =>
      rcases measureItem_rod _ r r u with h | ⟨st, h⟩ <;> rw [h, hcounted] <;> exact ⟨rfl, rfl⟩
    · rw [hcounted]
      exact ⟨rfl, rfl⟩

/-- On a Rod without a user slot the end of an item leaves the other Rods. -/
theorem endItem_others (failed : Bool) (h : (s.rod r).slot = none) (hp : p ≠ r) : (endItem s r failed).rod p = s.rod p := by
  rw [(endItem_rods s r failed h).1 p, if_neg fun hpr => hp hpr.1]

theorem endItem_xfers (failed : Bool) (h : (s.rod r).slot = none) : ((endItem s r failed).rod r).xfers = (s.rod r).xfers := by
  rw [(endItem_rods s r failed h).1 r]
  split <;> rfl

end

/-! Run control (R28, R199, R200, R222) -/

section
variable {s : State} {r : Nat}

theorem runStart_stopped {startPc : Nat} (hst : (s.rod r).st = .stopped) (hfree : (s.rod r).fenced = false) :
    runStart s r startPc = s.setRod r { (s.rod r).started startPc with xfers := (s.rod r).xfers } := by
  rw [runStart, hst, hfree]
  rfl

theorem runStart_other {startPc : Nat} (h : (s.rod r).st ≠ .stopped ∨ (s.rod r).fenced = true) :
    runStart s r startPc = s.setRod r { s.rod r with startPc := startPc % 8192 } := by
  refine if_neg fun hboth => ?_
  obtain ⟨hst, hfree⟩ : (s.rod r).st = .stopped ∧ (s.rod r).fenced = false := by simpa using hboth
  rcases h with h | h
  · exact h hst
  · exact Bool.false_ne_true (hfree.symm.trans h)

theorem runStop_active (h : (s.rod r).st = .running ∨ (s.rod r).st = .waiting) :
    runStop s r = (clearRod s r).setRod r ((clearRod s r).rod r).halted := by
  unfold runStop
  rcases h with h | h <;> rw [h]

theorem runStop_idle (h : (s.rod r).st = .stopped ∨ (s.rod r).st = .faulted) : runStop s r = s := by
  unfold runStop
  rcases h with h | h <;> rw [h]

/-- A Rod stopped by a write of 0 to RUN. -/
theorem runStop_gives (h : (s.rod r).st = .running ∨ (s.rod r).st = .waiting) :
    ((runStop s r).rod r).st = .stopped ∧ ((runStop s r).rod r).wait = none ∧ ((runStop s r).rod r).xfers = [] ∧
      ((runStop s r).rod r).item = none ∧ ((s.rod r).slot = none → ∀ p, p ≠ r → (runStop s r).rod p = s.rod p) := by
  have hrod : (runStop s r).rod r = ((clearRod s r).rod r).halted := by rw [runStop_active h, rod_setRod, if_pos rfl]
  rw [hrod]
  refine ⟨rfl, rfl, rfl, (endItem_rod (dropHeld s r) r true).1, fun hslot p hp => ?_⟩
  rw [runStop_active h, rod_setRod, if_neg hp]
  exact endItem_others (dropHeld s r) r p true hslot hp

/-- HALT. -/
theorem execHalt_gives (h : Controls s r) : Gives (.halt r) s (fun t => (t.rod r).st = .stopped ∧ (t.rod r).wait = none ∧
    (t.rod r).item = none ∧ (t.rod r).v = (s.rod r).v ∧
    ((s.rod r).slot = none → (t.rod r).xfers = (s.rod r).xfers ∧ ∀ p, p ≠ r → t.rod p = s.rod p)) := by
  refine ⟨_, ctx (c := .halt r) rfl h rfl rfl, ?_⟩
  dsimp only
  obtain ⟨hitem, hv⟩ := endItem_rod s r true
  rw [rod_setRod, if_pos rfl]
  refine ⟨rfl, rfl, hitem, hv, fun hslot => ⟨endItem_xfers s r true hslot, fun p hp => ?_⟩⟩
  rw [rod_setRod, if_neg hp]
  exact endItem_others s r p true hslot hp

/-- A word on a Rod that does not run changes nothing. -/
theorem runWord_idle (h : (s.rod r).st ≠ .running ∨ (s.rod r).fenced = true) (word : State → State) : runWord s r word = s := by
  refine if_neg fun hall => ?_
  simp only [Bool.and_eq_true, decide_eq_true_eq, Bool.not_eq_true'] at hall
  obtain ⟨⟨-, hrun⟩, hfree⟩ := hall
  rcases h with h | h
  · exact h hrun
  · exact Bool.false_ne_true (hfree.symm.trans h)

end

/-- Settles O23: each command of run control under its condition. -/
theorem rodRunControl : Obligations.RodRunControl := by
  intro s r startPc hr q
  have hstart : exec (.rodRunStart r startPc) s = .next (runStart s r startPc) := congrArg Host.Outcome.next (if_pos hr)
  have hstop : exec (.rodRunStop r) s = .next (runStop s r) := congrArg Host.Outcome.next (if_pos hr)
  have hclear : exec (.rodFaultClear r) s = .next (faultClear s r) := congrArg Host.Outcome.next (if_pos hr)
  refine ⟨fun hst hfree => ⟨_, hstart, ?starts⟩, fun h => ⟨_, hstart, runStart_other h⟩, fun h => ⟨_, hstop, runStop_gives h⟩,
    fun h => by rw [hstop, runStop_idle h], execHalt_gives, fun h => ⟨_, hclear, if_pos h⟩,
    fun h => hclear.trans (congrArg Host.Outcome.next (if_neg (ne_true_of_eq_false h))),
    fun h c w hw => by rw [parWord_exec hw, parallel, runWord_idle h]⟩
  case starts =>
    rw [runStart_stopped hst hfree]
    refine ⟨fun p hp => by rw [rod_setRod, if_neg hp], ?_⟩
    rw [rod_setRod, if_pos rfl]
    exact ⟨rfl, rfl, rfl, rfl, rfl, rfl, rfl, rfl, rfl, rfl, rfl, rfl, rfl, rfl, rfl, rfl, rfl, rfl, rfl, rfl, rfl, rfl⟩

end Sys2Proof.Machine

namespace Sys2Proof.Machine

/-! DONE and XFER (R217, R218) -/

/-- The registers of a Rod without a user slot after the end of its item is asked for (R217). -/
def Rod.itemDone (q : Rod) : Rod :=
  if q.item.isNone then q
  else if q.xfers.isEmpty then { q with item := none, ending := none }
  else { q with ending := some q.xfers.length }

theorem Rod.itemDone_idle {q : Rod} (h : q.xfers = []) :
    q.itemDone = { q with item := none, ending := if q.item.isNone then q.ending else none } := by
  unfold itemDone
  cases hi : q.item with
  | none => exact congrArg (fun i => { q with item := i }) hi
  | some it => rw [h]; rfl

theorem Rod.itemDone_busy {q : Rod} (h : q.xfers ≠ []) :
    q.itemDone = { q with ending := if q.item.isNone then q.ending else some q.xfers.length } := by
  unfold itemDone
  cases hi : q.item with
  | none => exact congrArg (fun i => { q with item := i }) hi
  | some it => rw [List.isEmpty_eq_false_iff.mpr h]; rfl

theorem endItem_executed {s u : State} {r pc : Nat} {q : Rod} {reps : List RepLevel} (failed : Bool)
    (h : Executed s u r q pc reps) (hslot : q.slot = none) (hitem : q.item ≠ none) :
    Executed s (endItem u r failed) r { q with item := none, ending := none } pc reps := by
  obtain ⟨⟨cyc, a1, a2, ar, sr, hrod⟩, hothers, hmem⟩ := h
  obtain ⟨hrods, hmem'⟩ := endItem_rods u r failed (by rw [hrod]; exact hslot)
  have hu : (u.rod r).item ≠ none := by rw [hrod]; exact hitem
  refine ⟨⟨cyc, a1, a2, ar, sr, ?_⟩, fun p hp => ?_, hmem'.trans hmem⟩
  · rw [hrods r, if_pos ⟨rfl, hu⟩, hrod]
  · rw [hrods p, if_neg fun hpr => hp hpr.1, hothers p hp]

/-- The end of the item asked for after a word. -/
theorem finishItem_executed {s u : State} {r pc : Nat} {q : Rod} {reps : List RepLevel} (h : Executed s u r q pc reps)
    (hslot : q.slot = none) : Executed s (finishItem u r) r q.itemDone pc reps := by
  obtain ⟨cyc, a1, a2, ar, sr, hrod⟩ := h.rod
  have hitem : (u.rod r).item = q.item := by rw [hrod]
  have hxfers : (u.rod r).xfers = q.xfers := by rw [hrod]
  unfold finishItem Rod.itemDone
  dsimp only
  rw [hitem, hxfers]
  split_ifs with hnone hempty
  · exact h
  · exact endItem_executed false h hslot fun hi => hnone (by rw [hi]; rfl)
  · refine ⟨⟨cyc, a1, a2, ar, sr, ?_⟩, fun p hp => ?_, h.mem⟩
    · rw [rod_setRod, if_pos rfl, hrod]
    · rw [rod_setRod, if_neg hp, h.others p hp]

section
variable {s : State} {r : Nat} (h : Controls s r) (hslot : (s.rod r).slot = none)
include h hslot

theorem execDone_continues : Gives (.done r) s (fun t => Continues s t r (s.rod r).itemDone) :=
  ⟨_, ctx (c := .done r) rfl h rfl rfl, finishItem_executed (finish_continues s r (s.rod r) 0 Wrote.none rfl rfl) hslot⟩

variable {an fa md : Nat} {out : Bool} (han : an < 16) (hfa : fa < 4) (hmd : md < 16)
include han hfa hmd

omit hslot in
/-- XFER with its operands in range is its word. -/
theorem execXfer_issues : exec (.xfer r out an fa md) s = .next (xferWord s r out an fa md) :=
  ctx (c := .xfer r out an fa md) rfl h (by rw [decide_eq_true han, decide_eq_true hfa, decide_eq_true hmd]; rfl) rfl

omit hslot in
theorem execXfer_empty (hlen : (mget 0#32 (s.rod r).md md).toNat = 0) :
    Gives (.xfer r out an fa md) s (fun t => Continues s t r (s.rod r)) := by
  refine ⟨_, execXfer_issues h han hfa hmd, ?_⟩
  rw [xferWord, if_pos hlen]
  exact finish_continues s r (s.rod r) _ _ rfl rfl

variable (hpos : 0 < (mget 0#32 (s.rod r).md md).toNat) (h4 : (mget 0#32 (s.rod r).md md).toNat % 4 = 0)
  (hmax : (mget 0#32 (s.rod r).md md).toNat ≤ 65536) (hin : (s.rod r).arv an + (mget 0#32 (s.rod r).md md).toNat ≤ 0x40000)
include hpos h4 hmax hin

omit h han hfa hmd in
/-- What remains of XFER when its length and its place are legal. -/
theorem xferWord_legal : xferWord s r out an fa md =
    if 2 ≤ (s.rod r).xfers.length then stallWord s r
    else finish s r { s.rod r with
      xfers := (s.rod r).xfers ++
        [Xfer.mk out ((s.rod r).arv an) (mget 0#40 (s.rod r).fa fa).toNat (mget 0#32 (s.rod r).md md).toNat 0 false false],
      bytes := if (s.rod r).item.isSome then (s.rod r).bytes + (mget 0#32 (s.rod r).md md).toNat else (s.rod r).bytes }
      (stallOf (s.rod r) [] [an, 16 + fa]) Wrote.none := by
  unfold xferWord
  dsimp only
  rw [hslot, if_neg (Nat.pos_iff_ne_zero.mp hpos), if_neg (by rw [h4]; simpa using hmax), if_neg (Nat.not_lt.mpr hin)]
  rfl

theorem execXfer_queues (hroom : (s.rod r).xfers.length < 2) : Gives (.xfer r out an fa md) s (fun t => Continues s t r
    { s.rod r with
      xfers := (s.rod r).xfers ++
        [Xfer.mk out ((s.rod r).arv an) (mget 0#40 (s.rod r).fa fa).toNat (mget 0#32 (s.rod r).md md).toNat 0 false false],
      bytes := if (s.rod r).item.isSome then (s.rod r).bytes + (mget 0#32 (s.rod r).md md).toNat else (s.rod r).bytes }) := by
  refine ⟨_, execXfer_issues h han hfa hmd, ?_⟩
  rw [xferWord_legal hslot hpos h4 hmax hin, if_neg (Nat.not_le.mpr hroom)]
  exact finish_continues s r _ _ _ rfl rfl

theorem execXfer_stalls (hfull : 2 ≤ (s.rod r).xfers.length) :
    Gives (.xfer r out an fa md) s (fun t => t = s.setRod r { s.rod r with wait := some .stall }) := by
  refine ⟨_, execXfer_issues h han hfa hmd, ?_⟩
  rw [xferWord_legal hslot hpos h4 hmax hin, if_pos hfull]
  rfl

end

end Sys2Proof.Machine

namespace Sys2Proof.Machine

/-! TAKE (R216, R239, R240) -/

/-- An entry written anew is left out again by a filter that leaves out the old and the new value. -/
theorem filter_minsert {α : Type} (d : α) (p : Nat × α → Bool) (n : Nat) (v : α) (hv : p (n, v) = false) :
    ∀ m : SMap α, p (n, mget d m n) = false → (minsert m n v).filter p = m.filter p := by
  intro m
  induction m with
  | nil => intro _; exact List.filter_cons_of_neg (ne_true_of_eq_false hv)
  | cons e m ih =>
    obtain ⟨k, w⟩ := e
    intro hold
    unfold minsert
    split_ifs with hlt heq
    · exact List.filter_cons_of_neg (ne_true_of_eq_false hv)
    · subst heq
      rw [mget, if_pos rfl] at hold
      rw [List.filter_cons_of_neg (ne_true_of_eq_false hv), List.filter_cons_of_neg (ne_true_of_eq_false hold)]
    · rw [mget, if_neg (Ne.symm heq)] at hold
      rw [List.filter_cons, List.filter_cons, ih hold]

/-- Registers `v` in place of `q` that leave the Rod's role, on a Rod without an item. -/
structure SameRole (q v : Rod) : Prop where
  slot    : v.slot = q.slot
  fenced  : v.fenced = q.fenced
  retired : v.retired = q.retired
  idle    : q.item = none
  item    : v.item = none
  st      : v.st ≠ .stopped

section
variable {s : State} {r : Nat} {v : Rod} (h : SameRole (s.rod r) v)
include h

/-- A Rod without an item serves no flow. -/
theorem flowServers_setRod (n : Nat) : flowServers (s.setRod r v) n = flowServers s n := by
  have hinit : v ≠ Rod.init := fun e => h.st (congrArg Rod.st e)
  unfold flowServers State.setRod mset
  rw [if_neg hinit]
  dsimp only
  rw [filter_minsert Rod.init]
  · dsimp only; rw [h.item]
  · change (match (s.rod r).item with | some it => _ | none => _) = _
    rw [h.idle]

theorem rodRole_setRod : rodRole (s.setRod r v) r = rodRole s r := by
  have husable : rodUsable (s.setRod r v) r = rodUsable s r := by
    unfold rodUsable
    rw [rod_setRod, if_pos rfl, h.fenced, h.retired]
    rfl
  unfold rodRole
  rw [husable, rod_setRod, if_pos rfl, h.slot]

theorem listMask_setRod (k : Nat) : listMask (s.setRod r v) r k = listMask s r k := by
  unfold listMask
  rw [rod_setRod, if_pos rfl, h.slot]
  rfl

theorem eligible_setRod (k qn : Nat) (it : Item) : eligible (s.setRod r v) r k qn it = eligible s r k qn it := by
  unfold eligible roleAllowed
  rw [listMask_setRod h, rodRole_setRod h, flowServers_setRod h]
  rfl

/-- What the Tally picks for a Rod without an item does not depend on its registers. -/
theorem pick_setRod (k : Nat) : pick (s.setRod r v) r k = pick s r k := by
  unfold pick
  rw [funext fun qn => funext (eligible_setRod h k qn)]
  rfl

end

/-- A Rod that waits in TAKE for an item of list `k` with its descriptor at `a`, and differs from `q` in no register. -/
structure Asks (q v : Rod) (k a : Nat) : Prop where
  st      : v.st = .waiting
  wait    : v.wait = some (.take k a)
  item    : v.item = none
  slot    : v.slot = q.slot
  fenced  : v.fenced = q.fenced
  retired : v.retired = q.retired
  pc      : v.pc = q.pc
  ar      : v.ar = q.ar
  lanes   : v.v = q.v

section
variable {s : State} {r an k : Nat} (hrun : (s.rod r).st = .running) (hidle : (s.rod r).item = none)
include hrun hidle

/-- TAKE on a Rod without an item asks the Tally. -/
theorem takeWord_asks (hal : (s.rod r).arv an % 32 = 0) (hin : (s.rod r).arv an + 31 ≤ 0x3FFFF) :
    ∃ u v, takeWord s r an k = giveIfAny u r ∧ u.rod r = v ∧ Asks (s.rod r) v k ((s.rod r).arv an) ∧
      pick u r k = pick s r k ∧ u.mem = s.mem ∧ u.tally = s.tally := by
  have hcounted : ∀ t : State, (t.rod r).item = none → finishItem t r = t := fun t ht => if_pos (by rw [ht]; rfl)
  have hself : ∀ v, (s.setRod r v).rod r = v := fun v => (rod_setRod s r v r).trans (if_pos rfl)
  unfold takeWord
  dsimp only
  rw [if_neg (by rw [hal]; simpa using hin), hcounted _ (by rw [hself]; exact hidle), hself, if_neg (not_not.mpr hrun)]
  refine ⟨_, _, rfl, (rod_setRod _ r _ r).trans (if_pos rfl), ⟨rfl, rfl, hidle, rfl, rfl, rfl, rfl, rfl, rfl⟩, ?_, rfl, rfl⟩
  rw [pick_setRod, pick_setRod]
  · exact ⟨rfl, rfl, rfl, hidle, hidle, by rw [hrun]; nofun⟩
  · rw [hself]
    exact ⟨rfl, rfl, rfl, hidle, hidle, nofun⟩

end

section
variable {u : State} {r k a : Nat} {q v : Rod} (hv : u.rod r = v) (h : Asks q v k a)
include hv h

theorem offer_asks : offer u r = (pick u r k).map (fun e => (a, e)) := by
  unfold offer
  dsimp only
  rw [hv, h.st, h.wait, h.item]

omit h in
theorem give_rod (a : Nat) (e : Nat × Item) : (give u r a e).rod r = { v with
    st := .running, wait := none, pc := (v.pc + 1) % 8192, item := some { e.2 with queue := e.1 }, ending := none,
    itemCyc := v.cyc.toNat, itemAt := u.clk.local, bytes := 0, errs := (wordsOf a 32).foldl (fun m w => mset none m w none) v.errs } := by
  subst hv
  unfold give
  dsimp only
  unfold State.setRod State.setQueue State.rod
  dsimp only
  rw [mget_mset_self]

end

theorem give_queue (u : State) (r a : Nat) (e : Nat × Item) (n : Nat) : (give u r a e).queue n =
    if n = e.1 then { u.queue e.1 with items := (u.queue e.1).items.filter (fun j => decide (j.num ≠ e.2.num)) } else u.queue n :=
  queue_setQueue u e.1 _ n

theorem give_byte (u : State) (r a i : Nat) (e : Nat × Item) (hi : i < 32) :
    memByte (give u r a e).mem (rodWindow r a + i) = e.2.desc.getD i 0 := by
  refine (memByte_memWrite (slice e.2.desc 0 32) u.mem (rodWindow r a) i (by simpa [slice] using hi)).trans ?_
  exact (getD_map_range _ _ hi).trans (congrArg (fun j => e.2.desc.getD j 0) (Nat.zero_add i))

section
variable {s : State} {r an k : Nat} (h : Controls s r) (hslot : (s.rod r).slot = none) (han : an < 16) (hk : k < 16)
  (hal : (s.rod r).arv an % 32 = 0) (hin : (s.rod r).arv an + 31 ≤ 0x3FFFF) (hidle : (s.rod r).item = none)
include h hslot han hk hal hin hidle

omit hal hin hidle in
theorem execTake_issues : exec (.take r an k) s = .next (takeWord s r an k) :=
  ctx (c := .take r an k) rfl h (by rw [decide_eq_true han, decide_eq_true hk]; rfl) (by rw [notUser, hslot]; rfl)

theorem execTake_waits (hpick : pick s r k = none) : Gives (.take r an k) s (fun t =>
    (t.rod r).st = .waiting ∧ (t.rod r).wait = some (.take k ((s.rod r).arv an)) ∧ (t.rod r).pc = (s.rod r).pc ∧
      (t.rod r).ar = (s.rod r).ar ∧ (t.rod r).v = (s.rod r).v ∧ t.mem = s.mem ∧ t.tally = s.tally) := by
  obtain ⟨u, v, htake, hv, hasks, hsame, hmem, htally⟩ := takeWord_asks (k := k) h.issues.running hidle hal hin
  have hnone : giveIfAny u r = u := by rw [giveIfAny, offer_asks hv hasks, hsame, hpick]; rfl
  refine ⟨_, (execTake_issues h hslot han hk).trans (congrArg _ (htake.trans hnone)), ?_⟩
  dsimp only
  rw [hv]
  exact ⟨hasks.st, hasks.wait, hasks.pc, hasks.ar, hasks.lanes, hmem, htally⟩

theorem execTake_given {qn : Nat} {it : Item} (hpick : pick s r k = some (qn, it)) : Gives (.take r an k) s (fun t =>
    (t.rod r).st = .running ∧ (t.rod r).wait = none ∧ (t.rod r).pc = ((s.rod r).pc + 1) % 8192 ∧
      (t.rod r).item = some { it with queue := qn } ∧ (t.rod r).ar = (s.rod r).ar ∧ (t.rod r).v = (s.rod r).v ∧
      (t.queue qn).items = (s.queue qn).items.filter (fun j => j.num ≠ it.num) ∧ (∀ n, n ≠ qn → t.queue n = s.queue n) ∧
      ∀ i, i < 32 → memByte t.mem (rodWindow r ((s.rod r).arv an) + i) = it.desc.getD i 0) := by
  obtain ⟨u, v, htake, hv, hasks, hsame, -, htally⟩ := takeWord_asks (k := k) h.issues.running hidle hal hin
  have hgive : giveIfAny u r = give u r ((s.rod r).arv an) (qn, it) := by rw [giveIfAny, offer_asks hv hasks, hsame, hpick]; rfl
  have hqueue : ∀ n, u.queue n = s.queue n := fun n => by rw [State.queue, State.queue, htally]
  refine ⟨_, (execTake_issues h hslot han hk).trans (congrArg _ (htake.trans hgive)), ?_⟩
  dsimp only
  rw [give_rod hv]
  refine ⟨rfl, rfl, congrArg (fun pc => (pc + 1) % 8192) hasks.pc, rfl, hasks.ar, hasks.lanes, ?_, fun n hn => ?_,
    fun i hi => give_byte u r _ i _ hi⟩
  · rw [give_queue, if_pos rfl, hqueue]
  · rw [give_queue, if_neg hn, hqueue]

end

end Sys2Proof.Machine

namespace Sys2Proof.Machine

/-! PUT (R216, R238, R248) -/

section
variable {s : State} {r : Nat} {offs : List Nat} (hclean : ∀ off ∈ offs, rodErr s r off = none)
include hclean

theorem rodLost_clean : rodLost s r offs = false := by
  refine List.any_eq_false.mpr fun off hoff => ?_
  rw [hclean off hoff]
  exact Bool.false_ne_true

/-- A read of words without errors notes nothing. -/
theorem rodNote_clean : rodNote s r offs = s := by
  refine List.foldlRecOn (motive := fun t => t = s) _ _ rfl fun t ht w hw => ?_
  rw [ht]
  obtain ⟨off, hoff, rfl⟩ | hnil := mem_foldl_setAdd.mp hw
  · have hword : rodErr s r (off / 8 * 8) = rodErr s r off := by
      rw [rodErr, rodErr, Nat.mul_div_cancel _ (by decide)]
    rw [hword, hclean off hoff]
    rfl
  · exact absurd hnil List.not_mem_nil

end

/-- A word that goes on from a state with the same Rods and memory. -/
theorem finish_continues_of {s u : State} {r : Nat} (stall : Nat) (w : Wrote) (hrods : u.rods = s.rods) (hmem : u.mem = s.mem) :
    Continues s (finish u r (u.rod r) stall w) r (s.rod r) := by
  obtain ⟨hrod, hothers, hmem'⟩ := finish_continues u r (u.rod r) stall w rfl rfl
  rw [rod_of_rods hrods] at hrod hothers hmem' ⊢
  exact ⟨hrod, fun p hp => (hothers p hp).trans (rod_of_rods hrods p), hmem'.trans hmem⟩

theorem queue_setRod (s : State) (r n : Nat) (v : Rod) : (s.setRod r v).queue n = s.queue n := rfl

theorem accept_queue (s : State) (qn n : Nat) (d : List Byte) : (accept s qn d).queue n = if n = qn then { s.queue qn with
    items := (s.queue qn).items ++ [Item.mk s.tally.nextNum qn d (releasedAt (s.queue qn) d s.clk.tick)] } else s.queue n :=
  queue_setQueue s qn _ n

section
variable {s : State} {r an k : Nat} (h : Controls s r) (hslot : (s.rod r).slot = none) (han : an < 16) (hk : k < 64)
  (hin : (s.rod r).arv an + 31 ≤ 0x3FFFF) (hclean : ∀ i, i < 32 → rodErr s r ((s.rod r).arv an + i) = none)
  (hok : descOk (memBytes s.mem (rodWindow r ((s.rod r).arv an)) 32) = true)
include h hslot han hk hin hclean

/-- PUT of a descriptor in words without errors is the Tally's answer. -/
theorem execPut_issues : exec (.put r an k) s = .next
    (let (u, answer) := tallyPut s k r (memBytes s.mem (rodWindow r ((s.rod r).arv an)) 32)
    match answer with
    | .held => u.setRod r { u.rod r with
        st := .waiting, wait := some (.put k []), cyc := (u.rod r).cyc + BitVec.ofNat 32 (stallOf (s.rod r) [] [an]) }
    | _ => finish u r (u.rod r) (stallOf (s.rod r) [] [an]) Wrote.none) := by
  have hwords : ∀ off ∈ (List.range 8).map (fun i => (s.rod r).arv an + 4 * i) ++ [(s.rod r).arv an + 31], rodErr s r off = none := by
    intro off hoff
    obtain hlow | hlast := List.mem_append.mp hoff
    · obtain ⟨i, hi, rfl⟩ := List.mem_map.mp hlow
      exact hclean _ (by rw [List.mem_range] at hi; omega)
    · rw [List.mem_singleton.mp hlast]
      exact hclean 31 (by decide)
  refine (ctx (c := .put r an k) rfl h (by rw [decide_eq_true han, decide_eq_true hk]; rfl) (by rw [notUser, hslot]; rfl)).trans ?_
  rw [putWord]
  dsimp only
  rw [if_neg (Nat.not_lt.mpr hin), rodLost_clean hwords, rodNote_clean hwords]
  rfl

include hok

theorem execPut_accepted (hroom : (s.queue k).items.length < (s.queue k).cap) (hheld : (s.queue k).held = []) :
    Gives (.put r an k) s (fun t => ∃ num rel, Continues s t r (s.rod r) ∧
      (t.queue k).items = (s.queue k).items ++ [Item.mk num k (memBytes s.mem (rodWindow r ((s.rod r).arv an)) 32) rel] ∧
      ∀ n, n ≠ k → t.queue n = s.queue n) := by
  refine ⟨_, execPut_issues h hslot han hk hin hclean, ?_⟩
  generalize memBytes s.mem (rodWindow r ((s.rod r).arv an)) 32 = desc at hok ⊢
  have hput : tallyPut s k r desc = (accept s k desc, .accepted) := by
    rw [tallyPut, hok, hheld, decide_eq_true hroom, if_neg (Nat.ne_of_gt (Nat.zero_lt_of_lt hroom))]
    rfl
  rw [hput]
  dsimp only
  refine ⟨s.tally.nextNum, releasedAt (s.queue k) desc s.clk.tick, ?_, ?_, fun n hn => ?_⟩
  · exact finish_continues_of _ _ ((accept_keeps s k desc).part .rods rfl) ((accept_keeps s k desc).part .mem rfl)
  · exact congrArg Queue.items ((accept_queue s k k desc).trans (if_pos rfl))
  · exact (accept_queue s k n desc).trans (if_neg hn)

theorem execPut_held (hcap : 0 < (s.queue k).cap) (hfull : (s.queue k).cap ≤ (s.queue k).items.length) :
    Gives (.put r an k) s (fun t => (t.rod r).st = .waiting ∧ (t.rod r).pc = (s.rod r).pc ∧
      (t.queue k).held = (s.queue k).held ++ [Producer.mk r (memBytes s.mem (rodWindow r ((s.rod r).arv an)) 32) false] ∧
      (t.queue k).items = (s.queue k).items) := by
  refine ⟨_, execPut_issues h hslot han hk hin hclean, ?_⟩
  generalize memBytes s.mem (rodWindow r ((s.rod r).arv an)) 32 = desc at hok ⊢
  have hput : tallyPut s k r desc =
      (s.setQueue k { s.queue k with held := (s.queue k).held ++ [Producer.mk r desc false] }, .held) := by
    rw [tallyPut, hok, decide_eq_false (Nat.not_lt.mpr hfull), if_neg (Nat.ne_of_gt hcap)]
    rfl
  rw [hput]
  dsimp only
  rw [rod_setRod, if_pos rfl]
  rw [queue_setRod, queue_setQueue, if_pos rfl]
  exact ⟨rfl, rfl, rfl, rfl⟩

end

/-- Settles O24: each word of work under its condition. -/
theorem workWords : Obligations.WorkWords := by
  intro s r an k8 fa md out h hslot han
  dsimp only
  refine ⟨fun hx => ?idle, fun hx => ?busy, execXfer_empty h han, execXfer_queues h hslot han, execXfer_stalls h hslot han,
    execTake_waits h hslot han, fun hk hal hin hidle qn it hpick _ => execTake_given h hslot han hk hal hin hidle hpick,
    fun hk hin hheld hok hroom hnone => ?accepted, execPut_held h hslot han⟩
  case idle =>
    rw [← Rod.itemDone_idle hx]
    exact execDone_continues h hslot
  case busy =>
    rw [← Rod.itemDone_busy hx]
    exact execDone_continues h hslot
  case accepted =>
    obtain ⟨t, ht, num, rel, hput⟩ := execPut_accepted h hslot han hk hin hheld hok hroom hnone
    exact ⟨t, num, rel, ht, hput⟩

end Sys2Proof.Machine

namespace Sys2Proof.Machine

/-! Memories without errors (R197, R270) -/

theorem memBytes_length (m : List Host.Cell) (a n : Nat) : (memBytes m a n).length = n := by
  rw [memBytes, List.length_map, List.length_range]

theorem memByte_memWrite_memBytes (m m' : List Host.Cell) {a b n i : Nat} (hi : i < n) :
    memByte (memWrite m a (memBytes m' b n)) (a + i) = memByte m' (b + i) :=
  (memByte_memWrite _ m a i (by rwa [memBytes_length])).trans (getD_map_range _ _ hi)

theorem memByte_memWrite_memBytes_ne (m m' : List Host.Cell) {a b n k : Nat} (hk : k < a ∨ a + n ≤ k) :
    memByte (memWrite m a (memBytes m' b n)) k = memByte m k :=
  memByte_memWrite_ne _ m a k (by rwa [memBytes_length])

theorem memStrobe_whole : ∀ (d : List Byte) (m : List Host.Cell) (a : Nat),
    memStrobe m a d (List.replicate d.length true) = memWrite m a d
  | [], _, _ => rfl
  | b :: d, m, a => memStrobe_whole d (memSet m a b) (a + 1)

section
variable {s : State} {r : Nat} (herrs : (s.rod r).errs = [])
include herrs

theorem rodErr_clean (off : Nat) : rodErr s r off = none := by rw [rodErr, herrs]; rfl

theorem rodMemRead_clean (off n : Nat) : rodMemRead s r off n = (s, memBytes s.mem (rodWindow r off) n) := by
  unfold rodMemRead
  dsimp only
  rw [rodNote_clean fun a _ => rodErr_clean herrs a, rodLost_clean fun a _ => rodErr_clean herrs a, if_neg Bool.false_ne_true,
    List.map_map]
  refine congrArg (Prod.mk s) (List.map_congr_left fun i _ => ?_)
  rw [Function.comp_apply, rodErr_clean herrs, if_neg nofun, rodWindow_add]

theorem rodMemWrite_clean (off : Nat) (d : List Byte) :
    rodMemWrite s r off d (List.replicate d.length true) = { s with mem := memWrite s.mem (rodWindow r off) d } := by
  unfold rodMemWrite
  dsimp only
  rw [List.foldl_fixed' (a := s) fun w => by rw [rodErr_clean herrs]]
  rw [memStrobe_whole, if_neg]
  refine ne_true_of_eq_false (List.any_eq_false.mpr fun w _ => ?_)
  rw [rodErr_clean herrs]
  exact Bool.false_ne_true

end

/-- A write to a Ledger without errors stores its bytes; of the rest it may only end a line repair. -/
theorem ledgerWrite_clean {s : State} (herrs : s.ledger.errs = []) (a : Nat) (d : List Byte) :
    (ledgerWrite s a d (List.replicate d.length true)).rods = s.rods ∧
      (ledgerWrite s a d (List.replicate d.length true)).mem = memWrite s.mem a d := by
  have hstep : ∀ (t : State) (w : Nat) (full : Bool), t.rods = s.rods ∧ t.mem = s.mem ∧ t.ledger.errs = [] →
      (abandonRepair (ledgerOpen t w full) w).rods = s.rods ∧ (abandonRepair (ledgerOpen t w full) w).mem = s.mem ∧
        (abandonRepair (ledgerOpen t w full) w).ledger.errs = [] := by
    intro t w full ⟨hrods, hmem, hnone⟩
    have hopen : ledgerOpen t w full = t := by rw [ledgerOpen, hnone]; rfl
    rw [hopen]
    refine ⟨((abandonRepair_keeps t w).part .rods rfl).trans hrods, ((abandonRepair_keeps t w).part .mem rfl).trans hmem, ?_⟩
    unfold abandonRepair
    split_ifs <;> exact hnone
  unfold ledgerWrite
  dsimp only
  rw [memStrobe_whole]
  obtain ⟨hrods, hmem, -⟩ := List.foldlRecOn
    (motive := fun t : State => t.rods = s.rods ∧ t.mem = s.mem ∧ t.ledger.errs = [])
    ((wordsOf a d.length).filter fun w => touches a (List.replicate d.length true) w 8)
    (fun s w => abandonRepair (ledgerOpen s w (coversWord a (List.replicate d.length true) w)) w)
    ⟨rfl, rfl, herrs⟩ fun t ht w _ => hstep t w _ ht
  exact ⟨hrods, congrArg (fun m => memWrite m a d) hmem⟩

/-! The mover's arbitration (R250, R256 to R258) -/

/-- The state with request `q` waiting alone. -/
def State.asking (s : State) (q : BeamReq) : State := { s with beam := { s.beam with waiting := [Waiting.mk q 0 false] } }

section
variable {s : State} {q : BeamReq} {t : Nat} (ht : targetOf q.addr = some t) (hd : q.deep = false)

theorem letIn_enqueue (halone : s.beam.waiting = []) (hd : q.deep = false) : letIn (enqueue s q) = s.asking q := by
  simp [letIn, enqueue, halone, admitted_one q hd, State.asking]

include ht hd

/-- A request that nothing holds wins its arbitration. -/
theorem choice_served (h : Served s q.master t) : choice (s.asking q) t = some ((Waiting.mk q 0 false, 0), false) := by
  have hlock : ¬ ((mget (32, 0) s.beam.locks t).1 < 32 ∧ (mget (32, 0) s.beam.locks t).1 ≠ q.master) :=
    fun e => absurd e.1 (Nat.not_lt.mpr h.unlocked)
  have hput : ¬ (t = 14 ∧ tallyHeld s q.master = true) := fun e => Bool.false_ne_true ((h.free e.1).symm.trans e.2)
  have hcs : contenders (s.asking q) t = [(Waiting.mk q 0 false, 0)] := by
    rw [contenders_of (s.asking q) q t rfl hd ht, show targetReady (s.asking q) t = true from h.ready]
    exact (if_neg Bool.false_ne_true).trans ((if_neg hlock).trans ((if_neg hput).trans (tagged_first s _ _ h.tag)))
  simp [choice, hcs, winner]

omit ht in
theorem granted_alone (h : Served s q.master t) :
    granted (s.asking q) t (Waiting.mk q 0 false, 0) false = { s with beam := beamAfter s q.master t } := by
  simp [granted, State.asking, hd, beamAfter, grantNoted, sinceAged, h.alone]

/-- A request that its target, a lock or a held PUT holds wins none. -/
theorem choice_waits (h : Waits s q.master t) : choice (s.asking q) t = none := by
  have hcs : contenders (s.asking q) t = [] := by
    rw [contenders_of (s.asking q) q t rfl hd ht]
    change (if !targetReady s t then [] else
      if (mget (32, 0) s.beam.locks t).1 < 32 ∧ (mget (32, 0) s.beam.locks t).1 ≠ q.master then []
      else if t = 14 ∧ tallyHeld s q.master = true then [] else _) = []
    rcases h.reason with h | h | h <;> simp [h]
  simp [choice, hcs, winner]

end

section
variable {s : State} {r a n t : Nat} {out : Bool} (ht : targetOf a = some t)
include ht

/-- A mover's burst that nothing holds is granted at once. -/
theorem moverMeets_served (h : Served s (r / 8) t) :
    moverMeets s r a n out = ({ s with beam := beamAfter s (r / 8) t }, none) := by
  have hchoice := choice_served (q := BeamReq.mk (r / 8) a out n [] [] false false) ht rfl h
  have hgrant := granted_alone (q := BeamReq.mk (r / 8) a out n [] [] false false) rfl h
  unfold moverMeets
  rw [ht, letIn_enqueue h.alone rfl]
  dsimp only
  rw [if_neg h.allowed, h.issues.2, if_neg Bool.false_ne_true, hchoice]
  dsimp only
  rw [h.alone, List.length_nil, if_pos rfl, hgrant]

theorem moverMeets_waits (h : Waits s (r / 8) t) : moverMeets s r a n out = (s, some .waits) := by
  have hchoice := choice_waits (q := BeamReq.mk (r / 8) a out n [] [] false false) ht rfl h
  unfold moverMeets
  rw [ht, letIn_enqueue h.alone rfl]
  dsimp only
  rw [if_neg h.allowed, h.issues.2, if_neg Bool.false_ne_true, hchoice]

end

/-! The bursts of a transfer (R255) -/

/-- The length of the burst at offset `off` of a transfer. -/
def burstLen (far off len : Nat) : Nat := min (256 - (far + off) % 256) (len - off)

theorem xferBursts_more {far off len : Nat} (h : off < len) (fuel : Nat) : xferBursts far (fuel + 1) off len =
    (off, burstLen far off len) :: xferBursts far fuel (off + burstLen far off len) len :=
  if_neg (Nat.not_le.mpr h)

theorem xferBursts_end {far off len : Nat} (h : len ≤ off) : ∀ fuel : Nat, xferBursts far fuel off len = []
  | 0 => rfl
  | _ + 1 => if_pos h

theorem burstLen_pos {far off len : Nat} (h : off < len) : 0 < burstLen far off len := by
  unfold burstLen; omega

theorem burstLen_le {far off len : Nat} (h : off < len) : off + burstLen far off len ≤ len := by
  unfold burstLen; omega

/-- After a burst the fuel left suffices for the rest of the transfer. -/
theorem fuel_burst {far off len fuel : Nat} (h : (far + off) % 256 + (len - off) ≤ 256 * (fuel + 1)) (hoff : off < len) :
    len ≤ off + burstLen far off len ∨
      (far + (off + burstLen far off len)) % 256 + (len - (off + burstLen far off len)) ≤ 256 * fuel := by
  unfold burstLen; omega

/-! An inbound transfer from another Rod's memory (R198, R218) -/

theorem targetOf_rodWindow {q a : Nat} (hq : q < 64) (ha : a < 0x40000) : targetOf (rodWindow q a) = some (15 + q / 8) := by
  have hbits : bitsOf (rodWindow q a) 24 22 = q / 8 := by unfold bitsOf rodWindow; omega
  unfold targetOf
  rw [hbits, if_neg (by unfold rodWindow; omega), if_pos (by unfold rodWindow; omega)]

theorem readBurst_rod {s : State} {q a : Nat} (hq : q < 64) (ha : a < 0x40000) (hopen : rodOpen s q = true)
    (herrs : (s.rod q).errs = []) (m n : Nat) :
    readBurst s m (rodWindow q a) n = (s, some (memBytes s.mem (rodWindow q a) n)) := by
  have hoff : (rodWindow q a - 0x10000000) % 0x80000 = a := by unfold rodWindow; omega
  have hrod : (rodWindow q a - 0x10000000) / 0x80000 = q := by unfold rodWindow; omega
  have hledger : inLedger (rodWindow q a) = false := decide_eq_false (by unfold rodWindow; omega)
  have hdram : inDram (rodWindow q a) = false := decide_eq_false (by unfold rodWindow dramBase; omega)
  have hmemory : rodMemory a = true := decide_eq_true (by omega)
  unfold readBurst
  dsimp only
  rw [hledger, hdram, hoff, hrod, hmemory, hopen, rodMemRead_clean herrs]
  rw [if_neg Bool.false_ne_true, if_neg Bool.false_ne_true, if_pos ⟨by unfold rodWindow; omega, by unfold rodWindow; omega, rfl⟩,
    if_pos rfl]

/-- A transfer of Rod `r` that may read its bytes in the data memory of Rod `q`, from offset `o` on. -/
structure Inbound (s : State) (r q o : Nat) (x : Xfer) : Prop where
  far    : x.far = rodWindow q o
  fits   : o + x.len ≤ 0x40000
  rod    : q < 64
  opened : rodOpen s q = true
  source : (s.rod q).errs = []
  dest   : (s.rod r).errs = []
  served : Served s (r / 8) (15 + q / 8)

/-- The state after a burst that stores `n` bytes from `a` at `b`. -/
def burstMoved (s : State) (m t a b n : Nat) : State :=
  { s with beam := beamAfter s m t, mem := memWrite s.mem b (memBytes s.mem a n) }

theorem moveIn_granted {s u v : State} {r off n : Nat} {x : Xfer} {d : List Byte}
    (hmeets : moverMeets s r (x.far + off) n false = (u, none)) (hread : readBurst u (r / 8) (x.far + off) n = (v, some d)) :
    moveIn s r x off n = (rodMemWrite v r (x.dm + off) d (List.replicate n true), .done) := by
  unfold moveIn
  rw [hmeets]
  dsimp only
  rw [hread]

section
variable {s : State} {r q o : Nat} {x : Xfer} (h : Inbound s r q o x)
include h

theorem Inbound.moved (a b n : Nat) : Inbound (burstMoved s (r / 8) (15 + q / 8) a b n) r q o x :=
  { h with served := { h.served with } }

theorem moveIn_served {off n : Nat} (hoff : off < x.len) : moveIn s r x off n =
    (burstMoved s (r / 8) (15 + q / 8) (x.far + off) (rodWindow r (x.dm + off)) n, .done) := by
  have hat : x.far + off = rodWindow q (o + off) := by rw [h.far, rodWindow_add]
  have hin : o + off < 0x40000 := Nat.lt_of_lt_of_le (Nat.add_lt_add_left hoff o) h.fits
  have hread := readBurst_rod (s := { s with beam := beamAfter s (r / 8) (15 + q / 8) }) h.rod hin h.opened h.source (r / 8) n
  have hwrite := rodMemWrite_clean (s := { s with beam := beamAfter s (r / 8) (15 + q / 8) }) h.dest (x.dm + off)
    (memBytes s.mem (x.far + off) n)
  rw [memBytes_length] at hwrite
  rw [← hat] at hread
  refine (moveIn_granted (moverMeets_served ?_ h.served) hread).trans ?_
  · rw [hat]
    exact targetOf_rodWindow h.rod hin
  · exact congrArg (fun u => (u, BurstEnd.done)) hwrite

end

/-- The bytes of an inbound transfer of Rod `r` copied from offset `off` on, and nothing else written. -/
structure Copied (s t : State) (r : Nat) (x : Xfer) (off : Nat) : Prop where
  rods   : t.rods = s.rods
  bytes  : ∀ i, off ≤ i → i < x.len → memByte t.mem (rodWindow r (x.dm + i)) = memByte s.mem (x.far + i)
  others : ∀ b, b < rodWindow r (x.dm + off) ∨ rodWindow r x.dm + x.len ≤ b → memByte t.mem b = memByte s.mem b

theorem Copied.nothing {s : State} {r : Nat} {x : Xfer} {off : Nat} (h : x.len ≤ off) : Copied s s r x off :=
  ⟨rfl, fun _ hlo hhi => absurd (Nat.lt_of_lt_of_le hhi h) (Nat.not_lt.mpr hlo), fun _ _ => rfl⟩

section
variable {s t : State} {r q o off : Nat} {x : Xfer} (hne : q ≠ r) (hdm : x.dm + x.len ≤ 0x40000)
include hne hdm

/-- A burst and the copy of what follows it. -/
theorem Copied.burst (h : Inbound s r q o x) (hoff : off < x.len) (hrest : Copied (burstMoved s (r / 8) (15 + q / 8) (x.far + off)
    (rodWindow r (x.dm + off)) (burstLen x.far off x.len)) t r x (off + burstLen x.far off x.len)) : Copied s t r x off := by
  have hle := burstLen_le (far := x.far) hoff
  obtain ⟨hrods, hbytes, hothers⟩ := hrest
  generalize burstLen x.far off x.len = n at *
  have hmoved : ∀ b, b < rodWindow r (x.dm + off) ∨ rodWindow r (x.dm + off) + n ≤ b →
      memByte (memWrite s.mem (rodWindow r (x.dm + off)) (memBytes s.mem (x.far + off) n)) b = memByte s.mem b :=
    fun b => memByte_memWrite_memBytes_ne s.mem s.mem
  have hfar := h.far
  have hfits := h.fits
  refine ⟨hrods, fun i hlo hhi => ?_, fun b hb => ?_⟩
  · by_cases hi : off + n ≤ i
    · refine (hbytes i hi hhi).trans (hmoved _ ?_)
      unfold rodWindow at *
      omega
    · have hbyte := hothers (rodWindow r (x.dm + i)) (Or.inl (by unfold rodWindow; omega))
      have hwrite := memByte_memWrite_memBytes s.mem s.mem (a := rodWindow r (x.dm + off)) (b := x.far + off)
        (show i - off < n by omega)
      rw [show rodWindow r (x.dm + off) + (i - off) = rodWindow r (x.dm + i) by unfold rodWindow; omega,
        show x.far + off + (i - off) = x.far + i by omega] at hwrite
      exact hbyte.trans hwrite
  · have houtside : b < rodWindow r (x.dm + off) ∨ rodWindow r (x.dm + off) + n ≤ b := by unfold rodWindow at *; omega
    exact (hothers b (by unfold rodWindow at *; omega)).trans (hmoved b houtside)

/-- The bursts of an inbound transfer copy its bytes. -/
theorem moveAll_inbound (hin : x.out = false) : ∀ (fuel off : Nat) (s : State), Inbound s r q o x →
    x.len ≤ off ∨ (x.far + off) % 256 + (x.len - off) ≤ 256 * fuel →
      ∃ t, moveAll r x (xferBursts x.far fuel off x.len) s = (t, .good) ∧ Copied s t r x off := by
  intro fuel
  induction fuel with
  | zero => exact fun off s _ hfuel => ⟨s, rfl, .nothing (by omega)⟩
  | succ fuel ih =>
    intro off s h hfuel
    by_cases hoff : off < x.len
    · obtain ⟨t, hmove, hcopied⟩ := ih _ _ (h.moved (x.far + off) (rodWindow r (x.dm + off)) (burstLen x.far off x.len))
        (fuel_burst (hfuel.resolve_left (Nat.not_le.mpr hoff)) hoff)
      refine ⟨t, ?_, hcopied.burst hne hdm h hoff⟩
      rw [xferBursts_more hoff, moveAll, hin]
      dsimp only
      rw [Bool.false_and, if_neg Bool.false_ne_true, if_neg Bool.false_ne_true, moveIn_served h hoff]
      exact hmove
    · rw [xferBursts_end (Nat.not_lt.mp hoff)]
      exact ⟨s, rfl, .nothing (Nat.not_lt.mp hoff)⟩

end

/-! An outbound transfer to the Ledger (R198, R218, R271) -/

section
variable {s : State} {r k : Nat} {x : Xfer} (hpos : 0 < x.len) (herrs : (s.rod r).errs = []) (hk : targetOf x.far = some k)
include hpos herrs hk

omit hpos in
theorem moveOut_ledger (hin : x.far < 0x04000000) (hledger : s.ledger.errs = []) (h : Served s (r / 8) k) :
    ∃ t, moveOut s r x 0 x.len = (t, .done) ∧ t.rods = s.rods ∧
      t.mem = memWrite s.mem x.far (memBytes s.mem (rodWindow r x.dm) x.len) := by
  let u : State := { s with beam := beamAfter s (r / 8) k }
  have hnote : ∀ offs, rodNote u r offs = u := fun offs => rodNote_clean fun a _ => rodErr_clean (s := u) herrs a
  obtain ⟨hrods, hmem⟩ := ledgerWrite_clean (s := u) hledger x.far (memBytes s.mem (rodWindow r x.dm) x.len)
  have hnoted := noteOutput_keeps (ledgerWrite u x.far (memBytes s.mem (rodWindow r x.dm) x.len) (List.replicate x.len true)) r
    x.far x.len
  rw [memBytes_length] at hrods hmem
  refine ⟨_, ?_, (hnoted.part .rods rfl).trans hrods, (hnoted.part .mem rfl).trans hmem⟩
  unfold moveOut
  rw [Nat.add_zero, moverMeets_served hk h]
  dsimp only
  rw [hnote, writeBurst, show inLedger x.far = true from decide_eq_true hin, if_pos rfl, if_pos rfl]
  rfl

/-- An outbound transfer within 256 aligned bytes of the Ledger is one burst. -/
theorem moveAll_ledger (hout : x.out = true) (hin : x.far + x.len ≤ 0x04000000) (hone : x.far % 256 + x.len ≤ 256)
    (hledger : s.ledger.errs = []) (h : Served s (r / 8) k) :
    ∃ t, moveAll r x (xferBursts x.far (x.len / 256 + 2) 0 x.len) s = (t, .good) ∧ t.rods = s.rods ∧
      t.mem = memWrite s.mem x.far (memBytes s.mem (rodWindow r x.dm) x.len) := by
  obtain ⟨t, hmove, ht⟩ := moveOut_ledger herrs hk (by omega) hledger h
  have hlen : burstLen x.far 0 x.len = x.len := by unfold burstLen; omega
  refine ⟨t, ?_, ht⟩
  rw [xferBursts_more hpos, hlen, xferBursts_end (by omega), moveAll, rodLost_clean fun a _ => rodErr_clean herrs a, hout]
  dsimp only
  rw [if_neg (by decide), if_pos rfl, hmove]
  rfl

/-- The first burst of a transfer whose target, lock or held PUT holds it waits. -/
theorem moveAll_waits (h : Waits s (r / 8) k) :
    moveAll r x (xferBursts x.far (x.len / 256 + 2) 0 x.len) s = (s, .waits 0) := by
  have hmeets : ∀ n out, moverMeets s r (x.far + 0) n out = (s, some .waits) := fun n out => moverMeets_waits hk h
  have hout : moveOut s r x 0 (burstLen x.far 0 x.len) = (s, .waits) := by rw [moveOut, hmeets]
  have hin : moveIn s r x 0 (burstLen x.far 0 x.len) = (s, .waits) := by rw [moveIn, hmeets]
  rw [xferBursts_more hpos, moveAll, rodLost_clean fun a _ => rodErr_clean herrs a, Bool.and_false, if_neg Bool.false_ne_true]
  dsimp only
  rw [hout, hin, ite_self]

end

/-! The end of a transfer -/

/-- A transfer that nothing waits for but a stalled word leaves the Rod running. -/
theorem afterXfer_frees {s : State} {r : Nat} (hending : (s.rod r).ending = none)
    (hwait : (s.rod r).wait = none ∨ (s.rod r).wait = some .stall) :
    (afterXfer s r).mem = s.mem ∧ ∀ p, (afterXfer s r).rod p = if p = r then { s.rod r with wait := none } else s.rod p := by
  have hsame : (s.rod r).wait = none → ∀ p, s.rod p = if p = r then { s.rod r with wait := none } else s.rod p := by
    intro hnone p
    by_cases hp : p = r
    · rw [if_pos hp, hp]
      exact congrArg (fun w => { s.rod r with wait := w }) hnone
    · rw [if_neg hp]
  unfold afterXfer
  dsimp only
  rw [hending]
  dsimp only
  rcases hwait with hwait | hwait <;> rw [hwait] <;> dsimp only
  · exact ⟨rfl, fun p => (hsame hwait p).trans (by dsimp only; rw [hending])⟩
  · exact ⟨rfl, fun p => (rod_setRod s r _ p).trans (by rw [hending])⟩

section
variable {s : State} {r : Nat} {x : Xfer} {rest : List Xfer} (hr : r < 64) (hx : (s.rod r).xfers = x :: rest)
  (hat : x.at_ = 0) (hheld : x.held = false)
include hr hx hat hheld

/-- The oldest transfer moved whole. -/
theorem execXferComplete_moved {t : State} (hending : (s.rod r).ending = none)
    (hwait : (s.rod r).wait = none ∨ (s.rod r).wait = some .stall)
    (hmove : moveAll r x (xferBursts x.far (x.len / 256 + 2) 0 x.len) s = (t, .good)) (hrods : t.rods = s.rods) :
    Gives (.xferComplete r []) s (fun u => u.rod r = { s.rod r with xfers := rest, wait := none } ∧
      (∀ p, p ≠ r → u.rod p = s.rod p) ∧ u.mem = t.mem) := by
  have hrod := rod_of_rods hrods
  have hcomplete : xferComplete s r = afterXfer (t.setRod r { s.rod r with xfers := rest }) r := by
    unfold xferComplete
    rw [hx]
    dsimp only
    rw [hheld, Bool.false_and, if_neg Bool.false_ne_true, hat, hmove]
    dsimp only
    rw [hrod, hx, List.drop_one, List.tail_cons]
  have hself : (t.setRod r { s.rod r with xfers := rest }).rod r = { s.rod r with xfers := rest } :=
    (rod_setRod t r _ r).trans (if_pos rfl)
  obtain ⟨hmem, hafter⟩ := afterXfer_frees (s := t.setRod r { s.rod r with xfers := rest }) (r := r) (by rw [hself]; exact hending)
    (by rw [hself]; exact hwait)
  refine ⟨_, (congrArg Host.Outcome.next (if_pos hr)).trans (congrArg Host.Outcome.next hcomplete), ?_, fun p hp => ?_, hmem⟩
  · rw [hafter, if_pos rfl, hself]
  · rw [hafter, if_neg hp, rod_setRod, if_neg hp, hrod]

theorem execXferComplete_waits (hmove : moveAll r x (xferBursts x.far (x.len / 256 + 2) 0 x.len) s = (s, .waits 0)) :
    Gives (.xferComplete r []) s (fun t => t = s.setRod r { s.rod r with xfers := { x with waits := true } :: rest }) := by
  refine ⟨_, congrArg Host.Outcome.next (if_pos hr), ?_⟩
  change xferComplete s r = _
  unfold xferComplete
  rw [hx]
  dsimp only
  rw [hheld, Bool.false_and, if_neg Bool.false_ne_true, hat, hmove, hx, List.drop_one, List.tail_cons]
  rfl

end

/-- Settles O32: the bursts of a transfer one by one, and what its end leaves. -/
theorem moverTransfers : Obligations.MoverTransfers := by
  intro s r x rest hr hx hat hheld hdm hpos herrs hending hwait
  refine ⟨fun q off hq hne hin hfar hfits hst hfree htest hframe hsource h => ?inbound,
    fun k hout hfar hone hledger hk h => ?outbound, fun k hk h => execXferComplete_waits hr hx hat hheld
      (moveAll_waits hpos herrs hk h)⟩
  case inbound =>
    have hopen : rodOpen s q = true := by rw [rodOpen, decide_eq_true hst, hfree, htest, hframe]; rfl
    obtain ⟨t, hmove, hrods, hbytes, hothers⟩ := moveAll_inbound hne hdm hin (x.len / 256 + 2) 0 s
      ⟨hfar, hfits, hq, hopen, hsource, herrs, h⟩ (by omega)
    obtain ⟨u, hu, hrod, hrest, hmem⟩ := execXferComplete_moved hr hx hat hheld hending hwait hmove hrods
    refine ⟨u, hu, hrod, hrest, fun i hi => ?_, fun b hb => ?_⟩
    · rw [hmem]
      exact hbytes i (Nat.zero_le i) hi
    · rw [hmem]
      exact hothers b hb
  case outbound =>
    obtain ⟨t, hmove, hrods, hwritten⟩ := moveAll_ledger hpos herrs hk hout hfar hone hledger h
    obtain ⟨u, hu, hrod, hrest, hmem⟩ := execXferComplete_moved hr hx hat hheld hending hwait hmove hrods
    refine ⟨u, hu, hrod, hrest, fun i hi => ?_, fun b hb => ?_⟩
    · rw [hmem, hwritten, memByte_memWrite_memBytes _ _ hi, rodWindow_add]
    · rw [hmem, hwritten, memByte_memWrite_memBytes_ne _ _ hb]

end Sys2Proof.Machine

namespace Sys2Proof.Machine

/-! Copies of memory (R225) -/

theorem mget_absent {α : Type} (d : α) {k : Nat} : ∀ m : SMap α, k ∉ m.map Prod.fst → mget d m k = d
  | [], _ => rfl
  | (a, v) :: m, h => by
    rw [List.map_cons, List.mem_cons, not_or] at h
    rw [mget, if_neg (Ne.symm h.1), mget_absent d m h.2]

/-- Cells at or above `lo` stored from `dst` on. -/
def storeCells (lo dst : Nat) (m : List Host.Cell) (cells : List Host.Cell) : List Host.Cell :=
  cells.foldl (fun m c => memSet m (dst + (c.1 - lo)) c.2) m

theorem storeCells_wf (lo dst : Nat) : ∀ (cells m : List Host.Cell), Memory.wf m = true → Memory.wf (storeCells lo dst m cells) = true
  | [], _, h => h
  | c :: cells, m, h => storeCells_wf lo dst cells _ (memSet_wf m _ c.2 h)

theorem memByte_storeCells {lo dst j : Nat} : ∀ (cells m : List Host.Cell), (cells.map Prod.fst).Nodup →
    (∀ c ∈ cells, lo ≤ c.1) → memByte (storeCells lo dst m cells) (dst + j) =
      if lo + j ∈ cells.map Prod.fst then memByte cells (lo + j) else memByte m (dst + j)
  | [], _, _, _ => rfl
  | (a, v) :: cells, m, hnodup, hlo => by
    have ha : lo ≤ a := hlo (a, v) List.mem_cons_self
    obtain ⟨hfresh, hnodup⟩ := List.nodup_cons.mp hnodup
    have ih := memByte_storeCells (dst := dst) (j := j) cells (memSet m (dst + (a - lo)) v) hnodup fun c hc =>
      hlo c (List.mem_cons_of_mem _ hc)
    refine ih.trans ?_
    rw [memByte_memSet]
    by_cases hj : lo + j = a
    · subst hj
      rw [if_neg hfresh, if_pos (by omega), List.map_cons, if_pos List.mem_cons_self]
      exact (if_pos rfl).symm
    · have hmem : lo + j ∈ ((a, v) :: cells).map Prod.fst ↔ lo + j ∈ cells.map Prod.fst := by
        rw [List.map_cons, List.mem_cons]
        exact or_iff_right hj
      have hrest : memByte ((a, v) :: cells) (lo + j) = memByte cells (lo + j) := if_neg (Ne.symm hj)
      rw [if_neg (show ¬ dst + j = dst + (a - lo) by omega), hrest]
      simp only [hmem]

theorem memByte_storeCells_ne {lo dst n k : Nat} (hk : k < dst ∨ dst + n ≤ k) : ∀ (cells m : List Host.Cell),
    (∀ c ∈ cells, c.1 < lo + n) → (∀ c ∈ cells, lo ≤ c.1) → memByte (storeCells lo dst m cells) k = memByte m k
  | [], _, _, _ => rfl
  | c :: cells, m, hhi, hlo => by
    have hc : k ≠ dst + (c.1 - lo) := by
      have := hhi c List.mem_cons_self
      have := hlo c List.mem_cons_self
      omega
    refine (memByte_storeCells_ne hk cells _ (fun e he => hhi e (List.mem_cons_of_mem _ he))
      fun e he => hlo e (List.mem_cons_of_mem _ he)).trans ?_
    rw [memByte_memSet, if_neg hc]

theorem memByte_memClear (m : List Host.Cell) (lo hi k : Nat) :
    memByte (memClear m lo hi) k = if lo ≤ k ∧ k < hi then 0 else memByte m k := by
  split_ifs with hk
  · refine mget_absent _ _ fun hmem => ?_
    obtain ⟨c, hc, rfl⟩ := List.mem_map.mp hmem
    obtain ⟨-, hout⟩ := List.mem_filter.mp hc
    rw [decide_eq_true hk] at hout
    exact Bool.false_ne_true hout
  · exact mget_filter 0#8 (fun a => !decide (lo ≤ a ∧ a < hi)) (by rw [decide_eq_false hk]; rfl) m

/-- The `n` bytes from `lo` copied to `dst`. -/
def copyRange (m : List Host.Cell) (lo dst n : Nat) : List Host.Cell :=
  storeCells lo dst (memClear m dst (dst + n)) (m.filter (fun c => decide (lo ≤ c.1 ∧ c.1 < lo + n)))

section
variable {m : List Host.Cell} {lo dst n : Nat}

theorem mem_copied {c : Host.Cell} (hc : c ∈ m.filter (fun c => decide (lo ≤ c.1 ∧ c.1 < lo + n))) : lo ≤ c.1 ∧ c.1 < lo + n :=
  of_decide_eq_true (List.mem_filter.mp hc).2

theorem copyRange_wf (h : Memory.wf m = true) : Memory.wf (copyRange m lo dst n) = true :=
  storeCells_wf lo dst _ _ (memClear_wf m dst (dst + n) h)

theorem copyRange_byte (h : Memory.wf m = true) {j : Nat} (hj : j < n) :
    memByte (copyRange m lo dst n) (dst + j) = memByte m (lo + j) := by
  have hnodup : ((m.filter (fun c => decide (lo ≤ c.1 ∧ c.1 < lo + n))).map Prod.fst).Nodup :=
    (keys_pairwise_of_mwfFrom (memFilter_wf _ m h)).1.imp Nat.ne_of_lt
  have hcells : memByte (m.filter (fun c => decide (lo ≤ c.1 ∧ c.1 < lo + n))) (lo + j) = memByte m (lo + j) :=
    mget_filter 0#8 (fun a => decide (lo ≤ a ∧ a < lo + n)) (decide_eq_true (by omega)) m
  refine (memByte_storeCells _ _ hnodup fun c hc => (mem_copied hc).1).trans ?_
  split_ifs with hlisted
  · exact hcells
  · rw [memByte_memClear, if_pos (by omega), ← hcells]
    exact (mget_absent _ _ hlisted).symm

theorem copyRange_ne {k : Nat} (hk : k < dst ∨ dst + n ≤ k) : memByte (copyRange m lo dst n) k = memByte m k := by
  rw [copyRange, memByte_storeCells_ne hk _ _ (fun c hc => (mem_copied hc).2) fun c hc => (mem_copied hc).1, memByte_memClear,
    if_neg (by omega)]

end

theorem copyInstrMemory_eq (m : List Host.Cell) (a b : Nat) :
    copyInstrMemory m a b = copyRange m (rodWindow a 0x40000) (rodWindow b 0x40000) 0x10000 := by
  have hend : ∀ r, rodWindow r 0x50000 = rodWindow r 0x40000 + 0x10000 := fun r => by unfold rodWindow; omega
  simp only [copyInstrMemory, copyRange, storeCells, rodWindow_add, hend]

theorem copyDataMemory_eq (m : List Host.Cell) (a b : Nat) :
    copyDataMemory m a b = copyRange m (rodWindow a 0) (rodWindow b 0) 0x40000 := by
  simp only [copyDataMemory, copyRange, storeCells, ← rodWindow_add, Nat.zero_add]

end Sys2Proof.Machine

namespace Sys2Proof.Machine

/-! ROTATE_FRAME and ROTATION_LOAD_COMPLETE (R225) -/

theorem frameOf_setFrame (s : State) (f g : Nat) (v : FrameState) : frameOf (setFrame s f v) g = if g = f then v else frameOf s g :=
  mget_mset ..

section
variable {s : State} {f q : Nat}

theorem execRotateFrame_eq (s : State) (f : Nat) : exec (.rotateFrame f) s =
    .next (s.attempt 0x7000 (rotateCheck s f) (fun t => rotateApply t f (t.clk.tick + 2))) := rfl

theorem beginRotation_gives (s : State) (f q block : Nat) (retire : Bool) :
    (beginRotation s f q block retire).rot = some ⟨f, q, 1, block, retire⟩ ∧
      frameOf (beginRotation s f q block retire) q = .loading ∧
      ∀ g, g ≠ q → frameOf (beginRotation s f q block retire) g = frameOf s g :=
  ⟨rfl, (frameOf_setFrame ..).trans (if_pos rfl), fun _ hg => (frameOf_setFrame ..).trans (if_neg hg)⟩

theorem execRotateFrame_begins (hgate : s.gate 0x7000 = 0) (hf : f < 8) (hframe : frameOf s f = .inService)
    (hspare : spareFrame s = some q) (hrot : s.rot = none) (htarg : s.sup.targ = none) (hstage : s.upd.stage ≠ 6) :
    Gives (.rotateFrame f) s (fun t => t.rot = some ⟨f, q, 1, s.clk.tick + 2, false⟩ ∧ frameOf t q = .loading ∧
      t.val 0xFF 0x7000 0x03 = f ∧ (∀ g, g ≠ q → frameOf t g = frameOf s g) ∧ t.rods = s.rods) := by
  have hcheck : rotateCheck s f = 0 := by simp [rotateCheck, hf, hframe, hspare, hrot, htarg, hstage]
  refine ⟨_, exec_takes (execRotateFrame_eq s f) hcheck hgate, ?_⟩
  dsimp only
  rw [rotateApply, hspare]
  obtain ⟨hrot', hload, hothers⟩ := beginRotation_gives s f q (s.clk.tick + 2) false
  exact ⟨hrot', hload, val_put .., hothers, rfl⟩

theorem execRotateFrame_range (hf : 8 ≤ f) : Declines (.rotateFrame f) s Abort.range :=
  declines_of_check (execRotateFrame_eq s f) (by rw [rotateCheck, decide_eq_false (Nat.not_lt.mpr hf)]; rfl) (by decide)

theorem execRotateFrame_conflict (hf : f < 8) (h : frameOf s f ≠ .inService ∨ spareFrame s = none ∨ s.rot.isSome = true) :
    Declines (.rotateFrame f) s Abort.conflict := by
  refine declines_of_check (execRotateFrame_eq s f) ?_ (by decide)
  have hcheck : (decide (frameOf s f = .inService) && (spareFrame s).isSome && s.rot.isNone) = false := by
    rcases h with h | h | h
    · rw [decide_eq_false h]; rfl
    · rw [h]; simp
    · rw [Option.isNone_eq_false_iff.mpr h, Bool.and_false]
  rw [rotateCheck, decide_eq_true hf, hcheck]
  rfl

end

/-! The load of the new Frame's instruction memories -/

/-- The instruction memories of the first `n` Rods of Frame `old` copied to those of Frame `new`. -/
def loadedRods (m : List Host.Cell) (old new n : Nat) : List Host.Cell :=
  (List.range n).foldl (fun m p => copyInstrMemory m (8 * old + p) (8 * new + p)) m

theorem loadedRods_succ (m : List Host.Cell) (old new n : Nat) : loadedRods m old new (n + 1) =
    copyRange (loadedRods m old new n) (rodWindow (8 * old + n) 0x40000) (rodWindow (8 * new + n) 0x40000) 0x10000 := by
  rw [loadedRods, List.range_succ, List.foldl_append, List.foldl_cons, List.foldl_nil, copyInstrMemory_eq]
  rfl

section
variable {m : List Host.Cell} {old new : Nat} (hm : Memory.wf m = true)

include hm in
theorem loadedRods_wf : ∀ n, Memory.wf (loadedRods m old new n) = true
  | 0 => hm
  | n + 1 => by
    rw [loadedRods_succ]
    exact copyRange_wf (loadedRods_wf n)

theorem loadedRods_ne {c : Nat} : ∀ n, (∀ p j, p < n → j < 0x10000 → c ≠ rodWindow (8 * new + p) (0x40000 + j)) →
    memByte (loadedRods m old new n) c = memByte m c
  | 0, _ => rfl
  | n + 1, h => by
    have hout : c < rodWindow (8 * new + n) 0x40000 ∨ rodWindow (8 * new + n) 0x40000 + 0x10000 ≤ c := by
      by_contra hin
      refine h n (c - rodWindow (8 * new + n) 0x40000) (Nat.lt_succ_self n) (by omega) ?_
      unfold rodWindow at *
      omega
    rw [loadedRods_succ, copyRange_ne hout]
    exact loadedRods_ne n fun p j hp => h p j (Nat.lt_succ_of_lt hp)

include hm in
theorem loadedRods_byte {p j : Nat} (hj : j < 0x10000) : ∀ n, n ≤ 8 → p < n →
    memByte (loadedRods m old new n) (rodWindow (8 * new + p) (0x40000 + j)) =
      memByte m (rodWindow (8 * old + p) (0x40000 + j))
  | n + 1, hn, hp => by
    rw [loadedRods_succ]
    rcases Nat.lt_succ_iff_lt_or_eq.mp hp with hp | rfl
    · rw [copyRange_ne (by unfold rodWindow; omega)]
      exact loadedRods_byte hj n (by omega) hp
    · rw [rodWindow_add (8 * new + p), copyRange_byte (loadedRods_wf hm p) hj, ← rodWindow_add]
      exact loadedRods_ne p fun p' j' hp' hj' => by unfold rodWindow; omega

end

section
variable {s : State} {k : Rotation}

theorem execRotationLoadComplete_loads (hrot : s.rot = some k) (hphase : k.phase = 1)
    (hm : Memory.wf s.mem = true) : Gives .rotationLoadComplete s (fun t => t.rot = some { k with phase := 2 } ∧
      (∀ r, t.rod r = if r / 8 = k.new then (s.rod r).healed 0x40000 0x50000 else s.rod r) ∧
      (∀ p j, p < 8 → j < 0x10000 → memByte t.mem (rodWindow (8 * k.new + p) (0x40000 + j)) =
        memByte s.mem (rodWindow (8 * k.old + p) (0x40000 + j))) ∧
      ∀ c, (∀ p j, p < 8 → j < 0x10000 → c ≠ rodWindow (8 * k.new + p) (0x40000 + j)) → memByte t.mem c = memByte s.mem c) := by
  have hexec : exec .rotationLoadComplete s = .next { s with
      rot := some { k with phase := 2 },
      rods := (List.range 8).foldl (fun m p => mset Rod.init m (8 * k.new + p) ((s.rod (8 * k.new + p)).healed 0x40000 0x50000)) s.rods,
      mem := loadedRods s.mem k.old k.new 8 } := by
    change execRotationLoadComplete s = _
    rw [execRotationLoadComplete, hrot]
    dsimp only
    rw [if_pos hphase]
    rfl
  refine ⟨_, hexec, ?_⟩
  dsimp only
  refine ⟨rfl, fun r => ?_, fun p j hp hj => loadedRods_byte hm hj 8 le_rfl hp, fun c => loadedRods_ne (old := k.old) 8⟩
  refine (mget_foldl_mset Rod.init (fun p => (s.rod (8 * k.new + p)).healed 0x40000 0x50000) (8 * k.new) r 8 s.rods).trans ?_
  by_cases hr : r / 8 = k.new
  · rw [if_pos hr, if_pos (by omega), show 8 * k.new + (r - 8 * k.new) = r by omega]
  · rw [if_neg hr, if_neg (by omega)]
    rfl

theorem execRotationLoadComplete_idle (h : s.rot = none ∨ (s.rot = some k ∧ k.phase ≠ 1)) :
    exec .rotationLoadComplete s = .next s := by
  change execRotationLoadComplete s = _
  rw [execRotationLoadComplete]
  rcases h with h | ⟨h, hphase⟩ <;> rw [h]
  · rfl
  · exact congrArg Host.Outcome.next (if_neg hphase)

end

end Sys2Proof.Machine

namespace Sys2Proof.Machine

/-! RETIRE_FRAME (R227) -/

section
variable {s : State} {f q : Nat} {k : Rotation}

theorem execRetireFrame_eq (s : State) (f v : Nat) : exec (.retireFrame f v) s =
    .next (s.attempt (0x7010 + f) (retireFrameCheck s f v) (fun t => retireFrameApply t f v)) := rfl

theorem beingRelieved_none (hrot : s.rot = none) : beingRelieved s f = false := by rw [beingRelieved, hrot]

theorem beingRelieved_some (hrot : s.rot = some k) : beingRelieved s f = decide (k.old = f) := by rw [beingRelieved, hrot]

/-- What remains of the check for a Frame that exists. -/
theorem retireFrameCheck_one (hf : f < 8) : retireFrameCheck s f 1 = firstCode [
    need (decide (frameOf s f ≠ .inService) || beingRelieved s f || withoutFrame s f) Abort.capacity,
    need (decide (frameOf s f ≠ .inService) || beingRelieved s f || s.rot.isNone) Abort.conflict] := by
  rw [retireFrameCheck, indexOk_in hf]
  rfl

/-- The check of a Frame that may be withdrawn while no rotation is in progress. -/
theorem retireFrameCheck_free (hf : f < 8) (hrot : s.rot = none) (hkeeps : withoutFrame s f = true) : retireFrameCheck s f 1 = 0 := by
  rw [retireFrameCheck_one hf, hkeeps, hrot]
  simp

theorem execRetireFrame_rotates (hf : f < 8) (hframe : frameOf s f = .inService) (hrot : s.rot = none)
    (hgate : s.gate (0x7010 + f) = 0) (hkeeps : withoutFrame s f = true) (hspare : spareFrame s = some q) :
    Gives (.retireFrame f 1) s (fun t => t.rot = some ⟨f, q, 1, s.clk.tick + 1, true⟩ ∧ frameOf t q = .loading) := by
  have hcheck := retireFrameCheck_free hf hrot hkeeps
  have happly : retireFrameApply s f 1 = beginRotation s f q (s.clk.tick + 1) true := by
    rw [retireFrameApply, if_neg Nat.one_ne_zero, beingRelieved_none hrot, if_neg Bool.false_ne_true, if_pos hframe, hspare]
  obtain ⟨hrot', hload, -⟩ := beginRotation_gives s f q (s.clk.tick + 1) true
  exact ⟨_, (exec_takes (execRetireFrame_eq s f 1) hcheck hgate).trans (congrArg _ happly), hrot', hload⟩

theorem execRetireFrame_withdraws (hf : f < 8) (hframe : frameOf s f = .inService) (hrot : s.rot = none)
    (hspare : spareFrame s = none) (hkeeps : withoutFrame s f = true) (hgate : s.gate (0x7010 + f) = 0) :
    Gives (.retireFrame f 1) s (fun t => frameOf t f = .retired ∧ ∀ g, g ≠ f → frameOf t g = frameOf s g) := by
  have hcheck := retireFrameCheck_free hf hrot hkeeps
  refine ⟨_, exec_takes (execRetireFrame_eq s f 1) hcheck hgate, ?_⟩
  have hframes : (retireFrameApply s f 1).frames = (setFrame s f .retired).frames := by
    rw [retireFrameApply, if_neg Nat.one_ne_zero, beingRelieved_none hrot, if_neg Bool.false_ne_true, if_pos hframe, hspare]
    refine ((judgeCompute_keeps _).part .frames rfl).trans ?_
    refine (foldl_same (φ := State.frames) (fun t u => ?_) _ _).trans ((rechoose_keeps _).part .frames rfl)
    split
    · exact (moveSlot_keeps ..).part .frames rfl
    · rfl
  have hframe' : ∀ g, frameOf (retireFrameApply s f 1) g = if g = f then .retired else frameOf s g := fun g => by
    rw [← frameOf_setFrame s f g .retired, frameOf, hframes, frameOf]
  exact ⟨(hframe' f).trans (if_pos rfl), fun g hg => (hframe' g).trans (if_neg hg)⟩

theorem execRetireFrame_capacity (hf : f < 8) (hframe : frameOf s f = .inService) (hrot : s.rot = none)
    (hkeeps : withoutFrame s f = false) : Declines (.retireFrame f 1) s Abort.capacity := by
  refine declines_of_check (execRetireFrame_eq s f 1) ?_ (by decide)
  rw [retireFrameCheck_one hf, hkeeps, beingRelieved_none hrot, decide_eq_false (not_not.mpr hframe)]
  rfl

theorem execRetireFrame_relieved (hf : f < 8) (hrot : s.rot = some k) (hold : k.old = f) (hgate : s.gate (0x7010 + f) = 0) :
    Gives (.retireFrame f 1) s (fun t => t = { s with rot := some { k with retire := true } }) := by
  have hrel : beingRelieved s f = true := (beingRelieved_some hrot).trans (decide_eq_true hold)
  have hcheck : retireFrameCheck s f 1 = 0 := by rw [retireFrameCheck_one hf, hrel]; simp
  refine ⟨_, exec_takes (execRetireFrame_eq s f 1) hcheck hgate, ?_⟩
  dsimp only
  rw [retireFrameApply, if_neg Nat.one_ne_zero, hrel, if_pos rfl, hrot]
  rfl

theorem execRetireFrame_conflict (hf : f < 8) (hrot : s.rot = some k) (hold : k.old ≠ f) (hframe : frameOf s f = .inService)
    (hkeeps : withoutFrame s f = true) : Declines (.retireFrame f 1) s Abort.conflict := by
  refine declines_of_check (execRetireFrame_eq s f 1) ?_ (by decide)
  rw [retireFrameCheck_one hf, hkeeps, (beingRelieved_some hrot).trans (decide_eq_false hold), hrot,
    decide_eq_false (not_not.mpr hframe)]
  rfl

theorem execRetireFrame_outOfService (hf : f < 8) (hframe : frameOf s f ≠ .inService) (hrel : beingRelieved s f = false)
    (hgate : s.gate (0x7010 + f) = 0) : Gives (.retireFrame f 1) s (fun t =>
      frameOf t f = .retired ∧ (s.rot = some k → k.new = f → k.phase < 3 → t.rot = none)) := by
  have hcheck : retireFrameCheck s f 1 = 0 := by rw [retireFrameCheck_one hf, decide_eq_true hframe]; rfl
  refine ⟨_, exec_takes (execRetireFrame_eq s f 1) hcheck hgate, ?_⟩
  dsimp only
  rw [retireFrameApply, if_neg Nat.one_ne_zero, hrel, if_neg Bool.false_ne_true, if_neg hframe]
  refine ⟨(frameOf_setFrame ..).trans (if_pos rfl), fun hrot hnew hphase => ?_⟩
  rw [withdrawNew, hrot]
  dsimp only
  rw [if_pos (by rw [decide_eq_true hnew, decide_eq_true hphase]; rfl)]
  rfl

theorem execRetireFrame_zero (hf : f < 8) (hgate : s.gate (0x7010 + f) = 0) : exec (.retireFrame f 0) s = .next s :=
  exec_takes (execRetireFrame_eq s f 0) (by rw [retireFrameCheck, indexOk_in hf]; rfl) hgate

end

/-! A Rod stays retired (R224) -/

section
variable (s : State) (r p u : Nat)

theorem stopSlot_retired (code : Nat) : ((stopSlot s u code).rod p).retired = (s.rod p).retired := by
  rcases stopSlot_rod s p u code with h | ⟨_, h⟩ <;> rw [h]
  rfl

theorem endItem_retired (failed : Bool) : ((endItem s r failed).rod p).retired = (s.rod p).retired := by
  unfold endItem
  dsimp only
  split
  · rfl
  · next it _ =>
    have hitem : ∀ t : State, t.rods = (s.setRod r { s.rod r with item := none, ending := none }).rods →
        (t.rod p).retired = (s.rod p).retired := fun t ht => by
      rw [rod_of_rods ht, rod_setRod]
      split_ifs with hp
      · rw [hp]
      · rfl
    have hcounted : ((if failed = true then
        ((s.setRod r { s.rod r with item := none, ending := none }).bump 0x70C0 0x03 1).raise 49 (r * 256 + it.queue)
          (descBlock it.desc % 2 ^ 32)
        else s.setRod r { s.rod r with item := none, ending := none }).rod p).retired = (s.rod p).retired := by
      refine hitem _ ?_
      split
      · exact raise_rods ..
      · rfl
    split
    · next u' _ => rcases measureItem_rod _ r p u' with h | ⟨_, h⟩ <;> rw [h] <;> exact hcounted
    · exact hcounted

theorem moveSlot_retired : ((moveSlot s u r).rod p).retired = (s.rod p).retired := by
  unfold moveSlot
  split
  · exact congrArg Rod.retired (rod_of_rods ((holdFlow_keeps s u true).part .rods rfl) p)
  · refine (stopSlot_retired _ p u 3).trans ((endItem_retired _ r p true).trans ?_)
    exact congrArg Rod.retired (rod_of_rods ((endMove_keeps s u).part .rods rfl) p)

theorem rechoose_retired : ((rechoose s).rod p).retired = (s.rod p).retired := by
  unfold rechoose
  refine foldl_same (φ := fun t : State => (t.rod p).retired) (fun t e => ?_) _ _
  split
  · rfl
  · exact moveSlot_retired ..

theorem retireRodMoving_retired : ((retireRodMoving s r).rod r).retired = true := by
  have hretired : ((rechoose (retireRodNow s r)).rod r).retired = true := by
    rw [rechoose_retired, retireRodNow, rod_setRod, if_pos rfl]
  have hjudged : ∀ t : State, (t.rod r).retired = true → ((judgeCompute t).rod r).retired = true := fun t ht => by
    rwa [rod_of_rods ((judgeCompute_keeps t).part .rods rfl)]
  unfold retireRodMoving
  dsimp only
  split
  · exact hjudged _ ((moveSlot_retired ..).trans hretired)
  · exact hjudged _ hretired

end

/-! RETIRE_ROD (R227) -/

section
variable {s : State} {r : Nat}

theorem execRetireRod_eq (s : State) (r v : Nat) : exec (.retireRod r v) s =
    .next (s.attempt (0x7040 + r) (retireRodCheck s r v) (fun t => retireRodApply t r v)) := rfl

/-- The render Rods without which a Rod must not be retired. -/
def leastRender (s : State) (r : Nat) : Nat := if (s.rod r).slot.isSome && (slotRod s).isNone then 24 else 25

theorem firstCode_single (code : Nat) : firstCode [code] = code := by
  rw [firstCode, firstCode]
  split_ifs with h
  · exact h.symm
  · rfl

/-- What remains of the check for a Rod that exists. -/
theorem retireRodCheck_one (hr : r < 64) : retireRodCheck s r 1 = need (decide (rodRole s r = 0) ||
    (if isTransform r then decide (7 ≤ transformRods s) else decide (leastRender s r ≤ renderLeft s))) Abort.capacity := by
  have hleast : (if (s.rod r).slot.isSome && (slotRod s).isNone then decide (24 ≤ renderLeft s) else decide (25 ≤ renderLeft s)) =
      decide (leastRender s r ≤ renderLeft s) := by
    unfold leastRender
    split <;> rfl
  rw [retireRodCheck, indexOk_in hr, hleast]
  exact firstCode_single _

theorem execRetireRod_retires (hgate : s.gate (0x7040 + r) = 0) (hcheck : retireRodCheck s r 1 = 0) :
    Gives (.retireRod r 1) s (fun t => (t.rod r).retired = true) :=
  ⟨_, exec_takes (execRetireRod_eq s r 1) hcheck hgate, retireRodMoving_retired s r⟩

theorem execRetireRod_zero (hr : r < 64) (hgate : s.gate (0x7040 + r) = 0) : exec (.retireRod r 0) s = .next s :=
  exec_takes (execRetireRod_eq s r 0) (by rw [retireRodCheck, indexOk_in hr]; rfl) hgate

end

end Sys2Proof.Machine

namespace Sys2Proof.Machine

/-! What the end of a rotation leaves (R195, R225) -/

/-- Two states with the same Rods, slots, moves, flows, entries and memory. -/
structure Settled (s t : State) : Prop where
  rods  : t.rods = s.rods
  slots : t.slots = s.slots
  moves : t.moves = s.moves
  flows : t.tally.flows = s.tally.flows
  dict  : t.dict = s.dict
  mem   : t.mem = s.mem

theorem relieve_flows (s : State) (k : Rotation) : (relieve s k).tally.flows = s.tally.flows := by
  unfold relieve
  dsimp only
  rw [(judgeCompute_keeps _).part .tally rfl, (State.raise_keeps ..).part .tally rfl, (countRotation_keeps _ false).part .tally rfl]
  rfl

theorem settleRotation_flows (s : State) : (settleRotation s).tally.flows = s.tally.flows := by
  unfold settleRotation
  split
  · split
    · exact relieve_flows ..
    · rfl
  · rfl

/-- Judging the compute capacity, and ending a rotation that has nothing left to move. -/
theorem judged_settled (s : State) : Settled s (judgeCompute (settleRotation s)) := by
  have hjudge := judgeCompute_keeps (settleRotation s)
  have hsettle := settleRotation_keeps s
  exact ⟨(hjudge.part .rods rfl).trans (hsettle.part .rods rfl), (hjudge.part .slots rfl).trans (hsettle.part .slots rfl),
    (hjudge.part .moves rfl).trans (hsettle.part .moves rfl),
    (congrArg Tally.flows (hjudge.part .tally rfl)).trans (settleRotation_flows s),
    (hjudge.part .dict rfl).trans (hsettle.part .dict rfl), (hjudge.part .mem rfl).trans (hsettle.part .mem rfl)⟩

/-! Slots, flows and moves -/

theorem slotOfNo_setSlot (s : State) (u : Nat) (v : UserSlot) : slotOfNo (setSlot s u v) u = v := mget_mset_self ..

theorem slotOfNo_congr {s t : State} (h : t.slots = s.slots) (u : Nat) : slotOfNo t u = slotOfNo s u := by
  rw [slotOfNo, slotOfNo, h]

theorem flowOf_congr {s t : State} (h : t.tally.flows = s.tally.flows) (n : Nat) : flowOf t n = flowOf s n := by
  rw [flowOf, flowOf, h]

theorem flowOf_holdFlow (s : State) (u : Nat) (on : Bool) :
    flowOf (holdFlow s u on) (Config.slotFlow u).toNat = { flowOf s (Config.slotFlow u).toNat with hold := on } :=
  mget_mset_self ..

theorem flowOf_pinFlow (s : State) (u r : Nat) : flowOf (pinFlow s u r) (Config.slotFlow u).toNat =
    { flowOf s (Config.slotFlow u).toNat with pinRod := r, pinned := true } :=
  mget_mset_self ..

theorem endMove_moves (s : State) (u : Nat) : mget (64, 64) (endMove s u).moves u = (64, 64) := by
  unfold endMove
  split_ifs with h
  · exact h
  · exact mget_mset_self (64, 64) s.moves u (64, 64)

theorem endMove_flow {s : State} {u : Nat} (h : mget (64, 64) s.moves u ≠ (64, 64)) :
    flowOf (endMove s u) (Config.slotFlow u).toNat = { flowOf s (Config.slotFlow u).toNat with hold := false } := by
  rw [endMove, if_neg h]
  exact flowOf_holdFlow s u false

theorem clearRod_flows (s : State) (r : Nat) : (clearRod s r).tally.flows = s.tally.flows :=
  (congrArg Tally.flows ((endItem_keeps (dropHeld s r) r true).part .tally rfl)).trans rfl

theorem stopSlot_state (s : State) (u code : Nat) : (slotOfNo (stopSlot s u code) u).state = code := by
  have hset : ∀ v : UserSlot, slotOfNo (setSlot (s.mark (s.clk.tick - stageLag 4) 8) u v) u = v := slotOfNo_setSlot _ u
  unfold stopSlot
  dsimp only
  split
  · exact congrArg UserSlot.state (hset _)
  · exact congrArg UserSlot.state (hset _)

/-! USER_SLOT_COPY (R224, R225) -/

section
variable {s : State} {u a b : Nat}

/-- A running slot carried to its new Rod. -/
structure Carried (s t : State) (u a b : Nat) : Prop where
  slot  : (t.rod b).slot = some u
  runs  : (t.rod b).st = .running
  left  : (t.rod a).slot = none
  stops : (t.rod a).st = .stopped
  rod   : (slotOfNo t u).rod = some b
  moves : mget (64, 64) t.moves u = (64, 64)
  hold  : (flowOf t (Config.slotFlow u).toNat).hold = false
  pin   : (flowOf t (Config.slotFlow u).toNat).pinRod = b
  bytes : ∀ j, j < 0x40000 → memByte t.mem (rodWindow b j) = memByte s.mem (rodWindow a j)

theorem Carried.settled {t : State} (h : Carried s t u a b) {t' : State} (hs : Settled t t') : Carried s t' u a b := by
  obtain ⟨slot, runs, left, stops, rod, moves, hold, pin, bytes⟩ := h
  constructor
  · rwa [rod_of_rods hs.rods]
  · rwa [rod_of_rods hs.rods]
  · rwa [rod_of_rods hs.rods]
  · rwa [rod_of_rods hs.rods]
  · rwa [slotOfNo_congr hs.slots]
  · rwa [hs.moves]
  · rwa [flowOf_congr hs.flows]
  · rwa [flowOf_congr hs.flows]
  · rwa [hs.mem]

/-- The data memory that a slot finds on its new Rod. -/
theorem copied_byte {m : List Host.Cell} (hm : Memory.wf m = true) {j : Nat} (hj : j < 0x40000) :
    memByte (copyDataMemory (copyInstrMemory m a b) a b) (rodWindow b j) = memByte m (rodWindow a j) := by
  have hat : ∀ r, rodWindow r j = rodWindow r 0 + j := fun r => by rw [← rodWindow_add, Nat.zero_add]
  rw [copyInstrMemory_eq, copyDataMemory_eq, hat b, copyRange_byte (copyRange_wf hm) hj, ← hat, copyRange_ne]
  unfold rodWindow
  omega

/-- The slot pinned to its new Rod and its move at an end, once both Rods are written. -/
theorem carried_of {v : State} {w : UserSlot} (hslot : (v.rod b).slot = some u) (hruns : (v.rod b).st = .running)
    (hleft : (v.rod a).slot = none) (hstops : (v.rod a).st = .stopped) (hw : w.rod = some b)
    (hmoves : mget (64, 64) v.moves u ≠ (64, 64))
    (hbytes : ∀ j, j < 0x40000 → memByte v.mem (rodWindow b j) = memByte s.mem (rodWindow a j)) :
    Carried s (endMove (pinFlow (setSlot v u w) u b) u) u a b := by
  have hmove := endMove_keeps (pinFlow (setSlot v u w) u b) u
  have hpin := pinFlow_keeps (setSlot v u w) u b
  have hflow := endMove_flow (s := pinFlow (setSlot v u w) u b) hmoves
  rw [flowOf_pinFlow] at hflow
  have hrods : (endMove (pinFlow (setSlot v u w) u b) u).rods = v.rods := (hmove.part .rods rfl).trans (hpin.part .rods rfl)
  have hmem : (endMove (pinFlow (setSlot v u w) u b) u).mem = v.mem := (hmove.part .mem rfl).trans (hpin.part .mem rfl)
  have hslots : (endMove (pinFlow (setSlot v u w) u b) u).slots = (setSlot v u w).slots :=
    (hmove.part .slots rfl).trans (hpin.part .slots rfl)
  constructor
  · rwa [rod_of_rods hrods]
  · rwa [rod_of_rods hrods]
  · rwa [rod_of_rods hrods]
  · rwa [rod_of_rods hrods]
  · rwa [slotOfNo_congr hslots, slotOfNo_setSlot]
  · exact endMove_moves ..
  · rw [hflow]
  · rw [hflow]
  · rwa [hmem]

theorem carrySlot_carried (hmoves : mget (64, 64) s.moves u = (a, b)) (ha : a < 64) (hne : a ≠ b) (hst : (slotOfNo s u).state = 2)
    (hm : Memory.wf s.mem = true) : Carried s (carrySlot s u a b) u a b := by
  have hcleared := clearRod_keeps (noteData s a) b
  have hnoted := noteData_keeps s a
  have hmem : (clearRod (noteData s a) b).mem = s.mem := (hcleared.part .mem rfl).trans (hnoted.part .mem rfl)
  have hmoves' : (clearRod (noteData s a) b).moves = s.moves := (hcleared.part .moves rfl).trans (hnoted.part .moves rfl)
  unfold carrySlot
  rw [hst]
  dsimp only
  rw [if_pos rfl]
  generalize clearRod (noteData s a) b = v at hmem hmoves'
  refine carried_of ?_ ?_ ?_ ?_ rfl ?_ fun j hj => ?_
  · rw [rod_setRod, if_neg hne.symm, rod_setRod, if_pos rfl]
    rfl
  · rw [rod_setRod, if_neg hne.symm, rod_setRod, if_pos rfl]
    rfl
  · rw [rod_setRod, if_pos rfl]
  · rw [rod_setRod, if_pos rfl]
    rfl
  · change mget (64, 64) v.moves u ≠ (64, 64)
    rw [hmoves', hmoves]
    exact fun h => Nat.ne_of_lt ha (congrArg Prod.fst h)
  · rw [← hmem] at hm ⊢
    exact copied_byte hm hj

theorem execUserSlotCopy_eq (s : State) (u : Nat) : exec (.userSlotCopy u) s = .next (copySlot s u) := rfl

theorem execUserSlotCopy_idle (hmoves : mget (64, 64) s.moves u = (64, 64)) : exec (.userSlotCopy u) s = .next s := by
  rw [execUserSlotCopy_eq, copySlot, hmoves]
  rfl

variable (hmoves : mget (64, 64) s.moves u = (a, b)) (ha : a < 64)
include hmoves ha

/-- What remains of a copy for a slot on the move. -/
theorem copySlot_moving : copySlot s u = if (s.rod a).item.isSome then s else if rodRole s b ≠ 1 then moveSlot s u a else
    judgeCompute (settleRotation (if dataLost s a then loseSlot s u a else carrySlot s u a b)) := by
  rw [copySlot, hmoves]
  dsimp only
  rw [decide_eq_false (Nat.ne_of_lt ha), Bool.false_or]

theorem execUserSlotCopy_busy (hitem : (s.rod a).item ≠ none) : exec (.userSlotCopy u) s = .next s := by
  rw [execUserSlotCopy_eq, copySlot_moving hmoves ha, if_pos (Option.isSome_iff_ne_none.mpr hitem)]

variable (hitem : (s.rod a).item = none)
include hitem

theorem execUserSlotCopy_carries (hne : a ≠ b) (hrole : rodRole s b = 1) (hlost : dataLost s a = false)
    (hst : (slotOfNo s u).state = 2) (hm : Memory.wf s.mem = true) :
    Gives (.userSlotCopy u) s (fun t => Carried s t u a b) := by
  refine ⟨_, execUserSlotCopy_eq s u, ?_⟩
  rw [copySlot_moving hmoves ha, hitem, if_neg (by decide), if_neg (not_not.mpr hrole), hlost, if_neg Bool.false_ne_true]
  exact (carrySlot_carried hmoves ha hne hst hm).settled (judged_settled _)

variable (hrole : rodRole s b ≠ 1)
include hrole

theorem copySlot_rechooses : copySlot s u = moveSlot s u a := by
  rw [copySlot_moving hmoves ha, hitem, if_neg (by decide), if_pos hrole]

theorem execUserSlotCopy_rechooses {q : Nat} (hq : slotRod s = some q) : Gives (.userSlotCopy u) s (fun t =>
    mget (64, 64) t.moves u = (a, q) ∧ t.rods = s.rods ∧ t.mem = s.mem) := by
  refine ⟨_, execUserSlotCopy_eq s u, ?_⟩
  rw [copySlot_rechooses hmoves ha hitem hrole, moveSlot, hq]
  exact ⟨mget_mset_self .., rfl, rfl⟩

theorem execUserSlotCopy_stops (hq : slotRod s = none) : Gives (.userSlotCopy u) s (fun t =>
    mget (64, 64) t.moves u = (64, 64) ∧ (slotOfNo t u).state = 3 ∧
      (flowOf t (Config.slotFlow u).toNat).hold = false) := by
  have hmoving : mget (64, 64) s.moves u ≠ (64, 64) := by
    rw [hmoves]
    exact fun h => Nat.ne_of_lt ha (congrArg Prod.fst h)
  refine ⟨_, execUserSlotCopy_eq s u, ?_⟩
  rw [copySlot_rechooses hmoves ha hitem hrole, moveSlot, hq]
  have hstop := stopSlot_keeps (clearRod (endMove s u) a) u 3
  refine ⟨?_, stopSlot_state .., ?_⟩
  · rw [hstop.part .moves rfl, (clearRod_keeps ..).part .moves rfl, endMove_moves]
  · rw [flowOf_congr (congrArg Tally.flows (hstop.part .tally rfl)), flowOf_congr (clearRod_flows ..), endMove_flow hmoving]

end

end Sys2Proof.Machine

namespace Sys2Proof.Machine

/-! SLOT_IMAGE_WRITE (R228, R233, R515) -/

section
variable {s : State} {u : Nat} {i : SlotImage} (hu : u < 16) (hmax : i.length ≤ 393216) (hlen : i.length ≠ 0)
  (hsections : sectionsOk i.sections = true) (hcd : i.cd ≤ 250000) (hbd : i.bd ≤ 262144) (hflag : s.flag (0x7080 + u) 0x02 = false)
include hu hmax hlen hsections hcd hbd hflag

omit hlen in
theorem slotImageCheck_policy : slotImageCheck s u i = need (kernelPolicyOk s i) Abort.signature := by
  rw [slotImageCheck, indexOk_in hu, decide_eq_true hmax, hsections, decide_eq_true hcd, decide_eq_true hbd, hflag]
  exact firstCode_single _

omit hu hsections hcd hbd hmax hflag in
theorem execSlotImageWrite_eq : exec (.slotImageWrite u i) s = .next (signatureRefused
    (s.attempt (0x7080 + u) (slotImageCheck s u i) (fun t => slotImageApply t u i)) (slotImageCheck s u i) (0x7080 + u) 0x01) :=
  congrArg Host.Outcome.next (if_neg fun h => hlen h.2)

theorem execSlotImageWrite_stores (hpolicy : kernelPolicyOk s i = true) (hgate : s.gate (0x7080 + u) = 0) :
    Gives (.slotImageWrite u i) s (fun t =>
      slotOfNo t u = { UserSlot.init with image := some i, state := 1, report := (slotOfNo s u).report } ∧
        entBytes t.dom (0x7080 + u) 0x01 = i.manifest ∧ t.stget 0 (0x7080 + u) 0x05 = i.cd) := by
  have hcheck : slotImageCheck s u i = 0 := by rw [slotImageCheck_policy hu hmax hsections hcd hbd hflag, hpolicy]; rfl
  refine ⟨_, execSlotImageWrite_eq hlen, ?_⟩
  rw [hcheck, signatureRefused, if_neg (by decide), s.attempt_takes _ rfl hgate]
  exact ⟨slotOfNo_setSlot (s.putBytes (0x7080 + u) 0x01 i.manifest) u
    { UserSlot.init with image := some i, state := 1, report := (slotOfNo s u).report }, mget_mset_self .., stget_stset ..⟩

theorem execSlotImageWrite_refused (hpolicy : kernelPolicyOk s i = false) : Gives (.slotImageWrite u i) s (fun t =>
    t.slots = s.slots ∧ t.dom = s.dom ∧ t.stget 0 0x1020 0x0C = Abort.signature ∧
      Raises s t 178 ((0x7080 + u) * 256 + 1)) := by
  have hcheck : slotImageCheck s u i = Abort.signature := by
    rw [slotImageCheck_policy hu hmax hsections hcd hbd hflag, hpolicy]
    rfl
  refine ⟨_, execSlotImageWrite_eq hlen, ?_⟩
  rw [hcheck, signatureRefused, if_pos rfl, s.attempt_refuses _ _ (by decide)]
  have hraise := State.raise_keeps (s.abort Abort.signature) 178 ((0x7080 + u) * 256 + 1) 0
  refine ⟨hraise.part .slots rfl, hraise.part .dom rfl, ?_, (State.raise_raises (s.abort _) ..).of_parts rfl rfl rfl⟩
  rw [State.stget, hraise.part .stat rfl]
  exact stget_stset ..

end

/-! SLOT_ENABLE of an image (R229) -/

section
variable {s : State} {u r : Nat} {i : SlotImage}

theorem execSlotEnable_eq (s : State) (u v : Nat) : exec (.slotEnable u v) s =
    .next (s.attempt (0x7080 + u) (slotEnableCheck s u v) (fun t => slotEnableApply t u v)) := rfl

/-- What remains of the check for a slot that exists and is not enabled. -/
theorem slotEnableCheck_one (hu : u < 16) (hflag : s.flag (0x7080 + u) 0x02 = false) : slotEnableCheck s u 1 = firstCode [
    need (slotOfNo s u).image.isSome Abort.conflict,
    need ((slotRod s).isSome && decide (25 ≤ renderLeft s)) Abort.capacity] := by
  rw [slotEnableCheck, indexOk_in hu, hflag]
  rfl

/-- The image's bytes on the Rod that takes it. -/
theorem loadImage_zero {m : List Host.Cell} (hnone : i.sections = []) {j : Nat} (hj : j < 0x50000) :
    memByte (loadImage m r i) (rodWindow r j) = 0 := by
  rw [loadImage, hnone, List.foldl_nil, memByte_memClear, if_pos (by unfold rodWindow; omega)]

/-- The offset in a Rod's window at which a section is loaded. -/
def sectionOffset (x : ImageSection) : Nat := (if x.instr then 0x40000 else 0) + x.base

theorem loadImage_section {m : List Host.Cell} {x : ImageSection} (hone : i.sections = [x]) :
    (∀ j, j < x.bytes.length → memByte (loadImage m r i) (rodWindow r (sectionOffset x + j)) = x.bytes.getD j 0) ∧
      ∀ j, j < 0x50000 → j < sectionOffset x ∨ sectionOffset x + x.bytes.length ≤ j →
        memByte (loadImage m r i) (rodWindow r j) = 0 := by
  have hload : loadImage m r i =
      memWrite (memClear m (rodWindow r 0) (rodWindow r 0x50000)) (rodWindow r (sectionOffset x)) x.bytes := by
    rw [loadImage, hone]
    rfl
  rw [hload]
  refine ⟨fun j hj => ?_, fun j hj hout => ?_⟩
  · rw [rodWindow_add]
    exact memByte_memWrite _ _ _ j hj
  · rw [memByte_memWrite_ne _ _ _ _ (by unfold rodWindow; omega), memByte_memClear, if_pos (by unfold rodWindow; omega)]

/-- A slot running on the Rod that took it. -/
structure Enabled (s t : State) (u r : Nat) (i : SlotImage) : Prop where
  flag  : t.flag (0x7080 + u) 0x02 = true
  rod   : (slotOfNo t u).rod = some r
  state : (slotOfNo t u).state = 2
  slot  : (t.rod r).slot = some u
  runs  : (t.rod r).st = .running
  pin   : (flowOf t (Config.slotFlow u).toNat).pinRod = r
  mem   : t.mem = loadImage s.mem r i

theorem loadRod_mem (s : State) (u r : Nat) (i : SlotImage) : (loadRod s u r i).mem = loadImage s.mem r i :=
  congrArg (fun m => loadImage m r i) ((clearRod_keeps s r).part .mem rfl)

theorem loadRod_rod (s : State) (u r : Nat) (i : SlotImage) :
    ((loadRod s u r i).rod r).slot = some u ∧ ((loadRod s u r i).rod r).st = .running := by
  unfold loadRod
  dsimp only
  rw [rod_setRod, if_pos rfl]
  exact ⟨rfl, rfl⟩

theorem enabled_of {v : State} {w : UserSlot} (hflag : v.flag (0x7080 + u) 0x02 = true) (hrod : w.rod = some r) (hstate : w.state = 2)
    (hslot : (v.rod r).slot = some u) (hruns : (v.rod r).st = .running) (hmem : v.mem = loadImage s.mem r i) :
    Enabled s (judgeCompute (pinFlow (setSlot v u w) u r)) u r i := by
  have hjudge := judgeCompute_keeps (pinFlow (setSlot v u w) u r)
  have hpin := pinFlow_keeps (setSlot v u w) u r
  have hrods : (judgeCompute (pinFlow (setSlot v u w) u r)).rods = v.rods := (hjudge.part .rods rfl).trans (hpin.part .rods rfl)
  have hslots : (judgeCompute (pinFlow (setSlot v u w) u r)).slots = (setSlot v u w).slots :=
    (hjudge.part .slots rfl).trans (hpin.part .slots rfl)
  have hdict : (judgeCompute (pinFlow (setSlot v u w) u r)).dict = v.dict := (hjudge.part .dict rfl).trans (hpin.part .dict rfl)
  constructor
  · rwa [State.flag, State.val_congr hdict]
  · rwa [slotOfNo_congr hslots, slotOfNo_setSlot]
  · rwa [slotOfNo_congr hslots, slotOfNo_setSlot]
  · rwa [rod_of_rods hrods]
  · rwa [rod_of_rods hrods]
  · rw [flowOf_congr (congrArg Tally.flows (hjudge.part .tally rfl)), flowOf_pinFlow]
  · rw [hjudge.part .mem rfl, hpin.part .mem rfl]
    exact hmem

section
variable (hu : u < 16) (hflag : s.flag (0x7080 + u) 0x02 = false)
include hu hflag

theorem execSlotEnable_enables (himage : (slotOfNo s u).image = some i) (hr : slotRod s = some r) (hleft : 25 ≤ renderLeft s)
    (hgate : s.gate (0x7080 + u) = 0) : Gives (.slotEnable u 1) s (fun t => Enabled s t u r i) := by
  have hcheck : slotEnableCheck s u 1 = 0 := by
    rw [slotEnableCheck_one hu hflag, himage, hr, decide_eq_true hleft]
    rfl
  refine ⟨_, exec_takes (execSlotEnable_eq s u 1) hcheck hgate, ?_⟩
  dsimp only
  let v := qcfgSet (s.put 0 (0x7080 + u) 0x02 1) (48 + u) userQcfg
  have hqcfg := qcfgSet_keeps (s.put 0 (0x7080 + u) 0x02 1) (48 + u) userQcfg
  have hload := loadRod_keeps v u r i
  have hflag' : (loadRod v u r i).flag (0x7080 + u) 0x02 = true := by
    rw [State.flag, State.val_congr ((hload.part .dict rfl).trans (hqcfg.part .dict rfl)), val_put]
    rfl
  have hmem : (loadRod v u r i).mem = loadImage s.mem r i :=
    (loadRod_mem v u r i).trans (congrArg (fun m => loadImage m r i) (hqcfg.part .mem rfl))
  obtain ⟨hslot, hruns⟩ := loadRod_rod v u r i
  rw [slotEnableApply, if_neg Nat.one_ne_zero, hflag, if_neg Bool.false_ne_true, hr, himage]
  exact enabled_of hflag' rfl rfl hslot hruns hmem

theorem execSlotEnable_noImage (himage : (slotOfNo s u).image = none) : Declines (.slotEnable u 1) s Abort.conflict := by
  refine declines_of_check (execSlotEnable_eq s u 1) ?_ (by decide)
  rw [slotEnableCheck_one hu hflag, himage]
  rfl

theorem execSlotEnable_noRod (himage : (slotOfNo s u).image.isSome = true) (h : slotRod s = none ∨ renderLeft s < 25) :
    Declines (.slotEnable u 1) s Abort.capacity := by
  refine declines_of_check (execSlotEnable_eq s u 1) ?_ (by decide)
  have hroom : ((slotRod s).isSome && decide (25 ≤ renderLeft s)) = false := by
    rcases h with h | h
    · rw [h]; rfl
    · rw [decide_eq_false (Nat.not_le.mpr h), Bool.and_false]
  rw [slotEnableCheck_one hu hflag, himage, hroom]
  rfl

end

theorem execSlotEnable_again (hu : u < 16) (hflag : s.flag (0x7080 + u) 0x02 = true) (hgate : s.gate (0x7080 + u) = 0) :
    exec (.slotEnable u 1) s = .next s := by
  refine (exec_takes (execSlotEnable_eq s u 1) ?_ hgate).trans (congrArg Host.Outcome.next ?_)
  · rw [slotEnableCheck, indexOk_in hu, hflag]
    rfl
  · rw [slotEnableApply, if_neg Nat.one_ne_zero, hflag, if_pos rfl]

end

/-! SLOT_ENABLE with 0 (R229, R232) -/

section
variable {s : State} {u r : Nat} {i : SlotImage}

/-- A slot left by its Rod. -/
theorem released_of {v : State} (w : UserSlot) : let t := judgeCompute (settleRotation (endMove (setSlot v u w) u))
    t.rods = v.rods ∧ slotOfNo t u = w ∧ t.dict = v.dict := by
  have hmove := endMove_keeps (setSlot v u w) u
  have hsettled := judged_settled (endMove (setSlot v u w) u)
  refine ⟨hsettled.rods.trans (hmove.part .rods rfl), ?_, hsettled.dict.trans (hmove.part .dict rfl)⟩
  rw [slotOfNo_congr (hsettled.slots.trans (hmove.part .slots rfl)), slotOfNo_setSlot]

theorem flag_cleared {v : State} (h : v.dict = (s.put 0 (0x7080 + u) 0x02 0).dict) : v.flag (0x7080 + u) 0x02 = false := by
  rw [State.flag, State.val_congr h, val_put]
  rfl

variable (hu : u < 16) (hgate : s.gate (0x7080 + u) = 0)
include hu hgate

theorem execSlotEnable_zero : exec (.slotEnable u 0) s = .next (slotEnableApply s u 0) :=
  exec_takes (execSlotEnable_eq s u 0) (by rw [slotEnableCheck, indexOk_in hu]; rfl) hgate

theorem execSlotEnable_idle (hrod : (slotOfNo s u).rod = none) : Gives (.slotEnable u 0) s (fun t =>
    t.flag (0x7080 + u) 0x02 = false ∧ (slotOfNo t u).rod = none ∧
      (slotOfNo t u).state = (if (slotOfNo s u).image.isSome then 1 else 0)) := by
  refine ⟨_, execSlotEnable_zero hu hgate, ?_⟩
  rw [slotEnableApply, if_pos rfl, hrod]
  dsimp only
  obtain ⟨-, hslot, hdict⟩ := released_of (v := s.put 0 (0x7080 + u) 0x02 0) (u := u) { slotOfNo s u with
    state := if (slotOfNo s u).image.isSome then 1 else 0, rod := none, ovs := [] }
  refine ⟨flag_cleared hdict, ?_⟩
  exact ⟨congrArg UserSlot.rod hslot, congrArg UserSlot.state hslot⟩

theorem execSlotEnable_releases (hrod : (slotOfNo s u).rod = some r) (himage : (slotOfNo s u).image = some i) :
    Gives (.slotEnable u 0) s (fun t => t.flag (0x7080 + u) 0x02 = false ∧ (slotOfNo t u).rod = none ∧
      (slotOfNo t u).state = 1 ∧ (t.rod r).slot = none ∧ (t.rod r).st = .stopped) := by
  refine ⟨_, execSlotEnable_zero hu hgate, ?_⟩
  rw [slotEnableApply, if_pos rfl, hrod, himage]
  dsimp only
  have hend := endItem_keeps (s.put 0 (0x7080 + u) 0x02 0) r true
  generalize endItem (s.put 0 (0x7080 + u) 0x02 0) r true = v at hend
  obtain ⟨hrods, hslot, hdict⟩ := released_of (v := v.setRod r { (v.rod r).halted with slot := none, fault := false }) (u := u)
    { slotOfNo (v.setRod r { (v.rod r).halted with slot := none, fault := false }) u with state := 1, rod := none, ovs := [] }
  refine ⟨flag_cleared (hdict.trans (hend.part .dict rfl)), congrArg UserSlot.rod hslot, congrArg UserSlot.state hslot, ?_⟩
  have hrod' := (rod_of_rods hrods r).trans ((rod_setRod ..).trans (if_pos rfl))
  exact ⟨congrArg Rod.slot hrod', congrArg Rod.st hrod'⟩

end

end Sys2Proof.Machine

namespace Sys2Proof.Machine

/-- Settles O56: each command under its conditions. -/
theorem framesAndSlots : Obligations.FramesAndSlots := by
  intro s f q r a b u k i x slot code
  refine ⟨execRotateFrame_begins, execRotateFrame_range, execRotateFrame_conflict,
    fun hrot hphase _ _ _ => execRotationLoadComplete_loads hrot hphase, execRotationLoadComplete_idle,
    fun hmoves ha _ hne => ⟨fun hitem hrole hlost hst hm => ?carries,
      fun hitem hrole => ⟨execUserSlotCopy_rechooses hmoves ha hitem hrole, execUserSlotCopy_stops hmoves ha hitem hrole⟩,
      execUserSlotCopy_busy hmoves ha⟩,
    execUserSlotCopy_idle,
    fun hf hframe hrot => ⟨execRetireFrame_rotates hf hframe hrot, execRetireFrame_withdraws hf hframe hrot,
      execRetireFrame_capacity hf hframe hrot⟩,
    fun hf hrot => ⟨execRetireFrame_relieved hf hrot, execRetireFrame_conflict hf hrot⟩,
    execRetireFrame_outOfService, execRetireFrame_zero,
    fun hr hgate hrole => execRetireRod_retires hgate ?idleRod,
    fun hr hrole => ⟨fun hgate htransform hrender => execRetireRod_retires hgate ?spared, fun htransform hfew => ?transform,
      fun hrender hfew => ?render, execRetireRod_zero hr⟩,
    fun hu hmax hlen hsections hcd hbd hflag => ⟨execSlotImageWrite_stores hu hmax hlen hsections hcd hbd hflag,
      execSlotImageWrite_refused hu hmax hlen hsections hcd hbd hflag⟩,
    fun hu hflag => ⟨fun himage hr hleft hgate => ?enables, execSlotEnable_noImage hu hflag, execSlotEnable_noRod hu hflag⟩,
    execSlotEnable_again, execSlotEnable_idle, execSlotEnable_releases⟩
  case carries =>
    exact (execUserSlotCopy_carries hmoves ha hitem hne hrole hlost hst hm).mono fun t h =>
      ⟨h.slot, h.runs, h.left, h.stops, h.rod, h.moves, h.hold, h.pin, h.bytes⟩
  case idleRod => rw [retireRodCheck_one hr, decide_eq_true hrole]; rfl
  case spared =>
    rw [retireRodCheck_one hr]
    cases hkind : isTransform r
    · rw [if_neg Bool.false_ne_true, decide_eq_true (show leastRender s r ≤ _ from hrender hkind), Bool.or_true]; rfl
    · rw [if_pos rfl, decide_eq_true (htransform hkind), Bool.or_true]; rfl
  case transform =>
    refine declines_of_check (execRetireRod_eq s r 1) ?_ (by decide)
    rw [retireRodCheck_one hr, htransform, if_pos rfl, decide_eq_false hrole, decide_eq_false (Nat.not_le.mpr hfew)]
    rfl
  case render =>
    refine declines_of_check (execRetireRod_eq s r 1) ?_ (by decide)
    rw [retireRodCheck_one hr, hrender, if_neg Bool.false_ne_true, decide_eq_false hrole,
      decide_eq_false (show ¬ leastRender s r ≤ _ from Nat.not_le.mpr hfew)]
    rfl
  case enables =>
    refine (execSlotEnable_enables hu hflag himage hr hleft hgate).mono fun t h => ⟨h.flag, h.rod, h.state, h.slot, h.runs, h.pin,
      fun hnone j hj => ?_, fun hone _ => ?_⟩
    · rw [h.mem]
      exact loadImage_zero hnone hj
    · rw [h.mem]
      exact loadImage_section hone

end Sys2Proof.Machine

namespace Sys2Proof.Machine

/-! What the Tally's tables read as beside what was written -/

theorem queue_congr {s t : State} (h : t.tally.queues = s.tally.queues) (n : Nat) : t.queue n = s.queue n := by
  rw [State.queue, State.queue, h]

/-! FLOW_WRITE and TALLY_EXCL_WRITE (R239, R245, R246) -/

theorem flowOf_flowWrite (s : State) (n v k : Nat) :
    flowOf (flowWrite s n v) k = if k = n then Flow.mk (bitsOf v 5 0) (bitOf v 6) (bitOf v 7) else flowOf s k := mget_mset ..

section
variable {s : State} {r k qn : Nat} {it : Item}

/-- An item of a held flow is eligible for no Rod. -/
theorem eligible_of_hold (hflow : descF it.desc = true) (hhold : (flowOf s (descFlow it.desc)).hold = true) :
    eligible s r k qn it = false := by
  simp [eligible, hflow, hhold]

/-- No item is eligible for an excluded Rod. -/
theorem eligible_of_excluded (h : bitOf s.tally.excl.toNat r = true) : eligible s r k qn it = false := by
  rw [eligible, h, Bool.not_true, Bool.and_false, Bool.false_and]

end

/-- Settles O28: the two tables after the write, and the conjunct of `eligible` that each decides. -/
theorem flowsAndExclusion : Obligations.FlowsAndExclusion := by
  intro s n v hv
  refine ⟨fun hn => ⟨flowWrite s n v, congrArg Host.Outcome.next (if_pos hn), ?flow⟩, exclWrite s v, rfl, ?excl⟩
  case flow =>
    have hself : flowOf (flowWrite s n v) n = Machine.Flow.mk (v % 64) (bitOf v 6) (bitOf v 7) := by
      rw [flowOf_flowWrite, if_pos rfl, bitsOf, Nat.pow_zero, Nat.div_one]
      rfl
    refine ⟨hself, fun k hk => (flowOf_flowWrite s n v k).trans (if_neg hk), fun q => rfl, fun hhold r k qn it hf hn => ?_⟩
    refine eligible_of_hold hf ?_
    rw [hn, hself]
    exact hhold
  case excl =>
    have hmask : v % 2 ^ 64 = v := Nat.mod_eq_of_lt hv
    refine ⟨rfl, ?_, fun q => rfl, fun k => rfl, fun r k qn it hbit => eligible_of_excluded ?_⟩
    · rw [exclWrite, stget_stset, hmask]
    · change bitOf (v % 2 ^ 64) r = true
      rw [hmask]
      exact hbit

end Sys2Proof.Machine

namespace Sys2Proof.Machine

/-! A 32-bit word written to registers (R15, R255) -/

theorem leNat_leBytes : ∀ {n v : Nat}, v < 256 ^ n → leNat (leBytes n v) = v
  | 0, v, h => (Nat.lt_one_iff.mp h).symm
  | n + 1, v, h => by
    have hrest : leNat (leBytes n (v / 256)) = v / 256 := leNat_leBytes (Nat.div_lt_of_lt_mul (by rwa [Nat.mul_comm, ← Nat.pow_succ]))
    rw [leBytes, leNat, hrest, BitVec.toNat_ofNat]
    omega

/-- The write of the word at `a` by master `m`. -/
def wordWrite (m a v : Nat) : BeamReq := BeamReq.mk m a true 4 (leBytes 4 v) [true, true, true, true] false false

theorem regBurst_word (s : State) {a v : Nat} (ha : a % 4 = 0) (hv : v < 2 ^ 32) :
    regBurst s a (leBytes 4 v) [true, true, true, true] = regWrite s a v := by
  have hwords : (a + 4 + 3) / 4 - a / 4 = 1 := by omega
  have hword : (a / 4 + 0) * 4 = a := by omega
  have hdata : leNat (slice (leBytes 4 v) (a - a) 4) = v := by
    rw [Nat.sub_self]
    exact leNat_leBytes (n := 4) (Nat.lt_of_lt_of_le hv (by decide))
  have hstrobe : (List.range 4).all (fun i => decide (a ≤ a + i) && [true, true, true, true].getD (a + i - a) false) = true := by
    refine List.all_eq_true.mpr fun i hi => ?_
    rw [decide_eq_true (Nat.le_add_right a i), Nat.add_sub_cancel_left, Bool.true_and]
    revert i
    decide
  unfold regBurst
  rw [leBytes_length, hwords, List.range_one, List.map_singleton, hword, List.foldl_cons, List.foldl_nil, if_pos hstrobe, hdata]

/-- A word that is one register's: of the slow buses, of the Tally beside its PUT windows, or of the control registers of a Rod. -/
def RegisterAt (a : Nat) : Prop :=
  (0x40000000 ≤ a ∧ a < 0x60000000) ∨ (0x20000000 ≤ a ∧ a < 0x20044000 ∧ (a < 0x20040000 → 0x20 ≤ a % 0x1000)) ∨
    (0x10000000 ≤ a ∧ a < 0x12000000 ∧ 0x70000 ≤ a % 0x80000)

theorem writeBurst_register (s : State) (m : Nat) {a v : Nat} (hreg : RegisterAt a) (ha : a % 4 = 0) (hv : v < 2 ^ 32) :
    writeBurst s m a (leBytes 4 v) [true, true, true, true] = (regWrite s a v, .done) := by
  have hledger : inLedger a = false := decide_eq_false (by unfold RegisterAt at hreg; omega)
  have hdram : inDram a = false := decide_eq_false (by unfold RegisterAt at hreg; unfold dramBase; omega)
  have hrod : ¬ (0x10000000 ≤ a ∧ a < 0x12000000 ∧ rodMemory ((a - 0x10000000) % 0x80000) = true) := by
    rintro ⟨hlo, hhi, hmemory⟩
    have := of_decide_eq_true hmemory
    unfold RegisterAt at hreg
    omega
  have hwindow : ¬ (0x20000000 ≤ a ∧ a < 0x20040000 ∧ a % 0x1000 < 0x20) := by unfold RegisterAt at hreg; omega
  have hpurge : ¬ (a = 0x20043000 ∧ (leBytes 4 v).length = 8 ∧ [true, true, true, true].all (fun b => b) = true) := by
    rw [leBytes_length]
    omega
  have hreckoner : ¬ (0x60000000 ≤ a ∧ a < 0x70000000) := by unfold RegisterAt at hreg; omega
  unfold writeBurst
  rw [hledger, hdram, if_neg Bool.false_ne_true, if_neg Bool.false_ne_true, if_neg hrod, if_neg hwindow, if_neg hpurge,
    if_neg hreckoner, regBurst_word s ha hv]

theorem burstOk_wordWrite {m a : Nat} (hm : m < 32) (ha : a % 4 = 0) (v : Nat) : burstOk (wordWrite m a v) = true := by
  have hfits : a % 256 + 4 ≤ 256 := by omega
  simp [burstOk, wordWrite, leBytes_length, hm, hfits]

section
variable {s : State} {m a v x : Nat} (ha : a % 4 = 0) (hx : targetOf a = some x)
include ha hx

theorem single_wordWrite_served (h : Served s m x) (hreg : RegisterAt a) (hv : v < 2 ^ 32) :
    single s (wordWrite m a v) = regWrite { s with beam := beamAfter s m x } a v := by
  rw [single_served s (wordWrite m a v) x h (burstOk_wordWrite h.issues.1 ha v) hx rfl rfl]
  exact congrArg Prod.fst (writeBurst_register _ m hreg ha hv)

theorem single_wordWrite_waits (h : Waits s m x) : single s (wordWrite m a v) = s.asking (wordWrite m a v) :=
  single_waits s (wordWrite m a v) x h (burstOk_wordWrite h.issues.1 ha v) hx rfl rfl

end

/-- A word to an unmapped address, or of a barred pair, is refused (R254, R257, R260). -/
theorem single_wordWrite_refused {s : State} {m a : Nat} (hm : m < 32) (hfence : masterFenced s m = false)
    (halone : s.beam.waiting = []) (ha : a % 4 = 0) (v : Nat) {cause : Nat} (hcause : requestError s (wordWrite m a v) = cause)
    (hne : cause ≠ 0) : single s (wordWrite m a v) = beamError s m a cause := by
  subst hcause
  rw [single_refused s (wordWrite m a v) (burstOk_wordWrite hm ha v) hfence halone hne]
  rfl

theorem requestError_unmapped {s : State} {q : BeamReq} (h : targetOf q.addr = none) : requestError s q = 1 := by
  rw [requestError, h]

theorem requestError_barred {s : State} {q : BeamReq} {x : Nat} (hx : targetOf q.addr = some x) (h : pairPri s q.master x = 0) :
    requestError s q = 2 := by
  rw [requestError, hx]
  exact if_pos h

end Sys2Proof.Machine

namespace Sys2Proof.Machine

/-! QCFG_WRITE (R234, R236) -/

/-- The address of QCFG of queue `q`. -/
def qcfgAt (q : Nat) : Nat := 0x20000000 + q * 0x1000 + 0x40

theorem targetOf_tally {a : Nat} (hlo : 0x20000000 ≤ a) (hhi : a < 0x20044000) : targetOf a = some 14 := by
  unfold targetOf
  rw [if_neg (by omega), if_neg (by omega), if_pos ⟨hlo, hhi⟩]

theorem regWrite_tally (s : State) {a : Nat} (hlo : 0x20000000 ≤ a) (hhi : a < 0x20044000) (v : Nat) :
    regWrite s a v = tallyRegWrite s a v := by
  unfold regWrite
  rw [if_neg (by omega), if_pos ⟨hlo, hhi⟩]

section
variable {s : State} {m q v : Nat}

/-- The queue takes the fields where the sum of capacities allows it and no item is there to be changed under. -/
theorem qcfgSet_fits (h : otherCaps s q + ({ s.queue q with cfg := qcfgMask v } : Queue).cap ≤ 4096 ∧
    ((s.queue q).items = [] ∨ qcfgMask v = (s.queue q).cfg)) :
    qcfgSet s q v = s.setQueue q { s.queue q with cfg := qcfgMask v } := by
  refine if_neg ?_
  rw [decide_eq_false (Nat.not_lt.mpr h.1), Bool.false_or]
  rcases h.2 with hempty | hsame
  · rw [hempty]
    exact Bool.false_ne_true
  · rw [decide_eq_false (not_not.mpr hsame), Bool.and_false]
    exact Bool.false_ne_true

theorem qcfgSet_breaks (h : ¬ (otherCaps s q + ({ s.queue q with cfg := qcfgMask v } : Queue).cap ≤ 4096 ∧
    ((s.queue q).items = [] ∨ qcfgMask v = (s.queue q).cfg))) : qcfgSet s q v = s.bump 0x70C0 0x06 1 := by
  refine if_pos ?_
  rw [Bool.or_eq_true, Bool.and_eq_true, decide_eq_true_eq, decide_eq_true_eq, Bool.not_eq_true', List.isEmpty_eq_false_iff]
  by_contra hnot
  rw [not_or, Nat.not_lt, not_and_or, not_not, not_not] at hnot
  exact h hnot

theorem regWrite_qcfg (hq : q < 64) : regWrite s (qcfgAt q) v = if q < 48 then qcfgSet s q v else s := by
  have hqueue : (qcfgAt q - 0x20000000) / 0x1000 = q := by unfold qcfgAt; omega
  have hfield : qcfgAt q % 0x1000 = 0x40 := by unfold qcfgAt; omega
  rw [regWrite_tally s (by unfold qcfgAt; omega) (by unfold qcfgAt; omega), tallyRegWrite, if_pos (by unfold qcfgAt; omega)]
  simp only [hqueue, hfield, true_and]

variable (hq : q < 64)
include hq

theorem execQcfgWrite_eq : exec (.qcfgWrite m q v) s = .next (single s (wordWrite m (qcfgAt q) v)) :=
  congrArg Host.Outcome.next (if_pos hq)

theorem targetOf_qcfgAt : targetOf (qcfgAt q) = some 14 := targetOf_tally (by unfold qcfgAt; omega) (by unfold qcfgAt; omega)

theorem execQcfgWrite_served (h : Served s m 14) (hv : v < 2 ^ 32) : exec (.qcfgWrite m q v) s =
    .next (if q < 48 then qcfgSet { s with beam := beamAfter s m 14 } q v else { s with beam := beamAfter s m 14 }) := by
  have hreg : RegisterAt (qcfgAt q) := Or.inr (Or.inl (by unfold qcfgAt; omega))
  rw [execQcfgWrite_eq hq, single_wordWrite_served (by unfold qcfgAt; omega) (targetOf_qcfgAt hq) h hreg hv, regWrite_qcfg hq]

end

/-- Settles O25: the write is one register's, and `qcfgSet` decides it by the sum and the items. -/
theorem queueConfiguration : Obligations.QueueConfiguration := by
  intro s m q v hq hv
  refine ⟨fun h => ⟨fun hkernel hfits => ?takes, fun hkernel hfits => ?counts, fun huser => ?user⟩, fun h => ?waits,
    fun hm hfence halone hbar => ?barred⟩
  case takes =>
    refine ⟨_, (execQcfgWrite_served hq h hv).trans (congrArg Host.Outcome.next ((if_pos hkernel).trans (qcfgSet_fits hfits))), ?_⟩
    exact ⟨(queue_setQueue ..).trans (if_pos rfl), fun p hp => (queue_setQueue ..).trans (if_neg hp), rfl, rfl⟩
  case counts =>
    refine ⟨_, (execQcfgWrite_served hq h hv).trans (congrArg Host.Outcome.next ((if_pos hkernel).trans (qcfgSet_breaks hfits))), ?_⟩
    exact ⟨rfl, State.bump_counts { s with beam := beamAfter s m 14 } 0x70C0 0x06 1, rfl⟩
  case user =>
    exact ⟨_, (execQcfgWrite_served hq h hv).trans (congrArg Host.Outcome.next (if_neg (Nat.not_lt.mpr huser))), rfl⟩
  case waits =>
    refine ⟨_, execQcfgWrite_eq hq, ?_⟩
    exact single_wordWrite_waits (by unfold qcfgAt; omega) (targetOf_qcfgAt hq) h
  case barred =>
    refine ⟨_, execQcfgWrite_eq hq, ?_⟩
    rw [single_wordWrite_refused hm hfence halone (by unfold qcfgAt; omega) v
      (requestError_barred (q := wordWrite m (qcfgAt q) v) (targetOf_qcfgAt hq) hbar) (by decide)]
    dsimp only
    rw [beamError_beam]
    exact ⟨(beamError_keeps ..).part .tally rfl, rfl, rfl, rfl⟩

end Sys2Proof.Machine

namespace Sys2Proof.Machine

/-! REGISTER_WRITE (R15, R28, R74, R239, R259, R260) -/

theorem execRegisterWrite_eq (s : State) (m : Nat) {a : Nat} (ha : a % 4 = 0) (v : Nat) :
    exec (.registerWrite m a v) s = .next (single s (wordWrite m a v)) := by
  have hword : a / 4 * 4 = a := by omega
  change Host.Outcome.next (single s (wordWrite m (a / 4 * 4) v)) = _
  rw [hword]

theorem execRegisterWrite_served {s : State} {m a v x : Nat} (ha : a % 4 = 0) (hx : targetOf a = some x) (h : Served s m x)
    (hreg : RegisterAt a) (hv : v < 2 ^ 32) :
    exec (.registerWrite m a v) s = .next (regWrite { s with beam := beamAfter s m x } a v) := by
  rw [execRegisterWrite_eq s m ha, single_wordWrite_served ha hx h hreg hv]

/-! Take lists (R239) -/

theorem takeList_lt (s : State) (k : Nat) : takeList s k < 2 ^ 64 := (mget 0#64 s.tally.lists k).isLt

/-- The address of a half of take list `k`. -/
def takeListAt (k : Nat) (high : Bool) : Nat := 0x20042000 + 8 * k + (if high then 4 else 0)

theorem takeList_regWrite (s : State) {k : Nat} (hk : k < 128) (high : Bool) (v j : Nat) :
    takeList (regWrite s (takeListAt k high) v) j =
      if j = k then halfWrite (takeList s k) v high % 2 ^ 64 else takeList s j := by
  have hat : 0x20042000 ≤ takeListAt k high ∧ takeListAt k high < 0x20042400 := by unfold takeListAt; split <;> omega
  have hlist : (takeListAt k high - 0x20042000) / 8 = k := by unfold takeListAt; split <;> omega
  have hhalf : decide (takeListAt k high % 8 = 4) = high := by
    cases high
    · exact decide_eq_false (by unfold takeListAt; rw [if_neg Bool.false_ne_true]; omega)
    · exact decide_eq_true (by unfold takeListAt; rw [if_pos rfl]; omega)
  rw [regWrite_tally s (by omega) (by omega), tallyRegWrite, if_neg (by omega), if_neg (by omega), if_pos hat, hlist, hhalf]
  unfold takeList
  dsimp only
  rw [mget_mset]
  split
  · exact BitVec.toNat_ofNat ..
  · rfl

theorem halfWrite_low {old v : Nat} (hold : old < 2 ^ 64) (hv : v < 2 ^ 32) :
    halfWrite old v false % 2 ^ 64 = old / 2 ^ 32 * 2 ^ 32 + v := by
  rw [halfWrite, if_neg Bool.false_ne_true]
  omega

theorem halfWrite_high {old v : Nat} (hv : v < 2 ^ 32) :
    halfWrite old v true % 2 ^ 64 = old % 2 ^ 32 + v * 2 ^ 32 := by
  rw [halfWrite, if_pos rfl]
  omega

section
variable {s : State} {m k v : Nat}

/-- A half of a take list takes the value and leaves the other half, and every other list. -/
theorem execRegisterWrite_takeList (h : Served s m 14) (hk : k < 128) (hv : v < 2 ^ 32) (high : Bool) :
    Gives (.registerWrite m (takeListAt k high) v) s (fun t =>
      takeList t k = halfWrite (takeList s k) v high % 2 ^ 64 ∧ ∀ j, j ≠ k → takeList t j = takeList s j) := by
  have hat : takeListAt k high % 4 = 0 ∧ 0x20042000 ≤ takeListAt k high ∧ takeListAt k high < 0x20042400 := by
    unfold takeListAt; split <;> omega
  obtain ⟨hword, hlo, hhi⟩ := hat
  refine ⟨_, execRegisterWrite_served hword (targetOf_tally (by omega) (by omega)) h (Or.inr (Or.inl (by omega))) hv, ?_⟩
  dsimp only
  exact ⟨(takeList_regWrite _ hk high v k).trans (if_pos rfl), fun j hj => (takeList_regWrite _ hk high v j).trans (if_neg hj)⟩

/-- A word of the Reckoner's own space. -/
theorem execRegisterWrite_reckoner {a : Nat} (h : Served s m 24) (hlo : 0x60000000 ≤ a) (hhi : a < 0x70000000) (ha : a % 4 = 0) :
    Gives (.registerWrite m a v) s (fun t => t.mem = memWrite s.mem a (leBytes 4 v)) := by
  have hx : targetOf a = some 24 := by
    unfold targetOf
    rw [if_neg (by omega), if_neg (by omega), if_neg (by omega), if_neg (by omega), if_neg (by omega), if_neg (by omega),
      if_pos ⟨hlo, hhi⟩]
  have hledger : inLedger a = false := decide_eq_false (by omega)
  have hdram : inDram a = false := decide_eq_false (by unfold dramBase; omega)
  refine ⟨_, execRegisterWrite_eq s m ha v, ?_⟩
  rw [single_served s (wordWrite m a v) 24 h (burstOk_wordWrite h.issues.1 ha v) hx rfl rfl]
  change (writeBurst { s with beam := beamAfter s m 24 } m a (leBytes 4 v) [true, true, true, true]).1.mem = _
  unfold writeBurst
  rw [hledger, hdram, if_neg Bool.false_ne_true, if_neg Bool.false_ne_true, if_neg (by omega), if_neg (by omega),
    if_neg (by omega), if_pos ⟨hlo, hhi⟩]
  exact memStrobe_whole (leBytes 4 v) s.mem a

/-- An error response is recorded and counted, and changes no unit. -/
theorem beamError_gives (s : State) (m addr cause : Nat) : let t := beamError s m addr cause
    t.beam = { s.beam with errAddr := addr % 2 ^ 40, errMas := m, errCau := cause, errVal := true } ∧ t.mem = s.mem ∧
      t.clk = s.clk ∧ t.rods = s.rods ∧ t.tally = s.tally ∧
      t.stget 0 0x70E0 0x01 = min (s.stget 0 0x70E0 0x01 + 1) (2 ^ 32 - 1) := by
  have hkeeps := beamError_keeps s m addr cause
  refine ⟨beamError_beam .., hkeeps.part .mem rfl, hkeeps.part .clk rfl, hkeeps.part .rods rfl, hkeeps.part .tally rfl, ?_⟩
  rw [beamError, State.raise_stget, State.stget_stset_ne _ _ _ _ (by decide)]
  exact State.stget_bump_self ..

end

/-- Settles O29: the word granted is `regWrite`'s, or the own space's, and one refused is recorded. -/
theorem beamRegisterWrites : Obligations.BeamRegisterWrites := by
  intro s m v hv
  refine ⟨fun h => ⟨?carry, ?lockTo⟩, fun a x ha hreg hx h => ?table, fun h k hk => ⟨?low, ?high⟩,
    fun h a hlo hhi ha => ?reckoner, fun a x ha hx h => ?waits, fun a cause hm hfence halone ha hcause => ?refused, _, rfl, rfl⟩
  case carry =>
    exact ⟨_, execRegisterWrite_served (by decide) rfl h (Or.inl (by decide)) hv, rfl, rfl, rfl⟩
  case lockTo =>
    exact ⟨_, execRegisterWrite_served (by decide) rfl h (Or.inl (by decide)) hv, rfl, rfl, rfl⟩
  case table =>
    exact ⟨_, execRegisterWrite_served ha hx h (by unfold RegisterAt; omega) hv, rfl⟩
  case low =>
    refine (execRegisterWrite_takeList h hk hv false).mono fun t ht => ?_
    rwa [halfWrite_low (takeList_lt s k) hv] at ht
  case high =>
    have hat : 0x20042004 + 8 * k = takeListAt k true := by unfold takeListAt; rw [if_pos rfl]; omega
    rw [hat]
    refine (execRegisterWrite_takeList h hk hv true).mono fun t ht => ?_
    rwa [halfWrite_high hv] at ht
  case reckoner =>
    refine (execRegisterWrite_reckoner h hlo hhi ha).mono fun t ht => ?_
    rw [ht]
    refine ⟨fun i hi => ?_, fun b hb => memByte_memWrite_ne _ _ _ _ (by rwa [leBytes_length])⟩
    rw [memByte_memWrite _ _ _ _ (by rwa [leBytes_length]), leBytes_getD 4 i v hi, Nat.pow_mul]
  case waits =>
    refine ⟨_, execRegisterWrite_eq s m ha v, ?_⟩
    exact single_wordWrite_waits ha hx h
  case refused =>
    have herror : requestError s (wordWrite m a v) = cause := by
      rcases hcause with ⟨hnone, rfl⟩ | ⟨x, hx, hbar, rfl⟩
      · exact requestError_unmapped hnone
      · exact requestError_barred hx hbar
    have hne : cause ≠ 0 := by rcases hcause with ⟨-, rfl⟩ | ⟨-, -, -, rfl⟩ <;> decide
    refine ⟨_, execRegisterWrite_eq s m ha v, ?_⟩
    rw [single_wordWrite_refused hm hfence halone ha v herror hne]
    exact beamError_gives s m a cause

end Sys2Proof.Machine

namespace Sys2Proof.Machine

/-! The Tally's answer to a PUT (R238, R247 to R249) -/

theorem releasedAt_eq (q : Queue) (d : List Byte) (k : Nat) :
    releasedAt q d k = decide (q.trel = false ∨ descBlock d + q.relOfs ≤ k) := by
  unfold releasedAt
  cases q.trel <;> simp

section
variable {s : State} {qn who : Nat} {d : List Byte}

theorem tallyPut_accepted (hok : descOk d = true) (hroom : (s.queue qn).items.length < (s.queue qn).cap)
    (hnone : (s.queue qn).held = []) : tallyPut s qn who d = (accept s qn d, .accepted) := by
  rw [tallyPut, hok, hnone, decide_eq_true hroom, if_neg (Nat.ne_of_gt (Nat.zero_lt_of_lt hroom))]
  rfl

theorem tallyPut_held (hok : descOk d = true) (hcap : 0 < (s.queue qn).cap)
    (hfull : (s.queue qn).cap ≤ (s.queue qn).items.length ∨ (s.queue qn).held ≠ []) : tallyPut s qn who d =
      (s.setQueue qn { s.queue qn with held := (s.queue qn).held ++ [Producer.mk who d false] }, .held) := by
  have hwait : (decide ((s.queue qn).items.length < (s.queue qn).cap) && (s.queue qn).held.isEmpty) = false := by
    rcases hfull with hfull | hheld
    · rw [decide_eq_false (Nat.not_lt.mpr hfull), Bool.false_and]
    · rw [List.isEmpty_eq_false_iff.mpr hheld, Bool.and_false]
  rw [tallyPut, hok, if_neg (Nat.ne_of_gt hcap), hwait]
  rfl

/-- A PUT refused counts in 70C0:06 and leaves the queues. -/
theorem tallyPut_refused (h : descOk d = false ∨ (s.queue qn).cap = 0) : ∃ u, tallyPut s qn who d = (u, .refused) ∧
    u.tally = s.tally ∧ u.stget 0 0x70C0 0x06 = min (s.stget 0 0x70C0 0x06 + 1) (2 ^ 32 - 1) := by
  have hraised : ((s.bump 0x70C0 0x06 1).raise 48 qn 0).tally = s.tally := (State.raise_keeps ..).part .tally rfl
  have hcounted : ((s.bump 0x70C0 0x06 1).raise 48 qn 0).stget 0 0x70C0 0x06 = min (s.stget 0 0x70C0 0x06 + 1) (2 ^ 32 - 1) := by
    rw [State.raise_stget, State.stget_bump_self]
  cases hok : descOk d with
  | false => exact ⟨_, by rw [tallyPut, hok]; rfl, hraised, hcounted⟩
  | true =>
    have hcap := h.resolve_left (by rw [hok]; nofun)
    refine ⟨if who < 64 then (s.bump 0x70C0 0x06 1).raise 48 qn 0 else s.bump 0x70C0 0x06 1, ?_, ?_, ?_⟩
    · rw [tallyPut, hok]
      exact if_pos hcap
    · split
      · exact hraised
      · rfl
    · split
      · exact hcounted
      · exact State.stget_bump_self ..

end

/-! PUT_WINDOW_WRITE (R247 to R250, R256) -/

/-- The address of offset `ofs` of the PUT window of queue `qn`. -/
def putAt (qn ofs : Nat) : Nat := 0x20000000 + qn * 0x1000 + ofs

theorem targetOf_putAt {qn ofs : Nat} (hq : qn < 64) (hofs : ofs < 0x20) : targetOf (putAt qn ofs) = some 14 :=
  targetOf_tally (by unfold putAt; omega) (by unfold putAt; omega)

section
variable {s : State} {m qn ofs : Nat} {d : List Byte}

theorem putWindow_malformed (hpri : pairPri s m 14 ≠ 0) (h : ofs ≠ 0 ∨ d.length ≠ 32) :
    (putWindow s m qn ofs d).1 = beamError s m (putAt qn ofs) 5 := by
  have hbad : (decide (ofs ≠ 0) || decide (d.length ≠ 32)) = true := by
    rw [Bool.or_eq_true, decide_eq_true_eq, decide_eq_true_eq]
    exact h
  unfold putWindow
  dsimp only
  rw [if_neg hpri, if_pos hbad]
  rfl

theorem putWindow_whole (hpri : pairPri s m 14 ≠ 0) (hlen : d.length = 32) {u : State} {a : PutAnswer}
    (hput : tallyPut s qn (64 + m) d = (u, a)) :
    (putWindow s m qn 0 d).1 = if a = .refused then beamError u m (putAt qn 0) 5 else u := by
  unfold putWindow
  dsimp only
  rw [if_neg hpri, hlen, if_neg (by decide), hput]
  cases a <;> rfl

theorem writeBurst_window (hq : qn < 64) (hofs : ofs < 0x20) : writeBurst s m (putAt qn ofs) d (List.replicate d.length true) =
    ((putWindow s m qn ofs d).1, (putWindow s m qn ofs d).2.ends) := by
  have hledger : inLedger (putAt qn ofs) = false := decide_eq_false (by unfold putAt; omega)
  have hdram : inDram (putAt qn ofs) = false := decide_eq_false (by unfold putAt dramBase; omega)
  have hall : (List.replicate d.length true).all (fun b => b) = true := List.all_eq_true.mpr fun b hb => List.eq_of_mem_replicate hb
  have hqueue : (putAt qn ofs - 0x20000000) / 0x1000 = qn := by unfold putAt; omega
  have hoffset : putAt qn ofs % 0x1000 = ofs := by unfold putAt; omega
  unfold writeBurst
  dsimp only
  rw [hledger, hdram, if_neg Bool.false_ne_true, if_neg Bool.false_ne_true, if_neg (by unfold putAt; omega), hqueue, hoffset,
    if_pos (by unfold putAt; omega), if_pos hall]

theorem execPutWindowWrite_eq (hm : m < 32) (hfence : masterFenced s m = false) (hq : qn < 64) : exec (.putWindowWrite m qn ofs d) s =
    .next (if burstOk (tallyBurst m (putAt qn ofs) d) && decide (ofs < 0x20) then single s (tallyBurst m (putAt qn ofs) d)
      else (putWindow s m qn ofs d).1) := by
  refine congrArg Host.Outcome.next (if_neg ?_)
  rw [hfence, decide_eq_false (Nat.not_le.mpr hm), decide_eq_false (Nat.not_le.mpr hq)]
  exact Bool.false_ne_true

variable (hq : qn < 64)
include hq

/-- However it arrives, the write of a master served at once meets the PUT window with its priority. -/
theorem execPutWindowWrite_served (h : Served s m 14) : ∃ b, pairPri { s with beam := b } m 14 ≠ 0 ∧
    exec (.putWindowWrite m qn ofs d) s = .next (putWindow { s with beam := b } m qn ofs d).1 := by
  rw [execPutWindowWrite_eq h.issues.1 h.issues.2 hq]
  split
  · next hburst =>
    obtain ⟨hok, hofs⟩ := (Bool.and_eq_true _ _).mp hburst
    have hofs := of_decide_eq_true hofs
    refine ⟨beamAfter s m 14, h.allowed, congrArg Host.Outcome.next ?_⟩
    rw [single_served s (tallyBurst m (putAt qn ofs) d) 14 h hok (targetOf_putAt hq hofs) rfl rfl]
    exact congrArg Prod.fst (writeBurst_window hq hofs)
  · exact ⟨s.beam, h.allowed, rfl⟩

theorem execPutWindowWrite_waits (h : Waits s m 14) (hlen : d.length = 32) :
    exec (.putWindowWrite m qn 0 d) s = .next (s.asking (tallyBurst m (putAt qn 0) d)) := by
  have hfits : putAt qn 0 % 256 + 32 ≤ 256 := by unfold putAt; omega
  have hok : burstOk (tallyBurst m (putAt qn 0) d) = true := by simp [burstOk, tallyBurst, hlen, h.issues.1, hfits]
  rw [execPutWindowWrite_eq h.issues.1 h.issues.2 hq, hok, if_pos (by decide)]
  exact congrArg Host.Outcome.next (single_waits s (tallyBurst m (putAt qn 0) d) 14 h hok (targetOf_putAt hq (by decide)) rfl rfl)

section
variable (h : Served s m 14) (hlen : d.length = 32)
include h hlen

theorem execPutWindowWrite_accepted (hok : descOk d = true) (hroom : (s.queue qn).items.length < (s.queue qn).cap)
    (hnone : (s.queue qn).held = []) : Gives (.putWindowWrite m qn 0 d) s (fun t =>
      t.queue qn = { s.queue qn with
        items := (s.queue qn).items ++ [Item.mk s.tally.nextNum qn d (releasedAt (s.queue qn) d s.clk.tick)] } ∧
      (∀ p, p ≠ qn → t.queue p = s.queue p) ∧ t.tally.nextNum = s.tally.nextNum + 1) := by
  obtain ⟨b, hpri, hexec⟩ := execPutWindowWrite_served (ofs := 0) (d := d) hq h
  rw [putWindow_whole hpri hlen (tallyPut_accepted hok hroom hnone), if_neg nofun] at hexec
  exact ⟨_, hexec, (accept_queue _ qn qn d).trans (if_pos rfl), fun p hp => (accept_queue _ qn p d).trans (if_neg hp), rfl⟩

theorem execPutWindowWrite_held (hok : descOk d = true) (hcap : 0 < (s.queue qn).cap)
    (hfull : (s.queue qn).cap ≤ (s.queue qn).items.length ∨ (s.queue qn).held ≠ []) :
    Gives (.putWindowWrite m qn 0 d) s (fun t =>
      t.queue qn = { s.queue qn with held := (s.queue qn).held ++ [Producer.mk (64 + m) d false] } ∧
      ∀ p, p ≠ qn → t.queue p = s.queue p) := by
  obtain ⟨b, hpri, hexec⟩ := execPutWindowWrite_served (ofs := 0) (d := d) hq h
  rw [putWindow_whole hpri hlen (tallyPut_held hok hcap hfull), if_neg nofun] at hexec
  exact ⟨_, hexec, (queue_setQueue ..).trans (if_pos rfl), fun p hp => (queue_setQueue ..).trans (if_neg hp)⟩

theorem execPutWindowWrite_refused (hbad : descOk d = false ∨ (s.queue qn).cap = 0) : Gives (.putWindowWrite m qn 0 d) s (fun t =>
    t.tally = s.tally ∧ t.beam.errCau = 5 ∧ t.beam.errVal = true ∧
      t.stget 0 0x70C0 0x06 = min (s.stget 0 0x70C0 0x06 + 1) (2 ^ 32 - 1)) := by
  obtain ⟨b, hpri, hexec⟩ := execPutWindowWrite_served (ofs := 0) (d := d) hq h
  obtain ⟨u, hput, htally, hcount⟩ := tallyPut_refused (s := { s with beam := b }) (who := 64 + m) hbad
  rw [putWindow_whole hpri hlen hput, if_pos rfl] at hexec
  refine ⟨_, hexec, ((beamError_keeps ..).part .tally rfl).trans htally, ?_, ?_, ?_⟩
  · rw [beamError_beam]
  · rw [beamError_beam]
  · rw [beamError, State.raise_stget, State.stget_stset_ne _ _ _ _ (by decide), State.stget_bump_ne _ _ _ (by decide)]
    exact hcount

end

theorem execPutWindowWrite_malformed (h : Served s m 14) (hbad : ofs ≠ 0 ∨ d.length ≠ 32) :
    Gives (.putWindowWrite m qn ofs d) s (fun t => t.tally = s.tally ∧ t.beam.errCau = 5 ∧ t.beam.errVal = true) := by
  obtain ⟨b, hpri, hexec⟩ := execPutWindowWrite_served (ofs := ofs) (d := d) hq h
  rw [putWindow_malformed hpri hbad] at hexec
  refine ⟨_, hexec, (beamError_keeps ..).part .tally rfl, ?_, ?_⟩ <;> rw [beamError_beam]

end

/-! PUT_ACCEPTED (R248) and BACKPRESSURE_LONG (R250) -/

section
variable {s : State} {qn : Nat}

theorem putAccepted_idle (h : (s.queue qn).held = [] ∨ (s.queue qn).cap ≤ (s.queue qn).items.length) : putAccepted s qn = s := by
  unfold putAccepted
  dsimp only
  split
  · rfl
  · next hheld =>
    rcases h with h | h
    · rw [h] at hheld
      nomatch hheld
    · exact if_neg (Nat.not_lt.mpr h)

/-- The queue once its oldest producer's descriptor has entered. -/
theorem accept_setQueue_queue (p : Producer) (rest : List Producer) (k : Nat) :
    (accept (s.setQueue qn { s.queue qn with held := rest }) qn p.desc).queue k = if k = qn then { s.queue qn with
      items := (s.queue qn).items ++ [Item.mk s.tally.nextNum qn p.desc (releasedAt (s.queue qn) p.desc s.clk.tick)],
      held := rest } else s.queue k := by
  rw [accept_queue, queue_setQueue, if_pos rfl]
  by_cases hk : k = qn
  · rw [if_pos hk, if_pos hk]
    rfl
  · rw [if_neg hk, if_neg hk, queue_setQueue, if_neg hk]

variable {p : Producer} {rest : List Producer} (hheld : (s.queue qn).held = p :: rest)
  (hroom : (s.queue qn).items.length < (s.queue qn).cap)
include hheld hroom

theorem putAccepted_eq : putAccepted s qn =
    (let u := accept (s.setQueue qn { s.queue qn with held := rest }) qn p.desc
     if p.who < 64 then u.setRod p.who (u.rod p.who).resumed else u) := by
  unfold putAccepted
  dsimp only
  rw [hheld]
  exact if_pos hroom

theorem putAccepted_queue (k : Nat) : (putAccepted s qn).queue k = if k = qn then { s.queue qn with
    items := (s.queue qn).items ++ [Item.mk s.tally.nextNum qn p.desc (releasedAt (s.queue qn) p.desc s.clk.tick)],
    held := rest } else s.queue k := by
  rw [putAccepted_eq hheld hroom, ← accept_setQueue_queue]
  dsimp only
  split <;> rfl

theorem putAccepted_rod (r : Nat) : (putAccepted s qn).rod r =
    if p.who < 64 ∧ r = p.who then (s.rod r).resumed else s.rod r := by
  have hrod : ∀ j, (accept (s.setQueue qn { s.queue qn with held := rest }) qn p.desc).rod j = s.rod j := fun j =>
    rod_of_rods ((accept_keeps ..).part .rods rfl) j
  rw [putAccepted_eq hheld hroom]
  dsimp only
  split
  · next hwho =>
    rw [rod_setRod, hrod, hrod]
    by_cases hr : r = p.who
    · rw [if_pos hr, if_pos ⟨hwho, hr⟩, hr]
    · rw [if_neg hr, if_neg fun h => hr h.2]
  · next hwho => rw [hrod, if_neg fun h => hwho h.1]

end

/-- A producer marked as held long. -/
def Producer.lengthened (who : Nat) (p : Producer) : Producer := if p.who = who then { p with long := true } else p

theorem backpressureLong_counts {s : State} {qn who : Nat} (h : ∃ p ∈ (s.queue qn).held, p.who = who ∧ p.long = false) :
    backpressureLong s qn who = ((s.setQueue qn { s.queue qn with held := (s.queue qn).held.map (Producer.lengthened who) }).bump
      0x70C0 0x05 1).raise 50 (producerMaster who) 0 := by
  refine if_pos (List.any_eq_true.mpr ?_)
  obtain ⟨p, hp, hwho, hlong⟩ := h
  exact ⟨p, hp, by rw [decide_eq_true hwho, hlong]; rfl⟩

theorem backpressureLong_known {s : State} {qn who : Nat} (h : ∀ p ∈ (s.queue qn).held, p.who = who → p.long = true) :
    backpressureLong s qn who = s := by
  refine if_neg (ne_true_of_eq_false (List.any_eq_false.mpr fun p hp hnew => ?_))
  obtain ⟨hwho, hlong⟩ := (Bool.and_eq_true _ _).mp hnew
  rw [h p hp (of_decide_eq_true hwho)] at hlong
  exact Bool.false_ne_true hlong

/-- Settles O26: the Tally's answer to the burst, and what PUT_ACCEPTED and BACKPRESSURE_LONG make of a held producer. -/
theorem itemsEnterQueues : Obligations.ItemsEnterQueues := by
  intro s m qn ofs d hq
  simp only [← releasedAt_eq]
  refine ⟨fun h => ⟨fun hlen => execPutWindowWrite_accepted hq h hlen,
      fun hlen hok hcap hfull => execPutWindowWrite_held hq h hlen hok hcap (Or.inl hfull),
      fun hlen hok hroom hheld => execPutWindowWrite_held hq h hlen hok (Nat.zero_lt_of_lt hroom) (Or.inr hheld),
      fun hlen => execPutWindowWrite_refused hq h hlen, execPutWindowWrite_malformed hq h⟩,
    fun h hlen => ⟨_, execPutWindowWrite_waits hq h hlen, rfl⟩,
    fun p rest hheld hroom => ⟨putAccepted s qn, rfl, ?entered⟩, fun h => congrArg Host.Outcome.next (putAccepted_idle h),
    fun p hp hlong => ⟨_, congrArg Host.Outcome.next (backpressureLong_counts ⟨p, hp, rfl, hlong⟩), ?counted⟩,
    fun who h => congrArg Host.Outcome.next (backpressureLong_known h)⟩
  case entered =>
    have hqueue := putAccepted_queue hheld hroom
    have hrod := putAccepted_rod hheld hroom
    refine ⟨(hqueue qn).trans (if_pos rfl), fun k hk => (hqueue k).trans (if_neg hk), fun hwho => ?_,
      fun r hr => (hrod r).trans (if_neg fun h => hr h.2)⟩
    rw [hrod, if_pos ⟨hwho, rfl⟩]
    exact ⟨rfl, rfl, rfl⟩
  case counted =>
    have hqueue : ∀ k, (((s.setQueue qn { s.queue qn with held := (s.queue qn).held.map (Producer.lengthened p.who) }).bump
        0x70C0 0x05 1).raise 50 (producerMaster p.who) 0).queue k = if k = qn then { s.queue qn with
          held := (s.queue qn).held.map (Producer.lengthened p.who) } else s.queue k := fun k =>
      (queue_congr (congrArg Tally.queues ((State.raise_keeps ..).part .tally rfl)) k).trans (queue_setQueue ..)
    refine ⟨⟨?_, fun i b hkey => ?_⟩, ?_, fun k hk => (hqueue k).trans (if_neg hk), fun x hx hwho => ?_⟩
    · rw [State.raise_stget]
      exact State.stget_bump_self ..
    · rw [State.raise_stget]
      exact State.stget_bump_ne _ _ _ hkey
    · rw [hqueue, if_pos rfl]
    · rw [hqueue, if_pos rfl] at hx
      obtain ⟨y, -, rfl⟩ := List.mem_map.mp hx
      unfold Producer.lengthened at hwho ⊢
      split at hwho
      · rw [if_pos ‹_›]
      · exact absurd hwho ‹_›

end Sys2Proof.Machine

namespace Sys2Proof.Machine

/-! TALLY_GIVE (R216, R240, R241) -/

section
variable {s : State} {r k a qn : Nat} {it : Item}

theorem offer_waiting (hst : (s.rod r).st = .waiting) (hwait : (s.rod r).wait = some (.take k a)) (hidle : (s.rod r).item = none) :
    offer s r = (pick s r k).map (fun e => (a, e)) := by
  unfold offer
  dsimp only
  rw [hst, hwait, hidle]

theorem give_rod_ne (e : Nat × Item) {p : Nat} (hp : p ≠ r) : (give s r a e).rod p = s.rod p := by
  unfold give
  dsimp only
  unfold State.setRod State.setQueue State.rod
  rw [mget_mset_ne _ _ _ _ _ hp]

theorem give_byte_ne (e : Nat × Item) {b : Nat} (hb : b < rodWindow r a ∨ rodWindow r a + 32 ≤ b) :
    memByte (give s r a e).mem b = memByte s.mem b :=
  memByte_memWrite_ne (slice e.2.desc 0 32) s.mem (rodWindow r a) b (by rwa [slice, List.length_map, List.length_range])

theorem tallyGive_none (h : ∀ r ∈ giveOrder s, offer s r = none) : tallyGive s = s := by
  have hnone : (giveOrder s).find? (fun r => (offer s r).isSome) = none := List.find?_eq_none.mpr fun r hr => by
    rw [h r hr]
    exact Bool.false_ne_true
  rw [tallyGive, hnone]

/-- The first Rod in the order that is offered an item is given it. -/
theorem tallyGive_first {pre post : List Nat} {e : Nat × Nat × Item} (horder : giveOrder s = pre ++ r :: post)
    (hpre : ∀ p ∈ pre, offer s p = none) (hoffer : offer s r = some e) :
    tallyGive s = { give s r e.1 e.2 with tally := { (give s r e.1 e.2).tally with takeRot := (r / 8 + 1) % 8 } } := by
  have hfirst : (giveOrder s).find? (fun r => (offer s r).isSome) = some r :=
    List.find?_eq_some_iff_append.mpr ⟨by rw [hoffer]; rfl, pre, post, horder, fun p hp => by rw [hpre p hp]; rfl⟩
  rw [tallyGive, hfirst]
  dsimp only
  rw [giveIfAny, hoffer]

end

/-! TALLY_PURGE (R252) -/

theorem mget_map {α : Type} {d : α} {f : α → α} (hd : f d = d) (k : Nat) :
    ∀ m : SMap α, mget d (m.map (fun e => (e.1, f e.2))) k = f (mget d m k)
  | [] => hd.symm
  | (n, v) :: m => by
    rw [List.map_cons, mget, mget]
    split
    · rfl
    · exact mget_map hd k m

theorem mget_eq_or_mem {α : Type} (d : α) (k : Nat) : ∀ m : SMap α, mget d m k = d ∨ ∃ e ∈ m, e.2 = mget d m k
  | [] => Or.inl rfl
  | (n, v) :: m => by
    rw [mget]
    split
    · exact Or.inr ⟨(n, v), List.mem_cons_self, rfl⟩
    · exact (mget_eq_or_mem d k m).imp_right fun ⟨e, he, hv⟩ => ⟨e, List.mem_cons_of_mem _ he, hv⟩

theorem mem_heldItems {s : State} {n : Nat} {it : Item} (h : it ∈ (s.queue n).items) : it ∈ heldItems s := by
  rcases mget_eq_or_mem Queue.init n s.tally.queues with hinit | ⟨e, he, hq⟩
  · rw [State.queue, hinit] at h
    cases h
  · rw [State.queue, ← hq] at h
    exact List.mem_flatMap.mpr ⟨e, he, h⟩

/-- Whether a purge of a stage and block leaves an item; stage 0 leaves all. -/
def outlives (stage block : Nat) (it : Item) : Bool :=
  decide (stage = 0 ∨ descStage it.desc ≠ stage ∨ descBlock it.desc % 2 ^ 56 ≠ block)

theorem purge_queue (s : State) (stage block n : Nat) :
    (purge s stage block).queue n = { s.queue n with items := (s.queue n).items.filter (outlives stage block) } := by
  have hall : (∀ it ∈ (s.queue n).items, outlives stage block it = true) →
      s.queue n = { s.queue n with items := (s.queue n).items.filter (outlives stage block) } := fun h => by
    rw [List.filter_eq_self.mpr h]
  by_cases hstage : stage = 0
  · rw [purge, decide_eq_true hstage, Bool.true_or, if_pos rfl]
    exact hall fun it _ => decide_eq_true (Or.inl hstage)
  have hhit : ∀ it : Item, (!(decide (descStage it.desc = stage) && decide (descBlock it.desc % 2 ^ 56 = block))) =
      outlives stage block it := fun it => by
    by_cases hsame : descStage it.desc = stage <;> simp [outlives, hstage, hsame]
  unfold purge
  dsimp only
  split
  · next hnone =>
    rw [decide_eq_false hstage, Bool.false_or, decide_eq_true_eq, List.length_eq_zero_iff, List.filter_eq_nil_iff] at hnone
    exact hall fun it hit => by rw [← hhit, Bool.eq_false_iff.mpr (hnone it (mem_heldItems hit))]; rfl
  · rw [funext hhit]
    exact mget_map (f := fun q : Queue => { q with items := q.items.filter (outlives stage block) }) rfl n s.tally.queues

/-- The Reckoner's write of TALLY_PURGE. -/
def purgeWrite (value : Nat) : BeamReq := tallyBurst 26 0x20043000 (leBytes 8 value)

theorem burstOk_purgeWrite (value : Nat) : burstOk (purgeWrite value) = true := by
  simp [burstOk, purgeWrite, tallyBurst, leBytes_length]

theorem serveBurst_purgeWrite (s : State) {value : Nat} (h : value < 2 ^ 64) :
    serveBurst s (purgeWrite value) = purge s (bitsOf value 2 0) (bitsOf value 63 8) := by
  have hvalue : leNat (leBytes 8 value) = value := leNat_leBytes (n := 8) (Nat.lt_of_lt_of_le h (by decide))
  change (writeBurst s 26 0x20043000 (leBytes 8 value) (List.replicate 8 true)).1 = _
  unfold writeBurst
  rw [if_neg (by decide), if_neg (by decide), if_neg (by decide), if_neg (by decide), if_pos ⟨rfl, leBytes_length 8 value, rfl⟩]
  dsimp only
  rw [hvalue]

/-- Settles O27: the give is that of the first Rod offered an item, and the purge filters every queue. -/
theorem itemsLeaveQueues : Obligations.ItemsLeaveQueues := by
  intro s
  refine ⟨fun pre r post k a qn it horder hpre hst hwait hidle hpick _ => ⟨tallyGive s, rfl, ?gives⟩,
    fun h => congrArg Host.Outcome.next (tallyGive_none h), fun stage block hstage hblock => ⟨fun h => ?purges, fun h => ?waits⟩⟩
  case gives =>
    have hoffer : offer s r = some (a, qn, it) := by rw [offer_waiting hst hwait hidle, hpick]; rfl
    rw [tallyGive_first horder hpre hoffer]
    have hrod := give_rod (u := s) (r := r) rfl a (qn, it)
    refine ⟨?_, ?_, ?_, ?_, fun p hp => give_rod_ne (qn, it) hp, ?_, fun p hp => ?_, rfl, fun i hi => give_byte s r a i (qn, it) hi,
      fun b hb => give_byte_ne (qn, it) hb⟩
    · exact congrArg Rod.st hrod
    · exact congrArg Rod.wait hrod
    · exact congrArg Rod.pc hrod
    · exact congrArg Rod.item hrod
    · exact congrArg Queue.items ((give_queue s r a (qn, it) qn).trans (if_pos rfl))
    · exact (give_queue s r a (qn, it) p).trans (if_neg hp)
  case purges =>
    have hstage' : bitsOf (stage + block * 256) 2 0 = stage := by unfold bitsOf; omega
    have hblock' : bitsOf (stage + block * 256) 63 8 = block := by unfold bitsOf; omega
    have hserved := single_served s (purgeWrite (stage + block * 256)) 14 h (burstOk_purgeWrite _) rfl rfl rfl
    rw [serveBurst_purgeWrite _ (by omega), hstage', hblock'] at hserved
    exact ⟨_, congrArg Host.Outcome.next hserved, purge_queue _ stage block⟩
  case waits =>
    exact ⟨_, congrArg Host.Outcome.next (single_waits s (purgeWrite _) 14 h (burstOk_purgeWrite _) rfl rfl rfl), rfl, rfl⟩

end Sys2Proof.Machine

namespace Sys2Proof.Machine

/-! Which requests arbitrate at a target (R250, R256, R258, R263) -/

theorem targetOf_lt {a x : Nat} (h : targetOf a = some x) : x < 25 := by
  unfold targetOf bitsOf at h
  split_ifs at h <;> simp only [Option.some.injEq] at h <;> omega

theorem isDeepRead_of_registers {q : BeamReq} {x : Nat} (hx : targetOf q.addr = some x) (h12 : 12 ≤ x) : isDeepRead q = false := by
  rw [isDeepRead, hx]
  dsimp only
  rw [decide_eq_false (fun h => Nat.not_lt.mpr h12 h.2 : ¬ (8 ≤ x ∧ x < 12)), Bool.and_false]

theorem mem_of_mem_tagged {e : Waiting × Nat} : ∀ {l : List (Waiting × Nat)} {used : SMap Nat} {pool : Nat},
    e ∈ tagged l used pool → e ∈ l
  | [], _, _, h => h
  | _ :: _, _, _, h => by
    unfold tagged at h
    dsimp only at h
    split_ifs at h
    · exact (List.mem_cons.mp h).elim (fun h => h ▸ List.mem_cons_self) fun h => List.mem_cons_of_mem _ (mem_of_mem_tagged h)
    · exact (List.mem_cons.mp h).elim (fun h => h ▸ List.mem_cons_self) fun h => List.mem_cons_of_mem _ (mem_of_mem_tagged h)
    · exact List.mem_cons_of_mem _ (mem_of_mem_tagged h)

/-- Masters with fewer than two transactions in flight and one request each hold a tag for it (R256). -/
theorem tagged_all : ∀ {l : List (Waiting × Nat)} {used : SMap Nat} {pool : Nat}, (l.map (fun e => e.1.req.master)).Nodup →
    (∀ e ∈ l, mget 0 used e.1.req.master < 2) → tagged l used pool = l
  | [], _, _, _, _ => rfl
  | e :: l, used, pool, hnodup, hfree => by
    obtain ⟨hnew, hrest⟩ := List.nodup_cons.mp hnodup
    rw [tagged]
    rw [if_pos (hfree e List.mem_cons_self), tagged_all hrest fun x hx => ?_]
    rw [mget_mset_ne _ _ _ _ _ fun h => hnew (List.mem_map.mpr ⟨x, hx, h⟩)]
    exact hfree x (List.mem_cons_of_mem _ hx)

theorem oldestOfMaster_all : ∀ {l : List (Waiting × Nat)} {seen : List Nat}, (l.map (fun e => e.1.req.master)).Nodup →
    (∀ e ∈ l, e.1.req.master ∉ seen) → oldestOfMaster l seen = l
  | [], _, _, _ => rfl
  | e :: l, seen, hnodup, hnew => by
    obtain ⟨hother, hrest⟩ := List.nodup_cons.mp hnodup
    rw [oldestOfMaster, if_neg (fun h => hnew e List.mem_cons_self (List.contains_iff_mem.mp h)),
      oldestOfMaster_all hrest fun x hx hmem => ?_]
    rcases List.mem_cons.mp hmem with h | h
    · exact hother (List.mem_map.mpr ⟨x, hx, h⟩)
    · exact hnew x (List.mem_cons_of_mem _ hx) h

section
variable {s : State} {x : Nat} {e : Waiting × Nat}

/-- A request that arbitrates waits, and nothing holds it. -/
theorem of_mem_contenders (h : e ∈ contenders s x) : e.1 ∈ s.beam.waiting ∧ targetReady s x = true ∧
    ((mget (32, 0) s.beam.locks x).1 < 32 → e.1.req.master = (mget (32, 0) s.beam.locks x).1) ∧
    (x = 14 → tallyHeld s e.1.req.master = false) := by
  have hhere : ∀ {used : SMap Nat} {p q : Waiting × Nat → Bool},
      e ∈ (oldestOfMaster ((tagged s.beam.waiting.zipIdx used (poolLeft s)).filter p) []).filter q →
        e.1 ∈ s.beam.waiting ∧ q e = true := fun he => by
    obtain ⟨hold, hq⟩ := List.mem_filter.mp he
    exact ⟨List.fst_mem_of_mem_zipIdx (mem_of_mem_tagged (List.mem_filter.mp (mem_of_mem_oldestOfMaster hold)).1), hq⟩
  have hput : ∀ {b : Bool}, (!(decide (x = 14) && tallyHeld s e.1.req.master) && b) = true →
      x = 14 → tallyHeld s e.1.req.master = false := fun hq h14 => by
    rw [decide_eq_true h14, Bool.true_and] at hq
    exact Bool.not_eq_true' _ ▸ ((Bool.and_eq_true _ _).mp hq).1
  unfold contenders at h
  dsimp only at h
  split at h
  · cases h
  · next hready =>
    have hready : targetReady s x = true := by simpa using hready
    split at h
    · obtain ⟨hin, hmine⟩ := List.mem_filter.mp h
      obtain ⟨hwait, hq⟩ := hhere hin
      exact ⟨hwait, hready, fun _ => of_decide_eq_true hmine, hput hq⟩
    · next hlock =>
      obtain ⟨hwait, hq⟩ := hhere h
      exact ⟨hwait, hready, fun hl => absurd hl hlock, hput hq⟩

end

/-- Every request that waits may be granted at target `x`: all are addressed to it, one of each master, and nothing holds them. -/
structure Contend (s : State) (x : Nat) : Prop where
  target   : ∀ w ∈ s.beam.waiting, targetOf w.req.addr = some x
  apart    : (s.beam.waiting.map (fun w => w.req.master)).Nodup
  tag      : ∀ w ∈ s.beam.waiting, (heldTags s).count w.req.master < 2
  ready    : targetReady s x = true
  lock     : ∀ w ∈ s.beam.waiting, (mget (32, 0) s.beam.locks x).1 < 32 → w.req.master = (mget (32, 0) s.beam.locks x).1
  free     : ∀ w ∈ s.beam.waiting, x = 14 → tallyHeld s w.req.master = false
  admitted : ∀ w ∈ s.beam.waiting, isDeepRead w.req = true → w.admitted = true

theorem Contend.contenders {s : State} {x : Nat} (h : Contend s x) : contenders s x = s.beam.waiting.zipIdx := by
  have hmem : ∀ {e}, e ∈ s.beam.waiting.zipIdx → e.1 ∈ s.beam.waiting := fun he => List.fst_mem_of_mem_zipIdx he
  have hnodup : (s.beam.waiting.zipIdx.map (fun e => e.1.req.master)).Nodup := by
    have hmasters := congrArg (List.map (fun w : Waiting => w.req.master)) (List.zipIdx_map_fst 0 s.beam.waiting)
    rw [List.map_map] at hmasters
    exact hmasters ▸ h.apart
  have htagged : ∀ pool, tagged s.beam.waiting.zipIdx ((heldTags s).foldl (fun n m => mset 0 n m (mget 0 n m + 1)) []) pool =
      s.beam.waiting.zipIdx := fun pool => tagged_all hnodup fun e he => by
    rw [count_fold, mget_nil, Nat.zero_add]
    exact h.tag e.1 (hmem he)
  have hopen : s.beam.waiting.zipIdx.filter (fun e =>
      !(decide (x = 14) && tallyHeld s e.1.req.master) && (!isDeepRead e.1.req || e.1.admitted)) = s.beam.waiting.zipIdx := by
    refine List.filter_eq_self.mpr fun e he => ?_
    have hput : (decide (x = 14) && tallyHeld s e.1.req.master) = false := by
      by_cases h14 : x = 14
      · rw [h.free e.1 (hmem he) h14, Bool.and_false]
      · rw [decide_eq_false h14, Bool.false_and]
    rw [hput]
    cases hdeep : isDeepRead e.1.req with
    | false => rfl
    | true => rw [h.admitted e.1 (hmem he) hdeep]; rfl
  unfold Machine.contenders
  dsimp only
  rw [h.ready, htagged, List.filter_eq_self.mpr fun e he => decide_eq_true (h.target e.1 (hmem he)),
    oldestOfMaster_all hnodup fun _ _ => List.not_mem_nil, hopen, if_neg (by decide)]
  split
  · next hlock => exact List.filter_eq_self.mpr fun e he => decide_eq_true (h.lock e.1 (hmem he) hlock)
  · rfl

/-! One arbitration at every target -/

/-- Every request that waits is addressed to target `x`. -/
def State.WaitsAt (s : State) (x : Nat) : Prop := ∀ w ∈ s.beam.waiting, targetOf w.req.addr = some x

section
variable {s : State} {x y : Nat}

theorem grantAt_idle (h : contenders s y = []) : grantAt s y = s := by
  simp [grantAt, choice, h, winner]

theorem grantAt_elsewhere (h : s.WaitsAt x) (hy : y ≠ x) : grantAt s y = s :=
  grantAt_idle (List.eq_nil_iff_forall_not_mem.mpr fun e he =>
    hy (Option.some.inj ((targetOf_of_mem_contenders s he).symm.trans (h e.1 (of_mem_contenders he).1))))

theorem foldl_grantAt_elsewhere (h : s.WaitsAt x) {l : List Nat} (hl : x ∉ l) : l.foldl grantAt s = s :=
  List.foldlRecOn (motive := fun t => t = s) l grantAt rfl fun _ ht y hy =>
    (congrArg (grantAt · y) ht).trans (grantAt_elsewhere h fun hyx => hl (hyx ▸ hy))

/-- Requests of one target are arbitrated there alone. -/
theorem arbitrate_one (hx : x < 25) (hbefore : (letIn s).WaitsAt x) (hafter : (grantAt (letIn s) x).WaitsAt x) :
    arbitrate s = grantAt (letIn s) x := by
  obtain ⟨pre, post, hsplit⟩ := List.append_of_mem (List.mem_range.mpr hx)
  have hnew : x ∉ pre ++ post := (List.nodup_cons.mp (List.nodup_middle.mp (hsplit ▸ List.nodup_range))).1
  rw [List.mem_append, not_or] at hnew
  rw [arbitrate, hsplit, List.foldl_append, List.foldl_cons, foldl_grantAt_elsewhere hbefore hnew.1,
    foldl_grantAt_elsewhere hafter hnew.2]

theorem letIn_of_none (h : s.beam.waiting = []) : letIn s = s := by
  rw [letIn, h, admitted, waiting_nil _ h]

theorem arbitrate_none (h : s.beam.waiting = []) : arbitrate s = s := by
  rw [arbitrate, letIn_of_none h]
  exact foldl_grantAt_elsewhere (x := 25) (fun w hw => absurd hw (by rw [h]; exact List.not_mem_nil)) (by decide)

end

/-! Requests that wait, and the grant of one of them -/

/-- The state with requests `l` waiting. -/
def State.queued (s : State) (l : List Waiting) : State := { s with beam := { s.beam with waiting := l } }

/-- A request that has just been issued, as the next arbitration finds it. -/
def Waiting.fresh (q : BeamReq) : Waiting := Waiting.mk q 0 (isDeepRead q)

theorem admitted_fresh (q : BeamReq) : admitted [Waiting.mk q 0 false] [] = [Waiting.fresh q] := by
  unfold admitted Waiting.fresh
  split
  · next h => rw [h]; rfl
  · next h => rw [Bool.eq_false_iff.mpr h]; rfl

theorem letIn_alone {s : State} (h : s.beam.waiting = []) (q : BeamReq) : letIn (enqueue s q) = s.queued [Waiting.fresh q] := by
  simp only [letIn, enqueue, h, List.nil_append, admitted_fresh, State.queued]

/-- Requests none of which is a deep-line read are let in as they are. -/
theorem admitted_registers : ∀ {l : List Waiting} {n : SMap Nat}, (∀ w ∈ l, isDeepRead w.req = false) → admitted l n = l
  | [], _, _ => rfl
  | w :: l, n, h => by
    rw [admitted, h w List.mem_cons_self, if_neg Bool.false_ne_true, admitted_registers fun v hv => h v (List.mem_cons_of_mem _ hv)]

theorem issue_enqueues {s : State} {q : BeamReq} (hok : burstOk q = true) (hfence : masterFenced s q.master = false)
    (herror : requestError s q = 0) : issue s q = enqueue s q := by
  rw [issue, hok, hfence, if_neg (by decide), if_neg (not_not.mpr herror)]

theorem issue_refuses {s : State} {q : BeamReq} (hok : burstOk q = true) (hfence : masterFenced s q.master = false)
    (herror : requestError s q ≠ 0) : issue s q = refuse s q (requestError s q) := by
  rw [issue, hok, hfence, if_neg (by decide), if_pos herror]

theorem requestError_unlocked {s : State} {q : BeamReq} {x : Nat} (hx : targetOf q.addr = some x)
    (hpri : pairPri s q.master x ≠ 0) (hlocked : q.locked = false) : requestError s q = 0 := by
  rw [requestError, hx]
  dsimp only
  rw [if_neg hpri, hlocked, Bool.false_and, if_neg Bool.false_ne_true]

section
variable {s : State} {x : Nat} {w v : Waiting}

/-- The only contender wins. -/
theorem choice_alone (hc : contenders s x = [(w, 0)]) (hnew : w.lost = 0) : choice s x = some ((w, 0), false) := by
  have hyoung : ¬ 16 ≤ w.lost := by omega
  simp [choice, hc, winner, hyoung]

theorem granted_only (hw : s.beam.waiting = [w]) (aged : Bool) : granted s x (w, 0) aged =
    (grantNoted s x w.req.master w.req.deep aged).queued [] := by
  simp [granted, hw, State.queued]

/-- The first of two contenders granted: the other has lost one more arbitration. -/
theorem granted_first (hw : s.beam.waiting = [w, v]) (hc : contenders s x = [(w, 0), (v, 1)]) (aged : Bool) :
    granted s x (w, 0) aged = (grantNoted s x w.req.master w.req.deep aged).queued [{ v with lost := v.lost + 1 }] := by
  simp [granted, hw, hc, State.queued]

/-- Of two fresh contenders the one of higher priority wins (R257). -/
theorem choice_higher (hc : contenders s x = [(w, 0), (v, 1)]) (hw : w.lost = 0) (hv : v.lost = 0)
    (hpri : pairPri s v.req.master x < pairPri s w.req.master x) : choice s x = some ((w, 0), false) := by
  have hloses : beats s x (v, 1) (w, 0) = false := by
    unfold beats
    dsimp only
    rw [decide_eq_false (Nat.not_lt_of_lt hpri), decide_eq_false (Nat.ne_of_lt hpri), Bool.false_and, Bool.false_or]
  have hyoung : ¬ 16 ≤ w.lost := by omega
  have hyoung' : ¬ 16 ≤ v.lost := by omega
  simp [choice, hc, winner, hyoung, hyoung', hloses]

/-- A request that has lost 16 times wins over one that has not, once three grants have passed (R257). -/
theorem choice_aged (hc : contenders s x = [(w, 0), (v, 1)]) (hw : 16 ≤ w.lost) (hv : v.lost = 0) (hsince : 3 ≤ sinceAged s x) :
    choice s x = some ((w, 0), true) := by
  have hyoung : ¬ 16 ≤ v.lost := by omega
  simp [choice, hc, winner, hw, hyoung, hsince]

theorem serve_unlocked {q : BeamReq} (herror : requestError s q = 0) (hfree : (mget (32, 0) s.beam.locks x).1 ≠ q.master)
    (hlocked : q.locked = false) : serve s q x = serveBurst s q := by
  unfold serve lockAfter
  dsimp only
  rw [if_neg (not_not.mpr herror), if_neg (fun h => hfree h.1), hlocked, if_neg Bool.false_ne_true, decide_eq_false hfree,
    if_neg Bool.false_ne_true]

end

end Sys2Proof.Machine

namespace Sys2Proof.Machine

/-! What a burst leaves of the requests that wait and of the locks -/

/-- Beam `c` is `b` but for its error record (R260). -/
def Beam.Recorded (b c : Beam) : Prop := ∃ a m k v, c = { b with errAddr := a, errMas := m, errCau := k, errVal := v }

theorem Beam.Recorded.same {b c : Beam} (h : c = b) : b.Recorded c := ⟨b.errAddr, b.errMas, b.errCau, b.errVal, h⟩

theorem Beam.Recorded.trans {b c d : Beam} (h : b.Recorded c) (h' : c.Recorded d) : b.Recorded d := by
  obtain ⟨_, _, _, _, rfl⟩ := h
  obtain ⟨a, m, k, v, rfl⟩ := h'
  exact ⟨a, m, k, v, rfl⟩

theorem beamError_recorded (s : State) (m addr cause : Nat) : s.beam.Recorded (beamError s m addr cause).beam :=
  ⟨_, _, _, _, beamError_beam ..⟩

/-- A read changes nothing of the Beam but the error record. -/
theorem readBurst_recorded (s : State) (m a n : Nat) : s.beam.Recorded (readBurst s m a n).1.beam := by
  unfold readBurst
  dsimp only
  split
  · exact .same ((ledgerRead_keeps ..).part .beam rfl)
  split
  · split
    · exact beamError_recorded ..
    · exact .same (((burstEnd_keeps _).part .beam rfl).trans (((dramRead_keeps ..).part .beam rfl).trans
        ((wakeDram_keeps s).part .beam rfl)))
  split
  · split
    · exact .same ((rodMemRead_keeps ..).part .beam rfl)
    · exact beamError_recorded ..
  split <;> exact .same rfl

/-- The requests that wait and the locks are the same. -/
structure SameRequests (s t : State) : Prop where
  waiting : t.beam.waiting = s.beam.waiting
  locks   : t.beam.locks = s.beam.locks

theorem SameRequests.of_beam {s t : State} (h : t.beam = s.beam) : SameRequests s t :=
  ⟨congrArg Beam.waiting h, congrArg Beam.locks h⟩

theorem SameRequests.of_recorded {s t : State} (h : s.beam.Recorded t.beam) : SameRequests s t := by
  obtain ⟨_, _, _, _, h⟩ := h
  exact ⟨by rw [h], by rw [h]⟩

theorem SameRequests.trans {s t u : State} (h : SameRequests s t) (h' : SameRequests t u) : SameRequests s u :=
  ⟨h'.waiting.trans h.waiting, h'.locks.trans h.locks⟩

theorem busAWrite_sameRequests (s : State) (a v : Nat) : SameRequests s (busAWrite s a v) := by
  unfold busAWrite
  split_ifs
  case _ => exact ⟨rfl, rfl⟩
  case _ => exact ⟨rfl, rfl⟩
  case _ => exact ⟨rfl, rfl⟩
  case _ => exact ⟨rfl, rfl⟩
  case _ => exact ⟨rfl, rfl⟩
  case _ => exact ⟨rfl, rfl⟩
  case _ => exact .of_beam ((collisionClear_keeps s).part .beam rfl)
  case _ => exact ⟨rfl, rfl⟩
  case _ => exact ⟨rfl, rfl⟩
  case _ => exact ⟨rfl, rfl⟩

theorem regWrite_sameRequests (s : State) (a v : Nat) : SameRequests s (regWrite s a v) := by
  unfold regWrite
  split
  · split
    · exact .of_beam ((rodCtrlWrite_keeps ..).part .beam rfl)
    · exact .of_beam rfl
  split
  · exact .of_beam ((tallyRegWrite_keeps ..).part .beam rfl)
  split
  · exact busAWrite_sameRequests s a v
  split
  · exact .of_beam ((busBWrite_keeps ..).part .beam rfl)
  · exact .of_beam rfl

theorem regBurst_sameRequests (s : State) (a : Nat) (d : List Byte) (strobe : List Bool) :
    SameRequests s (regBurst s a d strobe) := by
  refine List.foldlRecOn (motive := SameRequests s) _ _ (.of_beam rfl) fun t ht w _ => ?_
  split
  · exact ht.trans (regWrite_sameRequests ..)
  · exact ht

theorem putWindow_sameRequests (s : State) (m qn ofs : Nat) (d : List Byte) : SameRequests s (putWindow s m qn ofs d).1 := by
  have hput : (tallyPut s qn (64 + m) d).1.beam = s.beam := (tallyPut_keeps ..).part .beam rfl
  unfold putWindow
  dsimp only
  split
  · exact .of_recorded (beamError_recorded ..)
  split
  · exact .of_recorded (beamError_recorded ..)
  split
  · exact (SameRequests.of_beam hput).trans (.of_recorded (beamError_recorded ..))
  · exact .of_beam hput

theorem writeBurst_sameRequests (s : State) (m a : Nat) (d : List Byte) (strobe : List Bool) :
    SameRequests s (writeBurst s m a d strobe).1 := by
  unfold writeBurst
  dsimp only
  split
  · exact .of_beam ((ledgerWrite_keeps ..).part .beam rfl)
  split
  · split
    · exact .of_recorded (beamError_recorded ..)
    · exact .of_beam (((burstEnd_keeps _).part .beam rfl).trans (((dramWrite_keeps ..).part .beam rfl).trans
        ((wakeDram_keeps s).part .beam rfl)))
  split
  · split
    · exact .of_beam ((rodMemWrite_keeps ..).part .beam rfl)
    · exact .of_recorded (beamError_recorded ..)
  split
  · split
    · exact putWindow_sameRequests ..
    · exact .of_recorded (beamError_recorded ..)
  split
  · exact .of_beam ((purge_keeps ..).part .beam rfl)
  split
  · exact .of_beam rfl
  · exact regBurst_sameRequests ..

theorem serveBurst_sameRequests (s : State) (q : BeamReq) : SameRequests s (serveBurst s q) := by
  unfold serveBurst
  split
  · exact writeBurst_sameRequests ..
  · dsimp only
    split <;> exact (SameRequests.of_recorded (readBurst_recorded s q.master q.addr q.len)).trans (.of_beam rfl)

/-! A read of registers (R15) -/

theorem readBurst_registers (s : State) (m n : Nat) {a x : Nat} (hx : targetOf a = some x) (hlo : 12 ≤ x) (hhi : x ≤ 14) :
    readBurst s m a n = (s, some (regBytes s a n)) := by
  have hplace : (0x20000000 ≤ a ∧ a < 0x20044000) ∨ (0x40000000 ≤ a ∧ a < 0x60000000) := by
    unfold targetOf bitsOf at hx
    split_ifs at hx <;> simp only [Option.some.injEq] at hx <;> omega
  have hledger : inLedger a = false := decide_eq_false (by omega)
  have hdram : inDram a = false := decide_eq_false (by unfold dramBase; omega)
  unfold readBurst
  dsimp only
  rw [hledger, hdram, if_neg Bool.false_ne_true, if_neg Bool.false_ne_true, if_neg (by omega), if_neg (by omega)]

section
variable (s : State) (x m : Nat) (deep aged : Bool) (l : List Waiting)

theorem busARead_granted (a : Nat) : busARead ((grantNoted s x m deep aged).queued l) a = busARead s a := by
  unfold busARead
  rfl

theorem tallyRead_granted (a : Nat) : tallyRead ((grantNoted s x m deep aged).queued l) a = tallyRead s a := by
  unfold tallyRead
  rfl

theorem rodCtrlRead_granted (r off : Nat) : rodCtrlRead ((grantNoted s x m deep aged).queued l) r off = rodCtrlRead s r off := by
  unfold rodCtrlRead
  rfl

/-- Registers read the same whatever requests wait and whatever was granted. -/
theorem regRead_granted (a : Nat) : regRead ((grantNoted s x m deep aged).queued l) a = regRead s a := by
  unfold regRead
  rw [busARead_granted, tallyRead_granted, rodCtrlRead_granted]
  rfl

theorem regBytes_granted (a n : Nat) : regBytes ((grantNoted s x m deep aged).queued l) a n = regBytes s a n := by
  unfold regBytes
  simp only [regRead_granted]

end

/-! BEAM_REQUEST (R254 to R258) -/

section
variable {s : State} {a : BeamReq} {x : Nat} (hx : targetOf a.addr = some x) (hok : burstOk a = true)
include hx hok

omit hok in
theorem Contend.fresh (h : Served s a.master x) : Contend (s.queued [Waiting.fresh a]) x := by
  refine ⟨?_, ?_, ?_, h.ready, ?_, ?_, ?_⟩
  case refine_2 => exact List.nodup_singleton _
  all_goals
    intro w hw
    cases List.mem_singleton.mp hw
  · exact hx
  · exact h.tag
  · exact fun hlock => absurd hlock (Nat.not_lt.mpr h.unlocked)
  · exact h.free
  · exact id

omit hx hok in
/-- The grant of the only request that waits leaves none. -/
theorem grantNoted_queued (halone : s.beam.waiting = []) (l : List Waiting) (m : Nat) (deep aged : Bool) :
    (grantNoted (s.queued l) x m deep aged).queued [] = grantNoted s x m deep aged :=
  congrArg (fun b => { s with beam := b }) (waiting_nil (grantNoted s x m deep aged) halone)

/-- The burst alone, served at once. -/
theorem arbitrate_served (h : Served s a.master x) (herror : requestError s a = 0) (hlocked : a.locked = false) :
    arbitrate (issue s a) = serveBurst (grantNoted s x a.master a.deep false) a := by
  have hletIn := letIn_alone h.alone a
  have hgrant : grantAt (letIn (enqueue s a)) x = serveBurst (grantNoted s x a.master a.deep false) a := by
    have hpri : pairPri (grantNoted s x a.master a.deep false) a.master x ≠ 0 := h.allowed
    have hfree : (mget (32, 0) (grantNoted s x a.master a.deep false).beam.locks x).1 ≠ a.master :=
      fun hmine => absurd h.unlocked (Nat.not_le.mpr (hmine ▸ h.issues.1))
    rw [hletIn, grantAt, choice_alone (Contend.fresh hx h).contenders rfl]
    dsimp only
    rw [granted_only (s := s.queued [Waiting.fresh a]) rfl, grantNoted_queued h.alone]
    exact serve_unlocked (requestError_unlocked hx hpri hlocked) hfree hlocked
  rw [issue_enqueues hok h.issues.2 herror, arbitrate_one (targetOf_lt hx), hgrant]
  · rw [hletIn]
    exact fun w hw => List.mem_singleton.mp hw ▸ hx
  · rw [hgrant]
    intro w hw
    rw [(serveBurst_sameRequests _ a).waiting] at hw
    exact absurd (h.alone ▸ hw) List.not_mem_nil

theorem arbitrate_waits (h : Waits s a.master x) (herror : requestError s a = 0) :
    arbitrate (issue s a) = s.queued [Waiting.fresh a] := by
  have hletIn := letIn_alone h.alone a
  have hat : (s.queued [Waiting.fresh a]).WaitsAt x := fun w hw => List.mem_singleton.mp hw ▸ hx
  have hidle : grantAt (letIn (enqueue s a)) x = s.queued [Waiting.fresh a] := by
    rw [hletIn]
    refine grantAt_idle (List.eq_nil_iff_forall_not_mem.mpr fun e he => ?_)
    obtain ⟨hwait, hready, hlock, hfree⟩ := of_mem_contenders he
    have hmaster : e.1.req.master = a.master := congrArg (fun w : Waiting => w.req.master) (List.mem_singleton.mp hwait)
    rw [hmaster] at hlock hfree
    rcases h.reason with hbusy | ⟨hheld, hother⟩ | ⟨h14, hput⟩
    · exact Bool.false_ne_true (hbusy.symm.trans hready)
    · exact hother (hlock hheld).symm
    · exact Bool.false_ne_true ((hfree h14).symm.trans hput)
  rw [issue_enqueues hok h.issues.2 herror, arbitrate_one (targetOf_lt hx) (hletIn ▸ hat) (hidle ▸ hat), hidle]

omit hx in
theorem arbitrate_refused (halone : s.beam.waiting = []) (hfence : masterFenced s a.master = false)
    (herror : requestError s a ≠ 0) : arbitrate (issue s a) = refuse s a (requestError s a) := by
  rw [issue_refuses hok hfence herror]
  exact arbitrate_none ((congrArg Beam.waiting (refuse_beam ..)).trans halone)

end

/-! Two reads of registers at one target (R257) -/

theorem burstOk_master {q : BeamReq} (h : burstOk q = true) : q.master < 32 := by
  unfold burstOk at h
  rw [Bool.and_eq_true, Bool.and_eq_true, Bool.and_eq_true] at h
  exact of_decide_eq_true h.1.1.1

/-- Request `q` reads registers at target `x`, of the slow buses or the Tally, and nothing holds it. -/
structure Reads (s : State) (q : BeamReq) (x : Nat) : Prop where
  target   : targetOf q.addr = some x
  register : 12 ≤ x ∧ x ≤ 14
  burst    : burstOk q = true
  read     : q.write = false
  unlocked : q.locked = false
  fence    : masterFenced s q.master = false
  allowed  : pairPri s q.master x ≠ 0
  free     : 32 ≤ (mget (32, 0) s.beam.locks x).1
  tag      : (heldTags s).count q.master < 2
  put      : x = 14 → tallyHeld s q.master = false

section
variable {s : State} {x : Nat} {w v : Waiting} (hw : Reads s w.req x) (hv : Reads s v.req x)
include hw hv

theorem contenders_reads (hapart : w.req.master ≠ v.req.master) : contenders (s.queued [w, v]) x = [(w, 0), (v, 1)] := by
  have hboth : ∀ {p : Waiting → Prop}, p w → p v → ∀ y ∈ [w, v], p y := fun hp hp' y hy => by
    rcases List.mem_pair.mp hy with rfl | rfl
    · exact hp
    · exact hp'
  have hcontend : Contend (s.queued [w, v]) x :=
    { target := hboth hw.target hv.target
      apart := by
        change [w.req.master, v.req.master].Nodup
        simpa using hapart
      tag := hboth hw.tag hv.tag
      ready := by
        have h12 := hw.register.1
        rw [targetReady, if_neg (by omega), if_neg (by omega)]
      lock := fun _ _ hlock => absurd hlock (Nat.not_lt.mpr hw.free)
      free := hboth hw.put hv.put
      admitted := by
        refine hboth (fun h => ?_) fun h => ?_
        · exact absurd (h.symm.trans (isDeepRead_of_registers hw.target hw.register.1)) nofun
        · exact absurd (h.symm.trans (isDeepRead_of_registers hv.target hv.register.1)) nofun }
  exact hcontend.contenders

/-- The first of two reads chosen gets its registers' bytes; the other waits, with one more arbitration lost. -/
theorem grantAt_reads {aged : Bool} (hapart : w.req.master ≠ v.req.master)
    (hchoice : choice (s.queued [w, v]) x = some ((w, 0), aged)) : grantAt (s.queued [w, v]) x =
      ((grantNoted s x w.req.master w.req.deep aged).queued [{ v with lost := v.lost + 1 }]).send
        (.beamData w.req.master w.req.addr (regBytes s w.req.addr w.req.len)) := by
  have hgranted : granted (s.queued [w, v]) x (w, 0) aged =
      (grantNoted s x w.req.master w.req.deep aged).queued [{ v with lost := v.lost + 1 }] :=
    granted_first rfl (contenders_reads hw hv hapart) aged
  have hfree : (mget (32, 0) s.beam.locks x).1 ≠ w.req.master := fun h =>
    absurd hw.free (Nat.not_le.mpr (h ▸ burstOk_master hw.burst))
  have hserve : serve ((grantNoted s x w.req.master w.req.deep aged).queued [{ v with lost := v.lost + 1 }]) w.req x =
      serveBurst ((grantNoted s x w.req.master w.req.deep aged).queued [{ v with lost := v.lost + 1 }]) w.req :=
    serve_unlocked (requestError_unlocked hw.target hw.allowed hw.unlocked) hfree hw.unlocked
  rw [grantAt, hchoice]
  dsimp only
  rw [hgranted, hserve, serveBurst, hw.read, if_neg Bool.false_ne_true,
    readBurst_registers _ _ _ hw.target hw.register.1 hw.register.2]
  dsimp only
  rw [regBytes_granted]

theorem arbitrate_reads {u : State} {aged : Bool} (hapart : w.req.master ≠ v.req.master)
    (hletIn : letIn u = s.queued [w, v]) (hchoice : choice (s.queued [w, v]) x = some ((w, 0), aged)) : arbitrate u =
      ((grantNoted s x w.req.master w.req.deep aged).queued [{ v with lost := v.lost + 1 }]).send
        (.beamData w.req.master w.req.addr (regBytes s w.req.addr w.req.len)) := by
  have hgrant := grantAt_reads hw hv hapart hchoice
  rw [← hletIn] at hgrant
  rw [arbitrate_one (targetOf_lt hw.target) ?before ?after, hgrant]
  case before =>
    rw [hletIn]
    intro y hy
    rcases List.mem_pair.mp hy with rfl | rfl
    · exact hw.target
    · exact hv.target
  case after =>
    rw [hgrant]
    intro y hy
    rw [List.mem_singleton.mp hy]
    exact hv.target

end

theorem issue_reads {s : State} {q : BeamReq} {x : Nat} (h : Reads s q x) : issue s q = enqueue s q :=
  issue_enqueues h.burst h.fence (requestError_unlocked h.target h.allowed h.unlocked)

section
variable {s : State} {a b : BeamReq} {x : Nat} (ha : Reads s a x) (hb : Reads s b x) (hapart : a.master ≠ b.master)
include ha hb hapart

/-- Of two reads issued together the one of higher priority is granted. -/
theorem execBeamRequest_higher (hpri : pairPri s b.master x < pairPri s a.master x) (halone : s.beam.waiting = []) :
    Gives (.beamRequest [a, b] []) s (fun t =>
      t.out = s.out ++ [.beamData a.master a.addr (regBytes s a.addr a.len)] ∧ t.beam.waiting = [Waiting.mk b 1 false] ∧
      t.mem = s.mem) := by
  have hissue : [a, b].foldl issue s = enqueue (enqueue s a) b := by
    rw [List.foldl_cons, issue_reads ha, List.foldl_cons, List.foldl_nil]
    exact issue_reads (s := enqueue s a) { hb with }
  have hletIn : letIn (enqueue (enqueue s a) b) = s.queued [Waiting.mk a 0 false, Waiting.mk b 0 false] := by
    simp only [letIn, enqueue, halone, List.nil_append, List.cons_append, State.queued]
    rw [admitted_registers]
    simp [isDeepRead_of_registers ha.target ha.register.1, isDeepRead_of_registers hb.target hb.register.1]
  have hchoice := choice_higher (w := Waiting.mk a 0 false) (v := Waiting.mk b 0 false) (contenders_reads ha hb hapart) rfl rfl hpri
  have hgrant := arbitrate_reads (w := Waiting.mk a 0 false) (v := Waiting.mk b 0 false) ha hb hapart hletIn hchoice
  rw [← hissue] at hgrant
  exact ⟨_, congrArg Host.Outcome.next hgrant, rfl, rfl, rfl⟩

/-- A read that has lost 16 times is granted before one of any priority (R257). -/
theorem execBeamRequest_aged {lost : Nat} {ad : Bool} (hlost : 16 ≤ lost) (hwait : s.beam.waiting = [Waiting.mk b lost ad])
    (hsince : 3 ≤ sinceAged s x) : Gives (.beamRequest [a] []) s (fun t =>
      t.out = s.out ++ [.beamData b.master b.addr (regBytes s b.addr b.len)] ∧ t.beam.waiting = [Waiting.mk a 1 false] ∧
      sinceAged t x = 0 ∧ t.mem = s.mem) := by
  have hletIn : letIn (enqueue s a) = s.queued [Waiting.mk b lost ad, Waiting.mk a 0 false] := by
    simp only [letIn, enqueue, hwait, List.cons_append, List.nil_append, State.queued]
    rw [admitted_registers]
    simp [isDeepRead_of_registers ha.target ha.register.1, isDeepRead_of_registers hb.target hb.register.1]
  have hchoice := choice_aged (w := Waiting.mk b lost ad) (v := Waiting.mk a 0 false)
    (contenders_reads hb ha hapart.symm) hlost rfl hsince
  have hgrant := arbitrate_reads (w := Waiting.mk b lost ad) (v := Waiting.mk a 0 false) hb ha hapart.symm hletIn hchoice
  rw [← issue_reads ha] at hgrant
  exact ⟨_, congrArg Host.Outcome.next hgrant, rfl, rfl, mget_mset_self 3 s.beam.grants x 0, rfl⟩

end

/-- Settles O30: the burst alone through its one arbitration, and two reads through the choice between them. -/
theorem beamArbitration : Obligations.BeamArbitration := by
  intro s a b x hx hok
  refine ⟨fun h herror hlocked => ⟨_, congrArg Host.Outcome.next (arbitrate_served hx hok h herror hlocked), _, _, _, rfl⟩,
    fun h herror => ⟨_, congrArg Host.Outcome.next (arbitrate_waits hx hok h herror), rfl, rfl, rfl, isDeepRead a, rfl⟩,
    fun halone hfence herror => ⟨_, congrArg Host.Outcome.next (arbitrate_refused hok halone hfence herror), rfl⟩,
    fun halone hfence => ?fenced,
    fun hlo hhi hokb hra hrb hla hlb hfa hfb hapart hxb hpos hpri hfree htaga htagb hput => ?rivals⟩
  case fenced =>
    have hissue : issue s a = s := by rw [issue, hfence, Bool.or_true, if_pos rfl]
    exact congrArg Host.Outcome.next ((congrArg arbitrate hissue).trans (arbitrate_none halone))
  case rivals =>
    have ha : Reads s a x := ⟨hx, ⟨hlo, hhi⟩, hok, hra, hla, hfa, Nat.ne_of_gt (Nat.zero_lt_of_lt hpri), hfree, htaga,
      fun h => (hput h).1⟩
    have hb : Reads s b x := ⟨hxb, ⟨hlo, hhi⟩, hokb, hrb, hlb, hfb, Nat.ne_of_gt hpos, hfree, htagb, fun h => (hput h).2⟩
    exact ⟨execBeamRequest_higher ha hb hapart hpri, fun lost ad => execBeamRequest_aged ha hb hapart⟩

end Sys2Proof.Machine

namespace Sys2Proof.Machine

/-! A refusal, and LOCK_TIMEOUT (R259, R260) -/

theorem refuse_stget (s : State) (q : BeamReq) (cause d i sub : Nat) (h1 : key i sub ≠ key 0x70E0 0x01)
    (h5 : key i sub ≠ key 0x70E0 0x05) : (refuse s q cause).stget d i sub = s.stget d i sub := by
  have herror : (beamError s q.master q.addr cause).stget d i sub = s.stget d i sub := by
    unfold beamError
    rw [State.raise_stget, State.stget_stset_ne _ _ _ _ h5, State.stget_bump_ne _ _ _ h1]
    rfl
  unfold refuse
  split <;> exact herror

theorem refuse_recorded (s : State) (q : BeamReq) (cause : Nat) : s.beam.Recorded (refuse s q cause).beam :=
  ⟨_, _, _, _, refuse_beam ..⟩

/-- Refusals leave the requests that wait, the locks, memory and the counter of lock timeouts. -/
theorem foldl_refuse (cause : Nat) (l : List Waiting) (s : State) :
    let t := l.foldl (fun s w => refuse s w.req cause) s
    SameRequests s t ∧ t.mem = s.mem ∧ t.stget 0 0x70E0 0x02 = s.stget 0 0x70E0 0x02 :=
  List.foldlRecOn l _ (motive := fun t => SameRequests s t ∧ t.mem = s.mem ∧ t.stget 0 0x70E0 0x02 = s.stget 0 0x70E0 0x02)
    ⟨.of_beam rfl, rfl, rfl⟩ fun t ⟨hreq, hmem, hstat⟩ w _ =>
    ⟨hreq.trans (.of_recorded (refuse_recorded ..)), ((refuse_keeps ..).part .mem rfl).trans hmem,
      (refuse_stget t w.req cause _ _ _ (by decide) (by decide)).trans hstat⟩

theorem execLockTimeout_held {s : State} {x ns : Nat} (hheld : (mget (32, 0) s.beam.locks x).1 < 32) (hdue : lockTimeoutNs s ≤ ns) :
    Gives (.lockTimeout x ns) s (fun t =>
      mget (32, 0) t.beam.locks x = (32, 0) ∧ (∀ y, y ≠ x → mget (32, 0) t.beam.locks y = mget (32, 0) s.beam.locks y) ∧
      t.beam.waiting = s.beam.waiting.filter (fun w =>
        !(decide (w.req.master = (mget (32, 0) s.beam.locks x).1) && decide (targetOf w.req.addr = some x))) ∧
      t.stget 0 0x70E0 0x02 = min (s.stget 0 0x70E0 0x02 + 1) (2 ^ 32 - 1) ∧ t.mem = s.mem) := by
  refine ⟨_, rfl, ?_⟩
  unfold lockTimeout
  dsimp only
  rw [if_neg (by omega)]
  obtain ⟨hreq, hmem, hstat⟩ := foldl_refuse 4 (s.beam.waiting.filter fun w =>
    decide (w.req.master = (mget (32, 0) s.beam.locks x).1) && decide (targetOf w.req.addr = some x))
    { s with beam := { s.beam with
      locks := mset (32, 0) s.beam.locks x (32, 0)
      waiting := s.beam.waiting.filter fun w =>
        !(decide (w.req.master = (mget (32, 0) s.beam.locks x).1) && decide (targetOf w.req.addr = some x)) } }
  rw [((State.raise_keeps ..).part .beam rfl).trans ((State.bump_keeps ..).part .beam rfl), State.raise_stget,
    State.stget_bump_self, ((State.raise_keeps ..).part .mem rfl).trans ((State.bump_keeps ..).part .mem rfl),
    hreq.locks, hreq.waiting, hmem, hstat]
  exact ⟨mget_mset_self (32, 0) s.beam.locks x (32, 0), fun y hy => mget_mset_ne (32, 0) s.beam.locks x (32, 0) y hy, rfl, rfl, rfl⟩

theorem execLockTimeout_early {s : State} {x ns : Nat} (h : ns < lockTimeoutNs s) : exec (.lockTimeout x ns) s = .next s := by
  have hsame : lockTimeout s x ns = s := if_pos (Or.inr h)
  exact congrArg Host.Outcome.next hsame

/-! MASTER_RESET (R261) -/

/-- A Rod that a master reset has cleared: stopped, with no item and no transfer. -/
def Rod.Cleared (q : Rod) : Prop := q.st = .stopped ∧ q.item = none ∧ q.xfers = []

theorem Rod.Cleared.halted {q : Rod} (h : q.item = none) : q.halted.Cleared := ⟨rfl, h, rfl⟩

/-- The end of an item: the Rod without it, the count and event of a failed one, and the measure of a user slot (R217, R232). -/
theorem endItem_preserves {P : State → Prop} (s : State) (r : Nat) (failed : Bool) (hsame : P s)
    (hended : P (s.setRod r { s.rod r with item := none, ending := none }))
    (hfailed : ∀ t a b, P t → P ((t.bump 0x70C0 0x03 1).raise 49 a b)) (hmeasured : ∀ t u, P t → P (measureItem t u r)) :
    P (endItem s r failed) := by
  unfold endItem
  dsimp only
  split
  · exact hsame
  · next it _ =>
    have hcounted : P (if failed = true then
        ((s.setRod r { s.rod r with item := none, ending := none }).bump 0x70C0 0x03 1).raise 49 (r * 256 + it.queue)
          (descBlock it.desc % 2 ^ 32)
        else s.setRod r { s.rod r with item := none, ending := none }) := by
      split
      · exact hfailed _ _ _ hended
      · exact hended
    split
    · exact hmeasured _ _ hcounted
    · exact hcounted

section
variable {s : State} {p : Nat} (h : (s.rod p).Cleared)
include h

theorem stopSlot_cleared (u code : Nat) : ((stopSlot s u code).rod p).Cleared := by
  obtain ⟨hst, hitem, _⟩ := h
  unfold stopSlot
  dsimp only
  split
  · next q _ =>
    rw [rod_setRod]
    split
    · next hq =>
      subst hq
      refine ⟨if_neg ?_, hitem, rfl⟩
      exact fun hfault => absurd (hst.symm.trans hfault) (by decide)
    · exact ⟨hst, hitem, ‹_›⟩
  · exact ⟨hst, hitem, ‹_›⟩

theorem measureItem_cleared (u r : Nat) : ((measureItem s u r).rod p).Cleared := by
  have hkept : ∀ t : State, t.rods = s.rods → (((t.bump (0x7080 + u) 0x08 1).raise 9 u 0).rod p).Cleared := fun t ht =>
    rod_of_rods ((raise_rods ..).trans (((State.bump_keeps ..).part .rods rfl).trans ht)) p ▸ h
  unfold measureItem
  dsimp only
  split_ifs
  · rw [rod_of_rods (State.stset_rods ..)]
    exact h
  · exact stopSlot_cleared (hkept _ ((setSlot_rods ..).trans (State.stset_rods ..))) u 4
  · exact hkept _ ((setSlot_rods ..).trans (State.stset_rods ..))

theorem endItem_cleared (r : Nat) (failed : Bool) : ((endItem s r failed).rod p).Cleared := by
  refine endItem_preserves (P := fun t => (t.rod p).Cleared) s r failed h ?_ (fun t a b ht => ?_)
    fun t u ht => measureItem_cleared ht u r
  · obtain ⟨hst, _, hxfers⟩ := id h
    rw [rod_setRod]
    split
    · next hp => subst hp; exact ⟨hst, rfl, hxfers⟩
    · exact h
  · rw [rod_of_rods (raise_rods ..)]
    exact ht

theorem clearRod_cleared (r : Nat) : ((clearRod s r).rod p).Cleared := endItem_cleared (s := dropHeld s r) h r true

end

/-- One Rod of the port reset. -/
theorem clearRod_halted (s : State) (r p : Nat) (h : p = r ∨ (s.rod p).Cleared) :
    (((clearRod s r).setRod r ((clearRod s r).rod r).halted).rod p).Cleared := by
  rw [rod_setRod]
  split
  · exact .halted (endItem_rod (dropHeld s r) r true).1
  · next hp => exact clearRod_cleared (h.resolve_left hp) r

theorem foldl_clearRod (p : Nat) : ∀ (l : List Nat) (s : State), p ∈ l ∨ (s.rod p).Cleared →
    ((l.foldl (fun s r => (clearRod s r).setRod r ((clearRod s r).rod r).halted) s).rod p).Cleared
  | [], _, h => h.resolve_left List.not_mem_nil
  | r :: l, s, h => by
    refine foldl_clearRod p l _ ?_
    rcases h with hmem | hdone
    · rcases List.mem_cons.mp hmem with hp | hl
      · exact .inr (clearRod_halted s r p (.inl hp))
      · exact .inl hl
    · exact .inr (clearRod_halted s r p (.inr hdone))

theorem resetRods_cleared (s : State) {m p : Nat} (hp : p ∈ portRods m) : ((resetRods s m).rod p).Cleared :=
  foldl_clearRod p (portRods m) s (.inl hp)

theorem masterReset_cleared (s : State) {m p : Nat} (hm : m < 32) (hp : p ∈ portRods m) : ((masterReset s m).rod p).Cleared := by
  unfold masterReset
  dsimp only
  rw [if_neg (by omega)]
  split
  · exact resetRods_cleared s hp
  · rw [rod_of_rods (raise_rods ..)]
    exact resetRods_cleared _ hp

/-! The counter of master resets -/

theorem key_ne_of_sub {i j a b : Nat} (ha : a < 256) (hb : b < 256) (h : a ≠ b) : key i a ≠ key j b := by
  simp only [key]
  omega

theorem measureItem_resets (s : State) (u r : Nat) : (measureItem s u r).stget 0 0x70E0 0x03 = s.stget 0 0x70E0 0x03 := by
  have hmost : ∀ v, (s.stset 0 (0x7080 + u) 0x06 v).stget 0 0x70E0 0x03 = s.stget 0 0x70E0 0x03 := fun v =>
    State.stget_stset_ne _ _ _ _ (key_ne_of_sub (by decide) (by decide) (by decide))
  have hslot : ∀ (t : State) (v : UserSlot), (setSlot t u v).stget 0 0x70E0 0x03 = t.stget 0 0x70E0 0x03 := fun t v =>
    congrArg (mget 0 · (key 0x70E0 0x03)) (setSlot_stat ..)
  have hover : ∀ t : State, t.stget 0 0x70E0 0x03 = s.stget 0 0x70E0 0x03 →
      ((t.bump (0x7080 + u) 0x08 1).raise 9 u 0).stget 0 0x70E0 0x03 = s.stget 0 0x70E0 0x03 := fun t ht => by
    rw [State.raise_stget, State.stget_bump_ne _ _ _ (key_ne_of_sub (by decide) (by decide) (by decide)), ht]
  have hstop : ∀ t : State, (stopSlot t u 4).stget 0 0x70E0 0x03 = t.stget 0 0x70E0 0x03 := fun t =>
    congrArg (mget 0 · (key 0x70E0 0x03)) ((stopSlot_keeps t u 4).part .stat rfl)
  unfold measureItem
  dsimp only
  split_ifs
  · exact hmost _
  · exact (hstop _).trans (hover _ ((hslot ..).trans (hmost _)))
  · exact hover _ ((hslot ..).trans (hmost _))

theorem endItem_resets (s : State) (r : Nat) (failed : Bool) :
    (endItem s r failed).stget 0 0x70E0 0x03 = s.stget 0 0x70E0 0x03 := by
  refine endItem_preserves (P := fun t => t.stget 0 0x70E0 0x03 = s.stget 0 0x70E0 0x03) s r failed rfl rfl
    (fun t a b ht => ?_) fun t u ht => (measureItem_resets t u r).trans ht
  rw [State.raise_stget, State.stget_bump_ne _ _ _ (by decide), ht]

theorem clearRod_resets (s : State) (r : Nat) : (clearRod s r).stget 0 0x70E0 0x03 = s.stget 0 0x70E0 0x03 :=
  endItem_resets (dropHeld s r) r true

theorem resetRods_resets (s : State) (m : Nat) : (resetRods s m).stget 0 0x70E0 0x03 = s.stget 0 0x70E0 0x03 := by
  unfold resetRods
  refine foldl_same (φ := fun t : State => t.stget 0 0x70E0 0x03) (fun t r => ?_) (portRods m) s
  exact (congrArg (mget 0 · (key 0x70E0 0x03)) (State.setRod_stat ..)).trans (clearRod_resets t r)

section
variable {s : State} {m : Nat} (hm : m < 32)
include hm

theorem execMasterReset_onBeam (h : onBeam s m = true) : Gives (.masterReset m) s (fun t =>
    t.beam.waiting = s.beam.waiting.filter (fun w => w.req.master ≠ m) ∧
    t.stget 0 0x70E0 0x03 = min (s.stget 0 0x70E0 0x03 + 1) (2 ^ 32 - 1) ∧ t.stget 0xFF 0x70E0 0x04 = m) := by
  refine ⟨_, rfl, ?_⟩
  unfold masterReset
  dsimp only
  rw [if_neg (by omega), h, if_neg (by decide)]
  refine ⟨?waiting, ?resets, ?last⟩
  case waiting =>
    rw [(State.raise_keeps ..).part .beam rfl, (State.bump_keeps ..).part .beam rfl, (State.stset_keeps ..).part .beam rfl,
      (resetRods_keeps ..).part .beam rfl, (dropHeld_keeps ..).part .beam rfl]
  case resets =>
    rw [State.raise_stget, State.stget_bump_self, State.stget_stset_ne _ _ _ _ (by decide), resetRods_resets]
    rfl
  case last => rw [State.raise_stget, State.stget_bump_ne _ _ _ (by decide), stget_stset]

theorem execMasterReset_offBeam (h : onBeam s m = false) : Gives (.masterReset m) s (fun t =>
    t.beam = s.beam ∧ t.stget 0 0x70E0 0x03 = s.stget 0 0x70E0 0x03 ∧ (8 ≤ m → t = s)) := by
  have hreset : masterReset s m = resetRods s m := by
    unfold masterReset
    rw [if_neg (by omega), h]
    rfl
  refine ⟨_, congrArg Host.Outcome.next hreset, (resetRods_keeps ..).part .beam rfl, resetRods_resets s m, fun h8 => ?_⟩
  unfold resetRods portRods
  rw [if_neg (by omega), List.foldl_nil]

end

end Sys2Proof.Machine

namespace Sys2Proof.Machine

/-! The target of a storage port stays ready through a read (R276, R304) -/

theorem abortMigration_state (s : State) : (abortMigration s).dram.state = s.dram.state := by
  unfold abortMigration
  dsimp only
  split
  · rfl
  · rw [(State.raise_keeps ..).part .dram rfl]
    rfl

theorem triggerNow_state (s : State) (p : Nat) (hard : Bool) : (triggerNow s p hard).dram.state = s.dram.state := by
  have henter : (s.enter 72 p 0).dram.state = s.dram.state := congrArg Dram.state ((State.enter_keeps ..).part .dram rfl)
  unfold triggerNow
  split
  · split_ifs
    · exact abortMigration_state s
    · rfl
    · rfl
    · exact henter
    · rfl
  · split_ifs
    · rfl
    · exact henter
    · split
      · rfl
      · split
        · rfl
        · exact henter

theorem triggerRank_state (s : State) (p : Nat) (hard : Bool) : (triggerRank s p hard).dram.state = s.dram.state := by
  unfold triggerRank
  split
  · exact triggerNow_state s p hard
  · rfl

theorem bankPoisoned_state (s : State) (b : Nat) : (bankPoisoned s b).dram.state = s.dram.state := by
  have hlost : ∀ k, (bankLost s k).dram.state = s.dram.state := fun k => by
    unfold bankLost
    dsimp only
    split
    · rfl
    · rfl
    · exact congrArg Dram.state ((State.raise_keeps ..).part .dram rfl)
  unfold bankPoisoned
  split
  · exact hlost _
  · rfl

theorem poisonBlock_state (s : State) (b : Nat) : (poisonBlock s b).dram.state = s.dram.state := by
  have hraised : ∀ (t : State) (p src a c : Nat) (q : Bool), t.dram.state = s.dram.state →
      (triggerRank { t.raise src a c with dram := { (t.raise src a c).dram with hoDram := q } } p true).dram.state = s.dram.state :=
    fun t p src a c q ht =>
      (triggerRank_state ..).trans ((congrArg Dram.state ((State.raise_keeps t src a c).part .dram rfl)).trans ht :)
  unfold poisonBlock
  dsimp only
  split
  · exact (bankPoisoned_state ..).trans (hraised _ _ _ _ _ _ rfl)
  · exact hraised _ _ _ _ _ _ rfl

theorem Dram.state_with_neigh (d : Dram) (k : Nat) : ({ d with neigh := k } : Dram).state = d.state := rfl

theorem neighbourDraw_state (s : State) : (neighbourDraw s).dram.state = s.dram.state := Dram.state_with_neigh ..

theorem activate_state (s : State) (p a : Nat) : (activate s p a).dram.state = s.dram.state := by
  rcases activate_cases s p a with h | ⟨rows, h⟩
  · rw [h]
  · rw [h, neighbourDraw_state]

theorem countCorrection_state (s : State) (b : Nat) : (countCorrection s b).dram.state = s.dram.state := by
  unfold countCorrection
  dsimp only
  split
  · exact triggerRank_state ..
  · rfl

theorem dramNote_state (s : State) (b : Nat) : (dramNote s b).dram.state = s.dram.state := by
  have hact := activate_state s (rankAt s b) b
  unfold dramNote
  dsimp only
  split
  · exact hact
  split
  · exact (poisonBlock_state ..).trans hact
  split
  · rw [countCorrection_state]
    split
    · exact hact
    · exact hact
  · exact hact

theorem writeBack_state (s : State) : (writeBack s).dram.state = s.dram.state := by
  unfold writeBack
  refine foldl_same (φ := fun t : State => t.dram.state) (fun t b => ?_) s.dram.wback s
  dsimp only
  split
  · rfl
  · exact foldl_same (φ := fun t : State => t.dram.state) (fun t p => activate_state t p b) (routeOf t b true) t

theorem burstEnd_state (s : State) : (burstEnd s).dram.state = s.dram.state := by
  unfold burstEnd
  split
  · split <;> rfl
  · rw [writeBack_state]
    rfl

/-- The DRAM takes requests: in service, in self-refresh or Parked. -/
def State.DramServes (s : State) : Prop := s.dram.state = 2 ∨ s.dram.state = 3 ∨ s.dram.state = 4

theorem wakeDram_serves {s : State} (h : s.DramServes) : (wakeDram s).DramServes := by
  unfold wakeDram
  split
  · unfold backInService
    exact .inl (foldl_same (φ := fun t : State => t.dram.state) (fun t e => triggerNow_state t e.1 e.2) s.dram.late _)
  · exact h

theorem dramBurst_serves {s : State} (h : s.DramServes) (a n : Nat) :
    (burstEnd (dramRead (wakeDram s) a n).1).DramServes := by
  have hread : (burstEnd (dramRead (wakeDram s) a n).1).dram.state = (wakeDram s).dram.state :=
    (burstEnd_state _).trans (foldl_same (φ := fun t : State => t.dram.state) dramNote_state _ _)
  unfold State.DramServes
  rw [hread]
  exact wakeDram_serves h

theorem ledgerNote_ready (s : State) (w : Nat) : (ledgerNote s w).ledger.ready = s.ledger.ready := by
  unfold ledgerNote
  split
  · rfl
  · split
    · exact congrArg Ledger.ready ((State.raise_keeps ..).part .ledger rfl)
    · dsimp only
      split <;> rfl

theorem ledgerRead_ready (s : State) (a n : Nat) : (ledgerRead s a n).1.ledger.ready = s.ledger.ready :=
  foldl_same (φ := fun t : State => t.ledger.ready) ledgerNote_ready (wordsOf a n) s

theorem targetReady_ledger {s t : State} {x : Nat} (hx : x < 8) (h : t.ledger.ready = s.ledger.ready) :
    targetReady t x = targetReady s x := by
  rw [targetReady, if_pos hx, targetReady, if_pos hx, h]

theorem targetReady_dram {s : State} {x : Nat} (hlo : 8 ≤ x) (hhi : x < 12) : targetReady s x = true ↔ s.DramServes := by
  rw [targetReady, if_neg (by omega), if_pos hhi, decide_eq_true_iff]
  rfl

/-- The storage port of an address: the Ledger or the DRAM (R254). -/
theorem storage_of_target {a x : Nat} (hx : targetOf a = some x) (h12 : x < 12) :
    (inLedger a = true ∧ x < 8) ∨ (inLedger a = false ∧ inDram a = true ∧ 8 ≤ x) := by
  unfold targetOf bitsOf at hx
  by_cases hledger : a < 0x04000000
  · rw [if_pos hledger] at hx
    simp only [Option.some.injEq] at hx
    exact .inl ⟨decide_eq_true hledger, by omega⟩
  · rw [if_neg hledger] at hx
    have hdram : inDram a = true := by
      by_contra h
      rw [if_neg h] at hx
      split_ifs at hx <;> simp only [Option.some.injEq] at hx <;> omega
    refine .inr ⟨decide_eq_false hledger, hdram, ?_⟩
    split_ifs at hx <;> simp only [Option.some.injEq] at hx <;> omega

section
variable {s : State} {a x : Nat} (hx : targetOf a = some x) (h12 : x < 12)
include hx h12

/-- What a read of a storage port may change. -/
theorem readBurst_storage (m n : Nat) : Keeps [.nv, .stat, .pipe, .twin, .beam, .ledger, .dram, .mem, .events, .draws] s
    (readBurst s m a n).1 := by
  unfold readBurst
  dsimp only
  rcases storage_of_target hx h12 with ⟨hledger, _⟩ | ⟨hledger, hdram, _⟩
  · rw [hledger, if_pos rfl]
    exact (ledgerRead_keeps ..).mono rfl
  · rw [hledger, hdram, if_neg Bool.false_ne_true, if_pos rfl]
    split
    · exact (beamError_keeps ..).mono rfl
    · exact (burstEnd_keeps _).step rfl ((dramRead_keeps ..).step rfl ((wakeDram_keeps s).mono rfl))

theorem readBurst_ready (m n : Nat) (h : targetReady s x = true) : targetReady (readBurst s m a n).1 x = true := by
  unfold readBurst
  dsimp only
  rcases storage_of_target hx h12 with ⟨hledger, h8⟩ | ⟨hledger, hdram, h8⟩
  · rw [hledger, if_pos rfl, targetReady_ledger h8 (ledgerRead_ready ..), h]
  · rw [hledger, hdram, if_neg Bool.false_ne_true, if_pos rfl]
    have hserves := (targetReady_dram h8 h12).mp h
    refine (targetReady_dram h8 h12).mpr ?_
    split
    · unfold State.DramServes
      rw [(beamError_keeps ..).part .dram rfl]
      exact hserves
    · exact dramBurst_serves hserves a n

end

/-! A burst alone at its target, with the lock of its sequence (R258) -/

theorem lockAllowed_master {m x : Nat} (h : lockAllowed m x = true) : m = 26 ∨ m = 30 ∨ m = 31 := by
  simpa [lockAllowed, List.contains_iff_mem] using ((Bool.and_eq_true _ _).mp h).1

theorem lockAllowed_storage {m x : Nat} (h : lockAllowed m x = true) : x < 12 :=
  of_decide_eq_true ((Bool.and_eq_true _ _).mp h).2

/-- No unit that a fence can take off the Beam may lock. -/
theorem masterFenced_of_lockAllowed {m x : Nat} (h : lockAllowed m x = true) (s : State) : masterFenced s m = false := by
  have hm := lockAllowed_master h
  unfold masterFenced
  rw [decide_eq_false (by omega), decide_eq_false (by omega)]
  rfl

/-- Burst `q` of a lock master, alone at storage port `x`: the port is free or its own, and the sequence has beats left. -/
structure Grantable (s : State) (q : BeamReq) (x : Nat) : Prop where
  target  : targetOf q.addr = some x
  lock    : lockAllowed q.master x = true
  burst   : burstOk q = true
  allowed : pairPri s q.master x ≠ 0
  ready   : targetReady s x = true
  alone   : s.beam.waiting = []
  tag     : (heldTags s).count q.master < 2
  others  : q.locked = true → locksOther s q.master x = false
  holder  : (mget (32, 0) s.beam.locks x).1 < 32 → q.master = (mget (32, 0) s.beam.locks x).1
  beats   : (mget (32, 0) s.beam.locks x).2 + beatsOf q ≤ 16

section
variable {s : State} {q : BeamReq} {x : Nat} (h : Grantable s q x)
include h

theorem Grantable.requestError : requestError s q = 0 := by
  have hlock : (q.locked && (!lockAllowed q.master x || locksOther s q.master x)) = false := by
    cases hlocked : q.locked with
    | false => rfl
    | true => rw [h.lock, h.others hlocked]; rfl
  rw [Machine.requestError, h.target]
  dsimp only
  rw [if_neg h.allowed, hlock, if_neg Bool.false_ne_true]

theorem Grantable.contend : Contend (s.queued [Waiting.fresh q]) x := by
  have hx := lockAllowed_storage h.lock
  refine ⟨?_, List.nodup_singleton _, ?_, h.ready, ?_, ?_, ?_⟩
  all_goals
    intro w hw
    cases List.mem_singleton.mp hw
  · exact h.target
  · exact h.tag
  · exact h.holder
  · exact fun h14 => absurd hx (by omega)
  · exact id

/-- The burst is granted and served, with its effect on the lock. -/
theorem Grantable.serves : grantAt (letIn (issue s q)) x =
    serveBurst (lockAfter (grantNoted s x q.master q.deep false) q x) q := by
  have herror : Machine.requestError (grantNoted s x q.master q.deep false) q = 0 := h.requestError
  have hbeats : ¬ ((mget (32, 0) s.beam.locks x).1 = q.master ∧ 16 < (mget (32, 0) s.beam.locks x).2 + beatsOf q) :=
    fun hover => absurd h.beats (Nat.not_le.mpr hover.2)
  have hserve : serve (grantNoted s x q.master q.deep false) q x =
      serveBurst (lockAfter (grantNoted s x q.master q.deep false) q x) q := by
    unfold serve
    dsimp only
    rw [if_neg (not_not.mpr herror)]
    exact if_neg hbeats
  rw [issue_enqueues h.burst (masterFenced_of_lockAllowed h.lock s) h.requestError, letIn_alone h.alone, grantAt,
    choice_alone h.contend.contenders rfl]
  dsimp only
  rw [granted_only (s := s.queued [Waiting.fresh q]) rfl, grantNoted_queued h.alone]
  exact hserve

theorem Grantable.lockedStep {n : Nat} (hn : n + beatsOf q ≤ 16) : lockedStep q.master (s, n, false) q =
    (serveBurst (lockAfter (grantNoted s x q.master q.deep false) q x) q, n + beatsOf q, false) := by
  rw [Machine.lockedStep, h.target]
  dsimp only
  rw [h.burst, masterFenced_of_lockAllowed h.lock, h.lock, if_neg (by decide), if_neg (by decide), if_neg (by omega), h.serves]

end

/-- A read sends its master one frame of data. -/
theorem serveBurst_read (s : State) {q : BeamReq} (h : q.write = false) : ∃ d, serveBurst s q =
    (readBurst s q.master q.addr q.len).1.send (.beamData q.master q.addr d) := by
  unfold serveBurst
  rw [h, if_neg Bool.false_ne_true]
  dsimp only
  split
  · exact ⟨_, rfl⟩
  · exact ⟨_, rfl⟩

/-! LOCKED_SEQUENCE (R258) -/

theorem heldTags_congr {s t : State} (htally : t.tally = s.tally) (hrods : t.rods = s.rods) : heldTags t = heldTags s := by
  unfold heldTags
  rw [htally, hrods]

theorem pairPri_congr {s t : State} (hkeys : t.keys = s.keys) (hpri : t.beam.pri = s.beam.pri) (m x : Nat) :
    pairPri t m x = pairPri s m x := by
  unfold pairPri debugOpen beamPri
  rw [hkeys, hpri]

theorem memByte_memStrobe_ne : ∀ (d : List Byte) (st : List Bool) (m : List Host.Cell) {a k : Nat}, k < a →
    memByte (memStrobe m a d st) k = memByte m k
  | [], _, _, _, _, _ => by rw [memStrobe]; all_goals nofun
  | _ :: _, [], _, _, _, _ => by rw [memStrobe]; all_goals nofun
  | b :: d, true :: st, m, a, k, h => by
    rw [memStrobe, memByte_memStrobe_ne d st _ (Nat.lt_succ_of_lt h), memByte_memSet, if_neg (Nat.ne_of_lt h)]
  | b :: d, false :: st, m, a, k, h => by rw [memStrobe, memByte_memStrobe_ne d st _ (Nat.lt_succ_of_lt h)]

/-- A strobed byte is stored. -/
theorem memByte_memStrobe : ∀ (d : List Byte) (st : List Bool) (m : List Host.Cell) (a : Nat) {i : Nat}, i < d.length →
    st.getD i false = true → memByte (memStrobe m a d st) (a + i) = d.getD i 0
  | [], _, _, _, _, h, _ => absurd h (Nat.not_lt_zero _)
  | _ :: _, [], _, _, _, _, hst => absurd hst (by simp)
  | b :: d, true :: st, m, a, 0, _, _ => by
    rw [Nat.add_zero]
    exact (memByte_memStrobe_ne d st _ (Nat.lt_add_one a)).trans ((memByte_memSet m a b a).trans (if_pos rfl))
  | b :: d, false :: st, m, a, 0, _, hst => absurd hst (by simp)
  | b :: d, true :: st, m, a, i + 1, h, hst => by
    rw [← Nat.add_assoc, Nat.add_right_comm]
    exact memByte_memStrobe d st _ (a + 1) (Nat.lt_of_succ_lt_succ h) hst
  | b :: d, false :: st, m, a, i + 1, h, hst => by
    rw [← Nat.add_assoc, Nat.add_right_comm]
    exact memByte_memStrobe d st _ (a + 1) (Nat.lt_of_succ_lt_succ h) hst

theorem burstOk_length {q : BeamReq} (h : burstOk q = true) (hwrite : q.write = true) : q.data.length = q.len := by
  unfold burstOk at h
  rw [Bool.and_eq_true, hwrite, Bool.not_true, Bool.false_or] at h
  exact of_decide_eq_true ((Bool.and_eq_true _ _).mp h.2).1

/-- A granted write of the Ledger stores its strobed bytes and sends nothing. -/
theorem serveBurst_ledger (s : State) {q : BeamReq} (hwrite : q.write = true) (hledger : inLedger q.addr = true) :
    serveBurst s q = ledgerWrite s q.addr q.data q.strobe := by
  unfold serveBurst writeBurst
  rw [hwrite, hledger, if_pos rfl, if_pos rfl]

section
variable (s : State) {q : BeamReq} {x : Nat}

/-- The port taken by the first burst of a sequence. -/
theorem lockAfter_first (hlocked : q.locked = true) (hfree : s.beam.locks = []) (hm : q.master < 32) : ∃ b,
    lockAfter (grantNoted s x q.master q.deep false) q x = { s with beam := b } ∧ b.waiting = s.beam.waiting ∧
      b.pri = s.beam.pri ∧ mget (32, 0) b.locks x = (q.master, beatsOf q) := by
  have hnone : mget (32, 0) (grantNoted s x q.master q.deep false).beam.locks x = (32, 0) := congrArg (mget (32, 0) · x) hfree
  unfold lockAfter
  dsimp only
  rw [hnone, hlocked, if_pos rfl, decide_eq_false (by omega), if_neg Bool.false_ne_true, Nat.zero_add]
  exact ⟨_, rfl, rfl, rfl, mget_mset_self (32, 0) s.beam.locks x (q.master, beatsOf q)⟩

/-- The port left by the last burst of a sequence. -/
theorem lockAfter_last (hlocked : q.locked = false) (hheld : (mget (32, 0) s.beam.locks x).1 = q.master) : ∃ b,
    lockAfter (grantNoted s x q.master q.deep false) q x = { s with beam := b } ∧ b.waiting = s.beam.waiting ∧
      mget (32, 0) b.locks x = (32, 0) := by
  have hmine : (mget (32, 0) (grantNoted s x q.master q.deep false).beam.locks x).1 = q.master := hheld
  unfold lockAfter
  dsimp only
  rw [hlocked, if_neg Bool.false_ne_true, hmine, if_pos (decide_eq_true rfl)]
  exact ⟨_, rfl, rfl, mget_mset_self (32, 0) s.beam.locks x (32, 0)⟩

end

/-- The first burst of a sequence leaves its port to the second (R258). -/
theorem Grantable.next {s : State} {q1 q2 : BeamReq} {x : Nat} (h : Grantable s q1 x) (hread : q1.write = false)
    (hlocked : q1.locked = true) (hlast : q2.locked = false) (hfree : s.beam.locks = []) (hmaster : q2.master = q1.master)
    (hburst : burstOk q2 = true) (htarget : targetOf q2.addr = some x) (hbeats : beatsOf q1 + beatsOf q2 ≤ 16) :
    ∃ d t, serveBurst (lockAfter (grantNoted s x q1.master q1.deep false) q1 x) q1 = t ∧ Grantable t q2 x ∧
      t.out = s.out ++ [.beamData q1.master q1.addr d] ∧ (mget (32, 0) t.beam.locks x).1 = q2.master := by
  have hx := lockAllowed_storage h.lock
  obtain ⟨b, hb, hwaiting, hpri, hheld⟩ := lockAfter_first s (x := x) hlocked hfree (burstOk_master h.burst)
  rw [hb]
  obtain ⟨d, hd⟩ := serveBurst_read { s with beam := b } hread
  have hkept := readBurst_storage (s := { s with beam := b }) h.target hx q1.master q1.len
  have hready : targetReady { s with beam := b } x = true := h.ready
  obtain ⟨_, _, _, _, hbeam⟩ := readBurst_recorded { s with beam := b } q1.master q1.addr q1.len
  have hlocks : mget (32, 0) (readBurst { s with beam := b } q1.master q1.addr q1.len).1.beam.locks x =
      (q1.master, beatsOf q1) := by rw [hbeam, ← hheld]
  refine ⟨d, _, hd, ?grantable, congrArg (· ++ _) (hkept.part .out rfl), ?holder⟩
  case holder => exact (congrArg Prod.fst hlocks).trans hmaster.symm
  case grantable =>
    exact {
      target := htarget
      lock := hmaster ▸ h.lock
      burst := hburst
      allowed := by
        rw [hmaster]
        refine ne_of_eq_of_ne (pairPri_congr (s := s) (hkept.part .keys rfl) ?_ q1.master x) h.allowed
        exact (congrArg Beam.pri hbeam :).trans hpri
      ready := readBurst_ready h.target hx q1.master q1.len hready
      alone := (congrArg Beam.waiting hbeam).trans (hwaiting.trans h.alone)
      tag := by
        rw [hmaster]
        exact (congrArg (List.count q1.master) (heldTags_congr (hkept.part .tally rfl) (hkept.part .rods rfl))).trans_lt h.tag
      others := fun hl => absurd (hl.symm.trans hlast) nofun
      holder := fun _ => hmaster.trans (congrArg Prod.fst hlocks).symm
      beats := (congrArg (·.2 + beatsOf q2) hlocks).trans_le hbeats }

/-- The last burst of a sequence frees its port (R258). -/
theorem Grantable.last {s : State} {q : BeamReq} {x : Nat} (h : Grantable s q x) (hlocked : q.locked = false)
    (hheld : (mget (32, 0) s.beam.locks x).1 = q.master) :
    ∃ t, serveBurst (lockAfter (grantNoted s x q.master q.deep false) q x) q = t ∧ t.beam.waiting = [] ∧
      mget (32, 0) t.beam.locks x = (32, 0) ∧
      (q.write = false → ∃ d, t.out = s.out ++ [.beamData q.master q.addr d]) ∧
      (q.write = true → x < 8 → t.out = s.out ∧
        ∀ i, i < q.len → q.strobe.getD i false = true → memByte t.mem (q.addr + i) = q.data.getD i 0) := by
  have hx := lockAllowed_storage h.lock
  obtain ⟨b, hb, hwaiting, hfree⟩ := lockAfter_last s hlocked hheld
  rw [hb]
  have hsame := serveBurst_sameRequests { s with beam := b } q
  refine ⟨_, rfl, hsame.waiting.trans (hwaiting.trans h.alone), (congrArg (mget (32, 0) · x) hsame.locks).trans hfree,
    fun hread => ?read, fun hwrite h8 => ?write⟩
  case read =>
    obtain ⟨d, hd⟩ := serveBurst_read { s with beam := b } hread
    have hkept := readBurst_storage (s := { s with beam := b }) h.target hx q.master q.len
    exact ⟨d, hd ▸ congrArg (· ++ _) (hkept.part .out rfl)⟩
  case write =>
    have hledger : inLedger q.addr = true := by
      rcases storage_of_target h.target hx with ⟨hin, _⟩ | ⟨_, _, h8'⟩
      · exact hin
      · exact absurd h8 (Nat.not_lt.mpr h8')
    rw [serveBurst_ledger _ hwrite hledger]
    refine ⟨(ledgerWrite_keeps ..).part .out rfl, fun i hi hstrobe => ?_⟩
    exact memByte_memStrobe q.data q.strobe _ q.addr (hi.trans_eq (burstOk_length h.burst hwrite).symm) hstrobe

section
variable {s : State} {m x : Nat} {q : BeamReq} (hx : targetOf q.addr = some x)
include hx

/-- A locked burst at a target that its master may not lock (R258). -/
theorem execLockedSequence_barred (hallowed : lockAllowed m x = false) (hburst : burstOk { q with master := m } = true)
    (hfence : masterFenced s m = false) : Gives (.lockedSequence m [q]) s (fun t =>
      t.beam = { s.beam with errAddr := q.addr % 2 ^ 40, errMas := m, errCau := 3, errVal := true } ∧ t.mem = s.mem ∧
      t.out = (if q.write then s.out else s.out ++ [.beamData m q.addr (List.replicate q.len 0#8)])) := by
  have hrefused : lockedSequence s m [q] = refuse s { q with master := m } 3 := by
    simp only [lockedSequence, lockedBursts, List.foldl_cons, List.foldl_nil, lockedStep, hx, hburst, hfence, hallowed]
    rfl
  refine ⟨_, congrArg Host.Outcome.next hrefused, refuse_beam .., (refuse_keeps ..).part .mem rfl, ?_⟩
  have herror : (beamError s m q.addr 3).out = s.out := (beamError_keeps ..).part .out rfl
  unfold refuse
  dsimp only
  split
  · exact herror
  · exact congrArg (· ++ _) herror

end

/-- A read and a last burst of one storage port (R258). -/
theorem execLockedSequence_pair {s : State} {m x : Nat} {q1 q2 : BeamReq} (hallowed : lockAllowed m x = true)
    (hfree : s.beam.locks = []) (hserved : Served s m x) (hread : q1.write = false) (hlast : q2.locked = false)
    (hbeats : beatsOf q1 + beatsOf q2 ≤ 16) (hburst1 : burstOk { q1 with master := m } = true)
    (hburst2 : burstOk { q2 with master := m } = true) (hx1 : targetOf q1.addr = some x) (hx2 : targetOf q2.addr = some x) :
    Gives (.lockedSequence m [q1, q2]) s (fun t => t.beam.waiting = [] ∧ mget (32, 0) t.beam.locks x = (32, 0) ∧
      (q2.write = false → ∃ d1 d2, t.out = s.out ++ [.beamData m q1.addr d1, .beamData m q2.addr d2]) ∧
      (q2.write = true → x < 8 → (∃ d1, t.out = s.out ++ [.beamData m q1.addr d1]) ∧
        ∀ i, i < q2.len → q2.strobe.getD i false = true → memByte t.mem (q2.addr + i) = q2.data.getD i 0)) := by
  have hnone : mget (32, 0) s.beam.locks x = (32, 0) := congrArg (mget (32, 0) · x) hfree
  have hfirst : beatsOf { q1 with master := m, locked := true } ≤ 16 := Nat.le_of_add_right_le hbeats
  have h1 : Grantable s { q1 with master := m, locked := true } x :=
    { target := hx1
      lock := hallowed
      burst := hburst1
      allowed := hserved.allowed
      ready := hserved.ready
      alone := hserved.alone
      tag := hserved.tag
      others := fun _ => by rw [locksOther, hfree, List.any_nil]
      holder := fun hl => absurd hl (Nat.not_lt.mpr hserved.unlocked)
      beats := by rwa [hnone, Nat.zero_add] }
  obtain ⟨d1, t, ht, h2, hout1, hheld⟩ := h1.next (q2 := { q2 with master := m }) hread rfl hlast hfree rfl hburst2 hx2 hbeats
  obtain ⟨u, hu, hwaiting, hlocks, hsent, hstored⟩ := h2.last hlast hheld
  have hstep1 := h1.lockedStep (n := 0) (by rwa [Nat.zero_add])
  have hstep2 := h2.lockedStep (n := 0 + beatsOf q1) (by rw [Nat.zero_add]; exact hbeats)
  rw [ht] at hstep1
  rw [hu] at hstep2
  have hboth : lockedSequence s m [q1, q2] = u := by
    simp only [lockedSequence, lockedBursts, List.foldl_cons, List.foldl_nil]
    exact congrArg Prod.fst ((congrArg (fun a => lockedStep m a { q2 with master := m }) hstep1).trans hstep2)
  refine ⟨u, congrArg Host.Outcome.next hboth, hwaiting, hlocks, fun hr => ?_, fun hw h8 => ?_⟩
  · obtain ⟨d2, hout2⟩ := hsent hr
    exact ⟨d1, d2, by rw [hout2, hout1, List.append_assoc]; rfl⟩
  · obtain ⟨hout2, hbytes⟩ := hstored hw h8
    exact ⟨⟨d1, hout2.trans hout1⟩, hbytes⟩

/-- Settles O31: a sequence burst by burst, the release at a timeout, and the reset Rod by Rod. -/
theorem beamLocks : Obligations.BeamLocks := by
  intro s m hm
  exact ⟨fun q x hx => execLockedSequence_barred hx,
    fun q1 q2 x => execLockedSequence_pair,
    fun x ns => execLockTimeout_held,
    fun x ns => execLockTimeout_early,
    ⟨_, rfl, fun r hr => masterReset_cleared s hm hr⟩,
    execMasterReset_onBeam hm,
    execMasterReset_offBeam hm⟩

end Sys2Proof.Machine

namespace Sys2Proof.Machine

/-! LEDGER_SCRUB: the queue and the line of a scrub slot (R273) -/

/-- Where the scrubber stands: its correction queue and its next line. -/
def State.scrubAt (s : State) : List Nat × Nat := (s.ledger.queue, s.ledger.line)

theorem Keeps.scrubAt {f : List Part} {s t : State} (h : Keeps f s t) (hf : Part.isIn .ledger f = false) :
    t.scrubAt = s.scrubAt := congrArg (fun l : Ledger => (l.queue, l.line)) (h.part .ledger hf)

section
variable (s : State)

theorem applyUpsets_scrubAt (ups : List Upset) : (applyUpsets s ups).scrubAt = s.scrubAt := by
  refine foldl_same (φ := State.scrubAt) (fun t u => ?_) ups s
  dsimp only
  split_ifs <;> rfl

theorem startRepair_scrubAt (bank line : Nat) : (startRepair s bank line).scrubAt = s.scrubAt := by
  unfold startRepair
  split <;> rfl

theorem scrubCorrect_scrubAt (w b : Nat) : (scrubCorrect s w b).scrubAt = s.scrubAt := by
  unfold scrubCorrect
  dsimp only
  split
  · exact startRepair_scrubAt ..
  · rfl

theorem serveQueued_scrubAt (w : Nat) : (serveQueued s w).scrubAt = s.scrubAt := by
  unfold serveQueued
  split
  · split
    · rfl
    · exact scrubCorrect_scrubAt ..
  · rfl

theorem patrolWord_scrubAt (e : Nat × Option Nat) : (patrolWord s e).scrubAt = s.scrubAt := by
  unfold patrolWord
  split
  · rfl
  · split
    · exact startRepair_scrubAt ..
    · exact scrubCorrect_scrubAt ..

end

/-! The second slot of a repair (R274) -/

/-- The words of line `l` of a bank. -/
def lineWords (bank l : Nat) : List Nat := (List.range 8).map (fun i => lineAddr bank l + 8 * i)

/-- A line's words as they are moved: an uncorrectable one holds zero. -/
def lostZeroed (s : State) (ws : List Nat) : State :=
  ws.foldl (fun s w => if mget none s.ledger.errs w = some uncorrectable then { s with mem := zeroWord s.mem w } else s) s

/-- The repair of a bank no longer under way. -/
def repairEnded (s : State) (bank : Nat) : State :=
  { s with ledger := { s.ledger with repair := mset 0 s.ledger.repair bank 0 } }

/-- Line `l` of a bank, of the words `ws`, moved to the bank's next spare line: the remap table and its copy in storage, the words with
valid check bits. -/
def lineMoved (s : State) (bank l : Nat) (ws : List Nat) : State :=
  let s1 := lostZeroed (repairEnded s bank) ws
  let remap := mset 0 s1.ledger.remap (bank * 16384 + l) (sparesUsed s.ledger.remap bank + 1)
  { s1 with
    ledger := { s1.ledger with errs := ws.foldl (fun m w => mset none m w none) s1.ledger.errs, remap := remap },
    nv := { s1.nv with remap := remap } }

/-- A bank found without a spare line for the first time. -/
def spareMissed (s : State) (bank : Nat) : State :=
  let s1 : State := { repairEnded s bank with ledger := { (repairEnded s bank).ledger with
    noSpare := setAdd bank (repairEnded s bank).ledger.noSpare } }
  (s1.stset 0 0x7400 0x05 s1.ledger.noSpare.length).raise 65 bank 0

section
variable {s : State} {bank l : Nat}

theorem repairLine_idle (h : mget 0 s.ledger.repair bank = 0) : repairLine s bank = s := by
  unfold repairLine
  rw [h]

theorem repairLine_eq (h : mget 0 s.ledger.repair bank = l + 1) : repairLine s bank =
    if sparesUsed s.ledger.remap bank < 16 then repairStatus (lineMoved s bank l (lineWords bank l))
    else if s.ledger.noSpare.contains bank then repairEnded s bank else spareMissed s bank := by
  unfold repairLine
  rw [h]
  simp only [lineMoved, lostZeroed, repairEnded, lineWords, spareMissed]

theorem lostZeroed_ledger (s : State) (ws : List Nat) : (lostZeroed s ws).ledger = s.ledger :=
  foldl_same (φ := State.ledger) (fun t w => by split <;> rfl) ws s

theorem lostZeroed_clean (h : s.ledger.errs = []) (ws : List Nat) : lostZeroed s ws = s :=
  List.foldl_fixed' (fun w => if_neg (by rw [h]; nofun)) ws

theorem lineMoved_ledger (s : State) (bank l : Nat) (ws : List Nat) : (lineMoved s bank l ws).ledger = { s.ledger with
    repair := mset 0 s.ledger.repair bank 0
    errs := ws.foldl (fun m w => mset none m w none) s.ledger.errs
    remap := mset 0 s.ledger.remap (bank * 16384 + l) (sparesUsed s.ledger.remap bank + 1) } := by
  have h := lostZeroed_ledger (repairEnded s bank) ws
  unfold lineMoved
  dsimp only
  rw [h]
  rfl

theorem lineMoved_mem (h : s.ledger.errs = []) (bank l : Nat) (ws : List Nat) : (lineMoved s bank l ws).mem = s.mem := by
  have hsame := lostZeroed_clean (s := repairEnded s bank) h ws
  unfold lineMoved
  dsimp only
  rw [hsame]
  rfl

theorem lineMoved_nv (s : State) (bank l : Nat) (ws : List Nat) :
    (lineMoved s bank l ws).nv.remap = (lineMoved s bank l ws).ledger.remap := rfl

theorem repairLine_scrubAt (s : State) (bank : Nat) : (repairLine s bank).scrubAt = s.scrubAt := by
  cases h : mget 0 s.ledger.repair bank with
  | zero => rw [repairLine_idle h]
  | succ l =>
    rw [repairLine_eq h]
    split_ifs
    · rw [(repairStatus_keeps _).scrubAt rfl, State.scrubAt, lineMoved_ledger]
      rfl
    · rfl
    · exact (State.raise_keeps ..).scrubAt rfl

end

/-! A scrub slot (R273): the repairs and the queue, then a line -/

/-- The part of a scrub slot before its line: the repairs that wait, and the correction queue. -/
def queueServed (s : State) : State :=
  let s1 := (s.ledger.repair.map (fun e => e.1)).foldl repairLine s
  let s2 := s1.ledger.queue.foldl serveQueued s1
  { s2 with ledger := { s2.ledger with queue := [] } }

/-- The scrubber's line visited: its wrong words, and the repairs of it that are tried again. -/
def lineVisited (s : State) : State :=
  (s.ledger.retry.filter (fun k => decide (k % 16384 = s.ledger.line))).foldl (fun t k => startRepair t (k / 16384) s.ledger.line)
    ((s.ledger.errs.filter (fun e => decide (lineOf e.1 = s.ledger.line))).foldl patrolWord { s with
      ledger := { s.ledger with retry := s.ledger.retry.filter (fun k => decide (k % 16384 ≠ s.ledger.line)) } })

/-- The scrubber goes on from line `l`; after the last line a new pass begins (R273, R274). -/
def scrubOn (l : Nat) (s : State) : State :=
  if l + 1 < 16384 then { s with ledger := { s.ledger with line := l + 1 } }
  else { s with ledger := { s.ledger with line := 0, last := s.ledger.this, this := [] } }

section
variable (s : State) (l : Nat)

theorem scrubSlot_eq : scrubSlot s = scrubOn (queueServed s).ledger.line (lineVisited (queueServed s)) := rfl

theorem queueServed_scrubAt : (queueServed s).scrubAt = ([], s.ledger.line) := by
  have hserved := (foldl_same (φ := State.scrubAt) serveQueued_scrubAt
    ((s.ledger.repair.map (fun e => e.1)).foldl repairLine s).ledger.queue _).trans
      (foldl_same (φ := State.scrubAt) repairLine_scrubAt (s.ledger.repair.map (fun e => e.1)) s)
  exact Prod.ext rfl (congrArg Prod.snd hserved :)

theorem lineVisited_scrubAt : (lineVisited s).scrubAt = s.scrubAt :=
  (foldl_same (φ := State.scrubAt) (fun t _ => startRepair_scrubAt t _ _) _ _).trans
    (foldl_same (φ := State.scrubAt) patrolWord_scrubAt _ _)

/-- Without a repair to be tried again only the line's wrong words are visited. -/
theorem lineVisited_of_retry_nil {s : State} (h : s.ledger.retry = []) :
    lineVisited s = (s.ledger.errs.filter (fun e => decide (lineOf e.1 = s.ledger.line))).foldl patrolWord s := by
  have hsame : s.ledger.retry.filter (fun k => decide (k % 16384 ≠ s.ledger.line)) = s.ledger.retry := by rw [h]; rfl
  unfold lineVisited
  rw [hsame]
  exact congrArg (List.foldl _ _ ·) (List.filter_eq_nil_iff.mpr (by rw [h]; nofun))

/-- Without a queue the slot's line follows its repairs. -/
theorem queueServed_of_queue_nil {s u : State} (hrepairs : (s.ledger.repair.map (fun e => e.1)).foldl repairLine s = u)
    (h : u.ledger.queue = []) : queueServed s = u := by
  have hsame : ({ u with ledger := { u.ledger with queue := [] } } : State) = u := by rw [← h]
  unfold queueServed
  rw [hrepairs]
  dsimp only
  rw [h, List.foldl_nil]
  exact hsame

/-- A slot that, its repairs done, finds nothing queued and no repair to be tried again only visits the wrong words of its line. -/
theorem scrubSlot_visits {s u : State} (hrepairs : (s.ledger.repair.map (fun e => e.1)).foldl repairLine s = u)
    (hqueue : u.ledger.queue = []) (hretry : u.ledger.retry = []) : scrubSlot s = scrubOn u.ledger.line
      ((u.ledger.errs.filter (fun e => decide (lineOf e.1 = u.ledger.line))).foldl patrolWord u) := by
  rw [scrubSlot_eq, queueServed_of_queue_nil hrepairs hqueue, lineVisited_of_retry_nil hretry]

theorem scrubOn_keeps : Keeps [.ledger] s (scrubOn l s) := by
  unfold scrubOn
  exact keeps_ite (fun _ => keeps_ledger rfl (Keeps.refl _ _)) (fun _ => keeps_ledger rfl (Keeps.refl _ _))

/-- Going on, the scrubber keeps what it found of errors, repairs and remapped lines. -/
theorem scrubOn_ledger : (scrubOn l s).ledger.errs = s.ledger.errs ∧ (scrubOn l s).ledger.repair = s.ledger.repair ∧
    (scrubOn l s).ledger.remap = s.ledger.remap := by
  unfold scrubOn
  split
  · exact ⟨rfl, rfl, rfl⟩
  · exact ⟨rfl, rfl, rfl⟩

theorem scrubOn_line : (scrubOn l s).ledger.line = if l + 1 < 16384 then l + 1 else 0 := by
  unfold scrubOn
  split <;> rfl

/-- The corrections of the line just visited stand among those of the pass that it belongs to. -/
theorem scrubOn_pass : (if l + 1 < 16384 then (scrubOn l s).ledger.this else (scrubOn l s).ledger.last) = s.ledger.this := by
  unfold scrubOn
  split <;> rfl

/-- A scrub slot leaves no correction queued and goes on to the next line. -/
theorem scrubSlot_scrubAt : (scrubSlot s).ledger.queue = [] ∧
    (scrubSlot s).ledger.line = if s.ledger.line + 1 < 16384 then s.ledger.line + 1 else 0 := by
  have hserved := queueServed_scrubAt s
  have hline : (queueServed s).ledger.line = s.ledger.line := congrArg Prod.snd hserved
  have hqueue : ∀ t : State, (scrubOn s.ledger.line t).ledger.queue = t.ledger.queue := fun t => by
    unfold scrubOn
    split <;> rfl
  rw [scrubSlot_eq, hline]
  exact ⟨(hqueue _).trans (congrArg Prod.fst ((lineVisited_scrubAt (queueServed s)).trans hserved)), scrubOn_line ..⟩

end

/-! A word with one wrong bit on the line (R270, R273, R274) -/

section
variable {s : State} {w b : Nat}

theorem scrubCorrect_corrects (herrs : s.ledger.errs = [(w, some b)]) (hrepair : s.ledger.repair = []) :
    let t := scrubCorrect s w b
    t.ledger.errs = [] ∧ (w, b) ∈ t.ledger.this ∧
      t.ledger.repair = if s.ledger.last.contains (w, b) then [(bankOf w, lineOf w + 1)] else [] := by
  have hclear : mset none s.ledger.errs w none = [] := by rw [herrs]; simp [mset]
  have hthis : (w, b) ∈ (if s.ledger.this.contains (w, b) then s.ledger.this else s.ledger.this ++ [(w, b)]) := by
    split
    · next h => exact List.contains_iff_mem.mp h
    · exact List.mem_append_right _ (List.mem_singleton_self _)
  have hidle : mget 0 s.ledger.repair (bankOf w) = 0 := by rw [hrepair]; rfl
  unfold scrubCorrect
  dsimp only
  split
  · unfold startRepair
    rw [if_pos hidle]
    exact ⟨hclear, hthis, congrArg (mset 0 · (bankOf w) (lineOf w + 1)) hrepair⟩
  · exact ⟨hclear, hthis, hrepair⟩

/-- The only wrong bit of the Ledger, on the line that the scrubber visits. -/
theorem execLedgerScrub_corrects (hready : s.ledger.ready = true) (hqueue : s.ledger.queue = []) (hrepair : s.ledger.repair = [])
    (hretry : s.ledger.retry = []) (herrs : s.ledger.errs = [(w, some b)]) (hb : b < 72) (hline : lineOf w = s.ledger.line) :
    Gives (.ledgerScrub []) s (fun t => t.ledger.errs = [] ∧ t.mem = s.mem ∧ Counts s t 0x7400 0x01 1 ∧
      (w, b) ∈ (if s.ledger.line + 1 < 16384 then t.ledger.this else t.ledger.last) ∧
      t.ledger.line = (if s.ledger.line + 1 < 16384 then s.ledger.line + 1 else 0) ∧
      t.ledger.repair = (if s.ledger.last.contains (w, b) then [(bankOf w, lineOf w + 1)] else [])) := by
  have hvisit : scrubSlot s = scrubOn s.ledger.line ((scrubCorrect s w b).bump 0x7400 0x01 1) := by
    rw [scrubSlot_visits (by rw [hrepair]; rfl) hqueue hretry, herrs, List.filter_singleton, decide_eq_true hline]
    exact congrArg (scrubOn _) (if_neg (Nat.ne_of_lt hb))
  obtain ⟨hclear, hthis, hbegun⟩ := scrubCorrect_corrects herrs hrepair
  have hkept := scrubOn_keeps ((scrubCorrect s w b).bump 0x7400 0x01 1) s.ledger.line
  obtain ⟨herrsOn, hrepairOn, -⟩ := scrubOn_ledger ((scrubCorrect s w b).bump 0x7400 0x01 1) s.ledger.line
  refine ⟨_, (congrArg Host.Outcome.next (if_pos hready)).trans (congrArg Host.Outcome.next hvisit), ?_, ?_, ?_, ?_,
    scrubOn_line .., ?_⟩
  · rw [herrsOn]
    exact hclear
  · exact (hkept.part .mem rfl).trans ((scrubCorrect_keeps s w b).part .mem rfl)
  · have hstat : (scrubOn s.ledger.line ((scrubCorrect s w b).bump 0x7400 0x01 1)).stat = (s.bump 0x7400 0x01 1).stat :=
      (hkept.part .stat rfl).trans
        (congrArg (fun m => mmod 0 m (key 0x7400 0x01) (fun v => satAdd (2 ^ 32 - 1) v 1)) ((scrubCorrect_keeps s w b).part .stat rfl))
    unfold Counts State.stget
    rw [hstat]
    exact s.bump_counts 0x7400 0x01 1
  · rw [scrubOn_pass]
    exact hthis
  · rw [hrepairOn]
    exact hbegun

end

/-! A line under repair, moved to a spare (R274) -/

section
variable {s : State} {bank l : Nat}

/-- A repair with a spare left, in a Ledger without errors. -/
theorem repairLine_moves (herrs : s.ledger.errs = []) (hunder : mget 0 s.ledger.repair bank = l + 1)
    (hspare : sparesUsed s.ledger.remap bank < 16) : let t := repairLine s bank
    t.ledger = { s.ledger with
      repair := mset 0 s.ledger.repair bank 0
      errs := []
      remap := mset 0 s.ledger.remap (bank * 16384 + l) (sparesUsed s.ledger.remap bank + 1) } ∧
      t.nv.remap = t.ledger.remap ∧ t.mem = s.mem := by
  have hclear : (lineWords bank l).foldl (fun (m : SMap (Option Nat)) w => mset none m w none) [] = [] :=
    List.foldl_fixed' (fun w => rfl) _
  have hledger := lineMoved_ledger s bank l (lineWords bank l)
  rw [herrs, hclear] at hledger
  have hkept := repairStatus_keeps (lineMoved s bank l (lineWords bank l))
  dsimp only
  rw [repairLine_eq hunder, if_pos hspare, hkept.part .ledger rfl, hkept.part .nv rfl, hkept.part .mem rfl]
  exact ⟨hledger, lineMoved_nv .., lineMoved_mem herrs ..⟩

theorem execLedgerScrub_moves (hready : s.ledger.ready = true) (hqueue : s.ledger.queue = []) (herrs : s.ledger.errs = [])
    (hretry : s.ledger.retry = []) (hrepair : s.ledger.repair = [(bank, l + 1)]) (hspare : sparesUsed s.ledger.remap bank < 16) :
    Gives (.ledgerScrub []) s (fun t => t.mem = s.mem ∧ t.ledger.repair = [] ∧ t.nv.remap = t.ledger.remap ∧
      mget 0 t.ledger.remap (bank * 16384 + l) = sparesUsed s.ledger.remap bank + 1 ∧
      ∀ k, k ≠ bank * 16384 + l → mget 0 t.ledger.remap k = mget 0 s.ledger.remap k) := by
  obtain ⟨hledger, hnv, hmem⟩ := repairLine_moves herrs (l := l) (by rw [hrepair]; exact if_pos rfl) hspare
  have hended : mset 0 s.ledger.repair bank 0 = [] := by
    rw [hrepair]
    simp [mset]
  have hone : (s.ledger.repair.map (fun e => e.1)).foldl repairLine s = repairLine s bank := by
    rw [hrepair, List.map_singleton, List.foldl_cons, List.foldl_nil]
  generalize repairLine s bank = u at hone hledger hnv hmem
  have hslot : scrubSlot s = scrubOn u.ledger.line u := by
    rw [scrubSlot_visits hone (by rw [hledger]; exact hqueue) (by rw [hledger]; exact hretry), hledger]
    rfl
  obtain ⟨-, hrepairs, hremap⟩ := scrubOn_ledger u u.ledger.line
  have hon := scrubOn_keeps u u.ledger.line
  have hremapped : u.ledger.remap = mset 0 s.ledger.remap (bank * 16384 + l) (sparesUsed s.ledger.remap bank + 1) := by rw [hledger]
  refine ⟨_, (congrArg Host.Outcome.next (if_pos hready)).trans (congrArg Host.Outcome.next hslot), (hon.part .mem rfl).trans hmem, ?_⟩
  rw [hrepairs, hremap, hon.part .nv rfl, hnv, hremapped]
  exact ⟨by rw [hledger, hended], rfl, mget_mset_self .., fun k hk => mget_mset_ne _ _ _ _ k hk⟩

end

/-! A word of the Ledger written by a part (R271, R272) -/

section
variable (s : State)

theorem ledgerOpen_errs (w : Nat) (full : Bool) : mget none (ledgerOpen s w full).ledger.errs w = none := by
  unfold ledgerOpen
  dsimp only
  split
  · assumption
  · split_ifs <;> exact mget_mset_self none s.ledger.errs w none

/-- Before a part of a word is stored the word holds what a read delivers of it, and every other word what it held. -/
theorem ledgerOpen_byte (w k : Nat) :
    memByte (ledgerOpen s (w * 8) false).mem k = if k / 8 = w then ledgerByte s k else memByte s.mem k := by
  unfold ledgerOpen ledgerByte ledgerLost
  dsimp only
  split
  · next hclean =>
    split_ifs with hk hlost
    · rw [hk, hclean] at hlost
      exact absurd (of_decide_eq_true hlost) nofun
    · rfl
    · rfl
  · next c hwrong =>
    rw [if_neg Bool.false_ne_true]
    by_cases hc : c = uncorrectable
    · rw [if_pos hc]
      refine (memByte_memClear ..).trans ?_
      by_cases hk : k / 8 = w
      · rw [if_pos (by omega), if_pos hk, hk, hwrong, hc, decide_eq_true rfl, if_pos rfl]
        rfl
      · rw [if_neg (by omega), if_neg hk]
    · rw [if_neg hc]
      by_cases hk : k / 8 = w
      · rw [if_pos hk, hk, hwrong, decide_eq_false (fun h => hc (Option.some.inj h)), if_neg Bool.false_ne_true]
        rfl
      · rw [if_neg hk]
        rfl

/-- A write of half a word opens that word alone, and as one written in part. -/
theorem ledgerWrite_half {a : Nat} (ha : a % 4 = 0) {d : List Byte} (hd : d.length = 4) :
    ledgerWrite s a d [true, true, true, true] = { abandonRepair (ledgerOpen s (a / 8 * 8) false) (a / 8 * 8) with
      mem := memStrobe (ledgerOpen s (a / 8 * 8) false).mem a d [true, true, true, true] } := by
  have hwords : wordsOf a 4 = [a / 8 * 8] := by
    have hone : (a + 4 - 1) / 8 - a / 8 + 1 = 1 := by omega
    rw [wordsOf, if_neg (by decide), hone, List.range_one, List.map_singleton, Nat.add_zero]
  have hhalf : a = a / 8 * 8 ∨ a = a / 8 * 8 + 4 := by omega
  generalize a / 8 * 8 = w at hwords hhalf ⊢
  have htouch : touches a [true, true, true, true] w 8 = true := by
    refine List.any_eq_true.mpr ⟨a - w, List.mem_range.mpr (by omega), ?_⟩
    rw [Nat.add_sub_cancel' (by omega), Nat.sub_self, decide_eq_true (Nat.le_refl a)]
    rfl
  have hpart : coversWord a [true, true, true, true] w = false := by
    refine List.all_eq_false.mpr ?_
    rcases hhalf with rfl | rfl
    · exact ⟨4, by decide, by simp⟩
    · exact ⟨0, by decide, by simp⟩
  have hmem := (abandonRepair_keeps (ledgerOpen s w false) w).part .mem rfl
  unfold ledgerWrite
  rw [hd, hwords, List.filter_singleton, htouch]
  dsimp only [cond, List.foldl_cons, List.foldl_nil]
  rw [hpart, hmem]

theorem abandonRepair_errs (a : Nat) : (abandonRepair s a).ledger.errs = s.ledger.errs := by
  unfold abandonRepair
  split <;> rfl

/-- A word written to the Ledger by a master that is served at once (R255, R271, R272). -/
theorem execRegisterWrite_ledger {m a v x : Nat} (hin : a < 0x04000000) (ha : a % 4 = 0)
    (hx : targetOf a = some x) (h : Served s m x) :
    Gives (.registerWrite m a v) s (fun t => mget none t.ledger.errs (a / 8 * 8) = none ∧
      (∀ i, i < 4 → memByte t.mem (a + i) = BitVec.ofNat 8 (v / 2 ^ (8 * i))) ∧
      (∀ b, b / 8 = a / 8 → b < a ∨ a + 4 ≤ b → memByte t.mem b = ledgerByte s b) ∧
      ∀ b, b / 8 ≠ a / 8 → memByte t.mem b = memByte s.mem b) := by
  have hserved : single s (wordWrite m a v) =
      ledgerWrite { s with beam := beamAfter s m x } a (leBytes 4 v) [true, true, true, true] := by
    rw [single_served s (wordWrite m a v) x h (burstOk_wordWrite h.issues.1 ha v) hx rfl rfl]
    exact serveBurst_ledger _ rfl (decide_eq_true hin)
  have hwhole : ∀ l : List Host.Cell, memStrobe l a (leBytes 4 v) [true, true, true, true] = memWrite l a (leBytes 4 v) :=
    fun l => memStrobe_whole (leBytes 4 v) l a
  refine ⟨_, execRegisterWrite_eq s m ha v, ?_⟩
  rw [hserved, ledgerWrite_half _ ha (leBytes_length ..)]
  dsimp only
  rw [abandonRepair_errs, hwhole]
  have hbyte := ledgerOpen_byte { s with beam := beamAfter s m x } (a / 8)
  have hout : ∀ b, b < a ∨ a + 4 ≤ b → memByte (memWrite (ledgerOpen { s with beam := beamAfter s m x } (a / 8 * 8) false).mem a
      (leBytes 4 v)) b = if b / 8 = a / 8 then ledgerByte s b else memByte s.mem b := fun b hb =>
    (memByte_memWrite_ne _ _ _ _ (by rwa [leBytes_length])).trans (hbyte b)
  refine ⟨ledgerOpen_errs .., fun i hi => ?_, fun b hb houtside => (hout b houtside).trans (if_pos hb),
    fun b hb => (hout b (by omega)).trans (if_neg hb)⟩
  rw [memByte_memWrite _ _ _ _ (by rwa [leBytes_length]), leBytes_getD 4 i v hi, Nat.pow_mul]

end

/-- Settles O33: a slot visits its line or moves a line to its spare, and a write of half a word opens the word first. -/
theorem ledgerScrubbing : Obligations.LedgerScrubbing := by
  intro s hready
  refine ⟨fun ups => ⟨_, congrArg Host.Outcome.next (if_pos hready), ?position⟩,
    fun w b => execLedgerScrub_corrects hready,
    fun bank l => execLedgerScrub_moves hready,
    fun m a v x _ => execRegisterWrite_ledger s⟩
  case position =>
    have hat := scrubSlot_scrubAt (applyUpsets s ups)
    have hline : (applyUpsets s ups).ledger.line = s.ledger.line := congrArg Prod.snd (applyUpsets_scrubAt s ups)
    rw [hline] at hat
    exact hat

end Sys2Proof.Machine

namespace Sys2Proof.Machine

/-! Ranks, and what an event leaves of the memory range (R277, R294) -/

section
variable (s : State)

@[simp] theorem State.raise_mem (src a b : Nat) : (s.raise src a b).mem = s.mem := (State.raise_keeps ..).part .mem rfl
@[simp] theorem State.raise_dram (src a b : Nat) : (s.raise src a b).dram = s.dram := (State.raise_keeps ..).part .dram rfl
@[simp] theorem State.raise_nv (src a b : Nat) : (s.raise src a b).nv = s.nv := (State.raise_keeps ..).part .nv rfl
@[simp] theorem State.enter_stat (src i a : Nat) : (s.enter src i a).stat = s.stat := (State.enter_keeps ..).part .stat rfl
@[simp] theorem State.enter_dram (src i a : Nat) : (s.enter src i a).dram = s.dram := (State.enter_keeps ..).part .dram rfl

theorem rankOf_setRank (p q : Nat) (r : Rank) : rankOf (setRank s p r) q = if q = p then r else rankOf s q := mget_mset ..

@[simp] theorem rankOf_setRank_self (p : Nat) (r : Rank) : rankOf (setRank s p r) p = r := mget_mset_self ..

theorem rankOf_setRank_ne {p q : Nat} (r : Rank) (h : q ≠ p) : rankOf (setRank s p r) q = rankOf s q := mget_mset_ne _ _ _ _ _ h

/-- A rank changed by `f`. -/
def modRank (p : Nat) (f : Rank → Rank) : State := setRank s p (f (rankOf s p))

theorem rankOf_modRank (p : Nat) (f : Rank → Rank) (q : Nat) :
    rankOf (modRank s p f) q = if q = p then f (rankOf s q) else rankOf s q := by
  rw [modRank, rankOf_setRank]
  split
  · next h => rw [h]
  · rfl

variable {s} in
theorem rankOf_congr {t : State} (h : t.dram.ranks = s.dram.ranks) (p : Nat) : rankOf t p = rankOf s p :=
  congrArg (mget Rank.init · p) h

end

/-! MIGRATE_RANK (R294, R295, R299) -/

section
variable {s : State} {p : Nat}

/-- A trigger that finds its rank in service, a Ready spare, no migration and no other trigger waits for its boundary. -/
theorem triggerNow_recorded (hard : Bool) (hin : (rankOf s p).state = .inService) (hspare : (readySpare s).isSome = true)
    (hmig : s.dram.mig = none) (htrigger : s.dram.trigger = none) :
    triggerNow s p hard = { s with dram := { s.dram with trigger := some p } } := by
  have hsome : ¬ (readySpare s).isNone = true := by rw [← Option.not_isSome, hspare]; exact Bool.false_ne_true
  unfold triggerNow
  rw [hmig]
  dsimp only
  rw [if_neg (not_not.mpr hin), if_neg hsome, htrigger]

theorem triggerRank_inService (hard : Bool) (h : s.dram.state = 2) : triggerRank s p hard = triggerNow s p hard := if_pos h

theorem triggerRank_late (hard : Bool) (h : s.dram.state ≠ 2) :
    triggerRank s p hard = { s with dram := { s.dram with late := s.dram.late ++ [(p, hard)] } } := if_neg h

variable {v : Nat} (hp : p < 4) (hv : v ≤ 1)
include hp hv

theorem migrateCheck_passes (hin : (rankOf s p).state = .inService) : migrateCheck s p v = 0 := by
  simp [migrateCheck, indexOk_in hp, boolOk, hv, hin]

theorem migrateCheck_conflict (hv0 : v ≠ 0) (hin : (rankOf s p).state ≠ .inService) : migrateCheck s p v = Abort.conflict := by
  simp [migrateCheck, indexOk_in hp, boolOk, hv, hin, hv0, firstCode_failed, Abort.conflict]

theorem execMigrateRank_takes (hgate : s.gate (0x7420 + p) = 0) (hin : (rankOf s p).state = .inService) :
    exec (.migrateRank p v) s = .next (if v = 1 then triggerRank s p false else s) :=
  exec_takes rfl (migrateCheck_passes hp hv hin) hgate

end

/-! MIGRATION_START and MIGRATION_SWITCH (R295, R296, R298) -/

/-- The migration of rank `p` to the spare `q` begun: both in their migrating states, nothing copied, the trigger spent. -/
def migrationBegun (s : State) (p q slot : Nat) : State :=
  let s0 : State := { s with dram := { s.dram with trigger := none } }
  let s2 := modRank (modRank s0 p (fun r => { r with state := .migFrom })) q (fun r => { r with state := .migTo })
  { s2 with dram := { s2.dram with mig := some (Migration.mk p q slot 0 s.clk.tick [] [] []) } }

/-- The migration `m` ended: its target serves the slot, its source is retired, and storage holds the ranks. -/
def migrationEnded (s : State) (m : Migration) : State :=
  let s2 := modRank (modRank s m.target (fun r => { r with state := .inService, slot := some m.slot, corr := [] })) m.source
    (fun r => { r with state := .retired, slot := none })
  { s2 with dram := { s2.dram with mig := none }, nv := { s2.nv with ranks := s2.dram.ranks } }

theorem readySpare_state {s : State} {q : Nat} (h : readySpare s = some q) : (rankOf s q).state = .spareReady :=
  of_decide_eq_true (List.find?_some (p := fun p => decide ((rankOf s p).state = .spareReady)) h)

section
variable {s : State} {p q slot : Nat}

theorem migrationStart_begins (htrigger : s.dram.trigger = some p) (hmig : s.dram.mig = none) (hstate : s.dram.state = 2)
    (hspare : readySpare s = some q) (hslot : (rankOf s p).slot = some slot) (hin : (rankOf s p).state = .inService) :
    migrationStart s = (((((migrationBegun s p q slot).stset 0 0x7430 0x01 1).stset 0 0x7430 0x02 0).stset 0xFF 0x7430 0x03 p).stset
      0xFF 0x7430 0x04 q).stset 0 0x7430 0x05 s.clk.tick := by
  have hspare' : readySpare { s with dram := { s.dram with trigger := none } } = some q := hspare
  have hslot' : (rankOf { s with dram := { s.dram with trigger := none } } p).slot = some slot := hslot
  unfold migrationStart
  rw [htrigger, hmig, hstate]
  change (match readySpare { s with dram := { s.dram with trigger := none } },
    (rankOf { s with dram := { s.dram with trigger := none } } p).slot with | some q, some slot => _ | _, _ => _) = _
  rw [hspare', hslot']
  exact if_pos hin

theorem migrationBegun_rank (k : Nat) : rankOf (migrationBegun s p q slot) k = rankOf
    (modRank (modRank s p (fun r => { r with state := .migFrom })) q (fun r => { r with state := .migTo })) k := rankOf_congr rfl k

theorem execMigrationStart_begins (htrigger : s.dram.trigger = some p) (hmig : s.dram.mig = none) (hstate : s.dram.state = 2)
    (hspare : readySpare s = some q) (hslot : (rankOf s p).slot = some slot) (hin : (rankOf s p).state = .inService) :
    Gives .migrationStart s (fun t => (rankOf t p).state = .migFrom ∧ (rankOf t q).state = .migTo ∧ (rankOf t p).slot = some slot ∧
      t.dram.mig = some (Migration.mk p q slot 0 s.clk.tick [] [] []) ∧ t.dram.trigger = none ∧ t.stget 0 0x7430 0x01 = 1 ∧
      t.mem = s.mem ∧ ∀ k, k ≠ p → k ≠ q → rankOf t k = rankOf s k) := by
  have hne : p ≠ q := by
    rintro rfl
    rw [readySpare_state hspare] at hin
    cases hin
  have hbegins := migrationStart_begins htrigger hmig hstate hspare hslot hin
  have hdram : (migrationStart s).dram = (migrationBegun s p q slot).dram := by simp only [hbegins, State.stset_dram]
  have hranks : ∀ k, rankOf (migrationStart s) k = rankOf (migrationBegun s p q slot) k := rankOf_congr (congrArg Dram.ranks hdram)
  have hcode : (migrationStart s).stget 0 0x7430 0x01 = 1 := by
    rw [hbegins, State.stget_stset_ne _ _ _ _ (by decide), State.stget_stset_ne _ _ _ _ (by decide),
      State.stget_stset_ne _ _ _ _ (by decide), State.stget_stset_ne _ _ _ _ (by decide), stget_stset]
  refine ⟨migrationStart s, rfl, ?_⟩
  simp only [hranks, migrationBegun_rank, rankOf_modRank, if_pos, if_neg hne]
  rw [hdram]
  refine ⟨trivial, trivial, hslot, rfl, rfl, hcode, (migrationStart_keeps s).part .mem rfl, fun k hkp hkq => ?_⟩
  rw [if_neg hkq, if_neg hkp]

variable {m : Migration} (hmig : s.dram.mig = some m)
include hmig

theorem migrationSwitch_early (h : m.copied < slotUnits) : migrationSwitch s = s := by
  unfold migrationSwitch
  rw [hmig]
  exact if_pos h

theorem migrationSwitch_ends (h : slotUnits ≤ m.copied) : migrationSwitch s = (((migrationEnded s m).stset 0 0x7430 0x01 2).stset
    0 0x7430 0x06 s.clk.tick).raise 73 (m.source * 256 + m.target) 0 := by
  unfold migrationSwitch
  rw [hmig]
  exact if_neg (Nat.not_lt.mpr h)

omit hmig in
theorem migrationEnded_rank (k : Nat) : rankOf (migrationEnded s m) k = rankOf
    (modRank (modRank s m.target (fun r => { r with state := .inService, slot := some m.slot, corr := [] })) m.source
      (fun r => { r with state := .retired, slot := none })) k := rankOf_congr rfl k

theorem execMigrationSwitch_ends (hne : m.source ≠ m.target) (h : slotUnits ≤ m.copied) :
    Gives .migrationSwitch s (fun t => (rankOf t m.target).state = .inService ∧ (rankOf t m.target).slot = some m.slot ∧
      (rankOf t m.source).state = .retired ∧ (rankOf t m.source).slot = none ∧ t.dram.mig = none ∧ t.nv.ranks = t.dram.ranks ∧
      t.stget 0 0x7430 0x01 = 2 ∧ t.stget 0 0x7430 0x06 = s.clk.tick ∧ t.mem = s.mem ∧
      ∀ k, k ≠ m.source → k ≠ m.target → rankOf t k = rankOf s k) := by
  have hends := migrationSwitch_ends hmig h
  have hdram : (migrationSwitch s).dram = (migrationEnded s m).dram := by simp only [hends, State.raise_dram, State.stset_dram]
  have hnv : (migrationSwitch s).nv = (migrationEnded s m).nv := by simp only [hends, State.raise_nv, State.stset_nv]
  have hranks : ∀ k, rankOf (migrationSwitch s) k = rankOf (migrationEnded s m) k := rankOf_congr (congrArg Dram.ranks hdram)
  have hcode : (migrationSwitch s).stget 0 0x7430 0x01 = 2 := by
    rw [hends, State.raise_stget, State.stget_stset_ne _ _ _ _ (by decide), stget_stset]
  have htick : (migrationSwitch s).stget 0 0x7430 0x06 = s.clk.tick := by rw [hends, State.raise_stget, stget_stset]
  refine ⟨migrationSwitch s, rfl, ?_⟩
  simp only [hranks, migrationEnded_rank, rankOf_modRank, if_pos, if_neg hne, if_neg hne.symm]
  rw [hdram, hnv]
  refine ⟨trivial, trivial, trivial, trivial, rfl, rfl, hcode, htick, (migrationSwitch_keeps s).part .mem rfl, fun k hks hkt => ?_⟩
  rw [if_neg hks, if_neg hkt]

end

/-- Settles O35: the trigger is recorded now or kept late, and a migration begun and ended moves the slot between two ranks. -/
theorem rankMigration : Obligations.RankMigration := by
  intro s p q slot hp
  refine ⟨fun hgate hin hspare hmig htrigger => ⟨fun hstate => ?now, fun hstate => ?late⟩, fun hgate hin => ?zero,
    fun hin => ?conflict, execMigrationStart_begins, fun c b sv kp lo hne hmig => ⟨fun hc => ?early, fun hc => ?ends⟩⟩
  case now =>
    refine ⟨_, execMigrateRank_takes hp Nat.le.refl hgate hin, ?_⟩
    rw [if_pos rfl, triggerRank_inService false hstate, triggerNow_recorded false hin hspare hmig htrigger]
  case late =>
    refine ⟨_, execMigrateRank_takes hp Nat.le.refl hgate hin, ?_⟩
    rw [if_pos rfl, triggerRank_late false hstate]
  case zero => exact execMigrateRank_takes hp (Nat.zero_le 1) hgate hin
  case conflict => exact declines_of_check rfl (migrateCheck_conflict hp Nat.le.refl Nat.one_ne_zero hin) (by decide)
  case early => exact congrArg Host.Outcome.next (migrationSwitch_early hmig hc)
  case ends => exact execMigrationSwitch_ends hmig hne hc

end Sys2Proof.Machine

namespace Sys2Proof.Machine

/-! REFRESH_DUE (R288, R289) -/

/-- Refreshes only close rows. -/
theorem refreshed_rows (s : State) (n : Nat) : ∀ e ∈ (refreshed s n).dram.rows, e ∈ s.dram.rows := by
  have hopen : ∀ perBank, ∀ e ∈ openAfter perBank s.dram n, e ∈ s.dram.rows := fun perBank => by
    unfold openAfter
    dsimp only
    split_ifs
    · exact fun _ h => h
    · exact fun _ h => List.mem_of_mem_filter h
    · nofun
  exact hopen _

/-- Refreshes of all banks leave no row open. -/
theorem refreshed_allBank {s : State} {n : Nat} (h : s.val 0 0x7410 0x02 = 0) (hn : n ≠ 0) :
    refreshed s n = { s with dram := { s.dram with debt := s.dram.debt - n, rows := [] } } := by
  simp [refreshed, openAfter, h, hn]

section
variable {s : State} (hstate : s.dram.state = 2)
include hstate

theorem execRefreshDue_issued : exec (.refreshDue false) s = .next (refreshed s (s.dram.debt + 1)) :=
  congrArg Host.Outcome.next ((if_neg (not_not.mpr hstate)).trans (if_neg Bool.false_ne_true))

theorem execRefreshDue_postponed (h : s.dram.debt < 8) : Gives (.refreshDue true) s (fun t =>
    t.dram = { s.dram with debt := s.dram.debt + 1 } ∧
      t.stget 0 0x7410 0x08 = max (s.stget 0 0x7410 0x08) (s.dram.debt + 1) ∧ t.mem = s.mem) :=
  ⟨_, congrArg Host.Outcome.next ((if_neg (not_not.mpr hstate)).trans ((if_pos rfl).trans (if_pos h))), rfl, stget_stset .., rfl⟩

theorem execRefreshDue_full (h : 8 ≤ s.dram.debt) : exec (.refreshDue true) s = .next s :=
  congrArg Host.Outcome.next ((if_neg (not_not.mpr hstate)).trans ((if_pos rfl).trans (if_neg (Nat.not_lt.mpr h))))

end

/-! SELF_REFRESH_ENTRY and SELF_REFRESH_EXIT (R301 to R303) -/

@[simp] theorem State.elapse_dram (s : State) (at_ : Nat) : (s.elapse at_).dram = s.dram := (State.elapse_keeps ..).part .dram rfl

/-- The DRAM may enter idle self-refresh in this tick (R301). -/
def selfRefreshDue (s : State) : Prop :=
  s.flag 0x7450 0x02 = true ∧ s.flag 0x1100 0x03 = false ∧ dramWanted s = false ∧ idleDue s < tickLen s.clk.tick

section
variable {s : State} (hstate : s.dram.state = 2)
include hstate

theorem selfRefreshDue_iff : (decide (s.dram.state = 2) && s.flag 0x7450 0x02 && !s.flag 0x1100 0x03 && !dramWanted s &&
    decide (idleDue s < tickLen s.clk.tick)) = true ↔ selfRefreshDue s := by
  simp [selfRefreshDue, hstate, and_assoc]

/-- The idle time over with all refreshes repaid, the DRAM enters self-refresh, unless a request comes first. -/
theorem execSelfRefreshEntry_due (h : selfRefreshDue s) (asked : Bool) : exec (.selfRefreshEntry asked) s = .next (
    let u := refreshed (s.elapse (idleDue s).toNat) (s.elapse (idleDue s).toNat).dram.debt
    if asked then { u with dram := { u.dram with lastReq := u.clk.local } }
    else ({ u with dram := { u.dram with state := 3, rows := [] } } : State).stset 0 0x7410 0x01 3) :=
  congrArg Host.Outcome.next (if_pos ((selfRefreshDue_iff hstate).mpr h))

theorem execSelfRefreshEntry_idle (h : ¬ selfRefreshDue s) (asked : Bool) : exec (.selfRefreshEntry asked) s = .next s :=
  congrArg Host.Outcome.next (if_neg ((selfRefreshDue_iff hstate).not.mpr h))

theorem execSelfRefreshEntry_enters (h : selfRefreshDue s) : Gives (.selfRefreshEntry false) s (fun t =>
    t.dram.debt = 0 ∧ t.dram.rows = [] ∧ t.dram.state = 3 ∧ t.stget 0 0x7410 0x01 = 3 ∧ t.mem = s.mem) :=
  ⟨_, execSelfRefreshEntry_due hstate h false, Nat.sub_self _, rfl, rfl, stget_stset .., State.elapse_mem ..⟩

theorem execSelfRefreshEntry_asked (h : selfRefreshDue s) : Gives (.selfRefreshEntry true) s (fun t =>
    t.dram.debt = 0 ∧ t.dram.state = 2 ∧ t.dram.lastReq = t.clk.local ∧ t.stat = s.stat ∧ t.mem = s.mem) :=
  ⟨_, execSelfRefreshEntry_due hstate h true, Nat.sub_self _,
    (congrArg Dram.state (State.elapse_dram s (idleDue s).toNat)).trans hstate, rfl, State.elapse_stat .., State.elapse_mem ..⟩

end

/-- A trigger changes nothing of the DRAM's own state entry 7410:01. -/
theorem triggerNow_stateEntry (s : State) (p : Nat) (hard : Bool) :
    (triggerNow s p hard).stget 0 0x7410 0x01 = s.stget 0 0x7410 0x01 := by
  have henter : (s.enter 72 p 0).stget 0 0x7410 0x01 = s.stget 0 0x7410 0x01 :=
    congrArg (mget 0 · (key 0x7410 0x01)) (s.enter_stat 72 p 0)
  have habort : (abortMigration s).stget 0 0x7410 0x01 = s.stget 0 0x7410 0x01 := by
    unfold abortMigration
    dsimp only
    split
    · rfl
    · rw [State.raise_stget]
      exact State.stget_stset_ne _ _ _ _ (by decide)
  unfold triggerNow
  split
  · split_ifs
    · exact habort
    · rfl
    · rfl
    · exact henter
    · rfl
  · split_ifs
    · rfl
    · exact henter
    · split
      · rfl
      · split
        · rfl
        · exact henter

theorem execSelfRefreshExit_returns {s : State} {a : Nat} (hstate : s.dram.state = 3) (ha : inDram a = true) :
    Gives (.selfRefreshExit a) s (fun t => t.stget 0 0x7410 0x01 = 2 ∧ t.dram.state = 2 ∧
      (s.dram.late = [] → t.mem = s.mem ∧ t.dram = { s.dram with state := 2, late := [], lastReq := s.clk.local })) := by
  have hcond : (decide (s.dram.state = 3) && inDram a) = true := by rw [hstate, ha]; rfl
  refine ⟨_, congrArg Host.Outcome.next (if_pos hcond), ?_, ?_, fun hlate => ?_⟩
  · exact (foldl_same (φ := fun t : State => t.stget 0 0x7410 0x01) (fun t e => triggerNow_stateEntry t e.1 e.2) s.dram.late _).trans
      (stget_stset ..)
  · exact foldl_same (φ := fun t : State => t.dram.state) (fun t e => triggerNow_state t e.1 e.2) s.dram.late _
  · unfold backInService
    rw [hlate]
    exact ⟨rfl, rfl⟩

/-! MODE_REGISTER_READ (R288, R291, R294) -/

/-- The greatest value that a list's elements and a first one have: none exceeds it, and one of them is it. -/
theorem foldl_max_greatest {α : Type} (g : α → Nat) : ∀ (l : List α) (a : Nat), let m := l.foldl (fun m e => max m (g e)) a
    a ≤ m ∧ (∀ e ∈ l, g e ≤ m) ∧ (m = a ∨ ∃ e ∈ l, m = g e)
  | [], a => ⟨Nat.le.refl, nofun, .inl rfl⟩
  | x :: l, a => by
    obtain ⟨hstart, hall, hone⟩ := foldl_max_greatest g l (max a (g x))
    refine ⟨(le_max_left _ _).trans hstart, List.forall_mem_cons.mpr ⟨(le_max_right _ _).trans hstart, hall⟩, ?_⟩
    rcases hone with hone | ⟨e, he, hone⟩
    · rcases max_choice a (g x) with hmax | hmax
      · exact .inl (hone.trans hmax)
      · exact .inr ⟨x, List.mem_cons_self, hone.trans hmax⟩
    · exact .inr ⟨e, List.mem_cons_of_mem _ he, hone⟩

section
variable {s : State}

theorem modeRegisters_asWritten {ranks : List (Nat × Nat × Bool)} (h : ∀ e ∈ ranks, e.2.2 = true) :
    modeRegisters s ranks = s.stset 1 0x7410 0x07 (ranks.foldl (fun m e => max m e.2.1) 1) := by
  unfold modeRegisters
  refine List.foldlRecOn ranks _ (motive := fun t => t = s.stset 1 0x7410 0x07 (ranks.foldl (fun m e => max m e.2.1) 1)) rfl
    fun t ht e he => ?_
  rw [if_pos (h e he)]
  exact ht

variable (hstate : s.dram.state = 2) (hfree : deepWaits s = false)
include hstate hfree

theorem upkeep_runs : (decide (s.dram.state = 2) && !deepWaits s) = true := by rw [hstate, hfree]; rfl

theorem execModeRegisterRead_runs (ranks : List (Nat × Nat × Bool)) :
    exec (.modeRegisterRead ranks) s = .next (modeRegisters s ranks) :=
  congrArg Host.Outcome.next (if_pos (upkeep_runs hstate hfree))

theorem execModeRegisterRead_asWritten {ranks : List (Nat × Nat × Bool)} (h : ∀ e ∈ ranks, e.2.2 = true) :
    Gives (.modeRegisterRead ranks) s (fun t => t.dram = s.dram ∧ t.mem = s.mem ∧ (∀ e ∈ ranks, e.2.1 ≤ t.stget 1 0x7410 0x07) ∧
      1 ≤ t.stget 1 0x7410 0x07 ∧ (t.stget 1 0x7410 0x07 = 1 ∨ ∃ e ∈ ranks, t.stget 1 0x7410 0x07 = e.2.1)) := by
  obtain ⟨hone, hall, hattained⟩ := foldl_max_greatest (fun e : Nat × Nat × Bool => e.2.1) ranks 1
  refine ⟨_, execModeRegisterRead_runs hstate hfree ranks, ?_⟩
  rw [modeRegisters_asWritten h]
  dsimp only
  rw [stget_stset]
  exact ⟨rfl, rfl, hall, hone, hattained⟩

theorem execModeRegisterRead_changed {p : Nat} (rate : Nat) (hmig : s.dram.mig = none) (htrigger : s.dram.trigger = none)
    (hin : (rankOf s p).state = .inService) (hspare : (readySpare s).isSome = true) :
    Gives (.modeRegisterRead [(p, rate, false)]) s (fun t => t.dram = { s.dram with trigger := some p } ∧
      t.stget 1 0x7410 0x07 = max 1 rate) := by
  refine ⟨_, execModeRegisterRead_runs hstate hfree _, ?_⟩
  have htriggered : modeRegisters s [(p, rate, false)] = _ := (triggerRank_inService (s := s.stset 1 0x7410 0x07 (max 1 rate)) true
    hstate).trans (triggerNow_recorded true hin hspare hmig htrigger)
  rw [htriggered]
  exact ⟨rfl, stget_stset s 1 0x7410 0x07 (max 1 rate)⟩

end

/-! OSCILLATOR_MEASURE (R287) -/

section
variable {s : State} {p d : Nat}

/-- The delays of a rank follow a drift by one step (R287). -/
def delayStep (s : State) (p d : Nat) : State :=
  if (rankOf s p).drift + 2 < d then setRank s p { rankOf s p with drift := (rankOf s p).drift + 1 } else s

/-- The training record marked stale in the DRAM, in the retained store and in storage (R287). -/
def trainingStale (s : State) (p : Nat) : State :=
  let stale := fun (t : Option Training) => t.map (fun x => { x with stale := true })
  (({ s with dram := { s.dram with training := stale s.dram.training, retTrain := stale s.dram.retTrain },
             nv := { s.nv with train := stale s.nv.train } } : State).stset 0 0x7440 0x09 1).raise 68 p 0

theorem oscillator_eq (hp : p < 4) : oscillator s (p, d) =
    if 8 < d ∧ s.stget 0 0x7440 0x09 = 0 then trainingStale (delayStep s p d) p else delayStep s p d := by
  have hstat : (delayStep s p d).stget 0 0x7440 0x09 = s.stget 0 0x7440 0x09 := by
    unfold delayStep
    split <;> rfl
  rw [← hstat]
  exact if_neg (Nat.not_le.mpr hp)

theorem delayStep_drift : (rankOf (delayStep s p d) p).drift =
    if (rankOf s p).drift + 2 < d then (rankOf s p).drift + 1 else (rankOf s p).drift := by
  unfold delayStep
  split
  · exact congrArg Rank.drift (rankOf_setRank_self ..)
  · rfl

theorem trainingStale_dram (u : State) (p : Nat) : (trainingStale u p).dram = { u.dram with
    training := u.dram.training.map (fun x => { x with stale := true }),
    retTrain := u.dram.retTrain.map (fun x => { x with stale := true }) } := State.raise_dram ..

theorem trainingStale_noted (u : State) (p : Nat) : (trainingStale u p).stget 0 0x7440 0x09 = 1 :=
  (State.raise_stget ..).trans (stget_stset ..)

variable (hstate : s.dram.state = 2) (hfree : deepWaits s = false)
include hstate hfree

theorem execOscillatorMeasure_runs (drifts : List (Nat × Nat)) : exec (.oscillatorMeasure drifts) s =
    .next ((drifts.foldl oscillator s).stset 0 0x7440 0x08 (drifts.foldl (fun m e => max m e.2) 0)) :=
  congrArg Host.Outcome.next (if_pos (upkeep_runs hstate hfree))

theorem execOscillatorMeasure_greatest (drifts : List (Nat × Nat)) : Gives (.oscillatorMeasure drifts) s (fun t =>
    t.mem = s.mem ∧ (∀ e ∈ drifts, e.2 ≤ t.stget 0 0x7440 0x08) ∧
      (t.stget 0 0x7440 0x08 = 0 ∨ ∃ e ∈ drifts, t.stget 0 0x7440 0x08 = e.2)) := by
  obtain ⟨-, hall, hattained⟩ := foldl_max_greatest (fun e : Nat × Nat => e.2) drifts 0
  refine ⟨_, execOscillatorMeasure_runs hstate hfree drifts, ?_⟩
  dsimp only
  rw [stget_stset]
  exact ⟨foldl_same (φ := State.mem) (fun t e => (oscillator_keeps t e).part .mem rfl) drifts s, hall, hattained⟩

theorem execOscillatorMeasure_rank (hp : p < 4) : Gives (.oscillatorMeasure [(p, d)]) s (fun t => t.stget 0 0x7440 0x08 = d ∧
    t.mem = s.mem ∧ (rankOf t p).drift = (if (rankOf s p).drift + 2 < d then (rankOf s p).drift + 1 else (rankOf s p).drift) ∧
    t.stget 0 0x7440 0x09 = (if 8 < d ∧ s.stget 0 0x7440 0x09 = 0 then 1 else s.stget 0 0x7440 0x09) ∧
    (8 < d → s.stget 0 0x7440 0x09 = 0 → ∀ x, t.dram.training = some x → x.stale = true)) := by
  have hmem : (oscillator s (p, d)).mem = s.mem := (oscillator_keeps ..).part .mem rfl
  refine ⟨_, execOscillatorMeasure_runs hstate hfree [(p, d)], (stget_stset ..).trans (Nat.zero_max d), hmem, ?_⟩
  rw [State.stget_stset_ne _ _ _ _ (by decide), ← delayStep_drift]
  change (rankOf (oscillator s (p, d)) p).drift = _ ∧ (oscillator s (p, d)).stget 0 0x7440 0x09 = _ ∧
    (_ → _ → ∀ x, (oscillator s (p, d)).dram.training = some x → _)
  rw [oscillator_eq hp]
  split
  · next hover =>
    refine ⟨?_, trainingStale_noted .., fun _ _ x hx => ?_⟩
    · exact congrArg Rank.drift (rankOf_congr (s := delayStep s p d) (by rw [trainingStale_dram]) p)
    · rw [trainingStale_dram] at hx
      obtain ⟨y, -, rfl⟩ := Option.map_eq_some_iff.mp hx
      rfl
  · next hwithin =>
    refine ⟨rfl, ?_, fun hd hzero => absurd ⟨hd, hzero⟩ hwithin⟩
    unfold delayStep
    split <;> rfl

end

/-! PATROL_SCRUB (R280, R281, R292) -/

section
variable {s : State}

/-- Activates change only the open rows, the neighbour refreshes counted and the random source (R290). -/
def activated (s : State) (rows : SMap Nat) (neigh draws : Nat) : State :=
  { s with dram := { s.dram with rows := rows, neigh := neigh }, draws := draws }

theorem activate_activated (s : State) (p a : Nat) : ∃ rows neigh draws, activate s p a = activated s rows neigh draws := by
  rcases activate_cases s p a with h | ⟨rows, h⟩
  · exact ⟨_, _, _, h⟩
  · exact ⟨_, _, _, h⟩

theorem foldl_activate (place : Nat → Nat) : ∀ (l : List Nat) (s : State), ∃ rows neigh draws,
    l.foldl (fun s i => activate s (rankAt s (place i)) (place i)) s = activated s rows neigh draws
  | [], s => ⟨_, _, _, rfl⟩
  | i :: l, s => by
    obtain ⟨rows, neigh, draws, h⟩ := activate_activated s (rankAt s (place i)) (place i)
    obtain ⟨rows', neigh', draws', h'⟩ := foldl_activate place l (activated s rows neigh draws)
    exact ⟨rows', neigh', draws', by rw [List.foldl_cons, h, h']; rfl⟩

theorem patrolScrub_patrol (s : State) (n : Nat) :
    (patrolScrub s n).dram.patrol = (s.dram.patrol + n) % (3 * slotBytes / 64) := rfl

theorem applyUpsets_patrol (s : State) (ups : List Upset) : (applyUpsets s ups).dram.patrol = s.dram.patrol := by
  refine foldl_same (φ := fun t : State => t.dram.patrol) (fun t u => ?_) ups s
  dsimp only
  split_ifs <;> rfl

/-- What the patrol does at a block with a wrong bit that is not poisoned: an uncorrectable one is poisoned, another corrected. -/
def patrolBlock (s : State) (b : Nat) : State :=
  if blockBad s b then poisonBlock s b
  else
    let s2 := countCorrection s b
    { s2 with dram := { s2.dram with errs := s2.dram.errs.filter (fun e => !(decide (b ≤ e.1 ∧ e.1 < b + 64))) } }

/-- The patrol at one of the blocks with a wrong bit. -/
def patrolStep (s : State) (b : Nat) : State := if s.dram.poison.contains b then s else patrolBlock s b

/-- The patrol gone on to position `k`. -/
def patrolMoved (s : State) (k : Nat) : State := { s with dram := { s.dram with patrol := k } }

theorem patrolScrub_eq {u : State} {n : Nat} (h : (List.range ((n + 3) / 4)).foldl (fun s' i =>
      activate s' (rankAt s' (dramBase + (s.dram.patrol + 4 * i) % (3 * slotBytes / 64) * 64))
        (dramBase + (s.dram.patrol + 4 * i) % (3 * slotBytes / 64) * 64)) s = u) :
    patrolScrub s n = patrolMoved (((u.dram.errs.filter (fun e => decide
      (((e.1 - dramBase) / 64 + 3 * slotBytes / 64 - s.dram.patrol) % (3 * slotBytes / 64) < n))).foldl
        (fun l e => setAdd (e.1 / 64 * 64) l) []).foldl patrolStep u) ((s.dram.patrol + n) % (3 * slotBytes / 64)) := by
  rw [← h]
  rfl

theorem patrolScrub_one {n w : Nat} {b : Option Nat} (herrs : s.dram.errs = [(w, b)]) (hpoison : s.dram.poison = [])
    (hin : ((w - dramBase) / 64 + 3 * slotBytes / 64 - s.dram.patrol) % (3 * slotBytes / 64) < n) :
    ∃ rows neigh draws, patrolScrub s n = patrolMoved (patrolBlock (activated s rows neigh draws) (w / 64 * 64))
      ((s.dram.patrol + n) % (3 * slotBytes / 64)) := by
  obtain ⟨rows, neigh, draws, h⟩ := foldl_activate (fun i => dramBase + (s.dram.patrol + 4 * i) % (3 * slotBytes / 64) * 64)
    (List.range ((n + 3) / 4)) s
  have herrs' : (activated s rows neigh draws).dram.errs = [(w, b)] := herrs
  have hpoison' : (activated s rows neigh draws).dram.poison.contains (w / 64 * 64) = false :=
    congrArg (List.contains · (w / 64 * 64)) hpoison
  have hstep : patrolStep (activated s rows neigh draws) (w / 64 * 64) = patrolBlock (activated s rows neigh draws) (w / 64 * 64) :=
    if_neg (ne_true_of_eq_false hpoison')
  refine ⟨rows, neigh, draws, ?_⟩
  rw [patrolScrub_eq h, herrs', List.filter_singleton, decide_eq_true hin, ← hstep]
  rfl

/-- A correction below its rank's threshold triggers nothing (R294). -/
theorem countCorrection_untriggered (h : s.val 0 0x7410 0x05 = 0) (b : Nat) : ∃ r,
    countCorrection s b = (setRank s (rankAt s b) r).bump (0x7420 + rankAt s b) 0x03 1 :=
  ⟨_, if_neg fun hover => hover.1 h⟩

/-- A trigger while no rank migrates changes only the triggers of the DRAM. -/
theorem triggerRank_dram (hmig : s.dram.mig = none) (p : Nat) (hard : Bool) : ∃ trigger late,
    (triggerRank s p hard).dram = { s.dram with trigger := trigger, late := late } := by
  have hkept : ∃ trigger late, s.dram = { s.dram with trigger := trigger, late := late } := ⟨_, _, rfl⟩
  have henter : ∃ trigger late, (s.enter 72 p 0).dram = { s.dram with trigger := trigger, late := late } := by
    rw [State.enter_dram]
    exact hkept
  unfold triggerRank triggerNow
  rw [hmig]
  dsimp only
  split_ifs
  · exact hkept
  · exact henter
  · split
    · exact ⟨_, _, rfl⟩
    · split
      · exact hkept
      · exact henter
  · exact ⟨_, _, rfl⟩

theorem bankPoisoned_poison (s : State) (b : Nat) : (bankPoisoned s b).dram.poison = s.dram.poison := by
  have hlost : ∀ k, (bankLost s k).dram.poison = s.dram.poison := fun k => by
    unfold bankLost
    dsimp only
    split
    · rfl
    · rfl
    · exact congrArg Dram.poison (State.raise_dram ..)
  unfold bankPoisoned
  split
  · exact hlost _
  · rfl

/-- A block found uncorrectable stands poisoned while no rank migrates (R281). -/
theorem poisonBlock_poisons (hmig : s.dram.mig = none) (b : Nat) : b ∈ (poisonBlock s b).dram.poison := by
  have htriggered : ∀ (u : State) (p : Nat), u.dram.mig = none → b ∈ u.dram.poison →
      b ∈ (if (triggerRank u p true).dram.poison.contains b then bankPoisoned (triggerRank u p true) b
        else triggerRank u p true).dram.poison := fun u p hu hb => by
    obtain ⟨_, _, hdram⟩ := triggerRank_dram hu p true
    have hkept : b ∈ (triggerRank u p true).dram.poison := by rwa [hdram]
    rw [if_pos (List.contains_iff_mem.mpr hkept), bankPoisoned_poison]
    exact hkept
  refine htriggered _ _ ?_ ?_
  · exact (congrArg Dram.mig (State.raise_dram ..)).trans hmig
  · change b ∈ (State.raise _ 66 _ _).dram.poison
    rw [State.raise_dram]
    exact mem_setAdd_self b s.dram.poison

variable {w : Nat} {b : Option Nat}

theorem blockBad_one (herrs : s.dram.errs = [(w, b)]) : blockBad s (w / 64 * 64) = decide (b = some uncorrectable) := by
  have hin : w / 64 * 64 ≤ w ∧ w < w / 64 * 64 + 64 := by omega
  rw [blockBad, herrs, List.any_cons, List.any_nil, Bool.or_false, decide_eq_true hin, Bool.true_and]

theorem patrolBlock_unmigrated (hmig : s.dram.mig = none) (b : Nat) : (patrolBlock s b).mem = s.mem := by
  have hs : s.Unmigrated s.mem := ⟨hmig, rfl⟩
  unfold patrolBlock
  split
  · exact (poisonBlock_unmigrated b hs).2
  · exact (countCorrection_unmigrated b hs).2

/-- The block of the only wrong word, corrected and counted for its rank (R280, R292). -/
theorem patrolBlock_corrects (herrs : s.dram.errs = [(w, b)]) (hpoison : s.dram.poison = []) (hb : b ≠ some uncorrectable)
    (hthreshold : s.val 0 0x7410 0x05 = 0) : let t := patrolBlock s (w / 64 * 64)
    t.dram.errs = [] ∧ t.dram.poison = [] ∧ t.stget 0 (0x7420 + rankAt s (w / 64 * 64)) 0x03 =
      min (s.stget 0 (0x7420 + rankAt s (w / 64 * 64)) 0x03 + 1) (2 ^ 32 - 1) := by
  have hin : w / 64 * 64 ≤ w ∧ w < w / 64 * 64 + 64 := by omega
  obtain ⟨r, hcount⟩ := countCorrection_untriggered hthreshold (w / 64 * 64)
  dsimp only
  rw [patrolBlock, blockBad_one herrs, if_neg (ne_true_of_eq_false (decide_eq_false hb)), hcount]
  refine ⟨?_, hpoison, State.stget_bump_self ..⟩
  change s.dram.errs.filter _ = []
  rw [herrs, List.filter_singleton, decide_eq_true hin]
  rfl

variable (hstate : s.dram.state = 2) (hfree : deepWaits s = false)
include hstate hfree

theorem execPatrolScrub_runs (n : Nat) (ups : List Upset) :
    exec (.patrolScrub n ups) s = .next (patrolScrub (applyUpsets s ups) n) :=
  congrArg Host.Outcome.next (if_pos (upkeep_runs hstate hfree))

theorem execPatrolScrub_one (n : Nat) (herrs : s.dram.errs = [(w, b)])
    (hin : ((w - dramBase) / 64 + 3 * slotBytes / 64 - s.dram.patrol) % (3 * slotBytes / 64) < n) (hpoison : s.dram.poison = [])
    (hmig : s.dram.mig = none) (hthreshold : s.val 0 0x7410 0x05 = 0) :
    Gives (.patrolScrub n []) s (fun t => t.mem = s.mem ∧
      (∀ k, b = some k → k < 72 → t.dram.errs = [] ∧ t.dram.poison = [] ∧
        let i := 0x7420 + rankAt s (w / 64 * 64)
        t.stget 0 i 0x03 = min (s.stget 0 i 0x03 + 1) (2 ^ 32 - 1)) ∧
      (b = some uncorrectable → w / 64 * 64 ∈ t.dram.poison)) := by
  obtain ⟨rows, neigh, draws, h⟩ := patrolScrub_one herrs hpoison hin
  refine ⟨_, (execPatrolScrub_runs hstate hfree n []).trans (congrArg Host.Outcome.next h),
    patrolBlock_unmigrated (s := activated s rows neigh draws) hmig _, fun k hk hk72 => ?_, fun hbad => ?_⟩
  · have hb : b ≠ some uncorrectable := by
      rw [hk]
      exact fun h => absurd (Option.some.inj h) (Nat.ne_of_lt hk72)
    exact patrolBlock_corrects (s := activated s rows neigh draws) herrs hpoison hb hthreshold
  · have hblock : patrolBlock (activated s rows neigh draws) (w / 64 * 64) = poisonBlock (activated s rows neigh draws) (w / 64 * 64) :=
      if_pos ((blockBad_one (s := activated s rows neigh draws) herrs).trans (decide_eq_true hbad))
    rw [hblock]
    exact poisonBlock_poisons (s := activated s rows neigh draws) hmig _

end

/-! SPARE_RANK_TEST (R293) -/

section
variable {s : State} (hstate : s.dram.state = 2) (hfree : deepWaits s = false)
include hstate hfree

theorem execSpareRankTest_runs (pass : Bool) : exec (.spareRankTest pass) s = .next (spareTested s pass) :=
  congrArg Host.Outcome.next (if_pos (upkeep_runs hstate hfree))

theorem execSpareRankTest_absent (pass : Bool) (h : anySpare s = none) : exec (.spareRankTest pass) s = .next s := by
  rw [execSpareRankTest_runs hstate hfree, spareTested, h]

variable {p : Nat} (hspare : anySpare s = some p)
include hspare

theorem execSpareRankTest_passed :
    Gives (.spareRankTest true) s (fun t => t = setRank s p { rankOf s p with state := .spareReady }) :=
  ⟨_, execSpareRankTest_runs hstate hfree true, by rw [spareTested, hspare]; rfl⟩

theorem execSpareRankTest_failed : Gives (.spareRankTest false) s (fun t => (rankOf t p).state = .failed ∧
    (∀ q, q ≠ p → rankOf t q = rankOf s q) ∧ t.nv.ranks = t.dram.ranks ∧ t.mem = s.mem) := by
  have hdram : (spareTested s false).dram = (setRank s p { rankOf s p with state := .failed }).dram := by
    rw [spareTested, hspare]
    exact State.raise_dram ..
  have hnv : (spareTested s false).nv.ranks = (setRank s p { rankOf s p with state := .failed }).dram.ranks := by
    rw [spareTested, hspare]
    exact congrArg NonVol.ranks (State.raise_nv ..)
  have hrank : ∀ q, rankOf (spareTested s false) q = rankOf (setRank s p { rankOf s p with state := .failed }) q :=
    rankOf_congr (congrArg Dram.ranks hdram)
  refine ⟨_, execSpareRankTest_runs hstate hfree false, ?_, fun q hq => ?_, ?_, (spareTested_keeps s false).part .mem rfl⟩
  · rw [hrank, rankOf_setRank_self]
  · rw [hrank, rankOf_setRank_ne _ _ hq]
  · rw [hnv, hdram]

end

/-- The upkeep waits while a deep-line read does (R291). -/
theorem exec_upkeep_waits {s : State} (h : deepWaits s = true) :
    ∀ c ∈ [Instr.modeRegisterRead [], .oscillatorMeasure [], .patrolScrub 1 [], .spareRankTest false], exec c s = .next s := by
  have hwaits : ∀ t : State, (if decide (s.dram.state = 2) && !deepWaits s then t else s) = s := fun t => by
    rw [h, Bool.not_true, Bool.and_false, if_neg Bool.false_ne_true]
  have hnext : ∀ t : State, Host.Outcome.next (φ := Fault) (ρ := Refusal)
      (if decide (s.dram.state = 2) && !deepWaits s then t else s) = .next s := fun t => congrArg Host.Outcome.next (hwaits t)
  intro c hc
  simp only [List.mem_cons, List.not_mem_nil, or_false] at hc
  rcases hc with rfl | rfl | rfl | rfl
  · exact hnext _
  · exact hnext _
  · exact hnext _
  · exact hnext _

/-- Settles O34: refreshes and self-refresh by the DRAM's state, and the four upkeep commands while no deep-line read waits. -/
theorem dramUpkeep : Obligations.DramUpkeep := by
  intro s
  refine ⟨fun hstate => ⟨execRefreshDue_postponed hstate, execRefreshDue_full hstate,
      ⟨_, execRefreshDue_issued hstate, Nat.sub_eq_zero_of_le (Nat.le_succ _), refreshed_rows _ _, rfl, rfl⟩, fun hall => ?allBank,
      fun henabled hrender hwanted hidle => ?due, fun asked hwhy => ?idle, fun hfree => ?upkeep, exec_upkeep_waits⟩,
    fun a hstate ha => execSelfRefreshExit_returns hstate ha⟩
  case allBank =>
    refine ⟨_, execRefreshDue_issued hstate, ?_⟩
    rw [refreshed_allBank hall (Nat.succ_ne_zero _), Nat.sub_eq_zero_of_le (Nat.le_succ _)]
  case due =>
    have hdue : selfRefreshDue s := ⟨henabled, hrender, hwanted, hidle⟩
    exact ⟨execSelfRefreshEntry_enters hstate hdue, execSelfRefreshEntry_asked hstate hdue⟩
  case idle =>
    refine execSelfRefreshEntry_idle hstate (fun ⟨henabled, hrender, hwanted, hidle⟩ => ?_) asked
    rcases hwhy with h | h | h | h
    · exact Bool.false_ne_true (h.symm.trans henabled)
    · exact Bool.false_ne_true (hrender.symm.trans h)
    · exact Bool.false_ne_true (hwanted.symm.trans h)
    · exact absurd hidle (Int.not_lt.mpr h)
  case upkeep =>
    refine ⟨fun ranks => execModeRegisterRead_asWritten hstate hfree,
      fun p rate => execModeRegisterRead_changed hstate hfree rate, execOscillatorMeasure_greatest hstate hfree,
      fun p d => execOscillatorMeasure_rank hstate hfree,
      fun n ups => ⟨_, execPatrolScrub_runs hstate hfree n ups, ?_⟩,
      fun n w b herrs _ hin hpoison hmig => execPatrolScrub_one hstate hfree n herrs hin hpoison hmig,
      fun p hspare => ⟨execSpareRankTest_failed hstate hfree hspare, execSpareRankTest_passed hstate hfree hspare⟩,
      execSpareRankTest_absent hstate hfree⟩
    exact (patrolScrub_patrol ..).trans (congrArg (fun k => (k + n) % (3 * slotBytes / 64)) (applyUpsets_patrol s ups))

end Sys2Proof.Machine

namespace Sys2Proof.Machine

/-! What the ring's condition and the status entries leave as they were (R321, R346) -/

section
variable (s : State)

@[simp] theorem judgeRing_byp : (judgeRing s).byp = s.byp := (judgeRing_keeps s).part .byp rfl
@[simp] theorem judgeRing_dict : (judgeRing s).dict = s.dict := (judgeRing_keeps s).part .dict rfl

@[simp] theorem judgeRing_port (q : Nat) : (judgeRing s).port q = s.port q :=
  congrArg (fun m => mget Port.init m q) ((judgeRing_keeps s).part .ports rfl)

@[simp] theorem State.raise_byp (src a b : Nat) : (s.raise src a b).byp = s.byp := (State.raise_keeps ..).part .byp rfl

@[simp] theorem State.raise_port (src a b q : Nat) : (s.raise src a b).port q = s.port q :=
  congrArg (fun m => mget Port.init m q) ((State.raise_keeps ..).part .ports rfl)

@[simp] theorem State.bump_port (i sub n q : Nat) : (s.bump i sub n).port q = s.port q := rfl
@[simp] theorem State.stset_port (d i sub v q : Nat) : (s.stset d i sub v).port q = s.port q := rfl

/-- Of the status entries the ring's condition changes 2100:07 alone. -/
theorem judgeRing_stget (d : Nat) {i sub : Nat} (h : key i sub ≠ key 0x2100 0x07) :
    (judgeRing s).stget d i sub = s.stget d i sub := by
  unfold judgeRing
  refine (State.stget_stset_ne _ _ _ _ h).trans (congrArg (fun m => mget d m (key i sub)) ?_)
  exact foldl_same (φ := State.stat) (fun t q => (State.condition_keeps t ..).part .stat rfl) _ s

@[simp] theorem ringStatus_byp : (ringStatus s).byp = s.byp := rfl

theorem ringStatus_partic : (ringStatus s).stget 0 0x2100 0x02 = Partic.code s.byp.partic := by
  unfold ringStatus
  rw [State.stget_stset_ne _ _ _ _ (by decide), State.stget_stset_ne _ _ _ _ (by decide), stget_stset]

theorem ringStatus_holds : (ringStatus s).stget 0 0x2100 0x05 = if s.byp.hold then 3 else 0 := by
  unfold ringStatus
  rw [State.stget_stset_ne _ _ _ _ (by decide), stget_stset]

end

/-! Link (R306 to R309) -/

section
variable (s : State) {p mode : Nat}

/-- Another port than `p` is as it was. -/
def OtherPortsKept (s t : State) (p : Nat) : Prop := ∀ q, q ≠ p → t.port q = s.port q

theorem setPort_others (v : Port) : OtherPortsKept s (s.setPort p v) p := fun q hq => by
  rw [port_setPort, if_neg hq]

theorem execLinkLock_locks (hp : p < 4) (hmode : mode ≠ 0) (hlock : lockMode s p = mode) :
    Gives (.linkLock p mode) s (fun t => (t.port p).lock = true ∧ (t.port p).mode = mode ∧
      t.stget 0 (0x2110 + p) 0x03 = mode ∧ OtherPortsKept s t p) := by
  refine ⟨_, rfl, ?_⟩
  have hlocks : linkLock s p mode =
      judgeRing ((s.setPort p { s.port p with lock := true, mode := mode }).stset 0 (0x2110 + p) 0x03 mode) :=
    if_pos ⟨hmode, hlock⟩
  rw [if_pos hp, hlocks]
  dsimp only
  rw [judgeRing_stget _ _ (key_ne_of_sub (by decide) (by decide) (by decide)), stget_stset]
  simp only [judgeRing_port, State.stset_port, port_setPort, if_true, true_and]
  exact fun q hq => (judgeRing_port ..).trans ((State.stset_port ..).trans (setPort_others s _ q hq))

theorem execLinkLock_idle (h : lockMode s p ≠ mode) : exec (.linkLock p mode) s = .next s := by
  have hidle : linkLock s p mode = s := if_neg fun hboth => h hboth.2
  exact congrArg Host.Outcome.next (by rw [hidle, ite_self])

theorem linkLoss_down (h : (s.port p).lock = false) : linkLoss s p = s := by
  rw [linkLoss, h, if_neg Bool.false_ne_true]

/-- A port that had lock is down: the loss counted once, no other port touched. -/
theorem linkLoss_up (h : (s.port p).lock = true) : let t := linkLoss s p
    t.port p = { s.port p with lock := false, mode := 0, trying := 1 } ∧
      t.stget 0 (0x2110 + p) 0x0A = min (s.stget 0 (0x2110 + p) 0x0A + 1) (2 ^ 32 - 1) ∧ OtherPortsKept s t p := by
  have hloss : linkLoss s p = judgeRing (((((s.setPort p { s.port p with lock := false, mode := 0, trying := 1 }).stset 0
      (0x2110 + p) 0x03 0).bump (0x2110 + p) 0x0A 1).raise 82 p 0)) := if_pos h
  have hports : ∀ q, (linkLoss s p).port q = (s.setPort p { s.port p with lock := false, mode := 0, trying := 1 }).port q :=
    fun q => by simp only [hloss, judgeRing_port, State.raise_port, State.bump_port, State.stset_port]
  refine ⟨(hports p).trans (by rw [port_setPort, if_pos rfl]), ?_, fun q hq => (hports q).trans (setPort_others s _ q hq)⟩
  rw [hloss, judgeRing_stget _ _ (key_ne_of_sub (by decide) (by decide) (by decide)), State.raise_stget, State.stget_bump_self,
    State.stget_stset_ne _ _ _ _ (key_sub_ne (by decide))]
  rfl

theorem execLinkLoss_idle (h : (s.port p).lock = false) : exec (.linkLoss p) s = .next s := by
  refine congrArg Host.Outcome.next ?_
  rw [linkLoss_down s h, ite_self]

theorem execLineModeAlternate_idle (h : (s.port p).lock = true ∨ s.val 0 (0x2110 + p) 0x01 ≠ 1) :
    exec (.lineModeAlternate p) s = .next s := by
  refine congrArg Host.Outcome.next (if_neg fun hall => ?_)
  simp only [Bool.and_eq_true, decide_eq_true_eq, Bool.not_eq_true'] at hall
  obtain ⟨⟨-, hauto⟩, hlock⟩ := hall
  exact h.elim (by simp [hlock]) (absurd hauto)

theorem execLineModeAlternate_tries (hp : p < 2) (hauto : s.val 0 (0x2110 + p) 0x01 = 1) (hlock : (s.port p).lock = false) :
    Gives (.lineModeAlternate p) s (fun t =>
      t = s.setPort p { s.port p with trying := if (s.port p).trying = 3 then 1 else 3 }) :=
  ⟨_, rfl, if_pos (by simp [hp, hauto, hlock])⟩

/-- A port that was just given the value `v` is down at a loss, whether it had lock or not. -/
theorem linkLoss_setPort (v : Port) : let t := linkLoss (s.setPort p v) p
    (t.port p).absent = v.absent ∧ (t.port p).fault = v.fault ∧ (t.port p).lock = false ∧ OtherPortsKept s t p := by
  have hport : (s.setPort p v).port p = v := (port_setPort ..).trans (if_pos rfl)
  dsimp only
  cases hlock : v.lock with
  | false =>
    rw [linkLoss_down _ ((congrArg Port.lock hport).trans hlock), hport]
    exact ⟨rfl, rfl, hlock, setPort_others s v⟩
  | true =>
    obtain ⟨hdown, -, hkept⟩ := linkLoss_up (s.setPort p v) ((congrArg Port.lock hport).trans hlock)
    rw [hdown, hport]
    exact ⟨rfl, rfl, rfl, fun q hq => (hkept q hq).trans (setPort_others s v q hq)⟩

theorem execSfpModuleAbsentOrFault_eq (hp : p < 2) (absent fault : Bool) : exec (.sfpModuleAbsentOrFault p absent fault) s = .next (
    let u := s.setPort p { s.port p with absent := absent, fault := fault }
    if absent || fault then linkLoss u p else u) := congrArg Host.Outcome.next (if_pos hp)

/-- A module absent or in fault takes the lock away, where there was one (R309). -/
theorem execSfpModuleAbsentOrFault_down (hp : p < 2) {absent fault : Bool} (h : absent = true ∨ fault = true) :
    Gives (.sfpModuleAbsentOrFault p absent fault) s (fun t =>
      (t.port p).absent = absent ∧ (t.port p).fault = fault ∧ (t.port p).lock = false ∧ OtherPortsKept s t p) := by
  refine ⟨_, execSfpModuleAbsentOrFault_eq s hp absent fault, ?_⟩
  dsimp only
  rw [if_pos (Bool.or_eq_true_iff.mpr h)]
  exact linkLoss_setPort s _

end

/-! The holds sink and release (R316, R319, R320) -/

section
variable (s : State)

/-- The holds sink, and the settle time runs. -/
def JoinsRing (s t : State) : Prop := t.byp = { s.byp with
  en := true, hold := true, partic := .joining, settle := s.clk.tick + 3 * s.val 20 0x2100 0x03 } ∧ t.stget 0 0x2100 0x02 = 1

/-- The holds have released for a cause: EN is clear and the module Out. -/
def FreesHolds (s t : State) (cause : Nat) : Prop :=
  t.byp = { s.byp with en := false, hold := false, cause := cause, partic := .outRing } ∧ t.stget 0 0x2100 0x02 = 0 ∧
    t.stget 0 0x2100 0x05 = 0

/-- The holds would sink at a write of EN: the rest of the equation of R316 holds. -/
def HoldsReady (s : State) : Prop :=
  s.byp.en = false ∧ s.byp.hold = false ∧ bypOk s = true ∧ s.power.brownout = false ∧ s.power.inReset = false

/-- The bypass with EN set. -/
def enSet (s : State) : State := { s with byp := { s.byp with en := true } }

theorem holdEquation_iff : holdEquation s = true ↔
    s.byp.en = true ∧ bypOk s = true ∧ s.power.brownout = false ∧ s.power.inReset = false := by
  simp [holdEquation, and_assoc]

theorem sinkHolds_joins (hhold : s.byp.hold = false) (h : holdEquation s = true) : JoinsRing s (sinkHolds s) := by
  obtain ⟨hen, -⟩ := (holdEquation_iff s).mp h
  rw [sinkHolds, if_pos (by simp [hhold, h])]
  refine ⟨?_, ringStatus_partic _⟩
  rw [ringStatus_byp, ← hen]

theorem sinkHolds_idle (h : s.byp.hold = true ∨ holdEquation s = false) : sinkHolds s = s := by
  refine if_neg ?_
  rcases h with h | h <;> simp [h]

theorem setEn_set (h : s.byp.en = true) : setEn s = s := if_pos h

theorem setEn_clear (h : s.byp.en = false) : setEn s = sinkHolds (enSet s) := by
  rw [setEn, h, if_neg Bool.false_ne_true, enSet]

theorem setEn_joins (h : HoldsReady s) : JoinsRing s (setEn s) := by
  obtain ⟨hen, hhold, hok, hvin, hreset⟩ := h
  rw [setEn_clear s hen]
  exact sinkHolds_joins (enSet s) hhold ((holdEquation_iff _).mpr ⟨rfl, hok, hvin, hreset⟩)

/-- EN set while another term of R316 is false: no hold sinks. -/
theorem setEn_dark (hen : s.byp.en = false) (h : bypOk s = false ∨ s.power.brownout = true) : setEn s = enSet s := by
  rw [setEn_clear s hen]
  refine sinkHolds_idle _ (Or.inr (Bool.eq_false_iff.mpr fun heq => ?_))
  obtain ⟨-, hok, hvin, -⟩ := (holdEquation_iff _).mp heq
  exact h.elim (fun hno => Bool.false_ne_true (hno.symm.trans hok)) (fun hyes => Bool.false_ne_true (hvin.symm.trans hyes))

theorem releaseHolds_frees (cause : Nat) : FreesHolds s (releaseHolds s cause) cause := by
  unfold releaseHolds
  dsimp only
  refine ⟨by rw [State.raise_byp, judgeRing_byp, ringStatus_byp], ?_, ?_⟩
  · rw [State.raise_stget, judgeRing_stget _ _ (by decide), ringStatus_partic]
    rfl
  · rw [State.raise_stget, judgeRing_stget _ _ (by decide), ringStatus_holds]
    rfl

theorem clearEn_frees (cause : Nat) (h : s.byp.hold = true) : FreesHolds s (clearEn s cause) cause := by
  rw [clearEn, if_pos h]
  exact releaseHolds_frees s cause

theorem clearEn_unsunk (cause : Nat) (h : s.byp.hold = false) :
    clearEn s cause = { s with byp := { s.byp with en := false } } := by
  rw [clearEn, h, if_neg Bool.false_ne_true]

end

end Sys2Proof.Machine

namespace Sys2Proof.Machine

/-! What stays between the command and the holds -/

section
variable {s u t : State}

theorem JoinsRing.congr (h : JoinsRing u t) (hbyp : u.byp = s.byp) (htick : u.clk.tick = s.clk.tick)
    (hsettle : u.val 20 0x2100 0x03 = s.val 20 0x2100 0x03) : JoinsRing s t := by
  rwa [JoinsRing, hbyp, htick, hsettle] at h

theorem FreesHolds.congr {cause : Nat} (h : FreesHolds u t cause) (hbyp : u.byp = s.byp) : FreesHolds s t cause := by
  rwa [FreesHolds, hbyp] at h

end

section
variable (s : State)

/-! BYP_CTRL_EN_WRITE and RING_PARTICIPATION (R318 to R320) -/

theorem boolOk_above {v : Nat} (h : 1 < v) : boolOk v = Abort.range := by
  rw [boolOk, decide_eq_false (Nat.not_le.mpr h), need_false]

theorem State.flag_put (i sub v : Nat) : (s.put 0 i sub v).flag i sub = decide (v ≠ 0) := by
  rw [State.flag, val_put]

@[simp] theorem setEn_flag (i sub : Nat) : (setEn s).flag i sub = s.flag i sub :=
  congrArg (fun m => decide (ent m 0 i sub ≠ 0)) ((setEn_keeps s).part .dict rfl)

@[simp] theorem clearEn_flag (cause i sub : Nat) : (clearEn s cause).flag i sub = s.flag i sub :=
  congrArg (fun m => decide (ent m 0 i sub ≠ 0)) ((clearEn_keeps s cause).part .dict rfl)

theorem execRingParticipation_sets (hgate : s.gate 0x2100 = 0) :
    exec (.ringParticipation 1) s = .next (setEn (s.put 0 0x2100 0x01 1)) :=
  exec_takes (eff := fun t => ringApply t 1) rfl (by decide) hgate

theorem execRingParticipation_clears (hgate : s.gate 0x2100 = 0) :
    exec (.ringParticipation 0) s = .next (clearEn (s.put 0 0x2100 0x01 0) 4) :=
  exec_takes (eff := fun t => ringApply t 0) rfl (by decide) hgate

theorem execRingParticipation_joins (h : HoldsReady s) (hgate : s.gate 0x2100 = 0) :
    Gives (.ringParticipation 1) s (fun t => JoinsRing s t ∧ t.flag 0x2100 0x01 = true) := by
  refine ⟨_, execRingParticipation_sets s hgate, ?_, by rw [setEn_flag, State.flag_put]; rfl⟩
  exact (setEn_joins (s.put 0 0x2100 0x01 1) h).congr rfl rfl (s.val_put_ne 0 20 1 (by decide))

theorem execRingParticipation_frees (hhold : s.byp.hold = true) (hgate : s.gate 0x2100 = 0) :
    Gives (.ringParticipation 0) s (fun t => FreesHolds s t 4 ∧ t.flag 0x2100 0x01 = false) := by
  refine ⟨_, execRingParticipation_clears s hgate, ?_, by rw [clearEn_flag, State.flag_put]; rfl⟩
  exact (clearEn_frees (s.put 0 0x2100 0x01 0) 4 hhold).congr rfl

theorem execRingParticipation_unsunk (hhold : s.byp.hold = false) (hgate : s.gate 0x2100 = 0) :
    Gives (.ringParticipation 0) s (fun t => t.byp = { s.byp with en := false } ∧ t.flag 0x2100 0x01 = false) := by
  refine ⟨_, execRingParticipation_clears s hgate, ?_, by rw [clearEn_flag, State.flag_put]; rfl⟩
  exact congrArg State.byp (clearEn_unsunk (s.put 0 0x2100 0x01 0) 4 hhold)

/-! AUTOMATIC_REJOIN, SETTLE_TIME_END, BYPASS_DEADMAN_STARVED and BYP_CTRL_FEED (R317, R319, R320) -/

theorem execAutomaticRejoin_joins (h : HoldsReady s) (hauto : s.flag 0x2100 0x04 = true) (hpart : s.flag 0x2100 0x01 = true)
    (hrun : 3000 ≤ s.byp.fedRun) : Gives .automaticRejoin s (JoinsRing s) := by
  obtain ⟨hen, -, -, hvin, -⟩ := id h
  have hrejoin : rejoin s = setEn s := if_pos (by simp [hauto, hpart, hen, hrun, hvin])
  exact ⟨_, rfl, hrejoin ▸ setEn_joins s h⟩

theorem execAutomaticRejoin_idle (h : s.flag 0x2100 0x04 = false ∨ s.flag 0x2100 0x01 = false ∨ s.byp.en = true ∨
    s.byp.fedRun < 3000 ∨ s.power.brownout = true) : exec .automaticRejoin s = .next s := by
  refine congrArg Host.Outcome.next (if_neg ?_)
  rcases h with h | h | h | h | h <;> simp [h]

theorem execSettleTimeEnd_joined (hpartic : s.byp.partic = .joining) (hsettle : s.byp.settle ≤ s.clk.tick) :
    Gives .settleTimeEnd s (fun t => t.byp = { s.byp with partic := .inRing } ∧ t.stget 0 0x2100 0x02 = 2) := by
  have hend : settleEnd s = judgeRing (ringStatus { s with byp := { s.byp with partic := .inRing } }) :=
    if_pos (by simp [hpartic, hsettle])
  refine ⟨_, rfl, ?_, ?_⟩
  · rw [hend, judgeRing_byp, ringStatus_byp]
  · rw [hend, judgeRing_stget _ _ (by decide), ringStatus_partic]
    rfl

theorem execSettleTimeEnd_idle (h : s.byp.partic ≠ .joining ∨ s.clk.tick < s.byp.settle) : exec .settleTimeEnd s = .next s := by
  refine congrArg Host.Outcome.next (if_neg ?_)
  rcases h with h | h <;> simp [h]

theorem execBypassDeadmanStarved_frees (hhold : s.byp.hold = true) (h : bypOk s = false) :
    Gives .bypassDeadmanStarved s (fun t => FreesHolds s t 3) := by
  refine ⟨_, congrArg Host.Outcome.next (if_pos (by simp [hhold, h])), releaseHolds_frees s 3⟩

theorem execBypassDeadmanStarved_idle (h : s.byp.hold = false ∨ bypOk s = true) : exec .bypassDeadmanStarved s = .next s := by
  refine congrArg Host.Outcome.next (if_neg ?_)
  rcases h with h | h <;> simp [h]

/-! BROWNOUT and BROWNOUT_END (R316) -/

@[simp] theorem State.elapse_power (at_ : Nat) : (s.elapse at_).power = s.power := (State.elapse_keeps ..).part .power rfl

/-- The state with VIN as it was found, in brown-out or not. -/
def supplied (vin : Nat) (low : Bool) : State := { s with power := { s.power with vinMv := vin, brownout := low } }

theorem supplySeen_powered (t : State) {vin : Nat} (h : 3900 ≤ vin) : supplySeen s vin t = t := if_neg (Nat.not_lt.mpr h)

theorem brownout_above {vin : Nat} (h : 4200 ≤ vin) :
    brownout s vin = { s with power := { s.power with vinMv := vin } } := if_pos h

theorem brownout_below {vin : Nat} (h : vin < 4200) :
    brownout s vin = if s.byp.hold then releaseHolds (supplied s vin true) 2 else supplied s vin true :=
  if_neg (Nat.not_le.mpr h)

theorem execBrownout_eq (at_ : Nat) {vin : Nat} (h : 3900 ≤ vin) :
    exec (.brownout at_ vin) s = .next (brownout (s.elapse at_) vin) :=
  congrArg Host.Outcome.next (supplySeen_powered s _ h)

theorem execBrownoutEnd_eq (at_ : Nat) {vin : Nat} (h : 3900 ≤ vin) :
    exec (.brownoutEnd at_ vin) s = .next (brownoutEnd (s.elapse at_) vin) :=
  congrArg Host.Outcome.next (supplySeen_powered s _ h)

theorem execBrownout_frees (at_ : Nat) {vin : Nat} (hhold : s.byp.hold = true) (hlo : 3900 ≤ vin) (hhi : vin < 4200) :
    Gives (.brownout at_ vin) s (fun t => FreesHolds s t 2 ∧ t.power.brownout = true ∧ t.power.vinMv = vin) := by
  refine ⟨_, execBrownout_eq s at_ hlo, ?_⟩
  rw [brownout_below _ hhi, if_pos (by rw [State.elapse_byp, hhold])]
  have hpower : (releaseHolds (supplied (s.elapse at_) vin true) 2).power = (supplied (s.elapse at_) vin true).power :=
    (releaseHolds_keeps ..).part .power rfl
  exact ⟨(releaseHolds_frees ..).congr (State.elapse_byp ..), congrArg Power.brownout hpower, congrArg Power.vinMv hpower⟩

theorem execBrownout_unsunk (at_ : Nat) {vin : Nat} (hhold : s.byp.hold = false) (hlo : 3900 ≤ vin) (hhi : vin < 4200) :
    Gives (.brownout at_ vin) s (fun t => t.power = { s.power with vinMv := vin, brownout := true } ∧ t.byp = s.byp) := by
  refine ⟨_, execBrownout_eq s at_ hlo, ?_⟩
  rw [brownout_below _ hhi, State.elapse_byp, hhold, if_neg Bool.false_ne_true, supplied, State.elapse_power]
  exact ⟨rfl, State.elapse_byp ..⟩

theorem execBrownout_above (at_ : Nat) {vin : Nat} (h : 4200 ≤ vin) :
    Gives (.brownout at_ vin) s (fun t => t.power = { s.power with vinMv := vin } ∧ t.byp = s.byp) := by
  refine ⟨_, execBrownout_eq s at_ (by omega), ?_⟩
  rw [brownout_above _ h, State.elapse_power]
  exact ⟨rfl, State.elapse_byp ..⟩

theorem brownoutEnd_above {vin : Nat} (h : 4400 < vin) : brownoutEnd s vin = sinkHolds (supplied s vin false) := if_pos h

theorem sinkHolds_power : (sinkHolds s).power = s.power := (sinkHolds_keeps s).part .power rfl

theorem execBrownoutEnd_ends (at_ : Nat) {vin : Nat} (h : 4400 < vin) :
    Gives (.brownoutEnd at_ vin) s (fun t => t.power = { s.power with vinMv := vin, brownout := false } ∧
      (s.byp.hold = true ∨ s.byp.en = false ∨ bypOk s = false → t.byp = s.byp)) := by
  refine ⟨_, execBrownoutEnd_eq s at_ (by omega), ?_⟩
  rw [brownoutEnd_above _ h]
  refine ⟨by rw [sinkHolds_power, supplied, State.elapse_power], fun hno => ?_⟩
  have hidle : (supplied (s.elapse at_) vin false).byp.hold = true ∨ holdEquation (supplied (s.elapse at_) vin false) = false := by
    rcases hno with hno | hno | hno
    · exact Or.inl (by rw [supplied, State.elapse_byp, hno])
    · exact Or.inr (by simp [holdEquation, supplied, hno])
    · rw [bypOk] at hno
      exact Or.inr (by simp only [holdEquation, bypOk, supplied, State.elapse_byp, hno, Bool.and_false, Bool.false_and])
  rw [sinkHolds_idle _ hidle]
  exact State.elapse_byp ..

theorem execBrownoutEnd_joins (at_ : Nat) {vin : Nat} (h : 4400 < vin) (hhold : s.byp.hold = false) (hen : s.byp.en = true)
    (hok : bypOk s = true) (hreset : s.power.inReset = false) : Gives (.brownoutEnd at_ vin) s (JoinsRing s) := by
  refine ⟨_, execBrownoutEnd_eq s at_ (by omega), ?_⟩
  rw [brownoutEnd_above _ h]
  have hbyp : (supplied (s.elapse at_) vin false).byp = s.byp := State.elapse_byp ..
  have hequation : holdEquation (supplied (s.elapse at_) vin false) = true := by
    rw [bypOk] at hok
    simp [holdEquation, bypOk, hen, hok, supplied, hreset]
  exact (sinkHolds_joins _ (by rw [hbyp, hhold]) hequation).congr hbyp (State.elapse_tick ..) (State.elapse_val ..)

theorem execBrownoutEnd_stays (at_ : Nat) {vin : Nat} (hlo : 3900 ≤ vin) (hhi : vin ≤ 4400) :
    Gives (.brownoutEnd at_ vin) s (fun t => t.power = { s.power with vinMv := vin } ∧ t.byp = s.byp) := by
  refine ⟨_, execBrownoutEnd_eq s at_ hlo, ?_⟩
  rw [brownoutEnd, if_neg (Nat.not_lt.mpr hhi), State.elapse_power]
  exact ⟨rfl, State.elapse_byp ..⟩

end

/-- Settles O43: each command's law, the holds by the equation of R316. -/
theorem linksAndBypass : Obligations.LinksAndBypass := by
  intro s p mode at_ vin out joins free dark sinks
  refine ⟨execLinkLock_locks s, execLinkLock_idle s, fun hp hlock => ⟨_, congrArg Host.Outcome.next (if_pos hp), linkLoss_up s hlock⟩,
    execLinkLoss_idle s, execLineModeAlternate_idle s, execLineModeAlternate_tries s,
    fun absent fault hp h => execSfpModuleAbsentOrFault_down s hp h,
    fun hp => ⟨_, execSfpModuleAbsentOrFault_eq s hp false false, ?_⟩,
    fun h => ⟨_, rfl, setEn_joins s h⟩, execRingParticipation_joins s,
    fun hen => ⟨congrArg Host.Outcome.next (setEn_set s hen), fun hgate => ⟨_, execRingParticipation_sets s hgate, setEn_set _ hen⟩⟩,
    fun hen _ hdark => ⟨_, rfl, setEn_dark s hen hdark⟩,
    fun hmode => declines_of_check (eff := fun t => ringApply t mode) rfl (boolOk_above hmode) (by decide),
    execAutomaticRejoin_joins s, execAutomaticRejoin_idle s, execSettleTimeEnd_joined s, execSettleTimeEnd_idle s,
    fun hhold => ⟨execBypassDeadmanStarved_frees s hhold, fun hok => execBypassDeadmanStarved_idle s (Or.inr hok),
      ⟨_, rfl, clearEn_frees s 4 hhold⟩, execRingParticipation_frees s hhold, execBrownout_frees s at_ hhold⟩,
    fun hhold => ⟨execBypassDeadmanStarved_idle s (Or.inl hhold), ⟨_, rfl, clearEn_unsunk s 4 hhold⟩,
      execRingParticipation_unsunk s hhold, execBrownout_unsunk s at_ hhold⟩,
    execBrownout_above s at_, execBrownoutEnd_ends s at_, execBrownoutEnd_joins s at_, execBrownoutEnd_stays s at_,
    fun hrender => ⟨_, rfl, ?_⟩, fun hrender => congrArg Host.Outcome.next (if_pos hrender)⟩
  · exact (port_setPort ..).trans (if_pos rfl)
  · rw [bypFeed, hrender, if_neg Bool.false_ne_true]

end Sys2Proof.Machine

namespace Sys2Proof.Machine

/-! The switch (R311, R312, R320) -/

section
variable (s : State) {p q : Nat} {f : RingFrame}

theorem State.heard_counts (p : Nat) : Counts s (s.heard p) (0x2110 + p) 0x04 1 := s.bump_counts ..

/-- A count holds from before the time that ran on. -/
theorem Counts.of_elapse {s t : State} {at_ i sub n : Nat} (h : Counts (s.elapse at_) t i sub n) : Counts s t i sub n := by
  simpa only [Counts, State.elapse_stget] using h

theorem Counts.raise {s t : State} {i sub n : Nat} (h : Counts s t i sub n) (src a b : Nat) :
    Counts s (t.raise src a b) i sub n := by
  simpa only [Counts, State.raise_stget] using h

/-- A ring port is open where it has lock and the module is In (R320). -/
theorem open_of_lock (hlock : (s.port q).lock = true) (hin : s.byp.partic = .inRing) : s.open q = true := by
  rw [State.port] at hlock
  simp [State.open, hlock, hin]

theorem sendPort_out (x : OutFrame) (h : s.open q = true) : (s.sendPort q x).out = s.out ++ [x] := (sendPort_sends s x h).1

/-- A frame that the module may take in state In: no pause frame, and not one of its own come round (R311). -/
structure Heeded (s : State) (f : RingFrame) : Prop where
  inRing  : s.byp.partic = .inRing
  noPause : f.pause = false
  foreign : f.srcMac ≠ Config.mac.toNat

/-- Such a frame received whole, of legal length and not link-local: the switch decides on it (R311, R312). -/
structure Switched (s : State) (f : RingFrame) : Prop extends Heeded s f where
  check  : f.fcsOk = true
  min    : 64 ≤ f.length
  max    : f.length ≤ 9022
  routed : linkLocal f.dstMac = false

theorem ringFrame_notIn (h : s.byp.partic ≠ .inRing) : ringFrame s p f = s.heard p := by
  have hnot : (s.heard p).byp.partic ≠ .inRing := h
  exact if_pos (by simp [hnot])

theorem Heeded.passes {s : State} (h : Heeded s f) (p : Nat) :
    ((s.heard p).byp.partic ≠ .inRing || f.pause || decide (f.srcMac = Config.mac.toNat)) = false := by
  have hin : (s.heard p).byp.partic = .inRing := h.inRing
  simp [hin, h.noPause, h.foreign]

theorem ringFrame_short (h : Heeded s f) (hlen : f.length < 64) : ringFrame s p f = (s.heard p).bump (0x2110 + p) 0x09 1 :=
  (if_neg (Bool.eq_false_iff.mp (h.passes p))).trans (if_pos hlen)

theorem Switched.errors_none {s : State} (h : Switched s f) (t : State) (p : Nat) : countFrameErrors t p f = t := by
  rw [countFrameErrors, h.check, if_pos rfl, if_neg (Nat.not_lt.mpr h.max)]

theorem Switched.good {s : State} (h : Switched s f) : (!f.fcsOk || decide (9022 < f.length)) = false := by
  simp [h.check, h.max]

/-- What the switch passes on of a good IPv4 frame: with one less to live, and with none left nothing. -/
def passedOn (s : State) (p : Nat) (f : RingFrame) (ttl dst : Nat) (echo : Bool) : State :=
  if ttl ≤ 1 then s.heard p else forwardFrame (s.heard p) p { f with kind := .ipv4 (ttl - 1) dst echo } false

/-- A frame for the module delivered and, where it asks for the ring address, answered. -/
def atModule (s : State) (p : Nat) (f : RingFrame) : State := answerFrame (s.send (.deliver f)) p f false

theorem ringFrame_ipv4 {ttl dst : Nat} {echo : Bool} (h : Switched s f) (hk : f.kind = .ipv4 ttl dst echo) : ringFrame s p f =
    if addressed s f then atModule (passedOn s p f ttl dst echo) p f else passedOn s p f ttl dst echo := by
  simp only [ringFrame, h.passes p, h.errors_none, h.good, h.routed, hk, if_neg (Nat.not_lt.mpr h.min), Bool.false_eq_true, if_false]
  rfl

/-- A frame that the switch does not pass on by itself: neither IPv4 nor PTP. -/
theorem ringFrame_plain (h : Switched s f) (hk : f.kind = .other ∨ ∃ dst, f.kind = .arp true dst) : ringFrame s p f =
    if addressed s f then atModule (s.heard p) p f else s.heard p := by
  obtain hk | ⟨dst, hk⟩ := hk <;>
  · simp only [ringFrame, h.passes p, h.errors_none, h.good, h.routed, hk, if_neg (Nat.not_lt.mpr h.min), Bool.false_eq_true,
      if_false]
    rfl

theorem passedOn_forwards {ttl : Nat} (dst : Nat) (echo : Bool) (httl : 1 < ttl) (hopen : s.open (1 - p) = true) :
    (passedOn s p f ttl dst echo).out = s.out ++ [.ring (1 - p) { f with kind := .ipv4 (ttl - 1) dst echo } false] := by
  rw [passedOn, if_neg (Nat.not_le.mpr httl)]
  exact sendPort_out (s.heard p) _ hopen

theorem passedOn_expired {ttl : Nat} (dst : Nat) (echo : Bool) (httl : ttl ≤ 1) : passedOn s p f ttl dst echo = s.heard p :=
  if_pos httl

theorem atModule_other (hk : f.kind = .other) : atModule s p f = s.send (.deliver f) := by
  unfold atModule answerFrame
  rw [hk]
  exact ite_self _

/-- Frame `f` asks for the address `dst`, and is answered by `x` on the port that it came in by: an ARP request, or an ICMP echo
request that goes no further. -/
def AsksAddress (f : RingFrame) (p dst : Nat) (x : OutFrame) : Prop :=
  (f.kind = .arp true dst ∧ x = .arpReply p f.srcMac dst) ∨
    ∃ ttl, ttl ≤ 1 ∧ f.kind = .ipv4 ttl dst true ∧ x = .echoReply p f.srcMac dst

theorem atModule_answers {dst : Nat} (x : OutFrame) (hown : s.val 0 0x2100 0x0C ≠ 0) (hdst : dst = s.val 0 0x2100 0x0C)
    (hopen : s.open p = true) (hk : AsksAddress f p dst x) :
    (atModule s p f).out = s.out ++ [.deliver f, x] := by
  have hanswer : atModule s p f = (s.send (.deliver f)).sendPort p x := by
    have hval : (s.send (.deliver f)).val 0 0x2100 0x0C = dst := hdst.symm
    have hne : dst ≠ 0 := hdst ▸ hown
    unfold atModule answerFrame
    obtain ⟨hk, rfl⟩ | ⟨ttl, -, hk, rfl⟩ := hk <;> simp [hk, hval, hne]
  rw [hanswer]
  exact (sendPort_out (s.send (.deliver f)) x hopen).trans (List.append_assoc ..)

end

section
variable (s : State) (at_ : Nat) {p : Nat} {f : RingFrame}

theorem elapse_heard_out (p : Nat) : ((s.elapse at_).heard p).out = s.out := State.elapse_out ..

theorem execRingFrameReceived_linked (hp : p < 2) (hlock : ((s.elapse at_).port p).lock = true) :
    exec (.ringFrameReceived at_ p f) s = .next (ringFrame (s.elapse at_) p f) :=
  congrArg Host.Outcome.next (if_pos (by rw [hlock, Bool.and_true, decide_eq_true hp]))

theorem execRingFrameReceived_down (h : ((s.elapse at_).port p).lock = false) :
    exec (.ringFrameReceived at_ p f) s = .next (s.elapse at_) :=
  congrArg Host.Outcome.next (if_neg (by rw [h, Bool.and_false]; exact Bool.false_ne_true))

end

/-! STREAM_PACKET_RECEIVED: the checks of one slot (R330 to R333, R335) -/

section
variable (s : State) (at_ : Nat) {p i : Nat} {g : Datagram}

theorem execStreamPacketReceived_idle (h : ((s.elapse at_).port p).lock = false ∨ (s.elapse at_).byp.partic ≠ .inRing) :
    exec (.streamPacketReceived at_ p g) s = .next (s.elapse at_) := by
  refine congrArg Host.Outcome.next (if_neg fun hopen => ?_)
  simp only [Bool.and_eq_true, decide_eq_true_eq] at hopen
  obtain ⟨⟨-, hlock⟩, hin⟩ := hopen
  exact h.elim (fun hdown => Bool.false_ne_true (hdown.symm.trans hlock)) (fun hnot => hnot hin)

/-- A packet while one slot alone may take packets. -/
theorem execStreamPacketReceived_slot (hp : p < 2) (hlock : ((s.elapse at_).port p).lock = true)
    (hin : (s.elapse at_).byp.partic = .inRing) (hslots : rxSlots (s.elapse at_) = [i]) :
    exec (.streamPacketReceived at_ p g) s = .next (rxPacket (s.elapse at_) g i) := by
  have hopen : (decide (p < 2) && ((s.elapse at_).port p).lock && decide ((s.elapse at_).byp.partic = .inRing)) = true := by
    rw [hlock, decide_eq_true hp, decide_eq_true hin]
    rfl
  refine congrArg Host.Outcome.next ((if_pos hopen).trans ?_)
  rw [hslots]
  rfl

end

section
variable (s : State) {i : Nat} {g : Datagram} {k : Int} {d : SMap Nat}

/-- Packet `g` is for tick `k` and matches slot `i` with the entries `d` then in force. -/
structure SlotMatches (s : State) (i : Nat) (g : Datagram) (k : Int) (d : SMap Nat) : Prop where
  tick  : packetTick s i g.payload = (k, d)
  slot  : rxMatches d i g = true

/-- The state with the least margin of slot `i` noted (R315). -/
def marginNoted (s : State) (i : Nat) (k : Int) : State := s.stset 0x7FFFFFFF (0x2200 + i) 0x13
  (toPat 32 (min (toSigned 32 (s.stget 0x7FFFFFFF (0x2200 + i) 0x13)) (satS 32 (marginOf s k))))

theorem rxPacket_malformed (h : SlotMatches s i g k d) (hc : rxCheck s.n d i g = .malformed) :
    rxPacket s g i = (s.bump (0x2200 + i) 0x10 1).raise 86 i 0 := by
  simp only [rxPacket, h.tick, h.slot, hc, Bool.not_true, Bool.false_eq_true, if_false]

theorem rxPacket_claim (h : SlotMatches s i g k d) (hc : rxCheck s.n d i g = .claim) :
    rxPacket s g i = (s.bump (0x2200 + i) 0x11 1).raise 84 i 0 := by
  simp only [rxPacket, h.tick, h.slot, hc, Bool.not_true, Bool.false_eq_true, if_false]

theorem rxPacket_ahead (h : SlotMatches s i g k d) (hc : rxCheck s.n d i g = .valid) (hahead : (s.clk.tick : Int) + 7 < k) :
    rxPacket s g i = s.bump (0x2200 + i) 0x0F 1 := by
  simp only [rxPacket, h.tick, h.slot, hc, hahead, Bool.not_true, Bool.false_eq_true, if_false, if_true]

theorem rxPacket_late (h : SlotMatches s i g k d) (hc : rxCheck s.n d i g = .valid) (hlate : k < (s.clk.tick : Int)) :
    rxPacket s g i = (((marginNoted s i k).bump (0x2200 + i) 0x0E 1).raise 87 i 0).mark k.toNat 2 := by
  have hnear : ¬ (s.clk.tick : Int) + 7 < k := by omega
  simp only [rxPacket, h.tick, h.slot, hc, hnear, hlate, decide_true, Bool.true_or, Bool.not_true, Bool.false_eq_true, if_false,
    if_true]
  rfl

theorem rxPacket_timely (h : SlotMatches s i g k d) (hc : rxCheck s.n d i g = .valid) (hlo : (s.clk.tick : Int) ≤ k)
    (hhi : k ≤ (s.clk.tick : Int) + 7) (hmargin : 0 ≤ marginOf s k) :
    rxPacket s g i = rxCopy (marginNoted s i k) d i k.toNat g.payload (marginOf s k) := by
  have hnear : ¬ (s.clk.tick : Int) + 7 < k := Int.not_lt.mpr hhi
  have hearly : ¬ k < (s.clk.tick : Int) := Int.not_lt.mpr hlo
  have hcut : ¬ marginOf s k < 0 := Int.not_lt.mpr hmargin
  simp only [rxPacket, h.tick, h.slot, hc, hnear, hearly, hcut, decide_false, Bool.or_false, Bool.not_true, Bool.false_eq_true,
    if_false]
  rfl

end

/-! Receive slots beside the one that changes -/

section
variable (s : State) {i j : Nat}

/-- Every receive slot but `i` is as it was. -/
def OtherSlotsKept (s t : State) (i : Nat) : Prop := ∀ j, j ≠ i → rxOf t j = rxOf s j

theorem rxOf_setRx_self (i : Nat) (v : RxSlot) : rxOf (setRx s i v) i = v := mget_mset_self ..

theorem setRx_others (i : Nat) (v : RxSlot) : OtherSlotsKept s (setRx s i v) i := fun _ hj => mget_mset_ne _ _ _ _ _ hj

theorem rxOf_congr {s t : State} (h : t.rx = s.rx) (j : Nat) : rxOf t j = rxOf s j := congrArg (fun m => mget RxSlot.init m j) h

@[simp] theorem State.raise_rx (src a b : Nat) : (s.raise src a b).rx = s.rx := (State.raise_keeps ..).part .rx rfl

/-! Taking a copy (R323, R324, R327, R335) -/

theorem takeRecords_stget (block slot seq : Nat) (counts : Bool) {d j sub : Nat} (h : key j sub ≠ key 0x3801 0x09) :
    ∀ (l : List (List Byte)) (s : State), (takeRecords s block slot seq counts l).stget d j sub = s.stget d j sub
  | [], _ => rfl
  | b :: r, s => by
    unfold takeRecords
    split
    · exact takeRecords_stget block slot seq counts h r _
    · refine (takeRecords_stget block slot seq counts h r _).trans ?_
      split
      · rw [State.raise_stget, State.stget_bump_ne _ _ _ h]
      · rfl

/-- Of the receive slots the contents of a copy change the samples of their own alone. -/
theorem takeContents_slot (i k : Nat) (p : List Byte) : let t := takeContents s i k p
    (∃ buf, rxOf t i = { rxOf s i with buf := buf }) ∧ OtherSlotsKept s t i := by
  dsimp only
  unfold takeContents
  dsimp only
  split
  · have hrx := (takeRecords_keeps k i (beAt p 16 4) (decide (s.valFor 255 0x3800 0x01 k = i)) (recordsOf p) s).part .rx rfl
    exact ⟨⟨(rxOf s i).buf, rxOf_congr hrx i⟩, fun j _ => rxOf_congr hrx j⟩
  · exact ⟨⟨_, rxOf_setRx_self ..⟩, setRx_others s i _⟩
  · exact ⟨⟨_, rxOf_setRx_self ..⟩, setRx_others s i _⟩

theorem takeContents_stget (i k : Nat) (p : List Byte) {d j sub : Nat} (h : key j sub ≠ key 0x3801 0x09) :
    (takeContents s i k p).stget d j sub = s.stget d j sub := by
  unfold takeContents
  dsimp only
  split
  · exact takeRecords_stget _ _ _ _ h _ s
  · rfl
  · rfl

/-- Copy `c` is taken by slot `i`, shadows of its packet are dropped, and it counts in 2200+i:0C. -/
structure TakesCopy (s t : State) (i : Nat) (c : RxCopy) : Prop where
  taken  : (rxOf t i).taken = (rxOf s i).taken ++ [c]
  shadow : (rxOf t i).shadow = (rxOf s i).shadow.filter (fun h => decide (h.key ≠ c.key))
  got    : (rxOf t i).got = true
  others : OtherSlotsKept s t i
  count  : t.stget 0 (0x2200 + i) 0x0C = min (s.stget 0 (0x2200 + i) 0x0C + 1) (2 ^ 32 - 1)

/-- The slot and the counters once a copy is taken, before its contents. -/
def copyNoted (s : State) (i : Nat) (c : RxCopy) : State :=
  let r := rxOf s i
  ((setRx s i { r with taken := r.taken ++ [c], shadow := r.shadow.filter (fun h => decide (h.key ≠ c.key)), got := true }).bump
    (0x2200 + i) 0x0C 1).bump (0x2200 + i) 0x0D (r.shadow.filter (fun h => decide (h.key = c.key))).length

theorem copyNoted_takes (i : Nat) (c : RxCopy) : TakesCopy s (copyNoted s i c) i c := by
  have hslot : rxOf (copyNoted s i c) i = { rxOf s i with
      taken := (rxOf s i).taken ++ [c], shadow := (rxOf s i).shadow.filter (fun h => decide (h.key ≠ c.key)), got := true } :=
    rxOf_setRx_self ..
  refine ⟨by rw [hslot], by rw [hslot], by rw [hslot], setRx_others s i _, ?_⟩
  rw [copyNoted, State.stget_bump_ne _ _ _ (key_sub_ne (by decide)), State.stget_bump_self]
  rfl

/-- What taking a copy leaves once more beside its contents and the twin's marks. -/
theorem TakesCopy.contents {s t u : State} {i : Nat} {c : RxCopy} (h : TakesCopy s t i c) (hrx : u.rx = t.rx)
    (hstat : u.stat = t.stat) (k : Nat) (p : List Byte) : TakesCopy s (takeContents u i k p) i c := by
  obtain ⟨⟨buf, hslot⟩, hothers⟩ := takeContents_slot u i k p
  rw [rxOf_congr hrx] at hslot
  refine ⟨by rw [hslot, h.taken], by rw [hslot, h.shadow], by rw [hslot, h.got], fun j hj => ?_, ?_⟩
  · rw [hothers j hj, rxOf_congr hrx, h.others j hj]
  · rw [takeContents_stget u i k p (key_ne_of_sub (by decide) (by decide) (by decide)), State.stget, hstat]
    exact h.count

theorem takeCopy_takes (i : Nat) (c : RxCopy) (p : List Byte) (margin : Int) : TakesCopy s (takeCopy s i c p margin) i c := by
  have hcopy : takeCopy s i c p margin =
      takeContents (if margin < 10000 then (copyNoted s i c).mark c.block 2 else copyNoted s i c) i c.block p := rfl
  rw [hcopy]
  refine (copyNoted_takes s i c).contents ?_ ?_ c.block p <;>
  · split <;> rfl

end

/-! A valid copy in time (R335) -/

section
variable (s : State) {d : SMap Nat} {i k : Nat} {p : List Byte}

/-- The copy of packet `p`: one of an AES67 stream is always primary. -/
def copyOf (d : SMap Nat) (i k : Nat) (p : List Byte) : RxCopy :=
  let flags := if 3 ≤ rxType d i then beAt p 20 1 else 1
  ⟨copyKey d i k p, k, flags / 2 % 2, flags % 2 = 1, false⟩

/-- No copy of the packet has been taken yet. -/
theorem rxCopy_first (margin : Int) (htaken : ∀ c ∈ (rxOf s i).taken, c.key ≠ copyKey d i k p) : rxCopy s d i k p margin =
    if (copyOf d i k p).primary then takeCopy s i (copyOf d i k p) p margin
    else if (rxOf s i).shadow.any (fun h => decide (h.key = copyKey d i k p)) then s.bump (0x2200 + i) 0x0D 1
    else setRx s i { rxOf s i with
      shadow := (rxOf s i).shadow ++ [⟨copyKey d i k p, k, (copyOf d i k p).twin, p⟩] } := by
  have hnone : (rxOf s i).taken.find? (fun e => decide (e.key = copyKey d i k p)) = none :=
    List.find?_eq_none.mpr fun c hc => by simpa using htaken c hc
  simp only [rxCopy, hnone]
  rfl

theorem rxCopy_primary (margin : Int) (hprimary : beAt p 20 1 % 2 = 1 ∨ rxType d i < 3)
    (htaken : ∀ c ∈ (rxOf s i).taken, c.key ≠ copyKey d i k p) :
    rxCopy s d i k p margin = takeCopy s i (copyOf d i k p) p margin ∧ (copyOf d i k p).primary = true := by
  have hflag : (copyOf d i k p).primary = true := by
    by_cases ht : 3 ≤ rxType d i
    · simpa [copyOf, ht] using hprimary.resolve_right (Nat.not_lt.mpr ht)
    · simp [copyOf, ht]
  exact ⟨(rxCopy_first s margin htaken).trans (if_pos hflag), hflag⟩

theorem rxCopy_secondary (margin : Int) (ht : 3 ≤ rxType d i) (hsecond : beAt p 20 1 % 2 = 0)
    (htaken : ∀ c ∈ (rxOf s i).taken, c.key ≠ copyKey d i k p) (hshadow : ∀ h ∈ (rxOf s i).shadow, h.key ≠ copyKey d i k p) :
    rxCopy s d i k p margin = setRx s i { rxOf s i with
      shadow := (rxOf s i).shadow ++ [⟨copyKey d i k p, k, beAt p 20 1 / 2 % 2, p⟩] } := by
  have hflag : (copyOf d i k p).primary = false := by simp [copyOf, ht, hsecond]
  have hnew : (rxOf s i).shadow.any (fun h => decide (h.key = copyKey d i k p)) = false :=
    List.any_eq_false.mpr fun h hh => by simpa using hshadow h hh
  have htwin : (copyOf d i k p).twin = beAt p 20 1 / 2 % 2 := by simp [copyOf, ht]
  rw [rxCopy_first s margin htaken, hflag, hnew, htwin]
  rfl

end

/-! SHADOW_CUTOFF (R335) -/

section
variable (s : State) (i : Nat)

/-- Slot `i` no longer holds shadow copy `h`, which counts as taken at the cut-off. -/
def shadowDropped (s : State) (i : Nat) (h : RxShadow) : State :=
  (setRx s i { rxOf s i with shadow := (rxOf s i).shadow.filter (fun e => e ≠ h) }).bump (0x2200 + i) 0x15 1

theorem shadowDropped_shadow (h : RxShadow) :
    (rxOf (shadowDropped s i h) i).shadow = (rxOf s i).shadow.filter (fun e => e ≠ h) :=
  congrArg RxSlot.shadow (rxOf_setRx_self s i _)

theorem shadowDropped_others (h : RxShadow) : OtherSlotsKept s (shadowDropped s i h) i := setRx_others s i _

/-- One shadow copy at the cut-off: taken, where it still waits. -/
def cutoffStep (i : Nat) (s : State) (h : RxShadow) : State :=
  if (rxOf s i).shadow.contains h then
    takeCopy (shadowDropped s i h) i ⟨h.key, h.block, h.twin, false, false⟩ h.payload 10000
  else s

theorem shadowCutoff_eq (block : Nat) : shadowCutoff s i block =
    ((rxOf s i).shadow.filter (fun h => decide (h.block = block))).foldl (cutoffStep i) s := rfl

theorem cutoffStep_others (h : RxShadow) : OtherSlotsKept s (cutoffStep i s h) i := by
  unfold cutoffStep
  split
  · exact fun j hj => ((takeCopy_takes _ i _ _ _).others j hj).trans (shadowDropped_others s i h j hj)
  · exact fun _ _ => rfl

theorem cutoffStep_shadow {h x : RxShadow} (hx : x ∈ (rxOf (cutoffStep i s h) i).shadow) : x ∈ (rxOf s i).shadow ∧ x ≠ h := by
  unfold cutoffStep at hx
  split at hx
  · rw [(takeCopy_takes _ i _ _ _).shadow] at hx
    have hkept := (List.mem_filter.mp hx).1
    rw [shadowDropped_shadow] at hkept
    exact ⟨(List.mem_filter.mp hkept).1, by simpa using (List.mem_filter.mp hkept).2⟩
  · next hno => exact ⟨hx, fun heq => hno (List.contains_iff_mem.mpr (heq ▸ hx))⟩

theorem cutoffSteps_others : ∀ (l : List RxShadow) (s : State), OtherSlotsKept s (l.foldl (cutoffStep i) s) i
  | [], _ => fun _ _ => rfl
  | h :: l, s => fun j hj => (cutoffSteps_others l _ j hj).trans (cutoffStep_others s i h j hj)

/-- A shadow copy that is left at the end was there before, and was none of those worked through. -/
theorem cutoffSteps_shadow {x : RxShadow} : ∀ (l : List RxShadow) (s : State), x ∈ (rxOf (l.foldl (cutoffStep i) s) i).shadow →
    x ∈ (rxOf s i).shadow ∧ x ∉ l
  | [], _, hx => ⟨hx, List.not_mem_nil⟩
  | h :: l, s, hx => by
    obtain ⟨hstep, hl⟩ := cutoffSteps_shadow l _ hx
    obtain ⟨hold, hne⟩ := cutoffStep_shadow s i hstep
    exact ⟨hold, fun hmem => (List.mem_cons.mp hmem).elim hne hl⟩

theorem shadowCutoff_clears (block : Nat) : (∀ h ∈ (rxOf (shadowCutoff s i block) i).shadow, h.block ≠ block) ∧
    OtherSlotsKept s (shadowCutoff s i block) i := by
  rw [shadowCutoff_eq]
  refine ⟨fun h hh hblock => ?_, cutoffSteps_others i _ s⟩
  obtain ⟨hold, hdue⟩ := cutoffSteps_shadow i _ s hh
  exact hdue (List.mem_filter.mpr ⟨hold, decide_eq_true hblock⟩)

theorem execShadowCutoff_now (hi : i < 64) : exec (.shadowCutoff i s.clk.tick) s =
    .next (shadowCutoff (s.elapse (tickLen s.clk.tick - 20000)) i s.clk.tick) :=
  congrArg Host.Outcome.next ((if_pos rfl).trans (if_pos hi))

theorem execShadowCutoff_later {b : Nat} (h : b ≠ s.clk.tick) : exec (.shadowCutoff i b) s = .next s :=
  congrArg Host.Outcome.next (if_neg h)

end

/-! SLOT_CHANNEL_CHANGE (R343, R345, R347) -/

section
variable (s : State) (tx : Bool) {i sub v : Nat} {m : List Byte} {x : Val}

/-- The index of a transmit or receive slot. -/
def slotIndex (tx : Bool) (i : Nat) : Nat := (if tx then 0x2300 else 0x2200) + i

/-- The check of a channel map of a slot. -/
def mapCheck (tx : Bool) (m : List Byte) : Nat := if tx then txMapCheck m else rxMapCheck m

theorem execSlotChannelChange_takes (hgate : s.gate (slotIndex tx i) = 0) (hcheck : slotChangeCheck tx i sub x = 0) :
    exec (.slotChannelChange tx i sub x) s = .next (slotChangeApply s tx i sub x) :=
  exec_takes (index := slotIndex tx i) (eff := fun t => slotChangeApply t tx i sub x) rfl hcheck hgate

theorem execSlotChannelChange_declines {code : Nat} (hcheck : slotChangeCheck tx i sub x = code) (hne : code ≠ 0) :
    Declines (.slotChannelChange tx i sub x) s code :=
  declines_of_check (index := slotIndex tx i) (eff := fun t => slotChangeApply t tx i sub x) rfl hcheck hne

theorem slotChangeApply_num : slotChangeApply s tx i sub (.num v) = s.put 0 (slotIndex tx i) sub v := by
  cases tx <;> rfl

theorem slotChangeApply_map (hm : m ≠ []) : slotChangeApply s tx i 0x07 (.bytes m) = s.putBytes (slotIndex tx i) 0x07 m := by
  cases m with
  | nil => exact absurd rfl hm
  | cons b r => cases tx <;> rfl

theorem slotChangeCheck_enable (hi : i < 64) : slotChangeCheck tx i 0x01 (.num v) = boolOk v := firstCode_index hi _

theorem slotChangeCheck_mask (hi : i < 64) (hv : v < 2 ^ 64) : slotChangeCheck tx i 0x06 (.num v) = 0 :=
  (firstCode_index hi _).trans (rangeOk_in (by omega) (by omega))

theorem slotChangeCheck_noBytes (hi : i < 64) : slotChangeCheck tx i 0x07 (.bytes []) = 0 := firstCode_index hi _

theorem slotChangeCheck_map (hi : i < 64) (hm : m ≠ []) : slotChangeCheck tx i 0x07 (.bytes m) = mapCheck tx m := by
  cases m with
  | nil => exact absurd rfl hm
  | cons b r => exact firstCode_index hi _

theorem mapCheck_length (h : m.length ≠ if tx then 128 else 64) : mapCheck tx m = Abort.length := by
  cases tx with
  | true =>
    have hlen : m.length ≠ 128 := h
    simp [mapCheck, txMapCheck, need, hlen, firstCode_failed, Abort.length]
  | false =>
    have hlen : m.length ≠ 64 := h
    simp [mapCheck, rxMapCheck, need, hlen, firstCode_failed, Abort.length]

end

end Sys2Proof.Machine

namespace Sys2Proof.Machine

/-! RING_FRAME_RECEIVED (R311, R312, R320) -/

section
variable (s : State) (at_ : Nat) {p : Nat} {f : RingFrame} (hp : p < 2) (hlock : ((s.elapse at_).port p).lock = true)
include hp hlock

theorem execRingFrameReceived_discards (h : (s.elapse at_).byp.partic ≠ .inRing) :
    Gives (.ringFrameReceived at_ p f) s (fun t => t.out = s.out ∧ Counts s t (0x2110 + p) 0x04 1) := by
  refine ⟨_, execRingFrameReceived_linked s at_ hp hlock, ?_⟩
  rw [ringFrame_notIn _ h]
  exact ⟨elapse_heard_out s at_ p, (State.heard_counts _ p).of_elapse⟩

theorem execRingFrameReceived_forwards {ttl dst : Nat} {echo : Bool} (h : Switched (s.elapse at_) f)
    (hnot : addressed (s.elapse at_) f = false) (hk : f.kind = .ipv4 ttl dst echo) (httl : 1 < ttl)
    (hother : ((s.elapse at_).port (1 - p)).lock = true) : Gives (.ringFrameReceived at_ p f) s (fun t =>
      t.out = s.out ++ [.ring (1 - p) { f with kind := .ipv4 (ttl - 1) dst echo } false]) := by
  refine ⟨_, execRingFrameReceived_linked s at_ hp hlock, ?_⟩
  rw [ringFrame_ipv4 _ h hk, if_neg (Bool.eq_false_iff.mp hnot)]
  exact (passedOn_forwards _ dst echo httl (open_of_lock _ hother h.inRing)).trans (by rw [State.elapse_out])

theorem execRingFrameReceived_expires {ttl dst : Nat} {echo : Bool} (h : Switched (s.elapse at_) f)
    (hnot : addressed (s.elapse at_) f = false) (hk : f.kind = .ipv4 ttl dst echo) (httl : ttl ≤ 1) :
    Gives (.ringFrameReceived at_ p f) s (fun t => t.out = s.out) := by
  refine ⟨_, execRingFrameReceived_linked s at_ hp hlock, ?_⟩
  rw [ringFrame_ipv4 _ h hk, if_neg (Bool.eq_false_iff.mp hnot), passedOn_expired _ dst echo httl]
  exact elapse_heard_out s at_ p

theorem execRingFrameReceived_delivers (h : Switched (s.elapse at_) f) (hown : addressed (s.elapse at_) f = true)
    (hk : f.kind = .other) : Gives (.ringFrameReceived at_ p f) s (fun t => t.out = s.out ++ [.deliver f]) := by
  refine ⟨_, execRingFrameReceived_linked s at_ hp hlock, ?_⟩
  rw [ringFrame_plain _ h (Or.inl hk), if_pos hown, atModule_other _ hk]
  exact congrArg (· ++ [OutFrame.deliver f]) (elapse_heard_out s at_ p)

/-- A request for the ring address is delivered and answered (R311). -/
theorem execRingFrameReceived_answers {dst : Nat} (x : OutFrame) (h : Switched (s.elapse at_) f)
    (hown : addressed (s.elapse at_) f = true) (hset : s.val 0 0x2100 0x0C ≠ 0) (hdst : dst = s.val 0 0x2100 0x0C)
    (hk : AsksAddress f p dst x) : Gives (.ringFrameReceived at_ p f) s (fun t => t.out = s.out ++ [.deliver f, x]) := by
  refine ⟨_, execRingFrameReceived_linked s at_ hp hlock, ?_⟩
  have hval : ((s.elapse at_).heard p).val 0 0x2100 0x0C = s.val 0 0x2100 0x0C := State.elapse_val ..
  have htaken : ringFrame (s.elapse at_) p f = atModule ((s.elapse at_).heard p) p f := by
    obtain ⟨hk, -⟩ | ⟨ttl, httl, hk, -⟩ := hk
    · rw [ringFrame_plain _ h (Or.inr ⟨dst, hk⟩), if_pos hown]
    · rw [ringFrame_ipv4 _ h hk, if_pos hown, passedOn_expired _ dst true httl]
  have hopen : ((s.elapse at_).heard p).open p = true := open_of_lock (s.elapse at_) hlock h.inRing
  rw [htaken]
  exact (atModule_answers _ x (hval ▸ hset) (hval ▸ hdst) hopen hk).trans (by rw [elapse_heard_out])

theorem execRingFrameReceived_short (h : Heeded (s.elapse at_) f) (hlen : f.length < 64) :
    Gives (.ringFrameReceived at_ p f) s (fun t => t.out = s.out ∧
      t.stget 0 (0x2110 + p) 0x09 = min (s.stget 0 (0x2110 + p) 0x09 + 1) (2 ^ 32 - 1)) := by
  refine ⟨_, execRingFrameReceived_linked s at_ hp hlock, ?_⟩
  rw [ringFrame_short _ h hlen]
  refine ⟨elapse_heard_out s at_ p, ?_⟩
  rw [State.stget_bump_self, State.heard, State.stget_bump_ne _ _ _ (key_sub_ne (by decide)), State.elapse_stget]

end

/-! STREAM_PACKET_RECEIVED (R330 to R333, R335) -/

section
variable (s : State) (at_ : Nat) {i : Nat} {g : Datagram} {k : Int} {d : SMap Nat}

theorem rxPacket_malformed_counts (h : SlotMatches (s.elapse at_) i g k d) (hc : rxCheck (s.elapse at_).n d i g = .malformed) :
    let t := rxPacket (s.elapse at_) g i
    Counts s t (0x2200 + i) 0x10 1 ∧ t.rx = s.rx := by
  rw [rxPacket_malformed _ h hc]
  exact ⟨(State.bump_counts ..).of_elapse.raise .., (State.raise_rx ..).trans (State.elapse_rx ..)⟩

theorem rxPacket_claim_counts (h : SlotMatches (s.elapse at_) i g k d) (hc : rxCheck (s.elapse at_).n d i g = .claim) :
    let t := rxPacket (s.elapse at_) g i
    Counts s t (0x2200 + i) 0x11 1 ∧ t.rx = s.rx := by
  rw [rxPacket_claim _ h hc]
  exact ⟨(State.bump_counts ..).of_elapse.raise .., (State.raise_rx ..).trans (State.elapse_rx ..)⟩

theorem rxPacket_ahead_counts (h : SlotMatches (s.elapse at_) i g k d) (hc : rxCheck (s.elapse at_).n d i g = .valid)
    (hahead : ((s.elapse at_).clk.tick : Int) + 7 < k) : let t := rxPacket (s.elapse at_) g i
    Counts s t (0x2200 + i) 0x0F 1 ∧ t.rx = s.rx := by
  rw [rxPacket_ahead _ h hc hahead]
  exact ⟨(State.bump_counts ..).of_elapse, State.elapse_rx ..⟩

theorem rxPacket_late_counts (h : SlotMatches (s.elapse at_) i g k d) (hc : rxCheck (s.elapse at_).n d i g = .valid)
    (hlate : k < ((s.elapse at_).clk.tick : Int)) : let t := rxPacket (s.elapse at_) g i
    t.stget 0 (0x2200 + i) 0x0E = min (s.stget 0 (0x2200 + i) 0x0E + 1) (2 ^ 32 - 1) ∧ t.rx = s.rx := by
  rw [rxPacket_late _ h hc hlate]
  refine ⟨(State.raise_stget ..).trans ?_, (State.raise_rx ..).trans (State.elapse_rx ..)⟩
  rw [State.stget_bump_self, marginNoted, State.stget_stset_ne _ _ _ _ (key_sub_ne (by decide)), State.elapse_stget]

/-- The slots are as they were before the packet while only its margin is noted. -/
theorem marginNoted_slot (j : Nat) : rxOf (marginNoted (s.elapse at_) i k) j = rxOf s j :=
  rxOf_congr (s := s) (State.elapse_rx ..) j

theorem rxPacket_shadow (h : SlotMatches (s.elapse at_) i g k d) (hc : rxCheck (s.elapse at_).n d i g = .valid)
    (hlo : ((s.elapse at_).clk.tick : Int) ≤ k) (hhi : k ≤ ((s.elapse at_).clk.tick : Int) + 7)
    (hmargin : 0 ≤ marginOf (s.elapse at_) k) (ht : 3 ≤ rxType d i) (hsecond : beAt g.payload 20 1 % 2 = 0)
    (htaken : ∀ c ∈ (rxOf s i).taken, c.key ≠ copyKey d i k.toNat g.payload)
    (hshadow : ∀ h ∈ (rxOf s i).shadow, h.key ≠ copyKey d i k.toNat g.payload) : let t := rxPacket (s.elapse at_) g i
    (rxOf t i).taken = (rxOf s i).taken ∧
      (rxOf t i).shadow = (rxOf s i).shadow ++ [⟨copyKey d i k.toNat g.payload, k.toNat, beAt g.payload 20 1 / 2 % 2, g.payload⟩] ∧
      OtherSlotsKept s t i := by
  rw [← marginNoted_slot s at_ (i := i) (k := k) i] at htaken hshadow
  rw [rxPacket_timely _ h hc hlo hhi hmargin, rxCopy_secondary _ _ ht hsecond htaken hshadow]
  dsimp only
  rw [rxOf_setRx_self, marginNoted_slot]
  exact ⟨rfl, rfl, fun j hj => (setRx_others _ i _ j hj).trans (marginNoted_slot s at_ j)⟩

theorem rxPacket_primary (h : SlotMatches (s.elapse at_) i g k d) (hc : rxCheck (s.elapse at_).n d i g = .valid)
    (hlo : ((s.elapse at_).clk.tick : Int) ≤ k) (hhi : k ≤ ((s.elapse at_).clk.tick : Int) + 7)
    (hmargin : 0 ≤ marginOf (s.elapse at_) k) (hfirst : beAt g.payload 20 1 % 2 = 1 ∨ rxType d i < 3)
    (htaken : ∀ c ∈ (rxOf s i).taken, c.key ≠ copyKey d i k.toNat g.payload) : let t := rxPacket (s.elapse at_) g i
    (∃ c ∈ (rxOf t i).taken, c.key = copyKey d i k.toNat g.payload ∧ c.primary = true) ∧ (rxOf t i).got = true ∧
      OtherSlotsKept s t i ∧ t.stget 0 (0x2200 + i) 0x0C = min (s.stget 0 (0x2200 + i) 0x0C + 1) (2 ^ 32 - 1) := by
  rw [← marginNoted_slot s at_ (i := i) (k := k) i] at htaken
  obtain ⟨hcopy, hprimary⟩ := rxCopy_primary (p := g.payload) _ (marginOf (s.elapse at_) k) hfirst htaken
  rw [rxPacket_timely _ h hc hlo hhi hmargin, hcopy]
  have htakes := takeCopy_takes (marginNoted (s.elapse at_) i k) i (copyOf d i k.toNat g.payload) g.payload
    (marginOf (s.elapse at_) k)
  refine ⟨⟨copyOf d i k.toNat g.payload, ?_, rfl, hprimary⟩, htakes.got,
    fun j hj => (htakes.others j hj).trans (marginNoted_slot s at_ j), htakes.count.trans ?_⟩
  · rw [htakes.taken]
    exact List.mem_append_right _ List.mem_cons_self
  · rw [marginNoted, State.stget_stset_ne _ _ _ _ (key_sub_ne (by decide)), State.elapse_stget]

end

/-- Settles O44: frames by the switch's first rule that matches, packets by the checks of their slot, shadows by the cut-off's fold. -/
theorem framesAndPackets : Obligations.FramesAndPackets := by
  intro s at_ p i f g
  refine ⟨?_, fun hi => ⟨_, execShadowCutoff_now s i hi, ?_⟩, fun b hb => execShadowCutoff_later s i hb,
    fun tx v m hi => ⟨fun hgate hv => ⟨_, execSlotChannelChange_takes s tx hgate ?_, slotChangeApply_num s tx⟩,
      fun hgate hv => ⟨_, execSlotChannelChange_takes s tx hgate (slotChangeCheck_mask tx hi hv), slotChangeApply_num s tx⟩,
      fun hgate hm hmap => ⟨_, execSlotChannelChange_takes s tx hgate ((slotChangeCheck_map tx hi hm).trans hmap),
        slotChangeApply_map s tx hm⟩,
      fun hgate => execSlotChannelChange_takes s tx hgate (slotChangeCheck_noBytes tx hi),
      fun hv => execSlotChannelChange_declines s tx ((slotChangeCheck_enable tx hi).trans (boolOk_above hv)) (by decide),
      fun hm hlen => execSlotChannelChange_declines s tx ((slotChangeCheck_map tx hi hm).trans (mapCheck_length tx hlen))
        (by decide)⟩⟩
  · rintro u ttl dst echo rfl hp
    refine ⟨execRingFrameReceived_discards s at_ hp, fun hlock hin hpause hfcs hmac hmin hmax hroute hnot hk => ?_,
      fun hlock hin hpause hfcs hmac hmin hmax hroute hown => ?_, fun hlock hin hpause hmac hlen =>
        execRingFrameReceived_short s at_ hp hlock ⟨hin, hpause, hmac⟩ hlen,
      execRingFrameReceived_down s at_, fun h => execStreamPacketReceived_idle s at_ (Or.inl h),
      fun h => execStreamPacketReceived_idle s at_ (Or.inr h), fun k d hlock hin hslots hi htick hmatch => ?_⟩
    · have hswitched : Switched (s.elapse at_) f := ⟨⟨hin, hpause, hmac⟩, hfcs, hmin, hmax, hroute⟩
      exact ⟨execRingFrameReceived_forwards s at_ hp hlock hswitched hnot hk,
        execRingFrameReceived_expires s at_ hp hlock hswitched hnot hk⟩
    · have hswitched : Switched (s.elapse at_) f := ⟨⟨hin, hpause, hmac⟩, hfcs, hmin, hmax, hroute⟩
      exact ⟨execRingFrameReceived_delivers s at_ hp hlock hswitched hown, fun hset hdst =>
        ⟨fun hk => execRingFrameReceived_answers s at_ hp hlock _ hswitched hown hset hdst (Or.inl ⟨hk, rfl⟩),
          fun httl hk => execRingFrameReceived_answers s at_ hp hlock _ hswitched hown hset hdst (Or.inr ⟨ttl, httl, hk, rfl⟩)⟩⟩
    · have hexec := execStreamPacketReceived_slot s at_ (g := g) hp hlock hin hslots
      have h : SlotMatches (s.elapse at_) i g k d := ⟨htick, hmatch⟩
      exact ⟨fun hc => ⟨_, hexec, rxPacket_malformed_counts s at_ h hc⟩, fun hc => ⟨_, hexec, rxPacket_claim_counts s at_ h hc⟩,
        fun hc hlo hhi hm ht hsecond htaken hshadow =>
          ⟨_, hexec, rxPacket_shadow s at_ h hc hlo hhi hm ht hsecond htaken hshadow⟩,
        fun hc hahead => ⟨_, hexec, rxPacket_ahead_counts s at_ h hc hahead⟩,
        fun hc hlate => ⟨_, hexec, rxPacket_late_counts s at_ h hc hlate⟩,
        fun hc hlo hhi hm hfirst htaken => ⟨_, hexec, rxPacket_primary s at_ h hc hlo hhi hm hfirst htaken⟩⟩
  · obtain ⟨hclear, hothers⟩ := shadowCutoff_clears (s.elapse (tickLen s.clk.tick - 20000)) i s.clk.tick
    exact ⟨hclear, fun j hj => (hothers j hj).trans (rxOf_congr (State.elapse_rx ..) j)⟩
  · rw [slotChangeCheck_enable tx hi, boolOk, decide_eq_true hv, need_true]

end Sys2Proof.Machine

namespace Sys2Proof.Machine

/-! AES3 inputs beside the one that changes (R350) -/

section
variable (s : State) (i : Nat)

/-- Every AES3 input but `i` is as it was. -/
def OtherInputsKept (s t : State) (i : Nat) : Prop := ∀ j, j ≠ i → aesOf t j = aesOf s j

theorem aesOf_congr {s t : State} (h : t.aesIn = s.aesIn) (j : Nat) : aesOf t j = aesOf s j :=
  congrArg (fun m => mget AesIn.init m j) h

@[simp] theorem aesOf_setAes_self (v : AesIn) : aesOf (setAes s i v) i = v := mget_mset_self ..

theorem setAes_others (v : AesIn) : OtherInputsKept s (setAes s i v) i := fun _ hj => mget_mset_ne _ _ _ _ _ hj

@[simp] theorem setAes_stget (v : AesIn) (d j sub : Nat) : (setAes s i v).stget d j sub = s.stget d j sub := rfl

@[simp] theorem aesOf_bump (j sub n : Nat) : aesOf (s.bump j sub n) i = aesOf s i := rfl
@[simp] theorem aesOf_stset (d j sub v : Nat) : aesOf (s.stset d j sub v) i = aesOf s i := rfl
@[simp] theorem aesOf_heard (p : Nat) : aesOf (s.heard p) i = aesOf s i := rfl
@[simp] theorem aesOf_mark (block cause : Nat) : aesOf (s.mark block cause) i = aesOf s i := rfl

@[simp] theorem aesOf_raise (src a b : Nat) : aesOf (s.raise src a b) i = aesOf s i :=
  aesOf_congr ((State.raise_keeps ..).part .aesIn rfl) i

@[simp] theorem aesOf_enter (src a b : Nat) : aesOf (s.enter src a b) i = aesOf s i :=
  aesOf_congr ((State.enter_keeps ..).part .aesIn rfl) i

@[simp] theorem aesOf_leave (src a b : Nat) : aesOf (s.leave src a b) i = aesOf s i :=
  aesOf_congr ((State.leave_keeps ..).part .aesIn rfl) i

@[simp] theorem aesOf_sendPort (p : Nat) (x : OutFrame) : aesOf (s.sendPort p x) i = aesOf s i :=
  aesOf_congr ((State.sendPort_keeps ..).part .aesIn rfl) i

@[simp] theorem aesOf_elapse (at_ : Nat) : aesOf (s.elapse at_) i = aesOf s i :=
  aesOf_congr ((State.elapse_keeps ..).part .aesIn rfl) i

@[simp] theorem State.enter_stget (src a b d j sub : Nat) : (s.enter src a b).stget d j sub = s.stget d j sub := by
  simp only [State.stget, State.enter_stat]

@[simp] theorem State.leave_stget (src a b d j sub : Nat) : (s.leave src a b).stget d j sub = s.stget d j sub :=
  congrArg (fun m => mget d m (key j sub)) ((State.leave_keeps ..).part .stat rfl)

/-- The mode of an input is read from the dictionary and the fences. -/
theorem aesMode_congr {s t : State} (hdict : t.dict = s.dict) (hsup : t.sup = s.sup) : aesMode t i = aesMode s i := by
  rw [aesMode, aesMode, State.fenced, State.fenced, State.val, State.val, hdict, hsup]

end

/-! Channel status and payload bits of a frame (R352, R354, R362): they change neither samples nor lock -/

section
variable (s : State) (i : Nat) (f : AesFrame)

/-- An input without what its channel status and the search for bursts in it leave behind. -/
def AesIn.withoutStatus (r : AesIn) : AesIn := { r with
  csA := [], csB := [], usA := [], usB := [], vsA := [], vsB := [], validA := [], validB := [], inBlk := false, nonAudio := false }

/-- From `s` to `t` input `i` changes in its channel status alone, and its coding errors are counted as before. -/
structure StatusStep (s t : State) (i : Nat) : Prop where
  input  : (aesOf t i).withoutStatus = (aesOf s i).withoutStatus
  others : OtherInputsKept s t i
  errors : t.stget 0 (0x2410 + i) 0x0C = s.stget 0 (0x2410 + i) 0x0C

/-- What the channel status is no part of can be read from an input without it. -/
theorem AesIn.field_of_withoutStatus {α : Type} {r v : AesIn} (g : AesIn → α) (hg : ∀ r, g r.withoutStatus = g r)
    (h : r.withoutStatus = v.withoutStatus) : g r = g v := by
  rw [← hg, h, hg]

theorem StatusStep.refl : StatusStep s s i := ⟨rfl, fun _ _ => rfl, rfl⟩

theorem StatusStep.trans {s t u : State} {i : Nat} (h : StatusStep s t i) (k : StatusStep t u i) : StatusStep s u i :=
  ⟨k.input.trans h.input, fun j hj => (k.others j hj).trans (h.others j hj), k.errors.trans h.errors⟩

theorem setAes_statusStep {v : AesIn} (h : v.withoutStatus = (aesOf s i).withoutStatus) : StatusStep s (setAes s i v) i :=
  ⟨(congrArg AesIn.withoutStatus (aesOf_setAes_self ..)).trans h, setAes_others s i v, rfl⟩

theorem storeStatus_statusStep (sub : Nat) (bits : List Bool) : StatusStep s (storeStatus s i sub bits) i := by
  unfold storeStatus
  dsimp only
  split
  · refine ⟨by simp, fun j _ => by simp, ?_⟩
    rw [State.raise_stget, State.stget_bump_ne _ _ _ (key_sub_ne (by decide))]
  · exact ⟨rfl, fun _ _ => rfl, rfl⟩

theorem nonAudioSeen_statusStep : StatusStep s (nonAudioSeen s i) i := by
  unfold nonAudioSeen
  dsimp only
  split
  · exact StatusStep.refl s i
  · refine (setAes_statusStep s i (v := { aesOf s i with nonAudio := true }) rfl).trans ⟨by simp, fun j _ => by simp, ?_⟩
    rw [State.enter_stget, State.stget_bump_ne _ _ _ (key_sub_ne (by decide))]

/-- An input at the first frame of a channel-status block gathers the block's bits anew. -/
def AesIn.blockBegun (r : AesIn) (f : AesFrame) : AesIn :=
  if f.z then { r with csA := [], csB := [], usA := [], usB := [], vsA := [], vsB := [], inBlk := true } else r

/-- An input with the bits of a frame gathered. -/
def AesIn.bitsTaken (r : AesIn) (f : AesFrame) : AesIn := { r with
  csA := r.csA ++ [f.a.c], csB := r.csB ++ [f.b.c], usA := r.usA ++ [f.a.u], usB := r.usB ++ [f.b.u], vsA := r.vsA ++ [f.a.v],
  vsB := r.vsB ++ [f.b.v] }

/-- An input whose channel-status block is complete. -/
def AesIn.blockEnded (r : AesIn) : AesIn := { r with
  csA := [], csB := [], usA := [], usB := [], vsA := [], vsB := [], inBlk := false, validA := bitBytes r.vsA, validB := bitBytes r.vsB }

/-- The state with the complete block of input `i` stored. -/
def blockStored (s : State) (i : Nat) (r : AesIn) : State :=
  (storeStatus (storeStatus (setAes s i r.blockEnded) i 0x09 r.csA) i 0x0A r.csB).putBytes (0x2410 + i) 0x0B
    (bitBytes r.usA ++ bitBytes r.usB)

theorem statusBits_eq : statusBits s i f =
    let r := ((aesOf s i).blockBegun f).bitsTaken f
    if !((aesOf s i).blockBegun f).inBlk then s
    else if r.csA.length < 192 then setAes s i r
    else if statusNonAudio (blockStored s i r) i 0x09 || statusNonAudio (blockStored s i r) i 0x0A then
      nonAudioSeen (blockStored s i r) i
    else blockStored s i r := rfl

theorem bitsTaken_withoutStatus (r : AesIn) : ((r.blockBegun f).bitsTaken f).withoutStatus = r.withoutStatus := by
  unfold AesIn.blockBegun
  split <;> rfl

theorem blockStored_statusStep {r : AesIn} (h : r.withoutStatus = (aesOf s i).withoutStatus) :
    StatusStep s (blockStored s i r) i :=
  (((setAes_statusStep s i (v := r.blockEnded) h).trans (storeStatus_statusStep _ i 0x09 r.csA)).trans
    (storeStatus_statusStep _ i 0x0A r.csB)).trans ⟨rfl, fun _ _ => rfl, rfl⟩

theorem statusBits_statusStep : StatusStep s (statusBits s i f) i := by
  have hbits := bitsTaken_withoutStatus f (aesOf s i)
  rw [statusBits_eq]
  dsimp only
  split
  · exact StatusStep.refl s i
  · split
    · exact setAes_statusStep s i hbits
    · split
      · exact (blockStored_statusStep s i hbits).trans (nonAudioSeen_statusStep _ i)
      · exact blockStored_statusStep s i hbits

/-- The frames since the last burst, this one with its own. -/
def AesIn.burstNoted (r : AesIn) (f : AesFrame) : AesIn := { r with naFrames := if burst f then 0 else r.naFrames + 1 }

theorem burstBits_input : (aesOf (burstBits s i f) i).withoutStatus = ((aesOf s i).burstNoted f).withoutStatus := by
  unfold burstBits AesIn.burstNoted
  split
  · rw [aesOf_setAes_self]
    exact congrArg (fun r : AesIn => { r with naFrames := 0 }) (nonAudioSeen_statusStep s i).input
  · rw [aesOf_setAes_self]

theorem burstBits_others : OtherInputsKept s (burstBits s i f) i := by
  unfold burstBits
  split
  · exact fun j hj => (setAes_others _ i _ j hj).trans ((nonAudioSeen_statusStep s i).others j hj)
  · exact setAes_others s i _

theorem burstBits_errors : (burstBits s i f).stget 0 (0x2410 + i) 0x0C = s.stget 0 (0x2410 + i) 0x0C := by
  unfold burstBits
  split
  · exact (nonAudioSeen_statusStep s i).errors
  · rfl

end

/-! One frame decoded (R350, R351) -/

section
variable (s : State) (i : Nat) (f : AesFrame)

/-- An input that hears a frame: one without signal has to lock. -/
def AesIn.found (r : AesIn) : AesIn := if r.state = .noSignal then { r with state := .locking, cause := 0 } else r

/-- The sample of a subframe, or the last good one where its coding is in error (R351). -/
def goodSample (wordLength : Nat) (c : AesSub) (last : Int) : Int := if c.codeOk then aesSample wordLength c else last

/-- An input with both subframes of a frame taken at local time `now`. -/
def AesIn.taken (r : AesIn) (wordLength : Nat) (now : Int) (f : AesFrame) : AesIn := { r with
  count := r.count + 1, lastAt := now, goodA := goodSample wordLength f.a r.goodA, goodB := goodSample wordLength f.b r.goodB,
  errA := r.errA + b2n (!f.a.codeOk), errB := r.errB + b2n (!f.b.codeOk), valA := r.valA || f.a.v, valB := r.valB || f.b.v }

/-- The coding errors of a frame. -/
def codingErrors (f : AesFrame) : Nat := b2n (!f.a.codeOk) + b2n (!f.b.codeOk)

/-- The state in which input `i` has a signal. -/
def signalFound (s : State) (i : Nat) : State :=
  if (aesOf s i).state = .noSignal then (setAes s i { aesOf s i with state := .locking, cause := 0 }).leave 96 i 0 else s

/-- The state with a frame's subframes taken and its errors counted. -/
def frameTaken (s : State) (i : Nat) (f : AesFrame) : State :=
  (setAes s i ((aesOf s i).taken (s.val 24 (0x2410 + i) 0x02) s.clk.local f)).bump (0x2410 + i) 0x0C (codingErrors f)

/-- The state with a frame decoded, before the input's lock or converter takes it. -/
def frameDecoded (s : State) (i : Nat) (f : AesFrame) : State :=
  burstBits (statusBits (frameTaken (signalFound s i) i f) i f) i f

theorem signalFound_input : aesOf (signalFound s i) i = (aesOf s i).found := by
  unfold signalFound AesIn.found
  split
  · rw [aesOf_leave, aesOf_setAes_self]
  · rfl

theorem signalFound_others : OtherInputsKept s (signalFound s i) i := by
  unfold signalFound
  split
  · exact fun j hj => (aesOf_leave ..).trans (setAes_others s i _ j hj)
  · exact fun _ _ => rfl

theorem signalFound_keeps : Keeps [.aesIn, .events] s (signalFound s i) := by
  unfold signalFound
  split
  · exact Keeps.step (State.leave_keeps ..) rfl (Keeps.step (setAes_keeps ..) rfl (Keeps.refl _ _))
  · exact Keeps.refl _ _

theorem frameDecoded_keeps : Keeps [.dom, .stat, .aesIn, .events] s (frameDecoded s i f) :=
  Keeps.step (burstBits_keeps ..) rfl (Keeps.step (statusBits_keeps ..) rfl (Keeps.step (State.bump_keeps ..) rfl
    (Keeps.step (setAes_keeps ..) rfl (Keeps.step (signalFound_keeps s i) rfl (Keeps.refl _ _)))))

@[simp] theorem frameDecoded_dict : (frameDecoded s i f).dict = s.dict := (frameDecoded_keeps s i f).part .dict rfl

theorem frameDecoded_mode : aesMode (frameDecoded s i f) i = aesMode s i :=
  aesMode_congr i (frameDecoded_dict s i f) ((frameDecoded_keeps s i f).part .sup rfl)

theorem signalFound_val (d j sub : Nat) : (signalFound s i).val d j sub = s.val d j sub :=
  congrArg (fun m => ent m d j sub) ((signalFound_keeps s i).part .dict rfl)

theorem signalFound_clk : (signalFound s i).clk = s.clk := (signalFound_keeps s i).clk rfl

/-- An input with a frame decoded. -/
def decodedInput (s : State) (i : Nat) (f : AesFrame) : AesIn :=
  ((aesOf s i).found.taken (s.val 24 (0x2410 + i) 0x02) s.clk.local f).burstNoted f

theorem frameDecoded_input : (aesOf (frameDecoded s i f) i).withoutStatus = (decodedInput s i f).withoutStatus := by
  have htaken : aesOf (frameTaken (signalFound s i) i f) i =
      (aesOf s i).found.taken (s.val 24 (0x2410 + i) 0x02) s.clk.local f := by
    rw [frameTaken, aesOf_bump, aesOf_setAes_self, signalFound_input, signalFound_val, signalFound_clk]
  have hstatus := (statusBits_statusStep (frameTaken (signalFound s i) i f) i f).input
  rw [htaken] at hstatus
  exact (burstBits_input _ i f).trans
    (AesIn.field_of_withoutStatus (fun r => (r.burstNoted f).withoutStatus) (fun _ => rfl) hstatus)

theorem frameDecoded_others : OtherInputsKept s (frameDecoded s i f) i := fun j hj =>
  (burstBits_others _ i f j hj).trans (((statusBits_statusStep _ i f).others j hj).trans
    ((setAes_others (signalFound s i) i _ j hj).trans (signalFound_others s i j hj)))

theorem frameDecoded_errors : (frameDecoded s i f).stget 0 (0x2410 + i) 0x0C =
    min (s.stget 0 (0x2410 + i) 0x0C + codingErrors f) (2 ^ 32 - 1) := by
  have hfound : (signalFound s i).stget 0 (0x2410 + i) 0x0C = s.stget 0 (0x2410 + i) 0x0C :=
    congrArg (fun m => mget 0 m (key (0x2410 + i) 0x0C)) ((signalFound_keeps s i).part .stat rfl)
  rw [frameDecoded, burstBits_errors, (statusBits_statusStep _ i f).errors, frameTaken, State.stget_bump_self, setAes_stget, hfound]

/-- A frame is decoded, and the lock of a synchronous or the converter of an asynchronous input takes it. -/
theorem aesFrame_eq : aesFrame s i f =
    if aesMode s i = 1 then syncFrame (frameDecoded s i f) i s.clk.local (b2n (!f.a.codeOk) + 2 * b2n f.a.v)
      (b2n (!f.b.codeOk) + 2 * b2n f.b.v)
    else asyncFrame (frameDecoded s i f) i s.clk.local := by
  have hframe : aesFrame s i f =
      if aesMode (frameTaken (signalFound s i) i f) i = 1 then
        syncFrame (frameDecoded s i f) i (signalFound s i).clk.local (b2n (!f.a.codeOk) + 2 * b2n f.a.v)
          (b2n (!f.b.codeOk) + 2 * b2n f.b.v)
      else asyncFrame (frameDecoded s i f) i (signalFound s i).clk.local := rfl
  have hmode : aesMode (frameTaken (signalFound s i) i f) i = aesMode s i :=
    aesMode_congr i ((signalFound_keeps s i).part .dict rfl) ((signalFound_keeps s i).part .sup rfl)
  rw [hframe, hmode, signalFound_clk]

end

end Sys2Proof.Machine

namespace Sys2Proof.Machine

/-! The lock and the converter take a decoded frame (R355 to R357, R360) -/

section
variable (s : State) (i : Nat) (now : Int)

/-- What an input records of the frames it receives, apart from its lock. -/
def AesIn.received (r : AesIn) : Nat × Int × Int × Int × Nat := (r.count, r.lastAt, r.goodA, r.goodB, r.naFrames)

/-- From `s` to `t` input `i` changes neither in what it received nor in its counted coding errors. -/
structure LockStep (s t : State) (i : Nat) : Prop where
  input  : (aesOf t i).received = (aesOf s i).received
  others : OtherInputsKept s t i
  errors : t.stget 0 (0x2410 + i) 0x0C = s.stget 0 (0x2410 + i) 0x0C

theorem LockStep.trans {s t u : State} {i : Nat} (h : LockStep s t i) (k : LockStep t u i) : LockStep s u i :=
  ⟨k.input.trans h.input, fun j hj => (k.others j hj).trans (h.others j hj), k.errors.trans h.errors⟩

theorem setAes_lockStep {v : AesIn} (h : v.received = (aesOf s i).received) : LockStep s (setAes s i v) i :=
  ⟨(congrArg AesIn.received (aesOf_setAes_self ..)).trans h, setAes_others s i v, rfl⟩

theorem aesDecide_input (phi : Int) (anchor q rho : Nat) : aesOf (aesDecide s i phi anchor q rho) i = { aesOf s i with
    pending := some ⟨s.clk.tick + 4, phi, anchor, q, rho⟩, own := s.twin.role = .standby } := by
  unfold aesDecide
  dsimp only
  split
  · rw [aesOf_sendPort, aesOf_setAes_self]
  · rw [aesOf_setAes_self]

theorem aesDecide_others (phi : Int) (anchor q rho : Nat) : OtherInputsKept s (aesDecide s i phi anchor q rho) i := by
  unfold aesDecide
  dsimp only
  split
  · exact fun j hj => (aesOf_sendPort ..).trans (setAes_others s i _ j hj)
  · exact setAes_others s i _

theorem aesDecide_errors (phi : Int) (anchor q rho : Nat) :
    (aesDecide s i phi anchor q rho).stget 0 (0x2410 + i) 0x0C = s.stget 0 (0x2410 + i) 0x0C := by
  unfold aesDecide
  dsimp only
  split
  · exact sendPort_stget _ _ _ _ (key_ne_of_sub (by decide) (by decide) (by decide))
  · rfl

theorem aesDecide_lockStep (phi : Int) (anchor q rho : Nat) : LockStep s (aesDecide s i phi anchor q rho) i :=
  ⟨by rw [aesDecide_input, AesIn.received, AesIn.received], aesDecide_others s i phi anchor q rho,
    aesDecide_errors s i phi anchor q rho⟩

/-- The phase of the grid on which an input takes frames: that of its lock, or of the values that wait; none while it has neither. -/
def AesIn.lockPhase (r : AesIn) : Option Int :=
  match r.state, r.pending with
  | .locked, _ => some r.phi
  | _, some v => some v.phi
  | _, none => none

/-- A frame at grid sample `g` does not follow the last one (R356). -/
def AesIn.gapBefore (r : AesIn) (g : Nat) : Bool :=
  match r.lastG with
  | some l => decide (g ≠ l + 1)
  | none => false

/-- A frame at local time `now` lies three eighths of a sample period or more off a grid of phase `p` (R356). -/
def farFrom (rate : Nat) (p now : Int) : Bool :=
  decide (3000000000 ≤ 8 * iabs (now - p - (sampleTime rate (nearestGrid rate (now - p)) : Int)) * rate)

/-- The grid of an input with its last good samples put at sample `n`. -/
def AesIn.gridAt (r : AesIn) (n : Nat) : SMap (Option Int) :=
  mset none (mset none r.grid (2 * n) (some r.goodA)) (2 * n + 1) (some r.goodB)

theorem AesIn.gridAt_first (r : AesIn) (n : Nat) : mget none (r.gridAt n) (2 * n) = some r.goodA := by
  rw [gridAt, mget_mset_ne _ _ _ _ _ (by omega), mget_mset_self]

theorem AesIn.gridAt_second (r : AesIn) (n : Nat) : mget none (r.gridAt n) (2 * n + 1) = some r.goodB := mget_mset_self ..

/-- An input with its last good samples put into its grid for a frame at sample `g`. -/
def AesIn.gridTaken (r : AesIn) (g flagA flagB : Nat) : AesIn := { r with
  lastG := some g, grid := r.gridAt (g + 3), flags := mset 0 (mset 0 r.flags (2 * (g + 3)) flagA) (2 * (g + 3) + 1) flagB }

theorem syncFrame_phased {p : Int} (flagA flagB : Nat) (h : (aesOf s i).lockPhase = some p) :
    let g := nearestGrid (mediaRate s.dict) (now - p)
    syncFrame s i now flagA flagB =
      if (aesOf s i).state = .locked && (farFrom (mediaRate s.dict) p now || (aesOf s i).gapBefore g) then aesLose s i
      else setAes s i ((aesOf s i).gridTaken g flagA flagB) := by
  unfold syncFrame
  dsimp only
  split
  · next q hq =>
    obtain rfl : p = q := Option.some.inj (h.symm.trans hq)
    rfl
  · next hq => exact absurd (h.symm.trans hq) (Option.some_ne_none p)

/-- An input with neither lock nor values notes the phase of the frame, and may decide on values (R355). -/
theorem syncFrame_unphased (flagA flagB : Nat) (h : (aesOf s i).lockPhase = none) : ∃ phases,
    syncFrame s i now flagA flagB = setAes s i { aesOf s i with phases := phases } ∨ ∃ phi anchor q rho,
      syncFrame s i now flagA flagB = aesDecide (setAes s i { aesOf s i with phases := phases }) i phi anchor q rho := by
  unfold syncFrame
  dsimp only
  split
  · next q hq => exact absurd (hq.symm.trans h) (Option.some_ne_none q)
  · split
    · exact ⟨_, Or.inr ⟨_, _, _, _, rfl⟩⟩
    · exact ⟨_, Or.inl rfl⟩

theorem syncFrame_lockStep (flagA flagB : Nat) : LockStep s (syncFrame s i now flagA flagB) i := by
  cases hphase : (aesOf s i).lockPhase with
  | some p =>
    rw [syncFrame_phased s i now flagA flagB hphase]
    split
    · exact setAes_lockStep s i (v := { unlocked (aesOf s i) .locking with cause := 97 }) rfl
    · exact setAes_lockStep s i (v := (aesOf s i).gridTaken _ flagA flagB) rfl
  | none =>
    obtain ⟨phases, hframe⟩ := syncFrame_unphased s i now flagA flagB hphase
    have hnoted := setAes_lockStep s i (v := { aesOf s i with phases := phases }) rfl
    obtain hframe | ⟨phi, anchor, q, rho, hframe⟩ := hframe
    · exact hframe ▸ hnoted
    · exact hframe ▸ hnoted.trans (aesDecide_lockStep ..)

/-- A frame at local time `now` lies on the grid of an input, nearer than three eighths of a sample period and next to the last one
(R356). -/
def OnGrid (rate : Nat) (r : AesIn) (now : Int) : Prop :=
  let g := nearestGrid rate (now - r.phi)
  8 * iabs (now - r.phi - (sampleTime rate g : Int)) * rate < 3000000000 ∧ (r.lastG = none ∨ ∃ l, r.lastG = some l ∧ g = l + 1)

theorem onGrid_iff {rate : Nat} {r : AesIn} {now : Int} :
    OnGrid rate r now ↔ (farFrom rate r.phi now || r.gapBefore (nearestGrid rate (now - r.phi))) = false := by
  unfold OnGrid farFrom AesIn.gapBefore
  cases r.lastG with
  | none => simp
  | some l => simp

theorem lockPhase_locked {r : AesIn} (h : r.state = .locked) : r.lockPhase = some r.phi := by
  unfold AesIn.lockPhase
  rw [h]

theorem syncFrame_onGrid (flagA flagB : Nat) (hlocked : (aesOf s i).state = .locked)
    (hgrid : OnGrid (mediaRate s.dict) (aesOf s i) now) : syncFrame s i now flagA flagB =
      setAes s i ((aesOf s i).gridTaken (nearestGrid (mediaRate s.dict) (now - (aesOf s i).phi)) flagA flagB) := by
  rw [syncFrame_phased s i now flagA flagB (lockPhase_locked hlocked), onGrid_iff.mp hgrid, Bool.and_false]
  exact if_neg Bool.false_ne_true

theorem syncFrame_offGrid (flagA flagB : Nat) (hlocked : (aesOf s i).state = .locked)
    (hgrid : ¬ OnGrid (mediaRate s.dict) (aesOf s i) now) : syncFrame s i now flagA flagB = aesLose s i := by
  have hoff := Bool.eq_true_of_not_eq_false (mt onGrid_iff.mpr hgrid)
  rw [syncFrame_phased s i now flagA flagB (lockPhase_locked hlocked), hoff, decide_eq_true hlocked]
  exact if_pos rfl

/-- An input that has to lock goes on locking, whatever it hears. -/
theorem syncFrame_locking (flagA flagB : Nat) (h : (aesOf s i).state = .locking) :
    (aesOf (syncFrame s i now flagA flagB) i).state = .locking := by
  cases hphase : (aesOf s i).lockPhase with
  | some p =>
    rw [syncFrame_phased s i now flagA flagB hphase, if_neg (by simp [h]), aesOf_setAes_self]
    exact h
  | none =>
    obtain ⟨phases, hframe | ⟨phi, anchor, q, rho, hframe⟩⟩ := syncFrame_unphased s i now flagA flagB hphase
    · rw [hframe, aesOf_setAes_self]
      exact h
    · rw [hframe, aesDecide_input, aesOf_setAes_self]
      exact h

/-- An input with a frame at local time `now` buffered under the next index (R357). -/
def AesIn.buffered (r : AesIn) (now : Int) : AesIn := { r with
  frames := (⟨r.nextIdx, now.toNat, r.goodA, r.goodB⟩ :: r.frames).take 512, nextIdx := r.nextIdx + 1 }

theorem asyncFrame_cases : asyncFrame s i now = setAes s i ((aesOf s i).buffered now) ∨ ∃ phi anchor q rho,
    asyncFrame s i now = aesDecide (setAes s i ((aesOf s i).buffered now)) i phi anchor q rho := by
  unfold asyncFrame
  dsimp only
  split
  · exact Or.inr ⟨_, _, _, _, rfl⟩
  · exact Or.inl rfl

theorem asyncFrame_lockStep : LockStep s (asyncFrame s i now) i := by
  have hbuffered := setAes_lockStep s i (v := (aesOf s i).buffered now) rfl
  obtain hframe | ⟨phi, anchor, q, rho, hframe⟩ := asyncFrame_cases s i now
  · exact hframe ▸ hbuffered
  · exact hframe ▸ hbuffered.trans (aesDecide_lockStep ..)

theorem asyncFrame_buffers : let t := asyncFrame s i now
    (aesOf t i).state = (aesOf s i).state ∧ (aesOf t i).nextIdx = ((aesOf s i).buffered now).nextIdx ∧
      (aesOf t i).frames = ((aesOf s i).buffered now).frames := by
  dsimp only
  obtain hframe | ⟨phi, anchor, q, rho, hframe⟩ := asyncFrame_cases s i now
  · rw [hframe, aesOf_setAes_self]
    exact ⟨rfl, rfl, rfl⟩
  · rw [hframe, aesDecide_input, aesOf_setAes_self]
    exact ⟨rfl, rfl, rfl⟩

end

/-! AES3_FRAME_RECEIVED (R350, R351, R355 to R357) -/

section
variable (s : State) (i : Nat) (f : AesFrame)

theorem AesIn.found_of_ne {r : AesIn} (h : r.state ≠ .noSignal) : r.found = r := if_neg h

/-- Whatever the input is without signal, locking or locked, what it received is noted the same. -/
theorem AesIn.found_received (r : AesIn) : r.found.received = r.received := by
  unfold AesIn.found
  split <;> rfl

/-- From `s` to `t` input `i` has received frame `f`. -/
structure FrameReceived (s t : State) (i : Nat) (f : AesFrame) : Prop where
  input  : (aesOf t i).received = (decodedInput s i f).received
  others : OtherInputsKept s t i
  errors : t.stget 0 (0x2410 + i) 0x0C = min (s.stget 0 (0x2410 + i) 0x0C + codingErrors f) (2 ^ 32 - 1)

theorem aesFrame_received : FrameReceived s (aesFrame s i f) i f := by
  have hlock : LockStep (frameDecoded s i f) (aesFrame s i f) i := by
    rw [aesFrame_eq]
    split
    · exact syncFrame_lockStep ..
    · exact asyncFrame_lockStep ..
  exact ⟨hlock.input.trans (AesIn.field_of_withoutStatus AesIn.received (fun _ => rfl) (frameDecoded_input s i f)),
    fun j hj => (hlock.others j hj).trans (frameDecoded_others s i f j hj),
    hlock.errors.trans (frameDecoded_errors s i f)⟩

theorem AesIn.found_count (r : AesIn) : r.found.count = r.count := congrArg (·.1) r.found_received
theorem AesIn.found_goodA (r : AesIn) : r.found.goodA = r.goodA := congrArg (·.2.2.1) r.found_received
theorem AesIn.found_goodB (r : AesIn) : r.found.goodB = r.goodB := congrArg (·.2.2.2.1) r.found_received
theorem AesIn.found_naFrames (r : AesIn) : r.found.naFrames = r.naFrames := congrArg (·.2.2.2.2) r.found_received

theorem AesIn.found_buffer (r : AesIn) : r.found.nextIdx = r.nextIdx ∧ r.found.frames = r.frames := by
  unfold AesIn.found
  split <;> exact ⟨rfl, rfl⟩

theorem FrameReceived.fields {s t : State} {i : Nat} {f : AesFrame} (h : FrameReceived s t i f) : let r := aesOf s i
    let w := s.val 24 (0x2410 + i) 0x02
    (aesOf t i).count = r.count + 1 ∧ (aesOf t i).lastAt = s.clk.local ∧ (aesOf t i).goodA = goodSample w f.a r.goodA ∧
      (aesOf t i).goodB = goodSample w f.b r.goodB ∧ (aesOf t i).naFrames = if burst f then 0 else r.naFrames + 1 := by
  have hfields := h.input
  simp only [AesIn.received, decodedInput, AesIn.burstNoted, AesIn.taken, AesIn.found_count, AesIn.found_goodA, AesIn.found_goodB, AesIn.found_naFrames,
    Prod.mk.injEq] at hfields
  exact hfields

/-- The fields of a decoded input that its channel status is no part of. -/
theorem frameDecoded_field {α : Type} (g : AesIn → α) (hg : ∀ r, g r.withoutStatus = g r) :
    g (aesOf (frameDecoded s i f) i) = g (decodedInput s i f) :=
  AesIn.field_of_withoutStatus g hg (frameDecoded_input s i f)

theorem decodedInput_state : (decodedInput s i f).state = (aesOf s i).found.state := rfl

theorem aesFrame_starts (h : (aesOf s i).state = .noSignal) : (aesOf (aesFrame s i f) i).state = .locking := by
  have hdecoded : (aesOf (frameDecoded s i f) i).state = .locking := by
    rw [frameDecoded_field s i f AesIn.state fun _ => rfl, decodedInput_state, AesIn.found, if_pos h]
  rw [aesFrame_eq]
  split
  · exact syncFrame_locking _ i _ _ _ hdecoded
  · exact (asyncFrame_buffers ..).1.trans hdecoded

theorem aesFrame_buffers (hmode : aesMode s i = 2) : let r := aesOf s i
    let t := aesFrame s i f
    let w := s.val 24 (0x2410 + i) 0x02
    (aesOf t i).nextIdx = r.nextIdx + 1 ∧ (aesOf t i).frames =
      (⟨r.nextIdx, s.clk.local.toNat, goodSample w f.a r.goodA, goodSample w f.b r.goodB⟩ :: r.frames).take 512 := by
  obtain ⟨-, hnext, hframes⟩ := asyncFrame_buffers (frameDecoded s i f) i s.clk.local
  obtain ⟨hidx, hold⟩ := (aesOf s i).found_buffer
  rw [frameDecoded_field s i f (fun r => (r.buffered s.clk.local).nextIdx) fun _ => rfl] at hnext
  rw [frameDecoded_field s i f (fun r => (r.buffered s.clk.local).frames) fun _ => rfl] at hframes
  simp only [AesIn.buffered, decodedInput, AesIn.burstNoted, AesIn.taken, AesIn.found_goodA, AesIn.found_goodB, hidx, hold] at hnext hframes
  rw [aesFrame_eq, if_neg (by omega)]
  exact ⟨hnext, hframes⟩

section
variable (hmode : aesMode s i = 1) (hlocked : (aesOf s i).state = .locked)
include hmode hlocked

/-- A locked input takes the frame with its lock as it stood. -/
theorem aesFrame_locked : ∃ flagA flagB, aesFrame s i f = syncFrame (frameDecoded s i f) i s.clk.local flagA flagB ∧
    let r := aesOf (frameDecoded s i f) i
    r.state = .locked ∧ r.phi = (aesOf s i).phi ∧ r.lastG = (aesOf s i).lastG ∧
      r.goodA = goodSample (s.val 24 (0x2410 + i) 0x02) f.a (aesOf s i).goodA ∧
      r.goodB = goodSample (s.val 24 (0x2410 + i) 0x02) f.b (aesOf s i).goodB := by
  have hfound : (aesOf s i).found = aesOf s i := AesIn.found_of_ne (by rw [hlocked]; decide)
  have hdecoded : decodedInput s i f = ((aesOf s i).taken (s.val 24 (0x2410 + i) 0x02) s.clk.local f).burstNoted f := by
    rw [decodedInput, hfound]
  have hfield := fun {α : Type} (g : AesIn → α) hg => (frameDecoded_field s i f g hg).trans (congrArg g hdecoded)
  exact ⟨_, _, (aesFrame_eq s i f).trans (if_pos hmode), (hfield AesIn.state fun _ => rfl).trans hlocked,
    hfield AesIn.phi fun _ => rfl, hfield AesIn.lastG fun _ => rfl, hfield AesIn.goodA fun _ => rfl, hfield AesIn.goodB fun _ => rfl⟩

theorem aesFrame_onGrid (hgrid : OnGrid (mediaRate s.dict) (aesOf s i) s.clk.local) : let r := aesOf s i
    let t := aesFrame s i f
    let w := s.val 24 (0x2410 + i) 0x02
    let g := nearestGrid (mediaRate s.dict) (s.clk.local - r.phi)
    (aesOf t i).state = .locked ∧ (aesOf t i).lastG = some g ∧
      mget none (aesOf t i).grid (2 * (g + 3)) = some (goodSample w f.a r.goodA) ∧
      mget none (aesOf t i).grid (2 * (g + 3) + 1) = some (goodSample w f.b r.goodB) := by
  obtain ⟨flagA, flagB, hframe, hstate, hphi, hlast, hgoodA, hgoodB⟩ := aesFrame_locked s i f hmode hlocked
  have hon : OnGrid (mediaRate (frameDecoded s i f).dict) (aesOf (frameDecoded s i f) i) s.clk.local := by
    rw [OnGrid, frameDecoded_dict, hphi, hlast]
    exact hgrid
  dsimp only
  rw [hframe, syncFrame_onGrid _ i _ flagA flagB hstate hon, aesOf_setAes_self, frameDecoded_dict, hphi, ← hgoodA, ← hgoodB]
  exact ⟨hstate, rfl, AesIn.gridAt_first .., AesIn.gridAt_second ..⟩

theorem aesFrame_offGrid (hgrid : ¬ OnGrid (mediaRate s.dict) (aesOf s i) s.clk.local) : let t := aesFrame s i f
    (aesOf t i).state = .locking ∧ (aesOf t i).lastG = none := by
  obtain ⟨flagA, flagB, hframe, hstate, hphi, hlast, -⟩ := aesFrame_locked s i f hmode hlocked
  have hoff : ¬ OnGrid (mediaRate (frameDecoded s i f).dict) (aesOf (frameDecoded s i f) i) s.clk.local := by
    rw [OnGrid, frameDecoded_dict, hphi, hlast]
    exact hgrid
  dsimp only
  rw [hframe, syncFrame_offGrid _ i _ flagA flagB hstate hoff, aesLose, aesOf_setAes_self]
  exact ⟨rfl, rfl⟩

end

section
variable (at_ : Nat)

theorem execAes3FrameReceived_on (hi : i < 16) (hmode : aesMode (s.elapse at_) i ≠ 0) :
    exec (.aes3FrameReceived at_ i f) s = .next (aesFrame (s.elapse at_) i f) :=
  congrArg Host.Outcome.next (if_pos ⟨hi, hmode⟩)

theorem execAes3FrameReceived_off (hmode : aesMode (s.elapse at_) i = 0) :
    exec (.aes3FrameReceived at_ i f) s = .next (s.elapse at_) :=
  congrArg Host.Outcome.next (if_neg fun h => h.2 hmode)

end

end

end Sys2Proof.Machine

namespace Sys2Proof.Machine

/-! AES3_LOCK_VALUES_RECEIVED and AES3_LOCK_APPLY (R360) -/

section
variable (s : State) {i : Nat} {vals : LockVals}

theorem execAes3LockValuesReceived_waits (hi : i < 16) (hrole : s.twin.role = .standby) (hmode : aesMode s i ≠ 0) :
    Gives (.aes3LockValuesReceived i vals) s (fun t =>
      aesOf t i = { aesOf s i with pending := some vals, own := false } ∧ OtherInputsKept s t i) := by
  have hreceive : aesReceive s i vals = (setAes s i { aesOf s i with pending := some vals, own := false }).heard 3 :=
    if_pos (by simp [hrole, hmode])
  refine ⟨_, congrArg Host.Outcome.next (if_pos hi), ?_⟩
  rw [hreceive]
  exact ⟨(aesOf_heard ..).trans (aesOf_setAes_self ..), fun j hj => (aesOf_heard ..).trans (setAes_others s i _ j hj)⟩

theorem execAes3LockValuesReceived_ignored (h : s.twin.role ≠ .standby ∨ aesMode s i = 0) :
    exec (.aes3LockValuesReceived i vals) s = .next s := by
  have hreceive : aesReceive s i vals = s := if_neg (by simp only [Bool.and_eq_true, decide_eq_true_eq]; tauto)
  exact congrArg Host.Outcome.next ((congrArg (fun t => if i < 16 then t else s) hreceive).trans (ite_self s))

theorem execAes3LockApply_none (h : (aesOf s i).pending = none) : exec (.aes3LockApply i) s = .next s := by
  refine congrArg Host.Outcome.next ?_
  simp only [aesApply, h]

theorem execAes3LockApply_early (h : (aesOf s i).pending = some vals) (hblock : s.clk.tick < vals.block) :
    exec (.aes3LockApply i) s = .next s := by
  refine congrArg Host.Outcome.next ?_
  simp only [aesApply, h, hblock, if_true]

/-- An input locked with the values that waited, and its frames numbered from their anchor where it is asynchronous. -/
def lockedInput (r : AesIn) (vals : LockVals) (renumbered : List AesBuf × Nat) : AesIn := { r with
  state := .locked, phi := vals.phi, q := vals.q, rho := vals.rho, rhoAt := vals.block - 4, frames := renumbered.1,
  nextIdx := renumbered.2, pending := none, own := false, cause := 0, fadeA := FadeCh.rising, fadeB := FadeCh.rising }

/-- The state with input `i` locked, and its phase and ratio shown. -/
def lockShown (s : State) (i : Nat) (vals : LockVals) (renumbered : List AesBuf × Nat) : State :=
  ((setAes s i (lockedInput (aesOf s i) vals renumbered)).stset 0 (0x2410 + i) 0x10 (toPat 32 vals.phi)).stset
    0 (0x2410 + i) 0x07 vals.rho

theorem lockShown_input (i : Nat) (vals : LockVals) (renumbered : List AesBuf × Nat) :
    aesOf (lockShown s i vals renumbered) i = lockedInput (aesOf s i) vals renumbered := by
  rw [lockShown, aesOf_stset, aesOf_stset, aesOf_setAes_self]

theorem aesApply_locks (h : (aesOf s i).pending = some vals) (hblock : vals.block ≤ s.clk.tick) : ∃ renumbered,
    aesApply s i = lockShown s i vals renumbered ∨ aesApply s i = (lockShown s i vals renumbered).mark vals.block 6 := by
  simp only [aesApply, h, if_neg (Nat.not_lt.mpr hblock)]
  refine ⟨if aesMode s i = 2 then reindex (mediaRate s.dict) vals.rho vals.anchor (aesOf s i).frames
    else ((aesOf s i).frames, (aesOf s i).nextIdx), ?_⟩
  cases (aesOf s i).own
  · exact Or.inl rfl
  · exact Or.inr rfl

theorem execAes3LockApply_locks (h : (aesOf s i).pending = some vals) (hblock : vals.block ≤ s.clk.tick) :
    Gives (.aes3LockApply i) s (fun t => (aesOf t i).state = .locked ∧ (aesOf t i).phi = vals.phi ∧ (aesOf t i).q = vals.q ∧
      (aesOf t i).rho = vals.rho ∧ (aesOf t i).pending = none ∧ (aesOf t i).fadeA = FadeCh.rising ∧
      (aesOf t i).fadeB = FadeCh.rising ∧ t.stget 0 (0x2410 + i) 0x07 = vals.rho) := by
  obtain ⟨renumbered, happly⟩ := aesApply_locks s h hblock
  have hlock := lockShown_input s i vals renumbered
  have hinput : aesOf (aesApply s i) i = lockedInput (aesOf s i) vals renumbered := by
    obtain happly | happly := happly <;>
    · rw [happly]
      exact hlock
  have hshown : (aesApply s i).stget 0 (0x2410 + i) 0x07 = vals.rho := by
    obtain happly | happly := happly <;>
    · rw [happly]
      exact stget_stset ..
  refine ⟨_, rfl, ?_⟩
  dsimp only
  rw [hinput, hshown]
  exact ⟨rfl, rfl, rfl, rfl, rfl, rfl, rfl, rfl⟩

end

/-! AES3_RHO_DECISION (R358, R360) -/

section
variable (s : State) {i rho : Nat}

/-- The ratio that an input decides on: the operand within the accepted range and within 1,024 codes of the last one. -/
def decidedRho (r : AesIn) (rho : Nat) : Nat :=
  (satTo ((lastRho r : Int) - 1024) (lastRho r + 1024) (satTo 268435456 1082130432 rho)).toNat

theorem satTo_of_mem {lo hi x : Int} (hlo : lo ≤ x) (hhi : x ≤ hi) : satTo lo hi x = x := by
  rw [satTo, if_neg (by omega), if_neg (by omega)]

theorem ratioOk_iff : ratioOk rho = true ↔ 268435456 ≤ rho ∧ rho ≤ 1082130432 := decide_eq_true_iff

/-- Clamping to an interval around a value of a range stays in that range. -/
theorem satTo_around {lo hi m d x : Int} (hm : lo ≤ m ∧ m ≤ hi) (hx : lo ≤ x ∧ x ≤ hi) (hd : 0 ≤ d) :
    lo ≤ satTo (m - d) (m + d) x ∧ satTo (m - d) (m + d) x ≤ hi := by
  unfold satTo
  split_ifs <;> omega

theorem decidedRho_bounds {r : AesIn} (hlast : ratioOk (lastRho r) = true) (rho : Nat) :
    decidedRho r rho ≤ lastRho r + 1024 ∧ lastRho r ≤ decidedRho r rho + 1024 ∧ ratioOk (decidedRho r rho) = true := by
  rw [ratioOk_iff] at hlast ⊢
  have hrange := satTo_bounds (lo := 268435456) (hi := 1082130432) (by decide) rho
  have hnear := satTo_bounds (lo := (lastRho r : Int) - 1024) (hi := lastRho r + 1024) (by omega) (satTo 268435456 1082130432 rho)
  have hin := satTo_around (m := lastRho r) (d := 1024) ⟨by omega, by omega⟩ hrange (by decide)
  unfold decidedRho
  omega

theorem decidedRho_asGiven {r : AesIn} (hrho : ratioOk rho = true) (hup : rho ≤ lastRho r + 1024)
    (hdown : lastRho r ≤ rho + 1024) : decidedRho r rho = rho := by
  rw [ratioOk_iff] at hrho
  rw [decidedRho, satTo_of_mem (x := (rho : Int)) (by omega) (by omega), satTo_of_mem (by omega) (by omega), Int.toNat_natCast]

/-- An input with ratio `v` decided in the running tick. -/
def rhoNoted (s : State) (i v : Nat) : State := setAes s i { aesOf s i with rhoNext := some (s.clk.tick + 4, v), rhoAt := s.clk.tick }

theorem decideRho_eq : decideRho s i rho = (rhoNoted s i (decidedRho (aesOf s i) rho), decidedRho (aesOf s i) rho) := rfl

theorem rhoDecision_idle (h : aesMode s i ≠ 2 ∨ (aesOf s i).state ≠ .locked) : rhoDecision s i rho = s :=
  if_pos (by simpa using h)

section
variable (hmode : aesMode s i = 2) (hlocked : (aesOf s i).state = .locked)
include hmode hlocked

theorem rhoDecision_running : rhoDecision s i rho =
    if s.twin.role = .standby then
      if (aesOf s i).rhoAt + 68 ≤ s.clk.tick then (decideRho s i rho).1.mark (s.clk.tick + 4) 6
      else if ratioOk rho then (rhoNoted s i rho).heard 3
      else s
    else if s.clk.tick < (aesOf s i).rhoAt + 64 then s
    else if s.twin.role = .active then (decideRho s i rho).1.sendPort 3 (.aesRho i (s.clk.tick + 4) (decideRho s i rho).2)
    else (decideRho s i rho).1 :=
  if_neg (by simp [hmode, hlocked])

theorem rhoDecision_own (hdue : (s.twin.role ≠ .standby ∧ (aesOf s i).rhoAt + 64 ≤ s.clk.tick) ∨
    (s.twin.role = .standby ∧ (aesOf s i).rhoAt + 68 ≤ s.clk.tick)) : let v := decidedRho (aesOf s i) rho
    rhoDecision s i rho =
      if s.twin.role = .standby then (rhoNoted s i v).mark (s.clk.tick + 4) 6
      else if s.twin.role = .active then (rhoNoted s i v).sendPort 3 (.aesRho i (s.clk.tick + 4) v) else rhoNoted s i v := by
  rw [rhoDecision_running s hmode hlocked, decideRho_eq]
  obtain ⟨hrole, hdue⟩ | ⟨hrole, hdue⟩ := hdue
  · simp only [if_neg hrole, if_neg (Nat.not_lt.mpr hdue)]
  · simp only [if_pos hrole, if_pos hdue]

theorem execAes3RhoDecision_own (hlast : ratioOk (lastRho (aesOf s i)) = true)
    (hdue : (s.twin.role ≠ .standby ∧ (aesOf s i).rhoAt + 64 ≤ s.clk.tick) ∨
      (s.twin.role = .standby ∧ (aesOf s i).rhoAt + 68 ≤ s.clk.tick)) : let r := aesOf s i
    Gives (.aes3RhoDecision i rho) s (fun t => ∃ v, (aesOf t i).rhoNext = some (s.clk.tick + 4, v) ∧ (aesOf t i).rho = r.rho ∧
      (aesOf t i).rhoAt = s.clk.tick ∧ v ≤ lastRho r + 1024 ∧ lastRho r ≤ v + 1024 ∧ ratioOk v = true ∧
      (ratioOk rho = true → rho ≤ lastRho r + 1024 → lastRho r ≤ rho + 1024 → v = rho) ∧
      (s.twin.role = .active → s.open 3 = true → t.out = s.out ++ [.aesRho i (s.clk.tick + 4) v]) ∧
      (s.twin.role = .standby → t.out = s.out ∧ t.twin.marks = s.twin.marks ++ [(s.clk.tick + 4, 6)])) := by
  have hdecision := rhoDecision_own s (rho := rho) hmode hlocked hdue
  dsimp only at hdecision ⊢
  obtain ⟨hup, hdown, hok⟩ := decidedRho_bounds hlast rho
  have hinput : aesOf (rhoDecision s i rho) i = { aesOf s i with
      rhoNext := some (s.clk.tick + 4, decidedRho (aesOf s i) rho), rhoAt := s.clk.tick } := by
    rw [hdecision]
    split_ifs
    · exact (aesOf_mark ..).trans (aesOf_setAes_self ..)
    · exact (aesOf_sendPort ..).trans (aesOf_setAes_self ..)
    · exact aesOf_setAes_self ..
  refine ⟨_, rfl, decidedRho (aesOf s i) rho, ?_⟩
  rw [hinput]
  refine ⟨rfl, rfl, rfl, hup, hdown, hok, decidedRho_asGiven, fun hrole hopen => ?_, fun hrole => ?_⟩
  · rw [hdecision, if_neg (by rw [hrole]; decide), if_pos hrole]
    exact sendPort_out (rhoNoted s i _) _ hopen
  · rw [hdecision, if_pos hrole]
    exact ⟨rfl, rfl⟩

/-- A Standby takes the ratio it receives as it stands. -/
theorem execAes3RhoDecision_received (hrole : s.twin.role = .standby) (hearly : s.clk.tick < (aesOf s i).rhoAt + 68)
    (hrho : ratioOk rho = true) : Gives (.aes3RhoDecision i rho) s (fun t =>
      aesOf t i = { aesOf s i with rhoNext := some (s.clk.tick + 4, rho), rhoAt := s.clk.tick } ∧ OtherInputsKept s t i) := by
  have hdecision : rhoDecision s i rho = (rhoNoted s i rho).heard 3 := by
    rw [rhoDecision_running s hmode hlocked, if_pos hrole, if_neg (Nat.not_le.mpr hearly), if_pos hrho]
  refine ⟨_, rfl, ?_⟩
  rw [hdecision]
  exact ⟨(aesOf_heard ..).trans (aesOf_setAes_self ..), fun j hj => (aesOf_heard ..).trans (setAes_others s i _ j hj)⟩

theorem rhoDecision_refused (hrole : s.twin.role = .standby) (hearly : s.clk.tick < (aesOf s i).rhoAt + 68)
    (hrho : ratioOk rho = false) : rhoDecision s i rho = s := by
  rw [rhoDecision_running s hmode hlocked, if_pos hrole, if_neg (Nat.not_le.mpr hearly), if_neg (Bool.eq_false_iff.mp hrho)]

theorem rhoDecision_early (hrole : s.twin.role ≠ .standby) (hearly : s.clk.tick < (aesOf s i).rhoAt + 64) :
    rhoDecision s i rho = s := by
  rw [rhoDecision_running s hmode hlocked, if_neg hrole, if_pos hearly]

end

theorem execAes3RhoDecision_ignored (h : aesMode s i ≠ 2 ∨ (aesOf s i).state ≠ .locked ∨
    (s.twin.role = .standby ∧ s.clk.tick < (aesOf s i).rhoAt + 68 ∧ ratioOk rho = false) ∨
    (s.twin.role ≠ .standby ∧ s.clk.tick < (aesOf s i).rhoAt + 64)) : exec (.aes3RhoDecision i rho) s = .next s := by
  refine congrArg Host.Outcome.next ?_
  by_cases hidle : aesMode s i ≠ 2 ∨ (aesOf s i).state ≠ .locked
  · exact rhoDecision_idle s hidle
  · obtain ⟨hmode, hlocked⟩ := not_or.mp hidle
    obtain hm | hl | ⟨hrole, hearly, hrho⟩ | ⟨hrole, hearly⟩ := h
    · exact absurd hm hmode
    · exact absurd hl hlocked
    · exact rhoDecision_refused s (not_not.mp hmode) (not_not.mp hlocked) hrole hearly hrho
    · exact rhoDecision_early s (not_not.mp hmode) (not_not.mp hlocked) hrole hearly

end

/-! AES3_NO_SIGNAL, AES3_RATE_WINDOW and AES3_NON_AUDIO_END (R351, R353, R362) -/

section
variable (s : State) {i : Nat}

theorem execAes3NoSignal_silent (hon : (aesOf s i).state ≠ .off) (hsignal : (aesOf s i).state ≠ .noSignal)
    (hdue : (aesOf s i).lastAt + silenceLimit (aesOf s i) < tickStart s.clk.tick + tickLen s.clk.tick) :
    Gives (.aes3NoSignal i) s (fun t => aesOf t i = { unlocked (aesOf s i) .noSignal with cause := 96 } ∧
      OtherInputsKept s t i) := by
  have hpast : ¬ (tickLen s.clk.tick : Int) ≤ (aesOf s i).lastAt + silenceLimit (aesOf s i) - tickStart s.clk.tick := by omega
  refine ⟨_, congrArg Host.Outcome.next (if_neg (by simp [hon, hsignal, hpast])), ?_⟩
  exact ⟨aesOf_setAes_self .., fun j hj => (setAes_others _ i _ j hj).trans (aesOf_elapse ..)⟩

theorem execAes3NoSignal_ignored (h : (aesOf s i).state = .off ∨ (aesOf s i).state = .noSignal ∨
    (tickStart s.clk.tick + tickLen s.clk.tick : Int) ≤ (aesOf s i).lastAt + silenceLimit (aesOf s i)) :
    exec (.aes3NoSignal i) s = .next s := by
  refine congrArg Host.Outcome.next (if_pos ?_)
  simp only [Bool.or_eq_true, decide_eq_true_eq]
  obtain h | h | h := h
  · exact Or.inl (Or.inl h)
  · exact Or.inl (Or.inr h)
  · exact Or.inr (by omega)

/-- An input whose rate window begins anew with rate `rate` measured. -/
def AesIn.windowNew (r : AesIn) (rate tick : Nat) : AesIn := { r with rate := rate, count := 0, winTick := tick }

/-- An input at the end of a rate window: out of range, to lock anew, or as it was (R355, R358). -/
def AesIn.windowEnded (r : AesIn) (out : Bool) (rate tick : Nat) : AesIn :=
  if out then
    if r.state = .noSignal || r.state = .off then r.windowNew rate tick
    else { unlocked (r.windowNew rate tick) .rateOut with cause := 98 }
  else if r.state = .rateOut then { unlocked (r.windowNew rate tick) .locking with cause := 0 }
  else r.windowNew rate tick

theorem AesIn.windowEnded_stored (r : AesIn) (out : Bool) (rate tick : Nat) : let v := r.windowEnded out rate tick
    v.count = 0 ∧ v.rate = rate ∧ v.winTick = tick := by
  unfold windowEnded
  split_ifs <;> exact ⟨rfl, rfl, rfl⟩

/-- The state with input `i` replaced, and its measured and nominal rate shown. -/
def rateShown (s : State) (i : Nat) (v : AesIn) (rate nominal : Nat) : State :=
  ((setAes s i v).stset 0 (0x2410 + i) 0x05 rate).stset 0 (0x2410 + i) 0x06 nominal

theorem rateShown_input (v : AesIn) (rate nominal : Nat) : aesOf (rateShown s i v rate nominal) i = v := by
  rw [rateShown, aesOf_stset, aesOf_stset, aesOf_setAes_self]

theorem rateShown_rate (v : AesIn) (rate nominal : Nat) : (rateShown s i v rate nominal).stget 0 (0x2410 + i) 0x05 = rate := by
  rw [rateShown, State.stget_stset_ne _ _ _ _ (key_sub_ne (by decide)), stget_stset]

theorem rateWindow_eq (h : 64 ≤ s.clk.tick - (aesOf s i).winTick) : ∃ out nominal, rateWindow s i =
    let rate := (aesOf s i).count * 3000000 / (s.clk.tick - (aesOf s i).winTick)
    let v := (aesOf s i).windowEnded out rate s.clk.tick
    if v.state = .rateOut then rateShown s i v rate nominal else (rateShown s i v rate nominal).leave 98 i 0 :=
  ⟨_, _, if_neg (Nat.not_lt.mpr h)⟩

theorem execAes3RateWindow_ends (hi : i < 16) (hmode : aesMode s i ≠ 0) (h : 64 ≤ s.clk.tick - (aesOf s i).winTick) :
    let r := aesOf s i
    Gives (.aes3RateWindow i) s (fun t => (aesOf t i).count = 0 ∧
      (aesOf t i).rate = r.count * 3000000 / (s.clk.tick - r.winTick) ∧ (aesOf t i).winTick = s.clk.tick ∧
      t.stget 0 (0x2410 + i) 0x05 = r.count * 3000000 / (s.clk.tick - r.winTick)) := by
  obtain ⟨out, nominal, hwindow⟩ := rateWindow_eq s h
  refine ⟨_, congrArg Host.Outcome.next (if_pos ⟨hi, hmode⟩), ?_⟩
  have hinput : aesOf (rateWindow s i) i = (aesOf s i).windowEnded out
      ((aesOf s i).count * 3000000 / (s.clk.tick - (aesOf s i).winTick)) s.clk.tick := by
    rw [hwindow]
    dsimp only
    split
    · exact rateShown_input ..
    · exact (aesOf_leave ..).trans (rateShown_input ..)
  have hrate : (rateWindow s i).stget 0 (0x2410 + i) 0x05 =
      (aesOf s i).count * 3000000 / (s.clk.tick - (aesOf s i).winTick) := by
    rw [hwindow]
    dsimp only
    split
    · exact rateShown_rate ..
    · exact (State.leave_stget ..).trans (rateShown_rate ..)
  obtain ⟨hcount, hmeasured, htick⟩ := (aesOf s i).windowEnded_stored out
    ((aesOf s i).count * 3000000 / (s.clk.tick - (aesOf s i).winTick)) s.clk.tick
  dsimp only
  rw [hinput]
  exact ⟨hcount, hmeasured, htick, hrate⟩

theorem execAes3RateWindow_short (h : s.clk.tick - (aesOf s i).winTick < 64) : exec (.aes3RateWindow i) s = .next s := by
  have hwindow : rateWindow s i = s := if_pos h
  exact congrArg Host.Outcome.next ((congrArg (fun t => if i < 16 ∧ aesMode s i ≠ 0 then t else s) hwindow).trans (ite_self s))

/-- Non-audio payload has ended: both status blocks stand without it, and 8,192 frames went by without a burst (R362). -/
structure NonAudioEnds (s : State) (i : Nat) : Prop where
  going    : (aesOf s i).nonAudio = true
  storedA  : entBytes s.dom (0x2410 + i) 0x09 ≠ []
  storedB  : entBytes s.dom (0x2410 + i) 0x0A ≠ []
  clearA   : statusNonAudio s i 0x09 = false
  clearB   : statusNonAudio s i 0x0A = false
  quiet    : 8192 ≤ (aesOf s i).naFrames

theorem nonAudioEnds_iff : NonAudioEnds s i ↔ ((aesOf s i).nonAudio && !(entBytes s.dom (0x2410 + i) 0x09).isEmpty &&
    !(entBytes s.dom (0x2410 + i) 0x0A).isEmpty && !(statusNonAudio s i 0x09) && !(statusNonAudio s i 0x0A) &&
    decide (8192 ≤ (aesOf s i).naFrames)) = true := by
  simp only [Bool.and_eq_true, Bool.not_eq_true', List.isEmpty_eq_false_iff, decide_eq_true_eq]
  constructor
  · rintro ⟨hgoing, hstoredA, hstoredB, hclearA, hclearB, hquiet⟩
    exact ⟨⟨⟨⟨⟨hgoing, hstoredA⟩, hstoredB⟩, hclearA⟩, hclearB⟩, hquiet⟩
  · rintro ⟨⟨⟨⟨⟨hgoing, hstoredA⟩, hstoredB⟩, hclearA⟩, hclearB⟩, hquiet⟩
    exact ⟨hgoing, hstoredA, hstoredB, hclearA, hclearB, hquiet⟩

theorem execAes3NonAudioEnd_ends (h : NonAudioEnds s i) : Gives (.aes3NonAudioEnd i) s (fun t =>
    aesOf t i = { aesOf s i with nonAudio := false, fadeA := ⟨.silent 0, []⟩, fadeB := ⟨.silent 0, []⟩ } ∧
      OtherInputsKept s t i) :=
  ⟨_, congrArg Host.Outcome.next (if_pos ((nonAudioEnds_iff s).mp h)), (aesOf_leave ..).trans (aesOf_setAes_self ..),
    fun j hj => (aesOf_leave ..).trans (setAes_others s i _ j hj)⟩

theorem execAes3NonAudioEnd_goesOn (h : ¬ NonAudioEnds s i) : exec (.aes3NonAudioEnd i) s = .next s :=
  congrArg Host.Outcome.next (if_neg (mt (nonAudioEnds_iff s).mpr h))

end

/-! AES3_OUTPUT_CHANGE (R368) -/

section
variable (s : State) {i sub v : Nat} {m : List Byte} {x : Val}

theorem execAes3OutputChange_takes (hgate : s.gate (0x2420 + i) = 0) (hcheck : aesOutCheck i sub x = 0) :
    exec (.aes3OutputChange i sub x) s = .next (aesOutApply s i sub x) :=
  exec_takes (index := 0x2420 + i) (eff := fun t => aesOutApply t i sub x) rfl hcheck hgate

theorem execAes3OutputChange_declines (hcheck : aesOutCheck i sub x ≠ 0) :
    Declines (.aes3OutputChange i sub x) s (aesOutCheck i sub x) :=
  declines_of_check (index := 0x2420 + i) (eff := fun t => aesOutApply t i sub x) rfl rfl hcheck

theorem aesOutCheck_enable (hi : i < 16) (hv : v ≤ 1) : aesOutCheck i 0x01 (.num v) = 0 :=
  (firstCode_index hi (boolOk v)).trans (by rw [boolOk, decide_eq_true hv, need_true])

theorem aesOutCheck_noBytes (hi : i < 16) : aesOutCheck i 0x02 (.bytes []) = 0 := firstCode_index hi _

theorem aesOutApply_map (hm : m ≠ []) : aesOutApply s i sub (.bytes m) = s.putBytes (0x2420 + i) sub m :=
  if_neg (by simpa using hm)

end

end Sys2Proof.Machine

namespace Sys2Proof.Machine

/-! PDM inputs (R369 to R375) -/

section
variable (s : State) {i : Nat}

theorem pdmOf_setPdm_self (i : Nat) (p : PdmIn) : pdmOf (setPdm s i p) i = p := mget_mset_self ..

theorem pdmOf_setPdm_ne (p : PdmIn) {i j : Nat} (h : j ≠ i) : pdmOf (setPdm s i p) j = pdmOf s j := mget_mset_ne _ _ _ _ _ h

theorem pdmOf_leave (src a b j : Nat) : pdmOf (s.leave src a b) j = pdmOf s j :=
  congrArg (fun m => mget PdmIn.init m j) ((State.leave_keeps ..).part .pdm rfl)

theorem pdmOf_stset (d k sub v j : Nat) : pdmOf (s.stset d k sub v) j = pdmOf s j := rfl

theorem pdmOn_congr {s t : State} (h : t.dict = s.dict) (j : Nat) : pdmOn t j = pdmOn s j := by
  rw [pdmOn, pdmOn, State.flag, State.flag, State.val, State.val, h]

/-! PDM_STUCK and PDM_STUCK_RECOVER (R375) -/

/-- A live input has given 4,096 equal bits and is not known to be stuck. -/
structure PdmSticks (s : State) (i : Nat) : Prop where
  live  : pdmLive s i = true
  fresh : (pdmOf s i).stuck = false
  equal : (pdmOf s i).full = true ∨ 4096 ≤ (pdmOf s i).run

theorem pdmSticks_iff : PdmSticks s i ↔
    (pdmLive s i && !(pdmOf s i).stuck && ((pdmOf s i).full || decide (4096 ≤ (pdmOf s i).run))) = true := by
  simp only [Bool.and_eq_true, Bool.or_eq_true, Bool.not_eq_true', decide_eq_true_eq]
  exact ⟨fun ⟨h1, h2, h3⟩ => ⟨⟨h1, h2⟩, h3⟩, fun ⟨⟨h1, h2⟩, h3⟩ => ⟨h1, h2, h3⟩⟩

theorem execPdmStuck_counts (h : PdmSticks s i) : Gives (.pdmStuck i) s (fun t =>
    pdmOf t i = { pdmOf s i with stuck := true, full := false, told := false, clean := 0 } ∧ Counts s t (0x2440 + i) 0x08 1) :=
  ⟨_, congrArg Host.Outcome.next (if_pos ((pdmSticks_iff s).mp h)), pdmOf_setPdm_self s i _,
    State.bump_counts (setPdm s i _) (0x2440 + i) 0x08 1⟩

theorem execPdmStuck_ignored (h : ¬ PdmSticks s i) : exec (.pdmStuck i) s = .next s :=
  congrArg Host.Outcome.next (if_neg (mt (pdmSticks_iff s).mpr h))

theorem execPdmStuckRecover_recovers (hstuck : (pdmOf s i).stuck = true) (hclean : 2 ≤ (pdmOf s i).clean) :
    Gives (.pdmStuckRecover i) s (fun t =>
      pdmOf t i = { pdmOf s i with stuck := false, told := false, fade := FadeCh.rising }) :=
  ⟨_, congrArg Host.Outcome.next (if_pos (by simp [hstuck, hclean])), (pdmOf_leave ..).trans (pdmOf_setPdm_self ..)⟩

theorem execPdmStuckRecover_ignored (h : (pdmOf s i).stuck = false ∨ (pdmOf s i).clean < 2) :
    exec (.pdmStuckRecover i) s = .next s := by
  refine congrArg Host.Outcome.next (if_neg fun hend => ?_)
  simp only [Bool.and_eq_true, decide_eq_true_eq] at hend
  obtain ⟨hstuck, hclean⟩ := hend
  exact h.elim (fun hfree => Bool.false_ne_true (hfree.symm.trans hstuck)) (fun hfew => Nat.not_lt.mpr hclean hfew)

/-! PDM_CLOCK_WRITE (R369) -/

section
variable {v : Nat}

theorem pdmClockCheck_in (hv : v ≤ 2) :
    pdmClockCheck s v = need ((List.range 8).all (fun m => !pdmOn s m)) Abort.conflict := by
  rw [pdmClockCheck, rangeOk_in (by omega) (by omega), firstCode_passed, firstCode_single]

theorem execPdmClockWrite_takes (hv : v ≤ 2) (hidle : ∀ m, m < 8 → pdmOn s m = false) (hgate : s.gate 0x2400 = 0) :
    exec (.pdmClockWrite v) s = .next (s.put 0 0x2400 0x01 v) := by
  have hall : (List.range 8).all (fun m => !pdmOn s m) = true :=
    List.all_eq_true.mpr fun m hm => by rw [hidle m (List.mem_range.mp hm)]; rfl
  have hcheck : pdmClockCheck s v = 0 := by rw [pdmClockCheck_in s hv, hall, need_true]
  exact exec_takes (index := 0x2400) (eff := fun t => t.put 0 0x2400 0x01 v) rfl hcheck hgate

theorem execPdmClockWrite_conflict (hv : v ≤ 2) {m : Nat} (hm : m < 8) (hon : pdmOn s m = true) :
    Declines (.pdmClockWrite v) s Abort.conflict := by
  have hall : (List.range 8).all (fun m => !pdmOn s m) = false :=
    List.all_eq_false.mpr ⟨m, List.mem_range.mpr hm, by rw [hon]; decide⟩
  exact declines_of_check (index := 0x2400) (eff := fun t => t.put 0 0x2400 0x01 v) rfl
    (by rw [pdmClockCheck_in s hv, hall, need_false]) (by decide)

end

/-! PDM_ENABLE (R372, R373) -/

section
variable {v : Nat}

theorem execPdmEnable_takes (hgate : s.gate (0x2440 + i) = 0) (hcheck : pdmEnableCheck s i v = 0) :
    exec (.pdmEnable i v) s = .next (pdmEnableApply s i v) :=
  exec_takes (index := 0x2440 + i) (eff := fun t => pdmEnableApply t i v) rfl hcheck hgate

theorem pdmEnableCheck_one (hi : i < 8) : pdmEnableCheck s i 1 = need (pdmFits s i) Abort.conflict := by
  rw [pdmEnableCheck, indexOk_in hi, firstCode_passed]
  exact firstCode_single _

theorem pdmEnableCheck_zero (hi : i < 8) : pdmEnableCheck s i 0 = 0 := by
  rw [pdmEnableCheck, indexOk_in hi, firstCode_passed]
  rfl

/-- The delay of an input is given by its mode, order and ratio and by the media rate, not by its enable. -/
theorem pdmDelay_put (v : Nat) : pdmDelay (s.put 0 (0x2440 + i) 0x01 v) i = pdmDelay s i := by
  have hval : ∀ d j sub, key j sub ≠ key (0x2440 + i) 0x01 → ent (s.put 0 (0x2440 + i) 0x01 v).dict d j sub = ent s.dict d j sub :=
    fun d j sub h => s.val_put_ne 0 d v h
  have hmedia := hval 2 0x1100 0x01 (by simp only [key]; omega)
  have hn : (s.put 0 (0x2440 + i) 0x01 v).n = s.n := by rw [State.n, State.n, perTick, perTick, hmedia]
  have hrate : mediaRate (s.put 0 (0x2440 + i) 0x01 v).dict = mediaRate s.dict := by rw [mediaRate, mediaRate, hmedia]
  have hclock : pdmClock (s.put 0 (0x2440 + i) 0x01 v).dict = pdmClock s.dict := by
    rw [pdmClock, hval 0 0x2400 0x01 (by simp only [key]; omega)]
    rfl
  have hmode : pdmMode (s.put 0 (0x2440 + i) 0x01 v) i = pdmMode s i := hval 1 (0x2440 + i) 0x02 (key_sub_ne (by decide))
  have horder : pdmOrder (s.put 0 (0x2440 + i) 0x01 v) i = pdmOrder s i := hval 4 (0x2440 + i) 0x03 (key_sub_ne (by decide))
  have hratio : pdmRatio (s.put 0 (0x2440 + i) 0x01 v) i = pdmRatio s i := hval 32 (0x2440 + i) 0x04 (key_sub_ne (by decide))
  rw [pdmDelay, pdmDelay, hn, hrate, hclock, hmode, horder, hratio]

theorem pdmEnableApply_on (hoff : pdmOn s i = false) : pdmEnableApply s i 1 =
    (setPdm (s.put 0 (0x2440 + i) 0x01 1) i { PdmIn.init with fade := ⟨.silent 0, []⟩ }).stset
      0 (0x2440 + i) 0x09 (pdmDelay (s.put 0 (0x2440 + i) 0x01 1) i) := if_pos (by simp [hoff])

theorem pdmEnableApply_off (hon : pdmOn s i = true) : pdmEnableApply s i 0 =
    (setPdm (s.put 0 (0x2440 + i) 0x01 0) i { pdmOf s i with stuck := false }).leave 102 i 0 := by
  unfold pdmEnableApply
  dsimp only
  rw [if_neg (by simp), if_pos (by simp [hon])]
  rfl

/-- A write of the value that holds already enters the dictionary and changes nothing else. -/
theorem pdmEnableApply_same (b : Bool) (h : pdmOn s i = b) : pdmEnableApply s i (b2n b) = s.put 0 (0x2440 + i) 0x01 (b2n b) := by
  cases b <;> simp [pdmEnableApply, h, b2n]

theorem execPdmEnable_on (hi : i < 8) (hfits : pdmFits s i = true) (hoff : pdmOn s i = false) (hgate : s.gate (0x2440 + i) = 0) :
    Gives (.pdmEnable i 1) s (fun t =>
      pdmOn t i = true ∧ (pdmOf t i).fade = ⟨.silent 0, []⟩ ∧ t.stget 0 (0x2440 + i) 0x09 = pdmDelay s i) := by
  refine ⟨_, execPdmEnable_takes s hgate (by rw [pdmEnableCheck_one s hi, hfits, need_true]), ?_⟩
  rw [pdmEnableApply_on s hoff, pdmDelay_put]
  exact ⟨s.flag_put (0x2440 + i) 0x01 1, by rw [pdmOf_stset, pdmOf_setPdm_self], stget_stset ..⟩

theorem execPdmEnable_off (hi : i < 8) (hon : pdmOn s i = true) (hgate : s.gate (0x2440 + i) = 0) :
    Gives (.pdmEnable i 0) s (fun t =>
      pdmOn t i = false ∧ pdmOf t i = { pdmOf s i with stuck := false } ∧ ∀ j, j ≠ i → pdmOf t j = pdmOf s j) := by
  refine ⟨_, execPdmEnable_takes s hgate (pdmEnableCheck_zero s hi), ?_⟩
  rw [pdmEnableApply_off s hon]
  exact ⟨(pdmOn_congr ((State.leave_keeps ..).part .dict rfl) i).trans (s.flag_put (0x2440 + i) 0x01 0),
    (pdmOf_leave ..).trans (pdmOf_setPdm_self ..), fun j hj => (pdmOf_leave ..).trans (pdmOf_setPdm_ne _ _ hj)⟩

theorem execPdmEnable_unfit (hi : i < 8) (hfits : pdmFits s i = false) : Declines (.pdmEnable i 1) s Abort.conflict :=
  declines_of_check (index := 0x2440 + i) (eff := fun t => pdmEnableApply t i 1) rfl
    (by rw [pdmEnableCheck_one s hi, hfits, need_false]) (by decide)

end

end

end Sys2Proof.Machine

namespace Sys2Proof.Machine

/-- What AES3_FRAME_RECEIVED leaves of an input that is on, after time has run on to the frame. -/
theorem execAes3FrameReceived_gives (s : State) (at_ i : Nat) (f : AesFrame) (hi : i < 16) (hmode : aesMode (s.elapse at_) i ≠ 0) :
    let u := s.elapse at_
    let r := aesOf s i
    let w := s.val 24 (0x2410 + i) 0x02
    let g := nearestGrid (mediaRate s.dict) (u.clk.local - r.phi)
    Gives (.aes3FrameReceived at_ i f) s (fun t =>
      (aesOf t i).count = r.count + 1 ∧ (aesOf t i).lastAt = u.clk.local ∧
      (aesOf t i).goodA = goodSample w f.a r.goodA ∧ (aesOf t i).goodB = goodSample w f.b r.goodB ∧
      (aesOf t i).naFrames = (if burst f then 0 else r.naFrames + 1) ∧
      t.stget 0 (0x2410 + i) 0x0C = min (s.stget 0 (0x2410 + i) 0x0C + codingErrors f) (2 ^ 32 - 1) ∧
      (r.state = .noSignal → (aesOf t i).state = .locking) ∧
      (aesMode u i = 2 → (aesOf t i).nextIdx = r.nextIdx + 1 ∧ (aesOf t i).frames =
        (⟨r.nextIdx, u.clk.local.toNat, goodSample w f.a r.goodA, goodSample w f.b r.goodB⟩ :: r.frames).take 512) ∧
      (aesMode u i = 1 → r.state = .locked → OnGrid (mediaRate s.dict) r u.clk.local → (aesOf t i).state = .locked ∧
        (aesOf t i).lastG = some g ∧ mget none (aesOf t i).grid (2 * (g + 3)) = some (goodSample w f.a r.goodA) ∧
        mget none (aesOf t i).grid (2 * (g + 3) + 1) = some (goodSample w f.b r.goodB)) ∧
      (aesMode u i = 1 → r.state = .locked → ¬ OnGrid (mediaRate s.dict) r u.clk.local →
        (aesOf t i).state = .locking ∧ (aesOf t i).lastG = none) ∧
      OtherInputsKept s t i) := by
  have hreceived := aesFrame_received (s.elapse at_) i f
  obtain ⟨hcount, hat, hgoodA, hgoodB, hburst⟩ := hreceived.fields
  have hstarts := aesFrame_starts (s.elapse at_) i f
  have hbuffers := aesFrame_buffers (s.elapse at_) i f
  have hon := aesFrame_onGrid (s.elapse at_) i f
  have hoff := aesFrame_offGrid (s.elapse at_) i f
  have herrors := hreceived.errors
  simp only [aesOf_elapse, State.elapse_val, State.elapse_stget] at hcount hgoodA hgoodB hburst herrors
  simp only [aesOf_elapse, State.elapse_val, State.elapse_dict] at hstarts hbuffers hon hoff
  exact ⟨_, execAes3FrameReceived_on s i f at_ hi hmode, hcount, hat, hgoodA, hgoodB, hburst, herrors, hstarts, hbuffers, hon, hoff,
    fun j hj => (hreceived.others j hj).trans (aesOf_elapse ..)⟩

/-- Settles O45: each command's law, for a frame at its instant by the decoder's step and the lock's or the converter's. -/
theorem inputPorts : Obligations.InputPorts := by
  intro s at_ i rho v f vals m x hi
  refine ⟨?_, ?_, execAes3LockValuesReceived_waits s hi, execAes3LockValuesReceived_ignored s, execAes3LockApply_none s,
    fun h => ⟨execAes3LockApply_locks s h, execAes3LockApply_early s h⟩,
    fun hmode hlocked hlast hdue => execAes3RhoDecision_own s hmode hlocked hlast hdue,
    fun hmode hlocked hrole hearly hrho => execAes3RhoDecision_received s hmode hlocked hrole hearly hrho,
    execAes3RhoDecision_ignored s, execAes3NoSignal_silent s, execAes3NoSignal_ignored s,
    execAes3RateWindow_ends s hi, execAes3RateWindow_short s,
    fun hgoing hstoredA hstoredB hclearA hclearB hquiet =>
      execAes3NonAudioEnd_ends s ⟨hgoing, hstoredA, hstoredB, hclearA, hclearB, hquiet⟩, ?_,
    fun hgate hv => ⟨_, execAes3OutputChange_takes s hgate (aesOutCheck_enable hi hv), rfl⟩,
    fun hgate hm hcheck => ⟨_, execAes3OutputChange_takes s hgate hcheck, aesOutApply_map s hm⟩,
    fun hgate => execAes3OutputChange_takes s hgate (aesOutCheck_noBytes hi), execAes3OutputChange_declines s,
    fun hlive hfresh hequal => execPdmStuck_counts s ⟨hlive, hfresh, hequal⟩, ?_, execPdmStuckRecover_recovers s,
    execPdmStuckRecover_ignored s, fun hv hidle hgate => ⟨_, execPdmClockWrite_takes s hv hidle hgate, rfl⟩,
    fun hv m hm hon => execPdmClockWrite_conflict s hv hm hon, execPdmEnable_on s,
    fun hi8 hfits hon hgate => ⟨_, execPdmEnable_takes s hgate (by rw [pdmEnableCheck_one s hi8, hfits, need_true]),
      pdmEnableApply_same s true hon⟩,
    execPdmEnable_off s,
    fun hi8 hoff hgate => ⟨_, execPdmEnable_takes s hgate (pdmEnableCheck_zero s hi8), pdmEnableApply_same s false hoff⟩,
    execPdmEnable_unfit s⟩
  · rintro u rfl hmode
    exact execAes3FrameReceived_gives s at_ i f hi hmode
  · rintro u rfl hmode
    exact execAes3FrameReceived_off s i f at_ hmode
  · refine fun h => execAes3NonAudioEnd_goesOn s fun hends => ?_
    obtain ⟨hgoing, hstoredA, hstoredB, hclearA, hclearB, hquiet⟩ := hends
    simp [hgoing, hstoredA, hstoredB, hclearA, hclearB, Nat.not_lt.mpr hquiet] at h
  · refine fun h => execPdmStuck_ignored s fun hsticks => ?_
    obtain ⟨hlive, hfresh, hequal⟩ := hsticks
    obtain h | h | ⟨hfull, hrun⟩ := h
    · exact Bool.false_ne_true (h.symm.trans hlive)
    · exact Bool.false_ne_true (hfresh.symm.trans h)
    · exact hequal.elim (fun hf => Bool.false_ne_true (hfull.symm.trans hf)) (fun hr => Nat.not_lt.mpr hr hrun)

end Sys2Proof.Machine

namespace Sys2Proof.Machine

/-! Drive channels and rail groups beside what changes them (R382, R391, R392) -/

section
variable {s t u : State} {n : Nat}

theorem drive_congr (h : t.drives = s.drives) (k : Nat) : t.drive k = s.drive k := congrArg (fun m => mget Drive.init m k) h

theorem rail_congr (h : t.rails = s.rails) (g : Nat) : t.rail g = s.rail g := congrArg (fun m => mget Rail.init m g) h

theorem drvEnt_congr (hdict : t.dict = s.dict) (hhist : t.hist = s.hist) (d k sub : Nat) : drvEnt t d k sub = drvEnt s d k sub := by
  simp only [drvEnt, driveDict, State.dictAt, hdict, hhist]

theorem railState_congr (hdict : t.dict = s.dict) (hhist : t.hist = s.hist) (hrails : t.rails = s.rails) (k : Nat) :
    railState t k = railState s k := by
  simp only [railState, railOf, drvEnt_congr hdict hhist, rail_congr hrails]

/-- Every channel but `n` is as it was. -/
def OtherDrivesKept (s t : State) (n : Nat) : Prop := ∀ k, k ≠ n → t.drive k = s.drive k

theorem OtherDrivesKept.of_drives (h : t.drives = s.drives) : OtherDrivesKept s t n := fun k _ => drive_congr h k

theorem OtherDrivesKept.trans (h : OtherDrivesKept s t n) (h' : OtherDrivesKept t u n) : OtherDrivesKept s u n :=
  fun k hk => (h' k hk).trans (h k hk)

theorem Keeps.otherDrives {f : List Part} (h : Keeps f s t) (hf : Part.isIn .drives f = false) : OtherDrivesKept s t n :=
  .of_drives (h.part .drives hf)

end

section
variable (s : State) (n : Nat) (d : Drive)

theorem setDrive_drive_self : (s.setDrive n d).drive n = d := (drive_setDrive ..).trans (if_pos rfl)

theorem setDrive_others : OtherDrivesKept s (s.setDrive n d) n := fun _ hk => (drive_setDrive ..).trans (if_neg hk)

@[simp] theorem putDrive_drive_self : (putDrive s n d).drive n = d := setDrive_drive_self ..

theorem putDrive_others : OtherDrivesKept s (putDrive s n d) n := fun k hk => setDrive_others s n d k hk

@[simp] theorem putDrive_state : (putDrive s n d).stget 0 (0x5000 + n) 0x20 = ChState.code d.st := stget_stset ..

theorem putDrive_stget_ne (e : Nat) {i sub : Nat} (h : key i sub ≠ key (0x5000 + n) 0x20) :
    (putDrive s n d).stget e i sub = s.stget e i sub := State.stget_stset_ne _ _ _ _ h

/-- The states in which no loop runs leave no level on the outputs (R392). -/
theorem driveLevel_of_rest (h : modulates (s.drive n).st = false) : driveLevel s n = false := by simp [driveLevel, h]

end

/-! Who is in the condition of an event source (R565) -/

section
variable (s : State) {src x : Nat} (inst a b : Nat)

theorem State.raise_active (src a b x : Nat) : ((s.raise src a b).evSrc x).active = (s.evSrc x).active := by
  unfold State.raise
  split
  · rfl
  · rw [State.evSrc, State.formRecord_srcs]
    simp only [mmod, mget_mset]
    split
    · next hx => rw [hx]; rfl
    · rfl

theorem State.enterAs_active : inst ∈ ((s.enterAs src inst a b).evSrc src).active := by
  unfold State.enterAs
  dsimp only
  split
  · next h => exact List.contains_iff_mem.mp h
  · simp only [State.evSrc, mmod, mget_mset_self]
    exact mem_setAdd_self ..

theorem State.enterAs_active_ne (hx : x ≠ src) : ((s.enterAs src inst a b).evSrc x).active = (s.evSrc x).active := by
  have hraised : ∀ first : Bool, ((if first then s.raise src a b else s).evSrc x).active = (s.evSrc x).active
    | true => s.raise_active src a b x
    | false => rfl
  unfold State.enterAs
  dsimp only
  split
  · rfl
  · rw [← hraised (s.evSrc src).active.isEmpty]
    simp only [State.evSrc, mmod, mget_mset_ne _ _ _ _ _ hx]

theorem State.leaveAs_active_ne (hx : x ≠ src) : ((s.leaveAs src inst a b).evSrc x).active = (s.evSrc x).active := by
  unfold State.leaveAs
  dsimp only
  split
  · split
    · simp only [State.evSrc, State.formRecord_srcs, mmod, mget_mset_ne _ _ _ _ _ hx]
    · simp only [State.evSrc, mmod, mget_mset_ne _ _ _ _ _ hx]
  · rfl

theorem State.condition_active {holds : Bool} (h : holds = true) : inst ∈ ((s.condition src inst a holds).evSrc src).active := by
  subst h
  exact s.enterAs_active ..

theorem State.condition_active_ne (holds : Bool) (hx : x ≠ src) :
    ((s.condition src inst a holds).evSrc x).active = (s.evSrc x).active := by
  cases holds with
  | true => exact s.enterAs_active_ne _ _ _ hx
  | false => exact s.leaveAs_active_ne _ _ _ hx

end

/-! RAIL_STATE_CHANGE (R391) -/

/-- The state that a rail group's stream and its counts lead it to (R391). -/
def Rail.judged (r : Rail) : Nat :=
  if r.sense.stuck then 3
  else
    match r.state with
    | 0 => if 64 ≤ r.below then 1 else if 64 ≤ r.above then 2 else 0
    | 1 => if 19200 ≤ r.back then 0 else 1
    | 2 => if 19200 ≤ r.back then 0 else 2
    | _ => 0

section
variable {r : Rail}

theorem Rail.judged_stuck (h : r.sense.stuck = true) : r.judged = 3 := if_pos h

variable (h : r.sense.stuck = false)
include h

theorem Rail.judged_low (hstate : r.state = 0) (hbelow : 64 ≤ r.below) : r.judged = 1 := by
  simp [Rail.judged, h, hstate, hbelow]

theorem Rail.judged_high (hstate : r.state = 0) (hbelow : r.below < 64) (habove : 64 ≤ r.above) : r.judged = 2 := by
  simp [Rail.judged, h, hstate, Nat.not_le.mpr hbelow, habove]

theorem Rail.judged_back (hstate : r.state = 1 ∨ r.state = 2) (hback : 19200 ≤ r.back) : r.judged = 0 := by
  rcases hstate with hstate | hstate <;> simp [Rail.judged, h, hstate, hback]

theorem Rail.judged_waits (hstate : r.state = 1 ∨ r.state = 2) (hback : r.back < 19200) : r.judged = r.state := by
  rcases hstate with hstate | hstate <;> simp [Rail.judged, h, hstate, Nat.not_le.mpr hback]

end

/-- Group `g` enters state `x` with its counts anew; the channels and the other groups are as they were. -/
def RailEnters (s t : State) (g x : Nat) : Prop :=
  t.rail g = { s.rail g with state := x, below := 0, above := 0, back := 0 } ∧ t.stget 0 (0x5010 + g) 0x0A = x ∧
    t.drives = s.drives ∧ ∀ h, h ≠ g → t.rail h = s.rail h

section
variable {s : State} {g x : Nat}

theorem rail_setRail (s : State) (g : Nat) (v : Rail) (k : Nat) : (setRail s g v).rail k = if k = g then v else s.rail k := mget_mset ..

theorem railJudge_stays (h : (s.rail g).judged = (s.rail g).state) : railJudge s g = s := if_pos h

/-- The group replaced and its state shown, before its events. -/
def railShown (s : State) (g x : Nat) : State :=
  (setRail s g { s.rail g with state := x, below := 0, above := 0, back := 0 }).stset 0 (0x5010 + g) 0x0A x

theorem railJudge_moves (h : (s.rail g).judged = x) (hne : (s.rail g).state ≠ x) : railJudge s g =
    (((railShown s g x).condition 115 g 0 (x = 1)).condition 116 g 0 (x = 2)).condition 117 g 0 (x = 3) := by
  subst h
  exact if_neg hne.symm

theorem railJudge_enters (h : (s.rail g).judged = x) (hne : (s.rail g).state ≠ x) : RailEnters s (railJudge s g) g x := by
  have hkeeps : Keeps [.events] (railShown s g x) (railJudge s g) := by
    rw [railJudge_moves h hne]
    exact ((State.condition_keeps ..).step rfl (State.condition_keeps ..)).step rfl (State.condition_keeps ..) |>.mono rfl
  have hrail : ∀ k, (railJudge s g).rail k = (railShown s g x).rail k := rail_congr (hkeeps.part .rails rfl)
  refine ⟨(hrail g).trans ((rail_setRail ..).trans (if_pos rfl)), ?_, hkeeps.part .drives rfl,
    fun k hk => (hrail k).trans ((rail_setRail ..).trans (if_neg hk))⟩
  exact (congrArg (fun m => mget 0 m (key (0x5010 + g) 0x0A)) (hkeeps.part .stat rfl)).trans (stget_stset ..)

/-- Undervoltage, overvoltage and a stuck stream are the conditions of sources 115, 116 and 117. -/
theorem railJudge_active (h : (s.rail g).judged = x) (hne : (s.rail g).state ≠ x) (hx : x = 1 ∨ x = 2 ∨ x = 3) :
    g ∈ ((railJudge s g).evSrc (114 + x)).active := by
  rw [railJudge_moves h hne]
  obtain rfl | rfl | rfl := hx
  · rw [State.condition_active_ne _ _ _ _ (by decide), State.condition_active_ne _ _ _ _ (by decide)]
    exact State.condition_active _ _ _ rfl
  · rw [State.condition_active_ne _ _ _ _ (by decide)]
    exact State.condition_active _ _ _ rfl
  · exact State.condition_active _ _ _ rfl

theorem execRailStateChange_judges (hg : g < 4) : exec (.railStateChange g) s = .next (railJudge s g) :=
  congrArg Host.Outcome.next (if_pos hg)

theorem execRailStateChange_enters (hg : g < 4) (h : (s.rail g).judged = x) (hne : (s.rail g).state ≠ x) :
    Gives (.railStateChange g) s (fun t => RailEnters s t g x ∧ (x = 1 ∨ x = 2 ∨ x = 3 → g ∈ (t.evSrc (114 + x)).active)) :=
  ⟨_, execRailStateChange_judges hg, railJudge_enters h hne, railJudge_active h hne⟩

end

/-! SENSE_STUCK (R385, R391) and OVER_CURRENT_CUT (R395) -/

section
variable {s : State}

/-- A stuck stream of a channel is the condition of source 114. -/
theorem judgeSense_marks (n k : Nat) (d : Drive) : ((judgeSense (s.setDrive n d) n k true).drive n = d) ∧
    2 * n + k ∈ ((judgeSense (s.setDrive n d) n k true).evSrc 114).active :=
  ⟨(drive_congr ((judgeSense_keeps ..).part .drives rfl) n).trans (setDrive_drive_self ..), State.enterAs_active ..⟩

/-- A group's stuck stream leads it to state 3, or finds it there. -/
theorem execSenseStuck_rail {g : Nat} (h : 4096 ≤ (s.rail g).sense.run) :
    Gives (.senseStuck 2 g) s (fun t => (t.rail g).sense.stuck = true ∧ (t.rail g).state = 3) := by
  let u := setRail s g { s.rail g with sense := { (s.rail g).sense with stuck := true } }
  have hu : u.rail g = { s.rail g with sense := { (s.rail g).sense with stuck := true } } := (rail_setRail ..).trans (if_pos rfl)
  have hjudged : (u.rail g).judged = 3 := Rail.judged_stuck (by rw [hu])
  refine ⟨railJudge u g, congrArg Host.Outcome.next (if_pos h), ?_⟩
  by_cases hstate : (u.rail g).state = 3
  · rw [railJudge_stays (hjudged.trans hstate.symm)]
    exact ⟨by rw [hu], hstate⟩
  · obtain ⟨hrail, -⟩ := railJudge_enters hjudged hstate
    rw [hrail, hu]
    exact ⟨rfl, rfl⟩

@[simp] theorem State.elapse_drive (s : State) (at_ n : Nat) : (s.elapse at_).drive n = s.drive n :=
  drive_congr ((State.elapse_keeps ..).part .drives rfl) n

section
variable {n w : Nat}

theorem overCurrent_passes (h : w < 8 ∨ modulates (s.drive n).st = false ∨ (s.drive n).oc = true) : overCurrent s n w = s := by
  refine if_pos ?_
  rcases h with h | h | h <;> simp [h]

theorem overCurrent_cuts (hw : 8 ≤ w) (hloop : modulates (s.drive n).st = true) (hoc : (s.drive n).oc = false) :
    overCurrent s n w = (s.setDrive n { s.drive n with oc := true, limRun := (s.drive n).limRun + 1 }).bump (0x5000 + n) 0x21 1 :=
  if_neg (by simp [hloop, hoc, hw])

theorem execOverCurrentCut_cuts (at_ : Nat) (hw : 8 ≤ w) (hloop : modulates (s.drive n).st = true) (hoc : (s.drive n).oc = false) :
    Gives (.overCurrentCut at_ n w) s (fun t => t.drive n = { s.drive n with oc := true, limRun := (s.drive n).limRun + 1 } ∧
      driveLevel t n = false ∧ t.stget 0 (0x5000 + n) 0x21 = min (s.stget 0 (0x5000 + n) 0x21 + 1) (2 ^ 32 - 1) ∧
      OtherDrivesKept s t n) := by
  let d := { s.drive n with oc := true, limRun := (s.drive n).limRun + 1 }
  let t := ((s.elapse at_).setDrive n d).bump (0x5000 + n) 0x21 1
  have hcut : overCurrent (s.elapse at_) n w = t := by
    have h := overCurrent_cuts (s := s.elapse at_) (n := n) hw (by rwa [State.elapse_drive]) (by rwa [State.elapse_drive])
    rwa [State.elapse_drive] at h
  have hdrive : t.drive n = d := setDrive_drive_self ..
  refine ⟨t, congrArg Host.Outcome.next hcut, hdrive, ?_, ?_, fun k hk => ?_⟩
  · simp [driveLevel, hdrive, d]
  · exact (State.stget_bump_self ..).trans (by rw [← State.elapse_stget s at_]; rfl)
  · exact (setDrive_others _ n d k hk).trans (State.elapse_drive ..)

end
end

end Sys2Proof.Machine

namespace Sys2Proof.Machine

/-! The Urgent item of a channel (R396) -/

theorem descOk_driveDesc (n block : Nat) : descOk (driveDesc n block) = true := by
  simp [descOk, descStage, descField, driveDesc, slice, leNat, bitsOf, List.range, List.range.loop]

theorem driveDesc_length (n block : Nat) : (driveDesc n block).length = 32 := by
  simp [driveDesc, leBytes]

/-- The entries of channels and rail groups, below those of the Tally and the Beam. -/
theorem key_drive_ne {n sub i b : Nat} (hn : n < 16) (hsub : sub < 256) (hi : 0x7000 ≤ i) : key (0x5000 + n) sub ≠ key i b := by
  simp only [key]
  omega

section
variable {s : State} {n sub : Nat} (e : Nat) (hn : n < 16) (hsub : sub < 256)
include hn hsub

theorem beamError_drive_entry (m addr cause : Nat) : (beamError s m addr cause).stget e (0x5000 + n) sub = s.stget e (0x5000 + n) sub := by
  rw [beamError, State.raise_stget, State.stget_stset_ne _ _ _ _ (key_drive_ne hn hsub (by decide)),
    State.stget_bump_ne _ _ _ (key_drive_ne hn hsub (by decide))]
  rfl

theorem tallyPut_drive_entry (q who : Nat) (d : List Byte) :
    (tallyPut s q who d).1.stget e (0x5000 + n) sub = s.stget e (0x5000 + n) sub := by
  have hbump : (s.bump 0x70C0 0x06 1).stget e (0x5000 + n) sub = s.stget e (0x5000 + n) sub :=
    State.stget_bump_ne _ _ _ (key_drive_ne hn hsub (by decide))
  unfold tallyPut
  dsimp only
  split
  · exact (State.raise_stget ..).trans hbump
  · split
    · dsimp only
      split
      · exact (State.raise_stget ..).trans hbump
      · exact hbump
    · split
      · exact State.stget_stset_ne _ _ _ _ (key_drive_ne hn hsub (by decide))
      · rfl

theorem putWindow_drive_entry (m q ofs : Nat) (d : List Byte) :
    (putWindow s m q ofs d).1.stget e (0x5000 + n) sub = s.stget e (0x5000 + n) sub := by
  unfold putWindow
  dsimp only
  split
  · exact beamError_drive_entry e hn hsub ..
  · split
    · exact beamError_drive_entry e hn hsub ..
    · split
      · exact (beamError_drive_entry e hn hsub ..).trans (tallyPut_drive_entry e hn hsub ..)
      · exact tallyPut_drive_entry e hn hsub ..

/-- The item of a shutdown leaves the entries of the channels. -/
theorem drivePut_entry (k : Nat) : (drivePut s k).stget e (0x5000 + n) sub = s.stget e (0x5000 + n) sub := by
  unfold drivePut
  split
  · unfold engineWrite
    dsimp only
    split
    · exact beamError_drive_entry e hn hsub ..
    · split
      · rfl
      · exact putWindow_drive_entry e hn hsub ..
  · rfl

end

section
variable {s : State}

/-- A write of the module's own hardware that nothing holds acts at once (R257). -/
theorem engineWrite_served {q : BeamReq} (h : Served s q.master 14) (effect : State → State) :
    engineWrite s q effect = effect (grantNoted s 14 q.master false false) := by
  have hfree : blocked s q.master 14 = false := by
    simp [blocked, h.ready, Nat.not_lt.mpr h.unlocked, h.free rfl, h.alone]
  rw [engineWrite, if_neg h.allowed, hfree, h.alone]
  rfl

/-- The PUT of a channel's item to a queue with room, by the drive engines served at once. -/
theorem drivePut_items {q : Nat} (hq : urgentQueue s = some q) (h : Served s 29 14)
    (hroom : (s.queue q).items.length < (s.queue q).cap) (hnone : (s.queue q).held = []) (n : Nat) :
    ∃ it, ((drivePut s n).queue q).items = (s.queue q).items ++ [it] ∧ it.desc = driveDesc n s.clk.tick := by
  have hput := tallyPut_accepted (s := grantNoted s 14 29 false false) (who := 64 + 29) (descOk_driveDesc n s.clk.tick) hroom hnone
  have hserved : drivePut s n = (putWindow (grantNoted s 14 29 false false) 29 q 0 (driveDesc n s.clk.tick)).1 := by
    rw [drivePut, hq]
    exact engineWrite_served (q := tallyBurst 29 (0x20000000 + q * 0x1000) (driveDesc n s.clk.tick)) h _
  rw [hserved, putWindow_whole (s := grantNoted s 14 29 false false) h.allowed (driveDesc_length ..) hput, if_neg nofun,
    accept_queue, if_pos rfl]
  exact ⟨_, rfl, rfl⟩

/-- What a channel does leaves the Beam and the Tally to the drive engines as they were. -/
theorem Served.of_channel {t : State} {m x : Nat} (h : Served s m x) (hk : Keeps [.stat, .drives, .events] s t) : Served t m x := by
  have hsup : t.sup = s.sup := hk.part .sup rfl
  have hbeam : t.beam = s.beam := hk.part .beam rfl
  have htally : t.tally = s.tally := hk.part .tally rfl
  have hready : targetReady t x = targetReady s x := by
    rw [targetReady, targetReady, show t.ledger = s.ledger from hk.part .ledger rfl, show t.dram = s.dram from hk.part .dram rfl]
  constructor
  case issues => rw [masterFenced, hsup]; exact h.issues
  case allowed => rw [pairPri_congr (hk.part .keys rfl) (congrArg Beam.pri hbeam)]; exact h.allowed
  case ready => rw [hready]; exact h.ready
  case alone => rw [hbeam]; exact h.alone
  case unlocked => rw [hbeam]; exact h.unlocked
  case tag => rw [heldTags_congr htally (hk.part .rods rfl)]; exact h.tag
  case free => rw [tallyHeld, htally]; exact h.free

theorem urgentQueue_congr {t : State} (h : t.tally.queues = s.tally.queues) : urgentQueue t = urgentQueue s := by
  simp only [urgentQueue, queue_congr h]

end

/-! A shutdown (R396 to R398): first the failed-retry count of a quiet channel falls, then the channel is shut down -/

section
variable (s : State) (n : Nat)

/-- The failed-retry count that a shutdown finds: none where the channel was quiet for ten seconds (R397). -/
def shutFails : Nat := if quietDrive s (s.drive n) then 0 else s.stget 0 (0x5000 + n) 0x23

theorem retryReset_fails : (retryReset s n).stget 0 (0x5000 + n) 0x23 = shutFails s n := by
  unfold retryReset shutFails
  split
  · exact stget_stset ..
  · rfl

theorem retryReset_entry_ne (e : Nat) {i sub : Nat} (h : key i sub ≠ key (0x5000 + n) 0x23) :
    (retryReset s n).stget e i sub = s.stget e i sub := by
  unfold retryReset
  split
  · exact State.stget_stset_ne _ _ _ _ h
  · rfl

@[simp] theorem retryReset_drive (k : Nat) : (retryReset s n).drive k = s.drive k := drive_congr ((retryReset_keeps ..).part .drives rfl) k

@[simp] theorem retryReset_carrier : (retryReset s n).carrier = s.carrier := (retryReset_keeps ..).part .carrier rfl

@[simp] theorem retryReset_drvEnt (d k sub : Nat) : drvEnt (retryReset s n) d k sub = drvEnt s d k sub :=
  drvEnt_congr ((retryReset_keeps ..).part .dict rfl) ((retryReset_keeps ..).part .hist rfl) d k sub

/-- Whether a shutdown ends a retry less than ten seconds old (R397). -/
def retryFailed (d : Drive) : Bool :=
  match d.retry with
  | some p => decide (s.carrier - p < tenSeconds)
  | none => false

/-- The failed-retry count that a shutdown leaves. -/
def shutCount : Nat := if retryFailed s (s.drive n) then satAdd 255 (s.stget 0 (0x5000 + n) 0x23) 1 else s.stget 0 (0x5000 + n) 0x23

/-- The retry limit in force at a shutdown: taken anew with the first failure (R397). -/
def shutLimit : Nat := if s.stget 0 (0x5000 + n) 0x23 = 0 then drvEnt s 3 n 0x10 else (s.drive n).retryLim

/-- The channel with its outputs low and the shutdown noted. -/
def shutBody : Drive :=
  { driveLow (s.drive n) with
    retry := none, lastShut := some s.carrier, retryLim := shutLimit s n, shutReq := true, fromHold := false }

/-- Whether a shutdown leads to Idle: the channel disabled or Stopping (R398). -/
def ShutsToIdle : Prop := drvEnt s 0 n 0x01 = 0 ∨ (s.drive n).st = .stopping

/-- Whether a shutdown leads to Latched: a failed retry has brought the count to its limit (R397). -/
def ShutsToLatch : Prop := retryFailed s (s.drive n) = true ∧ shutLimit s n ≤ shutCount s n

/-- The channel after a shutdown: Idle, Latched, or in Hold-off. -/
def shutDrive : Drive :=
  if drvEnt s 0 n 0x01 = 0 || (s.drive n).st = .stopping then { driveRest (shutBody s n) .idle with stopEnd := 0 }
  else if retryFailed s (s.drive n) && decide (shutLimit s n ≤ shutCount s n) then driveRest (shutBody s n) .latched
  else { shutBody s n with st := .holdOff, holdEnd := s.carrier + 384 * drvEnt s 500 n 0x0F }

/-- The counters of a shutdown, with its event. -/
def shutNoted : State :=
  ((s.stset 0 (0x5000 + n) 0x23 (shutCount s n)).bump (0x5000 + n) 0x22 1).raise 112 n (shutCount s n)

/-- The channel shut down, before a latch's event and the item. -/
def shutPlaced : State := putDrive (shutNoted s n) n (shutDrive s n)

theorem shutDown_branches : let r := retryReset s n
    shutDown s n = drivePut
      (if drvEnt r 0 n 0x01 = 0 || (r.drive n).st = .stopping then
        putDrive (shutNoted r n) n { driveRest (shutBody r n) .idle with stopEnd := 0 }
      else if retryFailed r (r.drive n) && decide (shutLimit r n ≤ shutCount r n) then
        (putDrive (shutNoted r n) n (driveRest (shutBody r n) .latched)).raise 113 n 0
      else putDrive (shutNoted r n) n { shutBody r n with st := .holdOff, holdEnd := r.carrier + 384 * drvEnt r 500 n 0x0F }) n := rfl

theorem shutDown_eq : ∃ u, Keeps [.events] (shutPlaced (retryReset s n) n) u ∧ shutDown s n = drivePut u n := by
  refine ⟨_, ?_, shutDown_branches s n⟩
  unfold shutPlaced shutDrive
  split
  · exact Keeps.refl _ _
  · split
    · exact State.raise_keeps ..
    · exact Keeps.refl _ _

theorem shutNoted_keeps : Keeps [.stat, .events] s (shutNoted s n) :=
  (State.raise_keeps ..).step rfl ((State.bump_keeps ..).step rfl ((State.stset_keeps ..).mono rfl))

theorem shutPlaced_keeps : Keeps [.stat, .drives, .events] s (shutPlaced (retryReset s n) n) :=
  (putDrive_keeps ..).step rfl ((shutNoted_keeps ..).step rfl ((retryReset_keeps ..).mono rfl))

theorem shutDown_drives : (shutDown s n).drives = (shutPlaced (retryReset s n) n).drives := by
  obtain ⟨u, hu, heq⟩ := shutDown_eq s n
  rw [heq]
  exact ((drivePut_keeps ..).part .drives rfl).trans (hu.part .drives rfl)

theorem shutDown_drive : (shutDown s n).drive n = shutDrive (retryReset s n) n :=
  (drive_congr (shutDown_drives s n) n).trans (putDrive_drive_self ..)

theorem shutDown_others : OtherDrivesKept s (shutDown s n) n := by
  have hnoted : OtherDrivesKept (retryReset s n) (shutNoted (retryReset s n) n) n := (shutNoted_keeps ..).otherDrives rfl
  have hreset : OtherDrivesKept s (retryReset s n) n := (retryReset_keeps ..).otherDrives rfl
  exact ((hreset.trans hnoted).trans (putDrive_others _ n _)).trans (.of_drives (shutDown_drives s n))

end

section
variable {s : State} {n : Nat} (hn : n < 16)
include hn

theorem shutDown_entry {sub : Nat} (hsub : sub < 256) :
    (shutDown s n).stget 0 (0x5000 + n) sub = (shutPlaced (retryReset s n) n).stget 0 (0x5000 + n) sub := by
  obtain ⟨u, hu, heq⟩ := shutDown_eq s n
  rw [heq, drivePut_entry 0 hn hsub, State.stget, State.stget, show u.stat = (shutPlaced (retryReset s n) n).stat from hu.part .stat rfl]

theorem shutDown_state : (shutDown s n).stget 0 (0x5000 + n) 0x20 = ChState.code (shutDrive (retryReset s n) n).st :=
  (shutDown_entry hn (by decide)).trans (putDrive_state ..)

theorem shutDown_counts : (shutDown s n).stget 0 (0x5000 + n) 0x22 = min (s.stget 0 (0x5000 + n) 0x22 + 1) (2 ^ 32 - 1) := by
  rw [shutDown_entry hn (by decide), shutPlaced, putDrive_stget_ne _ _ _ _ (key_sub_ne (by decide)), shutNoted, State.raise_stget,
    State.stget_bump_self, State.stget_stset_ne _ _ _ _ (key_sub_ne (by decide)), retryReset_entry_ne _ _ _ (key_sub_ne (by decide))]

theorem shutDown_fails : (shutDown s n).stget 0 (0x5000 + n) 0x23 = shutCount (retryReset s n) n := by
  rw [shutDown_entry hn (by decide), shutPlaced, putDrive_stget_ne _ _ _ _ (key_sub_ne (by decide)), shutNoted, State.raise_stget,
    State.stget_bump_ne _ _ _ (key_sub_ne (by decide)), stget_stset]

end

section
variable {s : State} {n : Nat}

theorem shutDown_items {q : Nat} (hq : urgentQueue s = some q) (h : Served s 29 14)
    (hroom : (s.queue q).items.length < (s.queue q).cap) (hnone : (s.queue q).held = []) :
    ∃ it, ((shutDown s n).queue q).items = (s.queue q).items ++ [it] ∧ it.desc = driveDesc n s.clk.tick := by
  obtain ⟨u, hu, heq⟩ := shutDown_eq s n
  have hk : Keeps [.stat, .drives, .events] s u := hu.step rfl (shutPlaced_keeps s n)
  have hqueues : u.tally.queues = s.tally.queues := congrArg Tally.queues (hk.part .tally rfl)
  have hqueue : u.queue q = s.queue q := queue_congr hqueues q
  have hput := drivePut_items ((urgentQueue_congr hqueues).trans hq) (h.of_channel hk) (by rwa [hqueue]) (by rwa [hqueue]) n
  rwa [hqueue, hk.clk rfl, ← heq] at hput

/-- The channel's outputs are low and its limiter open, the shutdown is noted and asks for the fault ramp. -/
def ShutLow (s : State) (d : Drive) : Prop :=
  d.s1 = 0 ∧ d.s2 = 0 ∧ d.s3 = 0 ∧ d.gl = 2 ^ 31 - 1 ∧ d.low = true ∧ d.shutReq = true ∧ d.lastShut = some s.carrier ∧ d.retry = none

theorem shutDrive_cases (s : State) (n : Nat) :
    (ShutsToIdle s n ∧ shutDrive s n = { driveRest (shutBody s n) .idle with stopEnd := 0 }) ∨
    (¬ ShutsToIdle s n ∧ ShutsToLatch s n ∧ shutDrive s n = driveRest (shutBody s n) .latched) ∨
    (¬ ShutsToIdle s n ∧ ¬ ShutsToLatch s n ∧
      shutDrive s n = { shutBody s n with st := .holdOff, holdEnd := s.carrier + 384 * drvEnt s 500 n 0x0F }) := by
  have hidle : (decide (drvEnt s 0 n 0x01 = 0) || decide ((s.drive n).st = .stopping)) = true ↔ ShutsToIdle s n := by
    simp [ShutsToIdle]
  have hlatch : (retryFailed s (s.drive n) && decide (shutLimit s n ≤ shutCount s n)) = true ↔
      ShutsToLatch s n := by simp [ShutsToLatch]
  unfold shutDrive
  split
  · next h => exact .inl ⟨hidle.mp h, rfl⟩
  · next h =>
    split
    · next hl => exact .inr (.inl ⟨mt hidle.mpr h, hlatch.mp hl, rfl⟩)
    · next hl => exact .inr (.inr ⟨mt hidle.mpr h, mt hlatch.mpr hl, rfl⟩)

theorem shutDrive_low : ShutLow s (shutDrive s n) := by
  obtain ⟨-, h⟩ | ⟨-, -, h⟩ | ⟨-, -, h⟩ := shutDrive_cases s n <;> rw [h] <;> exact ⟨rfl, rfl, rfl, rfl, rfl, rfl, rfl, rfl⟩

theorem shutDrive_rests : modulates (shutDrive s n).st = false := by
  obtain ⟨-, h⟩ | ⟨-, -, h⟩ | ⟨-, -, h⟩ := shutDrive_cases s n <;> rw [h] <;> rfl

/-- A disabled or Stopping channel is Idle after a shutdown. -/
theorem shutDrive_idle (h : ShutsToIdle s n) : (shutDrive s n).st = .idle ∧ (shutDrive s n).gm = 0 := by
  obtain ⟨-, heq⟩ | ⟨hno, -⟩ | ⟨hno, -⟩ := shutDrive_cases s n
  · rw [heq]
    exact ⟨rfl, rfl⟩
  · exact absurd h hno
  · exact absurd h hno

/-- From the limit on of failed retries the channel is Latched. -/
theorem shutDrive_latched (hon : ¬ ShutsToIdle s n) (h : ShutsToLatch s n) : (shutDrive s n).st = .latched ∧ (shutDrive s n).gm = 0 := by
  obtain ⟨hidle, -⟩ | ⟨-, -, heq⟩ | ⟨-, hno, -⟩ := shutDrive_cases s n
  · exact absurd hidle hon
  · rw [heq]
    exact ⟨rfl, rfl⟩
  · exact absurd h hno

/-- Below the limit the channel is in Hold-off with its mute gain kept. -/
theorem shutDrive_holds (hon : ¬ ShutsToIdle s n) (hbelow : ¬ ShutsToLatch s n) : (shutDrive s n).st = .holdOff ∧
    (shutDrive s n).holdEnd = s.carrier + 384 * drvEnt s 500 n 0x0F ∧ (shutDrive s n).gm = (s.drive n).gm := by
  obtain ⟨hidle, -⟩ | ⟨-, h, -⟩ | ⟨-, -, heq⟩ := shutDrive_cases s n
  · exact absurd hidle hon
  · exact absurd h hbelow
  · rw [heq]
    exact ⟨rfl, rfl, rfl⟩

end

end Sys2Proof.Machine

namespace Sys2Proof.Machine

/-! One channel in a carrier period (R386 to R391): no other channel changes -/

section
variable (s : State) (n : Nat)

theorem startDrive_others (retry : Bool) : OtherDrivesKept s (startDrive s n retry) n := putDrive_others _ _ _

theorem railStop_others (fromHold : Bool) : OtherDrivesKept s (railStop s n fromHold) n := putDrive_others _ _ _

theorem holdOffEnd_others : OtherDrivesKept s (holdOffEnd s n) n := by
  unfold holdOffEnd
  dsimp only
  split
  · split
    · exact railStop_others _ _ _
    · exact startDrive_others _ _ _
  · exact .of_drives rfl

theorem railRelease_others : OtherDrivesKept s (railRelease s n) n := by
  unfold railRelease
  dsimp only
  split
  · exact startDrive_others _ _ _
  · exact .of_drives rfl

/-- The reference of a period before limiting (R386). -/
def loopReference (k : Nat) : Int := reference s (s.drive n) k (muteGain s n (s.drive n))

/-- The limiter gain of a period (R390). -/
def loopLimit (k : Nat) : Int :=
  min (min (railGain s n (railVolts s (railOf s n)) (loopReference s n k))
    ((s.drive n).gl + (ent (driveDict s) 55924 (0x5010 + railOf s n) 0x03 : Nat))) (2 ^ 31 - 1)

/-- The channel after a period of its loop (R387 to R390, R395). -/
def loopDrive (k : Nat) (oc : Bool) : Drive :=
  { loopStep s n (s.drive n) (loopReference s n k) (muteGain s n (s.drive n)) (loopLimit s n k) with
    st := if (s.drive n).st = .starting && muteGain s n (s.drive n) = 2 ^ 31 - 1 then .running else (s.drive n).st,
    limRun := if oc then (if (s.drive n).oc then (s.drive n).limRun else 0) + 1 else if (s.drive n).oc then (s.drive n).limRun else 0,
    oc := oc, leastGl := min (s.drive n).leastGl (loopLimit s n k) }

theorem loopPeriod_eq (k : Nat) (oc : Bool) : loopPeriod s n k oc =
    let t := putDrive s n (loopDrive s n k oc)
    let u := if loopLimit s n k < 2 ^ 31 - 1 then t.bump (0x5010 + railOf s n) 0x0B 1 else t
    if oc then u.bump (0x5000 + n) 0x21 1 else u := rfl

theorem loopPeriod_drives (k : Nat) (oc : Bool) : (loopPeriod s n k oc).drives = (putDrive s n (loopDrive s n k oc)).drives := by
  rw [loopPeriod_eq]
  dsimp only
  split
  · split <;> rfl
  · split <;> rfl

theorem loopPeriod_others (k : Nat) (oc : Bool) : OtherDrivesKept s (loopPeriod s n k oc) n :=
  (putDrive_others _ _ _).trans (.of_drives (loopPeriod_drives s n k oc))

theorem loopPeriod_drive (k : Nat) (oc : Bool) : (loopPeriod s n k oc).drive n = loopDrive s n k oc :=
  (drive_congr (loopPeriod_drives s n k oc) n).trans (putDrive_drive_self ..)

theorem rampPeriod_others : OtherDrivesKept s (rampPeriod s n) n := setDrive_others _ _ _

theorem rampPeriod_drive : (rampPeriod s n).drive n = { if modulates (s.drive n).st then s.drive n else
    { s.drive n with gm := muteGain s n (s.drive n) } with
      ramp := (s.drive n).ramp || (s.drive n).rampSet, rampSet := false } := setDrive_drive_self ..

/-- The sense bits of a period move the streams and the meters of their channel alone. -/
theorem sensePush_drives (inp : CarrierIn) : ∃ v i a b, (sensePush s n inp).drives =
    (s.setDrive n { s.drive n with v := v, i := i, vPeak := a, iPeak := b }).drives ∨ sensePush s n inp = s := by
  unfold sensePush
  split
  · exact ⟨(s.drive n).v, (s.drive n).i, 0, 0, .inr rfl⟩
  · exact ⟨_, _, _, _, .inl (((judgeSense_keeps ..).part .drives rfl).trans ((judgeSense_keeps ..).part .drives rfl))⟩

theorem sensePush_others (inp : CarrierIn) : OtherDrivesKept s (sensePush s n inp) n := by
  obtain ⟨v, i, a, b, h | h⟩ := sensePush_drives s n inp
  · exact (setDrive_others _ _ _).trans (.of_drives h)
  · exact .of_drives (congrArg State.drives h)

theorem sensePush_drive (inp : CarrierIn) : ∃ v i a b,
    (sensePush s n inp).drive n = { s.drive n with v := v, i := i, vPeak := a, iPeak := b } := by
  obtain ⟨v, i, a, b, h | h⟩ := sensePush_drives s n inp
  · exact ⟨v, i, a, b, (drive_congr h n).trans (setDrive_drive_self ..)⟩
  · exact ⟨_, _, _, _, congrArg (fun t => State.drive t n) h⟩

theorem channelPeriod_others (k : Nat) (inp : CarrierIn) : OtherDrivesKept s (channelPeriod k inp s n) n := by
  unfold channelPeriod
  split
  · exact .of_drives rfl
  · refine .trans (.trans (.trans ((holdOffEnd_others s n).trans (railRelease_others _ _)) ?_) (rampPeriod_others _ _)) (sensePush_others _ _ _)
    split
    · exact shutDown_others _ _
    · split
      · split
        · exact railStop_others _ _ _
        · exact loopPeriod_others _ _ _ _
      · exact .of_drives rfl

end

/-! A Running channel and an Idle one in a carrier period -/

section
variable {s : State} {n : Nat}

theorem holdOffEnd_skips (h : (s.drive n).st ≠ .holdOff) : holdOffEnd s n = s := if_neg (by simp [h])

theorem railRelease_skips (h : (s.drive n).st ≠ .railStop) : railRelease s n = s := if_neg (by simp [h])

theorem channelPeriod_runs (k : Nat) (inp : CarrierIn) (hfence : s.fenced (0x700 + n) = false) (hst : (s.drive n).st = .running)
    (hmust : mustShut (s.drive n) = false) (hrail : railState s n = 0) : channelPeriod k inp s n =
      sensePush (rampPeriod (loopPeriod s n k (bitOf inp.oc n)) n) n inp := by
  have hloop : modulates (s.drive n).st = true := by rw [hst]; rfl
  unfold channelPeriod
  dsimp only
  rw [hfence, if_neg Bool.false_ne_true, holdOffEnd_skips (by rw [hst]; nofun), railRelease_skips (by rw [hst]; nofun), hmust,
    if_neg Bool.false_ne_true, if_pos hloop, if_neg (not_not_intro hrail)]

theorem channelPeriod_idles (k : Nat) (inp : CarrierIn) (hfence : s.fenced (0x700 + n) = false) (hst : (s.drive n).st = .idle) :
    channelPeriod k inp s n = sensePush (rampPeriod s n) n inp := by
  have hloop : modulates (s.drive n).st = false := by rw [hst]; rfl
  have hmust : mustShut (s.drive n) = false := by rw [mustShut, hloop]; rfl
  unfold channelPeriod
  dsimp only
  rw [hfence, if_neg Bool.false_ne_true, holdOffEnd_skips (by rw [hst]; nofun), railRelease_skips (by rw [hst]; nofun), hmust,
    if_neg Bool.false_ne_true, hloop, if_neg Bool.false_ne_true]

theorem muteGain_running {d : Drive} (h : d.st = .running) :
    muteGain s n d = if d.ramp then max 0 (d.gm - 2 ^ 25) else if d.low then 0 else 2 ^ 31 - 1 := by
  simp [muteGain, modulates, h]

theorem muteGain_idle {d : Drive} (h : d.st = .idle) (hramp : d.ramp = false) : muteGain s n d = d.gm := by
  simp [muteGain, modulates, h, hramp]

section
variable (s n) (d : Drive) (rpre gm gl : Int)

theorem loopStep_gm : (loopStep s n d rpre gm gl).gm = gm := by
  unfold loopStep
  split <;> rfl

theorem loopStep_low : (loopStep s n d rpre gm gl).low = false := by
  unfold loopStep
  split
  · rfl
  · next h => exact Bool.eq_false_iff.mpr h

theorem loopStep_first (h : d.low = true) : (loopStep s n d rpre gm gl).duty = 2048 := by
  rw [loopStep, if_pos h]

/-- A duty is kept within its least one on either side. -/
theorem loopStep_duty (h : drvEnt s 164 n 0x06 ≤ 2048) : drvEnt s 164 n 0x06 ≤ (loopStep s n d rpre gm gl).duty ∧
    (loopStep s n d rpre gm gl).duty ≤ 4096 - drvEnt s 164 n 0x06 := by
  unfold loopStep
  split
  · exact ⟨h, by change 2048 ≤ _; omega⟩
  · dsimp only
    omega

end

/-- What a carrier period makes of a Running channel that stays so (R387, R388, R395). -/
def RunsPeriod (s : State) (n : Nat) (oc : Bool) (e : Drive) : Prop :=
  e.st = .running ∧ e.low = false ∧
    e.gm = (if (s.drive n).ramp then max 0 ((s.drive n).gm - 2 ^ 25) else if (s.drive n).low then 0 else 2 ^ 31 - 1) ∧
    e.limRun = (if (s.drive n).oc then (s.drive n).limRun else 0) + (if oc then 1 else 0) ∧ e.oc = oc ∧
    ((s.drive n).low = true → e.duty = 2048) ∧
    (drvEnt s 164 n 0x06 ≤ 2048 → drvEnt s 164 n 0x06 ≤ e.duty ∧ e.duty ≤ 4096 - drvEnt s 164 n 0x06)

theorem loopDrive_runs (k : Nat) (oc : Bool) (h : (s.drive n).st = .running) : RunsPeriod s n oc (loopDrive s n k oc) := by
  refine ⟨?_, loopStep_low .., (loopStep_gm ..).trans (muteGain_running h), ?_, rfl, loopStep_first _ _ _ _ _ _, loopStep_duty _ _ _ _ _ _⟩
  · simp [loopDrive, h]
  · cases oc <;> rfl

theorem channelPeriod_running (k : Nat) (inp : CarrierIn) (hfence : s.fenced (0x700 + n) = false) (hst : (s.drive n).st = .running)
    (hmust : mustShut (s.drive n) = false) (hrail : railState s n = 0) :
    RunsPeriod s n (bitOf inp.oc n) ((channelPeriod k inp s n).drive n) := by
  rw [channelPeriod_runs k inp hfence hst hmust hrail]
  obtain ⟨v, i, a, b, hpush⟩ := sensePush_drive (rampPeriod (loopPeriod s n k (bitOf inp.oc n)) n) n inp
  have hruns := loopDrive_runs k (bitOf inp.oc n) hst
  have hmod : modulates (loopDrive s n k (bitOf inp.oc n)).st = true := by rw [hruns.1]; rfl
  rw [hpush, rampPeriod_drive, loopPeriod_drive, if_pos hmod]
  exact hruns

theorem channelPeriod_idle (k : Nat) (inp : CarrierIn) (hfence : s.fenced (0x700 + n) = false) (hst : (s.drive n).st = .idle)
    (hramp : (s.drive n).ramp = false) : let e := (channelPeriod k inp s n).drive n
      e.st = .idle ∧ e.gm = (s.drive n).gm ∧ e.duty = (s.drive n).duty := by
  have hmod : ¬ modulates (s.drive n).st = true := by rw [hst]; nofun
  obtain ⟨v, i, a, b, hpush⟩ := sensePush_drive (rampPeriod s n) n inp
  dsimp only
  rw [channelPeriod_idles k inp hfence hst, hpush, rampPeriod_drive, if_neg hmod]
  exact ⟨hst, muteGain_idle hst hramp, rfl⟩

end

/-! CARRIER_PERIOD (R382): the channels in order -/

/-- What the channels' periods may change. -/
def channelParts : List Part := [.stat, .drives, .tally, .beam, .events]

theorem channelPeriods_keep (k : Nat) (inp : CarrierIn) (s : State) (l : List Nat) :
    Keeps channelParts s (l.foldl (channelPeriod k inp) s) :=
  keeps_foldl (fun _ _ h => (channelPeriod_keeps ..).step rfl h) (Keeps.refl _ _)

theorem channelPeriods_drive_ne (k : Nat) (inp : CarrierIn) {n : Nat} : ∀ (l : List Nat) (s : State), n ∉ l →
    (l.foldl (channelPeriod k inp) s).drive n = s.drive n
  | [], _, _ => rfl
  | c :: l, s, h => (channelPeriods_drive_ne k inp l _ (List.not_mem_of_not_mem_cons h)).trans
      (channelPeriod_others s c k inp n (List.ne_of_not_mem_cons h))

/-- Channel `n` meets its period as the channels before it left the rest. -/
theorem channelPeriods_drive (k : Nat) (inp : CarrierIn) (s : State) {n : Nat} (hn : n < 16) : ∃ u, Keeps channelParts s u ∧
    u.drive n = s.drive n ∧ ((List.range 16).foldl (channelPeriod k inp) s).drive n = (channelPeriod k inp u n).drive n := by
  obtain ⟨l, l', hl⟩ := List.append_of_mem (List.mem_range.mpr hn)
  have hnodup := List.nodup_range (n := 16)
  rw [hl, List.nodup_append] at hnodup
  obtain ⟨-, hcons, hdisjoint⟩ := hnodup
  have hbefore : n ∉ l := fun h => hdisjoint n h n List.mem_cons_self rfl
  refine ⟨l.foldl (channelPeriod k inp) s, channelPeriods_keep k inp s l, channelPeriods_drive_ne k inp l s hbefore, ?_⟩
  rw [hl, List.foldl_append, List.foldl_cons]
  exact channelPeriods_drive_ne k inp l' _ (List.nodup_cons.mp hcons).1

/-- The state at the start of the carrier period, with the gate as it stands. -/
def carrierOpened (s : State) : State :=
  let u := s.elapse (s.carrier * 1000000000 / 384000 - tickStart s.clk.tick)
  { u with twin := { u.twin with gateUp := driveSel u } }

theorem carrierOpened_keeps (s : State) : Keeps [.clk, .time, .events, .twin] s (carrierOpened s) :=
  keeps_twin rfl ((State.elapse_keeps ..).mono rfl)

theorem carrierPeriod_outside (s : State) (inp : CarrierIn) (h : s.carrier < 128 * s.clk.tick ∨ 128 * (s.clk.tick + 1) ≤ s.carrier) :
    carrierPeriod s inp = s.elapse (s.carrier * 1000000000 / 384000 - tickStart s.clk.tick) := by
  unfold carrierPeriod
  dsimp only
  rw [State.elapse_tick, if_pos h]

section
variable {s : State} (inp : CarrierIn) (hlo : 128 * s.clk.tick ≤ s.carrier) (hhi : s.carrier < 128 * (s.clk.tick + 1))
include hlo hhi

theorem carrierPeriod_inside : ∃ t, Keeps [.stat, .rails, .events]
      ((List.range 16).foldl (channelPeriod (s.carrier - 128 * s.clk.tick) inp) (carrierOpened s)) t ∧
    carrierPeriod s inp = { t with carrier := s.carrier + 1 } := by
  have hin : ¬ (s.carrier < 128 * s.clk.tick ∨ 128 * (s.clk.tick + 1) ≤ s.carrier) := by omega
  unfold carrierPeriod
  dsimp only
  rw [State.elapse_tick, if_neg hin]
  refine ⟨_, ?_, rfl⟩
  exact keeps_ite (fun _ => keeps_foldl (fun _ _ h => (railPeriod_keeps ..).step rfl h) (Keeps.refl _ _)) (fun _ => Keeps.refl _ _)

theorem carrierPeriod_tick : (carrierPeriod s inp).clk.tick = s.clk.tick := by
  obtain ⟨t, ht, heq⟩ := carrierPeriod_inside inp hlo hhi
  have hclk := (ht.clk rfl).trans ((channelPeriods_keep ..).clk rfl)
  rw [heq]
  exact (congrArg Clock.tick hclk :).trans (State.elapse_tick ..)

/-- Channel `n`'s period, in a state that has what the period reads. -/
theorem carrierPeriod_drive {n : Nat} (hn : n < 16) : ∃ u, u.drive n = s.drive n ∧ u.sup = s.sup ∧ u.dict = s.dict ∧ u.hist = s.hist ∧
    u.rails = s.rails ∧ (carrierPeriod s inp).drive n = (channelPeriod (s.carrier - 128 * s.clk.tick) inp u n).drive n := by
  obtain ⟨t, ht, heq⟩ := carrierPeriod_inside inp hlo hhi
  obtain ⟨u, hu, hdrive, hfold⟩ := channelPeriods_drive (s.carrier - 128 * s.clk.tick) inp (carrierOpened s) hn
  have ho := carrierOpened_keeps s
  refine ⟨u, hdrive.trans (drive_congr (ho.part .drives rfl) n), (hu.part .sup rfl).trans (ho.part .sup rfl),
    (hu.part .dict rfl).trans (ho.part .dict rfl), (hu.part .hist rfl).trans (ho.part .hist rfl),
    (hu.part .rails rfl).trans (ho.part .rails rfl), ?_⟩
  rw [heq, ← hfold]
  exact drive_congr (ht.part .drives rfl) n

theorem carrierPeriod_running {n : Nat} (hn : n < 16) (hfence : s.fenced (0x700 + n) = false) (hst : (s.drive n).st = .running)
    (hmust : mustShut (s.drive n) = false) (hrail : railState s n = 0) :
    RunsPeriod s n (bitOf inp.oc n) ((carrierPeriod s inp).drive n) := by
  obtain ⟨u, hdrive, hsup, hdict, hhist, hrails, hperiod⟩ := carrierPeriod_drive inp hlo hhi hn
  have hruns := channelPeriod_running (s := u) (n := n) (s.carrier - 128 * s.clk.tick) inp (by rwa [State.fenced, hsup])
    (by rwa [hdrive]) (by rwa [hdrive]) ((railState_congr hdict hhist hrails n).trans hrail)
  rwa [← hperiod, RunsPeriod, hdrive, drvEnt_congr hdict hhist] at hruns

theorem carrierPeriod_idle {n : Nat} (hn : n < 16) (hfence : s.fenced (0x700 + n) = false) (hst : (s.drive n).st = .idle)
    (hramp : (s.drive n).ramp = false) : let e := (carrierPeriod s inp).drive n
      e.st = .idle ∧ e.gm = (s.drive n).gm ∧ e.duty = (s.drive n).duty := by
  obtain ⟨u, hdrive, hsup, -, -, -, hperiod⟩ := carrierPeriod_drive inp hlo hhi hn
  have hidle := channelPeriod_idle (s := u) (n := n) (s.carrier - 128 * s.clk.tick) inp (by rwa [State.fenced, hsup])
    (by rwa [hdrive]) (by rwa [hdrive])
  rwa [← hperiod, hdrive] at hidle

end

/-- Settles O46: a period by the channels' folds, the rails by the state their counts lead to. -/
theorem carrierAndRails : Obligations.CarrierAndRails := by
  intro s at_ n g w inp m d r rails
  refine ⟨fun hlo hhi => ?period, ?outside, fun hg => ⟨?low, ?high, ?back, ?waits, ?stuck, execSenseStuck_rail⟩,
    ?voltage, ?current, ?early, ?cut⟩
  case period =>
    have hcarrier : (carrierPeriod s inp).carrier = s.carrier + 1 := by
      obtain ⟨t, -, heq⟩ := carrierPeriod_inside inp hlo hhi
      rw [heq]
    exact ⟨_, rfl, hcarrier, carrierPeriod_tick inp hlo hhi,
      fun hn hfence => ⟨carrierPeriod_running inp hlo hhi hn hfence, carrierPeriod_idle inp hlo hhi hn hfence⟩⟩
  case outside =>
    rintro u rfl h
    exact congrArg Host.Outcome.next (carrierPeriod_outside s inp h)
  case low =>
    intro hclear hstate hbelow
    exact (execRailStateChange_enters hg (Rail.judged_low hclear hstate hbelow) (by rw [hstate]; decide)).mono
      fun t ht => ⟨ht.1, ht.2 (.inl rfl)⟩
  case high =>
    intro hclear hstate hbelow habove
    exact (execRailStateChange_enters hg (Rail.judged_high hclear hstate hbelow habove) (by rw [hstate]; decide)).mono
      fun t ht => ⟨ht.1, ht.2 (.inr (.inl rfl))⟩
  case back =>
    intro hclear hstate hback
    have hout : r.state ≠ 0 := by rcases hstate with h | h <;> rw [h] <;> decide
    exact (execRailStateChange_enters hg (Rail.judged_back hclear hstate hback) hout).mono fun t ht => ht.1
  case waits =>
    intro hclear hstate hback
    exact (execRailStateChange_judges hg).trans (congrArg Host.Outcome.next (railJudge_stays (Rail.judged_waits hclear hstate hback)))
  case stuck =>
    intro hstuck hstate
    exact (execRailStateChange_enters hg (Rail.judged_stuck hstuck) hstate).mono fun t ht => ⟨ht.1, ht.2 (.inr (.inr rfl))⟩
  case voltage => exact fun h => ⟨_, congrArg Host.Outcome.next (if_pos h), judgeSense_marks n 0 _⟩
  case current => exact fun h => ⟨_, congrArg Host.Outcome.next (if_pos h), judgeSense_marks n 1 _⟩
  case early => exact fun h => congrArg Host.Outcome.next (if_neg (Nat.not_le.mpr h))
  case cut =>
    rintro u rfl
    refine ⟨execOverCurrentCut_cuts at_, fun h => congrArg Host.Outcome.next (overCurrent_passes ?_)⟩
    rwa [State.elapse_drive]

end Sys2Proof.Machine

namespace Sys2Proof.Machine

/-! DRIVE_SHUTDOWN (R396 to R398) -/

section
variable {s : State} {n : Nat}

theorem mustShut_iff (d : Drive) : mustShut d = true ↔ modulates d.st = true ∧ (64 ≤ d.limRun ∨ d.v.stuck = true ∨ d.i.stuck = true) := by
  simp [mustShut, or_assoc]

theorem execDriveShutdown_shuts (h : mustShut (s.drive n) = true) : exec (.driveShutdown n) s = .next (shutDown s n) :=
  congrArg Host.Outcome.next (if_pos h)

theorem retryFailed_old {d : Drive} (h : ∀ p, d.retry = some p → tenSeconds ≤ s.carrier - p) : retryFailed s d = false := by
  unfold retryFailed
  split
  · next p hp => exact decide_eq_false (Nat.not_lt.mpr (h p hp))
  · rfl

theorem retryFailed_young {d : Drive} {p : Nat} (hp : d.retry = some p) (h : s.carrier - p < tenSeconds) : retryFailed s d = true := by
  rw [retryFailed, hp]
  exact decide_eq_true h

/-! What a shutdown reads, in the state it finds -/

theorem retryFailed_reset (d : Drive) : retryFailed (retryReset s n) d = retryFailed s d := by
  rw [retryFailed, retryReset_carrier]
  rfl

theorem shutsToIdle_reset : ShutsToIdle (retryReset s n) n ↔ ShutsToIdle s n := by
  rw [ShutsToIdle, retryReset_drvEnt, retryReset_drive]
  rfl

theorem shutCount_reset : shutCount (retryReset s n) n =
    if retryFailed s (s.drive n) then min (shutFails s n + 1) 255 else shutFails s n := by
  rw [shutCount, retryReset_drive, retryFailed_reset, retryReset_fails, satAdd_eq_min]

theorem shutCount_old (h : retryFailed s (s.drive n) = false) : shutCount (retryReset s n) n = shutFails s n :=
  shutCount_reset.trans (if_neg (Bool.eq_false_iff.mp h))

theorem shutCount_failed (h : retryFailed s (s.drive n) = true) : shutCount (retryReset s n) n = min (shutFails s n + 1) 255 :=
  shutCount_reset.trans (if_pos h)

theorem shutLimit_reset : shutLimit (retryReset s n) n = if shutFails s n = 0 then drvEnt s 3 n 0x10 else (s.drive n).retryLim := by
  rw [shutLimit, retryReset_fails, retryReset_drvEnt, retryReset_drive]

/-- A retry that failed too often latches the channel: the failures reach the limit. -/
theorem shutsToLatch_reset : ShutsToLatch (retryReset s n) n ↔ retryFailed s (s.drive n) = true ∧
    (if shutFails s n = 0 then drvEnt s 3 n 0x10 else (s.drive n).retryLim) ≤ min (shutFails s n + 1) 255 := by
  rw [ShutsToLatch, retryReset_drive, retryFailed_reset, shutLimit_reset]
  exact and_congr_right fun h => by rw [shutCount_failed h]

/-- A shutdown as every channel shows it (R396): outputs low, counted, no other channel changed. -/
def Shuts (s t : State) (n : Nat) : Prop :=
  (t.drive n).s1 = 0 ∧ (t.drive n).s2 = 0 ∧ (t.drive n).s3 = 0 ∧ (t.drive n).gl = 2 ^ 31 - 1 ∧ (t.drive n).low = true ∧
    (t.drive n).shutReq = true ∧ (t.drive n).lastShut = some s.carrier ∧ (t.drive n).retry = none ∧ driveLevel t n = false ∧
    t.stget 0 (0x5000 + n) 0x22 = min (s.stget 0 (0x5000 + n) 0x22 + 1) (2 ^ 32 - 1) ∧ OtherDrivesKept s t n

variable (hn : n < 16)
include hn

theorem shutDown_shuts : Shuts s (shutDown s n) n := by
  have hdrive := shutDown_drive s n
  have hlevel : driveLevel (shutDown s n) n = false := driveLevel_of_rest _ _ (by rw [hdrive]; exact shutDrive_rests)
  obtain ⟨h1, h2, h3, hgl, hlow, hreq, hlast, hretry⟩ := shutDrive_low (s := retryReset s n) (n := n)
  rw [retryReset_carrier] at hlast
  unfold Shuts
  rw [hdrive]
  exact ⟨h1, h2, h3, hgl, hlow, hreq, hlast, hretry, hlevel, shutDown_counts hn, shutDown_others s n⟩

/-- Hold-off (R396): the mute gain stays, and the hold-off time runs. -/
theorem shutDown_holds (hon : ¬ ShutsToIdle s n) (hbelow : ¬ ShutsToLatch (retryReset s n) n) : let t := shutDown s n
    Shuts s t n ∧ ((t.drive n).st = .holdOff ∧ (t.drive n).holdEnd = s.carrier + 384 * drvEnt s 500 n 0x0F ∧
      (t.drive n).gm = (s.drive n).gm ∧ t.stget 0 (0x5000 + n) 0x20 = 4) ∧
      t.stget 0 (0x5000 + n) 0x23 = shutCount (retryReset s n) n := by
  obtain ⟨hst, hend, hgm⟩ := shutDrive_holds (mt shutsToIdle_reset.mp hon) hbelow
  rw [retryReset_carrier, retryReset_drvEnt] at hend
  rw [retryReset_drive] at hgm
  dsimp only
  rw [shutDown_drive]
  exact ⟨shutDown_shuts hn, ⟨hst, hend, hgm, (shutDown_state hn).trans (by rw [hst]; rfl)⟩, shutDown_fails hn⟩

theorem shutDown_latches (hon : ¬ ShutsToIdle s n) (h : ShutsToLatch (retryReset s n) n) : let t := shutDown s n
    Shuts s t n ∧ (t.drive n).st = .latched ∧ (t.drive n).gm = 0 ∧ t.stget 0 (0x5000 + n) 0x20 = 5 ∧
      t.stget 0 (0x5000 + n) 0x23 = shutCount (retryReset s n) n := by
  obtain ⟨hst, hgm⟩ := shutDrive_latched (mt shutsToIdle_reset.mp hon) h
  dsimp only
  rw [shutDown_drive]
  exact ⟨shutDown_shuts hn, hst, hgm, (shutDown_state hn).trans (by rw [hst]; rfl), shutDown_fails hn⟩

theorem shutDown_idles (h : ShutsToIdle s n) : let t := shutDown s n
    Shuts s t n ∧ (t.drive n).st = .idle ∧ (t.drive n).gm = 0 ∧ t.stget 0 (0x5000 + n) 0x20 = 0 := by
  obtain ⟨hst, hgm⟩ := shutDrive_idle (shutsToIdle_reset.mpr h)
  dsimp only
  rw [shutDown_drive]
  exact ⟨shutDown_shuts hn, hst, hgm, (shutDown_state hn).trans (by rw [hst]; rfl)⟩

end

/-! DRIVE_FAULT_ITEM and DRV_MUTE_FAULT_RAMP (R396, R397), HOLD_OFF_END (R397, R398) -/

section
variable {s : State} {n : Nat}

/-- The fault ramp of channel `n` is asked for, and no status entry nor other channel changes. -/
def AsksRamp (s t : State) (n : Nat) : Prop :=
  t.drive n = { s.drive n with rampSet := true, shutReq := false } ∧ t.stat = s.stat ∧ OtherDrivesKept s t n

theorem faultRamp_asks (s : State) (n : Nat) : AsksRamp s (faultRamp s n) n := ⟨setDrive_drive_self .., rfl, setDrive_others _ _ _⟩

theorem execDriveFaultItem_ramps {it : Item} (h : driveItem s n = some it) : Gives (.driveFaultItem n) s (fun t => AsksRamp s t n ∧
    (t.queue it.queue).items = (s.queue it.queue).items.filter (fun j => j.num ≠ it.num) ∧ ∀ q, q ≠ it.queue → t.queue q = s.queue q) := by
  refine ⟨faultRamp (dropItem s it) n, ?_, faultRamp_asks (dropItem s it) n, ?_, fun q hq => (queue_setQueue ..).trans (if_neg hq)⟩
  · change done _ = _
    rw [h]
    rfl
  · exact congrArg Queue.items ((queue_setQueue ..).trans (if_pos rfl))

theorem execDriveFaultItem_none (h : driveItem s n = none) : exec (.driveFaultItem n) s = .next s := by
  change done _ = _
  rw [h]
  rfl

theorem startDrive_drive (s : State) (n : Nat) (retry : Bool) : (startDrive s n retry).drive n = if retry then
    { driveRest (s.drive n) .starting with retry := some s.carrier, lastRetry := some s.carrier }
    else driveRest (s.drive n) .starting := putDrive_drive_self ..

/-- A start (R393): gain 0, outputs low and the limiter open. -/
theorem startDrive_gives (s : State) (n : Nat) (retry : Bool) : let t := startDrive s n retry
    (t.drive n).st = .starting ∧ (t.drive n).gm = 0 ∧ (t.drive n).gl = 2 ^ 31 - 1 ∧ (t.drive n).enables = (s.drive n).enables ∧
      (t.drive n).low = true ∧ t.stget 0 (0x5000 + n) 0x20 = 1 := by
  dsimp only
  rw [startDrive_drive]
  cases retry <;> exact ⟨rfl, rfl, rfl, rfl, rfl, putDrive_state ..⟩

/-- Rail stop (R391): gain 0, and whether a hold-off has led there. -/
theorem railStop_gives (s : State) (n : Nat) (fromHold : Bool) : let t := railStop s n fromHold
    (t.drive n).st = .railStop ∧ (t.drive n).gm = 0 ∧ (t.drive n).fromHold = fromHold ∧ t.stget 0 (0x5000 + n) 0x20 = 6 := by
  have hdrive : (railStop s n fromHold).drive n = { driveRest (s.drive n) .railStop with fromHold := fromHold } := putDrive_drive_self ..
  dsimp only
  rw [hdrive]
  exact ⟨rfl, rfl, rfl, putDrive_state ..⟩

variable (hst : (s.drive n).st = .holdOff)
include hst

theorem holdOffEnd_early (h : s.carrier < (s.drive n).holdEnd) : holdOffEnd s n = s :=
  if_neg (by simp [hst, h])

variable (h : (s.drive n).holdEnd ≤ s.carrier)
include h

theorem holdOffEnd_retries (hrail : railState s n = 0) : holdOffEnd s n = startDrive s n true := by
  rw [holdOffEnd, if_pos (by simp [hst, h]), if_neg (not_not_intro hrail)]

theorem holdOffEnd_railStop (hrail : railState s n ≠ 0) : holdOffEnd s n = railStop s n true := by
  rw [holdOffEnd, if_pos (by simp [hst, h]), if_pos hrail]

/-- A retry starts the channel, is the one being judged, and ends the fault ramp (R397). -/
theorem execHoldOffEnd_retries (hrail : railState s n = 0) : Gives (.holdOffEnd n) s (fun t => (t.drive n).st = .starting ∧
    (t.drive n).gm = 0 ∧ (t.drive n).retry = some s.carrier ∧ (t.drive n).lastRetry = some s.carrier ∧ (t.drive n).ramp = false ∧
    t.stget 0 (0x5000 + n) 0x20 = 1) := by
  obtain ⟨hstart, hgm, -, -, -, hstate⟩ := startDrive_gives s n true
  have hdrive := (startDrive_drive s n true).trans (if_pos rfl)
  have hramp : ((startDrive s n true).drive n).ramp = false := by
    rw [hdrive]
    simp [driveRest, hst]
  exact ⟨_, congrArg Host.Outcome.next (holdOffEnd_retries hst h hrail), hstart, hgm, congrArg Drive.retry hdrive,
    congrArg Drive.lastRetry hdrive, hramp, hstate⟩

end

/-- Settles O47: a shutdown leads by its retry and its enable to Hold-off, Latched or Idle, and its item lies in its queue. -/
theorem driveFaults : Obligations.DriveFaults := by
  intro s n hn d i fails limit shuts shut holds ramps
  have hmust : mustShut d = true ↔ shuts := mustShut_iff d
  refine ⟨fun h => ⟨fun henabled hst => ⟨fun hold => ?old, fun p hp hyoung => ⟨fun hbelow => ?young, fun hlimit => ?latched⟩⟩,
      fun hidle => ?idle, fun q hq hserved hroom hnone => ?item⟩, fun h => ?none,
    fun it => execDriveFaultItem_ramps, execDriveFaultItem_none, ⟨_, congrArg Host.Outcome.next (if_pos hn), faultRamp_asks s n⟩,
    fun hst hend => ⟨execHoldOffEnd_retries hst hend, fun hrail => ?railStop⟩,
    fun hst hearly => congrArg Host.Outcome.next (holdOffEnd_early hst hearly),
    fun hquiet => ⟨_, congrArg Host.Outcome.next (if_pos hquiet), rfl⟩,
    fun hquiet => congrArg Host.Outcome.next (if_neg (Bool.eq_false_iff.mp hquiet))⟩
  case old =>
    have hfailed : retryFailed s (s.drive n) = false := retryFailed_old hold
    have hbelow : ¬ ShutsToLatch (retryReset s n) n := fun hlatch =>
      Bool.false_ne_true (hfailed.symm.trans (shutsToLatch_reset.mp hlatch).1)
    obtain ⟨hshuts, hholds, hfails⟩ := shutDown_holds hn (not_or_intro henabled hst) hbelow
    exact ⟨_, execDriveShutdown_shuts (hmust.mpr h), hshuts, hholds, hfails.trans (shutCount_old hfailed)⟩
  case young =>
    have hbelow' : ¬ ShutsToLatch (retryReset s n) n := fun hlatch => Nat.not_le.mpr hbelow (shutsToLatch_reset.mp hlatch).2
    obtain ⟨hshuts, hholds, hfails⟩ := shutDown_holds hn (not_or_intro henabled hst) hbelow'
    exact ⟨_, execDriveShutdown_shuts (hmust.mpr h), hshuts, hholds, hfails.trans (shutCount_failed (retryFailed_young hp hyoung))⟩
  case latched =>
    have hfailed : retryFailed s (s.drive n) = true := retryFailed_young hp hyoung
    obtain ⟨hshuts, hlatched, hgm, hstate, hfails⟩ :=
      shutDown_latches hn (not_or_intro henabled hst) (shutsToLatch_reset.mpr ⟨hfailed, hlimit⟩)
    exact ⟨_, execDriveShutdown_shuts (hmust.mpr h), hshuts, hlatched, hgm, hstate, hfails.trans (shutCount_failed hfailed)⟩
  case idle => exact ⟨_, execDriveShutdown_shuts (hmust.mpr h), shutDown_idles hn hidle⟩
  case item => exact ⟨_, execDriveShutdown_shuts (hmust.mpr h), shutDown_items hq hserved hroom hnone⟩
  case none => exact congrArg Host.Outcome.next (if_neg (mt hmust.mp h))
  case railStop => exact ⟨_, congrArg Host.Outcome.next (holdOffEnd_railStop hst hend hrail), railStop_gives s n true⟩

end Sys2Proof.Machine

namespace Sys2Proof.Machine

/-! DRIVE_START (R393) and DRIVE_STOP (R394, R398) -/

section
variable {s : State} {n : Nat}

theorem driveStart_ignored (h : s.fenced (0x700 + n) = true ∨ enableDue s n ≠ some true) : driveStart s n = s :=
  if_pos (by simpa using h)

section
variable (hfence : s.fenced (0x700 + n) = false) (hdue : enableDue s n = some true)
include hfence hdue

/-- A start that is due takes its write, and acts where the channel is Idle. -/
theorem driveStart_due : driveStart s n =
    let u := s.setDrive n { s.drive n with enables := enablesLeft s n }
    if (s.drive n).st ≠ .idle then u else if railState s n ≠ 0 then railStop u n false else startDrive u n false := by
  rw [driveStart, if_neg (by simp [hfence, hdue])]

theorem driveStart_late (hst : (s.drive n).st ≠ .idle) :
    driveStart s n = s.setDrive n { s.drive n with enables := enablesLeft s n } :=
  (driveStart_due hfence hdue).trans (if_pos hst)

variable (hst : (s.drive n).st = .idle)
include hst

theorem driveStart_starts (hrail : railState s n = 0) :
    driveStart s n = startDrive (s.setDrive n { s.drive n with enables := enablesLeft s n }) n false := by
  rw [driveStart_due hfence hdue]
  dsimp only
  rw [if_neg (not_not_intro hst), if_neg (not_not_intro hrail)]

theorem driveStart_railStop (hrail : railState s n ≠ 0) :
    driveStart s n = railStop (s.setDrive n { s.drive n with enables := enablesLeft s n }) n false := by
  rw [driveStart_due hfence hdue]
  dsimp only
  rw [if_neg (not_not_intro hst), if_pos hrail]

theorem execDriveStart_starts (hrail : railState s n = 0) : Gives (.driveStart n) s (fun t => (t.drive n).st = .starting ∧
    (t.drive n).gm = 0 ∧ (t.drive n).gl = 2 ^ 31 - 1 ∧ (t.drive n).enables = enablesLeft s n ∧ (t.drive n).low = true ∧
    t.stget 0 (0x5000 + n) 0x20 = 1) := by
  have hgives := startDrive_gives (s.setDrive n { s.drive n with enables := enablesLeft s n }) n false
  dsimp only at hgives
  rw [setDrive_drive_self] at hgives
  exact ⟨_, congrArg Host.Outcome.next (driveStart_starts hfence hdue hst hrail), hgives⟩

theorem execDriveStart_railStop (hrail : railState s n ≠ 0) : Gives (.driveStart n) s (fun t => (t.drive n).st = .railStop ∧
    (t.drive n).fromHold = false ∧ t.stget 0 (0x5000 + n) 0x20 = 6) := by
  obtain ⟨hstop, -, hhold, hstate⟩ := railStop_gives (s.setDrive n { s.drive n with enables := enablesLeft s n }) n false
  exact ⟨_, congrArg Host.Outcome.next (driveStart_railStop hfence hdue hst hrail), hstop, hhold, hstate⟩

end

theorem rampEnd_going (h : (s.drive n).st ≠ .stopping ∨ s.clk.tick < (s.drive n).stopEnd) : rampEnd s n = s := by
  refine if_neg fun hends => ?_
  obtain ⟨hst, hend⟩ := hends
  rcases h with h | h
  · exact h hst
  · omega

theorem rampEnd_ends (hst : (s.drive n).st = .stopping) (hend : (s.drive n).stopEnd ≤ s.clk.tick) :
    rampEnd s n = putDrive s n { driveRest (s.drive n) .idle with stopEnd := 0 } := if_pos ⟨hst, hend⟩

theorem driveStop_none (hdue : enableDue (rampEnd s n) n ≠ some false) : driveStop s n = rampEnd s n := if_pos hdue

/-- Idle with gain 0, as a stop leaves a channel. -/
theorem putDrive_idles (s : State) (n : Nat) (d : Drive) : let t := putDrive s n { driveRest d .idle with stopEnd := 0 }
    (t.drive n).st = .idle ∧ (t.drive n).gm = 0 ∧ (t.drive n).enables = d.enables ∧ t.stget 0 (0x5000 + n) 0x20 = 0 := by
  dsimp only
  rw [putDrive_drive_self]
  exact ⟨rfl, rfl, rfl, putDrive_state ..⟩

section
variable (hdue : enableDue s n = some false)
include hdue

theorem driveStop_ramps (hst : (s.drive n).st = .starting ∨ (s.drive n).st = .running) : driveStop s n =
    putDrive s n { s.drive n with st := .stopping, enables := enablesLeft s n, stopEnd := s.clk.tick + 1 } := by
  have hgoing : rampEnd s n = s := rampEnd_going (.inl (by rcases hst with h | h <;> rw [h] <;> decide))
  unfold driveStop
  dsimp only
  rw [hgoing, if_neg (not_not_intro hdue)]
  rcases hst with h | h <;> rw [h]

theorem driveStop_goesOn (hst : (s.drive n).st = .stopping) (hend : s.clk.tick < (s.drive n).stopEnd) :
    driveStop s n = s.setDrive n { s.drive n with enables := enablesLeft s n } := by
  have hgoing : rampEnd s n = s := rampEnd_going (.inr hend)
  unfold driveStop
  dsimp only
  rw [hgoing, if_neg (not_not_intro hdue)]
  rw [hst]

theorem driveStop_idles (hst : (s.drive n).st ∈ [ChState.idle, .holdOff, .latched, .railStop]) : driveStop s n =
    putDrive s n { driveRest { s.drive n with enables := enablesLeft s n } .idle with stopEnd := 0 } := by
  have hgoing : rampEnd s n = s := rampEnd_going (.inl fun h => by rw [h] at hst; exact absurd hst (by decide))
  unfold driveStop
  dsimp only
  rw [hgoing, if_neg (not_not_intro hdue)]
  simp only [List.mem_cons, List.not_mem_nil, or_false] at hst
  rcases hst with h | h | h | h <;> rw [h]

end

/-- A ramp that has ended leaves the channel Idle, whatever write comes with its end. -/
theorem driveStop_ends (hst : (s.drive n).st = .stopping) (hend : (s.drive n).stopEnd ≤ s.clk.tick) : let t := driveStop s n
    (t.drive n).st = .idle ∧ (t.drive n).gm = 0 ∧ t.stget 0 (0x5000 + n) 0x20 = 0 := by
  let u := rampEnd s n
  have hends : u = putDrive s n { driveRest (s.drive n) .idle with stopEnd := 0 } := rampEnd_ends hst hend
  obtain ⟨hidle, hgm, -, hstate⟩ := putDrive_idles s n (s.drive n)
  rw [← hends] at hidle hgm hstate
  by_cases hdue : enableDue u n = some false
  · have hagain : driveStop s n = driveStop u n := by rw [driveStop, driveStop, rampEnd_going (s := u) (.inl (by rw [hidle]; nofun))]
    obtain ⟨hidle', hgm', -, hstate'⟩ := putDrive_idles u n { u.drive n with enables := enablesLeft u n }
    dsimp only
    rw [hagain, driveStop_idles hdue (by rw [hidle]; decide)]
    exact ⟨hidle', hgm', hstate'⟩
  · dsimp only
    rw [driveStop_none hdue]
    exact ⟨hidle, hgm, hstate⟩

end

/-! Writes of 5000+n:01, 5000+n:27 and 501F:01 (R389, R393, R394, R397, R402) -/

section
variable {s : State} {n : Nat}

/-- An enable needs 501F:01 and a good rail (R393). -/
def MayEnable (s : State) (n : Nat) : Prop := s.flag 0x501F 0x01 = true ∧ (s.rail (s.val 0 (0x5000 + n) 0x05)).state = 0

section
variable (hn : n < 16)
include hn

/-- The enable of a channel is checked against 501F:01, then against its rail. -/
theorem driveEnableCheck_one : driveEnableCheck s n 1 true = firstCode [need (s.flag 0x501F 0x01) Abort.conflict,
    need (decide ((s.rail (s.val 0 (0x5000 + n) 0x05)).state = 0)) Abort.conflict] := by
  rw [driveEnableCheck, indexOk, decide_eq_true hn]
  rfl

theorem driveEnableCheck_zero : driveEnableCheck s n 0 true = 0 := by
  rw [driveEnableCheck, indexOk, decide_eq_true hn]
  rfl

theorem driveEnableCheck_may (h : MayEnable s n) : driveEnableCheck s n 1 true = 0 := by
  obtain ⟨hon, hrail⟩ := h
  rw [driveEnableCheck_one hn, hon, decide_eq_true hrail]
  rfl

theorem driveEnableCheck_mayNot (h : ¬ MayEnable s n) : driveEnableCheck s n 1 true = Abort.conflict := by
  rw [driveEnableCheck_one hn]
  cases hon : s.flag 0x501F 0x01 with
  | false => rfl
  | true =>
    rw [decide_eq_false fun hrail => h ⟨hon, hrail⟩]
    rfl

theorem execDriveEnable_takes (h : MayEnable s n) (hgate : s.gate (0x5000 + n) = 0) :
    exec (.driveEnable n) s = .next (driveEnableApply s n 1) :=
  exec_takes (eff := fun t => driveEnableApply t n 1) rfl (driveEnableCheck_may hn h) hgate

theorem execDriveDisable_takes (hgate : s.gate (0x5000 + n) = 0) : exec (.driveDisable n) s = .next (driveEnableApply s n 0) :=
  exec_takes (eff := fun t => driveEnableApply t n 0) rfl (driveEnableCheck_zero hn) hgate

end

/-- While rendering, an enable asks for a start four ticks on (R393, R564). -/
theorem driveEnableApply_one (s : State) (n : Nat) : let t := driveEnableApply s n 1
    t.val 0 (0x5000 + n) 0x01 = 1 ∧ t.drive n = (if s.flag 0x1100 0x03 then enableAt (s.drive n) s.clk.tick true else s.drive n) ∧
      OtherDrivesKept s t n := by
  have hflag : (s.put 0 (0x5000 + n) 0x01 1).flag 0x1100 0x03 = s.flag 0x1100 0x03 := by
    rw [State.flag, State.flag, State.val_put_ne _ _ _ _ (by simp only [key]; omega)]
  have hval : (s.put 0 (0x5000 + n) 0x01 1).val 0 (0x5000 + n) 0x01 = 1 := val_put ..
  dsimp only
  unfold driveEnableApply
  dsimp only
  rw [hflag]
  cases s.flag 0x1100 0x03 with
  | false => exact ⟨hval, rfl, .of_drives rfl⟩
  | true => exact ⟨hval, setDrive_drive_self .., fun k hk => setDrive_others (s.put 0 (0x5000 + n) 0x01 1) n _ k hk⟩

theorem driveEnableApply_zero (s : State) (n : Nat) : let t := driveEnableApply s n 0
    t.val 0 (0x5000 + n) 0x01 = 0 ∧ t.drive n = enableAt (s.drive n) s.clk.tick false :=
  ⟨val_put s 0 (0x5000 + n) 0x01 0, setDrive_drive_self ..⟩

theorem execClearLatch_takes (hn : n < 16) {v : Nat} (hv : v ≤ 1) (hgate : s.gate (0x5000 + n) = 0) :
    exec (.clearLatch n v) s = .next (clearLatchApply s n v) := by
  refine exec_takes (eff := fun t => clearLatchApply t n v) rfl ?_ hgate
  rw [firstCode_index hn, boolOk, decide_eq_true hv]
  rfl

theorem execClearLatch_range (hn : n < 16) {v : Nat} (hv : 1 < v) : Declines (.clearLatch n v) s Abort.range := by
  refine declines_of_check rfl (code := firstCode [indexOk n 16, boolOk v]) ?_ (by decide)
  rw [firstCode_index hn, boolOk, decide_eq_false (Nat.not_le.mpr hv)]
  rfl

section
variable {v : Nat} (hv : v ≤ 1)
include hv

theorem driveGlobalCheck_inRange : driveGlobalCheck s v =
    firstCode [need ((List.range 16).all (fun k => !s.flag (0x5000 + k) 0x01)) Abort.conflict] := by
  rw [driveGlobalCheck, boolOk, decide_eq_true hv]
  rfl

theorem execDriveEnableGlobal_takes (hgate : s.gate 0x501F = 0) (hoff : ∀ k, k < 16 → s.flag (0x5000 + k) 0x01 = false) :
    Gives (.driveEnableGlobal v) s (fun t => t = s.put 0 0x501F 0x01 v) := by
  have hall : (List.range 16).all (fun k => !s.flag (0x5000 + k) 0x01) = true :=
    List.all_eq_true.mpr fun k hk => by rw [hoff k (List.mem_range.mp hk)]; rfl
  exact ⟨_, exec_takes (eff := fun t => t.put 0 0x501F 0x01 v) rfl (by rw [driveGlobalCheck_inRange hv, hall]; rfl) hgate, rfl⟩

theorem execDriveEnableGlobal_conflict (hn : n < 16) (hon : s.flag (0x5000 + n) 0x01 = true) :
    Declines (.driveEnableGlobal v) s Abort.conflict := by
  have hall : (List.range 16).all (fun k => !s.flag (0x5000 + k) 0x01) = false :=
    List.all_eq_false.mpr ⟨n, List.mem_range.mpr hn, by rw [hon]; nofun⟩
  exact declines_of_check (code := driveGlobalCheck s v) rfl (by rw [driveGlobalCheck_inRange hv, hall]; rfl) (by decide)

end
end

/-! DRIVE_GATE_CHANGE (R380, R451) -/

section
variable {s : State}

theorem driveSel_of_actIn (h : s.twin.actIn = true) : driveSel s = false := by simp [driveSel, roleGate, h]

theorem driveLevel_of_sel (h : driveSel s = false) (k : Nat) : driveLevel s k = false := by simp [driveLevel, h]

theorem driveLevel_of_gate (h : s.twin.gateUp = false) (k : Nat) : driveLevel s k = false := by simp [driveLevel, h]

theorem gateShown_shows (s : State) : (gateShown s).stget 0 0x501F 0x02 = b2n (driveSel (gateShown s)) := stget_stset ..

theorem gateShown_closed (h : s.twin.gateUp = false) : (gateShown s).twin.gateUp = false := by
  change (s.twin.gateUp && driveSel s) = false
  rw [h, Bool.false_and]

/-- ACT_IN is high, and DRV_SEL shows low. -/
def ShownCut (s : State) : Prop := s.twin.actIn = true ∧ s.stget 0 0x501F 0x02 = 0

theorem gateShown_cut (h : s.twin.actIn = true) : ShownCut (gateShown s) := by
  have hin : (gateShown s).twin.actIn = true := h
  exact ⟨hin, (gateShown_shows s).trans (by rw [driveSel_of_actIn hin]; rfl)⟩

theorem ShownCut.of_parts {t : State} (h : ShownCut s) (hin : t.twin.actIn = s.twin.actIn) (hstat : t.stat = s.stat) : ShownCut t := by
  rw [ShownCut, State.stget, hin, hstat]
  exact h

theorem setRole_cut {r : Role} (h : s.twin.actIn = true) (hr : Role.drives r = false) : ShownCut (setRole s r) := by
  unfold setRole
  dsimp only
  rw [hr, if_neg Bool.false_ne_true]
  refine gateShown_cut ?_
  split
  · exact (congrArg Twin.actIn ((State.enterHoldover_keeps s).part .twin rfl) :).trans h
  · exact h

theorem enterStandby_cut (h : s.twin.actIn = true) : ShownCut (enterStandby s) := by
  unfold enterStandby
  split
  · exact setRole_cut h rfl
  · exact (setRole_cut (r := .standby) h rfl).of_parts rfl rfl

/-- ACT_IN high cuts the outputs, in a collision too, whoever gives way. -/
theorem collide_cut (s : State) : ShownCut (collide s) := by
  have hcut : ShownCut (gateChange s true) := gateShown_cut rfl
  unfold collide
  dsimp only
  split
  · exact hcut
  · split
    · exact enterStandby_cut hcut.1
    · split
      · exact hcut
      · exact hcut.of_parts (congrArg Twin.actIn (State.raise_twin ..) :) (State.raise_stat ..)

end

/-- Settles O48: writes under their checks, a start and a stop by the write that is due, the gate by its level. -/
theorem driveWrites : Obligations.DriveWrites := by
  intro s at_ n v level hn d i good
  refine ⟨fun hgood hgate => ⟨_, execDriveEnable_takes hn hgood hgate, driveEnableApply_one s n⟩,
    fun hgood => declines_of_check (code := driveEnableCheck s n 1 true) rfl (driveEnableCheck_mayNot hn hgood) (by decide),
    fun hfence hdue => ⟨execDriveStart_starts hfence hdue, execDriveStart_railStop hfence hdue,
      fun hst => ⟨_, congrArg Host.Outcome.next (driveStart_late hfence hdue hst), rfl⟩⟩,
    fun h => congrArg Host.Outcome.next (driveStart_ignored h),
    fun hgate => ⟨_, execDriveDisable_takes hn hgate, driveEnableApply_zero s n⟩,
    fun hdue => ⟨fun hst => ?stop, fun hst hend => ⟨_, congrArg Host.Outcome.next (driveStop_goesOn hdue hst hend), rfl⟩, fun hst => ?rests⟩,
    fun hst hend => ⟨_, rfl, driveStop_ends hst hend⟩, fun hdue hgoing => ?waits,
    fun hgate => ⟨_, execClearLatch_takes hn (Nat.le_refl 1) hgate, setDrive_drive_self ..⟩,
    fun hgate => execClearLatch_takes hn (Nat.zero_le 1) hgate, execClearLatch_range hn, execDriveEnableGlobal_takes,
    fun hv => execDriveEnableGlobal_conflict hv hn, ?gate⟩
  case stop =>
    exact ⟨_, congrArg Host.Outcome.next (driveStop_ramps hdue hst), putDrive_drive_self .., putDrive_state ..⟩
  case rests =>
    exact ⟨_, congrArg Host.Outcome.next (driveStop_idles hdue hst), putDrive_idles s n { s.drive n with enables := enablesLeft s n }⟩
  case waits =>
    have hsame : rampEnd s n = s := rampEnd_going hgoing
    exact congrArg Host.Outcome.next ((driveStop_none (hsame.symm ▸ hdue)).trans hsame)
  case gate =>
    rintro u rfl
    cases level with
    | true =>
      obtain ⟨hin, hshown⟩ := collide_cut (s.elapse at_)
      have hsel := driveSel_of_actIn hin
      exact ⟨_, rfl, hin, hshown.trans (congrArg b2n hsel).symm, fun _ => ⟨hsel, driveLevel_of_sel hsel⟩, nofun⟩
    | false =>
      have htwin : (s.elapse at_).twin = s.twin := State.elapse_twin ..
      exact ⟨_, rfl, rfl, gateShown_shows .., nofun, fun _ => ⟨(congrArg Twin.role htwin :), (congrArg Twin.actOut htwin :),
        fun hclosed => driveLevel_of_gate (gateShown_closed ((congrArg Twin.gateUp htwin :).trans hclosed))⟩⟩

end Sys2Proof.Machine
